-- ==== Sys2Proof/Word.lean ====
section
/-! DEFINITION. The machine words of the package: a register is 64 bits wide (R5), memory is a run of bytes, a request
slot is 128 bytes, a ring context 64 bytes. -/

namespace Sys2Proof

/-- A register or counter word (R5). -/
abbrev Word := BitVec 64

/-- One byte of a memory. -/
abbrev Byte := BitVec 8

end Sys2Proof
end

