-- ==== Sys2Proof/Syntax.lean ====
section
/-! DEFINITION. The commands: one constructor for each row of spec/opcode_table.json. -/

namespace Sys2Proof

/-- Numbered objects of the package (00_scope, "Numbering used throughout"; R3, R22). -/
abbrev CoreId := Fin 24
abbrev PartId := Fin 32
abbrev TileId := Fin 624
abbrev HubId := Fin 4
/-- Ports 0 to 7 are the switch fabric ports, 8 to 11 the board mesh links N, E, S and W (R350). -/
abbrev PortId := Fin 12

/-- A packet as it arrives at a port: the virtual lane and, on VL0, the class its flits carried (R323), and its bytes,
header first (R329). -/
structure RxPacket where
  port : PortId
  vl : Fin 8
  cmd : Bool
  bytes : List Byte
deriving DecidableEq, Repr

/-- What a mesh packet is at its injection (R33, R34): its class, its length in flits of 256 B, and whether it leaves by the
attachment port of the last router or by its tile. -/
structure MeshLoad where
  cls : Fin 4
  flits : Nat
  att : Bool
deriving DecidableEq, Repr

/-- The source router that lets its held packets go, and the clocks they were held (R37). -/
structure HoldEnd where
  src : TileId
  clocks : Nat
deriving DecidableEq, Repr

/-- A NAK: its queue pair, its packet sequence number, and whether its syndrome reports a remote error (R294). -/
structure NakPacket where
  qp : Fin 64
  psn : BitVec 24
  fatal : Bool
deriving DecidableEq, Repr

/-- A frame of a bulk port and its length in bytes (R293). -/
structure BulkFrame where
  port : Fin 2
  len : Nat
deriving DecidableEq, Repr

/-- What a bring-up meets outside the package and in its store (R387 to R394, R483, R485): the images of the boot flash by
kind, copy A before copy B; whether the PUF read lies within what the helper data corrects; whether a copy of every
record of the resistive store passes its check; whether every rail comes into regulation; the GDDR7 sites and flash
channels that identify as declared; what the flash parameter pages say, blocks of a plane and pages of a block (R269); the
blocks whose factory marker says they are bad (R284); whether the board was repaired since the last boot (R287). -/
structure BootEnv where
  images : List (Nat × List Byte) := []
  puf : Bool := true
  store : Bool := true
  rails : Bool := true
  sites : List Nat := []
  chans : List Nat := []
  flashBlocks : Nat := 0
  flashPages : Nat := 0
  flashBad : List Nat := []
  repaired : Bool := false
deriving DecidableEq, Repr, Inhabited

/-- THE COMMANDS, one constructor for each row of spec/opcode_table.json, in its order; each is one thing that
something outside or a clock of the block does to it, and exec says its effect. -/
inductive Instr where
  /-- REGISTER_WRITE (R487). A 64-bit write to a register that has no row of its own is checked for owner, lock,
  access code, range and alignment, then applied or refused. -/
  | registerWrite (core : CoreId) (addr : BitVec 64) (width : Nat) (value : Word)
  /-- TIM_NOW_READ (R78). A read of TIM_NOW returns fabric time and latches its fraction into TIM_NOW_FRAC. -/
  | timNowRead (core : CoreId)
  /-- PAGE_ENABLE (R14). A write of PAGE_CTRL.enable takes a unit of a block out of service after its work in hand,
  or returns it to service. -/
  | pageEnable (core : CoreId) (page : Fin 32896) (value : Word)
  /-- PAGE_QUIESCE (R14). A write of PAGE_CTRL.quiesce makes the unit finish work in hand and take no new work,
  or resumes it. -/
  | pageQuiesce (core : CoreId) (page : Fin 32896) (value : Word)
  /-- QUIESCE_COMPLETE (R14). Once no work is in hand under quiesce, PAGE_STATUS.quiesced sets and a tile goes to
  QUIESCED. -/
  | quiesceComplete (page : Fin 32896)
  /-- PAGE_LOCK_WRITE (R16). A write of PAGE_LOCK sets the lock at any time; a partition's attempt to clear it is
  refused. -/
  | pageLockWrite (core : CoreId) (page : Fin 32896) (value : Word)
  /-- SCHED_TICK_WRITE (R66). A write of SCHED_TICK sets the staging tick, or with 0 discards every staged value;
  another value while staged writes are pending is refused. -/
  | schedTickWrite (core : CoreId) (page : Fin 32896) (value : Word)
  /-- STAGED_WRITE (R64). A write to an RWT register while the tick generator runs stores a staged value and sets
  staged_pending; while stopped it takes effect at once. -/
  | stagedWrite (core : CoreId) (addr : BitVec 64) (value : Word)
  /-- DOORBELL_PRODUCER (R183). A doorbell of kind 0 sets a new producer index for a submission, DMA or message ring
  after its checks. -/
  | doorbellProducer (core : CoreId) (ring : Fin 65536) (index : BitVec 32)
  /-- DOORBELL_CONSUMER (R183). A doorbell of kind 1 sets a new consumer index for a completion or token output
  ring, freeing ring room. -/
  | doorbellConsumer (core : CoreId) (ring : Fin 65536) (index : BitVec 32)
  /-- TICK_EDGE (R62). At 100 ns after each tick boundary the package performs snapshots, staged writes, power
  changes, border moves, barrier releases and zero-offset glean windows in order. -/
  | tickEdge (calFailed : List TileId) (skewOk : Bool)
  /-- GMAP_SHADOW_COPY_DONE (R401). The copy of the active maps back to the shadows ends and HAY_GMAP_STATUS.copying
  clears. -/
  | gmapShadowCopyDone
  /-- TILE_ZERO_DONE (R381). A moved tile finishes zeroing its 4 MiB, its registers are at reset and it becomes
  ACTIVE under the gaining partition. -/
  | tileZeroDone (tile : TileId)
  /-- HUB_UNIT_ZERO_DONE (R381). A moved hub SRAM unit finishes zeroing and the gaining partition's waiting accesses
  proceed. -/
  | hubUnitZeroDone (hub : HubId) (unit : Fin 256)
  /-- SLICE_ZERO_DONE (R382). The controllers finish zeroing slices removed from a partition and HAY_ZERO_STATUS
  clears for that granule. -/
  | sliceZeroDone
  /-- TICK_RUN_SET (R63). Setting TIM_TICK_CTRL.run starts the tick generator at the next boundary, refused unless
  locked_once and OWNED. -/
  | tickRunSet (core : CoreId)
  /-- TICK_RUN_CLEAR (R63). Clearing run stops ticks and discards every staged value except a committed base cut-
  over, which takes effect at once. -/
  | tickRunClear (core : CoreId)
  /-- PTP_SYNC (R57). A PTP Sync message is timestamped and drives offset estimation, a one-time step in ACQUIRE, or
  the move to LOCKED. -/
  | ptpSync (src : Nat) (domain : BitVec 8) (transport : Fin 3) (seq : BitVec 16) (twoStep : Bool) (origin : BitVec 64) (corr : BitVec 64)
  /-- PTP_FOLLOW_UP (R55). A two-step Follow_Up message supplies the precise origin time of the preceding Sync. -/
  | ptpFollowUp (src : Nat) (domain : BitVec 8) (transport : Fin 3) (seq : BitVec 16) (origin : BitVec 64) (corr : BitVec 64)
  /-- PTP_ANNOUNCE (R55). An Announce message in the configured domain feeds the default best master clock
  algorithm. -/
  | ptpAnnounce (src : Nat) (domain : BitVec 8) (transport : Fin 3) (rank : List Nat)
  /-- PTP_DELAY_REQ (R55). The package sends a Delay_Req for the end-to-end delay mechanism, timestamped in
  hardware. -/
  | ptpDelayReq
  /-- PTP_DELAY_RESP (R55). A Delay_Resp completes a path delay measurement for the offset estimate. -/
  | ptpDelayResp (src : Nat) (domain : BitVec 8) (transport : Fin 3) (seq : BitVec 16) (t4 : BitVec 64) (corr : BitVec 64)
  /-- BEACON (R56). A time beacon from a locked plane is corrected by the link delay and enters the median offset,
  or is rejected beyond 1 us of the PTP estimate. -/
  | beacon (pkt : RxPacket)
  /-- SYNC_LOSS_TIMEOUT (R57). With no PTP Sync for 4 intervals and no usable beacon for 100 us, the discipline
  enters HOLDOVER on its last rate. -/
  | syncLossTimeout
  /-- HOLDOVER_ERROR_LIMIT (R57). In HOLDOVER, est_error_ns passing error_limit sets unsynchronised and raises the
  fault interrupt. -/
  | holdoverErrorLimit (err : BitVec 16)
  /-- STEP_START (R68). At its start tick, or the first edge after its build, copies or previous commit, a
  partition's step starts, its number rises and the step-start barrier releases. -/
  | stepStart (p : PartId)
  /-- BARRIER_RELEASE (R70). An intra-step barrier release message reaches a tile and frees its next barrier
  descriptor in its swath wave. -/
  | barrierRelease (tile : TileId)
  /-- GLEAN_POST (R73). A write of a glean descriptor with status POSTED is accepted and increments seq, or is
  REFUSED for lead or overlap. -/
  | gleanPost (core : CoreId) (entry : Fin 64) (value : Word)
  /-- GLEAN_CANCEL (R75). Setting cancel on a POSTED glean entry moves it to CANCELLED and keeps its resource in
  service. -/
  | gleanCancel (core : CoreId) (entry : Fin 64)
  /-- GLEAN_OPEN (R74). At its start offset a glean window takes its resource out of service for calibration, or
  goes SKIPPED if the resource is already out of service. -/
  | gleanOpen (entry : Fin 64) (calFailed : List TileId) (skewOk : Bool)
  /-- GLEAN_CLOSE (R74). At its end a glean window returns the resource to service, abandoning unfinished
  calibration, and held requests are served in order. -/
  | gleanClose (entry : Fin 64) (finished : Bool) (verified : Bool) (temp : BitVec 8) (chan : Fin 4) (scanned : Nat) (refresh : List Nat)
  /-- GLEAN_SWAP_BACK (R348). In the last 40 us of a lane window the lane takes its traffic back from the spare
  after verifying its recorded skew. -/
  | gleanSwapBack (entry : Fin 64) (skewOk : Bool)
  /-- SELFTEST_START (R48). A hayward write of selftest_start on a tile in OFF or STANDBY starts the 30 ms short
  self-test. -/
  | selftestStart (core : CoreId) (tile : TileId)
  /-- SELFTEST_DONE (R48). A tile's self-test ends and the tile goes ACTIVE if mapped, STANDBY if not, or FAILED. -/
  | selftestDone (tile : TileId) (pass : Bool)
  /-- TILE_FAIL (R48). An uncorrectable SRAM word, router fault or engine self-check failure makes the tile FAILED
  and abandons its in-flight descriptors. -/
  | tileFail (tile : TileId) (cause : Fin 3)
  /-- CORE_FAIL (R42). A failed control core is replaced by its quarter's fallow core, hayward cores first. -/
  | coreFail (core : CoreId)
  /-- MESH_INJECT (R34). A source router chooses a packet's route from the OUT list at injection, or holds or
  discards it. -/
  | meshInject (src : TileId) (x : Fin 24) (y : Fin 26) (load : MeshLoad) (request : Bool)
  /-- MESH_HOLD_RELEASE (R37). After an OUT list change, a source releases held packets once every packet injected
  under the old list is delivered. -/
  | meshHoldRelease (hold : HoldEnd)
  /-- MESH_HOLD_TIMEOUT (R37). A hold lasting longer than hold_timeout sets PAGE_STATUS.fault while the hold
  continues. -/
  | meshHoldTimeout
  /-- OPQ_TAIL_WRITE (R124). A write of TILE_OPQ_TAIL or a hub CTL message advances the tile's queue tail, refused
  when backwards or over the queue size. -/
  | opqTailWrite (via : Option CoreId) (tile : TileId) (tail : BitVec 32)
  /-- OP_RETIRE (R125). An issued operation that has made all its reads and local writes retires, freeing its slot
  and possibly emptying a weight buffer. -/
  | opRetire (tile : TileId) (k : Nat) (corrected : Nat)
  /-- OP_SIGNAL (R126). Once a retired descriptor's mesh writes are acknowledged, its signal value is written to its
  signal target. -/
  | opSignal (tile : TileId) (k : Nat)
  /-- OP_FLUSH (R127). A write of TILE_OP_FLUSH discards unissued descriptors, lets issued ones retire and clears
  the error record and halt. -/
  | opFlush (core : CoreId) (tile : TileId) (value : Word)
  /-- NOP (R144). A NOP descriptor issues on no unit and retires. -/
  | nop (tile : TileId)
  /-- MATMUL (R129). A MATMUL multiplies an activation operand by weights in the fixed order, with optional adapter,
  bias and output pass. -/
  | matmul (tile : TileId)
  /-- FINISH (R133). A FINISH applies adapter, bias and output steps to a combined FP32 product. -/
  | finish (tile : TileId)
  /-- COMBINE (R132). A COMBINE adds a partner's FP32 partial read over the mesh to its own, one level of the rank
  tree. -/
  | combine (tile : TileId)
  /-- VEW_ADD (R134). VEW subop add adds elementwise with one rounding. -/
  | vewAdd (tile : TileId)
  /-- VEW_SUB (R134). VEW subop sub subtracts elementwise with one rounding. -/
  | vewSub (tile : TileId)
  /-- VEW_MUL (R134). VEW subop mul multiplies elementwise with one rounding. -/
  | vewMul (tile : TileId)
  /-- VEW_FMA (R134). VEW subop fma computes src0 times src1 plus aux with one rounding. -/
  | vewFma (tile : TileId)
  /-- VEW_MAX (R134). VEW subop max returns maximumNumber elementwise. -/
  | vewMax (tile : TileId)
  /-- VEW_MIN (R134). VEW subop min returns minimumNumber elementwise. -/
  | vewMin (tile : TileId)
  /-- VEW_CONVERT (R134). VEW subop convert rounds each element once to the output format. -/
  | vewConvert (tile : TileId)
  /-- ACT_RELU (R135). ACT subop relu applies relu exactly. -/
  | actRelu (tile : TileId)
  /-- ACT_SIGMOID (R135). ACT subop sigmoid applies sigmoid within 4 ulp. -/
  | actSigmoid (tile : TileId)
  /-- ACT_SILU (R135). ACT subop silu applies x times sigmoid(x) within 4 ulp. -/
  | actSilu (tile : TileId)
  /-- ACT_GELU_TANH (R135). ACT subop gelu_tanh applies the tanh GELU within 4 ulp. -/
  | actGeluTanh (tile : TileId)
  /-- ACT_EXP (R135). ACT subop exp applies exp through the strict exp2 within 4 ulp. -/
  | actExp (tile : TileId)
  /-- ACT_SWIGLU (R135). ACT subop swiglu computes silu(src0) times src1. -/
  | actSwiglu (tile : TileId)
  /-- NORM_RMS (R137). NORM subop rms normalises each row by its root mean square in two passes. -/
  | normRms (tile : TileId)
  /-- NORM_LAYER (R137). NORM subop layer normalises each row by mean and variance in three passes. -/
  | normLayer (tile : TileId)
  /-- ROPE (R138). A ROPE rotates element pairs by position-dependent angles. -/
  | rope (tile : TileId)
  /-- REDUCE_SUM (R136). REDUCE subop sum adds a row in 128 lanes then a pairwise tree. -/
  | reduceSum (tile : TileId)
  /-- REDUCE_SUM_SQUARES (R136). REDUCE subop sum of squares forms lane sums of squares by fma then a pairwise tree.
  -/
  | reduceSumSquares (tile : TileId)
  /-- REDUCE_MAX (R136). REDUCE subop max finds a row's maximum exactly. -/
  | reduceMax (tile : TileId)
  /-- REDUCE_MIN (R136). REDUCE subop min finds a row's minimum exactly. -/
  | reduceMin (tile : TileId)
  /-- REDUCE_MAX_ABS (R136). REDUCE subop max-abs finds a row's largest magnitude exactly. -/
  | reduceMaxAbs (tile : TileId)
  /-- QUANT (R99). A QUANT converts one chunk on its stream to block records or H8F, with outlier table and status
  bytes. -/
  | quant (tile : TileId)
  /-- TOPK (R139). A TOPK writes the first k elements of each row in rank order. -/
  | topk (tile : TileId)
  /-- SELECT (R139). A SELECT takes elements passing the threshold within k_min and k_max and writes their count. -/
  | select (tile : TileId)
  /-- GATHER (R140). A GATHER copies indexed source rows into consecutive destination rows, zero rows for skips. -/
  | gather (tile : TileId)
  /-- SCATTER (R140). A SCATTER copies or accumulates consecutive source rows into indexed destination rows. -/
  | scatter (tile : TileId)
  /-- SAMPLE (R142). A SAMPLE draws one token per row from its candidates using the Philox draw and top-p. -/
  | sample (tile : TileId)
  /-- ATTN (R158). An ATTN walks a page list and computes one-pass attention for the rows of one KV head, writing
  outputs and row statuses. -/
  | attn (tile : TileId)
  /-- WAIT (R126). A WAIT holds the queue head until a local word reaches its value, then issues and retires. -/
  | wait (tile : TileId)
  /-- WALK_INV (R171). A write to TILE_WALK_INV empties the look-aside buffer, refused while an ATTN is in flight.
  -/
  | walkInv (core : CoreId) (tile : TileId)
  /-- QHIST_WRITE (R122). A write to TILE_QHIST_DATA sets one history entry of one stream at once, refused during a
  step or for an invalid max. -/
  | qhistWrite (core : CoreId) (tile : TileId) (value : Word)
  /-- RING_CONTEXT_WRITE (R182). A write of a ring context word through REQ_RING_CTX, allowed only while the ring is
  disabled. -/
  | ringContextWrite (core : CoreId) (p : PartId) (word : Fin 8) (value : Word)
  /-- RING_IN (R184). A RING_IN packet writes submission entries and an optional doorbell as if the owning partition
  had written them. -/
  | ringIn (pkt : RxPacket)
  /-- ADMISSION (R190). The engine takes a request message whole, checks it, allocates a slot and writes an ADMIT
  entry to the journal and the buddy, or posts a refusal. -/
  | admission (hub : HubId)
  /-- CANCEL (R204). A cancel message is examined against its slot and sets cancel_pending, changes the final
  status, posts a reply or is ignored. -/
  | cancel (hub : HubId)
  /-- MIRROR_CONF (R194). A MIRROR_CONF from the buddy confirms journal entries, releasing ACKs of admissions and
  queued publications in order. -/
  | mirrorConf (pkt : RxPacket)
  /-- MIRROR_TIMEOUT (R194). With no confirmation within mirror_timeout_us the engine sets mirror_lost and holds
  unconfirmed publications and admissions. -/
  | mirrorTimeout (p : PartId)
  /-- STEP_ARM (R196). A write of REQ_STEP_ARM names the start tick and builds the step's batch, including ling
  index lookups, leases and copies. -/
  | stepArm (core : CoreId) (p : PartId) (give : List Nat) (value : Word)
  /-- COW_COPY_DONE (R175). A copy-on-write copy finishes, its leases are returned and a step waiting on it may
  start. -/
  | cowCopyDone (p : PartId)
  /-- STEP_COMMIT (R199). A write of REQ_STEP_CTRL.commit checks the commit table and commits the step's tokens,
  ends, cancels, deadlines, KV changes and journal entries. -/
  | stepCommit (core : CoreId) (p : PartId)
  /-- COMMIT_RESUME (R195). A commit waiting in COMMITTING for journal room or a publication place continues once
  room is made. -/
  | commitResume (p : PartId)
  /-- STEP_ROLLBACK (R201). A write of REQ_STEP_CTRL.rollback resets speculative lengths, clears routing pending
  counts and returns the phase to BUILT. -/
  | stepRollback (core : CoreId) (p : PartId)
  /-- UNPARK (R202). A write of REQ_UNPARK returns a PARKED slot to its former state. -/
  | unpark (core : CoreId) (p : PartId) (slot : Fin 16384)
  /-- LIST_RELEASE (R189). A write of REQ_RELEASE releases the held lists of a DONE or CANCELLED slot at once. -/
  | listRelease (core : CoreId) (p : PartId) (slot : Fin 16384)
  /-- PRX_SHARE (R210). A write of REQ_PRX_SHARE re-hashes the path to a node under a shared key and inserts it into
  the shared slot. -/
  | prxShare (core : CoreId) (p : PartId) (shared : Fin 8) (node : BitVec 24)
  /-- PRX_WITHDRAW (R210). A write of REQ_PRX_SHARE with withdraw drops the shared subtree rooted at the node,
  leaves first. -/
  | prxWithdraw (core : CoreId) (p : PartId) (shared : Fin 8) (node : BitVec 24)
  /-- PRX_KEY_WRITE (R210). A hayward write of a partition or shared key empties the affected tree before its next
  lookup. -/
  | prxKeyWrite (core : CoreId) (shared : Bool) (n : Fin 32) (high : Bool) (value : Word)
  /-- DMA_ENTRY (R185). The hub copy engine takes a DMA entry and copies it locally or sends it as PUT packets. -/
  | dmaEntry (hub : HubId)
  /-- DMA_ENTRY_DONE (R185). A local DMA copy completes and its signal value is written. -/
  | dmaEntryDone (hub : HubId)
  /-- RING_MSG (R332). A RING_MSG packet is written into its destination message ring, or answered with RING_BUSY.
  -/
  | ringMsg (pkt : RxPacket)
  /-- RING_BUSY (R332). A RING_BUSY answer makes the sender hold the message for a resend. -/
  | ringBusy (pkt : RxPacket)
  /-- RING_MSG_RETRY (R332). 10 us after RING_BUSY the sender sends the message again. -/
  | ringMsgRetry (ring : Fin 65536)
  /-- PLACE_TAIL_WRITE (R221). A write of XRT_CTX_PLACE_TAIL adds place requests, refused when backwards or over the
  queue size. -/
  | placeTailWrite (core : CoreId) (ctx : Fin 12) (tail : BitVec 32)
  /-- PLACE_REQUEST (R223). A routing engine starts a head place request whose wait word has reached its value and
  places and weights its choices. -/
  | placeRequest (hub : HubId)
  /-- PLACE_SIGNAL (R222). Once every output write is acknowledged the engine writes the place request's signal
  word. -/
  | placeSignal (hub : HubId)
  /-- BIAS_UPDATE (R231). At the first tick edge with steps_since at least M, every layer's biases move toward the
  mean load. -/
  | biasUpdate (ctx : Fin 12)
  /-- BIAS_READY_WRITE (R232). After the new biases reach every router tile and are acknowledged, the engine writes
  seq to the ready word. -/
  | biasReadyWrite (ctx : Fin 12)
  /-- GDDR7_READ (R244). A sector read is checked by CRC and on-die ECC, retried, rebuilt from parity or answered
  with an error. -/
  | gddr7Read (src : BitVec 16) (p : PartId) (addr : BitVec 40) (crcFails : Nat) (corrected : Bool) (uncorrectable : Bool) (bad : Nat)
  /-- GDDR7_WRITE (R246). A write goes as a full stripe or a read-modify-write keeping lane parity. -/
  | gddr7Write (src : BitVec 16) (p : PartId) (addr : BitVec 40) (bytes : List Byte)
  /-- SITE_FAIL (R449). A GDDR7 site lost outright has its position marked absent and its granules answer errors and
  become invalid. -/
  | siteFail (site : Fin 17)
  /-- SCRUB_STRIPE (R247). The patrol scrub reads a stripe in idle cycles and records a parity mismatch. -/
  | scrubStripe (site : Fin 17) (stripe : Nat) (deviceError : Bool)
  /-- RETRAIN_DUE (R258). A site temperature change beyond temp_delta since its last training sets retrain_due. -/
  | retrainDue (site : Fin 17) (temp : BitVec 8)
  /-- COVER_CATCHUP (R260). After a window closes the controller copies marked units between site 16 and the
  position. -/
  | coverCatchup (pos : Fin 16)
  /-- WB_LOAD (R252). A write-back LOAD command reads the home into the SRAM frame, clears dirty and sets valid. -/
  | wbLoad (core : CoreId) (tile : TileId) (frame : Fin 64) (sig : BitVec 19)
  /-- WB_FLUSH (R252). A write-back FLUSH command writes dirty sectors to the home, compressed if required. -/
  | wbFlush (core : CoreId) (tile : TileId) (frame : Fin 64) (sig : BitVec 19)
  /-- WB_EVICT (R252). A write-back EVICT command flushes the frame and clears valid. -/
  | wbEvict (core : CoreId) (tile : TileId) (frame : Fin 64) (sig : BitVec 19)
  /-- WB_DISCARD (R252). A write-back DISCARD command clears valid and dirty without a write. -/
  | wbDiscard (core : CoreId) (tile : TileId) (frame : Fin 64) (sig : BitVec 19)
  /-- WB_COMMAND_DONE (R252). A write-back command completes and its completion count is written to its signal word.
  -/
  | wbCommandDone (tile : TileId)
  /-- WRITE_THROUGH_FLUSH (R253). With wt set, a sector that becomes dirty is flushed at once in sector order. -/
  | writeThroughFlush (tile : TileId) (frame : Fin 64)
  /-- MIG_START (R261). A write of GDC_MIG_CTRL.start begins copying a site to site 16, ending the cover. -/
  | migStart (core : CoreId) (site : Fin 17)
  /-- MIG_ABORT (R263). A write of GDC_MIG_CTRL.abort stops the copy and returns site 16 to FALLOW. -/
  | migAbort (core : CoreId) (site : Fin 17)
  /-- MIG_COPY_DONE (R263). The last migration unit is copied and the position change is staged for the next tick
  edge. -/
  | migCopyDone
  /-- FLQ_TAIL_WRITE (R274). A write of PRT_FLQ_TAIL adds flash commands, refused when backwards or over the queue
  size. -/
  | flqTailWrite (core : CoreId) (p : PartId) (tail : BitVec 32)
  /-- FLASH_READ (R274). A flash READ command moves units from flash to GDDR7 through the map. -/
  | flashRead (p : PartId)
  /-- FLASH_WRITE (R277). A flash WRITE command programs units from GDDR7 and updates the map after programming. -/
  | flashWrite (p : PartId)
  /-- FLASH_TRIM (R274). A flash TRIM command unmaps units. -/
  | flashTrim (p : PartId)
  /-- FLASH_CMD_DONE (R274). A flash command ends with its status and signal. -/
  | flashCmdDone (p : PartId)
  /-- HARD_DECODE (R278). In each 250 ns slot a hard-mode decoder takes a waiting codeword round-robin and decodes
  it. -/
  | hardDecode (dec : Fin 4) (fails : Bool) (corrected : Nat)
  /-- SOFT_DECODE (R279). A codeword failing hard decoding runs read-retry levels in soft mode until it decodes or
  is uncorrectable. -/
  | softDecode (dec : Fin 4) (decodes : Bool)
  /-- PROGRAM_DONE (R277). The device reports a program pass and the page leaves the write buffer. -/
  | programDone (chan : Fin 16)
  /-- PROGRAM_FAIL (R277). A program or erase failure retires the block as grown bad and relocates its data. -/
  | programFail (chan : Fin 16) (erased : Option Nat)
  /-- REFRESH_BLOCK (R281). A block on the refresh list has its valid units relocated and is erased. -/
  | refreshBlock (block : Nat)
  /-- GC_RELOCATE (R282). Garbage collection copies a unit and updates its map entry only if it still holds the old
  PCA. -/
  | gcRelocate (unit : Nat)
  /-- WEAR_LEVEL_MOVE (R283). When erase counts spread beyond wl_pct the least-worn block's units move to the most-
  worn free block. -/
  | wearLevelMove (chan : Fin 16)
  /-- MAP_CHECKPOINT (R288). When the map log passes 1 GiB a full map checkpoint is written and a new log started.
  -/
  | mapCheckpoint
  /-- MAP_REBUILD_DONE (R288). The flash map rebuild from checkpoint and log ends and map_ready sets. -/
  | mapRebuildDone
  /-- LDQ_TAIL_WRITE (R320). A write of PRT_LDQ_TAIL adds load queue entries. -/
  | ldqTailWrite (core : CoreId) (p : PartId) (tail : BitVec 32)
  /-- VERIFY (R297). A VERIFY entry checks a manifest's signatures and structure and fills a manifest slot. -/
  | verify (p : PartId)
  /-- DROP (R297). A DROP entry frees a manifest slot unless a key or base slot refers to it. -/
  | drop (p : PartId)
  /-- KEY_REQUEST (R298). A KEY_REQUEST creates fresh key pairs and writes a key-release attestation report. -/
  | keyRequest (p : PartId)
  /-- KEY_REQUEST_TIMEOUT (R298). key_timeout_s after a key request its secret keys are destroyed. -/
  | keyRequestTimeout (num : Nat)
  /-- KEY_INSTALL (R299). A KEY_INSTALL unwraps a release blob into a key slot bound to a manifest slot and shard.
  -/
  | keyInstall (p : PartId)
  /-- LOAD (R303). A LOAD takes a stream and fetches, decrypts, checks and writes every chunk of a shard. -/
  | load (p : PartId)
  /-- CHUNK_LANDED (R303). A chunk's ciphertext lands and is decrypted, decoded and digest-checked, then written or
  retried elsewhere. -/
  | chunkLanded (p : PartId) (index : Nat) (chunk : Nat)
  /-- CHUNK_TIMEOUT (R303). A chunk attempt not complete within chunk_timeout_ms moves to the next source or peer.
  -/
  | chunkTimeout (p : PartId) (index : Nat) (chunk : Nat)
  /-- LOAD_DONE (R303). When every chunk has returned the LOAD ends OK or INTEGRITY and releases its stream. -/
  | loadDone (p : PartId) (index : Nat)
  /-- RDMA_READ_RESPONSE (R294). A RoCEv2 RDMA READ response packet delivers chunk bytes; a CE mark triggers a CNP.
  -/
  | rdmaReadResponse (qp : Fin 64) (psn : BitVec 24) (payload : List Byte) (ce : Bool)
  /-- ROCE_ACK (R294). A RoCEv2 ACK advances the QP's acknowledged PSN. -/
  | roceAck (qp : Fin 64) (psn : BitVec 24)
  /-- ROCE_NAK (R294). A RoCEv2 NAK makes the QP resend read requests. -/
  | roceNak (nak : NakPacket)
  /-- ROCE_TIMEOUT (R294). A QP's transport timeout retries, or after its retry count sends it to ERROR failing its
  reads. -/
  | roceTimeout (qp : Fin 64)
  /-- BULK_FRAME_DROP (R293). A bulk port frame that is not RoCEv2 traffic of a valid QP is dropped. -/
  | bulkFrameDrop (frame : BulkFrame)
  /-- PEER_REQ (R306). A peer request is served by re-encrypting the stored chunk, or answered NOT_HELD. -/
  | peerReq (pkt : RxPacket)
  /-- PEER_DATA (R303). A peer's encrypted chunk arrives and is checked like a source attempt. -/
  | peerData (pkt : RxPacket)
  /-- PEER_NOT_HELD (R303). A PEER_NOT_HELD answer moves the chunk to the next peer. -/
  | peerNotHeld (pkt : RxPacket)
  /-- TDQ_TAIL_WRITE (R320). A write of PRT_TDQ_TAIL adds fill entries. -/
  | tdqTailWrite (core : CoreId) (p : PartId) (tail : BitVec 32)
  /-- FILL_PIECE (R310). A tedder starts a fill piece into a tile's weight buffer, moving it to FILLING, or waits on
  an IN_USE buffer. -/
  | fillPiece (tedder : Fin 4) (p : PartId)
  /-- FILL_PIECE_DONE (R310). A fill piece ends with its status, a last piece makes the buffer READY, and the
  entry's signal is written after its last piece. -/
  | fillPieceDone (tedder : Fin 4)
  /-- ADP_STAGE (R313). An adapter STAGE command writes a FREE entry from REQ_ADP_ARG. -/
  | adpStage (core : CoreId) (p : PartId)
  /-- ADP_PUBLISH (R313). An adapter PUBLISH makes a STAGED entry CURRENT and supersedes or frees the old one. -/
  | adpPublish (core : CoreId) (p : PartId) (num : BitVec 16) (ver : BitVec 16)
  /-- ADP_WITHDRAW (R313). An adapter WITHDRAW moves a CURRENT entry to WITHDRAWN or FREE. -/
  | adpWithdraw (core : CoreId) (p : PartId) (num : BitVec 16) (ver : BitVec 16)
  /-- ADP_DROP (R313). An adapter DROP frees a STAGED entry. -/
  | adpDrop (core : CoreId) (p : PartId) (num : BitVec 16) (ver : BitVec 16)
  /-- BASE_DISCARD (R314). A write of BIN_BASE_b.discard empties a VERIFIED or FAILED base slot. -/
  | baseDiscard (core : CoreId) (b : Fin 2)
  /-- BASE_CUTOVER_STAGE (R315). A staged write of BIN_BASE_ACTIVE writes the COMMITTED swap record and schedules
  the cut-over. -/
  | baseCutoverStage (core : CoreId) (b : Fin 2)
  /-- BASE_RETIRE (R314). A RETIRING base slot goes EMPTY once every reader partition has started a step since the
  cut-over, and the record reads RETIRED. -/
  | baseRetire (b : Fin 2)
  /-- PORT_ENABLE (R325). A write of PORT_CTRL.enable trains a port or link, or takes it DOWN emptying its buffers.
  -/
  | portEnable (core : CoreId) (port : PortId) (on : Bool)
  /-- LINK_TRAIN_PASS (R325). Training or retraining passes and the port goes UP, exchanging credits or replaying.
  -/
  | linkTrainPass (port : PortId) (alloc : Word)
  /-- LINK_TRAIN_TIMEOUT (R325). Training not passed within 100 ms, or retraining beyond its limits, makes the port
  FAILED. -/
  | linkTrainTimeout (port : PortId)
  /-- LINK_FLIT_RX (R324). A received data flit is accepted in sequence or answered with a nak. -/
  | linkFlitRx (port : PortId) (bytes : List Byte) (fecBad : Bool)
  /-- LINK_NAK (R324). A received nak makes the sender replay from the named flit, entering RETRAIN after
  retry_limit. -/
  | linkNak (port : PortId) (ack : BitVec 12)
  /-- LINK_REPLAY_TIMEOUT (R324). The oldest unacknowledged flit waiting replay_timeout makes the sender replay. -/
  | linkReplayTimeout (port : PortId)
  /-- LANE_FAIL (R346). A lane exceeding its error rate or losing lock is swapped for the spare, or the port falls
  to half width or fails. -/
  | laneFail (port : PortId) (lane : Fin 9)
  /-- SPARE_SWAP_DONE (R346). At the agreed codeword boundary both receivers take the spare and the failed lane
  leaves service. -/
  | spareSwapDone (port : PortId)
  /-- LINK_DELAY_MEASURE (R349). Every 1 ms timestamped link management flits set LINK_DELAY. -/
  | linkDelayMeasure (port : PortId) (t1 : BitVec 64) (t2 : BitVec 64) (t3 : BitVec 64) (t4 : BitVec 64)
  /-- TRANSIT_FLIT (R336). A VL5 flit for another package is forwarded on the next link of its path. -/
  | transitFlit (link : Fin 4) (sop : Bool) (eop : Bool) (payload : List Byte)
  /-- QUENCH (R343). A QUENCH command stops new packets of the target partitions on VL1, VL2 and VL4. -/
  | quench (pkt : RxPacket)
  /-- UNQUENCH (R343). An UNQUENCH command clears the quench and paused work resumes. -/
  | unquench (pkt : RxPacket)
  /-- DRAIN (R343). A DRAIN command clears admit_enable and sets drain on the partition. -/
  | drain (pkt : RxPacket)
  /-- PSTOP (R343). A PSTOP command quenches without end, drains and interrupts the hayward. -/
  | pstop (pkt : RxPacket)
  /-- QUENCH_EXPIRE (R343). A quench with a duration ends when duration_us elapses. -/
  | quenchExpire (p : PartId)
  /-- QUENCH_CLEAR (R343). A write of FAB_QUENCH_CLEAR ends the quench of the named partitions. -/
  | quenchClear (core : CoreId) (parts : BitVec 32)
  /-- PUT (R334). A received PUT is translated into its partition and written, tracked by tag. -/
  | put (pkt : RxPacket)
  /-- PUT_END (R334). A PUT_END is answered with written after the signal, resend or refused. -/
  | putEnd (pkt : RxPacket)
  /-- PUT_DONE (R334). A PUT_DONE makes the sender write its local signal, resend the entry, or report an error. -/
  | putDone (pkt : RxPacket)
  /-- PUT_TIMEOUT (R334). No PUT_DONE within put_timeout makes the sender resend, up to three times. -/
  | putTimeout (tag : Nat)
  /-- BOARD_LOAD (R340). A control-core load in board address space becomes a BLD and waits for its BRSP. -/
  | boardLoad (core : CoreId) (addr : BitVec 64) (size : Nat) (atomic : Bool)
  /-- BOARD_STORE (R340). A control-core store in board address space is posted as a BST. -/
  | boardStore (core : CoreId) (addr : BitVec 64) (size : Nat) (atomic : Bool) (value : Word)
  /-- BLD (R340). A received BLD is checked and answered with data or a refusal in a BRSP. -/
  | bld (pkt : RxPacket)
  /-- BST (R340). A received BST is checked, written and answered with a BRSP. -/
  | bst (pkt : RxPacket)
  /-- BRSP (R340). A BRSP completes a board access or faults the issuing core. -/
  | brsp (pkt : RxPacket)
  /-- MIRROR (R441). A MIRROR packet writes journal bytes into the buddy's mirror region, or is discarded. -/
  | mirror (pkt : RxPacket)
  /-- CLQ_TAIL_WRITE (R356). A write of PRT_CLQ_TAIL adds collective entries. -/
  | clqTailWrite (core : CoreId) (p : PartId) (tail : BitVec 32)
  /-- ALLREDUCE (R355). An ALLREDUCE entry launches at its tick and sums every member's input. -/
  | allreduce (p : PartId)
  /-- REDUCE_SCATTER (R355). A REDUCE_SCATTER entry launches and delivers each member its share of sum chunks. -/
  | reduceScatter (p : PartId)
  /-- ALLGATHER (R355). An ALLGATHER entry launches and delivers all inputs in member order. -/
  | allgather (p : PartId)
  /-- BROADCAST (R355). A BROADCAST entry launches and delivers the root's input. -/
  | broadcast (p : PartId)
  /-- COL_READY (R357). With wait_ready, once the ready word reaches its value the engine sends the input chunks. -/
  | colReady (p : PartId) (index : Nat)
  /-- COL_OUT (R362). A result chunk packet is written to dst and the chunk accepted when complete and its CRC
  matches. -/
  | colOut (pkt : RxPacket)
  /-- COL_RESEND (R362). A COL_RESEND makes the engine read and send an input chunk again. -/
  | colResend (pkt : RxPacket)
  /-- COL_DONE (R367). A plane's COL_DONE arrives, and once all planes have answered the record and done signal are
  written. -/
  | colDone (pkt : RxPacket)
  /-- COL_TIMEOUT (R367). No record within col_timeout_us ends the collective TIMEOUT and sends COL_ABORT. -/
  | colTimeout (p : PartId) (index : Nat)
  /-- COL_ABORT (R369). A write of PRT_COL_ABORT ends every open and queued collective of the partition ABORTED. -/
  | colAbort (core : CoreId) (p : PartId)
  /-- HAY_CALL_ACT (R379). A mailbox ACT call switches the calling core's acting partition if allowed. -/
  | hayCallAct (p : PartId)
  /-- HAY_CALL_EXTEND (R379). A mailbox EXTEND call extends a measurement register M8 to M15. -/
  | hayCallExtend (p : PartId)
  /-- HAY_CALL_REPORT (R379). A mailbox REPORT call writes a kind 1 report for the calling partition. -/
  | hayCallReport (p : PartId)
  /-- CORE_MEMORY_ACCESS (R378). A run-time core access is translated for its acting partition and checked against
  its grants. -/
  | coreMemoryAccess (core : CoreId) (addr : BitVec 64) (size : Nat) (write : Bool) (value : Word)
  /-- PARTITION_STOP (R384). Setting PRT_CTRL.stop makes a stop commit that ends every live slot PARTITION_STOPPED.
  -/
  | partitionStop (core : CoreId) (p : PartId)
  /-- FLOOR_COMMIT (R392). A FLOOR_COMMIT command raises a kind's rollback floor to the running version. -/
  | floorCommit (core : CoreId) (space : Fin 2) (arg : BitVec 48)
  /-- OWNER_KEY_INSTALL (R402). An OWNER_KEY_INSTALL command adds a model-owner key pair with its partition mask. -/
  | ownerKeyInstall (core : CoreId) (space : Fin 2) (arg : BitVec 48)
  /-- OWNER_KEY_REMOVE (R402). An OWNER_KEY_REMOVE command removes a model-owner key. -/
  | ownerKeyRemove (core : CoreId) (space : Fin 2) (arg : BitVec 48)
  /-- SEC_REPORT (R399). A REPORT command makes the security block compose and sign an attestation report. -/
  | secReport (core : CoreId) (space : Fin 2) (arg : BitVec 48)
  /-- PROVISION (R396). A vendor-signed PROVISION record moves MANUFACTURE to PROVISIONED. -/
  | provision (core : CoreId) (space : Fin 2) (arg : BitVec 48)
  /-- CLAIM (R396). A vendor-signed CLAIM record stores the operator key digest and moves to OWNED. -/
  | claim (core : CoreId) (space : Fin 2) (arg : BitVec 48)
  /-- LIFECYCLE_RELEASE (R396). An operator-signed RELEASE record erases operator and owner keys and returns to
  PROVISIONED. -/
  | lifecycleRelease (core : CoreId) (space : Fin 2) (arg : BitVec 48)
  /-- DECOMMISSION (R396). A signed DECOMMISSION record erases the helper data for good. -/
  | decommission (core : CoreId) (space : Fin 2) (arg : BitVec 48)
  /-- DEBUG (R396). An operator-signed DEBUG record opens internal debug until the next cold reset. -/
  | debug (core : CoreId) (space : Fin 2) (arg : BitVec 48)
  /-- MGMT_COMMAND (R398). A verified COMMAND record is acted on like a fabric command. -/
  | mgmtCommand (cmd : Fin 4) (bytes : List Byte)
  /-- ATTEST_REQ (R397). A verified ATTEST_REQ record is answered with an ATTEST_REPORT. -/
  | attestReq (bytes : List Byte)
  /-- GRANT (R397). A verified GRANT record hands a grant image to the hayward firmware. -/
  | grant (bytes : List Byte)
  /-- OWNER_KEY (R397). A verified OWNER_KEY record installs model-owner public keys with a partition mask. -/
  | ownerKey (bytes : List Byte)
  /-- POWER_CAP (R412). A verified POWER_CAP record is staged for its tick or refused out of range, and
  acknowledged. -/
  | powerCap (bytes : List Byte)
  /-- VF_STEP (R410). Every 20 us a walk moves one step, gliding the PLL and slewing CORE. -/
  | vfStep
  /-- CURB_EDGE (R414). A qualified curb level rise engages the dividers and starts a walk to the new curb cap; a
  fall acts at the next tick edge. -/
  | curbEdge (level : Fin 4)
  /-- DIVIDER_RELEASE (R415). Once the walk has settled the dividers release quarter by quarter 1 us apart. -/
  | dividerRelease
  /-- CAP_GUARD (R412). An input average more than 2 percent over the cap engages every divider, or sets cap_unmet
  at step 0. -/
  | capGuard
  /-- STAGE_FAIL (R406). A converter stage failure sets stage_fault, engages a divider on a third CORE failure, or
  fails the package on other rails. -/
  | stageFail (rail : Fin 10)
  /-- VIN_LOW (R407). VIN_MAIN below 38 V for 5 us acts as curb level 3. -/
  | vinLow
  /-- VIN_RECOVER (R407). VIN_MAIN above 38.5 V for 1 ms lifts the low-input curb at the next tick edge. -/
  | vinRecover
  /-- VIN_LOSS (R407). VIN_MAIN below 34 V for 20 us or above 52 V for 1 us stops every VIN_MAIN rail and fails the
  package. -/
  | vinLoss
  /-- DROOP (R418). A tile's droop detector doubles its clock period until the voltage has recovered for min_stretch
  clocks. -/
  | droop (tile : TileId) (stretched : Nat)
  /-- THERMAL_SAMPLE (R420). Every 10 us sensors are sampled, marking bad sensors and engaging throttle or blocking
  boost. -/
  | thermalSample (quarter : Fin 4) (temps : List (Fin 156 × BitVec 16))
  /-- THERMAL_TRIP (R421). A sensor at 115 C stops clocks, turns off rails except VDDQ_G and latches PWR_TRIP. -/
  | thermalTrip
  /-- ENERGY_SAMPLE (R422). Every 1 us the input voltage and current are measured and integrated into PWR_ENERGY. -/
  | energySample (mw : BitVec 32) (core : List (BitVec 32)) (vin : BitVec 16)
  /-- STEP_ABANDON (R431). A write of PRT_STEP_ABANDON returns leases, unstages hits, resets lengths and sets the
  phase IDLE. -/
  | stepAbandon (core : CoreId) (p : PartId)
  /-- KV_REBUILD (R432). A write of PRT_KV_REBUILD sets a slot rebuilding from a position and releases later frames.
  -/
  | kvRebuild (core : CoreId) (p : PartId) (slot : Fin 16384) (first : BitVec 32)
  /-- RECOVER (R445). A write of PRT_RECOVER_CMD rebuilds the partition's slots from its journal and resume table
  and republishes. -/
  | recover (core : CoreId) (p : PartId) (table : BitVec 20) (failover : Bool)
  /-- TILE_RESET (R435). HAY_RESET op 1 flushes and zeroes one tile and returns it to its prior state. -/
  | tileReset (core : CoreId) (tile : TileId)
  /-- PARTITION_RESET (R436). HAY_RESET op 2 quenches, flushes, ends queues, frees slots and returns the partition
  to RUNNING. -/
  | partitionReset (core : CoreId) (p : PartId)
  /-- WARM_RESET (R437). HAY_RESET op 3 stops clocks, puts GDDR7 in self-refresh and runs the boot again. -/
  | warmReset (core : CoreId) (env : BootEnv)
  /-- COLD_PACKAGE_RESET (R483). HAY_RESET op 4 turns every VIN_MAIN rail off for 10 ms and brings the package up
  again. -/
  | coldPackageReset (core : CoreId) (env : BootEnv)
  /-- SNAPSHOT_COPY_DONE (R462). A snapshot copy completes, writes m + 1 to its signal word and sets snap_done. -/
  | snapshotCopyDone (slot : Fin 8)
  /-- VIN_MAIN_VALID (R483). VIN_MAIN valid begins a cold reset raising rails in order and bringing the package up.
  -/
  | vinMainValid (env : BootEnv)
  /-- STRAP_SAMPLE (R477). 10 ms after VSTBY rises the straps are sampled and held. -/
  | strapSample (straps : BitVec 11)
  /-- VSTBY_LOSS (R486). VSTBY falling while VIN_MAIN is present stops every rail within 10 us. -/
  | vstbyLoss
  /-- REFCLK_LOSS (R476). A lost reference clock stops its domain, drops its ports or fails the package. -/
  | refclkLoss (clk : Fin 8)
  /-- I3C_WORD_READ (R479). A 1-byte sideband write selects a word offset and the next read returns 8 bytes, or a
  NACK. -/
  | i3cWordRead (offset : BitVec 8)
  /-- ENTDAA (R479). The I3C ENTDAA common command assigns a dynamic address. -/
  | entdaa (addr : BitVec 7)
  /-- SETDASA (R479). The I3C SETDASA common command sets the dynamic address from the static address. -/
  | setdasa (static : BitVec 7) (addr : BitVec 7)
  /-- RSTDAA (R479). The I3C RSTDAA common command resets the dynamic address. -/
  | rstdaa
  /-- GETSTATUS (R479). The I3C GETSTATUS common command returns the target status. -/
  | getstatus
  /-- ENEC (R479). The I3C ENEC common command enables in-band interrupts. -/
  | enec
  /-- DISEC (R479). The I3C DISEC common command disables in-band interrupts. -/
  | disec
  /-- BYPASS (R480). The JTAG BYPASS instruction selects the bypass register. -/
  | bypass
  /-- IDCODE (R480). The JTAG IDCODE instruction returns 0x1096_09AB. -/
  | idcode
  /-- SAMPLE_PRELOAD (R480). The JTAG SAMPLE/PRELOAD instruction captures and preloads the boundary scan register.
  -/
  | samplePreload (pins : BitVec 29) (data : BitVec 29)
  /-- EXTEST (R480). The JTAG EXTEST instruction drives sideband lands from the boundary scan register. -/
  | extest (pins : BitVec 29) (data : BitVec 29)
  /-- CLAMP (R480). The JTAG CLAMP instruction holds outputs from the boundary register with bypass selected. -/
  | clamp
  /-- TRST (R480). Asserting TRST_L resets the TAP. -/
  | trst
  /-- MGT_PORT_ENABLE (R481). A write of MGT_PORT_CTRL.enable brings the management port up with auto-negotiation
  and training. -/
  | mgtPortEnable (core : CoreId) (value : Word) (trained : Bool)
  /-- ARP_REQUEST (R481). An ARP request for the port's own address is answered. -/
  | arpRequest (addr : BitVec 32) (len : Nat)
  /-- NEIGHBOR_SOLICITATION (R481). An IPv6 neighbour solicitation for the port's own address is answered. -/
  | neighborSolicitation (addr : BitVec 128) (len : Nat)
  /-- PAUSE_FRAME (R481). A received Annex 31B PAUSE frame pauses the management port's transmission. -/
  | pauseFrame (quanta : BitVec 16) (len : Nat)
  /-- MGT_FRAME_DROP (R481). Any other management frame is dropped and counted. -/
  | mgtFrameDrop (len : Nat)
  /-- REGISTER_READ (R10). A 64-bit read of a register page is served, or refused for owner, access code, width,
  reserved offset or disabled unit, and the refusal is recorded in ERR_ADDR, ERR_INFO and the violation log. -/
  | registerRead (core : CoreId) (addr : BitVec 64) (width : Nat)
  /-- UNDEFINED_PACKET_DISCARD (R331). A fabric packet with an undefined type, a bad end-to-end CRC, or a foreign
  destination off VL5 is discarded, its credits returned and CNT_E2E_BAD or CNT_KEY_DROP counted. -/
  | undefinedPacketDiscard (pkt : RxPacket)
  /-- LINK_MANAGEMENT_REQUEST (R346). A link management request from the peer to swap a lane to the spare, after a
  peer-detected lane failure or in the peer's glean window, is agreed and both ends send the lane's data on the
  spare as well. -/
  | linkManagementRequest (port : PortId) (lane : Fin 9)
deriving DecidableEq, Repr

end Sys2Proof
end

