-- ==== Sys2Proof/Decode.lean ====
section
/-! DEFINITION. Decoding. The rows of spec/opcode_table.json give no bits: a command of this block is a write, a message, a
pin or an event, and no word spells it. -/

namespace Sys2Proof

/-- The command a word of the table's bits spells: none, since no row has any bits. -/
def decodeTableWord (_nbits _w : Nat) : Option Instr := none

end Sys2Proof
end

