-- ==== Sys2Proof/Machine/Bits.lean ====
section
/-! DEFINITION. Bit fields, sign extension and little-endian bytes (R5), the helpers every meaning uses. -/

namespace Sys2Proof.Machine

/-- Bits `hi` down to `lo` of a number. -/
def bits (n hi lo : Nat) : Nat := (n / 2 ^ lo) % 2 ^ (hi + 1 - lo)

/-- Bit `i` of a number. -/
def bit (n i : Nat) : Bool := n / 2 ^ i % 2 = 1

/-- `n` with bits `hi` down to `lo` replaced by `v`. -/
def setBits (n hi lo v : Nat) : Nat := n - bits n hi lo * 2 ^ lo + v % 2 ^ (hi + 1 - lo) * 2 ^ lo

/-- 1 for true, 0 for false. -/
def b2n (b : Bool) : Nat := if b then 1 else 0

/-- `n` with bit `i` set. -/
def orBit (n i : Nat) : Nat := if bit n i then n else n + 2 ^ i

/-- `n` with bit `i` cleared. -/
def clrBit (n i : Nat) : Nat := if bit n i then n - 2 ^ i else n

/-- The two's complement value of the low `w` bits of `n`. -/
def sext (w n : Nat) : Int := if n % 2 ^ w < 2 ^ (w - 1) then (n % 2 ^ w : Nat) else (n % 2 ^ w : Nat) - (2 ^ w : Nat)

/-- The low `w` bits of an integer, as a number. -/
def wrapI (w : Nat) (i : Int) : Nat := (i % (2 ^ w : Nat)).toNat

/-- The number a run of bytes spells, lowest byte first (R5). -/
def leNat : List Byte → Nat
  | [] => 0
  | b :: bs => b.toNat + 256 * leNat bs

/-- The low `k` bytes of a number, lowest first. -/
def leBytes : Nat → Nat → List Byte
  | 0, _ => []
  | k + 1, n => BitVec.ofNat 8 n :: leBytes k (n / 256)

/-- `k` bytes of a byte run from offset `o`, missing bytes read 0. -/
def bytesAt (l : List Byte) (o k : Nat) : List Byte := (l.drop o).takeD k 0

/-- The number in `k` bytes of a byte run from offset `o`. -/
def numAt (l : List Byte) (o k : Nat) : Nat := leNat (bytesAt l o k)

/-- The distance of R488: how far `v` is ahead of `u` modulo 2^32, as a signed move. -/
def moves32 (u v : Nat) : Nat := (v + 2 ^ 32 - u % 2 ^ 32) % 2 ^ 32

/-- R488: `v` lies backwards of `u`. -/
def backwards32 (u v : Nat) : Bool := decide (2 ^ 31 ≤ moves32 u v)

/-- The number of set bits among the low `w` bits. -/
def popcount (w n : Nat) : Nat := (List.range w).foldl (fun c i => c + b2n (bit n i)) 0

/-- The set bits among the low `w` bits, lowest first. -/
def setBitList (w n : Nat) : List Nat := (List.range w).filter (fun i => bit n i)

/-- Round a number up to a multiple of `m`. -/
def roundUp (n m : Nat) : Nat := (n + m - 1) / m * m

/-- The number of bits of a number: the position of its highest set bit plus one, 0 for 0. -/
def bitLen (n : Nat) : Nat := if n = 0 then 0 else Nat.log2 n + 1

end Sys2Proof.Machine
end

