-- ==== Sys2Proof/Machine/Codec.lean ====
section
/-! DEFINITION. The byte-plane codec of a 4 KiB sector (R249) and the slot layout of a compressed frame (R248, R250).
Where the spec is open: DESIGN CHOICE 47 of the assumption log. -/

namespace Sys2Proof.Machine

/-- Plane `b` of a sector: bit `b` of every byte, in byte order. -/
def planeBits (b : Nat) (sector : List Byte) : List Bool := sector.map (fun x => bit x.toNat b)

/-- Bits to bytes, eight to a byte, the first in bit 0. -/
def packBits : Nat → List Bool → List Byte
  | 0, _ => []
  | n + 1, l => BitVec.ofNat 8 ((l.take 8).foldr (fun x a => b2n x + 2 * a) 0) :: packBits n (l.drop 8)

/-- Bytes to bits. -/
def unpackBits (l : List Byte) : List Bool := l.flatMap (fun x => (List.range 8).map (fun i => bit x.toNat i))

/-- The run lengths of a plane, a run of zeros first: `cur` is the run's bit, `n` its length so far. -/
def runLengths : Bool → Nat → List Bool → List Nat
  | _, n, [] => [n]
  | cur, n, b :: bs => if b = cur then runLengths cur (n + 1) bs else n :: runLengths b 1 bs

/-- A plane's mode and body (R249). -/
def encodePlane (p : List Bool) : Nat × List Byte :=
  if p.all (fun b => !b) then (0, [])
  else if p.all (fun b => b) then (1, [])
  else
    let rs := runLengths false 0 p
    if 2 + 2 * rs.length ≤ 512 then (3, leBytes 2 rs.length ++ rs.flatMap (fun r => leBytes 2 r))
    else (2, packBits 512 p)

/-- The record of a sector (R249). -/
def encodeSector (sector : List Byte) : List Byte :=
  let ps := (List.range 8).map (fun b => encodePlane (planeBits b sector))
  leBytes 4 ((List.range 8).foldl (fun n b => n + (ps.getD b (0, [])).1 * 4 ^ b) 0) ++ ps.flatMap (·.2)

/-- The bits of alternating runs, zeros first. -/
def runBits : Bool → List Nat → List Bool
  | _, [] => []
  | b, r :: rs => List.replicate r b ++ runBits (!b) rs

/-- Decode a plane from the front of the remaining bytes: its bits and the rest, none where it is not well formed. -/
def decodePlane (mode : Nat) (l : List Byte) : Option (List Bool × List Byte) := match mode with
  | 0 => some (List.replicate 4096 false, l)
  | 1 => some (List.replicate 4096 true, l)
  | 2 => if l.length < 512 then none else some (unpackBits (l.take 512), l.drop 512)
  | _ =>
    let c := numAt l 0 2
    let rs := (List.range c).map (fun i => numAt l (2 + 2 * i) 2)
    if l.length < 2 + 2 * c ∨ (rs.drop 1).any (fun r => r = 0) ∨ rs.sum ≠ 4096 then none
    else some (runBits false rs, l.drop (2 + 2 * c))

/-- The planes of a record, lowest first. -/
def decodePlanes (hdr : Nat) : Nat → Nat → List Byte → Option (List (List Bool) × List Byte)
  | 0, _, l => some ([], l)
  | n + 1, b, l =>
    match decodePlane (hdr / 4 ^ b % 4) l with
    | none => none
    | some (p, rest) =>
      match decodePlanes hdr n (b + 1) rest with
      | none => none
      | some (ps, r) => some (p :: ps, r)

/-- The bytes the planes spell. -/
def joinPlanes : Nat → List (List Bool) → List Byte
  | 0, _ => []
  | n + 1, ps =>
    BitVec.ofNat 8 ((List.range 8).foldl (fun a b => a + b2n (((ps.getD b []).headD false)) * 2 ^ b) 0) ::
      joinPlanes n (ps.map (·.tail))

/-- Decode a record: the sector's 4,096 bytes, none where the record does not decode to that. -/
def decodeSector (record : List Byte) : Option (List Byte) :=
  if record.length < 4 then none
  else (decodePlanes (numAt record 0 4) 8 0 (record.drop 4)).map (fun r => joinPlanes 4096 r.1)

/-- A sector's record, empty for a zero sector (R248). -/
def sectorRecord (sector : List Byte) : List Byte :=
  if sector.all (fun b => b = 0) then [] else encodeSector sector

/-- The records of a frame's 16 sectors. -/
def frameRecords (frame : List Byte) : List (List Byte) :=
  (List.range 16).map (fun k => sectorRecord (bytesAt frame (4096 * k) 4096))

/-- The header of a compressed frame (R248). -/
def frameHeader (recs : List (List Byte)) : List Byte := recs.flatMap (fun r => leBytes 2 r.length)

/-- A sector of a compressed slot: none where its length or its record is bad (R250). -/
def slotSector (len : Nat) (record : List Byte) : Option (List Byte) :=
  if len = 0 then some (List.replicate 4096 0)
  else if 4032 < len then none
  else decodeSector (record.take len)

end Sys2Proof.Machine
end

