-- ==== Sys2Proof/Config.lean ====
section
/-! DEFINITION. What the spec leaves open. Every constant of this file has no value that a proof can see: a claim about the
model holds whatever the value is. -/

namespace Sys2Proof.Config

/-- The free values of the model, one for each count of `State.free` (the spec states an effect and leaves its value
open; each use is named in the assumption log). -/
opaque freeNat : Nat → Nat

/-- Which of the results the spec's error bound admits a bounded function gives (R135, R138): for function number `f` and
operand code `x`, the same in every run (R145). -/
opaque ulpPick : Nat → Nat → Nat

/-- The result of a function where the spec states neither a value nor a bound (R138 beyond 2^24): function number and
operand code. -/
opaque farValue : Nat → Nat → Nat

/-- What a KV layout code means to the request engine, which the spec leaves to the layout (R167, R205): layout code, item. -/
opaque kvLayout : Nat → Nat → Nat

/-- The payload of a link management flit: R346 and R349 say what is exchanged, and no rule how it is laid out (DESIGN CHOICE
159). -/
opaque linkPayload : Nat → Nat → List (BitVec 8)

/-- The LDPC parity of a flash codeword's data and metadata, a code the spec does not give (R270). -/
opaque ldpcParity : List (BitVec 8) → List (BitVec 8)

/-! The cryptographic functions of the standards the spec names without restating them (FIPS 180-4, RFC 8032, FIPS 203 and 204,
AES-GCM, RFC 3394, RFC 5869). -/

/-- SHA-384 of a byte string. -/
opaque sha384 : List (BitVec 8) → BitVec 384

/-- Both signatures of a signature block verify for a message against a pair of public keys (R296). -/
opaque sigOk : List (BitVec 8) → List (BitVec 8) → List (BitVec 8) → Bool

/-- The signature block the identity keys make for a message (R394, R399): 3,373 bytes as a number. -/
opaque sigMake : List (BitVec 8) → Nat

/-- The identity public keys, 1,984 bytes as a number (R394). -/
opaque identity : Nat

/-- AES-256-GCM: key, IV, associated data, ciphertext with its tag; none where the tag fails (R303). -/
opaque gcmOpen : List (BitVec 8) → List (BitVec 8) → List (BitVec 8) → List (BitVec 8) → Option (List (BitVec 8))

/-- AES-256-GCM: key, IV, associated data, plaintext (R306). -/
opaque gcmSeal : List (BitVec 8) → List (BitVec 8) → List (BitVec 8) → List (BitVec 8) → List (BitVec 8)

/-- The X25519 and ML-KEM-768 public keys of a key request's fresh secret keys, 1,216 bytes as a number (R298). -/
opaque kemPublic : Nat → Nat

/-- The 32-byte X25519 shared secret of a request's secret keys with a public key (R299, RFC 7748). -/
opaque x25519 : Nat → List (BitVec 8) → List (BitVec 8)

/-- The 32-byte ML-KEM-768 shared secret a request's secret keys decapsulate from a ciphertext (R299, FIPS 203). -/
opaque mlkemDecaps : Nat → List (BitVec 8) → List (BitVec 8)

/-- AES-256 decryption of one 16-byte block under a 32-byte key (FIPS 197). -/
opaque aesDecrypt : List (BitVec 8) → List (BitVec 8) → List (BitVec 8)

/-- The vendor root public keys, whose digest the ROM holds (R389). -/
opaque rootKeys : List (BitVec 8)

/-- The signing key pair with an index in a key manifest's body (R389, R390). -/
opaque signingKey : List (BitVec 8) → Nat → Option (List (BitVec 8))

/-- The ROM version word (R391). -/
opaque romVersion : BitVec 64


end Sys2Proof.Config
end

