-- ==== Sys2Proof/Machine/Fp.lean ====
section
/-! DEFINITION. Numbers and their formats (R84 to R90): a value is NaN, an infinity, or a dyadic number with a sign; sums
and products of values are exact, and a format is a grid that a value is rounded onto, to nearest even. Where the spec is
open: DEDUCED 39, DESIGN CHOICE 38 and 40, PRESUMED 37 of the assumption log. -/

namespace Sys2Proof.Machine

/-- A value: NaN, an infinity, or (-1)^neg × m × 2^e. -/
inductive FV where
  | nan
  | inf (neg : Bool)
  | fin (neg : Bool) (m : Nat) (e : Int)
deriving DecidableEq, Repr, Inhabited

namespace FV

def zero : FV := .fin false 0 0

def isNan : FV → Bool
  | .nan => true
  | _ => false

def isFin : FV → Bool
  | .fin .. => true
  | _ => false

def isZero : FV → Bool
  | .fin _ m _ => m = 0
  | _ => false

def neg : FV → FV
  | .nan => .nan
  | .inf n => .inf (!n)
  | .fin n m e => .fin (!n) m e

def abs : FV → FV
  | .nan => .nan
  | .inf _ => .inf false
  | .fin _ m e => .fin false m e

/-- The sign of a value. -/
def sign : FV → Bool
  | .nan => false
  | .inf n => n
  | .fin n _ _ => n

/-- A value with the sign of another applied to it. -/
def withSign (n : Bool) (x : FV) : FV := if n then x.neg else x

/-- A signed whole number times a power of two. -/
def ofInt (i : Int) (e : Int) : FV := .fin (decide (i < 0)) i.natAbs e

/-- The significand of a finite value brought to exponent `e`, which must not be above its own. -/
def scaled (n : Bool) (m : Nat) (x e : Int) : Int := (if n then -1 else 1) * ((m * 2 ^ (x - e).toNat : Nat) : Int)

/-- The exact sum. -/
def add : FV → FV → FV
  | .nan, _ => .nan
  | _, .nan => .nan
  | .inf a, .inf b => if a = b then .inf a else .nan
  | .inf a, _ => .inf a
  | _, .inf b => .inf b
  | .fin a m e, .fin b n f =>
    let g := min e f
    let i := scaled a m e g + scaled b n f g
    if i = 0 then .fin (a && b) 0 0 else ofInt i g

def sub (x y : FV) : FV := x.add y.neg

/-- The exact product. -/
def mul : FV → FV → FV
  | .nan, _ => .nan
  | _, .nan => .nan
  | .inf a, .inf b => .inf (a != b)
  | .inf a, .fin b n _ => if n = 0 then .nan else .inf (a != b)
  | .fin a m _, .inf b => if m = 0 then .nan else .inf (a != b)
  | .fin a m e, .fin b n f => .fin (a != b) (m * n) (e + f)

/-- The quotient, to more than 64 significant bits, its last bit set where the division leaves a remainder: rounding it to
any format of the package rounds the exact quotient. -/
def div : FV → FV → FV
  | .nan, _ => .nan
  | _, .nan => .nan
  | .inf _, .inf _ => .nan
  | .inf a, .fin b _ _ => .inf (a != b)
  | .fin a _ _, .inf b => .fin (a != b) 0 0
  | .fin a m e, .fin b n f =>
    if n = 0 then (if m = 0 then .nan else .inf (a != b))
    else
      let k := bitLen n + 80
      let q := m * 2 ^ k / n
      .fin (a != b) (2 * q + b2n (decide (m * 2 ^ k % n ≠ 0))) (e - f - k - 1)

/-- The comparison of two values, NaN below everything, -0 equal to +0. -/
def cmp : FV → FV → Ordering
  | .nan, .nan => .eq
  | .nan, _ => .lt
  | _, .nan => .gt
  | .inf a, .inf b => if a = b then .eq else if a then .lt else .gt
  | .inf a, _ => if a then .lt else .gt
  | _, .inf b => if b then .gt else .lt
  | .fin a m e, .fin b n f =>
    let g := min e f
    compare (scaled a m e g) (scaled b n f g)

def lt (x y : FV) : Bool := x.cmp y == .lt
def le (x y : FV) : Bool := x.cmp y != .gt

/-- `x ≥ y` of numbers; false where either is NaN. -/
def ge (x y : FV) : Bool := !x.isNan && !y.isNan && y.le x
/-- `x > y` of numbers; false where either is NaN. -/
def gt (x y : FV) : Bool := !x.isNan && !y.isNan && y.lt x

/-- Times a power of two. -/
def shift (x : FV) (k : Int) : FV := match x with
  | .fin n m e => .fin n m (e + k)
  | x => x

end FV

/-! ## Rounding onto a grid -/

/-- A magnitude m × 2^e in units of 2^q, to nearest, a tie to even. -/
def roundUnits (m : Nat) (e q : Int) : Nat :=
  if q ≤ e then m * 2 ^ (e - q).toNat
  else
    let d := 2 ^ (q - e).toNat
    let r := m / d
    if d < 2 * (m % d) ∨ (2 * (m % d) = d ∧ r % 2 = 1) then r + 1 else r

/-- The code of a magnitude rounded to nearest even onto a format with `mb` mantissa bits and smallest step 2^qmin, as if
the exponent had no upper limit. -/
def roundCode (mb : Nat) (qmin : Int) (m : Nat) (e : Int) : Nat :=
  let q := max (e + bitLen m - (mb + 1 : Nat)) qmin
  if m = 0 then 0 else (q - qmin).toNat * 2 ^ mb + roundUnits m e q

/-- The magnitude a code stands for. -/
def codeMag (mb : Nat) (qmin : Int) (c : Nat) : Nat × Int :=
  if c / 2 ^ mb = 0 then (c, qmin) else (2 ^ mb + c % 2 ^ mb, (c / 2 ^ mb : Nat) - 1 + qmin)

def codeFV (mb : Nat) (qmin : Int) (n : Bool) (c : Nat) : FV := .fin n (codeMag mb qmin c).1 (codeMag mb qmin c).2

/-- The code of a value in an IEEE format: `mb` mantissa bits, smallest step, first code of infinity, NaN code, width. -/
def ieeeCode (mb : Nat) (qmin : Int) (infc nanc w : Nat) : FV → Nat
  | .nan => nanc
  | .inf n => infc + b2n n * 2 ^ (w - 1)
  | .fin n m e => min (roundCode mb qmin m e) infc + b2n n * 2 ^ (w - 1)

def ieeeVal (mb : Nat) (qmin : Int) (infc w : Nat) (c : Nat) : FV :=
  let n := bit c (w - 1)
  let a := c % 2 ^ (w - 1)
  if infc < a then .nan else if a = infc then .inf n else codeFV mb qmin n a

/-- FP32 and BF16 codes; NaN is written 0x7FC0_0000 and 0x7FC0 (R130). -/
def fp32Code : FV → Nat := ieeeCode 23 (-149) 0x7F800000 0x7FC00000 32
def fp32Val (c : Nat) : FV := ieeeVal 23 (-149) 0x7F800000 32 (c % 2 ^ 32)
def bf16Code : FV → Nat := ieeeCode 7 (-133) 0x7F80 0x7FC0 16
def bf16Val (c : Nat) : FV := ieeeVal 7 (-133) 0x7F80 16 (c % 2 ^ 16)

/-- Rounded once to FP32, to nearest even. -/
def fp32 (x : FV) : FV := fp32Val (fp32Code x)

/-! ## H8F (R88) -/

/-- The H8F code of a value and whether the conversion saturated; `e5` selects E5M2. -/
def h8fCode (e5 : Bool) (x : FV) : Nat × Bool :=
  let top := if e5 then 0x7B else 0x7E
  match x with
  | .nan => (0, false)
  | .inf n => (top + b2n n * 128, true)
  | .fin n m e =>
    let c := if e5 then roundCode 2 (-16) m e else roundCode 3 (-9) m e
    if c = 0 then (0, false)
    else if top < c then (top + b2n n * 128, true)
    else (c + b2n n * 128, false)

/-- An H8F code on read, and whether it was a NaN or infinity code. -/
def h8fVal (e5 : Bool) (c : Nat) : FV × Bool :=
  let n := bit c 7
  let a := c % 128
  if e5 then
    if 0x7C < a then (.zero, true) else if a = 0x7C then (codeFV 2 (-16) n 0x7B, true) else (codeFV 2 (-16) n a, false)
  else if a = 0x7F then (.zero, true) else (codeFV 3 (-9) n a, false)

/-! ## The block scale and the narrow elements (R85 to R90) -/

/-- UE5M3: the reserved code 0xFF reads as a zero block. -/
def ue5m3Val (c : Nat) : FV := if c = 0xFF then .zero else codeFV 3 (-17) false c

/-- The nearest UE5M3 code of a value at or above 0, at most 0xFE (R90). -/
def ue5m3Code (x : FV) : Nat := match x with
  | .fin _ m e => min (roundCode 3 (-17) m e) 0xFE
  | _ => 0xFE

/-- H4F and H4I elements; an H3I nibble reads as an H4I nibble (R85, R86). -/
def h4fVal (c : Nat) : FV := if c % 8 = 0 then .zero else codeFV 1 (-1) (bit c 3) (c % 8)
def h4iVal (c : Nat) : FV := .ofInt (sext 4 c) 0

/-- Digit `j` of an H2T byte, -1, 0 or 1 (R87). -/
def h2tDigit (b j : Nat) : Int := (b / 3 ^ j % 3 : Nat) - 1

/-- Byte `k` of an H2T block is invalid (R87). -/
def h2tBad (b k : Nat) : Bool := decide (242 < b) || (k = 6 && !decide (117 ≤ b ∧ b ≤ 125))

/-! ## Elementary functions -/

/-- The fixed-point scale of the elementary functions. -/
def fixBits : Nat := 256
/-- ln 2, π/2 and 2√(2/π) in units of 2^-256. -/
def fixLn2 : Nat := 80260960185991308862233904206310070533990667611589946606122867505419956976171
def fixHalfPi : Nat := 181885788445883162140117471388864931326696688664196214979386075558969447233092
def fixGelu : Nat := 184777440531124450200008084702946902002096553526136051377145485731653605029050

/-- e^r for r in [0, ln 2], fixed point, by its Taylor series. -/
def fixExp (r : Nat) : Nat :=
  ((List.range 60).foldl (fun (a : Nat × Nat) k => (a.1 + a.2, a.2 * r / 2 ^ fixBits / (k + 1))) (0, 2 ^ fixBits)).1

/-- sin r and cos r for r in [0, π/2], fixed point. -/
def fixSinCos (r : Nat) : Int × Int :=
  (List.range 96).foldl (fun (a : (Int × Int) × Nat) k =>
    let t : Int := a.2
    let s := match k % 4 with
      | 0 => (a.1.1, a.1.2 + t)
      | 1 => (a.1.1 + t, a.1.2)
      | 2 => (a.1.1, a.1.2 - t)
      | _ => (a.1.1 - t, a.1.2)
    (s, a.2 * r / 2 ^ fixBits / (k + 1))) ((0, 0), 2 ^ fixBits) |>.1

/-- A finite value in fixed point, rounded down. -/
def fixOf (n : Bool) (m : Nat) (e : Int) : Int :=
  let t : Int := (if n then -1 else 1) * (m : Int)
  if -(fixBits : Int) ≤ e then t * ((2 ^ (e + fixBits).toNat : Nat) : Int) else t / ((2 ^ (-(fixBits : Int) - e).toNat : Nat) : Int)

/-- e^(x / 2^256) as a value with more than 200 good bits. -/
def expFix (x : Int) : FV :=
  let n := x / (fixLn2 : Int)
  .fin false (2 * fixExp (x - n * fixLn2).toNat + 1) (n - fixBits - 1)

/-- 2^x for x at or below 0, exact where x is whole, otherwise with more than 200 good bits (R161). -/
def exp2Val : FV → FV
  | .nan => .nan
  | .inf n => if n then .zero else .inf false
  | .fin n m e =>
    let x := fixOf n m e
    let k := x / ((2 ^ fixBits : Nat) : Int)
    let f := (x - k * ((2 ^ fixBits : Nat) : Int)).toNat
    if f = 0 ∧ -(fixBits : Int) ≤ e then .fin false 1 k
    else if k < -400 then .fin false 1 (-400)
    else .fin false (2 * fixExp (f * fixLn2 / 2 ^ fixBits) + 1) (k - fixBits - 1)

/-- The strict exp2: correctly rounded to FP32 for inputs at or below 0 (R161); elsewhere the spec states no value. -/
def exp2Strict (x : FV) : FV :=
  if x.isNan || FV.lt .zero x then fp32Val (Config.farValue 8 (fp32Code x)) else fp32 (exp2Val x)

/-- The fast exp2: 12 significand bits down to -126, 0 below (R161). -/
def exp2Fast (x : FV) : FV :=
  if x.lt (.fin true 126 0) then .zero
  else match exp2Val x with
    | .fin n m e => codeFV 11 (-400) n (roundCode 11 (-400) m e)
    | y => y

/-- e^x of a finite value within the range the functions use. -/
def expVal : FV → FV
  | .fin n m e => expFix (fixOf n m e)
  | .inf n => if n then .zero else .inf false
  | .nan => .nan

/-- 1 / (1 + e^-x). -/
def sigmoidVal (x : FV) : FV := FV.div (.fin false 1 0) (FV.add (.fin false 1 0) (expVal x.neg))

/-- x times the sigmoid of 2√(2/π)(x + 0.044715 x³). -/
def geluVal (x : FV) : FV :=
  let x3 := FV.mul x (FV.mul x x)
  let inner := FV.add x (FV.div (FV.mul (.fin false 44715 0) x3) (.fin false 1000000 0))
  FV.mul x (sigmoidVal (FV.mul (.fin false fixGelu (-(fixBits : Int))) inner))

/-! ## Results within a stated bound -/

/-- An FP32 code as a place on the number line, and back: neighbouring places are one unit in the last place apart. -/
def codeLine (c : Nat) : Int := if bit c 31 then -((c % 2 ^ 31 : Nat) : Int) else (c % 2 ^ 31 : Nat)
def lineCode (i : Int) : Nat := if i < 0 then 2 ^ 31 + min i.natAbs 0x7F800000 else min i.toNat 0x7F800000

/-- A result within `k` units in the last place of the correctly rounded one; which of them is open, and a function of the
function's number and its operand (R135, R145). -/
def withinUlps (k f x : Nat) (exact : FV) : FV :=
  match exact with
  | .fin .. => fp32Val (lineCode (codeLine (fp32Code exact) + ((Config.ulpPick f x % (2 * k + 1) : Nat) : Int) - k))
  | y => y

/-- A magnitude rounded down to a code of FP32, and whether it lies on the grid. -/
def floorCode (m : Nat) (e : Int) : Nat × Bool :=
  let q := max (e + bitLen m - 24) (-149)
  if m = 0 then (0, true)
  else if q ≤ e then (roundCode 23 (-149) m e, true)
  else
    let d := 2 ^ (q - e).toNat
    ((q + 149).toNat * 2 ^ 23 + m / d, m % d = 0)

/-- A result within 1 unit in the last place of the exact value (R135, R138). -/
def withinOneUlp (f x : Nat) (exact : FV) : FV :=
  match exact with
  | .fin n m e =>
    let (c, whole) := floorCode m e
    let p : Int := if whole then (Config.ulpPick f x % 3 : Nat) - 1 else (Config.ulpPick f x % 2 : Nat)
    let i := (c : Int) + p
    fp32Val (lineCode (if n then -i else i))
  | y => y

/-- 1/√x within 1 ulp (R135): NaN below 0, +∞ at 0, 0 at +∞. -/
def rsqrtVal (x : FV) : FV :=
  match x with
  | .nan => .nan
  | .inf n => if n then .nan else .zero
  | .fin n m e =>
    if m = 0 then .inf n
    else if n then .nan
    else
      -- m·2^e = (m·2^(e mod 2))·4^(e div 2); 1/√M to 100 bits and more
      let big := m * 2 ^ (e % 2).toNat
      let k := bitLen big + 120
      let t := 2 ^ (2 * k) / big
      let r := Nat.sqrt t
      let exact := decide (r * r = t ∧ 2 ^ (2 * k) % big = 0)
      withinOneUlp 1 (fp32Code x) (.fin false (2 * r + b2n (!exact)) (-(e / 2) - k - 1))

/-- sin and cos of an FP32 angle within 1 ulp up to 2^24; beyond, the spec states no value (R138). -/
def sinCosVal (a : FV) : FV × FV :=
  match a with
  | .fin n m e =>
    if FV.lt (.fin false 1 24) a.abs then
      (fp32Val (Config.farValue 2 (fp32Code a)), fp32Val (Config.farValue 3 (fp32Code a)))
    else if m = 0 then (a, .fin false 1 0)
    else
      let x := fixOf false m e
      let q := x / (fixHalfPi : Int)
      let (s, c) := fixSinCos (x - q * fixHalfPi).toNat
      let (s', c') := match (q % 4).toNat with
        | 0 => (s, c)
        | 1 => (c, -s)
        | 2 => (-s, -c)
        | _ => (-c, s)
      let jam (i : Int) : FV := .fin (decide (i < 0)) (2 * i.natAbs + 1) (-(fixBits : Int) - 1)
      (withinOneUlp 2 (fp32Code a) (FV.withSign n (jam s')), withinOneUlp 3 (fp32Code a) (jam c'))
  | _ => (.nan, .nan)

/-! ## The activation functions of ACT (R135) -/

/-- Beyond |x| = 88 the results are the limits; inside, within 4 ulp. -/
def actSigmoid (x : FV) : FV :=
  if x.isNan then .nan
  else if FV.lt (.fin false 88 0) x then .fin false 1 0
  else if FV.lt x (.fin true 88 0) then .zero
  else withinUlps 4 4 (fp32Code x) (sigmoidVal x)

def actSilu (x : FV) : FV :=
  if x.isNan then .nan
  else if FV.lt (.fin false 88 0) x then x
  else if FV.lt x (.fin true 88 0) then .fin true 0 0
  else withinUlps 4 5 (fp32Code x) (FV.mul x (sigmoidVal x))

def actGelu (x : FV) : FV :=
  if x.isNan then .nan
  else if FV.lt (.fin false 88 0) x then x
  else if FV.lt x (.fin true 88 0) then .fin true 0 0
  else withinUlps 4 6 (fp32Code x) (geluVal x)

def actExp (x : FV) : FV :=
  if x.isNan then .nan
  else if FV.lt (.fin false 88 0) x then .inf false
  else if FV.lt x (.fin true 88 0) then .zero
  else withinUlps 4 7 (fp32Code x) (expVal x)

def actRelu (x : FV) : FV := if x.isNan then .nan else if FV.lt .zero x then x else .zero

/-- The numeric one of two operands where the other is NaN, otherwise the larger, -0 below +0 (R134). -/
def maxNum (x y : FV) : FV :=
  if x.isNan then y else if y.isNan then x
  else if x.lt y then y else if y.lt x then x else if x.sign then y else x

def minNum (x y : FV) : FV :=
  if x.isNan then y else if y.isNan then x
  else if x.lt y then x else if y.lt x then y else if x.sign then x else y

end Sys2Proof.Machine
end

