-- ==== Sys2Proof/Machine/Hash.lean ====
section
/-! DEFINITION. The checks and hashes the spec names: CRC-8 (R168), CRC-32C (R360), SipHash-2-4 with 128-bit output
(R205). Where the spec is open: PRESUMED 22 of the assumption log. -/

namespace Sys2Proof.Machine

/-- One bit of the CRC-8 of R168: polynomial x^8 + x^2 + x + 1, no reflection. -/
def crc8Bit (c : Nat) : Nat := if 128 ≤ c then (c * 2 % 256) ^^^ 0x07 else c * 2

/-- One byte of the CRC-8. -/
def crc8Byte (c : Nat) (b : Byte) : Nat := (List.range 8).foldl (fun x _ => crc8Bit x) (c ^^^ b.toNat)

/-- The CRC-8 of R168: initial value 0, no final inversion, bytes in ascending order. -/
@[irreducible] def crc8 (l : List Byte) : Nat := l.foldl crc8Byte 0

/-- One bit of CRC-32C, bit-reflected (R360). -/
def crc32cBit (c : Nat) : Nat := if c % 2 = 1 then (c / 2) ^^^ 0x82F63B78 else c / 2

/-- One byte of CRC-32C. -/
def crc32cByte (c : Nat) (b : Byte) : Nat := (List.range 8).foldl (fun x _ => crc32cBit x) (c ^^^ b.toNat)

/-- CRC-32C: the Castagnoli polynomial, initial value 0xFFFF_FFFF and final inversion (R360). -/
@[irreducible] def crc32c (l : List Byte) : Nat := (l.foldl crc32cByte 0xFFFFFFFF) ^^^ 0xFFFFFFFF

/-- Rotate a 64-bit number left. -/
def rotl64 (x r : Nat) : Nat := (x * 2 ^ r) % 2 ^ 64 + x / 2 ^ (64 - r)

/-- The SipHash state. PRESUMED: the algorithm itself (Aumasson and Bernstein) stands outside the spec, which names it. -/
structure Sip where
  a : Nat
  b : Nat
  c : Nat
  d : Nat
deriving DecidableEq, Repr

/-- One SipHash round. -/
def sipRound (s : Sip) : Sip :=
  let a := (s.a + s.b) % 2 ^ 64
  let b := rotl64 s.b 13 ^^^ a
  let a := rotl64 a 32
  let c := (s.c + s.d) % 2 ^ 64
  let d := rotl64 s.d 16 ^^^ c
  let a := (a + d) % 2 ^ 64
  let d := rotl64 d 21 ^^^ a
  let c := (c + b) % 2 ^ 64
  let b := rotl64 b 17 ^^^ c
  let c := rotl64 c 32
  ⟨a, b, c, d⟩

/-- `n` SipHash rounds. -/
def sipRounds (n : Nat) (s : Sip) : Sip := (List.range n).foldl (fun x _ => sipRound x) s

/-- The message words of SipHash: whole 8-byte words, then the last bytes with the length in the top byte. -/
def sipWords (l : List Byte) : List Nat :=
  (List.range (l.length / 8)).map (fun i => numAt l (8 * i) 8) ++
    [numAt (l.drop (l.length / 8 * 8)) 0 7 + l.length % 256 * 2 ^ 56]

/-- SipHash-2-4 with 128-bit output under a 128-bit key (R205), as 16 bytes. -/
@[irreducible] def siphash128 (key : Nat) (l : List Byte) : List Byte :=
  let k0 := key % 2 ^ 64
  let k1 := key / 2 ^ 64 % 2 ^ 64
  let s0 : Sip := ⟨k0 ^^^ 0x736f6d6570736575, k1 ^^^ 0x646f72616e646f6d ^^^ 0xee, k0 ^^^ 0x6c7967656e657261,
    k1 ^^^ 0x7465646279746573⟩
  let s := (sipWords l).foldl (fun s m => let t := sipRounds 2 { s with d := s.d ^^^ m }; { t with a := t.a ^^^ m }) s0
  let s := sipRounds 4 { s with c := s.c ^^^ 0xee }
  let h0 := s.a ^^^ s.b ^^^ s.c ^^^ s.d
  let s := sipRounds 4 { s with b := s.b ^^^ 0xdd }
  let h1 := s.a ^^^ s.b ^^^ s.c ^^^ s.d
  leBytes 8 h0 ++ leBytes 8 h1

end Sys2Proof.Machine
end

