-- ==== Sys2Proof/Machine/RegTable.lean ====
section
/-! DEFINITION. The register window as the spec's tables lay it out: the blocks and their pages (R7), the common page
layout (R8, R13 to R19), every block register with its fields, access codes, reset values and stated ranges, and every
counter. The rows are taken from the tables of the rules named beside them. Where the spec is open: DEDUCED 15, DESIGN
CHOICE 4 and 54 of the assumption log. -/

namespace Sys2Proof.Machine

/-- The blocks of R7. -/
inductive Block where
  | glb | hay | sec | pwr | tim | cnt | tile | mesh | gdc | flc | fab | bms | bin | mgt | ted | req | prx | xrt | prt | dbl
deriving DecidableEq, Repr

/-- The block codes of R7. -/
def Block.code : Block → Nat
  | .glb => 0x0001 | .hay => 0x0002 | .sec => 0x0003 | .pwr => 0x0004 | .tim => 0x0005 | .cnt => 0x0006
  | .tile => 0x0010 | .mesh => 0x0011 | .gdc => 0x0020 | .flc => 0x0021 | .fab => 0x0030 | .bms => 0x0031
  | .bin => 0x0032 | .mgt => 0x0033 | .ted => 0x0040 | .req => 0x0050 | .prx => 0x0051 | .xrt => 0x0052
  | .prt => 0x0053 | .dbl => 0x0060

/-- The block bases of R7. -/
def Block.base : Block → Nat
  | .glb => 0x0E0000000000 | .hay => 0x0E0000010000 | .sec => 0x0E0000050000 | .pwr => 0x0E0000070000
  | .tim => 0x0E0000080000 | .cnt => 0x0E0000090000 | .tile => 0x0E0001000000 | .mesh => 0x0E0001400000
  | .gdc => 0x0E0001800000 | .flc => 0x0E0001900000 | .fab => 0x0E0001A00000 | .bms => 0x0E0001B00000
  | .bin => 0x0E0001C00000 | .mgt => 0x0E0001D00000 | .ted => 0x0E0001E00000 | .req => 0x0E0002000000
  | .prx => 0x0E0002100000 | .xrt => 0x0E0002200000 | .prt => 0x0E0002300000 | .dbl => 0x0E0008000000

/-- How many pages each block has (R7). -/
def Block.pages : Block → Nat
  | .glb => 16 | .hay => 64 | .sec => 32 | .pwr => 16 | .tim => 8 | .cnt => 256 | .tile => 624 | .mesh => 64
  | .gdc => 34 | .flc => 20 | .fab => 8 | .bms => 4 | .bin => 3 | .mgt => 2 | .ted => 4 | .req => 64 | .prx => 16
  | .xrt => 16 | .prt => 32 | .dbl => 128

/-- The blocks in the order of R7. -/
def allBlocks : List Block :=
  [.glb, .hay, .sec, .pwr, .tim, .cnt, .tile, .mesh, .gdc, .flc, .fab, .bms, .bin, .mgt, .ted, .req, .prx, .xrt, .prt,
   .dbl]

/-- Where page `p` of a block lies (R7). -/
def pageBase (b : Block) (p : Nat) : Nat := b.base + p * 0x1000

/-- The window address of offset `off` on page `p` of a block (R7). -/
def regA (b : Block) (p off : Nat) : Nat := pageBase b p + off

/-- The block and page an address lies on, none outside every listed page (R7). -/
def pageOf (a : Nat) : Option (Block × Nat) :=
  (allBlocks.find? (fun b => decide (b.base ≤ a ∧ a < b.base + b.pages * 0x1000))).map
    (fun b => (b, (a - b.base) / 0x1000))

/-- A field's place in a register word: bits `hi` down to `lo`. -/
structure Fld where
  hi : Nat
  lo : Nat
deriving DecidableEq, Repr

/-- The access codes of R10. `hwt` is a field the table calls HW whose hayward writes are tick-staged by R375. -/
inductive Acc where
  | rw | ro | w1c | wo | rwt | hw | hwt
deriving DecidableEq, Repr

/-- A field of a register table: its bits, access code, reset value, and the range and alignment the table states. -/
structure RegField where
  name : String
  hi : Nat
  lo : Nat
  acc : Acc
  reset : Nat
  mn : Nat
  mx : Nat
  align : Nat
deriving DecidableEq, Repr

/-- A row of a register table: `count` registers `stride` bytes apart from offset `off`. -/
structure RegRow where
  name : String
  off : Nat
  stride : Nat
  count : Nat
  fields : List RegField
deriving DecidableEq, Repr

/-- A row of a counter table. -/
structure CntRow where
  name : String
  off : Nat
  stride : Nat
  count : Nat
deriving DecidableEq, Repr

/-- A field whose every bit pattern is in range. -/
def fld (name : String) (hi lo : Nat) (acc : Acc) (reset : Nat) : RegField :=
  ⟨name, hi, lo, acc, reset, 0, 2 ^ (hi + 1 - lo) - 1, 1⟩

/-- A field with a stated range and alignment (R487). -/
def fldR (name : String) (hi lo : Nat) (acc : Acc) (reset mn mx align : Nat) : RegField :=
  ⟨name, hi, lo, acc, reset, mn, mx, align⟩

/-- A row of registers. -/
def row (name : String) (off stride count : Nat) (fields : List RegField) : RegRow := ⟨name, off, stride, count, fields⟩

/-- A row of counters. -/
def cnt (name : String) (off stride count : Nat) : CntRow := ⟨name, off, stride, count⟩

/-- Registers of BIN pages 0 to 1 (R317). -/
def rowsBIN0to1 : List RegRow :=
 [
  row "BIN_PORT_CTRL" 0x100 0 1 [
    fld "roce_prio" 42 40 .rw 3,
    fld "dscp" 37 32 .rw 26,
    fldR "pmtu" 1 0 .rw 2 0 2 1],
  row "BIN_PORT_MAC" 0x108 0 1 [
    fld "mac" 47 0 .rw 0],
  row "BIN_PORT_IP4" 0x110 0 1 [
    fld "addr" 31 0 .rw 0],
  row "BIN_PORT_IP6_LO" 0x118 0 1 [
    fld "addr" 63 0 .rw 0],
  row "BIN_PORT_IP6_HI" 0x120 0 1 [
    fld "addr" 63 0 .rw 0],
  row "BIN_PORT_STATUS" 0x128 0 1 [
    fld "link" 1 0 .ro 0]]

/-- Registers of BIN page 2 (R318). -/
def rowsBIN2 : List RegRow :=
 [
  row "BIN_ENG_CFG" 0x100 0 1 [
    fld "chunk_timeout_ms" 31 16 .rw 200,
    fld "key_timeout_s" 15 0 .rw 60],
  row "BIN_ENG_STATUS" 0x108 0 1 [
    fld "keys" 23 16 .ro 0,
    fld "streams" 6 0 .ro 0],
  row "BIN_SLOT_SEL" 0x110 0 1 [
    fld "kind" 7 7 .rw 0,
    fld "slot" 6 0 .rw 0],
  row "BIN_SLOT_INFO" 0x118 0 1 [
    fld "valid" 63 63 .ro 0,
    fld "owner" 36 32 .ro 0,
    fld "mslot" 31 28 .ro 0,
    fld "shard" 27 0 .ro 0],
  row "BIN_SLOT_DIGEST_w" 0x120 8 6 [
    fld "digest" 63 0 .ro 0],
  row "BIN_QP_SEL" 0x150 0 1 [
    fld "qp" 5 0 .rw 0],
  row "BIN_QP_CTX_w" 0x158 8 8 [
    fld "data" 63 0 .rw 0],
  row "BIN_BASE_ACTIVE" 0x200 0 1 [
    fld "slot" 0 0 .rwt 0],
  row "BIN_BASE_b" 0x208 8 2 [
    fld "state" 63 61 .ro 0,
    fld "resident" 60 60 .ro 0,
    fld "discard" 59 59 .wo 0,
    fld "mslot" 55 52 .ro 0,
    fld "owner" 36 32 .rw 0,
    fld "readers" 31 0 .rw 0],
  row "BIN_SWAP_REC" 0x218 0 1 [
    fld "tick" 47 0 .ro 0],
  row "BIN_SWAP_STATE" 0x220 0 1 [
    fld "slot" 32 32 .ro 0,
    fld "phase" 1 0 .ro 0]]

/-- Registers of BMS page 0 (R352). -/
def rowsBMS0 : List RegRow :=
 [
  row "BMS_BOARD" 0x130 0 1 [
    fld "height_m1" 13 12 .ro 0,
    fld "width_m1" 9 8 .ro 0,
    fld "by" 5 4 .ro 0,
    fld "bx" 1 0 .ro 0],
  row "BMS_ADDR_MODE" 0x138 0 1 [
    fld "board_mode" 31 0 .rw 0],
  row "BMS_POS_n" 0x200 8 16 [
    fld "valid" 63 63 .rw 0,
    fld "fabric" 11 0 .rw 0]]

/-- Registers of BMS pages 0 to 3 (R350, R352). -/
def rowsBMS0to3 : List RegRow :=
 [
  row "PORT_CTRL" 0x100 0 1 [
    fldR "ring_pct" 55 48 .rw 10 1 100 1,
    fld "retry_limit" 47 40 .rw 8,
    fld "retrain_limit" 39 32 .rw 3,
    fld "replay_timeout" 31 16 .rw 2000,
    fld "spare_auto" 2 2 .rw 1,
    fld "width_fallback" 1 1 .rw 1,
    fld "enable" 0 0 .rw 0],
  row "PORT_STATUS" 0x108 0 1 [
    fld "spare_for" 47 44 .ro 0,
    fld "spare_state" 43 42 .ro 0,
    fld "failed_lanes" 40 32 .ro 0,
    fld "width" 11 8 .ro 0,
    fld "state" 2 0 .ro 0],
  row "LINK_DELAY" 0x110 0 1 [
    fld "delay" 31 0 .ro 0],
  row "VL_CREDIT" 0x118 0 1 [
    fld "vl" 63 0 .rw 26423044085762],
  row "VL_ARB" 0x120 0 1 [
    fldR "q5" 39 32 .rw 4 1 255 1,
    fldR "q4" 31 24 .rw 2 1 255 1,
    fldR "q3" 23 16 .rw 4 1 255 1,
    fldR "q2" 15 8 .rw 8 1 255 1,
    fldR "q1" 7 0 .rw 8 1 255 1],
  row "BMS_TRANSIT" 0x128 0 1 [
    fldR "transit_pct" 7 0 .rw 25 0 100 1]]

/-- Registers of CNT page 0 (R466). -/
def rowsCNT0 : List RegRow :=
 [
  row "CNT_SNAP_TICK_s" 0x100 32 8 [
    fld "every" 63 48 .rwt 0,
    fld "tick" 47 0 .rwt 0],
  row "CNT_SNAP_DEST_s" 0x108 32 8 [
    fld "valid" 63 63 .rwt 0,
    fld "whole" 62 62 .rwt 0,
    fld "partition" 60 56 .rwt 0,
    fld "k_m1" 55 52 .rwt 0,
    fldR "addr" 47 0 .rwt 0 0 281474976710655 64],
  row "CNT_SNAP_SIZE_s" 0x110 32 8 [
    fld "size" 31 0 .rwt 0],
  row "CNT_SNAP_SIG_s" 0x118 32 8 [
    fld "hub" 22 21 .rw 0,
    fld "offset" 20 0 .rw 0],
  row "CNT_HAY_REGION" 0x200 0 1 [
    fld "width" 61 60 .rw 0,
    fld "where" 51 48 .rw 0,
    fld "slice" 41 32 .rw 0,
    fld "slices" 31 0 .rw 0]]

/-- Registers of CNT page 1 (R466). -/
def rowsCNT1 : List RegRow :=
 [
  row "CNT_CHAIN_i" 0x100 8 224 [
    fld "valid" 63 63 .rwt 0,
    fld "page" 31 16 .rwt 0,
    fld "high" 15 8 .rwt 0,
    fld "low" 7 0 .rwt 0]]

/-- Registers of CNT page 2 (R466). -/
def rowsCNT2 : List RegRow :=
 [
  row "CNT_THR_SRC_i" 0x100 16 64 [
    fld "enable" 63 63 .rwt 0,
    fld "page" 31 16 .rwt 0,
    fld "code" 7 0 .rwt 0],
  row "CNT_THR_N_i" 0x108 16 64 [
    fld "n" 15 0 .rwt 0]]

/-- Registers of FAB page 0 (R351). -/
def rowsFAB0 : List RegRow :=
 [
  row "FAB_QUENCHED" 0x140 0 1 [
    fld "parts" 31 0 .ro 0],
  row "FAB_QUENCH_CLEAR" 0x148 0 1 [
    fld "parts" 31 0 .wo 0],
  row "FAB_CMD_SEQ" 0x150 0 1 [
    fld "seq" 63 0 .ro 0],
  row "FAB_CMD_KEY" 0x158 0 1 [
    fld "key" 63 0 .wo 0],
  row "FAB_PUT_CFG" 0x160 0 1 [
    fld "put_timeout_us" 15 0 .rw 100]]

/-- Registers of FAB pages 0 to 7 (R350). -/
def rowsFAB0to7 : List RegRow :=
 [
  row "PORT_CTRL" 0x100 0 1 [
    fldR "ring_pct" 55 48 .rw 10 1 100 1,
    fld "retry_limit" 47 40 .rw 8,
    fld "retrain_limit" 39 32 .rw 3,
    fld "replay_timeout" 31 16 .rw 2000,
    fld "spare_auto" 2 2 .rw 1,
    fld "width_fallback" 1 1 .rw 1,
    fld "enable" 0 0 .rw 0],
  row "PORT_STATUS" 0x108 0 1 [
    fld "spare_for" 47 44 .ro 0,
    fld "spare_state" 43 42 .ro 0,
    fld "failed_lanes" 40 32 .ro 0,
    fld "width" 11 8 .ro 0,
    fld "state" 2 0 .ro 0],
  row "LINK_DELAY" 0x110 0 1 [
    fld "delay" 31 0 .ro 0],
  row "VL_CREDIT" 0x118 0 1 [
    fld "vl" 63 0 .rw 69125283842],
  row "VL_ARB" 0x120 0 1 [
    fldR "q5" 39 32 .rw 4 1 255 1,
    fldR "q4" 31 24 .rw 2 1 255 1,
    fldR "q3" 23 16 .rw 4 1 255 1,
    fldR "q2" 15 8 .rw 8 1 255 1,
    fldR "q1" 7 0 .rw 8 1 255 1]]

/-- Registers of FLC page 0 (R290). -/
def rowsFLC0 : List RegRow :=
 [
  row "FLC_ENG_CFG" 0x300 0 1 [
    fld "rate_limit" 63 48 .hw 40,
    fld "refresh_bits" 47 32 .hw 120,
    fld "wl_pct" 31 24 .hw 8,
    fld "spare_warn" 23 16 .hw 20,
    fldR "scan_days" 7 0 .hw 7 1 7 1],
  row "FLC_ENG_STATUS" 0x308 0 1 [
    fld "spare" 63 32 .ro 0,
    fld "read_only" 1 1 .ro 0,
    fld "map_ready" 0 0 .ro 0],
  row "FLC_MAP_CFG" 0x310 0 1 [
    fld "width" 61 60 .hw 0,
    fld "where" 51 48 .hw 0,
    fld "slice" 41 32 .hw 0,
    fld "slices" 31 0 .hw 0],
  row "FLC_NS_n" 0x400 16 32 [
    fld "valid" 63 63 .hwt 0,
    fld "size" 48 32 .hwt 0,
    fld "base" 16 0 .hwt 0],
  row "FLC_BUDGET_n" 0x408 16 32 [
    fld "dwpd" 63 48 .hwt 0,
    fld "credit" 47 0 .ro 0]]

/-- Registers of FLC pages 0 to 15 (R289). -/
def rowsFLC0to15 : List RegRow :=
 [
  row "FLC_CH_CFG" 0x100 0 1 [
    fldR "rate" 23 16 .hw 0 8 36 2,
    fldR "planes" 13 12 .hw 0 0 2 1,
    fld "luns" 9 8 .hw 0,
    fld "targets" 7 0 .hw 0],
  row "FLC_CH_STATE" 0x108 0 1 [
    fld "soft_waiting" 15 8 .ro 0,
    fld "state" 2 0 .ro 0],
  row "FLC_CH_WEAR" 0x110 0 1 [
    fld "max_erase" 63 32 .ro 0,
    fld "mean_erase" 31 0 .ro 0],
  row "FLC_CH_BLOCKS" 0x118 0 1 [
    fld "bad" 63 32 .ro 0,
    fld "free" 31 0 .ro 0],
  row "FLC_CH_SCAN" 0x120 0 1 [
    fld "train_due" 63 63 .ro 0,
    fld "pass_tick" 47 0 .ro 0]]

/-- Registers of FLC pages 16 to 19 (R291). -/
def rowsFLC16to19 : List RegRow :=
 [
  row "FLC_DEC_STATUS" 0x100 0 1 [
    fld "soft" 8 8 .ro 0,
    fld "level" 7 4 .ro 0,
    fld "channel" 3 0 .ro 0]]

/-- Registers of GDC pages 0 to 16 (R266). -/
def rowsGDC0to16 : List RegRow :=
 [
  row "GDC_SITE_CFG" 0x100 0 1 [
    fld "position" 15 12 .hw 0,
    fldR "role" 10 8 .hw 0 0 3 1,
    fldR "device" 1 0 .hw 0 0 2 1],
  row "GDC_SITE_STATE" 0x108 0 1 [
    fld "failed_channels" 19 16 .ro 0,
    fld "state" 3 0 .ro 0],
  row "GDC_ECC_CTRL" 0x110 0 1 [
    fld "chan_fail_limit" 15 8 .rw 16,
    fld "crc_retries" 3 0 .rw 3],
  row "GDC_ECC_LAST" 0x118 0 1 [
    fld "kind" 63 62 .ro 0,
    fld "channel" 33 32 .ro 0,
    fld "sector" 31 0 .ro 0],
  row "GDC_SCRUB_CTRL" 0x120 0 1 [
    fld "period_h" 7 0 .rw 24],
  row "GDC_HOLD_STATUS" 0x128 0 1 [
    fld "held" 9 0 .ro 0],
  row "GDC_MIG_CTRL" 0x130 0 1 [
    fld "start" 63 63 .hw 0,
    fld "abort" 62 62 .hw 0,
    fldR "rate_pct" 7 0 .hw 75 1 100 1],
  row "GDC_MIG_STATUS" 0x138 0 1 [
    fld "state" 63 62 .ro 0,
    fld "pointer" 16 0 .ro 0]]

/-- Registers of GDC page 16 (R266). -/
def rowsGDC16 : List RegRow :=
 [
  row "GDC_COVER_CTRL" 0x140 0 1 [
    fldR "band" 47 42 .hw 0 1 48 1,
    fld "spread_base" 41 32 .hw 0,
    fld "enable" 0 0 .hw 0],
  row "GDC_COVER_STATUS" 0x148 0 1 [
    fld "stale_units" 63 32 .ro 0,
    fld "state" 1 0 .ro 0]]

/-- Registers of GDC pages 17 to 33 (R267). -/
def rowsGDC17to33 : List RegRow :=
 [
  row "GDC_PHY_CFG" 0x100 0 1 [
    fldR "rate_gbps" 7 0 .rw 28 28 48 1],
  row "GDC_PHY_TRAIN_TICK" 0x108 0 1 [
    fld "tick" 47 0 .ro 0],
  row "GDC_PHY_TRAIN_STATUS" 0x110 0 1 [
    fld "temp_at_train" 63 56 .ro 0,
    fld "temp_now" 55 48 .ro 0,
    fld "fail_streak" 7 4 .ro 0,
    fld "last_result" 1 0 .ro 0],
  row "GDC_PHY_MARGIN_c" 0x118 8 4 [
    fld "wr_margin" 31 16 .ro 0,
    fld "rd_margin" 15 0 .ro 0],
  row "GDC_PHY_RETRAIN" 0x140 0 1 [
    fld "temp_delta" 7 0 .rw 5]]

/-- Registers of HAY page 0 (R401, R452). -/
def rowsHAY0 : List RegRow :=
 [
  row "HAY_STATUS" 0x100 0 1 [
    fld "cores" 1 0 .ro 2],
  row "HAY_VLOG_HEAD" 0x108 0 1 [
    fld "written" 31 0 .ro 0],
  row "HAY_VLOG_TAIL" 0x110 0 1 [
    fld "read" 31 0 .hw 0],
  row "HAY_CONFLICT" 0x118 0 1 [
    fld "kind" 35 32 .ro 0,
    fld "index" 31 0 .ro 0],
  row "HAY_RESET" 0x120 0 1 [
    fldR "op" 63 56 .hw 0 1 4 1,
    fld "target" 9 0 .hw 0],
  row "HAY_RESET_STATUS" 0x128 0 1 [
    fld "cause" 63 56 .ro 0,
    fld "refused" 1 1 .ro 0,
    fld "busy" 0 0 .ro 0]]

/-- Registers of HAY page 1 (R401). -/
def rowsHAY1 : List RegRow :=
 [
  row "HAY_CORE_n" 0x100 8 24 [
    fld "allowed" 63 32 .hw 0,
    fld "role" 9 8 .hw 0,
    fld "act_valid" 5 5 .hw 0,
    fld "act" 4 0 .hw 0]]

/-- Registers of HAY page 8 (R27). -/
def rowsHAY8 : List RegRow :=
 [
  row "HAY_TILE_MAP_n" 0x100 8 144 [
    fld "valid_0" 15 15 .rwt 0,
    fld "page_0" 9 0 .rwt 0,
    fld "valid_1" 31 31 .rwt 0,
    fld "page_1" 25 16 .rwt 0,
    fld "valid_2" 47 47 .rwt 0,
    fld "page_2" 41 32 .rwt 0,
    fld "valid_3" 63 63 .rwt 0,
    fld "page_3" 57 48 .rwt 0]]

/-- Registers of HAY page 9 (R401). -/
def rowsHAY9 : List RegRow :=
 [
  row "HAY_GMAP_SEL" 0x100 0 1 [
    fld "partition" 14 10 .hw 0,
    fld "entry" 9 0 .hw 0],
  row "HAY_GMAP_DATA" 0x108 0 1 [
    fld "entry" 63 0 .hw 0],
  row "HAY_GMAP_COMMIT" 0x110 0 1 [
    fld "parts" 31 0 .hwt 0],
  row "HAY_GMAP_ACTIVE" 0x118 0 1 [
    fld "entry" 63 0 .ro 0],
  row "HAY_GMAP_STATUS" 0x120 0 1 [
    fld "copying" 0 0 .ro 0]]

/-- Registers of HAY page 10 (R401). -/
def rowsHAY10 : List RegRow :=
 [
  row "HAY_ZERO_STATUS" 0x100 0 1 [
    fld "hub_units" 63 32 .ro 0,
    fld "granules" 31 0 .ro 0]]

/-- Registers of MESH page 0 (R52). -/
def rowsMESH0 : List RegRow :=
 [
  row "MESH_ROUTE_CTRL" 0x100 0 1 [
    fld "hold_timeout" 15 8 .rwt 16,
    fld "detour_enable" 0 0 .rwt 1],
  row "MESH_OUT_COUNT" 0x108 0 1 [
    fld "count" 5 0 .ro 0],
  row "MESH_OUT_n" 0x200 8 32 [
    fld "valid" 63 63 .rwt 0,
    fld "wp_y" 44 40 .rwt 0,
    fld "wp_x" 36 32 .rwt 0,
    fld "y" 12 8 .rwt 0,
    fld "x" 4 0 .rwt 0]]

/-- Registers of MGT page 0 (R482). -/
def rowsMGT0 : List RegRow :=
 [
  row "MGT_PORT_CTRL" 0x100 0 1 [
    fldR "fec" 7 6 .rw 2 0 2 1,
    fld "an_enable" 1 1 .rw 1,
    fld "enable" 0 0 .rw 0],
  row "MGT_PORT_STATUS" 0x108 0 1 [
    fld "fec_in_use" 5 4 .ro 0,
    fld "link" 1 0 .ro 0],
  row "MGT_PORT_MAC" 0x110 0 1 [
    fld "mac" 47 0 .rw 0],
  row "MGT_PORT_IP4" 0x118 0 1 [
    fld "addr" 31 0 .rw 0],
  row "MGT_PORT_IP6_LO" 0x120 0 1 [
    fld "addr" 63 0 .rw 0],
  row "MGT_PORT_IP6_HI" 0x128 0 1 [
    fld "addr" 63 0 .rw 0],
  row "MGT_PORT_VLAN" 0x130 0 1 [
    fld "tagged" 12 12 .rw 0,
    fld "vid" 11 0 .rw 0]]

/-- Registers of PRT pages 0 to 31 (R292, R320, R373, R403, R425, R453). -/
def rowsPRT0to31 : List RegRow :=
 [
  row "PRT_CTRL" 0x100 0 1 [
    fld "valid" 63 63 .hwt 0,
    fld "spread" 62 62 .hw 0,
    fld "stop" 61 61 .hw 0,
    fld "state" 2 0 .ro 0],
  row "PRT_KEY" 0x108 0 1 [
    fld "key" 63 0 .hwt 0],
  row "PRT_RINGS" 0x110 0 1 [
    fldR "count" 48 32 .hwt 0 0 65536 1,
    fld "base" 15 0 .hwt 0],
  row "PRT_SLOTS" 0x118 0 1 [
    fldR "count" 46 32 .hwt 0 0 16384 1,
    fld "base" 13 0 .hwt 0],
  row "PRT_QUOTA" 0x120 0 1 [
    fld "tokens" 63 32 .hwt 0,
    fldR "adapters" 12 0 .hwt 0 0 4096 1],
  row "PRT_LEASE" 0x128 0 1 [
    fldR "entries" 17 0 .hwt 0 0 131072 1],
  row "PRT_VLCAP" 0x130 0 1 [
    fldR "vl4" 31 24 .hwt 100 0 100 1,
    fldR "vl3" 23 16 .hwt 100 0 100 1,
    fldR "vl2" 15 8 .hwt 100 0 100 1,
    fldR "vl1" 7 0 .hwt 100 0 100 1],
  row "PRT_HUBMEM_h" 0x140 8 4 [
    fldR "count" 40 32 .hwt 0 0 208 1,
    fldR "base" 7 0 .hwt 0 48 255 1],
  row "PRT_TILES_w" 0x160 8 9 [
    fld "tiles" 63 0 .hwt 0],
  row "PRT_HAY_MBOX" 0x1b0 0 1 [
    fld "addr" 19 0 .hw 0],
  row "PRT_HAY_CALL" 0x1b8 0 1 [
    fld "call" 63 0 .wo 0],
  row "PRT_ENERGY" 0x1c0 0 1 [
    fld "uj" 63 0 .ro 0]] ++
 [
  row "PRT_FLQ_CFG" 0x600 0 1 [
    fldR "size" 40 32 .rw 0 1 256 1,
    fld "base" 19 0 .rw 0],
  row "PRT_FLQ_TAIL" 0x608 0 1 [
    fld "tail" 31 0 .rw 0],
  row "PRT_FLQ_HEAD" 0x610 0 1 [
    fld "started" 63 32 .ro 0,
    fld "done" 31 0 .ro 0],
  row "PRT_LDQ_CFG" 0x620 0 1 [
    fldR "size" 38 32 .rw 0 1 64 1,
    fld "base" 19 0 .rw 0],
  row "PRT_LDQ_TAIL" 0x628 0 1 [
    fld "tail" 31 0 .rw 0],
  row "PRT_LDQ_HEAD" 0x630 0 1 [
    fld "started" 63 32 .ro 0,
    fld "done" 31 0 .ro 0],
  row "PRT_TDQ_CFG" 0x640 0 1 [
    fldR "size" 44 32 .rw 0 1 4096 1,
    fld "base" 19 0 .rw 0],
  row "PRT_TDQ_TAIL" 0x648 0 1 [
    fld "tail" 31 0 .rw 0],
  row "PRT_TDQ_HEAD" 0x650 0 1 [
    fld "started" 63 32 .ro 0,
    fld "done" 31 0 .ro 0],
  row "PRT_CLQ_CFG" 0x680 0 1 [
    fldR "size" 40 32 .rw 0 1 256 1,
    fld "base" 19 0 .rw 0],
  row "PRT_CLQ_TAIL" 0x688 0 1 [
    fld "tail" 31 0 .rw 0],
  row "PRT_CLQ_HEAD" 0x690 0 1 [
    fld "started" 63 32 .ro 0,
    fld "done" 31 0 .ro 0]] ++
 [
  row "PRT_COL_CTRL" 0x698 0 1 [
    fldR "rereq_limit" 39 32 .rw 4 1 255 1,
    fldR "col_timeout_us" 31 0 .rw 10000 1 4294967295 1],
  row "PRT_COL_ABORT" 0x6a0 0 1 [
    fld "abort" 63 0 .wo 0],
  row "PRT_COL_STATUS" 0x6a8 0 1 [
    fld "last_status" 63 56 .ro 0,
    fld "last_group" 55 44 .ro 0,
    fld "last_seq" 43 12 .ro 0,
    fld "open" 8 0 .ro 0],
  row "PRT_FAULT_CTRL" 0x700 0 1 [
    fldR "replay_limit" 7 0 .rw 2 1 15 1],
  row "PRT_FAULT_STATUS" 0x708 0 1 [
    fld "replay_exhausted" 7 7 .ro 0,
    fld "recovering" 6 6 .ro 0,
    fld "replays" 3 0 .ro 0],
  row "PRT_MIRROR_m" 0x710 8 4 [
    fld "valid" 63 63 .rw 0,
    fld "frozen" 62 62 .rw 0,
    fldR "log_size" 61 56 .rw 26 26 34 1,
    fld "source" 55 44 .rw 0,
    fld "base" 31 0 .rw 0],
  row "PRT_KV_REBUILD" 0x730 0 1 [
    fld "from" 63 32 .wo 0,
    fld "slot" 13 0 .wo 0],
  row "PRT_STEP_ABANDON" 0x738 0 1 [
    fld "abandon" 63 0 .wo 0],
  row "PRT_RECOVER_CMD" 0x740 0 1 [
    fld "failover" 63 63 .wo 0,
    fld "table" 19 0 .wo 0],
  row "PRT_RECOVER_STATUS" 0x748 0 1 [
    fld "result" 63 56 .ro 0,
    fld "last_seq" 47 0 .ro 0]]

/-- Registers of PRX page 0 (R213). -/
def rowsPRX0 : List RegRow :=
 [
  row "PRX_KEY_LO_n" 0x100 16 32 [
    fld "key" 63 0 .wo 0],
  row "PRX_KEY_HI_n" 0x108 16 32 [
    fld "key" 63 0 .wo 0]]

/-- Registers of PRX page 1 (R213). -/
def rowsPRX1 : List RegRow :=
 [
  row "PRX_SHARE_KEY_LO_c" 0x100 16 8 [
    fld "key" 63 0 .wo 0],
  row "PRX_SHARE_KEY_HI_c" 0x108 16 8 [
    fld "key" 63 0 .wo 0],
  row "PRX_SHARE_CFG_c" 0x200 8 8 [
    fld "valid" 63 63 .hw 0,
    fldR "node_log" 53 48 .hw 0 10 24 1,
    fldR "bucket_log" 45 40 .hw 0 10 24 1,
    fld "owner" 36 32 .hw 0,
    fld "readers" 31 0 .hw 0],
  row "PRX_SHARE_BASE_c" 0x300 8 8 [
    fldR "base" 47 0 .hw 0 0 281474976710655 4096]]

/-- Registers of PWR page 0 (R423). -/
def rowsPWR0 : List RegRow :=
 [
  row "PWR_VF_CTRL" 0x100 0 1 [
    fldR "declared_step" 15 8 .rwt 21 0 21 1,
    fld "boost" 0 0 .rwt 0],
  row "PWR_CAP" 0x108 0 1 [
    fldR "boost_margin_w" 31 16 .rwt 100 0 500 1,
    fldR "cap_w" 15 0 .rwt 2100 700 2100 1],
  row "PWR_CURB_CAP" 0x110 0 1 [
    fldR "level3_w" 47 32 .rwt 1500 1500 2100 1,
    fldR "level2_w" 31 16 .rwt 1700 1500 2100 1,
    fldR "level1_w" 15 0 .rwt 1900 1500 2100 1],
  row "PWR_STATUS" 0x118 0 1 [
    fld "s_cap" 55 48 .ro 21,
    fld "step_q3" 47 40 .ro 21,
    fld "step_q2" 39 32 .ro 21,
    fld "step_q1" 31 24 .ro 21,
    fld "step_q0" 23 16 .ro 21,
    fld "divided" 15 12 .ro 0,
    fld "curb_level" 11 10 .ro 0,
    fld "walking" 9 9 .ro 0,
    fld "cap_unmet" 8 8 .ro 0,
    fld "below_declared" 7 7 .ro 0,
    fld "vin_low" 6 6 .ro 0],
  row "PWR_INPUT" 0x120 0 1 [
    fld "avg_mw" 63 32 .ro 0,
    fld "vin_10mv" 31 16 .ro 0],
  row "PWR_ENERGY" 0x128 0 1 [
    fld "uj" 63 0 .ro 0],
  row "PWR_STAGE_STATUS" 0x130 0 1 [
    fld "failed" 27 0 .ro 0],
  row "PWR_STAGE_STATUS2" 0x138 0 1 [
    fld "failed" 11 0 .ro 0],
  row "PWR_DROOP_CFG" 0x140 0 1 [
    fldR "threshold_mv" 15 8 .rwt 40 20 100 1,
    fldR "min_stretch" 7 0 .rwt 16 1 255 1]]

/-- Registers of PWR page 1 (R424). -/
def rowsPWR1 : List RegRow :=
 [
  row "PWR_THERM_CFG" 0x100 0 1 [
    fldR "throttle_c" 31 24 .rw 105 85 105 1,
    fld "boost_c" 23 16 .rw 95,
    fldR "hyst_c" 15 8 .rw 5 1 20 1,
    fldR "throttle_steps" 7 0 .rw 2 1 8 1],
  row "PWR_THERM_Q_q" 0x108 8 4 [
    fld "hottest_c" 63 56 .ro 0,
    fld "hottest_tile" 55 48 .ro 0,
    fld "limit_step" 47 40 .ro 24,
    fld "bad_sensors" 39 32 .ro 0,
    fld "throttled" 1 1 .ro 0,
    fld "no_boost" 0 0 .ro 0],
  row "PWR_SENSOR_SEL" 0x128 0 1 [
    fldR "sensor" 9 0 .rw 0 0 623 1],
  row "PWR_SENSOR" 0x130 0 1 [
    fld "temp" 31 16 .ro 0,
    fld "trim" 15 8 .ro 0,
    fld "bad" 1 1 .ro 0,
    fld "calibrated" 0 0 .ro 0],
  row "PWR_TRIP" 0x138 0 1 [
    fld "tripped" 63 63 .ro 0,
    fld "tick" 47 0 .ro 0]]

/-- Registers of REQ page 0 (R211). -/
def rowsREQ0 : List RegRow :=
 [
  row "REQ_ENGINE_STATUS" 0x100 0 1 [
    fld "live_slots" 46 32 .ro 0,
    fld "admit_in_flight" 6 0 .ro 0]]

/-- Registers of REQ pages 1 to 32 (R212, R321). -/
def rowsREQ1to32 : List RegRow :=
 [
  row "REQ_PART_CTRL" 0x100 0 1 [
    fld "drain" 1 1 .rw 0,
    fld "admit_enable" 0 0 .rw 0],
  row "REQ_STEP_LIMIT" 0x108 0 1 [
    fldR "max_requests" 47 32 .rw 4096 1 4096 1,
    fldR "chunk_max" 31 16 .rw 512 0 65535 64,
    fldR "token_budget" 15 0 .rw 2048 1 65535 1],
  row "REQ_STEP_ARM" 0x110 0 1 [
    fld "start_tick" 47 0 .rw 0],
  row "REQ_STEP_CTRL" 0x118 0 1 [
    fld "rollback" 1 1 .wo 0,
    fld "commit" 0 0 .wo 0],
  row "REQ_STEP_STATUS" 0x120 0 1 [
    fld "batch_entries" 63 48 .ro 0,
    fld "batch_tokens" 47 32 .ro 0,
    fld "pending_publish" 31 24 .ro 0,
    fld "error" 15 8 .ro 0,
    fld "phase" 2 0 .ro 0],
  row "REQ_BATCH_BASE" 0x128 0 1 [
    fld "addr" 19 0 .rw 0],
  row "REQ_COMMIT_BASE" 0x130 0 1 [
    fld "addr" 19 0 .rw 0],
  row "REQ_DRAFT_BASE" 0x138 0 1 [
    fld "addr" 19 0 .rw 0],
  row "REQ_JRNL_CFG" 0x140 0 1 [
    fldR "log_size" 53 48 .rw 26 26 34 1,
    fldR "base" 47 0 .rw 0 0 281474976710655 65536],
  row "REQ_JRNL_BUDDY" 0x148 0 1 [
    fld "buddy" 43 32 .rw 0,
    fld "mirror_timeout_us" 15 0 .rw 200],
  row "REQ_JRNL_SEQ" 0x150 0 1 [
    fld "written" 47 0 .ro 0],
  row "REQ_JRNL_CONF" 0x158 0 1 [
    fld "mirror_lost" 63 63 .ro 0,
    fld "confirmed" 47 0 .ro 0]] ++
 [
  row "REQ_PRX_BASE" 0x160 0 1 [
    fldR "base" 47 0 .rw 0 0 281474976710655 4096],
  row "REQ_PRX_CFG" 0x168 0 1 [
    fld "evict_low" 39 32 .rw 16,
    fldR "bucket_log" 29 24 .rw 16 10 24 1,
    fldR "node_log" 21 16 .rw 16 10 24 1,
    fld "layout" 15 8 .rw 0,
    fld "publish" 0 0 .rw 0],
  row "REQ_PRX_ROOT" 0x170 0 1 [
    fld "model_tag" 63 0 .rw 0],
  row "REQ_PRX_SHARE" 0x178 0 1 [
    fld "withdraw" 63 63 .wo 0,
    fld "slot" 58 56 .wo 0,
    fld "node" 23 0 .wo 0],
  row "REQ_CLASS_c" 0x180 8 8 [
    fld "max_slots" 63 48 .rw 16383,
    fld "abort_on_deadline" 45 45 .rw 0,
    fld "min_lead_us" 31 0 .rw 0],
  row "REQ_UNPARK" 0x1c8 0 1 [
    fld "slot" 13 0 .wo 0],
  row "REQ_SLOT_SEL" 0x1d0 0 1 [
    fld "slot" 13 0 .rw 0],
  row "REQ_RELEASE" 0x1d8 0 1 [
    fld "slot" 13 0 .wo 0],
  row "REQ_MOVE_BASE" 0x1e0 0 1 [
    fld "valid" 63 63 .rw 0,
    fld "addr" 19 0 .rw 0],
  row "REQ_STEP_START" 0x1e8 0 1 [
    fld "tick" 47 0 .ro 0],
  row "REQ_SLOT_DATA_w" 0x200 8 16 [
    fld "data" 63 0 .ro 0],
  row "REQ_RING_SEL" 0x280 0 1 [
    fld "ring" 15 0 .rw 0]] ++
 [
  row "REQ_RING_CTX_w" 0x288 8 8 [
    fld "data" 63 0 .rw 0],
  row "REQ_ADP_ARG_w" 0x300 8 4 [
    fld "data" 63 0 .rw 0],
  row "REQ_ADP_CMD" 0x320 0 1 [
    fldR "op" 63 60 .wo 0 1 4 1,
    fld "number" 31 16 .wo 0,
    fld "version" 15 0 .wo 0],
  row "REQ_ADP_STATUS" 0x328 0 1 [
    fld "result" 63 56 .ro 0,
    fld "entries" 12 0 .ro 0]]

/-- Registers of SEC page 0 (R402). -/
def rowsSEC0 : List RegRow :=
 [
  row "SEC_BOOT_STATUS" 0x100 0 1 [
    fld "boot_count" 63 32 .ro 0,
    fld "debug_open" 17 17 .ro 0,
    fld "identity_mismatch" 16 16 .ro 0,
    fld "stage" 15 8 .ro 0,
    fld "result" 7 0 .ro 0],
  row "SEC_LIFECYCLE" 0x108 0 1 [
    fld "state" 1 0 .ro 0],
  row "SEC_MEAS_SEL" 0x110 0 1 [
    fld "index" 3 0 .rw 0],
  row "SEC_MEAS_w" 0x118 8 6 [
    fld "data" 63 0 .ro 0],
  row "SEC_FLOOR_SEL" 0x148 0 1 [
    fld "kind" 2 0 .rw 0],
  row "SEC_FLOOR" 0x150 0 1 [
    fld "running" 63 32 .ro 0,
    fld "floor" 31 0 .ro 0]]

/-- Registers of SEC page 1 (R402). -/
def rowsSEC1 : List RegRow :=
 [
  row "SEC_CMD" 0x100 0 1 [
    fldR "op" 63 56 .hw 0 1 5 1,
    fldR "space" 49 48 .hw 0 0 1 1,
    fld "arg" 47 0 .hw 0],
  row "SEC_CMD_STATUS" 0x108 0 1 [
    fld "result" 63 56 .ro 0,
    fld "busy" 0 0 .ro 0],
  row "SEC_MGMT_SEQ" 0x110 0 1 [
    fld "seq" 63 0 .ro 0],
  row "SEC_MGMT_PORT" 0x118 0 1 [
    fld "port" 15 0 .hw 49960]]

/-- Registers of TED pages 0 to 3 (R319). -/
def rowsTED0to3 : List RegRow :=
 [
  row "TED_STATUS" 0x100 0 1 [
    fld "busy" 8 8 .ro 0,
    fld "partition" 4 0 .ro 0],
  row "TED_FILL_LAST" 0x108 0 1 [
    fld "status" 63 56 .ro 0,
    fld "partition" 36 32 .ro 0,
    fld "tile" 9 0 .ro 0]]

/-- Registers of TILE pages 0 to 623 (R49, R121, R122, R152, R179, R265). -/
def rowsTILE0to623 : List RegRow :=
 [
  row "TILE_IDENT" 0x100 0 1 [
    fld "logical_valid" 31 31 .ro 0,
    fld "logical" 25 16 .ro 0,
    fld "y" 12 8 .ro 0,
    fld "x" 4 0 .ro 0],
  row "TILE_WBUF_CFG" 0x108 0 1 [
    fldR "b_size" 58 48 .rwt 0 0 1024 1,
    fld "b_base" 41 32 .rwt 0,
    fldR "a_size" 26 16 .rwt 0 0 1024 1,
    fld "a_base" 9 0 .rwt 0],
  row "TILE_WBUF_STATUS" 0x110 0 1 [
    fld "b_tag" 47 32 .ro 0,
    fld "a_tag" 31 16 .ro 0,
    fld "b_state" 3 2 .ro 0,
    fld "a_state" 1 0 .ro 0],
  row "TILE_FAULT" 0x118 0 1 [
    fld "wbuf_tag" 4 4 .w1c 0,
    fld "engine_selftest" 3 3 .w1c 0,
    fld "router" 2 2 .w1c 0,
    fld "sram_ue" 1 1 .w1c 0,
    fld "sram_ce_limit" 0 0 .w1c 0],
  row "TILE_OPQ_CFG" 0x140 0 1 [
    fldR "size" 44 32 .rw 0 0 4096 1,
    fld "base" 15 0 .rw 0],
  row "TILE_OPQ_TAIL" 0x148 0 1 [
    fld "tail" 31 0 .rw 0],
  row "TILE_OPQ_HEAD" 0x150 0 1 [
    fld "issued" 63 32 .ro 0,
    fld "retired" 31 0 .ro 0],
  row "TILE_OP_STATUS" 0x158 0 1 [
    fld "err_code" 63 56 .ro 0,
    fld "err_opcode" 55 48 .ro 0,
    fld "err_seq" 47 16 .ro 0,
    fld "halted" 5 5 .ro 0,
    fld "in_flight" 4 0 .ro 0],
  row "TILE_OP_CTRL" 0x160 0 1 [
    fld "errsig_enable" 33 33 .rw 0,
    fld "halt_on_error" 32 32 .rw 1,
    fld "errsig_tile" 31 22 .rw 0,
    fld "errsig_offset" 18 0 .rw 0],
  row "TILE_OP_FLUSH" 0x168 0 1 [
    fld "flush" 63 0 .wo 0],
  row "TILE_QS_CFG_s" 0x200 64 16 [
    fldR "headroom" 15 8 .rwt 8 0 31 1,
    fld "outlier_fmt" 7 7 .rwt 1,
    fld "outlier_policy" 6 6 .rwt 0,
    fld "outlier_enable" 5 5 .rwt 0,
    fld "status_enable" 4 4 .rwt 0,
    fld "scale_mode" 3 3 .rwt 0,
    fldR "out_format" 2 0 .rwt 0 0 4 1],
  row "TILE_QS_TSCALE_s" 0x208 64 16 [
    fld "tscale" 31 0 .rwt 1065353216]] ++
 [
  row "TILE_QS_EFFECT_s" 0x210 64 16 [
    fld "hist_count" 36 32 .ro 0,
    fld "t" 31 0 .ro 1065353216],
  row "TILE_QS_OUTLIER_s" 0x218 64 16 [
    fldR "n_entries" 46 32 .rwt 0 0 16384 1,
    fld "table_base" 15 0 .rwt 0],
  row "TILE_QS_SIDE_s" 0x220 64 16 [
    fld "side_size" 47 32 .rwt 0,
    fld "side_base" 15 0 .rwt 0],
  row "TILE_QS_WIDE_s" 0x228 64 16 [
    fld "wide_size" 47 32 .rwt 0,
    fld "wide_base" 15 0 .rwt 0],
  row "TILE_QS_CHUNK_s" 0x230 64 16 [
    fld "widened" 63 63 .ro 0,
    fld "wide_short" 62 62 .ro 0,
    fld "candidates" 55 32 .ro 0,
    fld "entries" 14 0 .ro 0],
  row "TILE_QHIST_SEL" 0x600 0 1 [
    fld "stream" 7 4 .rw 0,
    fld "entry" 3 0 .rw 0],
  row "TILE_QHIST_DATA" 0x608 0 1 [
    fld "valid" 63 63 .rw 0,
    fld "max" 31 0 .rw 0],
  row "TILE_ATTN_CTRL" 0x680 0 1 [
    fldR "walk_depth" 11 8 .rwt 8 1 15 1,
    fld "fast_exp" 0 0 .rwt 0],
  row "TILE_WALK_INV" 0x688 0 1 [
    fld "inv" 63 0 .wo 0],
  row "TILE_WALK_STATUS" 0x690 0 1 [
    fld "valid_entries" 37 32 .ro 0,
    fld "pinned" 5 0 .ro 0],
  row "TILE_ATTN_LAST" 0x698 0 1 [
    fld "status" 63 56 .ro 0,
    fld "entry" 31 0 .ro 0],
  row "TILE_WB_SEL" 0x700 0 1 [
    fld "frame" 5 0 .rw 0]] ++
 [
  row "TILE_WB_ENTRY" 0x708 0 1 [
    fld "valid" 63 63 .rw 0,
    fld "wt" 62 62 .rw 0,
    fld "home_compressed" 61 61 .rw 0,
    fld "dirty" 47 32 .ro 0,
    fld "home" 31 0 .rw 0],
  row "TILE_WB_CMD" 0x710 0 1 [
    fld "op" 63 62 .wo 0,
    fld "frame" 53 48 .wo 0,
    fld "sig_offset" 18 0 .wo 0],
  row "TILE_WB_STATUS" 0x718 0 1 [
    fld "done" 63 32 .ro 0,
    fld "queued" 3 0 .ro 0]]

/-- Registers of TIM page 0 (R78). -/
def rowsTIM0 : List RegRow :=
 [
  row "TIM_NOW" 0x100 0 1 [
    fld "ns" 63 0 .ro 0],
  row "TIM_NOW_FRAC" 0x108 0 1 [
    fld "frac" 15 0 .ro 0],
  row "TIM_SYNC_CTRL" 0x110 0 1 [
    fld "holdover_limit" 63 48 .rw 1000,
    fld "error_limit" 47 40 .rw 10,
    fldR "transport" 17 16 .rw 0 0 2 1,
    fld "ptp_domain" 15 8 .rw 0,
    fld "beacon_enable" 1 1 .rw 1,
    fld "ptp_enable" 0 0 .rw 1],
  row "TIM_SYNC_STATUS" 0x118 0 1 [
    fld "est_error_ns" 47 32 .ro 0,
    fld "beacon_ports" 15 8 .ro 0,
    fld "source" 5 4 .ro 0,
    fld "unsynchronised" 3 3 .ro 0,
    fld "locked_once" 2 2 .ro 0,
    fld "state" 1 0 .ro 0],
  row "TIM_OFFSET" 0x120 0 1 [
    fld "rate_adj" 63 32 .ro 0,
    fld "offset" 31 0 .ro 0]]

/-- Registers of TIM page 1 (R79). -/
def rowsTIM1 : List RegRow :=
 [
  row "TIM_TICK_CTRL" 0x100 0 1 [
    fld "run" 0 0 .rw 0],
  row "TIM_TICK_PERIOD" 0x108 0 1 [
    fldR "period_us" 19 0 .rwt 250 50 1000000 1],
  row "TIM_EPOCH_TIME" 0x110 0 1 [
    fld "ns" 63 0 .rw 0],
  row "TIM_EPOCH_TICK" 0x118 0 1 [
    fld "tick" 47 0 .rw 0],
  row "TIM_TICK_NOW" 0x120 0 1 [
    fld "tick" 47 0 .ro 0],
  row "TIM_TICK_TIME" 0x128 0 1 [
    fld "ns" 63 0 .ro 0]]

/-- Registers of TIM page 2 (R80). -/
def rowsTIM2 : List RegRow :=
 [
  row "TIM_STEP_n" 0x100 8 32 [
    fld "running" 63 63 .ro 0,
    fld "step" 47 0 .ro 0]]

/-- Registers of TIM page 3 (R81). -/
def rowsTIM3 : List RegRow :=
 [
  row "TIM_GLEAN_CTRL" 0x100 0 1 [
    fld "seq" 63 32 .ro 0,
    fldR "lead" 7 0 .rw 4 1 255 1],
  row "TIM_GLEAN_TICK_n" 0x200 16 64 [
    fld "tick" 47 0 .rw 0],
  row "TIM_GLEAN_DESC_n" 0x208 16 64 [
    fld "length_us" 63 44 .rw 0,
    fld "offset_us" 43 24 .rw 0,
    fld "instance" 23 16 .rw 0,
    fldR "kind" 15 12 .rw 0 1 5 1,
    fld "cancel" 5 5 .rw 0,
    fld "chain" 4 4 .rw 0,
    fldR "status" 2 0 .rw 0 0 6 1]]

/-- Registers of XRT pages 0 to 3 (R235). -/
def rowsXRT0to3 : List RegRow :=
 [
  row "XRT_ENG_STATUS" 0x100 0 1 [
    fld "busy" 8 8 .ro 0,
    fld "context" 3 0 .ro 0]]

/-- Registers of XRT pages 4 to 15 (R236). -/
def rowsXRT4to15 : List RegRow :=
 [
  row "XRT_CTX_LAYER_BASE" 0x100 0 1 [
    fldR "layers" 40 32 .rw 0 1 256 1,
    fld "addr" 19 0 .rw 0],
  row "XRT_CTX_ROUTERS" 0x108 0 1 [
    fld "first" 41 32 .rw 0,
    fldR "rows_per_tile" 31 16 .rw 0 1 65535 1,
    fldR "count" 4 0 .rw 0 1 16 1],
  row "XRT_CTX_PLACEQ" 0x110 0 1 [
    fldR "size" 38 32 .rw 0 1 64 1,
    fld "base" 19 0 .rw 0],
  row "XRT_CTX_PLACE_TAIL" 0x118 0 1 [
    fld "tail" 31 0 .rw 0],
  row "XRT_CTX_PLACE_HEAD" 0x120 0 1 [
    fld "started" 63 32 .ro 0,
    fld "done" 31 0 .ro 0],
  row "XRT_CTX_STATUS" 0x128 0 1 [
    fld "status" 63 56 .ro 0,
    fld "layer" 40 32 .ro 0,
    fld "waiting" 0 0 .ro 0],
  row "XRT_CTX_SNAP" 0x130 0 1 [
    fld "enable" 63 63 .rw 0,
    fld "snap_offset" 19 0 .rw 0],
  row "XRT_BIAS_CTRL" 0x140 0 1 [
    fld "eta" 63 32 .rwt 0,
    fld "m" 7 0 .rwt 0],
  row "XRT_BIAS_LIMIT" 0x148 0 1 [
    fld "limit" 31 0 .rwt 1065353216],
  row "XRT_BIAS_READY" 0x150 0 1 [
    fld "offset" 18 0 .rw 0],
  row "XRT_BIAS_STATE" 0x158 0 1 [
    fld "seq" 47 16 .rw 0,
    fld "steps_since" 15 8 .rw 0]]

/-- Counters of BIN pages 0 to 1. -/
def cntsBIN0to1 : List CntRow :=
  [cnt "BIN_CNT_RX_BYTES" 0x800 0 1,
   cnt "BIN_CNT_TX_BYTES" 0x808 0 1,
   cnt "BIN_CNT_RX_DROP" 0x810 0 1,
   cnt "BIN_CNT_PAUSE_US" 0x818 0 1,
   cnt "BIN_CNT_CNP_TX" 0x820 0 1,
   cnt "BIN_CNT_NAK" 0x828 0 1,
   cnt "BIN_CNT_RETRANS" 0x830 0 1,
   cnt "BIN_CNT_FEC_CORR" 0x838 0 1,
   cnt "BIN_CNT_FEC_UNCORR" 0x840 0 1,
   cnt "BIN_CNT_READS" 0x848 0 1]

/-- Counters of BIN page 2. -/
def cntsBIN2 : List CntRow :=
  [cnt "BIN_CNT_CHUNKS" 0x800 0 1,
   cnt "BIN_CNT_SOURCE_TIMEOUT" 0x808 0 1,
   cnt "BIN_CNT_SOURCE_ERROR" 0x810 0 1,
   cnt "BIN_CNT_TAG_FAIL" 0x818 0 1,
   cnt "BIN_CNT_CODEC_FAIL" 0x820 0 1,
   cnt "BIN_CNT_DIGEST_FAIL" 0x828 0 1,
   cnt "BIN_CNT_PEER_COPY" 0x830 0 1,
   cnt "BIN_CNT_PEER_MISS" 0x838 0 1,
   cnt "BIN_CNT_PEER_SERVED" 0x840 0 1,
   cnt "BIN_CNT_STREAM_WAIT" 0x848 0 1,
   cnt "BIN_CNT_ENGINE_BYTES" 0x850 0 1]

/-- Counters of BMS pages 0 to 3. -/
def cntsBMS0to3 : List CntRow :=
  [cnt "TX_BYTES_VLv" 0x800 8 8,
   cnt "RX_BYTES_VLv" 0x840 8 8,
   cnt "STALL_VLv" 0x880 8 8,
   cnt "CREDIT_VLv" 0x8c0 8 8,
   cnt "REPLAY" 0x900 0 1,
   cnt "REPLAY_FULL" 0x908 0 1,
   cnt "CRC_BAD" 0x910 0 1,
   cnt "FEC_CORR" 0x918 0 1,
   cnt "FEC_UNCORR" 0x920 0 1,
   cnt "RETRAIN" 0x928 0 1,
   cnt "SPARE_SWAP" 0x930 0 1,
   cnt "E2E_BAD" 0x938 0 1,
   cnt "KEY_DROP" 0x940 0 1,
   cnt "CMD_RX" 0x948 0 1,
   cnt "CMD_DUP" 0x950 0 1,
   cnt "QUENCH_WAIT" 0x958 0 1,
   cnt "RING_CAP" 0x960 0 1,
   cnt "PUT_RESEND" 0x968 0 1,
   cnt "TRANSIT_BYTES" 0x970 0 1,
   cnt "TRANSIT_CAP" 0x978 0 1,
   cnt "REMOTE_REFUSED" 0x980 0 1]

/-- Counters of CNT page 0. -/
def cntsCNT0 : List CntRow :=
  [cnt "CNT_CNT_SNAPS" 0x800 0 1,
   cnt "CNT_CNT_SNAP_SKIPPED" 0x808 0 1,
   cnt "CNT_CNT_SNAP_CUT" 0x810 0 1,
   cnt "CNT_CNT_SNAP_BYTES" 0x818 0 1]

/-- Counters of CNT page 2. -/
def cntsCNT2 : List CntRow :=
  [cnt "CNT_THR_i" 0x800 8 64]

/-- Counters of FAB pages 0 to 7. -/
def cntsFAB0to7 : List CntRow :=
  [cnt "TX_BYTES_VLv" 0x800 8 8,
   cnt "RX_BYTES_VLv" 0x840 8 8,
   cnt "STALL_VLv" 0x880 8 8,
   cnt "CREDIT_VLv" 0x8c0 8 8,
   cnt "REPLAY" 0x900 0 1,
   cnt "REPLAY_FULL" 0x908 0 1,
   cnt "CRC_BAD" 0x910 0 1,
   cnt "FEC_CORR" 0x918 0 1,
   cnt "FEC_UNCORR" 0x920 0 1,
   cnt "RETRAIN" 0x928 0 1,
   cnt "SPARE_SWAP" 0x930 0 1,
   cnt "E2E_BAD" 0x938 0 1,
   cnt "KEY_DROP" 0x940 0 1,
   cnt "CMD_RX" 0x948 0 1,
   cnt "CMD_DUP" 0x950 0 1,
   cnt "QUENCH_WAIT" 0x958 0 1,
   cnt "RING_CAP" 0x960 0 1,
   cnt "PUT_RESEND" 0x968 0 1]

/-- Counters of FLC page 0. -/
def cntsFLC0 : List CntRow :=
  [cnt "FLC_CNT_BUDGET_REFUSED" 0x900 0 1]

/-- Counters of FLC pages 0 to 15. -/
def cntsFLC0to15 : List CntRow :=
  [cnt "FLC_CNT_RD_BYTES" 0x800 0 1,
   cnt "FLC_CNT_WR_BYTES" 0x808 0 1,
   cnt "FLC_CNT_CORR_BITS" 0x810 0 1,
   cnt "FLC_CNT_SOFT" 0x818 0 1,
   cnt "FLC_CNT_UE" 0x820 0 1,
   cnt "FLC_CNT_RX_FULL" 0x828 0 1,
   cnt "FLC_CNT_WBUF_WAIT" 0x830 0 1,
   cnt "FLC_CNT_GLEAN_HOLD" 0x838 0 1,
   cnt "FLC_CNT_SCAN_CW" 0x840 0 1,
   cnt "FLC_CNT_REFRESH" 0x848 0 1,
   cnt "FLC_CNT_RELOC_CW" 0x850 0 1,
   cnt "FLC_CNT_ERASES" 0x858 0 1,
   cnt "FLC_CNT_GROWN_BAD" 0x860 0 1,
   cnt "FLC_CNT_STALL" 0x868 0 1,
   cnt "FLC_CNT_CREDIT" 0x870 0 1]

/-- Counters of FLC pages 16 to 19. -/
def cntsFLC16to19 : List CntRow :=
  [cnt "FLC_DEC_CNT_HARD" 0x800 0 1,
   cnt "FLC_DEC_CNT_HARD_FAIL" 0x808 0 1,
   cnt "FLC_DEC_CNT_SOFT_BUSY" 0x810 0 1,
   cnt "FLC_DEC_CNT_SOFT_FAIL" 0x818 0 1]

/-- Counters of GDC pages 0 to 16. -/
def cntsGDC0to16 : List CntRow :=
  [cnt "GDC_CNT_RD_BYTES" 0x800 0 1,
   cnt "GDC_CNT_WR_BYTES" 0x808 0 1,
   cnt "GDC_CNT_STALL" 0x810 0 1,
   cnt "GDC_CNT_CREDIT" 0x818 0 1,
   cnt "GDC_CNT_RMW" 0x820 0 1,
   cnt "GDC_CNT_FULL_STRIPE" 0x828 0 1,
   cnt "GDC_CNT_CRC_RETRY" 0x830 0 1,
   cnt "GDC_CNT_ODECC_CE" 0x838 0 1,
   cnt "GDC_CNT_RECON" 0x840 0 1,
   cnt "GDC_CNT_UE" 0x848 0 1,
   cnt "GDC_CNT_SCRUB_MISMATCH" 0x850 0 1,
   cnt "GDC_CNT_GLEAN_HOLD" 0x858 0 1,
   cnt "GDC_CNT_HOLD_FULL" 0x860 0 1,
   cnt "GDC_CNT_MIG_BYTES" 0x868 0 1,
   cnt "GDC_CNT_MIG_WRITE_WAIT" 0x870 0 1,
   cnt "GDC_CNT_COVER_READS" 0x878 0 1,
   cnt "GDC_CNT_COVER_CATCHUP" 0x880 0 1]

/-- Counters of GDC pages 17 to 33. -/
def cntsGDC17to33 : List CntRow :=
  [cnt "GDC_PHY_CNT_TRAIN" 0x800 0 1,
   cnt "GDC_PHY_CNT_TRAIN_FAIL" 0x808 0 1,
   cnt "GDC_PHY_CNT_RETRAIN_DUE" 0x810 0 1]

/-- Counters of HAY page 0. -/
def cntsHAY0 : List CntRow :=
  [cnt "HAY_CNT_VIOLATIONS" 0x800 0 1,
   cnt "HAY_CNT_VLOG_DROP" 0x808 0 1,
   cnt "HAY_CNT_GRANT_CONFLICT" 0x810 0 1,
   cnt "HAY_CNT_MOVE_DEFERRED" 0x818 0 1,
   cnt "HAY_CNT_CALLS" 0x820 0 1,
   cnt "HAY_CNT_TILE_RESETS" 0x828 0 1,
   cnt "HAY_CNT_PART_RESETS" 0x830 0 1]

/-- Counters of MESH page 0. -/
def cntsMESH0 : List CntRow :=
  [cnt "MESH_CNT_HOLD" 0x800 0 1,
   cnt "MESH_CNT_UNROUTABLE" 0x808 0 1,
   cnt "MESH_CNT_DETOUR" 0x810 0 1,
   cnt "MESH_CNT_WAYPOINT" 0x818 0 1]

/-- Counters of MESH page 1. -/
def cntsMESH1 : List CntRow :=
  [cnt "MESH_BR_BYTES_INC" 0x800 32 26,
   cnt "MESH_BR_BYTES_DEC" 0x808 32 26,
   cnt "MESH_BR_STALL_INC" 0x810 32 26,
   cnt "MESH_BR_STALL_DEC" 0x818 32 26,
   cnt "MESH_BR_CREDIT_INC" 0xc00 16 26,
   cnt "MESH_BR_CREDIT_DEC" 0xc08 16 26]

/-- Counters of MESH page 2. -/
def cntsMESH2 : List CntRow :=
  [cnt "MESH_BR_BYTES_INC" 0x800 32 26,
   cnt "MESH_BR_BYTES_DEC" 0x808 32 26,
   cnt "MESH_BR_STALL_INC" 0x810 32 26,
   cnt "MESH_BR_STALL_DEC" 0x818 32 26,
   cnt "MESH_BR_CREDIT_INC" 0xc00 16 26,
   cnt "MESH_BR_CREDIT_DEC" 0xc08 16 26]

/-- Counters of MESH page 3. -/
def cntsMESH3 : List CntRow :=
  [cnt "MESH_BR_BYTES_INC" 0x800 32 24,
   cnt "MESH_BR_BYTES_DEC" 0x808 32 24,
   cnt "MESH_BR_STALL_INC" 0x810 32 24,
   cnt "MESH_BR_STALL_DEC" 0x818 32 24,
   cnt "MESH_BR_CREDIT_INC" 0xc00 16 24,
   cnt "MESH_BR_CREDIT_DEC" 0xc08 16 24]

/-- Counters of MESH page 4. -/
def cntsMESH4 : List CntRow :=
  [cnt "MESH_BR_BYTES_INC" 0x800 32 24,
   cnt "MESH_BR_BYTES_DEC" 0x808 32 24,
   cnt "MESH_BR_STALL_INC" 0x810 32 24,
   cnt "MESH_BR_STALL_DEC" 0x818 32 24,
   cnt "MESH_BR_CREDIT_INC" 0xc00 16 24,
   cnt "MESH_BR_CREDIT_DEC" 0xc08 16 24]

/-- Counters of MGT page 0. -/
def cntsMGT0 : List CntRow :=
  [cnt "MGT_CNT_RX_BYTES" 0x800 0 1,
   cnt "MGT_CNT_TX_BYTES" 0x808 0 1,
   cnt "MGT_CNT_PAUSE_US" 0x810 0 1,
   cnt "MGT_CNT_TXQ" 0x818 0 1,
   cnt "MGT_CNT_RX_DROP" 0x820 0 1,
   cnt "MGT_CNT_FEC_CORR" 0x828 0 1,
   cnt "MGT_CNT_FEC_UNCORR" 0x830 0 1,
   cnt "MGT_CNT_PTP_TS" 0x838 0 1]

/-- Counters of PRT pages 0 to 31. -/
def cntsPRT0to31 : List CntRow :=
  [cnt "COL_CNT_LAUNCHED" 0xa00 0 1,
   cnt "COL_CNT_OK" 0xa08 0 1,
   cnt "COL_CNT_RETRACTED" 0xa10 0 1,
   cnt "COL_CNT_FAILED" 0xa18 0 1,
   cnt "COL_CNT_REREQ" 0xa20 0 1,
   cnt "COL_CNT_RESEND" 0xa28 0 1,
   cnt "COL_CNT_OPEN_WAIT" 0xa30 0 1,
   cnt "COL_CNT_LATE_LAUNCH" 0xa38 0 1,
   cnt "COL_CNT_READY_NS" 0xa40 0 1,
   cnt "COL_CNT_SEND_NS" 0xa48 0 1,
   cnt "COL_CNT_SLOWEST_SELF" 0xa50 0 1,
   cnt "COL_CNT_LAG_NS" 0xa58 0 1,
   cnt "PRT_CNT_VL_CAP_WAIT" 0xa60 0 1,
   cnt "PRT_CNT_MOVE_FLUSH" 0xa68 0 1,
   cnt "PRT_CNT_ACCESS_REFUSED" 0xa70 0 1,
   cnt "PRT_CNT_REPLAYS" 0xa78 0 1,
   cnt "PRT_CNT_ABANDONED" 0xa80 0 1,
   cnt "PRT_CNT_REBUILD_POS" 0xa88 0 1,
   cnt "PRT_CNT_RECOVERED" 0xa90 0 1,
   cnt "PRT_CNT_RECOVER_DROPPED" 0xa98 0 1,
   cnt "PRT_CNT_MIRROR_BYTES" 0xaa0 0 1]

/-- Counters of PRX page 0. -/
def cntsPRX0 : List CntRow :=
  [cnt "PRX_CNT_LOOKUP" 0x800 0 1,
   cnt "PRX_CNT_HIT_BLOCKS" 0x808 0 1,
   cnt "PRX_CNT_COLLISION" 0x810 0 1,
   cnt "PRX_CNT_INSERT" 0x818 0 1,
   cnt "PRX_CNT_BUCKET_FULL" 0x820 0 1,
   cnt "PRX_CNT_NODE_FULL" 0x828 0 1,
   cnt "PRX_CNT_EVICT" 0x830 0 1,
   cnt "PRX_CNT_CHECK" 0x838 0 1]

/-- Counters of PWR page 0. -/
def cntsPWR0 : List CntRow :=
  [cnt "PWR_CNT_CURB_EDGES" 0x800 0 1,
   cnt "PWR_CNT_DIV_US" 0x808 0 1,
   cnt "PWR_CNT_VF_STEPS" 0x810 0 1,
   cnt "PWR_CNT_CAP_GUARD" 0x818 0 1,
   cnt "PWR_CNT_CAP_UNMET_US" 0x820 0 1,
   cnt "PWR_CNT_BOOST_US" 0x828 0 1,
   cnt "PWR_CNT_VIN_LOW" 0x830 0 1]

/-- Counters of PWR page 1. -/
def cntsPWR1 : List CntRow :=
  [cnt "PWR_CNT_THROTTLE" 0x800 0 1,
   cnt "PWR_CNT_THROTTLE_US" 0x808 0 1,
   cnt "PWR_CNT_SENSOR_BAD" 0x810 0 1,
   cnt "PWR_CNT_CAL" 0x818 0 1]

/-- Counters of REQ page 0. -/
def cntsREQ0 : List CntRow :=
  [cnt "REQ_CNT_DBL_REFUSED" 0x800 0 1,
   cnt "REQ_CNT_DBL_BAD" 0x808 0 1,
   cnt "REQ_CNT_RING_OVERRUN" 0x810 0 1,
   cnt "REQ_CNT_ADMIT_WAIT" 0x818 0 1,
   cnt "REQ_CNT_RC_FULL" 0x820 0 1,
   cnt "REQ_CNT_LEASE_DEFER" 0x828 0 1,
   cnt "REQ_CNT_COW" 0x830 0 1,
   cnt "REQ_CNT_COW_NOFRAME" 0x838 0 1,
   cnt "REQ_CNT_FRAME_DEFERRED" 0x840 0 1,
   cnt "REQ_CNT_SLOT_CHECK" 0x848 0 1,
   cnt "RING_ENG_IN" 0x900 32 4,
   cnt "RING_ENG_OUT" 0x908 32 4,
   cnt "RING_ENG_STALL" 0x910 32 4,
   cnt "RING_ENG_CREDIT" 0x918 32 4]

/-- Counters of REQ pages 1 to 32. -/
def cntsREQ1to32 : List CntRow :=
  [cnt "REQ_CNT_ADMITTED" 0x800 0 1,
   cnt "REQ_CNT_REFUSED" 0x808 0 1,
   cnt "REQ_CNT_ADMIT_OVER_1MS" 0x810 0 1,
   cnt "REQ_CNT_STEPS" 0x818 0 1,
   cnt "REQ_CNT_ROLLBACKS" 0x820 0 1,
   cnt "REQ_CNT_TOKENS" 0x828 0 1,
   cnt "REQ_CNT_DRAFT_REJECTED" 0x830 0 1,
   cnt "REQ_CNT_CANCELLED" 0x838 0 1,
   cnt "REQ_CNT_CANCEL_LATE" 0x840 0 1,
   cnt "REQ_CNT_CANCEL_STALE" 0x848 0 1,
   cnt "REQ_CNT_DEADLINE_MISSED" 0x850 0 1,
   cnt "REQ_CNT_PARKED" 0x858 0 1,
   cnt "REQ_CNT_BATCH_SKIP_BUDGET" 0x860 0 1,
   cnt "REQ_CNT_BATCH_SKIP_RING" 0x868 0 1,
   cnt "REQ_CNT_NOFRAME" 0x870 0 1,
   cnt "REQ_CNT_COMMIT_REFUSED" 0x878 0 1,
   cnt "REQ_CNT_PUBLISH_WAIT" 0x880 0 1,
   cnt "REQ_CNT_JRNL_FULL_WAIT" 0x888 0 1,
   cnt "REQ_CNT_PRX_REUSED" 0x890 0 1,
   cnt "REQ_CNT_ADP_PINS" 0x898 0 1,
   cnt "REQ_CNT_ADP_RETIRED" 0x8a0 0 1,
   cnt "REQ_CNT_LATE_START" 0x8a8 0 1]

/-- Counters of TED pages 0 to 3. -/
def cntsTED0to3 : List CntRow :=
  [cnt "TED_CNT_STORED_BYTES" 0x800 0 1,
   cnt "TED_CNT_EXPANDED_BYTES" 0x808 0 1,
   cnt "TED_CNT_PIECES" 0x810 0 1,
   cnt "TED_CNT_FILL_ERR" 0x818 0 1,
   cnt "TED_CNT_H3I_BAD" 0x820 0 1,
   cnt "TED_CNT_MX_ZERO" 0x828 0 1,
   cnt "TED_CNT_GDDR_STALL" 0x830 0 1]

/-- Counters of TILE pages 0 to 623. -/
def cntsTILE0to623 : List CntRow :=
  [cnt "TILE_CNT_MATRIX_BUSY" 0x800 0 1,
   cnt "TILE_CNT_WBUF_WAIT" 0x808 0 1,
   cnt "TILE_CNT_WBUF_BLOCKED" 0x810 0 1,
   cnt "TILE_CNT_SRAM_CE" 0x818 0 1,
   cnt "TILE_CNT_BYTES_port" 0x820 8 6,
   cnt "TILE_CNT_STALL_port" 0x850 8 6,
   cnt "TILE_CNT_CREDIT_port" 0x880 8 6,
   cnt "TILE_CNT_Q_NAN" 0x8b0 0 1,
   cnt "TILE_CNT_SIDE_DROP" 0x8b8 0 1,
   cnt "TILE_CNT_SCALE_RSVD" 0x8c0 0 1,
   cnt "TILE_CNT_H2T_BAD" 0x8c8 0 1,
   cnt "TILE_CNT_H8F_BAD_IN" 0x8d0 0 1,
   cnt "TILE_CNT_QS_TABLE_WAIT" 0x8d8 0 1,
   cnt "TILE_CNT_WIDE_SHORT" 0x8e0 0 1,
   cnt "TILE_CNT_QS_BLOCKS_s" 0x900 64 16,
   cnt "TILE_CNT_QS_FLUSHED_s" 0x908 64 16,
   cnt "TILE_CNT_QS_SATBLK_s" 0x910 64 16,
   cnt "TILE_CNT_QS_SATELEM_s" 0x918 64 16,
   cnt "TILE_CNT_QS_ZEROELEM_s" 0x920 64 16,
   cnt "TILE_CNT_OUTLIER_s" 0x928 64 16,
   cnt "TILE_CNT_OUTLIER_OVF_s" 0x930 64 16,
   cnt "TILE_CNT_WIDEN_s" 0x938 64 16,
   cnt "TILE_CNT_OP_RETIRED" 0xd00 0 1,
   cnt "TILE_CNT_OP_HAZARD_WAIT" 0xd08 0 1,
   cnt "TILE_CNT_OP_WAIT_SIG" 0xd10 0 1,
   cnt "TILE_CNT_OP_EMPTY" 0xd18 0 1,
   cnt "TILE_CNT_OP_ERR" 0xd20 0 1,
   cnt "TILE_CNT_OPQ_REFUSED" 0xd28 0 1,
   cnt "TILE_CNT_VEC_BUSY" 0xd30 0 1,
   cnt "TILE_CNT_VEC_NAN" 0xd38 0 1,
   cnt "TILE_CNT_IDX_SKIP" 0xd40 0 1,
   cnt "TILE_CNT_IDX_RANGE" 0xd48 0 1,
   cnt "TILE_CNT_SEL_NAN" 0xd50 0 1,
   cnt "TILE_CNT_SAMPLE_ROWS" 0xd58 0 1,
   cnt "TILE_CNT_ATTN_BUSY" 0xd60 0 1,
   cnt "TILE_CNT_ATTN_BLOCKS" 0xd68 0 1,
   cnt "TILE_CNT_ATTN_RESCALE" 0xd70 0 1,
   cnt "TILE_CNT_ATTN_NONFINITE" 0xd78 0 1,
   cnt "TILE_CNT_ATTN_EMPTY" 0xd80 0 1,
   cnt "TILE_CNT_WALK_HIT" 0xd88 0 1,
   cnt "TILE_CNT_WALK_MISS_HUB" 0xd90 0 1,
   cnt "TILE_CNT_WALK_MISS_GDDR" 0xd98 0 1,
   cnt "TILE_CNT_WALK_FULL_WAIT" 0xda0 0 1,
   cnt "TILE_CNT_WALK_CHECK" 0xda8 0 1,
   cnt "TILE_CNT_WALK_TIER" 0xdb0 0 1,
   cnt "TILE_CNT_WB_SECTORS" 0xdb8 0 1,
   cnt "TILE_CNT_WB_BYTES" 0xdc0 0 1,
   cnt "TILE_CNT_WB_LOAD_BYTES" 0xdc8 0 1,
   cnt "TILE_CNT_WB_HOLD" 0xdd0 0 1,
   cnt "TILE_CNT_WB_RAW" 0xdd8 0 1,
   cnt "TILE_CNT_WB_REFUSED" 0xde0 0 1,
   cnt "TILE_CNT_DROOP" 0xde8 0 1,
   cnt "TILE_CNT_STRETCH" 0xdf0 0 1,
   cnt "TILE_CNT_SAMPLE_BAD" 0xdf8 0 1,
   cnt "TILE_CNT_ATTN_DATA_WAIT" 0xe00 0 1]

/-- Counters of TIM page 0. -/
def cntsTIM0 : List CntRow :=
  [cnt "TIM_CNT_SYNC_RX" 0x800 0 1,
   cnt "TIM_CNT_BEACON_RX" 0x808 0 1,
   cnt "TIM_CNT_BEACON_REJECT" 0x810 0 1,
   cnt "TIM_CNT_HOLDOVER_US" 0x818 0 1]

/-- Counters of TIM page 1. -/
def cntsTIM1 : List CntRow :=
  [cnt "TIM_CNT_TICKS" 0x800 0 1,
   cnt "TIM_CNT_LATE_STAGE" 0x808 0 1]

/-- Counters of TIM page 2. -/
def cntsTIM2 : List CntRow :=
  [cnt "TIM_CNT_STEP_WAIT_n" 0x800 8 32]

/-- Counters of TIM page 3. -/
def cntsTIM3 : List CntRow :=
  [cnt "TIM_CNT_GLEAN_OPENED" 0x800 0 1,
   cnt "TIM_CNT_GLEAN_REFUSED" 0x808 0 1,
   cnt "TIM_CNT_GLEAN_SKIPPED" 0x810 0 1,
   cnt "TIM_CNT_GLEAN_ABANDONED" 0x818 0 1]

/-- Counters of XRT pages 0 to 3. -/
def cntsXRT0to3 : List CntRow :=
  [cnt "XRT_ENG_CNT_BUSY" 0x800 0 1,
   cnt "XRT_ENG_CNT_REQ" 0x808 0 1,
   cnt "XRT_ENG_CNT_CHOICES" 0x810 0 1]

/-- Counters of XRT pages 4 to 15. -/
def cntsXRT4to15 : List CntRow :=
  [cnt "XRT_CNT_PLACE_REQ" 0x800 0 1,
   cnt "XRT_CNT_CHOICES" 0x808 0 1,
   cnt "XRT_CNT_PLACED" 0x810 0 1,
   cnt "XRT_CNT_SWEPT" 0x818 0 1,
   cnt "XRT_CNT_DROP_CAP" 0x820 0 1,
   cnt "XRT_CNT_DROP_TAIL" 0x828 0 1,
   cnt "XRT_CNT_PASS" 0x830 0 1,
   cnt "XRT_CNT_PARK_CHOICES" 0x838 0 1,
   cnt "XRT_CNT_PARK_TOKENS" 0x840 0 1,
   cnt "XRT_CNT_WEIGHT_BAD" 0x848 0 1,
   cnt "XRT_CNT_PLACE_ERR" 0x850 0 1,
   cnt "XRT_CNT_READY_WAIT" 0x858 0 1,
   cnt "XRT_CNT_BIAS_UPDATES" 0x860 0 1,
   cnt "XRT_CNT_BIAS_CLAMP" 0x868 0 1,
   cnt "XRT_CNT_QUEUE_REFUSED" 0x870 0 1,
   cnt "XRT_CNT_SNAP_CUT" 0x878 0 1]

/-- The block registers of page `p` of a block (R8: 0x100 to 0x7FF). -/
def pageRows : Block → Nat → List RegRow
  | .bin, p => (if (0 ≤ p ∧ p ≤ 1) then rowsBIN0to1 else []) ++ (if p = 2 then rowsBIN2 else [])
  | .bms, p => (if p = 0 then rowsBMS0 else []) ++ (if (0 ≤ p ∧ p ≤ 3) then rowsBMS0to3 else [])
  | .cnt, p => (if p = 0 then rowsCNT0 else []) ++ (if p = 1 then rowsCNT1 else []) ++ (if p = 2 then rowsCNT2 else [])
  | .fab, p => (if p = 0 then rowsFAB0 else []) ++ (if (0 ≤ p ∧ p ≤ 7) then rowsFAB0to7 else [])
  | .flc, p => (if p = 0 then rowsFLC0 else []) ++ (if (0 ≤ p ∧ p ≤ 15) then rowsFLC0to15 else []) ++ (if (16 ≤ p ∧ p ≤ 19) then rowsFLC16to19 else [])
  | .gdc, p => (if (0 ≤ p ∧ p ≤ 16) then rowsGDC0to16 else []) ++ (if p = 16 then rowsGDC16 else []) ++ (if (17 ≤ p ∧ p ≤ 33) then rowsGDC17to33 else [])
  | .hay, p => (if p = 0 then rowsHAY0 else []) ++ (if p = 1 then rowsHAY1 else []) ++ (if p = 8 then rowsHAY8 else []) ++ (if p = 9 then rowsHAY9 else []) ++ (if p = 10 then rowsHAY10 else [])
  | .mesh, p => (if p = 0 then rowsMESH0 else [])
  | .mgt, p => (if p = 0 then rowsMGT0 else [])
  | .prt, p => (if (0 ≤ p ∧ p ≤ 31) then rowsPRT0to31 else [])
  | .prx, p => (if p = 0 then rowsPRX0 else []) ++ (if p = 1 then rowsPRX1 else [])
  | .pwr, p => (if p = 0 then rowsPWR0 else []) ++ (if p = 1 then rowsPWR1 else [])
  | .req, p => (if p = 0 then rowsREQ0 else []) ++ (if (1 ≤ p ∧ p ≤ 32) then rowsREQ1to32 else [])
  | .sec, p => (if p = 0 then rowsSEC0 else []) ++ (if p = 1 then rowsSEC1 else [])
  | .ted, p => (if (0 ≤ p ∧ p ≤ 3) then rowsTED0to3 else [])
  | .tile, p => (if (0 ≤ p ∧ p ≤ 623) then rowsTILE0to623 else [])
  | .tim, p => (if p = 0 then rowsTIM0 else []) ++ (if p = 1 then rowsTIM1 else []) ++ (if p = 2 then rowsTIM2 else []) ++ (if p = 3 then rowsTIM3 else [])
  | .xrt, p => (if (0 ≤ p ∧ p ≤ 3) then rowsXRT0to3 else []) ++ (if (4 ≤ p ∧ p ≤ 15) then rowsXRT4to15 else [])
  | _, _ => []

/-- The counters of page `p` of a block (R454: 0x800 to 0xFFF). -/
def pageCnts : Block → Nat → List CntRow
  | .bin, p => (if (0 ≤ p ∧ p ≤ 1) then cntsBIN0to1 else []) ++ (if p = 2 then cntsBIN2 else [])
  | .bms, p => (if (0 ≤ p ∧ p ≤ 3) then cntsBMS0to3 else [])
  | .cnt, p => (if p = 0 then cntsCNT0 else []) ++ (if p = 2 then cntsCNT2 else [])
  | .fab, p => (if (0 ≤ p ∧ p ≤ 7) then cntsFAB0to7 else [])
  | .flc, p => (if p = 0 then cntsFLC0 else []) ++ (if (0 ≤ p ∧ p ≤ 15) then cntsFLC0to15 else []) ++ (if (16 ≤ p ∧ p ≤ 19) then cntsFLC16to19 else [])
  | .gdc, p => (if (0 ≤ p ∧ p ≤ 16) then cntsGDC0to16 else []) ++ (if (17 ≤ p ∧ p ≤ 33) then cntsGDC17to33 else [])
  | .hay, p => (if p = 0 then cntsHAY0 else [])
  | .mesh, p => (if p = 0 then cntsMESH0 else []) ++ (if p = 1 then cntsMESH1 else []) ++ (if p = 2 then cntsMESH2 else []) ++ (if p = 3 then cntsMESH3 else []) ++ (if p = 4 then cntsMESH4 else [])
  | .mgt, p => (if p = 0 then cntsMGT0 else [])
  | .prt, p => (if (0 ≤ p ∧ p ≤ 31) then cntsPRT0to31 else [])
  | .prx, p => (if p = 0 then cntsPRX0 else [])
  | .pwr, p => (if p = 0 then cntsPWR0 else []) ++ (if p = 1 then cntsPWR1 else [])
  | .req, p => (if p = 0 then cntsREQ0 else []) ++ (if (1 ≤ p ∧ p ≤ 32) then cntsREQ1to32 else [])
  | .ted, p => (if (0 ≤ p ∧ p ≤ 3) then cntsTED0to3 else [])
  | .tile, p => (if (0 ≤ p ∧ p ≤ 623) then cntsTILE0to623 else [])
  | .tim, p => (if p = 0 then cntsTIM0 else []) ++ (if p = 1 then cntsTIM1 else []) ++ (if p = 2 then cntsTIM2 else []) ++ (if p = 3 then cntsTIM3 else [])
  | .xrt, p => (if (0 ≤ p ∧ p ≤ 3) then cntsXRT0to3 else []) ++ (if (4 ≤ p ∧ p ≤ 15) then cntsXRT4to15 else [])
  | _, _ => []

/-- The block interrupt bits above bit 31 of IRQ_STATUS and IRQ_ENABLE, as each chapter's page names them
(R47, R235, R266, R267, R289, R290, R319, R321, R350, R351, R423, R424, R466); of a REQ page the spec names bit 32, and bits 33
(step built) and 34 (mirror lost) are the model's (DESIGN CHOICE, see the log). -/
def irqBits : Block → Nat → List Nat
  | .tile, _ => [32, 33]
  | .xrt, p => if 4 ≤ p then [32, 33] else []
  | .gdc, p => if p ≤ 16 then [32, 33, 34] else [32]
  | .flc, p => if p = 0 then [32, 33, 34, 35] else if p ≤ 15 then [32, 33] else []
  | .ted, _ => [32]
  | .req, p => if 1 ≤ p ∧ p ≤ 32 then [32, 33, 34] else []
  | .fab, p => if p = 0 then [32, 33, 34, 35] else [32, 33, 34]
  | .bms, _ => [32, 33, 34]
  | .pwr, p => if p = 0 then [32, 33, 34, 35] else if p = 1 then [32, 33, 34] else []
  | .cnt, p => if p = 0 then [32] else []
  | _, _ => []

/-- A page that belongs to one partition by the block's own rule (R7: PRT page n for Pn; R211: REQ page 1 + n). -/
def fixedOwner : Block → Nat → Option Nat
  | .prt, p => some p
  | .req, p => if 1 ≤ p ∧ p ≤ 32 then some (p - 1) else none
  | _, _ => none

/-- The pages every partition may read (R77, R211, R213, R235, R266, R289, R317, R319, R350, R402, R482). -/
def resetReadAll : Block → Nat → Bool
  | .tim, _ => true
  | .req, p => p = 0
  | .prx, p => p = 1
  | .xrt, p => p < 4
  | .gdc, _ | .flc, _ | .bin, _ | .ted, _ | .fab, _ | .bms, _ | .mgt, _ => true
  | .sec, p => p = 0
  | _, _ => false

/-- PAGE_OWNER at reset (R15, with the chapters' own page owners). -/
def resetOwner (b : Block) (p : Nat) : Nat :=
  (if resetReadAll b p then 0x100 else 0) +
    (match fixedOwner b p with
     | some n => n
     | none => 0x80)

/-- Column and row of a TILE page within its quarter, and its package coordinates (R21, R23). -/
def tileX (page : Nat) : Nat := 12 * ((page / 156) % 2) + page % 12
def tileY (page : Nat) : Nat := 13 * ((page / 156) / 2) + page % 156 / 12

/-- The TILE page of the tile at package coordinates (x, y) (R21, R23). -/
def tileAt (x y : Nat) : Nat := (x / 12 + 2 * (y / 13)) * 156 + (y % 13) * 12 + x % 12

/-- The attachment table of R39 folded onto Q0: which block joins the mesh at a router. -/
def attachKind (page : Nat) : Nat :=
  let x := if tileX page < 12 then tileX page else 23 - tileX page
  let y := if tileY page < 13 then tileY page else 25 - tileY page
  if y = 0 ∧ (x = 1 ∨ x = 4 ∨ x = 7 ∨ x = 10 ∨ x = 5) then 1
  else if x = 0 ∧ (y = 2 ∨ y = 5 ∨ y = 8 ∨ y = 11) then 2
  else if (x = 2 ∧ y = 0) ∨ (x = 0 ∧ y = 3) then 3
  else if x = 0 ∧ y = 0 then 4
  else if x = 11 ∧ y = 0 then 5
  else if (x = 5 ∧ y = 12) ∨ (x = 11 ∧ y = 6) then 6
  else 0

/-- The common registers of every page but the DBL pages (R8, R13 to R19). -/
def commonRows (b : Block) (p : Nat) : List RegRow :=
  [row "PAGE_ID" 0x000 0 1 [
    fld "block_code" 63 48 .ro b.code, fld "instance_no" 47 32 .ro p, fld "layout_version" 31 24 .ro 1],
   row "PAGE_CAPS" 0x008 0 1 [
    fld "attach_kind" 35 32 .ro (if b = .tile then attachKind p else 0),
    fld "counter_count" 31 16 .ro ((pageCnts b p).foldl (fun n c => n + c.count) 0),
    fld "has_staged" 0 0 .ro
      (if (pageRows b p).any (fun r => r.fields.any (fun f => f.acc = .rwt ∨ f.acc = .hwt)) then 1 else 0)],
   row "PAGE_CTRL" 0x010 0 1
    ((if b = .tile then [fld "selftest_start" 32 32 .rw 0] else []) ++
     [fld "quiesce" 1 1 .rw 0, fld "enable" 0 0 .rw 1]),
   row "PAGE_STATUS" 0x018 0 1
    ((if b = .tile then [fld "router_out" 36 36 .ro 0, fld "state" 35 32 .ro 0] else []) ++
     [fld "fault" 3 3 .ro 0, fld "staged_pending" 2 2 .ro 0, fld "quiesced" 1 1 .ro 0, fld "enabled" 0 0 .ro 1]),
   row "PAGE_OWNER" 0x020 0 1 [
    fld "read_all" 8 8 .hw (if resetReadAll b p then 1 else 0),
    fld "hay_owned" 7 7 .hw (if (fixedOwner b p).isSome then 0 else 1),
    fld "partition" 4 0 .hw ((fixedOwner b p).getD 0)],
   row "PAGE_LOCK" 0x028 0 1 [fld "lock" 0 0 .rw 0],
   row "ERR_ADDR" 0x030 0 1 [fld "addr" 63 0 .ro 0],
   row "ERR_INFO" 0x038 0 1 [
    fld "valid" 63 63 .w1c 0, fld "overflow" 62 62 .w1c 0, fld "source" 55 40 .ro 0, fld "from_hayward" 39 39 .ro 0,
    fld "partition" 36 32 .ro 0, fld "access" 15 8 .ro 0, fld "reason" 7 0 .ro 0],
   row "IRQ_STATUS" 0x040 0 1 (([0, 1, 2] ++ irqBits b p).map (fun i => fld "irq" i i .w1c 0)),
   row "IRQ_ENABLE" 0x048 0 1 (([0, 1, 2] ++ irqBits b p).map (fun i => fld "irq" i i .rw 0)),
   row "SCHED_TICK" 0x050 0 1 [fld "tick" 47 0 .rw 0]]

/-- The row of a list that holds an offset, with the register's number in its row. -/
def rowAt (rows : List RegRow) (off : Nat) : Option (RegRow × Nat) :=
  rows.findSome? (fun r =>
    if r.off ≤ off then
      if r.stride = 0 then (if off = r.off then some (r, 0) else none)
      else if (off - r.off) % r.stride = 0 ∧ (off - r.off) / r.stride < r.count then
        some (r, (off - r.off) / r.stride)
      else none
    else none)

/-- The counter of a list at an offset. -/
def cntAt (rows : List CntRow) (off : Nat) : Bool :=
  rows.any (fun r => decide (r.off ≤ off ∧ (if r.stride = 0 then off = r.off
    else (off - r.off) % r.stride = 0 ∧ (off - r.off) / r.stride < r.count)))

/-- What the spec places at an offset of a page. -/
inductive Slot where
  | reg (r : RegRow) (i : Nat)
  | counter
  | reserved
deriving DecidableEq, Repr

/-- The register or counter at an offset of a page (R8, R11). -/
def slotAt (b : Block) (p off : Nat) : Slot :=
  if off < 0x100 then
    match rowAt (commonRows b p) off with
    | some (r, i) => .reg r i
    | none => .reserved
  else if off < 0x800 then
    match rowAt (pageRows b p) off with
    | some (r, i) => .reg r i
    | none => if cntAt (pageCnts b p) off then .counter else .reserved
  else if cntAt (pageCnts b p) off then .counter
  else match rowAt (pageRows b p) off with
    | some (r, i) => .reg r i
    | none => .reserved

/-- The bits of a field, as a mask. -/
def fieldMask (f : RegField) : Nat := (2 ^ (f.hi + 1 - f.lo) - 1) <<< f.lo

/-- The reset value of a row: its fields' reset values in their places; reserved fields are 0 (R11). -/
def rowReset (r : RegRow) : Nat := r.fields.foldl (fun n f => n + (f.reset <<< f.lo)) 0

/-- The boot core roles of R41: cores 0 and 6 are the hayward's, 5, 11, 17 and 23 fallow, the rest run-time. -/
def resetCoreRole (n : Nat) : Nat := if n = 0 ∨ n = 6 then 1 else if n % 6 = 5 then 2 else 0

/-- Reset values that differ from register to register of one row: a tile's coordinates (R49), a site's position
(R266; its role is the record's, 0 before boot), a control core's role (R41, R401). -/
def resetSpecial (b : Block) (p off : Nat) : Nat :=
  match b with
  | .tile => if off = 0x100 then (tileY p <<< 8) + tileX p else 0
  | .gdc => if off = 0x100 ∧ p < 16 then p <<< 12 else 0
  | .hay => if p = 1 ∧ 0x100 ≤ off ∧ off < 0x1C0 then (resetCoreRole ((off - 0x100) / 8)) <<< 8 else 0
  | _ => 0

/-- The value every register of the window has at reset, by address; counters and everything else read 0. -/
def regDefault (a : Nat) : Word :=
  match pageOf a with
  | none => 0
  | some (.dbl, _) => 0
  | some (b, p) =>
    match slotAt b p ((a - b.base) % 0x1000) with
    | .reg r _ => BitVec.ofNat 64 (rowReset r + resetSpecial b p ((a - b.base) % 0x1000))
    | _ => 0

end Sys2Proof.Machine
end

