-- ==== Sys2Proof/Machine/Store.lean ====
section
/-! DEFINITION. The one form every memory and table of the model has: a list of (key, value) pairs with strictly rising
keys and no entry equal to what an unlisted key reads as, so that equal contents are equal lists. Where the spec is open:
DESIGN CHOICE 5 of the assumption log. -/

namespace Sys2Proof.Machine

/-- What a sparse store reads at key `k`: the listed value, or the default of an unlisted key. -/
def storeGet {α : Type} (d : Nat → α) : List (Nat × α) → Nat → α
  | [], k => d k
  | (a, v) :: m, k => if k < a then d k else if k = a then v else storeGet d m k

/-- Write `v` at key `k`; writing what an unlisted key reads as removes the entry. -/
def storePut {α : Type} [DecidableEq α] (d : Nat → α) : List (Nat × α) → Nat → α → List (Nat × α)
  | [], k, v => if v = d k then [] else [(k, v)]
  | (a, w) :: m, k, v =>
    if k < a then (if v = d k then (a, w) :: m else (k, v) :: (a, w) :: m)
    else if k = a then
      (if v = d k then m.dropWhile (fun e => decide (e.1 ≤ k)) else (k, v) :: m)
    else (a, w) :: storePut d m k v

/-- Return every key from `lo` up to but not including `hi` to its default. -/
def storeClear {α : Type} (m : List (Nat × α)) (lo hi : Nat) : List (Nat × α) :=
  m.filter (fun e => decide (e.1 < lo ∨ hi ≤ e.1))

/-- The canonical form, as a test: keys strictly above `lo`, strictly rising, no default-valued entry. -/
def storeWfFrom {α : Type} [DecidableEq α] (d : Nat → α) : Option Nat → List (Nat × α) → Bool
  | _, [] => true
  | lo, (a, v) :: m =>
    (match lo with
     | none => true
     | some b => decide (b < a)) && !decide (v = d a) && storeWfFrom d (some a) m

/-- The canonical form of a sparse store. -/
def storeWf {α : Type} [DecidableEq α] (d : Nat → α) (m : List (Nat × α)) : Bool := storeWfFrom d none m

end Sys2Proof.Machine
end

