-- ==== Sys2Proof/Machine/State.lean ====
section
/-! DEFINITION. The state of the package, as plain data. Where the spec is open: DESIGN CHOICE 6 of the assumption log. -/

namespace Sys2Proof.Machine

/-- Reasons a step can stop with a fault. There are none: where the spec's package meets an error, the error is an answer,
a status or a register's value, and the package goes on. -/
inductive Fault where
deriving DecidableEq, Repr

/-- Reasons a command is refused by the model. -/
inductive Refusal where
  /-- The command has no meaning yet; raised by an arm of `exec` alone. Safe: nothing is claimed of it. -/
  | notModelled (mnemonic : String)
deriving DecidableEq, Repr

/-- The answer to the last register access: the reason code of R17 (0 where the access was performed) and the data. -/
structure Resp where
  reason : Nat := 0
  data : Word := 0
deriving DecidableEq, Repr, Inhabited

/-- What the boot configuration record settles (R387, R388). -/
structure BootRecord where
  /-- The pages of instances the record disables, by page address (R7, R14). -/
  disabled : List Nat := []
  /-- Blocks of a plane and pages of a block of the flash devices (R268, R269). -/
  flashBlocks : Nat := 0
  flashPages : Nat := 0
  /-- The part serial, and the rows of the fallow tiles by quarter and column (R24, R388). -/
  serial : Nat := 0
  fallow : List Nat := []
deriving DecidableEq, Repr, Inhabited

/-- A request that waits in a GDDR7 controller's hold queue while its site's glean window is open (R257). -/
structure HeldReq where
  write : Bool
  src : Nat
  part : Nat
  addr : Nat
  data : List (BitVec 8)
deriving DecidableEq, Repr

/-- What a GDDR7 controller holds beside its registers (R245, R257, R260). -/
structure SiteX where
  hold : List HeldReq := []
  /-- Rebuilds of each channel since the last tick edge (R245). -/
  rebuilds : List (Nat × Nat) := []
  /-- Units of a position written while it was in a window, to be copied back from site 16 (R260). -/
  marks : List Nat := []
deriving DecidableEq, Repr, Inhabited

/-- Live migration and the spread cover (R259 to R263). -/
structure MigX where
  /-- The source site of the migration that runs. -/
  src : Option Nat := none
  /-- The position change waits for the next tick edge (R263). -/
  cutover : Bool := false
  /-- When the copy began (R262). -/
  since : Nat := 0
  /-- Spread units written while site 16 was in a window: position and unit (R260). -/
  coverMarks : List (Nat × Nat) := []
deriving DecidableEq, Repr, Inhabited

/-- A data flit (R323); one waiting to leave a port also has the number of its packet in the port's queue, the partition that
sends it, and, of a flit in transit, the link it came by (R336). -/
structure TxFlit where
  vl : Nat
  cmd : Bool
  sop : Bool
  eop : Bool
  payload : List (BitVec 8)
  pkt : Nat := 0
  part : Option Nat := none
  src : Option Nat := none
deriving DecidableEq, Repr

/-- A flit that the peer has not acknowledged: its number and when it was last sent (R324). -/
structure SentFlit where
  seq : Nat
  flit : TxFlit
  sentAt : Nat
deriving DecidableEq, Repr

/-- A packet held back by a quench (R343). -/
structure HeldPkt where
  part : Nat
  vl : Nat
  bytes : List (BitVec 8)
deriving DecidableEq, Repr

/-- A port's link layer (R323 to R328). Lists over lanes have nine places: the VL0 command class, the VL0 ring class, VL1
to VL7. -/
structure PortX where
  /-- New flits in the order they were queued. -/
  txq : List TxFlit := []
  /-- Flits sent and not acknowledged, oldest first, with their numbers. -/
  replay : List SentFlit := []
  /-- The next data flit's number. -/
  txSeq : Nat := 0
  /-- Flit credits held for the peer's buffers. -/
  credit : List Nat := []
  /-- Flit credits the peer's allocation gave as training passed, and those used and not returned, oldest first: lane place and
  partition (R377). -/
  alloc : List Nat := []
  inUse : List (Nat × Nat) := []
  /-- Flit credits to be returned to the peer. -/
  owed : List Nat := []
  /-- The receive buffer: flits accepted whose packet has not left it, oldest first (R327). -/
  rxq : List TxFlit := []
  /-- The number expected of the next data flit. -/
  rxNext : Nat := 0
  /-- A nak is out and the named flit has not come. -/
  naked : Bool := false
  /-- Replays in succession without the acknowledgement advancing. -/
  retries : Nat := 0
  /-- Fabric times of the entries to RETRAIN. -/
  retrains : List Nat := []
  /-- Deficit round robin: the lane being served and the flits left of its quantum. -/
  drrLane : Nat := 1
  drrLeft : Nat := 0
  /-- The link that the transit packet arriving here goes on by, and the packet's number there (R336). -/
  transit : Option (Nat × Nat) := none
  /-- The number of the next packet to be queued, and the packets begun and not ended: lane place, link of origin, number
  (R328). -/
  nextPkt : Nat := 0
  mid : List (Nat × Option Nat × Nat) := []
  /-- The expected number that the last flit sent told the peer (R324). -/
  told : Nat := 0
  /-- Of every 100 flit slots: those passed, those that carried a ring flit, those that carried a VL5 flit (R328). -/
  slot : Nat := 0
  ringUsed : Nat := 0
  transitUsed : Nat := 0
  /-- Flit slots used that the clock has not counted yet. -/
  ahead : Nat := 0
  /-- When the port entered TRAINING (R325). -/
  since : Nat := 0
  held : List HeldPkt := []
  /-- The lane being swapped for the spare, agreed with the peer and not yet taken (R346). -/
  swap : Option Nat := none
  /-- In the open window the lane could not take its traffic back: its recorded skew did not verify (R348). -/
  kept : Bool := false
deriving DecidableEq, Repr, Inhabited

/-- An entry that lies in a partition's journal (R193, R195). -/
structure JEntry where
  seq : Nat
  kind : Nat
  /-- The requests it concerns: slot and the sequence number of its admission. -/
  slots : List (Nat × Nat)
  /-- Bytes written to the journal before it, and its size. -/
  pos : Nat
  size : Nat
deriving DecidableEq, Repr

/-- A batch entry (R197) with the slots of the ling index nodes its hit staged (R207). -/
structure BatchE where
  slot : Nat
  kind : Nat
  d : Nat
  first : Nat
  count : Nat
  reused : Nat
  /-- The request entered the step's build ADMITTED. -/
  fresh : Bool
deriving DecidableEq, Repr

/-- A copy-on-write copy in hand (R175): the writer's slot, the place of its descriptor, the new frame, whether another holder
kept the writer's frame when the batch was built. -/
structure CowJob where
  slot : Nat
  space : Nat
  addr : Nat
  frame : Nat
  others : Bool
deriving DecidableEq, Repr

/-- A queued publication (R200): the last sequence number it waits for, its step, the token rings' new tails with the slot
and its last token index, the requests that ended. -/
structure Publication where
  upto : Nat
  step : Nat
  tokens : List (Nat × Nat × Nat × Nat)
  ended : List Nat
deriving DecidableEq, Repr

/-- What the engines hold for a partition beside its registers. -/
structure PartX where
  /-- When a quench with a duration ends (R342, R343). -/
  quenchEnd : Option Nat := none
  /-- The free pool: frames of the partition's GDDR7 space, ascending (R175, R176). -/
  pool : List Nat := []
  /-- Free 4 KiB list blocks, by address (R167). -/
  listFree : List Nat := []
  /-- Read leases: the slot that holds one (2^14 for the copy engine), the reference-count entry, the frame (R174). -/
  leases : List (Nat × Nat × Nat) := []
  batch : List BatchE := []
  /-- References to be taken at the commit: slot, reference-count entry (R174, R177). -/
  stagedRefs : List (Nat × Nat) := []
  cows : List CowJob := []
  /-- Bytes written to the journal, its entries still in it, the latest snapshot's number (R195). -/
  jpos : Nat := 0
  journal : List JEntry := []
  snap : Nat := 0
  /-- The requests in the table: slot and the sequence number of the admission (R195). -/
  admits : List (Nat × Nat) := []
  /-- Admissions that wait for their confirmation: sequence number, slot, ring (R190). -/
  acks : List (Nat × Nat × Nat) := []
  pubs : List Publication := []
  /-- FINAL records not yet consumed: slot, ring, index (R189). -/
  finals : List (Nat × Nat × Nat) := []
  /-- Ended requests whose lists are held (R189). -/
  heldLists : List Nat := []
  /-- The step in hand was rolled back and restarts with its number (R69, R201). -/
  rerun : Bool := false
  /-- The tick in effect when the build, its copies or the rollback ended (R69, R175, R196). -/
  builtTick : Nat := 0
  /-- The commit table in hand, its move list (space and address of the descriptor, frame, compressed) and the fabric
  time at which the commit began (R198, R199, R254). -/
  table : List (BitVec 8) := []
  moves : List (Nat × Nat × Nat × Bool) := []
  commitAt : Nat := 0
  /-- Since when the partition is under quench (R343, R367). -/
  quenchAt : Nat := 0
  /-- The commit in hand is a stop commit (R384). -/
  stopping : Bool := false
  /-- Slots that a failed check ended since the last commit, whose RELEASE entry and FINAL record the next one writes (R189,
  R199). -/
  broken : List Nat := []
  /-- Producer doorbells of submission rings that the consumer index has not passed: ring, index, fabric time (R192). -/
  bells : List (Nat × Nat × Nat) := []
  /-- Journal entries not yet confirmed: sequence number and the fabric time they were written (R194). -/
  sentSeqs : List (Nat × Nat) := []
deriving DecidableEq, Repr, Inhabited

/-- Fabric time and its discipline beside the TIM registers (R53 to R63). Offsets are in 1/16 ns. -/
structure TimeX where
  /-- The fraction of TIM_NOW, in units of 2^-32 ns; the fraction register shows its top 16 bits (R53, R78). -/
  frac : Nat := 0
  /-- The selected master's clock identity and rank (R55). -/
  master : Option (Nat × List Nat) := none
  /-- The last Sync: sequence number, origin time once known, time of arrival (R55). -/
  syncSeq : Nat := 0
  syncT1 : Option Int := none
  syncT2 : Int := 0
  /-- A two-step Sync waits for its Follow_Up; the correction that Sync carried, in 1/16 ns. -/
  twoStep : Bool := false
  syncCorr : Int := 0
  pathDelay : Int := 0
  reqSeq : Nat := 0
  reqT3 : Option Int := none
  /-- The last offset estimates, newest first, at most 16 (R57). -/
  ests : List Int := []
  /-- The last PTP estimate, which beacons are tested against (R56). -/
  ptpOff : Int := 0
  /-- Fabric time has been stepped to the estimate (R57). -/
  stepped : Bool := false
  /-- Offsets of the beacons in use, by port (R56). -/
  beacons : List (Nat × Int) := []
  /-- The next tick and the fabric time of its boundary, while ticks run (R63). -/
  nextTick : Nat := 0
  nextTime : Nat := 0
  /-- Resources a chain of glean windows keeps out of service: kind and number (R72). -/
  chained : List (Nat × Nat) := []
deriving DecidableEq, Repr, Inhabited

/-- A descriptor issued and not retired (R125). -/
structure Flight where
  /-- The count of descriptors written before it (R152). -/
  seq : Nat
  /-- The unit it holds: 0 none, 1 matrix engine, 2 vector unit, 3 quantiser, 4 attention pipeline, 5 selection and copy; and
  the second one, the quantiser of a product with an H4 output. -/
  unit : Nat
  second : Nat := 0
  reads : List (Nat × Nat)
  writes : List (Nat × Nat)
  bytes : List (BitVec 8)
  /-- The partition it acts for; 32 for none. -/
  part : Nat
  /-- The stream whose outlier table it reads (R111). -/
  table : Option Nat
deriving DecidableEq, Repr

/-- The last chunk a stream quantised (R106 to R108, R128). -/
structure QChunk where
  fmt : Nat
  base : Nat
  len : Nat
  /-- The capacity of its outlier table. -/
  cap : Nat
  tableBase : Nat
  /-- The entries' values are E5M2. -/
  e5 : Bool
  wideBase : Nat
  /-- The wide scale, an FP32 code. -/
  wideT : Nat
  widened : Bool
deriving DecidableEq, Repr

/-- A quantiser stream (R93 to R105): the configuration words sampled at the step start, its step maximum as an FP32 code,
the bytes written to its side stream, its last chunk. -/
structure QStream where
  cfg : BitVec 64 := 0x880
  outlier : BitVec 64 := 0
  side : BitVec 64 := 0
  wide : BitVec 64 := 0
  maxCode : Option Nat := none
  sidePtr : Nat := 0
  chunk : Option QChunk := none
deriving DecidableEq, Repr, Inhabited

/-- A tile beside its registers and its SRAM. -/
structure TileX where
  flights : List Flight := []
  /-- Numbers of the descriptors that retired ahead of an unretired earlier one. -/
  retired : List Nat := []
  /-- Retired descriptors whose signal waits for the acknowledgement of their mesh writes: partition, target, value
  (R126). -/
  signals : List (Nat × Nat × Nat) := []
  /-- The number of the first descriptor that has taken no barrier release yet (R125). -/
  released : Nat := 0
  /-- The quantiser and the pipeline hold configurations sampled for the current step (R93, R161). -/
  sampled : Bool := false
  streams : List (Nat × QStream) := []
  fastExp : Bool := false
  walkDepth : Nat := 8
  /-- The look-aside buffer, most recently used first: list, entry (links from 2^32), the 16 bytes (R170). -/
  aside : List (Nat × Nat × List (BitVec 8)) := []
  /-- The entries of it that the pipeline has not used for every row yet (R170). -/
  pins : List (Nat × Nat) := []
  /-- An operation marked wbuf_last has retired on buffer A, B (R44). -/
  lastUsed : List Nat := []
  /-- TILE_OP_FLUSH waits for the issued descriptors to retire (R44, R127). -/
  flushing : Bool := false
  /-- The map entry that named the tile has been cleared (R48). -/
  leaving : Bool := false
  /-- Write-back commands waiting: command, frame, signal target (R252). -/
  wbq : List (Nat × Nat × Nat) := []
  /-- The tile moved to another partition and is being zeroed (R381). -/
  zeroing : Bool := false
  /-- Words corrected since the last tick edge (R49). -/
  ces : Nat := 0
deriving DecidableEq, Repr, Inhabited

/-- An entry with a remote destination that awaits its PUT_DONE (R334): its hub, tag and partition, the path its packets take
(0 to 7 a plane, 16 + n board position n), the lane, the destination, the local signal if it has one, its packets. -/
structure PutOut where
  hub : Nat
  tag : Nat
  part : Nat
  via : Nat
  vl : Nat
  dst : Nat
  sig : Option Nat
  value : Nat
  pkts : List (List (BitVec 8))
  tries : Nat
  sentAt : Nat
deriving DecidableEq, Repr

/-- A tag the receiver tracks (R334): sender, partition, the packet indices that arrived, a translation was refused. -/
structure PutIn where
  src : Nat
  part : Nat
  tag : Nat
  got : List Nat
  refused : Bool
deriving DecidableEq, Repr

/-- A local copy of a hub's copy engine whose signal is not yet written (R185). -/
structure LocalCopy where
  hub : Nat
  part : Nat
  sig : Nat
  value : Nat
deriving DecidableEq, Repr

/-- The message of a message ring that was sent last and not yet taken (R332): when, and when RING_BUSY answered it. -/
structure MsgOut where
  ring : Nat
  sentAt : Nat
  busyAt : Option Nat
deriving DecidableEq, Repr

/-- A board access without its BRSP (R340): core, partition, target fabric number, the page of the link it left by, its
address, whether it stores. -/
structure BoardReq where
  core : Nat
  part : Nat
  dst : Nat
  page : Nat
  addr : Nat
  write : Bool
deriving DecidableEq, Repr

/-- What the copy engines, the ring engines and the board accesses hold. -/
structure FabX where
  puts : List PutOut := []
  takes : List PutIn := []
  copies : List LocalCopy := []
  msgs : List MsgOut := []
  board : List BoardReq := []
deriving DecidableEq, Repr, Inhabited

/-- A flash command that was started and is not finished (R274, R275): its partition and queue index, its operation, the
compression of its object and whether that is read-only, its units in turn with the GDDR7 address of the one in hand, that
unit's codewords (R271) with those not yet transferred and how many are decoded, the status it ended with; every unit it
names, how many programmed units still wait for their map update, and the status it ends with once none does (R277). -/
structure FlCmd where
  part : Nat
  idx : Nat
  op : Nat
  comp : Nat
  ro : Bool
  units : List Nat
  gaddr : Nat
  pcas : List Nat
  todo : List Nat
  got : Nat
  status : Option Nat
  all : List Nat := []
  owed : Nat := 0
  ending : Option Nat := none
deriving DecidableEq, Repr

/-- A codeword in a channel's receive buffer or on its way through a decoder (R278, R279): its address, the command it is read
for; it failed hard decoding. -/
structure FlCw where
  pca : Nat
  part : Nat
  idx : Nat
  failed : Bool
deriving DecidableEq, Repr

/-- A change of the map whose record waits for the map log (R277, R282, R288): the unit, the addresses of its codewords (none: it is
unmapped), the command it was written for, the address a relocation copied; whether the change waits for the record. -/
structure FlRec where
  unit : Nat
  pcas : List Nat
  cmd : Option (Nat × Nat)
  old : Option Nat
  late : Bool
deriving DecidableEq, Repr

/-- A codeword in a channel's write buffer (R277): its address, its unit and place in it, the addresses of all of that unit's
codewords, the number of the unit's write, the command it is written for, or the address a relocation copies (R282). A
codeword of the map log (R288) holds records, and its unit is its number in the log. -/
structure FlBuf where
  pca : Nat
  unit : Nat
  ix : Nat
  pcas : List Nat
  tag : Nat
  data : List (BitVec 8)
  cmd : Option (Nat × Nat)
  old : Option Nat
  recs : List FlRec := []
deriving DecidableEq, Repr

/-- What the flash engine holds of a channel: the page the retention scan reads next, the LUN whose read references are tracked
next, the corrected bits and the codewords decoded since the last tick edge, how often the scan period is halved (R280, R281),
the page whose program had started when its window opened, and the block wear levelling fills with the codewords it holds. -/
structure FlChan where
  scan : Nat := 0
  lun : Nat := 0
  bits : Nat := 0
  words : Nat := 0
  halved : Nat := 0
  inHand : Option Nat := none
  wear : Option (Nat × Nat) := none
deriving DecidableEq, Repr, Inhabited

/-- What the flash engine holds beside its registers, the map and the pages. -/
structure FlashX where
  cmds : List FlCmd := []
  /-- Finished commands ahead of an unfinished one: partition and index. -/
  finished : List (Nat × Nat) := []
  rx : List FlCw := []
  softq : List FlCw := []
  /-- Decoders in soft mode: decoder, codeword, levels run. -/
  soft : List (Nat × FlCw × Nat) := []
  /-- The channel a decoder served last. -/
  last : Nat := 15
  buf : List FlBuf := []
  nextTag : Nat := 0
  /-- Blocks to be refreshed (R281). -/
  refresh : List Nat := []
  /-- Bytes of the map log, its records not yet programmed, the number of its next codeword, and where its codewords and the last
  checkpoint's stand (R288). -/
  logBytes : Nat := 0
  logq : List FlRec := []
  logNo : Nat := 0
  logCws : List Nat := []
  ckpt : List Nat := []
  /-- Where the bad-block table stands in flash (R284). -/
  badCws : List Nat := []
  /-- Blocks a unit has left, to be erased once nothing valid is in them (R282). -/
  sources : List Nat := []
  /-- The programmed pages: eight times one more than the time of programming, and the codewords of the page. -/
  prog : List (Nat × Nat) := []
  chans : List (Nat × FlChan) := []
  /-- The logical capacity in blocks, 0 before the first boot, and the blocks left of the refresh reserve (R272, R287). -/
  cap : Nat := 0
  reserve : Nat := 0
deriving DecidableEq, Repr, Inhabited

/-- A piece of a fill entry that a tedder works on (R309, R310): its entry and number, its tedder and TILE page, the status
it already has. -/
structure FillPc where
  part : Nat
  idx : Nat
  j : Nat
  q : Nat
  page : Nat
  early : Nat
deriving DecidableEq, Repr

/-- A fill entry of which a piece was started: the pieces started and how many ended, its status so far. -/
structure FillE where
  part : Nat
  idx : Nat
  started : List Nat
  ended : Nat
  status : Nat
deriving DecidableEq, Repr

/-- What the tedders hold. -/
structure TedX where
  busy : List FillPc := []
  entries : List FillE := []
  finished : List (Nat × Nat) := []
deriving DecidableEq, Repr, Inhabited

/-- An open collective (R356 to R367): its queue entry, the fabric times of launch, ready word and last input, the time its
timeout clock stood, the result chunks arriving (chunk, packets, CRC field), those accepted, the re-requests by chunk, the
DONEs in the order they came, whether a chunk failed for good. -/
structure ColE where
  part : Nat
  idx : Nat
  entry : List (BitVec 8)
  launched : Nat
  ready : Option Nat := none
  sent : Option Nat := none
  paused : Nat := 0
  parts : List (Nat × List Nat × Nat) := []
  ok : List Nat := []
  rereqs : List (Nat × Nat) := []
  dones : List (Nat × List (BitVec 8)) := []
  dataBad : Bool := false
deriving DecidableEq, Repr

/-- What the collective engines hold. -/
structure ColX where
  cols : List ColE := []
  finished : List (Nat × Nat) := []
deriving DecidableEq, Repr, Inhabited

/-- A manifest slot (R297). -/
structure ManSlot where
  slot : Nat
  owner : Nat
  bytes : List (BitVec 8)
deriving DecidableEq, Repr

/-- A key slot (R299, R306): what it is bound to, the key, the count of its peer IVs, where the LOAD that used it and ended
OK put the shard (partition and GDDR7 address) and in which base slot. -/
structure KeySlot where
  slot : Nat
  owner : Nat
  mslot : Nat
  shard : Nat
  key : List (BitVec 8)
  serial : Nat := 0
  dest : Option (Nat × Nat) := none
  base : Option Nat := none
deriving DecidableEq, Repr

/-- A pending key request (R298): its number, partition, manifest digest, shard, the number of its ephemeral key, its time. -/
structure KeyReq where
  num : Nat
  part : Nat
  digest : List (BitVec 8)
  shard : Nat
  priv : Nat
  since : Nat
deriving DecidableEq, Repr

/-- A chunk in flight (R303): its index, its landing slot, the attempt (a source's turn, then a peer's), when that began, the
bytes landed, whether all have, the IV a peer sent, its flash write in hand. -/
structure ChunkX where
  ix : Nat
  lslot : Nat
  attempt : Nat
  since : Nat
  got : Nat := 0
  landed : Bool := false
  iv : List (BitVec 8) := []
  flash : Bool := false
deriving DecidableEq, Repr

/-- A LOAD that holds a stream (R302, R303). -/
structure StreamX where
  part : Nat
  idx : Nat
  mslot : Nat
  kslot : Nat
  shard : Nat
  /-- QP, rkey and remote address for each source. -/
  binds : List (Nat × Nat × Nat)
  peers : List Nat
  toFlash : Bool
  dest : Nat
  landing : Nat
  base : Option Nat
  next : Nat := 0
  returned : Nat := 0
  chunks : List ChunkX := []
  /-- The status and detail it will end with. -/
  status : Nat := 0
  detail : Nat := 0
deriving DecidableEq, Repr

/-- A read request outstanding on a QP (R294, R295): its first PSN and the next one expected, the bytes left and where they
go, what was asked for, the chunk it belongs to, its retries, and the fabric time its transport timer started. -/
structure RdReq where
  qp : Nat
  psn : Nat
  next : Nat
  left : Nat
  addr : Nat
  remote : Nat
  rkey : Nat
  part : Nat
  idx : Nat
  chunk : Nat
  tries : Nat := 0
  since : Nat := 0
deriving DecidableEq, Repr

/-- What the ingress engine holds. -/
structure LoadX where
  mans : List ManSlot := []
  keys : List KeySlot := []
  reqs : List KeyReq := []
  reqNo : Nat := 0
  streams : List StreamX := []
  reads : List RdReq := []
  /-- Fabric time of the last CNP of a QP (R295). -/
  cnps : List (Nat × Nat) := []
  finished : List (Nat × Nat) := []
deriving DecidableEq, Repr, Inhabited

/-- What the security core holds beside its registers (R387 to R402): boots, running versions and floors by image kind, the
measurement registers, the revoked signing keys, the model-owner keys (partition mask and key pair), the operator key digest, whether the helper data
exists, the mailbox calls in hand. -/
structure SecX where
  floors : List (Nat × Nat) := []
  running : List (Nat × Nat) := []
  meas : List (Nat × BitVec 384) := []
  /-- Key manifest indices of the revoked signing keys (R387, R390). -/
  revoked : List Nat := []
  ownerKeys : List (Nat × List (BitVec 8)) := []
  operator : Option (BitVec 384) := none
  helper : Bool := true
  calls : List Nat := []
  /-- The sequence number of the last management record the package sent (R397). -/
  sentSeq : Nat := 0
deriving DecidableEq, Repr, Inhabited

/-- What heads a RoCEv2 packet that leaves a bulk port (R293, R294, R317, R318): the QP and its port; the 802.1Q priority, the
MAC addresses, the IP version with its addresses and the DSCP, the UDP ports, the remote QPN. -/
structure RoceHdr where
  qp : Nat
  port : Nat
  prio : Nat
  src : Nat
  dst : Nat
  v6 : Bool
  srcIp : Nat
  dstIp : Nat
  dscp : Nat
  udpSrc : Nat
  udpDst : Nat
  qpn : Nat
deriving DecidableEq, Repr

/-- What leaves the package, or answers a requester, in the order it happens. -/
inductive Out where
  /-- A packet leaves on a port or link, on a lane (R329). -/
  | packet (port vl : Nat) (cmd : Bool) (bytes : List (BitVec 8))
  /-- A flit is put on a link: its 256 bytes (R323). -/
  | flit (port : Nat) (bytes : List (BitVec 8))
  /-- The allocation of a port's receive buffer goes to the peer as training passes (R325, R327). -/
  | linkAlloc (port : Nat) (alloc : Word)
  /-- A link management flit goes to the peer of a port, asking for (0), agreeing to (1) or turning down (2) a lane's swap: its
  256 bytes (R323, R346). -/
  | linkMsg (port code lane : Nat) (bytes : List (BitVec 8))
  /-- A RoCEv2 read request leaves a QP: PSN, remote address, rkey, length (R294). -/
  | rdmaRead (h : RoceHdr) (psn remote rkey len : Nat)
  /-- A congestion notification leaves a QP (R295). -/
  | cnp (h : RoceHdr)
  /-- A record leaves the management port from a UDP port: its bytes (R397). -/
  | record (port : Nat) (bytes : List (BitVec 8))
  /-- A grant image goes to the hayward firmware (R397). -/
  | grant (image : List (BitVec 8))
  /-- A Delay_Req leaves the management port (R55). -/
  | ptpDelayReq (seq : Nat)
  /-- Data answers the requester of a memory read. -/
  | data (src : Nat) (bytes : List (BitVec 8))
  /-- An error response answers a requester. -/
  | error (src reason : Nat)
  /-- A mesh packet is injected: source page, destination, class, route (0 x then y, 1 y then x, 2 through a waypoint)
  (R34). -/
  | mesh (src x y cls route : Nat)
  /-- An Ethernet frame leaves the management port: 1 ARP reply, 2 neighbour advertisement (R481). -/
  | frame (kind : Nat) (addr : Nat)
  /-- The package reports its own failure over the management port (R440). -/
  | failed
  /-- The I3C target answers: a word, a two-byte status, a NACK, an in-band interrupt's byte (R479). -/
  | word (v : Nat)
  | status (v : Nat)
  | nack
  | ibi (byte : Nat)
  /-- Bits shifted out on TDO (R480). -/
  | tdo (n : Nat) (v : Nat)
deriving DecidableEq, Repr

/-- What the power controller holds beside the PWR registers (R406 to R420). Lists have a place for each quarter. -/
structure PwrX where
  /-- Where the walk goes, and where the walk's step in progress ends (R409, R410). -/
  targets : List Nat := [21, 21, 21, 21]
  nexts : List Nat := [21, 21, 21, 21]
  stageLimit : List Nat := [24, 24, 24, 24]
  /-- Quarters whose divider stays engaged until a tick edge has chosen again (R406, R412, R420). -/
  await : List Nat := []
  /-- Quarters in which some good sensor was not below throttle_c − hyst_c during this tick (R420). -/
  warm : List Nat := []
  /-- The qualified level of the curb pins, and the curb of a low input (R407, R413). -/
  pinLevel : Nat := 0
  vinLow : Bool := false
  /-- Fabric time at which the cap in effect changed last (R412). -/
  capAt : Nat := 0
  /-- Input samples of the last millisecond, newest first: package input and the share of each CORE rail, mW (R409,
  R422). -/
  samples : List (Nat × List Nat) := []
  /-- Energy below one microjoule, nJ (R422). -/
  nj : Nat := 0
  /-- Until when a quarter's sensors report their last value (R419). -/
  calUntil : List (Nat × Nat) := []
deriving DecidableEq, Repr, Inhabited

/-- A snapshot being written: its slot, the partition of its destination (none for the snapshot region), the address, the
bytes, whether it was cut (R460 to R462). -/
structure SnapCopy where
  slot : Nat
  part : Option Nat
  addr : Nat
  bytes : List (BitVec 8)
deriving DecidableEq, Repr

/-- What the snapshot engine holds: for a slot the captures made and the tick of the next one, the copies in hand. -/
structure SnapX where
  seq : List (Nat × Nat) := []
  next : List (Nat × Nat) := []
  copies : List SnapCopy := []
deriving DecidableEq, Repr, Inhabited

/-- A packet of the tile mesh: source tile page, destination coordinates, class, a request, its length in flits of 256 B, and
whether it leaves the destination's router by the attachment port (R33, R35, R37). -/
structure MeshPkt where
  src : Nat
  x : Nat
  y : Nat
  cls : Nat
  request : Bool
  flits : Nat := 1
  att : Bool := false
deriving DecidableEq, Repr

/-- The injection hold at a change of the OUT list, the sources that have released since (R37), and the packets held (R35,
R37). -/
structure MeshX where
  holding : Bool := false
  /-- When the hold began, ns of fabric time. -/
  since : Nat := 0
  released : List Nat := []
  held : List MeshPkt := []
deriving DecidableEq, Repr, Inhabited

/-- Resources that changed partition and are still being zeroed (R381, R382): hub units (hub × 256 + unit), slices
(position × 1,024 + slice). -/
structure MoveX where
  units : List Nat := []
  slices : List Nat := []
deriving DecidableEq, Repr, Inhabited

/-- The JTAG instructions of R480. -/
inductive JtagIr where
  | bypass | idcode | sample | extest | clamp
deriving DecidableEq, Repr, Inhabited

/-- The package at its sideband and supply lands (R404, R407, R477 to R486). -/
structure LandX where
  /-- What the last bring-up met (R387 to R394, R483). -/
  env : BootEnv := {}
  /-- The VIN_MAIN rails are off (R407, R421). -/
  railsOff : Bool := false
  /-- The loss of VIN_MAIN that the hayward or the package recorded (R485, R486). -/
  vinLost : Bool := false
  straps : Option Nat := none
  /-- Milestone bits and stop code of sideband word 0x08 (R484). -/
  milestones : Nat := 0
  stop : Nat := 0
  /-- FAULT_L and THERM_TRIP_L are low (R478). -/
  faultL : Bool := false
  tripL : Bool := false
  /-- The I3C dynamic address; in-band interrupts are enabled (R479). -/
  dynAddr : Option Nat := none
  ibi : Bool := true
  /-- The TAP's instruction and boundary-scan register, and whether the lands are driven from it (R480). -/
  ir : JtagIr := .idcode
  scan : BitVec 29 := 0
  drive : Bool := false
  /-- The management port sends nothing before this fabric time, and the frames that wait at it, each with its bytes (R481). -/
  pauseUntil : Nat := 0
  txq : List (Nat × Out) := []
  /-- XSPI_RESET_L is let go: the security core has started its first read (R480). -/
  xspiGo : Bool := false
  /-- Microseconds since the rails rose (R484). -/
  upUs : Nat := 0
deriving DecidableEq, Repr, Inhabited

/-- The state of the package. The stores `regs`, `staged`, `mem` and `tab` and those of the records list only what differs
from its default, in ascending order. -/
structure State where
  /-- The commands that wait, first in, first out. -/
  pending : List Instr := []
  /-- Registers and counters by window address; the default is the reset value (R5 to R19). -/
  regs : List (Nat × Word) := []
  /-- Staged values by window address (R64). -/
  staged : List (Nat × Option Word) := []
  /-- Bytes of the tile SRAMs, the hub SRAMs, the GDDR7 devices and the flash (R29, R239, R268). -/
  mem : List Host.Cell := []
  /-- Words of the engines' tables (R173, R182, R189, R240, R251, R312 and others). -/
  tab : List (Nat × Word) := []
  resp : Resp := {}
  record : BootRecord := {}
  time : TimeX := {}
  ports : List (Nat × PortX) := []
  parts : List (Nat × PartX) := []
  sites : List (Nat × SiteX) := []
  tiles : List (Nat × TileX) := []
  fab : FabX := {}
  mig : MigX := {}
  flash : FlashX := {}
  ted : TedX := {}
  col : ColX := {}
  load : LoadX := {}
  sec : SecX := {}
  pwr : PwrX := {}
  snap : SnapX := {}
  mesh : MeshX := {}
  move : MoveX := {}
  land : LandX := {}
  /-- What left the package, oldest first. -/
  sent : List Out := []
  /-- How many free values have been taken; the model's own. -/
  free : Nat := 0
deriving DecidableEq, Repr

/-- The package right after reset: every register at its reset value, nothing in the memories, no command waiting. -/
def State.reset : State := {}

/-- No bring-up has stopped at a rail or in the boot (R483, R485). -/
def State.alive (s : State) : Bool := s.land.stop ≠ 1 && s.land.stop ≠ 2

end Sys2Proof.Machine
end

