-- ==== Sys2Proof/Machine/Act.lean ====
section
/-! DEFINITION. How a command acts on the state: a script of reads and of primitive updates of one field each. A meaning
is an `Act`; nothing but the updates of `Upd` can change the state, and none of them touches the queue of waiting
commands, so what every update keeps, every command keeps. -/

namespace Sys2Proof.Machine

/-- The primitive updates, one for each field of the state but the queue. -/
inductive Upd where
  | reg (a : Nat) (v : Word)
  | clearRegs (lo hi : Nat)
  | stage (a : Nat) (v : Option Word)
  | clearStaged (lo hi : Nat)
  | byte (k : Nat) (v : Byte)
  | clearMem (lo hi : Nat)
  | word (k : Nat) (v : Word)
  | clearTab (lo hi : Nat)
  | resp (r : Resp)
  | record (r : BootRecord)
  | port (k : Nat) (v : PortX)
  | part (k : Nat) (v : PartX)
  | time (t : TimeX)
  | site (k : Nat) (v : SiteX)
  | tile (k : Nat) (v : TileX)
  | fab (x : FabX)
  | mig (m : MigX)
  | flash (x : FlashX)
  | ted (x : TedX)
  | col (x : ColX)
  | load (x : LoadX)
  | sec (x : SecX)
  | pwr (x : PwrX)
  | snap (x : SnapX)
  | mesh (x : MeshX)
  | move (x : MoveX)
  | land (x : LandX)
  | send (o : Out)
  | free (n : Nat)

/-- One update applied. -/
def Upd.apply : Upd → State → State
  | .reg a v, s => { s with regs := storePut regDefault s.regs a v }
  | .clearRegs lo hi, s => { s with regs := storeClear s.regs lo hi }
  | .stage a v, s => { s with staged := storePut (fun _ => none) s.staged a v }
  | .clearStaged lo hi, s => { s with staged := storeClear s.staged lo hi }
  | .byte k v, s => { s with mem := storePut (fun _ => 0) s.mem k v }
  | .clearMem lo hi, s => { s with mem := storeClear s.mem lo hi }
  | .word k v, s => { s with tab := storePut (fun _ => 0) s.tab k v }
  | .clearTab lo hi, s => { s with tab := storeClear s.tab lo hi }
  | .resp r, s => { s with resp := r }
  | .record r, s => { s with record := r }
  | .port k v, s => { s with ports := storePut (fun _ => {}) s.ports k v }
  | .part k v, s => { s with parts := storePut (fun _ => {}) s.parts k v }
  | .time t, s => { s with time := t }
  | .site k v, s => { s with sites := storePut (fun _ => {}) s.sites k v }
  | .tile k v, s => { s with tiles := storePut (fun _ => {}) s.tiles k v }
  | .fab x, s => { s with fab := x }
  | .mig m, s => { s with mig := m }
  | .flash x, s => { s with flash := x }
  | .ted x, s => { s with ted := x }
  | .col x, s => { s with col := x }
  | .load x, s => { s with load := x }
  | .sec x, s => { s with sec := x }
  | .pwr x, s => { s with pwr := x }
  | .snap x, s => { s with snap := x }
  | .mesh x, s => { s with mesh := x }
  | .move x, s => { s with move := x }
  | .land x, s => { s with land := x }
  | .send o, s => { s with sent := s.sent ++ [o] }
  | .free n, s => { s with free := n }

/-- A script: what a command does, one read or update after another. -/
inductive Script where
  | halt
  | upd (u : Upd) (k : Script)
  | ask (k : State → Script)

/-- Run a script. -/
def Script.run : Script → State → State
  | .halt, s => s
  | .upd u k, s => k.run (u.apply s)
  | .ask k, s => (k s).run s

/-- A script that answers a value and goes on. -/
abbrev Act := ContT Script Id

/-- The state as it is now. -/
def Act.get : Act State := fun k => .ask k

/-- One primitive update. -/
def Act.upd (u : Upd) : Act Unit := fun k => .upd u (k ())

/-- The state a whole action leaves. -/
def Act.run (a : Act Unit) (s : State) : State := Script.run (a fun _ => Script.halt) s

/-- A read of the state. -/
def rd {α : Type} (f : State → α) : Act α := fun k => .ask (fun s => k (f s))

/-- The next free value: a number the spec leaves open. -/
def freshNat : Act Nat := fun k => .ask (fun s => .upd (.free (s.free + 1)) (k (Config.freeNat s.free)))

/-- The next free value below `n` (0 where `n` is 0). -/
def freshBelow (n : Nat) : Act Nat := do return (← freshNat) % n

/-- Do nothing. -/
def skip : Act Unit := pure ()

end Sys2Proof.Machine
end

