-- ==== Sys2Proof/Machine/RegNames.lean ====
section
/-! DEFINITION. The register and counter names of the spec's register tables: `R.NAME` is a register's address in
the window of R5 to R7 (an argument counts the block's pages from the first page that holds the register, a second one
the registers of an array), `F.NAME.field` is a field's place in the word, `C.NAME` is a counter's address. Each
follows the table of the rule that the rows of Machine/RegTable.lean cite. -/

namespace Sys2Proof.Machine

def R.TILE_IDENT (p : Nat) : Nat := regA .tile p 0x100
def R.TILE_WBUF_CFG (p : Nat) : Nat := regA .tile p 0x108
def R.TILE_WBUF_STATUS (p : Nat) : Nat := regA .tile p 0x110
def R.TILE_FAULT (p : Nat) : Nat := regA .tile p 0x118
def R.MESH_ROUTE_CTRL : Nat := regA .mesh 0 0x100
def R.MESH_OUT_COUNT : Nat := regA .mesh 0 0x108
def R.MESH_OUT (i : Nat) : Nat := regA .mesh 0 0x200 + 8 * i
def R.TIM_NOW : Nat := regA .tim 0 0x100
def R.TIM_NOW_FRAC : Nat := regA .tim 0 0x108
def R.TIM_SYNC_CTRL : Nat := regA .tim 0 0x110
def R.TIM_SYNC_STATUS : Nat := regA .tim 0 0x118
def R.TIM_OFFSET : Nat := regA .tim 0 0x120
def R.TIM_TICK_CTRL : Nat := regA .tim 1 0x100
def R.TIM_TICK_PERIOD : Nat := regA .tim 1 0x108
def R.TIM_EPOCH_TIME : Nat := regA .tim 1 0x110
def R.TIM_EPOCH_TICK : Nat := regA .tim 1 0x118
def R.TIM_TICK_NOW : Nat := regA .tim 1 0x120
def R.TIM_TICK_TIME : Nat := regA .tim 1 0x128
def R.TIM_GLEAN_CTRL : Nat := regA .tim 3 0x100
def R.TIM_GLEAN_TICK (i : Nat) : Nat := regA .tim 3 0x200 + 16 * i
def R.TIM_GLEAN_DESC (i : Nat) : Nat := regA .tim 3 0x208 + 16 * i
def R.TILE_QS_CFG (p : Nat) (i : Nat) : Nat := regA .tile p 0x200 + 64 * i
def R.TILE_QS_TSCALE (p : Nat) (i : Nat) : Nat := regA .tile p 0x208 + 64 * i
def R.TILE_QS_EFFECT (p : Nat) (i : Nat) : Nat := regA .tile p 0x210 + 64 * i
def R.TILE_QS_OUTLIER (p : Nat) (i : Nat) : Nat := regA .tile p 0x218 + 64 * i
def R.TILE_QS_SIDE (p : Nat) (i : Nat) : Nat := regA .tile p 0x220 + 64 * i
def R.TILE_QS_WIDE (p : Nat) (i : Nat) : Nat := regA .tile p 0x228 + 64 * i
def R.TILE_QS_CHUNK (p : Nat) (i : Nat) : Nat := regA .tile p 0x230 + 64 * i
def R.TILE_QHIST_SEL (p : Nat) : Nat := regA .tile p 0x600
def R.TILE_QHIST_DATA (p : Nat) : Nat := regA .tile p 0x608
def R.TILE_OPQ_CFG (p : Nat) : Nat := regA .tile p 0x140
def R.TILE_OPQ_TAIL (p : Nat) : Nat := regA .tile p 0x148
def R.TILE_OPQ_HEAD (p : Nat) : Nat := regA .tile p 0x150
def R.TILE_OP_STATUS (p : Nat) : Nat := regA .tile p 0x158
def R.TILE_OP_CTRL (p : Nat) : Nat := regA .tile p 0x160
def R.TILE_OP_FLUSH (p : Nat) : Nat := regA .tile p 0x168
def R.TILE_ATTN_CTRL (p : Nat) : Nat := regA .tile p 0x680
def R.TILE_WALK_INV (p : Nat) : Nat := regA .tile p 0x688
def R.TILE_WALK_STATUS (p : Nat) : Nat := regA .tile p 0x690
def R.TILE_ATTN_LAST (p : Nat) : Nat := regA .tile p 0x698
def R.REQ_ENGINE_STATUS : Nat := regA .req 0 0x100
def R.REQ_PART_CTRL (p : Nat) : Nat := regA .req (1 + p) 0x100
def R.REQ_STEP_LIMIT (p : Nat) : Nat := regA .req (1 + p) 0x108
def R.REQ_STEP_ARM (p : Nat) : Nat := regA .req (1 + p) 0x110
def R.REQ_STEP_CTRL (p : Nat) : Nat := regA .req (1 + p) 0x118
def R.REQ_STEP_STATUS (p : Nat) : Nat := regA .req (1 + p) 0x120
def R.REQ_BATCH_BASE (p : Nat) : Nat := regA .req (1 + p) 0x128
def R.REQ_COMMIT_BASE (p : Nat) : Nat := regA .req (1 + p) 0x130
def R.REQ_DRAFT_BASE (p : Nat) : Nat := regA .req (1 + p) 0x138
def R.REQ_JRNL_CFG (p : Nat) : Nat := regA .req (1 + p) 0x140
def R.REQ_JRNL_BUDDY (p : Nat) : Nat := regA .req (1 + p) 0x148
def R.REQ_JRNL_SEQ (p : Nat) : Nat := regA .req (1 + p) 0x150
def R.REQ_JRNL_CONF (p : Nat) : Nat := regA .req (1 + p) 0x158
def R.REQ_PRX_BASE (p : Nat) : Nat := regA .req (1 + p) 0x160
def R.REQ_PRX_CFG (p : Nat) : Nat := regA .req (1 + p) 0x168
def R.REQ_PRX_ROOT (p : Nat) : Nat := regA .req (1 + p) 0x170
def R.REQ_PRX_SHARE (p : Nat) : Nat := regA .req (1 + p) 0x178
def R.REQ_CLASS (p : Nat) (i : Nat) : Nat := regA .req (1 + p) 0x180 + 8 * i
def R.REQ_UNPARK (p : Nat) : Nat := regA .req (1 + p) 0x1c8
def R.REQ_SLOT_SEL (p : Nat) : Nat := regA .req (1 + p) 0x1d0
def R.REQ_RELEASE (p : Nat) : Nat := regA .req (1 + p) 0x1d8
def R.REQ_MOVE_BASE (p : Nat) : Nat := regA .req (1 + p) 0x1e0
def R.REQ_STEP_START (p : Nat) : Nat := regA .req (1 + p) 0x1e8
def R.REQ_SLOT_DATA (p : Nat) (i : Nat) : Nat := regA .req (1 + p) 0x200 + 8 * i
def R.REQ_RING_SEL (p : Nat) : Nat := regA .req (1 + p) 0x280
def R.REQ_RING_CTX (p : Nat) (i : Nat) : Nat := regA .req (1 + p) 0x288 + 8 * i
def R.PRX_KEY_LO (i : Nat) : Nat := regA .prx 0 0x100 + 16 * i
def R.PRX_KEY_HI (i : Nat) : Nat := regA .prx 0 0x108 + 16 * i
def R.PRX_SHARE_KEY_LO (i : Nat) : Nat := regA .prx 1 0x100 + 16 * i
def R.PRX_SHARE_KEY_HI (i : Nat) : Nat := regA .prx 1 0x108 + 16 * i
def R.PRX_SHARE_CFG (i : Nat) : Nat := regA .prx 1 0x200 + 8 * i
def R.PRX_SHARE_BASE (i : Nat) : Nat := regA .prx 1 0x300 + 8 * i
def R.XRT_ENG_STATUS (p : Nat) : Nat := regA .xrt p 0x100
def R.XRT_CTX_LAYER_BASE (p : Nat) : Nat := regA .xrt (4 + p) 0x100
def R.XRT_CTX_ROUTERS (p : Nat) : Nat := regA .xrt (4 + p) 0x108
def R.XRT_CTX_PLACEQ (p : Nat) : Nat := regA .xrt (4 + p) 0x110
def R.XRT_CTX_PLACE_TAIL (p : Nat) : Nat := regA .xrt (4 + p) 0x118
def R.XRT_CTX_PLACE_HEAD (p : Nat) : Nat := regA .xrt (4 + p) 0x120
def R.XRT_CTX_STATUS (p : Nat) : Nat := regA .xrt (4 + p) 0x128
def R.XRT_CTX_SNAP (p : Nat) : Nat := regA .xrt (4 + p) 0x130
def R.XRT_BIAS_CTRL (p : Nat) : Nat := regA .xrt (4 + p) 0x140
def R.XRT_BIAS_LIMIT (p : Nat) : Nat := regA .xrt (4 + p) 0x148
def R.XRT_BIAS_READY (p : Nat) : Nat := regA .xrt (4 + p) 0x150
def R.XRT_BIAS_STATE (p : Nat) : Nat := regA .xrt (4 + p) 0x158
def R.TILE_WB_SEL (p : Nat) : Nat := regA .tile p 0x700
def R.TILE_WB_ENTRY (p : Nat) : Nat := regA .tile p 0x708
def R.TILE_WB_CMD (p : Nat) : Nat := regA .tile p 0x710
def R.TILE_WB_STATUS (p : Nat) : Nat := regA .tile p 0x718
def R.GDC_SITE_CFG (p : Nat) : Nat := regA .gdc p 0x100
def R.GDC_SITE_STATE (p : Nat) : Nat := regA .gdc p 0x108
def R.GDC_ECC_CTRL (p : Nat) : Nat := regA .gdc p 0x110
def R.GDC_ECC_LAST (p : Nat) : Nat := regA .gdc p 0x118
def R.GDC_SCRUB_CTRL (p : Nat) : Nat := regA .gdc p 0x120
def R.GDC_HOLD_STATUS (p : Nat) : Nat := regA .gdc p 0x128
def R.GDC_MIG_CTRL (p : Nat) : Nat := regA .gdc p 0x130
def R.GDC_MIG_STATUS (p : Nat) : Nat := regA .gdc p 0x138
def R.GDC_COVER_CTRL : Nat := regA .gdc 16 0x140
def R.GDC_COVER_STATUS : Nat := regA .gdc 16 0x148
def R.GDC_PHY_CFG (p : Nat) : Nat := regA .gdc (17 + p) 0x100
def R.GDC_PHY_TRAIN_TICK (p : Nat) : Nat := regA .gdc (17 + p) 0x108
def R.GDC_PHY_TRAIN_STATUS (p : Nat) : Nat := regA .gdc (17 + p) 0x110
def R.GDC_PHY_MARGIN (p : Nat) (i : Nat) : Nat := regA .gdc (17 + p) 0x118 + 8 * i
def R.GDC_PHY_RETRAIN (p : Nat) : Nat := regA .gdc (17 + p) 0x140
def R.FLC_CH_CFG (p : Nat) : Nat := regA .flc p 0x100
def R.FLC_CH_STATE (p : Nat) : Nat := regA .flc p 0x108
def R.FLC_CH_WEAR (p : Nat) : Nat := regA .flc p 0x110
def R.FLC_CH_BLOCKS (p : Nat) : Nat := regA .flc p 0x118
def R.FLC_CH_SCAN (p : Nat) : Nat := regA .flc p 0x120
def R.FLC_ENG_CFG : Nat := regA .flc 0 0x300
def R.FLC_ENG_STATUS : Nat := regA .flc 0 0x308
def R.FLC_MAP_CFG : Nat := regA .flc 0 0x310
def R.FLC_NS (i : Nat) : Nat := regA .flc 0 0x400 + 16 * i
def R.FLC_BUDGET (i : Nat) : Nat := regA .flc 0 0x408 + 16 * i
def R.FLC_DEC_STATUS (p : Nat) : Nat := regA .flc (16 + p) 0x100
def R.PRT_FLQ_CFG (p : Nat) : Nat := regA .prt p 0x600
def R.PRT_FLQ_TAIL (p : Nat) : Nat := regA .prt p 0x608
def R.PRT_FLQ_HEAD (p : Nat) : Nat := regA .prt p 0x610
def R.BIN_PORT_CTRL (p : Nat) : Nat := regA .bin p 0x100
def R.BIN_PORT_MAC (p : Nat) : Nat := regA .bin p 0x108
def R.BIN_PORT_IP4 (p : Nat) : Nat := regA .bin p 0x110
def R.BIN_PORT_IP6_LO (p : Nat) : Nat := regA .bin p 0x118
def R.BIN_PORT_IP6_HI (p : Nat) : Nat := regA .bin p 0x120
def R.BIN_PORT_STATUS (p : Nat) : Nat := regA .bin p 0x128
def R.BIN_ENG_CFG : Nat := regA .bin 2 0x100
def R.BIN_ENG_STATUS : Nat := regA .bin 2 0x108
def R.BIN_SLOT_SEL : Nat := regA .bin 2 0x110
def R.BIN_SLOT_INFO : Nat := regA .bin 2 0x118
def R.BIN_SLOT_DIGEST (i : Nat) : Nat := regA .bin 2 0x120 + 8 * i
def R.BIN_QP_SEL : Nat := regA .bin 2 0x150
def R.BIN_QP_CTX (i : Nat) : Nat := regA .bin 2 0x158 + 8 * i
def R.BIN_BASE_ACTIVE : Nat := regA .bin 2 0x200
def R.BIN_BASE (i : Nat) : Nat := regA .bin 2 0x208 + 8 * i
def R.BIN_SWAP_REC : Nat := regA .bin 2 0x218
def R.BIN_SWAP_STATE : Nat := regA .bin 2 0x220
def R.TED_STATUS (p : Nat) : Nat := regA .ted p 0x100
def R.TED_FILL_LAST (p : Nat) : Nat := regA .ted p 0x108
def R.PRT_LDQ_CFG (p : Nat) : Nat := regA .prt p 0x620
def R.PRT_LDQ_TAIL (p : Nat) : Nat := regA .prt p 0x628
def R.PRT_LDQ_HEAD (p : Nat) : Nat := regA .prt p 0x630
def R.PRT_TDQ_CFG (p : Nat) : Nat := regA .prt p 0x640
def R.PRT_TDQ_TAIL (p : Nat) : Nat := regA .prt p 0x648
def R.PRT_TDQ_HEAD (p : Nat) : Nat := regA .prt p 0x650
def R.REQ_ADP_ARG (p : Nat) (i : Nat) : Nat := regA .req (1 + p) 0x300 + 8 * i
def R.REQ_ADP_CMD (p : Nat) : Nat := regA .req (1 + p) 0x320
def R.REQ_ADP_STATUS (p : Nat) : Nat := regA .req (1 + p) 0x328
def R.PORT_CTRL (k : Nat) : Nat := (if k < 8 then regA .fab k 0x100 else regA .bms (k - 8) 0x100)
def R.PORT_STATUS (k : Nat) : Nat := (if k < 8 then regA .fab k 0x108 else regA .bms (k - 8) 0x108)
def R.LINK_DELAY (k : Nat) : Nat := (if k < 8 then regA .fab k 0x110 else regA .bms (k - 8) 0x110)
def R.VL_CREDIT (k : Nat) : Nat := (if k < 8 then regA .fab k 0x118 else regA .bms (k - 8) 0x118)
def R.VL_ARB (k : Nat) : Nat := (if k < 8 then regA .fab k 0x120 else regA .bms (k - 8) 0x120)
def R.FAB_QUENCHED : Nat := regA .fab 0 0x140
def R.FAB_QUENCH_CLEAR : Nat := regA .fab 0 0x148
def R.FAB_CMD_SEQ : Nat := regA .fab 0 0x150
def R.FAB_CMD_KEY : Nat := regA .fab 0 0x158
def R.FAB_PUT_CFG : Nat := regA .fab 0 0x160
def R.BMS_TRANSIT (p : Nat) : Nat := regA .bms p 0x128
def R.BMS_BOARD : Nat := regA .bms 0 0x130
def R.BMS_ADDR_MODE : Nat := regA .bms 0 0x138
def R.BMS_POS (i : Nat) : Nat := regA .bms 0 0x200 + 8 * i
def R.PRT_CLQ_CFG (p : Nat) : Nat := regA .prt p 0x680
def R.PRT_CLQ_TAIL (p : Nat) : Nat := regA .prt p 0x688
def R.PRT_CLQ_HEAD (p : Nat) : Nat := regA .prt p 0x690
def R.PRT_COL_CTRL (p : Nat) : Nat := regA .prt p 0x698
def R.PRT_COL_ABORT (p : Nat) : Nat := regA .prt p 0x6a0
def R.PRT_COL_STATUS (p : Nat) : Nat := regA .prt p 0x6a8
def R.HAY_STATUS : Nat := regA .hay 0 0x100
def R.HAY_VLOG_HEAD : Nat := regA .hay 0 0x108
def R.HAY_VLOG_TAIL : Nat := regA .hay 0 0x110
def R.HAY_CONFLICT : Nat := regA .hay 0 0x118
def R.HAY_CORE (i : Nat) : Nat := regA .hay 1 0x100 + 8 * i
def R.HAY_GMAP_SEL : Nat := regA .hay 9 0x100
def R.HAY_GMAP_DATA : Nat := regA .hay 9 0x108
def R.HAY_GMAP_COMMIT : Nat := regA .hay 9 0x110
def R.HAY_GMAP_ACTIVE : Nat := regA .hay 9 0x118
def R.HAY_GMAP_STATUS : Nat := regA .hay 9 0x120
def R.HAY_ZERO_STATUS : Nat := regA .hay 10 0x100
def R.SEC_BOOT_STATUS : Nat := regA .sec 0 0x100
def R.SEC_LIFECYCLE : Nat := regA .sec 0 0x108
def R.SEC_MEAS_SEL : Nat := regA .sec 0 0x110
def R.SEC_MEAS (i : Nat) : Nat := regA .sec 0 0x118 + 8 * i
def R.SEC_FLOOR_SEL : Nat := regA .sec 0 0x148
def R.SEC_FLOOR : Nat := regA .sec 0 0x150
def R.SEC_CMD : Nat := regA .sec 1 0x100
def R.SEC_CMD_STATUS : Nat := regA .sec 1 0x108
def R.SEC_MGMT_SEQ : Nat := regA .sec 1 0x110
def R.SEC_MGMT_PORT : Nat := regA .sec 1 0x118
def R.PRT_CTRL (p : Nat) : Nat := regA .prt p 0x100
def R.PRT_KEY (p : Nat) : Nat := regA .prt p 0x108
def R.PRT_RINGS (p : Nat) : Nat := regA .prt p 0x110
def R.PRT_SLOTS (p : Nat) : Nat := regA .prt p 0x118
def R.PRT_QUOTA (p : Nat) : Nat := regA .prt p 0x120
def R.PRT_LEASE (p : Nat) : Nat := regA .prt p 0x128
def R.PRT_VLCAP (p : Nat) : Nat := regA .prt p 0x130
def R.PRT_HUBMEM (p : Nat) (i : Nat) : Nat := regA .prt p 0x140 + 8 * i
def R.PRT_TILES (p : Nat) (i : Nat) : Nat := regA .prt p 0x160 + 8 * i
def R.PRT_HAY_MBOX (p : Nat) : Nat := regA .prt p 0x1b0
def R.PRT_HAY_CALL (p : Nat) : Nat := regA .prt p 0x1b8
def R.PWR_VF_CTRL : Nat := regA .pwr 0 0x100
def R.PWR_CAP : Nat := regA .pwr 0 0x108
def R.PWR_CURB_CAP : Nat := regA .pwr 0 0x110
def R.PWR_STATUS : Nat := regA .pwr 0 0x118
def R.PWR_INPUT : Nat := regA .pwr 0 0x120
def R.PWR_ENERGY : Nat := regA .pwr 0 0x128
def R.PWR_STAGE_STATUS : Nat := regA .pwr 0 0x130
def R.PWR_STAGE_STATUS2 : Nat := regA .pwr 0 0x138
def R.PWR_DROOP_CFG : Nat := regA .pwr 0 0x140
def R.PWR_THERM_CFG : Nat := regA .pwr 1 0x100
def R.PWR_THERM_Q (i : Nat) : Nat := regA .pwr 1 0x108 + 8 * i
def R.PWR_SENSOR_SEL : Nat := regA .pwr 1 0x128
def R.PWR_SENSOR : Nat := regA .pwr 1 0x130
def R.PWR_TRIP : Nat := regA .pwr 1 0x138
def R.HAY_RESET : Nat := regA .hay 0 0x120
def R.HAY_RESET_STATUS : Nat := regA .hay 0 0x128
def R.PRT_FAULT_CTRL (p : Nat) : Nat := regA .prt p 0x700
def R.PRT_FAULT_STATUS (p : Nat) : Nat := regA .prt p 0x708
def R.PRT_MIRROR (p : Nat) (i : Nat) : Nat := regA .prt p 0x710 + 8 * i
def R.PRT_KV_REBUILD (p : Nat) : Nat := regA .prt p 0x730
def R.PRT_STEP_ABANDON (p : Nat) : Nat := regA .prt p 0x738
def R.PRT_RECOVER_CMD (p : Nat) : Nat := regA .prt p 0x740
def R.PRT_RECOVER_STATUS (p : Nat) : Nat := regA .prt p 0x748
def R.CNT_SNAP_TICK (i : Nat) : Nat := regA .cnt 0 0x100 + 32 * i
def R.CNT_SNAP_DEST (i : Nat) : Nat := regA .cnt 0 0x108 + 32 * i
def R.CNT_SNAP_SIZE (i : Nat) : Nat := regA .cnt 0 0x110 + 32 * i
def R.CNT_SNAP_SIG (i : Nat) : Nat := regA .cnt 0 0x118 + 32 * i
def R.CNT_HAY_REGION : Nat := regA .cnt 0 0x200
def R.CNT_CHAIN (i : Nat) : Nat := regA .cnt 1 0x100 + 8 * i
def R.CNT_THR_SRC (i : Nat) : Nat := regA .cnt 2 0x100 + 16 * i
def R.CNT_THR_N (i : Nat) : Nat := regA .cnt 2 0x108 + 16 * i
def R.MGT_PORT_CTRL : Nat := regA .mgt 0 0x100
def R.MGT_PORT_STATUS : Nat := regA .mgt 0 0x108
def R.MGT_PORT_MAC : Nat := regA .mgt 0 0x110
def R.MGT_PORT_IP4 : Nat := regA .mgt 0 0x118
def R.MGT_PORT_IP6_LO : Nat := regA .mgt 0 0x120
def R.MGT_PORT_IP6_HI : Nat := regA .mgt 0 0x128
def R.MGT_PORT_VLAN : Nat := regA .mgt 0 0x130
def R.HAY_TILE_MAP (i : Nat) : Nat := regA .hay 8 0x100 + 8 * i
def R.TIM_STEP (i : Nat) : Nat := regA .tim 2 0x100 + 8 * i
def R.PRT_ENERGY (p : Nat) : Nat := regA .prt p 0x1c0

def F.TILE_IDENT.logical_valid : Fld := ⟨31, 31⟩
def F.TILE_IDENT.logical : Fld := ⟨25, 16⟩
def F.TILE_IDENT.y : Fld := ⟨12, 8⟩
def F.TILE_IDENT.x : Fld := ⟨4, 0⟩
def F.TILE_WBUF_CFG.b_size : Fld := ⟨58, 48⟩
def F.TILE_WBUF_CFG.b_base : Fld := ⟨41, 32⟩
def F.TILE_WBUF_CFG.a_size : Fld := ⟨26, 16⟩
def F.TILE_WBUF_CFG.a_base : Fld := ⟨9, 0⟩
def F.TILE_WBUF_STATUS.b_tag : Fld := ⟨47, 32⟩
def F.TILE_WBUF_STATUS.a_tag : Fld := ⟨31, 16⟩
def F.TILE_WBUF_STATUS.b_state : Fld := ⟨3, 2⟩
def F.TILE_WBUF_STATUS.a_state : Fld := ⟨1, 0⟩
def F.TILE_FAULT.wbuf_tag : Fld := ⟨4, 4⟩
def F.TILE_FAULT.engine_selftest : Fld := ⟨3, 3⟩
def F.TILE_FAULT.router : Fld := ⟨2, 2⟩
def F.TILE_FAULT.sram_ue : Fld := ⟨1, 1⟩
def F.TILE_FAULT.sram_ce_limit : Fld := ⟨0, 0⟩
def F.MESH_ROUTE_CTRL.hold_timeout : Fld := ⟨15, 8⟩
def F.MESH_ROUTE_CTRL.detour_enable : Fld := ⟨0, 0⟩
def F.MESH_OUT_COUNT.count : Fld := ⟨5, 0⟩
def F.MESH_OUT.valid : Fld := ⟨63, 63⟩
def F.MESH_OUT.wp_y : Fld := ⟨44, 40⟩
def F.MESH_OUT.wp_x : Fld := ⟨36, 32⟩
def F.MESH_OUT.y : Fld := ⟨12, 8⟩
def F.MESH_OUT.x : Fld := ⟨4, 0⟩
def F.TIM_NOW.ns : Fld := ⟨63, 0⟩
def F.TIM_NOW_FRAC.frac : Fld := ⟨15, 0⟩
def F.TIM_SYNC_CTRL.holdover_limit : Fld := ⟨63, 48⟩
def F.TIM_SYNC_CTRL.error_limit : Fld := ⟨47, 40⟩
def F.TIM_SYNC_CTRL.transport : Fld := ⟨17, 16⟩
def F.TIM_SYNC_CTRL.ptp_domain : Fld := ⟨15, 8⟩
def F.TIM_SYNC_CTRL.beacon_enable : Fld := ⟨1, 1⟩
def F.TIM_SYNC_CTRL.ptp_enable : Fld := ⟨0, 0⟩
def F.TIM_SYNC_STATUS.est_error_ns : Fld := ⟨47, 32⟩
def F.TIM_SYNC_STATUS.beacon_ports : Fld := ⟨15, 8⟩
def F.TIM_SYNC_STATUS.source : Fld := ⟨5, 4⟩
def F.TIM_SYNC_STATUS.unsynchronised : Fld := ⟨3, 3⟩
def F.TIM_SYNC_STATUS.locked_once : Fld := ⟨2, 2⟩
def F.TIM_SYNC_STATUS.state : Fld := ⟨1, 0⟩
def F.TIM_OFFSET.rate_adj : Fld := ⟨63, 32⟩
def F.TIM_OFFSET.offset : Fld := ⟨31, 0⟩
def F.TIM_TICK_CTRL.run : Fld := ⟨0, 0⟩
def F.TIM_TICK_PERIOD.period_us : Fld := ⟨19, 0⟩
def F.TIM_EPOCH_TIME.ns : Fld := ⟨63, 0⟩
def F.TIM_EPOCH_TICK.tick : Fld := ⟨47, 0⟩
def F.TIM_TICK_NOW.tick : Fld := ⟨47, 0⟩
def F.TIM_TICK_TIME.ns : Fld := ⟨63, 0⟩
def F.TIM_GLEAN_CTRL.seq : Fld := ⟨63, 32⟩
def F.TIM_GLEAN_CTRL.lead : Fld := ⟨7, 0⟩
def F.TIM_GLEAN_TICK.tick : Fld := ⟨47, 0⟩
def F.TIM_GLEAN_DESC.length_us : Fld := ⟨63, 44⟩
def F.TIM_GLEAN_DESC.offset_us : Fld := ⟨43, 24⟩
def F.TIM_GLEAN_DESC.inst : Fld := ⟨23, 16⟩
def F.TIM_GLEAN_DESC.kind : Fld := ⟨15, 12⟩
def F.TIM_GLEAN_DESC.cancel : Fld := ⟨5, 5⟩
def F.TIM_GLEAN_DESC.chain : Fld := ⟨4, 4⟩
def F.TIM_GLEAN_DESC.status : Fld := ⟨2, 0⟩
def F.TILE_QS_CFG.headroom : Fld := ⟨15, 8⟩
def F.TILE_QS_CFG.outlier_fmt : Fld := ⟨7, 7⟩
def F.TILE_QS_CFG.outlier_policy : Fld := ⟨6, 6⟩
def F.TILE_QS_CFG.outlier_enable : Fld := ⟨5, 5⟩
def F.TILE_QS_CFG.status_enable : Fld := ⟨4, 4⟩
def F.TILE_QS_CFG.scale_mode : Fld := ⟨3, 3⟩
def F.TILE_QS_CFG.out_format : Fld := ⟨2, 0⟩
def F.TILE_QS_TSCALE.tscale : Fld := ⟨31, 0⟩
def F.TILE_QS_EFFECT.hist_count : Fld := ⟨36, 32⟩
def F.TILE_QS_EFFECT.t : Fld := ⟨31, 0⟩
def F.TILE_QS_OUTLIER.n_entries : Fld := ⟨46, 32⟩
def F.TILE_QS_OUTLIER.table_base : Fld := ⟨15, 0⟩
def F.TILE_QS_SIDE.side_size : Fld := ⟨47, 32⟩
def F.TILE_QS_SIDE.side_base : Fld := ⟨15, 0⟩
def F.TILE_QS_WIDE.wide_size : Fld := ⟨47, 32⟩
def F.TILE_QS_WIDE.wide_base : Fld := ⟨15, 0⟩
def F.TILE_QS_CHUNK.widened : Fld := ⟨63, 63⟩
def F.TILE_QS_CHUNK.wide_short : Fld := ⟨62, 62⟩
def F.TILE_QS_CHUNK.candidates : Fld := ⟨55, 32⟩
def F.TILE_QS_CHUNK.entries : Fld := ⟨14, 0⟩
def F.TILE_QHIST_SEL.stream : Fld := ⟨7, 4⟩
def F.TILE_QHIST_SEL.entry : Fld := ⟨3, 0⟩
def F.TILE_QHIST_DATA.valid : Fld := ⟨63, 63⟩
def F.TILE_QHIST_DATA.max : Fld := ⟨31, 0⟩
def F.TILE_OPQ_CFG.size : Fld := ⟨44, 32⟩
def F.TILE_OPQ_CFG.base : Fld := ⟨15, 0⟩
def F.TILE_OPQ_TAIL.tail : Fld := ⟨31, 0⟩
def F.TILE_OPQ_HEAD.issued : Fld := ⟨63, 32⟩
def F.TILE_OPQ_HEAD.retired : Fld := ⟨31, 0⟩
def F.TILE_OP_STATUS.err_code : Fld := ⟨63, 56⟩
def F.TILE_OP_STATUS.err_opcode : Fld := ⟨55, 48⟩
def F.TILE_OP_STATUS.err_seq : Fld := ⟨47, 16⟩
def F.TILE_OP_STATUS.halted : Fld := ⟨5, 5⟩
def F.TILE_OP_STATUS.in_flight : Fld := ⟨4, 0⟩
def F.TILE_OP_CTRL.errsig_enable : Fld := ⟨33, 33⟩
def F.TILE_OP_CTRL.halt_on_error : Fld := ⟨32, 32⟩
def F.TILE_OP_CTRL.errsig_tile : Fld := ⟨31, 22⟩
def F.TILE_OP_CTRL.errsig_offset : Fld := ⟨18, 0⟩
def F.TILE_OP_FLUSH.flush : Fld := ⟨63, 0⟩
def F.TILE_ATTN_CTRL.walk_depth : Fld := ⟨11, 8⟩
def F.TILE_ATTN_CTRL.fast_exp : Fld := ⟨0, 0⟩
def F.TILE_WALK_INV.inv : Fld := ⟨63, 0⟩
def F.TILE_WALK_STATUS.valid_entries : Fld := ⟨37, 32⟩
def F.TILE_WALK_STATUS.pinned : Fld := ⟨5, 0⟩
def F.TILE_ATTN_LAST.status : Fld := ⟨63, 56⟩
def F.TILE_ATTN_LAST.entry : Fld := ⟨31, 0⟩
def F.REQ_ENGINE_STATUS.live_slots : Fld := ⟨46, 32⟩
def F.REQ_ENGINE_STATUS.admit_in_flight : Fld := ⟨6, 0⟩
def F.REQ_PART_CTRL.drain : Fld := ⟨1, 1⟩
def F.REQ_PART_CTRL.admit_enable : Fld := ⟨0, 0⟩
def F.REQ_STEP_LIMIT.max_requests : Fld := ⟨47, 32⟩
def F.REQ_STEP_LIMIT.chunk_max : Fld := ⟨31, 16⟩
def F.REQ_STEP_LIMIT.token_budget : Fld := ⟨15, 0⟩
def F.REQ_STEP_ARM.start_tick : Fld := ⟨47, 0⟩
def F.REQ_STEP_CTRL.rollback : Fld := ⟨1, 1⟩
def F.REQ_STEP_CTRL.commit : Fld := ⟨0, 0⟩
def F.REQ_STEP_STATUS.batch_entries : Fld := ⟨63, 48⟩
def F.REQ_STEP_STATUS.batch_tokens : Fld := ⟨47, 32⟩
def F.REQ_STEP_STATUS.pending_publish : Fld := ⟨31, 24⟩
def F.REQ_STEP_STATUS.error : Fld := ⟨15, 8⟩
def F.REQ_STEP_STATUS.phase : Fld := ⟨2, 0⟩
def F.REQ_BATCH_BASE.addr : Fld := ⟨19, 0⟩
def F.REQ_COMMIT_BASE.addr : Fld := ⟨19, 0⟩
def F.REQ_DRAFT_BASE.addr : Fld := ⟨19, 0⟩
def F.REQ_JRNL_CFG.log_size : Fld := ⟨53, 48⟩
def F.REQ_JRNL_CFG.base : Fld := ⟨47, 0⟩
def F.REQ_JRNL_BUDDY.buddy : Fld := ⟨43, 32⟩
def F.REQ_JRNL_BUDDY.mirror_timeout_us : Fld := ⟨15, 0⟩
def F.REQ_JRNL_SEQ.written : Fld := ⟨47, 0⟩
def F.REQ_JRNL_CONF.mirror_lost : Fld := ⟨63, 63⟩
def F.REQ_JRNL_CONF.confirmed : Fld := ⟨47, 0⟩
def F.REQ_PRX_BASE.base : Fld := ⟨47, 0⟩
def F.REQ_PRX_CFG.evict_low : Fld := ⟨39, 32⟩
def F.REQ_PRX_CFG.bucket_log : Fld := ⟨29, 24⟩
def F.REQ_PRX_CFG.node_log : Fld := ⟨21, 16⟩
def F.REQ_PRX_CFG.layout : Fld := ⟨15, 8⟩
def F.REQ_PRX_CFG.publish : Fld := ⟨0, 0⟩
def F.REQ_PRX_ROOT.model_tag : Fld := ⟨63, 0⟩
def F.REQ_PRX_SHARE.withdraw : Fld := ⟨63, 63⟩
def F.REQ_PRX_SHARE.slot : Fld := ⟨58, 56⟩
def F.REQ_PRX_SHARE.node : Fld := ⟨23, 0⟩
def F.REQ_CLASS.max_slots : Fld := ⟨63, 48⟩
def F.REQ_CLASS.abort_on_deadline : Fld := ⟨45, 45⟩
def F.REQ_CLASS.min_lead_us : Fld := ⟨31, 0⟩
def F.REQ_UNPARK.slot : Fld := ⟨13, 0⟩
def F.REQ_SLOT_SEL.slot : Fld := ⟨13, 0⟩
def F.REQ_RELEASE.slot : Fld := ⟨13, 0⟩
def F.REQ_MOVE_BASE.valid : Fld := ⟨63, 63⟩
def F.REQ_MOVE_BASE.addr : Fld := ⟨19, 0⟩
def F.REQ_STEP_START.tick : Fld := ⟨47, 0⟩
def F.REQ_SLOT_DATA.data : Fld := ⟨63, 0⟩
def F.REQ_RING_SEL.ring : Fld := ⟨15, 0⟩
def F.REQ_RING_CTX.data : Fld := ⟨63, 0⟩
def F.PRX_KEY_LO.key : Fld := ⟨63, 0⟩
def F.PRX_KEY_HI.key : Fld := ⟨63, 0⟩
def F.PRX_SHARE_KEY_LO.key : Fld := ⟨63, 0⟩
def F.PRX_SHARE_KEY_HI.key : Fld := ⟨63, 0⟩
def F.PRX_SHARE_CFG.valid : Fld := ⟨63, 63⟩
def F.PRX_SHARE_CFG.node_log : Fld := ⟨53, 48⟩
def F.PRX_SHARE_CFG.bucket_log : Fld := ⟨45, 40⟩
def F.PRX_SHARE_CFG.owner : Fld := ⟨36, 32⟩
def F.PRX_SHARE_CFG.readers : Fld := ⟨31, 0⟩
def F.PRX_SHARE_BASE.base : Fld := ⟨47, 0⟩
def F.XRT_ENG_STATUS.busy : Fld := ⟨8, 8⟩
def F.XRT_ENG_STATUS.context : Fld := ⟨3, 0⟩
def F.XRT_CTX_LAYER_BASE.layers : Fld := ⟨40, 32⟩
def F.XRT_CTX_LAYER_BASE.addr : Fld := ⟨19, 0⟩
def F.XRT_CTX_ROUTERS.first : Fld := ⟨41, 32⟩
def F.XRT_CTX_ROUTERS.rows_per_tile : Fld := ⟨31, 16⟩
def F.XRT_CTX_ROUTERS.count : Fld := ⟨4, 0⟩
def F.XRT_CTX_PLACEQ.size : Fld := ⟨38, 32⟩
def F.XRT_CTX_PLACEQ.base : Fld := ⟨19, 0⟩
def F.XRT_CTX_PLACE_TAIL.tail : Fld := ⟨31, 0⟩
def F.XRT_CTX_PLACE_HEAD.started : Fld := ⟨63, 32⟩
def F.XRT_CTX_PLACE_HEAD.done : Fld := ⟨31, 0⟩
def F.XRT_CTX_STATUS.status : Fld := ⟨63, 56⟩
def F.XRT_CTX_STATUS.layer : Fld := ⟨40, 32⟩
def F.XRT_CTX_STATUS.waiting : Fld := ⟨0, 0⟩
def F.XRT_CTX_SNAP.enable : Fld := ⟨63, 63⟩
def F.XRT_CTX_SNAP.snap_offset : Fld := ⟨19, 0⟩
def F.XRT_BIAS_CTRL.eta : Fld := ⟨63, 32⟩
def F.XRT_BIAS_CTRL.m : Fld := ⟨7, 0⟩
def F.XRT_BIAS_LIMIT.limit : Fld := ⟨31, 0⟩
def F.XRT_BIAS_READY.offset : Fld := ⟨18, 0⟩
def F.XRT_BIAS_STATE.seq : Fld := ⟨47, 16⟩
def F.XRT_BIAS_STATE.steps_since : Fld := ⟨15, 8⟩
def F.TILE_WB_SEL.frame : Fld := ⟨5, 0⟩
def F.TILE_WB_ENTRY.valid : Fld := ⟨63, 63⟩
def F.TILE_WB_ENTRY.wt : Fld := ⟨62, 62⟩
def F.TILE_WB_ENTRY.home_compressed : Fld := ⟨61, 61⟩
def F.TILE_WB_ENTRY.dirty : Fld := ⟨47, 32⟩
def F.TILE_WB_ENTRY.home : Fld := ⟨31, 0⟩
def F.TILE_WB_CMD.op : Fld := ⟨63, 62⟩
def F.TILE_WB_CMD.frame : Fld := ⟨53, 48⟩
def F.TILE_WB_CMD.sig_offset : Fld := ⟨18, 0⟩
def F.TILE_WB_STATUS.done : Fld := ⟨63, 32⟩
def F.TILE_WB_STATUS.queued : Fld := ⟨3, 0⟩
def F.GDC_SITE_CFG.position : Fld := ⟨15, 12⟩
def F.GDC_SITE_CFG.role : Fld := ⟨10, 8⟩
def F.GDC_SITE_CFG.device : Fld := ⟨1, 0⟩
def F.GDC_SITE_STATE.failed_channels : Fld := ⟨19, 16⟩
def F.GDC_SITE_STATE.state : Fld := ⟨3, 0⟩
def F.GDC_ECC_CTRL.chan_fail_limit : Fld := ⟨15, 8⟩
def F.GDC_ECC_CTRL.crc_retries : Fld := ⟨3, 0⟩
def F.GDC_ECC_LAST.kind : Fld := ⟨63, 62⟩
def F.GDC_ECC_LAST.channel : Fld := ⟨33, 32⟩
def F.GDC_ECC_LAST.sector : Fld := ⟨31, 0⟩
def F.GDC_SCRUB_CTRL.period_h : Fld := ⟨7, 0⟩
def F.GDC_HOLD_STATUS.held : Fld := ⟨9, 0⟩
def F.GDC_MIG_CTRL.start : Fld := ⟨63, 63⟩
def F.GDC_MIG_CTRL.abort : Fld := ⟨62, 62⟩
def F.GDC_MIG_CTRL.rate_pct : Fld := ⟨7, 0⟩
def F.GDC_MIG_STATUS.state : Fld := ⟨63, 62⟩
def F.GDC_MIG_STATUS.pointer : Fld := ⟨16, 0⟩
def F.GDC_COVER_CTRL.band : Fld := ⟨47, 42⟩
def F.GDC_COVER_CTRL.spread_base : Fld := ⟨41, 32⟩
def F.GDC_COVER_CTRL.enable : Fld := ⟨0, 0⟩
def F.GDC_COVER_STATUS.stale_units : Fld := ⟨63, 32⟩
def F.GDC_COVER_STATUS.state : Fld := ⟨1, 0⟩
def F.GDC_PHY_CFG.rate_gbps : Fld := ⟨7, 0⟩
def F.GDC_PHY_TRAIN_TICK.tick : Fld := ⟨47, 0⟩
def F.GDC_PHY_TRAIN_STATUS.temp_at_train : Fld := ⟨63, 56⟩
def F.GDC_PHY_TRAIN_STATUS.temp_now : Fld := ⟨55, 48⟩
def F.GDC_PHY_TRAIN_STATUS.fail_streak : Fld := ⟨7, 4⟩
def F.GDC_PHY_TRAIN_STATUS.last_result : Fld := ⟨1, 0⟩
def F.GDC_PHY_MARGIN.wr_margin : Fld := ⟨31, 16⟩
def F.GDC_PHY_MARGIN.rd_margin : Fld := ⟨15, 0⟩
def F.GDC_PHY_RETRAIN.temp_delta : Fld := ⟨7, 0⟩
def F.FLC_CH_CFG.rate : Fld := ⟨23, 16⟩
def F.FLC_CH_CFG.planes : Fld := ⟨13, 12⟩
def F.FLC_CH_CFG.luns : Fld := ⟨9, 8⟩
def F.FLC_CH_CFG.targets : Fld := ⟨7, 0⟩
def F.FLC_CH_STATE.soft_waiting : Fld := ⟨15, 8⟩
def F.FLC_CH_STATE.state : Fld := ⟨2, 0⟩
def F.FLC_CH_WEAR.max_erase : Fld := ⟨63, 32⟩
def F.FLC_CH_WEAR.mean_erase : Fld := ⟨31, 0⟩
def F.FLC_CH_BLOCKS.bad : Fld := ⟨63, 32⟩
def F.FLC_CH_BLOCKS.free : Fld := ⟨31, 0⟩
def F.FLC_CH_SCAN.train_due : Fld := ⟨63, 63⟩
def F.FLC_CH_SCAN.pass_tick : Fld := ⟨47, 0⟩
def F.FLC_ENG_CFG.rate_limit : Fld := ⟨63, 48⟩
def F.FLC_ENG_CFG.refresh_bits : Fld := ⟨47, 32⟩
def F.FLC_ENG_CFG.wl_pct : Fld := ⟨31, 24⟩
def F.FLC_ENG_CFG.spare_warn : Fld := ⟨23, 16⟩
def F.FLC_ENG_CFG.scan_days : Fld := ⟨7, 0⟩
def F.FLC_ENG_STATUS.spare : Fld := ⟨63, 32⟩
def F.FLC_ENG_STATUS.read_only : Fld := ⟨1, 1⟩
def F.FLC_ENG_STATUS.map_ready : Fld := ⟨0, 0⟩
def F.FLC_MAP_CFG.width : Fld := ⟨61, 60⟩
def F.FLC_MAP_CFG.place : Fld := ⟨51, 48⟩
def F.FLC_MAP_CFG.slice : Fld := ⟨41, 32⟩
def F.FLC_MAP_CFG.slices : Fld := ⟨31, 0⟩
def F.FLC_NS.valid : Fld := ⟨63, 63⟩
def F.FLC_NS.size : Fld := ⟨48, 32⟩
def F.FLC_NS.base : Fld := ⟨16, 0⟩
def F.FLC_BUDGET.dwpd : Fld := ⟨63, 48⟩
def F.FLC_BUDGET.credit : Fld := ⟨47, 0⟩
def F.FLC_DEC_STATUS.soft : Fld := ⟨8, 8⟩
def F.FLC_DEC_STATUS.level : Fld := ⟨7, 4⟩
def F.FLC_DEC_STATUS.channel : Fld := ⟨3, 0⟩
def F.PRT_FLQ_CFG.size : Fld := ⟨40, 32⟩
def F.PRT_FLQ_CFG.base : Fld := ⟨19, 0⟩
def F.PRT_FLQ_TAIL.tail : Fld := ⟨31, 0⟩
def F.PRT_FLQ_HEAD.started : Fld := ⟨63, 32⟩
def F.PRT_FLQ_HEAD.done : Fld := ⟨31, 0⟩
def F.BIN_PORT_CTRL.roce_prio : Fld := ⟨42, 40⟩
def F.BIN_PORT_CTRL.dscp : Fld := ⟨37, 32⟩
def F.BIN_PORT_CTRL.pmtu : Fld := ⟨1, 0⟩
def F.BIN_PORT_MAC.mac : Fld := ⟨47, 0⟩
def F.BIN_PORT_IP4.addr : Fld := ⟨31, 0⟩
def F.BIN_PORT_IP6_LO.addr : Fld := ⟨63, 0⟩
def F.BIN_PORT_IP6_HI.addr : Fld := ⟨63, 0⟩
def F.BIN_PORT_STATUS.link : Fld := ⟨1, 0⟩
def F.BIN_ENG_CFG.chunk_timeout_ms : Fld := ⟨31, 16⟩
def F.BIN_ENG_CFG.key_timeout_s : Fld := ⟨15, 0⟩
def F.BIN_ENG_STATUS.keys : Fld := ⟨23, 16⟩
def F.BIN_ENG_STATUS.streams : Fld := ⟨6, 0⟩
def F.BIN_SLOT_SEL.kind : Fld := ⟨7, 7⟩
def F.BIN_SLOT_SEL.slot : Fld := ⟨6, 0⟩
def F.BIN_SLOT_INFO.valid : Fld := ⟨63, 63⟩
def F.BIN_SLOT_INFO.owner : Fld := ⟨36, 32⟩
def F.BIN_SLOT_INFO.mslot : Fld := ⟨31, 28⟩
def F.BIN_SLOT_INFO.shard : Fld := ⟨27, 0⟩
def F.BIN_SLOT_DIGEST.digest : Fld := ⟨63, 0⟩
def F.BIN_QP_SEL.qp : Fld := ⟨5, 0⟩
def F.BIN_QP_CTX.data : Fld := ⟨63, 0⟩
def F.BIN_BASE_ACTIVE.slot : Fld := ⟨0, 0⟩
def F.BIN_BASE.state : Fld := ⟨63, 61⟩
def F.BIN_BASE.resident : Fld := ⟨60, 60⟩
def F.BIN_BASE.discard : Fld := ⟨59, 59⟩
def F.BIN_BASE.mslot : Fld := ⟨55, 52⟩
def F.BIN_BASE.owner : Fld := ⟨36, 32⟩
def F.BIN_BASE.readers : Fld := ⟨31, 0⟩
def F.BIN_SWAP_REC.tick : Fld := ⟨47, 0⟩
def F.BIN_SWAP_STATE.slot : Fld := ⟨32, 32⟩
def F.BIN_SWAP_STATE.phase : Fld := ⟨1, 0⟩
def F.TED_STATUS.busy : Fld := ⟨8, 8⟩
def F.TED_STATUS.partition : Fld := ⟨4, 0⟩
def F.TED_FILL_LAST.status : Fld := ⟨63, 56⟩
def F.TED_FILL_LAST.partition : Fld := ⟨36, 32⟩
def F.TED_FILL_LAST.tile : Fld := ⟨9, 0⟩
def F.PRT_LDQ_CFG.size : Fld := ⟨38, 32⟩
def F.PRT_LDQ_CFG.base : Fld := ⟨19, 0⟩
def F.PRT_LDQ_TAIL.tail : Fld := ⟨31, 0⟩
def F.PRT_LDQ_HEAD.started : Fld := ⟨63, 32⟩
def F.PRT_LDQ_HEAD.done : Fld := ⟨31, 0⟩
def F.PRT_TDQ_CFG.size : Fld := ⟨44, 32⟩
def F.PRT_TDQ_CFG.base : Fld := ⟨19, 0⟩
def F.PRT_TDQ_TAIL.tail : Fld := ⟨31, 0⟩
def F.PRT_TDQ_HEAD.started : Fld := ⟨63, 32⟩
def F.PRT_TDQ_HEAD.done : Fld := ⟨31, 0⟩
def F.REQ_ADP_ARG.data : Fld := ⟨63, 0⟩
def F.REQ_ADP_CMD.op : Fld := ⟨63, 60⟩
def F.REQ_ADP_CMD.number : Fld := ⟨31, 16⟩
def F.REQ_ADP_CMD.version : Fld := ⟨15, 0⟩
def F.REQ_ADP_STATUS.result : Fld := ⟨63, 56⟩
def F.REQ_ADP_STATUS.entries : Fld := ⟨12, 0⟩
def F.PORT_CTRL.ring_pct : Fld := ⟨55, 48⟩
def F.PORT_CTRL.retry_limit : Fld := ⟨47, 40⟩
def F.PORT_CTRL.retrain_limit : Fld := ⟨39, 32⟩
def F.PORT_CTRL.replay_timeout : Fld := ⟨31, 16⟩
def F.PORT_CTRL.spare_auto : Fld := ⟨2, 2⟩
def F.PORT_CTRL.width_fallback : Fld := ⟨1, 1⟩
def F.PORT_CTRL.enable : Fld := ⟨0, 0⟩
def F.PORT_STATUS.spare_for : Fld := ⟨47, 44⟩
def F.PORT_STATUS.spare_state : Fld := ⟨43, 42⟩
def F.PORT_STATUS.failed_lanes : Fld := ⟨40, 32⟩
def F.PORT_STATUS.width : Fld := ⟨11, 8⟩
def F.PORT_STATUS.state : Fld := ⟨2, 0⟩
def F.LINK_DELAY.delay : Fld := ⟨31, 0⟩
def F.VL_CREDIT.vl : Fld := ⟨63, 0⟩
def F.VL_ARB.q5 : Fld := ⟨39, 32⟩
def F.VL_ARB.q4 : Fld := ⟨31, 24⟩
def F.VL_ARB.q3 : Fld := ⟨23, 16⟩
def F.VL_ARB.q2 : Fld := ⟨15, 8⟩
def F.VL_ARB.q1 : Fld := ⟨7, 0⟩
def F.FAB_QUENCHED.parts : Fld := ⟨31, 0⟩
def F.FAB_QUENCH_CLEAR.parts : Fld := ⟨31, 0⟩
def F.FAB_CMD_SEQ.seq : Fld := ⟨63, 0⟩
def F.FAB_CMD_KEY.key : Fld := ⟨63, 0⟩
def F.FAB_PUT_CFG.put_timeout_us : Fld := ⟨15, 0⟩
def F.BMS_TRANSIT.transit_pct : Fld := ⟨7, 0⟩
def F.BMS_BOARD.height_m1 : Fld := ⟨13, 12⟩
def F.BMS_BOARD.width_m1 : Fld := ⟨9, 8⟩
def F.BMS_BOARD.by_ : Fld := ⟨5, 4⟩
def F.BMS_BOARD.bx : Fld := ⟨1, 0⟩
def F.BMS_ADDR_MODE.board_mode : Fld := ⟨31, 0⟩
def F.BMS_POS.valid : Fld := ⟨63, 63⟩
def F.BMS_POS.fabric : Fld := ⟨11, 0⟩
def F.PRT_CLQ_CFG.size : Fld := ⟨40, 32⟩
def F.PRT_CLQ_CFG.base : Fld := ⟨19, 0⟩
def F.PRT_CLQ_TAIL.tail : Fld := ⟨31, 0⟩
def F.PRT_CLQ_HEAD.started : Fld := ⟨63, 32⟩
def F.PRT_CLQ_HEAD.done : Fld := ⟨31, 0⟩
def F.PRT_COL_CTRL.rereq_limit : Fld := ⟨39, 32⟩
def F.PRT_COL_CTRL.col_timeout_us : Fld := ⟨31, 0⟩
def F.PRT_COL_ABORT.abort : Fld := ⟨63, 0⟩
def F.PRT_COL_STATUS.last_status : Fld := ⟨63, 56⟩
def F.PRT_COL_STATUS.last_group : Fld := ⟨55, 44⟩
def F.PRT_COL_STATUS.last_seq : Fld := ⟨43, 12⟩
def F.PRT_COL_STATUS.open_ : Fld := ⟨8, 0⟩
def F.HAY_STATUS.cores : Fld := ⟨1, 0⟩
def F.HAY_VLOG_HEAD.written : Fld := ⟨31, 0⟩
def F.HAY_VLOG_TAIL.read : Fld := ⟨31, 0⟩
def F.HAY_CONFLICT.kind : Fld := ⟨35, 32⟩
def F.HAY_CONFLICT.index : Fld := ⟨31, 0⟩
def F.HAY_CORE.allowed : Fld := ⟨63, 32⟩
def F.HAY_CORE.role : Fld := ⟨9, 8⟩
def F.HAY_CORE.act_valid : Fld := ⟨5, 5⟩
def F.HAY_CORE.act : Fld := ⟨4, 0⟩
def F.HAY_GMAP_SEL.partition : Fld := ⟨14, 10⟩
def F.HAY_GMAP_SEL.entry : Fld := ⟨9, 0⟩
def F.HAY_GMAP_DATA.entry : Fld := ⟨63, 0⟩
def F.HAY_GMAP_COMMIT.parts : Fld := ⟨31, 0⟩
def F.HAY_GMAP_ACTIVE.entry : Fld := ⟨63, 0⟩
def F.HAY_GMAP_STATUS.copying : Fld := ⟨0, 0⟩
def F.HAY_ZERO_STATUS.hub_units : Fld := ⟨63, 32⟩
def F.HAY_ZERO_STATUS.granules : Fld := ⟨31, 0⟩
def F.SEC_BOOT_STATUS.boot_count : Fld := ⟨63, 32⟩
def F.SEC_BOOT_STATUS.debug_open : Fld := ⟨17, 17⟩
def F.SEC_BOOT_STATUS.identity_mismatch : Fld := ⟨16, 16⟩
def F.SEC_BOOT_STATUS.stage : Fld := ⟨15, 8⟩
def F.SEC_BOOT_STATUS.result : Fld := ⟨7, 0⟩
def F.SEC_LIFECYCLE.state : Fld := ⟨1, 0⟩
def F.SEC_MEAS_SEL.index : Fld := ⟨3, 0⟩
def F.SEC_MEAS.data : Fld := ⟨63, 0⟩
def F.SEC_FLOOR_SEL.kind : Fld := ⟨2, 0⟩
def F.SEC_FLOOR.running : Fld := ⟨63, 32⟩
def F.SEC_FLOOR.floor : Fld := ⟨31, 0⟩
def F.SEC_CMD.op : Fld := ⟨63, 56⟩
def F.SEC_CMD.space : Fld := ⟨49, 48⟩
def F.SEC_CMD.arg : Fld := ⟨47, 0⟩
def F.SEC_CMD_STATUS.result : Fld := ⟨63, 56⟩
def F.SEC_CMD_STATUS.busy : Fld := ⟨0, 0⟩
def F.SEC_MGMT_SEQ.seq : Fld := ⟨63, 0⟩
def F.SEC_MGMT_PORT.port : Fld := ⟨15, 0⟩
def F.PRT_CTRL.valid : Fld := ⟨63, 63⟩
def F.PRT_CTRL.spread : Fld := ⟨62, 62⟩
def F.PRT_CTRL.stop : Fld := ⟨61, 61⟩
def F.PRT_CTRL.state : Fld := ⟨2, 0⟩
def F.PRT_KEY.key : Fld := ⟨63, 0⟩
def F.PRT_RINGS.count : Fld := ⟨48, 32⟩
def F.PRT_RINGS.base : Fld := ⟨15, 0⟩
def F.PRT_SLOTS.count : Fld := ⟨46, 32⟩
def F.PRT_SLOTS.base : Fld := ⟨13, 0⟩
def F.PRT_QUOTA.tokens : Fld := ⟨63, 32⟩
def F.PRT_QUOTA.adapters : Fld := ⟨12, 0⟩
def F.PRT_LEASE.entries : Fld := ⟨17, 0⟩
def F.PRT_VLCAP.vl4 : Fld := ⟨31, 24⟩
def F.PRT_VLCAP.vl3 : Fld := ⟨23, 16⟩
def F.PRT_VLCAP.vl2 : Fld := ⟨15, 8⟩
def F.PRT_VLCAP.vl1 : Fld := ⟨7, 0⟩
def F.PRT_HUBMEM.count : Fld := ⟨40, 32⟩
def F.PRT_HUBMEM.base : Fld := ⟨7, 0⟩
def F.PRT_TILES.tiles : Fld := ⟨63, 0⟩
def F.PRT_HAY_MBOX.addr : Fld := ⟨19, 0⟩
def F.PRT_HAY_CALL.call : Fld := ⟨63, 0⟩
def F.PWR_VF_CTRL.declared_step : Fld := ⟨15, 8⟩
def F.PWR_VF_CTRL.boost : Fld := ⟨0, 0⟩
def F.PWR_CAP.boost_margin_w : Fld := ⟨31, 16⟩
def F.PWR_CAP.cap_w : Fld := ⟨15, 0⟩
def F.PWR_CURB_CAP.level3_w : Fld := ⟨47, 32⟩
def F.PWR_CURB_CAP.level2_w : Fld := ⟨31, 16⟩
def F.PWR_CURB_CAP.level1_w : Fld := ⟨15, 0⟩
def F.PWR_STATUS.s_cap : Fld := ⟨55, 48⟩
def F.PWR_STATUS.step_q3 : Fld := ⟨47, 40⟩
def F.PWR_STATUS.step_q2 : Fld := ⟨39, 32⟩
def F.PWR_STATUS.step_q1 : Fld := ⟨31, 24⟩
def F.PWR_STATUS.step_q0 : Fld := ⟨23, 16⟩
def F.PWR_STATUS.divided : Fld := ⟨15, 12⟩
def F.PWR_STATUS.curb_level : Fld := ⟨11, 10⟩
def F.PWR_STATUS.walking : Fld := ⟨9, 9⟩
def F.PWR_STATUS.cap_unmet : Fld := ⟨8, 8⟩
def F.PWR_STATUS.below_declared : Fld := ⟨7, 7⟩
def F.PWR_STATUS.vin_low : Fld := ⟨6, 6⟩
def F.PWR_INPUT.avg_mw : Fld := ⟨63, 32⟩
def F.PWR_INPUT.vin_10mv : Fld := ⟨31, 16⟩
def F.PWR_ENERGY.uj : Fld := ⟨63, 0⟩
def F.PWR_STAGE_STATUS.failed : Fld := ⟨27, 0⟩
def F.PWR_STAGE_STATUS2.failed : Fld := ⟨11, 0⟩
def F.PWR_DROOP_CFG.threshold_mv : Fld := ⟨15, 8⟩
def F.PWR_DROOP_CFG.min_stretch : Fld := ⟨7, 0⟩
def F.PWR_THERM_CFG.throttle_c : Fld := ⟨31, 24⟩
def F.PWR_THERM_CFG.boost_c : Fld := ⟨23, 16⟩
def F.PWR_THERM_CFG.hyst_c : Fld := ⟨15, 8⟩
def F.PWR_THERM_CFG.throttle_steps : Fld := ⟨7, 0⟩
def F.PWR_THERM_Q.hottest_c : Fld := ⟨63, 56⟩
def F.PWR_THERM_Q.hottest_tile : Fld := ⟨55, 48⟩
def F.PWR_THERM_Q.limit_step : Fld := ⟨47, 40⟩
def F.PWR_THERM_Q.bad_sensors : Fld := ⟨39, 32⟩
def F.PWR_THERM_Q.throttled : Fld := ⟨1, 1⟩
def F.PWR_THERM_Q.no_boost : Fld := ⟨0, 0⟩
def F.PWR_SENSOR_SEL.sensor : Fld := ⟨9, 0⟩
def F.PWR_SENSOR.temp : Fld := ⟨31, 16⟩
def F.PWR_SENSOR.trim : Fld := ⟨15, 8⟩
def F.PWR_SENSOR.bad : Fld := ⟨1, 1⟩
def F.PWR_SENSOR.calibrated : Fld := ⟨0, 0⟩
def F.PWR_TRIP.tripped : Fld := ⟨63, 63⟩
def F.PWR_TRIP.tick : Fld := ⟨47, 0⟩
def F.HAY_RESET.op : Fld := ⟨63, 56⟩
def F.HAY_RESET.target : Fld := ⟨9, 0⟩
def F.HAY_RESET_STATUS.cause : Fld := ⟨63, 56⟩
def F.HAY_RESET_STATUS.refused : Fld := ⟨1, 1⟩
def F.HAY_RESET_STATUS.busy : Fld := ⟨0, 0⟩
def F.PRT_FAULT_CTRL.replay_limit : Fld := ⟨7, 0⟩
def F.PRT_FAULT_STATUS.replay_exhausted : Fld := ⟨7, 7⟩
def F.PRT_FAULT_STATUS.recovering : Fld := ⟨6, 6⟩
def F.PRT_FAULT_STATUS.replays : Fld := ⟨3, 0⟩
def F.PRT_MIRROR.valid : Fld := ⟨63, 63⟩
def F.PRT_MIRROR.frozen : Fld := ⟨62, 62⟩
def F.PRT_MIRROR.log_size : Fld := ⟨61, 56⟩
def F.PRT_MIRROR.source : Fld := ⟨55, 44⟩
def F.PRT_MIRROR.base : Fld := ⟨31, 0⟩
def F.PRT_KV_REBUILD.from_ : Fld := ⟨63, 32⟩
def F.PRT_KV_REBUILD.slot : Fld := ⟨13, 0⟩
def F.PRT_STEP_ABANDON.abandon : Fld := ⟨63, 0⟩
def F.PRT_RECOVER_CMD.failover : Fld := ⟨63, 63⟩
def F.PRT_RECOVER_CMD.table : Fld := ⟨19, 0⟩
def F.PRT_RECOVER_STATUS.result : Fld := ⟨63, 56⟩
def F.PRT_RECOVER_STATUS.last_seq : Fld := ⟨47, 0⟩
def F.CNT_SNAP_TICK.every : Fld := ⟨63, 48⟩
def F.CNT_SNAP_TICK.tick : Fld := ⟨47, 0⟩
def F.CNT_SNAP_DEST.valid : Fld := ⟨63, 63⟩
def F.CNT_SNAP_DEST.whole : Fld := ⟨62, 62⟩
def F.CNT_SNAP_DEST.partition : Fld := ⟨60, 56⟩
def F.CNT_SNAP_DEST.k_m1 : Fld := ⟨55, 52⟩
def F.CNT_SNAP_DEST.addr : Fld := ⟨47, 0⟩
def F.CNT_SNAP_SIZE.size : Fld := ⟨31, 0⟩
def F.CNT_SNAP_SIG.hub : Fld := ⟨22, 21⟩
def F.CNT_SNAP_SIG.offset : Fld := ⟨20, 0⟩
def F.CNT_HAY_REGION.width : Fld := ⟨61, 60⟩
def F.CNT_HAY_REGION.place : Fld := ⟨51, 48⟩
def F.CNT_HAY_REGION.slice : Fld := ⟨41, 32⟩
def F.CNT_HAY_REGION.slices : Fld := ⟨31, 0⟩
def F.CNT_CHAIN.valid : Fld := ⟨63, 63⟩
def F.CNT_CHAIN.page : Fld := ⟨31, 16⟩
def F.CNT_CHAIN.high : Fld := ⟨15, 8⟩
def F.CNT_CHAIN.low : Fld := ⟨7, 0⟩
def F.CNT_THR_SRC.enable : Fld := ⟨63, 63⟩
def F.CNT_THR_SRC.page : Fld := ⟨31, 16⟩
def F.CNT_THR_SRC.code : Fld := ⟨7, 0⟩
def F.CNT_THR_N.n : Fld := ⟨15, 0⟩
def F.MGT_PORT_CTRL.fec : Fld := ⟨7, 6⟩
def F.MGT_PORT_CTRL.an_enable : Fld := ⟨1, 1⟩
def F.MGT_PORT_CTRL.enable : Fld := ⟨0, 0⟩
def F.MGT_PORT_STATUS.fec_in_use : Fld := ⟨5, 4⟩
def F.MGT_PORT_STATUS.link : Fld := ⟨1, 0⟩
def F.MGT_PORT_MAC.mac : Fld := ⟨47, 0⟩
def F.MGT_PORT_IP4.addr : Fld := ⟨31, 0⟩
def F.MGT_PORT_IP6_LO.addr : Fld := ⟨63, 0⟩
def F.MGT_PORT_IP6_HI.addr : Fld := ⟨63, 0⟩
def F.MGT_PORT_VLAN.tagged : Fld := ⟨12, 12⟩
def F.MGT_PORT_VLAN.vid : Fld := ⟨11, 0⟩
def F.TIM_STEP.running : Fld := ⟨63, 63⟩
def F.TIM_STEP.step : Fld := ⟨47, 0⟩
def F.PRT_ENERGY.uj : Fld := ⟨63, 0⟩

def C.TILE_CNT_MATRIX_BUSY (p : Nat) : Nat := regA .tile p 0x800
def C.TILE_CNT_WBUF_WAIT (p : Nat) : Nat := regA .tile p 0x808
def C.TILE_CNT_WBUF_BLOCKED (p : Nat) : Nat := regA .tile p 0x810
def C.TILE_CNT_SRAM_CE (p : Nat) : Nat := regA .tile p 0x818
def C.TILE_CNT_BYTES_PORT (p : Nat) (i : Nat) : Nat := regA .tile p 0x820 + 8 * i
def C.TILE_CNT_STALL_PORT (p : Nat) (i : Nat) : Nat := regA .tile p 0x850 + 8 * i
def C.TILE_CNT_CREDIT_PORT (p : Nat) (i : Nat) : Nat := regA .tile p 0x880 + 8 * i
def C.TILE_CNT_Q_NAN (p : Nat) : Nat := regA .tile p 0x8b0
def C.TILE_CNT_SIDE_DROP (p : Nat) : Nat := regA .tile p 0x8b8
def C.TILE_CNT_SCALE_RSVD (p : Nat) : Nat := regA .tile p 0x8c0
def C.TILE_CNT_H2T_BAD (p : Nat) : Nat := regA .tile p 0x8c8
def C.TILE_CNT_H8F_BAD_IN (p : Nat) : Nat := regA .tile p 0x8d0
def C.TILE_CNT_QS_TABLE_WAIT (p : Nat) : Nat := regA .tile p 0x8d8
def C.TILE_CNT_WIDE_SHORT (p : Nat) : Nat := regA .tile p 0x8e0
def C.TILE_CNT_QS_BLOCKS (p : Nat) (i : Nat) : Nat := regA .tile p 0x900 + 64 * i
def C.TILE_CNT_QS_FLUSHED (p : Nat) (i : Nat) : Nat := regA .tile p 0x908 + 64 * i
def C.TILE_CNT_QS_SATBLK (p : Nat) (i : Nat) : Nat := regA .tile p 0x910 + 64 * i
def C.TILE_CNT_QS_SATELEM (p : Nat) (i : Nat) : Nat := regA .tile p 0x918 + 64 * i
def C.TILE_CNT_QS_ZEROELEM (p : Nat) (i : Nat) : Nat := regA .tile p 0x920 + 64 * i
def C.TILE_CNT_OUTLIER (p : Nat) (i : Nat) : Nat := regA .tile p 0x928 + 64 * i
def C.TILE_CNT_OUTLIER_OVF (p : Nat) (i : Nat) : Nat := regA .tile p 0x930 + 64 * i
def C.TILE_CNT_WIDEN (p : Nat) (i : Nat) : Nat := regA .tile p 0x938 + 64 * i
def C.TILE_CNT_OP_RETIRED (p : Nat) : Nat := regA .tile p 0xd00
def C.TILE_CNT_OP_HAZARD_WAIT (p : Nat) : Nat := regA .tile p 0xd08
def C.TILE_CNT_OP_WAIT_SIG (p : Nat) : Nat := regA .tile p 0xd10
def C.TILE_CNT_OP_EMPTY (p : Nat) : Nat := regA .tile p 0xd18
def C.TILE_CNT_OP_ERR (p : Nat) : Nat := regA .tile p 0xd20
def C.TILE_CNT_OPQ_REFUSED (p : Nat) : Nat := regA .tile p 0xd28
def C.TILE_CNT_VEC_BUSY (p : Nat) : Nat := regA .tile p 0xd30
def C.TILE_CNT_VEC_NAN (p : Nat) : Nat := regA .tile p 0xd38
def C.TILE_CNT_IDX_SKIP (p : Nat) : Nat := regA .tile p 0xd40
def C.TILE_CNT_IDX_RANGE (p : Nat) : Nat := regA .tile p 0xd48
def C.TILE_CNT_SEL_NAN (p : Nat) : Nat := regA .tile p 0xd50
def C.TILE_CNT_SAMPLE_ROWS (p : Nat) : Nat := regA .tile p 0xd58
def C.TILE_CNT_SAMPLE_BAD (p : Nat) : Nat := regA .tile p 0xdf8
def C.TILE_CNT_ATTN_BUSY (p : Nat) : Nat := regA .tile p 0xd60
def C.TILE_CNT_ATTN_BLOCKS (p : Nat) : Nat := regA .tile p 0xd68
def C.TILE_CNT_ATTN_RESCALE (p : Nat) : Nat := regA .tile p 0xd70
def C.TILE_CNT_ATTN_NONFINITE (p : Nat) : Nat := regA .tile p 0xd78
def C.TILE_CNT_ATTN_EMPTY (p : Nat) : Nat := regA .tile p 0xd80
def C.TILE_CNT_WALK_HIT (p : Nat) : Nat := regA .tile p 0xd88
def C.TILE_CNT_WALK_MISS_HUB (p : Nat) : Nat := regA .tile p 0xd90
def C.TILE_CNT_WALK_MISS_GDDR (p : Nat) : Nat := regA .tile p 0xd98
def C.TILE_CNT_WALK_FULL_WAIT (p : Nat) : Nat := regA .tile p 0xda0
def C.TILE_CNT_WALK_CHECK (p : Nat) : Nat := regA .tile p 0xda8
def C.TILE_CNT_WALK_TIER (p : Nat) : Nat := regA .tile p 0xdb0
def C.TILE_CNT_ATTN_DATA_WAIT (p : Nat) : Nat := regA .tile p 0xe00
def C.TILE_CNT_WB_SECTORS (p : Nat) : Nat := regA .tile p 0xdb8
def C.TILE_CNT_WB_BYTES (p : Nat) : Nat := regA .tile p 0xdc0
def C.TILE_CNT_WB_LOAD_BYTES (p : Nat) : Nat := regA .tile p 0xdc8
def C.TILE_CNT_WB_HOLD (p : Nat) : Nat := regA .tile p 0xdd0
def C.TILE_CNT_WB_RAW (p : Nat) : Nat := regA .tile p 0xdd8
def C.TILE_CNT_WB_REFUSED (p : Nat) : Nat := regA .tile p 0xde0
def C.TILE_CNT_DROOP (p : Nat) : Nat := regA .tile p 0xde8
def C.TILE_CNT_STRETCH (p : Nat) : Nat := regA .tile p 0xdf0
def C.MESH_CNT_HOLD : Nat := regA .mesh 0 0x800
def C.MESH_CNT_UNROUTABLE : Nat := regA .mesh 0 0x808
def C.MESH_CNT_DETOUR : Nat := regA .mesh 0 0x810
def C.MESH_CNT_WAYPOINT : Nat := regA .mesh 0 0x818
def C.TIM_CNT_SYNC_RX : Nat := regA .tim 0 0x800
def C.TIM_CNT_BEACON_RX : Nat := regA .tim 0 0x808
def C.TIM_CNT_BEACON_REJECT : Nat := regA .tim 0 0x810
def C.TIM_CNT_HOLDOVER_US : Nat := regA .tim 0 0x818
def C.TIM_CNT_TICKS : Nat := regA .tim 1 0x800
def C.TIM_CNT_LATE_STAGE : Nat := regA .tim 1 0x808
def C.TIM_CNT_GLEAN_OPENED : Nat := regA .tim 3 0x800
def C.TIM_CNT_GLEAN_REFUSED : Nat := regA .tim 3 0x808
def C.TIM_CNT_GLEAN_SKIPPED : Nat := regA .tim 3 0x810
def C.TIM_CNT_GLEAN_ABANDONED : Nat := regA .tim 3 0x818
def C.REQ_CNT_DBL_REFUSED : Nat := regA .req 0 0x800
def C.REQ_CNT_DBL_BAD : Nat := regA .req 0 0x808
def C.REQ_CNT_RING_OVERRUN : Nat := regA .req 0 0x810
def C.REQ_CNT_ADMIT_WAIT : Nat := regA .req 0 0x818
def C.REQ_CNT_RC_FULL : Nat := regA .req 0 0x820
def C.REQ_CNT_LEASE_DEFER : Nat := regA .req 0 0x828
def C.REQ_CNT_COW : Nat := regA .req 0 0x830
def C.REQ_CNT_COW_NOFRAME : Nat := regA .req 0 0x838
def C.REQ_CNT_FRAME_DEFERRED : Nat := regA .req 0 0x840
def C.REQ_CNT_SLOT_CHECK : Nat := regA .req 0 0x848
def C.RING_ENG_IN (i : Nat) : Nat := regA .req 0 0x900 + 32 * i
def C.RING_ENG_OUT (i : Nat) : Nat := regA .req 0 0x908 + 32 * i
def C.RING_ENG_STALL (i : Nat) : Nat := regA .req 0 0x910 + 32 * i
def C.RING_ENG_CREDIT (i : Nat) : Nat := regA .req 0 0x918 + 32 * i
def C.REQ_CNT_ADMITTED (p : Nat) : Nat := regA .req (1 + p) 0x800
def C.REQ_CNT_REFUSED (p : Nat) : Nat := regA .req (1 + p) 0x808
def C.REQ_CNT_ADMIT_OVER_1MS (p : Nat) : Nat := regA .req (1 + p) 0x810
def C.REQ_CNT_STEPS (p : Nat) : Nat := regA .req (1 + p) 0x818
def C.REQ_CNT_ROLLBACKS (p : Nat) : Nat := regA .req (1 + p) 0x820
def C.REQ_CNT_TOKENS (p : Nat) : Nat := regA .req (1 + p) 0x828
def C.REQ_CNT_DRAFT_REJECTED (p : Nat) : Nat := regA .req (1 + p) 0x830
def C.REQ_CNT_CANCELLED (p : Nat) : Nat := regA .req (1 + p) 0x838
def C.REQ_CNT_CANCEL_LATE (p : Nat) : Nat := regA .req (1 + p) 0x840
def C.REQ_CNT_CANCEL_STALE (p : Nat) : Nat := regA .req (1 + p) 0x848
def C.REQ_CNT_DEADLINE_MISSED (p : Nat) : Nat := regA .req (1 + p) 0x850
def C.REQ_CNT_PARKED (p : Nat) : Nat := regA .req (1 + p) 0x858
def C.REQ_CNT_BATCH_SKIP_BUDGET (p : Nat) : Nat := regA .req (1 + p) 0x860
def C.REQ_CNT_BATCH_SKIP_RING (p : Nat) : Nat := regA .req (1 + p) 0x868
def C.REQ_CNT_NOFRAME (p : Nat) : Nat := regA .req (1 + p) 0x870
def C.REQ_CNT_COMMIT_REFUSED (p : Nat) : Nat := regA .req (1 + p) 0x878
def C.REQ_CNT_PUBLISH_WAIT (p : Nat) : Nat := regA .req (1 + p) 0x880
def C.REQ_CNT_JRNL_FULL_WAIT (p : Nat) : Nat := regA .req (1 + p) 0x888
def C.REQ_CNT_PRX_REUSED (p : Nat) : Nat := regA .req (1 + p) 0x890
def C.REQ_CNT_LATE_START (p : Nat) : Nat := regA .req (1 + p) 0x8a8
def C.REQ_CNT_ADP_PINS (p : Nat) : Nat := regA .req (1 + p) 0x898
def C.REQ_CNT_ADP_RETIRED (p : Nat) : Nat := regA .req (1 + p) 0x8a0
def C.PRX_CNT_LOOKUP : Nat := regA .prx 0 0x800
def C.PRX_CNT_HIT_BLOCKS : Nat := regA .prx 0 0x808
def C.PRX_CNT_COLLISION : Nat := regA .prx 0 0x810
def C.PRX_CNT_INSERT : Nat := regA .prx 0 0x818
def C.PRX_CNT_BUCKET_FULL : Nat := regA .prx 0 0x820
def C.PRX_CNT_NODE_FULL : Nat := regA .prx 0 0x828
def C.PRX_CNT_EVICT : Nat := regA .prx 0 0x830
def C.PRX_CNT_CHECK : Nat := regA .prx 0 0x838
def C.XRT_ENG_CNT_BUSY (p : Nat) : Nat := regA .xrt p 0x800
def C.XRT_ENG_CNT_REQ (p : Nat) : Nat := regA .xrt p 0x808
def C.XRT_ENG_CNT_CHOICES (p : Nat) : Nat := regA .xrt p 0x810
def C.XRT_CNT_PLACE_REQ (p : Nat) : Nat := regA .xrt (4 + p) 0x800
def C.XRT_CNT_CHOICES (p : Nat) : Nat := regA .xrt (4 + p) 0x808
def C.XRT_CNT_PLACED (p : Nat) : Nat := regA .xrt (4 + p) 0x810
def C.XRT_CNT_SWEPT (p : Nat) : Nat := regA .xrt (4 + p) 0x818
def C.XRT_CNT_DROP_CAP (p : Nat) : Nat := regA .xrt (4 + p) 0x820
def C.XRT_CNT_DROP_TAIL (p : Nat) : Nat := regA .xrt (4 + p) 0x828
def C.XRT_CNT_PASS (p : Nat) : Nat := regA .xrt (4 + p) 0x830
def C.XRT_CNT_PARK_CHOICES (p : Nat) : Nat := regA .xrt (4 + p) 0x838
def C.XRT_CNT_PARK_TOKENS (p : Nat) : Nat := regA .xrt (4 + p) 0x840
def C.XRT_CNT_WEIGHT_BAD (p : Nat) : Nat := regA .xrt (4 + p) 0x848
def C.XRT_CNT_PLACE_ERR (p : Nat) : Nat := regA .xrt (4 + p) 0x850
def C.XRT_CNT_READY_WAIT (p : Nat) : Nat := regA .xrt (4 + p) 0x858
def C.XRT_CNT_BIAS_UPDATES (p : Nat) : Nat := regA .xrt (4 + p) 0x860
def C.XRT_CNT_BIAS_CLAMP (p : Nat) : Nat := regA .xrt (4 + p) 0x868
def C.XRT_CNT_QUEUE_REFUSED (p : Nat) : Nat := regA .xrt (4 + p) 0x870
def C.XRT_CNT_SNAP_CUT (p : Nat) : Nat := regA .xrt (4 + p) 0x878
def C.GDC_CNT_RD_BYTES (p : Nat) : Nat := regA .gdc p 0x800
def C.GDC_CNT_WR_BYTES (p : Nat) : Nat := regA .gdc p 0x808
def C.GDC_CNT_STALL (p : Nat) : Nat := regA .gdc p 0x810
def C.GDC_CNT_CREDIT (p : Nat) : Nat := regA .gdc p 0x818
def C.GDC_CNT_RMW (p : Nat) : Nat := regA .gdc p 0x820
def C.GDC_CNT_FULL_STRIPE (p : Nat) : Nat := regA .gdc p 0x828
def C.GDC_CNT_CRC_RETRY (p : Nat) : Nat := regA .gdc p 0x830
def C.GDC_CNT_ODECC_CE (p : Nat) : Nat := regA .gdc p 0x838
def C.GDC_CNT_RECON (p : Nat) : Nat := regA .gdc p 0x840
def C.GDC_CNT_UE (p : Nat) : Nat := regA .gdc p 0x848
def C.GDC_CNT_SCRUB_MISMATCH (p : Nat) : Nat := regA .gdc p 0x850
def C.GDC_CNT_GLEAN_HOLD (p : Nat) : Nat := regA .gdc p 0x858
def C.GDC_CNT_HOLD_FULL (p : Nat) : Nat := regA .gdc p 0x860
def C.GDC_CNT_MIG_BYTES (p : Nat) : Nat := regA .gdc p 0x868
def C.GDC_CNT_MIG_WRITE_WAIT (p : Nat) : Nat := regA .gdc p 0x870
def C.GDC_CNT_COVER_READS (p : Nat) : Nat := regA .gdc p 0x878
def C.GDC_CNT_COVER_CATCHUP (p : Nat) : Nat := regA .gdc p 0x880
def C.GDC_PHY_CNT_TRAIN (p : Nat) : Nat := regA .gdc (17 + p) 0x800
def C.GDC_PHY_CNT_TRAIN_FAIL (p : Nat) : Nat := regA .gdc (17 + p) 0x808
def C.GDC_PHY_CNT_RETRAIN_DUE (p : Nat) : Nat := regA .gdc (17 + p) 0x810
def C.FLC_CNT_RD_BYTES (p : Nat) : Nat := regA .flc p 0x800
def C.FLC_CNT_WR_BYTES (p : Nat) : Nat := regA .flc p 0x808
def C.FLC_CNT_CORR_BITS (p : Nat) : Nat := regA .flc p 0x810
def C.FLC_CNT_SOFT (p : Nat) : Nat := regA .flc p 0x818
def C.FLC_CNT_UE (p : Nat) : Nat := regA .flc p 0x820
def C.FLC_CNT_RX_FULL (p : Nat) : Nat := regA .flc p 0x828
def C.FLC_CNT_WBUF_WAIT (p : Nat) : Nat := regA .flc p 0x830
def C.FLC_CNT_GLEAN_HOLD (p : Nat) : Nat := regA .flc p 0x838
def C.FLC_CNT_SCAN_CW (p : Nat) : Nat := regA .flc p 0x840
def C.FLC_CNT_REFRESH (p : Nat) : Nat := regA .flc p 0x848
def C.FLC_CNT_RELOC_CW (p : Nat) : Nat := regA .flc p 0x850
def C.FLC_CNT_ERASES (p : Nat) : Nat := regA .flc p 0x858
def C.FLC_CNT_GROWN_BAD (p : Nat) : Nat := regA .flc p 0x860
def C.FLC_CNT_STALL (p : Nat) : Nat := regA .flc p 0x868
def C.FLC_CNT_CREDIT (p : Nat) : Nat := regA .flc p 0x870
def C.FLC_DEC_CNT_HARD (p : Nat) : Nat := regA .flc (16 + p) 0x800
def C.FLC_DEC_CNT_HARD_FAIL (p : Nat) : Nat := regA .flc (16 + p) 0x808
def C.FLC_DEC_CNT_SOFT_BUSY (p : Nat) : Nat := regA .flc (16 + p) 0x810
def C.FLC_DEC_CNT_SOFT_FAIL (p : Nat) : Nat := regA .flc (16 + p) 0x818
def C.BIN_CNT_RX_BYTES (p : Nat) : Nat := regA .bin p 0x800
def C.BIN_CNT_TX_BYTES (p : Nat) : Nat := regA .bin p 0x808
def C.BIN_CNT_RX_DROP (p : Nat) : Nat := regA .bin p 0x810
def C.BIN_CNT_PAUSE_US (p : Nat) : Nat := regA .bin p 0x818
def C.BIN_CNT_CNP_TX (p : Nat) : Nat := regA .bin p 0x820
def C.BIN_CNT_NAK (p : Nat) : Nat := regA .bin p 0x828
def C.BIN_CNT_RETRANS (p : Nat) : Nat := regA .bin p 0x830
def C.BIN_CNT_FEC_CORR (p : Nat) : Nat := regA .bin p 0x838
def C.BIN_CNT_FEC_UNCORR (p : Nat) : Nat := regA .bin p 0x840
def C.BIN_CNT_READS (p : Nat) : Nat := regA .bin p 0x848
def C.BIN_CNT_CHUNKS : Nat := regA .bin 2 0x800
def C.BIN_CNT_SOURCE_TIMEOUT : Nat := regA .bin 2 0x808
def C.BIN_CNT_SOURCE_ERROR : Nat := regA .bin 2 0x810
def C.BIN_CNT_TAG_FAIL : Nat := regA .bin 2 0x818
def C.BIN_CNT_CODEC_FAIL : Nat := regA .bin 2 0x820
def C.BIN_CNT_DIGEST_FAIL : Nat := regA .bin 2 0x828
def C.BIN_CNT_PEER_COPY : Nat := regA .bin 2 0x830
def C.BIN_CNT_PEER_MISS : Nat := regA .bin 2 0x838
def C.BIN_CNT_PEER_SERVED : Nat := regA .bin 2 0x840
def C.BIN_CNT_STREAM_WAIT : Nat := regA .bin 2 0x848
def C.BIN_CNT_ENGINE_BYTES : Nat := regA .bin 2 0x850
def C.TED_CNT_STORED_BYTES (p : Nat) : Nat := regA .ted p 0x800
def C.TED_CNT_EXPANDED_BYTES (p : Nat) : Nat := regA .ted p 0x808
def C.TED_CNT_PIECES (p : Nat) : Nat := regA .ted p 0x810
def C.TED_CNT_FILL_ERR (p : Nat) : Nat := regA .ted p 0x818
def C.TED_CNT_H3I_BAD (p : Nat) : Nat := regA .ted p 0x820
def C.TED_CNT_MX_ZERO (p : Nat) : Nat := regA .ted p 0x828
def C.TED_CNT_GDDR_STALL (p : Nat) : Nat := regA .ted p 0x830
def C.TX_BYTES_VL (k : Nat) (i : Nat) : Nat := (if k < 8 then regA .fab k 0x800 else regA .bms (k - 8) 0x800) + 8 * i
def C.RX_BYTES_VL (k : Nat) (i : Nat) : Nat := (if k < 8 then regA .fab k 0x840 else regA .bms (k - 8) 0x840) + 8 * i
def C.STALL_VL (k : Nat) (i : Nat) : Nat := (if k < 8 then regA .fab k 0x880 else regA .bms (k - 8) 0x880) + 8 * i
def C.CREDIT_VL (k : Nat) (i : Nat) : Nat := (if k < 8 then regA .fab k 0x8c0 else regA .bms (k - 8) 0x8c0) + 8 * i
def C.REPLAY (k : Nat) : Nat := (if k < 8 then regA .fab k 0x900 else regA .bms (k - 8) 0x900)
def C.REPLAY_FULL (k : Nat) : Nat := (if k < 8 then regA .fab k 0x908 else regA .bms (k - 8) 0x908)
def C.CRC_BAD (k : Nat) : Nat := (if k < 8 then regA .fab k 0x910 else regA .bms (k - 8) 0x910)
def C.FEC_CORR (k : Nat) : Nat := (if k < 8 then regA .fab k 0x918 else regA .bms (k - 8) 0x918)
def C.FEC_UNCORR (k : Nat) : Nat := (if k < 8 then regA .fab k 0x920 else regA .bms (k - 8) 0x920)
def C.RETRAIN (k : Nat) : Nat := (if k < 8 then regA .fab k 0x928 else regA .bms (k - 8) 0x928)
def C.SPARE_SWAP (k : Nat) : Nat := (if k < 8 then regA .fab k 0x930 else regA .bms (k - 8) 0x930)
def C.E2E_BAD (k : Nat) : Nat := (if k < 8 then regA .fab k 0x938 else regA .bms (k - 8) 0x938)
def C.KEY_DROP (k : Nat) : Nat := (if k < 8 then regA .fab k 0x940 else regA .bms (k - 8) 0x940)
def C.CMD_RX (k : Nat) : Nat := (if k < 8 then regA .fab k 0x948 else regA .bms (k - 8) 0x948)
def C.CMD_DUP (k : Nat) : Nat := (if k < 8 then regA .fab k 0x950 else regA .bms (k - 8) 0x950)
def C.QUENCH_WAIT (k : Nat) : Nat := (if k < 8 then regA .fab k 0x958 else regA .bms (k - 8) 0x958)
def C.RING_CAP (k : Nat) : Nat := (if k < 8 then regA .fab k 0x960 else regA .bms (k - 8) 0x960)
def C.PUT_RESEND (k : Nat) : Nat := (if k < 8 then regA .fab k 0x968 else regA .bms (k - 8) 0x968)
def C.TRANSIT_BYTES (k : Nat) : Nat := regA .bms (k - 8) 0x970
def C.TRANSIT_CAP (k : Nat) : Nat := regA .bms (k - 8) 0x978
def C.REMOTE_REFUSED (k : Nat) : Nat := regA .bms (k - 8) 0x980
def C.COL_CNT_LAUNCHED (p : Nat) : Nat := regA .prt p 0xa00
def C.COL_CNT_OK (p : Nat) : Nat := regA .prt p 0xa08
def C.COL_CNT_RETRACTED (p : Nat) : Nat := regA .prt p 0xa10
def C.COL_CNT_FAILED (p : Nat) : Nat := regA .prt p 0xa18
def C.COL_CNT_REREQ (p : Nat) : Nat := regA .prt p 0xa20
def C.COL_CNT_RESEND (p : Nat) : Nat := regA .prt p 0xa28
def C.COL_CNT_OPEN_WAIT (p : Nat) : Nat := regA .prt p 0xa30
def C.COL_CNT_LATE_LAUNCH (p : Nat) : Nat := regA .prt p 0xa38
def C.COL_CNT_READY_NS (p : Nat) : Nat := regA .prt p 0xa40
def C.COL_CNT_SEND_NS (p : Nat) : Nat := regA .prt p 0xa48
def C.COL_CNT_SLOWEST_SELF (p : Nat) : Nat := regA .prt p 0xa50
def C.COL_CNT_LAG_NS (p : Nat) : Nat := regA .prt p 0xa58
def C.PRT_CNT_VL_CAP_WAIT (p : Nat) : Nat := regA .prt p 0xa60
def C.PRT_CNT_MOVE_FLUSH (p : Nat) : Nat := regA .prt p 0xa68
def C.PRT_CNT_ACCESS_REFUSED (p : Nat) : Nat := regA .prt p 0xa70
def C.PRT_CNT_REPLAYS (p : Nat) : Nat := regA .prt p 0xa78
def C.PRT_CNT_ABANDONED (p : Nat) : Nat := regA .prt p 0xa80
def C.PRT_CNT_REBUILD_POS (p : Nat) : Nat := regA .prt p 0xa88
def C.PRT_CNT_RECOVERED (p : Nat) : Nat := regA .prt p 0xa90
def C.PRT_CNT_RECOVER_DROPPED (p : Nat) : Nat := regA .prt p 0xa98
def C.PRT_CNT_MIRROR_BYTES (p : Nat) : Nat := regA .prt p 0xaa0
def C.HAY_CNT_VIOLATIONS : Nat := regA .hay 0 0x800
def C.HAY_CNT_VLOG_DROP : Nat := regA .hay 0 0x808
def C.HAY_CNT_GRANT_CONFLICT : Nat := regA .hay 0 0x810
def C.HAY_CNT_MOVE_DEFERRED : Nat := regA .hay 0 0x818
def C.HAY_CNT_CALLS : Nat := regA .hay 0 0x820
def C.HAY_CNT_TILE_RESETS : Nat := regA .hay 0 0x828
def C.HAY_CNT_PART_RESETS : Nat := regA .hay 0 0x830
def C.PWR_CNT_CURB_EDGES : Nat := regA .pwr 0 0x800
def C.PWR_CNT_DIV_US : Nat := regA .pwr 0 0x808
def C.PWR_CNT_VF_STEPS : Nat := regA .pwr 0 0x810
def C.PWR_CNT_CAP_GUARD : Nat := regA .pwr 0 0x818
def C.PWR_CNT_CAP_UNMET_US : Nat := regA .pwr 0 0x820
def C.PWR_CNT_BOOST_US : Nat := regA .pwr 0 0x828
def C.PWR_CNT_VIN_LOW : Nat := regA .pwr 0 0x830
def C.PWR_CNT_THROTTLE : Nat := regA .pwr 1 0x800
def C.PWR_CNT_THROTTLE_US : Nat := regA .pwr 1 0x808
def C.PWR_CNT_SENSOR_BAD : Nat := regA .pwr 1 0x810
def C.PWR_CNT_CAL : Nat := regA .pwr 1 0x818
def C.CNT_CNT_SNAPS : Nat := regA .cnt 0 0x800
def C.CNT_CNT_SNAP_SKIPPED : Nat := regA .cnt 0 0x808
def C.CNT_CNT_SNAP_CUT : Nat := regA .cnt 0 0x810
def C.CNT_CNT_SNAP_BYTES : Nat := regA .cnt 0 0x818
def C.CNT_THR (i : Nat) : Nat := regA .cnt 2 0x800 + 8 * i
def C.MGT_CNT_RX_BYTES : Nat := regA .mgt 0 0x800
def C.MGT_CNT_TX_BYTES : Nat := regA .mgt 0 0x808
def C.MGT_CNT_PAUSE_US : Nat := regA .mgt 0 0x810
def C.MGT_CNT_TXQ : Nat := regA .mgt 0 0x818
def C.MGT_CNT_RX_DROP : Nat := regA .mgt 0 0x820
def C.MGT_CNT_FEC_CORR : Nat := regA .mgt 0 0x828
def C.MGT_CNT_FEC_UNCORR : Nat := regA .mgt 0 0x830
def C.MGT_CNT_PTP_TS : Nat := regA .mgt 0 0x838
def C.TIM_CNT_STEP_WAIT (i : Nat) : Nat := regA .tim 2 0x800 + 8 * i
def C.FLC_CNT_BUDGET_REFUSED : Nat := regA .flc 0 0x900
def C.MESH_BR_BYTES_INC (p : Nat) (i : Nat) : Nat := regA .mesh (1 + p) 0x800 + 32 * i
def C.MESH_BR_BYTES_DEC (p : Nat) (i : Nat) : Nat := regA .mesh (1 + p) 0x808 + 32 * i
def C.MESH_BR_STALL_INC (p : Nat) (i : Nat) : Nat := regA .mesh (1 + p) 0x810 + 32 * i
def C.MESH_BR_STALL_DEC (p : Nat) (i : Nat) : Nat := regA .mesh (1 + p) 0x818 + 32 * i
def C.MESH_BR_CREDIT_INC (p : Nat) (i : Nat) : Nat := regA .mesh (1 + p) 0xc00 + 16 * i
def C.MESH_BR_CREDIT_DEC (p : Nat) (i : Nat) : Nat := regA .mesh (1 + p) 0xc08 + 16 * i

end Sys2Proof.Machine
end

