-- ==== Sys2Proof/Machine/Ops.lean ====
section
/-! DEFINITION. The named operations every meaning is written over: registers and their fields, counters (R454 to R456),
interrupts and page faults (R14, R18), the record of refused accesses (R17, R386), bytes of the on-chip memories, and the
words of the engines' tables. Where the spec is open: DEDUCED 16, DESIGN CHOICE 5, 20, 136 and 166 of the assumption log.
-/

namespace Sys2Proof.Machine

/-! ## Registers -/

/-- A field of a register word. -/
def getFld (w : Word) (f : Fld) : Nat := bits w.toNat f.hi f.lo

/-- A register word with one field replaced; a value too wide loses its high bits. -/
def putFld (w : Word) (f : Fld) (n : Nat) : Word := BitVec.ofNat 64 (setBits w.toNat f.hi f.lo n)

/-- The register at a window address. -/
def State.reg (s : State) (a : Nat) : Word := storeGet regDefault s.regs a

/-- A field of the register at a window address. -/
def State.fldOf (s : State) (a : Nat) (f : Fld) : Nat := getFld (s.reg a) f

/-- Read a register. -/
def rdR (a : Nat) : Act Word := rd (fun s => s.reg a)

/-- Set a register. -/
def wrR (a : Nat) (v : Word) : Act Unit := Act.upd (.reg a v)

/-- Read a field. -/
def rdF (a : Nat) (f : Fld) : Act Nat := rd (fun s => s.fldOf a f)

/-- Set a field. -/
def wrF (a : Nat) (f : Fld) (n : Nat) : Act Unit := do wrR a (putFld (← rdR a) f n)

/-- Is a one-bit field set? -/
def rdB (a : Nat) (f : Fld) : Act Bool := do return (← rdF a f) = 1

/-- Add to a field, modulo its width. -/
def addF (a : Nat) (f : Fld) (n : Nat) : Act Unit := do wrF a f ((← rdF a f) + n)

/-! ## The common registers of a page, by the page's base address (R8) -/

def F.PAGE_CTRL.enable : Fld := ⟨0, 0⟩
def F.PAGE_CTRL.quiesce : Fld := ⟨1, 1⟩
def F.PAGE_CTRL.selftest_start : Fld := ⟨32, 32⟩
def F.PAGE_STATUS.enabled : Fld := ⟨0, 0⟩
def F.PAGE_STATUS.quiesced : Fld := ⟨1, 1⟩
def F.PAGE_STATUS.staged_pending : Fld := ⟨2, 2⟩
def F.PAGE_STATUS.fault : Fld := ⟨3, 3⟩
def F.PAGE_STATUS.state : Fld := ⟨35, 32⟩
def F.PAGE_STATUS.router_out : Fld := ⟨36, 36⟩
def F.PAGE_OWNER.partition : Fld := ⟨4, 0⟩
def F.PAGE_OWNER.hay_owned : Fld := ⟨7, 7⟩
def F.PAGE_OWNER.read_all : Fld := ⟨8, 8⟩
def F.PAGE_LOCK.lock : Fld := ⟨0, 0⟩
def F.ERR_INFO.valid : Fld := ⟨63, 63⟩
def F.ERR_INFO.overflow : Fld := ⟨62, 62⟩
def F.SCHED_TICK.tick : Fld := ⟨47, 0⟩

/-- Set a bit of a page's IRQ_STATUS (R18). -/
def setIrq (pb i : Nat) : Act Unit := do
  wrR (pb + 0x40) (BitVec.ofNat 64 (orBit (← rdR (pb + 0x40)).toNat i))

/-- The interrupts a page raises (R18): the bits that are 1 in IRQ_STATUS and in IRQ_ENABLE. An interrupt is a level, so it
is read off the two registers. -/
def State.interrupts (s : State) (pb : Nat) : Nat := (s.reg (pb + 0x40)).toNat &&& (s.reg (pb + 0x48)).toNat

/-- The page raises an interrupt (R18). -/
def State.raises (s : State) (pb i : Nat) : Bool := bit (s.interrupts pb) i

/-- PAGE_STATUS.fault of a page is set; on its rising edge the fault interrupt is raised (R14, R18). -/
def setPageFault (pb : Nat) : Act Unit := do
  if (← rdF (pb + 0x18) F.PAGE_STATUS.fault) = 0 then
    wrF (pb + 0x18) F.PAGE_STATUS.fault 1
    setIrq pb 2

/-- PAGE_STATUS.fault of a page is cleared. -/
def clearPageFault (pb : Nat) : Act Unit := wrF (pb + 0x18) F.PAGE_STATUS.fault 0

/-! ## Counters (R454 to R456) -/

def F.COUNTER.wrapped : Fld := ⟨63, 63⟩
def F.COUNTER.chain_low : Fld := ⟨62, 62⟩
def F.COUNTER.chain_high : Fld := ⟨61, 61⟩
def F.COUNTER.count : Fld := ⟨47, 0⟩

/-- The address of the high half chained to the counter word at `a`, if a valid entry of the chain table names it as a
low half (R456). -/
def State.chainHigh (s : State) (a : Nat) : Option Nat :=
  (List.range 224).findSome? (fun i =>
    let e := s.reg (R.CNT_CHAIN i)
    let pb := Block.glb.base + getFld e F.CNT_CHAIN.page * 0x1000
    if getFld e F.CNT_CHAIN.valid = 1 ∧ a = pb + 0x800 + 8 * getFld e F.CNT_CHAIN.low then
      some (pb + 0x800 + 8 * getFld e F.CNT_CHAIN.high)
    else none)

/-- A counter word after `n` more: the count goes on modulo 2^48, and a word outside a chain records a wrap (R454). -/
def countWord (w : Word) (n : Nat) : Word :=
  let t := getFld w F.COUNTER.count + n
  let w' := putFld w F.COUNTER.count t
  if 2 ^ 48 ≤ t ∧ getFld w F.COUNTER.chain_low = 0 then putFld w' F.COUNTER.wrapped 1 else w'

/-- Add `n` to the counter at `a`: a high half no longer counts its own event, a low half carries into its high half
(R455, R456). -/
def count (a n : Nat) : Act Unit := do
  let w ← rdR a
  if getFld w F.COUNTER.chain_high = 1 then return
  wrR a (countWord w n)
  let carry := (getFld w F.COUNTER.count + n) / 2 ^ 48
  if getFld w F.COUNTER.chain_low = 1 ∧ 0 < carry then
    match ← rd (fun s => s.chainHigh a) with
    | some h => wrR h (countWord (← rdR h) carry)
    | none => skip

/-! ## Bytes of the memories -/

/-- Where byte `off` of the SRAM of physical tile `page` stands in the model's byte store (4 MiB a tile, R29). -/
def tileKey (page off : Nat) : Nat := page * 2 ^ 22 + off

/-- Where byte `off` of hub `h`'s 16 MiB SRAM stands in the model's byte store. -/
def hubKey (h off : Nat) : Nat := 2 ^ 36 + h * 2 ^ 24 + off

/-- A hub address (20 bits: hub, 64 B line) as a byte store key. -/
def hubLine (ha : Nat) : Nat := 2 ^ 36 + ha % 2 ^ 20 * 64

/-- Byte `addr` of the device on channel `c` of GDDR7 site `site`. -/
def gddrKey (site c addr : Nat) : Nat := 2 ^ 60 + site * 2 ^ 44 + c * 2 ^ 40 + addr

/-- The byte at a key of the byte store. -/
def State.byteAt (s : State) (k : Nat) : Byte := storeGet (fun _ => 0) s.mem k

/-- `n` bytes from key `k`. -/
def State.memBytes (s : State) (k n : Nat) : List Byte := (List.range n).map (fun i => s.byteAt (k + i))

/-- The little-endian number in `n` bytes from key `k` (R5). -/
def State.memNum (s : State) (k n : Nat) : Nat := leNat (s.memBytes k n)

/-- Read bytes. -/
def ldBytes (k n : Nat) : Act (List Byte) := rd (fun s => s.memBytes k n)

/-- Read a number of `n` bytes. -/
def ldNum (k n : Nat) : Act Nat := rd (fun s => s.memNum k n)

/-- Write bytes from key `k` up. -/
def stBytes : Nat → List Byte → Act Unit
  | _, [] => pure ()
  | k, b :: bs => do Act.upd (.byte k b); stBytes (k + 1) bs

/-- Write a number of `n` bytes. -/
def stNum (k n v : Nat) : Act Unit := stBytes k (leBytes n v)

/-! ## Words of the engines' tables -/

/-- A word of the engines' tables. -/
def State.wordAt (s : State) (k : Nat) : Word := storeGet (fun _ => 0) s.tab k

/-- Read a table word as a number. -/
def ldW (k : Nat) : Act Nat := rd (fun s => (s.wordAt k).toNat)

/-- Write a table word. -/
def stW (k v : Nat) : Act Unit := Act.upd (.word k (BitVec.ofNat 64 v))

/-- Where word `i` of a table of kind `k` stands in the model's table store. -/
def tabKey (k i : Nat) : Nat := k * 2 ^ 40 + i

/-- Granule map entry `i` of partition `p`, in effect (R240). -/
def gmapKey (p i : Nat) : Nat := tabKey 1 (p * 1024 + i)
/-- The shadow of that entry (R401). -/
def gmapShadowKey (p i : Nat) : Nat := tabKey 2 (p * 1024 + i)
/-- 1 where the entry in effect is treated as invalid (R240, R376, R382, R449). -/
def gmapBadKey (p i : Nat) : Nat := tabKey 3 (p * 1024 + i)
/-- Word `w` of request slot `n` (R189). -/
def slotKey (n w : Nat) : Nat := tabKey 4 (n * 16 + w)
/-- Word `w` of ring context `n` (R182). -/
def ringKey (n w : Nat) : Nat := tabKey 5 (n * 8 + w)
/-- Entry `n` of the reference-count pool (R173). -/
def rcKey (n : Nat) : Nat := tabKey 6 n
/-- Word `w` of adapter table entry `n` (R312). -/
def adpKey (n w : Nat) : Nat := tabKey 7 (n * 4 + w)

/-- The owner of ring `n`, as partition + 1; 0 where no partition holds it (R374, R381). -/
def ringOwnerKey (n : Nat) : Nat := tabKey 8 n
/-- The owner of request slot `n`, as partition + 1 (R374, R381). -/
def slotOwnerKey (n : Nat) : Nat := tabKey 9 n
/-- The owner of unit `u` of hub `h`'s SRAM, as partition + 1 (R374, R381). -/
def unitOwnerKey (h u : Nat) : Nat := tabKey 10 (h * 256 + u)
/-- Entry `f` of a tile's copy table, laid out as TILE_WB_ENTRY (R251, R265). -/
def copyKey (page f : Nat) : Nat := tabKey 11 (page * 64 + f)

/-- The base slot that was active at a partition's last step start, plus 1 (R311). -/
def baseSlotKey (p : Nat) : Nat := tabKey 29 p

/-- The partitions a retiring base slot still waits for, a bit each (R314). -/
def baseWaitKey : Nat := tabKey 31 0

/-- Word `w` of QP context `q` (R318). -/
def qpKey (q w : Nat) : Nat := tabKey 30 (q * 8 + w)

/-- 1 once the package is failed (R440). -/
def pkgFailedKey : Nat := tabKey 20 0

/-- The package is failed. -/
def State.pkgFailed (s : State) : Bool := (s.wordAt pkgFailedKey).toNat = 1

/-- The site records. -/
def State.site (s : State) (k : Nat) : SiteX := storeGet (fun _ => {}) s.sites k

/-- The partition records. -/
def State.part (s : State) (p : Nat) : PartX := storeGet (fun _ => {}) s.parts p

/-- Set a partition's record. -/
def wrPart (p : Nat) (x : PartX) : Act Unit := Act.upd (.part p x)

/-- Something leaves the package or answers a requester. -/
def send (o : Out) : Act Unit := Act.upd (.send o)

/-! ## Issuers and the record of refused accesses -/

/-- Who makes an access: its source code (R17), whether it is the hayward, its partition. -/
structure Issuer where
  source : Nat
  hay : Bool
  part : Option Nat
deriving DecidableEq, Repr

/-- The partition that HAY_CORE_n names for core `n`, if its act is meaningful (R378, R401). -/
def State.coreAct (s : State) (n : Nat) : Option Nat :=
  let w := s.reg (R.HAY_CORE n)
  if getFld w F.HAY_CORE.act_valid = 1 then some (getFld w F.HAY_CORE.act) else none

/-- Control core `n` as an issuer: its role and acting partition stand in HAY_CORE_n (R12, R41, R378). -/
def State.coreIssuer (s : State) (n : Nat) : Issuer :=
  let role := getFld (s.reg (R.HAY_CORE n)) F.HAY_CORE.role
  { source := n
    hay := role = 1
    part := if role = 0 then s.coreAct n else none }

/-- The ERR_INFO layout of R17 with valid set. -/
def errInfo (i : Issuer) (access reason : Nat) : Nat :=
  2 ^ 63 + i.source % 2 ^ 16 * 2 ^ 40 + b2n i.hay * 2 ^ 39 + i.part.getD 0 % 32 * 2 ^ 32 + access % 256 * 256 + reason % 256

/-- One entry of the violation log, or a dropped record when 1,024 entries are unread (R386). -/
def vlog (kind addr info : Nat) : Act Unit := do
  let head ← rdF R.HAY_VLOG_HEAD F.HAY_VLOG_HEAD.written
  let tail ← rdF R.HAY_VLOG_TAIL F.HAY_VLOG_TAIL.read
  if 1024 ≤ moves32 tail head then
    count C.HAY_CNT_VLOG_DROP 1
  else
    let ns ← rdR R.TIM_NOW
    let tick ← rdF R.TIM_TICK_NOW F.TIM_TICK_NOW.tick
    stBytes (hubKey 0 (head % 1024 * 32))
      (leBytes 8 addr ++ leBytes 8 info ++ leBytes 8 ns.toNat ++ leBytes 6 tick ++ leBytes 1 kind ++ [0])
    wrF R.HAY_VLOG_HEAD F.HAY_VLOG_HEAD.written (head + 1)
    count C.HAY_CNT_VIOLATIONS 1

/-- A refused access at a page: ERR_ADDR and ERR_INFO capture the first, a further one sets overflow, which stands until
software clears it; the interrupt is raised and an entry of the given kind goes to the violation log (R17, R386). -/
def recordAs (kind pb addr : Nat) (i : Issuer) (access reason : Nat) : Act Unit := do
  if (← rdF (pb + 0x38) F.ERR_INFO.valid) = 0 then
    wrR (pb + 0x30) (BitVec.ofNat 64 addr)
    let more ← rdF (pb + 0x38) F.ERR_INFO.overflow
    wrR (pb + 0x38) (BitVec.ofNat 64 (errInfo i access reason + more * 2 ^ 62))
  else
    wrF (pb + 0x38) F.ERR_INFO.overflow 1
  setIrq pb 0
  vlog kind addr (errInfo i access reason)

/-- A refused access to a register page. -/
def recordRefusal (pb addr : Nat) (i : Issuer) (access reason : Nat) : Act Unit := recordAs 0 pb addr i access reason

/-- The page an access to a window address is recorded on: its own page, REQ page 0 for the DBL pages (R9). An address
outside every listed page has no page: its refusal stands in the violation log alone (DESIGN CHOICE 136). -/
def errPage (addr : Nat) : Option Nat :=
  match pageOf addr with
  | none => none
  | some (.dbl, _) => some (pageBase .req 0)
  | some (b, p) => some (pageBase b p)

/-- An access is refused: recorded, and answered with an error response. -/
def refuseAs (i : Issuer) (addr access reason : Nat) : Act Unit := do
  match errPage addr with
  | some pb => recordRefusal pb addr i access reason
  | none => vlog 0 addr (errInfo i access reason)
  Act.upd (.resp { reason := reason, data := 0 })

/-- An access is answered without error. -/
def answer (v : Nat) : Act Unit := Act.upd (.resp { reason := 0, data := BitVec.ofNat 64 v })

end Sys2Proof.Machine
end

