-- ==== Sys2Proof/Machine/Gddr.lean ====
section
/-! DEFINITION. Partition GDDR7 space and the lane ECC of a site: the granule map (R239 to R242), the striping of sectors
and parity over a device's channels (R243 to R246), the spread cover and the copy of a migration (R259 to R264), and the
reads and writes every engine makes through them. Where the spec is open: DESIGN CHOICE 25, 26 and 27 of the assumption
log. -/

namespace Sys2Proof.Machine

def F.GMAP.valid : Fld := ⟨63, 63⟩
def F.GMAP.ro : Fld := ⟨62, 62⟩
def F.GMAP.width : Fld := ⟨61, 60⟩
def F.GMAP.sealed : Fld := ⟨59, 59⟩
def F.GMAP.place : Fld := ⟨51, 48⟩
def F.GMAP.slice : Fld := ⟨41, 32⟩

/-- How many sites a width code groups (R240). -/
def widthSites (w : Nat) : Nat := match w with
  | 0 => 1
  | 1 => 2
  | 2 => 4
  | _ => 16

/-- The positions of a granule's group, ascending (R240). -/
def groupPositions (width place : Nat) : List Nat := match width with
  | 0 => [place]
  | 1 => [2 * place, 2 * place + 1]
  | 2 => [4 * place, 4 * place + 1, 4 * place + 2, 4 * place + 3]
  | _ => List.range 16

/-- Slices per site of a device kind (R239). -/
def deviceSlices (device : Nat) : Nat := 192 * 2 ^ device

/-- A site is populated (R266: role absent is 0). -/
def State.populated (s : State) (site : Nat) : Bool := s.fldOf (R.GDC_SITE_CFG site) F.GDC_SITE_CFG.role ≠ 0

/-- The site that serves a position: site 16 once a migration has given it that position, else the site of the same
number (R239, R264). -/
def State.siteOfPos (s : State) (p : Nat) : Nat :=
  if s.fldOf (R.GDC_SITE_CFG 16) F.GDC_SITE_CFG.role = 1 ∧ s.fldOf (R.GDC_SITE_CFG 16) F.GDC_SITE_CFG.position = p
  then 16 else p

/-- Slices of a site. -/
def State.siteSlices (s : State) (site : Nat) : Nat :=
  deviceSlices (s.fldOf (R.GDC_SITE_CFG site) F.GDC_SITE_CFG.device)

/-- A run of slices named by width, place, first slice and length passes the end of a site of its group (R240, R487); an empty
run passes nothing. -/
def State.runPasses (s : State) (width place slice n : Nat) : Bool :=
  n ≠ 0 && (groupPositions width place).any (fun p => decide (s.siteSlices (s.siteOfPos p) < slice + n))

/-- Where an address of partition GDDR7 space lies: position, site offset, and whether its granule is spread (R241). -/
structure GLoc where
  pos : Nat
  off : Nat
  spread : Bool
deriving DecidableEq, Repr

/-- The entry that translates an address, unless it is not valid (R240, R241). -/
def State.granule (s : State) (part addr : Nat) : Option Word :=
  let i := addr / 2 ^ 30
  if 1024 ≤ i then none
  else
    let e := s.wordAt (gmapKey part i)
    if getFld e F.GMAP.valid = 1 ∧ s.wordAt (gmapBadKey part i) = 0 then some e else none

/-- Translate an address of a partition: its place, or the reason of refusal (R241). -/
def State.translate (s : State) (part addr : Nat) (write : Bool) : Except Nat GLoc :=
  match s.granule part addr with
  | none => .error 0x06
  | some e =>
    if write ∧ getFld e F.GMAP.ro = 1 then .error 0x04
    else
      let o := addr % 2 ^ 30
      let u := o / 256
      let width := getFld e F.GMAP.width
      let w := widthSites width
      let p := (groupPositions width (getFld e F.GMAP.place)).getD (u % w) 0
      .ok { pos := p, off := getFld e F.GMAP.slice * 2 ^ 26 + u / w * 256 + o % 256, spread := width = 3 }

/-- Does any byte of a range lie in a sealed granule (R305)? -/
def State.touchesSealed (s : State) (part addr len : Nat) : Bool :=
  (List.range ((addr + (len - 1)) / 2 ^ 30 + 1 - addr / 2 ^ 30)).any (fun i =>
    match s.granule part ((addr / 2 ^ 30 + i) * 2 ^ 30) with
    | some e => getFld e F.GMAP.sealed = 1
    | none => false)

/-! ## Lane ECC (R243) -/

/-- The channel of parity for stripe `i`. -/
def parityChan (i : Nat) : Nat := i % 4

/-- The channel of the `j`-th data sector of stripe `i`: the `j`-th channel that does not hold the parity. -/
def dataChan (i j : Nat) : Nat := if j < i % 4 then j else j + 1

/-- The channel and channel address of byte `f` of a site's usable space. -/
def sectorPlace (f : Nat) : Nat × Nat :=
  let n := f / 64
  (dataChan (n / 3) (n % 3), n / 3 * 64 + f % 64)

/-- A channel of a site is marked failed. -/
def State.chanFailed (s : State) (site c : Nat) : Bool :=
  bit (s.fldOf (R.GDC_SITE_STATE site) F.GDC_SITE_STATE.failed_channels) c

/-- The byte the device holds on a channel. -/
def State.devByte (s : State) (site c a : Nat) : Byte := s.byteAt (gddrKey site c a)

/-- The byte of a channel rebuilt from the other three (R243, R244). -/
def State.rebuiltByte (s : State) (site c a : Nat) : Byte :=
  ((List.range 4).filter (fun d => d ≠ c)).foldl (fun b d => b ^^^ s.devByte site d a) 0

/-- What a channel holds, rebuilt where the channel is marked failed (R245). -/
def State.chanByte (s : State) (site c a : Nat) : Byte :=
  if s.chanFailed site c then s.rebuiltByte site c a else s.devByte site c a

/-- Byte `f` of a site's usable space. -/
def State.siteByte (s : State) (site f : Nat) : Byte :=
  s.chanByte site (sectorPlace f).1 (sectorPlace f).2

/-- A site answers accesses: it serves, or is under migration, or is in a glean window, whose accesses the engines that make
them hold back until its close (R257, R262, DESIGN CHOICE 26). -/
def State.siteServes (s : State) (site : Nat) : Bool :=
  let st := s.fldOf (R.GDC_SITE_STATE site) F.GDC_SITE_STATE.state
  st = 2 || st = 3 || st = 4

/-- Write byte `f` of a site's usable space, keeping the stripe's parity (R246). -/
def siteWriteByte (site f : Nat) (v : Byte) : Act Unit := do
  let (c, a) := sectorPlace f
  let pc := parityChan (f / 64 / 3)
  let s ← Act.get
  let others := ((List.range 4).filter (fun d => d ≠ c ∧ d ≠ pc)).foldl (fun b d => b ^^^ s.chanByte site d a) 0
  if !s.chanFailed site c then Act.upd (.byte (gddrKey site c a) v)
  if !s.chanFailed site pc then Act.upd (.byte (gddrKey site pc a) (others ^^^ v))

/-- Write a run of bytes of a site's usable space. -/
def siteWrite : Nat → Nat → List Byte → Act Unit
  | _, _, [] => pure ()
  | site, f, b :: bs => do siteWriteByte site f b; siteWrite site (f + 1) bs

/-! ## The spread cover (R259, R260) -/

/-- A site's state (R266). -/
def State.siteState (s : State) (site : Nat) : Nat := s.fldOf (R.GDC_SITE_STATE site) F.GDC_SITE_STATE.state

/-- A state code that no site takes (R266): what stands for a window while a command is asked whether it needs the site. -/
def waitCode : Nat := 15

/-- The sites in a glean window (R257). -/
def State.windowed (s : State) : List Nat := (List.range 17).filter (fun k => s.siteState k = 3)

/-- Put the given sites in a state. -/
def setSites (sites : List Nat) (st : Nat) : Act Unit := do
  for k in sites do wrF (R.GDC_SITE_STATE k) F.GDC_SITE_STATE.state st

/-- An action needs a site whose glean window is open: it would do otherwise were the windowed sites to answer nothing (R257,
DESIGN CHOICE 26). -/
def stalls (a : Act Unit) : Act Bool := do
  let s ← Act.get
  let k := s.windowed
  if k = [] then return false
  return decide (Act.run (do setSites k waitCode; a; setSites k 3) s ≠ Act.run a s)

/-- An engine acts, unless an access it would make waits for the close of a glean window: then it does nothing yet (R257, R260). -/
def served (a : Act Unit) : Act Unit := do
  if !(← stalls a) then a

/-- The cover takes copies of spread writes: it holds current copies or is catching up (R259, R260). -/
def State.coverOn (s : State) : Bool :=
  s.fldOf R.GDC_COVER_STATUS F.GDC_COVER_STATUS.state = 1 || s.fldOf R.GDC_COVER_STATUS F.GDC_COVER_STATUS.state = 2

/-- The cover is on and holds current copies. -/
def State.coverCurrent (s : State) : Bool := s.fldOf R.GDC_COVER_STATUS F.GDC_COVER_STATUS.state = 1

/-- The cover slice's offset for a spread address of a position (R259). -/
def State.coverOff (s : State) (pos off : Nat) : Nat :=
  let slice := off / 2 ^ 26
  (16 * (slice - s.fldOf R.GDC_COVER_CTRL F.GDC_COVER_CTRL.spread_base) + pos) * 2 ^ 26 + off % 2 ^ 26

/-- A position's spread traffic goes to site 16: its window is open or its site lost under a current cover, or the unit is
still to be copied back (R260, R449). -/
def State.coverServes (s : State) (l : GLoc) : Bool :=
  l.spread &&
    ((s.coverCurrent && (s.fldOf (R.GDC_SITE_STATE (s.siteOfPos l.pos)) F.GDC_SITE_STATE.state = 3 ||
        s.fldOf (R.GDC_SITE_STATE (s.siteOfPos l.pos)) F.GDC_SITE_STATE.state = 7 ||
        s.fldOf (R.GDC_SITE_STATE (s.siteOfPos l.pos)) F.GDC_SITE_STATE.state = waitCode)) ||
      (s.site l.pos).marks.contains (l.off / 2 ^ 16))

/-- The site an access to a place reaches, and its offset there: the cover's while it serves. -/
def State.reach (s : State) (l : GLoc) : Nat × Nat :=
  if s.coverServes l then (16, s.coverOff l.pos l.off) else (s.siteOfPos l.pos, l.off)

/-- Where a write to a place is done: the site it reaches; for spread data site 16 as well, where the cover takes copies and no
window of site 16 is open (R259); and site 16 below a migration's pointer (R262). -/
def State.writePlaces (s : State) (l : GLoc) : List (Nat × Nat) :=
  if s.coverServes l then [s.reach l]
  else
    let site := s.siteOfPos l.pos
    s.reach l ::
      ((if l.spread && s.coverOn && s.siteState 16 ≠ 3 then [(16, s.coverOff l.pos l.off)] else []) ++
       (if s.mig.src = some site ∧ l.off / 64 / 3 * 64 / 2 ^ 18 < s.fldOf (R.GDC_MIG_STATUS site) F.GDC_MIG_STATUS.pointer then
          [(16, l.off)] else []))

/-- GDC_ECC_LAST of a site. -/
def eccLast (site kind chan sector : Nat) : Act Unit := do
  wrF (R.GDC_ECC_LAST site) F.GDC_ECC_LAST.kind kind
  wrF (R.GDC_ECC_LAST site) F.GDC_ECC_LAST.channel chan
  wrF (R.GDC_ECC_LAST site) F.GDC_ECC_LAST.sector sector

/-- Mark a unit of a position for catch-up, once (R260). -/
def markUnit (pos unit : Nat) : Act Unit := do
  let x ← rd (fun s => s.site pos)
  if x.marks.contains unit then return
  Act.upd (.site pos { x with marks := x.marks ++ [unit] })
  addF R.GDC_COVER_STATUS F.GDC_COVER_STATUS.stale_units 1

/-! ## Reads and writes of the engines -/

/-- The bytes of one run inside a stripe, at the place that serves it; an access a failed site cannot answer is a data
fault, reason 0x10. -/
def State.gPiece (s : State) (part addr len : Nat) : Except Nat (List Byte) :=
  match s.translate part addr false with
  | .error r => .error r
  | .ok l =>
    if s.coverServes l then
      .ok ((List.range len).map (fun i => s.siteByte 16 (s.coverOff l.pos l.off + i)))
    else if s.siteServes (s.siteOfPos l.pos) then
      .ok ((List.range len).map (fun i => s.siteByte (s.siteOfPos l.pos) (l.off + i)))
    else .error 0x10

/-- The runs of at most 64 bytes, none across a sector, that a range splits into: address and length. -/
def sectorRuns (addr len : Nat) : List (Nat × Nat) :=
  if len = 0 then []
  else
    let first := addr / 64
    let last := (addr + len - 1) / 64
    (List.range (last + 1 - first)).map (fun i =>
      let lo := max addr ((first + i) * 64)
      let hi := min (addr + len) ((first + i + 1) * 64)
      (lo, hi - lo))

/-- A read of partition GDDR7 space, without its side effects. -/
def State.gBytes (s : State) (part addr len : Nat) : Except Nat (List Byte) :=
  (sectorRuns addr len).foldl (fun acc r =>
    match acc with
    | .error e => .error e
    | .ok bs =>
      match s.gPiece part r.1 r.2 with
      | .error e => .error e
      | .ok b => .ok (bs ++ b)) (.ok [])

/-- The page a requester's refused memory access is logged on (R241): its TILE page, its TED page, or REQ page 0. -/
def sourcePage (src : Nat) : Nat :=
  if 0x1000 ≤ src ∧ src < 0x1000 + 624 then pageBase .tile (src - 0x1000)
  else if 0x2000 ≤ src ∧ src < 0x2004 then pageBase .ted (src - 0x2000)
  else pageBase .req 0

/-- A requester's memory access is refused: recorded on its page (R241). -/
def refuseMem (src part addr : Nat) (write : Bool) (reason : Nat) : Act Unit :=
  recordAs 1 (sourcePage src) addr { source := src, hay := false, part := some part } (if write then 2 else 1) reason

/-- One sector has been read for a requester: counted at the site it reaches, and as rebuilt where its channel is marked failed
(R244, R260). -/
def noteSector (l : GLoc) (len : Nat) (rebuilds : Bool) : Act Unit := do
  let s ← Act.get
  let (site, f) := s.reach l
  if s.coverServes l then count (C.GDC_CNT_COVER_READS 16) 1
  count (C.GDC_CNT_RD_BYTES site) len
  if rebuilds && s.chanFailed site (sectorPlace f).1 then
    count (C.GDC_CNT_RECON site) 1
    eccLast site 1 (sectorPlace f).1 (f / 64)

/-- Read partition GDDR7 space for a requester: the bytes, or the error reason after the refusal is logged; `rebuilds` tells
whether the rebuilding of sectors on failed channels is still to be counted. -/
def gReadWith (rebuilds : Bool) (src part addr len : Nat) : Act (Except Nat (List Byte)) := do
  let s ← Act.get
  match s.gBytes part addr len with
  | .ok bs =>
    for r in sectorRuns addr len do
      match s.translate part r.1 false with
      | .ok l => noteSector l r.2 rebuilds
      | .error _ => skip
    return .ok bs
  | .error e =>
    if e ≠ 0x10 then refuseMem src part addr false e
    return .error e

/-- Read partition GDDR7 space for a requester, sectors of failed channels rebuilt and counted. -/
def gRead (src part addr len : Nat) : Act (Except Nat (List Byte)) := gReadWith true src part addr len

/-- Mark a spread unit that site 16 must take after its window, once (R260). -/
def markCover (pos unit : Nat) : Act Unit := do
  let m ← rd (fun s => s.mig)
  if !m.coverMarks.contains (pos, unit) then
    Act.upd (.mig { m with coverMarks := m.coverMarks ++ [(pos, unit)] })
    addF R.GDC_COVER_STATUS F.GDC_COVER_STATUS.stale_units 1

/-- One run of a write inside a sector, at every place that must take it (R259, R260, R262); answers whether the site it reaches
serves. -/
def gWritePiece (l : GLoc) (bs : List Byte) : Act Bool := do
  let s ← Act.get
  if !s.coverServes l && !s.siteServes (s.siteOfPos l.pos) then return false
  for d in s.writePlaces l do
    siteWrite d.1 d.2 bs
    count (C.GDC_CNT_WR_BYTES d.1) bs.length
  if s.coverServes l then markUnit l.pos (l.off / 2 ^ 16)
  else if l.spread && s.coverOn && s.siteState 16 = 3 then markCover l.pos (l.off / 2 ^ 16)
  return true

/-- Write partition GDDR7 space for a requester, run by run in address order: the error reason of the first run that is
refused, if any. -/
def gWriteRuns (src part : Nat) : List (Nat × Nat) → List Byte → Act (Option Nat)
  | [], _ => return none
  | (a, n) :: rs, bs => do
    match ← rd (fun s => s.translate part a true) with
    | .error e =>
      refuseMem src part a true e
      return some e
    | .ok l =>
      if ← gWritePiece l (bs.take n) then
        gWriteRuns src part rs (bs.drop n)
      else return some 0x10

/-- How a write's sectors meet the stripes of one site: the stripes written whole, and the sectors of the others
(R246). -/
def stripeTally (secs : List (Nat × Nat)) : List (Nat × Nat × Nat) :=
  let sites := (secs.map (·.1)).eraseDups
  sites.map (fun site =>
    let ns := (secs.filter (fun e => e.1 = site)).map (·.2)
    let stripes := (ns.map (· / 3)).eraseDups
    let full := stripes.filter (fun i => ns.contains (3 * i) && ns.contains (3 * i + 1) && ns.contains (3 * i + 2))
    (site, full.length, ns.length - 3 * full.length))

/-- Write bytes to partition GDDR7 space for a requester; answers the reason of a refusal. A sector on a failed channel is
neither part of a whole stripe nor a read-modify-write (R246). -/
def gWrite (src part addr : Nat) (bs : List Byte) : Act (Option Nat) := do
  let s ← Act.get
  let runs := sectorRuns addr bs.length
  let secs := runs.flatMap (fun r => match s.translate part r.1 true with
    | .ok l => (s.writePlaces l).filterMap (fun d =>
        if s.chanFailed d.1 (sectorPlace d.2).1 then none else some (d.1, d.2 / 64))
    | .error _ => [])
  match ← gWriteRuns src part runs bs with
  | some e => return some e
  | none =>
    for t in stripeTally secs do
      if 0 < t.2.1 then count (C.GDC_CNT_FULL_STRIPE t.1) t.2.1
      if 0 < t.2.2 then count (C.GDC_CNT_RMW t.1) t.2.2
    return none

end Sys2Proof.Machine
end

