-- ==== Sys2Proof/Machine/Mem.lean ====
section
/-! DEFINITION. The address spaces an engine names memory by: hub SRAM and GDDR7 (R182), tile SRAM (R333), each checked
against what the partition holds (R374, R378); and a tile's copy table, which every write into a valid frame marks (R251).
Where the spec is open: DEDUCED 16, 17, 114, 176 and 177 of the assumption log. -/

namespace Sys2Proof.Machine

/-! ## Tiles -/

/-- The logical map's entry for a logical tile number (R27). -/
def State.mapEntry (s : State) (n : Nat) : Nat := bits (s.reg (R.HAY_TILE_MAP (n / 4))).toNat (16 * (n % 4) + 15) (16 * (n % 4))

/-- The physical tile a logical number names, none while it is unmapped (R27): the map entry is valid and its tile holds
the number (TILE_IDENT, R49). -/
def State.tileOf (s : State) (n : Nat) : Option Nat :=
  let e := s.mapEntry n
  let page := e % 1024
  if n < 576 ∧ bit e 15 ∧ page < 624 ∧ s.fldOf (R.TILE_IDENT page) F.TILE_IDENT.logical_valid = 1 ∧
      s.fldOf (R.TILE_IDENT page) F.TILE_IDENT.logical = n then some page else none

/-- The partition a page belongs to; none for the hayward (R15). -/
def State.pagePart (s : State) (pb : Nat) : Option Nat :=
  let o := s.reg (pb + 0x20)
  if getFld o F.PAGE_OWNER.hay_owned = 1 then none else some (getFld o F.PAGE_OWNER.partition)

/-- A block instance takes new work: enabled, not disabled by the boot record, not quiescing (R14). -/
def State.pageServes (s : State) (pb : Nat) : Bool :=
  s.fldOf (pb + 0x10) F.PAGE_CTRL.enable = 1 && s.fldOf (pb + 0x10) F.PAGE_CTRL.quiesce = 0 && !s.record.disabled.contains pb

/-- A tile's state (R47). -/
def State.tileState (s : State) (page : Nat) : Nat := s.fldOf (pageBase .tile page + 0x18) F.PAGE_STATUS.state

/-- The sectors of a frame that a run of bytes of tile SRAM touches become dirty in a valid entry (R251). -/
def markDirty (page off len : Nat) : Act Unit := do
  if len = 0 then return
  for i in List.range ((off + len - 1) / 4096 + 1 - off / 4096) do
    let sec := off / 4096 + i
    let e ← ldW (copyKey page (sec / 16))
    if bit e 63 then stW (copyKey page (sec / 16)) (orBit e (32 + sec % 16))

/-- Write bytes of a tile's SRAM, from any source (R251). -/
def tileWrite (page off : Nat) (bs : List Byte) : Act Unit := do
  stBytes (tileKey page off) bs
  markDirty page off bs.length

/-! ## What a partition may name -/

/-- The partition holds every 64 KiB unit of a hub SRAM range: a refusal's reason otherwise, 0x02 for another partition's
unit, 0x06 for one no partition holds or past the hub (R374, R378). -/
def State.hubReason (s : State) (part addr len : Nat) : Option Nat :=
  if 2 ^ 26 < addr + len then some 0x06
  else (List.range ((addr + (len - 1)) / 2 ^ 16 + 1 - addr / 2 ^ 16)).findSome? (fun i =>
    let u := addr / 2 ^ 16 + i
    let o := (s.wordAt (tabKey 10 u)).toNat
    if o = part + 1 then none else if o = 0 then some 0x06 else some 0x02)

/-- What stands at a place of a partition's hub SRAM, by its key of the byte store; zeros where the partition does not hold it. -/
def State.hubBytes (s : State) (part key n : Nat) : List Byte :=
  if (s.hubReason part (key - 2 ^ 36) n).isNone then s.memBytes key n else List.replicate n 0

/-- Write to a place of a partition's hub SRAM, by its key of the byte store; nothing where the partition does not hold it. -/
def hubStore (part key : Nat) (bs : List Byte) : Act Unit := do
  if (← rd (fun s => s.hubReason part (key - 2 ^ 36) bs.length)).isNone then stBytes key bs

/-- The tile SRAM address [31:22] logical tile, [21:0] byte offset (R333), if the tile is the partition's; a refusal's
reason otherwise. -/
def State.tilePlace (s : State) (part addr len : Nat) : Except Nat (Nat × Nat) :=
  match s.tileOf (addr / 2 ^ 22) with
  | none => .error 0x06
  | some page =>
    if s.pagePart (pageBase .tile page) ≠ some part then .error 0x02
    else if 2 ^ 22 < addr % 2 ^ 22 + len then .error 0x06
    else .ok (page, addr % 2 ^ 22)

/-- Read `len` bytes at an address of a space (0 hub SRAM, 1 GDDR7, 2 local tile SRAM) for a requester acting for a
partition. -/
def spRead (src part space addr len : Nat) : Act (Except Nat (List Byte)) := do
  match space with
  | 0 =>
    match ← rd (fun s => s.hubReason part addr len) with
    | some e => refuseMem src part addr false e; return .error e
    | none => return .ok (← ldBytes (2 ^ 36 + addr) len)
  | 1 => gRead src part addr len
  | 2 =>
    match ← rd (fun s => s.tilePlace part addr len) with
    | .error e => refuseMem src part addr false e; return .error e
    | .ok (page, off) => return .ok (← ldBytes (tileKey page off) len)
  | _ => return .error 0x06

/-- Write bytes at an address of a space for a requester acting for a partition; answers the reason of a refusal. -/
def spWrite (src part space addr : Nat) (bs : List Byte) : Act (Option Nat) := do
  match space with
  | 0 =>
    match ← rd (fun s => s.hubReason part addr bs.length) with
    | some e => refuseMem src part addr true e; return some e
    | none => stBytes (2 ^ 36 + addr) bs; return none
  | 1 => gWrite src part addr bs
  | 2 =>
    match ← rd (fun s => s.tilePlace part addr bs.length) with
    | .error e => refuseMem src part addr true e; return some e
    | .ok (page, off) => tileWrite page off bs; return none
  | _ => return some 0x06

/-- The space and address of a 64-bit reference [49:48] space, [47:0] address. -/
def refSpace (w : Nat) : Nat := bits w 49 48
def refAddr (w : Nat) : Nat := bits w 47 0

/-- A range named by a reference lies in what the partition holds, without the access being made. -/
def State.refReason (s : State) (part space addr len : Nat) (write : Bool) : Option Nat :=
  match space with
  | 0 => s.hubReason part addr len
  | 1 => (sectorRuns addr len).findSome? (fun r => match s.translate part r.1 write with
      | .error e => some e
      | .ok _ => none)
  | 2 => match s.tilePlace part addr len with
      | .error e => some e
      | .ok _ => none
  | _ => some 0x06

/-! ## Signal words -/

/-- Write an 8-byte signal word named [31:22] logical tile, [18:0] offset in 8 B units (R126, R356), for a partition; a
target that is not a tile of the partition takes nothing. -/
def signalTile (src part target value : Nat) : Act Unit := do
  match ← rd (fun s => s.tilePlace part (bits target 31 22 * 2 ^ 22 + bits target 18 0 * 8) 8) with
  | .ok (page, off) => tileWrite page off (leBytes 8 value)
  | .error e => refuseMem src part target true e

end Sys2Proof.Machine
end

