-- ==== Sys2Proof/Machine/Rings.lean ====
section
/-! DEFINITION. Ring contexts and ring entries (R181, R182, R185) and the state every partition holds in its PRT page:
whether it is valid, its key, which ring and slot it holds. Where the spec is open: DEDUCED 13 and 135, DESIGN CHOICE 151
of the assumption log. -/

namespace Sys2Proof.Machine

/-! ## Ring contexts (R182): a field is a word of the context and its bits -/

def F.RING.base : Fld := ⟨47, 0⟩
def F.RING.type : Fld := ⟨51, 48⟩
def F.RING.enable : Fld := ⟨53, 53⟩
def F.RING.space : Fld := ⟨55, 54⟩
def F.RING.log_entries : Fld := ⟨63, 56⟩
def F.RING.partition : Fld := ⟨4, 0⟩
def F.RING.ep_fabric : Fld := ⟨43, 32⟩
def F.RING.ep_queue : Fld := ⟨63, 48⟩
def F.RING.producer : Fld := ⟨31, 0⟩
def F.RING.consumer : Fld := ⟨63, 32⟩
def F.RING.published : Fld := ⟨31, 0⟩
def F.RING.linked : Fld := ⟨47, 32⟩
def F.RING.check : Fld := ⟨63, 56⟩

/-- A field of ring `n`'s context: word `w`, bits `f`. -/
def State.ringF (s : State) (n w : Nat) (f : Fld) : Nat := getFld (s.wordAt (ringKey n w)) f

/-- The eight words of a context as 64 bytes. -/
def State.ringBytes (s : State) (n : Nat) : List Byte :=
  (List.range 8).flatMap (fun w => leBytes 8 (s.wordAt (ringKey n w)).toNat)

/-- The context's check holds (R182). -/
def State.ringOk (s : State) (n : Nat) : Bool :=
  crc8 ((s.ringBytes n).take 63) = s.ringF n 7 F.RING.check

/-- Compute a context's check again. -/
def ringSeal (n : Nat) : Act Unit := do
  let s ← Act.get
  let w := s.wordAt (ringKey n 7)
  stW (ringKey n 7) (putFld w F.RING.check (crc8 ((s.ringBytes n).take 63))).toNat

/-- Set a field of a context; a check that held holds again. -/
def ringSet (n w : Nat) (f : Fld) (v : Nat) : Act Unit := do
  let s ← Act.get
  stW (ringKey n w) (putFld (s.wordAt (ringKey n w)) f v).toNat
  if s.ringOk n then ringSeal n

/-- The partition that holds a ring (R374). -/
def State.ringOwner (s : State) (n : Nat) : Option Nat :=
  let o := (s.wordAt (ringOwnerKey n)).toNat
  if o = 0 then none else some (o - 1)

/-- The partition that holds a request slot (R374). -/
def State.slotOwner (s : State) (n : Nat) : Option Nat :=
  let o := (s.wordAt (slotOwnerKey n)).toNat
  if o = 0 then none else some (o - 1)

def State.ringType (s : State) (n : Nat) : Nat := s.ringF n 0 F.RING.type
def State.ringProducer (s : State) (n : Nat) : Nat := s.ringF n 2 F.RING.producer
def State.ringConsumer (s : State) (n : Nat) : Nat := s.ringF n 2 F.RING.consumer
def State.ringPublished (s : State) (n : Nat) : Nat := s.ringF n 3 F.RING.published
def State.ringLog (s : State) (n : Nat) : Nat := s.ringF n 0 F.RING.log_entries

/-- Bytes per entry of each ring type (R181). -/
def ringEntryBytes (type : Nat) : Nat := match type with
  | 2 => 32
  | 3 => 16
  | _ => 64

/-- A ring is in service: enabled with a good check (R182). -/
def State.ringUp (s : State) (n : Nat) : Bool := s.ringF n 0 F.RING.enable = 1 && s.ringOk n

/-- A context whose check fails takes its ring out of service (R182); answers whether the ring is in service. -/
def ringUse (n : Nat) : Act Bool := do
  let s ← Act.get
  if s.ringF n 0 F.RING.enable = 1 && !s.ringOk n then
    count C.REQ_CNT_SLOT_CHECK 1
    ringSet n 0 F.RING.enable 0
    return false
  return s.ringUp n

/-- How far a 32-bit index is ahead of another (R488). -/
def ahead32 (u v : Nat) : Nat := moves32 u v

/-- The source code of an engine of a hub (R17): 0 ring engine, 1 request engine and journal, 2 routing engine, 3 hub copy
engine, 4 collective engine. -/
def hubSrc (h e : Nat) : Nat := 0x3000 + 16 * h + e

/-- The hub a ring lies in (R181). -/
def ringHub (n : Nat) : Nat := n / 16384

/-- The address of entry index `i` of a ring's buffer. -/
def State.ringAddr (s : State) (n i : Nat) : Nat :=
  s.ringF n 0 F.RING.base + i % 2 ^ s.ringLog n * ringEntryBytes (s.ringType n)

/-- Read an entry of a ring for its hub's engine `e`. -/
def ringRead (e n i : Nat) : Act (Except Nat (List Byte)) := do
  let s ← Act.get
  match s.ringOwner n with
  | none => return .error 0x06
  | some p => spRead (hubSrc (ringHub n) e) p (s.ringF n 0 F.RING.space) (s.ringAddr n i) (ringEntryBytes (s.ringType n))

/-- Write an entry of a ring for its hub's engine `e`. -/
def ringWrite (e n i : Nat) (bs : List Byte) : Act (Option Nat) := do
  let s ← Act.get
  match s.ringOwner n with
  | none => return some 0x06
  | some p => spWrite (hubSrc (ringHub n) e) p (s.ringF n 0 F.RING.space) (s.ringAddr n i) bs

/-! ## Partitions -/

/-- A partition exists (R374). -/
def State.partValid (s : State) (p : Nat) : Bool := s.fldOf (R.PRT_CTRL p) F.PRT_CTRL.valid = 1

/-- The partition that holds a key: the valid partition whose PRT_KEY it is; 0 is no key, and a key two valid partitions
hold belongs to neither (R331, R376). -/
def State.partOfKey (s : State) (k : Nat) : Option Nat :=
  match (List.range 32).filter (fun p => s.partValid p && (s.reg (R.PRT_KEY p)).toNat = k) with
  | [p] => if k = 0 then none else some p
  | _ => none

/-- The rings a partition holds, ascending. -/
def State.ringsOf (s : State) (p : Nat) : List Nat :=
  (s.tab.filter (fun e => decide (ringOwnerKey 0 ≤ e.1 ∧ e.1 < ringOwnerKey 65536) && decide (e.2.toNat = p + 1))).map
    (fun e => e.1 - ringOwnerKey 0)

/-- The request slots a partition holds, ascending. -/
def State.slotsOf (s : State) (p : Nat) : List Nat :=
  (s.tab.filter (fun e => decide (slotOwnerKey 0 ≤ e.1 ∧ e.1 < slotOwnerKey 16384) && decide (e.2.toNat = p + 1))).map
    (fun e => e.1 - slotOwnerKey 0)

/-- The number lies in a range of the given base and count. -/
def inRun (base cnt n : Nat) : Bool := decide (base ≤ n ∧ n < base + cnt)

/-- The one valid partition whose grant holds ring `n`; none where two do or none does (R374, R376). -/
def State.ringGrant (s : State) (n : Nat) : Option Nat :=
  match (List.range 32).filter (fun p => s.partValid p &&
      inRun (s.fldOf (R.PRT_RINGS p) F.PRT_RINGS.base) (s.fldOf (R.PRT_RINGS p) F.PRT_RINGS.count) n) with
  | [p] => some p
  | _ => none

/-- The one valid partition whose grant holds request slot `n` (R374, R376). -/
def State.slotGrant (s : State) (n : Nat) : Option Nat :=
  match (List.range 32).filter (fun p => s.partValid p &&
      inRun (s.fldOf (R.PRT_SLOTS p) F.PRT_SLOTS.base) (s.fldOf (R.PRT_SLOTS p) F.PRT_SLOTS.count) n) with
  | [p] => some p
  | _ => none

/-- An owner as the owner tables hold it. -/
def ownerCode (o : Option Nat) : Nat := match o with
  | some p => p + 1
  | none => 0

/-- 1 where the move of a ring (0 up) or of a slot (65,536 up) was deferred (R381). -/
def deferredKey (n : Nat) : Nat := tabKey 33 n

/-- A ring goes to the partition its grant names, with its context cleared; while it is enabled it stays (R381). -/
def ringSettle (n : Nat) : Act Unit := do
  let s ← Act.get
  let o := ownerCode (s.ringGrant n)
  if (s.wordAt (ringOwnerKey n)).toNat = o then stW (deferredKey n) 0
  else if s.ringF n 0 F.RING.enable = 1 then
    if (s.wordAt (deferredKey n)).toNat = 0 then
      stW (deferredKey n) 1
      count C.HAY_CNT_MOVE_DEFERRED 1
  else
    for w in List.range 8 do stW (ringKey n w) 0
    ringSet n 1 F.RING.partition (o - 1)
    stW (ringOwnerKey n) o
    stW (deferredKey n) 0

/-- Fabric time, whole nanoseconds (R53). -/
def State.now (s : State) : Nat := (s.reg R.TIM_NOW).toNat

/-- The number of the last tick whose edge has passed (R79). -/
def State.tick (s : State) : Nat := s.fldOf R.TIM_TICK_NOW F.TIM_TICK_NOW.tick

end Sys2Proof.Machine
end

