-- ==== Sys2Proof/Machine/Operands.lean ====
section
/-! DEFINITION. The operands of tile operations: references (R148), the layout of each format in tile SRAM (R87 to R92),
the values an operand holds, and how results are written. Where the spec is open: DEDUCED 41, DESIGN CHOICE 146 of the
assumption log. -/

namespace Sys2Proof.Machine

/-- The tile record. -/
def State.tile (s : State) (page : Nat) : TileX := storeGet (fun _ => {}) s.tiles page

/-- Change the tile record. -/
def modTile (page : Nat) (f : TileX → TileX) : Act Unit := do
  Act.upd (.tile page (f (← rd (fun s => s.tile page))))

/-! ## References (R148): format codes 0 H4F, 1 H4I, 2 H3I, 3 H2T, 4 E4M3, 5 E5M2, 6 BF16, 7 FP32 -/

def refFmt (w : Nat) : Nat := bits w 20 18
def refBase (w : Nat) : Nat := bits w 17 0 * 16
/-- The logical tile of a tile reference. -/
def refTile (w : Nat) : Nat := bits w 31 22

def isH4 (f : Nat) : Bool := f < 3
def isH8 (f : Nat) : Bool := f = 4 || f = 5
def isFloat (f : Nat) : Bool := f = 6 || f = 7

/-- Bytes of `n` elements of a format in tile SRAM; block formats take their lines and scale lane (R92). -/
def fmtBytes (f n : Nat) : Nat :=
  let b := (n + 31) / 32
  if f < 3 then 16 * b + roundUp b 16
  else if f = 3 then 16 * ((b + 1) / 2) + roundUp b 16
  else if f = 6 then 2 * n
  else if f = 7 then 4 * n
  else n

/-- Byte `off` of a tile's SRAM, as a number. -/
def State.tb (s : State) (page off : Nat) : Nat := (s.byteAt (tileKey page off)).toNat

/-- A 32-bit word of a tile's SRAM. -/
def State.tw (s : State) (page off : Nat) : Nat := s.memNum (tileKey page off) 4

/-- Where the scale of block `b` of a region of `n` blocks lies (R92). -/
def scaleOff (f base n b : Nat) : Nat := if f = 3 then base + 16 * ((n + 1) / 2) + b else base + 16 * n + b

/-- The scale code of a block. -/
def State.scaleCode (s : State) (page f base n b : Nat) : Nat := s.tb page (scaleOff f base n b)

/-- The value of a block's scale; 1 in a format without block scales. -/
def State.scaleOf (s : State) (page f base n b : Nat) : FV :=
  if f < 4 then ue5m3Val (s.scaleCode page f base n b) else .fin false 1 0

/-- The H2T byte that holds element `i` of block `b`. -/
def h2tOff (base b k : Nat) : Nat := base + 16 * (b / 2) + 8 * (b % 2) + k

/-- Element `i` of an operand of `n` blocks (`n` is ignored outside the block formats), without its block scale. -/
def State.elemOf (s : State) (page f base i : Nat) : FV :=
  match f with
  | 0 => h4fVal (s.tb page (base + i / 2) / (if i % 2 = 0 then 1 else 16) % 16)
  | 1 | 2 => h4iVal (s.tb page (base + i / 2) / (if i % 2 = 0 then 1 else 16) % 16)
  | 3 =>
    let k := i % 32 / 5
    let c := s.tb page (h2tOff base (i / 32) k)
    if h2tBad c k then .zero else .ofInt (h2tDigit c (i % 32 % 5)) 0
  | 4 => (h8fVal false (s.tb page (base + i))).1
  | 5 => (h8fVal true (s.tb page (base + i))).1
  | 6 => bf16Val (s.memNum (tileKey page (base + 2 * i)) 2)
  | _ => fp32Val (s.tw page (base + 4 * i))

/-- The values of an operand without block scales. -/
def State.elems (s : State) (page f base n : Nat) : List FV := (List.range n).map (s.elemOf page f base)

/-- Count what reading `n` elements of an operand finds amiss: reserved scales, invalid H2T bytes, H8F NaN and infinity
codes (R87 to R89), each record and each element once per operation (DEDUCED 41, DESIGN CHOICE 146). -/
def countBad (page f base n : Nat) : Act Unit := do
  let s ← Act.get
  let nb := n / 32
  if f < 4 then
    let c := ((List.range nb).filter (fun b => s.scaleCode page f base nb b = 0xFF)).length
    if 0 < c then count (C.TILE_CNT_SCALE_RSVD page) c
  if f = 3 then
    let c := ((List.range nb).flatMap (fun b => (List.range 7).filter (fun k => h2tBad (s.tb page (h2tOff base b k)) k))).length
    if 0 < c then count (C.TILE_CNT_H2T_BAD page) c
  if isH8 f then
    let c := ((List.range n).filter (fun i => (h8fVal (f = 5) (s.tb page (base + i))).2)).length
    if 0 < c then count (C.TILE_CNT_H8F_BAD_IN page) c

/-- The bytes of a value in a format without blocks, rounded once (R88, R130). -/
def valBytes (f : Nat) (x : FV) : List Byte :=
  match f with
  | 4 => leBytes 1 (h8fCode false x).1
  | 5 => leBytes 1 (h8fCode true x).1
  | 6 => leBytes 2 (bf16Code x)
  | _ => leBytes 4 (fp32Code x)

/-- Write values in a format without blocks. -/
def writeVals (page f base : Nat) (xs : List FV) : Act Unit := tileWrite page base (xs.flatMap (valBytes f))

/-- Write 32-bit words. -/
def writeWords (page base : Nat) (ws : List Nat) : Act Unit := tileWrite page base (ws.flatMap (leBytes 4))

/-- Elements to nibbles, two to a byte, the even element low (R91). -/
def packNibbles : List Nat → List Byte
  | a :: b :: l => BitVec.ofNat 8 (a + 16 * b) :: packNibbles l
  | [a] => [BitVec.ofNat 8 a]
  | [] => []

end Sys2Proof.Machine
end

