-- ==== Sys2Proof/Machine/Fabric.lean ====
section
/-! DEFINITION. Packets: their header and end-to-end CRC (R329), the types and lanes (R330), the checks at the receiver
(R331), the own fabric number and the board (R335), and how an engine's packet is handed to a port, quenched traffic held
back (R343). Where the spec is open: DEDUCED 14, 53 and 78, DESIGN CHOICE 20, 28, 160 and 175 of the assumption log. -/

namespace Sys2Proof.Machine

/-- The port record. -/
def State.port (s : State) (k : Nat) : PortX := storeGet (fun _ => {}) s.ports k

/-- Change the record of a port. -/
def modPort (k : Nat) (f : PortX → PortX) : Act Unit := do Act.upd (.port k (f (← rd (fun s => s.port k))))

/-- A port's state (R350): 0 DOWN, 1 TRAINING, 2 UP, 3 RETRAIN, 4 FAILED. -/
def State.portState (s : State) (k : Nat) : Nat := s.fldOf (R.PORT_STATUS k) F.PORT_STATUS.state

/-- The package's own board position, from the straps (R335, R352). -/
def State.boardPos (s : State) : Nat :=
  s.fldOf R.BMS_BOARD F.BMS_BOARD.by_ * 4 + s.fldOf R.BMS_BOARD F.BMS_BOARD.bx

/-- The package's own fabric number: the one BMS_POS holds for its own position (R335). -/
def State.ownFabric (s : State) : Nat := s.fldOf (R.BMS_POS s.boardPos) F.BMS_POS.fabric

/-- The board position that holds a fabric number, if one does (R335). -/
def State.posOfFabric (s : State) (f : Nat) : Option Nat :=
  (List.range 16).find? (fun n =>
    let w := s.reg (R.BMS_POS n)
    getFld w F.BMS_POS.valid = 1 && getFld w F.BMS_POS.fabric = f &&
      n % 4 ≤ s.fldOf R.BMS_BOARD F.BMS_BOARD.width_m1 && n / 4 ≤ s.fldOf R.BMS_BOARD F.BMS_BOARD.height_m1)

/-- Hops between two board positions (R335). -/
def boardHops (a b : Nat) : Nat :=
  (max (a % 4) (b % 4) - min (a % 4) (b % 4)) + (max (a / 4) (b / 4) - min (a / 4) (b / 4))

/-- The link a packet for board position `b` leaves position `a` by, x first and then y: N 8, E 9, S 10, W 11 (R335). -/
def boardLink (a b : Nat) : Nat :=
  if a % 4 < b % 4 then 9 else if b % 4 < a % 4 then 11 else if a / 4 < b / 4 then 10 else 8

/-! ## Headers (R329) -/

def pkDst (l : List Byte) : Nat := numAt l 0 2 % 4096
def pkSrc (l : List Byte) : Nat := numAt l 2 2 % 4096
def pkType (l : List Byte) : Nat := numAt l 4 1
def pkInner (l : List Byte) : Nat := numAt l 5 1 / 32
def pkLen (l : List Byte) : Nat := numAt l 6 2
def pkKey (l : List Byte) : Nat := numAt l 8 8
def pkArg0 (l : List Byte) : Nat := numAt l 16 8
def pkArg1 (l : List Byte) : Nat := numAt l 24 4
def pkCrc (l : List Byte) : Nat := numAt l 28 4
def pkBody (l : List Byte) : List Byte := l.drop 32

/-- The CRC of a packet over bytes 0 to 27 and the payload (R329). -/
def pkCrcOf (l : List Byte) : Nat := crc32c (l.take 28 ++ l.drop 32)

/-- A packet's length field tells its bytes and its CRC is good. -/
def pkGood (l : List Byte) : Bool := l.length = 32 + pkLen l && pkLen l ≤ 4096 && pkCrc l = pkCrcOf l

/-- Build a packet (R329). -/
def mkPacket (dst src type flags key arg0 arg1 : Nat) (body : List Byte) : List Byte :=
  let h := leBytes 2 dst ++ leBytes 2 src ++ leBytes 1 type ++ leBytes 1 flags ++ leBytes 2 body.length ++
    leBytes 8 key ++ leBytes 8 arg0 ++ leBytes 4 arg1
  h ++ leBytes 4 (crc32c (h ++ body)) ++ body

/-- The packet types of R330 and R361. -/
def pkDefined (t : Nat) : Bool :=
  [0x01, 0x02, 0x03, 0x04, 0x05, 0x10, 0x11, 0x12, 0x13, 0x14, 0x20, 0x21, 0x22, 0x28, 0x29, 0x2A, 0x30, 0x31, 0x38,
    0x39, 0x3A, 0x40, 0x41, 0x42, 0x43, 0x44, 0x45, 0x46, 0x47].contains t

/-- Flits a packet fills (R329). -/
def pkFlits (l : List Byte) : Nat := (l.length + 239) / 240

/-- A lane's place in the nine-lane lists: VL0 command, VL0 ring, VL1 to VL7. -/
def laneIx (vl : Nat) (cmd : Bool) : Nat := if vl = 0 then (if cmd then 0 else 1) else vl + 1

/-- Change a lane's number in a nine-lane list. -/
def laneAdd (l : List Nat) (i n : Nat) : List Nat := (List.range 9).map (fun j => l.getD j 0 + if j = i then n else 0)
def laneSub (l : List Nat) (i n : Nat) : List Nat := (List.range 9).map (fun j => l.getD j 0 - if j = i then n else 0)

/-- The page of a port or link. -/
def portPage (k : Nat) : Nat := if k < 8 then pageBase .fab k else pageBase .bms (k - 8)

/-- The partitions under quench (R351). -/
def State.quenched (s : State) (p : Nat) : Bool := bit (s.fldOf R.FAB_QUENCHED F.FAB_QUENCHED.parts) p

/-! ## Flits (R323) -/

/-- The lane of a flit among the nine. -/
def TxFlit.lane (f : TxFlit) : Nat := laneIx f.vl f.cmd

/-- A lane place as bytes 4 and 5 of a flit hold it: the lane in bits [7:5], the class of VL0 in bit [4] (R323). -/
def laneByte (i : Nat) : Nat := if i = 0 then 0 else if i = 1 then 16 else (i - 1) * 32

/-- The 256 bytes of a flit (R323): its kind and number, the next number expected of the peer, whether that is a nak, the credits
of one lane place, and the flit's own lane, marks and packet bytes. -/
def mkFlit (kind seq ack : Nat) (nak : Bool) (creditLane credits : Nat) (f : TxFlit) : List Byte :=
  let b := leBytes 2 (seq * 16 + kind * 4) ++ leBytes 2 (ack * 16 + b2n nak * 8 + 4) ++
    leBytes 1 (laneByte f.lane + b2n f.sop * 8 + b2n f.eop * 4) ++ leBytes 1 (laneByte creditLane) ++ leBytes 2 credits ++
    f.payload.takeD 240 0 ++ leBytes 4 0
  b ++ leBytes 4 (crc32c b)

/-- A flit that carries no packet bytes: idle or link management. -/
def bareFlit (payload : List Byte) : TxFlit := { vl := 0, cmd := true, sop := false, eop := false, payload := payload }

/-- `n` flit slots pass: of every 100 slots ring_pct and transit_pct are taken (DESIGN CHOICE 160). -/
def PortX.slots (x : PortX) (n : Nat) : PortX :=
  if x.slot + n < 100 then { x with slot := x.slot + n, ahead := x.ahead + n }
  else { x with slot := (x.slot + n) % 100, ringUsed := 0, transitUsed := 0, ahead := x.ahead + n }

/-- Put one flit on the link: it tells the next number expected, returns the credits owed of the first lane that is owed any, and
takes a flit slot (R323, R324, R327). Answers its bytes. -/
def putFlit (k kind seq : Nat) (nak : Bool) (f : TxFlit) : Act (List Byte) := do
  let x ← rd (fun s => s.port k)
  let i := ((List.range 9).find? (fun i => decide (0 < x.owed.getD i 0))).getD 0
  let n := min 4095 (x.owed.getD i 0)
  Act.upd (.port k { x.slots 1 with owed := laneSub x.owed i n, told := x.rxNext })
  return mkFlit kind seq x.rxNext nak i n f

/-- An idle flit goes out for what it tells the peer. -/
def putIdle (k : Nat) (nak : Bool) : Act Unit := do send (.flit k (← putFlit k 1 0 nak (bareFlit [])))

/-- Credits owed and an acknowledgement not yet told go out in idle flits; idle flits with nothing new to tell are not listed
(R324, R327; DESIGN CHOICE 160). -/
def tellPeer (k : Nat) : Nat → Act Unit
  | 0 => skip
  | fuel + 1 => do
    let s ← Act.get
    let x := s.port k
    if s.portState k = 2 ∧ (x.told ≠ x.rxNext ∨ x.owed.any (fun n => decide (0 < n))) then
      putIdle k false
      tellPeer k fuel

/-! ## The sender's choice of flits (R324, R327, R328) -/

/-- A packet's first flit may not leave: the port takes no new work (R14), or its partition is under quench (R343). -/
def State.flitHeld (s : State) (k : Nat) (f : TxFlit) : Bool :=
  !s.pageServes (portPage k) || (match f.part with
    | some p => s.quenched p && (f.vl = 1 || f.vl = 2 || f.vl = 4)
    | none => false)

/-- The share of a lane's credits that a partition may hold at each port and link (R377). -/
def State.vlShare (s : State) (p i : Nat) : Nat := match i with
  | 2 => s.fldOf (R.PRT_VLCAP p) F.PRT_VLCAP.vl1
  | 3 => s.fldOf (R.PRT_VLCAP p) F.PRT_VLCAP.vl2
  | 4 => s.fldOf (R.PRT_VLCAP p) F.PRT_VLCAP.vl3
  | 5 => s.fldOf (R.PRT_VLCAP p) F.PRT_VLCAP.vl4
  | _ => 100

/-- A flit would take its partition over its share of the lane's credits (R377). -/
def State.overShare (s : State) (k : Nat) (f : TxFlit) : Bool :=
  match f.part with
  | none => false
  | some p =>
    let x := s.port k
    decide (2 ≤ f.lane ∧ f.lane ≤ 5) &&
      decide (s.vlShare p f.lane * x.alloc.getD f.lane 0 < ((x.inUse.filter (fun u => u = (f.lane, p))).length + 1) * 100)

/-- The next flit of a lane place: of the packet begun, or else of the first packet that may begin (R328). Transit stands still in a
failed package (R336). -/
def State.flitNext (s : State) (k i : Nat) : Option TxFlit :=
  let x := s.port k
  let q := x.txq.filter (fun f => f.lane = i && !(f.src.isSome && s.pkgFailed))
  match x.mid.find? (fun m => m.1 = i) with
  | some m => (q.find? (fun f => f.src = m.2.1 && f.pkt = m.2.2)).filter (fun f => !s.overShare k f)
  | none => q.find? (fun f => !s.flitHeld k f && !s.overShare k f)

/-- The flit of a lane place that waits for its partition's share, if one does (R377). -/
def State.shareWait (s : State) (k i : Nat) : Option Nat :=
  let x := s.port k
  let q := x.txq.filter (fun f => f.lane = i)
  let waiting : Option TxFlit := match x.mid.find? (fun m => m.1 = i) with
    | some m => (q.find? (fun f => f.src = m.2.1 && f.pkt = m.2.2)).filter (fun f => s.overShare k f)
    | none => q.find? (fun f => !s.flitHeld k f && s.overShare k f)
  waiting.bind (·.part)

/-- The share of flit slots the ring class, or VL5, may take (R328, R337). -/
def State.slotCap (s : State) (k i : Nat) : Nat :=
  if i = 1 then s.fldOf (R.PORT_CTRL k) F.PORT_CTRL.ring_pct
  else if i = 6 then s.fldOf (R.BMS_TRANSIT (k - 8)) F.BMS_TRANSIT.transit_pct
  else 100

/-- A lane place has used its share of the flit slots (R328). -/
def State.capped (s : State) (k i : Nat) : Bool :=
  let x := s.port k
  (i = 1 && decide (s.slotCap k 1 ≤ x.ringUsed)) || (i = 6 && decide (s.slotCap k 6 ≤ x.transitUsed))

/-- A lane place has a flit waiting and a credit for it (R327). -/
def State.credited (s : State) (k i : Nat) : Bool :=
  (s.flitNext k i).isSome && decide (0 < (s.port k).credit.getD i 0)

/-- A lane place has a flit that may go (R327, R328). -/
def State.flitReady (s : State) (k i : Nat) : Bool := s.credited k i && !s.capped k i

/-- The quantum of VL1 to VL5 in VL_ARB (R350). -/
def vlQuantum (arb : Word) (v : Nat) : Nat := bits arb.toNat (8 * (v - 1) + 7) (8 * (v - 1))

/-- The deficit round robin over VL1 to VL5 (R328): the lane to serve and its flits left, if any lane is ready. -/
def State.drrPick (s : State) (k : Nat) : Option (Nat × Nat) :=
  let x := s.port k
  if 0 < x.drrLeft && s.flitReady k (x.drrLane + 1) then some (x.drrLane, x.drrLeft)
  else ((List.range 5).map (fun i => (x.drrLane + i) % 5 + 1)).findSome? (fun v =>
    if s.flitReady k (v + 1) then some (v, vlQuantum (s.reg (R.VL_ARB k)) v) else none)

/-- Send one new flit of lane place `i`: it takes the next number and a credit, and stays in the replay buffer (R324,
R327). A flit in transit leaves the receive buffer it came to and its credit goes back (R336). -/
def sendFlit (k i : Nat) : Act Unit := do
  let s ← Act.get
  let x := s.port k
  match s.flitNext k i with
  | none => skip
  | some f =>
    Act.upd (.port k { x with
      txq := x.txq.erase f
      mid := x.mid.filter (fun m => m.1 ≠ i) ++ (if f.eop then [] else [(i, f.src, f.pkt)])
      replay := x.replay ++ [{ seq := x.txSeq, flit := f, sentAt := s.now }]
      txSeq := (x.txSeq + 1) % 4096
      credit := laneSub x.credit i 1
      inUse := x.inUse ++ [(i, f.part.getD 32)]
      ringUsed := x.ringUsed + b2n (decide (i = 1))
      transitUsed := x.transitUsed + b2n (decide (i = 6)) })
    send (.flit k (← putFlit k 0 x.txSeq false f))
    match f.src with
    | some j =>
      count (C.TRANSIT_BYTES k) f.payload.length
      modPort j (fun y => { y with owed := laneAdd y.owed 6 1 })
    | none => count (C.TX_BYTES_VL k f.vl) f.payload.length

/-- What a port counts in `n` flit slots: credits held, flits waiting for credit, for their partition's share, for room in the replay buffer, for a cap, and
packets held by a quench (R324, R327, R353, R377). -/
def slotWaits (k n : Nat) : Act Unit := do
  let s ← Act.get
  let x := s.port k
  let c := (x.credit.getD 0 0 + x.credit.getD 1 0) :: (x.credit.drop 2)
  for v in List.range 8 do
    if c.getD v 0 ≠ 0 then count (C.CREDIT_VL k v) (c.getD v 0 * n)
    if (if v = 0 then [0, 1] else [v + 1]).any (fun i => (s.flitNext k i).isSome && x.credit.getD i 0 = 0) then
      count (C.STALL_VL k v) n
  for i in [2, 3, 4, 5] do
    match s.shareWait k i with
    | some p => count (C.PRT_CNT_VL_CAP_WAIT p) n
    | none => skip
  if 1024 ≤ x.replay.length ∧ x.txq ≠ [] then count (C.REPLAY_FULL k) n
  if s.credited k 1 ∧ s.capped k 1 then count (C.RING_CAP k) n
  if s.credited k 6 ∧ s.capped k 6 then count (C.TRANSIT_CAP k) n
  if x.held ≠ [] ∨ x.txq.any (fun f => f.sop && f.part.any s.quenched && (f.vl = 1 || f.vl = 2 || f.vl = 4)) then
    count (C.QUENCH_WAIT k) n

/-- Send what may be sent, slot by slot: first the VL0 command class, then the ring class, then VL1 to VL5 by deficit round robin
(R328). While a cap alone holds flits back, the rest of the 100 slots passes idle; a full replay buffer or a missing credit
leaves flits waiting. -/
def pumpPort (k : Nat) : Nat → Act Unit
  | 0 => skip
  | fuel + 1 => do
    let s ← Act.get
    let x := s.port k
    if s.portState k ≠ 2 ∨ x.txq.isEmpty ∨ 1024 ≤ x.replay.length then skip
    else if s.flitReady k 0 then do slotWaits k 1; sendFlit k 0; pumpPort k fuel
    else if s.flitReady k 1 then do slotWaits k 1; sendFlit k 1; pumpPort k fuel
    else match s.drrPick k with
      | some (v, left) => do
        slotWaits k 1
        modPort k (fun x => { x with drrLane := v, drrLeft := left - 1 })
        sendFlit k (v + 1)
        pumpPort k fuel
      | none =>
        if [1, 6].any (fun i => s.credited k i && decide (0 < s.slotCap k i)) then do
          slotWaits k (100 - x.slot)
          modPort k (fun x => x.slots (100 - x.slot))
          pumpPort k fuel
        else skip

/-- Let a port send: waiting flits, then what it and the links that flits in transit came by have to tell their peers. -/
def pump (k : Nat) : Act Unit := do
  let s ← Act.get
  pumpPort k (2 * (s.port k).txq.length + 1)
  for j in k :: [8, 9, 10, 11] do tellPeer j 10

/-- Flit slots of a port in `n` microseconds that end at fabric time `t`: 2.56 ns each on a switch fabric port, 1.28 ns on a board
mesh link (R353). -/
def slotsIn (k n t : Nat) : Nat :=
  let at_ (u : Nat) : Nat := if k < 8 then u * 15625 / 40 else u * 31250 / 40
  at_ (t / 1000) - at_ (t / 1000 - n)

/-- `n` microseconds have passed: the flit slots the ports have not used pass, waits are counted (R353), and a port whose packets may
go again sends. -/
def linkWaits (n : Nat) : Act Unit := do
  let s ← Act.get
  for e in s.ports do
    let k := e.1
    if k < 12 ∧ s.portState k = 2 then
      let m := slotsIn k n s.now
      slotWaits k (m - e.2.ahead)
      modPort k (fun x => { x with ahead := x.ahead - m })
      pump k

/-! ## Receiving (R331) -/

/-- What the receiver's checks say of a packet. -/
inductive PktCheck where
  | ok (part : Option Nat)
  | badCrc
  | drop (key : Bool)
  | transit
deriving DecidableEq, Repr

/-- A ring type names a ring of the partition; a RING_IN's doorbell suits its ring, and its sender is the ring's endpoint
(R331). A RING_BUSY names the ring of the package that sends it, as received (R330, R332; DEDUCED 78). -/
def State.ringTypeOk (s : State) (p : Nat) (l : List Byte) : Bool :=
  let ring := pkArg0 l % 2 ^ 16
  if pkType l = 0x01 then
    s.ringOwner ring = some p && pkSrc l = s.ringF ring 1 F.RING.ep_fabric &&
      (match pkArg1 l % 4 with
       | 2 => s.ringType ring = 2 || s.ringType ring = 3
       | _ => s.ringType ring = 1)
  else if pkType l = 0x02 ∨ pkType l = 0x03 ∨ pkType l = 0x04 then s.ringOwner ring = some p
  else true

/-- The checks of R331; a packet on VL5 at a board mesh link for another package is in transit. -/
def State.checkPacket (s : State) (r : RxPacket) : PktCheck :=
  let l := r.bytes
  if 8 ≤ r.port.val ∧ r.vl.val = 5 ∧ 32 ≤ l.length ∧ pkDst l ≠ s.ownFabric then .transit
  else if !pkGood l then .badCrc
  else if pkDst l ≠ s.ownFabric then .drop false
  else if !pkDefined (pkType l) then .drop false
  else if pkType l = 0x10 then (if r.port.val < 8 ∧ r.vl.val = 0 ∧ r.cmd then .ok none else .drop true)
  else if 0x11 ≤ pkType l ∧ pkType l ≤ 0x14 then
    (if pkKey l = (s.reg R.FAB_CMD_KEY).toNat then .ok none else .drop true)
  else match s.partOfKey (pkKey l) with
    | none => .drop true
    | some p => if s.ringTypeOk p l then .ok (some p) else .drop true

/-- The receive buffer without the first packet of a lane place. -/
def rxDrop (i : Nat) : List TxFlit → List TxFlit
  | [] => []
  | f :: fs => if f.lane = i then (if f.eop then fs else rxDrop i fs) else f :: rxDrop i fs

/-- A packet has left the receive buffer: its credits are to be returned and its bytes counted (R327, R353). -/
def takePacket (r : RxPacket) : Act Unit := do
  let x ← rd (fun s => s.port r.port)
  let i := laneIx r.vl r.cmd
  Act.upd (.port r.port { x with owed := laneAdd x.owed i (pkFlits r.bytes), rxq := rxDrop i x.rxq })
  count (C.RX_BYTES_VL r.port r.vl) r.bytes.length
  pump r.port

/-- The source code of a packet's port (R17). -/
def portSrc (k : Nat) : Nat := 0x0100 + k

/-- A packet fails a check and is discarded: its counter rises, and a key failure is written to the violation log
(R331, R386). -/
def dropPacket (r : RxPacket) (c : PktCheck) : Act Unit := do
  match c with
  | .badCrc => count (C.E2E_BAD r.port) 1
  | .drop key =>
    count (C.KEY_DROP r.port) 1
    if key then
      vlog 2 (pkDst r.bytes + pkType r.bytes * 2 ^ 16) (errInfo { source := portSrc r.port, hay := false, part := none } 2 2)
  | .ok _ | .transit => skip

/-- The flits of a packet (R323, R329). -/
def packetFlits (vl : Nat) (cmd : Bool) (bs : List Byte) : List TxFlit :=
  let n := pkFlits bs
  (List.range n).map (fun i =>
    { vl := vl, cmd := cmd, sop := i = 0, eop := i + 1 = n, payload := (bs.drop (240 * i)).take 240 })

/-- TRANSIT_FLIT (R336): a VL5 flit for another package joins those for the next link of its path, which it leaves by once that
link has a VL5 credit; the first flit of a packet holds the header that names the path. Until then it stays in the receive
buffer it came to. A flit whose destination the board does not hold is discarded (R331, R335). -/
def transitFlit (k : Nat) (sop eop : Bool) (payload : List Byte) : Act Unit := do
  let s ← Act.get
  let own := decide (pkDst payload = s.ownFabric)
  if k < 8 ∨ (s.portState k ≠ 2 ∧ s.portState k ≠ 3) ∨ (sop ∧ own) then return
  let x := s.port k
  let out := if sop then
      (match s.posOfFabric (pkDst payload) with
       | some pos => some (boardLink s.boardPos pos, (s.port (boardLink s.boardPos pos)).nextPkt)
       | none => none)
    else x.transit
  Act.upd (.port k { x with transit := if eop then none else out, rxq := x.rxq.eraseP (fun f => f.lane = 6) })
  match out with
  | none =>
    modPort k (fun y => { y with owed := laneAdd y.owed 6 1 })
    if sop then count (C.KEY_DROP k) 1
    pump k
  | some o =>
    modPort o.1 (fun y => { y with
      txq := y.txq ++ [{ vl := 5, cmd := false, sop := sop, eop := eop, payload := payload, pkt := o.2, src := some k }]
      nextPkt := if sop then y.nextPkt + 1 else y.nextPkt })
    pump o.1

/-- A packet in transit goes on, flit by flit (R336). -/
def sendOn (r : RxPacket) : Act Unit := do
  for f in packetFlits 5 false r.bytes do transitFlit r.port f.sop f.eop f.payload

/-- A packet of one of the types arrives at a port that carries traffic: it is checked, and acted on by `k` with its partition,
sent on, or discarded. -/
def onPacket (r : RxPacket) (types : List Nat) (k : Option Nat → Act Unit) : Act Unit := do
  let s ← Act.get
  if s.portState r.port ≠ 2 && s.portState r.port ≠ 3 then return
  match s.checkPacket r with
  | .ok p =>
    if types.contains (pkType r.bytes) then
      takePacket r
      k p
  | .transit => sendOn r
  | c =>
    takePacket r
    dropPacket r c

/-! ## Sending -/

/-- Hand a partition's packet to a port: it joins the port's queue while the port trains, is up or retrains, and is lost at a
port that is DOWN or FAILED (R325). -/
def sendPacket (p k vl : Nat) (bs : List Byte) : Act Unit := do
  let s ← Act.get
  if s.portState k = 0 ∨ s.portState k = 4 then return
  let x := s.port k
  Act.upd (.port k { x with
    txq := x.txq ++ (packetFlits vl false bs).map (fun f => { f with pkt := x.nextPkt, part := some p })
    nextPkt := x.nextPkt + 1 })
  send (.packet k vl false bs)
  pump k

/-- Hand a partition's packet to a port; while the partition is quenched a packet of VL1, VL2 or VL4 is held (R343). -/
def sendFor (p k vl : Nat) (bs : List Byte) : Act Unit := do
  let s ← Act.get
  if s.quenched p && (vl = 1 || vl = 2 || vl = 4) then
    let x := s.port k
    Act.upd (.port k { x with held := x.held ++ [{ part := p, vl := vl, bytes := bs }] })
  else sendPacket p k vl bs

/-- The packets of a partition a port held back go on, in order (R343). -/
def releaseHeld (p k : Nat) : Act Unit := do
  let x ← rd (fun s => s.port k)
  Act.upd (.port k { x with held := x.held.filter (fun h => h.part ≠ p) })
  for h in x.held.filter (fun h => h.part = p) do sendPacket h.part k h.vl h.bytes
  pump k

/-- The next switch fabric port from `k` upward, modulo 8, that is not FAILED (R332, R333). -/
def State.livePort (s : State) (k : Nat) : Option Nat :=
  ((List.range 8).map (fun i => (k + i) % 8)).find? (fun j => s.portState j ≠ 4)

/-- The partition's key, as its packets carry it (R329). -/
def State.partKey (s : State) (p : Nat) : Nat := (s.reg (R.PRT_KEY p)).toNat

/-- Send a packet for a partition to a fabric number over a switch fabric port. -/
def sendFab (p k vl dst type arg0 arg1 : Nat) (body : List Byte) : Act Unit := do
  let s ← Act.get
  sendFor p k vl (mkPacket dst s.ownFabric type 0 (s.partKey p) arg0 arg1 body)

/-- Send a packet for a partition over the board mesh: one hop keeps its lane, more hops travel on VL5 (R335). -/
def sendBoard (p vl pos dst type arg0 arg1 : Nat) (body : List Byte) : Act Unit := do
  let s ← Act.get
  let k := boardLink s.boardPos pos
  if boardHops s.boardPos pos ≤ 1 then
    sendFor p k vl (mkPacket dst s.ownFabric type 0 (s.partKey p) arg0 arg1 body)
  else
    sendFor p k 5 (mkPacket dst s.ownFabric type (vl * 32) (s.partKey p) arg0 arg1 body)

/-- Send a ring-class packet over port `n` mod 8, or the next that is not FAILED; while all eight are FAILED it is held,
in the place of port 12, for the first port to return to UP (R332). -/
def sendRing (p n dst type arg0 arg1 : Nat) (body : List Byte) : Act Unit := do
  match ← rd (fun s => s.livePort (n % 8)) with
  | some k => sendFab p k 0 dst type arg0 arg1 body
  | none =>
    let s ← Act.get
    let x := s.port 12
    Act.upd (.port 12 { x with held := x.held ++
      [{ part := p, vl := 0, bytes := mkPacket dst s.ownFabric type 0 (s.partKey p) arg0 arg1 body }] })

end Sys2Proof.Machine
end

