-- ==== Sys2Proof/Machine/Link.lean ====
section
/-! DEFINITION. The link layer of the switch fabric ports and board mesh links: flits, acknowledgement and replay (R323,
R324), the port states (R325), lanes, the spare and half width (R346, R347), link delay (R349) and transit (R336). Where
the spec is open: DESIGN CHOICE 29, 159 and 161 of the assumption log. -/

namespace Sys2Proof.Machine

/-! ## Received flits (R323) -/

def flSeq (l : List Byte) : Nat := numAt l 0 2 / 16
def flKind (l : List Byte) : Nat := numAt l 0 2 / 4 % 4
def flAck (l : List Byte) : Nat := numAt l 2 2 / 16
def flNak (l : List Byte) : Bool := bit (numAt l 2 2) 3
def flAckValid (l : List Byte) : Bool := bit (numAt l 2 2) 2
def flVl (l : List Byte) : Nat := numAt l 4 1 / 32
def flClass (l : List Byte) : Nat := numAt l 4 1 / 16 % 2
def flCreditVl (l : List Byte) : Nat := numAt l 5 1 / 32
def flCreditClass (l : List Byte) : Nat := numAt l 5 1 / 16 % 2
def flCredits (l : List Byte) : Nat := numAt l 6 2 % 4096
/-- A flit has 256 bytes and its CRC over bytes 0 to 251 is good. -/
def flGood (l : List Byte) : Bool := l.length = 256 && numAt l 252 4 = crc32c (l.take 252)

/-- Flit numbers a 12-bit acknowledgement covers: those at least one behind it, in the nearer half of the circle. -/
def ackCovers (ack seq : Nat) : Bool :=
  let d := (ack + 4096 - seq % 4096) % 4096
  decide (1 ≤ d ∧ d ≤ 2048)

/-- A cumulative acknowledgement: covered flits leave the replay buffer, and progress ends a run of replays (R324). -/
def takeAck (k ack : Nat) : Act Unit := do
  let x ← rd (fun s => s.port k)
  let rest := x.replay.dropWhile (fun e => ackCovers ack e.seq)
  if rest.length < x.replay.length then
    Act.upd (.port k { x with replay := rest, retries := 0 })

/-- Set a port's state. -/
def setPortState (k st : Nat) : Act Unit := wrF (R.PORT_STATUS k) F.PORT_STATUS.state st

/-- A port goes FAILED and raises its interrupt (R325). -/
def failPort (k : Nat) : Act Unit := do
  setPortState k 4
  setIrq (portPage k) 32

/-- A port enters RETRAIN, and from there goes FAILED at the retrain_limit-th entry within 1 s (R325); answers whether it failed. -/
def enterRetrain (k : Nat) : Act Bool := do
  let s ← Act.get
  let x := s.port k
  let recent := (x.retrains ++ [s.now]).filter (fun t => decide (s.now < t + 1000000000))
  Act.upd (.port k { x with retrains := recent, retries := 0 })
  setPortState k 3
  setIrq (portPage k) 34
  count (C.RETRAIN k) 1
  if s.fldOf (R.PORT_CTRL k) F.PORT_CTRL.retrain_limit ≤ recent.length then
    failPort k
    return true
  return false

/-- Put every flit of the replay buffer on the link again, oldest first (R324). -/
def sendReplay (k : Nat) : Act Unit := do
  let s ← Act.get
  let x := s.port k
  Act.upd (.port k { x with replay := x.replay.map (fun e => { e with sentAt := s.now }) })
  for e in x.replay do send (.flit k (← putFlit k 0 e.seq false e.flit))
  count (C.REPLAY k) x.replay.length

/-- The sender replays what the peer has not acknowledged; after retry_limit replays in succession without progress the link
retrains (R324). Answers whether the port failed. -/
def replayNow (k : Nat) : Act Bool := do
  let s ← Act.get
  let x := s.port k
  if s.portState k ≠ 2 ∨ x.replay.isEmpty then return false
  sendReplay k
  if s.fldOf (R.PORT_CTRL k) F.PORT_CTRL.retry_limit ≤ x.retries + 1 then enterRetrain k
  else
    modPort k (fun y => { y with retries := x.retries + 1 })
    return false

/-- LINK_REPLAY_TIMEOUT (R324): the sender replays once its oldest unacknowledged flit has waited replay_timeout. -/
def replayTimeout (k : Nat) : Act Bool := do
  let s ← Act.get
  match (s.port k).replay with
  | [] => return false
  | e :: _ =>
    if e.sentAt + s.fldOf (R.PORT_CTRL k) F.PORT_CTRL.replay_timeout ≤ s.now then replayNow k else return false

/-- A nak names the flit to replay from: it acknowledges every flit before it (R324). -/
def takeNak (k ack : Nat) : Act Bool := do
  takeAck k ack
  replayNow k

/-- The receiver refuses a data flit: a nak goes out with the expected number unless one is out already (R324). -/
def refuseFlit (k : Nat) : Act Unit := do
  let x ← rd (fun s => s.port k)
  if !x.naked then
    modPort k (fun y => { y with naked := true })
    putIdle k true

/-- Credits for a receive buffer as its allocation gives them: 16 of the command class, and 16 for each unit (R327). -/
def creditOf (alloc : Word) : List Nat :=
  16 :: (List.range 8).map (fun v => 16 * bits alloc.toNat (8 * v + 7) (8 * v))

/-- Flits of a lane place that lie in a port's receive buffer, those in transit among them (R327, R336). -/
def State.rxHeld (s : State) (k i : Nat) : Nat :=
  ((s.port k).rxq.filter (fun f => f.lane = i)).length +
    (if i = 6 then ((s.ports.map (fun e => (e.2.txq.filter (fun f => f.src = some k)).length)).sum) else 0)

/-- The receive buffer has room for a flit of a lane place (R327). -/
def State.rxRoom (s : State) (k i : Nat) : Bool :=
  decide (s.rxHeld k i < (creditOf (s.reg (R.VL_CREDIT k))).getD i 0)

/-- A data flit as it lies in the receive buffer. -/
def rxFlit (l : List Byte) : TxFlit :=
  { vl := flVl l, cmd := flVl l = 0 && flClass l = 0, sop := bit (numAt l 4 1) 3, eop := bit (numAt l 4 1) 2,
    payload := bytesAt l 8 240 }

/-- Without the first `n` uses of a lane place. -/
def freeUses (i : Nat) : Nat → List (Nat × Nat) → List (Nat × Nat)
  | 0, l => l
  | _, [] => []
  | n + 1, u :: l => if u.1 = i then freeUses i n l else u :: freeUses i (n + 1) l

/-- The peer returns credits of a lane place, those longest in use (R327). -/
def takeCredits (k i n : Nat) : Act Unit :=
  modPort k (fun x => { x with credit := laneAdd x.credit i n, inUse := freeUses i n x.inUse })

/-- LINK_FLIT_RX (R323, R324, R327): answers whether the port failed. A flit of the reserved kind, and one for which the receive
buffer has no room, which no sender with credits sends, are not accepted (DESIGN CHOICE 161). -/
def flitRx (k : Nat) (l : List Byte) (fecBad : Bool) : Act Bool := do
  let s ← Act.get
  if s.portState k ≠ 2 ∧ s.portState k ≠ 3 then return false
  if fecBad then count (C.FEC_UNCORR k) 1
  if !flGood l then count (C.CRC_BAD k) 1
  if fecBad || !flGood l then
    refuseFlit k
    return false
  if flKind l = 3 then return false
  if flAckValid l then takeAck k (flAck l)
  takeCredits k (laneIx (flCreditVl l) (flCreditClass l = 0)) (flCredits l)
  if flKind l = 0 then
    let y ← rd (fun t => t.port k)
    if flSeq l = y.rxNext && s.rxRoom k (rxFlit l).lane then
      Act.upd (.port k { y with
        rxNext := (y.rxNext + 1) % 4096
        naked := false
        rxq := y.rxq ++ [rxFlit l] })
    else refuseFlit k
  let failed ← (if flNak l && flAckValid l then replayNow k else pure false)
  pump k
  return failed

/-! ## Port states (R325) -/

/-- Lanes a port runs on: 4 on a switch fabric port, 8 on a board mesh link, half of them while a lane that nothing
replaces has failed (R347). -/
def State.workingWidth (s : State) (k : Nat) : Nat :=
  let full := if k < 8 then 4 else 8
  let st := s.reg (R.PORT_STATUS k)
  let sub := if getFld st F.PORT_STATUS.spare_state = 2 then [getFld st F.PORT_STATUS.spare_for] else []
  let bad := (List.range full).filter (fun i => bit (getFld st F.PORT_STATUS.failed_lanes) i && !sub.contains i)
  if bad.isEmpty then full else full / 2

/-- LINK_TRAIN_PASS (R325): from TRAINING the port comes UP with numbers from 0, the peer's allocation as its credits and its own
told to the peer; from RETRAIN it replays from the oldest unacknowledged flit. Ring traffic held while every port was
FAILED goes out (R332). -/
def trainPass (k : Nat) (alloc : Word) : Act Unit := do
  let s ← Act.get
  let x := s.port k
  if s.portState k ≠ 1 ∧ s.portState k ≠ 3 then return
  wrF (R.PORT_STATUS k) F.PORT_STATUS.width (s.workingWidth k)
  setPortState k 2
  if s.portState k = 1 then
    Act.upd (.port k { x with
      credit := creditOf alloc
      alloc := creditOf alloc
      inUse := []
      txSeq := 0
      replay := []
      rxNext := 0
      naked := false
      retries := 0
      owed := []
      rxq := []
      told := 0
      drrLane := 1
      drrLeft := 0 })
    send (.linkAlloc k (s.reg (R.VL_CREDIT k)))
  else
    modPort k (fun y => { y with retries := 0 })
    sendReplay k
  if k < 8 then
    let held := (← rd (fun t => t.port 12)).held
    if !held.isEmpty then
      Act.upd (.port 12 {})
      for h in held do sendPacket h.part k 0 h.bytes
  pump k

/-- LINK_TRAIN_TIMEOUT (R325): training not passed within 100 ms, or retraining that fails, makes the port FAILED; answers whether
it did. -/
def trainTimeout (k : Nat) : Act Bool := do
  let s ← Act.get
  if (s.portState k = 1 ∧ (s.port k).since + 100000000 ≤ s.now) ∨ s.portState k = 3 then
    failPort k
    return true
  return false

/-- A port's buffers are emptied and its queued packets discarded (R325); flits in transit lie in the receive buffer of the link they
came by, and go with that one. -/
def portEmpty (k : Nat) : Act Unit := do
  modPort k (fun x => { txq := x.txq.filter (fun f => f.src.isSome), nextPkt := x.nextPkt })
  for j in [8, 9, 10, 11] do
    modPort j (fun y => { y with
      txq := y.txq.filter (fun f => f.src ≠ some k), mid := y.mid.filter (fun m => m.2.1 ≠ some k) })

/-- PORT_CTRL.enable has been written (R325): 1 brings a port that is DOWN into TRAINING; 0 takes any port DOWN, empties
its buffers and discards its queued packets. -/
def portEnabled (k : Nat) (en : Bool) : Act Unit := do
  let s ← Act.get
  if en then
    if s.portState k = 0 then
      setPortState k 1
      modPort k (fun x => { x with since := s.now })
  else
    setPortState k 0
    wrF (R.PORT_STATUS k) F.PORT_STATUS.width 0
    portEmpty k

/-- The straps name a position off the board (R477). -/
def State.strapsBad (s : State) : Bool :=
  s.fldOf R.BMS_BOARD F.BMS_BOARD.width_m1 < s.fldOf R.BMS_BOARD F.BMS_BOARD.bx ||
    s.fldOf R.BMS_BOARD F.BMS_BOARD.height_m1 < s.fldOf R.BMS_BOARD F.BMS_BOARD.by_

/-- A VL_CREDIT write that R350 refuses. -/
def State.creditBad (s : State) (k : Nat) (v : Word) : Bool :=
  let u := fun i => bits v.toNat (8 * i + 7) (8 * i)
  s.portState k ≠ 0 || decide (127 < (List.range 8).foldl (fun n i => n + u i) 0) || (k < 8 && u 5 ≠ 0) || u 6 ≠ 0 ||
    u 7 ≠ 0

/-! ## Lanes and the spare (R346 to R348) -/

/-- A link management flit asks for, agrees to or turns down the swap of a lane (R346). -/
def sendLinkMsg (k code lane : Nat) : Act Unit := do
  send (.linkMsg k code lane (← putFlit k 2 0 false (bareFlit (Config.linkPayload code lane))))

/-- The other port of a switch port pair, which shares the spare; a board mesh link has its own. -/
def pairPort (k : Nat) : Option Nat := if k < 8 then some (if k % 2 = 0 then k + 1 else k - 1) else none

def State.spareState (s : State) (k : Nat) : Nat := s.fldOf (R.PORT_STATUS k) F.PORT_STATUS.spare_state

/-- The spare of a port is idle and sound. -/
def State.spareIdle (s : State) (k : Nat) : Bool :=
  s.spareState k = 0 && !bit (s.fldOf (R.PORT_STATUS k) F.PORT_STATUS.failed_lanes) 8 && (s.port k).swap.isNone &&
    (match pairPort k with
     | some j => s.spareState j ≠ 1 && s.spareState j ≠ 2 && (s.port j).swap.isNone
     | none => true)

/-- The spare of a port is sound: neither end of the pair has recorded its failure. -/
def State.spareSound (s : State) (k : Nat) : Bool :=
  let bad (j : Nat) : Bool := bit (s.fldOf (R.PORT_STATUS j) F.PORT_STATUS.failed_lanes) 8
  !bad k && (match pairPort k with
    | some j => !bad j
    | none => true)

/-- The spare of a port takes a state for a lane; the other port of the pair sees it as unavailable meanwhile. -/
def setSpare (k st lane : Nat) : Act Unit := do
  wrF (R.PORT_STATUS k) F.PORT_STATUS.spare_state st
  wrF (R.PORT_STATUS k) F.PORT_STATUS.spare_for lane
  match pairPort k with
  | some j =>
    let other ← rd (fun s => s.spareState j)
    if st = 0 ∧ other = 3 then wrF (R.PORT_STATUS j) F.PORT_STATUS.spare_state 0
    if st ≠ 0 ∧ other = 0 then wrF (R.PORT_STATUS j) F.PORT_STATUS.spare_state 3
  | none => skip

/-- No spare for a failed lane: half width through RETRAIN where one half is sound and width_fallback is set, else FAILED
(R347). Answers whether the port failed. -/
def fallBack (k : Nat) : Act Bool := do
  let s ← Act.get
  let full := if k < 8 then 4 else 8
  let bad := s.fldOf (R.PORT_STATUS k) F.PORT_STATUS.failed_lanes
  let lowOk := (List.range (full / 2)).all (fun i => !bit bad i)
  let highOk := (List.range (full / 2)).all (fun i => !bit bad (full / 2 + i))
  if s.fldOf (R.PORT_CTRL k) F.PORT_CTRL.width_fallback = 1 && (lowOk || highOk) then enterRetrain k
  else
    failPort k
    return true

/-- LANE_FAIL (R346, R347): the lane is swapped for an idle spare where spare_auto is set, else the port falls back;
answers whether the port failed. -/
def laneFailed (k lane : Nat) : Act Bool := do
  let s ← Act.get
  if s.portState k ≠ 2 ∨ (k < 8 ∧ 4 ≤ lane ∧ lane ≠ 8) then return false
  let bad := s.fldOf (R.PORT_STATUS k) F.PORT_STATUS.failed_lanes
  wrF (R.PORT_STATUS k) F.PORT_STATUS.failed_lanes (orBit bad lane)
  if lane = 8 then
    if s.spareState k = 1 ∨ s.spareState k = 2 then
      let l := s.fldOf (R.PORT_STATUS k) F.PORT_STATUS.spare_for
      setSpare k 3 0
      if s.spareState k = 2 then
        fallBack k
      else
        wrF (R.PORT_STATUS k) F.PORT_STATUS.failed_lanes (orBit bad 8)
        if bit bad l then fallBack k else return false
    else
      setSpare k 3 0
      return false
  else if s.fldOf (R.PORT_CTRL k) F.PORT_CTRL.spare_auto = 1 && s.spareIdle k then
    Act.upd (.port k { s.port k with swap := some lane })
    sendLinkMsg k 0 lane
    return false
  else fallBack k

/-- LINK_MANAGEMENT_REQUEST (R346, R348): the peer's request to swap a lane is agreed where the spare is idle, and the
lane's data goes out on the spare as well. -/
def swapRequest (k lane : Nat) : Act Unit := do
  let s ← Act.get
  if s.portState k = 2 && s.spareIdle k && (8 ≤ k || lane < 4) && lane ≠ 8 then
    Act.upd (.port k { s.port k with swap := some lane })
    sendLinkMsg k 1 lane
  else sendLinkMsg k 2 lane

/-- SPARE_SWAP_DONE (R346): both receivers take the spare and the lane leaves service. -/
def swapDone (k : Nat) : Act Unit := do
  let x ← rd (fun s => s.port k)
  match x.swap with
  | none => skip
  | some lane =>
    Act.upd (.port k { x with swap := none })
    setSpare k 2 lane
    setIrq (portPage k) 33
    count (C.SPARE_SWAP k) 1

/-- LINK_DELAY_MEASURE (R349): the one-way delay from the four timestamps, in 1/16 ns. -/
def delayMeasured (k : Nat) (t1 t2 t3 t4 : Nat) : Act Unit := do
  let s ← Act.get
  if s.portState k ≠ 2 then return
  let d : Int := (((t4 : Int) - t1) - ((t3 : Int) - t2)) / 2
  wrF (R.LINK_DELAY k) F.LINK_DELAY.delay (wrapI 32 d)

end Sys2Proof.Machine
end

