-- ==== Sys2Proof/Machine/Command.lean ====
section
/-! DEFINITION. The fabric commands (R341 to R345): QUENCH, UNQUENCH, DRAIN and PSTOP, from a packet or a management
record, and the ends of a quench. Where the spec is open: DEDUCED 18, DESIGN CHOICE 19 of the assumption log. -/

namespace Sys2Proof.Machine

/-- A partition comes under quench, with an end or without (R343). -/
def quenchPart (p durationUs : Nat) : Act Unit := do
  let s ← Act.get
  wrF R.FAB_QUENCHED F.FAB_QUENCHED.parts (orBit (s.fldOf R.FAB_QUENCHED F.FAB_QUENCHED.parts) p)
  wrPart p { s.part p with
    quenchEnd := if durationUs = 0 then none else some (s.now + durationUs * 1000)
    quenchAt := if s.quenched p then (s.part p).quenchAt else s.now }

/-- A partition's quench ends and its held packets go on; while the partition is being stopped it cannot be cleared
(R343, R384). -/
def unquenchPart (p : Nat) : Act Unit := do
  let s ← Act.get
  if s.fldOf (R.PRT_CTRL p) F.PRT_CTRL.stop = 1 then return
  wrF R.FAB_QUENCHED F.FAB_QUENCHED.parts (clrBit (s.fldOf R.FAB_QUENCHED F.FAB_QUENCHED.parts) p)
  wrPart p { s.part p with quenchEnd := none }
  let still := s.now - (s.part p).quenchAt
  Act.upd (.col { s.col with cols := s.col.cols.map (fun c =>
    if c.part = p then { c with paused := c.paused + min still (s.now - c.launched) } else c) })
  for k in List.range 12 do releaseHeld p k

/-- DRAIN on a partition: no admissions, and drain set for the next commit (R343). -/
def drainPart (p : Nat) : Act Unit := do
  wrF (R.REQ_PART_CTRL p) F.REQ_PART_CTRL.admit_enable 0
  wrF (R.REQ_PART_CTRL p) F.REQ_PART_CTRL.drain 1

/-- The body of a command (R342). -/
def cmdTarget (b : List Byte) : Nat := numAt b 0 8
def cmdSeq (b : List Byte) : Nat := numAt b 8 8
def cmdDuration (b : List Byte) : Nat := numAt b 16 4

/-- The partitions a command acts on: 0 names every partition for QUENCH and UNQUENCH only (R342). -/
def State.cmdParts (s : State) (type target : Nat) : List Nat :=
  if target = 0 then
    if type = 0x11 ∨ type = 0x12 then (List.range 32).filter (fun p => s.partValid p) else []
  else (s.partOfKey target).toList

/-- A command's effect on one partition (R343). -/
def commandOn (type duration p : Nat) : Act Unit := do
  if type = 0x11 then quenchPart p duration
  if type = 0x12 then unquenchPart p
  if type = 0x13 then drainPart p
  if type = 0x14 then
    quenchPart p 0
    drainPart p

/-- A fabric command with its 32 B body, counted on the page of port `k` (R342 to R345): a duplicate is discarded, a target
that matches no local partition is dropped, otherwise it is acted on and the hayward interrupted. -/
def fabricCommand (k type : Nat) (b : List Byte) : Act Unit := do
  let s ← Act.get
  if cmdSeq b ≤ (s.reg R.FAB_CMD_SEQ).toNat then
    count (C.CMD_DUP k) 1
  else
    match s.cmdParts type (cmdTarget b) with
    | [] => count (C.KEY_DROP k) 1
    | ps =>
      wrR R.FAB_CMD_SEQ (BitVec.ofNat 64 (cmdSeq b))
      for p in ps do commandOn type (cmdDuration b) p
      count (C.CMD_RX k) 1
      setIrq (pageBase .fab 0) 35

/-- A command packet of one type (R330, R342). -/
def commandPacket (type : Nat) (r : RxPacket) : Act Unit :=
  onPacket r [type] (fun _ => fabricCommand r.port type (pkBody r.bytes))

/-- QUENCH_EXPIRE (R343): a quench whose duration has elapsed ends. -/
def quenchExpire (p : Nat) : Act Unit := do
  let s ← Act.get
  match (s.part p).quenchEnd with
  | some t => if t ≤ s.now ∧ s.quenched p then unquenchPart p
  | none => skip

/-- QUENCH_CLEAR (R343, R351): a write of FAB_QUENCH_CLEAR ends the quench of the named partitions. -/
def quenchClear (mask : Nat) : Act Unit := do
  for p in setBitList 32 mask do
    if ← rd (fun s => s.quenched p) then unquenchPart p

end Sys2Proof.Machine
end

