-- ==== Sys2Proof/Machine/Lands.lean ====
section
/-! DEFINITION. What the package shows at its standby lands: in-band interrupts and milestones of the sideband (R479,
R484), FAULT_L and THERM_TRIP_L (R478), and what leaves the management port (R481). Where the spec is open: DEDUCED 103,
165, 179 and 180, PRESUMED 162 of the assumption log. -/

namespace Sys2Proof.Machine

/-- Change the record of the lands. -/
def modLand (f : LandX → LandX) : Act Unit := do Act.upd (.land (f (← rd (fun s => s.land))))

/-- The in-band interrupt with its byte, once the target has a dynamic address and its interrupts are enabled (R479). -/
def sendIbi (b : Nat) : Act Unit := do
  let x ← rd (fun s => s.land)
  if x.ibi && x.dynAddr.isSome then send (.ibi b)

/-- FAULT_L goes low (R478, R479). -/
def lowFault : Act Unit := do
  if !(← rd (fun s => s.land.faultL)) then
    modLand (fun x => { x with faultL := true })
    sendIbi 2

/-- THERM_TRIP_L goes low (R478, R479). -/
def lowTrip : Act Unit := do
  if !(← rd (fun s => s.land.tripL)) then
    modLand (fun x => { x with tripL := true })
    sendIbi 3

/-- A bring-up milestone is met (R484). -/
def milestone (i : Nat) : Act Unit := do
  if !bit (← rd (fun s => s.land.milestones)) i then
    modLand (fun x => { x with milestones := orBit x.milestones i })
    sendIbi 1

/-- The management port is up (R482). -/
def State.mgtUp (s : State) : Bool := s.fldOf R.MGT_PORT_STATUS F.MGT_PORT_STATUS.link = 2

/-- The management port holds back what it would send: it is not up, a received PAUSE has not run out, or earlier frames wait
(R481). -/
def State.mgtHolds (s : State) : Bool := !s.mgtUp || decide (s.now < s.land.pauseUntil) || s.land.txq ≠ []

/-- Bytes of a frame at the management port around a message of `n` bytes: the Ethernet header, tag and check, and over IPv4 (1) or
IPv6 (2) the IP and UDP headers; no frame is shorter than 64 bytes (R481, R482, PRESUMED 162). -/
def State.mgtWire (s : State) (ip n : Nat) : Nat :=
  max 64 (18 + 4 * s.fldOf R.MGT_PORT_VLAN F.MGT_PORT_VLAN.tagged + [0, 28, 48].getD ip 0 + n)

/-- A frame leaves the management port: its bytes, and what it is. -/
def mgtOut (e : Nat × Out) : Act Unit := do
  count C.MGT_CNT_TX_BYTES e.1
  send e.2

/-- A frame of `len` bytes leaves the management port, or waits there (R481). -/
def mgtSend (len : Nat) (o : Out) : Act Unit := do
  if ← rd State.mgtHolds then modLand (fun x => { x with txq := x.txq ++ [(len, o)] })
  else mgtOut (len, o)

/-- What waited goes out once the port is up and the pause has run out. -/
def mgtDrain : Act Unit := do
  let s ← Act.get
  if s.land.txq ≠ [] ∧ s.mgtUp = true ∧ s.land.pauseUntil ≤ s.now then
    for e in s.land.txq do mgtOut e
    modLand (fun x => { x with txq := [] })

/-- A frame the management port does not take (R481). -/
def mgtDrop : Act Unit := count C.MGT_CNT_RX_DROP 1

/-- A frame of `len` bytes arrives at the management port, if it is up and in service (R14). -/
def mgtFrame (len : Nat) (a : Act Unit) : Act Unit := do
  if ← rd (fun s => s.mgtUp && s.pageServes (pageBase .mgt 0)) then
    count C.MGT_CNT_RX_BYTES len
    a

/-- Nothing but the sideband and JTAG answers after a bring-up that stopped (R391, R483, R485). -/
def awake (a : Act Unit) : Act Unit := do
  if ← rd State.alive then a

/-- An event of a domain that VIN_MAIN feeds: nothing happens while those rails are off (R407, R421), or after a bring-up
that stopped. -/
def mains (a : Act Unit) : Act Unit := do
  if !(← rd (fun s => s.land.railsOff)) then awake a

/-- 1 once hub `h` is failed (R40). -/
def hubLostKey (h : Nat) : Nat := tabKey 38 h

/-- An engine of a hub acts, unless the hub is failed (R40). -/
def hubActs (h : Nat) (a : Act Unit) : Act Unit := do
  if (← ldW (hubLostKey h)) = 0 then a

/-- The control cores that VSTBY powers (R41, R405). -/
def vstbyCores : List Nat := [0, 5, 6, 11]

/-- A control core can act: with the VIN_MAIN rails off only the cores on VSTBY can (R41, R405), and after a bring-up that
stopped none can. -/
def State.coreUp (s : State) (core : Nat) : Bool := s.alive && (!s.land.railsOff || vstbyCores.contains core)

/-- A control core acts. -/
def coreActs (core : Nat) (a : Act Unit) : Act Unit := do
  if ← rd (fun s => s.coreUp core) then a

end Sys2Proof.Machine
end

