-- ==== Sys2Proof/Machine/Regs.lean ====
section
/-! DEFINITION. What every register access goes through: the checks of R6 to R12, R14, R16, R64 and R487 with their reason
codes, the merging of a write by access code, and the holding of staged values. Where the spec is open: DEDUCED 11, 13 and
164, DESIGN CHOICE 8 and 10 of the assumption log. -/

namespace Sys2Proof.Machine

/-- The tick generator runs (R63). -/
def State.run (s : State) : Bool := s.fldOf R.TIM_TICK_CTRL F.TIM_TICK_CTRL.run = 1

/-- A field takes its value at a tick (RWT of R10, and the grant fields of R375). -/
def Acc.isStaged : Acc → Bool
  | .rwt | .hwt => true
  | _ => false

/-- A field only the hayward writes (HW of R10). -/
def Acc.isHw : Acc → Bool
  | .hw | .hwt => true
  | _ => false

/-- A register has a tick-staged field. -/
def RegRow.staged (r : RegRow) : Bool := r.fields.any (fun f => f.acc.isStaged)

/-- The mask of a row's fields that satisfy a test. -/
def RegRow.mask (r : RegRow) (p : Acc → Bool) : Nat :=
  r.fields.foldl (fun n f => if p f.acc then n ||| fieldMask f else n) 0

/-- Bits of `v` under the mask, the rest of `old`. -/
def mergeBits (old v mask : Nat) : Nat := (old &&& (2 ^ 64 - 1 - mask)) ||| (v &&& mask)

/-- The register after a write that takes effect at once: writable fields are replaced, a 1 clears a W1C bit, read-only
and reserved fields stay (R10, R11). -/
def RegRow.written (r : RegRow) (old v : Word) (withStaged : Bool) : Word :=
  let w := r.mask (fun a => a = .rw || a = .hw || a = .wo || (withStaged && a.isStaged))
  let c := r.mask (fun a => a = .w1c)
  let m := mergeBits old.toNat v.toNat w
  BitVec.ofNat 64 (m &&& (2 ^ 64 - 1 - (v.toNat &&& c)))

/-- The register after a staged value has taken effect. -/
def RegRow.applied (r : RegRow) (old v : Word) : Word :=
  BitVec.ofNat 64 (mergeBits old.toNat v.toNat (r.mask Acc.isStaged))

/-- A value lies in a field's stated range and alignment, or is its reset value (R487). -/
def RegField.accepts (f : RegField) (v : Nat) : Bool :=
  v = f.reset || (decide (f.mn ≤ v ∧ v ≤ f.mx) && v % f.align = 0)

/-- Every written field of a row is in range (R487). -/
def RegRow.inRange (r : RegRow) (v : Word) : Bool :=
  r.fields.all (fun f => f.acc = .ro || f.acc = .w1c || f.accepts (bits v.toNat f.hi f.lo))

/-- The issuer may access a page at all: the hayward, or a run-time core acting for the page's owner (R12). -/
def State.owns (s : State) (i : Issuer) (pb : Nat) : Bool :=
  let o := s.reg (pb + 0x20)
  i.hay || (getFld o F.PAGE_OWNER.hay_owned = 0 && i.part = some (getFld o F.PAGE_OWNER.partition))

/-- The issuer may read a page (R12). -/
def State.mayRead (s : State) (i : Issuer) (pb : Nat) : Bool :=
  s.owns i pb || (i.part.isSome && getFld (s.reg (pb + 0x20)) F.PAGE_OWNER.read_all = 1)

/-- What the common checks say of a write, as a reason code of R17; none where the write may go on. -/
def State.writeReason (s : State) (i : Issuer) (addr width : Nat) (v : Word) : Option Nat :=
  if width ≠ 8 ∨ addr % 8 ≠ 0 then some 0x01
  else match pageOf addr with
  | none => some 0x06
  | some (b, p) =>
    let pb := pageBase b p
    if !s.owns i pb then some 0x02
    else match slotAt b p (addr - pb) with
    | .reserved => some 0x06
    | .counter => some 0x04
    | .reg r _ =>
      if r.fields.all (fun f => f.acc = .ro) then some 0x04
      else if !i.hay && r.fields.any (fun f => f.acc.isHw) then some 0x03
      else if !i.hay && decide (0x100 ≤ addr - pb) && getFld (s.reg (pb + 0x28)) F.PAGE_LOCK.lock = 1 then some 0x05
      else if decide (0x100 ≤ addr - pb) && s.record.disabled.contains pb then some 0x07
      else if !r.inRange v then some 0x04
      else if r.staged && s.run && (storeGet (fun _ => none) s.staged addr).isSome then some 0x08
      else none

/-- What the common checks say of a read (R6, R7, R10, R11, R12). -/
def State.readReason (s : State) (i : Issuer) (addr width : Nat) : Option Nat :=
  if width ≠ 8 ∨ addr % 8 ≠ 0 then some 0x01
  else match pageOf addr with
  | none => some 0x06
  | some (.dbl, _) => some 0x04
  | some (b, p) =>
    let pb := pageBase b p
    if !s.mayRead i pb then some 0x02
    else match slotAt b p (addr - pb) with
    | .reserved => some 0x06
    | .counter => none
    | .reg r _ => if r.fields.all (fun f => f.acc = .wo) then some 0x04 else none

/-- The row that lies at a window address. -/
def rowOf (addr : Nat) : Option RegRow :=
  match pageOf addr with
  | none => none
  | some (b, p) =>
    match slotAt b p (addr - pageBase b p) with
    | .reg r _ => some r
    | _ => none

/-- The page base of a window address. -/
def pbOf (addr : Nat) : Nat := Block.glb.base + (addr - Block.glb.base) / 0x1000 * 0x1000

/-- R67: a value staged for a tick no later than the current one is late. -/
def State.lateStage (s : State) (pb : Nat) : Bool :=
  s.fldOf (pb + 0x50) F.SCHED_TICK.tick ≤ s.fldOf R.TIM_TICK_NOW F.TIM_TICK_NOW.tick

/-- A write that passed its checks: fields that act at once are replaced; while ticks run, a tick-staged register holds a
staged value (R64), otherwise it takes the value at once (R63). A register with both kinds of field stages only a
change of its staged fields. -/
def plainWrite (addr : Nat) (v : Word) : Act Unit := do
  match rowOf addr with
  | none => skip
  | some r =>
    let old ← rdR addr
    if r.staged && (← rd State.run) then
      wrR addr (r.written old v false)
      let m := r.mask Acc.isStaged
      if r.fields.all (fun f => f.acc.isStaged || f.acc = .ro) || (v.toNat &&& m) ≠ (old.toNat &&& m) then
        Act.upd (.stage addr (some v))
        wrF (pbOf addr + 0x18) F.PAGE_STATUS.staged_pending 1
    else
      wrR addr (r.written old v true)

end Sys2Proof.Machine
end

