-- ==== Sys2Proof/Machine/Time.lean ====
section
/-! DEFINITION. Fabric time, its discipline and the tick generator (R53 to R63, R78, R79). Where the spec is open: DEDUCED
178, DESIGN CHOICE 2, 21, 140, 141, 142 and 143, PRESUMED 9 and 162 of the assumption log. -/

namespace Sys2Proof.Machine

/-- Change the time record. -/
def modTime (f : TimeX → TimeX) : Act Unit := do Act.upd (.time (f (← rd (fun s => s.time))))

/-- Fabric time in 1/16 ns. -/
def State.now16 (s : State) : Int := (s.now * 16 + s.time.frac / 2 ^ 28 : Nat)

/-- The signed rate adjustment in units of 2^-32 (R78). -/
def State.rateAdj (s : State) : Int := sext 32 (s.fldOf R.TIM_OFFSET F.TIM_OFFSET.rate_adj)

/-- One clock of the fabric-time domain: 1 ns corrected by the rate adjustment (R53). -/
def clockTick : Act Unit := do
  let s ← Act.get
  let t : Int := (s.now * 2 ^ 32 + s.time.frac : Nat) + 2 ^ 32 + s.rateAdj
  let n := t.toNat
  wrR R.TIM_NOW (BitVec.ofNat 64 (n / 2 ^ 32))
  modTime (fun x => { x with frac := n % 2 ^ 32 })

/-! ## The discipline (R54 to R59) -/

/-- The largest rate adjustment, 500 ppm in units of 2^-32 (R58). -/
def maxRate : Nat := 2147483

/-- The servo's rate adjustment is open but for its bound (R58): a free value within ±500 ppm. -/
def chooseRate : Act Unit := do
  let r ← freshBelow (2 * maxRate + 1)
  wrF R.TIM_OFFSET F.TIM_OFFSET.rate_adj (wrapI 32 ((r : Int) - maxRate))

/-- est_error_ns takes a value; unsynchronised shows whether it exceeds the limit (R57, R78). -/
def setEstError (e : Nat) : Act Unit := do
  wrF R.TIM_SYNC_STATUS F.TIM_SYNC_STATUS.est_error_ns e
  let lim ← rdF R.TIM_SYNC_CTRL F.TIM_SYNC_CTRL.error_limit
  wrF R.TIM_SYNC_STATUS F.TIM_SYNC_STATUS.unsynchronised (b2n (decide (lim < e)))

/-- The sources in use (R78): bit 0 PTP, bit 1 beacons. -/
def setSource (ptp : Bool) : Act Unit := do
  let s ← Act.get
  let ports := s.time.beacons.foldl (fun n e => orBit n e.1) 0
  wrF R.TIM_SYNC_STATUS F.TIM_SYNC_STATUS.beacon_ports ports
  wrF R.TIM_SYNC_STATUS F.TIM_SYNC_STATUS.source (b2n ptp + (if ports = 0 then 0 else 2))

/-- All of 16 estimates lie within a band of each other (R57). -/
def agree16 (l : List Int) : Bool :=
  l.length = 16 && l.all (fun a => l.all (fun b => decide (a - b ≤ 16000)))

/-- All of 16 estimates are within ±10 ns (R57). -/
def near16 (l : List Int) : Bool := l.length = 16 && l.all (fun a => decide (-160 ≤ a ∧ a ≤ 160))

/-- A usable source has given an offset estimate: the states of R57 move. -/
def takeEstimate (off : Int) (ptp : Bool) : Act Unit := do
  let s ← Act.get
  let ests := (off :: s.time.ests).take 16
  modTime (fun x => { x with ests := ests, ptpOff := if ptp then off else x.ptpOff })
  wrF R.TIM_OFFSET F.TIM_OFFSET.offset (wrapI 32 off)
  setSource (ptp || s.fldOf R.TIM_SYNC_STATUS F.TIM_SYNC_STATUS.source % 2 = 1)
  setEstError (← freshBelow (2 ^ 16))
  match s.fldOf R.TIM_SYNC_STATUS F.TIM_SYNC_STATUS.state with
  | 1 =>
    if near16 ests then
      wrF R.TIM_SYNC_STATUS F.TIM_SYNC_STATUS.state 2
      wrF R.TIM_SYNC_STATUS F.TIM_SYNC_STATUS.locked_once 1
      chooseRate
    else if agree16 ests && !s.time.stepped && !s.run then
      let n := (s.now16 - off).toNat
      wrR R.TIM_NOW (BitVec.ofNat 64 (n / 16))
      modTime (fun x => { x with frac := n % 16 * 2 ^ 28, stepped := true, ests := [] })
    else chooseRate
  | 2 => chooseRate
  | 3 =>
    wrF R.TIM_SYNC_STATUS F.TIM_SYNC_STATUS.state 2
    clearPageFault (pageBase .tim 0)
    chooseRate
  | _ => skip

/-- The origin time of the current Sync is known: the offset is the arrival time less the origin and the path delay (R55,
R57). -/
def syncEstimate (t1 : Int) : Act Unit := do
  let s ← Act.get
  modTime (fun x => { x with syncT1 := some t1, twoStep := false })
  takeEstimate (s.time.syncT2 - t1 - s.time.pathDelay) true

/-- A PTP time of whole nanoseconds with a correction field (units of 2^-16 ns), in 1/16 ns. -/
def ptpTime (ns corr : Nat) : Int := (ns : Int) * 16 + sext 64 corr / 4096

/-- A PTP message of `n` bytes arrives at the management port; one of another domain or transport, or with PTP off, is dropped
(R55, R481). -/
def ptpFrame (domain transport n : Nat) (a : Act Unit) : Act Unit := do
  let s ← Act.get
  mgtFrame (s.mgtWire transport n) do
    if s.fldOf R.TIM_SYNC_CTRL F.TIM_SYNC_CTRL.ptp_enable = 1 && s.fldOf R.TIM_SYNC_CTRL F.TIM_SYNC_CTRL.ptp_domain = domain &&
        s.fldOf R.TIM_SYNC_CTRL F.TIM_SYNC_CTRL.transport = transport then a
    else mgtDrop

/-- The sender of a PTP message is the selected master (R55). -/
def State.ptpTakes (s : State) (src : Nat) : Bool := match s.time.master with
  | some m => m.1 = src
  | none => false

/-- PTP_SYNC (R55, R57): the message is timestamped on arrival; a one-step Sync carries its origin time. -/
def ptpSync (src domain transport seq : Nat) (twoStep : Bool) (origin corr : Nat) : Act Unit := ptpFrame domain transport 44 do
  let s ← Act.get
  if s.ptpTakes src then
    count C.MGT_CNT_PTP_TS 1
    count C.TIM_CNT_SYNC_RX 1
    modTime (fun x => { x with syncSeq := seq, syncT2 := (s.now : Int) * 16, syncT1 := none, twoStep := twoStep
                               syncCorr := ptpTime 0 corr })
    if s.fldOf R.TIM_SYNC_STATUS F.TIM_SYNC_STATUS.state = 0 then
      wrF R.TIM_SYNC_STATUS F.TIM_SYNC_STATUS.state 1
    if !twoStep then syncEstimate (ptpTime origin corr)

/-- PTP_FOLLOW_UP (R55): the origin time of the two-step Sync of the same number, corrected by what both messages carried. -/
def ptpFollowUp (src domain transport seq origin corr : Nat) : Act Unit := ptpFrame domain transport 44 do
  let s ← Act.get
  if s.ptpTakes src && s.time.twoStep && s.time.syncSeq = seq then
    syncEstimate (ptpTime origin corr + s.time.syncCorr)

/-- A rank is the better of two, compared place by place (the default best master clock algorithm of R55). -/
def rankBetter : List Nat → List Nat → Bool
  | a :: as, b :: bs => if a < b then true else if b < a then false else rankBetter as bs
  | _, _ => false

/-- PTP_ANNOUNCE (R55): the better of the announced and the selected master is selected. A selected master that falls silent
stays selected: no announce receipt timeout is kept (DESIGN CHOICE 140). -/
def ptpAnnounce (src domain transport : Nat) (rank : List Nat) : Act Unit := ptpFrame domain transport 64 do
  let s ← Act.get
  match s.time.master with
  | some m => if m.1 = src ∨ rankBetter rank m.2 then modTime (fun x => { x with master := some (src, rank) })
  | none => modTime (fun x => { x with master := some (src, rank) })

/-- PTP_DELAY_REQ (R55): the package sends a Delay_Req, timestamped as it leaves. -/
def ptpDelayReq : Act Unit := do
  let s ← Act.get
  if s.fldOf R.TIM_SYNC_CTRL F.TIM_SYNC_CTRL.ptp_enable = 1 && s.time.master.isSome then
    modTime (fun x => { x with reqSeq := (x.reqSeq + 1) % 2 ^ 16, reqT3 := some ((s.now : Int) * 16) })
    mgtSend (s.mgtWire (s.fldOf R.TIM_SYNC_CTRL F.TIM_SYNC_CTRL.transport) 44) (.ptpDelayReq ((s.time.reqSeq + 1) % 2 ^ 16))
    count C.MGT_CNT_PTP_TS 1

/-- PTP_DELAY_RESP (R55): the mean path delay from the four times of a Sync and a Delay_Req. -/
def ptpDelayResp (src domain transport seq t4 corr : Nat) : Act Unit := ptpFrame domain transport 54 do
  let s ← Act.get
  if s.ptpTakes src && s.time.reqSeq = seq then
    match s.time.reqT3, s.time.syncT1 with
    | some t3, some t1 =>
      let d := ((s.time.syncT2 - t1) + ((t4 : Int) * 16 - sext 64 corr / 4096 - t3)) / 2
      modTime (fun x => { x with pathDelay := d, reqT3 := none })
    | _, _ => skip

/-- Insert an offset in ascending order. -/
def insOrd (a : Int) : List Int → List Int
  | [] => [a]
  | b :: bs => if a ≤ b then a :: b :: bs else b :: insOrd a bs

/-- The median of the beacon offsets, the lower of the two middle ones of an even number (R56). -/
def medianLow (l : List Int) : Int := (l.foldl (fun acc a => insOrd a acc) []).getD ((l.length - 1) / 2) 0

/-- BEACON (R56): a locked plane's time, corrected by the link delay, enters the median unless it is more than 1 µs off the
PTP estimate. A beacon of a plane that is not locked takes its port out of use; such a beacon, and one before LOCKED, counts
neither as accepted nor as discarded (DESIGN CHOICE 141). The last offset accepted from a port stays in the median until the
port goes out of use (DESIGN CHOICE 142). -/
def beacon (r : RxPacket) : Act Unit :=
  onPacket r [0x10] (fun _ => do
    let s ← Act.get
    let k := r.port.val
    let st := s.fldOf R.TIM_SYNC_STATUS F.TIM_SYNC_STATUS.state
    if s.fldOf R.TIM_SYNC_CTRL F.TIM_SYNC_CTRL.beacon_enable = 1 && (st = 2 || st = 3) then
      let a1 := pkArg1 r.bytes
      if !bit a1 16 then
        modTime (fun x => { x with beacons := x.beacons.filter (fun e => e.1 ≠ k) })
        setSource (s.fldOf R.TIM_SYNC_STATUS F.TIM_SYNC_STATUS.source % 2 = 1)
      else
        let sent : Int := (pkArg0 r.bytes * 16 + a1 % 2 ^ 16 / 4096 : Nat)
        let off := s.now16 - sent - (s.fldOf (R.LINK_DELAY k) F.LINK_DELAY.delay : Int)
        if off - s.time.ptpOff < -16000 ∨ 16000 < off - s.time.ptpOff then
          count C.TIM_CNT_BEACON_REJECT 1
        else
          count C.TIM_CNT_BEACON_RX 1
          modTime (fun x => { x with beacons := x.beacons.filter (fun e => e.1 ≠ k) ++ [(k, off)] })
          let l ← rd (fun t => t.time.beacons)
          takeEstimate (medianLow (l.map (·.2))) false)

/-- TIM_SYNC_CTRL has been written (R55, R78): unsynchronised follows the new limit, a source switched off is out of use, and
with another domain or transport no master is selected. -/
def syncControlled (old : Word) : Act Unit := do
  let s ← Act.get
  let f (g : Fld) : Nat := s.fldOf R.TIM_SYNC_CTRL g
  setEstError (s.fldOf R.TIM_SYNC_STATUS F.TIM_SYNC_STATUS.est_error_ns)
  let ptp := f F.TIM_SYNC_CTRL.ptp_enable = 1 ∧ f F.TIM_SYNC_CTRL.ptp_domain = getFld old F.TIM_SYNC_CTRL.ptp_domain ∧
    f F.TIM_SYNC_CTRL.transport = getFld old F.TIM_SYNC_CTRL.transport
  if ¬ ptp then modTime (fun x => { x with master := none, twoStep := false, syncT1 := none })
  if f F.TIM_SYNC_CTRL.beacon_enable = 0 then modTime (fun x => { x with beacons := [] })
  setSource (decide ptp && s.fldOf R.TIM_SYNC_STATUS F.TIM_SYNC_STATUS.source % 2 = 1)

/-- The tick generator has stopped (R59): fabric time may be stepped again, and out of HOLDOVER it is acquired anew
(DESIGN CHOICE 143). -/
def stepAgain : Act Unit := do
  modTime (fun x => { x with stepped := false })
  if (← rdF R.TIM_SYNC_STATUS F.TIM_SYNC_STATUS.state) = 3 then
    wrF R.TIM_SYNC_STATUS F.TIM_SYNC_STATUS.state 1
    clearPageFault (pageBase .tim 0)

/-- SYNC_LOSS_TIMEOUT (R57): LOCKED without a source enters HOLDOVER, the last rate adjustment held. -/
def syncLoss : Act Unit := do
  if (← rdF R.TIM_SYNC_STATUS F.TIM_SYNC_STATUS.state) = 2 then
    wrF R.TIM_SYNC_STATUS F.TIM_SYNC_STATUS.state 3
    modTime (fun x => { x with beacons := [], ests := [] })
    setSource false

/-- HOLDOVER_ERROR_LIMIT (R57): in HOLDOVER the estimated error passes its limit. -/
def holdoverError (e : Nat) : Act Unit := do
  let s ← Act.get
  if s.fldOf R.TIM_SYNC_STATUS F.TIM_SYNC_STATUS.state = 3 ∧ s.fldOf R.TIM_SYNC_CTRL F.TIM_SYNC_CTRL.error_limit < e then
    setEstError e
    setPageFault (pageBase .tim 0)

/-! ## Ticks (R60 to R63) -/

/-- The tick period in nanoseconds. -/
def State.periodNs (s : State) : Nat := s.fldOf R.TIM_TICK_PERIOD F.TIM_TICK_PERIOD.period_us * 1000

/-- How many periods after the epoch the first boundary after now lies (R60, R63). -/
def State.ticksAhead (s : State) : Int :=
  ((s.now : Int) - (s.reg R.TIM_EPOCH_TIME).toNat) / (s.periodNs : Int) + 1

/-- The lifecycle state (R396, R399): 0 MANUFACTURE, 1 PROVISIONED, 2 OWNED, 3 DECOMMISSIONED. -/
def State.lifecycle (s : State) : Nat := s.fldOf R.SEC_LIFECYCLE F.SEC_LIFECYCLE.state

/-- A write that sets run is refused before the first lock, or in any lifecycle state but OWNED (R63, R396). -/
def State.runRefused (s : State) : Bool :=
  s.fldOf R.TIM_SYNC_STATUS F.TIM_SYNC_STATUS.locked_once = 0 || s.lifecycle ≠ 2

/-- run has been set (R63): the first tick is the first whose boundary lies after now, and the tick registers read 0 until
its edge. -/
def tickStart : Act Unit := do
  let s ← Act.get
  let k := s.ticksAhead
  wrF R.TIM_TICK_NOW F.TIM_TICK_NOW.tick 0
  wrR R.TIM_TICK_TIME 0
  modTime (fun x => { x with
    nextTick := wrapI 48 ((s.fldOf R.TIM_EPOCH_TICK F.TIM_EPOCH_TICK.tick : Int) + k)
    nextTime := (((s.reg R.TIM_EPOCH_TIME).toNat : Int) + k * s.periodNs).toNat })

end Sys2Proof.Machine
end

