-- ==== Sys2Proof/Machine/Tile.lean ====
section
/-! DEFINITION. The operation queue of a tile (R124 to R127, R147): what holds a descriptor at its head, the checks at
issue, retirement and signals, the flush, and the weight buffers an operation names (R44, R45). Where the spec is open:
DEDUCED 31 and 32, DESIGN CHOICE 24, 30 and 147 of the assumption log. -/

namespace Sys2Proof.Machine

/-! ## Descriptors (R147) -/

/-- A number in a descriptor's bytes. -/
abbrev dNum (d : List Byte) (o k : Nat) : Nat := numAt d o k

def dOp (d : List Byte) : Nat := dNum d 0 1
def dFlag (d : List Byte) (i : Nat) : Bool := bit (dNum d 1 1) i
def dFence (d : List Byte) : Bool := dFlag d 0
def dSignal (d : List Byte) : Bool := dFlag d 1
def dBarrier (d : List Byte) : Bool := dFlag d 2
def dUseWbuf (d : List Byte) : Bool := dFlag d 3
def dWbuf (d : List Byte) : Nat := b2n (dFlag d 4)
def dWbufLast (d : List Byte) : Bool := dFlag d 5
def dTag (d : List Byte) : Nat := dNum d 2 2
def dStream (d : List Byte) : Nat := dNum d 4 1 % 16
def dOutStream (d : List Byte) : Nat := dNum d 5 1 % 16
def dSigTarget (d : List Byte) : Nat := dNum d 8 4
def dSigValue (d : List Byte) : Nat := dNum d 12 4

/-- The reserved places of the header (R147). -/
def hdrReserved (d : List Byte) : Bool :=
  dNum d 1 1 / 64 = 0 && dNum d 4 1 / 16 = 0 && dNum d 5 1 / 16 = 0 && dNum d 6 2 = 0 && bits (dNum d 8 4) 21 19 = 0

/-- The reserved bits of an operand reference, and of a tile reference (R148). -/
def refOk (w : Nat) : Bool := w / 2 ^ 21 = 0
def tileRefOk (w : Nat) : Bool := bits w 21 18 = 0

/-- What the checks of R127 find in a body, in their order, and the ranges an operation reads and writes. -/
structure Plan where
  unit : Nat
  /-- The quantiser too, for the output pass of a product with an H4 output (R125). -/
  second : Nat := 0
  /-- Reserved fields of the body, then formats and subop (0x02). -/
  form : Bool := true
  /-- Shapes and counts (0x06). -/
  shape : Bool := true
  reads : List (Nat × Nat) := []
  writes : List (Nat × Nat) := []
  /-- A tile the body names beside the signal tile, as a logical number (0x05). -/
  partner : Option Nat := none
  /-- Ranges in that tile's SRAM. -/
  remote : List (Nat × Nat) := []
  /-- The stream whose table it reads. -/
  table : Option Nat := none
  /-- The stream it quantises on. -/
  quant : Option Nat := none

/-! ## Weight buffers (R44) -/

/-- The state and tag of buffer `w` (0 A, 1 B), and its first byte. -/
def State.wbufState (s : State) (page w : Nat) : Nat :=
  if w = 0 then s.fldOf (R.TILE_WBUF_STATUS page) F.TILE_WBUF_STATUS.a_state
  else s.fldOf (R.TILE_WBUF_STATUS page) F.TILE_WBUF_STATUS.b_state
def State.wbufTag (s : State) (page w : Nat) : Nat :=
  if w = 0 then s.fldOf (R.TILE_WBUF_STATUS page) F.TILE_WBUF_STATUS.a_tag
  else s.fldOf (R.TILE_WBUF_STATUS page) F.TILE_WBUF_STATUS.b_tag
def State.wbufBase (s : State) (page w : Nat) : Nat :=
  (if w = 0 then s.fldOf (R.TILE_WBUF_CFG page) F.TILE_WBUF_CFG.a_base
   else s.fldOf (R.TILE_WBUF_CFG page) F.TILE_WBUF_CFG.b_base) * 4096
def State.wbufSize (s : State) (page w : Nat) : Nat :=
  (if w = 0 then s.fldOf (R.TILE_WBUF_CFG page) F.TILE_WBUF_CFG.a_size
   else s.fldOf (R.TILE_WBUF_CFG page) F.TILE_WBUF_CFG.b_size) * 4096

/-- Set a buffer's state. -/
def setWbuf (page w st : Nat) : Act Unit :=
  wrF (R.TILE_WBUF_STATUS page) (if w = 0 then F.TILE_WBUF_STATUS.a_state else F.TILE_WBUF_STATUS.b_state) st

/-- Set a buffer's tag. -/
def setWbufTag (page w tag : Nat) : Act Unit :=
  wrF (R.TILE_WBUF_STATUS page) (if w = 0 then F.TILE_WBUF_STATUS.a_tag else F.TILE_WBUF_STATUS.b_tag) tag

/-- A TILE_FAULT bit becomes 1: the tile_fault interrupt (R47, R49). -/
def setTileFault (page : Nat) (f : Fld) : Act Unit := do
  if (← rdF (R.TILE_FAULT page) f) = 0 then
    wrF (R.TILE_FAULT page) f 1
    setIrq (pageBase .tile page) 32

/-! ## The queue (R124) -/

def State.opqSize (s : State) (page : Nat) : Nat := s.fldOf (R.TILE_OPQ_CFG page) F.TILE_OPQ_CFG.size
def State.opqTail (s : State) (page : Nat) : Nat := s.fldOf (R.TILE_OPQ_TAIL page) F.TILE_OPQ_TAIL.tail
def State.opqIssued (s : State) (page : Nat) : Nat := s.fldOf (R.TILE_OPQ_HEAD page) F.TILE_OPQ_HEAD.issued
def State.opqRetired (s : State) (page : Nat) : Nat := s.fldOf (R.TILE_OPQ_HEAD page) F.TILE_OPQ_HEAD.retired

/-- The 64 bytes of descriptor number `n` of a tile's queue. -/
def State.descAt (s : State) (page n : Nat) : List Byte :=
  s.memBytes (tileKey page (s.fldOf (R.TILE_OPQ_CFG page) F.TILE_OPQ_CFG.base * 64 + n % s.opqSize page * 64)) 64

/-- The partition of a tile's page; 32 for none. -/
def State.tilePart (s : State) (page : Nat) : Nat := (s.pagePart (pageBase .tile page)).getD 32

/-- A logical number names a tile of a partition (R27, R127). -/
def State.tileOfPart (s : State) (n part : Nat) : Option Nat :=
  match s.tileOf n with
  | some page => if s.tilePart page = part ∧ part < 32 then some page else none
  | none => none

/-- The tile issues descriptors at all: ACTIVE, not quiescing or leaving service, not halted on an error (R48, R125,
R127). -/
def State.tileIssues (s : State) (page : Nat) : Bool :=
  s.tileState page = 3 && s.fldOf (pageBase .tile page + 0x10) F.PAGE_CTRL.enable = 1 &&
    s.fldOf (pageBase .tile page + 0x10) F.PAGE_CTRL.quiesce = 0 && !(s.tile page).leaving &&
    s.fldOf (R.TILE_OP_STATUS page) F.TILE_OP_STATUS.halted = 0 && decide (s.opqSize page ≠ 0) &&
    decide (s.opqIssued page ≠ s.opqTail page)

/-- Two byte ranges overlap. -/
def overlaps (a b : Nat × Nat) : Bool := decide (0 < a.2 ∧ 0 < b.2 ∧ a.1 < b.1 + b.2 ∧ b.1 < a.1 + a.2)
def anyOverlap (l m : List (Nat × Nat)) : Bool := l.any (fun a => m.any (overlaps a))

/-- What holds a descriptor at the head of the queue: nothing, or a wait with the counters that count it (R45, R111,
R125). -/
inductive Held where
  | go
  | wait (counters : List Nat)
deriving DecidableEq, Repr

/-- An issued descriptor holds a unit. -/
def Flight.holds (f : Flight) (unit : Nat) : Bool := unit ≠ 0 && (f.unit = unit || f.second = unit)

/-- The waits of R125, R45 and R111, each with the counters of its own. -/
def State.holdsUp (s : State) (page : Nat) (d : List Byte) (p : Plan) : List (Bool × List Nat) :=
  let x := s.tile page
  [(x.flights.any (fun f => f.holds p.unit || f.holds p.second), []),
   (decide (16 ≤ x.flights.length), []),
   (dFence d && !x.flights.isEmpty, []),
   (dBarrier d && decide (x.released = s.opqIssued page ∨ backwards32 (s.opqIssued page) x.released), []),
   (x.flights.any (fun f => anyOverlap p.writes (f.reads ++ f.writes) || anyOverlap p.reads f.writes),
    [C.TILE_CNT_OP_HAZARD_WAIT page]),
   (dUseWbuf d && (decide (s.wbufState page (dWbuf d) < 2) || x.lastUsed.contains (dWbuf d) ||
      x.flights.any (fun f => dUseWbuf f.bytes && dWbufLast f.bytes && dWbuf f.bytes = dWbuf d)),
    [C.TILE_CNT_WBUF_WAIT page]),
   ((match p.quant with
     | some q => x.flights.any (fun f => f.table = some q)
     | none => false), [C.TILE_CNT_QS_TABLE_WAIT page])]

/-- What holds a descriptor: every cause that stands counts. -/
def State.heldAt (s : State) (page : Nat) (d : List Byte) (p : Plan) : Held :=
  let l := (s.holdsUp page d p).filter (·.1)
  if l.isEmpty then .go else .wait (l.flatMap (·.2))

/-- The first check of R127 that fails, as its code. -/
def State.opCheck (s : State) (page : Nat) (d : List Byte) (p : Plan) : Option Nat :=
  let inEnd := fun (r : Nat × Nat) => decide (r.1 + r.2 ≤ 2 ^ 22)
  if !hdrReserved d || !p.form then some 0x02
  else if !p.shape then some 0x06
  else if !(p.reads ++ p.writes ++ p.remote).all inEnd then some 0x03
  else if dSignal d && (s.tileOfPart (bits (dSigTarget d) 31 22) (s.tilePart page)).isNone then some 0x05
  else if (match p.partner with
      | some n => (s.tileOfPart n (s.tilePart page)).isNone
      | none => false) then some 0x05
  else if dUseWbuf d && s.wbufTag page (dWbuf d) ≠ dTag d then some 0x04
  else none

/-- The head of the queue has issued: it takes its number. -/
def takeHead (page : Nat) : Act Unit := addF (R.TILE_OPQ_HEAD page) F.TILE_OPQ_HEAD.issued 1

/-- The leading descriptors that have all retired are counted (R152). -/
def advanceRetired (page : Nat) : Nat → Act Unit
  | 0 => skip
  | fuel + 1 => do
    let s ← Act.get
    let n := s.opqRetired page
    if (s.tile page).retired.contains n then
      wrF (R.TILE_OPQ_HEAD page) F.TILE_OPQ_HEAD.retired (n + 1)
      modTile page (fun x => { x with retired := x.retired.filter (fun m => m ≠ n) })
      advanceRetired page fuel

/-- Descriptor `n` counts as retired. -/
def noteRetired (page n : Nat) : Act Unit := do
  modTile page (fun x => { x with retired := x.retired ++ [n] })
  let k ← rd (fun s => (s.tile page).retired.length)
  advanceRetired page k

/-- A descriptor fails a check: counted, the first recorded and signalled, the queue halted, or else the descriptor counts as
retired and is passed over (R127). What only counts as retired, here or in a flush, does not add to TILE_CNT_OP_RETIRED (DESIGN
CHOICE 147). -/
def descError (page code : Nat) (d : List Byte) : Act Unit := do
  let s ← Act.get
  let n := s.opqIssued page
  count (C.TILE_CNT_OP_ERR page) 1
  takeHead page
  if s.fldOf (R.TILE_OP_STATUS page) F.TILE_OP_STATUS.err_code = 0 then
    wrF (R.TILE_OP_STATUS page) F.TILE_OP_STATUS.err_code code
    wrF (R.TILE_OP_STATUS page) F.TILE_OP_STATUS.err_opcode (dOp d)
    wrF (R.TILE_OP_STATUS page) F.TILE_OP_STATUS.err_seq n
  if code = 0x04 then setTileFault page F.TILE_FAULT.wbuf_tag
  let ctl := R.TILE_OP_CTRL page
  if s.fldOf ctl F.TILE_OP_CTRL.errsig_enable = 1 then
    match s.tileOfPart (s.fldOf ctl F.TILE_OP_CTRL.errsig_tile) (s.tilePart page) with
    | some t =>
      let w := (← rdR (R.TILE_OP_STATUS page)).toNat
      tileWrite t (s.fldOf ctl F.TILE_OP_CTRL.errsig_offset * 8) (leBytes 8 (w / 2 ^ 16 * 2 ^ 16 + 2 ^ 15))
    | none => skip
  if s.fldOf ctl F.TILE_OP_CTRL.halt_on_error = 1 then
    wrF (R.TILE_OP_STATUS page) F.TILE_OP_STATUS.halted 1
  else noteRetired page n

/-- The opcodes of R144, with the number of subops each takes (R150). -/
def opSubops (opc : Nat) : Option Nat := match opc with
  | 0x00 | 0x01 | 0x02 | 0x03 | 0x0B | 0x10 | 0x14 | 0x15 | 0x18 | 0x19 | 0x1C | 0x20 | 0x30 => some 1
  | 0x08 => some 7
  | 0x09 => some 6
  | 0x0A => some 2
  | 0x0C => some 5
  | _ => none

/-- The issued descriptor that came last retires at once (NOP and WAIT, R125, R126). -/
def retireLast (retire : Nat → Nat → Act Unit) (page : Nat) : Act Unit := do
  retire page ((← rd (fun s => (s.tile page).flights.length)) - 1)

/-- The subop of a descriptor, 0 for an operation without one. -/
def dSubop (d : List Byte) : Nat := match opSubops (dOp d) with
  | some 1 => 0
  | _ => dNum d 40 1

/-- A descriptor whose opcode is reserved fails with 0x01, one with a subop its operation does not take with 0x02; neither
has a meaning of its own, so the queue passes over them as they reach its head (R127). -/
def headError (d : List Byte) : Option Nat := match opSubops (dOp d) with
  | none => some 0x01
  | some n => if dSubop d < n then none else some 0x02

/-- The queue passes over heads that no operation takes. -/
def passBadHeads (page : Nat) : Nat → Act Unit
  | 0 => skip
  | fuel + 1 => do
    let s ← Act.get
    if s.tileIssues page then
      let d := s.descAt page (s.opqIssued page)
      match headError d with
      | some e =>
        match s.heldAt page d { unit := 0 } with
        | .go => do
          descError page e d
          passBadHeads page fuel
        | .wait _ => skip
      | none => skip

/-- Let the queue pass over what it must. -/
def queueMoves (page : Nat) : Act Unit := do
  let s ← Act.get
  passBadHeads page (moves32 (s.opqIssued page) (s.opqTail page))

/-- The head of the queue is an operation of this opcode and subop, nothing holds it and its checks pass: it issues, and
`k` does its work on the tile (page, descriptor) (R125, R127). Otherwise it waits, or it is an error. -/
def issueOp (page opc sub : Nat) (plan : State → Nat → List Byte → Plan) (k : Nat → List Byte → Act Unit) : Act Unit := do
  let s ← Act.get
  if !s.tileIssues page then return
  let d := s.descAt page (s.opqIssued page)
  if dOp d ≠ opc ∨ dSubop d ≠ sub then return
  let p := plan s page d
  match s.heldAt page d p with
  | .wait l => for a in l do count a 1
  | .go =>
    match s.opCheck page d p with
    | some e =>
      descError page e d
      queueMoves page
    | none =>
      if dUseWbuf d then setWbuf page (dWbuf d) 3
      takeHead page
      modTile page (fun x => { x with flights := x.flights ++ [{
        seq := s.opqIssued page, unit := p.unit, second := p.second, reads := p.reads, writes := p.writes, bytes := d, part := s.tilePart page,
        table := p.table }] })
      wrF (R.TILE_OP_STATUS page) F.TILE_OP_STATUS.in_flight ((s.tile page).flights.length + 1)
      k page d
      queueMoves page

/-- A buffer whose last use has retired goes EMPTY once no unretired operation names it (R44). -/
def settleWbuf (page w : Nat) : Act Unit := do
  let x ← rd (fun s => s.tile page)
  if x.lastUsed.contains w && !x.flights.any (fun f => dUseWbuf f.bytes && dWbuf f.bytes = w) then
    modTile page (fun y => { y with lastUsed := y.lastUsed.filter (fun v => v ≠ w) })
    setWbuf page w 0

/-- The flush of a queue (R127): unissued descriptors are discarded, the error record and the halt clear. -/
def discardUnissued (page : Nat) : Act Unit := do
  let s ← Act.get
  let t := s.opqTail page
  wrF (R.TILE_OPQ_HEAD page) F.TILE_OPQ_HEAD.issued t
  wrR (R.TILE_OP_STATUS page) (BitVec.ofNat 64 (s.tile page).flights.length)
  if (s.tile page).flights = [] then
    wrF (R.TILE_OPQ_HEAD page) F.TILE_OPQ_HEAD.retired t
    modTile page (fun x => { x with retired := [], released := t, flushing := false })
    for w in [0, 1] do
      if (← rd (fun s => s.wbufState page w)) = 3 then setWbuf page w 2
  else
    modTile page (fun x => { x with
      flushing := true, released := t
      retired := x.retired ++ ((List.range (moves32 (s.opqIssued page) t)).map (fun i => (s.opqIssued page + i) % 2 ^ 32)) })

/-- Once the issued descriptors have retired: a flush ends, a leaving tile goes to STANDBY, a quiescing one to QUIESCED
(R44, R48, R127). -/
def whenIdle (page : Nat) : Act Unit := do
  let s ← Act.get
  let pb := pageBase .tile page
  if (s.tile page).flights ≠ [] then return
  if (s.tile page).flushing then
    modTile page (fun x => { x with flushing := false, retired := [] })
    wrF (R.TILE_OPQ_HEAD page) F.TILE_OPQ_HEAD.retired (s.opqIssued page)
    for w in [0, 1] do
      if (← rd (fun s => s.wbufState page w)) = 3 then setWbuf page w 2
  if (s.tile page).leaving then
    discardUnissued page
    modTile page (fun x => { x with leaving := false })
    wrF (pb + 0x18) F.PAGE_STATUS.state 2

/-- An issued descriptor of a FAILED tile never retires (R48): the tile's in-flight descriptors are abandoned. -/
def abandonFlights (page : Nat) : Act Unit := do
  modTile page (fun x => { x with flights := [], flushing := false, leaving := false })
  wrF (R.TILE_OP_STATUS page) F.TILE_OP_STATUS.in_flight 0

/-- The SRAM corrected `n` words (R31); more than 64 within one tick set sram_ce_limit (R49). -/
def sramCorrected (page n : Nat) : Act Unit := do
  count (C.TILE_CNT_SRAM_CE page) n
  let c ← rd (fun s => (s.tile page).ces)
  modTile page (fun x => { x with ces := c + n })
  if 64 < c + n ∧ c ≤ 64 then setTileFault page F.TILE_FAULT.sram_ce_limit

/-- OP_RETIRE (R125): the issued descriptor in place `k` retires, its slot is free, and its signal waits for its mesh
writes. SRAM words corrected on the way are counted. -/
def retireOp (page k corrected : Nat) : Act Unit := do
  let s ← Act.get
  match (s.tile page).flights[k]? with
  | none => skip
  | some f =>
    sramCorrected page corrected
    modTile page (fun x => { x with
      flights := x.flights.eraseIdx k
      signals := if dSignal f.bytes then x.signals ++ [(f.part, dSigTarget f.bytes, dSigValue f.bytes)] else x.signals
      lastUsed := if dUseWbuf f.bytes && dWbufLast f.bytes then x.lastUsed ++ [dWbuf f.bytes] else x.lastUsed })
    wrF (R.TILE_OP_STATUS page) F.TILE_OP_STATUS.in_flight ((s.tile page).flights.length - 1)
    count (C.TILE_CNT_OP_RETIRED page) 1
    noteRetired page f.seq
    settleWbuf page 0
    settleWbuf page 1
    whenIdle page
    queueMoves page

/-- The mesh source code of a tile (R17). -/
def tileSrc (page : Nat) : Nat := 0x1000 + page

/-- OP_SIGNAL (R126): the mesh writes of a retired descriptor are acknowledged and its signal value is written,
zero-extended to 64 bits, to its target. -/
def signalOp (page k : Nat) : Act Unit := do
  let s ← Act.get
  match (s.tile page).signals[k]? with
  | none => skip
  | some (part, target, value) =>
    modTile page (fun x => { x with signals := x.signals.eraseIdx k })
    signalTile (tileSrc page) part target value

/-- OP_FLUSH (R127). -/
def flushOps (page : Nat) : Act Unit := do
  discardUnissued page

/-- A tail value is refused: it moves backwards or gives more descriptors than slots (R124). -/
def State.tailRefused (s : State) (page tail : Nat) : Bool :=
  backwards32 (s.opqTail page) tail || decide (s.opqSize page < moves32 (s.opqRetired page) tail - (s.tile page).retired.length)

/-- OPQ_TAIL_WRITE after its access checks (R124); answers whether it was refused. -/
def opqTail (page tail : Nat) : Act Bool := do
  if ← rd (fun s => s.tailRefused page tail) then
    count (C.TILE_CNT_OPQ_REFUSED page) 1
    return true
  wrF (R.TILE_OPQ_TAIL page) F.TILE_OPQ_TAIL.tail tail
  queueMoves page
  return false

/-- BARRIER_RELEASE (R70, R125): the release goes to the tile's first written barrier descriptor that has none. -/
def barrierRelease (page : Nat) : Act Unit := do
  let s ← Act.get
  let r := (s.tile page).released
  let from_ := if backwards32 (s.opqIssued page) r then s.opqIssued page else r
  if s.opqSize page = 0 ∨ backwards32 from_ (s.opqTail page) then return
  match ((List.range (moves32 from_ (s.opqTail page))).map (fun i => (from_ + i) % 2 ^ 32)).find?
      (fun m => dBarrier (s.descAt page m)) with
  | some m => modTile page (fun y => { y with released := (m + 1) % 2 ^ 32 })
  | none => skip

end Sys2Proof.Machine
end

