-- ==== Sys2Proof/Machine/Quant.lean ====
section
/-! DEFINITION. The quantiser (R93 to R111): its streams and their tensor scales, the conversion of a chunk with its
outlier table and status bytes, the wide fallback, and the histories. Where the spec is open: DEDUCED 34, DESIGN CHOICE
145 of the assumption log. -/

namespace Sys2Proof.Machine

/-! ## Streams -/

/-- The record of stream `i` of a tile. -/
def TileX.stream (x : TileX) (i : Nat) : QStream := storeGet (fun _ => {}) x.streams i

/-- Change a stream's record. -/
def modStream (page i : Nat) (f : QStream → QStream) : Act Unit :=
  modTile page (fun x => { x with streams := storePut (fun _ => {}) x.streams i (f (x.stream i)) })

/-- History entry `e` of stream `i`, as TILE_QHIST_DATA lays it out (R95, R122). -/
def histKey (page i e : Nat) : Nat := tabKey 12 (page * 256 + i * 16 + e)

def F.QHIST.valid : Fld := ⟨63, 63⟩
def F.QHIST.max : Fld := ⟨31, 0⟩

/-- The valid entries of a history, as FP32 codes. -/
def State.history (s : State) (page i : Nat) : List Nat :=
  ((List.range 16).map (fun e => s.wordAt (histKey page i e))).filterMap (fun w =>
    if getFld w F.QHIST.valid = 1 then some (getFld w F.QHIST.max) else none)

/-- E_max of an output format (R84). -/
def fmtMax (fmt : Nat) : Nat := match fmt with
  | 0 => 6
  | 1 => 7
  | 2 => 3
  | 3 => 448
  | _ => 57344

/-- The smallest integer k with 2^k × m at least the value v > 0 (R95, R108): found from the lengths of the
significands, then adjusted by one. -/
def smallestExp (v : FV) (m : Nat) : Int := match v with
  | .fin _ n e =>
    let k : Int := e + bitLen n - bitLen m
    if FV.le (.fin false n e) (.fin false m (k - 1)) then k - 1
    else if FV.le (.fin false n e) (.fin false m k) then k else k + 1
  | _ => 0

/-- The format, 0 to 4, a stream's configuration word selects. -/
def cfgFmt (c : Word) : Nat := getFld c F.TILE_QS_CFG.out_format

/-- The tensor scale of a configuration, as an FP32 code (R94, R95). -/
def State.tensorScale (s : State) (page i : Nat) (cfg : Word) : Nat :=
  let given := s.fldOf (R.TILE_QS_TSCALE page i) F.TILE_QS_TSCALE.tscale
  if getFld cfg F.TILE_QS_CFG.scale_mode = 0 then given
  else
    let h := (s.history page i).foldl max 0
    if h = 0 then given
    else
      let k := smallestExp (fp32Val h) (fmtMax (cfgFmt cfg)) - (getFld cfg F.TILE_QS_CFG.headroom : Int)
      fp32Code (.fin false 1 (max (-126) (min 127 k)))

/-- Sample every stream of a tile at a step start (R93), with the pipeline's mode (R161); `again` for the restart of a
rolled-back step, which keeps what it sampled. -/
def sampleStreams (page : Nat) (again : Bool) : Act Unit := do
  let s ← Act.get
  if !again then
    for i in List.range 16 do
      let cfg := s.reg (R.TILE_QS_CFG page i)
      modStream page i (fun q => { q with
        cfg := cfg, outlier := s.reg (R.TILE_QS_OUTLIER page i), side := s.reg (R.TILE_QS_SIDE page i),
        wide := s.reg (R.TILE_QS_WIDE page i) })
      wrF (R.TILE_QS_EFFECT page i) F.TILE_QS_EFFECT.t (s.tensorScale page i cfg)
    modTile page (fun x => { x with
      sampled := true
      fastExp := s.fldOf (R.TILE_ATTN_CTRL page) F.TILE_ATTN_CTRL.fast_exp = 1
      walkDepth := s.fldOf (R.TILE_ATTN_CTRL page) F.TILE_ATTN_CTRL.walk_depth })
  for i in List.range 16 do modStream page i (fun q => { q with maxCode := none, sidePtr := 0 })
  modTile page (fun x => { x with aside := [] })
  wrR (R.TILE_WALK_STATUS page) 0
  wrR (R.TILE_ATTN_LAST page) 0

/-- At the commit of a step the step maxima enter the histories as entry 0 (R96). -/
def commitHistories (page : Nat) : Act Unit := do
  let s ← Act.get
  for i in List.range 16 do
    match ((s.tile page).stream i).maxCode with
    | some m =>
      for e in (List.range 15).reverse do stW (histKey page i (e + 1)) (s.wordAt (histKey page i e)).toNat
      stW (histKey page i 0) (2 ^ 63 + m)
      wrF (R.TILE_QS_EFFECT page i) F.TILE_QS_EFFECT.hist_count ((← rd (fun t => t.history page i)).length)
      modStream page i (fun q => { q with maxCode := none })
    | none => skip
  modTile page (fun x => { x with sampled := false })

/-- A rolled-back step records nothing (R96). -/
def dropMaxima (page : Nat) : Act Unit := do
  for i in List.range 16 do modStream page i (fun q => { q with maxCode := none })

/-! ## One block (R99, R100) -/

/-- The smallest adequate scale for a magnitude (R99). -/
def scaleCode (emax : Nat) (m : FV) : Nat :=
  let c := ue5m3Code (FV.div m (.fin false emax 0))
  if FV.lt (FV.mul (ue5m3Val c) (.fin false emax 0)) m && decide (c < 0xFE) then c + 1 else c

/-- The cap of the outlier path: 8 times the scale the median would take, or 0xFE. -/
def capCode (emax : Nat) (med : FV) : Nat :=
  let v := (ue5m3Val (scaleCode emax med)).shift 3
  if FV.lt (ue5m3Val 0xFE) v then 0xFE else ue5m3Code v

/-- Insert a value in ascending order. -/
def insertVal (a : FV) : List FV → List FV
  | [] => [a]
  | b :: l => if b.lt a then b :: insertVal a l else a :: b :: l

/-- The 16th smallest of 32 magnitudes. -/
def median16 (l : List FV) : FV := (l.foldl (fun acc a => insertVal a acc) []).getD 15 .zero

/-- The largest of a list of magnitudes. -/
def largest (l : List FV) : FV := l.foldl (fun a b => if a.lt b then b else a) .zero

/-- The element code of a magnitude q at most E_max, with its sign (R85, R86, R100); zero is always 0x0. -/
def gridCode (fmt : Nat) (n : Bool) (q : FV) : Nat :=
  match q with
  | .fin _ m e =>
    if fmt = 0 then
      let c := roundCode 1 (-1) m e
      if c = 0 then 0 else c + 8 * b2n n
    else
      let c := roundUnits m e 0
      if n then (16 - c) % 16 else c
  | _ => 0

/-- What the conversion of a chunk carries from block to block, and its counts. -/
structure QAcc where
  lines : List (List Nat) := []
  scales : List Nat := []
  entries : List (Nat × Nat) := []
  candidates : Nat := 0
  status : List Nat := []
  nans : Nat := 0
  flushed : Nat := 0
  satBlocks : Nat := 0
  satElems : Nat := 0
  zeroed : Nat := 0
  overflow : Nat := 0
deriving DecidableEq, Repr

/-- The sampled configuration a conversion uses. -/
structure QConf where
  fmt : Nat
  outliers : Bool
  e5 : Bool
  widen : Bool
  status : Bool
  nEntries : Nat
  tableBase : Nat
  sideBase : Nat
  sideSize : Nat
  wideBase : Nat
  wideSize : Nat
  /-- The tensor scale, an FP32 code. -/
  t : Nat
deriving DecidableEq, Repr

/-- The configuration words as a conversion reads them. -/
def confOf (cfg outlier side wide : Word) (t : Nat) : QConf where
  fmt := cfgFmt cfg
  outliers := getFld cfg F.TILE_QS_CFG.outlier_enable = 1
  e5 := getFld cfg F.TILE_QS_CFG.outlier_fmt = 1
  widen := getFld cfg F.TILE_QS_CFG.outlier_policy = 1
  status := getFld cfg F.TILE_QS_CFG.status_enable = 1
  nEntries := getFld outlier F.TILE_QS_OUTLIER.n_entries
  tableBase := getFld outlier F.TILE_QS_OUTLIER.table_base * 64
  sideBase := getFld side F.TILE_QS_SIDE.side_base * 64
  sideSize := getFld side F.TILE_QS_SIDE.side_size * 64
  wideBase := getFld wide F.TILE_QS_WIDE.wide_base * 64
  wideSize := getFld wide F.TILE_QS_WIDE.wide_size * 64
  t := t

/-- The configuration a quantise operation uses: the one sampled for the step, or, between steps, the one in effect at its
issue (R93). -/
def State.qConf (s : State) (page i : Nat) : QConf :=
  let x := s.tile page
  if x.sampled then
    let q := x.stream i
    confOf q.cfg q.outlier q.side q.wide (s.fldOf (R.TILE_QS_EFFECT page i) F.TILE_QS_EFFECT.t)
  else
    let cfg := s.reg (R.TILE_QS_CFG page i)
    confOf cfg (s.reg (R.TILE_QS_OUTLIER page i)) (s.reg (R.TILE_QS_SIDE page i)) (s.reg (R.TILE_QS_WIDE page i))
      (s.tensorScale page i cfg)

/-- A status byte (R104). -/
def statusByte (sat zeroed : Nat) : Nat := min 15 sat * 16 + min 15 zeroed

/-- One element of a block with scale value `sv`: the block's running element codes and counts. -/
structure QBlk where
  codes : List Nat := []
  entries : List (Nat × Nat) := []
  candidates : Nat := 0
  sat : Nat := 0
  zeroed : Nat := 0
  overflow : Nat := 0
deriving DecidableEq, Repr

/-- One step of the element loop of R99: offset, input, scaled magnitude. -/
def quantElem (q : QConf) (room : Nat) (sv : FV) (b : QBlk) (off : Nat) (x a : FV) : QBlk :=
  let emax := FV.fin false (fmtMax q.fmt) 0
  let top := if q.fmt = 0 then 7 else fmtMax q.fmt
  let satCode := if q.fmt = 0 then top + 8 * b2n x.sign else if x.sign then 16 - top else top
  if FV.lt (FV.mul sv emax) a then
    let cand := q.outliers && a.isFin
    let c := b.candidates + b2n cand
    if cand && decide (b.entries.length < room) then
      let (v, sat) := h8fCode q.e5 (FV.withSign x.sign a)
      { b with codes := b.codes ++ [0], entries := b.entries ++ [(off, v)], candidates := c, sat := b.sat + b2n sat }
    else
      { b with codes := b.codes ++ [satCode], candidates := c, sat := b.sat + 1, overflow := b.overflow + b2n cand }
  else
    let c := gridCode q.fmt x.sign (FV.div a sv)
    { b with codes := b.codes ++ [c], zeroed := b.zeroed + b2n (decide (c = 0) && !a.isZero) }

/-- One block of a chunk in a block format (R99, R103). -/
def quantBlock (q : QConf) (limit : Nat) (r : FV) (acc : QAcc) (bi : Nat) (xs : List FV) : QAcc :=
  let as := xs.map (fun x => if x.isNan then .zero else fp32 (FV.mul x.abs r))
  let nans := (xs.filter FV.isNan).length
  let amax := largest as
  if amax.isZero ∨ FV.lt amax (.fin false 1 (-17)) then
    let z := nans + (as.filter (fun a => !a.isZero)).length
    { acc with
      lines := acc.lines ++ [List.replicate 32 0], scales := acc.scales ++ [0], nans := acc.nans + nans
      flushed := acc.flushed + b2n (!amax.isZero), zeroed := acc.zeroed + z
      status := acc.status ++ [statusByte 0 z] }
  else
    let emax := fmtMax q.fmt
    let c0 := scaleCode emax amax
    let med := median16 as
    let c := if q.outliers && !med.isZero then min c0 (capCode emax med) else c0
    let b := ((List.range 32).zip (xs.zip as)).foldl
      (fun (b : QBlk) e => quantElem q (limit - acc.entries.length) (ue5m3Val c) b (32 * bi + e.1) e.2.1 e.2.2) {}
    let z := b.zeroed + nans
    { acc with
      lines := acc.lines ++ [b.codes], scales := acc.scales ++ [c], entries := acc.entries ++ b.entries
      candidates := acc.candidates + b.candidates, nans := acc.nans + nans
      satBlocks := acc.satBlocks + b2n (decide (0 < b.sat)), satElems := acc.satElems + b.sat
      zeroed := acc.zeroed + z, overflow := acc.overflow + b.overflow
      status := acc.status ++ [statusByte b.sat z] }

/-- The blocks of a chunk in ascending order. -/
def quantBlocks (q : QConf) (limit : Nat) (r : FV) : Nat → Nat → QAcc → List FV → QAcc
  | 0, _, acc, _ => acc
  | n + 1, bi, acc, xs => quantBlocks q limit r n (bi + 1) (quantBlock q limit r acc bi (xs.take 32)) (xs.drop 32)

/-- One group of an H8F conversion (R102). -/
def quantGroup (e5 : Bool) (r : FV) (acc : QAcc) (xs : List FV) : QAcc :=
  let cs := xs.map (fun x => if x.isNan then (0, false) else h8fCode e5 (fp32 (FV.mul x r)))
  let sat := (cs.filter (fun c => c.2)).length
  let z := ((xs.zip cs).filter (fun e => !e.1.isZero && decide (e.2.1 = 0))).length
  { acc with
    lines := acc.lines ++ [cs.map (·.1)], nans := acc.nans + (xs.filter FV.isNan).length
    satBlocks := acc.satBlocks + b2n (decide (0 < sat)), satElems := acc.satElems + sat, zeroed := acc.zeroed + z
    status := acc.status ++ [statusByte sat z] }

/-- The groups of a chunk. -/
def quantGroups (e5 : Bool) (r : FV) : Nat → QAcc → List FV → QAcc
  | 0, acc, _ => acc
  | n + 1, acc, xs => quantGroups e5 r n (quantGroup e5 r acc (xs.take 32)) (xs.drop 32)

/-! ## The operation -/

/-- The status bytes of a chunk go to the side stream until it is full (R104). -/
def writeStatus (page i : Nat) (q : QConf) (bytes : List Nat) : Act Unit := do
  if q.status then
    let p := (← rd (fun s => (s.tile page).stream i)).sidePtr
    let fit := min bytes.length (q.sideSize - p)
    tileWrite page (q.sideBase + p) ((bytes.take fit).map (BitVec.ofNat 8))
    modStream page i (fun x => { x with sidePtr := p + fit })
    if fit < bytes.length then count (C.TILE_CNT_SIDE_DROP page) (bytes.length - fit)

/-- The largest finite magnitude of a list, as an FP32 code, if any element is finite. -/
def maxFinite (xs : List FV) : Option Nat :=
  match xs.filter FV.isFin with
  | [] => none
  | l => some (fp32Code (largest (l.map FV.abs)))

/-- The step maximum takes the chunk's largest finite magnitude while a step runs (R96). -/
def noteMax (page i : Nat) (xs : List FV) : Act Unit := do
  if (← rd (fun s => (s.tile page).sampled)) then
    match maxFinite xs with
    | some m => modStream page i (fun q => { q with maxCode := some (max m (q.maxCode.getD 0)) })
    | none => skip

/-- The outlier table of a chunk (R106). -/
def tableBytes (entries : List (Nat × Nat)) (cap : Nat) : List Byte :=
  entries.flatMap (fun e => leBytes 4 (e.1 * 256 + e.2)) ++
    (if entries.length < cap then leBytes 4 0xFFFFFFFF else [])

/-- The counters of a chunk (R103, R105). -/
def countChunk (page i nb : Nat) (a : QAcc) : Act Unit := do
  count (C.TILE_CNT_QS_BLOCKS page i) nb
  count (C.TILE_CNT_QS_FLUSHED page i) a.flushed
  count (C.TILE_CNT_QS_SATBLK page i) a.satBlocks
  count (C.TILE_CNT_QS_SATELEM page i) a.satElems
  count (C.TILE_CNT_QS_ZEROELEM page i) a.zeroed
  count (C.TILE_CNT_OUTLIER page i) a.entries.length
  count (C.TILE_CNT_OUTLIER_OVF page i) a.overflow
  count (C.TILE_CNT_Q_NAN page) a.nans

/-- Convert a chunk on stream `i`: read as values, written at `base` (R99 to R110). The counters and the status bytes are those
of the first pass; the second pass of the wide fallback adds nothing to them (DESIGN CHOICE 145). -/
def quantise (page i base : Nat) (xs : List FV) : Act Unit := do
  let q ← rd (fun s => s.qConf page i)
  let n := xs.length
  let nb := n / 32
  let r := fp32 (FV.div (.fin false 1 0) (fp32Val q.t))
  noteMax page i xs
  if q.fmt < 3 then
    let limit := if q.outliers then min q.nEntries (n / 64) else 0
    let a := quantBlocks q limit r nb 0 {} xs
    tileWrite page base (a.lines.flatMap packNibbles ++ a.scales.map (BitVec.ofNat 8) ++
      List.replicate (roundUp nb 16 - nb) 0)
    if 0 < limit then tileWrite page q.tableBase (tableBytes a.entries limit)
    writeStatus page i q a.status
    countChunk page i nb a
    let wants := q.outliers && q.widen && decide (limit < a.candidates)
    let fits := decide (n ≤ q.wideSize)
    let k := match maxFinite xs with
      | some m => smallestExp (fp32Val m) 448
      | none => 0
    if wants && fits then
      tileWrite page q.wideBase (xs.map (fun x =>
        BitVec.ofNat 8 (h8fCode false (if x.isNan then .nan else fp32 (FV.mul x (.fin false 1 (-k))))).1))
      if 0 < limit then tileWrite page q.tableBase (leBytes 4 0xFFFFFFFF)
      count (C.TILE_CNT_WIDEN page i) 1
    if wants && !fits then count (C.TILE_CNT_WIDE_SHORT page) 1
    let w := wants && fits
    wrR (R.TILE_QS_CHUNK page i) (BitVec.ofNat 64 (b2n w * 2 ^ 63 + b2n (wants && !fits) * 2 ^ 62 +
      a.candidates % 2 ^ 24 * 2 ^ 32 + (if w then 0 else a.entries.length)))
    modStream page i (fun x => { x with chunk := some {
      fmt := q.fmt, base := base, len := n, cap := limit, tableBase := q.tableBase, e5 := q.e5, wideBase := q.wideBase,
      wideT := fp32Code (.fin false 1 k), widened := w } })
  else
    let a := quantGroups (q.fmt = 4) r nb {} xs
    tileWrite page base (a.lines.flatMap (fun l => l.map (BitVec.ofNat 8)))
    writeStatus page i q a.status
    countChunk page i nb a
    wrR (R.TILE_QS_CHUNK page i) 0
    modStream page i (fun x => { x with chunk := some {
      fmt := q.fmt + 1, base := base, len := n, cap := 0, tableBase := q.tableBase, e5 := q.e5, wideBase := q.wideBase,
      wideT := q.t, widened := false } })

/-- The ranges a chunk of `n` elements writes beside its output (R125). -/
def QConf.ranges (q : QConf) (n : Nat) : List (Nat × Nat) :=
  (if q.outliers && decide (q.fmt < 3) then [(q.tableBase, 4 * min q.nEntries (n / 64))] else []) ++
    (if q.status then [(q.sideBase, q.sideSize)] else []) ++
    (if q.outliers && q.widen && decide (q.fmt < 3) then [(q.wideBase, min n q.wideSize)] else [])

/-! ## QUANT (R99, R144) -/

/-- The body of a vector operation (R150). -/
def vSrc0 (d : List Byte) : Nat := dNum d 16 4
def vSrc1 (d : List Byte) : Nat := dNum d 20 4
def vDst (d : List Byte) : Nat := dNum d 24 4
def vAux (d : List Byte) : Nat := dNum d 28 4
def vN (d : List Byte) : Nat := dNum d 32 4
def vRows (d : List Byte) : Nat := dNum d 36 4
def vParam (d : List Byte) : FV := fp32Val (dNum d 44 4)
def vPartner (d : List Byte) : Nat := dNum d 48 4
def vFlag (d : List Byte) (i : Nat) : Bool := bit (dNum d 41 1) i

/-- The reserved places of a vector body (R150). -/
def vReserved (d : List Byte) : Bool :=
  refOk (vSrc0 d) && refOk (vSrc1 d) && refOk (vDst d) && refOk (vAux d) && dNum d 41 1 / 8 = 0 && dNum d 42 2 = 0 &&
    dNum d 52 8 = 0 && dNum d 60 4 = 0 && tileRefOk (vPartner d)

/-- The shape limits of a vector body (R150). -/
def vShape (d : List Byte) : Bool := decide (1 ≤ vN d ∧ vN d ≤ 1048576 ∧ 1 ≤ vRows d ∧ vRows d ≤ 65535)

def quantPlan (s : State) (page : Nat) (d : List Byte) : Plan :=
  let q := s.qConf page (dStream d)
  let n := vN d * vRows d
  { unit := 3
    form := vReserved d && isFloat (refFmt (vSrc0 d)) && dNum d 40 1 = 0 &&
      refFmt (vDst d) = (if q.fmt < 3 then q.fmt else q.fmt + 1)
    shape := vShape d && decide (n ≤ 1048576) && decide (n % 32 = 0)
    reads := [(refBase (vSrc0 d), fmtBytes (refFmt (vSrc0 d)) n)]
    writes := (refBase (vDst d), fmtBytes (refFmt (vDst d)) n) :: q.ranges n
    quant := some (dStream d) }

/-- The work of a QUANT. -/
def quantWork (page : Nat) (d : List Byte) : Act Unit := do
  let xs ← rd (fun s => s.elems page (refFmt (vSrc0 d)) (refBase (vSrc0 d)) (vN d * vRows d))
  quantise page (dStream d) (refBase (vDst d)) xs

/-! ## QHIST_WRITE (R122) -/

/-- A value for TILE_QHIST_DATA that is refused. -/
def histRefused (v : Word) : Bool := getFld v F.QHIST.valid = 1 && decide (0x7F800000 ≤ getFld v F.QHIST.max)

/-- The history entry TILE_QHIST_SEL names takes a value. -/
def histWrite (page : Nat) (v : Word) : Act Unit := do
  let s ← Act.get
  let i := s.fldOf (R.TILE_QHIST_SEL page) F.TILE_QHIST_SEL.stream
  stW (histKey page i (s.fldOf (R.TILE_QHIST_SEL page) F.TILE_QHIST_SEL.entry))
    (getFld v F.QHIST.valid * 2 ^ 63 + getFld v F.QHIST.max)
  wrF (R.TILE_QS_EFFECT page i) F.TILE_QS_EFFECT.hist_count ((← rd (fun t => t.history page i)).length)

end Sys2Proof.Machine
end

