-- ==== Sys2Proof/Machine/MatOps.lean ====
section
/-! DEFINITION. Matrix products on a tile: MATMUL (R114 to R119, R128 to R130), FINISH (R133) and COMBINE (R132). Where
the spec is open: DEDUCED 33 of the assumption log. -/

namespace Sys2Proof.Machine

/-! ## Bodies (R149) -/

def mAct (d : List Byte) : Nat := dNum d 16 4
def mWt (d : List Byte) : Nat := dNum d 20 4
def mOut (d : List Byte) : Nat := dNum d 24 4
def mBias (d : List Byte) : Nat := dNum d 28 4
def mAdpU (d : List Byte) : Nat := dNum d 32 4
def mAdpB (d : List Byte) : Nat := dNum d 36 4
def mM (d : List Byte) : Nat := dNum d 40 2
def mN (d : List Byte) : Nat := dNum d 42 2
def mK (d : List Byte) : Nat := dNum d 44 3
def mTw (d : List Byte) : FV := fp32Val (dNum d 48 4)
def mTa (d : List Byte) : FV := fp32Val (dNum d 52 4)
def mAlpha (d : List Byte) : FV := fp32Val (dNum d 56 4)
def mRank (d : List Byte) : Nat := dNum d 60 1 + 1
def mFlag (d : List Byte) (i : Nat) : Bool := bit (dNum d 61 1) i
def mHasBias (d : List Byte) : Bool := mFlag d 0
def mAdapter (d : List Byte) : Bool := mFlag d 1
def mPartial (d : List Byte) : Bool := mFlag d 2
def mTaExplicit (d : List Byte) : Bool := mFlag d 3
def mReadOutliers (d : List Byte) : Bool := mFlag d 4
def mOutExp (d : List Byte) : Int := sext 8 (dNum d 62 1)

/-- The reserved places of a matrix body. -/
def mReserved (d : List Byte) : Bool :=
  refOk (mAct d) && refOk (mWt d) && refOk (mOut d) && refOk (mBias d) && refOk (mAdpU d) && refOk (mAdpB d) &&
    dNum d 47 1 = 0 && dNum d 61 1 / 32 = 0 && dNum d 63 1 = 0

/-- The operand pairs of R128 that name an activation in SRAM. -/
def pairOk (a w : Nat) : Bool :=
  (isH4 a && (isH4 w || w = 3)) || (isH8 a && (w = 3 || isH8 w))

/-! ## The parts of an element -/

/-- Element `i` of row-major blocks of an operand, and the scale of a block, read as an H4F activation would be. -/
structure MatSrc where
  fmt : Nat
  elem : Nat → FV
  scale : Nat → FV

/-- The exact sum of the 32 products of a block. -/
def blockSum (a w : MatSrc) (ia iw : Nat) : FV :=
  (List.range 32).foldl (fun acc i => FV.add acc (FV.mul (a.elem (32 * ia + i)) (w.elem (32 * iw + i)))) .zero

/-- A dot product of `nb` blocks in ascending block index: narrow against narrow (R115), H8F or a widened chunk against
blocks with scales (R117), H8F against H8F in ascending index (R118). -/
def dotBlocks (a w : MatSrc) (ia iw nb : Nat) : FV :=
  if a.fmt < 4 then
    (List.range nb).foldl (fun acc b =>
      fp32 (FV.add acc (FV.mul (blockSum a w (ia + b) (iw + b)) (FV.mul (a.scale (ia + b)) (w.scale (iw + b)))))) .zero
  else if w.fmt < 4 then
    (List.range nb).foldl (fun acc b =>
      fp32 (FV.add acc (FV.mul (fp32 (blockSum a w (ia + b) (iw + b))) (w.scale (iw + b))))) .zero
  else
    (List.range (32 * nb)).foldl (fun acc i =>
      fp32 (FV.add acc (FV.mul (a.elem (32 * ia + i)) (w.elem (32 * iw + i))))) .zero

/-- The outlier entries of a row are added after its blocks, in ascending offset (R115). -/
def addOutliers (w : MatSrc) (iw : Nat) (acc : FV) (entries : List (Nat × FV)) : FV :=
  entries.foldl (fun a e => fp32 (FV.add a (FV.mul e.2 (FV.mul (w.elem (32 * iw + e.1)) (w.scale (iw + e.1 / 32)))))) acc

/-- The entries of a chunk's outlier table: offset and value, up to the terminator (R106). -/
def State.tableEntries (s : State) (page : Nat) (c : QChunk) : List (Nat × FV) :=
  (((List.range c.cap).map (fun i => s.tw page (c.tableBase + 4 * i))).takeWhile (fun w => w ≠ 0xFFFFFFFF)).map
    (fun w => (w / 256, (h8fVal c.e5 (w % 256)).1))

/-- Entries of a chunk's outlier table whose value is an H8F NaN or infinity, read as 0 (R88). -/
def State.tableBad (s : State) (page : Nat) (c : QChunk) : Nat :=
  ((((List.range c.cap).map (fun i => s.tw page (c.tableBase + 4 * i))).takeWhile (fun w => w ≠ 0xFFFFFFFF)).filter
    (fun w => (h8fVal c.e5 (w % 256)).2)).length

/-- An operand region as a source. -/
def State.matSrc (s : State) (page fmt base n : Nat) : MatSrc where
  fmt := fmt
  elem := s.elemOf page fmt base
  scale := s.scaleOf page fmt base (n / 32)

/-- The adapter, bias and output steps of R129 on element (i, j). -/
def finishElem (s : State) (page : Nat) (d : List Byte) (i j : Nat) (y0 : FV) : FV :=
  let y1 :=
    if mAdapter d then
      let r := mRank d
      let sum := (List.range r).foldl (fun acc k =>
        fp32 (FV.add acc (FV.mul (s.elemOf page 4 (refBase (mAdpU d)) (i * r + k))
          (s.elemOf page 4 (refBase (mAdpB d)) (k * mN d + j))))) .zero
      fp32 (FV.add y0 (fp32 (FV.mul (mAlpha d) sum)))
    else y0
  if mHasBias d then fp32 (FV.add y1 (s.elemOf page (refFmt (mBias d)) (refBase (mBias d)) j)) else y1

/-- Write the results of a product: an H4 output goes through its stream as one chunk, any other is rounded once
(R130). -/
def writeOut (page : Nat) (d : List Byte) (ys : List FV) : Act Unit := do
  let f := refFmt (mOut d)
  let zs := ys.map (fun y => y.shift (mOutExp d))
  if isH4 f then quantise page (dOutStream d) (refBase (mOut d)) (zs.map fp32)
  else writeVals page f (refBase (mOut d)) zs

/-- The weight operand's first byte: relative to the named buffer with use_wbuf (R147). -/
def State.wtBase (s : State) (page : Nat) (d : List Byte) : Nat :=
  refBase (mWt d) + (if dUseWbuf d then s.wbufBase page (dWbuf d) else 0)

/-! ## Checks common to MATMUL and FINISH -/

/-- Formats of the output, the bias and the adapter operands. -/
def mFormats (s : State) (page : Nat) (d : List Byte) : Bool :=
  let f := refFmt (mOut d)
  f ≠ 3 && (!isH4 f || decide ((s.qConf page (dOutStream d)).fmt = f)) &&
    (!mHasBias d || isFloat (refFmt (mBias d))) &&
    (!mAdapter d || (refFmt (mAdpU d) = 4 && refFmt (mAdpB d) = 4))

/-- Shapes of the output and the adapter. -/
def mShapes (d : List Byte) : Bool :=
  decide (1 ≤ mM d ∧ 1 ≤ mN d) && (!mAdapter d || decide (8 ≤ mRank d)) &&
    decide (-126 ≤ mOutExp d) &&
    (!isH4 (refFmt (mOut d)) || (decide (mN d % 32 = 0) && decide (mM d * mN d ≤ 1048576)))

/-- The ranges both read and write beside their main operands. -/
def mReads (d : List Byte) : List (Nat × Nat) :=
  (if mHasBias d then [(refBase (mBias d), fmtBytes (refFmt (mBias d)) (mN d))] else []) ++
    (if mAdapter d then [(refBase (mAdpU d), mM d * mRank d), (refBase (mAdpB d), mRank d * mN d)] else [])

def mWrites (s : State) (page : Nat) (d : List Byte) : List (Nat × Nat) :=
  (refBase (mOut d), fmtBytes (refFmt (mOut d)) (mM d * mN d)) ::
    (if isH4 (refFmt (mOut d)) then (s.qConf page (dOutStream d)).ranges (mM d * mN d) else [])

/-! ## MATMUL -/

/-- The chunk a read_outliers operation reads (R128). -/
def State.chunkOf (s : State) (page : Nat) (d : List Byte) : Option QChunk :=
  if mReadOutliers d then ((s.tile page).stream (dStream d)).chunk else none

def matmulPlan (s : State) (page : Nat) (d : List Byte) : Plan :=
  let a := refFmt (mAct d)
  let w := refFmt (mWt d)
  let nb := mN d * mK d
  { unit := 1
    second := if isH4 (refFmt (mOut d)) then 3 else 0
    form := mReserved d && pairOk a w && mFormats s page d &&
      (!mPartial d || (!mHasBias d && !mAdapter d && refFmt (mOut d) = 7))
    shape := mShapes d && decide (mK d % 32 = 0) && decide (mM d * mK d ≤ 1048576) &&
      (!mReadOutliers d || (match s.chunkOf page d with
        | some c => decide (c.base = refBase (mAct d)) && decide (c.fmt = a) && decide (c.len = mM d * mK d)
        | none => false))
    reads := (refBase (mAct d), fmtBytes a (mM d * mK d)) :: (s.wtBase page d, fmtBytes w nb) :: mReads d ++
      (match s.chunkOf page d with
       | some c => (c.tableBase, 4 * c.cap) :: (if c.widened then [(c.wideBase, c.len)] else [])
       | none => [])
    writes := mWrites s page d
    table := if mReadOutliers d then some (dStream d) else none
    quant := if isH4 (refFmt (mOut d)) then some (dOutStream d) else none }

/-- The tensor scale of the activation (R128). -/
def State.actScale (s : State) (page : Nat) (d : List Byte) : FV :=
  if mTaExplicit d then mTa d
  else match s.chunkOf page d with
    | some c => if c.widened then fp32Val c.wideT else fp32Val (s.fldOf (R.TILE_QS_EFFECT page (dStream d)) F.TILE_QS_EFFECT.t)
    | none => fp32Val (s.fldOf (R.TILE_QS_EFFECT page (dStream d)) F.TILE_QS_EFFECT.t)

/-- Element (i, j) of a MATMUL before its output step (R129). -/
def matmulElem (s : State) (page : Nat) (d : List Byte) (i j : Nat) : FV :=
  let k := mK d
  let c := s.chunkOf page d
  let wide := match c with
    | some c => c.widened
    | none => false
  let act := match c with
    | some c => if c.widened then s.matSrc page 4 c.wideBase c.len else s.matSrc page (refFmt (mAct d)) (refBase (mAct d)) (mM d * k)
    | none => s.matSrc page (refFmt (mAct d)) (refBase (mAct d)) (mM d * k)
  let wt := s.matSrc page (refFmt (mWt d)) (s.wtBase page d) (mN d * k)
  let row := match c with
    | some c => if wide then [] else ((s.tableEntries page c).filter (fun e => e.1 / k = i)).map (fun e => (e.1 % k, e.2))
    | none => []
  let acc := addOutliers wt (j * (k / 32)) (dotBlocks act wt (i * (k / 32)) (j * (k / 32)) (k / 32)) row
  let y := fp32 (FV.mul (fp32 (FV.mul (s.actScale page d) (mTw d))) acc)
  if mPartial d then y else finishElem s page d i j y

/-- The indices of an M by N result, row by row. -/
def matIndex (m n : Nat) : List (Nat × Nat) := (List.range m).flatMap (fun i => (List.range n).map (fun j => (i, j)))

/-- The work of a MATMUL. -/
def matmulWork (page : Nat) (d : List Byte) : Act Unit := do
  let s ← Act.get
  let ys := (matIndex (mM d) (mN d)).map (fun e => matmulElem s page d e.1 e.2)
  match s.chunkOf page d with
  | some c =>
    if c.widened then countBad page 4 c.wideBase c.len
    else
      countBad page (refFmt (mAct d)) (refBase (mAct d)) (mM d * mK d)
      if 0 < s.tableBad page c then count (C.TILE_CNT_H8F_BAD_IN page) (s.tableBad page c)
  | none => countBad page (refFmt (mAct d)) (refBase (mAct d)) (mM d * mK d)
  countBad page (refFmt (mWt d)) (s.wtBase page d) (mN d * mK d)
  if mAdapter d then
    countBad page 4 (refBase (mAdpU d)) (mM d * mRank d)
    countBad page 4 (refBase (mAdpB d)) (mRank d * mN d)
  if mPartial d then writeVals page 7 (refBase (mOut d)) ys
  else writeOut page d ys

/-! ## FINISH (R133) -/

def finishPlan (s : State) (page : Nat) (d : List Byte) : Plan :=
  { unit := 1
    second := if isH4 (refFmt (mOut d)) then 3 else 0
    form := mReserved d && refFmt (mAct d) = 7 && mFormats s page d && !mPartial d && !mReadOutliers d && !mTaExplicit d
    shape := mShapes d
    reads := (refBase (mAct d), 4 * (mM d * mN d)) :: mReads d
    writes := mWrites s page d
    quant := if isH4 (refFmt (mOut d)) then some (dOutStream d) else none }

/-- The work of a FINISH. -/
def finishWork (page : Nat) (d : List Byte) : Act Unit := do
  let s ← Act.get
  let ys := (matIndex (mM d) (mN d)).map (fun e =>
    finishElem s page d e.1 e.2 (s.elemOf page 7 (refBase (mAct d)) (e.1 * mN d + e.2)))
  if mAdapter d then
    countBad page 4 (refBase (mAdpU d)) (mM d * mRank d)
    countBad page 4 (refBase (mAdpB d)) (mRank d * mN d)
  writeOut page d ys

/-! ## COMBINE (R132) -/

/-- NaN results of the vector unit are counted (R134). -/
def countNan (page : Nat) (ys : List FV) : Act Unit := do
  let c := (ys.filter FV.isNan).length
  if 0 < c then count (C.TILE_CNT_VEC_NAN page) c

def combinePlan (_ : State) (_ : Nat) (d : List Byte) : Plan :=
  let n := vN d * vRows d
  { unit := 2
    form := vReserved d && dNum d 40 1 = 0 && refFmt (vSrc0 d) = 7 && refFmt (vDst d) = 7
    shape := vShape d
    reads := [(refBase (vSrc0 d), 4 * n)]
    writes := [(refBase (vDst d), 4 * n)]
    partner := some (refTile (vPartner d))
    remote := [(refBase (vPartner d), 4 * n)] }

/-- The work of a COMBINE: its own partial plus the partner's, one rounding each. -/
def combineWork (page : Nat) (d : List Byte) : Act Unit := do
  let s ← Act.get
  let n := vN d * vRows d
  match s.tileOfPart (refTile (vPartner d)) (s.tilePart page) with
  | none => skip
  | some q =>
    let ys := (List.range n).map (fun i =>
      fp32 (FV.add (s.elemOf page 7 (refBase (vSrc0 d)) i) (s.elemOf q 7 (refBase (vPartner d)) i)))
    writeVals page 7 (refBase (vDst d)) ys
    countNan page ys

end Sys2Proof.Machine
end

