-- ==== Sys2Proof/Machine/Vector.lean ====
section
/-! DEFINITION. The vector unit: VEW (R134), ACT (R135), REDUCE (R136), NORM (R137) and ROPE (R138). Where the spec is
open: DESIGN CHOICE 36 of the assumption log. -/

namespace Sys2Proof.Machine

/-- Elements of a vector operation. -/
def vCount (d : List Byte) : Nat := vN d * vRows d

/-- The values of an operand of a vector operation. -/
def State.vOperand (s : State) (page ref n : Nat) : List FV := s.elems page (refFmt ref) (refBase ref) n

/-- FP32, BF16 or H8F. -/
def isVec (f : Nat) : Bool := isH8 f || isFloat f

/-! ## VEW -/

/-- Which operands a VEW subop reads: src1, aux. -/
def vewReads (sub : Nat) : Bool × Bool := (sub ≠ 6, sub = 3)

def vewPlan (_ : State) (_ : Nat) (d : List Byte) : Plan :=
  let n := vCount d
  let (r1, ra) := vewReads (dNum d 40 1)
  let rd1 := r1 && !vFlag d 0
  { unit := 2
    form := vReserved d && isVec (refFmt (vSrc0 d)) && isVec (refFmt (vDst d)) && (!rd1 || isVec (refFmt (vSrc1 d))) &&
      (!ra || isVec (refFmt (vAux d)))
    shape := vShape d
    reads := (refBase (vSrc0 d), fmtBytes (refFmt (vSrc0 d)) n) ::
      (if rd1 then [(refBase (vSrc1 d), fmtBytes (refFmt (vSrc1 d)) n)] else []) ++
      (if ra then [(refBase (vAux d), fmtBytes (refFmt (vAux d)) n)] else [])
    writes := [(refBase (vDst d), fmtBytes (refFmt (vDst d)) n)] }

/-- The work of a VEW: `f` on src0, src1 (or param0) and aux gives the exact result, rounded once as it is written. -/
def vewWork (f : FV → FV → FV → FV) (page : Nat) (d : List Byte) : Act Unit := do
  let s ← Act.get
  let n := vCount d
  let (r1, ra) := vewReads (dNum d 40 1)
  let one (ref i : Nat) : FV := s.elemOf page (refFmt ref) (refBase ref) i
  let ys := (List.range n).map (fun i => f (one (vSrc0 d) i) (if vFlag d 0 then vParam d else one (vSrc1 d) i) (one (vAux d) i))
  countBad page (refFmt (vSrc0 d)) (refBase (vSrc0 d)) n
  if r1 && !vFlag d 0 then countBad page (refFmt (vSrc1 d)) (refBase (vSrc1 d)) n
  if ra then countBad page (refFmt (vAux d)) (refBase (vAux d)) n
  writeVals page (refFmt (vDst d)) (refBase (vDst d)) ys
  countNan page ys

/-! ## ACT -/

def actPlan (_ : State) (_ : Nat) (d : List Byte) : Plan :=
  let n := vCount d
  let two := dNum d 40 1 = 5
  { unit := 2
    form := vReserved d && isFloat (refFmt (vSrc0 d)) && isFloat (refFmt (vDst d)) && (!two || isFloat (refFmt (vSrc1 d)))
    shape := vShape d
    reads := (refBase (vSrc0 d), fmtBytes (refFmt (vSrc0 d)) n) ::
      (if two then [(refBase (vSrc1 d), fmtBytes (refFmt (vSrc1 d)) n)] else [])
    writes := [(refBase (vDst d), fmtBytes (refFmt (vDst d)) n)] }

/-- The work of an ACT. -/
def actWork (f : FV → FV → FV) (page : Nat) (d : List Byte) : Act Unit := do
  let s ← Act.get
  let ys := (List.range (vCount d)).map (fun i =>
    f (s.elemOf page (refFmt (vSrc0 d)) (refBase (vSrc0 d)) i) (s.elemOf page (refFmt (vSrc1 d)) (refBase (vSrc1 d)) i))
  writeVals page (refFmt (vDst d)) (refBase (vDst d)) ys
  countNan page ys

/-- swiglu: silu(src0) × src1, the whole function within 4 ulp of its correctly rounded result for |src0| ≤ 88; beyond, silu is
its limit (R135). -/
def actSwiglu (x y : FV) : FV :=
  if x.isNan ∨ FV.lt (.fin false 88 0) x.abs then fp32 (FV.mul (actSilu x) y)
  else withinUlps 4 8 (fp32Code x * 2 ^ 32 + fp32Code y) (FV.mul (FV.mul x (sigmoidVal x)) y)

/-! ## REDUCE (R136) -/

/-- Lane `l` of a row: its elements, 128 apart, in ascending index. -/
def laneSum (f : FV → FV → FV) (xs : List FV) (l : Nat) : FV :=
  (List.range ((xs.length + 127 - l) / 128)).foldl (fun acc i => f acc (xs.getD (l + 128 * i) .zero)) .zero

/-- Neighbours added pairwise. -/
def addPairs : List FV → List FV
  | a :: b :: l => fp32 (FV.add a b) :: addPairs l
  | l => l

/-- The sum of a row: 128 lanes, then 7 levels of pairs. -/
def reduceSum (f : FV → FV → FV) (xs : List FV) : FV :=
  ((List.range 7).foldl (fun l _ => addPairs l) ((List.range 128).map (laneSum f xs))).headD .zero

def sumStep (acc x : FV) : FV := fp32 (FV.add acc x)
def squareStep (acc x : FV) : FV := fp32 (FV.add acc (FV.mul x x))

/-- Fold a row of at least one element. -/
def fold1 (f : FV → FV → FV) : List FV → FV
  | [] => .zero
  | x :: l => l.foldl f x

def reducePlan (_ : State) (_ : Nat) (d : List Byte) : Plan :=
  { unit := 2
    form := vReserved d && isFloat (refFmt (vSrc0 d)) && refFmt (vDst d) = 7
    shape := vShape d
    reads := [(refBase (vSrc0 d), fmtBytes (refFmt (vSrc0 d)) (vCount d))]
    writes := [(refBase (vDst d), 4 * vRows d)] }

/-- Row `r` of an operand with rows of `n`. -/
def State.vRow (s : State) (page ref n r : Nat) : List FV :=
  (List.range n).map (fun i => s.elemOf page (refFmt ref) (refBase ref) (r * n + i))

/-- The work of a REDUCE: `f` on each row. -/
def reduceWork (f : List FV → FV) (page : Nat) (d : List Byte) : Act Unit := do
  let s ← Act.get
  let ys := (List.range (vRows d)).map (fun r => f (s.vRow page (vSrc0 d) (vN d) r))
  writeVals page 7 (refBase (vDst d)) ys
  countNan page ys

/-! ## NORM (R137) -/

/-- Where the beta vector of a layer normalisation starts: at aux, or, with given statistics, after the two FP32
statistics of each row at aux, 16 B aligned. -/
def betaBase (d : List Byte) : Nat := refBase (vAux d) + (if vFlag d 1 then roundUp (8 * vRows d) 16 else 0)

def normPlan (_ : State) (_ : Nat) (d : List Byte) : Plan :=
  let n := vCount d
  let layer := dNum d 40 1 = 1
  { unit := 2
    form := vReserved d && isFloat (refFmt (vSrc0 d)) && isFloat (refFmt (vSrc1 d)) && isFloat (refFmt (vDst d)) &&
      (!layer || isFloat (refFmt (vAux d)))
    shape := vShape d
    reads := (refBase (vSrc0 d), fmtBytes (refFmt (vSrc0 d)) n) :: (refBase (vSrc1 d), fmtBytes (refFmt (vSrc1 d)) (vN d)) ::
      (if layer then [(betaBase d, fmtBytes (refFmt (vAux d)) (vN d))] else []) ++
      (if vFlag d 1 then [(refBase (vAux d), (if layer then 8 else 4) * vRows d)] else [])
    writes := [(refBase (vDst d), fmtBytes (refFmt (vDst d)) n)] }

/-- fp32(1/n). -/
def recipN (n : Nat) : FV := fp32 (FV.div (.fin false 1 0) (.fin false n 0))

/-- The scale of a row from its sum of squares. -/
def normScale (ss eps : FV) (n : Nat) : FV := rsqrtVal (fp32 (FV.add (fp32 (FV.mul ss (recipN n))) eps))

/-- A row of an RMS normalisation before its output rounding. -/
def rmsRow (s : State) (page : Nat) (d : List Byte) (r : Nat) : List FV :=
  let n := vN d
  let xs := s.vRow page (vSrc0 d) n r
  let ss := if vFlag d 1 then s.elemOf page 7 (refBase (vAux d)) r else reduceSum squareStep xs
  let q := normScale ss (vParam d) n
  (List.range n).map (fun i =>
    fp32 (FV.mul (fp32 (FV.mul (xs.getD i .zero) q)) (s.elemOf page (refFmt (vSrc1 d)) (refBase (vSrc1 d)) i)))

/-- A row of a layer normalisation before its output rounding. -/
def layerRow (s : State) (page : Nat) (d : List Byte) (r : Nat) : List FV :=
  let n := vN d
  let xs := s.vRow page (vSrc0 d) n r
  let mu := if vFlag d 1 then s.elemOf page 7 (refBase (vAux d)) (2 * r) else fp32 (FV.mul (reduceSum sumStep xs) (recipN n))
  let ds := xs.map (fun x => fp32 (FV.sub x mu))
  let vs := if vFlag d 1 then s.elemOf page 7 (refBase (vAux d)) (2 * r + 1) else reduceSum squareStep ds
  let q := normScale vs (vParam d) n
  (List.range n).map (fun i =>
    fp32 (FV.add (fp32 (FV.mul (fp32 (FV.mul (ds.getD i .zero) q)) (s.elemOf page (refFmt (vSrc1 d)) (refBase (vSrc1 d)) i)))
      (s.elemOf page (refFmt (vAux d)) (betaBase d) i)))

/-- The work of a NORM. -/
def normWork (row : State → Nat → List Byte → Nat → List FV) (page : Nat) (d : List Byte) : Act Unit := do
  let s ← Act.get
  let ys := (List.range (vRows d)).flatMap (row s page d)
  writeVals page (refFmt (vDst d)) (refBase (vDst d)) ys
  countNan page ys

/-! ## ROPE (R138) -/

def ropePlan (_ : State) (_ : Nat) (d : List Byte) : Plan :=
  let n := vCount d
  { unit := 2
    form := vReserved d && dNum d 40 1 = 0 && isFloat (refFmt (vSrc0 d)) && isFloat (refFmt (vDst d)) && refFmt (vAux d) = 7
    shape := vShape d && decide (vN d % 2 = 0)
    reads := [(refBase (vSrc0 d), fmtBytes (refFmt (vSrc0 d)) n), (refBase (vSrc1 d), 4 * vRows d),
      (refBase (vAux d), 4 * (vN d / 2))]
    writes := [(refBase (vDst d), fmtBytes (refFmt (vDst d)) n)] }

/-- Element `i` of a rotated row. -/
def ropeElem (s : State) (page : Nat) (d : List Byte) (r i : Nat) : FV :=
  let n := vN d
  let half := n / 2
  let pair := if vFlag d 2 then i % half else i / 2
  let first := if vFlag d 2 then decide (i < half) else decide (i % 2 = 0)
  let x (k : Nat) : FV := s.elemOf page (refFmt (vSrc0 d)) (refBase (vSrc0 d)) (r * n + k)
  let x0 := x (if vFlag d 2 then pair else 2 * pair)
  let x1 := x (if vFlag d 2 then pair + half else 2 * pair + 1)
  let a := fp32 (FV.mul (.fin false (s.tw page (refBase (vSrc1 d) + 4 * r)) 0) (s.elemOf page 7 (refBase (vAux d)) pair))
  let (sn, cs) := sinCosVal a
  if first then FV.sub (FV.mul x0 cs) (FV.mul x1 sn) else FV.add (FV.mul x0 sn) (FV.mul x1 cs)

/-- The work of a ROPE. -/
def ropeWork (page : Nat) (d : List Byte) : Act Unit := do
  let s ← Act.get
  let ys := (matIndex (vRows d) (vN d)).map (fun e => ropeElem s page d e.1 e.2)
  writeVals page (refFmt (vDst d)) (refBase (vDst d)) ys
  countNan page ys

end Sys2Proof.Machine
end

