-- ==== Sys2Proof/Machine/Select.lean ====
section
/-! DEFINITION. Selection, copy and sampling on a tile: TOPK and SELECT (R139), GATHER and SCATTER (R140), SAMPLE (R141,
R142), with the bodies of R151. Where the spec is open: DEDUCED 35 and 42, DESIGN CHOICE 148, PRESUMED 22 of the
assumption log. -/

namespace Sys2Proof.Machine

/-! ## TOPK and SELECT (R139) -/

def kScores (d : List Byte) : Nat := dNum d 16 4
def kBias (d : List Byte) : Nat := dNum d 20 4
def kVals (d : List Byte) : Nat := dNum d 24 4
def kIdx (d : List Byte) : Nat := dNum d 28 4
def kN (d : List Byte) : Nat := dNum d 32 4
def kRows (d : List Byte) : Nat := dNum d 36 4
def kMax (d : List Byte) : Nat := dNum d 40 2
def kMin (d : List Byte) : Nat := dNum d 42 1
def kHasBias (d : List Byte) : Bool := bit (dNum d 43 1) 0
def kByBiased (d : List Byte) : Bool := bit (dNum d 43 1) 1
def kTheta (d : List Byte) : FV := fp32Val (dNum d 44 4)
def kOffset (d : List Byte) : Nat := dNum d 48 4
def kCounts (d : List Byte) : Nat := dNum d 52 4

/-- One element under ranking: its index, its ranking value, its score, the value tested against θ. -/
structure Ranked where
  ix : Nat
  rank : FV
  score : FV
  test : FV
deriving DecidableEq, Repr

/-- Insert an element by descending ranking value; an equal one stays behind those already there. -/
def insertRank (a : Ranked) : List Ranked → List Ranked
  | [] => [a]
  | b :: l => if FV.lt b.rank a.rank then a :: b :: l else b :: insertRank a l

/-- A row in rank order: descending, ties to the lower index, NaN last. -/
def rankRow (xs : List Ranked) : List Ranked := xs.foldl (fun acc a => insertRank a acc) []

/-- The elements of row `r` of a TOPK or SELECT. -/
def State.rankedRow (s : State) (page : Nat) (d : List Byte) (r : Nat) : List Ranked :=
  (List.range (kN d)).map (fun i =>
    let x := s.elemOf page 7 (refBase (kScores d)) (r * kN d + i)
    let v := if kHasBias d then fp32 (FV.add x (s.elemOf page (refFmt (kBias d)) (refBase (kBias d)) i)) else x
    { ix := i, rank := if kHasBias d && kByBiased d then v else x, score := x, test := v })

/-- The elements SELECT keeps, in rank order. -/
def selectKeep (theta : FV) (kmin kmax : Nat) (ranked : List Ranked) : List Ranked :=
  let pass := ranked.filter (fun e => FV.ge e.test theta)
  if kmax < pass.length then pass.take kmax
  else if pass.length < kmin then
    let fill := (ranked.filter (fun e => !FV.ge e.test theta)).take (kmin - pass.length)
    ranked.filter (fun e => (pass ++ fill).any (fun f => f.ix = e.ix))
  else pass

/-- An index as it is written. -/
def kIndex (d : List Byte) (i : Nat) : Nat := (i + kOffset d) % 2 ^ 32

def kForm (d : List Byte) : Bool :=
  refOk (kScores d) && refOk (kBias d) && refOk (kVals d) && refOk (kIdx d) && dNum d 43 1 / 4 = 0 &&
    refFmt (kScores d) = 7 && refFmt (kVals d) = 7 && (!kHasBias d || isFloat (refFmt (kBias d)))

def kReads (d : List Byte) : List (Nat × Nat) :=
  (refBase (kScores d), 4 * (kN d * kRows d)) ::
    (if kHasBias d then [(refBase (kBias d), fmtBytes (refFmt (kBias d)) (kN d))] else [])

/-- The body of a TOPK. Its rows, like those of SELECT and SAMPLE, are 1 to 65,535 (DESIGN CHOICE 148). -/
def topkPlan (_ : State) (_ : Nat) (d : List Byte) : Plan :=
  { unit := 5
    form := kForm d
    shape := decide (1 ≤ kN d ∧ kN d ≤ 65536 ∧ 1 ≤ kRows d ∧ kRows d ≤ 65535 ∧ 1 ≤ kMax d ∧ kMax d ≤ min (kN d) 1024)
    reads := kReads d
    writes := [(refBase (kVals d), 4 * (kMax d * kRows d)), (refBase (kIdx d), 4 * (kMax d * kRows d))] }

def selectPlan (_ : State) (_ : Nat) (d : List Byte) : Plan :=
  { unit := 5
    form := kForm d && refOk (kCounts d)
    shape := decide (1 ≤ kN d ∧ kN d ≤ 65536 ∧ 1 ≤ kRows d ∧ kRows d ≤ 65535 ∧ 1 ≤ kMax d ∧ kMax d ≤ 64 ∧ kMin d ≤ kMax d)
    reads := kReads d
    writes := [(refBase (kVals d), 4 * (kMax d * kRows d)), (refBase (kIdx d), 4 * (kMax d * kRows d)),
      (refBase (kCounts d), 4 * kRows d)] }

/-- NaN values met in ranking, each element once. -/
def countSelNan (page : Nat) (sel : Bool) (rows : List (List Ranked)) : Act Unit := do
  let c := (rows.flatMap (fun l => l.filter (fun e => e.rank.isNan || (sel && e.test.isNan)))).length
  if 0 < c then count (C.TILE_CNT_SEL_NAN page) c

/-- The work of a TOPK. -/
def topkWork (page : Nat) (d : List Byte) : Act Unit := do
  let s ← Act.get
  let rows := (List.range (kRows d)).map (fun r => s.rankedRow page d r)
  let kept := rows.flatMap (fun l => (rankRow l).take (kMax d))
  writeVals page 7 (refBase (kVals d)) (kept.map (·.score))
  writeWords page (refBase (kIdx d)) (kept.map (fun e => kIndex d e.ix))
  countSelNan page false rows

/-- The work of a SELECT. -/
def selectWork (page : Nat) (d : List Byte) : Act Unit := do
  let s ← Act.get
  let rows := (List.range (kRows d)).map (fun r => s.rankedRow page d r)
  let kept := rows.map (fun l => selectKeep (kTheta d) (kMin d) (kMax d) (rankRow l))
  writeVals page 7 (refBase (kVals d)) (kept.flatMap (fun l => l.map (·.score) ++ List.replicate (kMax d - l.length) .zero))
  writeWords page (refBase (kIdx d))
    (kept.flatMap (fun l => l.map (fun e => kIndex d e.ix) ++ List.replicate (kMax d - l.length) 0xFFFFFFFF))
  writeWords page (refBase (kCounts d)) (kept.map (·.length))
  countSelNan page true rows

/-! ## GATHER and SCATTER (R140) -/

def gSrc (d : List Byte) : Nat := dNum d 16 4
def gDst (d : List Byte) : Nat := dNum d 20 4
def gList (d : List Byte) : Nat := dNum d 24 4
def gWeights (d : List Byte) : Nat := dNum d 28 4
def gEntries (d : List Byte) : Nat := dNum d 32 4
def gRowBytes (d : List Byte) : Nat := dNum d 36 4
def gAccum (d : List Byte) : Bool := bit (dNum d 43 1) 0
def gWeighted (d : List Byte) : Bool := bit (dNum d 43 1) 1
def gBound (d : List Byte) : Nat := dNum d 44 4

/-- A reference names another tile: its tile field is not 0. -/
def isRemote (w : Nat) : Bool := refTile w ≠ 0

/-- The tile a GATHER reads from or a SCATTER writes to. -/
def State.copyTile (s : State) (page ref : Nat) : Nat :=
  if isRemote ref then (s.tileOfPart (refTile ref) (s.tilePart page)).getD page else page

/-- An index as a copy uses it: none for a skip. -/
def copyIndex (d : List Byte) (i : Nat) : Option Nat :=
  if i = 0xFFFFFFFF then none else if gBound d ≤ i then none else some i

/-- The index list of a copy. -/
def State.copyList (s : State) (page : Nat) (d : List Byte) : List Nat :=
  (List.range (gEntries d)).map (fun i => s.tw page (refBase (gList d) + 4 * i))

/-- Skips and indices out of range are counted. -/
def countIndices (page : Nat) (d : List Byte) (l : List Nat) : Act Unit := do
  let sk := (l.filter (fun i => i = 0xFFFFFFFF)).length
  let rg := (l.filter (fun i => decide (i ≠ 0xFFFFFFFF ∧ gBound d ≤ i))).length
  if 0 < sk then count (C.TILE_CNT_IDX_SKIP page) sk
  if 0 < rg then count (C.TILE_CNT_IDX_RANGE page) rg

def gForm (d : List Byte) (remote plain : Nat) : Bool :=
  (if isRemote remote then tileRefOk remote else refOk remote) && refOk plain && refOk (gList d) && refOk (gWeights d) &&
    dNum d 43 1 / 4 = 0

def gShape (d : List Byte) : Bool :=
  decide (gRowBytes d % 16 = 0 ∧ 16 ≤ gRowBytes d ∧ gRowBytes d ≤ 65536)

def gatherPlan (_ : State) (_ : Nat) (d : List Byte) : Plan :=
  let far := isRemote (gSrc d)
  let src := (refBase (gSrc d), gBound d * gRowBytes d)
  { unit := 5
    form := gForm d (gSrc d) (gDst d)
    shape := gShape d
    reads := (refBase (gList d), 4 * gEntries d) :: (if far then [] else [src])
    writes := [(refBase (gDst d), gEntries d * gRowBytes d)]
    partner := if far then some (refTile (gSrc d)) else none
    remote := if far then [src] else [] }

def scatterPlan (_ : State) (_ : Nat) (d : List Byte) : Plan :=
  let far := isRemote (gDst d)
  let dst := (refBase (gDst d), gBound d * gRowBytes d)
  { unit := 5
    form := gForm d (gDst d) (gSrc d) && (!gAccum d || (refFmt (gSrc d) = 7 && (far || refFmt (gDst d) = 7)))
    shape := gShape d
    reads := (refBase (gList d), 4 * gEntries d) :: (refBase (gSrc d), gEntries d * gRowBytes d) ::
      (if gAccum d && gWeighted d then [(refBase (gWeights d), 4 * gEntries d)] else []) ++
      (if gAccum d && !far then [dst] else [])
    writes := if far then [] else [dst]
    partner := if far then some (refTile (gDst d)) else none
    remote := if far then [dst] else [] }

/-- The work of a GATHER. -/
def gatherWork (page : Nat) (d : List Byte) : Act Unit := do
  let s ← Act.get
  let l := s.copyList page d
  let q := s.copyTile page (gSrc d)
  let rb := gRowBytes d
  tileWrite page (refBase (gDst d)) (l.flatMap (fun i => match copyIndex d i with
    | some r => s.memBytes (tileKey q (refBase (gSrc d) + r * rb)) rb
    | none => List.replicate rb 0))
  countIndices page d l

/-- One row of a SCATTER, in list order. -/
def scatterRow (page q : Nat) (d : List Byte) (j i : Nat) : Act Unit := do
  match copyIndex d i with
  | none => skip
  | some r =>
    let s ← Act.get
    let rb := gRowBytes d
    let so := refBase (gSrc d) + j * rb
    let dst := refBase (gDst d) + r * rb
    if gAccum d then
      let w := if gWeighted d then s.elemOf page 7 (refBase (gWeights d)) j else .fin false 1 0
      writeVals q 7 dst ((List.range (rb / 4)).map (fun e =>
        fp32 (FV.add (s.elemOf q 7 dst e) (FV.mul w (s.elemOf page 7 so e)))))
    else tileWrite q dst (s.memBytes (tileKey page so) rb)

/-- The work of a SCATTER. -/
def scatterWork (page : Nat) (d : List Byte) : Act Unit := do
  let s ← Act.get
  let l := s.copyList page d
  let q := s.copyTile page (gDst d)
  for e in (List.range l.length).zip l do scatterRow page q d e.1 e.2
  countIndices page d l

/-! ## The draw (R141). PRESUMED: the Philox-4×32-10 algorithm itself stands outside the spec, which names it. -/

/-- One round of Philox-4×32. -/
def philoxRound (k : Nat × Nat) (c : Nat × Nat × Nat × Nat) : Nat × Nat × Nat × Nat :=
  let p0 := 0xD2511F53 * c.1
  let p1 := 0xCD9E8D57 * c.2.2.1
  ((p1 / 2 ^ 32) ^^^ c.2.1 ^^^ k.1, p1 % 2 ^ 32, (p0 / 2 ^ 32) ^^^ c.2.2.2 ^^^ k.2, p0 % 2 ^ 32)

/-- Ten rounds, the key bumped between them. -/
def philox (k : Nat × Nat) (c : Nat × Nat × Nat × Nat) : Nat × Nat × Nat × Nat :=
  ((List.range 10).foldl (fun (a : (Nat × Nat) × (Nat × Nat × Nat × Nat)) _ =>
    (((a.1.1 + 0x9E3779B9) % 2 ^ 32, (a.1.2 + 0xBB67AE85) % 2 ^ 32), philoxRound a.1 a.2)) (k, c)).2

/-- The result word of a draw (R141). -/
def drawWord (seed j d c : Nat) : Nat :=
  let r := philox (seed % 2 ^ 32, seed / 2 ^ 32 % 2 ^ 32) (d / 4, j % 2 ^ 32, c, 0)
  match d % 4 with
  | 0 => r.1
  | 1 => r.2.1
  | 2 => r.2.2.1
  | _ => r.2.2.2

/-- The uniform value of a draw. -/
def drawUniform (seed j d c : Nat) : FV := .fin false (drawWord seed j d c / 256) (-24)

/-! ## SAMPLE (R142) -/

def sVals (d : List Byte) : Nat := dNum d 16 4
def sIds (d : List Byte) : Nat := dNum d 20 4
def sRecs (d : List Byte) : Nat := dNum d 24 4
def sCand (d : List Byte) : Nat := dNum d 32 4
def sRows (d : List Byte) : Nat := dNum d 36 4

def samplePlan (_ : State) (_ : Nat) (d : List Byte) : Plan :=
  { unit := 5
    form := refOk (sVals d) && refOk (sIds d) && refOk (sRecs d) && refFmt (sVals d) = 7
    shape := decide (1 ≤ sCand d ∧ sCand d ≤ 1024 ∧ 1 ≤ sRows d ∧ sRows d ≤ 65535)
    reads := [(refBase (sVals d), 4 * (sCand d * sRows d)), (refBase (sIds d), 4 * (sCand d * sRows d)),
      (refBase (sRecs d), 32 * sRows d)]
    writes := (List.range (sRows d)).map (fun r => (refBase (sRecs d) + 32 * r + 24, 4)) }

/-- The place of the candidate picked: the procedure of R142. -/
def samplePick (ls : List FV) (g topP u : FV) : Nat :=
  if g.isZero then 0
  else
    let l0 := ls.headD .zero
    let es := ls.map (fun l => exp2Strict (fp32 (FV.mul (fp32 (FV.sub l l0)) g)))
    let total := es.foldl sumStep .zero
    let cum := (es.foldl (fun (a : List FV × FV) e => let c := sumStep a.2 e; (a.1 ++ [c], c)) ([], .zero)).1
    let limit := fp32 (FV.mul topP total)
    let keep := match cum.findIdx? (fun c => FV.ge c limit) with
      | some i => i + 1
      | none => ls.length
    let target := fp32 (FV.mul u (cum.getD (keep - 1) .zero))
    match (cum.take keep).findIdx? (fun c => FV.gt c target) with
    | some i => i
    | none => keep - 1

/-- A row record's g and top_p are usable (R142). -/
def sampleOk (g topP : FV) : Bool :=
  g.isFin && FV.ge g .zero && FV.gt topP .zero && FV.ge (.fin false 1 0) topP

/-- One row of a SAMPLE. -/
def sampleRow (page : Nat) (d : List Byte) (r : Nat) : Act Unit := do
  let s ← Act.get
  let k := sCand d
  let rec_ := refBase (sRecs d) + 32 * r
  let num (o w : Nat) := s.memNum (tileKey page (rec_ + o)) w
  let g := fp32Val (num 16 4)
  let topP := fp32Val (num 20 4)
  let ok := sampleOk g topP
  let ls := (List.range k).map (fun i => s.elemOf page 7 (refBase (sVals d)) (r * k + i))
  let pick := if ok then samplePick ls g topP (drawUniform (num 0 8) (num 8 4) (num 12 2) (num 14 1)) else 0
  writeWords page (rec_ + 24) [s.tw page (refBase (sIds d) + 4 * (r * k + pick))]
  count (C.TILE_CNT_SAMPLE_ROWS page) 1
  if !ok then count (C.TILE_CNT_SAMPLE_BAD page) 1

/-- The work of a SAMPLE. -/
def sampleWork (page : Nat) (d : List Byte) : Act Unit := do
  for r in List.range (sRows d) do sampleRow page d r

/-! ## NOP and WAIT (R126, R144) -/

def nopPlan (_ : State) (_ : Nat) (d : List Byte) : Plan :=
  { unit := 0, form := (d.drop 16).all (fun b => b = 0) }

def waitPlan (_ : State) (_ : Nat) (d : List Byte) : Plan :=
  { unit := 0, form := bits (dNum d 16 4) 31 19 = 0 && (bytesAt d 20 4).all (fun b => b = 0) && (bytesAt d 32 24).all (fun b => b = 0) }

/-- The word a WAIT watches has reached its value. -/
def State.waitMet (s : State) (page : Nat) (d : List Byte) : Bool :=
  decide (dNum d 24 8 ≤ s.memNum (tileKey page (bits (dNum d 16 4) 18 0 * 8)) 8)

/-- A WAIT at the head of the queue: it issues and retires at once when its word has reached its value, otherwise it waits
and is counted (R126). -/
def waitOp (page : Nat) : Act Unit := do
  let s ← Act.get
  if !s.tileIssues page then return
  let d := s.descAt page (s.opqIssued page)
  let p := waitPlan s page d
  if dOp d = 0x30 ∧ s.heldAt page d p = .go ∧ s.opCheck page d p = none ∧ !s.waitMet page d then
    count (C.TILE_CNT_OP_WAIT_SIG page) 1
  else issueOp page 0x30 0 waitPlan (fun q _ => retireLast (fun pg k => retireOp pg k 0) q)

end Sys2Proof.Machine
end

