-- ==== Sys2Proof/Machine/Attn.lean ====
section
/-! DEFINITION. The attention pipeline and the KV page walker: the ATTN operation (R154 to R163, R172, R178), KV frames
(R164 to R166), page lists (R167 to R169) and the look-aside buffer (R170, R171). Where the spec is open: DEDUCED 45, 46
and 167, DESIGN CHOICE 44 and 146 of the assumption log. -/

namespace Sys2Proof.Machine

/-! ## The body (R178) -/

def aQ (d : List Byte) : Nat := dNum d 16 4
def aOut (d : List Byte) : Nat := dNum d 20 4
def aSpace (d : List Byte) : Nat := bits (dNum d 24 8) 49 48
def aList (d : List Byte) : Nat := bits (dNum d 24 8) 47 0
def aLen (d : List Byte) : Nat := dNum d 32 3
def aQpos (d : List Byte) : Nat := dNum d 36 4
def aNq (d : List Byte) : Nat := dNum d 40 2
def aHeads (d : List Byte) : Nat := dNum d 42 1
def aHif (d : List Byte) : Nat := dNum d 43 1
def aHd (d : List Byte) : Nat := dNum d 44 2
def aKv (d : List Byte) : Nat := dNum d 46 1 % 4
def aMask (d : List Byte) : Nat := dNum d 46 1 / 4 % 8
def aArg (d : List Byte) : Nat := dNum d 48 4
def aFirst (d : List Byte) : Nat := dNum d 52 2
def aStride (d : List Byte) : Nat := dNum d 54 2
def aSk (d : List Byte) : FV := fp32Val (dNum d 56 4)
def aTv (d : List Byte) : FV := fp32Val (dNum d 60 4)
def aRows (d : List Byte) : Nat := aNq d * aHeads d
/-- Positions of a position block: 128 in H4F, 64 in H8F. -/
def aBlock (d : List Byte) : Nat := if aKv d = 2 then 128 else 64

/-- Where the status bytes start: the first 16 B aligned address after the output (R172). -/
def aStatus (d : List Byte) : Nat := roundUp (refBase (aOut d) + fmtBytes (refFmt (aOut d)) (aRows d * aHd d)) 16

/-- The count word of an index list, at most what a list may hold (R163). -/
def State.maskCount (s : State) (page : Nat) (d : List Byte) : Nat := s.tw page (refBase (aArg d))

def attnPlan (s : State) (page : Nat) (d : List Byte) : Plan :=
  let n := aRows d * aHd d
  let frameElems := if aKv d = 2 then 256 else 512
  { unit := 4
    form := refOk (aQ d) && refOk (aOut d) && dNum d 24 8 / 2 ^ 50 = 0 && dNum d 35 1 = 0 && dNum d 46 1 / 32 = 0 &&
      dNum d 47 1 = 0 && decide (aMask d < 5) && decide (aKv d < 3) && decide (aSpace d < 2) && decide (aList d % 4096 = 0) &&
      (refFmt (aQ d) = 6 || isH8 (refFmt (aQ d))) && (refFmt (aOut d) = 7 || refFmt (aOut d) = 6 || refFmt (aOut d) = 4) &&
      (aMask d ≠ 4 || refOk (aArg d))
    shape := decide (aHd d % 32 = 0 ∧ 32 ≤ aHd d ∧ aHd d ≤ 512 ∧ n ≤ 8192 ∧ 1 ≤ aLen d ∧ 1 ≤ aNq d ∧ aNq d ≤ 64 ∧
      1 ≤ aHeads d ∧ aHeads d ≤ 16 ∧ aHif d * aHd d < frameElems ∧ 1 ≤ aStride d)
    reads := (refBase (aQ d), fmtBytes (refFmt (aQ d)) n) ::
      (if aMask d = 4 then [(refBase (aArg d), 4 + 4 * min 65536 (s.maskCount page d))] else [])
    writes := [(refBase (aOut d), fmtBytes (refFmt (aOut d)) n), (aStatus d, aRows d)] }

/-! ## Masks (R163) -/

/-- The positions of an index list. -/
def State.maskList (s : State) (page : Nat) (d : List Byte) : List Nat :=
  (List.range (s.maskCount page d)).map (fun i => s.tw page (refBase (aArg d) + 4 + 4 * i))

/-- Strictly ascending. -/
def ascending : List Nat → Bool
  | a :: b :: l => decide (a < b) && ascending (b :: l)
  | _ => true

/-- The mask is valid: a window of at least 1, a list of 1 to 65,536 ascending positions. -/
def State.maskOk (s : State) (page : Nat) (d : List Byte) : Bool :=
  match aMask d with
  | 2 => aArg d ≠ 0
  | 4 => decide (1 ≤ s.maskCount page d ∧ s.maskCount page d ≤ 65536) && ascending (s.maskList page d)
  | _ => true

/-- Key position `j` is visible to a row at query position `p`. -/
def visible (d : List Byte) (list : List Nat) (p j : Nat) : Bool :=
  decide (j < aLen d) &&
    (match aMask d with
     | 0 => true
     | 1 => decide (j ≤ p)
     | 2 => decide (p < j + aArg d ∧ j ≤ p)
     | 3 => decide (j ≤ p ∨ j < aArg d)
     | _ => list.contains j)

/-- The query position of row `r` (R154). -/
def aPos (d : List Byte) (r : Nat) : Nat := aQpos d + r / aHeads d

/-! ## Page lists (R167, R168) -/

def F.PD.frame : Fld := ⟨31, 0⟩
def pdFrame (e : List Byte) : Nat := numAt e 0 4
def pdBits (e : List Byte) : Nat := numAt e 4 1
def pdValid (e : List Byte) : Bool := bit (pdBits e) 7
def pdLeased (e : List Byte) : Bool := bit (pdBits e) 6
def pdCompressed (e : List Byte) : Bool := bit (pdBits e) 5
def pdDirty (e : List Byte) : Bool := bit (pdBits e) 4
def pdCow (e : List Byte) : Bool := bit (pdBits e) 3
def pdShared (e : List Byte) : Bool := bit (pdBits e) 2
def pdTier (e : List Byte) : Nat := pdBits e % 4
def pdRc (e : List Byte) : Nat := numAt e 8 4 % 2 ^ 20
def pdOwner (e : List Byte) : Nat := numAt e 12 1 % 32
/-- The check of a descriptor or a link. -/
def pdCheck (e : List Byte) : Bool := crc8 (e.take 15) = numAt e 15 1

/-- A link names a block: valid, space 0 or 1, 4 KiB aligned (R167). -/
def linkOk (e : List Byte) : Bool := bit (numAt e 6 1) 7 && decide (numAt e 6 1 % 4 < 2) && decide (numAt e 0 6 % 4096 = 0)
def linkSpace (e : List Byte) : Nat := numAt e 6 1 % 4
def linkAddr (e : List Byte) : Nat := numAt e 0 6

/-- Build a descriptor with its check (R168). -/
def mkPd (frame flags rc owner : Nat) : List Byte :=
  let b := leBytes 4 frame ++ leBytes 1 flags ++ [0, 0, 0] ++ leBytes 4 rc ++ leBytes 1 owner ++ [0, 0]
  b ++ leBytes 1 (crc8 b)

/-- A descriptor with its flag byte replaced and its check computed again. -/
def pdWithBits (e : List Byte) (v : Nat) : List Byte :=
  mkPd (pdFrame e) v (pdRc e) (pdOwner e)

/-- Status codes of R172. -/
def stTier : Nat := 2
def stCheck : Nat := 3
def stInvalid : Nat := 4
def stData : Nat := 5
def stMask : Nat := 6
def stOwner : Nat := 7

/-- The look-aside buffer, most recently used first, without its least recently used entry that is not pinned. -/
def dropLru (pins : List (Nat × Nat)) (l : List (Nat × Nat × List Byte)) : List (Nat × Nat × List Byte) :=
  (l.reverse.eraseP (fun y => !pins.contains (y.1, y.2.1))).reverse

/-- Put an item at the front of the look-aside buffer, which holds 32: a miss takes a free or the least recently used unpinned
entry (R170). -/
def asidePut (page : Nat) (key : Nat × Nat) (e : List Byte) : Act Unit := do
  modTile page (fun x =>
    let l := (key.1, key.2, e) :: x.aside.filter (fun y => ¬ (y.1 = key.1 ∧ y.2.1 = key.2))
    { x with aside := if 32 < l.length then dropLru x.pins l else l })
  let n ← rd (fun s => (s.tile page).aside.length)
  wrF (R.TILE_WALK_STATUS page) F.TILE_WALK_STATUS.valid_entries n

/-- The pinned entries change, and TILE_WALK_STATUS shows how many they are (R170, R179). -/
def setPins (page : Nat) (f : List (Nat × Nat) → List (Nat × Nat)) : Act Unit := do
  modTile page (fun x => { x with pins := f x.pins })
  let n ← rd (fun s => (s.tile page).pins.length)
  wrF (R.TILE_WALK_STATUS page) F.TILE_WALK_STATUS.pinned n

/-- Fetch the 16 bytes of an item of a list, from the look-aside buffer or from memory (R170): the item, or a status. -/
def asideFetch (page part : Nat) (key : Nat × Nat) (space addr : Nat) : Act (Except Nat (List Byte)) := do
  let x ← rd (fun s => s.tile page)
  match x.aside.find? (fun y => y.1 = key.1 ∧ y.2.1 = key.2) with
  | some y =>
    count (C.TILE_CNT_WALK_HIT page) 1
    asidePut page key y.2.2
    return .ok y.2.2
  | none =>
    count (if space = 0 then C.TILE_CNT_WALK_MISS_HUB page else C.TILE_CNT_WALK_MISS_GDDR page) 1
    match ← spRead (tileSrc page) part space addr 16 with
    | .ok e =>
      asidePut page key e
      return .ok e
    | .error r => return .error (if r = 0x10 then stData else stInvalid)

/-- Where a walk stands in its list: the block's number, space and address. -/
structure ListPos where
  block : Nat
  space : Nat
  addr : Nat
deriving DecidableEq, Repr

/-- Follow links until block `b` of a list is reached (R167): at most `fuel` of them. -/
def followLinks (page part list : Nat) : Nat → ListPos → Act (Except Nat ListPos)
  | 0, p => return .ok p
  | fuel + 1, p => do
    match ← asideFetch page part (list, 2 ^ 32 + p.block) p.space (p.addr + 4080) with
    | .error st => return .error st
    | .ok e =>
      if !pdCheck e then
        count (C.TILE_CNT_WALK_CHECK page) 1
        return .error stCheck
      else if !linkOk e then return .error stInvalid
      else followLinks page part list fuel { block := p.block + 1, space := linkSpace e, addr := linkAddr e }

/-- The checks of R169 on a descriptor, in their order: the status of the first that fails. -/
def State.pdStatus (s : State) (part : Nat) (e : List Byte) : Option Nat :=
  if !pdCheck e then some stCheck
  else if !pdValid e || pdTier e = 3 then some stInvalid
  else if pdOwner e ≠ part && !pdShared e then some stOwner
  else if pdTier e = 2 then some stTier
  else if pdTier e = 0 then
    match s.tileOf (pdFrame e / 64 % 1024) with
    | none => some stInvalid
    | some q => if s.tilePart q ≠ part then some stOwner else none
  else none

/-- Fetch and check list entry `i` (R167 to R169): the descriptor and where the walk stands. -/
def walkEntry (page part list i : Nat) (p : ListPos) : Act (Except Nat (List Byte × ListPos)) := do
  match ← followLinks page part list (i / 255 - p.block) p with
  | .error st => return .error st
  | .ok q =>
    match ← asideFetch page part (list, i) q.space (q.addr + 16 * (i % 255)) with
    | .error st => return .error st
    | .ok e =>
      match ← rd (fun s => s.pdStatus part e) with
      | some st =>
        if st = stCheck then count (C.TILE_CNT_WALK_CHECK page) 1
        if st = stTier then count (C.TILE_CNT_WALK_TIER page) 1
        return .error st
      | none => return .ok (e, q)

/-! ## Frames (R164 to R166, R248) -/

/-- The partition whose GDDR7 space a descriptor's frame lies in (R166). -/
def pdSpace (part : Nat) (e : List Byte) : Nat := if pdShared e then pdOwner e else part

/-- Bytes of a compressed frame: its sectors from their records (R248, R250). -/
def readPacked (src part base off len : Nat) : Act (Except Nat (List Byte)) := do
  match ← gRead src part (base + 0xFFC0) 64 with
  | .error r => return .error r
  | .ok hdr =>
    let first := off / 4096
    let mut acc : List Byte := []
    for k in List.range ((off + len - 1) / 4096 + 1 - first) do
      let n := numAt hdr (2 * (first + k)) 2
      if 4032 < n then return .error 0x10
      match ← gRead src part (base + 4096 * (first + k)) (roundUp n 64) with
      | .error r => return .error r
      | .ok rec_ =>
        match slotSector n rec_ with
        | none => return .error 0x10
        | some sec => acc := acc ++ sec
    return .ok (bytesAt acc (off - 4096 * first) len)

/-- Bytes of the frame a descriptor names, for the walker: the bytes, or a status (R166, R169). -/
def readFrame (page part : Nat) (e : List Byte) (off len : Nat) : Act (Except Nat (List Byte)) := do
  if pdTier e = 0 then
    match ← rd (fun s => s.tileOf (pdFrame e / 64 % 1024)) with
    | none => return .error stInvalid
    | some q => return .ok (← ldBytes (tileKey q (pdFrame e % 64 * 65536 + off)) len)
  else
    let owner := pdSpace part e
    let base := pdFrame e * 65536
    match ← (if pdCompressed e then readPacked (tileSrc page) owner base off len
             else gRead (tileSrc page) owner (base + off) len) with
    | .ok bs => return .ok bs
    | .error r => return .error (if r = 0x10 then stData else stInvalid)

/-- K and V of one head of one frame, as bytes: elements and, in H4F, block scales. -/
structure KvBytes where
  k : List Byte
  v : List Byte
  ks : List Byte
  vs : List Byte
deriving DecidableEq, Repr

/-- Read a part of a frame, `len` bytes for each key block: those of the key blocks that are needed; the place of one that is
not stays 0 and is never used (R156). -/
def readBlocks (page part : Nat) (e : List Byte) (off len : Nat) : List Bool → Act (Except Nat (List Byte))
  | [] => return .ok []
  | need :: rest => do
    match ← (if need then readFrame page part e off len else pure (.ok (List.replicate len 0))) with
    | .error st => return .error st
    | .ok bs =>
      match ← readBlocks page part e (off + len) len rest with
      | .error st => return .error st
      | .ok more => return .ok (bs ++ more)

/-- Read the head of a frame (R164, R165), of the key blocks that are needed. -/
def readHead (page part : Nat) (d e : List Byte) (need : List Bool) : Act (Except Nat KvBytes) := do
  let h := aHif d
  let hd := aHd d
  let vo := if aKv d = 2 then 0x4000 else 0x8000
  let n := if aKv d = 2 then 32 * hd else 64 * hd
  match ← readBlocks page part e (h * 64 * hd) n need with
  | .error st => return .error st
  | .ok k =>
    match ← readBlocks page part e (vo + h * 64 * hd) n need with
    | .error st => return .error st
    | .ok v =>
      if aKv d ≠ 2 then return .ok { k := k, v := v, ks := [], vs := [] }
      else
        match ← readBlocks page part e (0xF800 + h * 4 * hd) (2 * hd) need with
        | .error st => return .error st
        | .ok ks =>
          match ← readBlocks page part e (0xFC00 + h * 4 * hd) (2 * hd) need with
          | .error st => return .error st
          | .ok vs => return .ok { k := k, v := v, ks := ks, vs := vs }

/-- Dimension `i` of position `p` of a head's K or V, with its block scale (R158, R164, R165). -/
def kvElem (d : List Byte) (els scales : List Byte) (p i : Nat) : FV :=
  if aKv d = 2 then
    let b := numAt els (p * (aHd d / 2) + i / 2) 1
    FV.mul (h4fVal (b / (if i % 2 = 0 then 1 else 16) % 16)) (ue5m3Val (numAt scales (p * (aHd d / 32) + i / 32) 1))
  else (h8fVal (aKv d = 1) (numAt els (p * aHd d + i) 1)).1

/-- Bad codes met in the K and V of a head (R88, R89). -/
def countHead (page : Nat) (d : List Byte) (h : KvBytes) : Act Unit := do
  if aKv d = 2 then
    let c := ((h.ks ++ h.vs).filter (fun b => b = 0xFF)).length
    if 0 < c then count (C.TILE_CNT_SCALE_RSVD page) c
  else
    let c := ((h.k ++ h.v).filter (fun b => (h8fVal (aKv d = 1) b.toNat).2)).length
    if 0 < c then count (C.TILE_CNT_H8F_BAD_IN page) c

/-! ## One pass (R157 to R160) -/

/-- A row's running state, with what it adds to the counters. -/
structure RowAcc where
  m : FV := .inf true
  l : FV := .zero
  o : List FV
  rescales : Nat := 0
  nonfinite : Nat := 0
deriving DecidableEq, Repr

/-- log2 e, the FP32 constant 0x3FB8_AA3B. -/
def log2e : FV := fp32Val 0x3FB8AA3B

/-- The score of a row against a key (R157). -/
def scoreOf (sk : FV) (q : List FV) (key : Nat → FV) : FV :=
  let dot := ((List.range q.length).zip q).foldl (fun acc e => fp32 (FV.add acc (FV.mul e.2 (key e.1)))) .zero
  fp32 (FV.mul dot sk)

/-- One key block for one row: the scores of the visible positions, then the rescale, then the terms in ascending position
(R158). `ps` are the visible places within the frame. -/
def rowBlock (ex : FV → FV) (d : List Byte) (h : KvBytes) (q : List FV) (ps : List Nat) (a : RowAcc) : RowAcc :=
  if ps = [] then a
  else
    let all := ps.map (fun p => (p, scoreOf (aSk d) q (kvElem d h.k h.ks p)))
    let vis := all.filter (fun e => e.2.isFin)
    let a := { a with nonfinite := a.nonfinite + (all.length - vis.length) }
    match vis with
    | [] => a
    | v0 :: rest =>
      let bmax := rest.foldl (fun m e => if m.lt e.2 then e.2 else m) v0.2
      let a :=
        if a.m.lt bmax then
          if a.m = .inf true then { a with m := bmax }
          else
            let f := ex (fp32 (FV.mul (fp32 (FV.sub a.m bmax)) log2e))
            { a with m := bmax, l := fp32 (FV.mul a.l f), o := a.o.map (fun o => fp32 (FV.mul o f)), rescales := a.rescales + 1 }
        else a
      vis.foldl (fun a e =>
        let p := ex (fp32 (FV.mul (fp32 (FV.sub e.2 a.m)) log2e))
        { a with
          l := fp32 (FV.add a.l p)
          o := ((List.range a.o.length).zip a.o).map (fun x =>
            fp32 (FV.add (FV.mul p (kvElem d h.v h.vs e.1 x.1)) x.2)) }) a

/-- The key blocks of a frame, lower positions first (R160): places 0 to 63, and 64 to 127 in H4F. -/
def framePasses (ex : FV → FV) (d : List Byte) (list : List Nat) (h : KvBytes) (b r : Nat) (q : List FV) (a : RowAcc) : RowAcc :=
  (List.range (aBlock d / 64)).foldl (fun a k =>
    rowBlock ex d h q ((List.range 64).filterMap (fun i =>
      let p := 64 * k + i
      if visible d list (aPos d r) (aBlock d * b + p) then some p else none)) a) a

/-- A key block of 64 positions holds a key visible to some row; the walker fetches no other (R156). -/
def keyBlockNeeded (d : List Byte) (list : List Nat) (k : Nat) : Bool :=
  (List.range (aRows d)).any (fun r => (List.range 64).any (fun p => visible d list (aPos d r) (64 * k + p)))

/-- A position block holds a key visible to some row. -/
def blockNeeded (d : List Byte) (list : List Nat) (b : Nat) : Bool :=
  (List.range (aRows d)).any (fun r => (List.range (aBlock d)).any (fun p => visible d list (aPos d r) (aBlock d * b + p)))

/-- What the pipeline has done so far: its rows, and the row-block passes made (R180). -/
structure WalkAcc where
  rows : List RowAcc
  passes : Nat := 0
deriving DecidableEq, Repr

/-- An entry the walker has fetched for the pipeline: the position block, the list entry, the descriptor. -/
structure Fetched where
  block : Nat
  entry : Nat
  desc : List Byte
deriving DecidableEq, Repr

/-- The key of a list in the look-aside buffer. -/
def listKey (d : List Byte) : Nat := aSpace d * 2 ^ 48 + aList d

/-- The pipeline uses an entry for every row (R154, R158), which unpins it (R170): its passes, or the status and the list entry
at which the walk stops. -/
def useBlock (ex : FV → FV) (page part : Nat) (d : List Byte) (list : List Nat) (qs : List (List FV)) (f : Fetched)
    (a : WalkAcc) : Act (Except (Nat × Nat) WalkAcc) := do
  let n := aBlock d / 64
  let need := (List.range n).map (fun k => keyBlockNeeded d list (n * f.block + k))
  match ← readHead page part d f.desc need with
  | .error st => return .error (st, f.entry)
  | .ok h =>
    countHead page d h
    setPins page (fun l => l.erase (listKey d, f.entry))
    return .ok {
      rows := ((List.range a.rows.length).zip a.rows).map (fun x => framePasses ex d list h f.block x.1 (qs.getD x.1 []) x.2)
      passes := a.passes + aRows d * (need.filter id).length }

/-- The pipeline uses what has been fetched, in order, as far as it goes. -/
def useAll (ex : FV → FV) (page part : Nat) (d : List Byte) (list : List Nat) (qs : List (List FV)) :
    List Fetched → WalkAcc → Act (Option (Nat × Nat) × WalkAcc)
  | [], a => return (none, a)
  | f :: fs, a => do
    match ← useBlock ex page part d list qs f a with
    | .error st => return (some st, a)
    | .ok a' => useAll ex page part d list qs fs a'

/-- Walk the position blocks that are needed: the walker fetches at most `depth` entries ahead of the one in use (R170) and the
pipeline passes every row over each in turn. What stops the walk, if anything, as its status and list entry, and what had been
passed before: every block ahead of the one that stops it. -/
def attnWalk (ex : FV → FV) (page part : Nat) (d : List Byte) (list : List Nat) (qs : List (List FV)) (depth : Nat) :
    List Nat → ListPos → List Fetched → WalkAcc → Act (Option (Nat × Nat) × WalkAcc)
  | [], _, q, a => useAll ex page part d list qs q a
  | b :: bs, pos, q, a => do
    let r ← useAll ex page part d list qs (q.take (q.length - depth)) a
    match r with
    | (some st, a') => return (some st, a')
    | (none, a') =>
      let q' := q.drop (q.length - depth)
      let i := aFirst d + b * aStride d
      match ← walkEntry page part (listKey d) i pos with
      | .error st =>
        let r ← useAll ex page part d list qs q' a'
        return (some (r.1.getD (st, i)), r.2)
      | .ok (e, pos') =>
        setPins page (fun l => (listKey d, i) :: l)
        attnWalk ex page part d list qs depth bs pos' (q' ++ [{ block := b, entry := i, desc := e }]) a'

/-- A row's output before its rounding, or none where the row is EMPTY (R158, R159). -/
def rowOut (d : List Byte) (a : RowAcc) : Option (List FV) :=
  if a.l.isZero then none else some (a.o.map (fun o => fp32 (FV.mul (fp32 (FV.div o a.l)) (aTv d))))

/-- Every row takes one status and no output (R169, R172). -/
def attnStop (page : Nat) (d : List Byte) (st entry : Nat) : Act Unit := do
  tileWrite page (aStatus d) (List.replicate (aRows d) (BitVec.ofNat 8 st))
  if (← rdF (R.TILE_ATTN_LAST page) F.TILE_ATTN_LAST.status) = 0 then
    wrF (R.TILE_ATTN_LAST page) F.TILE_ATTN_LAST.status st
    wrF (R.TILE_ATTN_LAST page) F.TILE_ATTN_LAST.entry entry

/-- The work of an ATTN. -/
def attnWork (page : Nat) (d : List Byte) : Act Unit := do
  let s ← Act.get
  let part := s.tilePart page
  if !s.maskOk page d then attnStop page d stMask 0
  else
    let list := if aMask d = 4 then s.maskList page d else []
    let hd := aHd d
    let x := s.tile page
    let fast := if x.sampled then x.fastExp else decide (s.fldOf (R.TILE_ATTN_CTRL page) F.TILE_ATTN_CTRL.fast_exp = 1)
    let depth := if x.sampled then x.walkDepth else s.fldOf (R.TILE_ATTN_CTRL page) F.TILE_ATTN_CTRL.walk_depth
    let qs := (List.range (aRows d)).map (fun r => (List.range hd).map (fun i =>
      s.elemOf page (refFmt (aQ d)) (refBase (aQ d)) (r * hd + i)))
    countBad page (refFmt (aQ d)) (refBase (aQ d)) (aRows d * hd)
    let blocks := (List.range ((aLen d + aBlock d - 1) / aBlock d)).filter (blockNeeded d list)
    let r ← attnWalk (if fast then exp2Fast else exp2Strict) page part d list qs depth blocks
      { block := 0, space := aSpace d, addr := aList d } []
      { rows := List.replicate (aRows d) { o := List.replicate hd .zero } }
    setPins page (fun _ => [])
    count (C.TILE_CNT_ATTN_BLOCKS page) r.2.passes
    count (C.TILE_CNT_ATTN_RESCALE page) (r.2.rows.map (·.rescales)).sum
    count (C.TILE_CNT_ATTN_NONFINITE page) (r.2.rows.map (·.nonfinite)).sum
    match r.1 with
    | some (st, i) => attnStop page d st i
    | none =>
      let outs := r.2.rows.map (rowOut d)
      writeVals page (refFmt (aOut d)) (refBase (aOut d))
        (outs.flatMap (fun o => o.getD (List.replicate hd .zero)))
      tileWrite page (aStatus d) (outs.map (fun o => if o.isSome then 0 else 1))
      count (C.TILE_CNT_ATTN_EMPTY page) (outs.filter Option.isNone).length

/-- WALK_INV (R171): the look-aside buffer is emptied; refused while an ATTN is in flight (R179). -/
def State.attnFlying (s : State) (page : Nat) : Bool := (s.tile page).flights.any (fun f => f.unit = 4)

def walkInv (page : Nat) : Act Unit := do
  modTile page (fun x => { x with aside := [] })
  wrF (R.TILE_WALK_STATUS page) F.TILE_WALK_STATUS.valid_entries 0

end Sys2Proof.Machine
end

