-- ==== Sys2Proof/Machine/Slots.lean ====
section
/-! DEFINITION. Request slots (R189), the posting of records into completion and token output rings (R185, R187, R188),
and the adapter table's pins (R312, R313). Where the spec is open: DEDUCED 59 and 61 of the assumption log. -/

namespace Sys2Proof.Machine

/-! ## Slots (R189): a field is a word of the slot and its bits -/

/-- A field of a request slot: word and bits. -/
structure SlotF where
  w : Nat
  hi : Nat
  lo : Nat

def SlotF.state : SlotF := ⟨0, 3, 0⟩
def SlotF.cls : SlotF := ⟨0, 10, 8⟩
def SlotF.finalPublished : SlotF := ⟨0, 11, 11⟩
def SlotF.resumed : SlotF := ⟨0, 12, 12⟩
def SlotF.publish : SlotF := ⟨0, 13, 13⟩
def SlotF.deadlineMissed : SlotF := ⟨0, 14, 14⟩
def SlotF.cancelPending : SlotF := ⟨0, 15, 15⟩
def SlotF.partition : SlotF := ⟨0, 20, 16⟩
def SlotF.parkReason : SlotF := ⟨0, 31, 24⟩
def SlotF.committed : SlotF := ⟨0, 63, 32⟩
def SlotF.speculative : SlotF := ⟨1, 31, 0⟩
def SlotF.promptLen : SlotF := ⟨1, 63, 32⟩
def SlotF.maxNew : SlotF := ⟨2, 31, 0⟩
def SlotF.lastIndex : SlotF := ⟨2, 63, 32⟩
def SlotF.deadline : SlotF := ⟨3, 63, 0⟩
def SlotF.seed : SlotF := ⟨4, 63, 0⟩
def SlotF.gTopP : SlotF := ⟨5, 63, 0⟩
def SlotF.adapter : SlotF := ⟨6, 15, 0⟩
def SlotF.adapterVer : SlotF := ⟨6, 31, 16⟩
def SlotF.tokenRing : SlotF := ⟨6, 47, 32⟩
def SlotF.completionRing : SlotF := ⟨6, 63, 48⟩
def SlotF.clientTag : SlotF := ⟨7, 63, 0⟩
/-- List head `g`, 0 to 3. -/
def SlotF.head (g : Nat) : SlotF := ⟨8 + g, 63, 0⟩
def SlotF.jseq : SlotF := ⟨12, 47, 0⟩
def SlotF.k : SlotF := ⟨12, 63, 48⟩
def SlotF.generated : SlotF := ⟨13, 31, 0⟩
def SlotF.finalStatus : SlotF := ⟨13, 39, 32⟩
def SlotF.rebuilding : SlotF := ⟨13, 40, 40⟩
def SlotF.rebuildTo : SlotF := ⟨14, 31, 0⟩
def SlotF.check : SlotF := ⟨15, 63, 56⟩

/-- Slot states (R189). -/
def stFree : Nat := 0
def stAdmitted : Nat := 1
def stPrefill : Nat := 2
def stDecode : Nat := 3
def stParked : Nat := 4
def stDraining : Nat := 5
def stDone : Nat := 6
def stCancelled : Nat := 7

/-- A field of slot `n`. -/
def State.slotF (s : State) (n : Nat) (f : SlotF) : Nat := bits (s.wordAt (slotKey n f.w)).toNat f.hi f.lo

/-- The 128 bytes of a slot. -/
def State.slotBytes (s : State) (n : Nat) : List Byte := (List.range 16).flatMap (fun w => leBytes 8 (s.wordAt (slotKey n w)).toNat)

/-- The slot's check holds (R189). -/
def State.slotOk (s : State) (n : Nat) : Bool := crc8 ((s.slotBytes n).take 127) = s.slotF n .check

/-- Set a field without the check. -/
def slotPut (n : Nat) (f : SlotF) (v : Nat) : Act Unit := do
  let w ← ldW (slotKey n f.w)
  stW (slotKey n f.w) (setBits w f.hi f.lo v)

/-- Compute a slot's check again. -/
def slotSeal (n : Nat) : Act Unit := do
  let s ← Act.get
  slotPut n .check (crc8 ((s.slotBytes n).take 127))

/-- Set a field of a slot and its check. -/
def slotSet (n : Nat) (f : SlotF) (v : Nat) : Act Unit := do
  slotPut n f v
  slotSeal n

/-- A live slot: ADMITTED to DRAINING (R189). -/
def slotLive (st : Nat) : Bool := decide (1 ≤ st ∧ st ≤ 5)

def State.slotLive (s : State) (n : Nat) : Bool := Machine.slotLive (s.slotF n .state)

/-- The live slots of a partition. -/
def State.liveSlots (s : State) (p : Nat) : List Nat := (s.slotsOf p).filter (fun n => s.slotLive n)

/-- Change a partition's record. -/
def modPart (p : Nat) (f : PartX → PartX) : Act Unit := do wrPart p (f (← rd (fun s => s.part p)))

/-- The count of slots that are not FREE (R211). -/
def addLive (n : Int) : Act Unit := do
  let v ← rdF R.REQ_ENGINE_STATUS F.REQ_ENGINE_STATUS.live_slots
  wrF R.REQ_ENGINE_STATUS F.REQ_ENGINE_STATUS.live_slots ((v : Int) + n).toNat

def addAdmitting (n : Int) : Act Unit := do
  let v ← rdF R.REQ_ENGINE_STATUS F.REQ_ENGINE_STATUS.admit_in_flight
  wrF R.REQ_ENGINE_STATUS F.REQ_ENGINE_STATUS.admit_in_flight ((v : Int) + n).toNat

/-- The step of the commit that ended a request, for its records. -/
def endStepKey (n : Nat) : Nat := tabKey 15 n

/-- A slot in use whose check fails when the engine reads it ends DONE with FAILED_DATA (R189); its RELEASE entry and its FINAL
record go with the partition's next commit (DEDUCED 61). -/
def slotSound (p n : Nat) : Act Unit := do
  let s ← Act.get
  if s.slotF n .state ≠ stFree ∧ !s.slotOk n then
    count C.REQ_CNT_SLOT_CHECK 1
    slotSet n .state stDone
    slotSet n .finalStatus 6
    slotSet n .cancelPending 0
    if s.slotLive n then
      stW (endStepKey n) (s.fldOf (R.TIM_STEP p) F.TIM_STEP.step)
      modPart p (fun x => { x with heldLists := x.heldLists.filter (· ≠ n) ++ [n], broken := x.broken.filter (· ≠ n) ++ [n] })

/-- The engine reads the slots of a partition: each is checked (R189). -/
def tableSound (p : Nat) : Act Unit := do
  for n in ← rd (fun s => s.slotsOf p) do slotSound p n

/-! ## Adapters (R312, R313): an entry is four table words -/

def F.ADP.number : Fld := ⟨15, 0⟩
def F.ADP.version : Fld := ⟨31, 16⟩
def F.ADP.owner : Fld := ⟨36, 32⟩
def F.ADP.state : Fld := ⟨47, 40⟩
def F.ADP.pins : Fld := ⟨63, 32⟩

def State.adpF (s : State) (e w : Nat) (f : Fld) : Nat := getFld (s.wordAt (adpKey e w)) f
def adpSet (e w : Nat) (f : Fld) (v : Nat) : Act Unit := do
  let x ← rd (fun s => s.wordAt (adpKey e w))
  stW (adpKey e w) (putFld x f v).toNat

/-- The adapter entries that are not FREE, ascending. -/
def State.adpEntries (s : State) : List Nat :=
  ((s.tab.filter (fun e => decide (adpKey 0 0 ≤ e.1 ∧ e.1 < adpKey 4096 0))).map (fun e => (e.1 - adpKey 0 0) / 4)).eraseDups.filter
    (fun e => s.adpF e 0 F.ADP.state ≠ 0)

/-- A partition's entry of a number and version, in one of some states. -/
def State.adpFind (s : State) (p num ver : Nat) (states : List Nat) : Option Nat :=
  s.adpEntries.find? (fun e => s.adpF e 0 F.ADP.owner = p && s.adpF e 0 F.ADP.number = num &&
    s.adpF e 0 F.ADP.version = ver && states.contains (s.adpF e 0 F.ADP.state))

/-- The partition's entries that are not FREE are counted in REQ_ADP_STATUS (R321). -/
def showAdapters (p : Nat) : Act Unit := do
  let n ← rd (fun s => (s.adpEntries.filter (fun e => s.adpF e 0 F.ADP.owner = p)).length)
  wrF (R.REQ_ADP_STATUS p) F.REQ_ADP_STATUS.entries n

/-- An entry goes FREE. -/
def adpClear (e : Nat) : Act Unit := do
  let p ← rd (fun s => s.adpF e 0 F.ADP.owner)
  for w in List.range 4 do stW (adpKey e w) 0
  showAdapters p

/-- An entry that was current goes FREE (R313). -/
def adpRetire (e : Nat) : Act Unit := do
  let p ← rd (fun s => s.adpF e 0 F.ADP.owner)
  adpClear e
  count (C.REQ_CNT_ADP_RETIRED p) 1
  setIrq (pageBase .req (1 + p)) 32

/-- A slot's pin is taken on an entry (R313). -/
def adpPin (p e : Nat) : Act Unit := do
  let n ← rd (fun s => s.adpF e 1 F.ADP.pins)
  adpSet e 1 F.ADP.pins (n + 1)
  count (C.REQ_CNT_ADP_PINS p) 1

/-- A slot's pin on a version is dropped (R189, R313). -/
def adpUnpin (p num ver : Nat) : Act Unit := do
  if num = 0xFFFF then return
  match ← rd (fun s => s.adpFind p num ver [2, 3, 4]) with
  | none => skip
  | some e =>
    let s ← Act.get
    let n := s.adpF e 1 F.ADP.pins
    adpSet e 1 F.ADP.pins (n - 1)
    if n ≤ 1 ∧ s.adpF e 0 F.ADP.state ≠ 2 then adpRetire e

/-! ## Records (R185, R187, R188) -/

/-- Entries a completion or token output ring still has room for. -/
def State.ringRoom (s : State) (n : Nat) : Nat := 2 ^ s.ringLog n - moves32 (s.ringConsumer n) (s.ringProducer n)

/-- Write an entry at the producer index and send it to the endpoint (R185); answers its index. A ring out of service takes no
entry (R182). -/
def postEntry (p n : Nat) (bs : List Byte) : Act Nat := do
  let up ← ringUse n
  let s ← Act.get
  let i := s.ringProducer n
  if !up then return i
  let _ ← ringWrite 1 n i bs
  ringSet n 2 F.RING.producer (i + 1)
  count (C.RING_ENG_OUT (ringHub n)) bs.length
  sendRing p n (s.ringF n 1 F.RING.ep_fabric) 0x02 (i * 2 ^ 32 + s.ringF n 1 F.RING.ep_queue) 0 bs
  return i

/-- Send a ring's published tail to its endpoint (R185). -/
def sendTail (p n : Nat) : Act Unit := do
  let s ← Act.get
  sendRing p n (s.ringF n 1 F.RING.ep_fabric) 0x03 (s.ringPublished n * 2 ^ 32 + s.ringF n 1 F.RING.ep_queue) 0 []

/-- Advance a ring's published tail; answers whether that moved it. A ring out of service keeps its tail (R182). -/
def moveTail (n tail : Nat) : Act Bool := do
  let up ← ringUse n
  if !up || decide ((← rd (fun s => s.ringPublished n)) = tail) then return false
  ringSet n 3 F.RING.published tail
  return true

/-- Advance a ring's published tail and tell the endpoint (R185). -/
def publishTail (p n tail : Nat) : Act Unit := do
  if ← moveTail n tail then sendTail p n

/-- A completion record (R187). -/
def completionRecord (kind status detail flags slot tag last step seq : Nat) : List Byte :=
  leBytes 1 kind ++ leBytes 1 status ++ leBytes 1 detail ++ leBytes 1 flags ++ leBytes 2 slot ++ [0, 0] ++ leBytes 8 tag ++
    leBytes 4 last ++ leBytes 6 step ++ leBytes 6 seq

/-- Post a completion record and publish it; answers its index. -/
def postRecord (p ring : Nat) (r : List Byte) : Act Nat := do
  let i ← postEntry p ring r
  publishTail p ring ((i + 1) % 2 ^ 32)
  return i

/-- The flags of a slot's records. -/
def State.recordFlags (s : State) (n : Nat) : Nat := s.slotF n .resumed * 2 + s.slotF n .deadlineMissed

/-- A token record (R188). -/
def tokenRecord (token ix slot flags tag : Nat) : List Byte :=
  leBytes 4 token ++ leBytes 4 ix ++ leBytes 2 slot ++ leBytes 1 flags ++ [0] ++ leBytes 4 tag

/-- FINAL records a ring still owes: requests in the table that complete on it (R190). -/
def State.finalsOwed (s : State) (p ring : Nat) : Nat :=
  ((s.slotsOf p).filter (fun n => s.slotF n .state ≠ stFree && s.slotF n .finalPublished = 0 &&
    s.slotF n .completionRing = ring)).length

/-- A request slot goes to the partition its grant names; while it is not FREE it stays (R381). -/
def slotSettle (n : Nat) : Act Unit := do
  let s ← Act.get
  let o := ownerCode (s.slotGrant n)
  if (s.wordAt (slotOwnerKey n)).toNat = o then stW (deferredKey (65536 + n)) 0
  else if s.slotF n .state ≠ stFree then
    if (s.wordAt (deferredKey (65536 + n))).toNat = 0 then
      stW (deferredKey (65536 + n)) 1
      count C.HAY_CNT_MOVE_DEFERRED 1
  else
    stW (slotOwnerKey n) o
    stW (deferredKey (65536 + n)) 0

/-- A slot goes FREE: its adapter pin is dropped and the journal's entries of it are no longer live (R189, R195). -/
def slotFree (p n : Nat) : Act Unit := do
  let s ← Act.get
  adpUnpin p (s.slotF n .adapter) (s.slotF n .adapterVer)
  for w in List.range 16 do stW (slotKey n w) 0
  modPart p (fun x => { x with
    admits := x.admits.filter (fun e => e.1 ≠ n), finals := x.finals.filter (fun e => e.1 ≠ n)
    heldLists := x.heldLists.filter (fun m => m ≠ n), broken := x.broken.filter (fun m => m ≠ n) })
  addLive (-1)
  slotSettle n

/-- An ended slot goes FREE once its FINAL record is consumed and its lists are released (R189). -/
def slotMaybeFree (p n : Nat) : Act Unit := do
  let s ← Act.get
  let x := s.part p
  if 6 ≤ s.slotF n .state ∧ s.slotF n .finalPublished = 1 ∧ !x.finals.any (fun e => e.1 = n) ∧ !x.heldLists.contains n then
    slotFree p n

end Sys2Proof.Machine
end

