-- ==== Sys2Proof/Machine/Kv.lean ====
section
/-! DEFINITION. KV frames as the request engine keeps them: the reference-count pool and read leases (R173, R174, R176),
the free pool, and the page lists of the request slots (R167, R168, R175, R177). Where the spec is open: DESIGN CHOICE 48
and 49 of the assumption log. -/

namespace Sys2Proof.Machine

/-! ## What a layout means (Config.kvLayout): positions per block, lists, descriptors per block of each list -/

def kvBlock (layout : Nat) : Nat := if Config.kvLayout layout 0 % 2 = 0 then 64 else 128
def kvLists (layout : Nat) : Nat := 1 + Config.kvLayout layout 1 % 4
def kvEntries (layout g : Nat) : Nat := 1 + Config.kvLayout layout (2 + g) % 255

/-- The KV layout of a partition. -/
def State.layout (s : State) (p : Nat) : Nat := s.fldOf (R.REQ_PRX_CFG p) F.REQ_PRX_CFG.layout

/-- The descriptors of one position block: list and place within the block. -/
def blockDescs (layout : Nat) : List (Nat × Nat) :=
  (List.range (kvLists layout)).flatMap (fun g => (List.range (kvEntries layout g)).map (fun e => (g, e)))

/-! ## The free pool -/

/-- Insert a number into an ascending list. -/
def insertNat (a : Nat) : List Nat → List Nat
  | [] => [a]
  | b :: l => if a ≤ b then a :: b :: l else b :: insertNat a l

/-- A frame as leases and references name it: the frame number of GDDR7, and from 2^32 one of another tier. -/
def pdHome (e : List Byte) : Nat := if pdTier e = 1 then pdFrame e else 2 ^ 32 + pdFrame e

/-- A frame returns to its owner's pool, which holds frames of GDDR7 alone. -/
def freeFrame (owner frame : Nat) : Act Unit := do
  if frame < 2 ^ 32 then modPart owner (fun x => { x with pool := insertNat frame x.pool })

/-- Take the lowest free frame. -/
def takeFrame (p : Nat) : Act (Option Nat) := do
  match (← rd (fun s => s.part p)).pool with
  | [] => return none
  | f :: l =>
    modPart p (fun x => { x with pool := l })
    return some f

/-- A frame taken for positions: bytes 0x8000 to 0xF7FF of an H4F frame are written 0 (R165). -/
def zeroFrame (p f : Nat) : Act Unit := do
  if kvBlock (← rd (fun s => s.layout p)) = 128 then
    let _ ← spWrite (hubSrc 0 1) p 1 (f * 65536 + 0x8000) (List.replicate 0x7800 0)

/-! ## The reference-count pool (R173, R176) -/

def F.RC.refs : Fld := ⟨63, 32⟩
def F.RC.leases : Fld := ⟨31, 16⟩
def F.RC.valid : Fld := ⟨15, 15⟩
def F.RC.deferred : Fld := ⟨14, 14⟩
def F.RC.owner : Fld := ⟨4, 0⟩

def State.rcF (s : State) (i : Nat) (f : Fld) : Nat := getFld (s.wordAt (rcKey i)) f
def rcSet (i : Nat) (f : Fld) (v : Nat) : Act Unit := do
  let w ← rd (fun s => s.wordAt (rcKey i))
  stW (rcKey i) (putFld w f v).toNat

/-- The lowest free entry, none when all 1,048,576 are in use. -/
def State.rcFree (s : State) : Option Nat :=
  let used := (s.tab.filter (fun e => decide (rcKey 0 ≤ e.1 ∧ e.1 < rcKey 1048576))).map (fun e => e.1 - rcKey 0)
  ((List.range (used.length + 1)).find? (fun i => !used.contains i)).filter (fun i => decide (i < 1048576))

/-- Allocate an entry for a frame that becomes shared, with its references. -/
def rcAlloc (owner refs : Nat) : Act (Option Nat) := do
  match ← rd (fun s => s.rcFree) with
  | none =>
    count C.REQ_CNT_RC_FULL 1
    return none
  | some i =>
    stW (rcKey i) (refs * 2 ^ 32 + 2 ^ 15 + owner)
    return some i

/-- A shared frame with no reference and no lease goes to its owner's pool and its entry is freed. -/
def rcRelease (i frame : Nat) : Act Unit := do
  let s ← Act.get
  if s.rcF i F.RC.valid = 1 ∧ s.rcF i F.RC.refs = 0 ∧ s.rcF i F.RC.leases = 0 then
    freeFrame (s.rcF i F.RC.owner) frame
    stW (rcKey i) 0

/-- A reference is dropped (R176). -/
def rcDrop (i frame : Nat) : Act Unit := do
  let s ← Act.get
  if s.rcF i F.RC.valid = 1 then
    rcSet i F.RC.refs (s.rcF i F.RC.refs - 1)
    if s.rcF i F.RC.refs ≤ 1 ∧ 0 < s.rcF i F.RC.leases then
      rcSet i F.RC.deferred 1
      count C.REQ_CNT_FRAME_DEFERRED 1
    rcRelease i frame

/-- A reference is taken; a DEFERRED frame is LIVE again (R176). -/
def rcTake (i : Nat) : Act Unit := do
  let s ← Act.get
  rcSet i F.RC.refs (s.rcF i F.RC.refs + 1)
  rcSet i F.RC.deferred 0

/-- A lease fits the partition's share of the lease log and the entry's count, on a frame that is not DEFERRED (R174). -/
def State.leaseFits (s : State) (p i n : Nat) : Bool :=
  decide ((s.part p).leases.length + n ≤ s.fldOf (R.PRT_LEASE p) F.PRT_LEASE.entries) &&
    decide (s.rcF i F.RC.leases + 1 ≤ 65535) && s.rcF i F.RC.deferred = 0

/-- Take a lease. -/
def leaseTake (p slot i frame : Nat) : Act Unit := do
  let n ← rd (fun s => s.rcF i F.RC.leases)
  rcSet i F.RC.leases (n + 1)
  modPart p (fun x => { x with leases := x.leases ++ [(slot, i, frame)] })

/-- Return the leases of a partition that satisfy a test (R176). -/
def leaseReturn (p : Nat) (test : Nat × Nat × Nat → Bool) : Act Unit := do
  let x ← rd (fun s => s.part p)
  modPart p (fun y => { y with leases := y.leases.filter (fun l => !test l) })
  for l in x.leases.filter test do
    let n ← rd (fun s => s.rcF l.2.1 F.RC.leases)
    rcSet l.2.1 F.RC.leases (n - 1)
    rcRelease l.2.1 l.2.2

/-! ## Lists -/

/-- Bytes of a space as the engine finds them, none where the partition cannot name them. -/
def State.engBytes (s : State) (p space addr len : Nat) : Option (List Byte) :=
  match space with
  | 0 => if (s.hubReason p addr len).isNone then some (s.memBytes (2 ^ 36 + addr) len) else none
  | 1 => match s.gBytes p addr len with
    | .ok bs => some bs
    | .error _ => none
  | _ => none

/-- The engine reads bytes of a space: the read is counted where it is served, and a refusal is recorded (R241, R244, R266). -/
def engNote (p space addr len : Nat) : Act Unit := do
  let _ ← spRead (hubSrc 0 1) p space addr len

/-- Reads of the engine, one after another: space, address, length. -/
def engNotes (p : Nat) (l : List (Nat × Nat × Nat)) : Act Unit := do
  for r in l do engNote p r.1 r.2.1 r.2.2

/-- The engine writes bytes of a space. -/
def engWrite (p space addr : Nat) (bs : List Byte) : Act Unit := do
  let _ ← spWrite (hubSrc 0 1) p space addr bs

/-- The space and address of block `k` of a list from its head. -/
def State.listBlock (s : State) (p : Nat) : Nat → Nat × Nat → Option (Nat × Nat)
  | 0, b => some b
  | k + 1, b =>
    match s.engBytes p b.1 (b.2 + 4080) 16 with
    | some e => if pdCheck e && linkOk e then s.listBlock p k (linkSpace e, linkAddr e) else none
    | none => none

/-- The links the engine reads on its way to block `k` of a list. -/
def State.listReads (s : State) (p : Nat) : Nat → Nat × Nat → List (Nat × Nat × Nat)
  | 0, _ => []
  | k + 1, b => (b.1, b.2 + 4080, 16) :: (match s.listBlock p 1 b with
    | some c => s.listReads p k c
    | none => [])

/-- A slot's list head, if it is valid. -/
def State.listHead (s : State) (n g : Nat) : Option (Nat × Nat) :=
  let h := s.slotF n (.head g)
  if bit h 63 then some (refSpace h, refAddr h) else none

/-- Where entry `i` of list `g` of slot `n` lies. -/
def State.entryPlace (s : State) (p n g i : Nat) : Option (Nat × Nat) :=
  match s.listHead n g with
  | none => none
  | some h => (s.listBlock p (i / 255) h).map (fun b => (b.1, b.2 + 16 * (i % 255)))

/-- The descriptor of an entry, if it is there, checks and is valid. -/
def State.entryAt (s : State) (p n g i : Nat) : Option (List Byte) :=
  match s.entryPlace p n g i with
  | none => none
  | some a => match s.engBytes p a.1 a.2 16 with
    | some e => if pdCheck e && pdValid e then some e else none
    | none => none

/-- What the engine reads to find an entry: the links before its block, and itself. -/
def State.entryReads (s : State) (p n g i : Nat) : List (Nat × Nat × Nat) :=
  match s.listHead n g with
  | none => []
  | some h => s.listReads p (i / 255) h ++ (match s.entryPlace p n g i with
    | some a => [(a.1, a.2, 16)]
    | none => [])

/-- Take a 4 KiB list block; a frame of the pool gives sixteen. -/
def takeBlock (p : Nat) : Act (Option Nat) := do
  match (← rd (fun s => s.part p)).listFree with
  | a :: l =>
    modPart p (fun x => { x with listFree := l })
    engWrite p 1 a (List.replicate 4096 0)
    return some a
  | [] =>
    match ← takeFrame p with
    | none => return none
    | some f =>
      modPart p (fun x => { x with listFree := (List.range 15).map (fun i => f * 65536 + (i + 1) * 4096) })
      engWrite p 1 (f * 65536) (List.replicate 4096 0)
      return some (f * 65536)

/-- A link to a GDDR7 block (R167). -/
def mkLink (addr : Nat) : List Byte :=
  let b := leBytes 6 addr ++ [BitVec.ofNat 8 0x81] ++ List.replicate 8 0
  b ++ leBytes 1 (crc8 b)

/-- Blocks 0 to `k` of a list exist: those missing are taken and linked. -/
def growList (p n g : Nat) : Nat → Act Bool
  | 0 => do
    if (← rd (fun s => s.listHead n g)).isSome then return true
    match ← takeBlock p with
    | none => return false
    | some a =>
      slotSet n (.head g) (2 ^ 63 + 2 ^ 48 + a)
      return true
  | k + 1 => do
    if !(← growList p n g k) then return false
    let s ← Act.get
    match s.listHead n g with
    | none => return false
    | some h =>
      if (s.listBlock p (k + 1) h).isSome then return true
      match s.listBlock p k h with
      | none => return false
      | some b =>
        match ← takeBlock p with
        | none => return false
        | some a =>
          engWrite p b.1 (b.2 + 4080) (mkLink a)
          return true

/-- Write a descriptor into an entry of a slot's list. -/
def putEntry (p n g i : Nat) (e : List Byte) : Act Bool := do
  if !(← growList p n g (i / 255)) then return false
  match ← rd (fun s => s.entryPlace p n g i) with
  | none => return false
  | some a =>
    engWrite p a.1 a.2 e
    return true

/-- The list entries of position block `b` of a slot: list and entry index. -/
def blockEntries (layout b : Nat) : List (Nat × Nat) :=
  (blockDescs layout).map (fun x => (x.1, b * kvEntries layout x.1 + x.2))

/-- Clear an entry and give its frame back: a shared frame loses the list's reference, an own frame of GDDR7 returns to
the pool (R177 step 3). `referenced` tells whether the list holds its reference yet. -/
def dropEntry (p n g i : Nat) (referenced : Bool) : Act Unit := do
  let s ← Act.get
  engNotes p (s.entryReads p n g i)
  match s.entryAt p n g i, s.entryPlace p n g i with
  | some e, some a =>
    engWrite p a.1 a.2 (List.replicate 16 0)
    if pdShared e then
      if referenced then rcDrop (pdRc e) (pdHome e)
    else if pdTier e = 1 then freeFrame p (pdFrame e)
  | _, _ => skip

/-- Release the frames whose first position lies at or past `pos` and below `upto` (R199, R432). -/
def releasePast (p n pos upto : Nat) : Act Unit := do
  let lay ← rd (fun s => s.layout p)
  let b0 := (pos + kvBlock lay - 1) / kvBlock lay
  let b1 := (upto + kvBlock lay - 1) / kvBlock lay
  for b in List.range (b1 - b0) do
    for x in blockEntries lay (b0 + b) do
      let e ← rd (fun s => s.entryAt p n x.1 x.2)
      let staged ← rd (fun s => (s.part p).stagedRefs.any (fun r => r.1 = n && (match e with
        | some d => pdShared d && r.2 = pdRc d
        | none => false)))
      match e with
      | some d => if pdShared d then modPart p (fun y => { y with stagedRefs := y.stagedRefs.filter (fun r => ¬ (r.1 = n ∧ r.2 = pdRc d)) })
      | none => skip
      dropEntry p n x.1 x.2 (!staged)

/-- The blocks of a list return to the partition. -/
def releaseBlocks (p n g : Nat) : Nat → Option (Nat × Nat) → Act Unit
  | 0, _ => skip
  | _, none => skip
  | fuel + 1, some b => do
    let s ← Act.get
    let next := s.listBlock p 1 b
    engNotes p (s.listReads p 1 b)
    if b.1 = 1 then modPart p (fun x => { x with listFree := x.listFree ++ [b.2] })
    releaseBlocks p n g fuel next

/-- Release a slot's lists: every frame, every list block, the heads (R177 step 3, R189). -/
def releaseLists (p n : Nat) : Act Unit := do
  let s ← Act.get
  releasePast p n 0 (max (s.slotF n .speculative) (s.slotF n .committed))
  for g in List.range 4 do
    let h ← rd (fun t => t.listHead n g)
    releaseBlocks p n g 4096 h
    slotSet n (.head g) 0
  modPart p (fun x => { x with heldLists := x.heldLists.filter (fun m => m ≠ n) })

/-- The descriptors of positions [0, len) of a slot that satisfy a test: list, entry, descriptor. -/
def State.entriesOf (s : State) (p n len : Nat) (test : List Byte → Bool) : List (Nat × Nat × List Byte) :=
  let lay := s.layout p
  (List.range ((len + kvBlock lay - 1) / kvBlock lay)).flatMap (fun b =>
    (blockEntries lay b).filterMap (fun x => match s.entryAt p n x.1 x.2 with
      | some e => if test e then some (x.1, x.2, e) else none
      | none => none))

/-- What the engine reads to go through the descriptors of positions [0, len) of a slot. -/
def State.entriesReads (s : State) (p n len : Nat) : List (Nat × Nat × Nat) :=
  let lay := s.layout p
  (List.range ((len + kvBlock lay - 1) / kvBlock lay)).flatMap (fun b =>
    (blockEntries lay b).flatMap (fun x => s.entryReads p n x.1 x.2))

end Sys2Proof.Machine
end

