-- ==== Sys2Proof/Machine/Journal.lean ====
section
/-! DEFINITION. The journal (R193 to R195), its mirroring to the buddy (R194, R330), and publication (R200). Where the
spec is open: DEDUCED 51, 52, 53 and 181 of the assumption log. -/

namespace Sys2Proof.Machine

/-! ## Sending to another package by itself: the board mesh for a neighbour, otherwise plane (src + dst) mod 8 (R333) -/

/-- The port an automatic path takes: a board link, or a plane whose port is not FAILED. -/
def State.autoPort (s : State) (dst : Nat) : Option (Nat ⊕ Nat) :=
  match s.posOfFabric dst with
  | some pos => if boardHops s.boardPos pos = 1 then some (.inr pos) else (s.livePort ((s.ownFabric + dst) % 8)).map .inl
  | none => (s.livePort ((s.ownFabric + dst) % 8)).map .inl

/-- Send a packet for a partition over the automatic path; answers whether there was one. -/
def sendAuto (p vl dst type arg0 arg1 : Nat) (body : List Byte) : Act Bool := do
  match ← rd (fun s => s.autoPort dst) with
  | some (.inl k) =>
    sendFab p k vl dst type arg0 arg1 body
    return true
  | some (.inr pos) =>
    sendBoard p vl pos dst type arg0 arg1 body
    return true
  | none => return false

/-! ## The region -/

def State.jrnlBase (s : State) (p : Nat) : Nat := s.fldOf (R.REQ_JRNL_CFG p) F.REQ_JRNL_CFG.base
def State.jrnlSize (s : State) (p : Nat) : Nat := 2 ^ s.fldOf (R.REQ_JRNL_CFG p) F.REQ_JRNL_CFG.log_size
def State.jrnlWritten (s : State) (p : Nat) : Nat := s.fldOf (R.REQ_JRNL_SEQ p) F.REQ_JRNL_SEQ.written
def State.jrnlConfirmed (s : State) (p : Nat) : Nat := s.fldOf (R.REQ_JRNL_CONF p) F.REQ_JRNL_CONF.confirmed
def State.mirrorLost (s : State) (p : Nat) : Bool := s.fldOf (R.REQ_JRNL_CONF p) F.REQ_JRNL_CONF.mirror_lost = 1

/-- The size of an entry: its header and its body padded to a multiple of 64 B (R193). -/
def jEntrySize (bodyLen : Nat) : Nat := 32 + roundUp bodyLen 64

/-- An entry's bytes (R193). -/
def jEntryBytes (seq kind p step slot : Nat) (body : List Byte) : List Byte :=
  let h := leBytes 6 seq ++ leBytes 1 kind ++ leBytes 1 p ++ leBytes 6 step ++ leBytes 2 slot ++ leBytes 4 body.length ++
    [0, 0, 0, 0]
  h ++ leBytes 4 (crc32c (h ++ body)) ++ [0, 0, 0, 0] ++ body ++ List.replicate (roundUp body.length 64 - body.length) 0

/-- An entry is live: the latest snapshot, or an entry of a request still in the table (R195). -/
def PartX.jLive (x : PartX) (e : JEntry) : Bool :=
  if e.kind = 3 then e.seq = x.snap else e.slots.any (fun a => x.admits.contains a)

/-- Entries at the oldest end that are no longer live are reclaimed. -/
def jReclaim (p : Nat) : Act Unit :=
  modPart p (fun x => { x with journal := x.journal.dropWhile (fun e => !x.jLive e) })

/-- Bytes that may be written without overwriting a live entry. -/
def State.jRoom (s : State) (p : Nat) : Nat :=
  let x := s.part p
  match x.journal.dropWhile (fun e => !x.jLive e) with
  | [] => s.jrnlSize p
  | e :: _ => s.jrnlSize p - (x.jpos - e.pos)

/-- Cut bytes into packets of at most 4,096, each with its offset in the region; a run that reaches the region's end goes on
at its start. -/
def jPieces (size : Nat) : Nat → Nat → List Byte → List (Nat × List Byte)
  | 0, _, _ => []
  | fuel + 1, pos, bs =>
    if bs = [] then []
    else
      let o := pos % size
      let n := min (min bs.length 4096) (size - o)
      (o, bs.take n) :: jPieces size fuel (pos + n) (bs.drop n)

/-- Write an entry and send it to the buddy; answers its sequence number. -/
def jWrite (p kind step slot : Nat) (slots : List (Nat × Nat)) (body : List Byte) : Act Nat := do
  let s ← Act.get
  let seq := s.jrnlWritten p + 1
  let pos := (s.part p).jpos
  let bs := jEntryBytes seq kind p step slot body
  jReclaim p
  for e in jPieces (s.jrnlSize p) (bs.length + 1) pos bs do
    let _ ← gWrite (hubSrc 0 1) p (s.jrnlBase p + e.1) e.2
    let _ ← sendAuto p 3 (s.fldOf (R.REQ_JRNL_BUDDY p) F.REQ_JRNL_BUDDY.buddy) 0x30 e.1 0 e.2
  wrF (R.REQ_JRNL_SEQ p) F.REQ_JRNL_SEQ.written seq
  modPart p (fun x => { x with
    jpos := pos + bs.length
    snap := if kind = 3 then seq else x.snap
    journal := x.journal ++ [{ seq := seq, kind := kind, slots := slots, pos := pos, size := bs.length }]
    sentSeqs := x.sentSeqs ++ [(seq, s.now)] })
  return seq

/-- The bytes of a journal entry's body, read back. -/
def State.jBody (s : State) (p : Nat) (e : JEntry) : Option (List Byte) :=
  let at_ (o n : Nat) : Option (List Byte) :=
    (jPieces (s.jrnlSize p) (n + 1) (e.pos + o) (List.replicate n 0)).foldl (fun acc x =>
      match acc, s.engBytes p 1 (s.jrnlBase p + x.1) x.2.length with
      | some l, some b => some (l ++ b)
      | _, _ => none) (some [])
  match at_ 0 32 with
  | none => none
  | some h => at_ 32 (numAt h 16 4)

/-- The ADMIT entry of the request in a slot. -/
def State.admitEntry (s : State) (p n : Nat) : Option JEntry :=
  let x := s.part p
  x.journal.find? (fun e => e.kind = 1 && e.slots.any (fun a => a.1 = n && x.admits.contains a))

/-- The request message of a slot, from its ADMIT entry. -/
def State.admitMsg (s : State) (p n : Nat) : Option (List Byte) := (s.admitEntry p n).bind (fun e => s.jBody p e)

/-- What the engine reads of the journal for it. -/
def State.admitReads (s : State) (p n : Nat) : List (Nat × Nat × Nat) := match s.admitEntry p n with
  | none => []
  | some e => (jPieces (s.jrnlSize p) (e.size + 1) e.pos (List.replicate e.size 0)).map (fun x => (1, s.jrnlBase p + x.1, x.2.length))

/-- Prompt token `i` of a request message. -/
def msgToken (msg : List Byte) (i : Nat) : Nat := numAt msg (64 + 4 * i) 4

/-! ## Release of what a confirmation frees (R190, R194, R200) -/

/-- The fabric time of the doorbell that gave a submission ring its entries up to its consumer index (R192). -/
def State.bellTime (s : State) (p ring : Nat) : Nat :=
  match (s.part p).bells.find? (fun b => b.1 = ring && !backwards32 (s.ringConsumer ring) b.2.1) with
  | some b => b.2.2
  | none => s.now

/-- An admission is confirmed: the slot is ADMITTED and its ACK posted; it counts as late when its message's doorbell is more
than 1 ms old (R192). A ring takes its next message only after the ACK, so its consumer index ends the message. -/
def ackAdmission (p seq n ring : Nat) : Act Unit := do
  let s ← Act.get
  let cr := s.slotF n .completionRing
  slotSet n .state stAdmitted
  let _ ← postRecord p cr (completionRecord 1 0 0 0 n (s.slotF n .clientTag) 0xFFFFFFFF 0 seq)
  count (C.REQ_CNT_ADMITTED p) 1
  addLive 1
  addAdmitting (-1)
  if s.bellTime p ring + 1000000 < s.now then count (C.REQ_CNT_ADMIT_OVER_1MS p) 1

/-- Write the FINAL record of an ended slot (R200); OK of a request resumed after a failover reads RESUMED_AFTER_FAILOVER
(R446). -/
def finalRecord (p step n : Nat) : Act Unit := do
  slotSound p n
  let s ← Act.get
  let cr := s.slotF n .completionRing
  if s.slotF n .resumed = 1 ∧ s.slotF n .finalStatus = 0 then slotSet n .finalStatus 9
  let st ← rd (fun t => t.slotF n .finalStatus)
  let i ← postEntry p cr (completionRecord 3 st 0 (s.recordFlags n) n (s.slotF n .clientTag) (s.slotF n .lastIndex) step 0)
  modPart p (fun x => { x with finals := x.finals ++ [(n, cr, i)] })

/-- A publication goes out (R200): the token rings' tails advance, the FINAL records are written in slot order, the completion
rings' tails advance, and the new tails are sent. -/
def publish (p : Nat) (b : Publication) : Act Unit := do
  let before ← Act.get
  for t in b.tokens do
    slotSound p t.1
    slotSet t.1 .lastIndex t.2.2.2
    let _ ← moveTail t.2.1 t.2.2.1
  let ended := b.ended.foldl (fun l n => insertNat n l) []
  for n in ended do finalRecord p b.step n
  let s ← Act.get
  let done := ended.map (fun n => s.slotF n .completionRing)
  for n in ended do
    slotSet n .finalPublished 1
    let _ ← moveTail (s.slotF n .completionRing) (s.ringProducer (s.slotF n .completionRing))
  let after ← Act.get
  for ring in (b.tokens.map (fun t => t.2.1) ++ done).eraseDups do
    if after.ringPublished ring ≠ before.ringPublished ring then sendTail p ring

/-- The number of queued publications is shown (R212). -/
def showPending (p : Nat) : Act Unit := do
  let n ← rd (fun s => (s.part p).pubs.length)
  wrF (R.REQ_STEP_STATUS p) F.REQ_STEP_STATUS.pending_publish n

/-- A stopping partition is STOPPED once its last publication is sent (R384). -/
def stopIfDone (p : Nat) : Act Unit := do
  let s ← Act.get
  if s.fldOf (R.PRT_CTRL p) F.PRT_CTRL.state = 2 ∧ (s.part p).pubs = [] ∧ (s.part p).stopping = false then
    wrF (R.PRT_CTRL p) F.PRT_CTRL.state 3

/-- Every held ACK and publication up to a confirmed number goes out, in sequence order; a failed package holds its
publications for good (R440). -/
def releaseConfirmed (p conf : Nat) : Nat → Act Unit
  | 0 => skip
  | fuel + 1 => do
    let x ← rd (fun s => s.part p)
    let a := x.acks.head?.filter (fun a => decide (a.1 ≤ conf))
    let failed ← rd (fun s => s.pkgFailed)
    let b := x.pubs.head?.filter (fun b => decide (b.upto ≤ conf) && !failed)
    match a, b with
    | none, none => skip
    | some a, b? =>
      if (match b? with
          | some b => decide (b.upto < a.1)
          | none => false) then
        match b? with
        | some b =>
          modPart p (fun y => { y with pubs := y.pubs.tail })
          publish p b
          showPending p
        | none => skip
      else
        modPart p (fun y => { y with acks := y.acks.tail })
        ackAdmission p a.1 a.2.1 a.2.2
      releaseConfirmed p conf fuel
    | none, some b =>
      modPart p (fun y => { y with pubs := y.pubs.tail })
      publish p b
      showPending p
      releaseConfirmed p conf fuel

/-- Sequence numbers up to `seq` are confirmed (R194). -/
def confirmed (p seq : Nat) : Act Unit := do
  let s ← Act.get
  let c := max (s.jrnlConfirmed p) (min seq (s.jrnlWritten p))
  wrF (R.REQ_JRNL_CONF p) F.REQ_JRNL_CONF.confirmed c
  modPart p (fun x => { x with sentSeqs := x.sentSeqs.filter (fun e => decide (c < e.1)) })
  if !s.mirrorLost p ∨ c = s.jrnlWritten p then
    wrF (R.REQ_JRNL_CONF p) F.REQ_JRNL_CONF.mirror_lost 0
    releaseConfirmed p c ((s.part p).acks.length + (s.part p).pubs.length)
    stopIfDone p

/-- MIRROR_CONF (R194, R330): the buddy confirms entries. -/
def mirrorConf (r : RxPacket) : Act Unit :=
  onPacket r [0x31] (fun q => do
    match q with
    | none => skip
    | some p =>
      let s ← Act.get
      if pkSrc r.bytes = s.fldOf (R.REQ_JRNL_BUDDY p) F.REQ_JRNL_BUDDY.buddy then
        confirmed p (pkArg0 r.bytes % 2 ^ 48))

/-- An entry has waited for its confirmation for mirror_timeout_us (R194). -/
def State.mirrorLate (s : State) (p : Nat) : Bool :=
  (s.part p).sentSeqs.any (fun e => decide (s.jrnlConfirmed p < e.1 ∧
    e.2 + s.fldOf (R.REQ_JRNL_BUDDY p) F.REQ_JRNL_BUDDY.mirror_timeout_us * 1000 ≤ s.now))

/-- MIRROR_TIMEOUT (R194): no confirmation within the wait; unconfirmed publications and admissions are held. -/
def mirrorTimeout (p : Nat) : Act Unit := do
  let s ← Act.get
  if s.mirrorLate p ∧ !s.mirrorLost p then
    wrF (R.REQ_JRNL_CONF p) F.REQ_JRNL_CONF.mirror_lost 1
    setIrq (pageBase .req (1 + p)) 34

/-! ## Entries read back from a region (R193) -/

/-- An entry read back: its header fields, its place, its body. -/
structure REntry where
  seq : Nat
  kind : Nat
  step : Nat
  slot : Nat
  pos : Nat
  size : Nat
  body : List Byte
deriving DecidableEq, Repr

/-- Bytes of a region of the partition's GDDR7 space from a place on, around its end; none where it cannot be read. -/
def State.regionBytes (s : State) (p base size pos n : Nat) : Option (List Byte) :=
  (jPieces size (n + 1) pos (List.replicate n 0)).foldl (fun acc x =>
    match acc, s.engBytes p 1 (base + x.1) x.2.length with
    | some l, some b => some (l ++ b)
    | _, _ => none) (some [])

/-- The entry with a good CRC that starts at a place of the region. -/
def State.rEntryAt (s : State) (p base size pos : Nat) : Option REntry :=
  match s.regionBytes p base size pos 32 with
  | none => none
  | some h =>
    let len := numAt h 16 4
    let kind := numAt h 6 1
    if numAt h 0 6 = 0 ∨ kind = 0 ∨ 4 < kind ∨ size < jEntrySize len then none
    else match s.regionBytes p base size (pos + 32) len with
    | none => none
    | some body =>
      if crc32c (h.take 24 ++ body) = numAt h 24 4 then
        some { seq := numAt h 0 6, kind := kind, step := numAt h 8 6, slot := numAt h 14 2, pos := pos
               size := jEntrySize len, body := body }
      else none

/-- The oldest entry with a good CRC: entries start at multiples of 32 B. -/
def State.oldestEntry (s : State) (p base size : Nat) : Option REntry :=
  (List.range (size / 32)).foldl (fun b i => match s.rEntryAt p base size (32 * i) with
    | none => b
    | some e => match b with
      | some x => if e.seq < x.seq then some e else b
      | none => some e) none

/-- Entries in ascending sequence from one on; the first missing number or failed CRC ends them. -/
def State.entriesFrom (s : State) (p base size : Nat) : Nat → REntry → List REntry
  | 0, e => [e]
  | fuel + 1, e =>
    match s.rEntryAt p base size ((e.pos + e.size) % size) with
    | some n => if n.seq = e.seq + 1 then e :: s.entriesFrom p base size fuel n else [e]
    | none => [e]

/-! ## MIRROR at the buddy (R441) -/

/-- The entry of PRT_MIRROR that takes a source's packet. -/
def State.mirrorEntry (s : State) (p src : Nat) : Option Word :=
  ((List.range 4).map (fun m => s.reg (R.PRT_MIRROR p m))).find? (fun w =>
    getFld w F.PRT_MIRROR.valid = 1 && getFld w F.PRT_MIRROR.frozen = 0 && getFld w F.PRT_MIRROR.source = src)

/-- Where the numbers of a source's entries stand at its buddy: the last one counted and the place after it. -/
def mirrorKey (p src : Nat) : Nat := tabKey 14 (p * 4096 + src)

/-- A mirror entry has come into use: nothing of its source is counted yet. -/
def mirrorAnew (p src : Nat) : Act Unit := do
  stW (mirrorKey p src) 0
  stW (mirrorKey p src + 2 ^ 20) 0

/-- Where the count of a mirror's entries goes on: after the last one counted, or, before any is, at the first entry of the region or,
where the journal was copied from its oldest live entry, at the oldest (R194). -/
def State.mirrorFrom (s : State) (p base size seq pos : Nat) : Nat × Nat :=
  if seq ≠ 0 then (seq, pos)
  else match s.rEntryAt p base size 0 with
    | some e => if e.seq = 1 then (0, 0) else ((s.oldestEntry p base size).elim (0, 0) (fun e => (e.seq - 1, e.pos)))
    | none => (s.oldestEntry p base size).elim (0, 0) (fun e => (e.seq - 1, e.pos))

/-- The last whole entry with a good CRC that lies in a mirror region, going on from entry `seq` at `pos`. -/
def State.mirrorScan (s : State) (p base size : Nat) : Nat → Nat → Nat → Nat × Nat
  | 0, seq, pos => (seq, pos)
  | fuel + 1, seq, pos =>
    match s.rEntryAt p base size (pos % size) with
    | some e => if e.seq = seq + 1 then s.mirrorScan p base size fuel e.seq (pos + e.size) else (seq, pos)
    | none => (seq, pos)

/-- MIRROR (R441): journal bytes go into the mirror region, and whole entries are confirmed; any other packet is
discarded. -/
def mirrorPacket (r : RxPacket) : Act Unit :=
  onPacket r [0x30] (fun q => do
    match q with
    | none => skip
    | some p =>
      let s ← Act.get
      let off := pkArg0 r.bytes % 2 ^ 48
      let body := pkBody r.bytes
      match s.mirrorEntry p (pkSrc r.bytes) with
      | none => count (C.KEY_DROP r.port) 1
      | some w =>
        let size := 2 ^ getFld w F.PRT_MIRROR.log_size
        let base := getFld w F.PRT_MIRROR.base * 65536
        if size < off + body.length then count (C.KEY_DROP r.port) 1
        else
          let _ ← gWrite (portSrc r.port) p (base + off) body
          count (C.PRT_CNT_MIRROR_BYTES p) body.length
          let m := mirrorKey p (pkSrc r.bytes)
          let at_ ← ldW m
          let pos ← ldW (m + 2 ^ 20)
          engNotes p ((jPieces size 34 pos (List.replicate 32 0)).map (fun x => (1, base + x.1, x.2.length)))
          let (seq, pos') ← rd (fun t =>
            let at' := t.mirrorFrom p base size at_ pos
            t.mirrorScan p base size 4096 at'.1 at'.2)
          if seq ≠ at_ then
            stW m seq
            stW (m + 2 ^ 20) (pos' % size)
            let _ ← sendAuto p 3 (pkSrc r.bytes) 0x31 seq 0 [])

end Sys2Proof.Machine
end

