-- ==== Sys2Proof/Machine/Admit.lean ====
section
/-! DEFINITION. Admission (R186, R190, R191) and cancellation (R204). Where the spec is open: DEDUCED 56, 57, 59 and 60,
DESIGN CHOICE 24 and 58 of the assumption log. -/

namespace Sys2Proof.Machine

/-! ## Messages (R186) -/

def msgKind (m : List Byte) : Nat := numAt m 0 1
def msgFlags (m : List Byte) : Nat := numAt m 1 1
def msgCont (m : List Byte) : Nat := numAt m 2 2
def msgLen (m : List Byte) : Nat := numAt m 4 4
def msgTag (m : List Byte) : Nat := numAt m 8 8
def msgSeed (m : List Byte) : Nat := numAt m 16 8
def msgDeadline (m : List Byte) : Nat := numAt m 24 8
def msgAdapter (m : List Byte) : Nat := numAt m 32 2
def msgAdapterVer (m : List Byte) : Nat := numAt m 34 2
def msgMaxNew (m : List Byte) : Nat := numAt m 36 4
def msgG (m : List Byte) : Nat := numAt m 40 4
def msgTopP (m : List Byte) : Nat := numAt m 44 4
def msgK (m : List Byte) : Nat := numAt m 48 2
def msgTokenRing (m : List Byte) : Nat := numAt m 50 2

/-- An FP32 code is 0 or positive and finite. -/
def codeNonNeg (c : Nat) : Bool :=
  match fp32Val c with
  | .fin neg m _ => !neg || m = 0
  | _ => false

/-- An FP32 code lies in (0, 1]. -/
def codeUnit (c : Nat) : Bool :=
  match fp32Val c with
  | .fin neg m e => !neg && m ≠ 0 && FV.le (.fin neg m e) (.fin false 1 0)
  | _ => false

/-- A request message keeps the limits of R186; words of the last entry past the prompt are 0. -/
def msgGood (m : List Byte) : Bool :=
  msgKind m = 1 && decide (1 ≤ msgLen m ∧ msgLen m ≤ 1048560) && msgCont m = (msgLen m + 15) / 16 &&
    decide (1 ≤ msgMaxNew m ∧ msgMaxNew m ≤ 16777215) && codeNonNeg (msgG m) && codeUnit (msgTopP m) &&
    decide (1 ≤ msgK m ∧ msgK m ≤ 1024) &&
    (m.drop (64 + 4 * msgLen m)).all (fun b => b = 0)

/-! ## Which message a hub takes -/

/-- Entries of a completion ring that are neither used nor reserved: an admitted request keeps one for its FINAL record,
an unconfirmed one a second for its ACK (R190). -/
def State.completionFree (s : State) (p ring : Nat) : Nat :=
  let waiting := ((s.part p).acks.filter (fun a => s.slotF a.2.1 .completionRing = ring)).length
  s.ringRoom ring - (s.finalsOwed p ring + 2 * waiting)

/-- The request engine takes new work for a partition (R14): its page 0 and the partition's page serve. -/
def State.reqServes (s : State) (p : Nat) : Bool := s.pageServes (pageBase .req 0) && s.pageServes (pageBase .req (1 + p))

/-- A submission ring has a message at its head that the request engine may look at: the ring is up, its partition admits,
and the linked completion ring has room for two records (R14, R182, R190, R212). -/
def State.ringOffers (s : State) (ring : Nat) : Option Nat :=
  match s.ringOwner ring with
  | none => none
  | some p =>
    let linked := s.ringF ring 3 F.RING.linked
    if s.ringUp ring && s.ringType ring = 1 && s.partValid p && s.reqServes p && s.fldOf (R.REQ_PART_CTRL p) F.REQ_PART_CTRL.admit_enable = 1 &&
        decide (s.ringConsumer ring ≠ s.ringProducer ring) && s.ringOwner linked = some p && s.ringType linked = 2 &&
        s.ringUp linked && decide (2 ≤ s.completionFree p linked) then some p
    else none

/-- The bytes of entries from a ring's consumer index on, as its engine finds them. -/
def State.headEntries (s : State) (p ring n : Nat) : Option (List Byte) :=
  (List.range n).foldl (fun acc i => match acc with
    | none => none
    | some l => (s.engBytes p (s.ringF ring 0 F.RING.space) (s.ringAddr ring (s.ringConsumer ring + i)) 64).map (l ++ ·))
    (some [])

/-- Entries the message at a ring's head takes, if the producer index covers them (R186): a cancel and a message of no
kind take one. -/
def State.headWhole (s : State) (p ring : Nat) : Option (List Byte) :=
  match s.headEntries p ring 1 with
  | none => none
  | some h =>
    let n := if msgKind h = 1 then 1 + msgCont h else 1
    if n ≤ moves32 (s.ringConsumer ring) (s.ringProducer ring) then s.headEntries p ring n else none

/-- The rings of a hub that any partition holds, ascending. -/
def State.hubRings (s : State) (h : Nat) : List Nat :=
  (s.tab.filter (fun e => decide (ringOwnerKey (16384 * h) ≤ e.1 ∧ e.1 < ringOwnerKey (16384 * (h + 1))))).map
    (fun e => e.1 - ringOwnerKey 0)

/-- Admissions of a hub between allocation and acknowledgement (R190). -/
def State.hubAdmitting (s : State) (h : Nat) : Nat :=
  ((List.range 32).map (fun p => ((s.part p).acks.filter (fun a => ringHub a.2.2 = h)).length)).sum

/-! ## Admission (R190) -/

/-- The refusal the checks of R190 give: status and detail. -/
def State.admitRefusal (s : State) (p : Nat) (m : List Byte) : Option (Nat × Nat) :=
  let live := s.liveSlots p
  let cls := msgFlags m % 8
  let cfg := s.reg (R.REQ_CLASS p cls)
  let tokens := (live.map (fun n => s.slotF n .promptLen + s.slotF n .maxNew)).sum
  let free := (s.slotsOf p).filter (fun n => s.slotF n .state = stFree && !(s.part p).acks.any (fun a => a.2.1 = n))
  if !msgGood m then some (4, 0x10)
  else if s.ringOwner (msgTokenRing m) ≠ some p ∨ s.ringType (msgTokenRing m) ≠ 3 then some (4, 0x11)
  else if getFld cfg F.REQ_CLASS.max_slots ≤ (live.filter (fun n => s.slotF n .cls = cls)).length then some (5, 0x01)
  else if s.fldOf (R.PRT_QUOTA p) F.PRT_QUOTA.tokens < tokens + msgLen m + msgMaxNew m then some (5, 0x02)
  else if msgDeadline m ≠ 0 ∧ msgDeadline m < s.now + getFld cfg F.REQ_CLASS.min_lead_us * 1000 then some (4, 0x06)
  else if msgAdapter m ≠ 0xFFFF ∧ (s.adpFind p (msgAdapter m) (msgAdapterVer m) [2]).isNone then some (8, 0x07)
  else if free = [] then some (4, 0x03)
  else if s.jRoom p < jEntrySize m.length then some (4, 0x04)
  else if s.mirrorLost p then some (4, 0x05)
  else none

/-- Fill a slot from a request message (R189). -/
def slotFill (p n ring : Nat) (m : List Byte) : Act Unit := do
  for w in List.range 16 do stW (slotKey n w) 0
  slotPut n .cls (msgFlags m % 8)
  slotPut n .publish (msgFlags m / 8 % 2)
  slotPut n .partition p
  slotPut n .promptLen (msgLen m)
  slotPut n .maxNew (msgMaxNew m)
  slotPut n .lastIndex 0xFFFFFFFF
  slotPut n .deadline (msgDeadline m)
  slotPut n .seed (msgSeed m)
  slotPut n .gTopP (numAt m 40 8)
  slotPut n .adapter (msgAdapter m)
  slotPut n .adapterVer (msgAdapterVer m)
  slotPut n .tokenRing (msgTokenRing m)
  slotPut n .completionRing ring
  slotPut n .clientTag (msgTag m)
  slotPut n .k (msgK m)
  slotSeal n

/-- Pin the adapter a message names (R313). -/
def pinFor (p : Nat) (num ver : Nat) (states : List Nat) : Act Unit := do
  if num ≠ 0xFFFF then
    match ← rd (fun s => s.adpFind p num ver states) with
    | some e => adpPin p e
    | none => skip

/-- Refuse a message: its record is posted at once (R190). -/
def refuseMsg (p ring : Nat) (m : List Byte) (r : Nat × Nat) : Act Unit := do
  let linked ← rd (fun s => s.ringF ring 3 F.RING.linked)
  let _ ← postRecord p linked (completionRecord 2 r.1 r.2 0 0xFFFF (msgTag m) 0xFFFFFFFF 0 0)
  count (C.REQ_CNT_REFUSED p) 1

/-- A message is taken: the ring's consumer index passes it, and it is refused or its slot is filled and its ADMIT entry
written; its slot stays FREE until the confirmation. -/
def admitMessage (p ring : Nat) (m : List Byte) : Act Unit := do
  let s ← Act.get
  let n := m.length / 64
  ringSet ring 2 F.RING.consumer (s.ringConsumer ring + n)
  tableSound p
  let s ← Act.get
  match s.admitRefusal p m with
  | some r => refuseMsg p ring m r
  | none =>
    match (s.slotsOf p).find? (fun q => s.slotF q .state = stFree && !(s.part p).acks.any (fun a => a.2.1 = q)) with
    | none => skip
    | some q =>
      let seq := s.jrnlWritten p + 1
      slotFill p q (s.ringF ring 3 F.RING.linked) m
      pinFor p (msgAdapter m) (msgAdapterVer m) [2]
      slotSet q .jseq seq
      modPart p (fun x => { x with admits := x.admits ++ [(q, seq)], acks := x.acks ++ [(seq, q, ring)] })
      addAdmitting 1
      let _ ← jWrite p 1 0 q [(q, seq)] m

/-- The messages at the heads of a hub's rings that are no cancels, in ring order, of rings with no admission in hand:
partition, ring, message (R190). -/
def State.requestHeads (s : State) (h : Nat) : List (Nat × Nat × List Byte) :=
  (s.hubRings h).filterMap (fun ring => match s.ringOffers ring with
    | none => none
    | some p =>
      if (s.part p).acks.any (fun a => a.2.2 = ring) then none
      else match s.headWhole p ring with
        | some m => if msgKind m = 2 then none else some (p, ring, m)
        | none => none)

/-- The hub's engine reads the contexts of its rings: one whose check fails goes out of service (R182). -/
def ringsSound (h : Nat) : Act Unit := do
  for ring in ← rd (fun s => s.hubRings h) do
    let _ ← ringUse ring

/-- The hub's engine reads the head entry of each ring it may look at. -/
def headNotes (h : Nat) : Act Unit := do
  for ring in ← rd (fun s => s.hubRings h) do
    match ← rd (fun s => s.ringOffers ring) with
    | none => skip
    | some _ => let _ ← ringRead 0 ring (← rd (fun s => s.ringConsumer ring))

/-- ADMISSION (R190): hub `h` takes the message of the lowest ring that has one, is not being admitted from and whose head
is no cancel; with all 16 places used it waits. -/
def admission (h : Nat) : Act Unit := do
  ringsSound h
  headNotes h
  let s ← Act.get
  match s.requestHeads h with
  | [] => skip
  | (p, ring, m) :: _ => if s.hubAdmitting h < 16 then admitMessage p ring m

/-- `n` microseconds pass for the messages that wait for one of a hub's 16 places (R190, R211). -/
def admitWaits (n : Nat) : Act Unit := do
  for h in List.range 4 do
    let s ← Act.get
    if 16 ≤ s.hubAdmitting h ∧ s.requestHeads h ≠ [] then count C.REQ_CNT_ADMIT_WAIT ((s.requestHeads h).length * n)

/-! ## Cancellation (R204) -/

/-- A cancel is examined. -/
def cancelExamine (p n tag : Nat) : Act Unit := do
  if (← rd (fun s => s.slotOwner n)) = some p then slotSound p n
  let s ← Act.get
  let st := s.slotF n .state
  if s.slotOwner n ≠ some p ∨ st = stFree ∨ s.slotF n .clientTag ≠ tag ∨ s.slotF n .cancelPending = 1 then
    count (C.REQ_CNT_CANCEL_STALE p) 1
  else if slotLive st then slotSet n .cancelPending 1
  else
    let fs := s.slotF n .finalStatus
    if s.slotF n .finalPublished = 0 then
      if fs = 0 then
        slotSet n .finalStatus 2
        count (C.REQ_CNT_CANCEL_LATE p) 1
    else
      let step ← ldW (endStepKey n)
      let rs := if fs = 0 then 2 else fs
      if rs = 2 then count (C.REQ_CNT_CANCEL_LATE p) 1
      let _ ← postRecord p (s.slotF n .completionRing) (completionRecord 4 rs 0 (s.recordFlags n) n tag
        (s.slotF n .lastIndex) step 0)

/-- CANCEL (R204): hub `h` takes a cancel from the lowest ring with one at its head; while a commit of the partition holds
its slots the cancel waits. -/
def cancelMessage (h : Nat) : Act Unit := do
  ringsSound h
  headNotes h
  let s ← Act.get
  let pick := (s.hubRings h).findSome? (fun ring => match s.ringOffers ring with
    | none => none
    | some p =>
      if (s.part p).acks.any (fun a => a.2.2 = ring) then none
      else match s.headWhole p ring with
        | some m =>
          if msgKind m = 2 ∧ s.fldOf (R.REQ_STEP_STATUS p) F.REQ_STEP_STATUS.phase ≠ 4 then some (p, ring, m) else none
        | none => none)
  match pick with
  | none => skip
  | some (p, ring, m) =>
    ringSet ring 2 F.RING.consumer (s.ringConsumer ring + 1)
    cancelExamine p (numAt m 4 2) (msgTag m)

end Sys2Proof.Machine
end

