-- ==== Sys2Proof/Machine/Ling.lean ====
section
/-! DEFINITION. The ling index (R205 to R210): nodes and buckets, lookup, insertion, eviction, shared slots. Where the
spec is open: DEDUCED 67, DESIGN CHOICE 163 of the assumption log. -/

namespace Sys2Proof.Machine

/-! ## Trees and nodes (R206) -/

/-- A tree: the partition whose GDDR7 holds it, its base, the logs of its node and bucket counts, its key. -/
structure Tree where
  owner : Nat
  base : Nat
  nodeLog : Nat
  bucketLog : Nat
  key : Nat
deriving DecidableEq, Repr

/-- A partition's own tree. -/
def State.ownTree (s : State) (p : Nat) : Tree :=
  let c := s.reg (R.REQ_PRX_CFG p)
  { owner := p, base := s.fldOf (R.REQ_PRX_BASE p) F.REQ_PRX_BASE.base, nodeLog := getFld c F.REQ_PRX_CFG.node_log
    bucketLog := getFld c F.REQ_PRX_CFG.bucket_log
    key := (s.reg (R.PRX_KEY_LO p)).toNat + (s.reg (R.PRX_KEY_HI p)).toNat * 2 ^ 64 }

/-- The tree of shared slot `c`. -/
def State.sharedTree (s : State) (c : Nat) : Tree :=
  let g := s.reg (R.PRX_SHARE_CFG c)
  { owner := getFld g F.PRX_SHARE_CFG.owner, base := s.fldOf (R.PRX_SHARE_BASE c) F.PRX_SHARE_BASE.base
    nodeLog := getFld g F.PRX_SHARE_CFG.node_log, bucketLog := getFld g F.PRX_SHARE_CFG.bucket_log
    key := (s.reg (R.PRX_SHARE_KEY_LO c)).toNat + (s.reg (R.PRX_SHARE_KEY_HI c)).toNat * 2 ^ 64 }

/-- Shared slot `c` is in use and partition `p` may read it (R210). -/
def State.sharedReadable (s : State) (c p : Nat) : Bool :=
  let g := s.reg (R.PRX_SHARE_CFG c)
  getFld g F.PRX_SHARE_CFG.valid = 1 && bit (getFld g F.PRX_SHARE_CFG.readers) p

def Tree.nodeAddr (t : Tree) (i : Nat) : Nat := t.base + 512 * i
def Tree.bucketAddr (t : Tree) (h : List Byte) : Nat := t.base + 512 * 2 ^ t.nodeLog + 64 * (numAt h 0 4 % 2 ^ t.bucketLog)

def ndHash (n : List Byte) : List Byte := n.take 16
def ndParent (n : List Byte) : Nat := numAt n 16 4
def ndChildren (n : List Byte) : Nat := numAt n 20 4
def ndUse (n : List Byte) : Nat := numAt n 24 8
def ndValid (n : List Byte) : Bool := bit (numAt n 32 1) 0
def ndPinned (n : List Byte) : Bool := bit (numAt n 32 1) 1
def ndCount (n : List Byte) : Nat := numAt n 36 4
def ndRun (n : List Byte) : Nat := numAt n 40 6
def ndTokens (n : List Byte) : List Byte := bytesAt n 64 256
def ndGood (n : List Byte) : Bool := crc8 (n.take 511) = numAt n 511 1

/-- No parent: the node stands for block 0. -/
def noParent : Nat := 0xFFFFFFFF

/-- A node's bytes (R206). -/
def mkNode (hash : List Byte) (parent children use : Nat) (pinned : Bool) (count run : Nat) (tokens : List Byte) : List Byte :=
  let b := hash ++ leBytes 4 parent ++ leBytes 4 children ++ leBytes 8 use ++ leBytes 1 (1 + 2 * b2n pinned) ++ [0, 0, 0] ++
    leBytes 4 count ++ leBytes 8 run ++ List.replicate 16 0 ++ tokens ++ List.replicate 191 0
  b ++ leBytes 1 (crc8 b)

/-- A node's bytes, none where the table cannot be read. -/
def State.nodeAt (s : State) (t : Tree) (i : Nat) : Option (List Byte) := s.engBytes t.owner 1 (t.nodeAddr i) 512

/-- A node of the tree that checks and is valid. -/
def State.goodNode (s : State) (t : Tree) (i : Nat) : Option (List Byte) :=
  (s.nodeAt t i).filter (fun n => ndGood n && ndValid n)

/-- Write a node. -/
def putNode (t : Tree) (i : Nat) (n : List Byte) : Act Unit := engWrite t.owner 1 (t.nodeAddr i) n

/-- A node with new children and last use, its check computed again. -/
def ndWith (n : List Byte) (children use : Nat) : List Byte :=
  mkNode (ndHash n) (ndParent n) children use (ndPinned n) (ndCount n) (ndRun n) (ndTokens n)

/-- The eight entries of a bucket: tag and node index + 1. -/
def State.bucket (s : State) (t : Tree) (h : List Byte) : List (Nat × Nat) :=
  match s.engBytes t.owner 1 (t.bucketAddr h) 64 with
  | none => []
  | some b => (List.range 8).map (fun i => (numAt b (8 * i + 4) 4, numAt b (8 * i) 4))

/-- The descriptors a node's run holds. -/
def State.nodeRun (s : State) (t : Tree) (n : List Byte) : Option (List (List Byte)) :=
  (s.engBytes t.owner 1 (ndRun n) (16 * ndCount n)).map (fun b => (List.range (ndCount n)).map (fun i => bytesAt b (16 * i) 16))

/-- A run whose descriptors all check, are shared and name frames that are not DEFERRED (R174). -/
def State.runPresent (s : State) (t : Tree) (n : List Byte) : Bool :=
  match s.nodeRun t n with
  | none => false
  | some ds => ds.all (fun e => pdCheck e && pdValid e && pdShared e && s.rcF (pdRc e) F.RC.deferred = 0 && s.rcF (pdRc e) F.RC.valid = 1)

/-! ## The chained hash (R205) -/

/-- H_(−1) of a request. -/
def State.rootHash (s : State) (p adapter ver : Nat) : List Byte :=
  leBytes 8 (s.reg (R.REQ_PRX_ROOT p)).toNat ++ leBytes 2 adapter ++ leBytes 2 ver ++ leBytes 2 (s.layout p) ++ [0, 0]

/-- One link of the chain. -/
def chainHash (key : Nat) (prev tokens : List Byte) : List Byte := siphash128 key (prev ++ tokens)

/-- Block `b` of a request message's prompt as bytes. -/
def msgBlock (m : List Byte) (b : Nat) : List Byte := bytesAt m (64 + 256 * b) 256

/-! ## Lookup (R207) -/

/-- What a lookup finds in one tree: nodes in block order, collisions, entries whose node fails its check (bucket hash
and node), what was read. -/
structure Look where
  nodes : List Nat := []
  collisions : Nat := 0
  bad : List (List Byte × Nat) := []
  /-- What the engine read for it: space, address, length. -/
  reads : List (Nat × Nat × Nat) := []
deriving DecidableEq, Repr

/-- The node of a block in the bucket of its hash, in slot order. -/
def State.findNode (s : State) (t : Tree) (h tokens : List Byte) (parent : Nat) : Option Nat × Nat × List (List Byte × Nat) :=
  (s.bucket t h).foldl (fun (acc : Option Nat × Nat × List (List Byte × Nat)) e =>
    if acc.1.isSome ∨ e.2 = 0 ∨ e.1 ≠ numAt h 4 4 then acc
    else match s.nodeAt t (e.2 - 1) with
      | none => acc
      | some n =>
        if !ndGood n then (none, acc.2.1, acc.2.2 ++ [(h, e.2 - 1)])
        else if ndValid n && ndHash n = h && ndParent n = parent then
          if ndTokens n = tokens then (some (e.2 - 1), acc.2.1, acc.2.2) else (none, acc.2.1 + 1, acc.2.2)
        else acc) (none, 0, [])

/-- What the engine reads to find the node of a block: the bucket of its hash, and the nodes that its entries with the tag name. -/
def State.findReads (s : State) (t : Tree) (h : List Byte) : List (Nat × Nat × Nat) :=
  (1, t.bucketAddr h, 64) ::
    ((s.bucket t h).filter (fun e => e.2 ≠ 0 && e.1 = numAt h 4 4)).map (fun e => (1, t.nodeAddr (e.2 - 1), 512))

/-- Walk the blocks of a prompt down a tree. -/
def State.lookWalk (s : State) (t : Tree) (m : List Byte) : Nat → Nat → List Byte → Nat → Look → Look
  | 0, _, _, _, a => a
  | fuel + 1, b, h, parent, a =>
    let h' := chainHash t.key h (msgBlock m b)
    let (node, c, bad) := s.findNode t h' (msgBlock m b) parent
    let a := { a with collisions := a.collisions + c, bad := a.bad ++ bad, reads := a.reads ++ s.findReads t h' }
    match node with
    | none => a
    | some i =>
      match s.nodeAt t i with
      | none => a
      | some n =>
        let a := { a with reads := a.reads ++ [(1, ndRun n, 16 * ndCount n)] }
        if s.runPresent t n then s.lookWalk t m fuel (b + 1) h' i { a with nodes := a.nodes ++ [i] } else a

/-- The trees a partition looks in: its own, then the shared ones it may read, ascending; those whose PRX page is in service
(R14). -/
def State.treesOf (s : State) (p : Nat) : List Tree :=
  (if s.pageServes (pageBase .prx 0) then [s.ownTree p] else []) ++
    (if s.pageServes (pageBase .prx 1) then ((List.range 8).filter (fun c => s.sharedReadable c p)).map s.sharedTree else [])

/-- Remove a node from its bucket. -/
def dropBucket (t : Tree) (h : List Byte) (i : Nat) : Act Unit := do
  let l ← rd (fun s => s.bucket t h)
  match l.findIdx? (fun e => e.2 = i + 1) with
  | some k => engWrite t.owner 1 (t.bucketAddr h + 8 * k) (List.replicate 8 0)
  | none => skip

/-- A node whose check fails is removed (R206). -/
def dropBad (t : Tree) (e : List Byte × Nat) : Act Unit := do
  dropBucket t e.1 e.2
  putNode t e.2 (List.replicate 512 0)
  count C.PRX_CNT_CHECK 1

/-- The nodes of a tree whose check fails. -/
def State.badNodes (s : State) (t : Tree) : List Nat :=
  (List.range (2 ^ t.nodeLog)).filter (fun i => match s.nodeAt t i with
    | some n => !ndGood n
    | none => false)

/-- The places in the bucket table that name a node. -/
def State.bucketPlaces (s : State) (t : Tree) (i : Nat) : List Nat :=
  ((List.range (8 * 2 ^ t.bucketLog)).map (fun k => t.base + 512 * 2 ^ t.nodeLog + 8 * k)).filter (fun a =>
    match s.engBytes t.owner 1 a 8 with
    | some b => numAt b 0 4 = i + 1
    | none => false)

/-- The engine goes through a tree's nodes, and those whose check fails are removed (R206). -/
def nodesSound (t : Tree) : Act Unit := do
  for i in ← rd (fun s => s.badNodes t) do
    for a in ← rd (fun s => s.bucketPlaces t i) do engWrite t.owner 1 a (List.replicate 8 0)
    putNode t i (List.replicate 512 0)
    count C.PRX_CNT_CHECK 1

/-- Look a prompt up in every tree and keep the best: the tree and the matched nodes; ties go to the earlier tree. A hit that
finds no free reference-count entry is a miss (R173, R207). -/
def lingLookup (p : Nat) (m : List Byte) : Act (Option (Tree × List Nat)) := do
  let s ← Act.get
  count C.PRX_CNT_LOOKUP 1
  let limit := (msgLen m - 1) / 64
  let found := (s.treesOf p).map (fun t => (t, s.lookWalk t m limit 0 (s.rootHash p (numAt m 32 2) (numAt m 34 2)) noParent {}))
  for f in found do
    if 0 < f.2.collisions then count C.PRX_CNT_COLLISION f.2.collisions
    engNotes f.1.owner f.2.reads
    for e in f.2.bad do dropBad f.1 e
  let best := found.foldl (fun (b : Option (Tree × List Nat)) f => match b with
    | some x => if x.2.length < f.2.nodes.length then some (f.1, f.2.nodes) else b
    | none => if f.2.nodes = [] then none else some (f.1, f.2.nodes)) none
  match best with
  | none => return none
  | some (t, ns) =>
    if (← rd State.rcFree).isNone then
      count C.REQ_CNT_RC_FULL 1
      return none
    count C.PRX_CNT_HIT_BLOCKS ns.length
    for i in ns do
      match ← rd (fun u => u.nodeAt t i) with
      | some n => putNode t i (ndWith n (ndChildren n) s.now)
      | none => skip
    return some (t, ns)

/-! ## Insertion (R208) -/

/-- The lowest free node. -/
def State.freeNode (s : State) (t : Tree) : Option Nat :=
  (List.range (2 ^ t.nodeLog)).find? (fun i => match s.engBytes t.owner 1 (t.nodeAddr i + 32) 1 with
    | some b => !bit (leNat b) 0
    | none => false)

/-- Free nodes of a tree. -/
def State.freeNodes (s : State) (t : Tree) : Nat :=
  ((List.range (2 ^ t.nodeLog)).filter (fun i => match s.engBytes t.owner 1 (t.nodeAddr i + 32) 1 with
    | some b => !bit (leNat b) 0
    | none => false)).length

/-- Free entries of the reference-count pool. -/
def State.rcRoom (s : State) : Nat :=
  1048576 - (s.tab.filter (fun e => decide (rcKey 0 ≤ e.1 ∧ e.1 < rcKey 1048576))).length

/-- The adapter and version in the root of a node's chain, kept beside the own tree of partition `p`; 0 for none. -/
def ndRootKey (p i : Nat) : Nat := tabKey 16 (p * 2 ^ 24 + i)

/-- Room for a node's run: a 4 KiB block, or a frame for a longer run. -/
def takeRun (p bytes : Nat) : Act (Option Nat) := do
  if bytes ≤ 4096 then takeBlock p
  else
    match ← takeFrame p with
    | some f => return some (f * 65536)
    | none => return none

/-- The room of a run returns. -/
def freeRun (p addr bytes : Nat) : Act Unit := do
  if bytes ≤ 4096 then modPart p (fun x => { x with listFree := x.listFree ++ [addr] })
  else freeFrame p (addr / 65536)

/-- Put a node into a tree: a free node, an empty bucket entry, its run, one reference on each frame; answers its number. -/
def putBlock (t : Tree) (h : List Byte) (parent : Nat) (tokens : List Byte) (ds : List (List Byte)) : Act (Option Nat) := do
  let s ← Act.get
  match (s.bucket t h).findIdx? (fun e => e.2 = 0) with
  | none =>
    count C.PRX_CNT_BUCKET_FULL 1
    return none
  | some k =>
    match s.freeNode t with
    | none =>
      count C.PRX_CNT_NODE_FULL 1
      return none
    | some i =>
      match ← takeRun t.owner (16 * ds.length) with
      | none =>
        count C.PRX_CNT_NODE_FULL 1
        return none
      | some run =>
        engWrite t.owner 1 run ds.flatten
        putNode t i (mkNode h parent 0 s.now false ds.length run tokens)
        engWrite t.owner 1 (t.bucketAddr h + 8 * k) (leBytes 4 (i + 1) ++ leBytes 4 (numAt h 4 4))
        if parent ≠ noParent then
          match ← rd (fun u => u.nodeAt t parent) with
          | some n => putNode t parent (ndWith n (ndChildren n + 1) (ndUse n))
          | none => skip
        for d in ds do rcTake (pdRc d)
        count C.PRX_CNT_INSERT 1
        return some i

/-- The descriptors of prompt block `b` of a slot, in entry order: list, entry and descriptor. -/
def State.blockRun (s : State) (p n b : Nat) : List (Nat × Nat × List Byte) :=
  let lay := s.layout p
  (blockEntries lay (64 * b / kvBlock lay)).filterMap (fun x => (s.entryAt p n x.1 x.2).map (fun d => (x.1, x.2, d)))

/-- Mark the request's descriptors of a block shared, cow and leased; a frame that becomes shared takes its entry with the
list's reference. -/
def markShared (p n : Nat) : List (Nat × Nat × List Byte) → Act (List (List Byte))
  | [] => return []
  | (g, i, d) :: l => do
    let d' ← (if pdShared d then pure (pdWithBits d (orBit (orBit (pdBits d) 3) 6))
      else do
        match ← rcAlloc p 1 with
        | some rc => pure (mkPd (pdFrame d) (orBit (orBit (orBit (pdBits d) 2) 3) 6) rc p)
        | none => pure d)
    match ← rd (fun s => s.entryPlace p n g i) with
    | some a => engWrite p a.1 a.2 d'
    | none => skip
    let ds ← markShared p n l
    return d' :: ds

/-- Insert block `b` of a request under a parent, or find it there: its chain hash and node, none where it cannot go in. -/
def insertBlock (p n : Nat) (m : List Byte) (b : Nat) (h : List Byte) (parent : Nat) : Act (Option (List Byte × Nat)) := do
  nodesSound (← rd (fun s => s.ownTree p))
  let s ← Act.get
  let t := s.ownTree p
  let h' := chainHash t.key h (msgBlock m b)
  engNotes p (s.findReads t h')
  match (s.findNode t h' (msgBlock m b) parent).1 with
  | some i => return some (h', i)
  | none =>
    engNotes p ((blockEntries (s.layout p) (64 * b / kvBlock (s.layout p))).flatMap (fun x => s.entryReads p n x.1 x.2))
    let run := s.blockRun p n b
    let need := (run.filter (fun e => !pdShared e.2.2)).length
    if run.length ≠ (blockEntries (s.layout p) 0).length then return none
    if !(s.bucket t h').any (fun e => e.2 = 0) then
      count C.PRX_CNT_BUCKET_FULL 1
      return none
    if (s.freeNode t).isNone then
      count C.PRX_CNT_NODE_FULL 1
      return none
    if s.rcRoom < need then
      count C.REQ_CNT_RC_FULL 1
      return none
    let ds ← markShared p n run
    match ← putBlock t h' parent (msgBlock m b) ds with
    | none => return none
    | some i =>
      if b = 0 then stW (ndRootKey p i) (1 + numAt m 32 4 * 2)
      return some (h', i)

/-- Insert the next `k` blocks of a request from `b` on, down from a parent; the first that cannot go in ends it. -/
def insertFrom (p n : Nat) (m : List Byte) : Nat → Nat → List Byte → Nat → Act Unit
  | 0, _, _, _ => skip
  | k + 1, b, h, parent => do
    match ← insertBlock p n m b h parent with
    | none => skip
    | some (h', i) => insertFrom p n m k (b + 1) h' i

/-- Prompt blocks of a publishing request wholly committed enter the own tree (R208). -/
def lingInsert (p n : Nat) : Act Unit := do
  let s ← Act.get
  if s.slotF n .publish = 1 ∧ s.fldOf (R.REQ_PRX_CFG p) F.REQ_PRX_CFG.publish = 1 ∧ s.pageServes (pageBase .prx 0) then
    match s.admitMsg p n with
    | none => skip
    | some m =>
      engNotes p (s.admitReads p n)
      let upto := min (s.slotF n .committed) (s.slotF n .promptLen) / 64
      insertFrom p n m upto 0 (s.rootHash p (s.slotF n .adapter) (numAt m 34 2)) noParent

/-! ## Removal (R209, R210) -/

/-- Remove a node: its bucket entry, its parent's count, its run, its references. -/
def dropNode (t : Tree) (i : Nat) (n : List Byte) : Act Unit := do
  engNotes t.owner [(1, t.nodeAddr i, 512), (1, t.bucketAddr (ndHash n), 64), (1, ndRun n, 16 * ndCount n)]
  dropBucket t (ndHash n) i
  if ndParent n ≠ noParent then
    match ← rd (fun s => s.goodNode t (ndParent n)) with
    | some q => putNode t (ndParent n) (ndWith q (ndChildren q - 1) (ndUse q))
    | none => skip
  let ds := (← rd (fun s => s.nodeRun t n)).getD []
  putNode t i (List.replicate 512 0)
  for d in ds do rcDrop (pdRc d) (pdHome d)
  freeRun t.owner (ndRun n) (16 * ndCount n)

/-- The next node to evict: valid, unpinned, without children, oldest last use, ties to the lower number. -/
def State.evictee (s : State) (t : Tree) : Option (Nat × List Byte) :=
  (List.range (2 ^ t.nodeLog)).foldl (fun (b : Option (Nat × List Byte)) i => match s.goodNode t i with
    | none => b
    | some n =>
      if ndPinned n || ndChildren n ≠ 0 then b
      else match b with
        | some x => if ndUse n < ndUse x.2 then some (i, n) else b
        | none => some (i, n)) none

/-- Evict while free nodes are too few, at most `fuel` nodes (R209). -/
def lingEvict (p : Nat) : Nat → Act Unit
  | 0 => skip
  | fuel + 1 => do
    nodesSound (← rd (fun s => s.ownTree p))
    let s ← Act.get
    let t := s.ownTree p
    if s.freeNodes t * 256 < s.fldOf (R.REQ_PRX_CFG p) F.REQ_PRX_CFG.evict_low * 2 ^ t.nodeLog then
      match s.evictee t with
      | none => skip
      | some (i, n) =>
        dropNode t i n
        count C.PRX_CNT_EVICT 1
        lingEvict p fuel

/-- The nodes from the root of a tree down to node `i`. -/
def State.nodePath (s : State) (t : Tree) : Nat → Nat → List (Nat × List Byte) → Option (List (Nat × List Byte))
  | 0, _, _ => none
  | fuel + 1, i, acc => match s.goodNode t i with
    | none => none
    | some n => if ndParent n = noParent then some ((i, n) :: acc) else s.nodePath t fuel (ndParent n) ((i, n) :: acc)

/-- Copy a node into a shared tree, re-hashed under its key; one already there is kept (R210). Its chain hash and number
there, none where it cannot go in. -/
def shareBlock (t own : Tree) (n : List Byte) (h : List Byte) (parent : Nat) : Act (Option (List Byte × Nat)) := do
  nodesSound t
  let s ← Act.get
  let h' := chainHash t.key h (ndTokens n)
  engNotes t.owner (s.findReads t h')
  match (s.findNode t h' (ndTokens n) parent).1 with
  | some i => return some (h', i)
  | none =>
    engNote own.owner 1 (ndRun n) (16 * ndCount n)
    match s.nodeRun own n with
    | none => return none
    | some ds =>
      match ← putBlock t h' parent (ndTokens n) ds with
      | none => return none
      | some i => return some (h', i)

/-- Copy a path into a shared tree (R210). -/
def sharePath (t own : Tree) : List (Nat × List Byte) → List Byte → Nat → Act Unit
  | [], _, _ => skip
  | e :: l, h, parent => do
    match ← shareBlock t own e.2 h parent with
    | none => skip
    | some (h', i) => sharePath t own l h' i

/-- REQ_PRX_SHARE without withdraw. -/
def prxShare (p c node : Nat) : Act Unit := do
  nodesSound (← rd (fun s => s.ownTree p))
  let s ← Act.get
  let own := s.ownTree p
  engNote p 1 (own.nodeAddr node) 512
  match s.nodePath own (2 ^ 14) node [] with
  | none => skip
  | some [] => skip
  | some ((r, n) :: l) =>
    let av := (s.wordAt (ndRootKey p r)).toNat / 2
    engNotes p (l.map (fun e => (1, own.nodeAddr e.1, 512)))
    sharePath (s.sharedTree c) own ((r, n) :: l) (s.rootHash p (av % 65536) (av / 65536)) noParent

/-- Drop the subtree under a node, leaves first. -/
def dropSubtree (t : Tree) (i : Nat) : Nat → Act Unit
  | 0 => skip
  | fuel + 1 => do
    let s ← Act.get
    match s.goodNode t i with
    | none => skip
    | some n =>
      match (List.range (2 ^ t.nodeLog)).find? (fun j => match s.goodNode t j with
        | some q => ndParent q = i
        | none => false) with
      | some j =>
        dropSubtree t j fuel
        dropSubtree t i fuel
      | none => dropNode t i n

/-- The node of a shared tree that stands for the path to a node of the own tree. -/
def State.sharedTwin (s : State) (t : Tree) (l : List (Nat × List Byte)) (h : List Byte) (i : Nat) : Option Nat :=
  (l.foldl (fun (acc : Option (List Byte × Nat)) e => acc.bind (fun (h, parent) =>
    let h' := chainHash t.key h (ndTokens e.2)
    (s.findNode t h' (ndTokens e.2) parent).1.map (fun j => (h', j)))) (some (h, i))).map (·.2)

/-- REQ_PRX_SHARE with withdraw: the shared subtree rooted at the node's twin goes. -/
def prxWithdraw (p c node : Nat) : Act Unit := do
  nodesSound (← rd (fun s => s.ownTree p))
  nodesSound (← rd (fun s => s.sharedTree c))
  let s ← Act.get
  let own := s.ownTree p
  engNote p 1 (own.nodeAddr node) 512
  match s.nodePath own (2 ^ 14) node [] with
  | none => skip
  | some [] => skip
  | some ((r, n) :: l) =>
    let av := (s.wordAt (ndRootKey p r)).toNat / 2
    let t := s.sharedTree c
    engNotes p (l.map (fun e => (1, own.nodeAddr e.1, 512)))
    match s.sharedTwin t ((r, n) :: l) (s.rootHash p (av % 65536) (av / 65536)) noParent with
    | some i => dropSubtree t i (2 ^ (t.nodeLog + 1))
    | none => skip

/-- Empty a tree (R210): every node goes, and the buckets with them. -/
def emptyTree (t : Tree) : Act Unit := do
  nodesSound t
  for i in List.range (2 ^ t.nodeLog) do
    match ← rd (fun s => s.goodNode t i) with
    | some n => dropNode t i n
    | none => skip

end Sys2Proof.Machine
end

