-- ==== Sys2Proof/Machine/Build.lean ====
section
/-! DEFINITION. The build of a step (R196, R197): selection, ling index hits, frames, leases and copy-on-write (R174,
R175), and the start of a built step (R68, R69). Where the spec is open: DEDUCED 68 and 69, DESIGN CHOICE 55 and 149 of
the assumption log. -/

namespace Sys2Proof.Machine

/-- A step's phase (R212): 0 IDLE, 1 BUILDING, 2 BUILT, 3 RUNNING, 4 COMMITTING. -/
def State.phase (s : State) (p : Nat) : Nat := s.fldOf (R.REQ_STEP_STATUS p) F.REQ_STEP_STATUS.phase

def setPhase (p v : Nat) : Act Unit := wrF (R.REQ_STEP_STATUS p) F.REQ_STEP_STATUS.phase v

/-- A hub address as a byte address of hub SRAM (R212). -/
def hubByte (addr : Nat) : Nat := addr * 64

/-! ## Selection -/

/-- The order of the build: class, deadline with 0 last, slot. -/
def State.buildBefore (s : State) (a b : Nat) : Bool :=
  let key := fun n => (s.slotF n .cls, (if s.slotF n .deadline = 0 then 2 ^ 64 else s.slotF n .deadline), n)
  let (c1, d1, n1) := key a
  let (c2, d2, n2) := key b
  decide (c1 < c2) || (c1 = c2 && (decide (d1 < d2) || (d1 = d2 && decide (n1 ≤ n2))))

/-- Insert a slot in build order. -/
def State.insertSlot (s : State) (a : Nat) : List Nat → List Nat
  | [] => [a]
  | b :: l => if s.buildBefore a b then a :: b :: l else b :: s.insertSlot a l

/-- The slots a build considers, in its order. -/
def State.buildOrder (s : State) (p : Nat) : List Nat :=
  ((s.slotsOf p).filter (fun n => decide (1 ≤ s.slotF n .state ∧ s.slotF n .state ≤ 3) && s.slotF n .cancelPending = 0)).foldl
    (fun l n => s.insertSlot n l) []

/-- The draft tokens offered for a slot; a value above 15 reads as 0. -/
def State.drafts (s : State) (p n : Nat) : Nat :=
  match s.engBytes p 0 (hubByte (s.fldOf (R.REQ_DRAFT_BASE p) F.REQ_DRAFT_BASE.addr) + n) 1 with
  | some b => if leNat b ≤ 15 then leNat b else 0
  | none => 0

/-! ## Frames, leases and copies of one request -/

/-- List blocks a list has. -/
def State.listLen (s : State) (p n g : Nat) : Nat → Nat
  | 0 => 0
  | k + 1 => match s.listHead n g with
    | none => 0
    | some h => if (s.listBlock p k h).isSome then k + 1 else s.listLen p n g k

/-- What a request needs to add positions [start, total): entries without a frame, and list blocks. -/
structure Need where
  entries : List (Nat × Nat)
  blocks : Nat
deriving DecidableEq, Repr

/-- Its list entries that have no frame yet, where blocks below `staged` are about to be filled from the ling index. -/
def State.needOf (s : State) (p n start total staged : Nat) : Need :=
  let lay := s.layout p
  let b0 := start / kvBlock lay
  let b1 := (total + kvBlock lay - 1) / kvBlock lay
  let entries := (List.range (b1 - b0)).flatMap (fun k =>
    if b0 + k < staged then [] else (blockEntries lay (b0 + k)).filter (fun x => (s.entryAt p n x.1 x.2).isNone))
  let blocks := ((List.range (kvLists lay)).map (fun g =>
    let want := (b1 * kvEntries lay g + 254) / 255
    want - s.listLen p n g want)).sum
  { entries := entries, blocks := blocks }

/-- Frames that list blocks beyond the free ones take: one frame gives sixteen. -/
def State.blockFrames (s : State) (p blocks : Nat) : Nat := (blocks - (s.part p).listFree.length + 15) / 16

/-- The descriptors a hit stages for a slot: list, entry, descriptor; a later node's entry replaces an earlier one's. -/
def State.stageList (s : State) (p : Nat) (t : Tree) (nodes : List Nat) : List (Nat × Nat × List Byte) :=
  let lay := s.layout p
  ((List.range nodes.length).zip nodes).foldl (fun acc x =>
    let ds := match s.nodeAt t x.2 with
      | some n => (s.nodeRun t n).getD []
      | none => []
    ((blockEntries lay (64 * x.1 / kvBlock lay)).zip ds).foldl (fun acc e =>
      acc.filter (fun a => ¬ (a.1 = e.1.1 ∧ a.2.1 = e.1.2)) ++ [(e.1.1, e.1.2, e.2)]) acc) []

/-- The leased frames a request's step reads: reference-count entry and frame, each once. -/
def leasedOf (ds : List (List Byte)) : List (Nat × Nat) :=
  ((ds.filter (fun d => pdLeased d && pdShared d)).map (fun d => (pdRc d, pdHome d))).eraseDups

/-- Leases fit: the partition's share of the log, every entry's count, no DEFERRED frame (R174). -/
def State.leasesFit (s : State) (p : Nat) (l : List Nat) : Bool :=
  decide ((s.part p).leases.length + l.length ≤ s.fldOf (R.PRT_LEASE p) F.PRT_LEASE.entries) &&
    l.all (fun i => decide (s.rcF i F.RC.leases + (l.filter (· = i)).length ≤ 65535) && s.rcF i F.RC.deferred = 0)

/-- Stage one descriptor into a slot's list; a frame of its own that lay there returns to the pool. -/
def stageDesc (p n : Nat) (e : Nat × Nat × List Byte) : Act Unit := do
  engNotes p (← rd (fun s => s.entryReads p n e.1 e.2.1))
  match ← rd (fun s => s.entryAt p n e.1 e.2.1) with
  | some old => if !pdShared old ∧ pdTier old = 1 then freeFrame p (pdFrame old)
  | none => skip
  let _ ← putEntry p n e.1 e.2.1 e.2.2
  modPart p (fun x => { x with stagedRefs := x.stagedRefs ++ [(n, pdRc e.2.2)] })

/-- The build's answer for one request. -/
inductive Pick where
  | skip
  | take (count : Nat)
deriving DecidableEq, Repr

/-- Positions a request may take, and the counter that counts a skip for budget (R196, R432). -/
def State.wantOf (s : State) (p n reused budget : Nat) : Pick :=
  let chunk := s.fldOf (R.REQ_STEP_LIMIT p) F.REQ_STEP_LIMIT.chunk_max
  if s.slotF n .state = stDecode ∧ s.slotF n .rebuilding = 0 then
    let want := 1 + s.drafts p n
    if want ≤ budget then .take want else .skip
  else
    let upto := if s.slotF n .rebuilding = 1 then s.slotF n .rebuildTo else s.slotF n .promptLen
    let want := min (upto - s.slotF n .committed - reused) chunk
    let want := if budget < want then budget / 64 * 64 else want
    if want = 0 ∨ budget < want then .skip else .take want

/-- A slot alone holds a shared frame: the one reference is its list's, and the leases are its own and the copy engine's. -/
def State.soleHolder (s : State) (p slot rc : Nat) : Bool :=
  !(s.part p).stagedRefs.any (fun r => r.1 = slot && r.2 = rc) && s.rcF rc F.RC.refs = 1 && s.rcF rc F.RC.owner = p &&
    ((s.part p).leases.filter (fun l => l.2.1 = rc)).length = s.rcF rc F.RC.leases &&
    (s.part p).leases.all (fun l => l.2.1 ≠ rc || l.1 = slot || l.1 = 2 ^ 14)

/-- Take a request into the batch: hits staged, frames placed, leases taken, copies begun, its entry appended. -/
def batchTake (p n reused want : Nat) (staged : List (Nat × Nat × List Byte)) (need : Need)
    (cows : List (Nat × Nat × List Byte)) (leases : List (Nat × Nat)) : Act Unit := do
  let s ← Act.get
  let start := s.slotF n .committed + reused
  for e in staged do stageDesc p n e
  for x in need.entries do
    match ← takeFrame p with
    | some f =>
      zeroFrame p f
      let _ ← putEntry p n x.1 x.2 (mkPd f 0x81 0 p)
    | none => skip
  for l in leases do leaseTake p n l.1 l.2
  for e in cows do
    leaseTake p (2 ^ 14) (pdRc e.2.2) (pdHome e.2.2)
    match ← takeFrame p, ← rd (fun t => t.entryPlace p n e.1 e.2.1) with
    | some f, some a =>
      let others ← rd (fun t => !t.soleHolder p n (pdRc e.2.2))
      modPart p (fun x => { x with cows := x.cows ++ [{ slot := n, space := a.1, addr := a.2, frame := f, others := others }] })
    | _, _ => skip
  let rebuild := decide (s.slotF n .rebuilding = 1)
  let fresh := decide (s.slotF n .state = stAdmitted)
  let decode := s.slotF n .state = stDecode && s.slotF n .rebuilding = 0
  modPart p (fun x => { x with batch := x.batch ++ [{
    slot := n, kind := if rebuild then 2 else if decode then 1 else 0, d := if decode then want - 1 else 0
    first := start, count := want, reused := reused, fresh := fresh }] })
  slotSet n .speculative (start + want)
  if fresh then slotSet n .state stPrefill
  if 0 < reused then count (C.REQ_CNT_PRX_REUSED p) reused

/-- One request of the build (R196); answers the budget left. A token ring out of service has no room (R182). -/
def buildOne (p n budget : Nat) : Act Nat := do
  let up ← ringUse (← rd (fun s => s.slotF n .tokenRing))
  let s ← Act.get
  if !up ∨ s.ringRoom (s.slotF n .tokenRing) < 16 then
    count (C.REQ_CNT_BATCH_SKIP_RING p) 1
    return budget
  let hit ← (if s.slotF n .state = stAdmitted then
      do
        engNotes p (s.admitReads p n)
        match s.admitMsg p n with
        | some m => lingLookup p m
        | none => return none
    else pure none)
  let s ← Act.get
  let reused := match hit with
    | some h => 64 * h.2.length
    | none => 0
  match s.wantOf p n reused budget with
  | .skip =>
    count (C.REQ_CNT_BATCH_SKIP_BUDGET p) 1
    return budget
  | .take want =>
    let lay := s.layout p
    let start := s.slotF n .committed + reused
    let staged := match hit with
      | some h => s.stageList p h.1 h.2
      | none => []
    let need := s.needOf p n start (start + want) ((reused + kvBlock lay - 1) / kvBlock lay)
    let frames := need.entries.length + s.blockFrames p need.blocks
    if (s.part p).pool.length < frames then
      count (C.REQ_CNT_NOFRAME p) 1
      return budget
    engNotes p (s.entriesReads p n (s.slotF n .committed))
    let own := (s.entriesOf p n (s.slotF n .committed) (fun _ => true)).filter (fun e =>
      !staged.any (fun a => a.1 = e.1 && a.2.1 = e.2.1))
    let last := if start % kvBlock lay = 0 then [] else blockEntries lay (start / kvBlock lay)
    let cows := (own ++ staged).filter (fun e => pdCow e.2.2 && last.contains (e.1, e.2.1))
    if (s.part p).pool.length < frames + cows.length then
      count C.REQ_CNT_COW_NOFRAME 1
      return budget
    let leases := leasedOf ((own ++ staged).map (fun e => e.2.2))
    if !s.leasesFit p (leases.map (·.1) ++ cows.map (fun e => pdRc e.2.2)) then
      count C.REQ_CNT_LEASE_DEFER 1
      return budget
    batchTake p n reused want staged need cows leases
    return budget - want

/-- The requests in order, until the batch is full. -/
def buildAll (p : Nat) : List Nat → Nat → Act Unit
  | [], _ => skip
  | n :: l, budget => do
    let s ← Act.get
    if s.fldOf (R.REQ_STEP_LIMIT p) F.REQ_STEP_LIMIT.max_requests ≤ (s.part p).batch.length then return
    let left ← buildOne p n budget
    buildAll p l left

/-- An entry of the batch table (R197). -/
def batchEntry (e : BatchE) : List Byte :=
  leBytes 2 e.slot ++ leBytes 1 e.kind ++ leBytes 1 e.d ++ leBytes 4 e.first ++ leBytes 4 e.count ++ leBytes 4 e.reused

/-- The batch table and its counts are written, and the phase is BUILT (R196, R197). -/
def buildDone (p : Nat) : Act Unit := do
  let s ← Act.get
  let b := (s.part p).batch
  engWrite p 0 (hubByte (s.fldOf (R.REQ_BATCH_BASE p) F.REQ_BATCH_BASE.addr))
    (b.flatMap batchEntry ++ leBytes 2 0xFFFF ++ List.replicate 14 0)
  wrF (R.REQ_STEP_STATUS p) F.REQ_STEP_STATUS.batch_entries b.length
  wrF (R.REQ_STEP_STATUS p) F.REQ_STEP_STATUS.batch_tokens ((b.map (·.count)).sum)
  modPart p (fun x => { x with builtTick := s.tick, rerun := false })
  setPhase p 2
  setIrq (pageBase .req (1 + p)) 33

/-- STEP_ARM (R196): refused with reason 0x04 unless the phase is IDLE and the partition is not being stopped (R384), and while
the request engine takes no new work (R14, DESIGN CHOICE 149). The frames of `give` join the partition's free pool first. -/
def stepArm (p : Nat) (give : List Nat) (v : Word) : Act (Option Nat) := do
  let s ← Act.get
  if s.phase p ≠ 0 ∨ s.fldOf (R.PRT_CTRL p) F.PRT_CTRL.stop = 1 ∨ !s.reqServes p then return some 4
  wrR (R.REQ_STEP_ARM p) (BitVec.ofNat 64 (bits v.toNat 47 0))
  for f in give do
    if !(← rd (fun t => (t.part p).pool.contains f)) then freeFrame p f
  modPart p (fun x => { x with batch := [], stagedRefs := [], cows := [], rerun := false })
  setPhase p 1
  tableSound p
  let t ← Act.get
  buildAll p (t.buildOrder p) (t.fldOf (R.REQ_STEP_LIMIT p) F.REQ_STEP_LIMIT.token_budget)
  buildDone p
  return none

/-! ## Copies (R175) -/

/-- Read bytes of a shared frame, in GDDR7 of its owner or in a tile. -/
def frameBytes (p : Nat) (e : List Byte) (off len : Nat) : Act (List Byte) := do
  if pdTier e = 0 then
    match ← rd (fun s => s.tileOf (pdFrame e / 64 % 1024)) with
    | some q => ldBytes (tileKey q (pdFrame e % 64 * 65536 + off)) len
    | none => return []
  else
    match ← gRead (hubSrc 0 3) (pdSpace p e) (pdFrame e * 65536 + off) len with
    | .ok bs => return bs
    | .error _ => return []

/-- Return one lease of a slot on an entry. -/
def leaseReturnOne (p slot rc : Nat) : Act Unit := do
  let x ← rd (fun s => s.part p)
  match x.leases.find? (fun l => l.1 = slot && l.2.1 = rc) with
  | none => skip
  | some l =>
    modPart p (fun y => { y with leases := y.leases.erase l })
    let n ← rd (fun s => s.rcF rc F.RC.leases)
    rcSet rc F.RC.leases (n - 1)
    rcRelease rc l.2.2

/-- COW_COPY_DONE (R175): the copy of the writer with the lowest slot ends. A writer whose frame has lost every other holder
since the build keeps its frame and appends in place. -/
def cowDone (p : Nat) : Act Unit := do
  let s ← Act.get
  match (s.part p).cows with
  | [] => skip
  | c0 :: cs =>
    let job := cs.foldl (fun a b => if b.slot < a.slot then b else a) c0
    modPart p (fun x => { x with cows := x.cows.erase job })
    engNote p job.space job.addr 16
    match s.engBytes p job.space job.addr 16 with
    | none => freeFrame p job.frame
    | some e =>
      let rc := pdRc e
      let staged := (s.part p).stagedRefs.any (fun r => r.1 = job.slot && r.2 = rc)
      let bitsOwn := clrBit (clrBit (clrBit (pdBits e) 2) 3) 6
      if job.others ∧ s.soleHolder p job.slot rc then
        freeFrame p job.frame
        modPart p (fun x => { x with leases := x.leases.filter (fun l => l.2.1 ≠ rc) })
        stW (rcKey rc) 0
        engWrite p job.space job.addr (mkPd (pdFrame e) bitsOwn 0 p)
      else
        let areas := if kvBlock (s.layout p) = 128 ∧ !pdCompressed e then [(0, 0x8000), (0xF800, 0x800)] else [(0, 65536)]
        zeroFrame p job.frame
        for a in areas do
          let bs ← frameBytes p e a.1 a.2
          engWrite p 1 (job.frame * 65536 + a.1) bs
        engWrite p job.space job.addr (mkPd job.frame (bitsOwn / 4 * 4 + 1) 0 p)
        leaseReturnOne p job.slot rc
        leaseReturnOne p (2 ^ 14) rc
        if staged then modPart p (fun x => { x with stagedRefs := x.stagedRefs.erase (job.slot, rc) })
        else rcDrop rc (pdHome e)
        count C.REQ_CNT_COW 1
    let t ← Act.get
    if (t.part p).cows = [] then modPart p (fun x => { x with builtTick := t.tick })

/-! ## The start (R68, R69) -/

/-- The tiles of a partition, by page. -/
def State.tilesOf (s : State) (p : Nat) : List Nat :=
  (List.range 624).filter (fun q => s.tilePart q = p)

/-- A built step is due: its copies are done, an edge has passed since its build or its rollback, and its start tick has
come (R69, R175, R196). -/
def State.stepDue (s : State) (p : Nat) : Bool :=
  s.phase p = 2 && (s.part p).cows.isEmpty && decide ((s.part p).builtTick < s.tick) &&
    ((s.part p).rerun || decide (s.fldOf (R.REQ_STEP_ARM p) F.REQ_STEP_ARM.start_tick ≤ s.tick))

/-- STEP_START (R68, R69, R93, R171, R196): the phase becomes RUNNING and the step's number rises, a re-run keeps it; the
tiles sample their configurations and take the step-start barrier's release. -/
def stepStart (p : Nat) : Act Unit := do
  let s ← Act.get
  if !s.stepDue p then return
  let again := (s.part p).rerun
  setPhase p 3
  if !again then
    wrF (R.TIM_STEP p) F.TIM_STEP.step (s.fldOf (R.TIM_STEP p) F.TIM_STEP.step + 1)
    stW (baseSlotKey p) (s.fldOf R.BIN_BASE_ACTIVE F.BIN_BASE_ACTIVE.slot + 1)
    if s.fldOf (R.REQ_STEP_ARM p) F.REQ_STEP_ARM.start_tick < s.tick then count (C.REQ_CNT_LATE_START p) 1
  wrF (R.TIM_STEP p) F.TIM_STEP.running 1
  wrF (R.REQ_STEP_START p) F.REQ_STEP_START.tick s.tick
  stW baseWaitKey (clrBit (s.wordAt baseWaitKey).toNat p)
  for q in s.tilesOf p do
    sampleStreams q again
    barrierRelease q

end Sys2Proof.Machine
end

