-- ==== Sys2Proof/Machine/Routing.lean ====
section
/-! DEFINITION. Expert routing (R214 to R236): place requests, their output blocks, the load tables and the bias loop.
Where the spec is open: DEDUCED 71 and 183, DESIGN CHOICE 24 of the assumption log. -/

namespace Sys2Proof.Machine

/-- The page of context `c`, and the partition it is granted to (R214). -/
def ctxPage (c : Nat) : Nat := pageBase .xrt (4 + c)
def State.ctxPart (s : State) (c : Nat) : Option Nat := s.pagePart (ctxPage c)

/-- The contexts a partition holds. -/
def State.ctxsOf (s : State) (p : Nat) : List Nat := (List.range 12).filter (fun c => s.ctxPart c = some p)

/-! ## The layer table (R218, R219) -/

/-- A layer table entry. -/
structure Layer where
  experts : Nat
  kmax : Nat
  renorm : Bool
  nodrop : Bool
  normalise : Bool
  cap : Nat
  scale : FV
  replicas : Nat
  biases : Nat
  loads : Nat
  selIdx : Nat
  selVal : Nat
  selCnt : Nat
  biasDst : Nat
  outBase : Nat
  outSize : Nat
  ok : Bool
deriving DecidableEq, Repr

/-- Read an entry's 64 bytes; hub addresses in bytes, tile offsets in bytes. -/
def mkLayer (b : List Byte) : Layer :=
  let f := numAt b 3 1
  let experts := numAt b 0 2
  let kmax := numAt b 2 1
  let hub (o : Nat) : Nat := numAt b o 4 % 2 ^ 20 * 64
  let off (o : Nat) : Nat := numAt b o 4 % 2 ^ 18 * 16
  { experts := experts, kmax := kmax, renorm := bit f 3, nodrop := bit f 2, normalise := bit f 1, cap := numAt b 4 2
    scale := fp32Val (numAt b 8 4), replicas := hub 12, biases := hub 16, loads := hub 20, selIdx := off 24, selVal := off 28
    selCnt := off 32, biasDst := off 36, outBase := off 40, outSize := numAt b 44 4
    ok := bit f 0 && f / 16 = 0 && decide (1 ≤ experts ∧ experts ≤ 1024 ∧ 1 ≤ kmax ∧ kmax ≤ 16) && decide (1 ≤ numAt b 4 2) &&
      numAt b 6 2 = 0 && [12, 16, 20].all (fun o => numAt b o 4 < 2 ^ 20) &&
      [24, 28, 32, 36, 40].all (fun o => numAt b o 4 < 2 ^ 18) && (b.drop 48).all (fun x => x = 0) }

def State.layerCount (s : State) (c : Nat) : Nat := s.fldOf (R.XRT_CTX_LAYER_BASE c) F.XRT_CTX_LAYER_BASE.layers

/-- Entry `l` of a context's layer table; none past the table or where it cannot be read. -/
def State.layerAt (s : State) (c p l : Nat) : Option Layer :=
  if s.layerCount c ≤ l then none
  else (s.engBytes p 0 (hubByte (s.fldOf (R.XRT_CTX_LAYER_BASE c) F.XRT_CTX_LAYER_BASE.addr) + 64 * l) 64).map mkLayer

/-- An expert's replica count, and whether replica `k` is absent: no valid word is one absent replica. -/
def State.replicaOf (s : State) (p : Nat) (L : Layer) (e : Nat) : Nat × (Nat → Bool) :=
  let ws := match s.engBytes p 0 (L.replicas + 64 * e) 64 with
    | some b => (List.range 8).map (fun i => numAt b (8 * i) 8)
    | none => []
  let vs := ws.takeWhile (fun w => bit w 63)
  if vs = [] then (1, fun _ => true) else (vs.length, fun k => bit (vs.getD k 0) 62)

/-! ## Router tiles -/

def State.routerFirst (s : State) (c : Nat) : Nat := s.fldOf (R.XRT_CTX_ROUTERS c) F.XRT_CTX_ROUTERS.first
def State.routerRows (s : State) (c : Nat) : Nat := s.fldOf (R.XRT_CTX_ROUTERS c) F.XRT_CTX_ROUTERS.rows_per_tile
def State.routerCount (s : State) (c : Nat) : Nat := s.fldOf (R.XRT_CTX_ROUTERS c) F.XRT_CTX_ROUTERS.count

/-- Bytes of a router tile, none where it is not the partition's. -/
def State.routerBytes (s : State) (c p i off len : Nat) : Option (List Byte) :=
  match s.tilePlace p ((s.routerFirst c + i) * 2 ^ 22 + off) len with
  | .ok (page, o) => some (s.memBytes (tileKey page o) len)
  | .error _ => none

/-- Write bytes into every router tile. -/
def routerWrite (h c p off : Nat) (bs : List Byte) : Act Unit := do
  let s ← Act.get
  for i in List.range (s.routerCount c) do
    let _ ← spWrite (hubSrc h 2) p 2 ((s.routerFirst c + i) * 2 ^ 22 + off) bs

/-- The selection of row `t` (R217): indices in rank order with the codes of their scores; none where a condition breaks. -/
def State.selection (s : State) (c p : Nat) (L : Layer) (t : Nat) : Option (List (Nat × Nat)) :=
  let i := t / s.routerRows c
  let r := t % s.routerRows c
  match s.routerBytes c p i (L.selCnt + 4 * r) 4, s.routerBytes c p i (L.selIdx + 4 * L.kmax * r) (4 * L.kmax),
      s.routerBytes c p i (L.selVal + 4 * L.kmax * r) (4 * L.kmax) with
  | some n, some ix, some xs =>
    let n := leNat n
    let es := (List.range n).map (fun j => (numAt ix (4 * j) 4, numAt xs (4 * j) 4))
    if 1 ≤ n ∧ n ≤ L.kmax ∧ es.all (fun e => decide (e.1 < L.experts)) ∧ (es.map (·.1)).eraseDups.length = n then some es
    else none
  | _, _, _ => none

/-! ## Placement (R223) -/

/-- A kept choice: row, expert, replica, sweep, parked, the code of its weight. -/
structure Kept where
  t : Nat
  e : Nat
  k : Nat
  sweep : Nat
  parked : Bool
  w : Nat
deriving DecidableEq, Repr

/-- What placement has done so far. -/
structure Placing where
  fill : List ((Nat × Nat) × Nat) := []
  kept : List Kept := []
  chosen : List Nat := []
  placed : Nat := 0
  swept : Nat := 0
  dropCap : Nat := 0
  dropTail : Nat := 0
  pass : Nat := 0
  weightBad : Nat := 0
  bad : Bool := false
deriving DecidableEq, Repr

/-- Insert by expert number. -/
def insertExpert (a : Kept) : List Kept → List Kept
  | [] => [a]
  | b :: l => if a.e ≤ b.e then a :: b :: l else b :: insertExpert a l

/-- Place the choices of one row in rank order: the placing, the kept choices, whether a choice was cut. -/
def placeRow (s : State) (p : Nat) (L : Layer) (base t : Nat) : List (Nat × Nat) → Placing → List Kept → Bool → Placing × List Kept
  | [], a, ks, _ => (a, ks)
  | (e, _) :: l, a, ks, cut =>
    let (n, absent) := s.replicaOf p L e
    let k := (base + t) % n
    let a := { a with chosen := e :: a.chosen }
    if cut then placeRow s p L base t l { a with dropTail := a.dropTail + 1 } ks true
    else
      let f := (a.fill.lookup (e, k)).getD 0
      if f < L.cap then
        placeRow s p L base t l
          { a with fill := ((e, k), f + 1) :: a.fill.filter (fun x => x.1 ≠ (e, k)), placed := a.placed + 1 }
          (insertExpert { t := t, e := e, k := k, sweep := 1, parked := absent k, w := 0 } ks) false
      else if L.nodrop then
        placeRow s p L base t l { a with swept := a.swept + 1 }
          (insertExpert { t := t, e := e, k := k, sweep := 2, parked := absent k, w := 0 } ks) false
      else placeRow s p L base t l { a with dropCap := a.dropCap + 1 } ks true

/-- The weights of a row's set (R224), given in ascending expert order with finite scores: the weight of each expert; none
where the sum is unusable. -/
def rowWeights (L : Layer) (set : List (Nat × FV)) : Option (List (Nat × FV)) :=
  match set with
  | [] => some []
  | x0 :: rest =>
    if L.normalise then
      let sum := set.foldl (fun a x => fp32 (FV.add a x.2)) .zero
      if sum.isFin ∧ FV.lt .zero sum then
        some (set.map (fun x => (x.1, fp32 (FV.mul (fp32 (FV.div x.2 sum)) L.scale))))
      else none
    else
      let m := rest.foldl (fun m x => if m.lt x.2 then x.2 else m) x0.2
      let ps := set.map (fun x => (x.1, exp2Strict (fp32 (FV.mul (fp32 (FV.sub x.2 m)) log2e))))
      let sum := ps.foldl (fun a x => fp32 (FV.add a x.2)) .zero
      some (ps.map (fun x => (x.1, fp32 (FV.mul (fp32 (FV.div x.2 sum)) L.scale))))

/-- Insert by number. -/
def insertKey (a : Nat × FV) : List (Nat × FV) → List (Nat × FV)
  | [] => [a]
  | b :: l => if a.1 ≤ b.1 then a :: b :: l else b :: insertKey a l

/-- Place and weight one row. -/
def placeOne (s : State) (c p : Nat) (L : Layer) (base : Nat) (a : Placing) (t : Nat) : Placing :=
  if a.bad then a
  else match s.selection c p L t with
  | none => { a with bad := true }
  | some sel =>
    let (a, ks) := placeRow s p L base t sel a [] false
    let members := if L.renorm then sel.filter (fun x => ks.any (fun k => k.e = x.1)) else sel
    let good := members.filter (fun x => (fp32Val x.2).isFin)
    let set := good.foldl (fun l x => insertKey (x.1, fp32Val x.2) l) []
    let (ws, unusable) := match rowWeights L set with
      | some w => (w, 0)
      | none => ([], 1)
    { a with
      kept := a.kept ++ ks.map (fun k => { k with w := match ws.lookup k.e with
        | some v => fp32Code v
        | none => 0 })
      pass := a.pass + (if ks = [] then 1 else 0)
      weightBad := a.weightBad + (members.length - good.length) + unusable }

/-! ## The output block (R225) -/

/-- A directory entry's key. -/
def Kept.key (k : Kept) : Nat := k.e * 2 ^ 20 + k.k * 2 + (k.sweep - 1)

/-- Insert a number once into an ascending list. -/
def insertOnce (a : Nat) : List Nat → List Nat
  | [] => [a]
  | b :: l => if a < b then a :: b :: l else if a = b then b :: l else b :: insertOnce a l

/-- The header of a place request. -/
def placeHeader (kept swept dropped pass parked dirs status layer : Nat) : List Byte :=
  leBytes 4 kept ++ leBytes 4 swept ++ leBytes 4 dropped ++ leBytes 4 pass ++ leBytes 4 parked ++ leBytes 4 dirs ++
    leBytes 1 status ++ [0, 0, 0] ++ leBytes 2 layer ++ List.replicate 34 0

/-- The pieces of the output block: offset and bytes, the header last. -/
def placeOutput (L : Layer) (T layer : Nat) (a : Placing) : List (Nat × List Byte) :=
  let ks := (List.range a.kept.length).zip a.kept
  let there := ks.filter (fun k => !k.2.parked)
  let keys := there.foldl (fun l k => insertOnce k.2.key l) []
  let groups := keys.map (fun x => there.filter (fun k => k.2.key = x))
  let offs := (groups.foldl (fun (acc : List Nat × Nat) g => (acc.1 ++ [acc.2], acc.2 + g.length)) ([], 0)).1
  let disp := groups.flatten
  let dir := (groups.zip offs).flatMap (fun g => match g.1 with
    | [] => []
    | k :: _ => leBytes 2 k.2.e ++ leBytes 1 k.2.k ++ leBytes 1 k.2.sweep ++ leBytes 4 g.1.length ++ leBytes 4 g.2 ++ [0, 0, 0, 0])
  let park := (a.kept.filter (·.parked)).foldl (fun l k => insertOnce k.t l) []
  let tk := 4 * T * L.kmax
  [(64, a.kept.flatMap (fun k => leBytes 4 (if k.parked then 0xFFFFFFFF else k.t))),
   (64 + tk, a.kept.flatMap (fun k => leBytes 4 k.w)),
   (64 + 2 * tk, disp.flatMap (fun k => leBytes 4 k.2.t)),
   (64 + 3 * tk, disp.flatMap (fun k => leBytes 4 k.1)),
   (64 + 4 * tk, dir),
   (64 + 4 * tk + 256 * L.experts, park.flatMap (leBytes 4)),
   (0, placeHeader a.kept.length a.swept (a.dropCap + a.dropTail) a.pass park.length groups.length 0 layer)]

/-- Add to a load table word's pending half, saturating (R230). -/
def loadPending (h p addr n : Nat) : Act Unit := do
  match ← rd (fun s => s.engBytes p 0 addr 8) with
  | none => skip
  | some b =>
    let _ ← spWrite (hubSrc h 2) p 0 (addr + 4) (leBytes 4 (min (2 ^ 32 - 1) (numAt b 4 4 + n)))

/-- A place request ends with a status that is not OK (R225): only the header is written. -/
def placeBad (h c p layer status : Nat) (L : Option Layer) : Act Unit := do
  match L with
  | some l => routerWrite h c p l.outBase (placeHeader 0 0 0 0 0 0 status layer)
  | none => skip
  count (C.XRT_CNT_PLACE_ERR c) 1
  wrF (R.XRT_CTX_STATUS c) F.XRT_CTX_STATUS.status status
  wrF (R.XRT_CTX_STATUS c) F.XRT_CTX_STATUS.layer layer
  setIrq (ctxPage c) 32

/-- The work of one place request (R223 to R225, R227). -/
def placeWork (h c p : Nat) (q : List Byte) : Act Unit := do
  let s ← Act.get
  let layer := numAt q 0 2
  let T := numAt q 4 4
  match s.layerAt c p layer with
  | none => placeBad h c p layer 3 none
  | some L =>
    if !L.ok ∨ T = 0 ∨ s.routerRows c * s.routerCount c < T then placeBad h c p layer 3 (some L)
    else if L.outSize * 16 < 64 + 16 * T * L.kmax + 256 * L.experts + 4 * T then placeBad h c p layer 1 (some L)
    else
      let a := (List.range T).foldl (placeOne s c p L (numAt q 8 4)) {}
      for e in a.chosen.eraseDups do loadPending h p (L.loads + 8 * e) (a.chosen.filter (· = e)).length
      count (C.XRT_CNT_CHOICES c) a.chosen.length
      count (C.XRT_ENG_CNT_CHOICES h) a.chosen.length
      count (C.XRT_CNT_PLACED c) a.placed
      count (C.XRT_CNT_SWEPT c) a.swept
      count (C.XRT_CNT_DROP_CAP c) a.dropCap
      count (C.XRT_CNT_DROP_TAIL c) a.dropTail
      count (C.XRT_CNT_PASS c) a.pass
      count (C.XRT_CNT_WEIGHT_BAD c) a.weightBad
      if a.bad then placeBad h c p layer 2 (some L)
      else
        let parked := a.kept.filter (·.parked)
        count (C.XRT_CNT_PARK_CHOICES c) parked.length
        count (C.XRT_CNT_PARK_TOKENS c) ((parked.map (·.t)).eraseDups).length
        for w in placeOutput L T layer a do routerWrite h c p (L.outBase + w.1) w.2

/-! ## The queue (R221, R222) -/

def State.placeTail (s : State) (c : Nat) : Nat := s.fldOf (R.XRT_CTX_PLACE_TAIL c) F.XRT_CTX_PLACE_TAIL.tail
def State.placeStarted (s : State) (c : Nat) : Nat := s.fldOf (R.XRT_CTX_PLACE_HEAD c) F.XRT_CTX_PLACE_HEAD.started
def State.placeDone (s : State) (c : Nat) : Nat := s.fldOf (R.XRT_CTX_PLACE_HEAD c) F.XRT_CTX_PLACE_HEAD.done
def State.placeSize (s : State) (c : Nat) : Nat := s.fldOf (R.XRT_CTX_PLACEQ c) F.XRT_CTX_PLACEQ.size

/-- PLACE_TAIL_WRITE (R221): refused when it moves backwards or leaves more requests unfinished than the queue holds. -/
def placeTailWrite (c : Nat) (v : Word) : Act (Option Nat) := do
  let s ← Act.get
  let t := bits v.toNat 31 0
  if backwards32 (s.placeTail c) t ∨ s.placeSize c < moves32 (s.placeDone c) t then
    count (C.XRT_CNT_QUEUE_REFUSED c) 1
    return some 4
  wrF (R.XRT_CTX_PLACE_TAIL c) F.XRT_CTX_PLACE_TAIL.tail t
  return none

/-- The head request of a context with its partition, if there is one a step of the partition may have served (R220). -/
def State.placeHead (s : State) (c : Nat) : Option (Nat × List Byte) :=
  match s.ctxPart c with
  | none => none
  | some p =>
    if s.pageServes (ctxPage c) ∧ s.placeSize c ≠ 0 ∧ s.placeStarted c ≠ s.placeTail c ∧ (s.phase p = 2 ∨ s.phase p = 3) then
      (s.engBytes p 0 (hubByte (s.fldOf (R.XRT_CTX_PLACEQ c) F.XRT_CTX_PLACEQ.base) +
        32 * (s.placeStarted c % s.placeSize c)) 32).map (fun q => (p, q))
    else none

/-- The wait word of a request has reached its value. -/
def State.placeReady (s : State) (p : Nat) (q : List Byte) : Bool :=
  let t := numAt q 12 4
  match s.tilePlace p (bits t 31 22 * 2 ^ 22 + bits t 18 0 * 8) 8 with
  | .ok (page, off) => decide (numAt q 16 8 ≤ s.memNum (tileKey page off) 8)
  | .error _ => false

/-- The signal of the request in service at an engine: target and value. -/
def placeSigKey (h i : Nat) : Nat := tabKey 17 (2 * h + i)
/-- The fabric time, plus 1, of the last tick edge that found a context's update due and no commit since; 0 for none. -/
def biasEdgeKey (c : Nat) : Nat := tabKey 18 c
/-- 1 while a context's new biases wait for the acknowledgement of their writes. -/
def biasReadyKey (c : Nat) : Nat := tabKey 19 c

/-- The head request of a context waits on its wait word (R222); XRT_CTX_STATUS.waiting reads so (R236). -/
def State.ctxWaiting (s : State) (c : Nat) : Bool :=
  match s.placeHead c with
  | some x => !s.placeReady x.1 x.2
  | none => false

/-- `n` microseconds pass for the engines that serve a request and the head requests that wait: 2,400 control-core clocks each
(R222, R235). -/
def placeWaits (n : Nat) : Act Unit := do
  for h in List.range 4 do
    if (← rdF (R.XRT_ENG_STATUS h) F.XRT_ENG_STATUS.busy) = 1 then count (C.XRT_ENG_CNT_BUSY h) (2400 * n)
  for c in List.range 12 do
    if ← rd (fun s => s.ctxWaiting c) then count (C.XRT_CNT_READY_WAIT c) (2400 * n)

/-- PLACE_REQUEST (R222): the engine of hub `h` starts the head request of its lowest context whose wait word has reached
its value, and places it. -/
def placeRequest (h : Nat) : Act Unit := do
  let s ← Act.get
  if s.fldOf (R.XRT_ENG_STATUS h) F.XRT_ENG_STATUS.busy = 1 ∨ !s.pageServes (pageBase .xrt h) then return
  let heads := (List.range 3).filterMap (fun i => (s.placeHead (3 * h + i)).map (fun x => (3 * h + i, x.1, x.2)))
  match heads.find? (fun x => s.placeReady x.2.1 x.2.2) with
  | none => skip
  | some (c, p, q) =>
    addF (R.XRT_CTX_PLACE_HEAD c) F.XRT_CTX_PLACE_HEAD.started 1
    wrF (R.XRT_ENG_STATUS h) F.XRT_ENG_STATUS.busy 1
    wrF (R.XRT_ENG_STATUS h) F.XRT_ENG_STATUS.context c
    stW (placeSigKey h 0) (numAt q 24 4)
    stW (placeSigKey h 1) (numAt q 28 4)
    placeWork h c p q

/-- PLACE_SIGNAL (R222): every write of the request in service is acknowledged and its signal word is written. -/
def placeSignal (h : Nat) : Act Unit := do
  let s ← Act.get
  if s.fldOf (R.XRT_ENG_STATUS h) F.XRT_ENG_STATUS.busy = 0 then return
  let c := s.fldOf (R.XRT_ENG_STATUS h) F.XRT_ENG_STATUS.context
  match s.ctxPart c with
  | some p => signalTile (hubSrc h 2) p (s.wordAt (placeSigKey h 0)).toNat (s.wordAt (placeSigKey h 1)).toNat
  | none => skip
  wrF (R.XRT_ENG_STATUS h) F.XRT_ENG_STATUS.busy 0
  addF (R.XRT_CTX_PLACE_HEAD c) F.XRT_CTX_PLACE_HEAD.done 1
  count (C.XRT_CNT_PLACE_REQ c) 1
  count (C.XRT_ENG_CNT_REQ h) 1

/-! ## The bias loop (R229 to R233) -/

/-- The valid layers of a context. -/
def State.layersOf (s : State) (c p : Nat) : List (Nat × Layer) :=
  (List.range (s.layerCount c)).filterMap (fun l => match s.layerAt c p l with
    | some L => if L.ok then some (l, L) else none
    | none => none)

/-- The load table word of an expert: load and pending. -/
def State.loadWord (s : State) (p : Nat) (L : Layer) (e : Nat) : Nat × Nat :=
  match s.engBytes p 0 (L.loads + 8 * e) 8 with
  | some b => (numAt b 0 4, numAt b 4 4)
  | none => (0, 0)

/-- Write a load table word. -/
def putLoad (c p : Nat) (L : Layer) (e load pending : Nat) : Act Unit := do
  let _ ← spWrite (hubSrc (c / 3) 2) p 0 (L.loads + 8 * e) (leBytes 4 load ++ leBytes 4 pending)

/-- A commit (R230): pending goes into load, and steps_since rises. -/
def routeCommit (p : Nat) : Act Unit := do
  let s ← Act.get
  for c in s.ctxsOf p do
    for x in s.layersOf c p do
      for e in List.range x.2.experts do
        let w := s.loadWord p x.2 e
        if w.2 ≠ 0 then putLoad c p x.2 e (min (2 ^ 32 - 1) (w.1 + w.2)) 0
    wrF (R.XRT_BIAS_STATE c) F.XRT_BIAS_STATE.steps_since (min 255 (s.fldOf (R.XRT_BIAS_STATE c) F.XRT_BIAS_STATE.steps_since + 1))
    stW (biasEdgeKey c) 0

/-- The bytes of a context's state in the snapshot (R233). -/
def State.biasImage (s : State) (c p : Nat) : List Byte :=
  let st := s.reg (R.XRT_BIAS_STATE c)
  leBytes 4 (getFld st F.XRT_BIAS_STATE.seq) ++ leBytes 1 (getFld st F.XRT_BIAS_STATE.steps_since) ++ [0] ++
    leBytes 2 (s.layerCount c) ++ List.replicate 8 0 ++
    (s.layersOf c p).flatMap (fun x => (List.range x.2.experts).flatMap (fun e =>
      bytesAt ((s.engBytes p 0 (x.2.biases + 4 * e) 4).getD []) 0 4 ++ leBytes 4 (s.loadWord p x.2 e).1))

/-- Each enabled context writes its state into the step snapshot (R233). -/
def routeSnapshot (p space addr len : Nat) : Act Unit := do
  for c in ← rd (fun s => s.ctxsOf p) do
    let s ← Act.get
    if s.fldOf (R.XRT_CTX_SNAP c) F.XRT_CTX_SNAP.enable = 1 then
      let img := s.biasImage c p
      let off := s.fldOf (R.XRT_CTX_SNAP c) F.XRT_CTX_SNAP.snap_offset * 64
      let _ ← spWrite (hubSrc (c / 3) 2) p space (addr + off) (img.take (len - off))
      if len < off + img.length then
        setPageFault (ctxPage c)
        count (C.XRT_CNT_SNAP_CUT c) 1

/-- A rollback (R230): every pending count is cleared, and unstarted place requests are discarded. -/
def routeRollback (p : Nat) : Act Unit := do
  let s ← Act.get
  for c in s.ctxsOf p do
    for x in s.layersOf c p do
      for e in List.range x.2.experts do
        let w := s.loadWord p x.2 e
        if w.2 ≠ 0 then putLoad c p x.2 e w.1 0
    let n := moves32 (s.placeStarted c) (s.placeTail c)
    wrF (R.XRT_CTX_PLACE_HEAD c) F.XRT_CTX_PLACE_HEAD.done (s.placeDone c + n)
    wrF (R.XRT_CTX_PLACE_HEAD c) F.XRT_CTX_PLACE_HEAD.started (s.placeTail c)

/-- A bias after an update, and whether it met the limit (R231). -/
def newBias (eta limit b : FV) (loadE s : Nat) : FV × Bool :=
  let b := if loadE < s then fp32 (FV.add b eta) else if s < loadE then fp32 (FV.sub b eta) else b
  if FV.gt b.abs limit then (FV.withSign b.sign limit, true) else (b, false)

/-- One layer's update (R231), and its biases written to every router tile (R232). -/
def biasLayer (c p : Nat) (L : Layer) : Act Unit := do
  let s ← Act.get
  let eta := fp32Val (s.fldOf (R.XRT_BIAS_CTRL c) F.XRT_BIAS_CTRL.eta)
  let limit := fp32Val (s.fldOf (R.XRT_BIAS_LIMIT c) F.XRT_BIAS_LIMIT.limit)
  let es := List.range L.experts
  let loads := es.map (fun e => (s.loadWord p L e).1)
  let sum := loads.sum
  let bs := es.map (fun e => newBias eta limit (fp32Val (leNat ((s.engBytes p 0 (L.biases + 4 * e) 4).getD [])))
    (loads.getD e 0 * L.experts) sum)
  let img := bs.flatMap (fun b => leBytes 4 (fp32Code b.1))
  let _ ← spWrite (hubSrc (c / 3) 2) p 0 L.biases img
  for e in es do putLoad c p L e 0 (s.loadWord p L e).2
  count (C.XRT_CNT_BIAS_CLAMP c) (bs.filter (·.2)).length
  routerWrite (c / 3) c p L.biasDst img

/-- steps_since of a context has reached M (R231). -/
def State.biasFull (s : State) (c : Nat) : Bool :=
  let m := s.fldOf (R.XRT_BIAS_CTRL c) F.XRT_BIAS_CTRL.m
  m ≠ 0 && decide (m ≤ s.fldOf (R.XRT_BIAS_STATE c) F.XRT_BIAS_STATE.steps_since)

/-- A tick edge that finds steps_since at M makes the update due (R231). -/
def biasEdge (c : Nat) : Act Unit := do
  let s ← Act.get
  stW (biasEdgeKey c) (if s.biasFull c then s.now + 1 else 0)

/-- The update is due: ticks run, and the edge that found steps_since at M is now (R231). -/
def State.biasDue (s : State) (c : Nat) : Bool :=
  s.run && s.biasFull c && s.wordAt (biasEdgeKey c) ≠ 0 && s.wordAt (biasEdgeKey c) = BitVec.ofNat 64 (s.now + 1)

/-- BIAS_UPDATE (R231, R232): at the first tick edge with steps_since at least M, every layer of the context is updated and
its biases go to the router tiles. -/
def biasUpdate (c : Nat) : Act Unit := do
  let s ← Act.get
  match s.ctxPart c with
  | none => skip
  | some p =>
    if !s.biasDue c then return
    stW (biasEdgeKey c) 0
    for x in s.layersOf c p do biasLayer c p x.2
    wrF (R.XRT_BIAS_STATE c) F.XRT_BIAS_STATE.steps_since 0
    addF (R.XRT_BIAS_STATE c) F.XRT_BIAS_STATE.seq 1
    stW (biasReadyKey c) 1
    count (C.XRT_CNT_BIAS_UPDATES c) 1
    setIrq (ctxPage c) 33

/-- BIAS_READY_WRITE (R232): the writes of the new biases are acknowledged, and seq goes to the ready word of every router
tile. -/
def biasReady (c : Nat) : Act Unit := do
  let s ← Act.get
  match s.ctxPart c with
  | none => skip
  | some p =>
    if (s.wordAt (biasReadyKey c)).toNat = 0 then return
    stW (biasReadyKey c) 0
    routerWrite (c / 3) c p (s.fldOf (R.XRT_BIAS_READY c) F.XRT_BIAS_READY.offset * 8)
      (leBytes 8 (s.fldOf (R.XRT_BIAS_STATE c) F.XRT_BIAS_STATE.seq))

/-! ## Register writes with rules of their own (R220, R229, R236) -/

/-- A write of a context register is refused with reason 0x04. -/
def State.ctxWriteBad (s : State) (c off : Nat) (v : Word) : Bool :=
  let idle := match s.ctxPart c with
    | some p => s.phase p = 0
    | none => true
  let posFin (code : Nat) : Bool := (fp32Val code).isFin && FV.lt .zero (fp32Val code)
  match off with
  | 0x100 => !idle || decide (2 ^ 26 < bits v.toNat 19 0 * 64 + bits v.toNat 40 32 * 64)
  | 0x108 => !idle
  | 0x110 => s.placeDone c ≠ s.placeTail c || decide (2 ^ 26 < bits v.toNat 19 0 * 64 + bits v.toNat 38 32 * 32)
  | 0x140 => bits v.toNat 63 32 ≠ 0 && !posFin (bits v.toNat 63 32)
  | 0x148 => !posFin (bits v.toNat 31 0)
  | 0x158 => !idle
  | _ => false

end Sys2Proof.Machine
end

