-- ==== Sys2Proof/Machine/Commit.lean ====
section
/-! DEFINITION. The commit of a step (R198 to R200, R203, R254, R177), its waits (R195, R200), the stop commit (R384) and
the other ends of a step: rollback (R201, R428) and abandonment (R431). Where the spec is open: DEDUCED 50, 60, 61, 62,
63, 65 and 66, DESIGN CHOICE 24, 64, 70 and 150 of the assumption log. -/

namespace Sys2Proof.Machine

/-! ## The commit table (R198) -/

/-- An entry of the commit table. -/
def ceAt (t : List Byte) (i : Nat) : List Byte := bytesAt t (16 + 80 * i) 80
def ceSlot (e : List Byte) : Nat := numAt e 0 2
def ceEnd (e : List Byte) : Bool := bit (numAt e 2 1) 0
def cePark (e : List Byte) : Bool := bit (numAt e 2 1) 1
def ceFail (e : List Byte) : Bool := bit (numAt e 2 1) 2
def ceTok (e : List Byte) : Nat := numAt e 3 1
def ceA (e : List Byte) : Nat := numAt e 4 1
def ceReason (e : List Byte) : Nat := numAt e 5 1
def ceFirst (e : List Byte) : Nat := numAt e 8 4
def ceCount (e : List Byte) : Nat := numAt e 12 4
def ceTokens (e : List Byte) : List Nat := (List.range (min 16 (ceTok e))).map (fun i => numAt e (16 + 4 * i) 4)
def ctCount (t : List Byte) : Nat := numAt t 0 4
def ctSnap (t : List Byte) : Nat := numAt t 4 8
def ctSnapLen (t : List Byte) : Nat := numAt t 12 4

/-- What an entry breaks (R198, R432): error 0x01, 0x02 or 0x03; a park reason other than 1 or 2 is reported as 0x01, a
token word past ntok that is not 0 as 0x03 (DESIGN CHOICE 150). -/
def State.entryError (s : State) (b : BatchE) (e : List Byte) : Option Nat :=
  let done := s.slotF b.slot .promptLen ≤ s.slotF b.slot .committed + b.reused + b.count
  if ceSlot e ≠ b.slot ∨ ceFirst e ≠ b.first ∨ ceCount e ≠ b.count then some 1
  else if cePark e && !(ceReason e = 1 || ceReason e = 2) then some 1
  else if b.d < ceA e then some 2
  else if 16 < ceTok e ∨ (e.drop (16 + 4 * ceTok e)).any (· ≠ 0) then some 3
  else if b.kind = 2 then (if ceTok e = 0 then none else some 3)
  else if b.kind = 1 then (if ceTok e = ceA e + 1 then none else some 3)
  else if ceTok e = b2n done then none else some 3

/-- The move list (R254): its entries as descriptor space, address, frame, compressed; none where it cannot be read. -/
def State.moveList (s : State) (p : Nat) : Option (List (Nat × Nat × Nat × Bool)) :=
  if s.fldOf (R.REQ_MOVE_BASE p) F.REQ_MOVE_BASE.valid = 0 then some []
  else
    let a := hubByte (s.fldOf (R.REQ_MOVE_BASE p) F.REQ_MOVE_BASE.addr)
    match s.engBytes p 0 a 8 with
    | none => none
    | some h =>
      let n := numAt h 0 4
      if 65536 < n then none
      else (s.engBytes p 0 (a + 8) (16 * n)).map (fun b => (List.range n).map (fun i =>
        let e := bytesAt b (16 * i) 16
        (refSpace (numAt e 0 8), refAddr (numAt e 0 8), numAt e 8 4, bit (numAt e 12 1) 0)))

/-- A move list entry names a descriptor of the partition at tier 0 that checks. -/
def State.moveOk (s : State) (p : Nat) (m : Nat × Nat × Nat × Bool) : Bool :=
  match s.engBytes p m.1 m.2.1 16 with
  | some e => pdCheck e && pdTier e = 0 && pdOwner e = p
  | none => false

/-- The commit table as the run-time wrote it, or the error that refuses it. -/
def State.readTable (s : State) (p : Nat) : Except Nat (List Byte) :=
  let b := (s.part p).batch
  let a := hubByte (s.fldOf (R.REQ_COMMIT_BASE p) F.REQ_COMMIT_BASE.addr)
  match s.engBytes p 0 a (16 + 80 * b.length) with
  | none => .error 1
  | some t =>
    if ctCount t ≠ b.length then .error 1
    else match ((List.range b.length).zip b).findSome? (fun x => s.entryError x.2 (ceAt t x.1)) with
    | some e => .error e
    | none =>
      if 64 * 2 ^ 20 < ctSnapLen t then .error 4
      else match s.moveList p with
        | none => .error 5
        | some ms => if ms.all (s.moveOk p) then .ok t else .error 5

/-! ## Ends of requests -/

/-- A request ends (R189): its state and final status, no cancel pending; its lists are held until the commit or the
run-time releases them. -/
def slotEnd (p n st status : Nat) : Act Unit := do
  slotSet n .state st
  slotSet n .finalStatus status
  slotSet n .cancelPending 0
  let step ← rdF (R.TIM_STEP p) F.TIM_STEP.step
  stW (endStepKey n) step
  modPart p (fun x => { x with heldLists := x.heldLists.filter (· ≠ n) ++ [n] })
  if st = stCancelled then count (C.REQ_CNT_CANCELLED p) 1

/-- The lists a commit releases: DONE with OK, DEADLINE_MISSED or PARTITION_STOPPED (R189). -/
def State.listsGo (s : State) (n : Nat) : Bool :=
  s.slotF n .state = stDone && [0, 3, 0x0A].contains (s.slotF n .finalStatus)

/-! ## One entry (R199) -/

/-- Token records of a request into its token ring (R188). -/
def appendTokens (p n : Nat) (toks : List Nat) (ended : Bool) : Act Unit := do
  let s ← Act.get
  let g := s.slotF n .generated
  for x in (List.range toks.length).zip toks do
    let last := ended && x.1 + 1 = toks.length
    let flags := b2n last + 2 * s.slotF n .deadlineMissed + 4 * s.slotF n .resumed
    let _ ← postEntry p (s.slotF n .tokenRing) (tokenRecord x.2 (g + x.1) n flags (s.slotF n .clientTag))
  slotSet n .generated (g + toks.length)
  if toks ≠ [] then count (C.REQ_CNT_TOKENS p) toks.length

/-- What an entry does to its request. -/
inductive Fate where
  | cancel
  | fail
  | park
  | stay (tokens : Nat)
  | done (tokens : Nat)
deriving DecidableEq, Repr

/-- The fate of a batch entry's request (R199). -/
def State.fate (s : State) (b : BatchE) (e : List Byte) : Fate :=
  let n := b.slot
  if s.slotF n .cancelPending = 1 then .cancel
  else if ceFail e then .fail
  else if cePark e then .park
  else
    let k := if b.kind = 2 then 0 else min (ceTok e) (s.slotF n .maxNew - s.slotF n .generated)
    if s.slotF n .generated + k = s.slotF n .maxNew ∨ ceEnd e then .done k else .stay k

/-- Commit one entry; a slot that is no longer live is passed over. -/
def commitEntry (p : Nat) (b : BatchE) (e : List Byte) : Act Unit := do
  let s ← Act.get
  let n := b.slot
  if s.slotOwner n ≠ some p ∨ !s.slotLive n then return
  let adv (k : Nat) (ended : Bool) : Act Unit := do
    let standing := if b.kind = 1 then 1 + ceA e else b.count
    let c := s.slotF n .committed + b.reused + standing
    slotSet n .committed c
    slotSet n .speculative c
    if b.kind = 1 then
      if ceA e < b.d then count (C.REQ_CNT_DRAFT_REJECTED p) (b.d - ceA e)
    appendTokens p n ((ceTokens e).take k) ended
    if b.kind = 2 then
      count (C.PRT_CNT_REBUILD_POS p) b.count
      if s.slotF n .rebuildTo ≤ c then slotSet n .rebuilding 0
    if s.slotF n .state = stPrefill ∧ b.kind = 0 ∧ s.slotF n .promptLen ≤ c then slotSet n .state stDecode
  match s.fate b e with
  | .cancel => slotEnd p n stCancelled 1
  | .fail => slotEnd p n stDone 6
  | .park =>
    slotSet n .speculative (s.slotF n .committed)
    slotSet n .state stParked
    slotSet n .parkReason (ceReason e)
    count (C.REQ_CNT_PARKED p) 1
  | .stay k => adv k false
  | .done k =>
    adv k true
    slotEnd p n stDone 0

/-- Commit the entries in batch order. -/
def commitEntries (p : Nat) (t : List Byte) : Nat → List BatchE → Act Unit
  | _, [] => skip
  | i, b :: l => do
    commitEntry p b (ceAt t i)
    commitEntries p t (i + 1) l

/-- Cancels of live requests outside the batch (R199). -/
def commitCancels (p : Nat) (batch : List Nat) : Act Unit := do
  for n in ← rd (fun s => s.liveSlots p) do
    if (← rd (fun s => s.slotF n .cancelPending)) = 1 ∧ !batch.contains n then slotEnd p n stCancelled 1

/-- A class aborts a request whose deadline has passed. -/
def State.aborts (s : State) (p n : Nat) : Bool :=
  s.fldOf (R.REQ_CLASS p (s.slotF n .cls)) F.REQ_CLASS.abort_on_deadline = 1

/-- Deadlines are tested (R203). -/
def commitDeadlines (p now : Nat) : Act Unit := do
  for n in ← rd (fun s => s.liveSlots p) do
    let s ← Act.get
    if s.slotF n .deadline ≠ 0 ∧ s.slotF n .deadline ≤ now then
      if s.slotF n .deadlineMissed = 0 then
        slotSet n .deadlineMissed 1
        count (C.REQ_CNT_DEADLINE_MISSED p) 1
      if s.aborts p n then slotEnd p n stDone 3

/-- The state a PARKED slot had (R189): DECODE once it has a token, else PREFILL. -/
def State.unparked (s : State) (n : Nat) : Nat := if 0 < s.slotF n .generated then stDecode else stPrefill

/-- Draining, and the way back (R189). -/
def commitDrain (p : Nat) : Act Unit := do
  let drain ← rdB (R.REQ_PART_CTRL p) F.REQ_PART_CTRL.drain
  for n in ← rd (fun s => s.liveSlots p) do
    let st ← rd (fun s => s.slotF n .state)
    if drain && st ≠ stDraining then
      slotSet n .parkReason st
      slotSet n .state stDraining
    if !drain && st = stDraining then
      slotSet n .state (← rd (fun s => s.slotF n .parkReason))
      slotSet n .parkReason 0

/-! ## KV changes (R177, R254) -/

/-- The move list rewrites its descriptors to their homes and is done. -/
def applyMoves (p : Nat) (ms : List (Nat × Nat × Nat × Bool)) : Act Unit := do
  for m in ms do
    match ← rd (fun s => s.engBytes p m.1 m.2.1 16) with
    | some e =>
      let v := clrBit (pdBits e / 4 * 4 + 1) 4
      let v := if m.2.2.2 then orBit v 5 else clrBit v 5
      engWrite p m.1 m.2.1 (mkPd m.2.2.1 v (pdRc e) (pdOwner e))
    | none => skip
  wrF (R.REQ_MOVE_BASE p) F.REQ_MOVE_BASE.valid 0

/-- Step 1 of R177: descriptors whose frames the step wrote become dirty. -/
def setDirty (p : Nat) (batch : List BatchE) : Act Unit := do
  for b in batch do
    let s ← Act.get
    let lay := s.layout p
    if s.slotOwner b.slot = some p then
      for k in List.range ((b.first + b.count + kvBlock lay - 1) / kvBlock lay - b.first / kvBlock lay) do
        for x in blockEntries lay (b.first / kvBlock lay + k) do
          engNotes p (← rd (fun t => t.entryReads p b.slot x.1 x.2))
          match ← rd (fun t => t.entryAt p b.slot x.1 x.2), ← rd (fun t => t.entryPlace p b.slot x.1 x.2) with
          | some e, some a => engWrite p a.1 a.2 (pdWithBits e (orBit (pdBits e) 4))
          | _, _ => skip

/-- Steps 1 to 5 of R177. Frames past the new committed lengths and the lists of released requests go in step 3. -/
def kvCommit (p : Nat) (batch : List BatchE) : Act Unit := do
  setDirty p batch
  for r in (← rd (fun s => s.part p)).stagedRefs do rcTake r.2
  modPart p (fun x => { x with stagedRefs := [] })
  for b in batch do
    let s ← Act.get
    if s.slotOwner b.slot = some p then
      releasePast p b.slot (s.slotF b.slot .committed) (b.first + b.count)
  for n in (← rd (fun s => s.part p)).heldLists do
    if ← rd (fun s => s.listsGo n) then releaseLists p n
  leaseReturn p (fun _ => true)

/-! ## The journal entries of a commit (R193, R199) -/

/-- The snapshot's bytes; where they cannot be read, zeros. -/
def State.snapBytes (s : State) (p : Nat) (t : List Byte) : List Byte :=
  (s.engBytes p (refSpace (ctSnap t)) (refAddr (ctSnap t)) (ctSnapLen t)).getD (List.replicate (ctSnapLen t) 0)

/-- Requests this commit will end, as its tests will find them. -/
def State.willEnd (s : State) (p : Nat) (t : List Byte) (now : Nat) : List Nat :=
  let b := (s.part p).batch
  let inb := ((List.range b.length).zip b).filterMap (fun x =>
    if s.slotOwner x.2.slot = some p && s.slotLive x.2.slot then
      (match s.fate x.2 (ceAt t x.1) with
       | .cancel | .fail | .done _ => some x.2.slot
       | _ => none)
    else none)
  let rest := (s.liveSlots p).filter (fun n => !inb.contains n &&
    ((s.slotF n .cancelPending = 1 && !(b.any (fun x => x.slot = n))) ||
      (s.slotF n .deadline ≠ 0 && decide (s.slotF n .deadline ≤ now) && s.aborts p n)))
  inb ++ rest

/-- Journal bytes a commit needs. -/
def commitBytes (t : List Byte) (ends : Nat) : Nat := jEntrySize t.length + jEntrySize (ctSnapLen t) + ends * jEntrySize 16

/-- The table of a commit with an empty batch and no snapshot. -/
def emptyTable : List Byte := List.replicate 16 0

/-- The journal has room for the commit in hand: for a stop commit, one that ends every live request (R195, R384). -/
def State.commitFits (s : State) (p : Nat) : Bool :=
  let x := s.part p
  let t := if x.table = [] then emptyTable else x.table
  let ends := if x.table = [] then (s.liveSlots p).length else (s.willEnd p x.table x.commitAt).length
  decide (commitBytes t (ends + x.broken.length) ≤ s.jRoom p)

/-- A publication place is free (R200). -/
def State.pubFits (s : State) (p : Nat) : Bool := decide ((s.part p).pubs.length < 8)

/-- `n` microseconds pass for the commits that wait in COMMITTING (R195, R200, R212). -/
def commitWaits (n : Nat) : Act Unit := do
  for p in List.range 32 do
    let s ← Act.get
    if s.phase p = 4 then
      if !s.commitFits p then count (C.REQ_CNT_JRNL_FULL_WAIT p) n
      else if !s.pubFits p then count (C.REQ_CNT_PUBLISH_WAIT p) n

/-- The admissions of some slots. -/
def State.admitsOf (s : State) (p : Nat) (ns : List Nat) : List (Nat × Nat) := (s.part p).admits.filter (fun a => ns.contains a.1)

/-- The COMMIT, SNAPSHOT and RELEASE entries, and the publication (R199, R200). -/
def commitJournal (p step : Nat) (t : List Byte) (batch ended : List Nat) (before : List (Nat × Nat)) : Act Unit := do
  let s ← Act.get
  let cseq ← jWrite p 2 step 0xFFFF (s.admitsOf p batch) t
  for n in batch do slotSet n .jseq cseq
  engNote p (refSpace (ctSnap t)) (refAddr (ctSnap t)) (ctSnapLen t)
  let snap ← rd (fun u => u.snapBytes p t)
  let _ ← jWrite p 3 step 0xFFFF [] snap
  for n in ended do
    let seq ← jWrite p 4 0 n (s.admitsOf p [n]) (leBytes 16 (s.slotF n .finalStatus))
    slotSet n .jseq seq
  let u ← Act.get
  let tokens := before.filterMap (fun x =>
    if u.slotF x.1 .generated = x.2 then none
    else some (x.1, u.slotF x.1 .tokenRing, u.ringProducer (u.slotF x.1 .tokenRing), u.slotF x.1 .generated - 1))
  modPart p (fun x => { x with pubs := x.pubs ++ [{ upto := u.jrnlWritten p, step := step, tokens := tokens, ended := ended }] })
  showPending p

/-- The commit proper (R199). -/
def commitRun (p : Nat) : Act Unit := do
  let s ← Act.get
  let x := s.part p
  let t := x.table
  let slots := (x.batch.map (·.slot)).eraseDups
  let live := s.liveSlots p
  let before := live.map (fun n => (n, s.slotF n .generated))
  commitEntries p t 0 x.batch
  commitCancels p slots
  commitDeadlines p x.commitAt
  commitDrain p
  for q in s.tilesOf p do commitHistories q
  routeCommit p
  routeSnapshot p (refSpace (ctSnap t)) (refAddr (ctSnap t)) (ctSnapLen t)
  let ended ← rd (fun u => live.filter (fun n => !u.slotLive n))
  if (← rdF (R.REQ_MOVE_BASE p) F.REQ_MOVE_BASE.valid) = 1 then applyMoves p x.moves
  kvCommit p x.batch
  for n in slots do
    if ← rd (fun u => u.slotLive n) then lingInsert p n
  lingEvict p 64
  wrF (R.TIM_STEP p) F.TIM_STEP.running 0
  let step ← rdF (R.TIM_STEP p) F.TIM_STEP.step
  commitJournal p step t slots (x.broken ++ ended) before
  modPart p (fun y => { y with batch := [], stagedRefs := [], table := [], moves := [], broken := [] })
  wrF (R.PRT_FAULT_STATUS p) F.PRT_FAULT_STATUS.replays 0
  wrF (R.REQ_STEP_STATUS p) F.REQ_STEP_STATUS.batch_entries 0
  wrF (R.REQ_STEP_STATUS p) F.REQ_STEP_STATUS.batch_tokens 0
  count (C.REQ_CNT_STEPS p) 1
  setPhase p 0

/-- A commit goes on if the journal has room and a publication place is free; otherwise it waits in COMMITTING (R195,
R200). The slots are checked as the engine reads them (R189). -/
def commitGo (p : Nat) : Act Unit := do
  tableSound p
  let s ← Act.get
  if s.commitFits p && s.pubFits p then commitRun p

/-! ## The stop commit (R384) -/

/-- Every live request ends PARTITION_STOPPED. -/
def stopSlots (p : Nat) : Act Unit := do
  for n in ← rd (fun s => s.liveSlots p) do slotEnd p n stDone 0x0A

/-- The step in hand is given up: its maxima and its samples go, and every tile follows its registers again (R93, R96). -/
def dropSamples (p : Nat) : Act Unit := do
  for q in ← rd (fun s => s.tilesOf p) do
    dropMaxima q
    modTile q (fun x => { x with sampled := false })

/-- The stop commit, once the journal has room and a publication place is free: a step that was built or ran is dropped. -/
def stopGo (p : Nat) : Act Unit := do
  tableSound p
  let s ← Act.get
  if s.commitFits p && s.pubFits p then
    let live := s.liveSlots p
    for j in (s.part p).cows do freeFrame p j.frame
    stopSlots p
    dropSamples p
    routeCommit p
    kvCommit p []
    let step ← rdF (R.TIM_STEP p) F.TIM_STEP.step
    commitJournal p step emptyTable [] ((s.part p).broken ++ live) []
    modPart p (fun y => { y with batch := [], cows := [], stopping := false, broken := [] })
    wrF (R.TIM_STEP p) F.TIM_STEP.running 0
    wrF (R.PRT_FAULT_STATUS p) F.PRT_FAULT_STATUS.replays 0
    setPhase p 0
    stopIfDone p

/-- Go on with a stop that waited for the commit in hand. -/
def stopNext (p : Nat) : Act Unit := do
  let s ← Act.get
  if (s.part p).stopping && s.phase p = 0 then
    setPhase p 4
    stopGo p

/-- STEP_COMMIT (R198, R199): a table that breaks a rule is refused as a whole and the phase stays RUNNING. A write outside
RUNNING has no step to commit and does nothing. -/
def stepCommit (p : Nat) : Act (Option Nat) := do
  let s ← Act.get
  if s.phase p ≠ 3 then return none
  engNotes p (((s.moveList p).getD []).map (fun m => (m.1, m.2.1, 16)))
  match s.readTable p with
  | .error e =>
    wrF (R.REQ_STEP_STATUS p) F.REQ_STEP_STATUS.error e
    count (C.REQ_CNT_COMMIT_REFUSED p) 1
  | .ok t =>
    modPart p (fun x => { x with table := t, moves := (s.moveList p).getD [], commitAt := s.now })
    setPhase p 4
    commitGo p
  return none

/-- PARTITION_STOP (R384): stop is set in a RUNNING partition; it becomes STOPPING and the stop commit begins, after a
commit in hand. -/
def partitionStop (p : Nat) : Act Unit := do
  let s ← Act.get
  if s.fldOf (R.PRT_CTRL p) F.PRT_CTRL.state ≠ 1 then return
  wrF (R.PRT_CTRL p) F.PRT_CTRL.state 2
  modPart p (fun x => { x with stopping := true })
  if s.phase p ≠ 4 then
    setPhase p 4
    stopGo p

/-- COMMIT_RESUME (R195, R200): a commit that waits in COMMITTING is tried again. -/
def commitResume (p : Nat) : Act Unit := do
  let s ← Act.get
  if s.phase p ≠ 4 then return
  if (s.part p).table = [] then stopGo p
  else
    commitGo p
    stopNext p

/-! ## Rollback and abandonment (R201, R428, R431) -/

/-- STEP_ROLLBACK (R201): refused unless the phase is RUNNING, or when the step has used its replays (R428). -/
def stepRollback (p : Nat) : Act (Option Nat) := do
  let s ← Act.get
  if s.phase p ≠ 3 then return some 4
  let n := s.fldOf (R.PRT_FAULT_STATUS p) F.PRT_FAULT_STATUS.replays
  if n = s.fldOf (R.PRT_FAULT_CTRL p) F.PRT_FAULT_CTRL.replay_limit then
    wrF (R.PRT_FAULT_STATUS p) F.PRT_FAULT_STATUS.replay_exhausted 1
    return some 4
  wrF (R.PRT_FAULT_STATUS p) F.PRT_FAULT_STATUS.replays (n + 1)
  count (C.PRT_CNT_REPLAYS p) 1
  count (C.REQ_CNT_ROLLBACKS p) 1
  for b in (s.part p).batch do
    slotSet b.slot .speculative (s.slotF b.slot .committed + b.reused + b.count)
  for q in s.tilesOf p do dropMaxima q
  routeRollback p
  modPart p (fun x => { x with rerun := true, builtTick := s.tick })
  setPhase p 2
  return none

/-- Every tile of the partition has nothing unretired (R201, R431). -/
def State.tilesFlushed (s : State) (p : Nat) : Bool :=
  (s.tilesOf p).all (fun q => s.opqRetired q = s.opqTail q && (s.tile q).flights.isEmpty)

/-- STEP_ABANDON (R431). -/
def stepAbandon (p : Nat) : Act (Option Nat) := do
  let s ← Act.get
  if !(s.phase p = 2 || (s.phase p = 3 && s.tilesFlushed p)) then return some 4
  let x := s.part p
  leaseReturn p (fun _ => true)
  for j in x.cows do freeFrame p j.frame
  for b in x.batch do
    if 0 < b.reused then
      engNotes p (← rd (fun t => t.entriesReads p b.slot (b.first + b.count)))
      for e in (← rd (fun t => t.entriesOf p b.slot (b.first + b.count) pdShared)) do
        if x.stagedRefs.contains (b.slot, pdRc e.2.2) then
          match ← rd (fun t => t.entryPlace p b.slot e.1 e.2.1) with
          | some a => engWrite p a.1 a.2 (List.replicate 16 0)
          | none => skip
    slotSet b.slot .speculative (s.slotF b.slot .committed)
    if b.fresh && s.slotLive b.slot then slotSet b.slot .state stAdmitted
  dropSamples p
  routeRollback p
  modPart p (fun y => { y with batch := [], stagedRefs := [], cows := [], rerun := false })
  wrF (R.TIM_STEP p) F.TIM_STEP.running 0
  wrF (R.REQ_STEP_STATUS p) F.REQ_STEP_STATUS.batch_entries 0
  wrF (R.REQ_STEP_STATUS p) F.REQ_STEP_STATUS.batch_tokens 0
  count (C.PRT_CNT_ABANDONED p) 1
  setPhase p 0
  return none

/-! ## Slots by register (R189, R202, R432) -/

/-- UNPARK (R202): a PARKED slot of the partition returns to its former state; otherwise refused. -/
def unpark (p n : Nat) : Act (Option Nat) := do
  if (← rd (fun s => s.slotOwner n)) = some p then slotSound p n
  let s ← Act.get
  if s.slotOwner n ≠ some p ∨ s.slotF n .state ≠ stParked then return some 4
  slotSet n .state (s.unparked n)
  slotSet n .parkReason 0
  return none

/-- LIST_RELEASE (R189, R212): the held lists of a DONE or CANCELLED slot are released. -/
def listRelease (p n : Nat) : Act (Option Nat) := do
  if (← rd (fun s => s.slotOwner n)) = some p then slotSound p n
  let s ← Act.get
  if s.slotOwner n ≠ some p ∨ s.slotF n .state < 6 ∨ !(s.part p).heldLists.contains n then return some 4
  releaseLists p n
  slotMaybeFree p n
  return none

/-- KV_REBUILD (R432). -/
def kvRebuild (p n f : Nat) : Act (Option Nat) := do
  if (← rd (fun s => s.slotOwner n)) = some p then slotSound p n
  let s ← Act.get
  let c := s.slotF n .committed
  if s.phase p ≠ 0 ∨ s.slotOwner n ≠ some p ∨ (s.slotF n .state ≠ stPrefill ∧ s.slotF n .state ≠ stDecode) ∨ f % 64 ≠ 0 ∨
      c < f then return some 4
  slotSet n .rebuildTo c
  slotSet n .rebuilding 1
  slotSet n .committed f
  slotSet n .speculative f
  releasePast p n f (max c (s.slotF n .speculative))
  return none

end Sys2Proof.Machine
end

