-- ==== Sys2Proof/Machine/Recover.lean ====
section
/-! DEFINITION. Recovery of a partition from its journal and a resume table (R444 to R446). Where the spec is open:
DEDUCED 72 and 73 of the assumption log. -/

namespace Sys2Proof.Machine

/-! ## Reading the journal back -/

/-- The journal as recovery reads it. -/
def State.journalRead (s : State) (p : Nat) : List REntry :=
  match s.oldestEntry p (s.jrnlBase p) (s.jrnlSize p) with
  | none => []
  | some e => s.entriesFrom p (s.jrnlBase p) (s.jrnlSize p) (s.jrnlSize p / 32) e

/-! ## The resume table (R444) -/

/-- The entries of a resume table in ascending slot order, none where it is malformed. -/
def State.resumeTable (s : State) (p addr : Nat) : Nat → Nat → Option (List (List Byte))
  | 0, _ => none
  | fuel + 1, i =>
    match s.engBytes p 0 (addr + 64 * i) 64 with
    | none => none
    | some e =>
      if numAt e 0 2 = 0xFFFF then some []
      else match s.resumeTable p addr fuel (i + 1) with
      | some l => if l.all (fun x => decide (numAt e 0 2 < numAt x 0 2)) then some (e :: l) else none
      | none => none

/-! ## Rebuilding slots (R445) -/

/-- A slot as recovery rebuilds it. -/
structure RSlot where
  n : Nat
  seq : Nat
  jseq : Nat
  msg : List Byte
  state : Nat := stAdmitted
  status : Nat := 0
  park : Nat := 0
  committed : Nat := 0
  rebuilding : Bool := false
  rebuildTo : Nat := 0
  tokens : List Nat := []
  ended : Bool := false
  endStep : Nat := 0
  /-- The last token was the request's last. -/
  final : Bool := false
  missing : Bool := false
deriving DecidableEq, Repr

/-- One entry of a commit table applied to its slot, as R199 applied it; nothing is sampled. -/
def RSlot.apply (r : RSlot) (seq : Nat) (e : List Byte) : RSlot :=
  let r := { r with jseq := seq }
  if r.ended then r
  else if ceFail e then { r with state := stDone, status := 6, ended := true }
  else if cePark e then { r with state := stParked, park := ceReason e }
  else
    let start := ceFirst e < r.committed && !r.rebuilding
    let r := if start then { r with rebuildTo := r.committed, rebuilding := true } else r
    let decode := r.tokens ≠ [] && !r.rebuilding
    let c := ceFirst e + (if decode then 1 + ceA e else ceCount e)
    let toks := if r.rebuilding then [] else (ceTokens e).take (msgMaxNew r.msg - r.tokens.length)
    let tokens := r.tokens ++ toks
    let done := tokens.length = msgMaxNew r.msg || ceEnd e
    { r with
      committed := c
      rebuilding := r.rebuilding && decide (c < r.rebuildTo)
      tokens := tokens
      park := 0
      final := done && toks ≠ []
      ended := done
      state := if done then stDone else if msgLen r.msg ≤ c ∨ tokens ≠ [] then stDecode else stPrefill }

/-- What recovery has read so far: the slots and the step of the last commit. -/
structure RState where
  slots : List RSlot := []
  step : Nat := 0
deriving DecidableEq, Repr

/-- Apply one journal entry; `later` are the entries after it. -/
def RState.entry (a : RState) (e : REntry) (later : List REntry) : RState :=
  if e.kind = 1 then
    { a with slots := a.slots.filter (fun r => r.n ≠ e.slot) ++ [{ n := e.slot, seq := e.seq, jseq := e.seq, msg := e.body }] }
  else if e.kind = 2 then
    let cancelled := ((later.takeWhile (fun f => f.kind = 3 || f.kind = 4)).filter (fun f => f.kind = 4 && numAt f.body 0 1 = 1)).map (·.slot)
    { step := e.step
      slots := a.slots.map (fun r =>
        match (List.range (ctCount e.body)).find? (fun i => ceSlot (ceAt e.body i) = r.n) with
        | some i => if cancelled.contains r.n then { r with jseq := e.seq } else r.apply e.seq (ceAt e.body i)
        | none => r) }
  else if e.kind = 4 then
    { a with slots := a.slots.map (fun r =>
        if r.n = e.slot then
          { r with status := numAt e.body 0 1, ended := true, jseq := e.seq, endStep := a.step
                   state := if numAt e.body 0 1 = 1 then stCancelled else stDone }
        else r) }
  else a

/-- Apply the journal. -/
def RState.all (a : RState) : List REntry → RState
  | [] => a
  | e :: l => (a.entry e l).all l

/-- The completion ring recovered slots report to: the linked ring of the partition's lowest submission ring in service. -/
def State.recoverRing (s : State) (p : Nat) : Nat :=
  match (s.ringsOf p).find? (fun r => s.ringUp r && s.ringType r = 1) with
  | some r => s.ringF r 3 F.RING.linked
  | none => 0

/-- A rebuild starts from a position (R432). -/
def startRebuild (n f : Nat) : Act Unit := do
  let c ← rd (fun s => s.slotF n .committed)
  slotSet n .rebuildTo c
  slotSet n .rebuilding 1
  slotSet n .committed f
  slotSet n .speculative f

/-- A FINAL record, published at once. -/
def finalNow (p n step : Nat) : Act Unit := publish p { upto := 0, step := step, tokens := [], ended := [n] }

/-- Install a rebuilt slot that the resume table names (R445, R446). -/
def installSlot (p ring step : Nat) (failover : Bool) (r : RSlot) (e : List Byte) : Act Unit := do
  slotFill p r.n ring r.msg
  if !r.missing then pinFor p (msgAdapter r.msg) (msgAdapterVer r.msg) [2, 3]
  slotSet r.n .state r.state
  slotSet r.n .finalStatus r.status
  slotSet r.n .parkReason r.park
  slotSet r.n .committed r.committed
  slotSet r.n .speculative r.committed
  slotSet r.n .rebuilding (b2n r.rebuilding)
  slotSet r.n .rebuildTo r.rebuildTo
  slotSet r.n .jseq r.jseq
  slotSet r.n .resumed (b2n failover)
  if r.status = 3 then slotSet r.n .deadlineMissed 1
  addLive 1
  modPart p (fun x => { x with admits := x.admits ++ [(r.n, r.seq)] })
  let from_ := if numAt e 4 4 = 0xFFFFFFFF then 0 else numAt e 4 4 + 1
  slotSet r.n .generated (min from_ r.tokens.length)
  appendTokens p r.n (r.tokens.drop from_) r.final
  slotSet r.n .generated r.tokens.length
  slotSet r.n .lastIndex (if r.tokens = [] then 0xFFFFFFFF else r.tokens.length - 1)
  let s ← Act.get
  publishTail p (s.slotF r.n .tokenRing) (s.ringProducer (s.slotF r.n .tokenRing))
  if 6 ≤ r.state then
    stW (endStepKey r.n) (if r.missing then step else r.endStep)
    finalNow p r.n (if r.missing then step else r.endStep)
  else
    for g in List.range 4 do slotSet r.n (.head g) (numAt e (32 + 8 * g) 8)
    if numAt e 16 4 < r.committed then startRebuild r.n (numAt e 16 4)
  count (C.PRT_CNT_RECOVERED p) 1

/-- A slot the table names and the journal does not rebuild: its FINAL record reads FAILED_DATA. -/
def failSlot (p ring step : Nat) (failover : Bool) (e : List Byte) : Act Unit := do
  let n := numAt e 0 2
  for w in List.range 16 do stW (slotKey n w) 0
  slotPut n .partition p
  slotPut n .state stDone
  slotPut n .finalStatus 6
  slotPut n .lastIndex (numAt e 4 4)
  slotPut n .completionRing ring
  slotPut n .clientTag (numAt e 8 8)
  slotPut n .adapter 0xFFFF
  slotPut n .resumed (b2n failover)
  slotSeal n
  addLive 1
  stW (endStepKey n) step
  finalNow p n step

/-- Recovery answers a result (R453). -/
def recoverResult (p code last : Nat) : Act Unit := do
  wrF (R.PRT_RECOVER_STATUS p) F.PRT_RECOVER_STATUS.result code
  wrF (R.PRT_RECOVER_STATUS p) F.PRT_RECOVER_STATUS.last_seq last

/-- The journal's entries as the engine keeps them after recovery. -/
def journalOf (es : List REntry) (slots : List RSlot) : List JEntry :=
  (es.foldl (fun (acc : List JEntry × Nat) e =>
    let sl := if e.kind = 2 then
        (slots.filter (fun r => r.seq ≤ e.seq ∧ (List.range (ctCount e.body)).any (fun i => ceSlot (ceAt e.body i) = r.n))).map (fun r => (r.n, r.seq))
      else if e.kind = 3 then []
      else (slots.filter (fun r => r.n = e.slot ∧ r.seq ≤ e.seq)).map (fun r => (r.n, r.seq))
    (acc.1 ++ [{ seq := e.seq, kind := e.kind, slots := sl, pos := acc.2, size := e.size }], acc.2 + e.size))
    ([], (es.head?.map (·.pos)).getD 0)).1

/-- Admissions that wait for their confirmation are given up: their slots are empty again and their pins drop. -/
def dropPending (p : Nat) : Act Unit := do
  for a in (← rd (fun s => s.part p)).acks do
    let s ← Act.get
    adpUnpin p (s.slotF a.2.1 .adapter) (s.slotF a.2.1 .adapterVer)
    for w in List.range 16 do stW (slotKey a.2.1 w) 0
    addAdmitting (-1)
  modPart p (fun x => { x with acks := [] })

/-- RECOVER (R445). -/
def recover (p table : Nat) (failover : Bool) : Act (Option Nat) := do
  let s ← Act.get
  if s.phase p ≠ 0 ∨ s.liveSlots p ≠ [] then return some 4
  engNote p 1 (s.jrnlBase p) 32
  if (s.engBytes p 1 (s.jrnlBase p) 32).isNone then return some 4
  let es := s.journalRead p
  engNotes p (es.flatMap (fun e => (jPieces (s.jrnlSize p) (e.size + 1) e.pos (List.replicate e.size 0)).map (fun x =>
    (1, s.jrnlBase p + x.1, x.2.length))))
  let a := ({} : RState).all es
  let own := s.slotsOf p
  match es.getLast?, s.resumeTable p (hubByte table) 16385 0 with
  | none, _ => recoverResult p 2 0
  | some last, rows? =>
    if !es.any (fun e => e.kind = 3) then recoverResult p 2 0
    else match rows? with
    | none => recoverResult p 4 0
    | some rows =>
      if !(a.slots.all (fun r => own.contains r.n) && rows.all (fun e => own.contains (numAt e 0 2))) then recoverResult p 3 0
      else
        let ring := s.recoverRing p
        wrF (R.TIM_STEP p) F.TIM_STEP.step a.step
        wrF (R.TIM_STEP p) F.TIM_STEP.running 0
        dropPending p
        for n in own do if s.slotF n .state ≠ stFree then slotFree p n
        let slots := a.slots.map (fun r =>
          if r.ended || msgAdapter r.msg = 0xFFFF || (s.adpFind p (msgAdapter r.msg) (msgAdapterVer r.msg) [2, 3]).isSome then r
          else { r with missing := true, state := stDone, status := 8, ended := true })
        wrF (R.REQ_JRNL_SEQ p) F.REQ_JRNL_SEQ.written last.seq
        wrF (R.REQ_JRNL_CONF p) F.REQ_JRNL_CONF.confirmed last.seq
        wrF (R.REQ_JRNL_CONF p) F.REQ_JRNL_CONF.mirror_lost 0
        let js := journalOf es slots
        modPart p (fun x => { x with
          journal := js, admits := [], acks := [], pubs := [], finals := [], heldLists := []
          jpos := match js.getLast? with
            | some j => j.pos + j.size
            | none => 0
          snap := ((es.filter (fun e => e.kind = 3)).getLast?.map (·.seq)).getD 0 })
        showPending p
        for r in slots.foldl (fun l r => (l.filter (fun x => x.n < r.n)) ++ [r] ++ (l.filter (fun x => r.n < x.n))) [] do
          match rows.find? (fun e => numAt e 0 2 = r.n ∧ numAt e 8 8 = msgTag r.msg) with
          | some e => installSlot p ring a.step failover r e
          | none => count (C.PRT_CNT_RECOVER_DROPPED p) 1
        for e in rows do
          if !slots.any (fun r => r.n = numAt e 0 2 ∧ numAt e 8 8 = msgTag r.msg) then failSlot p ring a.step failover e
        recoverResult p 0 last.seq
  return none

end Sys2Proof.Machine
end

