-- ==== Sys2Proof/Machine/Ring.lean ====
section
/-! DEFINITION. Rings as their users see them: doorbells (R183), contexts (R182), ring packets (R184), messages to other
packages (R332). Where the spec is open: DEDUCED 57, 74, 75, 76 and 78 of the assumption log. -/

namespace Sys2Proof.Machine

/-- Change the record of the copy and ring engines. -/
def modFab (f : FabX → FabX) : Act Unit := do Act.upd (.fab (f (← rd (fun s => s.fab))))

/-! ## Messages to other packages (R330, R332) -/

/-- Send the message at the consumer index of a message ring to the ring's endpoint. -/
def msgSend (p ring : Nat) : Act Unit := do
  let s ← Act.get
  match ← ringRead 0 ring (s.ringConsumer ring) with
  | .ok bs =>
    sendRing p ring (s.ringF ring 1 F.RING.ep_fabric) 0x04 (s.ringF ring 1 F.RING.ep_queue) 0 bs
    count (C.RING_ENG_OUT (ringHub ring)) bs.length
    modFab (fun x => { x with msgs := x.msgs.filter (fun m => m.ring ≠ ring) ++ [{ ring := ring, sentAt := s.now, busyAt := none }] })
  | .error _ => skip

/-- A message ring with a message and none on its way sends it. -/
def msgNext (ring : Nat) : Act Unit := do
  let s ← Act.get
  match s.ringOwner ring with
  | none => skip
  | some p =>
    if s.ringUp ring && s.pageServes (pageBase .req 0) && s.ringType ring = 5 &&
        decide (s.ringConsumer ring ≠ s.ringProducer ring) && !s.fab.msgs.any (fun m => m.ring = ring) then msgSend p ring

/-- A message no RING_BUSY has answered for 10 µs has been taken: the consumer index passes it (R332). -/
def msgTaken : Act Unit := do
  let s ← Act.get
  for m in s.fab.msgs.filter (fun m => m.busyAt.isNone && decide (m.sentAt + 10000 ≤ s.now)) do
    modFab (fun x => { x with msgs := x.msgs.filter (fun y => y.ring ≠ m.ring) })
    ringSet m.ring 2 F.RING.consumer (s.ringConsumer m.ring + 1)
    msgNext m.ring

/-- RING_BUSY (R332): the sender holds the message for a resend. -/
def ringBusy (r : RxPacket) : Act Unit :=
  onPacket r [0x05] (fun q => do
    match q with
    | none => skip
    | some p =>
      let s ← Act.get
      let dst := pkArg0 r.bytes % 2 ^ 16
      match s.fab.msgs.find? (fun m => s.ringOwner m.ring = some p && s.ringF m.ring 1 F.RING.ep_queue = dst &&
          s.ringF m.ring 1 F.RING.ep_fabric = pkSrc r.bytes && m.busyAt.isNone) with
      | none => skip
      | some m => modFab (fun x => { x with msgs := x.msgs.map (fun y => if y.ring = m.ring then { y with busyAt := some s.now } else y) }))

/-- RING_MSG_RETRY (R332): 10 µs after RING_BUSY the message goes out again. -/
def ringMsgRetry (ring : Nat) : Act Unit := do
  let s ← Act.get
  match s.ringOwner ring, s.fab.msgs.find? (fun m => m.ring = ring) with
  | some p, some m =>
    match m.busyAt with
    | some t => if t + 10000 ≤ s.now then msgSend p ring
    | none => skip
  | _, _ => skip

/-- RING_MSG (R332): a message goes into its destination ring, or is answered with RING_BUSY. -/
def ringMsg (r : RxPacket) : Act Unit :=
  onPacket r [0x04] (fun q => do
    match q with
    | none => skip
    | some p =>
      let ring := pkArg0 r.bytes % 2 ^ 16
      let up ← ringUse ring
      let s ← Act.get
      if up ∧ s.ringType ring = 5 ∧ s.ringF ring 1 F.RING.ep_fabric = pkSrc r.bytes ∧ (pkBody r.bytes).length = 64 ∧
          0 < s.ringRoom ring then
        let i := s.ringProducer ring
        let _ ← ringWrite 0 ring i (pkBody r.bytes)
        ringSet ring 2 F.RING.producer (i + 1)
        count (C.RING_ENG_IN (ringHub ring)) 64
      else sendRing p ring (pkSrc r.bytes) 0x05 (pkArg0 r.bytes) (pkArg1 r.bytes) [])

/-! ## Doorbells (R183) -/

/-- A FINAL record is consumed once the consumer index has passed it; its slot may go FREE (R189). -/
def finalsConsumed (p ring upto : Nat) : Act Unit := do
  let x ← rd (fun s => s.part p)
  let gone := x.finals.filter (fun f => f.2.1 = ring && decide (0 < moves32 f.2.2 upto) && !backwards32 f.2.2 upto)
  modPart p (fun y => { y with finals := y.finals.filter (fun f => !gone.contains f) })
  for f in gone do slotMaybeFree p f.1

/-- A doorbell's new producer index is not acceptable (R183). -/
def State.producerBad (s : State) (ring ix : Nat) : Bool :=
  !([1, 4, 5].contains (s.ringType ring)) || backwards32 (s.ringProducer ring) ix ||
    decide (2 ^ s.ringLog ring < moves32 (s.ringConsumer ring) ix)

/-- A doorbell's new consumer index is not acceptable (R183). -/
def State.consumerBad (s : State) (ring ix : Nat) : Bool :=
  !([2, 3].contains (s.ringType ring)) || backwards32 (s.ringConsumer ring) ix ||
    (decide (0 < moves32 (s.ringPublished ring) ix) && !backwards32 (s.ringPublished ring) ix)

/-- A submission ring's producer doorbell is noted with its time until the consumer index has passed it (R192). -/
def bellRings (ring ix : Nat) : Act Unit := do
  let s ← Act.get
  match s.ringOwner ring with
  | some p =>
    if s.ringType ring = 1 then
      modPart p (fun x => { x with
        bells := x.bells.filter (fun b => b.1 ≠ ring || decide (s.ringConsumer ring ≠ b.2.1) && !backwards32 (s.ringConsumer ring) b.2.1) ++
          [(ring, ix, s.now)] })
  | none => skip

/-- A doorbell of a ring in service (R183): bad ones are ignored and counted. -/
def doorbell (ring : Nat) (v : Word) : Act Unit := do
  let up ← ringUse ring
  let s ← Act.get
  let kind := bits v.toNat 63 62
  let ix := bits v.toNat 31 0
  if !up then count C.REQ_CNT_DBL_BAD 1
  else if kind = 0 ∧ !s.producerBad ring ix then
    ringSet ring 2 F.RING.producer ix
    bellRings ring ix
    if s.ringType ring = 5 then msgNext ring
  else if kind = 1 ∧ !s.consumerBad ring ix then
    ringSet ring 2 F.RING.consumer ix
    match s.ringOwner ring with
    | some p => finalsConsumed p ring ix
    | none => skip
  else count C.REQ_CNT_DBL_BAD 1

/-! ## Ring packets (R184) -/

/-- RING_IN (R184, R330): submission entries and a doorbell, as if the owning partition had written them. -/
def ringIn (r : RxPacket) : Act Unit :=
  onPacket r [0x01] (fun q => do
    match q with
    | none => skip
    | some _ =>
      let ring := pkArg0 r.bytes % 2 ^ 16
      let first := pkArg0 r.bytes / 2 ^ 32
      let n := (pkBody r.bytes).length / 64
      let up ← ringUse ring
      for i in List.range n do
        let s ← Act.get
        if up ∧ s.ringType ring = 1 then
          if 2 ^ s.ringLog ring ≤ moves32 (s.ringConsumer ring) (first + i) then count C.REQ_CNT_RING_OVERRUN 1
          else
            let _ ← ringWrite 0 ring (first + i) (bytesAt (pkBody r.bytes) (64 * i) 64)
            count (C.RING_ENG_IN (ringHub ring)) 64
      match pkArg1 r.bytes % 4 with
      | 1 => doorbell ring (BitVec.ofNat 64 ((first + n) % 2 ^ 32))
      | 2 => doorbell ring (BitVec.ofNat 64 (2 ^ 62 + first))
      | _ => skip)

/-! ## Contexts by register (R182, R212) -/

/-- RING_CONTEXT_WRITE: word `w` of the context REQ_RING_SEL names; refused with 0x02 for a ring of another partition, with
0x04 while the ring is enabled, but for a write that only clears enable, and for values R182 does not allow. -/
def ringContextWrite (p w : Nat) (v : Word) : Act (Option Nat) := do
  let s ← Act.get
  let ring := s.fldOf (R.REQ_RING_SEL p) F.REQ_RING_SEL.ring
  let old := s.wordAt (ringKey ring w)
  let n := v.toNat
  if s.ringOwner ring ≠ some p then return some 2
  let new : Nat := match w with
    | 0 => clrBit n 52
    | 1 => mergeBits 0 n 0xFFFF0FFF00000000 + bits old.toNat 4 0
    | 2 => n
    | 3 => mergeBits 0 n 0x0000FFFFFFFFFFFF
    | 7 => mergeBits 0 n 0xFF00000000000000
    | _ => 0
  let en := decide (s.ringF ring 0 F.RING.enable = 1)
  if en ∧ !(w = 0 && new = clrBit old.toNat 53) then return some 4
  if w = 0 then
    let x := BitVec.ofNat 64 new
    let t := getFld x F.RING.type
    let log := getFld x F.RING.log_entries
    let base := getFld x F.RING.base
    let live := decide (getFld x F.RING.enable = 1)
    let last := base + 2 ^ log * ringEntryBytes t
    if 5 < t ∨ (live ∧ t = 0) ∨ base % 64 ≠ 0 ∨ 1 < getFld x F.RING.space ∨ ((live ∨ log ≠ 0) ∧ (log < 4 ∨ 20 < log)) then return some 4
    if log ≠ 0 ∧ (if getFld x F.RING.space = 0 then 2 ^ 26 < last else 2 ^ 40 < last) then return some 4
  stW (ringKey ring w) new
  ringSettle ring
  return none

end Sys2Proof.Machine
end

