-- ==== Sys2Proof/Machine/Dma.lean ====
section
/-! DEFINITION. The hub copy engines: DMA entries (R185), PUTs and their answers (R333, R334), and the protection of
plaintext weights on that path (R305). Where the spec is open: DEDUCED 77 of the assumption log. -/

namespace Sys2Proof.Machine

/-! ## Protected stores (R305) -/

/-- A range of a tile's SRAM touches a weight buffer. -/
def State.touchesWbuf (s : State) (page off len : Nat) : Bool :=
  [0, 1].any (fun w => overlaps (off, len) (s.wbufBase page w, s.wbufSize page w))

/-- A range of a space overlaps a sealed granule or a weight buffer. -/
def State.touchesProtected (s : State) (p space addr len : Nat) : Bool :=
  match space with
  | 1 => decide (0 < len) && s.touchesSealed p addr len
  | 2 => match s.tileOf (addr / 2 ^ 22) with
    | some page => s.touchesWbuf page (addr % 2 ^ 22) len
    | none => false
  | _ => false

/-- A range of a space lies wholly in sealed granules, or in one weight buffer. -/
def State.insideProtected (s : State) (p space addr len : Nat) : Bool :=
  match space with
  | 1 => decide (0 < len) && (List.range ((addr + len - 1) / 2 ^ 30 + 1 - addr / 2 ^ 30)).all (fun i =>
      match s.granule p ((addr / 2 ^ 30 + i) * 2 ^ 30) with
      | some e => getFld e F.GMAP.sealed = 1
      | none => false)
  | 2 => match s.tileOf (addr / 2 ^ 22) with
    | some page => [0, 1].any (fun w => decide (s.wbufBase page w ≤ addr % 2 ^ 22 ∧
        addr % 2 ^ 22 + len ≤ s.wbufBase page w + s.wbufSize page w))
    | none => false
  | _ => false

/-! ## Entries (R185, R333) -/

def deSrc (e : List Byte) : Nat := numAt e 0 8
def deDst (e : List Byte) : Nat := numAt e 8 8
def deLen (e : List Byte) : Nat := numAt e 16 4
def deSig (e : List Byte) : Nat := numAt e 20 8
def deVal (e : List Byte) : Nat := numAt e 28 4
def deLane (e : List Byte) : Nat := numAt e 32 1
def dePath (e : List Byte) : Nat := numAt e 33 1

/-- A remote address: the fabric number, and what its packets carry of it. -/
def remoteFabric (a : Nat) : Nat := bits a 61 50
def remotePlace (a : Nat) : Nat := bits a 47 0

/-- A 64-bit address keeps the reserved bits of R333 clear. -/
def addrOk (a : Nat) : Bool :=
  if refSpace a = 3 then bits a 63 62 = 0 && bits a 45 40 = 0 && bits a 47 46 ≠ 3 else a / 2 ^ 50 = 0

/-- An entry keeps the rules of R185, R333 and R334. -/
def entryGood (e : List Byte) : Bool :=
  let remote := decide (refSpace (deDst e) = 3)
  addrOk (deSrc e) && addrOk (deDst e) && addrOk (deSig e) && refSpace (deSrc e) ≠ 3 && deLen e % 64 = 0 &&
    (e.drop 34).all (fun b => b = 0) &&
    (if remote then deLane e / 8 = 0 && decide (2 ≤ deLane e ∧ deLane e ≤ 4) && [0, 1, 2, 3, 4, 5, 6, 7, 8, 15].contains (dePath e) &&
        decide (deLen e ≤ 268435456)
      else deLane e = 0 && dePath e = 0 && refSpace (deSig e) ≠ 3)

/-- A local signal word is written: the value, or bit 63, the error and the value (R334). -/
def signalWord (h p sig err value : Nat) : Act Unit := do
  let v := if err = 0 then value else 2 ^ 63 + err * 2 ^ 40 + value
  let _ ← spWrite (hubSrc h 3) p (refSpace sig) (refAddr sig) (leBytes 8 v)

/-- An entry ends with an error; a remote signal is never written for it. -/
def entryError (h p : Nat) (e : List Byte) (err : Nat) : Act Unit := do
  if refSpace (deSig e) ≠ 3 then signalWord h p (deSig e) err (deVal e)

/-! ## Sending (R334) -/

/-- The path of an entry: a plane's port or a board position, none where no port is usable (error 0x04). -/
def State.putVia (s : State) (path dst : Nat) : Option Nat :=
  if path = 8 then
    match s.posOfFabric dst with
    | some pos => if pos ≠ s.boardPos ∧ s.portState (boardLink s.boardPos pos) ≠ 4 then some (16 + pos) else none
    | none => none
  else if path = 15 then
    match s.autoPort dst with
    | some (.inl k) => some k
    | some (.inr pos) => some (16 + pos)
    | none => none
  else if s.portState path ≠ 4 then some path else none

/-- The port a path leaves by. -/
def State.viaPort (s : State) (via : Nat) : Nat := if via < 16 then via else boardLink s.boardPos (via - 16)

/-- Hand a packet of an entry to its path; beyond one hop it travels on VL5 (R335). -/
def putSend (p via vl : Nat) (pkt : List Byte) : Act Unit := do
  let s ← Act.get
  let k := s.viaPort via
  if via < 16 ∨ boardHops s.boardPos (via - 16) ≤ 1 then sendFor p k vl pkt
  else sendFor p k 5 pkt

/-- The packets of an entry: runs of at most 4,096 B in address order with tag and index, then one PUT_END. -/
def putPackets (own key dst flags tag : Nat) (place : Nat) (sig value : Nat) (data : List Byte) : List (List Byte) :=
  let n := (data.length + 4095) / 4096
  (List.range n).map (fun i => mkPacket dst own 0x20 flags key (place + 4096 * i) (tag * 65536 + i) ((data.drop (4096 * i)).take 4096)) ++
    [mkPacket dst own 0x21 flags key sig (tag * 65536 + n % 65536) (leBytes 8 value)]

/-- The lowest tag no entry of the package uses. -/
def State.freeTag (s : State) : Nat :=
  ((List.range (s.fab.puts.length + 1)).find? (fun t => !s.fab.puts.any (fun x => x.tag = t))).getD 0

/-- Start an entry with a remote destination. -/
def putStart (h p : Nat) (e data : List Byte) : Act Unit := do
  let s ← Act.get
  let dst := remoteFabric (deDst e)
  match s.putVia (dePath e) dst with
  | none => entryError h p e 4
  | some via =>
    let tag := s.freeTag
    let far := decide (16 ≤ via) && decide (1 < boardHops s.boardPos (via - 16))
    let rsig := if refSpace (deSig e) = 3 then remotePlace (deSig e) else 0
    let pkts := putPackets s.ownFabric (s.partKey p) dst (if far then deLane e * 32 else 0) tag (remotePlace (deDst e)) rsig
      (deVal e) data
    modFab (fun x => { x with puts := x.puts ++ [{
      hub := h, tag := tag, part := p, via := via, vl := deLane e, dst := dst
      sig := if refSpace (deSig e) = 3 then none else some (deSig e)
      value := deVal e, pkts := pkts, tries := 0, sentAt := s.now }] })
    for k in pkts do putSend p via (deLane e) k

/-- The DMA rings of a hub with work, ascending (R185). -/
def State.dmaRing (s : State) (h : Nat) : Option Nat :=
  (s.hubRings h).find? (fun r => s.ringUp r && s.pageServes (pageBase .req 0) && s.ringType r = 4 && decide (s.ringConsumer r ≠ s.ringProducer r))

/-- DMA_ENTRY (R185, R333, R334): the copy engine of hub `h` takes the next entry of its lowest DMA ring with work. It takes
none while a local copy is in hand, nor a remote entry while 64 await their PUT_DONE. -/
def dmaEntry (h : Nat) : Act Unit := do
  ringsSound h
  let s ← Act.get
  if s.fab.copies.any (fun c => c.hub = h) then return
  match s.dmaRing h with
  | none => skip
  | some ring =>
    match s.ringOwner ring with
    | none => skip
    | some p =>
      match ← ringRead 3 ring (s.ringConsumer ring) with
      | .error _ =>
        ringSet ring 2 F.RING.consumer (s.ringConsumer ring + 1)
      | .ok e =>
        let remote := decide (refSpace (deDst e) = 3)
        if remote ∧ 64 ≤ (s.fab.puts.filter (fun x => x.hub = h)).length then return
        ringSet ring 2 F.RING.consumer (s.ringConsumer ring + 1)
        if !entryGood e then entryError h p e 1
        else if s.touchesProtected p (refSpace (deSrc e)) (refAddr (deSrc e)) (deLen e) &&
            (remote || !s.insideProtected p (refSpace (deDst e)) (refAddr (deDst e)) (deLen e)) then
          vlog 1 (refAddr (deSrc e)) (errInfo { source := hubSrc h 3, hay := false, part := some p } 1 4)
          entryError h p e 2
        else
          match ← spRead (hubSrc h 3) p (refSpace (deSrc e)) (refAddr (deSrc e)) (deLen e) with
          | .error _ => entryError h p e 2
          | .ok data =>
            if remote then putStart h p e data
            else
              match ← spWrite (hubSrc h 3) p (refSpace (deDst e)) (refAddr (deDst e)) data with
              | some _ => entryError h p e 2
              | none => modFab (fun x => { x with copies := x.copies ++ [{ hub := h, part := p, sig := deSig e, value := deVal e }] })

/-- DMA_ENTRY_DONE (R185): the local copy in hand on a hub completes and its signal value is written. -/
def dmaDone (h : Nat) : Act Unit := do
  let s ← Act.get
  match s.fab.copies.find? (fun c => c.hub = h) with
  | none => skip
  | some c =>
    modFab (fun x => { x with copies := x.copies.erase c })
    signalWord h c.part c.sig 0 c.value

/-! ## Receiving (R334) -/

/-- Where a remote place lies here: space and address. -/
def placeHere (a : Nat) : Nat × Nat := (bits a 47 46, bits a 39 0)

/-- Write at a remote place for a packet's partition; answers whether the translation was refused. -/
def placeWrite (port p a : Nat) (bs : List Byte) : Act Bool := do
  let (sp, ad) := placeHere a
  return (← spWrite (portSrc port) p sp ad bs).isSome

/-- PUT (R334): the packet is written as it arrives and its tag tracked, in a table of 1,024; a new tag beyond it is
discarded. -/
def putPacket (r : RxPacket) : Act Unit :=
  onPacket r [0x20] (fun q => do
    match q with
    | none => skip
    | some p =>
      let s ← Act.get
      let tag := pkArg1 r.bytes / 65536
      let ix := pkArg1 r.bytes % 65536
      let mine (x : PutIn) : Bool := x.src = pkSrc r.bytes && x.part = p && x.tag = tag
      if s.fab.takes.any mine || decide (s.fab.takes.length < 1024) then
        let refused ← placeWrite r.port p (pkArg0 r.bytes) (pkBody r.bytes)
        let fresh : PutIn := { src := pkSrc r.bytes, part := p, tag := tag, got := [ix], refused := refused }
        let again (y : PutIn) : PutIn :=
          { y with got := if y.got.contains ix then y.got else y.got ++ [ix], refused := y.refused || refused }
        let takes := if s.fab.takes.any mine then s.fab.takes.map (fun y => if mine y then again y else y)
          else s.fab.takes ++ [fresh]
        modFab (fun x => { x with takes := takes }))

/-- Answer over the way a packet came. -/
def replyTo (r : RxPacket) (p type arg0 arg1 : Nat) (body : List Byte) : Act Unit := do
  let s ← Act.get
  let vl := if r.vl.val = 5 then pkInner r.bytes else r.vl.val
  if r.port.val < 8 then sendFab p r.port vl (pkSrc r.bytes) type arg0 arg1 body
  else
    match s.posOfFabric (pkSrc r.bytes) with
    | some pos => sendBoard p vl pos (pkSrc r.bytes) type arg0 arg1 body
    | none => skip

/-- PUT_END (R334): answered with written after the signal, resend or refused. -/
def putEnd (r : RxPacket) : Act Unit :=
  onPacket r [0x21] (fun q => do
    match q with
    | none => skip
    | some p =>
      let s ← Act.get
      let tag := pkArg1 r.bytes / 65536
      let n := pkArg1 r.bytes % 65536
      let mine (x : PutIn) : Bool := x.src = pkSrc r.bytes && x.part = p && x.tag = tag
      let rec_ := s.fab.takes.find? mine
      let got := match rec_ with
        | some x => x.got
        | none => []
      let need := if n = 0 ∧ got ≠ [] then 65536 else n
      let spoiled := match rec_ with
        | some x => x.refused
        | none => false
      if spoiled then
        modFab (fun x => { x with takes := x.takes.filter (fun y => !mine y) })
        replyTo r p 0x22 0 (tag * 65536 + 2) []
      else if need ≤ (got.filter (fun i => decide (i < need))).length then
        modFab (fun x => { x with takes := x.takes.filter (fun y => !mine y) })
        let refused ← (if pkArg0 r.bytes = 0 then pure false else placeWrite r.port p (pkArg0 r.bytes) (bytesAt (pkBody r.bytes) 0 8))
        replyTo r p 0x22 0 (tag * 65536 + (if refused then 2 else 0)) []
      else replyTo r p 0x22 0 (tag * 65536 + 1) [])

/-- An entry awaiting its answer is done with. -/
def putFinish (x : PutOut) (err : Nat) : Act Unit := do
  modFab (fun y => { y with puts := y.puts.filter (fun z => z.tag ≠ x.tag) })
  match x.sig with
  | some a => signalWord x.hub x.part a err x.value
  | none => skip

/-- Send an entry again under the same tag, up to three times (R334). -/
def putAgain (x : PutOut) : Act Unit := do
  let s ← Act.get
  if 3 ≤ x.tries then putFinish x 3
  else
    modFab (fun y => { y with puts := y.puts.map (fun z => if z.tag = x.tag then { z with tries := z.tries + 1, sentAt := s.now } else z) })
    count (C.PUT_RESEND (s.viaPort x.via)) 1
    for k in x.pkts do putSend x.part x.via x.vl k

/-- PUT_DONE (R334). -/
def putDone (r : RxPacket) : Act Unit :=
  onPacket r [0x22] (fun q => do
    match q with
    | none => skip
    | some p =>
      let s ← Act.get
      match s.fab.puts.find? (fun x => x.tag = pkArg1 r.bytes / 65536 && x.part = p && x.dst = pkSrc r.bytes) with
      | none => skip
      | some x => match pkArg1 r.bytes % 4 with
        | 0 => putFinish x 0
        | 1 => putAgain x
        | 2 => putFinish x 2
        | _ => skip)

/-- PUT_TIMEOUT (R334): no PUT_DONE for an entry within put_timeout. -/
def putTimeout (tag : Nat) : Act Unit := do
  let s ← Act.get
  match s.fab.puts.find? (fun x => x.tag = tag) with
  | none => skip
  | some x => if x.sentAt + s.fldOf R.FAB_PUT_CFG F.FAB_PUT_CFG.put_timeout_us * 1000 ≤ s.now then putAgain x

end Sys2Proof.Machine
end

