-- ==== Sys2Proof/Machine/Board.lean ====
section
/-! DEFINITION. Board address space (R339, R340): the loads and stores of control cores to another package, and their
service. Where the spec is open: DEDUCED 79 and 173 of the assumption log. -/

namespace Sys2Proof.Machine

/-- The package an address names, and the place in it: space (0 hub SRAM, 1 GDDR7, 2 tile SRAM) and address; none in
reserved space (R339). -/
def boardWindow (a : Nat) : Nat := bits a 44 41
def boardPlace (a : Nat) : Option (Nat × Nat) :=
  if !bit a 40 then some (1, bits a 39 0)
  else if bits a 39 32 = 0 then some (2, bits a 31 0)
  else if bits a 39 32 = 1 ∧ bits a 31 26 = 0 then some (0, bits a 25 0)
  else none

/-- A partition is in board address mode (R338, R340). -/
def State.boardMode (s : State) (p : Nat) : Bool := bit (s.fldOf R.BMS_ADDR_MODE F.BMS_ADDR_MODE.board_mode) p

/-- The access is one of the widths, aligned. -/
def boardWidthOk (a size : Nat) : Bool := [1, 2, 4, 8].contains size && a % size = 0

/-- The target's checks in the order of R340; none where the access is served. -/
def State.boardRefusal (s : State) (part : Option Nat) (a size : Nat) (write : Bool) : Option Nat :=
  if !boardWidthOk a size then some 0x04
  else match boardPlace a, part with
    | none, _ => some 0x06
    | some _, none => some 0x02
    | some (sp, ad), some p =>
      if !s.boardMode p then some 0x02
      else match s.refReason p sp ad size write with
        | some 0x04 => some 0x04
        | some _ => some 0x06
        | none =>
          if sp = 1 ∧ s.touchesSealed p ad size then some 0x04
          else if sp = 2 ∧ !write ∧ s.touchesProtected p sp ad size then some 0x04
          else none

/-- A refused board access faults its core; it is logged on the page it left by (R340). -/
def boardFault (core part page a : Nat) (write : Bool) (reason : Nat) : Act Unit := do
  recordAs 1 page a { source := core, hay := false, part := some part } (if write then 2 else 1) reason
  count (page + 0x980) 1
  send (.error core reason)

/-- The access is made for its partition: the bytes of a load, or the error the memory gives. -/
def boardDo (src part a size : Nat) (write : Bool) (bs : List Byte) : Act (Except Nat (List Byte)) := do
  match boardPlace a with
  | none => return .error 0x06
  | some (sp, ad) =>
    if write then
      match ← spWrite src part sp ad bs with
      | some e => return .error e
      | none => return .ok []
    else spRead src part sp ad size

/-- BOARD_LOAD and BOARD_STORE (R339, R340) of a core at board address `a`: the own window is served here; another goes out
as a BLD or BST and waits for its BRSP. A core outside board address mode has nothing mapped there. -/
def boardAccess (core a size : Nat) (atomic write : Bool) (value : Nat) : Act Unit := do
  let s ← Act.get
  let i := s.coreIssuer core
  match i.part with
  | none => vlog 1 a (errInfo i (if write then 2 else 1) 0x06); send (.error core 0x06)
  | some p =>
    if !s.boardMode p then
      vlog 1 a (errInfo i (if write then 2 else 1) 0x06)
      count (C.PRT_CNT_ACCESS_REFUSED p) 1
      send (.error core 0x06)
    else
      let pos := boardWindow a
      let w := s.reg (R.BMS_POS pos)
      let here := decide (pos = s.boardPos)
      let page := if here then pageBase .bms 0 else portPage (boardLink s.boardPos pos)
      if atomic || !boardWidthOk a size then boardFault core p page a write 0x04
      else if here then
        match s.boardRefusal (some p) a size write with
        | some e => boardFault core p page a write e
        | none =>
          match ← boardDo core p a size write (leBytes size value) with
          | .error e => boardFault core p page a write e
          | .ok bs => if !write then send (.data core bs)
      else if getFld w F.BMS_POS.valid = 0 ∨ boardPlace a = none then boardFault core p page a write 0x06
      else
        let dst := getFld w F.BMS_POS.fabric
        modFab (fun x => { x with board := x.board ++
          [{ core := core, part := p, dst := dst, page := page, addr := a, write := write }] })
        sendBoard p 2 pos dst (if write then 0x29 else 0x28) a size (if write then leBytes size value else [])

/-- A BRSP to a request, with the request's key, over the board (R330). -/
def boardReply (r : RxPacket) (part : Option Nat) (reason : Nat) (body : List Byte) : Act Unit := do
  let s ← Act.get
  match s.posOfFabric (pkSrc r.bytes) with
  | none => skip
  | some pos =>
    let far := decide (1 < boardHops s.boardPos pos)
    sendFor (part.getD 32) (boardLink s.boardPos pos) (if far then 5 else 2)
      (mkPacket (pkSrc r.bytes) s.ownFabric 0x2A (if far then 2 * 32 else 0) (pkKey r.bytes) 0 reason body)

/-- A board access that is refused because it would reach plaintext weights, a refusal the violation log takes (R305). -/
def State.boardShut (s : State) (part : Option Nat) (a size : Nat) (write : Bool) : Bool :=
  match boardPlace a, part with
  | some (sp, ad), some p => boardWidthOk a size && s.boardMode p && (s.refReason p sp ad size write).isNone &&
      (if sp = 1 then s.touchesSealed p ad size else sp = 2 && !write && s.touchesProtected p sp ad size)
  | _, _ => false

/-- A BLD or BST arrives (R331, R340): unlike other packets, one whose key no local partition holds is answered, with reason
0x02. -/
def boardServe (type : Nat) (write : Bool) (r : RxPacket) : Act Unit := do
  let s ← Act.get
  if s.portState r.port ≠ 2 && s.portState r.port ≠ 3 then return
  if s.checkPacket r = .transit then sendOn r
  else if !pkGood r.bytes then
    takePacket r
    dropPacket r .badCrc
  else if pkDst r.bytes ≠ s.ownFabric ∨ !pkDefined (pkType r.bytes) then
    takePacket r
    dropPacket r (.drop false)
  else if pkType r.bytes = type then
    takePacket r
    let part := s.partOfKey (pkKey r.bytes)
    let a := pkArg0 r.bytes
    let size := pkArg1 r.bytes % 16
    match s.boardRefusal part a size write with
    | some e =>
      if s.boardShut part a size write then
        vlog 1 a (errInfo { source := portSrc r.port, hay := false, part := part } (if write then 2 else 1) e)
      boardReply r part e []
    | none =>
      match ← boardDo (portSrc r.port) (part.getD 0) a size write (bytesAt (pkBody r.bytes) 0 size) with
      | .error e => boardReply r part e []
      | .ok bs => boardReply r part 0 bs

/-- BRSP (R340): it answers the oldest access to its sender, completing it or faulting its core. -/
def boardAnswer (r : RxPacket) : Act Unit :=
  onPacket r [0x2A] (fun q => do
    let s ← Act.get
    match s.fab.board.find? (fun x => x.dst = pkSrc r.bytes && some x.part = q) with
    | none => skip
    | some x =>
      modFab (fun y => { y with board := y.board.erase x })
      let reason := pkArg1 r.bytes % 256
      if reason ≠ 0 then boardFault x.core x.part x.page x.addr x.write reason
      else if !x.write then send (.data x.core (pkBody r.bytes)))

end Sys2Proof.Machine
end

