-- ==== Sys2Proof/Machine/Fail.lean ====
section
/-! DEFINITION. The failure of the package (R440). Where the spec is open: DEDUCED 103 and 168, DESIGN CHOICE 83 of the
assumption log. -/

namespace Sys2Proof.Machine

/-- The package is failed: it holds its unpublished publications for good, quenches every partition, pulls FAULT_L low and
reports over the management port (R440, R478). The form of the report is open, and with it its length (DESIGN CHOICE 83). -/
def pkgFail : Act Unit := do
  if !(← rd State.pkgFailed) then
    stW pkgFailedKey 1
    for p in List.range 32 do
      if ← rd (fun s => s.partValid p) then quenchPart p 0
    lowFault
    mgtSend (← freshBelow (2 ^ 14)) .failed

/-- The switch fabric ports are all FAILED (R332, R440). -/
def portsCheck : Act Unit := do
  if ← rd (fun s => (List.range 8).all (fun k => s.portState k = 4)) then pkgFail

end Sys2Proof.Machine
end

