-- ==== Sys2Proof/Machine/Flash.lean ====
section
/-! DEFINITION. Placement descriptors (R238) and the flash tier: namespaces and the map (R271, R272), commands (R273 to
R276), writing (R277), decoding (R278, R279), refresh, relocation and wear (R281 to R284), the write credit (R285),
exhaustion (R287) and the map's persistence (R288). Where the spec is open: DEDUCED 86, 87, 135 and 170, DESIGN CHOICE 24,
85, 152, 153, 154, 155, 169 and 184 of the assumption log. -/

namespace Sys2Proof.Machine

/-! ## Placement descriptors (R238) -/

def obKind (d : List Byte) : Nat := bits (numAt d 0 1) 7 4
def obTier (d : List Byte) : Nat := bits (numAt d 0 1) 3 2
def obInterleave (d : List Byte) : Nat := bits (numAt d 0 1) 1 0
def obComp (d : List Byte) : Nat := bits (numAt d 1 1) 7 4
def obPolicy (d : List Byte) : Nat := bits (numAt d 1 1) 3 2
def obOwner (d : List Byte) : Nat := bits (numAt d 2 1) 4 0
def obBase (d : List Byte) : Nat := numAt d 4 8 % 2 ^ 48
def obLength (d : List Byte) : Nat := numAt d 12 8 % 2 ^ 48
def obLower (d : List Byte) : Nat := numAt d 20 8 % 2 ^ 48

/-- A reader takes a descriptor: its check holds, its reserved fields are 0, it is the partition's, and a GDDR7 home's
granules have its width. -/
def State.obGood (s : State) (p : Nat) (d : List Byte) : Bool :=
  crc8 (d.take 31) = numAt d 31 1 && obKind d ≤ 5 && obTier d ≤ 2 && obComp d ≤ 2 && obPolicy d ≤ 2 &&
    bits (numAt d 1 1) 1 0 = 0 && bits (numAt d 2 1) 7 5 = 0 && numAt d 3 1 = 0 && numAt d 4 8 / 2 ^ 48 = 0 &&
    numAt d 12 8 / 2 ^ 48 = 0 && numAt d 20 8 / 2 ^ 48 = 0 && numAt d 28 3 = 0 && obOwner d = p &&
    (obTier d ≠ 1 || obLength d = 0 ||
      (List.range ((obBase d + obLength d - 1) / 2 ^ 30 + 1 - obBase d / 2 ^ 30)).all (fun i =>
        match s.granule p ((obBase d / 2 ^ 30 + i) * 2 ^ 30) with
        | some e => getFld e F.GMAP.width = obInterleave d
        | none => false))

/-- Read the descriptor a 64-bit reference names, for an engine; none where it is refused. -/
def readPlace (src p ref : Nat) : Act (Option (List Byte)) := do
  if 2 ≤ refSpace ref ∨ ref / 2 ^ 50 ≠ 0 then return none
  match ← spRead src p (refSpace ref) (refAddr ref) 32 with
  | .error _ => return none
  | .ok d => return (if ← rd (fun s => s.obGood p d) then some d else none)

/-! ## Geometry, namespaces and the map -/

/-- The flash engine as a requester (R17). -/
def flashSrc : Nat := 0x4002

def flMapKey (unit : Nat) : Nat := tabKey 21 unit
/-- A read reference of an age bin of a LUN, as write points number them (R280). -/
def flRefKey (w bin : Nat) : Nat := tabKey 39 (w * 8 + bin)
def flBlkKey (b : Nat) : Nat := tabKey 22 b
def flWpKey (w : Nat) : Nat := tabKey 23 w
def flWpBlkKey (w plane : Nat) : Nat := tabKey 24 (w * 4 + plane)
def flCwKey (unit i : Nat) : Nat := tabKey 25 (unit * 16 + i)
/-- When a partition's credit last grew (R285). -/
def flCreditKey (n : Nat) : Nat := tabKey 26 n
/-- What of that growth was less than a byte. -/
def flCreditRestKey (n : Nat) : Nat := tabKey 26 (32 + n)
/-- 1 where a namespace is treated as invalid (R272). -/
def nsBadKey (n : Nat) : Nat := tabKey 27 n
def flSeqKey (chan : Nat) : Nat := tabKey 28 chan

/-- The byte store place of a codeword in its page: 4,096 bytes of data, 16 of metadata, 496 of parity (R270). -/
def flashKey (pca : Nat) : Nat := 2 ^ 64 + pca / 16 * 2 ^ 15 + pca % 4 * 4608

def pcaChan (p : Nat) : Nat := bits p 47 44
def pcaBlock (p : Nat) : Nat := p / 2 ^ 20
def pcaPage (p : Nat) : Nat := p / 16
def blkChan (b : Nat) : Nat := bits b 27 24

def State.flTargets (s : State) (c : Nat) : Nat := s.fldOf (R.FLC_CH_CFG c) F.FLC_CH_CFG.targets
def State.flPlanes (s : State) (c : Nat) : Nat := 2 ^ s.fldOf (R.FLC_CH_CFG c) F.FLC_CH_CFG.planes
def State.flState (s : State) (c : Nat) : Nat := s.fldOf (R.FLC_CH_STATE c) F.FLC_CH_STATE.state

/-- The populated channels (R269, R272). -/
def State.flChans (s : State) : List Nat := (List.range 16).filter (fun c => s.flTargets c ≠ 0)

/-- The channel a unit lies on (R272). -/
def State.unitChan (s : State) (u : Nat) : Nat := let l := s.flChans; l.getD (u % l.length) 0

/-- The write points of a channel: target and LUN. -/
def State.flLuns (s : State) (c : Nat) : List (Nat × Nat) :=
  (setBitList 8 (s.flTargets c)).flatMap (fun t => (List.range (s.fldOf (R.FLC_CH_CFG c) F.FLC_CH_CFG.luns + 1)).map (fun l => (t, l)))

/-- A write point's number: channel, target, LUN. -/
def wpNo (c t l : Nat) : Nat := c * 64 + t * 8 + l

/-- A namespace in use: first unit and how many (R272). -/
def State.nsOf (s : State) (p : Nat) : Option (Nat × Nat) :=
  let w := s.reg (R.FLC_NS p)
  if getFld w F.FLC_NS.valid = 1 ∧ s.wordAt (nsBadKey p) = 0 then
    some (getFld w F.FLC_NS.base * 16384, getFld w F.FLC_NS.size * 16384)
  else none

/-- The partition whose namespace holds a unit. -/
def State.unitOwner (s : State) (u : Nat) : Option Nat :=
  (List.range 32).find? (fun p => match s.nsOf p with
    | some (b, n) => decide (b ≤ u ∧ u < b + n)
    | none => false)

def modFlash (f : FlashX → FlashX) : Act Unit := do Act.upd (.flash (f (← rd (fun s => s.flash))))

/-- The record of a channel. -/
def State.flChan (s : State) (c : Nat) : FlChan := storeGet (fun _ => {}) s.flash.chans c
def modFlChan (c : Nat) (f : FlChan → FlChan) : Act Unit :=
  modFlash (fun x => { x with chans := storePut (fun _ => {}) x.chans c (f (storeGet (fun _ => {}) x.chans c)) })

/-- Where a byte of the map region lies in GDDR7 (R272): its slices are laid out as a granule's are (R240, R241). -/
def State.mapPlace (s : State) (o : Nat) : Option GLoc :=
  let r := s.reg R.FLC_MAP_CFG
  let width := getFld r F.FLC_MAP_CFG.width
  let n := widthSites width
  if getFld r F.FLC_MAP_CFG.slices * n * 2 ^ 26 ≤ o then none
  else some { pos := (groupPositions width (getFld r F.FLC_MAP_CFG.place)).getD (o / 256 % n) 0
              off := getFld r F.FLC_MAP_CFG.slice * 2 ^ 26 + o / 256 / n * 256 + o % 256, spread := width = 3 }

/-- Write eight bytes of the map region; what lies past its end is nowhere. -/
def mapStore (o v : Nat) : Act Unit := do
  match ← rd (fun s => s.mapPlace o) with
  | some l => let _ ← gWritePiece l (leBytes 8 v)
  | none => skip

/-- A unit's map entry as its lookup reads it from GDDR7; none where the site that holds it does not answer (R272). -/
def State.flEntry (s : State) (u : Nat) : Option Nat :=
  match s.mapPlace (8 * u) with
  | none => some 0
  | some l =>
    if s.coverServes l || s.siteServes (s.siteOfPos l.pos) then
      some (leNat ((List.range 8).map (fun i => s.siteByte (s.reach l).1 ((s.reach l).2 + i))))
    else none

/-- The addresses of a unit's codewords by its map entry, none while it is unmapped; those after the first follow in write order
(R271, R272). -/
def State.unitPcas (s : State) (u : Nat) : Option (List Nat) :=
  match s.flEntry u with
  | none => none
  | some e =>
    if bit e 63 then
      some ((List.range (bits e 62 59 + 1)).map (fun i => if i = 0 then bits e 47 0 else (s.wordAt (flCwKey u i)).toNat - 1))
    else none

/-- A map entry, as FLC_MAP_CFG's region holds it (R272). -/
def mapWord (pcas : List Nat) : Nat := if pcas = [] then 0 else 2 ^ 63 + (pcas.length - 1) * 2 ^ 59 + pcas.getD 0 0

/-- A map entry changes: in the map region, and in what the map log and the checkpoints say (R272, R288). The blocks the unit
leaves may come to be erased (R282). -/
def mapUnit (u : Nat) (pcas : List Nat) : Act Unit := do
  let was := ((← rd (fun s => s.unitPcas u)).getD []).map pcaBlock
  modFlash (fun x => { x with sources := x.sources ++ was.eraseDups.filter (fun b => !x.sources.contains b) })
  mapStore (8 * u) (mapWord pcas)
  stW (flMapKey u) (mapWord pcas)
  for i in List.range 16 do stW (flCwKey u i) (if i < pcas.length then pcas.getD i 0 + 1 else 0)

/-- A change of the map that does not wait for its record: a unit is unmapped, and the record follows (R274, R288). -/
def unmapUnit (u : Nat) : Act Unit := do
  mapUnit u []
  modFlash (fun x => { x with logq := x.logq ++ [{ unit := u, pcas := [], cmd := none, old := none, late := false }] })

/-! ## Blocks: [31:0] erase count, [33:32] 0 free, 1 written or open, 2 bad -/

def State.blkErases (s : State) (b : Nat) : Nat := bits (s.wordAt (flBlkKey b)).toNat 31 0
def State.blkState (s : State) (b : Nat) : Nat := bits (s.wordAt (flBlkKey b)).toNat 33 32
def setBlk (b st er : Nat) : Act Unit := stW (flBlkKey b) (st * 2 ^ 32 + er)

/-- The block numbers of a LUN's plane. -/
def State.planeBlocks (s : State) (c t l plane : Nat) : List Nat :=
  (List.range s.record.flashBlocks).map (fun n => c * 2 ^ 24 + t * 2 ^ 21 + l * 2 ^ 18 + plane * 2 ^ 16 + n)

/-- Every block of a channel. -/
def State.chanBlocks (s : State) (c : Nat) : List Nat :=
  (s.flLuns c).flatMap (fun e => (List.range (s.flPlanes c)).flatMap (fun pl => s.planeBlocks c e.1 e.2 pl))

/-- The block of a list with the lowest (or the highest) erase count, the first of equals. -/
def State.leastWorn (s : State) (l : List Nat) : Option Nat :=
  l.foldl (fun m b => match m with
    | none => some b
    | some a => if s.blkErases b < s.blkErases a then some b else some a) none
def State.mostWorn (s : State) (l : List Nat) : Option Nat :=
  l.foldl (fun m b => match m with
    | none => some b
    | some a => if s.blkErases a < s.blkErases b then some b else some a) none

/-- The units with a codeword in a block. -/
def State.blkUnits (s : State) (b : Nat) : List Nat :=
  ((s.tab.filter (fun e => decide (flCwKey 0 0 ≤ e.1 ∧ e.1 < tabKey 26 0) && decide (pcaBlock (e.2.toNat - 1) = b))).map
    (fun e => (e.1 - flCwKey 0 0) / 16)).eraseDups

/-- A free block is taken into use. -/
def takeBlk (b : Nat) : Act Unit := do
  setBlk b 1 (← rd (fun s => s.blkErases b))
  addF (R.FLC_CH_BLOCKS (blkChan b)) F.FLC_CH_BLOCKS.free (2 ^ 32 - 1)

/-- FLC_CH_WEAR of a channel follows the erase counts of its blocks. -/
def showWear (c : Nat) : Act Unit := do
  let s ← Act.get
  let l := (s.chanBlocks c).map (fun k => s.blkErases k)
  wrF (R.FLC_CH_WEAR c) F.FLC_CH_WEAR.mean_erase (l.foldl (· + ·) 0 / max l.length 1)
  wrF (R.FLC_CH_WEAR c) F.FLC_CH_WEAR.max_erase (l.foldl max 0)

/-- FLC_CH_BLOCKS and FLC_CH_WEAR of a channel at the bring-up (R289). -/
def showBlocks (c : Nat) : Act Unit := do
  let s ← Act.get
  let l := s.chanBlocks c
  wrF (R.FLC_CH_BLOCKS c) F.FLC_CH_BLOCKS.free (l.filter (fun b => s.blkState b = 0)).length
  wrF (R.FLC_CH_BLOCKS c) F.FLC_CH_BLOCKS.bad (l.filter (fun b => s.blkState b = 2)).length
  showWear c

/-- A block is erased (R283). -/
def eraseBlk (b : Nat) : Act Unit := do
  let n ← rd (fun s => s.blkErases b)
  setBlk b 0 (n + 1)
  Act.upd (.clearMem (flashKey (b * 2 ^ 20)) (flashKey ((b + 1) * 2 ^ 20)))
  modFlash (fun x => { x with prog := storeClear x.prog (b * 2 ^ 16) ((b + 1) * 2 ^ 16) })
  addF (R.FLC_CH_BLOCKS (blkChan b)) F.FLC_CH_BLOCKS.free 1
  count (C.FLC_CNT_ERASES (blkChan b)) 1
  showWear (blkChan b)

/-- Some of a block's pages are still to be programmed: a write point or wear levelling holds it (R271, R283). -/
def State.blkOpen (s : State) (b : Nat) : Bool :=
  s.tab.any (fun e => decide (flWpBlkKey 0 0 ≤ e.1 ∧ e.1 < tabKey 25 0) && decide (e.2.toNat = b + 1)) ||
    (match (s.flChan (blkChan b)).wear with
      | some w => w.1 = b
      | none => false)

/-- A codeword in a block is of use beside the map: a read in hand looked it up, it waits for its program or its map update, or it
is of the map log, of the checkpoint or of the bad-block table (R277, R282, R284, R288). -/
def State.blkRead (s : State) (b : Nat) : Bool :=
  let at_ (l : List Nat) : Bool := l.any (fun a => pcaBlock a = b)
  s.flash.cmds.any (fun c => c.op = 1 && c.status.isNone && at_ c.pcas) ||
    s.flash.buf.any (fun d => pcaBlock d.pca = b || at_ d.pcas || d.recs.any (fun r => at_ r.pcas)) ||
    s.flash.logq.any (fun r => at_ r.pcas) || at_ s.flash.logCws || at_ s.flash.ckpt || at_ s.flash.badCws

/-- Blocks that units have left are erased once nothing valid is in them, no read looked up an address there, and their channel's
window is closed (R280, R282). -/
def reclaim : Act Unit := do
  for b in ← rd (fun s => s.flash.sources) do
    let s ← Act.get
    if s.blkState b ≠ 1 then modFlash (fun x => { x with sources := x.sources.erase b })
    else if s.flState (blkChan b) = 2 ∧ s.blkUnits b = [] ∧ !s.blkRead b ∧ !s.blkOpen b then
      modFlash (fun x => { x with sources := x.sources.erase b })
      eraseBlk b

/-! ## Write points (R271, R283): [1:0] codeword, [3:2] plane, [31:4] page -/

/-- Move a write point on past a page: the same page on the next plane, then the next page. -/
def wpNextPage (w planes pages : Nat) (at_ : Nat) : Act Nat := do
  let plane := at_ / 4 % 4
  let page := at_ / 16
  if plane + 1 < planes then return (plane + 1) * 4 + page * 16
  if page + 1 < pages then return (page + 1) * 16
  for pl in List.range 4 do stW (flWpBlkKey w pl) 0
  return 0

/-- The next codeword address of a write point; none where no block is free. -/
def wpTake (c t l : Nat) : Act (Option Nat) := do
  let s ← Act.get
  let w := wpNo c t l
  let pos := (s.wordAt (flWpKey w)).toNat
  let plane := pos / 4 % 4
  let held := (s.wordAt (flWpBlkKey w plane)).toNat
  let blk := if held ≠ 0 then some (held - 1)
    else s.leastWorn ((s.planeBlocks c t l plane).filter (fun b => s.blkState b = 0))
  match blk with
  | none => return none
  | some b =>
    if held = 0 then
      takeBlk b
      stW (flWpBlkKey w plane) (b + 1)
    let pca := b * 2 ^ 20 + pos / 16 * 16 + pos % 4
    if pos % 4 < 3 then stW (flWpKey w) (pos + 1)
    else stW (flWpKey w) (← wpNextPage w (s.flPlanes c) s.record.flashPages pos)
    return some pca

/-- Take `n` addresses. -/
def wpTakes (c t l : Nat) : Nat → Act (Option (List Nat))
  | 0 => return some []
  | n + 1 => do
    match ← wpTake c t l with
    | none => return none
    | some a => match ← wpTakes c t l n with
      | none => return none
      | some as => return some (a :: as)

/-- The write point a unit goes to: the LUNs of its channel in turn. -/
def State.unitWp (s : State) (u : Nat) : Nat × Nat × Nat :=
  let c := s.unitChan u
  let e := (s.flLuns c).getD (u / max s.flChans.length 1 % max (s.flLuns c).length 1) (0, 0)
  (c, e.1, e.2)

/-! ## Write credit (R285) -/

/-- One day's worth of a partition's credit. -/
def State.dayCredit (s : State) (p : Nat) : Nat :=
  s.fldOf (R.FLC_BUDGET p) F.FLC_BUDGET.dwpd * (s.fldOf (R.FLC_NS p) F.FLC_NS.size * 2 ^ 30) / 100

/-- A partition's credit grows with fabric time, up to one day's worth; what is less than a byte is kept. -/
def creditGrow (p : Nat) : Act Unit := do
  let s ← Act.get
  let was := (s.wordAt (flCreditKey p)).toNat
  if s.now ≤ was then return
  let day := s.dayCredit p
  let grown := day * (s.now - was) + (s.wordAt (flCreditRestKey p)).toNat
  let c := s.fldOf (R.FLC_BUDGET p) F.FLC_BUDGET.credit + grown / 86400000000000
  wrF (R.FLC_BUDGET p) F.FLC_BUDGET.credit (min day c)
  stW (flCreditKey p) s.now
  stW (flCreditRestKey p) (if day ≤ c then 0 else grown % 86400000000000)

/-- Charge a partition. -/
def creditCharge (p n : Nat) : Act Unit := do
  let c ← rdF (R.FLC_BUDGET p) F.FLC_BUDGET.credit
  wrF (R.FLC_BUDGET p) F.FLC_BUDGET.credit (c - n)

/-! ## Queues (R274, R275, R292) -/

def State.flqTail (s : State) (p : Nat) : Nat := s.fldOf (R.PRT_FLQ_TAIL p) F.PRT_FLQ_TAIL.tail
def State.flqDone (s : State) (p : Nat) : Nat := s.fldOf (R.PRT_FLQ_HEAD p) F.PRT_FLQ_HEAD.done
def State.flqStarted (s : State) (p : Nat) : Nat := s.fldOf (R.PRT_FLQ_HEAD p) F.PRT_FLQ_HEAD.started

/-- The byte address in the hub SRAMs of entry `i` of a partition's queue. -/
def State.flqAddr (s : State) (p i : Nat) : Nat :=
  s.fldOf (R.PRT_FLQ_CFG p) F.PRT_FLQ_CFG.base * 64 + i % max 1 (s.fldOf (R.PRT_FLQ_CFG p) F.PRT_FLQ_CFG.size) * 64

/-- Where entry `i` of a partition's queue stands in the byte store. -/
def State.flqKey (s : State) (p i : Nat) : Nat := 2 ^ 36 + s.flqAddr p i

/-- A tail is refused: it moves backwards or leaves more entries unfinished than the queue holds (R274, R488). -/
def queueTailBad (size done was tail : Nat) : Bool := backwards32 was tail || decide (size < moves32 done tail)

/-- FLQ_TAIL_WRITE (R274). -/
def flqTailWrite (p tail : Nat) : Act (Option Nat) := do
  let s ← Act.get
  if queueTailBad (s.fldOf (R.PRT_FLQ_CFG p) F.PRT_FLQ_CFG.size) (s.flqDone p) (s.flqTail p) tail then return some 4
  wrF (R.PRT_FLQ_TAIL p) F.PRT_FLQ_TAIL.tail tail
  return none

def feOp (e : List Byte) : Nat := numAt e 0 1
def feUnits (e : List Byte) : Nat := numAt e 4 4
def feDesc (e : List Byte) : Nat := numAt e 8 8
def feOffset (e : List Byte) : Nat := numAt e 16 8
def feGaddr (e : List Byte) : Nat := numAt e 24 8

/-- An entry keeps the rules of R274. -/
def feGood (e : List Byte) : Bool :=
  decide (1 ≤ feOp e ∧ feOp e ≤ 3) && bits (numAt e 1 1) 7 1 = 0 && numAt e 3 1 = 0 &&
    decide (1 ≤ feUnits e ∧ feUnits e ≤ 65536) && feOffset e / 2 ^ 48 = 0 && feOffset e % 65536 = 0 &&
    (feOp e = 3 || (feGaddr e / 2 ^ 48 = 0 && feGaddr e % 65536 = 0)) && bits (numAt e 32 4) 21 19 = 0 &&
    (e.drop 40).all (fun b => b = 0)

/-- Replace a running command. -/
def putCmd (c : FlCmd) : Act Unit :=
  modFlash (fun x => { x with cmds := x.cmds.map (fun d => if d.part = c.part ∧ d.idx = c.idx then c else d) })

/-- The command of a partition and index. -/
def State.flCmd (s : State) (p i : Nat) : Option FlCmd := s.flash.cmds.find? (fun c => c.part = p && c.idx = i)

/-- A command ends with a status (R274), once the units it has programmed are in the map (R277). -/
def flEnd (c : FlCmd) (st : Nat) : Act Unit :=
  if c.owed = 0 then putCmd { c with status := some st, pcas := [], todo := [] }
  else putCmd { c with ending := some st, pcas := [], todo := [] }

/-- The running commands as their queues are served: one of each queue in ascending partition order, then the next ones
(R275). -/
def State.flTurns (s : State) : List FlCmd :=
  (List.range s.flash.cmds.length).flatMap (fun r =>
    (List.range 32).filterMap (fun p => (s.flash.cmds.filter (fun c => c.part = p))[r]?))

/-! ## Reading (R276, R278, R279) -/

/-- Codewords of unfinished units move into a channel's receive buffer of 32 while it serves (R278, R280). -/
def flTransfer (chan : Nat) : Act Unit := do
  let s ← Act.get
  let waiting := s.flTurns.filter (fun c => c.status.isNone && c.todo.any (fun a => pcaChan a = chan))
  if waiting.isEmpty ∨ s.flState chan ≠ 2 then return
  let room := 32 - (s.flash.rx.filter (fun w => pcaChan w.pca = chan)).length
  let all := waiting.flatMap (fun c => (c.todo.filter (fun a => pcaChan a = chan)).map (fun a => ({ pca := a, part := c.part, idx := c.idx, failed := false } : FlCw)))
  let now := all.take room
  count (C.FLC_CNT_RD_BYTES chan) (4608 * now.length)
  modFlash (fun x => { x with
    rx := x.rx ++ now
    cmds := x.cmds.map (fun c => { c with
      todo := c.todo.filter (fun a => !now.any (fun w => w.pca = a && w.part = c.part && w.idx = c.idx)) }) })

/-- Rebuild the compressed slot of R248 from a packed unit (R276): runs of offset and bytes. -/
def unpackSlot (bs : List Byte) : List (Nat × List Byte) :=
  let lens := (List.range 16).map (fun k => numAt bs (2 * k) 2)
  (List.range 16).filterMap (fun k =>
    let len := lens.getD k 0
    let off := 32 + (lens.take k).foldl (· + ·) 0
    if len = 0 then none else some (4096 * k, bytesAt (bytesAt bs off len) 0 (roundUp len 64))) ++
    [(0xFFC0, bytesAt (bs.take 32) 0 64)]

/-- Write runs of bytes at a partition's GDDR7 address; answers the reason of the first refusal. -/
def flWriteRuns (p gaddr : Nat) : List (Nat × List Byte) → Act (Option Nat)
  | [] => return none
  | (o, bs) :: rs => do
    match ← gWrite flashSrc p (gaddr + o) bs with
    | some e => return some e
    | none => flWriteRuns p gaddr rs

/-- The status a refused GDDR7 access gives. -/
def flMemStatus (e : Nat) : Nat := if e = 0x10 then 1 else 2

/-- Begin the unit in hand of a READ: it must lie in the namespace and be mapped, on a channel that is not FAILED. -/
def readUnit (c : FlCmd) : Act Unit := do
  let s ← Act.get
  match c.units with
  | [] => flEnd c 0
  | u :: _ =>
    match s.nsOf c.part with
    | none => flEnd c 2
    | some (b, n) =>
      if u < b ∨ b + n ≤ u then flEnd c 2
      else match s.unitPcas u with
        | none => flEnd c (if (s.flEntry u).isNone then 1 else 6)
        | some l =>
          if s.flState (s.unitChan u) = 4 then flEnd c 1
          else
            putCmd { c with pcas := l, todo := l, got := 0 }
            flTransfer (s.unitChan u)

/-- All codewords of a unit are decoded: it goes to GDDR7 and the next unit begins. -/
def unitArrived (c : FlCmd) : Act Unit := do
  let s ← Act.get
  let bs := c.pcas.flatMap (fun a => s.memBytes (flashKey a) 4096)
  let runs := if c.comp = 1 then unpackSlot bs else [(0, bytesAt bs 0 65536)]
  match ← flWriteRuns c.part c.gaddr runs with
  | some e => flEnd c (flMemStatus e)
  | none => readUnit { c with units := c.units.drop 1, gaddr := c.gaddr + 65536, pcas := [], todo := [], got := 0 }

/-- A block goes on the refresh list, once (R281). -/
def refreshDue (b : Nat) : Act Unit :=
  modFlash (fun x => { x with refresh := if x.refresh.contains b then x.refresh else x.refresh ++ [b] })

/-- A channel's decodes since the last tick edge (R281). -/
def noteDecode (c corrected : Nat) : Act Unit :=
  modFlChan c (fun x => { x with bits := x.bits + corrected, words := x.words + 1 })

/-- A codeword is decoded: its command counts it. -/
def cwDecoded (w : FlCw) : Act Unit := do
  match ← rd (fun s => s.flCmd w.part w.idx) with
  | none => skip
  | some c =>
    if c.status.isNone ∧ c.pcas.contains w.pca then
      let d := { c with got := c.got + 1 }
      putCmd d
      if d.got = d.pcas.length then unitArrived d

/-- Codewords of ended commands leave the buffers. -/
def flSweep : Act Unit :=
  modFlash (fun x =>
    let live (w : FlCw) : Bool := x.cmds.any (fun c => c.part = w.part && c.idx = w.idx && c.status.isNone)
    { x with rx := x.rx.filter live, softq := x.softq.filter live })

/-- FLC_CH_STATE.soft_waiting of every channel follows the soft queue. -/
def showSoft : Act Unit := do
  let q ← rd (fun s => s.flash.softq)
  for c in List.range 16 do
    wrF (R.FLC_CH_STATE c) F.FLC_CH_STATE.soft_waiting (q.filter (fun w => pcaChan w.pca = c)).length

/-- Codewords that failed hard decoding move to the soft queue of 16, oldest first (R279). -/
def toSoftQueue : Act Unit := do
  let x ← rd (fun s => s.flash)
  let go := (x.rx.filter (fun w => w.failed)).take (16 - x.softq.length)
  Act.upd (.flash { x with rx := x.rx.filter (fun w => !go.contains w), softq := x.softq ++ go })
  showSoft
  for c in (go.map (fun w => pcaChan w.pca)).eraseDups do flTransfer c

/-- HARD_DECODE (R278, R279): a decoder in hard mode takes the oldest waiting codeword of the next channel in turn; it fails,
or decodes with some corrected bits. -/
def hardDecode (dec : Nat) (fails : Bool) (corrected : Nat) : Act Unit := do
  let s ← Act.get
  if s.flash.soft.any (fun e => e.1 = dec) ∨ !s.pageServes (pageBase .flc (16 + dec)) then return
  let turn := (List.range 16).map (fun i => (s.flash.last + 1 + i) % 16)
  match turn.findSome? (fun c => s.flash.rx.find? (fun w => pcaChan w.pca = c && !w.failed)) with
  | none => skip
  | some w =>
    let c := pcaChan w.pca
    count (C.FLC_DEC_CNT_HARD dec) 1
    modFlash (fun x => { x with last := c })
    if fails then
      count (C.FLC_DEC_CNT_HARD_FAIL dec) 1
      modFlash (fun x => { x with rx := x.rx.map (fun v => if v = w then { v with failed := true } else v) })
      toSoftQueue
    else
      count (C.FLC_CNT_CORR_BITS c) corrected
      noteDecode c corrected
      if (← rdF R.FLC_ENG_CFG F.FLC_ENG_CFG.refresh_bits) < corrected then refreshDue (pcaBlock w.pca)
      modFlash (fun x => { x with rx := x.rx.erase w })
      cwDecoded w
      flSweep
      flTransfer c

/-- FLC_DEC_STATUS of a decoder. -/
def showDec (dec : Nat) (on : Bool) (level chan : Nat) : Act Unit := do
  wrF (R.FLC_DEC_STATUS dec) F.FLC_DEC_STATUS.soft (b2n on)
  wrF (R.FLC_DEC_STATUS dec) F.FLC_DEC_STATUS.level level
  wrF (R.FLC_DEC_STATUS dec) F.FLC_DEC_STATUS.channel chan

/-- SOFT_DECODE (R279, R281): a decoder runs the next read-retry level of the codeword it holds, or takes one from the soft
queue while fewer than two decoders are in soft mode; the level decodes it or not, and five levels that do not make it
uncorrectable. -/
def softDecode (dec : Nat) (decodes : Bool) : Act Unit := do
  let s ← Act.get
  if !s.pageServes (pageBase .flc (16 + dec)) then return
  let held := s.flash.soft.find? (fun e => e.1 = dec)
  let take := match held with
    | some e => some (e.2.1, e.2.2)
    | none => if s.flash.soft.length < 2 then s.flash.softq.head?.map (fun w => (w, 0)) else none
  match take with
  | none => skip
  | some (w, n) =>
    let c := pcaChan w.pca
    if held.isNone then
      modFlash (fun x => { x with softq := x.softq.drop 1 })
      toSoftQueue
    refreshDue (pcaBlock w.pca)
    count (C.FLC_CNT_SOFT c) 1
    count (C.FLC_DEC_CNT_SOFT_BUSY dec) 32
    let others (x : FlashX) := x.soft.filter (fun e => e.1 ≠ dec)
    if decodes then
      modFlash (fun x => { x with soft := others x })
      showDec dec false 0 0
      cwDecoded w
      flSweep
    else if n + 1 < 5 then
      modFlash (fun x => { x with soft := others x ++ [(dec, w, n + 1)] })
      showDec dec true (n + 1) c
    else
      modFlash (fun x => { x with soft := others x })
      showDec dec false 0 0
      count (C.FLC_CNT_UE c) 1
      count (C.FLC_DEC_CNT_SOFT_FAIL dec) 1
      match ← rd (fun t => t.flCmd w.part w.idx) with
      | some d => if d.status.isNone then flEnd d 1
      | none => skip
      flSweep
      showSoft

/-! ## Writing (R276, R277) -/

/-- Pages of a channel in the write buffer. -/
def State.bufPages (s : State) (c : Nat) : List Nat :=
  ((s.flash.buf.filter (fun b => pcaChan b.pca = c)).map (fun b => pcaPage b.pca)).eraseDups

/-- Put a unit's codewords into its channel's write buffer of 32 pages; answers whether there was room. -/
def bufUnit (u : Nat) (data : List Byte) (cmd : Option (Nat × Nat)) (old : Option Nat) : Act Bool := do
  let s ← Act.get
  let (c, t, l) := s.unitWp u
  let n := (data.length + 4095) / 4096
  if 32 < (s.bufPages c).length + (n + 3) / 4 then return false
  if (s.flLuns c).isEmpty then return false
  match ← wpTakes c t l n with
  | none => return false
  | some pcas =>
    modFlash (fun x => { x with
      nextTag := x.nextTag + 1
      buf := x.buf ++ (List.range n).map (fun i => ({ pca := pcas.getD i 0, unit := u, ix := i, pcas := pcas, tag := x.nextTag
                                                      data := bytesAt data (4096 * i) 4096, cmd := cmd, old := old } : FlBuf)) })
    return true

/-- A unit's bytes as a WRITE stores them: packed for a compressed object, else as they are (R276). -/
def unitSource (p gaddr comp : Nat) : Act (Except Nat (List Byte)) := do
  if comp = 1 then
    match ← gRead flashSrc p (gaddr + 0xFFC0) 32 with
    | .error e => return .error e
    | .ok hdr =>
      let mut out : Except Nat (List Byte) := .ok hdr
      for k in List.range 16 do
        let len := numAt hdr (2 * k) 2
        match out with
        | .error _ => skip
        | .ok bs =>
          if 0 < len then
            match ← gRead flashSrc p (gaddr + 4096 * k) (min len 4096) with
            | .error e => out := .error e
            | .ok r => out := .ok (bs ++ r)
      return out
  else gRead flashSrc p gaddr 65536

/-- Begin the unit in hand of a WRITE (R273 to R277, R285, R287): it waits for room in the write buffer and for its channel's
window to close. -/
def writeUnit (c : FlCmd) : Act Unit := do
  let s ← Act.get
  match c.units with
  | [] => flEnd c 0
  | u :: _ =>
    let chan := s.unitChan u
    match s.nsOf c.part with
    | none => flEnd c 2
    | some (b, n) =>
      if u < b ∨ b + n ≤ u then flEnd c 2
      else if s.fldOf R.FLC_ENG_STATUS F.FLC_ENG_STATUS.read_only = 1 ∨ (c.ro ∧ (s.unitPcas u).isSome) then flEnd c 4
      else if s.flState chan = 4 then flEnd c 1
      else if s.flState chan = 2 then
        match ← unitSource c.part c.gaddr c.comp with
        | .error e => flEnd c (flMemStatus e)
        | .ok bs =>
          let charge := (bs.length + 4095) / 4096 * 4096
          creditGrow c.part
          if (← rdF (R.FLC_BUDGET c.part) F.FLC_BUDGET.credit) < charge then
            count C.FLC_CNT_BUDGET_REFUSED 1
            flEnd c 3
          else if ← bufUnit u bs (some (c.part, c.idx)) none then
            creditCharge c.part charge
            putCmd { c with got := 1 }

/-- A WRITE's unit in hand has not yet gone to the write buffer. -/
def FlCmd.waits (c : FlCmd) : Bool := c.op = 2 && c.status.isNone && c.ending.isNone && c.got = 0

/-- WRITE commands whose unit waits go on when they can, in the order of R275. -/
def writePump : Act Unit := do
  for c in ← rd (fun s => s.flTurns) do
    if c.waits then writeUnit c

/-- `n` microseconds pass for what waits at the channels (R277, R278, R280). -/
def flashWaits (n : Nat) : Act Unit := do
  for c in List.range 16 do
    let s ← Act.get
    let reads := s.flash.cmds.any (fun d => d.status.isNone && d.todo.any (fun a => pcaChan a = c))
    let writes := s.flash.cmds.any (fun d => d.waits && (match d.units with
      | u :: _ => decide (s.unitChan u = c)
      | [] => false))
    if s.flState c = 3 ∧ (reads ∨ writes) then count (C.FLC_CNT_GLEAN_HOLD c) n
    if s.flState c = 2 ∧ writes then count (C.FLC_CNT_WBUF_WAIT c) n
    if 32 ≤ (s.flash.rx.filter (fun w => pcaChan w.pca = c)).length then count (C.FLC_CNT_RX_FULL c) n

/-! ## The map log (R288) -/

/-- A record of the map log: the map entry, then the unit (DESIGN CHOICE 152). -/
def recBytes (r : FlRec) : List Byte := leBytes 8 (mapWord r.pcas) ++ leBytes 4 r.unit ++ leBytes 4 0

/-- The first address some write point of a list gives. -/
def wpTakeFirst : List (Nat × Nat × Nat) → Act (Option Nat)
  | [] => return none
  | e :: es => do
    match ← wpTake e.1 e.2.1 e.2.2 with
    | some a => return some a
    | none => wpTakeFirst es

/-- The write points of the channels that serve, those of channel `c` first. -/
def State.wpsFrom (s : State) (c : Nat) : List (Nat × Nat × Nat) :=
  ((s.flChans.filter (fun k => decide (c ≤ k)) ++ s.flChans.filter (fun k => decide (k < c))).filter
    (fun k => s.flState k = 2 || s.flState k = 3)).flatMap (fun k => (s.flLuns k).map (fun e => (k, e.1, e.2)))

/-- The records that wait go to the write buffer as one codeword of the map log, up to 256 of them, while no other is on its way;
fewer wait as long as data is being programmed (DESIGN CHOICE 152). -/
def logPump : Act Unit := do
  let s ← Act.get
  let x := s.flash
  match x.logq with
  | [] => skip
  | r :: _ =>
    if x.buf.any (fun b => b.recs ≠ []) then return
    if x.logq.length < 256 ∧ x.buf ≠ [] then return
    match ← wpTakeFirst (s.wpsFrom (s.unitChan r.unit)) with
    | none => skip
    | some a =>
      modFlash (fun x => { x with
        nextTag := x.nextTag + 1, logNo := x.logNo + 1, logq := x.logq.drop 256
        buf := x.buf ++ [{ pca := a, unit := x.logNo, ix := 0, pcas := [a], tag := x.nextTag, data := [], cmd := none, old := none
                           recs := x.logq.take 256 }] })

/-- A record stands in the map log: its change takes effect, unless a relocation lost its source meanwhile, and the command it
was written for has one unit less to wait for (R277, R282). -/
def recordLogged (r : FlRec) : Act Unit := do
  let s ← Act.get
  if r.late then
    match r.old with
    | some a => if (s.unitPcas r.unit).map (fun l => l.getD 0 0) = some a then mapUnit r.unit r.pcas
    | none => if s.unitOwner r.unit = r.cmd.map (·.1) then mapUnit r.unit r.pcas
    match r.cmd with
    | none => skip
    | some (p, i) =>
      match s.flCmd p i with
      | none => skip
      | some c =>
        if c.status.isNone then
          let d := { c with owed := c.owed - 1 }
          putCmd { d with status := if d.owed = 0 then d.ending else none }

/-- A unit's write has passed on every codeword: its map change waits for its record, and its command goes on (R277). -/
def unitProgrammed (b : FlBuf) : Act Unit := do
  modFlash (fun x => { x with logq := x.logq ++ [{ unit := b.unit, pcas := b.pcas, cmd := b.cmd, old := b.old, late := true }] })
  match b.cmd with
  | none => skip
  | some (p, i) =>
    match ← rd (fun s => s.flCmd p i) with
    | none => skip
    | some c =>
      if c.status.isNone then
        let d := { c with units := c.units.drop 1, gaddr := c.gaddr + 65536, got := 0, owed := c.owed + 1 }
        putCmd d
        writeUnit d

/-- The bytes of a codeword in its page: data, metadata and parity (R270). -/
def cwBytes (kind unit ix wseq part : Nat) (data : List Byte) : List Byte :=
  let m := leBytes 4 unit ++ leBytes 1 ix ++ leBytes 1 kind ++ [0, 0] ++ leBytes 6 wseq ++ leBytes 1 part
  let cw := bytesAt data 0 4096 ++ m ++ leBytes 1 (crc8 m)
  cw ++ bytesAt (Config.ldpcParity cw) 0 496

/-- Program one codeword: the channel's next sequence number goes with it, and its page counts as programmed now. -/
def programCw (pca kind unit ix part : Nat) (data : List Byte) : Act Unit := do
  let q ← ldW (flSeqKey (pcaChan pca))
  stBytes (flashKey pca) (cwBytes kind unit ix q part data)
  stW (flSeqKey (pcaChan pca)) (q + 1)
  count (C.FLC_CNT_WR_BYTES (pcaChan pca)) 4608
  let now ← rd State.now
  let page := pcaPage pca
  modFlash (fun x =>
    let n := storeGet (fun _ => 0) x.prog page % 8
    { x with prog := storePut (fun _ => 0) x.prog page ((now + 1) * 8 + n + 1) })

/-- A codeword of the write buffer is programmed (R270, R288): data with its unit's owner, or records of the map log. -/
def programBuf (b : FlBuf) : Act Unit := do
  if b.recs = [] then
    programCw b.pca 0 b.unit b.ix (← rd (fun s => (s.unitOwner b.unit).getD 0)) b.data
  else
    programCw b.pca 1 b.unit 0 0 (b.recs.flatMap recBytes)
    modFlash (fun x => { x with logBytes := x.logBytes + 16 * b.recs.length, logCws := x.logCws ++ [b.pca] })

/-- A write point whose current page went out partly filled goes on to the next page. -/
def wpClosePage (c t l page : Nat) : Act Unit := do
  let s ← Act.get
  let w := wpNo c t l
  let pos := (s.wordAt (flWpKey w)).toNat
  let blk := (s.wordAt (flWpBlkKey w (pos / 4 % 4))).toNat
  if pos % 4 ≠ 0 ∧ blk ≠ 0 ∧ (blk - 1) * 2 ^ 16 + pos / 16 = page then
    stW (flWpKey w) (← wpNextPage w (s.flPlanes c) s.record.flashPages pos)

/-- The page whose program a channel works on: the oldest of its write buffer, in a window only the one whose program had started
(R277, R280). -/
def State.pageInHand (s : State) (chan : Nat) : Option Nat :=
  match (s.bufPages chan).head? with
  | none => none
  | some page => if s.flState chan = 2 ∨ (s.flState chan = 3 ∧ (s.flChan chan).inHand = some page) then some page else none

/-- What follows once a page's codewords are programmed: a log codeword's changes take effect, and a unit that has all its
codewords waits for its record. -/
def pagePassed (mine rest : List FlBuf) : Act Unit := do
  for b in mine do
    if b.recs ≠ [] then
      for r in b.recs do recordLogged r
    else if (mine.filter (fun d => d.tag = b.tag)).getLast? = some b ∧ !rest.any (fun d => d.tag = b.tag) then unitProgrammed b

/-- PROGRAM_DONE (R277): the device reports a pass for the page a channel works on. -/
def programDone (chan : Nat) : Act Unit := do
  let s ← Act.get
  match s.pageInHand chan with
  | none => skip
  | some page =>
    let mine := s.flash.buf.filter (fun b => pcaPage b.pca = page)
    let rest := s.flash.buf.filter (fun b => pcaPage b.pca ≠ page)
    for b in mine do programBuf b
    modFlash (fun x => { x with buf := rest })
    modFlChan chan (fun x => { x with inHand := none })
    wpClosePage chan (bits page 39 37) (bits page 36 34) page
    pagePassed mine rest
    reclaim
    writePump
    logPump

/-! ## Relocation, refresh, wear (R281 to R284, R287) -/

/-- A partition is charged for the codewords its unit takes in relocation (R285). -/
def chargeMove (u n : Nat) : Act Unit := do
  count (C.FLC_CNT_RELOC_CW (← rd (fun s => s.unitChan u))) n
  match ← rd (fun s => s.unitOwner u) with
  | some p => creditGrow p; creditCharge p (4096 * n)
  | none => skip

/-- A copy of a unit from an address is already on its way to the map. -/
def State.moving (s : State) (u a : Nat) : Bool :=
  s.flash.buf.any (fun b => (b.unit = u && b.recs = [] && b.old = some a) || b.recs.any (fun r => r.unit = u && r.old = some a)) ||
    s.flash.logq.any (fun r => r.unit = u && r.old = some a)

/-- Copy a unit to the next write point, outside its channel's window; the map takes the copy when it is programmed and logged and
the entry still holds the old address (R280, R282). -/
def relocate (u : Nat) : Act Unit := do
  let s ← Act.get
  match s.unitPcas u with
  | none => skip
  | some l =>
    if s.moving u (l.getD 0 0) ∨ s.flState (s.unitChan u) ≠ 2 then return
    if ← bufUnit u (l.flatMap (fun a => s.memBytes (flashKey a) 4096)) none (some (l.getD 0 0)) then chargeMove u l.length

/-- GC_RELOCATE (R282). -/
def gcRelocate (u : Nat) : Act Unit := do relocate u

/-- A programmed codeword that the map does not name, of a write in hand or of the engine's own, moves from a block: it is copied to
the write point, and what names it names the copy (R277, R282). -/
def moveCw (a : Nat) : Act Unit := do
  let s ← Act.get
  match ← wpTakeFirst (s.wpsFrom (pcaChan a)) with
  | none => skip
  | some d =>
    let bs := s.memBytes (flashKey a) 4112
    programCw d (numAt bs 4101 1) (numAt bs 4096 4) (numAt bs 4100 1) (numAt bs 4110 1) (bs.take 4096)
    let sub (l : List Nat) : List Nat := l.map (fun k => if k = a then d else k)
    let subRec (r : FlRec) : FlRec := { r with pcas := sub r.pcas }
    modFlash (fun x => { x with
      buf := x.buf.map (fun b => { b with pcas := sub b.pcas, recs := b.recs.map subRec })
      logq := x.logq.map subRec, logCws := sub x.logCws, ckpt := sub x.ckpt, badCws := sub x.badCws })

/-- The codewords in a block that `moveCw` moves. -/
def State.strayCws (s : State) (b : Nat) : List Nat :=
  let x := s.flash
  ((x.buf.flatMap (fun d => d.pcas.filter (fun a => !x.buf.any (fun e => e.pca = a)) ++ d.recs.flatMap (·.pcas)) ++
    x.logq.flatMap (·.pcas) ++ x.logCws ++ x.ckpt ++ x.badCws).filter (fun a => pcaBlock a = b)).eraseDups

/-- Refresh goes on: blocks are left for it (R287). -/
def State.refreshOn (s : State) : Bool := s.fldOf R.FLC_ENG_STATUS F.FLC_ENG_STATUS.read_only = 0 || decide (0 < s.flash.reserve)

/-- REFRESH_BLOCK (R281, R282): the valid units of a block on the refresh list are relocated; once none is left and no read
holds it, it is erased. -/
def refreshBlock (b : Nat) : Act Unit := do
  let s ← Act.get
  if !s.flash.refresh.contains b ∨ !s.refreshOn ∨ s.flState (blkChan b) ≠ 2 then return
  match s.blkUnits b, s.strayCws b with
  | [], [] =>
    if !s.blkRead b then
      modFlash (fun x => { x with refresh := x.refresh.erase b })
      if s.blkState b = 1 ∧ !s.blkOpen b then
        eraseBlk b
        count (C.FLC_CNT_REFRESH (blkChan b)) 1
  | us, cs =>
    for u in us do relocate u
    for a in cs do moveCw a
    logPump

/-- The block wear levelling fills on a channel, with the codewords it holds already: the one in hand, or the most-worn free one
(R283). -/
def wearBlock (chan : Nat) (free : Option Nat) : Act (Option (Nat × Nat)) := do
  match (← rd (fun s => s.flChan chan)).wear, free with
  | some w, _ => return some w
  | none, some d =>
    takeBlk d
    return some (d, 0)
  | none, none => return none

/-- Copy one unit to the block wear levelling fills, from its codeword `at_` on (R282, R283). -/
def wearUnit (u : Nat) (l : List Nat) (d at_ : Nat) : Act Unit := do
  let s ← Act.get
  let pcas := (List.range l.length).map (fun i => d * 2 ^ 20 + (at_ + i) / 4 * 16 + (at_ + i) % 4)
  modFlash (fun x => { x with
    nextTag := x.nextTag + 1
    buf := x.buf ++ (List.range l.length).map (fun i => ({
      pca := pcas.getD i 0, unit := u, ix := i, pcas := pcas, tag := x.nextTag
      data := s.memBytes (flashKey (l.getD i 0)) 4096, cmd := none, old := some (l.getD 0 0) } : FlBuf)) })
  chargeMove u l.length

/-- What a wear move does with the next unit of its block: passes it over, stops with what is left to do, or moves it, from its
codewords to the next place of the free block. -/
inductive WearTurn where
  | pass
  | stop (left : Option (Nat × Nat))
  | move (l : List Nat) (next : Nat)
deriving DecidableEq, Repr

/-- The turn of a unit: one without a place or already moving is passed over, the free block may be full, and the write buffer may
have no room for it yet (R277, R283). -/
def State.wearTurn (s : State) (chan u d n : Nat) : WearTurn := match s.unitPcas u with
  | none => .pass
  | some l =>
    if s.moving u (l.getD 0 0) then .pass
    else if 4 * s.record.flashPages < n + l.length then .stop none
    else if 32 < (s.bufPages chan).length + (l.length + 3) / 4 then .stop (some (d, n))
    else .move l ((n + l.length + 3) / 4 * 4)

/-- The units of a list go to the block wear levelling fills, as far as it and the write buffer have room (R277, R283). -/
def wearUnits (chan : Nat) : List Nat → Nat → Nat → Act Unit
  | [], d, n => modFlChan chan (fun x => { x with wear := some (d, n) })
  | u :: us, d, n => do
    match ← rd (fun s => s.wearTurn chan u d n) with
    | .pass => wearUnits chan us d n
    | .stop x => modFlChan chan (fun y => { y with wear := x })
    | .move l m =>
      wearUnit u l d n
      wearUnits chan us d m

/-- Some block's erase count is beyond wl_pct of its channel's mean (R283). -/
def State.wearUneven (s : State) (chan : Nat) : Bool :=
  let mean := s.fldOf (R.FLC_CH_WEAR chan) F.FLC_CH_WEAR.mean_erase
  (s.chanBlocks chan).any (fun b => s.blkState b ≠ 2 &&
    decide (mean * s.fldOf R.FLC_ENG_CFG F.FLC_ENG_CFG.wl_pct < (max (s.blkErases b) mean - min (s.blkErases b) mean) * 100))

/-- WEAR_LEVEL_MOVE (R283): while some block's erase count is beyond wl_pct of its channel's mean, the units of the
least-worn block move to the most-worn free block. -/
def wearMove (chan : Nat) : Act Unit := do
  let s ← Act.get
  if s.wearUneven chan ∧ s.flState chan = 2 then
    match s.leastWorn ((s.chanBlocks chan).filter (fun b => s.blkState b = 1 && !s.blkOpen b)) with
    | none => skip
    | some a =>
      if s.blkUnits a ≠ [] then
        match ← wearBlock chan (s.mostWorn ((s.chanBlocks chan).filter (fun b => s.blkState b = 0))) with
        | none => skip
        | some (d, n) => wearUnits chan (s.blkUnits a) d n

/-- The spare pool takes a size (R287). -/
def setSparePool (n : Nat) : Act Unit := do
  wrF R.FLC_ENG_STATUS F.FLC_ENG_STATUS.spare n
  let s ← Act.get
  let total := (s.flChans.map (fun c => (s.chanBlocks c).length)).foldl (· + ·) 0
  if n * 1000 < s.fldOf R.FLC_ENG_CFG F.FLC_ENG_CFG.spare_warn * total then setIrq (pageBase .flc 0) 34
  if n = 0 then
    wrF R.FLC_ENG_STATUS F.FLC_ENG_STATUS.read_only 1
    setIrq (pageBase .flc 0) 35

/-- The blocks known bad, factory and grown (R284). -/
def State.badBlocks (s : State) : List Nat := s.flChans.flatMap (fun c => (s.chanBlocks c).filter (fun b => s.blkState b = 2))

/-- Every codeword of a list is programmed at the first write point of channel `c` that has room, for the engine itself; answers
where they stand. -/
def programOwn (c kind : Nat) : List (Nat × List Byte) → Act (List Nat)
  | [] => return []
  | e :: es => do
    let s ← Act.get
    match ← wpTakeFirst (s.wpsFrom c) with
    | none => programOwn c kind es
    | some a =>
      programCw a kind e.1 0 0 e.2
      return a :: (← programOwn c kind es)

/-- The bad-block table is written anew, in kind 3 codewords on two channels, four bytes for each block, with its working copy after
the map in the map region (R284, DESIGN CHOICE 153). -/
def writeBadTable : Act Unit := do
  let s ← Act.get
  let bs := s.badBlocks.flatMap (leBytes 4)
  let cws := (List.range ((bs.length + 4095) / 4096)).map (fun i => (i, bytesAt bs (4096 * i) 4096))
  let live := s.flChans.filter (fun c => s.flState c ≠ 4)
  let mut at_ : List Nat := []
  for c in live.take 2 do
    at_ := at_ ++ (← programOwn c 3 cws)
  let all := at_
  modFlash (fun x => { x with
    badCws := all, sources := x.sources ++ ((x.badCws.map pcaBlock).eraseDups.filter (fun b => !x.sources.contains b)) })
  let units := s.flash.cap * s.record.flashPages / 4
  for i in List.range ((bs.length + 7) / 8) do mapStore (8 * units + 8 * i) (leNat (bytesAt bs (8 * i) 8))

/-- A block is retired as grown bad (R277, R284, R287): it draws on the spare pool, and on the refresh reserve once that is
empty. -/
def retireBlk (b : Nat) : Act Unit := do
  let s ← Act.get
  let c := blkChan b
  if s.blkState b = 0 then addF (R.FLC_CH_BLOCKS c) F.FLC_CH_BLOCKS.free (2 ^ 32 - 1)
  setBlk b 2 (s.blkErases b)
  addF (R.FLC_CH_BLOCKS c) F.FLC_CH_BLOCKS.bad 1
  count (C.FLC_CNT_GROWN_BAD c) 1
  setIrq (pageBase .flc c) 33
  for e in s.flLuns c do
    for pl in List.range 4 do
      if (s.wordAt (flWpBlkKey (wpNo c e.1 e.2) pl)).toNat = b + 1 then stW (flWpBlkKey (wpNo c e.1 e.2) pl) 0
  if (s.flChan c).wear.map (·.1) = some b then modFlChan c (fun x => { x with wear := none })
  let spare := s.fldOf R.FLC_ENG_STATUS F.FLC_ENG_STATUS.spare
  if spare = 0 then modFlash (fun x => { x with reserve := x.reserve - 1 })
  setSparePool (spare - 1)
  writeBadTable

/-- Give every buffered codeword of a block a new address at the write point. -/
def rebuffer (b : Nat) : Act Unit := do
  let x ← rd (fun s => s.flash)
  for d in x.buf do
    if pcaBlock d.pca = b then
      let s ← Act.get
      match ← wpTakeFirst (s.wpsFrom (pcaChan d.pca)) with
      | none => skip
      | some a =>
        let sub (k : Nat) : Nat := if k = d.pca then a else k
        modFlash (fun y => { y with buf := y.buf.map (fun e =>
          if e.tag = d.tag then { e with pca := sub e.pca, pcas := e.pcas.map sub } else e) })

/-- PROGRAM_FAIL (R277, R284): the program of the page a channel works on fails, or the erase of a named block; the
block is grown bad, the pages programmed in it are relocated and the buffered data goes to the next write point. -/
def programFail (chan : Nat) (erased : Option Nat) : Act Unit := do
  let s ← Act.get
  let bad := match erased with
    | some b => if blkChan b = chan then some b else none
    | none => (s.pageInHand chan).map (· / 2 ^ 16)
  match bad with
  | none => skip
  | some b =>
    if s.blkState b = 2 then return
    retireBlk b
    rebuffer b
    for a in ← rd (fun t => t.strayCws b) do moveCw a
    for u in s.blkUnits b do relocate u
    logPump

/-- A channel is FAILED (R274): what needs it ends DATA, and records bound for its log codeword go elsewhere. -/
def flashLost (chan : Nat) : Act Unit := do
  let s ← Act.get
  for c in s.flash.cmds do
    if c.status.isNone ∧ c.ending.isNone ∧ (c.todo.any (fun a => pcaChan a = chan) ∨
        (c.op = 2 ∧ c.units.head?.map (fun u => s.unitChan u) = some chan)) then flEnd c 1
  modFlash (fun x => { x with
    logq := (x.buf.filter (fun b => pcaChan b.pca = chan)).flatMap (·.recs) ++ x.logq
    buf := x.buf.filter (fun b => pcaChan b.pca ≠ chan) })
  flSweep
  logPump

/-! ## Windows (R280, R281) -/

/-- A flash channel's window opens: the program it had started goes on, and no other starts (R280). -/
def flashOpens (chan : Nat) : Act Unit := do
  let page ← rd (fun s => (s.bufPages chan).head?)
  wrF (R.FLC_CH_STATE chan) F.FLC_CH_STATE.state 3
  modFlChan chan (fun x => { x with inHand := page })

/-- The read references of the next LUN in rotation are tracked: one offset for each of 8 age bins, which the sweep picks (R280). -/
def trackRefs (chan : Nat) : Act Unit := do
  let s ← Act.get
  let l := s.flLuns chan
  let e := l.getD ((s.flChan chan).lun % max l.length 1) (0, 0)
  for b in List.range 8 do stW (flRefKey (wpNo chan e.1 e.2) b) (← freshBelow 256)
  modFlChan chan (fun x => { x with lun := (x.lun + 1) % max l.length 1 })

/-- The pages a scan reads from page `start` on for `n` codewords, of programmed pages with their codewords: the page to go on with,
none where the pass ends, and the codewords read. -/
def scanRun : List (Nat × Nat) → Nat → Option Nat × Nat
  | [], _ => (none, 0)
  | e :: _, 0 => (some e.1, 0)
  | (_, v) :: ps, n + 1 =>
    let r := scanRun ps (n + 1 - min (n + 1) (max 1 (v % 8)))
    (r.1, v % 8 + r.2)

/-- The retention scan has read `n` codewords more, of which those of the blocks of a list asked for a refresh (R281): it goes on
from its pointer in block order, and a pass that ends records its tick. -/
def scanned (chan n : Nat) (due : List Nat) : Act Unit := do
  let s ← Act.get
  let pages := s.flash.prog.filter (fun e => decide (chan * 2 ^ 40 ≤ e.1 ∧ e.1 < (chan + 1) * 2 ^ 40 ∧ (s.flChan chan).scan ≤ e.1))
  let r := scanRun pages n
  let run := pages.filter (fun e => match r.1 with
    | some p => decide (e.1 < p)
    | none => true)
  count (C.FLC_CNT_SCAN_CW chan) r.2
  count (C.FLC_CNT_RD_BYTES chan) (4608 * r.2)
  count (C.FLC_DEC_CNT_HARD (← freshBelow 4)) r.2
  let bits ← freshNat
  count (C.FLC_CNT_CORR_BITS chan) bits
  modFlChan chan (fun x => { x with scan := r.1.getD 0, bits := x.bits + bits, words := x.words + r.2 })
  if r.1 = none ∧ 0 < n then wrF (R.FLC_CH_SCAN chan) F.FLC_CH_SCAN.pass_tick (← rdF R.TIM_TICK_NOW F.TIM_TICK_NOW.tick)
  for b in due do
    if run.any (fun e => e.1 / 2 ^ 16 = b) then refreshDue b

/-- A flash channel's window does its work (R280): training where it is due, tracking, and the scan; what was not finished is
abandoned, but for the scan. -/
def flashWindow (chan : Nat) (finished : Bool) (n : Nat) (due : List Nat) : Act Unit := do
  if finished then
    wrF (R.FLC_CH_SCAN chan) F.FLC_CH_SCAN.train_due 0
    trackRefs chan
  scanned chan n due

/-- A flash channel's window closes: what waited goes on. -/
def flashCloses (chan : Nat) : Act Unit := do
  if (← rd (fun s => s.flState chan)) = 3 then
    wrF (R.FLC_CH_STATE chan) F.FLC_CH_STATE.state 2
    modFlChan chan (fun x => { x with inHand := none })
    flTransfer chan
    reclaim
    writePump
    logPump

/-- A tick edge has come for the flash channels (R281): the scan period of one whose mean of corrected bits over the tick exceeded
rate_limit halves, down to a day; another's is scan_days. Whether training is due at a window is open (DESIGN CHOICE 154). -/
def flashTick : Act Unit := do
  for c in List.range 16 do
    let s ← Act.get
    if s.flState c = 2 ∨ s.flState c = 3 then
      let x := s.flChan c
      let high := decide (s.fldOf R.FLC_ENG_CFG F.FLC_ENG_CFG.rate_limit * x.words < x.bits)
      let days := s.fldOf R.FLC_ENG_CFG F.FLC_ENG_CFG.scan_days
      modFlChan c (fun x => { x with bits := 0, words := 0
                                     halved := if high then (if days / 2 ^ (x.halved + 1) = 0 then x.halved else x.halved + 1) else 0 })
      if (← freshBelow 2) = 1 then wrF (R.FLC_CH_SCAN c) F.FLC_CH_SCAN.train_due 1

/-- The scan period of a channel in days (R281). -/
def State.scanDays (s : State) (c : Nat) : Nat :=
  max 1 (s.fldOf R.FLC_ENG_CFG F.FLC_ENG_CFG.scan_days / 2 ^ (s.flChan c).halved)

/-! ## The commands' start and end (R274, R275) -/

/-- The first unit an entry names in its object, from its descriptor and offset, of a namespace whose first unit is `base` (R272);
none where there is no flash copy. -/
def flashFirst (base : Nat) (d : List Byte) (off : Nat) : Option Nat :=
  if obTier d = 2 then some (base + (obBase d + off) / 65536)
  else if obTier d = 1 ∧ obLower d ≠ 2 ^ 48 - 1 then some (base + (obLower d + off) / 65536)
  else none

/-- The GDDR7 range touches the partition's journal region (R273). -/
def State.touchesJournal (s : State) (p addr len : Nat) : Bool :=
  overlaps (addr, len) (s.fldOf (R.REQ_JRNL_CFG p) F.REQ_JRNL_CFG.base, 2 ^ s.fldOf (R.REQ_JRNL_CFG p) F.REQ_JRNL_CFG.log_size)

/-- Some unit is one of an earlier unfinished command of the queue (R275). -/
def State.unitBusy (s : State) (p : Nat) (us : List Nat) : Bool :=
  s.flash.cmds.any (fun c => c.part = p && decide (c.idx < 2 ^ 32) && c.all.any (fun u => us.contains u))

/-- TRIM a run of units (R274, R287): the status it ends with. -/
def trimUnits (p : Nat) : List Nat → Act Nat
  | [] => return 0
  | u :: us => do
    let s ← Act.get
    match s.nsOf p with
    | none => return 2
    | some (b, n) =>
      if u < b ∨ b + n ≤ u then return 2
      if s.fldOf R.FLC_ENG_STATUS F.FLC_ENG_STATUS.read_only = 1 then return 4
      if (s.unitPcas u).isSome then unmapUnit u
      trimUnits p us

/-- The first unit of a partition's namespace; where it has none, a unit outside every namespace. -/
def State.nsFirst (s : State) (p : Nat) : Nat := ((s.nsOf p).map (·.1)).getD (2 ^ 40)

/-- The units an entry names, with one outside every namespace where it passes its object's end. -/
def entryUnits (e d : List Byte) (u0 : Nat) : List Nat :=
  let inObject := (roundUp (obLength d) 65536 - feOffset e) / 65536
  (List.range (min (feUnits e) inObject)).map (fun k => u0 + k) ++ (if inObject < feUnits e then [2 ^ 41] else [])

/-- A command starts: the queue's started count rises, and it runs. -/
def flBegin (c : FlCmd) : Act Unit := do
  wrF (R.PRT_FLQ_HEAD c.part) F.PRT_FLQ_HEAD.started (c.idx + 1)
  modFlash (fun x => { x with cmds := x.cmds ++ [c] })

/-- The engine starts the next command of a partition's queue, if it is of the operation named (or of no defined one) and
nothing holds it: the map is ready, FLC page 0 serves, fewer than 16 of the queue run, and no unfinished earlier one names its
units. An entry outside the partition's hub SRAM ends BAD_DESC (DESIGN CHOICE 155). -/
def flStart (p op : Nat) : Act Unit := do
  let s ← Act.get
  let i := s.flqStarted p
  if i = s.flqTail p ∨ s.fldOf R.FLC_ENG_STATUS F.FLC_ENG_STATUS.map_ready = 0 ∨ !s.pageServes (pageBase .flc 0) then return
  if 16 ≤ (s.flash.cmds.filter (fun c => c.part = p && decide (c.idx < 2 ^ 32))).length then return
  let c : FlCmd := { part := p, idx := i, op := op, comp := 0, ro := false, units := [], gaddr := 0
                     pcas := [], todo := [], got := 0, status := none }
  match ← spRead flashSrc p 0 (s.flqAddr p i) 64 with
  | .error _ => flBegin { c with status := some 7 }
  | .ok e =>
    if feOp e ≠ op ∧ 1 ≤ feOp e ∧ feOp e ≤ 3 then return
    if !feGood e then flBegin { c with status := some 7 }
    else
      match ← readPlace flashSrc p (feDesc e) with
      | none => flBegin { c with status := some 7 }
      | some d =>
        match flashFirst (s.nsFirst p) d (feOffset e) with
        | none => flBegin { c with status := some 2 }
        | some u0 =>
          let us := entryUnits e d u0
          if s.unitBusy p us then return
          let c := { c with comp := obComp d, ro := decide (obPolicy d = 2), units := us, all := us, gaddr := feGaddr e % 2 ^ 48 }
          let len := feUnits e * 65536
          if op = 1 ∧ obKind d = 0 ∧ !s.insideProtected p 1 c.gaddr len then
            vlog 1 c.gaddr (errInfo { source := flashSrc, hay := false, part := some p } 2 4)
            flBegin { c with status := some 5 }
          else if op = 2 ∧ (obKind d = 3 ∨ s.touchesJournal p c.gaddr len) then flBegin { c with status := some 5 }
          else
            flBegin c
            match op with
            | 1 => readUnit c
            | 2 => writeUnit c
            | _ =>
              flEnd c (← trimUnits p us)
              reclaim
              logPump

/-- The leading finished commands of a queue count as done. -/
def flqAdvance (p : Nat) : Nat → Act Unit
  | 0 => skip
  | fuel + 1 => do
    let s ← Act.get
    let i := s.flqDone p
    if s.flash.finished.contains (p, i) then
      modFlash (fun x => { x with finished := x.finished.filter (fun e => e ≠ (p, i)) })
      wrF (R.PRT_FLQ_HEAD p) F.PRT_FLQ_HEAD.done (i + 1)
      flqAdvance p fuel

/-- FLASH_CMD_DONE (R274): the oldest ended command of a partition gets its status and then its signal. -/
def flashCmdDone (p : Nat) : Act Unit := do
  let s ← Act.get
  match s.flash.cmds.find? (fun c => c.part = p && c.status.isSome && decide (c.idx < 2 ^ 32)) with
  | none => skip
  | some c =>
    let a := s.flqAddr p c.idx
    if (← spWrite flashSrc p 0 (a + 2) (leBytes 1 (c.status.getD 0))).isNone then
      if bit (s.memNum (s.flqKey p c.idx + 1) 1) 0 then
        signalTile flashSrc p (s.memNum (s.flqKey p c.idx + 32) 4) (s.memNum (s.flqKey p c.idx + 36) 4)
    modFlash (fun x => { x with cmds := x.cmds.erase c, finished := x.finished ++ [(p, c.idx)] })
    flqAdvance p 256
    reclaim
    writePump

/-- The commands of a partition's queue stop, without a status (R434, R436). -/
def flashStop (p : Nat) : Act Unit := do
  let soft ← rd (fun s => s.flash.soft)
  let mine (r : Option (Nat × Nat)) : Bool := r.any (fun e => e.1 = p)
  modFlash (fun x => { x with
    cmds := x.cmds.filter (fun c => c.part ≠ p)
    finished := x.finished.filter (fun e => e.1 ≠ p)
    soft := x.soft.filter (fun e => e.2.1.part ≠ p)
    buf := (x.buf.filter (fun b => !mine b.cmd)).map (fun b => { b with recs := b.recs.filter (fun r => !mine r.cmd) })
    logq := x.logq.filter (fun r => !mine r.cmd) })
  flSweep
  for e in soft do
    if e.2.1.part = p then showDec e.1 false 0 0
  showSoft
  wrF (R.PRT_FLQ_TAIL p) F.PRT_FLQ_TAIL.tail 0
  wrR (R.PRT_FLQ_HEAD p) 0

/-! ## The map's persistence (R287, R288) -/

/-- A codeword of the checkpoint for each 512 units that hold a mapped one: its number and its map entries (R288, DESIGN CHOICE 152). -/
def State.ckptCws (s : State) : List (Nat × List Byte) :=
  let groups := ((s.tab.filter (fun e => decide (flMapKey 0 ≤ e.1 ∧ e.1 < tabKey 22 0))).map (fun e => (e.1 - flMapKey 0) / 512)).eraseDups
  groups.map (fun g => (g, (List.range 512).flatMap (fun i => leBytes 8 (s.wordAt (flMapKey (512 * g + i))).toNat)))

/-- MAP_CHECKPOINT (R288): past 1 GiB of log a full checkpoint is written and a new log begins. -/
def mapCheckpoint : Act Unit := do
  let s ← Act.get
  if 2 ^ 30 < s.flash.logBytes then
    let at_ ← programOwn 0 2 s.ckptCws
    modFlash (fun x => { x with
      logBytes := 0, logCws := [], ckpt := at_
      sources := x.sources ++ ((x.logCws ++ x.ckpt).map pcaBlock).eraseDups.filter (fun b => !x.sources.contains b) })
    reclaim

/-- Blocks of the tier, and good ones among them. -/
def State.flashTotal (s : State) : Nat := (s.flChans.map (fun c => (s.chanBlocks c).length)).foldl (· + ·) 0
def State.flashGood (s : State) : Nat := s.flashTotal - s.badBlocks.length

/-- MAP_REBUILD_DONE (R287, R288): the map stands in its region as the last checkpoint and its log give it, and is ready; the spare
pool is what the good blocks leave beyond the logical capacity and the reserves. -/
def mapRebuildDone : Act Unit := do
  let s ← Act.get
  if s.flChans = [] ∨ s.fldOf R.FLC_ENG_STATUS F.FLC_ENG_STATUS.map_ready = 1 then return
  for e in s.tab.filter (fun e => decide (flMapKey 0 ≤ e.1 ∧ e.1 < tabKey 22 0)) do mapStore (8 * (e.1 - flMapKey 0)) e.2.toNat
  wrF R.FLC_ENG_STATUS F.FLC_ENG_STATUS.map_ready 1
  let cap := if s.flash.cap = 0 then s.flashGood * 7 / 8 else s.flash.cap
  let left := s.flashGood - cap - s.flashTotal / 100
  modFlash (fun x => { x with cap := cap, reserve := min (s.flashTotal / 200) left })
  setSparePool (left - s.flashTotal / 200)
  if s.flash.badCws = [] ∧ s.badBlocks ≠ [] then writeBadTable

/-! ## Bring-up (R269, R284, R289) -/

/-- The geometry of a channel keeps R268 and the 4 TiB of R269: interface rate, targets and planes code as the record gives them,
what the parameter pages say. -/
def flashFits (rate targets planes luns blocks pages : Nat) : Bool :=
  decide (8 ≤ rate ∧ rate ≤ 36 ∧ rate % 2 = 0 ∧ 1 ≤ targets ∧ targets ≤ 8 ∧ planes ≤ 2 ∧ blocks ≤ 65536 ∧ pages ≤ 65536) &&
    decide (targets * (luns + 1) * 2 ^ planes * blocks * pages * 16384 ≤ 2 ^ 42)

/-- The blocks whose factory marker says they are bad are so in the bad-block table (R284). -/
def factoryBad (l : List Nat) : Act Unit := do
  for b in l do
    if (← rd (fun s => s.blkState b)) = 0 then setBlk b 2 (← rd (fun s => s.blkErases b))

/-- What stands in the flash devices themselves goes through a cold reset: the pages programmed, the log, the checkpoint and the
bad-block table, and what the engine derives its pool from unless the board was repaired (R284, R287, R288). -/
def FlashX.cold (x : FlashX) (repaired : Bool) : FlashX :=
  { logBytes := x.logBytes, logNo := x.logNo, logCws := x.logCws, ckpt := x.ckpt, badCws := x.badCws, prog := x.prog
    sources := ((x.prog.map (fun e => e.1 / 2 ^ 16)).eraseDups), cap := if repaired then 0 else x.cap }

/-- A warm reset drops the commands and the buffers (R288): records of changes already made still go to the log. -/
def FlashX.warm (x : FlashX) : FlashX :=
  { refresh := x.refresh, logBytes := x.logBytes, logNo := x.logNo, logCws := x.logCws, ckpt := x.ckpt, badCws := x.badCws
    sources := x.sources, prog := x.prog, chans := x.chans.map (fun e => (e.1, { e.2 with inHand := none })), cap := x.cap
    reserve := x.reserve, logq := ((x.buf.flatMap (·.recs)) ++ x.logq).filter (fun r => !r.late) }

/-! ## Namespaces at a tick (R272) -/

/-- Logical capacity in 1 GiB units: 7/8 of the good blocks. -/
def State.flashGiB (s : State) : Nat :=
  s.flashGood * s.record.flashPages * 16384 * 7 / 8 / 2 ^ 30

/-- The namespaces are checked: those that overlap another or pass the capacity are invalid. -/
def checkNamespaces : Act Unit := do
  let s ← Act.get
  let ns := (List.range 32).filterMap (fun p =>
    let w := s.reg (R.FLC_NS p)
    if getFld w F.FLC_NS.valid = 1 then some (p, getFld w F.FLC_NS.base, getFld w F.FLC_NS.size) else none)
  let bad (e : Nat × Nat × Nat) : Bool := decide (s.flashGiB < e.2.1 + e.2.2) ||
    ns.any (fun d => d.1 ≠ e.1 && overlaps d.2 e.2)
  for p in List.range 32 do
    stW (nsBadKey p) (b2n (ns.any (fun e => e.1 = p && bad e)))
  if ns.any bad then setPageFault (pageBase .flc 0)

end Sys2Proof.Machine
end

