-- ==== Sys2Proof/Machine/Sites.lean ====
section
/-! DEFINITION. The GDDR7 controllers: sector reads and writes with their errors (R244 to R246), the hold queue of a glean
window (R257), scrub (R247), retraining due (R258), the cover's catch-up (R259, R260), live migration (R261 to R264) and
the loss of a site (R245, R449). Where the spec is open: DEDUCED 81 and 168, DESIGN CHOICE 24, 25, 26, 80 and 82 of the
assumption log. -/

namespace Sys2Proof.Machine

/-- Change a site's record. -/
def modSite (site : Nat) (f : SiteX → SiteX) : Act Unit := do Act.upd (.site site (f (← rd (fun s => s.site site))))

def setSiteState (site st : Nat) : Act Unit := wrF (R.GDC_SITE_STATE site) F.GDC_SITE_STATE.state st

/-- Change the migration record. -/
def modMig (f : MigX → MigX) : Act Unit := do Act.upd (.mig (f (← rd (fun s => s.mig))))

/-! ## Losing a site (R245, R263, R449) -/

/-- A running copy ends and site 16 takes a state again (R263). -/
def migEnd (site st16 : Nat) : Act Unit := do
  modMig (fun m => { m with src := none, cutover := false })
  wrF (R.GDC_MIG_STATUS site) F.GDC_MIG_STATUS.state 0
  setSiteState 16 st16

/-- A site is lost outright: it is FAILED, its position is marked absent, a copy it takes part in ends, and a cover it held
is LOST. A migration already in CUTOVER goes on to its tick edge (R263). -/
def siteFail (site : Nat) : Act Unit := do
  let s ← Act.get
  setSiteState site 7
  wrF (R.GDC_SITE_CFG site) F.GDC_SITE_CFG.role 0
  match s.mig.src with
  | some m =>
    if !s.mig.cutover then
      if m = site then migEnd m 5
      else if site = 16 then
        migEnd m 7
        setSiteState m 2
  | none => skip
  if site = 16 ∧ s.fldOf R.GDC_COVER_STATUS F.GDC_COVER_STATUS.state ≠ 0 then
    wrF R.GDC_COVER_STATUS F.GDC_COVER_STATUS.state 3

/-- A channel is marked failed; the second one of a site loses the site (R245). -/
def chanFail (site c : Nat) : Act Unit := do
  let s ← Act.get
  if s.chanFailed site c then return
  let bad := s.fldOf (R.GDC_SITE_STATE site) F.GDC_SITE_STATE.failed_channels
  wrF (R.GDC_SITE_STATE site) F.GDC_SITE_STATE.failed_channels (orBit bad c)
  setIrq (pageBase .gdc site) 32
  if bad ≠ 0 then siteFail site

/-- A rebuild of a channel is counted against its limit within the tick (R245). -/
def noteRebuild (site c : Nat) : Act Unit := do
  let x ← rd (fun s => s.site site)
  let n := ((x.rebuilds.find? (fun e => e.1 = c)).map (·.2)).getD 0 + 1
  Act.upd (.site site { x with rebuilds := x.rebuilds.filter (fun e => e.1 ≠ c) ++ [(c, n)] })
  if (← rdF (R.GDC_ECC_CTRL site) F.GDC_ECC_CTRL.chan_fail_limit) < n then chanFail site c

/-! ## Reads and writes (R244, R246, R257) -/

/-- What the device says of a sector read: how many reads in succession fail their CRC, whether on-die ECC corrected the
data or could not, and the channels whose sectors fail should the stripe be rebuilt. -/
structure DevRead where
  crcFails : Nat
  corrected : Bool
  uncorrectable : Bool
  bad : Nat
deriving DecidableEq, Repr

/-- The read of usable sector `n` of a site (R244): whether it is answered with data. -/
def sectorRead (site n : Nat) (d : DevRead) : Act Bool := do
  let s ← Act.get
  let c := (sectorPlace (n * 64)).1
  let retries := s.fldOf (R.GDC_ECC_CTRL site) F.GDC_ECC_CTRL.crc_retries
  let failed := s.chanFailed site c
  if !failed && decide (0 < min d.crcFails retries) then count (C.GDC_CNT_CRC_RETRY site) (min d.crcFails retries)
  if !failed && decide (d.crcFails ≤ retries) && !d.uncorrectable then
    if d.corrected then count (C.GDC_CNT_ODECC_CE site) 1
    return true
  let others := (List.range 4).filter (fun e => e ≠ c)
  if others.any (fun e => bit d.bad e || s.chanFailed site e) then
    count (C.GDC_CNT_UE site) 1
    eccLast site 2 c n
    setIrq (pageBase .gdc site) 33
    return false
  count (C.GDC_CNT_RECON site) 1
  eccLast site 1 c n
  if !failed then noteRebuild site c
  return true

/-- An access waits: its site's glean window is open and the cover does not serve it (R257, R260). -/
def State.waits (s : State) (l : GLoc) : Bool := !s.coverServes l && s.siteState (s.siteOfPos l.pos) = 3

/-- The controller an access reaches takes new work (R14). -/
def State.gdcServes (s : State) (l : GLoc) : Bool := s.pageServes (pageBase .gdc (s.reach l).1)

/-- A request joins those that wait for a site: the first 512 in the controller's hold queue, later ones at the attachment port
(R257). -/
def holdReq (site : Nat) (q : HeldReq) : Act Unit := do
  let x ← rd (fun s => s.site site)
  Act.upd (.site site { x with hold := x.hold ++ [q] })
  wrF (R.GDC_HOLD_STATUS site) F.GDC_HOLD_STATUS.held (min 512 (x.hold.length + 1))

/-- `n` microseconds, of 2,200 mesh clocks each, pass for the sites that hold requests (R32, R257). -/
def holdWaits (n : Nat) : Act Unit := do
  for k in List.range 17 do
    let x ← rd (fun s => s.site k)
    if x.hold ≠ [] then count (C.GDC_CNT_GLEAN_HOLD k) (2200 * n)
    if 512 ≤ x.hold.length then count (C.GDC_CNT_HOLD_FULL k) (2200 * n)

/-- GDDR7_READ (R241, R244, R257): one sector is read for a requester. -/
def gddrRead (src part addr : Nat) (d : DevRead) : Act Unit := do
  let s ← Act.get
  let a := addr / 64 * 64
  match s.translate part a false with
  | .error e =>
    refuseMem src part a false e
    send (.error src e)
  | .ok l =>
    if s.waits l || !s.gdcServes l then
      holdReq (s.siteOfPos l.pos) { write := false, src := src, part := part, addr := a, data := [] }
    else
      let (site, f) := s.reach l
      if !s.coverServes l && !s.siteServes site then send (.error src 0x10)
      else if ← sectorRead site (f / 64) d then
        match ← gReadWith false src part a 64 with
        | .ok bs => send (.data src bs)
        | .error e => send (.error src e)
      else send (.error src 0x10)

/-- A write for a requester, answered with an error where it is refused. -/
def gddrWriteNow (src part addr : Nat) (bs : List Byte) : Act Unit := do
  match ← gWrite src part addr bs with
  | none => skip
  | some e => send (.error src e)

/-- GDDR7_WRITE (R246, R257): a write of a requester, held while a site it reaches is in its window. -/
def gddrWrite (src part addr : Nat) (bs : List Byte) : Act Unit := do
  let s ← Act.get
  match (sectorRuns addr bs.length).findSome? (fun r => match s.translate part r.1 true with
    | .ok l => if s.waits l || !s.gdcServes l then some (s.siteOfPos l.pos) else none
    | .error _ => none) with
  | some site => holdReq site { write := true, src := src, part := part, addr := addr, data := bs }
  | none => gddrWriteNow src part addr bs

/-- The held requests of a site are served in the order they came (R257). -/
def serveHeld (site : Nat) : Act Unit := do
  let x ← rd (fun s => s.site site)
  Act.upd (.site site { x with hold := [] })
  wrF (R.GDC_HOLD_STATUS site) F.GDC_HOLD_STATUS.held 0
  for q in x.hold do
    if q.write then gddrWriteNow q.src q.part q.addr q.data
    else
      match ← gRead q.src q.part q.addr 64 with
      | .ok bs => send (.data q.src bs)
      | .error e => send (.error q.src e)

/-! ## Training (R245, R258) -/

/-- What a site's training left (R245, R258): 1 pass, 2 failed, 3 abandoned. -/
def trainResult (site result temp chan : Nat) : Act Unit := do
  let r := R.GDC_PHY_TRAIN_STATUS site
  wrF r F.GDC_PHY_TRAIN_STATUS.last_result result
  wrF r F.GDC_PHY_TRAIN_STATUS.temp_now temp
  if result = 1 then
    count (C.GDC_PHY_CNT_TRAIN site) 1
    wrF (R.GDC_PHY_TRAIN_TICK site) F.GDC_PHY_TRAIN_TICK.tick (← rdF R.TIM_TICK_NOW F.TIM_TICK_NOW.tick)
    wrF r F.GDC_PHY_TRAIN_STATUS.temp_at_train temp
    wrF r F.GDC_PHY_TRAIN_STATUS.fail_streak 0
    for c in List.range 4 do
      wrF (R.GDC_PHY_MARGIN site c) F.GDC_PHY_MARGIN.wr_margin (← freshBelow 65536)
      wrF (R.GDC_PHY_MARGIN site c) F.GDC_PHY_MARGIN.rd_margin (← freshBelow 65536)
  if result = 2 then
    count (C.GDC_PHY_CNT_TRAIN_FAIL site) 1
    let k ← rdF r F.GDC_PHY_TRAIN_STATUS.fail_streak
    wrF r F.GDC_PHY_TRAIN_STATUS.fail_streak (min 15 (k + 1))
    if k + 1 = 2 then chanFail site chan

/-- A site's training at the bring-up ends: it serves, site 16 in reserve, and the PHY page records the training with the
site's temperature, which is open (R255, R258, R484). -/
def siteTrained (site : Nat) : Act Unit := do
  trainResult site 1 (← freshBelow 256) 0
  setSiteState site (if site = 16 then 5 else 2)

/-! ## Scrub and retraining -/

/-- SCRUB_STRIPE (R247): the patrol scrub reads a stripe outside windows; `deviceError` says the device reported one. -/
def scrubStripe (site stripe : Nat) (deviceError : Bool) : Act Unit := do
  let s ← Act.get
  if s.fldOf (R.GDC_SCRUB_CTRL site) F.GDC_SCRUB_CTRL.period_h = 0 then return
  if !([2, 4, 5, 6] : List Nat).contains (s.siteState site) then return
  if s.fldOf (R.GDC_SITE_STATE site) F.GDC_SITE_STATE.failed_channels ≠ 0 then return
  let odd := (List.range 64).any (fun i =>
    (List.range 4).foldl (fun b c => b ^^^ s.devByte site c (stripe * 64 + i)) (0 : Byte) ≠ 0)
  if odd && !deviceError then
    eccLast site 3 (← freshBelow 4) (3 * stripe + (← freshBelow 3))
    setPageFault (pageBase .gdc site)
    count (C.GDC_CNT_SCRUB_MISMATCH site) 1

/-- RETRAIN_DUE (R258): the site's temperature is taken; a change beyond temp_delta since the last training asks for a
window. -/
def retrainDue (site temp : Nat) : Act Unit := do
  wrF (R.GDC_PHY_TRAIN_STATUS site) F.GDC_PHY_TRAIN_STATUS.temp_now temp
  let s ← Act.get
  let was := s.fldOf (R.GDC_PHY_TRAIN_STATUS site) F.GDC_PHY_TRAIN_STATUS.temp_at_train
  let now := s.fldOf (R.GDC_PHY_TRAIN_STATUS site) F.GDC_PHY_TRAIN_STATUS.temp_now
  if s.fldOf (R.GDC_PHY_RETRAIN site) F.GDC_PHY_RETRAIN.temp_delta < max was now - min was now then
    setIrq (pageBase .gdc (17 + site)) 32
    count (C.GDC_PHY_CNT_RETRAIN_DUE site) 1

/-! ## The cover's catch-up (R260) -/

/-- The bytes of a 64 KiB unit of a site's usable space. -/
def State.unitBytes (s : State) (site f : Nat) : List Byte := (List.range 65536).map (fun i => s.siteByte site (f + i))

/-- The marks are all copied: the cover is current again. -/
def coverSettle : Act Unit := do
  let s ← Act.get
  if s.fldOf R.GDC_COVER_STATUS F.GDC_COVER_STATUS.state = 2 && s.mig.coverMarks.isEmpty &&
      (List.range 16).all (fun p => (s.site p).marks.isEmpty) then
    wrF R.GDC_COVER_STATUS F.GDC_COVER_STATUS.state 1

/-- A unit has been copied in catch-up. -/
def coverCopied : Act Unit := do
  let n ← rdF R.GDC_COVER_STATUS F.GDC_COVER_STATUS.stale_units
  wrF R.GDC_COVER_STATUS F.GDC_COVER_STATUS.stale_units (n - 1)
  count (C.GDC_CNT_COVER_CATCHUP 16) 1
  coverSettle

/-- COVER_CATCHUP (R260): once its window is closed, the controller copies position `p`'s next marked unit from site 16 back
to it, or from it to site 16. -/
def coverCatchup (p : Nat) : Act Unit := do
  let s ← Act.get
  let site := s.siteOfPos p
  match (s.site p).marks with
  | u :: rest =>
    if s.siteState site = 2 ∨ s.siteState site = 4 then
      siteWrite site (u * 2 ^ 16) (s.unitBytes 16 (s.coverOff p (u * 2 ^ 16)))
      modSite p (fun x => { x with marks := rest })
      coverCopied
  | [] =>
    match s.mig.coverMarks.find? (fun e => e.1 = p) with
    | some e =>
      if s.siteState 16 = 6 ∧ s.siteServes site then
        siteWrite 16 (s.coverOff p (e.2 * 2 ^ 16)) (s.unitBytes site (e.2 * 2 ^ 16))
        modMig (fun m => { m with coverMarks := m.coverMarks.erase e })
        coverCopied
    | none => skip

/-- A write has changed GDC_COVER_CTRL.enable, or site 16 has come out of a window (R259): the cover goes on while site 16 is in
reserve, or ends. -/
def coverSwitched : Act Unit := do
  let s ← Act.get
  let on := decide (s.fldOf R.GDC_COVER_CTRL F.GDC_COVER_CTRL.enable = 1)
  let off := s.fldOf R.GDC_COVER_STATUS F.GDC_COVER_STATUS.state = 0 || s.fldOf R.GDC_COVER_STATUS F.GDC_COVER_STATUS.state = 3
  if on && s.siteState 16 = 5 then
    setSiteState 16 6
    if off then wrF R.GDC_COVER_STATUS F.GDC_COVER_STATUS.state 1
  else if !on && [3, 5, 6].contains (s.siteState 16) && s.fldOf (R.GDC_SITE_CFG 16) F.GDC_SITE_CFG.role ≠ 1 then
    if s.siteState 16 ≠ 3 then setSiteState 16 5
    wrF R.GDC_COVER_STATUS F.GDC_COVER_STATUS.state 0
    wrF R.GDC_COVER_STATUS F.GDC_COVER_STATUS.stale_units 0
    modMig (fun m => { m with coverMarks := [] })
    for p in List.range 16 do
      if !(s.site p).marks.isEmpty then modSite p (fun x => { x with marks := [] })

/-! ## Live migration (R261 to R264) -/

/-- MIG_START is refused (R261). -/
def State.migRefused (s : State) (site : Nat) : Bool :=
  !s.populated 16 || (s.siteState 16 ≠ 5 && s.siteState 16 ≠ 6) || s.mig.src.isSome || s.siteState site ≠ 2

/-- A migration starts: the cover ends and the copy begins at unit 0 (R261). -/
def migStart (site : Nat) : Act Unit := do
  let now ← rd (fun s => (s.reg R.TIM_NOW).toNat)
  modMig (fun m => { m with src := some site, cutover := false, coverMarks := [], since := now })
  wrF R.GDC_COVER_STATUS F.GDC_COVER_STATUS.state 3
  wrF (R.GDC_MIG_STATUS site) F.GDC_MIG_STATUS.state 1
  wrF (R.GDC_MIG_STATUS site) F.GDC_MIG_STATUS.pointer 0
  setSiteState site 4
  setSiteState 16 4

/-- MIG_ABORT (R263): while copying, the copy stops and site 16 returns to FALLOW. -/
def migAbort (site : Nat) : Act Unit := do
  let s ← Act.get
  if s.mig.src = some site ∧ s.fldOf (R.GDC_MIG_STATUS site) F.GDC_MIG_STATUS.state = 1 then
    migEnd site 5
    setSiteState site 2

/-- The addresses of a site's device at which some channel holds a byte other than 0. -/
def State.siteAddrs (s : State) (site : Nat) : List (Nat × Nat) :=
  (s.mem.filter (fun e => decide (gddrKey site 0 0 ≤ e.1 ∧ e.1 < gddrKey site 4 0))).map
    (fun e => ((e.1 - gddrKey site 0 0) / 2 ^ 40, (e.1 - gddrKey site 0 0) % 2 ^ 40))

/-- Bytes of a device of each kind (R239, R255). -/
def deviceBytes (device : Nat) : Nat := 2 ^ (34 + device)

/-- The 1 MiB units of a site's device (R262). -/
def State.siteUnits (s : State) (site : Nat) : Nat := deviceBytes (s.fldOf (R.GDC_SITE_CFG site) F.GDC_SITE_CFG.device) / 2 ^ 20

/-- The pointer of the copy from a site (R262, R266). -/
def State.migPointer (s : State) (site : Nat) : Nat := s.fldOf (R.GDC_MIG_STATUS site) F.GDC_MIG_STATUS.pointer

/-- Copy units `lo` to `hi` − 1 of a site's raw device to site 16, parity included; a failed channel is rebuilt from the other
three (R262). A unit holds 2^18 bytes of each channel. -/
def copyUnits (site lo hi : Nat) : Act Unit := do
  let s ← Act.get
  for c in List.range 4 do Act.upd (.clearMem (gddrKey 16 c (lo * 2 ^ 18)) (gddrKey 16 c (hi * 2 ^ 18)))
  for e in (s.siteAddrs site).filter (fun e => decide (lo * 2 ^ 18 ≤ e.2 ∧ e.2 < hi * 2 ^ 18)) do
    if !s.chanFailed site e.1 then Act.upd (.byte (gddrKey 16 e.1 e.2) (s.devByte site e.1 e.2))
    for c in List.range 4 do
      if s.chanFailed site c then Act.upd (.byte (gddrKey 16 c e.2) (s.rebuiltByte site c e.2))
  wrF (R.GDC_MIG_STATUS site) F.GDC_MIG_STATUS.pointer hi
  count (C.GDC_CNT_MIG_BYTES site) ((hi - lo) * 2 ^ 20)

/-- Units a copy may have done by now: rate_pct of the site's 4 B a nanosecond for each Gb/s of the pin rate (R257, R262). -/
def State.migAllowed (s : State) (site : Nat) : Nat :=
  ((s.reg R.TIM_NOW).toNat - s.mig.since) * (4 * s.fldOf (R.GDC_PHY_CFG site) F.GDC_PHY_CFG.rate_gbps) *
    s.fldOf (R.GDC_MIG_CTRL site) F.GDC_MIG_CTRL.rate_pct / 100 / 2 ^ 20

/-- Time has passed for a running copy: it goes on by a free number of units, none past what its share allows and never by its
last one, which MIG_COPY_DONE copies (R262, DESIGN CHOICE 82). -/
def migProgress : Act Unit := do
  let s ← Act.get
  match s.mig.src with
  | none => skip
  | some site =>
    let lo := s.migPointer site
    let top := min (s.migAllowed site) (s.siteUnits site - 1)
    if !s.mig.cutover ∧ lo < top then
      let k ← freshBelow (top + 1 - lo)
      if k ≠ 0 then copyUnits site lo (lo + k)

/-- MIG_COPY_DONE (R262, R263): the last unit of the running copy is done, and the position change waits for the next tick
edge. -/
def migCopyDone : Act Unit := do
  let s ← Act.get
  match s.mig.src with
  | none => skip
  | some site =>
    if s.fldOf (R.GDC_MIG_STATUS site) F.GDC_MIG_STATUS.state = 1 then
      copyUnits site (s.migPointer site) (s.siteUnits site)
      wrF (R.GDC_MIG_STATUS site) F.GDC_MIG_STATUS.state 2
      modMig (fun m => { m with cutover := true })

/-- At a tick edge site 16 takes the position of a migration in CUTOVER (R263, R264); a site 16 lost since stays lost. -/
def migCutover : Act Unit := do
  let s ← Act.get
  match s.mig.src with
  | none => skip
  | some site =>
    if s.mig.cutover then
      modMig (fun m => { m with src := none, cutover := false })
      wrF (R.GDC_SITE_CFG 16) F.GDC_SITE_CFG.position (s.fldOf (R.GDC_SITE_CFG site) F.GDC_SITE_CFG.position)
      wrF (R.GDC_SITE_CFG site) F.GDC_SITE_CFG.role 3
      if s.siteState 16 ≠ 7 then
        wrF (R.GDC_SITE_CFG 16) F.GDC_SITE_CFG.role 1
        setSiteState 16 2
      setSiteState site 8
      wrF (R.GDC_MIG_STATUS site) F.GDC_MIG_STATUS.state 3
      setIrq (pageBase .gdc site) 34

end Sys2Proof.Machine
end

