-- ==== Sys2Proof/Machine/Borders.lean ====
section
/-! DEFINITION. The logical tile map (R25 to R27, R48), what partitions hold and how a resource changes hands (R374 to
R376, R381, R382), and the commit of the granule maps (R240, R401). Where the spec is open: DEDUCED 15, 105, 106, 107,
108, 109 and 112, DESIGN CHOICE 110, 137 and 138 of the assumption log. -/

namespace Sys2Proof.Machine

/-! ## The logical tile map (R27) -/

/-- The map in effect: page and logical number of every entry that is not treated as unmapped (R27). A tile in OFF or SELFTEST
is not mapped yet. -/
def State.mapInEffect (s : State) : List (Nat × Nat) :=
  (List.range 576).foldl (fun acc n =>
    let e := s.mapEntry n
    let page := e % 1024
    if bit e 15 && decide (page < 624) && !(acc.any (fun m => m.1 = page)) && [2, 3, 4].contains (s.tileState page) then
      acc ++ [(page, n)]
    else acc) []

/-- Give a tile its logical number (R48, R49): from STANDBY it becomes ACTIVE. A tile that still drains from an earlier entry
takes the new one as it is, its unissued descriptors with it, and issues on (DESIGN CHOICE 137). -/
def tileMapped (page n : Nat) : Act Unit := do
  wrF (R.TILE_IDENT page) F.TILE_IDENT.logical_valid 1
  wrF (R.TILE_IDENT page) F.TILE_IDENT.logical n
  if (← rd (fun s => s.tileState page)) = 2 then wrF (pageBase .tile page + 0x18) F.PAGE_STATUS.state 3
  else if (← rd (fun s => (s.tile page).leaving)) then modTile page (fun x => { x with leaving := false })

/-- The entry that named a tile is gone (R48): an ACTIVE or QUIESCED tile stops issuing, and goes to STANDBY once its issued
descriptors have retired. -/
def tileUnmapped (page : Nat) : Act Unit := do
  wrF (R.TILE_IDENT page) F.TILE_IDENT.logical_valid 0
  wrF (R.TILE_IDENT page) F.TILE_IDENT.logical 0
  let st ← rd (fun s => s.tileState page)
  if st = 3 ∨ st = 4 then
    modTile page (fun x => { x with leaving := true })
    whenIdle page

/-- 1 once the map has been written since the last cold boot (R27). -/
def mapWrittenKey : Nat := tabKey 36 0

/-- Map words have taken effect, or a mapped tile has passed its self-test: the whole map is checked (R27). An ACTIVE tile
that one change gives another number keeps its state and its queue under the new number (DESIGN CHOICE 138). -/
def mapCheck : Act Unit := do
  let s ← Act.get
  let m := s.mapInEffect
  for page in List.range 624 do
    match m.find? (fun e => e.1 = page) with
    | some e => tileMapped page e.2
    | none => if s.fldOf (R.TILE_IDENT page) F.TILE_IDENT.logical_valid = 1 then tileUnmapped page
  if (← ldW mapWrittenKey) = 1 then
    if m.length < 576 then setPageFault (pageBase .hay 8) else clearPageFault (pageBase .hay 8)

/-! ## Clearing and moving a tile (R381) -/

/-- The operation queue is flushed whole (R127): unissued descriptors are discarded, the issued ones retire and signal. -/
def flushNow (page : Nat) : Act Unit := do
  discardUnissued page
  let n ← rd (fun s => (s.tile page).flights.length)
  for _ in List.range n do retireOp page 0 0
  let m ← rd (fun s => (s.tile page).signals.length)
  for _ in List.range m do signalOp page 0

/-- A tile's 4 MiB read 0 and its block registers are at their reset values; its coordinates and its logical number stand
(R381, R434). -/
def tileClear (page : Nat) : Act Unit := do
  let id ← rdR (R.TILE_IDENT page)
  let pb := pageBase .tile page
  Act.upd (.clearRegs (pb + 0x100) (pb + 0x800))
  wrR (R.TILE_IDENT page) id
  Act.upd (.clearStaged pb (pb + 0x1000))
  wrF (pb + 0x18) F.PAGE_STATUS.staged_pending 0
  Act.upd (.clearMem (tileKey page 0) (tileKey (page + 1) 0))
  Act.upd (.clearTab (copyKey page 0) (copyKey (page + 1) 0))
  Act.upd (.clearTab (histKey page 0 0) (histKey (page + 1) 0 0))
  Act.upd (.tile page {})

/-- The logical tile's owner, as the owner tables hold it (R375). -/
def tileOwnerKey (n : Nat) : Nat := tabKey 35 n

/-- The one valid partition granted logical tile `n` (R374, R376). -/
def State.tileGranted (s : State) (n : Nat) : Option Nat :=
  match (List.range 32).filter (fun p => s.partValid p && bit (s.reg (R.PRT_TILES p (n / 64))).toNat (n % 64)) with
  | [p] => some p
  | _ => none

/-- A logical tile changes partition (R381): its tile is flushed, cleared, and reads QUIESCED until it is zeroed. -/
def tileMove (n o : Nat) : Act Unit := do
  let s ← Act.get
  let was := (s.wordAt (tileOwnerKey n)).toNat
  if was ≠ o then
    stW (tileOwnerKey n) o
    match s.tileOf n with
    | none => skip
    | some page =>
      if 0 < was ∧ s.opqRetired page ≠ s.opqTail page then count (C.PRT_CNT_MOVE_FLUSH (was - 1)) 1
      flushNow page
      tileClear page
      if s.tileState page = 3 ∨ s.tileState page = 4 then
        wrF (pageBase .tile page + 0x18) F.PAGE_STATUS.state 4
        modTile page (fun x => { x with zeroing := true })

/-- PAGE_OWNER of a TILE page follows the grant of its logical number; fallow and failed tiles are the hayward's (R47,
R375). -/
def tilePageOwner (page : Nat) : Act Unit := do
  let s ← Act.get
  let o := if s.fldOf (R.TILE_IDENT page) F.TILE_IDENT.logical_valid = 1 ∧ s.tileState page ≠ 5 then
    (s.wordAt (tileOwnerKey (s.fldOf (R.TILE_IDENT page) F.TILE_IDENT.logical))).toNat else 0
  let a := pageBase .tile page + 0x20
  wrF a F.PAGE_OWNER.hay_owned (b2n (o = 0))
  wrF a F.PAGE_OWNER.partition (o - 1)

/-- TILE_ZERO_DONE (R381): a moved tile is zeroed and becomes ACTIVE. -/
def tileZeroDone (page : Nat) : Act Unit := do
  if ← rd (fun s => (s.tile page).zeroing) then
    modTile page (fun x => { x with zeroing := false })
    if (← rd (fun s => s.tileState page)) = 4 then wrF (pageBase .tile page + 0x18) F.PAGE_STATUS.state 3

/-! ## Hub SRAM units (R374, R381) -/

/-- The one valid partition granted unit `u` of hub `h`; units 0 to 47 are never granted (R374). -/
def State.unitGrant (s : State) (h u : Nat) : Option Nat :=
  if u < 48 then none
  else match (List.range 32).filter (fun p => s.partValid p &&
      inRun (s.fldOf (R.PRT_HUBMEM p h) F.PRT_HUBMEM.base) (s.fldOf (R.PRT_HUBMEM p h) F.PRT_HUBMEM.count) u) with
  | [p] => some p
  | _ => none

/-- HAY_ZERO_STATUS shows what is still being zeroed (R401). -/
def showZero : Act Unit := do
  let m ← rd (fun s => s.move)
  wrF R.HAY_ZERO_STATUS F.HAY_ZERO_STATUS.hub_units m.units.length
  wrF R.HAY_ZERO_STATUS F.HAY_ZERO_STATUS.granules ((m.slices.length + 15) / 16)

/-- Change the record of the moves in hand. -/
def modMove (f : MoveX → MoveX) : Act Unit := do Act.upd (.move (f (← rd (fun s => s.move))))

/-- A hub SRAM unit goes to the partition its grant names: it reads 0 from then on, and is being zeroed (R381). -/
def unitMove (h u : Nat) : Act Unit := do
  let s ← Act.get
  let o := ownerCode (s.unitGrant h u)
  if (s.wordAt (unitOwnerKey h u)).toNat ≠ o then
    stW (unitOwnerKey h u) o
    Act.upd (.clearMem (hubKey h (u * 65536)) (hubKey h ((u + 1) * 65536)))
    modMove (fun m => { m with units := m.units.filter (· ≠ h * 256 + u) ++ [h * 256 + u] })

/-- HUB_UNIT_ZERO_DONE (R381). -/
def hubUnitZeroDone (h u : Nat) : Act Unit := do
  modMove (fun m => { m with units := m.units.filter (· ≠ h * 256 + u) })
  showZero

/-! ## Grants in effect (R375, R376) -/

/-- Numbers that lie in two of the runs given. -/
def runConflicts (runs : List (Nat × Nat)) : List Nat :=
  ((List.range runs.length).flatMap (fun i => (List.range i).flatMap (fun j =>
    let a := runs.getD i (0, 0)
    let b := runs.getD j (0, 0)
    let lo := max a.1 b.1
    (List.range (min (a.1 + a.2) (b.1 + b.2) - lo)).map (lo + ·)))).eraseDups

/-- The resources granted to two valid partitions, with their kind (R376, R401). -/
def State.conflicts (s : State) : List (Nat × Nat) :=
  let ps := (List.range 32).filter (fun p => s.partValid p)
  let tiles := (List.range 576).filter (fun n =>
    decide (1 < (ps.filter (fun p => bit (s.reg (R.PRT_TILES p (n / 64))).toNat (n % 64))).length))
  let units := (List.range 4).flatMap (fun h =>
    ((runConflicts (ps.map (fun p =>
      (s.fldOf (R.PRT_HUBMEM p h) F.PRT_HUBMEM.base, s.fldOf (R.PRT_HUBMEM p h) F.PRT_HUBMEM.count)))).filter
        (fun u => decide (48 ≤ u))).map (h * 256 + ·))
  let rings := runConflicts (ps.map (fun p => (s.fldOf (R.PRT_RINGS p) F.PRT_RINGS.base, s.fldOf (R.PRT_RINGS p) F.PRT_RINGS.count)))
  let slots := runConflicts (ps.map (fun p => (s.fldOf (R.PRT_SLOTS p) F.PRT_SLOTS.base, s.fldOf (R.PRT_SLOTS p) F.PRT_SLOTS.count)))
  let keys := ps.filter (fun p => s.partKey p ≠ 0 && (ps.find? (fun q => s.partKey q = s.partKey p)) = some p &&
    decide (1 < (ps.filter (fun q => s.partKey q = s.partKey p)).length))
  tiles.map (fun n => (1, n)) ++ units.map (fun n => (2, n)) ++ rings.map (fun n => (3, n)) ++ slots.map (fun n => (4, n)) ++
    keys.map (fun n => (5, n))

/-- The check of R376. -/
def grantCheck : Act Unit := do
  match ← rd State.conflicts with
  | [] => skip
  | c :: cs =>
    wrF R.HAY_CONFLICT F.HAY_CONFLICT.kind c.1
    wrF R.HAY_CONFLICT F.HAY_CONFLICT.index c.2
    count C.HAY_CNT_GRANT_CONFLICT (cs.length + 1)
    setPageFault (pageBase .hay 0)

/-- A partition exists while its valid bit is 1 (R374, R384, R403). -/
def partSettle (p : Nat) : Act Unit := do
  let s ← Act.get
  let st := s.fldOf (R.PRT_CTRL p) F.PRT_CTRL.state
  if s.partValid p ∧ st = 0 then wrF (R.PRT_CTRL p) F.PRT_CTRL.state 1
  if !s.partValid p ∧ st ≠ 0 then
    wrF (R.PRT_CTRL p) F.PRT_CTRL.state 0
    wrF (R.PRT_CTRL p) F.PRT_CTRL.stop 0
    unquenchPart p

/-- The rings, or the slots, that a grant names or a partition holds. -/
def State.grantedOf (s : State) (lo hi : Nat) (runs : List (Nat × Nat)) : List Nat :=
  (runs.flatMap (fun r => (List.range r.2).map (r.1 + ·)) ++
    (s.tab.filter (fun e => decide (lo ≤ e.1 ∧ e.1 < hi))).map (fun e => e.1 - lo)).eraseDups

/-- The namespace word in effect at the last tick (R381). -/
def nsWasKey (p : Nat) : Nat := tabKey 34 p

/-- FLC_NS_n as it stood since the last reset, 0 until it is first granted. -/
def nsPrevKey (p : Nat) : Nat := tabKey 41 p

/-- A namespace word holds a unit. -/
def nsHolds (w : Word) (u : Nat) : Bool := getFld w F.FLC_NS.valid = 1 &&
  inRun (getFld w F.FLC_NS.base * 16384) (getFld w F.FLC_NS.size * 16384) u

/-- Mapped units that leave a namespace or come to one are trimmed (R381). What a reset takes from FLC_NS leaves nothing: the map
survives until the namespace is granted anew (R288). -/
def nsMoves : Act Unit := do
  for p in List.range 32 do
    let s ← Act.get
    let new := s.reg (R.FLC_NS p)
    if s.wordAt (nsPrevKey p) ≠ new then
      for e in s.tab.filter (fun e => decide (flMapKey 0 ≤ e.1 ∧ e.1 < tabKey 22 0)) do
        if nsHolds (s.wordAt (nsWasKey p)) (e.1 - flMapKey 0) ≠ nsHolds new (e.1 - flMapKey 0) then unmapUnit (e.1 - flMapKey 0)
      stW (nsWasKey p) new.toNat
      stW (nsPrevKey p) new.toNat

/-- Position 4 of a tick edge once grants have taken effect: they are checked, and what changed partition moves (R375, R376,
R381). -/
def grantsSettle : Act Unit := do
  for p in List.range 32 do partSettle p
  grantCheck
  for n in List.range 576 do tileMove n (← rd (fun s => ownerCode (s.tileGranted n)))
  for page in List.range 624 do tilePageOwner page
  for h in List.range 4 do
    for u in List.range 256 do unitMove h u
  let s ← Act.get
  let run (a : Nat) (b c : Fld) : Nat × Nat := (s.fldOf a b, s.fldOf a c)
  for n in s.grantedOf (ringOwnerKey 0) (ringOwnerKey 65536)
      ((List.range 32).map (fun p => run (R.PRT_RINGS p) F.PRT_RINGS.base F.PRT_RINGS.count)) do ringSettle n
  for n in s.grantedOf (slotOwnerKey 0) (slotOwnerKey 16384)
      ((List.range 32).map (fun p => run (R.PRT_SLOTS p) F.PRT_SLOTS.base F.PRT_SLOTS.count)) do slotSettle n
  nsMoves
  showZero

/-! ## Granule maps (R240, R382, R401) -/

/-- The slices a map entry covers: position and slice. -/
def entrySlices (e : Word) : List (Nat × Nat) :=
  let w := getFld e F.GMAP.width
  (groupPositions w (getFld e F.GMAP.place)).flatMap (fun p =>
    (List.range (16 / widthSites w)).map (fun i => (p, getFld e F.GMAP.slice + i)))

/-- The valid entries of the maps of valid partitions: partition, number, entry. -/
def State.mapEntries (s : State) : List (Nat × Nat × Word) :=
  (s.tab.filter (fun e => decide (gmapKey 0 0 ≤ e.1 ∧ e.1 < tabKey 2 0) && getFld e.2 F.GMAP.valid = 1 &&
    s.partValid ((e.1 - gmapKey 0 0) / 1024))).map
      (fun e => ((e.1 - gmapKey 0 0) / 1024, (e.1 - gmapKey 0 0) % 1024, e.2))

/-- Two entries name a slice both. -/
def entriesMeet (a b : Word) : Bool :=
  let n := 16 / widthSites (getFld a F.GMAP.width)
  let m := 16 / widthSites (getFld b F.GMAP.width)
  let pa := groupPositions (getFld a F.GMAP.width) (getFld a F.GMAP.place)
  let pb := groupPositions (getFld b F.GMAP.width) (getFld b F.GMAP.place)
  overlaps (getFld a F.GMAP.slice, n) (getFld b F.GMAP.slice, m) && pa.any (fun p => pb.contains p)

/-- An entry is to be treated as invalid (R240, R259, R382, R449). -/
def State.entryBad (s : State) (all : List (Nat × Nat × Word)) (p i : Nat) (e : Word) : Bool :=
  let w := getFld e F.GMAP.width
  let n := 16 / widthSites w
  let place := getFld e F.GMAP.place
  let slice := getFld e F.GMAP.slice
  let spread := decide (w = 3)
  let placeOk := match w with
    | 0 => true
    | 1 => decide (place < 8)
    | 2 => decide (place < 4)
    | _ => place = 0
  let siteBad (pos : Nat) : Bool :=
    let site := s.siteOfPos pos
    decide (s.siteSlices site < slice + n) ||
      if s.siteState site = 7 then !(spread && s.coverCurrent) else !s.populated site
  let base := s.fldOf R.GDC_COVER_CTRL F.GDC_COVER_CTRL.spread_base
  let band := s.fldOf R.GDC_COVER_CTRL F.GDC_COVER_CTRL.band
  !placeOk || slice % n ≠ 0 || (groupPositions w place).any siteBad ||
    (spread && (s.fldOf (R.PRT_CTRL p) F.PRT_CTRL.spread = 0 || !inRun base band slice)) ||
    all.any (fun d => (d.1 ≠ p || d.2.1 ≠ i) && entriesMeet e d.2.2) ||
    (entrySlices e).any (fun x => s.move.slices.contains (x.1 * 1024 + x.2))

/-- The maps in effect are judged anew (R240, R376, R382, R449). -/
def mapsJudge : Act Unit := do
  let s ← Act.get
  let all := s.mapEntries
  Act.upd (.clearTab (gmapBadKey 0 0) (tabKey 4 0))
  for e in all do
    if s.entryBad all e.1 e.2.1 e.2.2 then
      stW (gmapBadKey e.1 e.2.1) 1
      setPageFault (pageBase .gdc 0)

/-- Every byte of a slice reads 0 (R382). -/
def zeroSlice (pos slice : Nat) : Act Unit := do
  let s ← Act.get
  let site := s.siteOfPos pos
  let lo := slice * 2 ^ 26
  let fs := ((s.siteAddrs site).flatMap (fun e => (List.range 3).map (fun j =>
    (e.2 / 64 * 3 + j) * 64 + e.2 % 64))).eraseDups
  for f in fs.filter (fun f => decide (lo ≤ f ∧ f < lo + 2 ^ 26)) do siteWriteByte site f 0

/-- The commit of the shadow maps of the partitions named (R240, R382): slices that leave a partition are zeroed. -/
def mapCommit (parts : Nat) : Act Unit := do
  if parts ≠ 0 then
    for p in setBitList 32 parts do
      let s ← Act.get
      let old := (s.tab.filter (fun e => decide (gmapKey p 0 ≤ e.1 ∧ e.1 < gmapKey (p + 1) 0) &&
        getFld e.2 F.GMAP.valid = 1 && (s.wordAt (gmapBadKey p (e.1 - gmapKey p 0))).toNat = 0)).flatMap (fun e => entrySlices e.2)
      let shadow := (s.tab.filter (fun e => decide (gmapShadowKey p 0 ≤ e.1 ∧ e.1 < gmapShadowKey (p + 1) 0))).map
        (fun e => (e.1 - gmapShadowKey p 0, e.2))
      let new := (shadow.filter (fun e => getFld e.2 F.GMAP.valid = 1)).flatMap (fun e => entrySlices e.2)
      let shut := (s.tab.filter (fun e => decide (gmapKey p 0 ≤ e.1 ∧ e.1 < gmapKey (p + 1) 0) &&
        getFld e.2 F.GMAP.valid = 1 && getFld e.2 F.GMAP.sealed = 1)).flatMap (fun e => entrySlices e.2)
      let open_ := (shadow.filter (fun e => getFld e.2 F.GMAP.valid = 1 && getFld e.2 F.GMAP.sealed = 0)).flatMap
        (fun e => entrySlices e.2)
      Act.upd (.clearTab (gmapKey p 0) (gmapKey (p + 1) 0))
      for e in shadow do stW (gmapKey p e.1) e.2.toNat
      for x in old.filter (fun x => !new.contains x || (shut.contains x && open_.contains x)) do
        zeroSlice x.1 x.2
        modMove (fun m => { m with slices := m.slices.filter (· ≠ x.1 * 1024 + x.2) ++ [x.1 * 1024 + x.2] })
    wrF R.HAY_GMAP_STATUS F.HAY_GMAP_STATUS.copying 1
    showZero

/-- GMAP_SHADOW_COPY_DONE (R401): the shadows of the committed maps hold what is active. -/
def shadowCopyDone : Act Unit := wrF R.HAY_GMAP_STATUS F.HAY_GMAP_STATUS.copying 0

/-- SLICE_ZERO_DONE (R382): the slices of the granule that has been zeroed longest are done. -/
def sliceZeroDone : Act Unit := do
  modMove (fun m => { m with slices := m.slices.drop 16 })
  showZero

end Sys2Proof.Machine
end

