-- ==== Sys2Proof/Machine/Power.lean ====
section
/-! DEFINITION. Power, clocks and temperature (R404 to R425): the choice of V/F steps and the walk, curbs and dividers,
the cap guard, converter stages, the input supply, droop, temperature and energy. Where the spec is open: DEDUCED 97, 98,
99, 100, 101, 104 and 182, DESIGN CHOICE 102 of the assumption log. -/

namespace Sys2Proof.Machine

/-- Change the power record. -/
def modPwr (f : PwrX → PwrX) : Act Unit := do Act.upd (.pwr (f (← rd (fun s => s.pwr))))

/-- A list over the quarters with one place replaced. -/
def setQ (l : List Nat) (q v : Nat) : List Nat := (List.range 4).map (fun i => if i = q then v else l.getD i 0)

/-- The field of PWR_STATUS that shows a quarter's PLL step (R423). -/
def stepFld (q : Nat) : Fld := ⟨23 + 8 * q, 16 + 8 * q⟩

/-- A quarter's current step: its PLL step (R409). -/
def State.stepQ (s : State) (q : Nat) : Nat := s.fldOf R.PWR_STATUS (stepFld q)

/-- Frequency of a step in units of 100 MHz, and its nominal CORE voltage in mV (R408). -/
def stepFreq (s : Nat) : Nat := 12 + s
def stepMv (s : Nat) : Nat := if s ≤ 21 then 600 + 15 * s else 915 + 20 * (s - 21)

/-- g(s) of R409. -/
def stepG (s : Nat) : Nat := stepFreq s * stepMv s * stepMv s

/-- The step the hayward declared. -/
def State.declared (s : State) : Nat := s.fldOf R.PWR_VF_CTRL F.PWR_VF_CTRL.declared_step

/-- The curb level in force (R407, R413). -/
def State.curbLevel (s : State) : Nat := s.fldOf R.PWR_STATUS F.PWR_STATUS.curb_level

/-- The level the pins and the input call for. -/
def PwrX.called (x : PwrX) : Nat := if x.vinLow then 3 else x.pinLevel

/-- The curb cap of a level, in W (R413); level 0 has none. -/
def State.curbCap (s : State) (level : Nat) : Option Nat := match level with
  | 0 => none
  | 1 => some (s.fldOf R.PWR_CURB_CAP F.PWR_CURB_CAP.level1_w)
  | 2 => some (s.fldOf R.PWR_CURB_CAP F.PWR_CURB_CAP.level2_w)
  | _ => some (s.fldOf R.PWR_CURB_CAP F.PWR_CURB_CAP.level3_w)

/-- The cap in force, W (R409). -/
def State.capW (s : State) : Nat :=
  let c := s.fldOf R.PWR_CAP F.PWR_CAP.cap_w
  match s.curbCap s.curbLevel with
  | some k => min c k
  | none => c

/-- Input power and the shares of the CORE rails, mW, averaged over the samples of the last `n` microseconds. -/
def PwrX.average (x : PwrX) (n : Nat) : Nat × List Nat :=
  let l := x.samples.take n
  let d := max 1 l.length
  (l.foldl (fun a e => a + e.1) 0 / d,
   (List.range 4).map (fun q => l.foldl (fun a e => a + e.2.getD q 0) 0 / d))

/-- Does the power predicted at step `st` stay within `cap` mW (R409)? The share of each CORE rail scales with its own
quarter's step. -/
def State.fits (s : State) (p : Nat) (a : List Nat) (st cap : Nat) : Bool :=
  let g := (List.range 4).map (fun q => stepG (s.stepQ q))
  let whole := g.foldl (· * ·) 1
  let core := (List.range 4).foldl (fun t q => t + a.getD q 0 * stepG st * (whole / g.getD q 1)) 0
  let rest := (p - a.foldl (· + ·) 0) * whole
  decide (rest + core ≤ cap * whole)

/-- The highest step whose predicted power fits the cap, and the cap less the boost margin above the declared step
(R409). -/
def State.chooseCap (s : State) : Nat :=
  let n := min 1000 (s.fldOf R.TIM_TICK_PERIOD F.TIM_TICK_PERIOD.period_us)
  let (p, a) := s.pwr.average n
  let cap := s.capW * 1000
  let margin := s.fldOf R.PWR_CAP F.PWR_CAP.boost_margin_w * 1000
  ((List.range 25).filter (fun st =>
    s.fits p a st cap && (decide (st ≤ s.declared) || (decide (margin ≤ cap) && s.fits p a st (cap - margin))))).foldl max 0

/-- A quarter's target (R409, R411). -/
def State.target (s : State) (sCap q : Nat) : Nat :=
  let limit := if s.fldOf R.PWR_VF_CTRL F.PWR_VF_CTRL.boost = 0 then s.declared else 24
  let t := min (min sCap limit)
    (min (s.fldOf (R.PWR_THERM_Q q) F.PWR_THERM_Q.limit_step) (s.pwr.stageLimit.getD q 24))
  if s.fldOf (R.PWR_THERM_Q q) F.PWR_THERM_Q.no_boost = 1 then min t 21 else t

/-- One step from `a` toward `b`. -/
def stepToward (a b : Nat) : Nat := if a < b then a + 1 else if b < a then a - 1 else a

/-- The controller chooses each quarter's target; a walk starts, or goes on to the new targets after the step in progress
(R409). -/
def vfChoose : Act Unit := do
  let s ← Act.get
  let c := s.chooseCap
  let t := (List.range 4).map (s.target c)
  wrF R.PWR_STATUS F.PWR_STATUS.s_cap c
  wrF R.PWR_STATUS F.PWR_STATUS.below_declared (b2n (t.any (fun x => decide (x < s.declared))))
  modPwr (fun x => { x with targets := t })
  if s.fldOf R.PWR_STATUS F.PWR_STATUS.walking = 0 then
    modPwr (fun x => { x with nexts := (List.range 4).map (fun q => stepToward (s.stepQ q) (t.getD q 0)) })
    if (List.range 4).any (fun q => s.stepQ q ≠ t.getD q 0) then wrF R.PWR_STATUS F.PWR_STATUS.walking 1

/-- VF_STEP (R410): the walk's step in progress completes in every quarter; the walk goes on, turns or ends (R409). -/
def vfStep : Act Unit := do
  let s ← Act.get
  if s.fldOf R.PWR_STATUS F.PWR_STATUS.walking = 1 then
    let x := s.pwr
    for q in List.range 4 do
      if s.stepQ q ≠ x.nexts.getD q 0 then
        wrF R.PWR_STATUS (stepFld q) (x.nexts.getD q 0)
        count C.PWR_CNT_VF_STEPS 1
    modPwr (fun y => { y with nexts := (List.range 4).map (fun q => stepToward (x.nexts.getD q 0) (x.targets.getD q 0)) })
    if (List.range 4).all (fun q => x.nexts.getD q 0 = x.targets.getD q 0) then wrF R.PWR_STATUS F.PWR_STATUS.walking 0

/-! ## Dividers and curbs (R412 to R415) -/

/-- A quarter runs at half its PLL frequency. -/
def State.isDivided (s : State) (q : Nat) : Bool := bit (s.fldOf R.PWR_STATUS F.PWR_STATUS.divided) q

/-- A quarter's divider engages. -/
def divide (q : Nat) : Act Unit := do
  wrF R.PWR_STATUS F.PWR_STATUS.divided (orBit (← rdF R.PWR_STATUS F.PWR_STATUS.divided) q)

/-- A quarter's divider engages and is held until a tick edge has chosen again (R406, R412, R420). -/
def divideHeld (q : Nat) : Act Unit := do
  divide q
  modPwr (fun x => { x with await := if x.await.contains q then x.await else x.await ++ [q] })

/-- The level the pins and the input call for has risen: every divider engages, targets are chosen under the new curb cap,
and the walk starts at once (R407, R414). -/
def curbRaised : Act Unit := do
  for q in List.range 4 do divide q
  wrF R.PWR_STATUS F.PWR_STATUS.curb_level (← rd (fun s => s.pwr.called))
  vfChoose

/-- A change of the level called for: a rise acts at once, a fall at the next tick edge (R414). -/
def curbMoved : Act Unit := do
  let s ← Act.get
  if s.curbLevel < s.pwr.called then curbRaised

/-- CURB_EDGE (R413, R414): the pins have held a new level for 100 ns. -/
def curbEdge (level : Nat) : Act Unit := do
  let s ← Act.get
  if level ≠ s.pwr.pinLevel then
    modPwr (fun x => { x with pinLevel := level })
    count C.PWR_CNT_CURB_EDGES 1
    setIrq (pageBase .pwr 0) 32
    curbMoved

/-- VIN_LOW (R407): the input acts as curb level 3. -/
def vinLow : Act Unit := do
  if !(← rd (fun s => s.pwr.vinLow)) then
    modPwr (fun x => { x with vinLow := true })
    wrF R.PWR_STATUS F.PWR_STATUS.vin_low 1
    setIrq (pageBase .pwr 0) 34
    count C.PWR_CNT_VIN_LOW 1
    curbMoved

/-- VIN_RECOVER (R407): the curb of a low input is lifted at the next tick edge. -/
def vinRecover : Act Unit := modPwr (fun x => { x with vinLow := false })

/-- The good sensors of a quarter read below a bound, in °C (R419, R420). -/
def sensorKey (page : Nat) : Nat := tabKey 32 page

/-- A sensor's word, laid out as PWR_SENSOR (R424): temperature, trim, bad, calibrated. -/
def State.sensor (s : State) (page : Nat) : Word := s.wordAt (sensorKey page)
def State.sensorTemp (s : State) (page : Nat) : Int := sext 16 (getFld (s.sensor page) F.PWR_SENSOR.temp)
def State.sensorBad (s : State) (page : Nat) : Bool := getFld (s.sensor page) F.PWR_SENSOR.bad = 1

/-- Some good sensor of a quarter reads at least `c` °C. -/
def State.someAt (s : State) (q c : Nat) : Bool :=
  (List.range 156).any (fun i => !s.sensorBad (q * 156 + i) && decide ((c : Int) * 16 ≤ s.sensorTemp (q * 156 + i)))

/-- A quarter's divider may be released (R414, R415, R420): a tick edge has chosen where one must, and the walk has settled
— for a divider engaged for temperature, the quarter's own walk, with its sensors below the throttle point. -/
def State.mayRelease (s : State) (q : Nat) : Bool :=
  s.isDivided q && !s.pwr.await.contains q &&
    if s.fldOf (R.PWR_THERM_Q q) F.PWR_THERM_Q.throttled = 1 then
      s.stepQ q = s.pwr.targets.getD q 0 && s.stepQ q = s.pwr.nexts.getD q 0 &&
        !s.someAt q (s.fldOf R.PWR_THERM_CFG F.PWR_THERM_CFG.throttle_c)
    else s.fldOf R.PWR_STATUS F.PWR_STATUS.walking = 0

/-- DIVIDER_RELEASE (R415): the next quarter in order is released. -/
def dividerRelease : Act Unit := do
  let s ← Act.get
  match (List.range 4).find? (fun q => s.mayRelease q) with
  | none => skip
  | some q =>
    wrF R.PWR_STATUS F.PWR_STATUS.divided (clrBit (s.fldOf R.PWR_STATUS F.PWR_STATUS.divided) q)
    wrF (R.PWR_THERM_Q q) F.PWR_THERM_Q.throttled 0

/-- CAP_GUARD (R412): a millisecond after the cap took effect, the input average exceeds it by more than 2 %: every divider
engages; at step 0 with the dividers engaged, cap_unmet is shown. -/
def capGuard : Act Unit := do
  let s ← Act.get
  let cap := s.fldOf R.PWR_CAP F.PWR_CAP.cap_w
  let avg := s.fldOf R.PWR_INPUT F.PWR_INPUT.avg_mw
  if s.pwr.capAt + 1000000 ≤ s.now then
    let low := (List.range 4).all (fun q => s.stepQ q = 0 && s.isDivided q)
    if low && decide (cap * 1000 < avg) then
      if s.fldOf R.PWR_STATUS F.PWR_STATUS.cap_unmet = 0 then
        wrF R.PWR_STATUS F.PWR_STATUS.cap_unmet 1
        setIrq (pageBase .pwr 0) 33
    else if cap * 1020 < avg then
      for q in List.range 4 do divideHeld q
      count C.PWR_CNT_CAP_GUARD 1

/-! ## Rails (R405 to R407) -/

/-- Where the count of failed stages of a rail stands (R423): the rails in the order CORE_0 to CORE_3, SRAM, MESH, VDDQ_G,
VCCQ_F, SERDES, STBY. -/
def stagePlace (rail : Nat) : Nat × Fld :=
  if rail < 7 then (R.PWR_STAGE_STATUS, ⟨4 * rail + 3, 4 * rail⟩)
  else (R.PWR_STAGE_STATUS2, ⟨4 * (rail - 7) + 3, 4 * (rail - 7)⟩)

/-- STAGE_FAIL (R406): one more stage of a rail has failed. From the third on, a CORE rail divides its quarter until the next
tick edge, and any other rail fails the package. -/
def stageFail (rail : Nat) : Act Unit := do
  let (a, f) := stagePlace rail
  let n ← rdF a f
  wrF a f (min 15 (n + 1))
  setIrq (pageBase .pwr 0) 35
  if 2 ≤ n then
    if rail < 4 then divideHeld rail else pkgFail

/-- The highest step whose predicted quarter power fits what is left of a CORE rail's rating: (24 − lost + 2) / 24 of the
power at step 24 (R406, R408). -/
def stageStep (lost : Nat) : Nat :=
  ((List.range 25).filter (fun st => decide (stepG st * 24 ≤ stepG 24 * (26 - lost)))).foldl max 0

/-- VIN_LOSS (R407): every VIN_MAIN rail stops, GDDR7 contents are lost and the package is failed. -/
def vinLoss : Act Unit := do
  modLand (fun x => { x with vinLost := true })
  Act.upd (.clearMem (2 ^ 60) (2 ^ 64))
  if !(← rd (fun s => s.land.railsOff)) then
    modLand (fun x => { x with railsOff := true, stop := if x.stop = 2 then 2 else 3 })
    pkgFail
    lowFault

/-- DROOP (R418): a droop event of a tile, with the clocks it stretched: min_stretch of them at least. -/
def droop (page stretched : Nat) : Act Unit := do
  count (C.TILE_CNT_DROOP page) 1
  count (C.TILE_CNT_STRETCH page) (max stretched (← rdF R.PWR_DROOP_CFG F.PWR_DROOP_CFG.min_stretch))

/-! ## Temperature (R419 to R421) -/

/-- THERMAL_TRIP (R421): the clocks stop, the VIN_MAIN rails but VDDQ_G go off, and PWR_TRIP is latched. -/
def thermalTrip : Act Unit := do
  if (← rdF R.PWR_TRIP F.PWR_TRIP.tripped) = 0 then
    let t ← rd State.tick
    wrF R.PWR_TRIP F.PWR_TRIP.tripped 1
    wrF R.PWR_TRIP F.PWR_TRIP.tick t
    modLand (fun x => { x with railsOff := true, stop := 4 })
    setIrq (pageBase .pwr 1) 33
    lowTrip
    pkgFail

/-- A sensor is marked bad (R419). -/
def markBad (page : Nat) : Act Unit := do
  let w ← rd (fun s => s.sensor page)
  if getFld w F.PWR_SENSOR.bad = 0 then
    stW (sensorKey page) (putFld w F.PWR_SENSOR.bad 1).toNat
    count C.PWR_CNT_SENSOR_BAD 1
    setIrq (pageBase .pwr 1) 34

/-- One reading of a sensor: out of range marks it bad (R419). -/
def takeReading (page : Nat) (t : BitVec 16) : Act Unit := do
  let w ← rd (fun s => s.sensor page)
  if getFld w F.PWR_SENSOR.bad = 0 then
    if sext 16 t.toNat < -640 ∨ 2400 < sext 16 t.toNat then markBad page
    else stW (sensorKey page) (putFld w F.PWR_SENSOR.temp t.toNat).toNat

/-- What a quarter's temperature register shows: the hottest good sensor and the count of bad ones; 16 bad ones hold the
limit at step 18 (R419, R424). -/
def showThermal (q : Nat) : Act Unit := do
  let s ← Act.get
  let good := ((List.range 156).map (q * 156 + ·)).filter (fun i => !s.sensorBad i)
  match good.foldl (fun m i => match m with
      | none => some i
      | some j => if s.sensorTemp j < s.sensorTemp i then some i else some j) none with
  | some i =>
    wrF (R.PWR_THERM_Q q) F.PWR_THERM_Q.hottest_c (s.sensorTemp i / 16).toNat
    wrF (R.PWR_THERM_Q q) F.PWR_THERM_Q.hottest_tile (i - q * 156)
  | none =>
    wrF (R.PWR_THERM_Q q) F.PWR_THERM_Q.hottest_c 0
    wrF (R.PWR_THERM_Q q) F.PWR_THERM_Q.hottest_tile 0
  wrF (R.PWR_THERM_Q q) F.PWR_THERM_Q.bad_sensors (156 - good.length)
  if good.length ≤ 140 then
    wrF (R.PWR_THERM_Q q) F.PWR_THERM_Q.limit_step (min 18 (s.fldOf (R.PWR_THERM_Q q) F.PWR_THERM_Q.limit_step))
    setPageFault (pageBase .pwr 1)

/-- What a quarter's readings bring about (R420). -/
def thermalActions (q : Nat) : Act Unit := do
  let s ← Act.get
  let th := s.fldOf R.PWR_THERM_CFG F.PWR_THERM_CFG.throttle_c
  let boost := s.fldOf R.PWR_THERM_CFG F.PWR_THERM_CFG.boost_c
  let hyst := s.fldOf R.PWR_THERM_CFG F.PWR_THERM_CFG.hyst_c
  wrF (R.PWR_THERM_Q q) F.PWR_THERM_Q.no_boost
    (b2n ((List.range 156).any (fun i => !s.sensorBad (q * 156 + i) && decide ((boost : Int) * 16 < s.sensorTemp (q * 156 + i)))))
  if s.someAt q (th - hyst) && !s.pwr.warm.contains q then modPwr (fun x => { x with warm := x.warm ++ [q] })
  if s.someAt q th && s.fldOf (R.PWR_THERM_Q q) F.PWR_THERM_Q.throttled = 0 then
    divideHeld q
    wrF (R.PWR_THERM_Q q) F.PWR_THERM_Q.throttled 1
    setIrq (pageBase .pwr 1) 32
    count C.PWR_CNT_THROTTLE 1
  if s.someAt q 115 then thermalTrip

/-- THERMAL_SAMPLE (R419, R420): a quarter's sensors are sampled, by position; while the quarter calibrates they report their
last value. -/
def thermalSample (q : Nat) (temps : List (Nat × BitVec 16)) : Act Unit := do
  let s ← Act.get
  if !s.pwr.calUntil.any (fun e => e.1 = q && decide (s.now < e.2)) then
    for e in temps do takeReading (q * 156 + e.1) e.2
  showThermal q
  thermalActions q

/-- Calibration in a glean window of a site of the quarter (R419): the sensors take new trims, those that fail are marked
bad. -/
def calibrate (q : Nat) (failed : List Nat) : Act Unit := do
  let now ← rd State.now
  count C.PWR_CNT_CAL 1
  modPwr (fun x => { x with calUntil := x.calUntil.filter (fun e => e.1 ≠ q) ++ [(q, now + 10000)] })
  for i in List.range 156 do
    let page := q * 156 + i
    if failed.contains page then markBad page
    else
      let w ← rd (fun s => s.sensor page)
      if getFld w F.PWR_SENSOR.bad = 0 then
        let t ← freshBelow 256
        stW (sensorKey page) (putFld (putFld w F.PWR_SENSOR.trim t) F.PWR_SENSOR.calibrated 1).toNat
  showThermal q

/-- A quarter's thermal limit at a tick edge (R419, R420): it falls once for a divider engaged since the last edge, and rises
by one after a whole cool tick. -/
def thermalEdge (q : Nat) : Act Unit := do
  let s ← Act.get
  let lim := s.fldOf (R.PWR_THERM_Q q) F.PWR_THERM_Q.limit_step
  let many := decide (16 ≤ s.fldOf (R.PWR_THERM_Q q) F.PWR_THERM_Q.bad_sensors)
  if s.fldOf (R.PWR_THERM_Q q) F.PWR_THERM_Q.throttled = 1 && s.pwr.await.contains q then
    wrF (R.PWR_THERM_Q q) F.PWR_THERM_Q.limit_step
      (s.stepQ q - s.fldOf R.PWR_THERM_CFG F.PWR_THERM_CFG.throttle_steps)
  else if !s.pwr.warm.contains q then
    wrF (R.PWR_THERM_Q q) F.PWR_THERM_Q.limit_step (min (if many then 18 else 24) (lim + 1))
  let hot := s.someAt q (s.fldOf R.PWR_THERM_CFG F.PWR_THERM_CFG.throttle_c - s.fldOf R.PWR_THERM_CFG F.PWR_THERM_CFG.hyst_c)
  modPwr (fun x => { x with warm := x.warm.filter (· ≠ q) ++ (if hot then [q] else []) })

/-- Position 3 of a tick edge for power (R406, R407, R409, R412, R420): thermal and stage limits, the curb level called for,
and the choice. -/
def powerEdge : Act Unit := do
  for q in List.range 4 do
    thermalEdge q
    let lost ← rdF (stagePlace q).1 (stagePlace q).2
    if 3 ≤ lost then modPwr (fun x => { x with stageLimit := setQ x.stageLimit q (stageStep lost) })
  let x ← rd (fun s => s.pwr)
  wrF R.PWR_STATUS F.PWR_STATUS.curb_level x.called
  wrF R.PWR_STATUS F.PWR_STATUS.vin_low (b2n x.vinLow)
  modPwr (fun x => { x with await := [] })
  vfChoose
  let s ← Act.get
  if s.fldOf R.PWR_INPUT F.PWR_INPUT.avg_mw ≤ s.fldOf R.PWR_CAP F.PWR_CAP.cap_w * 1000 then
    wrF R.PWR_STATUS F.PWR_STATUS.cap_unmet 0

/-! ## Energy (R422) -/

/-- ENERGY_SAMPLE (R422): a microsecond's measurement of the input, in mW, with the shares of the CORE rails and the input
voltage in units of 10 mV. -/
def energySample (mw : Nat) (core : List Nat) (vin : Nat) : Act Unit := do
  let s ← Act.get
  let samples := ((mw, core) :: s.pwr.samples).take 1000
  let nj := s.pwr.nj + mw
  modPwr (fun x => { x with samples := samples, nj := nj % 1000 })
  let e := (s.reg R.PWR_ENERGY).toNat + nj / 1000
  wrR R.PWR_ENERGY (BitVec.ofNat 64 e)
  wrF R.PWR_INPUT F.PWR_INPUT.avg_mw (({ s.pwr with samples := samples } : PwrX).average 1000).1
  wrF R.PWR_INPUT F.PWR_INPUT.vin_10mv vin

/-- A microsecond passes: the counters of R423 and R424 that count microseconds. -/
def powerMicrosecond (n : Nat) : Act Unit := do
  let s ← Act.get
  if s.fldOf R.PWR_STATUS F.PWR_STATUS.divided ≠ 0 then count C.PWR_CNT_DIV_US n
  if s.fldOf R.PWR_STATUS F.PWR_STATUS.cap_unmet = 1 then count C.PWR_CNT_CAP_UNMET_US n
  if (List.range 4).any (fun q => decide (21 < s.stepQ q)) then count C.PWR_CNT_BOOST_US n
  if (List.range 4).any (fun q => s.fldOf (R.PWR_THERM_Q q) F.PWR_THERM_Q.throttled = 1) then
    count C.PWR_CNT_THROTTLE_US n

/-! ## Register writes (R411, R413, R424) -/

/-- A write of a PWR register that the rules refuse beyond each field's own range. -/
def pwrWriteBad (addr : Nat) (v : Word) : Bool :=
  if addr = R.PWR_CURB_CAP then
    !(decide (getFld v F.PWR_CURB_CAP.level2_w ≤ getFld v F.PWR_CURB_CAP.level1_w) &&
      decide (getFld v F.PWR_CURB_CAP.level3_w ≤ getFld v F.PWR_CURB_CAP.level2_w))
  else if addr = R.PWR_THERM_CFG then
    decide (getFld v F.PWR_THERM_CFG.throttle_c ≤ getFld v F.PWR_THERM_CFG.boost_c)
  else false

end Sys2Proof.Machine
end

