-- ==== Sys2Proof/Machine/Collective.lean ====
section
/-! DEFINITION. Collectives (R354 to R373): the queue, launches, inputs, result chunks with their checks, completion
records, timeouts and aborts. The planes' arithmetic (R364) happens outside the package. Where the spec is open: DEDUCED
91 and 92, DESIGN CHOICE 155 of the assumption log. -/

namespace Sys2Proof.Machine

/-! ## Entries (R356) -/

def ceOp (e : List Byte) : Nat := numAt e 0 1
def ceFormat (e : List Byte) : Nat := numAt e 1 1
def ceWait (e : List Byte) : Bool := bit (numAt e 2 1) 1
def ceSignal (e : List Byte) : Bool := bit (numAt e 2 1) 0
def ceGroup (e : List Byte) : Nat := numAt e 8 2 % 4096
def ceMember (e : List Byte) : Nat := numAt e 10 2
def ceG (e : List Byte) : Nat := numAt e 12 2
def ceRoot (e : List Byte) : Nat := numAt e 14 2
def ceMask (e : List Byte) : Nat := numAt e 16 1
def ceSeq (e : List Byte) : Nat := numAt e 20 4
def ceLen (e : List Byte) : Nat := numAt e 24 4
def ceSrc (e : List Byte) : Nat := numAt e 32 8
def ceDst (e : List Byte) : Nat := numAt e 40 8
def ceRec (e : List Byte) : Nat := numAt e 48 8
def ceTick (e : List Byte) : Nat := numAt e 56 6
def ceReadyAt (e : List Byte) : Nat := numAt e 64 4
def ceReadyVal (e : List Byte) : Nat := numAt e 72 8
def ceSigAt (e : List Byte) : Nat := numAt e 80 4
def ceSigVal (e : List Byte) : Nat := numAt e 84 4

/-- Input chunks of an entry, and its result chunks (R355). -/
def ceChunks (e : List Byte) : Nat := (ceLen e + 65535) / 65536
def ceResults (e : List Byte) : Nat := if ceOp e = 3 then ceG e * ceChunks e else ceChunks e

/-- Bytes of a chunk of the input. -/
def chunkLen (e : List Byte) (c : Nat) : Nat := min 65536 (ceLen e - c * 65536)

/-- The result chunks this member expects. -/
def ceExpected (e : List Byte) : List Nat :=
  (List.range (ceResults e)).filter (fun c => ceOp e ≠ 2 || decide (c % ceG e = ceMember e))

/-- Where a result chunk lies from dst, and its bytes (R355). -/
def cePlace (e : List Byte) (c : Nat) : Nat × Nat := match ceOp e with
  | 2 => (c / ceG e * 65536, chunkLen e c)
  | 3 => (c / ceChunks e * ceLen e + c % ceChunks e * 65536, chunkLen e (c % ceChunks e))
  | _ => (c * 65536, chunkLen e c)

/-- Bytes of dst the results take. -/
def ceDstLen (e : List Byte) : Nat := (ceExpected e).foldl (fun m c => max m ((cePlace e c).1 + (cePlace e c).2)) 0

/-- This member sends its input: always, but for a BROADCAST only the root. -/
def ceSends (e : List Byte) : Bool := ceOp e ≠ 4 || ceMember e = ceRoot e

/-- The planes of the mask, ascending, and the plane of a result chunk (R360). -/
def cePlanes (e : List Byte) : List Nat := setBitList 8 (ceMask e)
def cePlane (e : List Byte) (c : Nat) : Nat := (cePlanes e).getD (c % max 1 (cePlanes e).length) 0

/-- The result chunk an input chunk belongs to. -/
def ceResultOf (e : List Byte) (c : Nat) : Nat := if ceOp e = 3 then ceMember e * ceChunks e + c else c

/-- An entry keeps the rules of R355 and R356 that its bytes show. -/
def ceGood (e : List Byte) : Bool :=
  decide (1 ≤ ceOp e ∧ ceOp e ≤ 4) && (if ceOp e ≤ 2 then decide (ceFormat e ≤ 1) else ceFormat e = 2) &&
    bits (numAt e 2 1) 7 2 = 0 && numAt e 5 3 = 0 && numAt e 8 2 / 4096 = 0 && decide (2 ≤ ceG e ∧ ceG e ≤ 4096) &&
    decide (ceMember e < ceG e) && (if ceOp e = 4 then decide (ceRoot e < ceG e) else ceRoot e = 0) && ceMask e ≠ 0 &&
    numAt e 17 3 = 0 && ceLen e % 64 = 0 && decide (64 ≤ ceLen e) && numAt e 28 4 = 0 && decide (ceResults e ≤ 65536) &&
    [ceSrc e, ceDst e, ceRec e].all (fun a => a / 2 ^ 50 = 0 && decide (refSpace a ≤ 2)) && ceRec e % 64 = 0 &&
    numAt e 62 2 = 0 && bits (ceReadyAt e) 21 19 = 0 && numAt e 68 4 = 0 && bits (ceSigAt e) 21 19 = 0 &&
    (e.drop 88).all (fun b => b = 0) &&
    !(refSpace (ceSrc e) = refSpace (ceDst e) && overlaps (refAddr (ceSrc e), ceLen e) (refAddr (ceDst e), ceDstLen e))

/-- The entry's regions lie in the partition. -/
def State.ceMapped (s : State) (p : Nat) (e : List Byte) : Bool :=
  (!ceSends e || (s.refReason p (refSpace (ceSrc e)) (refAddr (ceSrc e)) (ceLen e) false).isNone) &&
    (ceDstLen e = 0 || (s.refReason p (refSpace (ceDst e)) (refAddr (ceDst e)) (ceDstLen e) true).isNone) &&
    (s.refReason p (refSpace (ceRec e)) (refAddr (ceRec e)) 64 true).isNone

/-! ## The queue (R356, R373) -/

def State.clqTail (s : State) (p : Nat) : Nat := s.fldOf (R.PRT_CLQ_TAIL p) F.PRT_CLQ_TAIL.tail
def State.clqStarted (s : State) (p : Nat) : Nat := s.fldOf (R.PRT_CLQ_HEAD p) F.PRT_CLQ_HEAD.started
def State.clqDone (s : State) (p : Nat) : Nat := s.fldOf (R.PRT_CLQ_HEAD p) F.PRT_CLQ_HEAD.done
def State.clqKey (s : State) (p i : Nat) : Nat :=
  hubLine (s.fldOf (R.PRT_CLQ_CFG p) F.PRT_CLQ_CFG.base) + i % max 1 (s.fldOf (R.PRT_CLQ_CFG p) F.PRT_CLQ_CFG.size) * 128

/-- The collective engine of a queue's hub, as a requester (R17, R356). -/
def State.colSrc (s : State) (p : Nat) : Nat := hubSrc (s.fldOf (R.PRT_CLQ_CFG p) F.PRT_CLQ_CFG.base / 2 ^ 18) 4

/-- CLQ_TAIL_WRITE (R356). -/
def clqTailWrite (p tail : Nat) : Act (Option Nat) := do
  let s ← Act.get
  if queueTailBad (s.fldOf (R.PRT_CLQ_CFG p) F.PRT_CLQ_CFG.size) (s.clqDone p) (s.clqTail p) tail then return some 4
  wrF (R.PRT_CLQ_TAIL p) F.PRT_CLQ_TAIL.tail tail
  return none

def modCol (f : ColX → ColX) : Act Unit := do Act.upd (.col (f (← rd (fun s => s.col))))

def putCol (c : ColE) : Act Unit :=
  modCol (fun x => { x with cols := x.cols.map (fun d => if d.part = c.part ∧ d.idx = c.idx then c else d) })

/-- The leading ended entries count as done. -/
def clqAdvance (p : Nat) : Nat → Act Unit
  | 0 => skip
  | fuel + 1 => do
    let s ← Act.get
    let i := s.clqDone p
    if s.col.finished.contains (p, i) then
      modCol (fun x => { x with finished := x.finished.filter (fun e => e ≠ (p, i)) })
      wrF (R.PRT_CLQ_HEAD p) F.PRT_CLQ_HEAD.done (i + 1)
      clqAdvance p fuel

/-! ## Packets to the planes (R360, R361) -/

def colArg0 (e : List Byte) (pkt chunk : Nat) : Nat := ceSeq e * 2 ^ 32 + ceMember e * 2 ^ 20 + pkt * 2 ^ 16 + chunk

/-- A collective packet without chunk to every plane of the mask that is not FAILED. -/
def colToPlanes (p : Nat) (e : List Byte) (type : Nat) (body : List Byte) : Act Unit := do
  let s ← Act.get
  for k in cePlanes e do
    if s.portState k ≠ 4 then sendFab p k 1 (ceGroup e) type (colArg0 e 0 0) 0 body

/-- The body of COL_OPEN (R361). -/
def colOpenBody (e : List Byte) : List Byte :=
  leBytes 1 (ceOp e) ++ leBytes 1 (ceFormat e) ++ leBytes 2 (ceG e) ++ leBytes 2 (ceRoot e) ++ [0, 0] ++ leBytes 4 (ceLen e) ++
    leBytes 4 (ceResults e) ++ leBytes 1 (ceMask e) ++ List.replicate 15 0

/-- Read an input chunk and send its packets, ascending. -/
def colSendChunk (p : Nat) (e : List Byte) (c : Nat) : Act Unit := do
  match ← spRead (← rd (fun s => s.colSrc p)) p (refSpace (ceSrc e)) (refAddr (ceSrc e) + c * 65536) (chunkLen e c) with
  | .error _ => skip
  | .ok bs =>
    for i in List.range ((bs.length + 4095) / 4096) do
      sendFab p (cePlane e (ceResultOf e c)) 1 (ceGroup e) 0x41 (colArg0 e i c) (crc32c bs) ((bs.drop (4096 * i)).take 4096)

/-! ## Records (R367, R370, R372) -/

def doneStatus (b : List Byte) : Nat := numAt b 0 1
def donePlane (b : List Byte) : Nat := numAt b 1 1
def doneArrival (b : List Byte) : Nat := numAt b 16 8

/-- The DONE with the latest last_arrival, ties to the lower plane. -/
def slowestDone (l : List (Nat × List Byte)) : Option (Nat × List Byte) :=
  l.foldl (fun m d => match m with
    | none => some d
    | some x => if doneArrival x.2 < doneArrival d.2 ∨ (doneArrival x.2 = doneArrival d.2 ∧ d.1 < x.1) then some d else some x) none

/-- An entry ends: its record, its status bytes, its done signal, its counters. -/
def colRecord (c : ColE) (st detail : Nat) (write : Bool) : Act Unit := do
  let s ← Act.get
  let e := c.entry
  let p := c.part
  if write then
    let slow := slowestDone c.dones
    let who := match slow with
      | some d => numAt d.2 2 2
      | none => 0
    let lag := match slow with
      | some d => numAt d.2 24 4
      | none => 0
    let back := c.dones.filter (fun d => doneStatus d.2 = 1)
    let bad := back.foldl (fun m d => min m (numAt d.2 12 4)) 0xFFFFFFFF
    let rr := (c.rereqs.map (·.2)).foldl (· + ·) 0
    let rec_ := leBytes 1 st ++ leBytes 1 detail ++ leBytes 2 who ++ leBytes 4 lag ++ leBytes 4 (ceSeq e) ++ leBytes 2 (ceGroup e) ++
      leBytes 1 (back.foldl (fun n d => orBit n d.1) 0) ++ [0] ++ leBytes 4 bad ++ leBytes 4 rr ++ leBytes 8 c.launched ++
      leBytes 8 (c.ready.getD 0) ++ leBytes 8 (c.sent.getD 0) ++ leBytes 8 s.now ++ List.replicate 8 0
    let _ ← spWrite (s.colSrc p) p (refSpace (ceRec e)) (refAddr (ceRec e)) rec_
    hubStore p (s.clqKey p c.idx + 3) (leBytes 1 st ++ leBytes 1 detail)
    if st = 0 then count (C.COL_CNT_OK p) 1
    else
      count (if st = 1 then C.COL_CNT_RETRACTED p else C.COL_CNT_FAILED p) 1
      wrF (R.PRT_COL_STATUS p) F.PRT_COL_STATUS.last_status st
      wrF (R.PRT_COL_STATUS p) F.PRT_COL_STATUS.last_group (ceGroup e)
      wrF (R.PRT_COL_STATUS p) F.PRT_COL_STATUS.last_seq (ceSeq e)
    if slow.isSome ∧ who = ceMember e then
      count (C.COL_CNT_SLOWEST_SELF p) 1
      count (C.COL_CNT_LAG_NS p) lag
    if ceSignal e then signalTile (s.colSrc p) p (ceSigAt e + 1) (ceSigVal e)
  modCol (fun x => { x with cols := x.cols.filter (fun d => !(d.part = p && d.idx = c.idx)), finished := x.finished ++ [(p, c.idx)] })
  let n ← rd (fun t => (t.col.cols.filter (fun d => d.part = p)).length)
  wrF (R.PRT_COL_STATUS p) F.PRT_COL_STATUS.open_ n
  clqAdvance p 256

/-- The collective is over when every plane has sent its DONE and its chunks are in, a DONE is not OK, or a chunk failed
(R367). -/
def colSettle (c : ColE) : Act Unit := do
  let e := c.entry
  if (cePlanes e).all (fun k => c.dones.any (fun d => d.1 = k)) then
    let bad := c.dones.find? (fun d => doneStatus d.2 ≠ 0)
    if c.dataBad || bad.isSome || (ceExpected e).all (fun k => c.ok.contains k) then
      if c.dataBad then colRecord c 4 0 true
      else match bad with
        | some d => colRecord c (doneStatus d.2) d.1 true
        | none => colRecord c 0 0 true
      colToPlanes c.part e 0x46 []

/-- An open collective ends by this package's own doing: COL_ABORT goes to its planes with the status. -/
def colEnd (c : ColE) (st detail : Nat) (write : Bool) : Act Unit := do
  colToPlanes c.part c.entry 0x47 (leBytes 4 st)
  colRecord c st detail write

/-! ## Launch (R357, R358) -/

/-- The inputs of an open collective go out. -/
def colInputs (c : ColE) : Act Unit := do
  let e := c.entry
  if ceSends e then
    for k in List.range (ceChunks e) do colSendChunk c.part e k
  let t ← rd (fun s => s.now)
  putCol { c with ready := some t, sent := some t }
  count (C.COL_CNT_READY_NS c.part) (t - c.launched)
  count (C.COL_CNT_SEND_NS c.part) 0

/-- The next entry of a partition's queue is due: a queued entry whose launch tick has come. Without the tick generator no edge
comes to launch at (R357). -/
def State.colDue (s : State) (p : Nat) : Option (Nat × List Byte) :=
  let i := s.clqStarted p
  if i = s.clqTail p ∨ !s.pageServes (pageBase .prt p) then none
  else
    let e := s.hubBytes p (s.clqKey p i) 128
    if !s.run || decide (s.tick < ceTick e) then none else some (i, e)

/-- Launch the entry at the front of a partition's queue if it is due and of the operation named (or of none defined); at a
tick edge a wait for an open place is counted. Answers whether an entry left the queue. -/
def colLaunch (p : Nat) (op : Option Nat) (atEdge : Bool) : Act Bool := do
  let s ← Act.get
  match s.colDue p with
  | none => return false
  | some (i, e) =>
    if op.any (fun o => o ≠ ceOp e && decide (1 ≤ ceOp e ∧ ceOp e ≤ 4)) then return false
    if s.quenched p then return false
    let c : ColE := { part := p, idx := i, entry := e, launched := s.now }
    let begin_ : Act Unit := do
      wrF (R.PRT_CLQ_HEAD p) F.PRT_CLQ_HEAD.started (i + 1)
      modCol (fun x => { x with cols := x.cols ++ [c] })
      wrF (R.PRT_COL_STATUS p) F.PRT_COL_STATUS.open_ ((s.col.cols.filter (fun d => d.part = p)).length + 1)
    if !ceGood e || !s.ceMapped p e then
      begin_
      colRecord c 6 0 true
      return true
    if s.col.cols.any (fun d => ceGroup d.entry = ceGroup e && ceSeq d.entry = ceSeq e) then
      begin_
      colRecord c 6 1 true
      return true
    if 256 ≤ s.col.cols.length then
      if atEdge then count (C.COL_CNT_OPEN_WAIT p) 1
      return false
    begin_
    count (C.COL_CNT_LAUNCHED p) 1
    if ceTick e < s.tick then count (C.COL_CNT_LATE_LAUNCH p) 1
    match (cePlanes e).find? (fun k => s.portState k = 4) with
    | some k => colEnd c 5 k true
    | none =>
      colToPlanes p e 0x40 (colOpenBody e)
      if !ceWait e then colInputs c
    return true

/-- Launch every due entry of a partition in queue order (R62, R357). -/
def colLaunches (p : Nat) : Nat → Act Unit
  | 0 => skip
  | fuel + 1 => do
    if ← colLaunch p none true then colLaunches p fuel

/-- ALLREDUCE, REDUCE_SCATTER, ALLGATHER, BROADCAST: the entry at the front of the queue launches if it is that operation and
due. -/
def colOp (p op : Nat) : Act Unit := do let _ ← colLaunch p (some op) false

/-- COL_READY (R357): an entry that waits for its ready word sends its inputs once the word has reached its value. -/
def colReady (p i : Nat) : Act Unit := do
  let s ← Act.get
  match s.col.cols.find? (fun c => c.part = p && c.idx = i) with
  | none => skip
  | some c =>
    if ceWait c.entry ∧ c.ready.isNone ∧ !s.quenched p then
      let a := ceReadyAt c.entry
      match s.tilePlace p (bits a 31 22 * 2 ^ 22 + bits a 18 0 * 8) 8 with
      | .ok (page, off) => if ceReadyVal c.entry ≤ s.memNum (tileKey page off) 8 then colInputs c
      | .error _ => skip

/-! ## Packets from the planes (R361, R362) -/

/-- The open collective a plane's packet belongs to. -/
def State.colOf (s : State) (p : Nat) (l : List Byte) : Option ColE :=
  s.col.cols.find? (fun c => c.part = p && ceGroup c.entry = pkSrc l && ceSeq c.entry = pkArg0 l / 2 ^ 32)

/-- A result chunk is asked for again, until its limit (R362). -/
def colRerequest (c : ColE) (k : Nat) : Act ColE := do
  let s ← Act.get
  let n := ((c.rereqs.find? (fun e => e.1 = k)).map (·.2)).getD 0
  let fresh := c.parts.filter (fun e => e.1 ≠ k)
  if s.fldOf (R.PRT_COL_CTRL c.part) F.PRT_COL_CTRL.rereq_limit ≤ n then return { c with dataBad := true, parts := fresh }
  count (C.COL_CNT_REREQ c.part) 1
  sendFab c.part (cePlane c.entry k) 1 (ceGroup c.entry) 0x43 (colArg0 c.entry 0 0) 0 (leBytes 4 k)
  return { c with parts := fresh, rereqs := c.rereqs.filter (fun e => e.1 ≠ k) ++ [(k, n + 1)] }

/-- COL_OUT (R362): a packet of a result chunk is written to dst; a chunk whose packets are all in, with one CRC that
matches, is accepted; the data signal follows the last. -/
def colOut (r : RxPacket) : Act Unit :=
  onPacket r [0x42] (fun q => do
    match q with
    | none => skip
    | some p =>
      let s ← Act.get
      match s.colOf p r.bytes with
      | none => skip
      | some c =>
        let e := c.entry
        let k := pkArg0 r.bytes % 2 ^ 16
        let i := bits (pkArg0 r.bytes) 19 16
        let (off, len) := cePlace e k
        if !(ceExpected e).contains k || c.ok.contains k || decide (len ≤ 4096 * i) then return
        let _ ← spWrite (s.colSrc p) p (refSpace (ceDst e)) (refAddr (ceDst e) + off + 4096 * i) ((pkBody r.bytes).take (len - 4096 * i))
        let old := c.parts.find? (fun x => x.1 = k)
        let pkts := match old with
          | some x => if x.2.1.contains i then x.2.1 else x.2.1 ++ [i]
          | none => [i]
        let same := match old with
          | some x => decide (x.2.2 = pkArg1 r.bytes)
          | none => true
        let crc := if same then pkArg1 r.bytes else 2 ^ 32
        let d := { c with parts := c.parts.filter (fun x => x.1 ≠ k) ++ [(k, pkts, crc)] }
        if pkts.length < (len + 4095) / 4096 then putCol d
        else
          let good ← (do
            match ← spRead (s.colSrc p) p (refSpace (ceDst e)) (refAddr (ceDst e) + off) len with
            | .ok bs => pure (decide (crc32c bs = crc))
            | .error _ => pure false)
          if good then
            let d := { d with ok := d.ok ++ [k], parts := d.parts.filter (fun x => x.1 ≠ k) }
            putCol d
            if (ceExpected e).all (fun x => d.ok.contains x) ∧ ceSignal e then signalTile (s.colSrc p) p (ceSigAt e) (ceSigVal e)
            colSettle d
          else
            let d ← colRerequest d k
            putCol d
            colSettle d)

/-- COL_RESEND (R362): the input chunk is read and sent again. -/
def colResend (r : RxPacket) : Act Unit :=
  onPacket r [0x44] (fun q => do
    match q with
    | none => skip
    | some p =>
      match ← rd (fun s => s.colOf p r.bytes) with
      | none => skip
      | some c =>
        let k := numAt (pkBody r.bytes) 0 4
        if ceSends c.entry ∧ k < ceChunks c.entry ∧ c.sent.isSome then
          count (C.COL_CNT_RESEND p) 1
          colSendChunk p c.entry k)

/-- Ask again for every chunk of a plane that is not in. -/
def colMissing (c : ColE) : List Nat → Act ColE
  | [] => return c
  | k :: ks => do colMissing (← colRerequest c k) ks

/-- COL_DONE (R362, R367): a plane is through; chunks of it still incomplete are asked for again. -/
def colDone (r : RxPacket) : Act Unit :=
  onPacket r [0x45] (fun q => do
    match q with
    | none => skip
    | some p =>
      match ← rd (fun s => s.colOf p r.bytes) with
      | none => skip
      | some c =>
        let b := bytesAt (pkBody r.bytes) 0 32
        let k := donePlane b
        if !(cePlanes c.entry).contains k || c.dones.any (fun d => d.1 = k) then return
        let c := { c with dones := c.dones ++ [(k, b)] }
        let c ← (if doneStatus b = 0 ∧ !c.dataBad then
            colMissing c ((ceExpected c.entry).filter (fun x => cePlane c.entry x = k && !c.ok.contains x))
          else pure c)
        putCol c
        colSettle c)

/-- COL_TIMEOUT (R367): no record within col_timeout_us of the launch, the time under quench not counted. -/
def colTimeout (p i : Nat) : Act Unit := do
  let s ← Act.get
  match s.col.cols.find? (fun c => c.part = p && c.idx = i) with
  | none => skip
  | some c =>
    if !s.quenched p ∧ c.launched + c.paused + s.fldOf (R.PRT_COL_CTRL p) F.PRT_COL_CTRL.col_timeout_us * 1000 ≤ s.now then
      colEnd c 2 0 true

/-- Entries still queued end with a status. -/
def colQueuedEnd (p : Nat) (write : Bool) : Nat → Act Unit
  | 0 => skip
  | fuel + 1 => do
    let s ← Act.get
    let i := s.clqStarted p
    if i ≠ s.clqTail p then
      wrF (R.PRT_CLQ_HEAD p) F.PRT_CLQ_HEAD.started (i + 1)
      colRecord { part := p, idx := i, entry := s.hubBytes p (s.clqKey p i) 128, launched := 0 } 3 0 write
      colQueuedEnd p write fuel

/-- COL_ABORT (R369): every open collective of a partition and every queued entry ends ABORTED, with a record or, at a
partition reset, without. -/
def colAbort (p : Nat) (write : Bool) : Act Unit := do
  let x ← rd (fun s => s.col)
  for c in x.cols do
    if c.part = p then colEnd c 3 0 write
  colQueuedEnd p write 256

/-- A switch fabric port has failed (R367): every open collective that uses its plane ends PORT. -/
def colPortFailed (k : Nat) : Act Unit := do
  let x ← rd (fun s => s.col)
  for c in x.cols do
    if (cePlanes c.entry).contains k then colEnd c 5 k true

end Sys2Proof.Machine
end

