-- ==== Sys2Proof/Machine/Tedder.lean ====
section
/-! DEFINITION. Tedder fills (R308 to R311, with the stored forms of R86, R87, R91, R92 and R112), the adapter commands
(R313), and the base slots (R314 to R316). Where the spec is open: DEDUCED 89 and 90 of the assumption log. -/

namespace Sys2Proof.Machine

/-! ## Fill entries (R309) -/

def fiTag (e : List Byte) : Nat := numAt e 0 2
def fiFlag (e : List Byte) (i : Nat) : Bool := bit (numAt e 3 1) i
def fiFormat (e : List Byte) : Nat := numAt e 4 1
def fiOffset (e : List Byte) : Int := sext 8 (numAt e 5 1)
def fiFirst (e : List Byte) : Nat := numAt e 6 2 % 1024
def fiTiles (e : List Byte) : Nat := numAt e 8 2
def fiRecords (e : List Byte) : Nat := numAt e 12 4
def fiSrc (e : List Byte) : Nat := numAt e 16 8
def fiStride (e : List Byte) : Nat := numAt e 24 4 * 64
def fiDst (e : List Byte) : Nat := numAt e 28 4 * 16
def fiLens (e : List Byte) : List Nat := (List.range 16).map (fun v => bits (numAt e 32 8) (4 * v + 3) (4 * v))

/-- An entry keeps the rules of R309. -/
def fiGood (e : List Byte) : Bool :=
  bits (numAt e 3 1) 7 5 = 0 && fiFormat e ≤ 5 && numAt e 6 2 / 1024 = 0 && decide (1 ≤ fiTiles e ∧ fiTiles e ≤ 576) &&
    numAt e 10 2 = 0 && fiSrc e / 2 ^ 48 = 0 && bits (numAt e 40 4) 21 19 = 0 && (e.drop 48).all (fun b => b = 0) &&
    (!fiFlag e 2 || fiFormat e ≤ 1)

/-! ## The prefix code of R308: canonical codes, packed from the least significant bit -/

/-- The values in code order: by length, then by value. -/
def codeOrder (lens : List Nat) : List Nat :=
  (List.range 15).flatMap (fun l => (List.range 16).filter (fun v => lens.getD v 0 = l + 1))

/-- The lengths form a code: no more codes than bits can tell apart. -/
def codeOk (lens : List Nat) : Bool :=
  decide ((lens.map (fun l => if l = 0 then 0 else 2 ^ (15 - l))).foldl (· + ·) 0 ≤ 2 ^ 15)

/-- One value off a bit run: the code so far, the first code of this length and its place in the order. -/
def takeCode (lens order : List Nat) : Nat → Nat → Nat → Nat → Nat → List Bool → Option (Nat × List Bool)
  | 0, _, _, _, _, _ => none
  | _ + 1, _, _, _, _, [] => none
  | fuel + 1, len, code, first, ix, b :: bs =>
    let c := code * 2 + b2n b
    let n := (lens.filter (fun l => l = len)).length
    if c < first + n then some (order.getD (ix + (c - first)) 0, bs)
    else takeCode lens order fuel (len + 1) c ((first + n) * 2) (ix + n) bs

/-- `n` values off a bit run. -/
def takeCodes (lens order : List Nat) : Nat → List Bool → Option (List Nat × List Bool)
  | 0, bs => some ([], bs)
  | n + 1, bs =>
    match takeCode lens order 15 1 0 0 0 bs with
    | none => none
    | some (v, rest) => (takeCodes lens order n rest).map (fun r => (v :: r.1, r.2))

/-- Sixteen bytes of element nibbles. -/
def nibLine (l : List Nat) : List Byte :=
  (List.range 16).map (fun i => BitVec.ofNat 8 (l.getD (2 * i) 0 % 16 + l.getD (2 * i + 1) 0 % 16 * 16))

/-- Decode a segment of `n` records: their element lines. -/
def segLines (lens : List Nat) (n : Nat) (coded : List Byte) : Option (List (List Byte)) :=
  if !codeOk lens then none
  else match takeCodes lens (codeOrder lens) (32 * n) (unpackBits coded) with
  | none => none
  | some (vs, rest) =>
    if rest.length < 8 then some ((List.range n).map (fun i => nibLine ((vs.drop (32 * i)).take 32))) else none

/-- Read an entropy-coded tensor of `n` records: the records (line, scale) and the stored bytes read, or a status. -/
def readSegments (src part : Nat) (lens : List Nat) : Nat → Nat → Nat → Act (Except Nat (List (List Byte × Nat) × Nat))
  | 0, _, n => return (if n = 0 then .ok ([], 0) else .error 1)
  | _ + 1, _, 0 => return .ok ([], 0)
  | fuel + 1, addr, n => do
    match ← gRead src part addr 4 with
    | .error _ => return .error 6
    | .ok h =>
      let k := numAt h 3 1 + 1
      let coded := numAt h 0 3
      if n < k then return .error 1
      match ← gRead src part (addr + 4) (k + coded) with
      | .error _ => return .error 6
      | .ok bs =>
        match segLines lens k (bs.drop k) with
        | none => return .error 1
        | some ls =>
          let size := 4 + k + roundUp coded 4
          match ← readSegments src part lens fuel (addr + size) (n - k) with
          | .error e => return .error e
          | .ok (more, m) => return .ok ((List.range k).map (fun i => (ls.getD i [], numAt bs i 1)) ++ more, size + m)

/-! ## Records to lines (R86, R91, R92, R112) -/

/-- An H3I record's 32 elements as nibbles, and how many were invalid (R86). -/
def h3iLine (r : List Byte) : List Byte × Nat :=
  let v := numAt r 0 12
  let el := (List.range 32).map (fun i => bits v (3 * i + 2) (3 * i))
  (nibLine (el.map (fun x => if x = 4 then 0 else if x < 4 then x else x + 8)), (el.filter (fun x => x = 4)).length)

/-- The scale code of an MXFP4 block: none where the tensor stops, 0 for a zero block (R112). -/
def mxScale (x : Nat) (o : Int) : Option Nat :=
  let k : Int := (x : Int) - 127 + o
  if x = 255 ∨ 16 < k then none
  else if -14 ≤ k then some ((k + 15).toNat * 8)
  else if k = -15 then some 4
  else if k = -16 then some 2
  else if k = -17 then some 1
  else some 0

/-- Stored bytes of a record. -/
def storedBytes (fmt : Nat) : Nat := match fmt with
  | 2 => 13
  | 3 => 8
  | 4 => 32
  | _ => 17

/-- What a format's records become: element lines and scale bytes, a count of the format's own (H3I invalid codes, MXFP4
zero blocks), and whether an MXFP4 tensor stopped. -/
structure Expanded where
  lines : List (List Byte)
  scales : List Nat
  odd : Nat := 0
  stopped : Bool := false
deriving DecidableEq, Repr

/-- Expand records of a stored tensor without entropy layer. -/
def expand (fmt : Nat) (o : Int) (recs : List (List Byte)) : Expanded :=
  match fmt with
  | 2 => { lines := recs.map (fun r => (h3iLine r).1), scales := recs.map (fun r => numAt r 12 1)
           odd := (recs.map (fun r => (h3iLine r).2)).foldl (· + ·) 0 }
  | 3 => { lines := recs.map (fun r => r.take 7 ++ [0]), scales := recs.map (fun r => numAt r 7 1) }
  | 4 => { lines := recs, scales := [] }
  | 5 =>
    let good := recs.takeWhile (fun r => (mxScale (numAt r 16 1) o).isSome)
    let sc := good.map (fun r => (mxScale (numAt r 16 1) o).getD 0)
    { lines := good.map (fun r => if (mxScale (numAt r 16 1) o) = some 0 then List.replicate 16 0 else r.take 16), scales := sc
      odd := (sc.filter (fun x => x = 0)).length, stopped := decide (good.length < recs.length) }
  | _ => { lines := recs.map (fun r => r.take 16), scales := recs.map (fun r => numAt r 16 1) }

/-- Bytes of a region of `n` blocks in tile SRAM (R92). -/
def wRegionBytes (fmt n : Nat) : Nat := match fmt with
  | 3 => 16 * ((n + 1) / 2) + roundUp n 16
  | 4 => 32 * n
  | _ => 16 * n + roundUp n 16

/-- Where the scale lane of a region of `n` blocks starts. -/
def scaleBase (fmt n : Nat) : Nat := if fmt = 3 then 16 * ((n + 1) / 2) else 16 * n

/-- Write expanded blocks into a region laid out for `n` (R92). -/
def writeRegion (page base fmt n : Nat) (x : Expanded) : Act Unit := do
  tileWrite page base (x.lines.flatten ++ (if fmt = 3 ∧ x.lines.length % 2 = 1 then List.replicate 8 0 else []))
  if fmt ≠ 4 then
    let sc := x.scales.map (fun v => (BitVec.ofNat 8 v : Byte))
    tileWrite page (base + scaleBase fmt n) (if sc.length = n then bytesAt sc 0 (roundUp n 16) else sc)

/-! ## The queue and its pieces (R309 to R311, R320) -/

def State.tdqTail (s : State) (p : Nat) : Nat := s.fldOf (R.PRT_TDQ_TAIL p) F.PRT_TDQ_TAIL.tail
def State.tdqDone (s : State) (p : Nat) : Nat := s.fldOf (R.PRT_TDQ_HEAD p) F.PRT_TDQ_HEAD.done
def State.tdqKey (s : State) (p i : Nat) : Nat :=
  hubLine (s.fldOf (R.PRT_TDQ_CFG p) F.PRT_TDQ_CFG.base) + i % max 1 (s.fldOf (R.PRT_TDQ_CFG p) F.PRT_TDQ_CFG.size) * 64

/-- TDQ_TAIL_WRITE (R320). -/
def tdqTailWrite (p tail : Nat) : Act (Option Nat) := do
  let s ← Act.get
  if queueTailBad (s.fldOf (R.PRT_TDQ_CFG p) F.PRT_TDQ_CFG.size) (s.tdqDone p) (s.tdqTail p) tail then return some 4
  wrF (R.PRT_TDQ_TAIL p) F.PRT_TDQ_TAIL.tail tail
  return none

def modTed (f : TedX → TedX) : Act Unit := do Act.upd (.ted (f (← rd (fun s => s.ted))))

/-- The entry's record, fresh where no piece of it has started. -/
def State.fillE (s : State) (p i : Nat) : FillE :=
  (s.ted.entries.find? (fun e => e.part = p && e.idx = i)).getD { part := p, idx := i, started := [], ended := 0, status := 0 }

def putFillE (e : FillE) : Act Unit :=
  modTed (fun x => { x with entries := x.entries.filter (fun d => !(d.part = e.part && d.idx = e.idx)) ++ [e] })

/-- The leading ended entries of a queue count as done. -/
def tdqAdvance (p : Nat) : Nat → Act Unit
  | 0 => skip
  | fuel + 1 => do
    let s ← Act.get
    let i := s.tdqDone p
    if s.ted.finished.contains (p, i) then
      modTed (fun x => { x with finished := x.finished.filter (fun e => e ≠ (p, i)) })
      wrF (R.PRT_TDQ_HEAD p) F.PRT_TDQ_HEAD.done (i + 1)
      tdqAdvance p fuel

/-- Every piece of an entry has ended: its status and then its signal are written (R309). -/
def fillEnd (p i st : Nat) : Act Unit := do
  let s ← Act.get
  let k := s.tdqKey p i
  hubStore p (k + 2) (leBytes 1 st)
  let e := s.hubBytes p k 64
  if bit (numAt e 3 1) 3 then signalTile 0x2000 p (numAt e 40 4) (numAt e 44 4)
  modTed (fun x => { x with entries := x.entries.filter (fun d => !(d.part = p && d.idx = i)), finished := x.finished ++ [(p, i)] })
  tdqAdvance p 4096

/-- The tedder of a piece: its tile's quarter; of a tile that is not mapped, the quarter of its number (R25). -/
def State.pieceQuarter (s : State) (logical : Nat) : Nat := match s.tileOf logical with
  | some page => page / 156
  | none => min 3 (logical / 144)

/-- The next piece of partition `p` for tedder `q`: entry, piece number. -/
def State.nextPiece (s : State) (p q : Nat) : Option (Nat × Nat) :=
  (List.range (moves32 (s.tdqDone p) (s.tdqTail p))).findSome? (fun k =>
    let i := (s.tdqDone p + k) % 2 ^ 32
    if s.ted.finished.contains (p, i) then none
    else
      let e := s.hubBytes p (s.tdqKey p i) 64
      if !fiGood e then some (i, 0)
      else ((List.range (fiTiles e)).find? (fun j =>
        !(s.fillE p i).started.contains j && s.pieceQuarter (fiFirst e + j) = q)).map (fun j => (i, j)))

/-- FILL_PIECE (R45, R310, R311): tedder `q`, if idle, starts the next piece of partition `p` for it. A piece for a buffer
IN_USE waits. -/
def fillPiece (q p : Nat) : Act Unit := do
  let s ← Act.get
  if s.ted.busy.any (fun b => b.q = q) || !s.pageServes (pageBase .ted q) || !s.pageServes (pageBase .prt p) then return
  match s.nextPiece p q with
  | none => skip
  | some (i, j) =>
    let e := s.hubBytes p (s.tdqKey p i) 64
    if moves32 (s.tdqDone p) (s.fldOf (R.PRT_TDQ_HEAD p) F.PRT_TDQ_HEAD.started) < moves32 (s.tdqDone p) ((i + 1) % 2 ^ 32) then wrF (R.PRT_TDQ_HEAD p) F.PRT_TDQ_HEAD.started (i + 1)
    if !fiGood e then fillEnd p i 5
    else
      let start (page early : Nat) : Act Unit := do
        let d ← rd (fun t => t.fillE p i)
        putFillE { d with started := d.started ++ [j] }
        modTed (fun x => { x with busy := x.busy ++ [{ part := p, idx := i, j := j, q := q, page := page, early := early }] })
        wrF (R.TED_STATUS q) F.TED_STATUS.busy 1
        wrF (R.TED_STATUS q) F.TED_STATUS.partition p
      match s.tileOfPart (fiFirst e + j) p with
      | none => start 0 5
      | some page =>
        let w := b2n (fiFlag e 0)
        let st := s.wbufState page w
        if st = 3 then count (C.TILE_CNT_WBUF_BLOCKED page) 1
        else if st = 2 ∨ (st = 1 ∧ s.wbufTag page w ≠ fiTag e) then start page 3
        else
          setWbuf page w 1
          setWbufTag page w (fiTag e)
          start page (if s.wbufSize page w < fiDst e + wRegionBytes (fiFormat e) (fiRecords e) then 4 else 0)

/-- The partition whose GDDR7 space a fill's source lies in: with base set the owner of the slot that was active at the
partition's last step start, if the partition is among its readers (R311). -/
def State.fillSource (s : State) (p : Nat) (base : Bool) : Option Nat :=
  if !base then some p
  else
    let v := (s.wordAt (baseSlotKey p)).toNat
    let b := if v = 0 then s.fldOf R.BIN_BASE_ACTIVE F.BIN_BASE_ACTIVE.slot else v - 1
    if bit (s.fldOf (R.BIN_BASE b) F.BIN_BASE.readers) p then some (s.fldOf (R.BIN_BASE b) F.BIN_BASE.owner) else none

/-- Read and expand a piece: the blocks and the stored bytes, or a status. -/
def readPiece (q part : Nat) (e : List Byte) (addr : Nat) : Act (Except Nat (Expanded × Nat)) := do
  let n := fiRecords e
  if fiFlag e 2 then
    match ← readSegments (0x2000 + q) part (fiLens e) (n + 1) addr n with
    | .error st => return .error st
    | .ok (rs, m) => return .ok ({ lines := rs.map (·.1), scales := rs.map (·.2) }, m)
  else
    let k := storedBytes (fiFormat e)
    match ← gRead (0x2000 + q) part addr (k * n) with
    | .error _ => return .error 6
    | .ok bs => return .ok (expand (fiFormat e) (fiOffset e) ((List.range n).map (fun i => (bs.drop (k * i)).take k)), k * n)

/-- FILL_PIECE_DONE (R309, R310): the piece tedder `q` works on ends; a good last piece makes its buffer READY; the entry ends
with its last piece. -/
def fillPieceDone (q : Nat) : Act Unit := do
  let s ← Act.get
  match s.ted.busy.find? (fun b => b.q = q) with
  | none => skip
  | some b =>
    let e := s.hubBytes b.part (s.tdqKey b.part b.idx) 64
    let src := s.fillSource b.part (fiFlag e 4)
    let st ← (if b.early ≠ 0 then pure b.early
      else match src with
      | none => pure 5
      | some part => do
        match ← readPiece q part e (fiSrc e + b.j * fiStride e) with
        | .error x => pure x
        | .ok (x, m) =>
          count (C.TED_CNT_STORED_BYTES q) m
          count (C.TED_CNT_EXPANDED_BYTES q) (wRegionBytes (fiFormat e) x.lines.length)
          if fiFormat e = 2 then count (C.TED_CNT_H3I_BAD q) x.odd
          if fiFormat e = 5 then count (C.TED_CNT_MX_ZERO q) x.odd
          writeRegion b.page (s.wbufBase b.page (b2n (fiFlag e 0)) + fiDst e) (fiFormat e) (fiRecords e) x
          pure (if x.stopped then 2 else 0))
    modTed (fun x => { x with busy := x.busy.filter (fun d => d.q ≠ q) })
    wrF (R.TED_STATUS q) F.TED_STATUS.busy 0
    count (C.TED_CNT_PIECES q) 1
    if st ≠ 0 then
      count (C.TED_CNT_FILL_ERR q) 1
      wrF (R.TED_FILL_LAST q) F.TED_FILL_LAST.status st
      wrF (R.TED_FILL_LAST q) F.TED_FILL_LAST.partition b.part
      wrF (R.TED_FILL_LAST q) F.TED_FILL_LAST.tile (fiFirst e + b.j)
      setIrq (pageBase .ted q) 32
    else if fiFlag e 1 then setWbuf b.page (b2n (fiFlag e 0)) 2
    let d ← rd (fun t => t.fillE b.part b.idx)
    let d := { d with ended := d.ended + 1, status := if d.status = 0 then st else d.status }
    putFillE d
    if d.ended = fiTiles e then fillEnd b.part b.idx d.status

/-- A partition's fill queue stops; entries unfinished read no status (R434, R436). -/
def fillStop (p : Nat) : Act Unit := do
  let x ← rd (fun s => s.ted)
  for b in x.busy do
    if b.part = p then wrF (R.TED_STATUS b.q) F.TED_STATUS.busy 0
  Act.upd (.ted { busy := x.busy.filter (fun b => b.part ≠ p), entries := x.entries.filter (fun e => e.part ≠ p)
                  finished := x.finished.filter (fun e => e.1 ≠ p) })
  wrF (R.PRT_TDQ_TAIL p) F.PRT_TDQ_TAIL.tail 0
  wrR (R.PRT_TDQ_HEAD p) 0

/-! ## Adapter commands (R313, R321) -/

/-- REQ_ADP_STATUS.result of a command. -/
def adpResult (p r : Nat) : Act Unit := wrF (R.REQ_ADP_STATUS p) F.REQ_ADP_STATUS.result r

/-- ADP_STAGE: a FREE entry is written from REQ_ADP_ARG; state, owner and pins are the engine's. -/
def adpStage (p : Nat) : Act Unit := do
  let s ← Act.get
  let arg := (List.range 4).map (fun w => (s.reg (R.REQ_ADP_ARG p w)).toNat)
  let w0 := arg.getD 0 0
  let mine := s.adpEntries.filter (fun e => s.adpF e 0 F.ADP.owner = p)
  if 4096 ≤ s.adpEntries.length then adpResult p 1
  else if s.fldOf (R.PRT_QUOTA p) F.PRT_QUOTA.adapters ≤ mine.length then adpResult p 2
  else if (s.adpFind p (w0 % 2 ^ 16) (w0 / 2 ^ 16 % 2 ^ 16) [1, 2, 3, 4]).isSome then adpResult p 3
  else
    match (List.range 4096).find? (fun e => s.adpF e 0 F.ADP.state = 0) with
    | none => adpResult p 1
    | some e =>
      stW (adpKey e 0) (setBits w0 47 32 (p + 2 ^ 8))
      stW (adpKey e 1) (arg.getD 1 0 % 2 ^ 32)
      stW (adpKey e 2) (arg.getD 2 0)
      stW (adpKey e 3) (arg.getD 3 0)
      adpResult p 0
      showAdapters p

/-- ADP_PUBLISH: a STAGED entry becomes CURRENT; the CURRENT one of the same owner and number is superseded, or freed where
nothing pins it. -/
def adpPublish (p num ver : Nat) : Act Unit := do
  let s ← Act.get
  match s.adpFind p num ver [1, 2, 3, 4] with
  | none => adpResult p 4
  | some e =>
    if s.adpF e 0 F.ADP.state ≠ 1 then adpResult p 5
    else
      for d in s.adpEntries do
        if s.adpF d 0 F.ADP.owner = p ∧ s.adpF d 0 F.ADP.number = num ∧ s.adpF d 0 F.ADP.state = 2 then
          if s.adpF d 1 F.ADP.pins = 0 then adpRetire d else adpSet d 0 F.ADP.state 3
      adpSet e 0 F.ADP.state 2
      adpResult p 0

/-- ADP_WITHDRAW: a CURRENT entry becomes WITHDRAWN, or FREE where nothing pins it. -/
def adpWithdraw (p num ver : Nat) : Act Unit := do
  let s ← Act.get
  match s.adpFind p num ver [1, 2, 3, 4] with
  | none => adpResult p 4
  | some e =>
    if s.adpF e 0 F.ADP.state ≠ 2 then adpResult p 5
    else
      if s.adpF e 1 F.ADP.pins = 0 then adpRetire e else adpSet e 0 F.ADP.state 4
      adpResult p 0

/-- ADP_DROP: a STAGED entry goes FREE. -/
def adpDrop (p num ver : Nat) : Act Unit := do
  let s ← Act.get
  match s.adpFind p num ver [1, 2, 3, 4] with
  | none => adpResult p 4
  | some e =>
    if s.adpF e 0 F.ADP.state ≠ 1 then adpResult p 5
    else
      adpClear e
      adpResult p 0

/-! ## Base slots (R314 to R316) -/

def State.baseState (s : State) (b : Nat) : Nat := s.fldOf (R.BIN_BASE b) F.BIN_BASE.state
def setBaseState (b st : Nat) : Act Unit := wrF (R.BIN_BASE b) F.BIN_BASE.state st

/-- BASE_DISCARD: a VERIFIED or FAILED slot goes EMPTY. -/
def baseDiscard (b : Nat) : Act Unit := do
  let s ← Act.get
  if s.baseState b = 2 ∨ s.baseState b = 5 then
    setBaseState b 0
    wrF (R.BIN_BASE b) F.BIN_BASE.resident 0

/-- The security core's swap record takes a phase (R315). -/
def swapRecord (phase slot tick : Nat) : Act Unit := do
  wrF R.BIN_SWAP_REC F.BIN_SWAP_REC.tick tick
  wrF R.BIN_SWAP_STATE F.BIN_SWAP_STATE.slot slot
  wrF R.BIN_SWAP_STATE F.BIN_SWAP_STATE.phase phase

/-- BIN_BASE_ACTIVE takes effect (R314): the named slot is ACTIVE, the one that was retires once its readers have started a
step, or were IDLE. -/
def baseCutover (b : Nat) : Act Unit := do
  let s ← Act.get
  wrF R.BIN_BASE_ACTIVE F.BIN_BASE_ACTIVE.slot b
  if s.baseState b = 2 then setBaseState b 3
  let a := 1 - b
  if s.baseState a = 3 then
    setBaseState a 4
    let wait := (setBitList 32 (s.fldOf (R.BIN_BASE a) F.BIN_BASE.readers)).filter (fun p =>
      s.partValid p && s.fldOf (R.REQ_STEP_STATUS p) F.REQ_STEP_STATUS.phase ≠ 0)
    stW baseWaitKey (wait.foldl orBit 0)

/-- BASE_RETIRE (R314): a RETIRING slot that waits for no partition goes EMPTY, and the record reads RETIRED. -/
def baseRetire (b : Nat) : Act Unit := do
  let s ← Act.get
  if s.baseState b = 4 ∧ s.wordAt baseWaitKey = 0 then
    setBaseState b 0
    wrF (R.BIN_BASE b) F.BIN_BASE.resident 0
    wrF R.BIN_SWAP_STATE F.BIN_SWAP_STATE.phase 2

end Sys2Proof.Machine
end

