-- ==== Sys2Proof/Machine/Trust.lean ====
section
/-! DEFINITION. The hayward's mailbox (R379), the security core's commands (R392, R396, R402), the management channel
(R397, R398, R412) and attestation reports (R399, R400). Where the spec is open: DEDUCED 95, DESIGN CHOICE 93, 94 and 123,
PRESUMED 162 of the assumption log. -/

namespace Sys2Proof.Machine

def modSec (f : SecX → SecX) : Act Unit := do Act.upd (.sec (f (← rd (fun s => s.sec))))

/-- A 384-bit value as its 48 bytes. -/
def bytes48 (d : BitVec 384) : List Byte := leBytes 48 d.toNat

/-- A measurement register (R393). -/
def State.meas (s : State) (i : Nat) : BitVec 384 := ((s.sec.meas.find? (fun e => e.1 = i)).map (·.2)).getD 0

/-- Extend a measurement register with a digest (R393). -/
def extendMeas (i : Nat) (d : List Byte) : Act Unit := do
  let m ← rd (fun s => s.meas i)
  modSec (fun x => { x with meas := x.meas.filter (fun e => e.1 ≠ i) ++ [(i, Config.sha384 (bytes48 m ++ d))] })

def State.floorOf (s : State) (k : Nat) : Nat := ((s.sec.floors.find? (fun e => e.1 = k)).map (·.2)).getD 0
def State.runningOf (s : State) (k : Nat) : Nat := ((s.sec.running.find? (fun e => e.1 = k)).map (·.2)).getD 0

/-! ## Reports (R399, R400) -/

/-- A run of zero bytes. -/
def zeros (n : Nat) : List Byte := List.replicate n 0

/-- The granules a partition holds. -/
def State.granuleCount (s : State) (p : Nat) : Nat :=
  ((s.tab.filter (fun e => decide (gmapKey p 0 ≤ e.1 ∧ e.1 < gmapKey (p + 1) 0)))).filter (fun e =>
    getFld e.2 F.GMAP.valid = 1) |>.length

/-- The logical tiles of a partition's grant (R403). -/
def State.tileGrant (s : State) (p : Nat) : List Nat :=
  (List.range 9).flatMap (fun w => (setBitList 64 (s.reg (R.PRT_TILES p w)).toNat).map (fun i => 64 * w + i))

/-- A partition layout entry; the counts only where asked for (R400). -/
def State.layoutEntry (s : State) (p : Nat) (full : Bool) : List Byte :=
  let c := s.reg (R.PRT_CTRL p)
  let b0 := getFld c F.PRT_CTRL.valid * 128 + b2n (getFld c F.PRT_CTRL.state = 3) * 64 + getFld c F.PRT_CTRL.spread * 32 +
    b2n (s.boardMode p) * 16
  let n (x : Nat) : Nat := if full then x else 0
  leBytes 1 b0 ++ zeros 1 ++ leBytes 2 (n (s.tileGrant p).length) ++ leBytes 2 (n (s.granuleCount p)) ++
    leBytes 2 (n ((List.range 4).map (fun h => s.fldOf (R.PRT_HUBMEM p h) F.PRT_HUBMEM.count)).sum) ++
    leBytes 4 (n (s.fldOf (R.PRT_RINGS p) F.PRT_RINGS.count)) ++ leBytes 2 (n (s.fldOf (R.PRT_SLOTS p) F.PRT_SLOTS.count)) ++
    zeros 2 ++ leBytes 4 (n (s.fldOf (R.FLC_NS p) F.FLC_NS.size)) ++
    (bytes48 (Config.sha384 (leBytes 8 (s.partKey p)))).take 8 ++ zeros 4

/-- A manifest slot's line of a report. -/
def State.manifestLine (s : State) (i : Nat) : List Byte := match s.load.mans.find? (fun m => m.slot = i) with
  | some m => bytes48 (Config.sha384 m.bytes) ++ leBytes 1 m.owner ++ ([1] : List Byte) ++ zeros 14
  | none => zeros 64

/-- A report of a kind, for one partition or for all (R399). -/
def State.report (s : State) (kind : Nat) (nonce : List Byte) (only : Option Nat) (release : List Byte) : List Byte :=
  let id := leBytes 1984 Config.identity
  let st := s.reg R.SEC_BOOT_STATUS
  let body := leBytes 2 1 ++ leBytes 1 kind ++
    leBytes 1 (getFld st F.SEC_BOOT_STATUS.identity_mismatch + 2 * getFld st F.SEC_BOOT_STATUS.debug_open) ++ leBytes 4 7617 ++
    leBytes 4 (getFld st F.SEC_BOOT_STATUS.boot_count) ++ zeros 4 ++ leBytes 8 s.tick ++ leBytes 8 s.now ++
    bytesAt nonce 0 32 ++ bytes48 (Config.sha384 id) ++ (List.range 16).flatMap (fun i => bytes48 (s.meas i)) ++
    leBytes 1 (s.fldOf R.SEC_LIFECYCLE F.SEC_LIFECYCLE.state) ++ zeros 3 ++ (List.range 8).flatMap (fun k => leBytes 4 (s.floorOf k)) ++
    zeros 4 ++ (List.range 32).flatMap (fun p => s.layoutEntry p (match only with
      | some q => p = q
      | none => true)) ++
    (List.range 16).flatMap (fun i => s.manifestLine i) ++ bytesAt release 0 1276
  body ++ leBytes 3373 (Config.sigMake body)

/-! ## The mailbox (R379) -/

/-- Where a partition's mailbox stands in the byte store. -/
def State.mboxKey (s : State) (p : Nat) : Nat := hubLine (s.fldOf (R.PRT_HAY_MBOX p) F.PRT_HAY_MBOX.addr)

/-- A write of PRT_HAY_CALL: refused while a call of the partition is pending. -/
def hayCallWrite (p : Nat) : Act (Option Nat) := do
  let s ← Act.get
  if s.sec.calls.contains p then return some 4
  modSec (fun x => { x with calls := x.calls ++ [p] })
  stBytes (s.mboxKey p + 1) [0xFF]
  return none

/-- ACT: the calling core's acting partition changes where HAY_CORE_n allows it. -/
def callAct (core arg : Nat) : Act Nat := do
  let s ← Act.get
  if core < 24 ∧ arg < 32 ∧ bit (s.fldOf (R.HAY_CORE core) F.HAY_CORE.allowed) arg then
    wrF (R.HAY_CORE core) F.HAY_CORE.act arg
    wrF (R.HAY_CORE core) F.HAY_CORE.act_valid 1
    return 0
  return 1

/-- EXTEND: measurement 8 to 15 with the digest at an address of the partition. -/
def callExtend (p arg0 arg1 : Nat) : Act Nat := do
  if arg0 < 8 ∨ 15 < arg0 then return 1
  match ← spRead 0 p (refSpace arg1) (refAddr arg1) 48 with
  | .error _ => return 1
  | .ok d =>
    extendMeas arg0 d
    return 0

/-- REPORT: a kind 1 report with the calling partition's layout. -/
def callReport (p arg0 arg1 : Nat) : Act Nat := do
  match ← spRead 0 p (refSpace arg0) (refAddr arg0) 32 with
  | .error _ => return 1
  | .ok nonce =>
    let r ← rd (fun s => s.report 1 nonce (some p) [])
    match ← spWrite 0 p (refSpace arg1) (refAddr arg1) r with
    | some _ => return 1
    | none => return 0

/-- HAY_CALL_ACT, HAY_CALL_EXTEND, HAY_CALL_REPORT: the hayward serves a partition's pending call if its code is the one named,
or none that is known. -/
def hayServe (p code : Nat) : Act Unit := do
  let s ← Act.get
  if !s.sec.calls.contains p then return
  let b := s.memBytes (s.mboxKey p) 64
  let c := numAt b 0 1
  if c ≠ code ∧ 1 ≤ c ∧ c ≤ 3 then return
  let st ← (match c with
    | 1 => callAct (numAt b 2 1) (numAt b 8 8)
    | 2 => callExtend p (numAt b 8 8) (numAt b 16 8)
    | 3 => callReport p (numAt b 8 8) (numAt b 16 8)
    | _ => pure 2)
  stBytes (s.mboxKey p + 1) (leBytes 1 st)
  modSec (fun x => { x with calls := x.calls.filter (fun q => q ≠ p) })
  count C.HAY_CNT_CALLS 1

/-! ## SEC_CMD (R392, R396, R402) -/

def secResult (r : Nat) : Act Unit := wrF R.SEC_CMD_STATUS F.SEC_CMD_STATUS.result r

/-- `n` bytes of an argument block of a command: in hub SRAM, which is the hayward's whole, or in the GDDR7 space of the partition
that HAY_CORE_n names for the hayward core (R378, R402, DESIGN CHOICE 93). -/
def secBytes (part : Option Nat) (space addr n : Nat) : Act (Option (List Byte)) := do
  match space, part with
  | 0, _ =>
    if addr + n ≤ 2 ^ 26 then return some (← ldBytes (2 ^ 36 + addr) n)
    return none
  | 1, some p =>
    match ← spRead 0 p 1 addr n with
    | .ok bs => return some bs
    | .error _ => return none
  | _, _ => return none

/-- FLOOR_COMMIT (R392): the floor of the kind in byte 0 rises to the version now running. -/
def floorCommit (b : List Byte) : Act Unit := do
  let k := numAt b 0 1
  if 7 < k then secResult 2
  else
    let s ← Act.get
    modSec (fun x => { x with floors := x.floors.filter (fun e => e.1 ≠ k) ++ [(k, max (s.floorOf k) (s.runningOf k))] })
    secResult 0

/-- A model-owner key pair with its mask enters the table of 64 (R402); answers whether there was room. -/
def ownerKeyAdd (keys : List Byte) (mask : Nat) : Act Bool := do
  let s ← Act.get
  if 64 ≤ s.sec.ownerKeys.length then return false
  modSec (fun x => { x with ownerKeys := x.ownerKeys ++ [(mask, keys)] })
  return true

/-- OWNER_KEY_INSTALL (R402): block of the key pair, 1,984 bytes, and the mask. -/
def ownerKeyInstall (b : List Byte) : Act Unit := do
  if ← ownerKeyAdd (bytesAt b 0 1984) (numAt b 1984 4) then secResult 0 else secResult 3

/-- OWNER_KEY_REMOVE (R402): the entry that holds the block's key pair. -/
def ownerKeyRemove (b : List Byte) : Act Unit := do
  let s ← Act.get
  if s.sec.ownerKeys.any (fun e => e.2 = bytesAt b 0 1984) then
    modSec (fun x => { x with ownerKeys := x.ownerKeys.filter (fun e => e.2 ≠ bytesAt b 0 1984) })
    secResult 0
  else secResult 2

/-- REPORT (R399, R402): block of nonce and destination. -/
def secReport (part : Option Nat) (b : List Byte) : Act Unit := do
  let dst := numAt b 32 8
  let r ← rd (fun s => s.report 1 (bytesAt b 0 32) none [])
  match refSpace dst, part with
  | 0, _ =>
    if 2 ^ 26 < refAddr dst + 7617 then secResult 2
    else
      stBytes (2 ^ 36 + refAddr dst) r
      secResult 0
  | 1, some p =>
    match ← spWrite 0 p 1 (refAddr dst) r with
    | some _ => secResult 2
    | none => secResult 0
  | _, _ => secResult 2

/-- A lifecycle record: what it asks, who signed it, an operator key digest, its signature block over the 128 bytes before
it. -/
def lcKind (b : List Byte) : Nat := numAt b 0 1
def lcOperator (b : List Byte) : Bool := numAt b 1 1 = 1
def lcDigest (b : List Byte) : BitVec 384 := BitVec.ofNat 384 (numAt b 16 48)

/-- The record's signatures verify against the key it claims (R396). -/
def State.lcSigned (s : State) (b : List Byte) : Bool :=
  let sig := bytesAt b 128 3373
  if lcOperator b then
    match s.sec.operator with
    | some d => Config.sigOk (bytes48 d) (b.take 128) sig
    | none => false
  else Config.sigOk [] (b.take 128) sig

def setLifecycle (n : Nat) : Act Unit := wrF R.SEC_LIFECYCLE F.SEC_LIFECYCLE.state n

/-- A LIFECYCLE record (R396): 1 PROVISION, 2 CLAIM, 3 RELEASE, 4 DECOMMISSION, 5 DEBUG. -/
def lifecycle (b : List Byte) : Act Unit := do
  let s ← Act.get
  let st := s.lifecycle
  if !s.lcSigned b then secResult 1
  else match lcKind b, lcOperator b with
  | 1, false =>
    if st = 0 then do setLifecycle 1; secResult 0 else secResult 4
  | 2, false =>
    if st = 1 then do
      modSec (fun x => { x with operator := some (lcDigest b) })
      setLifecycle 2
      secResult 0
    else secResult 4
  | 3, true =>
    if st = 2 then do
      modSec (fun x => { x with operator := none, ownerKeys := [] })
      setLifecycle 1
      secResult 0
    else secResult 4
  | 4, _ =>
    if st = 1 ∨ st = 2 then do
      modSec (fun x => { x with helper := false })
      setLifecycle 3
      secResult 0
    else secResult 4
  | 5, true => do
    wrF R.SEC_BOOT_STATUS F.SEC_BOOT_STATUS.debug_open 1
    secResult 0
  | 1, true => secResult 1
  | 2, true => secResult 1
  | 3, false => secResult 1
  | 5, false => secResult 1
  | _, _ => secResult 2

/-- A write of SEC_CMD runs its command (R402). -/
def secCommand (part : Option Nat) : Act Unit := do
  let s ← Act.get
  let arg (n : Nat) (k : List Byte → Act Unit) : Act Unit := do
    match ← secBytes part (s.fldOf R.SEC_CMD F.SEC_CMD.space) (s.fldOf R.SEC_CMD F.SEC_CMD.arg) n with
    | some b => k b
    | none => secResult 2
  match s.fldOf R.SEC_CMD F.SEC_CMD.op with
  | 1 => arg 1 floorCommit
  | 2 => arg 1988 ownerKeyInstall
  | 3 => arg 1984 ownerKeyRemove
  | 4 => arg 3501 lifecycle
  | 5 => arg 40 (secReport part)
  | _ => secResult 2

/-! ## Management records (R397, R398) -/

def mrType (l : List Byte) : Nat := numAt l 2 1
def mrLen (l : List Byte) : Nat := numAt l 4 2
def mrSeq (l : List Byte) : Nat := numAt l 8 8
def mrBoot (l : List Byte) : Nat := numAt l 16 4
def mrBody (l : List Byte) : List Byte := bytesAt l 24 (mrLen l)

/-- The package accepts a record (R397, R398). -/
def State.recordOk (s : State) (l : List Byte) : Bool :=
  numAt l 0 2 = 1 && l.length = 24 + mrLen l + 3373 && decide (l.length ≤ 9000) && numAt l 3 1 = 0 &&
    (match s.sec.operator with
     | some d => Config.sigOk (bytes48 d) (l.take (24 + mrLen l)) (l.drop (24 + mrLen l))
     | none => false) &&
    mrBoot l = s.fldOf R.SEC_BOOT_STATUS F.SEC_BOOT_STATUS.boot_count && decide ((s.reg R.SEC_MGMT_SEQ).toNat < mrSeq l)

/-- The IP version of the records: 1 where the port has an IPv4 address, else 2 (R482, PRESUMED 162). -/
def State.mgtIp (s : State) : Nat := if s.fldOf R.MGT_PORT_IP4 F.MGT_PORT_IP4.addr ≠ 0 then 1 else 2

/-- A record leaves the package from its management port number: its header with the next of its own sequence numbers, its body and,
unless it is a report, the signature block of the identity keys (R397, R398, DESIGN CHOICE 94). -/
def sendRecord (type : Nat) (body : List Byte) : Act Unit := do
  let s ← Act.get
  let h := leBytes 2 1 ++ leBytes 1 type ++ leBytes 1 1 ++ leBytes 2 body.length ++ zeros 2 ++ leBytes 8 (s.sec.sentSeq + 1) ++
    leBytes 4 (s.fldOf R.SEC_BOOT_STATUS F.SEC_BOOT_STATUS.boot_count) ++ zeros 4
  modSec (fun x => { x with sentSeq := x.sentSeq + 1 })
  let bs := h ++ body ++ (if type = 3 then [] else leBytes 3373 (Config.sigMake (h ++ body)))
  mgtSend (s.mgtWire s.mgtIp bs.length) (.record (s.fldOf R.SEC_MGMT_PORT F.SEC_MGMT_PORT.port) bs)

/-- An ACK leaves the package: the sequence number acknowledged and a status. -/
def sendAck (seq status : Nat) : Act Unit := sendRecord 7 (leBytes 4 seq ++ leBytes 4 status)

/-- A record of one type arrives at the management port: accepted, it is acted on and acknowledged with the status `k` gives, if
it gives one; a rejected one is logged (R398, R481). -/
def onRecord (type : Nat) (l : List Byte) (k : List Byte → Act (Option Nat)) : Act Unit := do
  let s ← Act.get
  mgtFrame (s.mgtWire s.mgtIp l.length) do
  if mrType l ≠ type then return
  if ← rd (fun s => s.recordOk l) then
    wrR R.SEC_MGMT_SEQ (BitVec.ofNat 64 (mrSeq l))
    match ← k (mrBody l) with
    | some st => sendAck (mrSeq l) st
    | none => skip
  else vlog 2 (mrType l * 2 ^ 16) (errInfo { source := 0x010C, hay := false, part := none } 2 2)

/-- MGMT_COMMAND (R345, R398): a fabric command of a type, 0x11 to 0x14. -/
def mgmtCommand (type : Nat) (l : List Byte) : Act Unit :=
  onRecord 1 l (fun b => do
    fabricCommand 0 type (bytesAt b 0 32)
    return some 0)

/-- ATTEST_REQ (R397): answered with a kind 1 report. -/
def attestReq (l : List Byte) : Act Unit :=
  onRecord 2 l (fun b => do
    sendRecord 3 (← rd (fun s => s.report 1 (bytesAt b 0 32) none []))
    return none)

/-- GRANT (R397): the image goes to the hayward firmware. -/
def grantRecord (l : List Byte) : Act Unit :=
  onRecord 4 l (fun b => do
    send (.grant b)
    return some 0)

/-- OWNER_KEY (R397): keys and mask laid out as for OWNER_KEY_INSTALL. -/
def ownerKeyRecord (l : List Byte) : Act Unit :=
  onRecord 5 l (fun b => do
    if ← ownerKeyAdd (bytesAt b 0 1984) (numAt b 1984 4) then return some 0 else return some 3)

/-- POWER_CAP (R412): a cap in range is staged for its tick; one outside is not applied. -/
def powerCap (l : List Byte) : Act Unit :=
  onRecord 6 l (fun b => do
    let w := numAt b 0 2
    if w < 700 ∨ 2100 < w then return some 2
    let v := putFld (← rdR R.PWR_CAP) F.PWR_CAP.cap_w w
    if ← rd State.run then
      Act.upd (.stage R.PWR_CAP (some v))
      wrF (pageBase .pwr 0 + 0x50) F.SCHED_TICK.tick (max 1 (numAt b 2 6))
      wrF (pageBase .pwr 0 + 0x18) F.PAGE_STATUS.staged_pending 1
    else wrR R.PWR_CAP v
    return some 0)

end Sys2Proof.Machine
end

