-- ==== Sys2Proof/Machine/Ingress.lean ====
section
/-! DEFINITION. Weight ingress: manifests (R296, R297), shard keys (R298, R299), loads with their chunks (R300 to R304,
R307), the RoCEv2 queue pairs (R293 to R295, R318) and the peer service (R306). Where the spec is open: DEDUCED 88, 96 and
172, DESIGN CHOICE 24 and 174, PRESUMED 23, 157 and 158 of the assumption log. -/

namespace Sys2Proof.Machine

def modLoad (f : LoadX → LoadX) : Act Unit := do Act.upd (.load (f (← rd (fun s => s.load))))

/-- The decryption and decompression engine as a requester (R17). -/
def ingressSrc : Nat := 0x4000

/-! ## Manifests (R296, R297) -/

def mfTag (m : List Byte) : Nat := numAt m 4 8
def mfSources (m : List Byte) : Nat := numAt m 16 2
def mfShards (m : List Byte) : Nat := numAt m 20 4
def mfTensors (m : List Byte) : Nat := numAt m 24 4
def mfChunks (m : List Byte) : Nat := numAt m 28 4
def mfSigned (m : List Byte) : Nat := numAt m 32 8
def mfShard (m : List Byte) (h : Nat) : List Byte := bytesAt m (64 + 16 * mfSources m + 32 * h) 32
def shFirst (d : List Byte) : Nat := numAt d 4 4
def shCount (d : List Byte) : Nat := numAt d 8 4
def shBytes (d : List Byte) : Nat := numAt d 16 8
def mfChunk (m : List Byte) (c : Nat) : List Byte :=
  bytesAt m (64 + 16 * mfSources m + 32 * mfShards m + 48 * mfTensors m + 64 * c) 64
def ckDigest (d : List Byte) : List Byte := bytesAt d 0 48
def ckStored (d : List Byte) : Nat := numAt d 48 4
def ckWire (d : List Byte) : Nat := numAt d 52 4
def ckCodec (d : List Byte) : Nat := numAt d 56 1

/-- Bytes of a full chunk (R296). -/
def chunkBytes : Nat := 4194304

/-- The chunk ranges of a manifest's shards lie in its chunk table and cover exactly their stored bytes (R297). -/
def mfShardOk (m : List Byte) (h : Nat) : Bool :=
  let d := mfShard m h
  decide (shFirst d + shCount d ≤ mfChunks m) && shCount d = (shBytes d + chunkBytes - 1) / chunkBytes &&
    (List.range (shCount d)).all (fun i => ckStored (mfChunk m (shFirst d + i)) = min chunkBytes (shBytes d - i * chunkBytes))

/-- A manifest's structure (R296, R297). -/
def mfGood (m : List Byte) : Bool :=
  numAt m 0 2 = 1 && mfSigned m = 64 + 16 * mfSources m + 32 * mfShards m + 48 * mfTensors m + 64 * mfChunks m &&
    decide (1 ≤ mfSources m ∧ mfSources m ≤ 4) && decide (1 ≤ numAt m 14 2 ∧ numAt m 14 2 ≤ 4096) &&
    (List.range (mfShards m)).all (fun h => mfShardOk m h)

/-- A manifest slot's contents. -/
def State.man (s : State) (i : Nat) : Option ManSlot := s.load.mans.find? (fun m => m.slot = i)
def State.keySlot (s : State) (i : Nat) : Option KeySlot := s.load.keys.find? (fun k => k.slot = i)

/-- The manifest's digest. -/
def ManSlot.digest (m : ManSlot) : List Byte := bytes48 (Config.sha384 m.bytes)

/-! ## The load queue (R300 to R302, R320) -/

def leOp (e : List Byte) : Nat := numAt e 0 1
def leBase (e : List Byte) : Bool := bit (numAt e 1 1) 2
def leBaseSlot (e : List Byte) : Nat := b2n (bit (numAt e 1 1) 1)
def leMslot (e : List Byte) : Nat := numAt e 4 1
def leKslot (e : List Byte) : Nat := numAt e 5 1
def leShard (e : List Byte) : Nat := numAt e 8 4
def lePeers (e : List Byte) : List Nat :=
  let w := numAt e 12 4
  (if bit w 24 then [bits w 11 0] else []) ++ (if bit w 25 then [bits w 23 12] else [])
def leAddr (e : List Byte) : Nat := numAt e 16 8
def leAux (e : List Byte) : Nat := numAt e 24 8
def leLanding (e : List Byte) : Nat := numAt e 32 8

/-- An entry keeps the rules of R300. -/
def leGood (e : List Byte) : Bool :=
  decide (1 ≤ leOp e ∧ leOp e ≤ 5) && bits (numAt e 1 1) 7 3 = 0 && numAt e 6 2 = 0 && bits (numAt e 12 4) 31 26 = 0 &&
    decide (leMslot e ≤ 15) && decide (leKslot e ≤ 127) && leAddr e / 2 ^ 50 = 0 && refSpace (leAddr e) ≤ 1 &&
    leAux e / 2 ^ 50 = 0 && refSpace (leAux e) ≤ 1 && leLanding e / 2 ^ 48 = 0 && leLanding e % 65536 = 0 &&
    bits (numAt e 40 4) 21 19 = 0 && (e.drop 48).all (fun b => b = 0)

def State.ldqTail (s : State) (p : Nat) : Nat := s.fldOf (R.PRT_LDQ_TAIL p) F.PRT_LDQ_TAIL.tail
def State.ldqStarted (s : State) (p : Nat) : Nat := s.fldOf (R.PRT_LDQ_HEAD p) F.PRT_LDQ_HEAD.started
def State.ldqDone (s : State) (p : Nat) : Nat := s.fldOf (R.PRT_LDQ_HEAD p) F.PRT_LDQ_HEAD.done
def State.ldqKey (s : State) (p i : Nat) : Nat :=
  hubLine (s.fldOf (R.PRT_LDQ_CFG p) F.PRT_LDQ_CFG.base) + i % max 1 (s.fldOf (R.PRT_LDQ_CFG p) F.PRT_LDQ_CFG.size) * 64

/-- LDQ_TAIL_WRITE (R302, R320). -/
def ldqTailWrite (p tail : Nat) : Act (Option Nat) := do
  let s ← Act.get
  if queueTailBad (s.fldOf (R.PRT_LDQ_CFG p) F.PRT_LDQ_CFG.size) (s.ldqDone p) (s.ldqTail p) tail then return some 4
  wrF (R.PRT_LDQ_TAIL p) F.PRT_LDQ_TAIL.tail tail
  return none

/-- The leading ended entries count as done. -/
def ldqAdvance (p : Nat) : Nat → Act Unit
  | 0 => skip
  | fuel + 1 => do
    let s ← Act.get
    let i := s.ldqDone p
    if s.load.finished.contains (p, i) then
      modLoad (fun x => { x with finished := x.finished.filter (fun e => e ≠ (p, i)) })
      wrF (R.PRT_LDQ_HEAD p) F.PRT_LDQ_HEAD.done (i + 1)
      ldqAdvance p fuel

/-- BIN_ENG_STATUS shows the keys and streams in use (R318). -/
def showIngress : Act Unit := do
  let x ← rd (fun s => s.load)
  wrF R.BIN_ENG_STATUS F.BIN_ENG_STATUS.keys x.keys.length
  wrF R.BIN_ENG_STATUS F.BIN_ENG_STATUS.streams x.streams.length

/-- An entry ends: status and detail, then its signal (R300, R301). -/
def loadEnd (p i st detail : Nat) : Act Unit := do
  let s ← Act.get
  let k := s.ldqKey p i
  hubStore p (k + 2) (leBytes 1 st ++ leBytes 1 detail)
  let e := s.hubBytes p k 64
  if bit (numAt e 1 1) 0 then signalTile ingressSrc p (numAt e 40 4) (numAt e 44 4)
  modLoad (fun x => { x with finished := x.finished ++ [(p, i)] })
  showIngress
  ldqAdvance p 64

/-- The entry at the front of a queue. -/
def State.loadFront (s : State) (p : Nat) : Option (Nat × List Byte) :=
  let i := s.ldqStarted p
  if i = s.ldqTail p then none else some (i, s.hubBytes p (s.ldqKey p i) 64)

/-- Two destinations of a partition's LOADs overlap, of one tier (R302). -/
def State.destTaken (s : State) (p : Nat) (toFlash : Bool) (base size : Nat) : Bool :=
  s.load.streams.any (fun t => t.part = p && t.toFlash = toFlash &&
    overlaps (t.dest, match s.man t.mslot with
      | some m => shBytes (mfShard m.bytes t.shard)
      | none => 0) (base, size))

/-- A LOAD at the front of a queue waits: no stream is free, or an unfinished LOAD's destination overlaps its own (R302). -/
def State.loadWaits (s : State) (p : Nat) (e : List Byte) : Bool :=
  leGood e && leOp e = 5 && (decide (64 ≤ s.load.streams.length) ||
    match s.man (leMslot e), s.engBytes p (refSpace (leAddr e)) (refAddr (leAddr e)) 32 with
    | some m, some d => s.destTaken p (obTier d = 2) (obBase d) (shBytes (mfShard m.bytes (leShard e)))
    | _, _ => false)

/-- The engine takes a partition's queue: those before it in ascending order have no entry it could start (R302). -/
def State.loadTurn (s : State) (p : Nat) : Bool :=
  s.pageServes (pageBase .bin 2) && s.pageServes (pageBase .prt p) && (List.range p).all (fun q => match s.loadFront q with
    | none => true
    | some (_, e) => s.loadWaits q e || !s.pageServes (pageBase .prt q))

/-- The entry at the front of a queue the engine takes, if its operation is the one named or none that is defined. -/
def State.loadHead (s : State) (p op : Nat) : Option (Nat × List Byte) :=
  if !s.loadTurn p then none
  else match s.loadFront p with
    | none => none
    | some (i, e) => if leOp e ≠ op ∧ 1 ≤ leOp e ∧ leOp e ≤ 5 then none else some (i, e)

/-- `n` microseconds pass for the LOADs that wait for a stream (R302, R318). -/
def streamWaits (n : Nat) : Act Unit := do
  for p in List.range 32 do
    let s ← Act.get
    match s.loadFront p with
    | some (_, e) => if leGood e ∧ leOp e = 5 ∧ 64 ≤ s.load.streams.length then count C.BIN_CNT_STREAM_WAIT n
    | none => skip

/-- Take the front entry: a malformed one ends BAD_ENTRY, a good one is acted on by `k`. -/
def loadTake (p op : Nat) (k : Nat → List Byte → Act Unit) : Act Unit := do
  match ← rd (fun s => s.loadHead p op) with
  | none => skip
  | some (i, e) =>
    wrF (R.PRT_LDQ_HEAD p) F.PRT_LDQ_HEAD.started (i + 1)
    if leGood e then k i e else loadEnd p i 5 0

/-- The lowest number below `n` that is not in a list. -/
def lowestFree (n : Nat) (used : List Nat) : Option Nat := (List.range n).find? (fun i => !used.contains i)

/-- VERIFY (R296, R297): the manifest at addr is checked and fills a free slot. -/
def verify (p : Nat) : Act Unit :=
  loadTake p 1 (fun i e => do
    match ← spRead ingressSrc p (refSpace (leAddr e)) (refAddr (leAddr e)) 64 with
    | .error _ => loadEnd p i 1 2
    | .ok h =>
      match ← spRead ingressSrc p (refSpace (leAddr e)) (refAddr (leAddr e)) (mfSigned h + 3373) with
      | .error _ => loadEnd p i 1 2
      | .ok m =>
        let s ← Act.get
        let signed := s.sec.ownerKeys.any (fun k => bit k.1 p && Config.sigOk k.2 (m.take (mfSigned m)) (m.drop (mfSigned m)))
        if !mfGood m || !signed then loadEnd p i 1 2
        else match lowestFree 16 (s.load.mans.map (·.slot)) with
          | none => loadEnd p i 6 0
          | some slot =>
            modLoad (fun x => { x with mans := x.mans ++ [{ slot := slot, owner := p, bytes := m }] })
            hubStore p (s.ldqKey p i + 4) (leBytes 1 slot)
            loadEnd p i 0 0)

/-- DROP (R297): a manifest slot that no key or base slot refers to is freed. -/
def dropManifest (p : Nat) : Act Unit :=
  loadTake p 2 (fun i e => do
    let s ← Act.get
    match s.man (leMslot e) with
    | none => loadEnd p i 5 0
    | some m =>
      if m.owner ≠ p ∨ s.load.keys.any (fun k => k.mslot = m.slot) ∨
          [0, 1].any (fun b => s.baseState b ≠ 0 && s.fldOf (R.BIN_BASE b) F.BIN_BASE.mslot = m.slot) then
        loadEnd p i 5 0
      else
        modLoad (fun x => { x with mans := x.mans.filter (fun d => d.slot ≠ m.slot) })
        loadEnd p i 0 0)

/-- KEY_REQUEST (R298): fresh key pairs and a key-release report. -/
def keyRequest (p : Nat) : Act Unit :=
  loadTake p 3 (fun i e => do
    let s ← Act.get
    match s.man (leMslot e) with
    | none => loadEnd p i 5 0
    | some m =>
      if m.owner ≠ p ∨ mfShards m.bytes ≤ leShard e then loadEnd p i 5 0
      else if 16 ≤ s.load.reqs.length then loadEnd p i 6 0
      else
        match ← spRead ingressSrc p (refSpace (leAddr e)) (refAddr (leAddr e)) 32 with
        | .error _ => loadEnd p i 5 0
        | .ok nonce =>
          let priv ← freshNat
          let num := s.load.reqNo + 1
          let release := m.digest ++ leBytes 4 (leShard e) ++ leBytes 8 num ++ leBytes 1216 (Config.kemPublic priv)
          let r ← rd (fun t => t.report 2 nonce none release)
          match ← spWrite ingressSrc p (refSpace (leAux e)) (refAddr (leAux e)) r with
          | some _ => loadEnd p i 5 0
          | none =>
            modLoad (fun x => { x with
              reqNo := num
              reqs := x.reqs ++ [{ num := num, part := p, digest := m.digest, shard := leShard e, priv := priv, since := s.now }] })
            loadEnd p i 0 0)

/-- KEY_REQUEST_TIMEOUT (R298): the secret keys of a request older than key_timeout_s are destroyed. -/
def keyTimeout (num : Nat) : Act Unit := do
  let s ← Act.get
  modLoad (fun x => { x with reqs := x.reqs.filter (fun r =>
    !(r.num = num && decide (r.since + s.fldOf R.BIN_ENG_CFG F.BIN_ENG_CFG.key_timeout_s * 1000000000 ≤ s.now))) })

/-- HMAC with SHA-384 (RFC 2104). -/
def hmac384 (key msg : List Byte) : List Byte :=
  let k := bytesAt (if 128 < key.length then bytes48 (Config.sha384 key) else key) 0 128
  bytes48 (Config.sha384 (k.map (· ^^^ 0x5C) ++ bytes48 (Config.sha384 (k.map (· ^^^ 0x36) ++ msg))))

/-- HKDF with SHA-384, of length 32 B (RFC 5869). -/
def hkdf32 (salt input info : List Byte) : List Byte := (hmac384 (hmac384 salt input) (info ++ [1])).take 32

/-- One step of AES key unwrap (RFC 3394) for step number `t` and register `i` of four: the integrity register and the others. -/
def unwrapStep (kek : List Byte) (x : List Byte × List (List Byte)) (t i : Nat) : List Byte × List (List Byte) :=
  let b := Config.aesDecrypt kek (x.1.take 7 ++ (x.1.drop 7).map (· ^^^ BitVec.ofNat 8 t) ++ x.2.getD i [])
  (bytesAt b 0 8, x.2.set i (bytesAt b 8 8))

/-- AES key unwrap of a 256-bit key (RFC 3394): none where the integrity check fails. -/
def aesUnwrap (kek wrapped : List Byte) : Option (List Byte) :=
  let r := ((List.range 24).map (fun k => 24 - k)).foldl (fun x t => unwrapStep kek x t ((t - 1) % 4))
    (bytesAt wrapped 0 8, (List.range 4).map (fun i => bytesAt wrapped (8 + 8 * i) 8))
  if r.1 = List.replicate 8 0xA6 then some r.2.flatten else none

/-- The shard key a release blob unwraps to under the secret keys of a request (R299). -/
def shardKey (r : KeyReq) (blob : List Byte) : Option (List Byte) :=
  aesUnwrap (hkdf32 r.digest (bytesAt (Config.x25519 r.priv (bytesAt blob 60 32)) 0 32 ++
    bytesAt (Config.mlkemDecaps r.priv (bytesAt blob 92 1088)) 0 32) (leBytes 4 r.shard ++ leBytes 8 r.num)) (bytesAt blob 1180 40)

/-- KEY_INSTALL (R299): a release blob fills a key slot bound to the manifest slot and shard. -/
def keyInstall (p : Nat) : Act Unit :=
  loadTake p 4 (fun i e => do
    let s ← Act.get
    match s.man (leMslot e) with
    | none => loadEnd p i 5 0
    | some m =>
      if m.owner ≠ p then loadEnd p i 5 0
      else match ← spRead ingressSrc p (refSpace (leAddr e)) (refAddr (leAddr e)) 1220 with
      | .error _ => loadEnd p i 5 0
      | .ok b =>
        match s.load.reqs.find? (fun r => r.part = p && r.num = numAt b 52 8 && r.digest = bytesAt b 0 48 &&
            r.shard = numAt b 48 4 && r.digest = m.digest && r.shard = leShard e) with
        | none => loadEnd p i 1 3
        | some r =>
          match shardKey r b with
          | none => loadEnd p i 1 3
          | some key =>
            match lowestFree 128 (s.load.keys.map (·.slot)) with
            | none => loadEnd p i 6 0
            | some slot =>
              modLoad (fun x => { x with
                reqs := x.reqs.filter (fun d => d.num ≠ r.num)
                keys := x.keys ++ [{ slot := slot, owner := p, mslot := m.slot, shard := r.shard, key := key }] })
              hubStore p (s.ldqKey p i + 5) (leBytes 1 slot)
              loadEnd p i 0 0)

/-! ## Queue pairs (R294, R295, R318) -/

/-- A byte field of QP context `q`. -/
def State.qpNum (s : State) (q o n : Nat) : Nat :=
  numAt ((List.range 8).flatMap (fun w => leBytes 8 (s.wordAt (qpKey q w)).toNat)) o n

/-- A QP is valid and READY. -/
def State.qpReady (s : State) (q : Nat) : Bool := bit (s.qpNum q 0 1) 7 && s.qpNum q 34 1 = 1

/-- The bulk port of a QP. -/
def State.qpPort (s : State) (q : Nat) : Nat := b2n (bit (s.qpNum q 0 1) 6)

/-- Set a byte field of a QP context. -/
def qpSet (q o n v : Nat) : Act Unit := do
  for i in List.range n do
    let w := qpKey q ((o + i) / 8)
    let b := (o + i) % 8
    let x ← ldW w
    stW w (setBits x (8 * b + 7) (8 * b) (v / 256 ^ i))

/-- Bytes a packet of a read response holds (R294, R317). -/
def State.pathMtu (s : State) (port : Nat) : Nat := 1024 * 2 ^ s.fldOf (R.BIN_PORT_CTRL port) F.BIN_PORT_CTRL.pmtu

/-- Ask for `n` bytes at a remote address over a QP, at most 1 MiB a request (R295); requests beyond the QP's max_reads go
out as earlier ones are answered. -/
def readRequests (q part idx chunk rkey : Nat) : Nat → Nat → Nat → Nat → Act Unit
  | 0, _, _, _ => skip
  | fuel + 1, remote, addr, n => do
    if n = 0 then return
    let k := min n 1048576
    modLoad (fun x => { x with reads := x.reads ++ [{ qp := q, psn := 2 ^ 24, next := 2 ^ 24, left := k, addr := addr, remote := remote
                                                      rkey := rkey, part := part, idx := idx, chunk := chunk }] })
    readRequests q part idx chunk rkey fuel (remote + k) (addr + k) (n - k)

/-- What heads a packet a QP sends (R293, R294, R317, R318). -/
def State.roceHdr (s : State) (q : Nat) : RoceHdr :=
  let k := s.qpPort q
  let v6 := decide (bits (s.qpNum q 0 1) 5 4 = 1)
  { qp := q, port := k, prio := s.fldOf (R.BIN_PORT_CTRL k) F.BIN_PORT_CTRL.roce_prio
    src := s.fldOf (R.BIN_PORT_MAC k) F.BIN_PORT_MAC.mac, dst := s.qpNum q 20 6, v6 := v6
    srcIp := if v6 then (s.reg (R.BIN_PORT_IP6_HI k)).toNat * 2 ^ 64 + (s.reg (R.BIN_PORT_IP6_LO k)).toNat
      else s.fldOf (R.BIN_PORT_IP4 k) F.BIN_PORT_IP4.addr
    dstIp := s.qpNum q 4 (if v6 then 16 else 4), dscp := s.fldOf (R.BIN_PORT_CTRL k) F.BIN_PORT_CTRL.dscp
    udpSrc := s.qpNum q 26 2, udpDst := 4791, qpn := s.qpNum q 1 3 }

/-- Bytes of a RoCEv2 frame but for what follows its base transport header: Ethernet with its tag and check, IP, UDP, the base
transport header and the invariant CRC (R293, R294, PRESUMED 157). -/
def State.roceFrame (s : State) (q : Nat) : Nat := if bits (s.qpNum q 0 1) 5 4 = 1 then 86 else 66

/-- A read request goes out for what a request still lacks (R294). -/
def sendRead (r : RdReq) (psn : Nat) : Act Unit := do
  let s ← Act.get
  send (.rdmaRead (s.roceHdr r.qp) psn r.remote r.rkey r.left)
  count (C.BIN_CNT_TX_BYTES (s.qpPort r.qp)) (s.roceFrame r.qp + 16)

/-- A frame of a QP has come in with `n` bytes after its base transport header; answers whether the QP takes it: a frame of no valid
QP is dropped (R293). -/
def roceTakes (q n : Nat) : Act Bool := do
  let s ← Act.get
  count (C.BIN_CNT_RX_BYTES (s.qpPort q)) (s.roceFrame q + n)
  if !bit (s.qpNum q 0 1) 7 then
    count (C.BIN_CNT_RX_DROP (s.qpPort q)) 1
    return false
  return s.qpReady q

/-- Requests of a QP that wait go out while fewer than max_reads are outstanding; a request takes as many PSNs as its response
has packets. -/
def qpPump (q : Nat) : Nat → Act Unit
  | 0 => skip
  | fuel + 1 => do
    let s ← Act.get
    if !s.qpReady q ∨ !s.pageServes (pageBase .bin (s.qpPort q)) then return
    let out := s.load.reads.filter (fun r => r.qp = q && decide (r.psn < 2 ^ 24))
    match s.load.reads.find? (fun r => r.qp = q && decide (r.psn = 2 ^ 24)) with
    | none => skip
    | some r =>
      if out.length < s.qpNum q 33 1 then
        let psn := s.qpNum q 28 3
        let n := (r.left + s.pathMtu (s.qpPort q) - 1) / s.pathMtu (s.qpPort q)
        let sent := { r with psn := psn, next := psn, since := s.now }
        modLoad (fun x => { x with reads := x.reads.map (fun d => if d = r then sent else d) })
        qpSet q 28 3 ((psn + n) % 2 ^ 24)
        sendRead r psn
        qpPump q fuel

/-- Reads that a port out of service has not taken go out once it takes new work again (R14). -/
def qpWaits : Act Unit := do
  for q in ((← rd (fun s => s.load.reads)).filter (fun r => decide (r.psn = 2 ^ 24))).map (·.qp) do qpPump q 16

/-- Every outstanding request of a QP is sent again from what it still lacks, and its timer starts over. -/
def qpResend (q : Nat) : Act Unit := do
  let s ← Act.get
  for r in s.load.reads do
    if r.qp = q ∧ r.psn < 2 ^ 24 then
      sendRead r r.next
      count (C.BIN_CNT_RETRANS (s.qpPort q)) 1
  modLoad (fun x => { x with reads := x.reads.map (fun r => if r.qp = q ∧ r.psn < 2 ^ 24 then { r with since := s.now } else r) })

/-! ## Streams and chunks (R302 to R304, R307) -/

def State.stream (s : State) (p i : Nat) : Option StreamX := s.load.streams.find? (fun t => t.part = p && t.idx = i)

def putStream (t : StreamX) : Act Unit :=
  modLoad (fun x => { x with streams := x.streams.map (fun d => if d.part = t.part ∧ d.idx = t.idx then t else d) })

/-- Change a chunk in flight. -/
def putChunk (t : StreamX) (c : ChunkX) : Act Unit :=
  putStream { t with chunks := t.chunks.map (fun d => if d.ix = c.ix then c else d) }

/-- Where a chunk's landing slot lies. -/
def landAt (t : StreamX) (c : ChunkX) : Nat := t.landing + c.lslot * 9437184

/-- The manifest line of chunk `i` of a stream's shard. -/
def State.chunkLine (s : State) (t : StreamX) (i : Nat) : List Byte := match s.man t.mslot with
  | some m => mfChunk m.bytes (shFirst (mfShard m.bytes t.shard) + i)
  | none => []

/-- The chunks of a stream's shard. -/
def State.streamChunks (s : State) (t : StreamX) : Nat := match s.man t.mslot with
  | some m => shCount (mfShard m.bytes t.shard)
  | none => 0

/-- A chunk is through: INTEGRITY stays with the stream whatever else came, else the first status that is not good (R303). -/
def chunkReturn (t : StreamX) (c : ChunkX) (st detail : Nat) : Act Unit :=
  putStream { t with
    chunks := t.chunks.filter (fun d => d.ix ≠ c.ix)
    returned := t.returned + 1
    status := if t.status = 0 ∨ st = 1 then st else t.status
    detail := if t.status = 0 ∨ st = 1 then detail else t.detail }

/-- Begin an attempt of a chunk: first the sources in turn, then the peers, then it returns INTEGRITY (R303). -/
def chunkAttempt (p i ix : Nat) : Nat → Act Unit
  | 0 => skip
  | fuel + 1 => do
    let s ← Act.get
    match s.stream p i with
    | none => skip
    | some t =>
      match t.chunks.find? (fun c => c.ix = ix) with
      | none => skip
      | some c =>
        let n := t.binds.length
        let c := { c with since := s.now, got := 0, landed := false, iv := [] }
        if c.attempt < n then
          putChunk t c
          let (q, rkey, base) := t.binds.getD ((ix + t.shard + c.attempt) % n) (0, 0, 0)
          if s.qpReady q then
            readRequests q p i ix rkey 16 (base + ix * 4194320) (landAt t c) (ckWire (s.chunkLine t ix) + 16)
            qpPump q 16
          else
            count C.BIN_CNT_SOURCE_ERROR 1
            putChunk t { c with attempt := c.attempt + 1 }
            chunkAttempt p i ix fuel
        else if c.attempt < n + t.peers.length then
          putChunk t c
          match s.man t.mslot with
          | some m =>
            let dst := t.peers.getD (c.attempt - n) 0
            let _ ← sendAuto p 4 dst 0x38 ix 0 (m.digest ++ leBytes 4 t.shard)
          | none => skip
        else chunkReturn t c 1 1

/-- The next attempt of a chunk. -/
def chunkNext (p i ix : Nat) : Act Unit := do
  match ← rd (fun s => s.stream p i) with
  | none => skip
  | some t => match t.chunks.find? (fun c => c.ix = ix) with
    | none => skip
    | some c =>
      modLoad (fun x => { x with reads := x.reads.filter (fun r => !(r.part = p && r.idx = i && r.chunk = ix)) })
      putChunk t { c with attempt := c.attempt + 1 }
      chunkAttempt p i ix 8

/-- A stream keeps up to 16 chunks in flight, each in a landing slot of its own. -/
def streamFill (p i : Nat) : Nat → Act Unit
  | 0 => skip
  | fuel + 1 => do
    let s ← Act.get
    match s.stream p i with
    | none => skip
    | some t =>
      if t.next < s.streamChunks t then
        match lowestFree 16 (t.chunks.map (·.lslot)) with
        | none => skip
        | some l =>
          putStream { t with next := t.next + 1, chunks := t.chunks ++ [{ ix := t.next, lslot := l, attempt := 0, since := s.now }] }
          chunkAttempt p i t.next 8
          streamFill p i fuel

/-- A LOAD's destination and landing region: none where they are in order, else the status RANGE (R301, R305). -/
def State.loadRangeBad (s : State) (p : Nat) (d : List Byte) (bytes landing : Nat) : Bool :=
  decide (obLength d < bytes) || !s.insideProtected p 1 landing 150994944 ||
    (obTier d = 1 && !s.insideProtected p 1 (obBase d) (max 1 (obLength d)))

/-- A LOAD is refused because what it would write is not sealed (R305). -/
def State.loadUnsealed (s : State) (p : Nat) (d : List Byte) (landing : Nat) : Bool :=
  !s.insideProtected p 1 landing 150994944 || (obTier d = 1 && !s.insideProtected p 1 (obBase d) (max 1 (obLength d)))

/-- A LOAD may fill the base slot it names (R314, R316). -/
def State.baseTakes (s : State) (p b : Nat) : Bool :=
  s.fldOf (R.BIN_BASE b) F.BIN_BASE.owner = p &&
    (s.baseState b = 0 || (s.baseState b = 3 && s.fldOf (R.BIN_BASE b) F.BIN_BASE.resident = 0))

/-- The binding table: QP, rkey and address for each source. -/
def bindings (bs : List Byte) (n : Nat) : List (Nat × Nat × Nat) :=
  (List.range n).map (fun i => (numAt bs (16 * i) 2 % 64, numAt bs (16 * i + 4) 4, numAt bs (16 * i + 8) 8))

/-- LOAD (R300 to R303): the LOAD at the front of a partition's queue takes a stream and starts its first chunks; it waits
while no stream is free or an earlier LOAD's destination overlaps its own. -/
def loadStart (p : Nat) : Act Unit := do
  let s ← Act.get
  match s.loadHead p 5 with
  | none => skip
  | some (i, e) =>
    if leGood e && decide (64 ≤ s.load.streams.length) then return
    let taken : Act Unit := wrF (R.PRT_LDQ_HEAD p) F.PRT_LDQ_HEAD.started (i + 1)
    let fail (st : Nat) : Act Unit := do
      taken
      loadEnd p i st 0
    if !leGood e then fail 5
    else match s.man (leMslot e) with
    | none => fail 5
    | some m =>
      if m.owner ≠ p ∨ mfShards m.bytes ≤ leShard e then fail 5
      else if !(match s.keySlot (leKslot e) with
          | some k => k.owner = p && k.mslot = m.slot && k.shard = leShard e
          | none => false) then fail 2
      else match ← readPlace ingressSrc p (leAddr e) with
      | none => fail 5
      | some d =>
        let toFlash := decide (obTier d = 2)
        if obTier d = 0 ∨ (leBase e ∧ !s.baseTakes p (leBaseSlot e)) then fail 5
        else if s.loadRangeBad p d (shBytes (mfShard m.bytes (leShard e))) (leLanding e) then
          if s.loadUnsealed p d (leLanding e) then
            vlog 1 (leLanding e) (errInfo { source := ingressSrc, hay := false, part := some p } 2 4)
          fail 3
        else match ← spRead ingressSrc p (refSpace (leAux e)) (refAddr (leAux e)) (16 * mfSources m.bytes) with
        | .error _ => fail 5
        | .ok bt =>
          let size := shBytes (mfShard m.bytes (leShard e))
          if s.destTaken p toFlash (obBase d) size then return
          taken
          modLoad (fun x => { x with streams := x.streams ++ [{
            part := p, idx := i, mslot := m.slot, kslot := leKslot e, shard := leShard e
            binds := bindings bt (mfSources m.bytes), peers := lePeers e, toFlash := toFlash, dest := obBase d
            landing := leLanding e, base := if leBase e then some (leBaseSlot e) else none }] })
          if leBase e then
            wrF (R.BIN_BASE (leBaseSlot e)) F.BIN_BASE.mslot m.slot
            if s.baseState (leBaseSlot e) = 0 then setBaseState (leBaseSlot e) 1
          showIngress
          streamFill p i 16

/-- Decode a wire form of sector records (R307). -/
def wireDecode (pt : List Byte) (stored : Nat) : Option (List Byte) :=
  let n := (stored + 4095) / 4096
  let lens := (List.range n).map (fun k => numAt pt (2 * k) 2)
  let sect (k : Nat) : Option (List Byte) :=
    let len := lens.getD k 0
    if len = 0 then some (List.replicate 4096 0)
    else decodeSector (bytesAt pt (2 * n + (lens.take k).foldl (· + ·) 0) len)
  ((List.range n).foldl (fun acc k => match acc, sect k with
    | some l, some b => some (l ++ b)
    | _, _ => none) (some [])).map (fun l => l.take stored)

/-- The stored bytes of a landed chunk, or the counter of the check that failed. -/
def State.chunkOpen (s : State) (t : StreamX) (c : ChunkX) (ct : List Byte) : Except Nat (List Byte) :=
  let line := s.chunkLine t c.ix
  match s.man t.mslot, s.keySlot t.kslot with
  | some m, some k =>
    let iv := if c.iv = [] then leBytes 4 0 ++ leBytes 8 c.ix else c.iv
    match Config.gcmOpen k.key iv (m.digest ++ leBytes 8 c.ix) ct with
    | none => .error C.BIN_CNT_TAG_FAIL
    | some pt =>
      match (if ckCodec line = 1 ∧ c.attempt < t.binds.length then wireDecode pt (ckStored line) else some (pt.take (ckStored line))) with
      | none => .error C.BIN_CNT_CODEC_FAIL
      | some bs => if bytes48 (Config.sha384 bs) = ckDigest line then .ok bs else .error C.BIN_CNT_DIGEST_FAIL
  | _, _ => .error C.BIN_CNT_TAG_FAIL

/-- The number under which a chunk's flash write runs beside the flash queue's own commands. -/
def chunkCmd (i ix : Nat) : Nat := 2 ^ 32 + i * 2 ^ 32 + ix

/-- CHUNK_LANDED (R303, R304): a chunk whose bytes have all landed is decrypted, decoded and checked; a good one goes to its
destination, a bad one on to the next attempt. -/
def chunkLanded (p i ix : Nat) : Act Unit := do
  let s ← Act.get
  match s.stream p i with
  | none => skip
  | some t =>
    match t.chunks.find? (fun c => c.ix = ix && c.landed && !c.flash) with
    | none => skip
    | some c =>
      let line := s.chunkLine t ix
      let wire := if c.attempt < t.binds.length then ckWire line else ckStored line
      match ← gRead ingressSrc p (landAt t c) (wire + 16) with
      | .error _ => chunkNext p i ix
      | .ok ct =>
        count C.BIN_CNT_ENGINE_BYTES wire
        match s.chunkOpen t c ct with
        | .error a =>
          count a 1
          chunkNext p i ix
        | .ok bs =>
          count C.BIN_CNT_CHUNKS 1
          if t.binds.length ≤ c.attempt then count C.BIN_CNT_PEER_COPY 1
          if t.toFlash then
            let _ ← gWrite ingressSrc p (landAt t c + 5242880) (bytesAt bs 0 (roundUp bs.length 65536))
            putChunk t { c with flash := true }
            let us := (List.range ((bs.length + 65535) / 65536)).map (fun k => (t.dest + ix * chunkBytes) / 65536 + k)
            let cmd : FlCmd := { part := p, idx := chunkCmd i ix, op := 2, comp := 0, ro := false, units := us.map (· + s.nsFirst p)
                                 gaddr := landAt t c + 5242880, pcas := [], todo := [], got := 0, status := none }
            modFlash (fun x => { x with cmds := x.cmds ++ [cmd] })
            writeUnit cmd
            logPump
          else
            match ← gWrite ingressSrc p (t.dest + ix * chunkBytes) bs with
            | some _ => chunkReturn t c 3 0
            | none => chunkReturn t c 0 0
            streamFill p i 16

/-- Chunks whose flash write has ended return with what it gave: BUDGET, or RANGE for any other failure. -/
def flashReturns (p i : Nat) : Act Unit := do
  let s ← Act.get
  match s.stream p i with
  | none => skip
  | some t =>
    for c in t.chunks do
      if c.flash then
        match s.flCmd p (chunkCmd i c.ix) with
        | some d =>
          match d.status with
          | some st =>
            modFlash (fun x => { x with cmds := x.cmds.erase d })
            match ← rd (fun u => u.stream p i) with
            | some t' => chunkReturn t' c (if st = 0 then 0 else if st = 3 then 4 else 3) 0
            | none => skip
          | none => skip
        | none => skip
    streamFill p i 16

/-- CHUNK_TIMEOUT (R303): an attempt not complete within chunk_timeout_ms moves on. -/
def chunkTimeout (p i ix : Nat) : Act Unit := do
  let s ← Act.get
  match s.stream p i with
  | none => skip
  | some t => match t.chunks.find? (fun c => c.ix = ix && !c.landed) with
    | none => skip
    | some c =>
      if c.since + s.fldOf R.BIN_ENG_CFG F.BIN_ENG_CFG.chunk_timeout_ms * 1000000 ≤ s.now then
        count (if c.attempt < t.binds.length then C.BIN_CNT_SOURCE_TIMEOUT else C.BIN_CNT_PEER_MISS) 1
        chunkNext p i ix

/-- LOAD_DONE (R301 to R303, R314): every chunk has returned; the stream is released, a base slot goes VERIFIED or FAILED. -/
def loadDone (p i : Nat) : Act Unit := do
  flashReturns p i
  let s ← Act.get
  match s.stream p i with
  | none => skip
  | some t =>
    if t.returned < s.streamChunks t then return
    modLoad (fun x => { x with
      streams := x.streams.filter (fun d => !(d.part = p && d.idx = i))
      keys := x.keys.map (fun k => if k.slot = t.kslot ∧ t.status = 0 then
        { k with dest := if t.toFlash then none else some (p, t.dest), base := t.base } else k) })
    match t.base with
    | some b =>
      if s.baseState b = 1 then setBaseState b (if t.status = 0 then 2 else 5)
      if t.status = 0 then wrF (R.BIN_BASE b) F.BIN_BASE.resident 1
    | none => skip
    loadEnd p i t.status t.detail

/-- A partition's load queue stops: its entries in hand end ABORTED (R434, R436, R439). -/
def loadStop (p : Nat) : Act Unit := do
  let s ← Act.get
  for t in s.load.streams do
    if t.part = p then
      hubStore p (s.ldqKey p t.idx + 2) (leBytes 1 7)
      match t.base with
      | some b => if s.baseState b = 1 then setBaseState b 0
      | none => skip
  modLoad (fun x => { x with streams := x.streams.filter (fun t => t.part ≠ p), reads := x.reads.filter (fun r => r.part ≠ p)
                             finished := x.finished.filter (fun e => e.1 ≠ p) })
  for k in List.range (moves32 (s.ldqStarted p) (s.ldqTail p)) do
    hubStore p (s.ldqKey p (s.ldqStarted p + k) + 2) (leBytes 1 7)
  wrF (R.PRT_LDQ_TAIL p) F.PRT_LDQ_TAIL.tail 0
  wrR (R.PRT_LDQ_HEAD p) 0
  showIngress

/-! ## RoCEv2 packets (R293 to R295) -/

/-- A congestion notification for a QP, at most one in 50 µs (R295). -/
def sendCnp (q : Nat) : Act Unit := do
  let s ← Act.get
  let last := (s.load.cnps.find? (fun e => e.1 = q)).map (·.2)
  if (match last with
      | some t => decide (t + 50000 ≤ s.now)
      | none => true) then
    modLoad (fun x => { x with cnps := x.cnps.filter (fun e => e.1 ≠ q) ++ [(q, s.now)] })
    send (.cnp (s.roceHdr q))
    count (C.BIN_CNT_CNP_TX (s.qpPort q)) 1
    count (C.BIN_CNT_TX_BYTES (s.qpPort q)) (s.roceFrame q + 16)

/-- The chunk a finished request belongs to has landed if it was its last. -/
def readFinished (r : RdReq) : Act Unit := do
  let s ← Act.get
  if s.load.reads.any (fun d => d.part = r.part && d.idx = r.idx && d.chunk = r.chunk) then return
  match s.stream r.part r.idx with
  | none => skip
  | some t => match t.chunks.find? (fun c => c.ix = r.chunk) with
    | none => skip
    | some c => putChunk t { c with landed := true }

/-- A response packet is one of the middle of its request's response, which carry no ACK header (R294). -/
def State.midResponse (s : State) (q psn : Nat) : Bool :=
  match s.load.reads.find? (fun r => r.qp = q && decide (r.psn < 2 ^ 24)) with
  | none => false
  | some r => decide (psn = r.next ∧ r.next ≠ r.psn ∧ s.pathMtu (s.qpPort q) < r.left)

/-- RDMA_READ_RESPONSE (R294, R295): a response packet of the PSN expected next lands; another is dropped. -/
def readResponse (q psn : Nat) (payload : List Byte) (ce : Bool) : Act Unit := do
  let s ← Act.get
  if !(← roceTakes q (payload.length + (if s.midResponse q psn then 0 else 4))) then return
  if ce then sendCnp q
  match s.load.reads.find? (fun r => r.qp = q && decide (r.psn < 2 ^ 24)) with
  | none => skip
  | some r =>
    if psn = r.next then
      let bs := payload.take r.left
      let _ ← gWrite ingressSrc r.part r.addr bs
      let n := { r with next := (r.next + 1) % 2 ^ 24, left := r.left - bs.length, addr := r.addr + bs.length
                        remote := r.remote + bs.length, tries := 0, since := s.now }
      if n.left = 0 then
        modLoad (fun x => { x with reads := x.reads.filter (fun d => d ≠ r) })
        readFinished r
        qpPump q 16
      else modLoad (fun x => { x with reads := x.reads.map (fun d => if d = r then n else d) })

/-- ROCE_ACK (R294): it acknowledges the requests before its PSN as received; their timeouts start over. -/
def roceAck (q psn : Nat) : Act Unit := do
  let now ← rd State.now
  if ← roceTakes q 4 then
    modLoad (fun x => { x with reads := x.reads.map (fun r =>
      if r.qp = q ∧ r.psn < 2 ^ 24 ∧ (psn + 2 ^ 24 - r.psn) % 2 ^ 24 < 2 ^ 23 then { r with tries := 0, since := now } else r) })

/-- A QP goes to ERROR, and every read pending on it fails (R294). -/
def qpError (q : Nat) : Act Unit := do
  let s ← Act.get
  qpSet q 34 1 2
  let failed := ((s.load.reads.filter (fun d => d.qp = q)).map (fun d => (d.part, d.idx, d.chunk))).eraseDups
  modLoad (fun x => { x with reads := x.reads.filter (fun d => d.qp ≠ q) })
  for f in failed do
    count C.BIN_CNT_SOURCE_ERROR 1
    chunkNext f.1 f.2.1 f.2.2

/-- A QP uses one of its retries for its oldest request and sends its requests again; with none left it goes to ERROR (R294). -/
def qpRetry (q : Nat) : Act Unit := do
  let s ← Act.get
  match s.load.reads.find? (fun r => r.qp = q && decide (r.psn < 2 ^ 24)) with
  | none => skip
  | some r =>
    if r.tries < s.qpNum q 31 1 then
      modLoad (fun x => { x with reads := x.reads.map (fun d => if d = r then { d with tries := d.tries + 1 } else d) })
      qpResend q
    else qpError q

/-- ROCE_NAK (R294): the QP sends its read requests again, each time on its retry count; requests before the NAK's PSN are
acknowledged by it, and a NAK that reports a remote error ends the QP (PRESUMED 158). -/
def roceNak (q psn : Nat) (fatal : Bool) : Act Unit := do
  if ← roceTakes q 4 then
    let s ← Act.get
    count (C.BIN_CNT_NAK (s.qpPort q)) 1
    modLoad (fun x => { x with reads := x.reads.map (fun r =>
      if r.qp = q ∧ r.psn < 2 ^ 24 ∧ r.psn ≠ psn ∧ (psn + 2 ^ 24 - r.psn) % 2 ^ 24 < 2 ^ 23 then { r with tries := 0 } else r) })
    if fatal then qpError q
    else qpRetry q

/-- A QP's transport timer has run out: 4.096 µs × 2^t since its oldest request was sent, answered or acknowledged (R318). -/
def State.qpLate (s : State) (q : Nat) : Bool :=
  match s.load.reads.find? (fun r => r.qp = q && decide (r.psn < 2 ^ 24)) with
  | none => false
  | some r => decide (r.since + 4096 * 2 ^ s.qpNum q 32 1 ≤ s.now)

/-- ROCE_TIMEOUT (R294): the transport timeout of a QP; once its retry count is used up the QP goes to ERROR and every read
pending on it fails. -/
def roceTimeout (q : Nat) : Act Unit := do
  let s ← Act.get
  if s.qpReady q && s.qpLate q then qpRetry q

/-- BULK_FRAME_DROP (R293): a frame of `len` bytes that is not RoCEv2 traffic of a valid QP. -/
def bulkDrop (port len : Nat) : Act Unit := do
  count (C.BIN_CNT_RX_BYTES port) len
  count (C.BIN_CNT_RX_DROP port) 1

/-- A QP context as software may write it: IP version 0 or 1, retry count up to 7, max_reads up to 16, only RESET and READY as
its state (R318). -/
def qpWordBad (w v : Nat) : Bool := match w with
  | 0 => decide (1 < bits v 5 4)
  | 3 => decide (7 < bits v 63 56)
  | 4 => decide (16 < bits v 15 8) || decide (1 < bits v 23 16)
  | _ => false

/-- A word of a QP context without its reserved bits (R318). -/
def qpWordKept (w v : Nat) : Nat := match w with
  | 0 => v / 2 ^ 8 * 2 ^ 8 + bits v 7 4 * 16
  | 4 => v % 2 ^ 24
  | 5 => 0
  | 6 => 0
  | 7 => 0
  | _ => v

/-! ## Peers (R303, R306) -/

/-- A peer request is served: the key slot bound to the digest and shard whose LOAD ended OK in GDDR7 outside a RETIRING base
slot, with serials left. -/
def State.peerSlot (s : State) (digest : List Byte) (shard : Nat) : Option KeySlot :=
  s.load.keys.find? (fun k => k.shard = shard && k.dest.isSome && decide (k.serial < 2 ^ 19) &&
    (match k.base with
     | some b => decide (s.baseState b ≠ 4)
     | none => true) &&
    (match s.man k.mslot with
     | some m => m.digest = digest
     | none => false))

/-- The IV of a served chunk (R306). -/
def peerIv (fabric serial ix : Nat) : List Byte := leBytes 4 (2 ^ 31 + fabric * 2 ^ 19 + serial) ++ leBytes 8 ix

/-- PEER_REQ (R306): the stored chunk goes out encrypted again, or NOT_HELD. -/
def peerReq (r : RxPacket) : Act Unit :=
  onPacket r [0x38] (fun q => do
    match q with
    | none => skip
    | some p =>
      let s ← Act.get
      let b := pkBody r.bytes
      let ix := pkArg0 r.bytes
      let none_ : Act Unit := replyTo r p 0x3A ix 0 []
      match s.peerSlot (bytesAt b 0 48) (numAt b 48 4) with
      | none => none_
      | some k =>
        match s.man k.mslot, k.dest with
        | some m, some (owner, base) =>
          let sh := mfShard m.bytes k.shard
          if shCount sh ≤ ix then none_
          else
            match ← gRead ingressSrc owner (base + ix * chunkBytes) (ckStored (mfChunk m.bytes (shFirst sh + ix))) with
            | .error _ => none_
            | .ok bs =>
              let iv := peerIv s.ownFabric k.serial ix
              let ct := Config.gcmSeal k.key iv (m.digest ++ leBytes 8 ix) bs
              modLoad (fun x => { x with keys := x.keys.map (fun d => if d.slot = k.slot then { d with serial := d.serial + 1 } else d) })
              count C.BIN_CNT_PEER_SERVED 1
              let all := iv ++ ct
              for i in List.range ((all.length + 4095) / 4096) do
                replyTo r p 0x39 ix i ((all.drop (4096 * i)).take 4096)
        | _, _ => none_)

/-- The chunk of a partition that waits for a peer's answer. -/
def State.peerChunk (s : State) (p src ix : Nat) : Option (StreamX × ChunkX) :=
  s.load.streams.findSome? (fun t => if t.part ≠ p then none
    else (t.chunks.find? (fun c => c.ix = ix && !c.landed && decide (t.binds.length ≤ c.attempt) &&
      t.peers.getD (c.attempt - t.binds.length) 4096 = src)).map (fun c => (t, c)))

/-- PEER_DATA (R303, R306): a packet of a peer's chunk lands, the IV leading packet 0; the plaintext of a peer is in stored
form. -/
def peerData (r : RxPacket) : Act Unit :=
  onPacket r [0x39] (fun q => do
    match q with
    | none => skip
    | some p =>
      let s ← Act.get
      let ix := pkArg0 r.bytes
      match s.peerChunk p (pkSrc r.bytes) ix with
      | none => skip
      | some (t, c) =>
        let i := pkArg1 r.bytes
        let b := pkBody r.bytes
        let iv := if i = 0 then b.take 12 else c.iv
        let _ ← gWrite ingressSrc p (landAt t c + (4096 * i - 12)) (if i = 0 then b.drop 12 else b)
        let got := c.got + b.length
        let total := 12 + ckStored (s.chunkLine t ix) + 16
        putChunk t { c with iv := iv, got := got, landed := decide (total ≤ got) })

/-- PEER_NOT_HELD (R303). -/
def peerNotHeld (r : RxPacket) : Act Unit :=
  onPacket r [0x3A] (fun q => do
    match q with
    | none => skip
    | some p =>
      match ← rd (fun s => s.peerChunk p (pkSrc r.bytes) (pkArg0 r.bytes)) with
      | none => skip
      | some (t, c) =>
        count C.BIN_CNT_PEER_MISS 1
        chunkNext t.part t.idx c.ix)

end Sys2Proof.Machine
end

