-- ==== Sys2Proof/Machine/Snap.lean ====
section
/-! DEFINITION. The control of the counters (R454 to R466): chains, threshold counters, and snapshots at named ticks.
Where the spec is open: DEDUCED 113, DESIGN CHOICE 24 of the assumption log. -/

namespace Sys2Proof.Machine

/-- The page base of a window page number (R461). -/
def winPage (n : Nat) : Nat := Block.glb.base + n * 0x1000

/-- How often the block of a window page has been reset (R455, R456). -/
def resetCountKey (n : Nat) : Nat := tabKey 37 n

/-- A page's reset count goes up by one. -/
def countReset (n : Nat) : Act Unit := do stW (resetCountKey n) ((← ldW (resetCountKey n)) + 1)

/-- Word `i` of a page's counter space is implemented. -/
def counterAt (page i : Nat) : Bool :=
  match pageOf (winPage page) with
  | none => false
  | some (.dbl, _) => false
  | some (b, p) => cntAt (pageCnts b p) (0x800 + 8 * i)

/-! ## Chains (R456) -/

/-- A write of a chain entry is refused: a word is unimplemented, the high word is half of another entry, or the low word is
the low half of another. -/
def State.chainBad (s : State) (i : Nat) (v : Word) : Bool :=
  let page := getFld v F.CNT_CHAIN.page
  let hi := getFld v F.CNT_CHAIN.high
  let lo := getFld v F.CNT_CHAIN.low
  getFld v F.CNT_CHAIN.valid = 1 &&
    (!counterAt page hi || !counterAt page lo || hi = lo ||
      (List.range 224).any (fun j =>
        let e := s.reg (R.CNT_CHAIN j)
        j ≠ i && getFld e F.CNT_CHAIN.valid = 1 && getFld e F.CNT_CHAIN.page = page &&
          (getFld e F.CNT_CHAIN.high = hi || getFld e F.CNT_CHAIN.low = hi || getFld e F.CNT_CHAIN.low = lo ||
            getFld e F.CNT_CHAIN.high = lo)))

/-- A chain entry changes from one word to another: the words of the old entry count their own events again, from 0, and those
of the new one form a chain, from 0; each change counts as a reset of the page (R456). -/
def chainChanged (old new : Word) : Act Unit := do
  if old ≠ new then
    let at_ (e : Word) (i : Nat) : Nat := winPage (getFld e F.CNT_CHAIN.page) + 0x800 + 8 * i
    if getFld old F.CNT_CHAIN.valid = 1 then
      wrR (at_ old (getFld old F.CNT_CHAIN.low)) 0
      wrR (at_ old (getFld old F.CNT_CHAIN.high)) 0
      countReset (getFld old F.CNT_CHAIN.page)
    if getFld new F.CNT_CHAIN.valid = 1 then
      wrR (at_ new (getFld new F.CNT_CHAIN.low)) (BitVec.ofNat 64 (2 ^ 62))
      wrR (at_ new (getFld new F.CNT_CHAIN.high)) (BitVec.ofNat 64 (2 ^ 61))
      countReset (getFld new F.CNT_CHAIN.page)

/-! ## Threshold counters (R457, R458) -/

/-- A page kind has an occupancy of that code (R458). -/
def occupancyDefined (page code : Nat) : Bool :=
  match pageOf (winPage page) with
  | some (.tile, _) => decide (code ≤ 2) || decide (0x10 ≤ code ∧ code ≤ 0x15)
  | some (.gdc, p) => decide (p < 17) && code = 0
  | some (.flc, p) => decide (p < 16) && decide (code ≤ 1)
  | some (.fab, _) => decide (0x20 ≤ code ∧ code ≤ 0x27)
  | some (.bms, _) => decide (0x20 ≤ code ∧ code ≤ 0x27)
  | some (.req, p) => p = 0 && decide (0x30 ≤ code ∧ code ≤ 0x33)
  | _ => false

/-- A threshold source is refused (R457); the reset value is always taken (R487). -/
def thrSourceBad (v : Word) : Bool :=
  v ≠ 0 && !occupancyDefined (getFld v F.CNT_THR_SRC.page) (getFld v F.CNT_THR_SRC.code)

/-- Clocks of a tile's arithmetic domain in a microsecond: its quarter's frequency, halved while the quarter is divided (R408,
R414). -/
def State.tileClocks (s : State) (page : Nat) : Nat :=
  stepFreq (s.stepQ (page / 156)) * (if s.isDivided (page / 156) then 50 else 100)

/-- An occupancy of R458, and the clocks of its domain in `us` microseconds that end now. Router inputs hold no flits: a packet
crosses the mesh at once (DESIGN CHOICE 24). -/
def State.occupancy (s : State) (page code us : Nat) : Nat × Nat :=
  match pageOf (winPage page) with
  | some (.tile, p) => match code with
    | 0 => ((s.tile p).flights.length, s.tileClocks p * us)
    | 1 => ((s.tile p).pins.length, s.tileClocks p * us)
    | 2 => ((s.tile p).wbq.length, s.tileClocks p * us)
    | _ => (0, 2200 * us)
  | some (.gdc, p) => ((s.site p).hold.length, 2200 * us)
  | some (.flc, p) => (if code = 0 then (s.flash.rx.filter (fun w => pcaChan w.pca = p)).length else (s.bufPages p).length, us)
  | some (.fab, k) => (((s.port k).rxq.filter (fun f => f.vl = code - 0x20)).length, slotsIn k us s.now)
  | some (.bms, k) => (((s.port (8 + k)).rxq.filter (fun f => f.vl = code - 0x20)).length, slotsIn (8 + k) us s.now)
  | some (.req, _) =>
    ((List.range 32).foldl (fun n p => n + ((s.part p).acks.filter (fun a => ringHub a.2.2 = code - 0x30)).length) 0, us)
  | _ => (0, 0)

/-- `n` microseconds pass for the tiles: a unit is busy while an operation issued to it has not retired, and a queue may be empty
with nothing in flight (R50, R124, R125, R180). -/
def tileWaits (n : Nat) : Act Unit := do
  for t in List.range 624 do
    let s ← Act.get
    let k := s.tileClocks t * n
    let l := (s.tile t).flights
    if l.any (fun f => f.holds 1) then count (C.TILE_CNT_MATRIX_BUSY t) k
    if l.any (fun f => f.holds 2) then count (C.TILE_CNT_VEC_BUSY t) k
    if l.any (fun f => f.holds 4) then count (C.TILE_CNT_ATTN_BUSY t) k
    if (s.tileState t = 3 ∨ s.tileState t = 4) ∧ l = [] ∧ s.opqIssued t = s.opqTail t then count (C.TILE_CNT_OP_EMPTY t) k

/-- Microseconds pass for the threshold counters (R457). -/
def thresholdMicrosecond (us : Nat) : Act Unit := do
  for i in List.range 64 do
    let s ← Act.get
    let v := s.reg (R.CNT_THR_SRC i)
    if getFld v F.CNT_THR_SRC.enable = 1 && occupancyDefined (getFld v F.CNT_THR_SRC.page) (getFld v F.CNT_THR_SRC.code) then
      let o := s.occupancy (getFld v F.CNT_THR_SRC.page) (getFld v F.CNT_THR_SRC.code) us
      if s.fldOf (R.CNT_THR_N i) F.CNT_THR_N.n < o.1 then count (C.CNT_THR i) o.2

/-! ## Snapshots (R459 to R462) -/

/-- Change the snapshot record. -/
def modSnap (f : SnapX → SnapX) : Act Unit := do Act.upd (.snap (f (← rd (fun s => s.snap))))

/-- Bytes of a run of slices named by width and count (R460). -/
def snapRegionBytes (w : Word) : Nat := getFld w F.CNT_HAY_REGION.slices * widthSites (getFld w F.CNT_HAY_REGION.width) * 2 ^ 26

/-- The site and its offset that byte `a` of a run of slices lies at, as in R241. -/
def State.regionPlace (s : State) (w : Word) (a : Nat) : Nat × Nat :=
  let width := getFld w F.CNT_HAY_REGION.width
  let n := widthSites width
  let u := a / 256
  (s.siteOfPos ((groupPositions width (getFld w F.CNT_HAY_REGION.place)).getD (u % n) 0),
   getFld w F.CNT_HAY_REGION.slice * 2 ^ 26 + u / n * 256 + a % 256)

/-- Two runs of slices, each a width, a place, a first slice and a length, share one. -/
def runsMeet (a b : Nat × Nat × Nat × Nat) : Bool :=
  (groupPositions a.1 a.2.1).any (fun p => (groupPositions b.1 b.2.1).contains p) &&
    overlaps (a.2.2.1, a.2.2.2) (b.2.2.1, b.2.2.2)

/-- The snapshot region meets a partition's granule or the flash map region (R460). -/
def State.regionBad (s : State) : Bool :=
  let w := s.reg R.CNT_HAY_REGION
  let m := s.reg R.FLC_MAP_CFG
  let r := (getFld w F.CNT_HAY_REGION.width, getFld w F.CNT_HAY_REGION.place, getFld w F.CNT_HAY_REGION.slice,
    getFld w F.CNT_HAY_REGION.slices)
  runsMeet r (getFld m F.FLC_MAP_CFG.width, getFld m F.FLC_MAP_CFG.place, getFld m F.FLC_MAP_CFG.slice,
      getFld m F.FLC_MAP_CFG.slices) ||
    s.mapEntries.any (fun e => runsMeet r (getFld e.2.2 F.GMAP.width, getFld e.2.2 F.GMAP.place, getFld e.2.2 F.GMAP.slice,
      16 / widthSites (getFld e.2.2 F.GMAP.width)))

/-- The region is judged when it or a map changes. -/
def regionJudge : Act Unit := do if ← rd State.regionBad then setPageFault (pageBase .cnt 0)

/-- The register of slot `i` a window address names: 0 TICK, 1 DEST, 2 SIZE, 3 SIG. -/
def snapSlotReg (a : Nat) : Option (Nat × Nat) :=
  if R.CNT_SNAP_TICK 0 ≤ a ∧ a < R.CNT_SNAP_TICK 8 then some ((a - R.CNT_SNAP_TICK 0) / 32, (a - R.CNT_SNAP_TICK 0) % 32 / 8)
  else none

/-- A write of a slot's register is refused (R466): the slot is armed and the write does more than disarm it, or the
destination's buffers pass the end of what holds them. -/
def State.snapWriteBad (s : State) (i r : Nat) (v : Word) : Bool :=
  let d := s.reg (R.CNT_SNAP_DEST i)
  if getFld d F.CNT_SNAP_DEST.valid = 1 then !(r = 1 && v = putFld d F.CNT_SNAP_DEST.valid 0)
  else r = 1 && getFld v F.CNT_SNAP_DEST.valid = 1 &&
    decide ((if getFld v F.CNT_SNAP_DEST.whole = 1 then snapRegionBytes (s.reg R.CNT_HAY_REGION) else 2 ^ 40) <
      getFld v F.CNT_SNAP_DEST.addr + (getFld v F.CNT_SNAP_DEST.k_m1 + 1) * s.fldOf (R.CNT_SNAP_SIZE i) F.CNT_SNAP_SIZE.size)

/-- A slot's destination has taken effect: armed, its captures start anew. -/
def snapArmed (i : Nat) (old new : Word) : Act Unit := do
  if getFld old F.CNT_SNAP_DEST.valid = 0 ∧ getFld new F.CNT_SNAP_DEST.valid = 1 then
    let t ← rdF (R.CNT_SNAP_TICK i) F.CNT_SNAP_TICK.tick
    modSnap (fun x => { x with
      seq := x.seq.filter (fun e => e.1 ≠ i), next := x.next.filter (fun e => e.1 ≠ i) ++ [(i, t)] })

/-- How many counter words a page's record holds: from 0x800 to its last counter. -/
def counterWords (b : Block) (p : Nat) : Nat :=
  (pageCnts b p).foldl (fun n r => if 0x800 ≤ r.off then max n ((r.off - 0x800 + r.stride * (r.count - 1)) / 8 + 1) else n) 0

/-- A page's record (R461). -/
def State.pageRecord (s : State) (b : Block) (p : Nat) : List Byte :=
  let n := counterWords b p
  let page := (pageBase b p - Block.glb.base) / 0x1000
  leBytes 2 page ++ leBytes 2 n ++ leBytes 2 ((s.wordAt (resetCountKey page)).toNat) ++ [0, 0] ++
    (List.range n).flatMap (fun i => leBytes 8 (s.reg (pageBase b p + 0x800 + 8 * i)).toNat)

/-- The pages a capture covers, ascending (R460): every enabled page with counters, or those the partition may read. -/
def State.snapPages (s : State) (part : Option Nat) : List (Block × Nat) :=
  (allBlocks.flatMap (fun b => (List.range b.pages).map (fun p => (b, p)))).filter (fun e =>
    let pb := pageBase e.1 e.2
    e.1 ≠ .dbl && decide (0 < counterWords e.1 e.2) && s.fldOf (pb + 0x18) F.PAGE_STATUS.enabled = 1 &&
      match part with
      | none => true
      | some p => s.mayRead { source := 0x4003, hay := false, part := some p } pb)

/-- The records that fit, whole, and whether some did not (R462). -/
def fitRecords (room : Nat) : List (List Byte) → List (List Byte) × Bool
  | [] => ([], false)
  | r :: rs =>
    if room < r.length then ([], true)
    else
      let x := fitRecords (room - r.length) rs
      (r :: x.1, x.2)

/-- A capture of a slot at the tick's edge (R459 to R462). -/
def capture (i tick time : Nat) : Act Unit := do
  let s ← Act.get
  let d := s.reg (R.CNT_SNAP_DEST i)
  let whole := getFld d F.CNT_SNAP_DEST.whole = 1
  let part := if whole then none else some (getFld d F.CNT_SNAP_DEST.partition)
  let size := s.fldOf (R.CNT_SNAP_SIZE i) F.CNT_SNAP_SIZE.size
  let m := ((s.snap.seq.find? (fun e => e.1 = i)).map (·.2)).getD 0
  if s.snap.copies.any (fun c => c.slot = i) then count C.CNT_CNT_SNAP_SKIPPED 1
  else if whole && s.regionBad then skip
  else
    let (recs, cut) := fitRecords (size - 64) ((s.snapPages part).map (fun e => s.pageRecord e.1 e.2))
    let body := recs.flatten
    let head := leBytes 6 tick ++ [0, 0] ++ leBytes 8 time ++ leBytes 2 s.ownFabric ++ leBytes 1 i ++ leBytes 1 (b2n cut) ++
      leBytes 4 (s.fldOf R.SEC_BOOT_STATUS F.SEC_BOOT_STATUS.boot_count) ++ leBytes 8 m ++ leBytes 4 recs.length ++
      leBytes 4 (64 + body.length) ++ List.replicate 24 0
    if cut then count C.CNT_CNT_SNAP_CUT 1
    modSnap (fun x => { x with copies := x.copies ++ [
      { slot := i, part := part
        addr := getFld d F.CNT_SNAP_DEST.addr + m % (getFld d F.CNT_SNAP_DEST.k_m1 + 1) * size
        bytes := head ++ body }] })

/-- Position 1 of a tick edge (R459): every armed slot whose tick it is captures. -/
def snapshots (tick time : Nat) : Act Unit := do
  if !(← rd (fun s => s.pageServes (pageBase .cnt 0))) then return
  for i in List.range 8 do
    let s ← Act.get
    if s.fldOf (R.CNT_SNAP_DEST i) F.CNT_SNAP_DEST.valid = 1 && s.snap.next.contains (i, tick) then
      capture i tick time
      let every := s.fldOf (R.CNT_SNAP_TICK i) F.CNT_SNAP_TICK.every
      modSnap (fun x => { x with next := x.next.filter (fun e => e.1 ≠ i) ++
        if every = 0 then [] else [(i, (tick + every) % 2 ^ 48)] })

/-- Write bytes into the snapshot region. -/
def regionWrite (w : Word) : Nat → List Byte → Act Unit
  | _, [] => pure ()
  | a, b :: bs => do
    let (site, off) ← rd (fun s => s.regionPlace w a)
    siteWriteByte site off b
    regionWrite w (a + 1) bs

/-- SNAPSHOT_COPY_DONE (R462): the copy is in memory, m + 1 goes to the slot's signal word. -/
def snapDone (i : Nat) : Act Unit := do
  let s ← Act.get
  match s.snap.copies.find? (fun c => c.slot = i) with
  | none => skip
  | some c =>
    let m := ((s.snap.seq.find? (fun e => e.1 = i)).map (·.2)).getD 0
    modSnap (fun x => { x with
      copies := x.copies.filter (fun d => d.slot ≠ i), seq := x.seq.filter (fun e => e.1 ≠ i) ++ [(i, m + 1)] })
    let sig := s.fldOf (R.CNT_SNAP_SIG i) F.CNT_SNAP_SIG.hub * 2 ^ 24 + s.fldOf (R.CNT_SNAP_SIG i) F.CNT_SNAP_SIG.offset * 8
    match c.part with
    | none =>
      regionWrite (s.reg R.CNT_HAY_REGION) c.addr c.bytes
      if sig % 2 ^ 24 < 48 * 65536 then stNum (hubKey 0 sig) 8 (m + 1)
    | some p =>
      let _ ← gWrite 0x4003 p c.addr c.bytes
      let _ ← spWrite 0x4003 p 0 sig (leBytes 8 (m + 1))
    count C.CNT_CNT_SNAPS 1
    count C.CNT_CNT_SNAP_BYTES c.bytes.length
    setIrq (pageBase .cnt 0) 32

end Sys2Proof.Machine
end

