-- ==== Sys2Proof/Machine/TileCtl.lean ====
section
/-! DEFINITION. Block instances in and out of service (R14), the tile states (R48), failures of tiles, routers and control
cores (R36, R40, R42), and the routes of the tile mesh (R34 to R38). Where the spec is open: DEDUCED 111, 112 and 165,
DESIGN CHOICE 43 of the assumption log. -/

namespace Sys2Proof.Machine

/-! ## Instances in and out of service (R14) -/

/-- The tile a page base belongs to. -/
def tilePage? (pb : Nat) : Option Nat :=
  if pageBase .tile 0 ≤ pb ∧ pb < pageBase .tile 624 then some ((pb - pageBase .tile 0) / 0x1000) else none

/-- PAGE_CTRL has been written: enabled follows it on an instance the record enables, and clearing quiesce resumes
(R14, R48). -/
def pageControlled (pb : Nat) : Act Unit := do
  let s ← Act.get
  if s.record.disabled.contains pb then return
  wrF (pb + 0x18) F.PAGE_STATUS.enabled (s.fldOf (pb + 0x10) F.PAGE_CTRL.enable)
  if s.fldOf (pb + 0x10) F.PAGE_CTRL.quiesce = 0 then
    wrF (pb + 0x18) F.PAGE_STATUS.quiesced 0
    match tilePage? pb with
    | some page => if s.tileState page = 4 && !(s.tile page).zeroing then wrF (pb + 0x18) F.PAGE_STATUS.state 3
    | none => skip

/-- QUIESCE_COMPLETE (R14, R48): no work is in hand under quiesce. -/
def quiesceComplete (pb : Nat) : Act Unit := do
  let s ← Act.get
  if s.record.disabled.contains pb || s.fldOf (pb + 0x10) F.PAGE_CTRL.quiesce = 0 then return
  match tilePage? pb with
  | some page =>
    if (s.tile page).flights ≠ [] then return
    if s.tileState page = 3 then wrF (pb + 0x18) F.PAGE_STATUS.state 4
  | none => skip
  wrF (pb + 0x18) F.PAGE_STATUS.quiesced 1

/-! ## Tile states (R48) -/

/-- SELFTEST_START accepted: the self-test of a tile runs. -/
def selftestBegin (page : Nat) : Act Unit := do
  wrF (pageBase .tile page + 0x18) F.PAGE_STATUS.state 1
  wrF (pageBase .tile page + 0x10) F.PAGE_CTRL.selftest_start 0

/-- SELFTEST_DONE (R27, R48): ACTIVE if mapped, STANDBY if not, FAILED if the test failed. -/
def selftestDone (page : Nat) (pass : Bool) : Act Unit := do
  let pb := pageBase .tile page
  let s ← Act.get
  if s.tileState page = 1 && (bit s.land.milestones 3 || s.fldOf R.PWR_STATUS F.PWR_STATUS.curb_level = 0) then
    setIrq pb 33
    wrF (pb + 0x18) F.PAGE_STATUS.state (if pass then 2 else 5)
    mapCheck
    tilePageOwner page
    let s ← Act.get
    if bit s.land.milestones 2 && (s.wordAt mapWrittenKey).toNat = 1 &&
        (List.range 624).all (fun t => decide (2 ≤ s.tileState t)) then milestone 3

/-- What is attached to a router (R39): kind and number — 1 GDDR7 site, 2 flash channel, 3 fabric port or board link, 5 bulk
port, 6 hub. -/
def attachedAt (page : Nat) : Option (Nat × Nat) :=
  let q := page / 156
  let x := if q % 2 = 0 then tileX page else 23 - tileX page
  let y := if q / 2 = 0 then tileY page else 25 - tileY page
  match x, y with
  | 1, 0 => some (1, 4 * q)
  | 4, 0 => some (1, 4 * q + 1)
  | 7, 0 => some (1, 4 * q + 2)
  | 10, 0 => some (1, 4 * q + 3)
  | 5, 0 => if q = 3 then some (1, 16) else none
  | 0, 2 => some (2, 4 * q)
  | 0, 5 => some (2, 4 * q + 1)
  | 0, 8 => some (2, 4 * q + 2)
  | 0, 11 => some (2, 4 * q + 3)
  | 2, 0 => some (3, 2 * q)
  | 0, 3 => some (3, 2 * q + 1)
  | 0, 0 => some (3, [8, 9, 11, 10].getD q 8)
  | 11, 0 => if q < 2 then some (5, q) else none
  | 5, 12 => some (6, q)
  | 11, 6 => some (6, q)
  | _, _ => none

/-- A port or link has failed: collectives on its plane end, and the loss of every plane fails the package (R332, R367,
R440). -/
def portLost (k : Nat) : Act Unit := do
  if k < 8 then colPortFailed k
  portsCheck

/-- CORE_FAIL (R42): the fallow core of the quarter takes the role of a failed core; a hayward core that none replaces leaves
the hayward on one core, and without any the package is failed (R440). -/
def coreFail (n : Nat) : Act Unit := do
  let s ← Act.get
  let w := s.reg (R.HAY_CORE n)
  let role := getFld w F.HAY_CORE.role
  if role = 3 then return
  wrR (R.HAY_CORE n) (putFld (putFld w F.HAY_CORE.role 3) F.HAY_CORE.act_valid 0)
  if role = 2 then return
  match (List.range 6).find? (fun i => n / 6 * 6 + i ≠ n && s.fldOf (R.HAY_CORE (n / 6 * 6 + i)) F.HAY_CORE.role = 2) with
  | some i => wrR (R.HAY_CORE (n / 6 * 6 + i)) w
  | none =>
    if role = 1 then
      let c := s.fldOf R.HAY_STATUS F.HAY_STATUS.cores - 1
      wrF R.HAY_STATUS F.HAY_STATUS.cores c
      setPageFault (pageBase .hay 0)
      if c = 0 then pkgFail

/-- The tiles whose routers carry hub `h`'s two ports (R39). -/
def hubPages (h : Nat) : List Nat := (List.range 624).filter (fun t => attachedAt t = some (6, h))

/-- A hub with both ports OUT is treated as failed (R40): its engines do nothing more and its control cores are lost. -/
def hubFail (h : Nat) : Act Unit := do
  stW (hubLostKey h) 1
  for i in List.range 6 do coreFail (6 * h + 5 - i)

/-- A flash channel has failed (R40, R289). -/
def channelFail (n : Nat) : Act Unit := do
  wrF (R.FLC_CH_STATE n) F.FLC_CH_STATE.state 4
  setIrq (pageBase .flc n) 32
  setPageFault (pageBase .flc n)
  flashLost n

/-- A bulk port is unreachable (R40): its link is down, and its page shows the fault. -/
def bulkLost (k : Nat) : Act Unit := do
  wrF (R.BIN_PORT_STATUS k) F.BIN_PORT_STATUS.link 0
  setPageFault (pageBase .bin k)

/-- A router is OUT (R33, R36, R40): what is attached to it has failed; the 33rd such router fails the package. -/
def routerOut (page : Nat) : Act Unit := do
  wrF (pageBase .tile page + 0x18) F.PAGE_STATUS.router_out 1
  match attachedAt page with
  | some (1, n) => if ← rd (fun s => s.populated n) then siteFail n
  | some (2, n) => if (← rd (fun s => s.flState n)) ≠ 0 then channelFail n
  | some (3, n) =>
    failPort n
    portLost n
  | some (5, n) => bulkLost n
  | some (6, h) => if ← rd (fun s => (hubPages h).all (fun t => s.fldOf (pageBase .tile t + 0x18) F.PAGE_STATUS.router_out = 1)) then
      hubFail h
  | _ => skip
  let s ← Act.get
  if 32 < ((List.range 624).filter (fun t => s.fldOf (pageBase .tile t + 0x18) F.PAGE_STATUS.router_out = 1)).length then pkgFail

/-- TILE_FAIL (R48): an uncorrectable SRAM word (cause 0), a router fault (1) or an engine self-check (2). -/
def tileFail (page cause : Nat) : Act Unit := do
  setTileFault page (match cause with
    | 0 => F.TILE_FAULT.sram_ue
    | 1 => F.TILE_FAULT.router
    | _ => F.TILE_FAULT.engine_selftest)
  let st ← rd (fun s => s.tileState page)
  if st = 3 ∨ st = 4 then
    wrF (pageBase .tile page + 0x18) F.PAGE_STATUS.state 5
    abandonFlights page
    modTile page (fun x => { x with zeroing := false })
    tilePageOwner page
  if cause = 1 then routerOut page

/-! ## The tile mesh (R33 to R38) -/

/-- Change the record of the mesh. -/
def modMesh (f : MeshX → MeshX) : Act Unit := do Act.upd (.mesh (f (← rd (fun s => s.mesh))))

/-- The valid entries of the OUT list that name a router, in order: entry number, x, y, waypoint x, y (R52). -/
def State.outList (s : State) : List (Nat × Nat × Nat × Nat × Nat) :=
  if s.fldOf R.MESH_ROUTE_CTRL F.MESH_ROUTE_CTRL.detour_enable = 0 then []
  else (List.range 32).filterMap (fun n =>
    let w := s.reg (R.MESH_OUT n)
    if getFld w F.MESH_OUT.valid = 1 then
      some (n, getFld w F.MESH_OUT.x, getFld w F.MESH_OUT.y, getFld w F.MESH_OUT.wp_x, getFld w F.MESH_OUT.wp_y)
    else none)

/-- The numbers from `a` to `b`, both included, whichever is larger. -/
def between (a b : Nat) : List Nat := (List.range (max a b + 1 - min a b)).map (min a b + ·)

/-- The routers of the x-then-y and of the y-then-x path. -/
def pathXY (sx sy dx dy : Nat) : List (Nat × Nat) := (between sx dx).map (fun x => (x, sy)) ++ (between sy dy).map (fun y => (dx, y))
def pathYX (sx sy dx dy : Nat) : List (Nat × Nat) := (between sy dy).map (fun y => (sx, y)) ++ (between sx dx).map (fun x => (x, dy))

/-- The routers a leg leaves on its way, each with the port it leaves by: 0 N, 1 E, 2 S, 3 W (R50). -/
def legX (y sx dx : Nat) : List (Nat × Nat × Nat) :=
  if sx ≤ dx then (List.range (dx - sx)).map (fun i => (sx + i, y, 1)) else (List.range (sx - dx)).map (fun i => (sx - i, y, 3))
def legY (x sy dy : Nat) : List (Nat × Nat × Nat) :=
  if sy ≤ dy then (List.range (dy - sy)).map (fun i => (x, sy + i, 2)) else (List.range (sy - dy)).map (fun i => (x, sy - i, 0))

/-- The TILE page at package coordinates (R23). -/
def pageAt (x y : Nat) : Nat := (y / 13 * 2 + x / 12) * 156 + y % 13 * 12 + x % 12

/-- The MESH page and the crossing a link belongs to, by the router it leaves, its port: the bridge pages of R51 with the
crossing's number and whether the coordinate rises. -/
def crossingAt (x y port : Nat) : Option (Nat × Nat × Bool) := match port with
  | 1 => if x = 11 then some (1 + y / 13, y % 13, true) else none
  | 3 => if x = 12 then some (1 + y / 13, y % 13, false) else none
  | 2 => if y = 12 then some (3 + x / 12, x % 12, true) else none
  | 0 => if y = 13 then some (3 + x / 12, x % 12, false) else none
  | _ => none

/-- `n` bytes leave a router by a port, and a bridge where the link is a crossing (R50, R51). -/
def meshHop (n : Nat) (h : Nat × Nat × Nat) : Act Unit := do
  count (C.TILE_CNT_BYTES_PORT (pageAt h.1 h.2.1) h.2.2) n
  match crossingAt h.1 h.2.1 h.2.2 with
  | some (m, c, up) => count (pageBase .mesh m + 0x800 + 32 * c + (if up then 0 else 8)) n
  | none => skip

/-- What a source does with a packet (R34, R35). -/
inductive Route where
  | inject (set : Nat)
  | hold
  | discard
deriving DecidableEq, Repr

/-- The choice of a route at injection (R34, R35): sets 0 x-then-y, 1 y-then-x, 2 through a waypoint. -/
def State.route (s : State) (m : MeshPkt) : Route :=
  let out := s.outList
  let isOut (p : Nat × Nat) : Bool := out.any (fun e => e.2.1 = p.1 && e.2.2.1 = p.2)
  let sx := tileX m.src
  let sy := tileY m.src
  if isOut (m.x, m.y) then .discard
  else if !(pathXY sx sy m.x m.y).any isOut then .inject 0
  else if !(pathYX sx sy m.x m.y).any isOut then .inject 1
  else match out.find? (fun e => (pathXY sx sy m.x m.y).contains (e.2.1, e.2.2.1)) with
    | none => .hold
    | some e =>
      let wx := e.2.2.2.1
      let wy := e.2.2.2.2
      if (pathYX sx sy wx wy ++ pathXY wx wy m.x m.y).any isOut then .hold else .inject 2

/-- The routers a packet leaves on the route chosen (R34), the last by the tile or the attachment port. -/
def State.hops (s : State) (m : MeshPkt) (set : Nat) : List (Nat × Nat × Nat) :=
  let sx := tileX m.src
  let sy := tileY m.src
  let way := match set with
    | 0 => legX sy sx m.x ++ legY m.x sy m.y
    | 1 => legY sx sy m.y ++ legX m.y sx m.x
    | _ => match s.outList.find? (fun e => (pathXY sx sy m.x m.y).contains (e.2.1, e.2.2.1)) with
      | some e =>
        let wx := e.2.2.2.1
        let wy := e.2.2.2.2
        legY sx sy wy ++ legX wy sx wx ++ legX wy wx m.x ++ legY m.x wy m.y
      | none => []
  way ++ [(m.x, m.y, if m.att then 5 else 4)]

/-- A source injects, holds or discards a packet under the list in effect (R34, R35); the bytes of an injected packet count at
every router and crossing of its route (R50, R51). -/
def meshSend (m : MeshPkt) : Act Unit := do
  match ← rd (fun s => s.route m) with
  | .discard => if m.request then send (.error (tileSrc m.src) 0x06)
  | .inject r =>
    if r = 1 then count C.MESH_CNT_DETOUR 1
    if r = 2 then count C.MESH_CNT_WAYPOINT 1
    for h in ← rd (fun s => s.hops m r) do meshHop (256 * m.flits) h
    send (.mesh m.src m.x m.y m.cls r)
  | .hold =>
    count C.MESH_CNT_UNROUTABLE 1
    setPageFault (pageBase .mesh 0)
    modMesh (fun x => { x with held := x.held ++ [m] })

/-- A source holds new packets: the OUT list has changed and it has not released them yet (R37). -/
def MeshX.holds (x : MeshX) (src : Nat) : Bool := x.holding && !x.released.contains src

/-- MESH_INJECT (R34, R35, R37, R38): a source has a packet; it waits behind those held of the same class and
destination. -/
def meshInject (m : MeshPkt) : Act Unit := do
  let x ← rd (fun s => s.mesh)
  if x.holds m.src || x.held.any (fun h => h.src = m.src && h.x = m.x && h.y = m.y && h.cls = m.cls) then
    modMesh (fun x => { x with held := x.held ++ [m] })
  else meshSend m

/-- The OUT list in effect has changed (R37): every source holds new packets. -/
def outListChanged : Act Unit := do
  let s ← Act.get
  wrF R.MESH_OUT_COUNT F.MESH_OUT_COUNT.count
    ((List.range 32).filter (fun n => s.fldOf (R.MESH_OUT n) F.MESH_OUT.valid = 1)).length
  modMesh (fun x => { x with holding := true, released := [], since := s.now })

/-- MESH_HOLD_RELEASE (R37): everything a source injected under the old list has been delivered, the given mesh clocks after the
change or the release before it; what that source held is sent in order. The hold is over once the last source releases. -/
def meshRelease (src clocks : Nat) : Act Unit := do
  let x ← rd (fun s => s.mesh)
  if x.holds src then
    count C.MESH_CNT_HOLD clocks
    let all := decide (623 ≤ x.released.length)
    modMesh (fun x => { x with holding := !all, released := if all then [] else x.released ++ [src]
                               held := x.held.filter (fun m => m.src ≠ src) })
    for m in x.held.filter (fun m => m.src = src) do meshInject m

/-- MESH_HOLD_TIMEOUT (R37): the hold has lasted longer than hold_timeout, in units of 64 mesh clocks at 2.2 GHz. -/
def meshTimeout : Act Unit := do
  let s ← Act.get
  if s.mesh.holding && decide (s.fldOf R.MESH_ROUTE_CTRL F.MESH_ROUTE_CTRL.hold_timeout * 640 < (s.now - s.mesh.since) * 22) then
    setPageFault (pageBase .mesh 0)

end Sys2Proof.Machine
end

