-- ==== Sys2Proof/Machine/Reset.lean ====
section
/-! DEFINITION. The tile reset and the partition reset (R433 to R436, R316). Where the spec is open: DEDUCED 118 and 119
of the assumption log. -/

namespace Sys2Proof.Machine

/-- The counters of a page go back to 0, their places in a chain stand, and the page's reset count goes on (R455). -/
def countersReset (pb : Nat) : Act Unit := do
  let ws ← rd (fun s => s.regs.filter (fun e => decide (pb + 0x800 ≤ e.1 ∧ e.1 < pb + 0x1000)))
  Act.upd (.clearRegs (pb + 0x800) (pb + 0x1000))
  for e in ws do
    wrR e.1 (putFld (putFld 0 F.COUNTER.chain_low (getFld e.2 F.COUNTER.chain_low)) F.COUNTER.chain_high
      (getFld e.2 F.COUNTER.chain_high))
  countReset ((pb - Block.glb.base) / 0x1000)

/-- A tile is flushed, zeroed and its registers are at reset; its state stands (R434, R435). -/
def tileFlushReset (page : Nat) : Act Unit := do
  flushNow page
  tileClear page
  countersReset (pageBase .tile page)

/-- HAY_RESET was refused. -/
def resetRefused : Act (Option Nat) := do
  wrF R.HAY_RESET_STATUS F.HAY_RESET_STATUS.refused 1
  return some 4

/-- TILE_RESET (R435). -/
def tileReset (page : Nat) : Act (Option Nat) := do
  let s ← Act.get
  let running := match s.pagePart (pageBase .tile page) with
    | some p => decide (s.phase p = 3)
    | none => false
  if 623 < page ∨ s.tileState page = 5 ∨ running = true then resetRefused
  else
    wrF R.HAY_RESET_STATUS F.HAY_RESET_STATUS.refused 0
    tileFlushReset page
    count C.HAY_CNT_TILE_RESETS 1
    return none

/-- A base slot that a partition was filling, or had filled without a committed cut-over, is EMPTY again; a committed
cut-over takes effect (R316). -/
def baseAfterReset (b : Nat) : Act Unit := do
  let s ← Act.get
  let committed := decide (s.fldOf R.BIN_SWAP_STATE F.BIN_SWAP_STATE.phase = 1 ∧ s.fldOf R.BIN_SWAP_STATE F.BIN_SWAP_STATE.slot = b)
  if committed ∧ s.baseState b = 2 then
    baseCutover b
    Act.upd (.stage R.BIN_BASE_ACTIVE none)
  else if ¬ committed ∧ (s.baseState b = 1 ∨ s.baseState b = 2 ∨ s.baseState b = 5) then
    setBaseState b 0
    wrF (R.BIN_BASE b) F.BIN_BASE.resident 0

/-- The 64 KiB units of the hub SRAMs that a partition holds read 0. -/
def unitsZero (p : Nat) : Act Unit := do
  for h in List.range 4 do
    for u in List.range 256 do
      if (← rd (fun s => s.wordAt (unitOwnerKey h u))).toNat = p + 1 then
        Act.upd (.clearMem (hubKey h (u * 65536)) (hubKey h ((u + 1) * 65536)))

/-- What the request engine, the copy engines and the routing engine held for a partition is gone; its journal, its free
frames and list blocks stand (R434, R436). -/
def engineReset (p : Nat) : Act Unit := do
  leaseReturn p (fun _ => true)
  for j in (← rd (fun s => s.part p)).cows do freeFrame p j.frame
  routeRollback p
  dropPending p
  for n in ← rd (fun s => s.slotsOf p) do
    if (← rd (fun s => s.slotF n .state)) ≠ stFree then slotFree p n
  let x ← rd (fun s => s.part p)
  wrPart p { x with batch := [], stagedRefs := [], cows := [], pubs := [], finals := [], heldLists := [], rerun := false
                    table := [], moves := [], stopping := false }
  for n in ← rd (fun s => s.ringsOf p) do
    ringSet n 0 F.RING.enable 0
    stW (ringKey n 2) 0
    ringSet n 3 F.RING.published 0
  let rings ← rd (fun s => s.ringsOf p)
  let f ← rd (fun s => s.fab)
  Act.upd (.fab { f with puts := f.puts.filter (fun e => e.part ≠ p), takes := f.takes.filter (fun e => e.part ≠ p)
                         copies := f.copies.filter (fun e => e.part ≠ p)
                         msgs := f.msgs.filter (fun m => !rings.contains m.ring) })
  wrF (R.TIM_STEP p) F.TIM_STEP.running 0
  wrF (R.REQ_STEP_STATUS p) F.REQ_STEP_STATUS.batch_entries 0
  wrF (R.REQ_STEP_STATUS p) F.REQ_STEP_STATUS.batch_tokens 0

/-- PARTITION_RESET (R436). -/
def partitionReset (p : Nat) : Act (Option Nat) := do
  let s ← Act.get
  if 31 < p then resetRefused
  else
    wrF R.HAY_RESET_STATUS F.HAY_RESET_STATUS.refused 0
    if !s.quenched p then quenchPart p 0
    colAbort p false
    for page in s.tilesOf p do tileFlushReset page
    flashStop p
    loadStop p
    fillStop p
    engineReset p
    for b in [0, 1] do
      if s.fldOf (R.BIN_BASE b) F.BIN_BASE.owner = p then baseAfterReset b
    unitsZero p
    wrF (R.PRT_CTRL p) F.PRT_CTRL.stop 0
    if s.partValid p then wrF (R.PRT_CTRL p) F.PRT_CTRL.state 1
    setPhase p 0
    wrF (R.REQ_PART_CTRL p) F.REQ_PART_CTRL.admit_enable 0
    if !s.quenched p then unquenchPart p
    count C.HAY_CNT_PART_RESETS 1
    return none

end Sys2Proof.Machine
end

