-- ==== Sys2Proof/Machine/BringUp.lean ====
section
/-! DEFINITION. The package resets and the bring-up: what a reset keeps (R434, R437, R439), the secure boot (R387 to
R395), the supplies, the straps and the reference clocks (R476, R477, R483 to R486). Where the spec is open: DEDUCED 104,
120, 122, 124, 125 and 171, DESIGN CHOICE 3, 4, 121, 123, 139 and 156 of the assumption log. -/

namespace Sys2Proof.Machine

/-! ## What a package reset keeps -/

/-- Registers a warm reset keeps: the tile map and the numbers of the tiles, the GDDR7 sites with their training, the flash
channels and the map engine, the failed stages, the calibration of the sensors being in the tables (R434). -/
def warmKeeps (b : Block) (p off : Nat) : Bool := match b with
  | .hay => (p = 8 && decide (0x100 ≤ off ∧ off < 0x800)) || (p = 0 && off = 0x100)
  | .tile => off = 0x100
  | .gdc => if p < 17 then off = 0x100 || off = 0x108 else [0x100, 0x110, 0x118, 0x120, 0x128, 0x130, 0x138].contains off
  | .flc => (decide (p < 16) && [0x100, 0x108, 0x110, 0x118, 0x120].contains off) || (p = 0 && (off = 0x308 || off = 0x310))
  | .pwr => p = 0 && (off = 0x130 || off = 0x138)
  | _ => false

/-- Registers every package reset keeps: what stands in the resistive store (R387, R434), and the base slots, whose states
follow the swap record (R316, R439). -/
def alwaysKeeps (b : Block) (p off : Nat) : Bool := match b with
  | .sec => p = 0 && (off = 0x100 || off = 0x108)
  | .bin => p = 2 && [0x200, 0x208, 0x210, 0x218, 0x220].contains off
  | _ => false

/-- The window address is kept. -/
def keptReg (warm : Bool) (a : Nat) : Bool := match pageOf a with
  | none => false
  | some (b, p) => alwaysKeeps b p (a - pageBase b p) || (warm && warmKeeps b p (a - pageBase b p))

/-- Every register that is not kept goes to its reset value, and every staged value is discarded (R67); the reset count of
every page goes on (R455). -/
def registersReset (warm : Bool) : Act Unit := do
  let ws ← rd (fun s => s.regs.filter (fun e => keptReg warm e.1))
  Act.upd (.clearRegs Block.glb.base (pageBase .dbl 128))
  Act.upd (.clearStaged Block.glb.base (pageBase .dbl 128))
  for e in ws do wrR e.1 e.2
  for b in allBlocks do
    for p in List.range b.pages do countReset ((pageBase b p - Block.glb.base) / 0x1000)

/-- Every record of what the engines hold is empty. -/
def recordsReset : Act Unit := do
  for k in List.range 12 do Act.upd (.port k {})
  for p in List.range 32 do Act.upd (.part p {})
  for k in List.range 17 do Act.upd (.site k {})
  for k in List.range 624 do Act.upd (.tile k {})
  Act.upd (.time {})
  Act.upd (.fab {})
  Act.upd (.mig {})
  Act.upd (.ted {})
  Act.upd (.col {})
  Act.upd (.load {})
  Act.upd (.snap {})
  Act.upd (.mesh {})
  Act.upd (.move {})
  modSec (fun x => { x with meas := [], running := [], ownerKeys := [], calls := [] })
  modLand (fun x => { x with pauseUntil := 0, txq := [] })

/-- The tables a package reset clears: all but the flash map and its blocks, the namespaces' places, the readers a retiring
base waits for and the reset counts; a cold reset also forgets the failed sensors and the package's failure. -/
def tablesReset (warm : Bool) : Act Unit := do
  Act.upd (.clearTab (tabKey 1 0) (tabKey 20 0))
  Act.upd (.clearTab (tabKey 29 0) (tabKey 31 0))
  Act.upd (.clearTab (tabKey 33 0) (tabKey 34 0))
  Act.upd (.clearTab (tabKey 35 0) (tabKey 36 0))
  Act.upd (.clearTab (tabKey 41 0) (tabKey 42 0))
  if !warm then
    Act.upd (.clearTab (tabKey 20 0) (tabKey 21 0))
    Act.upd (.clearTab (tabKey 31 0) (tabKey 33 0))
    Act.upd (.clearTab (tabKey 36 0) (tabKey 37 0))
    Act.upd (.clearTab (tabKey 38 0) (tabKey 40 0))

/-- The straps as sampled show in BMS_BOARD; a position outside the board sets the fault of BMS page 0 (R477). -/
def strapsShow : Act Unit := do
  match ← rd (fun s => s.land.straps) with
  | none => skip
  | some v =>
    wrF R.BMS_BOARD F.BMS_BOARD.bx (bits v 1 0)
    wrF R.BMS_BOARD F.BMS_BOARD.by_ (bits v 3 2)
    wrF R.BMS_BOARD F.BMS_BOARD.width_m1 (bits v 5 4)
    wrF R.BMS_BOARD F.BMS_BOARD.height_m1 (bits v 7 6)
    if ← rd State.strapsBad then setPageFault (pageBase .bms 0)

/-! ## Secure boot (R387 to R395) -/

/-- An image: its header with its body, its body, its signature block, and the header's fields (R390). -/
def imSigned (b : List Byte) : List Byte := b.take (128 + numAt b 8 8)
def imBody (b : List Byte) : List Byte := (imSigned b).drop 128
def imBlock (b : List Byte) : List Byte := b.drop (128 + numAt b 8 8)
def imVersion (b : List Byte) : Nat := numAt b 4 4

/-- The vendor signing key with an index, unless revoked. -/
def State.signer (s : State) (manifest : List Byte) (ix : Nat) : Option (List Byte) :=
  if 16 ≤ ix ∨ s.sec.revoked.contains ix then none else Config.signingKey manifest ix

/-- Some vendor signing key verifies a signature block. -/
def State.vendorSigned (s : State) (manifest msg block : List Byte) : Bool :=
  (List.range 16).any (fun i => match s.signer manifest i with
    | some k => Config.sigOk k msg block
    | none => false)

/-- The two sections of the boot configuration record, each with its signature block after it (R388). -/
def recPart (body : List Byte) : List Byte := body.take (numAt body 2 2)
def recBoard (body : List Byte) : List Byte :=
  let o := numAt body 2 2 + 3373
  bytesAt body o (numAt body (o + 2) 2)

/-- The record's sections carry the signatures R388 asks for. -/
def State.recordSigned (s : State) (manifest body : List Byte) : Bool :=
  let p := recPart body
  let b := recBoard body
  let blockB := bytesAt body (p.length + 3373 + b.length) 3373
  s.vendorSigned manifest p (bytesAt body p.length 3373) &&
    ((match s.sec.operator with
      | some d => Config.sigOk (bytes48 d) b blockB
      | none => false) || (s.lifecycle = 0 && s.vendorSigned manifest b blockB))

/-- A copy of an image is taken (R389, R390). -/
def State.imageTaken (s : State) (kind : Nat) (manifest b : List Byte) : Bool :=
  numAt b 0 2 = kind && b.length = 128 + numAt b 8 8 + 3373 && bytesAt b 16 48 = bytes48 (Config.sha384 (imBody b)) &&
    decide (s.floorOf kind ≤ imVersion b) &&
    (match kind with
      | 0 => numAt b 2 2 = 0xFFFF && Config.sigOk Config.rootKeys (imSigned b) (imBlock b)
      | 2 => s.recordSigned manifest (imBody b)
      | _ => match s.signer manifest (numAt b 2 2) with
        | some k => Config.sigOk k (imSigned b) (imBlock b)
        | none => false)

/-- Copy A of an image if it passes, else copy B. -/
def State.image (s : State) (kind : Nat) (manifest : List Byte) : Option (List Byte) :=
  ((s.land.env.images.filter (fun e => e.1 = kind)).map (·.2)).find? (fun b => s.imageTaken kind manifest b)

/-- The boot stops (R391): the stage and the result show in SEC_BOOT_STATUS. -/
def bootStop (result : Nat) : Act Bool := do
  wrF R.SEC_BOOT_STATUS F.SEC_BOOT_STATUS.result result
  return false

/-- The images of kinds 0 to 4 in turn, each measured (R391); answers whether all were taken. -/
def bootImages (manifest : List Byte) : List Nat → Act Bool
  | [] => pure true
  | k :: ks => do
    wrF R.SEC_BOOT_STATUS F.SEC_BOOT_STATUS.stage k
    match ← rd (fun s => s.image k manifest) with
    | none => bootStop 1
    | some b =>
      extendMeas (k + 1) (bytes48 (Config.sha384 (imSigned b)))
      modSec (fun x => { x with running := x.running.filter (fun e => e.1 ≠ k) ++ [(k, imVersion b)] })
      bootImages (if k = 0 then imBody b else manifest) ks

/-- The record in hand passes its check (R388). -/
def recordGood (body : List Byte) : Bool :=
  let p := recPart body
  let bound := numAt (recBoard body) 4 8
  numAt p 60 4 = 0x3C0 && bytesAt p 12 48 = bytes48 (Config.sha384 (leBytes 1984 Config.identity)) &&
    (bound = 0 || bound = numAt p 4 8) && (bytesAt p 64 48).all (fun b => decide (b.toNat ≤ 12) || b.toNat = 0xFF)

/-- Sites and flash channels a board section populates (R388). -/
def boardSites (b : List Byte) : List Nat := setBitList 17 (numAt b 12 3)
def boardChans (b : List Byte) : List Nat := setBitList 16 (numAt b 16 2)

/-- The row of the fallow tile of a quarter-local column where the record names none (R24): on Q0 and Q1 the package row of
diagonal index c is c + 1, on Q2 and Q3 24 − c, and on Q1 and Q3 index c lies in column 11 − c. -/
def fallowDefault (q col : Nat) : Nat :=
  let c := if q % 2 = 0 then col else 11 - col
  if q / 2 = 0 then c + 1 else 24 - c - 13

/-- The rows of the 48 fallow tiles by quarter and column, as the record names them or by default (R24, R388). -/
def fallowRows (l : List Nat) : List Nat :=
  l.mapIdx (fun i v => if v = 0xFF then fallowDefault (i / 12) (i % 12) else v)

/-- The TILE pages of the fallow positions in effect (R24): what the boot record settled, or the diagonal. -/
def State.fallowPages (s : State) : List Nat :=
  (List.range 48).map (fun i => i / 12 * 156 + s.record.fallow.getD i (fallowDefault (i / 12) (i % 12)) * 12 + i % 12)

/-- The record settles what it names: the instances it leaves out are disabled (R7, R14, R387, R388). -/
def recordTaken (body : List Byte) : Act Unit := do
  let b := recBoard body
  let env ← rd (fun s => s.land.env)
  let off := (List.range 17).filter (fun k => !(boardSites b).contains k)
  let dark := off.map (pageBase .gdc ·) ++ off.map (fun k => pageBase .gdc (17 + k)) ++
    ((List.range 16).filter (fun k => !(boardChans b).contains k)).map (pageBase .flc ·)
  Act.upd (.record { disabled := dark, flashBlocks := env.flashBlocks, flashPages := env.flashPages
                     serial := numAt (recPart body) 4 8, fallow := fallowRows ((bytesAt (recPart body) 64 48).map (·.toNat)) })
  for pb in dark do
    wrF (pb + 0x10) F.PAGE_CTRL.enable 0
    wrF (pb + 0x18) F.PAGE_STATUS.enabled 0

/-- The secure boot (R391, R394, R395); answers whether it ended with the hayward cores released. -/
def secureBoot : Act Bool := do
  let s ← Act.get
  wrF R.SEC_BOOT_STATUS F.SEC_BOOT_STATUS.stage 0
  wrF R.SEC_BOOT_STATUS F.SEC_BOOT_STATUS.result 0
  wrF R.SEC_BOOT_STATUS F.SEC_BOOT_STATUS.identity_mismatch 0
  addF R.SEC_BOOT_STATUS F.SEC_BOOT_STATUS.boot_count 1
  if !s.land.env.store then bootStop 4
  else if !s.land.env.puf || !s.sec.helper then bootStop 3
  else
    modSec (fun x => { x with meas := [], running := [] })
    modLand (fun x => { x with xspiGo := true })
    extendMeas 0 (leBytes 8 Config.romVersion.toNat)
    if !(← bootImages [] [0, 1, 2, 3, 4]) then return false
    let t ← Act.get
    let manifest := match t.image 0 [] with
      | some b => imBody b
      | none => []
    let body := match t.image 2 manifest with
      | some b => imBody b
      | none => []
    if !recordGood body then bootStop 2
    else
      extendMeas 6 (leBytes 1 t.lifecycle ++ (List.range 8).flatMap (fun k => leBytes 4 (t.floorOf k)))
      recordTaken body
      let differs := (t.land.env.images.filter (fun e => e.1 = 5)).any (fun c =>
        decide (bytesAt (imBody c.2) 8 1984 ≠ leBytes 1984 Config.identity))
      wrF R.SEC_BOOT_STATUS F.SEC_BOOT_STATUS.identity_mismatch (b2n differs)
      wrF R.SEC_BOOT_STATUS F.SEC_BOOT_STATUS.stage 0xFF
      return true

/-! ## Warm reset (R437) -/

/-- The GDDR7 sites go on under self-refresh, the flash channels as they were; windows, a migration and the cover end. -/
def tiersWarm : Act Unit := do
  for k in List.range 17 do
    let st ← rdF (R.GDC_SITE_STATE k) F.GDC_SITE_STATE.state
    let active ← rd (fun s => decide (s.fldOf (R.GDC_SITE_CFG k) F.GDC_SITE_CFG.role = 1))
    if st = 3 ∨ st = 4 ∨ st = 6 then
      wrF (R.GDC_SITE_STATE k) F.GDC_SITE_STATE.state (if k = 16 ∧ !active then 5 else 2)
  for k in List.range 16 do
    if (← rdF (R.FLC_CH_STATE k) F.FLC_CH_STATE.state) = 3 then wrF (R.FLC_CH_STATE k) F.FLC_CH_STATE.state 2
    wrF (R.FLC_CH_STATE k) F.FLC_CH_STATE.soft_waiting 0
  Act.upd (.flash (← rd (fun s => s.flash)).warm)

/-- The bulk ports come up with the hayward (R484). -/
def bulkUp : Act Unit := do
  for k in [0, 1] do wrF (R.BIN_PORT_STATUS k) F.BIN_PORT_STATUS.link 2

/-- What FAULT_L says of a boot that stopped (R478, R484). -/
def bootFailed : Act Unit := do
  modLand (fun x => { x with stop := 2 })
  lowFault

/-- WARM_RESET (R437, R439). A failed router stays OUT, and counts on toward the 33rd of R36 (DESIGN CHOICE 139). -/
def warmReset : Act Unit := do
  for b in [0, 1] do baseAfterReset b
  let s ← Act.get
  let states := (List.range 624).map (fun t => (t, s.tileState t, s.fldOf (pageBase .tile t + 0x18) F.PAGE_STATUS.router_out))
  let cores := (List.range 24).map (fun c => (c, s.fldOf (R.HAY_CORE c) F.HAY_CORE.role))
  registersReset true
  recordsReset
  tablesReset true
  Act.upd (.pwr { stageLimit := s.pwr.stageLimit })
  Act.upd (.clearMem 0 (2 ^ 37))
  for t in states do
    wrF (pageBase .tile t.1 + 0x18) F.PAGE_STATUS.state (if t.2.1 = 4 then 3 else t.2.1)
    wrF (pageBase .tile t.1 + 0x18) F.PAGE_STATUS.router_out t.2.2
  for c in cores do wrF (R.HAY_CORE c.1) F.HAY_CORE.role c.2
  tiersWarm
  strapsShow
  wrF R.HAY_RESET_STATUS F.HAY_RESET_STATUS.cause 1
  if ← secureBoot then
    mapCheck
    bulkUp
  else bootFailed

/-! ## Cold reset and bring-up (R483 to R485) -/

/-- The base slots after a cold reset: a committed cut-over is done and the other slot is EMPTY, a slot being filled is
EMPTY, and what is ACTIVE is no longer resident (R316, R439). -/
def basesCold : Act Unit := do
  let s ← Act.get
  let committed := decide (s.fldOf R.BIN_SWAP_STATE F.BIN_SWAP_STATE.phase = 1)
  let n := s.fldOf R.BIN_SWAP_STATE F.BIN_SWAP_STATE.slot
  for b in [0, 1] do
    wrF (R.BIN_BASE b) F.BIN_BASE.resident 0
    if committed then setBaseState b (if b = n then 3 else 0)
    else if s.baseState b ≠ 3 then setBaseState b 0
  if committed then
    wrF R.BIN_BASE_ACTIVE F.BIN_BASE_ACTIVE.slot n
    wrF R.BIN_SWAP_STATE F.BIN_SWAP_STATE.phase 2

/-- The sites and channels the record populates: each is configured, and enters TRAINING if it identified as declared; otherwise it
stays OFF with its fault set (R255, R268, R269, R388, R485). -/
def tiersCold (body : List Byte) : Act Unit := do
  let b := recBoard body
  let env ← rd (fun s => s.land.env)
  for k in boardSites b do
    wrF (R.GDC_SITE_CFG k) F.GDC_SITE_CFG.role (if k = 16 then 2 else 1)
    wrF (R.GDC_SITE_CFG k) F.GDC_SITE_CFG.device (numAt b 15 1)
    if env.sites.contains k then setSiteState k 1
    else setPageFault (pageBase .gdc k)
  for c in boardChans b do
    wrF (R.FLC_CH_CFG c) F.FLC_CH_CFG.rate (numAt b 20 2)
    wrF (R.FLC_CH_CFG c) F.FLC_CH_CFG.planes (bits (numAt b 19 1) 3 2)
    wrF (R.FLC_CH_CFG c) F.FLC_CH_CFG.luns (bits (numAt b 19 1) 1 0)
    wrF (R.FLC_CH_CFG c) F.FLC_CH_CFG.targets (2 ^ min 8 (numAt b 18 1) - 1)
    if env.chans.contains c && flashFits (numAt b 20 2) (numAt b 18 1) (bits (numAt b 19 1) 3 2) (bits (numAt b 19 1) 1 0)
        env.flashBlocks env.flashPages then
      factoryBad (env.flashBad.filter (fun k => blkChan k = c))
      showBlocks c
      wrF (R.FLC_CH_STATE c) F.FLC_CH_STATE.state 1
    else setPageFault (pageBase .flc c)

/-- The bring-up's training is over once no site and no channel trains: then every site is trained, and its GDDR7 zeroed (R255,
R269, R484). -/
def trainedCheck : Act Unit := do
  let s ← Act.get
  if s.land.stop = 0 && bit s.land.milestones 1 && (List.range 17).all (fun k => s.siteState k ≠ 1) &&
      (List.range 16).all (fun c => s.flState c ≠ 1) then
    milestone 4
    milestone 5

/-- `n` microseconds of the bring-up pass: a site or channel that trains is trained at a time of its own, +6 s after the rails rose
at the latest (R484, DESIGN CHOICE 156). -/
def bringUpTime (n : Nat) : Act Unit := do
  let s ← Act.get
  if (List.range 17).any (fun k => s.siteState k = 1) || (List.range 16).any (fun c => s.flState c = 1) then
    modLand (fun x => { x with upUs := x.upUs + n })
    let late := decide (6000000 ≤ s.land.upUs + n)
    for k in List.range 17 do
      if s.siteState k = 1 then
        if late then siteTrained k
        else if (← freshBelow 2) = 1 then siteTrained k
    for c in List.range 16 do
      if s.flState c = 1 then
        if late then wrF (R.FLC_CH_STATE c) F.FLC_CH_STATE.state 2
        else if (← freshBelow 2) = 1 then wrF (R.FLC_CH_STATE c) F.FLC_CH_STATE.state 2
    trainedCheck

/-- A cold reset with its cause: everything but the resistive store and the flash goes, the rails rise, the tiles enter
SELFTEST, the boot runs, and the sites and channels come up (R434, R483, R484). -/
def coldReset (cause : Nat) : Act Unit := do
  basesCold
  wrF R.SEC_BOOT_STATUS F.SEC_BOOT_STATUS.debug_open 0
  registersReset false
  recordsReset
  tablesReset false
  Act.upd (.flash ((← rd (fun s => s.flash)).cold (← rd (fun s => s.land.env.repaired))))
  Act.upd (.pwr {})
  Act.upd (.clearMem 0 (2 ^ 64))
  strapsShow
  wrF R.HAY_RESET_STATUS F.HAY_RESET_STATUS.cause cause
  let env ← rd (fun s => s.land.env)
  modLand (fun x => { x with upUs := 0, milestones := 0, stop := 0, tripL := false, vinLost := false, railsOff := !env.rails })
  if !env.rails then
    modLand (fun x => { x with stop := 1 })
    lowFault
  else
    milestone 0
    for t in List.range 624 do wrF (pageBase .tile t + 0x18) F.PAGE_STATUS.state 1
    if ← secureBoot then
      let s ← Act.get
      modLand (fun x => { x with faultL := false })
      milestone 1
      let manifest := match s.image 0 [] with
        | some b => imBody b
        | none => []
      match s.image 2 manifest with
      | some b => tiersCold (imBody b)
      | none => skip
      bulkUp
      trainedCheck
    else bootFailed

/-- VIN_MAIN_VALID (R483, R485): a cold reset begins; its cause reads 3 after a loss of VIN_MAIN. -/
def vinMainValid (env : BootEnv) : Act Unit := do
  modLand (fun x => { x with env := env })
  coldReset (if ← rd (fun s => s.land.vinLost) then 3 else 0)

/-- A write of HAY_RESET (R433, R435, R452). -/
def hayReset (v : Word) : Act (Option Nat) := do
  let t := getFld v F.HAY_RESET.target
  match getFld v F.HAY_RESET.op with
  | 1 => tileReset t
  | 2 => partitionReset t
  | 3 =>
    warmReset
    return none
  | 4 =>
    coldReset 2
    return none
  | _ => return some 4

/-! ## Straps, standby loss, reference clocks -/

/-- STRAP_SAMPLE (R477): sampled once, and held. -/
def strapSample (v : Nat) : Act Unit := do
  if (← rd (fun s => s.land.straps)).isNone then
    modLand (fun x => { x with straps := some (v % 2 ^ 11) })
    strapsShow

/-- VSTBY_LOSS (R477, R486): every rail stops; with VIN_MAIN present the next power-up reads cause 3. -/
def vstbyLoss : Act Unit := do
  let x ← rd (fun s => s.land)
  basesCold
  registersReset false
  recordsReset
  tablesReset false
  Act.upd (.flash ((← rd (fun s => s.flash)).cold false))
  Act.upd (.pwr {})
  Act.upd (.clearMem 0 (2 ^ 64))
  Act.upd (.land { env := x.env, railsOff := true, vinLost := x.vinLost || !x.railsOff })

/-- A port or link of a stopped domain goes DOWN with its fault set (R476). -/
def portStopped (k : Nat) : Act Unit := do
  portEmpty k
  if (← rd (fun s => s.portState k)) ≠ 4 then setPortState k 0
  setPageFault (portPage k)

/-- REFCLK_LOSS (R476): clocks 0 to 3 are FAB_REFCLK_0 to 3, 4 and 5 BIN_REFCLK_0 and 1, 6 CORE_REFCLK, 7 MGT_REFCLK. -/
def refclkLoss (clk : Nat) : Act Unit := do
  if clk < 4 then
    portStopped (2 * clk)
    portStopped (2 * clk + 1)
    portStopped (8 + [0, 1, 3, 2].getD clk 0)
  else if clk < 6 then
    wrR (R.BIN_PORT_STATUS (clk - 4)) 0
    setPageFault (pageBase .bin (clk - 4))
  else if clk = 6 then pkgFail
  else
    wrF R.MGT_PORT_STATUS F.MGT_PORT_STATUS.link 0
    setPageFault (pageBase .mgt 0)

/-! ## Milestones the hayward's set-up meets (R484) -/

/-- Bits [2] and [6] to [10] of the bring-up word, once their milestone is met. -/
def milestonesCheck : Act Unit := do
  let s ← Act.get
  if s.land.stop = 0 && bit s.land.milestones 1 then
    let en := decide (s.fldOf R.MGT_PORT_CTRL F.MGT_PORT_CTRL.enable = 1)
    if en then milestone 2
    let on := (List.range 12).filter (fun k => s.fldOf (R.PORT_CTRL k) F.PORT_CTRL.enable = 1)
    if on ≠ [] && on.all (fun k => s.portState k = 2) then milestone 6
    if s.fldOf R.MGT_PORT_STATUS F.MGT_PORT_STATUS.link = 2 then milestone 7
    if s.fldOf R.TIM_SYNC_STATUS F.TIM_SYNC_STATUS.locked_once = 1 then milestone 8
    if s.fldOf R.FLC_ENG_STATUS F.FLC_ENG_STATUS.map_ready = 1 then milestone 9
    if s.run then milestone 10

end Sys2Proof.Machine
end

