-- ==== Sys2Proof/Machine/Glean.lean ====
section
/-! DEFINITION. Glean windows (R72 to R75, R81): posting, cancelling, opening and closing, and what a window does to a
GDDR7 site (R257, R258, R260), a SerDes lane (R348, R293) and a flash channel (R280, R281). Where the spec is open:
DEDUCED 126, DESIGN CHOICE 127, 128, 144 and 174 of the assumption log. -/

namespace Sys2Proof.Machine

/-! ## The table -/

def State.glF (s : State) (n : Nat) (f : Fld) : Nat := s.fldOf (R.TIM_GLEAN_DESC n) f
def State.glStatus (s : State) (n : Nat) : Nat := s.glF n F.TIM_GLEAN_DESC.status
def State.glKind (s : State) (n : Nat) : Nat := s.glF n F.TIM_GLEAN_DESC.kind
def State.glInst (s : State) (n : Nat) : Nat := s.glF n F.TIM_GLEAN_DESC.inst
def State.glLength (s : State) (n : Nat) : Nat := s.glF n F.TIM_GLEAN_DESC.length_us
def State.glTick (s : State) (n : Nat) : Nat := s.fldOf (R.TIM_GLEAN_TICK n) F.TIM_GLEAN_TICK.tick
def setGlean (n st : Nat) : Act Unit := wrF (R.TIM_GLEAN_DESC n) F.TIM_GLEAN_DESC.status st

/-- The resource classes of R72: 1 GDDR7, 2 SerDes, 3 flash. -/
def gleanClass (kind : Nat) : Nat := match kind with
  | 1 => 1
  | 4 => 3
  | _ => 2

/-- How many instances a kind has (R72). -/
def gleanInstances (kind : Nat) : Nat := match kind with
  | 1 => 17
  | 2 | 3 => 36
  | 4 => 16
  | 5 => 4
  | _ => 0

/-- Two windows of one tick meet in time. -/
def windowsMeet (a b : Word) : Bool :=
  decide (getFld a F.TIM_GLEAN_DESC.offset_us < getFld b F.TIM_GLEAN_DESC.offset_us + getFld b F.TIM_GLEAN_DESC.length_us ∧
    getFld b F.TIM_GLEAN_DESC.offset_us < getFld a F.TIM_GLEAN_DESC.offset_us + getFld a F.TIM_GLEAN_DESC.length_us)

/-- A descriptor outside R72: no such instance of its kind, a window past the period, or a chain that does not end at the next
boundary. The write of one is refused (R487). -/
def State.gleanRange (s : State) (v : Word) : Bool :=
  let kind := getFld v F.TIM_GLEAN_DESC.kind
  let last := getFld v F.TIM_GLEAN_DESC.offset_us + getFld v F.TIM_GLEAN_DESC.length_us
  let period := s.fldOf R.TIM_TICK_PERIOD F.TIM_TICK_PERIOD.period_us
  decide (gleanInstances kind ≤ getFld v F.TIM_GLEAN_DESC.inst ∧ getFld v F.TIM_GLEAN_DESC.inst ≠ 0) ||
    decide (period < last) || (getFld v F.TIM_GLEAN_DESC.chain = 1 && last ≠ period) ||
    (getFld v F.TIM_GLEAN_DESC.status = 1 && kind = 0)

/-- A post the package sets REFUSED: it breaks the lead, or meets another window of its class (R73). -/
def State.postRefused (s : State) (n : Nat) (v : Word) : Bool :=
  let kind := getFld v F.TIM_GLEAN_DESC.kind
  decide (s.glTick n < s.tick + s.fldOf R.TIM_GLEAN_CTRL F.TIM_GLEAN_CTRL.lead) ||
  (List.range 64).any (fun m => m ≠ n && (s.glStatus m = 1 || s.glStatus m = 2) && s.glTick m = s.glTick n &&
    gleanClass (s.glKind m) = gleanClass kind && windowsMeet (s.reg (R.TIM_GLEAN_DESC m)) v)

/-- The fields of a descriptor; its reserved bits [11:6] and [3] read 0 (R11, R81). -/
def gleanFields (v : Word) : Word := v &&& 0xFFFFFFFFFFFFF037

/-- A write of TIM_GLEAN_DESC_n: a POSTED entry takes only a cancel, an OPEN one nothing (R75); a write with status 1
posts the entry or sets it REFUSED (R73, R81). -/
def gleanDescWrite (n : Nat) (v : Word) : Act (Option Nat) := do
  let s ← Act.get
  match s.glStatus n with
  | 1 =>
    if getFld v F.TIM_GLEAN_DESC.cancel = 1 then
      wrF (R.TIM_GLEAN_DESC n) F.TIM_GLEAN_DESC.cancel 1
      setGlean n 6
      return none
    else return some 4
  | 2 => return some 4
  | _ =>
    if s.gleanRange v then return some 4
    wrR (R.TIM_GLEAN_DESC n) (gleanFields v)
    if getFld v F.TIM_GLEAN_DESC.status = 1 then
      if s.postRefused n v then
        setGlean n 5
        count C.TIM_CNT_GLEAN_REFUSED 1
      else addF R.TIM_GLEAN_CTRL F.TIM_GLEAN_CTRL.seq 1
    return none

/-! ## Opening -/

/-- The port, its lane (8 the spare) and its spare's partner ports of a SerDes window: switch fabric lanes and spares of
port pairs for kind 2, link lanes for kind 3 (R72). -/
def laneOf (kind inst : Nat) : Nat × Nat :=
  if kind = 2 then (if inst < 32 then (inst / 4, inst % 4) else (2 * (inst - 32), 8)) else (8 + inst / 9, inst % 9)

/-- The resource of an entry is out of service, or its spare cannot cover it (R74, R260, R348). -/
def State.gleanOut (s : State) (n : Nat) : Bool :=
  let inst := s.glInst n
  match s.glKind n with
  | 1 =>
    let st := s.siteState inst
    let chained := s.time.chained.contains (1, inst)
    !(st = 2 || st = 5 || st = 6 || (st = 3 && chained)) ||
      (s.mig.src.isSome && (s.mig.src = some inst || inst = 16)) ||
      (s.fldOf R.GDC_COVER_STATUS F.GDC_COVER_STATUS.state = 2 && !chained)
  | 4 => !(s.flState inst = 2 || (s.flState inst = 3 && s.time.chained.contains (4, inst)))
  | 5 => s.fldOf (R.BIN_PORT_STATUS (inst / 2)) F.BIN_PORT_STATUS.link ≠ 2
  | k =>
    let l := laneOf k inst
    let chained := s.time.chained.contains (k, inst)
    let bad := bit (s.fldOf (R.PORT_STATUS l.1) F.PORT_STATUS.failed_lanes) l.2
    s.portState l.1 ≠ 2 || bad || (!chained && !(s.spareIdle l.1))

/-- The quarter whose GDDR7 edge a site lies at (R419, R469). -/
def siteQuarter (site : Nat) : Nat := if site = 16 then 3 else site / 4

/-- GLEAN_OPEN (R74): at its tick and offset a POSTED entry's window opens, or is SKIPPED where its resource is out of
service. `calFailed` are the sensors that fail calibration (R419), `skewOk` tells whether a planned swap's recorded skew
verifies (R348). -/
def gleanOpen (n : Nat) (calFailed : List Nat) (skewOk : Bool) : Act Unit := do
  let s ← Act.get
  if !(s.run && s.glStatus n = 1 && s.glTick n = s.tick) then return
  if s.gleanOut n then
    setGlean n 4
    count C.TIM_CNT_GLEAN_SKIPPED 1
  else
    let inst := s.glInst n
    let kind := s.glKind n
    let chained := s.time.chained.contains (kind, inst)
    setGlean n 2
    count C.TIM_CNT_GLEAN_OPENED 1
    modTime (fun x => { x with chained := x.chained.filter (fun e => e ≠ (kind, inst)) })
    match kind with
    | 1 =>
      setSiteState inst 3
      calibrate (siteQuarter inst) calFailed
    | 4 => flashOpens inst
    | 5 => skip
    | k =>
      let l := laneOf k inst
      modPort l.1 (fun x => { x with kept := false })
      if l.2 = 8 then setSpare l.1 3 0
      else if !chained then
        if skewOk then setSpare l.1 1 l.2
        else
          setGlean n 3
          count C.TIM_CNT_GLEAN_ABANDONED 1

/-! ## Closing -/

/-- A site returns to service after its window (R257, R260): what waited is served, and marked units are caught up. -/
def siteReturns (site : Nat) : Act Unit := do
  let active ← rd (fun s => decide (s.fldOf (R.GDC_SITE_CFG site) F.GDC_SITE_CFG.role = 1))
  setSiteState site (if active then 2 else 5)
  if site = 16 ∧ !active then coverSwitched
  let s ← Act.get
  let marks := (if site = 16 then s.mig.coverMarks.length else 0) + ((List.range 16).map (fun p =>
    if s.siteOfPos p = site then (s.site p).marks.length else 0)).sum
  if 0 < marks ∧ s.fldOf R.GDC_COVER_STATUS F.GDC_COVER_STATUS.state = 1 then
    wrF R.GDC_COVER_STATUS F.GDC_COVER_STATUS.state 2
    wrF R.GDC_COVER_STATUS F.GDC_COVER_STATUS.stale_units marks
  serveHeld site

/-- How a window ended: its calibration finished; it verified; the site's temperature and the channel a second failed training
marks; the codewords a flash window scanned, or that a bulk lane's adaptation lost; the blocks to be refreshed. -/
structure GleanEnd where
  finished : Bool
  verified : Bool
  temp : Nat
  chan : Nat
  scanned : Nat
  refresh : List Nat
deriving DecidableEq, Repr

/-- The lane of a SerDes window takes its traffic back from the spare if its recorded skew verifies; otherwise the spare keeps
the traffic (R348). -/
def laneBack (k lane : Nat) (skewOk : Bool) : Act Unit := do
  let s ← Act.get
  if s.spareState k = 1 && s.fldOf (R.PORT_STATUS k) F.PORT_STATUS.spare_for = lane then
    if skewOk then setSpare k 0 0 else modPort k (fun x => { x with kept := true })

/-- A SerDes window closes (R74, R348): a lane that has not taken its traffic back does so now, unless its skew has failed to
verify; a spare is idle again, if sound. -/
def laneReturns (kind inst : Nat) (skewOk : Bool) : Act Unit := do
  let s ← Act.get
  let l := laneOf kind inst
  if l.2 = 8 then
    if s.spareSound l.1 then setSpare l.1 0 0
  else if !(s.port l.1).kept then laneBack l.1 l.2 skewOk

/-- GLEAN_CLOSE (R74): the resource returns to service, or waits for the next entry of its chain (R72). A chain whose next entry
does not open, because it is cancelled, skipped or was never posted, keeps its resource out of service (DESIGN CHOICE 144). A GDDR7 window
shorter than 200 µs and a lane window shorter than 120 µs do not finish (R258, R348). -/
def gleanClose (n : Nat) (e : GleanEnd) : Act Unit := do
  let s ← Act.get
  if s.glStatus n ≠ 2 then return
  let kind := s.glKind n
  let inst := s.glInst n
  setGlean n 3
  if s.glF n F.TIM_GLEAN_DESC.chain = 1 then
    modTime (fun x => { x with chained := x.chained ++ [(kind, inst)] })
    if kind = 4 then flashWindow inst false e.scanned e.refresh
  else
    let tail := (List.range 64).any (fun m => m ≠ n && s.glStatus m = 3 && s.glKind m = kind && s.glInst m = inst &&
      s.glF m F.TIM_GLEAN_DESC.chain = 1 && s.glTick m + 1 = s.glTick n)
    let short := !tail && decide (s.glLength n < (match kind with
      | 1 => 200
      | 2 | 3 => 120
      | _ => 0))
    let done := e.finished && !short
    if !done then count C.TIM_CNT_GLEAN_ABANDONED 1
    match kind with
    | 1 =>
      trainResult inst (if !done then 3 else if e.verified then 1 else 2) e.temp e.chan
      if (← rd (fun t => t.siteState inst)) = 3 then siteReturns inst
    | 4 =>
      flashWindow inst done e.scanned e.refresh
      flashCloses inst
    | 5 => count (C.BIN_CNT_FEC_UNCORR (inst / 2)) e.scanned
    | k => laneReturns k inst e.verified

/-- GLEAN_SWAP_BACK (R348): the lane takes its traffic back from the spare if its recorded skew verifies. -/
def gleanSwapBack (n : Nat) (skewOk : Bool) : Act Unit := do
  let s ← Act.get
  let l := laneOf (s.glKind n) (s.glInst n)
  if s.glStatus n = 2 && (s.glKind n = 2 || s.glKind n = 3) && l.2 ≠ 8 then laneBack l.1 l.2 skewOk

/-- The windows with zero offset of the tick that has begun (R62). -/
def gleansAtEdge (calFailed : List Nat) (skewOk : Bool) : Act Unit := do
  for n in List.range 64 do
    if (← rd (fun s => s.glF n F.TIM_GLEAN_DESC.offset_us)) = 0 then gleanOpen n calFailed skewOk

end Sys2Proof.Machine
end

