-- ==== Sys2Proof/Machine/Side.lean ====
section
/-! DEFINITION. The I3C sideband (R479, R484), JTAG (R480) and the management port's own frames (R481). Where the spec is
open: DESIGN CHOICE 117, PRESUMED 115 and 116 of the assumption log. -/

namespace Sys2Proof.Machine

/-! ## The sideband -/

/-- The JTAG identification code (R480). -/
def jtagIdcode : Nat := 0x109609AB

/-- The eight bytes of a sideband word (R479). -/
def State.sideWord (s : State) (off : Nat) : Option Nat := match off with
  | 0x00 => some (0x0960 * 2 ^ 48 + 0x01 * 2 ^ 40 + jtagIdcode)
  | 0x08 => some (s.land.stop * 2 ^ 56 + s.land.milestones)
  | 0x10 => some (s.reg R.SEC_BOOT_STATUS).toNat
  | 0x18 => some (s.reg R.HAY_RESET_STATUS).toNat
  | 0x20 => some (s.reg R.PWR_STATUS).toNat
  | 0x28 => some (s.reg R.PWR_INPUT).toNat
  | 0x30 => some (s.reg R.PWR_TRIP).toNat
  | 0x38 => some (s.land.straps.getD 0)
  | _ => none

/-- I3C_WORD_READ: a word, or a NACK at any other offset. -/
def i3cWordRead (off : Nat) : Act Unit := do
  match ← rd (fun s => s.sideWord off) with
  | some v => send (.word v)
  | none => send .nack

/-- The static address: 0x50 and the straps I3C_SA. -/
def State.staticAddr (s : State) : Nat := 0x50 + bits (s.land.straps.getD 0) 10 8

/-- ENTDAA: a target without a dynamic address takes one. -/
def entdaa (addr : Nat) : Act Unit := do
  if (← rd (fun s => s.land.dynAddr)).isNone then modLand (fun x => { x with dynAddr := some (addr % 128) })

/-- SETDASA: the target with this static address and no dynamic address takes one; another does not answer. -/
def setdasa (static addr : Nat) : Act Unit := do
  let s ← Act.get
  if static = s.staticAddr ∧ s.land.dynAddr.isNone then modLand (fun x => { x with dynAddr := some (addr % 128) })
  else send .nack

/-- RSTDAA: the dynamic address is given up. -/
def rstdaa : Act Unit := modLand (fun x => { x with dynAddr := none })

/-- GETSTATUS: two bytes, whose content the spec leaves to the I3C standard. -/
def getstatus : Act Unit := do
  if (← rd (fun s => s.land.dynAddr)).isSome then send (.status (← freshBelow 65536))
  else send .nack

/-- ENEC, DISEC: in-band interrupts on and off. -/
def ibiEnable (on : Bool) : Act Unit := modLand (fun x => { x with ibi := on })

/-! ## JTAG -/

/-- BYPASS: one bit, captured 0, lies between TDI and TDO. -/
def jtagBypass : Act Unit := do
  modLand (fun x => { x with ir := .bypass, drive := false })
  send (.tdo 1 0)

/-- IDCODE. -/
def jtagIdcodeRead : Act Unit := do
  modLand (fun x => { x with ir := .idcode, drive := false })
  send (.tdo 32 jtagIdcode)

/-- SAMPLE/PRELOAD: the lands are captured and shifted out while the boundary register is loaded. -/
def samplePreload (pins data : BitVec 29) : Act Unit := do
  modLand (fun x => { x with ir := .sample, scan := data, drive := false })
  send (.tdo 29 pins.toNat)

/-- EXTEST: the lands are driven from the boundary register; inputs are captured and shifted out while it is loaded anew. -/
def jtagExtest (pins data : BitVec 29) : Act Unit := do
  modLand (fun x => { x with ir := .extest, drive := true, scan := data })
  send (.tdo 29 pins.toNat)

/-- CLAMP: the outputs are held from the boundary register with the bypass bit selected. -/
def jtagClamp : Act Unit := do
  modLand (fun x => { x with ir := .clamp, drive := true })
  send (.tdo 1 0)

/-- TRST_L: the TAP is reset; the identification code is selected and the lands belong to the package again. -/
def jtagReset : Act Unit := modLand (fun x => { x with ir := .idcode, drive := false })

/-! ## The management port (R481, R482) -/

/-- A write of MGT_PORT_CTRL has taken effect: enable brings the port up once it has trained, or takes it down. -/
def mgtPortEnabled (trained : Bool) : Act Unit := do
  let s ← Act.get
  let on := decide (s.fldOf R.MGT_PORT_CTRL F.MGT_PORT_CTRL.enable = 1)
  wrF R.MGT_PORT_STATUS F.MGT_PORT_STATUS.link (if !on then 0 else if trained then 2 else 1)
  wrF R.MGT_PORT_STATUS F.MGT_PORT_STATUS.fec_in_use
    (if on && trained then s.fldOf R.MGT_PORT_CTRL F.MGT_PORT_CTRL.fec else 0)

/-- An answer of the length of its question leaves the port. -/
def mgtAnswer (len kind addr : Nat) : Act Unit := mgtSend len (.frame kind addr)

/-- ARP_REQUEST: answered for the port's own IPv4 address. -/
def arpRequest (addr len : Nat) : Act Unit := mgtFrame len do
  if addr = (← rdF R.MGT_PORT_IP4 F.MGT_PORT_IP4.addr) then mgtAnswer len 1 addr else mgtDrop

/-- NEIGHBOR_SOLICITATION: answered for the port's own IPv6 address. -/
def neighborSolicitation (addr len : Nat) : Act Unit := mgtFrame len do
  let lo ← rdF R.MGT_PORT_IP6_LO F.MGT_PORT_IP6_LO.addr
  let hi ← rdF R.MGT_PORT_IP6_HI F.MGT_PORT_IP6_HI.addr
  if addr = hi * 2 ^ 64 + lo then mgtAnswer len 2 addr else mgtDrop

/-- PAUSE_FRAME: nothing leaves the port for the time the frame names, in units of 512 bit times at 25 Gb/s. -/
def pauseFrame (quanta len : Nat) : Act Unit := mgtFrame len do
  let now ← rd State.now
  modLand (fun x => { x with pauseUntil := now + (quanta % 65536) * 512 / 25 })

/-- MGT_FRAME_DROP. -/
def mgtFrameDrop (len : Nat) : Act Unit := mgtFrame len mgtDrop

end Sys2Proof.Machine
end

