-- ==== Sys2Proof/Machine/WriteBack.lean ====
section
/-! DEFINITION. A tile's copies of GDDR7 frames and their write-back (R248 to R253). Where the spec is open: DEDUCED 84 of
the assumption log. -/

namespace Sys2Proof.Machine

/-- A copy table entry (R251, R265). -/
def State.copyEntry (s : State) (page f : Nat) : Nat := (s.wordAt (copyKey page f)).toNat
def copyValid (e : Nat) : Bool := bit e 63
def copyWt (e : Nat) : Bool := bit e 62
def copyCompressed (e : Nat) : Bool := bit e 61
def copyDirty (e : Nat) : Nat := bits e 47 32
def copyHome (e : Nat) : Nat := bits e 31 0 * 65536

/-- Set a bit of a copy entry, or clear it. -/
def setCopyBit (page f i : Nat) (v : Bool) : Act Unit := do
  let e ← ldW (copyKey page f)
  stW (copyKey page f) (if v then orBit e i else clrBit e i)

/-- A frame of tile SRAM. -/
def State.frameBytes (s : State) (page f : Nat) : List Byte := s.memBytes (tileKey page (f * 65536)) 65536

/-- The home's bytes as the copy holds them, expanded where the home is compressed; none where a read is refused or a record
is bad. -/
def homeRead (page f : Nat) : Act (Option (List Byte)) := do
  let s ← Act.get
  let e := s.copyEntry page f
  let part := s.tilePart page
  if copyCompressed e then
    match ← gRead (tileSrc page) part (copyHome e + 0xFFC0) 64 with
    | .error _ => return none
    | .ok hdr =>
      let mut out : Option (List Byte) := some []
      let mut moved := 64
      for k in List.range 16 do
        let len := numAt hdr (2 * k) 2
        if len = 0 then out := out.map (· ++ List.replicate 4096 0)
        else if 4032 < len then out := none
        else
          moved := moved + roundUp len 64
          match ← gRead (tileSrc page) part (copyHome e + 4096 * k) (roundUp len 64) with
          | .error _ => out := none
          | .ok rec =>
            out := match out, slotSector len rec with
              | some o, some b => some (o ++ b)
              | _, _ => none
      count (C.TILE_CNT_WB_LOAD_BYTES page) moved
      return out
  else
    match ← gRead (tileSrc page) part (copyHome e) 65536 with
    | .error _ => return none
    | .ok bs =>
      count (C.TILE_CNT_WB_LOAD_BYTES page) 65536
      return some bs

/-- LOAD (R252): fill the frame from its home; the fill sets no dirty bit. A home that cannot be read leaves the frame as it
is. -/
def wbLoad (page f : Nat) : Act Unit := do
  match ← homeRead page f with
  | none => skip
  | some bs =>
    stBytes (tileKey page (f * 65536)) bs
    let e ← ldW (copyKey page f)
    stW (copyKey page f) (orBit (setBits e 47 32 0) 63)

/-- Store one sector at the home, a whole number of 64 B sectors. -/
def homeStore (page f off : Nat) (bs : List Byte) : Act Unit := do
  let s ← Act.get
  let _ ← gWrite (tileSrc page) (s.tilePart page) (copyHome (s.copyEntry page f) + off) bs
  count (C.TILE_CNT_WB_BYTES page) bs.length

/-- Bytes padded with zeros to whole 64 B sectors. -/
def padded (bs : List Byte) : List Byte := bytesAt bs 0 (roundUp bs.length 64)

/-- FLUSH (R248 to R252): every dirty sector goes home in ascending order and its dirty bit clears; a frame of which some
record exceeds 4,032 bytes is stored raw whole. -/
def wbFlush (page f : Nat) : Act Unit := do
  let s ← Act.get
  let e := s.copyEntry page f
  let frame := s.frameBytes page f
  let dirty := setBitList 16 (copyDirty e)
  let sector (k : Nat) : List Byte := bytesAt frame (4096 * k) 4096
  if copyCompressed e then
    let recs := frameRecords frame
    if recs.all (fun r => decide (r.length ≤ 4032)) then
      for k in dirty do
        setCopyBit page f (32 + k) false
        let r := recs.getD k []
        if r ≠ [] then homeStore page f (4096 * k) (padded r)
      homeStore page f 0xFFC0 (padded (frameHeader recs))
    else
      setCopyBit page f 61 false
      count (C.TILE_CNT_WB_RAW page) 1
      count (C.TILE_CNT_WB_SECTORS page) (16 - dirty.length)
      for k in List.range 16 do
        setCopyBit page f (32 + k) false
        homeStore page f (4096 * k) (sector k)
  else
    for k in dirty do
      setCopyBit page f (32 + k) false
      homeStore page f (4096 * k) (sector k)
  count (C.TILE_CNT_WB_SECTORS page) dirty.length

/-- The action of a command (R252): 0 LOAD, 1 FLUSH, 2 EVICT, 3 DISCARD. -/
def wbAct (page op f : Nat) : Act Unit := do
  match op with
  | 0 => wbLoad page f
  | 1 => wbFlush page f
  | 2 => do
    wbFlush page f
    setCopyBit page f 63 false
  | _ => do
    let e ← ldW (copyKey page f)
    stW (copyKey page f) (clrBit (setBits e 47 32 0) 63)

/-- The state of the copy refuses a command (R252). -/
def State.wbUnfit (s : State) (page op f : Nat) : Bool :=
  let e := s.copyEntry page f
  (op = 0 && copyDirty e ≠ 0) || ((op = 1 || op = 2) && !copyValid e)

/-- A command joins the tile's queue of 8; the first one in it acts at once (R252). Answers the reason of a refusal. -/
def wbCommand (page op f sig : Nat) : Act (Option Nat) := do
  let s ← Act.get
  let x := storeGet (fun _ => {}) s.tiles page
  if 8 ≤ x.wbq.length then
    count (C.TILE_CNT_WB_REFUSED page) 1
    return some 4
  if s.wbUnfit page op f then return some 4
  Act.upd (.tile page { x with wbq := x.wbq ++ [(op, f, sig)] })
  wrF (R.TILE_WB_STATUS page) F.TILE_WB_STATUS.queued (x.wbq.length + 1)
  if x.wbq = [] then wbAct page op f
  return none

/-- WB_COMMAND_DONE (R252): the command at the head completes, its completion count goes to its signal word, and the next
one acts. -/
def wbDone (page : Nat) : Act Unit := do
  let x ← rd (fun s => storeGet (fun _ => {}) s.tiles page)
  match x.wbq with
  | [] => skip
  | (_, _, sig) :: rest =>
    Act.upd (.tile page { x with wbq := rest })
    addF (R.TILE_WB_STATUS page) F.TILE_WB_STATUS.done 1
    wrF (R.TILE_WB_STATUS page) F.TILE_WB_STATUS.queued rest.length
    tileWrite page (sig * 8 % 2 ^ 22) (leBytes 8 (← rdF (R.TILE_WB_STATUS page) F.TILE_WB_STATUS.done))
    match rest with
    | [] => skip
    | (op, f, _) :: _ => wbAct page op f

/-- WRITE_THROUGH_FLUSH (R253): a valid write-through frame's dirty sectors go home with no command. -/
def writeThrough (page f : Nat) : Act Unit := do
  let e ← rd (fun s => s.copyEntry page f)
  if copyValid e && copyWt e && copyDirty e ≠ 0 then wbFlush page f

/-- A write of TILE_WB_ENTRY shows why it is refused (R265). -/
def State.wbEntryBad (s : State) (page f v : Nat) : Bool :=
  let e := s.copyEntry page f
  (copyValid e && !bit v 63 && copyDirty e ≠ 0) ||
    (bits v 31 0 ≠ bits e 31 0 && (storeGet (fun _ => ({} : TileX)) s.tiles page).wbq.any (fun q => q.2.1 = f))

/-- A write of TILE_WB_ENTRY sets what software may set; dirty stands, and bits [60:48] are reserved (R11). -/
def wbEntryWrite (page f v : Nat) : Act Unit := do
  let e ← ldW (copyKey page f)
  stW (copyKey page f) (setBits (setBits v 60 48 0) 47 32 (copyDirty e))

end Sys2Proof.Machine
end

