-- ==== Sys2Proof/Machine/Bus.lean ====
section
/-! DEFINITION. Accesses to the register window (R5 to R19, R487): the checks every access passes, the registers whose
write or read does more than store or show a value, and what a staged value does when it takes effect. Where the spec is
open: DEDUCED 90, 108, 130 and 131, DESIGN CHOICE 10, 12, 64 and 129 of the assumption log. -/

namespace Sys2Proof.Machine

/-- What a write row carries beside its value: the frames a STEP_ARM gives the free pool, whether the management port
trains. -/
structure BusX where
  give : List Nat := []
  trained : Bool := true
  /-- The partition that HAY_CORE_n names for the writing core, if it names one. -/
  part : Option Nat := none

/-! ## Values taking effect -/

/-- The registers whose staged values take effect at position 4 of the tick edge (R62, R375): the grants. -/
def grantAddr (a : Nat) : Bool := match pageOf a with
  | some (.prt, _) => true
  | some (.flc, 0) => decide (0x400 ≤ a - pageBase .flc 0)
  | some (.hay, 9) => true
  | _ => false

/-- A staged value of one register has taken effect. -/
def tookEffect (a : Nat) (old : Word) : Act Unit := do
  let new ← rdR a
  if a = R.PWR_CAP then
    let now ← rd State.now
    modPwr (fun x => { x with capAt := now })
  else if a = R.BIN_BASE_ACTIVE then baseCutover (getFld new F.BIN_BASE_ACTIVE.slot)
  else match pageOf a with
    | some (.cnt, 1) => chainChanged old new
    | _ => skip

/-- PAGE_OWNER of every TILE page follows the grants and the map (R375). -/
def tileOwners : Act Unit := do
  for page in List.range 624 do tilePageOwner page

/-- Registers that have taken effect together: the tile map, the mesh's OUT list (R27, R35). -/
def mapsTookEffect (l : List Nat) : Act Unit := do
  if l.any (fun a => decide (pageOf a = some (.hay, 8))) then
    stW mapWrittenKey 1
    mapCheck
    tileOwners
  if l.any (fun a => decide (R.MESH_OUT 0 ≤ a ∧ a ≤ R.MESH_OUT 31)) then outListChanged

/-- Grants that have taken effect together (R375, R376, R381, R401). -/
def grantsTookEffect (l : List Nat) : Act Unit := do
  if l.contains R.HAY_GMAP_COMMIT then mapCommit (← rdF R.HAY_GMAP_COMMIT F.HAY_GMAP_COMMIT.parts)
  if l ≠ [] then
    grantsSettle
    checkNamespaces
    mapsJudge
    regionJudge

/-- A register stores a written value, staged or at once; a tick-staged one that takes it at once has its effect. -/
def storeReg (a : Nat) (v : Word) : Act Unit := do
  let old ← rdR a
  plainWrite a v
  if !(← rd State.run) then
    match rowOf a with
    | some r =>
      if r.staged then
        tookEffect a old
        if grantAddr a then grantsTookEffect [a] else mapsTookEffect [a]
    | none => skip

/-- Store a value and answer that nothing refuses it. -/
def stored (a : Nat) (v : Word) : Act (Option Nat) := do
  storeReg a v
  return none

/-- Store unless refused with reason 0x04. -/
def storedUnless (bad : Bool) (a : Nat) (v : Word) : Act (Option Nat) := if bad then pure (some 4) else stored a v

/-- Do something that nothing refuses. -/
def andDone (x : Act Unit) : Act (Option Nat) := do
  x
  return none

/-! ## Staged values of a page (R64 to R67) -/

/-- The staged values of a page are discarded. -/
def stagedDrop (pb : Nat) : Act Unit := do
  Act.upd (.clearStaged pb (pb + 0x1000))
  wrF (pb + 0x18) F.PAGE_STATUS.staged_pending 0

/-- SCHED_TICK (R66): while values are staged only 0 may be written, which discards them; never where a cut-over is
committed (R315). -/
def schedTickWrite (pb : Nat) (v : Word) : Act (Option Nat) := do
  if (← rdF (pb + 0x18) F.PAGE_STATUS.staged_pending) = 1 then
    if getFld v F.SCHED_TICK.tick ≠ 0 then return some 8
    let s ← Act.get
    if pb = pageBase .bin 2 ∧ (storeGet (fun _ => none) s.staged R.BIN_BASE_ACTIVE).isSome then return some 4
    stagedDrop pb
  stored (pb + 0x50) v

/-- TICK_RUN_CLEAR (R63): ticks stop and every staged value is discarded, but a committed base cut-over, which takes effect
at once. -/
def runClear : Act Unit := do
  let s ← Act.get
  stepAgain
  for pb in ((s.staged.map (fun e => pbOf e.1)).eraseDups) do
    wrF (pb + 0x18) F.PAGE_STATUS.staged_pending 0
  Act.upd (.clearStaged Block.glb.base (pageBase .dbl 128))
  if (storeGet (fun _ => none) s.staged R.BIN_BASE_ACTIVE).isSome ∧ s.fldOf R.BIN_SWAP_STATE F.BIN_SWAP_STATE.phase = 1 then
    baseCutover (s.fldOf R.BIN_SWAP_STATE F.BIN_SWAP_STATE.slot)

/-- Values whose tick has come take effect (R65, R67): those of the registers `pick` names. -/
def stagedApply (n : Nat) (pick : Nat → Bool) : Act (List Nat) := do
  let s ← Act.get
  let due := s.staged.filterMap (fun e => match e.2 with
    | some v => if pick e.1 && decide (s.fldOf (pbOf e.1 + 0x50) F.SCHED_TICK.tick ≤ n) then some (e.1, v) else none
    | none => none)
  for e in due do
    match rowOf e.1 with
    | some r =>
      let old ← rdR e.1
      wrR e.1 (r.applied old e.2)
      Act.upd (.stage e.1 none)
      if s.fldOf (pbOf e.1 + 0x50) F.SCHED_TICK.tick < n then count C.TIM_CNT_LATE_STAGE 1
      tookEffect e.1 old
    | none => skip
  for pb in ((due.map (fun e => pbOf e.1)).eraseDups) do
    wrF (pb + 0x18) F.PAGE_STATUS.staged_pending 0
    setIrq pb 1
  return due.map (·.1)

/-! ## Writes, block by block -/

/-- The common registers of a page (R14, R15, R16, R47, R48, R66, R375). -/
def commonWrite (i : Issuer) (b : Block) (p pb off : Nat) (v : Word) : Act (Option Nat) := do
  let s ← Act.get
  match off with
  | 0x10 =>
    let test := b = .tile && getFld v F.PAGE_CTRL.selftest_start = 1
    if test && !i.hay then return some 3
    if test && !(s.tileState p = 0 || s.tileState p = 2) then return some 4
    storeReg (pb + 0x10) v
    pageControlled pb
    if test then selftestBegin p
    return none
  | 0x20 => storedUnless (b = .tile) (pb + 0x20) v
  | 0x28 =>
    if !i.hay && s.fldOf (pb + 0x28) F.PAGE_LOCK.lock = 1 && getFld v F.PAGE_LOCK.lock = 0 then return some 5
    stored (pb + 0x28) v
  | 0x50 => schedTickWrite pb v
  | _ => stored (pb + off) v

/-- A region of `n` bytes from byte `base` passes the end of a memory of `size` bytes (R487). -/
def passes (base n size : Nat) : Bool := decide (size < base + n)

/-- The weight buffers lie inside the tile and apart (R46). -/
def wbufBad (v : Word) : Bool :=
  let a := getFld v F.TILE_WBUF_CFG.a_base
  let an := getFld v F.TILE_WBUF_CFG.a_size
  let b := getFld v F.TILE_WBUF_CFG.b_base
  let bn := getFld v F.TILE_WBUF_CFG.b_size
  decide (1024 < a + an) || decide (1024 < b + bn) || decide (0 < an ∧ 0 < bn ∧ a < b + bn ∧ b < a + an)

/-- A quantiser stream's register is refused (R94, R121). -/
def streamBad (k : Nat) (v : Word) : Bool := match k with
  | 0x08 => let t := getFld v F.TILE_QS_TSCALE.tscale; !(decide (0x00800000 ≤ t ∧ t < 0x7F800000))
  | 0x18 => passes (getFld v F.TILE_QS_OUTLIER.table_base * 64) (getFld v F.TILE_QS_OUTLIER.n_entries * 4) (2 ^ 22)
  | 0x20 => passes (getFld v F.TILE_QS_SIDE.side_base * 64) (getFld v F.TILE_QS_SIDE.side_size * 64) (2 ^ 22)
  | 0x28 => passes (getFld v F.TILE_QS_WIDE.wide_base * 64) (getFld v F.TILE_QS_WIDE.wide_size * 64) (2 ^ 22)
  | _ => false

/-- A step of the owning partition runs on the tile, its commit included (R122, R199). -/
def State.stepOn (s : State) (page : Nat) : Bool := decide (s.tilePart page < 32) && (s.phase (s.tilePart page) = 3 || s.phase (s.tilePart page) = 4)

/-- The block registers of a TILE page. -/
def tileBlockWrite (p off : Nat) (v : Word) : Act (Option Nat) := do
  let s ← Act.get
  let a := pageBase .tile p + off
  if (s.tile p).zeroing then return some 4
  match off with
  | 0x108 => storedUnless (wbufBad v) a v
  | 0x140 =>
    let busy := s.fldOf (R.TILE_OPQ_HEAD p) F.TILE_OPQ_HEAD.retired ≠ s.fldOf (R.TILE_OPQ_TAIL p) F.TILE_OPQ_TAIL.tail
    storedUnless (busy || passes (getFld v F.TILE_OPQ_CFG.base * 64) (getFld v F.TILE_OPQ_CFG.size * 64) (2 ^ 22)) a v
  | 0x148 => return if ← opqTail p (getFld v F.TILE_OPQ_TAIL.tail) then some 4 else none
  | 0x168 => andDone (flushOps p)
  | 0x608 => if s.stepOn p || histRefused v then return some 4 else andDone (histWrite p v)
  | 0x688 => if s.attnFlying p then return some 4 else andDone (walkInv p)
  | 0x708 =>
    let f := s.fldOf (R.TILE_WB_SEL p) F.TILE_WB_SEL.frame
    if s.wbEntryBad p f v.toNat then return some 4 else andDone (wbEntryWrite p f v.toNat)
  | 0x710 => wbCommand p (getFld v F.TILE_WB_CMD.op) (getFld v F.TILE_WB_CMD.frame) (getFld v F.TILE_WB_CMD.sig_offset)
  | _ => storedUnless (decide (0x200 ≤ off ∧ off < 0x600) && streamBad ((off - 0x200) % 64) v) a v

/-- The fields of a granule map entry; its reserved bits [58:52], [47:42] and [31:0] read 0 (R11, R240). -/
def gmapFields (v : Nat) : Nat := v &&& 0xF80F03FF00000000

/-- The block registers of the HAY pages. -/
def hayWrite (p off : Nat) (v : Word) : Act (Option Nat) := do
  let s ← Act.get
  match p, off with
  | 0, 0x120 => hayReset v
  | 9, 0x108 =>
    if s.fldOf R.HAY_GMAP_STATUS F.HAY_GMAP_STATUS.copying = 1 then return some 4
    else andDone (stW (gmapShadowKey (s.fldOf R.HAY_GMAP_SEL F.HAY_GMAP_SEL.partition)
      (s.fldOf R.HAY_GMAP_SEL F.HAY_GMAP_SEL.entry)) (gmapFields v.toNat))
  | _, _ => stored (pageBase .hay p + off) v

/-- The block registers of the TIM pages. -/
def timWrite (p off : Nat) (v : Word) : Act (Option Nat) := do
  let s ← Act.get
  let a := pageBase .tim p + off
  match p, off with
  | 0, 0x110 =>
    let old := s.reg a
    storeReg a v
    syncControlled old
    return none
  | 1, 0x100 =>
    let on := decide (getFld v F.TIM_TICK_CTRL.run = 1)
    if on ∧ !s.run ∧ s.runRefused then return some 4
    storeReg a v
    if on ∧ !s.run then tickStart
    if ¬ on ∧ s.run then runClear
    return none
  | 1, 0x110 => storedUnless s.run a v
  | 1, 0x118 => storedUnless s.run a v
  | 3, _ =>
    if off < 0x200 then stored a v
    else
      let n := (off - 0x200) / 16
      if off % 16 = 8 then gleanDescWrite n v else storedUnless (s.glStatus n = 1 || s.glStatus n = 2) a v
  | _, _ => stored a v

/-- The block registers of the CNT pages. -/
def cntWrite (p off : Nat) (v : Word) : Act (Option Nat) := do
  let s ← Act.get
  let a := pageBase .cnt p + off
  match p with
  | 0 =>
    match snapSlotReg a with
    | some (i, r) =>
      if s.snapWriteBad i r v then return some 4
      let old := s.reg (R.CNT_SNAP_DEST i)
      storeReg a v
      if r = 1 then snapArmed i old (← rdR (R.CNT_SNAP_DEST i))
      return none
    | none =>
      storedUnless (a = R.CNT_HAY_REGION && s.runPasses (getFld v F.CNT_HAY_REGION.width) (getFld v F.CNT_HAY_REGION.place)
        (getFld v F.CNT_HAY_REGION.slice) (getFld v F.CNT_HAY_REGION.slices)) a v
  | 1 => storedUnless (s.chainBad ((off - 0x100) / 8) v) a v
  | 2 => storedUnless (off % 16 = 0 && thrSourceBad v) a v
  | _ => stored a v

/-- The block registers of the GDC pages: controllers 0 to 16, PHYs 17 to 33. -/
def gdcWrite (p off : Nat) (v : Word) : Act (Option Nat) := do
  let s ← Act.get
  let a := pageBase .gdc p + off
  if p < 17 then
    match off with
    | 0x130 =>
      if getFld v F.GDC_MIG_CTRL.start = 1 ∧ s.migRefused p then return some 4
      storeReg a v
      wrF a F.GDC_MIG_CTRL.start 0
      wrF a F.GDC_MIG_CTRL.abort 0
      if getFld v F.GDC_MIG_CTRL.start = 1 then migStart p
      else if getFld v F.GDC_MIG_CTRL.abort = 1 then migAbort p
      return none
    | 0x140 =>
      let band := getFld v F.GDC_COVER_CTRL.band
      if band ≠ 0 ∧ s.siteSlices 16 < 16 * band then return some 4
      storeReg a v
      coverSwitched
      return none
    | _ => stored a v
  else
    let st := s.siteState (p - 17)
    storedUnless (off = 0x100 && !(st = 0 || st = 1)) a v

/-- The block registers of the FLC pages. -/
def flcWrite (p off : Nat) (v : Word) : Act (Option Nat) := do
  let s ← Act.get
  let a := pageBase .flc p + off
  match off with
  | 0x100 => storedUnless (decide (p < 16) &&
      getFld v F.FLC_CH_CFG.rate ≠ s.fldOf (R.FLC_CH_CFG p) F.FLC_CH_CFG.rate && s.flState p ≠ 0) a v
  | 0x310 => storedUnless (s.runPasses (getFld v F.FLC_MAP_CFG.width) (getFld v F.FLC_MAP_CFG.place)
      (getFld v F.FLC_MAP_CFG.slice) (getFld v F.FLC_MAP_CFG.slices)) a v
  | _ => stored a v

/-- The block registers of a FAB or BMS page, port `k`. -/
def portWrite (k off : Nat) (a : Nat) (v : Word) : Act (Option Nat) := do
  let s ← Act.get
  match off with
  | 0x100 =>
    let en := decide (getFld v F.PORT_CTRL.enable = 1)
    if en ∧ 8 ≤ k ∧ s.strapsBad then return some 4
    storeReg a v
    portEnabled k en
    return none
  | 0x118 => storedUnless (s.creditBad k v) a v
  | 0x120 => storedUnless ((List.range 7).any (fun i => vlQuantum v (i + 1) = 0)) a v
  | 0x138 => storedUnless (k = 8 && s.run) a v
  | 0x148 => if k = 0 then andDone (quenchClear (getFld v F.FAB_QUENCH_CLEAR.parts)) else stored a v
  | _ => stored a v

/-- The block registers of the BIN pages. -/
def binWrite (p off : Nat) (v : Word) : Act (Option Nat) := do
  let s ← Act.get
  let a := pageBase .bin p + off
  if p ≠ 2 then stored a v
  else if 0x158 ≤ off ∧ off < 0x198 then
    let w := (off - 0x158) / 8
    if qpWordBad w v.toNat then return some 4
    else andDone (stW (qpKey (s.fldOf R.BIN_QP_SEL F.BIN_QP_SEL.qp) w) (qpWordKept w v.toNat))
  else if off = 0x200 then
    let b := getFld v F.BIN_BASE_ACTIVE.slot
    if s.baseState b ≠ 2 then return some 4
    swapRecord 1 b (if s.run then s.fldOf (pageBase .bin 2 + 0x50) F.SCHED_TICK.tick else s.tick)
    stored a v
  else if off = 0x208 ∨ off = 0x210 then
    let b := (off - 0x208) / 8
    if getFld v F.BIN_BASE.owner ≠ s.fldOf a F.BIN_BASE.owner ∧ s.baseState b ≠ 0 then return some 4
    storeReg a v
    wrF a F.BIN_BASE.discard 0
    if getFld v F.BIN_BASE.discard = 1 then baseDiscard b
    return none
  else stored a v

/-- A ling tree's table passes the end of the partition space (R206, R487). -/
def treePasses (base nodeLog bucketLog : Nat) : Bool := passes base (512 * 2 ^ nodeLog + 64 * 2 ^ bucketLog) (2 ^ 40)

/-- The block registers of REQ page 1 + `q`. -/
def reqWrite (x : BusX) (q off : Nat) (v : Word) : Act (Option Nat) := do
  let s ← Act.get
  let a := pageBase .req (1 + q) + off
  let stop := decide (s.fldOf (R.PRT_CTRL q) F.PRT_CTRL.stop = 1)
  match off with
  | 0x100 =>
    if stop ∧ getFld v F.REQ_PART_CTRL.admit_enable ≠ s.fldOf a F.REQ_PART_CTRL.admit_enable then return some 4
    else stored a v
  | 0x110 => if stop then return some 4 else stepArm q x.give v
  | 0x118 =>
    if getFld v F.REQ_STEP_CTRL.commit = 1 then stepCommit q
    else if getFld v F.REQ_STEP_CTRL.rollback = 1 then stepRollback q
    else return none
  | 0x140 =>
    let same := decide (getFld v F.REQ_JRNL_CFG.base = s.fldOf a F.REQ_JRNL_CFG.base)
    storedUnless ((!same && s.liveSlots q ≠ []) ||
      passes (getFld v F.REQ_JRNL_CFG.base) (2 ^ getFld v F.REQ_JRNL_CFG.log_size) (2 ^ 40)) a v
  | 0x160 =>
    let t := s.ownTree q
    storedUnless (treePasses (getFld v F.REQ_PRX_BASE.base) t.nodeLog t.bucketLog) a v
  | 0x168 =>
    storedUnless (treePasses (s.ownTree q).base (getFld v F.REQ_PRX_CFG.node_log) (getFld v F.REQ_PRX_CFG.bucket_log)) a v
  | 0x178 =>
    let c := getFld v F.REQ_PRX_SHARE.slot
    let g := s.reg (R.PRX_SHARE_CFG c)
    if getFld g F.PRX_SHARE_CFG.valid = 0 ∨ getFld g F.PRX_SHARE_CFG.owner ≠ q then return some 4
    if getFld v F.REQ_PRX_SHARE.withdraw = 1 then andDone (prxWithdraw q c (getFld v F.REQ_PRX_SHARE.node))
    else andDone (prxShare q c (getFld v F.REQ_PRX_SHARE.node))
  | 0x1c8 => unpark q (getFld v F.REQ_UNPARK.slot)
  | 0x1d8 => listRelease q (getFld v F.REQ_RELEASE.slot)
  | 0x320 =>
    let n := getFld v F.REQ_ADP_CMD.number
    let ver := getFld v F.REQ_ADP_CMD.version
    match getFld v F.REQ_ADP_CMD.op with
    | 1 => andDone (adpStage q)
    | 2 => andDone (adpPublish q n ver)
    | 3 => andDone (adpWithdraw q n ver)
    | 4 => andDone (adpDrop q n ver)
    | _ => return some 4
  | _ => if 0x288 ≤ off ∧ off < 0x2c8 then ringContextWrite q ((off - 0x288) / 8) v else stored a v

/-- The block registers of the PRX pages (R210, R213). -/
def prxWrite (p off : Nat) (v : Word) : Act (Option Nat) := do
  let s ← Act.get
  let a := pageBase .prx p + off
  match p with
  | 0 =>
    emptyTree (s.ownTree ((off - 0x100) / 16))
    stored a v
  | 1 =>
    if off < 0x200 then
      emptyTree (s.sharedTree ((off - 0x100) / 16))
      stored a v
    else if off < 0x300 then
      let c := (off - 0x200) / 8
      storedUnless (getFld v F.PRX_SHARE_CFG.valid = 1 && treePasses (s.sharedTree c).base (getFld v F.PRX_SHARE_CFG.node_log)
        (getFld v F.PRX_SHARE_CFG.bucket_log)) a v
    else
      let t := s.sharedTree ((off - 0x300) / 8)
      storedUnless (treePasses (getFld v F.PRX_SHARE_BASE.base) t.nodeLog t.bucketLog) a v
  | _ => stored a v

/-- A queue register: its base moves only with nothing unfinished, and the queue stays in the hub SRAM (R274, R487). -/
def queueCfg (busy : Bool) (base size entry : Nat) (a : Nat) (v : Word) : Act (Option Nat) :=
  storedUnless (busy || passes (base * 64) (size * entry) (2 ^ 26)) a v

/-- The block registers of PRT page `q`. -/
def prtWrite (q off : Nat) (v : Word) : Act (Option Nat) := do
  let s ← Act.get
  let a := pageBase .prt q + off
  match off with
  | 0x100 =>
    let st := s.fldOf a F.PRT_CTRL.state
    let stop := getFld v F.PRT_CTRL.stop
    if s.fldOf a F.PRT_CTRL.stop = 1 ∧ stop = 0 ∧ (st = 2 ∨ st = 3) ∧ getFld v F.PRT_CTRL.valid = 1 then return some 4
    storeReg a v
    if s.fldOf a F.PRT_CTRL.stop = 0 ∧ stop = 1 then partitionStop q
    return none
  | 0x110 => storedUnless (passes (getFld v F.PRT_RINGS.base) (getFld v F.PRT_RINGS.count) 65536) a v
  | 0x118 => storedUnless (passes (getFld v F.PRT_SLOTS.base) (getFld v F.PRT_SLOTS.count) 16384) a v
  | 0x1b8 => hayCallWrite q
  | 0x600 =>
    let busy := s.fldOf (R.PRT_FLQ_HEAD q) F.PRT_FLQ_HEAD.done ≠ s.fldOf (R.PRT_FLQ_TAIL q) F.PRT_FLQ_TAIL.tail
    queueCfg busy (getFld v F.PRT_FLQ_CFG.base) (getFld v F.PRT_FLQ_CFG.size) 64 a v
  | 0x608 => flqTailWrite q (getFld v F.PRT_FLQ_TAIL.tail)
  | 0x620 =>
    let busy := s.fldOf (R.PRT_LDQ_HEAD q) F.PRT_LDQ_HEAD.done ≠ s.fldOf (R.PRT_LDQ_TAIL q) F.PRT_LDQ_TAIL.tail
    queueCfg busy (getFld v F.PRT_LDQ_CFG.base) (getFld v F.PRT_LDQ_CFG.size) 64 a v
  | 0x628 => ldqTailWrite q (getFld v F.PRT_LDQ_TAIL.tail)
  | 0x640 =>
    let busy := s.fldOf (R.PRT_TDQ_HEAD q) F.PRT_TDQ_HEAD.done ≠ s.fldOf (R.PRT_TDQ_TAIL q) F.PRT_TDQ_TAIL.tail
    queueCfg busy (getFld v F.PRT_TDQ_CFG.base) (getFld v F.PRT_TDQ_CFG.size) 64 a v
  | 0x648 => tdqTailWrite q (getFld v F.PRT_TDQ_TAIL.tail)
  | 0x680 =>
    let busy := s.fldOf (R.PRT_CLQ_HEAD q) F.PRT_CLQ_HEAD.done ≠ s.fldOf (R.PRT_CLQ_TAIL q) F.PRT_CLQ_TAIL.tail
    queueCfg busy (getFld v F.PRT_CLQ_CFG.base) (getFld v F.PRT_CLQ_CFG.size) 128 a v
  | 0x688 => clqTailWrite q (getFld v F.PRT_CLQ_TAIL.tail)
  | 0x6a0 => andDone (colAbort q true)
  | 0x730 => kvRebuild q (getFld v F.PRT_KV_REBUILD.slot) (getFld v F.PRT_KV_REBUILD.from_)
  | 0x738 => stepAbandon q
  | 0x740 => recover q (getFld v F.PRT_RECOVER_CMD.table) (getFld v F.PRT_RECOVER_CMD.failover = 1)
  | _ =>
    if 0x140 ≤ off ∧ off < 0x160 then
      storedUnless (passes (getFld v F.PRT_HUBMEM.base) (getFld v F.PRT_HUBMEM.count) 256) a v
    else if 0x710 ≤ off ∧ off < 0x730 then
      let old := s.reg a
      let moved := getFld v F.PRT_MIRROR.log_size ≠ getFld old F.PRT_MIRROR.log_size ∨
        getFld v F.PRT_MIRROR.source ≠ getFld old F.PRT_MIRROR.source ∨ getFld v F.PRT_MIRROR.base ≠ getFld old F.PRT_MIRROR.base
      let r ← storedUnless ((getFld old F.PRT_MIRROR.valid = 1 && decide moved) ||
        passes (getFld v F.PRT_MIRROR.base * 65536) (2 ^ getFld v F.PRT_MIRROR.log_size) (2 ^ 40)) a v
      if r.isNone && getFld old F.PRT_MIRROR.valid = 0 && getFld v F.PRT_MIRROR.valid = 1 then
        mirrorAnew q (getFld v F.PRT_MIRROR.source)
      return r
    else stored a v

/-- A write of a block register that passed the common checks: the reason it is refused for, or none once it is done. -/
def blockWrite (x : BusX) (b : Block) (p off : Nat) (v : Word) : Act (Option Nat) := do
  let a := pageBase b p + off
  match b with
  | .tile => tileBlockWrite p off v
  | .hay => hayWrite p off v
  | .tim => timWrite p off v
  | .cnt => cntWrite p off v
  | .gdc => gdcWrite p off v
  | .flc => flcWrite p off v
  | .fab => portWrite p off a v
  | .bms => portWrite (8 + p) off a v
  | .bin => binWrite p off v
  | .req => if p = 0 then stored a v else reqWrite x (p - 1) off v
  | .prx => prxWrite p off v
  | .xrt =>
    if p < 4 then stored a v
    else if off = 0x118 then placeTailWrite (p - 4) v
    else
      if off = 0x158 then stW (biasEdgeKey (p - 4)) 0
      storedUnless ((← Act.get).ctxWriteBad (p - 4) off v) a v
  | .prt => prtWrite p off v
  | .pwr => storedUnless (pwrWriteBad a v) a v
  | .sec =>
    storeReg a v
    if p = 1 ∧ off = 0x100 ∧ (← rd (fun s => s.pageServes (pageBase .sec 1))) then secCommand x.part
    return none
  | .mgt =>
    storeReg a v
    if p = 0 ∧ off = 0x100 then mgtPortEnabled x.trained
    return none
  | .mesh =>
    storeReg a v
    match rowOf a with
    | some r => if !r.staged then mapsTookEffect [a]
    | none => skip
    return none
  | .glb | .ted | .dbl => stored a v

/-! ## The bus -/

/-- A doorbell write (R9, R183). -/
def dblWrite (i : Issuer) (addr width : Nat) (v : Word) : Act Unit := do
  let ring := (addr - pageBase .dbl 0) / 4096 * 512 + addr % 4096 / 8
  let s ← Act.get
  if width ≠ 8 ∨ addr % 8 ≠ 0 then
    count C.REQ_CNT_DBL_REFUSED 1
    refuseAs i addr 3 1
  else if !i.hay && (i.part.isNone || s.ringOwner ring ≠ i.part) then
    count C.REQ_CNT_DBL_REFUSED 1
    refuseAs i addr 3 2
  else
    doorbell ring v
    answer 0

/-- A write of `width` bytes to the register window by a control core. -/
def busWriteX (x : BusX) (core addr width : Nat) (v : Word) : Act Unit := coreActs core do
  let s ← Act.get
  let i := s.coreIssuer core
  match pageOf addr with
  | some (.dbl, _) => dblWrite i addr width v
  | some (b, p) =>
    match s.writeReason i addr width v with
    | some r => refuseAs i addr 2 r
    | none =>
      let off := addr - pageBase b p
      let r ← if off < 0x100 then commonWrite i b p (pageBase b p) off v else blockWrite { x with part := s.coreAct core } b p off v
      match r with
      | some e => refuseAs i addr 2 e
      | none => answer 0
      milestonesCheck
  | none => refuseAs i addr 2 6

/-- A 64-bit write. -/
def busWrite (core addr value : Nat) : Act Unit := busWriteX {} core addr 8 (BitVec.ofNat 64 value)

/-! ## Reads -/

/-- BIN_SLOT_INFO of the slot shown (R318). -/
def State.slotInfo (s : State) : Nat :=
  let n := s.fldOf R.BIN_SLOT_SEL F.BIN_SLOT_SEL.slot
  if s.fldOf R.BIN_SLOT_SEL F.BIN_SLOT_SEL.kind = 0 then
    match s.man n with
    | some m => 2 ^ 63 + m.owner * 2 ^ 32
    | none => 0
  else
    match s.keySlot n with
    | some k => 2 ^ 63 + k.owner * 2 ^ 32 + k.mslot % 16 * 2 ^ 28 + k.shard % 2 ^ 28
    | none => 0

/-- The manifest digest of the slot shown; of a key slot, its manifest slot's (R318). -/
def State.slotDigest (s : State) : List Byte :=
  let n := s.fldOf R.BIN_SLOT_SEL F.BIN_SLOT_SEL.slot
  let m := if s.fldOf R.BIN_SLOT_SEL F.BIN_SLOT_SEL.kind = 0 then s.man n
    else (s.keySlot n).bind (fun k => s.man k.mslot)
  match m with
  | some x => bytes48 (Config.sha384 x.bytes)
  | none => zeros 48

/-- The words that show something beside their register: slots, contexts, tables, measurements (R122, R212, R240, R265,
R317, R318, R402, R419). The reason a read is refused for, or the data. -/
def State.readView (s : State) (b : Block) (p off : Nat) : Except Nat Nat :=
  let a := pageBase b p + off
  let plain : Nat := match rowOf a with
    | some r => mergeBits (s.reg a).toNat 0 (r.mask (fun c => c = .wo))
    | none => (s.reg a).toNat
  match b with
  | .tile => match off with
    | 0x608 => .ok (s.wordAt (histKey p (s.fldOf (R.TILE_QHIST_SEL p) F.TILE_QHIST_SEL.stream)
        (s.fldOf (R.TILE_QHIST_SEL p) F.TILE_QHIST_SEL.entry))).toNat
    | 0x708 => .ok (s.copyEntry p (s.fldOf (R.TILE_WB_SEL p) F.TILE_WB_SEL.frame))
    | _ => .ok plain
  | .hay => match p, off with
    | 9, 0x108 => .ok (s.wordAt (gmapShadowKey (s.fldOf R.HAY_GMAP_SEL F.HAY_GMAP_SEL.partition)
        (s.fldOf R.HAY_GMAP_SEL F.HAY_GMAP_SEL.entry))).toNat
    | 9, 0x118 => .ok (s.wordAt (gmapKey (s.fldOf R.HAY_GMAP_SEL F.HAY_GMAP_SEL.partition)
        (s.fldOf R.HAY_GMAP_SEL F.HAY_GMAP_SEL.entry))).toNat
    | _, _ => .ok plain
  | .req =>
    if p = 0 then .ok plain
    else if 0x200 ≤ off ∧ off < 0x280 then
      let n := s.fldOf (R.REQ_SLOT_SEL (p - 1)) F.REQ_SLOT_SEL.slot
      if s.slotOwner n = some (p - 1) then .ok (s.wordAt (slotKey n ((off - 0x200) / 8))).toNat else .error 2
    else if 0x288 ≤ off ∧ off < 0x2c8 then
      let n := s.fldOf (R.REQ_RING_SEL (p - 1)) F.REQ_RING_SEL.ring
      if s.ringOwner n = some (p - 1) then .ok (s.wordAt (ringKey n ((off - 0x288) / 8))).toNat else .error 2
    else .ok plain
  | .sec => match p, off with
    | 0, 0x150 =>
      let k := s.fldOf R.SEC_FLOOR_SEL F.SEC_FLOOR_SEL.kind
      .ok (s.runningOf k * 2 ^ 32 + s.floorOf k)
    | 0, o =>
      if 0x118 ≤ o ∧ o < 0x148 then
        .ok (numAt (bytes48 (s.meas (s.fldOf R.SEC_MEAS_SEL F.SEC_MEAS_SEL.index))) (o - 0x118) 8)
      else .ok plain
    | _, _ => .ok plain
  | .bin =>
    if p ≠ 2 then .ok plain
    else if off = 0x118 then .ok s.slotInfo
    else if 0x120 ≤ off ∧ off < 0x150 then .ok (numAt s.slotDigest (off - 0x120) 8)
    else if 0x158 ≤ off ∧ off < 0x198 then
      .ok (s.wordAt (qpKey (s.fldOf R.BIN_QP_SEL F.BIN_QP_SEL.qp) ((off - 0x158) / 8))).toNat
    else .ok plain
  | .pwr => if p = 1 ∧ off = 0x130 then .ok (s.sensor (getFld (s.reg R.PWR_SENSOR_SEL) F.PWR_SENSOR_SEL.sensor)).toNat else .ok plain
  | .prt => if off = 0x1c0 then .ok (s.reg R.PWR_ENERGY).toNat else .ok plain
  | .xrt => if 4 ≤ p ∧ off = 0x128 then .ok (plain / 2 * 2 + b2n (s.ctxWaiting (p - 4))) else .ok plain
  | _ => .ok plain

/-- A read of the register window by a control core; a read of TIM_NOW latches the fraction (R78). -/
def busRead (core addr width : Nat) : Act Unit := coreActs core do
  let s ← Act.get
  let i := s.coreIssuer core
  match pageOf addr with
  | none => refuseAs i addr 1 6
  | some (.dbl, _) => refuseAs i addr 1 (if width ≠ 8 ∨ addr % 8 ≠ 0 then 1 else 4)
  | some (b, p) =>
    match s.readReason i addr width with
    | some r => refuseAs i addr 1 r
    | none =>
      if addr = R.TIM_NOW then wrF R.TIM_NOW_FRAC F.TIM_NOW_FRAC.frac (s.time.frac / 2 ^ 16)
      match s.readView b p (addr - pageBase b p) with
      | .ok n => answer n
      | .error e => refuseAs i addr 1 e

end Sys2Proof.Machine
end

