-- ==== Sys2Proof/Machine/CoreMem.lean ====
section
/-! DEFINITION. CORE_MEMORY_ACCESS (R378): what a control core's load or store reaches. Where the spec is open: DEDUCED
132 of the assumption log. -/

namespace Sys2Proof.Machine

/-- Space and address of a core's memory address (R378): 0 hub SRAM, 1 the partition's GDDR7, 2 tile SRAM. -/
def corePlace (a : Nat) : Option (Nat × Nat) :=
  if 0x100000000000 ≤ a ∧ a < 0x110000000000 then some (1, a - 0x100000000000)
  else if 0x110000000000 ≤ a ∧ a < 0x110004000000 then some (0, a - 0x110000000000)
  else if 0x120000000000 ≤ a ∧ a < 0x120090000000 then some (2, a - 0x120000000000)
  else none

/-- An access faults its core: it is logged, and counted for the partition (R378, R386). -/
def coreFault (core : Nat) (i : Issuer) (a : Nat) (write : Bool) (reason : Nat) : Act Unit := do
  vlog 1 a (errInfo i (if write then 2 else 1) reason)
  match i.part with
  | some p => count (C.PRT_CNT_ACCESS_REFUSED p) 1
  | none => skip
  send (.error core reason)

/-- An access of a run-time core for its acting partition: translated, checked against the grants, and refused from weights
that must not be read (R305, R378). -/
def coreServe (core : Nat) (i : Issuer) (p sp ad a size : Nat) (write : Bool) (value : Nat) : Act Unit := do
  let s ← Act.get
  match s.refReason p sp ad size write with
  | some e => coreFault core i a write e
  | none =>
    if !write && s.touchesProtected p sp ad size then coreFault core i a write 0x04
    else if write then
      match ← spWrite core p sp ad (leBytes size value) with
      | some e => send (.error core e)
      | none => skip
    else
      match ← spRead core p sp ad size with
      | .ok bs => send (.data core bs)
      | .error e => send (.error core e)

/-- A hayward core reaches the whole hub SRAM, where the violation log lies (R386). -/
def haywardServe (core : Nat) (i : Issuer) (sp ad a size : Nat) (write : Bool) (value : Nat) : Act Unit := do
  if sp = 0 ∧ ad + size ≤ 2 ^ 26 then
    if write then stBytes (2 ^ 36 + ad) (leBytes size value)
    else send (.data core (← ldBytes (2 ^ 36 + ad) size))
  else coreFault core i a write 0x06

/-- CORE_MEMORY_ACCESS: the register window, the board address space, or memory. -/
def coreAccess (core a size : Nat) (write : Bool) (value : Nat) : Act Unit := coreActs core do
  let s ← Act.get
  let i := s.coreIssuer core
  if (pageOf a).isSome ∨ (Block.glb.base ≤ a ∧ a < 0x0E0010000000) then
    if write then busWriteX {} core a size (BitVec.ofNat 64 value) else busRead core a size
  else if 0x200000000000 ≤ a ∧ a < 0x400000000000 then
    boardAccess core a size false write value
  else match corePlace a, i.part with
    | none, _ => coreFault core i a write 0x06
    | some (sp, ad), some p => coreServe core i p sp ad a size write value
    | some (sp, ad), none =>
      if i.hay then haywardServe core i sp ad a size write value else coreFault core i a write 0x06

/-! ## Writes that replace one field of a register -/

/-- A core writes a register back with one field replaced. -/
def busField (core a : Nat) (f : Fld) (n : Nat) : Act Unit := do
  busWriteX {} core a 8 (putFld (← rdR a) f n)

/-- A core writes SEC_CMD (R402). -/
def secWrite (core op space arg : Nat) : Act Unit := busWrite core R.SEC_CMD (op * 2 ^ 56 + space % 4 * 2 ^ 48 + arg % 2 ^ 48)

/-- A core gives SEC_CMD a lifecycle record of a kind (R396). -/
def lifecycleWrite (core kind space arg : Nat) : Act Unit := do
  let found ← rd (fun s =>
    if space % 4 = 1 then (match s.coreAct core with
      | some p => (match s.gBytes p arg 1 with
        | .ok b => some (leNat b)
        | .error _ => none)
      | none => none)
    else some (s.memNum (2 ^ 36 + arg) 1))
  if found = some kind then secWrite core 4 space arg

/-- A package reset by the hayward, and what its boot meets (R433, R437). -/
def packageReset (core op : Nat) (env : BootEnv) : Act Unit := do
  if (← rd (fun s => s.coreIssuer core)).hay then modLand (fun x => { x with env := env })
  busWrite core R.HAY_RESET (op * 2 ^ 56)

/-! ## Packets no other command takes (R331) -/

/-- UNDEFINED_PACKET_DISCARD: a packet that the checks of R331 turn away leaves nothing but its counts. -/
def discardPacket (r : RxPacket) : Act Unit := do
  let s ← Act.get
  if s.portState r.port ≠ 2 && s.portState r.port ≠ 3 then return
  match s.checkPacket r with
  | .ok _ => skip
  | .transit => sendOn r
  | c =>
    takePacket r
    dropPacket r c

/-- A link event that may leave its port FAILED (R325). -/
def linkEvent (k : Nat) (a : Act Bool) : Act Unit := do
  if ← a then portLost k

end Sys2Proof.Machine
end

