-- ==== Sys2Proof/Machine/Tick.lean ====
section
/-! DEFINITION. The tick edge with its six positions (R61, R62), and what fabric time does while no command waits (R53).
Where the spec is open: DEDUCED 69, DESIGN CHOICE 2, 24 and 128 of the assumption log. -/

namespace Sys2Proof.Machine

/-- `n` microseconds of fabric time have passed: the counters that count microseconds (R78, R318, R424, R457, R482). -/
def elapse (n : Nat) : Act Unit := do
  if n = 0 then return
  powerMicrosecond n
  thresholdMicrosecond n
  tileWaits n
  let s ← Act.get
  if s.fldOf R.TIM_SYNC_STATUS F.TIM_SYNC_STATUS.state = 3 then count C.TIM_CNT_HOLDOVER_US n
  if s.now < s.land.pauseUntil then count C.MGT_CNT_PAUSE_US n
  if s.land.txq ≠ [] then count C.MGT_CNT_TXQ (s.land.txq.length * n)
  admitWaits n
  commitWaits n
  placeWaits n
  streamWaits n
  holdWaits n
  flashWaits n
  migProgress
  bringUpTime n
  linkWaits n
  qpWaits
  for p in [0, 1] do
    let k := (s.load.reads.filter (fun r => bits (s.wordAt (qpKey r.qp 0)).toNat 6 6 = p)).length
    if k ≠ 0 then count (C.BIN_CNT_READS p) (k * n)

/-- Fabric time comes to `t`, if it is not there yet. -/
def clockTo (t : Nat) : Act Unit := do
  let now ← rd State.now
  if now < t then
    wrR R.TIM_NOW (BitVec.ofNat 64 t)
    modTime (fun x => { x with frac := 0 })
    elapse (t / 1000 - now / 1000)

/-- The epoch moves with a period that has taken effect at tick `n`, and the next tick is one period on (R61). -/
def tickNext (n boundary : Nat) (newPeriod : Bool) : Act Unit := do
  if newPeriod then
    wrF R.TIM_EPOCH_TICK F.TIM_EPOCH_TICK.tick n
    wrR R.TIM_EPOCH_TIME (BitVec.ofNat 64 boundary)
  let p ← rd State.periodNs
  modTime (fun x => { x with nextTick := (n + 1) % 2 ^ 48, nextTime := boundary + p })

/-- A step that is due but held by its copies waits a tick (R69). -/
def stepWaits (p : Nat) : Act Unit := do
  let s ← Act.get
  if s.phase p = 2 ∧ !(s.part p).cows.isEmpty ∧ s.fldOf (R.REQ_STEP_ARM p) F.REQ_STEP_ARM.start_tick ≤ s.tick then
    count (C.TIM_CNT_STEP_WAIT p) 1

/-- TICK_EDGE (R62): 100 ns after the boundary of the next tick, its six positions in order. `calFailed` and `skewOk` are what
the windows that open at zero offset meet (R348, R419). -/
def tickEdge (calFailed : List Nat) (skewOk : Bool) : Act Unit := do
  let s ← Act.get
  if !s.run then return
  let n := s.time.nextTick
  let boundary := s.time.nextTime
  let period := s.periodNs
  clockTo (boundary + 100)
  msgTaken
  wrF R.TIM_TICK_NOW F.TIM_TICK_NOW.tick n
  wrR R.TIM_TICK_TIME (BitVec.ofNat 64 boundary)
  count C.TIM_CNT_TICKS 1
  for k in List.range 17 do modSite k (fun x => { x with rebuilds := [] })
  flashTick
  for t in s.tiles.map (·.1) do modTile t (fun x => { x with ces := 0 })
  -- 1
  snapshots n boundary
  -- 2
  let l ← stagedApply n (fun a => !grantAddr a)
  mapsTookEffect l
  tickNext n boundary (decide ((← rd State.periodNs) ≠ period))
  -- 3
  powerEdge
  for c in List.range 12 do
    biasEdge c
    biasUpdate c
  -- 4
  let g ← stagedApply n grantAddr
  grantsTookEffect g
  mapsJudge
  migCutover
  for p in List.range 32 do creditGrow p
  -- 5
  for p in List.range 32 do
    stepWaits p
    stepStart p
    colLaunches p 256
  -- 6
  gleansAtEdge calFailed skewOk
  milestonesCheck

/-- GLEAN_OPEN (R74): the start offset of an entry of the current tick has come. -/
def gleanStarts (n : Nat) (calFailed : List Nat) (skewOk : Bool) : Act Unit := do
  let s ← Act.get
  if s.run && s.glStatus n = 1 && s.glTick n = s.tick then
    clockTo ((s.reg R.TIM_TICK_TIME).toNat + s.glF n F.TIM_GLEAN_DESC.offset_us * 1000)
    gleanOpen n calFailed skewOk

/-- GLEAN_CLOSE (R74): an open window has come to its end. -/
def gleanEnds (n : Nat) (e : GleanEnd) : Act Unit := do
  let s ← Act.get
  if s.glStatus n = 2 then
    if s.glTick n = s.tick then
      clockTo ((s.reg R.TIM_TICK_TIME).toNat + (s.glF n F.TIM_GLEAN_DESC.offset_us + s.glLength n) * 1000)
    gleanClose n e

/-- What the package does while no command waits: one clock of fabric time, with the tick edge and the ends of quenches that
fall due (R53, R62, R343). The windows of that edge find every sensor calibrated and every skew verified. -/
def idleStep : Act Unit := do
  let before ← rd State.now
  clockTick
  mgtDrain
  elapse ((← rd State.now) / 1000 - before / 1000)
  for p in List.range 32 do quenchExpire p
  let s ← Act.get
  if s.run && decide (s.time.nextTime + 100 ≤ s.now) then tickEdge [] true

end Sys2Proof.Machine
end

