-- ==== Sys2Proof/Machine/CmdBus.lean ====
section
/-! DEFINITION. The meanings of the commands: register accesses of the on-chip bus, pages, locks, staging and doorbells.
Each is the script of its row's rules, run on the state. Where the spec is open: DESIGN CHOICE 133 of the assumption log.
-/

namespace Sys2Proof.Machine

/-- REGISTER_WRITE (R487). A 64-bit write to a register that has no row of its own is checked for owner, lock, access
code, range and alignment, then applied or refused. -/
def execRegisterWrite (core : CoreId) (addr : BitVec 64) (width : Nat) (value : Word) (s : State) : Host.Outcome State Fault Refusal :=
  .next (Act.run (busWriteX {} core addr.toNat width value) s)

/-- REGISTER_READ (R10). A 64-bit read of a register page is served, or refused for owner, access code, width,
reserved offset or disabled unit, and the refusal is recorded in ERR_ADDR, ERR_INFO and the violation log. -/
def execRegisterRead (core : CoreId) (addr : BitVec 64) (width : Nat) (s : State) : Host.Outcome State Fault Refusal :=
  .next (Act.run (busRead core addr.toNat width) s)

/-- TIM_NOW_READ (R78). A read of TIM_NOW returns fabric time and latches its fraction into TIM_NOW_FRAC. -/
def execTimNowRead (core : CoreId) (s : State) : Host.Outcome State Fault Refusal :=
  .next (Act.run (busRead core R.TIM_NOW 8) s)

/-- PAGE_ENABLE (R14). A write of PAGE_CTRL.enable takes a unit of a block out of service after its work in hand, or
returns it to service. -/
def execPageEnable (core : CoreId) (page : Fin 32896) (value : Word) (s : State) : Host.Outcome State Fault Refusal :=
  .next (Act.run (busWriteX {} core (winPage page + 0x10) 8 value) s)

/-- PAGE_QUIESCE (R14). A write of PAGE_CTRL.quiesce makes the unit finish work in hand and take no new work, or
resumes it. -/
def execPageQuiesce (core : CoreId) (page : Fin 32896) (value : Word) (s : State) : Host.Outcome State Fault Refusal :=
  .next (Act.run (busWriteX {} core (winPage page + 0x10) 8 value) s)

/-- QUIESCE_COMPLETE (R14). Once no work is in hand under quiesce, PAGE_STATUS.quiesced sets and a tile goes to
QUIESCED. -/
def execQuiesceComplete (page : Fin 32896) (s : State) : Host.Outcome State Fault Refusal :=
  .next (Act.run (mains (quiesceComplete (winPage page))) s)

/-- PAGE_LOCK_WRITE (R16). A write of PAGE_LOCK sets the lock at any time; a partition's attempt to clear it is
refused. -/
def execPageLockWrite (core : CoreId) (page : Fin 32896) (value : Word) (s : State) : Host.Outcome State Fault Refusal :=
  .next (Act.run (busWriteX {} core (winPage page + 0x28) 8 value) s)

/-- SCHED_TICK_WRITE (R66). A write of SCHED_TICK sets the staging tick, or with 0 discards every staged value;
another value while staged writes are pending is refused. -/
def execSchedTickWrite (core : CoreId) (page : Fin 32896) (value : Word) (s : State) : Host.Outcome State Fault Refusal :=
  .next (Act.run (busWriteX {} core (winPage page + 0x50) 8 value) s)

/-- STAGED_WRITE (R64). A write to an RWT register while the tick generator runs stores a staged value and sets
staged_pending; while stopped it takes effect at once. -/
def execStagedWrite (core : CoreId) (addr : BitVec 64) (value : Word) (s : State) : Host.Outcome State Fault Refusal :=
  .next (Act.run (busWriteX {} core addr.toNat 8 value) s)

/-- DOORBELL_PRODUCER (R183). A doorbell of kind 0 sets a new producer index for a submission, DMA or message ring
after its checks. -/
def execDoorbellProducer (core : CoreId) (ring : Fin 65536) (index : BitVec 32) (s : State) : Host.Outcome State Fault Refusal :=
  .next (Act.run (busWrite core (pageBase .dbl (ring / 512) + 8 * (ring % 512)) index.toNat) s)

/-- DOORBELL_CONSUMER (R183). A doorbell of kind 1 sets a new consumer index for a completion or token output ring,
freeing ring room. -/
def execDoorbellConsumer (core : CoreId) (ring : Fin 65536) (index : BitVec 32) (s : State) : Host.Outcome State Fault Refusal :=
  .next (Act.run (busWrite core (pageBase .dbl (ring / 512) + 8 * (ring % 512)) (2 ^ 62 + index.toNat)) s)

end Sys2Proof.Machine
end

