-- ==== Sys2Proof/Machine/CmdCollective.lean ====
section
/-! DEFINITION. The meanings of the commands: collectives. Each is the script of its row's rules, run on the
state. -/

namespace Sys2Proof.Machine

/-- CLQ_TAIL_WRITE (R356). A write of PRT_CLQ_TAIL adds collective entries. -/
def execClqTailWrite (core : CoreId) (p : PartId) (tail : BitVec 32) (s : State) : Host.Outcome State Fault Refusal :=
  .next (Act.run (busWrite core (R.PRT_CLQ_TAIL p) tail.toNat) s)

/-- ALLREDUCE (R355). An ALLREDUCE entry launches at its tick and sums every member's input. -/
def execAllreduce (p : PartId) (s : State) : Host.Outcome State Fault Refusal :=
  .next (Act.run (mains (served (colOp p 1))) s)

/-- REDUCE_SCATTER (R355). A REDUCE_SCATTER entry launches and delivers each member its share of sum chunks. -/
def execReduceScatter (p : PartId) (s : State) : Host.Outcome State Fault Refusal :=
  .next (Act.run (mains (served (colOp p 2))) s)

/-- ALLGATHER (R355). An ALLGATHER entry launches and delivers all inputs in member order. -/
def execAllgather (p : PartId) (s : State) : Host.Outcome State Fault Refusal :=
  .next (Act.run (mains (served (colOp p 3))) s)

/-- BROADCAST (R355). A BROADCAST entry launches and delivers the root's input. -/
def execBroadcast (p : PartId) (s : State) : Host.Outcome State Fault Refusal :=
  .next (Act.run (mains (served (colOp p 4))) s)

/-- COL_READY (R357). With wait_ready, once the ready word reaches its value the engine sends the input chunks. -/
def execColReady (p : PartId) (index : Nat) (s : State) : Host.Outcome State Fault Refusal :=
  .next (Act.run (mains (served (colReady p index))) s)

/-- COL_OUT (R362). A result chunk packet is written to dst and the chunk accepted when complete and its CRC matches.
-/
def execColOut (pkt : RxPacket) (s : State) : Host.Outcome State Fault Refusal :=
  .next (Act.run (mains (served (colOut pkt))) s)

/-- COL_RESEND (R362). A COL_RESEND makes the engine read and send an input chunk again. -/
def execColResend (pkt : RxPacket) (s : State) : Host.Outcome State Fault Refusal :=
  .next (Act.run (mains (served (colResend pkt))) s)

/-- COL_DONE (R367). A plane's COL_DONE arrives, and once all planes have answered the record and done signal are
written. -/
def execColDone (pkt : RxPacket) (s : State) : Host.Outcome State Fault Refusal :=
  .next (Act.run (mains (served (colDone pkt))) s)

/-- COL_TIMEOUT (R367). No record within col_timeout_us ends the collective TIMEOUT and sends COL_ABORT. -/
def execColTimeout (p : PartId) (index : Nat) (s : State) : Host.Outcome State Fault Refusal :=
  .next (Act.run (mains (colTimeout p index)) s)

/-- COL_ABORT (R369). A write of PRT_COL_ABORT ends every open and queued collective of the partition ABORTED. -/
def execColAbort (core : CoreId) (p : PartId) (s : State) : Host.Outcome State Fault Refusal :=
  .next (Act.run (busWrite core (R.PRT_COL_ABORT p) 1) s)

end Sys2Proof.Machine
end

