-- ==== Sys2Proof/Machine/CmdFabric.lean ====
section
/-! DEFINITION. The meanings of the commands: the switch fabric, the board mesh and its packets. Each is the script of its row's rules, run on the
state. -/

namespace Sys2Proof.Machine

/-- PORT_ENABLE (R325). A write of PORT_CTRL.enable trains a port or link, or takes it DOWN emptying its buffers. -/
def execPortEnable (core : CoreId) (port : PortId) (on : Bool) (s : State) : Host.Outcome State Fault Refusal :=
  .next (Act.run (busField core (R.PORT_CTRL port) F.PORT_CTRL.enable (b2n on)) s)

/-- LINK_TRAIN_PASS (R325). Training or retraining passes and the port goes UP, exchanging credits or replaying. -/
def execLinkTrainPass (port : PortId) (alloc : Word) (s : State) : Host.Outcome State Fault Refusal :=
  .next (Act.run (mains (do trainPass port alloc; milestonesCheck)) s)

/-- LINK_TRAIN_TIMEOUT (R325). Training not passed within 100 ms, or retraining beyond its limits, makes the port
FAILED. -/
def execLinkTrainTimeout (port : PortId) (s : State) : Host.Outcome State Fault Refusal :=
  .next (Act.run (mains (linkEvent port (trainTimeout port))) s)

/-- LINK_FLIT_RX (R324). A received data flit is accepted in sequence or answered with a nak. -/
def execLinkFlitRx (port : PortId) (bytes : List Byte) (fecBad : Bool) (s : State) : Host.Outcome State Fault Refusal :=
  .next (Act.run (mains (linkEvent port (flitRx port bytes fecBad))) s)

/-- LINK_NAK (R324). A received nak makes the sender replay from the named flit, entering RETRAIN after retry_limit.
-/
def execLinkNak (port : PortId) (ack : BitVec 12) (s : State) : Host.Outcome State Fault Refusal :=
  .next (Act.run (mains (linkEvent port (takeNak port ack.toNat))) s)

/-- LINK_REPLAY_TIMEOUT (R324). The oldest unacknowledged flit waiting replay_timeout makes the sender replay. -/
def execLinkReplayTimeout (port : PortId) (s : State) : Host.Outcome State Fault Refusal :=
  .next (Act.run (mains (linkEvent port (replayTimeout port))) s)

/-- LANE_FAIL (R346). A lane exceeding its error rate or losing lock is swapped for the spare, or the port falls to
half width or fails. -/
def execLaneFail (port : PortId) (lane : Fin 9) (s : State) : Host.Outcome State Fault Refusal :=
  .next (Act.run (mains (linkEvent port (laneFailed port lane))) s)

/-- SPARE_SWAP_DONE (R346). At the agreed codeword boundary both receivers take the spare and the failed lane leaves
service. -/
def execSpareSwapDone (port : PortId) (s : State) : Host.Outcome State Fault Refusal :=
  .next (Act.run (mains (swapDone port)) s)

/-- LINK_DELAY_MEASURE (R349). Every 1 ms timestamped link management flits set LINK_DELAY. -/
def execLinkDelayMeasure (port : PortId) (t1 : BitVec 64) (t2 : BitVec 64) (t3 : BitVec 64) (t4 : BitVec 64) (s : State) : Host.Outcome State Fault Refusal :=
  .next (Act.run (mains (delayMeasured port t1.toNat t2.toNat t3.toNat t4.toNat)) s)

/-- LINK_MANAGEMENT_REQUEST (R346). A link management request from the peer to swap a lane to the spare, after a peer-
detected lane failure or in the peer's glean window, is agreed and both ends send the lane's data on the spare as
well. -/
def execLinkManagementRequest (port : PortId) (lane : Fin 9) (s : State) : Host.Outcome State Fault Refusal :=
  .next (Act.run (mains (swapRequest port lane)) s)

/-- TRANSIT_FLIT (R336). A VL5 flit for another package is forwarded on the next link of its path. -/
def execTransitFlit (link : Fin 4) (sop : Bool) (eop : Bool) (payload : List Byte) (s : State) : Host.Outcome State Fault Refusal :=
  .next (Act.run (mains (transitFlit (8 + link) sop eop payload)) s)

/-- QUENCH (R343). A QUENCH command stops new packets of the target partitions on VL1, VL2 and VL4. -/
def execQuench (pkt : RxPacket) (s : State) : Host.Outcome State Fault Refusal :=
  .next (Act.run (mains (commandPacket 0x11 pkt)) s)

/-- UNQUENCH (R343). An UNQUENCH command clears the quench and paused work resumes. -/
def execUnquench (pkt : RxPacket) (s : State) : Host.Outcome State Fault Refusal :=
  .next (Act.run (mains (commandPacket 0x12 pkt)) s)

/-- DRAIN (R343). A DRAIN command clears admit_enable and sets drain on the partition. -/
def execDrain (pkt : RxPacket) (s : State) : Host.Outcome State Fault Refusal :=
  .next (Act.run (mains (commandPacket 0x13 pkt)) s)

/-- PSTOP (R343). A PSTOP command quenches without end, drains and interrupts the hayward. -/
def execPstop (pkt : RxPacket) (s : State) : Host.Outcome State Fault Refusal :=
  .next (Act.run (mains (commandPacket 0x14 pkt)) s)

/-- QUENCH_EXPIRE (R343). A quench with a duration ends when duration_us elapses. -/
def execQuenchExpire (p : PartId) (s : State) : Host.Outcome State Fault Refusal :=
  .next (Act.run (mains (quenchExpire p)) s)

/-- QUENCH_CLEAR (R343). A write of FAB_QUENCH_CLEAR ends the quench of the named partitions. -/
def execQuenchClear (core : CoreId) (parts : BitVec 32) (s : State) : Host.Outcome State Fault Refusal :=
  .next (Act.run (busWrite core R.FAB_QUENCH_CLEAR parts.toNat) s)

/-- PUT (R334). A received PUT is translated into its partition and written, tracked by tag. -/
def execPut (pkt : RxPacket) (s : State) : Host.Outcome State Fault Refusal :=
  .next (Act.run (mains (served (putPacket pkt))) s)

/-- PUT_END (R334). A PUT_END is answered with written after the signal, resend or refused. -/
def execPutEnd (pkt : RxPacket) (s : State) : Host.Outcome State Fault Refusal :=
  .next (Act.run (mains (served (putEnd pkt))) s)

/-- PUT_DONE (R334). A PUT_DONE makes the sender write its local signal, resend the entry, or report an error. -/
def execPutDone (pkt : RxPacket) (s : State) : Host.Outcome State Fault Refusal :=
  .next (Act.run (mains (served (putDone pkt))) s)

/-- PUT_TIMEOUT (R334). No PUT_DONE within put_timeout makes the sender resend, up to three times. -/
def execPutTimeout (tag : Nat) (s : State) : Host.Outcome State Fault Refusal :=
  .next (Act.run (mains (putTimeout tag)) s)

/-- BOARD_LOAD (R340). A control-core load in board address space becomes a BLD and waits for its BRSP. -/
def execBoardLoad (core : CoreId) (addr : BitVec 64) (size : Nat) (atomic : Bool) (s : State) : Host.Outcome State Fault Refusal :=
  .next (Act.run (mains (served (boardAccess core addr.toNat size atomic false 0))) s)

/-- BOARD_STORE (R340). A control-core store in board address space is posted as a BST. -/
def execBoardStore (core : CoreId) (addr : BitVec 64) (size : Nat) (atomic : Bool) (value : Word) (s : State) : Host.Outcome State Fault Refusal :=
  .next (Act.run (mains (served (boardAccess core addr.toNat size atomic true value.toNat))) s)

/-- BLD (R340). A received BLD is checked and answered with data or a refusal in a BRSP. -/
def execBld (pkt : RxPacket) (s : State) : Host.Outcome State Fault Refusal :=
  .next (Act.run (mains (served (boardServe 0x28 false pkt))) s)

/-- BST (R340). A received BST is checked, written and answered with a BRSP. -/
def execBst (pkt : RxPacket) (s : State) : Host.Outcome State Fault Refusal :=
  .next (Act.run (mains (served (boardServe 0x29 true pkt))) s)

/-- BRSP (R340). A BRSP completes a board access or faults the issuing core. -/
def execBrsp (pkt : RxPacket) (s : State) : Host.Outcome State Fault Refusal :=
  .next (Act.run (mains (boardAnswer pkt)) s)

/-- MIRROR (R441). A MIRROR packet writes journal bytes into the buddy's mirror region, or is discarded. -/
def execMirror (pkt : RxPacket) (s : State) : Host.Outcome State Fault Refusal :=
  .next (Act.run (mains (served (mirrorPacket pkt))) s)

/-- UNDEFINED_PACKET_DISCARD (R331). A fabric packet with an undefined type, a bad end-to-end CRC, or a foreign
destination off VL5 is discarded, its credits returned and CNT_E2E_BAD or CNT_KEY_DROP counted. -/
def execUndefinedPacketDiscard (pkt : RxPacket) (s : State) : Host.Outcome State Fault Refusal :=
  .next (Act.run (mains (discardPacket pkt)) s)

end Sys2Proof.Machine
end

