-- ==== Sys2Proof/Machine/CmdFlash.lean ====
section
/-! DEFINITION. The meanings of the commands: flash. Each is the script of its row's rules, run on the
state. -/

namespace Sys2Proof.Machine

/-- FLQ_TAIL_WRITE (R274). A write of PRT_FLQ_TAIL adds flash commands, refused when backwards or over the queue size.
-/
def execFlqTailWrite (core : CoreId) (p : PartId) (tail : BitVec 32) (s : State) : Host.Outcome State Fault Refusal :=
  .next (Act.run (busWrite core (R.PRT_FLQ_TAIL p) tail.toNat) s)

/-- FLASH_READ (R274). A flash READ command moves units from flash to GDDR7 through the map. -/
def execFlashRead (p : PartId) (s : State) : Host.Outcome State Fault Refusal :=
  .next (Act.run (mains (served (flStart p 1))) s)

/-- FLASH_WRITE (R277). A flash WRITE command programs units from GDDR7 and updates the map after programming. -/
def execFlashWrite (p : PartId) (s : State) : Host.Outcome State Fault Refusal :=
  .next (Act.run (mains (served (flStart p 2))) s)

/-- FLASH_TRIM (R274). A flash TRIM command unmaps units. -/
def execFlashTrim (p : PartId) (s : State) : Host.Outcome State Fault Refusal :=
  .next (Act.run (mains (served (flStart p 3))) s)

/-- FLASH_CMD_DONE (R274). A flash command ends with its status and signal. -/
def execFlashCmdDone (p : PartId) (s : State) : Host.Outcome State Fault Refusal :=
  .next (Act.run (mains (served (flashCmdDone p))) s)

/-- HARD_DECODE (R278). In each 250 ns slot a hard-mode decoder takes a waiting codeword round-robin and decodes it.
-/
def execHardDecode (dec : Fin 4) (fails : Bool) (corrected : Nat) (s : State) : Host.Outcome State Fault Refusal :=
  .next (Act.run (mains (served (hardDecode dec fails corrected))) s)

/-- SOFT_DECODE (R279). A codeword failing hard decoding runs read-retry levels in soft mode until it decodes or is
uncorrectable. -/
def execSoftDecode (dec : Fin 4) (decodes : Bool) (s : State) : Host.Outcome State Fault Refusal :=
  .next (Act.run (mains (served (softDecode dec decodes))) s)

/-- PROGRAM_DONE (R277). The device reports a program pass and the page leaves the write buffer. -/
def execProgramDone (chan : Fin 16) (s : State) : Host.Outcome State Fault Refusal :=
  .next (Act.run (mains (served (programDone chan))) s)

/-- PROGRAM_FAIL (R277). A program or erase failure retires the block as grown bad and relocates its data. -/
def execProgramFail (chan : Fin 16) (erased : Option Nat) (s : State) : Host.Outcome State Fault Refusal :=
  .next (Act.run (mains (programFail chan erased)) s)

/-- REFRESH_BLOCK (R281). A block on the refresh list has its valid units relocated and is erased. -/
def execRefreshBlock (block : Nat) (s : State) : Host.Outcome State Fault Refusal :=
  .next (Act.run (mains (refreshBlock block)) s)

/-- GC_RELOCATE (R282). Garbage collection copies a unit and updates its map entry only if it still holds the old PCA.
-/
def execGcRelocate (unit : Nat) (s : State) : Host.Outcome State Fault Refusal :=
  .next (Act.run (mains (gcRelocate unit)) s)

/-- WEAR_LEVEL_MOVE (R283). When erase counts spread beyond wl_pct the least-worn block's units move to the most-worn
free block. -/
def execWearLevelMove (chan : Fin 16) (s : State) : Host.Outcome State Fault Refusal :=
  .next (Act.run (mains (wearMove chan)) s)

/-- MAP_CHECKPOINT (R288). When the map log passes 1 GiB a full map checkpoint is written and a new log started. -/
def execMapCheckpoint (s : State) : Host.Outcome State Fault Refusal :=
  .next (Act.run (mains mapCheckpoint) s)

/-- MAP_REBUILD_DONE (R288). The flash map rebuild from checkpoint and log ends and map_ready sets. -/
def execMapRebuildDone (s : State) : Host.Outcome State Fault Refusal :=
  .next (Act.run (mains (do mapRebuildDone; milestonesCheck)) s)

end Sys2Proof.Machine
end

