-- ==== Sys2Proof/Machine/CmdGlean.lean ====
section
/-! DEFINITION. The meanings of the commands: gleans. Each is the script of its row's rules, run on the
state. -/

namespace Sys2Proof.Machine

/-- GLEAN_POST (R73). A write of a glean descriptor with status POSTED is accepted and increments seq, or is REFUSED
for lead or overlap. -/
def execGleanPost (core : CoreId) (entry : Fin 64) (value : Word) (s : State) : Host.Outcome State Fault Refusal :=
  .next (Act.run (busWriteX {} core (R.TIM_GLEAN_DESC entry) 8 (putFld value F.TIM_GLEAN_DESC.status 1)) s)

/-- GLEAN_CANCEL (R75). Setting cancel on a POSTED glean entry moves it to CANCELLED and keeps its resource in
service. -/
def execGleanCancel (core : CoreId) (entry : Fin 64) (s : State) : Host.Outcome State Fault Refusal :=
  .next (Act.run (busField core (R.TIM_GLEAN_DESC entry) F.TIM_GLEAN_DESC.cancel 1) s)

/-- GLEAN_OPEN (R74). At its start offset a glean window takes its resource out of service for calibration, or goes
SKIPPED if the resource is already out of service. -/
def execGleanOpen (entry : Fin 64) (calFailed : List TileId) (skewOk : Bool) (s : State) : Host.Outcome State Fault Refusal :=
  .next (Act.run (mains (gleanStarts entry (calFailed.map (·.val)) skewOk)) s)

/-- GLEAN_CLOSE (R74). At its end a glean window returns the resource to service, abandoning unfinished calibration,
and held requests are served in order. -/
def execGleanClose (entry : Fin 64) (finished : Bool) (verified : Bool) (temp : BitVec 8) (chan : Fin 4) (scanned : Nat) (refresh : List Nat) (s : State) : Host.Outcome State Fault Refusal :=
  .next (Act.run (mains (gleanEnds entry { finished := finished, verified := verified, temp := temp.toNat, chan := chan, scanned := scanned, refresh := refresh })) s)

/-- GLEAN_SWAP_BACK (R348). In the last 40 us of a lane window the lane takes its traffic back from the spare after
verifying its recorded skew. -/
def execGleanSwapBack (entry : Fin 64) (skewOk : Bool) (s : State) : Host.Outcome State Fault Refusal :=
  .next (Act.run (mains (gleanSwapBack entry skewOk)) s)

end Sys2Proof.Machine
end

