-- ==== Sys2Proof/Machine/CmdMemory.lean ====
section
/-! DEFINITION. The meanings of the commands: GDDR7, write-back frames, cover and migration. Each is the script of its row's rules, run on the
state. -/

namespace Sys2Proof.Machine

/-- GDDR7_READ (R244). A sector read is checked by CRC and on-die ECC, retried, rebuilt from parity or answered with
an error. -/
def execGddr7Read (src : BitVec 16) (p : PartId) (addr : BitVec 40) (crcFails : Nat) (corrected : Bool) (uncorrectable : Bool) (bad : Nat) (s : State) : Host.Outcome State Fault Refusal :=
  .next (Act.run (mains (gddrRead src.toNat p addr.toNat { crcFails := crcFails, corrected := corrected, uncorrectable := uncorrectable, bad := bad })) s)

/-- GDDR7_WRITE (R246). A write goes as a full stripe or a read-modify-write keeping lane parity. -/
def execGddr7Write (src : BitVec 16) (p : PartId) (addr : BitVec 40) (bytes : List Byte) (s : State) : Host.Outcome State Fault Refusal :=
  .next (Act.run (mains (gddrWrite src.toNat p addr.toNat bytes)) s)

/-- SITE_FAIL (R449). A GDDR7 site lost outright has its position marked absent and its granules answer errors and
become invalid. -/
def execSiteFail (site : Fin 17) (s : State) : Host.Outcome State Fault Refusal :=
  .next (Act.run (mains (siteFail site)) s)

/-- SCRUB_STRIPE (R247). The patrol scrub reads a stripe in idle cycles and records a parity mismatch. -/
def execScrubStripe (site : Fin 17) (stripe : Nat) (deviceError : Bool) (s : State) : Host.Outcome State Fault Refusal :=
  .next (Act.run (mains (scrubStripe site stripe deviceError)) s)

/-- RETRAIN_DUE (R258). A site temperature change beyond temp_delta since its last training sets retrain_due. -/
def execRetrainDue (site : Fin 17) (temp : BitVec 8) (s : State) : Host.Outcome State Fault Refusal :=
  .next (Act.run (mains (retrainDue site temp.toNat)) s)

/-- COVER_CATCHUP (R260). After a window closes the controller copies marked units between site 16 and the position.
-/
def execCoverCatchup (pos : Fin 16) (s : State) : Host.Outcome State Fault Refusal :=
  .next (Act.run (mains (coverCatchup pos)) s)

/-- WB_LOAD (R252). A write-back LOAD command reads the home into the SRAM frame, clears dirty and sets valid. -/
def execWbLoad (core : CoreId) (tile : TileId) (frame : Fin 64) (sig : BitVec 19) (s : State) : Host.Outcome State Fault Refusal :=
  .next (Act.run (busWrite core (R.TILE_WB_CMD tile) (0 * 2 ^ 62 + frame * 2 ^ 48 + sig.toNat)) s)

/-- WB_FLUSH (R252). A write-back FLUSH command writes dirty sectors to the home, compressed if required. -/
def execWbFlush (core : CoreId) (tile : TileId) (frame : Fin 64) (sig : BitVec 19) (s : State) : Host.Outcome State Fault Refusal :=
  .next (Act.run (busWrite core (R.TILE_WB_CMD tile) (1 * 2 ^ 62 + frame * 2 ^ 48 + sig.toNat)) s)

/-- WB_EVICT (R252). A write-back EVICT command flushes the frame and clears valid. -/
def execWbEvict (core : CoreId) (tile : TileId) (frame : Fin 64) (sig : BitVec 19) (s : State) : Host.Outcome State Fault Refusal :=
  .next (Act.run (busWrite core (R.TILE_WB_CMD tile) (2 * 2 ^ 62 + frame * 2 ^ 48 + sig.toNat)) s)

/-- WB_DISCARD (R252). A write-back DISCARD command clears valid and dirty without a write. -/
def execWbDiscard (core : CoreId) (tile : TileId) (frame : Fin 64) (sig : BitVec 19) (s : State) : Host.Outcome State Fault Refusal :=
  .next (Act.run (busWrite core (R.TILE_WB_CMD tile) (3 * 2 ^ 62 + frame * 2 ^ 48 + sig.toNat)) s)

/-- WB_COMMAND_DONE (R252). A write-back command completes and its completion count is written to its signal word. -/
def execWbCommandDone (tile : TileId) (s : State) : Host.Outcome State Fault Refusal :=
  .next (Act.run (mains (served (wbDone tile))) s)

/-- WRITE_THROUGH_FLUSH (R253). With wt set, a sector that becomes dirty is flushed at once in sector order. -/
def execWriteThroughFlush (tile : TileId) (frame : Fin 64) (s : State) : Host.Outcome State Fault Refusal :=
  .next (Act.run (mains (served (writeThrough tile frame))) s)

/-- MIG_START (R261). A write of GDC_MIG_CTRL.start begins copying a site to site 16, ending the cover. -/
def execMigStart (core : CoreId) (site : Fin 17) (s : State) : Host.Outcome State Fault Refusal :=
  .next (Act.run (busField core (R.GDC_MIG_CTRL site) F.GDC_MIG_CTRL.start 1) s)

/-- MIG_ABORT (R263). A write of GDC_MIG_CTRL.abort stops the copy and returns site 16 to FALLOW. -/
def execMigAbort (core : CoreId) (site : Fin 17) (s : State) : Host.Outcome State Fault Refusal :=
  .next (Act.run (busField core (R.GDC_MIG_CTRL site) F.GDC_MIG_CTRL.abort 1) s)

/-- MIG_COPY_DONE (R263). The last migration unit is copied and the position change is staged for the next tick edge.
-/
def execMigCopyDone (s : State) : Host.Outcome State Fault Refusal :=
  .next (Act.run (mains migCopyDone) s)

end Sys2Proof.Machine
end

