-- ==== Sys2Proof/Machine/CmdParts.lean ====
section
/-! DEFINITION. The meanings of the commands: partitions, tiles, cores and the mesh. Each is the script of its row's rules, run on the
state. -/

namespace Sys2Proof.Machine

/-- SELFTEST_START (R48). A hayward write of selftest_start on a tile in OFF or STANDBY starts the 30 ms short self-
test. -/
def execSelftestStart (core : CoreId) (tile : TileId) (s : State) : Host.Outcome State Fault Refusal :=
  .next (Act.run (busField core (pageBase .tile tile + 0x10) F.PAGE_CTRL.selftest_start 1) s)

/-- SELFTEST_DONE (R48). A tile's self-test ends and the tile goes ACTIVE if mapped, STANDBY if not, or FAILED. -/
def execSelftestDone (tile : TileId) (pass : Bool) (s : State) : Host.Outcome State Fault Refusal :=
  .next (Act.run (mains (selftestDone tile pass)) s)

/-- TILE_FAIL (R48). An uncorrectable SRAM word, router fault or engine self-check failure makes the tile FAILED and
abandons its in-flight descriptors. -/
def execTileFail (tile : TileId) (cause : Fin 3) (s : State) : Host.Outcome State Fault Refusal :=
  .next (Act.run (mains (tileFail tile cause)) s)

/-- CORE_FAIL (R42). A failed control core is replaced by its quarter's fallow core, hayward cores first. -/
def execCoreFail (core : CoreId) (s : State) : Host.Outcome State Fault Refusal :=
  .next (Act.run (mains (coreFail core)) s)

/-- MESH_INJECT (R34). A source router chooses a packet's route from the OUT list at injection, or holds or discards
it. -/
def execMeshInject (src : TileId) (x : Fin 24) (y : Fin 26) (load : MeshLoad) (request : Bool) (s : State) : Host.Outcome State Fault Refusal :=
  .next (Act.run (mains (meshInject { src := src, x := x, y := y, cls := load.cls, request := request, flits := load.flits, att := load.att })) s)

/-- MESH_HOLD_RELEASE (R37). After an OUT list change, a source releases held packets once every packet injected under
the old list is delivered. -/
def execMeshHoldRelease (hold : HoldEnd) (s : State) : Host.Outcome State Fault Refusal :=
  .next (Act.run (mains (meshRelease hold.src hold.clocks)) s)

/-- MESH_HOLD_TIMEOUT (R37). A hold lasting longer than hold_timeout sets PAGE_STATUS.fault while the hold continues.
-/
def execMeshHoldTimeout (s : State) : Host.Outcome State Fault Refusal :=
  .next (Act.run (mains meshTimeout) s)

end Sys2Proof.Machine
end

