-- ==== Sys2Proof/Machine/CmdPower.lean ====
section
/-! DEFINITION. The meanings of the commands: power, clocks and heat. Each is the script of its row's rules, run on the
state. -/

namespace Sys2Proof.Machine

/-- VF_STEP (R410). Every 20 us a walk moves one step, gliding the PLL and slewing CORE. -/
def execVfStep (s : State) : Host.Outcome State Fault Refusal :=
  .next (Act.run (mains vfStep) s)

/-- CURB_EDGE (R414). A qualified curb level rise engages the dividers and starts a walk to the new curb cap; a fall
acts at the next tick edge. -/
def execCurbEdge (level : Fin 4) (s : State) : Host.Outcome State Fault Refusal :=
  .next (Act.run (awake (curbEdge level)) s)

/-- DIVIDER_RELEASE (R415). Once the walk has settled the dividers release quarter by quarter 1 us apart. -/
def execDividerRelease (s : State) : Host.Outcome State Fault Refusal :=
  .next (Act.run (mains dividerRelease) s)

/-- CAP_GUARD (R412). An input average more than 2 percent over the cap engages every divider, or sets cap_unmet at
step 0. -/
def execCapGuard (s : State) : Host.Outcome State Fault Refusal :=
  .next (Act.run (mains capGuard) s)

/-- STAGE_FAIL (R406). A converter stage failure sets stage_fault, engages a divider on a third CORE failure, or fails
the package on other rails. -/
def execStageFail (rail : Fin 10) (s : State) : Host.Outcome State Fault Refusal :=
  .next (Act.run (mains (stageFail rail)) s)

/-- VIN_LOW (R407). VIN_MAIN below 38 V for 5 us acts as curb level 3. -/
def execVinLow (s : State) : Host.Outcome State Fault Refusal :=
  .next (Act.run (mains vinLow) s)

/-- VIN_RECOVER (R407). VIN_MAIN above 38.5 V for 1 ms lifts the low-input curb at the next tick edge. -/
def execVinRecover (s : State) : Host.Outcome State Fault Refusal :=
  .next (Act.run (mains vinRecover) s)

/-- VIN_LOSS (R407). VIN_MAIN below 34 V for 20 us or above 52 V for 1 us stops every VIN_MAIN rail and fails the
package. -/
def execVinLoss (s : State) : Host.Outcome State Fault Refusal :=
  .next (Act.run (vinLoss) s)

/-- DROOP (R418). A tile's droop detector doubles its clock period until the voltage has recovered for min_stretch
clocks. -/
def execDroop (tile : TileId) (stretched : Nat) (s : State) : Host.Outcome State Fault Refusal :=
  .next (Act.run (mains (droop tile stretched)) s)

/-- THERMAL_SAMPLE (R420). Every 10 us sensors are sampled, marking bad sensors and engaging throttle or blocking
boost. -/
def execThermalSample (quarter : Fin 4) (temps : List (Fin 156 × BitVec 16)) (s : State) : Host.Outcome State Fault Refusal :=
  .next (Act.run (mains (thermalSample quarter (temps.map (fun t => (t.1.val, t.2))))) s)

/-- THERMAL_TRIP (R421). A sensor at 115 C stops clocks, turns off rails except VDDQ_G and latches PWR_TRIP. -/
def execThermalTrip (s : State) : Host.Outcome State Fault Refusal :=
  .next (Act.run (mains thermalTrip) s)

/-- ENERGY_SAMPLE (R422). Every 1 us the input voltage and current are measured and integrated into PWR_ENERGY. -/
def execEnergySample (mw : BitVec 32) (core : List (BitVec 32)) (vin : BitVec 16) (s : State) : Host.Outcome State Fault Refusal :=
  .next (Act.run (awake (energySample mw.toNat (core.map (·.toNat)) vin.toNat)) s)

end Sys2Proof.Machine
end

