-- ==== Sys2Proof/Machine/CmdRequest.lean ====
section
/-! DEFINITION. The meanings of the commands: requests, steps, sharing and rings. Each is the script of its row's rules,
run on the state. Where the spec is open: DESIGN CHOICE 55 of the assumption log. -/

namespace Sys2Proof.Machine

/-- RING_CONTEXT_WRITE (R182). A write of a ring context word through REQ_RING_CTX, allowed only while the ring is
disabled. -/
def execRingContextWrite (core : CoreId) (p : PartId) (word : Fin 8) (value : Word) (s : State) : Host.Outcome State Fault Refusal :=
  .next (Act.run (busWriteX {} core (R.REQ_RING_CTX p word) 8 value) s)

/-- RING_IN (R184). A RING_IN packet writes submission entries and an optional doorbell as if the owning partition had
written them. -/
def execRingIn (pkt : RxPacket) (s : State) : Host.Outcome State Fault Refusal :=
  .next (Act.run (mains (served (ringIn pkt))) s)

/-- ADMISSION (R190). The engine takes a request message whole, checks it, allocates a slot and writes an ADMIT entry
to the journal and the buddy, or posts a refusal. -/
def execAdmission (hub : HubId) (s : State) : Host.Outcome State Fault Refusal :=
  .next (Act.run (mains (served (hubActs hub (admission hub)))) s)

/-- CANCEL (R204). A cancel message is examined against its slot and sets cancel_pending, changes the final status,
posts a reply or is ignored. -/
def execCancel (hub : HubId) (s : State) : Host.Outcome State Fault Refusal :=
  .next (Act.run (mains (served (hubActs hub (cancelMessage hub)))) s)

/-- MIRROR_CONF (R194). A MIRROR_CONF from the buddy confirms journal entries, releasing ACKs of admissions and queued
publications in order. -/
def execMirrorConf (pkt : RxPacket) (s : State) : Host.Outcome State Fault Refusal :=
  .next (Act.run (mains (served (mirrorConf pkt))) s)

/-- MIRROR_TIMEOUT (R194). With no confirmation within mirror_timeout_us the engine sets mirror_lost and holds
unconfirmed publications and admissions. -/
def execMirrorTimeout (p : PartId) (s : State) : Host.Outcome State Fault Refusal :=
  .next (Act.run (mains (mirrorTimeout p)) s)

/-- STEP_ARM (R196). A write of REQ_STEP_ARM names the start tick and builds the step's batch, including ling index
lookups, leases and copies. -/
def execStepArm (core : CoreId) (p : PartId) (give : List Nat) (value : Word) (s : State) : Host.Outcome State Fault Refusal :=
  .next (Act.run (busWriteX { give := give } core (R.REQ_STEP_ARM p) 8 value) s)

/-- COW_COPY_DONE (R175). A copy-on-write copy finishes, its leases are returned and a step waiting on it may start.
-/
def execCowCopyDone (p : PartId) (s : State) : Host.Outcome State Fault Refusal :=
  .next (Act.run (mains (served (cowDone p))) s)

/-- STEP_COMMIT (R199). A write of REQ_STEP_CTRL.commit checks the commit table and commits the step's tokens, ends,
cancels, deadlines, KV changes and journal entries. -/
def execStepCommit (core : CoreId) (p : PartId) (s : State) : Host.Outcome State Fault Refusal :=
  .next (Act.run (busWrite core (R.REQ_STEP_CTRL p) 1) s)

/-- COMMIT_RESUME (R195). A commit waiting in COMMITTING for journal room or a publication place continues once room
is made. -/
def execCommitResume (p : PartId) (s : State) : Host.Outcome State Fault Refusal :=
  .next (Act.run (mains (served (commitResume p))) s)

/-- STEP_ROLLBACK (R201). A write of REQ_STEP_CTRL.rollback resets speculative lengths, clears routing pending counts
and returns the phase to BUILT. -/
def execStepRollback (core : CoreId) (p : PartId) (s : State) : Host.Outcome State Fault Refusal :=
  .next (Act.run (busWrite core (R.REQ_STEP_CTRL p) 2) s)

/-- UNPARK (R202). A write of REQ_UNPARK returns a PARKED slot to its former state. -/
def execUnpark (core : CoreId) (p : PartId) (slot : Fin 16384) (s : State) : Host.Outcome State Fault Refusal :=
  .next (Act.run (busWrite core (R.REQ_UNPARK p) slot) s)

/-- LIST_RELEASE (R189). A write of REQ_RELEASE releases the held lists of a DONE or CANCELLED slot at once. -/
def execListRelease (core : CoreId) (p : PartId) (slot : Fin 16384) (s : State) : Host.Outcome State Fault Refusal :=
  .next (Act.run (busWrite core (R.REQ_RELEASE p) slot) s)

/-- PRX_SHARE (R210). A write of REQ_PRX_SHARE re-hashes the path to a node under a shared key and inserts it into the
shared slot. -/
def execPrxShare (core : CoreId) (p : PartId) (shared : Fin 8) (node : BitVec 24) (s : State) : Host.Outcome State Fault Refusal :=
  .next (Act.run (busWrite core (R.REQ_PRX_SHARE p) (shared * 2 ^ 56 + node.toNat)) s)

/-- PRX_WITHDRAW (R210). A write of REQ_PRX_SHARE with withdraw drops the shared subtree rooted at the node, leaves
first. -/
def execPrxWithdraw (core : CoreId) (p : PartId) (shared : Fin 8) (node : BitVec 24) (s : State) : Host.Outcome State Fault Refusal :=
  .next (Act.run (busWrite core (R.REQ_PRX_SHARE p) (2 ^ 63 + shared * 2 ^ 56 + node.toNat)) s)

/-- PRX_KEY_WRITE (R210). A hayward write of a partition or shared key empties the affected tree before its next
lookup. -/
def execPrxKeyWrite (core : CoreId) (shared : Bool) (n : Fin 32) (high : Bool) (value : Word) (s : State) : Host.Outcome State Fault Refusal :=
  .next (Act.run (busWriteX {} core ((if shared then R.PRX_SHARE_KEY_LO (n % 8) else R.PRX_KEY_LO n) + (if high then 8 else 0)) 8 value) s)

/-- STEP_ABANDON (R431). A write of PRT_STEP_ABANDON returns leases, unstages hits, resets lengths and sets the phase
IDLE. -/
def execStepAbandon (core : CoreId) (p : PartId) (s : State) : Host.Outcome State Fault Refusal :=
  .next (Act.run (busWrite core (R.PRT_STEP_ABANDON p) 1) s)

/-- KV_REBUILD (R432). A write of PRT_KV_REBUILD sets a slot rebuilding from a position and releases later frames. -/
def execKvRebuild (core : CoreId) (p : PartId) (slot : Fin 16384) (first : BitVec 32) (s : State) : Host.Outcome State Fault Refusal :=
  .next (Act.run (busWrite core (R.PRT_KV_REBUILD p) (first.toNat * 2 ^ 32 + slot)) s)

/-- RECOVER (R445). A write of PRT_RECOVER_CMD rebuilds the partition's slots from its journal and resume table and
republishes. -/
def execRecover (core : CoreId) (p : PartId) (table : BitVec 20) (failover : Bool) (s : State) : Host.Outcome State Fault Refusal :=
  .next (Act.run (busWrite core (R.PRT_RECOVER_CMD p) (b2n failover * 2 ^ 63 + table.toNat)) s)

/-- DMA_ENTRY (R185). The hub copy engine takes a DMA entry and copies it locally or sends it as PUT packets. -/
def execDmaEntry (hub : HubId) (s : State) : Host.Outcome State Fault Refusal :=
  .next (Act.run (mains (served (hubActs hub (dmaEntry hub)))) s)

/-- DMA_ENTRY_DONE (R185). A local DMA copy completes and its signal value is written. -/
def execDmaEntryDone (hub : HubId) (s : State) : Host.Outcome State Fault Refusal :=
  .next (Act.run (mains (served (hubActs hub (dmaDone hub)))) s)

/-- RING_MSG (R332). A RING_MSG packet is written into its destination message ring, or answered with RING_BUSY. -/
def execRingMsg (pkt : RxPacket) (s : State) : Host.Outcome State Fault Refusal :=
  .next (Act.run (mains (served (ringMsg pkt))) s)

/-- RING_BUSY (R332). A RING_BUSY answer makes the sender hold the message for a resend. -/
def execRingBusy (pkt : RxPacket) (s : State) : Host.Outcome State Fault Refusal :=
  .next (Act.run (mains (ringBusy pkt)) s)

/-- RING_MSG_RETRY (R332). 10 us after RING_BUSY the sender sends the message again. -/
def execRingMsgRetry (ring : Fin 65536) (s : State) : Host.Outcome State Fault Refusal :=
  .next (Act.run (mains (served (ringMsgRetry ring))) s)

end Sys2Proof.Machine
end

