-- ==== Sys2Proof/Machine/CmdReset.lean ====
section
/-! DEFINITION. The meanings of the commands: resets, boot and supplies. Each is the script of its row's rules, run on the
state. -/

namespace Sys2Proof.Machine

/-- TILE_RESET (R435). HAY_RESET op 1 flushes and zeroes one tile and returns it to its prior state. -/
def execTileReset (core : CoreId) (tile : TileId) (s : State) : Host.Outcome State Fault Refusal :=
  .next (Act.run (busWrite core R.HAY_RESET (1 * 2 ^ 56 + tile)) s)

/-- PARTITION_RESET (R436). HAY_RESET op 2 quenches, flushes, ends queues, frees slots and returns the partition to
RUNNING. -/
def execPartitionReset (core : CoreId) (p : PartId) (s : State) : Host.Outcome State Fault Refusal :=
  .next (Act.run (busWrite core R.HAY_RESET (2 * 2 ^ 56 + p)) s)

/-- WARM_RESET (R437). HAY_RESET op 3 stops clocks, puts GDDR7 in self-refresh and runs the boot again. -/
def execWarmReset (core : CoreId) (env : BootEnv) (s : State) : Host.Outcome State Fault Refusal :=
  .next (Act.run (packageReset core 3 env) s)

/-- COLD_PACKAGE_RESET (R483). HAY_RESET op 4 turns every VIN_MAIN rail off for 10 ms and brings the package up again.
-/
def execColdPackageReset (core : CoreId) (env : BootEnv) (s : State) : Host.Outcome State Fault Refusal :=
  .next (Act.run (packageReset core 4 env) s)

/-- SNAPSHOT_COPY_DONE (R462). A snapshot copy completes, writes m + 1 to its signal word and sets snap_done. -/
def execSnapshotCopyDone (slot : Fin 8) (s : State) : Host.Outcome State Fault Refusal :=
  .next (Act.run (mains (served (snapDone slot))) s)

/-- VIN_MAIN_VALID (R483). VIN_MAIN valid begins a cold reset raising rails in order and bringing the package up. -/
def execVinMainValid (env : BootEnv) (s : State) : Host.Outcome State Fault Refusal :=
  .next (Act.run (vinMainValid env) s)

/-- STRAP_SAMPLE (R477). 10 ms after VSTBY rises the straps are sampled and held. -/
def execStrapSample (straps : BitVec 11) (s : State) : Host.Outcome State Fault Refusal :=
  .next (Act.run (strapSample straps.toNat) s)

/-- VSTBY_LOSS (R486). VSTBY falling while VIN_MAIN is present stops every rail within 10 us. -/
def execVstbyLoss (s : State) : Host.Outcome State Fault Refusal :=
  .next (Act.run (vstbyLoss) s)

/-- REFCLK_LOSS (R476). A lost reference clock stops its domain, drops its ports or fails the package. -/
def execRefclkLoss (clk : Fin 8) (s : State) : Host.Outcome State Fault Refusal :=
  .next (Act.run (awake (refclkLoss clk)) s)

end Sys2Proof.Machine
end

