-- ==== Sys2Proof/Machine/CmdRouting.lean ====
section
/-! DEFINITION. The meanings of the commands: expert placement and routing. Each is the script of its row's rules, run on the
state. -/

namespace Sys2Proof.Machine

/-- PLACE_TAIL_WRITE (R221). A write of XRT_CTX_PLACE_TAIL adds place requests, refused when backwards or over the
queue size. -/
def execPlaceTailWrite (core : CoreId) (ctx : Fin 12) (tail : BitVec 32) (s : State) : Host.Outcome State Fault Refusal :=
  .next (Act.run (busWrite core (R.XRT_CTX_PLACE_TAIL ctx) tail.toNat) s)

/-- PLACE_REQUEST (R223). A routing engine starts a head place request whose wait word has reached its value and
places and weights its choices. -/
def execPlaceRequest (hub : HubId) (s : State) : Host.Outcome State Fault Refusal :=
  .next (Act.run (mains (served (hubActs hub (placeRequest hub)))) s)

/-- PLACE_SIGNAL (R222). Once every output write is acknowledged the engine writes the place request's signal word. -/
def execPlaceSignal (hub : HubId) (s : State) : Host.Outcome State Fault Refusal :=
  .next (Act.run (mains (hubActs hub (placeSignal hub))) s)

/-- BIAS_UPDATE (R231). At the first tick edge with steps_since at least M, every layer's biases move toward the mean
load. -/
def execBiasUpdate (ctx : Fin 12) (s : State) : Host.Outcome State Fault Refusal :=
  .next (Act.run (mains (biasUpdate ctx)) s)

/-- BIAS_READY_WRITE (R232). After the new biases reach every router tile and are acknowledged, the engine writes seq
to the ready word. -/
def execBiasReadyWrite (ctx : Fin 12) (s : State) : Host.Outcome State Fault Refusal :=
  .next (Act.run (mains (served (biasReady ctx))) s)

end Sys2Proof.Machine
end

