-- ==== Sys2Proof/Machine/CmdSide.lean ====
section
/-! DEFINITION. The meanings of the commands: the side ports. Each is the script of its row's rules, run on the
state. -/

namespace Sys2Proof.Machine

/-- I3C_WORD_READ (R479). A 1-byte sideband write selects a word offset and the next read returns 8 bytes, or a NACK.
-/
def execI3cWordRead (offset : BitVec 8) (s : State) : Host.Outcome State Fault Refusal :=
  .next (Act.run (i3cWordRead offset.toNat) s)

/-- ENTDAA (R479). The I3C ENTDAA common command assigns a dynamic address. -/
def execEntdaa (addr : BitVec 7) (s : State) : Host.Outcome State Fault Refusal :=
  .next (Act.run (entdaa addr.toNat) s)

/-- SETDASA (R479). The I3C SETDASA common command sets the dynamic address from the static address. -/
def execSetdasa (static : BitVec 7) (addr : BitVec 7) (s : State) : Host.Outcome State Fault Refusal :=
  .next (Act.run (setdasa static.toNat addr.toNat) s)

/-- RSTDAA (R479). The I3C RSTDAA common command resets the dynamic address. -/
def execRstdaa (s : State) : Host.Outcome State Fault Refusal :=
  .next (Act.run (rstdaa) s)

/-- GETSTATUS (R479). The I3C GETSTATUS common command returns the target status. -/
def execGetstatus (s : State) : Host.Outcome State Fault Refusal :=
  .next (Act.run (getstatus) s)

/-- ENEC (R479). The I3C ENEC common command enables in-band interrupts. -/
def execEnec (s : State) : Host.Outcome State Fault Refusal :=
  .next (Act.run (ibiEnable true) s)

/-- DISEC (R479). The I3C DISEC common command disables in-band interrupts. -/
def execDisec (s : State) : Host.Outcome State Fault Refusal :=
  .next (Act.run (ibiEnable false) s)

/-- BYPASS (R480). The JTAG BYPASS instruction selects the bypass register. -/
def execBypass (s : State) : Host.Outcome State Fault Refusal :=
  .next (Act.run (jtagBypass) s)

/-- IDCODE (R480). The JTAG IDCODE instruction returns 0x1096_09AB. -/
def execIdcode (s : State) : Host.Outcome State Fault Refusal :=
  .next (Act.run (jtagIdcodeRead) s)

/-- SAMPLE_PRELOAD (R480). The JTAG SAMPLE/PRELOAD instruction captures and preloads the boundary scan register. -/
def execSamplePreload (pins : BitVec 29) (data : BitVec 29) (s : State) : Host.Outcome State Fault Refusal :=
  .next (Act.run (samplePreload pins data) s)

/-- EXTEST (R480). The JTAG EXTEST instruction drives sideband lands from the boundary scan register. -/
def execExtest (pins : BitVec 29) (data : BitVec 29) (s : State) : Host.Outcome State Fault Refusal :=
  .next (Act.run (jtagExtest pins data) s)

/-- CLAMP (R480). The JTAG CLAMP instruction holds outputs from the boundary register with bypass selected. -/
def execClamp (s : State) : Host.Outcome State Fault Refusal :=
  .next (Act.run (jtagClamp) s)

/-- TRST (R480). Asserting TRST_L resets the TAP. -/
def execTrst (s : State) : Host.Outcome State Fault Refusal :=
  .next (Act.run (jtagReset) s)

/-- MGT_PORT_ENABLE (R481). A write of MGT_PORT_CTRL.enable brings the management port up with auto-negotiation and
training. -/
def execMgtPortEnable (core : CoreId) (value : Word) (trained : Bool) (s : State) : Host.Outcome State Fault Refusal :=
  .next (Act.run (busWriteX { trained := trained } core R.MGT_PORT_CTRL 8 value) s)

/-- ARP_REQUEST (R481). An ARP request for the port's own address is answered. -/
def execArpRequest (addr : BitVec 32) (len : Nat) (s : State) : Host.Outcome State Fault Refusal :=
  .next (Act.run (awake (arpRequest addr.toNat len)) s)

/-- NEIGHBOR_SOLICITATION (R481). An IPv6 neighbour solicitation for the port's own address is answered. -/
def execNeighborSolicitation (addr : BitVec 128) (len : Nat) (s : State) : Host.Outcome State Fault Refusal :=
  .next (Act.run (awake (neighborSolicitation addr.toNat len)) s)

/-- PAUSE_FRAME (R481). A received Annex 31B PAUSE frame pauses the management port's transmission. -/
def execPauseFrame (quanta : BitVec 16) (len : Nat) (s : State) : Host.Outcome State Fault Refusal :=
  .next (Act.run (awake (pauseFrame quanta.toNat len)) s)

/-- MGT_FRAME_DROP (R481). Any other management frame is dropped and counted. -/
def execMgtFrameDrop (len : Nat) (s : State) : Host.Outcome State Fault Refusal :=
  .next (Act.run (awake (mgtFrameDrop len)) s)

end Sys2Proof.Machine
end

