-- ==== Sys2Proof/Machine/CmdTick.lean ====
section
/-! DEFINITION. The meanings of the commands: time, the tick edge and steps. Each is the script of its row's rules, run on the
state. -/

namespace Sys2Proof.Machine

/-- TICK_EDGE (R62). At 100 ns after each tick boundary the package performs snapshots, staged writes, power changes,
border moves, barrier releases and zero-offset glean windows in order. -/
def execTickEdge (calFailed : List TileId) (skewOk : Bool) (s : State) : Host.Outcome State Fault Refusal :=
  .next (Act.run (mains (tickEdge (calFailed.map (·.val)) skewOk)) s)

/-- GMAP_SHADOW_COPY_DONE (R401). The copy of the active maps back to the shadows ends and HAY_GMAP_STATUS.copying
clears. -/
def execGmapShadowCopyDone (s : State) : Host.Outcome State Fault Refusal :=
  .next (Act.run (mains shadowCopyDone) s)

/-- TILE_ZERO_DONE (R381). A moved tile finishes zeroing its 4 MiB, its registers are at reset and it becomes ACTIVE
under the gaining partition. -/
def execTileZeroDone (tile : TileId) (s : State) : Host.Outcome State Fault Refusal :=
  .next (Act.run (mains (tileZeroDone tile)) s)

/-- HUB_UNIT_ZERO_DONE (R381). A moved hub SRAM unit finishes zeroing and the gaining partition's waiting accesses
proceed. -/
def execHubUnitZeroDone (hub : HubId) (unit : Fin 256) (s : State) : Host.Outcome State Fault Refusal :=
  .next (Act.run (mains (hubUnitZeroDone hub unit)) s)

/-- SLICE_ZERO_DONE (R382). The controllers finish zeroing slices removed from a partition and HAY_ZERO_STATUS clears
for that granule. -/
def execSliceZeroDone (s : State) : Host.Outcome State Fault Refusal :=
  .next (Act.run (mains sliceZeroDone) s)

/-- TICK_RUN_SET (R63). Setting TIM_TICK_CTRL.run starts the tick generator at the next boundary, refused unless
locked_once and OWNED. -/
def execTickRunSet (core : CoreId) (s : State) : Host.Outcome State Fault Refusal :=
  .next (Act.run (busWrite core R.TIM_TICK_CTRL 1) s)

/-- TICK_RUN_CLEAR (R63). Clearing run stops ticks and discards every staged value except a committed base cut-over,
which takes effect at once. -/
def execTickRunClear (core : CoreId) (s : State) : Host.Outcome State Fault Refusal :=
  .next (Act.run (busWrite core R.TIM_TICK_CTRL 0) s)

/-- PTP_SYNC (R57). A PTP Sync message is timestamped and drives offset estimation, a one-time step in ACQUIRE, or the
move to LOCKED. -/
def execPtpSync (src : Nat) (domain : BitVec 8) (transport : Fin 3) (seq : BitVec 16) (twoStep : Bool) (origin : BitVec 64) (corr : BitVec 64) (s : State) : Host.Outcome State Fault Refusal :=
  .next (Act.run (awake (do ptpSync src domain.toNat transport seq.toNat twoStep origin.toNat corr.toNat; milestonesCheck)) s)

/-- PTP_FOLLOW_UP (R55). A two-step Follow_Up message supplies the precise origin time of the preceding Sync. -/
def execPtpFollowUp (src : Nat) (domain : BitVec 8) (transport : Fin 3) (seq : BitVec 16) (origin : BitVec 64) (corr : BitVec 64) (s : State) : Host.Outcome State Fault Refusal :=
  .next (Act.run (awake (do ptpFollowUp src domain.toNat transport seq.toNat origin.toNat corr.toNat; milestonesCheck)) s)

/-- PTP_ANNOUNCE (R55). An Announce message in the configured domain feeds the default best master clock algorithm. -/
def execPtpAnnounce (src : Nat) (domain : BitVec 8) (transport : Fin 3) (rank : List Nat) (s : State) : Host.Outcome State Fault Refusal :=
  .next (Act.run (awake (ptpAnnounce src domain.toNat transport rank)) s)

/-- PTP_DELAY_REQ (R55). The package sends a Delay_Req for the end-to-end delay mechanism, timestamped in hardware. -/
def execPtpDelayReq (s : State) : Host.Outcome State Fault Refusal :=
  .next (Act.run (awake ptpDelayReq) s)

/-- PTP_DELAY_RESP (R55). A Delay_Resp completes a path delay measurement for the offset estimate. -/
def execPtpDelayResp (src : Nat) (domain : BitVec 8) (transport : Fin 3) (seq : BitVec 16) (t4 : BitVec 64) (corr : BitVec 64) (s : State) : Host.Outcome State Fault Refusal :=
  .next (Act.run (awake (do ptpDelayResp src domain.toNat transport seq.toNat t4.toNat corr.toNat; milestonesCheck)) s)

/-- BEACON (R56). A time beacon from a locked plane is corrected by the link delay and enters the median offset, or is
rejected beyond 1 us of the PTP estimate. -/
def execBeacon (pkt : RxPacket) (s : State) : Host.Outcome State Fault Refusal :=
  .next (Act.run (mains (do beacon pkt; milestonesCheck)) s)

/-- SYNC_LOSS_TIMEOUT (R57). With no PTP Sync for 4 intervals and no usable beacon for 100 us, the discipline enters
HOLDOVER on its last rate. -/
def execSyncLossTimeout (s : State) : Host.Outcome State Fault Refusal :=
  .next (Act.run (awake syncLoss) s)

/-- HOLDOVER_ERROR_LIMIT (R57). In HOLDOVER, est_error_ns passing error_limit sets unsynchronised and raises the fault
interrupt. -/
def execHoldoverErrorLimit (err : BitVec 16) (s : State) : Host.Outcome State Fault Refusal :=
  .next (Act.run (awake (holdoverError err.toNat)) s)

/-- STEP_START (R68). At its start tick, or the first edge after its build, copies or previous commit, a partition's
step starts, its number rises and the step-start barrier releases. -/
def execStepStart (p : PartId) (s : State) : Host.Outcome State Fault Refusal :=
  .next (Act.run (mains (stepStart p)) s)

/-- BARRIER_RELEASE (R70). An intra-step barrier release message reaches a tile and frees its next barrier descriptor
in its swath wave. -/
def execBarrierRelease (tile : TileId) (s : State) : Host.Outcome State Fault Refusal :=
  .next (Act.run (mains (barrierRelease tile)) s)

end Sys2Proof.Machine
end

