-- ==== Sys2Proof/Machine/CmdTile.lean ====
section
/-! DEFINITION. The meanings of the commands: the operations of a tile. Each is the script of its row's rules, run on the
state. -/

namespace Sys2Proof.Machine

/-- OPQ_TAIL_WRITE (R124). A write of TILE_OPQ_TAIL or a hub CTL message advances the tile's queue tail, refused when
backwards or over the queue size. -/
def execOpqTailWrite (via : Option CoreId) (tile : TileId) (tail : BitVec 32) (s : State) : Host.Outcome State Fault Refusal :=
  .next (Act.run ((match via with
    | some core => busWrite core (R.TILE_OPQ_TAIL tile) tail.toNat
    | none => mains (do let _ ← opqTail tile tail.toNat))) s)

/-- OP_RETIRE (R125). An issued operation that has made all its reads and local writes retires, freeing its slot and
possibly emptying a weight buffer. -/
def execOpRetire (tile : TileId) (k : Nat) (corrected : Nat) (s : State) : Host.Outcome State Fault Refusal :=
  .next (Act.run (mains (retireOp tile k corrected)) s)

/-- OP_SIGNAL (R126). Once a retired descriptor's mesh writes are acknowledged, its signal value is written to its
signal target. -/
def execOpSignal (tile : TileId) (k : Nat) (s : State) : Host.Outcome State Fault Refusal :=
  .next (Act.run (mains (signalOp tile k)) s)

/-- OP_FLUSH (R127). A write of TILE_OP_FLUSH discards unissued descriptors, lets issued ones retire and clears the
error record and halt. -/
def execOpFlush (core : CoreId) (tile : TileId) (value : Word) (s : State) : Host.Outcome State Fault Refusal :=
  .next (Act.run (busWriteX {} core (R.TILE_OP_FLUSH tile) 8 value) s)

/-- NOP (R144). A NOP descriptor issues on no unit and retires. -/
def execNop (tile : TileId) (s : State) : Host.Outcome State Fault Refusal :=
  .next (Act.run (mains (issueOp tile 0 0 nopPlan (fun _ _ => skip))) s)

/-- MATMUL (R129). A MATMUL multiplies an activation operand by weights in the fixed order, with optional adapter,
bias and output pass. -/
def execMatmul (tile : TileId) (s : State) : Host.Outcome State Fault Refusal :=
  .next (Act.run (mains (issueOp tile 1 0 matmulPlan matmulWork)) s)

/-- FINISH (R133). A FINISH applies adapter, bias and output steps to a combined FP32 product. -/
def execFinish (tile : TileId) (s : State) : Host.Outcome State Fault Refusal :=
  .next (Act.run (mains (issueOp tile 2 0 finishPlan finishWork)) s)

/-- COMBINE (R132). A COMBINE adds a partner's FP32 partial read over the mesh to its own, one level of the rank tree.
-/
def execCombine (tile : TileId) (s : State) : Host.Outcome State Fault Refusal :=
  .next (Act.run (mains (issueOp tile 3 0 combinePlan combineWork)) s)

/-- VEW_ADD (R134). VEW subop add adds elementwise with one rounding. -/
def execVewAdd (tile : TileId) (s : State) : Host.Outcome State Fault Refusal :=
  .next (Act.run (mains (issueOp tile 8 0 vewPlan (vewWork (fun a b _ => FV.add a b)))) s)

/-- VEW_SUB (R134). VEW subop sub subtracts elementwise with one rounding. -/
def execVewSub (tile : TileId) (s : State) : Host.Outcome State Fault Refusal :=
  .next (Act.run (mains (issueOp tile 8 1 vewPlan (vewWork (fun a b _ => FV.sub a b)))) s)

/-- VEW_MUL (R134). VEW subop mul multiplies elementwise with one rounding. -/
def execVewMul (tile : TileId) (s : State) : Host.Outcome State Fault Refusal :=
  .next (Act.run (mains (issueOp tile 8 2 vewPlan (vewWork (fun a b _ => FV.mul a b)))) s)

/-- VEW_FMA (R134). VEW subop fma computes src0 times src1 plus aux with one rounding. -/
def execVewFma (tile : TileId) (s : State) : Host.Outcome State Fault Refusal :=
  .next (Act.run (mains (issueOp tile 8 3 vewPlan (vewWork (fun a b x => FV.add (FV.mul a b) x)))) s)

/-- VEW_MAX (R134). VEW subop max returns maximumNumber elementwise. -/
def execVewMax (tile : TileId) (s : State) : Host.Outcome State Fault Refusal :=
  .next (Act.run (mains (issueOp tile 8 4 vewPlan (vewWork (fun a b _ => maxNum a b)))) s)

/-- VEW_MIN (R134). VEW subop min returns minimumNumber elementwise. -/
def execVewMin (tile : TileId) (s : State) : Host.Outcome State Fault Refusal :=
  .next (Act.run (mains (issueOp tile 8 5 vewPlan (vewWork (fun a b _ => minNum a b)))) s)

/-- VEW_CONVERT (R134). VEW subop convert rounds each element once to the output format. -/
def execVewConvert (tile : TileId) (s : State) : Host.Outcome State Fault Refusal :=
  .next (Act.run (mains (issueOp tile 8 6 vewPlan (vewWork (fun a _ _ => a)))) s)

/-- ACT_RELU (R135). ACT subop relu applies relu exactly. -/
def execActRelu (tile : TileId) (s : State) : Host.Outcome State Fault Refusal :=
  .next (Act.run (mains (issueOp tile 9 0 actPlan (actWork (fun x _ => actRelu x)))) s)

/-- ACT_SIGMOID (R135). ACT subop sigmoid applies sigmoid within 4 ulp. -/
def execActSigmoid (tile : TileId) (s : State) : Host.Outcome State Fault Refusal :=
  .next (Act.run (mains (issueOp tile 9 1 actPlan (actWork (fun x _ => actSigmoid x)))) s)

/-- ACT_SILU (R135). ACT subop silu applies x times sigmoid(x) within 4 ulp. -/
def execActSilu (tile : TileId) (s : State) : Host.Outcome State Fault Refusal :=
  .next (Act.run (mains (issueOp tile 9 2 actPlan (actWork (fun x _ => actSilu x)))) s)

/-- ACT_GELU_TANH (R135). ACT subop gelu_tanh applies the tanh GELU within 4 ulp. -/
def execActGeluTanh (tile : TileId) (s : State) : Host.Outcome State Fault Refusal :=
  .next (Act.run (mains (issueOp tile 9 3 actPlan (actWork (fun x _ => actGelu x)))) s)

/-- ACT_EXP (R135). ACT subop exp applies exp through the strict exp2 within 4 ulp. -/
def execActExp (tile : TileId) (s : State) : Host.Outcome State Fault Refusal :=
  .next (Act.run (mains (issueOp tile 9 4 actPlan (actWork (fun x _ => actExp x)))) s)

/-- ACT_SWIGLU (R135). ACT subop swiglu computes silu(src0) times src1. -/
def execActSwiglu (tile : TileId) (s : State) : Host.Outcome State Fault Refusal :=
  .next (Act.run (mains (issueOp tile 9 5 actPlan (actWork (fun x y => actSwiglu x y)))) s)

/-- NORM_RMS (R137). NORM subop rms normalises each row by its root mean square in two passes. -/
def execNormRms (tile : TileId) (s : State) : Host.Outcome State Fault Refusal :=
  .next (Act.run (mains (issueOp tile 10 0 normPlan (normWork rmsRow))) s)

/-- NORM_LAYER (R137). NORM subop layer normalises each row by mean and variance in three passes. -/
def execNormLayer (tile : TileId) (s : State) : Host.Outcome State Fault Refusal :=
  .next (Act.run (mains (issueOp tile 10 1 normPlan (normWork layerRow))) s)

/-- ROPE (R138). A ROPE rotates element pairs by position-dependent angles. -/
def execRope (tile : TileId) (s : State) : Host.Outcome State Fault Refusal :=
  .next (Act.run (mains (issueOp tile 11 0 ropePlan ropeWork)) s)

/-- REDUCE_SUM (R136). REDUCE subop sum adds a row in 128 lanes then a pairwise tree. -/
def execReduceSum (tile : TileId) (s : State) : Host.Outcome State Fault Refusal :=
  .next (Act.run (mains (issueOp tile 12 0 reducePlan (reduceWork (reduceSum sumStep)))) s)

/-- REDUCE_SUM_SQUARES (R136). REDUCE subop sum of squares forms lane sums of squares by fma then a pairwise tree. -/
def execReduceSumSquares (tile : TileId) (s : State) : Host.Outcome State Fault Refusal :=
  .next (Act.run (mains (issueOp tile 12 1 reducePlan (reduceWork (reduceSum squareStep)))) s)

/-- REDUCE_MAX (R136). REDUCE subop max finds a row's maximum exactly. -/
def execReduceMax (tile : TileId) (s : State) : Host.Outcome State Fault Refusal :=
  .next (Act.run (mains (issueOp tile 12 2 reducePlan (reduceWork (fold1 maxNum)))) s)

/-- REDUCE_MIN (R136). REDUCE subop min finds a row's minimum exactly. -/
def execReduceMin (tile : TileId) (s : State) : Host.Outcome State Fault Refusal :=
  .next (Act.run (mains (issueOp tile 12 3 reducePlan (reduceWork (fold1 minNum)))) s)

/-- REDUCE_MAX_ABS (R136). REDUCE subop max-abs finds a row's largest magnitude exactly. -/
def execReduceMaxAbs (tile : TileId) (s : State) : Host.Outcome State Fault Refusal :=
  .next (Act.run (mains (issueOp tile 12 4 reducePlan (reduceWork (fun l => fold1 maxNum (l.map FV.abs))))) s)

/-- QUANT (R99). A QUANT converts one chunk on its stream to block records or H8F, with outlier table and status
bytes. -/
def execQuant (tile : TileId) (s : State) : Host.Outcome State Fault Refusal :=
  .next (Act.run (mains (issueOp tile 16 0 quantPlan quantWork)) s)

/-- TOPK (R139). A TOPK writes the first k elements of each row in rank order. -/
def execTopk (tile : TileId) (s : State) : Host.Outcome State Fault Refusal :=
  .next (Act.run (mains (issueOp tile 20 0 topkPlan topkWork)) s)

/-- SELECT (R139). A SELECT takes elements passing the threshold within k_min and k_max and writes their count. -/
def execSelect (tile : TileId) (s : State) : Host.Outcome State Fault Refusal :=
  .next (Act.run (mains (issueOp tile 21 0 selectPlan selectWork)) s)

/-- GATHER (R140). A GATHER copies indexed source rows into consecutive destination rows, zero rows for skips. -/
def execGather (tile : TileId) (s : State) : Host.Outcome State Fault Refusal :=
  .next (Act.run (mains (issueOp tile 24 0 gatherPlan gatherWork)) s)

/-- SCATTER (R140). A SCATTER copies or accumulates consecutive source rows into indexed destination rows. -/
def execScatter (tile : TileId) (s : State) : Host.Outcome State Fault Refusal :=
  .next (Act.run (mains (issueOp tile 25 0 scatterPlan scatterWork)) s)

/-- SAMPLE (R142). A SAMPLE draws one token per row from its candidates using the Philox draw and top-p. -/
def execSample (tile : TileId) (s : State) : Host.Outcome State Fault Refusal :=
  .next (Act.run (mains (issueOp tile 28 0 samplePlan sampleWork)) s)

/-- ATTN (R158). An ATTN walks a page list and computes one-pass attention for the rows of one KV head, writing
outputs and row statuses. -/
def execAttn (tile : TileId) (s : State) : Host.Outcome State Fault Refusal :=
  .next (Act.run (mains (served (issueOp tile 32 0 attnPlan attnWork))) s)

/-- WAIT (R126). A WAIT holds the queue head until a local word reaches its value, then issues and retires. -/
def execWait (tile : TileId) (s : State) : Host.Outcome State Fault Refusal :=
  .next (Act.run (mains (waitOp tile)) s)

/-- WALK_INV (R171). A write to TILE_WALK_INV empties the look-aside buffer, refused while an ATTN is in flight. -/
def execWalkInv (core : CoreId) (tile : TileId) (s : State) : Host.Outcome State Fault Refusal :=
  .next (Act.run (busWrite core (R.TILE_WALK_INV tile) 1) s)

/-- QHIST_WRITE (R122). A write to TILE_QHIST_DATA sets one history entry of one stream at once, refused during a step
or for an invalid max. -/
def execQhistWrite (core : CoreId) (tile : TileId) (value : Word) (s : State) : Host.Outcome State Fault Refusal :=
  .next (Act.run (busWriteX {} core (R.TILE_QHIST_DATA tile) 8 value) s)

end Sys2Proof.Machine
end

