-- ==== Sys2Proof/Machine/CmdTrust.lean ====
section
/-! DEFINITION. The meanings of the commands: trust, lifecycle and the management commands. Each is the script of its
row's rules, run on the state. Where the spec is open: DESIGN CHOICE 133 of the assumption log. -/

namespace Sys2Proof.Machine

/-- HAY_CALL_ACT (R379). A mailbox ACT call switches the calling core's acting partition if allowed. -/
def execHayCallAct (p : PartId) (s : State) : Host.Outcome State Fault Refusal :=
  .next (Act.run (mains (served (hayServe p 1))) s)

/-- HAY_CALL_EXTEND (R379). A mailbox EXTEND call extends a measurement register M8 to M15. -/
def execHayCallExtend (p : PartId) (s : State) : Host.Outcome State Fault Refusal :=
  .next (Act.run (mains (served (hayServe p 2))) s)

/-- HAY_CALL_REPORT (R379). A mailbox REPORT call writes a kind 1 report for the calling partition. -/
def execHayCallReport (p : PartId) (s : State) : Host.Outcome State Fault Refusal :=
  .next (Act.run (mains (served (hayServe p 3))) s)

/-- CORE_MEMORY_ACCESS (R378). A run-time core access is translated for its acting partition and checked against its
grants. -/
def execCoreMemoryAccess (core : CoreId) (addr : BitVec 64) (size : Nat) (write : Bool) (value : Word) (s : State) : Host.Outcome State Fault Refusal :=
  .next (Act.run (served (coreAccess core addr.toNat size write value.toNat)) s)

/-- PARTITION_STOP (R384). Setting PRT_CTRL.stop makes a stop commit that ends every live slot PARTITION_STOPPED. -/
def execPartitionStop (core : CoreId) (p : PartId) (s : State) : Host.Outcome State Fault Refusal :=
  .next (Act.run (busField core (R.PRT_CTRL p) F.PRT_CTRL.stop 1) s)

/-- FLOOR_COMMIT (R392). A FLOOR_COMMIT command raises a kind's rollback floor to the running version. -/
def execFloorCommit (core : CoreId) (space : Fin 2) (arg : BitVec 48) (s : State) : Host.Outcome State Fault Refusal :=
  .next (Act.run (secWrite core 1 space arg.toNat) s)

/-- OWNER_KEY_INSTALL (R402). An OWNER_KEY_INSTALL command adds a model-owner key pair with its partition mask. -/
def execOwnerKeyInstall (core : CoreId) (space : Fin 2) (arg : BitVec 48) (s : State) : Host.Outcome State Fault Refusal :=
  .next (Act.run (secWrite core 2 space arg.toNat) s)

/-- OWNER_KEY_REMOVE (R402). An OWNER_KEY_REMOVE command removes a model-owner key. -/
def execOwnerKeyRemove (core : CoreId) (space : Fin 2) (arg : BitVec 48) (s : State) : Host.Outcome State Fault Refusal :=
  .next (Act.run (secWrite core 3 space arg.toNat) s)

/-- SEC_REPORT (R399). A REPORT command makes the security block compose and sign an attestation report. -/
def execSecReport (core : CoreId) (space : Fin 2) (arg : BitVec 48) (s : State) : Host.Outcome State Fault Refusal :=
  .next (Act.run (secWrite core 5 space arg.toNat) s)

/-- PROVISION (R396). A vendor-signed PROVISION record moves MANUFACTURE to PROVISIONED. -/
def execProvision (core : CoreId) (space : Fin 2) (arg : BitVec 48) (s : State) : Host.Outcome State Fault Refusal :=
  .next (Act.run (lifecycleWrite core 1 space arg.toNat) s)

/-- CLAIM (R396). A vendor-signed CLAIM record stores the operator key digest and moves to OWNED. -/
def execClaim (core : CoreId) (space : Fin 2) (arg : BitVec 48) (s : State) : Host.Outcome State Fault Refusal :=
  .next (Act.run (lifecycleWrite core 2 space arg.toNat) s)

/-- LIFECYCLE_RELEASE (R396). An operator-signed RELEASE record erases operator and owner keys and returns to
PROVISIONED. -/
def execLifecycleRelease (core : CoreId) (space : Fin 2) (arg : BitVec 48) (s : State) : Host.Outcome State Fault Refusal :=
  .next (Act.run (lifecycleWrite core 3 space arg.toNat) s)

/-- DECOMMISSION (R396). A signed DECOMMISSION record erases the helper data for good. -/
def execDecommission (core : CoreId) (space : Fin 2) (arg : BitVec 48) (s : State) : Host.Outcome State Fault Refusal :=
  .next (Act.run (lifecycleWrite core 4 space arg.toNat) s)

/-- DEBUG (R396). An operator-signed DEBUG record opens internal debug until the next cold reset. -/
def execDebug (core : CoreId) (space : Fin 2) (arg : BitVec 48) (s : State) : Host.Outcome State Fault Refusal :=
  .next (Act.run (lifecycleWrite core 5 space arg.toNat) s)

/-- MGMT_COMMAND (R398). A verified COMMAND record is acted on like a fabric command. -/
def execMgmtCommand (cmd : Fin 4) (bytes : List Byte) (s : State) : Host.Outcome State Fault Refusal :=
  .next (Act.run (awake (mgmtCommand (0x11 + cmd) bytes)) s)

/-- ATTEST_REQ (R397). A verified ATTEST_REQ record is answered with an ATTEST_REPORT. -/
def execAttestReq (bytes : List Byte) (s : State) : Host.Outcome State Fault Refusal :=
  .next (Act.run (awake (attestReq bytes)) s)

/-- GRANT (R397). A verified GRANT record hands a grant image to the hayward firmware. -/
def execGrant (bytes : List Byte) (s : State) : Host.Outcome State Fault Refusal :=
  .next (Act.run (awake (grantRecord bytes)) s)

/-- OWNER_KEY (R397). A verified OWNER_KEY record installs model-owner public keys with a partition mask. -/
def execOwnerKey (bytes : List Byte) (s : State) : Host.Outcome State Fault Refusal :=
  .next (Act.run (awake (ownerKeyRecord bytes)) s)

/-- POWER_CAP (R412). A verified POWER_CAP record is staged for its tick or refused out of range, and acknowledged. -/
def execPowerCap (bytes : List Byte) (s : State) : Host.Outcome State Fault Refusal :=
  .next (Act.run (awake (powerCap bytes)) s)

end Sys2Proof.Machine
end

