-- ==== Sys2Proof/Machine/CmdWeights.lean ====
section
/-! DEFINITION. The meanings of the commands: weights, loads, RoCE, teddering and bases. Each is the script of its row's rules, run on the
state. -/

namespace Sys2Proof.Machine

/-- LDQ_TAIL_WRITE (R320). A write of PRT_LDQ_TAIL adds load queue entries. -/
def execLdqTailWrite (core : CoreId) (p : PartId) (tail : BitVec 32) (s : State) : Host.Outcome State Fault Refusal :=
  .next (Act.run (busWrite core (R.PRT_LDQ_TAIL p) tail.toNat) s)

/-- VERIFY (R297). A VERIFY entry checks a manifest's signatures and structure and fills a manifest slot. -/
def execVerify (p : PartId) (s : State) : Host.Outcome State Fault Refusal :=
  .next (Act.run (mains (served (verify p))) s)

/-- DROP (R297). A DROP entry frees a manifest slot unless a key or base slot refers to it. -/
def execDrop (p : PartId) (s : State) : Host.Outcome State Fault Refusal :=
  .next (Act.run (mains (dropManifest p)) s)

/-- KEY_REQUEST (R298). A KEY_REQUEST creates fresh key pairs and writes a key-release attestation report. -/
def execKeyRequest (p : PartId) (s : State) : Host.Outcome State Fault Refusal :=
  .next (Act.run (mains (served (keyRequest p))) s)

/-- KEY_REQUEST_TIMEOUT (R298). key_timeout_s after a key request its secret keys are destroyed. -/
def execKeyRequestTimeout (num : Nat) (s : State) : Host.Outcome State Fault Refusal :=
  .next (Act.run (mains (keyTimeout num)) s)

/-- KEY_INSTALL (R299). A KEY_INSTALL unwraps a release blob into a key slot bound to a manifest slot and shard. -/
def execKeyInstall (p : PartId) (s : State) : Host.Outcome State Fault Refusal :=
  .next (Act.run (mains (served (keyInstall p))) s)

/-- LOAD (R303). A LOAD takes a stream and fetches, decrypts, checks and writes every chunk of a shard. -/
def execLoad (p : PartId) (s : State) : Host.Outcome State Fault Refusal :=
  .next (Act.run (mains (served (loadStart p))) s)

/-- CHUNK_LANDED (R303). A chunk's ciphertext lands and is decrypted, decoded and digest-checked, then written or
retried elsewhere. -/
def execChunkLanded (p : PartId) (index : Nat) (chunk : Nat) (s : State) : Host.Outcome State Fault Refusal :=
  .next (Act.run (mains (served (chunkLanded p index chunk))) s)

/-- CHUNK_TIMEOUT (R303). A chunk attempt not complete within chunk_timeout_ms moves to the next source or peer. -/
def execChunkTimeout (p : PartId) (index : Nat) (chunk : Nat) (s : State) : Host.Outcome State Fault Refusal :=
  .next (Act.run (mains (chunkTimeout p index chunk)) s)

/-- LOAD_DONE (R303). When every chunk has returned the LOAD ends OK or INTEGRITY and releases its stream. -/
def execLoadDone (p : PartId) (index : Nat) (s : State) : Host.Outcome State Fault Refusal :=
  .next (Act.run (mains (loadDone p index)) s)

/-- RDMA_READ_RESPONSE (R294). A RoCEv2 RDMA READ response packet delivers chunk bytes; a CE mark triggers a CNP. -/
def execRdmaReadResponse (qp : Fin 64) (psn : BitVec 24) (payload : List Byte) (ce : Bool) (s : State) : Host.Outcome State Fault Refusal :=
  .next (Act.run (mains (served (readResponse qp psn.toNat payload ce))) s)

/-- ROCE_ACK (R294). A RoCEv2 ACK advances the QP's acknowledged PSN. -/
def execRoceAck (qp : Fin 64) (psn : BitVec 24) (s : State) : Host.Outcome State Fault Refusal :=
  .next (Act.run (mains (roceAck qp psn.toNat)) s)

/-- ROCE_NAK (R294). A RoCEv2 NAK makes the QP resend read requests. -/
def execRoceNak (nak : NakPacket) (s : State) : Host.Outcome State Fault Refusal :=
  .next (Act.run (mains (roceNak nak.qp nak.psn.toNat nak.fatal)) s)

/-- ROCE_TIMEOUT (R294). A QP's transport timeout retries, or after its retry count sends it to ERROR failing its
reads. -/
def execRoceTimeout (qp : Fin 64) (s : State) : Host.Outcome State Fault Refusal :=
  .next (Act.run (mains (roceTimeout qp)) s)

/-- BULK_FRAME_DROP (R293). A bulk port frame that is not RoCEv2 traffic of a valid QP is dropped. -/
def execBulkFrameDrop (frame : BulkFrame) (s : State) : Host.Outcome State Fault Refusal :=
  .next (Act.run (mains (bulkDrop frame.port frame.len)) s)

/-- PEER_REQ (R306). A peer request is served by re-encrypting the stored chunk, or answered NOT_HELD. -/
def execPeerReq (pkt : RxPacket) (s : State) : Host.Outcome State Fault Refusal :=
  .next (Act.run (mains (served (peerReq pkt))) s)

/-- PEER_DATA (R303). A peer's encrypted chunk arrives and is checked like a source attempt. -/
def execPeerData (pkt : RxPacket) (s : State) : Host.Outcome State Fault Refusal :=
  .next (Act.run (mains (served (peerData pkt))) s)

/-- PEER_NOT_HELD (R303). A PEER_NOT_HELD answer moves the chunk to the next peer. -/
def execPeerNotHeld (pkt : RxPacket) (s : State) : Host.Outcome State Fault Refusal :=
  .next (Act.run (mains (peerNotHeld pkt)) s)

/-- TDQ_TAIL_WRITE (R320). A write of PRT_TDQ_TAIL adds fill entries. -/
def execTdqTailWrite (core : CoreId) (p : PartId) (tail : BitVec 32) (s : State) : Host.Outcome State Fault Refusal :=
  .next (Act.run (busWrite core (R.PRT_TDQ_TAIL p) tail.toNat) s)

/-- FILL_PIECE (R310). A tedder starts a fill piece into a tile's weight buffer, moving it to FILLING, or waits on an
IN_USE buffer. -/
def execFillPiece (tedder : Fin 4) (p : PartId) (s : State) : Host.Outcome State Fault Refusal :=
  .next (Act.run (mains (fillPiece tedder p)) s)

/-- FILL_PIECE_DONE (R310). A fill piece ends with its status, a last piece makes the buffer READY, and the entry's
signal is written after its last piece. -/
def execFillPieceDone (tedder : Fin 4) (s : State) : Host.Outcome State Fault Refusal :=
  .next (Act.run (mains (served (fillPieceDone tedder))) s)

/-- ADP_STAGE (R313). An adapter STAGE command writes a FREE entry from REQ_ADP_ARG. -/
def execAdpStage (core : CoreId) (p : PartId) (s : State) : Host.Outcome State Fault Refusal :=
  .next (Act.run (busWrite core (R.REQ_ADP_CMD p) (1 * 2 ^ 60)) s)

/-- ADP_PUBLISH (R313). An adapter PUBLISH makes a STAGED entry CURRENT and supersedes or frees the old one. -/
def execAdpPublish (core : CoreId) (p : PartId) (num : BitVec 16) (ver : BitVec 16) (s : State) : Host.Outcome State Fault Refusal :=
  .next (Act.run (busWrite core (R.REQ_ADP_CMD p) (2 * 2 ^ 60 + num.toNat * 2 ^ 16 + ver.toNat)) s)

/-- ADP_WITHDRAW (R313). An adapter WITHDRAW moves a CURRENT entry to WITHDRAWN or FREE. -/
def execAdpWithdraw (core : CoreId) (p : PartId) (num : BitVec 16) (ver : BitVec 16) (s : State) : Host.Outcome State Fault Refusal :=
  .next (Act.run (busWrite core (R.REQ_ADP_CMD p) (3 * 2 ^ 60 + num.toNat * 2 ^ 16 + ver.toNat)) s)

/-- ADP_DROP (R313). An adapter DROP frees a STAGED entry. -/
def execAdpDrop (core : CoreId) (p : PartId) (num : BitVec 16) (ver : BitVec 16) (s : State) : Host.Outcome State Fault Refusal :=
  .next (Act.run (busWrite core (R.REQ_ADP_CMD p) (4 * 2 ^ 60 + num.toNat * 2 ^ 16 + ver.toNat)) s)

/-- BASE_DISCARD (R314). A write of BIN_BASE_b.discard empties a VERIFIED or FAILED base slot. -/
def execBaseDiscard (core : CoreId) (b : Fin 2) (s : State) : Host.Outcome State Fault Refusal :=
  .next (Act.run (busField core (R.BIN_BASE b) F.BIN_BASE.discard 1) s)

/-- BASE_CUTOVER_STAGE (R315). A staged write of BIN_BASE_ACTIVE writes the COMMITTED swap record and schedules the
cut-over. -/
def execBaseCutoverStage (core : CoreId) (b : Fin 2) (s : State) : Host.Outcome State Fault Refusal :=
  .next (Act.run (busWrite core R.BIN_BASE_ACTIVE b) s)

/-- BASE_RETIRE (R314). A RETIRING base slot goes EMPTY once every reader partition has started a step since the cut-
over, and the record reads RETIRED. -/
def execBaseRetire (b : Fin 2) (s : State) : Host.Outcome State Fault Refusal :=
  .next (Act.run (mains (baseRetire b)) s)

end Sys2Proof.Machine
end

