-- ==== Sys2Proof/Machine/Dispatch.lean ====
section
/-! DEFINITION. What each command does: one arm for each row of the table. -/

namespace Sys2Proof.Machine

def exec (i : Instr) (s : State) : Host.Outcome State Fault Refusal :=
  match i with
  | .registerWrite core addr width value => Sys2Proof.Machine.execRegisterWrite core addr width value s
  | .timNowRead core => Sys2Proof.Machine.execTimNowRead core s
  | .pageEnable core page value => Sys2Proof.Machine.execPageEnable core page value s
  | .pageQuiesce core page value => Sys2Proof.Machine.execPageQuiesce core page value s
  | .quiesceComplete page => Sys2Proof.Machine.execQuiesceComplete page s
  | .pageLockWrite core page value => Sys2Proof.Machine.execPageLockWrite core page value s
  | .schedTickWrite core page value => Sys2Proof.Machine.execSchedTickWrite core page value s
  | .stagedWrite core addr value => Sys2Proof.Machine.execStagedWrite core addr value s
  | .doorbellProducer core ring index => Sys2Proof.Machine.execDoorbellProducer core ring index s
  | .doorbellConsumer core ring index => Sys2Proof.Machine.execDoorbellConsumer core ring index s
  | .tickEdge calFailed skewOk => Sys2Proof.Machine.execTickEdge calFailed skewOk s
  | .gmapShadowCopyDone => Sys2Proof.Machine.execGmapShadowCopyDone s
  | .tileZeroDone tile => Sys2Proof.Machine.execTileZeroDone tile s
  | .hubUnitZeroDone hub unit => Sys2Proof.Machine.execHubUnitZeroDone hub unit s
  | .sliceZeroDone => Sys2Proof.Machine.execSliceZeroDone s
  | .tickRunSet core => Sys2Proof.Machine.execTickRunSet core s
  | .tickRunClear core => Sys2Proof.Machine.execTickRunClear core s
  | .ptpSync src domain transport seq twoStep origin corr => Sys2Proof.Machine.execPtpSync src domain transport seq twoStep origin corr s
  | .ptpFollowUp src domain transport seq origin corr => Sys2Proof.Machine.execPtpFollowUp src domain transport seq origin corr s
  | .ptpAnnounce src domain transport rank => Sys2Proof.Machine.execPtpAnnounce src domain transport rank s
  | .ptpDelayReq => Sys2Proof.Machine.execPtpDelayReq s
  | .ptpDelayResp src domain transport seq t4 corr => Sys2Proof.Machine.execPtpDelayResp src domain transport seq t4 corr s
  | .beacon pkt => Sys2Proof.Machine.execBeacon pkt s
  | .syncLossTimeout => Sys2Proof.Machine.execSyncLossTimeout s
  | .holdoverErrorLimit err => Sys2Proof.Machine.execHoldoverErrorLimit err s
  | .stepStart p => Sys2Proof.Machine.execStepStart p s
  | .barrierRelease tile => Sys2Proof.Machine.execBarrierRelease tile s
  | .gleanPost core entry value => Sys2Proof.Machine.execGleanPost core entry value s
  | .gleanCancel core entry => Sys2Proof.Machine.execGleanCancel core entry s
  | .gleanOpen entry calFailed skewOk => Sys2Proof.Machine.execGleanOpen entry calFailed skewOk s
  | .gleanClose entry finished verified temp chan scanned refresh => Sys2Proof.Machine.execGleanClose entry finished verified temp chan scanned refresh s
  | .gleanSwapBack entry skewOk => Sys2Proof.Machine.execGleanSwapBack entry skewOk s
  | .selftestStart core tile => Sys2Proof.Machine.execSelftestStart core tile s
  | .selftestDone tile pass => Sys2Proof.Machine.execSelftestDone tile pass s
  | .tileFail tile cause => Sys2Proof.Machine.execTileFail tile cause s
  | .coreFail core => Sys2Proof.Machine.execCoreFail core s
  | .meshInject src x y load request => Sys2Proof.Machine.execMeshInject src x y load request s
  | .meshHoldRelease hold => Sys2Proof.Machine.execMeshHoldRelease hold s
  | .meshHoldTimeout => Sys2Proof.Machine.execMeshHoldTimeout s
  | .opqTailWrite via tile tail => Sys2Proof.Machine.execOpqTailWrite via tile tail s
  | .opRetire tile k corrected => Sys2Proof.Machine.execOpRetire tile k corrected s
  | .opSignal tile k => Sys2Proof.Machine.execOpSignal tile k s
  | .opFlush core tile value => Sys2Proof.Machine.execOpFlush core tile value s
  | .nop tile => Sys2Proof.Machine.execNop tile s
  | .matmul tile => Sys2Proof.Machine.execMatmul tile s
  | .finish tile => Sys2Proof.Machine.execFinish tile s
  | .combine tile => Sys2Proof.Machine.execCombine tile s
  | .vewAdd tile => Sys2Proof.Machine.execVewAdd tile s
  | .vewSub tile => Sys2Proof.Machine.execVewSub tile s
  | .vewMul tile => Sys2Proof.Machine.execVewMul tile s
  | .vewFma tile => Sys2Proof.Machine.execVewFma tile s
  | .vewMax tile => Sys2Proof.Machine.execVewMax tile s
  | .vewMin tile => Sys2Proof.Machine.execVewMin tile s
  | .vewConvert tile => Sys2Proof.Machine.execVewConvert tile s
  | .actRelu tile => Sys2Proof.Machine.execActRelu tile s
  | .actSigmoid tile => Sys2Proof.Machine.execActSigmoid tile s
  | .actSilu tile => Sys2Proof.Machine.execActSilu tile s
  | .actGeluTanh tile => Sys2Proof.Machine.execActGeluTanh tile s
  | .actExp tile => Sys2Proof.Machine.execActExp tile s
  | .actSwiglu tile => Sys2Proof.Machine.execActSwiglu tile s
  | .normRms tile => Sys2Proof.Machine.execNormRms tile s
  | .normLayer tile => Sys2Proof.Machine.execNormLayer tile s
  | .rope tile => Sys2Proof.Machine.execRope tile s
  | .reduceSum tile => Sys2Proof.Machine.execReduceSum tile s
  | .reduceSumSquares tile => Sys2Proof.Machine.execReduceSumSquares tile s
  | .reduceMax tile => Sys2Proof.Machine.execReduceMax tile s
  | .reduceMin tile => Sys2Proof.Machine.execReduceMin tile s
  | .reduceMaxAbs tile => Sys2Proof.Machine.execReduceMaxAbs tile s
  | .quant tile => Sys2Proof.Machine.execQuant tile s
  | .topk tile => Sys2Proof.Machine.execTopk tile s
  | .select tile => Sys2Proof.Machine.execSelect tile s
  | .gather tile => Sys2Proof.Machine.execGather tile s
  | .scatter tile => Sys2Proof.Machine.execScatter tile s
  | .sample tile => Sys2Proof.Machine.execSample tile s
  | .attn tile => Sys2Proof.Machine.execAttn tile s
  | .wait tile => Sys2Proof.Machine.execWait tile s
  | .walkInv core tile => Sys2Proof.Machine.execWalkInv core tile s
  | .qhistWrite core tile value => Sys2Proof.Machine.execQhistWrite core tile value s
  | .ringContextWrite core p word value => Sys2Proof.Machine.execRingContextWrite core p word value s
  | .ringIn pkt => Sys2Proof.Machine.execRingIn pkt s
  | .admission hub => Sys2Proof.Machine.execAdmission hub s
  | .cancel hub => Sys2Proof.Machine.execCancel hub s
  | .mirrorConf pkt => Sys2Proof.Machine.execMirrorConf pkt s
  | .mirrorTimeout p => Sys2Proof.Machine.execMirrorTimeout p s
  | .stepArm core p give value => Sys2Proof.Machine.execStepArm core p give value s
  | .cowCopyDone p => Sys2Proof.Machine.execCowCopyDone p s
  | .stepCommit core p => Sys2Proof.Machine.execStepCommit core p s
  | .commitResume p => Sys2Proof.Machine.execCommitResume p s
  | .stepRollback core p => Sys2Proof.Machine.execStepRollback core p s
  | .unpark core p slot => Sys2Proof.Machine.execUnpark core p slot s
  | .listRelease core p slot => Sys2Proof.Machine.execListRelease core p slot s
  | .prxShare core p shared node => Sys2Proof.Machine.execPrxShare core p shared node s
  | .prxWithdraw core p shared node => Sys2Proof.Machine.execPrxWithdraw core p shared node s
  | .prxKeyWrite core shared n high value => Sys2Proof.Machine.execPrxKeyWrite core shared n high value s
  | .dmaEntry hub => Sys2Proof.Machine.execDmaEntry hub s
  | .dmaEntryDone hub => Sys2Proof.Machine.execDmaEntryDone hub s
  | .ringMsg pkt => Sys2Proof.Machine.execRingMsg pkt s
  | .ringBusy pkt => Sys2Proof.Machine.execRingBusy pkt s
  | .ringMsgRetry ring => Sys2Proof.Machine.execRingMsgRetry ring s
  | .placeTailWrite core ctx tail => Sys2Proof.Machine.execPlaceTailWrite core ctx tail s
  | .placeRequest hub => Sys2Proof.Machine.execPlaceRequest hub s
  | .placeSignal hub => Sys2Proof.Machine.execPlaceSignal hub s
  | .biasUpdate ctx => Sys2Proof.Machine.execBiasUpdate ctx s
  | .biasReadyWrite ctx => Sys2Proof.Machine.execBiasReadyWrite ctx s
  | .gddr7Read src p addr crcFails corrected uncorrectable bad => Sys2Proof.Machine.execGddr7Read src p addr crcFails corrected uncorrectable bad s
  | .gddr7Write src p addr bytes => Sys2Proof.Machine.execGddr7Write src p addr bytes s
  | .siteFail site => Sys2Proof.Machine.execSiteFail site s
  | .scrubStripe site stripe deviceError => Sys2Proof.Machine.execScrubStripe site stripe deviceError s
  | .retrainDue site temp => Sys2Proof.Machine.execRetrainDue site temp s
  | .coverCatchup pos => Sys2Proof.Machine.execCoverCatchup pos s
  | .wbLoad core tile frame sig => Sys2Proof.Machine.execWbLoad core tile frame sig s
  | .wbFlush core tile frame sig => Sys2Proof.Machine.execWbFlush core tile frame sig s
  | .wbEvict core tile frame sig => Sys2Proof.Machine.execWbEvict core tile frame sig s
  | .wbDiscard core tile frame sig => Sys2Proof.Machine.execWbDiscard core tile frame sig s
  | .wbCommandDone tile => Sys2Proof.Machine.execWbCommandDone tile s
  | .writeThroughFlush tile frame => Sys2Proof.Machine.execWriteThroughFlush tile frame s
  | .migStart core site => Sys2Proof.Machine.execMigStart core site s
  | .migAbort core site => Sys2Proof.Machine.execMigAbort core site s
  | .migCopyDone => Sys2Proof.Machine.execMigCopyDone s
  | .flqTailWrite core p tail => Sys2Proof.Machine.execFlqTailWrite core p tail s
  | .flashRead p => Sys2Proof.Machine.execFlashRead p s
  | .flashWrite p => Sys2Proof.Machine.execFlashWrite p s
  | .flashTrim p => Sys2Proof.Machine.execFlashTrim p s
  | .flashCmdDone p => Sys2Proof.Machine.execFlashCmdDone p s
  | .hardDecode dec fails corrected => Sys2Proof.Machine.execHardDecode dec fails corrected s
  | .softDecode dec decodes => Sys2Proof.Machine.execSoftDecode dec decodes s
  | .programDone chan => Sys2Proof.Machine.execProgramDone chan s
  | .programFail chan erased => Sys2Proof.Machine.execProgramFail chan erased s
  | .refreshBlock block => Sys2Proof.Machine.execRefreshBlock block s
  | .gcRelocate unit => Sys2Proof.Machine.execGcRelocate unit s
  | .wearLevelMove chan => Sys2Proof.Machine.execWearLevelMove chan s
  | .mapCheckpoint => Sys2Proof.Machine.execMapCheckpoint s
  | .mapRebuildDone => Sys2Proof.Machine.execMapRebuildDone s
  | .ldqTailWrite core p tail => Sys2Proof.Machine.execLdqTailWrite core p tail s
  | .verify p => Sys2Proof.Machine.execVerify p s
  | .drop p => Sys2Proof.Machine.execDrop p s
  | .keyRequest p => Sys2Proof.Machine.execKeyRequest p s
  | .keyRequestTimeout num => Sys2Proof.Machine.execKeyRequestTimeout num s
  | .keyInstall p => Sys2Proof.Machine.execKeyInstall p s
  | .load p => Sys2Proof.Machine.execLoad p s
  | .chunkLanded p index chunk => Sys2Proof.Machine.execChunkLanded p index chunk s
  | .chunkTimeout p index chunk => Sys2Proof.Machine.execChunkTimeout p index chunk s
  | .loadDone p index => Sys2Proof.Machine.execLoadDone p index s
  | .rdmaReadResponse qp psn payload ce => Sys2Proof.Machine.execRdmaReadResponse qp psn payload ce s
  | .roceAck qp psn => Sys2Proof.Machine.execRoceAck qp psn s
  | .roceNak nak => Sys2Proof.Machine.execRoceNak nak s
  | .roceTimeout qp => Sys2Proof.Machine.execRoceTimeout qp s
  | .bulkFrameDrop frame => Sys2Proof.Machine.execBulkFrameDrop frame s
  | .peerReq pkt => Sys2Proof.Machine.execPeerReq pkt s
  | .peerData pkt => Sys2Proof.Machine.execPeerData pkt s
  | .peerNotHeld pkt => Sys2Proof.Machine.execPeerNotHeld pkt s
  | .tdqTailWrite core p tail => Sys2Proof.Machine.execTdqTailWrite core p tail s
  | .fillPiece tedder p => Sys2Proof.Machine.execFillPiece tedder p s
  | .fillPieceDone tedder => Sys2Proof.Machine.execFillPieceDone tedder s
  | .adpStage core p => Sys2Proof.Machine.execAdpStage core p s
  | .adpPublish core p num ver => Sys2Proof.Machine.execAdpPublish core p num ver s
  | .adpWithdraw core p num ver => Sys2Proof.Machine.execAdpWithdraw core p num ver s
  | .adpDrop core p num ver => Sys2Proof.Machine.execAdpDrop core p num ver s
  | .baseDiscard core b => Sys2Proof.Machine.execBaseDiscard core b s
  | .baseCutoverStage core b => Sys2Proof.Machine.execBaseCutoverStage core b s
  | .baseRetire b => Sys2Proof.Machine.execBaseRetire b s
  | .portEnable core port on => Sys2Proof.Machine.execPortEnable core port on s
  | .linkTrainPass port alloc => Sys2Proof.Machine.execLinkTrainPass port alloc s
  | .linkTrainTimeout port => Sys2Proof.Machine.execLinkTrainTimeout port s
  | .linkFlitRx port bytes fecBad => Sys2Proof.Machine.execLinkFlitRx port bytes fecBad s
  | .linkNak port ack => Sys2Proof.Machine.execLinkNak port ack s
  | .linkReplayTimeout port => Sys2Proof.Machine.execLinkReplayTimeout port s
  | .laneFail port lane => Sys2Proof.Machine.execLaneFail port lane s
  | .spareSwapDone port => Sys2Proof.Machine.execSpareSwapDone port s
  | .linkDelayMeasure port t1 t2 t3 t4 => Sys2Proof.Machine.execLinkDelayMeasure port t1 t2 t3 t4 s
  | .transitFlit link sop eop payload => Sys2Proof.Machine.execTransitFlit link sop eop payload s
  | .quench pkt => Sys2Proof.Machine.execQuench pkt s
  | .unquench pkt => Sys2Proof.Machine.execUnquench pkt s
  | .drain pkt => Sys2Proof.Machine.execDrain pkt s
  | .pstop pkt => Sys2Proof.Machine.execPstop pkt s
  | .quenchExpire p => Sys2Proof.Machine.execQuenchExpire p s
  | .quenchClear core parts => Sys2Proof.Machine.execQuenchClear core parts s
  | .put pkt => Sys2Proof.Machine.execPut pkt s
  | .putEnd pkt => Sys2Proof.Machine.execPutEnd pkt s
  | .putDone pkt => Sys2Proof.Machine.execPutDone pkt s
  | .putTimeout tag => Sys2Proof.Machine.execPutTimeout tag s
  | .boardLoad core addr size atomic => Sys2Proof.Machine.execBoardLoad core addr size atomic s
  | .boardStore core addr size atomic value => Sys2Proof.Machine.execBoardStore core addr size atomic value s
  | .bld pkt => Sys2Proof.Machine.execBld pkt s
  | .bst pkt => Sys2Proof.Machine.execBst pkt s
  | .brsp pkt => Sys2Proof.Machine.execBrsp pkt s
  | .mirror pkt => Sys2Proof.Machine.execMirror pkt s
  | .clqTailWrite core p tail => Sys2Proof.Machine.execClqTailWrite core p tail s
  | .allreduce p => Sys2Proof.Machine.execAllreduce p s
  | .reduceScatter p => Sys2Proof.Machine.execReduceScatter p s
  | .allgather p => Sys2Proof.Machine.execAllgather p s
  | .broadcast p => Sys2Proof.Machine.execBroadcast p s
  | .colReady p index => Sys2Proof.Machine.execColReady p index s
  | .colOut pkt => Sys2Proof.Machine.execColOut pkt s
  | .colResend pkt => Sys2Proof.Machine.execColResend pkt s
  | .colDone pkt => Sys2Proof.Machine.execColDone pkt s
  | .colTimeout p index => Sys2Proof.Machine.execColTimeout p index s
  | .colAbort core p => Sys2Proof.Machine.execColAbort core p s
  | .hayCallAct p => Sys2Proof.Machine.execHayCallAct p s
  | .hayCallExtend p => Sys2Proof.Machine.execHayCallExtend p s
  | .hayCallReport p => Sys2Proof.Machine.execHayCallReport p s
  | .coreMemoryAccess core addr size write value => Sys2Proof.Machine.execCoreMemoryAccess core addr size write value s
  | .partitionStop core p => Sys2Proof.Machine.execPartitionStop core p s
  | .floorCommit core space arg => Sys2Proof.Machine.execFloorCommit core space arg s
  | .ownerKeyInstall core space arg => Sys2Proof.Machine.execOwnerKeyInstall core space arg s
  | .ownerKeyRemove core space arg => Sys2Proof.Machine.execOwnerKeyRemove core space arg s
  | .secReport core space arg => Sys2Proof.Machine.execSecReport core space arg s
  | .provision core space arg => Sys2Proof.Machine.execProvision core space arg s
  | .claim core space arg => Sys2Proof.Machine.execClaim core space arg s
  | .lifecycleRelease core space arg => Sys2Proof.Machine.execLifecycleRelease core space arg s
  | .decommission core space arg => Sys2Proof.Machine.execDecommission core space arg s
  | .debug core space arg => Sys2Proof.Machine.execDebug core space arg s
  | .mgmtCommand cmd bytes => Sys2Proof.Machine.execMgmtCommand cmd bytes s
  | .attestReq bytes => Sys2Proof.Machine.execAttestReq bytes s
  | .grant bytes => Sys2Proof.Machine.execGrant bytes s
  | .ownerKey bytes => Sys2Proof.Machine.execOwnerKey bytes s
  | .powerCap bytes => Sys2Proof.Machine.execPowerCap bytes s
  | .vfStep => Sys2Proof.Machine.execVfStep s
  | .curbEdge level => Sys2Proof.Machine.execCurbEdge level s
  | .dividerRelease => Sys2Proof.Machine.execDividerRelease s
  | .capGuard => Sys2Proof.Machine.execCapGuard s
  | .stageFail rail => Sys2Proof.Machine.execStageFail rail s
  | .vinLow => Sys2Proof.Machine.execVinLow s
  | .vinRecover => Sys2Proof.Machine.execVinRecover s
  | .vinLoss => Sys2Proof.Machine.execVinLoss s
  | .droop tile stretched => Sys2Proof.Machine.execDroop tile stretched s
  | .thermalSample quarter temps => Sys2Proof.Machine.execThermalSample quarter temps s
  | .thermalTrip => Sys2Proof.Machine.execThermalTrip s
  | .energySample mw core vin => Sys2Proof.Machine.execEnergySample mw core vin s
  | .stepAbandon core p => Sys2Proof.Machine.execStepAbandon core p s
  | .kvRebuild core p slot first => Sys2Proof.Machine.execKvRebuild core p slot first s
  | .recover core p table failover => Sys2Proof.Machine.execRecover core p table failover s
  | .tileReset core tile => Sys2Proof.Machine.execTileReset core tile s
  | .partitionReset core p => Sys2Proof.Machine.execPartitionReset core p s
  | .warmReset core env => Sys2Proof.Machine.execWarmReset core env s
  | .coldPackageReset core env => Sys2Proof.Machine.execColdPackageReset core env s
  | .snapshotCopyDone slot => Sys2Proof.Machine.execSnapshotCopyDone slot s
  | .vinMainValid env => Sys2Proof.Machine.execVinMainValid env s
  | .strapSample straps => Sys2Proof.Machine.execStrapSample straps s
  | .vstbyLoss => Sys2Proof.Machine.execVstbyLoss s
  | .refclkLoss clk => Sys2Proof.Machine.execRefclkLoss clk s
  | .i3cWordRead offset => Sys2Proof.Machine.execI3cWordRead offset s
  | .entdaa addr => Sys2Proof.Machine.execEntdaa addr s
  | .setdasa static addr => Sys2Proof.Machine.execSetdasa static addr s
  | .rstdaa => Sys2Proof.Machine.execRstdaa s
  | .getstatus => Sys2Proof.Machine.execGetstatus s
  | .enec => Sys2Proof.Machine.execEnec s
  | .disec => Sys2Proof.Machine.execDisec s
  | .bypass => Sys2Proof.Machine.execBypass s
  | .idcode => Sys2Proof.Machine.execIdcode s
  | .samplePreload pins data => Sys2Proof.Machine.execSamplePreload pins data s
  | .extest pins data => Sys2Proof.Machine.execExtest pins data s
  | .clamp => Sys2Proof.Machine.execClamp s
  | .trst => Sys2Proof.Machine.execTrst s
  | .mgtPortEnable core value trained => Sys2Proof.Machine.execMgtPortEnable core value trained s
  | .arpRequest addr len => Sys2Proof.Machine.execArpRequest addr len s
  | .neighborSolicitation addr len => Sys2Proof.Machine.execNeighborSolicitation addr len s
  | .pauseFrame quanta len => Sys2Proof.Machine.execPauseFrame quanta len s
  | .mgtFrameDrop len => Sys2Proof.Machine.execMgtFrameDrop len s
  | .registerRead core addr width => Sys2Proof.Machine.execRegisterRead core addr width s
  | .undefinedPacketDiscard pkt => Sys2Proof.Machine.execUndefinedPacketDiscard pkt s
  | .linkManagementRequest port lane => Sys2Proof.Machine.execLinkManagementRequest port lane s

end Sys2Proof.Machine
end

