-- ==== Sys2Proof/Machine/Step.lean ====
section
/-! DEFINITION. The step: the command that waits longest takes effect. Where the spec is open: DESIGN CHOICE 1 of the
assumption log. -/

namespace Sys2Proof.Machine

/-- The command at the front of the queue, with the queue's rest; on an empty queue one clock of fabric time passes
(DESIGN CHOICE, assumption 2). -/
def step (s : State) : Host.Outcome State Fault Refusal :=
  match s.pending with
  | [] => .next (Act.run idleStep s)
  | c :: rest => exec c { s with pending := rest }

/-- The command a word spells is put at the front of the queue; a word that spells none changes nothing. -/
def State.withFetchWord (s : State) (nbits w : Nat) : State :=
  match decodeTableWord nbits w with
  | some c => { s with pending := c :: s.pending }
  | none => s

end Sys2Proof.Machine
end

