-- ==== Sys2Proof/Safety.lean ====
section
/-! DEFINITION. The terms claims use: the canonical form of the stores, the fields of the state, what two states agree on. A
run is safe when every step answers a next state and keeps the canonical form. -/

namespace Sys2Proof.Machine

/-- The canonical form of the byte store: addresses strictly rising, no entry equal to what an unlisted address reads as. -/
def Memory.wf (m : List Host.Cell) : Bool := storeWf (fun _ => 0) m

/-- Every store of the state has its canonical form. -/
def State.canonical (s : State) : Bool :=
  Memory.wf s.mem && storeWf regDefault s.regs && storeWf (fun _ => none) s.staged && storeWf (fun _ => 0) s.tab &&
    storeWf (fun _ => {}) s.ports && storeWf (fun _ => {}) s.parts && storeWf (fun _ => {}) s.sites && storeWf (fun _ => {}) s.tiles

/-- The package serves the commands of its VIN_MAIN domains: the rails are on, and no bring-up has stopped it (R485). -/
def State.up (s : State) : Prop := s.land.railsOff = false ∧ s.alive = true

/-- The fields of the state but its queue. -/
inductive Field where
  | regs | staged | mem | tab | resp | record | time | ports | parts | sites | tiles | fab | mig | flash | ted | col
  | load | sec | pwr | snap | mesh | move | land | sent | free
deriving DecidableEq, Repr

/-- Two states agree on a field. -/
def Field.same : Field → State → State → Prop
  | .regs, s, t => t.regs = s.regs
  | .staged, s, t => t.staged = s.staged
  | .mem, s, t => t.mem = s.mem
  | .tab, s, t => t.tab = s.tab
  | .resp, s, t => t.resp = s.resp
  | .record, s, t => t.record = s.record
  | .time, s, t => t.time = s.time
  | .ports, s, t => t.ports = s.ports
  | .parts, s, t => t.parts = s.parts
  | .sites, s, t => t.sites = s.sites
  | .tiles, s, t => t.tiles = s.tiles
  | .fab, s, t => t.fab = s.fab
  | .mig, s, t => t.mig = s.mig
  | .flash, s, t => t.flash = s.flash
  | .ted, s, t => t.ted = s.ted
  | .col, s, t => t.col = s.col
  | .load, s, t => t.load = s.load
  | .sec, s, t => t.sec = s.sec
  | .pwr, s, t => t.pwr = s.pwr
  | .snap, s, t => t.snap = s.snap
  | .mesh, s, t => t.mesh = s.mesh
  | .move, s, t => t.move = s.move
  | .land, s, t => t.land = s.land
  | .sent, s, t => t.sent = s.sent
  | .free, s, t => t.free = s.free

/-- The states agree on the queue and on every field not listed. -/
def SameBut (l : List Field) (s t : State) : Prop := t.pending = s.pending ∧ ∀ f : Field, f ∉ l → f.same s t

/-- From `s` the action goes on with `x` in the state `t`. -/
def Runs {α : Type} (a : Act α) (s : State) (x : α) (t : State) : Prop :=
  ∀ k : α → Script, Script.run (a k) s = Script.run (k x) t

/-- The states agree on every register that is not listed. -/
def RegsBut (l : List Nat) (s t : State) : Prop := ∀ a, a ∉ l → t.reg a = s.reg a

end Sys2Proof.Machine
end

