-- ==== Sys2Proof/WellFormed.lean ====
section
/-! DEFINITION. What a command must satisfy to be one that the outside can give: the bounds the spec sets on its operands
that their types do not already set. Meanings are given to every term of `Instr`; these checks say which of them stand
for something that can reach the package. -/

namespace Sys2Proof

/-- An access of a core or a bus master is of 1, 2, 4 or 8 bytes (R9, R340). -/
def accessSize (n : Nat) : Bool := n = 1 || n = 2 || n = 4 || n = 8

/-- A packet has its 32-byte header and at most 4,096 bytes of payload (R329); VL0 to VL5 carry packets (R322). -/
def RxPacket.wf (p : RxPacket) : Bool := 32 ≤ p.bytes.length && p.bytes.length ≤ 4128 && decide (p.vl.val ≤ 5)

/-- Bytes that name a run of a 2^40-byte space stay inside it (R29). -/
def runInside (addr : BitVec 40) (n : Nat) : Bool := 0 < n && addr.toNat + n ≤ 2 ^ 40

/-- No two entries of a list name the same thing. -/
def namesOnce : List Nat → Bool
  | [] => true
  | n :: l => !l.contains n && namesOnce l

/-- What a bring-up meets: sites of 0 to 16 and channels of 0 to 15 identify, each once (R388, R393). -/
def BootEnv.wf (e : BootEnv) : Bool :=
  e.sites.all (· < 17) && namesOnce e.sites && e.chans.all (· < 16) && namesOnce e.chans

/-- The packet a command brings. -/
def Instr.packet : Instr → Option RxPacket
  | .registerWrite _ _ _ _ => none
  | .timNowRead _ => none
  | .pageEnable _ _ _ => none
  | .pageQuiesce _ _ _ => none
  | .quiesceComplete _ => none
  | .pageLockWrite _ _ _ => none
  | .schedTickWrite _ _ _ => none
  | .stagedWrite _ _ _ => none
  | .doorbellProducer _ _ _ => none
  | .doorbellConsumer _ _ _ => none
  | .tickEdge _ _ => none
  | .gmapShadowCopyDone => none
  | .tileZeroDone _ => none
  | .hubUnitZeroDone _ _ => none
  | .sliceZeroDone => none
  | .tickRunSet _ => none
  | .tickRunClear _ => none
  | .ptpSync _ _ _ _ _ _ _ => none
  | .ptpFollowUp _ _ _ _ _ _ => none
  | .ptpAnnounce _ _ _ _ => none
  | .ptpDelayReq => none
  | .ptpDelayResp _ _ _ _ _ _ => none
  | .beacon pkt => some pkt
  | .syncLossTimeout => none
  | .holdoverErrorLimit _ => none
  | .stepStart _ => none
  | .barrierRelease _ => none
  | .gleanPost _ _ _ => none
  | .gleanCancel _ _ => none
  | .gleanOpen _ _ _ => none
  | .gleanClose _ _ _ _ _ _ _ => none
  | .gleanSwapBack _ _ => none
  | .selftestStart _ _ => none
  | .selftestDone _ _ => none
  | .tileFail _ _ => none
  | .coreFail _ => none
  | .meshInject _ _ _ _ _ => none
  | .meshHoldRelease _ => none
  | .meshHoldTimeout => none
  | .opqTailWrite _ _ _ => none
  | .opRetire _ _ _ => none
  | .opSignal _ _ => none
  | .opFlush _ _ _ => none
  | .nop _ => none
  | .matmul _ => none
  | .finish _ => none
  | .combine _ => none
  | .vewAdd _ => none
  | .vewSub _ => none
  | .vewMul _ => none
  | .vewFma _ => none
  | .vewMax _ => none
  | .vewMin _ => none
  | .vewConvert _ => none
  | .actRelu _ => none
  | .actSigmoid _ => none
  | .actSilu _ => none
  | .actGeluTanh _ => none
  | .actExp _ => none
  | .actSwiglu _ => none
  | .normRms _ => none
  | .normLayer _ => none
  | .rope _ => none
  | .reduceSum _ => none
  | .reduceSumSquares _ => none
  | .reduceMax _ => none
  | .reduceMin _ => none
  | .reduceMaxAbs _ => none
  | .quant _ => none
  | .topk _ => none
  | .select _ => none
  | .gather _ => none
  | .scatter _ => none
  | .sample _ => none
  | .attn _ => none
  | .wait _ => none
  | .walkInv _ _ => none
  | .qhistWrite _ _ _ => none
  | .ringContextWrite _ _ _ _ => none
  | .ringIn pkt => some pkt
  | .admission _ => none
  | .cancel _ => none
  | .mirrorConf pkt => some pkt
  | .mirrorTimeout _ => none
  | .stepArm _ _ _ _ => none
  | .cowCopyDone _ => none
  | .stepCommit _ _ => none
  | .commitResume _ => none
  | .stepRollback _ _ => none
  | .unpark _ _ _ => none
  | .listRelease _ _ _ => none
  | .prxShare _ _ _ _ => none
  | .prxWithdraw _ _ _ _ => none
  | .prxKeyWrite _ _ _ _ _ => none
  | .dmaEntry _ => none
  | .dmaEntryDone _ => none
  | .ringMsg pkt => some pkt
  | .ringBusy pkt => some pkt
  | .ringMsgRetry _ => none
  | .placeTailWrite _ _ _ => none
  | .placeRequest _ => none
  | .placeSignal _ => none
  | .biasUpdate _ => none
  | .biasReadyWrite _ => none
  | .gddr7Read _ _ _ _ _ _ _ => none
  | .gddr7Write _ _ _ _ => none
  | .siteFail _ => none
  | .scrubStripe _ _ _ => none
  | .retrainDue _ _ => none
  | .coverCatchup _ => none
  | .wbLoad _ _ _ _ => none
  | .wbFlush _ _ _ _ => none
  | .wbEvict _ _ _ _ => none
  | .wbDiscard _ _ _ _ => none
  | .wbCommandDone _ => none
  | .writeThroughFlush _ _ => none
  | .migStart _ _ => none
  | .migAbort _ _ => none
  | .migCopyDone => none
  | .flqTailWrite _ _ _ => none
  | .flashRead _ => none
  | .flashWrite _ => none
  | .flashTrim _ => none
  | .flashCmdDone _ => none
  | .hardDecode _ _ _ => none
  | .softDecode _ _ => none
  | .programDone _ => none
  | .programFail _ _ => none
  | .refreshBlock _ => none
  | .gcRelocate _ => none
  | .wearLevelMove _ => none
  | .mapCheckpoint => none
  | .mapRebuildDone => none
  | .ldqTailWrite _ _ _ => none
  | .verify _ => none
  | .drop _ => none
  | .keyRequest _ => none
  | .keyRequestTimeout _ => none
  | .keyInstall _ => none
  | .load _ => none
  | .chunkLanded _ _ _ => none
  | .chunkTimeout _ _ _ => none
  | .loadDone _ _ => none
  | .rdmaReadResponse _ _ _ _ => none
  | .roceAck _ _ => none
  | .roceNak _ => none
  | .roceTimeout _ => none
  | .bulkFrameDrop _ => none
  | .peerReq pkt => some pkt
  | .peerData pkt => some pkt
  | .peerNotHeld pkt => some pkt
  | .tdqTailWrite _ _ _ => none
  | .fillPiece _ _ => none
  | .fillPieceDone _ => none
  | .adpStage _ _ => none
  | .adpPublish _ _ _ _ => none
  | .adpWithdraw _ _ _ _ => none
  | .adpDrop _ _ _ _ => none
  | .baseDiscard _ _ => none
  | .baseCutoverStage _ _ => none
  | .baseRetire _ => none
  | .portEnable _ _ _ => none
  | .linkTrainPass _ _ => none
  | .linkTrainTimeout _ => none
  | .linkFlitRx _ _ _ => none
  | .linkNak _ _ => none
  | .linkReplayTimeout _ => none
  | .laneFail _ _ => none
  | .spareSwapDone _ => none
  | .linkDelayMeasure _ _ _ _ _ => none
  | .transitFlit _ _ _ _ => none
  | .quench pkt => some pkt
  | .unquench pkt => some pkt
  | .drain pkt => some pkt
  | .pstop pkt => some pkt
  | .quenchExpire _ => none
  | .quenchClear _ _ => none
  | .put pkt => some pkt
  | .putEnd pkt => some pkt
  | .putDone pkt => some pkt
  | .putTimeout _ => none
  | .boardLoad _ _ _ _ => none
  | .boardStore _ _ _ _ _ => none
  | .bld pkt => some pkt
  | .bst pkt => some pkt
  | .brsp pkt => some pkt
  | .mirror pkt => some pkt
  | .clqTailWrite _ _ _ => none
  | .allreduce _ => none
  | .reduceScatter _ => none
  | .allgather _ => none
  | .broadcast _ => none
  | .colReady _ _ => none
  | .colOut pkt => some pkt
  | .colResend pkt => some pkt
  | .colDone pkt => some pkt
  | .colTimeout _ _ => none
  | .colAbort _ _ => none
  | .hayCallAct _ => none
  | .hayCallExtend _ => none
  | .hayCallReport _ => none
  | .coreMemoryAccess _ _ _ _ _ => none
  | .partitionStop _ _ => none
  | .floorCommit _ _ _ => none
  | .ownerKeyInstall _ _ _ => none
  | .ownerKeyRemove _ _ _ => none
  | .secReport _ _ _ => none
  | .provision _ _ _ => none
  | .claim _ _ _ => none
  | .lifecycleRelease _ _ _ => none
  | .decommission _ _ _ => none
  | .debug _ _ _ => none
  | .mgmtCommand _ _ => none
  | .attestReq _ => none
  | .grant _ => none
  | .ownerKey _ => none
  | .powerCap _ => none
  | .vfStep => none
  | .curbEdge _ => none
  | .dividerRelease => none
  | .capGuard => none
  | .stageFail _ => none
  | .vinLow => none
  | .vinRecover => none
  | .vinLoss => none
  | .droop _ _ => none
  | .thermalSample _ _ => none
  | .thermalTrip => none
  | .energySample _ _ _ => none
  | .stepAbandon _ _ => none
  | .kvRebuild _ _ _ _ => none
  | .recover _ _ _ _ => none
  | .tileReset _ _ => none
  | .partitionReset _ _ => none
  | .warmReset _ _ => none
  | .coldPackageReset _ _ => none
  | .snapshotCopyDone _ => none
  | .vinMainValid _ => none
  | .strapSample _ => none
  | .vstbyLoss => none
  | .refclkLoss _ => none
  | .i3cWordRead _ => none
  | .entdaa _ => none
  | .setdasa _ _ => none
  | .rstdaa => none
  | .getstatus => none
  | .enec => none
  | .disec => none
  | .bypass => none
  | .idcode => none
  | .samplePreload _ _ => none
  | .extest _ _ => none
  | .clamp => none
  | .trst => none
  | .mgtPortEnable _ _ _ => none
  | .arpRequest _ _ => none
  | .neighborSolicitation _ _ => none
  | .pauseFrame _ _ => none
  | .mgtFrameDrop _ => none
  | .registerRead _ _ _ => none
  | .undefinedPacketDiscard pkt => some pkt
  | .linkManagementRequest _ _ => none

/-- The bounds of a command beside those of its packet. -/
def Instr.bounds : Instr → Bool
  | .registerWrite _ _ width _ => accessSize width
  | .timNowRead _ => true
  | .pageEnable _ _ _ => true
  | .pageQuiesce _ _ _ => true
  | .quiesceComplete _ => true
  | .pageLockWrite _ _ _ => true
  | .schedTickWrite _ _ _ => true
  | .stagedWrite _ _ _ => true
  | .doorbellProducer _ _ _ => true
  | .doorbellConsumer _ _ _ => true
  | .tickEdge calFailed _ => namesOnce (calFailed.map (·.val))
  | .gmapShadowCopyDone => true
  | .tileZeroDone _ => true
  | .hubUnitZeroDone _ _ => true
  | .sliceZeroDone => true
  | .tickRunSet _ => true
  | .tickRunClear _ => true
  | .ptpSync src _ _ _ _ _ _ => decide (src < 2 ^ 64)
  | .ptpFollowUp src _ _ _ _ _ => decide (src < 2 ^ 64)
  | .ptpAnnounce src _ _ _ => decide (src < 2 ^ 64)
  | .ptpDelayReq => true
  | .ptpDelayResp src _ _ _ _ _ => decide (src < 2 ^ 64)
  | .beacon _ => true
  | .syncLossTimeout => true
  | .holdoverErrorLimit _ => true
  | .stepStart _ => true
  | .barrierRelease _ => true
  | .gleanPost _ _ _ => true
  | .gleanCancel _ _ => true
  | .gleanOpen _ calFailed _ => namesOnce (calFailed.map (·.val))
  | .gleanClose _ _ _ _ _ _ _ => true
  | .gleanSwapBack _ _ => true
  | .selftestStart _ _ => true
  | .selftestDone _ _ => true
  | .tileFail _ _ => true
  | .coreFail _ => true
  | .meshInject _ _ _ _ _ => true
  | .meshHoldRelease _ => true
  | .meshHoldTimeout => true
  | .opqTailWrite _ _ _ => true
  | .opRetire _ _ _ => true
  | .opSignal _ _ => true
  | .opFlush _ _ _ => true
  | .nop _ => true
  | .matmul _ => true
  | .finish _ => true
  | .combine _ => true
  | .vewAdd _ => true
  | .vewSub _ => true
  | .vewMul _ => true
  | .vewFma _ => true
  | .vewMax _ => true
  | .vewMin _ => true
  | .vewConvert _ => true
  | .actRelu _ => true
  | .actSigmoid _ => true
  | .actSilu _ => true
  | .actGeluTanh _ => true
  | .actExp _ => true
  | .actSwiglu _ => true
  | .normRms _ => true
  | .normLayer _ => true
  | .rope _ => true
  | .reduceSum _ => true
  | .reduceSumSquares _ => true
  | .reduceMax _ => true
  | .reduceMin _ => true
  | .reduceMaxAbs _ => true
  | .quant _ => true
  | .topk _ => true
  | .select _ => true
  | .gather _ => true
  | .scatter _ => true
  | .sample _ => true
  | .attn _ => true
  | .wait _ => true
  | .walkInv _ _ => true
  | .qhistWrite _ _ _ => true
  | .ringContextWrite _ _ _ _ => true
  | .ringIn _ => true
  | .admission _ => true
  | .cancel _ => true
  | .mirrorConf _ => true
  | .mirrorTimeout _ => true
  | .stepArm _ _ give _ => namesOnce give
  | .cowCopyDone _ => true
  | .stepCommit _ _ => true
  | .commitResume _ => true
  | .stepRollback _ _ => true
  | .unpark _ _ _ => true
  | .listRelease _ _ _ => true
  | .prxShare _ _ _ _ => true
  | .prxWithdraw _ _ _ _ => true
  | .prxKeyWrite _ _ _ _ _ => true
  | .dmaEntry _ => true
  | .dmaEntryDone _ => true
  | .ringMsg _ => true
  | .ringBusy _ => true
  | .ringMsgRetry _ => true
  | .placeTailWrite _ _ _ => true
  | .placeRequest _ => true
  | .placeSignal _ => true
  | .biasUpdate _ => true
  | .biasReadyWrite _ => true
  | .gddr7Read _ _ _ _ _ _ _ => true
  | .gddr7Write _ _ addr bytes => runInside addr bytes.length
  | .siteFail _ => true
  | .scrubStripe _ _ _ => true
  | .retrainDue _ _ => true
  | .coverCatchup _ => true
  | .wbLoad _ _ _ _ => true
  | .wbFlush _ _ _ _ => true
  | .wbEvict _ _ _ _ => true
  | .wbDiscard _ _ _ _ => true
  | .wbCommandDone _ => true
  | .writeThroughFlush _ _ => true
  | .migStart _ _ => true
  | .migAbort _ _ => true
  | .migCopyDone => true
  | .flqTailWrite _ _ _ => true
  | .flashRead _ => true
  | .flashWrite _ => true
  | .flashTrim _ => true
  | .flashCmdDone _ => true
  | .hardDecode _ _ _ => true
  | .softDecode _ _ => true
  | .programDone _ => true
  | .programFail _ _ => true
  | .refreshBlock _ => true
  | .gcRelocate _ => true
  | .wearLevelMove _ => true
  | .mapCheckpoint => true
  | .mapRebuildDone => true
  | .ldqTailWrite _ _ _ => true
  | .verify _ => true
  | .drop _ => true
  | .keyRequest _ => true
  | .keyRequestTimeout _ => true
  | .keyInstall _ => true
  | .load _ => true
  | .chunkLanded _ _ _ => true
  | .chunkTimeout _ _ _ => true
  | .loadDone _ _ => true
  | .rdmaReadResponse _ _ payload _ => decide (payload.length ≤ 4096)
  | .roceAck _ _ => true
  | .roceNak _ => true
  | .roceTimeout _ => true
  | .bulkFrameDrop _ => true
  | .peerReq _ => true
  | .peerData _ => true
  | .peerNotHeld _ => true
  | .tdqTailWrite _ _ _ => true
  | .fillPiece _ _ => true
  | .fillPieceDone _ => true
  | .adpStage _ _ => true
  | .adpPublish _ _ _ _ => true
  | .adpWithdraw _ _ _ _ => true
  | .adpDrop _ _ _ _ => true
  | .baseDiscard _ _ => true
  | .baseCutoverStage _ _ => true
  | .baseRetire _ => true
  | .portEnable _ _ _ => true
  | .linkTrainPass _ _ => true
  | .linkTrainTimeout _ => true
  | .linkFlitRx _ bytes _ => decide (bytes.length = 256)
  | .linkNak _ _ => true
  | .linkReplayTimeout _ => true
  | .laneFail _ _ => true
  | .spareSwapDone _ => true
  | .linkDelayMeasure _ _ _ _ _ => true
  | .transitFlit _ _ _ payload => decide (payload.length = 240)
  | .quench _ => true
  | .unquench _ => true
  | .drain _ => true
  | .pstop _ => true
  | .quenchExpire _ => true
  | .quenchClear _ _ => true
  | .put _ => true
  | .putEnd _ => true
  | .putDone _ => true
  | .putTimeout _ => true
  | .boardLoad _ _ size _ => accessSize size
  | .boardStore _ _ size _ _ => accessSize size
  | .bld _ => true
  | .bst _ => true
  | .brsp _ => true
  | .mirror _ => true
  | .clqTailWrite _ _ _ => true
  | .allreduce _ => true
  | .reduceScatter _ => true
  | .allgather _ => true
  | .broadcast _ => true
  | .colReady _ _ => true
  | .colOut _ => true
  | .colResend _ => true
  | .colDone _ => true
  | .colTimeout _ _ => true
  | .colAbort _ _ => true
  | .hayCallAct _ => true
  | .hayCallExtend _ => true
  | .hayCallReport _ => true
  | .coreMemoryAccess _ _ size _ _ => accessSize size
  | .partitionStop _ _ => true
  | .floorCommit _ _ _ => true
  | .ownerKeyInstall _ _ _ => true
  | .ownerKeyRemove _ _ _ => true
  | .secReport _ _ _ => true
  | .provision _ _ _ => true
  | .claim _ _ _ => true
  | .lifecycleRelease _ _ _ => true
  | .decommission _ _ _ => true
  | .debug _ _ _ => true
  | .mgmtCommand _ _ => true
  | .attestReq _ => true
  | .grant _ => true
  | .ownerKey _ => true
  | .powerCap _ => true
  | .vfStep => true
  | .curbEdge _ => true
  | .dividerRelease => true
  | .capGuard => true
  | .stageFail _ => true
  | .vinLow => true
  | .vinRecover => true
  | .vinLoss => true
  | .droop _ _ => true
  | .thermalSample _ temps => namesOnce (temps.map (·.1.val))
  | .thermalTrip => true
  | .energySample _ core _ => decide (core.length = 4)
  | .stepAbandon _ _ => true
  | .kvRebuild _ _ _ _ => true
  | .recover _ _ _ _ => true
  | .tileReset _ _ => true
  | .partitionReset _ _ => true
  | .warmReset _ env => env.wf
  | .coldPackageReset _ env => env.wf
  | .snapshotCopyDone _ => true
  | .vinMainValid env => env.wf
  | .strapSample _ => true
  | .vstbyLoss => true
  | .refclkLoss _ => true
  | .i3cWordRead _ => true
  | .entdaa _ => true
  | .setdasa _ _ => true
  | .rstdaa => true
  | .getstatus => true
  | .enec => true
  | .disec => true
  | .bypass => true
  | .idcode => true
  | .samplePreload _ _ => true
  | .extest _ _ => true
  | .clamp => true
  | .trst => true
  | .mgtPortEnable _ _ _ => true
  | .arpRequest _ _ => true
  | .neighborSolicitation _ _ => true
  | .pauseFrame _ _ => true
  | .mgtFrameDrop _ => true
  | .registerRead _ _ width => accessSize width
  | .undefinedPacketDiscard _ => true
  | .linkManagementRequest _ _ => true

/-- A command that the outside can give. -/
def Instr.wf (i : Instr) : Bool := i.bounds && (match i.packet with | some p => p.wf | none => true)

end Sys2Proof
end

