-- ==== Sys2Proof/Certificates/Slice0/Obligations.lean ====
section
/-! DEFINITION. What is claimed of the machine, one definition for each statement. -/

/-! ## Vocabulary of the statements -/

namespace Sys2Proof.Machine

/-- The package serves the commands of its VIN_MAIN domains, and no GDDR7 site is in its window, so none waits for one (R257). -/
def State.clear (s : State) : Prop := s.up ∧ s.windowed = []

/-- The core can act, and the common checks of a 64-bit write by it let it go on (R9 to R12, R14, R16, R41, R64, R487). -/
def Admits (s : State) (core a : Nat) (v : Word) : Prop :=
  s.coreUp core = true ∧ s.writeReason (s.coreIssuer core) a 8 v = none

/-- `u` is `t` with the access answered without error; a milestone may have been reached (R17, R484). -/
def Answered (t u : State) : Prop := SameBut [.resp, .land, .sent] t u ∧ u.resp = { reason := 0, data := 0 }

/-- A counter that no chain of R456 has taken in. -/
def Unchained (s : State) (a : Nat) : Prop :=
  getFld (s.reg a) F.COUNTER.chain_high = 0 ∧ getFld (s.reg a) F.COUNTER.chain_low = 0

end Sys2Proof.Machine

open Sys2Proof Sys2Proof.Machine

/-! ## The queue, the step, the whole machine -/

/-- The step takes the command at the front of the queue and is `exec` of it on the state with the queue's rest. Where the
model chooses, it rests on assumption 1. -/
def Obligations.StepRunsFront : Prop :=
  ∀ (s : State) (c : Instr) (rest : List Instr), s.pending = c :: rest → step s = exec c { s with pending := rest }

/-- On an empty queue the step is one clock of fabric time (the model's choice, assumption 2): fabric time advances by 1 ns
corrected by the rate adjustment (R53). Where nothing waits at the management port, no microsecond ends, no quench runs out
(R343) and no tick edge falls due (R62), TIM_NOW and the fraction beside it are all that changes. -/
def Obligations.IdleStepIsOneClock : Prop :=
  ∀ (s : State) (n : Nat), s.pending = [] → s.land.txq = [] →
    (∀ p, p < 32 → ∀ t, (s.part p).quenchEnd = some t → n / 2 ^ 32 < t) → (s.run = true → n / 2 ^ 32 < s.time.nextTime + 100) →
    ((s.now * 2 ^ 32 + s.time.frac : Nat) + 2 ^ 32 + s.rateAdj : Int) = n → n < 2 ^ 96 → n / 2 ^ 32 / 1000 = s.now / 1000 →
      ∃ t, step s = .next t ∧ t.now = n / 2 ^ 32 ∧ t.time = { s.time with frac := n % 2 ^ 32 } ∧ RegsBut [R.TIM_NOW] s t ∧
        SameBut [.regs, .time] s t

/-- Every step answers a next state, whose queue is the old one without its front: nothing stops this machine. Where the
model chooses, it rests on assumptions 1 and 6. -/
def Obligations.EveryStepGoesOn : Prop := ∀ s : State, ∃ t, step s = .next t ∧ t.pending = s.pending.tail

/-- What has left the package stays as it was; a step may add to it. Where the model chooses, it rests on assumption 1. -/
def Obligations.WhatLeftStays : Prop := ∀ s t : State, step s = .next t → ∃ l, t.sent = s.sent ++ l

/-- Every store holds its canonical form at reset. Where the model chooses, it rests on assumptions 3 and 5. -/
def Obligations.ResetIsCanonical : Prop := State.reset.canonical = true

/-- Every step keeps the canonical form of every store: registers, staged values, memory, tables and records. Where the
model chooses, it rests on assumption 5. -/
def Obligations.StepKeepsCanonicalForm : Prop :=
  ∀ s t : State, s.canonical = true → step s = .next t → t.canonical = true

/-! ## The register window -/

/-- R6. A register access must be an aligned 64-bit load or store. The package answers any access of another width or
alignment with an error response and performs no part of it: no field of the state changes but the record of the refusal and
the answer, no register but ERR_ADDR, ERR_INFO and IRQ_STATUS of a page, the violation log's head and the counters. -/
def Obligations.MisalignedAccessRefused : Prop :=
  ∀ (s : State) (core : CoreId) (addr : BitVec 64) (width : Nat) (v : Word), s.coreUp core = true →
    (width ≠ 8 ∨ addr.toNat % 8 ≠ 0) →
    ∀ c, (c = .registerWrite core addr width v ∨ c = .registerRead core addr width) →
      ∃ t, exec c s = .next t ∧ t.resp.reason ≠ 0 ∧ SameBut [.regs, .mem, .resp] s t ∧
        ∀ a, a % 0x1000 < 0x800 → a % 0x1000 ≠ 0x30 → a % 0x1000 ≠ 0x38 → a % 0x1000 ≠ 0x40 → a ≠ R.HAY_VLOG_HEAD →
          t.reg a = s.reg a

/-- A run-time core that acts for no owner of a page gets reason 0x02 and changes nothing of it (R12, R17): the frame is
that of a refusal. The page is not of the DBL block, the offset is that of a block register or a common one. Where the model
chooses, it rests on assumptions 8 and 15. -/
def Obligations.ForeignPageIsolated : Prop :=
  ∀ (s : State) (core : CoreId) (b : Block) (p off : Nat) (v : Word), s.coreUp core = true → b ≠ .dbl → p < b.pages → off < 0x1000 →
    off % 8 = 0 → s.owns (s.coreIssuer core) (pageBase b p) = false →
      ∃ t, exec (.registerWrite core (BitVec.ofNat 64 (regA b p off)) 8 v) s = .next t ∧ t.resp = { reason := 2, data := 0 } ∧
        SameBut [.regs, .mem, .resp] s t ∧
        ∀ a, a % 0x1000 < 0x800 → a % 0x1000 ≠ 0x30 → a % 0x1000 ≠ 0x38 → a % 0x1000 ≠ 0x40 → a ≠ R.HAY_VLOG_HEAD →
          t.reg a = s.reg a

/-- The registers whose write only stores its value: of the common ones PAGE_OWNER, ERR_INFO, IRQ_STATUS and IRQ_ENABLE (a TILE
page's PAGE_OWNER is not written), and the block registers of these pages that start nothing and check nothing of their own. -/
def Sys2Proof.Machine.onlyStores (b : Block) (p off : Nat) : Bool := match b with
  | .dbl => false
  | .tile => [0x38, 0x40, 0x48].contains off
  | _ => [0x20, 0x38, 0x40, 0x48].contains off || decide (0x100 ≤ off) && match b with
    | .tim => p = 0 && off ≠ 0x110 || p = 2
    | .hay => p = 0 && off ≠ 0x120 || p = 1 || p = 10
    | .prt => [0x108, 0x120, 0x128, 0x130].contains off
    | .req => p ≠ 0 && ([0x108, 0x128, 0x130, 0x138, 0x148].contains off || decide (0x180 ≤ off ∧ off < 0x1C0))
    | .xrt => decide (p < 4)
    | .bin => decide (p < 2)
    | .flc => off ≠ 0x100 && off ≠ 0x310
    | .sec => p = 0 && (off = 0x110 || off = 0x148)
    | .mgt => decide (0x110 ≤ off)
    | _ => false

/-- REGISTER_WRITE and REGISTER_READ (R10, R11, R487): a write, that the checks let go on, of a register that only stores
replaces the writable fields and clears the W1C bits that are written 1, and changes no other register. A read that the
checks let go on, of any page, answers what the page shows of the register, and changes nothing else; of the registers that
only store a page shows the value, with the write-only fields as 0. -/
def Sys2Proof.Machine.PlainRegisterAccess : Prop :=
  (∀ (s : State) (core : CoreId) (b : Block) (p off : Nat) (v : Word) (r : RegRow), p < b.pages → off < 0x1000 →
    onlyStores b p off = true → rowOf (regA b p off) = some r → r.staged = false → Admits s core (regA b p off) v →
      ∃ t, exec (.registerWrite core (BitVec.ofNat 64 (regA b p off)) 8 v) s = .next t ∧ t.resp = { reason := 0, data := 0 } ∧
        t.reg (regA b p off) = r.written (s.reg (regA b p off)) v true ∧ RegsBut [regA b p off] s t ∧
        SameBut [.regs, .resp, .land, .sent] s t) ∧
  (∀ (s : State) (core : CoreId) (b : Block) (p off n : Nat), b ≠ .dbl → p < b.pages → off < 0x1000 → regA b p off ≠ R.TIM_NOW →
    s.coreUp core = true → s.readReason (s.coreIssuer core) (regA b p off) 8 = none → s.readView b p off = .ok n →
      exec (.registerRead core (BitVec.ofNat 64 (regA b p off)) 8) s =
        .next ((Upd.resp { reason := 0, data := BitVec.ofNat 64 n }).apply s)) ∧
  (∀ (s : State) (b : Block) (p off : Nat) (r : RegRow), p < b.pages → off < 0x1000 → onlyStores b p off = true →
    rowOf (regA b p off) = some r →
    s.readView b p off = .ok (mergeBits (s.reg (regA b p off)).toNat 0 (r.mask (fun c => c = .wo))))

/-- TIM_NOW_READ (R78): a read of TIM_NOW answers fabric time and latches its fraction beside it, and changes no other
register. -/
def Sys2Proof.Machine.ReadingTimeLatchesFraction : Prop :=
  ∀ (s : State) (core : CoreId), s.coreUp core = true → s.readReason (s.coreIssuer core) R.TIM_NOW 8 = none →
    ∃ t, exec (.timNowRead core) s = .next t ∧ t.resp = { reason := 0, data := s.reg R.TIM_NOW } ∧
      t.fldOf R.TIM_NOW_FRAC F.TIM_NOW_FRAC.frac = s.time.frac / 2 ^ 16 % 2 ^ 16 ∧ RegsBut [R.TIM_NOW_FRAC] s t ∧
      SameBut [.regs, .resp] s t

/-- STAGED_WRITE (R64): while ticks run, a write of a threshold's count, a tick-staged register, stores a staged value and
sets PAGE_STATUS.staged_pending of its page; the value in effect stays, and no other register changes. Where the model
chooses, it rests on assumptions 8 and 10. -/
def Obligations.StagedWriteWaits : Prop :=
  ∀ (s : State) (core : CoreId) (i : Fin 16) (v : Word), s.run = true → Admits s core (R.CNT_THR_N i) v →
    ∃ t, exec (.stagedWrite core (BitVec.ofNat 64 (R.CNT_THR_N i)) v) s = .next t ∧ t.resp = { reason := 0, data := 0 } ∧
      storeGet (fun _ => none) t.staged (R.CNT_THR_N i) = some v ∧
      t.fldOf (pageBase .cnt 2 + 0x18) F.PAGE_STATUS.staged_pending = 1 ∧ t.reg (R.CNT_THR_N i) = s.reg (R.CNT_THR_N i) ∧
      RegsBut [pageBase .cnt 2 + 0x18] s t ∧ SameBut [.regs, .staged, .resp, .land, .sent] s t

/-- SCHED_TICK_WRITE (R66): While staged_pending is 1, SCHED_TICK may be written only with 0; writing 0 discards every
staged value of the page and clears staged_pending; any other value is refused with reason 0x08. The page is no DBL page,
and not BIN page 2, whose committed base cut-over R315 keeps. Where the model chooses, it rests on assumptions 8 and 10. -/
def Obligations.ScheduledTickWrite : Prop :=
  ∀ (s : State) (core : CoreId) (page : Fin 32896) (b : Block) (p : Nat) (v : Word), pageOf (winPage page + 0x50) = some (b, p) →
    b ≠ .dbl → pageBase b p ≠ pageBase .bin 2 → Admits s core (winPage page + 0x50) v →
    s.fldOf (pageBase b p + 0x18) F.PAGE_STATUS.staged_pending = 1 →
      ∃ t, exec (.schedTickWrite core page v) s = .next t ∧
        (if getFld v F.SCHED_TICK.tick = 0 then t.resp.reason = 0 ∧ t.fldOf (pageBase b p + 0x18) F.PAGE_STATUS.staged_pending = 0 ∧
            (∀ a, pageBase b p ≤ a → a < pageBase b p + 0x1000 → storeGet (fun _ => none) t.staged a = none)
          else t.resp.reason = 8 ∧ t.staged = s.staged)

/-! ## Pages, locks and doorbells -/

/-- PAGE_ENABLE, PAGE_QUIESCE, PAGE_LOCK_WRITE and QUIESCE_COMPLETE (R14, R16, R48): an accepted write of PAGE_CTRL shows in
PAGE_STATUS.enabled, and resumes the page where it clears quiesce; a lock is set by anyone the page belongs to and cleared
by the hayward; with no work in hand under quiesce, quiesced sets and an ACTIVE tile goes to QUIESCED. The page is of any
block with common registers, and enabled by the record. Where the model chooses, it rests on assumptions 8, 114 and 177. -/
def Obligations.PagesInAndOutOfService : Prop :=
  (∀ (s : State) (core : CoreId) (page : Fin 32896) (b : Block) (p : Nat) (v : Word), pageOf (winPage page) = some (b, p) →
    b ≠ .dbl → s.record.disabled.contains (winPage page) = false → getFld v F.PAGE_CTRL.selftest_start = 0 →
    Admits s core (winPage page + 0x10) v → ∀ c, (c = .pageEnable core page v ∨ c = .pageQuiesce core page v) →
      ∃ t, exec c s = .next t ∧ t.resp = { reason := 0, data := 0 } ∧
        t.fldOf (winPage page + 0x10) F.PAGE_CTRL.enable = getFld v F.PAGE_CTRL.enable ∧
        t.fldOf (winPage page + 0x10) F.PAGE_CTRL.quiesce = getFld v F.PAGE_CTRL.quiesce ∧
        t.fldOf (winPage page + 0x18) F.PAGE_STATUS.enabled = getFld v F.PAGE_CTRL.enable ∧
        t.fldOf (winPage page + 0x18) F.PAGE_STATUS.quiesced =
          (if getFld v F.PAGE_CTRL.quiesce = 0 then 0 else s.fldOf (winPage page + 0x18) F.PAGE_STATUS.quiesced) ∧
        RegsBut [winPage page + 0x10, winPage page + 0x18] s t ∧ SameBut [.regs, .resp, .land, .sent] s t) ∧
  (∀ (s : State) (core : CoreId) (page : Fin 32896) (b : Block) (p : Nat) (v : Word), pageOf (winPage page) = some (b, p) →
    b ≠ .dbl → Admits s core (winPage page + 0x28) v →
    ((s.coreIssuer core).hay = true ∨ s.fldOf (winPage page + 0x28) F.PAGE_LOCK.lock = 0 ∨ getFld v F.PAGE_LOCK.lock = 1) →
      ∃ t, exec (.pageLockWrite core page v) s = .next t ∧ t.resp = { reason := 0, data := 0 } ∧
        t.fldOf (winPage page + 0x28) F.PAGE_LOCK.lock = getFld v F.PAGE_LOCK.lock ∧ RegsBut [winPage page + 0x28] s t ∧
        SameBut [.regs, .resp, .land, .sent] s t) ∧
  (∀ (s : State) (page : Fin 32896), s.up → s.record.disabled.contains (winPage page) = false →
    s.fldOf (winPage page + 0x10) F.PAGE_CTRL.quiesce = 1 →
    (∀ q, tilePage? (winPage page) = some q → (s.tile q).flights = []) →
      ∃ t, exec (.quiesceComplete page) s = .next t ∧ t.fldOf (winPage page + 0x18) F.PAGE_STATUS.quiesced = 1 ∧
        (∀ q, tilePage? (winPage page) = some q → t.tileState q = if s.tileState q = 3 then 4 else s.tileState q) ∧
        RegsBut [winPage page + 0x18] s t ∧ SameBut [.regs] s t)

/-- The doorbell may be rung: the issuer acts for the partition that holds the ring, or is the hayward (R183). -/
def Sys2Proof.Machine.MayRing (s : State) (core ring : Nat) : Prop :=
  s.coreUp core = true ∧ ((s.coreIssuer core).hay = true ∨ ((s.coreIssuer core).part.isSome = true ∧
    s.ringOwner ring = (s.coreIssuer core).part))

/-- DOORBELL_PRODUCER and DOORBELL_CONSUMER (R183): a doorbell whose index passes its checks, on a ring in service, sets the
ring's producer or consumer index, the other index staying as it was. The ring of a producer is no message ring here: such a
ring sends its next message as well. -/
def Sys2Proof.Machine.DoorbellSetsIndex : Prop :=
  (∀ (s : State) (core : CoreId) (ring : Fin 65536) (ix : BitVec 32), MayRing s core ring → s.ringUp ring = true →
    s.producerBad ring ix.toNat = false → s.ringType ring ≠ 5 →
      ∃ t, exec (.doorbellProducer core ring ix) s = .next t ∧ t.resp = { reason := 0, data := 0 } ∧
        t.ringProducer ring = ix.toNat ∧ t.ringConsumer ring = s.ringConsumer ring ∧ SameBut [.tab, .parts, .resp] s t) ∧
  (∀ (s : State) (core : CoreId) (ring : Fin 65536) (ix : BitVec 32) (p : Nat), MayRing s core ring → s.ringUp ring = true →
    s.consumerBad ring ix.toNat = false → s.ringOwner ring = some p → (s.part p).finals = [] →
      ∃ t, exec (.doorbellConsumer core ring ix) s = .next t ∧ t.resp = { reason := 0, data := 0 } ∧
        t.ringConsumer ring = ix.toNat ∧ t.ringProducer ring = s.ringProducer ring ∧ SameBut [.tab, .parts, .resp] s t)

/-! ## Fabric time and ticks -/

/-- A packet is received: its port or link is up or retraining, it passes the checks of R331, and `q` is the partition its
key names. -/
def Sys2Proof.Machine.Receives (s : State) (r : RxPacket) (type : Nat) (q : Option Nat) : Prop :=
  s.up ∧ (s.portState r.port = 2 ∨ s.portState r.port = 3) ∧ s.checkPacket r = .ok q ∧ pkType r.bytes = type

/-- The state once a packet's bytes are counted and its credits are owed (R327, R329). -/
def Sys2Proof.Machine.received (s : State) (r : RxPacket) : State := Act.run (takePacket r) s

/-- A PTP message arrives at the management port, which is up and in service; `mine` says whether PTP is on and the message is of
the configured domain and transport (R14, R55, R481). -/
def Sys2Proof.Machine.PtpArrives (s : State) (domain : BitVec 8) (transport : Fin 3) (mine : Prop) : Prop :=
  s.alive = true ∧ s.mgtUp = true ∧ s.pageServes (pageBase .mgt 0) = true ∧
    ((s.fldOf R.TIM_SYNC_CTRL F.TIM_SYNC_CTRL.ptp_enable = 1 ∧ s.fldOf R.TIM_SYNC_CTRL F.TIM_SYNC_CTRL.ptp_domain = domain.toNat ∧
      s.fldOf R.TIM_SYNC_CTRL F.TIM_SYNC_CTRL.transport = transport) ↔ mine)

/-- PTP_SYNC, PTP_FOLLOW_UP, PTP_DELAY_RESP, PTP_DELAY_REQ and PTP_ANNOUNCE (R55, R57): messages of the configured domain
and transport from the selected master. A Sync is timestamped as it arrives; once its origin time is known the offset is the
arrival time less the origin and the path delay, and shows in TIM_OFFSET; the four times of a Sync and a Delay_Req give the
path delay; a better master is selected. A message of another domain or transport, or with PTP off, is dropped (R481). The
wire order of ranks is the model's (assumption 9), as are the bytes a frame counts (assumption 162). Where the model
chooses, it rests on assumptions 9, 21, 140, 162 and 178. -/
def Obligations.PtpMessages : Prop :=
  (∀ (s : State) (src : Nat) (domain : BitVec 8) (transport : Fin 3) (seq : BitVec 16) (twoStep : Bool) (origin corr : BitVec 64),
    PtpArrives s domain transport True → s.ptpTakes src = true →
      ∃ t, exec (.ptpSync src domain transport seq twoStep origin corr) s = .next t ∧ t.time.syncSeq = seq.toNat ∧
        t.time.syncT2 = (s.now : Int) * 16 ∧ t.time.twoStep = twoStep ∧
        t.time.syncT1 = (if twoStep then none else some (ptpTime origin.toNat corr.toNat)) ∧
        (twoStep = false → t.fldOf R.TIM_OFFSET F.TIM_OFFSET.offset =
          wrapI 32 ((s.now : Int) * 16 - ptpTime origin.toNat corr.toNat - s.time.pathDelay)) ∧
        (twoStep = true → s.fldOf R.TIM_SYNC_STATUS F.TIM_SYNC_STATUS.state = 0 →
          t.fldOf R.TIM_SYNC_STATUS F.TIM_SYNC_STATUS.state = 1) ∧
        SameBut [.regs, .time, .land, .sent, .free] s t) ∧
  (∀ (s : State) (src : Nat) (domain : BitVec 8) (transport : Fin 3) (seq : BitVec 16) (origin corr : BitVec 64),
    PtpArrives s domain transport True → s.ptpTakes src = true → s.time.twoStep = true → s.time.syncSeq = seq.toNat →
      ∃ t, exec (.ptpFollowUp src domain transport seq origin corr) s = .next t ∧ t.time.twoStep = false ∧
        t.time.syncT1 = some (ptpTime origin.toNat corr.toNat + s.time.syncCorr) ∧ t.fldOf R.TIM_OFFSET F.TIM_OFFSET.offset =
          wrapI 32 (s.time.syncT2 - (ptpTime origin.toNat corr.toNat + s.time.syncCorr) - s.time.pathDelay) ∧
        SameBut [.regs, .time, .land, .sent, .free] s t) ∧
  (∀ (s : State) (src : Nat) (domain : BitVec 8) (transport : Fin 3) (seq : BitVec 16) (t4 corr : BitVec 64) (t3 t1 : Int),
    PtpArrives s domain transport True → s.ptpTakes src = true → s.time.reqSeq = seq.toNat → s.time.reqT3 = some t3 →
    s.time.syncT1 = some t1 →
      ∃ t, exec (.ptpDelayResp src domain transport seq t4 corr) s = .next t ∧
        t.time = { s.time with
          reqT3 := none
          pathDelay := ((s.time.syncT2 - t1) + ((t4.toNat : Int) * 16 - sext 64 corr.toNat / 4096 - t3)) / 2 } ∧
        SameBut [.regs, .time, .land, .sent] s t) ∧
  (∀ s : State, s.alive = true → s.fldOf R.TIM_SYNC_CTRL F.TIM_SYNC_CTRL.ptp_enable = 1 → s.time.master.isSome = true →
      ∃ t, exec .ptpDelayReq s = .next t ∧
        t.time = { s.time with reqSeq := (s.time.reqSeq + 1) % 2 ^ 16, reqT3 := some ((s.now : Int) * 16) } ∧
        (if s.mgtHolds = true then
            t.land.txq = s.land.txq ++ [(s.mgtWire (s.fldOf R.TIM_SYNC_CTRL F.TIM_SYNC_CTRL.transport) 44,
              .ptpDelayReq ((s.time.reqSeq + 1) % 2 ^ 16))] ∧ t.sent = s.sent
          else t.sent = s.sent ++ [.ptpDelayReq ((s.time.reqSeq + 1) % 2 ^ 16)] ∧ t.land = s.land) ∧
        SameBut [.regs, .time, .land, .sent] s t) ∧
  (∀ (s : State) (src : Nat) (domain : BitVec 8) (transport : Fin 3) (rank : List Nat), PtpArrives s domain transport True →
    (∀ m, s.time.master = some m → m.1 = src ∨ rankBetter rank m.2 = true) →
      exec (.ptpAnnounce src domain transport rank) s =
        .next ((Upd.time { s.time with master := some (src, rank) }).apply
          (Act.run (count C.MGT_CNT_RX_BYTES (s.mgtWire transport 64)) s))) ∧
  (∀ (s : State) (src : Nat) (domain : BitVec 8) (transport : Fin 3) (seq : BitVec 16) (twoStep : Bool)
    (origin corr : BitVec 64) (rank : List Nat) (c : Instr), PtpArrives s domain transport False →
    c ∈ [.ptpSync src domain transport seq twoStep origin corr, .ptpFollowUp src domain transport seq origin corr,
      .ptpDelayResp src domain transport seq origin corr, .ptpAnnounce src domain transport rank] →
      ∃ t, exec c s = .next t ∧ t.time = s.time ∧ t.reg C.MGT_CNT_RX_DROP = (Act.run mgtDrop s).reg C.MGT_CNT_RX_DROP)

/-- BEACON, SYNC_LOSS_TIMEOUT and HOLDOVER_ERROR_LIMIT (R56, R57): a locked plane's beacon within 1 µs of the PTP estimate
enters the median offset, a beacon of a plane that is not locked takes its port out of use; a LOCKED discipline without a
source goes to HOLDOVER, its rate adjustment held; the estimated error passing its limit sets unsynchronised and the page's
fault. Where the model chooses, it rests on assumptions 21, 141, 142 and 143. -/
def Obligations.BeaconsAndHoldover : Prop :=
  (∀ (s : State) (r : RxPacket) (off : Int), Receives s r 0x10 none →
    (received s r).fldOf R.TIM_SYNC_CTRL F.TIM_SYNC_CTRL.beacon_enable = 1 →
    ((received s r).fldOf R.TIM_SYNC_STATUS F.TIM_SYNC_STATUS.state = 2 ∨
      (received s r).fldOf R.TIM_SYNC_STATUS F.TIM_SYNC_STATUS.state = 3) →
    off = (received s r).now16 - ((pkArg0 r.bytes * 16 + pkArg1 r.bytes % 2 ^ 16 / 4096 : Nat) : Int) -
      ((received s r).fldOf (R.LINK_DELAY r.port) F.LINK_DELAY.delay : Int) →
    (bit (pkArg1 r.bytes) 16 = true → -16000 ≤ off - (received s r).time.ptpOff ∧ off - (received s r).time.ptpOff ≤ 16000) →
      ∃ t, exec (.beacon r) s = .next t ∧
        t.time.beacons = (received s r).time.beacons.filter (fun e => e.1 ≠ r.port.val) ++
          (if bit (pkArg1 r.bytes) 16 then [(r.port.val, off)] else []) ∧
        (bit (pkArg1 r.bytes) 16 = true →
          t.fldOf R.TIM_OFFSET F.TIM_OFFSET.offset = wrapI 32 (medianLow (t.time.beacons.map (·.2)))) ∧
        SameBut [.regs, .mem, .time, .ports, .land, .sent, .free] s t) ∧
  (∀ s : State, s.alive = true → s.fldOf R.TIM_SYNC_STATUS F.TIM_SYNC_STATUS.state = 2 →
      ∃ t, exec .syncLossTimeout s = .next t ∧ t.fldOf R.TIM_SYNC_STATUS F.TIM_SYNC_STATUS.state = 3 ∧
        t.fldOf R.TIM_SYNC_STATUS F.TIM_SYNC_STATUS.source = 0 ∧ t.time = { s.time with beacons := [], ests := [] } ∧
        RegsBut [R.TIM_SYNC_STATUS] s t ∧ SameBut [.regs, .time] s t) ∧
  (∀ (s : State) (e : BitVec 16), s.alive = true → s.fldOf R.TIM_SYNC_STATUS F.TIM_SYNC_STATUS.state = 3 →
    s.fldOf R.TIM_SYNC_CTRL F.TIM_SYNC_CTRL.error_limit < e.toNat →
      ∃ t, exec (.holdoverErrorLimit e) s = .next t ∧
        t.fldOf R.TIM_SYNC_STATUS F.TIM_SYNC_STATUS.est_error_ns = e.toNat ∧
        t.fldOf R.TIM_SYNC_STATUS F.TIM_SYNC_STATUS.unsynchronised = 1 ∧
        t.fldOf R.TIM_SYNC_STATUS F.TIM_SYNC_STATUS.state = 3 ∧ t.fldOf (pageBase .tim 0 + 0x18) F.PAGE_STATUS.fault = 1 ∧
        RegsBut [R.TIM_SYNC_STATUS, pageBase .tim 0 + 0x18, pageBase .tim 0 + 0x40] s t ∧ SameBut [.regs] s t)

/-- TICK_RUN_SET and TICK_RUN_CLEAR (R63): an accepted write that sets run, after the first lock and in OWNED, starts the
generator: TIM_TICK_NOW and TIM_TICK_TIME read 0, and the first tick is the first whose boundary lies after now. Clearing
run stops ticks and discards every staged value. -/
def Sys2Proof.Machine.TickGeneratorRuns : Prop :=
  (∀ (s : State) (core : CoreId), Admits s core R.TIM_TICK_CTRL 1 → s.run = false → s.runRefused = false →
      ∃ t, exec (.tickRunSet core) s = .next t ∧ t.resp = { reason := 0, data := 0 } ∧ t.run = true ∧
        t.fldOf R.TIM_TICK_NOW F.TIM_TICK_NOW.tick = 0 ∧ t.reg R.TIM_TICK_TIME = 0 ∧
        t.time = { s.time with
          nextTick := wrapI 48 ((s.fldOf R.TIM_EPOCH_TICK F.TIM_EPOCH_TICK.tick : Int) + s.ticksAhead),
          nextTime := (((s.reg R.TIM_EPOCH_TIME).toNat : Int) + s.ticksAhead * s.periodNs).toNat } ∧
        RegsBut [R.TIM_TICK_CTRL, R.TIM_TICK_NOW, R.TIM_TICK_TIME] s t ∧ SameBut [.regs, .time, .resp, .land, .sent] s t) ∧
  (∀ (s : State) (core : CoreId), Admits s core R.TIM_TICK_CTRL 0 → s.run = true → s.canonical = true →
    storeGet (fun _ => none) s.staged R.BIN_BASE_ACTIVE = none →
      ∃ t, exec (.tickRunClear core) s = .next t ∧ t.resp = { reason := 0, data := 0 } ∧ t.run = false ∧
        (∀ a, Block.glb.base ≤ a → a < pageBase .dbl 128 → storeGet (fun _ => none) t.staged a = none) ∧
        t.time = { s.time with stepped := false } ∧ SameBut [.regs, .staged, .time, .resp, .land, .sent] s t)

/-- TICK_EDGE (R62): while ticks run the edge of the next tick is reached, and the tick after it is one more, modulo 2^48. -/
def Sys2Proof.Machine.TickEdgeAdvances : Prop :=
  ∀ (s : State) (calFailed : List TileId) (skewOk : Bool), s.up → s.run = true →
    ∃ t, exec (.tickEdge calFailed skewOk) s = .next t ∧ t.time.nextTick = (s.time.nextTick + 1) % 2 ^ 48

/-- STEP_START and BARRIER_RELEASE (R68 to R70): a step that is due goes to RUNNING, its number rises unless it runs again,
and REQ_STEP_START shows the tick; a barrier release frees the tile's first written barrier descriptor that has none. Where
the model chooses, it rests on assumption 69. -/
def Obligations.StepStarts : Prop :=
  (∀ (s : State) (p : PartId), s.up → s.stepDue p = true →
      ∃ t, exec (.stepStart p) s = .next t ∧ t.phase p = 3 ∧ t.fldOf (R.TIM_STEP p) F.TIM_STEP.running = 1 ∧
        t.fldOf (R.TIM_STEP p) F.TIM_STEP.step = (if (s.part p).rerun then s.fldOf (R.TIM_STEP p) F.TIM_STEP.step
          else (s.fldOf (R.TIM_STEP p) F.TIM_STEP.step + 1) % 2 ^ (F.TIM_STEP.step.hi + 1 - F.TIM_STEP.step.lo)) ∧
        t.fldOf (R.REQ_STEP_START p) F.REQ_STEP_START.tick = s.tick ∧ SameBut [.regs, .tab, .tiles] s t) ∧
  (∀ (s : State) (tile : TileId) (m : Nat), s.up → s.opqSize tile ≠ 0 →
    let from_ := if backwards32 (s.opqIssued tile) (s.tile tile).released then s.opqIssued tile else (s.tile tile).released
    backwards32 from_ (s.opqTail tile) = false →
    ((List.range (moves32 from_ (s.opqTail tile))).map (fun i => (from_ + i) % 2 ^ 32)).find?
      (fun m => dBarrier (s.descAt tile m)) = some m →
      exec (.barrierRelease tile) s = .next ((Upd.tile tile { s.tile tile with released := (m + 1) % 2 ^ 32 }).apply s))

/-! ## Gleans -/

/-- GLEAN_POST and GLEAN_CANCEL (R72, R73, R75, R81): an accepted post of a free entry, that R72 allows and that keeps the lead
and meets no other window, stores the descriptor's fields and raises seq; one that breaks the lead or meets another window is
REFUSED; a cancel of a POSTED entry ends it CANCELLED. -/
def Sys2Proof.Machine.GleanPosted : Prop :=
  (∀ (s : State) (core : CoreId) (entry : Fin 64) (value v : Word), v = putFld value F.TIM_GLEAN_DESC.status 1 →
    Admits s core (R.TIM_GLEAN_DESC entry) v → s.glStatus entry ≠ 1 → s.glStatus entry ≠ 2 → s.gleanRange v = false →
      ∃ t, exec (.gleanPost core entry value) s = .next t ∧ t.resp = { reason := 0, data := 0 } ∧
        (if s.postRefused entry v then t.reg (R.TIM_GLEAN_DESC entry) = putFld (gleanFields v) F.TIM_GLEAN_DESC.status 5 ∧
            RegsBut [R.TIM_GLEAN_DESC entry, C.TIM_CNT_GLEAN_REFUSED] s t
          else t.reg (R.TIM_GLEAN_DESC entry) = gleanFields v ∧ RegsBut [R.TIM_GLEAN_DESC entry, R.TIM_GLEAN_CTRL] s t ∧
            t.reg R.TIM_GLEAN_CTRL = putFld (s.reg R.TIM_GLEAN_CTRL) F.TIM_GLEAN_CTRL.seq
              (s.fldOf R.TIM_GLEAN_CTRL F.TIM_GLEAN_CTRL.seq + 1)) ∧
        SameBut [.regs, .resp, .land, .sent] s t) ∧
  (∀ (s : State) (core : CoreId) (entry : Fin 64),
    Admits s core (R.TIM_GLEAN_DESC entry) (putFld (s.reg (R.TIM_GLEAN_DESC entry)) F.TIM_GLEAN_DESC.cancel 1) →
    s.glStatus entry = 1 →
      ∃ t, exec (.gleanCancel core entry) s = .next t ∧ t.resp = { reason := 0, data := 0 } ∧ t.glStatus entry = 6 ∧
        RegsBut [R.TIM_GLEAN_DESC entry] s t ∧ SameBut [.regs, .resp, .land, .sent] s t)

/-- The state once fabric time has come to `ns`, if it was not there yet. -/
def Sys2Proof.Machine.State.upTo (s : State) (ns : Nat) : State := Act.run (clockTo ns) s

/-- Fabric time `us` µs after the boundary of the current tick. -/
def Sys2Proof.Machine.State.inTick (s : State) (us : Nat) : Nat := (s.reg R.TIM_TICK_TIME).toNat + us * 1000

/-- The entry is POSTED for the current tick (R72, R74). -/
def Sys2Proof.Machine.GleanDue (s : State) (entry : Nat) : Prop :=
  s.up ∧ s.run = true ∧ s.glStatus entry = 1 ∧ s.glTick entry = s.tick

/-- GLEAN_OPEN, GLEAN_CLOSE and GLEAN_SWAP_BACK (R72, R74, R257, R348): at its tick and offset, `u`, a POSTED entry's window
opens and takes its resource out of service: a GDDR7 site to WINDOW, a flash channel to TRAINING, a lane to its spare where the
recorded skew verifies, a spare out of use. At its end, `u`, the entry is CLOSED; an entry with chain set leaves the resource
to the next one of its chain; else a site returns to service, and a lane that has not done so takes its traffic back where the
recorded skew verifies. Before a lane's window ends the lane takes its traffic back, or leaves it to the spare. -/
def Sys2Proof.Machine.GleanWindow : Prop :=
  (∀ (s u : State) (entry : Fin 64) (calFailed : List TileId) (skewOk : Bool), GleanDue s entry →
    u = s.upTo (s.inTick (s.glF entry F.TIM_GLEAN_DESC.offset_us)) → GleanDue u entry → u.gleanOut entry = false →
    u.glInst entry < gleanInstances (u.glKind entry) →
      ∃ t, exec (.gleanOpen entry calFailed skewOk) s = .next t ∧
        (u.glKind entry = 1 → t.glStatus entry = 2 ∧ t.siteState (u.glInst entry) = 3) ∧
        (u.glKind entry = 4 → t.glStatus entry = 2 ∧ t.flState (u.glInst entry) = 3) ∧
        (u.glKind entry = 5 → t.glStatus entry = 2) ∧
        (u.glKind entry = 2 ∨ u.glKind entry = 3 →
          if (laneOf (u.glKind entry) (u.glInst entry)).2 = 8 then
            t.glStatus entry = 2 ∧ t.spareState (laneOf (u.glKind entry) (u.glInst entry)).1 = 3
          else if skewOk || u.time.chained.contains (u.glKind entry, u.glInst entry) then t.glStatus entry = 2 ∧
            (u.time.chained.contains (u.glKind entry, u.glInst entry) = false →
              t.spareState (laneOf (u.glKind entry) (u.glInst entry)).1 = 1)
          else t.glStatus entry = 3) ∧
        SameBut [.regs, .tab, .time, .ports, .flash, .pwr, .free] u t) ∧
  (∀ (s u : State) (entry : Fin 64) (finished verified : Bool) (temp : BitVec 8) (chan : Fin 4) (scanned : Nat)
    (refresh : List Nat), s.up → s.glStatus entry = 2 →
    u = (if s.glTick entry = s.tick then s.upTo (s.inTick (s.glF entry F.TIM_GLEAN_DESC.offset_us + s.glLength entry)) else s) →
    u.glStatus entry = 2 → u.glInst entry < gleanInstances (u.glKind entry) →
      ∃ t, exec (.gleanClose entry finished verified temp chan scanned refresh) s = .next t ∧ t.glStatus entry = 3 ∧
        (u.glF entry F.TIM_GLEAN_DESC.chain = 1 →
          t.time.chained = u.time.chained ++ [(u.glKind entry, u.glInst entry)]) ∧
        (u.glF entry F.TIM_GLEAN_DESC.chain = 0 → u.glKind entry = 1 → u.glInst entry < 16 → finished = false →
          u.siteState (u.glInst entry) = 3 → (u.site (u.glInst entry)).hold = [] → t.siteState (u.glInst entry) =
            if u.fldOf (R.GDC_SITE_CFG (u.glInst entry)) F.GDC_SITE_CFG.role = 1 then 2 else 5) ∧
        (∀ l, u.glF entry F.TIM_GLEAN_DESC.chain = 0 → u.glKind entry = 2 ∨ u.glKind entry = 3 →
          l = laneOf (u.glKind entry) (u.glInst entry) → l.2 ≠ 8 → (u.port l.1).kept = false → u.spareState l.1 = 1 →
          u.fldOf (R.PORT_STATUS l.1) F.PORT_STATUS.spare_for = l.2 →
            t.spareState l.1 = (if verified then 0 else 1)) ∧
        SameBut [.regs, .mem, .tab, .time, .ports, .sites, .mig, .flash, .sent, .free] u t) ∧
  (∀ (s : State) (entry : Fin 64) (lane : Nat × Nat) (skewOk : Bool), s.up → s.glStatus entry = 2 →
    (s.glKind entry = 2 ∨ s.glKind entry = 3) → s.glInst entry < 36 → lane = laneOf (s.glKind entry) (s.glInst entry) →
    lane.2 ≠ 8 → s.spareState lane.1 = 1 → s.fldOf (R.PORT_STATUS lane.1) F.PORT_STATUS.spare_for = lane.2 →
      ∃ t, exec (.gleanSwapBack entry skewOk) s = .next t ∧
        (if skewOk then t.spareState lane.1 = 0 ∧ SameBut [.regs] s t
          else t = (Upd.port lane.1 { s.port lane.1 with kept := true }).apply s))

/-! ## Tiles, cores and the mesh -/

/-- GMAP_SHADOW_COPY_DONE, TILE_ZERO_DONE, HUB_UNIT_ZERO_DONE and SLICE_ZERO_DONE (R381, R382, R401): what was being copied
or zeroed is done; a moved tile that was QUIESCED becomes ACTIVE. Where the model chooses, it rests on assumptions 105 and
110. -/
def Obligations.ZeroingEnds : Prop :=
  (∀ s : State, s.up → exec .gmapShadowCopyDone s =
    .next ((Upd.reg R.HAY_GMAP_STATUS (putFld (s.reg R.HAY_GMAP_STATUS) F.HAY_GMAP_STATUS.copying 0)).apply s)) ∧
  (∀ (s : State) (tile : TileId), s.up → (s.tile tile).zeroing = true →
      ∃ t, exec (.tileZeroDone tile) s = .next t ∧ t.tile tile = { s.tile tile with zeroing := false } ∧
        t.tileState tile = (if s.tileState tile = 4 then 3 else s.tileState tile) ∧ RegsBut [pageBase .tile tile + 0x18] s t ∧
        SameBut [.regs, .tiles] s t) ∧
  (∀ (s : State) (hub : HubId) (unit : Fin 256), s.up →
      ∃ t, exec (.hubUnitZeroDone hub unit) s = .next t ∧
        t.move = { s.move with units := s.move.units.filter (fun u => u ≠ hub.val * 256 + unit.val) } ∧
        RegsBut [R.HAY_ZERO_STATUS] s t ∧ SameBut [.regs, .move] s t) ∧
  (∀ s : State, s.up →
      ∃ t, exec .sliceZeroDone s = .next t ∧ t.move = { s.move with slices := s.move.slices.drop 16 } ∧
        RegsBut [R.HAY_ZERO_STATUS] s t ∧ SameBut [.regs, .move] s t)

/-- SELFTEST_START, SELFTEST_DONE and TILE_FAIL (R48): the hayward starts the self-test of a tile in OFF or STANDBY; a tile
that passes is ACTIVE if the map names it and STANDBY if not, one that does not pass is FAILED (in the staged bring-up the
tests wait while a curb holds, R485); a tile in service that fails is FAILED, its fault bit is set and its descriptors in
flight are abandoned. Where the model chooses, it rests on assumptions 111, 137 and 138. -/
def Obligations.TileStates : Prop :=
  (∀ (s : State) (core : CoreId) (tile : TileId), (s.coreIssuer core).hay = true → (s.tileState tile = 0 ∨ s.tileState tile = 2) →
    Admits s core (pageBase .tile tile + 0x10) (putFld (s.reg (pageBase .tile tile + 0x10)) F.PAGE_CTRL.selftest_start 1) →
      ∃ t, exec (.selftestStart core tile) s = .next t ∧ t.resp = { reason := 0, data := 0 } ∧ t.tileState tile = 1 ∧
        RegsBut [pageBase .tile tile + 0x10, pageBase .tile tile + 0x18] s t ∧ SameBut [.regs, .resp, .land, .sent] s t) ∧
  (∀ (s : State) (tile : TileId) (pass : Bool), s.up → s.tileState tile = 1 →
    (bit s.land.milestones 3 = true ∨ s.fldOf R.PWR_STATUS F.PWR_STATUS.curb_level = 0) →
      ∃ t, exec (.selftestDone tile pass) s = .next t ∧
        t.tileState tile = (if pass then (if ((Upd.reg (pageBase .tile tile + 0x18) (putFld (s.reg (pageBase .tile tile + 0x18))
            F.PAGE_STATUS.state 2)).apply s).mapInEffect.any (fun e => e.1 = tile.val) then 3 else 2) else 5) ∧
        SameBut [.regs, .tiles, .land, .sent] s t) ∧
  (∀ (s : State) (tile : TileId) (cause : Fin 3), s.up → (s.tileState tile = 3 ∨ s.tileState tile = 4) →
      ∃ t, exec (.tileFail tile cause) s = .next t ∧ t.tileState tile = 5 ∧ (t.tile tile).flights = [] ∧
        t.fldOf (R.TILE_FAULT tile) (match cause with
          | 0 => F.TILE_FAULT.sram_ue
          | 1 => F.TILE_FAULT.router
          | 2 => F.TILE_FAULT.engine_selftest) = 1)

/-- CORE_FAIL (R42): a failed core leaves service, and the fallow core of its quarter, the first one, takes its role and
acting partition; a hayward core that none replaces leaves the hayward with one core less, and with none the package is
failed (R440). Where the model chooses, it rests on assumptions 83 and 103. -/
def Obligations.CoreFailReplaced : Prop :=
  ∀ (s : State) (core : CoreId), s.up → s.fldOf (R.HAY_CORE core) F.HAY_CORE.role ≠ 3 →
    let fallow := (List.range 6).find? (fun i =>
      core.val / 6 * 6 + i ≠ core.val && s.fldOf (R.HAY_CORE (core.val / 6 * 6 + i)) F.HAY_CORE.role = 2)
    ∃ t, exec (.coreFail core) s = .next t ∧ t.fldOf (R.HAY_CORE core) F.HAY_CORE.role = 3 ∧
      t.fldOf (R.HAY_CORE core) F.HAY_CORE.act_valid = 0 ∧
      (s.fldOf (R.HAY_CORE core) F.HAY_CORE.role ≠ 2 → ∀ i, fallow = some i →
        t.reg (R.HAY_CORE (core.val / 6 * 6 + i)) = s.reg (R.HAY_CORE core) ∧
        RegsBut [R.HAY_CORE core, R.HAY_CORE (core.val / 6 * 6 + i)] s t ∧ SameBut [.regs] s t) ∧
      (s.fldOf (R.HAY_CORE core) F.HAY_CORE.role = 1 → fallow = none →
        t.fldOf R.HAY_STATUS F.HAY_STATUS.cores = s.fldOf R.HAY_STATUS F.HAY_STATUS.cores - 1 ∧
        t.fldOf (pageBase .hay 0 + 0x18) F.PAGE_STATUS.fault = 1 ∧
        (s.fldOf R.HAY_STATUS F.HAY_STATUS.cores = 1 → t.pkgFailed = true))

/-- MESH_INJECT, MESH_HOLD_RELEASE and MESH_HOLD_TIMEOUT (R34, R35, R37): with nothing held before it a packet takes the
x-then-y, the y-then-x or the waypoint route, is discarded where its destination is OUT, or is held where no route is left;
while its source holds, it waits. Once the old list's packets of a source are delivered that source releases what it held,
and the hold ends with the last source; a hold that lasts too long sets the page's fault. Where the model chooses, it rests
on assumptions 43 and 112. -/
def Obligations.MeshRoutes : Prop :=
  (∀ (s : State) (src : TileId) (x : Fin 24) (y : Fin 26) (cls : Fin 4) (request att : Bool) (flits : Nat) (m : MeshPkt), s.up →
    m = { src := src, x := x, y := y, cls := cls, request := request, flits := flits, att := att } →
      ∃ t, exec (.meshInject src x y ⟨cls, flits, att⟩ request) s = .next t ∧
        (if s.mesh.holds src = true ∨
            s.mesh.held.any (fun h => h.src = m.src && h.x = m.x && h.y = m.y && h.cls = m.cls) = true then
            t = (Upd.mesh { s.mesh with held := s.mesh.held ++ [m] }).apply s
          else match s.route m with
            | .inject r => t.sent = s.sent ++ [.mesh m.src m.x m.y m.cls r] ∧ SameBut [.regs, .sent] s t
            | .discard => t.sent = s.sent ++ (if request then [.error (tileSrc m.src) 0x06] else []) ∧ SameBut [.sent] s t
            | .hold => t.mesh = { s.mesh with held := s.mesh.held ++ [m] } ∧
                t.fldOf (pageBase .mesh 0 + 0x18) F.PAGE_STATUS.fault = 1 ∧ SameBut [.regs, .mesh] s t)) ∧
  (∀ (s : State) (src : TileId) (clocks : Nat), s.up → s.mesh.holds src = true →
      ∃ t, exec (.meshHoldRelease ⟨src, clocks⟩) s = .next t ∧ t.mesh.holds src = false ∧
        t.mesh.holding = decide (s.mesh.released.length < 623) ∧
        (s.mesh.held.filter (fun m => m.src = src.val) = [] → t.mesh.held = s.mesh.held ∧ t.sent = s.sent) ∧
        SameBut [.regs, .mesh, .sent] s t) ∧
  (∀ s : State, s.up → s.mesh.holding = true →
    s.fldOf R.MESH_ROUTE_CTRL F.MESH_ROUTE_CTRL.hold_timeout * 640 < (s.now - s.mesh.since) * 22 →
      ∃ t, exec .meshHoldTimeout s = .next t ∧ t.fldOf (pageBase .mesh 0 + 0x18) F.PAGE_STATUS.fault = 1 ∧
        RegsBut [pageBase .mesh 0 + 0x18, pageBase .mesh 0 + 0x40] s t ∧ SameBut [.regs] s t)

/-! ## The operations of a tile -/

namespace Sys2Proof.Machine

/-- The head of a tile's queue is the descriptor `d` of this opcode and subop; nothing holds it and its checks pass (R125,
R127). -/
def Issues (s : State) (tile opc sub : Nat) (plan : State → Nat → List Byte → Plan) (d : List Byte) : Prop :=
  s.up ∧ s.tileIssues tile = true ∧ d = s.descAt tile (s.opqIssued tile) ∧ dOp d = opc ∧ dSubop d = sub ∧
    s.heldAt tile d (plan s tile d) = .go ∧ s.opCheck tile d (plan s tile d) = none

/-- `u` is `s` once the head has issued: the next descriptor is at the head, this one is in flight with the ranges its
plan names, its weight buffer is in use (R44, R125), and no memory has changed. -/
def HasIssued (s u : State) (tile : Nat) (d : List Byte) (p : Plan) : Prop :=
  u.opqIssued tile = (s.opqIssued tile + 1) % 2 ^ 32 ∧ u.opqRetired tile = s.opqRetired tile ∧
    u.tile tile = { s.tile tile with flights := (s.tile tile).flights ++ [{
      seq := s.opqIssued tile, unit := p.unit, second := p.second, reads := p.reads, writes := p.writes, bytes := d,
      part := s.tilePart tile, table := p.table }] } ∧
    (dUseWbuf d = true → u.wbufState tile (dWbuf d) = 3) ∧
    RegsBut [R.TILE_OPQ_HEAD tile, R.TILE_OP_STATUS tile, R.TILE_WBUF_STATUS tile] s u ∧ SameBut [.regs, .tiles] s u

/-- The operations of R144, each with its opcode, its subop, the checks of its body and its work. -/
def tileOps (tile : TileId) :
    List (Instr × Nat × Nat × (State → Nat → List Byte → Plan) × (Nat → List Byte → Act Unit)) :=
  [(.nop tile, 0, 0, nopPlan, (fun _ _ => skip)),
   (.matmul tile, 1, 0, matmulPlan, matmulWork),
   (.finish tile, 2, 0, finishPlan, finishWork),
   (.combine tile, 3, 0, combinePlan, combineWork),
   (.normRms tile, 10, 0, normPlan, normWork rmsRow),
   (.normLayer tile, 10, 1, normPlan, normWork layerRow),
   (.rope tile, 11, 0, ropePlan, ropeWork),
   (.quant tile, 16, 0, quantPlan, quantWork),
   (.topk tile, 20, 0, topkPlan, topkWork),
   (.select tile, 21, 0, selectPlan, selectWork),
   (.gather tile, 24, 0, gatherPlan, gatherWork),
   (.scatter tile, 25, 0, scatterPlan, scatterWork),
   (.sample tile, 28, 0, samplePlan, sampleWork),
   (.attn tile, 32, 0, attnPlan, attnWork)]

/-- The elementwise operations (R134, R135) on two elements and the aux element: the command, opcode, subop, and the value of
each result. -/
def elementOps (tile : TileId) : List (Instr × Nat × Nat × (FV → FV → FV → FV)) :=
  [(.vewAdd tile, 8, 0, fun a b _ => FV.add a b),
   (.vewSub tile, 8, 1, fun a b _ => FV.sub a b),
   (.vewMul tile, 8, 2, fun a b _ => FV.mul a b),
   (.vewFma tile, 8, 3, fun a b x => FV.add (FV.mul a b) x),
   (.vewMax tile, 8, 4, fun a b _ => maxNum a b),
   (.vewMin tile, 8, 5, fun a b _ => minNum a b),
   (.vewConvert tile, 8, 6, fun a _ _ => a),
   (.actRelu tile, 9, 0, fun a _ _ => actRelu a),
   (.actSigmoid tile, 9, 1, fun a _ _ => actSigmoid a),
   (.actSilu tile, 9, 2, fun a _ _ => actSilu a),
   (.actGeluTanh tile, 9, 3, fun a _ _ => actGelu a),
   (.actExp tile, 9, 4, fun a _ _ => actExp a),
   (.actSwiglu tile, 9, 5, fun a b _ => actSwiglu a b)]

/-- The reductions (R136): the command, subop, and the value of a row. -/
def rowOps (tile : TileId) : List (Instr × Nat × (List FV → FV)) :=
  [(.reduceSum tile, 0, reduceSum sumStep),
   (.reduceSumSquares tile, 1, reduceSum squareStep),
   (.reduceMax tile, 2, fold1 maxNum),
   (.reduceMin tile, 3, fold1 minNum),
   (.reduceMaxAbs tile, 4, fun l => fold1 maxNum (l.map FV.abs))]

/-- The bytes of `t` are those of `s` but for `l` from key `k` up. -/
def Wrote (s t : State) (k : Nat) (l : List Byte) : Prop :=
  ∀ j, t.byteAt j = if k ≤ j ∧ j < k + l.length then l.getD (j - k) 0 else s.byteAt j

end Sys2Proof.Machine

/-- Every operation that moves or computes on whole operands issues when it is the head of its tile's queue, nothing holds
it and its checks pass (R125, R127): its work is done on the state it has issued in, and the queue moves on past heads that
no operation takes. An ATTN, whose walk reads GDDR7, does so while no site is in its window (R257). Where the model chooses,
it rests on assumptions 24, 26, 30 and 31. -/
def Obligations.TileOperationIssues : Prop :=
  ∀ (s : State) (tile : TileId) (d : List Byte), ∀ e ∈ tileOps tile, Issues s tile e.2.1 e.2.2.1 e.2.2.2.1 d →
    (e.2.1 = 32 → s.windowed = []) →
    ∃ u, HasIssued s u tile d (e.2.2.2.1 s tile d) ∧ exec e.1 s = .next (Act.run (do e.2.2.2.2 tile d; queueMoves tile) u)

/-- VEW and ACT (R134, R135): element i of the destination is the operation on element i of src0, of src1 (param where VEW's
use_param is set) and of aux, rounded once to the destination's format; no other byte of any memory changes before the queue
moves on. -/
def Sys2Proof.Machine.ElementwiseResults : Prop :=
  ∀ (s : State) (tile : TileId) (d : List Byte), ∀ e ∈ elementOps tile,
    Issues s tile e.2.1 e.2.2.1 (if e.2.1 = 8 then vewPlan else actPlan) d →
      ∃ t, exec e.1 s = .next (Act.run (queueMoves tile) t) ∧ t.opqIssued tile = (s.opqIssued tile + 1) % 2 ^ 32 ∧
        Wrote s t (tileKey tile (refBase (vDst d))) (((List.range (vCount d)).map (fun i => e.2.2.2
          (s.elemOf tile (refFmt (vSrc0 d)) (refBase (vSrc0 d)) i)
          (if e.2.1 = 8 ∧ vFlag d 0 = true then vParam d else s.elemOf tile (refFmt (vSrc1 d)) (refBase (vSrc1 d)) i)
          (s.elemOf tile (refFmt (vAux d)) (refBase (vAux d)) i))).flatMap (valBytes (refFmt (vDst d)))) ∧
        SameBut [.regs, .mem, .tab, .tiles] s t

/-- REDUCE (R136): result r is the reduction of row r of the source, an FP32 word of the destination; no other byte of any
memory changes before the queue moves on. -/
def Sys2Proof.Machine.ReductionResults : Prop :=
  ∀ (s : State) (tile : TileId) (d : List Byte), ∀ e ∈ rowOps tile, Issues s tile 12 e.2.1 reducePlan d →
      ∃ t, exec e.1 s = .next (Act.run (queueMoves tile) t) ∧ t.opqIssued tile = (s.opqIssued tile + 1) % 2 ^ 32 ∧
        Wrote s t (tileKey tile (refBase (vDst d))) (((List.range (vRows d)).map (fun r =>
          e.2.2 (s.vRow tile (vSrc0 d) (vN d) r))).flatMap (valBytes 7)) ∧
        SameBut [.regs, .mem, .tab, .tiles] s t

/-- WAIT, OP_RETIRE and OP_SIGNAL (R125, R126): a WAIT whose word has reached its value issues and retires, one whose word has
not only counts; an issued descriptor retires and, where it signals, its signal waits for its mesh writes; then its value,
eight bytes zero-extended, is written to the target, and no other byte changes. -/
def Sys2Proof.Machine.RetireAndSignal : Prop :=
  (∀ (s : State) (tile : TileId) (d : List Byte), Issues s tile 0x30 0 waitPlan d →
      (s.waitMet tile d = true → ∃ u, HasIssued s u tile d (waitPlan s tile d) ∧ exec (.wait tile) s =
        .next (Act.run (do retireOp tile (s.tile tile).flights.length 0; queueMoves tile) u)) ∧
      (s.waitMet tile d = false → exec (.wait tile) s = .next (Act.run (count (C.TILE_CNT_OP_WAIT_SIG tile) 1) s))) ∧
  (∀ (s : State) (tile : TileId) (k corrected : Nat) (f : Flight), s.up → (s.tile tile).flights[k]? = some f →
      ∃ t, exec (.opRetire tile k corrected) s = .next t ∧ (t.tile tile).flights = (s.tile tile).flights.eraseIdx k ∧
        (t.tile tile).signals = (s.tile tile).signals ++
          (if dSignal f.bytes then [(f.part, dSigTarget f.bytes, dSigValue f.bytes)] else []) ∧
        SameBut [.regs, .mem, .tab, .tiles] s t) ∧
  (∀ (s : State) (tile : TileId) (k part target value page off : Nat), s.up →
    (s.tile tile).signals[k]? = some (part, target, value) →
    s.tilePlace part (bits target 31 22 * 2 ^ 22 + bits target 18 0 * 8) 8 = .ok (page, off) →
      ∃ t, exec (.opSignal tile k) s = .next t ∧ t.tile tile = { s.tile tile with signals := (s.tile tile).signals.eraseIdx k } ∧
        Wrote s t (tileKey page off) (leBytes 8 value) ∧ RegsBut [] s t ∧ SameBut [.mem, .tab, .tiles] s t)

/-- OPQ_TAIL_WRITE, OP_FLUSH, WALK_INV and QHIST_WRITE (R122, R124, R127, R171) on a tile that is not being zeroed: a tail that
is not refused stands; a flush discards what has not issued and clears the error record; an accepted WALK_INV empties the
look-aside buffer; a history entry takes its value at once outside a step. -/
def Sys2Proof.Machine.TileQueueRegisters : Prop :=
  (∀ (s : State) (via : Option CoreId) (tile : TileId) (tail : BitVec 32), s.up → s.tailRefused tile tail.toNat = false →
    (∀ core, via = some core → (s.tile tile).zeroing = false ∧ Admits s core (R.TILE_OPQ_TAIL tile) (tail.setWidth 64)) →
      ∃ t, exec (.opqTailWrite via tile tail) s = .next t ∧ t.opqTail tile = tail.toNat ∧
        SameBut [.regs, .mem, .tab, .tiles, .resp, .land, .sent] s t) ∧
  (∀ (s : State) (core : CoreId) (tile : TileId) (v : Word), (s.tile tile).zeroing = false →
    Admits s core (R.TILE_OP_FLUSH tile) v →
      ∃ t, exec (.opFlush core tile v) s = .next t ∧ t.resp = { reason := 0, data := 0 } ∧ t.opqIssued tile = s.opqTail tile ∧
        t.reg (R.TILE_OP_STATUS tile) = BitVec.ofNat 64 (s.tile tile).flights.length ∧
        ((s.tile tile).flights = [] → t.opqRetired tile = s.opqTail tile) ∧
        RegsBut [R.TILE_OPQ_HEAD tile, R.TILE_OP_STATUS tile, R.TILE_WBUF_STATUS tile] s t ∧
        SameBut [.regs, .tiles, .resp, .land, .sent] s t) ∧
  (∀ (s : State) (core : CoreId) (tile : TileId), (s.tile tile).zeroing = false → s.attnFlying tile = false →
    Admits s core (R.TILE_WALK_INV tile) 1 →
      ∃ t, exec (.walkInv core tile) s = .next t ∧ t.resp = { reason := 0, data := 0 } ∧
        t.tile tile = { s.tile tile with aside := [] } ∧
        t.fldOf (R.TILE_WALK_STATUS tile) F.TILE_WALK_STATUS.valid_entries = 0 ∧ RegsBut [R.TILE_WALK_STATUS tile] s t ∧
        SameBut [.regs, .tiles, .resp, .land, .sent] s t) ∧
  (∀ (s : State) (core : CoreId) (tile : TileId) (v : Word) (i e : Nat), (s.tile tile).zeroing = false → s.stepOn tile = false →
    histRefused v = false → Admits s core (R.TILE_QHIST_DATA tile) v →
    i = s.fldOf (R.TILE_QHIST_SEL tile) F.TILE_QHIST_SEL.stream → e = s.fldOf (R.TILE_QHIST_SEL tile) F.TILE_QHIST_SEL.entry →
      ∃ t, exec (.qhistWrite core tile v) s = .next t ∧ t.resp = { reason := 0, data := 0 } ∧
        (t.wordAt (histKey tile i e)).toNat = getFld v F.QHIST.valid * 2 ^ 63 + getFld v F.QHIST.max ∧
        (∀ j, j ≠ histKey tile i e → t.wordAt j = s.wordAt j) ∧
        t.fldOf (R.TILE_QS_EFFECT tile i) F.TILE_QS_EFFECT.hist_count = (t.history tile i).length ∧
        RegsBut [R.TILE_QS_EFFECT tile i] s t ∧ SameBut [.regs, .tab, .resp, .land, .sent] s t)

/-! ## Rings, requests and steps -/

namespace Sys2Proof.Machine

/-- The access is answered without error, and beside that, and beside a milestone that may have been reached (R484), the state
is what the action leaves of `s`. -/
def Served (a : Act Unit) (s t : State) : Prop :=
  SameBut [.resp, .land, .sent] (Act.run a s) t ∧ t.resp = { reason := 0, data := 0 }

/-- The value a ring context word takes (R182): the bits software does not write stay. -/
def ctxWord (w : Nat) (v old : Nat) : Nat := match w with
  | 0 => clrBit v 52
  | 1 => mergeBits 0 v 0xFFFF0FFF00000000 + bits old 4 0
  | 2 => v
  | 3 => mergeBits 0 v 0x0000FFFFFFFFFFFF
  | 7 => mergeBits 0 v 0xFF00000000000000
  | _ => 0

/-- A first context word that the engine takes (R181, R182, R487): a ring in service has a type, and a size, once given, is in
range and fits its space. -/
def ctxTakes (v : Nat) : Prop :=
  let x := BitVec.ofNat 64 (clrBit v 52)
  let last := getFld x F.RING.base + 2 ^ getFld x F.RING.log_entries * ringEntryBytes (getFld x F.RING.type)
  getFld x F.RING.type ≤ 5 ∧ (getFld x F.RING.enable = 1 → 1 ≤ getFld x F.RING.type) ∧ getFld x F.RING.base % 64 = 0 ∧
    getFld x F.RING.space ≤ 1 ∧ (getFld x F.RING.enable = 1 ∨ getFld x F.RING.log_entries ≠ 0 →
      4 ≤ getFld x F.RING.log_entries ∧ getFld x F.RING.log_entries ≤ 20) ∧
    (getFld x F.RING.log_entries ≠ 0 → last ≤ (if getFld x F.RING.space = 0 then 2 ^ 26 else 2 ^ 40))

/-- The partition holds every unit of a range of hub SRAM (R374). -/
def HubHolds (s : State) (p addr len : Nat) : Prop := s.hubReason p addr len = none

/-- The bytes of a range of hub SRAM. -/
def State.hubAt (s : State) (addr len : Nat) : List Byte := s.memBytes (2 ^ 36 + addr) len

/-- The ring is in service, of this type, and the partition's; its buffer lies in hub SRAM that the partition holds (R181,
R182). -/
def HubRing (s : State) (p ring type : Nat) : Prop :=
  s.ringUp ring = true ∧ s.ringType ring = type ∧ s.ringOwner ring = some p ∧ s.ringF ring 0 F.RING.space = 0 ∧
    ∀ i, i < 2 ^ s.ringLog ring → HubHolds s p (s.ringAddr ring i) (ringEntryBytes type)

/-- Entry `i` of a ring in hub SRAM. -/
def State.ringEntry (s : State) (ring i : Nat) : List Byte := s.hubAt (s.ringAddr ring i) (ringEntryBytes (s.ringType ring))

/-- Every ring of the hub that is enabled passes its check (R182). -/
def RingsHold (s : State) (h : Nat) : Prop :=
  ∀ ring ∈ s.hubRings h, s.ringF ring 0 F.RING.enable = 1 → s.ringOk ring = true

/-- An engine of the hub serves commands: the hub is not failed (R40), and nothing waits for a site's window (R257). -/
def HubServes (s : State) (h : Nat) : Prop := s.clear ∧ (s.wordAt (hubLostKey h)).toNat = 0

end Sys2Proof.Machine

/-- RING_CONTEXT_WRITE (R182): a word of a disabled ring the partition holds takes the bits software may write; no other
context, and no register, changes. -/
def Sys2Proof.Machine.RingContextTakesWord : Prop :=
  ∀ (s : State) (core : CoreId) (p : PartId) (w : Fin 8) (v : Word) (ring : Nat),
    ring = s.fldOf (R.REQ_RING_SEL p) F.REQ_RING_SEL.ring → s.ringOwner ring = some p.val → s.ringGrant ring = some p.val →
    s.ringF ring 0 F.RING.enable = 0 → (w = 0 → ctxTakes v.toNat) → Admits s core (R.REQ_RING_CTX p w) v →
      ∃ t, exec (.ringContextWrite core p w v) s = .next t ∧ t.resp = { reason := 0, data := 0 } ∧
        (t.wordAt (ringKey ring w)).toNat = ctxWord w v.toNat (s.wordAt (ringKey ring w)).toNat ∧
        (∀ j, j ≠ ringKey ring w → j ≠ deferredKey ring → t.wordAt j = s.wordAt j) ∧ RegsBut [] s t ∧
        SameBut [.tab, .resp, .land, .sent] s t

/-- RING_IN, RING_MSG, RING_BUSY and RING_MSG_RETRY (R184, R332): entries from another package go to the ring's slots and
its doorbell is rung as if the partition had rung it; a message is written at the producer index, which moves on, or
answered with RING_BUSY where there is no room; the sender of a busy message sends it again after 10 µs. Where the model
chooses, it rests on assumptions 74, 75, 78 and 151. -/
def Obligations.RingPackets : Prop :=
  (∀ (s u : State) (r : RxPacket) (p ring first n : Nat), s.windowed = [] → Receives s r 0x01 (some p) → u = received s r →
    ring = pkArg0 r.bytes % 2 ^ 16 → first = pkArg0 r.bytes / 2 ^ 32 → n = (pkBody r.bytes).length / 64 → pkArg1 r.bytes % 4 = 1 →
    u.ringUp ring = true → u.ringType ring = 1 → u.ringOwner ring = some p → u.ringF ring 0 F.RING.space ≤ 1 →
    u.producerBad ring ((first + n) % 2 ^ 32) = false →
      ∃ t, exec (.ringIn r) s = .next t ∧ t.ringProducer ring = (first + n) % 2 ^ 32 ∧
        t.ringConsumer ring = u.ringConsumer ring) ∧
  (∀ (s u : State) (r : RxPacket) (p ring first n : Nat), s.windowed = [] → Receives s r 0x01 (some p) → u = received s r →
    ring = pkArg0 r.bytes % 2 ^ 16 → first = pkArg0 r.bytes / 2 ^ 32 → n = (pkBody r.bytes).length / 64 → pkArg1 r.bytes % 4 = 1 →
    HubRing u p ring 1 → u.producerBad ring ((first + n) % 2 ^ 32) = false →
    (∀ i, i < n → moves32 (u.ringConsumer ring) (first + i) < 2 ^ u.ringLog ring) →
      ∃ t, exec (.ringIn r) s = .next t ∧ t.ringProducer ring = (first + n) % 2 ^ 32 ∧
        t.ringConsumer ring = u.ringConsumer ring ∧
        (∀ i, i < n → t.ringEntry ring (first + i) = bytesAt (pkBody r.bytes) (64 * i) 64) ∧
        SameBut [.regs, .mem, .tab, .parts] u t) ∧
  (∀ (s u : State) (r : RxPacket) (p ring : Nat), s.windowed = [] → Receives s r 0x04 (some p) → u = received s r →
    ring = pkArg0 r.bytes % 2 ^ 16 → u.ringUp ring = true → u.ringType ring = 5 →
    u.ringF ring 1 F.RING.ep_fabric = pkSrc r.bytes → (pkBody r.bytes).length = 64 →
      exec (.ringMsg r) s = .next (Act.run
        (if 0 < u.ringRoom ring then do
            let _ ← ringWrite 0 ring (u.ringProducer ring) (pkBody r.bytes)
            ringSet ring 2 F.RING.producer (u.ringProducer ring + 1)
            count (C.RING_ENG_IN (ringHub ring)) 64
          else sendRing p ring (pkSrc r.bytes) 0x05 (pkArg0 r.bytes) (pkArg1 r.bytes) []) u)) ∧
  (∀ (s u : State) (r : RxPacket) (p ring : Nat), s.windowed = [] → Receives s r 0x04 (some p) → u = received s r →
    ring = pkArg0 r.bytes % 2 ^ 16 → HubRing u p ring 5 → u.ringF ring 1 F.RING.ep_fabric = pkSrc r.bytes →
    (pkBody r.bytes).length = 64 → 0 < u.ringRoom ring →
      ∃ t, exec (.ringMsg r) s = .next t ∧ t.ringProducer ring = (u.ringProducer ring + 1) % 2 ^ 32 ∧
        t.ringConsumer ring = u.ringConsumer ring ∧ Wrote u t (2 ^ 36 + u.ringAddr ring (u.ringProducer ring)) (pkBody r.bytes) ∧
        SameBut [.regs, .mem, .tab] u t) ∧
  (∀ (s u : State) (r : RxPacket) (p : Nat) (m : MsgOut), Receives s r 0x05 (some p) → u = received s r →
    u.fab.msgs.find? (fun m => u.ringOwner m.ring = some p && u.ringF m.ring 1 F.RING.ep_queue = pkArg0 r.bytes % 2 ^ 16 &&
      u.ringF m.ring 1 F.RING.ep_fabric = pkSrc r.bytes && m.busyAt.isNone) = some m →
      exec (.ringBusy r) s = .next ((Upd.fab { u.fab with
        msgs := u.fab.msgs.map (fun y => if y.ring = m.ring then { y with busyAt := some u.now } else y) }).apply u)) ∧
  (∀ (s u : State) (ring : Fin 65536) (p at_ : Nat) (m : MsgOut) (bs : List Byte), s.clear → s.ringOwner ring = some p →
    s.fab.msgs.find? (fun m => m.ring = ring.val) = some m → m.busyAt = some at_ → at_ + 10000 ≤ s.now →
    (HubRing s p ring 5 ∧ bs = s.ringEntry ring (s.ringConsumer ring) ∧ u = s ∨
      Runs (ringRead 0 ring (s.ringConsumer ring)) s (.ok bs) u) →
      exec (.ringMsgRetry ring) s = .next (Act.run (do
        sendRing p ring (s.ringF ring 1 F.RING.ep_fabric) 0x04 (s.ringF ring 1 F.RING.ep_queue) 0 bs
        count (C.RING_ENG_OUT (ringHub ring)) bs.length
        modFab (fun x => { x with msgs := x.msgs.filter (fun m => m.ring ≠ ring.val) ++
          [{ ring := ring, sentAt := s.now, busyAt := none }] })) u))

/-- DMA_ENTRY and DMA_ENTRY_DONE (R185): with nothing in hand the hub's copy engine takes the entry at the consumer index,
copies a good local entry whole, and keeps the signal until the copy is done; then it writes the signal value. Where the
model chooses, it rests on assumptions 17 and 77. -/
def Obligations.DmaCopies : Prop :=
  (∀ (s : State) (hub : HubId) (ring p : Nat) (e : List Byte), HubServes s hub → RingsHold s hub →
    s.fab.copies.any (fun c => c.hub = hub.val) = false → s.dmaRing hub = some ring → HubRing s p ring 4 →
    e = s.ringEntry ring (s.ringConsumer ring) → entryGood e = true → refSpace (deSrc e) = 0 → refSpace (deDst e) = 0 →
    HubHolds s p (refAddr (deSrc e)) (deLen e) → HubHolds s p (refAddr (deDst e)) (deLen e) →
      ∃ t, exec (.dmaEntry hub) s = .next t ∧ t.ringConsumer ring = (s.ringConsumer ring + 1) % 2 ^ 32 ∧
        Wrote s t (2 ^ 36 + refAddr (deDst e)) (s.hubAt (refAddr (deSrc e)) (deLen e)) ∧
        t.fab = { s.fab with copies := s.fab.copies ++ [{ hub := hub, part := p, sig := deSig e, value := deVal e }] } ∧
        SameBut [.mem, .tab, .fab] s t) ∧
  (∀ (s u v w : State) (hub : HubId) (ring p : Nat) (e data : List Byte), HubServes s hub → RingsHold s hub →
    s.fab.copies.any (fun c => c.hub = hub.val) = false →
    s.dmaRing hub = some ring → s.ringOwner ring = some p → Runs (ringRead 3 ring (s.ringConsumer ring)) s (.ok e) u →
    entryGood e = true → refSpace (deDst e) ≠ 3 → s.touchesProtected p (refSpace (deSrc e)) (refAddr (deSrc e)) (deLen e) = false →
    Runs (spRead (hubSrc hub 3) p (refSpace (deSrc e)) (refAddr (deSrc e)) (deLen e))
      (Act.run (ringSet ring 2 F.RING.consumer (s.ringConsumer ring + 1)) u) (.ok data) v →
    Runs (spWrite (hubSrc hub 3) p (refSpace (deDst e)) (refAddr (deDst e)) data) v none w →
      exec (.dmaEntry hub) s = .next ((Upd.fab { w.fab with
        copies := w.fab.copies ++ [{ hub := hub, part := p, sig := deSig e, value := deVal e }] }).apply w)) ∧
  (∀ (s : State) (hub : HubId) (c : LocalCopy), HubServes s hub → s.fab.copies.find? (fun c => c.hub = hub.val) = some c →
    refSpace c.sig = 0 → HubHolds s c.part (refAddr c.sig) 8 →
      ∃ t, exec (.dmaEntryDone hub) s = .next t ∧ t.fab = { s.fab with copies := s.fab.copies.erase c } ∧
        Wrote s t (2 ^ 36 + refAddr c.sig) (leBytes 8 c.value) ∧ SameBut [.mem, .fab] s t) ∧
  (∀ (s u : State) (hub : HubId) (c : LocalCopy), HubServes s hub → s.fab.copies.find? (fun c => c.hub = hub.val) = some c →
    Runs (spWrite (hubSrc hub 3) c.part (refSpace c.sig) (refAddr c.sig) (leBytes 8 c.value))
      ((Upd.fab { s.fab with copies := s.fab.copies.erase c }).apply s) none u →
      exec (.dmaEntryDone hub) s = .next u)

namespace Sys2Proof.Machine

/-- The cancel message the hub's engine takes next (R204): of a partition that is not committing. -/
def nextCancel (s : State) (h : Nat) : Option (Nat × Nat × List Byte) :=
  (s.hubRings h).findSome? (fun ring => match s.ringOffers ring with
    | none => none
    | some p =>
      if (s.part p).acks.any (fun a => a.2.2 = ring) then none
      else match s.headWhole p ring with
        | some m => if msgKind m = 2 ∧ s.phase p ≠ 4 then some (p, ring, m) else none
        | none => none)

/-- The state once a hub's engine has read the heads of its rings. -/
def headsRead (s : State) (h : Nat) : State := Act.run (headNotes h) s

/-- The state with a ring's consumer index moved on by `n`. -/
def taken (s : State) (ring n : Nat) : State := Act.run (ringSet ring 2 F.RING.consumer (s.ringConsumer ring + n)) s

/-- The state once the request engine has checked the partition's slots: one whose check fails ends (R189). -/
def State.slotsChecked (s : State) (p : Nat) : State := Act.run (tableSound p) s

/-- The state once the request engine has read these places: counted where served, recorded where refused (R241, R266). -/
def State.engRead (s : State) (p : Nat) (l : List (Nat × Nat × Nat)) : State := Act.run (engNotes p l) s

end Sys2Proof.Machine

/-- ADMISSION and CANCEL (R190, R193, R204): the engine takes a message whole. A request that no check refuses gets the first
free slot of its partition, is written there, and an ADMIT entry of the next journal number goes to the journal and the
buddy; one that is refused gets its refusal posted; a cancel is examined against its slot. -/
def Sys2Proof.Machine.MessagesTaken : Prop :=
  (∀ (s v u : State) (hub : HubId) (p ring : Nat) (m : List Byte) (l : List (Nat × Nat × List Byte)), HubServes s hub →
    RingsHold s hub → v = headsRead s hub → v.requestHeads hub = (p, ring, m) :: l → v.hubAdmitting hub < 16 →
    u = (taken v ring (m.length / 64)).slotsChecked p →
      (∀ r, u.admitRefusal p m = some r → exec (.admission hub) s = .next (Act.run (refuseMsg p ring m r) u)) ∧
      (u.admitRefusal p m = none → ∀ q, (u.slotsOf p).find? (fun q => u.slotF q .state = stFree &&
        !(u.part p).acks.any (fun a => a.2.1 = q)) = some q →
        exec (.admission hub) s = .next (Act.run (do
          slotFill p q (u.ringF ring 3 F.RING.linked) m
          pinFor p (msgAdapter m) (msgAdapterVer m) [2]
          slotSet q .jseq (u.jrnlWritten p + 1)
          modPart p (fun x => { x with
            admits := x.admits ++ [(q, u.jrnlWritten p + 1)], acks := x.acks ++ [(u.jrnlWritten p + 1, q, ring)] })
          addAdmitting 1
          let _ ← jWrite p 1 0 q [(q, u.jrnlWritten p + 1)] m) u))) ∧
  (∀ (s v : State) (hub : HubId) (p ring : Nat) (m : List Byte), HubServes s hub → RingsHold s hub → v = headsRead s hub →
    nextCancel v hub = some (p, ring, m) →
      exec (.cancel hub) s = .next (Act.run (cancelExamine p (numAt m 4 2) (msgTag m)) (taken v ring 1)))

/-- MIRROR_CONF and MIRROR_TIMEOUT (R194): a confirmation from the buddy confirms the journal up to its number and lets what
waited for it go; with an entry sent mirror_timeout_us ago and not confirmed, mirror_lost sets and interrupts. -/
def Sys2Proof.Machine.MirrorConfirms : Prop :=
  (∀ (s u : State) (r : RxPacket) (p : Nat), s.windowed = [] → Receives s r 0x31 (some p) → u = received s r →
    pkSrc r.bytes = u.fldOf (R.REQ_JRNL_BUDDY p) F.REQ_JRNL_BUDDY.buddy →
      exec (.mirrorConf r) s = .next (Act.run (confirmed p (pkArg0 r.bytes % 2 ^ 48)) u)) ∧
  (∀ (s : State) (p : PartId), s.up → s.mirrorLost p = false → (∃ e ∈ (s.part p).sentSeqs, s.jrnlConfirmed p < e.1 ∧
    e.2 + s.fldOf (R.REQ_JRNL_BUDDY p) F.REQ_JRNL_BUDDY.mirror_timeout_us * 1000 ≤ s.now) →
      ∃ t, exec (.mirrorTimeout p) s = .next t ∧ t.mirrorLost p = true ∧
        t.reg (pageBase .req (1 + p) + 0x40) = BitVec.ofNat 64 (orBit (s.reg (pageBase .req (1 + p) + 0x40)).toNat 34) ∧
        RegsBut [R.REQ_JRNL_CONF p, pageBase .req (1 + p) + 0x40] s t ∧ SameBut [.regs] s t)

/-- STEP_ARM, STEP_COMMIT and COMMIT_RESUME (R195, R196, R199): an accepted arm of an idle partition that is not stopping,
whose engine takes new work, names the start tick and builds the batch within the token budget; a commit of a running step
whose table is good goes to COMMITTING with the table and its moves, one whose table is not is refused with its error code
and changes nothing of the step; a commit that waited goes on. Where the model chooses, it rests on assumptions 54, 55, 63,
149 and 150. -/
def Obligations.StepArmAndCommit : Prop :=
  (∀ (s u : State) (core : CoreId) (p : PartId) (give : List Nat) (v : Word), Admits s core (R.REQ_STEP_ARM p) v → s.phase p = 0 →
    s.fldOf (R.PRT_CTRL p) F.PRT_CTRL.stop = 0 → s.reqServes p = true →
    u = Act.run (do
      wrR (R.REQ_STEP_ARM p) (BitVec.ofNat 64 (bits v.toNat 47 0))
      for f in give do
        if !(← rd (fun t => (t.part p).pool.contains f)) then freeFrame p f
      modPart p (fun x => { x with batch := [], stagedRefs := [], cows := [], rerun := false })
      setPhase p 1
      tableSound p) s →
      ∃ t, exec (.stepArm core p give v) s = .next t ∧ Served (do
        buildAll p (u.buildOrder p) (u.fldOf (R.REQ_STEP_LIMIT p) F.REQ_STEP_LIMIT.token_budget)
        buildDone p) u t) ∧
  (∀ (s u : State) (core : CoreId) (p : PartId) (tb : List Byte), Admits s core (R.REQ_STEP_CTRL p) 1 → s.phase p = 3 →
    s.readTable p = .ok tb → u = s.engRead p (((s.moveList p).getD []).map (fun m => (m.1, m.2.1, 16))) →
      ∃ t, exec (.stepCommit core p) s = .next t ∧ Served (do
        modPart p (fun x => { x with table := tb, moves := (s.moveList p).getD [], commitAt := s.now })
        setPhase p 4
        commitGo p) u t) ∧
  (∀ (s u : State) (core : CoreId) (p : PartId) (e : Nat), Admits s core (R.REQ_STEP_CTRL p) 1 → s.phase p = 3 →
    s.readTable p = .error e → u = s.engRead p (((s.moveList p).getD []).map (fun m => (m.1, m.2.1, 16))) →
      ∃ t, exec (.stepCommit core p) s = .next t ∧ t.resp = { reason := 0, data := 0 } ∧ t.phase p = 3 ∧
        t.fldOf (R.REQ_STEP_STATUS p) F.REQ_STEP_STATUS.error = e % 2 ^ (F.REQ_STEP_STATUS.error.hi + 1 - F.REQ_STEP_STATUS.error.lo) ∧
        SameBut [.regs, .resp, .land, .sent] u t) ∧
  (∀ (s : State) (p : PartId), s.clear → s.phase p = 4 →
      exec (.commitResume p) s = .next (Act.run (if (s.part p).table = [] then stopGo p else do
        commitGo p
        stopNext p) s))

/-- STEP_ROLLBACK, STEP_ABANDON, UNPARK, LIST_RELEASE, KV_REBUILD and RECOVER (R189, R201, R202, R431, R432, R445): a
running step with a replay left returns to BUILT, to run again; an abandoned one leaves an empty batch and the partition
IDLE; a parked slot is PREFILL or DECODE again; an ended slot's held lists are released; a live slot is set rebuilding from
a position; recovery from a readable journal and resume table ends with result 0 and the last journal number. Where the
model chooses, it rests on assumptions 61, 66, 72 and 73. -/
def Obligations.StepEndsOtherwise : Prop :=
  (∀ (s : State) (core : CoreId) (p : PartId), Admits s core (R.REQ_STEP_CTRL p) 2 → s.phase p = 3 →
    s.fldOf (R.PRT_FAULT_STATUS p) F.PRT_FAULT_STATUS.replays ≠ s.fldOf (R.PRT_FAULT_CTRL p) F.PRT_FAULT_CTRL.replay_limit →
      ∃ t, exec (.stepRollback core p) s = .next t ∧ t.resp = { reason := 0, data := 0 } ∧ t.phase p = 2 ∧
        (t.part p).rerun = true ∧ (t.part p).builtTick = s.tick) ∧
  (∀ (s : State) (core : CoreId) (p : PartId), Admits s core (R.PRT_STEP_ABANDON p) 1 →
    (s.phase p = 2 ∨ s.phase p = 3 ∧ s.tilesFlushed p = true) →
      ∃ t, exec (.stepAbandon core p) s = .next t ∧ t.resp = { reason := 0, data := 0 } ∧ t.phase p = 0 ∧
        t.fldOf (R.TIM_STEP p) F.TIM_STEP.running = 0 ∧ (t.part p).batch = [] ∧ (t.part p).stagedRefs = [] ∧
        (t.part p).cows = []) ∧
  (∀ (s : State) (core : CoreId) (p : PartId) (n : Fin 16384), Admits s core (R.REQ_UNPARK p) (BitVec.ofNat 64 n) →
    s.slotOwner n = some p.val → s.slotOk n = true → s.slotF n .state = stParked →
      ∃ t, exec (.unpark core p n) s = .next t ∧ t.resp = { reason := 0, data := 0 } ∧
        t.slotF n .state = (if 0 < s.slotF n .generated then stDecode else stPrefill) ∧ RegsBut [] s t ∧
        SameBut [.tab, .resp, .land, .sent] s t) ∧
  (∀ (s : State) (core : CoreId) (p : PartId) (n : Fin 16384), Admits s core (R.REQ_RELEASE p) (BitVec.ofNat 64 n) →
    s.slotOwner n = some p.val → s.slotOk n = true → 6 ≤ s.slotF n .state → (s.part p).heldLists.contains n.val = true →
      ∃ t, exec (.listRelease core p n) s = .next t ∧ Served (do
        releaseLists p n
        slotMaybeFree p n) s t) ∧
  (∀ (s : State) (core : CoreId) (p : PartId) (n : Fin 16384) (f : BitVec 32),
    Admits s core (R.PRT_KV_REBUILD p) (BitVec.ofNat 64 (f.toNat * 2 ^ 32 + n)) → s.phase p = 0 → s.slotOwner n = some p.val →
    s.slotOk n = true → (s.slotF n .state = stPrefill ∨ s.slotF n .state = stDecode) → f.toNat % 64 = 0 → f.toNat ≤ s.slotF n .committed →
      ∃ t, exec (.kvRebuild core p n f) s = .next t ∧ Served (do
        slotSet n .rebuildTo (s.slotF n .committed)
        slotSet n .rebuilding 1
        slotSet n .committed f.toNat
        slotSet n .speculative f.toNat
        releasePast p n f.toNat (max (s.slotF n .committed) (s.slotF n .speculative))) s t) ∧
  (∀ (s : State) (core : CoreId) (p : PartId) (table : BitVec 20) (failover : Bool) (bs : List Byte) (rows : List (List Byte))
    (last : REntry), Admits s core (R.PRT_RECOVER_CMD p) (BitVec.ofNat 64 (b2n failover * 2 ^ 63 + table.toNat)) →
    s.phase p = 0 → s.liveSlots p = [] → s.engBytes p 1 (s.jrnlBase p) 32 = some bs →
    (s.journalRead p).getLast? = some last → (s.journalRead p).any (fun e => e.kind = 3) = true →
    s.resumeTable p (hubByte table.toNat) 16385 0 = some rows →
    (({} : RState).all (s.journalRead p)).slots.all (fun r => (s.slotsOf p).contains r.n) = true →
    rows.all (fun e => (s.slotsOf p).contains (numAt e 0 2)) = true →
      ∃ t, exec (.recover core p table failover) s = .next t ∧ t.resp = { reason := 0, data := 0 } ∧
        t.fldOf (R.PRT_RECOVER_STATUS p) F.PRT_RECOVER_STATUS.result = 0 ∧
        t.fldOf (R.PRT_RECOVER_STATUS p) F.PRT_RECOVER_STATUS.last_seq = last.seq %
          2 ^ (F.PRT_RECOVER_STATUS.last_seq.hi + 1 - F.PRT_RECOVER_STATUS.last_seq.lo))

/-- The state once the engine has checked the nodes of its trees: one whose check fails is removed and counted (R206). -/
def Sys2Proof.Machine.State.treesChecked (s : State) (l : List Tree) : State := Act.run (for t in l do nodesSound t) s

/-- The path from a root of the partition's own tree to a node, with the hash the shared tree's path begins from (R210). -/
def Sys2Proof.Machine.SharedPath (s : State) (p c node : Nat) (x : Nat × List Byte) (l : List (Nat × List Byte))
    (root : List Byte) : Prop :=
  s.fldOf (R.PRX_SHARE_CFG c) F.PRX_SHARE_CFG.valid = 1 ∧ s.fldOf (R.PRX_SHARE_CFG c) F.PRX_SHARE_CFG.owner = p ∧
    s.nodePath (s.ownTree p) (2 ^ 14) node [] = some (x :: l) ∧
    root = s.rootHash p ((s.wordAt (ndRootKey p x.1)).toNat / 2 % 65536) ((s.wordAt (ndRootKey p x.1)).toNat / 2 / 65536)

/-- The places of the nodes of that path, in the order they are read. -/
def Sys2Proof.Machine.State.pathPlaces (s : State) (p node : Nat) (l : List (Nat × List Byte)) : List (Nat × Nat × Nat) :=
  (1, (s.ownTree p).nodeAddr node, 512) :: l.map (fun e => (1, (s.ownTree p).nodeAddr e.1, 512))

/-- PRX_SHARE, PRX_WITHDRAW, PRX_KEY_WRITE and COW_COPY_DONE (R175, R206, R210): the partition that owns a valid shared slot
inserts the path to a node there under the shared key, or drops the shared subtree of that path; a written key empties its
tree. A frame whose other holders have all let go of it is kept in place, out of the index; one that others use as well, or
that the slot was alone to hold when it was marked, is copied whole into the slot's new frame, and the step may start from
the tick at which the last copy ends. Where the model chooses, it rests on assumptions 48, 49, 67, 68 and 163. -/
def Obligations.LingTreesShared : Prop :=
  (∀ (s u : State) (core : CoreId) (p : PartId) (c : Fin 8) (node : BitVec 24) (x : Nat × List Byte) (l : List (Nat × List Byte))
    (root : List Byte), s.fldOf (R.PRX_SHARE_CFG c) F.PRX_SHARE_CFG.valid = 1 →
    s.fldOf (R.PRX_SHARE_CFG c) F.PRX_SHARE_CFG.owner = p → u = s.treesChecked [s.ownTree p] →
    SharedPath u p c node.toNat x l root → Admits s core (R.REQ_PRX_SHARE p) (BitVec.ofNat 64 (c * 2 ^ 56 + node.toNat)) →
      ∃ t, exec (.prxShare core p c node) s = .next t ∧ Served (do
        engNotes p (u.pathPlaces p node.toNat l)
        sharePath (u.sharedTree c) (u.ownTree p) (x :: l) root noParent) u t) ∧
  (∀ (s u : State) (core : CoreId) (p : PartId) (c : Fin 8) (node : BitVec 24) (x : Nat × List Byte) (l : List (Nat × List Byte))
    (root : List Byte) (i : Nat), s.fldOf (R.PRX_SHARE_CFG c) F.PRX_SHARE_CFG.valid = 1 →
    s.fldOf (R.PRX_SHARE_CFG c) F.PRX_SHARE_CFG.owner = p → u = s.treesChecked [s.ownTree p, s.sharedTree c] →
    SharedPath u p c node.toNat x l root → u.sharedTwin (u.sharedTree c) (x :: l) root noParent = some i →
    Admits s core (R.REQ_PRX_SHARE p) (BitVec.ofNat 64 (2 ^ 63 + c * 2 ^ 56 + node.toNat)) →
      ∃ t, exec (.prxWithdraw core p c node) s = .next t ∧ Served (do
        engNotes p (u.pathPlaces p node.toNat l)
        dropSubtree (u.sharedTree c) i (2 ^ ((u.sharedTree c).nodeLog + 1))) u t) ∧
  (∀ (s : State) (core : CoreId) (shared : Bool) (n : Fin 32) (high : Bool) (v : Word) (a : Nat),
    a = (if shared then R.PRX_SHARE_KEY_LO (n % 8) else R.PRX_KEY_LO n) + (if high then 8 else 0) → Admits s core a v →
      ∃ t, exec (.prxKeyWrite core shared n high v) s = .next t ∧ t.resp = { reason := 0, data := 0 } ∧ t.reg a = v ∧
        Served (do
          emptyTree (if shared then s.sharedTree (n % 8) else s.ownTree n)
          wrR a v) s t) ∧
  (∀ (s u : State) (p : PartId) (job : CowJob) (e : List Byte) (rc : Nat), s.clear → (s.part p).cows = [job] →
    s.engBytes p job.space job.addr 16 = some e → rc = pdRc e →
    u = ((Upd.part p { s.part p with cows := [] }).apply s).engRead p [(job.space, job.addr, 16)] →
      (job.others = true → s.soleHolder p job.slot rc = true → exec (.cowCopyDone p) s = .next (Act.run (do
        freeFrame p job.frame
        modPart p (fun x => { x with leases := x.leases.filter (fun l => l.2.1 ≠ rc) })
        stW (rcKey rc) 0
        engWrite p job.space job.addr (mkPd (pdFrame e) (clrBit (clrBit (clrBit (pdBits e) 2) 3) 6) 0 p)
        let t ← Act.get
        if (t.part p).cows = [] then modPart p (fun x => { x with builtTick := t.tick })) u)) ∧
      ((job.others && s.soleHolder p job.slot rc) = false →
        exec (.cowCopyDone p) s = .next (Act.run (do
          zeroFrame p job.frame
          for a in (if kvBlock (s.layout p) = 128 ∧ !pdCompressed e then [(0, 0x8000), (0xF800, 0x800)] else [(0, 65536)]) do
            let bs ← frameBytes p e a.1 a.2
            engWrite p 1 (job.frame * 65536 + a.1) bs
          engWrite p job.space job.addr (mkPd job.frame (clrBit (clrBit (clrBit (pdBits e) 2) 3) 6 / 4 * 4 + 1) 0 p)
          leaseReturnOne p job.slot rc
          leaseReturnOne p (2 ^ 14) rc
          if (s.part p).stagedRefs.any (fun r => r.1 = job.slot && r.2 = rc) then
            modPart p (fun x => { x with stagedRefs := x.stagedRefs.erase (job.slot, rc) })
          else rcDrop rc (pdHome e)
          count C.REQ_CNT_COW 1
          let t ← Act.get
          if (t.part p).cows = [] then modPart p (fun x => { x with builtTick := t.tick })) u)))

/-! ## Routing -/

namespace Sys2Proof.Machine

/-- The head place requests of a hub's three contexts: context, partition, request (R221, R223). -/
def placeHeads (s : State) (h : Nat) : List (Nat × Nat × List Byte) :=
  (List.range 3).filterMap (fun i => (s.placeHead (3 * h + i)).map (fun x => (3 * h + i, x.1, x.2)))

end Sys2Proof.Machine

/-- PLACE_TAIL_WRITE, FLQ_TAIL_WRITE, LDQ_TAIL_WRITE, TDQ_TAIL_WRITE and CLQ_TAIL_WRITE (R221, R274, R320, R356, R488): an
accepted tail that neither moves backwards nor gives more than the queue holds stands, and no other register changes. Where
the model chooses, it rests on assumptions 8 and 135. -/
def Obligations.QueueTailStands : Prop :=
  ∀ (s : State) (core : CoreId) (tail : BitVec 32),
    (∀ ctx : Fin 12, Admits s core (R.XRT_CTX_PLACE_TAIL ctx) (tail.setWidth 64) →
      queueTailBad (s.placeSize ctx) (s.placeDone ctx) (s.placeTail ctx) tail.toNat = false →
        ∃ t, exec (.placeTailWrite core ctx tail) s = .next t ∧ t.resp = { reason := 0, data := 0 } ∧ t.placeTail ctx = tail.toNat ∧
          RegsBut [R.XRT_CTX_PLACE_TAIL ctx] s t ∧ SameBut [.regs, .resp, .land, .sent] s t) ∧
    (∀ p : PartId,
      (Admits s core (R.PRT_FLQ_TAIL p) (tail.setWidth 64) →
        queueTailBad (s.fldOf (R.PRT_FLQ_CFG p) F.PRT_FLQ_CFG.size) (s.flqDone p) (s.flqTail p) tail.toNat = false →
        ∃ t, exec (.flqTailWrite core p tail) s = .next t ∧ t.resp = { reason := 0, data := 0 } ∧ t.flqTail p = tail.toNat ∧
          RegsBut [R.PRT_FLQ_TAIL p] s t ∧ SameBut [.regs, .resp, .land, .sent] s t) ∧
      (Admits s core (R.PRT_LDQ_TAIL p) (tail.setWidth 64) →
        queueTailBad (s.fldOf (R.PRT_LDQ_CFG p) F.PRT_LDQ_CFG.size) (s.ldqDone p) (s.ldqTail p) tail.toNat = false →
        ∃ t, exec (.ldqTailWrite core p tail) s = .next t ∧ t.resp = { reason := 0, data := 0 } ∧ t.ldqTail p = tail.toNat ∧
          RegsBut [R.PRT_LDQ_TAIL p] s t ∧ SameBut [.regs, .resp, .land, .sent] s t) ∧
      (Admits s core (R.PRT_TDQ_TAIL p) (tail.setWidth 64) →
        queueTailBad (s.fldOf (R.PRT_TDQ_CFG p) F.PRT_TDQ_CFG.size) (s.tdqDone p) (s.tdqTail p) tail.toNat = false →
        ∃ t, exec (.tdqTailWrite core p tail) s = .next t ∧ t.resp = { reason := 0, data := 0 } ∧ t.tdqTail p = tail.toNat ∧
          RegsBut [R.PRT_TDQ_TAIL p] s t ∧ SameBut [.regs, .resp, .land, .sent] s t) ∧
      (Admits s core (R.PRT_CLQ_TAIL p) (tail.setWidth 64) →
        queueTailBad (s.fldOf (R.PRT_CLQ_CFG p) F.PRT_CLQ_CFG.size) (s.clqDone p) (s.clqTail p) tail.toNat = false →
        ∃ t, exec (.clqTailWrite core p tail) s = .next t ∧ t.resp = { reason := 0, data := 0 } ∧ t.clqTail p = tail.toNat ∧
          RegsBut [R.PRT_CLQ_TAIL p] s t ∧ SameBut [.regs, .resp, .land, .sent] s t))

/-- PLACE_REQUEST, PLACE_SIGNAL, BIAS_UPDATE and BIAS_READY_WRITE (R222, R223, R231, R232): a free engine in service starts
the first head whose wait word has reached its value, and does its work; once the outputs are written it writes the signal
word and counts the request done. At the tick edge that finds M steps every layer of the context is updated, the count of
steps starts again, seq rises and the context interrupts; a layer's biases each move by eta toward the mean, its loads start
again from 0, the pending counts stay. Then seq goes to the ready words. Where the model chooses, it rests on assumptions
26, 71 and 183. -/
def Obligations.PlacesAndBiases : Prop :=
  (∀ (s u : State) (hub : HubId) (c p : Nat) (q : List Byte), HubServes s hub →
    s.fldOf (R.XRT_ENG_STATUS hub) F.XRT_ENG_STATUS.busy = 0 → s.pageServes (pageBase .xrt hub) = true →
    (placeHeads s hub).find? (fun x => s.placeReady x.2.1 x.2.2) = some (c, p, q) →
    u = Act.run (do
      wrF (R.XRT_CTX_PLACE_HEAD c) F.XRT_CTX_PLACE_HEAD.started (s.placeStarted c + 1)
      wrF (R.XRT_ENG_STATUS hub) F.XRT_ENG_STATUS.busy 1
      wrF (R.XRT_ENG_STATUS hub) F.XRT_ENG_STATUS.context c
      stW (placeSigKey hub 0) (numAt q 24 4)
      stW (placeSigKey hub 1) (numAt q 28 4)) s →
      exec (.placeRequest hub) s = .next (Act.run (placeWork hub c p q) u)) ∧
  (∀ (s : State) (hub : HubId) (c p page off : Nat), HubServes s hub → s.fldOf (R.XRT_ENG_STATUS hub) F.XRT_ENG_STATUS.busy = 1 →
    c = s.fldOf (R.XRT_ENG_STATUS hub) F.XRT_ENG_STATUS.context → c < 12 → s.ctxPart c = some p →
    s.tilePlace p (bits (s.wordAt (placeSigKey hub 0)).toNat 31 22 * 2 ^ 22 + bits (s.wordAt (placeSigKey hub 0)).toNat 18 0 * 8) 8 =
      .ok (page, off) →
      ∃ t, exec (.placeSignal hub) s = .next t ∧ t.fldOf (R.XRT_ENG_STATUS hub) F.XRT_ENG_STATUS.busy = 0 ∧
        t.placeDone c = (s.placeDone c + 1) % 2 ^ 32 ∧
        Wrote s t (tileKey page off) (leBytes 8 (s.wordAt (placeSigKey hub 1)).toNat) ∧ SameBut [.regs, .mem, .tab] s t) ∧
  (∀ (s : State) (ctx : Fin 12) (p : Nat), s.up → s.ctxPart ctx = some p → s.biasDue ctx = true →
      ∃ t, exec (.biasUpdate ctx) s = .next t ∧ t = Act.run (do
          stW (biasEdgeKey ctx) 0
          for x in s.layersOf ctx p do biasLayer ctx p x.2
          wrF (R.XRT_BIAS_STATE ctx) F.XRT_BIAS_STATE.steps_since 0
          addF (R.XRT_BIAS_STATE ctx) F.XRT_BIAS_STATE.seq 1
          stW (biasReadyKey ctx) 1
          count (C.XRT_CNT_BIAS_UPDATES ctx) 1
          setIrq (ctxPage ctx) 33) s ∧
        t.fldOf (R.XRT_BIAS_STATE ctx) F.XRT_BIAS_STATE.steps_since = 0 ∧
        t.fldOf (R.XRT_BIAS_STATE ctx) F.XRT_BIAS_STATE.seq = (s.fldOf (R.XRT_BIAS_STATE ctx) F.XRT_BIAS_STATE.seq + 1) %
          2 ^ (F.XRT_BIAS_STATE.seq.hi + 1 - F.XRT_BIAS_STATE.seq.lo) ∧
        t.wordAt (biasReadyKey ctx) = 1 ∧ SameBut [.regs, .mem, .tab, .sites, .mig] s t) ∧
  (∀ (s t : State) (ctx : Fin 12) (p e sum : Nat) (L : Layer) (b : FV × Bool), HubHolds s p L.biases (4 * L.experts) →
    HubHolds s p L.loads (8 * L.experts) → overlaps (L.biases, 4 * L.experts) (L.loads, 8 * L.experts) = false →
    2 ^ 15 ≤ L.biases → 2 ^ 15 ≤ L.loads → t = Act.run (biasLayer ctx p L) s → e < L.experts →
    sum = ((List.range L.experts).map (fun i => (s.loadWord p L i).1)).sum →
    b = newBias (fp32Val (s.fldOf (R.XRT_BIAS_CTRL ctx) F.XRT_BIAS_CTRL.eta))
      (fp32Val (s.fldOf (R.XRT_BIAS_LIMIT ctx) F.XRT_BIAS_LIMIT.limit)) (fp32Val (leNat (s.hubAt (L.biases + 4 * e) 4)))
      ((s.loadWord p L e).1 * L.experts) sum →
      t.hubAt (L.biases + 4 * e) 4 = leBytes 4 (fp32Code b.1) ∧
        t.hubAt (L.loads + 8 * e) 8 = leBytes 4 0 ++ leBytes 4 (s.loadWord p L e).2) ∧
  (∀ (s : State) (ctx : Fin 12) (p : Nat), s.clear → s.ctxPart ctx = some p → (s.wordAt (biasReadyKey ctx)).toNat ≠ 0 →
      exec (.biasReadyWrite ctx) s = .next (Act.run (routerWrite (ctx / 3) ctx p
        (s.fldOf (R.XRT_BIAS_READY ctx) F.XRT_BIAS_READY.offset * 8)
        (leBytes 8 (s.fldOf (R.XRT_BIAS_STATE ctx) F.XRT_BIAS_STATE.seq))) ((Upd.word (biasReadyKey ctx) 0).apply s)))

/-! ## GDDR7, write-back frames and migration -/

/-- Every sector of a write is translated, waits for no window, and is answered by a site and its controller. -/
def Sys2Proof.Machine.WriteServed (s : State) (p addr len : Nat) : Prop :=
  ∀ r ∈ sectorRuns addr len, ∀ l, s.translate p r.1 true = .ok l → s.waits l = false ∧ s.gdcServes l = true

/-- GDDR7_READ and GDDR7_WRITE (R240, R244, R246): an access that no window holds, to a controller that takes new work, is
translated; a sector the device answers, at once or after retries or from the other three lanes, is sent to its requester; a
write stores its bytes with their parity, and no byte outside the GDDR7 devices changes. Where the model chooses, it rests
on assumptions 25, 26 and 27. -/
def Obligations.GddrServes : Prop :=
  (∀ (s : State) (src : BitVec 16) (p : PartId) (addr : BitVec 40) (d : DevRead) (l : GLoc) (bs : List Byte), s.up →
    s.translate p (addr.toNat / 64 * 64) false = .ok l → s.waits l = false → s.gdcServes l = true →
    (s.coverServes l = true ∨ s.siteServes (s.reach l).1 = true) →
    s.chanFailed (s.reach l).1 (sectorPlace ((s.reach l).2 / 64 * 64)).1 = false → d.crcFails = 0 → d.uncorrectable = false →
    s.gBytes p (addr.toNat / 64 * 64) 64 = .ok bs →
      ∃ t, exec (.gddr7Read src p addr d.crcFails d.corrected d.uncorrectable d.bad) s = .next t ∧
        t.sent = s.sent ++ [.data src.toNat bs] ∧ SameBut [.regs, .sent] s t) ∧
  (∀ (s u v : State) (src : BitVec 16) (p : PartId) (addr : BitVec 40) (d : DevRead) (l : GLoc) (bs : List Byte), s.up →
    s.translate p (addr.toNat / 64 * 64) false = .ok l → s.waits l = false → s.gdcServes l = true →
    (s.coverServes l = true ∨ s.siteServes (s.reach l).1 = true) → Runs (sectorRead (s.reach l).1 ((s.reach l).2 / 64) d) s true u →
    Runs (gReadWith false src.toNat p (addr.toNat / 64 * 64) 64) u (.ok bs) v →
      exec (.gddr7Read src p addr d.crcFails d.corrected d.uncorrectable d.bad) s = .next ((Upd.send (.data src.toNat bs)).apply v) ∧
        ∀ k, v.byteAt k = s.byteAt k) ∧
  (∀ (s : State) (src : BitVec 16) (p : PartId) (addr : BitVec 40) (bs : List Byte), s.up →
    WriteServed s p addr.toNat bs.length →
      exec (.gddr7Write src p addr bs) s = .next (Act.run (gddrWriteNow src.toNat p addr.toNat bs) s)) ∧
  (∀ (s u : State) (src : BitVec 16) (p : PartId) (addr : BitVec 40) (bs : List Byte), s.up →
    WriteServed s p addr.toNat bs.length → Runs (gWrite src.toNat p addr.toNat bs) s none u →
      exec (.gddr7Write src p addr bs) s = .next u ∧ (∀ k, k < 2 ^ 60 → u.byteAt k = s.byteAt k) ∧
        SameBut [.regs, .mem, .sites, .mig] s u)

/-- SITE_FAIL, SCRUB_STRIPE, RETRAIN_DUE and COVER_CATCHUP (R247, R258, R260, R449): a lost site is FAILED and of no
position; the scrub of a site outside its window records a stripe whose lanes do not agree and leaves another as it is; a
temperature beyond the delta interrupts; after a window a marked unit is copied to the position, and after one of site 16 to
the cover. Where the model chooses, it rests on assumptions 25, 80, 81 and 134. -/
def Obligations.SitesWatched : Prop :=
  (∀ (s : State) (site : Fin 17), s.up → s.mig.src ≠ some 16 →
      ∃ t, exec (.siteFail site) s = .next t ∧ t.siteState site = 7 ∧
        t.fldOf (R.GDC_SITE_CFG site) F.GDC_SITE_CFG.role = 0 ∧ (s.mig.src = some site.val → s.mig.cutover = false → t.mig.src = none) ∧
        SameBut [.regs, .mig] s t) ∧
  (∀ (s : State) (site : Fin 17) (stripe : Nat) (err odd : Bool), s.up →
    s.fldOf (R.GDC_SCRUB_CTRL site) F.GDC_SCRUB_CTRL.period_h ≠ 0 → s.siteState site ∈ [2, 4, 5, 6] →
    s.fldOf (R.GDC_SITE_STATE site) F.GDC_SITE_STATE.failed_channels = 0 →
    odd = (List.range 64).any (fun i =>
      (List.range 4).foldl (fun b c => b ^^^ s.devByte site c (stripe * 64 + i)) (0 : Byte) ≠ 0) →
      ((odd && !err) = false → exec (.scrubStripe site stripe err) s = .next s) ∧
      ((odd && !err) = true → ∃ t, exec (.scrubStripe site stripe err) s = .next t ∧
        t.fldOf (pageBase .gdc site + 0x18) F.PAGE_STATUS.fault = 1 ∧ SameBut [.regs, .free] s t)) ∧
  (∀ (s : State) (site : Fin 17) (temp : BitVec 8), s.up →
      ∃ t, exec (.retrainDue site temp) s = .next t ∧
        t.fldOf (R.GDC_PHY_TRAIN_STATUS site) F.GDC_PHY_TRAIN_STATUS.temp_now = temp.toNat ∧
        (let was := s.fldOf (R.GDC_PHY_TRAIN_STATUS site) F.GDC_PHY_TRAIN_STATUS.temp_at_train
        if s.fldOf (R.GDC_PHY_RETRAIN site) F.GDC_PHY_RETRAIN.temp_delta < max was temp.toNat - min was temp.toNat then
          bit (t.reg (pageBase .gdc (17 + site) + 0x40)).toNat 32 = true
        else RegsBut [R.GDC_PHY_TRAIN_STATUS site] s t) ∧ SameBut [.regs] s t) ∧
  (∀ (s : State) (pos : Fin 16) (u : Nat) (rest : List Nat), s.up → (s.site pos).marks = u :: rest →
    (s.siteState (s.siteOfPos pos) = 2 ∨ s.siteState (s.siteOfPos pos) = 4) →
      exec (.coverCatchup pos) s = .next (Act.run (do
        siteWrite (s.siteOfPos pos) (u * 2 ^ 16) (s.unitBytes 16 (s.coverOff pos (u * 2 ^ 16)))
        modSite pos (fun x => { x with marks := rest })
        coverCopied) s)) ∧
  (∀ (s : State) (pos : Fin 16) (e : Nat × Nat), s.up → (s.site pos).marks = [] →
    s.mig.coverMarks.find? (fun e => e.1 = pos.val) = some e → s.siteState 16 = 6 → s.siteServes (s.siteOfPos pos) = true →
      exec (.coverCatchup pos) s = .next (Act.run (do
        siteWrite 16 (s.coverOff pos (e.2 * 2 ^ 16)) (s.unitBytes (s.siteOfPos pos) (e.2 * 2 ^ 16))
        modMig (fun m => { m with coverMarks := m.coverMarks.erase e })
        coverCopied) s))

/-- WB_LOAD, WB_FLUSH, WB_EVICT, WB_DISCARD, WB_COMMAND_DONE and WRITE_THROUGH_FLUSH (R252, R253): an accepted command that
fits its frame joins a tile's queue of at most eight and acts as it reaches the head; as it completes the completion count
is written to its signal word and the next one acts; a dirty write-through frame is flushed. Where the model chooses, it
rests on assumptions 26 and 84. -/
def Obligations.WriteBackCommands : Prop :=
  (∀ (s : State) (core : CoreId) (tile : TileId) (frame : Fin 64) (sig : BitVec 19) (op : Nat) (c : Instr),
    (op, c) ∈ [(0, Instr.wbLoad core tile frame sig), (1, .wbFlush core tile frame sig), (2, .wbEvict core tile frame sig),
      (3, .wbDiscard core tile frame sig)] →
    Admits s core (R.TILE_WB_CMD tile) (BitVec.ofNat 64 (op * 2 ^ 62 + frame * 2 ^ 48 + sig.toNat)) →
    (s.tile tile).zeroing = false → (s.tile tile).wbq.length < 8 → s.wbUnfit tile op frame = false →
      ∃ t, exec c s = .next t ∧ Served (do
        Act.upd (.tile tile { s.tile tile with wbq := (s.tile tile).wbq ++ [(op, frame.val, sig.toNat)] })
        wrF (R.TILE_WB_STATUS tile) F.TILE_WB_STATUS.queued ((s.tile tile).wbq.length + 1)
        if (s.tile tile).wbq = [] then wbAct tile op frame) s t) ∧
  (∀ (s : State) (tile : TileId) (op f sig : Nat) (rest : List (Nat × Nat × Nat)), s.clear → (s.tile tile).wbq = (op, f, sig) :: rest →
      ∃ u, u.tile tile = { s.tile tile with wbq := rest } ∧
        u.fldOf (R.TILE_WB_STATUS tile) F.TILE_WB_STATUS.done = (s.fldOf (R.TILE_WB_STATUS tile) F.TILE_WB_STATUS.done + 1) %
          2 ^ (F.TILE_WB_STATUS.done.hi + 1 - F.TILE_WB_STATUS.done.lo) ∧
        Wrote s u (tileKey tile (sig * 8 % 2 ^ 22)) (leBytes 8 (u.fldOf (R.TILE_WB_STATUS tile) F.TILE_WB_STATUS.done)) ∧
        SameBut [.regs, .mem, .tab, .tiles] s u ∧
        exec (.wbCommandDone tile) s = .next (match rest with
          | [] => u
          | (op, f, _) :: _ => Act.run (wbAct tile op f) u)) ∧
  (∀ (s : State) (tile : TileId) (frame : Fin 64), s.clear → copyValid (s.copyEntry tile frame) = true →
    copyWt (s.copyEntry tile frame) = true → copyDirty (s.copyEntry tile frame) ≠ 0 →
      exec (.writeThroughFlush tile frame) s = .next (Act.run (wbFlush tile frame) s))

/-- MIG_START, MIG_ABORT and MIG_COPY_DONE (R261, R263): an accepted start sets source and site 16 MIGRATING and ends the
cover; an abort of a copy returns site 16 to FALLOW, the source serving on; with the last unit copied the position change is
staged. Where the model chooses, it rests on assumption 82. -/
def Obligations.SiteMigrates : Prop :=
  (∀ (s : State) (core : CoreId) (site : Fin 17), s.migRefused site = false →
    Admits s core (R.GDC_MIG_CTRL site) (putFld (s.reg (R.GDC_MIG_CTRL site)) F.GDC_MIG_CTRL.start 1) →
      ∃ t, exec (.migStart core site) s = .next t ∧ t.resp = { reason := 0, data := 0 } ∧
        t.mig = { s.mig with src := some site, cutover := false, coverMarks := [], since := s.now } ∧ t.siteState site = 4 ∧ t.siteState 16 = 4 ∧
        t.fldOf (R.GDC_MIG_STATUS site) F.GDC_MIG_STATUS.state = 1 ∧ t.fldOf (R.GDC_MIG_STATUS site) F.GDC_MIG_STATUS.pointer = 0 ∧
        t.fldOf R.GDC_COVER_STATUS F.GDC_COVER_STATUS.state = 3 ∧ SameBut [.regs, .mig, .resp, .land, .sent] s t) ∧
  (∀ (s : State) (core : CoreId) (site : Fin 17), s.mig.src = some site.val → site ≠ 16 →
    s.fldOf (R.GDC_MIG_STATUS site) F.GDC_MIG_STATUS.state = 1 → s.fldOf (R.GDC_MIG_CTRL site) F.GDC_MIG_CTRL.start = 0 →
    Admits s core (R.GDC_MIG_CTRL site) (putFld (s.reg (R.GDC_MIG_CTRL site)) F.GDC_MIG_CTRL.abort 1) →
      ∃ t, exec (.migAbort core site) s = .next t ∧ t.resp = { reason := 0, data := 0 } ∧ t.mig.src = none ∧
        t.siteState 16 = 5 ∧ t.siteState site = 2 ∧ t.fldOf (R.GDC_MIG_STATUS site) F.GDC_MIG_STATUS.state = 0 ∧
        SameBut [.regs, .mig, .resp, .land, .sent] s t) ∧
  (∀ (s : State) (site : Nat), s.up → s.mig.src = some site → site < 17 →
    s.fldOf (R.GDC_MIG_STATUS site) F.GDC_MIG_STATUS.state = 1 →
      ∃ t, exec .migCopyDone s = .next t ∧ t.mig = { s.mig with cutover := true } ∧
        t.fldOf (R.GDC_MIG_STATUS site) F.GDC_MIG_STATUS.state = 2 ∧ SameBut [.regs, .mem, .mig] s t)

/-! ## Flash -/

namespace Sys2Proof.Machine

/-- An engine reads the descriptor that a reference names (R238): it stands in hub SRAM that the partition holds and is good, or
the read of it comes back with it. `u` is the state after the read. -/
def PlaceRead (s u : State) (src p ref : Nat) (d : List Byte) : Prop :=
  (refSpace ref = 0 ∧ ref / 2 ^ 50 = 0 ∧ HubHolds s p (refAddr ref) 32 ∧ d = s.hubAt (refAddr ref) 32 ∧ s.obGood p d = true ∧ u = s) ∨
    Runs (readPlace src p ref) s (some d) u

/-- What a decoder does with a codeword at its level `n` of read retry (R279, R281). -/
def softLevel (dec : Nat) (w : FlCw) (n : Nat) (decodes : Bool) : Act Unit := do
  refreshDue (pcaBlock w.pca)
  count (C.FLC_CNT_SOFT (pcaChan w.pca)) 1
  count (C.FLC_DEC_CNT_SOFT_BUSY dec) 32
  if decodes then
    modFlash (fun x => { x with soft := x.soft.filter (fun e => e.1 ≠ dec) })
    showDec dec false 0 0
    cwDecoded w
    flSweep
  else if n + 1 < 5 then
    modFlash (fun x => { x with soft := x.soft.filter (fun e => e.1 ≠ dec) ++ [(dec, w, n + 1)] })
    showDec dec true (n + 1) (pcaChan w.pca)
  else
    modFlash (fun x => { x with soft := x.soft.filter (fun e => e.1 ≠ dec) })
    showDec dec false 0 0
    count (C.FLC_CNT_UE (pcaChan w.pca)) 1
    count (C.FLC_DEC_CNT_SOFT_FAIL dec) 1
    match ← rd (fun t => t.flCmd w.part w.idx) with
    | some d => if d.status.isNone then flEnd d 1
    | none => skip
    flSweep
    showSoft

end Sys2Proof.Machine

/-- FLASH_READ, FLASH_WRITE and FLASH_TRIM (R272 to R277): the head of a partition's flash queue that is a good entry of the
command's operation, with a descriptor that reads, on units nothing else holds and allowed to its owner, starts: its number
rises, and its units, those of its object in the partition's namespace, are read, programmed or unmapped. -/
def Sys2Proof.Machine.FlashCommandStarts : Prop :=
  ∀ (s u : State) (p : PartId) (op i : Nat) (e d : List Byte) (u0 : Nat) (x : FlCmd) (c : Instr),
    (op, c) ∈ [(1, Instr.flashRead p), (2, .flashWrite p), (3, .flashTrim p)] → s.clear → i = s.flqStarted p → i ≠ s.flqTail p →
    s.fldOf R.FLC_ENG_STATUS F.FLC_ENG_STATUS.map_ready = 1 → s.pageServes (pageBase .flc 0) = true →
    (s.flash.cmds.filter (fun c => c.part = p.val && decide (c.idx < 2 ^ 32))).length < 16 →
    HubHolds s p (s.flqAddr p i) 64 → e = s.hubAt (s.flqAddr p i) 64 → feOp e = op → feGood e = true →
    PlaceRead s u flashSrc p (feDesc e) d → flashFirst (s.nsFirst p) d (feOffset e) = some u0 →
    s.unitBusy p (entryUnits e d u0) = false →
    ¬ (op = 1 ∧ obKind d = 0 ∧ s.insideProtected p 1 (feGaddr e % 2 ^ 48) (feUnits e * 65536) = false) →
    ¬ (op = 2 ∧ (obKind d = 3 ∨ s.touchesJournal p (feGaddr e % 2 ^ 48) (feUnits e * 65536) = true)) →
    x = { part := p, idx := i, op := op, comp := obComp d, ro := decide (obPolicy d = 2), units := entryUnits e d u0
          all := entryUnits e d u0, gaddr := feGaddr e % 2 ^ 48, pcas := [], todo := [], got := 0, status := none } →
      exec c s = .next (Act.run (do
        wrF (R.PRT_FLQ_HEAD p) F.PRT_FLQ_HEAD.started (i + 1)
        modFlash (fun y => { y with cmds := y.cmds ++ [x] })
        match op with
        | 1 => readUnit x
        | 2 => writeUnit x
        | _ =>
          flEnd x (← trimUnits p x.units)
          reclaim
          logPump) u)

/-- FLASH_CMD_DONE, HARD_DECODE and SOFT_DECODE (R274, R278, R279): an ended command writes its status and its signal and the
done count moves; a decoder in service and free of soft work takes the next codeword round-robin, which decodes or goes to the
soft queue; the codeword a soft decoder holds, or takes from the soft queue while fewer than two are soft, decodes, takes its
next read-retry level, or after five is uncorrectable. -/
def Sys2Proof.Machine.FlashCompletesAndDecodes : Prop :=
  (∀ (s : State) (p : PartId) (c : FlCmd), s.clear →
    s.flash.cmds.find? (fun c => c.part = p.val && c.status.isSome && decide (c.idx < 2 ^ 32)) = some c →
    HubHolds s p (s.flqAddr p c.idx + 2) 1 →
      exec (.flashCmdDone p) s = .next (Act.run (do
        stBytes (s.flqKey p c.idx + 2) (leBytes 1 (c.status.getD 0))
        if bit (s.memNum (s.flqKey p c.idx + 1) 1) 0 then
          signalTile flashSrc p (s.memNum (s.flqKey p c.idx + 32) 4) (s.memNum (s.flqKey p c.idx + 36) 4)
        modFlash (fun x => { x with cmds := x.cmds.erase c, finished := x.finished ++ [(p.val, c.idx)] })
        flqAdvance p 256
        reclaim
        writePump) s)) ∧
  (∀ (s : State) (dec : Fin 4) (fails : Bool) (corrected : Nat) (w : FlCw), s.clear →
    s.flash.soft.any (fun e => e.1 = dec.val) = false → s.pageServes (pageBase .flc (16 + dec)) = true →
    ((List.range 16).map (fun i => (s.flash.last + 1 + i) % 16)).findSome?
      (fun c => s.flash.rx.find? (fun w => pcaChan w.pca = c && !w.failed)) = some w →
      exec (.hardDecode dec fails corrected) s = .next (Act.run (do
        count (C.FLC_DEC_CNT_HARD dec) 1
        modFlash (fun x => { x with last := pcaChan w.pca })
        if fails then
          count (C.FLC_DEC_CNT_HARD_FAIL dec) 1
          modFlash (fun x => { x with rx := x.rx.map (fun v => if v = w then { v with failed := true } else v) })
          toSoftQueue
        else
          count (C.FLC_CNT_CORR_BITS (pcaChan w.pca)) corrected
          noteDecode (pcaChan w.pca) corrected
          if (← rdF R.FLC_ENG_CFG F.FLC_ENG_CFG.refresh_bits) < corrected then refreshDue (pcaBlock w.pca)
          modFlash (fun x => { x with rx := x.rx.erase w })
          cwDecoded w
          flSweep
          flTransfer (pcaChan w.pca)) s)) ∧
  (∀ (s : State) (dec : Fin 4) (decodes : Bool) (e : Nat × FlCw × Nat), s.clear → s.pageServes (pageBase .flc (16 + dec)) = true →
    s.flash.soft.find? (fun e => e.1 = dec.val) = some e →
      exec (.softDecode dec decodes) s = .next (Act.run (softLevel dec e.2.1 e.2.2 decodes) s)) ∧
  (∀ (s : State) (dec : Fin 4) (decodes : Bool) (w : FlCw), s.clear → s.pageServes (pageBase .flc (16 + dec)) = true →
    s.flash.soft.find? (fun e => e.1 = dec.val) = none → s.flash.soft.length < 2 → s.flash.softq.head? = some w →
      exec (.softDecode dec decodes) s = .next (Act.run (do
        modFlash (fun x => { x with softq := x.softq.drop 1 })
        toSoftQueue
        softLevel dec w 0 decodes) s))

/-- PROGRAM_DONE, PROGRAM_FAIL and REFRESH_BLOCK (R277, R280, R281, R282, R284): the page a channel works on is programmed and
leaves the write buffer, and the units that have all their codewords wait for their map record; a block that fails is retired,
what was buffered for it goes elsewhere and what stands in it is relocated; a block on the refresh list, outside its channel's
window, has what is valid in it relocated, and once nothing is and no read is on it, it leaves the list and is erased. -/
def Sys2Proof.Machine.FlashProgramsAndRefreshes : Prop :=
  (∀ (s : State) (chan : Fin 16) (page : Nat) (mine rest : List FlBuf), s.clear → s.pageInHand chan = some page →
    mine = s.flash.buf.filter (fun b => pcaPage b.pca = page) → rest = s.flash.buf.filter (fun b => pcaPage b.pca ≠ page) →
      exec (.programDone chan) s = .next (Act.run (do
        for b in mine do programBuf b
        modFlash (fun x => { x with buf := rest })
        modFlChan chan (fun x => { x with inHand := none })
        wpClosePage chan (bits page 39 37) (bits page 36 34) page
        pagePassed mine rest
        reclaim
        writePump
        logPump) s)) ∧
  (∀ (s : State) (chan : Fin 16) (erased : Option Nat) (b : Nat), s.up →
    (match erased with
      | some b => if blkChan b = chan then some b else none
      | none => (s.pageInHand chan).map (· / 2 ^ 16)) = some b → s.blkState b ≠ 2 →
      exec (.programFail chan erased) s = .next (Act.run (do
        retireBlk b
        rebuffer b
        for a in ← rd (fun t => t.strayCws b) do moveCw a
        for u in s.blkUnits b do relocate u
        logPump) s)) ∧
  (∀ (s : State) (b : Nat), s.up → s.flash.refresh.contains b = true → s.refreshOn = true → s.flState (blkChan b) = 2 →
      (¬ (s.blkUnits b = [] ∧ s.strayCws b = []) → exec (.refreshBlock b) s = .next (Act.run (do
        for u in s.blkUnits b do relocate u
        for a in s.strayCws b do moveCw a
        logPump) s)) ∧
      (s.blkUnits b = [] → s.strayCws b = [] → s.blkRead b = false → exec (.refreshBlock b) s = .next (Act.run (do
        modFlash (fun x => { x with refresh := x.refresh.erase b })
        if s.blkState b = 1 ∧ !s.blkOpen b then
          eraseBlk b
          count (C.FLC_CNT_REFRESH (blkChan b)) 1) s)))

/-- GC_RELOCATE, WEAR_LEVEL_MOVE, MAP_CHECKPOINT and MAP_REBUILD_DONE (R282, R283, R287, R288): a mapped unit that is not
already on its way is buffered whole at a write point, where there is room, to be mapped only if its entry still holds the old
place; beyond the spread units of the least worn block go to the most worn free block; past 1 GiB a checkpoint is written and
the map log starts again; a rebuilt map is ready. -/
def Sys2Proof.Machine.FlashHousekeeping : Prop :=
  (∀ (s : State) (unit : Nat) (l : List Nat), s.up → s.unitPcas unit = some l → s.moving unit (l.getD 0 0) = false →
    s.flState (s.unitChan unit) = 2 →
      exec (.gcRelocate unit) s = .next (Act.run (do
        if ← bufUnit unit (l.flatMap (fun a => s.memBytes (flashKey a) 4096)) none (some (l.getD 0 0)) then
          count (C.FLC_CNT_RELOC_CW (← rd (fun s => s.unitChan unit))) l.length
          match ← rd (fun s => s.unitOwner unit) with
          | some p => creditGrow p; creditCharge p (4096 * l.length)
          | none => skip) s)) ∧
  (∀ (s : State) (chan : Fin 16) (a d : Nat), s.up → s.wearUneven chan = true → s.flState chan = 2 →
    s.leastWorn ((s.chanBlocks chan).filter (fun b => s.blkState b = 1 && !s.blkOpen b)) = some a → s.blkUnits a ≠ [] →
    ((s.flChan chan).wear.map (·.1) = some d ∨
      (s.flChan chan).wear = none ∧ s.mostWorn ((s.chanBlocks chan).filter (fun b => s.blkState b = 0)) = some d) →
      ∃ t l, exec (.wearLevelMove chan) s = .next t ∧ ((s.flChan chan).wear = none → t.blkState d = 1) ∧
        t.blkErases d = s.blkErases d ∧ t.flash.buf = s.flash.buf ++ l ∧
        (∀ x ∈ l, x.unit ∈ s.blkUnits a ∧ x.cmd = none ∧ d * 2 ^ 20 ≤ x.pca) ∧ SameBut [.regs, .tab, .flash] s t) ∧
  (∀ s : State, s.up → 2 ^ 30 < s.flash.logBytes →
      ∃ t, exec .mapCheckpoint s = .next t ∧ t.flash.logBytes = 0 ∧ t.flash.logCws = [] ∧
        SameBut [.regs, .mem, .tab, .flash] s t) ∧
  (∀ s : State, s.up → s.flChans ≠ [] → s.fldOf R.FLC_ENG_STATUS F.FLC_ENG_STATUS.map_ready = 0 →
      ∃ t, exec .mapRebuildDone s = .next t ∧ t.fldOf R.FLC_ENG_STATUS F.FLC_ENG_STATUS.map_ready = 1 ∧
        t.flash.cap = (if s.flash.cap = 0 then s.flashGood * 7 / 8 else s.flash.cap) ∧
        SameBut [.regs, .mem, .tab, .sites, .mig, .flash, .land, .sent] s t)

/-! ## Weights: manifests, keys and loads -/

namespace Sys2Proof.Machine

/-- The engine takes a partition's load queue (R302), and at its front stands entry `i`, which has operation `op` and keeps the
rules of R300: `e`. -/
def LoadFront (s : State) (p op i : Nat) (e : List Byte) : Prop :=
  s.clear ∧ s.loadTurn p = true ∧ i = s.ldqStarted p ∧ i ≠ s.ldqTail p ∧ e = s.hubBytes p (s.ldqKey p i) 64 ∧ leOp e = op ∧
    leGood e = true

/-- The state with the front entry of a load queue started (R320). -/
def ldqTaken (s : State) (p : Nat) : State := Act.run (wrF (R.PRT_LDQ_HEAD p) F.PRT_LDQ_HEAD.started (s.ldqStarted p + 1)) s

/-- The flash write of a chunk that goes to flash: its units are those of its destination in the partition's namespace (R303). -/
def chunkWrite (s : State) (t : StreamX) (c : ChunkX) (bs : List Byte) (p i ix : Nat) : FlCmd :=
  { part := p, idx := chunkCmd i ix, op := 2, comp := 0, ro := false
    units := ((List.range ((bs.length + 65535) / 65536)).map (fun k => (t.dest + ix * chunkBytes) / 65536 + k)).map (· + s.nsFirst p)
    gaddr := landAt t c + 5242880, pcas := [], todo := [], got := 0, status := none }

end Sys2Proof.Machine

/-- VERIFY, DROP, KEY_REQUEST, KEY_REQUEST_TIMEOUT and KEY_INSTALL (R296 to R299): a manifest that reads and whose structure and
owner signature are good fills the lowest free slot, whose number the entry takes, and ends OK, any other ends INTEGRITY; a
slot nothing refers to is freed; a key request writes its report, whose release field names the manifest digest, the shard,
the request number and the public keys, and keeps its secret keys; they are destroyed after key_timeout_s; a release blob
of a request in hand whose key unwraps under the key that HKDF gives of its secrets fills the lowest free key slot. -/
def Sys2Proof.Machine.ManifestsAndKeys : Prop :=
  (∀ (s u v : State) (p : PartId) (i slot : Nat) (e h m : List Byte), LoadFront s p 1 i e →
    Runs (spRead ingressSrc p (refSpace (leAddr e)) (refAddr (leAddr e)) 64) (ldqTaken s p) (.ok h) u →
    Runs (spRead ingressSrc p (refSpace (leAddr e)) (refAddr (leAddr e)) (mfSigned h + 3373)) u (.ok m) v →
    lowestFree 16 (s.load.mans.map (·.slot)) = some slot →
      exec (.verify p) s = .next (Act.run (
        if mfGood m = true ∧ s.sec.ownerKeys.any (fun k => bit k.1 p &&
            Config.sigOk k.2 (m.take (mfSigned m)) (m.drop (mfSigned m))) = true then do
          modLoad (fun x => { x with mans := x.mans ++ [{ slot := slot, owner := p, bytes := m }] })
          hubStore p (v.ldqKey p i + 4) (leBytes 1 slot)
          loadEnd p i 0 0
        else loadEnd p i 1 2) v)) ∧
  (∀ (s : State) (p : PartId) (i : Nat) (e : List Byte) (m : ManSlot), LoadFront s p 2 i e → s.man (leMslot e) = some m →
    m.owner = p → s.load.keys.any (fun k => k.mslot = m.slot) = false →
    (∀ b, b < 2 → s.baseState b ≠ 0 → s.fldOf (R.BIN_BASE b) F.BIN_BASE.mslot ≠ m.slot) →
      ∃ t l, exec (.drop p) s = .next t ∧
        t.load = { s.load with
          mans := s.load.mans.filter (fun d => d.slot ≠ m.slot)
          finished := l }) ∧
  (∀ (s u v : State) (p : PartId) (i : Nat) (e nonce r : List Byte) (m : ManSlot) (priv : Nat), LoadFront s p 3 i e →
    s.man (leMslot e) = some m → m.owner = p → leShard e < mfShards m.bytes → s.load.reqs.length < 16 →
    Runs (do
      let n ← spRead ingressSrc p (refSpace (leAddr e)) (refAddr (leAddr e)) 32
      let k ← freshNat
      pure (n, k)) (ldqTaken s p) (.ok nonce, priv) u →
    r = u.report 2 nonce none (m.digest ++ leBytes 4 (leShard e) ++ leBytes 8 (s.load.reqNo + 1) ++
      leBytes 1216 (Config.kemPublic priv)) →
    Runs (spWrite ingressSrc p (refSpace (leAux e)) (refAddr (leAux e)) r) u none v →
      exec (.keyRequest p) s = .next (Act.run (do
        modLoad (fun x => { x with
          reqNo := s.load.reqNo + 1
          reqs := x.reqs ++ [{ num := s.load.reqNo + 1, part := p, digest := m.digest, shard := leShard e, priv := priv, since := s.now }] })
        loadEnd p i 0 0) v)) ∧
  (∀ (s : State) (num : Nat), s.up →
      exec (.keyRequestTimeout num) s = .next ((Upd.load { s.load with
        reqs := s.load.reqs.filter (fun r =>
          !(r.num = num && decide (r.since + s.fldOf R.BIN_ENG_CFG F.BIN_ENG_CFG.key_timeout_s * 1000000000 ≤ s.now))) }).apply s)) ∧
  (∀ (s v : State) (p : PartId) (i slot : Nat) (e b : List Byte) (m : ManSlot) (r : KeyReq), LoadFront s p 4 i e →
    s.man (leMslot e) = some m → m.owner = p →
    Runs (spRead ingressSrc p (refSpace (leAddr e)) (refAddr (leAddr e)) 1220) (ldqTaken s p) (.ok b) v →
    s.load.reqs.find? (fun r => r.part = p.val && r.num = numAt b 52 8 && r.digest = bytesAt b 0 48 && r.shard = numAt b 48 4 &&
      r.digest = m.digest && r.shard = leShard e) = some r →
    lowestFree 128 (s.load.keys.map (·.slot)) = some slot →
      exec (.keyInstall p) s = .next (Act.run (match shardKey r b with
        | none => loadEnd p i 1 3
        | some key => do
          modLoad (fun x => { x with
            reqs := x.reqs.filter (fun d => d.num ≠ r.num)
            keys := x.keys ++ [{ slot := slot, owner := p, mslot := m.slot, shard := r.shard, key := key }] })
          hubStore p (v.ldqKey p i + 5) (leBytes 1 slot)
          loadEnd p i 0 0) v))

/-- LOAD, CHUNK_LANDED, CHUNK_TIMEOUT and LOAD_DONE (R300 to R304, R314): a LOAD that keeps its rules takes a stream bound to its
shard's key and sources and starts its chunks, a base slot it fills going to LOADING; a landed chunk that opens under its
key and has its digest is written to its destination, GDDR7 or flash, and returns, one that does not goes on to the next attempt; an attempt
that takes too long moves on; with every chunk returned the stream is released, a base slot it filled reads VERIFIED or FAILED, and the entry ends. -/
def Sys2Proof.Machine.LoadStreams : Prop :=
  (∀ (s u v : State) (p : PartId) (i : Nat) (e d bt : List Byte) (m : ManSlot) (k : KeySlot), LoadFront s p 5 i e →
    s.load.streams.length < 64 → s.man (leMslot e) = some m → m.owner = p → leShard e < mfShards m.bytes →
    s.keySlot (leKslot e) = some k → k.owner = p → k.mslot = m.slot → k.shard = leShard e →
    PlaceRead s u ingressSrc p (leAddr e) d → obTier d ≠ 0 →
    (leBase e = true → s.baseTakes p (leBaseSlot e) = true) →
    s.loadRangeBad p d (shBytes (mfShard m.bytes (leShard e))) (leLanding e) = false →
    Runs (spRead ingressSrc p (refSpace (leAux e)) (refAddr (leAux e)) (16 * mfSources m.bytes)) u (.ok bt) v →
    s.destTaken p (obTier d = 2) (obBase d) (shBytes (mfShard m.bytes (leShard e))) = false →
      exec (.load p) s = .next (Act.run (do
        wrF (R.PRT_LDQ_HEAD p) F.PRT_LDQ_HEAD.started (i + 1)
        modLoad (fun x => { x with
          streams := x.streams ++ [{ part := p, idx := i, mslot := m.slot, kslot := leKslot e, shard := leShard e
                                     binds := bindings bt (mfSources m.bytes), peers := lePeers e, toFlash := decide (obTier d = 2)
                                     dest := obBase d, landing := leLanding e
                                     base := if leBase e then some (leBaseSlot e) else none }] })
        if leBase e then
          wrF (R.BIN_BASE (leBaseSlot e)) F.BIN_BASE.mslot m.slot
          if s.baseState (leBaseSlot e) = 0 then setBaseState (leBaseSlot e) 1
        showIngress
        streamFill p i 16) v)) ∧
  (∀ (s u : State) (p : PartId) (i ix wire : Nat) (t : StreamX) (c : ChunkX) (ct : List Byte), s.clear → s.stream p i = some t →
    t.chunks.find? (fun c => c.ix = ix && c.landed && !c.flash) = some c →
    wire = (if c.attempt < t.binds.length then ckWire (s.chunkLine t ix) else ckStored (s.chunkLine t ix)) →
    Runs (gRead ingressSrc p (landAt t c) (wire + 16)) s (.ok ct) u →
      exec (.chunkLanded p i ix) s = .next (Act.run (do
        count C.BIN_CNT_ENGINE_BYTES wire
        match s.chunkOpen t c ct with
        | .error a =>
          count a 1
          chunkNext p i ix
        | .ok bs =>
          count C.BIN_CNT_CHUNKS 1
          if t.binds.length ≤ c.attempt then count C.BIN_CNT_PEER_COPY 1
          if t.toFlash then
            let _ ← gWrite ingressSrc p (landAt t c + 5242880) (bytesAt bs 0 (roundUp bs.length 65536))
            putChunk t { c with flash := true }
            let cmd := chunkWrite s t c bs p i ix
            modFlash (fun x => { x with cmds := x.cmds ++ [cmd] })
            writeUnit cmd
            logPump
          else
            match ← gWrite ingressSrc p (t.dest + ix * chunkBytes) bs with
            | some _ => chunkReturn t c 3 0
            | none => chunkReturn t c 0 0
            streamFill p i 16) u)) ∧
  (∀ (s : State) (p : PartId) (i ix : Nat) (t : StreamX) (c : ChunkX), s.up → s.stream p i = some t →
    t.chunks.find? (fun c => c.ix = ix && !c.landed) = some c →
    c.since + s.fldOf R.BIN_ENG_CFG F.BIN_ENG_CFG.chunk_timeout_ms * 1000000 ≤ s.now →
      exec (.chunkTimeout p i ix) s = .next (Act.run (do
        count (if c.attempt < t.binds.length then C.BIN_CNT_SOURCE_TIMEOUT else C.BIN_CNT_PEER_MISS) 1
        chunkNext p i ix) s)) ∧
  (∀ (s : State) (p : PartId) (i : Nat) (t : StreamX), s.up → s.stream p i = some t → t.chunks = [] →
    t.returned = s.streamChunks t → t.next = s.streamChunks t →
      ∃ u l, exec (.loadDone p i) s = .next u ∧
        (∀ b, b < 2 → t.base = some b → s.baseState b = 1 → u.baseState b = if t.status = 0 then 2 else 5) ∧
        u.load = { s.load with
          streams := s.load.streams.filter (fun d => !(d.part = p && d.idx = i))
          keys := s.load.keys.map (fun k => if k.slot = t.kslot ∧ t.status = 0 then
            { k with
              dest := if t.toFlash then none else some (p, t.dest)
              base := t.base } else k)
          finished := l })

/-- RDMA_READ_RESPONSE, ROCE_ACK, ROCE_NAK, ROCE_TIMEOUT and BULK_FRAME_DROP (R293 to R295, R318): a response packet of the PSN
expected next lands at the request's address, the request going on behind it; an acknowledgement starts the timeouts of the
requests before it over; a NAK, and a transport timer that has run out, use one of the retries of the oldest request and
send every outstanding one again; with none left, or after a NAK that reports a remote error, the QP goes to ERROR and its
reads fail; a frame of no queue pair is counted and dropped. -/
def Sys2Proof.Machine.QueuePairs : Prop :=
  (∀ (s u : State) (q : Fin 64) (psn : BitVec 24) (payload : List Byte) (r : RdReq) (o : Option Nat), s.clear → s.qpReady q = true →
    s.load.reads.find? (fun r => r.qp = q.val && decide (r.psn < 2 ^ 24)) = some r → psn.toNat = r.next → payload.length < r.left →
    Runs (gWrite ingressSrc r.part r.addr payload) (Act.run (count (C.BIN_CNT_RX_BYTES (s.qpPort q))
      (s.roceFrame q + (payload.length + if r.next ≠ r.psn ∧ s.pathMtu (s.qpPort q) < r.left then 0 else 4))) s) o u →
      exec (.rdmaReadResponse q psn payload false) s = .next ((Upd.load { u.load with
        reads := s.load.reads.map (fun d => if d = r then
          { r with
            next := (r.next + 1) % 2 ^ 24
            left := r.left - payload.length
            addr := r.addr + payload.length
            remote := r.remote + payload.length
            tries := 0
            since := s.now } else d) }).apply u)) ∧
  (∀ (s : State) (q : Fin 64) (psn : BitVec 24), s.up → s.qpReady q = true →
      exec (.roceAck q psn) s = .next ((Upd.load { s.load with
        reads := s.load.reads.map (fun r =>
          if r.qp = q.val ∧ r.psn < 2 ^ 24 ∧ (psn.toNat + 2 ^ 24 - r.psn) % 2 ^ 24 < 2 ^ 23 then { r with tries := 0, since := s.now }
          else r) }).apply
            (Act.run (count (C.BIN_CNT_RX_BYTES (s.qpPort q)) (s.roceFrame q + 4)) s))) ∧
  (∀ (s u : State) (q : Fin 64) (psn : BitVec 24) (fatal : Bool), s.up → s.qpReady q = true →
    u = (Upd.load { s.load with
      reads := s.load.reads.map (fun r =>
        if r.qp = q.val ∧ r.psn < 2 ^ 24 ∧ r.psn ≠ psn.toNat ∧ (psn.toNat + 2 ^ 24 - r.psn) % 2 ^ 24 < 2 ^ 23 then { r with tries := 0 }
        else r) }).apply (Act.run (do
          count (C.BIN_CNT_RX_BYTES (s.qpPort q)) (s.roceFrame q + 4)
          count (C.BIN_CNT_NAK (s.qpPort q)) 1) s) →
      exec (.roceNak ⟨q, psn, fatal⟩) s = .next (Act.run (if fatal then qpError q else qpRetry q) u)) ∧
  (∀ (s : State) (q : Fin 64), s.up → s.qpReady q = true → s.qpLate q = true →
      exec (.roceTimeout q) s = .next (Act.run (qpRetry q) s)) ∧
  (∀ (s : State) (q : Nat) (r : RdReq), s.load.reads.find? (fun r => r.qp = q && decide (r.psn < 2 ^ 24)) = some r →
    (r.tries < s.qpNum q 31 1 →
      ∃ t, Act.run (qpRetry q) s = t ∧
        t.load = { s.load with
          reads := s.load.reads.map (fun d => if d.qp = q ∧ d.psn < 2 ^ 24 then
            { d with
              tries := if d = r then d.tries + 1 else d.tries
              since := s.now } else d) } ∧
        t.sent = s.sent ++ (s.load.reads.filter (fun d => d.qp = q ∧ d.psn < 2 ^ 24)).map
          (fun d => .rdmaRead (s.roceHdr q) d.next d.remote d.rkey d.left) ∧ SameBut [.regs, .load, .sent] s t) ∧
    (s.qpNum q 31 1 ≤ r.tries → Act.run (qpRetry q) s = Act.run (qpError q) s)) ∧
  (∀ (s : State) (q : Nat), Act.run (qpError q) s = Act.run (do
      qpSet q 34 1 2
      modLoad (fun x => { x with reads := s.load.reads.filter (fun d => d.qp ≠ q) })
      for f in ((s.load.reads.filter (fun d => d.qp = q)).map (fun d => (d.part, d.idx, d.chunk))).eraseDups do
        count C.BIN_CNT_SOURCE_ERROR 1
        chunkNext f.1 f.2.1 f.2.2) s) ∧
  (∀ (s : State) (port : Fin 2) (len : Nat), s.up → exec (.bulkFrameDrop ⟨port, len⟩) s = .next (Act.run (do
      count (C.BIN_CNT_RX_BYTES port) len
      count (C.BIN_CNT_RX_DROP port) 1) s))

/-- PEER_REQ, PEER_DATA and PEER_NOT_HELD (R303, R306): a request for a chunk that is not held is answered so; one that is held
is read, sealed under the shard's key with the slot's next serial, and goes out in packets of 4 KiB; a peer's packet lands
at the chunk's slot; a refusal moves the chunk on. -/
def Sys2Proof.Machine.PeersServeChunks : Prop :=
  (∀ (s u : State) (r : RxPacket) (p : Nat), s.windowed = [] → Receives s r 0x38 (some p) → u = received s r →
    (u.peerSlot (bytesAt (pkBody r.bytes) 0 48) (numAt (pkBody r.bytes) 48 4) = none →
      exec (.peerReq r) s = .next (Act.run (replyTo r p 0x3A (pkArg0 r.bytes) 0 []) u)) ∧
    (∀ (v : State) (k : KeySlot) (m : ManSlot) (owner base : Nat) (bs all : List Byte),
      u.peerSlot (bytesAt (pkBody r.bytes) 0 48) (numAt (pkBody r.bytes) 48 4) = some k → u.man k.mslot = some m →
      k.dest = some (owner, base) → pkArg0 r.bytes < shCount (mfShard m.bytes k.shard) →
      Runs (gRead ingressSrc owner (base + pkArg0 r.bytes * chunkBytes)
        (ckStored (mfChunk m.bytes (shFirst (mfShard m.bytes k.shard) + pkArg0 r.bytes)))) u (.ok bs) v →
      all = peerIv u.ownFabric k.serial (pkArg0 r.bytes) ++
        Config.gcmSeal k.key (peerIv u.ownFabric k.serial (pkArg0 r.bytes)) (m.digest ++ leBytes 8 (pkArg0 r.bytes)) bs →
      exec (.peerReq r) s = .next (Act.run (do
        modLoad (fun x => { x with keys := x.keys.map (fun d => if d.slot = k.slot then { d with serial := d.serial + 1 } else d) })
        count C.BIN_CNT_PEER_SERVED 1
        for i in List.range ((all.length + 4095) / 4096) do
          replyTo r p 0x39 (pkArg0 r.bytes) i ((all.drop (4096 * i)).take 4096)) v))) ∧
  (∀ (s u v : State) (r : RxPacket) (p : Nat) (t : StreamX) (c : ChunkX) (o : Option Nat), s.windowed = [] → Receives s r 0x39 (some p) →
    u = received s r → u.peerChunk p (pkSrc r.bytes) (pkArg0 r.bytes) = some (t, c) →
    Runs (gWrite ingressSrc p (landAt t c + (4096 * pkArg1 r.bytes - 12))
      (if pkArg1 r.bytes = 0 then (pkBody r.bytes).drop 12 else pkBody r.bytes)) u o v →
      exec (.peerData r) s = .next (Act.run (putChunk t { c with
        iv := if pkArg1 r.bytes = 0 then (pkBody r.bytes).take 12 else c.iv
        got := c.got + (pkBody r.bytes).length
        landed := decide (12 + ckStored (u.chunkLine t (pkArg0 r.bytes)) + 16 ≤ c.got + (pkBody r.bytes).length) }) v)) ∧
  (∀ (s u : State) (r : RxPacket) (p : Nat) (t : StreamX) (c : ChunkX), Receives s r 0x3A (some p) → u = received s r →
    u.peerChunk p (pkSrc r.bytes) (pkArg0 r.bytes) = some (t, c) →
      exec (.peerNotHeld r) s = .next (Act.run (do
        count C.BIN_CNT_PEER_MISS 1
        chunkNext t.part t.idx c.ix) u))

/-! ## Tedders, adapters and base slots -/

/-- FILL_PIECE and FILL_PIECE_DONE (R309, R310): an idle tedder in service starts the next piece of a partition's queue
whose tile is its partition's and whose buffer takes it; the buffer goes to FILLING with the entry's tag; a piece that reads
is expanded into the buffer, and the tedder is idle again. Where the model chooses, it rests on assumptions 89 and 114. -/
def Obligations.FillPieces : Prop :=
  (∀ (s : State) (q : Fin 4) (p : PartId) (i j page w : Nat) (e : List Byte), s.up → s.ted.busy.any (fun b => b.q = q.val) = false →
    s.pageServes (pageBase .ted q) = true → s.pageServes (pageBase .prt p) = true → s.nextPiece p q = some (i, j) →
    e = s.hubBytes p (s.tdqKey p i) 64 → fiGood e = true →
    s.tileOfPart (fiFirst e + j) p = some page → w = b2n (fiFlag e 0) →
    (s.wbufState page w = 0 ∨ s.wbufState page w = 1 ∧ s.wbufTag page w = fiTag e) →
    fiDst e + wRegionBytes (fiFormat e) (fiRecords e) ≤ s.wbufSize page w →
      ∃ t, exec (.fillPiece q p) s = .next t ∧ t.wbufState page w = 1 ∧ t.wbufTag page w = fiTag e ∧
        t.fldOf (R.TED_STATUS q) F.TED_STATUS.busy = 1 ∧ t.fldOf (R.TED_STATUS q) F.TED_STATUS.partition = p ∧
        t.ted.busy = s.ted.busy ++ [{ part := p, idx := i, j := j, q := q, page := page, early := 0 }] ∧
        (t.fillE p i).started = (s.fillE p i).started ++ [j] ∧ SameBut [.regs, .ted] s t) ∧
  (∀ (s u : State) (q : Fin 4) (b : FillPc) (e : List Byte) (part m : Nat) (x : Expanded), s.clear →
    s.ted.busy.find? (fun b => b.q = q.val) = some b → b.early = 0 → e = s.hubBytes b.part (s.tdqKey b.part b.idx) 64 →
    s.fillSource b.part (fiFlag e 4) = some part →
    Runs (readPiece q part e (fiSrc e + b.j * fiStride e)) s (.ok (x, m)) u → x.stopped = false →
      exec (.fillPieceDone q) s = .next (Act.run (do
        count (C.TED_CNT_STORED_BYTES q) m
        count (C.TED_CNT_EXPANDED_BYTES q) (wRegionBytes (fiFormat e) x.lines.length)
        if fiFormat e = 2 then count (C.TED_CNT_H3I_BAD q) x.odd
        if fiFormat e = 5 then count (C.TED_CNT_MX_ZERO q) x.odd
        writeRegion b.page (s.wbufBase b.page (b2n (fiFlag e 0)) + fiDst e) (fiFormat e) (fiRecords e) x
        modTed (fun y => { y with busy := y.busy.filter (fun d => d.q ≠ q.val) })
        wrF (R.TED_STATUS q) F.TED_STATUS.busy 0
        count (C.TED_CNT_PIECES q) 1
        if fiFlag e 1 then setWbuf b.page (b2n (fiFlag e 0)) 2
        putFillE { s.fillE b.part b.idx with ended := (s.fillE b.part b.idx).ended + 1 }
        if (s.fillE b.part b.idx).ended + 1 = fiTiles e then fillEnd b.part b.idx (s.fillE b.part b.idx).status) u))

/-- ADP_STAGE, ADP_PUBLISH, ADP_WITHDRAW and ADP_DROP (R313): within its quota and with no entry of that number and version a
staged adapter takes the lowest free entry, STAGED and owned; publishing makes it CURRENT; withdrawing a pinned CURRENT one
leaves it WITHDRAWN; dropping a STAGED one frees its entry; each reads result 0. -/
def Sys2Proof.Machine.AdapterCommands : Prop :=
  (∀ (s : State) (core : CoreId) (p : PartId) (e w0 : Nat), s.adpEntries.length < 4096 → w0 = (s.reg (R.REQ_ADP_ARG p 0)).toNat →
    (s.adpEntries.filter (fun e => s.adpF e 0 F.ADP.owner = p.val)).length < s.fldOf (R.PRT_QUOTA p) F.PRT_QUOTA.adapters →
    s.adpFind p (w0 % 2 ^ 16) (w0 / 2 ^ 16 % 2 ^ 16) [1, 2, 3, 4] = none →
    (List.range 4096).find? (fun e => s.adpF e 0 F.ADP.state = 0) = some e → Admits s core (R.REQ_ADP_CMD p) (BitVec.ofNat 64 (2 ^ 60)) →
      ∃ t, exec (.adpStage core p) s = .next t ∧ t.resp = { reason := 0, data := 0 } ∧ t.adpF e 0 F.ADP.state = 1 ∧
        t.adpF e 0 F.ADP.owner = p ∧ t.adpF e 0 F.ADP.number = w0 % 2 ^ 16 ∧ t.adpF e 0 F.ADP.version = w0 / 2 ^ 16 % 2 ^ 16 ∧
        t.adpF e 1 F.ADP.pins = 0 ∧ t.wordAt (adpKey e 2) = s.reg (R.REQ_ADP_ARG p 2) ∧
        t.wordAt (adpKey e 3) = s.reg (R.REQ_ADP_ARG p 3) ∧ t.fldOf (R.REQ_ADP_STATUS p) F.REQ_ADP_STATUS.result = 0 ∧
        (∀ k, (∀ w, w < 4 → k ≠ adpKey e w) → t.wordAt k = s.wordAt k) ∧ RegsBut [R.REQ_ADP_STATUS p] s t ∧
        SameBut [.regs, .tab, .resp, .land, .sent] s t) ∧
  (∀ (s : State) (core : CoreId) (p : PartId) (num ver : BitVec 16) (e : Nat), s.adpFind p num.toNat ver.toNat [1, 2, 3, 4] = some e →
    (s.adpF e 0 F.ADP.state = 1 → (∀ d ∈ s.adpEntries, s.adpF d 0 F.ADP.owner = p → s.adpF d 0 F.ADP.number = num.toNat →
      s.adpF d 0 F.ADP.state ≠ 2) →
      Admits s core (R.REQ_ADP_CMD p) (BitVec.ofNat 64 (2 * 2 ^ 60 + num.toNat * 2 ^ 16 + ver.toNat)) →
      ∃ t, exec (.adpPublish core p num ver) s = .next t ∧ t.adpF e 0 F.ADP.state = 2 ∧
        t.fldOf (R.REQ_ADP_STATUS p) F.REQ_ADP_STATUS.result = 0 ∧ (∀ k, k ≠ adpKey e 0 → t.wordAt k = s.wordAt k) ∧
        RegsBut [R.REQ_ADP_STATUS p] s t ∧ SameBut [.regs, .tab, .resp, .land, .sent] s t) ∧
    (s.adpF e 0 F.ADP.state = 2 → s.adpF e 1 F.ADP.pins ≠ 0 →
      Admits s core (R.REQ_ADP_CMD p) (BitVec.ofNat 64 (3 * 2 ^ 60 + num.toNat * 2 ^ 16 + ver.toNat)) →
      ∃ t, exec (.adpWithdraw core p num ver) s = .next t ∧ t.adpF e 0 F.ADP.state = 4 ∧
        t.fldOf (R.REQ_ADP_STATUS p) F.REQ_ADP_STATUS.result = 0 ∧ (∀ k, k ≠ adpKey e 0 → t.wordAt k = s.wordAt k) ∧
        RegsBut [R.REQ_ADP_STATUS p] s t ∧ SameBut [.regs, .tab, .resp, .land, .sent] s t) ∧
    (s.adpF e 0 F.ADP.state = 1 →
      Admits s core (R.REQ_ADP_CMD p) (BitVec.ofNat 64 (4 * 2 ^ 60 + num.toNat * 2 ^ 16 + ver.toNat)) →
      ∃ t, exec (.adpDrop core p num ver) s = .next t ∧ (∀ w, w < 4 → t.wordAt (adpKey e w) = 0) ∧
        t.fldOf (R.REQ_ADP_STATUS p) F.REQ_ADP_STATUS.result = 0 ∧
        (∀ k, (∀ w, w < 4 → k ≠ adpKey e w) → t.wordAt k = s.wordAt k) ∧ RegsBut [R.REQ_ADP_STATUS p] s t ∧
        SameBut [.regs, .tab, .resp, .land, .sent] s t))

/-- BASE_DISCARD, BASE_CUTOVER_STAGE and BASE_RETIRE (R314, R315): discard empties a VERIFIED or FAILED slot; while ticks run, a
write of BIN_BASE_ACTIVE that names a VERIFIED slot writes the COMMITTED swap record with the page's scheduled tick and is
staged; a RETIRING slot that waits for no partition goes EMPTY and the record reads RETIRED. -/
def Sys2Proof.Machine.BaseSlots : Prop :=
  (∀ (s : State) (core : CoreId) (b : Fin 2), (s.baseState b = 2 ∨ s.baseState b = 5) →
    Admits s core (R.BIN_BASE b) (putFld (s.reg (R.BIN_BASE b)) F.BIN_BASE.discard 1) →
      ∃ t, exec (.baseDiscard core b) s = .next t ∧ t.resp = { reason := 0, data := 0 } ∧ t.baseState b = 0 ∧
        t.fldOf (R.BIN_BASE b) F.BIN_BASE.resident = 0 ∧
        t.fldOf (R.BIN_BASE b) F.BIN_BASE.owner = s.fldOf (R.BIN_BASE b) F.BIN_BASE.owner ∧ RegsBut [R.BIN_BASE b] s t ∧
        SameBut [.regs, .resp, .land, .sent] s t) ∧
  (∀ (s : State) (core : CoreId) (b : Fin 2), s.run = true → s.baseState b = 2 →
    Admits s core R.BIN_BASE_ACTIVE (BitVec.ofNat 64 b) →
      ∃ t, exec (.baseCutoverStage core b) s = .next t ∧ t.resp = { reason := 0, data := 0 } ∧
        t.fldOf R.BIN_SWAP_STATE F.BIN_SWAP_STATE.phase = 1 ∧ t.fldOf R.BIN_SWAP_STATE F.BIN_SWAP_STATE.slot = b ∧
        t.fldOf R.BIN_SWAP_REC F.BIN_SWAP_REC.tick = s.fldOf (pageBase .bin 2 + 0x50) F.SCHED_TICK.tick ∧
        (storeGet (fun _ => none) t.staged R.BIN_BASE_ACTIVE).isSome = true ∧ t.reg R.BIN_BASE_ACTIVE = s.reg R.BIN_BASE_ACTIVE ∧
        SameBut [.regs, .staged, .resp, .land, .sent] s t) ∧
  (∀ (s : State) (b : Fin 2), s.up → s.baseState b = 4 → s.wordAt baseWaitKey = 0 →
      ∃ t, exec (.baseRetire b) s = .next t ∧ t.baseState b = 0 ∧ t.fldOf (R.BIN_BASE b) F.BIN_BASE.resident = 0 ∧
        t.fldOf R.BIN_SWAP_STATE F.BIN_SWAP_STATE.phase = 2 ∧ RegsBut [R.BIN_BASE b, R.BIN_SWAP_STATE] s t ∧ SameBut [.regs] s t)

/-! ## Links -/

namespace Sys2Proof.Machine

/-- The lane place whose credits the next flit of a port returns: the first that is owed any. -/
def creditLane (x : PortX) : Nat := ((List.range 9).find? (fun i => decide (0 < x.owed.getD i 0))).getD 0

/-- The credits the next flit of a port returns. -/
def creditNow (x : PortX) : Nat := min 4095 (x.owed.getD (creditLane x) 0)

/-- The flit a port puts on its link: it tells the next number expected of the peer, and the credits owed (R323). -/
def flitFrom (x : PortX) (kind seq : Nat) (nak : Bool) (f : TxFlit) : List Byte :=
  mkFlit kind seq x.rxNext nak (creditLane x) (creditNow x) f

/-- A port that has put a flit on its link. -/
def flitGone (x : PortX) : PortX :=
  { x.slots 1 with
    owed := laneSub x.owed (creditLane x) (creditNow x)
    told := x.rxNext }

/-- The replay buffer of a port has been sent again, oldest first, each flit with its own number (R324), and is one replay nearer
the limit. -/
def Replayed (s t : State) (k : Nat) : Prop :=
  (t.port k).replay = (s.port k).replay.map (fun e => { e with sentAt := s.now }) ∧ (t.port k).retries = (s.port k).retries + 1 ∧
    (∃ l, t.sent = s.sent ++ l ∧ List.Forall₂ (fun o (e : SentFlit) =>
      ∃ i n, o = Out.flit k (mkFlit 0 e.seq (s.port k).rxNext false i n e.flit)) l (s.port k).replay) ∧
    (∀ j, j ≠ k → t.port j = s.port j) ∧ SameBut [.regs, .ports, .sent] s t

/-- What ends a training that has passed: ring traffic that all ports FAILED held back goes out, and the port sends. -/
def upAgain (s : State) (k : Nat) : Act Unit := do
  if k < 8 then
    if !(s.port 12).held.isEmpty then
      Act.upd (.port 12 {})
      for h in (s.port 12).held do sendPacket h.part k 0 h.bytes
  pump k
  milestonesCheck

end Sys2Proof.Machine

/-- PORT_ENABLE, LINK_TRAIN_PASS, LINK_TRAIN_TIMEOUT and LINK_DELAY_MEASURE (R325, R327, R349, R477): an accepted enable
brings a port that is DOWN into TRAINING, a cleared one takes it DOWN with its buffers empty and its queued packets gone; a
port that passes training is UP with the peer's credits and numbers from 0, and has told its own, or, after a RETRAIN, with
its replay buffer sent again from the oldest; one that does not within 100 ms is FAILED; the one-way delay comes from four
timestamps. Where the model chooses, it rests on assumptions 28, 134, 159 and 160. -/
def Obligations.LinksComeUp : Prop :=
  (∀ (s : State) (core : CoreId) (k : PortId) (on : Bool), (on = true → 8 ≤ k.val → s.strapsBad = false) →
    Admits s core (R.PORT_CTRL k) (putFld (s.reg (R.PORT_CTRL k)) F.PORT_CTRL.enable (b2n on)) →
      ∃ t, exec (.portEnable core k on) s = .next t ∧ t.resp = { reason := 0, data := 0 } ∧
        t.fldOf (R.PORT_CTRL k) F.PORT_CTRL.enable = b2n on ∧
        t.portState k = (if on then (if s.portState k = 0 then 1 else s.portState k) else 0) ∧
        (on = true → s.portState k = 0 → t.port k = { s.port k with since := s.now }) ∧
        (on = false → ∃ q, t.port k = { txq := q, nextPkt := (s.port k).nextPkt } ∧ ∀ f ∈ q, f.src.isSome = true) ∧
        (on = false → ∀ j, 8 ≤ j → j < 12 → ∀ f ∈ (t.port j).txq, f.src ≠ some k.val) ∧
        RegsBut [R.PORT_CTRL k, R.PORT_STATUS k] s t ∧ SameBut [.regs, .ports, .resp, .land, .sent] s t) ∧
  (∀ (s : State) (k : PortId) (alloc : Word), s.up → s.portState k = 1 →
      ∃ u, exec (.linkTrainPass k alloc) s = .next (Act.run (upAgain s k) u) ∧ u.portState k = 2 ∧
        u.fldOf (R.PORT_STATUS k) F.PORT_STATUS.width = s.workingWidth k ∧
        u.port k = { s.port k with
          credit := creditOf alloc
          alloc := creditOf alloc
          inUse := []
          txSeq := 0
          replay := []
          rxNext := 0
          naked := false
          retries := 0
          owed := []
          rxq := []
          told := 0
          drrLane := 1
          drrLeft := 0 } ∧ u.sent = s.sent ++ [.linkAlloc k (s.reg (R.VL_CREDIT k))] ∧ RegsBut [R.PORT_STATUS k] s u ∧
        SameBut [.regs, .ports, .sent] s u) ∧
  (∀ (s : State) (k : PortId) (alloc : Word), s.up → s.portState k = 3 →
      ∃ u v, exec (.linkTrainPass k alloc) s = .next (Act.run (upAgain s k) v) ∧ u.portState k = 2 ∧
        RegsBut [R.PORT_STATUS k] s u ∧ (∀ j, j ≠ k.val → u.port j = s.port j) ∧
        u.port k = { s.port k with retries := 0 } ∧ SameBut [.regs, .ports] s u ∧ v = Act.run (sendReplay k) u) ∧
  (∀ (s : State) (k : PortId), s.up →
    (s.portState k = 1 ∧ (s.port k).since + 100000000 ≤ s.now ∨ s.portState k = 3) →
      ∃ u, u.portState k = 4 ∧ u.reg (portPage k + 0x40) = BitVec.ofNat 64 (orBit (s.reg (portPage k + 0x40)).toNat 32) ∧
        RegsBut [R.PORT_STATUS k, portPage k + 0x40] s u ∧ SameBut [.regs] s u ∧
        exec (.linkTrainTimeout k) s = .next (Act.run (portLost k) u)) ∧
  (∀ (s : State) (k : PortId) (t1 t2 t3 t4 : BitVec 64), s.up → s.portState k = 2 →
      ∃ t, exec (.linkDelayMeasure k t1 t2 t3 t4) s = .next t ∧
        t.fldOf (R.LINK_DELAY k) F.LINK_DELAY.delay =
          wrapI 32 ((((t4.toNat : Int) - t1.toNat) - ((t3.toNat : Int) - t2.toNat)) / 2) ∧
        RegsBut [R.LINK_DELAY k] s t ∧ SameBut [.regs] s t)

/-- LINK_FLIT_RX, LINK_NAK, LINK_REPLAY_TIMEOUT and TRANSIT_FLIT (R323, R324, R327, R336): a flit that is sent reads as it was
built; a good data flit with the expected number is taken into the receive buffer, what it acknowledges leaves the replay
buffer, and its credits are added; a bad one is answered with a nak, once; a nak acknowledges the flits before the one it
names and the rest are sent again, as all are once the oldest has waited replay_timeout, and at the limit the link
retrains; a flit for another package joins the queue of the next link of its path. -/
def Sys2Proof.Machine.FlitsInOrder : Prop :=
  (∀ (kind seq ack i n : Nat) (nak : Bool) (f : TxFlit), kind < 4 → seq < 4096 → ack < 4096 → i < 9 → n < 4096 → f.vl < 8 →
    f.payload.length = 240 → (f.cmd = true → f.vl = 0) →
      flGood (mkFlit kind seq ack nak i n f) = true ∧ flKind (mkFlit kind seq ack nak i n f) = kind ∧
        flSeq (mkFlit kind seq ack nak i n f) = seq ∧ flAckValid (mkFlit kind seq ack nak i n f) = true ∧
        flAck (mkFlit kind seq ack nak i n f) = ack ∧ flNak (mkFlit kind seq ack nak i n f) = nak ∧
        laneIx (flCreditVl (mkFlit kind seq ack nak i n f)) (flCreditClass (mkFlit kind seq ack nak i n f) = 0) = i ∧
        flCredits (mkFlit kind seq ack nak i n f) = n ∧
        rxFlit (mkFlit kind seq ack nak i n f) = { vl := f.vl, cmd := f.cmd, sop := f.sop, eop := f.eop, payload := f.payload }) ∧
  (∀ (s : State) (k : PortId) (l : List Byte) (rest : List SentFlit), s.up → (s.portState k = 2 ∨ s.portState k = 3) →
    flGood l = true → flKind l = 0 → flSeq l = (s.port k).rxNext → s.rxRoom k (rxFlit l).lane = true →
    rest = (if flAckValid l then (s.port k).replay.dropWhile (fun e => ackCovers (flAck l) e.seq) else (s.port k).replay) →
      ∃ u, exec (.linkFlitRx k l false) s = .next (Act.run (linkEvent k (do
          let failed ← (if flNak l && flAckValid l then replayNow k else pure false)
          pump k
          return failed)) u) ∧ SameBut [.ports] s u ∧ (∀ j, j ≠ k.val → u.port j = s.port j) ∧
        u.port k = { s.port k with
          replay := rest
          retries := if rest.length < (s.port k).replay.length then 0 else (s.port k).retries
          credit := laneAdd (s.port k).credit (laneIx (flCreditVl l) (flCreditClass l = 0)) (flCredits l)
          inUse := freeUses (laneIx (flCreditVl l) (flCreditClass l = 0)) (flCredits l) (s.port k).inUse
          rxNext := ((s.port k).rxNext + 1) % 4096
          naked := false
          rxq := (s.port k).rxq ++ [rxFlit l] }) ∧
  (∀ (s : State) (k : PortId) (l : List Byte) (bad : Bool), s.up → (s.portState k = 2 ∨ s.portState k = 3) →
    (bad = true ∨ flGood l = false) →
      ∃ t, exec (.linkFlitRx k l bad) s = .next t ∧ (∀ j, j ≠ k.val → t.port j = s.port j) ∧
        (if (s.port k).naked then t.port k = s.port k ∧ t.sent = s.sent
          else t.port k = flitGone { s.port k with naked := true } ∧
            t.sent = s.sent ++ [.flit k (flitFrom (s.port k) 1 0 true (bareFlit []))]) ∧ SameBut [.regs, .ports, .sent] s t) ∧
  (∀ (s u : State) (k : PortId) (ack : BitVec 12) (rest : List SentFlit), s.up → s.portState k = 2 →
    rest = (s.port k).replay.dropWhile (fun e => ackCovers ack.toNat e.seq) →
    u = (if rest.length < (s.port k).replay.length then (Upd.port k { s.port k with replay := rest, retries := 0 }).apply s else s) →
      (rest = [] → exec (.linkNak k ack) s = .next u) ∧
      (rest ≠ [] → (u.port k).retries + 1 < s.fldOf (R.PORT_CTRL k) F.PORT_CTRL.retry_limit →
        ∃ t, exec (.linkNak k ack) s = .next t ∧ Replayed u t k) ∧
      (rest ≠ [] → s.fldOf (R.PORT_CTRL k) F.PORT_CTRL.retry_limit ≤ (u.port k).retries + 1 →
        exec (.linkNak k ack) s = .next (Act.run (linkEvent k (do sendReplay k; enterRetrain k)) u))) ∧
  (∀ (s : State) (k : PortId) (e : SentFlit), s.up → s.portState k = 2 → (s.port k).replay.head? = some e →
    e.sentAt + s.fldOf (R.PORT_CTRL k) F.PORT_CTRL.replay_timeout ≤ s.now →
      ((s.port k).retries + 1 < s.fldOf (R.PORT_CTRL k) F.PORT_CTRL.retry_limit →
        ∃ t, exec (.linkReplayTimeout k) s = .next t ∧ Replayed s t k) ∧
      (s.fldOf (R.PORT_CTRL k) F.PORT_CTRL.retry_limit ≤ (s.port k).retries + 1 →
        exec (.linkReplayTimeout k) s = .next (Act.run (linkEvent k (do sendReplay k; enterRetrain k)) s))) ∧
  (∀ (s : State) (link : Fin 4) (sop eop : Bool) (payload : List Byte) (k : Nat) (o : Nat × Nat), s.up → k = 8 + link.val →
    (s.portState k = 2 ∨ s.portState k = 3) →
    (sop = true ∧ pkDst payload ≠ s.ownFabric ∧ (∃ pos, s.posOfFabric (pkDst payload) = some pos ∧
        o = (boardLink s.boardPos pos, (s.port (boardLink s.boardPos pos)).nextPkt)) ∨
      sop = false ∧ (s.port k).transit = some o) →
      exec (.transitFlit link sop eop payload) s = .next (Act.run (do
        Act.upd (.port k { s.port k with
          transit := if eop then none else some o
          rxq := (s.port k).rxq.eraseP (fun f => f.lane = 6) })
        modPort o.1 (fun y => { y with
          txq := y.txq ++ [{ vl := 5, cmd := false, sop := sop, eop := eop, payload := payload, pkt := o.2, src := some k }]
          nextPkt := if sop then y.nextPkt + 1 else y.nextPkt })
        pump o.1) s))

/-- LANE_FAIL, LINK_MANAGEMENT_REQUEST and SPARE_SWAP_DONE (R346 to R348): a lane of a port that is UP and may use its spare is
marked failed and asked to be swapped; without one the port falls back; a failed spare that is not in use is marked so; a
peer's request is agreed where the spare is idle and refused where it is not; a swap done puts the spare in the lane's
place. -/
def Sys2Proof.Machine.LanesSwap : Prop :=
  (∀ (s : State) (k : PortId) (lane : Fin 9), s.up → s.portState k = 2 → (k.val < 8 → lane.val < 4 ∨ lane.val = 8) →
    (lane.val ≠ 8 → s.fldOf (R.PORT_CTRL k) F.PORT_CTRL.spare_auto = 1 → s.spareIdle k = true →
      ∃ t, exec (.laneFail k lane) s = .next t ∧ bit (t.fldOf (R.PORT_STATUS k) F.PORT_STATUS.failed_lanes) lane = true ∧
        t.port k = flitGone { s.port k with swap := some lane.val } ∧
        t.sent = s.sent ++ [.linkMsg k 0 lane (flitFrom (s.port k) 2 0 false (bareFlit (Config.linkPayload 0 lane)))] ∧
        t.portState k = 2 ∧ RegsBut [R.PORT_STATUS k] s t ∧ SameBut [.regs, .ports, .sent] s t) ∧
    (lane.val ≠ 8 → (s.fldOf (R.PORT_CTRL k) F.PORT_CTRL.spare_auto ≠ 1 ∨ s.spareIdle k = false) →
      ∃ u, exec (.laneFail k lane) s = .next (Act.run (linkEvent k (fallBack k)) u) ∧
        bit (u.fldOf (R.PORT_STATUS k) F.PORT_STATUS.failed_lanes) lane = true ∧ RegsBut [R.PORT_STATUS k] s u ∧
        SameBut [.regs] s u) ∧
    (lane.val = 8 → s.spareState k ≠ 1 → s.spareState k ≠ 2 →
      ∃ t, exec (.laneFail k lane) s = .next t ∧ bit (t.fldOf (R.PORT_STATUS k) F.PORT_STATUS.failed_lanes) 8 = true ∧
        t.spareState k = 3 ∧ t.portState k = 2 ∧ SameBut [.regs] s t)) ∧
  (∀ (s : State) (k : PortId) (lane : Fin 9), s.up →
      ∃ t, exec (.linkManagementRequest k lane) s = .next t ∧ (∀ j, j ≠ k.val → t.port j = s.port j) ∧
        (if s.portState k = 2 ∧ s.spareIdle k = true ∧ (8 ≤ k.val ∨ lane.val < 4) ∧ lane.val ≠ 8 then
            t.port k = flitGone { s.port k with swap := some lane.val } ∧
            t.sent = s.sent ++ [.linkMsg k 1 lane (flitFrom (s.port k) 2 0 false (bareFlit (Config.linkPayload 1 lane)))]
          else t.port k = flitGone (s.port k) ∧
            t.sent = s.sent ++ [.linkMsg k 2 lane (flitFrom (s.port k) 2 0 false (bareFlit (Config.linkPayload 2 lane)))]) ∧
        SameBut [.ports, .sent] s t) ∧
  (∀ (s : State) (k : PortId) (lane : Nat), s.up → (s.port k).swap = some lane → lane < 8 →
      ∃ t, exec (.spareSwapDone k) s = .next t ∧ t.port k = { s.port k with swap := none } ∧ t.spareState k = 2 ∧
        t.fldOf (R.PORT_STATUS k) F.PORT_STATUS.spare_for = lane ∧ t.portState k = s.portState k ∧ SameBut [.regs, .ports] s t)

/-! ## Fabric commands, remote copies, the board, the mirror -/

/-- The quench of a partition is over: nothing of it is left, and the time it took counts for no timeout of the partition's open
collectives (R343, R367). -/
def Sys2Proof.Machine.QuenchEnds (s u : State) (p : Nat) : Prop :=
  u.quenched p = false ∧ (u.part p).quenchEnd = none ∧ u.col = { s.col with
    cols := s.col.cols.map (fun c => if c.part = p then
      { c with paused := c.paused + min (s.now - (s.part p).quenchAt) (s.now - c.launched) } else c) } ∧
    RegsBut [R.FAB_QUENCHED] s u ∧ SameBut [.regs, .parts, .col] s u

/-- QUENCH, UNQUENCH, DRAIN, PSTOP, QUENCH_EXPIRE and QUENCH_CLEAR (R342, R343): a command with a number past the last one,
for one partition, is numbered, acted on and interrupts the hayward; QUENCH sets the partition's quench, to end after its
duration, DRAIN clears admit_enable and sets drain, PSTOP does both without an end; UNQUENCH, the end of the duration and a
write of FAB_QUENCH_CLEAR end the quench, unless the partition is being stopped, and what was held goes on. Where the model
chooses, it rests on assumptions 18, 19 and 28. -/
def Obligations.FabricCommands : Prop :=
  (∀ (s u : State) (r : RxPacket) (p : PartId) (type : Nat) (c : Instr) (b : List Byte),
    (type, c) ∈ [(0x11, Instr.quench r), (0x12, .unquench r), (0x13, .drain r), (0x14, .pstop r)] → Receives s r type none →
    u = received s r → b = pkBody r.bytes → (u.reg R.FAB_CMD_SEQ).toNat < cmdSeq b → u.cmdParts type (cmdTarget b) = [p.val] →
      exec c s = .next (Act.run (do
        wrR R.FAB_CMD_SEQ (BitVec.ofNat 64 (cmdSeq b))
        commandOn type (cmdDuration b) p
        count (C.CMD_RX r.port) 1
        setIrq (pageBase .fab 0) 35) u)) ∧
  (∀ (s t : State) (p : PartId) (d type : Nat), (type = 0x11 ∨ type = 0x13 ∨ type = 0x14) → t = Act.run (commandOn type d p) s →
      (type ≠ 0x13 → t.quenched p = true ∧
        (t.part p).quenchEnd = (if type = 0x14 ∨ d = 0 then none else some (s.now + d * 1000))) ∧
      (type ≠ 0x11 → t.fldOf (R.REQ_PART_CTRL p) F.REQ_PART_CTRL.admit_enable = 0 ∧
        t.fldOf (R.REQ_PART_CTRL p) F.REQ_PART_CTRL.drain = 1) ∧
      RegsBut [R.FAB_QUENCHED, R.REQ_PART_CTRL p] s t ∧ SameBut [.regs, .parts] s t) ∧
  (∀ (s : State) (p : PartId) (at_ : Nat), s.up → (s.part p).quenchEnd = some at_ → at_ ≤ s.now → s.quenched p = true →
    s.fldOf (R.PRT_CTRL p) F.PRT_CTRL.stop = 0 →
      ∃ u, exec (.quenchExpire p) s = .next (Act.run (do for k in List.range 12 do releaseHeld p k) u) ∧ QuenchEnds s u p) ∧
  (∀ (s : State) (core : CoreId) (p : PartId), Admits s core R.FAB_QUENCH_CLEAR (BitVec.ofNat 64 (2 ^ p.val)) →
    s.quenched p = true → s.fldOf (R.PRT_CTRL p) F.PRT_CTRL.stop = 0 →
      ∃ u t, exec (.quenchClear core (BitVec.ofNat 32 (2 ^ p.val))) s = .next t ∧ QuenchEnds s u p ∧
        Served (do for k in List.range 12 do releaseHeld p k) u t)

/-- PUT, PUT_END, PUT_DONE and PUT_TIMEOUT (R334): a packet of a new tag is written into its partition and tracked; the end of
an entry whose packets are all in is answered written, of one with packets missing resend, of one refused refused; the
answer makes the sender write its signal, send the entry again or report the error, as does waiting too long. -/
def Sys2Proof.Machine.RemoteCopies : Prop :=
  (∀ (s u v : State) (r : RxPacket) (p : Nat) (refused : Bool), s.windowed = [] → Receives s r 0x20 (some p) → u = received s r →
    u.fab.takes.any (fun x => x.src = pkSrc r.bytes && x.part = p && x.tag = pkArg1 r.bytes / 65536) = false →
    u.fab.takes.length < 1024 → Runs (placeWrite r.port p (pkArg0 r.bytes) (pkBody r.bytes)) u refused v →
      exec (.put r) s = .next ((Upd.fab { u.fab with
        takes := u.fab.takes ++ [{ src := pkSrc r.bytes, part := p, tag := pkArg1 r.bytes / 65536, got := [pkArg1 r.bytes % 65536]
                                   refused := refused }] }).apply v)) ∧
  (∀ (s u : State) (r : RxPacket) (p tag n : Nat) (x : PutIn), s.windowed = [] → Receives s r 0x21 (some p) →
    u = received s r → tag = pkArg1 r.bytes / 65536 →
    n = (if pkArg1 r.bytes % 65536 = 0 ∧ x.got ≠ [] then 65536 else pkArg1 r.bytes % 65536) →
    u.fab.takes.find? (fun x => x.src = pkSrc r.bytes && x.part = p && x.tag = tag) = some x →
    ∀ gone, gone = (Upd.fab { u.fab with
      takes := u.fab.takes.filter (fun y => !(y.src = pkSrc r.bytes && y.part = p && y.tag = tag)) }).apply u →
      (x.refused = true → exec (.putEnd r) s = .next (Act.run (replyTo r p 0x22 0 (tag * 65536 + 2) []) gone)) ∧
      (x.refused = false → (x.got.filter (fun i => decide (i < n))).length < n →
        exec (.putEnd r) s = .next (Act.run (replyTo r p 0x22 0 (tag * 65536 + 1) []) u)) ∧
      (x.refused = false → n ≤ (x.got.filter (fun i => decide (i < n))).length → pkArg0 r.bytes = 0 →
        exec (.putEnd r) s = .next (Act.run (replyTo r p 0x22 0 (tag * 65536) []) gone)) ∧
      (x.refused = false → n ≤ (x.got.filter (fun i => decide (i < n))).length → pkArg0 r.bytes ≠ 0 → ∀ bad v,
        Runs (placeWrite r.port p (pkArg0 r.bytes) (bytesAt (pkBody r.bytes) 0 8)) gone bad v →
        exec (.putEnd r) s = .next (Act.run (replyTo r p 0x22 0 (tag * 65536 + (if bad then 2 else 0)) []) v))) ∧
  (∀ (s u : State) (r : RxPacket) (p : Nat) (x : PutOut), s.windowed = [] → Receives s r 0x22 (some p) → u = received s r →
    u.fab.puts.find? (fun x => x.tag = pkArg1 r.bytes / 65536 && x.part = p && x.dst = pkSrc r.bytes) = some x →
      (pkArg1 r.bytes % 4 = 1 → exec (.putDone r) s = .next (Act.run (putAgain x) u)) ∧
      ((pkArg1 r.bytes % 4 = 0 ∨ pkArg1 r.bytes % 4 = 2) → x.sig = none → exec (.putDone r) s = .next ((Upd.fab { u.fab with
        puts := u.fab.puts.filter (fun z => z.tag ≠ x.tag) }).apply u)) ∧
      (∀ a, (pkArg1 r.bytes % 4 = 0 ∨ pkArg1 r.bytes % 4 = 2) → x.sig = some a → exec (.putDone r) s = .next (Act.run
        (signalWord x.hub x.part a (pkArg1 r.bytes % 4) x.value)
        ((Upd.fab { u.fab with puts := u.fab.puts.filter (fun z => z.tag ≠ x.tag) }).apply u)))) ∧
  (∀ (s : State) (tag : Nat) (x : PutOut), s.up → s.fab.puts.find? (fun x => x.tag = tag) = some x →
    x.sentAt + s.fldOf R.FAB_PUT_CFG F.FAB_PUT_CFG.put_timeout_us * 1000 ≤ s.now → x.tries < 3 →
      exec (.putTimeout tag) s = .next (Act.run (do
        Act.upd (.fab { s.fab with
          puts := s.fab.puts.map (fun z => if z.tag = x.tag then { z with tries := z.tries + 1, sentAt := s.now } else z) })
        count (C.PUT_RESEND (s.viaPort x.via)) 1
        for k in x.pkts do putSend x.part x.via x.vl k) s))

/-- BOARD_LOAD, BOARD_STORE, BLD, BST and BRSP (R331, R339, R340): a core's access to its own window that nothing refuses is
made; one to another package waits for its answer and goes out as a BLD or BST; a received one that nothing refuses is made
and answered with its data, one that is refused is answered with the reason, and logged if plaintext weights were to blame;
an answer completes its access. Where the model chooses, it rests on assumptions 79 and 173. -/
def Obligations.BoardAccesses : Prop :=
  (∀ (s : State) (core : CoreId) (addr : BitVec 64) (size : Nat) (write : Bool) (v : Word) (c : Instr) (p : Nat),
    (write, c) ∈ [(false, Instr.boardLoad core addr size false), (true, .boardStore core addr size false v)] → s.clear →
    (s.coreIssuer core).part = some p → s.boardMode p = true → boardWidthOk addr.toNat size = true →
      (∀ u bs, boardWindow addr.toNat = s.boardPos → s.boardRefusal (some p) addr.toNat size write = none →
        Runs (boardDo core p addr.toNat size write (leBytes size v.toNat)) s (.ok bs) u →
        exec c s = .next (if write then u else (Upd.send (.data core bs)).apply u)) ∧
      (∀ pos dst, pos = boardWindow addr.toNat → pos ≠ s.boardPos → s.fldOf (R.BMS_POS pos) F.BMS_POS.valid = 1 →
        dst = s.fldOf (R.BMS_POS pos) F.BMS_POS.fabric → boardPlace addr.toNat ≠ none →
        exec c s = .next (Act.run (sendBoard p 2 pos dst (if write then 0x29 else 0x28) addr.toNat size
          (if write then leBytes size v.toNat else []))
          ((Upd.fab { s.fab with
            board := s.fab.board ++ [{ core := core, part := p, dst := dst, page := portPage (boardLink s.boardPos pos)
                                       addr := addr.toNat, write := write }] }).apply s)))) ∧
  (∀ (s u : State) (r : RxPacket) (write : Bool) (type size : Nat) (c : Instr) (part : Option Nat),
    (write, type, c) ∈ [(false, 0x28, Instr.bld r), (true, 0x29, .bst r)] → s.clear → (s.portState r.port = 2 ∨ s.portState r.port = 3) →
    pkGood r.bytes = true → pkDst r.bytes = s.ownFabric → pkType r.bytes = type → u = received s r →
    part = s.partOfKey (pkKey r.bytes) → size = pkArg1 r.bytes % 16 →
      (∀ e, s.boardRefusal part (pkArg0 r.bytes) size write = some e → exec c s = .next (Act.run (do
        if s.boardShut part (pkArg0 r.bytes) size write then
          vlog 1 (pkArg0 r.bytes) (errInfo { source := portSrc r.port, hay := false, part := part } (if write then 2 else 1) e)
        boardReply r part e []) u)) ∧
      (∀ v bs, s.boardRefusal part (pkArg0 r.bytes) size write = none →
        Runs (boardDo (portSrc r.port) (part.getD 0) (pkArg0 r.bytes) size write (bytesAt (pkBody r.bytes) 0 size)) u (.ok bs) v →
        exec c s = .next (Act.run (boardReply r part 0 bs) v))) ∧
  (∀ (s u : State) (r : RxPacket) (q : Option Nat) (x : BoardReq), Receives s r 0x2A q → u = received s r →
    u.fab.board.find? (fun x => x.dst = pkSrc r.bytes && some x.part = q) = some x → pkArg1 r.bytes % 256 = 0 →
      ∃ t, exec (.brsp r) s = .next t ∧ t.fab = { u.fab with board := u.fab.board.erase x } ∧
        t.sent = (if x.write then u.sent else u.sent ++ [.data x.core (pkBody r.bytes)]) ∧ SameBut [.fab, .sent] u t)

/-- MIRROR and UNDEFINED_PACKET_DISCARD (R331, R441): journal bytes that fit the sender's mirror region are written there, and a
run of whole entries that grew is confirmed; bytes of no region are counted and dropped; a packet that fails its checks is
taken from the buffer, counted, and written to the violation log if its key is to blame; one in transit goes on. -/
def Sys2Proof.Machine.MirrorsAndDiscards : Prop :=
  (∀ (s u : State) (r : RxPacket) (p : Nat), s.windowed = [] → Receives s r 0x30 (some p) → u = received s r →
      (u.mirrorEntry p (pkSrc r.bytes) = none → exec (.mirror r) s = .next (Act.run (count (C.KEY_DROP r.port) 1) u)) ∧
      (∀ w, u.mirrorEntry p (pkSrc r.bytes) = some w →
        2 ^ getFld w F.PRT_MIRROR.log_size < pkArg0 r.bytes % 2 ^ 48 + (pkBody r.bytes).length →
        exec (.mirror r) s = .next (Act.run (count (C.KEY_DROP r.port) 1) u)) ∧
      (∀ v w at_ pos base size m seq pos', u.mirrorEntry p (pkSrc r.bytes) = some w → size = 2 ^ getFld w F.PRT_MIRROR.log_size →
        base = getFld w F.PRT_MIRROR.base * 65536 → pkArg0 r.bytes % 2 ^ 48 + (pkBody r.bytes).length ≤ size →
        m = mirrorKey p (pkSrc r.bytes) →
        Runs (do
          let _ ← gWrite (portSrc r.port) p (base + pkArg0 r.bytes % 2 ^ 48) (pkBody r.bytes)
          count (C.PRT_CNT_MIRROR_BYTES p) (pkBody r.bytes).length
          let a ← ldW m
          let b ← ldW (m + 2 ^ 20)
          engNotes p ((jPieces size 34 b (List.replicate 32 0)).map (fun x => (1, base + x.1, x.2.length)))
          pure (a, b)) u (at_, pos) v →
        (seq, pos') = v.mirrorScan p base size 4096 (v.mirrorFrom p base size at_ pos).1 (v.mirrorFrom p base size at_ pos).2 →
        exec (.mirror r) s = .next (Act.run (do
          if seq ≠ at_ then
            stW m seq
            stW (m + 2 ^ 20) (pos' % size)
            let _ ← sendAuto p 3 (pkSrc r.bytes) 0x31 seq 0 []) v))) ∧
  (∀ (s : State) (r : RxPacket) (c : PktCheck), s.up → (s.portState r.port = 2 ∨ s.portState r.port = 3) → s.checkPacket r = c →
    (∀ q, c ≠ .ok q) → exec (.undefinedPacketDiscard r) s = .next
      (if c = .transit then Act.run (sendOn r) s else Act.run (dropPacket r c) (received s r)))

/-! ## Collectives -/

/-- ALLREDUCE, REDUCE_SCATTER, ALLGATHER, BROADCAST and COL_READY (R355 to R358): the entry at the front of a partition's queue,
due, of its operation, good, mapped and of no open group and sequence number, launches: it is open, COL_OPEN goes to its
planes and, unless it waits for its ready word, its inputs go out; they go out once the word has its value. -/
def Sys2Proof.Machine.CollectivesLaunch : Prop :=
  (∀ (s : State) (p : PartId) (op i : Nat) (c : Instr) (e : List Byte) (x : ColE),
    (op, c) ∈ [(1, Instr.allreduce p), (2, .reduceScatter p), (3, .allgather p), (4, .broadcast p)] → s.clear →
    s.colDue p = some (i, e) → ceOp e = op → s.quenched p = false → ceGood e = true → s.ceMapped p e = true →
    s.col.cols.any (fun d => ceGroup d.entry = ceGroup e && ceSeq d.entry = ceSeq e) = false → s.col.cols.length < 256 →
    (∀ k ∈ cePlanes e, s.portState k ≠ 4) → x = { part := p, idx := i, entry := e, launched := s.now } →
      ∃ u, u.col = { s.col with cols := s.col.cols ++ [x] } ∧ u.clqStarted p = (i + 1) % 2 ^ 32 ∧ SameBut [.regs, .col] s u ∧
        exec c s = .next (Act.run (do
          colToPlanes p e 0x40 (colOpenBody e)
          if !ceWait e then colInputs x) u)) ∧
  (∀ (s : State) (p : PartId) (i page off : Nat) (c : ColE), s.clear → s.col.cols.find? (fun c => c.part = p.val && c.idx = i) = some c →
    ceWait c.entry = true → c.ready = none → s.quenched p = false →
    s.tilePlace p (bits (ceReadyAt c.entry) 31 22 * 2 ^ 22 + bits (ceReadyAt c.entry) 18 0 * 8) 8 = .ok (page, off) →
    ceReadyVal c.entry ≤ s.memNum (tileKey page off) 8 →
      exec (.colReady p i) s = .next (Act.run (colInputs c) s))

/-- COL_OUT, COL_RESEND, COL_DONE, COL_TIMEOUT and COL_ABORT (R362, R367, R369): a packet of a result chunk that is not complete
is written and remembered; an input chunk asked for is read and sent again; a plane's DONE is kept, and the collective
settled, while other planes are awaited nothing more; a collective without record in time ends TIMEOUT; an abort
ends the partition's open collectives and its queued entries ABORTED. -/
def Sys2Proof.Machine.CollectivesEnd : Prop :=
  (∀ (s u v : State) (r : RxPacket) (p k i : Nat) (o : Option Nat) (c : ColE), s.windowed = [] → Receives s r 0x42 (some p) → u = received s r →
    u.colOf p r.bytes = some c → k = pkArg0 r.bytes % 2 ^ 16 → i = bits (pkArg0 r.bytes) 19 16 →
    (ceExpected c.entry).contains k = true → c.ok.contains k = false → 4096 * i < (cePlace c.entry k).2 →
    c.parts.find? (fun x => x.1 = k) = none → 4096 < (cePlace c.entry k).2 →
    Runs (spWrite (u.colSrc p) p (refSpace (ceDst c.entry)) (refAddr (ceDst c.entry) + (cePlace c.entry k).1 + 4096 * i)
      ((pkBody r.bytes).take ((cePlace c.entry k).2 - 4096 * i))) u o v →
      exec (.colOut r) s = .next (Act.run (putCol { c with
        parts := c.parts.filter (fun x => x.1 ≠ k) ++ [(k, [i], pkArg1 r.bytes)] }) v)) ∧
  (∀ (s u : State) (r : RxPacket) (p k : Nat) (c : ColE), s.windowed = [] → Receives s r 0x44 (some p) → u = received s r →
    u.colOf p r.bytes = some c → k = numAt (pkBody r.bytes) 0 4 → ceSends c.entry = true → k < ceChunks c.entry →
    c.sent.isSome = true →
      exec (.colResend r) s = .next (Act.run (do
        count (C.COL_CNT_RESEND p) 1
        colSendChunk p c.entry k) u)) ∧
  (∀ (s u : State) (r : RxPacket) (p k : Nat) (c : ColE) (b : List Byte), s.windowed = [] → Receives s r 0x45 (some p) → u = received s r →
    u.colOf p r.bytes = some c → b = bytesAt (pkBody r.bytes) 0 32 → k = donePlane b → (cePlanes c.entry).contains k = true →
    c.dones.any (fun d => d.1 = k) = false →
    (doneStatus b ≠ 0 ∨ c.dataBad = true ∨ ∀ x ∈ ceExpected c.entry, cePlane c.entry x = k → c.ok.contains x = true) →
      exec (.colDone r) s = .next (Act.run (do
        putCol { c with dones := c.dones ++ [(k, b)] }
        colSettle { c with dones := c.dones ++ [(k, b)] }) u)) ∧
  (∀ (s : State) (p : PartId) (i : Nat) (c : ColE), s.up → s.col.cols.find? (fun c => c.part = p.val && c.idx = i) = some c →
    s.quenched p = false → c.launched + c.paused + s.fldOf (R.PRT_COL_CTRL p) F.PRT_COL_CTRL.col_timeout_us * 1000 ≤ s.now →
      exec (.colTimeout p i) s = .next (Act.run (colEnd c 2 0 true) s)) ∧
  (∀ (s : State) (core : CoreId) (p : PartId), Admits s core (R.PRT_COL_ABORT p) 1 →
      ∃ t, exec (.colAbort core p) s = .next t ∧ Served (do
        for c in s.col.cols do
          if c.part = p then colEnd c 3 0 true
        colQueuedEnd p true 256) s t)

/-! ## Trust -/

/-- HAY_CALL_ACT, HAY_CALL_EXTEND, HAY_CALL_REPORT, CORE_MEMORY_ACCESS and PARTITION_STOP (R378, R379, R384): a pending call
is served: ACT sets the core's acting partition if its mask allows it, EXTEND extends a measurement register M8 to M15 with
the digest it reads, REPORT writes a kind 1 report; each writes its status and frees the mailbox. A core's access to memory
that the checks of its acting partition pass is made, one they refuse faults the core. While ticks run, a stop of a RUNNING
partition takes it to STOPPING with a stop commit. Where the model chooses, it rests on assumptions 70, 95 and 132. -/
def Obligations.CallsAndAccesses : Prop :=
  (∀ (s : State) (p : PartId) (b : List Byte), s.clear → s.sec.calls.contains p.val = true → b = s.memBytes (s.mboxKey p) 64 →
      (numAt b 0 1 = 1 → numAt b 2 1 < 24 → numAt b 8 8 < 32 →
        bit (s.fldOf (R.HAY_CORE (numAt b 2 1)) F.HAY_CORE.allowed) (numAt b 8 8) = true →
        ∃ t, exec (.hayCallAct p) s = .next t ∧ t.fldOf (R.HAY_CORE (numAt b 2 1)) F.HAY_CORE.act = numAt b 8 8 ∧
          t.fldOf (R.HAY_CORE (numAt b 2 1)) F.HAY_CORE.act_valid = 1 ∧ Wrote s t (s.mboxKey p + 1) [0] ∧
          t.sec = { s.sec with calls := s.sec.calls.filter (fun q => q ≠ p.val) } ∧ SameBut [.regs, .mem, .sec] s t) ∧
      (∀ u d, numAt b 0 1 = 2 → 8 ≤ numAt b 8 8 → numAt b 8 8 ≤ 15 →
        Runs (spRead 0 p (refSpace (numAt b 16 8)) (refAddr (numAt b 16 8)) 48) s (.ok d) u →
        ∃ t, exec (.hayCallExtend p) s = .next t ∧
          t.meas (numAt b 8 8) = Config.sha384 (bytes48 (s.meas (numAt b 8 8)) ++ d) ∧
          (∀ i, i ≠ numAt b 8 8 → t.meas i = s.meas i) ∧ Wrote u t (s.mboxKey p + 1) [0] ∧
          t.sec.calls = s.sec.calls.filter (fun q => q ≠ p.val) ∧ SameBut [.regs, .mem, .sec] s t) ∧
      (∀ u v nonce, numAt b 0 1 = 3 → Runs (spRead 0 p (refSpace (numAt b 8 8)) (refAddr (numAt b 8 8)) 32) s (.ok nonce) u →
        Runs (spWrite 0 p (refSpace (numAt b 16 8)) (refAddr (numAt b 16 8)) (u.report 1 nonce (some p) [])) u none v →
        ∃ t, exec (.hayCallReport p) s = .next t ∧ Wrote v t (s.mboxKey p + 1) [0] ∧
          t.sec = { s.sec with calls := s.sec.calls.filter (fun q => q ≠ p.val) } ∧ SameBut [.regs, .mem, .sec] v t)) ∧
  (∀ (s : State) (core : CoreId) (addr : BitVec 64) (size : Nat) (write : Bool) (v : Word) (p sp ad : Nat), s.coreUp core = true → s.windowed = [] →
    pageOf addr.toNat = none → corePlace addr.toNat = some (sp, ad) → (s.coreIssuer core).part = some p →
      (∀ e, s.refReason p sp ad size write = some e → exec (.coreMemoryAccess core addr size write v) s =
        .next (Act.run (coreFault core (s.coreIssuer core) addr.toNat write e) s)) ∧
      (s.refReason p sp ad size write = none → (write = false → s.touchesProtected p sp ad size = false) →
        (∀ bs u, write = false → Runs (spRead core p sp ad size) s (.ok bs) u →
          exec (.coreMemoryAccess core addr size write v) s = .next ((Upd.send (.data core bs)).apply u)) ∧
        (∀ u, write = true → Runs (spWrite core p sp ad (leBytes size v.toNat)) s none u →
          exec (.coreMemoryAccess core addr size write v) s = .next u))) ∧
  (∀ (s : State) (core : CoreId) (p : PartId), Admits s core (R.PRT_CTRL p) (putFld (s.reg (R.PRT_CTRL p)) F.PRT_CTRL.stop 1) →
    s.fldOf (R.PRT_CTRL p) F.PRT_CTRL.stop = 0 → s.fldOf (R.PRT_CTRL p) F.PRT_CTRL.state = 1 → s.run = true →
      ∃ u t, exec (.partitionStop core p) s = .next t ∧ u.fldOf (R.PRT_CTRL p) F.PRT_CTRL.stop = 1 ∧
        u.fldOf (R.PRT_CTRL p) F.PRT_CTRL.state = 2 ∧ u.part p = { s.part p with stopping := true } ∧
        SameBut [.regs, .parts] s u ∧
        Served (if s.phase p = 4 then skip else do
          setPhase p 4
          stopGo p) u t)

/-- FLOOR_COMMIT, OWNER_KEY_INSTALL, OWNER_KEY_REMOVE, SEC_REPORT, PROVISION, CLAIM, LIFECYCLE_RELEASE, DECOMMISSION and DEBUG
(R392, R396, R402): an accepted SEC_CMD with its argument block in hub SRAM raises the floor of a kind to the version that
runs, adds a model-owner key pair with its mask while the table of 64 has room, removes one, or writes a signed report; a
LIFECYCLE record of the kind and signer its state asks for does, if its signatures verify, what R396 says, and gives
result 1 if they do not; whichever space the block is in, the command runs as SEC_CMD then holds it. The bytes of the blocks
are the model's. -/
def Sys2Proof.Machine.SecurityCommands : Prop :=
  ∀ (s : State) (core : CoreId) (arg : BitVec 48), s.pageServes (pageBase .sec 1) = true →
    (∀ (op kind : Nat) (space : Fin 2) (c : Instr), (op, kind, c) ∈ [(1, 0, Instr.floorCommit core space arg),
        (2, 0, .ownerKeyInstall core space arg), (3, 0, .ownerKeyRemove core space arg), (4, 1, .provision core space arg),
        (4, 2, .claim core space arg), (4, 3, .lifecycleRelease core space arg), (4, 4, .decommission core space arg),
        (4, 5, .debug core space arg), (5, 0, .secReport core space arg)] →
      (op = 4 → space = 0 ∧ s.memNum (2 ^ 36 + arg.toNat) 1 = kind ∨
        space = 1 ∧ ∃ p b, s.coreAct core = some p ∧ s.gBytes p arg.toNat 1 = .ok b ∧ leNat b = kind) →
      Admits s core R.SEC_CMD (BitVec.ofNat 64 (op * 2 ^ 56 + space.val * 2 ^ 48 + arg.toNat)) →
      ∃ u t, exec c s = .next t ∧ u.fldOf R.SEC_CMD F.SEC_CMD.op = op ∧ u.fldOf R.SEC_CMD F.SEC_CMD.space = space.val ∧
        u.fldOf R.SEC_CMD F.SEC_CMD.arg = arg.toNat ∧ RegsBut [R.SEC_CMD] s u ∧ SameBut [.regs] s u ∧
        Served (secCommand (s.coreAct core)) u t) ∧
    (arg.toNat + 1 ≤ 2 ^ 26 → Admits s core R.SEC_CMD (BitVec.ofNat 64 (1 * 2 ^ 56 + arg.toNat)) →
      ∀ k, k = s.memNum (2 ^ 36 + arg.toNat) 1 → k ≤ 7 →
      ∃ t, exec (.floorCommit core 0 arg) s = .next t ∧ t.fldOf R.SEC_CMD_STATUS F.SEC_CMD_STATUS.result = 0 ∧
        t.floorOf k = max (s.floorOf k) (s.runningOf k) ∧ (∀ j, j ≠ k → t.floorOf j = s.floorOf j) ∧
        SameBut [.regs, .sec, .resp, .land, .sent] s t) ∧
    (arg.toNat + 1988 ≤ 2 ^ 26 → Admits s core R.SEC_CMD (BitVec.ofNat 64 (2 * 2 ^ 56 + arg.toNat)) → s.sec.ownerKeys.length < 64 →
      ∃ t, exec (.ownerKeyInstall core 0 arg) s = .next t ∧ t.fldOf R.SEC_CMD_STATUS F.SEC_CMD_STATUS.result = 0 ∧
        t.sec = { s.sec with
          ownerKeys := s.sec.ownerKeys ++ [(s.memNum (2 ^ 36 + arg.toNat + 1984) 4, s.memBytes (2 ^ 36 + arg.toNat) 1984)] } ∧
        SameBut [.regs, .sec, .resp, .land, .sent] s t) ∧
    (arg.toNat + 1984 ≤ 2 ^ 26 → Admits s core R.SEC_CMD (BitVec.ofNat 64 (3 * 2 ^ 56 + arg.toNat)) →
      ∀ keys, keys = s.memBytes (2 ^ 36 + arg.toNat) 1984 → s.sec.ownerKeys.any (fun e => e.2 = keys) = true →
      ∃ t, exec (.ownerKeyRemove core 0 arg) s = .next t ∧ t.fldOf R.SEC_CMD_STATUS F.SEC_CMD_STATUS.result = 0 ∧
        t.sec = { s.sec with ownerKeys := s.sec.ownerKeys.filter (fun e => e.2 ≠ keys) } ∧
        SameBut [.regs, .sec, .resp, .land, .sent] s t) ∧
    (arg.toNat + 40 ≤ 2 ^ 26 → Admits s core R.SEC_CMD (BitVec.ofNat 64 (5 * 2 ^ 56 + arg.toNat)) →
      ∀ b, b = s.memBytes (2 ^ 36 + arg.toNat) 40 → refSpace (numAt b 32 8) = 0 → refAddr (numAt b 32 8) + 7617 ≤ 2 ^ 26 →
      ∃ t u, exec (.secReport core 0 arg) s = .next t ∧ t.fldOf R.SEC_CMD_STATUS F.SEC_CMD_STATUS.result = 0 ∧
        RegsBut [R.SEC_CMD] s u ∧ SameBut [.regs] s u ∧
        Wrote s t (2 ^ 36 + refAddr (numAt b 32 8)) (u.report 1 (bytesAt b 0 32) none []) ∧
        SameBut [.regs, .mem, .resp, .land, .sent] s t) ∧
    (arg.toNat + 3501 ≤ 2 ^ 26 → Admits s core R.SEC_CMD (BitVec.ofNat 64 (4 * 2 ^ 56 + arg.toNat)) →
      ∀ b, b = s.memBytes (2 ^ 36 + arg.toNat) 3501 → ∀ (kind st : Nat) (op : Bool) (c : Instr) (x : SecX),
      (kind, op, st, c, x) ∈ [(1, false, 1, Instr.provision core 0 arg, s.sec),
        (2, false, 2, .claim core 0 arg, { s.sec with operator := some (lcDigest b) }),
        (3, true, 1, .lifecycleRelease core 0 arg, { s.sec with operator := none, ownerKeys := [] }),
        (4, lcOperator b, 3, .decommission core 0 arg, { s.sec with helper := false }),
        (5, true, s.lifecycle, .debug core 0 arg, s.sec)] → lcKind b = kind → lcOperator b = op →
      (kind = 1 → s.lifecycle = 0) → (kind = 2 → s.lifecycle = 1) → (kind = 3 → s.lifecycle = 2) →
      (kind = 4 → s.lifecycle = 1 ∨ s.lifecycle = 2) →
      ∃ t, exec c s = .next t ∧ t.fldOf R.SEC_CMD_STATUS F.SEC_CMD_STATUS.result = (if s.lcSigned b then 0 else 1) ∧
        t.lifecycle = (if s.lcSigned b then st else s.lifecycle) ∧ t.sec = (if s.lcSigned b then x else s.sec) ∧
        t.fldOf R.SEC_BOOT_STATUS F.SEC_BOOT_STATUS.debug_open =
          (if kind = 5 ∧ s.lcSigned b = true then 1 else s.fldOf R.SEC_BOOT_STATUS F.SEC_BOOT_STATUS.debug_open) ∧
        SameBut [.regs, .sec, .resp, .land, .sent] s t)

/-- What a record of the management channel brings about (R397, R398): its number becomes the last one, then the action. -/
def Sys2Proof.Machine.recordDone (l : List Byte) (a : Act Unit) : Act Unit := do
  wrR R.SEC_MGMT_SEQ (BitVec.ofNat 64 (mrSeq l))
  a

/-- MGMT_COMMAND, ATTEST_REQ, GRANT, OWNER_KEY and POWER_CAP (R397, R398, R412): a record that is accepted is numbered and acted
on: a command like a fabric command, a report sent, the grant image handed on, owner keys added while the table has room, a cap in range staged or, without ticks, taken; all
but the report are acknowledged. One that is not accepted is written to the violation log, and nothing else happens. The
acknowledgement's bytes are the model's. -/
def Sys2Proof.Machine.ManagementRecords : Prop :=
  ∀ (s u : State) (l : List Byte), s.alive = true → s.mgtUp = true → s.pageServes (pageBase .mgt 0) = true →
    u = Act.run (count C.MGT_CNT_RX_BYTES (s.mgtWire s.mgtIp l.length)) s →
    ∀ bad, bad = Act.run (vlog 2 (mrType l * 2 ^ 16) (errInfo { source := 0x010C, hay := false, part := none } 2 2)) u →
    (∀ cmd : Fin 4, mrType l = 1 → exec (.mgmtCommand cmd l) s = .next (if s.recordOk l then Act.run (recordDone l do
      fabricCommand 0 (0x11 + cmd) (bytesAt (mrBody l) 0 32)
      sendAck (mrSeq l) 0) u else bad)) ∧
    (mrType l = 2 → exec (.attestReq l) s = .next (if s.recordOk l then Act.run (recordDone l do
      sendRecord 3 (← rd (fun t => t.report 1 (bytesAt (mrBody l) 0 32) none []))) u else bad)) ∧
    (mrType l = 4 → exec (.grant l) s = .next (if s.recordOk l then Act.run (recordDone l do
      send (.grant (mrBody l))
      sendAck (mrSeq l) 0) u else bad)) ∧
    (mrType l = 5 → exec (.ownerKey l) s = .next (if s.recordOk l then Act.run (recordDone l do
      if s.sec.ownerKeys.length < 64 then
        Act.upd (.sec { s.sec with
          ownerKeys := s.sec.ownerKeys ++ [(numAt (mrBody l) 1984 4, bytesAt (mrBody l) 0 1984)] })
        sendAck (mrSeq l) 0
      else sendAck (mrSeq l) 3) u else bad)) ∧
    (mrType l = 6 → exec (.powerCap l) s = .next (if s.recordOk l then Act.run (recordDone l do
      let w := numAt (mrBody l) 0 2
      if w < 700 ∨ 2100 < w then sendAck (mrSeq l) 2
      else
        if s.run then
          Act.upd (.stage R.PWR_CAP (some (putFld (s.reg R.PWR_CAP) F.PWR_CAP.cap_w w)))
          wrF (pageBase .pwr 0 + 0x50) F.SCHED_TICK.tick (max 1 (numAt (mrBody l) 2 6))
          wrF (pageBase .pwr 0 + 0x18) F.PAGE_STATUS.staged_pending 1
        else wrR R.PWR_CAP (putFld (s.reg R.PWR_CAP) F.PWR_CAP.cap_w w)
        sendAck (mrSeq l) 0) u else bad))

/-! ## Power, clocks and heat -/

namespace Sys2Proof.Machine

/-- The step a walk takes next in quarter `q`, and its target there (R409). -/
def State.nextStep (s : State) (q : Nat) : Nat := s.pwr.nexts.getD q 0
def State.targetStep (s : State) (q : Nat) : Nat := s.pwr.targets.getD q 0

end Sys2Proof.Machine

/-- VF_STEP, CURB_EDGE and DIVIDER_RELEASE (R409, R410, R414, R415): a walk completes its step in every quarter and takes the next
one toward the targets; a pin level above the one in force engages every divider and chooses anew, a lower one waits; the
first quarter that may be released is. -/
def Sys2Proof.Machine.WalksAndCurbs : Prop :=
  (∀ s : State, s.up → s.fldOf R.PWR_STATUS F.PWR_STATUS.walking = 1 → (∀ q, q < 4 → s.nextStep q ≤ 24) →
      ∃ t, exec .vfStep s = .next t ∧ (∀ q, q < 4 → t.stepQ q = s.nextStep q ∧
          t.nextStep q = stepToward (s.nextStep q) (s.targetStep q) ∧ t.targetStep q = s.targetStep q) ∧
        t.fldOf R.PWR_STATUS F.PWR_STATUS.walking = (if (List.range 4).all (fun q => s.nextStep q = s.targetStep q) then 0 else 1) ∧
        SameBut [.regs, .pwr] s t) ∧
  (∀ (s : State) (level : Fin 4), s.alive = true → level.val ≠ s.pwr.pinLevel → s.pwr.vinLow = false →
      ∃ u, u.pwr = { s.pwr with pinLevel := level } ∧ SameBut [.regs, .pwr] s u ∧
        (s.curbLevel < level.val → exec (.curbEdge level) s = .next (Act.run curbRaised u)) ∧
        (level.val ≤ s.curbLevel → exec (.curbEdge level) s = .next u) ∧
        (∀ q, q < 4 → (Act.run curbRaised u).isDivided q = true) ∧ (Act.run curbRaised u).curbLevel = level) ∧
  (∀ (s : State) (q : Nat), s.up → (List.range 4).find? (fun q => s.mayRelease q) = some q →
      ∃ t, exec .dividerRelease s = .next t ∧ t.isDivided q = false ∧ (∀ j, j < 4 → j ≠ q → t.isDivided j = s.isDivided j) ∧
        t.fldOf (R.PWR_THERM_Q q) F.PWR_THERM_Q.throttled = 0 ∧ RegsBut [R.PWR_STATUS, R.PWR_THERM_Q q] s t ∧ SameBut [.regs] s t)

/-- CAP_GUARD, STAGE_FAIL, VIN_LOW, VIN_RECOVER and VIN_LOSS (R406, R407, R412): an average more than 2 % over a cap a
millisecond old engages every divider until a tick edge, or shows cap_unmet at step 0; the third failed stage of a CORE
rail does so in its quarter, of another rail fails the package; a low input is curb level 3 until it recovers; a lost one
takes the rails off and the GDDR7 contents with them. -/
def Sys2Proof.Machine.InputsAndRails : Prop :=
  (∀ s : State, s.up → s.pwr.capAt + 1000000 ≤ s.now →
    s.fldOf R.PWR_CAP F.PWR_CAP.cap_w * 1020 < s.fldOf R.PWR_INPUT F.PWR_INPUT.avg_mw →
      ((∃ q, q < 4 ∧ (s.stepQ q ≠ 0 ∨ s.isDivided q = false)) →
        ∃ t, exec .capGuard s = .next t ∧ (∀ q, q < 4 → t.isDivided q = true ∧ t.pwr.await.contains q = true) ∧
          SameBut [.regs, .pwr] s t) ∧
      ((∀ q, q < 4 → s.stepQ q = 0 ∧ s.isDivided q = true) → s.fldOf R.PWR_STATUS F.PWR_STATUS.cap_unmet = 0 →
        ∃ t, exec .capGuard s = .next t ∧ t.fldOf R.PWR_STATUS F.PWR_STATUS.cap_unmet = 1 ∧
          bit (t.reg (pageBase .pwr 0 + 0x40)).toNat 33 = true ∧ RegsBut [R.PWR_STATUS, pageBase .pwr 0 + 0x40] s t ∧
          SameBut [.regs] s t)) ∧
  (∀ (s : State) (rail : Fin 10), s.up →
      ∃ u, u.fldOf (stagePlace rail).1 (stagePlace rail).2 = min 15 (s.fldOf (stagePlace rail).1 (stagePlace rail).2 + 1) ∧
        bit (u.reg (pageBase .pwr 0 + 0x40)).toNat 35 = true ∧ RegsBut [(stagePlace rail).1, pageBase .pwr 0 + 0x40] s u ∧
        SameBut [.regs] s u ∧
        exec (.stageFail rail) s = .next (Act.run (if 2 ≤ s.fldOf (stagePlace rail).1 (stagePlace rail).2 then
          (if rail.val < 4 then divideHeld rail else pkgFail) else skip) u)) ∧
  (∀ s : State, s.up → s.pwr.vinLow = false → s.curbLevel < 3 →
      ∃ u, u.pwr = { s.pwr with vinLow := true } ∧ u.fldOf R.PWR_STATUS F.PWR_STATUS.vin_low = 1 ∧ SameBut [.regs, .pwr] s u ∧
        exec .vinLow s = .next (Act.run curbRaised u)) ∧
  (∀ s : State, s.up → exec .vinRecover s = .next ((Upd.pwr { s.pwr with vinLow := false }).apply s)) ∧
  (∀ s : State, s.land.railsOff = false →
      ∃ t, exec .vinLoss s = .next t ∧ t.land.vinLost = true ∧ t.land.railsOff = true ∧ (∀ k, 2 ^ 60 ≤ k → k < 2 ^ 64 → t.byteAt k = 0))

/-- DROOP, THERMAL_SAMPLE, THERMAL_TRIP and ENERGY_SAMPLE (R418 to R422): a droop and the clocks it stretched, min_stretch
of them at least, are counted; a quarter's good sensors take their readings, and the throttle, the boost and the trip follow
from them; a trip stops the rails and is latched with its tick; a microsecond's power is integrated and averaged. Where the
model chooses, it rests on assumptions 99, 134 and 182. -/
def Obligations.HeatAndEnergy : Prop :=
  (∀ (s : State) (tile : TileId) (n : Nat), s.up → exec (.droop tile n) s =
    .next (Act.run (do
      count (C.TILE_CNT_DROOP tile) 1
      count (C.TILE_CNT_STRETCH tile) (max n (s.fldOf R.PWR_DROOP_CFG F.PWR_DROOP_CFG.min_stretch))) s)) ∧
  (∀ (s : State) (q : Fin 4) (i : Fin 156) (temp : BitVec 16), s.up → s.pwr.calUntil = [] → s.sensorBad (q * 156 + i) = false →
    -640 ≤ temp.toInt → temp.toInt ≤ 2400 →
      ∃ u, u.sensorTemp (q * 156 + i) = temp.toInt ∧ (∀ k, k ≠ sensorKey (q * 156 + i) → u.wordAt k = s.wordAt k) ∧
        SameBut [.tab] s u ∧
        exec (.thermalSample q [(i, temp)]) s = .next (Act.run (do
          showThermal q
          thermalActions q) u)) ∧
  (∀ s : State, s.up → s.fldOf R.PWR_TRIP F.PWR_TRIP.tripped = 0 →
      ∃ t, exec .thermalTrip s = .next t ∧ t.fldOf R.PWR_TRIP F.PWR_TRIP.tripped = 1 ∧
        t.fldOf R.PWR_TRIP F.PWR_TRIP.tick = s.tick ∧ t.land.railsOff = true) ∧
  (∀ (s : State) (mw : BitVec 32) (core : List (BitVec 32)) (vin : BitVec 16), s.alive = true → (s.reg R.PWR_ENERGY).toNat +
    (s.pwr.nj + mw.toNat) / 1000 < 2 ^ 64 →
      ∃ t, exec (.energySample mw core vin) s = .next t ∧
        (t.reg R.PWR_ENERGY).toNat * 1000 + t.pwr.nj = (s.reg R.PWR_ENERGY).toNat * 1000 + s.pwr.nj + mw.toNat ∧
        t.pwr.samples = ((mw.toNat, core.map (·.toNat)) :: s.pwr.samples).take 1000 ∧
        RegsBut [R.PWR_ENERGY, R.PWR_INPUT] s t ∧ SameBut [.regs, .pwr] s t)

/-! ## Resets, boot and supplies -/

namespace Sys2Proof.Machine

/-- Nothing of what the engines, the ports and the partitions held is left, and no measurement, owner key or call, while the
floors and the operator's key stand (R434, R437, R483). -/
def Restarted (s t : State) : Prop :=
  t.time = {} ∧ t.fab = {} ∧ t.mig = {} ∧ t.ted = {} ∧ t.col = {} ∧ t.load = {} ∧ t.snap = {} ∧ t.mesh = {} ∧ t.move = {} ∧
    (∀ k, k < 12 → t.port k = {}) ∧ (∀ p, p < 32 → t.part p = {}) ∧ t.sec.ownerKeys = [] ∧ t.sec.calls = [] ∧
    t.sec.floors = s.sec.floors ∧ t.sec.operator = s.sec.operator

/-- A package reset by the hayward: the state in which the write of HAY_RESET stands, and its checks let it go on. -/
def PackageReset (s u : State) (core op : Nat) (env : BootEnv) : Prop :=
  (s.coreIssuer core).hay = true ∧ u = (Upd.land { s.land with env := env }).apply s ∧
    Admits u core R.HAY_RESET (BitVec.ofNat 64 (op * 2 ^ 56))

end Sys2Proof.Machine

/-- TILE_RESET, PARTITION_RESET and SNAPSHOT_COPY_DONE (R433 to R436, R462): a tile that has not failed and whose partition runs
no step is flushed, zeroed and reset; a partition after its reset is idle, admits nothing, is not stopping, and RUNNING if
valid; a snapshot's copy is in memory, m + 1 in its signal word, and snap_done interrupts. -/
def Sys2Proof.Machine.SmallResets : Prop :=
  (∀ (s : State) (core : CoreId) (tile : TileId), Admits s core R.HAY_RESET (BitVec.ofNat 64 (1 * 2 ^ 56 + tile)) →
    s.tileState tile ≠ 5 → (∀ p, s.pagePart (pageBase .tile tile) = some p → s.phase p ≠ 3) →
      ∃ t, exec (.tileReset core tile) s = .next t ∧ Served (do
        wrF R.HAY_RESET_STATUS F.HAY_RESET_STATUS.refused 0
        tileFlushReset tile
        count C.HAY_CNT_TILE_RESETS 1) s t) ∧
  (∀ (s : State) (core : CoreId) (p : PartId), Admits s core R.HAY_RESET (BitVec.ofNat 64 (2 * 2 ^ 56 + p)) →
      ∃ t, exec (.partitionReset core p) s = .next t ∧ t.resp = { reason := 0, data := 0 } ∧ t.phase p = 0 ∧
        t.fldOf (R.PRT_CTRL p) F.PRT_CTRL.stop = 0 ∧ (s.partValid p = true → t.fldOf (R.PRT_CTRL p) F.PRT_CTRL.state = 1) ∧
        t.fldOf (R.REQ_PART_CTRL p) F.REQ_PART_CTRL.admit_enable = 0) ∧
  (∀ (s u : State) (slot : Fin 8) (c : SnapCopy) (m sig : Nat), s.clear → s.snap.copies.find? (fun c => c.slot = slot.val) = some c →
    m = ((s.snap.seq.find? (fun e => e.1 = slot.val)).map (·.2)).getD 0 →
    sig = s.fldOf (R.CNT_SNAP_SIG slot) F.CNT_SNAP_SIG.hub * 2 ^ 24 + s.fldOf (R.CNT_SNAP_SIG slot) F.CNT_SNAP_SIG.offset * 8 →
    u = Act.run (match c.part with
      | none => do
        regionWrite (s.reg R.CNT_HAY_REGION) c.addr c.bytes
        if sig % 2 ^ 24 < 48 * 65536 then stNum (hubKey 0 sig) 8 (m + 1)
      | some p => do
        let _ ← gWrite 0x4003 p c.addr c.bytes
        let _ ← spWrite 0x4003 p 0 sig (leBytes 8 (m + 1))) ((Upd.snap { s.snap with
        copies := s.snap.copies.filter (fun d => d.slot ≠ slot.val)
        seq := s.snap.seq.filter (fun e => e.1 ≠ slot.val) ++ [(slot.val, m + 1)] }).apply s) →
      ∃ t, exec (.snapshotCopyDone slot) s = .next t ∧ bit (t.reg (pageBase .cnt 0 + 0x40)).toNat 32 = true ∧
        SameBut [.regs] u t)

/-- WARM_RESET, COLD_PACKAGE_RESET and VIN_MAIN_VALID (R433, R434, R437, R483 to R485): a warm reset leaves hub and tile SRAM
cleared, the GDDR7 contents as they were and nothing held by an engine; a cold one, by the hayward or as VIN_MAIN becomes
valid, leaves every byte of memory but the flash cleared, the cause of the reset recorded, and the rails up if they rise;
the flash keeps what stands in its devices. What the secure
boot then finds is in the command's `env`. -/
def Sys2Proof.Machine.PackageResets : Prop :=
  (∀ (s u : State) (core : CoreId) (env : BootEnv), PackageReset s u core 3 env →
      ∃ t, exec (.warmReset core env) s = .next t ∧ t.resp = { reason := 0, data := 0 } ∧ Restarted s t ∧
        (∀ k, k < 2 ^ 37 → t.byteAt k = 0) ∧ (∀ k, 2 ^ 37 ≤ k → t.byteAt k = s.byteAt k) ∧
        t.flash = s.flash.warm ∧ t.land.env = env) ∧
  (∀ (s u : State) (core : CoreId) (env : BootEnv), PackageReset s u core 4 env →
      ∃ t, exec (.coldPackageReset core env) s = .next t ∧ t.resp = { reason := 0, data := 0 } ∧ Restarted s t ∧
        (∀ k, k < 2 ^ 64 → t.byteAt k = 0) ∧ (∀ k, 2 ^ 64 ≤ k → t.byteAt k = s.byteAt k) ∧ t.flash = s.flash.cold env.repaired ∧
        t.land.railsOff = !env.rails ∧ t.fldOf R.HAY_RESET_STATUS F.HAY_RESET_STATUS.cause = 2) ∧
  (∀ (s : State) (env : BootEnv),
      ∃ t, exec (.vinMainValid env) s = .next t ∧ Restarted s t ∧ (∀ k, k < 2 ^ 64 → t.byteAt k = 0) ∧
        (∀ k, 2 ^ 64 ≤ k → t.byteAt k = s.byteAt k) ∧ t.flash = s.flash.cold env.repaired ∧ t.land.railsOff = !env.rails ∧ (env.rails = false → t.land.stop = 1) ∧
        t.fldOf R.HAY_RESET_STATUS F.HAY_RESET_STATUS.cause = (if s.land.vinLost then 3 else 0))

/-- STRAP_SAMPLE, VSTBY_LOSS and REFCLK_LOSS (R476, R477, R486): the straps are sampled once and show in BMS_BOARD; a loss
of standby takes every rail and what it held, a VIN_MAIN that was there being remembered; a lost reference takes its ports
DOWN, its bulk port or the management port down, or fails the package. Where the model chooses, it rests on assumptions 104,
124 and 180. -/
def Obligations.SuppliesAndClocks : Prop :=
  (∀ (s : State) (straps : BitVec 11), s.land.straps = none →
      ∃ t, exec (.strapSample straps) s = .next t ∧ t.land = { s.land with straps := some straps.toNat } ∧
        t.fldOf R.BMS_BOARD F.BMS_BOARD.bx = bits straps.toNat 1 0 ∧ t.fldOf R.BMS_BOARD F.BMS_BOARD.by_ = bits straps.toNat 3 2 ∧
        t.fldOf R.BMS_BOARD F.BMS_BOARD.width_m1 = bits straps.toNat 5 4 ∧
        t.fldOf R.BMS_BOARD F.BMS_BOARD.height_m1 = bits straps.toNat 7 6 ∧ SameBut [.regs, .land] s t) ∧
  (∀ s : State,
      ∃ t, exec .vstbyLoss s = .next t ∧ Restarted s t ∧ (∀ k, k < 2 ^ 64 → t.byteAt k = 0) ∧
        (∀ k, 2 ^ 64 ≤ k → t.byteAt k = s.byteAt k) ∧ t.flash = s.flash.cold false ∧
        t.land = { env := s.land.env, railsOff := true, vinLost := s.land.vinLost || !s.land.railsOff }) ∧
  (∀ (s : State) (clk : Fin 8), s.alive = true →
      (∀ k, clk.val < 4 → (k = 2 * clk.val ∨ k = 2 * clk.val + 1 ∨ k = 8 + [0, 1, 3, 2].getD clk.val 0) →
        ∃ t q, exec (.refclkLoss clk) s = .next t ∧ t.port k = { txq := q, nextPkt := (s.port k).nextPkt } ∧
          (∀ f ∈ q, f.src.isSome = true) ∧ t.portState k = (if s.portState k = 4 then 4 else 0) ∧
          t.fldOf (portPage k + 0x18) F.PAGE_STATUS.fault = 1 ∧ SameBut [.regs, .ports] s t) ∧
      (clk.val = 4 ∨ clk.val = 5 →
        ∃ t, exec (.refclkLoss clk) s = .next t ∧ t.fldOf (R.BIN_PORT_STATUS (clk.val - 4)) F.BIN_PORT_STATUS.link = 0 ∧
          t.fldOf (pageBase .bin (clk.val - 4) + 0x18) F.PAGE_STATUS.fault = 1 ∧ SameBut [.regs] s t) ∧
      (clk.val = 6 → exec (.refclkLoss clk) s = .next (Act.run pkgFail s)) ∧
      (clk.val = 7 →
        ∃ t, exec (.refclkLoss clk) s = .next t ∧ t.mgtUp = false ∧
          t.fldOf (pageBase .mgt 0 + 0x18) F.PAGE_STATUS.fault = 1 ∧ SameBut [.regs] s t))

/-! ## Side ports -/

/-- I3C_WORD_READ, ENTDAA, SETDASA, RSTDAA, GETSTATUS, ENEC and DISEC (R479): a sideband word or a NACK; the dynamic address is
taken once, by either command, and given up; a status of two bytes, whose value nothing fixes; in-band interrupts on and
off. Each answers in every state, with no supply but standby. -/
def Sys2Proof.Machine.Sideband : Prop :=
  (∀ (s : State) (off : BitVec 8), exec (.i3cWordRead off) s = .next ((Upd.send (match s.sideWord off.toNat with
      | some v => .word v
      | none => .nack)).apply s)) ∧
  (∀ s : State, s.sideWord 0 = some 0x09600100109609AB ∧
    (∀ off, (off % 8 ≠ 0 ∨ 0x40 ≤ off) → s.sideWord off = none)) ∧
  (∀ (s : State) (addr : BitVec 7), exec (.entdaa addr) s = .next (if s.land.dynAddr = none then
      (Upd.land { s.land with dynAddr := some addr.toNat }).apply s else s)) ∧
  (∀ (s : State) (static addr : BitVec 7), exec (.setdasa static addr) s = .next (
      if static.toNat = 0x50 + bits (s.land.straps.getD 0) 10 8 ∧ s.land.dynAddr = none then
        (Upd.land { s.land with dynAddr := some addr.toNat }).apply s
      else (Upd.send .nack).apply s)) ∧
  (∀ s : State, exec .rstdaa s = .next ((Upd.land { s.land with dynAddr := none }).apply s)) ∧
  (∀ s : State, ∃ t, exec .getstatus s = .next t ∧
    (if s.land.dynAddr = none then t.sent = s.sent ++ [.nack] ∧ t.free = s.free
      else ∃ v, v < 2 ^ 16 ∧ t.sent = s.sent ++ [.status v]) ∧ SameBut [.sent, .free] s t) ∧
  (∀ s : State, exec .enec s = .next ((Upd.land { s.land with ibi := true }).apply s) ∧
    exec .disec s = .next ((Upd.land { s.land with ibi := false }).apply s))

/-- BYPASS, IDCODE, SAMPLE_PRELOAD, EXTEST, CLAMP and TRST (R480): each selects its register and shifts out what it holds: one 0
bit, 0x1096_09AB, or the 29 boundary cells as captured; EXTEST and CLAMP drive the lands from the boundary register. -/
def Sys2Proof.Machine.BoundaryScan : Prop :=
  ∀ (s : State) (pins data : BitVec 29),
    (∃ t, exec .bypass s = .next t ∧ t.land = { s.land with ir := .bypass, drive := false } ∧ t.sent = s.sent ++ [.tdo 1 0] ∧
      SameBut [.land, .sent] s t) ∧
    (∃ t, exec .idcode s = .next t ∧ t.land = { s.land with ir := .idcode, drive := false } ∧
      t.sent = s.sent ++ [.tdo 32 0x109609AB] ∧ SameBut [.land, .sent] s t) ∧
    (∃ t, exec (.samplePreload pins data) s = .next t ∧ t.land = { s.land with ir := .sample, scan := data, drive := false } ∧
      t.sent = s.sent ++ [.tdo 29 pins.toNat] ∧ SameBut [.land, .sent] s t) ∧
    (∃ t, exec (.extest pins data) s = .next t ∧ t.land = { s.land with ir := .extest, drive := true, scan := data } ∧
      t.sent = s.sent ++ [.tdo 29 pins.toNat] ∧ SameBut [.land, .sent] s t) ∧
    (∃ t, exec .clamp s = .next t ∧ t.land = { s.land with ir := .clamp, drive := true } ∧ t.sent = s.sent ++ [.tdo 1 0] ∧
      SameBut [.land, .sent] s t) ∧
    exec .trst s = .next ((Upd.land { s.land with ir := .idcode, drive := false }).apply s)

/-- MGT_PORT_ENABLE, ARP_REQUEST, NEIGHBOR_SOLICITATION, PAUSE_FRAME and MGT_FRAME_DROP (R481, R482): an accepted write brings the
port up if it has trained, or takes it down; a port that is up answers requests for its own addresses, holds its sending
for the time a PAUSE frame names, and counts and drops any other frame; a port that is down, or out of service, takes nothing. -/
def Sys2Proof.Machine.ManagementFrames : Prop :=
  (∀ (s : State) (core : CoreId) (v : Word) (trained : Bool), Admits s core R.MGT_PORT_CTRL v →
      ∃ t, exec (.mgtPortEnable core v trained) s = .next t ∧ t.resp = { reason := 0, data := 0 } ∧
        t.fldOf R.MGT_PORT_STATUS F.MGT_PORT_STATUS.link =
          (if getFld v F.MGT_PORT_CTRL.enable = 0 then 0 else if trained then 2 else 1) ∧
        RegsBut [R.MGT_PORT_CTRL, R.MGT_PORT_STATUS] s t ∧ SameBut [.regs, .resp, .land, .sent] s t) ∧
  (∀ (s : State) (len : Nat), s.alive = true → s.mgtUp = true → s.pageServes (pageBase .mgt 0) = true →
    ∀ u, u = Act.run (count C.MGT_CNT_RX_BYTES len) s →
      (∀ addr : BitVec 32, exec (.arpRequest addr len) s = .next (Act.run
        (if addr.toNat = s.fldOf R.MGT_PORT_IP4 F.MGT_PORT_IP4.addr then mgtAnswer len 1 addr.toNat else mgtDrop) u)) ∧
      (∀ addr : BitVec 128, exec (.neighborSolicitation addr len) s = .next (Act.run
        (if addr.toNat = s.fldOf R.MGT_PORT_IP6_HI F.MGT_PORT_IP6_HI.addr * 2 ^ 64 +
          s.fldOf R.MGT_PORT_IP6_LO F.MGT_PORT_IP6_LO.addr then mgtAnswer len 2 addr.toNat else mgtDrop) u)) ∧
      (∀ quanta : BitVec 16, ∃ t, exec (.pauseFrame quanta len) s = .next t ∧
        t.land = { s.land with pauseUntil := s.now + quanta.toNat * 512 / 25 } ∧ SameBut [.regs, .land] s t) ∧
      exec (.mgtFrameDrop len) s = .next (Act.run (count C.MGT_CNT_RX_DROP 1) u)) ∧
  (∀ (s : State) (len : Nat) (a : BitVec 32) (b : BitVec 128) (q : BitVec 16) (c : Instr),
    (s.mgtUp = false ∨ s.pageServes (pageBase .mgt 0) = false) → c ∈ [Instr.arpRequest a len, .neighborSolicitation b len, .pauseFrame q len, .mgtFrameDrop len] → exec c s = .next s)

/-! ## The whole machine -/

/-- The fields of the state that a command may change, whatever the state and its operands. -/
def Sys2Proof.Machine.touches : Instr → List Field
  | .registerWrite _ _ _ _ | .pageEnable _ _ _ | .pageQuiesce _ _ _ | .pageLockWrite _ _ _ | .schedTickWrite _ _ _
  | .stagedWrite _ _ _ | .doorbellProducer _ _ _ | .doorbellConsumer _ _ _ | .tickRunSet _ | .tickRunClear _
  | .gleanPost _ _ _ | .gleanCancel _ _ | .selftestStart _ _ | .opqTailWrite _ _ _ | .ringContextWrite _ _ _ _
  | .prxKeyWrite _ _ _ _ _ | .migStart _ _ | .migAbort _ _ | .baseDiscard _ _ | .baseCutoverStage _ _
  | .portEnable _ _ _ | .quenchClear _ _ | .coreMemoryAccess _ _ _ _ _ | .partitionStop _ _ | .floorCommit _ _ _
  | .ownerKeyInstall _ _ _ | .ownerKeyRemove _ _ _ | .secReport _ _ _ | .provision _ _ _ | .claim _ _ _
  | .lifecycleRelease _ _ _ | .decommission _ _ _ | .debug _ _ _ | .tileReset _ _ | .partitionReset _ _
  | .warmReset _ _ | .coldPackageReset _ _ | .mgtPortEnable _ _ _ =>
    [.regs, .staged, .mem, .tab, .resp, .record, .time, .ports, .parts, .sites, .tiles, .fab, .mig, .flash, .ted, .col,
      .load, .sec, .pwr, .snap, .mesh, .move, .land, .sent]
  | .timNowRead _ | .registerRead _ _ _ =>
    [.regs, .mem, .resp]
  | .quiesceComplete _ | .gmapShadowCopyDone | .holdoverErrorLimit _ | .meshHoldTimeout | .mirrorTimeout _
  | .retrainDue _ _ | .bulkFrameDrop _ | .baseRetire _ | .linkDelayMeasure _ _ _ _ _ | .dividerRelease | .droop _ _
  | .mgtFrameDrop _ =>
    [.regs]
  | .tickEdge _ _ =>
    [.regs, .staged, .mem, .tab, .time, .ports, .parts, .sites, .tiles, .fab, .mig, .flash, .col, .load, .pwr, .snap,
      .mesh, .move, .land, .sent, .free]
  | .tileZeroDone _ =>
    [.regs, .tiles]
  | .hubUnitZeroDone _ _ | .sliceZeroDone =>
    [.regs, .move]
  | .ptpSync _ _ _ _ _ _ _ | .ptpFollowUp _ _ _ _ _ _ =>
    [.regs, .time, .land, .sent, .free]
  | .ptpAnnounce _ _ _ _ | .syncLossTimeout =>
    [.regs, .time]
  | .ptpDelayReq | .ptpDelayResp _ _ _ _ _ _ =>
    [.regs, .time, .land, .sent]
  | .beacon _ =>
    [.regs, .mem, .time, .ports, .land, .sent, .free]
  | .stepStart _ =>
    [.regs, .tab, .tiles]
  | .barrierRelease _ =>
    [.tiles]
  | .gleanOpen _ _ _ =>
    [.regs, .mem, .tab, .time, .ports, .mig, .flash, .load, .pwr, .land, .sent, .free]
  | .gleanClose _ _ _ _ _ _ _ =>
    [.regs, .mem, .tab, .time, .ports, .sites, .mig, .flash, .load, .land, .sent, .free]
  | .gleanSwapBack _ _ | .spareSwapDone _ =>
    [.regs, .ports]
  | .selftestDone _ _ =>
    [.regs, .tiles, .land, .sent]
  | .tileFail _ _ =>
    [.regs, .mem, .tab, .ports, .parts, .sites, .tiles, .mig, .flash, .col, .land, .sent, .free]
  | .coreFail _ | .thermalTrip =>
    [.regs, .tab, .parts, .land, .sent, .free]
  | .meshInject _ _ _ _ _ | .meshHoldRelease _ =>
    [.regs, .mesh, .sent]
  | .opRetire _ _ _ | .opSignal _ _ | .nop _ | .matmul _ | .finish _ | .combine _ | .vewAdd _ | .vewSub _ | .vewMul _
  | .vewFma _ | .vewMax _ | .vewMin _ | .vewConvert _ | .actRelu _ | .actSigmoid _ | .actSilu _ | .actGeluTanh _
  | .actExp _ | .actSwiglu _ | .normRms _ | .normLayer _ | .rope _ | .reduceSum _ | .reduceSumSquares _ | .reduceMax _
  | .reduceMin _ | .reduceMaxAbs _ | .quant _ | .topk _ | .select _ | .gather _ | .scatter _ | .sample _ | .attn _
  | .wait _ =>
    [.regs, .mem, .tab, .tiles]
  | .opFlush _ _ _ | .walkInv _ _ =>
    [.regs, .mem, .resp, .tiles, .land, .sent]
  | .qhistWrite _ _ _ | .adpStage _ _ | .adpPublish _ _ _ _ | .adpWithdraw _ _ _ _ | .adpDrop _ _ _ _ =>
    [.regs, .mem, .tab, .resp, .land, .sent]
  | .ringIn _ =>
    [.regs, .mem, .tab, .ports, .parts, .sites, .fab, .mig, .sent]
  | .admission _ | .cancel _ | .mirrorConf _ =>
    [.regs, .mem, .tab, .ports, .parts, .sites, .mig, .sent]
  | .stepArm _ _ _ _ | .listRelease _ _ _ | .prxShare _ _ _ _ | .prxWithdraw _ _ _ _ | .kvRebuild _ _ _ _ =>
    [.regs, .mem, .tab, .resp, .parts, .sites, .mig, .land, .sent]
  | .cowCopyDone _ =>
    [.regs, .mem, .tab, .parts, .sites, .mig]
  | .stepCommit _ _ | .stepRollback _ _ =>
    [.regs, .mem, .tab, .resp, .ports, .parts, .sites, .tiles, .mig, .land, .sent]
  | .commitResume _ =>
    [.regs, .mem, .tab, .ports, .parts, .sites, .tiles, .mig, .sent]
  | .unpark _ _ _ =>
    [.regs, .mem, .tab, .resp, .parts, .land, .sent]
  | .dmaEntry _ | .put _ | .putEnd _ | .putDone _ | .putTimeout _ | .boardLoad _ _ _ _ | .boardStore _ _ _ _ _ =>
    [.regs, .mem, .tab, .ports, .sites, .fab, .mig, .sent]
  | .dmaEntryDone _ =>
    [.regs, .mem, .tab, .sites, .fab, .mig]
  | .ringMsg _ | .bld _ | .bst _ | .mirror _ =>
    [.regs, .mem, .tab, .ports, .sites, .mig, .sent]
  | .ringBusy _ | .ringMsgRetry _ | .brsp _ =>
    [.regs, .mem, .ports, .fab, .sent]
  | .placeTailWrite _ _ _ | .flqTailWrite _ _ _ | .ldqTailWrite _ _ _ | .tdqTailWrite _ _ _ | .clqTailWrite _ _ _ =>
    [.regs, .mem, .resp, .land, .sent]
  | .placeRequest _ | .biasUpdate _ | .biasReadyWrite _ | .writeThroughFlush _ _ =>
    [.regs, .mem, .tab, .sites, .mig]
  | .placeSignal _ =>
    [.regs, .mem, .tab]
  | .gddr7Read _ _ _ _ _ _ _ | .gddr7Write _ _ _ _ =>
    [.regs, .mem, .sites, .mig, .sent]
  | .siteFail _ =>
    [.regs, .mig]
  | .scrubStripe _ _ _ =>
    [.regs, .free]
  | .coverCatchup _ =>
    [.regs, .mem, .sites, .mig]
  | .wbLoad _ _ _ _ | .wbFlush _ _ _ _ | .wbEvict _ _ _ _ | .wbDiscard _ _ _ _ =>
    [.regs, .mem, .tab, .resp, .sites, .tiles, .mig, .land, .sent]
  | .wbCommandDone _ =>
    [.regs, .mem, .tab, .sites, .tiles, .mig]
  | .migCopyDone =>
    [.regs, .mem, .mig]
  | .flashRead _ | .flashWrite _ | .flashTrim _ | .flashCmdDone _ | .programDone _ | .programFail _ _ =>
    [.regs, .mem, .tab, .sites, .mig, .flash]
  | .hardDecode _ _ _ | .softDecode _ _ =>
    [.regs, .mem, .sites, .mig, .flash]
  | .refreshBlock _ | .mapCheckpoint =>
    [.regs, .mem, .tab, .flash]
  | .gcRelocate _ | .wearLevelMove _ =>
    [.regs, .tab, .flash]
  | .mapRebuildDone =>
    [.regs, .mem, .tab, .sites, .mig, .flash, .land, .sent]
  | .verify _ | .drop _ | .keyInstall _ =>
    [.regs, .mem, .tab, .load]
  | .keyRequest _ =>
    [.regs, .mem, .tab, .sites, .mig, .load, .free]
  | .keyRequestTimeout _ =>
    [.load]
  | .load _ | .peerNotHeld _ =>
    [.regs, .mem, .tab, .ports, .load, .sent]
  | .chunkLanded _ _ _ =>
    [.regs, .mem, .tab, .ports, .sites, .mig, .flash, .load, .sent]
  | .chunkTimeout _ _ _ | .roceNak _ | .roceTimeout _ =>
    [.regs, .tab, .ports, .load, .sent]
  | .loadDone _ _ =>
    [.regs, .mem, .tab, .ports, .flash, .load, .sent]
  | .rdmaReadResponse _ _ _ _ =>
    [.regs, .mem, .tab, .sites, .mig, .load, .sent]
  | .roceAck _ _ =>
    [.regs, .load]
  | .peerReq _ =>
    [.regs, .mem, .ports, .load, .sent]
  | .peerData _ =>
    [.regs, .mem, .ports, .sites, .mig, .load, .sent]
  | .fillPiece _ _ | .fillPieceDone _ =>
    [.regs, .mem, .tab, .ted]
  | .linkTrainPass _ _ =>
    [.regs, .ports, .land, .sent]
  | .linkTrainTimeout _ | .linkFlitRx _ _ _ | .linkNak _ _ | .linkReplayTimeout _ | .laneFail _ _ =>
    [.regs, .mem, .tab, .ports, .parts, .sites, .mig, .col, .land, .sent, .free]
  | .transitFlit _ _ _ _ =>
    [.regs, .ports, .sent]
  | .quench _ | .unquench _ | .drain _ | .pstop _ =>
    [.regs, .mem, .ports, .parts, .col, .sent]
  | .quenchExpire _ =>
    [.regs, .ports, .parts, .col, .sent]
  | .allreduce _ | .reduceScatter _ | .allgather _ | .broadcast _ | .colOut _ | .colDone _ | .colTimeout _ _ =>
    [.regs, .mem, .tab, .ports, .sites, .mig, .col, .sent]
  | .colReady _ _ =>
    [.regs, .mem, .ports, .col, .sent]
  | .colResend _ | .undefinedPacketDiscard _ =>
    [.regs, .mem, .ports, .sent]
  | .colAbort _ _ =>
    [.regs, .mem, .tab, .resp, .ports, .sites, .mig, .col, .land, .sent]
  | .hayCallAct _ | .hayCallExtend _ | .hayCallReport _ =>
    [.regs, .mem, .tab, .sites, .mig, .sec]
  | .mgmtCommand _ _ =>
    [.regs, .mem, .ports, .parts, .col, .sec, .land, .sent]
  | .attestReq _ | .grant _ | .ownerKey _ =>
    [.regs, .mem, .sec, .land, .sent]
  | .powerCap _ =>
    [.regs, .staged, .mem, .sec, .land, .sent]
  | .vfStep | .curbEdge _ | .capGuard | .vinLow | .energySample _ _ _ =>
    [.regs, .pwr]
  | .stageFail _ | .thermalSample _ _ =>
    [.regs, .tab, .parts, .pwr, .land, .sent, .free]
  | .vinRecover =>
    [.pwr]
  | .vinLoss =>
    [.regs, .mem, .tab, .parts, .land, .sent, .free]
  | .stepAbandon _ _ =>
    [.regs, .mem, .tab, .resp, .parts, .sites, .tiles, .mig, .land, .sent]
  | .recover _ _ _ _ =>
    [.regs, .mem, .tab, .resp, .ports, .parts, .sites, .mig, .land, .sent]
  | .snapshotCopyDone _ =>
    [.regs, .mem, .tab, .sites, .mig, .snap]
  | .vinMainValid _ =>
    [.regs, .staged, .mem, .tab, .record, .time, .ports, .parts, .sites, .tiles, .fab, .mig, .flash, .ted, .col, .load,
      .sec, .pwr, .snap, .mesh, .move, .land, .sent]
  | .strapSample _ | .pauseFrame _ _ =>
    [.regs, .land]
  | .vstbyLoss =>
    [.regs, .staged, .mem, .tab, .time, .ports, .parts, .sites, .tiles, .fab, .mig, .flash, .ted, .col, .load, .sec,
      .pwr, .snap, .mesh, .move, .land]
  | .refclkLoss _ =>
    [.regs, .tab, .ports, .parts, .land, .sent, .free]
  | .i3cWordRead _ =>
    [.sent]
  | .entdaa _ | .rstdaa | .enec | .disec | .trst =>
    [.land]
  | .setdasa _ _ | .bypass | .idcode | .samplePreload _ _ | .extest _ _ | .clamp =>
    [.land, .sent]
  | .getstatus =>
    [.sent, .free]
  | .arpRequest _ _ | .neighborSolicitation _ _ =>
    [.regs, .land, .sent]
  | .linkManagementRequest _ _ =>
    [.ports, .sent]

/-- Every command goes on, and leaves the queue and every field that is not its own as it was: a lane failing changes no
memory, a received packet no power setting, a tile operation no partition's record. Where the model chooses, it rests on
assumption 15. -/
def Obligations.CommandsKeepToTheirFields : Prop :=
  ∀ (c : Instr) (s : State), ∃ t, exec c s = .next t ∧ SameBut (touches c) s t

/-- No step lowers a rollback floor (R392), and none brings back erased helper data (R396). Where the model chooses, it
rests on assumption 93. -/
def Obligations.FloorsNeverFall : Prop :=
  ∀ s t : State, step s = .next t → (∀ k, s.floorOf k ≤ t.floorOf k) ∧ (s.sec.helper = false → t.sec.helper = false)

/-- R345. The same 32 B body may arrive over the management port. It is acted on identically: the effect of either arrival is
the one fabricCommand, which tells neither, but for the page that counts it. A command that arrives on both paths acts once,
because the second copy fails the seq check: after a command that a partition matched, its copy is only counted. -/
def Obligations.SameCommandBothPaths : Prop :=
  (∀ (s : State) (r : RxPacket) (type : Nat) (c : Instr),
    (type, c) ∈ [(0x11, Instr.quench r), (0x12, .unquench r), (0x13, .drain r), (0x14, .pstop r)] → Receives s r type none →
      exec c s = .next (Act.run (fabricCommand r.port type (pkBody r.bytes)) (received s r))) ∧
  (∀ (s u : State) (cmd : Fin 4) (l : List Byte), s.alive = true → s.mgtUp = true → s.pageServes (pageBase .mgt 0) = true →
    mrType l = 1 → u = Act.run (do
      count C.MGT_CNT_RX_BYTES (s.mgtWire s.mgtIp l.length)
      wrR R.SEC_MGMT_SEQ (BitVec.ofNat 64 (mrSeq l))) s →
      ∃ t, exec (.mgmtCommand cmd l) s = .next t ∧ (s.recordOk l = true →
        t = Act.run (sendAck (mrSeq l) 0) (Act.run (fabricCommand 0 (0x11 + cmd) (bytesAt (mrBody l) 0 32)) u))) ∧
  (∀ (s t : State) (j k : PortId) (type : Nat) (b : List Byte), s.cmdParts type (cmdTarget b) ≠ [] →
    (s.reg R.FAB_CMD_SEQ).toNat < cmdSeq b → t = Act.run (fabricCommand j type b) s →
      Act.run (fabricCommand k type b) t = Act.run (count (C.CMD_DUP k) 1) t)

/-- R94. In given mode, t is TILE_QS_TSCALE_s. The value must be a positive, finite, normal FP32 number: its sign bit is 0 and
its exponent neither 0 nor 255. A write of any other value is refused with reason 0x04 and stores nothing. The write is one
that the common checks let go on, to a tile that is not being zeroed. -/
def Obligations.GivenTensorScale : Prop :=
  (∀ (s : State) (tile : TileId) (i : Fin 16) (cfg : Word), getFld cfg F.TILE_QS_CFG.scale_mode = 0 →
    s.tensorScale tile i cfg = s.fldOf (R.TILE_QS_TSCALE tile i) F.TILE_QS_TSCALE.tscale) ∧
  (∀ (s : State) (core : CoreId) (tile : TileId) (i : Fin 16) (v : Word), Admits s core (R.TILE_QS_TSCALE tile i) v →
    (s.tile tile).zeroing = false →
      ∃ t, exec (.registerWrite core (BitVec.ofNat 64 (R.TILE_QS_TSCALE tile i)) 8 v) s = .next t ∧
        (if bit v.toNat 31 = false ∧ 1 ≤ bits v.toNat 30 23 ∧ bits v.toNat 30 23 ≤ 254 then t.resp.reason = 0
          else t.resp.reason = 4 ∧ t.staged = s.staged ∧ t.reg (R.TILE_QS_TSCALE tile i) = s.reg (R.TILE_QS_TSCALE tile i)))

/-! ## Statements of several families -/

/-- Plain register accesses, and the read of TIM_NOW. Where the model chooses, it rests on assumptions 8, 12 and 133. -/
def Obligations.RegistersReadAndWritten : Prop := PlainRegisterAccess ∧ ReadingTimeLatchesFraction

/-- Messages taken from rings, and the journal's mirror. Where the model chooses, it rests on assumptions 51, 56, 57, 58, 75
and 181. -/
def Obligations.MessagesAndMirrors : Prop := MessagesTaken ∧ MirrorConfirms

/-- Doorbells and the words of ring contexts. Where the model chooses, it rests on assumptions 74 and 151. -/
def Obligations.DoorbellsAndRingContexts : Prop := DoorbellSetsIndex ∧ RingContextTakesWord

/-- The tick generator and its edges. Where the model chooses, it rests on assumptions 2 and 128. -/
def Obligations.TicksRun : Prop := TickGeneratorRuns ∧ TickEdgeAdvances

/-- Glean windows: posted, opened, closed. Where the model chooses, it rests on assumptions 126, 127, 128, 134 and 144. -/
def Obligations.GleanWindows : Prop := GleanPosted ∧ GleanWindow

/-- The results of the vector pipeline. Where the model chooses, it rests on assumptions 36, 37, 38 and 39. -/
def Obligations.VectorResults : Prop := ElementwiseResults ∧ ReductionResults

/-- Retirement, signals and the registers of a tile's operation queue. Where the model chooses, it rests on assumptions 24,
30, 84 and 147. -/
def Obligations.TileQueues : Prop := RetireAndSignal ∧ TileQueueRegisters

/-- Flash commands from their start to their status. Where the model chooses, it rests on assumptions 85, 86, 87, 134 and
155. -/
def Obligations.FlashCommands : Prop := FlashCommandStarts ∧ FlashCompletesAndDecodes

/-- Programming, refresh, relocation and the map of the flash. Where the model chooses, it rests on assumptions 85, 87, 134,
152, 153, 154 and 170. -/
def Obligations.FlashUpkeep : Prop := FlashProgramsAndRefreshes ∧ FlashHousekeeping

/-- The load queue: manifests, keys, streams and chunks. Where the model chooses, it rests on assumptions 23, 88, 96 and
172. -/
def Obligations.WeightLoads : Prop := ManifestsAndKeys ∧ LoadStreams

/-- Queue pairs and peers. Where the model chooses, it rests on assumptions 23, 96, 157 and 158. -/
def Obligations.ChunksOverTheWire : Prop := QueuePairs ∧ PeersServeChunks

/-- Adapters and base slots. Where the model chooses, it rests on assumptions 90 and 131. -/
def Obligations.AdaptersAndBases : Prop := AdapterCommands ∧ BaseSlots

/-- Flits, replay, transit, lanes and the spare. Where the model chooses, it rests on assumptions 29, 134, 160 and 161. -/
def Obligations.FlitsAndLanes : Prop := FlitsInOrder ∧ LanesSwap

/-- Remote copies, mirrored journals, discarded packets. Where the model chooses, it rests on assumptions 52, 53, 76, 77 and
181. -/
def Obligations.CopiesAndMirrors : Prop := RemoteCopies ∧ MirrorsAndDiscards

/-- Collectives from launch to record. Where the model chooses, it rests on assumptions 91 and 92. -/
def Obligations.Collectives : Prop := CollectivesLaunch ∧ CollectivesEnd

/-- The security core's commands and the management records. Where the model chooses, it rests on assumptions 93, 94 and
133. -/
def Obligations.SecurityActs : Prop := SecurityCommands ∧ ManagementRecords

/-- Walks, curbs, the cap guard, stages and the input supply. Where the model chooses, it rests on assumptions 97, 98, 100,
101, 102, 104 and 128. -/
def Obligations.PowerActs : Prop := WalksAndCurbs ∧ InputsAndRails

/-- Tile, partition and package resets, and snapshots. Where the model chooses, it rests on assumptions 3, 113, 118, 119,
120, 121, 122, 123, 139 and 156. -/
def Obligations.Resets : Prop := SmallResets ∧ PackageResets

/-- The I3C sideband, JTAG and the management port's own frames. Where the model chooses, it rests on assumptions 115, 116,
117, 162 and 179. -/
def Obligations.SidePorts : Prop := Sideband ∧ BoundaryScan ∧ ManagementFrames
end

