-- ==== Sys2Proof/Laws/State.lean ====
section
/-! SUPPORT. What each primitive update makes of each field of the state: one lemma for each field and update, true by
unfolding, so that no later proof unfolds a record update. -/

namespace Sys2Proof.Machine

variable (s : State)

@[simp] theorem upd_reg_pending (a : Nat) (v : Word) : ((Upd.reg a v).apply s).pending = s.pending := rfl
@[simp] theorem upd_reg_regs (a : Nat) (v : Word) : ((Upd.reg a v).apply s).regs = storePut regDefault s.regs a v := rfl
@[simp] theorem upd_reg_staged (a : Nat) (v : Word) : ((Upd.reg a v).apply s).staged = s.staged := rfl
@[simp] theorem upd_reg_mem (a : Nat) (v : Word) : ((Upd.reg a v).apply s).mem = s.mem := rfl
@[simp] theorem upd_reg_tab (a : Nat) (v : Word) : ((Upd.reg a v).apply s).tab = s.tab := rfl
@[simp] theorem upd_reg_resp (a : Nat) (v : Word) : ((Upd.reg a v).apply s).resp = s.resp := rfl
@[simp] theorem upd_reg_record (a : Nat) (v : Word) : ((Upd.reg a v).apply s).record = s.record := rfl
@[simp] theorem upd_reg_time (a : Nat) (v : Word) : ((Upd.reg a v).apply s).time = s.time := rfl
@[simp] theorem upd_reg_ports (a : Nat) (v : Word) : ((Upd.reg a v).apply s).ports = s.ports := rfl
@[simp] theorem upd_reg_parts (a : Nat) (v : Word) : ((Upd.reg a v).apply s).parts = s.parts := rfl
@[simp] theorem upd_reg_sites (a : Nat) (v : Word) : ((Upd.reg a v).apply s).sites = s.sites := rfl
@[simp] theorem upd_reg_tiles (a : Nat) (v : Word) : ((Upd.reg a v).apply s).tiles = s.tiles := rfl
@[simp] theorem upd_reg_fab (a : Nat) (v : Word) : ((Upd.reg a v).apply s).fab = s.fab := rfl
@[simp] theorem upd_reg_mig (a : Nat) (v : Word) : ((Upd.reg a v).apply s).mig = s.mig := rfl
@[simp] theorem upd_reg_flash (a : Nat) (v : Word) : ((Upd.reg a v).apply s).flash = s.flash := rfl
@[simp] theorem upd_reg_ted (a : Nat) (v : Word) : ((Upd.reg a v).apply s).ted = s.ted := rfl
@[simp] theorem upd_reg_col (a : Nat) (v : Word) : ((Upd.reg a v).apply s).col = s.col := rfl
@[simp] theorem upd_reg_load (a : Nat) (v : Word) : ((Upd.reg a v).apply s).load = s.load := rfl
@[simp] theorem upd_reg_sec (a : Nat) (v : Word) : ((Upd.reg a v).apply s).sec = s.sec := rfl
@[simp] theorem upd_reg_pwr (a : Nat) (v : Word) : ((Upd.reg a v).apply s).pwr = s.pwr := rfl
@[simp] theorem upd_reg_snap (a : Nat) (v : Word) : ((Upd.reg a v).apply s).snap = s.snap := rfl
@[simp] theorem upd_reg_mesh (a : Nat) (v : Word) : ((Upd.reg a v).apply s).mesh = s.mesh := rfl
@[simp] theorem upd_reg_move (a : Nat) (v : Word) : ((Upd.reg a v).apply s).move = s.move := rfl
@[simp] theorem upd_reg_land (a : Nat) (v : Word) : ((Upd.reg a v).apply s).land = s.land := rfl
@[simp] theorem upd_reg_sent (a : Nat) (v : Word) : ((Upd.reg a v).apply s).sent = s.sent := rfl
@[simp] theorem upd_reg_free (a : Nat) (v : Word) : ((Upd.reg a v).apply s).free = s.free := rfl

@[simp] theorem upd_clearRegs_pending (lo hi : Nat) : ((Upd.clearRegs lo hi).apply s).pending = s.pending := rfl
@[simp] theorem upd_clearRegs_regs (lo hi : Nat) : ((Upd.clearRegs lo hi).apply s).regs = storeClear s.regs lo hi := rfl
@[simp] theorem upd_clearRegs_staged (lo hi : Nat) : ((Upd.clearRegs lo hi).apply s).staged = s.staged := rfl
@[simp] theorem upd_clearRegs_mem (lo hi : Nat) : ((Upd.clearRegs lo hi).apply s).mem = s.mem := rfl
@[simp] theorem upd_clearRegs_tab (lo hi : Nat) : ((Upd.clearRegs lo hi).apply s).tab = s.tab := rfl
@[simp] theorem upd_clearRegs_resp (lo hi : Nat) : ((Upd.clearRegs lo hi).apply s).resp = s.resp := rfl
@[simp] theorem upd_clearRegs_record (lo hi : Nat) : ((Upd.clearRegs lo hi).apply s).record = s.record := rfl
@[simp] theorem upd_clearRegs_time (lo hi : Nat) : ((Upd.clearRegs lo hi).apply s).time = s.time := rfl
@[simp] theorem upd_clearRegs_ports (lo hi : Nat) : ((Upd.clearRegs lo hi).apply s).ports = s.ports := rfl
@[simp] theorem upd_clearRegs_parts (lo hi : Nat) : ((Upd.clearRegs lo hi).apply s).parts = s.parts := rfl
@[simp] theorem upd_clearRegs_sites (lo hi : Nat) : ((Upd.clearRegs lo hi).apply s).sites = s.sites := rfl
@[simp] theorem upd_clearRegs_tiles (lo hi : Nat) : ((Upd.clearRegs lo hi).apply s).tiles = s.tiles := rfl
@[simp] theorem upd_clearRegs_fab (lo hi : Nat) : ((Upd.clearRegs lo hi).apply s).fab = s.fab := rfl
@[simp] theorem upd_clearRegs_mig (lo hi : Nat) : ((Upd.clearRegs lo hi).apply s).mig = s.mig := rfl
@[simp] theorem upd_clearRegs_flash (lo hi : Nat) : ((Upd.clearRegs lo hi).apply s).flash = s.flash := rfl
@[simp] theorem upd_clearRegs_ted (lo hi : Nat) : ((Upd.clearRegs lo hi).apply s).ted = s.ted := rfl
@[simp] theorem upd_clearRegs_col (lo hi : Nat) : ((Upd.clearRegs lo hi).apply s).col = s.col := rfl
@[simp] theorem upd_clearRegs_load (lo hi : Nat) : ((Upd.clearRegs lo hi).apply s).load = s.load := rfl
@[simp] theorem upd_clearRegs_sec (lo hi : Nat) : ((Upd.clearRegs lo hi).apply s).sec = s.sec := rfl
@[simp] theorem upd_clearRegs_pwr (lo hi : Nat) : ((Upd.clearRegs lo hi).apply s).pwr = s.pwr := rfl
@[simp] theorem upd_clearRegs_snap (lo hi : Nat) : ((Upd.clearRegs lo hi).apply s).snap = s.snap := rfl
@[simp] theorem upd_clearRegs_mesh (lo hi : Nat) : ((Upd.clearRegs lo hi).apply s).mesh = s.mesh := rfl
@[simp] theorem upd_clearRegs_move (lo hi : Nat) : ((Upd.clearRegs lo hi).apply s).move = s.move := rfl
@[simp] theorem upd_clearRegs_land (lo hi : Nat) : ((Upd.clearRegs lo hi).apply s).land = s.land := rfl
@[simp] theorem upd_clearRegs_sent (lo hi : Nat) : ((Upd.clearRegs lo hi).apply s).sent = s.sent := rfl
@[simp] theorem upd_clearRegs_free (lo hi : Nat) : ((Upd.clearRegs lo hi).apply s).free = s.free := rfl

@[simp] theorem upd_stage_pending (a : Nat) (v : Option Word) : ((Upd.stage a v).apply s).pending = s.pending := rfl
@[simp] theorem upd_stage_regs (a : Nat) (v : Option Word) : ((Upd.stage a v).apply s).regs = s.regs := rfl
@[simp] theorem upd_stage_staged (a : Nat) (v : Option Word) : ((Upd.stage a v).apply s).staged = storePut (fun _ => none) s.staged a v := rfl
@[simp] theorem upd_stage_mem (a : Nat) (v : Option Word) : ((Upd.stage a v).apply s).mem = s.mem := rfl
@[simp] theorem upd_stage_tab (a : Nat) (v : Option Word) : ((Upd.stage a v).apply s).tab = s.tab := rfl
@[simp] theorem upd_stage_resp (a : Nat) (v : Option Word) : ((Upd.stage a v).apply s).resp = s.resp := rfl
@[simp] theorem upd_stage_record (a : Nat) (v : Option Word) : ((Upd.stage a v).apply s).record = s.record := rfl
@[simp] theorem upd_stage_time (a : Nat) (v : Option Word) : ((Upd.stage a v).apply s).time = s.time := rfl
@[simp] theorem upd_stage_ports (a : Nat) (v : Option Word) : ((Upd.stage a v).apply s).ports = s.ports := rfl
@[simp] theorem upd_stage_parts (a : Nat) (v : Option Word) : ((Upd.stage a v).apply s).parts = s.parts := rfl
@[simp] theorem upd_stage_sites (a : Nat) (v : Option Word) : ((Upd.stage a v).apply s).sites = s.sites := rfl
@[simp] theorem upd_stage_tiles (a : Nat) (v : Option Word) : ((Upd.stage a v).apply s).tiles = s.tiles := rfl
@[simp] theorem upd_stage_fab (a : Nat) (v : Option Word) : ((Upd.stage a v).apply s).fab = s.fab := rfl
@[simp] theorem upd_stage_mig (a : Nat) (v : Option Word) : ((Upd.stage a v).apply s).mig = s.mig := rfl
@[simp] theorem upd_stage_flash (a : Nat) (v : Option Word) : ((Upd.stage a v).apply s).flash = s.flash := rfl
@[simp] theorem upd_stage_ted (a : Nat) (v : Option Word) : ((Upd.stage a v).apply s).ted = s.ted := rfl
@[simp] theorem upd_stage_col (a : Nat) (v : Option Word) : ((Upd.stage a v).apply s).col = s.col := rfl
@[simp] theorem upd_stage_load (a : Nat) (v : Option Word) : ((Upd.stage a v).apply s).load = s.load := rfl
@[simp] theorem upd_stage_sec (a : Nat) (v : Option Word) : ((Upd.stage a v).apply s).sec = s.sec := rfl
@[simp] theorem upd_stage_pwr (a : Nat) (v : Option Word) : ((Upd.stage a v).apply s).pwr = s.pwr := rfl
@[simp] theorem upd_stage_snap (a : Nat) (v : Option Word) : ((Upd.stage a v).apply s).snap = s.snap := rfl
@[simp] theorem upd_stage_mesh (a : Nat) (v : Option Word) : ((Upd.stage a v).apply s).mesh = s.mesh := rfl
@[simp] theorem upd_stage_move (a : Nat) (v : Option Word) : ((Upd.stage a v).apply s).move = s.move := rfl
@[simp] theorem upd_stage_land (a : Nat) (v : Option Word) : ((Upd.stage a v).apply s).land = s.land := rfl
@[simp] theorem upd_stage_sent (a : Nat) (v : Option Word) : ((Upd.stage a v).apply s).sent = s.sent := rfl
@[simp] theorem upd_stage_free (a : Nat) (v : Option Word) : ((Upd.stage a v).apply s).free = s.free := rfl

@[simp] theorem upd_clearStaged_pending (lo hi : Nat) : ((Upd.clearStaged lo hi).apply s).pending = s.pending := rfl
@[simp] theorem upd_clearStaged_regs (lo hi : Nat) : ((Upd.clearStaged lo hi).apply s).regs = s.regs := rfl
@[simp] theorem upd_clearStaged_staged (lo hi : Nat) : ((Upd.clearStaged lo hi).apply s).staged = storeClear s.staged lo hi := rfl
@[simp] theorem upd_clearStaged_mem (lo hi : Nat) : ((Upd.clearStaged lo hi).apply s).mem = s.mem := rfl
@[simp] theorem upd_clearStaged_tab (lo hi : Nat) : ((Upd.clearStaged lo hi).apply s).tab = s.tab := rfl
@[simp] theorem upd_clearStaged_resp (lo hi : Nat) : ((Upd.clearStaged lo hi).apply s).resp = s.resp := rfl
@[simp] theorem upd_clearStaged_record (lo hi : Nat) : ((Upd.clearStaged lo hi).apply s).record = s.record := rfl
@[simp] theorem upd_clearStaged_time (lo hi : Nat) : ((Upd.clearStaged lo hi).apply s).time = s.time := rfl
@[simp] theorem upd_clearStaged_ports (lo hi : Nat) : ((Upd.clearStaged lo hi).apply s).ports = s.ports := rfl
@[simp] theorem upd_clearStaged_parts (lo hi : Nat) : ((Upd.clearStaged lo hi).apply s).parts = s.parts := rfl
@[simp] theorem upd_clearStaged_sites (lo hi : Nat) : ((Upd.clearStaged lo hi).apply s).sites = s.sites := rfl
@[simp] theorem upd_clearStaged_tiles (lo hi : Nat) : ((Upd.clearStaged lo hi).apply s).tiles = s.tiles := rfl
@[simp] theorem upd_clearStaged_fab (lo hi : Nat) : ((Upd.clearStaged lo hi).apply s).fab = s.fab := rfl
@[simp] theorem upd_clearStaged_mig (lo hi : Nat) : ((Upd.clearStaged lo hi).apply s).mig = s.mig := rfl
@[simp] theorem upd_clearStaged_flash (lo hi : Nat) : ((Upd.clearStaged lo hi).apply s).flash = s.flash := rfl
@[simp] theorem upd_clearStaged_ted (lo hi : Nat) : ((Upd.clearStaged lo hi).apply s).ted = s.ted := rfl
@[simp] theorem upd_clearStaged_col (lo hi : Nat) : ((Upd.clearStaged lo hi).apply s).col = s.col := rfl
@[simp] theorem upd_clearStaged_load (lo hi : Nat) : ((Upd.clearStaged lo hi).apply s).load = s.load := rfl
@[simp] theorem upd_clearStaged_sec (lo hi : Nat) : ((Upd.clearStaged lo hi).apply s).sec = s.sec := rfl
@[simp] theorem upd_clearStaged_pwr (lo hi : Nat) : ((Upd.clearStaged lo hi).apply s).pwr = s.pwr := rfl
@[simp] theorem upd_clearStaged_snap (lo hi : Nat) : ((Upd.clearStaged lo hi).apply s).snap = s.snap := rfl
@[simp] theorem upd_clearStaged_mesh (lo hi : Nat) : ((Upd.clearStaged lo hi).apply s).mesh = s.mesh := rfl
@[simp] theorem upd_clearStaged_move (lo hi : Nat) : ((Upd.clearStaged lo hi).apply s).move = s.move := rfl
@[simp] theorem upd_clearStaged_land (lo hi : Nat) : ((Upd.clearStaged lo hi).apply s).land = s.land := rfl
@[simp] theorem upd_clearStaged_sent (lo hi : Nat) : ((Upd.clearStaged lo hi).apply s).sent = s.sent := rfl
@[simp] theorem upd_clearStaged_free (lo hi : Nat) : ((Upd.clearStaged lo hi).apply s).free = s.free := rfl

@[simp] theorem upd_byte_pending (k : Nat) (v : Byte) : ((Upd.byte k v).apply s).pending = s.pending := rfl
@[simp] theorem upd_byte_regs (k : Nat) (v : Byte) : ((Upd.byte k v).apply s).regs = s.regs := rfl
@[simp] theorem upd_byte_staged (k : Nat) (v : Byte) : ((Upd.byte k v).apply s).staged = s.staged := rfl
@[simp] theorem upd_byte_mem (k : Nat) (v : Byte) : ((Upd.byte k v).apply s).mem = storePut (fun _ => 0) s.mem k v := rfl
@[simp] theorem upd_byte_tab (k : Nat) (v : Byte) : ((Upd.byte k v).apply s).tab = s.tab := rfl
@[simp] theorem upd_byte_resp (k : Nat) (v : Byte) : ((Upd.byte k v).apply s).resp = s.resp := rfl
@[simp] theorem upd_byte_record (k : Nat) (v : Byte) : ((Upd.byte k v).apply s).record = s.record := rfl
@[simp] theorem upd_byte_time (k : Nat) (v : Byte) : ((Upd.byte k v).apply s).time = s.time := rfl
@[simp] theorem upd_byte_ports (k : Nat) (v : Byte) : ((Upd.byte k v).apply s).ports = s.ports := rfl
@[simp] theorem upd_byte_parts (k : Nat) (v : Byte) : ((Upd.byte k v).apply s).parts = s.parts := rfl
@[simp] theorem upd_byte_sites (k : Nat) (v : Byte) : ((Upd.byte k v).apply s).sites = s.sites := rfl
@[simp] theorem upd_byte_tiles (k : Nat) (v : Byte) : ((Upd.byte k v).apply s).tiles = s.tiles := rfl
@[simp] theorem upd_byte_fab (k : Nat) (v : Byte) : ((Upd.byte k v).apply s).fab = s.fab := rfl
@[simp] theorem upd_byte_mig (k : Nat) (v : Byte) : ((Upd.byte k v).apply s).mig = s.mig := rfl
@[simp] theorem upd_byte_flash (k : Nat) (v : Byte) : ((Upd.byte k v).apply s).flash = s.flash := rfl
@[simp] theorem upd_byte_ted (k : Nat) (v : Byte) : ((Upd.byte k v).apply s).ted = s.ted := rfl
@[simp] theorem upd_byte_col (k : Nat) (v : Byte) : ((Upd.byte k v).apply s).col = s.col := rfl
@[simp] theorem upd_byte_load (k : Nat) (v : Byte) : ((Upd.byte k v).apply s).load = s.load := rfl
@[simp] theorem upd_byte_sec (k : Nat) (v : Byte) : ((Upd.byte k v).apply s).sec = s.sec := rfl
@[simp] theorem upd_byte_pwr (k : Nat) (v : Byte) : ((Upd.byte k v).apply s).pwr = s.pwr := rfl
@[simp] theorem upd_byte_snap (k : Nat) (v : Byte) : ((Upd.byte k v).apply s).snap = s.snap := rfl
@[simp] theorem upd_byte_mesh (k : Nat) (v : Byte) : ((Upd.byte k v).apply s).mesh = s.mesh := rfl
@[simp] theorem upd_byte_move (k : Nat) (v : Byte) : ((Upd.byte k v).apply s).move = s.move := rfl
@[simp] theorem upd_byte_land (k : Nat) (v : Byte) : ((Upd.byte k v).apply s).land = s.land := rfl
@[simp] theorem upd_byte_sent (k : Nat) (v : Byte) : ((Upd.byte k v).apply s).sent = s.sent := rfl
@[simp] theorem upd_byte_free (k : Nat) (v : Byte) : ((Upd.byte k v).apply s).free = s.free := rfl

@[simp] theorem upd_clearMem_pending (lo hi : Nat) : ((Upd.clearMem lo hi).apply s).pending = s.pending := rfl
@[simp] theorem upd_clearMem_regs (lo hi : Nat) : ((Upd.clearMem lo hi).apply s).regs = s.regs := rfl
@[simp] theorem upd_clearMem_staged (lo hi : Nat) : ((Upd.clearMem lo hi).apply s).staged = s.staged := rfl
@[simp] theorem upd_clearMem_mem (lo hi : Nat) : ((Upd.clearMem lo hi).apply s).mem = storeClear s.mem lo hi := rfl
@[simp] theorem upd_clearMem_tab (lo hi : Nat) : ((Upd.clearMem lo hi).apply s).tab = s.tab := rfl
@[simp] theorem upd_clearMem_resp (lo hi : Nat) : ((Upd.clearMem lo hi).apply s).resp = s.resp := rfl
@[simp] theorem upd_clearMem_record (lo hi : Nat) : ((Upd.clearMem lo hi).apply s).record = s.record := rfl
@[simp] theorem upd_clearMem_time (lo hi : Nat) : ((Upd.clearMem lo hi).apply s).time = s.time := rfl
@[simp] theorem upd_clearMem_ports (lo hi : Nat) : ((Upd.clearMem lo hi).apply s).ports = s.ports := rfl
@[simp] theorem upd_clearMem_parts (lo hi : Nat) : ((Upd.clearMem lo hi).apply s).parts = s.parts := rfl
@[simp] theorem upd_clearMem_sites (lo hi : Nat) : ((Upd.clearMem lo hi).apply s).sites = s.sites := rfl
@[simp] theorem upd_clearMem_tiles (lo hi : Nat) : ((Upd.clearMem lo hi).apply s).tiles = s.tiles := rfl
@[simp] theorem upd_clearMem_fab (lo hi : Nat) : ((Upd.clearMem lo hi).apply s).fab = s.fab := rfl
@[simp] theorem upd_clearMem_mig (lo hi : Nat) : ((Upd.clearMem lo hi).apply s).mig = s.mig := rfl
@[simp] theorem upd_clearMem_flash (lo hi : Nat) : ((Upd.clearMem lo hi).apply s).flash = s.flash := rfl
@[simp] theorem upd_clearMem_ted (lo hi : Nat) : ((Upd.clearMem lo hi).apply s).ted = s.ted := rfl
@[simp] theorem upd_clearMem_col (lo hi : Nat) : ((Upd.clearMem lo hi).apply s).col = s.col := rfl
@[simp] theorem upd_clearMem_load (lo hi : Nat) : ((Upd.clearMem lo hi).apply s).load = s.load := rfl
@[simp] theorem upd_clearMem_sec (lo hi : Nat) : ((Upd.clearMem lo hi).apply s).sec = s.sec := rfl
@[simp] theorem upd_clearMem_pwr (lo hi : Nat) : ((Upd.clearMem lo hi).apply s).pwr = s.pwr := rfl
@[simp] theorem upd_clearMem_snap (lo hi : Nat) : ((Upd.clearMem lo hi).apply s).snap = s.snap := rfl
@[simp] theorem upd_clearMem_mesh (lo hi : Nat) : ((Upd.clearMem lo hi).apply s).mesh = s.mesh := rfl
@[simp] theorem upd_clearMem_move (lo hi : Nat) : ((Upd.clearMem lo hi).apply s).move = s.move := rfl
@[simp] theorem upd_clearMem_land (lo hi : Nat) : ((Upd.clearMem lo hi).apply s).land = s.land := rfl
@[simp] theorem upd_clearMem_sent (lo hi : Nat) : ((Upd.clearMem lo hi).apply s).sent = s.sent := rfl
@[simp] theorem upd_clearMem_free (lo hi : Nat) : ((Upd.clearMem lo hi).apply s).free = s.free := rfl

@[simp] theorem upd_word_pending (k : Nat) (v : Word) : ((Upd.word k v).apply s).pending = s.pending := rfl
@[simp] theorem upd_word_regs (k : Nat) (v : Word) : ((Upd.word k v).apply s).regs = s.regs := rfl
@[simp] theorem upd_word_staged (k : Nat) (v : Word) : ((Upd.word k v).apply s).staged = s.staged := rfl
@[simp] theorem upd_word_mem (k : Nat) (v : Word) : ((Upd.word k v).apply s).mem = s.mem := rfl
@[simp] theorem upd_word_tab (k : Nat) (v : Word) : ((Upd.word k v).apply s).tab = storePut (fun _ => 0) s.tab k v := rfl
@[simp] theorem upd_word_resp (k : Nat) (v : Word) : ((Upd.word k v).apply s).resp = s.resp := rfl
@[simp] theorem upd_word_record (k : Nat) (v : Word) : ((Upd.word k v).apply s).record = s.record := rfl
@[simp] theorem upd_word_time (k : Nat) (v : Word) : ((Upd.word k v).apply s).time = s.time := rfl
@[simp] theorem upd_word_ports (k : Nat) (v : Word) : ((Upd.word k v).apply s).ports = s.ports := rfl
@[simp] theorem upd_word_parts (k : Nat) (v : Word) : ((Upd.word k v).apply s).parts = s.parts := rfl
@[simp] theorem upd_word_sites (k : Nat) (v : Word) : ((Upd.word k v).apply s).sites = s.sites := rfl
@[simp] theorem upd_word_tiles (k : Nat) (v : Word) : ((Upd.word k v).apply s).tiles = s.tiles := rfl
@[simp] theorem upd_word_fab (k : Nat) (v : Word) : ((Upd.word k v).apply s).fab = s.fab := rfl
@[simp] theorem upd_word_mig (k : Nat) (v : Word) : ((Upd.word k v).apply s).mig = s.mig := rfl
@[simp] theorem upd_word_flash (k : Nat) (v : Word) : ((Upd.word k v).apply s).flash = s.flash := rfl
@[simp] theorem upd_word_ted (k : Nat) (v : Word) : ((Upd.word k v).apply s).ted = s.ted := rfl
@[simp] theorem upd_word_col (k : Nat) (v : Word) : ((Upd.word k v).apply s).col = s.col := rfl
@[simp] theorem upd_word_load (k : Nat) (v : Word) : ((Upd.word k v).apply s).load = s.load := rfl
@[simp] theorem upd_word_sec (k : Nat) (v : Word) : ((Upd.word k v).apply s).sec = s.sec := rfl
@[simp] theorem upd_word_pwr (k : Nat) (v : Word) : ((Upd.word k v).apply s).pwr = s.pwr := rfl
@[simp] theorem upd_word_snap (k : Nat) (v : Word) : ((Upd.word k v).apply s).snap = s.snap := rfl
@[simp] theorem upd_word_mesh (k : Nat) (v : Word) : ((Upd.word k v).apply s).mesh = s.mesh := rfl
@[simp] theorem upd_word_move (k : Nat) (v : Word) : ((Upd.word k v).apply s).move = s.move := rfl
@[simp] theorem upd_word_land (k : Nat) (v : Word) : ((Upd.word k v).apply s).land = s.land := rfl
@[simp] theorem upd_word_sent (k : Nat) (v : Word) : ((Upd.word k v).apply s).sent = s.sent := rfl
@[simp] theorem upd_word_free (k : Nat) (v : Word) : ((Upd.word k v).apply s).free = s.free := rfl

@[simp] theorem upd_clearTab_pending (lo hi : Nat) : ((Upd.clearTab lo hi).apply s).pending = s.pending := rfl
@[simp] theorem upd_clearTab_regs (lo hi : Nat) : ((Upd.clearTab lo hi).apply s).regs = s.regs := rfl
@[simp] theorem upd_clearTab_staged (lo hi : Nat) : ((Upd.clearTab lo hi).apply s).staged = s.staged := rfl
@[simp] theorem upd_clearTab_mem (lo hi : Nat) : ((Upd.clearTab lo hi).apply s).mem = s.mem := rfl
@[simp] theorem upd_clearTab_tab (lo hi : Nat) : ((Upd.clearTab lo hi).apply s).tab = storeClear s.tab lo hi := rfl
@[simp] theorem upd_clearTab_resp (lo hi : Nat) : ((Upd.clearTab lo hi).apply s).resp = s.resp := rfl
@[simp] theorem upd_clearTab_record (lo hi : Nat) : ((Upd.clearTab lo hi).apply s).record = s.record := rfl
@[simp] theorem upd_clearTab_time (lo hi : Nat) : ((Upd.clearTab lo hi).apply s).time = s.time := rfl
@[simp] theorem upd_clearTab_ports (lo hi : Nat) : ((Upd.clearTab lo hi).apply s).ports = s.ports := rfl
@[simp] theorem upd_clearTab_parts (lo hi : Nat) : ((Upd.clearTab lo hi).apply s).parts = s.parts := rfl
@[simp] theorem upd_clearTab_sites (lo hi : Nat) : ((Upd.clearTab lo hi).apply s).sites = s.sites := rfl
@[simp] theorem upd_clearTab_tiles (lo hi : Nat) : ((Upd.clearTab lo hi).apply s).tiles = s.tiles := rfl
@[simp] theorem upd_clearTab_fab (lo hi : Nat) : ((Upd.clearTab lo hi).apply s).fab = s.fab := rfl
@[simp] theorem upd_clearTab_mig (lo hi : Nat) : ((Upd.clearTab lo hi).apply s).mig = s.mig := rfl
@[simp] theorem upd_clearTab_flash (lo hi : Nat) : ((Upd.clearTab lo hi).apply s).flash = s.flash := rfl
@[simp] theorem upd_clearTab_ted (lo hi : Nat) : ((Upd.clearTab lo hi).apply s).ted = s.ted := rfl
@[simp] theorem upd_clearTab_col (lo hi : Nat) : ((Upd.clearTab lo hi).apply s).col = s.col := rfl
@[simp] theorem upd_clearTab_load (lo hi : Nat) : ((Upd.clearTab lo hi).apply s).load = s.load := rfl
@[simp] theorem upd_clearTab_sec (lo hi : Nat) : ((Upd.clearTab lo hi).apply s).sec = s.sec := rfl
@[simp] theorem upd_clearTab_pwr (lo hi : Nat) : ((Upd.clearTab lo hi).apply s).pwr = s.pwr := rfl
@[simp] theorem upd_clearTab_snap (lo hi : Nat) : ((Upd.clearTab lo hi).apply s).snap = s.snap := rfl
@[simp] theorem upd_clearTab_mesh (lo hi : Nat) : ((Upd.clearTab lo hi).apply s).mesh = s.mesh := rfl
@[simp] theorem upd_clearTab_move (lo hi : Nat) : ((Upd.clearTab lo hi).apply s).move = s.move := rfl
@[simp] theorem upd_clearTab_land (lo hi : Nat) : ((Upd.clearTab lo hi).apply s).land = s.land := rfl
@[simp] theorem upd_clearTab_sent (lo hi : Nat) : ((Upd.clearTab lo hi).apply s).sent = s.sent := rfl
@[simp] theorem upd_clearTab_free (lo hi : Nat) : ((Upd.clearTab lo hi).apply s).free = s.free := rfl

@[simp] theorem upd_resp_pending (r : Resp) : ((Upd.resp r).apply s).pending = s.pending := rfl
@[simp] theorem upd_resp_regs (r : Resp) : ((Upd.resp r).apply s).regs = s.regs := rfl
@[simp] theorem upd_resp_staged (r : Resp) : ((Upd.resp r).apply s).staged = s.staged := rfl
@[simp] theorem upd_resp_mem (r : Resp) : ((Upd.resp r).apply s).mem = s.mem := rfl
@[simp] theorem upd_resp_tab (r : Resp) : ((Upd.resp r).apply s).tab = s.tab := rfl
@[simp] theorem upd_resp_resp (r : Resp) : ((Upd.resp r).apply s).resp = r := rfl
@[simp] theorem upd_resp_record (r : Resp) : ((Upd.resp r).apply s).record = s.record := rfl
@[simp] theorem upd_resp_time (r : Resp) : ((Upd.resp r).apply s).time = s.time := rfl
@[simp] theorem upd_resp_ports (r : Resp) : ((Upd.resp r).apply s).ports = s.ports := rfl
@[simp] theorem upd_resp_parts (r : Resp) : ((Upd.resp r).apply s).parts = s.parts := rfl
@[simp] theorem upd_resp_sites (r : Resp) : ((Upd.resp r).apply s).sites = s.sites := rfl
@[simp] theorem upd_resp_tiles (r : Resp) : ((Upd.resp r).apply s).tiles = s.tiles := rfl
@[simp] theorem upd_resp_fab (r : Resp) : ((Upd.resp r).apply s).fab = s.fab := rfl
@[simp] theorem upd_resp_mig (r : Resp) : ((Upd.resp r).apply s).mig = s.mig := rfl
@[simp] theorem upd_resp_flash (r : Resp) : ((Upd.resp r).apply s).flash = s.flash := rfl
@[simp] theorem upd_resp_ted (r : Resp) : ((Upd.resp r).apply s).ted = s.ted := rfl
@[simp] theorem upd_resp_col (r : Resp) : ((Upd.resp r).apply s).col = s.col := rfl
@[simp] theorem upd_resp_load (r : Resp) : ((Upd.resp r).apply s).load = s.load := rfl
@[simp] theorem upd_resp_sec (r : Resp) : ((Upd.resp r).apply s).sec = s.sec := rfl
@[simp] theorem upd_resp_pwr (r : Resp) : ((Upd.resp r).apply s).pwr = s.pwr := rfl
@[simp] theorem upd_resp_snap (r : Resp) : ((Upd.resp r).apply s).snap = s.snap := rfl
@[simp] theorem upd_resp_mesh (r : Resp) : ((Upd.resp r).apply s).mesh = s.mesh := rfl
@[simp] theorem upd_resp_move (r : Resp) : ((Upd.resp r).apply s).move = s.move := rfl
@[simp] theorem upd_resp_land (r : Resp) : ((Upd.resp r).apply s).land = s.land := rfl
@[simp] theorem upd_resp_sent (r : Resp) : ((Upd.resp r).apply s).sent = s.sent := rfl
@[simp] theorem upd_resp_free (r : Resp) : ((Upd.resp r).apply s).free = s.free := rfl

@[simp] theorem upd_record_pending (r : BootRecord) : ((Upd.record r).apply s).pending = s.pending := rfl
@[simp] theorem upd_record_regs (r : BootRecord) : ((Upd.record r).apply s).regs = s.regs := rfl
@[simp] theorem upd_record_staged (r : BootRecord) : ((Upd.record r).apply s).staged = s.staged := rfl
@[simp] theorem upd_record_mem (r : BootRecord) : ((Upd.record r).apply s).mem = s.mem := rfl
@[simp] theorem upd_record_tab (r : BootRecord) : ((Upd.record r).apply s).tab = s.tab := rfl
@[simp] theorem upd_record_resp (r : BootRecord) : ((Upd.record r).apply s).resp = s.resp := rfl
@[simp] theorem upd_record_record (r : BootRecord) : ((Upd.record r).apply s).record = r := rfl
@[simp] theorem upd_record_time (r : BootRecord) : ((Upd.record r).apply s).time = s.time := rfl
@[simp] theorem upd_record_ports (r : BootRecord) : ((Upd.record r).apply s).ports = s.ports := rfl
@[simp] theorem upd_record_parts (r : BootRecord) : ((Upd.record r).apply s).parts = s.parts := rfl
@[simp] theorem upd_record_sites (r : BootRecord) : ((Upd.record r).apply s).sites = s.sites := rfl
@[simp] theorem upd_record_tiles (r : BootRecord) : ((Upd.record r).apply s).tiles = s.tiles := rfl
@[simp] theorem upd_record_fab (r : BootRecord) : ((Upd.record r).apply s).fab = s.fab := rfl
@[simp] theorem upd_record_mig (r : BootRecord) : ((Upd.record r).apply s).mig = s.mig := rfl
@[simp] theorem upd_record_flash (r : BootRecord) : ((Upd.record r).apply s).flash = s.flash := rfl
@[simp] theorem upd_record_ted (r : BootRecord) : ((Upd.record r).apply s).ted = s.ted := rfl
@[simp] theorem upd_record_col (r : BootRecord) : ((Upd.record r).apply s).col = s.col := rfl
@[simp] theorem upd_record_load (r : BootRecord) : ((Upd.record r).apply s).load = s.load := rfl
@[simp] theorem upd_record_sec (r : BootRecord) : ((Upd.record r).apply s).sec = s.sec := rfl
@[simp] theorem upd_record_pwr (r : BootRecord) : ((Upd.record r).apply s).pwr = s.pwr := rfl
@[simp] theorem upd_record_snap (r : BootRecord) : ((Upd.record r).apply s).snap = s.snap := rfl
@[simp] theorem upd_record_mesh (r : BootRecord) : ((Upd.record r).apply s).mesh = s.mesh := rfl
@[simp] theorem upd_record_move (r : BootRecord) : ((Upd.record r).apply s).move = s.move := rfl
@[simp] theorem upd_record_land (r : BootRecord) : ((Upd.record r).apply s).land = s.land := rfl
@[simp] theorem upd_record_sent (r : BootRecord) : ((Upd.record r).apply s).sent = s.sent := rfl
@[simp] theorem upd_record_free (r : BootRecord) : ((Upd.record r).apply s).free = s.free := rfl

@[simp] theorem upd_port_pending (k : Nat) (v : PortX) : ((Upd.port k v).apply s).pending = s.pending := rfl
@[simp] theorem upd_port_regs (k : Nat) (v : PortX) : ((Upd.port k v).apply s).regs = s.regs := rfl
@[simp] theorem upd_port_staged (k : Nat) (v : PortX) : ((Upd.port k v).apply s).staged = s.staged := rfl
@[simp] theorem upd_port_mem (k : Nat) (v : PortX) : ((Upd.port k v).apply s).mem = s.mem := rfl
@[simp] theorem upd_port_tab (k : Nat) (v : PortX) : ((Upd.port k v).apply s).tab = s.tab := rfl
@[simp] theorem upd_port_resp (k : Nat) (v : PortX) : ((Upd.port k v).apply s).resp = s.resp := rfl
@[simp] theorem upd_port_record (k : Nat) (v : PortX) : ((Upd.port k v).apply s).record = s.record := rfl
@[simp] theorem upd_port_time (k : Nat) (v : PortX) : ((Upd.port k v).apply s).time = s.time := rfl
@[simp] theorem upd_port_ports (k : Nat) (v : PortX) : ((Upd.port k v).apply s).ports = storePut (fun _ => {}) s.ports k v := rfl
@[simp] theorem upd_port_parts (k : Nat) (v : PortX) : ((Upd.port k v).apply s).parts = s.parts := rfl
@[simp] theorem upd_port_sites (k : Nat) (v : PortX) : ((Upd.port k v).apply s).sites = s.sites := rfl
@[simp] theorem upd_port_tiles (k : Nat) (v : PortX) : ((Upd.port k v).apply s).tiles = s.tiles := rfl
@[simp] theorem upd_port_fab (k : Nat) (v : PortX) : ((Upd.port k v).apply s).fab = s.fab := rfl
@[simp] theorem upd_port_mig (k : Nat) (v : PortX) : ((Upd.port k v).apply s).mig = s.mig := rfl
@[simp] theorem upd_port_flash (k : Nat) (v : PortX) : ((Upd.port k v).apply s).flash = s.flash := rfl
@[simp] theorem upd_port_ted (k : Nat) (v : PortX) : ((Upd.port k v).apply s).ted = s.ted := rfl
@[simp] theorem upd_port_col (k : Nat) (v : PortX) : ((Upd.port k v).apply s).col = s.col := rfl
@[simp] theorem upd_port_load (k : Nat) (v : PortX) : ((Upd.port k v).apply s).load = s.load := rfl
@[simp] theorem upd_port_sec (k : Nat) (v : PortX) : ((Upd.port k v).apply s).sec = s.sec := rfl
@[simp] theorem upd_port_pwr (k : Nat) (v : PortX) : ((Upd.port k v).apply s).pwr = s.pwr := rfl
@[simp] theorem upd_port_snap (k : Nat) (v : PortX) : ((Upd.port k v).apply s).snap = s.snap := rfl
@[simp] theorem upd_port_mesh (k : Nat) (v : PortX) : ((Upd.port k v).apply s).mesh = s.mesh := rfl
@[simp] theorem upd_port_move (k : Nat) (v : PortX) : ((Upd.port k v).apply s).move = s.move := rfl
@[simp] theorem upd_port_land (k : Nat) (v : PortX) : ((Upd.port k v).apply s).land = s.land := rfl
@[simp] theorem upd_port_sent (k : Nat) (v : PortX) : ((Upd.port k v).apply s).sent = s.sent := rfl
@[simp] theorem upd_port_free (k : Nat) (v : PortX) : ((Upd.port k v).apply s).free = s.free := rfl

@[simp] theorem upd_part_pending (k : Nat) (v : PartX) : ((Upd.part k v).apply s).pending = s.pending := rfl
@[simp] theorem upd_part_regs (k : Nat) (v : PartX) : ((Upd.part k v).apply s).regs = s.regs := rfl
@[simp] theorem upd_part_staged (k : Nat) (v : PartX) : ((Upd.part k v).apply s).staged = s.staged := rfl
@[simp] theorem upd_part_mem (k : Nat) (v : PartX) : ((Upd.part k v).apply s).mem = s.mem := rfl
@[simp] theorem upd_part_tab (k : Nat) (v : PartX) : ((Upd.part k v).apply s).tab = s.tab := rfl
@[simp] theorem upd_part_resp (k : Nat) (v : PartX) : ((Upd.part k v).apply s).resp = s.resp := rfl
@[simp] theorem upd_part_record (k : Nat) (v : PartX) : ((Upd.part k v).apply s).record = s.record := rfl
@[simp] theorem upd_part_time (k : Nat) (v : PartX) : ((Upd.part k v).apply s).time = s.time := rfl
@[simp] theorem upd_part_ports (k : Nat) (v : PartX) : ((Upd.part k v).apply s).ports = s.ports := rfl
@[simp] theorem upd_part_parts (k : Nat) (v : PartX) : ((Upd.part k v).apply s).parts = storePut (fun _ => {}) s.parts k v := rfl
@[simp] theorem upd_part_sites (k : Nat) (v : PartX) : ((Upd.part k v).apply s).sites = s.sites := rfl
@[simp] theorem upd_part_tiles (k : Nat) (v : PartX) : ((Upd.part k v).apply s).tiles = s.tiles := rfl
@[simp] theorem upd_part_fab (k : Nat) (v : PartX) : ((Upd.part k v).apply s).fab = s.fab := rfl
@[simp] theorem upd_part_mig (k : Nat) (v : PartX) : ((Upd.part k v).apply s).mig = s.mig := rfl
@[simp] theorem upd_part_flash (k : Nat) (v : PartX) : ((Upd.part k v).apply s).flash = s.flash := rfl
@[simp] theorem upd_part_ted (k : Nat) (v : PartX) : ((Upd.part k v).apply s).ted = s.ted := rfl
@[simp] theorem upd_part_col (k : Nat) (v : PartX) : ((Upd.part k v).apply s).col = s.col := rfl
@[simp] theorem upd_part_load (k : Nat) (v : PartX) : ((Upd.part k v).apply s).load = s.load := rfl
@[simp] theorem upd_part_sec (k : Nat) (v : PartX) : ((Upd.part k v).apply s).sec = s.sec := rfl
@[simp] theorem upd_part_pwr (k : Nat) (v : PartX) : ((Upd.part k v).apply s).pwr = s.pwr := rfl
@[simp] theorem upd_part_snap (k : Nat) (v : PartX) : ((Upd.part k v).apply s).snap = s.snap := rfl
@[simp] theorem upd_part_mesh (k : Nat) (v : PartX) : ((Upd.part k v).apply s).mesh = s.mesh := rfl
@[simp] theorem upd_part_move (k : Nat) (v : PartX) : ((Upd.part k v).apply s).move = s.move := rfl
@[simp] theorem upd_part_land (k : Nat) (v : PartX) : ((Upd.part k v).apply s).land = s.land := rfl
@[simp] theorem upd_part_sent (k : Nat) (v : PartX) : ((Upd.part k v).apply s).sent = s.sent := rfl
@[simp] theorem upd_part_free (k : Nat) (v : PartX) : ((Upd.part k v).apply s).free = s.free := rfl

@[simp] theorem upd_time_pending (t : TimeX) : ((Upd.time t).apply s).pending = s.pending := rfl
@[simp] theorem upd_time_regs (t : TimeX) : ((Upd.time t).apply s).regs = s.regs := rfl
@[simp] theorem upd_time_staged (t : TimeX) : ((Upd.time t).apply s).staged = s.staged := rfl
@[simp] theorem upd_time_mem (t : TimeX) : ((Upd.time t).apply s).mem = s.mem := rfl
@[simp] theorem upd_time_tab (t : TimeX) : ((Upd.time t).apply s).tab = s.tab := rfl
@[simp] theorem upd_time_resp (t : TimeX) : ((Upd.time t).apply s).resp = s.resp := rfl
@[simp] theorem upd_time_record (t : TimeX) : ((Upd.time t).apply s).record = s.record := rfl
@[simp] theorem upd_time_time (t : TimeX) : ((Upd.time t).apply s).time = t := rfl
@[simp] theorem upd_time_ports (t : TimeX) : ((Upd.time t).apply s).ports = s.ports := rfl
@[simp] theorem upd_time_parts (t : TimeX) : ((Upd.time t).apply s).parts = s.parts := rfl
@[simp] theorem upd_time_sites (t : TimeX) : ((Upd.time t).apply s).sites = s.sites := rfl
@[simp] theorem upd_time_tiles (t : TimeX) : ((Upd.time t).apply s).tiles = s.tiles := rfl
@[simp] theorem upd_time_fab (t : TimeX) : ((Upd.time t).apply s).fab = s.fab := rfl
@[simp] theorem upd_time_mig (t : TimeX) : ((Upd.time t).apply s).mig = s.mig := rfl
@[simp] theorem upd_time_flash (t : TimeX) : ((Upd.time t).apply s).flash = s.flash := rfl
@[simp] theorem upd_time_ted (t : TimeX) : ((Upd.time t).apply s).ted = s.ted := rfl
@[simp] theorem upd_time_col (t : TimeX) : ((Upd.time t).apply s).col = s.col := rfl
@[simp] theorem upd_time_load (t : TimeX) : ((Upd.time t).apply s).load = s.load := rfl
@[simp] theorem upd_time_sec (t : TimeX) : ((Upd.time t).apply s).sec = s.sec := rfl
@[simp] theorem upd_time_pwr (t : TimeX) : ((Upd.time t).apply s).pwr = s.pwr := rfl
@[simp] theorem upd_time_snap (t : TimeX) : ((Upd.time t).apply s).snap = s.snap := rfl
@[simp] theorem upd_time_mesh (t : TimeX) : ((Upd.time t).apply s).mesh = s.mesh := rfl
@[simp] theorem upd_time_move (t : TimeX) : ((Upd.time t).apply s).move = s.move := rfl
@[simp] theorem upd_time_land (t : TimeX) : ((Upd.time t).apply s).land = s.land := rfl
@[simp] theorem upd_time_sent (t : TimeX) : ((Upd.time t).apply s).sent = s.sent := rfl
@[simp] theorem upd_time_free (t : TimeX) : ((Upd.time t).apply s).free = s.free := rfl

@[simp] theorem upd_site_pending (k : Nat) (v : SiteX) : ((Upd.site k v).apply s).pending = s.pending := rfl
@[simp] theorem upd_site_regs (k : Nat) (v : SiteX) : ((Upd.site k v).apply s).regs = s.regs := rfl
@[simp] theorem upd_site_staged (k : Nat) (v : SiteX) : ((Upd.site k v).apply s).staged = s.staged := rfl
@[simp] theorem upd_site_mem (k : Nat) (v : SiteX) : ((Upd.site k v).apply s).mem = s.mem := rfl
@[simp] theorem upd_site_tab (k : Nat) (v : SiteX) : ((Upd.site k v).apply s).tab = s.tab := rfl
@[simp] theorem upd_site_resp (k : Nat) (v : SiteX) : ((Upd.site k v).apply s).resp = s.resp := rfl
@[simp] theorem upd_site_record (k : Nat) (v : SiteX) : ((Upd.site k v).apply s).record = s.record := rfl
@[simp] theorem upd_site_time (k : Nat) (v : SiteX) : ((Upd.site k v).apply s).time = s.time := rfl
@[simp] theorem upd_site_ports (k : Nat) (v : SiteX) : ((Upd.site k v).apply s).ports = s.ports := rfl
@[simp] theorem upd_site_parts (k : Nat) (v : SiteX) : ((Upd.site k v).apply s).parts = s.parts := rfl
@[simp] theorem upd_site_sites (k : Nat) (v : SiteX) : ((Upd.site k v).apply s).sites = storePut (fun _ => {}) s.sites k v := rfl
@[simp] theorem upd_site_tiles (k : Nat) (v : SiteX) : ((Upd.site k v).apply s).tiles = s.tiles := rfl
@[simp] theorem upd_site_fab (k : Nat) (v : SiteX) : ((Upd.site k v).apply s).fab = s.fab := rfl
@[simp] theorem upd_site_mig (k : Nat) (v : SiteX) : ((Upd.site k v).apply s).mig = s.mig := rfl
@[simp] theorem upd_site_flash (k : Nat) (v : SiteX) : ((Upd.site k v).apply s).flash = s.flash := rfl
@[simp] theorem upd_site_ted (k : Nat) (v : SiteX) : ((Upd.site k v).apply s).ted = s.ted := rfl
@[simp] theorem upd_site_col (k : Nat) (v : SiteX) : ((Upd.site k v).apply s).col = s.col := rfl
@[simp] theorem upd_site_load (k : Nat) (v : SiteX) : ((Upd.site k v).apply s).load = s.load := rfl
@[simp] theorem upd_site_sec (k : Nat) (v : SiteX) : ((Upd.site k v).apply s).sec = s.sec := rfl
@[simp] theorem upd_site_pwr (k : Nat) (v : SiteX) : ((Upd.site k v).apply s).pwr = s.pwr := rfl
@[simp] theorem upd_site_snap (k : Nat) (v : SiteX) : ((Upd.site k v).apply s).snap = s.snap := rfl
@[simp] theorem upd_site_mesh (k : Nat) (v : SiteX) : ((Upd.site k v).apply s).mesh = s.mesh := rfl
@[simp] theorem upd_site_move (k : Nat) (v : SiteX) : ((Upd.site k v).apply s).move = s.move := rfl
@[simp] theorem upd_site_land (k : Nat) (v : SiteX) : ((Upd.site k v).apply s).land = s.land := rfl
@[simp] theorem upd_site_sent (k : Nat) (v : SiteX) : ((Upd.site k v).apply s).sent = s.sent := rfl
@[simp] theorem upd_site_free (k : Nat) (v : SiteX) : ((Upd.site k v).apply s).free = s.free := rfl

@[simp] theorem upd_tile_pending (k : Nat) (v : TileX) : ((Upd.tile k v).apply s).pending = s.pending := rfl
@[simp] theorem upd_tile_regs (k : Nat) (v : TileX) : ((Upd.tile k v).apply s).regs = s.regs := rfl
@[simp] theorem upd_tile_staged (k : Nat) (v : TileX) : ((Upd.tile k v).apply s).staged = s.staged := rfl
@[simp] theorem upd_tile_mem (k : Nat) (v : TileX) : ((Upd.tile k v).apply s).mem = s.mem := rfl
@[simp] theorem upd_tile_tab (k : Nat) (v : TileX) : ((Upd.tile k v).apply s).tab = s.tab := rfl
@[simp] theorem upd_tile_resp (k : Nat) (v : TileX) : ((Upd.tile k v).apply s).resp = s.resp := rfl
@[simp] theorem upd_tile_record (k : Nat) (v : TileX) : ((Upd.tile k v).apply s).record = s.record := rfl
@[simp] theorem upd_tile_time (k : Nat) (v : TileX) : ((Upd.tile k v).apply s).time = s.time := rfl
@[simp] theorem upd_tile_ports (k : Nat) (v : TileX) : ((Upd.tile k v).apply s).ports = s.ports := rfl
@[simp] theorem upd_tile_parts (k : Nat) (v : TileX) : ((Upd.tile k v).apply s).parts = s.parts := rfl
@[simp] theorem upd_tile_sites (k : Nat) (v : TileX) : ((Upd.tile k v).apply s).sites = s.sites := rfl
@[simp] theorem upd_tile_tiles (k : Nat) (v : TileX) : ((Upd.tile k v).apply s).tiles = storePut (fun _ => {}) s.tiles k v := rfl
@[simp] theorem upd_tile_fab (k : Nat) (v : TileX) : ((Upd.tile k v).apply s).fab = s.fab := rfl
@[simp] theorem upd_tile_mig (k : Nat) (v : TileX) : ((Upd.tile k v).apply s).mig = s.mig := rfl
@[simp] theorem upd_tile_flash (k : Nat) (v : TileX) : ((Upd.tile k v).apply s).flash = s.flash := rfl
@[simp] theorem upd_tile_ted (k : Nat) (v : TileX) : ((Upd.tile k v).apply s).ted = s.ted := rfl
@[simp] theorem upd_tile_col (k : Nat) (v : TileX) : ((Upd.tile k v).apply s).col = s.col := rfl
@[simp] theorem upd_tile_load (k : Nat) (v : TileX) : ((Upd.tile k v).apply s).load = s.load := rfl
@[simp] theorem upd_tile_sec (k : Nat) (v : TileX) : ((Upd.tile k v).apply s).sec = s.sec := rfl
@[simp] theorem upd_tile_pwr (k : Nat) (v : TileX) : ((Upd.tile k v).apply s).pwr = s.pwr := rfl
@[simp] theorem upd_tile_snap (k : Nat) (v : TileX) : ((Upd.tile k v).apply s).snap = s.snap := rfl
@[simp] theorem upd_tile_mesh (k : Nat) (v : TileX) : ((Upd.tile k v).apply s).mesh = s.mesh := rfl
@[simp] theorem upd_tile_move (k : Nat) (v : TileX) : ((Upd.tile k v).apply s).move = s.move := rfl
@[simp] theorem upd_tile_land (k : Nat) (v : TileX) : ((Upd.tile k v).apply s).land = s.land := rfl
@[simp] theorem upd_tile_sent (k : Nat) (v : TileX) : ((Upd.tile k v).apply s).sent = s.sent := rfl
@[simp] theorem upd_tile_free (k : Nat) (v : TileX) : ((Upd.tile k v).apply s).free = s.free := rfl

@[simp] theorem upd_fab_pending (x : FabX) : ((Upd.fab x).apply s).pending = s.pending := rfl
@[simp] theorem upd_fab_regs (x : FabX) : ((Upd.fab x).apply s).regs = s.regs := rfl
@[simp] theorem upd_fab_staged (x : FabX) : ((Upd.fab x).apply s).staged = s.staged := rfl
@[simp] theorem upd_fab_mem (x : FabX) : ((Upd.fab x).apply s).mem = s.mem := rfl
@[simp] theorem upd_fab_tab (x : FabX) : ((Upd.fab x).apply s).tab = s.tab := rfl
@[simp] theorem upd_fab_resp (x : FabX) : ((Upd.fab x).apply s).resp = s.resp := rfl
@[simp] theorem upd_fab_record (x : FabX) : ((Upd.fab x).apply s).record = s.record := rfl
@[simp] theorem upd_fab_time (x : FabX) : ((Upd.fab x).apply s).time = s.time := rfl
@[simp] theorem upd_fab_ports (x : FabX) : ((Upd.fab x).apply s).ports = s.ports := rfl
@[simp] theorem upd_fab_parts (x : FabX) : ((Upd.fab x).apply s).parts = s.parts := rfl
@[simp] theorem upd_fab_sites (x : FabX) : ((Upd.fab x).apply s).sites = s.sites := rfl
@[simp] theorem upd_fab_tiles (x : FabX) : ((Upd.fab x).apply s).tiles = s.tiles := rfl
@[simp] theorem upd_fab_fab (x : FabX) : ((Upd.fab x).apply s).fab = x := rfl
@[simp] theorem upd_fab_mig (x : FabX) : ((Upd.fab x).apply s).mig = s.mig := rfl
@[simp] theorem upd_fab_flash (x : FabX) : ((Upd.fab x).apply s).flash = s.flash := rfl
@[simp] theorem upd_fab_ted (x : FabX) : ((Upd.fab x).apply s).ted = s.ted := rfl
@[simp] theorem upd_fab_col (x : FabX) : ((Upd.fab x).apply s).col = s.col := rfl
@[simp] theorem upd_fab_load (x : FabX) : ((Upd.fab x).apply s).load = s.load := rfl
@[simp] theorem upd_fab_sec (x : FabX) : ((Upd.fab x).apply s).sec = s.sec := rfl
@[simp] theorem upd_fab_pwr (x : FabX) : ((Upd.fab x).apply s).pwr = s.pwr := rfl
@[simp] theorem upd_fab_snap (x : FabX) : ((Upd.fab x).apply s).snap = s.snap := rfl
@[simp] theorem upd_fab_mesh (x : FabX) : ((Upd.fab x).apply s).mesh = s.mesh := rfl
@[simp] theorem upd_fab_move (x : FabX) : ((Upd.fab x).apply s).move = s.move := rfl
@[simp] theorem upd_fab_land (x : FabX) : ((Upd.fab x).apply s).land = s.land := rfl
@[simp] theorem upd_fab_sent (x : FabX) : ((Upd.fab x).apply s).sent = s.sent := rfl
@[simp] theorem upd_fab_free (x : FabX) : ((Upd.fab x).apply s).free = s.free := rfl

@[simp] theorem upd_mig_pending (m : MigX) : ((Upd.mig m).apply s).pending = s.pending := rfl
@[simp] theorem upd_mig_regs (m : MigX) : ((Upd.mig m).apply s).regs = s.regs := rfl
@[simp] theorem upd_mig_staged (m : MigX) : ((Upd.mig m).apply s).staged = s.staged := rfl
@[simp] theorem upd_mig_mem (m : MigX) : ((Upd.mig m).apply s).mem = s.mem := rfl
@[simp] theorem upd_mig_tab (m : MigX) : ((Upd.mig m).apply s).tab = s.tab := rfl
@[simp] theorem upd_mig_resp (m : MigX) : ((Upd.mig m).apply s).resp = s.resp := rfl
@[simp] theorem upd_mig_record (m : MigX) : ((Upd.mig m).apply s).record = s.record := rfl
@[simp] theorem upd_mig_time (m : MigX) : ((Upd.mig m).apply s).time = s.time := rfl
@[simp] theorem upd_mig_ports (m : MigX) : ((Upd.mig m).apply s).ports = s.ports := rfl
@[simp] theorem upd_mig_parts (m : MigX) : ((Upd.mig m).apply s).parts = s.parts := rfl
@[simp] theorem upd_mig_sites (m : MigX) : ((Upd.mig m).apply s).sites = s.sites := rfl
@[simp] theorem upd_mig_tiles (m : MigX) : ((Upd.mig m).apply s).tiles = s.tiles := rfl
@[simp] theorem upd_mig_fab (m : MigX) : ((Upd.mig m).apply s).fab = s.fab := rfl
@[simp] theorem upd_mig_mig (m : MigX) : ((Upd.mig m).apply s).mig = m := rfl
@[simp] theorem upd_mig_flash (m : MigX) : ((Upd.mig m).apply s).flash = s.flash := rfl
@[simp] theorem upd_mig_ted (m : MigX) : ((Upd.mig m).apply s).ted = s.ted := rfl
@[simp] theorem upd_mig_col (m : MigX) : ((Upd.mig m).apply s).col = s.col := rfl
@[simp] theorem upd_mig_load (m : MigX) : ((Upd.mig m).apply s).load = s.load := rfl
@[simp] theorem upd_mig_sec (m : MigX) : ((Upd.mig m).apply s).sec = s.sec := rfl
@[simp] theorem upd_mig_pwr (m : MigX) : ((Upd.mig m).apply s).pwr = s.pwr := rfl
@[simp] theorem upd_mig_snap (m : MigX) : ((Upd.mig m).apply s).snap = s.snap := rfl
@[simp] theorem upd_mig_mesh (m : MigX) : ((Upd.mig m).apply s).mesh = s.mesh := rfl
@[simp] theorem upd_mig_move (m : MigX) : ((Upd.mig m).apply s).move = s.move := rfl
@[simp] theorem upd_mig_land (m : MigX) : ((Upd.mig m).apply s).land = s.land := rfl
@[simp] theorem upd_mig_sent (m : MigX) : ((Upd.mig m).apply s).sent = s.sent := rfl
@[simp] theorem upd_mig_free (m : MigX) : ((Upd.mig m).apply s).free = s.free := rfl

@[simp] theorem upd_flash_pending (x : FlashX) : ((Upd.flash x).apply s).pending = s.pending := rfl
@[simp] theorem upd_flash_regs (x : FlashX) : ((Upd.flash x).apply s).regs = s.regs := rfl
@[simp] theorem upd_flash_staged (x : FlashX) : ((Upd.flash x).apply s).staged = s.staged := rfl
@[simp] theorem upd_flash_mem (x : FlashX) : ((Upd.flash x).apply s).mem = s.mem := rfl
@[simp] theorem upd_flash_tab (x : FlashX) : ((Upd.flash x).apply s).tab = s.tab := rfl
@[simp] theorem upd_flash_resp (x : FlashX) : ((Upd.flash x).apply s).resp = s.resp := rfl
@[simp] theorem upd_flash_record (x : FlashX) : ((Upd.flash x).apply s).record = s.record := rfl
@[simp] theorem upd_flash_time (x : FlashX) : ((Upd.flash x).apply s).time = s.time := rfl
@[simp] theorem upd_flash_ports (x : FlashX) : ((Upd.flash x).apply s).ports = s.ports := rfl
@[simp] theorem upd_flash_parts (x : FlashX) : ((Upd.flash x).apply s).parts = s.parts := rfl
@[simp] theorem upd_flash_sites (x : FlashX) : ((Upd.flash x).apply s).sites = s.sites := rfl
@[simp] theorem upd_flash_tiles (x : FlashX) : ((Upd.flash x).apply s).tiles = s.tiles := rfl
@[simp] theorem upd_flash_fab (x : FlashX) : ((Upd.flash x).apply s).fab = s.fab := rfl
@[simp] theorem upd_flash_mig (x : FlashX) : ((Upd.flash x).apply s).mig = s.mig := rfl
@[simp] theorem upd_flash_flash (x : FlashX) : ((Upd.flash x).apply s).flash = x := rfl
@[simp] theorem upd_flash_ted (x : FlashX) : ((Upd.flash x).apply s).ted = s.ted := rfl
@[simp] theorem upd_flash_col (x : FlashX) : ((Upd.flash x).apply s).col = s.col := rfl
@[simp] theorem upd_flash_load (x : FlashX) : ((Upd.flash x).apply s).load = s.load := rfl
@[simp] theorem upd_flash_sec (x : FlashX) : ((Upd.flash x).apply s).sec = s.sec := rfl
@[simp] theorem upd_flash_pwr (x : FlashX) : ((Upd.flash x).apply s).pwr = s.pwr := rfl
@[simp] theorem upd_flash_snap (x : FlashX) : ((Upd.flash x).apply s).snap = s.snap := rfl
@[simp] theorem upd_flash_mesh (x : FlashX) : ((Upd.flash x).apply s).mesh = s.mesh := rfl
@[simp] theorem upd_flash_move (x : FlashX) : ((Upd.flash x).apply s).move = s.move := rfl
@[simp] theorem upd_flash_land (x : FlashX) : ((Upd.flash x).apply s).land = s.land := rfl
@[simp] theorem upd_flash_sent (x : FlashX) : ((Upd.flash x).apply s).sent = s.sent := rfl
@[simp] theorem upd_flash_free (x : FlashX) : ((Upd.flash x).apply s).free = s.free := rfl

@[simp] theorem upd_ted_pending (x : TedX) : ((Upd.ted x).apply s).pending = s.pending := rfl
@[simp] theorem upd_ted_regs (x : TedX) : ((Upd.ted x).apply s).regs = s.regs := rfl
@[simp] theorem upd_ted_staged (x : TedX) : ((Upd.ted x).apply s).staged = s.staged := rfl
@[simp] theorem upd_ted_mem (x : TedX) : ((Upd.ted x).apply s).mem = s.mem := rfl
@[simp] theorem upd_ted_tab (x : TedX) : ((Upd.ted x).apply s).tab = s.tab := rfl
@[simp] theorem upd_ted_resp (x : TedX) : ((Upd.ted x).apply s).resp = s.resp := rfl
@[simp] theorem upd_ted_record (x : TedX) : ((Upd.ted x).apply s).record = s.record := rfl
@[simp] theorem upd_ted_time (x : TedX) : ((Upd.ted x).apply s).time = s.time := rfl
@[simp] theorem upd_ted_ports (x : TedX) : ((Upd.ted x).apply s).ports = s.ports := rfl
@[simp] theorem upd_ted_parts (x : TedX) : ((Upd.ted x).apply s).parts = s.parts := rfl
@[simp] theorem upd_ted_sites (x : TedX) : ((Upd.ted x).apply s).sites = s.sites := rfl
@[simp] theorem upd_ted_tiles (x : TedX) : ((Upd.ted x).apply s).tiles = s.tiles := rfl
@[simp] theorem upd_ted_fab (x : TedX) : ((Upd.ted x).apply s).fab = s.fab := rfl
@[simp] theorem upd_ted_mig (x : TedX) : ((Upd.ted x).apply s).mig = s.mig := rfl
@[simp] theorem upd_ted_flash (x : TedX) : ((Upd.ted x).apply s).flash = s.flash := rfl
@[simp] theorem upd_ted_ted (x : TedX) : ((Upd.ted x).apply s).ted = x := rfl
@[simp] theorem upd_ted_col (x : TedX) : ((Upd.ted x).apply s).col = s.col := rfl
@[simp] theorem upd_ted_load (x : TedX) : ((Upd.ted x).apply s).load = s.load := rfl
@[simp] theorem upd_ted_sec (x : TedX) : ((Upd.ted x).apply s).sec = s.sec := rfl
@[simp] theorem upd_ted_pwr (x : TedX) : ((Upd.ted x).apply s).pwr = s.pwr := rfl
@[simp] theorem upd_ted_snap (x : TedX) : ((Upd.ted x).apply s).snap = s.snap := rfl
@[simp] theorem upd_ted_mesh (x : TedX) : ((Upd.ted x).apply s).mesh = s.mesh := rfl
@[simp] theorem upd_ted_move (x : TedX) : ((Upd.ted x).apply s).move = s.move := rfl
@[simp] theorem upd_ted_land (x : TedX) : ((Upd.ted x).apply s).land = s.land := rfl
@[simp] theorem upd_ted_sent (x : TedX) : ((Upd.ted x).apply s).sent = s.sent := rfl
@[simp] theorem upd_ted_free (x : TedX) : ((Upd.ted x).apply s).free = s.free := rfl

@[simp] theorem upd_col_pending (x : ColX) : ((Upd.col x).apply s).pending = s.pending := rfl
@[simp] theorem upd_col_regs (x : ColX) : ((Upd.col x).apply s).regs = s.regs := rfl
@[simp] theorem upd_col_staged (x : ColX) : ((Upd.col x).apply s).staged = s.staged := rfl
@[simp] theorem upd_col_mem (x : ColX) : ((Upd.col x).apply s).mem = s.mem := rfl
@[simp] theorem upd_col_tab (x : ColX) : ((Upd.col x).apply s).tab = s.tab := rfl
@[simp] theorem upd_col_resp (x : ColX) : ((Upd.col x).apply s).resp = s.resp := rfl
@[simp] theorem upd_col_record (x : ColX) : ((Upd.col x).apply s).record = s.record := rfl
@[simp] theorem upd_col_time (x : ColX) : ((Upd.col x).apply s).time = s.time := rfl
@[simp] theorem upd_col_ports (x : ColX) : ((Upd.col x).apply s).ports = s.ports := rfl
@[simp] theorem upd_col_parts (x : ColX) : ((Upd.col x).apply s).parts = s.parts := rfl
@[simp] theorem upd_col_sites (x : ColX) : ((Upd.col x).apply s).sites = s.sites := rfl
@[simp] theorem upd_col_tiles (x : ColX) : ((Upd.col x).apply s).tiles = s.tiles := rfl
@[simp] theorem upd_col_fab (x : ColX) : ((Upd.col x).apply s).fab = s.fab := rfl
@[simp] theorem upd_col_mig (x : ColX) : ((Upd.col x).apply s).mig = s.mig := rfl
@[simp] theorem upd_col_flash (x : ColX) : ((Upd.col x).apply s).flash = s.flash := rfl
@[simp] theorem upd_col_ted (x : ColX) : ((Upd.col x).apply s).ted = s.ted := rfl
@[simp] theorem upd_col_col (x : ColX) : ((Upd.col x).apply s).col = x := rfl
@[simp] theorem upd_col_load (x : ColX) : ((Upd.col x).apply s).load = s.load := rfl
@[simp] theorem upd_col_sec (x : ColX) : ((Upd.col x).apply s).sec = s.sec := rfl
@[simp] theorem upd_col_pwr (x : ColX) : ((Upd.col x).apply s).pwr = s.pwr := rfl
@[simp] theorem upd_col_snap (x : ColX) : ((Upd.col x).apply s).snap = s.snap := rfl
@[simp] theorem upd_col_mesh (x : ColX) : ((Upd.col x).apply s).mesh = s.mesh := rfl
@[simp] theorem upd_col_move (x : ColX) : ((Upd.col x).apply s).move = s.move := rfl
@[simp] theorem upd_col_land (x : ColX) : ((Upd.col x).apply s).land = s.land := rfl
@[simp] theorem upd_col_sent (x : ColX) : ((Upd.col x).apply s).sent = s.sent := rfl
@[simp] theorem upd_col_free (x : ColX) : ((Upd.col x).apply s).free = s.free := rfl

@[simp] theorem upd_load_pending (x : LoadX) : ((Upd.load x).apply s).pending = s.pending := rfl
@[simp] theorem upd_load_regs (x : LoadX) : ((Upd.load x).apply s).regs = s.regs := rfl
@[simp] theorem upd_load_staged (x : LoadX) : ((Upd.load x).apply s).staged = s.staged := rfl
@[simp] theorem upd_load_mem (x : LoadX) : ((Upd.load x).apply s).mem = s.mem := rfl
@[simp] theorem upd_load_tab (x : LoadX) : ((Upd.load x).apply s).tab = s.tab := rfl
@[simp] theorem upd_load_resp (x : LoadX) : ((Upd.load x).apply s).resp = s.resp := rfl
@[simp] theorem upd_load_record (x : LoadX) : ((Upd.load x).apply s).record = s.record := rfl
@[simp] theorem upd_load_time (x : LoadX) : ((Upd.load x).apply s).time = s.time := rfl
@[simp] theorem upd_load_ports (x : LoadX) : ((Upd.load x).apply s).ports = s.ports := rfl
@[simp] theorem upd_load_parts (x : LoadX) : ((Upd.load x).apply s).parts = s.parts := rfl
@[simp] theorem upd_load_sites (x : LoadX) : ((Upd.load x).apply s).sites = s.sites := rfl
@[simp] theorem upd_load_tiles (x : LoadX) : ((Upd.load x).apply s).tiles = s.tiles := rfl
@[simp] theorem upd_load_fab (x : LoadX) : ((Upd.load x).apply s).fab = s.fab := rfl
@[simp] theorem upd_load_mig (x : LoadX) : ((Upd.load x).apply s).mig = s.mig := rfl
@[simp] theorem upd_load_flash (x : LoadX) : ((Upd.load x).apply s).flash = s.flash := rfl
@[simp] theorem upd_load_ted (x : LoadX) : ((Upd.load x).apply s).ted = s.ted := rfl
@[simp] theorem upd_load_col (x : LoadX) : ((Upd.load x).apply s).col = s.col := rfl
@[simp] theorem upd_load_load (x : LoadX) : ((Upd.load x).apply s).load = x := rfl
@[simp] theorem upd_load_sec (x : LoadX) : ((Upd.load x).apply s).sec = s.sec := rfl
@[simp] theorem upd_load_pwr (x : LoadX) : ((Upd.load x).apply s).pwr = s.pwr := rfl
@[simp] theorem upd_load_snap (x : LoadX) : ((Upd.load x).apply s).snap = s.snap := rfl
@[simp] theorem upd_load_mesh (x : LoadX) : ((Upd.load x).apply s).mesh = s.mesh := rfl
@[simp] theorem upd_load_move (x : LoadX) : ((Upd.load x).apply s).move = s.move := rfl
@[simp] theorem upd_load_land (x : LoadX) : ((Upd.load x).apply s).land = s.land := rfl
@[simp] theorem upd_load_sent (x : LoadX) : ((Upd.load x).apply s).sent = s.sent := rfl
@[simp] theorem upd_load_free (x : LoadX) : ((Upd.load x).apply s).free = s.free := rfl

@[simp] theorem upd_sec_pending (x : SecX) : ((Upd.sec x).apply s).pending = s.pending := rfl
@[simp] theorem upd_sec_regs (x : SecX) : ((Upd.sec x).apply s).regs = s.regs := rfl
@[simp] theorem upd_sec_staged (x : SecX) : ((Upd.sec x).apply s).staged = s.staged := rfl
@[simp] theorem upd_sec_mem (x : SecX) : ((Upd.sec x).apply s).mem = s.mem := rfl
@[simp] theorem upd_sec_tab (x : SecX) : ((Upd.sec x).apply s).tab = s.tab := rfl
@[simp] theorem upd_sec_resp (x : SecX) : ((Upd.sec x).apply s).resp = s.resp := rfl
@[simp] theorem upd_sec_record (x : SecX) : ((Upd.sec x).apply s).record = s.record := rfl
@[simp] theorem upd_sec_time (x : SecX) : ((Upd.sec x).apply s).time = s.time := rfl
@[simp] theorem upd_sec_ports (x : SecX) : ((Upd.sec x).apply s).ports = s.ports := rfl
@[simp] theorem upd_sec_parts (x : SecX) : ((Upd.sec x).apply s).parts = s.parts := rfl
@[simp] theorem upd_sec_sites (x : SecX) : ((Upd.sec x).apply s).sites = s.sites := rfl
@[simp] theorem upd_sec_tiles (x : SecX) : ((Upd.sec x).apply s).tiles = s.tiles := rfl
@[simp] theorem upd_sec_fab (x : SecX) : ((Upd.sec x).apply s).fab = s.fab := rfl
@[simp] theorem upd_sec_mig (x : SecX) : ((Upd.sec x).apply s).mig = s.mig := rfl
@[simp] theorem upd_sec_flash (x : SecX) : ((Upd.sec x).apply s).flash = s.flash := rfl
@[simp] theorem upd_sec_ted (x : SecX) : ((Upd.sec x).apply s).ted = s.ted := rfl
@[simp] theorem upd_sec_col (x : SecX) : ((Upd.sec x).apply s).col = s.col := rfl
@[simp] theorem upd_sec_load (x : SecX) : ((Upd.sec x).apply s).load = s.load := rfl
@[simp] theorem upd_sec_sec (x : SecX) : ((Upd.sec x).apply s).sec = x := rfl
@[simp] theorem upd_sec_pwr (x : SecX) : ((Upd.sec x).apply s).pwr = s.pwr := rfl
@[simp] theorem upd_sec_snap (x : SecX) : ((Upd.sec x).apply s).snap = s.snap := rfl
@[simp] theorem upd_sec_mesh (x : SecX) : ((Upd.sec x).apply s).mesh = s.mesh := rfl
@[simp] theorem upd_sec_move (x : SecX) : ((Upd.sec x).apply s).move = s.move := rfl
@[simp] theorem upd_sec_land (x : SecX) : ((Upd.sec x).apply s).land = s.land := rfl
@[simp] theorem upd_sec_sent (x : SecX) : ((Upd.sec x).apply s).sent = s.sent := rfl
@[simp] theorem upd_sec_free (x : SecX) : ((Upd.sec x).apply s).free = s.free := rfl

@[simp] theorem upd_pwr_pending (x : PwrX) : ((Upd.pwr x).apply s).pending = s.pending := rfl
@[simp] theorem upd_pwr_regs (x : PwrX) : ((Upd.pwr x).apply s).regs = s.regs := rfl
@[simp] theorem upd_pwr_staged (x : PwrX) : ((Upd.pwr x).apply s).staged = s.staged := rfl
@[simp] theorem upd_pwr_mem (x : PwrX) : ((Upd.pwr x).apply s).mem = s.mem := rfl
@[simp] theorem upd_pwr_tab (x : PwrX) : ((Upd.pwr x).apply s).tab = s.tab := rfl
@[simp] theorem upd_pwr_resp (x : PwrX) : ((Upd.pwr x).apply s).resp = s.resp := rfl
@[simp] theorem upd_pwr_record (x : PwrX) : ((Upd.pwr x).apply s).record = s.record := rfl
@[simp] theorem upd_pwr_time (x : PwrX) : ((Upd.pwr x).apply s).time = s.time := rfl
@[simp] theorem upd_pwr_ports (x : PwrX) : ((Upd.pwr x).apply s).ports = s.ports := rfl
@[simp] theorem upd_pwr_parts (x : PwrX) : ((Upd.pwr x).apply s).parts = s.parts := rfl
@[simp] theorem upd_pwr_sites (x : PwrX) : ((Upd.pwr x).apply s).sites = s.sites := rfl
@[simp] theorem upd_pwr_tiles (x : PwrX) : ((Upd.pwr x).apply s).tiles = s.tiles := rfl
@[simp] theorem upd_pwr_fab (x : PwrX) : ((Upd.pwr x).apply s).fab = s.fab := rfl
@[simp] theorem upd_pwr_mig (x : PwrX) : ((Upd.pwr x).apply s).mig = s.mig := rfl
@[simp] theorem upd_pwr_flash (x : PwrX) : ((Upd.pwr x).apply s).flash = s.flash := rfl
@[simp] theorem upd_pwr_ted (x : PwrX) : ((Upd.pwr x).apply s).ted = s.ted := rfl
@[simp] theorem upd_pwr_col (x : PwrX) : ((Upd.pwr x).apply s).col = s.col := rfl
@[simp] theorem upd_pwr_load (x : PwrX) : ((Upd.pwr x).apply s).load = s.load := rfl
@[simp] theorem upd_pwr_sec (x : PwrX) : ((Upd.pwr x).apply s).sec = s.sec := rfl
@[simp] theorem upd_pwr_pwr (x : PwrX) : ((Upd.pwr x).apply s).pwr = x := rfl
@[simp] theorem upd_pwr_snap (x : PwrX) : ((Upd.pwr x).apply s).snap = s.snap := rfl
@[simp] theorem upd_pwr_mesh (x : PwrX) : ((Upd.pwr x).apply s).mesh = s.mesh := rfl
@[simp] theorem upd_pwr_move (x : PwrX) : ((Upd.pwr x).apply s).move = s.move := rfl
@[simp] theorem upd_pwr_land (x : PwrX) : ((Upd.pwr x).apply s).land = s.land := rfl
@[simp] theorem upd_pwr_sent (x : PwrX) : ((Upd.pwr x).apply s).sent = s.sent := rfl
@[simp] theorem upd_pwr_free (x : PwrX) : ((Upd.pwr x).apply s).free = s.free := rfl

@[simp] theorem upd_snap_pending (x : SnapX) : ((Upd.snap x).apply s).pending = s.pending := rfl
@[simp] theorem upd_snap_regs (x : SnapX) : ((Upd.snap x).apply s).regs = s.regs := rfl
@[simp] theorem upd_snap_staged (x : SnapX) : ((Upd.snap x).apply s).staged = s.staged := rfl
@[simp] theorem upd_snap_mem (x : SnapX) : ((Upd.snap x).apply s).mem = s.mem := rfl
@[simp] theorem upd_snap_tab (x : SnapX) : ((Upd.snap x).apply s).tab = s.tab := rfl
@[simp] theorem upd_snap_resp (x : SnapX) : ((Upd.snap x).apply s).resp = s.resp := rfl
@[simp] theorem upd_snap_record (x : SnapX) : ((Upd.snap x).apply s).record = s.record := rfl
@[simp] theorem upd_snap_time (x : SnapX) : ((Upd.snap x).apply s).time = s.time := rfl
@[simp] theorem upd_snap_ports (x : SnapX) : ((Upd.snap x).apply s).ports = s.ports := rfl
@[simp] theorem upd_snap_parts (x : SnapX) : ((Upd.snap x).apply s).parts = s.parts := rfl
@[simp] theorem upd_snap_sites (x : SnapX) : ((Upd.snap x).apply s).sites = s.sites := rfl
@[simp] theorem upd_snap_tiles (x : SnapX) : ((Upd.snap x).apply s).tiles = s.tiles := rfl
@[simp] theorem upd_snap_fab (x : SnapX) : ((Upd.snap x).apply s).fab = s.fab := rfl
@[simp] theorem upd_snap_mig (x : SnapX) : ((Upd.snap x).apply s).mig = s.mig := rfl
@[simp] theorem upd_snap_flash (x : SnapX) : ((Upd.snap x).apply s).flash = s.flash := rfl
@[simp] theorem upd_snap_ted (x : SnapX) : ((Upd.snap x).apply s).ted = s.ted := rfl
@[simp] theorem upd_snap_col (x : SnapX) : ((Upd.snap x).apply s).col = s.col := rfl
@[simp] theorem upd_snap_load (x : SnapX) : ((Upd.snap x).apply s).load = s.load := rfl
@[simp] theorem upd_snap_sec (x : SnapX) : ((Upd.snap x).apply s).sec = s.sec := rfl
@[simp] theorem upd_snap_pwr (x : SnapX) : ((Upd.snap x).apply s).pwr = s.pwr := rfl
@[simp] theorem upd_snap_snap (x : SnapX) : ((Upd.snap x).apply s).snap = x := rfl
@[simp] theorem upd_snap_mesh (x : SnapX) : ((Upd.snap x).apply s).mesh = s.mesh := rfl
@[simp] theorem upd_snap_move (x : SnapX) : ((Upd.snap x).apply s).move = s.move := rfl
@[simp] theorem upd_snap_land (x : SnapX) : ((Upd.snap x).apply s).land = s.land := rfl
@[simp] theorem upd_snap_sent (x : SnapX) : ((Upd.snap x).apply s).sent = s.sent := rfl
@[simp] theorem upd_snap_free (x : SnapX) : ((Upd.snap x).apply s).free = s.free := rfl

@[simp] theorem upd_mesh_pending (x : MeshX) : ((Upd.mesh x).apply s).pending = s.pending := rfl
@[simp] theorem upd_mesh_regs (x : MeshX) : ((Upd.mesh x).apply s).regs = s.regs := rfl
@[simp] theorem upd_mesh_staged (x : MeshX) : ((Upd.mesh x).apply s).staged = s.staged := rfl
@[simp] theorem upd_mesh_mem (x : MeshX) : ((Upd.mesh x).apply s).mem = s.mem := rfl
@[simp] theorem upd_mesh_tab (x : MeshX) : ((Upd.mesh x).apply s).tab = s.tab := rfl
@[simp] theorem upd_mesh_resp (x : MeshX) : ((Upd.mesh x).apply s).resp = s.resp := rfl
@[simp] theorem upd_mesh_record (x : MeshX) : ((Upd.mesh x).apply s).record = s.record := rfl
@[simp] theorem upd_mesh_time (x : MeshX) : ((Upd.mesh x).apply s).time = s.time := rfl
@[simp] theorem upd_mesh_ports (x : MeshX) : ((Upd.mesh x).apply s).ports = s.ports := rfl
@[simp] theorem upd_mesh_parts (x : MeshX) : ((Upd.mesh x).apply s).parts = s.parts := rfl
@[simp] theorem upd_mesh_sites (x : MeshX) : ((Upd.mesh x).apply s).sites = s.sites := rfl
@[simp] theorem upd_mesh_tiles (x : MeshX) : ((Upd.mesh x).apply s).tiles = s.tiles := rfl
@[simp] theorem upd_mesh_fab (x : MeshX) : ((Upd.mesh x).apply s).fab = s.fab := rfl
@[simp] theorem upd_mesh_mig (x : MeshX) : ((Upd.mesh x).apply s).mig = s.mig := rfl
@[simp] theorem upd_mesh_flash (x : MeshX) : ((Upd.mesh x).apply s).flash = s.flash := rfl
@[simp] theorem upd_mesh_ted (x : MeshX) : ((Upd.mesh x).apply s).ted = s.ted := rfl
@[simp] theorem upd_mesh_col (x : MeshX) : ((Upd.mesh x).apply s).col = s.col := rfl
@[simp] theorem upd_mesh_load (x : MeshX) : ((Upd.mesh x).apply s).load = s.load := rfl
@[simp] theorem upd_mesh_sec (x : MeshX) : ((Upd.mesh x).apply s).sec = s.sec := rfl
@[simp] theorem upd_mesh_pwr (x : MeshX) : ((Upd.mesh x).apply s).pwr = s.pwr := rfl
@[simp] theorem upd_mesh_snap (x : MeshX) : ((Upd.mesh x).apply s).snap = s.snap := rfl
@[simp] theorem upd_mesh_mesh (x : MeshX) : ((Upd.mesh x).apply s).mesh = x := rfl
@[simp] theorem upd_mesh_move (x : MeshX) : ((Upd.mesh x).apply s).move = s.move := rfl
@[simp] theorem upd_mesh_land (x : MeshX) : ((Upd.mesh x).apply s).land = s.land := rfl
@[simp] theorem upd_mesh_sent (x : MeshX) : ((Upd.mesh x).apply s).sent = s.sent := rfl
@[simp] theorem upd_mesh_free (x : MeshX) : ((Upd.mesh x).apply s).free = s.free := rfl

@[simp] theorem upd_move_pending (x : MoveX) : ((Upd.move x).apply s).pending = s.pending := rfl
@[simp] theorem upd_move_regs (x : MoveX) : ((Upd.move x).apply s).regs = s.regs := rfl
@[simp] theorem upd_move_staged (x : MoveX) : ((Upd.move x).apply s).staged = s.staged := rfl
@[simp] theorem upd_move_mem (x : MoveX) : ((Upd.move x).apply s).mem = s.mem := rfl
@[simp] theorem upd_move_tab (x : MoveX) : ((Upd.move x).apply s).tab = s.tab := rfl
@[simp] theorem upd_move_resp (x : MoveX) : ((Upd.move x).apply s).resp = s.resp := rfl
@[simp] theorem upd_move_record (x : MoveX) : ((Upd.move x).apply s).record = s.record := rfl
@[simp] theorem upd_move_time (x : MoveX) : ((Upd.move x).apply s).time = s.time := rfl
@[simp] theorem upd_move_ports (x : MoveX) : ((Upd.move x).apply s).ports = s.ports := rfl
@[simp] theorem upd_move_parts (x : MoveX) : ((Upd.move x).apply s).parts = s.parts := rfl
@[simp] theorem upd_move_sites (x : MoveX) : ((Upd.move x).apply s).sites = s.sites := rfl
@[simp] theorem upd_move_tiles (x : MoveX) : ((Upd.move x).apply s).tiles = s.tiles := rfl
@[simp] theorem upd_move_fab (x : MoveX) : ((Upd.move x).apply s).fab = s.fab := rfl
@[simp] theorem upd_move_mig (x : MoveX) : ((Upd.move x).apply s).mig = s.mig := rfl
@[simp] theorem upd_move_flash (x : MoveX) : ((Upd.move x).apply s).flash = s.flash := rfl
@[simp] theorem upd_move_ted (x : MoveX) : ((Upd.move x).apply s).ted = s.ted := rfl
@[simp] theorem upd_move_col (x : MoveX) : ((Upd.move x).apply s).col = s.col := rfl
@[simp] theorem upd_move_load (x : MoveX) : ((Upd.move x).apply s).load = s.load := rfl
@[simp] theorem upd_move_sec (x : MoveX) : ((Upd.move x).apply s).sec = s.sec := rfl
@[simp] theorem upd_move_pwr (x : MoveX) : ((Upd.move x).apply s).pwr = s.pwr := rfl
@[simp] theorem upd_move_snap (x : MoveX) : ((Upd.move x).apply s).snap = s.snap := rfl
@[simp] theorem upd_move_mesh (x : MoveX) : ((Upd.move x).apply s).mesh = s.mesh := rfl
@[simp] theorem upd_move_move (x : MoveX) : ((Upd.move x).apply s).move = x := rfl
@[simp] theorem upd_move_land (x : MoveX) : ((Upd.move x).apply s).land = s.land := rfl
@[simp] theorem upd_move_sent (x : MoveX) : ((Upd.move x).apply s).sent = s.sent := rfl
@[simp] theorem upd_move_free (x : MoveX) : ((Upd.move x).apply s).free = s.free := rfl

@[simp] theorem upd_land_pending (x : LandX) : ((Upd.land x).apply s).pending = s.pending := rfl
@[simp] theorem upd_land_regs (x : LandX) : ((Upd.land x).apply s).regs = s.regs := rfl
@[simp] theorem upd_land_staged (x : LandX) : ((Upd.land x).apply s).staged = s.staged := rfl
@[simp] theorem upd_land_mem (x : LandX) : ((Upd.land x).apply s).mem = s.mem := rfl
@[simp] theorem upd_land_tab (x : LandX) : ((Upd.land x).apply s).tab = s.tab := rfl
@[simp] theorem upd_land_resp (x : LandX) : ((Upd.land x).apply s).resp = s.resp := rfl
@[simp] theorem upd_land_record (x : LandX) : ((Upd.land x).apply s).record = s.record := rfl
@[simp] theorem upd_land_time (x : LandX) : ((Upd.land x).apply s).time = s.time := rfl
@[simp] theorem upd_land_ports (x : LandX) : ((Upd.land x).apply s).ports = s.ports := rfl
@[simp] theorem upd_land_parts (x : LandX) : ((Upd.land x).apply s).parts = s.parts := rfl
@[simp] theorem upd_land_sites (x : LandX) : ((Upd.land x).apply s).sites = s.sites := rfl
@[simp] theorem upd_land_tiles (x : LandX) : ((Upd.land x).apply s).tiles = s.tiles := rfl
@[simp] theorem upd_land_fab (x : LandX) : ((Upd.land x).apply s).fab = s.fab := rfl
@[simp] theorem upd_land_mig (x : LandX) : ((Upd.land x).apply s).mig = s.mig := rfl
@[simp] theorem upd_land_flash (x : LandX) : ((Upd.land x).apply s).flash = s.flash := rfl
@[simp] theorem upd_land_ted (x : LandX) : ((Upd.land x).apply s).ted = s.ted := rfl
@[simp] theorem upd_land_col (x : LandX) : ((Upd.land x).apply s).col = s.col := rfl
@[simp] theorem upd_land_load (x : LandX) : ((Upd.land x).apply s).load = s.load := rfl
@[simp] theorem upd_land_sec (x : LandX) : ((Upd.land x).apply s).sec = s.sec := rfl
@[simp] theorem upd_land_pwr (x : LandX) : ((Upd.land x).apply s).pwr = s.pwr := rfl
@[simp] theorem upd_land_snap (x : LandX) : ((Upd.land x).apply s).snap = s.snap := rfl
@[simp] theorem upd_land_mesh (x : LandX) : ((Upd.land x).apply s).mesh = s.mesh := rfl
@[simp] theorem upd_land_move (x : LandX) : ((Upd.land x).apply s).move = s.move := rfl
@[simp] theorem upd_land_land (x : LandX) : ((Upd.land x).apply s).land = x := rfl
@[simp] theorem upd_land_sent (x : LandX) : ((Upd.land x).apply s).sent = s.sent := rfl
@[simp] theorem upd_land_free (x : LandX) : ((Upd.land x).apply s).free = s.free := rfl

@[simp] theorem upd_send_pending (o : Out) : ((Upd.send o).apply s).pending = s.pending := rfl
@[simp] theorem upd_send_regs (o : Out) : ((Upd.send o).apply s).regs = s.regs := rfl
@[simp] theorem upd_send_staged (o : Out) : ((Upd.send o).apply s).staged = s.staged := rfl
@[simp] theorem upd_send_mem (o : Out) : ((Upd.send o).apply s).mem = s.mem := rfl
@[simp] theorem upd_send_tab (o : Out) : ((Upd.send o).apply s).tab = s.tab := rfl
@[simp] theorem upd_send_resp (o : Out) : ((Upd.send o).apply s).resp = s.resp := rfl
@[simp] theorem upd_send_record (o : Out) : ((Upd.send o).apply s).record = s.record := rfl
@[simp] theorem upd_send_time (o : Out) : ((Upd.send o).apply s).time = s.time := rfl
@[simp] theorem upd_send_ports (o : Out) : ((Upd.send o).apply s).ports = s.ports := rfl
@[simp] theorem upd_send_parts (o : Out) : ((Upd.send o).apply s).parts = s.parts := rfl
@[simp] theorem upd_send_sites (o : Out) : ((Upd.send o).apply s).sites = s.sites := rfl
@[simp] theorem upd_send_tiles (o : Out) : ((Upd.send o).apply s).tiles = s.tiles := rfl
@[simp] theorem upd_send_fab (o : Out) : ((Upd.send o).apply s).fab = s.fab := rfl
@[simp] theorem upd_send_mig (o : Out) : ((Upd.send o).apply s).mig = s.mig := rfl
@[simp] theorem upd_send_flash (o : Out) : ((Upd.send o).apply s).flash = s.flash := rfl
@[simp] theorem upd_send_ted (o : Out) : ((Upd.send o).apply s).ted = s.ted := rfl
@[simp] theorem upd_send_col (o : Out) : ((Upd.send o).apply s).col = s.col := rfl
@[simp] theorem upd_send_load (o : Out) : ((Upd.send o).apply s).load = s.load := rfl
@[simp] theorem upd_send_sec (o : Out) : ((Upd.send o).apply s).sec = s.sec := rfl
@[simp] theorem upd_send_pwr (o : Out) : ((Upd.send o).apply s).pwr = s.pwr := rfl
@[simp] theorem upd_send_snap (o : Out) : ((Upd.send o).apply s).snap = s.snap := rfl
@[simp] theorem upd_send_mesh (o : Out) : ((Upd.send o).apply s).mesh = s.mesh := rfl
@[simp] theorem upd_send_move (o : Out) : ((Upd.send o).apply s).move = s.move := rfl
@[simp] theorem upd_send_land (o : Out) : ((Upd.send o).apply s).land = s.land := rfl
@[simp] theorem upd_send_sent (o : Out) : ((Upd.send o).apply s).sent = s.sent ++ [o] := rfl
@[simp] theorem upd_send_free (o : Out) : ((Upd.send o).apply s).free = s.free := rfl

@[simp] theorem upd_free_pending (n : Nat) : ((Upd.free n).apply s).pending = s.pending := rfl
@[simp] theorem upd_free_regs (n : Nat) : ((Upd.free n).apply s).regs = s.regs := rfl
@[simp] theorem upd_free_staged (n : Nat) : ((Upd.free n).apply s).staged = s.staged := rfl
@[simp] theorem upd_free_mem (n : Nat) : ((Upd.free n).apply s).mem = s.mem := rfl
@[simp] theorem upd_free_tab (n : Nat) : ((Upd.free n).apply s).tab = s.tab := rfl
@[simp] theorem upd_free_resp (n : Nat) : ((Upd.free n).apply s).resp = s.resp := rfl
@[simp] theorem upd_free_record (n : Nat) : ((Upd.free n).apply s).record = s.record := rfl
@[simp] theorem upd_free_time (n : Nat) : ((Upd.free n).apply s).time = s.time := rfl
@[simp] theorem upd_free_ports (n : Nat) : ((Upd.free n).apply s).ports = s.ports := rfl
@[simp] theorem upd_free_parts (n : Nat) : ((Upd.free n).apply s).parts = s.parts := rfl
@[simp] theorem upd_free_sites (n : Nat) : ((Upd.free n).apply s).sites = s.sites := rfl
@[simp] theorem upd_free_tiles (n : Nat) : ((Upd.free n).apply s).tiles = s.tiles := rfl
@[simp] theorem upd_free_fab (n : Nat) : ((Upd.free n).apply s).fab = s.fab := rfl
@[simp] theorem upd_free_mig (n : Nat) : ((Upd.free n).apply s).mig = s.mig := rfl
@[simp] theorem upd_free_flash (n : Nat) : ((Upd.free n).apply s).flash = s.flash := rfl
@[simp] theorem upd_free_ted (n : Nat) : ((Upd.free n).apply s).ted = s.ted := rfl
@[simp] theorem upd_free_col (n : Nat) : ((Upd.free n).apply s).col = s.col := rfl
@[simp] theorem upd_free_load (n : Nat) : ((Upd.free n).apply s).load = s.load := rfl
@[simp] theorem upd_free_sec (n : Nat) : ((Upd.free n).apply s).sec = s.sec := rfl
@[simp] theorem upd_free_pwr (n : Nat) : ((Upd.free n).apply s).pwr = s.pwr := rfl
@[simp] theorem upd_free_snap (n : Nat) : ((Upd.free n).apply s).snap = s.snap := rfl
@[simp] theorem upd_free_mesh (n : Nat) : ((Upd.free n).apply s).mesh = s.mesh := rfl
@[simp] theorem upd_free_move (n : Nat) : ((Upd.free n).apply s).move = s.move := rfl
@[simp] theorem upd_free_land (n : Nat) : ((Upd.free n).apply s).land = s.land := rfl
@[simp] theorem upd_free_sent (n : Nat) : ((Upd.free n).apply s).sent = s.sent := rfl
@[simp] theorem upd_free_free (n : Nat) : ((Upd.free n).apply s).free = n := rfl

end Sys2Proof.Machine
end

