-- ==== Sys2Proof/Laws/Store.lean ====
section
/-! SUPPORT. The laws of the sparse stores: a read after a write, and the canonical form, which every operation keeps. -/

namespace Sys2Proof.Machine

variable {α : Type} {d : Nat → α}

theorem storeGet_nil (k : Nat) : storeGet d [] k = d k := rfl

theorem storeGet_dropWhile_le (m : List (Nat × α)) (k j : Nat) (h : k < j) :
    storeGet d (m.dropWhile (fun e => decide (e.1 ≤ k))) j = storeGet d m j := by
  induction m with
  | nil => rfl
  | cons e m ih =>
    obtain ⟨a, w⟩ := e
    by_cases ha : a ≤ k
    · rw [List.dropWhile_cons_of_pos (by simpa using ha), ih]
      have h1 : ¬ j < a := by omega
      have h2 : ¬ j = a := by omega
      simp [storeGet, h1, h2]
    · rw [List.dropWhile_cons_of_neg (by simpa using ha)]

theorem storeGet_dropWhile_self (m : List (Nat × α)) (k j : Nat) (h : j ≤ k) :
    storeGet d (m.dropWhile (fun e => decide (e.1 ≤ k))) j = d j := by
  induction m with
  | nil => rfl
  | cons e m ih =>
    obtain ⟨a, w⟩ := e
    by_cases ha : a ≤ k
    · rw [List.dropWhile_cons_of_pos (by simpa using ha), ih]
    · rw [List.dropWhile_cons_of_neg (by simpa using ha)]
      simp [storeGet, show j < a by omega]

variable [DecidableEq α]

/-- A key reads back what was last written there. -/
@[simp] theorem storeGet_put_same (m : List (Nat × α)) (k : Nat) (v : α) : storeGet d (storePut d m k v) k = v := by
  induction m with
  | nil => by_cases h : v = d k <;> simp [storePut, storeGet, h]
  | cons e m ih =>
    obtain ⟨a, w⟩ := e
    by_cases h1 : k < a
    · by_cases h : v = d k <;> simp [storePut, storeGet, h1, h]
    · by_cases h2 : k = a
      · subst h2
        by_cases h : v = d k
        · simp [storePut, h, storeGet_dropWhile_self]
        · simp [storePut, h, storeGet]
      · simp [storePut, storeGet, h1, h2, ih]

/-- A write leaves every other key as it was. -/
theorem storeGet_put_ne (m : List (Nat × α)) (k j : Nat) (v : α) (hj : j ≠ k) :
    storeGet d (storePut d m k v) j = storeGet d m j := by
  induction m with
  | nil =>
    by_cases h : v = d k
    · simp [storePut, h]
    · by_cases hl : j < k <;> simp [storePut, h, storeGet, hj]
  | cons e m ih =>
    obtain ⟨a, w⟩ := e
    by_cases h1 : k < a
    · by_cases h : v = d k
      · simp [storePut, h1, h]
      · simp only [storePut, h1, h, if_true, if_false, storeGet]
        by_cases hl : j < k
        · simp [hl, show j < a by omega]
        · simp [hl, hj]
    · by_cases h2 : k = a
      · subst h2
        by_cases h : v = d k
        · by_cases hl : j < k
          · simp [storePut, h, storeGet, hl, storeGet_dropWhile_self m k j (by omega)]
          · simp [storePut, h, storeGet, hl, hj, storeGet_dropWhile_le m k j (by omega)]
        · by_cases hl : j < k <;> simp [storePut, h, storeGet, hl, hj]
      · simp only [storePut, h1, h2, if_false, storeGet, ih]

/-- Both at once. -/
theorem storeGet_put (m : List (Nat × α)) (k j : Nat) (v : α) :
    storeGet d (storePut d m k v) j = if j = k then v else storeGet d m j := by
  by_cases h : j = k
  · subst h; simp
  · simp [h, storeGet_put_ne]

theorem storeWfFrom_weaken {m : List (Nat × α)} {lo lo' : Nat} (h : storeWfFrom d (some lo) m = true) (hl : lo' ≤ lo) :
    storeWfFrom d (some lo') m = true := by
  cases m with
  | nil => rfl
  | cons e m =>
    obtain ⟨a, w⟩ := e
    simp only [storeWfFrom, Bool.and_eq_true, decide_eq_true_eq] at h ⊢
    exact ⟨⟨by omega, h.1.2⟩, h.2⟩

theorem storeWfFrom_none {m : List (Nat × α)} {lo : Nat} (h : storeWfFrom d (some lo) m = true) :
    storeWfFrom d none m = true := by
  cases m with
  | nil => rfl
  | cons e m =>
    obtain ⟨a, w⟩ := e
    simp only [storeWfFrom, Bool.and_eq_true, decide_eq_true_eq] at h ⊢
    exact ⟨⟨trivial, h.1.2⟩, h.2⟩

theorem storeWfFrom_dropWhile {m : List (Nat × α)} {lo : Nat} (k : Nat) (h : storeWfFrom d (some lo) m = true) :
    storeWfFrom d (some lo) (m.dropWhile (fun e => decide (e.1 ≤ k))) = true := by
  induction m generalizing lo with
  | nil => rfl
  | cons e m ih =>
    obtain ⟨a, w⟩ := e
    have h' := h
    simp only [storeWfFrom, Bool.and_eq_true, decide_eq_true_eq] at h'
    by_cases ha : a ≤ k
    · rw [List.dropWhile_cons_of_pos (by simpa using ha)]
      exact ih (storeWfFrom_weaken h'.2 (by omega))
    · rw [List.dropWhile_cons_of_neg (by simpa using ha)]
      exact h

theorem storeWfFrom_put {m : List (Nat × α)} {lo k : Nat} (v : α) (h : storeWfFrom d (some lo) m = true) (hk : lo < k) :
    storeWfFrom d (some lo) (storePut d m k v) = true := by
  induction m generalizing lo with
  | nil => by_cases hv : v = d k <;> simp [storePut, storeWfFrom, hv, hk]
  | cons e m ih =>
    obtain ⟨a, w⟩ := e
    have h' := h
    simp only [storeWfFrom, Bool.and_eq_true, decide_eq_true_eq] at h'
    by_cases h1 : k < a
    · by_cases hv : v = d k
      · simpa [storePut, h1, hv] using h
      · simp [storePut, h1, hv, storeWfFrom, hk]
        exact ⟨by simpa using h'.1.2, h'.2⟩
    · by_cases h2 : k = a
      · subst h2
        by_cases hv : v = d k
        · simp only [storePut, h1, if_false, hv, if_true]
          exact storeWfFrom_dropWhile k (storeWfFrom_weaken h'.2 (by omega))
        · simp [storePut, hv, storeWfFrom, hk, h'.2]
      · simp only [storePut, h1, h2, if_false, storeWfFrom, Bool.and_eq_true, decide_eq_true_eq]
        exact ⟨h'.1, ih h'.2 (by omega)⟩

/-- A write keeps the canonical form. -/
theorem storeWf_put {m : List (Nat × α)} (k : Nat) (v : α) (h : storeWf d m = true) : storeWf d (storePut d m k v) = true := by
  cases m with
  | nil => by_cases hv : v = d k <;> simp [storeWf, storePut, storeWfFrom, hv]
  | cons e m =>
    obtain ⟨a, w⟩ := e
    have h' := h
    simp only [storeWf, storeWfFrom, Bool.and_eq_true] at h'
    by_cases h1 : k < a
    · by_cases hv : v = d k
      · simpa [storePut, h1, hv] using h
      · simp only [storeWf, storePut, h1, hv, if_true, if_false, storeWfFrom]
        simp [hv, h1]
        exact ⟨by simpa using h'.1.2, h'.2⟩
    · by_cases h2 : k = a
      · subst h2
        by_cases hv : v = d k
        · simp only [storeWf, storePut, h1, if_false, hv, if_true]
          exact storeWfFrom_none (storeWfFrom_dropWhile k h'.2)
        · simp [storeWf, storePut, hv, storeWfFrom, h'.2]
      · simp only [storeWf, storePut, h1, h2, if_false, storeWfFrom, Bool.and_eq_true]
        exact ⟨h'.1, storeWfFrom_put v h'.2 (by omega)⟩

theorem storeWfFrom_filter {m : List (Nat × α)} {lo : Nat} (p : Nat × α → Bool) (h : storeWfFrom d (some lo) m = true) :
    storeWfFrom d (some lo) (m.filter p) = true := by
  induction m generalizing lo with
  | nil => rfl
  | cons e m ih =>
    obtain ⟨a, w⟩ := e
    simp only [storeWfFrom, Bool.and_eq_true, decide_eq_true_eq] at h
    by_cases hp : p (a, w) = true
    · rw [List.filter_cons_of_pos hp]
      simp only [storeWfFrom, Bool.and_eq_true, decide_eq_true_eq]
      exact ⟨h.1, ih h.2⟩
    · rw [List.filter_cons_of_neg hp]
      exact ih (storeWfFrom_weaken h.2 (by omega))

/-- A clearing keeps the canonical form. -/
theorem storeWf_clear {m : List (Nat × α)} (lo hi : Nat) (h : storeWf d m = true) : storeWf d (storeClear m lo hi) = true := by
  cases m with
  | nil => rfl
  | cons e m =>
    obtain ⟨a, w⟩ := e
    simp only [storeWf, storeWfFrom, Bool.and_eq_true] at h
    unfold storeClear storeWf
    by_cases hp : (fun e : Nat × α => decide (e.1 < lo ∨ hi ≤ e.1)) (a, w) = true
    · rw [List.filter_cons_of_pos (p := fun e : Nat × α => decide (e.1 < lo ∨ hi ≤ e.1)) hp]
      simp only [storeWfFrom, Bool.and_eq_true]
      exact ⟨h.1, storeWfFrom_filter _ h.2⟩
    · rw [List.filter_cons_of_neg (p := fun e : Nat × α => decide (e.1 < lo ∨ hi ≤ e.1)) hp]
      exact storeWfFrom_none (storeWfFrom_filter _ h.2)

theorem storeGet_below {m : List (Nat × α)} {lo j : Nat} (h : storeWfFrom d (some lo) m = true) (hj : j ≤ lo) :
    storeGet d m j = d j := by
  cases m with
  | nil => rfl
  | cons e m =>
    obtain ⟨a, w⟩ := e
    simp only [storeWfFrom, Bool.and_eq_true, decide_eq_true_eq] at h
    simp [storeGet, show j < a by omega]

/-- A cleared key reads its default, every other key what it read. -/
theorem storeGet_clear_from {m : List (Nat × α)} {b : Nat} (lo hi j : Nat) (h : storeWfFrom d (some b) m = true) :
    storeGet d (storeClear m lo hi) j = if lo ≤ j ∧ j < hi then d j else storeGet d m j := by
  induction m generalizing b with
  | nil => simp [storeClear, storeGet]
  | cons e m ih =>
    obtain ⟨a, w⟩ := e
    simp only [storeWfFrom, Bool.and_eq_true, decide_eq_true_eq] at h
    have ih' := ih h.2
    unfold storeClear at ih' ⊢
    by_cases hp : (fun e : Nat × α => decide (e.1 < lo ∨ hi ≤ e.1)) (a, w) = true
    · rw [List.filter_cons_of_pos (p := fun e : Nat × α => decide (e.1 < lo ∨ hi ≤ e.1)) hp]
      have hp' : a < lo ∨ hi ≤ a := by simpa using hp
      simp only [storeGet, ih']
      by_cases h1 : j < a
      · simp [h1]
      · by_cases h2 : j = a
        · subst h2
          simp [show ¬ (lo ≤ j ∧ j < hi) by omega]
        · simp [h1, h2]
    · rw [List.filter_cons_of_neg (p := fun e : Nat × α => decide (e.1 < lo ∨ hi ≤ e.1)) hp, ih']
      have hp' : ¬ (a < lo ∨ hi ≤ a) := by simpa using hp
      by_cases h1 : j < a
      · simp [storeGet, h1, storeGet_below h.2 (show j ≤ a by omega)]
      · by_cases h2 : j = a
        · subst h2
          simp [show lo ≤ j ∧ j < hi by omega]
        · simp [storeGet, h1, h2]

theorem storeGet_clear {m : List (Nat × α)} (lo hi j : Nat) (h : storeWf d m = true) :
    storeGet d (storeClear m lo hi) j = if lo ≤ j ∧ j < hi then d j else storeGet d m j := by
  cases m with
  | nil => simp [storeClear, storeGet]
  | cons e m =>
    obtain ⟨a, w⟩ := e
    have h0 : storeWfFrom d (some a) m = true := by
      simp only [storeWf, storeWfFrom, Bool.and_eq_true] at h
      exact h.2
    have ih' := storeGet_clear_from lo hi j h0
    unfold storeClear at ih' ⊢
    by_cases hp : (fun e : Nat × α => decide (e.1 < lo ∨ hi ≤ e.1)) (a, w) = true
    · rw [List.filter_cons_of_pos (p := fun e : Nat × α => decide (e.1 < lo ∨ hi ≤ e.1)) hp]
      have hp' : a < lo ∨ hi ≤ a := by simpa using hp
      simp only [storeGet, ih']
      by_cases h1 : j < a
      · simp [h1]
      · by_cases h2 : j = a
        · subst h2
          simp [show ¬ (lo ≤ j ∧ j < hi) by omega]
        · simp [h1, h2]
    · rw [List.filter_cons_of_neg (p := fun e : Nat × α => decide (e.1 < lo ∨ hi ≤ e.1)) hp, ih']
      have hp' : ¬ (a < lo ∨ hi ≤ a) := by simpa using hp
      by_cases h1 : j < a
      · simp [storeGet, h1, storeGet_below h0 (show j ≤ a by omega)]
      · by_cases h2 : j = a
        · subst h2
          simp [show lo ≤ j ∧ j < hi by omega]
        · simp [storeGet, h1, h2]

end Sys2Proof.Machine
end

