-- ==== Sys2Proof/Laws/Act.lean ====
section
/-! SUPPORT. How actions run. `Runs a s x t`: from `s` the action `a` goes on with the value `x` in the state `t`.
`Only l a`: from every state `a` goes on, and the fields not in `l` are as they were; the queue always is. Beside them, what
every script keeps, by one induction over scripts. -/

namespace Sys2Proof.Machine

/-! ## What every script keeps -/

/-- What holds of a state and is kept by every primitive update is kept by every script. -/
theorem Script.run_keeps (P : State → Prop) (h : ∀ (u : Upd) (s : State), P s → P (u.apply s)) (c : Script) (s : State)
    (hs : P s) : P (c.run s) := by
  induction c generalizing s with
  | halt => exact hs
  | upd u k ih => exact ih _ (h u s hs)
  | ask k ih => exact ih s s hs

/-- The same for what relates a state to an earlier one. -/
theorem Script.run_rel (Q : State → State → Prop) (hr : ∀ s, Q s s) (ht : ∀ a b c, Q a b → Q b c → Q a c)
    (h : ∀ (u : Upd) (s : State), Q s (u.apply s)) (c : Script) (s : State) : Q s (c.run s) := by
  induction c generalizing s with
  | halt => exact hr s
  | upd u k ih => exact ht _ _ _ (h u s) (ih _)
  | ask k ih => exact ih s s

/-- No action touches the queue of waiting commands. -/
theorem Act.run_pending (a : Act Unit) (s : State) : (Act.run a s).pending = s.pending :=
  Script.run_rel (fun s t => t.pending = s.pending) (fun _ => rfl) (fun _ _ _ h1 h2 => h2.trans h1)
    (fun u _ => by cases u <;> rfl) _ s

/-- What left the package stays as it was, and more may be added. -/
theorem Act.run_sent (a : Act Unit) (s : State) : ∃ l, (Act.run a s).sent = s.sent ++ l := by
  refine Script.run_rel (fun s t => ∃ l, t.sent = s.sent ++ l) (fun s => ⟨[], by simp⟩) ?_ ?_ _ s
  · rintro a b c ⟨l, h⟩ ⟨m, g⟩
    exact ⟨l ++ m, by rw [g, h, List.append_assoc]⟩
  · intro u s
    cases u with
    | send o => exact ⟨[o], rfl⟩
    | _ => exact ⟨[], by simp⟩

/-! ## Fields -/

/-- The field an update writes. -/
def Upd.field : Upd → Field
  | .reg _ _ | .clearRegs _ _ => .regs
  | .stage _ _ | .clearStaged _ _ => .staged
  | .byte _ _ | .clearMem _ _ => .mem
  | .word _ _ | .clearTab _ _ => .tab
  | .resp _ => .resp
  | .record _ => .record
  | .port _ _ => .ports
  | .part _ _ => .parts
  | .time _ => .time
  | .site _ _ => .sites
  | .tile _ _ => .tiles
  | .fab _ => .fab
  | .mig _ => .mig
  | .flash _ => .flash
  | .ted _ => .ted
  | .col _ => .col
  | .load _ => .load
  | .sec _ => .sec
  | .pwr _ => .pwr
  | .snap _ => .snap
  | .mesh _ => .mesh
  | .move _ => .move
  | .land _ => .land
  | .send _ => .sent
  | .free _ => .free

theorem Field.same_refl (f : Field) (s : State) : f.same s s := by cases f <;> rfl

theorem Field.same_trans {f : Field} {a b c : State} (h : f.same a b) (g : f.same b c) : f.same a c := by
  cases f <;> exact Eq.trans g h

/-- An update leaves every field but its own. -/
theorem Upd.same_of_ne (u : Upd) (f : Field) (s : State) (h : f ≠ u.field) : f.same s (u.apply s) := by
  cases u <;> cases f <;> first | rfl | exact absurd rfl h

theorem SameBut.refl (l : List Field) (s : State) : SameBut l s s := ⟨rfl, fun f _ => f.same_refl s⟩

theorem SameBut.trans {l : List Field} {a b c : State} (h : SameBut l a b) (g : SameBut l b c) : SameBut l a c :=
  ⟨g.1.trans h.1, fun f hf => Field.same_trans (h.2 f hf) (g.2 f hf)⟩

theorem SameBut.mono {l m : List Field} {s t : State} (h : SameBut l s t) (hl : ∀ f, f ∈ l → f ∈ m) : SameBut m s t :=
  ⟨h.1, fun f hf => h.2 f (fun hc => hf (hl f hc))⟩

/-! ## Runs -/

theorem Runs.run_eq {a : Act Unit} {s t : State} {x : Unit} (h : Runs a s x t) : Act.run a s = t := h fun _ => Script.halt

theorem Runs.pure {α : Type} (x : α) (s : State) : Runs (Pure.pure x : Act α) s x s := fun _ => rfl

theorem Runs.bind {α β : Type} {a : Act α} {f : α → Act β} {s t u : State} {x : α} {y : β} (h : Runs a s x t)
    (g : Runs (f x) t y u) : Runs (a >>= f) s y u := fun k => (h (fun z => f z k)).trans (g k)

theorem Runs.get (s : State) : Runs Act.get s s s := fun _ => rfl

theorem Runs.rd {α : Type} (f : State → α) (s : State) : Runs (rd f) s (f s) s := fun _ => rfl

theorem Runs.upd (u : Upd) (s : State) : Runs (Act.upd u) s () (u.apply s) := fun _ => rfl

theorem Runs.skip (s : State) : Runs skip s () s := fun _ => rfl

/-! ## Only -/

/-- From every state the action goes on, and changes no field that is not listed. -/
def Only {α : Type} (l : List Field) (a : Act α) : Prop := ∀ s, ∃ x t, Runs a s x t ∧ SameBut l s t

theorem Only.mono {α : Type} {l m : List Field} {a : Act α} (h : Only l a) (hl : ∀ f, f ∈ l → f ∈ m) : Only m a :=
  fun s => let ⟨x, t, r, q⟩ := h s; ⟨x, t, r, q.mono hl⟩

/-- Every field of one list stands in another. -/
def Field.sub (l m : List Field) : Bool := l.all (fun f => m.any (fun g => Nat.beq f.ctorIdx g.ctorIdx))

theorem Field.mem_of_sub {l m : List Field} (h : Field.sub l m = true) (f : Field) (hf : f ∈ l) : f ∈ m := by
  have h1 := List.all_eq_true.1 h f hf
  obtain ⟨g, hg, h2⟩ := List.any_eq_true.1 h1
  have h3 : f = g := by
    have h4 : f.ctorIdx = g.ctorIdx := Nat.eq_of_beq_eq_true h2
    revert h4
    cases f <;> cases g <;> decide
  exact h3 ▸ hg

theorem Field.sub_trans {a b c : List Field} (h : Field.sub a b = true) (g : Field.sub b c = true) : Field.sub a c = true :=
  List.all_eq_true.2 fun f hf => List.any_eq_true.2
    ⟨f, Field.mem_of_sub g f (Field.mem_of_sub h f hf), Nat.beq_refl _⟩

theorem Only.sub {α : Type} {l m : List Field} {a : Act α} (h : Only l a) (hl : Field.sub l m = true) : Only m a :=
  h.mono (Field.mem_of_sub hl)

theorem Only.ite {α : Type} {l : List Field} {c : Prop} [Decidable c] {a b : Act α} (h : Only l a) (g : Only l b) :
    Only l (if c then a else b) := by split <;> assumption

theorem Only.dite {α : Type} {l : List Field} {c : Prop} [Decidable c] {a : c → Act α} {b : ¬c → Act α}
    (h : ∀ x, Only l (a x)) (g : ∀ x, Only l (b x)) : Only l (if x : c then a x else b x) := by
  split
  · exact h _
  · exact g _

theorem Only.pure {α : Type} (l : List Field) (x : α) : Only l (Pure.pure x : Act α) :=
  fun s => ⟨x, s, Runs.pure x s, SameBut.refl l s⟩

theorem Only.bind {α β : Type} {l : List Field} {a : Act α} {f : α → Act β} (h : Only l a) (g : ∀ x, Only l (f x)) :
    Only l (a >>= f) := fun s =>
  let ⟨x, t, r, q⟩ := h s
  let ⟨y, u, r', q'⟩ := g x t
  ⟨y, u, r.bind r', q.trans q'⟩

theorem Only.get (l : List Field) : Only l Act.get := fun s => ⟨s, s, Runs.get s, SameBut.refl l s⟩

theorem Only.rd {α : Type} (l : List Field) (f : State → α) : Only l (rd f) := fun s => ⟨f s, s, Runs.rd f s, SameBut.refl l s⟩

theorem Only.skip (l : List Field) : Only l skip := Only.pure l ()

theorem Only.upd {l : List Field} (u : Upd) (hu : Field.sub [u.field] l = true) : Only l (Act.upd u) := fun s =>
  have h : u.field ∈ l := Field.mem_of_sub hu _ (List.mem_singleton.2 rfl)
  ⟨(), u.apply s, Runs.upd u s, by cases u <;> rfl, fun f hf => u.same_of_ne f s (fun e => hf (e ▸ h))⟩

theorem Only.forIn {α β : Type} {l : List Field} (xs : List α) (b : β) {f : α → β → Act (ForInStep β)}
    (h : ∀ x y, Only l (f x y)) : Only l (ForIn.forIn xs b f) := by
  induction xs generalizing b with
  | nil => exact Only.pure l b
  | cons x xs ih =>
    rw [List.forIn_cons]
    refine Only.bind (h x b) ?_
    intro r
    cases r with
    | done y => exact Only.pure l y
    | yield y => exact ih y

theorem freshNat_only : Only [.free] freshNat := fun s =>
  ⟨Config.freeNat s.free, (Upd.free (s.free + 1)).apply s, fun _ => rfl,
    rfl, fun f hf => (Upd.free (s.free + 1)).same_of_ne f s (fun e => hf (by rw [e]; exact List.mem_singleton.2 rfl))⟩

theorem freshBelow_only (n : Nat) : Only [.free] (freshBelow n) := Only.bind freshNat_only (fun _ => Only.pure _ _)

/-- What an action leaves after a whole run. -/
theorem Only.run {l : List Field} {a : Act Unit} (h : Only l a) (s : State) : SameBut l s (Act.run a s) :=
  let ⟨_, _, r, q⟩ := h s
  r.run_eq ▸ q

end Sys2Proof.Machine
end

