-- ==== Sys2Proof/Laws/Bits.lean ====
section
/-! SUPPORT. Fields of register words: a field reads what was put into it, and putting a field leaves every field that
does not overlap it. -/

namespace Sys2Proof.Machine

theorem bits_lt (n hi lo : Nat) : bits n hi lo < 2 ^ (hi + 1 - lo) := Nat.mod_lt _ (Nat.two_pow_pos _)

theorem bits_eq_shift (n hi lo : Nat) : bits n hi lo = (n >>> lo) % 2 ^ (hi + 1 - lo) := by
  simp [bits, Nat.shiftRight_eq_div_pow]

theorem testBit_bits (n hi lo i : Nat) : (bits n hi lo).testBit i = (decide (i < hi + 1 - lo) && n.testBit (lo + i)) := by
  rw [bits_eq_shift, Nat.testBit_mod_two_pow, Nat.testBit_shiftRight]

/-- The three parts of a number around a field. -/
theorem split_at_field (n hi lo : Nat) (h : lo ≤ hi) :
    n = n % 2 ^ lo + bits n hi lo * 2 ^ lo + n / 2 ^ (hi + 1) * 2 ^ (hi + 1) := by
  have h1 : hi + 1 = lo + (hi + 1 - lo) := by omega
  have e1 := Nat.div_add_mod n (2 ^ lo)
  have e2 := Nat.div_add_mod (n / 2 ^ lo) (2 ^ (hi + 1 - lo))
  have e3 : n / 2 ^ (hi + 1) = n / 2 ^ lo / 2 ^ (hi + 1 - lo) := by
    rw [Nat.div_div_eq_div_mul, ← Nat.pow_add, ← h1]
  have e4 : (2 : Nat) ^ (hi + 1) = 2 ^ (hi + 1 - lo) * 2 ^ lo := by
    rw [← Nat.pow_add]; congr 1; omega
  rw [e3, e4]
  unfold bits
  generalize n / 2 ^ lo = a at *
  generalize 2 ^ (hi + 1 - lo) = w at *
  generalize 2 ^ lo = u at *
  calc n = u * a + n % u := e1.symm
    _ = u * (w * (a / w) + a % w) + n % u := by rw [e2]
    _ = _ := by ring

theorem setBits_eq (n hi lo v : Nat) (h : lo ≤ hi) :
    setBits n hi lo v = n % 2 ^ lo + v % 2 ^ (hi + 1 - lo) * 2 ^ lo + n / 2 ^ (hi + 1) * 2 ^ (hi + 1) := by
  have e := split_at_field n hi lo h
  unfold setBits
  omega

theorem testBit_setBits (n hi lo v i : Nat) (h : lo ≤ hi) :
    (setBits n hi lo v).testBit i = if lo ≤ i ∧ i ≤ hi then v.testBit (i - lo) else n.testBit i := by
  have hw : (2 : Nat) ^ (hi + 1) = 2 ^ (hi + 1 - lo) * 2 ^ lo := by
    rw [← Nat.pow_add]; congr 1; omega
  have e : setBits n hi lo v = 2 ^ lo * (2 ^ (hi + 1 - lo) * (n / 2 ^ (hi + 1)) + v % 2 ^ (hi + 1 - lo)) + n % 2 ^ lo := by
    rw [setBits_eq n hi lo v h, hw]; ring
  rw [e, Nat.testBit_two_pow_mul_add _ (Nat.mod_lt _ (Nat.two_pow_pos _))]
  by_cases h1 : i < lo
  · simp [h1, show ¬ (lo ≤ i ∧ i ≤ hi) by omega, Nat.testBit_mod_two_pow]
  · simp only [h1, if_false]
    rw [Nat.testBit_two_pow_mul_add _ (Nat.mod_lt _ (Nat.two_pow_pos _))]
    by_cases h2 : i ≤ hi
    · simp [show i - lo < hi + 1 - lo by omega, show lo ≤ i by omega, h2, Nat.testBit_mod_two_pow]
    · simp only [show ¬ (i - lo < hi + 1 - lo) by omega, if_false, h2, and_false, Nat.testBit_div_two_pow]
      congr 1; omega

theorem setBits_lt (n hi lo v : Nat) (h : lo ≤ hi) (hh : hi < 64) (hn : n < 2 ^ 64) : setBits n hi lo v < 2 ^ 64 := by
  refine Nat.lt_pow_two_of_testBit _ (fun i hi' => ?_)
  rw [testBit_setBits n hi lo v i h, if_neg (by omega)]
  exact Nat.testBit_lt_two_pow (lt_of_lt_of_le hn (Nat.pow_le_pow_right (by decide) hi'))

/-- A field reads the low bits of what was put there. -/
theorem getFld_putFld_self (w : Word) (f : Fld) (n : Nat) (h : f.lo ≤ f.hi) (hh : f.hi < 64) :
    getFld (putFld w f n) f = n % 2 ^ (f.hi + 1 - f.lo) := by
  unfold getFld putFld
  rw [BitVec.toNat_ofNat, Nat.mod_eq_of_lt (setBits_lt _ _ _ _ h hh w.isLt)]
  apply Nat.eq_of_testBit_eq
  intro i
  rw [testBit_bits, testBit_setBits _ _ _ _ _ h, Nat.testBit_mod_two_pow]
  by_cases h1 : i < f.hi + 1 - f.lo
  · simp [h1, show f.lo + i ≤ f.hi by omega]
  · simp [h1]

/-- Putting a field leaves a field apart from it. -/
theorem getFld_putFld_ne (w : Word) (f g : Fld) (n : Nat) (h : f.lo ≤ f.hi) (hh : f.hi < 64)
    (hd : f.hi < g.lo ∨ g.hi < f.lo) : getFld (putFld w f n) g = getFld w g := by
  unfold getFld putFld
  rw [BitVec.toNat_ofNat, Nat.mod_eq_of_lt (setBits_lt _ _ _ _ h hh w.isLt)]
  apply Nat.eq_of_testBit_eq
  intro i
  rw [testBit_bits, testBit_bits, testBit_setBits _ _ _ _ _ h]
  by_cases h1 : i < g.hi + 1 - g.lo
  · simp [h1, show ¬ (f.lo ≤ g.lo + i ∧ g.lo + i ≤ f.hi) by omega]
  · simp [h1]

theorem getFld_lt (w : Word) (f : Fld) : getFld w f < 2 ^ (f.hi + 1 - f.lo) := bits_lt _ _ _

end Sys2Proof.Machine
end

