-- ==== Sys2Proof/Laws/FrameOps.lean ====
section
/-! SUPPORT. Which fields of the state each operation can change, and that it always goes on: the named operations, register writes and the memories.
One lemma for each operation, over the lemmas of what it calls. -/

namespace Sys2Proof.Machine

theorem rdF_only (x0 x1) : Only [] (rdF x0 x1) := by
  delta rdF
  exact (Only.rd _ _)

theorem stBytes_only : ∀ x0 x1, Only [.mem] (stBytes x0 x1)
  | _, ([]) => by
    rw [stBytes]
    exact (Only.pure _ _)
  | _, (b :: bs) => by
    rw [stBytes]
    exact (Only.bind (Only.upd _ rfl) (fun _ => ((stBytes_only _ _).sub rfl)))

theorem stNum_only (x0 x1 x2) : Only [.mem] (stNum x0 x1 x2) := by
  delta stNum
  exact ((stBytes_only _ _).sub rfl)

theorem ldW_only (x0) : Only [] (ldW x0) := by
  delta ldW
  exact (Only.rd _ _)

theorem wrR_only (x0 x1) : Only [.regs] (wrR x0 x1) := by
  delta wrR
  exact (Only.upd _ rfl)

theorem send_only (x0) : Only [.sent] (send x0) := by
  delta send
  exact (Only.upd _ rfl)

theorem wrPart_only (x0 x1) : Only [.parts] (wrPart x0 x1) := by
  delta wrPart
  exact (Only.upd _ rfl)

theorem rdB_only (x0 x1) : Only [] (rdB x0 x1) := by
  delta rdB
  exact (Only.bind ((rdF_only _ _).sub rfl) (fun _ => (Only.pure _ _)))

theorem rdR_only (x0) : Only [] (rdR x0) := by
  delta rdR
  exact (Only.rd _ _)

theorem stW_only (x0 x1) : Only [.tab] (stW x0 x1) := by
  delta stW
  exact (Only.upd _ rfl)

theorem ldBytes_only (x0 x1) : Only [] (ldBytes x0 x1) := by
  delta ldBytes
  exact (Only.rd _ _)

theorem answer_only (x0) : Only [.resp] (answer x0) := by
  delta answer
  exact (Only.upd _ rfl)

theorem ldNum_only (x0 x1) : Only [] (ldNum x0 x1) := by
  delta ldNum
  exact (Only.rd _ _)

theorem setIrq_only (x0 x1) : Only [.regs] (setIrq x0 x1) := by
  delta setIrq
  exact (Only.bind ((rdR_only _).sub rfl) (fun _ => ((wrR_only _ _).sub rfl)))

theorem wrF_only (x0 x1 x2) : Only [.regs] (wrF x0 x1 x2) := by
  delta wrF
  exact (Only.bind ((rdR_only _).sub rfl) (fun _ => ((wrR_only _ _).sub rfl)))

theorem count_only (x0 x1) : Only [.regs] (count x0 x1) := by
  delta count
  exact (Only.bind ((rdR_only _).sub rfl) (fun _ => (Only.ite (Only.pure _ _) (Only.bind ((wrR_only _ _).sub rfl) (fun _ => (by extract_lets -underBinder -merge -useContext +onlyGivenNames j; (try clear_value j); exact (Only.ite (Only.bind (Only.rd _ _) (fun _ => (by split; exact (Only.bind ((rdR_only _).sub rfl) (fun _ => ((wrR_only _ _).sub rfl))); exact (Only.skip _)))) (Only.pure _ _))))))))

theorem clearPageFault_only (x0) : Only [.regs] (clearPageFault x0) := by
  delta clearPageFault
  exact ((wrF_only _ _ _).sub rfl)

theorem vlog_only (x0 x1 x2) : Only [.regs, .mem] (vlog x0 x1 x2) := by
  delta vlog
  exact (Only.bind ((rdF_only _ _).sub rfl) (fun _ => (Only.bind ((rdF_only _ _).sub rfl) (fun _ => (Only.ite ((count_only _ _).sub rfl) (Only.bind ((rdR_only _).sub rfl) (fun _ => (Only.bind ((rdF_only _ _).sub rfl) (fun _ => (Only.bind ((stBytes_only _ _).sub rfl) (fun _ => (Only.bind ((wrF_only _ _ _).sub rfl) (fun _ => ((count_only _ _).sub rfl))))))))))))))

theorem addF_only (x0 x1 x2) : Only [.regs] (addF x0 x1 x2) := by
  delta addF
  exact (Only.bind ((rdF_only _ _).sub rfl) (fun _ => ((wrF_only _ _ _).sub rfl)))

theorem recordAs_only (x0 x1 x2 x3 x4 x5) : Only [.regs, .mem] (recordAs x0 x1 x2 x3 x4 x5) := by
  delta recordAs
  exact (Only.bind ((rdF_only _ _).sub rfl) (fun _ => (by extract_lets -underBinder -merge -useContext +onlyGivenNames j; have h0 := show ∀ y, Only [.regs, .mem] (j y) from (fun _ => (Only.bind ((setIrq_only _ _).sub rfl) (fun _ => ((vlog_only _ _ _).sub rfl)))); clear_value j; exact (Only.ite (Only.bind ((wrR_only _ _).sub rfl) (fun _ => (Only.bind ((rdF_only _ _).sub rfl) (fun _ => (Only.bind ((wrR_only _ _).sub rfl) (fun _ => (h0 _))))))) (Only.bind ((wrF_only _ _ _).sub rfl) (fun _ => (h0 _)))))))

theorem setPageFault_only (x0) : Only [.regs] (setPageFault x0) := by
  delta setPageFault
  exact (Only.bind ((rdF_only _ _).sub rfl) (fun _ => (Only.ite (Only.bind ((wrF_only _ _ _).sub rfl) (fun _ => ((setIrq_only _ _).sub rfl))) (Only.pure _ _))))

theorem recordRefusal_only (x0 x1 x2 x3 x4) : Only [.regs, .mem] (recordRefusal x0 x1 x2 x3 x4) := by
  delta recordRefusal
  exact ((recordAs_only _ _ _ _ _ _).sub rfl)

theorem refuseAs_only (x0 x1 x2 x3) : Only [.regs, .mem, .resp] (refuseAs x0 x1 x2 x3) := by
  delta refuseAs
  exact (by extract_lets -underBinder -merge -useContext +onlyGivenNames j; have h0 := show ∀ y, Only [.regs, .mem, .resp] (j y) from (fun _ => (Only.upd _ rfl)); clear_value j; exact (by split; exact (Only.bind ((recordRefusal_only _ _ _ _ _).sub rfl) (fun _ => (h0 _))); exact (Only.bind ((vlog_only _ _ _).sub rfl) (fun _ => (h0 _)))))

theorem plainWrite_only (x0 x1) : Only [.regs, .staged] (plainWrite x0 x1) := by
  delta plainWrite
  exact (by split; exact (Only.skip _); exact (Only.bind ((rdR_only _).sub rfl) (fun _ => (Only.bind (Only.rd _ _) (fun _ => (Only.ite (Only.bind ((wrR_only _ _).sub rfl) (fun _ => (by extract_lets -underBinder -merge -useContext +onlyGivenNames j; (try clear_value j); exact (Only.ite (Only.bind (Only.upd _ rfl) (fun _ => ((wrF_only _ _ _).sub rfl))) (Only.pure _ _))))) ((wrR_only _ _).sub rfl)))))))

theorem siteWriteByte_only (x0 x1 x2) : Only [.mem] (siteWriteByte x0 x1 x2) := by
  delta siteWriteByte
  exact (by split; exact (by extract_lets -underBinder -merge -useContext +onlyGivenNames j; (try clear_value j); exact (Only.bind (Only.get _) (fun _ => (by extract_lets -underBinder -merge -useContext +onlyGivenNames j; (try clear_value j); exact (by extract_lets -underBinder -merge -useContext +onlyGivenNames j; have h0 := show ∀ y, Only [.mem] (j y) from (fun _ => (Only.ite (Only.upd _ rfl) (Only.pure _ _))); clear_value j; exact (Only.ite (Only.bind (Only.upd _ rfl) (fun _ => (h0 _))) (h0 _))))))))

theorem siteWrite_only : ∀ x0 x1 x2, Only [.mem] (siteWrite x0 x1 x2)
  | _, _, ([]) => by
    rw [siteWrite]
    exact (Only.pure _ _)
  | _, _, (b :: bs) => by
    rw [siteWrite]
    exact (Only.bind ((siteWriteByte_only _ _ _).sub rfl) (fun _ => ((siteWrite_only _ _ _).sub rfl)))

theorem stalls_only {l} (a : Act Unit) : Only l (stalls a) := by
  delta stalls
  exact Only.bind (Only.get _) (fun _ => Only.ite (Only.pure _ _) (Only.pure _ _))

theorem eccLast_only (x0 x1 x2 x3) : Only [.regs] (eccLast x0 x1 x2 x3) := by
  delta eccLast
  exact (Only.bind ((wrF_only _ _ _).sub rfl) (fun _ => (Only.bind ((wrF_only _ _ _).sub rfl) (fun _ => ((wrF_only _ _ _).sub rfl)))))

theorem served_only {l} {a : Act Unit} (h : Only l a) (_ : Field.sub [] l = true) : Only l (served a) := by
  delta served
  exact Only.bind (stalls_only a) (fun _ => Only.ite h (Only.pure _ _))

theorem setSites_only (x0 x1) : Only [.regs] (setSites x0 x1) := by
  delta setSites
  exact (Only.bind (Only.forIn _ _ (fun _ _ => (Only.bind ((wrF_only _ _ _).sub rfl) (fun _ => (Only.pure _ _))))) (fun _ => (Only.pure _ _)))

theorem noteSector_only (x0 x1 x2) : Only [.regs] (noteSector x0 x1 x2) := by
  delta noteSector
  exact (Only.bind (Only.get _) (fun _ => (by split; exact (by extract_lets -underBinder -merge -useContext +onlyGivenNames j; have h0 := show ∀ y, Only [.regs] (j y) from (fun _ => (Only.bind ((count_only _ _).sub rfl) (fun _ => (Only.ite (Only.bind ((count_only _ _).sub rfl) (fun _ => ((eccLast_only _ _ _ _).sub rfl))) (Only.pure _ _))))); clear_value j; exact (Only.ite (Only.bind ((count_only _ _).sub rfl) (fun _ => (h0 _))) (h0 _))))))

theorem markUnit_only (x0 x1) : Only [.regs, .sites] (markUnit x0 x1) := by
  delta markUnit
  exact (Only.bind (Only.rd _ _) (fun _ => (Only.ite (Only.pure _ _) (Only.bind (Only.upd _ rfl) (fun _ => ((addF_only _ _ _).sub rfl))))))

theorem markCover_only (x0 x1) : Only [.regs, .mig] (markCover x0 x1) := by
  delta markCover
  exact (Only.bind (Only.rd _ _) (fun _ => (Only.ite (Only.bind (Only.upd _ rfl) (fun _ => ((addF_only _ _ _).sub rfl))) (Only.pure _ _))))

theorem gWritePiece_only (x0 x1) : Only [.regs, .mem, .sites, .mig] (gWritePiece x0 x1) := by
  delta gWritePiece
  exact (Only.bind (Only.get _) (fun _ => (Only.ite (Only.pure _ _) (Only.bind (Only.forIn _ _ (fun _ _ => (Only.bind ((siteWrite_only _ _ _).sub rfl) (fun _ => (Only.bind ((count_only _ _).sub rfl) (fun _ => (Only.pure _ _))))))) (fun _ => (by extract_lets -underBinder -merge -useContext +onlyGivenNames j; have h0 := show ∀ y, Only [.regs, .mem, .sites, .mig] (j y) from (fun _ => (Only.pure _ _)); clear_value j; exact (Only.ite (Only.bind ((markUnit_only _ _).sub rfl) (fun _ => (h0 _))) (Only.ite (Only.bind ((markCover_only _ _).sub rfl) (fun _ => (h0 _))) (h0 _)))))))))

theorem refuseMem_only (x0 x1 x2 x3 x4) : Only [.regs, .mem] (refuseMem x0 x1 x2 x3 x4) := by
  delta refuseMem
  exact ((recordAs_only _ _ _ _ _ _).sub rfl)

theorem gReadWith_only (x0 x1 x2 x3 x4) : Only [.regs, .mem] (gReadWith x0 x1 x2 x3 x4) := by
  delta gReadWith
  exact (Only.bind (Only.get _) (fun _ => (by split; exact (Only.bind (Only.forIn _ _ (fun _ _ => (by split; exact (Only.bind ((noteSector_only _ _ _).sub rfl) (fun _ => (Only.pure _ _))); exact (Only.bind (Only.skip _) (fun _ => (Only.pure _ _)))))) (fun _ => (Only.pure _ _))); exact (by extract_lets -underBinder -merge -useContext +onlyGivenNames j; have h0 := show ∀ y, Only [.regs, .mem] (j y) from (fun _ => (Only.pure _ _)); clear_value j; exact (Only.ite (Only.bind ((refuseMem_only _ _ _ _ _).sub rfl) (fun _ => (h0 _))) (h0 _))))))

theorem gRead_only (x0 x1 x2 x3) : Only [.regs, .mem] (gRead x0 x1 x2 x3) := by
  delta gRead
  exact ((gReadWith_only _ _ _ _ _).sub rfl)

theorem gWriteRuns_only : ∀ x0 x1 x2 x3, Only [.regs, .mem, .sites, .mig] (gWriteRuns x0 x1 x2 x3)
  | _, _, ([]), _ => by
    rw [gWriteRuns]
    exact (Only.pure _ _)
  | _, _, ((a, n) :: rs), _ => by
    rw [gWriteRuns]
    exact (Only.bind (Only.rd _ _) (fun _ => (by split; exact (Only.bind ((refuseMem_only _ _ _ _ _).sub rfl) (fun _ => (Only.pure _ _))); exact (Only.bind ((gWritePiece_only _ _).sub rfl) (fun _ => (Only.ite ((gWriteRuns_only _ _ _ _).sub rfl) (Only.pure _ _)))))))

theorem gWrite_only (x0 x1 x2 x3) : Only [.regs, .mem, .sites, .mig] (gWrite x0 x1 x2 x3) := by
  delta gWrite
  exact (Only.bind (Only.get _) (fun _ => (by extract_lets -underBinder -merge -useContext +onlyGivenNames j; (try clear_value j); exact (by extract_lets -underBinder -merge -useContext +onlyGivenNames j; (try clear_value j); exact (Only.bind ((gWriteRuns_only _ _ _ _).sub rfl) (fun _ => (by split; exact (Only.pure _ _); exact (Only.bind (Only.forIn _ _ (fun _ _ => (by extract_lets -underBinder -merge -useContext +onlyGivenNames j; have h0 := show ∀ y, Only [.regs, .mem, .sites, .mig] (j y) from (fun _ => (Only.ite (Only.bind ((count_only _ _).sub rfl) (fun _ => (Only.pure _ _))) (Only.pure _ _))); clear_value j; exact (Only.ite (Only.bind ((count_only _ _).sub rfl) (fun _ => (h0 _))) (h0 _))))) (fun _ => (Only.pure _ _))))))))))

theorem hubStore_only (x0 x1 x2) : Only [.mem] (hubStore x0 x1 x2) := by
  delta hubStore
  exact (Only.bind (Only.rd _ _) (fun _ => (Only.ite ((stBytes_only _ _).sub rfl) (Only.pure _ _))))

theorem markDirty_only (x0 x1 x2) : Only [.tab] (markDirty x0 x1 x2) := by
  delta markDirty
  exact (Only.ite (Only.pure _ _) (Only.bind (Only.forIn _ _ (fun _ _ => (by extract_lets -underBinder -merge -useContext +onlyGivenNames j; (try clear_value j); exact (Only.bind ((ldW_only _).sub rfl) (fun _ => (Only.ite (Only.bind ((stW_only _ _).sub rfl) (fun _ => (Only.pure _ _))) (Only.pure _ _))))))) (fun _ => (Only.pure _ _))))

theorem tileWrite_only (x0 x1 x2) : Only [.mem, .tab] (tileWrite x0 x1 x2) := by
  delta tileWrite
  exact (Only.bind ((stBytes_only _ _).sub rfl) (fun _ => ((markDirty_only _ _ _).sub rfl)))

theorem signalTile_only (x0 x1 x2 x3) : Only [.regs, .mem, .tab] (signalTile x0 x1 x2 x3) := by
  delta signalTile
  exact (Only.bind (Only.rd _ _) (fun _ => (by split; exact ((tileWrite_only _ _ _).sub rfl); exact ((refuseMem_only _ _ _ _ _).sub rfl))))

theorem spRead_only (x0 x1 x2 x3 x4) : Only [.regs, .mem] (spRead x0 x1 x2 x3 x4) := by
  delta spRead
  exact (by split; exact (Only.bind (Only.rd _ _) (fun _ => (by split; exact (Only.bind ((refuseMem_only _ _ _ _ _).sub rfl) (fun _ => (Only.pure _ _))); exact (Only.bind ((ldBytes_only _ _).sub rfl) (fun _ => (Only.pure _ _)))))); exact ((gRead_only _ _ _ _).sub rfl); exact (Only.bind (Only.rd _ _) (fun _ => (by split; exact (Only.bind ((refuseMem_only _ _ _ _ _).sub rfl) (fun _ => (Only.pure _ _))); exact (Only.bind ((ldBytes_only _ _).sub rfl) (fun _ => (Only.pure _ _)))))); exact (Only.pure _ _))

theorem spWrite_only (x0 x1 x2 x3 x4) : Only [.regs, .mem, .tab, .sites, .mig] (spWrite x0 x1 x2 x3 x4) := by
  delta spWrite
  exact (by split; exact (Only.bind (Only.rd _ _) (fun _ => (by split; exact (Only.bind ((refuseMem_only _ _ _ _ _).sub rfl) (fun _ => (Only.pure _ _))); exact (Only.bind ((stBytes_only _ _).sub rfl) (fun _ => (Only.pure _ _)))))); exact ((gWrite_only _ _ _ _).sub rfl); exact (Only.bind (Only.rd _ _) (fun _ => (by split; exact (Only.bind ((refuseMem_only _ _ _ _ _).sub rfl) (fun _ => (Only.pure _ _))); exact (Only.bind ((tileWrite_only _ _ _).sub rfl) (fun _ => (Only.pure _ _)))))); exact (Only.pure _ _))

end Sys2Proof.Machine
end

