-- ==== Sys2Proof/Laws/FrameLink.lean ====
section
/-! SUPPORT. Which fields of the state each operation can change, and that it always goes on: rings, packets, links and command packets.
One lemma for each operation, over the lemmas of what it calls. -/

namespace Sys2Proof.Machine

theorem ringSeal_only (x0) : Only [.tab] (ringSeal x0) := by
  delta ringSeal
  exact (Only.bind (Only.get _) (fun _ => (by extract_lets -underBinder -merge -useContext +onlyGivenNames j; (try clear_value j); exact ((stW_only _ _).sub rfl))))

theorem ringSet_only (x0 x1 x2 x3) : Only [.tab] (ringSet x0 x1 x2 x3) := by
  delta ringSet
  exact (Only.bind (Only.get _) (fun _ => (Only.bind ((stW_only _ _).sub rfl) (fun _ => (Only.ite ((ringSeal_only _).sub rfl) (Only.pure _ _))))))

theorem ringUse_only (x0) : Only [.regs, .tab] (ringUse x0) := by
  delta ringUse
  exact (Only.bind (Only.get _) (fun _ => (Only.ite (Only.bind ((count_only _ _).sub rfl) (fun _ => (Only.bind ((ringSet_only _ _ _ _).sub rfl) (fun _ => (Only.pure _ _))))) (Only.pure _ _))))

theorem ringSettle_only (x0) : Only [.regs, .tab] (ringSettle x0) := by
  delta ringSettle
  exact (Only.bind (Only.get _) (fun _ => (by extract_lets -underBinder -merge -useContext +onlyGivenNames j; (try clear_value j); exact (Only.ite ((stW_only _ _).sub rfl) (Only.ite (Only.ite (Only.bind ((stW_only _ _).sub rfl) (fun _ => ((count_only _ _).sub rfl))) (Only.pure _ _)) (Only.bind (Only.forIn _ _ (fun _ _ => (Only.bind ((stW_only _ _).sub rfl) (fun _ => (Only.pure _ _))))) (fun _ => (Only.bind ((ringSet_only _ _ _ _).sub rfl) (fun _ => (Only.bind ((stW_only _ _).sub rfl) (fun _ => ((stW_only _ _).sub rfl))))))))))))

theorem ringRead_only (x0 x1 x2) : Only [.regs, .mem] (ringRead x0 x1 x2) := by
  delta ringRead
  exact (Only.bind (Only.get _) (fun _ => (by split; exact (Only.pure _ _); exact ((spRead_only _ _ _ _ _).sub rfl))))

theorem ringWrite_only (x0 x1 x2 x3) : Only [.regs, .mem, .tab, .sites, .mig] (ringWrite x0 x1 x2 x3) := by
  delta ringWrite
  exact (Only.bind (Only.get _) (fun _ => (by split; exact (Only.pure _ _); exact ((spWrite_only _ _ _ _ _).sub rfl))))

theorem modPort_only (x0 x1) : Only [.ports] (modPort x0 x1) := by
  delta modPort
  exact (Only.bind (Only.rd _ _) (fun _ => (Only.upd _ rfl)))

theorem putFlit_only (x0 x1 x2 x3 x4) : Only [.ports] (putFlit x0 x1 x2 x3 x4) := by
  delta putFlit
  exact (Only.bind (Only.rd _ _) (fun _ => (by extract_lets -underBinder -merge -useContext +onlyGivenNames j; (try clear_value j); exact (by extract_lets -underBinder -merge -useContext +onlyGivenNames j; (try clear_value j); exact (Only.bind (Only.upd _ rfl) (fun _ => (Only.pure _ _)))))))

theorem slotWaits_only (x0 x1) : Only [.regs] (slotWaits x0 x1) := by
  delta slotWaits
  exact (Only.bind (Only.get _) (fun _ => (by extract_lets -underBinder -merge -useContext +onlyGivenNames j; (try clear_value j); exact (by extract_lets -underBinder -merge -useContext +onlyGivenNames j; (try clear_value j); exact (Only.bind (Only.forIn _ _ (fun _ _ => (by extract_lets -underBinder -merge -useContext +onlyGivenNames j; have h0 := show ∀ y, Only [.regs] (j y) from (fun _ => (Only.ite (Only.bind ((count_only _ _).sub rfl) (fun _ => (Only.pure _ _))) (Only.pure _ _))); clear_value j; exact (Only.ite (Only.bind ((count_only _ _).sub rfl) (fun _ => (h0 _))) (h0 _))))) (fun _ => (Only.bind (Only.forIn _ _ (fun _ _ => (by split; exact (Only.bind ((count_only _ _).sub rfl) (fun _ => (Only.pure _ _))); exact (Only.bind (Only.skip _) (fun _ => (Only.pure _ _)))))) (fun _ => (by extract_lets -underBinder -merge -useContext +onlyGivenNames j; have h0 := show ∀ y, Only [.regs] (j y) from (by intro _; unfold j; exact (by extract_lets -underBinder -merge -useContext +onlyGivenNames j; have h0 := show ∀ y, Only [.regs] (j y) from (by intro _; unfold j; exact (by extract_lets -underBinder -merge -useContext +onlyGivenNames j; have h0 := show ∀ y, Only [.regs] (j y) from (fun _ => (Only.ite ((count_only _ _).sub rfl) (Only.pure _ _))); clear_value j; exact (Only.ite (Only.bind ((count_only _ _).sub rfl) (fun _ => (h0 _))) (h0 _)))); clear_value j; exact (Only.ite (Only.bind ((count_only _ _).sub rfl) (fun _ => (h0 _))) (h0 _)))); clear_value j; exact (Only.ite (Only.bind ((count_only _ _).sub rfl) (fun _ => (h0 _))) (h0 _)))))))))))

theorem sendFlit_only (x0 x1) : Only [.regs, .ports, .sent] (sendFlit x0 x1) := by
  delta sendFlit
  exact (Only.bind (Only.get _) (fun _ => (by extract_lets -underBinder -merge -useContext +onlyGivenNames j; (try clear_value j); exact (by split; exact (Only.skip _); exact (Only.bind (Only.upd _ rfl) (fun _ => (Only.bind ((putFlit_only _ _ _ _ _).sub rfl) (fun _ => (Only.bind ((send_only _).sub rfl) (fun _ => (by split; exact (Only.bind ((count_only _ _).sub rfl) (fun _ => ((modPort_only _ _).sub rfl))); exact ((count_only _ _).sub rfl))))))))))))

theorem putIdle_only (x0 x1) : Only [.ports, .sent] (putIdle x0 x1) := by
  delta putIdle
  exact (Only.bind ((putFlit_only _ _ _ _ _).sub rfl) (fun _ => ((send_only _).sub rfl)))

theorem tellPeer_only : ∀ x0 x1, Only [.ports, .sent] (tellPeer x0 x1)
  | _, (0) => by
    rw [tellPeer]
    exact (Only.skip _)
  | _, (fuel + 1) => by
    rw [tellPeer]
    exact (Only.bind (Only.get _) (fun _ => (by extract_lets -underBinder -merge -useContext +onlyGivenNames j; (try clear_value j); exact (Only.ite (Only.bind ((putIdle_only _ _).sub rfl) (fun _ => ((tellPeer_only _ _).sub rfl))) (Only.pure _ _)))))

theorem dropPacket_only (x0 x1) : Only [.regs, .mem] (dropPacket x0 x1) := by
  delta dropPacket
  exact (by split; exact ((count_only _ _).sub rfl); exact (Only.bind ((count_only _ _).sub rfl) (fun _ => (Only.ite ((vlog_only _ _ _).sub rfl) (Only.pure _ _)))); exact (Only.skip _); exact (Only.skip _))

theorem pumpPort_only : ∀ x0 x1, Only [.regs, .ports, .sent] (pumpPort x0 x1)
  | _, (0) => by
    rw [pumpPort]
    exact (Only.skip _)
  | _, (fuel + 1) => by
    rw [pumpPort]
    exact (Only.bind (Only.get _) (fun _ => (by extract_lets -underBinder -merge -useContext +onlyGivenNames j; (try clear_value j); exact (Only.ite (Only.skip _) (Only.ite (Only.bind ((slotWaits_only _ _).sub rfl) (fun _ => (Only.bind ((sendFlit_only _ _).sub rfl) (fun _ => ((pumpPort_only _ _).sub rfl))))) (Only.ite (Only.bind ((slotWaits_only _ _).sub rfl) (fun _ => (Only.bind ((sendFlit_only _ _).sub rfl) (fun _ => ((pumpPort_only _ _).sub rfl))))) (by split; exact (Only.bind ((slotWaits_only _ _).sub rfl) (fun _ => (Only.bind ((modPort_only _ _).sub rfl) (fun _ => (Only.bind ((sendFlit_only _ _).sub rfl) (fun _ => ((pumpPort_only _ _).sub rfl))))))); exact (Only.ite (Only.bind ((slotWaits_only _ _).sub rfl) (fun _ => (Only.bind ((modPort_only _ _).sub rfl) (fun _ => ((pumpPort_only _ _).sub rfl))))) (Only.skip _)))))))))

theorem pump_only (x0) : Only [.regs, .ports, .sent] (pump x0) := by
  delta pump
  exact (Only.bind (Only.get _) (fun _ => (Only.bind ((pumpPort_only _ _).sub rfl) (fun _ => (Only.bind (Only.forIn _ _ (fun _ _ => (Only.bind ((tellPeer_only _ _).sub rfl) (fun _ => (Only.pure _ _))))) (fun _ => (Only.pure _ _)))))))

theorem linkWaits_only (x0) : Only [.regs, .ports, .sent] (linkWaits x0) := by
  delta linkWaits
  exact (Only.bind (Only.get _) (fun _ => (Only.bind (Only.forIn _ _ (fun _ _ => (by extract_lets -underBinder -merge -useContext +onlyGivenNames j; (try clear_value j); exact (Only.ite (by extract_lets -underBinder -merge -useContext +onlyGivenNames j; (try clear_value j); exact (Only.bind ((slotWaits_only _ _).sub rfl) (fun _ => (Only.bind ((modPort_only _ _).sub rfl) (fun _ => (Only.bind ((pump_only _).sub rfl) (fun _ => (Only.pure _ _)))))))) (Only.pure _ _))))) (fun _ => (Only.pure _ _)))))

theorem sendPacket_only (x0 x1 x2 x3) : Only [.regs, .ports, .sent] (sendPacket x0 x1 x2 x3) := by
  delta sendPacket
  exact (Only.bind (Only.get _) (fun _ => (Only.ite (Only.pure _ _) (by extract_lets -underBinder -merge -useContext +onlyGivenNames j; (try clear_value j); exact (Only.bind (Only.upd _ rfl) (fun _ => (Only.bind ((send_only _).sub rfl) (fun _ => ((pump_only _).sub rfl)))))))))

theorem takePacket_only (x0) : Only [.regs, .ports, .sent] (takePacket x0) := by
  delta takePacket
  exact (Only.bind (Only.rd _ _) (fun _ => (by extract_lets -underBinder -merge -useContext +onlyGivenNames j; (try clear_value j); exact (Only.bind (Only.upd _ rfl) (fun _ => (Only.bind ((count_only _ _).sub rfl) (fun _ => ((pump_only _).sub rfl))))))))

theorem transitFlit_only (x0 x1 x2 x3) : Only [.regs, .ports, .sent] (transitFlit x0 x1 x2 x3) := by
  delta transitFlit
  exact (Only.bind (Only.get _) (fun _ => (by extract_lets -underBinder -merge -useContext +onlyGivenNames j; (try clear_value j); exact (Only.ite (Only.pure _ _) (by extract_lets -underBinder -merge -useContext +onlyGivenNames j; (try clear_value j); exact (by extract_lets -underBinder -merge -useContext +onlyGivenNames j; (try clear_value j); exact (Only.bind (Only.upd _ rfl) (fun _ => (by split; exact (Only.bind ((modPort_only _ _).sub rfl) (fun _ => (by extract_lets -underBinder -merge -useContext +onlyGivenNames j; have h0 := show ∀ y, Only [.regs, .ports, .sent] (j y) from (fun _ => ((pump_only _).sub rfl)); clear_value j; exact (Only.ite (Only.bind ((count_only _ _).sub rfl) (fun _ => (h0 _))) (h0 _))))); exact (Only.bind ((modPort_only _ _).sub rfl) (fun _ => ((pump_only _).sub rfl))))))))))))

theorem sendOn_only (x0) : Only [.regs, .ports, .sent] (sendOn x0) := by
  delta sendOn
  exact (Only.bind (Only.forIn _ _ (fun _ _ => (Only.bind ((transitFlit_only _ _ _ _).sub rfl) (fun _ => (Only.pure _ _))))) (fun _ => (Only.pure _ _)))

theorem onPacket_only {l} (r ts) {k : Option Nat → Act Unit} (h : ∀ x, Only l (k x)) (hl : Field.sub [.regs, .mem, .ports, .sent] l = true) :
    Only l (onPacket r ts k) := by
  delta onPacket
  refine Only.bind (Only.get _) (fun _ => Only.ite (Only.pure _ _) ?_)
  split
  · exact Only.ite (Only.bind ((takePacket_only _).sub (Field.sub_trans rfl hl)) (fun _ => h _)) (Only.pure _ _)
  · exact (sendOn_only _).sub (Field.sub_trans rfl hl)
  · exact Only.bind ((takePacket_only _).sub (Field.sub_trans rfl hl))
      (fun _ => (dropPacket_only _ _).sub (Field.sub_trans rfl hl))

theorem sendFor_only (x0 x1 x2 x3) : Only [.regs, .ports, .sent] (sendFor x0 x1 x2 x3) := by
  delta sendFor
  exact (Only.bind (Only.get _) (fun _ => (Only.ite (by extract_lets -underBinder -merge -useContext +onlyGivenNames j; (try clear_value j); exact (Only.upd _ rfl)) ((sendPacket_only _ _ _ _).sub rfl))))

theorem releaseHeld_only (x0 x1) : Only [.regs, .ports, .sent] (releaseHeld x0 x1) := by
  delta releaseHeld
  exact (Only.bind (Only.rd _ _) (fun _ => (Only.bind (Only.upd _ rfl) (fun _ => (Only.bind (Only.forIn _ _ (fun _ _ => (Only.bind ((sendPacket_only _ _ _ _).sub rfl) (fun _ => (Only.pure _ _))))) (fun _ => ((pump_only _).sub rfl)))))))

theorem sendFab_only (x0 x1 x2 x3 x4 x5 x6 x7) : Only [.regs, .ports, .sent] (sendFab x0 x1 x2 x3 x4 x5 x6 x7) := by
  delta sendFab
  exact (Only.bind (Only.get _) (fun _ => ((sendFor_only _ _ _ _).sub rfl)))

theorem sendBoard_only (x0 x1 x2 x3 x4 x5 x6 x7) : Only [.regs, .ports, .sent] (sendBoard x0 x1 x2 x3 x4 x5 x6 x7) := by
  delta sendBoard
  exact (Only.bind (Only.get _) (fun _ => (by extract_lets -underBinder -merge -useContext +onlyGivenNames j; (try clear_value j); exact (Only.ite ((sendFor_only _ _ _ _).sub rfl) ((sendFor_only _ _ _ _).sub rfl)))))

theorem sendRing_only (x0 x1 x2 x3 x4 x5 x6) : Only [.regs, .ports, .sent] (sendRing x0 x1 x2 x3 x4 x5 x6) := by
  delta sendRing
  exact (Only.bind (Only.rd _ _) (fun _ => (by split; exact ((sendFab_only _ _ _ _ _ _ _ _).sub rfl); exact (Only.bind (Only.get _) (fun _ => (by extract_lets -underBinder -merge -useContext +onlyGivenNames j; (try clear_value j); exact (Only.upd _ rfl)))))))

theorem takeAck_only (x0 x1) : Only [.ports] (takeAck x0 x1) := by
  delta takeAck
  exact (Only.bind (Only.rd _ _) (fun _ => (by extract_lets -underBinder -merge -useContext +onlyGivenNames j; (try clear_value j); exact (Only.ite (Only.upd _ rfl) (Only.pure _ _)))))

theorem portEmpty_only (x0) : Only [.ports] (portEmpty x0) := by
  delta portEmpty
  exact (Only.bind ((modPort_only _ _).sub rfl) (fun _ => (Only.bind (Only.forIn _ _ (fun _ _ => (Only.bind ((modPort_only _ _).sub rfl) (fun _ => (Only.pure _ _))))) (fun _ => (Only.pure _ _)))))

theorem takeCredits_only (x0 x1 x2) : Only [.ports] (takeCredits x0 x1 x2) := by
  delta takeCredits
  exact ((modPort_only _ _).sub rfl)

theorem sendLinkMsg_only (x0 x1 x2) : Only [.ports, .sent] (sendLinkMsg x0 x1 x2) := by
  delta sendLinkMsg
  exact (Only.bind ((putFlit_only _ _ _ _ _).sub rfl) (fun _ => ((send_only _).sub rfl)))

theorem swapRequest_only (x0 x1) : Only [.ports, .sent] (swapRequest x0 x1) := by
  delta swapRequest
  exact (Only.bind (Only.get _) (fun _ => (Only.ite (Only.bind (Only.upd _ rfl) (fun _ => ((sendLinkMsg_only _ _ _).sub rfl))) ((sendLinkMsg_only _ _ _).sub rfl))))

theorem setPortState_only (x0 x1) : Only [.regs] (setPortState x0 x1) := by
  delta setPortState
  exact ((wrF_only _ _ _).sub rfl)

theorem failPort_only (x0) : Only [.regs] (failPort x0) := by
  delta failPort
  exact (Only.bind ((setPortState_only _ _).sub rfl) (fun _ => ((setIrq_only _ _).sub rfl)))

theorem setSpare_only (x0 x1 x2) : Only [.regs] (setSpare x0 x1 x2) := by
  delta setSpare
  exact (Only.bind ((wrF_only _ _ _).sub rfl) (fun _ => (Only.bind ((wrF_only _ _ _).sub rfl) (fun _ => (by split; exact (Only.bind (Only.rd _ _) (fun _ => (by extract_lets -underBinder -merge -useContext +onlyGivenNames j; have h0 := show ∀ y, Only [.regs] (j y) from (fun _ => (Only.ite ((wrF_only _ _ _).sub rfl) (Only.pure _ _))); clear_value j; exact (Only.ite (Only.bind ((wrF_only _ _ _).sub rfl) (fun _ => (h0 _))) (h0 _))))); exact (Only.skip _))))))

theorem delayMeasured_only (x0 x1 x2 x3 x4) : Only [.regs] (delayMeasured x0 x1 x2 x3 x4) := by
  delta delayMeasured
  exact (Only.bind (Only.get _) (fun _ => (Only.ite (Only.pure _ _) (by extract_lets -underBinder -merge -useContext +onlyGivenNames j; (try clear_value j); exact ((wrF_only _ _ _).sub rfl)))))

theorem sendReplay_only (x0) : Only [.regs, .ports, .sent] (sendReplay x0) := by
  delta sendReplay
  exact (Only.bind (Only.get _) (fun _ => (by extract_lets -underBinder -merge -useContext +onlyGivenNames j; (try clear_value j); exact (Only.bind (Only.upd _ rfl) (fun _ => (Only.bind (Only.forIn _ _ (fun _ _ => (Only.bind ((putFlit_only _ _ _ _ _).sub rfl) (fun _ => (Only.bind ((send_only _).sub rfl) (fun _ => (Only.pure _ _))))))) (fun _ => ((count_only _ _).sub rfl))))))))

theorem refuseFlit_only (x0) : Only [.ports, .sent] (refuseFlit x0) := by
  delta refuseFlit
  exact (Only.bind (Only.rd _ _) (fun _ => (Only.ite (Only.bind ((modPort_only _ _).sub rfl) (fun _ => ((putIdle_only _ _).sub rfl))) (Only.pure _ _))))

theorem enterRetrain_only (x0) : Only [.regs, .ports] (enterRetrain x0) := by
  delta enterRetrain
  exact (Only.bind (Only.get _) (fun _ => (by extract_lets -underBinder -merge -useContext +onlyGivenNames j; (try clear_value j); exact (by extract_lets -underBinder -merge -useContext +onlyGivenNames j; (try clear_value j); exact (Only.bind (Only.upd _ rfl) (fun _ => (Only.bind ((setPortState_only _ _).sub rfl) (fun _ => (Only.bind ((setIrq_only _ _).sub rfl) (fun _ => (Only.bind ((count_only _ _).sub rfl) (fun _ => (Only.ite (Only.bind ((failPort_only _).sub rfl) (fun _ => (Only.pure _ _))) (Only.pure _ _))))))))))))))

theorem replayNow_only (x0) : Only [.regs, .ports, .sent] (replayNow x0) := by
  delta replayNow
  exact (Only.bind (Only.get _) (fun _ => (by extract_lets -underBinder -merge -useContext +onlyGivenNames j; (try clear_value j); exact (Only.ite (Only.pure _ _) (Only.bind ((sendReplay_only _).sub rfl) (fun _ => (Only.ite ((enterRetrain_only _).sub rfl) (Only.bind ((modPort_only _ _).sub rfl) (fun _ => (Only.pure _ _))))))))))

theorem portEnabled_only (x0 x1) : Only [.regs, .ports] (portEnabled x0 x1) := by
  delta portEnabled
  exact (Only.bind (Only.get _) (fun _ => (Only.ite (Only.ite (Only.bind ((setPortState_only _ _).sub rfl) (fun _ => ((modPort_only _ _).sub rfl))) (Only.pure _ _)) (Only.bind ((setPortState_only _ _).sub rfl) (fun _ => (Only.bind ((wrF_only _ _ _).sub rfl) (fun _ => ((portEmpty_only _).sub rfl))))))))

theorem flitRx_only (x0 x1 x2) : Only [.regs, .ports, .sent] (flitRx x0 x1 x2) := by
  delta flitRx
  exact (Only.bind (Only.get _) (fun _ => (Only.ite (Only.pure _ _) (by extract_lets -underBinder -merge -useContext +onlyGivenNames j; have h0 := show ∀ y, Only [.regs, .ports, .sent] (j y) from (by intro _; unfold j; exact (by extract_lets -underBinder -merge -useContext +onlyGivenNames j; have h0 := show ∀ y, Only [.regs, .ports, .sent] (j y) from (fun _ => (Only.ite (Only.bind ((refuseFlit_only _).sub rfl) (fun _ => (Only.pure _ _))) (Only.ite (Only.pure _ _) (by extract_lets -underBinder -merge -useContext +onlyGivenNames j; have h0 := show ∀ y, Only [.regs, .ports, .sent] (j y) from (fun _ => (Only.bind ((takeCredits_only _ _ _).sub rfl) (fun _ => (by extract_lets -underBinder -merge -useContext +onlyGivenNames j; have h0 := show ∀ y, Only [.regs, .ports, .sent] (j y) from (fun _ => (Only.bind (Only.ite ((replayNow_only _).sub rfl) (Only.pure _ _)) (fun _ => (Only.bind ((pump_only _).sub rfl) (fun _ => (Only.pure _ _)))))); clear_value j; exact (Only.ite (Only.bind (Only.rd _ _) (fun _ => (Only.ite (Only.bind (Only.upd _ rfl) (fun _ => (h0 _))) (Only.bind ((refuseFlit_only _).sub rfl) (fun _ => (h0 _)))))) (h0 _)))))); clear_value j; exact (Only.ite (Only.bind ((takeAck_only _ _).sub rfl) (fun _ => (h0 _))) (h0 _)))))); clear_value j; exact (Only.ite (Only.bind ((count_only _ _).sub rfl) (fun _ => (h0 _))) (h0 _)))); clear_value j; exact (Only.ite (Only.bind ((count_only _ _).sub rfl) (fun _ => (h0 _))) (h0 _))))))

theorem trainTimeout_only (x0) : Only [.regs] (trainTimeout x0) := by
  delta trainTimeout
  exact (Only.bind (Only.get _) (fun _ => (Only.ite (Only.bind ((failPort_only _).sub rfl) (fun _ => (Only.pure _ _))) (Only.pure _ _))))

theorem takeNak_only (x0 x1) : Only [.regs, .ports, .sent] (takeNak x0 x1) := by
  delta takeNak
  exact (Only.bind ((takeAck_only _ _).sub rfl) (fun _ => ((replayNow_only _).sub rfl)))

theorem replayTimeout_only (x0) : Only [.regs, .ports, .sent] (replayTimeout x0) := by
  delta replayTimeout
  exact (Only.bind (Only.get _) (fun _ => (by split; exact (Only.pure _ _); exact (Only.ite ((replayNow_only _).sub rfl) (Only.pure _ _)))))

theorem swapDone_only (x0) : Only [.regs, .ports] (swapDone x0) := by
  delta swapDone
  exact (Only.bind (Only.rd _ _) (fun _ => (by split; exact (Only.skip _); exact (Only.bind (Only.upd _ rfl) (fun _ => (Only.bind ((setSpare_only _ _ _).sub rfl) (fun _ => (Only.bind ((setIrq_only _ _).sub rfl) (fun _ => ((count_only _ _).sub rfl))))))))))

theorem fallBack_only (x0) : Only [.regs, .ports] (fallBack x0) := by
  delta fallBack
  exact (Only.bind (Only.get _) (fun _ => (by extract_lets -underBinder -merge -useContext +onlyGivenNames j; (try clear_value j); exact (by extract_lets -underBinder -merge -useContext +onlyGivenNames j; (try clear_value j); exact (by extract_lets -underBinder -merge -useContext +onlyGivenNames j; (try clear_value j); exact (by extract_lets -underBinder -merge -useContext +onlyGivenNames j; (try clear_value j); exact (Only.ite ((enterRetrain_only _).sub rfl) (Only.bind ((failPort_only _).sub rfl) (fun _ => (Only.pure _ _))))))))))

theorem laneFailed_only (x0 x1) : Only [.regs, .ports, .sent] (laneFailed x0 x1) := by
  delta laneFailed
  exact (Only.bind (Only.get _) (fun _ => (Only.ite (Only.pure _ _) (by extract_lets -underBinder -merge -useContext +onlyGivenNames j; (try clear_value j); exact (Only.bind ((wrF_only _ _ _).sub rfl) (fun _ => (Only.ite (Only.ite (by extract_lets -underBinder -merge -useContext +onlyGivenNames j; (try clear_value j); exact (Only.bind ((setSpare_only _ _ _).sub rfl) (fun _ => (Only.ite ((fallBack_only _).sub rfl) (Only.bind ((wrF_only _ _ _).sub rfl) (fun _ => (Only.ite ((fallBack_only _).sub rfl) (Only.pure _ _)))))))) (Only.bind ((setSpare_only _ _ _).sub rfl) (fun _ => (Only.pure _ _)))) (Only.ite (Only.bind (Only.upd _ rfl) (fun _ => (Only.bind ((sendLinkMsg_only _ _ _).sub rfl) (fun _ => (Only.pure _ _))))) ((fallBack_only _).sub rfl)))))))))

theorem trainPass_only (x0 x1) : Only [.regs, .ports, .sent] (trainPass x0 x1) := by
  delta trainPass
  exact (Only.bind (Only.get _) (fun _ => (by extract_lets -underBinder -merge -useContext +onlyGivenNames j; (try clear_value j); exact (Only.ite (Only.pure _ _) (Only.bind ((wrF_only _ _ _).sub rfl) (fun _ => (Only.bind ((setPortState_only _ _).sub rfl) (fun _ => (by extract_lets -underBinder -merge -useContext +onlyGivenNames j; have h0 := show ∀ y, Only [.regs, .ports, .sent] (j y) from (by intro _; unfold j; exact (by extract_lets -underBinder -merge -useContext +onlyGivenNames j; have h0 := show ∀ y, Only [.regs, .ports, .sent] (j y) from (fun _ => ((pump_only _).sub rfl)); clear_value j; exact (Only.ite (Only.bind (Only.rd _ _) (fun _ => (by extract_lets -underBinder -merge -useContext +onlyGivenNames j; (try clear_value j); exact (Only.ite (Only.bind (Only.upd _ rfl) (fun _ => (Only.bind (Only.forIn _ _ (fun _ _ => (Only.bind ((sendPacket_only _ _ _ _).sub rfl) (fun _ => (Only.pure _ _))))) (fun _ => (h0 _))))) (h0 _))))) (h0 _)))); clear_value j; exact (Only.ite (Only.bind (Only.upd _ rfl) (fun _ => (Only.bind ((send_only _).sub rfl) (fun _ => (h0 _))))) (Only.bind ((modPort_only _ _).sub rfl) (fun _ => (Only.bind ((sendReplay_only _).sub rfl) (fun _ => (h0 _)))))))))))))))

theorem drainPart_only (x0) : Only [.regs] (drainPart x0) := by
  delta drainPart
  exact (Only.bind ((wrF_only _ _ _).sub rfl) (fun _ => ((wrF_only _ _ _).sub rfl)))

theorem quenchPart_only (x0 x1) : Only [.regs, .parts] (quenchPart x0 x1) := by
  delta quenchPart
  exact (Only.bind (Only.get _) (fun _ => (Only.bind ((wrF_only _ _ _).sub rfl) (fun _ => ((wrPart_only _ _).sub rfl)))))

theorem unquenchPart_only (x0) : Only [.regs, .ports, .parts, .col, .sent] (unquenchPart x0) := by
  delta unquenchPart
  exact (Only.bind (Only.get _) (fun _ => (Only.ite (Only.pure _ _) (Only.bind ((wrF_only _ _ _).sub rfl) (fun _ => (Only.bind ((wrPart_only _ _).sub rfl) (fun _ => (by extract_lets -underBinder -merge -useContext +onlyGivenNames j; (try clear_value j); exact (Only.bind (Only.upd _ rfl) (fun _ => (Only.bind (Only.forIn _ _ (fun _ _ => (Only.bind ((releaseHeld_only _ _).sub rfl) (fun _ => (Only.pure _ _))))) (fun _ => (Only.pure _ _)))))))))))))

theorem commandOn_only (x0 x1 x2) : Only [.regs, .ports, .parts, .col, .sent] (commandOn x0 x1 x2) := by
  delta commandOn
  exact (by extract_lets -underBinder -merge -useContext +onlyGivenNames j; have h0 := show ∀ y, Only [.regs, .ports, .parts, .col, .sent] (j y) from (by intro _; unfold j; exact (by extract_lets -underBinder -merge -useContext +onlyGivenNames j; have h0 := show ∀ y, Only [.regs, .ports, .parts, .col, .sent] (j y) from (by intro _; unfold j; exact (by extract_lets -underBinder -merge -useContext +onlyGivenNames j; have h0 := show ∀ y, Only [.regs, .ports, .parts, .col, .sent] (j y) from (fun _ => (Only.ite (Only.bind ((quenchPart_only _ _).sub rfl) (fun _ => ((drainPart_only _).sub rfl))) (Only.pure _ _))); clear_value j; exact (Only.ite (Only.bind ((drainPart_only _).sub rfl) (fun _ => (h0 _))) (h0 _)))); clear_value j; exact (Only.ite (Only.bind ((unquenchPart_only _).sub rfl) (fun _ => (h0 _))) (h0 _)))); clear_value j; exact (Only.ite (Only.bind ((quenchPart_only _ _).sub rfl) (fun _ => (h0 _))) (h0 _)))

theorem quenchClear_only (x0) : Only [.regs, .ports, .parts, .col, .sent] (quenchClear x0) := by
  delta quenchClear
  exact (Only.bind (Only.forIn _ _ (fun _ _ => (Only.bind (Only.rd _ _) (fun _ => (Only.ite (Only.bind ((unquenchPart_only _).sub rfl) (fun _ => (Only.pure _ _))) (Only.pure _ _)))))) (fun _ => (Only.pure _ _)))

theorem quenchExpire_only (x0) : Only [.regs, .ports, .parts, .col, .sent] (quenchExpire x0) := by
  delta quenchExpire
  exact (Only.bind (Only.get _) (fun _ => (by split; exact (Only.ite ((unquenchPart_only _).sub rfl) (Only.pure _ _)); exact (Only.skip _))))

theorem fabricCommand_only (x0 x1 x2) : Only [.regs, .ports, .parts, .col, .sent] (fabricCommand x0 x1 x2) := by
  delta fabricCommand
  exact (Only.bind (Only.get _) (fun _ => (Only.ite ((count_only _ _).sub rfl) (by split; exact ((count_only _ _).sub rfl); exact (Only.bind ((wrR_only _ _).sub rfl) (fun _ => (Only.bind (Only.forIn _ _ (fun _ _ => (Only.bind ((commandOn_only _ _ _).sub rfl) (fun _ => (Only.pure _ _))))) (fun _ => (Only.bind ((count_only _ _).sub rfl) (fun _ => ((setIrq_only _ _).sub rfl)))))))))))

theorem commandPacket_only (x0 x1) : Only [.regs, .mem, .ports, .parts, .col, .sent] (commandPacket x0 x1) := by
  delta commandPacket
  exact (onPacket_only _ _ (fun _ => ((fabricCommand_only _ _ _).sub rfl)) rfl)

theorem coreActs_only {l} (c) {a : Act Unit} (h : Only l a) (_ : Field.sub [] l = true) : Only l (coreActs c a) := by
  delta coreActs
  exact Only.bind (Only.rd _ _) (fun _ => Only.ite h (Only.pure _ _))

theorem hubActs_only {l} (n) {a : Act Unit} (h : Only l a) (_ : Field.sub [] l = true) : Only l (hubActs n a) := by
  delta hubActs
  exact Only.bind (Only.rd _ _) (fun _ => Only.ite h (Only.pure _ _))

theorem awake_only {l} {a : Act Unit} (h : Only l a) (_ : Field.sub [] l = true) : Only l (awake a) := by
  delta awake
  exact Only.bind (Only.rd _ _) (fun _ => Only.ite h (Only.pure _ _))

theorem modLand_only (x0) : Only [.land] (modLand x0) := by
  delta modLand
  exact (Only.bind (Only.rd _ _) (fun _ => (Only.upd _ rfl)))

theorem sendIbi_only (x0) : Only [.sent] (sendIbi x0) := by
  delta sendIbi
  exact (Only.bind (Only.rd _ _) (fun _ => (Only.ite ((send_only _).sub rfl) (Only.pure _ _))))

theorem mgtFrame_only {l} (n) {a : Act Unit} (h : Only l a) (hl : Field.sub [.regs] l = true) : Only l (mgtFrame n a) := by
  delta mgtFrame
  exact Only.bind (Only.rd _ _) (fun _ => Only.ite (Only.bind ((count_only _ _).sub (Field.sub_trans rfl hl)) (fun _ => h))
    (Only.pure _ _))

theorem mgtDrop_only : Only [.regs] mgtDrop := by
  delta mgtDrop
  exact ((count_only _ _).sub rfl)

theorem lowTrip_only : Only [.land, .sent] lowTrip := by
  delta lowTrip
  exact (Only.bind (Only.rd _ _) (fun _ => (Only.ite (Only.bind ((modLand_only _).sub rfl) (fun _ => ((sendIbi_only _).sub rfl))) (Only.pure _ _))))

theorem mgtOut_only (x0) : Only [.regs, .sent] (mgtOut x0) := by
  delta mgtOut
  exact (Only.bind ((count_only _ _).sub rfl) (fun _ => ((send_only _).sub rfl)))

theorem mgtDrain_only : Only [.regs, .land, .sent] mgtDrain := by
  delta mgtDrain
  exact (Only.bind (Only.get _) (fun _ => (Only.ite (Only.bind (Only.forIn _ _ (fun _ _ => (Only.bind ((mgtOut_only _).sub rfl) (fun _ => (Only.pure _ _))))) (fun _ => ((modLand_only _).sub rfl))) (Only.pure _ _))))

theorem mains_only {l} {a : Act Unit} (h : Only l a) (_ : Field.sub [] l = true) : Only l (mains a) := by
  delta mains
  exact Only.bind (Only.rd _ _) (fun _ => Only.ite (awake_only h rfl) (Only.pure _ _))

theorem milestone_only (x0) : Only [.land, .sent] (milestone x0) := by
  delta milestone
  exact (Only.bind (Only.rd _ _) (fun _ => (Only.ite (Only.bind ((modLand_only _).sub rfl) (fun _ => ((sendIbi_only _).sub rfl))) (Only.pure _ _))))

theorem lowFault_only : Only [.land, .sent] lowFault := by
  delta lowFault
  exact (Only.bind (Only.rd _ _) (fun _ => (Only.ite (Only.bind ((modLand_only _).sub rfl) (fun _ => ((sendIbi_only _).sub rfl))) (Only.pure _ _))))

theorem mgtSend_only (x0 x1) : Only [.regs, .land, .sent] (mgtSend x0 x1) := by
  delta mgtSend
  exact (Only.bind (Only.rd _ _) (fun _ => (Only.ite ((modLand_only _).sub rfl) ((mgtOut_only _).sub rfl))))

theorem modTime_only (x0) : Only [.time] (modTime x0) := by
  delta modTime
  exact (Only.bind (Only.rd _ _) (fun _ => (Only.upd _ rfl)))

theorem setSource_only (x0) : Only [.regs] (setSource x0) := by
  delta setSource
  exact (Only.bind (Only.get _) (fun _ => (by extract_lets -underBinder -merge -useContext +onlyGivenNames j; (try clear_value j); exact (Only.bind ((wrF_only _ _ _).sub rfl) (fun _ => ((wrF_only _ _ _).sub rfl))))))

theorem setEstError_only (x0) : Only [.regs] (setEstError x0) := by
  delta setEstError
  exact (Only.bind ((wrF_only _ _ _).sub rfl) (fun _ => (Only.bind ((rdF_only _ _).sub rfl) (fun _ => ((wrF_only _ _ _).sub rfl)))))

theorem clockTick_only : Only [.regs, .time] clockTick := by
  delta clockTick
  exact (Only.bind (Only.get _) (fun _ => (by extract_lets -underBinder -merge -useContext +onlyGivenNames j; (try clear_value j); exact (by extract_lets -underBinder -merge -useContext +onlyGivenNames j; (try clear_value j); exact (Only.bind ((wrR_only _ _).sub rfl) (fun _ => ((modTime_only _).sub rfl)))))))

theorem chooseRate_only : Only [.regs, .free] chooseRate := by
  delta chooseRate
  exact (Only.bind ((freshBelow_only _).sub rfl) (fun _ => ((wrF_only _ _ _).sub rfl)))

theorem tickStart_only : Only [.regs, .time] tickStart := by
  delta tickStart
  exact (Only.bind (Only.get _) (fun _ => (by extract_lets -underBinder -merge -useContext +onlyGivenNames j; (try clear_value j); exact (Only.bind ((wrF_only _ _ _).sub rfl) (fun _ => (Only.bind ((wrR_only _ _).sub rfl) (fun _ => ((modTime_only _).sub rfl))))))))

theorem ptpDelayReq_only : Only [.regs, .time, .land, .sent] ptpDelayReq := by
  delta ptpDelayReq
  exact (Only.bind (Only.get _) (fun _ => (Only.ite (Only.bind ((modTime_only _).sub rfl) (fun _ => (Only.bind ((mgtSend_only _ _).sub rfl) (fun _ => ((count_only _ _).sub rfl))))) (Only.pure _ _))))

theorem ptpFrame_only {l} (d t n) {a : Act Unit} (h : Only l a) (hl : Field.sub [.regs] l = true) : Only l (ptpFrame d t n a) := by
  delta ptpFrame
  exact Only.bind (Only.get _) (fun _ => mgtFrame_only _ (Only.ite h (mgtDrop_only.sub (Field.sub_trans rfl hl)))
    (Field.sub_trans rfl hl))

theorem stepAgain_only : Only [.regs, .time] stepAgain := by
  delta stepAgain
  exact (Only.bind ((modTime_only _).sub rfl) (fun _ => (Only.bind ((rdF_only _ _).sub rfl) (fun _ => (Only.ite (Only.bind ((wrF_only _ _ _).sub rfl) (fun _ => ((clearPageFault_only _).sub rfl))) (Only.pure _ _))))))

theorem takeEstimate_only (x0 x1) : Only [.regs, .time, .free] (takeEstimate x0 x1) := by
  delta takeEstimate
  exact (Only.bind (Only.get _) (fun _ => (by extract_lets -underBinder -merge -useContext +onlyGivenNames j; (try clear_value j); exact (Only.bind ((modTime_only _).sub rfl) (fun _ => (Only.bind ((wrF_only _ _ _).sub rfl) (fun _ => (Only.bind ((setSource_only _).sub rfl) (fun _ => (Only.bind ((freshBelow_only _).sub rfl) (fun _ => (Only.bind ((setEstError_only _).sub rfl) (fun _ => (by split; exact (Only.ite (Only.bind ((wrF_only _ _ _).sub rfl) (fun _ => (Only.bind ((wrF_only _ _ _).sub rfl) (fun _ => ((chooseRate_only).sub rfl))))) (Only.ite (by extract_lets -underBinder -merge -useContext +onlyGivenNames j; (try clear_value j); exact (Only.bind ((wrR_only _ _).sub rfl) (fun _ => ((modTime_only _).sub rfl)))) ((chooseRate_only).sub rfl))); exact ((chooseRate_only).sub rfl); exact (Only.bind ((wrF_only _ _ _).sub rfl) (fun _ => (Only.bind ((clearPageFault_only _).sub rfl) (fun _ => ((chooseRate_only).sub rfl))))); exact (Only.skip _)))))))))))))))

theorem ptpAnnounce_only (x0 x1 x2 x3) : Only [.regs, .time] (ptpAnnounce x0 x1 x2 x3) := by
  delta ptpAnnounce
  exact (ptpFrame_only _ _ _ (Only.bind (Only.get _) (fun _ => (by split; exact (Only.ite ((modTime_only _).sub rfl) (Only.pure _ _)); exact ((modTime_only _).sub rfl)))) rfl)

theorem syncControlled_only (x0) : Only [.regs, .time] (syncControlled x0) := by
  delta syncControlled
  exact (Only.bind (Only.get _) (fun _ => (by extract_lets -underBinder -merge -useContext +onlyGivenNames j; (try clear_value j); exact (Only.bind ((setEstError_only _).sub rfl) (fun _ => (by extract_lets -underBinder -merge -useContext +onlyGivenNames j; (try clear_value j); exact (by extract_lets -underBinder -merge -useContext +onlyGivenNames j; have h0 := show ∀ y, Only [.regs, .time] (j y) from (by intro _; unfold j; exact (by extract_lets -underBinder -merge -useContext +onlyGivenNames j; have h0 := show ∀ y, Only [.regs, .time] (j y) from (fun _ => ((setSource_only _).sub rfl)); clear_value j; exact (Only.ite (Only.bind ((modTime_only _).sub rfl) (fun _ => (h0 _))) (h0 _)))); clear_value j; exact (Only.ite (Only.bind ((modTime_only _).sub rfl) (fun _ => (h0 _))) (h0 _)))))))))

theorem syncEstimate_only (x0) : Only [.regs, .time, .free] (syncEstimate x0) := by
  delta syncEstimate
  exact (Only.bind (Only.get _) (fun _ => (Only.bind ((modTime_only _).sub rfl) (fun _ => ((takeEstimate_only _ _).sub rfl)))))

theorem holdoverError_only (x0) : Only [.regs] (holdoverError x0) := by
  delta holdoverError
  exact (Only.bind (Only.get _) (fun _ => (Only.ite (Only.bind ((setEstError_only _).sub rfl) (fun _ => ((setPageFault_only _).sub rfl))) (Only.pure _ _))))

theorem ptpFollowUp_only (x0 x1 x2 x3 x4 x5) : Only [.regs, .time, .free] (ptpFollowUp x0 x1 x2 x3 x4 x5) := by
  delta ptpFollowUp
  exact (ptpFrame_only _ _ _ (Only.bind (Only.get _) (fun _ => (Only.ite ((syncEstimate_only _).sub rfl) (Only.pure _ _)))) rfl)

theorem syncLoss_only : Only [.regs, .time] syncLoss := by
  delta syncLoss
  exact (Only.bind ((rdF_only _ _).sub rfl) (fun _ => (Only.ite (Only.bind ((wrF_only _ _ _).sub rfl) (fun _ => (Only.bind ((modTime_only _).sub rfl) (fun _ => ((setSource_only _).sub rfl))))) (Only.pure _ _))))

theorem ptpDelayResp_only (x0 x1 x2 x3 x4 x5) : Only [.regs, .time] (ptpDelayResp x0 x1 x2 x3 x4 x5) := by
  delta ptpDelayResp
  exact (ptpFrame_only _ _ _ (Only.bind (Only.get _) (fun _ => (Only.ite (by split; exact (by extract_lets -underBinder -merge -useContext +onlyGivenNames j; (try clear_value j); exact ((modTime_only _).sub rfl)); exact (Only.skip _)) (Only.pure _ _)))) rfl)

theorem ptpSync_only (x0 x1 x2 x3 x4 x5 x6) : Only [.regs, .time, .free] (ptpSync x0 x1 x2 x3 x4 x5 x6) := by
  delta ptpSync
  exact (ptpFrame_only _ _ _ (Only.bind (Only.get _) (fun _ => (Only.ite (Only.bind ((count_only _ _).sub rfl) (fun _ => (Only.bind ((count_only _ _).sub rfl) (fun _ => (Only.bind ((modTime_only _).sub rfl) (fun _ => (by extract_lets -underBinder -merge -useContext +onlyGivenNames j; have h0 := show ∀ y, Only [.regs, .time, .free] (j y) from (fun _ => (Only.ite ((syncEstimate_only _).sub rfl) (Only.pure _ _))); clear_value j; exact (Only.ite (Only.bind ((wrF_only _ _ _).sub rfl) (fun _ => (h0 _))) (h0 _))))))))) (Only.pure _ _)))) rfl)

theorem beacon_only (x0) : Only [.regs, .mem, .time, .ports, .sent, .free] (beacon x0) := by
  delta beacon
  exact (onPacket_only _ _ (fun _ => (Only.bind (Only.get _) (fun _ => (by extract_lets -underBinder -merge -useContext +onlyGivenNames j; (try clear_value j); exact (by extract_lets -underBinder -merge -useContext +onlyGivenNames j; (try clear_value j); exact (Only.ite (by extract_lets -underBinder -merge -useContext +onlyGivenNames j; (try clear_value j); exact (Only.ite (Only.bind ((modTime_only _).sub rfl) (fun _ => ((setSource_only _).sub rfl))) (by extract_lets -underBinder -merge -useContext +onlyGivenNames j; (try clear_value j); exact (by extract_lets -underBinder -merge -useContext +onlyGivenNames j; (try clear_value j); exact (Only.ite ((count_only _ _).sub rfl) (Only.bind ((count_only _ _).sub rfl) (fun _ => (Only.bind ((modTime_only _).sub rfl) (fun _ => (Only.bind (Only.rd _ _) (fun _ => ((takeEstimate_only _ _).sub rfl)))))))))))) (Only.pure _ _))))))) rfl)

theorem pkgFail_only : Only [.regs, .tab, .parts, .land, .sent, .free] pkgFail := by
  delta pkgFail
  exact (Only.bind (Only.rd _ _) (fun _ => (Only.ite (Only.bind ((stW_only _ _).sub rfl) (fun _ => (Only.bind (Only.forIn _ _ (fun _ _ => (Only.bind (Only.rd _ _) (fun _ => (Only.ite (Only.bind ((quenchPart_only _ _).sub rfl) (fun _ => (Only.pure _ _))) (Only.pure _ _)))))) (fun _ => (Only.bind ((lowFault_only).sub rfl) (fun _ => (Only.bind ((freshBelow_only _).sub rfl) (fun _ => ((mgtSend_only _ _).sub rfl))))))))) (Only.pure _ _))))

theorem portsCheck_only : Only [.regs, .tab, .parts, .land, .sent, .free] portsCheck := by
  delta portsCheck
  exact (Only.bind (Only.rd _ _) (fun _ => (Only.ite ((pkgFail_only).sub rfl) (Only.pure _ _))))

end Sys2Proof.Machine
end

