-- ==== Sys2Proof/Laws/FrameTile.lean ====
section
/-! SUPPORT. Which fields of the state each operation can change, and that it always goes on: tiles and their operations.
One lemma for each operation, over the lemmas of what it calls. -/

namespace Sys2Proof.Machine

theorem modTile_only (x0 x1) : Only [.tiles] (modTile x0 x1) := by
  delta modTile
  exact (Only.bind (Only.rd _ _) (fun _ => (Only.upd _ rfl)))

theorem countBad_only (x0 x1 x2 x3) : Only [.regs] (countBad x0 x1 x2 x3) := by
  delta countBad
  exact (Only.bind (Only.get _) (fun _ => (by extract_lets -underBinder -merge -useContext +onlyGivenNames j; (try clear_value j); exact (by extract_lets -underBinder -merge -useContext +onlyGivenNames j; have h0 := show ∀ y, Only [.regs] (j y) from (by intro _; unfold j; exact (by extract_lets -underBinder -merge -useContext +onlyGivenNames j; have h0 := show ∀ y, Only [.regs] (j y) from (fun _ => (Only.ite (by extract_lets -underBinder -merge -useContext +onlyGivenNames j; (try clear_value j); exact (Only.ite ((count_only _ _).sub rfl) (Only.pure _ _))) (Only.pure _ _))); clear_value j; exact (Only.ite (by extract_lets -underBinder -merge -useContext +onlyGivenNames j; (try clear_value j); exact (Only.ite (Only.bind ((count_only _ _).sub rfl) (fun _ => (h0 _))) (h0 _))) (h0 _)))); clear_value j; exact (Only.ite (by extract_lets -underBinder -merge -useContext +onlyGivenNames j; (try clear_value j); exact (Only.ite (Only.bind ((count_only _ _).sub rfl) (fun _ => (h0 _))) (h0 _))) (h0 _))))))

theorem writeVals_only (x0 x1 x2 x3) : Only [.mem, .tab] (writeVals x0 x1 x2 x3) := by
  delta writeVals
  exact ((tileWrite_only _ _ _).sub rfl)

theorem writeWords_only (x0 x1 x2) : Only [.mem, .tab] (writeWords x0 x1 x2) := by
  delta writeWords
  exact ((tileWrite_only _ _ _).sub rfl)

theorem barrierRelease_only (x0) : Only [.tiles] (barrierRelease x0) := by
  delta barrierRelease
  exact (Only.bind (Only.get _) (fun _ => (by extract_lets -underBinder -merge -useContext +onlyGivenNames j; (try clear_value j); exact (by extract_lets -underBinder -merge -useContext +onlyGivenNames j; (try clear_value j); exact (Only.ite (Only.pure _ _) (by split; exact ((modTile_only _ _).sub rfl); exact (Only.skip _)))))))

theorem retireLast_only {l} {a : Nat → Nat → Act Unit} (h : ∀ x y, Only l (a x y)) (p) (_ : Field.sub [] l = true) :
    Only l (retireLast a p) := by
  delta retireLast
  exact Only.bind (Only.rd _ _) (fun _ => h _ _)

theorem advanceRetired_only : ∀ x0 x1, Only [.regs, .tiles] (advanceRetired x0 x1)
  | _, (0) => by
    rw [advanceRetired]
    exact (Only.skip _)
  | _, (fuel + 1) => by
    rw [advanceRetired]
    exact (Only.bind (Only.get _) (fun _ => (by extract_lets -underBinder -merge -useContext +onlyGivenNames j; (try clear_value j); exact (Only.ite (Only.bind ((wrF_only _ _ _).sub rfl) (fun _ => (Only.bind ((modTile_only _ _).sub rfl) (fun _ => ((advanceRetired_only _ _).sub rfl))))) (Only.pure _ _)))))

theorem setWbufTag_only (x0 x1 x2) : Only [.regs] (setWbufTag x0 x1 x2) := by
  delta setWbufTag
  exact ((wrF_only _ _ _).sub rfl)

theorem noteRetired_only (x0 x1) : Only [.regs, .tiles] (noteRetired x0 x1) := by
  delta noteRetired
  exact (Only.bind ((modTile_only _ _).sub rfl) (fun _ => (Only.bind (Only.rd _ _) (fun _ => ((advanceRetired_only _ _).sub rfl)))))

theorem abandonFlights_only (x0) : Only [.regs, .tiles] (abandonFlights x0) := by
  delta abandonFlights
  exact (Only.bind ((modTile_only _ _).sub rfl) (fun _ => ((wrF_only _ _ _).sub rfl)))

theorem setWbuf_only (x0 x1 x2) : Only [.regs] (setWbuf x0 x1 x2) := by
  delta setWbuf
  exact ((wrF_only _ _ _).sub rfl)

theorem settleWbuf_only (x0 x1) : Only [.regs, .tiles] (settleWbuf x0 x1) := by
  delta settleWbuf
  exact (Only.bind (Only.rd _ _) (fun _ => (Only.ite (Only.bind ((modTile_only _ _).sub rfl) (fun _ => ((setWbuf_only _ _ _).sub rfl))) (Only.pure _ _))))

theorem setTileFault_only (x0 x1) : Only [.regs] (setTileFault x0 x1) := by
  delta setTileFault
  exact (Only.bind ((rdF_only _ _).sub rfl) (fun _ => (Only.ite (Only.bind ((wrF_only _ _ _).sub rfl) (fun _ => ((setIrq_only _ _).sub rfl))) (Only.pure _ _))))

theorem discardUnissued_only (x0) : Only [.regs, .tiles] (discardUnissued x0) := by
  delta discardUnissued
  exact (Only.bind (Only.get _) (fun _ => (by extract_lets -underBinder -merge -useContext +onlyGivenNames j; (try clear_value j); exact (Only.bind ((wrF_only _ _ _).sub rfl) (fun _ => (Only.bind ((wrR_only _ _).sub rfl) (fun _ => (Only.ite (Only.bind ((wrF_only _ _ _).sub rfl) (fun _ => (Only.bind ((modTile_only _ _).sub rfl) (fun _ => (Only.bind (Only.forIn _ _ (fun _ _ => (Only.bind (Only.rd _ _) (fun _ => (Only.ite (Only.bind ((setWbuf_only _ _ _).sub rfl) (fun _ => (Only.pure _ _))) (Only.pure _ _)))))) (fun _ => (Only.pure _ _))))))) ((modTile_only _ _).sub rfl)))))))))

theorem signalOp_only (x0 x1) : Only [.regs, .mem, .tab, .tiles] (signalOp x0 x1) := by
  delta signalOp
  exact (Only.bind (Only.get _) (fun _ => (by split; exact (Only.skip _); exact (Only.bind ((modTile_only _ _).sub rfl) (fun _ => ((signalTile_only _ _ _ _).sub rfl))))))

theorem sramCorrected_only (x0 x1) : Only [.regs, .tiles] (sramCorrected x0 x1) := by
  delta sramCorrected
  exact (Only.bind ((count_only _ _).sub rfl) (fun _ => (Only.bind (Only.rd _ _) (fun _ => (Only.bind ((modTile_only _ _).sub rfl) (fun _ => (Only.ite ((setTileFault_only _ _).sub rfl) (Only.pure _ _))))))))

theorem takeHead_only (x0) : Only [.regs] (takeHead x0) := by
  delta takeHead
  exact ((addF_only _ _ _).sub rfl)

theorem flushOps_only (x0) : Only [.regs, .tiles] (flushOps x0) := by
  delta flushOps
  exact ((discardUnissued_only _).sub rfl)

theorem whenIdle_only (x0) : Only [.regs, .tiles] (whenIdle x0) := by
  delta whenIdle
  exact (Only.bind (Only.get _) (fun _ => (by extract_lets -underBinder -merge -useContext +onlyGivenNames j; (try clear_value j); exact (Only.ite (Only.pure _ _) (by extract_lets -underBinder -merge -useContext +onlyGivenNames j; have h0 := show ∀ y, Only [.regs, .tiles] (j y) from (fun _ => (Only.ite (Only.bind ((discardUnissued_only _).sub rfl) (fun _ => (Only.bind ((modTile_only _ _).sub rfl) (fun _ => ((wrF_only _ _ _).sub rfl))))) (Only.pure _ _))); clear_value j; exact (Only.ite (Only.bind ((modTile_only _ _).sub rfl) (fun _ => (Only.bind ((wrF_only _ _ _).sub rfl) (fun _ => (Only.bind (Only.forIn _ _ (fun _ _ => (Only.bind (Only.rd _ _) (fun _ => (Only.ite (Only.bind ((setWbuf_only _ _ _).sub rfl) (fun _ => (Only.pure _ _))) (Only.pure _ _)))))) (fun _ => (h0 _))))))) (h0 _)))))))

theorem descError_only (x0 x1 x2) : Only [.regs, .mem, .tab, .tiles] (descError x0 x1 x2) := by
  delta descError
  exact (Only.bind (Only.get _) (fun _ => (by extract_lets -underBinder -merge -useContext +onlyGivenNames j; (try clear_value j); exact (Only.bind ((count_only _ _).sub rfl) (fun _ => (Only.bind ((takeHead_only _).sub rfl) (fun _ => (by extract_lets -underBinder -merge -useContext +onlyGivenNames j; have h0 := show ∀ y, Only [.regs, .mem, .tab, .tiles] (j y) from (by intro _; unfold j; exact (by extract_lets -underBinder -merge -useContext +onlyGivenNames j; have h0 := show ∀ y, Only [.regs, .mem, .tab, .tiles] (j y) from (by intro _; unfold j; exact (by extract_lets -underBinder -merge -useContext +onlyGivenNames j; (try clear_value j); exact (by extract_lets -underBinder -merge -useContext +onlyGivenNames j; have h0 := show ∀ y, Only [.regs, .mem, .tab, .tiles] (j y) from (fun _ => (Only.ite ((wrF_only _ _ _).sub rfl) ((noteRetired_only _ _).sub rfl))); clear_value j; exact (Only.ite (by split; exact (Only.bind ((rdR_only _).sub rfl) (fun _ => (by extract_lets -underBinder -merge -useContext +onlyGivenNames j; (try clear_value j); exact (Only.bind ((tileWrite_only _ _ _).sub rfl) (fun _ => (h0 _)))))); exact (Only.bind (Only.skip _) (fun _ => (h0 _)))) (h0 _))))); clear_value j; exact (Only.ite (Only.bind ((setTileFault_only _ _).sub rfl) (fun _ => (h0 _))) (h0 _)))); clear_value j; exact (Only.ite (Only.bind ((wrF_only _ _ _).sub rfl) (fun _ => (Only.bind ((wrF_only _ _ _).sub rfl) (fun _ => (Only.bind ((wrF_only _ _ _).sub rfl) (fun _ => (h0 _))))))) (h0 _))))))))))

theorem passBadHeads_only : ∀ x0 x1, Only [.regs, .mem, .tab, .tiles] (passBadHeads x0 x1)
  | _, (0) => by
    rw [passBadHeads]
    exact (Only.skip _)
  | _, (fuel + 1) => by
    rw [passBadHeads]
    exact (Only.bind (Only.get _) (fun _ => (Only.ite (by extract_lets -underBinder -merge -useContext +onlyGivenNames j; (try clear_value j); exact (by split; exact (by split; exact (Only.bind ((descError_only _ _ _).sub rfl) (fun _ => ((passBadHeads_only _ _).sub rfl))); exact (Only.skip _)); exact (Only.skip _))) (Only.pure _ _))))

theorem queueMoves_only (x0) : Only [.regs, .mem, .tab, .tiles] (queueMoves x0) := by
  delta queueMoves
  exact (Only.bind (Only.get _) (fun _ => ((passBadHeads_only _ _).sub rfl)))

theorem retireOp_only (x0 x1 x2) : Only [.regs, .mem, .tab, .tiles] (retireOp x0 x1 x2) := by
  delta retireOp
  exact (Only.bind (Only.get _) (fun _ => (by split; exact (Only.skip _); exact (Only.bind ((sramCorrected_only _ _).sub rfl) (fun _ => (Only.bind ((modTile_only _ _).sub rfl) (fun _ => (Only.bind ((wrF_only _ _ _).sub rfl) (fun _ => (Only.bind ((count_only _ _).sub rfl) (fun _ => (Only.bind ((noteRetired_only _ _).sub rfl) (fun _ => (Only.bind ((settleWbuf_only _ _).sub rfl) (fun _ => (Only.bind ((settleWbuf_only _ _).sub rfl) (fun _ => (Only.bind ((whenIdle_only _).sub rfl) (fun _ => ((queueMoves_only _).sub rfl))))))))))))))))))))

theorem opqTail_only (x0 x1) : Only [.regs, .mem, .tab, .tiles] (opqTail x0 x1) := by
  delta opqTail
  exact (Only.bind (Only.rd _ _) (fun _ => (Only.ite (Only.bind ((count_only _ _).sub rfl) (fun _ => (Only.pure _ _))) (Only.bind ((wrF_only _ _ _).sub rfl) (fun _ => (Only.bind ((queueMoves_only _).sub rfl) (fun _ => (Only.pure _ _))))))))

theorem issueOp_only {l} (p o u f) {k : Nat → List Byte → Act Unit} (h : ∀ x y, Only l (k x y))
    (hl : Field.sub [.regs, .mem, .tab, .tiles] l = true) : Only l (issueOp p o u f k) := by
  delta issueOp
  have hc : ∀ {α : Type} {a : Act α} {m : List Field}, Only m a → Field.sub m [.regs, .mem, .tab, .tiles] = true → Only l a :=
    fun q hm => q.sub (Field.sub_trans hm hl)
  refine Only.bind (Only.get _) (fun s => Only.ite (Only.pure _ _) ?_)
  extract_lets -underBinder -merge -useContext +onlyGivenNames d
  refine Only.ite (Only.pure _ _) ?_
  extract_lets -underBinder -merge -useContext +onlyGivenNames q
  split
  · exact Only.bind (Only.forIn _ _ (fun _ _ => Only.bind (hc (count_only _ _) rfl) (fun _ => Only.pure _ _))) (fun _ => Only.pure _ _)
  · split
    · exact Only.bind (hc (descError_only _ _ _) rfl) (fun _ => hc (queueMoves_only _) rfl)
    · extract_lets -underBinder -merge -useContext +onlyGivenNames jp
      have hj : ∀ y, Only l (jp y) := fun y => Only.bind (hc (takeHead_only _) rfl) (fun _ => Only.bind (hc (modTile_only _ _) rfl)
        (fun _ => Only.bind (hc (wrF_only _ _ _) rfl) (fun _ => Only.bind (h _ _) (fun _ => hc (queueMoves_only _) rfl))))
      exact Only.ite (Only.bind (hc (setWbuf_only _ _ _) rfl) (fun _ => hj ())) (hj ())

theorem modStream_only (x0 x1 x2) : Only [.tiles] (modStream x0 x1 x2) := by
  delta modStream
  exact ((modTile_only _ _).sub rfl)

theorem noteMax_only (x0 x1 x2) : Only [.tiles] (noteMax x0 x1 x2) := by
  delta noteMax
  exact (Only.bind (Only.rd _ _) (fun _ => (Only.ite (by split; exact ((modStream_only _ _ _).sub rfl); exact (Only.skip _)) (Only.pure _ _))))

theorem dropMaxima_only (x0) : Only [.tiles] (dropMaxima x0) := by
  delta dropMaxima
  exact (Only.bind (Only.forIn _ _ (fun _ _ => (Only.bind ((modStream_only _ _ _).sub rfl) (fun _ => (Only.pure _ _))))) (fun _ => (Only.pure _ _)))

theorem countChunk_only (x0 x1 x2 x3) : Only [.regs] (countChunk x0 x1 x2 x3) := by
  delta countChunk
  exact (Only.bind ((count_only _ _).sub rfl) (fun _ => (Only.bind ((count_only _ _).sub rfl) (fun _ => (Only.bind ((count_only _ _).sub rfl) (fun _ => (Only.bind ((count_only _ _).sub rfl) (fun _ => (Only.bind ((count_only _ _).sub rfl) (fun _ => (Only.bind ((count_only _ _).sub rfl) (fun _ => (Only.bind ((count_only _ _).sub rfl) (fun _ => ((count_only _ _).sub rfl)))))))))))))))

theorem histWrite_only (x0 x1) : Only [.regs, .tab] (histWrite x0 x1) := by
  delta histWrite
  exact (Only.bind (Only.get _) (fun _ => (by extract_lets -underBinder -merge -useContext +onlyGivenNames j; (try clear_value j); exact (Only.bind ((stW_only _ _).sub rfl) (fun _ => (Only.bind (Only.rd _ _) (fun _ => ((wrF_only _ _ _).sub rfl))))))))

theorem sampleStreams_only (x0 x1) : Only [.regs, .tiles] (sampleStreams x0 x1) := by
  delta sampleStreams
  exact (Only.bind (Only.get _) (fun _ => (by extract_lets -underBinder -merge -useContext +onlyGivenNames j; have h0 := show ∀ y, Only [.regs, .tiles] (j y) from (fun _ => (Only.bind (Only.forIn _ _ (fun _ _ => (Only.bind ((modStream_only _ _ _).sub rfl) (fun _ => (Only.pure _ _))))) (fun _ => (Only.bind ((modTile_only _ _).sub rfl) (fun _ => (Only.bind ((wrR_only _ _).sub rfl) (fun _ => ((wrR_only _ _).sub rfl)))))))); clear_value j; exact (Only.ite (Only.bind (Only.forIn _ _ (fun _ _ => (by extract_lets -underBinder -merge -useContext +onlyGivenNames j; (try clear_value j); exact (Only.bind ((modStream_only _ _ _).sub rfl) (fun _ => (Only.bind ((wrF_only _ _ _).sub rfl) (fun _ => (Only.pure _ _)))))))) (fun _ => (Only.bind ((modTile_only _ _).sub rfl) (fun _ => (h0 _))))) (h0 _)))))

theorem writeStatus_only (x0 x1 x2 x3) : Only [.regs, .mem, .tab, .tiles] (writeStatus x0 x1 x2 x3) := by
  delta writeStatus
  exact (Only.ite (Only.bind (Only.rd _ _) (fun _ => (by extract_lets -underBinder -merge -useContext +onlyGivenNames j; (try clear_value j); exact (by extract_lets -underBinder -merge -useContext +onlyGivenNames j; (try clear_value j); exact (Only.bind ((tileWrite_only _ _ _).sub rfl) (fun _ => (Only.bind ((modStream_only _ _ _).sub rfl) (fun _ => (Only.ite ((count_only _ _).sub rfl) (Only.pure _ _)))))))))) (Only.pure _ _))

theorem commitHistories_only (x0) : Only [.regs, .tab, .tiles] (commitHistories x0) := by
  delta commitHistories
  exact (Only.bind (Only.get _) (fun _ => (Only.bind (Only.forIn _ _ (fun _ _ => (by split; exact (Only.bind (Only.forIn _ _ (fun _ _ => (Only.bind ((stW_only _ _).sub rfl) (fun _ => (Only.pure _ _))))) (fun _ => (Only.bind ((stW_only _ _).sub rfl) (fun _ => (Only.bind (Only.rd _ _) (fun _ => (Only.bind ((wrF_only _ _ _).sub rfl) (fun _ => (Only.bind ((modStream_only _ _ _).sub rfl) (fun _ => (Only.pure _ _))))))))))); exact (Only.bind (Only.skip _) (fun _ => (Only.pure _ _)))))) (fun _ => ((modTile_only _ _).sub rfl)))))

theorem quantise_only (x0 x1 x2 x3) : Only [.regs, .mem, .tab, .tiles] (quantise x0 x1 x2 x3) := by
  delta quantise
  exact (Only.bind (Only.rd _ _) (fun _ => (by extract_lets -underBinder -merge -useContext +onlyGivenNames j; (try clear_value j); exact (by extract_lets -underBinder -merge -useContext +onlyGivenNames j; (try clear_value j); exact (by extract_lets -underBinder -merge -useContext +onlyGivenNames j; (try clear_value j); exact (Only.bind ((noteMax_only _ _ _).sub rfl) (fun _ => (Only.ite (by extract_lets -underBinder -merge -useContext +onlyGivenNames j; (try clear_value j); exact (by extract_lets -underBinder -merge -useContext +onlyGivenNames j; (try clear_value j); exact (Only.bind ((tileWrite_only _ _ _).sub rfl) (fun _ => (by extract_lets -underBinder -merge -useContext +onlyGivenNames j; have h0 := show ∀ y, Only [.regs, .mem, .tab, .tiles] (j y) from (fun _ => (Only.bind ((writeStatus_only _ _ _ _).sub rfl) (fun _ => (Only.bind ((countChunk_only _ _ _ _).sub rfl) (fun _ => (by extract_lets -underBinder -merge -useContext +onlyGivenNames j; (try clear_value j); exact (by extract_lets -underBinder -merge -useContext +onlyGivenNames j; (try clear_value j); exact (by extract_lets -underBinder -merge -useContext +onlyGivenNames j; (try clear_value j); exact (by extract_lets -underBinder -merge -useContext +onlyGivenNames j; have h0 := show ∀ y, Only [.regs, .mem, .tab, .tiles] (j y) from (by intro _; unfold j; exact (by extract_lets -underBinder -merge -useContext +onlyGivenNames j; have h0 := show ∀ y, Only [.regs, .mem, .tab, .tiles] (j y) from (by intro _; unfold j; exact (by extract_lets -underBinder -merge -useContext +onlyGivenNames j; (try clear_value j); exact (Only.bind ((wrR_only _ _).sub rfl) (fun _ => ((modStream_only _ _ _).sub rfl))))); clear_value j; exact (Only.ite (Only.bind ((count_only _ _).sub rfl) (fun _ => (h0 _))) (h0 _)))); clear_value j; exact (Only.ite (Only.bind ((tileWrite_only _ _ _).sub rfl) (fun _ => (by extract_lets -underBinder -merge -useContext +onlyGivenNames j; have h1 := show ∀ y, Only [.regs, .mem, .tab, .tiles] (j y) from (fun _ => (Only.bind ((count_only _ _).sub rfl) (fun _ => (h0 _)))); clear_value j; exact (Only.ite (Only.bind ((tileWrite_only _ _ _).sub rfl) (fun _ => (h1 _))) (h1 _))))) (h0 _))))))))))); clear_value j; exact (Only.ite (Only.bind ((tileWrite_only _ _ _).sub rfl) (fun _ => (h0 _))) (h0 _))))))) (by extract_lets -underBinder -merge -useContext +onlyGivenNames j; (try clear_value j); exact (Only.bind ((tileWrite_only _ _ _).sub rfl) (fun _ => (Only.bind ((writeStatus_only _ _ _ _).sub rfl) (fun _ => (Only.bind ((countChunk_only _ _ _ _).sub rfl) (fun _ => (Only.bind ((wrR_only _ _).sub rfl) (fun _ => ((modStream_only _ _ _).sub rfl))))))))))))))))))

theorem quantWork_only (x0 x1) : Only [.regs, .mem, .tab, .tiles] (quantWork x0 x1) := by
  delta quantWork
  exact (Only.bind (Only.rd _ _) (fun _ => ((quantise_only _ _ _ _).sub rfl)))

theorem countNan_only (x0 x1) : Only [.regs] (countNan x0 x1) := by
  delta countNan
  exact (by extract_lets -underBinder -merge -useContext +onlyGivenNames j; (try clear_value j); exact (Only.ite ((count_only _ _).sub rfl) (Only.pure _ _)))

theorem writeOut_only (x0 x1 x2) : Only [.regs, .mem, .tab, .tiles] (writeOut x0 x1 x2) := by
  delta writeOut
  exact (by extract_lets -underBinder -merge -useContext +onlyGivenNames j; (try clear_value j); exact (by extract_lets -underBinder -merge -useContext +onlyGivenNames j; (try clear_value j); exact (Only.ite ((quantise_only _ _ _ _).sub rfl) ((writeVals_only _ _ _ _).sub rfl))))

theorem combineWork_only (x0 x1) : Only [.regs, .mem, .tab] (combineWork x0 x1) := by
  delta combineWork
  exact (Only.bind (Only.get _) (fun _ => (by extract_lets -underBinder -merge -useContext +onlyGivenNames j; (try clear_value j); exact (by split; exact (Only.skip _); exact (by extract_lets -underBinder -merge -useContext +onlyGivenNames j; (try clear_value j); exact (Only.bind ((writeVals_only _ _ _ _).sub rfl) (fun _ => ((countNan_only _ _).sub rfl))))))))

theorem finishWork_only (x0 x1) : Only [.regs, .mem, .tab, .tiles] (finishWork x0 x1) := by
  delta finishWork
  exact (Only.bind (Only.get _) (fun _ => (by extract_lets -underBinder -merge -useContext +onlyGivenNames j; (try clear_value j); exact (by extract_lets -underBinder -merge -useContext +onlyGivenNames j; have h0 := show ∀ y, Only [.regs, .mem, .tab, .tiles] (j y) from (fun _ => ((writeOut_only _ _ _).sub rfl)); clear_value j; exact (Only.ite (Only.bind ((countBad_only _ _ _ _).sub rfl) (fun _ => (Only.bind ((countBad_only _ _ _ _).sub rfl) (fun _ => (h0 _))))) (h0 _))))))

theorem matmulWork_only (x0 x1) : Only [.regs, .mem, .tab, .tiles] (matmulWork x0 x1) := by
  delta matmulWork
  exact (Only.bind (Only.get _) (fun _ => (by extract_lets -underBinder -merge -useContext +onlyGivenNames j; (try clear_value j); exact (by extract_lets -underBinder -merge -useContext +onlyGivenNames j; have h0 := show ∀ y, Only [.regs, .mem, .tab, .tiles] (j y) from (fun _ => (Only.bind ((countBad_only _ _ _ _).sub rfl) (fun _ => (by extract_lets -underBinder -merge -useContext +onlyGivenNames j; have h0 := show ∀ y, Only [.regs, .mem, .tab, .tiles] (j y) from (fun _ => (Only.ite ((writeVals_only _ _ _ _).sub rfl) ((writeOut_only _ _ _).sub rfl))); clear_value j; exact (Only.ite (Only.bind ((countBad_only _ _ _ _).sub rfl) (fun _ => (Only.bind ((countBad_only _ _ _ _).sub rfl) (fun _ => (h0 _))))) (h0 _)))))); clear_value j; exact (by split; exact (Only.ite (Only.bind ((countBad_only _ _ _ _).sub rfl) (fun _ => (h0 _))) (Only.bind ((countBad_only _ _ _ _).sub rfl) (fun _ => (Only.ite (Only.bind ((count_only _ _).sub rfl) (fun _ => (h0 _))) (h0 _))))); exact (Only.bind ((countBad_only _ _ _ _).sub rfl) (fun _ => (h0 _))))))))

theorem ropeWork_only (x0 x1) : Only [.regs, .mem, .tab] (ropeWork x0 x1) := by
  delta ropeWork
  exact (Only.bind (Only.get _) (fun _ => (by extract_lets -underBinder -merge -useContext +onlyGivenNames j; (try clear_value j); exact (Only.bind ((writeVals_only _ _ _ _).sub rfl) (fun _ => ((countNan_only _ _).sub rfl))))))

theorem normWork_only (x0 x1 x2) : Only [.regs, .mem, .tab] (normWork x0 x1 x2) := by
  delta normWork
  exact (Only.bind (Only.get _) (fun _ => (by extract_lets -underBinder -merge -useContext +onlyGivenNames j; (try clear_value j); exact (Only.bind ((writeVals_only _ _ _ _).sub rfl) (fun _ => ((countNan_only _ _).sub rfl))))))

theorem reduceWork_only (x0 x1 x2) : Only [.regs, .mem, .tab] (reduceWork x0 x1 x2) := by
  delta reduceWork
  exact (Only.bind (Only.get _) (fun _ => (by extract_lets -underBinder -merge -useContext +onlyGivenNames j; (try clear_value j); exact (Only.bind ((writeVals_only _ _ _ _).sub rfl) (fun _ => ((countNan_only _ _).sub rfl))))))

theorem vewWork_only (x0 x1 x2) : Only [.regs, .mem, .tab] (vewWork x0 x1 x2) := by
  delta vewWork
  exact (Only.bind (Only.get _) (fun _ => (by extract_lets -underBinder -merge -useContext +onlyGivenNames j; (try clear_value j); exact (by split; exact (by extract_lets -underBinder -merge -useContext +onlyGivenNames j; (try clear_value j); exact (by extract_lets -underBinder -merge -useContext +onlyGivenNames j; (try clear_value j); exact (Only.bind ((countBad_only _ _ _ _).sub rfl) (fun _ => (by extract_lets -underBinder -merge -useContext +onlyGivenNames j; have h0 := show ∀ y, Only [.regs, .mem, .tab] (j y) from (by intro _; unfold j; exact (by extract_lets -underBinder -merge -useContext +onlyGivenNames j; have h0 := show ∀ y, Only [.regs, .mem, .tab] (j y) from (fun _ => (Only.bind ((writeVals_only _ _ _ _).sub rfl) (fun _ => ((countNan_only _ _).sub rfl)))); clear_value j; exact (Only.ite (Only.bind ((countBad_only _ _ _ _).sub rfl) (fun _ => (h0 _))) (h0 _)))); clear_value j; exact (Only.ite (Only.bind ((countBad_only _ _ _ _).sub rfl) (fun _ => (h0 _))) (h0 _)))))))))))

theorem actWork_only (x0 x1 x2) : Only [.regs, .mem, .tab] (actWork x0 x1 x2) := by
  delta actWork
  exact (Only.bind (Only.get _) (fun _ => (by extract_lets -underBinder -merge -useContext +onlyGivenNames j; (try clear_value j); exact (Only.bind ((writeVals_only _ _ _ _).sub rfl) (fun _ => ((countNan_only _ _).sub rfl))))))

theorem countSelNan_only (x0 x1 x2) : Only [.regs] (countSelNan x0 x1 x2) := by
  delta countSelNan
  exact (by extract_lets -underBinder -merge -useContext +onlyGivenNames j; (try clear_value j); exact (Only.ite ((count_only _ _).sub rfl) (Only.pure _ _)))

theorem countIndices_only (x0 x1 x2) : Only [.regs] (countIndices x0 x1 x2) := by
  delta countIndices
  exact (by extract_lets -underBinder -merge -useContext +onlyGivenNames j; (try clear_value j); exact (by extract_lets -underBinder -merge -useContext +onlyGivenNames j; (try clear_value j); exact (by extract_lets -underBinder -merge -useContext +onlyGivenNames j; have h0 := show ∀ y, Only [.regs] (j y) from (fun _ => (Only.ite ((count_only _ _).sub rfl) (Only.pure _ _))); clear_value j; exact (Only.ite (Only.bind ((count_only _ _).sub rfl) (fun _ => (h0 _))) (h0 _)))))

theorem scatterRow_only (x0 x1 x2 x3 x4) : Only [.mem, .tab] (scatterRow x0 x1 x2 x3 x4) := by
  delta scatterRow
  exact (by split; exact (Only.skip _); exact (Only.bind (Only.get _) (fun _ => (by extract_lets -underBinder -merge -useContext +onlyGivenNames j; (try clear_value j); exact (by extract_lets -underBinder -merge -useContext +onlyGivenNames j; (try clear_value j); exact (by extract_lets -underBinder -merge -useContext +onlyGivenNames j; (try clear_value j); exact (Only.ite (by extract_lets -underBinder -merge -useContext +onlyGivenNames j; (try clear_value j); exact ((writeVals_only _ _ _ _).sub rfl)) ((tileWrite_only _ _ _).sub rfl))))))))

theorem selectWork_only (x0 x1) : Only [.regs, .mem, .tab] (selectWork x0 x1) := by
  delta selectWork
  exact (Only.bind (Only.get _) (fun _ => (by extract_lets -underBinder -merge -useContext +onlyGivenNames j; (try clear_value j); exact (by extract_lets -underBinder -merge -useContext +onlyGivenNames j; (try clear_value j); exact (Only.bind ((writeVals_only _ _ _ _).sub rfl) (fun _ => (Only.bind ((writeWords_only _ _ _).sub rfl) (fun _ => (Only.bind ((writeWords_only _ _ _).sub rfl) (fun _ => ((countSelNan_only _ _ _).sub rfl)))))))))))

theorem sampleRow_only (x0 x1 x2) : Only [.regs, .mem, .tab] (sampleRow x0 x1 x2) := by
  delta sampleRow
  exact (Only.bind (Only.get _) (fun _ => (by extract_lets -underBinder -merge -useContext +onlyGivenNames j; (try clear_value j); exact (by extract_lets -underBinder -merge -useContext +onlyGivenNames j; (try clear_value j); exact (by extract_lets -underBinder -merge -useContext +onlyGivenNames j; (try clear_value j); exact (by extract_lets -underBinder -merge -useContext +onlyGivenNames j; (try clear_value j); exact (by extract_lets -underBinder -merge -useContext +onlyGivenNames j; (try clear_value j); exact (by extract_lets -underBinder -merge -useContext +onlyGivenNames j; (try clear_value j); exact (by extract_lets -underBinder -merge -useContext +onlyGivenNames j; (try clear_value j); exact (by extract_lets -underBinder -merge -useContext +onlyGivenNames j; (try clear_value j); exact (Only.bind ((writeWords_only _ _ _).sub rfl) (fun _ => (Only.bind ((count_only _ _).sub rfl) (fun _ => (Only.ite ((count_only _ _).sub rfl) (Only.pure _ _))))))))))))))))

theorem gatherWork_only (x0 x1) : Only [.regs, .mem, .tab] (gatherWork x0 x1) := by
  delta gatherWork
  exact (Only.bind (Only.get _) (fun _ => (by extract_lets -underBinder -merge -useContext +onlyGivenNames j; (try clear_value j); exact (by extract_lets -underBinder -merge -useContext +onlyGivenNames j; (try clear_value j); exact (by extract_lets -underBinder -merge -useContext +onlyGivenNames j; (try clear_value j); exact (Only.bind ((tileWrite_only _ _ _).sub rfl) (fun _ => ((countIndices_only _ _ _).sub rfl))))))))

theorem scatterWork_only (x0 x1) : Only [.regs, .mem, .tab] (scatterWork x0 x1) := by
  delta scatterWork
  exact (Only.bind (Only.get _) (fun _ => (by extract_lets -underBinder -merge -useContext +onlyGivenNames j; (try clear_value j); exact (by extract_lets -underBinder -merge -useContext +onlyGivenNames j; (try clear_value j); exact (Only.bind (Only.forIn _ _ (fun _ _ => (Only.bind ((scatterRow_only _ _ _ _ _).sub rfl) (fun _ => (Only.pure _ _))))) (fun _ => ((countIndices_only _ _ _).sub rfl)))))))

theorem topkWork_only (x0 x1) : Only [.regs, .mem, .tab] (topkWork x0 x1) := by
  delta topkWork
  exact (Only.bind (Only.get _) (fun _ => (by extract_lets -underBinder -merge -useContext +onlyGivenNames j; (try clear_value j); exact (by extract_lets -underBinder -merge -useContext +onlyGivenNames j; (try clear_value j); exact (Only.bind ((writeVals_only _ _ _ _).sub rfl) (fun _ => (Only.bind ((writeWords_only _ _ _).sub rfl) (fun _ => ((countSelNan_only _ _ _).sub rfl)))))))))

theorem sampleWork_only (x0 x1) : Only [.regs, .mem, .tab] (sampleWork x0 x1) := by
  delta sampleWork
  exact (Only.bind (Only.forIn _ _ (fun _ _ => (Only.bind ((sampleRow_only _ _ _).sub rfl) (fun _ => (Only.pure _ _))))) (fun _ => (Only.pure _ _)))

theorem waitOp_only (x0) : Only [.regs, .mem, .tab, .tiles] (waitOp x0) := by
  delta waitOp
  exact (Only.bind (Only.get _) (fun _ => (Only.ite (Only.pure _ _) (by extract_lets -underBinder -merge -useContext +onlyGivenNames j; (try clear_value j); exact (by extract_lets -underBinder -merge -useContext +onlyGivenNames j; (try clear_value j); exact (Only.ite ((count_only _ _).sub rfl) (issueOp_only _ _ _ _ (fun _ _ => (retireLast_only (fun _ _ => ((retireOp_only _ _ _).sub rfl)) _ rfl)) rfl)))))))

theorem setPins_only (x0 x1) : Only [.regs, .tiles] (setPins x0 x1) := by
  delta setPins
  exact (Only.bind ((modTile_only _ _).sub rfl) (fun _ => (Only.bind (Only.rd _ _) (fun _ => ((wrF_only _ _ _).sub rfl)))))

theorem countHead_only (x0 x1 x2) : Only [.regs] (countHead x0 x1 x2) := by
  delta countHead
  exact (Only.ite (by extract_lets -underBinder -merge -useContext +onlyGivenNames j; (try clear_value j); exact (Only.ite ((count_only _ _).sub rfl) (Only.pure _ _))) (by extract_lets -underBinder -merge -useContext +onlyGivenNames j; (try clear_value j); exact (Only.ite ((count_only _ _).sub rfl) (Only.pure _ _))))

theorem walkInv_only (x0) : Only [.regs, .tiles] (walkInv x0) := by
  delta walkInv
  exact (Only.bind ((modTile_only _ _).sub rfl) (fun _ => ((wrF_only _ _ _).sub rfl)))

theorem asidePut_only (x0 x1 x2) : Only [.regs, .tiles] (asidePut x0 x1 x2) := by
  delta asidePut
  exact (Only.bind ((modTile_only _ _).sub rfl) (fun _ => (Only.bind (Only.rd _ _) (fun _ => ((wrF_only _ _ _).sub rfl)))))

theorem attnStop_only (x0 x1 x2 x3) : Only [.regs, .mem, .tab] (attnStop x0 x1 x2 x3) := by
  delta attnStop
  exact (Only.bind ((tileWrite_only _ _ _).sub rfl) (fun _ => (Only.bind ((rdF_only _ _).sub rfl) (fun _ => (Only.ite (Only.bind ((wrF_only _ _ _).sub rfl) (fun _ => ((wrF_only _ _ _).sub rfl))) (Only.pure _ _))))))

theorem readPacked_only (x0 x1 x2 x3 x4) : Only [.regs, .mem] (readPacked x0 x1 x2 x3 x4) := by
  delta readPacked
  exact (Only.bind ((gRead_only _ _ _ _).sub rfl) (fun _ => (by split; exact (Only.pure _ _); exact (by extract_lets -underBinder -merge -useContext +onlyGivenNames j; (try clear_value j); exact (by extract_lets -underBinder -merge -useContext +onlyGivenNames j; (try clear_value j); exact (Only.bind (Only.forIn _ _ (fun _ _ => (by extract_lets -underBinder -merge -useContext +onlyGivenNames j; (try clear_value j); exact (by extract_lets -underBinder -merge -useContext +onlyGivenNames j; (try clear_value j); exact (Only.ite (Only.pure _ _) (Only.bind ((gRead_only _ _ _ _).sub rfl) (fun _ => (by split; exact (Only.pure _ _); exact (by split; exact (Only.pure _ _); exact (by extract_lets -underBinder -merge -useContext +onlyGivenNames j; (try clear_value j); exact (Only.pure _ _))))))))))) (fun _ => (by extract_lets -underBinder -merge -useContext +onlyGivenNames j; (try clear_value j); exact (by extract_lets -underBinder -merge -useContext +onlyGivenNames j; (try clear_value j); exact (by split; exact (Only.pure _ _); exact (Only.pure _ _)))))))))))

theorem readFrame_only (x0 x1 x2 x3 x4) : Only [.regs, .mem] (readFrame x0 x1 x2 x3 x4) := by
  delta readFrame
  exact (Only.ite (Only.bind (Only.rd _ _) (fun _ => (by split; exact (Only.pure _ _); exact (Only.bind ((ldBytes_only _ _).sub rfl) (fun _ => (Only.pure _ _)))))) (by extract_lets -underBinder -merge -useContext +onlyGivenNames j; (try clear_value j); exact (by extract_lets -underBinder -merge -useContext +onlyGivenNames j; (try clear_value j); exact (Only.bind (Only.ite ((readPacked_only _ _ _ _ _).sub rfl) ((gRead_only _ _ _ _).sub rfl)) (fun _ => (by split; exact (Only.pure _ _); exact (Only.pure _ _)))))))

theorem asideFetch_only (x0 x1 x2 x3 x4) : Only [.regs, .mem, .tiles] (asideFetch x0 x1 x2 x3 x4) := by
  delta asideFetch
  exact (Only.bind (Only.rd _ _) (fun _ => (by split; exact (Only.bind ((count_only _ _).sub rfl) (fun _ => (Only.bind ((asidePut_only _ _ _).sub rfl) (fun _ => (Only.pure _ _))))); exact (Only.bind ((count_only _ _).sub rfl) (fun _ => (Only.bind ((spRead_only _ _ _ _ _).sub rfl) (fun _ => (by split; exact (Only.bind ((asidePut_only _ _ _).sub rfl) (fun _ => (Only.pure _ _))); exact (Only.pure _ _)))))))))

theorem readBlocks_only : ∀ x0 x1 x2 x3 x4 x5, Only [.regs, .mem] (readBlocks x0 x1 x2 x3 x4 x5)
  | _, _, _, _, _, ([]) => by
    rw [readBlocks]
    exact (Only.pure _ _)
  | _, _, _, _, _, (need :: rest) => by
    rw [readBlocks]
    exact (Only.bind (Only.ite ((readFrame_only _ _ _ _ _).sub rfl) (Only.pure _ _)) (fun _ => (by split; exact (Only.pure _ _); exact (Only.bind ((readBlocks_only _ _ _ _ _ _).sub rfl) (fun _ => (by split; exact (Only.pure _ _); exact (Only.pure _ _)))))))

theorem followLinks_only : ∀ x0 x1 x2 x3 x4, Only [.regs, .mem, .tiles] (followLinks x0 x1 x2 x3 x4)
  | _, _, _, (0), _ => by
    rw [followLinks]
    exact (Only.pure _ _)
  | _, _, _, (fuel + 1), _ => by
    rw [followLinks]
    exact (Only.bind ((asideFetch_only _ _ _ _ _).sub rfl) (fun _ => (by split; exact (Only.pure _ _); exact (Only.ite (Only.bind ((count_only _ _).sub rfl) (fun _ => (Only.pure _ _))) (Only.ite (Only.pure _ _) ((followLinks_only _ _ _ _ _).sub rfl))))))

theorem readHead_only (x0 x1 x2 x3 x4) : Only [.regs, .mem] (readHead x0 x1 x2 x3 x4) := by
  delta readHead
  exact (by extract_lets -underBinder -merge -useContext +onlyGivenNames j; (try clear_value j); exact (by extract_lets -underBinder -merge -useContext +onlyGivenNames j; (try clear_value j); exact (by extract_lets -underBinder -merge -useContext +onlyGivenNames j; (try clear_value j); exact (by extract_lets -underBinder -merge -useContext +onlyGivenNames j; (try clear_value j); exact (Only.bind ((readBlocks_only _ _ _ _ _ _).sub rfl) (fun _ => (by split; exact (Only.pure _ _); exact (Only.bind ((readBlocks_only _ _ _ _ _ _).sub rfl) (fun _ => (by split; exact (Only.pure _ _); exact (Only.ite (Only.pure _ _) (Only.bind ((readBlocks_only _ _ _ _ _ _).sub rfl) (fun _ => (by split; exact (Only.pure _ _); exact (Only.bind ((readBlocks_only _ _ _ _ _ _).sub rfl) (fun _ => (by split; exact (Only.pure _ _); exact (Only.pure _ _))))))))))))))))))

theorem walkEntry_only (x0 x1 x2 x3 x4) : Only [.regs, .mem, .tiles] (walkEntry x0 x1 x2 x3 x4) := by
  delta walkEntry
  exact (Only.bind ((followLinks_only _ _ _ _ _).sub rfl) (fun _ => (by split; exact (Only.pure _ _); exact (Only.bind ((asideFetch_only _ _ _ _ _).sub rfl) (fun _ => (by split; exact (Only.pure _ _); exact (Only.bind (Only.rd _ _) (fun _ => (by split; exact (by extract_lets -underBinder -merge -useContext +onlyGivenNames j; have h0 := show ∀ y, Only [.regs, .mem, .tiles] (j y) from (by intro _; unfold j; exact (by extract_lets -underBinder -merge -useContext +onlyGivenNames j; have h0 := show ∀ y, Only [.regs, .mem, .tiles] (j y) from (fun _ => (Only.pure _ _)); clear_value j; exact (Only.ite (Only.bind ((count_only _ _).sub rfl) (fun _ => (h0 _))) (h0 _)))); clear_value j; exact (Only.ite (Only.bind ((count_only _ _).sub rfl) (fun _ => (h0 _))) (h0 _))); exact (Only.pure _ _))))))))))

theorem useBlock_only (x0 x1 x2 x3 x4 x5 x6 x7) : Only [.regs, .mem, .tiles] (useBlock x0 x1 x2 x3 x4 x5 x6 x7) := by
  delta useBlock
  exact (by extract_lets -underBinder -merge -useContext +onlyGivenNames j; (try clear_value j); exact (by extract_lets -underBinder -merge -useContext +onlyGivenNames j; (try clear_value j); exact (Only.bind ((readHead_only _ _ _ _ _).sub rfl) (fun _ => (by split; exact (Only.pure _ _); exact (Only.bind ((countHead_only _ _ _).sub rfl) (fun _ => (Only.bind ((setPins_only _ _).sub rfl) (fun _ => (Only.pure _ _))))))))))

theorem useAll_only : ∀ x0 x1 x2 x3 x4 x5 x6 x7, Only [.regs, .mem, .tiles] (useAll x0 x1 x2 x3 x4 x5 x6 x7)
  | _, _, _, _, _, _, ([]), _ => by
    rw [useAll]
    exact (Only.pure _ _)
  | _, _, _, _, _, _, (f :: fs), _ => by
    rw [useAll]
    exact (Only.bind ((useBlock_only _ _ _ _ _ _ _ _).sub rfl) (fun _ => (by split; exact (Only.pure _ _); exact ((useAll_only _ _ _ _ _ _ _ _).sub rfl))))

theorem attnWalk_only : ∀ x0 x1 x2 x3 x4 x5 x6 x7 x8 x9 x10, Only [.regs, .mem, .tiles] (attnWalk x0 x1 x2 x3 x4 x5 x6 x7 x8 x9 x10)
  | _, _, _, _, _, _, _, ([]), _, _, _ => by
    rw [attnWalk]
    exact ((useAll_only _ _ _ _ _ _ _ _).sub rfl)
  | _, _, _, _, _, _, _, (b :: bs), _, _, _ => by
    rw [attnWalk]
    exact (Only.bind ((useAll_only _ _ _ _ _ _ _ _).sub rfl) (fun _ => (by split; exact (Only.pure _ _); exact (by extract_lets -underBinder -merge -useContext +onlyGivenNames j; (try clear_value j); exact (by extract_lets -underBinder -merge -useContext +onlyGivenNames j; (try clear_value j); exact (Only.bind ((walkEntry_only _ _ _ _ _).sub rfl) (fun _ => (by split; exact (Only.bind ((useAll_only _ _ _ _ _ _ _ _).sub rfl) (fun _ => (Only.pure _ _))); exact (Only.bind ((setPins_only _ _).sub rfl) (fun _ => ((attnWalk_only _ _ _ _ _ _ _ _ _ _ _).sub rfl)))))))))))

theorem attnWork_only (x0 x1) : Only [.regs, .mem, .tab, .tiles] (attnWork x0 x1) := by
  delta attnWork
  exact (Only.bind (Only.get _) (fun _ => (by extract_lets -underBinder -merge -useContext +onlyGivenNames j; (try clear_value j); exact (Only.ite ((attnStop_only _ _ _ _).sub rfl) (by extract_lets -underBinder -merge -useContext +onlyGivenNames j; (try clear_value j); exact (by extract_lets -underBinder -merge -useContext +onlyGivenNames j; (try clear_value j); exact (by extract_lets -underBinder -merge -useContext +onlyGivenNames j; (try clear_value j); exact (by extract_lets -underBinder -merge -useContext +onlyGivenNames j; (try clear_value j); exact (by extract_lets -underBinder -merge -useContext +onlyGivenNames j; (try clear_value j); exact (by extract_lets -underBinder -merge -useContext +onlyGivenNames j; (try clear_value j); exact (Only.bind ((countBad_only _ _ _ _).sub rfl) (fun _ => (by extract_lets -underBinder -merge -useContext +onlyGivenNames j; (try clear_value j); exact (Only.bind ((attnWalk_only _ _ _ _ _ _ _ _ _ _ _).sub rfl) (fun _ => (Only.bind ((setPins_only _ _).sub rfl) (fun _ => (Only.bind ((count_only _ _).sub rfl) (fun _ => (Only.bind ((count_only _ _).sub rfl) (fun _ => (Only.bind ((count_only _ _).sub rfl) (fun _ => (by split; exact ((attnStop_only _ _ _ _).sub rfl); exact (by extract_lets -underBinder -merge -useContext +onlyGivenNames j; (try clear_value j); exact (Only.bind ((writeVals_only _ _ _ _).sub rfl) (fun _ => (Only.bind ((tileWrite_only _ _ _).sub rfl) (fun _ => ((count_only _ _).sub rfl))))))))))))))))))))))))))))))

end Sys2Proof.Machine
end

