-- ==== Sys2Proof/Laws/FrameRequest.lean ====
section
/-! SUPPORT. Which fields of the state each operation can change, and that it always goes on: request slots, KV lists, the journal, admission and the ling index.
One lemma for each operation, over the lemmas of what it calls. -/

namespace Sys2Proof.Machine

theorem adpSet_only (x0 x1 x2 x3) : Only [.tab] (adpSet x0 x1 x2 x3) := by
  delta adpSet
  exact (Only.bind (Only.rd _ _) (fun _ => ((stW_only _ _).sub rfl)))

theorem modPart_only (x0 x1) : Only [.parts] (modPart x0 x1) := by
  delta modPart
  exact (Only.bind (Only.rd _ _) (fun _ => ((wrPart_only _ _).sub rfl)))

theorem slotPut_only (x0 x1 x2) : Only [.tab] (slotPut x0 x1 x2) := by
  delta slotPut
  exact (Only.bind ((ldW_only _).sub rfl) (fun _ => ((stW_only _ _).sub rfl)))

theorem adpPin_only (x0 x1) : Only [.regs, .tab] (adpPin x0 x1) := by
  delta adpPin
  exact (Only.bind (Only.rd _ _) (fun _ => (Only.bind ((adpSet_only _ _ _ _).sub rfl) (fun _ => ((count_only _ _).sub rfl)))))

theorem showAdapters_only (x0) : Only [.regs] (showAdapters x0) := by
  delta showAdapters
  exact (Only.bind (Only.rd _ _) (fun _ => ((wrF_only _ _ _).sub rfl)))

theorem moveTail_only (x0 x1) : Only [.regs, .tab] (moveTail x0 x1) := by
  delta moveTail
  exact (Only.bind ((ringUse_only _).sub rfl) (fun _ => (Only.bind (Only.rd _ _) (fun _ => (Only.ite (Only.pure _ _) (Only.bind ((ringSet_only _ _ _ _).sub rfl) (fun _ => (Only.pure _ _))))))))

theorem adpClear_only (x0) : Only [.regs, .tab] (adpClear x0) := by
  delta adpClear
  exact (Only.bind (Only.rd _ _) (fun _ => (Only.bind (Only.forIn _ _ (fun _ _ => (Only.bind ((stW_only _ _).sub rfl) (fun _ => (Only.pure _ _))))) (fun _ => ((showAdapters_only _).sub rfl)))))

theorem slotSeal_only (x0) : Only [.tab] (slotSeal x0) := by
  delta slotSeal
  exact (Only.bind (Only.get _) (fun _ => ((slotPut_only _ _ _).sub rfl)))

theorem adpRetire_only (x0) : Only [.regs, .tab] (adpRetire x0) := by
  delta adpRetire
  exact (Only.bind (Only.rd _ _) (fun _ => (Only.bind ((adpClear_only _).sub rfl) (fun _ => (Only.bind ((count_only _ _).sub rfl) (fun _ => ((setIrq_only _ _).sub rfl)))))))

theorem addAdmitting_only (x0) : Only [.regs] (addAdmitting x0) := by
  delta addAdmitting
  exact (Only.bind ((rdF_only _ _).sub rfl) (fun _ => ((wrF_only _ _ _).sub rfl)))

theorem slotSettle_only (x0) : Only [.regs, .tab] (slotSettle x0) := by
  delta slotSettle
  exact (Only.bind (Only.get _) (fun _ => (by extract_lets -underBinder -merge -useContext +onlyGivenNames j; (try clear_value j); exact (Only.ite ((stW_only _ _).sub rfl) (Only.ite (Only.ite (Only.bind ((stW_only _ _).sub rfl) (fun _ => ((count_only _ _).sub rfl))) (Only.pure _ _)) (Only.bind ((stW_only _ _).sub rfl) (fun _ => ((stW_only _ _).sub rfl))))))))

theorem addLive_only (x0) : Only [.regs] (addLive x0) := by
  delta addLive
  exact (Only.bind ((rdF_only _ _).sub rfl) (fun _ => ((wrF_only _ _ _).sub rfl)))

theorem slotSet_only (x0 x1 x2) : Only [.tab] (slotSet x0 x1 x2) := by
  delta slotSet
  exact (Only.bind ((slotPut_only _ _ _).sub rfl) (fun _ => ((slotSeal_only _).sub rfl)))

theorem adpUnpin_only (x0 x1 x2) : Only [.regs, .tab] (adpUnpin x0 x1 x2) := by
  delta adpUnpin
  exact (Only.ite (Only.pure _ _) (Only.bind (Only.rd _ _) (fun _ => (by split; exact (Only.skip _); exact (Only.bind (Only.get _) (fun _ => (by extract_lets -underBinder -merge -useContext +onlyGivenNames j; (try clear_value j); exact (Only.bind ((adpSet_only _ _ _ _).sub rfl) (fun _ => (Only.ite ((adpRetire_only _).sub rfl) (Only.pure _ _)))))))))))

theorem slotSound_only (x0 x1) : Only [.regs, .tab, .parts] (slotSound x0 x1) := by
  delta slotSound
  exact (Only.bind (Only.get _) (fun _ => (Only.ite (Only.bind ((count_only _ _).sub rfl) (fun _ => (Only.bind ((slotSet_only _ _ _).sub rfl) (fun _ => (Only.bind ((slotSet_only _ _ _).sub rfl) (fun _ => (Only.bind ((slotSet_only _ _ _).sub rfl) (fun _ => (Only.ite (Only.bind ((stW_only _ _).sub rfl) (fun _ => ((modPart_only _ _).sub rfl))) (Only.pure _ _)))))))))) (Only.pure _ _))))

theorem slotFree_only (x0 x1) : Only [.regs, .tab, .parts] (slotFree x0 x1) := by
  delta slotFree
  exact (Only.bind (Only.get _) (fun _ => (Only.bind ((adpUnpin_only _ _ _).sub rfl) (fun _ => (Only.bind (Only.forIn _ _ (fun _ _ => (Only.bind ((stW_only _ _).sub rfl) (fun _ => (Only.pure _ _))))) (fun _ => (Only.bind ((modPart_only _ _).sub rfl) (fun _ => (Only.bind ((addLive_only _).sub rfl) (fun _ => ((slotSettle_only _).sub rfl)))))))))))

theorem tableSound_only (x0) : Only [.regs, .tab, .parts] (tableSound x0) := by
  delta tableSound
  exact (Only.bind (Only.rd _ _) (fun _ => (Only.bind (Only.forIn _ _ (fun _ _ => (Only.bind ((slotSound_only _ _).sub rfl) (fun _ => (Only.pure _ _))))) (fun _ => (Only.pure _ _)))))

theorem slotMaybeFree_only (x0 x1) : Only [.regs, .tab, .parts] (slotMaybeFree x0 x1) := by
  delta slotMaybeFree
  exact (Only.bind (Only.get _) (fun _ => (by extract_lets -underBinder -merge -useContext +onlyGivenNames j; (try clear_value j); exact (Only.ite ((slotFree_only _ _).sub rfl) (Only.pure _ _)))))

theorem sendTail_only (x0 x1) : Only [.regs, .ports, .sent] (sendTail x0 x1) := by
  delta sendTail
  exact (Only.bind (Only.get _) (fun _ => ((sendRing_only _ _ _ _ _ _ _).sub rfl)))

theorem publishTail_only (x0 x1 x2) : Only [.regs, .tab, .ports, .sent] (publishTail x0 x1 x2) := by
  delta publishTail
  exact (Only.bind ((moveTail_only _ _).sub rfl) (fun _ => (Only.ite ((sendTail_only _ _).sub rfl) (Only.pure _ _))))

theorem postEntry_only (x0 x1 x2) : Only [.regs, .mem, .tab, .ports, .sites, .mig, .sent] (postEntry x0 x1 x2) := by
  delta postEntry
  exact (Only.bind ((ringUse_only _).sub rfl) (fun _ => (Only.bind (Only.get _) (fun _ => (by extract_lets -underBinder -merge -useContext +onlyGivenNames j; (try clear_value j); exact (Only.ite (Only.pure _ _) (Only.bind ((ringWrite_only _ _ _ _).sub rfl) (fun _ => (Only.bind ((ringSet_only _ _ _ _).sub rfl) (fun _ => (Only.bind ((count_only _ _).sub rfl) (fun _ => (Only.bind ((sendRing_only _ _ _ _ _ _ _).sub rfl) (fun _ => (Only.pure _ _)))))))))))))))

theorem postRecord_only (x0 x1 x2) : Only [.regs, .mem, .tab, .ports, .sites, .mig, .sent] (postRecord x0 x1 x2) := by
  delta postRecord
  exact (Only.bind ((postEntry_only _ _ _).sub rfl) (fun _ => (Only.bind ((publishTail_only _ _ _).sub rfl) (fun _ => (Only.pure _ _)))))

theorem freeFrame_only (x0 x1) : Only [.parts] (freeFrame x0 x1) := by
  delta freeFrame
  exact (Only.ite ((modPart_only _ _).sub rfl) (Only.pure _ _))

theorem takeFrame_only (x0) : Only [.parts] (takeFrame x0) := by
  delta takeFrame
  exact (Only.bind (Only.rd _ _) (fun _ => (by split; exact (Only.pure _ _); exact (Only.bind ((modPart_only _ _).sub rfl) (fun _ => (Only.pure _ _))))))

theorem rcSet_only (x0 x1 x2) : Only [.tab] (rcSet x0 x1 x2) := by
  delta rcSet
  exact (Only.bind (Only.rd _ _) (fun _ => ((stW_only _ _).sub rfl)))

theorem rcRelease_only (x0 x1) : Only [.tab, .parts] (rcRelease x0 x1) := by
  delta rcRelease
  exact (Only.bind (Only.get _) (fun _ => (Only.ite (Only.bind ((freeFrame_only _ _).sub rfl) (fun _ => ((stW_only _ _).sub rfl))) (Only.pure _ _))))

theorem rcTake_only (x0) : Only [.tab] (rcTake x0) := by
  delta rcTake
  exact (Only.bind (Only.get _) (fun _ => (Only.bind ((rcSet_only _ _ _).sub rfl) (fun _ => ((rcSet_only _ _ _).sub rfl)))))

theorem rcAlloc_only (x0 x1) : Only [.regs, .tab] (rcAlloc x0 x1) := by
  delta rcAlloc
  exact (Only.bind (Only.rd _ _) (fun _ => (by split; exact (Only.bind ((count_only _ _).sub rfl) (fun _ => (Only.pure _ _))); exact (Only.bind ((stW_only _ _).sub rfl) (fun _ => (Only.pure _ _))))))

theorem rcDrop_only (x0 x1) : Only [.regs, .tab, .parts] (rcDrop x0 x1) := by
  delta rcDrop
  exact (Only.bind (Only.get _) (fun _ => (Only.ite (Only.bind ((rcSet_only _ _ _).sub rfl) (fun _ => (by extract_lets -underBinder -merge -useContext +onlyGivenNames j; have h0 := show ∀ y, Only [.regs, .tab, .parts] (j y) from (fun _ => ((rcRelease_only _ _).sub rfl)); clear_value j; exact (Only.ite (Only.bind ((rcSet_only _ _ _).sub rfl) (fun _ => (Only.bind ((count_only _ _).sub rfl) (fun _ => (h0 _))))) (h0 _))))) (Only.pure _ _))))

theorem leaseTake_only (x0 x1 x2 x3) : Only [.tab, .parts] (leaseTake x0 x1 x2 x3) := by
  delta leaseTake
  exact (Only.bind (Only.rd _ _) (fun _ => (Only.bind ((rcSet_only _ _ _).sub rfl) (fun _ => ((modPart_only _ _).sub rfl)))))

theorem leaseReturn_only (x0 x1) : Only [.tab, .parts] (leaseReturn x0 x1) := by
  delta leaseReturn
  exact (Only.bind (Only.rd _ _) (fun _ => (Only.bind ((modPart_only _ _).sub rfl) (fun _ => (Only.bind (Only.forIn _ _ (fun _ _ => (Only.bind (Only.rd _ _) (fun _ => (Only.bind ((rcSet_only _ _ _).sub rfl) (fun _ => (Only.bind ((rcRelease_only _ _).sub rfl) (fun _ => (Only.pure _ _))))))))) (fun _ => (Only.pure _ _)))))))

theorem engNote_only (x0 x1 x2 x3) : Only [.regs, .mem] (engNote x0 x1 x2 x3) := by
  delta engNote
  exact (Only.bind ((spRead_only _ _ _ _ _).sub rfl) (fun _ => (Only.pure _ _)))

theorem engNotes_only (x0 x1) : Only [.regs, .mem] (engNotes x0 x1) := by
  delta engNotes
  exact (Only.bind (Only.forIn _ _ (fun _ _ => (Only.bind ((engNote_only _ _ _ _).sub rfl) (fun _ => (Only.pure _ _))))) (fun _ => (Only.pure _ _)))

theorem releaseBlocks_only : ∀ x0 x1 x2 x3 x4, Only [.regs, .mem, .parts] (releaseBlocks x0 x1 x2 x3 x4)
  | _, _, _, (0), _ => by
    rw [releaseBlocks]
    exact (Only.skip _)
  | _, _, _, (_ + 1), (none) => by
    rw [releaseBlocks]
    · exact Only.skip _
    · intro h; omega
  | _, _, _, (fuel + 1), (some b) => by
    rw [releaseBlocks]
    exact (Only.bind (Only.get _) (fun _ => (by extract_lets -underBinder -merge -useContext +onlyGivenNames j; (try clear_value j); exact (Only.bind ((engNotes_only _ _).sub rfl) (fun _ => (by extract_lets -underBinder -merge -useContext +onlyGivenNames j; have h0 := show ∀ y, Only [.regs, .mem, .parts] (j y) from (fun _ => ((releaseBlocks_only _ _ _ _ _).sub rfl)); clear_value j; exact (Only.ite (Only.bind ((modPart_only _ _).sub rfl) (fun _ => (h0 _))) (h0 _))))))))

theorem zeroFrame_only (x0 x1) : Only [.regs, .mem, .tab, .sites, .mig] (zeroFrame x0 x1) := by
  delta zeroFrame
  exact (Only.bind (Only.rd _ _) (fun _ => (Only.ite (Only.bind ((spWrite_only _ _ _ _ _).sub rfl) (fun _ => (Only.pure _ _))) (Only.pure _ _))))

theorem engWrite_only (x0 x1 x2 x3) : Only [.regs, .mem, .tab, .sites, .mig] (engWrite x0 x1 x2 x3) := by
  delta engWrite
  exact (Only.bind ((spWrite_only _ _ _ _ _).sub rfl) (fun _ => (Only.pure _ _)))

theorem takeBlock_only (x0) : Only [.regs, .mem, .tab, .parts, .sites, .mig] (takeBlock x0) := by
  delta takeBlock
  exact (Only.bind (Only.rd _ _) (fun _ => (by split; exact (Only.bind ((modPart_only _ _).sub rfl) (fun _ => (Only.bind ((engWrite_only _ _ _ _).sub rfl) (fun _ => (Only.pure _ _))))); exact (Only.bind ((takeFrame_only _).sub rfl) (fun _ => (by split; exact (Only.pure _ _); exact (Only.bind ((modPart_only _ _).sub rfl) (fun _ => (Only.bind ((engWrite_only _ _ _ _).sub rfl) (fun _ => (Only.pure _ _)))))))))))

theorem dropEntry_only (x0 x1 x2 x3 x4) : Only [.regs, .mem, .tab, .parts, .sites, .mig] (dropEntry x0 x1 x2 x3 x4) := by
  delta dropEntry
  exact (Only.bind (Only.get _) (fun _ => (Only.bind ((engNotes_only _ _).sub rfl) (fun _ => (by split; exact (Only.bind ((engWrite_only _ _ _ _).sub rfl) (fun _ => (Only.ite (Only.ite ((rcDrop_only _ _).sub rfl) (Only.pure _ _)) (Only.ite ((freeFrame_only _ _).sub rfl) (Only.pure _ _))))); exact (Only.skip _))))))

theorem releasePast_only (x0 x1 x2 x3) : Only [.regs, .mem, .tab, .parts, .sites, .mig] (releasePast x0 x1 x2 x3) := by
  delta releasePast
  exact (Only.bind (Only.rd _ _) (fun _ => (by extract_lets -underBinder -merge -useContext +onlyGivenNames j; (try clear_value j); exact (by extract_lets -underBinder -merge -useContext +onlyGivenNames j; (try clear_value j); exact (Only.bind (Only.forIn _ _ (fun _ _ => (Only.bind (Only.forIn _ _ (fun _ _ => (Only.bind (Only.rd _ _) (fun _ => (Only.bind (Only.rd _ _) (fun _ => (by extract_lets -underBinder -merge -useContext +onlyGivenNames j; have h0 := show ∀ y, Only [.regs, .mem, .tab, .parts, .sites, .mig] (j y) from (fun _ => (Only.bind ((dropEntry_only _ _ _ _ _).sub rfl) (fun _ => (Only.pure _ _)))); clear_value j; exact (by split; exact (Only.ite (Only.bind ((modPart_only _ _).sub rfl) (fun _ => (h0 _))) (h0 _)); exact (Only.bind (Only.skip _) (fun _ => (h0 _))))))))))) (fun _ => (Only.pure _ _))))) (fun _ => (Only.pure _ _)))))))

theorem releaseLists_only (x0 x1) : Only [.regs, .mem, .tab, .parts, .sites, .mig] (releaseLists x0 x1) := by
  delta releaseLists
  exact (Only.bind (Only.get _) (fun _ => (Only.bind ((releasePast_only _ _ _ _).sub rfl) (fun _ => (Only.bind (Only.forIn _ _ (fun _ _ => (Only.bind (Only.rd _ _) (fun _ => (Only.bind ((releaseBlocks_only _ _ _ _ _).sub rfl) (fun _ => (Only.bind ((slotSet_only _ _ _).sub rfl) (fun _ => (Only.pure _ _))))))))) (fun _ => ((modPart_only _ _).sub rfl)))))))

theorem growList_only : ∀ x0 x1 x2 x3, Only [.regs, .mem, .tab, .parts, .sites, .mig] (growList x0 x1 x2 x3)
  | _, _, _, (0) => by
    rw [growList]
    exact (Only.bind (Only.rd _ _) (fun _ => (Only.ite (Only.pure _ _) (Only.bind ((takeBlock_only _).sub rfl) (fun _ => (by split; exact (Only.pure _ _); exact (Only.bind ((slotSet_only _ _ _).sub rfl) (fun _ => (Only.pure _ _)))))))))
  | _, _, _, (k + 1) => by
    rw [growList]
    exact (Only.bind ((growList_only _ _ _ _).sub rfl) (fun _ => (Only.ite (Only.pure _ _) (Only.bind (Only.get _) (fun _ => (by split; exact (Only.pure _ _); exact (Only.ite (Only.pure _ _) (by split; exact (Only.pure _ _); exact (Only.bind ((takeBlock_only _).sub rfl) (fun _ => (by split; exact (Only.pure _ _); exact (Only.bind ((engWrite_only _ _ _ _).sub rfl) (fun _ => (Only.pure _ _))))))))))))))

theorem putEntry_only (x0 x1 x2 x3 x4) : Only [.regs, .mem, .tab, .parts, .sites, .mig] (putEntry x0 x1 x2 x3 x4) := by
  delta putEntry
  exact (Only.bind ((growList_only _ _ _ _).sub rfl) (fun _ => (Only.ite (Only.pure _ _) (Only.bind (Only.rd _ _) (fun _ => (by split; exact (Only.pure _ _); exact (Only.bind ((engWrite_only _ _ _ _).sub rfl) (fun _ => (Only.pure _ _)))))))))

theorem jReclaim_only (x0) : Only [.parts] (jReclaim x0) := by
  delta jReclaim
  exact ((modPart_only _ _).sub rfl)

theorem mirrorAnew_only (x0 x1) : Only [.tab] (mirrorAnew x0 x1) := by
  delta mirrorAnew
  exact (Only.bind ((stW_only _ _).sub rfl) (fun _ => ((stW_only _ _).sub rfl)))

theorem stopIfDone_only (x0) : Only [.regs] (stopIfDone x0) := by
  delta stopIfDone
  exact (Only.bind (Only.get _) (fun _ => (Only.ite ((wrF_only _ _ _).sub rfl) (Only.pure _ _))))

theorem mirrorTimeout_only (x0) : Only [.regs] (mirrorTimeout x0) := by
  delta mirrorTimeout
  exact (Only.bind (Only.get _) (fun _ => (Only.ite (Only.bind ((wrF_only _ _ _).sub rfl) (fun _ => ((setIrq_only _ _).sub rfl))) (Only.pure _ _))))

theorem showPending_only (x0) : Only [.regs] (showPending x0) := by
  delta showPending
  exact (Only.bind (Only.rd _ _) (fun _ => ((wrF_only _ _ _).sub rfl)))

theorem sendAuto_only (x0 x1 x2 x3 x4 x5 x6) : Only [.regs, .ports, .sent] (sendAuto x0 x1 x2 x3 x4 x5 x6) := by
  delta sendAuto
  exact (Only.bind (Only.rd _ _) (fun _ => (by split; exact (Only.bind ((sendFab_only _ _ _ _ _ _ _ _).sub rfl) (fun _ => (Only.pure _ _))); exact (Only.bind ((sendBoard_only _ _ _ _ _ _ _ _).sub rfl) (fun _ => (Only.pure _ _))); exact (Only.pure _ _))))

theorem jWrite_only (x0 x1 x2 x3 x4 x5) : Only [.regs, .mem, .ports, .parts, .sites, .mig, .sent] (jWrite x0 x1 x2 x3 x4 x5) := by
  delta jWrite
  exact (Only.bind (Only.get _) (fun _ => (by extract_lets -underBinder -merge -useContext +onlyGivenNames j; (try clear_value j); exact (by extract_lets -underBinder -merge -useContext +onlyGivenNames j; (try clear_value j); exact (by extract_lets -underBinder -merge -useContext +onlyGivenNames j; (try clear_value j); exact (Only.bind ((jReclaim_only _).sub rfl) (fun _ => (Only.bind (Only.forIn _ _ (fun _ _ => (Only.bind ((gWrite_only _ _ _ _).sub rfl) (fun _ => (Only.bind ((sendAuto_only _ _ _ _ _ _ _).sub rfl) (fun _ => (Only.pure _ _))))))) (fun _ => (Only.bind ((wrF_only _ _ _).sub rfl) (fun _ => (Only.bind ((modPart_only _ _).sub rfl) (fun _ => (Only.pure _ _))))))))))))))

theorem mirrorPacket_only (x0) : Only [.regs, .mem, .tab, .ports, .sites, .mig, .sent] (mirrorPacket x0) := by
  delta mirrorPacket
  exact (onPacket_only _ _ (fun _ => (by split; exact (Only.skip _); exact (Only.bind (Only.get _) (fun _ => (by extract_lets -underBinder -merge -useContext +onlyGivenNames j; (try clear_value j); exact (by extract_lets -underBinder -merge -useContext +onlyGivenNames j; (try clear_value j); exact (by split; exact ((count_only _ _).sub rfl); exact (by extract_lets -underBinder -merge -useContext +onlyGivenNames j; (try clear_value j); exact (by extract_lets -underBinder -merge -useContext +onlyGivenNames j; (try clear_value j); exact (Only.ite ((count_only _ _).sub rfl) (Only.bind ((gWrite_only _ _ _ _).sub rfl) (fun _ => (Only.bind ((count_only _ _).sub rfl) (fun _ => (by extract_lets -underBinder -merge -useContext +onlyGivenNames j; (try clear_value j); exact (Only.bind ((ldW_only _).sub rfl) (fun _ => (Only.bind ((ldW_only _).sub rfl) (fun _ => (Only.bind ((engNotes_only _ _).sub rfl) (fun _ => (Only.bind (Only.rd _ _) (fun _ => (by split; exact (Only.ite (Only.bind ((stW_only _ _).sub rfl) (fun _ => (Only.bind ((stW_only _ _).sub rfl) (fun _ => (Only.bind ((sendAuto_only _ _ _ _ _ _ _).sub rfl) (fun _ => (Only.pure _ _))))))) (Only.pure _ _)))))))))))))))))))))))))) rfl)

theorem finalRecord_only (x0 x1 x2) : Only [.regs, .mem, .tab, .ports, .parts, .sites, .mig, .sent] (finalRecord x0 x1 x2) := by
  delta finalRecord
  exact (Only.bind ((slotSound_only _ _).sub rfl) (fun _ => (Only.bind (Only.get _) (fun _ => (by extract_lets -underBinder -merge -useContext +onlyGivenNames j; (try clear_value j); exact (by extract_lets -underBinder -merge -useContext +onlyGivenNames j; have h0 := show ∀ y, Only [.regs, .mem, .tab, .ports, .parts, .sites, .mig, .sent] (j y) from (fun _ => (Only.bind (Only.rd _ _) (fun _ => (Only.bind ((postEntry_only _ _ _).sub rfl) (fun _ => ((modPart_only _ _).sub rfl)))))); clear_value j; exact (Only.ite (Only.bind ((slotSet_only _ _ _).sub rfl) (fun _ => (h0 _))) (h0 _))))))))

theorem ackAdmission_only (x0 x1 x2 x3) : Only [.regs, .mem, .tab, .ports, .sites, .mig, .sent] (ackAdmission x0 x1 x2 x3) := by
  delta ackAdmission
  exact (Only.bind (Only.get _) (fun _ => (by extract_lets -underBinder -merge -useContext +onlyGivenNames j; (try clear_value j); exact (Only.bind ((slotSet_only _ _ _).sub rfl) (fun _ => (Only.bind ((postRecord_only _ _ _).sub rfl) (fun _ => (Only.bind ((count_only _ _).sub rfl) (fun _ => (Only.bind ((addLive_only _).sub rfl) (fun _ => (Only.bind ((addAdmitting_only _).sub rfl) (fun _ => (Only.ite ((count_only _ _).sub rfl) (Only.pure _ _)))))))))))))))

theorem publish_only (x0 x1) : Only [.regs, .mem, .tab, .ports, .parts, .sites, .mig, .sent] (publish x0 x1) := by
  delta publish
  exact (Only.bind (Only.get _) (fun _ => (Only.bind (Only.forIn _ _ (fun _ _ => (Only.bind ((slotSound_only _ _).sub rfl) (fun _ => (Only.bind ((slotSet_only _ _ _).sub rfl) (fun _ => (Only.bind ((moveTail_only _ _).sub rfl) (fun _ => (Only.pure _ _))))))))) (fun _ => (by extract_lets -underBinder -merge -useContext +onlyGivenNames j; (try clear_value j); exact (Only.bind (Only.forIn _ _ (fun _ _ => (Only.bind ((finalRecord_only _ _ _).sub rfl) (fun _ => (Only.pure _ _))))) (fun _ => (Only.bind (Only.get _) (fun _ => (by extract_lets -underBinder -merge -useContext +onlyGivenNames j; (try clear_value j); exact (Only.bind (Only.forIn _ _ (fun _ _ => (Only.bind ((slotSet_only _ _ _).sub rfl) (fun _ => (Only.bind ((moveTail_only _ _).sub rfl) (fun _ => (Only.pure _ _))))))) (fun _ => (Only.bind (Only.get _) (fun _ => (Only.bind (Only.forIn _ _ (fun _ _ => (Only.ite (Only.bind ((sendTail_only _ _).sub rfl) (fun _ => (Only.pure _ _))) (Only.pure _ _)))) (fun _ => (Only.pure _ _)))))))))))))))))

theorem releaseConfirmed_only : ∀ x0 x1 x2, Only [.regs, .mem, .tab, .ports, .parts, .sites, .mig, .sent] (releaseConfirmed x0 x1 x2)
  | _, _, (0) => by
    rw [releaseConfirmed]
    exact (Only.skip _)
  | _, _, (fuel + 1) => by
    rw [releaseConfirmed]
    exact (Only.bind (Only.rd _ _) (fun _ => (by extract_lets -underBinder -merge -useContext +onlyGivenNames j; (try clear_value j); exact (Only.bind (Only.rd _ _) (fun _ => (by extract_lets -underBinder -merge -useContext +onlyGivenNames j; (try clear_value j); exact (by split; exact (Only.skip _); exact (by extract_lets -underBinder -merge -useContext +onlyGivenNames j; have h0 := show ∀ y, Only [.regs, .mem, .tab, .ports, .parts, .sites, .mig, .sent] (j y) from (fun _ => ((releaseConfirmed_only _ _ _).sub rfl)); clear_value j; exact (Only.ite (by split; exact (Only.bind ((modPart_only _ _).sub rfl) (fun _ => (Only.bind ((publish_only _ _).sub rfl) (fun _ => (Only.bind ((showPending_only _).sub rfl) (fun _ => (h0 _))))))); exact (Only.bind (Only.skip _) (fun _ => (h0 _)))) (Only.bind ((modPart_only _ _).sub rfl) (fun _ => (Only.bind ((ackAdmission_only _ _ _ _).sub rfl) (fun _ => (h0 _))))))); exact (Only.bind ((modPart_only _ _).sub rfl) (fun _ => (Only.bind ((publish_only _ _).sub rfl) (fun _ => (Only.bind ((showPending_only _).sub rfl) (fun _ => ((releaseConfirmed_only _ _ _).sub rfl))))))))))))))

theorem confirmed_only (x0 x1) : Only [.regs, .mem, .tab, .ports, .parts, .sites, .mig, .sent] (confirmed x0 x1) := by
  delta confirmed
  exact (Only.bind (Only.get _) (fun _ => (by extract_lets -underBinder -merge -useContext +onlyGivenNames j; (try clear_value j); exact (Only.bind ((wrF_only _ _ _).sub rfl) (fun _ => (Only.bind ((modPart_only _ _).sub rfl) (fun _ => (Only.ite (Only.bind ((wrF_only _ _ _).sub rfl) (fun _ => (Only.bind ((releaseConfirmed_only _ _ _).sub rfl) (fun _ => ((stopIfDone_only _).sub rfl))))) (Only.pure _ _)))))))))

theorem mirrorConf_only (x0) : Only [.regs, .mem, .tab, .ports, .parts, .sites, .mig, .sent] (mirrorConf x0) := by
  delta mirrorConf
  exact (onPacket_only _ _ (fun _ => (by split; exact (Only.skip _); exact (Only.bind (Only.get _) (fun _ => (Only.ite ((confirmed_only _ _).sub rfl) (Only.pure _ _)))))) rfl)

theorem slotFill_only (x0 x1 x2 x3) : Only [.tab] (slotFill x0 x1 x2 x3) := by
  delta slotFill
  exact (Only.bind (Only.forIn _ _ (fun _ _ => (Only.bind ((stW_only _ _).sub rfl) (fun _ => (Only.pure _ _))))) (fun _ => (Only.bind ((slotPut_only _ _ _).sub rfl) (fun _ => (Only.bind ((slotPut_only _ _ _).sub rfl) (fun _ => (Only.bind ((slotPut_only _ _ _).sub rfl) (fun _ => (Only.bind ((slotPut_only _ _ _).sub rfl) (fun _ => (Only.bind ((slotPut_only _ _ _).sub rfl) (fun _ => (Only.bind ((slotPut_only _ _ _).sub rfl) (fun _ => (Only.bind ((slotPut_only _ _ _).sub rfl) (fun _ => (Only.bind ((slotPut_only _ _ _).sub rfl) (fun _ => (Only.bind ((slotPut_only _ _ _).sub rfl) (fun _ => (Only.bind ((slotPut_only _ _ _).sub rfl) (fun _ => (Only.bind ((slotPut_only _ _ _).sub rfl) (fun _ => (Only.bind ((slotPut_only _ _ _).sub rfl) (fun _ => (Only.bind ((slotPut_only _ _ _).sub rfl) (fun _ => (Only.bind ((slotPut_only _ _ _).sub rfl) (fun _ => (Only.bind ((slotPut_only _ _ _).sub rfl) (fun _ => ((slotSeal_only _).sub rfl)))))))))))))))))))))))))))))))))

theorem ringsSound_only (x0) : Only [.regs, .tab] (ringsSound x0) := by
  delta ringsSound
  exact (Only.bind (Only.rd _ _) (fun _ => (Only.bind (Only.forIn _ _ (fun _ _ => (Only.bind ((ringUse_only _).sub rfl) (fun _ => (Only.pure _ _))))) (fun _ => (Only.pure _ _)))))

theorem pinFor_only (x0 x1 x2 x3) : Only [.regs, .tab] (pinFor x0 x1 x2 x3) := by
  delta pinFor
  exact (Only.ite (Only.bind (Only.rd _ _) (fun _ => (by split; exact ((adpPin_only _ _).sub rfl); exact (Only.skip _)))) (Only.pure _ _))

theorem admitWaits_only (x0) : Only [.regs] (admitWaits x0) := by
  delta admitWaits
  exact (Only.bind (Only.forIn _ _ (fun _ _ => (Only.bind (Only.get _) (fun _ => (Only.ite (Only.bind ((count_only _ _).sub rfl) (fun _ => (Only.pure _ _))) (Only.pure _ _)))))) (fun _ => (Only.pure _ _)))

theorem headNotes_only (x0) : Only [.regs, .mem] (headNotes x0) := by
  delta headNotes
  exact (Only.bind (Only.rd _ _) (fun _ => (Only.bind (Only.forIn _ _ (fun _ _ => (Only.bind (Only.rd _ _) (fun _ => (by split; exact (Only.bind (Only.skip _) (fun _ => (Only.pure _ _))); exact (Only.bind (Only.rd _ _) (fun _ => (Only.bind ((ringRead_only _ _ _).sub rfl) (fun _ => (Only.pure _ _)))))))))) (fun _ => (Only.pure _ _)))))

theorem cancelExamine_only (x0 x1 x2) : Only [.regs, .mem, .tab, .ports, .parts, .sites, .mig, .sent] (cancelExamine x0 x1 x2) := by
  delta cancelExamine
  exact (Only.bind (Only.rd _ _) (fun _ => (by extract_lets -underBinder -merge -useContext +onlyGivenNames j; have h0 := show ∀ y, Only [.regs, .mem, .tab, .ports, .parts, .sites, .mig, .sent] (j y) from (fun _ => (Only.bind (Only.get _) (fun _ => (by extract_lets -underBinder -merge -useContext +onlyGivenNames j; (try clear_value j); exact (Only.ite ((count_only _ _).sub rfl) (Only.ite ((slotSet_only _ _ _).sub rfl) (by extract_lets -underBinder -merge -useContext +onlyGivenNames j; (try clear_value j); exact (Only.ite (Only.ite (Only.bind ((slotSet_only _ _ _).sub rfl) (fun _ => ((count_only _ _).sub rfl))) (Only.pure _ _)) (Only.bind ((ldW_only _).sub rfl) (fun _ => (by extract_lets -underBinder -merge -useContext +onlyGivenNames j; (try clear_value j); exact (by extract_lets -underBinder -merge -useContext +onlyGivenNames j; have h0 := show ∀ y, Only [.regs, .mem, .tab, .ports, .parts, .sites, .mig, .sent] (j y) from (fun _ => (Only.bind ((postRecord_only _ _ _).sub rfl) (fun _ => (Only.pure _ _)))); clear_value j; exact (Only.ite (Only.bind ((count_only _ _).sub rfl) (fun _ => (h0 _))) (h0 _)))))))))))))); clear_value j; exact (Only.ite (Only.bind ((slotSound_only _ _).sub rfl) (fun _ => (h0 _))) (h0 _)))))

theorem cancelMessage_only (x0) : Only [.regs, .mem, .tab, .ports, .parts, .sites, .mig, .sent] (cancelMessage x0) := by
  delta cancelMessage
  exact (Only.bind ((ringsSound_only _).sub rfl) (fun _ => (Only.bind ((headNotes_only _).sub rfl) (fun _ => (Only.bind (Only.get _) (fun _ => (by extract_lets -underBinder -merge -useContext +onlyGivenNames j; (try clear_value j); exact (by split; exact (Only.skip _); exact (Only.bind ((ringSet_only _ _ _ _).sub rfl) (fun _ => ((cancelExamine_only _ _ _).sub rfl)))))))))))

theorem refuseMsg_only (x0 x1 x2 x3) : Only [.regs, .mem, .tab, .ports, .sites, .mig, .sent] (refuseMsg x0 x1 x2 x3) := by
  delta refuseMsg
  exact (Only.bind (Only.rd _ _) (fun _ => (Only.bind ((postRecord_only _ _ _).sub rfl) (fun _ => ((count_only _ _).sub rfl)))))

theorem admitMessage_only (x0 x1 x2) : Only [.regs, .mem, .tab, .ports, .parts, .sites, .mig, .sent] (admitMessage x0 x1 x2) := by
  delta admitMessage
  exact (Only.bind (Only.get _) (fun _ => (by extract_lets -underBinder -merge -useContext +onlyGivenNames j; (try clear_value j); exact (Only.bind ((ringSet_only _ _ _ _).sub rfl) (fun _ => (Only.bind ((tableSound_only _).sub rfl) (fun _ => (Only.bind (Only.get _) (fun _ => (by split; exact ((refuseMsg_only _ _ _ _).sub rfl); exact (by split; exact (Only.skip _); exact (by extract_lets -underBinder -merge -useContext +onlyGivenNames j; (try clear_value j); exact (Only.bind ((slotFill_only _ _ _ _).sub rfl) (fun _ => (Only.bind ((pinFor_only _ _ _ _).sub rfl) (fun _ => (Only.bind ((slotSet_only _ _ _).sub rfl) (fun _ => (Only.bind ((modPart_only _ _).sub rfl) (fun _ => (Only.bind ((addAdmitting_only _).sub rfl) (fun _ => (Only.bind ((jWrite_only _ _ _ _ _ _).sub rfl) (fun _ => (Only.pure _ _)))))))))))))))))))))))))

theorem admission_only (x0) : Only [.regs, .mem, .tab, .ports, .parts, .sites, .mig, .sent] (admission x0) := by
  delta admission
  exact (Only.bind ((ringsSound_only _).sub rfl) (fun _ => (Only.bind ((headNotes_only _).sub rfl) (fun _ => (Only.bind (Only.get _) (fun _ => (by split; exact (Only.skip _); exact (Only.ite ((admitMessage_only _ _ _).sub rfl) (Only.pure _ _)))))))))

theorem freeRun_only (x0 x1 x2) : Only [.parts] (freeRun x0 x1 x2) := by
  delta freeRun
  exact (Only.ite ((modPart_only _ _).sub rfl) ((freeFrame_only _ _).sub rfl))

theorem dropBucket_only (x0 x1 x2) : Only [.regs, .mem, .tab, .sites, .mig] (dropBucket x0 x1 x2) := by
  delta dropBucket
  exact (Only.bind (Only.rd _ _) (fun _ => (by split; exact ((engWrite_only _ _ _ _).sub rfl); exact (Only.skip _))))

theorem putNode_only (x0 x1 x2) : Only [.regs, .mem, .tab, .sites, .mig] (putNode x0 x1 x2) := by
  delta putNode
  exact ((engWrite_only _ _ _ _).sub rfl)

theorem nodesSound_only (x0) : Only [.regs, .mem, .tab, .sites, .mig] (nodesSound x0) := by
  delta nodesSound
  exact (Only.bind (Only.rd _ _) (fun _ => (Only.bind (Only.forIn _ _ (fun _ _ => (Only.bind (Only.rd _ _) (fun _ => (Only.bind (Only.forIn _ _ (fun _ _ => (Only.bind ((engWrite_only _ _ _ _).sub rfl) (fun _ => (Only.pure _ _))))) (fun _ => (Only.bind ((putNode_only _ _ _).sub rfl) (fun _ => (Only.bind ((count_only _ _).sub rfl) (fun _ => (Only.pure _ _))))))))))) (fun _ => (Only.pure _ _)))))

theorem dropNode_only (x0 x1 x2) : Only [.regs, .mem, .tab, .parts, .sites, .mig] (dropNode x0 x1 x2) := by
  delta dropNode
  exact (Only.bind ((engNotes_only _ _).sub rfl) (fun _ => (Only.bind ((dropBucket_only _ _ _).sub rfl) (fun _ => (by extract_lets -underBinder -merge -useContext +onlyGivenNames j; have h0 := show ∀ y, Only [.regs, .mem, .tab, .parts, .sites, .mig] (j y) from (fun _ => (Only.bind (Only.rd _ _) (fun _ => (by extract_lets -underBinder -merge -useContext +onlyGivenNames j; (try clear_value j); exact (Only.bind ((putNode_only _ _ _).sub rfl) (fun _ => (Only.bind (Only.forIn _ _ (fun _ _ => (Only.bind ((rcDrop_only _ _).sub rfl) (fun _ => (Only.pure _ _))))) (fun _ => ((freeRun_only _ _ _).sub rfl))))))))); clear_value j; exact (Only.ite (Only.bind (Only.rd _ _) (fun _ => (by split; exact (Only.bind ((putNode_only _ _ _).sub rfl) (fun _ => (h0 _))); exact (Only.bind (Only.skip _) (fun _ => (h0 _)))))) (h0 _)))))))

theorem dropBad_only (x0 x1) : Only [.regs, .mem, .tab, .sites, .mig] (dropBad x0 x1) := by
  delta dropBad
  exact (Only.bind ((dropBucket_only _ _ _).sub rfl) (fun _ => (Only.bind ((putNode_only _ _ _).sub rfl) (fun _ => ((count_only _ _).sub rfl)))))

theorem emptyTree_only (x0) : Only [.regs, .mem, .tab, .parts, .sites, .mig] (emptyTree x0) := by
  delta emptyTree
  exact (Only.bind ((nodesSound_only _).sub rfl) (fun _ => (Only.bind (Only.forIn _ _ (fun _ _ => (Only.bind (Only.rd _ _) (fun _ => (by split; exact (Only.bind ((dropNode_only _ _ _).sub rfl) (fun _ => (Only.pure _ _))); exact (Only.bind (Only.skip _) (fun _ => (Only.pure _ _)))))))) (fun _ => (Only.pure _ _)))))

theorem markShared_only : ∀ x0 x1 x2, Only [.regs, .mem, .tab, .sites, .mig] (markShared x0 x1 x2)
  | _, _, ([]) => by
    rw [markShared]
    exact (Only.pure _ _)
  | _, _, ((g, i, d) :: l) => by
    rw [markShared]
    exact (Only.bind (Only.ite (Only.pure _ _) (Only.bind ((rcAlloc_only _ _).sub rfl) (fun _ => (by split; exact (Only.pure _ _); exact (Only.pure _ _))))) (fun _ => (Only.bind (Only.rd _ _) (fun _ => (by extract_lets -underBinder -merge -useContext +onlyGivenNames j; have h0 := show ∀ y, Only [.regs, .mem, .tab, .sites, .mig] (j y) from (fun _ => (Only.bind ((markShared_only _ _ _).sub rfl) (fun _ => (Only.pure _ _)))); clear_value j; exact (by split; exact (Only.bind ((engWrite_only _ _ _ _).sub rfl) (fun _ => (h0 _))); exact (Only.bind (Only.skip _) (fun _ => (h0 _)))))))))

theorem dropSubtree_only : ∀ x0 x1 x2, Only [.regs, .mem, .tab, .parts, .sites, .mig] (dropSubtree x0 x1 x2)
  | _, _, (0) => by
    rw [dropSubtree]
    exact (Only.skip _)
  | _, _, (fuel + 1) => by
    rw [dropSubtree]
    exact (Only.bind (Only.get _) (fun _ => (by split; exact (Only.skip _); exact (by split; exact (Only.bind ((dropSubtree_only _ _ _).sub rfl) (fun _ => ((dropSubtree_only _ _ _).sub rfl))); exact ((dropNode_only _ _ _).sub rfl)))))

theorem takeRun_only (x0 x1) : Only [.regs, .mem, .tab, .parts, .sites, .mig] (takeRun x0 x1) := by
  delta takeRun
  exact (Only.ite ((takeBlock_only _).sub rfl) (Only.bind ((takeFrame_only _).sub rfl) (fun _ => (by split; exact (Only.pure _ _); exact (Only.pure _ _)))))

theorem lingEvict_only : ∀ x0 x1, Only [.regs, .mem, .tab, .parts, .sites, .mig] (lingEvict x0 x1)
  | _, (0) => by
    rw [lingEvict]
    exact (Only.skip _)
  | _, (fuel + 1) => by
    rw [lingEvict]
    exact (Only.bind (Only.rd _ _) (fun _ => (Only.bind ((nodesSound_only _).sub rfl) (fun _ => (Only.bind (Only.get _) (fun _ => (by extract_lets -underBinder -merge -useContext +onlyGivenNames j; (try clear_value j); exact (Only.ite (by split; exact (Only.skip _); exact (Only.bind ((dropNode_only _ _ _).sub rfl) (fun _ => (Only.bind ((count_only _ _).sub rfl) (fun _ => ((lingEvict_only _ _).sub rfl)))))) (Only.pure _ _)))))))))

theorem lingLookup_only (x0 x1) : Only [.regs, .mem, .tab, .sites, .mig] (lingLookup x0 x1) := by
  delta lingLookup
  exact (Only.bind (Only.get _) (fun _ => (Only.bind ((count_only _ _).sub rfl) (fun _ => (by extract_lets -underBinder -merge -useContext +onlyGivenNames j; (try clear_value j); exact (by extract_lets -underBinder -merge -useContext +onlyGivenNames j; (try clear_value j); exact (Only.bind (Only.forIn _ _ (fun _ _ => (by extract_lets -underBinder -merge -useContext +onlyGivenNames j; have h0 := show ∀ y, Only [.regs, .mem, .tab, .sites, .mig] (j y) from (fun _ => (Only.bind ((engNotes_only _ _).sub rfl) (fun _ => (Only.bind (Only.forIn _ _ (fun _ _ => (Only.bind ((dropBad_only _ _).sub rfl) (fun _ => (Only.pure _ _))))) (fun _ => (Only.pure _ _)))))); clear_value j; exact (Only.ite (Only.bind ((count_only _ _).sub rfl) (fun _ => (h0 _))) (h0 _))))) (fun _ => (by extract_lets -underBinder -merge -useContext +onlyGivenNames j; (try clear_value j); exact (by split; exact (Only.pure _ _); exact (Only.bind (Only.rd _ _) (fun _ => (Only.ite (Only.bind ((count_only _ _).sub rfl) (fun _ => (Only.pure _ _))) (Only.bind ((count_only _ _).sub rfl) (fun _ => (Only.bind (Only.forIn _ _ (fun _ _ => (Only.bind (Only.rd _ _) (fun _ => (by split; exact (Only.bind ((putNode_only _ _ _).sub rfl) (fun _ => (Only.pure _ _))); exact (Only.bind (Only.skip _) (fun _ => (Only.pure _ _)))))))) (fun _ => (Only.pure _ _))))))))))))))))))

theorem putBlock_only (x0 x1 x2 x3 x4) : Only [.regs, .mem, .tab, .parts, .sites, .mig] (putBlock x0 x1 x2 x3 x4) := by
  delta putBlock
  exact (Only.bind (Only.get _) (fun _ => (by split; exact (Only.bind ((count_only _ _).sub rfl) (fun _ => (Only.pure _ _))); exact (by split; exact (Only.bind ((count_only _ _).sub rfl) (fun _ => (Only.pure _ _))); exact (Only.bind ((takeRun_only _ _).sub rfl) (fun _ => (by split; exact (Only.bind ((count_only _ _).sub rfl) (fun _ => (Only.pure _ _))); exact (Only.bind ((engWrite_only _ _ _ _).sub rfl) (fun _ => (Only.bind ((putNode_only _ _ _).sub rfl) (fun _ => (Only.bind ((engWrite_only _ _ _ _).sub rfl) (fun _ => (by extract_lets -underBinder -merge -useContext +onlyGivenNames j; have h0 := show ∀ y, Only [.regs, .mem, .tab, .parts, .sites, .mig] (j y) from (fun _ => (Only.bind (Only.forIn _ _ (fun _ _ => (Only.bind ((rcTake_only _).sub rfl) (fun _ => (Only.pure _ _))))) (fun _ => (Only.bind ((count_only _ _).sub rfl) (fun _ => (Only.pure _ _)))))); clear_value j; exact (Only.ite (Only.bind (Only.rd _ _) (fun _ => (by split; exact (Only.bind ((putNode_only _ _ _).sub rfl) (fun _ => (h0 _))); exact (Only.bind (Only.skip _) (fun _ => (h0 _)))))) (h0 _))))))))))))))))

theorem shareBlock_only (x0 x1 x2 x3 x4) : Only [.regs, .mem, .tab, .parts, .sites, .mig] (shareBlock x0 x1 x2 x3 x4) := by
  delta shareBlock
  exact (Only.bind ((nodesSound_only _).sub rfl) (fun _ => (Only.bind (Only.get _) (fun _ => (by extract_lets -underBinder -merge -useContext +onlyGivenNames j; (try clear_value j); exact (Only.bind ((engNotes_only _ _).sub rfl) (fun _ => (by split; exact (Only.pure _ _); exact (Only.bind ((engNote_only _ _ _ _).sub rfl) (fun _ => (by split; exact (Only.pure _ _); exact (Only.bind ((putBlock_only _ _ _ _ _).sub rfl) (fun _ => (by split; exact (Only.pure _ _); exact (Only.pure _ _)))))))))))))))

theorem prxWithdraw_only (x0 x1 x2) : Only [.regs, .mem, .tab, .parts, .sites, .mig] (prxWithdraw x0 x1 x2) := by
  delta prxWithdraw
  exact (Only.bind (Only.rd _ _) (fun _ => (Only.bind ((nodesSound_only _).sub rfl) (fun _ => (Only.bind (Only.rd _ _) (fun _ => (Only.bind ((nodesSound_only _).sub rfl) (fun _ => (Only.bind (Only.get _) (fun _ => (by extract_lets -underBinder -merge -useContext +onlyGivenNames j; (try clear_value j); exact (Only.bind ((engNote_only _ _ _ _).sub rfl) (fun _ => (by split; exact (Only.skip _); exact (Only.skip _); exact (by extract_lets -underBinder -merge -useContext +onlyGivenNames j; (try clear_value j); exact (by extract_lets -underBinder -merge -useContext +onlyGivenNames j; (try clear_value j); exact (Only.bind ((engNotes_only _ _).sub rfl) (fun _ => (by split; exact ((dropSubtree_only _ _ _).sub rfl); exact (Only.skip _))))))))))))))))))))

theorem insertBlock_only (x0 x1 x2 x3 x4 x5) : Only [.regs, .mem, .tab, .parts, .sites, .mig] (insertBlock x0 x1 x2 x3 x4 x5) := by
  delta insertBlock
  exact (Only.bind (Only.rd _ _) (fun _ => (Only.bind ((nodesSound_only _).sub rfl) (fun _ => (Only.bind (Only.get _) (fun _ => (by extract_lets -underBinder -merge -useContext +onlyGivenNames j; (try clear_value j); exact (by extract_lets -underBinder -merge -useContext +onlyGivenNames j; (try clear_value j); exact (Only.bind ((engNotes_only _ _).sub rfl) (fun _ => (by split; exact (Only.pure _ _); exact (Only.bind ((engNotes_only _ _).sub rfl) (fun _ => (by extract_lets -underBinder -merge -useContext +onlyGivenNames j; (try clear_value j); exact (by extract_lets -underBinder -merge -useContext +onlyGivenNames j; (try clear_value j); exact (Only.ite (Only.pure _ _) (Only.ite (Only.bind ((count_only _ _).sub rfl) (fun _ => (Only.pure _ _))) (Only.ite (Only.bind ((count_only _ _).sub rfl) (fun _ => (Only.pure _ _))) (Only.ite (Only.bind ((count_only _ _).sub rfl) (fun _ => (Only.pure _ _))) (Only.bind ((markShared_only _ _ _).sub rfl) (fun _ => (Only.bind ((putBlock_only _ _ _ _ _).sub rfl) (fun _ => (by split; exact (Only.pure _ _); exact (by extract_lets -underBinder -merge -useContext +onlyGivenNames j; have h0 := show ∀ y, Only [.regs, .mem, .tab, .parts, .sites, .mig] (j y) from (fun _ => (Only.pure _ _)); clear_value j; exact (Only.ite (Only.bind ((stW_only _ _).sub rfl) (fun _ => (h0 _))) (h0 _)))))))))))))))))))))))))))

theorem sharePath_only : ∀ x0 x1 x2 x3 x4, Only [.regs, .mem, .tab, .parts, .sites, .mig] (sharePath x0 x1 x2 x3 x4)
  | _, _, ([]), _, _ => by
    rw [sharePath]
    exact (Only.skip _)
  | _, _, (e :: l), _, _ => by
    rw [sharePath]
    exact (Only.bind ((shareBlock_only _ _ _ _ _).sub rfl) (fun _ => (by split; exact (Only.skip _); exact ((sharePath_only _ _ _ _ _).sub rfl))))

theorem insertFrom_only : ∀ x0 x1 x2 x3 x4 x5 x6, Only [.regs, .mem, .tab, .parts, .sites, .mig] (insertFrom x0 x1 x2 x3 x4 x5 x6)
  | _, _, _, (0), _, _, _ => by
    rw [insertFrom]
    exact (Only.skip _)
  | _, _, _, (k + 1), _, _, _ => by
    rw [insertFrom]
    exact (Only.bind ((insertBlock_only _ _ _ _ _ _).sub rfl) (fun _ => (by split; exact (Only.skip _); exact ((insertFrom_only _ _ _ _ _ _ _).sub rfl))))

theorem prxShare_only (x0 x1 x2) : Only [.regs, .mem, .tab, .parts, .sites, .mig] (prxShare x0 x1 x2) := by
  delta prxShare
  exact (Only.bind (Only.rd _ _) (fun _ => (Only.bind ((nodesSound_only _).sub rfl) (fun _ => (Only.bind (Only.get _) (fun _ => (by extract_lets -underBinder -merge -useContext +onlyGivenNames j; (try clear_value j); exact (Only.bind ((engNote_only _ _ _ _).sub rfl) (fun _ => (by split; exact (Only.skip _); exact (Only.skip _); exact (by extract_lets -underBinder -merge -useContext +onlyGivenNames j; (try clear_value j); exact (Only.bind ((engNotes_only _ _).sub rfl) (fun _ => ((sharePath_only _ _ _ _ _).sub rfl))))))))))))))

theorem lingInsert_only (x0 x1) : Only [.regs, .mem, .tab, .parts, .sites, .mig] (lingInsert x0 x1) := by
  delta lingInsert
  exact (Only.bind (Only.get _) (fun _ => (Only.ite (by split; exact (Only.skip _); exact (Only.bind ((engNotes_only _ _).sub rfl) (fun _ => (by extract_lets -underBinder -merge -useContext +onlyGivenNames j; (try clear_value j); exact ((insertFrom_only _ _ _ _ _ _ _).sub rfl))))) (Only.pure _ _))))

theorem leaseReturnOne_only (x0 x1 x2) : Only [.tab, .parts] (leaseReturnOne x0 x1 x2) := by
  delta leaseReturnOne
  exact (Only.bind (Only.rd _ _) (fun _ => (by split; exact (Only.skip _); exact (Only.bind ((modPart_only _ _).sub rfl) (fun _ => (Only.bind (Only.rd _ _) (fun _ => (Only.bind ((rcSet_only _ _ _).sub rfl) (fun _ => ((rcRelease_only _ _).sub rfl))))))))))

theorem setPhase_only (x0 x1) : Only [.regs] (setPhase x0 x1) := by
  delta setPhase
  exact ((wrF_only _ _ _).sub rfl)

theorem stepStart_only (x0) : Only [.regs, .tab, .tiles] (stepStart x0) := by
  delta stepStart
  exact (Only.bind (Only.get _) (fun _ => (Only.ite (Only.pure _ _) (by extract_lets -underBinder -merge -useContext +onlyGivenNames j; (try clear_value j); exact (Only.bind ((setPhase_only _ _).sub rfl) (fun _ => (by extract_lets -underBinder -merge -useContext +onlyGivenNames j; have h0 := show ∀ y, Only [.regs, .tab, .tiles] (j y) from (fun _ => (Only.bind ((wrF_only _ _ _).sub rfl) (fun _ => (Only.bind ((wrF_only _ _ _).sub rfl) (fun _ => (Only.bind ((stW_only _ _).sub rfl) (fun _ => (Only.bind (Only.forIn _ _ (fun _ _ => (Only.bind ((sampleStreams_only _ _).sub rfl) (fun _ => (Only.bind ((barrierRelease_only _).sub rfl) (fun _ => (Only.pure _ _))))))) (fun _ => (Only.pure _ _)))))))))); clear_value j; exact (Only.ite (Only.bind ((wrF_only _ _ _).sub rfl) (fun _ => (Only.bind ((stW_only _ _).sub rfl) (fun _ => (Only.ite (Only.bind ((count_only _ _).sub rfl) (fun _ => (h0 _))) (h0 _)))))) (h0 _)))))))))

theorem frameBytes_only (x0 x1 x2 x3) : Only [.regs, .mem] (frameBytes x0 x1 x2 x3) := by
  delta frameBytes
  exact (Only.ite (Only.bind (Only.rd _ _) (fun _ => (by split; exact ((ldBytes_only _ _).sub rfl); exact (Only.pure _ _)))) (Only.bind ((gRead_only _ _ _ _).sub rfl) (fun _ => (by split; exact (Only.pure _ _); exact (Only.pure _ _)))))

theorem cowDone_only (x0) : Only [.regs, .mem, .tab, .parts, .sites, .mig] (cowDone x0) := by
  delta cowDone
  exact (Only.bind (Only.get _) (fun _ => (by split; exact (Only.skip _); exact (by extract_lets -underBinder -merge -useContext +onlyGivenNames j; (try clear_value j); exact (Only.bind ((modPart_only _ _).sub rfl) (fun _ => (Only.bind ((engNote_only _ _ _ _).sub rfl) (fun _ => (by extract_lets -underBinder -merge -useContext +onlyGivenNames j; have h0 := show ∀ y, Only [.regs, .mem, .tab, .parts, .sites, .mig] (j y) from (fun _ => (Only.bind (Only.get _) (fun _ => (Only.ite ((modPart_only _ _).sub rfl) (Only.pure _ _))))); clear_value j; exact (by split; exact (Only.bind ((freeFrame_only _ _).sub rfl) (fun _ => (h0 _))); exact (by extract_lets -underBinder -merge -useContext +onlyGivenNames j; (try clear_value j); exact (by extract_lets -underBinder -merge -useContext +onlyGivenNames j; (try clear_value j); exact (by extract_lets -underBinder -merge -useContext +onlyGivenNames j; (try clear_value j); exact (Only.ite (Only.bind ((freeFrame_only _ _).sub rfl) (fun _ => (Only.bind ((modPart_only _ _).sub rfl) (fun _ => (Only.bind ((stW_only _ _).sub rfl) (fun _ => (Only.bind ((engWrite_only _ _ _ _).sub rfl) (fun _ => (h0 _))))))))) (by extract_lets -underBinder -merge -useContext +onlyGivenNames j; (try clear_value j); exact (Only.bind ((zeroFrame_only _ _).sub rfl) (fun _ => (Only.bind (Only.forIn _ _ (fun _ _ => (Only.bind ((frameBytes_only _ _ _ _).sub rfl) (fun _ => (Only.bind ((engWrite_only _ _ _ _).sub rfl) (fun _ => (Only.pure _ _))))))) (fun _ => (Only.bind ((engWrite_only _ _ _ _).sub rfl) (fun _ => (Only.bind ((leaseReturnOne_only _ _ _).sub rfl) (fun _ => (Only.bind ((leaseReturnOne_only _ _ _).sub rfl) (fun _ => (by extract_lets -underBinder -merge -useContext +onlyGivenNames j; have h1 := show ∀ y, Only [.regs, .mem, .tab, .parts, .sites, .mig] (j y) from (fun _ => (Only.bind ((count_only _ _).sub rfl) (fun _ => (h0 _)))); clear_value j; exact (Only.ite (Only.bind ((modPart_only _ _).sub rfl) (fun _ => (h1 _))) (Only.bind ((rcDrop_only _ _).sub rfl) (fun _ => (h1 _))))))))))))))))))))))))))))))

theorem buildDone_only (x0) : Only [.regs, .mem, .tab, .parts, .sites, .mig] (buildDone x0) := by
  delta buildDone
  exact (Only.bind (Only.get _) (fun _ => (by extract_lets -underBinder -merge -useContext +onlyGivenNames j; (try clear_value j); exact (Only.bind ((engWrite_only _ _ _ _).sub rfl) (fun _ => (Only.bind ((wrF_only _ _ _).sub rfl) (fun _ => (Only.bind ((wrF_only _ _ _).sub rfl) (fun _ => (Only.bind ((modPart_only _ _).sub rfl) (fun _ => (Only.bind ((setPhase_only _ _).sub rfl) (fun _ => ((setIrq_only _ _).sub rfl))))))))))))))

theorem stageDesc_only (x0 x1 x2) : Only [.regs, .mem, .tab, .parts, .sites, .mig] (stageDesc x0 x1 x2) := by
  delta stageDesc
  exact (Only.bind (Only.rd _ _) (fun _ => (Only.bind ((engNotes_only _ _).sub rfl) (fun _ => (Only.bind (Only.rd _ _) (fun _ => (by extract_lets -underBinder -merge -useContext +onlyGivenNames j; have h0 := show ∀ y, Only [.regs, .mem, .tab, .parts, .sites, .mig] (j y) from (fun _ => (Only.bind ((putEntry_only _ _ _ _ _).sub rfl) (fun _ => ((modPart_only _ _).sub rfl)))); clear_value j; exact (by split; exact (Only.ite (Only.bind ((freeFrame_only _ _).sub rfl) (fun _ => (h0 _))) (h0 _)); exact (Only.bind (Only.skip _) (fun _ => (h0 _)))))))))))

theorem batchTake_only (x0 x1 x2 x3 x4 x5 x6 x7) : Only [.regs, .mem, .tab, .parts, .sites, .mig] (batchTake x0 x1 x2 x3 x4 x5 x6 x7) := by
  delta batchTake
  exact (Only.bind (Only.get _) (fun _ => (by extract_lets -underBinder -merge -useContext +onlyGivenNames j; (try clear_value j); exact (Only.bind (Only.forIn _ _ (fun _ _ => (Only.bind ((stageDesc_only _ _ _).sub rfl) (fun _ => (Only.pure _ _))))) (fun _ => (Only.bind (Only.forIn _ _ (fun _ _ => (Only.bind ((takeFrame_only _).sub rfl) (fun _ => (by split; exact (Only.bind ((zeroFrame_only _ _).sub rfl) (fun _ => (Only.bind ((putEntry_only _ _ _ _ _).sub rfl) (fun _ => (Only.pure _ _))))); exact (Only.bind (Only.skip _) (fun _ => (Only.pure _ _)))))))) (fun _ => (Only.bind (Only.forIn _ _ (fun _ _ => (Only.bind ((leaseTake_only _ _ _ _).sub rfl) (fun _ => (Only.pure _ _))))) (fun _ => (Only.bind (Only.forIn _ _ (fun _ _ => (Only.bind ((leaseTake_only _ _ _ _).sub rfl) (fun _ => (Only.bind ((takeFrame_only _).sub rfl) (fun _ => (Only.bind (Only.rd _ _) (fun _ => (by split; exact (Only.bind (Only.rd _ _) (fun _ => (Only.bind ((modPart_only _ _).sub rfl) (fun _ => (Only.pure _ _))))); exact (Only.bind (Only.skip _) (fun _ => (Only.pure _ _)))))))))))) (fun _ => (by extract_lets -underBinder -merge -useContext +onlyGivenNames j; (try clear_value j); exact (by extract_lets -underBinder -merge -useContext +onlyGivenNames j; (try clear_value j); exact (by extract_lets -underBinder -merge -useContext +onlyGivenNames j; (try clear_value j); exact (Only.bind ((modPart_only _ _).sub rfl) (fun _ => (Only.bind ((slotSet_only _ _ _).sub rfl) (fun _ => (by extract_lets -underBinder -merge -useContext +onlyGivenNames j; have h0 := show ∀ y, Only [.regs, .mem, .tab, .parts, .sites, .mig] (j y) from (fun _ => (Only.ite ((count_only _ _).sub rfl) (Only.pure _ _))); clear_value j; exact (Only.ite (Only.bind ((slotSet_only _ _ _).sub rfl) (fun _ => (h0 _))) (h0 _)))))))))))))))))))))

theorem buildOne_only (x0 x1 x2) : Only [.regs, .mem, .tab, .parts, .sites, .mig] (buildOne x0 x1 x2) := by
  delta buildOne
  exact (Only.bind (Only.rd _ _) (fun _ => (Only.bind ((ringUse_only _).sub rfl) (fun _ => (Only.bind (Only.get _) (fun _ => (Only.ite (Only.bind ((count_only _ _).sub rfl) (fun _ => (Only.pure _ _))) (Only.bind (Only.ite (Only.bind ((engNotes_only _ _).sub rfl) (fun _ => (by split; exact ((lingLookup_only _ _).sub rfl); exact (Only.pure _ _)))) (Only.pure _ _)) (fun _ => (Only.bind (Only.get _) (fun _ => (by extract_lets -underBinder -merge -useContext +onlyGivenNames j; (try clear_value j); exact (by split; exact (Only.bind ((count_only _ _).sub rfl) (fun _ => (Only.pure _ _))); exact (by extract_lets -underBinder -merge -useContext +onlyGivenNames j; (try clear_value j); exact (by extract_lets -underBinder -merge -useContext +onlyGivenNames j; (try clear_value j); exact (by extract_lets -underBinder -merge -useContext +onlyGivenNames j; (try clear_value j); exact (by extract_lets -underBinder -merge -useContext +onlyGivenNames j; (try clear_value j); exact (by extract_lets -underBinder -merge -useContext +onlyGivenNames j; (try clear_value j); exact (Only.ite (Only.bind ((count_only _ _).sub rfl) (fun _ => (Only.pure _ _))) (Only.bind ((engNotes_only _ _).sub rfl) (fun _ => (by extract_lets -underBinder -merge -useContext +onlyGivenNames j; (try clear_value j); exact (by extract_lets -underBinder -merge -useContext +onlyGivenNames j; (try clear_value j); exact (by extract_lets -underBinder -merge -useContext +onlyGivenNames j; (try clear_value j); exact (Only.ite (Only.bind ((count_only _ _).sub rfl) (fun _ => (Only.pure _ _))) (by extract_lets -underBinder -merge -useContext +onlyGivenNames j; (try clear_value j); exact (Only.ite (Only.bind ((count_only _ _).sub rfl) (fun _ => (Only.pure _ _))) (Only.bind ((batchTake_only _ _ _ _ _ _ _ _).sub rfl) (fun _ => (Only.pure _ _))))))))))))))))))))))))))))))

theorem buildAll_only : ∀ x0 x1 x2, Only [.regs, .mem, .tab, .parts, .sites, .mig] (buildAll x0 x1 x2)
  | _, ([]), _ => by
    rw [buildAll]
    exact (Only.skip _)
  | _, (n :: l), _ => by
    rw [buildAll]
    exact (Only.bind (Only.get _) (fun _ => (Only.ite (Only.pure _ _) (Only.bind ((buildOne_only _ _ _).sub rfl) (fun _ => ((buildAll_only _ _ _).sub rfl))))))

theorem stepArm_only (x0 x1 x2) : Only [.regs, .mem, .tab, .parts, .sites, .mig] (stepArm x0 x1 x2) := by
  delta stepArm
  exact (Only.bind (Only.get _) (fun _ => (Only.ite (Only.pure _ _) (Only.bind ((wrR_only _ _).sub rfl) (fun _ => (Only.bind (Only.forIn _ _ (fun _ _ => (Only.bind (Only.rd _ _) (fun _ => (Only.ite (Only.bind ((freeFrame_only _ _).sub rfl) (fun _ => (Only.pure _ _))) (Only.pure _ _)))))) (fun _ => (Only.bind ((modPart_only _ _).sub rfl) (fun _ => (Only.bind ((setPhase_only _ _).sub rfl) (fun _ => (Only.bind ((tableSound_only _).sub rfl) (fun _ => (Only.bind (Only.get _) (fun _ => (Only.bind ((buildAll_only _ _ _).sub rfl) (fun _ => (Only.bind ((buildDone_only _).sub rfl) (fun _ => (Only.pure _ _))))))))))))))))))))

end Sys2Proof.Machine
end

