-- ==== Sys2Proof/Laws/FrameStep.lean ====
section
/-! SUPPORT. Which fields of the state each operation can change, and that it always goes on: routing, commit and recovery.
One lemma for each operation, over the lemmas of what it calls. -/

namespace Sys2Proof.Machine

theorem biasEdge_only (x0) : Only [.tab] (biasEdge x0) := by
  delta biasEdge
  exact (Only.bind (Only.get _) (fun _ => ((stW_only _ _).sub rfl)))

theorem placeWaits_only (x0) : Only [.regs] (placeWaits x0) := by
  delta placeWaits
  exact (Only.bind (Only.forIn _ _ (fun _ _ => (Only.bind ((rdF_only _ _).sub rfl) (fun _ => (Only.ite (Only.bind ((count_only _ _).sub rfl) (fun _ => (Only.pure _ _))) (Only.pure _ _)))))) (fun _ => (Only.bind (Only.forIn _ _ (fun _ _ => (Only.bind (Only.rd _ _) (fun _ => (Only.ite (Only.bind ((count_only _ _).sub rfl) (fun _ => (Only.pure _ _))) (Only.pure _ _)))))) (fun _ => (Only.pure _ _)))))

theorem placeTailWrite_only (x0 x1) : Only [.regs] (placeTailWrite x0 x1) := by
  delta placeTailWrite
  exact (Only.bind (Only.get _) (fun _ => (by extract_lets -underBinder -merge -useContext +onlyGivenNames j; (try clear_value j); exact (Only.ite (Only.bind ((count_only _ _).sub rfl) (fun _ => (Only.pure _ _))) (Only.bind ((wrF_only _ _ _).sub rfl) (fun _ => (Only.pure _ _)))))))

theorem placeSignal_only (x0) : Only [.regs, .mem, .tab] (placeSignal x0) := by
  delta placeSignal
  exact (Only.bind (Only.get _) (fun _ => (Only.ite (Only.pure _ _) (by extract_lets -underBinder -merge -useContext +onlyGivenNames j; (try clear_value j); exact (by extract_lets -underBinder -merge -useContext +onlyGivenNames j; have h0 := show ∀ y, Only [.regs, .mem, .tab] (j y) from (fun _ => (Only.bind ((wrF_only _ _ _).sub rfl) (fun _ => (Only.bind ((addF_only _ _ _).sub rfl) (fun _ => (Only.bind ((count_only _ _).sub rfl) (fun _ => ((count_only _ _).sub rfl)))))))); clear_value j; exact (by split; exact (Only.bind ((signalTile_only _ _ _ _).sub rfl) (fun _ => (h0 _))); exact (Only.bind (Only.skip _) (fun _ => (h0 _)))))))))

theorem routerWrite_only (x0 x1 x2 x3 x4) : Only [.regs, .mem, .tab, .sites, .mig] (routerWrite x0 x1 x2 x3 x4) := by
  delta routerWrite
  exact (Only.bind (Only.get _) (fun _ => (Only.bind (Only.forIn _ _ (fun _ _ => (Only.bind ((spWrite_only _ _ _ _ _).sub rfl) (fun _ => (Only.pure _ _))))) (fun _ => (Only.pure _ _)))))

theorem biasReady_only (x0) : Only [.regs, .mem, .tab, .sites, .mig] (biasReady x0) := by
  delta biasReady
  exact (Only.bind (Only.get _) (fun _ => (by split; exact (Only.skip _); exact (Only.ite (Only.pure _ _) (Only.bind ((stW_only _ _).sub rfl) (fun _ => ((routerWrite_only _ _ _ _ _).sub rfl)))))))

theorem routeSnapshot_only (x0 x1 x2 x3) : Only [.regs, .mem, .tab, .sites, .mig] (routeSnapshot x0 x1 x2 x3) := by
  delta routeSnapshot
  exact (Only.bind (Only.rd _ _) (fun _ => (Only.bind (Only.forIn _ _ (fun _ _ => (Only.bind (Only.get _) (fun _ => (Only.ite (by extract_lets -underBinder -merge -useContext +onlyGivenNames j; (try clear_value j); exact (by extract_lets -underBinder -merge -useContext +onlyGivenNames j; (try clear_value j); exact (Only.bind ((spWrite_only _ _ _ _ _).sub rfl) (fun _ => (Only.ite (Only.bind ((setPageFault_only _).sub rfl) (fun _ => (Only.bind ((count_only _ _).sub rfl) (fun _ => (Only.pure _ _))))) (Only.pure _ _)))))) (Only.pure _ _)))))) (fun _ => (Only.pure _ _)))))

theorem putLoad_only (x0 x1 x2 x3 x4 x5) : Only [.regs, .mem, .tab, .sites, .mig] (putLoad x0 x1 x2 x3 x4 x5) := by
  delta putLoad
  exact (Only.bind ((spWrite_only _ _ _ _ _).sub rfl) (fun _ => (Only.pure _ _)))

theorem routeCommit_only (x0) : Only [.regs, .mem, .tab, .sites, .mig] (routeCommit x0) := by
  delta routeCommit
  exact (Only.bind (Only.get _) (fun _ => (Only.bind (Only.forIn _ _ (fun _ _ => (Only.bind (Only.forIn _ _ (fun _ _ => (Only.bind (Only.forIn _ _ (fun _ _ => (by extract_lets -underBinder -merge -useContext +onlyGivenNames j; (try clear_value j); exact (Only.ite (Only.bind ((putLoad_only _ _ _ _ _ _).sub rfl) (fun _ => (Only.pure _ _))) (Only.pure _ _))))) (fun _ => (Only.pure _ _))))) (fun _ => (Only.bind ((wrF_only _ _ _).sub rfl) (fun _ => (Only.bind ((stW_only _ _).sub rfl) (fun _ => (Only.pure _ _))))))))) (fun _ => (Only.pure _ _)))))

theorem routeRollback_only (x0) : Only [.regs, .mem, .tab, .sites, .mig] (routeRollback x0) := by
  delta routeRollback
  exact (Only.bind (Only.get _) (fun _ => (Only.bind (Only.forIn _ _ (fun _ _ => (Only.bind (Only.forIn _ _ (fun _ _ => (Only.bind (Only.forIn _ _ (fun _ _ => (by extract_lets -underBinder -merge -useContext +onlyGivenNames j; (try clear_value j); exact (Only.ite (Only.bind ((putLoad_only _ _ _ _ _ _).sub rfl) (fun _ => (Only.pure _ _))) (Only.pure _ _))))) (fun _ => (Only.pure _ _))))) (fun _ => (by extract_lets -underBinder -merge -useContext +onlyGivenNames j; (try clear_value j); exact (Only.bind ((wrF_only _ _ _).sub rfl) (fun _ => (Only.bind ((wrF_only _ _ _).sub rfl) (fun _ => (Only.pure _ _)))))))))) (fun _ => (Only.pure _ _)))))

theorem placeBad_only (x0 x1 x2 x3 x4 x5) : Only [.regs, .mem, .tab, .sites, .mig] (placeBad x0 x1 x2 x3 x4 x5) := by
  delta placeBad
  exact (by extract_lets -underBinder -merge -useContext +onlyGivenNames j; have h0 := show ∀ y, Only [.regs, .mem, .tab, .sites, .mig] (j y) from (fun _ => (Only.bind ((count_only _ _).sub rfl) (fun _ => (Only.bind ((wrF_only _ _ _).sub rfl) (fun _ => (Only.bind ((wrF_only _ _ _).sub rfl) (fun _ => ((setIrq_only _ _).sub rfl)))))))); clear_value j; exact (by split; exact (Only.bind ((routerWrite_only _ _ _ _ _).sub rfl) (fun _ => (h0 _))); exact (Only.bind (Only.skip _) (fun _ => (h0 _)))))

theorem loadPending_only (x0 x1 x2 x3) : Only [.regs, .mem, .tab, .sites, .mig] (loadPending x0 x1 x2 x3) := by
  delta loadPending
  exact (Only.bind (Only.rd _ _) (fun _ => (by split; exact (Only.skip _); exact (Only.bind ((spWrite_only _ _ _ _ _).sub rfl) (fun _ => (Only.pure _ _))))))

theorem biasLayer_only (x0 x1 x2) : Only [.regs, .mem, .tab, .sites, .mig] (biasLayer x0 x1 x2) := by
  delta biasLayer
  exact (Only.bind (Only.get _) (fun _ => (by extract_lets -underBinder -merge -useContext +onlyGivenNames j; (try clear_value j); exact (by extract_lets -underBinder -merge -useContext +onlyGivenNames j; (try clear_value j); exact (by extract_lets -underBinder -merge -useContext +onlyGivenNames j; (try clear_value j); exact (by extract_lets -underBinder -merge -useContext +onlyGivenNames j; (try clear_value j); exact (by extract_lets -underBinder -merge -useContext +onlyGivenNames j; (try clear_value j); exact (by extract_lets -underBinder -merge -useContext +onlyGivenNames j; (try clear_value j); exact (by extract_lets -underBinder -merge -useContext +onlyGivenNames j; (try clear_value j); exact (Only.bind ((spWrite_only _ _ _ _ _).sub rfl) (fun _ => (Only.bind (Only.forIn _ _ (fun _ _ => (Only.bind ((putLoad_only _ _ _ _ _ _).sub rfl) (fun _ => (Only.pure _ _))))) (fun _ => (Only.bind ((count_only _ _).sub rfl) (fun _ => ((routerWrite_only _ _ _ _ _).sub rfl))))))))))))))))

theorem biasUpdate_only (x0) : Only [.regs, .mem, .tab, .sites, .mig] (biasUpdate x0) := by
  delta biasUpdate
  exact (Only.bind (Only.get _) (fun _ => (by split; exact (Only.skip _); exact (Only.ite (Only.pure _ _) (Only.bind ((stW_only _ _).sub rfl) (fun _ => (Only.bind (Only.forIn _ _ (fun _ _ => (Only.bind ((biasLayer_only _ _ _).sub rfl) (fun _ => (Only.pure _ _))))) (fun _ => (Only.bind ((wrF_only _ _ _).sub rfl) (fun _ => (Only.bind ((addF_only _ _ _).sub rfl) (fun _ => (Only.bind ((stW_only _ _).sub rfl) (fun _ => (Only.bind ((count_only _ _).sub rfl) (fun _ => ((setIrq_only _ _).sub rfl)))))))))))))))))

theorem placeWork_only (x0 x1 x2 x3) : Only [.regs, .mem, .tab, .sites, .mig] (placeWork x0 x1 x2 x3) := by
  delta placeWork
  exact (Only.bind (Only.get _) (fun _ => (by extract_lets -underBinder -merge -useContext +onlyGivenNames j; (try clear_value j); exact (by extract_lets -underBinder -merge -useContext +onlyGivenNames j; (try clear_value j); exact (by split; exact ((placeBad_only _ _ _ _ _ _).sub rfl); exact (Only.ite ((placeBad_only _ _ _ _ _ _).sub rfl) (Only.ite ((placeBad_only _ _ _ _ _ _).sub rfl) (by extract_lets -underBinder -merge -useContext +onlyGivenNames j; (try clear_value j); exact (Only.bind (Only.forIn _ _ (fun _ _ => (Only.bind ((loadPending_only _ _ _ _).sub rfl) (fun _ => (Only.pure _ _))))) (fun _ => (Only.bind ((count_only _ _).sub rfl) (fun _ => (Only.bind ((count_only _ _).sub rfl) (fun _ => (Only.bind ((count_only _ _).sub rfl) (fun _ => (Only.bind ((count_only _ _).sub rfl) (fun _ => (Only.bind ((count_only _ _).sub rfl) (fun _ => (Only.bind ((count_only _ _).sub rfl) (fun _ => (Only.bind ((count_only _ _).sub rfl) (fun _ => (Only.bind ((count_only _ _).sub rfl) (fun _ => (Only.ite ((placeBad_only _ _ _ _ _ _).sub rfl) (by extract_lets -underBinder -merge -useContext +onlyGivenNames j; (try clear_value j); exact (Only.bind ((count_only _ _).sub rfl) (fun _ => (Only.bind ((count_only _ _).sub rfl) (fun _ => (Only.bind (Only.forIn _ _ (fun _ _ => (Only.bind ((routerWrite_only _ _ _ _ _).sub rfl) (fun _ => (Only.pure _ _))))) (fun _ => (Only.pure _ _)))))))))))))))))))))))))))))))))))

theorem placeRequest_only (x0) : Only [.regs, .mem, .tab, .sites, .mig] (placeRequest x0) := by
  delta placeRequest
  exact (Only.bind (Only.get _) (fun _ => (Only.ite (Only.pure _ _) (by extract_lets -underBinder -merge -useContext +onlyGivenNames j; (try clear_value j); exact (by split; exact (Only.skip _); exact (Only.bind ((addF_only _ _ _).sub rfl) (fun _ => (Only.bind ((wrF_only _ _ _).sub rfl) (fun _ => (Only.bind ((wrF_only _ _ _).sub rfl) (fun _ => (Only.bind ((stW_only _ _).sub rfl) (fun _ => (Only.bind ((stW_only _ _).sub rfl) (fun _ => ((placeWork_only _ _ _ _).sub rfl))))))))))))))))

theorem commitWaits_only (x0) : Only [.regs] (commitWaits x0) := by
  delta commitWaits
  exact (Only.bind (Only.forIn _ _ (fun _ _ => (Only.bind (Only.get _) (fun _ => (Only.ite (Only.ite (Only.bind ((count_only _ _).sub rfl) (fun _ => (Only.pure _ _))) (Only.ite (Only.bind ((count_only _ _).sub rfl) (fun _ => (Only.pure _ _))) (Only.pure _ _))) (Only.pure _ _)))))) (fun _ => (Only.pure _ _)))

theorem dropSamples_only (x0) : Only [.tiles] (dropSamples x0) := by
  delta dropSamples
  exact (Only.bind (Only.rd _ _) (fun _ => (Only.bind (Only.forIn _ _ (fun _ _ => (Only.bind ((dropMaxima_only _).sub rfl) (fun _ => (Only.bind ((modTile_only _ _).sub rfl) (fun _ => (Only.pure _ _))))))) (fun _ => (Only.pure _ _)))))

theorem commitDrain_only (x0) : Only [.tab] (commitDrain x0) := by
  delta commitDrain
  exact (Only.bind ((rdB_only _ _).sub rfl) (fun _ => (Only.bind (Only.rd _ _) (fun _ => (Only.bind (Only.forIn _ _ (fun _ _ => (Only.bind (Only.rd _ _) (fun _ => (by extract_lets -underBinder -merge -useContext +onlyGivenNames j; have h0 := show ∀ y, Only [.tab] (j y) from (fun _ => (Only.ite (Only.bind (Only.rd _ _) (fun _ => (Only.bind ((slotSet_only _ _ _).sub rfl) (fun _ => (Only.bind ((slotSet_only _ _ _).sub rfl) (fun _ => (Only.pure _ _))))))) (Only.pure _ _))); clear_value j; exact (Only.ite (Only.bind ((slotSet_only _ _ _).sub rfl) (fun _ => (Only.bind ((slotSet_only _ _ _).sub rfl) (fun _ => (h0 _))))) (h0 _))))))) (fun _ => (Only.pure _ _)))))))

theorem slotEnd_only (x0 x1 x2 x3) : Only [.regs, .tab, .parts] (slotEnd x0 x1 x2 x3) := by
  delta slotEnd
  exact (Only.bind ((slotSet_only _ _ _).sub rfl) (fun _ => (Only.bind ((slotSet_only _ _ _).sub rfl) (fun _ => (Only.bind ((slotSet_only _ _ _).sub rfl) (fun _ => (Only.bind ((rdF_only _ _).sub rfl) (fun _ => (Only.bind ((stW_only _ _).sub rfl) (fun _ => (Only.bind ((modPart_only _ _).sub rfl) (fun _ => (Only.ite ((count_only _ _).sub rfl) (Only.pure _ _))))))))))))))

theorem unpark_only (x0 x1) : Only [.regs, .tab, .parts] (unpark x0 x1) := by
  delta unpark
  exact (Only.bind (Only.rd _ _) (fun _ => (by extract_lets -underBinder -merge -useContext +onlyGivenNames j; have h0 := show ∀ y, Only [.regs, .tab, .parts] (j y) from (fun _ => (Only.bind (Only.get _) (fun _ => (Only.ite (Only.pure _ _) (Only.bind ((slotSet_only _ _ _).sub rfl) (fun _ => (Only.bind ((slotSet_only _ _ _).sub rfl) (fun _ => (Only.pure _ _))))))))); clear_value j; exact (Only.ite (Only.bind ((slotSound_only _ _).sub rfl) (fun _ => (h0 _))) (h0 _)))))

theorem setDirty_only (x0 x1) : Only [.regs, .mem, .tab, .sites, .mig] (setDirty x0 x1) := by
  delta setDirty
  exact (Only.bind (Only.forIn _ _ (fun _ _ => (Only.bind (Only.get _) (fun _ => (by extract_lets -underBinder -merge -useContext +onlyGivenNames j; (try clear_value j); exact (Only.ite (Only.bind (Only.forIn _ _ (fun _ _ => (Only.bind (Only.forIn _ _ (fun _ _ => (Only.bind (Only.rd _ _) (fun _ => (Only.bind ((engNotes_only _ _).sub rfl) (fun _ => (Only.bind (Only.rd _ _) (fun _ => (Only.bind (Only.rd _ _) (fun _ => (by split; exact (Only.bind ((engWrite_only _ _ _ _).sub rfl) (fun _ => (Only.pure _ _))); exact (Only.bind (Only.skip _) (fun _ => (Only.pure _ _)))))))))))))) (fun _ => (Only.pure _ _))))) (fun _ => (Only.pure _ _))) (Only.pure _ _))))))) (fun _ => (Only.pure _ _)))

theorem commitCancels_only (x0 x1) : Only [.regs, .tab, .parts] (commitCancels x0 x1) := by
  delta commitCancels
  exact (Only.bind (Only.rd _ _) (fun _ => (Only.bind (Only.forIn _ _ (fun _ _ => (Only.bind (Only.rd _ _) (fun _ => (Only.ite (Only.bind ((slotEnd_only _ _ _ _).sub rfl) (fun _ => (Only.pure _ _))) (Only.pure _ _)))))) (fun _ => (Only.pure _ _)))))

theorem stopSlots_only (x0) : Only [.regs, .tab, .parts] (stopSlots x0) := by
  delta stopSlots
  exact (Only.bind (Only.rd _ _) (fun _ => (Only.bind (Only.forIn _ _ (fun _ _ => (Only.bind ((slotEnd_only _ _ _ _).sub rfl) (fun _ => (Only.pure _ _))))) (fun _ => (Only.pure _ _)))))

theorem commitDeadlines_only (x0 x1) : Only [.regs, .tab, .parts] (commitDeadlines x0 x1) := by
  delta commitDeadlines
  exact (Only.bind (Only.rd _ _) (fun _ => (Only.bind (Only.forIn _ _ (fun _ _ => (Only.bind (Only.get _) (fun _ => (Only.ite (by extract_lets -underBinder -merge -useContext +onlyGivenNames j; have h0 := show ∀ y, Only [.regs, .tab, .parts] (j y) from (fun _ => (Only.ite (Only.bind ((slotEnd_only _ _ _ _).sub rfl) (fun _ => (Only.pure _ _))) (Only.pure _ _))); clear_value j; exact (Only.ite (Only.bind ((slotSet_only _ _ _).sub rfl) (fun _ => (Only.bind ((count_only _ _).sub rfl) (fun _ => (h0 _))))) (h0 _))) (Only.pure _ _)))))) (fun _ => (Only.pure _ _)))))

theorem stepRollback_only (x0) : Only [.regs, .mem, .tab, .parts, .sites, .tiles, .mig] (stepRollback x0) := by
  delta stepRollback
  exact (Only.bind (Only.get _) (fun _ => (Only.ite (Only.pure _ _) (by extract_lets -underBinder -merge -useContext +onlyGivenNames j; (try clear_value j); exact (Only.ite (Only.bind ((wrF_only _ _ _).sub rfl) (fun _ => (Only.pure _ _))) (Only.bind ((wrF_only _ _ _).sub rfl) (fun _ => (Only.bind ((count_only _ _).sub rfl) (fun _ => (Only.bind ((count_only _ _).sub rfl) (fun _ => (Only.bind (Only.forIn _ _ (fun _ _ => (Only.bind ((slotSet_only _ _ _).sub rfl) (fun _ => (Only.pure _ _))))) (fun _ => (Only.bind (Only.forIn _ _ (fun _ _ => (Only.bind ((dropMaxima_only _).sub rfl) (fun _ => (Only.pure _ _))))) (fun _ => (Only.bind ((routeRollback_only _).sub rfl) (fun _ => (Only.bind ((modPart_only _ _).sub rfl) (fun _ => (Only.bind ((setPhase_only _ _).sub rfl) (fun _ => (Only.pure _ _))))))))))))))))))))))

theorem stepAbandon_only (x0) : Only [.regs, .mem, .tab, .parts, .sites, .tiles, .mig] (stepAbandon x0) := by
  delta stepAbandon
  exact (Only.bind (Only.get _) (fun _ => (Only.ite (Only.pure _ _) (by extract_lets -underBinder -merge -useContext +onlyGivenNames j; (try clear_value j); exact (Only.bind ((leaseReturn_only _ _).sub rfl) (fun _ => (Only.bind (Only.forIn _ _ (fun _ _ => (Only.bind ((freeFrame_only _ _).sub rfl) (fun _ => (Only.pure _ _))))) (fun _ => (Only.bind (Only.forIn _ _ (fun _ _ => (by extract_lets -underBinder -merge -useContext +onlyGivenNames j; have h0 := show ∀ y, Only [.regs, .mem, .tab, .parts, .sites, .tiles, .mig] (j y) from (fun _ => (Only.bind ((slotSet_only _ _ _).sub rfl) (fun _ => (Only.ite (Only.bind ((slotSet_only _ _ _).sub rfl) (fun _ => (Only.pure _ _))) (Only.pure _ _))))); clear_value j; exact (Only.ite (Only.bind (Only.rd _ _) (fun _ => (Only.bind ((engNotes_only _ _).sub rfl) (fun _ => (Only.bind (Only.rd _ _) (fun _ => (Only.bind (Only.forIn _ _ (fun _ _ => (Only.ite (Only.bind (Only.rd _ _) (fun _ => (by split; exact (Only.bind ((engWrite_only _ _ _ _).sub rfl) (fun _ => (Only.pure _ _))); exact (Only.bind (Only.skip _) (fun _ => (Only.pure _ _)))))) (Only.pure _ _)))) (fun _ => (h0 _))))))))) (h0 _))))) (fun _ => (Only.bind ((dropSamples_only _).sub rfl) (fun _ => (Only.bind ((routeRollback_only _).sub rfl) (fun _ => (Only.bind ((modPart_only _ _).sub rfl) (fun _ => (Only.bind ((wrF_only _ _ _).sub rfl) (fun _ => (Only.bind ((wrF_only _ _ _).sub rfl) (fun _ => (Only.bind ((wrF_only _ _ _).sub rfl) (fun _ => (Only.bind ((count_only _ _).sub rfl) (fun _ => (Only.bind ((setPhase_only _ _).sub rfl) (fun _ => (Only.pure _ _)))))))))))))))))))))))))))

theorem applyMoves_only (x0 x1) : Only [.regs, .mem, .tab, .sites, .mig] (applyMoves x0 x1) := by
  delta applyMoves
  exact (Only.bind (Only.forIn _ _ (fun _ _ => (Only.bind (Only.rd _ _) (fun _ => (by split; exact (by extract_lets -underBinder -merge -useContext +onlyGivenNames j; (try clear_value j); exact (by extract_lets -underBinder -merge -useContext +onlyGivenNames j; (try clear_value j); exact (Only.bind ((engWrite_only _ _ _ _).sub rfl) (fun _ => (Only.pure _ _))))); exact (Only.bind (Only.skip _) (fun _ => (Only.pure _ _)))))))) (fun _ => ((wrF_only _ _ _).sub rfl)))

theorem kvCommit_only (x0 x1) : Only [.regs, .mem, .tab, .parts, .sites, .mig] (kvCommit x0 x1) := by
  delta kvCommit
  exact (Only.bind ((setDirty_only _ _).sub rfl) (fun _ => (Only.bind (Only.rd _ _) (fun _ => (Only.bind (Only.forIn _ _ (fun _ _ => (Only.bind ((rcTake_only _).sub rfl) (fun _ => (Only.pure _ _))))) (fun _ => (Only.bind ((modPart_only _ _).sub rfl) (fun _ => (Only.bind (Only.forIn _ _ (fun _ _ => (Only.bind (Only.get _) (fun _ => (Only.ite (Only.bind ((releasePast_only _ _ _ _).sub rfl) (fun _ => (Only.pure _ _))) (Only.pure _ _)))))) (fun _ => (Only.bind (Only.rd _ _) (fun _ => (Only.bind (Only.forIn _ _ (fun _ _ => (Only.bind (Only.rd _ _) (fun _ => (Only.ite (Only.bind ((releaseLists_only _ _).sub rfl) (fun _ => (Only.pure _ _))) (Only.pure _ _)))))) (fun _ => ((leaseReturn_only _ _).sub rfl)))))))))))))))

theorem appendTokens_only (x0 x1 x2 x3) : Only [.regs, .mem, .tab, .ports, .sites, .mig, .sent] (appendTokens x0 x1 x2 x3) := by
  delta appendTokens
  exact (Only.bind (Only.get _) (fun _ => (by extract_lets -underBinder -merge -useContext +onlyGivenNames j; (try clear_value j); exact (Only.bind (Only.forIn _ _ (fun _ _ => (by extract_lets -underBinder -merge -useContext +onlyGivenNames j; (try clear_value j); exact (by extract_lets -underBinder -merge -useContext +onlyGivenNames j; (try clear_value j); exact (Only.bind ((postEntry_only _ _ _).sub rfl) (fun _ => (Only.pure _ _))))))) (fun _ => (Only.bind ((slotSet_only _ _ _).sub rfl) (fun _ => (Only.ite ((count_only _ _).sub rfl) (Only.pure _ _)))))))))

theorem commitJournal_only (x0 x1 x2 x3 x4 x5) : Only [.regs, .mem, .tab, .ports, .parts, .sites, .mig, .sent] (commitJournal x0 x1 x2 x3 x4 x5) := by
  delta commitJournal
  exact (Only.bind (Only.get _) (fun _ => (Only.bind ((jWrite_only _ _ _ _ _ _).sub rfl) (fun _ => (Only.bind (Only.forIn _ _ (fun _ _ => (Only.bind ((slotSet_only _ _ _).sub rfl) (fun _ => (Only.pure _ _))))) (fun _ => (Only.bind ((engNote_only _ _ _ _).sub rfl) (fun _ => (Only.bind (Only.rd _ _) (fun _ => (Only.bind ((jWrite_only _ _ _ _ _ _).sub rfl) (fun _ => (Only.bind (Only.forIn _ _ (fun _ _ => (Only.bind ((jWrite_only _ _ _ _ _ _).sub rfl) (fun _ => (Only.bind ((slotSet_only _ _ _).sub rfl) (fun _ => (Only.pure _ _))))))) (fun _ => (Only.bind (Only.get _) (fun _ => (by extract_lets -underBinder -merge -useContext +onlyGivenNames j; (try clear_value j); exact (Only.bind ((modPart_only _ _).sub rfl) (fun _ => ((showPending_only _).sub rfl))))))))))))))))))))

theorem stopGo_only (x0) : Only [.regs, .mem, .tab, .ports, .parts, .sites, .tiles, .mig, .sent] (stopGo x0) := by
  delta stopGo
  exact (Only.bind ((tableSound_only _).sub rfl) (fun _ => (Only.bind (Only.get _) (fun _ => (Only.ite (by extract_lets -underBinder -merge -useContext +onlyGivenNames j; (try clear_value j); exact (Only.bind (Only.forIn _ _ (fun _ _ => (Only.bind ((freeFrame_only _ _).sub rfl) (fun _ => (Only.pure _ _))))) (fun _ => (Only.bind ((stopSlots_only _).sub rfl) (fun _ => (Only.bind ((dropSamples_only _).sub rfl) (fun _ => (Only.bind ((routeCommit_only _).sub rfl) (fun _ => (Only.bind ((kvCommit_only _ _).sub rfl) (fun _ => (Only.bind ((rdF_only _ _).sub rfl) (fun _ => (Only.bind ((commitJournal_only _ _ _ _ _ _).sub rfl) (fun _ => (Only.bind ((modPart_only _ _).sub rfl) (fun _ => (Only.bind ((wrF_only _ _ _).sub rfl) (fun _ => (Only.bind ((wrF_only _ _ _).sub rfl) (fun _ => (Only.bind ((setPhase_only _ _).sub rfl) (fun _ => ((stopIfDone_only _).sub rfl)))))))))))))))))))))))) (Only.pure _ _))))))

theorem partitionStop_only (x0) : Only [.regs, .mem, .tab, .ports, .parts, .sites, .tiles, .mig, .sent] (partitionStop x0) := by
  delta partitionStop
  exact (Only.bind (Only.get _) (fun _ => (Only.ite (Only.pure _ _) (Only.bind ((wrF_only _ _ _).sub rfl) (fun _ => (Only.bind ((modPart_only _ _).sub rfl) (fun _ => (Only.ite (Only.bind ((setPhase_only _ _).sub rfl) (fun _ => ((stopGo_only _).sub rfl))) (Only.pure _ _)))))))))

theorem listRelease_only (x0 x1) : Only [.regs, .mem, .tab, .parts, .sites, .mig] (listRelease x0 x1) := by
  delta listRelease
  exact (Only.bind (Only.rd _ _) (fun _ => (by extract_lets -underBinder -merge -useContext +onlyGivenNames j; have h0 := show ∀ y, Only [.regs, .mem, .tab, .parts, .sites, .mig] (j y) from (fun _ => (Only.bind (Only.get _) (fun _ => (Only.ite (Only.pure _ _) (Only.bind ((releaseLists_only _ _).sub rfl) (fun _ => (Only.bind ((slotMaybeFree_only _ _).sub rfl) (fun _ => (Only.pure _ _))))))))); clear_value j; exact (Only.ite (Only.bind ((slotSound_only _ _).sub rfl) (fun _ => (h0 _))) (h0 _)))))

theorem kvRebuild_only (x0 x1 x2) : Only [.regs, .mem, .tab, .parts, .sites, .mig] (kvRebuild x0 x1 x2) := by
  delta kvRebuild
  exact (Only.bind (Only.rd _ _) (fun _ => (by extract_lets -underBinder -merge -useContext +onlyGivenNames j; have h0 := show ∀ y, Only [.regs, .mem, .tab, .parts, .sites, .mig] (j y) from (fun _ => (Only.bind (Only.get _) (fun _ => (by extract_lets -underBinder -merge -useContext +onlyGivenNames j; (try clear_value j); exact (Only.ite (Only.pure _ _) (Only.bind ((slotSet_only _ _ _).sub rfl) (fun _ => (Only.bind ((slotSet_only _ _ _).sub rfl) (fun _ => (Only.bind ((slotSet_only _ _ _).sub rfl) (fun _ => (Only.bind ((slotSet_only _ _ _).sub rfl) (fun _ => (Only.bind ((releasePast_only _ _ _ _).sub rfl) (fun _ => (Only.pure _ _)))))))))))))))); clear_value j; exact (Only.ite (Only.bind ((slotSound_only _ _).sub rfl) (fun _ => (h0 _))) (h0 _)))))

theorem commitEntry_only (x0 x1 x2) : Only [.regs, .mem, .tab, .ports, .parts, .sites, .mig, .sent] (commitEntry x0 x1 x2) := by
  delta commitEntry
  exact (Only.bind (Only.get _) (fun _ => (by extract_lets -underBinder -merge -useContext +onlyGivenNames j; (try clear_value j); exact (Only.ite (Only.pure _ _) (by extract_lets -underBinder -merge -useContext +onlyGivenNames j; have h0 := show ∀ y z, Only [.regs, .mem, .tab, .ports, .parts, .sites, .mig, .sent] (j y z) from (by intro _ _; unfold j; exact (by extract_lets -underBinder -merge -useContext +onlyGivenNames j; (try clear_value j); exact (by extract_lets -underBinder -merge -useContext +onlyGivenNames j; (try clear_value j); exact (Only.bind ((slotSet_only _ _ _).sub rfl) (fun _ => (Only.bind ((slotSet_only _ _ _).sub rfl) (fun _ => (by extract_lets -underBinder -merge -useContext +onlyGivenNames j; have h0 := show ∀ y, Only [.regs, .mem, .tab, .ports, .parts, .sites, .mig, .sent] (j y) from (fun _ => (Only.bind ((appendTokens_only _ _ _ _).sub rfl) (fun _ => (by extract_lets -underBinder -merge -useContext +onlyGivenNames j; have h0 := show ∀ y, Only [.regs, .mem, .tab, .ports, .parts, .sites, .mig, .sent] (j y) from (fun _ => (Only.ite ((slotSet_only _ _ _).sub rfl) (Only.pure _ _))); clear_value j; exact (Only.ite (Only.bind ((count_only _ _).sub rfl) (fun _ => (Only.ite (Only.bind ((slotSet_only _ _ _).sub rfl) (fun _ => (h0 _))) (h0 _)))) (h0 _)))))); clear_value j; exact (Only.ite (Only.ite (Only.bind ((count_only _ _).sub rfl) (fun _ => (h0 _))) (h0 _)) (h0 _)))))))))); clear_value j; exact (by split; exact ((slotEnd_only _ _ _ _).sub rfl); exact ((slotEnd_only _ _ _ _).sub rfl); exact (Only.bind ((slotSet_only _ _ _).sub rfl) (fun _ => (Only.bind ((slotSet_only _ _ _).sub rfl) (fun _ => (Only.bind ((slotSet_only _ _ _).sub rfl) (fun _ => ((count_only _ _).sub rfl))))))); exact (h0 _ _); exact (Only.bind (h0 _ _) (fun _ => ((slotEnd_only _ _ _ _).sub rfl)))))))))

theorem commitEntries_only : ∀ x0 x1 x2 x3, Only [.regs, .mem, .tab, .ports, .parts, .sites, .mig, .sent] (commitEntries x0 x1 x2 x3)
  | _, _, _, ([]) => by
    rw [commitEntries]
    exact (Only.skip _)
  | _, _, _, (b :: l) => by
    rw [commitEntries]
    exact (Only.bind ((commitEntry_only _ _ _).sub rfl) (fun _ => ((commitEntries_only _ _ _ _).sub rfl)))

theorem commitRun_only (x0) : Only [.regs, .mem, .tab, .ports, .parts, .sites, .tiles, .mig, .sent] (commitRun x0) := by
  delta commitRun
  exact (Only.bind (Only.get _) (fun _ => (by extract_lets -underBinder -merge -useContext +onlyGivenNames j; (try clear_value j); exact (by extract_lets -underBinder -merge -useContext +onlyGivenNames j; (try clear_value j); exact (by extract_lets -underBinder -merge -useContext +onlyGivenNames j; (try clear_value j); exact (by extract_lets -underBinder -merge -useContext +onlyGivenNames j; (try clear_value j); exact (by extract_lets -underBinder -merge -useContext +onlyGivenNames j; (try clear_value j); exact (Only.bind ((commitEntries_only _ _ _ _).sub rfl) (fun _ => (Only.bind ((commitCancels_only _ _).sub rfl) (fun _ => (Only.bind ((commitDeadlines_only _ _).sub rfl) (fun _ => (Only.bind ((commitDrain_only _).sub rfl) (fun _ => (Only.bind (Only.forIn _ _ (fun _ _ => (Only.bind ((commitHistories_only _).sub rfl) (fun _ => (Only.pure _ _))))) (fun _ => (Only.bind ((routeCommit_only _).sub rfl) (fun _ => (Only.bind ((routeSnapshot_only _ _ _ _).sub rfl) (fun _ => (Only.bind (Only.rd _ _) (fun _ => (Only.bind ((rdF_only _ _).sub rfl) (fun _ => (by extract_lets -underBinder -merge -useContext +onlyGivenNames j; have h0 := show ∀ y, Only [.regs, .mem, .tab, .ports, .parts, .sites, .tiles, .mig, .sent] (j y) from (fun _ => (Only.bind ((kvCommit_only _ _).sub rfl) (fun _ => (Only.bind (Only.forIn _ _ (fun _ _ => (Only.bind (Only.rd _ _) (fun _ => (Only.ite (Only.bind ((lingInsert_only _ _).sub rfl) (fun _ => (Only.pure _ _))) (Only.pure _ _)))))) (fun _ => (Only.bind ((lingEvict_only _ _).sub rfl) (fun _ => (Only.bind ((wrF_only _ _ _).sub rfl) (fun _ => (Only.bind ((rdF_only _ _).sub rfl) (fun _ => (Only.bind ((commitJournal_only _ _ _ _ _ _).sub rfl) (fun _ => (Only.bind ((modPart_only _ _).sub rfl) (fun _ => (Only.bind ((wrF_only _ _ _).sub rfl) (fun _ => (Only.bind ((wrF_only _ _ _).sub rfl) (fun _ => (Only.bind ((wrF_only _ _ _).sub rfl) (fun _ => (Only.bind ((count_only _ _).sub rfl) (fun _ => ((setPhase_only _ _).sub rfl)))))))))))))))))))))))); clear_value j; exact (Only.ite (Only.bind ((applyMoves_only _ _).sub rfl) (fun _ => (h0 _))) (h0 _))))))))))))))))))))))))))))

theorem stopNext_only (x0) : Only [.regs, .mem, .tab, .ports, .parts, .sites, .tiles, .mig, .sent] (stopNext x0) := by
  delta stopNext
  exact (Only.bind (Only.get _) (fun _ => (Only.ite (Only.bind ((setPhase_only _ _).sub rfl) (fun _ => ((stopGo_only _).sub rfl))) (Only.pure _ _))))

theorem commitGo_only (x0) : Only [.regs, .mem, .tab, .ports, .parts, .sites, .tiles, .mig, .sent] (commitGo x0) := by
  delta commitGo
  exact (Only.bind ((tableSound_only _).sub rfl) (fun _ => (Only.bind (Only.get _) (fun _ => (Only.ite ((commitRun_only _).sub rfl) (Only.pure _ _))))))

theorem stepCommit_only (x0) : Only [.regs, .mem, .tab, .ports, .parts, .sites, .tiles, .mig, .sent] (stepCommit x0) := by
  delta stepCommit
  exact (Only.bind (Only.get _) (fun _ => (Only.ite (Only.pure _ _) (Only.bind ((engNotes_only _ _).sub rfl) (fun _ => (by extract_lets -underBinder -merge -useContext +onlyGivenNames j; have h0 := show ∀ y, Only [.regs, .mem, .tab, .ports, .parts, .sites, .tiles, .mig, .sent] (j y) from (fun _ => (Only.pure _ _)); clear_value j; exact (by split; exact (Only.bind ((wrF_only _ _ _).sub rfl) (fun _ => (Only.bind ((count_only _ _).sub rfl) (fun _ => (h0 _))))); exact (Only.bind ((modPart_only _ _).sub rfl) (fun _ => (Only.bind ((setPhase_only _ _).sub rfl) (fun _ => (Only.bind ((commitGo_only _).sub rfl) (fun _ => (h0 _))))))))))))))

theorem commitResume_only (x0) : Only [.regs, .mem, .tab, .ports, .parts, .sites, .tiles, .mig, .sent] (commitResume x0) := by
  delta commitResume
  exact (Only.bind (Only.get _) (fun _ => (Only.ite (Only.pure _ _) (Only.ite ((stopGo_only _).sub rfl) (Only.bind ((commitGo_only _).sub rfl) (fun _ => ((stopNext_only _).sub rfl)))))))

theorem recoverResult_only (x0 x1 x2) : Only [.regs] (recoverResult x0 x1 x2) := by
  delta recoverResult
  exact (Only.bind ((wrF_only _ _ _).sub rfl) (fun _ => ((wrF_only _ _ _).sub rfl)))

theorem startRebuild_only (x0 x1) : Only [.tab] (startRebuild x0 x1) := by
  delta startRebuild
  exact (Only.bind (Only.rd _ _) (fun _ => (Only.bind ((slotSet_only _ _ _).sub rfl) (fun _ => (Only.bind ((slotSet_only _ _ _).sub rfl) (fun _ => (Only.bind ((slotSet_only _ _ _).sub rfl) (fun _ => ((slotSet_only _ _ _).sub rfl)))))))))

theorem dropPending_only (x0) : Only [.regs, .tab, .parts] (dropPending x0) := by
  delta dropPending
  exact (Only.bind (Only.rd _ _) (fun _ => (Only.bind (Only.forIn _ _ (fun _ _ => (Only.bind (Only.get _) (fun _ => (Only.bind ((adpUnpin_only _ _ _).sub rfl) (fun _ => (Only.bind (Only.forIn _ _ (fun _ _ => (Only.bind ((stW_only _ _).sub rfl) (fun _ => (Only.pure _ _))))) (fun _ => (Only.bind ((addAdmitting_only _).sub rfl) (fun _ => (Only.pure _ _))))))))))) (fun _ => ((modPart_only _ _).sub rfl)))))

theorem finalNow_only (x0 x1 x2) : Only [.regs, .mem, .tab, .ports, .parts, .sites, .mig, .sent] (finalNow x0 x1 x2) := by
  delta finalNow
  exact ((publish_only _ _).sub rfl)

theorem installSlot_only (x0 x1 x2 x3 x4 x5) : Only [.regs, .mem, .tab, .ports, .parts, .sites, .mig, .sent] (installSlot x0 x1 x2 x3 x4 x5) := by
  delta installSlot
  exact (Only.bind ((slotFill_only _ _ _ _).sub rfl) (fun _ => (by extract_lets -underBinder -merge -useContext +onlyGivenNames j; have h0 := show ∀ y, Only [.regs, .mem, .tab, .ports, .parts, .sites, .mig, .sent] (j y) from (fun _ => (Only.bind ((slotSet_only _ _ _).sub rfl) (fun _ => (Only.bind ((slotSet_only _ _ _).sub rfl) (fun _ => (Only.bind ((slotSet_only _ _ _).sub rfl) (fun _ => (Only.bind ((slotSet_only _ _ _).sub rfl) (fun _ => (Only.bind ((slotSet_only _ _ _).sub rfl) (fun _ => (Only.bind ((slotSet_only _ _ _).sub rfl) (fun _ => (Only.bind ((slotSet_only _ _ _).sub rfl) (fun _ => (Only.bind ((slotSet_only _ _ _).sub rfl) (fun _ => (Only.bind ((slotSet_only _ _ _).sub rfl) (fun _ => (by extract_lets -underBinder -merge -useContext +onlyGivenNames j; have h0 := show ∀ y, Only [.regs, .mem, .tab, .ports, .parts, .sites, .mig, .sent] (j y) from (fun _ => (Only.bind ((addLive_only _).sub rfl) (fun _ => (Only.bind ((modPart_only _ _).sub rfl) (fun _ => (by extract_lets -underBinder -merge -useContext +onlyGivenNames j; (try clear_value j); exact (Only.bind ((slotSet_only _ _ _).sub rfl) (fun _ => (Only.bind ((appendTokens_only _ _ _ _).sub rfl) (fun _ => (Only.bind ((slotSet_only _ _ _).sub rfl) (fun _ => (Only.bind ((slotSet_only _ _ _).sub rfl) (fun _ => (Only.bind (Only.get _) (fun _ => (Only.bind ((publishTail_only _ _ _).sub rfl) (fun _ => (by extract_lets -underBinder -merge -useContext +onlyGivenNames j; have h0 := show ∀ y, Only [.regs, .mem, .tab, .ports, .parts, .sites, .mig, .sent] (j y) from (fun _ => ((count_only _ _).sub rfl)); clear_value j; exact (Only.ite (Only.bind ((stW_only _ _).sub rfl) (fun _ => (Only.bind ((finalNow_only _ _ _).sub rfl) (fun _ => (h0 _))))) (Only.bind (Only.forIn _ _ (fun _ _ => (Only.bind ((slotSet_only _ _ _).sub rfl) (fun _ => (Only.pure _ _))))) (fun _ => (Only.ite (Only.bind ((startRebuild_only _ _).sub rfl) (fun _ => (h0 _))) (h0 _)))))))))))))))))))))))); clear_value j; exact (Only.ite (Only.bind ((slotSet_only _ _ _).sub rfl) (fun _ => (h0 _))) (h0 _)))))))))))))))))))))); clear_value j; exact (Only.ite (Only.bind ((pinFor_only _ _ _ _).sub rfl) (fun _ => (h0 _))) (h0 _)))))

theorem failSlot_only (x0 x1 x2 x3 x4) : Only [.regs, .mem, .tab, .ports, .parts, .sites, .mig, .sent] (failSlot x0 x1 x2 x3 x4) := by
  delta failSlot
  exact (by extract_lets -underBinder -merge -useContext +onlyGivenNames j; (try clear_value j); exact (Only.bind (Only.forIn _ _ (fun _ _ => (Only.bind ((stW_only _ _).sub rfl) (fun _ => (Only.pure _ _))))) (fun _ => (Only.bind ((slotPut_only _ _ _).sub rfl) (fun _ => (Only.bind ((slotPut_only _ _ _).sub rfl) (fun _ => (Only.bind ((slotPut_only _ _ _).sub rfl) (fun _ => (Only.bind ((slotPut_only _ _ _).sub rfl) (fun _ => (Only.bind ((slotPut_only _ _ _).sub rfl) (fun _ => (Only.bind ((slotPut_only _ _ _).sub rfl) (fun _ => (Only.bind ((slotPut_only _ _ _).sub rfl) (fun _ => (Only.bind ((slotPut_only _ _ _).sub rfl) (fun _ => (Only.bind ((slotSeal_only _).sub rfl) (fun _ => (Only.bind ((addLive_only _).sub rfl) (fun _ => (Only.bind ((stW_only _ _).sub rfl) (fun _ => ((finalNow_only _ _ _).sub rfl))))))))))))))))))))))))))

theorem recover_only (x0 x1 x2) : Only [.regs, .mem, .tab, .ports, .parts, .sites, .mig, .sent] (recover x0 x1 x2) := by
  delta recover
  exact (Only.bind (Only.get _) (fun _ => (Only.ite (Only.pure _ _) (Only.bind ((engNote_only _ _ _ _).sub rfl) (fun _ => (Only.ite (Only.pure _ _) (by extract_lets -underBinder -merge -useContext +onlyGivenNames j; (try clear_value j); exact (Only.bind ((engNotes_only _ _).sub rfl) (fun _ => (by extract_lets -underBinder -merge -useContext +onlyGivenNames j; (try clear_value j); exact (by extract_lets -underBinder -merge -useContext +onlyGivenNames j; (try clear_value j); exact (by extract_lets -underBinder -merge -useContext +onlyGivenNames j; have h0 := show ∀ y, Only [.regs, .mem, .tab, .ports, .parts, .sites, .mig, .sent] (j y) from (fun _ => (Only.pure _ _)); clear_value j; exact (by split; exact (Only.bind ((recoverResult_only _ _ _).sub rfl) (fun _ => (h0 _))); exact (Only.ite (Only.bind ((recoverResult_only _ _ _).sub rfl) (fun _ => (h0 _))) (by split; exact (Only.bind ((recoverResult_only _ _ _).sub rfl) (fun _ => (h0 _))); exact (Only.ite (Only.bind ((recoverResult_only _ _ _).sub rfl) (fun _ => (h0 _))) (by extract_lets -underBinder -merge -useContext +onlyGivenNames j; (try clear_value j); exact (Only.bind ((wrF_only _ _ _).sub rfl) (fun _ => (Only.bind ((wrF_only _ _ _).sub rfl) (fun _ => (Only.bind ((dropPending_only _).sub rfl) (fun _ => (Only.bind (Only.forIn _ _ (fun _ _ => (Only.ite (Only.bind ((slotFree_only _ _).sub rfl) (fun _ => (Only.pure _ _))) (Only.pure _ _)))) (fun _ => (by extract_lets -underBinder -merge -useContext +onlyGivenNames j; (try clear_value j); exact (Only.bind ((wrF_only _ _ _).sub rfl) (fun _ => (Only.bind ((wrF_only _ _ _).sub rfl) (fun _ => (Only.bind ((wrF_only _ _ _).sub rfl) (fun _ => (by extract_lets -underBinder -merge -useContext +onlyGivenNames j; (try clear_value j); exact (Only.bind ((modPart_only _ _).sub rfl) (fun _ => (Only.bind ((showPending_only _).sub rfl) (fun _ => (Only.bind (Only.forIn _ _ (fun _ _ => (by split; exact (Only.bind ((installSlot_only _ _ _ _ _ _).sub rfl) (fun _ => (Only.pure _ _))); exact (Only.bind ((count_only _ _).sub rfl) (fun _ => (Only.pure _ _)))))) (fun _ => (Only.bind (Only.forIn _ _ (fun _ _ => (Only.ite (Only.bind ((failSlot_only _ _ _ _ _).sub rfl) (fun _ => (Only.pure _ _))) (Only.pure _ _)))) (fun _ => (Only.bind ((recoverResult_only _ _ _).sub rfl) (fun _ => (h0 _))))))))))))))))))))))))))))))))))))))))))))

end Sys2Proof.Machine
end

