-- ==== Sys2Proof/Laws/FrameMove.lean ====
section
/-! SUPPORT. Which fields of the state each operation can change, and that it always goes on: rings, copies, the board mesh, sites, write-back and flash.
One lemma for each operation, over the lemmas of what it calls. -/

namespace Sys2Proof.Machine

theorem bellRings_only (x0 x1) : Only [.parts] (bellRings x0 x1) := by
  delta bellRings
  exact (Only.bind (Only.get _) (fun _ => (by split; exact (Only.ite ((modPart_only _ _).sub rfl) (Only.pure _ _)); exact (Only.skip _))))

theorem modFab_only (x0) : Only [.fab] (modFab x0) := by
  delta modFab
  exact (Only.bind (Only.rd _ _) (fun _ => (Only.upd _ rfl)))

theorem ringContextWrite_only (x0 x1 x2) : Only [.regs, .tab] (ringContextWrite x0 x1 x2) := by
  delta ringContextWrite
  exact (Only.bind (Only.get _) (fun _ => (by extract_lets -underBinder -merge -useContext +onlyGivenNames j; (try clear_value j); exact (by extract_lets -underBinder -merge -useContext +onlyGivenNames j; (try clear_value j); exact (by extract_lets -underBinder -merge -useContext +onlyGivenNames j; (try clear_value j); exact (Only.ite (Only.pure _ _) (by extract_lets -underBinder -merge -useContext +onlyGivenNames j; (try clear_value j); exact (by extract_lets -underBinder -merge -useContext +onlyGivenNames j; (try clear_value j); exact (Only.ite (Only.pure _ _) (by extract_lets -underBinder -merge -useContext +onlyGivenNames j; have h0 := show ∀ y, Only [.regs, .tab] (j y) from (fun _ => (Only.bind ((stW_only _ _).sub rfl) (fun _ => (Only.bind ((ringSettle_only _).sub rfl) (fun _ => (Only.pure _ _)))))); clear_value j; exact (Only.ite (by extract_lets -underBinder -merge -useContext +onlyGivenNames j; (try clear_value j); exact (by extract_lets -underBinder -merge -useContext +onlyGivenNames j; (try clear_value j); exact (by extract_lets -underBinder -merge -useContext +onlyGivenNames j; (try clear_value j); exact (by extract_lets -underBinder -merge -useContext +onlyGivenNames j; (try clear_value j); exact (by extract_lets -underBinder -merge -useContext +onlyGivenNames j; (try clear_value j); exact (by extract_lets -underBinder -merge -useContext +onlyGivenNames j; (try clear_value j); exact (Only.ite (Only.pure _ _) (Only.ite (Only.pure _ _) (h0 _))))))))) (h0 _))))))))))))

theorem ringBusy_only (x0) : Only [.regs, .mem, .ports, .fab, .sent] (ringBusy x0) := by
  delta ringBusy
  exact (onPacket_only _ _ (fun _ => (by split; exact (Only.skip _); exact (Only.bind (Only.get _) (fun _ => (by extract_lets -underBinder -merge -useContext +onlyGivenNames j; (try clear_value j); exact (by split; exact (Only.skip _); exact ((modFab_only _).sub rfl))))))) rfl)

theorem finalsConsumed_only (x0 x1 x2) : Only [.regs, .tab, .parts] (finalsConsumed x0 x1 x2) := by
  delta finalsConsumed
  exact (Only.bind (Only.rd _ _) (fun _ => (by extract_lets -underBinder -merge -useContext +onlyGivenNames j; (try clear_value j); exact (Only.bind ((modPart_only _ _).sub rfl) (fun _ => (Only.bind (Only.forIn _ _ (fun _ _ => (Only.bind ((slotMaybeFree_only _ _).sub rfl) (fun _ => (Only.pure _ _))))) (fun _ => (Only.pure _ _))))))))

theorem ringMsg_only (x0) : Only [.regs, .mem, .tab, .ports, .sites, .mig, .sent] (ringMsg x0) := by
  delta ringMsg
  exact (onPacket_only _ _ (fun _ => (by split; exact (Only.skip _); exact (by extract_lets -underBinder -merge -useContext +onlyGivenNames j; (try clear_value j); exact (Only.bind ((ringUse_only _).sub rfl) (fun _ => (Only.bind (Only.get _) (fun _ => (Only.ite (by extract_lets -underBinder -merge -useContext +onlyGivenNames j; (try clear_value j); exact (Only.bind ((ringWrite_only _ _ _ _).sub rfl) (fun _ => (Only.bind ((ringSet_only _ _ _ _).sub rfl) (fun _ => ((count_only _ _).sub rfl)))))) ((sendRing_only _ _ _ _ _ _ _).sub rfl))))))))) rfl)

theorem msgSend_only (x0 x1) : Only [.regs, .mem, .ports, .fab, .sent] (msgSend x0 x1) := by
  delta msgSend
  exact (Only.bind (Only.get _) (fun _ => (Only.bind ((ringRead_only _ _ _).sub rfl) (fun _ => (by split; exact (Only.bind ((sendRing_only _ _ _ _ _ _ _).sub rfl) (fun _ => (Only.bind ((count_only _ _).sub rfl) (fun _ => ((modFab_only _).sub rfl))))); exact (Only.skip _))))))

theorem ringMsgRetry_only (x0) : Only [.regs, .mem, .ports, .fab, .sent] (ringMsgRetry x0) := by
  delta ringMsgRetry
  exact (Only.bind (Only.get _) (fun _ => (by split; exact (by split; exact (Only.ite ((msgSend_only _ _).sub rfl) (Only.pure _ _)); exact (Only.skip _)); exact (Only.skip _))))

theorem msgNext_only (x0) : Only [.regs, .mem, .ports, .fab, .sent] (msgNext x0) := by
  delta msgNext
  exact (Only.bind (Only.get _) (fun _ => (by split; exact (Only.skip _); exact (Only.ite ((msgSend_only _ _).sub rfl) (Only.pure _ _)))))

theorem msgTaken_only : Only [.regs, .mem, .tab, .ports, .fab, .sent] msgTaken := by
  delta msgTaken
  exact (Only.bind (Only.get _) (fun _ => (Only.bind (Only.forIn _ _ (fun _ _ => (Only.bind ((modFab_only _).sub rfl) (fun _ => (Only.bind ((ringSet_only _ _ _ _).sub rfl) (fun _ => (Only.bind ((msgNext_only _).sub rfl) (fun _ => (Only.pure _ _))))))))) (fun _ => (Only.pure _ _)))))

theorem doorbell_only (x0 x1) : Only [.regs, .mem, .tab, .ports, .parts, .fab, .sent] (doorbell x0 x1) := by
  delta doorbell
  exact (Only.bind ((ringUse_only _).sub rfl) (fun _ => (Only.bind (Only.get _) (fun _ => (by extract_lets -underBinder -merge -useContext +onlyGivenNames j; (try clear_value j); exact (by extract_lets -underBinder -merge -useContext +onlyGivenNames j; (try clear_value j); exact (Only.ite ((count_only _ _).sub rfl) (Only.ite (Only.bind ((ringSet_only _ _ _ _).sub rfl) (fun _ => (Only.bind ((bellRings_only _ _).sub rfl) (fun _ => (Only.ite ((msgNext_only _).sub rfl) (Only.pure _ _)))))) (Only.ite (Only.bind ((ringSet_only _ _ _ _).sub rfl) (fun _ => (by split; exact ((finalsConsumed_only _ _ _).sub rfl); exact (Only.skip _)))) ((count_only _ _).sub rfl))))))))))

theorem ringIn_only (x0) : Only [.regs, .mem, .tab, .ports, .parts, .sites, .fab, .mig, .sent] (ringIn x0) := by
  delta ringIn
  exact (onPacket_only _ _ (fun _ => (by split; exact (Only.skip _); exact (by extract_lets -underBinder -merge -useContext +onlyGivenNames j; (try clear_value j); exact (by extract_lets -underBinder -merge -useContext +onlyGivenNames j; (try clear_value j); exact (by extract_lets -underBinder -merge -useContext +onlyGivenNames j; (try clear_value j); exact (Only.bind ((ringUse_only _).sub rfl) (fun _ => (Only.bind (Only.forIn _ _ (fun _ _ => (Only.bind (Only.get _) (fun _ => (Only.ite (Only.ite (Only.bind ((count_only _ _).sub rfl) (fun _ => (Only.pure _ _))) (Only.bind ((ringWrite_only _ _ _ _).sub rfl) (fun _ => (Only.bind ((count_only _ _).sub rfl) (fun _ => (Only.pure _ _)))))) (Only.pure _ _)))))) (fun _ => (by split; exact ((doorbell_only _ _).sub rfl); exact ((doorbell_only _ _).sub rfl); exact (Only.skip _))))))))))) rfl)

theorem placeWrite_only (x0 x1 x2 x3) : Only [.regs, .mem, .tab, .sites, .mig] (placeWrite x0 x1 x2 x3) := by
  delta placeWrite
  exact (by split; exact (Only.bind ((spWrite_only _ _ _ _ _).sub rfl) (fun _ => (Only.pure _ _))))

theorem signalWord_only (x0 x1 x2 x3 x4) : Only [.regs, .mem, .tab, .sites, .mig] (signalWord x0 x1 x2 x3 x4) := by
  delta signalWord
  exact (by extract_lets -underBinder -merge -useContext +onlyGivenNames j; (try clear_value j); exact (Only.bind ((spWrite_only _ _ _ _ _).sub rfl) (fun _ => (Only.pure _ _))))

theorem putPacket_only (x0) : Only [.regs, .mem, .tab, .ports, .sites, .fab, .mig, .sent] (putPacket x0) := by
  delta putPacket
  exact (onPacket_only _ _ (fun _ => (by split; exact (Only.skip _); exact (Only.bind (Only.get _) (fun _ => (by extract_lets -underBinder -merge -useContext +onlyGivenNames j; (try clear_value j); exact (by extract_lets -underBinder -merge -useContext +onlyGivenNames j; (try clear_value j); exact (by extract_lets -underBinder -merge -useContext +onlyGivenNames j; (try clear_value j); exact (Only.ite (Only.bind ((placeWrite_only _ _ _ _).sub rfl) (fun _ => (by extract_lets -underBinder -merge -useContext +onlyGivenNames j; (try clear_value j); exact (by extract_lets -underBinder -merge -useContext +onlyGivenNames j; (try clear_value j); exact (by extract_lets -underBinder -merge -useContext +onlyGivenNames j; (try clear_value j); exact ((modFab_only _).sub rfl)))))) (Only.pure _ _))))))))) rfl)

theorem putFinish_only (x0 x1) : Only [.regs, .mem, .tab, .sites, .fab, .mig] (putFinish x0 x1) := by
  delta putFinish
  exact (Only.bind ((modFab_only _).sub rfl) (fun _ => (by split; exact ((signalWord_only _ _ _ _ _).sub rfl); exact (Only.skip _))))

theorem entryError_only (x0 x1 x2 x3) : Only [.regs, .mem, .tab, .sites, .mig] (entryError x0 x1 x2 x3) := by
  delta entryError
  exact (Only.ite ((signalWord_only _ _ _ _ _).sub rfl) (Only.pure _ _))

theorem dmaDone_only (x0) : Only [.regs, .mem, .tab, .sites, .fab, .mig] (dmaDone x0) := by
  delta dmaDone
  exact (Only.bind (Only.get _) (fun _ => (by split; exact (Only.skip _); exact (Only.bind ((modFab_only _).sub rfl) (fun _ => ((signalWord_only _ _ _ _ _).sub rfl))))))

theorem replyTo_only (x0 x1 x2 x3 x4 x5) : Only [.regs, .ports, .sent] (replyTo x0 x1 x2 x3 x4 x5) := by
  delta replyTo
  exact (Only.bind (Only.get _) (fun _ => (by extract_lets -underBinder -merge -useContext +onlyGivenNames j; (try clear_value j); exact (Only.ite ((sendFab_only _ _ _ _ _ _ _ _).sub rfl) (by split; exact ((sendBoard_only _ _ _ _ _ _ _ _).sub rfl); exact (Only.skip _))))))

theorem putEnd_only (x0) : Only [.regs, .mem, .tab, .ports, .sites, .fab, .mig, .sent] (putEnd x0) := by
  delta putEnd
  exact (onPacket_only _ _ (fun _ => (by split; exact (Only.skip _); exact (Only.bind (Only.get _) (fun _ => (by extract_lets -underBinder -merge -useContext +onlyGivenNames j; (try clear_value j); exact (by extract_lets -underBinder -merge -useContext +onlyGivenNames j; (try clear_value j); exact (by extract_lets -underBinder -merge -useContext +onlyGivenNames j; (try clear_value j); exact (by extract_lets -underBinder -merge -useContext +onlyGivenNames j; (try clear_value j); exact (by extract_lets -underBinder -merge -useContext +onlyGivenNames j; (try clear_value j); exact (by extract_lets -underBinder -merge -useContext +onlyGivenNames j; (try clear_value j); exact (by extract_lets -underBinder -merge -useContext +onlyGivenNames j; (try clear_value j); exact (Only.ite (Only.bind ((modFab_only _).sub rfl) (fun _ => ((replyTo_only _ _ _ _ _ _).sub rfl))) (Only.ite (Only.bind ((modFab_only _).sub rfl) (fun _ => (Only.bind (Only.ite (Only.pure _ _) ((placeWrite_only _ _ _ _).sub rfl)) (fun _ => ((replyTo_only _ _ _ _ _ _).sub rfl))))) ((replyTo_only _ _ _ _ _ _).sub rfl)))))))))))))) rfl)

theorem putSend_only (x0 x1 x2 x3) : Only [.regs, .ports, .sent] (putSend x0 x1 x2 x3) := by
  delta putSend
  exact (Only.bind (Only.get _) (fun _ => (by extract_lets -underBinder -merge -useContext +onlyGivenNames j; (try clear_value j); exact (Only.ite ((sendFor_only _ _ _ _).sub rfl) ((sendFor_only _ _ _ _).sub rfl)))))

theorem putStart_only (x0 x1 x2 x3) : Only [.regs, .mem, .tab, .ports, .sites, .fab, .mig, .sent] (putStart x0 x1 x2 x3) := by
  delta putStart
  exact (Only.bind (Only.get _) (fun _ => (by extract_lets -underBinder -merge -useContext +onlyGivenNames j; (try clear_value j); exact (by split; exact ((entryError_only _ _ _ _).sub rfl); exact (by extract_lets -underBinder -merge -useContext +onlyGivenNames j; (try clear_value j); exact (by extract_lets -underBinder -merge -useContext +onlyGivenNames j; (try clear_value j); exact (by extract_lets -underBinder -merge -useContext +onlyGivenNames j; (try clear_value j); exact (by extract_lets -underBinder -merge -useContext +onlyGivenNames j; (try clear_value j); exact (Only.bind ((modFab_only _).sub rfl) (fun _ => (Only.bind (Only.forIn _ _ (fun _ _ => (Only.bind ((putSend_only _ _ _ _).sub rfl) (fun _ => (Only.pure _ _))))) (fun _ => (Only.pure _ _)))))))))))))

theorem putAgain_only (x0) : Only [.regs, .mem, .tab, .ports, .sites, .fab, .mig, .sent] (putAgain x0) := by
  delta putAgain
  exact (Only.bind (Only.get _) (fun _ => (Only.ite ((putFinish_only _ _).sub rfl) (Only.bind ((modFab_only _).sub rfl) (fun _ => (Only.bind ((count_only _ _).sub rfl) (fun _ => (Only.bind (Only.forIn _ _ (fun _ _ => (Only.bind ((putSend_only _ _ _ _).sub rfl) (fun _ => (Only.pure _ _))))) (fun _ => (Only.pure _ _))))))))))

theorem putDone_only (x0) : Only [.regs, .mem, .tab, .ports, .sites, .fab, .mig, .sent] (putDone x0) := by
  delta putDone
  exact (onPacket_only _ _ (fun _ => (by split; exact (Only.skip _); exact (Only.bind (Only.get _) (fun _ => (by split; exact (Only.skip _); exact (by split; exact ((putFinish_only _ _).sub rfl); exact ((putAgain_only _).sub rfl); exact ((putFinish_only _ _).sub rfl); exact (Only.skip _))))))) rfl)

theorem dmaEntry_only (x0) : Only [.regs, .mem, .tab, .ports, .sites, .fab, .mig, .sent] (dmaEntry x0) := by
  delta dmaEntry
  exact (Only.bind ((ringsSound_only _).sub rfl) (fun _ => (Only.bind (Only.get _) (fun _ => (Only.ite (Only.pure _ _) (by split; exact (Only.skip _); exact (by split; exact (Only.skip _); exact (Only.bind ((ringRead_only _ _ _).sub rfl) (fun _ => (by split; exact ((ringSet_only _ _ _ _).sub rfl); exact (by extract_lets -underBinder -merge -useContext +onlyGivenNames j; (try clear_value j); exact (Only.ite (Only.pure _ _) (Only.bind ((ringSet_only _ _ _ _).sub rfl) (fun _ => (Only.ite ((entryError_only _ _ _ _).sub rfl) (Only.ite (Only.bind ((vlog_only _ _ _).sub rfl) (fun _ => ((entryError_only _ _ _ _).sub rfl))) (Only.bind ((spRead_only _ _ _ _ _).sub rfl) (fun _ => (by split; exact ((entryError_only _ _ _ _).sub rfl); exact (Only.ite ((putStart_only _ _ _ _).sub rfl) (Only.bind ((spWrite_only _ _ _ _ _).sub rfl) (fun _ => (by split; exact ((entryError_only _ _ _ _).sub rfl); exact ((modFab_only _).sub rfl))))))))))))))))))))))))

theorem putTimeout_only (x0) : Only [.regs, .mem, .tab, .ports, .sites, .fab, .mig, .sent] (putTimeout x0) := by
  delta putTimeout
  exact (Only.bind (Only.get _) (fun _ => (by split; exact (Only.skip _); exact (Only.ite ((putAgain_only _).sub rfl) (Only.pure _ _)))))

theorem boardFault_only (x0 x1 x2 x3 x4 x5) : Only [.regs, .mem, .sent] (boardFault x0 x1 x2 x3 x4 x5) := by
  delta boardFault
  exact (Only.bind ((recordAs_only _ _ _ _ _ _).sub rfl) (fun _ => (Only.bind ((count_only _ _).sub rfl) (fun _ => ((send_only _).sub rfl)))))

theorem boardAnswer_only (x0) : Only [.regs, .mem, .ports, .fab, .sent] (boardAnswer x0) := by
  delta boardAnswer
  exact (onPacket_only _ _ (fun _ => (Only.bind (Only.get _) (fun _ => (by split; exact (Only.skip _); exact (Only.bind ((modFab_only _).sub rfl) (fun _ => (by extract_lets -underBinder -merge -useContext +onlyGivenNames j; (try clear_value j); exact (Only.ite ((boardFault_only _ _ _ _ _ _).sub rfl) (Only.ite ((send_only _).sub rfl) (Only.pure _ _)))))))))) rfl)

theorem boardDo_only (x0 x1 x2 x3 x4 x5) : Only [.regs, .mem, .tab, .sites, .mig] (boardDo x0 x1 x2 x3 x4 x5) := by
  delta boardDo
  exact (by split; exact (Only.pure _ _); exact (Only.ite (Only.bind ((spWrite_only _ _ _ _ _).sub rfl) (fun _ => (by split; exact (Only.pure _ _); exact (Only.pure _ _)))) ((spRead_only _ _ _ _ _).sub rfl)))

theorem boardReply_only (x0 x1 x2 x3) : Only [.regs, .ports, .sent] (boardReply x0 x1 x2 x3) := by
  delta boardReply
  exact (Only.bind (Only.get _) (fun _ => (by split; exact (Only.skip _); exact (by extract_lets -underBinder -merge -useContext +onlyGivenNames j; (try clear_value j); exact ((sendFor_only _ _ _ _).sub rfl)))))

theorem boardServe_only (x0 x1 x2) : Only [.regs, .mem, .tab, .ports, .sites, .mig, .sent] (boardServe x0 x1 x2) := by
  delta boardServe
  exact (Only.bind (Only.get _) (fun _ => (Only.ite (Only.pure _ _) (Only.ite ((sendOn_only _).sub rfl) (Only.ite (Only.bind ((takePacket_only _).sub rfl) (fun _ => ((dropPacket_only _ _).sub rfl))) (Only.ite (Only.bind ((takePacket_only _).sub rfl) (fun _ => ((dropPacket_only _ _).sub rfl))) (Only.ite (Only.bind ((takePacket_only _).sub rfl) (fun _ => (by extract_lets -underBinder -merge -useContext +onlyGivenNames j; (try clear_value j); exact (by extract_lets -underBinder -merge -useContext +onlyGivenNames j; (try clear_value j); exact (by extract_lets -underBinder -merge -useContext +onlyGivenNames j; (try clear_value j); exact (by split; exact (by extract_lets -underBinder -merge -useContext +onlyGivenNames j; have h0 := show ∀ y, Only [.regs, .mem, .tab, .ports, .sites, .mig, .sent] (j y) from (fun _ => ((boardReply_only _ _ _ _).sub rfl)); clear_value j; exact (Only.ite (Only.bind ((vlog_only _ _ _).sub rfl) (fun _ => (h0 _))) (h0 _))); exact (Only.bind ((boardDo_only _ _ _ _ _ _).sub rfl) (fun _ => (by split; exact ((boardReply_only _ _ _ _).sub rfl); exact ((boardReply_only _ _ _ _).sub rfl)))))))))) (Only.pure _ _))))))))

theorem boardAccess_only (x0 x1 x2 x3 x4 x5) : Only [.regs, .mem, .tab, .ports, .sites, .fab, .mig, .sent] (boardAccess x0 x1 x2 x3 x4 x5) := by
  delta boardAccess
  exact (Only.bind (Only.get _) (fun _ => (by extract_lets -underBinder -merge -useContext +onlyGivenNames j; (try clear_value j); exact (by split; exact (Only.bind ((vlog_only _ _ _).sub rfl) (fun _ => ((send_only _).sub rfl))); exact (Only.ite (Only.bind ((vlog_only _ _ _).sub rfl) (fun _ => (Only.bind ((count_only _ _).sub rfl) (fun _ => ((send_only _).sub rfl))))) (by extract_lets -underBinder -merge -useContext +onlyGivenNames j; (try clear_value j); exact (by extract_lets -underBinder -merge -useContext +onlyGivenNames j; (try clear_value j); exact (by extract_lets -underBinder -merge -useContext +onlyGivenNames j; (try clear_value j); exact (by extract_lets -underBinder -merge -useContext +onlyGivenNames j; (try clear_value j); exact (Only.ite ((boardFault_only _ _ _ _ _ _).sub rfl) (Only.ite (by split; exact ((boardFault_only _ _ _ _ _ _).sub rfl); exact (Only.bind ((boardDo_only _ _ _ _ _ _).sub rfl) (fun _ => (by split; exact ((boardFault_only _ _ _ _ _ _).sub rfl); exact (Only.ite ((send_only _).sub rfl) (Only.pure _ _)))))) (Only.ite ((boardFault_only _ _ _ _ _ _).sub rfl) (by extract_lets -underBinder -merge -useContext +onlyGivenNames j; (try clear_value j); exact (Only.bind ((modFab_only _).sub rfl) (fun _ => ((sendBoard_only _ _ _ _ _ _ _ _).sub rfl))))))))))))))))

theorem modSite_only (x0 x1) : Only [.sites] (modSite x0 x1) := by
  delta modSite
  exact (Only.bind (Only.rd _ _) (fun _ => (Only.upd _ rfl)))

theorem modMig_only (x0) : Only [.mig] (modMig x0) := by
  delta modMig
  exact (Only.bind (Only.rd _ _) (fun _ => (Only.upd _ rfl)))

theorem copyUnits_only (x0 x1 x2) : Only [.regs, .mem] (copyUnits x0 x1 x2) := by
  delta copyUnits
  exact (Only.bind (Only.get _) (fun _ => (Only.bind (Only.forIn _ _ (fun _ _ => (Only.bind (Only.upd _ rfl) (fun _ => (Only.pure _ _))))) (fun _ => (Only.bind (Only.forIn _ _ (fun _ _ => (by extract_lets -underBinder -merge -useContext +onlyGivenNames j; have h0 := show ∀ y, Only [.regs, .mem] (j y) from (fun _ => (Only.bind (Only.forIn _ _ (fun _ _ => (Only.ite (Only.bind (Only.upd _ rfl) (fun _ => (Only.pure _ _))) (Only.pure _ _)))) (fun _ => (Only.pure _ _)))); clear_value j; exact (Only.ite (Only.bind (Only.upd _ rfl) (fun _ => (h0 _))) (h0 _))))) (fun _ => (Only.bind ((wrF_only _ _ _).sub rfl) (fun _ => ((count_only _ _).sub rfl)))))))))

theorem coverSettle_only : Only [.regs] coverSettle := by
  delta coverSettle
  exact (Only.bind (Only.get _) (fun _ => (Only.ite ((wrF_only _ _ _).sub rfl) (Only.pure _ _))))

theorem migProgress_only : Only [.regs, .mem, .free] migProgress := by
  delta migProgress
  exact (Only.bind (Only.get _) (fun _ => (by split; exact (Only.skip _); exact (by extract_lets -underBinder -merge -useContext +onlyGivenNames j; (try clear_value j); exact (by extract_lets -underBinder -merge -useContext +onlyGivenNames j; (try clear_value j); exact (Only.ite (Only.bind ((freshBelow_only _).sub rfl) (fun _ => (Only.ite ((copyUnits_only _ _ _).sub rfl) (Only.pure _ _)))) (Only.pure _ _)))))))

theorem retrainDue_only (x0 x1) : Only [.regs] (retrainDue x0 x1) := by
  delta retrainDue
  exact (Only.bind ((wrF_only _ _ _).sub rfl) (fun _ => (Only.bind (Only.get _) (fun _ => (by extract_lets -underBinder -merge -useContext +onlyGivenNames j; (try clear_value j); exact (by extract_lets -underBinder -merge -useContext +onlyGivenNames j; (try clear_value j); exact (Only.ite (Only.bind ((setIrq_only _ _).sub rfl) (fun _ => ((count_only _ _).sub rfl))) (Only.pure _ _))))))))

theorem coverCopied_only : Only [.regs] coverCopied := by
  delta coverCopied
  exact (Only.bind ((rdF_only _ _).sub rfl) (fun _ => (Only.bind ((wrF_only _ _ _).sub rfl) (fun _ => (Only.bind ((count_only _ _).sub rfl) (fun _ => ((coverSettle_only).sub rfl)))))))

theorem holdReq_only (x0 x1) : Only [.regs, .sites] (holdReq x0 x1) := by
  delta holdReq
  exact (Only.bind (Only.rd _ _) (fun _ => (Only.bind (Only.upd _ rfl) (fun _ => ((wrF_only _ _ _).sub rfl)))))

theorem holdWaits_only (x0) : Only [.regs] (holdWaits x0) := by
  delta holdWaits
  exact (Only.bind (Only.forIn _ _ (fun _ _ => (Only.bind (Only.rd _ _) (fun _ => (by extract_lets -underBinder -merge -useContext +onlyGivenNames j; have h0 := show ∀ y, Only [.regs] (j y) from (fun _ => (Only.ite (Only.bind ((count_only _ _).sub rfl) (fun _ => (Only.pure _ _))) (Only.pure _ _))); clear_value j; exact (Only.ite (Only.bind ((count_only _ _).sub rfl) (fun _ => (h0 _))) (h0 _))))))) (fun _ => (Only.pure _ _)))

theorem migCopyDone_only : Only [.regs, .mem, .mig] migCopyDone := by
  delta migCopyDone
  exact (Only.bind (Only.get _) (fun _ => (by split; exact (Only.skip _); exact (Only.ite (Only.bind ((copyUnits_only _ _ _).sub rfl) (fun _ => (Only.bind ((wrF_only _ _ _).sub rfl) (fun _ => ((modMig_only _).sub rfl))))) (Only.pure _ _)))))

theorem setSiteState_only (x0 x1) : Only [.regs] (setSiteState x0 x1) := by
  delta setSiteState
  exact ((wrF_only _ _ _).sub rfl)

theorem coverSwitched_only : Only [.regs, .sites, .mig] coverSwitched := by
  delta coverSwitched
  exact (Only.bind (Only.get _) (fun _ => (by extract_lets -underBinder -merge -useContext +onlyGivenNames j; (try clear_value j); exact (by extract_lets -underBinder -merge -useContext +onlyGivenNames j; (try clear_value j); exact (Only.ite (Only.bind ((setSiteState_only _ _).sub rfl) (fun _ => (Only.ite ((wrF_only _ _ _).sub rfl) (Only.pure _ _)))) (Only.ite (by extract_lets -underBinder -merge -useContext +onlyGivenNames j; have h0 := show ∀ y, Only [.regs, .sites, .mig] (j y) from (fun _ => (Only.bind ((wrF_only _ _ _).sub rfl) (fun _ => (Only.bind ((wrF_only _ _ _).sub rfl) (fun _ => (Only.bind ((modMig_only _).sub rfl) (fun _ => (Only.bind (Only.forIn _ _ (fun _ _ => (Only.ite (Only.bind ((modSite_only _ _).sub rfl) (fun _ => (Only.pure _ _))) (Only.pure _ _)))) (fun _ => (Only.pure _ _)))))))))); clear_value j; exact (Only.ite (Only.bind ((setSiteState_only _ _).sub rfl) (fun _ => (h0 _))) (h0 _))) (Only.pure _ _)))))))

theorem coverCatchup_only (x0) : Only [.regs, .mem, .sites, .mig] (coverCatchup x0) := by
  delta coverCatchup
  exact (Only.bind (Only.get _) (fun _ => (by extract_lets -underBinder -merge -useContext +onlyGivenNames j; (try clear_value j); exact (by split; exact (Only.ite (Only.bind ((siteWrite_only _ _ _).sub rfl) (fun _ => (Only.bind ((modSite_only _ _).sub rfl) (fun _ => ((coverCopied_only).sub rfl))))) (Only.pure _ _)); exact (by split; exact (Only.ite (Only.bind ((siteWrite_only _ _ _).sub rfl) (fun _ => (Only.bind ((modMig_only _).sub rfl) (fun _ => ((coverCopied_only).sub rfl))))) (Only.pure _ _)); exact (Only.skip _))))))

theorem migCutover_only : Only [.regs, .mig] migCutover := by
  delta migCutover
  exact (Only.bind (Only.get _) (fun _ => (by split; exact (Only.skip _); exact (Only.ite (Only.bind ((modMig_only _).sub rfl) (fun _ => (Only.bind ((wrF_only _ _ _).sub rfl) (fun _ => (Only.bind ((wrF_only _ _ _).sub rfl) (fun _ => (by extract_lets -underBinder -merge -useContext +onlyGivenNames j; have h0 := show ∀ y, Only [.regs, .mig] (j y) from (fun _ => (Only.bind ((setSiteState_only _ _).sub rfl) (fun _ => (Only.bind ((wrF_only _ _ _).sub rfl) (fun _ => ((setIrq_only _ _).sub rfl)))))); clear_value j; exact (Only.ite (Only.bind ((wrF_only _ _ _).sub rfl) (fun _ => (Only.bind ((setSiteState_only _ _).sub rfl) (fun _ => (h0 _))))) (h0 _))))))))) (Only.pure _ _)))))

theorem migEnd_only (x0 x1) : Only [.regs, .mig] (migEnd x0 x1) := by
  delta migEnd
  exact (Only.bind ((modMig_only _).sub rfl) (fun _ => (Only.bind ((wrF_only _ _ _).sub rfl) (fun _ => ((setSiteState_only _ _).sub rfl)))))

theorem siteFail_only (x0) : Only [.regs, .mig] (siteFail x0) := by
  delta siteFail
  exact (Only.bind (Only.get _) (fun _ => (Only.bind ((setSiteState_only _ _).sub rfl) (fun _ => (Only.bind ((wrF_only _ _ _).sub rfl) (fun _ => (by extract_lets -underBinder -merge -useContext +onlyGivenNames j; have h0 := show ∀ y, Only [.regs, .mig] (j y) from (fun _ => (Only.ite ((wrF_only _ _ _).sub rfl) (Only.pure _ _))); clear_value j; exact (by split; exact (Only.ite (Only.ite (Only.bind ((migEnd_only _ _).sub rfl) (fun _ => (h0 _))) (Only.ite (Only.bind ((migEnd_only _ _).sub rfl) (fun _ => (Only.bind ((setSiteState_only _ _).sub rfl) (fun _ => (h0 _))))) (h0 _))) (h0 _)); exact (Only.bind (Only.skip _) (fun _ => (h0 _)))))))))))

theorem migStart_only (x0) : Only [.regs, .mig] (migStart x0) := by
  delta migStart
  exact (Only.bind (Only.rd _ _) (fun _ => (Only.bind ((modMig_only _).sub rfl) (fun _ => (Only.bind ((wrF_only _ _ _).sub rfl) (fun _ => (Only.bind ((wrF_only _ _ _).sub rfl) (fun _ => (Only.bind ((wrF_only _ _ _).sub rfl) (fun _ => (Only.bind ((setSiteState_only _ _).sub rfl) (fun _ => ((setSiteState_only _ _).sub rfl)))))))))))))

theorem migAbort_only (x0) : Only [.regs, .mig] (migAbort x0) := by
  delta migAbort
  exact (Only.bind (Only.get _) (fun _ => (Only.ite (Only.bind ((migEnd_only _ _).sub rfl) (fun _ => ((setSiteState_only _ _).sub rfl))) (Only.pure _ _))))

theorem scrubStripe_only (x0 x1 x2) : Only [.regs, .free] (scrubStripe x0 x1 x2) := by
  delta scrubStripe
  exact (Only.bind (Only.get _) (fun _ => (Only.ite (Only.pure _ _) (Only.ite (Only.pure _ _) (Only.ite (Only.pure _ _) (by extract_lets -underBinder -merge -useContext +onlyGivenNames j; (try clear_value j); exact (Only.ite (Only.bind ((freshBelow_only _).sub rfl) (fun _ => (Only.bind ((freshBelow_only _).sub rfl) (fun _ => (Only.bind ((eccLast_only _ _ _ _).sub rfl) (fun _ => (Only.bind ((setPageFault_only _).sub rfl) (fun _ => ((count_only _ _).sub rfl))))))))) (Only.pure _ _))))))))

theorem chanFail_only (x0 x1) : Only [.regs, .mig] (chanFail x0 x1) := by
  delta chanFail
  exact (Only.bind (Only.get _) (fun _ => (Only.ite (Only.pure _ _) (by extract_lets -underBinder -merge -useContext +onlyGivenNames j; (try clear_value j); exact (Only.bind ((wrF_only _ _ _).sub rfl) (fun _ => (Only.bind ((setIrq_only _ _).sub rfl) (fun _ => (Only.ite ((siteFail_only _).sub rfl) (Only.pure _ _))))))))))

theorem noteRebuild_only (x0 x1) : Only [.regs, .sites, .mig] (noteRebuild x0 x1) := by
  delta noteRebuild
  exact (Only.bind (Only.rd _ _) (fun _ => (by extract_lets -underBinder -merge -useContext +onlyGivenNames j; (try clear_value j); exact (Only.bind (Only.upd _ rfl) (fun _ => (Only.bind ((rdF_only _ _).sub rfl) (fun _ => (Only.ite ((chanFail_only _ _).sub rfl) (Only.pure _ _)))))))))

theorem gddrWriteNow_only (x0 x1 x2 x3) : Only [.regs, .mem, .sites, .mig, .sent] (gddrWriteNow x0 x1 x2 x3) := by
  delta gddrWriteNow
  exact (Only.bind ((gWrite_only _ _ _ _).sub rfl) (fun _ => (by split; exact (Only.skip _); exact ((send_only _).sub rfl))))

theorem trainResult_only (x0 x1 x2 x3) : Only [.regs, .mig, .free] (trainResult x0 x1 x2 x3) := by
  delta trainResult
  exact (by extract_lets -underBinder -merge -useContext +onlyGivenNames j; (try clear_value j); exact (Only.bind ((wrF_only _ _ _).sub rfl) (fun _ => (Only.bind ((wrF_only _ _ _).sub rfl) (fun _ => (by extract_lets -underBinder -merge -useContext +onlyGivenNames j; have h0 := show ∀ y, Only [.regs, .mig, .free] (j y) from (fun _ => (Only.ite (Only.bind ((count_only _ _).sub rfl) (fun _ => (Only.bind ((rdF_only _ _).sub rfl) (fun _ => (Only.bind ((wrF_only _ _ _).sub rfl) (fun _ => (Only.ite ((chanFail_only _ _).sub rfl) (Only.pure _ _)))))))) (Only.pure _ _))); clear_value j; exact (Only.ite (Only.bind ((count_only _ _).sub rfl) (fun _ => (Only.bind ((rdF_only _ _).sub rfl) (fun _ => (Only.bind ((wrF_only _ _ _).sub rfl) (fun _ => (Only.bind ((wrF_only _ _ _).sub rfl) (fun _ => (Only.bind ((wrF_only _ _ _).sub rfl) (fun _ => (Only.bind (Only.forIn _ _ (fun _ _ => (Only.bind ((freshBelow_only _).sub rfl) (fun _ => (Only.bind ((wrF_only _ _ _).sub rfl) (fun _ => (Only.bind ((freshBelow_only _).sub rfl) (fun _ => (Only.bind ((wrF_only _ _ _).sub rfl) (fun _ => (Only.pure _ _))))))))))) (fun _ => (h0 _))))))))))))) (h0 _))))))))

theorem gddrWrite_only (x0 x1 x2 x3) : Only [.regs, .mem, .sites, .mig, .sent] (gddrWrite x0 x1 x2 x3) := by
  delta gddrWrite
  exact (Only.bind (Only.get _) (fun _ => (by split; exact ((holdReq_only _ _).sub rfl); exact ((gddrWriteNow_only _ _ _ _).sub rfl))))

theorem sectorRead_only (x0 x1 x2) : Only [.regs, .sites, .mig] (sectorRead x0 x1 x2) := by
  delta sectorRead
  exact (Only.bind (Only.get _) (fun _ => (by extract_lets -underBinder -merge -useContext +onlyGivenNames j; (try clear_value j); exact (by extract_lets -underBinder -merge -useContext +onlyGivenNames j; (try clear_value j); exact (by extract_lets -underBinder -merge -useContext +onlyGivenNames j; (try clear_value j); exact (by extract_lets -underBinder -merge -useContext +onlyGivenNames j; have h0 := show ∀ y, Only [.regs, .sites, .mig] (j y) from (fun _ => (Only.ite (by extract_lets -underBinder -merge -useContext +onlyGivenNames j; have h0 := show ∀ y, Only [.regs, .sites, .mig] (j y) from (fun _ => (Only.pure _ _)); clear_value j; exact (Only.ite (Only.bind ((count_only _ _).sub rfl) (fun _ => (h0 _))) (h0 _))) (by extract_lets -underBinder -merge -useContext +onlyGivenNames j; (try clear_value j); exact (Only.ite (Only.bind ((count_only _ _).sub rfl) (fun _ => (Only.bind ((eccLast_only _ _ _ _).sub rfl) (fun _ => (Only.bind ((setIrq_only _ _).sub rfl) (fun _ => (Only.pure _ _))))))) (Only.bind ((count_only _ _).sub rfl) (fun _ => (Only.bind ((eccLast_only _ _ _ _).sub rfl) (fun _ => (by extract_lets -underBinder -merge -useContext +onlyGivenNames j; have h0 := show ∀ y, Only [.regs, .sites, .mig] (j y) from (fun _ => (Only.pure _ _)); clear_value j; exact (Only.ite (Only.bind ((noteRebuild_only _ _).sub rfl) (fun _ => (h0 _))) (h0 _))))))))))); clear_value j; exact (Only.ite (Only.bind ((count_only _ _).sub rfl) (fun _ => (h0 _))) (h0 _))))))))

theorem serveHeld_only (x0) : Only [.regs, .mem, .sites, .mig, .sent] (serveHeld x0) := by
  delta serveHeld
  exact (Only.bind (Only.rd _ _) (fun _ => (Only.bind (Only.upd _ rfl) (fun _ => (Only.bind ((wrF_only _ _ _).sub rfl) (fun _ => (Only.bind (Only.forIn _ _ (fun _ _ => (Only.ite (Only.bind ((gddrWriteNow_only _ _ _ _).sub rfl) (fun _ => (Only.pure _ _))) (Only.bind ((gRead_only _ _ _ _).sub rfl) (fun _ => (by split; exact (Only.bind ((send_only _).sub rfl) (fun _ => (Only.pure _ _))); exact (Only.bind ((send_only _).sub rfl) (fun _ => (Only.pure _ _))))))))) (fun _ => (Only.pure _ _)))))))))

theorem gddrRead_only (x0 x1 x2 x3) : Only [.regs, .mem, .sites, .mig, .sent] (gddrRead x0 x1 x2 x3) := by
  delta gddrRead
  exact (Only.bind (Only.get _) (fun _ => (by extract_lets -underBinder -merge -useContext +onlyGivenNames j; (try clear_value j); exact (by split; exact (Only.bind ((refuseMem_only _ _ _ _ _).sub rfl) (fun _ => ((send_only _).sub rfl))); exact (Only.ite ((holdReq_only _ _).sub rfl) (by split; exact (Only.ite ((send_only _).sub rfl) (Only.bind ((sectorRead_only _ _ _).sub rfl) (fun _ => (Only.ite (Only.bind ((gReadWith_only _ _ _ _ _).sub rfl) (fun _ => (by split; exact ((send_only _).sub rfl); exact ((send_only _).sub rfl)))) ((send_only _).sub rfl)))))))))))

theorem siteTrained_only (x0) : Only [.regs, .mig, .free] (siteTrained x0) := by
  delta siteTrained
  exact (Only.bind ((freshBelow_only _).sub rfl) (fun _ => (Only.bind ((trainResult_only _ _ _ _).sub rfl) (fun _ => ((setSiteState_only _ _).sub rfl)))))

theorem wbEntryWrite_only (x0 x1 x2) : Only [.tab] (wbEntryWrite x0 x1 x2) := by
  delta wbEntryWrite
  exact (Only.bind ((ldW_only _).sub rfl) (fun _ => ((stW_only _ _).sub rfl)))

theorem setCopyBit_only (x0 x1 x2 x3) : Only [.tab] (setCopyBit x0 x1 x2 x3) := by
  delta setCopyBit
  exact (Only.bind ((ldW_only _).sub rfl) (fun _ => ((stW_only _ _).sub rfl)))

theorem homeRead_only (x0 x1) : Only [.regs, .mem] (homeRead x0 x1) := by
  delta homeRead
  exact (Only.bind (Only.get _) (fun _ => (by extract_lets -underBinder -merge -useContext +onlyGivenNames j; (try clear_value j); exact (by extract_lets -underBinder -merge -useContext +onlyGivenNames j; (try clear_value j); exact (Only.ite (Only.bind ((gRead_only _ _ _ _).sub rfl) (fun _ => (by split; exact (Only.pure _ _); exact (by extract_lets -underBinder -merge -useContext +onlyGivenNames j; (try clear_value j); exact (by extract_lets -underBinder -merge -useContext +onlyGivenNames j; (try clear_value j); exact (Only.bind (Only.forIn _ _ (fun _ _ => (by extract_lets -underBinder -merge -useContext +onlyGivenNames j; (try clear_value j); exact (by extract_lets -underBinder -merge -useContext +onlyGivenNames j; (try clear_value j); exact (by extract_lets -underBinder -merge -useContext +onlyGivenNames j; (try clear_value j); exact (Only.ite (by extract_lets -underBinder -merge -useContext +onlyGivenNames j; (try clear_value j); exact (Only.pure _ _)) (Only.ite (by extract_lets -underBinder -merge -useContext +onlyGivenNames j; (try clear_value j); exact (Only.pure _ _)) (by extract_lets -underBinder -merge -useContext +onlyGivenNames j; (try clear_value j); exact (Only.bind ((gRead_only _ _ _ _).sub rfl) (fun _ => (by split; exact (by extract_lets -underBinder -merge -useContext +onlyGivenNames j; (try clear_value j); exact (Only.pure _ _)); exact (by extract_lets -underBinder -merge -useContext +onlyGivenNames j; (try clear_value j); exact (Only.pure _ _))))))))))))) (fun _ => (by extract_lets -underBinder -merge -useContext +onlyGivenNames j; (try clear_value j); exact (by extract_lets -underBinder -merge -useContext +onlyGivenNames j; (try clear_value j); exact (Only.bind ((count_only _ _).sub rfl) (fun _ => (Only.pure _ _)))))))))))) (Only.bind ((gRead_only _ _ _ _).sub rfl) (fun _ => (by split; exact (Only.pure _ _); exact (Only.bind ((count_only _ _).sub rfl) (fun _ => (Only.pure _ _)))))))))))

theorem wbLoad_only (x0 x1) : Only [.regs, .mem, .tab] (wbLoad x0 x1) := by
  delta wbLoad
  exact (Only.bind ((homeRead_only _ _).sub rfl) (fun _ => (by split; exact (Only.skip _); exact (Only.bind ((stBytes_only _ _).sub rfl) (fun _ => (Only.bind ((ldW_only _).sub rfl) (fun _ => ((stW_only _ _).sub rfl))))))))

theorem homeStore_only (x0 x1 x2 x3) : Only [.regs, .mem, .sites, .mig] (homeStore x0 x1 x2 x3) := by
  delta homeStore
  exact (Only.bind (Only.get _) (fun _ => (Only.bind ((gWrite_only _ _ _ _).sub rfl) (fun _ => ((count_only _ _).sub rfl)))))

theorem wbFlush_only (x0 x1) : Only [.regs, .mem, .tab, .sites, .mig] (wbFlush x0 x1) := by
  delta wbFlush
  exact (Only.bind (Only.get _) (fun _ => (by extract_lets -underBinder -merge -useContext +onlyGivenNames j; (try clear_value j); exact (by extract_lets -underBinder -merge -useContext +onlyGivenNames j; (try clear_value j); exact (by extract_lets -underBinder -merge -useContext +onlyGivenNames j; (try clear_value j); exact (by extract_lets -underBinder -merge -useContext +onlyGivenNames j; (try clear_value j); exact (by extract_lets -underBinder -merge -useContext +onlyGivenNames j; have h0 := show ∀ y, Only [.regs, .mem, .tab, .sites, .mig] (j y) from (fun _ => ((count_only _ _).sub rfl)); clear_value j; exact (Only.ite (by extract_lets -underBinder -merge -useContext +onlyGivenNames j; (try clear_value j); exact (Only.ite (Only.bind (Only.forIn _ _ (fun _ _ => (Only.bind ((setCopyBit_only _ _ _ _).sub rfl) (fun _ => (by extract_lets -underBinder -merge -useContext +onlyGivenNames j; (try clear_value j); exact (Only.ite (Only.bind ((homeStore_only _ _ _ _).sub rfl) (fun _ => (Only.pure _ _))) (Only.pure _ _))))))) (fun _ => (Only.bind ((homeStore_only _ _ _ _).sub rfl) (fun _ => (h0 _))))) (Only.bind ((setCopyBit_only _ _ _ _).sub rfl) (fun _ => (Only.bind ((count_only _ _).sub rfl) (fun _ => (Only.bind ((count_only _ _).sub rfl) (fun _ => (Only.bind (Only.forIn _ _ (fun _ _ => (Only.bind ((setCopyBit_only _ _ _ _).sub rfl) (fun _ => (Only.bind ((homeStore_only _ _ _ _).sub rfl) (fun _ => (Only.pure _ _))))))) (fun _ => (h0 _))))))))))) (Only.bind (Only.forIn _ _ (fun _ _ => (Only.bind ((setCopyBit_only _ _ _ _).sub rfl) (fun _ => (Only.bind ((homeStore_only _ _ _ _).sub rfl) (fun _ => (Only.pure _ _))))))) (fun _ => (h0 _)))))))))))

theorem writeThrough_only (x0 x1) : Only [.regs, .mem, .tab, .sites, .mig] (writeThrough x0 x1) := by
  delta writeThrough
  exact (Only.bind (Only.rd _ _) (fun _ => (Only.ite ((wbFlush_only _ _).sub rfl) (Only.pure _ _))))

theorem wbAct_only (x0 x1 x2) : Only [.regs, .mem, .tab, .sites, .mig] (wbAct x0 x1 x2) := by
  delta wbAct
  exact (by split; exact ((wbLoad_only _ _).sub rfl); exact ((wbFlush_only _ _).sub rfl); exact (Only.bind ((wbFlush_only _ _).sub rfl) (fun _ => ((setCopyBit_only _ _ _ _).sub rfl))); exact (Only.bind ((ldW_only _).sub rfl) (fun _ => ((stW_only _ _).sub rfl))))

theorem wbDone_only (x0) : Only [.regs, .mem, .tab, .sites, .tiles, .mig] (wbDone x0) := by
  delta wbDone
  exact (Only.bind (Only.rd _ _) (fun _ => (by split; exact (Only.skip _); exact (Only.bind (Only.upd _ rfl) (fun _ => (Only.bind ((addF_only _ _ _).sub rfl) (fun _ => (Only.bind ((wrF_only _ _ _).sub rfl) (fun _ => (Only.bind ((rdF_only _ _).sub rfl) (fun _ => (Only.bind ((tileWrite_only _ _ _).sub rfl) (fun _ => (by split; exact (Only.skip _); exact ((wbAct_only _ _ _).sub rfl)))))))))))))))

theorem wbCommand_only (x0 x1 x2 x3) : Only [.regs, .mem, .tab, .sites, .tiles, .mig] (wbCommand x0 x1 x2 x3) := by
  delta wbCommand
  exact (Only.bind (Only.get _) (fun _ => (by extract_lets -underBinder -merge -useContext +onlyGivenNames j; (try clear_value j); exact (Only.ite (Only.bind ((count_only _ _).sub rfl) (fun _ => (Only.pure _ _))) (Only.ite (Only.pure _ _) (Only.bind (Only.upd _ rfl) (fun _ => (Only.bind ((wrF_only _ _ _).sub rfl) (fun _ => (by extract_lets -underBinder -merge -useContext +onlyGivenNames j; have h0 := show ∀ y, Only [.regs, .mem, .tab, .sites, .tiles, .mig] (j y) from (fun _ => (Only.pure _ _)); clear_value j; exact (Only.ite (Only.bind ((wbAct_only _ _ _).sub rfl) (fun _ => (h0 _))) (h0 _))))))))))))

theorem modFlash_only (x0) : Only [.flash] (modFlash x0) := by
  delta modFlash
  exact (Only.bind (Only.rd _ _) (fun _ => (Only.upd _ rfl)))

theorem refreshDue_only (x0) : Only [.flash] (refreshDue x0) := by
  delta refreshDue
  exact ((modFlash_only _).sub rfl)

theorem putCmd_only (x0) : Only [.flash] (putCmd x0) := by
  delta putCmd
  exact ((modFlash_only _).sub rfl)

theorem wpNextPage_only (x0 x1 x2 x3) : Only [.tab] (wpNextPage x0 x1 x2 x3) := by
  delta wpNextPage
  exact (by extract_lets -underBinder -merge -useContext +onlyGivenNames j; (try clear_value j); exact (by extract_lets -underBinder -merge -useContext +onlyGivenNames j; (try clear_value j); exact (Only.ite (Only.pure _ _) (Only.ite (Only.pure _ _) (Only.bind (Only.forIn _ _ (fun _ _ => (Only.bind ((stW_only _ _).sub rfl) (fun _ => (Only.pure _ _))))) (fun _ => (Only.pure _ _)))))))

theorem setBlk_only (x0 x1 x2) : Only [.tab] (setBlk x0 x1 x2) := by
  delta setBlk
  exact ((stW_only _ _).sub rfl)

theorem modFlChan_only (x0 x1) : Only [.flash] (modFlChan x0 x1) := by
  delta modFlChan
  exact ((modFlash_only _).sub rfl)

theorem trackRefs_only (x0) : Only [.tab, .flash, .free] (trackRefs x0) := by
  delta trackRefs
  exact (Only.bind (Only.get _) (fun _ => (by extract_lets -underBinder -merge -useContext +onlyGivenNames j; (try clear_value j); exact (by extract_lets -underBinder -merge -useContext +onlyGivenNames j; (try clear_value j); exact (Only.bind (Only.forIn _ _ (fun _ _ => (Only.bind ((freshBelow_only _).sub rfl) (fun _ => (Only.bind ((stW_only _ _).sub rfl) (fun _ => (Only.pure _ _))))))) (fun _ => ((modFlChan_only _ _).sub rfl)))))))

theorem programCw_only (x0 x1 x2 x3 x4 x5) : Only [.regs, .mem, .tab, .flash] (programCw x0 x1 x2 x3 x4 x5) := by
  delta programCw
  exact (Only.bind ((ldW_only _).sub rfl) (fun _ => (Only.bind ((stBytes_only _ _).sub rfl) (fun _ => (Only.bind ((stW_only _ _).sub rfl) (fun _ => (Only.bind ((count_only _ _).sub rfl) (fun _ => (Only.bind (Only.rd _ _) (fun _ => (by extract_lets -underBinder -merge -useContext +onlyGivenNames j; (try clear_value j); exact ((modFlash_only _).sub rfl))))))))))))

theorem flSweep_only : Only [.flash] flSweep := by
  delta flSweep
  exact ((modFlash_only _).sub rfl)

theorem flEnd_only (x0 x1) : Only [.flash] (flEnd x0 x1) := by
  delta flEnd
  exact (Only.ite ((putCmd_only _).sub rfl) ((putCmd_only _).sub rfl))

theorem creditGrow_only (x0) : Only [.regs, .tab] (creditGrow x0) := by
  delta creditGrow
  exact (Only.bind (Only.get _) (fun _ => (by extract_lets -underBinder -merge -useContext +onlyGivenNames j; (try clear_value j); exact (Only.ite (Only.pure _ _) (by extract_lets -underBinder -merge -useContext +onlyGivenNames j; (try clear_value j); exact (by extract_lets -underBinder -merge -useContext +onlyGivenNames j; (try clear_value j); exact (by extract_lets -underBinder -merge -useContext +onlyGivenNames j; (try clear_value j); exact (Only.bind ((wrF_only _ _ _).sub rfl) (fun _ => (Only.bind ((stW_only _ _).sub rfl) (fun _ => ((stW_only _ _).sub rfl))))))))))))

theorem showWear_only (x0) : Only [.regs] (showWear x0) := by
  delta showWear
  exact (Only.bind (Only.get _) (fun _ => (by extract_lets -underBinder -merge -useContext +onlyGivenNames j; (try clear_value j); exact (Only.bind ((wrF_only _ _ _).sub rfl) (fun _ => ((wrF_only _ _ _).sub rfl))))))

theorem flBegin_only (x0) : Only [.regs, .flash] (flBegin x0) := by
  delta flBegin
  exact (Only.bind ((wrF_only _ _ _).sub rfl) (fun _ => ((modFlash_only _).sub rfl)))

theorem flqTailWrite_only (x0 x1) : Only [.regs] (flqTailWrite x0 x1) := by
  delta flqTailWrite
  exact (Only.bind (Only.get _) (fun _ => (Only.ite (Only.pure _ _) (Only.bind ((wrF_only _ _ _).sub rfl) (fun _ => (Only.pure _ _))))))

theorem flqAdvance_only : ∀ x0 x1, Only [.regs, .flash] (flqAdvance x0 x1)
  | _, (0) => by
    rw [flqAdvance]
    exact (Only.skip _)
  | _, (n + 1) => by
    rw [flqAdvance]
    exact (Only.bind (Only.get _) (fun _ => (by extract_lets -underBinder -merge -useContext +onlyGivenNames j; (try clear_value j); exact (Only.ite (Only.bind ((modFlash_only _).sub rfl) (fun _ => (Only.bind ((wrF_only _ _ _).sub rfl) (fun _ => ((flqAdvance_only _ _).sub rfl))))) (Only.pure _ _)))))

theorem setSparePool_only (x0) : Only [.regs] (setSparePool x0) := by
  delta setSparePool
  exact (Only.bind ((wrF_only _ _ _).sub rfl) (fun _ => (Only.bind (Only.get _) (fun _ => (by extract_lets -underBinder -merge -useContext +onlyGivenNames j; (try clear_value j); exact (by extract_lets -underBinder -merge -useContext +onlyGivenNames j; have h0 := show ∀ y, Only [.regs] (j y) from (fun _ => (Only.ite (Only.bind ((wrF_only _ _ _).sub rfl) (fun _ => ((setIrq_only _ _).sub rfl))) (Only.pure _ _))); clear_value j; exact (Only.ite (Only.bind ((setIrq_only _ _).sub rfl) (fun _ => (h0 _))) (h0 _))))))))

theorem scanned_only (x0 x1 x2) : Only [.regs, .flash, .free] (scanned x0 x1 x2) := by
  delta scanned
  exact (Only.bind (Only.get _) (fun _ => (by extract_lets -underBinder -merge -useContext +onlyGivenNames j; (try clear_value j); exact (by extract_lets -underBinder -merge -useContext +onlyGivenNames j; (try clear_value j); exact (by extract_lets -underBinder -merge -useContext +onlyGivenNames j; (try clear_value j); exact (Only.bind ((count_only _ _).sub rfl) (fun _ => (Only.bind ((count_only _ _).sub rfl) (fun _ => (Only.bind ((freshBelow_only _).sub rfl) (fun _ => (Only.bind ((count_only _ _).sub rfl) (fun _ => (Only.bind ((freshNat_only).sub rfl) (fun _ => (Only.bind ((count_only _ _).sub rfl) (fun _ => (Only.bind ((modFlChan_only _ _).sub rfl) (fun _ => (by extract_lets -underBinder -merge -useContext +onlyGivenNames j; have h0 := show ∀ y, Only [.regs, .flash, .free] (j y) from (fun _ => (Only.bind (Only.forIn _ _ (fun _ _ => (Only.ite (Only.bind ((refreshDue_only _).sub rfl) (fun _ => (Only.pure _ _))) (Only.pure _ _)))) (fun _ => (Only.pure _ _)))); clear_value j; exact (Only.ite (Only.bind ((rdF_only _ _).sub rfl) (fun _ => (Only.bind ((wrF_only _ _ _).sub rfl) (fun _ => (h0 _))))) (h0 _))))))))))))))))))))))

theorem flashOpens_only (x0) : Only [.regs, .flash] (flashOpens x0) := by
  delta flashOpens
  exact (Only.bind (Only.rd _ _) (fun _ => (Only.bind ((wrF_only _ _ _).sub rfl) (fun _ => ((modFlChan_only _ _).sub rfl)))))

theorem showBlocks_only (x0) : Only [.regs] (showBlocks x0) := by
  delta showBlocks
  exact (Only.bind (Only.get _) (fun _ => (by extract_lets -underBinder -merge -useContext +onlyGivenNames j; (try clear_value j); exact (Only.bind ((wrF_only _ _ _).sub rfl) (fun _ => (Only.bind ((wrF_only _ _ _).sub rfl) (fun _ => ((showWear_only _).sub rfl))))))))

theorem flashWaits_only (x0) : Only [.regs] (flashWaits x0) := by
  delta flashWaits
  exact (Only.bind (Only.forIn _ _ (fun _ _ => (Only.bind (Only.get _) (fun _ => (by extract_lets -underBinder -merge -useContext +onlyGivenNames j; (try clear_value j); exact (by extract_lets -underBinder -merge -useContext +onlyGivenNames j; (try clear_value j); exact (by extract_lets -underBinder -merge -useContext +onlyGivenNames j; have h0 := show ∀ y, Only [.regs] (j y) from (by intro _; unfold j; exact (by extract_lets -underBinder -merge -useContext +onlyGivenNames j; have h0 := show ∀ y, Only [.regs] (j y) from (fun _ => (Only.ite (Only.bind ((count_only _ _).sub rfl) (fun _ => (Only.pure _ _))) (Only.pure _ _))); clear_value j; exact (Only.ite (Only.bind ((count_only _ _).sub rfl) (fun _ => (h0 _))) (h0 _)))); clear_value j; exact (Only.ite (Only.bind ((count_only _ _).sub rfl) (fun _ => (h0 _))) (h0 _))))))))) (fun _ => (Only.pure _ _)))

theorem showSoft_only : Only [.regs] showSoft := by
  delta showSoft
  exact (Only.bind (Only.rd _ _) (fun _ => (Only.bind (Only.forIn _ _ (fun _ _ => (Only.bind ((wrF_only _ _ _).sub rfl) (fun _ => (Only.pure _ _))))) (fun _ => (Only.pure _ _)))))

theorem programBuf_only (x0) : Only [.regs, .mem, .tab, .flash] (programBuf x0) := by
  delta programBuf
  exact (Only.ite (Only.bind (Only.rd _ _) (fun _ => ((programCw_only _ _ _ _ _ _).sub rfl))) (Only.bind ((programCw_only _ _ _ _ _ _).sub rfl) (fun _ => ((modFlash_only _).sub rfl))))

theorem creditCharge_only (x0 x1) : Only [.regs] (creditCharge x0 x1) := by
  delta creditCharge
  exact (Only.bind ((rdF_only _ _).sub rfl) (fun _ => ((wrF_only _ _ _).sub rfl)))

theorem factoryBad_only (x0) : Only [.tab] (factoryBad x0) := by
  delta factoryBad
  exact (Only.bind (Only.forIn _ _ (fun _ _ => (Only.bind (Only.rd _ _) (fun _ => (Only.ite (Only.bind (Only.rd _ _) (fun _ => (Only.bind ((setBlk_only _ _ _).sub rfl) (fun _ => (Only.pure _ _))))) (Only.pure _ _)))))) (fun _ => (Only.pure _ _)))

theorem noteDecode_only (x0 x1) : Only [.flash] (noteDecode x0 x1) := by
  delta noteDecode
  exact ((modFlChan_only _ _).sub rfl)

theorem flTransfer_only (x0) : Only [.regs, .flash] (flTransfer x0) := by
  delta flTransfer
  exact (Only.bind (Only.get _) (fun _ => (by extract_lets -underBinder -merge -useContext +onlyGivenNames j; (try clear_value j); exact (Only.ite (Only.pure _ _) (by extract_lets -underBinder -merge -useContext +onlyGivenNames j; (try clear_value j); exact (by extract_lets -underBinder -merge -useContext +onlyGivenNames j; (try clear_value j); exact (by extract_lets -underBinder -merge -useContext +onlyGivenNames j; (try clear_value j); exact (Only.bind ((count_only _ _).sub rfl) (fun _ => ((modFlash_only _).sub rfl))))))))))

theorem wpClosePage_only (x0 x1 x2 x3) : Only [.tab] (wpClosePage x0 x1 x2 x3) := by
  delta wpClosePage
  exact (Only.bind (Only.get _) (fun _ => (by extract_lets -underBinder -merge -useContext +onlyGivenNames j; (try clear_value j); exact (by extract_lets -underBinder -merge -useContext +onlyGivenNames j; (try clear_value j); exact (by extract_lets -underBinder -merge -useContext +onlyGivenNames j; (try clear_value j); exact (Only.ite (Only.bind ((wpNextPage_only _ _ _ _).sub rfl) (fun _ => ((stW_only _ _).sub rfl))) (Only.pure _ _)))))))

theorem readUnit_only (x0) : Only [.regs, .flash] (readUnit x0) := by
  delta readUnit
  exact (Only.bind (Only.get _) (fun _ => (by split; exact ((flEnd_only _ _).sub rfl); exact (by split; exact ((flEnd_only _ _).sub rfl); exact (Only.ite ((flEnd_only _ _).sub rfl) (by split; exact ((flEnd_only _ _).sub rfl); exact (Only.ite ((flEnd_only _ _).sub rfl) (Only.bind ((putCmd_only _).sub rfl) (fun _ => ((flTransfer_only _).sub rfl))))))))))

theorem flashTick_only : Only [.regs, .flash, .free] flashTick := by
  delta flashTick
  exact (Only.bind (Only.forIn _ _ (fun _ _ => (Only.bind (Only.get _) (fun _ => (Only.ite (by extract_lets -underBinder -merge -useContext +onlyGivenNames j; (try clear_value j); exact (by extract_lets -underBinder -merge -useContext +onlyGivenNames j; (try clear_value j); exact (by extract_lets -underBinder -merge -useContext +onlyGivenNames j; (try clear_value j); exact (Only.bind ((modFlChan_only _ _).sub rfl) (fun _ => (Only.bind ((freshBelow_only _).sub rfl) (fun _ => (Only.ite (Only.bind ((wrF_only _ _ _).sub rfl) (fun _ => (Only.pure _ _))) (Only.pure _ _))))))))) (Only.pure _ _)))))) (fun _ => (Only.pure _ _)))

theorem flashWindow_only (x0 x1 x2 x3) : Only [.regs, .tab, .flash, .free] (flashWindow x0 x1 x2 x3) := by
  delta flashWindow
  exact (by extract_lets -underBinder -merge -useContext +onlyGivenNames j; have h0 := show ∀ y, Only [.regs, .tab, .flash, .free] (j y) from (fun _ => ((scanned_only _ _ _).sub rfl)); clear_value j; exact (Only.ite (Only.bind ((wrF_only _ _ _).sub rfl) (fun _ => (Only.bind ((trackRefs_only _).sub rfl) (fun _ => (h0 _))))) (h0 _)))

theorem showDec_only (x0 x1 x2 x3) : Only [.regs] (showDec x0 x1 x2 x3) := by
  delta showDec
  exact (Only.bind ((wrF_only _ _ _).sub rfl) (fun _ => (Only.bind ((wrF_only _ _ _).sub rfl) (fun _ => ((wrF_only _ _ _).sub rfl)))))

theorem readPlace_only (x0 x1 x2) : Only [.regs, .mem] (readPlace x0 x1 x2) := by
  delta readPlace
  exact (Only.ite (Only.pure _ _) (Only.bind ((spRead_only _ _ _ _ _).sub rfl) (fun _ => (by split; exact (Only.pure _ _); exact (Only.bind (Only.rd _ _) (fun _ => (Only.pure _ _)))))))

theorem flashStop_only (x0) : Only [.regs, .flash] (flashStop x0) := by
  delta flashStop
  exact (Only.bind (Only.rd _ _) (fun _ => (by extract_lets -underBinder -merge -useContext +onlyGivenNames j; (try clear_value j); exact (Only.bind ((modFlash_only _).sub rfl) (fun _ => (Only.bind ((flSweep_only).sub rfl) (fun _ => (Only.bind (Only.forIn _ _ (fun _ _ => (Only.ite (Only.bind ((showDec_only _ _ _ _).sub rfl) (fun _ => (Only.pure _ _))) (Only.pure _ _)))) (fun _ => (Only.bind ((showSoft_only).sub rfl) (fun _ => (Only.bind ((wrF_only _ _ _).sub rfl) (fun _ => ((wrR_only _ _).sub rfl))))))))))))))

theorem chargeMove_only (x0 x1) : Only [.regs, .tab] (chargeMove x0 x1) := by
  delta chargeMove
  exact (Only.bind (Only.rd _ _) (fun _ => (Only.bind ((count_only _ _).sub rfl) (fun _ => (Only.bind (Only.rd _ _) (fun _ => (by split; exact (Only.bind ((creditGrow_only _).sub rfl) (fun _ => ((creditCharge_only _ _).sub rfl))); exact (Only.skip _))))))))

theorem eraseBlk_only (x0) : Only [.regs, .mem, .tab, .flash] (eraseBlk x0) := by
  delta eraseBlk
  exact (Only.bind (Only.rd _ _) (fun _ => (Only.bind ((setBlk_only _ _ _).sub rfl) (fun _ => (Only.bind (Only.upd _ rfl) (fun _ => (Only.bind ((modFlash_only _).sub rfl) (fun _ => (Only.bind ((addF_only _ _ _).sub rfl) (fun _ => (Only.bind ((count_only _ _).sub rfl) (fun _ => ((showWear_only _).sub rfl)))))))))))))

theorem toSoftQueue_only : Only [.regs, .flash] toSoftQueue := by
  delta toSoftQueue
  exact (Only.bind (Only.rd _ _) (fun _ => (by extract_lets -underBinder -merge -useContext +onlyGivenNames j; (try clear_value j); exact (Only.bind (Only.upd _ rfl) (fun _ => (Only.bind ((showSoft_only).sub rfl) (fun _ => (Only.bind (Only.forIn _ _ (fun _ _ => (Only.bind ((flTransfer_only _).sub rfl) (fun _ => (Only.pure _ _))))) (fun _ => (Only.pure _ _))))))))))

theorem unitSource_only (x0 x1 x2) : Only [.regs, .mem] (unitSource x0 x1 x2) := by
  delta unitSource
  exact (Only.ite (Only.bind ((gRead_only _ _ _ _).sub rfl) (fun _ => (by split; exact (Only.pure _ _); exact (by extract_lets -underBinder -merge -useContext +onlyGivenNames j; (try clear_value j); exact (Only.bind (Only.forIn _ _ (fun _ _ => (by extract_lets -underBinder -merge -useContext +onlyGivenNames j; (try clear_value j); exact (by extract_lets -underBinder -merge -useContext +onlyGivenNames j; (try clear_value j); exact (by split; exact (Only.bind (Only.skip _) (fun _ => (Only.pure _ _))); exact (Only.ite (Only.bind ((gRead_only _ _ _ _).sub rfl) (fun _ => (by split; exact (by extract_lets -underBinder -merge -useContext +onlyGivenNames j; (try clear_value j); exact (Only.pure _ _)); exact (by extract_lets -underBinder -merge -useContext +onlyGivenNames j; (try clear_value j); exact (Only.pure _ _))))) (Only.pure _ _))))))) (fun _ => (by extract_lets -underBinder -merge -useContext +onlyGivenNames j; (try clear_value j); exact (Only.pure _ _)))))))) ((gRead_only _ _ _ _).sub rfl))

theorem mapStore_only (x0 x1) : Only [.regs, .mem, .sites, .mig] (mapStore x0 x1) := by
  delta mapStore
  exact (Only.bind (Only.rd _ _) (fun _ => (by split; exact (Only.bind ((gWritePiece_only _ _).sub rfl) (fun _ => (Only.pure _ _))); exact (Only.skip _))))

theorem checkNamespaces_only : Only [.regs, .tab] checkNamespaces := by
  delta checkNamespaces
  exact (Only.bind (Only.get _) (fun _ => (by extract_lets -underBinder -merge -useContext +onlyGivenNames j; (try clear_value j); exact (by extract_lets -underBinder -merge -useContext +onlyGivenNames j; (try clear_value j); exact (Only.bind (Only.forIn _ _ (fun _ _ => (Only.bind ((stW_only _ _).sub rfl) (fun _ => (Only.pure _ _))))) (fun _ => (Only.ite ((setPageFault_only _).sub rfl) (Only.pure _ _))))))))

theorem takeBlk_only (x0) : Only [.regs, .tab] (takeBlk x0) := by
  delta takeBlk
  exact (Only.bind (Only.rd _ _) (fun _ => (Only.bind ((setBlk_only _ _ _).sub rfl) (fun _ => ((addF_only _ _ _).sub rfl)))))

theorem reclaim_only : Only [.regs, .mem, .tab, .flash] reclaim := by
  delta reclaim
  exact (Only.bind (Only.rd _ _) (fun _ => (Only.bind (Only.forIn _ _ (fun _ _ => (Only.bind (Only.get _) (fun _ => (Only.ite (Only.bind ((modFlash_only _).sub rfl) (fun _ => (Only.pure _ _))) (Only.ite (Only.bind ((modFlash_only _).sub rfl) (fun _ => (Only.bind ((eraseBlk_only _).sub rfl) (fun _ => (Only.pure _ _))))) (Only.pure _ _))))))) (fun _ => (Only.pure _ _)))))

theorem wpTake_only (x0 x1 x2) : Only [.regs, .tab] (wpTake x0 x1 x2) := by
  delta wpTake
  exact (Only.bind (Only.get _) (fun _ => (by extract_lets -underBinder -merge -useContext +onlyGivenNames j; (try clear_value j); exact (by extract_lets -underBinder -merge -useContext +onlyGivenNames j; (try clear_value j); exact (by extract_lets -underBinder -merge -useContext +onlyGivenNames j; (try clear_value j); exact (by extract_lets -underBinder -merge -useContext +onlyGivenNames j; (try clear_value j); exact (by extract_lets -underBinder -merge -useContext +onlyGivenNames j; (try clear_value j); exact (by split; exact (Only.pure _ _); exact (by extract_lets -underBinder -merge -useContext +onlyGivenNames j; have h0 := show ∀ y, Only [.regs, .tab] (j y) from (by intro _; unfold j; exact (by extract_lets -underBinder -merge -useContext +onlyGivenNames j; (try clear_value j); exact (by extract_lets -underBinder -merge -useContext +onlyGivenNames j; have h0 := show ∀ y, Only [.regs, .tab] (j y) from (fun _ => (Only.pure _ _)); clear_value j; exact (Only.ite (Only.bind ((stW_only _ _).sub rfl) (fun _ => (h0 _))) (Only.bind ((wpNextPage_only _ _ _ _).sub rfl) (fun _ => (Only.bind ((stW_only _ _).sub rfl) (fun _ => (h0 _))))))))); clear_value j; exact (Only.ite (Only.bind ((takeBlk_only _).sub rfl) (fun _ => (Only.bind ((stW_only _ _).sub rfl) (fun _ => (h0 _))))) (h0 _)))))))))))

theorem mapUnit_only (x0 x1) : Only [.regs, .mem, .tab, .sites, .mig, .flash] (mapUnit x0 x1) := by
  delta mapUnit
  exact (Only.bind (Only.rd _ _) (fun _ => (by extract_lets -underBinder -merge -useContext +onlyGivenNames j; (try clear_value j); exact (Only.bind ((modFlash_only _).sub rfl) (fun _ => (Only.bind ((mapStore_only _ _).sub rfl) (fun _ => (Only.bind ((stW_only _ _).sub rfl) (fun _ => (Only.bind (Only.forIn _ _ (fun _ _ => (Only.bind ((stW_only _ _).sub rfl) (fun _ => (Only.pure _ _))))) (fun _ => (Only.pure _ _))))))))))))

theorem wpTakeFirst_only : ∀ x0, Only [.regs, .tab] (wpTakeFirst x0)
  | ([]) => by
    rw [wpTakeFirst]
    exact (Only.pure _ _)
  | (e :: es) => by
    rw [wpTakeFirst]
    exact (Only.bind ((wpTake_only _ _ _).sub rfl) (fun _ => (by split; exact (Only.pure _ _); exact ((wpTakeFirst_only _).sub rfl))))

theorem wearUnit_only (x0 x1 x2 x3) : Only [.regs, .tab, .flash] (wearUnit x0 x1 x2 x3) := by
  delta wearUnit
  exact (Only.bind (Only.get _) (fun _ => (by extract_lets -underBinder -merge -useContext +onlyGivenNames j; (try clear_value j); exact (Only.bind ((modFlash_only _).sub rfl) (fun _ => ((chargeMove_only _ _).sub rfl))))))

theorem programOwn_only : ∀ x0 x1 x2, Only [.regs, .mem, .tab, .flash] (programOwn x0 x1 x2)
  | _, _, ([]) => by
    rw [programOwn]
    exact (Only.pure _ _)
  | _, _, (e :: es) => by
    rw [programOwn]
    exact (Only.bind (Only.get _) (fun _ => (Only.bind ((wpTakeFirst_only _).sub rfl) (fun _ => (by split; exact ((programOwn_only _ _ _).sub rfl); exact (Only.bind ((programCw_only _ _ _ _ _ _).sub rfl) (fun _ => (Only.bind ((programOwn_only _ _ _).sub rfl) (fun _ => (Only.pure _ _))))))))))

theorem rebuffer_only (x0) : Only [.regs, .tab, .flash] (rebuffer x0) := by
  delta rebuffer
  exact (Only.bind (Only.rd _ _) (fun _ => (Only.bind (Only.forIn _ _ (fun _ _ => (Only.ite (Only.bind (Only.get _) (fun _ => (Only.bind ((wpTakeFirst_only _).sub rfl) (fun _ => (by split; exact (Only.bind (Only.skip _) (fun _ => (Only.pure _ _))); exact (by extract_lets -underBinder -merge -useContext +onlyGivenNames j; (try clear_value j); exact (Only.bind ((modFlash_only _).sub rfl) (fun _ => (Only.pure _ _))))))))) (Only.pure _ _)))) (fun _ => (Only.pure _ _)))))

theorem flWriteRuns_only : ∀ x0 x1 x2, Only [.regs, .mem, .sites, .mig] (flWriteRuns x0 x1 x2)
  | _, _, ([]) => by
    rw [flWriteRuns]
    exact (Only.pure _ _)
  | _, _, ((o, bs) :: rs) => by
    rw [flWriteRuns]
    exact (Only.bind ((gWrite_only _ _ _ _).sub rfl) (fun _ => (by split; exact (Only.pure _ _); exact ((flWriteRuns_only _ _ _).sub rfl))))

theorem logPump_only : Only [.regs, .tab, .flash] logPump := by
  delta logPump
  exact (Only.bind (Only.get _) (fun _ => (by extract_lets -underBinder -merge -useContext +onlyGivenNames j; (try clear_value j); exact (by split; exact (Only.skip _); exact (Only.ite (Only.pure _ _) (Only.ite (Only.pure _ _) (Only.bind ((wpTakeFirst_only _).sub rfl) (fun _ => (by split; exact (Only.skip _); exact ((modFlash_only _).sub rfl))))))))))

theorem wpTakes_only : ∀ x0 x1 x2 x3, Only [.regs, .tab] (wpTakes x0 x1 x2 x3)
  | _, _, _, (0) => by
    rw [wpTakes]
    exact (Only.pure _ _)
  | _, _, _, (n + 1) => by
    rw [wpTakes]
    exact (Only.bind ((wpTake_only _ _ _).sub rfl) (fun _ => (by split; exact (Only.pure _ _); exact (Only.bind ((wpTakes_only _ _ _ _).sub rfl) (fun _ => (by split; exact (Only.pure _ _); exact (Only.pure _ _)))))))

theorem flashLost_only (x0) : Only [.regs, .tab, .flash] (flashLost x0) := by
  delta flashLost
  exact (Only.bind (Only.get _) (fun _ => (Only.bind (Only.forIn _ _ (fun _ _ => (Only.ite (Only.bind ((flEnd_only _ _).sub rfl) (fun _ => (Only.pure _ _))) (Only.pure _ _)))) (fun _ => (Only.bind ((modFlash_only _).sub rfl) (fun _ => (Only.bind ((flSweep_only).sub rfl) (fun _ => ((logPump_only).sub rfl)))))))))

theorem recordLogged_only (x0) : Only [.regs, .mem, .tab, .sites, .mig, .flash] (recordLogged x0) := by
  delta recordLogged
  exact (Only.bind (Only.get _) (fun _ => (Only.ite (by extract_lets -underBinder -merge -useContext +onlyGivenNames j; have h0 := show ∀ y, Only [.regs, .mem, .tab, .sites, .mig, .flash] (j y) from (by intro _; unfold j; exact (by split; exact (Only.skip _); exact (by split; exact (Only.skip _); exact (Only.ite (by extract_lets -underBinder -merge -useContext +onlyGivenNames j; (try clear_value j); exact ((putCmd_only _).sub rfl)) (Only.pure _ _))))); clear_value j; exact (by split; exact (Only.ite (Only.bind ((mapUnit_only _ _).sub rfl) (fun _ => (h0 _))) (h0 _)); exact (Only.ite (Only.bind ((mapUnit_only _ _).sub rfl) (fun _ => (h0 _))) (h0 _)))) (Only.pure _ _))))

theorem writeBadTable_only : Only [.regs, .mem, .tab, .sites, .mig, .flash] writeBadTable := by
  delta writeBadTable
  exact (Only.bind (Only.get _) (fun _ => (by extract_lets -underBinder -merge -useContext +onlyGivenNames j; (try clear_value j); exact (by extract_lets -underBinder -merge -useContext +onlyGivenNames j; (try clear_value j); exact (by extract_lets -underBinder -merge -useContext +onlyGivenNames j; (try clear_value j); exact (by extract_lets -underBinder -merge -useContext +onlyGivenNames j; (try clear_value j); exact (Only.bind (Only.forIn _ _ (fun _ _ => (by extract_lets -underBinder -merge -useContext +onlyGivenNames j; (try clear_value j); exact (Only.bind ((programOwn_only _ _ _).sub rfl) (fun _ => (by extract_lets -underBinder -merge -useContext +onlyGivenNames j; (try clear_value j); exact (Only.pure _ _))))))) (fun _ => (by extract_lets -underBinder -merge -useContext +onlyGivenNames j; (try clear_value j); exact (by extract_lets -underBinder -merge -useContext +onlyGivenNames j; (try clear_value j); exact (Only.bind ((modFlash_only _).sub rfl) (fun _ => (by extract_lets -underBinder -merge -useContext +onlyGivenNames j; (try clear_value j); exact (Only.bind (Only.forIn _ _ (fun _ _ => (Only.bind ((mapStore_only _ _).sub rfl) (fun _ => (Only.pure _ _))))) (fun _ => (Only.pure _ _))))))))))))))))

theorem wearBlock_only (x0 x1) : Only [.regs, .tab] (wearBlock x0 x1) := by
  delta wearBlock
  exact (Only.bind (Only.rd _ _) (fun _ => (by split; exact (Only.pure _ _); exact (Only.bind ((takeBlk_only _).sub rfl) (fun _ => (Only.pure _ _))); exact (Only.pure _ _))))

theorem unitArrived_only (x0) : Only [.regs, .mem, .sites, .mig, .flash] (unitArrived x0) := by
  delta unitArrived
  exact (Only.bind (Only.get _) (fun _ => (by extract_lets -underBinder -merge -useContext +onlyGivenNames j; (try clear_value j); exact (by extract_lets -underBinder -merge -useContext +onlyGivenNames j; (try clear_value j); exact (Only.bind ((flWriteRuns_only _ _ _).sub rfl) (fun _ => (by split; exact ((flEnd_only _ _).sub rfl); exact ((readUnit_only _).sub rfl))))))))

theorem mapCheckpoint_only : Only [.regs, .mem, .tab, .flash] mapCheckpoint := by
  delta mapCheckpoint
  exact (Only.bind (Only.get _) (fun _ => (Only.ite (Only.bind ((programOwn_only _ _ _).sub rfl) (fun _ => (Only.bind ((modFlash_only _).sub rfl) (fun _ => ((reclaim_only).sub rfl))))) (Only.pure _ _))))

theorem cwDecoded_only (x0) : Only [.regs, .mem, .sites, .mig, .flash] (cwDecoded x0) := by
  delta cwDecoded
  exact (Only.bind (Only.rd _ _) (fun _ => (by split; exact (Only.skip _); exact (Only.ite (by extract_lets -underBinder -merge -useContext +onlyGivenNames j; (try clear_value j); exact (Only.bind ((putCmd_only _).sub rfl) (fun _ => (Only.ite ((unitArrived_only _).sub rfl) (Only.pure _ _))))) (Only.pure _ _)))))

theorem unmapUnit_only (x0) : Only [.regs, .mem, .tab, .sites, .mig, .flash] (unmapUnit x0) := by
  delta unmapUnit
  exact (Only.bind ((mapUnit_only _ _).sub rfl) (fun _ => ((modFlash_only _).sub rfl)))

theorem bufUnit_only (x0 x1 x2 x3) : Only [.regs, .tab, .flash] (bufUnit x0 x1 x2 x3) := by
  delta bufUnit
  exact (Only.bind (Only.get _) (fun _ => (by split; exact (by extract_lets -underBinder -merge -useContext +onlyGivenNames j; (try clear_value j); exact (Only.ite (Only.pure _ _) (Only.ite (Only.pure _ _) (Only.bind ((wpTakes_only _ _ _ _).sub rfl) (fun _ => (by split; exact (Only.pure _ _); exact (Only.bind ((modFlash_only _).sub rfl) (fun _ => (Only.pure _ _))))))))))))

theorem retireBlk_only (x0) : Only [.regs, .mem, .tab, .sites, .mig, .flash] (retireBlk x0) := by
  delta retireBlk
  exact (Only.bind (Only.get _) (fun _ => (by extract_lets -underBinder -merge -useContext +onlyGivenNames j; (try clear_value j); exact (by extract_lets -underBinder -merge -useContext +onlyGivenNames j; have h0 := show ∀ y, Only [.regs, .mem, .tab, .sites, .mig, .flash] (j y) from (fun _ => (Only.bind ((setBlk_only _ _ _).sub rfl) (fun _ => (Only.bind ((addF_only _ _ _).sub rfl) (fun _ => (Only.bind ((count_only _ _).sub rfl) (fun _ => (Only.bind ((setIrq_only _ _).sub rfl) (fun _ => (Only.bind (Only.forIn _ _ (fun _ _ => (Only.bind (Only.forIn _ _ (fun _ _ => (Only.ite (Only.bind ((stW_only _ _).sub rfl) (fun _ => (Only.pure _ _))) (Only.pure _ _)))) (fun _ => (Only.pure _ _))))) (fun _ => (by extract_lets -underBinder -merge -useContext +onlyGivenNames j; have h0 := show ∀ y, Only [.regs, .mem, .tab, .sites, .mig, .flash] (j y) from (by intro _; unfold j; exact (by extract_lets -underBinder -merge -useContext +onlyGivenNames j; (try clear_value j); exact (by extract_lets -underBinder -merge -useContext +onlyGivenNames j; have h0 := show ∀ y, Only [.regs, .mem, .tab, .sites, .mig, .flash] (j y) from (fun _ => (Only.bind ((setSparePool_only _).sub rfl) (fun _ => ((writeBadTable_only).sub rfl)))); clear_value j; exact (Only.ite (Only.bind ((modFlash_only _).sub rfl) (fun _ => (h0 _))) (h0 _))))); clear_value j; exact (Only.ite (Only.bind ((modFlChan_only _ _).sub rfl) (fun _ => (h0 _))) (h0 _)))))))))))))); clear_value j; exact (Only.ite (Only.bind ((addF_only _ _ _).sub rfl) (fun _ => (h0 _))) (h0 _))))))

theorem moveCw_only (x0) : Only [.regs, .mem, .tab, .flash] (moveCw x0) := by
  delta moveCw
  exact (Only.bind (Only.get _) (fun _ => (Only.bind ((wpTakeFirst_only _).sub rfl) (fun _ => (by split; exact (Only.skip _); exact (by extract_lets -underBinder -merge -useContext +onlyGivenNames j; (try clear_value j); exact (Only.bind ((programCw_only _ _ _ _ _ _).sub rfl) (fun _ => (by extract_lets -underBinder -merge -useContext +onlyGivenNames j; (try clear_value j); exact (by extract_lets -underBinder -merge -useContext +onlyGivenNames j; (try clear_value j); exact ((modFlash_only _).sub rfl)))))))))))

theorem relocate_only (x0) : Only [.regs, .tab, .flash] (relocate x0) := by
  delta relocate
  exact (Only.bind (Only.get _) (fun _ => (by split; exact (Only.skip _); exact (Only.ite (Only.pure _ _) (Only.bind ((bufUnit_only _ _ _ _).sub rfl) (fun _ => (Only.ite ((chargeMove_only _ _).sub rfl) (Only.pure _ _))))))))

theorem softDecode_only (x0 x1) : Only [.regs, .mem, .sites, .mig, .flash] (softDecode x0 x1) := by
  delta softDecode
  exact (Only.bind (Only.get _) (fun _ => (Only.ite (Only.pure _ _) (by extract_lets -underBinder -merge -useContext +onlyGivenNames j; (try clear_value j); exact (by extract_lets -underBinder -merge -useContext +onlyGivenNames j; (try clear_value j); exact (by split; exact (Only.skip _); exact (by extract_lets -underBinder -merge -useContext +onlyGivenNames j; (try clear_value j); exact (by extract_lets -underBinder -merge -useContext +onlyGivenNames j; have h0 := show ∀ y, Only [.regs, .mem, .sites, .mig, .flash] (j y) from (fun _ => (Only.bind ((refreshDue_only _).sub rfl) (fun _ => (Only.bind ((count_only _ _).sub rfl) (fun _ => (Only.bind ((count_only _ _).sub rfl) (fun _ => (by extract_lets -underBinder -merge -useContext +onlyGivenNames j; (try clear_value j); exact (Only.ite (Only.bind ((modFlash_only _).sub rfl) (fun _ => (Only.bind ((showDec_only _ _ _ _).sub rfl) (fun _ => (Only.bind ((cwDecoded_only _).sub rfl) (fun _ => ((flSweep_only).sub rfl))))))) (Only.ite (Only.bind ((modFlash_only _).sub rfl) (fun _ => ((showDec_only _ _ _ _).sub rfl))) (Only.bind ((modFlash_only _).sub rfl) (fun _ => (Only.bind ((showDec_only _ _ _ _).sub rfl) (fun _ => (Only.bind ((count_only _ _).sub rfl) (fun _ => (Only.bind ((count_only _ _).sub rfl) (fun _ => (Only.bind (Only.rd _ _) (fun _ => (by extract_lets -underBinder -merge -useContext +onlyGivenNames j; have h0 := show ∀ y, Only [.regs, .mem, .sites, .mig, .flash] (j y) from (fun _ => (Only.bind ((flSweep_only).sub rfl) (fun _ => ((showSoft_only).sub rfl)))); clear_value j; exact (by split; exact (Only.ite (Only.bind ((flEnd_only _ _).sub rfl) (fun _ => (h0 _))) (h0 _)); exact (Only.bind (Only.skip _) (fun _ => (h0 _))))))))))))))))))))))))); clear_value j; exact (Only.ite (Only.bind ((modFlash_only _).sub rfl) (fun _ => (Only.bind ((toSoftQueue_only).sub rfl) (fun _ => (h0 _))))) (h0 _))))))))))

theorem wearUnits_only : ∀ x0 x1 x2 x3, Only [.regs, .tab, .flash] (wearUnits x0 x1 x2 x3)
  | _, ([]), _, _ => by
    rw [wearUnits]
    exact ((modFlChan_only _ _).sub rfl)
  | _, (u :: us), _, _ => by
    rw [wearUnits]
    exact (Only.bind (Only.rd _ _) (fun _ => (by split; exact ((wearUnits_only _ _ _ _).sub rfl); exact ((modFlChan_only _ _).sub rfl); exact (Only.bind ((wearUnit_only _ _ _ _).sub rfl) (fun _ => ((wearUnits_only _ _ _ _).sub rfl))))))

theorem refreshBlock_only (x0) : Only [.regs, .mem, .tab, .flash] (refreshBlock x0) := by
  delta refreshBlock
  exact (Only.bind (Only.get _) (fun _ => (Only.ite (Only.pure _ _) (by split; exact (Only.ite (Only.bind ((modFlash_only _).sub rfl) (fun _ => (Only.ite (Only.bind ((eraseBlk_only _).sub rfl) (fun _ => ((count_only _ _).sub rfl))) (Only.pure _ _)))) (Only.pure _ _)); exact (Only.bind (Only.forIn _ _ (fun _ _ => (Only.bind ((relocate_only _).sub rfl) (fun _ => (Only.pure _ _))))) (fun _ => (Only.bind (Only.forIn _ _ (fun _ _ => (Only.bind ((moveCw_only _).sub rfl) (fun _ => (Only.pure _ _))))) (fun _ => ((logPump_only).sub rfl)))))))))

theorem hardDecode_only (x0 x1 x2) : Only [.regs, .mem, .sites, .mig, .flash] (hardDecode x0 x1 x2) := by
  delta hardDecode
  exact (Only.bind (Only.get _) (fun _ => (Only.ite (Only.pure _ _) (by extract_lets -underBinder -merge -useContext +onlyGivenNames j; (try clear_value j); exact (by split; exact (Only.skip _); exact (by extract_lets -underBinder -merge -useContext +onlyGivenNames j; (try clear_value j); exact (Only.bind ((count_only _ _).sub rfl) (fun _ => (Only.bind ((modFlash_only _).sub rfl) (fun _ => (Only.ite (Only.bind ((count_only _ _).sub rfl) (fun _ => (Only.bind ((modFlash_only _).sub rfl) (fun _ => ((toSoftQueue_only).sub rfl))))) (Only.bind ((count_only _ _).sub rfl) (fun _ => (Only.bind ((noteDecode_only _ _).sub rfl) (fun _ => (Only.bind ((rdF_only _ _).sub rfl) (fun _ => (by extract_lets -underBinder -merge -useContext +onlyGivenNames j; have h0 := show ∀ y, Only [.regs, .mem, .sites, .mig, .flash] (j y) from (fun _ => (Only.bind ((modFlash_only _).sub rfl) (fun _ => (Only.bind ((cwDecoded_only _).sub rfl) (fun _ => (Only.bind ((flSweep_only).sub rfl) (fun _ => ((flTransfer_only _).sub rfl)))))))); clear_value j; exact (Only.ite (Only.bind ((refreshDue_only _).sub rfl) (fun _ => (h0 _))) (h0 _))))))))))))))))))))

theorem wearMove_only (x0) : Only [.regs, .tab, .flash] (wearMove x0) := by
  delta wearMove
  exact (Only.bind (Only.get _) (fun _ => (Only.ite (by split; exact (Only.skip _); exact (Only.ite (Only.bind ((wearBlock_only _ _).sub rfl) (fun _ => (by split; exact (Only.skip _); exact ((wearUnits_only _ _ _ _).sub rfl)))) (Only.pure _ _))) (Only.pure _ _))))

theorem writeUnit_only (x0) : Only [.regs, .mem, .tab, .flash] (writeUnit x0) := by
  delta writeUnit
  exact (Only.bind (Only.get _) (fun _ => (by split; exact ((flEnd_only _ _).sub rfl); exact (by extract_lets -underBinder -merge -useContext +onlyGivenNames j; (try clear_value j); exact (by split; exact ((flEnd_only _ _).sub rfl); exact (Only.ite ((flEnd_only _ _).sub rfl) (Only.ite ((flEnd_only _ _).sub rfl) (Only.ite ((flEnd_only _ _).sub rfl) (Only.ite (Only.bind ((unitSource_only _ _ _).sub rfl) (fun _ => (by split; exact ((flEnd_only _ _).sub rfl); exact (by extract_lets -underBinder -merge -useContext +onlyGivenNames j; (try clear_value j); exact (Only.bind ((creditGrow_only _).sub rfl) (fun _ => (Only.bind ((rdF_only _ _).sub rfl) (fun _ => (Only.ite (Only.bind ((count_only _ _).sub rfl) (fun _ => ((flEnd_only _ _).sub rfl))) (Only.bind ((bufUnit_only _ _ _ _).sub rfl) (fun _ => (Only.ite (Only.bind ((creditCharge_only _ _).sub rfl) (fun _ => ((putCmd_only _).sub rfl))) (Only.pure _ _))))))))))))) (Only.pure _ _))))))))))

theorem mapRebuildDone_only : Only [.regs, .mem, .tab, .sites, .mig, .flash] mapRebuildDone := by
  delta mapRebuildDone
  exact (Only.bind (Only.get _) (fun _ => (Only.ite (Only.pure _ _) (Only.bind (Only.forIn _ _ (fun _ _ => (Only.bind ((mapStore_only _ _).sub rfl) (fun _ => (Only.pure _ _))))) (fun _ => (Only.bind ((wrF_only _ _ _).sub rfl) (fun _ => (by extract_lets -underBinder -merge -useContext +onlyGivenNames j; (try clear_value j); exact (by extract_lets -underBinder -merge -useContext +onlyGivenNames j; (try clear_value j); exact (Only.bind ((modFlash_only _).sub rfl) (fun _ => (Only.bind ((setSparePool_only _).sub rfl) (fun _ => (Only.ite ((writeBadTable_only).sub rfl) (Only.pure _ _)))))))))))))))

theorem trimUnits_only : ∀ x0 x1, Only [.regs, .mem, .tab, .sites, .mig, .flash] (trimUnits x0 x1)
  | _, ([]) => by
    rw [trimUnits]
    exact (Only.pure _ _)
  | _, (u :: tail) => by
    rw [trimUnits]
    exact (Only.bind (Only.get _) (fun _ => (by split; exact (Only.pure _ _); exact (Only.ite (Only.pure _ _) (Only.ite (Only.pure _ _) (by extract_lets -underBinder -merge -useContext +onlyGivenNames j; have h0 := show ∀ y, Only [.regs, .mem, .tab, .sites, .mig, .flash] (j y) from (fun _ => ((trimUnits_only _ _).sub rfl)); clear_value j; exact (Only.ite (Only.bind ((unmapUnit_only _).sub rfl) (fun _ => (h0 _))) (h0 _))))))))

theorem gcRelocate_only (x0) : Only [.regs, .tab, .flash] (gcRelocate x0) := by
  delta gcRelocate
  exact ((relocate_only _).sub rfl)

theorem programFail_only (x0 x1) : Only [.regs, .mem, .tab, .sites, .mig, .flash] (programFail x0 x1) := by
  delta programFail
  exact (Only.bind (Only.get _) (fun _ => (by extract_lets -underBinder -merge -useContext +onlyGivenNames j; (try clear_value j); exact (by split; exact (Only.skip _); exact (Only.ite (Only.pure _ _) (Only.bind ((retireBlk_only _).sub rfl) (fun _ => (Only.bind ((rebuffer_only _).sub rfl) (fun _ => (Only.bind (Only.rd _ _) (fun _ => (Only.bind (Only.forIn _ _ (fun _ _ => (Only.bind ((moveCw_only _).sub rfl) (fun _ => (Only.pure _ _))))) (fun _ => (Only.bind (Only.forIn _ _ (fun _ _ => (Only.bind ((relocate_only _).sub rfl) (fun _ => (Only.pure _ _))))) (fun _ => ((logPump_only).sub rfl))))))))))))))))

theorem unitProgrammed_only (x0) : Only [.regs, .mem, .tab, .flash] (unitProgrammed x0) := by
  delta unitProgrammed
  exact (Only.bind ((modFlash_only _).sub rfl) (fun _ => (by split; exact (Only.skip _); exact (Only.bind (Only.rd _ _) (fun _ => (by split; exact (Only.skip _); exact (Only.ite (by extract_lets -underBinder -merge -useContext +onlyGivenNames j; (try clear_value j); exact (Only.bind ((putCmd_only _).sub rfl) (fun _ => ((writeUnit_only _).sub rfl)))) (Only.pure _ _))))))))

theorem pagePassed_only (x0 x1) : Only [.regs, .mem, .tab, .sites, .mig, .flash] (pagePassed x0 x1) := by
  delta pagePassed
  exact (Only.bind (Only.forIn _ _ (fun _ _ => (Only.ite (Only.bind (Only.forIn _ _ (fun _ _ => (Only.bind ((recordLogged_only _).sub rfl) (fun _ => (Only.pure _ _))))) (fun _ => (Only.pure _ _))) (Only.ite (Only.bind ((unitProgrammed_only _).sub rfl) (fun _ => (Only.pure _ _))) (Only.pure _ _))))) (fun _ => (Only.pure _ _)))

theorem flStart_only (x0 x1) : Only [.regs, .mem, .tab, .sites, .mig, .flash] (flStart x0 x1) := by
  delta flStart
  exact (Only.bind (Only.get _) (fun _ => (by extract_lets -underBinder -merge -useContext +onlyGivenNames j; (try clear_value j); exact (Only.ite (Only.pure _ _) (Only.ite (Only.pure _ _) (by extract_lets -underBinder -merge -useContext +onlyGivenNames j; (try clear_value j); exact (Only.bind ((spRead_only _ _ _ _ _).sub rfl) (fun _ => (by split; exact ((flBegin_only _).sub rfl); exact (Only.ite (Only.pure _ _) (Only.ite ((flBegin_only _).sub rfl) (Only.bind ((readPlace_only _ _ _).sub rfl) (fun _ => (by split; exact ((flBegin_only _).sub rfl); exact (by split; exact ((flBegin_only _).sub rfl); exact (by extract_lets -underBinder -merge -useContext +onlyGivenNames j; (try clear_value j); exact (Only.ite (Only.pure _ _) (by extract_lets -underBinder -merge -useContext +onlyGivenNames j; (try clear_value j); exact (by extract_lets -underBinder -merge -useContext +onlyGivenNames j; (try clear_value j); exact (Only.ite (Only.bind ((vlog_only _ _ _).sub rfl) (fun _ => ((flBegin_only _).sub rfl))) (Only.ite ((flBegin_only _).sub rfl) (Only.bind ((flBegin_only _).sub rfl) (fun _ => (by split; exact ((readUnit_only _).sub rfl); exact ((writeUnit_only _).sub rfl); exact (Only.bind ((trimUnits_only _ _).sub rfl) (fun _ => (Only.bind ((flEnd_only _ _).sub rfl) (fun _ => (Only.bind ((reclaim_only).sub rfl) (fun _ => ((logPump_only).sub rfl)))))))))))))))))))))))))))))))

theorem writePump_only : Only [.regs, .mem, .tab, .flash] writePump := by
  delta writePump
  exact (Only.bind (Only.rd _ _) (fun _ => (Only.bind (Only.forIn _ _ (fun _ _ => (Only.ite (Only.bind ((writeUnit_only _).sub rfl) (fun _ => (Only.pure _ _))) (Only.pure _ _)))) (fun _ => (Only.pure _ _)))))

theorem flashCmdDone_only (x0) : Only [.regs, .mem, .tab, .sites, .mig, .flash] (flashCmdDone x0) := by
  delta flashCmdDone
  exact (Only.bind (Only.get _) (fun _ => (by split; exact (Only.skip _); exact (by extract_lets -underBinder -merge -useContext +onlyGivenNames j; (try clear_value j); exact (Only.bind ((spWrite_only _ _ _ _ _).sub rfl) (fun _ => (by extract_lets -underBinder -merge -useContext +onlyGivenNames j; have h0 := show ∀ y, Only [.regs, .mem, .tab, .sites, .mig, .flash] (j y) from (fun _ => (Only.bind ((modFlash_only _).sub rfl) (fun _ => (Only.bind ((flqAdvance_only _ _).sub rfl) (fun _ => (Only.bind ((reclaim_only).sub rfl) (fun _ => ((writePump_only).sub rfl)))))))); clear_value j; exact (Only.ite (Only.ite (Only.bind ((signalTile_only _ _ _ _).sub rfl) (fun _ => (h0 _))) (h0 _)) (h0 _)))))))))

theorem programDone_only (x0) : Only [.regs, .mem, .tab, .sites, .mig, .flash] (programDone x0) := by
  delta programDone
  exact (Only.bind (Only.get _) (fun _ => (by split; exact (Only.skip _); exact (by extract_lets -underBinder -merge -useContext +onlyGivenNames j; (try clear_value j); exact (by extract_lets -underBinder -merge -useContext +onlyGivenNames j; (try clear_value j); exact (Only.bind (Only.forIn _ _ (fun _ _ => (Only.bind ((programBuf_only _).sub rfl) (fun _ => (Only.pure _ _))))) (fun _ => (Only.bind ((modFlash_only _).sub rfl) (fun _ => (Only.bind ((modFlChan_only _ _).sub rfl) (fun _ => (Only.bind ((wpClosePage_only _ _ _ _).sub rfl) (fun _ => (Only.bind ((pagePassed_only _ _).sub rfl) (fun _ => (Only.bind ((reclaim_only).sub rfl) (fun _ => (Only.bind ((writePump_only).sub rfl) (fun _ => ((logPump_only).sub rfl))))))))))))))))))))

theorem flashCloses_only (x0) : Only [.regs, .mem, .tab, .flash] (flashCloses x0) := by
  delta flashCloses
  exact (Only.bind (Only.rd _ _) (fun _ => (Only.ite (Only.bind ((wrF_only _ _ _).sub rfl) (fun _ => (Only.bind ((modFlChan_only _ _).sub rfl) (fun _ => (Only.bind ((flTransfer_only _).sub rfl) (fun _ => (Only.bind ((reclaim_only).sub rfl) (fun _ => (Only.bind ((writePump_only).sub rfl) (fun _ => ((logPump_only).sub rfl))))))))))) (Only.pure _ _))))

end Sys2Proof.Machine
end

