-- ==== Sys2Proof/Laws/FrameLoad.lean ====
section
/-! SUPPORT. Which fields of the state each operation can change, and that it always goes on: tedders, collectives, trust and ingress.
One lemma for each operation, over the lemmas of what it calls. -/

namespace Sys2Proof.Machine

theorem modTed_only (x0) : Only [.ted] (modTed x0) := by
  delta modTed
  exact (Only.bind (Only.rd _ _) (fun _ => (Only.upd _ rfl)))

theorem putFillE_only (x0) : Only [.ted] (putFillE x0) := by
  delta putFillE
  exact ((modTed_only _).sub rfl)

theorem swapRecord_only (x0 x1 x2) : Only [.regs] (swapRecord x0 x1 x2) := by
  delta swapRecord
  exact (Only.bind ((wrF_only _ _ _).sub rfl) (fun _ => (Only.bind ((wrF_only _ _ _).sub rfl) (fun _ => ((wrF_only _ _ _).sub rfl)))))

theorem fillStop_only (x0) : Only [.regs, .ted] (fillStop x0) := by
  delta fillStop
  exact (Only.bind (Only.rd _ _) (fun _ => (Only.bind (Only.forIn _ _ (fun _ _ => (Only.ite (Only.bind ((wrF_only _ _ _).sub rfl) (fun _ => (Only.pure _ _))) (Only.pure _ _)))) (fun _ => (Only.bind (Only.upd _ rfl) (fun _ => (Only.bind ((wrF_only _ _ _).sub rfl) (fun _ => ((wrR_only _ _).sub rfl)))))))))

theorem tdqAdvance_only : ∀ x0 x1, Only [.regs, .ted] (tdqAdvance x0 x1)
  | _, (0) => by
    rw [tdqAdvance]
    exact (Only.skip _)
  | _, (fuel + 1) => by
    rw [tdqAdvance]
    exact (Only.bind (Only.get _) (fun _ => (by extract_lets -underBinder -merge -useContext +onlyGivenNames j; (try clear_value j); exact (Only.ite (Only.bind ((modTed_only _).sub rfl) (fun _ => (Only.bind ((wrF_only _ _ _).sub rfl) (fun _ => ((tdqAdvance_only _ _).sub rfl))))) (Only.pure _ _)))))

theorem tdqTailWrite_only (x0 x1) : Only [.regs] (tdqTailWrite x0 x1) := by
  delta tdqTailWrite
  exact (Only.bind (Only.get _) (fun _ => (Only.ite (Only.pure _ _) (Only.bind ((wrF_only _ _ _).sub rfl) (fun _ => (Only.pure _ _))))))

theorem writeRegion_only (x0 x1 x2 x3 x4) : Only [.mem, .tab] (writeRegion x0 x1 x2 x3 x4) := by
  delta writeRegion
  exact (Only.bind ((tileWrite_only _ _ _).sub rfl) (fun _ => (Only.ite (by extract_lets -underBinder -merge -useContext +onlyGivenNames j; (try clear_value j); exact ((tileWrite_only _ _ _).sub rfl)) (Only.pure _ _))))

theorem adpResult_only (x0 x1) : Only [.regs] (adpResult x0 x1) := by
  delta adpResult
  exact ((wrF_only _ _ _).sub rfl)

theorem setBaseState_only (x0 x1) : Only [.regs] (setBaseState x0 x1) := by
  delta setBaseState
  exact ((wrF_only _ _ _).sub rfl)

theorem baseDiscard_only (x0) : Only [.regs] (baseDiscard x0) := by
  delta baseDiscard
  exact (Only.bind (Only.get _) (fun _ => (Only.ite (Only.bind ((setBaseState_only _ _).sub rfl) (fun _ => ((wrF_only _ _ _).sub rfl))) (Only.pure _ _))))

theorem adpStage_only (x0) : Only [.regs, .tab] (adpStage x0) := by
  delta adpStage
  exact (Only.bind (Only.get _) (fun _ => (by extract_lets -underBinder -merge -useContext +onlyGivenNames j; (try clear_value j); exact (by extract_lets -underBinder -merge -useContext +onlyGivenNames j; (try clear_value j); exact (by extract_lets -underBinder -merge -useContext +onlyGivenNames j; (try clear_value j); exact (Only.ite ((adpResult_only _ _).sub rfl) (Only.ite ((adpResult_only _ _).sub rfl) (Only.ite ((adpResult_only _ _).sub rfl) (by split; exact ((adpResult_only _ _).sub rfl); exact (Only.bind ((stW_only _ _).sub rfl) (fun _ => (Only.bind ((stW_only _ _).sub rfl) (fun _ => (Only.bind ((stW_only _ _).sub rfl) (fun _ => (Only.bind ((stW_only _ _).sub rfl) (fun _ => (Only.bind ((adpResult_only _ _).sub rfl) (fun _ => ((showAdapters_only _).sub rfl))))))))))))))))))))

theorem fillEnd_only (x0 x1 x2) : Only [.regs, .mem, .tab, .ted] (fillEnd x0 x1 x2) := by
  delta fillEnd
  exact (Only.bind (Only.get _) (fun _ => (by extract_lets -underBinder -merge -useContext +onlyGivenNames j; (try clear_value j); exact (Only.bind ((hubStore_only _ _ _).sub rfl) (fun _ => (by extract_lets -underBinder -merge -useContext +onlyGivenNames j; (try clear_value j); exact (by extract_lets -underBinder -merge -useContext +onlyGivenNames j; have h0 := show ∀ y, Only [.regs, .mem, .tab, .ted] (j y) from (fun _ => (Only.bind ((modTed_only _).sub rfl) (fun _ => ((tdqAdvance_only _ _).sub rfl)))); clear_value j; exact (Only.ite (Only.bind ((signalTile_only _ _ _ _).sub rfl) (fun _ => (h0 _))) (h0 _)))))))))

theorem adpWithdraw_only (x0 x1 x2) : Only [.regs, .tab] (adpWithdraw x0 x1 x2) := by
  delta adpWithdraw
  exact (Only.bind (Only.get _) (fun _ => (by split; exact ((adpResult_only _ _).sub rfl); exact (Only.ite ((adpResult_only _ _).sub rfl) (by extract_lets -underBinder -merge -useContext +onlyGivenNames j; have h0 := show ∀ y, Only [.regs, .tab] (j y) from (fun _ => ((adpResult_only _ _).sub rfl)); clear_value j; exact (Only.ite (Only.bind ((adpRetire_only _).sub rfl) (fun _ => (h0 _))) (Only.bind ((adpSet_only _ _ _ _).sub rfl) (fun _ => (h0 _)))))))))

theorem adpDrop_only (x0 x1 x2) : Only [.regs, .tab] (adpDrop x0 x1 x2) := by
  delta adpDrop
  exact (Only.bind (Only.get _) (fun _ => (by split; exact ((adpResult_only _ _).sub rfl); exact (Only.ite ((adpResult_only _ _).sub rfl) (Only.bind ((adpClear_only _).sub rfl) (fun _ => ((adpResult_only _ _).sub rfl)))))))

theorem baseRetire_only (x0) : Only [.regs] (baseRetire x0) := by
  delta baseRetire
  exact (Only.bind (Only.get _) (fun _ => (Only.ite (Only.bind ((setBaseState_only _ _).sub rfl) (fun _ => (Only.bind ((wrF_only _ _ _).sub rfl) (fun _ => ((wrF_only _ _ _).sub rfl))))) (Only.pure _ _))))

theorem adpPublish_only (x0 x1 x2) : Only [.regs, .tab] (adpPublish x0 x1 x2) := by
  delta adpPublish
  exact (Only.bind (Only.get _) (fun _ => (by split; exact ((adpResult_only _ _).sub rfl); exact (Only.ite ((adpResult_only _ _).sub rfl) (Only.bind (Only.forIn _ _ (fun _ _ => (Only.ite (Only.ite (Only.bind ((adpRetire_only _).sub rfl) (fun _ => (Only.pure _ _))) (Only.bind ((adpSet_only _ _ _ _).sub rfl) (fun _ => (Only.pure _ _)))) (Only.pure _ _)))) (fun _ => (Only.bind ((adpSet_only _ _ _ _).sub rfl) (fun _ => ((adpResult_only _ _).sub rfl)))))))))

theorem readSegments_only : ∀ x0 x1 x2 x3 x4 x5, Only [.regs, .mem] (readSegments x0 x1 x2 x3 x4 x5)
  | _, _, _, (0), _, _ => by
    rw [readSegments]
    exact (Only.pure _ _)
  | _, _, _, (n + 1), _, (0) => by
    rw [readSegments]
    exact (Only.pure _ _)
  | _, _, _, (fuel + 1), _, (_ + 1) => by
    rw [readSegments]
    · exact (Only.bind ((gRead_only _ _ _ _).sub rfl) (fun _ => (by split; exact (Only.pure _ _); exact (by extract_lets -underBinder -merge -useContext +onlyGivenNames j; (try clear_value j); exact (by extract_lets -underBinder -merge -useContext +onlyGivenNames j; (try clear_value j); exact (Only.ite (Only.pure _ _) (Only.bind ((gRead_only _ _ _ _).sub rfl) (fun _ => (by split; exact (Only.pure _ _); exact (by split; exact (Only.pure _ _); exact (by extract_lets -underBinder -merge -useContext +onlyGivenNames j; (try clear_value j); exact (Only.bind ((readSegments_only _ _ _ _ _ _).sub rfl) (fun _ => (by split; exact (Only.pure _ _); exact (Only.pure _ _)))))))))))))))
    · intro h; omega

theorem baseCutover_only (x0) : Only [.regs, .tab] (baseCutover x0) := by
  delta baseCutover
  exact (Only.bind (Only.get _) (fun _ => (Only.bind ((wrF_only _ _ _).sub rfl) (fun _ => (by extract_lets -underBinder -merge -useContext +onlyGivenNames j; have h0 := show ∀ y, Only [.regs, .tab] (j y) from (by intro _; unfold j; exact (by extract_lets -underBinder -merge -useContext +onlyGivenNames j; (try clear_value j); exact (Only.ite (Only.bind ((setBaseState_only _ _).sub rfl) (fun _ => (by extract_lets -underBinder -merge -useContext +onlyGivenNames j; (try clear_value j); exact ((stW_only _ _).sub rfl)))) (Only.pure _ _)))); clear_value j; exact (Only.ite (Only.bind ((setBaseState_only _ _).sub rfl) (fun _ => (h0 _))) (h0 _)))))))

theorem fillPiece_only (x0 x1) : Only [.regs, .mem, .tab, .ted] (fillPiece x0 x1) := by
  delta fillPiece
  exact (Only.bind (Only.get _) (fun _ => (Only.ite (Only.pure _ _) (by split; exact (Only.skip _); exact (by extract_lets -underBinder -merge -useContext +onlyGivenNames j; (try clear_value j); exact (by extract_lets -underBinder -merge -useContext +onlyGivenNames j; have h0 := show ∀ y, Only [.regs, .mem, .tab, .ted] (j y) from (fun _ => (Only.ite ((fillEnd_only _ _ _).sub rfl) (by extract_lets -underBinder -merge -useContext +onlyGivenNames j; have h0 := show ∀ y z, Only [.regs, .mem, .tab, .ted] (j y z) from (fun _ _ => (Only.bind (Only.rd _ _) (fun _ => (Only.bind ((putFillE_only _).sub rfl) (fun _ => (Only.bind ((modTed_only _).sub rfl) (fun _ => (Only.bind ((wrF_only _ _ _).sub rfl) (fun _ => ((wrF_only _ _ _).sub rfl)))))))))); clear_value j; exact (by split; exact (h0 _ _); exact (by extract_lets -underBinder -merge -useContext +onlyGivenNames j; (try clear_value j); exact (by extract_lets -underBinder -merge -useContext +onlyGivenNames j; (try clear_value j); exact (Only.ite ((count_only _ _).sub rfl) (Only.ite (h0 _ _) (Only.bind ((setWbuf_only _ _ _).sub rfl) (fun _ => (Only.bind ((setWbufTag_only _ _ _).sub rfl) (fun _ => (h0 _ _))))))))))))); clear_value j; exact (Only.ite (Only.bind ((wrF_only _ _ _).sub rfl) (fun _ => (h0 _))) (h0 _))))))))

theorem readPiece_only (x0 x1 x2 x3) : Only [.regs, .mem] (readPiece x0 x1 x2 x3) := by
  delta readPiece
  exact (by extract_lets -underBinder -merge -useContext +onlyGivenNames j; (try clear_value j); exact (Only.ite (Only.bind ((readSegments_only _ _ _ _ _ _).sub rfl) (fun _ => (by split; exact (Only.pure _ _); exact (Only.pure _ _)))) (by extract_lets -underBinder -merge -useContext +onlyGivenNames j; (try clear_value j); exact (Only.bind ((gRead_only _ _ _ _).sub rfl) (fun _ => (by split; exact (Only.pure _ _); exact (Only.pure _ _)))))))

theorem fillPieceDone_only (x0) : Only [.regs, .mem, .tab, .ted] (fillPieceDone x0) := by
  delta fillPieceDone
  exact (Only.bind (Only.get _) (fun _ => (by split; exact (Only.skip _); exact (by extract_lets -underBinder -merge -useContext +onlyGivenNames j; (try clear_value j); exact (by extract_lets -underBinder -merge -useContext +onlyGivenNames j; (try clear_value j); exact (Only.bind (Only.ite (Only.pure _ _) (by split; exact (Only.pure _ _); exact (Only.bind ((readPiece_only _ _ _ _).sub rfl) (fun _ => (by split; exact (Only.pure _ _); exact (Only.bind ((count_only _ _).sub rfl) (fun _ => (Only.bind ((count_only _ _).sub rfl) (fun _ => (by extract_lets -underBinder -merge -useContext +onlyGivenNames j; have h0 := show ∀ y, Only [.regs, .mem, .tab, .ted] (j y) from (by intro _; unfold j; exact (by extract_lets -underBinder -merge -useContext +onlyGivenNames j; have h0 := show ∀ y, Only [.regs, .mem, .tab, .ted] (j y) from (fun _ => (Only.bind ((writeRegion_only _ _ _ _ _).sub rfl) (fun _ => (Only.pure _ _)))); clear_value j; exact (Only.ite (Only.bind ((count_only _ _).sub rfl) (fun _ => (h0 _))) (h0 _)))); clear_value j; exact (Only.ite (Only.bind ((count_only _ _).sub rfl) (fun _ => (h0 _))) (h0 _)))))))))))) (fun _ => (Only.bind ((modTed_only _).sub rfl) (fun _ => (Only.bind ((wrF_only _ _ _).sub rfl) (fun _ => (Only.bind ((count_only _ _).sub rfl) (fun _ => (by extract_lets -underBinder -merge -useContext +onlyGivenNames j; have h0 := show ∀ y, Only [.regs, .mem, .tab, .ted] (j y) from (fun _ => (Only.bind (Only.rd _ _) (fun _ => (by extract_lets -underBinder -merge -useContext +onlyGivenNames j; (try clear_value j); exact (Only.bind ((putFillE_only _).sub rfl) (fun _ => (Only.ite ((fillEnd_only _ _ _).sub rfl) (Only.pure _ _)))))))); clear_value j; exact (Only.ite (Only.bind ((count_only _ _).sub rfl) (fun _ => (Only.bind ((wrF_only _ _ _).sub rfl) (fun _ => (Only.bind ((wrF_only _ _ _).sub rfl) (fun _ => (Only.bind ((wrF_only _ _ _).sub rfl) (fun _ => (Only.bind ((setIrq_only _ _).sub rfl) (fun _ => (h0 _))))))))))) (Only.ite (Only.bind ((setWbuf_only _ _ _).sub rfl) (fun _ => (h0 _))) (h0 _)))))))))))))))))

theorem modCol_only (x0) : Only [.col] (modCol x0) := by
  delta modCol
  exact (Only.bind (Only.rd _ _) (fun _ => (Only.upd _ rfl)))

theorem putCol_only (x0) : Only [.col] (putCol x0) := by
  delta putCol
  exact ((modCol_only _).sub rfl)

theorem clqAdvance_only : ∀ x0 x1, Only [.regs, .col] (clqAdvance x0 x1)
  | _, (0) => by
    rw [clqAdvance]
    exact (Only.skip _)
  | _, (fuel + 1) => by
    rw [clqAdvance]
    exact (Only.bind (Only.get _) (fun _ => (by extract_lets -underBinder -merge -useContext +onlyGivenNames j; (try clear_value j); exact (Only.ite (Only.bind ((modCol_only _).sub rfl) (fun _ => (Only.bind ((wrF_only _ _ _).sub rfl) (fun _ => ((clqAdvance_only _ _).sub rfl))))) (Only.pure _ _)))))

theorem clqTailWrite_only (x0 x1) : Only [.regs] (clqTailWrite x0 x1) := by
  delta clqTailWrite
  exact (Only.bind (Only.get _) (fun _ => (Only.ite (Only.pure _ _) (Only.bind ((wrF_only _ _ _).sub rfl) (fun _ => (Only.pure _ _))))))

theorem colRecord_only (x0 x1 x2 x3) : Only [.regs, .mem, .tab, .sites, .mig, .col] (colRecord x0 x1 x2 x3) := by
  delta colRecord
  exact (Only.bind (Only.get _) (fun _ => (by extract_lets -underBinder -merge -useContext +onlyGivenNames j; (try clear_value j); exact (by extract_lets -underBinder -merge -useContext +onlyGivenNames j; (try clear_value j); exact (by extract_lets -underBinder -merge -useContext +onlyGivenNames j; have h0 := show ∀ y, Only [.regs, .mem, .tab, .sites, .mig, .col] (j y) from (fun _ => (Only.bind ((modCol_only _).sub rfl) (fun _ => (Only.bind (Only.rd _ _) (fun _ => (Only.bind ((wrF_only _ _ _).sub rfl) (fun _ => ((clqAdvance_only _ _).sub rfl)))))))); clear_value j; exact (Only.ite (by extract_lets -underBinder -merge -useContext +onlyGivenNames j; (try clear_value j); exact (by extract_lets -underBinder -merge -useContext +onlyGivenNames j; (try clear_value j); exact (by extract_lets -underBinder -merge -useContext +onlyGivenNames j; (try clear_value j); exact (by extract_lets -underBinder -merge -useContext +onlyGivenNames j; (try clear_value j); exact (by extract_lets -underBinder -merge -useContext +onlyGivenNames j; (try clear_value j); exact (by extract_lets -underBinder -merge -useContext +onlyGivenNames j; (try clear_value j); exact (by extract_lets -underBinder -merge -useContext +onlyGivenNames j; (try clear_value j); exact (Only.bind ((spWrite_only _ _ _ _ _).sub rfl) (fun _ => (Only.bind ((hubStore_only _ _ _).sub rfl) (fun _ => (by extract_lets -underBinder -merge -useContext +onlyGivenNames j; have h1 := show ∀ y, Only [.regs, .mem, .tab, .sites, .mig, .col] (j y) from (by intro _; unfold j; exact (by extract_lets -underBinder -merge -useContext +onlyGivenNames j; have h1 := show ∀ y, Only [.regs, .mem, .tab, .sites, .mig, .col] (j y) from (fun _ => (Only.ite (Only.bind ((signalTile_only _ _ _ _).sub rfl) (fun _ => (h0 _))) (h0 _))); clear_value j; exact (Only.ite (Only.bind ((count_only _ _).sub rfl) (fun _ => (Only.bind ((count_only _ _).sub rfl) (fun _ => (h1 _))))) (h1 _)))); clear_value j; exact (Only.ite (Only.bind ((count_only _ _).sub rfl) (fun _ => (h1 _))) (Only.bind ((count_only _ _).sub rfl) (fun _ => (Only.bind ((wrF_only _ _ _).sub rfl) (fun _ => (Only.bind ((wrF_only _ _ _).sub rfl) (fun _ => (Only.bind ((wrF_only _ _ _).sub rfl) (fun _ => (h1 _)))))))))))))))))))))) (h0 _)))))))

theorem colQueuedEnd_only : ∀ x0 x1 x2, Only [.regs, .mem, .tab, .sites, .mig, .col] (colQueuedEnd x0 x1 x2)
  | _, _, (0) => by
    rw [colQueuedEnd]
    exact (Only.skip _)
  | _, _, (fuel + 1) => by
    rw [colQueuedEnd]
    exact (Only.bind (Only.get _) (fun _ => (by extract_lets -underBinder -merge -useContext +onlyGivenNames j; (try clear_value j); exact (Only.ite (Only.bind ((wrF_only _ _ _).sub rfl) (fun _ => (Only.bind ((colRecord_only _ _ _ _).sub rfl) (fun _ => ((colQueuedEnd_only _ _ _).sub rfl))))) (Only.pure _ _)))))

theorem colRerequest_only (x0 x1) : Only [.regs, .ports, .sent] (colRerequest x0 x1) := by
  delta colRerequest
  exact (Only.bind (Only.get _) (fun _ => (by extract_lets -underBinder -merge -useContext +onlyGivenNames j; (try clear_value j); exact (by extract_lets -underBinder -merge -useContext +onlyGivenNames j; (try clear_value j); exact (Only.ite (Only.pure _ _) (Only.bind ((count_only _ _).sub rfl) (fun _ => (Only.bind ((sendFab_only _ _ _ _ _ _ _ _).sub rfl) (fun _ => (Only.pure _ _))))))))))

theorem colMissing_only : ∀ x0 x1, Only [.regs, .ports, .sent] (colMissing x0 x1)
  | _, ([]) => by
    rw [colMissing]
    exact (Only.pure _ _)
  | _, (k :: ks) => by
    rw [colMissing]
    exact (Only.bind ((colRerequest_only _ _).sub rfl) (fun _ => ((colMissing_only _ _).sub rfl)))

theorem colToPlanes_only (x0 x1 x2 x3) : Only [.regs, .ports, .sent] (colToPlanes x0 x1 x2 x3) := by
  delta colToPlanes
  exact (Only.bind (Only.get _) (fun _ => (Only.bind (Only.forIn _ _ (fun _ _ => (Only.ite (Only.bind ((sendFab_only _ _ _ _ _ _ _ _).sub rfl) (fun _ => (Only.pure _ _))) (Only.pure _ _)))) (fun _ => (Only.pure _ _)))))

theorem colSettle_only (x0) : Only [.regs, .mem, .tab, .ports, .sites, .mig, .col, .sent] (colSettle x0) := by
  delta colSettle
  exact (by extract_lets -underBinder -merge -useContext +onlyGivenNames j; (try clear_value j); exact (Only.ite (by extract_lets -underBinder -merge -useContext +onlyGivenNames j; (try clear_value j); exact (Only.ite (by extract_lets -underBinder -merge -useContext +onlyGivenNames j; have h0 := show ∀ y, Only [.regs, .mem, .tab, .ports, .sites, .mig, .col, .sent] (j y) from (fun _ => ((colToPlanes_only _ _ _ _).sub rfl)); clear_value j; exact (Only.ite (Only.bind ((colRecord_only _ _ _ _).sub rfl) (fun _ => (h0 _))) (by split; exact (Only.bind ((colRecord_only _ _ _ _).sub rfl) (fun _ => (h0 _))); exact (Only.bind ((colRecord_only _ _ _ _).sub rfl) (fun _ => (h0 _)))))) (Only.pure _ _))) (Only.pure _ _)))

theorem colSendChunk_only (x0 x1 x2) : Only [.regs, .mem, .ports, .sent] (colSendChunk x0 x1 x2) := by
  delta colSendChunk
  exact (Only.bind (Only.rd _ _) (fun _ => (Only.bind ((spRead_only _ _ _ _ _).sub rfl) (fun _ => (by split; exact (Only.skip _); exact (Only.bind (Only.forIn _ _ (fun _ _ => (Only.bind ((sendFab_only _ _ _ _ _ _ _ _).sub rfl) (fun _ => (Only.pure _ _))))) (fun _ => (Only.pure _ _))))))))

theorem colOut_only (x0) : Only [.regs, .mem, .tab, .ports, .sites, .mig, .col, .sent] (colOut x0) := by
  delta colOut
  exact (onPacket_only _ _ (fun _ => (by split; exact (Only.skip _); exact (Only.bind (Only.get _) (fun _ => (by split; exact (Only.skip _); exact (by extract_lets -underBinder -merge -useContext +onlyGivenNames j; (try clear_value j); exact (by extract_lets -underBinder -merge -useContext +onlyGivenNames j; (try clear_value j); exact (by extract_lets -underBinder -merge -useContext +onlyGivenNames j; (try clear_value j); exact (by split; exact (Only.ite (Only.pure _ _) (Only.bind ((spWrite_only _ _ _ _ _).sub rfl) (fun _ => (by extract_lets -underBinder -merge -useContext +onlyGivenNames j; (try clear_value j); exact (by extract_lets -underBinder -merge -useContext +onlyGivenNames j; (try clear_value j); exact (by extract_lets -underBinder -merge -useContext +onlyGivenNames j; (try clear_value j); exact (by extract_lets -underBinder -merge -useContext +onlyGivenNames j; (try clear_value j); exact (by extract_lets -underBinder -merge -useContext +onlyGivenNames j; (try clear_value j); exact (Only.ite ((putCol_only _).sub rfl) (Only.bind (Only.bind ((spRead_only _ _ _ _ _).sub rfl) (fun _ => (by split; exact (Only.pure _ _); exact (Only.pure _ _)))) (fun _ => (Only.ite (by extract_lets -underBinder -merge -useContext +onlyGivenNames j; (try clear_value j); exact (Only.bind ((putCol_only _).sub rfl) (fun _ => (by extract_lets -underBinder -merge -useContext +onlyGivenNames j; have h0 := show ∀ y, Only [.regs, .mem, .tab, .ports, .sites, .mig, .col, .sent] (j y) from (fun _ => ((colSettle_only _).sub rfl)); clear_value j; exact (Only.ite (Only.bind ((signalTile_only _ _ _ _).sub rfl) (fun _ => (h0 _))) (h0 _)))))) (Only.bind ((colRerequest_only _ _).sub rfl) (fun _ => (Only.bind ((putCol_only _).sub rfl) (fun _ => ((colSettle_only _).sub rfl)))))))))))))))))))))))))) rfl)

theorem colEnd_only (x0 x1 x2 x3) : Only [.regs, .mem, .tab, .ports, .sites, .mig, .col, .sent] (colEnd x0 x1 x2 x3) := by
  delta colEnd
  exact (Only.bind ((colToPlanes_only _ _ _ _).sub rfl) (fun _ => ((colRecord_only _ _ _ _).sub rfl)))

theorem colDone_only (x0) : Only [.regs, .mem, .tab, .ports, .sites, .mig, .col, .sent] (colDone x0) := by
  delta colDone
  exact (onPacket_only _ _ (fun _ => (by split; exact (Only.skip _); exact (Only.bind (Only.rd _ _) (fun _ => (by split; exact (Only.skip _); exact (by extract_lets -underBinder -merge -useContext +onlyGivenNames j; (try clear_value j); exact (by extract_lets -underBinder -merge -useContext +onlyGivenNames j; (try clear_value j); exact (Only.ite (Only.pure _ _) (by extract_lets -underBinder -merge -useContext +onlyGivenNames j; (try clear_value j); exact (Only.bind (Only.ite ((colMissing_only _ _).sub rfl) (Only.pure _ _)) (fun _ => (Only.bind ((putCol_only _).sub rfl) (fun _ => ((colSettle_only _).sub rfl)))))))))))))) rfl)

theorem colPortFailed_only (x0) : Only [.regs, .mem, .tab, .ports, .sites, .mig, .col, .sent] (colPortFailed x0) := by
  delta colPortFailed
  exact (Only.bind (Only.rd _ _) (fun _ => (Only.bind (Only.forIn _ _ (fun _ _ => (Only.ite (Only.bind ((colEnd_only _ _ _ _).sub rfl) (fun _ => (Only.pure _ _))) (Only.pure _ _)))) (fun _ => (Only.pure _ _)))))

theorem colAbort_only (x0 x1) : Only [.regs, .mem, .tab, .ports, .sites, .mig, .col, .sent] (colAbort x0 x1) := by
  delta colAbort
  exact (Only.bind (Only.rd _ _) (fun _ => (Only.bind (Only.forIn _ _ (fun _ _ => (Only.ite (Only.bind ((colEnd_only _ _ _ _).sub rfl) (fun _ => (Only.pure _ _))) (Only.pure _ _)))) (fun _ => ((colQueuedEnd_only _ _ _).sub rfl)))))

theorem colResend_only (x0) : Only [.regs, .mem, .ports, .sent] (colResend x0) := by
  delta colResend
  exact (onPacket_only _ _ (fun _ => (by split; exact (Only.skip _); exact (Only.bind (Only.rd _ _) (fun _ => (by split; exact (Only.skip _); exact (by extract_lets -underBinder -merge -useContext +onlyGivenNames j; (try clear_value j); exact (Only.ite (Only.bind ((count_only _ _).sub rfl) (fun _ => ((colSendChunk_only _ _ _).sub rfl))) (Only.pure _ _)))))))) rfl)

theorem colInputs_only (x0) : Only [.regs, .mem, .ports, .col, .sent] (colInputs x0) := by
  delta colInputs
  exact (by extract_lets -underBinder -merge -useContext +onlyGivenNames j; (try clear_value j); exact (by extract_lets -underBinder -merge -useContext +onlyGivenNames j; have h0 := show ∀ y, Only [.regs, .mem, .ports, .col, .sent] (j y) from (fun _ => (Only.bind (Only.rd _ _) (fun _ => (Only.bind ((putCol_only _).sub rfl) (fun _ => (Only.bind ((count_only _ _).sub rfl) (fun _ => ((count_only _ _).sub rfl)))))))); clear_value j; exact (Only.ite (Only.bind (Only.forIn _ _ (fun _ _ => (Only.bind ((colSendChunk_only _ _ _).sub rfl) (fun _ => (Only.pure _ _))))) (fun _ => (h0 _))) (h0 _))))

theorem colTimeout_only (x0 x1) : Only [.regs, .mem, .tab, .ports, .sites, .mig, .col, .sent] (colTimeout x0 x1) := by
  delta colTimeout
  exact (Only.bind (Only.get _) (fun _ => (by split; exact (Only.skip _); exact (Only.ite ((colEnd_only _ _ _ _).sub rfl) (Only.pure _ _)))))

theorem colLaunch_only (x0 x1 x2) : Only [.regs, .mem, .tab, .ports, .sites, .mig, .col, .sent] (colLaunch x0 x1 x2) := by
  delta colLaunch
  exact (Only.bind (Only.get _) (fun _ => (by split; exact (Only.pure _ _); exact (Only.ite (Only.pure _ _) (Only.ite (Only.pure _ _) (by extract_lets -underBinder -merge -useContext +onlyGivenNames j; (try clear_value j); exact (by extract_lets -underBinder -merge -useContext +onlyGivenNames j; have h0 := show Only [.regs, .mem, .tab, .ports, .sites, .mig, .col, .sent] j from (Only.bind ((wrF_only _ _ _).sub rfl) (fun _ => (Only.bind ((modCol_only _).sub rfl) (fun _ => ((wrF_only _ _ _).sub rfl))))); clear_value j; exact (Only.ite (Only.bind (h0) (fun _ => (Only.bind ((colRecord_only _ _ _ _).sub rfl) (fun _ => (Only.pure _ _))))) (Only.ite (Only.bind (h0) (fun _ => (Only.bind ((colRecord_only _ _ _ _).sub rfl) (fun _ => (Only.pure _ _))))) (Only.ite (by extract_lets -underBinder -merge -useContext +onlyGivenNames j; have h1 := show ∀ y, Only [.regs, .mem, .tab, .ports, .sites, .mig, .col, .sent] (j y) from (fun _ => (Only.pure _ _)); clear_value j; exact (Only.ite (Only.bind ((count_only _ _).sub rfl) (fun _ => (h1 _))) (h1 _))) (Only.bind (h0) (fun _ => (Only.bind ((count_only _ _).sub rfl) (fun _ => (by extract_lets -underBinder -merge -useContext +onlyGivenNames j; have h1 := show ∀ y, Only [.regs, .mem, .tab, .ports, .sites, .mig, .col, .sent] (j y) from (by intro _; unfold j; exact (by extract_lets -underBinder -merge -useContext +onlyGivenNames j; have h1 := show ∀ y, Only [.regs, .mem, .tab, .ports, .sites, .mig, .col, .sent] (j y) from (fun _ => (Only.pure _ _)); clear_value j; exact (by split; exact (Only.bind ((colEnd_only _ _ _ _).sub rfl) (fun _ => (h1 _))); exact (Only.bind ((colToPlanes_only _ _ _ _).sub rfl) (fun _ => (Only.ite (Only.bind ((colInputs_only _).sub rfl) (fun _ => (h1 _))) (h1 _))))))); clear_value j; exact (Only.ite (Only.bind ((count_only _ _).sub rfl) (fun _ => (h1 _))) (h1 _)))))))))))))))))

theorem colReady_only (x0 x1) : Only [.regs, .mem, .ports, .col, .sent] (colReady x0 x1) := by
  delta colReady
  exact (Only.bind (Only.get _) (fun _ => (by split; exact (Only.skip _); exact (Only.ite (by extract_lets -underBinder -merge -useContext +onlyGivenNames j; (try clear_value j); exact (by split; exact (Only.ite ((colInputs_only _).sub rfl) (Only.pure _ _)); exact (Only.skip _))) (Only.pure _ _)))))

theorem colOp_only (x0 x1) : Only [.regs, .mem, .tab, .ports, .sites, .mig, .col, .sent] (colOp x0 x1) := by
  delta colOp
  exact (Only.bind ((colLaunch_only _ _ _).sub rfl) (fun _ => (Only.pure _ _)))

theorem colLaunches_only : ∀ x0 x1, Only [.regs, .mem, .tab, .ports, .sites, .mig, .col, .sent] (colLaunches x0 x1)
  | _, (0) => by
    rw [colLaunches]
    exact (Only.skip _)
  | _, (fuel + 1) => by
    rw [colLaunches]
    exact (Only.bind ((colLaunch_only _ _ _).sub rfl) (fun _ => (Only.ite ((colLaunches_only _ _).sub rfl) (Only.pure _ _))))

theorem modSec_only (x0) : Only [.sec] (modSec x0) := by
  delta modSec
  exact (Only.bind (Only.rd _ _) (fun _ => (Only.upd _ rfl)))

theorem ownerKeyAdd_only (x0 x1) : Only [.sec] (ownerKeyAdd x0 x1) := by
  delta ownerKeyAdd
  exact (Only.bind (Only.get _) (fun _ => (Only.ite (Only.pure _ _) (Only.bind ((modSec_only _).sub rfl) (fun _ => (Only.pure _ _))))))

theorem hayCallWrite_only (x0) : Only [.mem, .sec] (hayCallWrite x0) := by
  delta hayCallWrite
  exact (Only.bind (Only.get _) (fun _ => (Only.ite (Only.pure _ _) (Only.bind ((modSec_only _).sub rfl) (fun _ => (Only.bind ((stBytes_only _ _).sub rfl) (fun _ => (Only.pure _ _))))))))

theorem extendMeas_only (x0 x1) : Only [.sec] (extendMeas x0 x1) := by
  delta extendMeas
  exact (Only.bind (Only.rd _ _) (fun _ => ((modSec_only _).sub rfl)))

theorem secResult_only (x0) : Only [.regs] (secResult x0) := by
  delta secResult
  exact ((wrF_only _ _ _).sub rfl)

theorem callAct_only (x0 x1) : Only [.regs] (callAct x0 x1) := by
  delta callAct
  exact (Only.bind (Only.get _) (fun _ => (Only.ite (Only.bind ((wrF_only _ _ _).sub rfl) (fun _ => (Only.bind ((wrF_only _ _ _).sub rfl) (fun _ => (Only.pure _ _))))) (Only.pure _ _))))

theorem setLifecycle_only (x0) : Only [.regs] (setLifecycle x0) := by
  delta setLifecycle
  exact ((wrF_only _ _ _).sub rfl)

theorem sendRecord_only (x0 x1) : Only [.regs, .sec, .land, .sent] (sendRecord x0 x1) := by
  delta sendRecord
  exact (Only.bind (Only.get _) (fun _ => (by extract_lets -underBinder -merge -useContext +onlyGivenNames j; (try clear_value j); exact (Only.bind ((modSec_only _).sub rfl) (fun _ => (by extract_lets -underBinder -merge -useContext +onlyGivenNames j; (try clear_value j); exact ((mgtSend_only _ _).sub rfl)))))))

theorem floorCommit_only (x0) : Only [.regs, .sec] (floorCommit x0) := by
  delta floorCommit
  exact (by extract_lets -underBinder -merge -useContext +onlyGivenNames j; (try clear_value j); exact (Only.ite ((secResult_only _).sub rfl) (Only.bind (Only.get _) (fun _ => (Only.bind ((modSec_only _).sub rfl) (fun _ => ((secResult_only _).sub rfl)))))))

theorem ownerKeyRemove_only (x0) : Only [.regs, .sec] (ownerKeyRemove x0) := by
  delta ownerKeyRemove
  exact (Only.bind (Only.get _) (fun _ => (Only.ite (Only.bind ((modSec_only _).sub rfl) (fun _ => ((secResult_only _).sub rfl))) ((secResult_only _).sub rfl))))

theorem lifecycle_only (x0) : Only [.regs, .sec] (lifecycle x0) := by
  delta lifecycle
  exact (Only.bind (Only.get _) (fun _ => (by extract_lets -underBinder -merge -useContext +onlyGivenNames j; (try clear_value j); exact (Only.ite ((secResult_only _).sub rfl) (by split; exact (Only.ite (Only.bind ((setLifecycle_only _).sub rfl) (fun _ => ((secResult_only _).sub rfl))) ((secResult_only _).sub rfl)); exact (Only.ite (Only.bind ((modSec_only _).sub rfl) (fun _ => (Only.bind ((setLifecycle_only _).sub rfl) (fun _ => ((secResult_only _).sub rfl))))) ((secResult_only _).sub rfl)); exact (Only.ite (Only.bind ((modSec_only _).sub rfl) (fun _ => (Only.bind ((setLifecycle_only _).sub rfl) (fun _ => ((secResult_only _).sub rfl))))) ((secResult_only _).sub rfl)); exact (Only.ite (Only.bind ((modSec_only _).sub rfl) (fun _ => (Only.bind ((setLifecycle_only _).sub rfl) (fun _ => ((secResult_only _).sub rfl))))) ((secResult_only _).sub rfl)); exact (Only.bind ((wrF_only _ _ _).sub rfl) (fun _ => ((secResult_only _).sub rfl))); exact ((secResult_only _).sub rfl); exact ((secResult_only _).sub rfl); exact ((secResult_only _).sub rfl); exact ((secResult_only _).sub rfl); exact ((secResult_only _).sub rfl))))))

theorem ownerKeyInstall_only (x0) : Only [.regs, .sec] (ownerKeyInstall x0) := by
  delta ownerKeyInstall
  exact (Only.bind ((ownerKeyAdd_only _ _).sub rfl) (fun _ => (Only.ite ((secResult_only _).sub rfl) ((secResult_only _).sub rfl))))

theorem sendAck_only (x0 x1) : Only [.regs, .sec, .land, .sent] (sendAck x0 x1) := by
  delta sendAck
  exact ((sendRecord_only _ _).sub rfl)

theorem secBytes_only (x0 x1 x2 x3) : Only [.regs, .mem] (secBytes x0 x1 x2 x3) := by
  delta secBytes
  exact (by split; exact (Only.ite (Only.bind ((ldBytes_only _ _).sub rfl) (fun _ => (Only.pure _ _))) (Only.pure _ _)); exact (Only.bind ((spRead_only _ _ _ _ _).sub rfl) (fun _ => (by split; exact (Only.pure _ _); exact (Only.pure _ _)))); exact (Only.pure _ _))

theorem onRecord_only {l} (t r) {k : List Byte → Act (Option Nat)} (h : ∀ x, Only l (k x)) (hl : Field.sub [.regs, .mem, .sec, .land, .sent] l = true) :
    Only l (onRecord t r k) := by
  delta onRecord
  have hc : ∀ {α : Type} {a : Act α} {m : List Field}, Only m a → Field.sub m [.regs, .mem, .sec, .land, .sent] = true → Only l a :=
    fun q hm => q.sub (Field.sub_trans hm hl)
  refine Only.bind (Only.get _) (fun _ => mgtFrame_only _ (Only.ite (Only.pure _ _) (Only.bind (Only.rd _ _) (fun _ =>
    Only.ite (Only.bind (hc (wrR_only _ _) rfl) (fun _ => Only.bind (h _) (fun _ => ?_))) (hc (vlog_only _ _ _) rfl))))
    (Field.sub_trans rfl hl))
  split
  · exact hc (sendAck_only _ _) rfl
  · exact Only.skip _

theorem callExtend_only (x0 x1 x2) : Only [.regs, .mem, .sec] (callExtend x0 x1 x2) := by
  delta callExtend
  exact (Only.ite (Only.pure _ _) (Only.bind ((spRead_only _ _ _ _ _).sub rfl) (fun _ => (by split; exact (Only.pure _ _); exact (Only.bind ((extendMeas_only _ _).sub rfl) (fun _ => (Only.pure _ _)))))))

theorem callReport_only (x0 x1 x2) : Only [.regs, .mem, .tab, .sites, .mig] (callReport x0 x1 x2) := by
  delta callReport
  exact (Only.bind ((spRead_only _ _ _ _ _).sub rfl) (fun _ => (by split; exact (Only.pure _ _); exact (Only.bind (Only.rd _ _) (fun _ => (Only.bind ((spWrite_only _ _ _ _ _).sub rfl) (fun _ => (by split; exact (Only.pure _ _); exact (Only.pure _ _)))))))))

theorem ownerKeyRecord_only (x0) : Only [.regs, .mem, .sec, .land, .sent] (ownerKeyRecord x0) := by
  delta ownerKeyRecord
  exact (onRecord_only _ _ (fun _ => (Only.bind ((ownerKeyAdd_only _ _).sub rfl) (fun _ => (Only.ite (Only.pure _ _) (Only.pure _ _))))) rfl)

theorem grantRecord_only (x0) : Only [.regs, .mem, .sec, .land, .sent] (grantRecord x0) := by
  delta grantRecord
  exact (onRecord_only _ _ (fun _ => (Only.bind ((send_only _).sub rfl) (fun _ => (Only.pure _ _)))) rfl)

theorem attestReq_only (x0) : Only [.regs, .mem, .sec, .land, .sent] (attestReq x0) := by
  delta attestReq
  exact (onRecord_only _ _ (fun _ => (Only.bind (Only.rd _ _) (fun _ => (Only.bind ((sendRecord_only _ _).sub rfl) (fun _ => (Only.pure _ _)))))) rfl)

theorem powerCap_only (x0) : Only [.regs, .staged, .mem, .sec, .land, .sent] (powerCap x0) := by
  delta powerCap
  exact (onRecord_only _ _ (fun _ => (by extract_lets -underBinder -merge -useContext +onlyGivenNames j; (try clear_value j); exact (Only.ite (Only.pure _ _) (Only.bind ((rdR_only _).sub rfl) (fun _ => (by extract_lets -underBinder -merge -useContext +onlyGivenNames j; (try clear_value j); exact (Only.bind (Only.rd _ _) (fun _ => (by extract_lets -underBinder -merge -useContext +onlyGivenNames j; have h0 := show ∀ y, Only [.regs, .staged, .mem, .sec, .land, .sent] (j y) from (fun _ => (Only.pure _ _)); clear_value j; exact (Only.ite (Only.bind (Only.upd _ rfl) (fun _ => (Only.bind ((wrF_only _ _ _).sub rfl) (fun _ => (Only.bind ((wrF_only _ _ _).sub rfl) (fun _ => (h0 _))))))) (Only.bind ((wrR_only _ _).sub rfl) (fun _ => (h0 _))))))))))))) rfl)

theorem secReport_only (x0 x1) : Only [.regs, .mem, .tab, .sites, .mig] (secReport x0 x1) := by
  delta secReport
  exact (by extract_lets -underBinder -merge -useContext +onlyGivenNames j; (try clear_value j); exact (Only.bind (Only.rd _ _) (fun _ => (by split; exact (Only.ite ((secResult_only _).sub rfl) (Only.bind ((stBytes_only _ _).sub rfl) (fun _ => ((secResult_only _).sub rfl)))); exact (Only.bind ((spWrite_only _ _ _ _ _).sub rfl) (fun _ => (by split; exact ((secResult_only _).sub rfl); exact ((secResult_only _).sub rfl)))); exact ((secResult_only _).sub rfl)))))

theorem hayServe_only (x0 x1) : Only [.regs, .mem, .tab, .sites, .mig, .sec] (hayServe x0 x1) := by
  delta hayServe
  exact (Only.bind (Only.get _) (fun _ => (Only.ite (Only.pure _ _) (by extract_lets -underBinder -merge -useContext +onlyGivenNames j; (try clear_value j); exact (by extract_lets -underBinder -merge -useContext +onlyGivenNames j; (try clear_value j); exact (Only.ite (Only.pure _ _) (Only.bind (by split; exact ((callAct_only _ _).sub rfl); exact ((callExtend_only _ _ _).sub rfl); exact ((callReport_only _ _ _).sub rfl); exact (Only.pure _ _)) (fun _ => (Only.bind ((stBytes_only _ _).sub rfl) (fun _ => (Only.bind ((modSec_only _).sub rfl) (fun _ => ((count_only _ _).sub rfl)))))))))))))

theorem secCommand_only (part) : Only [.regs, .mem, .tab, .sites, .mig, .sec] (secCommand part) := by
  delta secCommand
  refine Only.bind (Only.get _) (fun s => ?_)
  extract_lets arg
  have ha : ∀ n (k : List Byte → Act Unit), (∀ b, Only [.regs, .mem, .tab, .sites, .mig, .sec] (k b)) → Only [.regs, .mem, .tab, .sites, .mig, .sec] (arg n k) := by
    intro n k hk
    refine Only.bind ((secBytes_only _ _ _ _).sub rfl) (fun _ => ?_)
    split
    · exact hk _
    · exact (secResult_only _).sub rfl
  clear_value arg
  split
  · exact ha _ _ (fun b => (floorCommit_only b).sub rfl)
  · exact ha _ _ (fun b => (ownerKeyInstall_only b).sub rfl)
  · exact ha _ _ (fun b => (ownerKeyRemove_only b).sub rfl)
  · exact ha _ _ (fun b => (lifecycle_only b).sub rfl)
  · exact ha _ _ (fun b => (secReport_only _ b).sub rfl)
  · exact (secResult_only _).sub rfl

theorem mgmtCommand_only (x0 x1) : Only [.regs, .mem, .ports, .parts, .col, .sec, .land, .sent] (mgmtCommand x0 x1) := by
  delta mgmtCommand
  exact (onRecord_only _ _ (fun _ => (Only.bind ((fabricCommand_only _ _ _).sub rfl) (fun _ => (Only.pure _ _)))) rfl)

theorem modLoad_only (x0) : Only [.load] (modLoad x0) := by
  delta modLoad
  exact (Only.bind (Only.rd _ _) (fun _ => (Only.upd _ rfl)))

theorem qpSet_only (x0 x1 x2 x3) : Only [.tab] (qpSet x0 x1 x2 x3) := by
  delta qpSet
  exact (Only.bind (Only.forIn _ _ (fun _ _ => (by extract_lets -underBinder -merge -useContext +onlyGivenNames j; (try clear_value j); exact (by extract_lets -underBinder -merge -useContext +onlyGivenNames j; (try clear_value j); exact (Only.bind ((ldW_only _).sub rfl) (fun _ => (Only.bind ((stW_only _ _).sub rfl) (fun _ => (Only.pure _ _))))))))) (fun _ => (Only.pure _ _)))

theorem bulkDrop_only (x0 x1) : Only [.regs] (bulkDrop x0 x1) := by
  delta bulkDrop
  exact (Only.bind ((count_only _ _).sub rfl) (fun _ => ((count_only _ _).sub rfl)))

theorem ldqAdvance_only : ∀ x0 x1, Only [.regs, .load] (ldqAdvance x0 x1)
  | _, (0) => by
    rw [ldqAdvance]
    exact (Only.skip _)
  | _, (fuel + 1) => by
    rw [ldqAdvance]
    exact (Only.bind (Only.get _) (fun _ => (by extract_lets -underBinder -merge -useContext +onlyGivenNames j; (try clear_value j); exact (Only.ite (Only.bind ((modLoad_only _).sub rfl) (fun _ => (Only.bind ((wrF_only _ _ _).sub rfl) (fun _ => ((ldqAdvance_only _ _).sub rfl))))) (Only.pure _ _)))))

theorem readRequests_only : ∀ x0 x1 x2 x3 x4 x5 x6 x7 x8, Only [.load] (readRequests x0 x1 x2 x3 x4 x5 x6 x7 x8)
  | _, _, _, _, _, (0), _, _, _ => by
    rw [readRequests]
    exact (Only.skip _)
  | _, _, _, _, _, (fuel + 1), _, _, _ => by
    rw [readRequests]
    exact (Only.ite (Only.pure _ _) (by extract_lets -underBinder -merge -useContext +onlyGivenNames j; (try clear_value j); exact (Only.bind ((modLoad_only _).sub rfl) (fun _ => ((readRequests_only _ _ _ _ _ _ _ _ _).sub rfl)))))

theorem keyTimeout_only (x0) : Only [.load] (keyTimeout x0) := by
  delta keyTimeout
  exact (Only.bind (Only.get _) (fun _ => ((modLoad_only _).sub rfl)))

theorem putStream_only (x0) : Only [.load] (putStream x0) := by
  delta putStream
  exact ((modLoad_only _).sub rfl)

theorem sendRead_only (x0 x1) : Only [.regs, .sent] (sendRead x0 x1) := by
  delta sendRead
  exact (Only.bind (Only.get _) (fun _ => (Only.bind ((send_only _).sub rfl) (fun _ => ((count_only _ _).sub rfl)))))

theorem qpPump_only : ∀ x0 x1, Only [.regs, .tab, .load, .sent] (qpPump x0 x1)
  | _, (0) => by
    rw [qpPump]
    exact (Only.skip _)
  | _, (fuel + 1) => by
    rw [qpPump]
    exact (Only.bind (Only.get _) (fun _ => (Only.ite (Only.pure _ _) (by extract_lets -underBinder -merge -useContext +onlyGivenNames j; (try clear_value j); exact (by split; exact (Only.skip _); exact (Only.ite (by extract_lets -underBinder -merge -useContext +onlyGivenNames j; (try clear_value j); exact (by extract_lets -underBinder -merge -useContext +onlyGivenNames j; (try clear_value j); exact (by extract_lets -underBinder -merge -useContext +onlyGivenNames j; (try clear_value j); exact (Only.bind ((modLoad_only _).sub rfl) (fun _ => (Only.bind ((qpSet_only _ _ _ _).sub rfl) (fun _ => (Only.bind ((sendRead_only _ _).sub rfl) (fun _ => ((qpPump_only _ _).sub rfl)))))))))) (Only.pure _ _)))))))

theorem putChunk_only (x0 x1) : Only [.load] (putChunk x0 x1) := by
  delta putChunk
  exact ((putStream_only _).sub rfl)

theorem streamWaits_only (x0) : Only [.regs] (streamWaits x0) := by
  delta streamWaits
  exact (Only.bind (Only.forIn _ _ (fun _ _ => (Only.bind (Only.get _) (fun _ => (by split; exact (Only.ite (Only.bind ((count_only _ _).sub rfl) (fun _ => (Only.pure _ _))) (Only.pure _ _)); exact (Only.bind (Only.skip _) (fun _ => (Only.pure _ _)))))))) (fun _ => (Only.pure _ _)))

theorem ldqTailWrite_only (x0 x1) : Only [.regs] (ldqTailWrite x0 x1) := by
  delta ldqTailWrite
  exact (Only.bind (Only.get _) (fun _ => (Only.ite (Only.pure _ _) (Only.bind ((wrF_only _ _ _).sub rfl) (fun _ => (Only.pure _ _))))))

theorem showIngress_only : Only [.regs] showIngress := by
  delta showIngress
  exact (Only.bind (Only.rd _ _) (fun _ => (Only.bind ((wrF_only _ _ _).sub rfl) (fun _ => ((wrF_only _ _ _).sub rfl)))))

theorem qpWaits_only : Only [.regs, .tab, .load, .sent] qpWaits := by
  delta qpWaits
  exact (Only.bind (Only.rd _ _) (fun _ => (Only.bind (Only.forIn _ _ (fun _ _ => (Only.bind ((qpPump_only _ _).sub rfl) (fun _ => (Only.pure _ _))))) (fun _ => (Only.pure _ _)))))

theorem roceTakes_only (x0 x1) : Only [.regs] (roceTakes x0 x1) := by
  delta roceTakes
  exact (Only.bind (Only.get _) (fun _ => (Only.bind ((count_only _ _).sub rfl) (fun _ => (Only.ite (Only.bind ((count_only _ _).sub rfl) (fun _ => (Only.pure _ _))) (Only.pure _ _))))))

theorem sendCnp_only (x0) : Only [.regs, .load, .sent] (sendCnp x0) := by
  delta sendCnp
  exact (Only.bind (Only.get _) (fun _ => (by extract_lets -underBinder -merge -useContext +onlyGivenNames j; (try clear_value j); exact (Only.ite (Only.bind ((modLoad_only _).sub rfl) (fun _ => (Only.bind ((send_only _).sub rfl) (fun _ => (Only.bind ((count_only _ _).sub rfl) (fun _ => ((count_only _ _).sub rfl))))))) (Only.pure _ _)))))

theorem readFinished_only (x0) : Only [.load] (readFinished x0) := by
  delta readFinished
  exact (Only.bind (Only.get _) (fun _ => (Only.ite (Only.pure _ _) (by split; exact (Only.skip _); exact (by split; exact (Only.skip _); exact ((putChunk_only _ _).sub rfl))))))

theorem qpResend_only (x0) : Only [.regs, .load, .sent] (qpResend x0) := by
  delta qpResend
  exact (Only.bind (Only.get _) (fun _ => (Only.bind (Only.forIn _ _ (fun _ _ => (Only.ite (Only.bind ((sendRead_only _ _).sub rfl) (fun _ => (Only.bind ((count_only _ _).sub rfl) (fun _ => (Only.pure _ _))))) (Only.pure _ _)))) (fun _ => ((modLoad_only _).sub rfl)))))

theorem loadStop_only (x0) : Only [.regs, .mem, .load] (loadStop x0) := by
  delta loadStop
  exact (Only.bind (Only.get _) (fun _ => (Only.bind (Only.forIn _ _ (fun _ _ => (Only.ite (Only.bind ((hubStore_only _ _ _).sub rfl) (fun _ => (by split; exact (Only.ite (Only.bind ((setBaseState_only _ _).sub rfl) (fun _ => (Only.pure _ _))) (Only.pure _ _)); exact (Only.bind (Only.skip _) (fun _ => (Only.pure _ _)))))) (Only.pure _ _)))) (fun _ => (Only.bind ((modLoad_only _).sub rfl) (fun _ => (Only.bind (Only.forIn _ _ (fun _ _ => (Only.bind ((hubStore_only _ _ _).sub rfl) (fun _ => (Only.pure _ _))))) (fun _ => (Only.bind ((wrF_only _ _ _).sub rfl) (fun _ => (Only.bind ((wrR_only _ _).sub rfl) (fun _ => ((showIngress_only).sub rfl)))))))))))))

theorem chunkReturn_only (x0 x1 x2 x3) : Only [.load] (chunkReturn x0 x1 x2 x3) := by
  delta chunkReturn
  exact ((putStream_only _).sub rfl)

theorem roceAck_only (x0 x1) : Only [.regs, .load] (roceAck x0 x1) := by
  delta roceAck
  exact (Only.bind (Only.rd _ _) (fun _ => (Only.bind ((roceTakes_only _ _).sub rfl) (fun _ => (Only.ite ((modLoad_only _).sub rfl) (Only.pure _ _))))))

theorem loadEnd_only (x0 x1 x2 x3) : Only [.regs, .mem, .tab, .load] (loadEnd x0 x1 x2 x3) := by
  delta loadEnd
  exact (Only.bind (Only.get _) (fun _ => (by extract_lets -underBinder -merge -useContext +onlyGivenNames j; (try clear_value j); exact (Only.bind ((hubStore_only _ _ _).sub rfl) (fun _ => (by extract_lets -underBinder -merge -useContext +onlyGivenNames j; (try clear_value j); exact (by extract_lets -underBinder -merge -useContext +onlyGivenNames j; have h0 := show ∀ y, Only [.regs, .mem, .tab, .load] (j y) from (fun _ => (Only.bind ((modLoad_only _).sub rfl) (fun _ => (Only.bind ((showIngress_only).sub rfl) (fun _ => ((ldqAdvance_only _ _).sub rfl)))))); clear_value j; exact (Only.ite (Only.bind ((signalTile_only _ _ _ _).sub rfl) (fun _ => (h0 _))) (h0 _)))))))))

theorem loadTake_only {l} (p op) {k : Nat → List Byte → Act Unit} (h : ∀ x y, Only l (k x y)) (hl : Field.sub [.regs, .mem, .tab, .load] l = true) :
    Only l (loadTake p op k) := by
  delta loadTake
  refine Only.bind (Only.rd _ _) (fun _ => ?_)
  split
  · exact Only.skip _
  · exact Only.bind ((wrF_only _ _ _).sub (Field.sub_trans rfl hl))
      (fun _ => Only.ite (h _ _) ((loadEnd_only _ _ _ _).sub (Field.sub_trans rfl hl)))

theorem dropManifest_only (x0) : Only [.regs, .mem, .tab, .load] (dropManifest x0) := by
  delta dropManifest
  exact (loadTake_only _ _ (fun _ _ => (Only.bind (Only.get _) (fun _ => (by split; exact ((loadEnd_only _ _ _ _).sub rfl); exact (Only.ite ((loadEnd_only _ _ _ _).sub rfl) (Only.bind ((modLoad_only _).sub rfl) (fun _ => ((loadEnd_only _ _ _ _).sub rfl)))))))) rfl)

theorem peerData_only (x0) : Only [.regs, .mem, .ports, .sites, .mig, .load, .sent] (peerData x0) := by
  delta peerData
  exact (onPacket_only _ _ (fun _ => (by split; exact (Only.skip _); exact (Only.bind (Only.get _) (fun _ => (by extract_lets -underBinder -merge -useContext +onlyGivenNames j; (try clear_value j); exact (by split; exact (Only.skip _); exact (by extract_lets -underBinder -merge -useContext +onlyGivenNames j; (try clear_value j); exact (by extract_lets -underBinder -merge -useContext +onlyGivenNames j; (try clear_value j); exact (by extract_lets -underBinder -merge -useContext +onlyGivenNames j; (try clear_value j); exact (Only.bind ((gWrite_only _ _ _ _).sub rfl) (fun _ => (by extract_lets -underBinder -merge -useContext +onlyGivenNames j; (try clear_value j); exact (by extract_lets -underBinder -merge -useContext +onlyGivenNames j; (try clear_value j); exact ((putChunk_only _ _).sub rfl)))))))))))))) rfl)

theorem keyRequest_only (x0) : Only [.regs, .mem, .tab, .sites, .mig, .load, .free] (keyRequest x0) := by
  delta keyRequest
  exact (loadTake_only _ _ (fun _ _ => (Only.bind (Only.get _) (fun _ => (by split; exact ((loadEnd_only _ _ _ _).sub rfl); exact (Only.ite ((loadEnd_only _ _ _ _).sub rfl) (Only.ite ((loadEnd_only _ _ _ _).sub rfl) (Only.bind ((spRead_only _ _ _ _ _).sub rfl) (fun _ => (by split; exact ((loadEnd_only _ _ _ _).sub rfl); exact (Only.bind ((freshNat_only).sub rfl) (fun _ => (by extract_lets -underBinder -merge -useContext +onlyGivenNames j; (try clear_value j); exact (by extract_lets -underBinder -merge -useContext +onlyGivenNames j; (try clear_value j); exact (Only.bind (Only.rd _ _) (fun _ => (Only.bind ((spWrite_only _ _ _ _ _).sub rfl) (fun _ => (by split; exact ((loadEnd_only _ _ _ _).sub rfl); exact (Only.bind ((modLoad_only _).sub rfl) (fun _ => ((loadEnd_only _ _ _ _).sub rfl))))))))))))))))))))) rfl)

theorem verify_only (x0) : Only [.regs, .mem, .tab, .load] (verify x0) := by
  delta verify
  exact (loadTake_only _ _ (fun _ _ => (Only.bind ((spRead_only _ _ _ _ _).sub rfl) (fun _ => (by split; exact ((loadEnd_only _ _ _ _).sub rfl); exact (Only.bind ((spRead_only _ _ _ _ _).sub rfl) (fun _ => (by split; exact ((loadEnd_only _ _ _ _).sub rfl); exact (Only.bind (Only.get _) (fun _ => (by extract_lets -underBinder -merge -useContext +onlyGivenNames j; (try clear_value j); exact (Only.ite ((loadEnd_only _ _ _ _).sub rfl) (by split; exact ((loadEnd_only _ _ _ _).sub rfl); exact (Only.bind ((modLoad_only _).sub rfl) (fun _ => (Only.bind ((hubStore_only _ _ _).sub rfl) (fun _ => ((loadEnd_only _ _ _ _).sub rfl))))))))))))))))) rfl)

theorem readResponse_only (x0 x1 x2 x3) : Only [.regs, .mem, .tab, .sites, .mig, .load, .sent] (readResponse x0 x1 x2 x3) := by
  delta readResponse
  exact (Only.bind (Only.get _) (fun _ => (Only.bind ((roceTakes_only _ _).sub rfl) (fun _ => (Only.ite (Only.pure _ _) (by extract_lets -underBinder -merge -useContext +onlyGivenNames j; have h0 := show ∀ y, Only [.regs, .mem, .tab, .sites, .mig, .load, .sent] (j y) from (by intro _; unfold j; exact (by split; exact (Only.skip _); exact (Only.ite (by extract_lets -underBinder -merge -useContext +onlyGivenNames j; (try clear_value j); exact (Only.bind ((gWrite_only _ _ _ _).sub rfl) (fun _ => (by extract_lets -underBinder -merge -useContext +onlyGivenNames j; (try clear_value j); exact (Only.ite (Only.bind ((modLoad_only _).sub rfl) (fun _ => (Only.bind ((readFinished_only _).sub rfl) (fun _ => ((qpPump_only _ _).sub rfl))))) ((modLoad_only _).sub rfl)))))) (Only.pure _ _)))); clear_value j; exact (Only.ite (Only.bind ((sendCnp_only _).sub rfl) (fun _ => (h0 _))) (h0 _))))))))

theorem keyInstall_only (x0) : Only [.regs, .mem, .tab, .load] (keyInstall x0) := by
  delta keyInstall
  exact (loadTake_only _ _ (fun _ _ => (Only.bind (Only.get _) (fun _ => (by split; exact ((loadEnd_only _ _ _ _).sub rfl); exact (Only.ite ((loadEnd_only _ _ _ _).sub rfl) (Only.bind ((spRead_only _ _ _ _ _).sub rfl) (fun _ => (by split; exact ((loadEnd_only _ _ _ _).sub rfl); exact (by split; exact ((loadEnd_only _ _ _ _).sub rfl); exact (by split; exact ((loadEnd_only _ _ _ _).sub rfl); exact (by split; exact ((loadEnd_only _ _ _ _).sub rfl); exact (Only.bind ((modLoad_only _).sub rfl) (fun _ => (Only.bind ((hubStore_only _ _ _).sub rfl) (fun _ => ((loadEnd_only _ _ _ _).sub rfl)))))))))))))))) rfl)

theorem peerReq_only (x0) : Only [.regs, .mem, .ports, .load, .sent] (peerReq x0) := by
  delta peerReq
  exact (onPacket_only _ _ (fun _ => (by split; exact (Only.skip _); exact (Only.bind (Only.get _) (fun _ => (by extract_lets -underBinder -merge -useContext +onlyGivenNames j; (try clear_value j); exact (by extract_lets -underBinder -merge -useContext +onlyGivenNames j; (try clear_value j); exact (by extract_lets -underBinder -merge -useContext +onlyGivenNames j; have h0 := show Only [.regs, .mem, .ports, .load, .sent] j from ((replyTo_only _ _ _ _ _ _).sub rfl); clear_value j; exact (by split; exact (h0); exact (by split; exact (by extract_lets -underBinder -merge -useContext +onlyGivenNames j; (try clear_value j); exact (Only.ite (h0) (Only.bind ((gRead_only _ _ _ _).sub rfl) (fun _ => (by split; exact (h0); exact (by extract_lets -underBinder -merge -useContext +onlyGivenNames j; (try clear_value j); exact (by extract_lets -underBinder -merge -useContext +onlyGivenNames j; (try clear_value j); exact (Only.bind ((modLoad_only _).sub rfl) (fun _ => (Only.bind ((count_only _ _).sub rfl) (fun _ => (by extract_lets -underBinder -merge -useContext +onlyGivenNames j; (try clear_value j); exact (Only.bind (Only.forIn _ _ (fun _ _ => (Only.bind ((replyTo_only _ _ _ _ _ _).sub rfl) (fun _ => (Only.pure _ _))))) (fun _ => (Only.pure _ _))))))))))))))); exact (h0)))))))))) rfl)

theorem chunkAttempt_only : ∀ x0 x1 x2 x3, Only [.regs, .tab, .ports, .load, .sent] (chunkAttempt x0 x1 x2 x3)
  | _, _, _, (0) => by
    rw [chunkAttempt]
    exact (Only.skip _)
  | _, _, _, (fuel + 1) => by
    rw [chunkAttempt]
    exact (Only.bind (Only.get _) (fun _ => (by split; exact (Only.skip _); exact (by split; exact (Only.skip _); exact (by extract_lets -underBinder -merge -useContext +onlyGivenNames j; (try clear_value j); exact (by extract_lets -underBinder -merge -useContext +onlyGivenNames j; (try clear_value j); exact (Only.ite (Only.bind ((putChunk_only _ _).sub rfl) (fun _ => (by split; exact (Only.ite (Only.bind ((readRequests_only _ _ _ _ _ _ _ _ _).sub rfl) (fun _ => ((qpPump_only _ _).sub rfl))) (Only.bind ((count_only _ _).sub rfl) (fun _ => (Only.bind ((putChunk_only _ _).sub rfl) (fun _ => ((chunkAttempt_only _ _ _ _).sub rfl))))))))) (Only.ite (Only.bind ((putChunk_only _ _).sub rfl) (fun _ => (by split; exact (by extract_lets -underBinder -merge -useContext +onlyGivenNames j; (try clear_value j); exact (Only.bind ((sendAuto_only _ _ _ _ _ _ _).sub rfl) (fun _ => (Only.pure _ _)))); exact (Only.skip _)))) ((chunkReturn_only _ _ _ _).sub rfl)))))))))

theorem streamFill_only : ∀ x0 x1 x2, Only [.regs, .tab, .ports, .load, .sent] (streamFill x0 x1 x2)
  | _, _, (0) => by
    rw [streamFill]
    exact (Only.skip _)
  | _, _, (fuel + 1) => by
    rw [streamFill]
    exact (Only.bind (Only.get _) (fun _ => (by split; exact (Only.skip _); exact (Only.ite (by split; exact (Only.skip _); exact (Only.bind ((putStream_only _).sub rfl) (fun _ => (Only.bind ((chunkAttempt_only _ _ _ _).sub rfl) (fun _ => ((streamFill_only _ _ _).sub rfl)))))) (Only.pure _ _)))))

theorem loadStart_only (x0) : Only [.regs, .mem, .tab, .ports, .load, .sent] (loadStart x0) := by
  delta loadStart
  exact (Only.bind (Only.get _) (fun _ => (by split; exact (Only.skip _); exact (Only.ite (Only.pure _ _) (by extract_lets -underBinder -merge -useContext +onlyGivenNames j; have h0 := show Only [.regs, .mem, .tab, .ports, .load, .sent] j from ((wrF_only _ _ _).sub rfl); clear_value j; exact (by extract_lets -underBinder -merge -useContext +onlyGivenNames j; have h1 := show ∀ y, Only [.regs, .mem, .tab, .ports, .load, .sent] (j y) from (fun _ => (Only.bind (h0) (fun _ => ((loadEnd_only _ _ _ _).sub rfl)))); clear_value j; exact (Only.ite (h1 _) (by split; exact (h1 _); exact (Only.ite (h1 _) (Only.ite (h1 _) (Only.bind ((readPlace_only _ _ _).sub rfl) (fun _ => (by split; exact (h1 _); exact (by extract_lets -underBinder -merge -useContext +onlyGivenNames j; (try clear_value j); exact (Only.ite (h1 _) (Only.ite (by extract_lets -underBinder -merge -useContext +onlyGivenNames j; have h2 := show ∀ y, Only [.regs, .mem, .tab, .ports, .load, .sent] (j y) from (fun _ => (h1 _)); clear_value j; exact (Only.ite (Only.bind ((vlog_only _ _ _).sub rfl) (fun _ => (h2 _))) (h2 _))) (Only.bind ((spRead_only _ _ _ _ _).sub rfl) (fun _ => (by split; exact (h1 _); exact (by extract_lets -underBinder -merge -useContext +onlyGivenNames j; (try clear_value j); exact (Only.ite (Only.pure _ _) (Only.bind (h0) (fun _ => (Only.bind ((modLoad_only _).sub rfl) (fun _ => (by extract_lets -underBinder -merge -useContext +onlyGivenNames j; have h2 := show ∀ y, Only [.regs, .mem, .tab, .ports, .load, .sent] (j y) from (fun _ => (Only.bind ((showIngress_only).sub rfl) (fun _ => ((streamFill_only _ _ _).sub rfl)))); clear_value j; exact (Only.ite (Only.bind ((wrF_only _ _ _).sub rfl) (fun _ => (Only.ite (Only.bind ((setBaseState_only _ _).sub rfl) (fun _ => (h2 _))) (h2 _)))) (h2 _))))))))))))))))))))))))))))

theorem flashReturns_only (x0 x1) : Only [.regs, .tab, .ports, .flash, .load, .sent] (flashReturns x0 x1) := by
  delta flashReturns
  exact (Only.bind (Only.get _) (fun _ => (by split; exact (Only.skip _); exact (Only.bind (Only.forIn _ _ (fun _ _ => (Only.ite (by split; exact (by split; exact (Only.bind ((modFlash_only _).sub rfl) (fun _ => (Only.bind (Only.rd _ _) (fun _ => (by split; exact (Only.bind ((chunkReturn_only _ _ _ _).sub rfl) (fun _ => (Only.pure _ _))); exact (Only.bind (Only.skip _) (fun _ => (Only.pure _ _)))))))); exact (Only.bind (Only.skip _) (fun _ => (Only.pure _ _)))); exact (Only.bind (Only.skip _) (fun _ => (Only.pure _ _)))) (Only.pure _ _)))) (fun _ => ((streamFill_only _ _ _).sub rfl))))))

theorem chunkNext_only (x0 x1 x2) : Only [.regs, .tab, .ports, .load, .sent] (chunkNext x0 x1 x2) := by
  delta chunkNext
  exact (Only.bind (Only.rd _ _) (fun _ => (by split; exact (Only.skip _); exact (by split; exact (Only.skip _); exact (Only.bind ((modLoad_only _).sub rfl) (fun _ => (Only.bind ((putChunk_only _ _).sub rfl) (fun _ => ((chunkAttempt_only _ _ _ _).sub rfl)))))))))

theorem peerNotHeld_only (x0) : Only [.regs, .mem, .tab, .ports, .load, .sent] (peerNotHeld x0) := by
  delta peerNotHeld
  exact (onPacket_only _ _ (fun _ => (by split; exact (Only.skip _); exact (Only.bind (Only.rd _ _) (fun _ => (by split; exact (Only.skip _); exact (Only.bind ((count_only _ _).sub rfl) (fun _ => ((chunkNext_only _ _ _).sub rfl)))))))) rfl)

theorem qpError_only (x0) : Only [.regs, .tab, .ports, .load, .sent] (qpError x0) := by
  delta qpError
  exact (Only.bind (Only.get _) (fun _ => (Only.bind ((qpSet_only _ _ _ _).sub rfl) (fun _ => (by extract_lets -underBinder -merge -useContext +onlyGivenNames j; (try clear_value j); exact (Only.bind ((modLoad_only _).sub rfl) (fun _ => (Only.bind (Only.forIn _ _ (fun _ _ => (Only.bind ((count_only _ _).sub rfl) (fun _ => (Only.bind ((chunkNext_only _ _ _).sub rfl) (fun _ => (Only.pure _ _))))))) (fun _ => (Only.pure _ _))))))))))

theorem qpRetry_only (x0) : Only [.regs, .tab, .ports, .load, .sent] (qpRetry x0) := by
  delta qpRetry
  exact (Only.bind (Only.get _) (fun _ => (by split; exact (Only.skip _); exact (Only.ite (Only.bind ((modLoad_only _).sub rfl) (fun _ => ((qpResend_only _).sub rfl))) ((qpError_only _).sub rfl)))))

theorem chunkLanded_only (x0 x1 x2) : Only [.regs, .mem, .tab, .ports, .sites, .mig, .flash, .load, .sent] (chunkLanded x0 x1 x2) := by
  delta chunkLanded
  exact (Only.bind (Only.get _) (fun _ => (by split; exact (Only.skip _); exact (by split; exact (Only.skip _); exact (by extract_lets -underBinder -merge -useContext +onlyGivenNames j; (try clear_value j); exact (by extract_lets -underBinder -merge -useContext +onlyGivenNames j; (try clear_value j); exact (Only.bind ((gRead_only _ _ _ _).sub rfl) (fun _ => (by split; exact ((chunkNext_only _ _ _).sub rfl); exact (Only.bind ((count_only _ _).sub rfl) (fun _ => (by split; exact (Only.bind ((count_only _ _).sub rfl) (fun _ => ((chunkNext_only _ _ _).sub rfl))); exact (Only.bind ((count_only _ _).sub rfl) (fun _ => (by extract_lets -underBinder -merge -useContext +onlyGivenNames j; have h0 := show ∀ y, Only [.regs, .mem, .tab, .ports, .sites, .mig, .flash, .load, .sent] (j y) from (fun _ => (Only.ite (Only.bind ((gWrite_only _ _ _ _).sub rfl) (fun _ => (Only.bind ((putChunk_only _ _).sub rfl) (fun _ => (by extract_lets -underBinder -merge -useContext +onlyGivenNames j; (try clear_value j); exact (by extract_lets -underBinder -merge -useContext +onlyGivenNames j; (try clear_value j); exact (Only.bind ((modFlash_only _).sub rfl) (fun _ => (Only.bind ((writeUnit_only _).sub rfl) (fun _ => ((logPump_only).sub rfl))))))))))) (Only.bind ((gWrite_only _ _ _ _).sub rfl) (fun _ => (by extract_lets -underBinder -merge -useContext +onlyGivenNames j; have h0 := show ∀ y, Only [.regs, .mem, .tab, .ports, .sites, .mig, .flash, .load, .sent] (j y) from (fun _ => ((streamFill_only _ _ _).sub rfl)); clear_value j; exact (by split; exact (Only.bind ((chunkReturn_only _ _ _ _).sub rfl) (fun _ => (h0 _))); exact (Only.bind ((chunkReturn_only _ _ _ _).sub rfl) (fun _ => (h0 _))))))))); clear_value j; exact (Only.ite (Only.bind ((count_only _ _).sub rfl) (fun _ => (h0 _))) (h0 _)))))))))))))))))

theorem roceNak_only (x0 x1 x2) : Only [.regs, .tab, .ports, .load, .sent] (roceNak x0 x1 x2) := by
  delta roceNak
  exact (Only.bind ((roceTakes_only _ _).sub rfl) (fun _ => (Only.ite (Only.bind (Only.get _) (fun _ => (Only.bind ((count_only _ _).sub rfl) (fun _ => (Only.bind ((modLoad_only _).sub rfl) (fun _ => (Only.ite ((qpError_only _).sub rfl) ((qpRetry_only _).sub rfl)))))))) (Only.pure _ _))))

theorem roceTimeout_only (x0) : Only [.regs, .tab, .ports, .load, .sent] (roceTimeout x0) := by
  delta roceTimeout
  exact (Only.bind (Only.get _) (fun _ => (Only.ite ((qpRetry_only _).sub rfl) (Only.pure _ _))))

theorem chunkTimeout_only (x0 x1 x2) : Only [.regs, .tab, .ports, .load, .sent] (chunkTimeout x0 x1 x2) := by
  delta chunkTimeout
  exact (Only.bind (Only.get _) (fun _ => (by split; exact (Only.skip _); exact (by split; exact (Only.skip _); exact (Only.ite (Only.bind ((count_only _ _).sub rfl) (fun _ => ((chunkNext_only _ _ _).sub rfl))) (Only.pure _ _))))))

theorem loadDone_only (x0 x1) : Only [.regs, .mem, .tab, .ports, .flash, .load, .sent] (loadDone x0 x1) := by
  delta loadDone
  exact (Only.bind ((flashReturns_only _ _).sub rfl) (fun _ => (Only.bind (Only.get _) (fun _ => (by split; exact (Only.skip _); exact (Only.ite (Only.pure _ _) (Only.bind ((modLoad_only _).sub rfl) (fun _ => (by extract_lets -underBinder -merge -useContext +onlyGivenNames j; have h0 := show ∀ y, Only [.regs, .mem, .tab, .ports, .flash, .load, .sent] (j y) from (fun _ => ((loadEnd_only _ _ _ _).sub rfl)); clear_value j; exact (by split; exact (by extract_lets -underBinder -merge -useContext +onlyGivenNames j; have h1 := show ∀ y, Only [.regs, .mem, .tab, .ports, .flash, .load, .sent] (j y) from (fun _ => (Only.ite (Only.bind ((wrF_only _ _ _).sub rfl) (fun _ => (h0 _))) (h0 _))); clear_value j; exact (Only.ite (Only.bind ((setBaseState_only _ _).sub rfl) (fun _ => (h1 _))) (h1 _))); exact (Only.bind (Only.skip _) (fun _ => (h0 _)))))))))))))

end Sys2Proof.Machine
end

