-- ==== Sys2Proof/Laws/FramePower.lean ====
section
/-! SUPPORT. Which fields of the state each operation can change, and that it always goes on: power, borders, tile control and snapshots.
One lemma for each operation, over the lemmas of what it calls. -/

namespace Sys2Proof.Machine

theorem modPwr_only (x0) : Only [.pwr] (modPwr x0) := by
  delta modPwr
  exact (Only.bind (Only.rd _ _) (fun _ => (Only.upd _ rfl)))

theorem vinLoss_only : Only [.regs, .mem, .tab, .parts, .land, .sent, .free] vinLoss := by
  delta vinLoss
  exact (Only.bind ((modLand_only _).sub rfl) (fun _ => (Only.bind (Only.upd _ rfl) (fun _ => (Only.bind (Only.rd _ _) (fun _ => (Only.ite (Only.bind ((modLand_only _).sub rfl) (fun _ => (Only.bind ((pkgFail_only).sub rfl) (fun _ => ((lowFault_only).sub rfl))))) (Only.pure _ _))))))))

theorem thermalTrip_only : Only [.regs, .tab, .parts, .land, .sent, .free] thermalTrip := by
  delta thermalTrip
  exact (Only.bind ((rdF_only _ _).sub rfl) (fun _ => (Only.ite (Only.bind (Only.rd _ _) (fun _ => (Only.bind ((wrF_only _ _ _).sub rfl) (fun _ => (Only.bind ((wrF_only _ _ _).sub rfl) (fun _ => (Only.bind ((modLand_only _).sub rfl) (fun _ => (Only.bind ((setIrq_only _ _).sub rfl) (fun _ => (Only.bind ((lowTrip_only).sub rfl) (fun _ => ((pkgFail_only).sub rfl))))))))))))) (Only.pure _ _))))

theorem powerMicrosecond_only (x0) : Only [.regs] (powerMicrosecond x0) := by
  delta powerMicrosecond
  exact (Only.bind (Only.get _) (fun _ => (by extract_lets -underBinder -merge -useContext +onlyGivenNames j; have h0 := show ∀ y, Only [.regs] (j y) from (by intro _; unfold j; exact (by extract_lets -underBinder -merge -useContext +onlyGivenNames j; have h0 := show ∀ y, Only [.regs] (j y) from (by intro _; unfold j; exact (by extract_lets -underBinder -merge -useContext +onlyGivenNames j; have h0 := show ∀ y, Only [.regs] (j y) from (fun _ => (Only.ite ((count_only _ _).sub rfl) (Only.pure _ _))); clear_value j; exact (Only.ite (Only.bind ((count_only _ _).sub rfl) (fun _ => (h0 _))) (h0 _)))); clear_value j; exact (Only.ite (Only.bind ((count_only _ _).sub rfl) (fun _ => (h0 _))) (h0 _)))); clear_value j; exact (Only.ite (Only.bind ((count_only _ _).sub rfl) (fun _ => (h0 _))) (h0 _)))))

theorem divide_only (x0) : Only [.regs] (divide x0) := by
  delta divide
  exact (Only.bind ((rdF_only _ _).sub rfl) (fun _ => ((wrF_only _ _ _).sub rfl)))

theorem vinRecover_only : Only [.pwr] vinRecover := by
  delta vinRecover
  exact ((modPwr_only _).sub rfl)

theorem vfStep_only : Only [.regs, .pwr] vfStep := by
  delta vfStep
  exact (Only.bind (Only.get _) (fun _ => (Only.ite (by extract_lets -underBinder -merge -useContext +onlyGivenNames j; (try clear_value j); exact (Only.bind (Only.forIn _ _ (fun _ _ => (Only.ite (Only.bind ((wrF_only _ _ _).sub rfl) (fun _ => (Only.bind ((count_only _ _).sub rfl) (fun _ => (Only.pure _ _))))) (Only.pure _ _)))) (fun _ => (Only.bind ((modPwr_only _).sub rfl) (fun _ => (Only.ite ((wrF_only _ _ _).sub rfl) (Only.pure _ _))))))) (Only.pure _ _))))

theorem thermalEdge_only (x0) : Only [.regs, .pwr] (thermalEdge x0) := by
  delta thermalEdge
  exact (Only.bind (Only.get _) (fun _ => (by extract_lets -underBinder -merge -useContext +onlyGivenNames j; (try clear_value j); exact (by extract_lets -underBinder -merge -useContext +onlyGivenNames j; (try clear_value j); exact (by extract_lets -underBinder -merge -useContext +onlyGivenNames j; have h0 := show ∀ y, Only [.regs, .pwr] (j y) from (by intro _; unfold j; exact (by extract_lets -underBinder -merge -useContext +onlyGivenNames j; (try clear_value j); exact ((modPwr_only _).sub rfl))); clear_value j; exact (Only.ite (Only.bind ((wrF_only _ _ _).sub rfl) (fun _ => (h0 _))) (Only.ite (Only.bind ((wrF_only _ _ _).sub rfl) (fun _ => (h0 _))) (h0 _))))))))

theorem markBad_only (x0) : Only [.regs, .tab] (markBad x0) := by
  delta markBad
  exact (Only.bind (Only.rd _ _) (fun _ => (Only.ite (Only.bind ((stW_only _ _).sub rfl) (fun _ => (Only.bind ((count_only _ _).sub rfl) (fun _ => ((setIrq_only _ _).sub rfl))))) (Only.pure _ _))))

theorem droop_only (x0 x1) : Only [.regs] (droop x0 x1) := by
  delta droop
  exact (Only.bind ((count_only _ _).sub rfl) (fun _ => (Only.bind ((rdF_only _ _).sub rfl) (fun _ => ((count_only _ _).sub rfl)))))

theorem vfChoose_only : Only [.regs, .pwr] vfChoose := by
  delta vfChoose
  exact (Only.bind (Only.get _) (fun _ => (by extract_lets -underBinder -merge -useContext +onlyGivenNames j; (try clear_value j); exact (by extract_lets -underBinder -merge -useContext +onlyGivenNames j; (try clear_value j); exact (Only.bind ((wrF_only _ _ _).sub rfl) (fun _ => (Only.bind ((wrF_only _ _ _).sub rfl) (fun _ => (Only.bind ((modPwr_only _).sub rfl) (fun _ => (Only.ite (Only.bind ((modPwr_only _).sub rfl) (fun _ => (Only.ite ((wrF_only _ _ _).sub rfl) (Only.pure _ _)))) (Only.pure _ _))))))))))))

theorem takeReading_only (x0 x1) : Only [.regs, .tab] (takeReading x0 x1) := by
  delta takeReading
  exact (Only.bind (Only.rd _ _) (fun _ => (Only.ite (Only.ite ((markBad_only _).sub rfl) ((stW_only _ _).sub rfl)) (Only.pure _ _))))

theorem energySample_only (x0 x1 x2) : Only [.regs, .pwr] (energySample x0 x1 x2) := by
  delta energySample
  exact (Only.bind (Only.get _) (fun _ => (by extract_lets -underBinder -merge -useContext +onlyGivenNames j; (try clear_value j); exact (by extract_lets -underBinder -merge -useContext +onlyGivenNames j; (try clear_value j); exact (Only.bind ((modPwr_only _).sub rfl) (fun _ => (by extract_lets -underBinder -merge -useContext +onlyGivenNames j; (try clear_value j); exact (Only.bind ((wrR_only _ _).sub rfl) (fun _ => (Only.bind ((wrF_only _ _ _).sub rfl) (fun _ => ((wrF_only _ _ _).sub rfl))))))))))))

theorem dividerRelease_only : Only [.regs] dividerRelease := by
  delta dividerRelease
  exact (Only.bind (Only.get _) (fun _ => (by split; exact (Only.skip _); exact (Only.bind ((wrF_only _ _ _).sub rfl) (fun _ => ((wrF_only _ _ _).sub rfl))))))

theorem divideHeld_only (x0) : Only [.regs, .pwr] (divideHeld x0) := by
  delta divideHeld
  exact (Only.bind ((divide_only _).sub rfl) (fun _ => ((modPwr_only _).sub rfl)))

theorem showThermal_only (x0) : Only [.regs] (showThermal x0) := by
  delta showThermal
  exact (Only.bind (Only.get _) (fun _ => (by extract_lets -underBinder -merge -useContext +onlyGivenNames j; (try clear_value j); exact (by extract_lets -underBinder -merge -useContext +onlyGivenNames j; have h0 := show ∀ y, Only [.regs] (j y) from (fun _ => (Only.bind ((wrF_only _ _ _).sub rfl) (fun _ => (Only.ite (Only.bind ((wrF_only _ _ _).sub rfl) (fun _ => ((setPageFault_only _).sub rfl))) (Only.pure _ _))))); clear_value j; exact (by split; exact (Only.bind ((wrF_only _ _ _).sub rfl) (fun _ => (Only.bind ((wrF_only _ _ _).sub rfl) (fun _ => (h0 _))))); exact (Only.bind ((wrF_only _ _ _).sub rfl) (fun _ => (Only.bind ((wrF_only _ _ _).sub rfl) (fun _ => (h0 _))))))))))

theorem thermalActions_only (x0) : Only [.regs, .tab, .parts, .pwr, .land, .sent, .free] (thermalActions x0) := by
  delta thermalActions
  exact (Only.bind (Only.get _) (fun _ => (by extract_lets -underBinder -merge -useContext +onlyGivenNames j; (try clear_value j); exact (by extract_lets -underBinder -merge -useContext +onlyGivenNames j; (try clear_value j); exact (by extract_lets -underBinder -merge -useContext +onlyGivenNames j; (try clear_value j); exact (Only.bind ((wrF_only _ _ _).sub rfl) (fun _ => (by extract_lets -underBinder -merge -useContext +onlyGivenNames j; have h0 := show ∀ y, Only [.regs, .tab, .parts, .pwr, .land, .sent, .free] (j y) from (by intro _; unfold j; exact (by extract_lets -underBinder -merge -useContext +onlyGivenNames j; have h0 := show ∀ y, Only [.regs, .tab, .parts, .pwr, .land, .sent, .free] (j y) from (fun _ => (Only.ite ((thermalTrip_only).sub rfl) (Only.pure _ _))); clear_value j; exact (Only.ite (Only.bind ((divideHeld_only _).sub rfl) (fun _ => (Only.bind ((wrF_only _ _ _).sub rfl) (fun _ => (Only.bind ((setIrq_only _ _).sub rfl) (fun _ => (Only.bind ((count_only _ _).sub rfl) (fun _ => (h0 _))))))))) (h0 _)))); clear_value j; exact (Only.ite (Only.bind ((modPwr_only _).sub rfl) (fun _ => (h0 _))) (h0 _))))))))))

theorem stageFail_only (x0) : Only [.regs, .tab, .parts, .pwr, .land, .sent, .free] (stageFail x0) := by
  delta stageFail
  exact (by split; exact (Only.bind ((rdF_only _ _).sub rfl) (fun _ => (Only.bind ((wrF_only _ _ _).sub rfl) (fun _ => (Only.bind ((setIrq_only _ _).sub rfl) (fun _ => (Only.ite (Only.ite ((divideHeld_only _).sub rfl) ((pkgFail_only).sub rfl)) (Only.pure _ _)))))))))

theorem capGuard_only : Only [.regs, .pwr] capGuard := by
  delta capGuard
  exact (Only.bind (Only.get _) (fun _ => (by extract_lets -underBinder -merge -useContext +onlyGivenNames j; (try clear_value j); exact (by extract_lets -underBinder -merge -useContext +onlyGivenNames j; (try clear_value j); exact (Only.ite (by extract_lets -underBinder -merge -useContext +onlyGivenNames j; (try clear_value j); exact (Only.ite (Only.ite (Only.bind ((wrF_only _ _ _).sub rfl) (fun _ => ((setIrq_only _ _).sub rfl))) (Only.pure _ _)) (Only.ite (Only.bind (Only.forIn _ _ (fun _ _ => (Only.bind ((divideHeld_only _).sub rfl) (fun _ => (Only.pure _ _))))) (fun _ => ((count_only _ _).sub rfl))) (Only.pure _ _)))) (Only.pure _ _))))))

theorem powerEdge_only : Only [.regs, .pwr] powerEdge := by
  delta powerEdge
  exact (Only.bind (Only.forIn _ _ (fun _ _ => (Only.bind ((thermalEdge_only _).sub rfl) (fun _ => (Only.bind ((rdF_only _ _).sub rfl) (fun _ => (Only.ite (Only.bind ((modPwr_only _).sub rfl) (fun _ => (Only.pure _ _))) (Only.pure _ _)))))))) (fun _ => (Only.bind (Only.rd _ _) (fun _ => (Only.bind ((wrF_only _ _ _).sub rfl) (fun _ => (Only.bind ((wrF_only _ _ _).sub rfl) (fun _ => (Only.bind ((modPwr_only _).sub rfl) (fun _ => (Only.bind ((vfChoose_only).sub rfl) (fun _ => (Only.bind (Only.get _) (fun _ => (Only.ite ((wrF_only _ _ _).sub rfl) (Only.pure _ _))))))))))))))))

theorem thermalSample_only (x0 x1) : Only [.regs, .tab, .parts, .pwr, .land, .sent, .free] (thermalSample x0 x1) := by
  delta thermalSample
  exact (Only.bind (Only.get _) (fun _ => (by extract_lets -underBinder -merge -useContext +onlyGivenNames j; have h0 := show ∀ y, Only [.regs, .tab, .parts, .pwr, .land, .sent, .free] (j y) from (fun _ => (Only.bind ((showThermal_only _).sub rfl) (fun _ => ((thermalActions_only _).sub rfl)))); clear_value j; exact (Only.ite (Only.bind (Only.forIn _ _ (fun _ _ => (Only.bind ((takeReading_only _ _).sub rfl) (fun _ => (Only.pure _ _))))) (fun _ => (h0 _))) (h0 _)))))

theorem curbRaised_only : Only [.regs, .pwr] curbRaised := by
  delta curbRaised
  exact (Only.bind (Only.forIn _ _ (fun _ _ => (Only.bind ((divide_only _).sub rfl) (fun _ => (Only.pure _ _))))) (fun _ => (Only.bind (Only.rd _ _) (fun _ => (Only.bind ((wrF_only _ _ _).sub rfl) (fun _ => ((vfChoose_only).sub rfl)))))))

theorem curbMoved_only : Only [.regs, .pwr] curbMoved := by
  delta curbMoved
  exact (Only.bind (Only.get _) (fun _ => (Only.ite ((curbRaised_only).sub rfl) (Only.pure _ _))))

theorem calibrate_only (x0 x1) : Only [.regs, .tab, .pwr, .free] (calibrate x0 x1) := by
  delta calibrate
  exact (Only.bind (Only.rd _ _) (fun _ => (Only.bind ((count_only _ _).sub rfl) (fun _ => (Only.bind ((modPwr_only _).sub rfl) (fun _ => (Only.bind (Only.forIn _ _ (fun _ _ => (by extract_lets -underBinder -merge -useContext +onlyGivenNames j; (try clear_value j); exact (Only.ite (Only.bind ((markBad_only _).sub rfl) (fun _ => (Only.pure _ _))) (Only.bind (Only.rd _ _) (fun _ => (Only.ite (Only.bind ((freshBelow_only _).sub rfl) (fun _ => (Only.bind ((stW_only _ _).sub rfl) (fun _ => (Only.pure _ _))))) (Only.pure _ _)))))))) (fun _ => ((showThermal_only _).sub rfl)))))))))

theorem curbEdge_only (x0) : Only [.regs, .pwr] (curbEdge x0) := by
  delta curbEdge
  exact (Only.bind (Only.get _) (fun _ => (Only.ite (Only.bind ((modPwr_only _).sub rfl) (fun _ => (Only.bind ((count_only _ _).sub rfl) (fun _ => (Only.bind ((setIrq_only _ _).sub rfl) (fun _ => ((curbMoved_only).sub rfl))))))) (Only.pure _ _))))

theorem vinLow_only : Only [.regs, .pwr] vinLow := by
  delta vinLow
  exact (Only.bind (Only.rd _ _) (fun _ => (Only.ite (Only.bind ((modPwr_only _).sub rfl) (fun _ => (Only.bind ((wrF_only _ _ _).sub rfl) (fun _ => (Only.bind ((setIrq_only _ _).sub rfl) (fun _ => (Only.bind ((count_only _ _).sub rfl) (fun _ => ((curbMoved_only).sub rfl))))))))) (Only.pure _ _))))

theorem modMove_only (x0) : Only [.move] (modMove x0) := by
  delta modMove
  exact (Only.bind (Only.rd _ _) (fun _ => (Only.upd _ rfl)))

theorem zeroSlice_only (x0 x1) : Only [.mem] (zeroSlice x0 x1) := by
  delta zeroSlice
  exact (Only.bind (Only.get _) (fun _ => (by extract_lets -underBinder -merge -useContext +onlyGivenNames j; (try clear_value j); exact (by extract_lets -underBinder -merge -useContext +onlyGivenNames j; (try clear_value j); exact (by extract_lets -underBinder -merge -useContext +onlyGivenNames j; (try clear_value j); exact (Only.bind (Only.forIn _ _ (fun _ _ => (Only.bind ((siteWriteByte_only _ _ _).sub rfl) (fun _ => (Only.pure _ _))))) (fun _ => (Only.pure _ _))))))))

theorem unitMove_only (x0 x1) : Only [.mem, .tab, .move] (unitMove x0 x1) := by
  delta unitMove
  exact (Only.bind (Only.get _) (fun _ => (by extract_lets -underBinder -merge -useContext +onlyGivenNames j; (try clear_value j); exact (Only.ite (Only.bind ((stW_only _ _).sub rfl) (fun _ => (Only.bind (Only.upd _ rfl) (fun _ => ((modMove_only _).sub rfl))))) (Only.pure _ _)))))

theorem shadowCopyDone_only : Only [.regs] shadowCopyDone := by
  delta shadowCopyDone
  exact ((wrF_only _ _ _).sub rfl)

theorem tileMapped_only (x0 x1) : Only [.regs, .tiles] (tileMapped x0 x1) := by
  delta tileMapped
  exact (Only.bind ((wrF_only _ _ _).sub rfl) (fun _ => (Only.bind ((wrF_only _ _ _).sub rfl) (fun _ => (Only.bind (Only.rd _ _) (fun _ => (Only.ite ((wrF_only _ _ _).sub rfl) (Only.bind (Only.rd _ _) (fun _ => (Only.ite ((modTile_only _ _).sub rfl) (Only.pure _ _)))))))))))

theorem showZero_only : Only [.regs] showZero := by
  delta showZero
  exact (Only.bind (Only.rd _ _) (fun _ => (Only.bind ((wrF_only _ _ _).sub rfl) (fun _ => ((wrF_only _ _ _).sub rfl)))))

theorem mapCommit_only (x0) : Only [.regs, .mem, .tab, .move] (mapCommit x0) := by
  delta mapCommit
  exact (Only.ite (Only.bind (Only.forIn _ _ (fun _ _ => (Only.bind (Only.get _) (fun _ => (by extract_lets -underBinder -merge -useContext +onlyGivenNames j; (try clear_value j); exact (by extract_lets -underBinder -merge -useContext +onlyGivenNames j; (try clear_value j); exact (by extract_lets -underBinder -merge -useContext +onlyGivenNames j; (try clear_value j); exact (by extract_lets -underBinder -merge -useContext +onlyGivenNames j; (try clear_value j); exact (by extract_lets -underBinder -merge -useContext +onlyGivenNames j; (try clear_value j); exact (Only.bind (Only.upd _ rfl) (fun _ => (Only.bind (Only.forIn _ _ (fun _ _ => (Only.bind ((stW_only _ _).sub rfl) (fun _ => (Only.pure _ _))))) (fun _ => (Only.bind (Only.forIn _ _ (fun _ _ => (Only.bind ((zeroSlice_only _ _).sub rfl) (fun _ => (Only.bind ((modMove_only _).sub rfl) (fun _ => (Only.pure _ _))))))) (fun _ => (Only.pure _ _)))))))))))))))) (fun _ => (Only.bind ((wrF_only _ _ _).sub rfl) (fun _ => ((showZero_only).sub rfl))))) (Only.pure _ _))

theorem hubUnitZeroDone_only (x0 x1) : Only [.regs, .move] (hubUnitZeroDone x0 x1) := by
  delta hubUnitZeroDone
  exact (Only.bind ((modMove_only _).sub rfl) (fun _ => ((showZero_only).sub rfl)))

theorem tileZeroDone_only (x0) : Only [.regs, .tiles] (tileZeroDone x0) := by
  delta tileZeroDone
  exact (Only.bind (Only.rd _ _) (fun _ => (Only.ite (Only.bind ((modTile_only _ _).sub rfl) (fun _ => (Only.bind (Only.rd _ _) (fun _ => (Only.ite ((wrF_only _ _ _).sub rfl) (Only.pure _ _)))))) (Only.pure _ _))))

theorem sliceZeroDone_only : Only [.regs, .move] sliceZeroDone := by
  delta sliceZeroDone
  exact (Only.bind ((modMove_only _).sub rfl) (fun _ => ((showZero_only).sub rfl)))

theorem tileClear_only (x0) : Only [.regs, .staged, .mem, .tab, .tiles] (tileClear x0) := by
  delta tileClear
  exact (Only.bind ((rdR_only _).sub rfl) (fun _ => (by extract_lets -underBinder -merge -useContext +onlyGivenNames j; (try clear_value j); exact (Only.bind (Only.upd _ rfl) (fun _ => (Only.bind ((wrR_only _ _).sub rfl) (fun _ => (Only.bind (Only.upd _ rfl) (fun _ => (Only.bind ((wrF_only _ _ _).sub rfl) (fun _ => (Only.bind (Only.upd _ rfl) (fun _ => (Only.bind (Only.upd _ rfl) (fun _ => (Only.bind (Only.upd _ rfl) (fun _ => (Only.upd _ rfl))))))))))))))))))

theorem tilePageOwner_only (x0) : Only [.regs] (tilePageOwner x0) := by
  delta tilePageOwner
  exact (Only.bind (Only.get _) (fun _ => (by extract_lets -underBinder -merge -useContext +onlyGivenNames j; (try clear_value j); exact (by extract_lets -underBinder -merge -useContext +onlyGivenNames j; (try clear_value j); exact (Only.bind ((wrF_only _ _ _).sub rfl) (fun _ => ((wrF_only _ _ _).sub rfl)))))))

theorem grantCheck_only : Only [.regs] grantCheck := by
  delta grantCheck
  exact (Only.bind (Only.rd _ _) (fun _ => (by split; exact (Only.skip _); exact (Only.bind ((wrF_only _ _ _).sub rfl) (fun _ => (Only.bind ((wrF_only _ _ _).sub rfl) (fun _ => (Only.bind ((count_only _ _).sub rfl) (fun _ => ((setPageFault_only _).sub rfl))))))))))

theorem mapsJudge_only : Only [.regs, .tab] mapsJudge := by
  delta mapsJudge
  exact (Only.bind (Only.get _) (fun _ => (by extract_lets -underBinder -merge -useContext +onlyGivenNames j; (try clear_value j); exact (Only.bind (Only.upd _ rfl) (fun _ => (Only.bind (Only.forIn _ _ (fun _ _ => (Only.ite (Only.bind ((stW_only _ _).sub rfl) (fun _ => (Only.bind ((setPageFault_only _).sub rfl) (fun _ => (Only.pure _ _))))) (Only.pure _ _)))) (fun _ => (Only.pure _ _))))))))

theorem tileUnmapped_only (x0) : Only [.regs, .tiles] (tileUnmapped x0) := by
  delta tileUnmapped
  exact (Only.bind ((wrF_only _ _ _).sub rfl) (fun _ => (Only.bind ((wrF_only _ _ _).sub rfl) (fun _ => (Only.bind (Only.rd _ _) (fun _ => (Only.ite (Only.bind ((modTile_only _ _).sub rfl) (fun _ => ((whenIdle_only _).sub rfl))) (Only.pure _ _))))))))

theorem nsMoves_only : Only [.regs, .mem, .tab, .sites, .mig, .flash] nsMoves := by
  delta nsMoves
  exact (Only.bind (Only.forIn _ _ (fun _ _ => (Only.bind (Only.get _) (fun _ => (by extract_lets -underBinder -merge -useContext +onlyGivenNames j; (try clear_value j); exact (Only.ite (Only.bind (Only.forIn _ _ (fun _ _ => (Only.ite (Only.bind ((unmapUnit_only _).sub rfl) (fun _ => (Only.pure _ _))) (Only.pure _ _)))) (fun _ => (Only.bind ((stW_only _ _).sub rfl) (fun _ => (Only.bind ((stW_only _ _).sub rfl) (fun _ => (Only.pure _ _))))))) (Only.pure _ _))))))) (fun _ => (Only.pure _ _)))

theorem mapCheck_only : Only [.regs, .tiles] mapCheck := by
  delta mapCheck
  exact (Only.bind (Only.get _) (fun _ => (by extract_lets -underBinder -merge -useContext +onlyGivenNames j; (try clear_value j); exact (Only.bind (Only.forIn _ _ (fun _ _ => (by split; exact (Only.bind ((tileMapped_only _ _).sub rfl) (fun _ => (Only.pure _ _))); exact (Only.ite (Only.bind ((tileUnmapped_only _).sub rfl) (fun _ => (Only.pure _ _))) (Only.pure _ _))))) (fun _ => (Only.bind ((ldW_only _).sub rfl) (fun _ => (Only.ite (Only.ite ((setPageFault_only _).sub rfl) ((clearPageFault_only _).sub rfl)) (Only.pure _ _)))))))))

theorem flushNow_only (x0) : Only [.regs, .mem, .tab, .tiles] (flushNow x0) := by
  delta flushNow
  exact (Only.bind ((discardUnissued_only _).sub rfl) (fun _ => (Only.bind (Only.rd _ _) (fun _ => (Only.bind (Only.forIn _ _ (fun _ _ => (Only.bind ((retireOp_only _ _ _).sub rfl) (fun _ => (Only.pure _ _))))) (fun _ => (Only.bind (Only.rd _ _) (fun _ => (Only.bind (Only.forIn _ _ (fun _ _ => (Only.bind ((signalOp_only _ _).sub rfl) (fun _ => (Only.pure _ _))))) (fun _ => (Only.pure _ _)))))))))))

theorem partSettle_only (x0) : Only [.regs, .ports, .parts, .col, .sent] (partSettle x0) := by
  delta partSettle
  exact (Only.bind (Only.get _) (fun _ => (by extract_lets -underBinder -merge -useContext +onlyGivenNames j; (try clear_value j); exact (by extract_lets -underBinder -merge -useContext +onlyGivenNames j; have h0 := show ∀ y, Only [.regs, .ports, .parts, .col, .sent] (j y) from (fun _ => (Only.ite (Only.bind ((wrF_only _ _ _).sub rfl) (fun _ => (Only.bind ((wrF_only _ _ _).sub rfl) (fun _ => ((unquenchPart_only _).sub rfl))))) (Only.pure _ _))); clear_value j; exact (Only.ite (Only.bind ((wrF_only _ _ _).sub rfl) (fun _ => (h0 _))) (h0 _))))))

theorem tileMove_only (x0 x1) : Only [.regs, .staged, .mem, .tab, .tiles] (tileMove x0 x1) := by
  delta tileMove
  exact (Only.bind (Only.get _) (fun _ => (by extract_lets -underBinder -merge -useContext +onlyGivenNames j; (try clear_value j); exact (Only.ite (Only.bind ((stW_only _ _).sub rfl) (fun _ => (by split; exact (Only.skip _); exact (by extract_lets -underBinder -merge -useContext +onlyGivenNames j; have h0 := show ∀ y, Only [.regs, .staged, .mem, .tab, .tiles] (j y) from (fun _ => (Only.bind ((flushNow_only _).sub rfl) (fun _ => (Only.bind ((tileClear_only _).sub rfl) (fun _ => (Only.ite (Only.bind ((wrF_only _ _ _).sub rfl) (fun _ => ((modTile_only _ _).sub rfl))) (Only.pure _ _))))))); clear_value j; exact (Only.ite (Only.bind ((count_only _ _).sub rfl) (fun _ => (h0 _))) (h0 _)))))) (Only.pure _ _)))))

theorem grantsSettle_only : Only [.regs, .staged, .mem, .tab, .ports, .parts, .sites, .tiles, .mig, .flash, .col, .move, .sent] grantsSettle := by
  delta grantsSettle
  exact (Only.bind (Only.forIn _ _ (fun _ _ => (Only.bind ((partSettle_only _).sub rfl) (fun _ => (Only.pure _ _))))) (fun _ => (Only.bind ((grantCheck_only).sub rfl) (fun _ => (Only.bind (Only.forIn _ _ (fun _ _ => (Only.bind (Only.rd _ _) (fun _ => (Only.bind ((tileMove_only _ _).sub rfl) (fun _ => (Only.pure _ _))))))) (fun _ => (Only.bind (Only.forIn _ _ (fun _ _ => (Only.bind ((tilePageOwner_only _).sub rfl) (fun _ => (Only.pure _ _))))) (fun _ => (Only.bind (Only.forIn _ _ (fun _ _ => (Only.bind (Only.forIn _ _ (fun _ _ => (Only.bind ((unitMove_only _ _).sub rfl) (fun _ => (Only.pure _ _))))) (fun _ => (Only.pure _ _))))) (fun _ => (Only.bind (Only.get _) (fun _ => (by extract_lets -underBinder -merge -useContext +onlyGivenNames j; (try clear_value j); exact (Only.bind (Only.forIn _ _ (fun _ _ => (Only.bind ((ringSettle_only _).sub rfl) (fun _ => (Only.pure _ _))))) (fun _ => (Only.bind (Only.forIn _ _ (fun _ _ => (Only.bind ((slotSettle_only _).sub rfl) (fun _ => (Only.pure _ _))))) (fun _ => (Only.bind ((nsMoves_only).sub rfl) (fun _ => ((showZero_only).sub rfl))))))))))))))))))))

theorem modMesh_only (x0) : Only [.mesh] (modMesh x0) := by
  delta modMesh
  exact (Only.bind (Only.rd _ _) (fun _ => (Only.upd _ rfl)))

theorem meshHop_only (x0 x1) : Only [.regs] (meshHop x0 x1) := by
  delta meshHop
  exact (Only.bind ((count_only _ _).sub rfl) (fun _ => (by split; exact ((count_only _ _).sub rfl); exact (Only.skip _))))

theorem quiesceComplete_only (x0) : Only [.regs] (quiesceComplete x0) := by
  delta quiesceComplete
  exact (Only.bind (Only.get _) (fun _ => (Only.ite (Only.pure _ _) (by extract_lets -underBinder -merge -useContext +onlyGivenNames j; have h0 := show ∀ y, Only [.regs] (j y) from (fun _ => ((wrF_only _ _ _).sub rfl)); clear_value j; exact (by split; exact (Only.ite (Only.pure _ _) (Only.ite (Only.bind ((wrF_only _ _ _).sub rfl) (fun _ => (h0 _))) (h0 _))); exact (Only.bind (Only.skip _) (fun _ => (h0 _))))))))

theorem selftestBegin_only (x0) : Only [.regs] (selftestBegin x0) := by
  delta selftestBegin
  exact (Only.bind ((wrF_only _ _ _).sub rfl) (fun _ => ((wrF_only _ _ _).sub rfl)))

theorem outListChanged_only : Only [.regs, .mesh] outListChanged := by
  delta outListChanged
  exact (Only.bind (Only.get _) (fun _ => (Only.bind ((wrF_only _ _ _).sub rfl) (fun _ => ((modMesh_only _).sub rfl)))))

theorem pageControlled_only (x0) : Only [.regs] (pageControlled x0) := by
  delta pageControlled
  exact (Only.bind (Only.get _) (fun _ => (Only.ite (Only.pure _ _) (Only.bind ((wrF_only _ _ _).sub rfl) (fun _ => (Only.ite (Only.bind ((wrF_only _ _ _).sub rfl) (fun _ => (by split; exact (Only.ite ((wrF_only _ _ _).sub rfl) (Only.pure _ _)); exact (Only.skip _)))) (Only.pure _ _)))))))

theorem bulkLost_only (x0) : Only [.regs] (bulkLost x0) := by
  delta bulkLost
  exact (Only.bind ((wrF_only _ _ _).sub rfl) (fun _ => ((setPageFault_only _).sub rfl)))

theorem meshSend_only (x0) : Only [.regs, .mesh, .sent] (meshSend x0) := by
  delta meshSend
  exact (Only.bind (Only.rd _ _) (fun _ => (by split; exact (Only.ite ((send_only _).sub rfl) (Only.pure _ _)); exact (by extract_lets -underBinder -merge -useContext +onlyGivenNames j; have h0 := show ∀ y, Only [.regs, .mesh, .sent] (j y) from (by intro _; unfold j; exact (by extract_lets -underBinder -merge -useContext +onlyGivenNames j; have h0 := show ∀ y, Only [.regs, .mesh, .sent] (j y) from (fun _ => (Only.bind (Only.rd _ _) (fun _ => (Only.bind (Only.forIn _ _ (fun _ _ => (Only.bind ((meshHop_only _ _).sub rfl) (fun _ => (Only.pure _ _))))) (fun _ => ((send_only _).sub rfl)))))); clear_value j; exact (Only.ite (Only.bind ((count_only _ _).sub rfl) (fun _ => (h0 _))) (h0 _)))); clear_value j; exact (Only.ite (Only.bind ((count_only _ _).sub rfl) (fun _ => (h0 _))) (h0 _))); exact (Only.bind ((count_only _ _).sub rfl) (fun _ => (Only.bind ((setPageFault_only _).sub rfl) (fun _ => ((modMesh_only _).sub rfl))))))))

theorem coreFail_only (x0) : Only [.regs, .tab, .parts, .land, .sent, .free] (coreFail x0) := by
  delta coreFail
  exact (Only.bind (Only.get _) (fun _ => (by extract_lets -underBinder -merge -useContext +onlyGivenNames j; (try clear_value j); exact (by extract_lets -underBinder -merge -useContext +onlyGivenNames j; (try clear_value j); exact (Only.ite (Only.pure _ _) (Only.bind ((wrR_only _ _).sub rfl) (fun _ => (Only.ite (Only.pure _ _) (by split; exact ((wrR_only _ _).sub rfl); exact (Only.ite (by extract_lets -underBinder -merge -useContext +onlyGivenNames j; (try clear_value j); exact (Only.bind ((wrF_only _ _ _).sub rfl) (fun _ => (Only.bind ((setPageFault_only _).sub rfl) (fun _ => (Only.ite ((pkgFail_only).sub rfl) (Only.pure _ _))))))) (Only.pure _ _)))))))))))

theorem meshInject_only (x0) : Only [.regs, .mesh, .sent] (meshInject x0) := by
  delta meshInject
  exact (Only.bind (Only.rd _ _) (fun _ => (Only.ite ((modMesh_only _).sub rfl) ((meshSend_only _).sub rfl))))

theorem meshTimeout_only : Only [.regs] meshTimeout := by
  delta meshTimeout
  exact (Only.bind (Only.get _) (fun _ => (Only.ite ((setPageFault_only _).sub rfl) (Only.pure _ _))))

theorem hubFail_only (x0) : Only [.regs, .tab, .parts, .land, .sent, .free] (hubFail x0) := by
  delta hubFail
  exact (Only.bind ((stW_only _ _).sub rfl) (fun _ => (Only.bind (Only.forIn _ _ (fun _ _ => (Only.bind ((coreFail_only _).sub rfl) (fun _ => (Only.pure _ _))))) (fun _ => (Only.pure _ _)))))

theorem channelFail_only (x0) : Only [.regs, .tab, .flash] (channelFail x0) := by
  delta channelFail
  exact (Only.bind ((wrF_only _ _ _).sub rfl) (fun _ => (Only.bind ((setIrq_only _ _).sub rfl) (fun _ => (Only.bind ((setPageFault_only _).sub rfl) (fun _ => ((flashLost_only _).sub rfl)))))))

theorem meshRelease_only (x0 x1) : Only [.regs, .mesh, .sent] (meshRelease x0 x1) := by
  delta meshRelease
  exact (Only.bind (Only.rd _ _) (fun _ => (Only.ite (Only.bind ((count_only _ _).sub rfl) (fun _ => (by extract_lets -underBinder -merge -useContext +onlyGivenNames j; (try clear_value j); exact (Only.bind ((modMesh_only _).sub rfl) (fun _ => (Only.bind (Only.forIn _ _ (fun _ _ => (Only.bind ((meshInject_only _).sub rfl) (fun _ => (Only.pure _ _))))) (fun _ => (Only.pure _ _)))))))) (Only.pure _ _))))

theorem selftestDone_only (x0 x1) : Only [.regs, .tiles, .land, .sent] (selftestDone x0 x1) := by
  delta selftestDone
  exact (by extract_lets -underBinder -merge -useContext +onlyGivenNames j; (try clear_value j); exact (Only.bind (Only.get _) (fun _ => (Only.ite (Only.bind ((setIrq_only _ _).sub rfl) (fun _ => (Only.bind ((wrF_only _ _ _).sub rfl) (fun _ => (Only.bind ((mapCheck_only).sub rfl) (fun _ => (Only.bind ((tilePageOwner_only _).sub rfl) (fun _ => (Only.bind (Only.get _) (fun _ => (Only.ite ((milestone_only _).sub rfl) (Only.pure _ _)))))))))))) (Only.pure _ _)))))

theorem portLost_only (x0) : Only [.regs, .mem, .tab, .ports, .parts, .sites, .mig, .col, .land, .sent, .free] (portLost x0) := by
  delta portLost
  exact (by extract_lets -underBinder -merge -useContext +onlyGivenNames j; have h0 := show ∀ y, Only [.regs, .mem, .tab, .ports, .parts, .sites, .mig, .col, .land, .sent, .free] (j y) from (fun _ => ((portsCheck_only).sub rfl)); clear_value j; exact (Only.ite (Only.bind ((colPortFailed_only _).sub rfl) (fun _ => (h0 _))) (h0 _)))

theorem routerOut_only (x0) : Only [.regs, .mem, .tab, .ports, .parts, .sites, .mig, .flash, .col, .land, .sent, .free] (routerOut x0) := by
  delta routerOut
  exact (Only.bind ((wrF_only _ _ _).sub rfl) (fun _ => (by extract_lets -underBinder -merge -useContext +onlyGivenNames j; have h0 := show ∀ y, Only [.regs, .mem, .tab, .ports, .parts, .sites, .mig, .flash, .col, .land, .sent, .free] (j y) from (fun _ => (Only.bind (Only.get _) (fun _ => (Only.ite ((pkgFail_only).sub rfl) (Only.pure _ _))))); clear_value j; exact (by split; exact (Only.bind (Only.rd _ _) (fun _ => (Only.ite (Only.bind ((siteFail_only _).sub rfl) (fun _ => (h0 _))) (h0 _)))); exact (Only.bind (Only.rd _ _) (fun _ => (Only.ite (Only.bind ((channelFail_only _).sub rfl) (fun _ => (h0 _))) (h0 _)))); exact (Only.bind ((failPort_only _).sub rfl) (fun _ => (Only.bind ((portLost_only _).sub rfl) (fun _ => (h0 _))))); exact (Only.bind ((bulkLost_only _).sub rfl) (fun _ => (h0 _))); exact (Only.bind (Only.rd _ _) (fun _ => (Only.ite (Only.bind ((hubFail_only _).sub rfl) (fun _ => (h0 _))) (h0 _)))); exact (Only.bind (Only.skip _) (fun _ => (h0 _)))))))

theorem tileFail_only (x0 x1) : Only [.regs, .mem, .tab, .ports, .parts, .sites, .tiles, .mig, .flash, .col, .land, .sent, .free] (tileFail x0 x1) := by
  delta tileFail
  exact (Only.bind ((setTileFault_only _ _).sub rfl) (fun _ => (Only.bind (Only.rd _ _) (fun _ => (by extract_lets -underBinder -merge -useContext +onlyGivenNames j; have h0 := show ∀ y, Only [.regs, .mem, .tab, .ports, .parts, .sites, .tiles, .mig, .flash, .col, .land, .sent, .free] (j y) from (fun _ => (Only.ite ((routerOut_only _).sub rfl) (Only.pure _ _))); clear_value j; exact (Only.ite (Only.bind ((wrF_only _ _ _).sub rfl) (fun _ => (Only.bind ((abandonFlights_only _).sub rfl) (fun _ => (Only.bind ((modTile_only _ _).sub rfl) (fun _ => (Only.bind ((tilePageOwner_only _).sub rfl) (fun _ => (h0 _))))))))) (h0 _)))))))

theorem regionWrite_only : ∀ x0 x1 x2, Only [.mem] (regionWrite x0 x1 x2)
  | _, _, ([]) => by
    rw [regionWrite]
    exact (Only.pure _ _)
  | _, _, (b :: bs) => by
    rw [regionWrite]
    exact (Only.bind (Only.rd _ _) (fun _ => (by split; exact (Only.bind ((siteWriteByte_only _ _ _).sub rfl) (fun _ => ((regionWrite_only _ _ _).sub rfl))))))

theorem modSnap_only (x0) : Only [.snap] (modSnap x0) := by
  delta modSnap
  exact (Only.bind (Only.rd _ _) (fun _ => (Only.upd _ rfl)))

theorem snapArmed_only (x0 x1 x2) : Only [.snap] (snapArmed x0 x1 x2) := by
  delta snapArmed
  exact (Only.ite (Only.bind ((rdF_only _ _).sub rfl) (fun _ => ((modSnap_only _).sub rfl))) (Only.pure _ _))

theorem countReset_only (x0) : Only [.tab] (countReset x0) := by
  delta countReset
  exact (Only.bind ((ldW_only _).sub rfl) (fun _ => ((stW_only _ _).sub rfl)))

theorem thresholdMicrosecond_only (x0) : Only [.regs] (thresholdMicrosecond x0) := by
  delta thresholdMicrosecond
  exact (Only.bind (Only.forIn _ _ (fun _ _ => (Only.bind (Only.get _) (fun _ => (by extract_lets -underBinder -merge -useContext +onlyGivenNames j; (try clear_value j); exact (Only.ite (by extract_lets -underBinder -merge -useContext +onlyGivenNames j; (try clear_value j); exact (Only.ite (Only.bind ((count_only _ _).sub rfl) (fun _ => (Only.pure _ _))) (Only.pure _ _))) (Only.pure _ _))))))) (fun _ => (Only.pure _ _)))

theorem tileWaits_only (x0) : Only [.regs] (tileWaits x0) := by
  delta tileWaits
  exact (Only.bind (Only.forIn _ _ (fun _ _ => (Only.bind (Only.get _) (fun _ => (by extract_lets -underBinder -merge -useContext +onlyGivenNames j; (try clear_value j); exact (by extract_lets -underBinder -merge -useContext +onlyGivenNames j; (try clear_value j); exact (by extract_lets -underBinder -merge -useContext +onlyGivenNames j; have h0 := show ∀ y, Only [.regs] (j y) from (by intro _; unfold j; exact (by extract_lets -underBinder -merge -useContext +onlyGivenNames j; have h0 := show ∀ y, Only [.regs] (j y) from (by intro _; unfold j; exact (by extract_lets -underBinder -merge -useContext +onlyGivenNames j; have h0 := show ∀ y, Only [.regs] (j y) from (fun _ => (Only.ite (Only.bind ((count_only _ _).sub rfl) (fun _ => (Only.pure _ _))) (Only.pure _ _))); clear_value j; exact (Only.ite (Only.bind ((count_only _ _).sub rfl) (fun _ => (h0 _))) (h0 _)))); clear_value j; exact (Only.ite (Only.bind ((count_only _ _).sub rfl) (fun _ => (h0 _))) (h0 _)))); clear_value j; exact (Only.ite (Only.bind ((count_only _ _).sub rfl) (fun _ => (h0 _))) (h0 _))))))))) (fun _ => (Only.pure _ _)))

theorem chainChanged_only (x0 x1) : Only [.regs, .tab] (chainChanged x0 x1) := by
  delta chainChanged
  exact (Only.ite (by extract_lets -underBinder -merge -useContext +onlyGivenNames j; (try clear_value j); exact (by extract_lets -underBinder -merge -useContext +onlyGivenNames j; have h0 := show ∀ y, Only [.regs, .tab] (j y) from (fun _ => (Only.ite (Only.bind ((wrR_only _ _).sub rfl) (fun _ => (Only.bind ((wrR_only _ _).sub rfl) (fun _ => ((countReset_only _).sub rfl))))) (Only.pure _ _))); clear_value j; exact (Only.ite (Only.bind ((wrR_only _ _).sub rfl) (fun _ => (Only.bind ((wrR_only _ _).sub rfl) (fun _ => (Only.bind ((countReset_only _).sub rfl) (fun _ => (h0 _))))))) (h0 _)))) (Only.pure _ _))

theorem capture_only (x0 x1 x2) : Only [.regs, .snap] (capture x0 x1 x2) := by
  delta capture
  exact (Only.bind (Only.get _) (fun _ => (by extract_lets -underBinder -merge -useContext +onlyGivenNames j; (try clear_value j); exact (by extract_lets -underBinder -merge -useContext +onlyGivenNames j; (try clear_value j); exact (by extract_lets -underBinder -merge -useContext +onlyGivenNames j; (try clear_value j); exact (by extract_lets -underBinder -merge -useContext +onlyGivenNames j; (try clear_value j); exact (by extract_lets -underBinder -merge -useContext +onlyGivenNames j; (try clear_value j); exact (Only.ite ((count_only _ _).sub rfl) (Only.ite (Only.skip _) (by split; exact (by extract_lets -underBinder -merge -useContext +onlyGivenNames j; (try clear_value j); exact (by extract_lets -underBinder -merge -useContext +onlyGivenNames j; (try clear_value j); exact (by extract_lets -underBinder -merge -useContext +onlyGivenNames j; have h0 := show ∀ y, Only [.regs, .snap] (j y) from (fun _ => ((modSnap_only _).sub rfl)); clear_value j; exact (Only.ite (Only.bind ((count_only _ _).sub rfl) (fun _ => (h0 _))) (h0 _)))))))))))))))

theorem snapshots_only (x0 x1) : Only [.regs, .snap] (snapshots x0 x1) := by
  delta snapshots
  exact (Only.bind (Only.rd _ _) (fun _ => (Only.ite (Only.pure _ _) (Only.bind (Only.forIn _ _ (fun _ _ => (Only.bind (Only.get _) (fun _ => (Only.ite (Only.bind ((capture_only _ _ _).sub rfl) (fun _ => (by extract_lets -underBinder -merge -useContext +onlyGivenNames j; (try clear_value j); exact (Only.bind ((modSnap_only _).sub rfl) (fun _ => (Only.pure _ _)))))) (Only.pure _ _)))))) (fun _ => (Only.pure _ _))))))

theorem regionJudge_only : Only [.regs] regionJudge := by
  delta regionJudge
  exact (Only.bind (Only.rd _ _) (fun _ => (Only.ite ((setPageFault_only _).sub rfl) (Only.pure _ _))))

theorem snapDone_only (x0) : Only [.regs, .mem, .tab, .sites, .mig, .snap] (snapDone x0) := by
  delta snapDone
  exact (Only.bind (Only.get _) (fun _ => (by split; exact (Only.skip _); exact (by extract_lets -underBinder -merge -useContext +onlyGivenNames j; (try clear_value j); exact (Only.bind ((modSnap_only _).sub rfl) (fun _ => (by extract_lets -underBinder -merge -useContext +onlyGivenNames j; (try clear_value j); exact (by extract_lets -underBinder -merge -useContext +onlyGivenNames j; have h0 := show ∀ y, Only [.regs, .mem, .tab, .sites, .mig, .snap] (j y) from (fun _ => (Only.bind ((count_only _ _).sub rfl) (fun _ => (Only.bind ((count_only _ _).sub rfl) (fun _ => ((setIrq_only _ _).sub rfl)))))); clear_value j; exact (by split; exact (Only.bind ((regionWrite_only _ _ _).sub rfl) (fun _ => (Only.ite (Only.bind ((stNum_only _ _ _).sub rfl) (fun _ => (h0 _))) (h0 _)))); exact (Only.bind ((gWrite_only _ _ _ _).sub rfl) (fun _ => (Only.bind ((spWrite_only _ _ _ _ _).sub rfl) (fun _ => (h0 _))))))))))))))

end Sys2Proof.Machine
end

