-- ==== Sys2Proof/Laws/FrameBus.lean ====
section
/-! SUPPORT. Which fields of the state each operation can change, and that it always goes on: resets, bring-up, gleans, the side ports, the bus and the tick.
One lemma for each operation, over the lemmas of what it calls. -/

namespace Sys2Proof.Machine

theorem countersReset_only (x0) : Only [.regs, .tab] (countersReset x0) := by
  delta countersReset
  exact (Only.bind (Only.rd _ _) (fun _ => (Only.bind (Only.upd _ rfl) (fun _ => (Only.bind (Only.forIn _ _ (fun _ _ => (Only.bind ((wrR_only _ _).sub rfl) (fun _ => (Only.pure _ _))))) (fun _ => ((countReset_only _).sub rfl)))))))

theorem unitsZero_only (x0) : Only [.mem] (unitsZero x0) := by
  delta unitsZero
  exact (Only.bind (Only.forIn _ _ (fun _ _ => (Only.bind (Only.forIn _ _ (fun _ _ => (Only.bind (Only.rd _ _) (fun _ => (Only.ite (Only.bind (Only.upd _ rfl) (fun _ => (Only.pure _ _))) (Only.pure _ _)))))) (fun _ => (Only.pure _ _))))) (fun _ => (Only.pure _ _)))

theorem resetRefused_only : Only [.regs] resetRefused := by
  delta resetRefused
  exact (Only.bind ((wrF_only _ _ _).sub rfl) (fun _ => (Only.pure _ _)))

theorem baseAfterReset_only (x0) : Only [.regs, .staged, .tab] (baseAfterReset x0) := by
  delta baseAfterReset
  exact (Only.bind (Only.get _) (fun _ => (by extract_lets -underBinder -merge -useContext +onlyGivenNames j; (try clear_value j); exact (Only.ite (Only.bind ((baseCutover_only _).sub rfl) (fun _ => (Only.upd _ rfl))) (Only.ite (Only.bind ((setBaseState_only _ _).sub rfl) (fun _ => ((wrF_only _ _ _).sub rfl))) (Only.pure _ _))))))

theorem engineReset_only (x0) : Only [.regs, .mem, .tab, .parts, .sites, .fab, .mig] (engineReset x0) := by
  delta engineReset
  exact (Only.bind ((leaseReturn_only _ _).sub rfl) (fun _ => (Only.bind (Only.rd _ _) (fun _ => (Only.bind (Only.forIn _ _ (fun _ _ => (Only.bind ((freeFrame_only _ _).sub rfl) (fun _ => (Only.pure _ _))))) (fun _ => (Only.bind ((routeRollback_only _).sub rfl) (fun _ => (Only.bind ((dropPending_only _).sub rfl) (fun _ => (Only.bind (Only.rd _ _) (fun _ => (Only.bind (Only.forIn _ _ (fun _ _ => (Only.bind (Only.rd _ _) (fun _ => (Only.ite (Only.bind ((slotFree_only _ _).sub rfl) (fun _ => (Only.pure _ _))) (Only.pure _ _)))))) (fun _ => (Only.bind (Only.rd _ _) (fun _ => (Only.bind ((wrPart_only _ _).sub rfl) (fun _ => (Only.bind (Only.rd _ _) (fun _ => (Only.bind (Only.forIn _ _ (fun _ _ => (Only.bind ((ringSet_only _ _ _ _).sub rfl) (fun _ => (Only.bind ((stW_only _ _).sub rfl) (fun _ => (Only.bind ((ringSet_only _ _ _ _).sub rfl) (fun _ => (Only.pure _ _))))))))) (fun _ => (Only.bind (Only.rd _ _) (fun _ => (Only.bind (Only.rd _ _) (fun _ => (Only.bind (Only.upd _ rfl) (fun _ => (Only.bind ((wrF_only _ _ _).sub rfl) (fun _ => (Only.bind ((wrF_only _ _ _).sub rfl) (fun _ => ((wrF_only _ _ _).sub rfl)))))))))))))))))))))))))))))))))

theorem tileFlushReset_only (x0) : Only [.regs, .staged, .mem, .tab, .tiles] (tileFlushReset x0) := by
  delta tileFlushReset
  exact (Only.bind ((flushNow_only _).sub rfl) (fun _ => (Only.bind ((tileClear_only _).sub rfl) (fun _ => ((countersReset_only _).sub rfl)))))

theorem tileReset_only (x0) : Only [.regs, .staged, .mem, .tab, .tiles] (tileReset x0) := by
  delta tileReset
  exact (Only.bind (Only.get _) (fun _ => (by extract_lets -underBinder -merge -useContext +onlyGivenNames j; (try clear_value j); exact (Only.ite ((resetRefused_only).sub rfl) (Only.bind ((wrF_only _ _ _).sub rfl) (fun _ => (Only.bind ((tileFlushReset_only _).sub rfl) (fun _ => (Only.bind ((count_only _ _).sub rfl) (fun _ => (Only.pure _ _)))))))))))

theorem partitionReset_only (x0) : Only [.regs, .staged, .mem, .tab, .ports, .parts, .sites, .tiles, .fab, .mig, .flash, .ted, .col, .load, .sent] (partitionReset x0) := by
  delta partitionReset
  exact (Only.bind (Only.get _) (fun _ => (Only.ite ((resetRefused_only).sub rfl) (Only.bind ((wrF_only _ _ _).sub rfl) (fun _ => (by extract_lets -underBinder -merge -useContext +onlyGivenNames j; have h0 := show ∀ y, Only [.regs, .staged, .mem, .tab, .ports, .parts, .sites, .tiles, .fab, .mig, .flash, .ted, .col, .load, .sent] (j y) from (fun _ => (Only.bind ((colAbort_only _ _).sub rfl) (fun _ => (Only.bind (Only.forIn _ _ (fun _ _ => (Only.bind ((tileFlushReset_only _).sub rfl) (fun _ => (Only.pure _ _))))) (fun _ => (Only.bind ((flashStop_only _).sub rfl) (fun _ => (Only.bind ((loadStop_only _).sub rfl) (fun _ => (Only.bind ((fillStop_only _).sub rfl) (fun _ => (Only.bind ((engineReset_only _).sub rfl) (fun _ => (Only.bind (Only.forIn _ _ (fun _ _ => (Only.ite (Only.bind ((baseAfterReset_only _).sub rfl) (fun _ => (Only.pure _ _))) (Only.pure _ _)))) (fun _ => (Only.bind ((unitsZero_only _).sub rfl) (fun _ => (Only.bind ((wrF_only _ _ _).sub rfl) (fun _ => (by extract_lets -underBinder -merge -useContext +onlyGivenNames j; have h0 := show ∀ y, Only [.regs, .staged, .mem, .tab, .ports, .parts, .sites, .tiles, .fab, .mig, .flash, .ted, .col, .load, .sent] (j y) from (fun _ => (Only.bind ((setPhase_only _ _).sub rfl) (fun _ => (Only.bind ((wrF_only _ _ _).sub rfl) (fun _ => (by extract_lets -underBinder -merge -useContext +onlyGivenNames j; have h0 := show ∀ y, Only [.regs, .staged, .mem, .tab, .ports, .parts, .sites, .tiles, .fab, .mig, .flash, .ted, .col, .load, .sent] (j y) from (fun _ => (Only.bind ((count_only _ _).sub rfl) (fun _ => (Only.pure _ _)))); clear_value j; exact (Only.ite (Only.bind ((unquenchPart_only _).sub rfl) (fun _ => (h0 _))) (h0 _)))))))); clear_value j; exact (Only.ite (Only.bind ((wrF_only _ _ _).sub rfl) (fun _ => (h0 _))) (h0 _)))))))))))))))))))))); clear_value j; exact (Only.ite (Only.bind ((quenchPart_only _ _).sub rfl) (fun _ => (h0 _))) (h0 _))))))))

theorem recordsReset_only : Only [.time, .ports, .parts, .sites, .tiles, .fab, .mig, .ted, .col, .load, .sec, .snap, .mesh, .move, .land] recordsReset := by
  delta recordsReset
  exact (Only.bind (Only.forIn _ _ (fun _ _ => (Only.bind (Only.upd _ rfl) (fun _ => (Only.pure _ _))))) (fun _ => (Only.bind (Only.forIn _ _ (fun _ _ => (Only.bind (Only.upd _ rfl) (fun _ => (Only.pure _ _))))) (fun _ => (Only.bind (Only.forIn _ _ (fun _ _ => (Only.bind (Only.upd _ rfl) (fun _ => (Only.pure _ _))))) (fun _ => (Only.bind (Only.forIn _ _ (fun _ _ => (Only.bind (Only.upd _ rfl) (fun _ => (Only.pure _ _))))) (fun _ => (Only.bind (Only.upd _ rfl) (fun _ => (Only.bind (Only.upd _ rfl) (fun _ => (Only.bind (Only.upd _ rfl) (fun _ => (Only.bind (Only.upd _ rfl) (fun _ => (Only.bind (Only.upd _ rfl) (fun _ => (Only.bind (Only.upd _ rfl) (fun _ => (Only.bind (Only.upd _ rfl) (fun _ => (Only.bind (Only.upd _ rfl) (fun _ => (Only.bind (Only.upd _ rfl) (fun _ => (Only.bind ((modSec_only _).sub rfl) (fun _ => ((modLand_only _).sub rfl)))))))))))))))))))))))))))))

theorem tablesReset_only (x0) : Only [.tab] (tablesReset x0) := by
  delta tablesReset
  exact (Only.bind (Only.upd _ rfl) (fun _ => (Only.bind (Only.upd _ rfl) (fun _ => (Only.bind (Only.upd _ rfl) (fun _ => (Only.bind (Only.upd _ rfl) (fun _ => (Only.bind (Only.upd _ rfl) (fun _ => (Only.ite (Only.bind (Only.upd _ rfl) (fun _ => (Only.bind (Only.upd _ rfl) (fun _ => (Only.bind (Only.upd _ rfl) (fun _ => (Only.upd _ rfl))))))) (Only.pure _ _))))))))))))

theorem registersReset_only (x0) : Only [.regs, .staged, .tab] (registersReset x0) := by
  delta registersReset
  exact (Only.bind (Only.rd _ _) (fun _ => (Only.bind (Only.upd _ rfl) (fun _ => (Only.bind (Only.upd _ rfl) (fun _ => (Only.bind (Only.forIn _ _ (fun _ _ => (Only.bind ((wrR_only _ _).sub rfl) (fun _ => (Only.pure _ _))))) (fun _ => (Only.bind (Only.forIn _ _ (fun _ _ => (Only.bind (Only.forIn _ _ (fun _ _ => (Only.bind ((countReset_only _).sub rfl) (fun _ => (Only.pure _ _))))) (fun _ => (Only.pure _ _))))) (fun _ => (Only.pure _ _)))))))))))

theorem basesCold_only : Only [.regs] basesCold := by
  delta basesCold
  exact (Only.bind (Only.get _) (fun _ => (by extract_lets -underBinder -merge -useContext +onlyGivenNames j; (try clear_value j); exact (by extract_lets -underBinder -merge -useContext +onlyGivenNames j; (try clear_value j); exact (Only.bind (Only.forIn _ _ (fun _ _ => (Only.bind ((wrF_only _ _ _).sub rfl) (fun _ => (Only.ite (Only.bind ((setBaseState_only _ _).sub rfl) (fun _ => (Only.pure _ _))) (Only.ite (Only.bind ((setBaseState_only _ _).sub rfl) (fun _ => (Only.pure _ _))) (Only.pure _ _))))))) (fun _ => (Only.ite (Only.bind ((wrF_only _ _ _).sub rfl) (fun _ => ((wrF_only _ _ _).sub rfl))) (Only.pure _ _))))))))

theorem tiersWarm_only : Only [.regs, .flash] tiersWarm := by
  delta tiersWarm
  exact (Only.bind (Only.forIn _ _ (fun _ _ => (Only.bind ((rdF_only _ _).sub rfl) (fun _ => (Only.bind (Only.rd _ _) (fun _ => (Only.ite (Only.bind ((wrF_only _ _ _).sub rfl) (fun _ => (Only.pure _ _))) (Only.pure _ _)))))))) (fun _ => (Only.bind (Only.forIn _ _ (fun _ _ => (Only.bind ((rdF_only _ _).sub rfl) (fun _ => (by extract_lets -underBinder -merge -useContext +onlyGivenNames j; have h0 := show ∀ y, Only [.regs, .flash] (j y) from (fun _ => (Only.bind ((wrF_only _ _ _).sub rfl) (fun _ => (Only.pure _ _)))); clear_value j; exact (Only.ite (Only.bind ((wrF_only _ _ _).sub rfl) (fun _ => (h0 _))) (h0 _))))))) (fun _ => (Only.bind (Only.rd _ _) (fun _ => (Only.upd _ rfl)))))))

theorem milestonesCheck_only : Only [.land, .sent] milestonesCheck := by
  delta milestonesCheck
  exact (Only.bind (Only.get _) (fun _ => (Only.ite (by extract_lets -underBinder -merge -useContext +onlyGivenNames j; (try clear_value j); exact (by extract_lets -underBinder -merge -useContext +onlyGivenNames j; have h0 := show ∀ y, Only [.land, .sent] (j y) from (by intro _; unfold j; exact (by extract_lets -underBinder -merge -useContext +onlyGivenNames j; (try clear_value j); exact (by extract_lets -underBinder -merge -useContext +onlyGivenNames j; have h0 := show ∀ y, Only [.land, .sent] (j y) from (by intro _; unfold j; exact (by extract_lets -underBinder -merge -useContext +onlyGivenNames j; have h0 := show ∀ y, Only [.land, .sent] (j y) from (by intro _; unfold j; exact (by extract_lets -underBinder -merge -useContext +onlyGivenNames j; have h0 := show ∀ y, Only [.land, .sent] (j y) from (by intro _; unfold j; exact (by extract_lets -underBinder -merge -useContext +onlyGivenNames j; have h0 := show ∀ y, Only [.land, .sent] (j y) from (fun _ => (Only.ite ((milestone_only _).sub rfl) (Only.pure _ _))); clear_value j; exact (Only.ite (Only.bind ((milestone_only _).sub rfl) (fun _ => (h0 _))) (h0 _)))); clear_value j; exact (Only.ite (Only.bind ((milestone_only _).sub rfl) (fun _ => (h0 _))) (h0 _)))); clear_value j; exact (Only.ite (Only.bind ((milestone_only _).sub rfl) (fun _ => (h0 _))) (h0 _)))); clear_value j; exact (Only.ite (Only.bind ((milestone_only _).sub rfl) (fun _ => (h0 _))) (h0 _))))); clear_value j; exact (Only.ite (Only.bind ((milestone_only _).sub rfl) (fun _ => (h0 _))) (h0 _)))) (Only.pure _ _))))

theorem recordTaken_only (x0) : Only [.regs, .record] (recordTaken x0) := by
  delta recordTaken
  exact (by extract_lets -underBinder -merge -useContext +onlyGivenNames j; (try clear_value j); exact (Only.bind (Only.rd _ _) (fun _ => (by extract_lets -underBinder -merge -useContext +onlyGivenNames j; (try clear_value j); exact (by extract_lets -underBinder -merge -useContext +onlyGivenNames j; (try clear_value j); exact (Only.bind (Only.upd _ rfl) (fun _ => (Only.bind (Only.forIn _ _ (fun _ _ => (Only.bind ((wrF_only _ _ _).sub rfl) (fun _ => (Only.bind ((wrF_only _ _ _).sub rfl) (fun _ => (Only.pure _ _))))))) (fun _ => (Only.pure _ _))))))))))

theorem bulkUp_only : Only [.regs] bulkUp := by
  delta bulkUp
  exact (Only.bind (Only.forIn _ _ (fun _ _ => (Only.bind ((wrF_only _ _ _).sub rfl) (fun _ => (Only.pure _ _))))) (fun _ => (Only.pure _ _)))

theorem bootFailed_only : Only [.land, .sent] bootFailed := by
  delta bootFailed
  exact (Only.bind ((modLand_only _).sub rfl) (fun _ => ((lowFault_only).sub rfl)))

theorem bootStop_only (x0) : Only [.regs] (bootStop x0) := by
  delta bootStop
  exact (Only.bind ((wrF_only _ _ _).sub rfl) (fun _ => (Only.pure _ _)))

theorem trainedCheck_only : Only [.land, .sent] trainedCheck := by
  delta trainedCheck
  exact (Only.bind (Only.get _) (fun _ => (Only.ite (Only.bind ((milestone_only _).sub rfl) (fun _ => ((milestone_only _).sub rfl))) (Only.pure _ _))))

theorem vstbyLoss_only : Only [.regs, .staged, .mem, .tab, .time, .ports, .parts, .sites, .tiles, .fab, .mig, .flash, .ted, .col, .load, .sec, .pwr, .snap, .mesh, .move, .land] vstbyLoss := by
  delta vstbyLoss
  exact (Only.bind (Only.rd _ _) (fun _ => (Only.bind ((basesCold_only).sub rfl) (fun _ => (Only.bind ((registersReset_only _).sub rfl) (fun _ => (Only.bind ((recordsReset_only).sub rfl) (fun _ => (Only.bind ((tablesReset_only _).sub rfl) (fun _ => (Only.bind (Only.rd _ _) (fun _ => (Only.bind (Only.upd _ rfl) (fun _ => (Only.bind (Only.upd _ rfl) (fun _ => (Only.bind (Only.upd _ rfl) (fun _ => (Only.upd _ rfl)))))))))))))))))))

theorem bootImages_only : ∀ x0 x1, Only [.regs, .sec] (bootImages x0 x1)
  | _, ([]) => by
    rw [bootImages]
    exact (Only.pure _ _)
  | _, (k :: ks) => by
    rw [bootImages]
    exact (Only.bind ((wrF_only _ _ _).sub rfl) (fun _ => (Only.bind (Only.rd _ _) (fun _ => (by split; exact ((bootStop_only _).sub rfl); exact (Only.bind ((extendMeas_only _ _).sub rfl) (fun _ => (Only.bind ((modSec_only _).sub rfl) (fun _ => ((bootImages_only _ _).sub rfl))))))))))

theorem strapsShow_only : Only [.regs] strapsShow := by
  delta strapsShow
  exact (Only.bind (Only.rd _ _) (fun _ => (by split; exact (Only.skip _); exact (Only.bind ((wrF_only _ _ _).sub rfl) (fun _ => (Only.bind ((wrF_only _ _ _).sub rfl) (fun _ => (Only.bind ((wrF_only _ _ _).sub rfl) (fun _ => (Only.bind ((wrF_only _ _ _).sub rfl) (fun _ => (Only.bind (Only.rd _ _) (fun _ => (Only.ite ((setPageFault_only _).sub rfl) (Only.pure _ _)))))))))))))))

theorem tiersCold_only (x0) : Only [.regs, .tab] (tiersCold x0) := by
  delta tiersCold
  exact (by extract_lets -underBinder -merge -useContext +onlyGivenNames j; (try clear_value j); exact (Only.bind (Only.rd _ _) (fun _ => (Only.bind (Only.forIn _ _ (fun _ _ => (Only.bind ((wrF_only _ _ _).sub rfl) (fun _ => (Only.bind ((wrF_only _ _ _).sub rfl) (fun _ => (Only.ite (Only.bind ((setSiteState_only _ _).sub rfl) (fun _ => (Only.pure _ _))) (Only.bind ((setPageFault_only _).sub rfl) (fun _ => (Only.pure _ _)))))))))) (fun _ => (Only.bind (Only.forIn _ _ (fun _ _ => (Only.bind ((wrF_only _ _ _).sub rfl) (fun _ => (Only.bind ((wrF_only _ _ _).sub rfl) (fun _ => (Only.bind ((wrF_only _ _ _).sub rfl) (fun _ => (Only.bind ((wrF_only _ _ _).sub rfl) (fun _ => (Only.ite (Only.bind ((factoryBad_only _).sub rfl) (fun _ => (Only.bind ((showBlocks_only _).sub rfl) (fun _ => (Only.bind ((wrF_only _ _ _).sub rfl) (fun _ => (Only.pure _ _))))))) (Only.bind ((setPageFault_only _).sub rfl) (fun _ => (Only.pure _ _)))))))))))))) (fun _ => (Only.pure _ _))))))))

theorem strapSample_only (x0) : Only [.regs, .land] (strapSample x0) := by
  delta strapSample
  exact (Only.bind (Only.rd _ _) (fun _ => (Only.ite (Only.bind ((modLand_only _).sub rfl) (fun _ => ((strapsShow_only).sub rfl))) (Only.pure _ _))))

theorem portStopped_only (x0) : Only [.regs, .ports] (portStopped x0) := by
  delta portStopped
  exact (Only.bind ((portEmpty_only _).sub rfl) (fun _ => (Only.bind (Only.rd _ _) (fun _ => (by extract_lets -underBinder -merge -useContext +onlyGivenNames j; have h0 := show ∀ y, Only [.regs, .ports] (j y) from (fun _ => ((setPageFault_only _).sub rfl)); clear_value j; exact (Only.ite (Only.bind ((setPortState_only _ _).sub rfl) (fun _ => (h0 _))) (h0 _)))))))

theorem secureBoot_only : Only [.regs, .record, .sec, .land] secureBoot := by
  delta secureBoot
  exact (Only.bind (Only.get _) (fun _ => (Only.bind ((wrF_only _ _ _).sub rfl) (fun _ => (Only.bind ((wrF_only _ _ _).sub rfl) (fun _ => (Only.bind ((wrF_only _ _ _).sub rfl) (fun _ => (Only.bind ((addF_only _ _ _).sub rfl) (fun _ => (Only.ite ((bootStop_only _).sub rfl) (Only.ite ((bootStop_only _).sub rfl) (Only.bind ((modSec_only _).sub rfl) (fun _ => (Only.bind ((modLand_only _).sub rfl) (fun _ => (Only.bind ((extendMeas_only _ _).sub rfl) (fun _ => (Only.bind ((bootImages_only _ _).sub rfl) (fun _ => (Only.ite (Only.pure _ _) (Only.bind (Only.get _) (fun _ => (by extract_lets -underBinder -merge -useContext +onlyGivenNames j; (try clear_value j); exact (by extract_lets -underBinder -merge -useContext +onlyGivenNames j; (try clear_value j); exact (Only.ite ((bootStop_only _).sub rfl) (Only.bind ((extendMeas_only _ _).sub rfl) (fun _ => (Only.bind ((recordTaken_only _).sub rfl) (fun _ => (by extract_lets -underBinder -merge -useContext +onlyGivenNames j; (try clear_value j); exact (Only.bind ((wrF_only _ _ _).sub rfl) (fun _ => (Only.bind ((wrF_only _ _ _).sub rfl) (fun _ => (Only.pure _ _))))))))))))))))))))))))))))))))))))

theorem coldReset_only (x0) : Only [.regs, .staged, .mem, .tab, .record, .time, .ports, .parts, .sites, .tiles, .fab, .mig, .flash, .ted, .col, .load, .sec, .pwr, .snap, .mesh, .move, .land, .sent] (coldReset x0) := by
  delta coldReset
  exact (Only.bind ((basesCold_only).sub rfl) (fun _ => (Only.bind ((wrF_only _ _ _).sub rfl) (fun _ => (Only.bind ((registersReset_only _).sub rfl) (fun _ => (Only.bind ((recordsReset_only).sub rfl) (fun _ => (Only.bind ((tablesReset_only _).sub rfl) (fun _ => (Only.bind (Only.rd _ _) (fun _ => (Only.bind (Only.rd _ _) (fun _ => (Only.bind (Only.upd _ rfl) (fun _ => (Only.bind (Only.upd _ rfl) (fun _ => (Only.bind (Only.upd _ rfl) (fun _ => (Only.bind ((strapsShow_only).sub rfl) (fun _ => (Only.bind ((wrF_only _ _ _).sub rfl) (fun _ => (Only.bind (Only.rd _ _) (fun _ => (Only.bind ((modLand_only _).sub rfl) (fun _ => (Only.ite (Only.bind ((modLand_only _).sub rfl) (fun _ => ((lowFault_only).sub rfl))) (Only.bind ((milestone_only _).sub rfl) (fun _ => (Only.bind (Only.forIn _ _ (fun _ _ => (Only.bind ((wrF_only _ _ _).sub rfl) (fun _ => (Only.pure _ _))))) (fun _ => (Only.bind ((secureBoot_only).sub rfl) (fun _ => (Only.ite (Only.bind (Only.get _) (fun _ => (Only.bind ((modLand_only _).sub rfl) (fun _ => (Only.bind ((milestone_only _).sub rfl) (fun _ => (by extract_lets -underBinder -merge -useContext +onlyGivenNames j; (try clear_value j); exact (by extract_lets -underBinder -merge -useContext +onlyGivenNames j; have h0 := show ∀ y, Only [.regs, .staged, .mem, .tab, .record, .time, .ports, .parts, .sites, .tiles, .fab, .mig, .flash, .ted, .col, .load, .sec, .pwr, .snap, .mesh, .move, .land, .sent] (j y) from (fun _ => (Only.bind ((bulkUp_only).sub rfl) (fun _ => ((trainedCheck_only).sub rfl)))); clear_value j; exact (by split; exact (Only.bind ((tiersCold_only _).sub rfl) (fun _ => (h0 _))); exact (Only.bind (Only.skip _) (fun _ => (h0 _)))))))))))) ((bootFailed_only).sub rfl)))))))))))))))))))))))))))))))))))))

theorem refclkLoss_only (x0) : Only [.regs, .tab, .ports, .parts, .land, .sent, .free] (refclkLoss x0) := by
  delta refclkLoss
  exact (Only.ite (Only.bind ((portStopped_only _).sub rfl) (fun _ => (Only.bind ((portStopped_only _).sub rfl) (fun _ => ((portStopped_only _).sub rfl))))) (Only.ite (Only.bind ((wrR_only _ _).sub rfl) (fun _ => ((setPageFault_only _).sub rfl))) (Only.ite ((pkgFail_only).sub rfl) (Only.bind ((wrF_only _ _ _).sub rfl) (fun _ => ((setPageFault_only _).sub rfl))))))

theorem vinMainValid_only (x0) : Only [.regs, .staged, .mem, .tab, .record, .time, .ports, .parts, .sites, .tiles, .fab, .mig, .flash, .ted, .col, .load, .sec, .pwr, .snap, .mesh, .move, .land, .sent] (vinMainValid x0) := by
  delta vinMainValid
  exact (Only.bind ((modLand_only _).sub rfl) (fun _ => (Only.bind (Only.rd _ _) (fun _ => ((coldReset_only _).sub rfl)))))

theorem bringUpTime_only (x0) : Only [.regs, .mig, .land, .sent, .free] (bringUpTime x0) := by
  delta bringUpTime
  exact (Only.bind (Only.get _) (fun _ => (Only.ite (Only.bind ((modLand_only _).sub rfl) (fun _ => (by extract_lets -underBinder -merge -useContext +onlyGivenNames j; (try clear_value j); exact (Only.bind (Only.forIn _ _ (fun _ _ => (Only.ite (Only.ite (Only.bind ((siteTrained_only _).sub rfl) (fun _ => (Only.pure _ _))) (Only.bind ((freshBelow_only _).sub rfl) (fun _ => (Only.ite (Only.bind ((siteTrained_only _).sub rfl) (fun _ => (Only.pure _ _))) (Only.pure _ _))))) (Only.pure _ _)))) (fun _ => (Only.bind (Only.forIn _ _ (fun _ _ => (Only.ite (Only.ite (Only.bind ((wrF_only _ _ _).sub rfl) (fun _ => (Only.pure _ _))) (Only.bind ((freshBelow_only _).sub rfl) (fun _ => (Only.ite (Only.bind ((wrF_only _ _ _).sub rfl) (fun _ => (Only.pure _ _))) (Only.pure _ _))))) (Only.pure _ _)))) (fun _ => ((trainedCheck_only).sub rfl)))))))) (Only.pure _ _))))

theorem warmReset_only : Only [.regs, .staged, .mem, .tab, .record, .time, .ports, .parts, .sites, .tiles, .fab, .mig, .flash, .ted, .col, .load, .sec, .pwr, .snap, .mesh, .move, .land, .sent] warmReset := by
  delta warmReset
  exact (Only.bind (Only.forIn _ _ (fun _ _ => (Only.bind ((baseAfterReset_only _).sub rfl) (fun _ => (Only.pure _ _))))) (fun _ => (Only.bind (Only.get _) (fun _ => (by extract_lets -underBinder -merge -useContext +onlyGivenNames j; (try clear_value j); exact (by extract_lets -underBinder -merge -useContext +onlyGivenNames j; (try clear_value j); exact (Only.bind ((registersReset_only _).sub rfl) (fun _ => (Only.bind ((recordsReset_only).sub rfl) (fun _ => (Only.bind ((tablesReset_only _).sub rfl) (fun _ => (Only.bind (Only.upd _ rfl) (fun _ => (Only.bind (Only.upd _ rfl) (fun _ => (Only.bind (Only.forIn _ _ (fun _ _ => (Only.bind ((wrF_only _ _ _).sub rfl) (fun _ => (Only.bind ((wrF_only _ _ _).sub rfl) (fun _ => (Only.pure _ _))))))) (fun _ => (Only.bind (Only.forIn _ _ (fun _ _ => (Only.bind ((wrF_only _ _ _).sub rfl) (fun _ => (Only.pure _ _))))) (fun _ => (Only.bind ((tiersWarm_only).sub rfl) (fun _ => (Only.bind ((strapsShow_only).sub rfl) (fun _ => (Only.bind ((wrF_only _ _ _).sub rfl) (fun _ => (Only.bind ((secureBoot_only).sub rfl) (fun _ => (Only.ite (Only.bind ((mapCheck_only).sub rfl) (fun _ => ((bulkUp_only).sub rfl))) ((bootFailed_only).sub rfl))))))))))))))))))))))))))))))

theorem hayReset_only (x0) : Only [.regs, .staged, .mem, .tab, .record, .time, .ports, .parts, .sites, .tiles, .fab, .mig, .flash, .ted, .col, .load, .sec, .pwr, .snap, .mesh, .move, .land, .sent] (hayReset x0) := by
  delta hayReset
  exact (by extract_lets -underBinder -merge -useContext +onlyGivenNames j; (try clear_value j); exact (by split; exact ((tileReset_only _).sub rfl); exact ((partitionReset_only _).sub rfl); exact (Only.bind ((warmReset_only).sub rfl) (fun _ => (Only.pure _ _))); exact (Only.bind ((coldReset_only _).sub rfl) (fun _ => (Only.pure _ _))); exact (Only.pure _ _)))

theorem laneBack_only (x0 x1 x2) : Only [.regs, .ports] (laneBack x0 x1 x2) := by
  delta laneBack
  exact (Only.bind (Only.get _) (fun _ => (Only.ite (Only.ite ((setSpare_only _ _ _).sub rfl) ((modPort_only _ _).sub rfl)) (Only.pure _ _))))

theorem laneReturns_only (x0 x1 x2) : Only [.regs, .ports] (laneReturns x0 x1 x2) := by
  delta laneReturns
  exact (Only.bind (Only.get _) (fun _ => (by extract_lets -underBinder -merge -useContext +onlyGivenNames j; (try clear_value j); exact (Only.ite (Only.ite ((setSpare_only _ _ _).sub rfl) (Only.pure _ _)) (Only.ite ((laneBack_only _ _ _).sub rfl) (Only.pure _ _))))))

theorem setGlean_only (x0 x1) : Only [.regs] (setGlean x0 x1) := by
  delta setGlean
  exact ((wrF_only _ _ _).sub rfl)

theorem gleanSwapBack_only (x0 x1) : Only [.regs, .ports] (gleanSwapBack x0 x1) := by
  delta gleanSwapBack
  exact (Only.bind (Only.get _) (fun _ => (by extract_lets -underBinder -merge -useContext +onlyGivenNames j; (try clear_value j); exact (Only.ite ((laneBack_only _ _ _).sub rfl) (Only.pure _ _)))))

theorem gleanDescWrite_only (x0 x1) : Only [.regs] (gleanDescWrite x0 x1) := by
  delta gleanDescWrite
  exact (Only.bind (Only.get _) (fun _ => (by split; exact (Only.ite (Only.bind ((wrF_only _ _ _).sub rfl) (fun _ => (Only.bind ((setGlean_only _ _).sub rfl) (fun _ => (Only.pure _ _))))) (Only.pure _ _)); exact (Only.pure _ _); exact (Only.ite (Only.pure _ _) (Only.bind ((wrR_only _ _).sub rfl) (fun _ => (by extract_lets -underBinder -merge -useContext +onlyGivenNames j; have h0 := show ∀ y, Only [.regs] (j y) from (fun _ => (Only.pure _ _)); clear_value j; exact (Only.ite (Only.ite (Only.bind ((setGlean_only _ _).sub rfl) (fun _ => (Only.bind ((count_only _ _).sub rfl) (fun _ => (h0 _))))) (Only.bind ((addF_only _ _ _).sub rfl) (fun _ => (h0 _)))) (h0 _)))))))))

theorem gleanOpen_only (x0 x1 x2) : Only [.regs, .tab, .time, .ports, .flash, .pwr, .free] (gleanOpen x0 x1 x2) := by
  delta gleanOpen
  exact (Only.bind (Only.get _) (fun _ => (Only.ite (Only.pure _ _) (Only.ite (Only.bind ((setGlean_only _ _).sub rfl) (fun _ => ((count_only _ _).sub rfl))) (by extract_lets -underBinder -merge -useContext +onlyGivenNames j; (try clear_value j); exact (by extract_lets -underBinder -merge -useContext +onlyGivenNames j; (try clear_value j); exact (by extract_lets -underBinder -merge -useContext +onlyGivenNames j; (try clear_value j); exact (Only.bind ((setGlean_only _ _).sub rfl) (fun _ => (Only.bind ((count_only _ _).sub rfl) (fun _ => (Only.bind ((modTime_only _).sub rfl) (fun _ => (by split; exact (Only.bind ((setSiteState_only _ _).sub rfl) (fun _ => ((calibrate_only _ _).sub rfl))); exact ((flashOpens_only _).sub rfl); exact (Only.skip _); exact (by extract_lets -underBinder -merge -useContext +onlyGivenNames j; (try clear_value j); exact (Only.bind ((modPort_only _ _).sub rfl) (fun _ => (Only.ite ((setSpare_only _ _ _).sub rfl) (Only.ite (Only.ite ((setSpare_only _ _ _).sub rfl) (Only.bind ((setGlean_only _ _).sub rfl) (fun _ => ((count_only _ _).sub rfl)))) (Only.pure _ _))))))))))))))))))))

theorem gleansAtEdge_only (x0 x1) : Only [.regs, .tab, .time, .ports, .flash, .pwr, .free] (gleansAtEdge x0 x1) := by
  delta gleansAtEdge
  exact (Only.bind (Only.forIn _ _ (fun _ _ => (Only.bind (Only.rd _ _) (fun _ => (Only.ite (Only.bind ((gleanOpen_only _ _ _).sub rfl) (fun _ => (Only.pure _ _))) (Only.pure _ _)))))) (fun _ => (Only.pure _ _)))

theorem siteReturns_only (x0) : Only [.regs, .mem, .sites, .mig, .sent] (siteReturns x0) := by
  delta siteReturns
  exact (Only.bind (Only.rd _ _) (fun _ => (Only.bind ((setSiteState_only _ _).sub rfl) (fun _ => (by extract_lets -underBinder -merge -useContext +onlyGivenNames j; have h0 := show ∀ y, Only [.regs, .mem, .sites, .mig, .sent] (j y) from (fun _ => (Only.bind (Only.get _) (fun _ => (by extract_lets -underBinder -merge -useContext +onlyGivenNames j; (try clear_value j); exact (by extract_lets -underBinder -merge -useContext +onlyGivenNames j; have h0 := show ∀ y, Only [.regs, .mem, .sites, .mig, .sent] (j y) from (fun _ => ((serveHeld_only _).sub rfl)); clear_value j; exact (Only.ite (Only.bind ((wrF_only _ _ _).sub rfl) (fun _ => (Only.bind ((wrF_only _ _ _).sub rfl) (fun _ => (h0 _))))) (h0 _))))))); clear_value j; exact (Only.ite (Only.bind ((coverSwitched_only).sub rfl) (fun _ => (h0 _))) (h0 _)))))))

theorem gleanClose_only (x0 x1) : Only [.regs, .mem, .tab, .time, .ports, .sites, .mig, .flash, .sent, .free] (gleanClose x0 x1) := by
  delta gleanClose
  exact (Only.bind (Only.get _) (fun _ => (Only.ite (Only.pure _ _) (by extract_lets -underBinder -merge -useContext +onlyGivenNames j; (try clear_value j); exact (by extract_lets -underBinder -merge -useContext +onlyGivenNames j; (try clear_value j); exact (Only.bind ((setGlean_only _ _).sub rfl) (fun _ => (Only.ite (Only.bind ((modTime_only _).sub rfl) (fun _ => (Only.ite ((flashWindow_only _ _ _ _).sub rfl) (Only.pure _ _)))) (by extract_lets -underBinder -merge -useContext +onlyGivenNames j; (try clear_value j); exact (by extract_lets -underBinder -merge -useContext +onlyGivenNames j; (try clear_value j); exact (by extract_lets -underBinder -merge -useContext +onlyGivenNames j; (try clear_value j); exact (by extract_lets -underBinder -merge -useContext +onlyGivenNames j; have h0 := show ∀ y, Only [.regs, .mem, .tab, .time, .ports, .sites, .mig, .flash, .sent, .free] (j y) from (by intro _; unfold j; exact (by split; exact (Only.bind ((trainResult_only _ _ _ _).sub rfl) (fun _ => (Only.bind (Only.rd _ _) (fun _ => (Only.ite ((siteReturns_only _).sub rfl) (Only.pure _ _)))))); exact (Only.bind ((flashWindow_only _ _ _ _).sub rfl) (fun _ => ((flashCloses_only _).sub rfl))); exact ((count_only _ _).sub rfl); exact ((laneReturns_only _ _ _).sub rfl))); clear_value j; exact (Only.ite (Only.bind ((count_only _ _).sub rfl) (fun _ => (h0 _))) (h0 _))))))))))))))

theorem i3cWordRead_only (x0) : Only [.sent] (i3cWordRead x0) := by
  delta i3cWordRead
  exact (Only.bind (Only.rd _ _) (fun _ => (by split; exact ((send_only _).sub rfl); exact ((send_only _).sub rfl))))

theorem ibiEnable_only (x0) : Only [.land] (ibiEnable x0) := by
  delta ibiEnable
  exact ((modLand_only _).sub rfl)

theorem entdaa_only (x0) : Only [.land] (entdaa x0) := by
  delta entdaa
  exact (Only.bind (Only.rd _ _) (fun _ => (Only.ite ((modLand_only _).sub rfl) (Only.pure _ _))))

theorem jtagExtest_only (x0 x1) : Only [.land, .sent] (jtagExtest x0 x1) := by
  delta jtagExtest
  exact (Only.bind ((modLand_only _).sub rfl) (fun _ => ((send_only _).sub rfl)))

theorem rstdaa_only : Only [.land] rstdaa := by
  delta rstdaa
  exact ((modLand_only _).sub rfl)

theorem jtagReset_only : Only [.land] jtagReset := by
  delta jtagReset
  exact ((modLand_only _).sub rfl)

theorem setdasa_only (x0 x1) : Only [.land, .sent] (setdasa x0 x1) := by
  delta setdasa
  exact (Only.bind (Only.get _) (fun _ => (Only.ite ((modLand_only _).sub rfl) ((send_only _).sub rfl))))

theorem jtagIdcodeRead_only : Only [.land, .sent] jtagIdcodeRead := by
  delta jtagIdcodeRead
  exact (Only.bind ((modLand_only _).sub rfl) (fun _ => ((send_only _).sub rfl)))

theorem jtagBypass_only : Only [.land, .sent] jtagBypass := by
  delta jtagBypass
  exact (Only.bind ((modLand_only _).sub rfl) (fun _ => ((send_only _).sub rfl)))

theorem samplePreload_only (x0 x1) : Only [.land, .sent] (samplePreload x0 x1) := by
  delta samplePreload
  exact (Only.bind ((modLand_only _).sub rfl) (fun _ => ((send_only _).sub rfl)))

theorem jtagClamp_only : Only [.land, .sent] jtagClamp := by
  delta jtagClamp
  exact (Only.bind ((modLand_only _).sub rfl) (fun _ => ((send_only _).sub rfl)))

theorem getstatus_only : Only [.sent, .free] getstatus := by
  delta getstatus
  exact (Only.bind (Only.rd _ _) (fun _ => (Only.ite (Only.bind ((freshBelow_only _).sub rfl) (fun _ => ((send_only _).sub rfl))) ((send_only _).sub rfl))))

theorem mgtFrameDrop_only (x0) : Only [.regs] (mgtFrameDrop x0) := by
  delta mgtFrameDrop
  exact (mgtFrame_only _ ((mgtDrop_only).sub rfl) rfl)

theorem mgtPortEnabled_only (x0) : Only [.regs] (mgtPortEnabled x0) := by
  delta mgtPortEnabled
  exact (Only.bind (Only.get _) (fun _ => (by extract_lets -underBinder -merge -useContext +onlyGivenNames j; (try clear_value j); exact (Only.bind ((wrF_only _ _ _).sub rfl) (fun _ => ((wrF_only _ _ _).sub rfl))))))

theorem mgtAnswer_only (x0 x1 x2) : Only [.regs, .land, .sent] (mgtAnswer x0 x1 x2) := by
  delta mgtAnswer
  exact ((mgtSend_only _ _).sub rfl)

theorem arpRequest_only (x0 x1) : Only [.regs, .land, .sent] (arpRequest x0 x1) := by
  delta arpRequest
  exact (mgtFrame_only _ (Only.bind ((rdF_only _ _).sub rfl) (fun _ => (Only.ite ((mgtAnswer_only _ _ _).sub rfl) ((mgtDrop_only).sub rfl)))) rfl)

theorem pauseFrame_only (x0 x1) : Only [.regs, .land] (pauseFrame x0 x1) := by
  delta pauseFrame
  exact (mgtFrame_only _ (Only.bind (Only.rd _ _) (fun _ => ((modLand_only _).sub rfl))) rfl)

theorem neighborSolicitation_only (x0 x1) : Only [.regs, .land, .sent] (neighborSolicitation x0 x1) := by
  delta neighborSolicitation
  exact (mgtFrame_only _ (Only.bind ((rdF_only _ _).sub rfl) (fun _ => (Only.bind ((rdF_only _ _).sub rfl) (fun _ => (Only.ite ((mgtAnswer_only _ _ _).sub rfl) ((mgtDrop_only).sub rfl)))))) rfl)

theorem andDone_only {l} {a : Act Unit} (h : Only l a) (_ : Field.sub [] l = true) : Only l (andDone a) := by
  delta andDone
  exact Only.bind h (fun _ => Only.pure _ _)

theorem tileOwners_only : Only [.regs] tileOwners := by
  delta tileOwners
  exact (Only.bind (Only.forIn _ _ (fun _ _ => (Only.bind ((tilePageOwner_only _).sub rfl) (fun _ => (Only.pure _ _))))) (fun _ => (Only.pure _ _)))

theorem stagedDrop_only (x0) : Only [.regs, .staged] (stagedDrop x0) := by
  delta stagedDrop
  exact (Only.bind (Only.upd _ rfl) (fun _ => ((wrF_only _ _ _).sub rfl)))

theorem runClear_only : Only [.regs, .staged, .tab, .time] runClear := by
  delta runClear
  exact (Only.bind (Only.get _) (fun _ => (Only.bind ((stepAgain_only).sub rfl) (fun _ => (Only.bind (Only.forIn _ _ (fun _ _ => (Only.bind ((wrF_only _ _ _).sub rfl) (fun _ => (Only.pure _ _))))) (fun _ => (Only.bind (Only.upd _ rfl) (fun _ => (Only.ite ((baseCutover_only _).sub rfl) (Only.pure _ _))))))))))

theorem tookEffect_only (x0 x1) : Only [.regs, .tab, .pwr] (tookEffect x0 x1) := by
  delta tookEffect
  exact (Only.bind ((rdR_only _).sub rfl) (fun _ => (Only.ite (Only.bind (Only.rd _ _) (fun _ => ((modPwr_only _).sub rfl))) (Only.ite ((baseCutover_only _).sub rfl) (by split; exact ((chainChanged_only _ _).sub rfl); exact (Only.skip _))))))

theorem busRead_only (x0 x1 x2) : Only [.regs, .mem, .resp] (busRead x0 x1 x2) := by
  delta busRead
  exact (coreActs_only _ (Only.bind (Only.get _) (fun _ => (by extract_lets -underBinder -merge -useContext +onlyGivenNames j; (try clear_value j); exact (by split; exact ((refuseAs_only _ _ _ _).sub rfl); exact ((refuseAs_only _ _ _ _).sub rfl); exact (by split; exact ((refuseAs_only _ _ _ _).sub rfl); exact (by extract_lets -underBinder -merge -useContext +onlyGivenNames j; have h0 := show ∀ y, Only [.regs, .mem, .resp] (j y) from (by intro _; unfold j; exact (by split; exact ((answer_only _).sub rfl); exact ((refuseAs_only _ _ _ _).sub rfl))); clear_value j; exact (Only.ite (Only.bind ((wrF_only _ _ _).sub rfl) (fun _ => (h0 _))) (h0 _)))))))) rfl)

theorem stagedApply_only (x0 x1) : Only [.regs, .staged, .tab, .pwr] (stagedApply x0 x1) := by
  delta stagedApply
  exact (Only.bind (Only.get _) (fun _ => (by extract_lets -underBinder -merge -useContext +onlyGivenNames j; (try clear_value j); exact (Only.bind (Only.forIn _ _ (fun _ _ => (by split; exact (Only.bind ((rdR_only _).sub rfl) (fun _ => (Only.bind ((wrR_only _ _).sub rfl) (fun _ => (Only.bind (Only.upd _ rfl) (fun _ => (by extract_lets -underBinder -merge -useContext +onlyGivenNames j; have h0 := show ∀ y, Only [.regs, .staged, .tab, .pwr] (j y) from (fun _ => (Only.bind ((tookEffect_only _ _).sub rfl) (fun _ => (Only.pure _ _)))); clear_value j; exact (Only.ite (Only.bind ((count_only _ _).sub rfl) (fun _ => (h0 _))) (h0 _))))))))); exact (Only.bind (Only.skip _) (fun _ => (Only.pure _ _)))))) (fun _ => (Only.bind (Only.forIn _ _ (fun _ _ => (Only.bind ((wrF_only _ _ _).sub rfl) (fun _ => (Only.bind ((setIrq_only _ _).sub rfl) (fun _ => (Only.pure _ _))))))) (fun _ => (Only.pure _ _))))))))

theorem mapsTookEffect_only (x0) : Only [.regs, .tab, .tiles, .mesh] (mapsTookEffect x0) := by
  delta mapsTookEffect
  exact (by extract_lets -underBinder -merge -useContext +onlyGivenNames j; have h0 := show ∀ y, Only [.regs, .tab, .tiles, .mesh] (j y) from (fun _ => (Only.ite ((outListChanged_only).sub rfl) (Only.pure _ _))); clear_value j; exact (Only.ite (Only.bind ((stW_only _ _).sub rfl) (fun _ => (Only.bind ((mapCheck_only).sub rfl) (fun _ => (Only.bind ((tileOwners_only).sub rfl) (fun _ => (h0 _))))))) (h0 _)))

theorem grantsTookEffect_only (x0) : Only [.regs, .staged, .mem, .tab, .ports, .parts, .sites, .tiles, .mig, .flash, .col, .move, .sent] (grantsTookEffect x0) := by
  delta grantsTookEffect
  exact (by extract_lets -underBinder -merge -useContext +onlyGivenNames j; have h0 := show ∀ y, Only [.regs, .staged, .mem, .tab, .ports, .parts, .sites, .tiles, .mig, .flash, .col, .move, .sent] (j y) from (fun _ => (Only.ite (Only.bind ((grantsSettle_only).sub rfl) (fun _ => (Only.bind ((checkNamespaces_only).sub rfl) (fun _ => (Only.bind ((mapsJudge_only).sub rfl) (fun _ => ((regionJudge_only).sub rfl))))))) (Only.pure _ _))); clear_value j; exact (Only.ite (Only.bind ((rdF_only _ _).sub rfl) (fun _ => (Only.bind ((mapCommit_only _).sub rfl) (fun _ => (h0 _))))) (h0 _)))

theorem dblWrite_only (x0 x1 x2 x3) : Only [.regs, .mem, .tab, .resp, .ports, .parts, .fab, .sent] (dblWrite x0 x1 x2 x3) := by
  delta dblWrite
  exact (by extract_lets -underBinder -merge -useContext +onlyGivenNames j; (try clear_value j); exact (Only.bind (Only.get _) (fun _ => (Only.ite (Only.bind ((count_only _ _).sub rfl) (fun _ => ((refuseAs_only _ _ _ _).sub rfl))) (Only.ite (Only.bind ((count_only _ _).sub rfl) (fun _ => ((refuseAs_only _ _ _ _).sub rfl))) (Only.bind ((doorbell_only _ _).sub rfl) (fun _ => ((answer_only _).sub rfl))))))))

theorem storeReg_only (x0 x1) : Only [.regs, .staged, .mem, .tab, .ports, .parts, .sites, .tiles, .mig, .flash, .col, .pwr, .mesh, .move, .sent] (storeReg x0 x1) := by
  delta storeReg
  exact (Only.bind ((rdR_only _).sub rfl) (fun _ => (Only.bind ((plainWrite_only _ _).sub rfl) (fun _ => (Only.bind (Only.rd _ _) (fun _ => (Only.ite (by split; exact (Only.ite (Only.bind ((tookEffect_only _ _).sub rfl) (fun _ => (Only.ite ((grantsTookEffect_only _).sub rfl) ((mapsTookEffect_only _).sub rfl)))) (Only.pure _ _)); exact (Only.skip _)) (Only.pure _ _))))))))

theorem stored_only (x0 x1) : Only [.regs, .staged, .mem, .tab, .ports, .parts, .sites, .tiles, .mig, .flash, .col, .pwr, .mesh, .move, .sent] (stored x0 x1) := by
  delta stored
  exact (Only.bind ((storeReg_only _ _).sub rfl) (fun _ => (Only.pure _ _)))

theorem binWrite_only (x0 x1 x2) : Only [.regs, .staged, .mem, .tab, .ports, .parts, .sites, .tiles, .mig, .flash, .col, .pwr, .mesh, .move, .sent] (binWrite x0 x1 x2) := by
  delta binWrite
  exact (Only.bind (Only.get _) (fun _ => (by extract_lets -underBinder -merge -useContext +onlyGivenNames j; (try clear_value j); exact (Only.ite ((stored_only _ _).sub rfl) (Only.ite (by extract_lets -underBinder -merge -useContext +onlyGivenNames j; (try clear_value j); exact (Only.ite (Only.pure _ _) (andDone_only ((stW_only _ _).sub rfl) rfl))) (Only.ite (by extract_lets -underBinder -merge -useContext +onlyGivenNames j; (try clear_value j); exact (Only.ite (Only.pure _ _) (Only.bind ((swapRecord_only _ _ _).sub rfl) (fun _ => ((stored_only _ _).sub rfl))))) (Only.ite (by extract_lets -underBinder -merge -useContext +onlyGivenNames j; (try clear_value j); exact (Only.ite (Only.pure _ _) (Only.bind ((storeReg_only _ _).sub rfl) (fun _ => (Only.bind ((wrF_only _ _ _).sub rfl) (fun _ => (by extract_lets -underBinder -merge -useContext +onlyGivenNames j; have h0 := show ∀ y, Only [.regs, .staged, .mem, .tab, .ports, .parts, .sites, .tiles, .mig, .flash, .col, .pwr, .mesh, .move, .sent] (j y) from (fun _ => (Only.pure _ _)); clear_value j; exact (Only.ite (Only.bind ((baseDiscard_only _).sub rfl) (fun _ => (h0 _))) (h0 _))))))))) ((stored_only _ _).sub rfl))))))))

theorem storedUnless_only (x0 x1 x2) : Only [.regs, .staged, .mem, .tab, .ports, .parts, .sites, .tiles, .mig, .flash, .col, .pwr, .mesh, .move, .sent] (storedUnless x0 x1 x2) := by
  delta storedUnless
  exact (Only.ite (Only.pure _ _) ((stored_only _ _).sub rfl))

theorem timWrite_only (x0 x1 x2) : Only [.regs, .staged, .mem, .tab, .time, .ports, .parts, .sites, .tiles, .mig, .flash, .col, .pwr, .mesh, .move, .sent] (timWrite x0 x1 x2) := by
  delta timWrite
  exact (Only.bind (Only.get _) (fun _ => (by extract_lets -underBinder -merge -useContext +onlyGivenNames j; (try clear_value j); exact (by split; exact (by extract_lets -underBinder -merge -useContext +onlyGivenNames j; (try clear_value j); exact (Only.bind ((storeReg_only _ _).sub rfl) (fun _ => (Only.bind ((syncControlled_only _).sub rfl) (fun _ => (Only.pure _ _)))))); exact (by extract_lets -underBinder -merge -useContext +onlyGivenNames j; (try clear_value j); exact (Only.ite (Only.pure _ _) (Only.bind ((storeReg_only _ _).sub rfl) (fun _ => (by extract_lets -underBinder -merge -useContext +onlyGivenNames j; have h0 := show ∀ y, Only [.regs, .staged, .mem, .tab, .time, .ports, .parts, .sites, .tiles, .mig, .flash, .col, .pwr, .mesh, .move, .sent] (j y) from (by intro _; unfold j; exact (by extract_lets -underBinder -merge -useContext +onlyGivenNames j; have h0 := show ∀ y, Only [.regs, .staged, .mem, .tab, .time, .ports, .parts, .sites, .tiles, .mig, .flash, .col, .pwr, .mesh, .move, .sent] (j y) from (fun _ => (Only.pure _ _)); clear_value j; exact (Only.ite (Only.bind ((runClear_only).sub rfl) (fun _ => (h0 _))) (h0 _)))); clear_value j; exact (Only.ite (Only.bind ((tickStart_only).sub rfl) (fun _ => (h0 _))) (h0 _))))))); exact ((storedUnless_only _ _ _).sub rfl); exact ((storedUnless_only _ _ _).sub rfl); exact (Only.ite ((stored_only _ _).sub rfl) (by extract_lets -underBinder -merge -useContext +onlyGivenNames j; (try clear_value j); exact (Only.ite ((gleanDescWrite_only _ _).sub rfl) ((storedUnless_only _ _ _).sub rfl)))); exact ((stored_only _ _).sub rfl)))))

theorem schedTickWrite_only (x0 x1) : Only [.regs, .staged, .mem, .tab, .ports, .parts, .sites, .tiles, .mig, .flash, .col, .pwr, .mesh, .move, .sent] (schedTickWrite x0 x1) := by
  delta schedTickWrite
  exact (Only.bind ((rdF_only _ _).sub rfl) (fun _ => (by extract_lets -underBinder -merge -useContext +onlyGivenNames j; have h0 := show ∀ y, Only [.regs, .staged, .mem, .tab, .ports, .parts, .sites, .tiles, .mig, .flash, .col, .pwr, .mesh, .move, .sent] (j y) from (fun _ => ((stored_only _ _).sub rfl)); clear_value j; exact (Only.ite (Only.ite (Only.pure _ _) (Only.bind (Only.get _) (fun _ => (Only.ite (Only.pure _ _) (Only.bind ((stagedDrop_only _).sub rfl) (fun _ => (h0 _))))))) (h0 _)))))

theorem commonWrite_only (x0 x1 x2 x3 x4 x5) : Only [.regs, .staged, .mem, .tab, .ports, .parts, .sites, .tiles, .mig, .flash, .col, .pwr, .mesh, .move, .sent] (commonWrite x0 x1 x2 x3 x4 x5) := by
  delta commonWrite
  exact (Only.bind (Only.get _) (fun _ => (by split; exact (by extract_lets -underBinder -merge -useContext +onlyGivenNames j; (try clear_value j); exact (Only.ite (Only.pure _ _) (Only.ite (Only.pure _ _) (Only.bind ((storeReg_only _ _).sub rfl) (fun _ => (Only.bind ((pageControlled_only _).sub rfl) (fun _ => (by extract_lets -underBinder -merge -useContext +onlyGivenNames j; have h0 := show ∀ y, Only [.regs, .staged, .mem, .tab, .ports, .parts, .sites, .tiles, .mig, .flash, .col, .pwr, .mesh, .move, .sent] (j y) from (fun _ => (Only.pure _ _)); clear_value j; exact (Only.ite (Only.bind ((selftestBegin_only _).sub rfl) (fun _ => (h0 _))) (h0 _)))))))))); exact ((storedUnless_only _ _ _).sub rfl); exact (Only.ite (Only.pure _ _) ((stored_only _ _).sub rfl)); exact ((schedTickWrite_only _ _).sub rfl); exact ((stored_only _ _).sub rfl))))

theorem hayWrite_only (x0 x1 x2) : Only [.regs, .staged, .mem, .tab, .record, .time, .ports, .parts, .sites, .tiles, .fab, .mig, .flash, .ted, .col, .load, .sec, .pwr, .snap, .mesh, .move, .land, .sent] (hayWrite x0 x1 x2) := by
  delta hayWrite
  exact (Only.bind (Only.get _) (fun _ => (by split; exact ((hayReset_only _).sub rfl); exact (Only.ite (Only.pure _ _) (andDone_only ((stW_only _ _).sub rfl) rfl)); exact ((stored_only _ _).sub rfl))))

theorem gdcWrite_only (x0 x1 x2) : Only [.regs, .staged, .mem, .tab, .ports, .parts, .sites, .tiles, .mig, .flash, .col, .pwr, .mesh, .move, .sent] (gdcWrite x0 x1 x2) := by
  delta gdcWrite
  exact (Only.bind (Only.get _) (fun _ => (by extract_lets -underBinder -merge -useContext +onlyGivenNames j; (try clear_value j); exact (Only.ite (by split; exact (Only.ite (Only.pure _ _) (Only.bind ((storeReg_only _ _).sub rfl) (fun _ => (Only.bind ((wrF_only _ _ _).sub rfl) (fun _ => (Only.bind ((wrF_only _ _ _).sub rfl) (fun _ => (by extract_lets -underBinder -merge -useContext +onlyGivenNames j; have h0 := show ∀ y, Only [.regs, .staged, .mem, .tab, .ports, .parts, .sites, .tiles, .mig, .flash, .col, .pwr, .mesh, .move, .sent] (j y) from (fun _ => (Only.pure _ _)); clear_value j; exact (Only.ite (Only.bind ((migStart_only _).sub rfl) (fun _ => (h0 _))) (Only.ite (Only.bind ((migAbort_only _).sub rfl) (fun _ => (h0 _))) (h0 _))))))))))); exact (by extract_lets -underBinder -merge -useContext +onlyGivenNames j; (try clear_value j); exact (Only.ite (Only.pure _ _) (Only.bind ((storeReg_only _ _).sub rfl) (fun _ => (Only.bind ((coverSwitched_only).sub rfl) (fun _ => (Only.pure _ _))))))); exact ((stored_only _ _).sub rfl)) (by extract_lets -underBinder -merge -useContext +onlyGivenNames j; (try clear_value j); exact ((storedUnless_only _ _ _).sub rfl))))))

theorem prxWrite_only (x0 x1 x2) : Only [.regs, .staged, .mem, .tab, .ports, .parts, .sites, .tiles, .mig, .flash, .col, .pwr, .mesh, .move, .sent] (prxWrite x0 x1 x2) := by
  delta prxWrite
  exact (Only.bind (Only.get _) (fun _ => (by extract_lets -underBinder -merge -useContext +onlyGivenNames j; (try clear_value j); exact (by split; exact (Only.bind ((emptyTree_only _).sub rfl) (fun _ => ((stored_only _ _).sub rfl))); exact (Only.ite (Only.bind ((emptyTree_only _).sub rfl) (fun _ => ((stored_only _ _).sub rfl))) (Only.ite (by extract_lets -underBinder -merge -useContext +onlyGivenNames j; (try clear_value j); exact ((storedUnless_only _ _ _).sub rfl)) (by extract_lets -underBinder -merge -useContext +onlyGivenNames j; (try clear_value j); exact ((storedUnless_only _ _ _).sub rfl)))); exact ((stored_only _ _).sub rfl)))))

theorem queueCfg_only (x0 x1 x2 x3 x4 x5) : Only [.regs, .staged, .mem, .tab, .ports, .parts, .sites, .tiles, .mig, .flash, .col, .pwr, .mesh, .move, .sent] (queueCfg x0 x1 x2 x3 x4 x5) := by
  delta queueCfg
  exact ((storedUnless_only _ _ _).sub rfl)

theorem flcWrite_only (x0 x1 x2) : Only [.regs, .staged, .mem, .tab, .ports, .parts, .sites, .tiles, .mig, .flash, .col, .pwr, .mesh, .move, .sent] (flcWrite x0 x1 x2) := by
  delta flcWrite
  exact (Only.bind (Only.get _) (fun _ => (by extract_lets -underBinder -merge -useContext +onlyGivenNames j; (try clear_value j); exact (by split; exact ((storedUnless_only _ _ _).sub rfl); exact ((storedUnless_only _ _ _).sub rfl); exact ((stored_only _ _).sub rfl)))))

theorem reqWrite_only (x0 x1 x2 x3) : Only [.regs, .staged, .mem, .tab, .ports, .parts, .sites, .tiles, .mig, .flash, .col, .pwr, .mesh, .move, .sent] (reqWrite x0 x1 x2 x3) := by
  delta reqWrite
  exact (Only.bind (Only.get _) (fun _ => (by extract_lets -underBinder -merge -useContext +onlyGivenNames j; (try clear_value j); exact (by extract_lets -underBinder -merge -useContext +onlyGivenNames j; (try clear_value j); exact (by split; exact (Only.ite (Only.pure _ _) ((stored_only _ _).sub rfl)); exact (Only.ite (Only.pure _ _) ((stepArm_only _ _ _).sub rfl)); exact (Only.ite ((stepCommit_only _).sub rfl) (Only.ite ((stepRollback_only _).sub rfl) (Only.pure _ _))); exact (by extract_lets -underBinder -merge -useContext +onlyGivenNames j; (try clear_value j); exact ((storedUnless_only _ _ _).sub rfl)); exact (by extract_lets -underBinder -merge -useContext +onlyGivenNames j; (try clear_value j); exact ((storedUnless_only _ _ _).sub rfl)); exact ((storedUnless_only _ _ _).sub rfl); exact (by extract_lets -underBinder -merge -useContext +onlyGivenNames j; (try clear_value j); exact (by extract_lets -underBinder -merge -useContext +onlyGivenNames j; (try clear_value j); exact (Only.ite (Only.pure _ _) (Only.ite (andDone_only ((prxWithdraw_only _ _ _).sub rfl) rfl) (andDone_only ((prxShare_only _ _ _).sub rfl) rfl))))); exact ((unpark_only _ _).sub rfl); exact ((listRelease_only _ _).sub rfl); exact (by extract_lets -underBinder -merge -useContext +onlyGivenNames j; (try clear_value j); exact (by extract_lets -underBinder -merge -useContext +onlyGivenNames j; (try clear_value j); exact (by split; exact (andDone_only ((adpStage_only _).sub rfl) rfl); exact (andDone_only ((adpPublish_only _ _ _).sub rfl) rfl); exact (andDone_only ((adpWithdraw_only _ _ _).sub rfl) rfl); exact (andDone_only ((adpDrop_only _ _ _).sub rfl) rfl); exact (Only.pure _ _)))); exact (Only.ite ((ringContextWrite_only _ _ _).sub rfl) ((stored_only _ _).sub rfl)))))))

theorem portWrite_only (x0 x1 x2 x3) : Only [.regs, .staged, .mem, .tab, .ports, .parts, .sites, .tiles, .mig, .flash, .col, .pwr, .mesh, .move, .sent] (portWrite x0 x1 x2 x3) := by
  delta portWrite
  exact (Only.bind (Only.get _) (fun _ => (by split; exact (by extract_lets -underBinder -merge -useContext +onlyGivenNames j; (try clear_value j); exact (Only.ite (Only.pure _ _) (Only.bind ((storeReg_only _ _).sub rfl) (fun _ => (Only.bind ((portEnabled_only _ _).sub rfl) (fun _ => (Only.pure _ _))))))); exact ((storedUnless_only _ _ _).sub rfl); exact ((storedUnless_only _ _ _).sub rfl); exact ((storedUnless_only _ _ _).sub rfl); exact (Only.ite (andDone_only ((quenchClear_only _).sub rfl) rfl) ((stored_only _ _).sub rfl)); exact ((stored_only _ _).sub rfl))))

theorem tileBlockWrite_only (x0 x1 x2) : Only [.regs, .staged, .mem, .tab, .ports, .parts, .sites, .tiles, .mig, .flash, .col, .pwr, .mesh, .move, .sent] (tileBlockWrite x0 x1 x2) := by
  delta tileBlockWrite
  exact (Only.bind (Only.get _) (fun _ => (by extract_lets -underBinder -merge -useContext +onlyGivenNames j; (try clear_value j); exact (Only.ite (Only.pure _ _) (by split; exact ((storedUnless_only _ _ _).sub rfl); exact (by extract_lets -underBinder -merge -useContext +onlyGivenNames j; (try clear_value j); exact ((storedUnless_only _ _ _).sub rfl)); exact (Only.bind ((opqTail_only _ _).sub rfl) (fun _ => (Only.pure _ _))); exact (andDone_only ((flushOps_only _).sub rfl) rfl); exact (Only.ite (Only.pure _ _) (andDone_only ((histWrite_only _ _).sub rfl) rfl)); exact (Only.ite (Only.pure _ _) (andDone_only ((walkInv_only _).sub rfl) rfl)); exact (by extract_lets -underBinder -merge -useContext +onlyGivenNames j; (try clear_value j); exact (Only.ite (Only.pure _ _) (andDone_only ((wbEntryWrite_only _ _ _).sub rfl) rfl))); exact ((wbCommand_only _ _ _ _).sub rfl); exact ((storedUnless_only _ _ _).sub rfl))))))

theorem cntWrite_only (x0 x1 x2) : Only [.regs, .staged, .mem, .tab, .ports, .parts, .sites, .tiles, .mig, .flash, .col, .pwr, .snap, .mesh, .move, .sent] (cntWrite x0 x1 x2) := by
  delta cntWrite
  exact (Only.bind (Only.get _) (fun _ => (by extract_lets -underBinder -merge -useContext +onlyGivenNames j; (try clear_value j); exact (by split; exact (by split; exact (Only.ite (Only.pure _ _) (by extract_lets -underBinder -merge -useContext +onlyGivenNames j; (try clear_value j); exact (Only.bind ((storeReg_only _ _).sub rfl) (fun _ => (by extract_lets -underBinder -merge -useContext +onlyGivenNames j; have h0 := show ∀ y, Only [.regs, .staged, .mem, .tab, .ports, .parts, .sites, .tiles, .mig, .flash, .col, .pwr, .snap, .mesh, .move, .sent] (j y) from (fun _ => (Only.pure _ _)); clear_value j; exact (Only.ite (Only.bind ((rdR_only _).sub rfl) (fun _ => (Only.bind ((snapArmed_only _ _ _).sub rfl) (fun _ => (h0 _))))) (h0 _))))))); exact ((storedUnless_only _ _ _).sub rfl)); exact ((storedUnless_only _ _ _).sub rfl); exact ((storedUnless_only _ _ _).sub rfl); exact ((stored_only _ _).sub rfl)))))

theorem prtWrite_only (x0 x1 x2) : Only [.regs, .staged, .mem, .tab, .ports, .parts, .sites, .tiles, .mig, .flash, .col, .sec, .pwr, .mesh, .move, .sent] (prtWrite x0 x1 x2) := by
  delta prtWrite
  exact (Only.bind (Only.get _) (fun _ => (by extract_lets -underBinder -merge -useContext +onlyGivenNames j; (try clear_value j); exact (by split; exact (by extract_lets -underBinder -merge -useContext +onlyGivenNames j; (try clear_value j); exact (by extract_lets -underBinder -merge -useContext +onlyGivenNames j; (try clear_value j); exact (Only.ite (Only.pure _ _) (Only.bind ((storeReg_only _ _).sub rfl) (fun _ => (by extract_lets -underBinder -merge -useContext +onlyGivenNames j; have h0 := show ∀ y, Only [.regs, .staged, .mem, .tab, .ports, .parts, .sites, .tiles, .mig, .flash, .col, .sec, .pwr, .mesh, .move, .sent] (j y) from (fun _ => (Only.pure _ _)); clear_value j; exact (Only.ite (Only.bind ((partitionStop_only _).sub rfl) (fun _ => (h0 _))) (h0 _)))))))); exact ((storedUnless_only _ _ _).sub rfl); exact ((storedUnless_only _ _ _).sub rfl); exact ((hayCallWrite_only _).sub rfl); exact (by extract_lets -underBinder -merge -useContext +onlyGivenNames j; (try clear_value j); exact ((queueCfg_only _ _ _ _ _ _).sub rfl)); exact ((flqTailWrite_only _ _).sub rfl); exact (by extract_lets -underBinder -merge -useContext +onlyGivenNames j; (try clear_value j); exact ((queueCfg_only _ _ _ _ _ _).sub rfl)); exact ((ldqTailWrite_only _ _).sub rfl); exact (by extract_lets -underBinder -merge -useContext +onlyGivenNames j; (try clear_value j); exact ((queueCfg_only _ _ _ _ _ _).sub rfl)); exact ((tdqTailWrite_only _ _).sub rfl); exact (by extract_lets -underBinder -merge -useContext +onlyGivenNames j; (try clear_value j); exact ((queueCfg_only _ _ _ _ _ _).sub rfl)); exact ((clqTailWrite_only _ _).sub rfl); exact (andDone_only ((colAbort_only _ _).sub rfl) rfl); exact ((kvRebuild_only _ _ _).sub rfl); exact ((stepAbandon_only _).sub rfl); exact ((recover_only _ _ _).sub rfl); exact (Only.ite ((storedUnless_only _ _ _).sub rfl) (Only.ite (by extract_lets -underBinder -merge -useContext +onlyGivenNames j; (try clear_value j); exact (by extract_lets -underBinder -merge -useContext +onlyGivenNames j; (try clear_value j); exact (Only.bind ((storedUnless_only _ _ _).sub rfl) (fun _ => (by extract_lets -underBinder -merge -useContext +onlyGivenNames j; have h0 := show ∀ y, Only [.regs, .staged, .mem, .tab, .ports, .parts, .sites, .tiles, .mig, .flash, .col, .sec, .pwr, .mesh, .move, .sent] (j y) from (fun _ => (Only.pure _ _)); clear_value j; exact (Only.ite (Only.bind ((mirrorAnew_only _ _).sub rfl) (fun _ => (h0 _))) (h0 _))))))) ((stored_only _ _).sub rfl)))))))

theorem blockWrite_only (x0 x1 x2 x3 x4) : Only [.regs, .staged, .mem, .tab, .record, .time, .ports, .parts, .sites, .tiles, .fab, .mig, .flash, .ted, .col, .load, .sec, .pwr, .snap, .mesh, .move, .land, .sent] (blockWrite x0 x1 x2 x3 x4) := by
  delta blockWrite
  exact (by extract_lets -underBinder -merge -useContext +onlyGivenNames j; (try clear_value j); exact (by split; exact ((tileBlockWrite_only _ _ _).sub rfl); exact ((hayWrite_only _ _ _).sub rfl); exact ((timWrite_only _ _ _).sub rfl); exact ((cntWrite_only _ _ _).sub rfl); exact ((gdcWrite_only _ _ _).sub rfl); exact ((flcWrite_only _ _ _).sub rfl); exact ((portWrite_only _ _ _ _).sub rfl); exact ((portWrite_only _ _ _ _).sub rfl); exact ((binWrite_only _ _ _).sub rfl); exact (Only.ite ((stored_only _ _).sub rfl) ((reqWrite_only _ _ _ _).sub rfl)); exact ((prxWrite_only _ _ _).sub rfl); exact (Only.ite ((stored_only _ _).sub rfl) (Only.ite ((placeTailWrite_only _ _).sub rfl) (by extract_lets -underBinder -merge -useContext +onlyGivenNames j; have h0 := show ∀ y, Only [.regs, .staged, .mem, .tab, .record, .time, .ports, .parts, .sites, .tiles, .fab, .mig, .flash, .ted, .col, .load, .sec, .pwr, .snap, .mesh, .move, .land, .sent] (j y) from (fun _ => (Only.bind (Only.get _) (fun _ => ((storedUnless_only _ _ _).sub rfl)))); clear_value j; exact (Only.ite (Only.bind ((stW_only _ _).sub rfl) (fun _ => (h0 _))) (h0 _))))); exact ((prtWrite_only _ _ _).sub rfl); exact ((storedUnless_only _ _ _).sub rfl); exact (Only.bind ((storeReg_only _ _).sub rfl) (fun _ => (Only.bind (Only.rd _ _) (fun _ => (by extract_lets -underBinder -merge -useContext +onlyGivenNames j; have h0 := show ∀ y, Only [.regs, .staged, .mem, .tab, .record, .time, .ports, .parts, .sites, .tiles, .fab, .mig, .flash, .ted, .col, .load, .sec, .pwr, .snap, .mesh, .move, .land, .sent] (j y) from (fun _ => (Only.pure _ _)); clear_value j; exact (Only.ite (Only.bind ((secCommand_only _).sub rfl) (fun _ => (h0 _))) (h0 _))))))); exact (Only.bind ((storeReg_only _ _).sub rfl) (fun _ => (by extract_lets -underBinder -merge -useContext +onlyGivenNames j; have h0 := show ∀ y, Only [.regs, .staged, .mem, .tab, .record, .time, .ports, .parts, .sites, .tiles, .fab, .mig, .flash, .ted, .col, .load, .sec, .pwr, .snap, .mesh, .move, .land, .sent] (j y) from (fun _ => (Only.pure _ _)); clear_value j; exact (Only.ite (Only.bind ((mgtPortEnabled_only _).sub rfl) (fun _ => (h0 _))) (h0 _))))); exact (Only.bind ((storeReg_only _ _).sub rfl) (fun _ => (by extract_lets -underBinder -merge -useContext +onlyGivenNames j; have h0 := show ∀ y, Only [.regs, .staged, .mem, .tab, .record, .time, .ports, .parts, .sites, .tiles, .fab, .mig, .flash, .ted, .col, .load, .sec, .pwr, .snap, .mesh, .move, .land, .sent] (j y) from (fun _ => (Only.pure _ _)); clear_value j; exact (by split; exact (Only.ite (Only.bind ((mapsTookEffect_only _).sub rfl) (fun _ => (h0 _))) (h0 _)); exact (Only.bind (Only.skip _) (fun _ => (h0 _))))))); exact ((stored_only _ _).sub rfl); exact ((stored_only _ _).sub rfl); exact ((stored_only _ _).sub rfl)))

theorem busWriteX_only (x0 x1 x2 x3 x4) : Only [.regs, .staged, .mem, .tab, .resp, .record, .time, .ports, .parts, .sites, .tiles, .fab, .mig, .flash, .ted, .col, .load, .sec, .pwr, .snap, .mesh, .move, .land, .sent] (busWriteX x0 x1 x2 x3 x4) := by
  delta busWriteX
  exact (coreActs_only _ (Only.bind (Only.get _) (fun _ => (by extract_lets -underBinder -merge -useContext +onlyGivenNames j; (try clear_value j); exact (by split; exact ((dblWrite_only _ _ _ _).sub rfl); exact (by split; exact ((refuseAs_only _ _ _ _).sub rfl); exact (by extract_lets -underBinder -merge -useContext +onlyGivenNames j; (try clear_value j); exact (by extract_lets -underBinder -merge -useContext +onlyGivenNames j; have h0 := show ∀ y, Only [.regs, .staged, .mem, .tab, .resp, .record, .time, .ports, .parts, .sites, .tiles, .fab, .mig, .flash, .ted, .col, .load, .sec, .pwr, .snap, .mesh, .move, .land, .sent] (j y) from (by intro _; unfold j; exact (by extract_lets -underBinder -merge -useContext +onlyGivenNames j; have h0 := show ∀ y, Only [.regs, .staged, .mem, .tab, .resp, .record, .time, .ports, .parts, .sites, .tiles, .fab, .mig, .flash, .ted, .col, .load, .sec, .pwr, .snap, .mesh, .move, .land, .sent] (j y) from (fun _ => ((milestonesCheck_only).sub rfl)); clear_value j; exact (by split; exact (Only.bind ((refuseAs_only _ _ _ _).sub rfl) (fun _ => (h0 _))); exact (Only.bind ((answer_only _).sub rfl) (fun _ => (h0 _)))))); clear_value j; exact (Only.ite (Only.bind ((commonWrite_only _ _ _ _ _ _).sub rfl) (fun _ => (h0 _))) (Only.bind ((blockWrite_only _ _ _ _ _).sub rfl) (fun _ => (h0 _))))))); exact ((refuseAs_only _ _ _ _).sub rfl))))) rfl)

theorem busWrite_only (x0 x1 x2) : Only [.regs, .staged, .mem, .tab, .resp, .record, .time, .ports, .parts, .sites, .tiles, .fab, .mig, .flash, .ted, .col, .load, .sec, .pwr, .snap, .mesh, .move, .land, .sent] (busWrite x0 x1 x2) := by
  delta busWrite
  exact ((busWriteX_only _ _ _ _ _).sub rfl)

theorem coreFault_only (x0 x1 x2 x3 x4) : Only [.regs, .mem, .sent] (coreFault x0 x1 x2 x3 x4) := by
  delta coreFault
  exact (Only.bind ((vlog_only _ _ _).sub rfl) (fun _ => (by extract_lets -underBinder -merge -useContext +onlyGivenNames j; have h0 := show ∀ y, Only [.regs, .mem, .sent] (j y) from (fun _ => ((send_only _).sub rfl)); clear_value j; exact (by split; exact (Only.bind ((count_only _ _).sub rfl) (fun _ => (h0 _))); exact (Only.bind (Only.skip _) (fun _ => (h0 _)))))))

theorem haywardServe_only (x0 x1 x2 x3 x4 x5 x6 x7) : Only [.regs, .mem, .sent] (haywardServe x0 x1 x2 x3 x4 x5 x6 x7) := by
  delta haywardServe
  exact (Only.ite (Only.ite ((stBytes_only _ _).sub rfl) (Only.bind ((ldBytes_only _ _).sub rfl) (fun _ => ((send_only _).sub rfl)))) ((coreFault_only _ _ _ _ _).sub rfl))

theorem discardPacket_only (x0) : Only [.regs, .mem, .ports, .sent] (discardPacket x0) := by
  delta discardPacket
  exact (Only.bind (Only.get _) (fun _ => (Only.ite (Only.pure _ _) (by split; exact (Only.skip _); exact ((sendOn_only _).sub rfl); exact (Only.bind ((takePacket_only _).sub rfl) (fun _ => ((dropPacket_only _ _).sub rfl)))))))

theorem coreServe_only (x0 x1 x2 x3 x4 x5 x6 x7 x8) : Only [.regs, .mem, .tab, .sites, .mig, .sent] (coreServe x0 x1 x2 x3 x4 x5 x6 x7 x8) := by
  delta coreServe
  exact (Only.bind (Only.get _) (fun _ => (by split; exact ((coreFault_only _ _ _ _ _).sub rfl); exact (Only.ite ((coreFault_only _ _ _ _ _).sub rfl) (Only.ite (Only.bind ((spWrite_only _ _ _ _ _).sub rfl) (fun _ => (by split; exact ((send_only _).sub rfl); exact (Only.skip _)))) (Only.bind ((spRead_only _ _ _ _ _).sub rfl) (fun _ => (by split; exact ((send_only _).sub rfl); exact ((send_only _).sub rfl)))))))))

theorem linkEvent_only {l} (k) {a : Act Bool} (h : Only l a) (hl : Field.sub [.regs, .mem, .tab, .ports, .parts, .sites, .mig, .col, .land, .sent, .free] l = true) :
    Only l (linkEvent k a) := by
  delta linkEvent
  exact Only.bind h (fun _ => Only.ite ((portLost_only _).sub (Field.sub_trans rfl hl)) (Only.pure _ _))

theorem busField_only (x0 x1 x2 x3) : Only [.regs, .staged, .mem, .tab, .resp, .record, .time, .ports, .parts, .sites, .tiles, .fab, .mig, .flash, .ted, .col, .load, .sec, .pwr, .snap, .mesh, .move, .land, .sent] (busField x0 x1 x2 x3) := by
  delta busField
  exact (Only.bind ((rdR_only _).sub rfl) (fun _ => ((busWriteX_only _ _ _ _ _).sub rfl)))

theorem coreAccess_only (x0 x1 x2 x3 x4) : Only [.regs, .staged, .mem, .tab, .resp, .record, .time, .ports, .parts, .sites, .tiles, .fab, .mig, .flash, .ted, .col, .load, .sec, .pwr, .snap, .mesh, .move, .land, .sent] (coreAccess x0 x1 x2 x3 x4) := by
  delta coreAccess
  exact (coreActs_only _ (Only.bind (Only.get _) (fun _ => (by extract_lets -underBinder -merge -useContext +onlyGivenNames j; (try clear_value j); exact (Only.ite (Only.ite ((busWriteX_only _ _ _ _ _).sub rfl) ((busRead_only _ _ _).sub rfl)) (Only.ite ((boardAccess_only _ _ _ _ _ _).sub rfl) (by split; exact ((coreFault_only _ _ _ _ _).sub rfl); exact ((coreServe_only _ _ _ _ _ _ _ _ _).sub rfl); exact (Only.ite ((haywardServe_only _ _ _ _ _ _ _ _).sub rfl) ((coreFault_only _ _ _ _ _).sub rfl)))))))) rfl)

theorem secWrite_only (x0 x1 x2 x3) : Only [.regs, .staged, .mem, .tab, .resp, .record, .time, .ports, .parts, .sites, .tiles, .fab, .mig, .flash, .ted, .col, .load, .sec, .pwr, .snap, .mesh, .move, .land, .sent] (secWrite x0 x1 x2 x3) := by
  delta secWrite
  exact ((busWrite_only _ _ _).sub rfl)

theorem lifecycleWrite_only (x0 x1 x2 x3) : Only [.regs, .staged, .mem, .tab, .resp, .record, .time, .ports, .parts, .sites, .tiles, .fab, .mig, .flash, .ted, .col, .load, .sec, .pwr, .snap, .mesh, .move, .land, .sent] (lifecycleWrite x0 x1 x2 x3) := by
  delta lifecycleWrite
  exact (Only.bind (Only.rd _ _) (fun _ => (Only.ite ((secWrite_only _ _ _ _).sub rfl) (Only.pure _ _))))

theorem packageReset_only (x0 x1 x2) : Only [.regs, .staged, .mem, .tab, .resp, .record, .time, .ports, .parts, .sites, .tiles, .fab, .mig, .flash, .ted, .col, .load, .sec, .pwr, .snap, .mesh, .move, .land, .sent] (packageReset x0 x1 x2) := by
  delta packageReset
  exact (Only.bind (Only.rd _ _) (fun _ => (by extract_lets -underBinder -merge -useContext +onlyGivenNames j; have h0 := show ∀ y, Only [.regs, .staged, .mem, .tab, .resp, .record, .time, .ports, .parts, .sites, .tiles, .fab, .mig, .flash, .ted, .col, .load, .sec, .pwr, .snap, .mesh, .move, .land, .sent] (j y) from (fun _ => ((busWrite_only _ _ _).sub rfl)); clear_value j; exact (Only.ite (Only.bind ((modLand_only _).sub rfl) (fun _ => (h0 _))) (h0 _)))))

theorem stepWaits_only (x0) : Only [.regs] (stepWaits x0) := by
  delta stepWaits
  exact (Only.bind (Only.get _) (fun _ => (Only.ite ((count_only _ _).sub rfl) (Only.pure _ _))))

theorem tickNext_only (x0 x1 x2) : Only [.regs, .time] (tickNext x0 x1 x2) := by
  delta tickNext
  exact (by extract_lets -underBinder -merge -useContext +onlyGivenNames j; have h0 := show ∀ y, Only [.regs, .time] (j y) from (fun _ => (Only.bind (Only.rd _ _) (fun _ => ((modTime_only _).sub rfl)))); clear_value j; exact (Only.ite (Only.bind ((wrF_only _ _ _).sub rfl) (fun _ => (Only.bind ((wrR_only _ _).sub rfl) (fun _ => (h0 _))))) (h0 _)))

theorem elapse_only (x0) : Only [.regs, .mem, .tab, .ports, .mig, .load, .land, .sent, .free] (elapse x0) := by
  delta elapse
  exact (Only.ite (Only.pure _ _) (Only.bind ((powerMicrosecond_only _).sub rfl) (fun _ => (Only.bind ((thresholdMicrosecond_only _).sub rfl) (fun _ => (Only.bind ((tileWaits_only _).sub rfl) (fun _ => (Only.bind (Only.get _) (fun _ => (by extract_lets -underBinder -merge -useContext +onlyGivenNames j; have h0 := show ∀ y, Only [.regs, .mem, .tab, .ports, .mig, .load, .land, .sent, .free] (j y) from (by intro _; unfold j; exact (by extract_lets -underBinder -merge -useContext +onlyGivenNames j; have h0 := show ∀ y, Only [.regs, .mem, .tab, .ports, .mig, .load, .land, .sent, .free] (j y) from (by intro _; unfold j; exact (by extract_lets -underBinder -merge -useContext +onlyGivenNames j; have h0 := show ∀ y, Only [.regs, .mem, .tab, .ports, .mig, .load, .land, .sent, .free] (j y) from (fun _ => (Only.bind ((admitWaits_only _).sub rfl) (fun _ => (Only.bind ((commitWaits_only _).sub rfl) (fun _ => (Only.bind ((placeWaits_only _).sub rfl) (fun _ => (Only.bind ((streamWaits_only _).sub rfl) (fun _ => (Only.bind ((holdWaits_only _).sub rfl) (fun _ => (Only.bind ((flashWaits_only _).sub rfl) (fun _ => (Only.bind ((migProgress_only).sub rfl) (fun _ => (Only.bind ((bringUpTime_only _).sub rfl) (fun _ => (Only.bind ((linkWaits_only _).sub rfl) (fun _ => (Only.bind ((qpWaits_only).sub rfl) (fun _ => (Only.bind (Only.forIn _ _ (fun _ _ => (by extract_lets -underBinder -merge -useContext +onlyGivenNames j; (try clear_value j); exact (Only.ite (Only.bind ((count_only _ _).sub rfl) (fun _ => (Only.pure _ _))) (Only.pure _ _))))) (fun _ => (Only.pure _ _)))))))))))))))))))))))); clear_value j; exact (Only.ite (Only.bind ((count_only _ _).sub rfl) (fun _ => (h0 _))) (h0 _)))); clear_value j; exact (Only.ite (Only.bind ((count_only _ _).sub rfl) (fun _ => (h0 _))) (h0 _)))); clear_value j; exact (Only.ite (Only.bind ((count_only _ _).sub rfl) (fun _ => (h0 _))) (h0 _))))))))))))

theorem clockTo_only (x0) : Only [.regs, .mem, .tab, .time, .ports, .mig, .load, .land, .sent, .free] (clockTo x0) := by
  delta clockTo
  exact (Only.bind (Only.rd _ _) (fun _ => (Only.ite (Only.bind ((wrR_only _ _).sub rfl) (fun _ => (Only.bind ((modTime_only _).sub rfl) (fun _ => ((elapse_only _).sub rfl))))) (Only.pure _ _))))

theorem gleanStarts_only (x0 x1 x2) : Only [.regs, .mem, .tab, .time, .ports, .mig, .flash, .load, .pwr, .land, .sent, .free] (gleanStarts x0 x1 x2) := by
  delta gleanStarts
  exact (Only.bind (Only.get _) (fun _ => (Only.ite (Only.bind ((clockTo_only _).sub rfl) (fun _ => ((gleanOpen_only _ _ _).sub rfl))) (Only.pure _ _))))

theorem gleanEnds_only (x0 x1) : Only [.regs, .mem, .tab, .time, .ports, .sites, .mig, .flash, .load, .land, .sent, .free] (gleanEnds x0 x1) := by
  delta gleanEnds
  exact (Only.bind (Only.get _) (fun _ => (Only.ite (by extract_lets -underBinder -merge -useContext +onlyGivenNames j; have h0 := show ∀ y, Only [.regs, .mem, .tab, .time, .ports, .sites, .mig, .flash, .load, .land, .sent, .free] (j y) from (fun _ => ((gleanClose_only _ _).sub rfl)); clear_value j; exact (Only.ite (Only.bind ((clockTo_only _).sub rfl) (fun _ => (h0 _))) (h0 _))) (Only.pure _ _))))

theorem tickEdge_only (x0 x1) : Only [.regs, .staged, .mem, .tab, .time, .ports, .parts, .sites, .tiles, .fab, .mig, .flash, .col, .load, .pwr, .snap, .mesh, .move, .land, .sent, .free] (tickEdge x0 x1) := by
  delta tickEdge
  exact (Only.bind (Only.get _) (fun _ => (Only.ite (Only.pure _ _) (by extract_lets -underBinder -merge -useContext +onlyGivenNames j; (try clear_value j); exact (by extract_lets -underBinder -merge -useContext +onlyGivenNames j; (try clear_value j); exact (by extract_lets -underBinder -merge -useContext +onlyGivenNames j; (try clear_value j); exact (Only.bind ((clockTo_only _).sub rfl) (fun _ => (Only.bind ((msgTaken_only).sub rfl) (fun _ => (Only.bind ((wrF_only _ _ _).sub rfl) (fun _ => (Only.bind ((wrR_only _ _).sub rfl) (fun _ => (Only.bind ((count_only _ _).sub rfl) (fun _ => (Only.bind (Only.forIn _ _ (fun _ _ => (Only.bind ((modSite_only _ _).sub rfl) (fun _ => (Only.pure _ _))))) (fun _ => (Only.bind ((flashTick_only).sub rfl) (fun _ => (Only.bind (Only.forIn _ _ (fun _ _ => (Only.bind ((modTile_only _ _).sub rfl) (fun _ => (Only.pure _ _))))) (fun _ => (Only.bind ((snapshots_only _ _).sub rfl) (fun _ => (Only.bind ((stagedApply_only _ _).sub rfl) (fun _ => (Only.bind ((mapsTookEffect_only _).sub rfl) (fun _ => (Only.bind (Only.rd _ _) (fun _ => (Only.bind ((tickNext_only _ _ _).sub rfl) (fun _ => (Only.bind ((powerEdge_only).sub rfl) (fun _ => (Only.bind (Only.forIn _ _ (fun _ _ => (Only.bind ((biasEdge_only _).sub rfl) (fun _ => (Only.bind ((biasUpdate_only _).sub rfl) (fun _ => (Only.pure _ _))))))) (fun _ => (Only.bind ((stagedApply_only _ _).sub rfl) (fun _ => (Only.bind ((grantsTookEffect_only _).sub rfl) (fun _ => (Only.bind ((mapsJudge_only).sub rfl) (fun _ => (Only.bind ((migCutover_only).sub rfl) (fun _ => (Only.bind (Only.forIn _ _ (fun _ _ => (Only.bind ((creditGrow_only _).sub rfl) (fun _ => (Only.pure _ _))))) (fun _ => (Only.bind (Only.forIn _ _ (fun _ _ => (Only.bind ((stepWaits_only _).sub rfl) (fun _ => (Only.bind ((stepStart_only _).sub rfl) (fun _ => (Only.bind ((colLaunches_only _ _).sub rfl) (fun _ => (Only.pure _ _))))))))) (fun _ => (Only.bind ((gleansAtEdge_only _ _).sub rfl) (fun _ => ((milestonesCheck_only).sub rfl)))))))))))))))))))))))))))))))))))))))))))))))))))

theorem idleStep_only : Only [.regs, .staged, .mem, .tab, .time, .ports, .parts, .sites, .tiles, .fab, .mig, .flash, .col, .load, .pwr, .snap, .mesh, .move, .land, .sent, .free] idleStep := by
  delta idleStep
  exact (Only.bind (Only.rd _ _) (fun _ => (Only.bind ((clockTick_only).sub rfl) (fun _ => (Only.bind ((mgtDrain_only).sub rfl) (fun _ => (Only.bind (Only.rd _ _) (fun _ => (Only.bind ((elapse_only _).sub rfl) (fun _ => (Only.bind (Only.forIn _ _ (fun _ _ => (Only.bind ((quenchExpire_only _).sub rfl) (fun _ => (Only.pure _ _))))) (fun _ => (Only.bind (Only.get _) (fun _ => (Only.ite ((tickEdge_only _ _).sub rfl) (Only.pure _ _))))))))))))))))

end Sys2Proof.Machine
end

