-- ==== Sys2Proof/Laws/Read.lean ====
section
/-! SUPPORT. What the accessors read after each primitive update: the value written, at the place written, and elsewhere what
was there. -/

namespace Sys2Proof.Machine

variable (s : State)

@[simp] theorem reg_upd_stage (a : Nat) (v : Option Word) (b : Nat) : ((Upd.stage a v).apply s).reg b = s.reg b := rfl
@[simp] theorem reg_upd_clearStaged (lo hi : Nat) (b : Nat) : ((Upd.clearStaged lo hi).apply s).reg b = s.reg b := rfl
@[simp] theorem reg_upd_byte (k : Nat) (v : Byte) (b : Nat) : ((Upd.byte k v).apply s).reg b = s.reg b := rfl
@[simp] theorem reg_upd_clearMem (lo hi : Nat) (b : Nat) : ((Upd.clearMem lo hi).apply s).reg b = s.reg b := rfl
@[simp] theorem reg_upd_word (k : Nat) (v : Word) (b : Nat) : ((Upd.word k v).apply s).reg b = s.reg b := rfl
@[simp] theorem reg_upd_clearTab (lo hi : Nat) (b : Nat) : ((Upd.clearTab lo hi).apply s).reg b = s.reg b := rfl
@[simp] theorem reg_upd_resp (r : Resp) (b : Nat) : ((Upd.resp r).apply s).reg b = s.reg b := rfl
@[simp] theorem reg_upd_record (r : BootRecord) (b : Nat) : ((Upd.record r).apply s).reg b = s.reg b := rfl
@[simp] theorem reg_upd_port (k : Nat) (v : PortX) (b : Nat) : ((Upd.port k v).apply s).reg b = s.reg b := rfl
@[simp] theorem reg_upd_part (k : Nat) (v : PartX) (b : Nat) : ((Upd.part k v).apply s).reg b = s.reg b := rfl
@[simp] theorem reg_upd_time (t : TimeX) (b : Nat) : ((Upd.time t).apply s).reg b = s.reg b := rfl
@[simp] theorem reg_upd_site (k : Nat) (v : SiteX) (b : Nat) : ((Upd.site k v).apply s).reg b = s.reg b := rfl
@[simp] theorem reg_upd_tile (k : Nat) (v : TileX) (b : Nat) : ((Upd.tile k v).apply s).reg b = s.reg b := rfl
@[simp] theorem reg_upd_fab (x : FabX) (b : Nat) : ((Upd.fab x).apply s).reg b = s.reg b := rfl
@[simp] theorem reg_upd_mig (m : MigX) (b : Nat) : ((Upd.mig m).apply s).reg b = s.reg b := rfl
@[simp] theorem reg_upd_flash (x : FlashX) (b : Nat) : ((Upd.flash x).apply s).reg b = s.reg b := rfl
@[simp] theorem reg_upd_ted (x : TedX) (b : Nat) : ((Upd.ted x).apply s).reg b = s.reg b := rfl
@[simp] theorem reg_upd_col (x : ColX) (b : Nat) : ((Upd.col x).apply s).reg b = s.reg b := rfl
@[simp] theorem reg_upd_load (x : LoadX) (b : Nat) : ((Upd.load x).apply s).reg b = s.reg b := rfl
@[simp] theorem reg_upd_sec (x : SecX) (b : Nat) : ((Upd.sec x).apply s).reg b = s.reg b := rfl
@[simp] theorem reg_upd_pwr (x : PwrX) (b : Nat) : ((Upd.pwr x).apply s).reg b = s.reg b := rfl
@[simp] theorem reg_upd_snap (x : SnapX) (b : Nat) : ((Upd.snap x).apply s).reg b = s.reg b := rfl
@[simp] theorem reg_upd_mesh (x : MeshX) (b : Nat) : ((Upd.mesh x).apply s).reg b = s.reg b := rfl
@[simp] theorem reg_upd_move (x : MoveX) (b : Nat) : ((Upd.move x).apply s).reg b = s.reg b := rfl
@[simp] theorem reg_upd_land (x : LandX) (b : Nat) : ((Upd.land x).apply s).reg b = s.reg b := rfl
@[simp] theorem reg_upd_send (o : Out) (b : Nat) : ((Upd.send o).apply s).reg b = s.reg b := rfl
@[simp] theorem reg_upd_free (n : Nat) (b : Nat) : ((Upd.free n).apply s).reg b = s.reg b := rfl
@[simp] theorem reg_upd_self (a : Nat) (v : Word) : ((Upd.reg a v).apply s).reg a = v := storeGet_put_same _ _ _
theorem reg_upd_ne (a : Nat) (v : Word) (b : Nat) (h : b ≠ a) : ((Upd.reg a v).apply s).reg b = s.reg b := storeGet_put_ne _ _ _ _ h
theorem reg_upd_reg (a : Nat) (v : Word) (b : Nat) : ((Upd.reg a v).apply s).reg b = if b = a then v else s.reg b :=
  storeGet_put _ _ _ _
theorem reg_upd_clearRegs (lo hi b : Nat) (h : storeWf regDefault s.regs = true) :
    ((Upd.clearRegs lo hi).apply s).reg b = if lo ≤ b ∧ b < hi then regDefault b else s.reg b := storeGet_clear _ _ _ h

@[simp] theorem wordAt_upd_reg (a : Nat) (v : Word) (b : Nat) : ((Upd.reg a v).apply s).wordAt b = s.wordAt b := rfl
@[simp] theorem wordAt_upd_clearRegs (lo hi : Nat) (b : Nat) : ((Upd.clearRegs lo hi).apply s).wordAt b = s.wordAt b := rfl
@[simp] theorem wordAt_upd_stage (a : Nat) (v : Option Word) (b : Nat) : ((Upd.stage a v).apply s).wordAt b = s.wordAt b := rfl
@[simp] theorem wordAt_upd_clearStaged (lo hi : Nat) (b : Nat) : ((Upd.clearStaged lo hi).apply s).wordAt b = s.wordAt b := rfl
@[simp] theorem wordAt_upd_byte (k : Nat) (v : Byte) (b : Nat) : ((Upd.byte k v).apply s).wordAt b = s.wordAt b := rfl
@[simp] theorem wordAt_upd_clearMem (lo hi : Nat) (b : Nat) : ((Upd.clearMem lo hi).apply s).wordAt b = s.wordAt b := rfl
@[simp] theorem wordAt_upd_resp (r : Resp) (b : Nat) : ((Upd.resp r).apply s).wordAt b = s.wordAt b := rfl
@[simp] theorem wordAt_upd_record (r : BootRecord) (b : Nat) : ((Upd.record r).apply s).wordAt b = s.wordAt b := rfl
@[simp] theorem wordAt_upd_port (k : Nat) (v : PortX) (b : Nat) : ((Upd.port k v).apply s).wordAt b = s.wordAt b := rfl
@[simp] theorem wordAt_upd_part (k : Nat) (v : PartX) (b : Nat) : ((Upd.part k v).apply s).wordAt b = s.wordAt b := rfl
@[simp] theorem wordAt_upd_time (t : TimeX) (b : Nat) : ((Upd.time t).apply s).wordAt b = s.wordAt b := rfl
@[simp] theorem wordAt_upd_site (k : Nat) (v : SiteX) (b : Nat) : ((Upd.site k v).apply s).wordAt b = s.wordAt b := rfl
@[simp] theorem wordAt_upd_tile (k : Nat) (v : TileX) (b : Nat) : ((Upd.tile k v).apply s).wordAt b = s.wordAt b := rfl
@[simp] theorem wordAt_upd_fab (x : FabX) (b : Nat) : ((Upd.fab x).apply s).wordAt b = s.wordAt b := rfl
@[simp] theorem wordAt_upd_mig (m : MigX) (b : Nat) : ((Upd.mig m).apply s).wordAt b = s.wordAt b := rfl
@[simp] theorem wordAt_upd_flash (x : FlashX) (b : Nat) : ((Upd.flash x).apply s).wordAt b = s.wordAt b := rfl
@[simp] theorem wordAt_upd_ted (x : TedX) (b : Nat) : ((Upd.ted x).apply s).wordAt b = s.wordAt b := rfl
@[simp] theorem wordAt_upd_col (x : ColX) (b : Nat) : ((Upd.col x).apply s).wordAt b = s.wordAt b := rfl
@[simp] theorem wordAt_upd_load (x : LoadX) (b : Nat) : ((Upd.load x).apply s).wordAt b = s.wordAt b := rfl
@[simp] theorem wordAt_upd_sec (x : SecX) (b : Nat) : ((Upd.sec x).apply s).wordAt b = s.wordAt b := rfl
@[simp] theorem wordAt_upd_pwr (x : PwrX) (b : Nat) : ((Upd.pwr x).apply s).wordAt b = s.wordAt b := rfl
@[simp] theorem wordAt_upd_snap (x : SnapX) (b : Nat) : ((Upd.snap x).apply s).wordAt b = s.wordAt b := rfl
@[simp] theorem wordAt_upd_mesh (x : MeshX) (b : Nat) : ((Upd.mesh x).apply s).wordAt b = s.wordAt b := rfl
@[simp] theorem wordAt_upd_move (x : MoveX) (b : Nat) : ((Upd.move x).apply s).wordAt b = s.wordAt b := rfl
@[simp] theorem wordAt_upd_land (x : LandX) (b : Nat) : ((Upd.land x).apply s).wordAt b = s.wordAt b := rfl
@[simp] theorem wordAt_upd_send (o : Out) (b : Nat) : ((Upd.send o).apply s).wordAt b = s.wordAt b := rfl
@[simp] theorem wordAt_upd_free (n : Nat) (b : Nat) : ((Upd.free n).apply s).wordAt b = s.wordAt b := rfl
@[simp] theorem wordAt_upd_self (k : Nat) (v : Word) : ((Upd.word k v).apply s).wordAt k = v := storeGet_put_same _ _ _
theorem wordAt_upd_ne (k : Nat) (v : Word) (b : Nat) (h : b ≠ k) : ((Upd.word k v).apply s).wordAt b = s.wordAt b := storeGet_put_ne _ _ _ _ h
theorem wordAt_upd_word (k : Nat) (v : Word) (b : Nat) : ((Upd.word k v).apply s).wordAt b = if b = k then v else s.wordAt b :=
  storeGet_put _ _ _ _
theorem wordAt_upd_clearTab (lo hi b : Nat) (h : storeWf (fun _ => 0) s.tab = true) :
    ((Upd.clearTab lo hi).apply s).wordAt b = if lo ≤ b ∧ b < hi then 0 else s.wordAt b := storeGet_clear _ _ _ h

@[simp] theorem byteAt_upd_reg (a : Nat) (v : Word) (b : Nat) : ((Upd.reg a v).apply s).byteAt b = s.byteAt b := rfl
@[simp] theorem byteAt_upd_clearRegs (lo hi : Nat) (b : Nat) : ((Upd.clearRegs lo hi).apply s).byteAt b = s.byteAt b := rfl
@[simp] theorem byteAt_upd_stage (a : Nat) (v : Option Word) (b : Nat) : ((Upd.stage a v).apply s).byteAt b = s.byteAt b := rfl
@[simp] theorem byteAt_upd_clearStaged (lo hi : Nat) (b : Nat) : ((Upd.clearStaged lo hi).apply s).byteAt b = s.byteAt b := rfl
@[simp] theorem byteAt_upd_word (k : Nat) (v : Word) (b : Nat) : ((Upd.word k v).apply s).byteAt b = s.byteAt b := rfl
@[simp] theorem byteAt_upd_clearTab (lo hi : Nat) (b : Nat) : ((Upd.clearTab lo hi).apply s).byteAt b = s.byteAt b := rfl
@[simp] theorem byteAt_upd_resp (r : Resp) (b : Nat) : ((Upd.resp r).apply s).byteAt b = s.byteAt b := rfl
@[simp] theorem byteAt_upd_record (r : BootRecord) (b : Nat) : ((Upd.record r).apply s).byteAt b = s.byteAt b := rfl
@[simp] theorem byteAt_upd_port (k : Nat) (v : PortX) (b : Nat) : ((Upd.port k v).apply s).byteAt b = s.byteAt b := rfl
@[simp] theorem byteAt_upd_part (k : Nat) (v : PartX) (b : Nat) : ((Upd.part k v).apply s).byteAt b = s.byteAt b := rfl
@[simp] theorem byteAt_upd_time (t : TimeX) (b : Nat) : ((Upd.time t).apply s).byteAt b = s.byteAt b := rfl
@[simp] theorem byteAt_upd_site (k : Nat) (v : SiteX) (b : Nat) : ((Upd.site k v).apply s).byteAt b = s.byteAt b := rfl
@[simp] theorem byteAt_upd_tile (k : Nat) (v : TileX) (b : Nat) : ((Upd.tile k v).apply s).byteAt b = s.byteAt b := rfl
@[simp] theorem byteAt_upd_fab (x : FabX) (b : Nat) : ((Upd.fab x).apply s).byteAt b = s.byteAt b := rfl
@[simp] theorem byteAt_upd_mig (m : MigX) (b : Nat) : ((Upd.mig m).apply s).byteAt b = s.byteAt b := rfl
@[simp] theorem byteAt_upd_flash (x : FlashX) (b : Nat) : ((Upd.flash x).apply s).byteAt b = s.byteAt b := rfl
@[simp] theorem byteAt_upd_ted (x : TedX) (b : Nat) : ((Upd.ted x).apply s).byteAt b = s.byteAt b := rfl
@[simp] theorem byteAt_upd_col (x : ColX) (b : Nat) : ((Upd.col x).apply s).byteAt b = s.byteAt b := rfl
@[simp] theorem byteAt_upd_load (x : LoadX) (b : Nat) : ((Upd.load x).apply s).byteAt b = s.byteAt b := rfl
@[simp] theorem byteAt_upd_sec (x : SecX) (b : Nat) : ((Upd.sec x).apply s).byteAt b = s.byteAt b := rfl
@[simp] theorem byteAt_upd_pwr (x : PwrX) (b : Nat) : ((Upd.pwr x).apply s).byteAt b = s.byteAt b := rfl
@[simp] theorem byteAt_upd_snap (x : SnapX) (b : Nat) : ((Upd.snap x).apply s).byteAt b = s.byteAt b := rfl
@[simp] theorem byteAt_upd_mesh (x : MeshX) (b : Nat) : ((Upd.mesh x).apply s).byteAt b = s.byteAt b := rfl
@[simp] theorem byteAt_upd_move (x : MoveX) (b : Nat) : ((Upd.move x).apply s).byteAt b = s.byteAt b := rfl
@[simp] theorem byteAt_upd_land (x : LandX) (b : Nat) : ((Upd.land x).apply s).byteAt b = s.byteAt b := rfl
@[simp] theorem byteAt_upd_send (o : Out) (b : Nat) : ((Upd.send o).apply s).byteAt b = s.byteAt b := rfl
@[simp] theorem byteAt_upd_free (n : Nat) (b : Nat) : ((Upd.free n).apply s).byteAt b = s.byteAt b := rfl
@[simp] theorem byteAt_upd_self (k : Nat) (v : Byte) : ((Upd.byte k v).apply s).byteAt k = v := storeGet_put_same _ _ _
theorem byteAt_upd_ne (k : Nat) (v : Byte) (b : Nat) (h : b ≠ k) : ((Upd.byte k v).apply s).byteAt b = s.byteAt b := storeGet_put_ne _ _ _ _ h
theorem byteAt_upd_byte (k : Nat) (v : Byte) (b : Nat) : ((Upd.byte k v).apply s).byteAt b = if b = k then v else s.byteAt b :=
  storeGet_put _ _ _ _
theorem byteAt_upd_clearMem (lo hi b : Nat) (h : storeWf (fun _ => 0) s.mem = true) :
    ((Upd.clearMem lo hi).apply s).byteAt b = if lo ≤ b ∧ b < hi then 0 else s.byteAt b := storeGet_clear _ _ _ h

@[simp] theorem port_upd_reg (a : Nat) (v : Word) (b : Nat) : ((Upd.reg a v).apply s).port b = s.port b := rfl
@[simp] theorem port_upd_clearRegs (lo hi : Nat) (b : Nat) : ((Upd.clearRegs lo hi).apply s).port b = s.port b := rfl
@[simp] theorem port_upd_stage (a : Nat) (v : Option Word) (b : Nat) : ((Upd.stage a v).apply s).port b = s.port b := rfl
@[simp] theorem port_upd_clearStaged (lo hi : Nat) (b : Nat) : ((Upd.clearStaged lo hi).apply s).port b = s.port b := rfl
@[simp] theorem port_upd_byte (k : Nat) (v : Byte) (b : Nat) : ((Upd.byte k v).apply s).port b = s.port b := rfl
@[simp] theorem port_upd_clearMem (lo hi : Nat) (b : Nat) : ((Upd.clearMem lo hi).apply s).port b = s.port b := rfl
@[simp] theorem port_upd_word (k : Nat) (v : Word) (b : Nat) : ((Upd.word k v).apply s).port b = s.port b := rfl
@[simp] theorem port_upd_clearTab (lo hi : Nat) (b : Nat) : ((Upd.clearTab lo hi).apply s).port b = s.port b := rfl
@[simp] theorem port_upd_resp (r : Resp) (b : Nat) : ((Upd.resp r).apply s).port b = s.port b := rfl
@[simp] theorem port_upd_record (r : BootRecord) (b : Nat) : ((Upd.record r).apply s).port b = s.port b := rfl
@[simp] theorem port_upd_part (k : Nat) (v : PartX) (b : Nat) : ((Upd.part k v).apply s).port b = s.port b := rfl
@[simp] theorem port_upd_time (t : TimeX) (b : Nat) : ((Upd.time t).apply s).port b = s.port b := rfl
@[simp] theorem port_upd_site (k : Nat) (v : SiteX) (b : Nat) : ((Upd.site k v).apply s).port b = s.port b := rfl
@[simp] theorem port_upd_tile (k : Nat) (v : TileX) (b : Nat) : ((Upd.tile k v).apply s).port b = s.port b := rfl
@[simp] theorem port_upd_fab (x : FabX) (b : Nat) : ((Upd.fab x).apply s).port b = s.port b := rfl
@[simp] theorem port_upd_mig (m : MigX) (b : Nat) : ((Upd.mig m).apply s).port b = s.port b := rfl
@[simp] theorem port_upd_flash (x : FlashX) (b : Nat) : ((Upd.flash x).apply s).port b = s.port b := rfl
@[simp] theorem port_upd_ted (x : TedX) (b : Nat) : ((Upd.ted x).apply s).port b = s.port b := rfl
@[simp] theorem port_upd_col (x : ColX) (b : Nat) : ((Upd.col x).apply s).port b = s.port b := rfl
@[simp] theorem port_upd_load (x : LoadX) (b : Nat) : ((Upd.load x).apply s).port b = s.port b := rfl
@[simp] theorem port_upd_sec (x : SecX) (b : Nat) : ((Upd.sec x).apply s).port b = s.port b := rfl
@[simp] theorem port_upd_pwr (x : PwrX) (b : Nat) : ((Upd.pwr x).apply s).port b = s.port b := rfl
@[simp] theorem port_upd_snap (x : SnapX) (b : Nat) : ((Upd.snap x).apply s).port b = s.port b := rfl
@[simp] theorem port_upd_mesh (x : MeshX) (b : Nat) : ((Upd.mesh x).apply s).port b = s.port b := rfl
@[simp] theorem port_upd_move (x : MoveX) (b : Nat) : ((Upd.move x).apply s).port b = s.port b := rfl
@[simp] theorem port_upd_land (x : LandX) (b : Nat) : ((Upd.land x).apply s).port b = s.port b := rfl
@[simp] theorem port_upd_send (o : Out) (b : Nat) : ((Upd.send o).apply s).port b = s.port b := rfl
@[simp] theorem port_upd_free (n : Nat) (b : Nat) : ((Upd.free n).apply s).port b = s.port b := rfl
@[simp] theorem port_upd_self (k : Nat) (v : PortX) : ((Upd.port k v).apply s).port k = v := storeGet_put_same _ _ _
theorem port_upd_ne (k : Nat) (v : PortX) (b : Nat) (h : b ≠ k) : ((Upd.port k v).apply s).port b = s.port b := storeGet_put_ne _ _ _ _ h
theorem port_upd_port (k : Nat) (v : PortX) (b : Nat) : ((Upd.port k v).apply s).port b = if b = k then v else s.port b :=
  storeGet_put _ _ _ _

@[simp] theorem part_upd_reg (a : Nat) (v : Word) (b : Nat) : ((Upd.reg a v).apply s).part b = s.part b := rfl
@[simp] theorem part_upd_clearRegs (lo hi : Nat) (b : Nat) : ((Upd.clearRegs lo hi).apply s).part b = s.part b := rfl
@[simp] theorem part_upd_stage (a : Nat) (v : Option Word) (b : Nat) : ((Upd.stage a v).apply s).part b = s.part b := rfl
@[simp] theorem part_upd_clearStaged (lo hi : Nat) (b : Nat) : ((Upd.clearStaged lo hi).apply s).part b = s.part b := rfl
@[simp] theorem part_upd_byte (k : Nat) (v : Byte) (b : Nat) : ((Upd.byte k v).apply s).part b = s.part b := rfl
@[simp] theorem part_upd_clearMem (lo hi : Nat) (b : Nat) : ((Upd.clearMem lo hi).apply s).part b = s.part b := rfl
@[simp] theorem part_upd_word (k : Nat) (v : Word) (b : Nat) : ((Upd.word k v).apply s).part b = s.part b := rfl
@[simp] theorem part_upd_clearTab (lo hi : Nat) (b : Nat) : ((Upd.clearTab lo hi).apply s).part b = s.part b := rfl
@[simp] theorem part_upd_resp (r : Resp) (b : Nat) : ((Upd.resp r).apply s).part b = s.part b := rfl
@[simp] theorem part_upd_record (r : BootRecord) (b : Nat) : ((Upd.record r).apply s).part b = s.part b := rfl
@[simp] theorem part_upd_port (k : Nat) (v : PortX) (b : Nat) : ((Upd.port k v).apply s).part b = s.part b := rfl
@[simp] theorem part_upd_time (t : TimeX) (b : Nat) : ((Upd.time t).apply s).part b = s.part b := rfl
@[simp] theorem part_upd_site (k : Nat) (v : SiteX) (b : Nat) : ((Upd.site k v).apply s).part b = s.part b := rfl
@[simp] theorem part_upd_tile (k : Nat) (v : TileX) (b : Nat) : ((Upd.tile k v).apply s).part b = s.part b := rfl
@[simp] theorem part_upd_fab (x : FabX) (b : Nat) : ((Upd.fab x).apply s).part b = s.part b := rfl
@[simp] theorem part_upd_mig (m : MigX) (b : Nat) : ((Upd.mig m).apply s).part b = s.part b := rfl
@[simp] theorem part_upd_flash (x : FlashX) (b : Nat) : ((Upd.flash x).apply s).part b = s.part b := rfl
@[simp] theorem part_upd_ted (x : TedX) (b : Nat) : ((Upd.ted x).apply s).part b = s.part b := rfl
@[simp] theorem part_upd_col (x : ColX) (b : Nat) : ((Upd.col x).apply s).part b = s.part b := rfl
@[simp] theorem part_upd_load (x : LoadX) (b : Nat) : ((Upd.load x).apply s).part b = s.part b := rfl
@[simp] theorem part_upd_sec (x : SecX) (b : Nat) : ((Upd.sec x).apply s).part b = s.part b := rfl
@[simp] theorem part_upd_pwr (x : PwrX) (b : Nat) : ((Upd.pwr x).apply s).part b = s.part b := rfl
@[simp] theorem part_upd_snap (x : SnapX) (b : Nat) : ((Upd.snap x).apply s).part b = s.part b := rfl
@[simp] theorem part_upd_mesh (x : MeshX) (b : Nat) : ((Upd.mesh x).apply s).part b = s.part b := rfl
@[simp] theorem part_upd_move (x : MoveX) (b : Nat) : ((Upd.move x).apply s).part b = s.part b := rfl
@[simp] theorem part_upd_land (x : LandX) (b : Nat) : ((Upd.land x).apply s).part b = s.part b := rfl
@[simp] theorem part_upd_send (o : Out) (b : Nat) : ((Upd.send o).apply s).part b = s.part b := rfl
@[simp] theorem part_upd_free (n : Nat) (b : Nat) : ((Upd.free n).apply s).part b = s.part b := rfl
@[simp] theorem part_upd_self (k : Nat) (v : PartX) : ((Upd.part k v).apply s).part k = v := storeGet_put_same _ _ _
theorem part_upd_ne (k : Nat) (v : PartX) (b : Nat) (h : b ≠ k) : ((Upd.part k v).apply s).part b = s.part b := storeGet_put_ne _ _ _ _ h
theorem part_upd_part (k : Nat) (v : PartX) (b : Nat) : ((Upd.part k v).apply s).part b = if b = k then v else s.part b :=
  storeGet_put _ _ _ _

@[simp] theorem site_upd_reg (a : Nat) (v : Word) (b : Nat) : ((Upd.reg a v).apply s).site b = s.site b := rfl
@[simp] theorem site_upd_clearRegs (lo hi : Nat) (b : Nat) : ((Upd.clearRegs lo hi).apply s).site b = s.site b := rfl
@[simp] theorem site_upd_stage (a : Nat) (v : Option Word) (b : Nat) : ((Upd.stage a v).apply s).site b = s.site b := rfl
@[simp] theorem site_upd_clearStaged (lo hi : Nat) (b : Nat) : ((Upd.clearStaged lo hi).apply s).site b = s.site b := rfl
@[simp] theorem site_upd_byte (k : Nat) (v : Byte) (b : Nat) : ((Upd.byte k v).apply s).site b = s.site b := rfl
@[simp] theorem site_upd_clearMem (lo hi : Nat) (b : Nat) : ((Upd.clearMem lo hi).apply s).site b = s.site b := rfl
@[simp] theorem site_upd_word (k : Nat) (v : Word) (b : Nat) : ((Upd.word k v).apply s).site b = s.site b := rfl
@[simp] theorem site_upd_clearTab (lo hi : Nat) (b : Nat) : ((Upd.clearTab lo hi).apply s).site b = s.site b := rfl
@[simp] theorem site_upd_resp (r : Resp) (b : Nat) : ((Upd.resp r).apply s).site b = s.site b := rfl
@[simp] theorem site_upd_record (r : BootRecord) (b : Nat) : ((Upd.record r).apply s).site b = s.site b := rfl
@[simp] theorem site_upd_port (k : Nat) (v : PortX) (b : Nat) : ((Upd.port k v).apply s).site b = s.site b := rfl
@[simp] theorem site_upd_part (k : Nat) (v : PartX) (b : Nat) : ((Upd.part k v).apply s).site b = s.site b := rfl
@[simp] theorem site_upd_time (t : TimeX) (b : Nat) : ((Upd.time t).apply s).site b = s.site b := rfl
@[simp] theorem site_upd_tile (k : Nat) (v : TileX) (b : Nat) : ((Upd.tile k v).apply s).site b = s.site b := rfl
@[simp] theorem site_upd_fab (x : FabX) (b : Nat) : ((Upd.fab x).apply s).site b = s.site b := rfl
@[simp] theorem site_upd_mig (m : MigX) (b : Nat) : ((Upd.mig m).apply s).site b = s.site b := rfl
@[simp] theorem site_upd_flash (x : FlashX) (b : Nat) : ((Upd.flash x).apply s).site b = s.site b := rfl
@[simp] theorem site_upd_ted (x : TedX) (b : Nat) : ((Upd.ted x).apply s).site b = s.site b := rfl
@[simp] theorem site_upd_col (x : ColX) (b : Nat) : ((Upd.col x).apply s).site b = s.site b := rfl
@[simp] theorem site_upd_load (x : LoadX) (b : Nat) : ((Upd.load x).apply s).site b = s.site b := rfl
@[simp] theorem site_upd_sec (x : SecX) (b : Nat) : ((Upd.sec x).apply s).site b = s.site b := rfl
@[simp] theorem site_upd_pwr (x : PwrX) (b : Nat) : ((Upd.pwr x).apply s).site b = s.site b := rfl
@[simp] theorem site_upd_snap (x : SnapX) (b : Nat) : ((Upd.snap x).apply s).site b = s.site b := rfl
@[simp] theorem site_upd_mesh (x : MeshX) (b : Nat) : ((Upd.mesh x).apply s).site b = s.site b := rfl
@[simp] theorem site_upd_move (x : MoveX) (b : Nat) : ((Upd.move x).apply s).site b = s.site b := rfl
@[simp] theorem site_upd_land (x : LandX) (b : Nat) : ((Upd.land x).apply s).site b = s.site b := rfl
@[simp] theorem site_upd_send (o : Out) (b : Nat) : ((Upd.send o).apply s).site b = s.site b := rfl
@[simp] theorem site_upd_free (n : Nat) (b : Nat) : ((Upd.free n).apply s).site b = s.site b := rfl
@[simp] theorem site_upd_self (k : Nat) (v : SiteX) : ((Upd.site k v).apply s).site k = v := storeGet_put_same _ _ _
theorem site_upd_ne (k : Nat) (v : SiteX) (b : Nat) (h : b ≠ k) : ((Upd.site k v).apply s).site b = s.site b := storeGet_put_ne _ _ _ _ h
theorem site_upd_site (k : Nat) (v : SiteX) (b : Nat) : ((Upd.site k v).apply s).site b = if b = k then v else s.site b :=
  storeGet_put _ _ _ _

@[simp] theorem tile_upd_reg (a : Nat) (v : Word) (b : Nat) : ((Upd.reg a v).apply s).tile b = s.tile b := rfl
@[simp] theorem tile_upd_clearRegs (lo hi : Nat) (b : Nat) : ((Upd.clearRegs lo hi).apply s).tile b = s.tile b := rfl
@[simp] theorem tile_upd_stage (a : Nat) (v : Option Word) (b : Nat) : ((Upd.stage a v).apply s).tile b = s.tile b := rfl
@[simp] theorem tile_upd_clearStaged (lo hi : Nat) (b : Nat) : ((Upd.clearStaged lo hi).apply s).tile b = s.tile b := rfl
@[simp] theorem tile_upd_byte (k : Nat) (v : Byte) (b : Nat) : ((Upd.byte k v).apply s).tile b = s.tile b := rfl
@[simp] theorem tile_upd_clearMem (lo hi : Nat) (b : Nat) : ((Upd.clearMem lo hi).apply s).tile b = s.tile b := rfl
@[simp] theorem tile_upd_word (k : Nat) (v : Word) (b : Nat) : ((Upd.word k v).apply s).tile b = s.tile b := rfl
@[simp] theorem tile_upd_clearTab (lo hi : Nat) (b : Nat) : ((Upd.clearTab lo hi).apply s).tile b = s.tile b := rfl
@[simp] theorem tile_upd_resp (r : Resp) (b : Nat) : ((Upd.resp r).apply s).tile b = s.tile b := rfl
@[simp] theorem tile_upd_record (r : BootRecord) (b : Nat) : ((Upd.record r).apply s).tile b = s.tile b := rfl
@[simp] theorem tile_upd_port (k : Nat) (v : PortX) (b : Nat) : ((Upd.port k v).apply s).tile b = s.tile b := rfl
@[simp] theorem tile_upd_part (k : Nat) (v : PartX) (b : Nat) : ((Upd.part k v).apply s).tile b = s.tile b := rfl
@[simp] theorem tile_upd_time (t : TimeX) (b : Nat) : ((Upd.time t).apply s).tile b = s.tile b := rfl
@[simp] theorem tile_upd_site (k : Nat) (v : SiteX) (b : Nat) : ((Upd.site k v).apply s).tile b = s.tile b := rfl
@[simp] theorem tile_upd_fab (x : FabX) (b : Nat) : ((Upd.fab x).apply s).tile b = s.tile b := rfl
@[simp] theorem tile_upd_mig (m : MigX) (b : Nat) : ((Upd.mig m).apply s).tile b = s.tile b := rfl
@[simp] theorem tile_upd_flash (x : FlashX) (b : Nat) : ((Upd.flash x).apply s).tile b = s.tile b := rfl
@[simp] theorem tile_upd_ted (x : TedX) (b : Nat) : ((Upd.ted x).apply s).tile b = s.tile b := rfl
@[simp] theorem tile_upd_col (x : ColX) (b : Nat) : ((Upd.col x).apply s).tile b = s.tile b := rfl
@[simp] theorem tile_upd_load (x : LoadX) (b : Nat) : ((Upd.load x).apply s).tile b = s.tile b := rfl
@[simp] theorem tile_upd_sec (x : SecX) (b : Nat) : ((Upd.sec x).apply s).tile b = s.tile b := rfl
@[simp] theorem tile_upd_pwr (x : PwrX) (b : Nat) : ((Upd.pwr x).apply s).tile b = s.tile b := rfl
@[simp] theorem tile_upd_snap (x : SnapX) (b : Nat) : ((Upd.snap x).apply s).tile b = s.tile b := rfl
@[simp] theorem tile_upd_mesh (x : MeshX) (b : Nat) : ((Upd.mesh x).apply s).tile b = s.tile b := rfl
@[simp] theorem tile_upd_move (x : MoveX) (b : Nat) : ((Upd.move x).apply s).tile b = s.tile b := rfl
@[simp] theorem tile_upd_land (x : LandX) (b : Nat) : ((Upd.land x).apply s).tile b = s.tile b := rfl
@[simp] theorem tile_upd_send (o : Out) (b : Nat) : ((Upd.send o).apply s).tile b = s.tile b := rfl
@[simp] theorem tile_upd_free (n : Nat) (b : Nat) : ((Upd.free n).apply s).tile b = s.tile b := rfl
@[simp] theorem tile_upd_self (k : Nat) (v : TileX) : ((Upd.tile k v).apply s).tile k = v := storeGet_put_same _ _ _
theorem tile_upd_ne (k : Nat) (v : TileX) (b : Nat) (h : b ≠ k) : ((Upd.tile k v).apply s).tile b = s.tile b := storeGet_put_ne _ _ _ _ h
theorem tile_upd_tile (k : Nat) (v : TileX) (b : Nat) : ((Upd.tile k v).apply s).tile b = if b = k then v else s.tile b :=
  storeGet_put _ _ _ _

@[simp] theorem fldOf_upd_stage (a : Nat) (v : Option Word) (b : Nat) (f : Fld) : ((Upd.stage a v).apply s).fldOf b f = s.fldOf b f := rfl
@[simp] theorem fldOf_upd_clearStaged (lo hi : Nat) (b : Nat) (f : Fld) : ((Upd.clearStaged lo hi).apply s).fldOf b f = s.fldOf b f := rfl
@[simp] theorem fldOf_upd_byte (k : Nat) (v : Byte) (b : Nat) (f : Fld) : ((Upd.byte k v).apply s).fldOf b f = s.fldOf b f := rfl
@[simp] theorem fldOf_upd_clearMem (lo hi : Nat) (b : Nat) (f : Fld) : ((Upd.clearMem lo hi).apply s).fldOf b f = s.fldOf b f := rfl
@[simp] theorem fldOf_upd_word (k : Nat) (v : Word) (b : Nat) (f : Fld) : ((Upd.word k v).apply s).fldOf b f = s.fldOf b f := rfl
@[simp] theorem fldOf_upd_clearTab (lo hi : Nat) (b : Nat) (f : Fld) : ((Upd.clearTab lo hi).apply s).fldOf b f = s.fldOf b f := rfl
@[simp] theorem fldOf_upd_resp (r : Resp) (b : Nat) (f : Fld) : ((Upd.resp r).apply s).fldOf b f = s.fldOf b f := rfl
@[simp] theorem fldOf_upd_record (r : BootRecord) (b : Nat) (f : Fld) : ((Upd.record r).apply s).fldOf b f = s.fldOf b f := rfl
@[simp] theorem fldOf_upd_port (k : Nat) (v : PortX) (b : Nat) (f : Fld) : ((Upd.port k v).apply s).fldOf b f = s.fldOf b f := rfl
@[simp] theorem fldOf_upd_part (k : Nat) (v : PartX) (b : Nat) (f : Fld) : ((Upd.part k v).apply s).fldOf b f = s.fldOf b f := rfl
@[simp] theorem fldOf_upd_time (t : TimeX) (b : Nat) (f : Fld) : ((Upd.time t).apply s).fldOf b f = s.fldOf b f := rfl
@[simp] theorem fldOf_upd_site (k : Nat) (v : SiteX) (b : Nat) (f : Fld) : ((Upd.site k v).apply s).fldOf b f = s.fldOf b f := rfl
@[simp] theorem fldOf_upd_tile (k : Nat) (v : TileX) (b : Nat) (f : Fld) : ((Upd.tile k v).apply s).fldOf b f = s.fldOf b f := rfl
@[simp] theorem fldOf_upd_fab (x : FabX) (b : Nat) (f : Fld) : ((Upd.fab x).apply s).fldOf b f = s.fldOf b f := rfl
@[simp] theorem fldOf_upd_mig (m : MigX) (b : Nat) (f : Fld) : ((Upd.mig m).apply s).fldOf b f = s.fldOf b f := rfl
@[simp] theorem fldOf_upd_flash (x : FlashX) (b : Nat) (f : Fld) : ((Upd.flash x).apply s).fldOf b f = s.fldOf b f := rfl
@[simp] theorem fldOf_upd_ted (x : TedX) (b : Nat) (f : Fld) : ((Upd.ted x).apply s).fldOf b f = s.fldOf b f := rfl
@[simp] theorem fldOf_upd_col (x : ColX) (b : Nat) (f : Fld) : ((Upd.col x).apply s).fldOf b f = s.fldOf b f := rfl
@[simp] theorem fldOf_upd_load (x : LoadX) (b : Nat) (f : Fld) : ((Upd.load x).apply s).fldOf b f = s.fldOf b f := rfl
@[simp] theorem fldOf_upd_sec (x : SecX) (b : Nat) (f : Fld) : ((Upd.sec x).apply s).fldOf b f = s.fldOf b f := rfl
@[simp] theorem fldOf_upd_pwr (x : PwrX) (b : Nat) (f : Fld) : ((Upd.pwr x).apply s).fldOf b f = s.fldOf b f := rfl
@[simp] theorem fldOf_upd_snap (x : SnapX) (b : Nat) (f : Fld) : ((Upd.snap x).apply s).fldOf b f = s.fldOf b f := rfl
@[simp] theorem fldOf_upd_mesh (x : MeshX) (b : Nat) (f : Fld) : ((Upd.mesh x).apply s).fldOf b f = s.fldOf b f := rfl
@[simp] theorem fldOf_upd_move (x : MoveX) (b : Nat) (f : Fld) : ((Upd.move x).apply s).fldOf b f = s.fldOf b f := rfl
@[simp] theorem fldOf_upd_land (x : LandX) (b : Nat) (f : Fld) : ((Upd.land x).apply s).fldOf b f = s.fldOf b f := rfl
@[simp] theorem fldOf_upd_send (o : Out) (b : Nat) (f : Fld) : ((Upd.send o).apply s).fldOf b f = s.fldOf b f := rfl
@[simp] theorem fldOf_upd_free (n : Nat) (b : Nat) (f : Fld) : ((Upd.free n).apply s).fldOf b f = s.fldOf b f := rfl
@[simp] theorem fldOf_upd_self (a : Nat) (v : Word) (f : Fld) : ((Upd.reg a v).apply s).fldOf a f = getFld v f := by
  simp [State.fldOf]
theorem fldOf_upd_ne (a : Nat) (v : Word) (b : Nat) (f : Fld) (h : b ≠ a) :
    ((Upd.reg a v).apply s).fldOf b f = s.fldOf b f := by
  simp [State.fldOf, reg_upd_ne, h]
theorem fldOf_upd_reg (a : Nat) (v : Word) (b : Nat) (f : Fld) :
    ((Upd.reg a v).apply s).fldOf b f = if b = a then getFld v f else s.fldOf b f := by
  by_cases h : b = a
  · subst h; simp
  · simp [fldOf_upd_ne, h]

/-- States that agree on the registers agree on every register and field. -/
theorem reg_congr {s t : State} (h : t.regs = s.regs) (a : Nat) : t.reg a = s.reg a := by simp [State.reg, h]
theorem fldOf_congr {s t : State} (h : t.regs = s.regs) (a : Nat) (f : Fld) : t.fldOf a f = s.fldOf a f := by
  simp [State.fldOf, reg_congr h]
theorem byteAt_congr {s t : State} (h : t.mem = s.mem) (k : Nat) : t.byteAt k = s.byteAt k := by simp [State.byteAt, h]
theorem wordAt_congr {s t : State} (h : t.tab = s.tab) (k : Nat) : t.wordAt k = s.wordAt k := by simp [State.wordAt, h]

end Sys2Proof.Machine
end

