-- ==== Sys2Proof/Laws/Run.lean ====
section
/-! SUPPORT. Running an action, one operation at a time: rewriting lemmas that turn `Act.run` of a do block into the state it
leaves. -/

namespace Sys2Proof.Machine

variable {α β : Type} (s : State)

@[simp] theorem run_pure (x : Unit) : Act.run (pure x) s = s := rfl
@[simp] theorem run_skip : Act.run skip s = s := rfl
@[simp] theorem run_get_bind (f : State → Act Unit) : Act.run (Act.get >>= f) s = Act.run (f s) s := rfl
@[simp] theorem run_rd_bind (g : State → α) (f : α → Act Unit) : Act.run (rd g >>= f) s = Act.run (f (g s)) s := rfl
@[simp] theorem run_upd_bind (u : Upd) (f : Unit → Act Unit) : Act.run (Act.upd u >>= f) s = Act.run (f ()) (u.apply s) := rfl
@[simp] theorem run_upd (u : Upd) : Act.run (Act.upd u) s = u.apply s := rfl
@[simp] theorem run_pure_bind (x : α) (f : α → Act Unit) : Act.run (pure x >>= f) s = Act.run (f x) s := rfl
@[simp] theorem run_skip_bind (f : Unit → Act Unit) : Act.run (skip >>= f) s = Act.run (f ()) s := rfl
@[simp] theorem run_bind_bind (a : Act α) (f : α → Act β) (g : β → Act Unit) :
    Act.run (a >>= f >>= g) s = Act.run (a >>= fun x => f x >>= g) s := rfl
theorem run_ite (c : Prop) [Decidable c] (a b : Act Unit) :
    Act.run (if c then a else b) s = if c then Act.run a s else Act.run b s := by split <;> rfl
theorem run_ite_bind (c : Prop) [Decidable c] (a b : Act α) (f : α → Act Unit) :
    Act.run ((if c then a else b) >>= f) s = if c then Act.run (a >>= f) s else Act.run (b >>= f) s := by split <;> rfl

/-- An action that goes on with `x` in `t` is followed by the rest in `t`. -/
theorem run_bind_of_runs {a : Act α} {x : α} {t : State} (h : Runs a s x t) (f : α → Act Unit) :
    Act.run (a >>= f) s = Act.run (f x) t := h fun y => f y fun _ => Script.halt

/-- What follows an action: it goes on with some value, in a state that agrees with the first on the fields it leaves. -/
theorem run_bind_of_only {l : List Field} {a : Act α} (h : Only l a) (f : α → Act Unit) :
    ∃ x t, SameBut l s t ∧ Act.run (a >>= f) s = Act.run (f x) t := by
  obtain ⟨x, t, r, q⟩ := h s
  exact ⟨x, t, q, run_bind_of_runs s r f⟩

/-- The state an action leaves, whatever it goes on with. -/
def past {α : Type} (a : Act α) (s : State) : State := Script.run (a fun _ => .halt) s

/-- What an action goes on with from a given state can be found by running it: it is `x` if a script that asks for `x` says so. -/
theorem runs_of_only [DecidableEq α] {l : List Field} {a : Act α} (h : Only l a) (x : α)
    (e : (Script.run (a fun y => .upd (.free (if y = x then 1 else 0)) .halt) s).free = 1) : Runs a s x (past a s) := by
  obtain ⟨y, t, r, -⟩ := h s
  rw [r] at e
  have hy : y = x := by
    by_contra hn
    simp [Script.run, Upd.apply, hn] at e
  subst hy
  have ht : past a s = t := r _
  rw [ht]
  exact r

theorem SameBut.upd {l : List Field} (u : Upd) (s : State) (h : Field.sub [u.field] l = true) : SameBut l s (u.apply s) :=
  ⟨by cases u <;> rfl, fun f hf => u.same_of_ne f s
    (fun e => hf (e ▸ Field.mem_of_sub h _ (List.mem_singleton.2 rfl)))⟩

/-! ## The named operations -/

@[simp] theorem run_rdR_bind (a : Nat) (f : Word → Act Unit) : Act.run (rdR a >>= f) s = Act.run (f (s.reg a)) s := rfl
@[simp] theorem run_rdF_bind (a : Nat) (g : Fld) (f : Nat → Act Unit) :
    Act.run (rdF a g >>= f) s = Act.run (f (s.fldOf a g)) s := rfl
@[simp] theorem run_rdB_bind (a : Nat) (g : Fld) (f : Bool → Act Unit) :
    Act.run (rdB a g >>= f) s = Act.run (f (decide (s.fldOf a g = 1))) s := rfl
@[simp] theorem run_wrR_bind (a : Nat) (v : Word) (f : Unit → Act Unit) :
    Act.run (wrR a v >>= f) s = Act.run (f ()) ((Upd.reg a v).apply s) := rfl
@[simp] theorem run_wrR (a : Nat) (v : Word) : Act.run (wrR a v) s = (Upd.reg a v).apply s := rfl
@[simp] theorem run_wrF_bind (a : Nat) (g : Fld) (n : Nat) (f : Unit → Act Unit) :
    Act.run (wrF a g n >>= f) s = Act.run (f ()) ((Upd.reg a (putFld (s.reg a) g n)).apply s) := rfl
@[simp] theorem run_wrF (a : Nat) (g : Fld) (n : Nat) :
    Act.run (wrF a g n) s = (Upd.reg a (putFld (s.reg a) g n)).apply s := rfl
@[simp] theorem run_addF_bind (a : Nat) (g : Fld) (n : Nat) (f : Unit → Act Unit) :
    Act.run (addF a g n >>= f) s = Act.run (f ()) ((Upd.reg a (putFld (s.reg a) g (s.fldOf a g + n))).apply s) := rfl
@[simp] theorem run_ldW_bind (k : Nat) (f : Nat → Act Unit) : Act.run (ldW k >>= f) s = Act.run (f (s.wordAt k).toNat) s := rfl
@[simp] theorem run_stW_bind (k v : Nat) (f : Unit → Act Unit) :
    Act.run (stW k v >>= f) s = Act.run (f ()) ((Upd.word k (BitVec.ofNat 64 v)).apply s) := rfl
@[simp] theorem run_stW (k v : Nat) : Act.run (stW k v) s = (Upd.word k (BitVec.ofNat 64 v)).apply s := rfl
@[simp] theorem run_ldBytes_bind (k n : Nat) (f : List Byte → Act Unit) :
    Act.run (ldBytes k n >>= f) s = Act.run (f (s.memBytes k n)) s := rfl
@[simp] theorem run_ldNum_bind (k n : Nat) (f : Nat → Act Unit) :
    Act.run (ldNum k n >>= f) s = Act.run (f (s.memNum k n)) s := rfl
@[simp] theorem run_send_bind (o : Out) (f : Unit → Act Unit) :
    Act.run (send o >>= f) s = Act.run (f ()) ((Upd.send o).apply s) := rfl
@[simp] theorem run_send (o : Out) : Act.run (send o) s = (Upd.send o).apply s := rfl
@[simp] theorem run_answer (v : Nat) :
    Act.run (answer v) s = (Upd.resp { reason := 0, data := BitVec.ofNat 64 v }).apply s := rfl
@[simp] theorem run_answer_bind (v : Nat) (f : Unit → Act Unit) :
    Act.run (answer v >>= f) s = Act.run (f ()) ((Upd.resp { reason := 0, data := BitVec.ofNat 64 v }).apply s) := rfl
@[simp] theorem run_wrPart (p : Nat) (x : PartX) : Act.run (wrPart p x) s = (Upd.part p x).apply s := rfl
@[simp] theorem run_wrPart_bind (p : Nat) (x : PartX) (f : Unit → Act Unit) :
    Act.run (wrPart p x >>= f) s = Act.run (f ()) ((Upd.part p x).apply s) := rfl

/-! ## The package is awake, and its VIN_MAIN rails are on -/

theorem run_awake (a : Act Unit) (h : s.alive = true) : Act.run (awake a) s = Act.run a s := by
  simp [awake, run_ite, h]

theorem run_awake_off (a : Act Unit) (h : s.alive = false) : Act.run (awake a) s = s := by
  simp [awake, run_ite, h]

theorem run_coreActs (core : Nat) (a : Act Unit) (h : s.coreUp core = true) : Act.run (coreActs core a) s = Act.run a s := by
  simp [coreActs, run_ite, h]

theorem run_coreActs_off (core : Nat) (a : Act Unit) (h : s.coreUp core = false) : Act.run (coreActs core a) s = s := by
  simp [coreActs, run_ite, h]

/-- While the package serves its VIN_MAIN domains, every core can act. -/
theorem State.up.coreUp {s : State} (h : s.up) (core : Nat) : s.coreUp core = true := by
  simp [State.coreUp, h.1, h.2]

theorem run_mains (a : Act Unit) (h : s.land.railsOff = false) (g : s.alive = true) : Act.run (mains a) s = Act.run a s := by
  simp [mains, run_ite, h, run_awake, g]

theorem run_mains_off (a : Act Unit) (h : s.land.railsOff = true) : Act.run (mains a) s = s := by
  simp [mains, run_ite, h]

/-! ## Bytes -/

theorem runs_stBytes (k : Nat) (l : List Byte) (s : State) : ∃ t, Runs (stBytes k l) s () t ∧ SameBut [.mem] s t ∧
    ∀ j, t.byteAt j = if k ≤ j ∧ j < k + l.length then l.getD (j - k) 0 else s.byteAt j := by
  induction l generalizing k s with
  | nil => exact ⟨s, Runs.pure _ _, SameBut.refl _ _, fun j => by simp⟩
  | cons b l ih =>
    obtain ⟨t, r, q, e⟩ := ih (k + 1) ((Upd.byte k b).apply s)
    refine ⟨t, (Runs.upd _ _).bind r, SameBut.trans ?_ q, fun j => ?_⟩
    · exact ⟨rfl, fun f hf => (Upd.byte k b).same_of_ne f s (fun h => hf (by rw [h]; exact List.mem_singleton.2 rfl))⟩
    · rw [e j, List.length_cons]
      by_cases h1 : k + 1 ≤ j ∧ j < k + 1 + l.length
      · rw [if_pos h1, if_pos (by omega)]
        obtain ⟨m, hm⟩ : ∃ m, j - k = m + 1 := ⟨j - k - 1, by omega⟩
        rw [hm, show j - (k + 1) = m by omega]
        rfl
      · rw [if_neg h1, byteAt_upd_byte]
        by_cases h2 : j = k
        · subst h2; simp
        · rw [if_neg h2, if_neg (by omega)]

/-! ## The hub SRAM, for an engine of a partition -/

/-- A read of hub SRAM that nothing refuses answers the bytes there and changes nothing (R17, R238). -/
theorem runs_spRead_hub {s : State} (src p a n : Nat) (h : s.hubReason p a n = none) :
    Runs (spRead src p 0 a n) s (.ok (s.memBytes (2 ^ 36 + a) n)) s := fun k => by
  show Script.run ((match s.hubReason p a n with
    | some e => do refuseMem src p a false e; return .error e
    | none => return .ok (← ldBytes (2 ^ 36 + a) n) : Act _) k) s = _
  rw [h]
  rfl

/-- A write to hub SRAM that nothing refuses stores its bytes and changes nothing else. -/
theorem runs_spWrite_hub {s : State} (src p a : Nat) (bs : List Byte) (h : s.hubReason p a bs.length = none) :
    ∃ t, Runs (spWrite src p 0 a bs) s none t ∧ SameBut [.mem] s t ∧
      ∀ j, t.byteAt j = if 2 ^ 36 + a ≤ j ∧ j < 2 ^ 36 + a + bs.length then bs.getD (j - (2 ^ 36 + a)) 0 else s.byteAt j := by
  obtain ⟨t, r, q, e⟩ := runs_stBytes (2 ^ 36 + a) bs s
  refine ⟨t, fun k => ?_, q, e⟩
  show Script.run ((match s.hubReason p a bs.length with
    | some e => do refuseMem src p a true e; return some e
    | none => do stBytes (2 ^ 36 + a) bs; return none : Act _) k) s = _
  rw [h]
  exact r _

end Sys2Proof.Machine
end

