-- ==== Sys2Proof/Laws/Bus.lean ====
section
/-! SUPPORT. The register window: where a register's address lies, and what a write or a read of it comes to once the common
checks have spoken. -/

namespace Sys2Proof.Machine

/-! ## Addresses -/

theorem pageOf_regA (b : Block) (p off : Nat) (hp : p < b.pages) (ho : off < 0x1000) : pageOf (regA b p off) = some (b, p) := by
  have hb : b.pages ≤ 624 := by cases b <;> decide
  have key : ∀ c : Block, (c.base ≤ regA b p off ∧ regA b p off < c.base + c.pages * 0x1000) ↔ c = b := by
    intro c
    unfold regA pageBase
    constructor
    · intro h
      cases b <;> cases c <;> first | rfl | (exfalso; simp only [Block.base, Block.pages] at hp h; omega)
    · rintro rfl
      constructor
      · omega
      · have : p * 0x1000 + off < c.pages * 0x1000 := by omega
        omega
  have hf : allBlocks.find? (fun c => decide (c.base ≤ regA b p off ∧ regA b p off < c.base + c.pages * 0x1000)) = some b := by
    have : (fun c : Block => decide (c.base ≤ regA b p off ∧ regA b p off < c.base + c.pages * 0x1000)) =
        fun c => decide (c = b) := by
      funext c
      exact decide_eq_decide.2 (key c)
    rw [this]
    cases b <;> rfl
  unfold pageOf
  rw [hf]
  simp only [Option.map_some, Option.some.injEq, Prod.mk.injEq, true_and]
  unfold regA pageBase
  omega

theorem regA_sub (b : Block) (p off : Nat) : regA b p off - pageBase b p = off := by
  unfold regA
  omega

/-! ## Writes -/

/-- A write that the common checks let go on: it is answered by its block register, and the milestones are looked at. -/
theorem run_busWriteX_accepted (x : BusX) (core a width : Nat) (v : Word) (b : Block) (p : Nat) (s : State)
    (hs : s.coreUp core = true) (hpg : pageOf a = some (b, p)) (hb : b ≠ .dbl)
    (hr : s.writeReason (s.coreIssuer core) a width v = none) (ho : ¬ a - pageBase b p < 0x100) :
    Act.run (busWriteX x core a width v) s = Act.run (do
      let r ← blockWrite { x with part := s.coreAct core } b p (a - pageBase b p) v
      match r with
      | some e => do
        refuseAs (s.coreIssuer core) a 2 e
        milestonesCheck
      | none => do
        answer 0
        milestonesCheck) s := by
  unfold busWriteX
  rw [run_coreActs _ _ _ hs, run_get_bind]
  cases b <;> first | exact absurd rfl hb | (simp only [hpg, hr, ho, if_false] <;> rfl)

/-- What an accepted write leaves: its block register's effect, a good answer, and nothing more but a milestone. -/
theorem busWriteX_done (x : BusX) (core a width : Nat) (v : Word) (b : Block) (p : Nat) (s t : State)
    (hs : s.coreUp core = true) (hpg : pageOf a = some (b, p)) (hb : b ≠ .dbl)
    (hr : s.writeReason (s.coreIssuer core) a width v = none) (ho : ¬ a - pageBase b p < 0x100)
    (h : Runs (blockWrite { x with part := s.coreAct core } b p (a - pageBase b p) v) s none t) :
    SameBut [.resp, .land, .sent] t (Act.run (busWriteX x core a width v) s) ∧
      (Act.run (busWriteX x core a width v) s).resp = { reason := 0, data := 0 } := by
  rw [run_busWriteX_accepted x core a width v b p s hs hpg hb hr ho, run_bind_of_runs s h]
  simp only [run_answer_bind]
  have q := milestonesCheck_only.run ((Upd.resp { reason := 0, data := BitVec.ofNat 64 0 }).apply t)
  refine ⟨SameBut.trans (b := (Upd.resp { reason := 0, data := BitVec.ofNat 64 0 }).apply t)
    (SameBut.upd _ _ rfl) (q.mono (by decide)), ?_⟩
  exact (q.2 .resp (by decide)).trans rfl

/-- A write that the common checks refuse changes nothing but the record of it and the answer (R17, R386). -/
theorem run_busWriteX_refused (x : BusX) (core a width : Nat) (v : Word) (b : Block) (p r : Nat) (s : State)
    (hs : s.coreUp core = true) (hpg : pageOf a = some (b, p)) (hb : b ≠ .dbl)
    (hr : s.writeReason (s.coreIssuer core) a width v = some r) :
    Act.run (busWriteX x core a width v) s = Act.run (refuseAs (s.coreIssuer core) a 2 r) s := by
  unfold busWriteX
  rw [run_coreActs _ _ _ hs, run_get_bind]
  cases b <;> first | exact absurd rfl hb | simp only [hpg, hr]

/-- Every write of a block register changes at most what its block register, the refusal, the answer and the milestones
change. -/
theorem busWriteX_block_only {l : List Field} (x : BusX) (core : Nat) (b : Block) (p off width : Nat) (v : Word)
    (hp : p < b.pages) (hb : b ≠ .dbl) (ho : 0x100 ≤ off ∧ off < 0x1000) (h : ∀ y : BusX, Only l (blockWrite y b p off v))
    (hl : Field.sub [.regs, .mem, .resp, .land, .sent] l = true) : Only l (busWriteX x core (regA b p off) width v) := by
  have hr : ∀ i r, Only l (refuseAs i (regA b p off) 2 r) := fun _ _ => (refuseAs_only _ _ _ _).sub (Field.sub_trans rfl hl)
  unfold busWriteX
  refine coreActs_only _ (Only.bind (Only.get _) (fun s => ?_)) rfl
  rw [pageOf_regA b p off hp ho.2]
  cases b <;> first
    | exact absurd rfl hb
    | (dsimp only
       split
       · exact hr _ _
       · rw [regA_sub, if_neg (by omega)]
         refine Only.bind (h _) (fun r => ?_)
         split
         · exact Only.bind (hr _ _) (fun _ => milestonesCheck_only.sub (Field.sub_trans rfl hl))
         · exact Only.bind ((answer_only _).sub (Field.sub_trans rfl hl)) (fun _ => milestonesCheck_only.sub (Field.sub_trans rfl hl)))

theorem blockWrite_req (x : BusX) (q off : Nat) (v : Word) : blockWrite x .req (1 + q) off v = reqWrite x q off v := by
  simp only [blockWrite, Nat.add_sub_cancel_left, show ¬ 1 + q = 0 by omega, if_false]

theorem reqWrite_adp (x : BusX) (q : Nat) (v : Word) : Only [.regs, .tab] (reqWrite x q 0x320 v) := by
  have e : reqWrite x q 0x320 v = (do
      let _ ← Act.get
      match getFld v F.REQ_ADP_CMD.op with
      | 1 => andDone (adpStage q)
      | 2 => andDone (adpPublish q (getFld v F.REQ_ADP_CMD.number) (getFld v F.REQ_ADP_CMD.version))
      | 3 => andDone (adpWithdraw q (getFld v F.REQ_ADP_CMD.number) (getFld v F.REQ_ADP_CMD.version))
      | 4 => andDone (adpDrop q (getFld v F.REQ_ADP_CMD.number) (getFld v F.REQ_ADP_CMD.version))
      | _ => pure (some 4)) := rfl
  rw [e]
  refine Only.bind (Only.get _) (fun _ => ?_)
  split
  · exact andDone_only ((adpStage_only _).sub rfl) rfl
  · exact andDone_only ((adpPublish_only _ _ _).sub rfl) rfl
  · exact andDone_only ((adpWithdraw_only _ _ _).sub rfl) rfl
  · exact andDone_only ((adpDrop_only _ _ _).sub rfl) rfl
  · exact Only.pure _ _

theorem blockWrite_place (x : BusX) (c : Nat) (v : Word) : blockWrite x .xrt (4 + c) 0x118 v = placeTailWrite c v := by
  simp only [blockWrite, Nat.add_sub_cancel_left, show ¬ 4 + c < 4 by omega, if_false, if_true]

end Sys2Proof.Machine
end

