-- ==== Sys2Proof/Laws/Canonical.lean ====
section
/-! SUPPORT. Every primitive update, and so every memory operation, keeps the canonical form of the stores. -/

namespace Sys2Proof.Machine

theorem State.reset_memory_wf : Memory.wf State.reset.mem = true := rfl

theorem Memory.wf_put {m : List Host.Cell} (k : Nat) (b : Byte) (h : Memory.wf m = true) :
    Memory.wf (storePut (fun _ => 0) m k b) = true := storeWf_put k b h

theorem Memory.wf_clear {m : List Host.Cell} (lo hi : Nat) (h : Memory.wf m = true) : Memory.wf (storeClear m lo hi) = true :=
  storeWf_clear lo hi h

theorem Upd.keeps_canonical (u : Upd) (s : State) (h : s.canonical = true) : (u.apply s).canonical = true := by
  simp only [State.canonical, Bool.and_eq_true] at h ⊢
  obtain ⟨⟨⟨⟨⟨⟨⟨h1, h2⟩, h3⟩, h4⟩, h5⟩, h6⟩, h7⟩, h8⟩ := h
  cases u with
  | reg a v => exact ⟨⟨⟨⟨⟨⟨⟨h1, storeWf_put a v h2⟩, h3⟩, h4⟩, h5⟩, h6⟩, h7⟩, h8⟩
  | clearRegs lo hi => exact ⟨⟨⟨⟨⟨⟨⟨h1, storeWf_clear lo hi h2⟩, h3⟩, h4⟩, h5⟩, h6⟩, h7⟩, h8⟩
  | stage a v => exact ⟨⟨⟨⟨⟨⟨⟨h1, h2⟩, storeWf_put a v h3⟩, h4⟩, h5⟩, h6⟩, h7⟩, h8⟩
  | clearStaged lo hi => exact ⟨⟨⟨⟨⟨⟨⟨h1, h2⟩, storeWf_clear lo hi h3⟩, h4⟩, h5⟩, h6⟩, h7⟩, h8⟩
  | byte k v => exact ⟨⟨⟨⟨⟨⟨⟨Memory.wf_put k v h1, h2⟩, h3⟩, h4⟩, h5⟩, h6⟩, h7⟩, h8⟩
  | clearMem lo hi => exact ⟨⟨⟨⟨⟨⟨⟨Memory.wf_clear lo hi h1, h2⟩, h3⟩, h4⟩, h5⟩, h6⟩, h7⟩, h8⟩
  | word k v => exact ⟨⟨⟨⟨⟨⟨⟨h1, h2⟩, h3⟩, storeWf_put k v h4⟩, h5⟩, h6⟩, h7⟩, h8⟩
  | clearTab lo hi => exact ⟨⟨⟨⟨⟨⟨⟨h1, h2⟩, h3⟩, storeWf_clear lo hi h4⟩, h5⟩, h6⟩, h7⟩, h8⟩
  | port k v => exact ⟨⟨⟨⟨⟨⟨⟨h1, h2⟩, h3⟩, h4⟩, storeWf_put k v h5⟩, h6⟩, h7⟩, h8⟩
  | part k v => exact ⟨⟨⟨⟨⟨⟨⟨h1, h2⟩, h3⟩, h4⟩, h5⟩, storeWf_put k v h6⟩, h7⟩, h8⟩
  | site k v => exact ⟨⟨⟨⟨⟨⟨⟨h1, h2⟩, h3⟩, h4⟩, h5⟩, h6⟩, storeWf_put k v h7⟩, h8⟩
  | tile k v => exact ⟨⟨⟨⟨⟨⟨⟨h1, h2⟩, h3⟩, h4⟩, h5⟩, h6⟩, h7⟩, storeWf_put k v h8⟩
  | _ => exact ⟨⟨⟨⟨⟨⟨⟨h1, h2⟩, h3⟩, h4⟩, h5⟩, h6⟩, h7⟩, h8⟩

end Sys2Proof.Machine
end

