-- ==== Sys2Proof/Laws/FrameCmd.lean ====
section
/-! SUPPORT. What each command can change: its meaning always answers a next state, and the fields of the state outside the
list are as they were. One lemma for each command. -/

namespace Sys2Proof.Machine

theorem execRegisterWrite_frame (core : CoreId) (addr : BitVec 64) (width : Nat) (value : Word) (s : State) : ∃ t, execRegisterWrite core addr width value s = .next t ∧
    SameBut [.regs, .staged, .mem, .tab, .resp, .record, .time, .ports, .parts, .sites, .tiles, .fab, .mig, .flash, .ted, .col, .load, .sec, .pwr, .snap, .mesh, .move, .land, .sent] s t :=
  ⟨_, rfl, Only.run (((busWriteX_only _ _ _ _ _).sub rfl) : Only _ _) s⟩

theorem execRegisterRead_frame (core : CoreId) (addr : BitVec 64) (width : Nat) (s : State) : ∃ t, execRegisterRead core addr width s = .next t ∧
    SameBut [.regs, .mem, .resp] s t :=
  ⟨_, rfl, Only.run (((busRead_only _ _ _).sub rfl) : Only _ _) s⟩

theorem execTimNowRead_frame (core : CoreId) (s : State) : ∃ t, execTimNowRead core s = .next t ∧
    SameBut [.regs, .mem, .resp] s t :=
  ⟨_, rfl, Only.run (((busRead_only _ _ _).sub rfl) : Only _ _) s⟩

theorem execPageEnable_frame (core : CoreId) (page : Fin 32896) (value : Word) (s : State) : ∃ t, execPageEnable core page value s = .next t ∧
    SameBut [.regs, .staged, .mem, .tab, .resp, .record, .time, .ports, .parts, .sites, .tiles, .fab, .mig, .flash, .ted, .col, .load, .sec, .pwr, .snap, .mesh, .move, .land, .sent] s t :=
  ⟨_, rfl, Only.run (((busWriteX_only _ _ _ _ _).sub rfl) : Only _ _) s⟩

theorem execPageQuiesce_frame (core : CoreId) (page : Fin 32896) (value : Word) (s : State) : ∃ t, execPageQuiesce core page value s = .next t ∧
    SameBut [.regs, .staged, .mem, .tab, .resp, .record, .time, .ports, .parts, .sites, .tiles, .fab, .mig, .flash, .ted, .col, .load, .sec, .pwr, .snap, .mesh, .move, .land, .sent] s t :=
  ⟨_, rfl, Only.run (((busWriteX_only _ _ _ _ _).sub rfl) : Only _ _) s⟩

theorem execQuiesceComplete_frame (page : Fin 32896) (s : State) : ∃ t, execQuiesceComplete page s = .next t ∧
    SameBut [.regs] s t :=
  ⟨_, rfl, Only.run ((mains_only ((quiesceComplete_only _).sub rfl) rfl) : Only _ _) s⟩

theorem execPageLockWrite_frame (core : CoreId) (page : Fin 32896) (value : Word) (s : State) : ∃ t, execPageLockWrite core page value s = .next t ∧
    SameBut [.regs, .staged, .mem, .tab, .resp, .record, .time, .ports, .parts, .sites, .tiles, .fab, .mig, .flash, .ted, .col, .load, .sec, .pwr, .snap, .mesh, .move, .land, .sent] s t :=
  ⟨_, rfl, Only.run (((busWriteX_only _ _ _ _ _).sub rfl) : Only _ _) s⟩

theorem execSchedTickWrite_frame (core : CoreId) (page : Fin 32896) (value : Word) (s : State) : ∃ t, execSchedTickWrite core page value s = .next t ∧
    SameBut [.regs, .staged, .mem, .tab, .resp, .record, .time, .ports, .parts, .sites, .tiles, .fab, .mig, .flash, .ted, .col, .load, .sec, .pwr, .snap, .mesh, .move, .land, .sent] s t :=
  ⟨_, rfl, Only.run (((busWriteX_only _ _ _ _ _).sub rfl) : Only _ _) s⟩

theorem execStagedWrite_frame (core : CoreId) (addr : BitVec 64) (value : Word) (s : State) : ∃ t, execStagedWrite core addr value s = .next t ∧
    SameBut [.regs, .staged, .mem, .tab, .resp, .record, .time, .ports, .parts, .sites, .tiles, .fab, .mig, .flash, .ted, .col, .load, .sec, .pwr, .snap, .mesh, .move, .land, .sent] s t :=
  ⟨_, rfl, Only.run (((busWriteX_only _ _ _ _ _).sub rfl) : Only _ _) s⟩

theorem execDoorbellProducer_frame (core : CoreId) (ring : Fin 65536) (index : BitVec 32) (s : State) : ∃ t, execDoorbellProducer core ring index s = .next t ∧
    SameBut [.regs, .staged, .mem, .tab, .resp, .record, .time, .ports, .parts, .sites, .tiles, .fab, .mig, .flash, .ted, .col, .load, .sec, .pwr, .snap, .mesh, .move, .land, .sent] s t :=
  ⟨_, rfl, Only.run (((busWrite_only _ _ _).sub rfl) : Only _ _) s⟩

theorem execDoorbellConsumer_frame (core : CoreId) (ring : Fin 65536) (index : BitVec 32) (s : State) : ∃ t, execDoorbellConsumer core ring index s = .next t ∧
    SameBut [.regs, .staged, .mem, .tab, .resp, .record, .time, .ports, .parts, .sites, .tiles, .fab, .mig, .flash, .ted, .col, .load, .sec, .pwr, .snap, .mesh, .move, .land, .sent] s t :=
  ⟨_, rfl, Only.run (((busWrite_only _ _ _).sub rfl) : Only _ _) s⟩

theorem execTickEdge_frame (calFailed : List TileId) (skewOk : Bool) (s : State) : ∃ t, execTickEdge calFailed skewOk s = .next t ∧
    SameBut [.regs, .staged, .mem, .tab, .time, .ports, .parts, .sites, .tiles, .fab, .mig, .flash, .col, .load, .pwr, .snap, .mesh, .move, .land, .sent, .free] s t :=
  ⟨_, rfl, Only.run ((mains_only ((tickEdge_only _ _).sub rfl) rfl) : Only _ _) s⟩

theorem execGmapShadowCopyDone_frame (s : State) : ∃ t, execGmapShadowCopyDone  s = .next t ∧
    SameBut [.regs] s t :=
  ⟨_, rfl, Only.run ((mains_only ((shadowCopyDone_only).sub rfl) rfl) : Only _ _) s⟩

theorem execTileZeroDone_frame (tile : TileId) (s : State) : ∃ t, execTileZeroDone tile s = .next t ∧
    SameBut [.regs, .tiles] s t :=
  ⟨_, rfl, Only.run ((mains_only ((tileZeroDone_only _).sub rfl) rfl) : Only _ _) s⟩

theorem execHubUnitZeroDone_frame (hub : HubId) (unit : Fin 256) (s : State) : ∃ t, execHubUnitZeroDone hub unit s = .next t ∧
    SameBut [.regs, .move] s t :=
  ⟨_, rfl, Only.run ((mains_only ((hubUnitZeroDone_only _ _).sub rfl) rfl) : Only _ _) s⟩

theorem execSliceZeroDone_frame (s : State) : ∃ t, execSliceZeroDone  s = .next t ∧
    SameBut [.regs, .move] s t :=
  ⟨_, rfl, Only.run ((mains_only ((sliceZeroDone_only).sub rfl) rfl) : Only _ _) s⟩

theorem execTickRunSet_frame (core : CoreId) (s : State) : ∃ t, execTickRunSet core s = .next t ∧
    SameBut [.regs, .staged, .mem, .tab, .resp, .record, .time, .ports, .parts, .sites, .tiles, .fab, .mig, .flash, .ted, .col, .load, .sec, .pwr, .snap, .mesh, .move, .land, .sent] s t :=
  ⟨_, rfl, Only.run (((busWrite_only _ _ _).sub rfl) : Only _ _) s⟩

theorem execTickRunClear_frame (core : CoreId) (s : State) : ∃ t, execTickRunClear core s = .next t ∧
    SameBut [.regs, .staged, .mem, .tab, .resp, .record, .time, .ports, .parts, .sites, .tiles, .fab, .mig, .flash, .ted, .col, .load, .sec, .pwr, .snap, .mesh, .move, .land, .sent] s t :=
  ⟨_, rfl, Only.run (((busWrite_only _ _ _).sub rfl) : Only _ _) s⟩

theorem execPtpSync_frame (src : Nat) (domain : BitVec 8) (transport : Fin 3) (seq : BitVec 16) (twoStep : Bool) (origin : BitVec 64) (corr : BitVec 64) (s : State) : ∃ t, execPtpSync src domain transport seq twoStep origin corr s = .next t ∧
    SameBut [.regs, .time, .land, .sent, .free] s t :=
  ⟨_, rfl, Only.run ((awake_only (Only.bind ((ptpSync_only _ _ _ _ _ _ _).sub rfl) (fun _ => ((milestonesCheck_only).sub rfl))) rfl) : Only _ _) s⟩

theorem execPtpFollowUp_frame (src : Nat) (domain : BitVec 8) (transport : Fin 3) (seq : BitVec 16) (origin : BitVec 64) (corr : BitVec 64) (s : State) : ∃ t, execPtpFollowUp src domain transport seq origin corr s = .next t ∧
    SameBut [.regs, .time, .land, .sent, .free] s t :=
  ⟨_, rfl, Only.run ((awake_only (Only.bind ((ptpFollowUp_only _ _ _ _ _ _).sub rfl) (fun _ => ((milestonesCheck_only).sub rfl))) rfl) : Only _ _) s⟩

theorem execPtpAnnounce_frame (src : Nat) (domain : BitVec 8) (transport : Fin 3) (rank : List Nat) (s : State) : ∃ t, execPtpAnnounce src domain transport rank s = .next t ∧
    SameBut [.regs, .time] s t :=
  ⟨_, rfl, Only.run ((awake_only ((ptpAnnounce_only _ _ _ _).sub rfl) rfl) : Only _ _) s⟩

theorem execPtpDelayReq_frame (s : State) : ∃ t, execPtpDelayReq  s = .next t ∧
    SameBut [.regs, .time, .land, .sent] s t :=
  ⟨_, rfl, Only.run ((awake_only ((ptpDelayReq_only).sub rfl) rfl) : Only _ _) s⟩

theorem execPtpDelayResp_frame (src : Nat) (domain : BitVec 8) (transport : Fin 3) (seq : BitVec 16) (t4 : BitVec 64) (corr : BitVec 64) (s : State) : ∃ t, execPtpDelayResp src domain transport seq t4 corr s = .next t ∧
    SameBut [.regs, .time, .land, .sent] s t :=
  ⟨_, rfl, Only.run ((awake_only (Only.bind ((ptpDelayResp_only _ _ _ _ _ _).sub rfl) (fun _ => ((milestonesCheck_only).sub rfl))) rfl) : Only _ _) s⟩

theorem execBeacon_frame (pkt : RxPacket) (s : State) : ∃ t, execBeacon pkt s = .next t ∧
    SameBut [.regs, .mem, .time, .ports, .land, .sent, .free] s t :=
  ⟨_, rfl, Only.run ((mains_only (Only.bind ((beacon_only _).sub rfl) (fun _ => ((milestonesCheck_only).sub rfl))) rfl) : Only _ _) s⟩

theorem execSyncLossTimeout_frame (s : State) : ∃ t, execSyncLossTimeout  s = .next t ∧
    SameBut [.regs, .time] s t :=
  ⟨_, rfl, Only.run ((awake_only ((syncLoss_only).sub rfl) rfl) : Only _ _) s⟩

theorem execHoldoverErrorLimit_frame (err : BitVec 16) (s : State) : ∃ t, execHoldoverErrorLimit err s = .next t ∧
    SameBut [.regs] s t :=
  ⟨_, rfl, Only.run ((awake_only ((holdoverError_only _).sub rfl) rfl) : Only _ _) s⟩

theorem execStepStart_frame (p : PartId) (s : State) : ∃ t, execStepStart p s = .next t ∧
    SameBut [.regs, .tab, .tiles] s t :=
  ⟨_, rfl, Only.run ((mains_only ((stepStart_only _).sub rfl) rfl) : Only _ _) s⟩

theorem execBarrierRelease_frame (tile : TileId) (s : State) : ∃ t, execBarrierRelease tile s = .next t ∧
    SameBut [.tiles] s t :=
  ⟨_, rfl, Only.run ((mains_only ((barrierRelease_only _).sub rfl) rfl) : Only _ _) s⟩

theorem execGleanPost_frame (core : CoreId) (entry : Fin 64) (value : Word) (s : State) : ∃ t, execGleanPost core entry value s = .next t ∧
    SameBut [.regs, .staged, .mem, .tab, .resp, .record, .time, .ports, .parts, .sites, .tiles, .fab, .mig, .flash, .ted, .col, .load, .sec, .pwr, .snap, .mesh, .move, .land, .sent] s t :=
  ⟨_, rfl, Only.run (((busWriteX_only _ _ _ _ _).sub rfl) : Only _ _) s⟩

theorem execGleanCancel_frame (core : CoreId) (entry : Fin 64) (s : State) : ∃ t, execGleanCancel core entry s = .next t ∧
    SameBut [.regs, .staged, .mem, .tab, .resp, .record, .time, .ports, .parts, .sites, .tiles, .fab, .mig, .flash, .ted, .col, .load, .sec, .pwr, .snap, .mesh, .move, .land, .sent] s t :=
  ⟨_, rfl, Only.run (((busField_only _ _ _ _).sub rfl) : Only _ _) s⟩

theorem execGleanOpen_frame (entry : Fin 64) (calFailed : List TileId) (skewOk : Bool) (s : State) : ∃ t, execGleanOpen entry calFailed skewOk s = .next t ∧
    SameBut [.regs, .mem, .tab, .time, .ports, .mig, .flash, .load, .pwr, .land, .sent, .free] s t :=
  ⟨_, rfl, Only.run ((mains_only ((gleanStarts_only _ _ _).sub rfl) rfl) : Only _ _) s⟩

theorem execGleanClose_frame (entry : Fin 64) (finished : Bool) (verified : Bool) (temp : BitVec 8) (chan : Fin 4) (scanned : Nat) (refresh : List Nat) (s : State) : ∃ t, execGleanClose entry finished verified temp chan scanned refresh s = .next t ∧
    SameBut [.regs, .mem, .tab, .time, .ports, .sites, .mig, .flash, .load, .land, .sent, .free] s t :=
  ⟨_, rfl, Only.run ((mains_only ((gleanEnds_only _ _).sub rfl) rfl) : Only _ _) s⟩

theorem execGleanSwapBack_frame (entry : Fin 64) (skewOk : Bool) (s : State) : ∃ t, execGleanSwapBack entry skewOk s = .next t ∧
    SameBut [.regs, .ports] s t :=
  ⟨_, rfl, Only.run ((mains_only ((gleanSwapBack_only _ _).sub rfl) rfl) : Only _ _) s⟩

theorem execSelftestStart_frame (core : CoreId) (tile : TileId) (s : State) : ∃ t, execSelftestStart core tile s = .next t ∧
    SameBut [.regs, .staged, .mem, .tab, .resp, .record, .time, .ports, .parts, .sites, .tiles, .fab, .mig, .flash, .ted, .col, .load, .sec, .pwr, .snap, .mesh, .move, .land, .sent] s t :=
  ⟨_, rfl, Only.run (((busField_only _ _ _ _).sub rfl) : Only _ _) s⟩

theorem execSelftestDone_frame (tile : TileId) (pass : Bool) (s : State) : ∃ t, execSelftestDone tile pass s = .next t ∧
    SameBut [.regs, .tiles, .land, .sent] s t :=
  ⟨_, rfl, Only.run ((mains_only ((selftestDone_only _ _).sub rfl) rfl) : Only _ _) s⟩

theorem execTileFail_frame (tile : TileId) (cause : Fin 3) (s : State) : ∃ t, execTileFail tile cause s = .next t ∧
    SameBut [.regs, .mem, .tab, .ports, .parts, .sites, .tiles, .mig, .flash, .col, .land, .sent, .free] s t :=
  ⟨_, rfl, Only.run ((mains_only ((tileFail_only _ _).sub rfl) rfl) : Only _ _) s⟩

theorem execCoreFail_frame (core : CoreId) (s : State) : ∃ t, execCoreFail core s = .next t ∧
    SameBut [.regs, .tab, .parts, .land, .sent, .free] s t :=
  ⟨_, rfl, Only.run ((mains_only ((coreFail_only _).sub rfl) rfl) : Only _ _) s⟩

theorem execMeshInject_frame (src : TileId) (x : Fin 24) (y : Fin 26) (load : MeshLoad) (request : Bool) (s : State) : ∃ t, execMeshInject src x y load request s = .next t ∧
    SameBut [.regs, .mesh, .sent] s t :=
  ⟨_, rfl, Only.run ((mains_only ((meshInject_only _).sub rfl) rfl) : Only _ _) s⟩

theorem execMeshHoldRelease_frame (hold : HoldEnd) (s : State) : ∃ t, execMeshHoldRelease hold s = .next t ∧
    SameBut [.regs, .mesh, .sent] s t :=
  ⟨_, rfl, Only.run ((mains_only ((meshRelease_only _ _).sub rfl) rfl) : Only _ _) s⟩

theorem execMeshHoldTimeout_frame (s : State) : ∃ t, execMeshHoldTimeout  s = .next t ∧
    SameBut [.regs] s t :=
  ⟨_, rfl, Only.run ((mains_only ((meshTimeout_only).sub rfl) rfl) : Only _ _) s⟩

theorem execOpqTailWrite_frame (via : Option CoreId) (tile : TileId) (tail : BitVec 32) (s : State) : ∃ t, execOpqTailWrite via tile tail s = .next t ∧
    SameBut [.regs, .staged, .mem, .tab, .resp, .record, .time, .ports, .parts, .sites, .tiles, .fab, .mig, .flash, .ted, .col, .load, .sec, .pwr, .snap, .mesh, .move, .land, .sent] s t :=
  ⟨_, rfl, Only.run ((by split; exact ((busWrite_only _ _ _).sub rfl); exact (mains_only (Only.bind ((opqTail_only _ _).sub rfl) (fun _ => (Only.pure _ _))) rfl)) : Only _ _) s⟩

theorem execOpRetire_frame (tile : TileId) (k : Nat) (corrected : Nat) (s : State) : ∃ t, execOpRetire tile k corrected s = .next t ∧
    SameBut [.regs, .mem, .tab, .tiles] s t :=
  ⟨_, rfl, Only.run ((mains_only ((retireOp_only _ _ _).sub rfl) rfl) : Only _ _) s⟩

theorem execOpSignal_frame (tile : TileId) (k : Nat) (s : State) : ∃ t, execOpSignal tile k s = .next t ∧
    SameBut [.regs, .mem, .tab, .tiles] s t :=
  ⟨_, rfl, Only.run ((mains_only ((signalOp_only _ _).sub rfl) rfl) : Only _ _) s⟩

theorem execOpFlush_frame (core : CoreId) (tile : TileId) (value : Word) (s : State) : ∃ t, execOpFlush core tile value s = .next t ∧
    SameBut [.regs, .mem, .resp, .tiles, .land, .sent] s t :=
  ⟨_, rfl, Only.run (busWriteX_block_only _ _ .tile _ 0x168 _ _ (Fin.isLt _) (by decide) ⟨by decide, by decide⟩ (fun _ => (Only.bind (Only.get _) (fun _ => (Only.ite (Only.pure _ _) (andDone_only ((flushOps_only _).sub rfl) rfl))))) rfl : Only _ _) s⟩

theorem execNop_frame (tile : TileId) (s : State) : ∃ t, execNop tile s = .next t ∧
    SameBut [.regs, .mem, .tab, .tiles] s t :=
  ⟨_, rfl, Only.run ((mains_only (issueOp_only _ _ _ _ (fun _ _ => (Only.skip _)) rfl) rfl) : Only _ _) s⟩

theorem execMatmul_frame (tile : TileId) (s : State) : ∃ t, execMatmul tile s = .next t ∧
    SameBut [.regs, .mem, .tab, .tiles] s t :=
  ⟨_, rfl, Only.run ((mains_only (issueOp_only _ _ _ _ (fun _ _ => ((matmulWork_only _ _).sub rfl)) rfl) rfl) : Only _ _) s⟩

theorem execFinish_frame (tile : TileId) (s : State) : ∃ t, execFinish tile s = .next t ∧
    SameBut [.regs, .mem, .tab, .tiles] s t :=
  ⟨_, rfl, Only.run ((mains_only (issueOp_only _ _ _ _ (fun _ _ => ((finishWork_only _ _).sub rfl)) rfl) rfl) : Only _ _) s⟩

theorem execCombine_frame (tile : TileId) (s : State) : ∃ t, execCombine tile s = .next t ∧
    SameBut [.regs, .mem, .tab, .tiles] s t :=
  ⟨_, rfl, Only.run ((mains_only (issueOp_only _ _ _ _ (fun _ _ => ((combineWork_only _ _).sub rfl)) rfl) rfl) : Only _ _) s⟩

theorem execVewAdd_frame (tile : TileId) (s : State) : ∃ t, execVewAdd tile s = .next t ∧
    SameBut [.regs, .mem, .tab, .tiles] s t :=
  ⟨_, rfl, Only.run ((mains_only (issueOp_only _ _ _ _ (fun _ _ => ((vewWork_only _ _ _).sub rfl)) rfl) rfl) : Only _ _) s⟩

theorem execVewSub_frame (tile : TileId) (s : State) : ∃ t, execVewSub tile s = .next t ∧
    SameBut [.regs, .mem, .tab, .tiles] s t :=
  ⟨_, rfl, Only.run ((mains_only (issueOp_only _ _ _ _ (fun _ _ => ((vewWork_only _ _ _).sub rfl)) rfl) rfl) : Only _ _) s⟩

theorem execVewMul_frame (tile : TileId) (s : State) : ∃ t, execVewMul tile s = .next t ∧
    SameBut [.regs, .mem, .tab, .tiles] s t :=
  ⟨_, rfl, Only.run ((mains_only (issueOp_only _ _ _ _ (fun _ _ => ((vewWork_only _ _ _).sub rfl)) rfl) rfl) : Only _ _) s⟩

theorem execVewFma_frame (tile : TileId) (s : State) : ∃ t, execVewFma tile s = .next t ∧
    SameBut [.regs, .mem, .tab, .tiles] s t :=
  ⟨_, rfl, Only.run ((mains_only (issueOp_only _ _ _ _ (fun _ _ => ((vewWork_only _ _ _).sub rfl)) rfl) rfl) : Only _ _) s⟩

theorem execVewMax_frame (tile : TileId) (s : State) : ∃ t, execVewMax tile s = .next t ∧
    SameBut [.regs, .mem, .tab, .tiles] s t :=
  ⟨_, rfl, Only.run ((mains_only (issueOp_only _ _ _ _ (fun _ _ => ((vewWork_only _ _ _).sub rfl)) rfl) rfl) : Only _ _) s⟩

theorem execVewMin_frame (tile : TileId) (s : State) : ∃ t, execVewMin tile s = .next t ∧
    SameBut [.regs, .mem, .tab, .tiles] s t :=
  ⟨_, rfl, Only.run ((mains_only (issueOp_only _ _ _ _ (fun _ _ => ((vewWork_only _ _ _).sub rfl)) rfl) rfl) : Only _ _) s⟩

theorem execVewConvert_frame (tile : TileId) (s : State) : ∃ t, execVewConvert tile s = .next t ∧
    SameBut [.regs, .mem, .tab, .tiles] s t :=
  ⟨_, rfl, Only.run ((mains_only (issueOp_only _ _ _ _ (fun _ _ => ((vewWork_only _ _ _).sub rfl)) rfl) rfl) : Only _ _) s⟩

theorem execActRelu_frame (tile : TileId) (s : State) : ∃ t, execActRelu tile s = .next t ∧
    SameBut [.regs, .mem, .tab, .tiles] s t :=
  ⟨_, rfl, Only.run ((mains_only (issueOp_only _ _ _ _ (fun _ _ => ((actWork_only _ _ _).sub rfl)) rfl) rfl) : Only _ _) s⟩

theorem execActSigmoid_frame (tile : TileId) (s : State) : ∃ t, execActSigmoid tile s = .next t ∧
    SameBut [.regs, .mem, .tab, .tiles] s t :=
  ⟨_, rfl, Only.run ((mains_only (issueOp_only _ _ _ _ (fun _ _ => ((actWork_only _ _ _).sub rfl)) rfl) rfl) : Only _ _) s⟩

theorem execActSilu_frame (tile : TileId) (s : State) : ∃ t, execActSilu tile s = .next t ∧
    SameBut [.regs, .mem, .tab, .tiles] s t :=
  ⟨_, rfl, Only.run ((mains_only (issueOp_only _ _ _ _ (fun _ _ => ((actWork_only _ _ _).sub rfl)) rfl) rfl) : Only _ _) s⟩

theorem execActGeluTanh_frame (tile : TileId) (s : State) : ∃ t, execActGeluTanh tile s = .next t ∧
    SameBut [.regs, .mem, .tab, .tiles] s t :=
  ⟨_, rfl, Only.run ((mains_only (issueOp_only _ _ _ _ (fun _ _ => ((actWork_only _ _ _).sub rfl)) rfl) rfl) : Only _ _) s⟩

theorem execActExp_frame (tile : TileId) (s : State) : ∃ t, execActExp tile s = .next t ∧
    SameBut [.regs, .mem, .tab, .tiles] s t :=
  ⟨_, rfl, Only.run ((mains_only (issueOp_only _ _ _ _ (fun _ _ => ((actWork_only _ _ _).sub rfl)) rfl) rfl) : Only _ _) s⟩

theorem execActSwiglu_frame (tile : TileId) (s : State) : ∃ t, execActSwiglu tile s = .next t ∧
    SameBut [.regs, .mem, .tab, .tiles] s t :=
  ⟨_, rfl, Only.run ((mains_only (issueOp_only _ _ _ _ (fun _ _ => ((actWork_only _ _ _).sub rfl)) rfl) rfl) : Only _ _) s⟩

theorem execNormRms_frame (tile : TileId) (s : State) : ∃ t, execNormRms tile s = .next t ∧
    SameBut [.regs, .mem, .tab, .tiles] s t :=
  ⟨_, rfl, Only.run ((mains_only (issueOp_only _ _ _ _ (fun _ _ => ((normWork_only _ _ _).sub rfl)) rfl) rfl) : Only _ _) s⟩

theorem execNormLayer_frame (tile : TileId) (s : State) : ∃ t, execNormLayer tile s = .next t ∧
    SameBut [.regs, .mem, .tab, .tiles] s t :=
  ⟨_, rfl, Only.run ((mains_only (issueOp_only _ _ _ _ (fun _ _ => ((normWork_only _ _ _).sub rfl)) rfl) rfl) : Only _ _) s⟩

theorem execRope_frame (tile : TileId) (s : State) : ∃ t, execRope tile s = .next t ∧
    SameBut [.regs, .mem, .tab, .tiles] s t :=
  ⟨_, rfl, Only.run ((mains_only (issueOp_only _ _ _ _ (fun _ _ => ((ropeWork_only _ _).sub rfl)) rfl) rfl) : Only _ _) s⟩

theorem execReduceSum_frame (tile : TileId) (s : State) : ∃ t, execReduceSum tile s = .next t ∧
    SameBut [.regs, .mem, .tab, .tiles] s t :=
  ⟨_, rfl, Only.run ((mains_only (issueOp_only _ _ _ _ (fun _ _ => ((reduceWork_only _ _ _).sub rfl)) rfl) rfl) : Only _ _) s⟩

theorem execReduceSumSquares_frame (tile : TileId) (s : State) : ∃ t, execReduceSumSquares tile s = .next t ∧
    SameBut [.regs, .mem, .tab, .tiles] s t :=
  ⟨_, rfl, Only.run ((mains_only (issueOp_only _ _ _ _ (fun _ _ => ((reduceWork_only _ _ _).sub rfl)) rfl) rfl) : Only _ _) s⟩

theorem execReduceMax_frame (tile : TileId) (s : State) : ∃ t, execReduceMax tile s = .next t ∧
    SameBut [.regs, .mem, .tab, .tiles] s t :=
  ⟨_, rfl, Only.run ((mains_only (issueOp_only _ _ _ _ (fun _ _ => ((reduceWork_only _ _ _).sub rfl)) rfl) rfl) : Only _ _) s⟩

theorem execReduceMin_frame (tile : TileId) (s : State) : ∃ t, execReduceMin tile s = .next t ∧
    SameBut [.regs, .mem, .tab, .tiles] s t :=
  ⟨_, rfl, Only.run ((mains_only (issueOp_only _ _ _ _ (fun _ _ => ((reduceWork_only _ _ _).sub rfl)) rfl) rfl) : Only _ _) s⟩

theorem execReduceMaxAbs_frame (tile : TileId) (s : State) : ∃ t, execReduceMaxAbs tile s = .next t ∧
    SameBut [.regs, .mem, .tab, .tiles] s t :=
  ⟨_, rfl, Only.run ((mains_only (issueOp_only _ _ _ _ (fun _ _ => ((reduceWork_only _ _ _).sub rfl)) rfl) rfl) : Only _ _) s⟩

theorem execQuant_frame (tile : TileId) (s : State) : ∃ t, execQuant tile s = .next t ∧
    SameBut [.regs, .mem, .tab, .tiles] s t :=
  ⟨_, rfl, Only.run ((mains_only (issueOp_only _ _ _ _ (fun _ _ => ((quantWork_only _ _).sub rfl)) rfl) rfl) : Only _ _) s⟩

theorem execTopk_frame (tile : TileId) (s : State) : ∃ t, execTopk tile s = .next t ∧
    SameBut [.regs, .mem, .tab, .tiles] s t :=
  ⟨_, rfl, Only.run ((mains_only (issueOp_only _ _ _ _ (fun _ _ => ((topkWork_only _ _).sub rfl)) rfl) rfl) : Only _ _) s⟩

theorem execSelect_frame (tile : TileId) (s : State) : ∃ t, execSelect tile s = .next t ∧
    SameBut [.regs, .mem, .tab, .tiles] s t :=
  ⟨_, rfl, Only.run ((mains_only (issueOp_only _ _ _ _ (fun _ _ => ((selectWork_only _ _).sub rfl)) rfl) rfl) : Only _ _) s⟩

theorem execGather_frame (tile : TileId) (s : State) : ∃ t, execGather tile s = .next t ∧
    SameBut [.regs, .mem, .tab, .tiles] s t :=
  ⟨_, rfl, Only.run ((mains_only (issueOp_only _ _ _ _ (fun _ _ => ((gatherWork_only _ _).sub rfl)) rfl) rfl) : Only _ _) s⟩

theorem execScatter_frame (tile : TileId) (s : State) : ∃ t, execScatter tile s = .next t ∧
    SameBut [.regs, .mem, .tab, .tiles] s t :=
  ⟨_, rfl, Only.run ((mains_only (issueOp_only _ _ _ _ (fun _ _ => ((scatterWork_only _ _).sub rfl)) rfl) rfl) : Only _ _) s⟩

theorem execSample_frame (tile : TileId) (s : State) : ∃ t, execSample tile s = .next t ∧
    SameBut [.regs, .mem, .tab, .tiles] s t :=
  ⟨_, rfl, Only.run ((mains_only (issueOp_only _ _ _ _ (fun _ _ => ((sampleWork_only _ _).sub rfl)) rfl) rfl) : Only _ _) s⟩

theorem execAttn_frame (tile : TileId) (s : State) : ∃ t, execAttn tile s = .next t ∧
    SameBut [.regs, .mem, .tab, .tiles] s t :=
  ⟨_, rfl, Only.run ((mains_only (served_only (issueOp_only _ _ _ _ (fun _ _ => ((attnWork_only _ _).sub rfl)) rfl) rfl) rfl) : Only _ _) s⟩

theorem execWait_frame (tile : TileId) (s : State) : ∃ t, execWait tile s = .next t ∧
    SameBut [.regs, .mem, .tab, .tiles] s t :=
  ⟨_, rfl, Only.run ((mains_only ((waitOp_only _).sub rfl) rfl) : Only _ _) s⟩

theorem execWalkInv_frame (core : CoreId) (tile : TileId) (s : State) : ∃ t, execWalkInv core tile s = .next t ∧
    SameBut [.regs, .mem, .resp, .tiles, .land, .sent] s t :=
  ⟨_, rfl, Only.run (busWriteX_block_only _ _ .tile _ 0x688 _ _ (Fin.isLt _) (by decide) ⟨by decide, by decide⟩ (fun _ => (Only.bind (Only.get _) (fun _ => (Only.ite (Only.pure _ _) (Only.ite (Only.pure _ _) (andDone_only ((walkInv_only _).sub rfl) rfl)))))) rfl : Only _ _) s⟩

theorem execQhistWrite_frame (core : CoreId) (tile : TileId) (value : Word) (s : State) : ∃ t, execQhistWrite core tile value s = .next t ∧
    SameBut [.regs, .mem, .tab, .resp, .land, .sent] s t :=
  ⟨_, rfl, Only.run (busWriteX_block_only _ _ .tile _ 0x608 _ _ (Fin.isLt _) (by decide) ⟨by decide, by decide⟩ (fun _ => (Only.bind (Only.get _) (fun _ => (Only.ite (Only.pure _ _) (Only.ite (Only.pure _ _) (andDone_only ((histWrite_only _ _).sub rfl) rfl)))))) rfl : Only _ _) s⟩

theorem execRingContextWrite_frame (core : CoreId) (p : PartId) (word : Fin 8) (value : Word) (s : State) : ∃ t, execRingContextWrite core p word value s = .next t ∧
    SameBut [.regs, .staged, .mem, .tab, .resp, .record, .time, .ports, .parts, .sites, .tiles, .fab, .mig, .flash, .ted, .col, .load, .sec, .pwr, .snap, .mesh, .move, .land, .sent] s t :=
  ⟨_, rfl, Only.run (((busWriteX_only _ _ _ _ _).sub rfl) : Only _ _) s⟩

theorem execRingIn_frame (pkt : RxPacket) (s : State) : ∃ t, execRingIn pkt s = .next t ∧
    SameBut [.regs, .mem, .tab, .ports, .parts, .sites, .fab, .mig, .sent] s t :=
  ⟨_, rfl, Only.run ((mains_only (served_only ((ringIn_only _).sub rfl) rfl) rfl) : Only _ _) s⟩

theorem execAdmission_frame (hub : HubId) (s : State) : ∃ t, execAdmission hub s = .next t ∧
    SameBut [.regs, .mem, .tab, .ports, .parts, .sites, .mig, .sent] s t :=
  ⟨_, rfl, Only.run ((mains_only (served_only (hubActs_only _ ((admission_only _).sub rfl) rfl) rfl) rfl) : Only _ _) s⟩

theorem execCancel_frame (hub : HubId) (s : State) : ∃ t, execCancel hub s = .next t ∧
    SameBut [.regs, .mem, .tab, .ports, .parts, .sites, .mig, .sent] s t :=
  ⟨_, rfl, Only.run ((mains_only (served_only (hubActs_only _ ((cancelMessage_only _).sub rfl) rfl) rfl) rfl) : Only _ _) s⟩

theorem execMirrorConf_frame (pkt : RxPacket) (s : State) : ∃ t, execMirrorConf pkt s = .next t ∧
    SameBut [.regs, .mem, .tab, .ports, .parts, .sites, .mig, .sent] s t :=
  ⟨_, rfl, Only.run ((mains_only (served_only ((mirrorConf_only _).sub rfl) rfl) rfl) : Only _ _) s⟩

theorem execMirrorTimeout_frame (p : PartId) (s : State) : ∃ t, execMirrorTimeout p s = .next t ∧
    SameBut [.regs] s t :=
  ⟨_, rfl, Only.run ((mains_only ((mirrorTimeout_only _).sub rfl) rfl) : Only _ _) s⟩

theorem execStepArm_frame (core : CoreId) (p : PartId) (give : List Nat) (value : Word) (s : State) : ∃ t, execStepArm core p give value s = .next t ∧
    SameBut [.regs, .mem, .tab, .resp, .parts, .sites, .mig, .land, .sent] s t :=
  ⟨_, rfl, Only.run (busWriteX_block_only _ _ .req _ 0x110 _ _ (by have := p.isLt; show 1 + p.val < 64; omega) (by decide) ⟨by decide, by decide⟩ (fun _ => (by rw [blockWrite_req]; exact (Only.bind (Only.get _) (fun _ => (Only.ite (Only.pure _ _) ((stepArm_only _ _ _).sub rfl)))))) rfl : Only _ _) s⟩

theorem execCowCopyDone_frame (p : PartId) (s : State) : ∃ t, execCowCopyDone p s = .next t ∧
    SameBut [.regs, .mem, .tab, .parts, .sites, .mig] s t :=
  ⟨_, rfl, Only.run ((mains_only (served_only ((cowDone_only _).sub rfl) rfl) rfl) : Only _ _) s⟩

theorem execStepCommit_frame (core : CoreId) (p : PartId) (s : State) : ∃ t, execStepCommit core p s = .next t ∧
    SameBut [.regs, .mem, .tab, .resp, .ports, .parts, .sites, .tiles, .mig, .land, .sent] s t :=
  ⟨_, rfl, Only.run (busWriteX_block_only _ _ .req _ 0x118 _ _ (by have := p.isLt; show 1 + p.val < 64; omega) (by decide) ⟨by decide, by decide⟩ (fun _ => (by rw [blockWrite_req]; exact (Only.bind (Only.get _) (fun _ => (Only.ite ((stepCommit_only _).sub rfl) (Only.ite ((stepRollback_only _).sub rfl) (Only.pure _ _))))))) rfl : Only _ _) s⟩

theorem execCommitResume_frame (p : PartId) (s : State) : ∃ t, execCommitResume p s = .next t ∧
    SameBut [.regs, .mem, .tab, .ports, .parts, .sites, .tiles, .mig, .sent] s t :=
  ⟨_, rfl, Only.run ((mains_only (served_only ((commitResume_only _).sub rfl) rfl) rfl) : Only _ _) s⟩

theorem execStepRollback_frame (core : CoreId) (p : PartId) (s : State) : ∃ t, execStepRollback core p s = .next t ∧
    SameBut [.regs, .mem, .tab, .resp, .ports, .parts, .sites, .tiles, .mig, .land, .sent] s t :=
  ⟨_, rfl, Only.run (busWriteX_block_only _ _ .req _ 0x118 _ _ (by have := p.isLt; show 1 + p.val < 64; omega) (by decide) ⟨by decide, by decide⟩ (fun _ => (by rw [blockWrite_req]; exact (Only.bind (Only.get _) (fun _ => (Only.ite ((stepCommit_only _).sub rfl) (Only.ite ((stepRollback_only _).sub rfl) (Only.pure _ _))))))) rfl : Only _ _) s⟩

theorem execUnpark_frame (core : CoreId) (p : PartId) (slot : Fin 16384) (s : State) : ∃ t, execUnpark core p slot s = .next t ∧
    SameBut [.regs, .mem, .tab, .resp, .parts, .land, .sent] s t :=
  ⟨_, rfl, Only.run (busWriteX_block_only _ _ .req _ 0x1c8 _ _ (by have := p.isLt; show 1 + p.val < 64; omega) (by decide) ⟨by decide, by decide⟩ (fun _ => (by rw [blockWrite_req]; exact (Only.bind (Only.get _) (fun _ => ((unpark_only _ _).sub rfl))))) rfl : Only _ _) s⟩

theorem execListRelease_frame (core : CoreId) (p : PartId) (slot : Fin 16384) (s : State) : ∃ t, execListRelease core p slot s = .next t ∧
    SameBut [.regs, .mem, .tab, .resp, .parts, .sites, .mig, .land, .sent] s t :=
  ⟨_, rfl, Only.run (busWriteX_block_only _ _ .req _ 0x1d8 _ _ (by have := p.isLt; show 1 + p.val < 64; omega) (by decide) ⟨by decide, by decide⟩ (fun _ => (by rw [blockWrite_req]; exact (Only.bind (Only.get _) (fun _ => ((listRelease_only _ _).sub rfl))))) rfl : Only _ _) s⟩

theorem execPrxShare_frame (core : CoreId) (p : PartId) (shared : Fin 8) (node : BitVec 24) (s : State) : ∃ t, execPrxShare core p shared node s = .next t ∧
    SameBut [.regs, .mem, .tab, .resp, .parts, .sites, .mig, .land, .sent] s t :=
  ⟨_, rfl, Only.run (busWriteX_block_only _ _ .req _ 0x178 _ _ (by have := p.isLt; show 1 + p.val < 64; omega) (by decide) ⟨by decide, by decide⟩ (fun _ => (by rw [blockWrite_req]; exact (Only.bind (Only.get _) (fun _ => (Only.ite (Only.pure _ _) (Only.ite (andDone_only ((prxWithdraw_only _ _ _).sub rfl) rfl) (andDone_only ((prxShare_only _ _ _).sub rfl) rfl))))))) rfl : Only _ _) s⟩

theorem execPrxWithdraw_frame (core : CoreId) (p : PartId) (shared : Fin 8) (node : BitVec 24) (s : State) : ∃ t, execPrxWithdraw core p shared node s = .next t ∧
    SameBut [.regs, .mem, .tab, .resp, .parts, .sites, .mig, .land, .sent] s t :=
  ⟨_, rfl, Only.run (busWriteX_block_only _ _ .req _ 0x178 _ _ (by have := p.isLt; show 1 + p.val < 64; omega) (by decide) ⟨by decide, by decide⟩ (fun _ => (by rw [blockWrite_req]; exact (Only.bind (Only.get _) (fun _ => (Only.ite (Only.pure _ _) (Only.ite (andDone_only ((prxWithdraw_only _ _ _).sub rfl) rfl) (andDone_only ((prxShare_only _ _ _).sub rfl) rfl))))))) rfl : Only _ _) s⟩

theorem execPrxKeyWrite_frame (core : CoreId) (shared : Bool) (n : Fin 32) (high : Bool) (value : Word) (s : State) : ∃ t, execPrxKeyWrite core shared n high value s = .next t ∧
    SameBut [.regs, .staged, .mem, .tab, .resp, .record, .time, .ports, .parts, .sites, .tiles, .fab, .mig, .flash, .ted, .col, .load, .sec, .pwr, .snap, .mesh, .move, .land, .sent] s t :=
  ⟨_, rfl, Only.run (((busWriteX_only _ _ _ _ _).sub rfl) : Only _ _) s⟩

theorem execStepAbandon_frame (core : CoreId) (p : PartId) (s : State) : ∃ t, execStepAbandon core p s = .next t ∧
    SameBut [.regs, .mem, .tab, .resp, .parts, .sites, .tiles, .mig, .land, .sent] s t :=
  ⟨_, rfl, Only.run (busWriteX_block_only _ _ .prt _ 0x738 _ _ (Fin.isLt _) (by decide) ⟨by decide, by decide⟩ (fun _ => (Only.bind (Only.get _) (fun _ => ((stepAbandon_only _).sub rfl)))) rfl : Only _ _) s⟩

theorem execKvRebuild_frame (core : CoreId) (p : PartId) (slot : Fin 16384) (first : BitVec 32) (s : State) : ∃ t, execKvRebuild core p slot first s = .next t ∧
    SameBut [.regs, .mem, .tab, .resp, .parts, .sites, .mig, .land, .sent] s t :=
  ⟨_, rfl, Only.run (busWriteX_block_only _ _ .prt _ 0x730 _ _ (Fin.isLt _) (by decide) ⟨by decide, by decide⟩ (fun _ => (Only.bind (Only.get _) (fun _ => ((kvRebuild_only _ _ _).sub rfl)))) rfl : Only _ _) s⟩

theorem execRecover_frame (core : CoreId) (p : PartId) (table : BitVec 20) (failover : Bool) (s : State) : ∃ t, execRecover core p table failover s = .next t ∧
    SameBut [.regs, .mem, .tab, .resp, .ports, .parts, .sites, .mig, .land, .sent] s t :=
  ⟨_, rfl, Only.run (busWriteX_block_only _ _ .prt _ 0x740 _ _ (Fin.isLt _) (by decide) ⟨by decide, by decide⟩ (fun _ => (Only.bind (Only.get _) (fun _ => ((recover_only _ _ _).sub rfl)))) rfl : Only _ _) s⟩

theorem execDmaEntry_frame (hub : HubId) (s : State) : ∃ t, execDmaEntry hub s = .next t ∧
    SameBut [.regs, .mem, .tab, .ports, .sites, .fab, .mig, .sent] s t :=
  ⟨_, rfl, Only.run ((mains_only (served_only (hubActs_only _ ((dmaEntry_only _).sub rfl) rfl) rfl) rfl) : Only _ _) s⟩

theorem execDmaEntryDone_frame (hub : HubId) (s : State) : ∃ t, execDmaEntryDone hub s = .next t ∧
    SameBut [.regs, .mem, .tab, .sites, .fab, .mig] s t :=
  ⟨_, rfl, Only.run ((mains_only (served_only (hubActs_only _ ((dmaDone_only _).sub rfl) rfl) rfl) rfl) : Only _ _) s⟩

theorem execRingMsg_frame (pkt : RxPacket) (s : State) : ∃ t, execRingMsg pkt s = .next t ∧
    SameBut [.regs, .mem, .tab, .ports, .sites, .mig, .sent] s t :=
  ⟨_, rfl, Only.run ((mains_only (served_only ((ringMsg_only _).sub rfl) rfl) rfl) : Only _ _) s⟩

theorem execRingBusy_frame (pkt : RxPacket) (s : State) : ∃ t, execRingBusy pkt s = .next t ∧
    SameBut [.regs, .mem, .ports, .fab, .sent] s t :=
  ⟨_, rfl, Only.run ((mains_only ((ringBusy_only _).sub rfl) rfl) : Only _ _) s⟩

theorem execRingMsgRetry_frame (ring : Fin 65536) (s : State) : ∃ t, execRingMsgRetry ring s = .next t ∧
    SameBut [.regs, .mem, .ports, .fab, .sent] s t :=
  ⟨_, rfl, Only.run ((mains_only (served_only ((ringMsgRetry_only _).sub rfl) rfl) rfl) : Only _ _) s⟩

theorem execPlaceTailWrite_frame (core : CoreId) (ctx : Fin 12) (tail : BitVec 32) (s : State) : ∃ t, execPlaceTailWrite core ctx tail s = .next t ∧
    SameBut [.regs, .mem, .resp, .land, .sent] s t :=
  ⟨_, rfl, Only.run (busWriteX_block_only _ _ .xrt _ 0x118 _ _ (by have := ctx.isLt; show 4 + ctx.val < 16; omega) (by decide) ⟨by decide, by decide⟩ (fun _ => (by rw [blockWrite_place]; exact ((placeTailWrite_only _ _).sub rfl))) rfl : Only _ _) s⟩

theorem execPlaceRequest_frame (hub : HubId) (s : State) : ∃ t, execPlaceRequest hub s = .next t ∧
    SameBut [.regs, .mem, .tab, .sites, .mig] s t :=
  ⟨_, rfl, Only.run ((mains_only (served_only (hubActs_only _ ((placeRequest_only _).sub rfl) rfl) rfl) rfl) : Only _ _) s⟩

theorem execPlaceSignal_frame (hub : HubId) (s : State) : ∃ t, execPlaceSignal hub s = .next t ∧
    SameBut [.regs, .mem, .tab] s t :=
  ⟨_, rfl, Only.run ((mains_only (hubActs_only _ ((placeSignal_only _).sub rfl) rfl) rfl) : Only _ _) s⟩

theorem execBiasUpdate_frame (ctx : Fin 12) (s : State) : ∃ t, execBiasUpdate ctx s = .next t ∧
    SameBut [.regs, .mem, .tab, .sites, .mig] s t :=
  ⟨_, rfl, Only.run ((mains_only ((biasUpdate_only _).sub rfl) rfl) : Only _ _) s⟩

theorem execBiasReadyWrite_frame (ctx : Fin 12) (s : State) : ∃ t, execBiasReadyWrite ctx s = .next t ∧
    SameBut [.regs, .mem, .tab, .sites, .mig] s t :=
  ⟨_, rfl, Only.run ((mains_only (served_only ((biasReady_only _).sub rfl) rfl) rfl) : Only _ _) s⟩

theorem execGddr7Read_frame (src : BitVec 16) (p : PartId) (addr : BitVec 40) (crcFails : Nat) (corrected : Bool) (uncorrectable : Bool) (bad : Nat) (s : State) : ∃ t, execGddr7Read src p addr crcFails corrected uncorrectable bad s = .next t ∧
    SameBut [.regs, .mem, .sites, .mig, .sent] s t :=
  ⟨_, rfl, Only.run ((mains_only ((gddrRead_only _ _ _ _).sub rfl) rfl) : Only _ _) s⟩

theorem execGddr7Write_frame (src : BitVec 16) (p : PartId) (addr : BitVec 40) (bytes : List Byte) (s : State) : ∃ t, execGddr7Write src p addr bytes s = .next t ∧
    SameBut [.regs, .mem, .sites, .mig, .sent] s t :=
  ⟨_, rfl, Only.run ((mains_only ((gddrWrite_only _ _ _ _).sub rfl) rfl) : Only _ _) s⟩

theorem execSiteFail_frame (site : Fin 17) (s : State) : ∃ t, execSiteFail site s = .next t ∧
    SameBut [.regs, .mig] s t :=
  ⟨_, rfl, Only.run ((mains_only ((siteFail_only _).sub rfl) rfl) : Only _ _) s⟩

theorem execScrubStripe_frame (site : Fin 17) (stripe : Nat) (deviceError : Bool) (s : State) : ∃ t, execScrubStripe site stripe deviceError s = .next t ∧
    SameBut [.regs, .free] s t :=
  ⟨_, rfl, Only.run ((mains_only ((scrubStripe_only _ _ _).sub rfl) rfl) : Only _ _) s⟩

theorem execRetrainDue_frame (site : Fin 17) (temp : BitVec 8) (s : State) : ∃ t, execRetrainDue site temp s = .next t ∧
    SameBut [.regs] s t :=
  ⟨_, rfl, Only.run ((mains_only ((retrainDue_only _ _).sub rfl) rfl) : Only _ _) s⟩

theorem execCoverCatchup_frame (pos : Fin 16) (s : State) : ∃ t, execCoverCatchup pos s = .next t ∧
    SameBut [.regs, .mem, .sites, .mig] s t :=
  ⟨_, rfl, Only.run ((mains_only ((coverCatchup_only _).sub rfl) rfl) : Only _ _) s⟩

theorem execWbLoad_frame (core : CoreId) (tile : TileId) (frame : Fin 64) (sig : BitVec 19) (s : State) : ∃ t, execWbLoad core tile frame sig s = .next t ∧
    SameBut [.regs, .mem, .tab, .resp, .sites, .tiles, .mig, .land, .sent] s t :=
  ⟨_, rfl, Only.run (busWriteX_block_only _ _ .tile _ 0x710 _ _ (Fin.isLt _) (by decide) ⟨by decide, by decide⟩ (fun _ => (Only.bind (Only.get _) (fun _ => (Only.ite (Only.pure _ _) ((wbCommand_only _ _ _ _).sub rfl))))) rfl : Only _ _) s⟩

theorem execWbFlush_frame (core : CoreId) (tile : TileId) (frame : Fin 64) (sig : BitVec 19) (s : State) : ∃ t, execWbFlush core tile frame sig s = .next t ∧
    SameBut [.regs, .mem, .tab, .resp, .sites, .tiles, .mig, .land, .sent] s t :=
  ⟨_, rfl, Only.run (busWriteX_block_only _ _ .tile _ 0x710 _ _ (Fin.isLt _) (by decide) ⟨by decide, by decide⟩ (fun _ => (Only.bind (Only.get _) (fun _ => (Only.ite (Only.pure _ _) ((wbCommand_only _ _ _ _).sub rfl))))) rfl : Only _ _) s⟩

theorem execWbEvict_frame (core : CoreId) (tile : TileId) (frame : Fin 64) (sig : BitVec 19) (s : State) : ∃ t, execWbEvict core tile frame sig s = .next t ∧
    SameBut [.regs, .mem, .tab, .resp, .sites, .tiles, .mig, .land, .sent] s t :=
  ⟨_, rfl, Only.run (busWriteX_block_only _ _ .tile _ 0x710 _ _ (Fin.isLt _) (by decide) ⟨by decide, by decide⟩ (fun _ => (Only.bind (Only.get _) (fun _ => (Only.ite (Only.pure _ _) ((wbCommand_only _ _ _ _).sub rfl))))) rfl : Only _ _) s⟩

theorem execWbDiscard_frame (core : CoreId) (tile : TileId) (frame : Fin 64) (sig : BitVec 19) (s : State) : ∃ t, execWbDiscard core tile frame sig s = .next t ∧
    SameBut [.regs, .mem, .tab, .resp, .sites, .tiles, .mig, .land, .sent] s t :=
  ⟨_, rfl, Only.run (busWriteX_block_only _ _ .tile _ 0x710 _ _ (Fin.isLt _) (by decide) ⟨by decide, by decide⟩ (fun _ => (Only.bind (Only.get _) (fun _ => (Only.ite (Only.pure _ _) ((wbCommand_only _ _ _ _).sub rfl))))) rfl : Only _ _) s⟩

theorem execWbCommandDone_frame (tile : TileId) (s : State) : ∃ t, execWbCommandDone tile s = .next t ∧
    SameBut [.regs, .mem, .tab, .sites, .tiles, .mig] s t :=
  ⟨_, rfl, Only.run ((mains_only (served_only ((wbDone_only _).sub rfl) rfl) rfl) : Only _ _) s⟩

theorem execWriteThroughFlush_frame (tile : TileId) (frame : Fin 64) (s : State) : ∃ t, execWriteThroughFlush tile frame s = .next t ∧
    SameBut [.regs, .mem, .tab, .sites, .mig] s t :=
  ⟨_, rfl, Only.run ((mains_only (served_only ((writeThrough_only _ _).sub rfl) rfl) rfl) : Only _ _) s⟩

theorem execMigStart_frame (core : CoreId) (site : Fin 17) (s : State) : ∃ t, execMigStart core site s = .next t ∧
    SameBut [.regs, .staged, .mem, .tab, .resp, .record, .time, .ports, .parts, .sites, .tiles, .fab, .mig, .flash, .ted, .col, .load, .sec, .pwr, .snap, .mesh, .move, .land, .sent] s t :=
  ⟨_, rfl, Only.run (((busField_only _ _ _ _).sub rfl) : Only _ _) s⟩

theorem execMigAbort_frame (core : CoreId) (site : Fin 17) (s : State) : ∃ t, execMigAbort core site s = .next t ∧
    SameBut [.regs, .staged, .mem, .tab, .resp, .record, .time, .ports, .parts, .sites, .tiles, .fab, .mig, .flash, .ted, .col, .load, .sec, .pwr, .snap, .mesh, .move, .land, .sent] s t :=
  ⟨_, rfl, Only.run (((busField_only _ _ _ _).sub rfl) : Only _ _) s⟩

theorem execMigCopyDone_frame (s : State) : ∃ t, execMigCopyDone  s = .next t ∧
    SameBut [.regs, .mem, .mig] s t :=
  ⟨_, rfl, Only.run ((mains_only ((migCopyDone_only).sub rfl) rfl) : Only _ _) s⟩

theorem execFlqTailWrite_frame (core : CoreId) (p : PartId) (tail : BitVec 32) (s : State) : ∃ t, execFlqTailWrite core p tail s = .next t ∧
    SameBut [.regs, .mem, .resp, .land, .sent] s t :=
  ⟨_, rfl, Only.run (busWriteX_block_only _ _ .prt _ 0x608 _ _ (Fin.isLt _) (by decide) ⟨by decide, by decide⟩ (fun _ => (Only.bind (Only.get _) (fun _ => ((flqTailWrite_only _ _).sub rfl)))) rfl : Only _ _) s⟩

theorem execFlashRead_frame (p : PartId) (s : State) : ∃ t, execFlashRead p s = .next t ∧
    SameBut [.regs, .mem, .tab, .sites, .mig, .flash] s t :=
  ⟨_, rfl, Only.run ((mains_only (served_only ((flStart_only _ _).sub rfl) rfl) rfl) : Only _ _) s⟩

theorem execFlashWrite_frame (p : PartId) (s : State) : ∃ t, execFlashWrite p s = .next t ∧
    SameBut [.regs, .mem, .tab, .sites, .mig, .flash] s t :=
  ⟨_, rfl, Only.run ((mains_only (served_only ((flStart_only _ _).sub rfl) rfl) rfl) : Only _ _) s⟩

theorem execFlashTrim_frame (p : PartId) (s : State) : ∃ t, execFlashTrim p s = .next t ∧
    SameBut [.regs, .mem, .tab, .sites, .mig, .flash] s t :=
  ⟨_, rfl, Only.run ((mains_only (served_only ((flStart_only _ _).sub rfl) rfl) rfl) : Only _ _) s⟩

theorem execFlashCmdDone_frame (p : PartId) (s : State) : ∃ t, execFlashCmdDone p s = .next t ∧
    SameBut [.regs, .mem, .tab, .sites, .mig, .flash] s t :=
  ⟨_, rfl, Only.run ((mains_only (served_only ((flashCmdDone_only _).sub rfl) rfl) rfl) : Only _ _) s⟩

theorem execHardDecode_frame (dec : Fin 4) (fails : Bool) (corrected : Nat) (s : State) : ∃ t, execHardDecode dec fails corrected s = .next t ∧
    SameBut [.regs, .mem, .sites, .mig, .flash] s t :=
  ⟨_, rfl, Only.run ((mains_only (served_only ((hardDecode_only _ _ _).sub rfl) rfl) rfl) : Only _ _) s⟩

theorem execSoftDecode_frame (dec : Fin 4) (decodes : Bool) (s : State) : ∃ t, execSoftDecode dec decodes s = .next t ∧
    SameBut [.regs, .mem, .sites, .mig, .flash] s t :=
  ⟨_, rfl, Only.run ((mains_only (served_only ((softDecode_only _ _).sub rfl) rfl) rfl) : Only _ _) s⟩

theorem execProgramDone_frame (chan : Fin 16) (s : State) : ∃ t, execProgramDone chan s = .next t ∧
    SameBut [.regs, .mem, .tab, .sites, .mig, .flash] s t :=
  ⟨_, rfl, Only.run ((mains_only (served_only ((programDone_only _).sub rfl) rfl) rfl) : Only _ _) s⟩

theorem execProgramFail_frame (chan : Fin 16) (erased : Option Nat) (s : State) : ∃ t, execProgramFail chan erased s = .next t ∧
    SameBut [.regs, .mem, .tab, .sites, .mig, .flash] s t :=
  ⟨_, rfl, Only.run ((mains_only ((programFail_only _ _).sub rfl) rfl) : Only _ _) s⟩

theorem execRefreshBlock_frame (block : Nat) (s : State) : ∃ t, execRefreshBlock block s = .next t ∧
    SameBut [.regs, .mem, .tab, .flash] s t :=
  ⟨_, rfl, Only.run ((mains_only ((refreshBlock_only _).sub rfl) rfl) : Only _ _) s⟩

theorem execGcRelocate_frame (unit : Nat) (s : State) : ∃ t, execGcRelocate unit s = .next t ∧
    SameBut [.regs, .tab, .flash] s t :=
  ⟨_, rfl, Only.run ((mains_only ((gcRelocate_only _).sub rfl) rfl) : Only _ _) s⟩

theorem execWearLevelMove_frame (chan : Fin 16) (s : State) : ∃ t, execWearLevelMove chan s = .next t ∧
    SameBut [.regs, .tab, .flash] s t :=
  ⟨_, rfl, Only.run ((mains_only ((wearMove_only _).sub rfl) rfl) : Only _ _) s⟩

theorem execMapCheckpoint_frame (s : State) : ∃ t, execMapCheckpoint  s = .next t ∧
    SameBut [.regs, .mem, .tab, .flash] s t :=
  ⟨_, rfl, Only.run ((mains_only ((mapCheckpoint_only).sub rfl) rfl) : Only _ _) s⟩

theorem execMapRebuildDone_frame (s : State) : ∃ t, execMapRebuildDone  s = .next t ∧
    SameBut [.regs, .mem, .tab, .sites, .mig, .flash, .land, .sent] s t :=
  ⟨_, rfl, Only.run ((mains_only (Only.bind ((mapRebuildDone_only).sub rfl) (fun _ => ((milestonesCheck_only).sub rfl))) rfl) : Only _ _) s⟩

theorem execLdqTailWrite_frame (core : CoreId) (p : PartId) (tail : BitVec 32) (s : State) : ∃ t, execLdqTailWrite core p tail s = .next t ∧
    SameBut [.regs, .mem, .resp, .land, .sent] s t :=
  ⟨_, rfl, Only.run (busWriteX_block_only _ _ .prt _ 0x628 _ _ (Fin.isLt _) (by decide) ⟨by decide, by decide⟩ (fun _ => (Only.bind (Only.get _) (fun _ => ((ldqTailWrite_only _ _).sub rfl)))) rfl : Only _ _) s⟩

theorem execVerify_frame (p : PartId) (s : State) : ∃ t, execVerify p s = .next t ∧
    SameBut [.regs, .mem, .tab, .load] s t :=
  ⟨_, rfl, Only.run ((mains_only (served_only ((verify_only _).sub rfl) rfl) rfl) : Only _ _) s⟩

theorem execDrop_frame (p : PartId) (s : State) : ∃ t, execDrop p s = .next t ∧
    SameBut [.regs, .mem, .tab, .load] s t :=
  ⟨_, rfl, Only.run ((mains_only ((dropManifest_only _).sub rfl) rfl) : Only _ _) s⟩

theorem execKeyRequest_frame (p : PartId) (s : State) : ∃ t, execKeyRequest p s = .next t ∧
    SameBut [.regs, .mem, .tab, .sites, .mig, .load, .free] s t :=
  ⟨_, rfl, Only.run ((mains_only (served_only ((keyRequest_only _).sub rfl) rfl) rfl) : Only _ _) s⟩

theorem execKeyRequestTimeout_frame (num : Nat) (s : State) : ∃ t, execKeyRequestTimeout num s = .next t ∧
    SameBut [.load] s t :=
  ⟨_, rfl, Only.run ((mains_only ((keyTimeout_only _).sub rfl) rfl) : Only _ _) s⟩

theorem execKeyInstall_frame (p : PartId) (s : State) : ∃ t, execKeyInstall p s = .next t ∧
    SameBut [.regs, .mem, .tab, .load] s t :=
  ⟨_, rfl, Only.run ((mains_only (served_only ((keyInstall_only _).sub rfl) rfl) rfl) : Only _ _) s⟩

theorem execLoad_frame (p : PartId) (s : State) : ∃ t, execLoad p s = .next t ∧
    SameBut [.regs, .mem, .tab, .ports, .load, .sent] s t :=
  ⟨_, rfl, Only.run ((mains_only (served_only ((loadStart_only _).sub rfl) rfl) rfl) : Only _ _) s⟩

theorem execChunkLanded_frame (p : PartId) (index : Nat) (chunk : Nat) (s : State) : ∃ t, execChunkLanded p index chunk s = .next t ∧
    SameBut [.regs, .mem, .tab, .ports, .sites, .mig, .flash, .load, .sent] s t :=
  ⟨_, rfl, Only.run ((mains_only (served_only ((chunkLanded_only _ _ _).sub rfl) rfl) rfl) : Only _ _) s⟩

theorem execChunkTimeout_frame (p : PartId) (index : Nat) (chunk : Nat) (s : State) : ∃ t, execChunkTimeout p index chunk s = .next t ∧
    SameBut [.regs, .tab, .ports, .load, .sent] s t :=
  ⟨_, rfl, Only.run ((mains_only ((chunkTimeout_only _ _ _).sub rfl) rfl) : Only _ _) s⟩

theorem execLoadDone_frame (p : PartId) (index : Nat) (s : State) : ∃ t, execLoadDone p index s = .next t ∧
    SameBut [.regs, .mem, .tab, .ports, .flash, .load, .sent] s t :=
  ⟨_, rfl, Only.run ((mains_only ((loadDone_only _ _).sub rfl) rfl) : Only _ _) s⟩

theorem execRdmaReadResponse_frame (qp : Fin 64) (psn : BitVec 24) (payload : List Byte) (ce : Bool) (s : State) : ∃ t, execRdmaReadResponse qp psn payload ce s = .next t ∧
    SameBut [.regs, .mem, .tab, .sites, .mig, .load, .sent] s t :=
  ⟨_, rfl, Only.run ((mains_only (served_only ((readResponse_only _ _ _ _).sub rfl) rfl) rfl) : Only _ _) s⟩

theorem execRoceAck_frame (qp : Fin 64) (psn : BitVec 24) (s : State) : ∃ t, execRoceAck qp psn s = .next t ∧
    SameBut [.regs, .load] s t :=
  ⟨_, rfl, Only.run ((mains_only ((roceAck_only _ _).sub rfl) rfl) : Only _ _) s⟩

theorem execRoceNak_frame (nak : NakPacket) (s : State) : ∃ t, execRoceNak nak s = .next t ∧
    SameBut [.regs, .tab, .ports, .load, .sent] s t :=
  ⟨_, rfl, Only.run ((mains_only ((roceNak_only _ _ _).sub rfl) rfl) : Only _ _) s⟩

theorem execRoceTimeout_frame (qp : Fin 64) (s : State) : ∃ t, execRoceTimeout qp s = .next t ∧
    SameBut [.regs, .tab, .ports, .load, .sent] s t :=
  ⟨_, rfl, Only.run ((mains_only ((roceTimeout_only _).sub rfl) rfl) : Only _ _) s⟩

theorem execBulkFrameDrop_frame (frame : BulkFrame) (s : State) : ∃ t, execBulkFrameDrop frame s = .next t ∧
    SameBut [.regs] s t :=
  ⟨_, rfl, Only.run ((mains_only ((bulkDrop_only _ _).sub rfl) rfl) : Only _ _) s⟩

theorem execPeerReq_frame (pkt : RxPacket) (s : State) : ∃ t, execPeerReq pkt s = .next t ∧
    SameBut [.regs, .mem, .ports, .load, .sent] s t :=
  ⟨_, rfl, Only.run ((mains_only (served_only ((peerReq_only _).sub rfl) rfl) rfl) : Only _ _) s⟩

theorem execPeerData_frame (pkt : RxPacket) (s : State) : ∃ t, execPeerData pkt s = .next t ∧
    SameBut [.regs, .mem, .ports, .sites, .mig, .load, .sent] s t :=
  ⟨_, rfl, Only.run ((mains_only (served_only ((peerData_only _).sub rfl) rfl) rfl) : Only _ _) s⟩

theorem execPeerNotHeld_frame (pkt : RxPacket) (s : State) : ∃ t, execPeerNotHeld pkt s = .next t ∧
    SameBut [.regs, .mem, .tab, .ports, .load, .sent] s t :=
  ⟨_, rfl, Only.run ((mains_only ((peerNotHeld_only _).sub rfl) rfl) : Only _ _) s⟩

theorem execTdqTailWrite_frame (core : CoreId) (p : PartId) (tail : BitVec 32) (s : State) : ∃ t, execTdqTailWrite core p tail s = .next t ∧
    SameBut [.regs, .mem, .resp, .land, .sent] s t :=
  ⟨_, rfl, Only.run (busWriteX_block_only _ _ .prt _ 0x648 _ _ (Fin.isLt _) (by decide) ⟨by decide, by decide⟩ (fun _ => (Only.bind (Only.get _) (fun _ => ((tdqTailWrite_only _ _).sub rfl)))) rfl : Only _ _) s⟩

theorem execFillPiece_frame (tedder : Fin 4) (p : PartId) (s : State) : ∃ t, execFillPiece tedder p s = .next t ∧
    SameBut [.regs, .mem, .tab, .ted] s t :=
  ⟨_, rfl, Only.run ((mains_only ((fillPiece_only _ _).sub rfl) rfl) : Only _ _) s⟩

theorem execFillPieceDone_frame (tedder : Fin 4) (s : State) : ∃ t, execFillPieceDone tedder s = .next t ∧
    SameBut [.regs, .mem, .tab, .ted] s t :=
  ⟨_, rfl, Only.run ((mains_only (served_only ((fillPieceDone_only _).sub rfl) rfl) rfl) : Only _ _) s⟩

theorem execAdpStage_frame (core : CoreId) (p : PartId) (s : State) : ∃ t, execAdpStage core p s = .next t ∧
    SameBut [.regs, .mem, .tab, .resp, .land, .sent] s t :=
  ⟨_, rfl, Only.run (busWriteX_block_only _ _ .req _ 0x320 _ _ (by have := p.isLt; show 1 + p.val < 64; omega) (by decide) ⟨by decide, by decide⟩ (fun _ => (by rw [blockWrite_req]; exact (reqWrite_adp _ _ _).sub rfl)) rfl : Only _ _) s⟩

theorem execAdpPublish_frame (core : CoreId) (p : PartId) (num : BitVec 16) (ver : BitVec 16) (s : State) : ∃ t, execAdpPublish core p num ver s = .next t ∧
    SameBut [.regs, .mem, .tab, .resp, .land, .sent] s t :=
  ⟨_, rfl, Only.run (busWriteX_block_only _ _ .req _ 0x320 _ _ (by have := p.isLt; show 1 + p.val < 64; omega) (by decide) ⟨by decide, by decide⟩ (fun _ => (by rw [blockWrite_req]; exact (reqWrite_adp _ _ _).sub rfl)) rfl : Only _ _) s⟩

theorem execAdpWithdraw_frame (core : CoreId) (p : PartId) (num : BitVec 16) (ver : BitVec 16) (s : State) : ∃ t, execAdpWithdraw core p num ver s = .next t ∧
    SameBut [.regs, .mem, .tab, .resp, .land, .sent] s t :=
  ⟨_, rfl, Only.run (busWriteX_block_only _ _ .req _ 0x320 _ _ (by have := p.isLt; show 1 + p.val < 64; omega) (by decide) ⟨by decide, by decide⟩ (fun _ => (by rw [blockWrite_req]; exact (reqWrite_adp _ _ _).sub rfl)) rfl : Only _ _) s⟩

theorem execAdpDrop_frame (core : CoreId) (p : PartId) (num : BitVec 16) (ver : BitVec 16) (s : State) : ∃ t, execAdpDrop core p num ver s = .next t ∧
    SameBut [.regs, .mem, .tab, .resp, .land, .sent] s t :=
  ⟨_, rfl, Only.run (busWriteX_block_only _ _ .req _ 0x320 _ _ (by have := p.isLt; show 1 + p.val < 64; omega) (by decide) ⟨by decide, by decide⟩ (fun _ => (by rw [blockWrite_req]; exact (reqWrite_adp _ _ _).sub rfl)) rfl : Only _ _) s⟩

theorem execBaseDiscard_frame (core : CoreId) (b : Fin 2) (s : State) : ∃ t, execBaseDiscard core b s = .next t ∧
    SameBut [.regs, .staged, .mem, .tab, .resp, .record, .time, .ports, .parts, .sites, .tiles, .fab, .mig, .flash, .ted, .col, .load, .sec, .pwr, .snap, .mesh, .move, .land, .sent] s t :=
  ⟨_, rfl, Only.run (((busField_only _ _ _ _).sub rfl) : Only _ _) s⟩

theorem execBaseCutoverStage_frame (core : CoreId) (b : Fin 2) (s : State) : ∃ t, execBaseCutoverStage core b s = .next t ∧
    SameBut [.regs, .staged, .mem, .tab, .resp, .record, .time, .ports, .parts, .sites, .tiles, .fab, .mig, .flash, .ted, .col, .load, .sec, .pwr, .snap, .mesh, .move, .land, .sent] s t :=
  ⟨_, rfl, Only.run (((busWrite_only _ _ _).sub rfl) : Only _ _) s⟩

theorem execBaseRetire_frame (b : Fin 2) (s : State) : ∃ t, execBaseRetire b s = .next t ∧
    SameBut [.regs] s t :=
  ⟨_, rfl, Only.run ((mains_only ((baseRetire_only _).sub rfl) rfl) : Only _ _) s⟩

theorem execPortEnable_frame (core : CoreId) (port : PortId) (on : Bool) (s : State) : ∃ t, execPortEnable core port on s = .next t ∧
    SameBut [.regs, .staged, .mem, .tab, .resp, .record, .time, .ports, .parts, .sites, .tiles, .fab, .mig, .flash, .ted, .col, .load, .sec, .pwr, .snap, .mesh, .move, .land, .sent] s t :=
  ⟨_, rfl, Only.run (((busField_only _ _ _ _).sub rfl) : Only _ _) s⟩

theorem execLinkTrainPass_frame (port : PortId) (alloc : Word) (s : State) : ∃ t, execLinkTrainPass port alloc s = .next t ∧
    SameBut [.regs, .ports, .land, .sent] s t :=
  ⟨_, rfl, Only.run ((mains_only (Only.bind ((trainPass_only _ _).sub rfl) (fun _ => ((milestonesCheck_only).sub rfl))) rfl) : Only _ _) s⟩

theorem execLinkTrainTimeout_frame (port : PortId) (s : State) : ∃ t, execLinkTrainTimeout port s = .next t ∧
    SameBut [.regs, .mem, .tab, .ports, .parts, .sites, .mig, .col, .land, .sent, .free] s t :=
  ⟨_, rfl, Only.run ((mains_only (linkEvent_only _ ((trainTimeout_only _).sub rfl) rfl) rfl) : Only _ _) s⟩

theorem execLinkFlitRx_frame (port : PortId) (bytes : List Byte) (fecBad : Bool) (s : State) : ∃ t, execLinkFlitRx port bytes fecBad s = .next t ∧
    SameBut [.regs, .mem, .tab, .ports, .parts, .sites, .mig, .col, .land, .sent, .free] s t :=
  ⟨_, rfl, Only.run ((mains_only (linkEvent_only _ ((flitRx_only _ _ _).sub rfl) rfl) rfl) : Only _ _) s⟩

theorem execLinkNak_frame (port : PortId) (ack : BitVec 12) (s : State) : ∃ t, execLinkNak port ack s = .next t ∧
    SameBut [.regs, .mem, .tab, .ports, .parts, .sites, .mig, .col, .land, .sent, .free] s t :=
  ⟨_, rfl, Only.run ((mains_only (linkEvent_only _ ((takeNak_only _ _).sub rfl) rfl) rfl) : Only _ _) s⟩

theorem execLinkReplayTimeout_frame (port : PortId) (s : State) : ∃ t, execLinkReplayTimeout port s = .next t ∧
    SameBut [.regs, .mem, .tab, .ports, .parts, .sites, .mig, .col, .land, .sent, .free] s t :=
  ⟨_, rfl, Only.run ((mains_only (linkEvent_only _ ((replayTimeout_only _).sub rfl) rfl) rfl) : Only _ _) s⟩

theorem execLaneFail_frame (port : PortId) (lane : Fin 9) (s : State) : ∃ t, execLaneFail port lane s = .next t ∧
    SameBut [.regs, .mem, .tab, .ports, .parts, .sites, .mig, .col, .land, .sent, .free] s t :=
  ⟨_, rfl, Only.run ((mains_only (linkEvent_only _ ((laneFailed_only _ _).sub rfl) rfl) rfl) : Only _ _) s⟩

theorem execSpareSwapDone_frame (port : PortId) (s : State) : ∃ t, execSpareSwapDone port s = .next t ∧
    SameBut [.regs, .ports] s t :=
  ⟨_, rfl, Only.run ((mains_only ((swapDone_only _).sub rfl) rfl) : Only _ _) s⟩

theorem execLinkDelayMeasure_frame (port : PortId) (t1 : BitVec 64) (t2 : BitVec 64) (t3 : BitVec 64) (t4 : BitVec 64) (s : State) : ∃ t, execLinkDelayMeasure port t1 t2 t3 t4 s = .next t ∧
    SameBut [.regs] s t :=
  ⟨_, rfl, Only.run ((mains_only ((delayMeasured_only _ _ _ _ _).sub rfl) rfl) : Only _ _) s⟩

theorem execLinkManagementRequest_frame (port : PortId) (lane : Fin 9) (s : State) : ∃ t, execLinkManagementRequest port lane s = .next t ∧
    SameBut [.ports, .sent] s t :=
  ⟨_, rfl, Only.run ((mains_only ((swapRequest_only _ _).sub rfl) rfl) : Only _ _) s⟩

theorem execTransitFlit_frame (link : Fin 4) (sop : Bool) (eop : Bool) (payload : List Byte) (s : State) : ∃ t, execTransitFlit link sop eop payload s = .next t ∧
    SameBut [.regs, .ports, .sent] s t :=
  ⟨_, rfl, Only.run ((mains_only ((transitFlit_only _ _ _ _).sub rfl) rfl) : Only _ _) s⟩

theorem execQuench_frame (pkt : RxPacket) (s : State) : ∃ t, execQuench pkt s = .next t ∧
    SameBut [.regs, .mem, .ports, .parts, .col, .sent] s t :=
  ⟨_, rfl, Only.run ((mains_only ((commandPacket_only _ _).sub rfl) rfl) : Only _ _) s⟩

theorem execUnquench_frame (pkt : RxPacket) (s : State) : ∃ t, execUnquench pkt s = .next t ∧
    SameBut [.regs, .mem, .ports, .parts, .col, .sent] s t :=
  ⟨_, rfl, Only.run ((mains_only ((commandPacket_only _ _).sub rfl) rfl) : Only _ _) s⟩

theorem execDrain_frame (pkt : RxPacket) (s : State) : ∃ t, execDrain pkt s = .next t ∧
    SameBut [.regs, .mem, .ports, .parts, .col, .sent] s t :=
  ⟨_, rfl, Only.run ((mains_only ((commandPacket_only _ _).sub rfl) rfl) : Only _ _) s⟩

theorem execPstop_frame (pkt : RxPacket) (s : State) : ∃ t, execPstop pkt s = .next t ∧
    SameBut [.regs, .mem, .ports, .parts, .col, .sent] s t :=
  ⟨_, rfl, Only.run ((mains_only ((commandPacket_only _ _).sub rfl) rfl) : Only _ _) s⟩

theorem execQuenchExpire_frame (p : PartId) (s : State) : ∃ t, execQuenchExpire p s = .next t ∧
    SameBut [.regs, .ports, .parts, .col, .sent] s t :=
  ⟨_, rfl, Only.run ((mains_only ((quenchExpire_only _).sub rfl) rfl) : Only _ _) s⟩

theorem execQuenchClear_frame (core : CoreId) (parts : BitVec 32) (s : State) : ∃ t, execQuenchClear core parts s = .next t ∧
    SameBut [.regs, .staged, .mem, .tab, .resp, .record, .time, .ports, .parts, .sites, .tiles, .fab, .mig, .flash, .ted, .col, .load, .sec, .pwr, .snap, .mesh, .move, .land, .sent] s t :=
  ⟨_, rfl, Only.run (((busWrite_only _ _ _).sub rfl) : Only _ _) s⟩

theorem execPut_frame (pkt : RxPacket) (s : State) : ∃ t, execPut pkt s = .next t ∧
    SameBut [.regs, .mem, .tab, .ports, .sites, .fab, .mig, .sent] s t :=
  ⟨_, rfl, Only.run ((mains_only (served_only ((putPacket_only _).sub rfl) rfl) rfl) : Only _ _) s⟩

theorem execPutEnd_frame (pkt : RxPacket) (s : State) : ∃ t, execPutEnd pkt s = .next t ∧
    SameBut [.regs, .mem, .tab, .ports, .sites, .fab, .mig, .sent] s t :=
  ⟨_, rfl, Only.run ((mains_only (served_only ((putEnd_only _).sub rfl) rfl) rfl) : Only _ _) s⟩

theorem execPutDone_frame (pkt : RxPacket) (s : State) : ∃ t, execPutDone pkt s = .next t ∧
    SameBut [.regs, .mem, .tab, .ports, .sites, .fab, .mig, .sent] s t :=
  ⟨_, rfl, Only.run ((mains_only (served_only ((putDone_only _).sub rfl) rfl) rfl) : Only _ _) s⟩

theorem execPutTimeout_frame (tag : Nat) (s : State) : ∃ t, execPutTimeout tag s = .next t ∧
    SameBut [.regs, .mem, .tab, .ports, .sites, .fab, .mig, .sent] s t :=
  ⟨_, rfl, Only.run ((mains_only ((putTimeout_only _).sub rfl) rfl) : Only _ _) s⟩

theorem execBoardLoad_frame (core : CoreId) (addr : BitVec 64) (size : Nat) (atomic : Bool) (s : State) : ∃ t, execBoardLoad core addr size atomic s = .next t ∧
    SameBut [.regs, .mem, .tab, .ports, .sites, .fab, .mig, .sent] s t :=
  ⟨_, rfl, Only.run ((mains_only (served_only ((boardAccess_only _ _ _ _ _ _).sub rfl) rfl) rfl) : Only _ _) s⟩

theorem execBoardStore_frame (core : CoreId) (addr : BitVec 64) (size : Nat) (atomic : Bool) (value : Word) (s : State) : ∃ t, execBoardStore core addr size atomic value s = .next t ∧
    SameBut [.regs, .mem, .tab, .ports, .sites, .fab, .mig, .sent] s t :=
  ⟨_, rfl, Only.run ((mains_only (served_only ((boardAccess_only _ _ _ _ _ _).sub rfl) rfl) rfl) : Only _ _) s⟩

theorem execBld_frame (pkt : RxPacket) (s : State) : ∃ t, execBld pkt s = .next t ∧
    SameBut [.regs, .mem, .tab, .ports, .sites, .mig, .sent] s t :=
  ⟨_, rfl, Only.run ((mains_only (served_only ((boardServe_only _ _ _).sub rfl) rfl) rfl) : Only _ _) s⟩

theorem execBst_frame (pkt : RxPacket) (s : State) : ∃ t, execBst pkt s = .next t ∧
    SameBut [.regs, .mem, .tab, .ports, .sites, .mig, .sent] s t :=
  ⟨_, rfl, Only.run ((mains_only (served_only ((boardServe_only _ _ _).sub rfl) rfl) rfl) : Only _ _) s⟩

theorem execBrsp_frame (pkt : RxPacket) (s : State) : ∃ t, execBrsp pkt s = .next t ∧
    SameBut [.regs, .mem, .ports, .fab, .sent] s t :=
  ⟨_, rfl, Only.run ((mains_only ((boardAnswer_only _).sub rfl) rfl) : Only _ _) s⟩

theorem execMirror_frame (pkt : RxPacket) (s : State) : ∃ t, execMirror pkt s = .next t ∧
    SameBut [.regs, .mem, .tab, .ports, .sites, .mig, .sent] s t :=
  ⟨_, rfl, Only.run ((mains_only (served_only ((mirrorPacket_only _).sub rfl) rfl) rfl) : Only _ _) s⟩

theorem execUndefinedPacketDiscard_frame (pkt : RxPacket) (s : State) : ∃ t, execUndefinedPacketDiscard pkt s = .next t ∧
    SameBut [.regs, .mem, .ports, .sent] s t :=
  ⟨_, rfl, Only.run ((mains_only ((discardPacket_only _).sub rfl) rfl) : Only _ _) s⟩

theorem execClqTailWrite_frame (core : CoreId) (p : PartId) (tail : BitVec 32) (s : State) : ∃ t, execClqTailWrite core p tail s = .next t ∧
    SameBut [.regs, .mem, .resp, .land, .sent] s t :=
  ⟨_, rfl, Only.run (busWriteX_block_only _ _ .prt _ 0x688 _ _ (Fin.isLt _) (by decide) ⟨by decide, by decide⟩ (fun _ => (Only.bind (Only.get _) (fun _ => ((clqTailWrite_only _ _).sub rfl)))) rfl : Only _ _) s⟩

theorem execAllreduce_frame (p : PartId) (s : State) : ∃ t, execAllreduce p s = .next t ∧
    SameBut [.regs, .mem, .tab, .ports, .sites, .mig, .col, .sent] s t :=
  ⟨_, rfl, Only.run ((mains_only (served_only ((colOp_only _ _).sub rfl) rfl) rfl) : Only _ _) s⟩

theorem execReduceScatter_frame (p : PartId) (s : State) : ∃ t, execReduceScatter p s = .next t ∧
    SameBut [.regs, .mem, .tab, .ports, .sites, .mig, .col, .sent] s t :=
  ⟨_, rfl, Only.run ((mains_only (served_only ((colOp_only _ _).sub rfl) rfl) rfl) : Only _ _) s⟩

theorem execAllgather_frame (p : PartId) (s : State) : ∃ t, execAllgather p s = .next t ∧
    SameBut [.regs, .mem, .tab, .ports, .sites, .mig, .col, .sent] s t :=
  ⟨_, rfl, Only.run ((mains_only (served_only ((colOp_only _ _).sub rfl) rfl) rfl) : Only _ _) s⟩

theorem execBroadcast_frame (p : PartId) (s : State) : ∃ t, execBroadcast p s = .next t ∧
    SameBut [.regs, .mem, .tab, .ports, .sites, .mig, .col, .sent] s t :=
  ⟨_, rfl, Only.run ((mains_only (served_only ((colOp_only _ _).sub rfl) rfl) rfl) : Only _ _) s⟩

theorem execColReady_frame (p : PartId) (index : Nat) (s : State) : ∃ t, execColReady p index s = .next t ∧
    SameBut [.regs, .mem, .ports, .col, .sent] s t :=
  ⟨_, rfl, Only.run ((mains_only (served_only ((colReady_only _ _).sub rfl) rfl) rfl) : Only _ _) s⟩

theorem execColOut_frame (pkt : RxPacket) (s : State) : ∃ t, execColOut pkt s = .next t ∧
    SameBut [.regs, .mem, .tab, .ports, .sites, .mig, .col, .sent] s t :=
  ⟨_, rfl, Only.run ((mains_only (served_only ((colOut_only _).sub rfl) rfl) rfl) : Only _ _) s⟩

theorem execColResend_frame (pkt : RxPacket) (s : State) : ∃ t, execColResend pkt s = .next t ∧
    SameBut [.regs, .mem, .ports, .sent] s t :=
  ⟨_, rfl, Only.run ((mains_only (served_only ((colResend_only _).sub rfl) rfl) rfl) : Only _ _) s⟩

theorem execColDone_frame (pkt : RxPacket) (s : State) : ∃ t, execColDone pkt s = .next t ∧
    SameBut [.regs, .mem, .tab, .ports, .sites, .mig, .col, .sent] s t :=
  ⟨_, rfl, Only.run ((mains_only (served_only ((colDone_only _).sub rfl) rfl) rfl) : Only _ _) s⟩

theorem execColTimeout_frame (p : PartId) (index : Nat) (s : State) : ∃ t, execColTimeout p index s = .next t ∧
    SameBut [.regs, .mem, .tab, .ports, .sites, .mig, .col, .sent] s t :=
  ⟨_, rfl, Only.run ((mains_only ((colTimeout_only _ _).sub rfl) rfl) : Only _ _) s⟩

theorem execColAbort_frame (core : CoreId) (p : PartId) (s : State) : ∃ t, execColAbort core p s = .next t ∧
    SameBut [.regs, .mem, .tab, .resp, .ports, .sites, .mig, .col, .land, .sent] s t :=
  ⟨_, rfl, Only.run (busWriteX_block_only _ _ .prt _ 0x6a0 _ _ (Fin.isLt _) (by decide) ⟨by decide, by decide⟩ (fun _ => (Only.bind (Only.get _) (fun _ => (andDone_only ((colAbort_only _ _).sub rfl) rfl)))) rfl : Only _ _) s⟩

theorem execHayCallAct_frame (p : PartId) (s : State) : ∃ t, execHayCallAct p s = .next t ∧
    SameBut [.regs, .mem, .tab, .sites, .mig, .sec] s t :=
  ⟨_, rfl, Only.run ((mains_only (served_only ((hayServe_only _ _).sub rfl) rfl) rfl) : Only _ _) s⟩

theorem execHayCallExtend_frame (p : PartId) (s : State) : ∃ t, execHayCallExtend p s = .next t ∧
    SameBut [.regs, .mem, .tab, .sites, .mig, .sec] s t :=
  ⟨_, rfl, Only.run ((mains_only (served_only ((hayServe_only _ _).sub rfl) rfl) rfl) : Only _ _) s⟩

theorem execHayCallReport_frame (p : PartId) (s : State) : ∃ t, execHayCallReport p s = .next t ∧
    SameBut [.regs, .mem, .tab, .sites, .mig, .sec] s t :=
  ⟨_, rfl, Only.run ((mains_only (served_only ((hayServe_only _ _).sub rfl) rfl) rfl) : Only _ _) s⟩

theorem execCoreMemoryAccess_frame (core : CoreId) (addr : BitVec 64) (size : Nat) (write : Bool) (value : Word) (s : State) : ∃ t, execCoreMemoryAccess core addr size write value s = .next t ∧
    SameBut [.regs, .staged, .mem, .tab, .resp, .record, .time, .ports, .parts, .sites, .tiles, .fab, .mig, .flash, .ted, .col, .load, .sec, .pwr, .snap, .mesh, .move, .land, .sent] s t :=
  ⟨_, rfl, Only.run ((served_only ((coreAccess_only _ _ _ _ _).sub rfl) rfl) : Only _ _) s⟩

theorem execPartitionStop_frame (core : CoreId) (p : PartId) (s : State) : ∃ t, execPartitionStop core p s = .next t ∧
    SameBut [.regs, .staged, .mem, .tab, .resp, .record, .time, .ports, .parts, .sites, .tiles, .fab, .mig, .flash, .ted, .col, .load, .sec, .pwr, .snap, .mesh, .move, .land, .sent] s t :=
  ⟨_, rfl, Only.run (((busField_only _ _ _ _).sub rfl) : Only _ _) s⟩

theorem execFloorCommit_frame (core : CoreId) (space : Fin 2) (arg : BitVec 48) (s : State) : ∃ t, execFloorCommit core space arg s = .next t ∧
    SameBut [.regs, .staged, .mem, .tab, .resp, .record, .time, .ports, .parts, .sites, .tiles, .fab, .mig, .flash, .ted, .col, .load, .sec, .pwr, .snap, .mesh, .move, .land, .sent] s t :=
  ⟨_, rfl, Only.run (((secWrite_only _ _ _ _).sub rfl) : Only _ _) s⟩

theorem execOwnerKeyInstall_frame (core : CoreId) (space : Fin 2) (arg : BitVec 48) (s : State) : ∃ t, execOwnerKeyInstall core space arg s = .next t ∧
    SameBut [.regs, .staged, .mem, .tab, .resp, .record, .time, .ports, .parts, .sites, .tiles, .fab, .mig, .flash, .ted, .col, .load, .sec, .pwr, .snap, .mesh, .move, .land, .sent] s t :=
  ⟨_, rfl, Only.run (((secWrite_only _ _ _ _).sub rfl) : Only _ _) s⟩

theorem execOwnerKeyRemove_frame (core : CoreId) (space : Fin 2) (arg : BitVec 48) (s : State) : ∃ t, execOwnerKeyRemove core space arg s = .next t ∧
    SameBut [.regs, .staged, .mem, .tab, .resp, .record, .time, .ports, .parts, .sites, .tiles, .fab, .mig, .flash, .ted, .col, .load, .sec, .pwr, .snap, .mesh, .move, .land, .sent] s t :=
  ⟨_, rfl, Only.run (((secWrite_only _ _ _ _).sub rfl) : Only _ _) s⟩

theorem execSecReport_frame (core : CoreId) (space : Fin 2) (arg : BitVec 48) (s : State) : ∃ t, execSecReport core space arg s = .next t ∧
    SameBut [.regs, .staged, .mem, .tab, .resp, .record, .time, .ports, .parts, .sites, .tiles, .fab, .mig, .flash, .ted, .col, .load, .sec, .pwr, .snap, .mesh, .move, .land, .sent] s t :=
  ⟨_, rfl, Only.run (((secWrite_only _ _ _ _).sub rfl) : Only _ _) s⟩

theorem execProvision_frame (core : CoreId) (space : Fin 2) (arg : BitVec 48) (s : State) : ∃ t, execProvision core space arg s = .next t ∧
    SameBut [.regs, .staged, .mem, .tab, .resp, .record, .time, .ports, .parts, .sites, .tiles, .fab, .mig, .flash, .ted, .col, .load, .sec, .pwr, .snap, .mesh, .move, .land, .sent] s t :=
  ⟨_, rfl, Only.run (((lifecycleWrite_only _ _ _ _).sub rfl) : Only _ _) s⟩

theorem execClaim_frame (core : CoreId) (space : Fin 2) (arg : BitVec 48) (s : State) : ∃ t, execClaim core space arg s = .next t ∧
    SameBut [.regs, .staged, .mem, .tab, .resp, .record, .time, .ports, .parts, .sites, .tiles, .fab, .mig, .flash, .ted, .col, .load, .sec, .pwr, .snap, .mesh, .move, .land, .sent] s t :=
  ⟨_, rfl, Only.run (((lifecycleWrite_only _ _ _ _).sub rfl) : Only _ _) s⟩

theorem execLifecycleRelease_frame (core : CoreId) (space : Fin 2) (arg : BitVec 48) (s : State) : ∃ t, execLifecycleRelease core space arg s = .next t ∧
    SameBut [.regs, .staged, .mem, .tab, .resp, .record, .time, .ports, .parts, .sites, .tiles, .fab, .mig, .flash, .ted, .col, .load, .sec, .pwr, .snap, .mesh, .move, .land, .sent] s t :=
  ⟨_, rfl, Only.run (((lifecycleWrite_only _ _ _ _).sub rfl) : Only _ _) s⟩

theorem execDecommission_frame (core : CoreId) (space : Fin 2) (arg : BitVec 48) (s : State) : ∃ t, execDecommission core space arg s = .next t ∧
    SameBut [.regs, .staged, .mem, .tab, .resp, .record, .time, .ports, .parts, .sites, .tiles, .fab, .mig, .flash, .ted, .col, .load, .sec, .pwr, .snap, .mesh, .move, .land, .sent] s t :=
  ⟨_, rfl, Only.run (((lifecycleWrite_only _ _ _ _).sub rfl) : Only _ _) s⟩

theorem execDebug_frame (core : CoreId) (space : Fin 2) (arg : BitVec 48) (s : State) : ∃ t, execDebug core space arg s = .next t ∧
    SameBut [.regs, .staged, .mem, .tab, .resp, .record, .time, .ports, .parts, .sites, .tiles, .fab, .mig, .flash, .ted, .col, .load, .sec, .pwr, .snap, .mesh, .move, .land, .sent] s t :=
  ⟨_, rfl, Only.run (((lifecycleWrite_only _ _ _ _).sub rfl) : Only _ _) s⟩

theorem execMgmtCommand_frame (cmd : Fin 4) (bytes : List Byte) (s : State) : ∃ t, execMgmtCommand cmd bytes s = .next t ∧
    SameBut [.regs, .mem, .ports, .parts, .col, .sec, .land, .sent] s t :=
  ⟨_, rfl, Only.run ((awake_only ((mgmtCommand_only _ _).sub rfl) rfl) : Only _ _) s⟩

theorem execAttestReq_frame (bytes : List Byte) (s : State) : ∃ t, execAttestReq bytes s = .next t ∧
    SameBut [.regs, .mem, .sec, .land, .sent] s t :=
  ⟨_, rfl, Only.run ((awake_only ((attestReq_only _).sub rfl) rfl) : Only _ _) s⟩

theorem execGrant_frame (bytes : List Byte) (s : State) : ∃ t, execGrant bytes s = .next t ∧
    SameBut [.regs, .mem, .sec, .land, .sent] s t :=
  ⟨_, rfl, Only.run ((awake_only ((grantRecord_only _).sub rfl) rfl) : Only _ _) s⟩

theorem execOwnerKey_frame (bytes : List Byte) (s : State) : ∃ t, execOwnerKey bytes s = .next t ∧
    SameBut [.regs, .mem, .sec, .land, .sent] s t :=
  ⟨_, rfl, Only.run ((awake_only ((ownerKeyRecord_only _).sub rfl) rfl) : Only _ _) s⟩

theorem execPowerCap_frame (bytes : List Byte) (s : State) : ∃ t, execPowerCap bytes s = .next t ∧
    SameBut [.regs, .staged, .mem, .sec, .land, .sent] s t :=
  ⟨_, rfl, Only.run ((awake_only ((powerCap_only _).sub rfl) rfl) : Only _ _) s⟩

theorem execVfStep_frame (s : State) : ∃ t, execVfStep  s = .next t ∧
    SameBut [.regs, .pwr] s t :=
  ⟨_, rfl, Only.run ((mains_only ((vfStep_only).sub rfl) rfl) : Only _ _) s⟩

theorem execCurbEdge_frame (level : Fin 4) (s : State) : ∃ t, execCurbEdge level s = .next t ∧
    SameBut [.regs, .pwr] s t :=
  ⟨_, rfl, Only.run ((awake_only ((curbEdge_only _).sub rfl) rfl) : Only _ _) s⟩

theorem execDividerRelease_frame (s : State) : ∃ t, execDividerRelease  s = .next t ∧
    SameBut [.regs] s t :=
  ⟨_, rfl, Only.run ((mains_only ((dividerRelease_only).sub rfl) rfl) : Only _ _) s⟩

theorem execCapGuard_frame (s : State) : ∃ t, execCapGuard  s = .next t ∧
    SameBut [.regs, .pwr] s t :=
  ⟨_, rfl, Only.run ((mains_only ((capGuard_only).sub rfl) rfl) : Only _ _) s⟩

theorem execStageFail_frame (rail : Fin 10) (s : State) : ∃ t, execStageFail rail s = .next t ∧
    SameBut [.regs, .tab, .parts, .pwr, .land, .sent, .free] s t :=
  ⟨_, rfl, Only.run ((mains_only ((stageFail_only _).sub rfl) rfl) : Only _ _) s⟩

theorem execVinLow_frame (s : State) : ∃ t, execVinLow  s = .next t ∧
    SameBut [.regs, .pwr] s t :=
  ⟨_, rfl, Only.run ((mains_only ((vinLow_only).sub rfl) rfl) : Only _ _) s⟩

theorem execVinRecover_frame (s : State) : ∃ t, execVinRecover  s = .next t ∧
    SameBut [.pwr] s t :=
  ⟨_, rfl, Only.run ((mains_only ((vinRecover_only).sub rfl) rfl) : Only _ _) s⟩

theorem execVinLoss_frame (s : State) : ∃ t, execVinLoss  s = .next t ∧
    SameBut [.regs, .mem, .tab, .parts, .land, .sent, .free] s t :=
  ⟨_, rfl, Only.run (((vinLoss_only).sub rfl) : Only _ _) s⟩

theorem execDroop_frame (tile : TileId) (stretched : Nat) (s : State) : ∃ t, execDroop tile stretched s = .next t ∧
    SameBut [.regs] s t :=
  ⟨_, rfl, Only.run ((mains_only ((droop_only _ _).sub rfl) rfl) : Only _ _) s⟩

theorem execThermalSample_frame (quarter : Fin 4) (temps : List (Fin 156 × BitVec 16)) (s : State) : ∃ t, execThermalSample quarter temps s = .next t ∧
    SameBut [.regs, .tab, .parts, .pwr, .land, .sent, .free] s t :=
  ⟨_, rfl, Only.run ((mains_only ((thermalSample_only _ _).sub rfl) rfl) : Only _ _) s⟩

theorem execThermalTrip_frame (s : State) : ∃ t, execThermalTrip  s = .next t ∧
    SameBut [.regs, .tab, .parts, .land, .sent, .free] s t :=
  ⟨_, rfl, Only.run ((mains_only ((thermalTrip_only).sub rfl) rfl) : Only _ _) s⟩

theorem execEnergySample_frame (mw : BitVec 32) (core : List (BitVec 32)) (vin : BitVec 16) (s : State) : ∃ t, execEnergySample mw core vin s = .next t ∧
    SameBut [.regs, .pwr] s t :=
  ⟨_, rfl, Only.run ((awake_only ((energySample_only _ _ _).sub rfl) rfl) : Only _ _) s⟩

theorem execTileReset_frame (core : CoreId) (tile : TileId) (s : State) : ∃ t, execTileReset core tile s = .next t ∧
    SameBut [.regs, .staged, .mem, .tab, .resp, .record, .time, .ports, .parts, .sites, .tiles, .fab, .mig, .flash, .ted, .col, .load, .sec, .pwr, .snap, .mesh, .move, .land, .sent] s t :=
  ⟨_, rfl, Only.run (((busWrite_only _ _ _).sub rfl) : Only _ _) s⟩

theorem execPartitionReset_frame (core : CoreId) (p : PartId) (s : State) : ∃ t, execPartitionReset core p s = .next t ∧
    SameBut [.regs, .staged, .mem, .tab, .resp, .record, .time, .ports, .parts, .sites, .tiles, .fab, .mig, .flash, .ted, .col, .load, .sec, .pwr, .snap, .mesh, .move, .land, .sent] s t :=
  ⟨_, rfl, Only.run (((busWrite_only _ _ _).sub rfl) : Only _ _) s⟩

theorem execWarmReset_frame (core : CoreId) (env : BootEnv) (s : State) : ∃ t, execWarmReset core env s = .next t ∧
    SameBut [.regs, .staged, .mem, .tab, .resp, .record, .time, .ports, .parts, .sites, .tiles, .fab, .mig, .flash, .ted, .col, .load, .sec, .pwr, .snap, .mesh, .move, .land, .sent] s t :=
  ⟨_, rfl, Only.run (((packageReset_only _ _ _).sub rfl) : Only _ _) s⟩

theorem execColdPackageReset_frame (core : CoreId) (env : BootEnv) (s : State) : ∃ t, execColdPackageReset core env s = .next t ∧
    SameBut [.regs, .staged, .mem, .tab, .resp, .record, .time, .ports, .parts, .sites, .tiles, .fab, .mig, .flash, .ted, .col, .load, .sec, .pwr, .snap, .mesh, .move, .land, .sent] s t :=
  ⟨_, rfl, Only.run (((packageReset_only _ _ _).sub rfl) : Only _ _) s⟩

theorem execSnapshotCopyDone_frame (slot : Fin 8) (s : State) : ∃ t, execSnapshotCopyDone slot s = .next t ∧
    SameBut [.regs, .mem, .tab, .sites, .mig, .snap] s t :=
  ⟨_, rfl, Only.run ((mains_only (served_only ((snapDone_only _).sub rfl) rfl) rfl) : Only _ _) s⟩

theorem execVinMainValid_frame (env : BootEnv) (s : State) : ∃ t, execVinMainValid env s = .next t ∧
    SameBut [.regs, .staged, .mem, .tab, .record, .time, .ports, .parts, .sites, .tiles, .fab, .mig, .flash, .ted, .col, .load, .sec, .pwr, .snap, .mesh, .move, .land, .sent] s t :=
  ⟨_, rfl, Only.run (((vinMainValid_only _).sub rfl) : Only _ _) s⟩

theorem execStrapSample_frame (straps : BitVec 11) (s : State) : ∃ t, execStrapSample straps s = .next t ∧
    SameBut [.regs, .land] s t :=
  ⟨_, rfl, Only.run (((strapSample_only _).sub rfl) : Only _ _) s⟩

theorem execVstbyLoss_frame (s : State) : ∃ t, execVstbyLoss  s = .next t ∧
    SameBut [.regs, .staged, .mem, .tab, .time, .ports, .parts, .sites, .tiles, .fab, .mig, .flash, .ted, .col, .load, .sec, .pwr, .snap, .mesh, .move, .land] s t :=
  ⟨_, rfl, Only.run (((vstbyLoss_only).sub rfl) : Only _ _) s⟩

theorem execRefclkLoss_frame (clk : Fin 8) (s : State) : ∃ t, execRefclkLoss clk s = .next t ∧
    SameBut [.regs, .tab, .ports, .parts, .land, .sent, .free] s t :=
  ⟨_, rfl, Only.run ((awake_only ((refclkLoss_only _).sub rfl) rfl) : Only _ _) s⟩

theorem execI3cWordRead_frame (offset : BitVec 8) (s : State) : ∃ t, execI3cWordRead offset s = .next t ∧
    SameBut [.sent] s t :=
  ⟨_, rfl, Only.run (((i3cWordRead_only _).sub rfl) : Only _ _) s⟩

theorem execEntdaa_frame (addr : BitVec 7) (s : State) : ∃ t, execEntdaa addr s = .next t ∧
    SameBut [.land] s t :=
  ⟨_, rfl, Only.run (((entdaa_only _).sub rfl) : Only _ _) s⟩

theorem execSetdasa_frame (static : BitVec 7) (addr : BitVec 7) (s : State) : ∃ t, execSetdasa static addr s = .next t ∧
    SameBut [.land, .sent] s t :=
  ⟨_, rfl, Only.run (((setdasa_only _ _).sub rfl) : Only _ _) s⟩

theorem execRstdaa_frame (s : State) : ∃ t, execRstdaa  s = .next t ∧
    SameBut [.land] s t :=
  ⟨_, rfl, Only.run (((rstdaa_only).sub rfl) : Only _ _) s⟩

theorem execGetstatus_frame (s : State) : ∃ t, execGetstatus  s = .next t ∧
    SameBut [.sent, .free] s t :=
  ⟨_, rfl, Only.run (((getstatus_only).sub rfl) : Only _ _) s⟩

theorem execEnec_frame (s : State) : ∃ t, execEnec  s = .next t ∧
    SameBut [.land] s t :=
  ⟨_, rfl, Only.run (((ibiEnable_only _).sub rfl) : Only _ _) s⟩

theorem execDisec_frame (s : State) : ∃ t, execDisec  s = .next t ∧
    SameBut [.land] s t :=
  ⟨_, rfl, Only.run (((ibiEnable_only _).sub rfl) : Only _ _) s⟩

theorem execBypass_frame (s : State) : ∃ t, execBypass  s = .next t ∧
    SameBut [.land, .sent] s t :=
  ⟨_, rfl, Only.run (((jtagBypass_only).sub rfl) : Only _ _) s⟩

theorem execIdcode_frame (s : State) : ∃ t, execIdcode  s = .next t ∧
    SameBut [.land, .sent] s t :=
  ⟨_, rfl, Only.run (((jtagIdcodeRead_only).sub rfl) : Only _ _) s⟩

theorem execSamplePreload_frame (pins : BitVec 29) (data : BitVec 29) (s : State) : ∃ t, execSamplePreload pins data s = .next t ∧
    SameBut [.land, .sent] s t :=
  ⟨_, rfl, Only.run (((samplePreload_only _ _).sub rfl) : Only _ _) s⟩

theorem execExtest_frame (pins : BitVec 29) (data : BitVec 29) (s : State) : ∃ t, execExtest pins data s = .next t ∧
    SameBut [.land, .sent] s t :=
  ⟨_, rfl, Only.run (((jtagExtest_only _ _).sub rfl) : Only _ _) s⟩

theorem execClamp_frame (s : State) : ∃ t, execClamp  s = .next t ∧
    SameBut [.land, .sent] s t :=
  ⟨_, rfl, Only.run (((jtagClamp_only).sub rfl) : Only _ _) s⟩

theorem execTrst_frame (s : State) : ∃ t, execTrst  s = .next t ∧
    SameBut [.land] s t :=
  ⟨_, rfl, Only.run (((jtagReset_only).sub rfl) : Only _ _) s⟩

theorem execMgtPortEnable_frame (core : CoreId) (value : Word) (trained : Bool) (s : State) : ∃ t, execMgtPortEnable core value trained s = .next t ∧
    SameBut [.regs, .staged, .mem, .tab, .resp, .record, .time, .ports, .parts, .sites, .tiles, .fab, .mig, .flash, .ted, .col, .load, .sec, .pwr, .snap, .mesh, .move, .land, .sent] s t :=
  ⟨_, rfl, Only.run (((busWriteX_only _ _ _ _ _).sub rfl) : Only _ _) s⟩

theorem execArpRequest_frame (addr : BitVec 32) (len : Nat) (s : State) : ∃ t, execArpRequest addr len s = .next t ∧
    SameBut [.regs, .land, .sent] s t :=
  ⟨_, rfl, Only.run ((awake_only ((arpRequest_only _ _).sub rfl) rfl) : Only _ _) s⟩

theorem execNeighborSolicitation_frame (addr : BitVec 128) (len : Nat) (s : State) : ∃ t, execNeighborSolicitation addr len s = .next t ∧
    SameBut [.regs, .land, .sent] s t :=
  ⟨_, rfl, Only.run ((awake_only ((neighborSolicitation_only _ _).sub rfl) rfl) : Only _ _) s⟩

theorem execPauseFrame_frame (quanta : BitVec 16) (len : Nat) (s : State) : ∃ t, execPauseFrame quanta len s = .next t ∧
    SameBut [.regs, .land] s t :=
  ⟨_, rfl, Only.run ((awake_only ((pauseFrame_only _ _).sub rfl) rfl) : Only _ _) s⟩

theorem execMgtFrameDrop_frame (len : Nat) (s : State) : ∃ t, execMgtFrameDrop len s = .next t ∧
    SameBut [.regs] s t :=
  ⟨_, rfl, Only.run ((awake_only ((mgtFrameDrop_only _).sub rfl) rfl) : Only _ _) s⟩

end Sys2Proof.Machine
end

