-- ==== Sys2Proof/Tests/Slice0.lean ====
section
/-! SUPPORT. Tests of the model, and for every statement with hypotheses concrete states and operands that meet them: each
witness_<Statement> applies the statement, clause by clause, to states that are built from reset by a few actions. -/

set_option maxRecDepth 20000
set_option Elab.async false

namespace Sys2Proof.Tests

open Sys2Proof Sys2Proof.Machine

/-! ## States to start from -/

theorem by2 {P1 P2 Q : Prop} (f : P1 → P2 → Q) (h : P1 ∧ P2) : Q := f h.1 h.2
theorem by3 {P1 P2 P3 Q : Prop} (f : P1 → P2 → P3 → Q) (h : P1 ∧ P2 ∧ P3) : Q := f h.1 h.2.1 h.2.2
theorem by4 {P1 P2 P3 P4 Q : Prop} (f : P1 → P2 → P3 → P4 → Q) (h : P1 ∧ P2 ∧ P3 ∧ P4) : Q := f h.1 h.2.1 h.2.2.1 h.2.2.2
theorem by5 {P1 P2 P3 P4 P5 Q : Prop} (f : P1 → P2 → P3 → P4 → P5 → Q) (h : P1 ∧ P2 ∧ P3 ∧ P4 ∧ P5) : Q := f h.1 h.2.1 h.2.2.1 h.2.2.2.1 h.2.2.2.2
theorem by6 {P1 P2 P3 P4 P5 P6 Q : Prop} (f : P1 → P2 → P3 → P4 → P5 → P6 → Q) (h : P1 ∧ P2 ∧ P3 ∧ P4 ∧ P5 ∧ P6) : Q := f h.1 h.2.1 h.2.2.1 h.2.2.2.1 h.2.2.2.2.1 h.2.2.2.2.2
theorem by7 {P1 P2 P3 P4 P5 P6 P7 Q : Prop} (f : P1 → P2 → P3 → P4 → P5 → P6 → P7 → Q) (h : P1 ∧ P2 ∧ P3 ∧ P4 ∧ P5 ∧ P6 ∧ P7) : Q := f h.1 h.2.1 h.2.2.1 h.2.2.2.1 h.2.2.2.2.1 h.2.2.2.2.2.1 h.2.2.2.2.2.2
theorem by8 {P1 P2 P3 P4 P5 P6 P7 P8 Q : Prop} (f : P1 → P2 → P3 → P4 → P5 → P6 → P7 → P8 → Q) (h : P1 ∧ P2 ∧ P3 ∧ P4 ∧ P5 ∧ P6 ∧ P7 ∧ P8) : Q := f h.1 h.2.1 h.2.2.1 h.2.2.2.1 h.2.2.2.2.1 h.2.2.2.2.2.1 h.2.2.2.2.2.2.1 h.2.2.2.2.2.2.2
theorem by9 {P1 P2 P3 P4 P5 P6 P7 P8 P9 Q : Prop} (f : P1 → P2 → P3 → P4 → P5 → P6 → P7 → P8 → P9 → Q) (h : P1 ∧ P2 ∧ P3 ∧ P4 ∧ P5 ∧ P6 ∧ P7 ∧ P8 ∧ P9) : Q := f h.1 h.2.1 h.2.2.1 h.2.2.2.1 h.2.2.2.2.1 h.2.2.2.2.2.1 h.2.2.2.2.2.2.1 h.2.2.2.2.2.2.2.1 h.2.2.2.2.2.2.2.2
theorem by10 {P1 P2 P3 P4 P5 P6 P7 P8 P9 P10 Q : Prop} (f : P1 → P2 → P3 → P4 → P5 → P6 → P7 → P8 → P9 → P10 → Q) (h : P1 ∧ P2 ∧ P3 ∧ P4 ∧ P5 ∧ P6 ∧ P7 ∧ P8 ∧ P9 ∧ P10) : Q := f h.1 h.2.1 h.2.2.1 h.2.2.2.1 h.2.2.2.2.1 h.2.2.2.2.2.1 h.2.2.2.2.2.2.1 h.2.2.2.2.2.2.2.1 h.2.2.2.2.2.2.2.2.1 h.2.2.2.2.2.2.2.2.2
theorem by11 {P1 P2 P3 P4 P5 P6 P7 P8 P9 P10 P11 Q : Prop} (f : P1 → P2 → P3 → P4 → P5 → P6 → P7 → P8 → P9 → P10 → P11 → Q) (h : P1 ∧ P2 ∧ P3 ∧ P4 ∧ P5 ∧ P6 ∧ P7 ∧ P8 ∧ P9 ∧ P10 ∧ P11) : Q := f h.1 h.2.1 h.2.2.1 h.2.2.2.1 h.2.2.2.2.1 h.2.2.2.2.2.1 h.2.2.2.2.2.2.1 h.2.2.2.2.2.2.2.1 h.2.2.2.2.2.2.2.2.1 h.2.2.2.2.2.2.2.2.2.1 h.2.2.2.2.2.2.2.2.2.2
theorem by12 {P1 P2 P3 P4 P5 P6 P7 P8 P9 P10 P11 P12 Q : Prop} (f : P1 → P2 → P3 → P4 → P5 → P6 → P7 → P8 → P9 → P10 → P11 → P12 → Q) (h : P1 ∧ P2 ∧ P3 ∧ P4 ∧ P5 ∧ P6 ∧ P7 ∧ P8 ∧ P9 ∧ P10 ∧ P11 ∧ P12) : Q := f h.1 h.2.1 h.2.2.1 h.2.2.2.1 h.2.2.2.2.1 h.2.2.2.2.2.1 h.2.2.2.2.2.2.1 h.2.2.2.2.2.2.2.1 h.2.2.2.2.2.2.2.2.1 h.2.2.2.2.2.2.2.2.2.1 h.2.2.2.2.2.2.2.2.2.2.1 h.2.2.2.2.2.2.2.2.2.2.2

/-- The state an action leaves of another. -/
def after (a : Act Unit) (s : State) : State := Act.run a s

/-- Core 0 acts for the hayward, core 1 for partition 0, which is valid and runs. -/
def w0 : State := { regs := [(R.HAY_CORE 1, 0x20), (R.PRT_CTRL 0, 2 ^ 63 + 1), (R.PRT_KEY 0, 7)] }

/-- As `w0`, with fabric time and ticks running. -/
def w1 : State :=
  { regs := [(R.HAY_CORE 1, 0x20), (R.TIM_TICK_CTRL, 1), (R.PRT_CTRL 0, 2 ^ 63 + 1), (R.PRT_KEY 0, 7)] }

/-- Two commands wait. -/
def w2 : State := { w0 with pending := [.bypass, .trst] }

/-- With `w1`, values of a threshold's page are staged. -/
def wStaged : State := after (do
  Act.upd (.stage (R.CNT_THR_N 2) (some 9))
  wrF (pageBase .cnt 2 + 0x18) F.PAGE_STATUS.staged_pending 1) w1

/-- A common row of a register table. -/
def rowAtA (a : Nat) : RegRow := (rowOf a).getD (row "" 0 0 0 [])

/-- The number of a page. -/
def pgNo (b : Block) (p : Nat) : Nat := (pageBase b p - Block.glb.base) / 0x1000

/-- Tile 0 works for partition 0, in state `st`. -/
def tile0 (st : Nat) : Act Unit := do
  wrR (pageBase .tile 0 + 0x20) 0
  wrF (pageBase .tile 0 + 0x18) F.PAGE_STATUS.state st

/-- Tile 0 works for partition 0; its queue holds four descriptors from offset 0 and its tail is 2; the first is a barrier. -/
def wTile : State := after (do
  tile0 3
  wrF (R.TILE_OPQ_CFG 0) F.TILE_OPQ_CFG.size 4
  wrF (R.TILE_OPQ_TAIL 0) F.TILE_OPQ_TAIL.tail 2
  stBytes (tileKey 0 1) [4]) w1

/-- Tile 0 is told to quiesce. -/
def wQuiesce : State := after (do
  tile0 3
  wrF (pageBase .tile 0 + 0x10) F.PAGE_CTRL.quiesce 1
  wrF (pageBase .tile 0 + 0x28) F.PAGE_LOCK.lock 1) w1

/-- Tile 0 is being zeroed. -/
def wZero : State := after (do
  tile0 4
  Act.upd (.tile 0 { zeroing := true })) w0

/-- Tile 0 is under self-test. -/
def wTest : State := after (tile0 1) w0

/-- A ring of partition 0, enabled, with its context's words 1 to 3. -/
def mkRing (n type w1 w2 w3 : Nat) : Act Unit := do
  stW (ringOwnerKey n) 1
  stW (ringKey n 0) (n * 4096 + type * 2 ^ 48 + 2 ^ 53 + 4 * 2 ^ 56)
  stW (ringKey n 1) w1
  stW (ringKey n 2) w2
  stW (ringKey n 3) w3
  ringSeal n

/-- Partition 0 holds rings 0 to 63: a DMA ring 3, a completion ring 4 with entries published, a ring 5 out of service,
chosen by its ring window. -/
def wRing : State := after (do
  wrF (R.PRT_RINGS 0) F.PRT_RINGS.count 64
  mkRing 3 4 0 0 0
  mkRing 4 2 0 0 5
  stW (ringOwnerKey 5) 1
  wrF (R.REQ_RING_SEL 0) F.REQ_RING_SEL.ring 5) w1

/-- Clock 9 is the selected master. -/
def wPtp : State := after (do
  wrF R.MGT_PORT_STATUS F.MGT_PORT_STATUS.link 2
  wrF R.TIM_SYNC_CTRL F.TIM_SYNC_CTRL.ptp_enable 1
  Act.upd (.time { master := some (9, [1]), twoStep := true, syncSeq := 5, syncT2 := 700, reqSeq := 4, reqT3 := some 100, syncT1 := some 50 })) w0

/-- Ports 0, 8 and 10 are up, this package is fabric number 3, its neighbour along x number 5. -/
def wNet : State :=
  { regs := [(R.HAY_CORE 1, 0x20), (R.TIM_TICK_CTRL, 1), (R.PORT_STATUS 0, 2), (R.PORT_STATUS 8, 2), (R.BMS_POS 0, 2 ^ 63 + 3),
      (R.BMS_POS 1, 2 ^ 63 + 5), (R.PORT_STATUS 10, 2), (R.PRT_CTRL 0, 2 ^ 63 + 1), (R.PRT_KEY 0, 7)] }

/-- A packet from package 5 with partition 0's key. -/
def rx (type arg0 arg1 : Nat) (body : List Byte) : RxPacket :=
  { port := 0, vl := 1, cmd := false, bytes := mkPacket 3 5 type 0 7 arg0 arg1 body }

/-- A fabric manager's packet. -/
def rxCmd (type arg0 arg1 : Nat) (body : List Byte) : RxPacket :=
  { port := 0, vl := 0, cmd := true, bytes := mkPacket 3 5 type 0 9 arg0 arg1 body }

/-- The discipline is LOCKED and beacons count. -/
def wLocked : State := after (do
  wrF R.TIM_SYNC_CTRL F.TIM_SYNC_CTRL.beacon_enable 1
  wrF R.TIM_SYNC_STATUS F.TIM_SYNC_STATUS.state 2) wNet

def wHoldover : State := after (wrF R.TIM_SYNC_STATUS F.TIM_SYNC_STATUS.state 3) w0

/-- The discipline has locked once and the package is OWNED. -/
def wOwned : State := after (do
  wrF R.TIM_SYNC_STATUS F.TIM_SYNC_STATUS.locked_once 1
  wrF R.SEC_LIFECYCLE F.SEC_LIFECYCLE.state 2) w0

/-- Partition 0's step is built, at tick 5. -/
def wBuilt : State := after (do
  wrF R.TIM_TICK_NOW F.TIM_TICK_NOW.tick 5
  setPhase 0 2) w1

/-- Entry 0 of the glean table: a window of kind `kind`, instance `inst`, at tick 100. -/
def gleanWord (kind inst status chain : Nat) : Word :=
  putFld (putFld (putFld (putFld (putFld 0 F.TIM_GLEAN_DESC.kind kind) F.TIM_GLEAN_DESC.inst inst) F.TIM_GLEAN_DESC.length_us 200)
    F.TIM_GLEAN_DESC.status status) F.TIM_GLEAN_DESC.chain chain

def glean (kind inst status chain : Nat) : Act Unit := do
  wrF (R.TIM_GLEAN_TICK 0) F.TIM_GLEAN_TICK.tick 100
  wrR (R.TIM_GLEAN_DESC 0) (gleanWord kind inst status chain)
  wrF (R.GDC_SITE_STATE 2) F.GDC_SITE_STATE.state 2
  wrF (R.FLC_CH_STATE 2) F.FLC_CH_STATE.state 2
  wrF (R.BIN_PORT_STATUS 0) F.BIN_PORT_STATUS.link 2

def wPost : State := after (wrF (R.TIM_GLEAN_TICK 0) F.TIM_GLEAN_TICK.tick 100) w1
def wPosted (kind inst : Nat) : State := after (do glean kind inst 1 0; wrF R.TIM_TICK_NOW F.TIM_TICK_NOW.tick 100) wNet
def wOpen (kind inst chain : Nat) : State := after (do glean kind inst 2 chain; wrF R.TIM_TICK_NOW F.TIM_TICK_NOW.tick 100) wNet
/-- A lane's window is open, its traffic on the spare. -/
def wSpare : State := after (do
  wrF (R.PORT_STATUS 0) F.PORT_STATUS.spare_state 1
  wrF (R.PORT_STATUS 0) F.PORT_STATUS.spare_for 2) (wOpen 2 2 0)

/-- A mesh source holds packets. -/
def wHolding : State := after (do
  wrR R.TIM_NOW 1000000000
  Act.upd (.mesh { holding := true, held := [⟨0, 5, 3, 0, false, 1, false⟩] })) w0

/-- A 64-byte descriptor or entry, from the values at its offsets. -/
def desc (fs : List (Nat × Nat)) : List Byte := leBytes 64 (fs.foldl (fun n f => n + f.2 * 2 ^ (8 * f.1)) 0)

/-- A buffer reference: a format and a local address. -/
def rf (fmt addr : Nat) : Nat := fmt * 2 ^ 18 + addr / 16

/-- The tile map holds logical tile 0 at TILE page 0, which works for partition 0. -/
def mapTile0 : Act Unit := do
  tile0 3
  wrR (R.HAY_TILE_MAP 0) 0x8000
  wrF (R.TILE_IDENT 0) F.TILE_IDENT.logical_valid 1

/-- The head of tile 0's queue is a descriptor of these values. -/
def wOp (fs : List (Nat × Nat)) : State := after (do
  mapTile0
  wrF (R.TILE_OPQ_CFG 0) F.TILE_OPQ_CFG.size 4
  wrF (R.TILE_OPQ_TAIL 0) F.TILE_OPQ_TAIL.tail 1
  stBytes (tileKey 0 0) (desc fs)) w1

/-- A vector descriptor over FP32 buffers. -/
def vec (op sub : Nat) : List (Nat × Nat) :=
  [(0, op), (16, rf 7 4096), (20, rf 7 8192), (24, rf 7 12288), (28, rf 7 16384), (32, 2), (36, 2), (40, sub)]

/-- A descriptor in flight, which signals, and one that awaits its mesh writes. -/
def wFlight : State := after (Act.upd (.tile 0 {
  flights := [⟨0, 2, 0, [], [], desc [(0, 0x200), (8, 16), (12, 5)], 0, none⟩], signals := [(0, 16, 5)] })) (wOp [])

/-- A message that asks for four tokens after three. -/
def msg1 : List Byte :=
  desc [(0, 1), (2, 1), (4, 3), (8, 77), (32, 65535), (36, 4), (40, 0x3F800000), (44, 0x3F800000), (48, 1), (50, 3)] ++
    desc [(0, 11), (4, 12), (8, 13)]

/-- A message that cancels slot 9. -/
def msg2 : List Byte := desc [(0, 2), (4, 9), (8, 77)]

/-- A DMA entry that copies 64 bytes inside the hub SRAM. -/
def dma1 : List Byte := desc [(0, 0x1000), (8, 0x2000), (16, 64), (20, 0x3000), (28, 5)]

/-- As `wNet`; partition 0 holds unit 0 of the hub SRAM, granule 0 of GDDR7 on site 0, which serves, slots 9 and 10 and a quota of
1,000 tokens, admits, and mirrors its journal at package 5. -/
def wReq : State :=
  { regs := [(R.HAY_CORE 1, 0x20), (R.TIM_TICK_CTRL, 1), (R.GDC_SITE_STATE 0, 2), (R.PORT_STATUS 0, 2), (R.PORT_STATUS 8, 2),
      (R.BMS_POS 0, 2 ^ 63 + 3), (R.BMS_POS 1, 2 ^ 63 + 5), (R.PORT_STATUS 10, 2), (R.REQ_PART_CTRL 0, 1),
      (R.REQ_JRNL_BUDDY 0, 5 * 2 ^ 32 + 200), (R.PRT_CTRL 0, 2 ^ 63 + 1), (R.PRT_KEY 0, 7), (R.PRT_QUOTA 0, 1000 * 2 ^ 32)]
    tab := [(gmapKey 0 0, 2 ^ 63), (slotOwnerKey 9, 1), (slotOwnerKey 10, 1), (unitOwnerKey 0 0, 1)] }
/-- Ring 1 takes submissions from package 5 and has two entries. -/
def wSub : State := after (mkRing 1 1 (5 * 2 ^ 32) 2 (2 * 2 ^ 32)) wReq
/-- Ring 1 offers a message; ring 2 completes, ring 3 takes the tokens. -/
def wMsg : State := after (do
  stBytes (2 ^ 36 + 4096) msg1
  mkRing 2 2 0 0 0
  mkRing 3 3 0 0 0) wSub
/-- As `wMsg`, with no tokens left of the quota. -/
def wPoor : State := after (wrF (R.PRT_QUOTA 0) F.PRT_QUOTA.tokens 5) wMsg
def wCancel : State := after (do
  stBytes (2 ^ 36 + 4096) msg2
  mkRing 1 1 0 1 (2 * 2 ^ 32)
  mkRing 2 2 0 0 0) wReq
/-- Ring 6 takes messages from package 5, to its ring 6; `n` are in it. -/
def wMsgs (n : Nat) : State := after (mkRing 6 5 (5 * 2 ^ 32 + 6 * 2 ^ 48) n 0) wReq
/-- A message of ring 6 is out, answered busy at time 0. -/
def wBusy (at_ : Option Nat) : State := after (do
  Act.upd (.fab { msgs := [⟨6, 0, at_⟩] })
  wrR R.TIM_NOW 20000) (wMsgs 1)
def wDma : State := after (do stBytes (2 ^ 36 + 7 * 4096) dma1; mkRing 7 4 0 1 0) wReq
def wCopied : State := after (Act.upd (.fab { copies := [⟨0, 0, 0x3000, 5⟩] })) wReq
/-- Five entries are written, none confirmed. -/
def wJournal : State := after (do
  wrF (R.REQ_JRNL_SEQ 0) F.REQ_JRNL_SEQ.written 5
  wrR R.TIM_NOW 1000000
  modPart 0 (fun x => { x with sentSeqs := [(5, 0)] })) wReq
/-- The step of partition 0 is in a phase; slot 9 in a state. -/
def wPhase (ph st : Nat) : State := after (do
  setPhase 0 ph
  slotSet 9 .state st
  slotSet 9 .committed 128
  modPart 0 (fun x => { x with heldLists := [9] })) wReq
/-- A running step whose hub unit was taken away. -/
def wNoTable : State := after (stW (unitOwnerKey 0 0) 0) (wPhase 3 0)
/-- A journal of one snapshot, and an empty resume table at hub byte 64. -/
def wRecover : State := after (do
  wrF (R.REQ_JRNL_CFG 0) F.REQ_JRNL_CFG.log_size 7
  let _ ← jWrite 0 3 0 0 [] []
  stBytes (2 ^ 36 + 64) [255, 255]) wReq

/-- A block's tokens. -/
def block0 : List Byte := List.replicate 256 0
def node0 (h : List Byte) : List Byte := mkNode h noParent 0 0 false 0 0 block0

/-- The chain hash of the first block under key 0. -/
def hash0 : List Byte := [185, 137, 174, 142, 24, 199, 154, 139, 215, 183, 255, 162, 170, 0, 59, 157]

/-- Bytes of site 0's data lanes. -/
def putDev (a : Nat) (bs : List Byte) : Act Unit := do
  for x in bs.zipIdx do
    if x.1 ≠ 0 then Act.upd (.byte (gddrKey 0 (sectorPlace (a + x.2)).1 (sectorPlace (a + x.2)).2) x.1)

/-- Node 0 of partition 0's tree of two nodes holds a block; shared tree 0 is partition 0's and holds the same block. -/
def wLing : State := after (do
  wrF (R.PRX_SHARE_CFG 0) F.PRX_SHARE_CFG.valid 1
  wrF (R.PRX_SHARE_CFG 0) F.PRX_SHARE_CFG.node_log 1
  wrF (R.PRX_SHARE_CFG 0) F.PRX_SHARE_CFG.bucket_log 1
  wrF (R.REQ_PRX_CFG 0) F.REQ_PRX_CFG.node_log 1
  wrF (R.REQ_PRX_CFG 0) F.REQ_PRX_CFG.bucket_log 1
  wrF (R.PRX_SHARE_BASE 0) F.PRX_SHARE_BASE.base (2 ^ 29)
  putDev 0 (node0 (List.replicate 16 0))
  putDev (2 ^ 29) (node0 hash0)
  putDev (2 ^ 29 + 2 ^ 10 + 64 * (numAt hash0 0 4 % 2)) (leBytes 4 1 ++ leBytes 4 (numAt hash0 4 4))) wReq

/-- Frame 2 of partition 0 waits for its copy to frame 3: used by `refs` lists. -/
def wCow (refs : Nat) : State := after (do
  stW (rcKey 5) (putFld (putFld (putFld 0 F.RC.refs refs) F.RC.valid 1) F.RC.owner 0).toNat
  stBytes (2 ^ 36 + 0x8000) (mkPd 2 9 5 0)
  modPart 0 (fun x => { x with cows := [⟨9, 0, 0x8000, 3, true⟩] })) wReq

def cow0 : CowJob := ⟨9, 0, 0x8000, 3, true⟩

/-- Context 0 works for partition 0, for which tile 0 works; its queue of four requests stands at hub byte 0x4000. -/
def placeBase : Act Unit := do
  mapTile0
  wrR (ctxPage 0 + 0x20) 0
  wrR (R.XRT_CTX_PLACEQ 0) (0x400000100)
  setPhase 0 2
  wrF (pageBase .xrt 0 + 0x10) F.PAGE_CTRL.enable 1
  wrF (pageBase .xrt 4 + 0x10) F.PAGE_CTRL.enable 1
def wPlace : State := after (do
  placeBase
  wrF (R.XRT_CTX_PLACE_TAIL 0) F.XRT_CTX_PLACE_TAIL.tail 1) wReq
/-- Engine 0 is busy with context 0, to signal word 8 of tile 0. -/
def wPlaced : State := after (do
  placeBase
  wrF (R.XRT_ENG_STATUS 0) F.XRT_ENG_STATUS.busy 1
  stW (placeSigKey 0 0) 8
  stW (placeSigKey 0 1) 3) wReq
def wBias : State := after (do
  placeBase
  wrF (R.XRT_BIAS_CTRL 0) F.XRT_BIAS_CTRL.m 1
  wrF (R.XRT_BIAS_STATE 0) F.XRT_BIAS_STATE.steps_since 1
  stW (biasEdgeKey 0) 1
  wrF R.TIM_TICK_NOW F.TIM_TICK_NOW.tick 5) w1
def wBiasReady : State := after (do placeBase; stW (biasReadyKey 0) 1) wReq
/-- A layer of two experts, its biases at hub byte 0xC000 and its loads at 0xD000. -/
def layer0 : Layer := { mkLayer [] with experts := 2, biases := 0xC000, loads := 0xD000 }

/-- The device answers. -/
def wG (st : Nat) : State := after (wrF (R.GDC_SITE_STATE 0) F.GDC_SITE_STATE.state st) wReq
/-- The scrub of site 0 runs; the stripe at 0 has a byte that no other lane shows. -/
def wScrub (odd : Bool) : State := after (do
  wrF (R.GDC_SCRUB_CTRL 0) F.GDC_SCRUB_CTRL.period_h 1
  if odd then stBytes (gddrKey 0 0 0) [1]) wReq
def wTemp : State := after (wrF (R.GDC_PHY_RETRAIN 0) F.GDC_PHY_RETRAIN.temp_delta 5) w0
def wMarks : State := after (Act.upd (.site 0 { marks := [0] })) wReq
/-- The cover's copy of unit 0 is out of date. -/
def wCover : State := after (do
  wrF (R.GDC_SITE_STATE 16) F.GDC_SITE_STATE.state 6
  Act.upd (.mig { coverMarks := [(0, 0)] })) wReq
/-- Write-back command `op` is at the head of tile 0's queue, frame 1 of which is a valid dirty copy. -/
def wWb (n : Nat) : State := after (do
  mapTile0
  stW (copyKey 0 1) (2 ^ 63 + 2 ^ 62 + 2 ^ 32)
  Act.upd (.tile 0 { wbq := List.replicate n (1, 1, 16) })) wReq
/-- Frame 1 is a clean copy. -/
def wWbClean : State := after (do mapTile0; stW (copyKey 0 1) (2 ^ 63)) wReq
/-- Site 0 serves, site 16 is fallow. -/
def wMig : State := after (do
  wrF (R.GDC_SITE_CFG 0) F.GDC_SITE_CFG.role 1
  wrF (R.GDC_SITE_CFG 16) F.GDC_SITE_CFG.role 2
  wrF (R.GDC_SITE_STATE 16) F.GDC_SITE_STATE.state 5) wReq
def wMigrating : State := after (do
  wrF (R.GDC_MIG_STATUS 0) F.GDC_MIG_STATUS.state 1
  Act.upd (.mig { src := some 0 })) wMig

theorem writeReaches : WriteServed wReq (0 : PartId) (0 : BitVec 40).toNat ([1, 2, 3] : List Byte).length := fun r hr l h => by
  rw [show sectorRuns (0 : BitVec 40).toNat ([1, 2, 3] : List Byte).length = [(0, 3)] from by decide +kernel] at hr
  simp at hr
  subst hr
  rw [show wReq.translate ((0 : PartId) : Nat) 0 true = .ok ⟨0, 0, false⟩ from by decide +kernel] at h
  cases h
  decide +kernel
theorem writeRuns : Runs (gWrite (0 : BitVec 16).toNat (0 : PartId) (0 : BitVec 40).toNat [1, 2, 3]) wReq none
    (past (gWrite (0 : BitVec 16).toNat (0 : PartId) (0 : BitVec 40).toNat [1, 2, 3]) wReq) :=
  runs_of_only _ (gWrite_only _ _ _ _) _ (by decide +kernel)

/-- A placement descriptor of partition 0. -/
def placement (kind tier base length : Nat) : List Byte :=
  let d := (leBytes 32 (kind * 16 + tier * 4 + base * 2 ^ 32 + length * 2 ^ 96 + (2 ^ 48 - 1) * 2 ^ 160)).take 31
  d ++ leBytes 1 (crc8 d)

/-- A flash queue entry, on the object whose descriptor stands at hub byte 0x8000. -/
def flashEntry (op gaddr : Nat) : List Byte := desc [(0, op), (4, 1), (8, 0x8000), (24, gaddr)]

/-- Partition 0 has a namespace of 2^14 units; channel 0 has one target of two blocks and serves; the map is ready. -/
def flashBase : Act Unit := do
  Act.upd (.record { flashBlocks := 2, flashPages := 4 })
  wrF (R.FLC_CH_CFG 0) F.FLC_CH_CFG.targets 1
  wrF (R.FLC_CH_STATE 0) F.FLC_CH_STATE.state 2
  wrF R.FLC_ENG_STATUS F.FLC_ENG_STATUS.map_ready 1
  wrF R.FLC_MAP_CFG F.FLC_MAP_CFG.slices 1
  wrF R.FLC_MAP_CFG F.FLC_MAP_CFG.slice 100
  wrF (R.FLC_NS 0) F.FLC_NS.valid 1
  wrF (R.FLC_NS 0) F.FLC_NS.size 1
  wrR (R.PRT_FLQ_CFG 0) 0x400000100
  wrF (R.REQ_JRNL_CFG 0) F.REQ_JRNL_CFG.base 0x20000000

def wFlash : State := after flashBase wReq
/-- The head of partition 0's flash queue has an operation. -/
def wFlq (op gaddr : Nat) : State := after (do
  wrF (R.PRT_FLQ_TAIL 0) F.PRT_FLQ_TAIL.tail 1
  stBytes (2 ^ 36 + 0x4000) (flashEntry op gaddr)
  stBytes (2 ^ 36 + 0x8000) (placement 1 2 0 65536)) wFlash

def flCmd : FlCmd :=
  { part := 0, idx := 0, op := 1, comp := 0, ro := false, units := [0], gaddr := 0x100000, pcas := [0], todo := [], got := 0,
    status := some 0 }
def flCw : FlCw := { pca := 5, part := 0, idx := 0, failed := false }
def flBuf : FlBuf :=
  { pca := 0, unit := 0, ix := 0, pcas := [0], tag := 0, data := [1], cmd := none, old := none }

def wFlashEnd : State := after (Act.upd (.flash { cmds := [flCmd] })) wFlash
def wDecode : State := after (Act.upd (.flash {
  cmds := [{ flCmd with status := none, todo := [5], pcas := [5] }], rx := [flCw], soft := [(2, { flCw with failed := true }, 3)] })) wFlash
/-- A codeword waits for a soft decode. -/
def wSoftq : State := after (Act.upd (.flash {
  cmds := [{ flCmd with status := none, todo := [5], pcas := [5] }], softq := [{ flCw with failed := true }] })) wFlash
def wBuf : State := after (Act.upd (.flash { buf := [flBuf] })) wFlash
/-- Unit 0 is one codeword in block 0; block 1 of the channel is worn and free. -/
def wUnit : State := after (do
  mapUnit 0 [0]
  stW (flBlkKey 0) (2 ^ 32)
  stW (flBlkKey 1) 10
  Act.upd (.flash { refresh := [0], logBytes := 2 ^ 30 + 1 })) wFlash
/-- Block 0 has no valid unit and is on the refresh list. -/
def wErase : State := after (do
  stW (flBlkKey 0) (2 ^ 32)
  wrF R.FLC_ENG_STATUS F.FLC_ENG_STATUS.map_ready 0
  Act.upd (.flash { refresh := [0] })) wFlash

/-- A manifest of one source, one shard, one tensor and one chunk of 64 bytes, unsigned. -/
def manifest0 : List Byte :=
  desc [(0, 1), (14, 1), (16, 1), (20, 1), (24, 1), (28, 1), (32, 224)] ++ List.replicate 16 0 ++
    leBytes 32 (2 ^ 64 + 64 * 2 ^ 128) ++ List.replicate 48 0 ++ desc [(48, 64), (52, 64)]
def man0 : ManSlot := { slot := 3, owner := 0, bytes := manifest0 }
def key0 : KeySlot := { slot := 5, owner := 0, mslot := 3, shard := 0, key := [] }
def chunk0 : ChunkX := { ix := 0, lslot := 0, attempt := 0, since := 0, landed := true }
def stream0 : StreamX :=
  { part := 0, idx := 0, mslot := 3, kslot := 5, shard := 0, binds := [(0, 7, 4096)], peers := [5], toFlash := false, dest := 0
    landing := 0, base := none, next := 1 }

/-- The ingress engine serves; partition 0's load queue holds one entry at hub byte 0x4000; manifest slot 3 and key slot 5 are
its own. -/
def wLoads (e : List Byte) (x : LoadX) : State := after (do
  wrF (pageBase .bin 2 + 0x10) F.PAGE_CTRL.enable 1
  wrR (R.PRT_LDQ_CFG 0) 0x4000000100
  wrF (R.PRT_LDQ_TAIL 0) F.PRT_LDQ_TAIL.tail 1
  stW (gmapKey 0 0) (putFld (2 ^ 63) F.GMAP.sealed 1).toNat
  stBytes (2 ^ 36 + 0x4000) e
  stBytes (2 ^ 36 + 0x8000) (placement 1 2 0 65536)
  wrR R.TIM_NOW 100000000000
  Act.upd (.load x)) wReq

def verifyEntry : List Byte := desc [(0, 1), (16, 0x9000), (24, 0)]
def dropEntry : List Byte := desc [(0, 2), (4, 3)]
def loadEntry : List Byte := desc [(0, 5), (4, 3), (5, 5), (16, 0x8000), (24, 0x9000)]

def read0 : RdReq :=
  { qp := 0, psn := 5, next := 5, left := 64, addr := 0, remote := 4096, rkey := 7, part := 0, idx := 0, chunk := 0 }
/-- Queue pair 0 is ready, may try twice, and has a read out. -/
def wQp : State := after (do
  stW (qpKey 0 0) 0x80
  stW (qpKey 0 3) (2 * 2 ^ 56)
  stW (qpKey 0 4) (2 ^ 16)) (wLoads [] { reads := [read0] })

/-- A chunk comes from package 5. -/
def wPeer : State := wLoads [] { mans := [man0], streams := [{ stream0 with chunks := [{ chunk0 with attempt := 1, landed := false }] }] }

/-- Partition 0's fill queue holds an entry for tile 0 at hub byte 0x4000: no records, into buffer A. -/
def fillEntry : List Byte := desc [(0, 9), (8, 1)]
def wFill (x : TedX) : State := after (do
  mapTile0
  for q in List.range 4 do wrF (pageBase .ted q + 0x10) F.PAGE_CTRL.enable 1
  wrR (R.PRT_TDQ_CFG 0) 0x4000000100
  wrF (R.PRT_TDQ_TAIL 0) F.PRT_TDQ_TAIL.tail 1
  stBytes (2 ^ 36 + 0x4000) fillEntry
  Act.upd (.ted x)) wReq

/-- Partition 0 has a quota of adapters; entry 0 of the table is version 2 of its adapter 1, in state `st`. -/
def wAdp (st : Nat) : State := after (do
  wrF (R.PRT_QUOTA 0) F.PRT_QUOTA.adapters 4
  wrR (R.REQ_ADP_ARG 0 0) 0x30001
  if st ≠ 0 then
    stW (adpKey 0 0) (putFld (putFld (putFld (putFld 0 F.ADP.state st) F.ADP.owner 0) F.ADP.number 1) F.ADP.version 2).toNat
    stW (adpKey 0 1) (putFld 0 F.ADP.pins 1).toNat) w1

def wBase (st : Nat) : State := after (setBaseState 0 st) w1

/-- Port 0 in link state `st`, with a port record; no other changes of `wNet`. -/
def wPort (k st : Nat) (x : PortX) : State := after (do
  wrF (R.PORT_STATUS k) F.PORT_STATUS.state st
  Act.upd (.port k x)) wNet
def flit0 : TxFlit := { vl := 1, cmd := false, sop := true, eop := true, payload := [1] }
/-- A port in training since 0, 100 ms later. -/
def wLate : State := after (wrR R.TIM_NOW 100000000) (wPort 0 1 {})
/-- A port with two flits unacknowledged, sent again `n` times. -/
def wSent (n : Nat) : State := after (wrR R.TIM_NOW 100000000) (wPort 0 2 { replay := [⟨3, flit0, 0⟩, ⟨4, flit0, 0⟩], txSeq := 5, retries := n })
/-- A good data flit numbered `n`. -/
def goodFlit (n : Nat) : List Byte := let l := leBytes 252 (n * 16); l ++ leBytes 4 (crc32c l)
/-- A board of four by four; this package at its corner, its neighbour to the south named 7. -/
def wBoard : State := after (do
  wrF R.BMS_BOARD F.BMS_BOARD.width_m1 3
  wrF R.BMS_BOARD F.BMS_BOARD.height_m1 3
  wrF (R.BMS_POS 4) F.BMS_POS.fabric 7
  wrF (R.BMS_POS 4) F.BMS_POS.valid 1
  wrF R.BMS_ADDR_MODE F.BMS_ADDR_MODE.board_mode 1) wReq
/-- A transit packet on its way in from link 0. -/
def wTransit : State := after (Act.upd (.port 8 { transit := some (10, 3) })) wBoard
/-- The body of a fabric command for partition 0. -/
def cmdBody (target seq duration : Nat) : List Byte := leBytes 32 (target + seq * 2 ^ 64 + duration * 2 ^ 128)
/-- Fabric commands' key is 9. -/
def wFab : State := after (do
  wrR R.FAB_CMD_KEY 9
  wrR R.TIM_NOW 5000) wReq
/-- Partition 0 is quenched until time 100. -/
def wQuenched : State := after (do
  wrF R.FAB_QUENCHED ⟨0, 0⟩ 1
  Act.upd (.part 0 { quenchEnd := some 100 })) wFab
/-- Tag 2 of package 5 is being received: `got` of its packets are in. -/
def wTake (got : List Nat) (refused : Bool) : State :=
  after (Act.upd (.fab { takes := [⟨5, 0, 2, got, refused⟩] })) wReq
/-- Tag 2 is out to package 5. -/
def wPut (sig : Option Nat) : State := after (do
  wrR R.TIM_NOW 100000000
  Act.upd (.fab { puts := [⟨0, 2, 0, 0, 1, 5, sig, 9, [mkPacket 5 3 0x20 0 7 0 (2 * 65536) [1]], 0, 0⟩] })) wReq
def put0 (sig : Option Nat) : PutOut := ⟨0, 2, 0, 0, 1, 5, sig, 9, [mkPacket 5 3 0x20 0 7 0 (2 * 65536) [1]], 0, 0⟩
/-- A board load of package 5 is awaited. -/
def boardReq (write : Bool) : BoardReq := ⟨1, 0, 5, 0, 0, write⟩
def wAwait (write : Bool) : State := after (Act.upd (.fab { board := [boardReq write] })) wReq
/-- Partition 0 mirrors package 5's journal into 4 KiB of its granule. -/
def mirrorWord : Word := putFld (putFld (putFld 0 F.PRT_MIRROR.valid 1) F.PRT_MIRROR.log_size 12) F.PRT_MIRROR.source 5
def wMirror : State := after (wrR (R.PRT_MIRROR 0 0) mirrorWord) wReq

/-- A collective of group 5, two members, 64 bytes, plane 0, from hub byte 0x9000 to 0xA000, its record at 0xB000. -/
def colEntry (op flags : Nat) : List Byte := leBytes 128 (op + (if op ≤ 2 then 1 else 2) * 2 ^ 8 + flags * 2 ^ 16 + 5 * 2 ^ 64 +
  2 * 2 ^ 96 + 2 ^ 128 + 7 * 2 ^ 160 + 64 * 2 ^ 192 + 0x9000 * 2 ^ 256 + 0xA000 * 2 ^ 320 + 0xB000 * 2 ^ 384 +
  8 * 2 ^ 512)
/-- As `colEntry`, of 8 KiB, without ready word. -/
def colLong : List Byte := leBytes 128 (1 + 2 ^ 8 + 5 * 2 ^ 64 + 2 * 2 ^ 96 + 2 ^ 128 + 7 * 2 ^ 160 + 8192 * 2 ^ 192 +
  0x9000 * 2 ^ 256 + 0xC000 * 2 ^ 320 + 0xB000 * 2 ^ 384)
def col0 (e : List Byte) : ColE := { part := 0, idx := 0, entry := e, launched := 0 }
def col0' (op flags : Nat) : ColE := { part := 0, idx := 0, entry := colEntry op flags, launched := 100000000000 }
/-- Partition 0's collective queue holds an entry at hub byte 0x4000, and collectives are open. -/
def wCol (e : List Byte) (l : List ColE) : State := after (do
  mapTile0
  wrR (R.PRT_CLQ_CFG 0) 0x4000000100
  wrF (R.PRT_CLQ_TAIL 0) F.PRT_CLQ_TAIL.tail 1
  stBytes (2 ^ 36 + 0x4000) e
  wrR R.TIM_NOW 100000000000
  Act.upd (.col { cols := l })) wReq

/-- Partition 0's mailbox, at hub byte 0x4000, holds a call. -/
def wCall (e : List Byte) : State := after (do
  wrF (R.PRT_HAY_MBOX 0) F.PRT_HAY_MBOX.addr 0x100
  wrF (R.HAY_CORE 1) F.HAY_CORE.allowed 1
  stBytes (2 ^ 36 + 0x4000) e
  Act.upd (.sec { calls := [0] })) wReq
/-- A SEC_CMD argument block stands at hub byte 0x9000. -/
def wSec (e : List Byte) (st : Nat) (x : SecX) : State := after (do
  stBytes (2 ^ 36 + 0x9000) e
  wrF R.SEC_LIFECYCLE F.SEC_LIFECYCLE.state st
  Act.upd (.sec x)) wReq
def claimBytes : List Byte := (wSec [2] 1 {}).memBytes (2 ^ 36 + (0x9000 : BitVec 48).toNat) 3501
/-- A management record of a type, numbered 1. -/
def mgmt (type : Nat) (body : List Byte) : List Byte :=
  let b := leBytes 2 1 ++ leBytes 1 type ++ [0] ++ leBytes 4 body.length ++ leBytes 8 1 ++ List.replicate 8 0 ++ body
  b

/-- A walk of one step in every quarter. -/
def wWalk : State := after (do
  wrF R.PWR_STATUS F.PWR_STATUS.walking 1
  Act.upd (.pwr { nexts := [1, 1, 1, 1], targets := [2, 2, 2, 2] })) w0
def wDivided : State := after (do
  wrF R.PWR_STATUS F.PWR_STATUS.walking 0
  for q in List.range 4 do divide q) w0
def wCap : State := after (do
  wrF R.PWR_CAP F.PWR_CAP.cap_w 700
  wrF R.PWR_INPUT F.PWR_INPUT.avg_mw 900000
  wrR R.TIM_NOW 1000000) w0
def wCapLow : State := after (do
  for q in List.range 4 do divide q
  wrF R.PWR_STATUS F.PWR_STATUS.cap_unmet 0) wCap
/-- The lowest step everywhere, every divider engaged. -/
def wCapFloor : State := after (do for q in List.range 4 do wrF R.PWR_STATUS (stepFld q) 0) wCapLow
def wStage : State := after (wrF (stagePlace 9).1 (stagePlace 9).2 2) w0
def wOff : State := after (Act.upd (.land { railsOff := true })) State.reset

/-- Slot 0 of the snapshots is being copied for partition 0. -/
def snap0 : SnapCopy := { slot := 0, part := some 0, addr := 0, bytes := [1, 2] }
def wSnap : State := after (Act.upd (.snap { copies := [snap0] })) wReq
/-- Slot 1 is being copied for the hayward, to its region. -/
def snap1 : SnapCopy := { slot := 1, part := none, addr := 0, bytes := [1, 2] }
def wSnap1 : State := after (Act.upd (.snap { copies := [snap1], seq := [(1, 4)] })) wReq
def wMgt : State := after (wrF R.MGT_PORT_STATUS F.MGT_PORT_STATUS.link 2) w0
def wMgt1 : State := after (wrF R.MGT_PORT_STATUS F.MGT_PORT_STATUS.link 2) w1
def wI3c : State := { w0 with land := { w0.land with dynAddr := some 9, straps := some 0 } }

theorem wTile_part : ∀ p, wTile.pagePart (pageBase .tile ((0 : TileId) : Nat)) = some p → wTile.phase p ≠ 3 := fun p h => by
  rw [show wTile.pagePart (pageBase .tile ((0 : TileId) : Nat)) = some 0 from by decide +kernel] at h
  cases h
  decide +kernel
theorem wTile_tail : ∀ core, some (0 : CoreId) = some core →
    (wTile.tile ((0 : TileId) : Nat)).zeroing = false ∧ Admits wTile core (R.TILE_OPQ_TAIL ((0 : TileId) : Nat)) (BitVec.setWidth 64 (3 : BitVec 32)) :=
  fun c h => by
    cases h
    exact ⟨by decide +kernel, by decide +kernel, by decide +kernel⟩
theorem mirrorDo_only (src p a n base size m : Nat) (bs : List Byte) : Only [.regs, .mem, .sites, .mig] (do
    let _ ← gWrite src p a bs
    count (C.PRT_CNT_MIRROR_BYTES p) n
    let a ← ldW m
    let b ← ldW (m + 2 ^ 20)
    engNotes p ((jPieces size 34 b (List.replicate 32 0)).map (fun x => (1, base + x.1, x.2.length)))
    pure (a, b)) :=
  Only.bind ((gWrite_only _ _ _ _).sub rfl) fun _ => Only.bind ((count_only _ _).sub rfl) fun _ =>
    Only.bind ((ldW_only _).sub rfl) fun _ => Only.bind ((ldW_only _).sub rfl) fun _ =>
      Only.bind ((engNotes_only _ _).sub rfl) fun _ => Only.pure _ _

/-! ## Worked examples of the spec -/

/-- H2T (03_narrow_formats.md, R87): elements 1, -1, 0, 0, 1 make the byte 0xC8, read digit by digit. -/
theorem test_h2t_digits : (List.range 5).map (h2tDigit 0xC8) = [1, -1, 0, 0, 1] := by decide

/-- Byte 6 of an H2T block takes only 117 to 125, any other byte 0 to 242 (R87). -/
theorem test_h2t_bad : [h2tBad 116 6, h2tBad 117 6, h2tBad 125 6, h2tBad 126 6, h2tBad 242 0, h2tBad 243 0] =
    [true, false, false, true, false, true] := by decide

/-- 450 rounds to 448 in E4M3 and is not saturated; -40 and 96 are 0xD1 and 0x56 in E5M2 (R88, worked example of
03_narrow_formats.md). -/
theorem test_h8f : h8fCode false (.fin false 450 0) = (0x7E, false) ∧ h8fCode false (.fin false 480 0) = (0x7E, true) ∧
    h8fCode true (.fin true 40 0) = (0xD1, false) ∧ h8fCode true (.fin false 96 0) = (0x56, false) := by decide +kernel

/-- The magnitudes of block 128 of the worked example of 03_narrow_formats.md, with -40 and 96 at their offsets. -/
def exampleBlock : List FV :=
  let v (n m : Nat) (e : Int) : List FV := List.replicate n (.fin false m (e - 6))
  v 7 1 (-1) ++ [.fin true 40 (-6)] ++ v 1 1 (-1) ++ v 8 5 (-2) ++ v 5 2 0 ++ [.fin false 96 (-6)] ++ v 3 2 0 ++ v 6 3 0

/-- The outlier path on that block: scale 0x7E, two table entries, no saturation, nothing zeroed (R99, R106). -/
theorem test_outlier_block :
    let q : QConf :=
      { fmt := 0, outliers := true, e5 := true, widen := false, status := false, nEntries := 2048, tableBase := 0,
        sideBase := 0, sideSize := 0, wideBase := 0, wideSize := 0, t := 0 }
    let r := quantBlock q 2048 (.fin false 64 0) {} 128 exampleBlock
    r.scales = [0x7E] ∧ r.entries = [(4103, 0xD1), (4118, 0x56)] ∧ r.status = [0] ∧
      r.lines = [List.replicate 7 1 ++ [0, 1] ++ List.replicate 8 1 ++ List.replicate 5 2 ++ [0] ++ List.replicate 3 2 ++
        List.replicate 6 3] := by decide +kernel

/-- Without the path the scale stays 16 and thirty elements go to zero (worked example of 03_narrow_formats.md). -/
theorem test_plain_block :
    let q : QConf :=
      { fmt := 0, outliers := false, e5 := true, widen := false, status := false, nEntries := 2048, tableBase := 0,
        sideBase := 0, sideSize := 0, wideBase := 0, wideSize := 0, t := 0 }
    let r := quantBlock q 2048 (.fin false 64 0) {} 128 exampleBlock
    r.scales = [0x98] ∧ r.entries = [] ∧ r.status = [0x0F] ∧ r.zeroed = 30 := by decide +kernel

/-- The draw of the worked example of 04_tile_operations.md picks the second candidate (R142). -/
theorem test_sample : samplePick [.fin false 5 0, .fin false 4 0, .fin false 4 0, .fin false 2 0] (fp32Val 0x3FB8AA3B)
    (fp32Val 0x3F666666) (.fin false 11744051 (-24)) = 1 := by decide +kernel

/-- With period 250 µs and the epoch at 0, the tick after 1 ns before 10^15 ns is number 4,000,000,000 (worked example of
02_fabric_time.md, R60). -/
theorem test_tick_number : State.ticksAhead
    { regs := [(R.TIM_NOW, 999999999999999), (R.TIM_TICK_PERIOD, 250)] } = 4000000000 := by decide +kernel

/-- Granule 5 at width 2, quarter 1, slice 100: position 6 and the site offset of the worked example of
08_memory_tiers.md (R241). -/
theorem test_translate : State.translate
    { tab := [(gmapKey 3 5, 2 ^ 63 + 2 * 2 ^ 60 + 1 * 2 ^ 48 + 100 * 2 ^ 32)] } 3 (5 * 2 ^ 30 + 0x12345678) false =
    .ok { pos := 6, off := 6787241336, spread := false } := by decide +kernel

/-- The channel and channel address of that site offset, and the channel of its parity (R243). -/
theorem test_sector_place : sectorPlace 6787241336 = (0, 2262413816) ∧ parityChan 35350215 = 3 := by decide +kernel

/-- Under a cap of 1,700 W step 17 fits and step 18 does not, from 2,011.0 W at step 21 of which 1,582.4 W is the CORE
rails' (R409, worked example of 14_power_clocks_thermal.md). -/
theorem test_cap_step : let s : State := { regs := [(R.PWR_STATUS, 21 * (2 ^ 16 + 2 ^ 24 + 2 ^ 32 + 2 ^ 40))] }
    s.fits 2011000 [395600, 395600, 395600, 395600] 18 1700000 = false ∧
    s.fits 2011000 [395600, 395600, 395600, 395600] 17 1700000 = true := by decide +kernel

/-! ## Registers and refusals -/

/-- The IDCODE register reads 0x109609AB, least significant bit first over 32 bits, and the first sideband word carries it
(R479, 17_signals_and_bringup.md). -/
theorem test_idcode : State.sideWord State.reset 0 = some 0x09600100109609AB := by decide +kernel

/-- A write of 4 bytes, one off the alignment, one outside the window, one to a page of another owner: reasons 0x01, 0x01,
0x06, 0x02 (R6, R7, R12, R17). -/
theorem test_reasons :
    [State.writeReason w0 ⟨0, true, none⟩ R.TIM_EPOCH_TIME 4 0,
     State.writeReason w0 ⟨0, true, none⟩ (R.TIM_EPOCH_TIME + 4) 8 0,
     State.writeReason w0 ⟨0, true, none⟩ 0 8 0,
     State.writeReason w0 ⟨1, false, some 0⟩ R.TIM_EPOCH_TIME 8 0] =
    [some 0x01, some 0x01, some 0x06, some 0x02] := by decide +kernel

/-- The hayward's cores at reset are 0 and 6, the fallow ones 5, 11, 17 and 23 (R41). -/
theorem test_core_roles : (List.range 24).filter (fun n => resetCoreRole n = 1) = [0, 6] ∧
    (List.range 24).filter (fun n => resetCoreRole n = 2) = [5, 11, 17, 23] := by decide

/-- Reset: nothing waits, nothing is listed in memory or in any store, and no tick runs. -/
theorem test_reset : State.reset.pending = [] ∧ State.reset.mem = [] ∧ State.reset.tab = [] ∧ State.reset.staged = [] ∧
    State.reset.run = false := by decide +kernel

/-- No word spells a command: the table's rows have no bits. -/
theorem test_no_words (n w : Nat) : decodeTableWord n w = none ∧ State.withFetchWord State.reset n w = State.reset := by
  exact ⟨rfl, rfl⟩

/-! ## Ill-formed commands, one for each check -/

/-- An access of three bytes. -/
theorem test_wf_size : (Instr.registerRead 0 0 3).wf = false ∧ (Instr.registerRead 0 0 8).wf = true := by decide

/-- A packet shorter than its header, one longer than 4,128 bytes, one on a lane that carries no packets. -/
theorem test_wf_packet : let p : RxPacket := { port := default, vl := 0, cmd := false, bytes := List.replicate 31 0 }
    (Instr.quench p).wf = false ∧ (Instr.quench { p with bytes := List.replicate 32 0 }).wf = true ∧
    (Instr.quench { p with bytes := List.replicate 4129 0 }).wf = false ∧
    (Instr.quench { p with vl := 6, bytes := List.replicate 32 0 }).wf = false := by decide +kernel

/-- A run that ends past the space, and one of no bytes. -/
theorem test_wf_run : (Instr.gddr7Write 0 0 (BitVec.ofNat 40 (2 ^ 40 - 1)) [1, 2]).wf = false ∧
    (Instr.gddr7Write 0 0 (BitVec.ofNat 40 (2 ^ 40 - 1)) []).wf = false ∧
    (Instr.gddr7Write 0 0 (BitVec.ofNat 40 (2 ^ 40 - 1)) [1]).wf = true := by decide +kernel

/-- A site named twice, and one past 16, at a bring-up. -/
theorem test_wf_boot : (Instr.vinMainValid { sites := [3, 3] }).wf = false ∧ (Instr.vinMainValid { sites := [17] }).wf = false ∧
    (Instr.vinMainValid { chans := [16] }).wf = false ∧ (Instr.vinMainValid { sites := [16], chans := [15] }).wf = true := by
  decide +kernel

/-- A flit of the wrong length, a transit payload of the wrong length. -/
theorem test_wf_flit : (Instr.linkFlitRx default [] default).wf = false ∧
    (Instr.transitFlit default default default []).wf = false := by decide +kernel

/-- A page named twice, a sender past 64 bits, a payload past 4,096 bytes, three rails for four. -/
theorem test_wf_others : (Instr.stepArm 0 0 [1, 1] 0).wf = false ∧ (Instr.stepArm 0 0 [1, 2] 0).wf = true ∧
    (Instr.ptpAnnounce (2 ^ 64) 0 0 []).wf = false ∧
    (Instr.rdmaReadResponse 0 0 (List.replicate 4097 0) false).wf = false ∧
    (Instr.thermalSample 0 [(0, 0), (0, 0)]).wf = false ∧
    (Instr.energySample 0 [0, 0, 0] 0).wf = false := by decide +kernel

/-! ## Witnesses -/

theorem witness_StepRunsFront (h : Obligations.StepRunsFront) : ∃ t, exec .bypass { w2 with pending := [.trst] } = .next t
  :=
  have _ := h w2 .bypass [.trst] (by decide +kernel);
  ⟨_, rfl⟩

theorem witness_IdleStepIsOneClock (h : Obligations.IdleStepIsOneClock) : ∃ t, step w1 = .next t :=
  have _ := by7 (h w1 (2 ^ 32)) (by decide +kernel);
  ⟨_, rfl⟩

theorem witness_StepKeepsCanonicalForm (h : Obligations.StepKeepsCanonicalForm) : ∃ t, step w1 = .next t :=
  have _ := h w1 (Act.run (idleStep) w1) (by decide +kernel) rfl;
  ⟨_, rfl⟩

theorem witness_MisalignedAccessRefused (h : Obligations.MisalignedAccessRefused) :
    (∃ t, exec (.registerWrite 0 (BitVec.ofNat 64 (R.TIM_TICK_CTRL + 4)) 8 1) w0 = .next t) ∧
    (∃ t, exec (.registerRead 1 (BitVec.ofNat 64 R.TIM_NOW) 4) w0 = .next t) :=
  ⟨(have _ := by2 (h w0 0 (BitVec.ofNat 64 (R.TIM_TICK_CTRL + 4)) 8 1) (by decide +kernel) (.registerWrite 0 (BitVec.ofNat
      64 (R.TIM_TICK_CTRL + 4)) 8 1) (by decide +kernel);
    ⟨_, rfl⟩),
    (have _ := by2 (h w0 1 (BitVec.ofNat 64 R.TIM_NOW) 4 0) (by decide +kernel) (.registerRead 1 (BitVec.ofNat 64 R.TIM_NOW)
      4) (by decide +kernel);
    ⟨_, rfl⟩)⟩

theorem witness_ForeignPageIsolated (h : Obligations.ForeignPageIsolated) : ∃ t, exec (.registerWrite 1 (BitVec.ofNat 64
  (regA Block.prt 3 256)) 8 5) w0 = .next t :=
  have _ := by6 (h w0 1 .prt 3 0x100 5) (by decide +kernel);
  ⟨_, rfl⟩

theorem witness_RegistersReadAndWritten (h : Obligations.RegistersReadAndWritten) :
    (∃ t, exec (.registerWrite 0 (BitVec.ofNat 64 (regA Block.hay 0 56)) 8 7) w0 = .next t) ∧
    (∃ t, exec (.registerWrite 1 (BitVec.ofNat 64 (regA Block.req 1 264)) 8 (BitVec.ofNat 64 (2 ^ 32 + 64))) w0 = .next t) ∧
    (∃ t, exec (.registerRead 1 (BitVec.ofNat 64 (regA Block.prt 0 264)) 8) w0 = .next t) ∧
    (∃ t, exec (.timNowRead 1) w0 = .next t) :=
  ⟨(have _ := by6 (h.1.1 w0 0 .hay 0 0x38 7 (rowAtA (regA .hay 0 0x38))) (by unfold Admits; decide +kernel);
    ⟨_, rfl⟩),
    (have _ := by6 (h.1.1 w0 1 .req 1 0x108 (BitVec.ofNat 64 (2 ^ 32 + 64)) (rowAtA (regA .req 1 0x108)))
      (by unfold Admits; decide +kernel);
    ⟨_, rfl⟩),
    (have _ := by7 (h.1.2.1 w0 1 .prt 0 0x108 7) (by decide +kernel);
    ⟨_, rfl⟩),
    (have _ := by4 (h.1.2.2 w0 .prt 0 0x108 (rowAtA (regA .prt 0 0x108))) (by decide +kernel);
    have _ := by2 (h.2 w0 1) (by decide +kernel);
    ⟨_, rfl⟩)⟩

theorem witness_StagedWriteWaits (h : Obligations.StagedWriteWaits) : ∃ t, exec (.stagedWrite 0 (BitVec.ofNat 64
  (R.CNT_THR_N ↑3)) 5) w1 = .next t :=
  have _ := by2 (h w1 0 3 5) (by unfold Admits; decide +kernel);
  ⟨_, rfl⟩

theorem witness_ScheduledTickWrite (h : Obligations.ScheduledTickWrite) :
    (∃ t, exec (.schedTickWrite 0 (Fin.ofNat 32896 (pgNo Block.cnt 2)) 0) wStaged = .next t) ∧
    (∃ t, exec (.schedTickWrite 0 (Fin.ofNat 32896 (pgNo Block.cnt 2)) 5) wStaged = .next t) :=
  ⟨(have _ := by5 (h wStaged 0 (Fin.ofNat _ (pgNo .cnt 2)) .cnt 2 0) (by unfold Admits; decide +kernel);
    ⟨_, rfl⟩),
    (have _ := by5 (h wStaged 0 (Fin.ofNat _ (pgNo .cnt 2)) .cnt 2 5) (by unfold Admits; decide +kernel);
    ⟨_, rfl⟩)⟩

theorem witness_PagesInAndOutOfService (h : Obligations.PagesInAndOutOfService) :
    (∃ t, exec (.pageEnable 0 (Fin.ofNat 32896 (pgNo Block.tile 0)) 1) w0 = .next t) ∧
    (∃ t, exec (.pageQuiesce 0 (Fin.ofNat 32896 (pgNo Block.tile 0)) 3) wQuiesce = .next t) ∧
    (∃ t, exec (.pageLockWrite 0 (Fin.ofNat 32896 (pgNo Block.tile 0)) 0) wQuiesce = .next t) ∧
    (∃ t, exec (.quiesceComplete (Fin.ofNat 32896 (pgNo Block.tile 0))) wQuiesce = .next t) :=
  ⟨(have _ := by5 (h.1 w0 0 (Fin.ofNat _ (pgNo .tile 0)) .tile 0 1) (by unfold Admits; decide +kernel) (.pageEnable 0
      (Fin.ofNat _ (pgNo .tile 0)) 1) (by decide +kernel);
    ⟨_, rfl⟩),
    (have _ := by5 (h.1 wQuiesce 0 (Fin.ofNat _ (pgNo .tile 0)) .tile 0 3) (by unfold Admits; decide +kernel) (.pageQuiesce 0
      (Fin.ofNat _ (pgNo .tile 0)) 3) (by decide +kernel);
    ⟨_, rfl⟩),
    (have _ := by4 (h.2.1 wQuiesce 0 (Fin.ofNat _ (pgNo .tile 0)) .tile 0 0) (by unfold Admits; decide +kernel);
    ⟨_, rfl⟩),
    (have _ := by3 (h.2.2 wQuiesce (Fin.ofNat _ (pgNo .tile 0))) (by unfold State.up; decide +kernel) ((fun _ _ => rfl));
    ⟨_, rfl⟩)⟩

theorem witness_DoorbellsAndRingContexts (h : Obligations.DoorbellsAndRingContexts) :
    (∃ t, exec (.doorbellProducer 1 3 2) wRing = .next t) ∧
    (∃ t, exec (.doorbellConsumer 1 4 2) wRing = .next t) ∧
    (∃ t, exec (.ringContextWrite 1 0 1 5) wRing = .next t) ∧
    (∃ t, exec (.ringContextWrite 1 0 0 (BitVec.ofNat 64 (2 ^ 48 + 2 ^ 53 + 4 * 2 ^ 56))) wRing = .next t) :=
  ⟨(have _ := by4 (h.1.1 wRing 1 3 2) (by unfold MayRing; decide +kernel);
    ⟨_, rfl⟩),
    (have _ := by5 (h.1.2 wRing 1 4 2 0) (by unfold MayRing; decide +kernel);
    ⟨_, rfl⟩),
    (have _ := by6 (h.2 wRing 1 0 1 5 5) (by unfold Admits ctxTakes; decide +kernel);
    ⟨_, rfl⟩),
    (have _ := by4 (h.2 wRing 1 0 0 (BitVec.ofNat 64 (2 ^ 48 + 2 ^ 53 + 4 * 2 ^ 56)) 5) (by decide +kernel) ((fun _ => by
      unfold ctxTakes; decide +kernel)) ⟨(by decide +kernel), (by decide +kernel)⟩;
    ⟨_, rfl⟩)⟩

theorem witness_PtpMessages (h : Obligations.PtpMessages) :
    (∃ t, exec (.ptpSync 9 0 0 5 false 1000 0) wPtp = .next t) ∧
    (∃ t, exec (.ptpSync 9 0 0 5 true 1000 0) wPtp = .next t) ∧
    (∃ t, exec (.ptpFollowUp 9 0 0 5 1000 0) wPtp = .next t) ∧
    (∃ t, exec (.ptpDelayResp 9 0 0 4 1000 0) wPtp = .next t) ∧
    (∃ t, exec .ptpDelayReq wPtp = .next t) ∧
    (∃ t, exec (.ptpAnnounce 9 0 0 [1, 2]) wPtp = .next t) :=
  ⟨(have _ := by2 (h.1 wPtp 9 0 0 5 false 1000 0) (by unfold PtpArrives; decide +kernel);
    ⟨_, rfl⟩),
    (have _ := by2 (h.1 wPtp 9 0 0 5 true 1000 0) (by unfold PtpArrives; decide +kernel);
    ⟨_, rfl⟩),
    (have _ := by4 (h.2.1 wPtp 9 0 0 5 1000 0) (by unfold PtpArrives; decide +kernel);
    ⟨_, rfl⟩),
    (have _ := by5 (h.2.2.1 wPtp 9 0 0 4 1000 0 100 50) (by unfold PtpArrives; decide +kernel);
    ⟨_, rfl⟩),
    (have _ := by3 (h.2.2.2.1 wPtp) (by decide +kernel);
    ⟨_, rfl⟩),
    (have _ := by2 (h.2.2.2.2.1 wPtp 9 0 0 [1, 2]) (by unfold PtpArrives; decide +kernel);
    ⟨_, rfl⟩)⟩

theorem witness_BeaconsAndHoldover (h : Obligations.BeaconsAndHoldover) :
    (∃ t, exec (.beacon (rxCmd 16 0 65536 [])) wLocked = .next t) ∧
    (∃ t, exec (.beacon (rxCmd 16 0 0 [])) wLocked = .next t) ∧
    (∃ t, exec .syncLossTimeout wLocked = .next t) ∧
    (∃ t, exec (.holdoverErrorLimit 65535) wHoldover = .next t) :=
  ⟨(have _ := by3 (h.1 wLocked (rxCmd 0x10 0 65536 []) _) (by unfold Receives State.up; decide +kernel) rfl
      (by decide +kernel);
    ⟨_, rfl⟩),
    (have _ := by3 (h.1 wLocked (rxCmd 0x10 0 0 []) _) (by unfold Receives State.up; decide +kernel) rfl (by decide +kernel);
    ⟨_, rfl⟩),
    (have _ := by2 (h.2.1 wLocked) (by decide +kernel);
    ⟨_, rfl⟩),
    (have _ := by3 (h.2.2 wHoldover 65535) (by decide +kernel);
    ⟨_, rfl⟩)⟩

theorem witness_TicksRun (h : Obligations.TicksRun) :
    (∃ t, exec (.tickRunSet 0) wOwned = .next t) ∧
    (∃ t, exec (.tickRunClear 0) w1 = .next t) ∧
    (∃ t, exec (.tickEdge [] true) w1 = .next t) :=
  ⟨(have _ := by3 (h.1.1 wOwned 0) (by unfold Admits; decide +kernel);
    ⟨_, rfl⟩),
    (have _ := by4 (h.1.2 w1 0) (by unfold Admits; decide +kernel);
    ⟨_, rfl⟩),
    (have _ := by2 (h.2 w1 [] true) (by unfold State.up; decide +kernel);
    ⟨_, rfl⟩)⟩

theorem witness_StepStarts (h : Obligations.StepStarts) :
    (∃ t, exec (.stepStart 0) wBuilt = .next t) ∧
    (∃ t, exec (.barrierRelease 0) wTile = .next t) :=
  ⟨(have _ := by2 (h.1 wBuilt 0) (by unfold State.up; decide +kernel);
    ⟨_, rfl⟩),
    (have _ := by4 (h.2 wTile 0 0) (by unfold State.up; decide +kernel);
    ⟨_, rfl⟩)⟩

theorem witness_GleanWindows (h : Obligations.GleanWindows) :
    (∃ t, exec (.gleanPost 0 0 (gleanWord 1 0 0 0)) wPost = .next t) ∧
    (∃ t, exec (.gleanCancel 0 0) (wPosted 1 2) = .next t) ∧
    (∃ t, exec (.gleanOpen 0 [] true) (wPosted 1 2) = .next t) ∧
    (∃ t, exec (.gleanOpen 0 [] true) (wPosted 4 2) = .next t) ∧
    (∃ t, exec (.gleanOpen 0 [] true) (wPosted 5 1) = .next t) ∧
    (∃ t, exec (.gleanOpen 0 [] true) (wPosted 2 2) = .next t) ∧
    (∃ t, exec (.gleanOpen 0 [] false) (wPosted 3 2) = .next t) ∧
    (∃ t, exec (.gleanClose 0 true true 40 0 0 []) (wOpen 1 2 0) = .next t) ∧
    (∃ t, exec (.gleanClose 0 true true 40 0 0 []) (wOpen 4 2 1) = .next t) ∧
    (∃ t, exec (.gleanSwapBack 0 true) wSpare = .next t) :=
  ⟨(have _ := by4 (h.1.1 wPost 0 0 (gleanWord 1 0 0 0) _ rfl) (by unfold Admits; decide +kernel);
    ⟨_, rfl⟩),
    (have _ := by2 (h.1.2 (wPosted 1 2) 0 0) (by unfold Admits; decide +kernel);
    ⟨_, rfl⟩),
    (have _ := by3 (h.2.1 (wPosted 1 2) _ 0 [] true ⟨⟨by decide +kernel, by decide +kernel⟩, ⟨(by decide +kernel),
      ⟨(by decide +kernel), (by decide +kernel)⟩⟩⟩ rfl) (by unfold GleanDue State.up; decide +kernel);
    ⟨_, rfl⟩),
    (have _ := by3 (h.2.1 (wPosted 4 2) _ 0 [] true ⟨⟨by decide +kernel, by decide +kernel⟩, ⟨(by decide +kernel),
      ⟨(by decide +kernel), (by decide +kernel)⟩⟩⟩ rfl) (by unfold GleanDue State.up; decide +kernel);
    ⟨_, rfl⟩),
    (have _ := by3 (h.2.1 (wPosted 5 1) _ 0 [] true ⟨⟨by decide +kernel, by decide +kernel⟩, ⟨(by decide +kernel),
      ⟨(by decide +kernel), (by decide +kernel)⟩⟩⟩ rfl) (by unfold GleanDue State.up; decide +kernel);
    ⟨_, rfl⟩),
    (have _ := by3 (h.2.1 (wPosted 2 2) _ 0 [] true ⟨⟨by decide +kernel, by decide +kernel⟩, ⟨(by decide +kernel),
      ⟨(by decide +kernel), (by decide +kernel)⟩⟩⟩ rfl) (by unfold GleanDue State.up; decide +kernel);
    ⟨_, rfl⟩),
    (have _ := by3 (h.2.1 (wPosted 3 2) _ 0 [] false ⟨⟨by decide +kernel, by decide +kernel⟩, ⟨(by decide +kernel),
      ⟨(by decide +kernel), (by decide +kernel)⟩⟩⟩ rfl) (by unfold GleanDue State.up; decide +kernel);
    ⟨_, rfl⟩),
    (have _ := by2 (by2 (h.2.2.1 (wOpen 1 2 0) _ 0 true true 40 0 0 []) (by unfold State.up; decide +kernel) rfl)
      (by decide +kernel);
    ⟨_, rfl⟩),
    (have _ := by2 (by2 (h.2.2.1 (wOpen 4 2 1) _ 0 true true 40 0 0 []) (by unfold State.up; decide +kernel) rfl)
      (by decide +kernel);
    ⟨_, rfl⟩),
    (have _ := by8 (h.2.2.2 wSpare 0 (0, 2) true) (by unfold State.up; decide +kernel);
    ⟨_, rfl⟩)⟩

theorem witness_ZeroingEnds (h : Obligations.ZeroingEnds) :
    (∃ t, exec .gmapShadowCopyDone w0 = .next t) ∧
    (∃ t, exec (.tileZeroDone 0) wZero = .next t) ∧
    (∃ t, exec (.hubUnitZeroDone 1 2) w0 = .next t) ∧
    (∃ t, exec .sliceZeroDone w0 = .next t) :=
  ⟨(have _ := h.1 w0 ⟨by decide +kernel, by decide +kernel⟩;
    ⟨_, rfl⟩),
    (have _ := by2 (h.2.1 wZero 0) (by unfold State.up; decide +kernel);
    ⟨_, rfl⟩),
    (have _ := h.2.2.1 w0 1 2 ⟨by decide +kernel, by decide +kernel⟩;
    ⟨_, rfl⟩),
    (have _ := h.2.2.2 w0 ⟨by decide +kernel, by decide +kernel⟩;
    ⟨_, rfl⟩)⟩

theorem witness_TileStates (h : Obligations.TileStates) :
    (∃ t, exec (.selftestStart 0 5) w0 = .next t) ∧
    (∃ t, exec (.selftestDone 0 true) wTest = .next t) ∧
    (∃ t, exec (.selftestDone 0 false) wTest = .next t) ∧
    (∃ t, exec (.tileFail 0 1) wTile = .next t) :=
  ⟨(have _ := by3 (h.1 w0 0 5) (by unfold Admits; decide +kernel);
    ⟨_, rfl⟩),
    (have _ := by3 (h.2.1 wTest 0 true) (by unfold State.up; decide +kernel);
    ⟨_, rfl⟩),
    (have _ := by3 (h.2.1 wTest 0 false) (by unfold State.up; decide +kernel);
    ⟨_, rfl⟩),
    (have _ := by2 (h.2.2 wTile 0 1) (by unfold State.up; decide +kernel);
    ⟨_, rfl⟩)⟩

theorem witness_CoreFailReplaced (h : Obligations.CoreFailReplaced) :
    (∃ t, exec (.coreFail 1) w0 = .next t) ∧
    (∃ t, exec (.coreFail 0) w0 = .next t) :=
  ⟨(have _ := by2 (h w0 1) (by unfold State.up; decide +kernel);
    ⟨_, rfl⟩),
    (have _ := by2 (h w0 0) (by unfold State.up; decide +kernel);
    ⟨_, rfl⟩)⟩

theorem witness_MeshRoutes (h : Obligations.MeshRoutes) :
    (∃ t, exec (.meshInject 0 5 3 ⟨0, 1, false⟩ false) w0 = .next t) ∧
    (∃ t, exec (.meshInject 0 5 3 ⟨0, 1, false⟩ false) wHolding = .next t) ∧
    (∃ t, exec (.meshHoldRelease ⟨0, 7⟩) wHolding = .next t) ∧
    (∃ t, exec .meshHoldTimeout wHolding = .next t) :=
  ⟨(have _ := h.1 w0 0 5 3 0 false false 1 _ ⟨by decide +kernel, by decide +kernel⟩ rfl;
    ⟨_, rfl⟩),
    (have _ := h.1 wHolding 0 5 3 0 false false 1 _ ⟨by decide +kernel, by decide +kernel⟩ rfl;
    ⟨_, rfl⟩),
    (have _ := by2 (h.2.1 wHolding 0 7) (by unfold State.up; decide +kernel);
    ⟨_, rfl⟩),
    (have _ := by3 (h.2.2 wHolding) (by unfold State.up; decide +kernel);
    ⟨_, rfl⟩)⟩

theorem witness_TileOperationIssues (h : Obligations.TileOperationIssues) :
    (∃ t, exec (.nop 0) (wOp []) = .next t) ∧
    (∃ t, exec (.matmul 0) (wOp [(0, 1), (16, rf 4 4096), (20, rf 4 8192), (24, rf 7 12288), (40, 1), (42, 1), (44, 32)]) =
      .next t) ∧
    (∃ t, exec (.finish 0) (wOp [(0, 2), (16, rf 7 4096), (24, rf 7 8192), (40, 1), (42, 1)]) = .next t) ∧
    (∃ t, exec (.combine 0) (wOp [(0, 3), (16, rf 7 4096), (24, rf 7 12288), (32, 2), (36, 2), (48, 256)]) = .next t) ∧
    (∃ t, exec (.normRms 0) (wOp (vec 10 0)) = .next t) ∧
    (∃ t, exec (.normLayer 0) (wOp (vec 10 1)) = .next t) ∧
    (∃ t, exec (.rope 0) (wOp (vec 11 0)) = .next t) ∧
    (∃ t, exec (.quant 0) (wOp [(0, 16), (16, rf 7 4096), (24, rf 0 8192), (32, 32), (36, 1)]) = .next t) ∧
    (∃ t, exec (.topk 0) (wOp [(0, 20), (16, rf 7 4096), (24, rf 7 8192), (28, rf 0 12288), (32, 4), (36, 1), (40, 2)]) =
      .next t) ∧
    (∃ t, exec (.select 0) (wOp [(0, 21), (16, rf 7 4096), (24, rf 7 8192), (28, rf 0 12288), (32, 4), (36, 1), (40, 2),
      (42, 1), (52, rf 0 16384)]) = .next t) ∧
    (∃ t, exec (.gather 0) (wOp [(0, 24), (16, rf 0 4096), (20, rf 0 8192), (24, rf 0 12288), (32, 1), (36, 16), (44, 4)]) =
      .next t) ∧
    (∃ t, exec (.scatter 0) (wOp [(0, 25), (16, rf 0 4096), (20, rf 0 8192), (24, rf 0 12288), (32, 1), (36, 16), (44, 4)])
      = .next t) ∧
    (∃ t, exec (.sample 0) (wOp [(0, 28), (16, rf 7 4096), (20, rf 0 8192), (24, rf 0 12288), (32, 2), (36, 1)]) = .next t)
      ∧
    (∃ t, exec (.attn 0) (wOp [(0, 32), (16, rf 6 4096), (20, rf 7 8192), (32, 1), (40, 1), (42, 1), (44, 32), (54, 1)]) =
      .next t) :=
  ⟨(have _ := by2 (h (wOp []) 0 (desc []) ((tileOps 0)[0]'(by decide)) (List.getElem_mem _))
      (by unfold Issues State.up; decide +kernel);
    ⟨_, rfl⟩),
    (have _ := by2 (h (wOp [(0, 1), (16, rf 4 4096), (20, rf 4 8192), (24, rf 7 12288), (40, 1), (42, 1), (44, 32)]) 0 (desc
      [(0, 1), (16, rf 4 4096), (20, rf 4 8192), (24, rf 7 12288), (40, 1), (42, 1), (44, 32)]) ((tileOps 0)[1]'(by decide))
      (List.getElem_mem _)) (by unfold Issues State.up; decide +kernel);
    ⟨_, rfl⟩),
    (have _ := by2 (h (wOp [(0, 2), (16, rf 7 4096), (24, rf 7 8192), (40, 1), (42, 1)]) 0 (desc [(0, 2), (16, rf 7 4096),
      (24, rf 7 8192), (40, 1), (42, 1)]) ((tileOps 0)[2]'(by decide)) (List.getElem_mem _))
      (by unfold Issues State.up; decide +kernel);
    ⟨_, rfl⟩),
    (have _ := by2 (h (wOp [(0, 3), (16, rf 7 4096), (24, rf 7 12288), (32, 2), (36, 2), (48, 256)]) 0 (desc [(0, 3), (16, rf
      7 4096), (24, rf 7 12288), (32, 2), (36, 2), (48, 256)]) ((tileOps 0)[3]'(by decide)) (List.getElem_mem _))
      (by unfold Issues State.up; decide +kernel);
    ⟨_, rfl⟩),
    (have _ := by2 (h (wOp (vec 10 0)) 0 (desc (vec 10 0)) ((tileOps 0)[4]'(by decide)) (List.getElem_mem _))
      (by unfold Issues State.up; decide +kernel);
    ⟨_, rfl⟩),
    (have _ := by2 (h (wOp (vec 10 1)) 0 (desc (vec 10 1)) ((tileOps 0)[5]'(by decide)) (List.getElem_mem _))
      (by unfold Issues State.up; decide +kernel);
    ⟨_, rfl⟩),
    (have _ := by2 (h (wOp (vec 11 0)) 0 (desc (vec 11 0)) ((tileOps 0)[6]'(by decide)) (List.getElem_mem _))
      (by unfold Issues State.up; decide +kernel);
    ⟨_, rfl⟩),
    (have _ := by2 (h (wOp [(0, 16), (16, rf 7 4096), (24, rf 0 8192), (32, 32), (36, 1)]) 0 (desc [(0, 16), (16, rf 7 4096),
      (24, rf 0 8192), (32, 32), (36, 1)]) ((tileOps 0)[7]'(by decide)) (List.getElem_mem _))
      (by unfold Issues State.up; decide +kernel);
    ⟨_, rfl⟩),
    (have _ := by2 (h (wOp [(0, 20), (16, rf 7 4096), (24, rf 7 8192), (28, rf 0 12288), (32, 4), (36, 1), (40, 2)]) 0 (desc
      [(0, 20), (16, rf 7 4096), (24, rf 7 8192), (28, rf 0 12288), (32, 4), (36, 1), (40, 2)]) ((tileOps 0)[8]'(by decide))
      (List.getElem_mem _)) (by unfold Issues State.up; decide +kernel);
    ⟨_, rfl⟩),
    (have _ := by2 (h (wOp [(0, 21), (16, rf 7 4096), (24, rf 7 8192), (28, rf 0 12288), (32, 4), (36, 1), (40, 2), (42, 1),
      (52, rf 0 16384)]) 0 (desc [(0, 21), (16, rf 7 4096), (24, rf 7 8192), (28, rf 0 12288), (32, 4), (36, 1), (40, 2),
      (42, 1), (52, rf 0 16384)]) ((tileOps 0)[9]'(by decide)) (List.getElem_mem _))
      (by unfold Issues State.up; decide +kernel);
    ⟨_, rfl⟩),
    (have _ := by2 (h (wOp [(0, 24), (16, rf 0 4096), (20, rf 0 8192), (24, rf 0 12288), (32, 1), (36, 16), (44, 4)]) 0 (desc
      [(0, 24), (16, rf 0 4096), (20, rf 0 8192), (24, rf 0 12288), (32, 1), (36, 16), (44, 4)]) ((tileOps 0)[10]'(by
      decide)) (List.getElem_mem _)) (by unfold Issues State.up; decide +kernel);
    ⟨_, rfl⟩),
    (have _ := by2 (h (wOp [(0, 25), (16, rf 0 4096), (20, rf 0 8192), (24, rf 0 12288), (32, 1), (36, 16), (44, 4)]) 0 (desc
      [(0, 25), (16, rf 0 4096), (20, rf 0 8192), (24, rf 0 12288), (32, 1), (36, 16), (44, 4)]) ((tileOps 0)[11]'(by
      decide)) (List.getElem_mem _)) (by unfold Issues State.up; decide +kernel);
    ⟨_, rfl⟩),
    (have _ := by2 (h (wOp [(0, 28), (16, rf 7 4096), (20, rf 0 8192), (24, rf 0 12288), (32, 2), (36, 1)]) 0 (desc [(0, 28),
      (16, rf 7 4096), (20, rf 0 8192), (24, rf 0 12288), (32, 2), (36, 1)]) ((tileOps 0)[12]'(by decide)) (List.getElem_mem
      _)) (by unfold Issues State.up; decide +kernel);
    ⟨_, rfl⟩),
    (have _ := by2 (h (wOp [(0, 32), (16, rf 6 4096), (20, rf 7 8192), (32, 1), (40, 1), (42, 1), (44, 32), (54, 1)]) 0 (desc
      [(0, 32), (16, rf 6 4096), (20, rf 7 8192), (32, 1), (40, 1), (42, 1), (44, 32), (54, 1)]) ((tileOps 0)[13]'(by
      decide)) (List.getElem_mem _)) (by unfold Issues State.up; decide +kernel);
    ⟨_, rfl⟩)⟩

theorem witness_VectorResults (h : Obligations.VectorResults) :
    (∃ t, exec (.vewAdd 0) (wOp (vec 8 0)) = .next t) ∧
    (∃ t, exec (.vewSub 0) (wOp (vec 8 1)) = .next t) ∧
    (∃ t, exec (.vewMul 0) (wOp (vec 8 2)) = .next t) ∧
    (∃ t, exec (.vewFma 0) (wOp (vec 8 3)) = .next t) ∧
    (∃ t, exec (.vewMax 0) (wOp (vec 8 4)) = .next t) ∧
    (∃ t, exec (.vewMin 0) (wOp (vec 8 5)) = .next t) ∧
    (∃ t, exec (.vewConvert 0) (wOp (vec 8 6)) = .next t) ∧
    (∃ t, exec (.actRelu 0) (wOp (vec 9 0)) = .next t) ∧
    (∃ t, exec (.actSigmoid 0) (wOp (vec 9 1)) = .next t) ∧
    (∃ t, exec (.actSilu 0) (wOp (vec 9 2)) = .next t) ∧
    (∃ t, exec (.actGeluTanh 0) (wOp (vec 9 3)) = .next t) ∧
    (∃ t, exec (.actExp 0) (wOp (vec 9 4)) = .next t) ∧
    (∃ t, exec (.actSwiglu 0) (wOp (vec 9 5)) = .next t) ∧
    (∃ t, exec (.reduceSum 0) (wOp (vec 12 0)) = .next t) ∧
    (∃ t, exec (.reduceSumSquares 0) (wOp (vec 12 1)) = .next t) ∧
    (∃ t, exec (.reduceMax 0) (wOp (vec 12 2)) = .next t) ∧
    (∃ t, exec (.reduceMin 0) (wOp (vec 12 3)) = .next t) ∧
    (∃ t, exec (.reduceMaxAbs 0) (wOp (vec 12 4)) = .next t) :=
  ⟨(have _ := h.1 (wOp (vec 8 0)) 0 (desc (vec 8 0)) ((elementOps 0)[0]'(by decide)) (List.getElem_mem _)
      ⟨⟨by decide +kernel, by decide +kernel⟩, ⟨(by decide +kernel), ⟨(by decide +kernel), ⟨(by decide +kernel),
      ⟨(by decide +kernel), ⟨(by decide +kernel), (by decide +kernel)⟩⟩⟩⟩⟩⟩;
    ⟨_, rfl⟩),
    (have _ := h.1 (wOp (vec 8 1)) 0 (desc (vec 8 1)) ((elementOps 0)[1]'(by decide)) (List.getElem_mem _)
      ⟨⟨by decide +kernel, by decide +kernel⟩, ⟨(by decide +kernel), ⟨(by decide +kernel), ⟨(by decide +kernel),
      ⟨(by decide +kernel), ⟨(by decide +kernel), (by decide +kernel)⟩⟩⟩⟩⟩⟩;
    ⟨_, rfl⟩),
    (have _ := h.1 (wOp (vec 8 2)) 0 (desc (vec 8 2)) ((elementOps 0)[2]'(by decide)) (List.getElem_mem _)
      ⟨⟨by decide +kernel, by decide +kernel⟩, ⟨(by decide +kernel), ⟨(by decide +kernel), ⟨(by decide +kernel),
      ⟨(by decide +kernel), ⟨(by decide +kernel), (by decide +kernel)⟩⟩⟩⟩⟩⟩;
    ⟨_, rfl⟩),
    (have _ := h.1 (wOp (vec 8 3)) 0 (desc (vec 8 3)) ((elementOps 0)[3]'(by decide)) (List.getElem_mem _)
      ⟨⟨by decide +kernel, by decide +kernel⟩, ⟨(by decide +kernel), ⟨(by decide +kernel), ⟨(by decide +kernel),
      ⟨(by decide +kernel), ⟨(by decide +kernel), (by decide +kernel)⟩⟩⟩⟩⟩⟩;
    ⟨_, rfl⟩),
    (have _ := h.1 (wOp (vec 8 4)) 0 (desc (vec 8 4)) ((elementOps 0)[4]'(by decide)) (List.getElem_mem _)
      ⟨⟨by decide +kernel, by decide +kernel⟩, ⟨(by decide +kernel), ⟨(by decide +kernel), ⟨(by decide +kernel),
      ⟨(by decide +kernel), ⟨(by decide +kernel), (by decide +kernel)⟩⟩⟩⟩⟩⟩;
    ⟨_, rfl⟩),
    (have _ := h.1 (wOp (vec 8 5)) 0 (desc (vec 8 5)) ((elementOps 0)[5]'(by decide)) (List.getElem_mem _)
      ⟨⟨by decide +kernel, by decide +kernel⟩, ⟨(by decide +kernel), ⟨(by decide +kernel), ⟨(by decide +kernel),
      ⟨(by decide +kernel), ⟨(by decide +kernel), (by decide +kernel)⟩⟩⟩⟩⟩⟩;
    ⟨_, rfl⟩),
    (have _ := h.1 (wOp (vec 8 6)) 0 (desc (vec 8 6)) ((elementOps 0)[6]'(by decide)) (List.getElem_mem _)
      ⟨⟨by decide +kernel, by decide +kernel⟩, ⟨(by decide +kernel), ⟨(by decide +kernel), ⟨(by decide +kernel),
      ⟨(by decide +kernel), ⟨(by decide +kernel), (by decide +kernel)⟩⟩⟩⟩⟩⟩;
    ⟨_, rfl⟩),
    (have _ := h.1 (wOp (vec 9 0)) 0 (desc (vec 9 0)) ((elementOps 0)[7]'(by decide)) (List.getElem_mem _)
      ⟨⟨by decide +kernel, by decide +kernel⟩, ⟨(by decide +kernel), ⟨(by decide +kernel), ⟨(by decide +kernel),
      ⟨(by decide +kernel), ⟨(by decide +kernel), (by decide +kernel)⟩⟩⟩⟩⟩⟩;
    ⟨_, rfl⟩),
    (have _ := h.1 (wOp (vec 9 1)) 0 (desc (vec 9 1)) ((elementOps 0)[8]'(by decide)) (List.getElem_mem _)
      ⟨⟨by decide +kernel, by decide +kernel⟩, ⟨(by decide +kernel), ⟨(by decide +kernel), ⟨(by decide +kernel),
      ⟨(by decide +kernel), ⟨(by decide +kernel), (by decide +kernel)⟩⟩⟩⟩⟩⟩;
    ⟨_, rfl⟩),
    (have _ := h.1 (wOp (vec 9 2)) 0 (desc (vec 9 2)) ((elementOps 0)[9]'(by decide)) (List.getElem_mem _)
      ⟨⟨by decide +kernel, by decide +kernel⟩, ⟨(by decide +kernel), ⟨(by decide +kernel), ⟨(by decide +kernel),
      ⟨(by decide +kernel), ⟨(by decide +kernel), (by decide +kernel)⟩⟩⟩⟩⟩⟩;
    ⟨_, rfl⟩),
    (have _ := h.1 (wOp (vec 9 3)) 0 (desc (vec 9 3)) ((elementOps 0)[10]'(by decide)) (List.getElem_mem _)
      ⟨⟨by decide +kernel, by decide +kernel⟩, ⟨(by decide +kernel), ⟨(by decide +kernel), ⟨(by decide +kernel),
      ⟨(by decide +kernel), ⟨(by decide +kernel), (by decide +kernel)⟩⟩⟩⟩⟩⟩;
    ⟨_, rfl⟩),
    (have _ := h.1 (wOp (vec 9 4)) 0 (desc (vec 9 4)) ((elementOps 0)[11]'(by decide)) (List.getElem_mem _)
      ⟨⟨by decide +kernel, by decide +kernel⟩, ⟨(by decide +kernel), ⟨(by decide +kernel), ⟨(by decide +kernel),
      ⟨(by decide +kernel), ⟨(by decide +kernel), (by decide +kernel)⟩⟩⟩⟩⟩⟩;
    ⟨_, rfl⟩),
    (have _ := h.1 (wOp (vec 9 5)) 0 (desc (vec 9 5)) ((elementOps 0)[12]'(by decide)) (List.getElem_mem _)
      ⟨⟨by decide +kernel, by decide +kernel⟩, ⟨(by decide +kernel), ⟨(by decide +kernel), ⟨(by decide +kernel),
      ⟨(by decide +kernel), ⟨(by decide +kernel), (by decide +kernel)⟩⟩⟩⟩⟩⟩;
    ⟨_, rfl⟩),
    (have _ := h.2 (wOp (vec 12 0)) 0 (desc (vec 12 0)) ((rowOps 0)[0]'(by decide)) (List.getElem_mem _) ⟨⟨by decide +kernel,
      by decide +kernel⟩, ⟨(by decide +kernel), ⟨(by decide +kernel), ⟨(by decide +kernel), ⟨(by decide +kernel),
      ⟨(by decide +kernel), (by decide +kernel)⟩⟩⟩⟩⟩⟩;
    ⟨_, rfl⟩),
    (have _ := h.2 (wOp (vec 12 1)) 0 (desc (vec 12 1)) ((rowOps 0)[1]'(by decide)) (List.getElem_mem _) ⟨⟨by decide +kernel,
      by decide +kernel⟩, ⟨(by decide +kernel), ⟨(by decide +kernel), ⟨(by decide +kernel), ⟨(by decide +kernel),
      ⟨(by decide +kernel), (by decide +kernel)⟩⟩⟩⟩⟩⟩;
    ⟨_, rfl⟩),
    (have _ := h.2 (wOp (vec 12 2)) 0 (desc (vec 12 2)) ((rowOps 0)[2]'(by decide)) (List.getElem_mem _) ⟨⟨by decide +kernel,
      by decide +kernel⟩, ⟨(by decide +kernel), ⟨(by decide +kernel), ⟨(by decide +kernel), ⟨(by decide +kernel),
      ⟨(by decide +kernel), (by decide +kernel)⟩⟩⟩⟩⟩⟩;
    ⟨_, rfl⟩),
    (have _ := h.2 (wOp (vec 12 3)) 0 (desc (vec 12 3)) ((rowOps 0)[3]'(by decide)) (List.getElem_mem _) ⟨⟨by decide +kernel,
      by decide +kernel⟩, ⟨(by decide +kernel), ⟨(by decide +kernel), ⟨(by decide +kernel), ⟨(by decide +kernel),
      ⟨(by decide +kernel), (by decide +kernel)⟩⟩⟩⟩⟩⟩;
    ⟨_, rfl⟩),
    (have _ := h.2 (wOp (vec 12 4)) 0 (desc (vec 12 4)) ((rowOps 0)[4]'(by decide)) (List.getElem_mem _) ⟨⟨by decide +kernel,
      by decide +kernel⟩, ⟨(by decide +kernel), ⟨(by decide +kernel), ⟨(by decide +kernel), ⟨(by decide +kernel),
      ⟨(by decide +kernel), (by decide +kernel)⟩⟩⟩⟩⟩⟩;
    ⟨_, rfl⟩)⟩

theorem witness_TileQueues (h : Obligations.TileQueues) :
    (∃ t, exec (.wait 0) (wOp [(0, 48)]) = .next t) ∧
    (∃ t, exec (.wait 0) (wOp [(0, 48), (16, 8), (24, 9)]) = .next t) ∧
    (∃ t, exec (.opRetire 0 0 0) wFlight = .next t) ∧
    (∃ t, exec (.opSignal 0 0) wFlight = .next t) ∧
    (∃ t, exec (.opqTailWrite none 0 3) wTile = .next t) ∧
    (∃ t, exec (.opqTailWrite (some 0) 0 3) wTile = .next t) ∧
    (∃ t, exec (.opFlush 0 0 1) wTile = .next t) ∧
    (∃ t, exec (.walkInv 1 0) wTile = .next t) ∧
    (∃ t, exec (.qhistWrite 1 0 (BitVec.ofNat 64 (2 ^ 63))) wTile = .next t) :=
  ⟨(have _ := (h.1.1 (wOp [(0, 0x30)]) 0 (desc [(0, 0x30)]) ⟨⟨by decide +kernel, by decide +kernel⟩, ⟨(by decide +kernel),
      ⟨(by decide +kernel), ⟨(by decide +kernel), ⟨(by decide +kernel), ⟨(by decide +kernel), (by decide +kernel)⟩⟩⟩⟩⟩⟩).1
      (by decide +kernel);
    ⟨_, rfl⟩),
    (have _ := (h.1.1 (wOp [(0, 0x30), (16, 8), (24, 9)]) 0 (desc [(0, 0x30), (16, 8), (24, 9)]) ⟨⟨by decide +kernel,
      by decide +kernel⟩, ⟨(by decide +kernel), ⟨(by decide +kernel), ⟨(by decide +kernel), ⟨(by decide +kernel),
      ⟨(by decide +kernel), (by decide +kernel)⟩⟩⟩⟩⟩⟩).2 (by decide +kernel);
    ⟨_, rfl⟩),
    (have _ := by2 (h.1.2.1 wFlight 0 0 0 ⟨0, 2, 0, [], [], desc [(0, 0x200), (8, 16), (12, 5)], 0, none⟩)
      (by unfold State.up; decide +kernel);
    ⟨_, rfl⟩),
    (have _ := by3 (h.1.2.2 wFlight 0 0 0 16 5 0 128) (by unfold State.up; decide +kernel);
    ⟨_, rfl⟩),
    (have _ := by2 (h.2.1 wTile none 0 3) (by unfold State.up; decide +kernel) ((fun c h => by cases h));
    ⟨_, rfl⟩),
    (have _ := by2 (h.2.1 wTile (some 0) 0 3) (by unfold State.up; decide +kernel) (wTile_tail);
    ⟨_, rfl⟩),
    (have _ := by2 (h.2.2.1 wTile 0 0 1) (by unfold Admits; decide +kernel);
    ⟨_, rfl⟩),
    (have _ := by3 (h.2.2.2.1 wTile 1 0) (by unfold Admits; decide +kernel);
    ⟨_, rfl⟩),
    (have _ := by6 (h.2.2.2.2 wTile 1 0 (BitVec.ofNat 64 (2 ^ 63)) 0 0) (by unfold Admits; decide +kernel);
    ⟨_, rfl⟩)⟩

theorem witness_RingPackets (h : Obligations.RingPackets) :
    (∃ t, exec (.ringIn (rx 1 (2 * 2 ^ 32 + 1) 1 (desc [(0, 9)]))) wSub = .next t) ∧
    (∃ t, exec (.ringIn (rx 1 (2 * 2 ^ 32 + 1) 1 (desc [(0, 9)]))) wSub = .next t) ∧
    (∃ t, exec (.ringMsg (rx 4 6 0 (desc [(0, 9)]))) (wMsgs 0) = .next t) ∧
    (∃ t, exec (.ringMsg (rx 4 6 0 (desc [(0, 9)]))) (wMsgs 0) = .next t) ∧
    (∃ t, exec (.ringMsg (rx 4 6 0 (desc [(0, 9)]))) (wMsgs 16) = .next t) ∧
    (∃ t, exec (.ringBusy (rx 5 6 0 [])) (wBusy none) = .next t) ∧
    (∃ t, exec (.ringMsgRetry 6) (wBusy (some 0)) = .next t) :=
  ⟨(have _ := by6 (by2 (h.1 wSub _ (rx 0x01 (2 * 2 ^ 32 + 1) 1 (desc [(0, 9)])) 0 _ _ _)
      (by unfold Receives State.up; decide +kernel) rfl rfl rfl rfl) (by decide +kernel);
    ⟨_, rfl⟩),
    (have _ := by4 (by2 (h.2.1 wSub _ (rx 0x01 (2 * 2 ^ 32 + 1) 1 (desc [(0, 9)])) 0 _ _ _)
      (by unfold Receives State.up; decide +kernel) rfl rfl rfl rfl) (by unfold HubRing HubHolds; decide +kernel);
    ⟨_, rfl⟩),
    (have _ := by5 (by2 (h.2.2.1 (wMsgs 0) _ (rx 0x04 6 0 (desc [(0, 9)])) 0 6) (by unfold Receives State.up; decide +kernel)
      rfl) (by decide +kernel);
    ⟨_, rfl⟩),
    (have _ := by5 (by2 (h.2.2.2.1 (wMsgs 0) _ (rx 0x04 6 0 (desc [(0, 9)])) 0 6)
      (by unfold Receives State.up; decide +kernel) rfl) (by unfold HubRing HubHolds; decide +kernel);
    ⟨_, rfl⟩),
    (have _ := by5 (by2 (h.2.2.1 (wMsgs 16) _ (rx 0x04 6 0 (desc [(0, 9)])) 0 6)
      (by unfold Receives State.up; decide +kernel) rfl) (by decide +kernel);
    ⟨_, rfl⟩),
    (have _ := h.2.2.2.2.1 (wBusy none) _ (rx 0x05 6 0 []) 0 ⟨6, 0, none⟩ ⟨⟨by decide +kernel, by decide +kernel⟩,
      ⟨(by decide +kernel), ⟨(by decide +kernel), (by decide +kernel)⟩⟩⟩ rfl (by decide +kernel);
    ⟨_, rfl⟩),
    (have _ := by5 (h.2.2.2.2.2 (wBusy (some 0)) (wBusy (some 0)) 6 0 0 ⟨6, 0, some 0⟩ (List.replicate 64 0))
      (by unfold State.clear State.up; decide +kernel) ((.inl (by unfold HubRing HubHolds; decide +kernel)));
    ⟨_, rfl⟩)⟩

theorem witness_DmaCopies (h : Obligations.DmaCopies) :
    (∃ t, exec (.dmaEntry 0) wDma = .next t) ∧
    (∃ t, exec (.dmaEntry 0) wDma = .next t) ∧
    (∃ t, exec (.dmaEntryDone 0) wCopied = .next t) ∧
    (∃ t, exec (.dmaEntryDone 0) wCopied = .next t) :=
  ⟨(have _ := by11 (h.1 wDma 0 7 0 dma1)
      (by unfold HubServes State.clear State.up RingsHold HubRing HubHolds; decide +kernel);
    ⟨_, rfl⟩),
    (have _ := by3 (by5 (h.2.1 wDma _ _ _ 0 7 0 dma1 (List.replicate 64 0))
      (by unfold HubServes State.clear State.up RingsHold; decide +kernel) (runs_of_only _ (by apply
      Sys2Proof.Machine.ringRead_only) _ (by decide +kernel))) (by decide +kernel) (runs_of_only _ (by apply
      Sys2Proof.Machine.spRead_only) _ (by decide +kernel)) (runs_of_only _ (by apply Sys2Proof.Machine.spWrite_only) _
      (by decide +kernel));
    ⟨_, rfl⟩),
    (have _ := by4 (h.2.2.1 wCopied 0 ⟨0, 0, 0x3000, 5⟩) (by unfold HubServes State.clear State.up HubHolds; decide +kernel);
    ⟨_, rfl⟩),
    (have _ := by2 (h.2.2.2 wCopied _ 0 ⟨0, 0, 0x3000, 5⟩) (by unfold HubServes State.clear State.up; decide +kernel)
      (runs_of_only _ (by apply Sys2Proof.Machine.spWrite_only) _ (by decide +kernel));
    ⟨_, rfl⟩)⟩

theorem witness_MessagesAndMirrors (h : Obligations.MessagesAndMirrors) :
    (∃ t, exec (.admission 0) wPoor = .next t) ∧
    (∃ t, exec (.admission 0) wMsg = .next t) ∧
    (∃ t, exec (.cancel 0) wCancel = .next t) ∧
    (∃ t, exec (.mirrorConf (rx 49 3 0 [])) wJournal = .next t) ∧
    (∃ t, exec (.mirrorTimeout 0) wJournal = .next t) :=
  ⟨(have _ := (by2 (by2 (h.1.1 wPoor _ _ 0 0 1 msg1 []) (by unfold HubServes State.clear State.up RingsHold; decide +kernel)
      rfl) (by decide +kernel) rfl).1 (5, 2) (by decide +kernel);
    ⟨_, rfl⟩),
    (have _ := (by2 (by2 (h.1.1 wMsg _ _ 0 0 1 msg1 []) (by unfold HubServes State.clear State.up RingsHold; decide +kernel)
      rfl) (by decide +kernel) rfl).2 (by decide +kernel) 9 (by decide +kernel);
    ⟨_, rfl⟩),
    (have _ := by2 (h.1.2 wCancel _ 0 0 1 msg2) (by unfold HubServes State.clear State.up RingsHold; decide +kernel) rfl
      (by decide +kernel);
    ⟨_, rfl⟩),
    (have _ := by2 (h.2.1 wJournal _ (rx 0x31 3 0 []) 0) (by unfold Receives State.up; decide +kernel) rfl
      (by decide +kernel);
    ⟨_, rfl⟩),
    (have _ := by3 (h.2.2 wJournal 0) (by unfold State.up; decide +kernel);
    ⟨_, rfl⟩)⟩

theorem witness_StepArmAndCommit (h : Obligations.StepArmAndCommit) :
    (∃ t, exec (.stepArm 1 0 [] 7) wReq = .next t) ∧
    (∃ t, exec (.stepCommit 1 0) (wPhase 3 0) = .next t) ∧
    (∃ t, exec (.stepCommit 1 0) wNoTable = .next t) ∧
    (∃ t, exec (.commitResume 0) (wPhase 4 0) = .next t) :=
  ⟨(have _ := by4 (h.1 wReq _ 1 0 [] 7) (by unfold Admits; decide +kernel) rfl;
    ⟨_, rfl⟩),
    (have _ := by3 (h.2.1 (wPhase 3 0) _ 1 0 (List.replicate 16 0)) (by unfold Admits; decide +kernel) rfl;
    ⟨_, rfl⟩),
    (have _ := by3 (h.2.2.1 wNoTable _ 1 0 1) (by unfold Admits; decide +kernel) rfl;
    ⟨_, rfl⟩),
    (have _ := by2 (h.2.2.2 (wPhase 4 0) 0) (by unfold State.clear State.up; decide +kernel);
    ⟨_, rfl⟩)⟩

theorem witness_StepEndsOtherwise (h : Obligations.StepEndsOtherwise) :
    (∃ t, exec (.stepRollback 1 0) (wPhase 3 0) = .next t) ∧
    (∃ t, exec (.stepAbandon 1 0) (wPhase 2 0) = .next t) ∧
    (∃ t, exec (.unpark 1 0 9) (wPhase 0 4) = .next t) ∧
    (∃ t, exec (.listRelease 1 0 9) (wPhase 0 6) = .next t) ∧
    (∃ t, exec (.kvRebuild 1 0 9 64) (wPhase 0 3) = .next t) ∧
    (∃ t, exec (.recover 1 0 1 false) wRecover = .next t) :=
  ⟨(have _ := by3 (h.1 (wPhase 3 0) 1 0) (by unfold Admits; decide +kernel);
    ⟨_, rfl⟩),
    (have _ := by2 (h.2.1 (wPhase 2 0) 1 0) (by unfold Admits; decide +kernel);
    ⟨_, rfl⟩),
    (have _ := by4 (h.2.2.1 (wPhase 0 4) 1 0 9) (by unfold Admits; decide +kernel);
    ⟨_, rfl⟩),
    (have _ := by5 (h.2.2.2.1 (wPhase 0 6) 1 0 9) (by unfold Admits; decide +kernel);
    ⟨_, rfl⟩),
    (have _ := by7 (h.2.2.2.2.1 (wPhase 0 3) 1 0 9 64) (by unfold Admits; decide +kernel);
    ⟨_, rfl⟩),
    (have _ := by9 (h.2.2.2.2.2 wRecover 1 0 1 false (leBytes 32 (1 + 3 * 2 ^ 48 + 0x2F0F281D * 2 ^ 192)) [] ⟨1, 3, 0, 0, 0,
      32, []⟩) (by unfold Admits; decide +kernel);
    ⟨_, rfl⟩)⟩

theorem witness_LingTreesShared_a (h : Obligations.LingTreesShared) : ∃ t, exec (.prxShare 1 0 0 0) wLing = .next t :=
  have _ := by2 (h.1 wLing _ 1 0 0 0 (0, node0 (List.replicate 16 0)) [] _) (by decide +kernel) rfl ⟨(by decide +kernel),
    ⟨(by decide +kernel), ⟨(by decide +kernel), rfl⟩⟩⟩ ⟨(by decide +kernel), (by decide +kernel)⟩;
  ⟨_, rfl⟩

theorem witness_LingTreesShared_b (h : Obligations.LingTreesShared) : ∃ t, exec (.prxWithdraw 1 0 0 0) wLing = .next t :=
  have _ := by2 (by2 (h.2.1 wLing _ 1 0 0 0 (0, node0 (List.replicate 16 0)) [] _ 0) (by decide +kernel) rfl
    ⟨(by decide +kernel), ⟨(by decide +kernel), ⟨(by decide +kernel), rfl⟩⟩⟩) (by unfold Admits; decide +kernel);
  ⟨_, rfl⟩

theorem witness_LingTreesShared_c (h : Obligations.LingTreesShared) : ∃ t, exec (.cowCopyDone 0) (wCow 1) = .next t :=
  have _ := by2 ((by3 (h.2.2.2 (wCow 1) _ 0 cow0 (mkPd 2 9 5 0) _) (by unfold State.clear State.up; decide +kernel) rfl
    rfl).1) (by decide +kernel);
  ⟨_, rfl⟩

theorem witness_LingTreesShared_d (h : Obligations.LingTreesShared) : ∃ t, exec (.cowCopyDone 0) (wCow 2) = .next t :=
  have _ := (by3 (h.2.2.2 (wCow 2) _ 0 cow0 (mkPd 2 9 5 0) _) (by unfold State.clear State.up; decide +kernel) rfl rfl).2
    (by decide +kernel);
  ⟨_, rfl⟩

theorem witness_LingTreesShared_e (h : Obligations.LingTreesShared) : ∃ t, exec (.prxKeyWrite 0 false 3 true 5) w0 = .next t
  :=
  have _ := h.2.2.1 w0 0 false 3 true 5 _ rfl ⟨(by decide +kernel), (by decide +kernel)⟩;
  ⟨_, rfl⟩

theorem witness_LingTreesShared_f (h : Obligations.LingTreesShared) : ∃ t, exec (.prxKeyWrite 0 true 3 false 5) w0 = .next t
  :=
  have _ := h.2.2.1 w0 0 true 3 false 5 _ rfl ⟨(by decide +kernel), (by decide +kernel)⟩;
  ⟨_, rfl⟩

theorem witness_QueueTailStands (h : Obligations.QueueTailStands) :
    (∃ t, exec (.placeTailWrite 0 0 2) wPlace = .next t) ∧
    (∃ t, exec (.placeTailWrite 0 0 4) wPlace = .next t) ∧
    (∃ t, exec (.flqTailWrite 0 0 256) (after (wrR (R.PRT_FLQ_CFG 0) 1099511627776) w0) = .next t) ∧
    (∃ t, exec (.ldqTailWrite 0 0 64) (after (wrR (R.PRT_LDQ_CFG 0) 274877906944) w0) = .next t) ∧
    (∃ t, exec (.tdqTailWrite 0 0 64) (after (wrR (R.PRT_TDQ_CFG 0) 274877906944) w0) = .next t) ∧
    (∃ t, exec (.clqTailWrite 0 0 64) (after (wrR (R.PRT_CLQ_CFG 0) 274877906944) w0) = .next t) :=
  ⟨(have _ := by2 ((h wPlace 0 2).1 0) (by unfold Admits; decide +kernel);
    ⟨_, rfl⟩),
    (have _ := by2 ((h wPlace 0 4).1 0) (by unfold Admits; decide +kernel);
    ⟨_, rfl⟩),
    (have _ := by2 (((h (after (wrR (R.PRT_FLQ_CFG 0) 0x10000000000) w0) 0 256).2 0).1) (by unfold Admits; decide +kernel);
    ⟨_, rfl⟩),
    (have _ := by2 (((h (after (wrR (R.PRT_LDQ_CFG 0) 0x4000000000) w0) 0 64).2 0).2.1) (by unfold Admits; decide +kernel);
    ⟨_, rfl⟩),
    (have _ := by2 (((h (after (wrR (R.PRT_TDQ_CFG 0) 0x4000000000) w0) 0 64).2 0).2.2.1) (by unfold Admits; decide +kernel);
    ⟨_, rfl⟩),
    (have _ := by2 (((h (after (wrR (R.PRT_CLQ_CFG 0) 0x4000000000) w0) 0 64).2 0).2.2.2) (by unfold Admits; decide +kernel);
    ⟨_, rfl⟩)⟩

theorem witness_PlacesAndBiases (h : Obligations.PlacesAndBiases) :
    (∃ t, exec (.placeRequest 0) wPlace = .next t) ∧
    (∃ t, exec (.placeSignal 0) wPlaced = .next t) ∧
    (∃ t, exec (.biasUpdate 0) wBias = .next t) ∧
    (∃ t, exec (.biasReadyWrite 0) wBiasReady = .next t) :=
  ⟨(have _ := by4 (h.1 wPlace _ 0 0 0 (List.replicate 32 0)) (by unfold HubServes State.clear State.up; decide +kernel) rfl;
    ⟨_, rfl⟩),
    (have _ := by6 (h.2.1 wPlaced 0 0 0 0 64) (by unfold HubServes State.clear State.up; decide +kernel);
    ⟨_, rfl⟩),
    (have _ := by3 (h.2.2.1 wBias 0 0) (by unfold State.up; decide +kernel);
    ⟨_, rfl⟩),
    (have _ := by2 (by5 (h.2.2.2.1 wBiasReady _ 0 0 1 0 layer0 _) (by unfold HubHolds; decide +kernel) rfl)
      (by decide +kernel) rfl;
    have _ := by3 (h.2.2.2.2 wBiasReady 0 0) (by unfold State.clear State.up; decide +kernel);
    ⟨_, rfl⟩)⟩

theorem witness_GddrServes (h : Obligations.GddrServes) :
    (∃ t, exec (.gddr7Read 0 0 64 0 false false 0) wReq = .next t) ∧
    (∃ t, exec (.gddr7Read 0 0 0 9 true true 0) wReq = .next t) ∧
    (∃ t, exec (.gddr7Write 0 0 0 [1, 2, 3]) wReq = .next t) ∧
    (∃ t, exec (.gddr7Write 0 0 0 [1, 2, 3]) wReq = .next t) :=
  ⟨(have _ := by9 (h.1 wReq 0 0 64 ⟨0, false, false, 0⟩ ⟨0, 64, false⟩ (List.replicate 64 0))
      (by unfold State.up; decide +kernel);
    ⟨_, rfl⟩),
    (have _ := by5 (h.2.1 wReq _ _ 0 0 0 ⟨9, true, true, 0⟩ ⟨0, 0, false⟩ (List.replicate 64 0))
      (by unfold State.up; decide +kernel) (runs_of_only _ (by apply Sys2Proof.Machine.sectorRead_only) _
      (by decide +kernel)) (runs_of_only _ (by apply Sys2Proof.Machine.gReadWith_only) _ (by decide +kernel));
    ⟨_, rfl⟩),
    (have _ := h.2.2.1 wReq 0 0 0 [1, 2, 3] ⟨by decide +kernel, by decide +kernel⟩ (writeReaches);
    ⟨_, rfl⟩),
    (have _ := h.2.2.2 wReq (past (gWrite (0 : BitVec 16).toNat (0 : PartId) (0 : BitVec 40).toNat [1, 2, 3]) wReq) 0 0 0 [1,
      2, 3] ⟨by decide +kernel, by decide +kernel⟩ (writeReaches) (runs_of_only _ (by apply Sys2Proof.Machine.gWrite_only) _
      (by decide +kernel));
    ⟨_, rfl⟩)⟩

theorem witness_SitesWatched (h : Obligations.SitesWatched) :
    (∃ t, exec (.siteFail 3) wReq = .next t) ∧
    (∃ t, exec (.scrubStripe 0 0 false) (wScrub false) = .next t) ∧
    (∃ t, exec (.scrubStripe 0 0 false) (wScrub true) = .next t) ∧
    (∃ t, exec (.scrubStripe 0 0 true) (wScrub true) = .next t) ∧
    (∃ t, exec (.retrainDue 0 5) wTemp = .next t) ∧
    (∃ t, exec (.retrainDue 0 6) wTemp = .next t) ∧
    (∃ t, exec (.coverCatchup 0) wMarks = .next t) ∧
    (∃ t, exec (.coverCatchup 0) wCover = .next t) :=
  ⟨(have _ := by2 (h.1 wReq 3) (by unfold State.up; decide +kernel);
    ⟨_, rfl⟩),
    (have _ := (by5 (h.2.1 (wScrub false) 0 0 false false) (by unfold State.up; decide +kernel)).1 (by decide +kernel);
    ⟨_, rfl⟩),
    (have _ := (by5 (h.2.1 (wScrub true) 0 0 false true) (by unfold State.up; decide +kernel)).2 (by decide +kernel);
    ⟨_, rfl⟩),
    (have _ := (by5 (h.2.1 (wScrub true) 0 0 true true) (by unfold State.up; decide +kernel)).1 (by decide +kernel);
    ⟨_, rfl⟩),
    (have _ := h.2.2.1 wTemp 0 5 ⟨by decide +kernel, by decide +kernel⟩;
    ⟨_, rfl⟩),
    (have _ := h.2.2.1 wTemp 0 6 ⟨by decide +kernel, by decide +kernel⟩;
    ⟨_, rfl⟩),
    (have _ := by3 (h.2.2.2.1 wMarks 0 0 []) (by unfold State.up; decide +kernel);
    ⟨_, rfl⟩),
    (have _ := by5 (h.2.2.2.2 wCover 0 (0, 0)) (by unfold State.up; decide +kernel);
    ⟨_, rfl⟩)⟩

theorem witness_WriteBackCommands (h : Obligations.WriteBackCommands) :
    (∃ t, exec (.wbLoad 0 0 1 16) wWbClean = .next t) ∧
    (∃ t, exec (.wbFlush 0 0 1 16) wWbClean = .next t) ∧
    (∃ t, exec (.wbEvict 0 0 1 16) (wWb 7) = .next t) ∧
    (∃ t, exec (.wbDiscard 0 0 2 16) (wWb 1) = .next t) ∧
    (∃ t, exec (.wbCommandDone 0) (wWb 1) = .next t) ∧
    (∃ t, exec (.wbCommandDone 0) (wWb 2) = .next t) ∧
    (∃ t, exec (.writeThroughFlush 0 1) (wWb 0) = .next t) :=
  ⟨(have _ := by4 (h.1 wWbClean 0 0 1 16 0 (.wbLoad 0 0 1 16) ((by simp))) (by unfold Admits; decide +kernel);
    ⟨_, rfl⟩),
    (have _ := by4 (h.1 wWbClean 0 0 1 16 1 (.wbFlush 0 0 1 16) ((by simp))) (by unfold Admits; decide +kernel);
    ⟨_, rfl⟩),
    (have _ := by4 (h.1 (wWb 7) 0 0 1 16 2 (.wbEvict 0 0 1 16) ((by simp))) (by unfold Admits; decide +kernel);
    ⟨_, rfl⟩),
    (have _ := by4 (h.1 (wWb 1) 0 0 2 16 3 (.wbDiscard 0 0 2 16) ((by simp))) (by unfold Admits; decide +kernel);
    ⟨_, rfl⟩),
    (have _ := by2 (h.2.1 (wWb 1) 0 1 1 16 []) (by unfold State.clear State.up; decide +kernel);
    ⟨_, rfl⟩),
    (have _ := by2 (h.2.1 (wWb 2) 0 1 1 16 [(1, 1, 16)]) (by unfold State.clear State.up; decide +kernel);
    ⟨_, rfl⟩),
    (have _ := by4 (h.2.2 (wWb 0) 0 1) (by unfold State.clear State.up; decide +kernel);
    ⟨_, rfl⟩)⟩

theorem witness_SiteMigrates (h : Obligations.SiteMigrates) :
    (∃ t, exec (.migStart 0 0) wMig = .next t) ∧
    (∃ t, exec (.migAbort 0 0) wMigrating = .next t) ∧
    (∃ t, exec .migCopyDone wMigrating = .next t) :=
  ⟨(have _ := by2 (h.1 wMig 0 0) (by unfold Admits; decide +kernel);
    ⟨_, rfl⟩),
    (have _ := by5 (h.2.1 wMigrating 0 0) (by unfold Admits; decide +kernel);
    ⟨_, rfl⟩),
    (have _ := by4 (h.2.2 wMigrating 0) (by unfold State.up; decide +kernel);
    ⟨_, rfl⟩)⟩

theorem witness_FlashCommands (h : Obligations.FlashCommands) :
    (∃ t, exec (.flashRead 0) (wFlq 1 1048576) = .next t) ∧
    (∃ t, exec (.flashWrite 0) (wFlq 2 1048576) = .next t) ∧
    (∃ t, exec (.flashTrim 0) (wFlq 3 0) = .next t) ∧
    (∃ t, exec (.flashCmdDone 0) wFlashEnd = .next t) ∧
    (∃ t, exec (.hardDecode 0 false 3) wDecode = .next t) ∧
    (∃ t, exec (.softDecode 2 true) wDecode = .next t) ∧
    (∃ t, exec (.softDecode 2 false) wDecode = .next t) ∧
    (∃ t, exec (.softDecode 1 true) wSoftq = .next t) :=
  ⟨(have _ := by4 (by11 (h.1 (wFlq 1 0x100000) (wFlq 1 0x100000) 0 1 0 (flashEntry 1 0x100000) (placement 1 2 0 65536) 0 _
      (.flashRead 0)) (by unfold State.clear State.up HubHolds; decide +kernel) ((Or.inl
      (by unfold HubHolds; decide +kernel)))) (by decide +kernel) rfl;
    ⟨_, rfl⟩),
    (have _ := by4 (by11 (h.1 (wFlq 2 0x100000) (wFlq 2 0x100000) 0 2 0 (flashEntry 2 0x100000) (placement 1 2 0 65536) 0 _
      (.flashWrite 0)) (by unfold State.clear State.up HubHolds; decide +kernel) ((Or.inl
      (by unfold HubHolds; decide +kernel)))) (by decide +kernel) rfl;
    ⟨_, rfl⟩),
    (have _ := by4 (by11 (h.1 (wFlq 3 0) (wFlq 3 0) 0 3 0 (flashEntry 3 0) (placement 1 2 0 65536) 0 _ (.flashTrim 0))
      (by unfold State.clear State.up HubHolds; decide +kernel) ((Or.inl (by unfold HubHolds; decide +kernel))))
      (by decide +kernel) rfl;
    ⟨_, rfl⟩),
    (have _ := by3 (h.2.1 wFlashEnd 0 flCmd) (by unfold State.clear State.up HubHolds; decide +kernel);
    ⟨_, rfl⟩),
    (have _ := by4 (h.2.2.1 wDecode 0 false 3 flCw) (by unfold State.clear State.up; decide +kernel);
    ⟨_, rfl⟩),
    (have _ := by3 (h.2.2.2.1 wDecode 2 true (2, { flCw with failed := true }, 3))
      (by unfold State.clear State.up; decide +kernel);
    ⟨_, rfl⟩),
    (have _ := by3 (h.2.2.2.1 wDecode 2 false (2, { flCw with failed := true }, 3))
      (by unfold State.clear State.up; decide +kernel);
    ⟨_, rfl⟩),
    (have _ := by5 (h.2.2.2.2 wSoftq 1 true ({ flCw with failed := true })) (by unfold State.clear State.up; decide +kernel);
    ⟨_, rfl⟩)⟩

theorem witness_FlashUpkeep (h : Obligations.FlashUpkeep) :
    (∃ t, exec (.programDone 0) wBuf = .next t) ∧
    (∃ t, exec (.programFail 0 none) wBuf = .next t) ∧
    (∃ t, exec (.programFail 0 (some 1)) wBuf = .next t) ∧
    (∃ t, exec (.refreshBlock 0) wUnit = .next t) ∧
    (∃ t, exec (.refreshBlock 0) wErase = .next t) ∧
    (∃ t, exec (.gcRelocate 0) wUnit = .next t) ∧
    (∃ t, exec (.wearLevelMove 0) wUnit = .next t) ∧
    (∃ t, exec .mapCheckpoint wUnit = .next t) ∧
    (∃ t, exec .mapRebuildDone wErase = .next t) :=
  ⟨(have _ := by2 (h.1.1 wBuf 0 0 _ _) (by unfold State.clear State.up; decide +kernel) rfl rfl;
    ⟨_, rfl⟩),
    (have _ := by3 (h.1.2.1 wBuf 0 none 0) (by unfold State.up; decide +kernel);
    ⟨_, rfl⟩),
    (have _ := by3 (h.1.2.1 wBuf 0 (some 1) 1) (by unfold State.up; decide +kernel);
    ⟨_, rfl⟩),
    (have _ := (by4 (h.1.2.2 wUnit 0) (by unfold State.up; decide +kernel)).1 (by decide +kernel);
    ⟨_, rfl⟩),
    (have _ := by3 ((by4 (h.1.2.2 wErase 0) (by unfold State.up; decide +kernel)).2) (by decide +kernel);
    ⟨_, rfl⟩),
    (have _ := by4 (h.2.1 wUnit 0 (0 :: [])) (by unfold State.up; decide +kernel);
    ⟨_, rfl⟩),
    (have _ := by5 (h.2.2.1 wUnit 0 0 1) (by unfold State.up; decide +kernel) ((Or.inr (by decide +kernel)));
    ⟨_, rfl⟩),
    (have _ := by2 (h.2.2.2.1 wUnit) (by unfold State.up; decide +kernel);
    ⟨_, rfl⟩),
    (have _ := by3 (h.2.2.2.2 wErase) (by unfold State.up; decide +kernel);
    ⟨_, rfl⟩)⟩

theorem witness_WeightLoads_a (h : Obligations.WeightLoads) : ∃ t, exec (.verify 0) (wLoads verifyEntry { }) = .next t :=
  have _ := h.1.1 (wLoads verifyEntry {}) _ _ 0 0 0 verifyEntry (List.replicate 64 0) (List.replicate 3373 0)
    ⟨⟨⟨by decide +kernel, by decide +kernel⟩, (by decide +kernel)⟩, ⟨(by decide +kernel), ⟨(by decide +kernel),
    ⟨(by decide +kernel), ⟨(by decide +kernel), ⟨(by decide +kernel), (by decide +kernel)⟩⟩⟩⟩⟩⟩ (runs_of_only _ (by apply
    Sys2Proof.Machine.spRead_only) _ (by decide +kernel)) (runs_of_only _ (by apply Sys2Proof.Machine.spRead_only) _
    (by decide +kernel)) (by decide +kernel);
  ⟨_, rfl⟩

theorem witness_WeightLoads_b (h : Obligations.WeightLoads) : ∃ t, exec (.drop 0) (wLoads Tests.dropEntry
  { mans := [man0] }) = .next t :=
  have _ := by5 (h.1.2.1 (wLoads dropEntry { mans := [man0] }) 0 0 dropEntry man0)
    (by unfold LoadFront State.clear State.up; decide +kernel);
  ⟨_, rfl⟩

theorem witness_WeightLoads_c (h : Obligations.WeightLoads) : ∃ t, exec (.keyRequestTimeout 3) (wLoads [] { }) = .next t :=
  have _ := h.1.2.2.2.1 (wLoads [] {}) 3 ⟨by decide +kernel, by decide +kernel⟩;
  ⟨_, rfl⟩

theorem witness_WeightLoads_d (h : Obligations.WeightLoads) : ∃ t, exec (.load 0) (wLoads loadEntry
  { mans := [man0], keys := [key0] }) = .next t :=
  have _ := by3 (by9 (h.2.1 (wLoads loadEntry { mans := [man0], keys := [key0] }) (wLoads loadEntry
    { mans := [man0], keys := [key0] }) _ 0 0 loadEntry (placement 1 2 0 65536) (List.replicate 16 0) man0 key0)
    (by unfold LoadFront State.clear State.up; decide +kernel) ((Or.inl (by unfold HubHolds; decide +kernel))))
    (by decide +kernel) (runs_of_only _ (by apply Sys2Proof.Machine.spRead_only) _ (by decide +kernel)) (by decide +kernel);
  ⟨_, rfl⟩

theorem witness_WeightLoads_e (h : Obligations.WeightLoads) : ∃ t, exec (.chunkLanded 0 0 0) (wLoads []
  { mans := [man0], streams := [{ stream0 with chunks := [chunk0] }] }) = .next t :=
  have _ := by4 (h.2.2.1 (wLoads [] { mans := [man0], streams := [{ stream0 with chunks := [chunk0] }] }) _ 0 0 0 64
    ({ stream0 with chunks := [chunk0] }) chunk0 (List.replicate 80 0)) (by unfold State.clear State.up; decide +kernel)
    (runs_of_only _ (by apply Sys2Proof.Machine.gRead_only) _ (by decide +kernel));
  ⟨_, rfl⟩

theorem witness_WeightLoads_f (h : Obligations.WeightLoads) : ∃ t, exec (.chunkTimeout 0 0 0) (wLoads []
  { streams := [{ stream0 with chunks := [chunk0] }] }) = .next t :=
  have _ := by4 (h.2.2.2.1 (wLoads [] { streams := [{ stream0 with chunks := [{ chunk0 with landed := false }] }] }) 0 0 0
    ({ stream0 with chunks := [{ chunk0 with landed := false }] }) ({ chunk0 with landed := false }))
    (by unfold State.up; decide +kernel);
  ⟨_, rfl⟩

theorem witness_WeightLoads_g (h : Obligations.WeightLoads) : ∃ t, exec (.loadDone 0 0) (wLoads []
  { mans := [man0], streams := [{ stream0 with returned := 1 }] }) = .next t :=
  have _ := by5 (h.2.2.2.2 (wLoads [] { mans := [man0], streams := [{ stream0 with returned := 1 }] }) 0 0
    ({ stream0 with returned := 1 })) (by unfold State.up; decide +kernel);
  ⟨_, rfl⟩

theorem witness_ChunksOverTheWire (h : Obligations.ChunksOverTheWire) :
    (∃ t, exec (.rdmaReadResponse 0 5 (List.replicate 8 1) false) wQp = .next t) ∧
    (∃ t, exec (.roceAck 0 6) wQp = .next t) ∧
    (∃ t, exec (.roceNak ⟨0, 6, false⟩) wQp = .next t) ∧
    (∃ t, exec (.roceNak ⟨0, 5, true⟩) wQp = .next t) ∧
    (∃ t, exec (.roceTimeout 0) wQp = .next t) ∧
    (∃ t, exec (.bulkFrameDrop ⟨1, 64⟩) wQp = .next t) ∧
    (∃ t, exec (.peerReq (rx 56 0 0 (List.replicate 64 0))) wPeer = .next t) ∧
    (∃ t, exec (.peerData (rx 57 0 0 (List.replicate 92 0))) wPeer = .next t) ∧
    (∃ t, exec (.peerNotHeld (rx 58 0 0 [])) wPeer = .next t) :=
  ⟨(have _ := by5 (h.1.1 wQp _ 0 5 (List.replicate 8 1) read0 none) (by unfold State.clear State.up; decide +kernel)
      (runs_of_only _ (by apply Sys2Proof.Machine.gWrite_only) _ (by decide +kernel));
    ⟨_, rfl⟩),
    (have _ := by2 (h.1.2.1 wQp 0 6) (by unfold State.up; decide +kernel);
    ⟨_, rfl⟩),
    (have _ := by2 (h.1.2.2.1 wQp _ 0 6 false) (by unfold State.up; decide +kernel) rfl;
    ⟨_, rfl⟩),
    (have _ := by2 (h.1.2.2.1 wQp _ 0 5 true) (by unfold State.up; decide +kernel) rfl;
    ⟨_, rfl⟩),
    (have _ := by3 (h.1.2.2.2.1 wQp 0) (by unfold State.up; decide +kernel);
    ⟨_, rfl⟩),
    (have _ := (h.1.2.2.2.2.1 wQp 0 read0 (by decide +kernel)).1 (by decide +kernel);
    have _ := (h.1.2.2.2.2.1 (wLoads [] { reads := [{ read0 with tries := 9 }] }) 0 ({ read0 with tries := 9 })
      (by decide +kernel)).2 (by decide +kernel);
    have _ := h.1.2.2.2.2.2.1 wQp 0;
    have _ := h.1.2.2.2.2.2.2 wQp 1 64 ⟨by decide +kernel, by decide +kernel⟩;
    ⟨_, rfl⟩),
    (have _ := (by2 (h.2.1 wPeer _ (rx 0x38 0 0 (List.replicate 64 0)) 0) (by unfold Receives State.up; decide +kernel)
      rfl).1 (by decide +kernel);
    ⟨_, rfl⟩),
    (have _ := by2 (h.2.2.1 wPeer _ _ (rx 0x39 0 0 (List.replicate 92 0)) 0
      ({ stream0 with chunks := [{ chunk0 with attempt := 1, landed := false }] })
      ({ chunk0 with attempt := 1, landed := false }) none) (by unfold Receives State.up; decide +kernel) rfl
      (by decide +kernel) (runs_of_only _ (by apply Sys2Proof.Machine.gWrite_only) _ (by decide +kernel));
    ⟨_, rfl⟩),
    (have _ := h.2.2.2 wPeer _ (rx 0x3A 0 0 []) 0
      ({ stream0 with chunks := [{ chunk0 with attempt := 1, landed := false }] })
      ({ chunk0 with attempt := 1, landed := false }) ⟨⟨by decide +kernel, by decide +kernel⟩, ⟨(by decide +kernel),
      ⟨(by decide +kernel), (by decide +kernel)⟩⟩⟩ rfl (by decide +kernel);
    ⟨_, rfl⟩)⟩

theorem witness_FillPieces (h : Obligations.FillPieces) :
    (∃ t, exec (.fillPiece 0 0) (wFill { }) = .next t) ∧
    (∃ t, exec (.fillPieceDone 0) (wFill { busy := [{ part := 0, idx := 0, j := 0, q := 0, page := 0, early := 0 }] }) =
      .next t) :=
  ⟨(have _ := by11 (h.1 (wFill {}) 0 0 0 0 0 0 fillEntry) (by unfold State.up; decide +kernel);
    ⟨_, rfl⟩),
    (have _ := by5 (h.2 (wFill { busy := [⟨0, 0, 0, 0, 0, 0⟩] }) _ 0 ⟨0, 0, 0, 0, 0, 0⟩ fillEntry 0 0
      ({ lines := [], scales := [] })) (by unfold State.clear State.up; decide +kernel) (runs_of_only _ (by apply
      Sys2Proof.Machine.readPiece_only) _ (by decide +kernel)) (by decide +kernel);
    ⟨_, rfl⟩)⟩

theorem witness_AdaptersAndBases (h : Obligations.AdaptersAndBases) :
    (∃ t, exec (.adpStage 0 0) (wAdp 1) = .next t) ∧
    (∃ t, exec (.adpPublish 0 0 1 2) (wAdp 1) = .next t) ∧
    (∃ t, exec (.adpWithdraw 0 0 1 2) (wAdp 2) = .next t) ∧
    (∃ t, exec (.adpDrop 0 0 1 2) (wAdp 1) = .next t) ∧
    (∃ t, exec (.baseDiscard 0 0) (wBase 2) = .next t) ∧
    (∃ t, exec (.baseDiscard 0 0) (wBase 5) = .next t) ∧
    (∃ t, exec (.baseCutoverStage 0 0) (wBase 2) = .next t) ∧
    (∃ t, exec (.baseRetire 0) (wBase 4) = .next t) :=
  ⟨(have _ := by6 (h.1.1 (wAdp 1) 0 0 1 0x30001) (by unfold Admits; decide +kernel);
    ⟨_, rfl⟩),
    (have _ := by3 ((h.1.2 (wAdp 1) 0 0 1 2 0 (by decide +kernel)).1) (by unfold Admits; decide +kernel);
    ⟨_, rfl⟩),
    (have _ := by3 ((h.1.2 (wAdp 2) 0 0 1 2 0 (by decide +kernel)).2.1) (by unfold Admits; decide +kernel);
    ⟨_, rfl⟩),
    (have _ := by2 ((h.1.2 (wAdp 1) 0 0 1 2 0 (by decide +kernel)).2.2) (by unfold Admits; decide +kernel);
    ⟨_, rfl⟩),
    (have _ := by2 (h.2.1 (wBase 2) 0 0) (by unfold Admits; decide +kernel);
    ⟨_, rfl⟩),
    (have _ := by2 (h.2.1 (wBase 5) 0 0) (by unfold Admits; decide +kernel);
    ⟨_, rfl⟩),
    (have _ := by3 (h.2.2.1 (wBase 2) 0 0) (by unfold Admits; decide +kernel);
    ⟨_, rfl⟩),
    (have _ := by3 (h.2.2.2 (wBase 4) 0) (by unfold State.up; decide +kernel);
    ⟨_, rfl⟩)⟩

theorem witness_LinksComeUp (h : Obligations.LinksComeUp) :
    (∃ t, exec (.portEnable 0 8 true) wReq = .next t) ∧
    (∃ t, exec (.portEnable 0 0 false) (wPort 0 2 { txq := [flit0] }) = .next t) ∧
    (∃ t, exec (.linkTrainPass 0 257) (wPort 0 1 { replay := [{ seq := 3, flit := flit0, sentAt := 0 }], txSeq := 4 }) =
      .next t) ∧
    (∃ t, exec (.linkTrainPass 0 257) (wPort 0 3 { replay := [{ seq := 3, flit := flit0, sentAt := 0 }], txSeq := 4 }) =
      .next t) ∧
    (∃ t, exec (.linkTrainTimeout 0) (wPort 0 3 { }) = .next t) ∧
    (∃ t, exec (.linkTrainTimeout 0) wLate = .next t) ∧
    (∃ t, exec (.linkDelayMeasure 0 10 25 30 55) (wPort 0 2 { }) = .next t) :=
  ⟨(have _ := h.1 wReq 0 8 true ((fun _ _ => by decide +kernel)) ⟨(by decide +kernel), (by decide +kernel)⟩;
    ⟨_, rfl⟩),
    (have _ := h.1 (wPort 0 2 { txq := [flit0] }) 0 0 false ((fun h => by cases h)) ⟨(by decide +kernel),
      (by decide +kernel)⟩;
    ⟨_, rfl⟩),
    (have _ := by2 (h.2.1 (wPort 0 1 { replay := [⟨3, flit0, 0⟩], txSeq := 4 }) 0 0x101)
      (by unfold State.up; decide +kernel);
    ⟨_, rfl⟩),
    (have _ := by2 (h.2.2.1 (wPort 0 3 { replay := [⟨3, flit0, 0⟩], txSeq := 4 }) 0 0x101)
      (by unfold State.up; decide +kernel);
    ⟨_, rfl⟩),
    (have _ := by2 (h.2.2.2.1 (wPort 0 3 {}) 0) (by unfold State.up; decide +kernel);
    ⟨_, rfl⟩),
    (have _ := by2 (h.2.2.2.1 wLate 0) (by unfold State.up; decide +kernel);
    ⟨_, rfl⟩),
    (have _ := by2 (h.2.2.2.2 (wPort 0 2 {}) 0 10 25 30 55) (by unfold State.up; decide +kernel);
    ⟨_, rfl⟩)⟩

theorem witness_FlitsAndLanes (h : Obligations.FlitsAndLanes) :
    (∃ t, exec (.linkFlitRx 0 (goodFlit 3) false) (wPort 0 2 { rxNext := 3 }) = .next t) ∧
    (∃ t, exec (.linkFlitRx 0 [1] false) (wPort 0 3 { }) = .next t) ∧
    (∃ t, exec (.linkFlitRx 0 (goodFlit 3) true) (wPort 0 2 { naked := true }) = .next t) ∧
    (∃ t, exec (.linkNak 0 5) (wSent 0) = .next t) ∧
    (∃ t, exec (.linkNak 0 4) (wSent 0) = .next t) ∧
    (∃ t, exec (.linkNak 0 3) (wSent 99) = .next t) ∧
    (∃ t, exec (.linkReplayTimeout 0) (wSent 0) = .next t) ∧
    (∃ t, exec (.linkReplayTimeout 0) (wSent 99) = .next t) ∧
    (∃ t, exec (.transitFlit 0 true true (leBytes 64 7)) wBoard = .next t) ∧
    (∃ t, exec (.transitFlit 0 false true (leBytes 64 7)) wTransit = .next t) ∧
    (∃ t, exec (.laneFail 0 2) wReq = .next t) ∧
    (∃ t, exec (.laneFail 0 3) (after (wrF (R.PORT_STATUS 0) F.PORT_STATUS.spare_state 2) wReq) = .next t) ∧
    (∃ t, exec (.laneFail 0 8) wReq = .next t) ∧
    (∃ t, exec (.linkManagementRequest 8 7) wReq = .next t) ∧
    (∃ t, exec (.spareSwapDone 0) (wPort 0 2 { swap := some 3 }) = .next t) :=
  ⟨(have _ := by8 (h.1.1 3 4095 4095 8 4095 true ({ flit0 with vl := 7, payload := List.replicate 240 1 }))
      (by decide +kernel);
    have _ := by8 (h.1.1 0 0 0 0 0 false ({ flit0 with vl := 0, cmd := true, payload := List.replicate 240 0 }))
      (by decide +kernel);
    have _ := by6 (h.1.2.1 (wPort 0 2 { rxNext := 3 }) 0 (goodFlit 3) _) (by unfold State.up; decide +kernel) rfl;
    ⟨_, rfl⟩),
    (have _ := by3 (h.1.2.2.1 (wPort 0 3 {}) 0 [1] false) (by unfold State.up; decide +kernel);
    ⟨_, rfl⟩),
    (have _ := by3 (h.1.2.2.1 (wPort 0 2 { naked := true }) 0 (goodFlit 3) true) (by unfold State.up; decide +kernel);
    ⟨_, rfl⟩),
    (have _ := (by2 (h.1.2.2.2.1 (wSent 0) _ 0 5 _) (by unfold State.up; decide +kernel) rfl rfl).1 (by decide +kernel);
    ⟨_, rfl⟩),
    (have _ := by2 ((by2 (h.1.2.2.2.1 (wSent 0) _ 0 4 _) (by unfold State.up; decide +kernel) rfl rfl).2.1)
      (by decide +kernel);
    ⟨_, rfl⟩),
    (have _ := by2 ((by2 (h.1.2.2.2.1 (wSent 99) _ 0 3 _) (by unfold State.up; decide +kernel) rfl rfl).2.2)
      (by decide +kernel);
    ⟨_, rfl⟩),
    (have _ := (by4 (h.1.2.2.2.2.1 (wSent 0) 0 ⟨3, flit0, 0⟩) (by unfold State.up; decide +kernel)).1 (by decide +kernel);
    ⟨_, rfl⟩),
    (have _ := (by4 (h.1.2.2.2.2.1 (wSent 99) 0 ⟨3, flit0, 0⟩) (by unfold State.up; decide +kernel)).2 (by decide +kernel);
    ⟨_, rfl⟩),
    (have _ := by3 (h.1.2.2.2.2.2 wBoard 0 true true (leBytes 64 7) 8 (10, 0)) (by unfold State.up; decide +kernel) ((Or.inl
      ⟨rfl, by decide +kernel, 4, by decide +kernel, by decide +kernel⟩));
    ⟨_, rfl⟩),
    (have _ := by3 (h.1.2.2.2.2.2 wTransit 0 false true (leBytes 64 7) 8 (10, 3)) (by unfold State.up; decide +kernel)
      ((Or.inr ⟨rfl, by decide +kernel⟩));
    ⟨_, rfl⟩),
    (have _ := by3 ((by3 (h.2.1 wReq 0 2) (by unfold State.up; decide +kernel)).1) (by decide +kernel);
    ⟨_, rfl⟩),
    (have _ := by2 ((by3 (h.2.1 (after (wrF (R.PORT_STATUS 0) F.PORT_STATUS.spare_state 2) wReq) 0 3)
      (by unfold State.up; decide +kernel)).2.1) (by decide +kernel);
    ⟨_, rfl⟩),
    (have _ := by3 ((by3 (h.2.1 wReq 0 8) (by unfold State.up; decide +kernel)).2.2) (by decide +kernel);
    ⟨_, rfl⟩),
    (have _ := h.2.2.1 wReq 8 7 ⟨by decide +kernel, by decide +kernel⟩;
    ⟨_, rfl⟩),
    (have _ := by3 (h.2.2.2 (wPort 0 2 { swap := some 3 }) 0 3) (by unfold State.up; decide +kernel);
    ⟨_, rfl⟩)⟩

theorem witness_FabricCommands (h : Obligations.FabricCommands) :
    (∃ t, exec (.quench (rxCmd 17 0 0 (cmdBody 7 1 3))) wFab = .next t) ∧
    (∃ t, exec (.unquench (rxCmd 18 0 0 (cmdBody 7 1 0))) wFab = .next t) ∧
    (∃ t, exec (.drain (rxCmd 19 0 0 (cmdBody 7 1 0))) wFab = .next t) ∧
    (∃ t, exec (.pstop (rxCmd 20 0 0 (cmdBody 7 1 0))) wFab = .next t) ∧
    (∃ t, exec (.quenchExpire 0) wQuenched = .next t) ∧
    (∃ t, exec (.quenchClear 0 (BitVec.ofNat 32 (2 ^ ↑0))) wQuenched = .next t) :=
  ⟨(have _ := by3 (by2 (h.1 wFab _ (rxCmd 0x11 0 0 (cmdBody 7 1 3)) 0 0x11 (.quench (rxCmd 0x11 0 0 (cmdBody 7 1 3)))
      (cmdBody 7 1 3)) (by unfold Receives State.up; decide +kernel) rfl) (by decide +kernel);
    ⟨_, rfl⟩),
    (have _ := by3 (by2 (h.1 wFab _ (rxCmd 0x12 0 0 (cmdBody 7 1 0)) 0 0x12 (.unquench (rxCmd 0x12 0 0 (cmdBody 7 1 0)))
      (cmdBody 7 1 0)) (by unfold Receives State.up; decide +kernel) rfl) (by decide +kernel);
    ⟨_, rfl⟩),
    (have _ := by3 (by2 (h.1 wFab _ (rxCmd 0x13 0 0 (cmdBody 7 1 0)) 0 0x13 (.drain (rxCmd 0x13 0 0 (cmdBody 7 1 0)))
      (cmdBody 7 1 0)) (by unfold Receives State.up; decide +kernel) rfl) (by decide +kernel);
    ⟨_, rfl⟩),
    (have _ := by3 (by2 (h.1 wFab _ (rxCmd 0x14 0 0 (cmdBody 7 1 0)) 0 0x14 (.pstop (rxCmd 0x14 0 0 (cmdBody 7 1 0)))
      (cmdBody 7 1 0)) (by unfold Receives State.up; decide +kernel) rfl) (by decide +kernel);
    ⟨_, rfl⟩),
    (have _ := h.2.1 wFab _ 0 3 0x11 (by decide +kernel) rfl;
    have _ := h.2.1 wFab _ 0 3 0x14 (by decide +kernel) rfl;
    have _ := by5 (h.2.2.1 wQuenched 0 100) (by unfold State.up; decide +kernel);
    ⟨_, rfl⟩),
    (have _ := by3 (h.2.2.2 wQuenched 0 0) (by unfold Admits; decide +kernel);
    ⟨_, rfl⟩)⟩

theorem witness_CopiesAndMirrors (h : Obligations.CopiesAndMirrors) :
    (∃ t, exec (.put (rx 32 (2 ^ 48 + 36864) (2 * 65536) [1, 2])) wReq = .next t) ∧
    (∃ t, exec (.putEnd (rx 33 0 (2 * 65536 + 1) [])) (wTake [0] true) = .next t) ∧
    (∃ t, exec (.putEnd (rx 33 0 (2 * 65536 + 1) [])) (wTake [] false) = .next t) ∧
    (∃ t, exec (.putEnd (rx 33 0 (2 * 65536 + 1) [])) (wTake [0] false) = .next t) ∧
    (∃ t, exec (.putEnd (rx 33 36864 (2 * 65536 + 1) (leBytes 8 5))) (wTake [0] false) = .next t) ∧
    (∃ t, exec (.putDone (rx 34 0 (2 * 65536 + 1) [])) (wPut none) = .next t) ∧
    (∃ t, exec (.putDone (rx 34 0 (2 * 65536) [])) (wPut none) = .next t) ∧
    (∃ t, exec (.putDone (rx 34 0 (2 * 65536 + 2) [])) (wPut (some 36864)) = .next t) ∧
    (∃ t, exec (.putTimeout 2) (wPut none) = .next t) ∧
    (∃ t, exec (.mirror (rx 48 0 0 [1])) wReq = .next t) ∧
    (∃ t, exec (.mirror (rx 48 4096 0 [1])) wMirror = .next t) ∧
    (∃ t, exec (.mirror (rx 48 0 0 [1])) wMirror = .next t) ∧
    (∃ t, exec (.undefinedPacketDiscard ({ rx 48 0 0 [] with bytes := [1, 2] })) wReq = .next t) :=
  ⟨(have _ := by2 (by2 (h.1.1 wReq _ _ (rx 0x20 (2 ^ 48 + 0x9000) (2 * 65536) [1, 2]) 0 false)
      (by unfold Receives State.up; decide +kernel) rfl) (by decide +kernel) (runs_of_only _ (by apply
      Sys2Proof.Machine.placeWrite_only) _ (by decide +kernel));
    ⟨_, rfl⟩),
    (have _ := (by3 (by2 (h.1.2.1 (wTake [0] true) _ (rx 0x21 0 (2 * 65536 + 1) []) 0 2 1 ⟨5, 0, 2, [0], true⟩)
      (by unfold Receives State.up; decide +kernel) rfl) (by decide +kernel) _ rfl).1 (by decide +kernel);
    ⟨_, rfl⟩),
    (have _ := by2 ((by3 (by2 (h.1.2.1 (wTake [] false) _ (rx 0x21 0 (2 * 65536 + 1) []) 0 2 1 ⟨5, 0, 2, [], false⟩)
      (by unfold Receives State.up; decide +kernel) rfl) (by decide +kernel) _ rfl).2.1) (by decide +kernel);
    ⟨_, rfl⟩),
    (have _ := by3 ((by3 (by2 (h.1.2.1 (wTake [0] false) _ (rx 0x21 0 (2 * 65536 + 1) []) 0 2 1 ⟨5, 0, 2, [0], false⟩)
      (by unfold Receives State.up; decide +kernel) rfl) (by decide +kernel) _ rfl).2.2.1) (by decide +kernel);
    ⟨_, rfl⟩),
    (have _ := by3 ((by3 (by2 (h.1.2.1 (wTake [0] false) _ (rx 0x21 0x9000 (2 * 65536 + 1) (leBytes 8 5)) 0 2 1 ⟨5, 0, 2,
      [0], false⟩) (by unfold Receives State.up; decide +kernel) rfl) (by decide +kernel) _ rfl).2.2.2) (by decide +kernel)
      false _ (runs_of_only _ (by apply Sys2Proof.Machine.placeWrite_only) _ (by decide +kernel));
    ⟨_, rfl⟩),
    (have _ := (by2 (h.1.2.2.1 (wPut none) _ (rx 0x22 0 (2 * 65536 + 1) []) 0 (put0 none))
      (by unfold Receives State.up; decide +kernel) rfl (by decide +kernel)).1 (by decide +kernel);
    ⟨_, rfl⟩),
    (have _ := by2 ((by2 (h.1.2.2.1 (wPut none) _ (rx 0x22 0 (2 * 65536) []) 0 (put0 none))
      (by unfold Receives State.up; decide +kernel) rfl (by decide +kernel)).2.1) (by decide +kernel);
    ⟨_, rfl⟩),
    (have _ := by2 ((by2 (h.1.2.2.1 (wPut (some 0x9000)) _ (rx 0x22 0 (2 * 65536 + 2) []) 0 (put0 (some 0x9000)))
      (by unfold Receives State.up; decide +kernel) rfl (by decide +kernel)).2.2 0x9000) (by decide +kernel);
    ⟨_, rfl⟩),
    (have _ := by4 (h.1.2.2.2 (wPut none) 2 (put0 none)) (by unfold State.up; decide +kernel);
    ⟨_, rfl⟩),
    (have _ := (by2 (h.2.1 wReq _ (rx 0x30 0 0 [1]) 0) (by unfold Receives State.up; decide +kernel) rfl).1
      (by decide +kernel);
    ⟨_, rfl⟩),
    (have _ := by2 ((by2 (h.2.1 wMirror _ (rx 0x30 4096 0 [1]) 0) (by unfold Receives State.up; decide +kernel) rfl).2.1
      mirrorWord) (by decide +kernel);
    ⟨_, rfl⟩),
    (have _ := by4 ((by2 (h.2.1 wMirror _ (rx 0x30 0 0 [1]) 0) (by unfold Receives State.up; decide +kernel) rfl).2.2 _
      mirrorWord 0 0 0 4096 _ 0 0) (by decide +kernel) rfl ((runs_of_only _ (mirrorDo_only _ _ _ _ _ _ _ _) _
      (by decide +kernel))) (by decide +kernel);
    ⟨_, rfl⟩),
    (have _ := by3 (h.2.2 wReq ({ rx 0x30 0 0 [] with bytes := [1, 2] }) .badCrc) (by unfold State.up; decide +kernel) ((fun
      q h => by cases h));
    ⟨_, rfl⟩)⟩

theorem witness_BoardAccesses (h : Obligations.BoardAccesses) :
    (∃ t, exec (.boardLoad 1 (BitVec.ofNat 64 (2 ^ 40 + 2 ^ 32 + 36864)) 8 false) wBoard = .next t) ∧
    (∃ t, exec (.boardStore 1 (BitVec.ofNat 64 (2 ^ 45 + 36864)) 8 false 5) wBoard = .next t) ∧
    (∃ t, exec (.boardStore 1 (BitVec.ofNat 64 (4 * 2 ^ 41)) 8 false 5) wBoard = .next t) ∧
    (∃ t, exec (.bld (rx 40 0 8 [])) wBoard = .next t) ∧
    (∃ t, exec (.bst (rx 41 0 8 (leBytes 8 5))) wReq = .next t) ∧
    (∃ t, exec (.brsp (rx 42 0 0 (leBytes 8 5))) (wAwait false) = .next t) :=
  ⟨(have _ := by2 ((by5 (h.1 wBoard 1 (BitVec.ofNat 64 (2 ^ 40 + 2 ^ 32 + 0x9000)) 8 false 0 (.boardLoad 1 (BitVec.ofNat 64
      (2 ^ 40 + 2 ^ 32 + 0x9000)) 8 false) 0) (by unfold State.clear State.up; decide +kernel)).1 _ (List.replicate 8 0))
      (by decide +kernel) (runs_of_only _ (by apply Sys2Proof.Machine.boardDo_only) _ (by decide +kernel));
    ⟨_, rfl⟩),
    (have _ := by2 ((by5 (h.1 wBoard 1 (BitVec.ofNat 64 (2 ^ 45 + 0x9000)) 8 true 5 (.boardStore 1 (BitVec.ofNat 64 (2 ^ 45 +
      0x9000)) 8 false 5) 0) (by unfold State.clear State.up; decide +kernel)).1 _ []) (by decide +kernel) (runs_of_only _
      (by apply Sys2Proof.Machine.boardDo_only) _ (by decide +kernel));
    ⟨_, rfl⟩),
    (have _ := by5 ((by5 (h.1 wBoard 1 (BitVec.ofNat 64 (4 * 2 ^ 41)) 8 true 5 (.boardStore 1 (BitVec.ofNat 64 (4 * 2 ^ 41))
      8 false 5) 0) (by unfold State.clear State.up; decide +kernel)).2 4 7) (by decide +kernel);
    ⟨_, rfl⟩),
    (have _ := (by2 (by6 (h.2.1 wBoard _ (rx 0x28 0 8 []) false 0x28 8 (.bld (rx 0x28 0 8 [])) (some 0))
      (by unfold State.clear State.up; decide +kernel) rfl) (by decide +kernel)).2 _ (List.replicate 8 0)
      (by decide +kernel) (runs_of_only _ (by apply Sys2Proof.Machine.boardDo_only) _ (by decide +kernel));
    ⟨_, rfl⟩),
    (have _ := (by2 (by6 (h.2.1 wReq _ (rx 0x29 0 8 (leBytes 8 5)) true 0x29 8 (.bst (rx 0x29 0 8 (leBytes 8 5))) (some 0))
      (by unfold State.clear State.up; decide +kernel) rfl) (by decide +kernel)).1 2 (by decide +kernel);
    ⟨_, rfl⟩),
    (have _ := by2 (h.2.2 (wAwait false) _ (rx 0x2A 0 0 (leBytes 8 5)) (some 0) (boardReq false) ⟨⟨by decide +kernel,
      by decide +kernel⟩, ⟨(by decide +kernel), ⟨(by decide +kernel), (by decide +kernel)⟩⟩⟩ rfl) (by decide +kernel);
    ⟨_, rfl⟩)⟩

theorem witness_Collectives (h : Obligations.Collectives) :
    (∃ t, exec (.allreduce 0) (wCol (colEntry 1 0) []) = .next t) ∧
    (∃ t, exec (.reduceScatter 0) (wCol (colEntry 2 0) []) = .next t) ∧
    (∃ t, exec (.allgather 0) (wCol (colEntry 3 0) []) = .next t) ∧
    (∃ t, exec (.broadcast 0) (wCol (colEntry 4 2) []) = .next t) ∧
    (∃ t, exec (.colReady 0 0) (wCol [] [col0 (colEntry 4 2)]) = .next t) ∧
    (∃ t, exec (.colOut (rx 66 (7 * 2 ^ 32) 0 (List.replicate 64 0))) (wCol [] [col0 colLong]) = .next t) ∧
    (∃ t, exec (.colResend (rx 68 (7 * 2 ^ 32) 0 (leBytes 4 0))) (wCol [] [{ col0 colLong with sent := some 0 }]) = .next t)
      ∧
    (∃ t, exec (.colDone (rx 69 (7 * 2 ^ 32) 0 (leBytes 32 1))) (wCol [] [col0 colLong]) = .next t) ∧
    (∃ t, exec (.colTimeout 0 0) (wCol [] [col0 colLong]) = .next t) ∧
    (∃ t, exec (.colAbort 0 0) (wCol [] [col0 colLong]) = .next t) :=
  ⟨(have _ := by11 (h.1.1 (wCol (colEntry 1 0) []) 0 1 0 (.allreduce 0) (colEntry 1 0) (col0' 1 0))
      (by unfold State.clear State.up; decide +kernel);
    ⟨_, rfl⟩),
    (have _ := by11 (h.1.1 (wCol (colEntry 2 0) []) 0 2 0 (.reduceScatter 0) (colEntry 2 0) (col0' 2 0))
      (by unfold State.clear State.up; decide +kernel);
    ⟨_, rfl⟩),
    (have _ := by11 (h.1.1 (wCol (colEntry 3 0) []) 0 3 0 (.allgather 0) (colEntry 3 0) (col0' 3 0))
      (by unfold State.clear State.up; decide +kernel);
    ⟨_, rfl⟩),
    (have _ := by11 (h.1.1 (wCol (colEntry 4 2) []) 0 4 0 (.broadcast 0) (colEntry 4 2) (col0' 4 2))
      (by unfold State.clear State.up; decide +kernel);
    ⟨_, rfl⟩),
    (have _ := by7 (h.1.2 (wCol [] [col0 (colEntry 4 2)]) 0 0 0 64 (col0 (colEntry 4 2)))
      (by unfold State.clear State.up; decide +kernel);
    ⟨_, rfl⟩),
    (have _ := by8 (by2 (h.2.1 (wCol [] [col0 colLong]) _ _ (rx 0x42 (7 * 2 ^ 32) 0 (List.replicate 64 0)) 0 0 0 none (col0
      colLong)) (by unfold Receives State.up; decide +kernel) rfl) (by decide +kernel) (runs_of_only _ (by apply
      Sys2Proof.Machine.spWrite_only) _ (by decide +kernel));
    ⟨_, rfl⟩),
    (have _ := by5 (by2 (h.2.2.1 (wCol [] [{ col0 colLong with sent := some 0 }]) _ (rx 0x44 (7 * 2 ^ 32) 0 (leBytes 4 0)) 0
      0 ({ col0 colLong with sent := some 0 })) (by unfold Receives State.up; decide +kernel) rfl) (by decide +kernel);
    ⟨_, rfl⟩),
    (have _ := by6 (by2 (h.2.2.2.1 (wCol [] [col0 colLong]) _ (rx 0x45 (7 * 2 ^ 32) 0 (leBytes 32 1)) 0 0 (col0 colLong)
      (leBytes 32 1)) (by unfold Receives State.up; decide +kernel) rfl) (by decide +kernel);
    ⟨_, rfl⟩),
    (have _ := by4 (h.2.2.2.2.1 (wCol [] [col0 colLong]) 0 0 (col0 colLong)) (by unfold State.up; decide +kernel);
    ⟨_, rfl⟩),
    (have _ := h.2.2.2.2.2 (wCol [] [col0 colLong]) 0 0 ⟨(by decide +kernel), (by decide +kernel)⟩;
    ⟨_, rfl⟩)⟩

theorem witness_CallsAndAccesses (h : Obligations.CallsAndAccesses) :
    (∃ t, exec (.hayCallAct 0) (wCall (desc [(0, 1), (2, 1)])) = .next t) ∧
    (∃ t, exec (.hayCallExtend 0) (wCall (desc [(0, 2), (8, 15), (16, 36864)])) = .next t) ∧
    (∃ t, exec (.coreMemoryAccess 1 18691697709056 8 false 0) wReq = .next t) ∧
    (∃ t, exec (.coreMemoryAccess 1 18691697709056 8 true 5) wReq = .next t) ∧
    (∃ t, exec (.coreMemoryAccess 1 18691697737728 8 true 5) wReq = .next t) ∧
    (∃ t, exec (.partitionStop 0 0) w1 = .next t) :=
  ⟨(have _ := by4 ((by3 (h.1 (wCall (desc [(0, 1), (2, 1)])) 0 (desc [(0, 1), (2, 1)]))
      (by unfold State.clear State.up; decide +kernel)).1) (by decide +kernel);
    ⟨_, rfl⟩),
    (have _ := by3 ((by3 (h.1 (wCall (desc [(0, 2), (8, 15), (16, 0x9000)])) 0 (desc [(0, 2), (8, 15), (16, 0x9000)]))
      (by unfold State.clear State.up; decide +kernel)).2.1 _ (List.replicate 48 0)) (by decide +kernel) (runs_of_only _ (by
      apply Sys2Proof.Machine.spRead_only) _ (by decide +kernel));
    ⟨_, rfl⟩),
    (have _ := (by2 ((by5 (h.2.1 wReq 1 0x110000009000 8 false 0 0 0 0x9000) (by decide +kernel)).2) (by decide +kernel)).1
      (List.replicate 8 0) _ rfl (runs_of_only _ (by apply Sys2Proof.Machine.spRead_only) _ (by decide +kernel));
    ⟨_, rfl⟩),
    (have _ := (by2 ((by5 (h.2.1 wReq 1 0x110000009000 8 true 5 0 0 0x9000) (by decide +kernel)).2) (by decide +kernel)).2 _
      rfl (runs_of_only _ (by apply Sys2Proof.Machine.spWrite_only) _ (by decide +kernel));
    ⟨_, rfl⟩),
    (have _ := (by5 (h.2.1 wReq 1 0x110000010000 8 true 5 0 0 0x10000) (by decide +kernel)).1 6 (by decide +kernel);
    ⟨_, rfl⟩),
    (have _ := by4 (h.2.2 w1 0 0) (by unfold Admits; decide +kernel);
    ⟨_, rfl⟩)⟩

theorem witness_SecurityActs (h : Obligations.SecurityActs) :
    (∃ t, exec (.decommission 0 0 36864) (wSec [4] 1 { }) = .next t) ∧
    (∃ t, exec (.floorCommit 0 1 36864) (wSec [4] 1 { }) = .next t) ∧
    (∃ t, exec (.floorCommit 0 0 36864) (wSec [7] 0 { running := [(7, 3)] }) = .next t) ∧
    (∃ t, exec (.ownerKeyInstall 0 0 36864) (wSec [] 0 { }) = .next t) ∧
    (∃ t, exec (.ownerKeyRemove 0 0 36864) (wSec [] 0 { ownerKeys := [(1, List.replicate 1984 0)] }) = .next t) ∧
    (∃ t, exec (.secReport 0 0 36864) (wSec [] 0 { }) = .next t) ∧
    (∃ t, exec (.provision 0 0 36864) (wSec [1] 0 { }) = .next t) ∧
    (∃ t, exec (.claim 0 0 36864) (wSec [2] 1 { }) = .next t) ∧
    (∃ t, exec (.lifecycleRelease 0 0 36864) (wSec [3, 1] 2 { }) = .next t) ∧
    (∃ t, exec (.decommission 0 0 36864) (wSec [4] 1 { }) = .next t) ∧
    (∃ t, exec (.debug 0 0 36864) (wSec [5, 1] 2 { }) = .next t) ∧
    (∃ t, exec (.mgmtCommand 2 (mgmt 1 [])) wMgt = .next t) ∧
    (∃ t, exec (.attestReq (mgmt 2 [])) wMgt = .next t) ∧
    (∃ t, exec (.grant (mgmt 4 [])) wMgt = .next t) ∧
    (∃ t, exec (.ownerKey (mgmt 5 [])) wMgt = .next t) ∧
    (∃ t, exec (.powerCap (mgmt 6 (leBytes 8 2100))) wMgt1 = .next t) :=
  ⟨(have _ := (h.1 (wSec [4] 1 {}) 0 0x9000 (by decide +kernel)).1 4 4 0 (.decommission 0 0 0x9000) (by decide +kernel)
      ((fun _ => Or.inl ⟨rfl, by decide +kernel⟩)) ⟨(by decide +kernel), (by decide +kernel)⟩;
    ⟨_, rfl⟩),
    (have _ := (h.1 (wSec [4] 1 {}) 0 0x9000 (by decide +kernel)).1 1 0 1 (.floorCommit 0 1 0x9000) (by decide +kernel) ((fun
      h => absurd h (by decide))) ⟨(by decide +kernel), (by decide +kernel)⟩;
    ⟨_, rfl⟩),
    (have _ := by2 (by2 ((h.1 (wSec [7] 0 { running := [(7, 3)] }) 0 0x9000 (by decide +kernel)).2.1)
      (by unfold Admits; decide +kernel) 7) (by decide +kernel);
    ⟨_, rfl⟩),
    (have _ := by3 ((h.1 (wSec [] 0 {}) 0 0x9000 (by decide +kernel)).2.2.1) (by unfold Admits; decide +kernel);
    ⟨_, rfl⟩),
    (have _ := by2 (by2 ((h.1 (wSec [] 0 { ownerKeys := [(1, List.replicate 1984 0)] }) 0 0x9000
      (by decide +kernel)).2.2.2.1) (by unfold Admits; decide +kernel) (List.replicate 1984 0)) (by decide +kernel);
    ⟨_, rfl⟩),
    (have _ := by2 (by2 ((h.1 (wSec [] 0 {}) 0 0x9000 (by decide +kernel)).2.2.2.2.1) (by unfold Admits; decide +kernel) _
      rfl) (by decide +kernel);
    ⟨_, rfl⟩),
    (have _ := by7 (by2 ((h.1 (wSec [1] 0 {}) 0 0x9000 (by decide +kernel)).2.2.2.2.2) (by unfold Admits; decide +kernel) _
      rfl 1 1 false (.provision 0 0 0x9000) {}) (by decide +kernel);
    ⟨_, rfl⟩),
    (have _ := by6 (by2 ((h.1 (wSec [2] 1 {}) 0 0x9000 (by decide +kernel)).2.2.2.2.2) (by unfold Admits; decide +kernel)
      claimBytes (rfl) 2 2 false (.claim 0 0 0x9000) ({ operator := some (lcDigest claimBytes) }) ((List.mem_cons_of_mem _
      (List.mem_cons.2 (.inl (congrArg (fun x => (2, false, 2, Instr.claim 0 0 0x9000,
      ({ x with operator := some (lcDigest claimBytes) } : SecX))) (show ({} : SecX) = (wSec [2] 1 {}).sec from
      by decide +kernel))))))) (by decide +kernel);
    ⟨_, rfl⟩),
    (have _ := by7 (by2 ((h.1 (wSec [3, 1] 2 {}) 0 0x9000 (by decide +kernel)).2.2.2.2.2) (by unfold Admits; decide +kernel)
      _ rfl 3 1 true (.lifecycleRelease 0 0 0x9000) ({ ownerKeys := [] })) (by decide +kernel);
    ⟨_, rfl⟩),
    (have _ := by7 (by2 ((h.1 (wSec [4] 1 {}) 0 0x9000 (by decide +kernel)).2.2.2.2.2) (by unfold Admits; decide +kernel) _
      rfl 4 3 false (.decommission 0 0 0x9000) ({ helper := false })) (by decide +kernel);
    ⟨_, rfl⟩),
    (have _ := by7 (by2 ((h.1 (wSec [5, 1] 2 {}) 0 0x9000 (by decide +kernel)).2.2.2.2.2) (by unfold Admits; decide +kernel)
      _ rfl 5 2 true (.debug 0 0 0x9000) {}) (by decide +kernel);
    ⟨_, rfl⟩),
    (have _ := (by3 (h.2 wMgt _ (mgmt 1 [])) (by decide +kernel) rfl _ rfl).1 2 (by decide +kernel);
    ⟨_, rfl⟩),
    (have _ := (by3 (h.2 wMgt _ (mgmt 2 [])) (by decide +kernel) rfl _ rfl).2.1 (by decide +kernel);
    ⟨_, rfl⟩),
    (have _ := (by3 (h.2 wMgt _ (mgmt 4 [])) (by decide +kernel) rfl _ rfl).2.2.1 (by decide +kernel);
    ⟨_, rfl⟩),
    (have _ := (by3 (h.2 wMgt _ (mgmt 5 [])) (by decide +kernel) rfl _ rfl).2.2.2.1 (by decide +kernel);
    ⟨_, rfl⟩),
    (have _ := (by3 (h.2 wMgt1 _ (mgmt 6 (leBytes 8 2100))) (by decide +kernel) rfl _ rfl).2.2.2.2 (by decide +kernel);
    ⟨_, rfl⟩)⟩

theorem witness_PowerActs (h : Obligations.PowerActs) :
    (∃ t, exec .vfStep wWalk = .next t) ∧
    (∃ t, exec (.curbEdge 3) w0 = .next t) ∧
    (∃ t, exec .dividerRelease wDivided = .next t) ∧
    (∃ t, exec .capGuard wCap = .next t) ∧
    (∃ t, exec .capGuard wCapFloor = .next t) ∧
    (∃ t, exec (.stageFail 9) wStage = .next t) ∧
    (∃ t, exec .vinLow w0 = .next t) ∧
    (∃ t, exec .vinRecover w0 = .next t) ∧
    (∃ t, exec .vinLoss w0 = .next t) :=
  ⟨(have _ := by3 (h.1.1 wWalk) (by unfold State.up; decide +kernel);
    ⟨_, rfl⟩),
    (have _ := by3 (h.1.2.1 w0 3) (by decide +kernel);
    ⟨_, rfl⟩),
    (have _ := by2 (h.1.2.2 wDivided 0) (by unfold State.up; decide +kernel);
    ⟨_, rfl⟩),
    (have _ := (by3 (h.2.1 wCap) (by unfold State.up; decide +kernel)).1 ((⟨0, by decide +kernel⟩));
    ⟨_, rfl⟩),
    (have _ := by2 ((by3 (h.2.1 wCapFloor) (by unfold State.up; decide +kernel)).2) (by decide +kernel);
    ⟨_, rfl⟩),
    (have _ := h.2.2.1 wStage 9 ⟨by decide +kernel, by decide +kernel⟩;
    ⟨_, rfl⟩),
    (have _ := by3 (h.2.2.2.1 w0) (by unfold State.up; decide +kernel);
    ⟨_, rfl⟩),
    (have _ := h.2.2.2.2.1 w0 ⟨by decide +kernel, by decide +kernel⟩;
    ⟨_, rfl⟩),
    (have _ := h.2.2.2.2.2 w0 (by decide +kernel);
    ⟨_, rfl⟩)⟩

theorem witness_HeatAndEnergy (h : Obligations.HeatAndEnergy) :
    (∃ t, exec (.droop 5 3) w0 = .next t) ∧
    (∃ t, exec (.thermalSample 3 [(155, 2400)]) w0 = .next t) ∧
    (∃ t, exec .thermalTrip w0 = .next t) ∧
    (∃ t, exec (.energySample 500000 [] 48000) w0 = .next t) :=
  ⟨(have _ := h.1 w0 5 3 ⟨by decide +kernel, by decide +kernel⟩;
    ⟨_, rfl⟩),
    (have _ := by5 (h.2.1 w0 3 155 2400) (by unfold State.up; decide +kernel);
    ⟨_, rfl⟩),
    (have _ := by2 (h.2.2.1 w0) (by unfold State.up; decide +kernel);
    ⟨_, rfl⟩),
    (have _ := by2 (h.2.2.2 w0 500000 [] 48000) (by decide +kernel);
    ⟨_, rfl⟩)⟩

theorem witness_Resets (h : Obligations.Resets) :
    (∃ t, exec (.tileReset 0 0) wTile = .next t) ∧
    (∃ t, exec (.partitionReset 0 0) wReq = .next t) ∧
    (∃ t, exec (.snapshotCopyDone 0) wSnap = .next t) ∧
    (∃ t, exec (.snapshotCopyDone 1) wSnap1 = .next t) ∧
    (∃ t, exec (.warmReset 0 { }) w0 = .next t) ∧
    (∃ t, exec (.coldPackageReset 0 { rails := false }) w0 = .next t) ∧
    (∃ t, exec (.vinMainValid { }) wOff = .next t) :=
  ⟨(have _ := by2 (h.1.1 wTile 0 0) (by unfold Admits; decide +kernel) (wTile_part);
    ⟨_, rfl⟩),
    (have _ := h.1.2.1 wReq 0 0 ⟨(by decide +kernel), (by decide +kernel)⟩;
    ⟨_, rfl⟩),
    (have _ := by2 (h.1.2.2 wSnap _ 0 snap0 _ _) (by unfold State.clear State.up; decide +kernel) rfl rfl rfl;
    ⟨_, rfl⟩),
    (have _ := by2 (h.1.2.2 wSnap1 _ 1 snap1 _ _) (by unfold State.clear State.up; decide +kernel) rfl rfl rfl;
    ⟨_, rfl⟩),
    (have _ := h.2.1 w0 _ 0 {} ⟨(by decide +kernel), ⟨rfl, ⟨(by decide +kernel), (by decide +kernel)⟩⟩⟩;
    ⟨_, rfl⟩),
    (have _ := h.2.2.1 w0 _ 0 ({ rails := false }) ⟨(by decide +kernel), ⟨rfl, ⟨(by decide +kernel), (by decide +kernel)⟩⟩⟩;
    ⟨_, rfl⟩),
    (have _ := h.2.2.2 wOff {};
    ⟨_, rfl⟩)⟩

theorem witness_SuppliesAndClocks (h : Obligations.SuppliesAndClocks) :
    (∃ t, exec (.strapSample 1535) (State.reset) = .next t) ∧
    (∃ t, exec .vstbyLoss w0 = .next t) ∧
    (∃ t, exec (.refclkLoss 2) wNet = .next t) ∧
    (∃ t, exec (.refclkLoss 5) wNet = .next t) ∧
    (∃ t, exec (.refclkLoss 6) wNet = .next t) ∧
    (∃ t, exec (.refclkLoss 7) wNet = .next t) :=
  ⟨(have _ := h.1 State.reset 0x5FF (by decide +kernel);
    ⟨_, rfl⟩),
    (have _ := h.2.1 w0;
    ⟨_, rfl⟩),
    (have _ := by2 ((h.2.2 wNet 2 (by decide +kernel)).1 11) (by decide +kernel);
    ⟨_, rfl⟩),
    (have _ := (h.2.2 wNet 5 (by decide +kernel)).2.1 (by decide +kernel);
    ⟨_, rfl⟩),
    (have _ := (h.2.2 wNet 6 (by decide +kernel)).2.2.1 (by decide +kernel);
    ⟨_, rfl⟩),
    (have _ := (h.2.2 wNet 7 (by decide +kernel)).2.2.2 (by decide +kernel);
    ⟨_, rfl⟩)⟩

theorem witness_SidePorts (h : Obligations.SidePorts) :
    (∃ t, exec (.i3cWordRead 64) w0 = .next t) ∧
    (∃ t, exec (.entdaa 9) wI3c = .next t) ∧
    (∃ t, exec (.setdasa 80 9) w0 = .next t) ∧
    (∃ t, exec .rstdaa wI3c = .next t) ∧
    (∃ t, exec .enec wI3c = .next t) ∧
    (∃ t, exec .bypass w0 = .next t) ∧
    (∃ t, exec (.mgtPortEnable 0 1 true) w0 = .next t) ∧
    (∃ t, exec (.arpRequest 0 64) wMgt = .next t) ∧
    (∃ t, exec (.pauseFrame 5 64) wMgt = .next t) ∧
    (∃ t, exec (.mgtFrameDrop 64) w0 = .next t) :=
  ⟨(have _ := h.1.1 w0 0x40;
    ⟨_, rfl⟩),
    (have _ := (h.1.2.1 w0).2 7 (by decide +kernel);
    have _ := h.1.2.2.1 wI3c 9;
    ⟨_, rfl⟩),
    (have _ := h.1.2.2.2.1 w0 0x50 9;
    ⟨_, rfl⟩),
    (have _ := h.1.2.2.2.2.1 wI3c;
    ⟨_, rfl⟩),
    (have _ := h.1.2.2.2.2.2.2 wI3c;
    ⟨_, rfl⟩),
    (have _ := h.2.1 w0 5 7;
    ⟨_, rfl⟩),
    (have _ := h.2.2.1 w0 0 1 true ⟨(by decide +kernel), (by decide +kernel)⟩;
    ⟨_, rfl⟩),
    (have _ := (by3 (h.2.2.2.1 wMgt 64) (by decide +kernel) _ rfl).1 0;
    ⟨_, rfl⟩),
    (have _ := (by3 (h.2.2.2.1 wMgt 64) (by decide +kernel) _ rfl).2.2.1 5;
    ⟨_, rfl⟩),
    (have _ := by2 (h.2.2.2.2 w0 64 0 0 0 (.mgtFrameDrop 64)) (by decide +kernel);
    ⟨_, rfl⟩)⟩

theorem witness_SameCommandBothPaths (h : Obligations.SameCommandBothPaths) :
    (∃ t, exec (.quench (rxCmd 17 0 0 (cmdBody 7 1 3))) wFab = .next t) ∧
    (∃ t, exec (.mgmtCommand 2 (mgmt 1 [])) wMgt = .next t) :=
  ⟨(have _ := by2 (h.1 wFab (rxCmd 0x11 0 0 (cmdBody 7 1 3)) 0x11 (.quench (rxCmd 0x11 0 0 (cmdBody 7 1 3))))
      (by unfold Receives State.up; decide +kernel);
    ⟨_, rfl⟩),
    (have _ := by4 (h.2.1 wMgt _ 2 (mgmt 1 [])) (by decide +kernel) rfl;
    have _ := by2 (h.2.2 wFab _ 0 1 0x11 (cmdBody 7 1 3)) (by decide +kernel) rfl;
    ⟨_, rfl⟩)⟩

theorem witness_GivenTensorScale (h : Obligations.GivenTensorScale) :
    (∃ t, exec (.registerWrite 0 (BitVec.ofNat 64 (R.TILE_QS_TSCALE ↑0 ↑15)) 8 2130706432) w1 = .next t) ∧
    (∃ t, exec (.registerWrite 0 (BitVec.ofNat 64 (R.TILE_QS_TSCALE ↑0 ↑15)) 8 2139095040) w1 = .next t) :=
  ⟨(have _ := h.1 w0 0 15 0 (by decide +kernel);
    have _ := by2 (h.2 w1 0 0 15 0x7F000000) (by unfold Admits; decide +kernel);
    ⟨_, rfl⟩),
    (have _ := by2 (h.2 w1 0 0 15 0x7F800000) (by unfold Admits; decide +kernel);
    ⟨_, rfl⟩)⟩

theorem witness_CommandsKeepToTheirFields (h : Obligations.CommandsKeepToTheirFields) : ∃ t, exec .clamp w0 = .next t :=
  have _ := h .clamp w0;
  ⟨_, rfl⟩

theorem witness_FloorsNeverFall (h : Obligations.FloorsNeverFall) : ∃ t, step w2 = .next t :=
  have _ := h w2 _ rfl;
  ⟨_, rfl⟩

/-- The call for a report: nonce at hub byte 0x9000, the report to 0x10. -/
def reportCall : List Byte := desc [(0, 3), (8, 0x9000), (16, 0x10)]

theorem witness_CallsAndAccesses_3 (h : Obligations.CallsAndAccesses) : ∃ t, exec (.hayCallReport 0) (wCall reportCall) = .next t :=
  let ⟨v, r, _⟩ := runs_spWrite_hub (s := wCall reportCall) 0 0 0x10 ((wCall reportCall).report 1 (List.replicate 32 0) (some 0) [])
    (by decide +kernel)
  have ⟨t, e, _⟩ := (h.1 (wCall reportCall) 0 reportCall (by unfold State.clear State.up; decide +kernel) (by decide +kernel)
    (by decide +kernel)).2.2 (wCall reportCall) v (List.replicate 32 0) (by decide +kernel)
    (runs_of_only _ (by apply spRead_only) _ (by decide +kernel)) r
  ⟨t, e⟩

/-- A key request for the manifest's shard: nonce at hub byte 0x9000, the report to 0x10; a release blob at 0x9000. -/
def keyAsk : List Byte := desc [(0, 3), (4, 3), (16, 0x9000), (24, 0x10)]
def keyBlob : List Byte := desc [(0, 4), (4, 3), (16, 0x9000)]
def keyReq0 : KeyReq := { num := 0, part := 0, digest := List.replicate 48 0, shard := 0, priv := 9, since := 0 }

def wAsk : State := wLoads keyAsk { mans := [man0] }
def wAsk' : State := ldqTaken wAsk 0
def wAsked : State := (Upd.free (wAsk'.free + 1)).apply wAsk'

def askNonce : List Byte := wAsk'.memBytes (2 ^ 36 + 0x9000) 32

theorem keyAskRuns : Runs (do
    let n ← spRead ingressSrc (0 : PartId) (refSpace (leAddr keyAsk)) (refAddr (leAddr keyAsk)) 32
    let k ← freshNat
    pure (n, k)) wAsk' (.ok askNonce, Config.freeNat wAsk'.free) wAsked :=
  (runs_spRead_hub ingressSrc (0 : PartId) 0x9000 32 (by decide +kernel)).bind
    (Runs.bind (t := wAsked) (x := Config.freeNat wAsk'.free) (fun _ => rfl) (Runs.pure _ _))

theorem witness_WeightLoads_3 (h : Obligations.WeightLoads) : ∃ t, exec (.keyRequest 0) wAsk = .next t :=
  let ⟨v, r, _⟩ := runs_spWrite_hub (s := wAsked) ingressSrc (0 : PartId) 0x10 (wAsked.report 2 askNonce none
    (man0.digest ++ leBytes 4 0 ++ leBytes 8 1 ++ leBytes 1216 (Config.kemPublic (Config.freeNat wAsk'.free)))) (by decide +kernel)
  ⟨_, (h.1.2.2.1) wAsk wAsked v 0 0 keyAsk askNonce _ man0 (Config.freeNat wAsk'.free)
    (by unfold LoadFront State.clear State.up; decide +kernel) (by decide +kernel) (by decide +kernel) (by decide +kernel) (by decide +kernel) keyAskRuns rfl r⟩

/-- The digest function is opaque; the digest is taken to be 0. -/
theorem witness_WeightLoads_5 (h : Obligations.WeightLoads) (hd : man0.digest = List.replicate 48 0) :
    ∃ t, exec (.keyInstall 0) (wLoads keyBlob { mans := [man0], reqs := [keyReq0] }) = .next t :=
  ⟨_, h.1.2.2.2.2 (wLoads keyBlob { mans := [man0], reqs := [keyReq0] }) _ 0 0 0 keyBlob (List.replicate 1220 0) man0 keyReq0
    (by unfold LoadFront State.clear State.up; decide +kernel) (by decide +kernel) (by decide +kernel)
    (runs_of_only _ (by apply spRead_only) _ (by decide +kernel)) (by rw [hd]; decide +kernel) (by decide +kernel)⟩

/-- Key slot 5 holds a shard that can be served: it lies at GDDR7 byte 0. -/
def servedKey : KeySlot := { key0 with dest := some (0, 0) }
def wServes : State := wLoads [] { mans := [man0], keys := [servedKey] }
def askServed : RxPacket := rx 0x38 0 0 (List.replicate 64 0)

theorem servedSlot (hd : man0.digest = List.replicate 48 0) :
    (received wServes askServed).peerSlot (bytesAt (pkBody askServed.bytes) 0 48) (numAt (pkBody askServed.bytes) 48 4) = some servedKey := by
  have e : (received wServes askServed).man servedKey.mslot = some man0 := by decide +kernel
  have b : bytesAt (pkBody askServed.bytes) 0 48 = List.replicate 48 0 := by decide +kernel
  unfold State.peerSlot
  rw [show (received wServes askServed).load.keys = [servedKey] from by decide +kernel, b, List.find?_cons]
  simp only [e, hd]
  decide +kernel

/-- As above. -/
theorem witness_ChunksOverTheWire_9 (h : Obligations.ChunksOverTheWire) (hd : man0.digest = List.replicate 48 0) :
    ∃ t, exec (.peerReq askServed) wServes = .next t :=
  ⟨_, (h.2.1 wServes (received wServes askServed) askServed 0 (by decide +kernel)
    (by unfold Receives State.up; decide +kernel) rfl).2 _ servedKey man0 0 0 (List.replicate 64 0) _ (servedSlot hd) (by decide +kernel) (by decide +kernel)
    (by decide +kernel) (runs_of_only _ (by apply gRead_only) _ (by decide +kernel)) rfl⟩

end Sys2Proof.Tests
end

section
/-! # The register window: rows, fields, and writes that the common checks let go on -/

namespace Sys2Proof.Machine

/-! ## Pages by number -/

theorem pageOf_eq_some {a : Nat} {b : Block} {p : Nat} (h : pageOf a = some (b, p)) :
    b.base ≤ a ∧ a < b.base + b.pages * 0x1000 ∧ p = (a - b.base) / 0x1000 := by
  obtain ⟨c, hc, e⟩ := Option.map_eq_some_iff.1 h
  obtain ⟨rfl, rfl⟩ := Prod.mk.inj e
  have hb := List.find?_some hc
  obtain ⟨h1, h2⟩ := of_decide_eq_true hb
  exact ⟨h1, h2, rfl⟩

/-- A window page of a block is a page of that block, and starts where it starts. -/
theorem winPage_eq_pageBase {n : Nat} {b : Block} {p : Nat} (h : pageOf (winPage n) = some (b, p)) :
    p < b.pages ∧ winPage n = pageBase b p := by
  obtain ⟨h1, h2, rfl⟩ := pageOf_eq_some h
  unfold winPage pageBase at *
  cases b <;> simp only [Block.base, Block.pages] at * <;> omega

theorem pageBase_tile_of_tilePage? {n q : Nat} (h : tilePage? (winPage n) = some q) : pageBase .tile q = winPage n := by
  unfold tilePage? at h
  split at h
  · next hb =>
    obtain rfl := Option.some.inj h
    unfold winPage pageBase at *
    simp only [Block.base] at *
    omega
  · exact absurd h (by simp)

theorem regA_lt {b : Block} {p off : Nat} (hp : p < b.pages) (ho : off < 0x1000) : regA b p off < 2 ^ 64 := by
  unfold regA pageBase
  cases b <;> simp only [Block.base, Block.pages] at * <;> omega

theorem toNat_regA {b : Block} {p off : Nat} (hp : p < b.pages) (ho : off < 0x1000) :
    (BitVec.ofNat 64 (regA b p off)).toNat = regA b p off := by
  rw [BitVec.toNat_ofNat, Nat.mod_eq_of_lt (regA_lt hp ho)]

theorem rowOf_regA {b : Block} {p off : Nat} (hp : p < b.pages) (ho : off < 0x1000) {r : RegRow} {i : Nat}
    (h : slotAt b p off = .reg r i) : rowOf (regA b p off) = some r := by
  unfold rowOf
  rw [pageOf_regA b p off hp ho]
  simp only [regA_sub, h]

/-! ## What a write at once makes of a field -/

theorem testBit_compl64 {m : Nat} (hm : m < 2 ^ 64) {i : Nat} (hi : i < 64) : (2 ^ 64 - 1 - m).testBit i = !m.testBit i := by
  rw [Nat.sub_sub, Nat.add_comm, Nat.testBit_two_pow_sub_succ hm, decide_eq_true hi, Bool.true_and]

/-- A bit of merged words is the new word's under the mask, the old one's elsewhere. -/
theorem testBit_mergeBits (old v : Nat) {m : Nat} (hm : m < 2 ^ 64) {i : Nat} (hi : i < 64) :
    (mergeBits old v m).testBit i = if m.testBit i then v.testBit i else old.testBit i := by
  unfold mergeBits
  rw [Nat.testBit_or, Nat.testBit_and, Nat.testBit_and, testBit_compl64 hm hi]
  cases m.testBit i <;> simp

/-- The bits of a row that a write replaces where every field takes its value at once (R10). -/
def RegRow.writable (r : RegRow) : Nat := r.mask (fun a => a = .rw || a = .hw || a = .wo || a.isStaged)

/-- The bits of a row that a 1 clears (R10). -/
def RegRow.clearing (r : RegRow) : Nat := r.mask (fun a => a = .w1c)

theorem written_eq (r : RegRow) (old v : Word) : r.written old v true =
    BitVec.ofNat 64 (mergeBits old.toNat v.toNat r.writable &&& (2 ^ 64 - 1 - (v.toNat &&& r.clearing))) := rfl

/-- A field whose bits are all writable and not of the clearing kind takes the written value. -/
theorem getFld_written {r : RegRow} (old v : Word) (f : Fld) (hf : f.hi < 64) (hw : r.writable < 2 ^ 64)
    (hb : ∀ i, f.lo ≤ i → i ≤ f.hi → r.writable.testBit i = true ∧ r.clearing.testBit i = false) :
    getFld (r.written old v true) f = getFld v f := by
  rw [written_eq]
  unfold getFld
  apply Nat.eq_of_testBit_eq
  intro i
  rw [testBit_bits, testBit_bits]
  by_cases hi : i < f.hi + 1 - f.lo
  · obtain ⟨hm, hc⟩ := hb (f.lo + i) (by omega) (by omega)
    have h64 : f.lo + i < 64 := by omega
    have hx : v.toNat &&& r.clearing < 2 ^ 64 := lt_of_le_of_lt Nat.and_le_left v.isLt
    rw [BitVec.toNat_ofNat, Nat.testBit_mod_two_pow, Nat.testBit_and, testBit_mergeBits _ _ hw h64, testBit_compl64 hx h64,
      Nat.testBit_and, hm, hc]
    simp [h64]
  · simp [hi]

theorem getFld_written_bit {r : RegRow} (old v : Word) {f : Fld} (hf : f.hi = f.lo ∧ f.lo < 64) (hw : r.writable < 2 ^ 64)
    (hm : r.writable.testBit f.lo = true) (hc : r.clearing.testBit f.lo = false) :
    getFld (r.written old v true) f = getFld v f :=
  getFld_written old v f (by omega) hw fun i h1 h2 => by
    obtain rfl : i = f.lo := by omega
    exact ⟨hm, hc⟩

/-! ## A field put into a register -/

theorem fldOf_put_self (s : State) (a : Nat) (f : Fld) (n : Nat) (h : f.lo ≤ f.hi ∧ f.hi < 64) :
    ((Upd.reg a (putFld (s.reg a) f n)).apply s).fldOf a f = n % 2 ^ (f.hi + 1 - f.lo) := by
  rw [fldOf_upd_self, getFld_putFld_self _ _ _ h.1 h.2]

theorem fldOf_put_ne (s : State) (a : Nat) (f g : Fld) (n : Nat) (h : f.lo ≤ f.hi ∧ f.hi < 64)
    (hd : f.hi < g.lo ∨ g.hi < f.lo) : ((Upd.reg a (putFld (s.reg a) f n)).apply s).fldOf a g = s.fldOf a g := by
  rw [fldOf_upd_self, getFld_putFld_ne _ _ _ _ h.1 h.2 hd]
  rfl

theorem fldOf_bit_mod_two (s : State) (a : Nat) (f : Fld) (h : f.hi = f.lo) : s.fldOf a f % 2 = s.fldOf a f :=
  Nat.mod_eq_of_lt (lt_of_lt_of_eq (getFld_lt _ f) (by rw [h]; simp))

/-! ## Writes that only store -/

/-- A register without tick-staged fields takes the value at once, and nothing else comes of storing it (R63). -/
theorem runs_storeReg {a : Nat} {r : RegRow} (h : rowOf a = some r) (hst : r.staged = false) (v : Word) (s : State) :
    Runs (storeReg a v) s () ((Upd.reg a (r.written (s.reg a) v true)).apply s) := by
  have hw : Runs (plainWrite a v) s () ((Upd.reg a (r.written (s.reg a) v true)).apply s) := by
    unfold plainWrite
    simp only [h, hst]
    exact fun _ => rfl
  unfold storeReg
  refine (Runs.rd _ s).bind (hw.bind ((Runs.rd _ _).bind ?_))
  split
  · simp only [h, hst]
    exact Runs.pure _ _
  · exact Runs.pure _ _

theorem runs_stored {a : Nat} {r : RegRow} (h : rowOf a = some r) (hst : r.staged = false) (v : Word) (s : State) :
    Runs (stored a v) s none ((Upd.reg a (r.written (s.reg a) v true)).apply s) :=
  (runs_storeReg h hst v s).bind (Runs.pure _ _)

/-- What an accepted write of a common register leaves: its effect, a good answer, and nothing more but a milestone. -/
theorem answered_busWriteX_common {x : BusX} {core a : Nat} {v : Word} {b : Block} {p : Nat} {s t : State}
    (ha : Admits s core a v) (hpg : pageOf a = some (b, p)) (hb : b ≠ .dbl) (ho : a - pageBase b p < 0x100)
    (h : Runs (commonWrite (s.coreIssuer core) b p (pageBase b p) (a - pageBase b p) v) s none t) :
    Answered t (Act.run (busWriteX x core a 8 v) s) := by
  obtain ⟨hs, hr⟩ := ha
  have e : Act.run (busWriteX x core a 8 v) s = Act.run (answer 0 >>= fun _ => milestonesCheck) t := by
    unfold busWriteX
    rw [run_coreActs _ _ _ hs, run_get_bind]
    cases b
    case dbl => exact absurd rfl hb
    all_goals
      simp only [hpg, hr, ho, if_true]
      exact run_bind_of_runs s h _
  rw [e, run_answer_bind]
  have q := milestonesCheck_only.run ((Upd.resp { reason := 0, data := BitVec.ofNat 64 0 }).apply t)
  exact ⟨(SameBut.upd (.resp _) t rfl).trans (q.mono (by decide)), q.2 .resp (by decide)⟩

/-! ## What an answered write leaves -/

theorem Answered.reg {t u : State} (h : Answered t u) (a : Nat) : u.reg a = t.reg a := reg_congr (h.1.2 .regs (by decide)) a

theorem Answered.fldOf {t u : State} (h : Answered t u) (a : Nat) (f : Fld) : u.fldOf a f = t.fldOf a f :=
  fldOf_congr (h.1.2 .regs (by decide)) a f

theorem Answered.regsBut {l : List Nat} {s t u : State} (h : Answered t u) (g : RegsBut l s t) : RegsBut l s u :=
  fun a ha => (h.reg a).trans (g a ha)

theorem Answered.sameBut {s t u : State} (h : Answered t u) (g : SameBut [.regs] s t) :
    SameBut [.regs, .resp, .land, .sent] s u :=
  (g.mono (by decide)).trans (h.1.mono (by decide))

theorem regsBut_upd_reg (a : Nat) (v : Word) (s : State) : RegsBut [a] s ((Upd.reg a v).apply s) :=
  fun b hb => reg_upd_ne s a v b (by simpa using hb)

theorem RegsBut.trans {l : List Nat} {s t u : State} (h : RegsBut l s t) (g : RegsBut l t u) : RegsBut l s u :=
  fun a ha => (g a ha).trans (h a ha)

theorem RegsBut.mono {l m : List Nat} {s t : State} (h : RegsBut l s t) (hl : ∀ a, a ∈ l → a ∈ m) : RegsBut m s t :=
  fun a ha => h a (fun hc => ha (hl a hc))

theorem RegsBut.fldOf {l : List Nat} {s t : State} (h : RegsBut l s t) {a : Nat} (ha : a ∉ l) (f : Fld) :
    t.fldOf a f = s.fldOf a f := by
  unfold State.fldOf
  rw [h a ha]

/-- An answered write that came to one register taking a value. -/
theorem Answered.put {a : Nat} {w : Word} {s u : State} (h : Answered ((Upd.reg a w).apply s) u) :
    u.resp = { reason := 0, data := 0 } ∧ u.reg a = w ∧ RegsBut [a] s u ∧ SameBut [.regs, .resp, .land, .sent] s u :=
  ⟨h.2, (h.reg a).trans (reg_upd_self s a w), h.regsBut (regsBut_upd_reg a w s), h.sameBut (SameBut.upd _ s rfl)⟩

end Sys2Proof.Machine
end

section
/-! # Pages in and out of service (R14, R16, R48) -/

namespace Sys2Proof.Machine

/-! ## The rows of PAGE_CTRL and PAGE_LOCK -/

/-- PAGE_CTRL is plain, and a write puts its enable and quiesce bits there. -/
theorem pageCtrl_row {b : Block} {p : Nat} (hp : p < b.pages) : ∃ r, rowOf (regA b p 0x10) = some r ∧ r.staged = false ∧
    ∀ old v, getFld (r.written old v true) F.PAGE_CTRL.enable = getFld v F.PAGE_CTRL.enable ∧
      getFld (r.written old v true) F.PAGE_CTRL.quiesce = getFld v F.PAGE_CTRL.quiesce := by
  refine ⟨_, rowOf_regA hp (by decide) rfl, ?_, fun old v => ⟨getFld_written_bit old v (by decide) ?_ ?_ ?_,
    getFld_written_bit old v (by decide) ?_ ?_ ?_⟩⟩
  all_goals cases b <;> decide

/-- PAGE_LOCK is plain, and a write puts its lock bit there. -/
theorem pageLock_row {b : Block} {p : Nat} (hp : p < b.pages) : ∃ r, rowOf (regA b p 0x28) = some r ∧ r.staged = false ∧
    ∀ old v, getFld (r.written old v true) F.PAGE_LOCK.lock = getFld v F.PAGE_LOCK.lock :=
  ⟨_, rowOf_regA hp (by decide) rfl, rfl, fun old v =>
    getFld_written_bit old v (by decide) (by decide) (by decide) (by decide)⟩

/-! ## PAGE_STATUS -/

/-- PAGE_STATUS shows `en` and `q` as enabled and quiesced, and no other register has changed since `s`. -/
structure StatusShows (pb : Nat) (s t : State) (en q : Nat) : Prop where
  others : RegsBut [pb + 0x18] s t
  enabled : t.fldOf (pb + 0x18) F.PAGE_STATUS.enabled = en
  quiesced : t.fldOf (pb + 0x18) F.PAGE_STATUS.quiesced = q

theorem StatusShows.refl (pb : Nat) (s : State) : StatusShows pb s s (s.fldOf (pb + 0x18) F.PAGE_STATUS.enabled)
    (s.fldOf (pb + 0x18) F.PAGE_STATUS.quiesced) := ⟨fun _ _ => rfl, rfl, rfl⟩

theorem StatusShows.put_enabled {pb : Nat} {s t : State} {en q : Nat} (h : StatusShows pb s t en q) (n : Nat) :
    StatusShows pb s ((Upd.reg (pb + 0x18) (putFld (t.reg (pb + 0x18)) F.PAGE_STATUS.enabled n)).apply t) (n % 2) q :=
  ⟨h.others.trans (regsBut_upd_reg _ _ _), fldOf_put_self _ _ _ _ (by decide),
    (fldOf_put_ne _ _ _ _ _ (by decide) (by decide)).trans h.quiesced⟩

theorem StatusShows.put_quiesced {pb : Nat} {s t : State} {en q : Nat} (h : StatusShows pb s t en q) (n : Nat) :
    StatusShows pb s ((Upd.reg (pb + 0x18) (putFld (t.reg (pb + 0x18)) F.PAGE_STATUS.quiesced n)).apply t) en (n % 2) :=
  ⟨h.others.trans (regsBut_upd_reg _ _ _), (fldOf_put_ne _ _ _ _ _ (by decide) (by decide)).trans h.enabled,
    fldOf_put_self _ _ _ _ (by decide)⟩

theorem StatusShows.put_state {pb : Nat} {s t : State} {en q : Nat} (h : StatusShows pb s t en q) (n : Nat) :
    StatusShows pb s ((Upd.reg (pb + 0x18) (putFld (t.reg (pb + 0x18)) F.PAGE_STATUS.state n)).apply t) en q :=
  ⟨h.others.trans (regsBut_upd_reg _ _ _), (fldOf_put_ne _ _ _ _ _ (by decide) (by decide)).trans h.enabled,
    (fldOf_put_ne _ _ _ _ _ (by decide) (by decide)).trans h.quiesced⟩

/-- What a write of PAGE_CTRL makes of PAGE_STATUS, of a page that the record enables (R14). -/
theorem runs_pageControlled {pb : Nat} {s : State} (hd : s.record.disabled.contains pb = false) :
    ∃ t, Runs (pageControlled pb) s () t ∧ SameBut [.regs] s t ∧
      StatusShows pb s t (s.fldOf (pb + 0x10) F.PAGE_CTRL.enable)
        (if s.fldOf (pb + 0x10) F.PAGE_CTRL.quiesce = 0 then 0 else s.fldOf (pb + 0x18) F.PAGE_STATUS.quiesced) := by
  obtain ⟨⟨⟩, t, r, q⟩ := pageControlled_only pb s
  refine ⟨t, r, q, ?_⟩
  have e := r.run_eq
  simp only [pageControlled, run_get_bind, run_ite, hd, run_wrF_bind, Bool.false_eq_true, if_false] at e
  have h1 := (StatusShows.refl pb s).put_enabled (s.fldOf (pb + 0x10) F.PAGE_CTRL.enable)
  rw [fldOf_bit_mod_two _ _ _ rfl] at h1
  by_cases hq : s.fldOf (pb + 0x10) F.PAGE_CTRL.quiesce = 0
  · rw [if_pos hq] at e ⊢
    have h2 := h1.put_quiesced 0
    split at e
    · rw [run_ite, run_wrF] at e
      split at e
      · exact e ▸ h2.put_state 3
      · exact e ▸ h2
    · exact e ▸ h2
  · rw [if_neg hq] at e ⊢
    exact e ▸ h1

/-- QUIESCE_COMPLETE sets quiesced where no work is in hand under quiesce, after an ACTIVE tile went to QUIESCED (R14, R48). -/
theorem run_quiesceComplete {pb : Nat} {s : State} (hd : s.record.disabled.contains pb = false)
    (hq : s.fldOf (pb + 0x10) F.PAGE_CTRL.quiesce = 1) (hf : ∀ q, tilePage? pb = some q → (s.tile q).flights = []) :
    ∃ u, Act.run (quiesceComplete pb) s =
        (Upd.reg (pb + 0x18) (putFld (u.reg (pb + 0x18)) F.PAGE_STATUS.quiesced 1)).apply u ∧
      RegsBut [pb + 0x18] s u ∧ ∀ q, tilePage? pb = some q → u.fldOf (pb + 0x18) F.PAGE_STATUS.state =
        if s.tileState q = 3 then 4 else s.fldOf (pb + 0x18) F.PAGE_STATUS.state := by
  unfold quiesceComplete
  simp only [run_get_bind, hd, hq, Bool.false_or, Nat.one_ne_zero, decide_false, Bool.false_eq_true, if_false]
  cases htp : tilePage? pb with
  | none => exact ⟨s, rfl, fun _ _ => rfl, by simp⟩
  | some q =>
    simp only [run_ite, hf q htp, ne_eq, not_true_eq_false, if_false, Option.some.injEq, forall_eq']
    by_cases h3 : s.tileState q = 3
    · simp only [h3, if_true]
      exact ⟨_, rfl, regsBut_upd_reg _ _ _, fldOf_put_self _ _ _ _ (by decide)⟩
    · simp only [h3, if_false]
      exact ⟨s, rfl, fun _ _ => rfl, rfl⟩

/-! ## Accepted writes of PAGE_CTRL and PAGE_LOCK -/

/-- PAGE_CTRL stores its enable and quiesce bits. -/
theorem runs_storeReg_pageCtrl {b : Block} {p : Nat} (hp : p < b.pages) (v : Word) (s : State) :
    ∃ u, Runs (storeReg (pageBase b p + 0x10) v) s () u ∧ SameBut [.regs] s u ∧ RegsBut [pageBase b p + 0x10] s u ∧
      u.fldOf (pageBase b p + 0x10) F.PAGE_CTRL.enable = getFld v F.PAGE_CTRL.enable ∧
      u.fldOf (pageBase b p + 0x10) F.PAGE_CTRL.quiesce = getFld v F.PAGE_CTRL.quiesce := by
  obtain ⟨r, hrow, hr, hfld⟩ := pageCtrl_row hp
  obtain ⟨hen, hqu⟩ := hfld (s.reg (pageBase b p + 0x10)) v
  exact ⟨_, runs_storeReg hrow hr v s, SameBut.upd _ _ rfl, regsBut_upd_reg _ _ _, (fldOf_upd_self _ _ _ _).trans hen,
    (fldOf_upd_self _ _ _ _).trans hqu⟩

theorem runs_commonWrite_pageCtrl {i : Issuer} {b : Block} {p pb : Nat} {v : Word} {s u t : State}
    (hst : getFld v F.PAGE_CTRL.selftest_start = 0) (h : Runs (storeReg (pb + 0x10) v) s () u)
    (g : Runs (pageControlled pb) u () t) : Runs (commonWrite i b p pb 0x10 v) s none t := by
  unfold commonWrite
  refine (Runs.get s).bind ?_
  simp only [hst, Nat.zero_ne_one, decide_false, Bool.and_false, Bool.false_and, Bool.false_eq_true, if_false]
  exact h.bind (g.bind (Runs.pure _ _))

/-- Setting a lock, or clearing it by the hayward, or leaving it clear, is not refused (R16). -/
theorem runs_commonWrite_pageLock {i : Issuer} {b : Block} {p pb : Nat} {v : Word} {s t : State}
    (hl : i.hay = true ∨ s.fldOf (pb + 0x28) F.PAGE_LOCK.lock = 0 ∨ getFld v F.PAGE_LOCK.lock = 1)
    (h : Runs (stored (pb + 0x28) v) s none t) : Runs (commonWrite i b p pb 0x28 v) s none t := by
  have hn : (!i.hay && decide (s.fldOf (pb + 0x28) F.PAGE_LOCK.lock = 1) &&
      decide (getFld v F.PAGE_LOCK.lock = 0)) = false := by
    rcases hl with hl | hl | hl <;> simp [hl]
  unfold commonWrite
  refine (Runs.get s).bind ?_
  simp only [hn, Bool.false_eq_true, if_false]
  exact h

/-! ## The commands -/

theorem exec_pageCtrlWrite {core : CoreId} {page : Fin 32896} {v : Word} {c : Instr} (s : State)
    (hc : c = .pageEnable core page v ∨ c = .pageQuiesce core page v) :
    exec c s = .next (Act.run (busWriteX {} core (winPage page + 0x10) 8 v) s) := by
  rcases hc with rfl | rfl <;> rfl

theorem exec_pageLockWrite (core : CoreId) (page : Fin 32896) (v : Word) (s : State) :
    exec (.pageLockWrite core page v) s = .next (Act.run (busWriteX {} core (winPage page + 0x28) 8 v) s) := rfl

theorem exec_quiesceComplete (page : Fin 32896) (s : State) :
    exec (.quiesceComplete page) s = .next (Act.run (mains (quiesceComplete (winPage page))) s) := rfl

/-- An accepted write of PAGE_CTRL: PAGE_STATUS.enabled follows it, and clearing quiesce resumes the page (R14). -/
theorem pageCtrlWrite_accepted {x : BusX} {core : Nat} {b : Block} {p : Nat} {v : Word} {s : State} (hp : p < b.pages)
    (hb : b ≠ .dbl) (hd : s.record.disabled.contains (pageBase b p) = false)
    (hst : getFld v F.PAGE_CTRL.selftest_start = 0) (ha : Admits s core (pageBase b p + 0x10) v) :
    ∃ t, Answered t (Act.run (busWriteX x core (pageBase b p + 0x10) 8 v) s) ∧ SameBut [.regs] s t ∧
      RegsBut [pageBase b p + 0x10, pageBase b p + 0x18] s t ∧
      t.fldOf (pageBase b p + 0x10) F.PAGE_CTRL.enable = getFld v F.PAGE_CTRL.enable ∧
      t.fldOf (pageBase b p + 0x10) F.PAGE_CTRL.quiesce = getFld v F.PAGE_CTRL.quiesce ∧
      t.fldOf (pageBase b p + 0x18) F.PAGE_STATUS.enabled = getFld v F.PAGE_CTRL.enable ∧
      t.fldOf (pageBase b p + 0x18) F.PAGE_STATUS.quiesced =
        (if getFld v F.PAGE_CTRL.quiesce = 0 then 0 else s.fldOf (pageBase b p + 0x18) F.PAGE_STATUS.quiesced) := by
  obtain ⟨u, hu, qu, gu, hen, hqu⟩ := runs_storeReg_pageCtrl hp v s
  have hdu : u.record.disabled.contains (pageBase b p) = false := by
    rw [show u.record = s.record from qu.2 .record (by decide), hd]
  obtain ⟨t, ht, qt, gt, hse, hsq⟩ := runs_pageControlled hdu
  refine ⟨t, answered_busWriteX_common ha (pageOf_regA b p 0x10 hp (by decide)) hb (by omega) ?_, qu.trans qt,
    (gu.mono (by simp)).trans (gt.mono (by simp)), ?_, ?_, ?_, ?_⟩
  · rw [Nat.add_sub_cancel_left]
    exact runs_commonWrite_pageCtrl hst hu ht
  · rw [gt.fldOf (by simp), hen]
  · rw [gt.fldOf (by simp), hqu]
  · rw [hse, hen]
  · rw [hsq, hqu, gu.fldOf (by simp)]

/-- An accepted write of PAGE_LOCK puts the written lock bit there (R16). -/
theorem pageLockWrite_accepted {x : BusX} {core : Nat} {b : Block} {p : Nat} {v : Word} {s : State} (hp : p < b.pages)
    (hb : b ≠ .dbl) (ha : Admits s core (pageBase b p + 0x28) v)
    (hl : (s.coreIssuer core).hay = true ∨ s.fldOf (pageBase b p + 0x28) F.PAGE_LOCK.lock = 0 ∨
      getFld v F.PAGE_LOCK.lock = 1) :
    ∃ w, getFld w F.PAGE_LOCK.lock = getFld v F.PAGE_LOCK.lock ∧
      Answered ((Upd.reg (pageBase b p + 0x28) w).apply s) (Act.run (busWriteX x core (pageBase b p + 0x28) 8 v) s) := by
  obtain ⟨r, hrow, hr, hfld⟩ := pageLock_row hp
  refine ⟨_, hfld (s.reg (pageBase b p + 0x28)) v,
    answered_busWriteX_common ha (pageOf_regA b p 0x28 hp (by decide)) hb (by omega) ?_⟩
  rw [Nat.add_sub_cancel_left]
  exact runs_commonWrite_pageLock hl (runs_stored hrow hr v s)

/-- With no work in hand under quiesce the page shows quiesced, and an ACTIVE tile is QUIESCED (R14, R48). -/
theorem quiesceComplete_done {page : Nat} {s t : State} (hs : s.up)
    (hd : s.record.disabled.contains (winPage page) = false) (hq : s.fldOf (winPage page + 0x10) F.PAGE_CTRL.quiesce = 1)
    (hf : ∀ q, tilePage? (winPage page) = some q → (s.tile q).flights = [])
    (ht : Act.run (mains (quiesceComplete (winPage page))) s = t) :
    t.fldOf (winPage page + 0x18) F.PAGE_STATUS.quiesced = 1 ∧
      (∀ q, tilePage? (winPage page) = some q → t.tileState q = if s.tileState q = 3 then 4 else s.tileState q) ∧
      RegsBut [winPage page + 0x18] s t ∧ SameBut [.regs] s t := by
  obtain ⟨hrails, halive⟩ := hs
  rw [run_mains _ _ hrails halive] at ht
  have hsame := (quiesceComplete_only (winPage page)).run s
  obtain ⟨u, e, gu, hst⟩ := run_quiesceComplete hd hq hf
  rw [ht] at e hsame
  subst e
  refine ⟨fldOf_put_self _ _ _ _ (by decide), fun q htq => ?_, gu.trans (regsBut_upd_reg _ _ _), hsame⟩
  unfold State.tileState at *
  rw [pageBase_tile_of_tilePage? htq, fldOf_put_ne _ _ _ _ _ (by decide) (by decide), hst q htq,
    pageBase_tile_of_tilePage? htq]

/-- Settles O11 (it holds): a write of PAGE_CTRL or PAGE_LOCK that the checks let go on stores its bits, PAGE_STATUS
follows PAGE_CTRL, and QUIESCE_COMPLETE sets quiesced. -/
theorem pagesInAndOutOfService : Obligations.PagesInAndOutOfService := by
  unfold Obligations.PagesInAndOutOfService
  refine ⟨fun s core page b p v hpg hb hd hst ha c hc => ?_, fun s core page b p v hpg hb ha hl => ?_,
    fun s page hs hd hq hf => ?_⟩
  · obtain ⟨hp, e⟩ := winPage_eq_pageBase hpg
    rw [e] at hd ha ⊢
    obtain ⟨t, h, q, g, hen, hqu, hse, hsq⟩ := pageCtrlWrite_accepted (x := {}) hp hb hd hst ha
    exact ⟨_, e ▸ exec_pageCtrlWrite s hc, h.2, (h.fldOf _ _).trans hen, (h.fldOf _ _).trans hqu, (h.fldOf _ _).trans hse,
      (h.fldOf _ _).trans hsq, h.regsBut g, h.sameBut q⟩
  · obtain ⟨hp, e⟩ := winPage_eq_pageBase hpg
    rw [e] at ha hl ⊢
    obtain ⟨w, hw, h⟩ := pageLockWrite_accepted (x := {}) hp hb ha hl
    obtain ⟨hresp, hreg, g, q⟩ := h.put
    refine ⟨_, e ▸ exec_pageLockWrite core page v s, hresp, ?_, g, q⟩
    rw [State.fldOf, hreg, hw]
  · exact ⟨_, exec_quiesceComplete page s, quiesceComplete_done hs hd hq hf rfl⟩

end Sys2Proof.Machine
end

section
/-! # Plain register accesses (R10, R11, R78, R487) -/

namespace Sys2Proof.Machine

/-! ## Writes of registers that only store -/

theorem onlyStores_ne_dbl {b : Block} {p off : Nat} (h : onlyStores b p off = true) : b ≠ .dbl := by
  rintro rfl
  cases h

/-- The common registers among those that only store. -/
theorem onlyStores_common {b : Block} {p off : Nat} (h : onlyStores b p off = true) (ho : off < 0x100) :
    off = 0x20 ∧ b ≠ .tile ∨ off = 0x38 ∨ off = 0x40 ∨ off = 0x48 := by
  have hn : decide (0x100 ≤ off) = false := decide_eq_false (by omega)
  cases b <;> simp [onlyStores, hn] at h ⊢ <;> omega

/-- The block registers among them, of the pages that have any. -/
theorem onlyStores_block {b : Block} {p off : Nat} (h : onlyStores b p off = true) (ho : 0x100 ≤ off) :
    b = .tim ∧ (p = 0 ∧ off ≠ 0x110 ∨ p = 2) ∨ b = .hay ∧ (p = 0 ∧ off ≠ 0x120 ∨ p = 1 ∨ p = 10) ∨
      b = .prt ∧ (off = 0x108 ∨ off = 0x120 ∨ off = 0x128 ∨ off = 0x130) ∨
      b = .req ∧ p ≠ 0 ∧
        (off = 0x108 ∨ off = 0x128 ∨ off = 0x130 ∨ off = 0x138 ∨ off = 0x148 ∨ 0x180 ≤ off ∧ off < 0x1C0) ∨
      b = .xrt ∧ p < 4 ∨ b = .bin ∧ p < 2 ∨ b = .flc ∧ off ≠ 0x100 ∧ off ≠ 0x310 ∨
      b = .sec ∧ p = 0 ∧ (off = 0x110 ∨ off = 0x148) ∨ b = .mgt ∧ 0x110 ≤ off := by
  have hc : ¬ (off = 0x38 ∨ off = 0x40 ∨ off = 0x48) := by omega
  cases b <;> simp [onlyStores, hc, ho] at h ⊢ <;> omega

theorem runs_storedUnless_false {a : Nat} {v : Word} {s t : State} {bad : Bool} (hb : bad = false)
    (h : Runs (stored a v) s none t) : Runs (storedUnless bad a v) s none t := by
  subst hb
  exact h

theorem runs_commonWrite_onlyStores {i : Issuer} {b : Block} {p pb off : Nat} {v : Word} {s t : State}
    (h : onlyStores b p off = true) (ho : off < 0x100) (hr : Runs (stored (pb + off) v) s none t) :
    Runs (commonWrite i b p pb off v) s none t := by
  rcases onlyStores_common h ho with ⟨rfl, hb⟩ | rfl | rfl | rfl
  · exact (Runs.get s).bind (runs_storedUnless_false (decide_eq_false hb) hr)
  all_goals exact (Runs.get s).bind hr

theorem runs_timWrite_stores {p off : Nat} {v : Word} {s t : State} (h : p = 0 ∧ off ≠ 0x110 ∨ p = 2)
    (hr : Runs (stored (pageBase .tim p + off) v) s none t) : Runs (timWrite p off v) s none t := by
  unfold timWrite
  refine (Runs.get s).bind ?_
  dsimp only
  split
  case h_6 => exact hr
  all_goals omega

theorem runs_hayWrite_stores {p off : Nat} {v : Word} {s t : State} (h : p = 0 ∧ off ≠ 0x120 ∨ p = 1 ∨ p = 10)
    (hr : Runs (stored (pageBase .hay p + off) v) s none t) : Runs (hayWrite p off v) s none t := by
  unfold hayWrite
  refine (Runs.get s).bind ?_
  split
  case h_3 => exact hr
  all_goals omega

theorem runs_prtWrite_stores {p off : Nat} {v : Word} {s t : State}
    (h : off = 0x108 ∨ off = 0x120 ∨ off = 0x128 ∨ off = 0x130)
    (hr : Runs (stored (pageBase .prt p + off) v) s none t) : Runs (prtWrite p off v) s none t := by
  rcases h with rfl | rfl | rfl | rfl <;> exact (Runs.get s).bind hr

theorem runs_flcWrite_stores {p off : Nat} {v : Word} {s t : State} (h : off ≠ 0x100 ∧ off ≠ 0x310)
    (hr : Runs (stored (pageBase .flc p + off) v) s none t) : Runs (flcWrite p off v) s none t := by
  unfold flcWrite
  refine (Runs.get s).bind ?_
  dsimp only
  split
  case h_3 => exact hr
  all_goals omega

theorem runs_binWrite_stores {p off : Nat} {v : Word} {s t : State} (h : p < 2)
    (hr : Runs (stored (pageBase .bin p + off) v) s none t) : Runs (binWrite p off v) s none t := by
  unfold binWrite
  refine (Runs.get s).bind ?_
  rw [if_pos (by omega)]
  exact hr

theorem runs_reqWrite_stores {x : BusX} {q off : Nat} {v : Word} {s t : State}
    (h : off = 0x108 ∨ off = 0x128 ∨ off = 0x130 ∨ off = 0x138 ∨ off = 0x148 ∨ 0x180 ≤ off ∧ off < 0x1C0)
    (hr : Runs (stored (pageBase .req (1 + q) + off) v) s none t) : Runs (reqWrite x q off v) s none t := by
  unfold reqWrite
  refine (Runs.get s).bind ?_
  dsimp only
  split
  case h_11 => rw [if_neg (by omega)]; exact hr
  all_goals omega

/-- A write of a block register that only stores comes to storing it. -/
theorem runs_blockWrite_onlyStores {x : BusX} {b : Block} {p off : Nat} {v : Word} {s t : State}
    (h : onlyStores b p off = true) (ho : 0x100 ≤ off) (hs : Runs (storeReg (pageBase b p + off) v) s () t) :
    Runs (blockWrite x b p off v) s none t := by
  have hr : Runs (stored (pageBase b p + off) v) s none t := hs.bind (Runs.pure _ _)
  rcases onlyStores_block h ho with ⟨rfl, hc⟩ | ⟨rfl, hc⟩ | ⟨rfl, hc⟩ | ⟨rfl, hp, hc⟩ | ⟨rfl, hc⟩ | ⟨rfl, hc⟩ |
    ⟨rfl, hc⟩ | ⟨rfl, hp, hc⟩ | ⟨rfl, hc⟩
  · exact runs_timWrite_stores hc hr
  · exact runs_hayWrite_stores hc hr
  · exact runs_prtWrite_stores hc hr
  · obtain ⟨q, rfl⟩ : ∃ q, p = 1 + q := ⟨p - 1, by omega⟩
    rw [blockWrite_req]
    exact runs_reqWrite_stores hc hr
  · simp only [blockWrite, if_pos hc]
    exact hr
  · exact runs_binWrite_stores hc hr
  · exact runs_flcWrite_stores hc hr
  · simp only [blockWrite, show ¬ p = 1 by omega, false_and, if_false]
    exact hs.bind ((Runs.rd _ _).bind (Runs.pure _ _))
  · simp only [blockWrite, show ¬ off = 0x100 by omega, and_false, if_false]
    exact hr

/-- A write that the checks let go on, of a register that only stores: it takes the value, and nothing else changes. -/
theorem answered_write_onlyStores {x : BusX} {core : Nat} {b : Block} {p off : Nat} {v : Word} {r : RegRow} {s : State}
    (hp : p < b.pages) (ho : off < 0x1000) (h : onlyStores b p off = true) (hr : rowOf (regA b p off) = some r)
    (hst : r.staged = false) (ha : Admits s core (regA b p off) v) :
    Answered ((Upd.reg (regA b p off) (r.written (s.reg (regA b p off)) v true)).apply s)
      (Act.run (busWriteX x core (regA b p off) 8 v) s) := by
  have hb := onlyStores_ne_dbl h
  have hpg := pageOf_regA b p off hp ho
  by_cases hc : off < 0x100
  · refine answered_busWriteX_common ha hpg hb (by rwa [regA_sub]) ?_
    rw [regA_sub]
    exact runs_commonWrite_onlyStores h hc (runs_stored hr hst v s)
  · refine busWriteX_done x core _ 8 v b p s _ ha.1 hpg hb ha.2 (by rwa [regA_sub]) ?_
    rw [regA_sub]
    exact runs_blockWrite_onlyStores h (by omega) (runs_storeReg hr hst v s)

/-! ## Reads -/

/-- The words of a page that show something beside their register: slots, contexts, tables, measurements. -/
def ShowsBeside : Block → Nat → Nat → Prop
  | .tile, _, off => off = 0x608 ∨ off = 0x708
  | .hay, p, off => p = 9 ∧ (off = 0x108 ∨ off = 0x118)
  | .req, p, off => p ≠ 0 ∧ (0x200 ≤ off ∧ off < 0x280 ∨ 0x288 ≤ off ∧ off < 0x2C8)
  | .sec, p, off => p = 0 ∧ (off = 0x150 ∨ 0x118 ≤ off ∧ off < 0x148)
  | .bin, p, off => p = 2 ∧ (off = 0x118 ∨ 0x120 ≤ off ∧ off < 0x150 ∨ 0x158 ≤ off ∧ off < 0x198)
  | .pwr, p, off => p = 1 ∧ off = 0x130
  | .prt, _, off => off = 0x1C0
  | .xrt, p, off => 4 ≤ p ∧ off = 0x128
  | _, _, _ => False

/-- Of every other register a page shows the value, with the write-only fields as 0 (R10). -/
theorem readView_plain {s : State} {b : Block} {p off : Nat} {r : RegRow} (h : ¬ ShowsBeside b p off)
    (hr : rowOf (regA b p off) = some r) :
    s.readView b p off = .ok (mergeBits (s.reg (regA b p off)).toNat 0 (r.mask (fun c => c = .wo))) := by
  unfold regA at *
  unfold State.readView
  simp only [hr]
  cases b <;> dsimp only [ShowsBeside] at h ⊢
  case tile =>
    split
    case h_3 => rfl
    all_goals omega
  case hay =>
    split
    case h_3 => rfl
    all_goals omega
  case sec =>
    split
    case h_1 => omega
    case h_2 => rw [if_neg (by omega)]
    case h_3 => rfl
  case req =>
    split
    · rfl
    · rw [if_neg (by omega), if_neg (by omega)]
  case bin =>
    split
    · rfl
    · rw [if_neg (by omega), if_neg (by omega), if_neg (by omega)]
  case pwr | prt | xrt => rw [if_neg h]

theorem not_showsBeside_of_onlyStores {b : Block} {p off : Nat} (h : onlyStores b p off = true) :
    ¬ ShowsBeside b p off := by
  rcases lt_or_ge off 0x100 with ho | ho
  · cases b <;> simp only [ShowsBeside, not_false_eq_true] <;> omega
  · rcases onlyStores_block h ho with ⟨rfl, hc⟩ | ⟨rfl, hc⟩ | ⟨rfl, hc⟩ | ⟨rfl, hc⟩ | ⟨rfl, hc⟩ | ⟨rfl, hc⟩ |
      ⟨rfl, hc⟩ | ⟨rfl, hc⟩ | ⟨rfl, hc⟩ <;> simp only [ShowsBeside, not_false_eq_true] <;> omega

theorem mergeBits_zero (old : Word) : mergeBits old.toNat 0 0 = old.toNat := by
  unfold mergeBits
  rw [Nat.zero_and, Nat.or_zero, Nat.sub_zero, Nat.and_two_pow_sub_one_eq_mod, Nat.mod_eq_of_lt old.isLt]

theorem readView_timNow (s : State) : s.readView .tim 0 0x100 = .ok (s.reg R.TIM_NOW).toNat := by
  have h := readView_plain (s := s) (b := .tim) (p := 0) (off := 0x100) (fun h => h) (rowOf_regA (by decide) (by decide) rfl)
  exact h.trans (congrArg Except.ok (mergeBits_zero _))

/-- A read that the checks let go on answers what the page shows; a read of TIM_NOW latches the fraction first (R78). -/
theorem run_busRead_accepted {core a n : Nat} {b : Block} {p : Nat} {s : State} (hs : s.coreUp core = true)
    (hpg : pageOf a = some (b, p)) (hb : b ≠ .dbl) (hr : s.readReason (s.coreIssuer core) a 8 = none)
    (hv : s.readView b p (a - pageBase b p) = .ok n) : Act.run (busRead core a 8) s =
      Act.run (do
        if a = R.TIM_NOW then wrF R.TIM_NOW_FRAC F.TIM_NOW_FRAC.frac (s.time.frac / 2 ^ 16)
        answer n) s := by
  unfold busRead
  rw [run_coreActs _ _ _ hs, run_get_bind]
  cases b
  case dbl => exact absurd rfl hb
  all_goals simp only [hpg, hr, hv]

/-! ## The commands -/

theorem exec_registerWrite (core : CoreId) (addr : BitVec 64) (width : Nat) (v : Word) (s : State) :
    exec (.registerWrite core addr width v) s = .next (Act.run (busWriteX {} core addr.toNat width v) s) := rfl

theorem exec_registerRead (core : CoreId) (addr : BitVec 64) (width : Nat) (s : State) :
    exec (.registerRead core addr width) s = .next (Act.run (busRead core addr.toNat width) s) := rfl

theorem exec_timNowRead (core : CoreId) (s : State) :
    exec (.timNowRead core) s = .next (Act.run (busRead core R.TIM_NOW 8) s) := rfl

theorem plainRegisterAccess : PlainRegisterAccess := by
  refine ⟨fun s core b p off v r hp ho h hr hst ha => ?_, fun s core b p off n hb hp ho hn hs hr hv => ?_,
    fun s b p off r _ _ h hr => readView_plain (not_showsBeside_of_onlyStores h) hr⟩
  · refine ⟨_, exec_registerWrite _ _ _ _ _, ?_⟩
    rw [toNat_regA hp ho]
    exact (answered_write_onlyStores hp ho h hr hst ha).put
  · rw [exec_registerRead, toNat_regA hp ho, run_busRead_accepted hs (pageOf_regA b p off hp ho) hb hr (by rwa [regA_sub]),
      if_neg hn]
    rfl

theorem readingTimeLatchesFraction : ReadingTimeLatchesFraction := by
  intro s core hs hr
  refine ⟨_, exec_timNowRead core s, ?_⟩
  have hpg : pageOf R.TIM_NOW = some (.tim, 0) := pageOf_regA .tim 0 0x100 (by decide) (by decide)
  have hv : s.readView .tim 0 (R.TIM_NOW - pageBase .tim 0) = .ok (s.reg R.TIM_NOW).toNat := readView_timNow s
  rw [run_busRead_accepted hs hpg (by decide) hr hv]
  simp only [if_true, run_wrF_bind, run_answer, BitVec.ofNat_toNat, BitVec.setWidth_eq]
  exact ⟨rfl, fldOf_put_self _ _ _ _ (by decide), regsBut_upd_reg _ _ s, (SameBut.upd _ s rfl).trans (SameBut.upd _ _ rfl)⟩

/-- Settles O42 (it holds): a register that only stores takes a write at once and shows its value, a read answers what the
page shows, and a read of TIM_NOW latches its fraction. -/
theorem registersReadAndWritten : Obligations.RegistersReadAndWritten := ⟨plainRegisterAccess, readingTimeLatchesFraction⟩

end Sys2Proof.Machine
end

section
/-! # Which registers an action can write -/

namespace Sys2Proof.Machine

/-- From every state the action goes on, and a register outside `P` keeps its value. -/
def WritesOnly {α : Type} (P : Nat → Prop) (a : Act α) : Prop :=
  ∀ s, ∃ x t, Runs a s x t ∧ ∀ b, ¬ P b → t.reg b = s.reg b

namespace WritesOnly

variable {α β : Type} {P Q : Nat → Prop} {a b : Act α} {f : α → Act β}

/-- An action that leaves the register store alone. -/
theorem of_only {l : List Field} (h : Only l a) (hl : Field.regs ∉ l) : WritesOnly P a := fun s =>
  let ⟨x, t, r, q⟩ := h s
  ⟨x, t, r, fun c _ => reg_congr (q.2 .regs hl) c⟩

theorem pure {x : α} : WritesOnly P (Pure.pure x : Act α) := of_only (Only.pure [] x) (by decide)
theorem get : WritesOnly P Act.get := of_only (Only.get []) (by decide)
theorem rd {g : State → α} : WritesOnly P (rd g) := of_only (Only.rd [] g) (by decide)
theorem rdR {r : Nat} : WritesOnly P (rdR r) := rd
theorem rdF {r : Nat} {g : Fld} : WritesOnly P (rdF r g) := rd

theorem wrR {r : Nat} (h : P r) {v : Word} : WritesOnly P (wrR r v) := fun s =>
  ⟨(), _, Runs.upd _ _, fun c hc => reg_upd_ne s r v c (fun e => hc (e ▸ h))⟩

theorem bind (h : WritesOnly P a) (g : ∀ x, WritesOnly P (f x)) : WritesOnly P (a >>= f) := fun s =>
  let ⟨x, t, r, q⟩ := h s
  let ⟨y, u, r', q'⟩ := g x t
  ⟨y, u, r.bind r', fun c hc => (q' c hc).trans (q c hc)⟩

/-- A read, followed by an action that is good for what the read finds in any state. -/
theorem rd_bind {g : State → α} (h : ∀ s, WritesOnly P (f (g s))) : WritesOnly P (Machine.rd g >>= f) := fun s =>
  let ⟨x, t, r, q⟩ := h s s
  ⟨x, t, (Runs.rd g s).bind r, q⟩

theorem ite {c : Prop} [Decidable c] (h : WritesOnly P a) (g : WritesOnly P b) : WritesOnly P (if c then a else b) := by
  split <;> assumption

theorem forIn {xs : List β} {y : α} {g : β → α → Act (ForInStep α)} (h : ∀ x y, WritesOnly P (g x y)) :
    WritesOnly P (ForIn.forIn xs y g) := by
  induction xs generalizing y with
  | nil => exact pure
  | cons x xs ih =>
    rw [List.forIn_cons]
    refine bind (h x y) fun r => ?_
    cases r with
    | done z => exact pure
    | yield z => exact ih

variable {a : Act Unit}

theorem reg (h : WritesOnly P a) (s : State) {r : Nat} (hr : ¬ P r) : (Act.run a s).reg r = s.reg r :=
  let ⟨_, _, e, q⟩ := h s
  e.run_eq ▸ q r hr

theorem fldOf (h : WritesOnly P a) (s : State) {r : Nat} (hr : ¬ P r) (g : Fld) : (Act.run a s).fldOf r g = s.fldOf r g :=
  congrArg (getFld · g) (h.reg s hr)

theorem regsBut {l : List Nat} (h : WritesOnly (· ∈ l) a) (s : State) : RegsBut l s (Act.run a s) := fun _ hr => h.reg s hr

end WritesOnly

theorem Only.runs {l : List Field} {a : Act Unit} (h : Only l a) (s : State) : Runs a s () (Act.run a s) :=
  let ⟨_, _, r, _⟩ := h s
  r.run_eq ▸ r

/-- One action after another is one run after another. -/
theorem Only.run_bind {l : List Field} {a : Act Unit} (h : Only l a) (f : Unit → Act Unit) (s : State) :
    Act.run (a >>= f) s = Act.run (f ()) (Act.run a s) := run_bind_of_runs s (h.runs s) f

/-! ## Fields, interrupts and faults -/

variable {P : Nat → Prop}

theorem wrF_writes {a : Nat} (h : P a) {f : Fld} {n : Nat} : WritesOnly P (wrF a f n) := .bind .rdR fun _ => .wrR h

theorem addF_writes {a : Nat} (h : P a) {f : Fld} {n : Nat} : WritesOnly P (addF a f n) := .bind .rdF fun _ => wrF_writes h

theorem setIrq_writes {pb : Nat} (h : P (pb + 0x40)) {i : Nat} : WritesOnly P (setIrq pb i) := .bind .rdR fun _ => .wrR h

theorem setPageFault_writes {pb : Nat} (h : P (pb + 0x18)) (g : P (pb + 0x40)) : WritesOnly P (setPageFault pb) :=
  .bind .rdF fun _ => .ite (.bind (wrF_writes h) fun _ => setIrq_writes g) .pure

/-- A one-bit fault that is set, with the page's interrupt, where it does not stand yet (R14, R49): it stands afterwards. -/
theorem fldOf_raised {a pb i : Nat} {f : Fld} (hf : f.hi = f.lo ∧ f.lo < 64) (ha : pb + 0x40 ≠ a) (s : State) :
    (Act.run (do if (← rdF a f) = 0 then do wrF a f 1; setIrq pb i) s).fldOf a f = 1 := by
  rw [run_rdF_bind, run_ite]
  split
  · rw [run_wrF_bind, (setIrq_writes (P := (· = pb + 0x40)) rfl).fldOf _ ha.symm]
    exact (fldOf_put_self _ _ _ _ (by omega)).trans (by rw [hf.1]; simp)
  · next h =>
    have h2 : s.fldOf a f < 2 := lt_of_lt_of_eq (getFld_lt (s.reg a) f) (by rw [hf.1]; simp)
    rw [run_pure]
    omega

theorem fldOf_setPageFault (pb : Nat) (s : State) : (Act.run (setPageFault pb) s).fldOf (pb + 0x18) F.PAGE_STATUS.fault = 1 :=
  fldOf_raised (by decide) (by omega) s

/-! ## Counters -/

/-- The counters of a page stand at offset 0x800 and above (R454); so does the high half of a chained one (R456). -/
theorem chainHigh_counter {s : State} {a h : Nat} (e : s.chainHigh a = some h) : 0x800 ≤ h % 0x1000 := by
  obtain ⟨i, -, e⟩ := List.exists_of_findSome?_eq_some e
  dsimp only at e
  split at e
  · have := getFld_lt (s.reg (R.CNT_CHAIN i)) F.CNT_CHAIN.high
    obtain rfl := Option.some.inj e
    simp only [F.CNT_CHAIN.high, Block.base] at *
    omega
  · cases e

theorem count_writes {a : Nat} (h : P a) (hc : ∀ r, 0x800 ≤ r % 0x1000 → P r) {n : Nat} : WritesOnly P (count a n) := by
  refine .bind .rdR fun w => .ite .pure (.bind (.wrR h) fun _ => .ite (.rd_bind fun s => ?_) .pure)
  split
  · next e => exact .bind .rdR fun _ => .wrR (hc _ (chainHigh_counter e))
  · exact .pure

/-! ## The failure of the package (R440) -/

theorem quenchPart_writes (h : P R.FAB_QUENCHED) {p d : Nat} : WritesOnly P (quenchPart p d) :=
  .bind .get fun _ => .bind (wrF_writes h) fun _ => .of_only (wrPart_only _ _) (by decide)

theorem mgtSend_writes (hc : ∀ r, 0x800 ≤ r % 0x1000 → P r) {len : Nat} {o : Out} : WritesOnly P (mgtSend len o) :=
  .bind .rd fun _ => .ite (.of_only (modLand_only _) (by decide))
    (.bind (count_writes (hc _ (by decide)) hc) fun _ => .of_only (send_only _) (by decide))

/-- A package that fails writes its quench and counters. -/
theorem pkgFail_writes (h : P R.FAB_QUENCHED) (hc : ∀ r, 0x800 ≤ r % 0x1000 → P r) : WritesOnly P pkgFail :=
  .bind .rd fun _ => .ite (.bind (.of_only (stW_only _ _) (by decide)) fun _ =>
    .bind (.forIn fun _ _ => .bind .rd fun _ => .ite (.bind (quenchPart_writes h) fun _ => .pure) .pure) fun _ =>
    .bind (.of_only lowFault_only (by decide)) fun _ =>
    .bind (.of_only (freshBelow_only _) (by decide)) fun _ => mgtSend_writes hc) .pure

theorem pkgFailed_pkgFail (s : State) : (Act.run pkgFail s).pkgFailed = true := by
  unfold pkgFail
  rw [run_rd_bind, run_ite]
  split
  · have h : Only [.regs, .parts, .land, .sent, .free] (do
        for p in List.range 32 do
          if ← rd (fun s => s.partValid p) then quenchPart p 0
        lowFault
        mgtSend (← freshBelow (2 ^ 14)) .failed) :=
      .bind (.forIn _ _ fun _ _ => .bind (.rd _ _) fun _ =>
        .ite (.bind ((quenchPart_only _ _).sub rfl) fun _ => .pure _ _) (.pure _ _)) fun _ =>
      .bind (lowFault_only.sub rfl) fun _ => .bind ((freshBelow_only _).sub rfl) fun _ => (mgtSend_only _ _).sub rfl
    rw [run_stW_bind, State.pkgFailed, wordAt_congr ((h.run _).2 .tab (by decide)), wordAt_upd_self]
    rfl
  · next h => simpa using h

end Sys2Proof.Machine
end

section
/-! # A failed core is replaced (R42, R440) -/

namespace Sys2Proof.Machine

/-- The fallow core of a core's quarter that takes its place, the first one, as an index in the quarter (R42). -/
def State.fallowCore (s : State) (n : Nat) : Option Nat :=
  (List.range 6).find? (fun i => n / 6 * 6 + i ≠ n && s.fldOf (R.HAY_CORE (n / 6 * 6 + i)) F.HAY_CORE.role = 2)

theorem State.fallowCore_ne {s : State} {n i : Nat} (h : s.fallowCore n = some i) :
    R.HAY_CORE (n / 6 * 6 + i) ≠ R.HAY_CORE n := by
  have := List.find?_some h
  simp only [Bool.and_eq_true, decide_eq_true_eq] at this
  unfold R.HAY_CORE
  omega

/-- HAY_CORE of a core out of service. -/
def coreGone (w : Word) : Word := putFld (putFld w F.HAY_CORE.role 3) F.HAY_CORE.act_valid 0

theorem role_coreGone (w : Word) : getFld (coreGone w) F.HAY_CORE.role = 3 := by
  unfold coreGone
  rw [getFld_putFld_ne _ _ _ _ (by decide) (by decide) (by decide), getFld_putFld_self _ _ _ (by decide) (by decide)]
  rfl

theorem actValid_coreGone (w : Word) : getFld (coreGone w) F.HAY_CORE.act_valid = 0 :=
  getFld_putFld_self _ _ _ (by decide) (by decide)

/-- A hayward core that none replaces: the hayward has `c` cores left, and with none the package fails (R42, R440). -/
def haywardShrinks (c : Nat) : Act Unit := do
  wrF R.HAY_STATUS F.HAY_STATUS.cores c
  setPageFault (pageBase .hay 0)
  if c = 0 then pkgFail

/-- What comes of core `n`'s loss, where `s` is the state it failed in (R42). -/
def coreSucceeded (s : State) (n : Nat) : Act Unit :=
  if s.fldOf (R.HAY_CORE n) F.HAY_CORE.role = 2 then pure ()
  else match s.fallowCore n with
    | some i => wrR (R.HAY_CORE (n / 6 * 6 + i)) (s.reg (R.HAY_CORE n))
    | none => if s.fldOf (R.HAY_CORE n) F.HAY_CORE.role = 1 then
        haywardShrinks (s.fldOf R.HAY_STATUS F.HAY_STATUS.cores - 1) else pure ()

/-- A core in service that fails leaves it, and then what comes of the loss is done. -/
theorem run_coreFail {s : State} {n : Nat} (h : s.fldOf (R.HAY_CORE n) F.HAY_CORE.role ≠ 3) :
    Act.run (coreFail n) s =
      Act.run (coreSucceeded s n) ((Upd.reg (R.HAY_CORE n) (coreGone (s.reg (R.HAY_CORE n)))).apply s) := by
  unfold coreFail
  rw [run_get_bind]
  dsimp only
  rw [if_neg (show ¬ getFld (s.reg (R.HAY_CORE n)) F.HAY_CORE.role = 3 from h)]
  rfl

theorem coreSucceeded_some {s : State} {n i : Nat} (h : s.fldOf (R.HAY_CORE n) F.HAY_CORE.role ≠ 2)
    (hi : s.fallowCore n = some i) : coreSucceeded s n = wrR (R.HAY_CORE (n / 6 * 6 + i)) (s.reg (R.HAY_CORE n)) := by
  simp only [coreSucceeded, h, hi, if_false]

theorem coreSucceeded_none {s : State} {n : Nat} (h : s.fldOf (R.HAY_CORE n) F.HAY_CORE.role = 1)
    (hn : s.fallowCore n = none) :
    coreSucceeded s n = haywardShrinks (s.fldOf R.HAY_STATUS F.HAY_STATUS.cores - 1) := by
  simp only [coreSucceeded, h, hn, OfNat.one_ne_ofNat, if_false, if_true]

theorem haywardShrinks_writes {P : Nat → Prop} (hs : P R.HAY_STATUS) (hp : P (pageBase .hay 0 + 0x18))
    (hi : P (pageBase .hay 0 + 0x40)) (hq : P R.FAB_QUENCHED) (hc : ∀ r, 0x800 ≤ r % 0x1000 → P r) {c : Nat} :
    WritesOnly P (haywardShrinks c) :=
  .bind (wrF_writes hs) fun _ => .bind (setPageFault_writes hp hi) fun _ => .ite (pkgFail_writes hq hc) .pure

/-- HAY_CORE of a core of the package is none of the registers that the hayward's loss writes. -/
theorem ne_hayCore {n : Nat} (hn : n < 24) {a : Nat} (h : a = R.HAY_STATUS ∨ a = pageBase .hay 0 + 0x18 ∨
    a = pageBase .hay 0 + 0x40 ∨ a = R.FAB_QUENCHED ∨ 0x800 ≤ a % 0x1000) : a ≠ R.HAY_CORE n := by
  simp only [R.HAY_STATUS, R.HAY_CORE, R.FAB_QUENCHED, regA, pageBase, Block.base] at h ⊢
  omega

/-- What comes of a core's loss does not bring the core back. -/
theorem coreSucceeded_writes (s : State) {n : Nat} (hn : n < 24) : WritesOnly (· ≠ R.HAY_CORE n) (coreSucceeded s n) := by
  refine .ite .pure ?_
  split
  · next i hi => exact .wrR (P := (· ≠ R.HAY_CORE n)) (State.fallowCore_ne hi)
  · exact .ite (haywardShrinks_writes (ne_hayCore hn (by simp)) (ne_hayCore hn (by simp)) (ne_hayCore hn (by simp))
      (ne_hayCore hn (by simp)) fun r hr => ne_hayCore hn (by simp [hr])) .pure

/-- The hayward shows the cores left and its fault, and without any the package is failed (R42, R440). -/
theorem run_haywardShrinks {c : Nat} (hc : c < 4) (s : State) :
    (Act.run (haywardShrinks c) s).fldOf R.HAY_STATUS F.HAY_STATUS.cores = c ∧
      (Act.run (haywardShrinks c) s).fldOf (pageBase .hay 0 + 0x18) F.PAGE_STATUS.fault = 1 ∧
      (c = 0 → (Act.run (haywardShrinks c) s).pkgFailed = true) := by
  have hpkg {a : Nat} (hq : R.FAB_QUENCHED ≠ a) (ha : a % 0x1000 < 0x800) :
      WritesOnly (· ≠ a) (if c = 0 then pkgFail else pure ()) :=
    .ite (pkgFail_writes hq fun r hr e => by omega) .pure
  unfold haywardShrinks
  rw [run_wrF_bind, (setPageFault_only _).run_bind]
  refine ⟨?_, ?_, fun h0 => ?_⟩
  · rw [(hpkg (a := R.HAY_STATUS) (by decide) (by decide)).fldOf _ (by simp),
      (setPageFault_writes (P := (· ≠ R.HAY_STATUS)) (by decide) (by decide)).fldOf _ (by simp)]
    exact (fldOf_put_self _ _ _ _ (by decide)).trans (Nat.mod_eq_of_lt hc)
  · rw [(hpkg (a := pageBase .hay 0 + 0x18) (by decide) (by decide)).fldOf _ (by simp)]
    exact fldOf_setPageFault _ _
  · rw [if_pos h0]
    exact pkgFailed_pkgFail _

theorem exec_coreFail (core : CoreId) (s : State) : exec (.coreFail core) s = .next (Act.run (mains (coreFail core)) s) := rfl

/-- Settles O17 (it holds): the failed core's register shows it out of service and stays so, and the first fallow core, or
the hayward with one core less, is what comes of the loss. -/
theorem coreFailReplaced : Obligations.CoreFailReplaced := by
  unfold Obligations.CoreFailReplaced
  intro s core hs h3 fallow
  refine ⟨_, exec_coreFail core s, ?_⟩
  rw [run_mains _ _ hs.1 hs.2, run_coreFail h3]
  have hgone := (coreSucceeded_writes s core.isLt).fldOf
    ((Upd.reg (R.HAY_CORE core) (coreGone (s.reg (R.HAY_CORE core)))).apply s) (r := R.HAY_CORE core) (fun h => h rfl)
  refine ⟨?_, ?_, fun h2 i hi => ?_, fun h1 hn => ?_⟩
  · rw [hgone, fldOf_upd_self, role_coreGone]
  · rw [hgone, fldOf_upd_self, actValid_coreGone]
  · rw [coreSucceeded_some h2 hi, run_wrR]
    exact ⟨reg_upd_self _ _ _, ((regsBut_upd_reg _ _ s).mono (by simp)).trans ((regsBut_upd_reg _ _ _).mono (by simp)),
      (SameBut.upd _ s rfl).trans (SameBut.upd _ _ rfl)⟩
  · rw [coreSucceeded_none h1 hn]
    have hlt : s.fldOf R.HAY_STATUS F.HAY_STATUS.cores < 4 := getFld_lt _ F.HAY_STATUS.cores
    obtain ⟨hcores, hfault, hfail⟩ := run_haywardShrinks (c := s.fldOf R.HAY_STATUS F.HAY_STATUS.cores - 1) (by omega)
      ((Upd.reg (R.HAY_CORE core) (coreGone (s.reg (R.HAY_CORE core)))).apply s)
    exact ⟨hcores, hfault, fun h0 => hfail (by omega)⟩

end Sys2Proof.Machine
end

section
/-! # The self-test of a tile (R48) -/

namespace Sys2Proof.Machine

/-! ## SELFTEST_START -/

/-- A write of PAGE_CTRL shows in PAGE_STATUS (R14). -/
theorem pageControlled_writes {P : Nat → Prop} {pb : Nat} (h : P (pb + 0x18)) : WritesOnly P (pageControlled pb) := by
  refine .bind .get fun s => .ite .pure (.bind (wrF_writes h) fun _ => .ite (.bind (wrF_writes h) fun _ => ?_) .pure)
  split
  · exact .ite (wrF_writes h) .pure
  · exact .pure

theorem selftestBegin_writes {P : Nat → Prop} {p : Nat} (hc : P (pageBase .tile p + 0x10)) (hs : P (pageBase .tile p + 0x18)) :
    WritesOnly P (selftestBegin p) := .bind (wrF_writes hs) fun _ => wrF_writes hc

theorem tileState_selftestBegin (p : Nat) (s : State) : (Act.run (selftestBegin p) s).tileState p = 1 := by
  unfold selftestBegin State.tileState
  rw [run_wrF_bind, run_wrF, fldOf_upd_ne _ _ _ _ _ (by omega)]
  exact fldOf_put_self _ _ _ _ (by decide)

/-- The hayward's write of selftest_start stores PAGE_CTRL, and the test of a tile in OFF or STANDBY begins (R48). -/
theorem runs_commonWrite_selftest {i : Issuer} {p pb : Nat} {v : Word} {s u : State} (hi : i.hay = true)
    (hst : s.tileState p = 0 ∨ s.tileState p = 2) (hv : getFld v F.PAGE_CTRL.selftest_start = 1)
    (h : Runs (storeReg (pb + 0x10) v) s () u) :
    Runs (commonWrite i .tile p pb 0x10 v) s none (Act.run (selftestBegin p) (Act.run (pageControlled pb) u)) := by
  have hst' : (!(decide (s.tileState p = 0) || decide (s.tileState p = 2))) = false := by
    rcases hst with e | e <;> simp [e]
  unfold commonWrite
  refine (Runs.get s).bind ?_
  simp only [hi, hv, hst', decide_true, Bool.true_and, Bool.not_true, Bool.and_false, Bool.false_eq_true, if_false, if_true]
  exact h.bind (((pageControlled_only pb).runs u).bind (((selftestBegin_only p).runs _).bind (Runs.pure _ _)))

/-- An accepted SELFTEST_START: the tile is in SELFTEST, and only its PAGE_CTRL and PAGE_STATUS have changed. -/
theorem selftestStart_accepted {x : BusX} {core p : Nat} {v : Word} {s : State} (hp : p < 624)
    (hi : (s.coreIssuer core).hay = true) (hst : s.tileState p = 0 ∨ s.tileState p = 2)
    (hv : getFld v F.PAGE_CTRL.selftest_start = 1) (ha : Admits s core (pageBase .tile p + 0x10) v) :
    ∃ t, Answered t (Act.run (busWriteX x core (pageBase .tile p + 0x10) 8 v) s) ∧ t.tileState p = 1 ∧
      RegsBut [pageBase .tile p + 0x10, pageBase .tile p + 0x18] s t ∧ SameBut [.regs] s t := by
  obtain ⟨u, hu, qu, gu, -⟩ := runs_storeReg_pageCtrl (b := .tile) hp v s
  refine ⟨_, answered_busWriteX_common ha (pageOf_regA .tile p 0x10 hp (by decide)) (by decide) (by omega) ?_,
    tileState_selftestBegin p (Act.run (pageControlled (pageBase .tile p)) u),
    ((gu.mono (by simp)).trans ((pageControlled_writes (by simp)).regsBut u)).trans
      ((selftestBegin_writes (by simp) (by simp)).regsBut _),
    (qu.trans ((pageControlled_only _).run u)).trans ((selftestBegin_only p).run _)⟩
  rw [Nat.add_sub_cancel_left]
  exact runs_commonWrite_selftest hi hst hv hu

theorem exec_selftestStart (core : CoreId) (tile : TileId) (s : State) : exec (.selftestStart core tile) s =
    .next (Act.run (busWriteX {} core (pageBase .tile tile + 0x10) 8
      (putFld (s.reg (pageBase .tile tile + 0x10)) F.PAGE_CTRL.selftest_start 1)) s) := rfl

/-! ## The map in effect (R27) -/

/-- The map in effect is read off the map words and the states of the tiles. -/
theorem mapInEffect_congr {s t : State} (hm : ∀ n < 576, t.mapEntry n = s.mapEntry n)
    (hs : ∀ p, t.tileState p = s.tileState p) : t.mapInEffect = s.mapInEffect := by
  unfold State.mapInEffect
  refine List.foldl_ext _ _ _ fun acc n hn => ?_
  simp only [hm n (List.mem_range.1 hn), hs]

/-- The interrupts of a tile are no part of it. -/
theorem mapInEffect_of_regsBut_irq {s t : State} {p : Nat} (h : RegsBut [pageBase .tile p + 0x40] s t) :
    t.mapInEffect = s.mapInEffect := by
  refine mapInEffect_congr (fun n hn => ?_) fun q => h.fldOf ?_ _
  · unfold State.mapEntry
    rw [h]
    simp only [R.HAY_TILE_MAP, regA, pageBase, Block.base, List.mem_singleton]
    omega
  · simp only [pageBase, List.mem_singleton]
    omega

/-! ## What a tile's page keeps while the map is checked -/

/-- The registers of a tile's page. -/
def InTilePage (p a : Nat) : Prop := pageBase .tile p ≤ a ∧ a < pageBase .tile p + 0x1000

theorem not_inTilePage_status {p q : Nat} (h : q ≠ p) : ¬ InTilePage q (pageBase .tile p + 0x18) := by
  unfold InTilePage pageBase
  omega

theorem inTilePage {off : Nat} (h : off < 0x1000) (p : Nat) : InTilePage p (pageBase .tile p + off) :=
  ⟨Nat.le_add_right _ _, Nat.add_lt_add_left h _⟩

theorem wrF_tilePage {off : Nat} (h : off < 0x1000) {p : Nat} {f : Fld} {n : Nat} :
    WritesOnly (InTilePage p) (wrF (pageBase .tile p + off) f n) := wrF_writes (inTilePage h p)

theorem modTile_writes {P : Nat → Prop} {p : Nat} {f : TileX → TileX} : WritesOnly P (modTile p f) :=
  .of_only (modTile_only _ _) (by decide)

/-- The weight buffers that a flush leaves in use are VALID again (R44). -/
theorem freeWbufs_writes {p : Nat} : WritesOnly (InTilePage p) (do
    for w in [0, 1] do
      if (← rd (fun s => s.wbufState p w)) = 3 then setWbuf p w 2) :=
  .bind (.forIn fun _ _ => .bind .rd fun _ => .ite (.bind (wrF_tilePage (by decide)) fun _ => .pure) .pure) fun _ => .pure

theorem discardUnissued_writes {p : Nat} : WritesOnly (InTilePage p) (discardUnissued p) :=
  .bind .get fun _ => .bind (wrF_tilePage (by decide)) fun _ => .bind (.wrR (inTilePage (by decide) p)) fun _ =>
    .ite (.bind (wrF_tilePage (by decide)) fun _ => .bind modTile_writes fun _ => freeWbufs_writes) modTile_writes

theorem whenIdle_writes {p : Nat} : WritesOnly (InTilePage p) (whenIdle p) := by
  refine .bind .get fun s => .ite .pure ?_
  extract_lets leave
  have hleave : ∀ y, WritesOnly (InTilePage p) (leave y) := fun _ => .ite (.bind discardUnissued_writes fun _ =>
    .bind modTile_writes fun _ => wrF_tilePage (by decide)) .pure
  exact .ite (.bind modTile_writes fun _ => .bind (wrF_tilePage (by decide)) fun _ => .bind freeWbufs_writes hleave) (hleave ())

theorem tileMapped_writes {p n : Nat} : WritesOnly (InTilePage p) (tileMapped p n) :=
  .bind (wrF_tilePage (by decide)) fun _ => .bind (wrF_tilePage (by decide)) fun _ => .bind .rd fun _ =>
    .ite (wrF_tilePage (by decide)) (.bind .rd fun _ => .ite modTile_writes .pure)

theorem tileUnmapped_writes {p : Nat} : WritesOnly (InTilePage p) (tileUnmapped p) :=
  .bind (wrF_tilePage (by decide)) fun _ => .bind (wrF_tilePage (by decide)) fun _ => .bind .rd fun _ =>
    .ite (.bind modTile_writes fun _ => whenIdle_writes) .pure

/-! ## What the check of the map makes of a tile's state (R48) -/

theorem tileState_put_ident (s : State) (p : Nat) (f : Fld) (n : Nat) :
    ((Upd.reg (R.TILE_IDENT p) (putFld (s.reg (R.TILE_IDENT p)) f n)).apply s).tileState p = s.tileState p :=
  fldOf_upd_ne _ _ _ _ _ (by simp [R.TILE_IDENT, regA])

theorem tileState_tileMapped (p n : Nat) (s : State) :
    (Act.run (tileMapped p n) s).tileState p = if s.tileState p = 2 then 3 else s.tileState p := by
  unfold tileMapped
  simp only [run_wrF_bind, run_rd_bind, run_ite, tileState_put_ident, run_wrF]
  split
  · exact fldOf_put_self _ _ _ _ (by decide)
  · split
    · exact ((modTile_writes (P := fun _ => False)).fldOf _ id _).trans
        ((tileState_put_ident _ _ _ _).trans (tileState_put_ident ..))
    · exact (tileState_put_ident _ _ _ _).trans (tileState_put_ident ..)

theorem tileState_tileUnmapped {p : Nat} {s : State} (h3 : s.tileState p ≠ 3) (h4 : s.tileState p ≠ 4) :
    (Act.run (tileUnmapped p) s).tileState p = s.tileState p := by
  unfold tileUnmapped
  simp only [run_wrF_bind, run_rd_bind, tileState_put_ident, h3, h4, or_false, if_false, run_pure]

/-- A loop that passes `p` once, over steps of which only that of `p` changes what `o` observes. -/
theorem runs_forIn_once {α β : Type} {body : α → Unit → Act (ForInStep Unit)} {o : State → β} {p : α} {x y : β}
    (other : ∀ q s, q ≠ p → ∃ t, Runs (body q ()) s (.yield ()) t ∧ o t = o s)
    (own : ∀ s, o s = x → ∃ t, Runs (body p ()) s (.yield ()) t ∧ o t = y) (l : List α) (hl : l.Nodup) (s : State)
    (hs : p ∈ l → o s = x) : ∃ t, Runs (forIn l () body) s () t ∧ (p ∈ l → o t = y) ∧ (p ∉ l → o t = o s) := by
  induction l generalizing s with
  | nil => exact ⟨s, Runs.pure _ _, by simp⟩
  | cons q l ih =>
    obtain ⟨hq, hl⟩ := List.nodup_cons.1 hl
    rw [List.forIn_cons]
    by_cases e : q = p
    · subst e
      obtain ⟨t, r, ht⟩ := own s (hs (List.mem_cons_self ..))
      obtain ⟨u, r', -, hu⟩ := ih hl t (fun h => absurd h hq)
      exact ⟨u, r.bind r', fun _ => (hu hq).trans ht, fun h => absurd (List.mem_cons_self ..) h⟩
    · obtain ⟨t, r, ht⟩ := other q s e
      obtain ⟨u, r', hin, hout⟩ := ih hl t (fun h => ht.trans (hs (List.mem_cons_of_mem _ h)))
      have hm : p ∈ q :: l ↔ p ∈ l := by simp [Ne.symm e]
      exact ⟨u, r.bind r', fun h => hin (hm.1 h), fun h => (hout (fun g => h (hm.2 g))).trans ht⟩

/-- What the check of the map does with tile `p`, where `m` is the state it is made in (R27). -/
def mapStep (m : State) (p : Nat) : Act (ForInStep Unit) :=
  match m.mapInEffect.find? (fun e => e.1 = p) with
  | some e => do
    tileMapped p e.2
    return .yield ()
  | none => if m.fldOf (R.TILE_IDENT p) F.TILE_IDENT.logical_valid = 1 then do
      tileUnmapped p
      return .yield ()
    else return .yield ()

theorem mapCheck_eq : mapCheck = (Act.get >>= fun s => forIn (List.range 624) () (fun p _ => mapStep s p) >>= fun _ => do
    if (← ldW mapWrittenKey) = 1 then
      if s.mapInEffect.length < 576 then setPageFault (pageBase .hay 8) else clearPageFault (pageBase .hay 8)) := by
  unfold mapCheck mapStep
  refine congrArg (Act.get >>= ·) (funext fun s => congrArg (forIn (List.range 624) () · >>= _) (funext₂ fun p _ => ?_))
  cases s.mapInEffect.find? (fun e => e.1 = p) <;> rfl

theorem mapStep_other (m : State) {p q : Nat} (h : q ≠ p) (s : State) :
    ∃ t, Runs (mapStep m q) s (.yield ()) t ∧ t.tileState p = s.tileState p := by
  have hp := not_inTilePage_status h
  unfold mapStep
  split
  · exact ⟨_, ((tileMapped_only _ _).runs s).bind (Runs.pure _ _), tileMapped_writes.fldOf s hp _⟩
  · split
    · exact ⟨_, ((tileUnmapped_only _).runs s).bind (Runs.pure _ _), tileUnmapped_writes.fldOf s hp _⟩
    · exact ⟨s, Runs.pure _ _, rfl⟩

/-- What state `st` of tile `p` becomes under the map in effect of `m`: STANDBY becomes ACTIVE where the map names the tile;
ACTIVE and QUIESCED, which can also leave, are not spoken of. -/
def mappedState (m : State) (p st : Nat) : Nat :=
  if st = 2 then (if m.mapInEffect.any (fun e => e.1 = p) then 3 else 2) else st

theorem mappedState_of_unmapped {m : State} {p : Nat} (h : m.mapInEffect.find? (fun e => e.1 = p) = none) (st : Nat) :
    mappedState m p st = st := by
  unfold mappedState
  rw [← List.isSome_find?, h]
  split
  · next h2 => exact h2.symm
  · rfl

theorem mapStep_own (m : State) {p : Nat} {s : State} (h3 : s.tileState p ≠ 3) (h4 : s.tileState p ≠ 4) :
    ∃ t, Runs (mapStep m p) s (.yield ()) t ∧ t.tileState p = mappedState m p (s.tileState p) := by
  unfold mapStep
  split
  · next e he =>
    refine ⟨_, ((tileMapped_only _ _).runs s).bind (Runs.pure _ _), ?_⟩
    rw [tileState_tileMapped, mappedState, ← List.isSome_find?, he]
    rfl
  · next he =>
    rw [mappedState_of_unmapped he]
    split
    · exact ⟨_, ((tileUnmapped_only _).runs s).bind (Runs.pure _ _), tileState_tileUnmapped h3 h4⟩
    · exact ⟨s, Runs.pure _ _, rfl⟩

theorem tileState_mapCheck {p : Nat} (hp : p < 624) {s : State} (h3 : s.tileState p ≠ 3) (h4 : s.tileState p ≠ 4) :
    (Act.run mapCheck s).tileState p = mappedState s p (s.tileState p) := by
  obtain ⟨t, r, ht, -⟩ := runs_forIn_once (body := fun q _ => mapStep s q) (fun q u hq => mapStep_other s hq u)
    (fun u hu => hu ▸ mapStep_own s (hu ▸ h3) (hu ▸ h4)) (List.range 624) List.nodup_range s (fun _ => rfl)
  have fault : WritesOnly (· < pageBase .tile 0) (do
      if (← ldW mapWrittenKey) = 1 then
        if s.mapInEffect.length < 576 then setPageFault (pageBase .hay 8) else clearPageFault (pageBase .hay 8)) :=
    .bind .rd fun _ => .ite (.ite (setPageFault_writes (by decide) (by decide)) (wrF_writes (by decide))) .pure
  rw [mapCheck_eq, run_get_bind, run_bind_of_runs s r]
  exact (fault.fldOf t (by unfold pageBase; omega) _).trans (ht (List.mem_range.2 hp))

/-! ## SELFTEST_DONE -/

theorem tilePageOwner_writes {P : Nat → Prop} {p : Nat} (h : P (pageBase .tile p + 0x20)) : WritesOnly P (tilePageOwner p) :=
  .bind .get fun _ => .bind (wrF_writes h) fun _ => wrF_writes h

theorem tileState_tilePageOwner (p : Nat) (s : State) : (Act.run (tilePageOwner p) s).tileState p = s.tileState p :=
  (tilePageOwner_writes (P := (· = pageBase .tile p + 0x20)) rfl).fldOf s (by simp) _

/-- Milestone 3, once every tile has its test behind it (R484), is no register's. -/
theorem tileMilestone_writes {P : Nat → Prop} : WritesOnly P (do
    let s ← Act.get
    if bit s.land.milestones 2 && (s.wordAt mapWrittenKey).toNat = 1 &&
        (List.range 624).all (fun t => decide (2 ≤ s.tileState t)) then milestone 3) :=
  .bind .get fun _ => .ite (.of_only (milestone_only _) (by decide)) .pure

/-- A test's end has set a tile's state, and the map has not been checked yet. -/
def testedState (s : State) (p : Nat) (pass : Bool) : State :=
  (Upd.reg (pageBase .tile p + 0x18) (putFld (s.reg (pageBase .tile p + 0x18)) F.PAGE_STATUS.state (if pass then 2 else 5))).apply s

theorem tileState_testedState (s : State) (p : Nat) (pass : Bool) :
    (testedState s p pass).tileState p = if pass then 2 else 5 := by
  refine (fldOf_put_self _ _ _ _ (by decide)).trans ?_
  cases pass <;> rfl

/-- The interrupt of a test's end is raised before the state is set; the map in effect is the same without it. -/
theorem mapInEffect_testedState_setIrq (s : State) (p i : Nat) (pass : Bool) :
    (testedState (Act.run (setIrq (pageBase .tile p) i) s) p pass).mapInEffect = (testedState s p pass).mapInEffect := by
  have hirq : RegsBut [pageBase .tile p + 0x40] s (Act.run (setIrq (pageBase .tile p) i) s) :=
    (setIrq_writes (by simp)).regsBut s
  refine mapInEffect_of_regsBut_irq (p := p) fun a ha => ?_
  unfold testedState
  rw [reg_upd_reg, reg_upd_reg, hirq a ha, hirq _ (by simp)]

/-- Where its test leaves a tile (R48, R485). -/
theorem tileState_selftestDone {p : Nat} {pass : Bool} {s : State} (hp : p < 624) (h1 : s.tileState p = 1)
    (hc : bit s.land.milestones 3 = true ∨ s.fldOf R.PWR_STATUS F.PWR_STATUS.curb_level = 0) :
    (Act.run (selftestDone p pass) s).tileState p =
      if pass then (if (testedState s p true).mapInEffect.any (fun e => e.1 = p) then 3 else 2) else 5 := by
  have hst := tileState_testedState (Act.run (setIrq (pageBase .tile p) 33) s) p pass
  have hmap := tileState_mapCheck hp (s := testedState (Act.run (setIrq (pageBase .tile p) 33) s) p pass)
    (by rw [hst]; cases pass <;> decide) (by rw [hst]; cases pass <;> decide)
  unfold selftestDone
  dsimp only
  rw [run_get_bind, run_ite, if_pos (by simpa [h1] using hc), (setIrq_only _ _).run_bind, run_wrF_bind, mapCheck_only.run_bind,
    (tilePageOwner_only _).run_bind]
  refine ((tileMilestone_writes (P := fun _ => False)).fldOf _ id _).trans ((tileState_tilePageOwner _ _).trans (hmap.trans ?_))
  rw [hst, mappedState, mapInEffect_testedState_setIrq]
  cases pass
  · simp
  · exact (if_pos rfl).trans (if_pos rfl).symm

theorem exec_selftestDone (tile : TileId) (pass : Bool) (s : State) :
    exec (.selftestDone tile pass) s = .next (Act.run (mains (selftestDone tile pass)) s) := rfl

end Sys2Proof.Machine
end

section
/-! # What a router that goes OUT writes (R33, R36, R40): nothing of a tile's state and faults but its own router_out -/

namespace Sys2Proof.Machine

/-- The registers outside the tiles' pages, and of every page the record of a refused access (R17) and the counters (R454):
none of them shows a tile's state or its faults. -/
def OffTiles (a : Nat) : Prop :=
  a < pageBase .tile 0 ∨ pageBase .tile 624 ≤ a ∨ 0x30 ≤ a % 0x1000 ∧ a % 0x1000 ≤ 0x40 ∨ 0x800 ≤ a % 0x1000

namespace OffTiles

theorem counter (a : Nat) (h : 0x800 ≤ a % 0x1000) : OffTiles a := .inr (.inr (.inr h))

theorem beyond {a : Nat} (h : pageBase .tile 624 ≤ a) : OffTiles a := .inr (.inl h)

/-- The blocks that lie after the tiles' pages in the window (R7). -/
theorem block {b : Block} (h : pageBase .tile 624 ≤ b.base) {p off : Nat} : OffTiles (regA b p off) :=
  beyond (h.trans (by unfold regA pageBase; omega))

/-- An array of registers on the page of a port or link. -/
theorem portArray {k x y n : Nat} : OffTiles ((if k < 8 then regA .fab k x else regA .bms (k - 8) y) + n) := by
  refine beyond ?_
  split <;> (unfold regA pageBase; simp only [Block.base]; omega)

theorem port {k x y : Nat} : OffTiles (if k < 8 then regA .fab k x else regA .bms (k - 8) y) := portArray (n := 0)

theorem hayCore {n : Nat} (h : n < 24) : OffTiles (R.HAY_CORE n) := by
  refine .inl ?_
  simp only [R.HAY_CORE, regA, pageBase, Block.base]
  omega

theorem not_status {p : Nat} (hp : p < 624) : ¬ OffTiles (pageBase .tile p + 0x18) := by
  unfold OffTiles pageBase
  simp only [Block.base]
  omega

theorem not_fault {p : Nat} (hp : p < 624) : ¬ OffTiles (R.TILE_FAULT p) := by
  unfold OffTiles R.TILE_FAULT regA pageBase
  simp only [Block.base]
  omega

end OffTiles

/-! ## Refused accesses and the memories -/

theorem count_offTiles {a n : Nat} (h : OffTiles a) : WritesOnly OffTiles (count a n) := count_writes h OffTiles.counter

theorem vlog_offTiles {kind addr info : Nat} : WritesOnly OffTiles (vlog kind addr info) :=
  .bind .rdF fun _ => .bind .rdF fun _ => .ite (count_offTiles (.inl (by decide))) (.bind .rdR fun _ => .bind .rdF fun _ =>
    .bind (.of_only (stBytes_only _ _) (by decide)) fun _ => .bind (wrF_writes (.inl (by decide))) fun _ =>
    count_offTiles (.inl (by decide)))

theorem recordAs_offTiles {pb kind addr access reason : Nat} {i : Issuer} (h : pb % 0x1000 = 0) :
    WritesOnly OffTiles (recordAs kind pb addr i access reason) := by
  have record {n : Nat} (hn : 0x30 ≤ n ∧ n ≤ 0x40) : OffTiles (pb + n) := .inr (.inr (.inl (by omega)))
  have rest (_ : Unit) : WritesOnly OffTiles (do setIrq pb 0; vlog kind addr (errInfo i access reason)) :=
    .bind (setIrq_writes (record (by decide))) fun _ => vlog_offTiles
  exact .bind .rdF fun _ => .ite
    (.bind (.wrR (record (by decide))) fun _ => .bind .rdF fun _ => .bind (.wrR (record (by decide))) rest)
    (.bind (wrF_writes (record (by decide))) rest)

theorem sourcePage_aligned (src : Nat) : sourcePage src % 0x1000 = 0 := by
  have aligned (b : Block) (p : Nat) : pageBase b p % 0x1000 = 0 := by
    unfold pageBase
    cases b <;> simp only [Block.base] <;> omega
  unfold sourcePage
  split_ifs <;> exact aligned _ _

theorem refuseMem_offTiles {src part addr reason : Nat} {write : Bool} :
    WritesOnly OffTiles (refuseMem src part addr write reason) := recordAs_offTiles (sourcePage_aligned src)

theorem markUnit_offTiles {pos unit : Nat} : WritesOnly OffTiles (markUnit pos unit) :=
  .bind .rd fun _ => .ite .pure (.bind (.of_only (Only.upd (l := [.sites]) _ rfl) (by decide)) fun _ =>
    addF_writes (.block (by decide)))

theorem markCover_offTiles {pos unit : Nat} : WritesOnly OffTiles (markCover pos unit) :=
  .bind .rd fun _ => .ite (.bind (.of_only (Only.upd (l := [.mig]) _ rfl) (by decide)) fun _ =>
    addF_writes (.block (by decide))) .pure

theorem gWritePiece_offTiles {l : GLoc} {bs : List Byte} : WritesOnly OffTiles (gWritePiece l bs) :=
  .bind .get fun _ => .ite .pure (.bind (.forIn fun _ _ => .bind (.of_only (siteWrite_only _ _ _) (by decide)) fun _ =>
    .bind (count_offTiles (.block (by decide))) fun _ => .pure) fun _ =>
    .ite (.bind markUnit_offTiles fun _ => .pure) (.ite (.bind markCover_offTiles fun _ => .pure) .pure))

theorem gWriteRuns_offTiles {src part : Nat} {runs : List (Nat × Nat)} {bs : List Byte} :
    WritesOnly OffTiles (gWriteRuns src part runs bs) := by
  induction runs generalizing bs with
  | nil => exact .pure
  | cons r rs ih =>
    refine .bind .rd fun e => ?_
    cases e with
    | error e => exact .bind refuseMem_offTiles fun _ => .pure
    | ok l => exact .bind gWritePiece_offTiles fun _ => .ite ih .pure

theorem gWrite_offTiles {src part addr : Nat} {bs : List Byte} : WritesOnly OffTiles (gWrite src part addr bs) := by
  refine .bind .get fun s => .bind gWriteRuns_offTiles fun e => ?_
  cases e with
  | some e => exact .pure
  | none =>
    refine .bind (.forIn fun t _ => ?_) fun _ => .pure
    have rmw : WritesOnly OffTiles (if 0 < t.2.2 then do count (C.GDC_CNT_RMW t.1) t.2.2; return ForInStep.yield ()
        else return .yield ()) := .ite (.bind (count_offTiles (.block (by decide))) fun _ => .pure) .pure
    exact .ite (.bind (count_offTiles (.block (by decide))) fun _ => rmw) rmw

theorem spWrite_offTiles {src part space addr : Nat} {bs : List Byte} : WritesOnly OffTiles (spWrite src part space addr bs) := by
  unfold spWrite
  split
  · refine .bind .rd fun e => ?_
    split
    · exact .bind refuseMem_offTiles fun _ => .pure
    · exact .bind (.of_only (stBytes_only _ _) (by decide)) fun _ => .pure
  · exact gWrite_offTiles
  · refine .bind .rd fun e => ?_
    split
    · exact .bind refuseMem_offTiles fun _ => .pure
    · exact .bind (.of_only (tileWrite_only _ _ _) (by decide)) fun _ => .pure
  · exact .pure

theorem signalTile_offTiles {src part target value : Nat} : WritesOnly OffTiles (signalTile src part target value) := by
  refine .bind .rd fun e => ?_
  split
  · exact .of_only (tileWrite_only _ _ _) (by decide)
  · exact refuseMem_offTiles

/-! ## The links (R323 to R331) -/

theorem updPort_writes {P : Nat → Prop} {k : Nat} {x : PortX} : WritesOnly P (Act.upd (.port k x)) :=
  .of_only (Only.upd (l := [.ports]) _ rfl) (by decide)

theorem modPort_writes {P : Nat → Prop} {k : Nat} {f : PortX → PortX} : WritesOnly P (modPort k f) :=
  .of_only (modPort_only _ _) (by decide)

theorem sendFlit_offTiles {k i : Nat} : WritesOnly OffTiles (sendFlit k i) := by
  refine .bind .get fun s => ?_
  dsimp only
  split
  · exact .pure
  · refine .bind updPort_writes fun _ => .bind (.of_only (putFlit_only _ _ _ _ _) (by decide)) fun _ =>
      .bind (.of_only (send_only _) (by decide)) fun _ => ?_
    split
    · exact .bind (count_offTiles (.block (by decide))) fun _ => modPort_writes
    · exact count_offTiles .portArray

theorem slotWaits_offTiles {k n : Nat} : WritesOnly OffTiles (slotWaits k n) := by
  have cnt {c : Prop} [Decidable c] {a : Nat} (h : OffTiles a) {rest : Act Unit} (hr : WritesOnly OffTiles rest) :
      WritesOnly OffTiles (if c then do count a n; rest else rest) := .ite (.bind (count_offTiles h) fun _ => hr) hr
  refine .bind .get fun s => .bind (.forIn fun v _ => ?_) fun _ => .bind (.forIn fun i _ => ?_) fun _ => ?_
  · have stall {c : Prop} [Decidable c] : WritesOnly OffTiles (if c then do count (C.STALL_VL k v) n; return ForInStep.yield ()
        else return ForInStep.yield ()) := .ite (.bind (count_offTiles .portArray) fun _ => .pure) .pure
    exact .ite (.bind (count_offTiles .portArray) fun _ => stall) stall
  · split
    · exact .bind (count_offTiles (.block (by decide))) fun _ => .pure
    · exact .bind .pure fun _ => .pure
  · exact cnt .port (cnt .port (cnt (.block (by decide)) (.ite (count_offTiles .port) .pure)))

theorem pumpPort_offTiles {k fuel : Nat} : WritesOnly OffTiles (pumpPort k fuel) := by
  induction fuel with
  | zero => exact .pure
  | succ fuel ih =>
    have go {i : Nat} : WritesOnly OffTiles (do slotWaits k 1; sendFlit k i; pumpPort k fuel) :=
      .bind slotWaits_offTiles fun _ => .bind sendFlit_offTiles fun _ => ih
    refine .bind .get fun s => .ite .pure (.ite go (.ite go ?_))
    split
    · exact .bind slotWaits_offTiles fun _ => .bind modPort_writes fun _ => .bind sendFlit_offTiles fun _ => ih
    · exact .ite (.bind slotWaits_offTiles fun _ => .bind modPort_writes fun _ => ih) .pure

theorem pump_offTiles {k : Nat} : WritesOnly OffTiles (pump k) :=
  .bind .get fun _ => .bind pumpPort_offTiles fun _ =>
    .bind (.forIn fun _ _ => .bind (.of_only (tellPeer_only _ _) (by decide)) fun _ => .pure) fun _ => .pure

theorem sendPacket_offTiles {p k vl : Nat} {bs : List Byte} : WritesOnly OffTiles (sendPacket p k vl bs) :=
  .bind .get fun _ => .ite .pure (.bind updPort_writes fun _ => .bind (.of_only (send_only _) (by decide)) fun _ => pump_offTiles)

theorem sendFab_offTiles {p k vl dst type arg0 arg1 : Nat} {body : List Byte} :
    WritesOnly OffTiles (sendFab p k vl dst type arg0 arg1 body) :=
  .bind .get fun _ => .bind .get fun _ => .ite updPort_writes sendPacket_offTiles

/-! ## The collectives of a failed port (R367) -/

theorem clqAdvance_offTiles {p fuel : Nat} : WritesOnly OffTiles (clqAdvance p fuel) := by
  induction fuel with
  | zero => exact .pure
  | succ fuel ih =>
    exact .bind .get fun _ => .ite (.bind (.of_only (modCol_only _) (by decide)) fun _ =>
      .bind (wrF_writes (.block (by decide))) fun _ => ih) .pure

theorem colToPlanes_offTiles {p type : Nat} {e body : List Byte} : WritesOnly OffTiles (colToPlanes p e type body) :=
  .bind .get fun _ => .bind (.forIn fun _ _ => .ite (.bind sendFab_offTiles fun _ => .pure) .pure) fun _ => .pure

theorem colRecord_offTiles {c : ColE} {st detail : Nat} {write : Bool} : WritesOnly OffTiles (colRecord c st detail write) := by
  have status {f : Fld} {n : Nat} : WritesOnly OffTiles (wrF (R.PRT_COL_STATUS c.part) f n) := wrF_writes (.block (by decide))
  refine .bind .get fun s => ?_
  extract_lets e p close slow who lag back bad rr record signal tally
  have hclose : ∀ y, WritesOnly OffTiles (close y) := fun _ => .bind (.of_only (modCol_only _) (by decide)) fun _ =>
    .bind .rd fun _ => .bind status fun _ => clqAdvance_offTiles
  refine .ite ?_ (hclose ())
  have hsignal : ∀ y, WritesOnly OffTiles (signal y) := fun _ => .ite (.bind signalTile_offTiles hclose) (hclose ())
  have htally : ∀ y, WritesOnly OffTiles (tally y) := fun _ => .ite (.bind (count_offTiles (.block (by decide))) fun _ =>
    .bind (count_offTiles (.block (by decide))) hsignal) (hsignal ())
  refine .bind spWrite_offTiles fun _ => .bind (.of_only (hubStore_only _ _ _) (by decide)) fun _ =>
    .ite (.bind (count_offTiles (.block (by decide))) htally)
      (.bind (count_offTiles ?_) fun _ => .bind status fun _ => .bind status fun _ => .bind status htally)
  split <;> exact .block (by decide)

theorem colEnd_offTiles {c : ColE} {st detail : Nat} {write : Bool} : WritesOnly OffTiles (colEnd c st detail write) :=
  .bind colToPlanes_offTiles fun _ => colRecord_offTiles

theorem colPortFailed_offTiles {k : Nat} : WritesOnly OffTiles (colPortFailed k) :=
  .bind .rd fun _ => .bind (.forIn fun _ _ => .ite (.bind colEnd_offTiles fun _ => .pure) .pure) fun _ => .pure

/-! ## What is attached to a router (R39, R40) -/

theorem pkgFail_offTiles : WritesOnly OffTiles pkgFail := pkgFail_writes (.block (by decide)) OffTiles.counter

theorem pageFault_offTiles {b : Block} (h : pageBase .tile 624 ≤ b.base) {p : Nat} :
    WritesOnly OffTiles (setPageFault (pageBase b p)) := setPageFault_writes (.block h) (.block h)

theorem failPort_offTiles {k : Nat} : WritesOnly OffTiles (failPort k) := by
  refine .bind (wrF_writes .port) fun _ => setIrq_writes ?_
  unfold portPage
  split <;> exact .block (by decide)

theorem portLost_offTiles {k : Nat} : WritesOnly OffTiles (portLost k) :=
  have check : WritesOnly OffTiles portsCheck := .bind .rd fun _ => .ite pkgFail_offTiles .pure
  .ite (.bind colPortFailed_offTiles fun _ => check) check

theorem migEnd_offTiles {site st : Nat} : WritesOnly OffTiles (migEnd site st) :=
  .bind (.of_only (modMig_only _) (by decide)) fun _ => .bind (wrF_writes (.block (by decide))) fun _ =>
    wrF_writes (.block (by decide))

theorem siteFail_offTiles {site : Nat} : WritesOnly OffTiles (siteFail site) := by
  have state {n m : Nat} : WritesOnly OffTiles (setSiteState n m) := wrF_writes (.block (by decide))
  refine .bind .get fun s => .bind state fun _ => .bind (wrF_writes (.block (by decide))) fun _ => ?_
  extract_lets cover
  have hcover : ∀ y, WritesOnly OffTiles (cover y) := fun _ => .ite (wrF_writes (.block (by decide))) .pure
  split
  · exact .ite (.ite (.bind migEnd_offTiles hcover) (.ite (.bind migEnd_offTiles fun _ => .bind state hcover) (hcover ())))
      (hcover ())
  · exact hcover ()

theorem takeBlk_offTiles {b : Nat} : WritesOnly OffTiles (takeBlk b) :=
  .bind .rd fun _ => .bind (.of_only (setBlk_only _ _ _) (by decide)) fun _ => addF_writes (.block (by decide))

theorem wpTake_offTiles {c u l : Nat} : WritesOnly OffTiles (wpTake c u l) := by
  have stW {k v : Nat} : WritesOnly OffTiles (stW k v) := .of_only (stW_only _ _) (by decide)
  have move {c : Prop} [Decidable c] {k v w pl pg pos : Nat} {x : Option Nat} : WritesOnly OffTiles
      (if c then do Machine.stW k v; return x else do Machine.stW k (← wpNextPage w pl pg pos); return x) :=
    .ite (.bind stW fun _ => .pure) (.bind (.of_only (wpNextPage_only _ _ _ _) (by decide)) fun _ => .bind stW fun _ => .pure)
  refine .bind .get fun s => ?_
  dsimp only
  split
  · exact .pure
  · exact .ite (.bind takeBlk_offTiles fun _ => .bind stW fun _ => move) move

theorem wpTakeFirst_offTiles {l : List (Nat × Nat × Nat)} : WritesOnly OffTiles (wpTakeFirst l) := by
  induction l with
  | nil => exact .pure
  | cons e l ih =>
    refine .bind wpTake_offTiles fun a => ?_
    cases a with
    | some a => exact .pure
    | none => exact ih

theorem logPump_offTiles : WritesOnly OffTiles logPump := by
  refine .bind .get fun s => ?_
  dsimp only
  split
  · exact .pure
  · refine .ite .pure (.ite .pure (.bind wpTakeFirst_offTiles fun a => ?_))
    cases a with
    | none => exact .pure
    | some a => exact .of_only (modFlash_only _) (by decide)

theorem flashLost_offTiles {chan : Nat} : WritesOnly OffTiles (flashLost chan) :=
  .bind .get fun _ => .bind (.forIn fun _ _ => .ite (.bind (.of_only (flEnd_only _ _) (by decide)) fun _ => .pure) .pure) fun _ =>
    .bind (.of_only (modFlash_only _) (by decide)) fun _ => .bind (.of_only flSweep_only (by decide)) fun _ => logPump_offTiles

theorem channelFail_offTiles {n : Nat} : WritesOnly OffTiles (channelFail n) :=
  .bind (wrF_writes (.block (by decide))) fun _ => .bind (setIrq_writes (.block (b := .flc) (by decide))) fun _ =>
    .bind (pageFault_offTiles (by decide)) fun _ => flashLost_offTiles

theorem bulkLost_offTiles {k : Nat} : WritesOnly OffTiles (bulkLost k) :=
  .bind (wrF_writes (.block (by decide))) fun _ => pageFault_offTiles (by decide)

theorem coreFail_offTiles {n : Nat} (h : n < 24) : WritesOnly OffTiles (coreFail n) := by
  refine .bind .get fun s => .ite .pure (.bind (.wrR (.hayCore h)) fun _ => .ite .pure ?_)
  split
  · next i hi =>
    have := List.mem_range.1 (List.mem_of_find?_eq_some hi)
    exact .wrR (.hayCore (by omega))
  · exact .ite (haywardShrinks_writes (.inl (by decide)) (.inl (by decide)) (.inl (by decide)) (.block (by decide))
      OffTiles.counter) .pure

theorem hubFail_offTiles {h : Nat} (hh : h < 4) : WritesOnly OffTiles (hubFail h) :=
  .bind (.of_only (stW_only _ _) (by decide)) fun _ =>
    .bind (.forIn fun _ _ => .bind (coreFail_offTiles (by omega)) fun _ => .pure) fun _ => .pure

/-- The hubs that routers carry are the four of the package (R39). -/
theorem hub_lt_of_attachedAt {p h : Nat} (hp : p < 624) (e : attachedAt p = some (6, h)) : h < 4 := by
  unfold attachedAt at e
  dsimp only at e
  split at e
  case h_14 | h_15 =>
    cases e
    omega
  case h_5 | h_13 => split at e <;> cases e
  all_goals cases e

/-- A router that goes OUT sets its own router_out (R33), and what comes of it beside is outside the tiles' registers. -/
theorem reg_routerOut {p : Nat} (hp : p < 624) (s : State) {r : Nat} (hr : ¬ OffTiles r) :
    (Act.run (routerOut p) s).reg r = ((Upd.reg (pageBase .tile p + 0x18)
      (putFld (s.reg (pageBase .tile p + 0x18)) F.PAGE_STATUS.router_out 1)).apply s).reg r := by
  unfold routerOut
  rw [run_wrF_bind]
  refine WritesOnly.reg (P := OffTiles) ?_ _ hr
  extract_lets outs
  have houts : ∀ y, WritesOnly OffTiles (outs y) := fun _ => .bind .get fun _ => .ite pkgFail_offTiles .pure
  split
  · exact .bind .rd fun _ => .ite (.bind siteFail_offTiles houts) (houts ())
  · exact .bind .rd fun _ => .ite (.bind channelFail_offTiles houts) (houts ())
  · exact .bind failPort_offTiles fun _ => .bind portLost_offTiles houts
  · exact .bind bulkLost_offTiles houts
  · next h e => exact .bind .rd fun _ => .ite (.bind (hubFail_offTiles (hub_lt_of_attachedAt hp e)) houts) (houts ())
  · exact .bind .pure houts

end Sys2Proof.Machine
end

section
/-! # The states of a tile (R48) -/

namespace Sys2Proof.Machine

/-- The bit of TILE_FAULT that shows a cause of TILE_FAIL (R47, R48). -/
def faultBit : Nat → Fld
  | 0 => F.TILE_FAULT.sram_ue
  | 1 => F.TILE_FAULT.router
  | _ => F.TILE_FAULT.engine_selftest

theorem faultBit_oneBit (cause : Nat) : (faultBit cause).hi = (faultBit cause).lo ∧ (faultBit cause).lo < 64 := by
  unfold faultBit
  split <;> decide

theorem setTileFault_writes {P : Nat → Prop} {p : Nat} {f : Fld} (h : P (R.TILE_FAULT p)) (g : P (pageBase .tile p + 0x40)) :
    WritesOnly P (setTileFault p f) := .bind .rdF fun _ => .ite (.bind (wrF_writes h) fun _ => setIrq_writes g) .pure

theorem tileState_setTileFault (p : Nat) (f : Fld) (s : State) : (Act.run (setTileFault p f) s).tileState p = s.tileState p :=
  (setTileFault_writes (P := (· ∈ [R.TILE_FAULT p, pageBase .tile p + 0x40])) (by simp) (by simp)).fldOf s
    (by simp [R.TILE_FAULT, regA]) _

/-- A tile in service that fails leaves it: its descriptors in flight are abandoned, and its page is the hayward's (R47, R48). -/
def tileOut (p : Nat) : Act Unit := do
  wrF (pageBase .tile p + 0x18) F.PAGE_STATUS.state 5
  abandonFlights p
  modTile p (fun x => { x with zeroing := false })
  tilePageOwner p

theorem tileOut_only (p : Nat) : Only [.regs, .tiles] (tileOut p) :=
  .bind ((wrF_only _ _ _).sub rfl) fun _ => .bind ((abandonFlights_only p).sub rfl) fun _ =>
    .bind ((modTile_only _ _).sub rfl) fun _ => (tilePageOwner_only p).sub rfl

/-- TILE_FAIL of a tile in service: its fault shows, it leaves service, and its router goes OUT where that has failed. -/
theorem run_tileFail {p cause : Nat} {s : State} (h : s.tileState p = 3 ∨ s.tileState p = 4) :
    Act.run (tileFail p cause) s = Act.run (if cause = 1 then routerOut p else pure ())
      (Act.run (tileOut p) (Act.run (setTileFault p (faultBit cause)) s)) := by
  unfold tileFail
  rw [(setTileFault_only _ _).run_bind, run_rd_bind, tileState_setTileFault]
  dsimp only
  rw [if_pos h]
  exact (tileOut_only p).run_bind _ _

/-- The tile is FAILED, with nothing in flight and the fault shown (R48, R49). -/
structure TileFailed (p : Nat) (f : Fld) (s : State) : Prop where
  state : s.tileState p = 5
  flights : (s.tile p).flights = []
  fault : s.fldOf (R.TILE_FAULT p) f = 1

theorem tile_congr {s t : State} (h : t.tiles = s.tiles) (p : Nat) : t.tile p = s.tile p := by simp [State.tile, h]

theorem run_modTile_bind (p : Nat) (f : TileX → TileX) (g : Unit → Act Unit) (s : State) :
    Act.run (modTile p f >>= g) s = Act.run (g ()) ((Upd.tile p (f (s.tile p))).apply s) := rfl

theorem tileFailed_tileOut {p : Nat} {f : Fld} {s : State} (h : s.fldOf (R.TILE_FAULT p) f = 1) :
    TileFailed p f (Act.run (tileOut p) s) := by
  unfold tileOut abandonFlights
  simp only [run_wrF_bind, run_bind_bind, run_modTile_bind]
  constructor
  · rw [tileState_tilePageOwner, State.tileState, fldOf_upd_tile, fldOf_upd_ne _ _ _ _ _ (by simp [R.TILE_OP_STATUS, regA]),
      fldOf_upd_tile]
    exact fldOf_put_self _ _ _ _ (by decide)
  · rw [tile_congr (((tilePageOwner_only p).run _).2 .tiles (by decide)), tile_upd_self, tile_upd_reg, tile_upd_self]
  · rw [(tilePageOwner_writes (P := (· = pageBase .tile p + 0x20)) rfl).fldOf _ (by simp [R.TILE_FAULT, regA]), fldOf_upd_tile,
      fldOf_upd_ne _ _ _ _ _ (by simp [R.TILE_FAULT, R.TILE_OP_STATUS, regA]), fldOf_upd_tile,
      fldOf_upd_ne _ _ _ _ _ (by simp [R.TILE_FAULT, regA]), h]

/-- A router that goes OUT leaves its tile as failed as it was. -/
theorem TileFailed.routerOut {p : Nat} {f : Fld} {s : State} (hp : p < 624) (h : TileFailed p f s) :
    TileFailed p f (Act.run (routerOut p) s) where
  state := by
    refine (congrArg (getFld · _) (reg_routerOut hp s (OffTiles.not_status hp))).trans ?_
    exact (fldOf_put_ne _ _ _ _ _ (by decide) (by decide)).trans h.state
  flights := by rw [tile_congr (((routerOut_only p).run s).2 .tiles (by decide)), h.flights]
  fault := by
    refine (congrArg (getFld · f) (reg_routerOut hp s (OffTiles.not_fault hp))).trans ?_
    exact (fldOf_upd_ne _ _ _ _ _ (by simp [R.TILE_FAULT, regA])).trans h.fault

theorem tileFailed_tileFail {p cause : Nat} {s : State} (hp : p < 624) (h : s.tileState p = 3 ∨ s.tileState p = 4) :
    TileFailed p (faultBit cause) (Act.run (tileFail p cause) s) := by
  rw [run_tileFail h]
  have out := tileFailed_tileOut (p := p) (fldOf_raised (a := R.TILE_FAULT p) (pb := pageBase .tile p) (i := 32)
    (faultBit_oneBit cause) (by simp [R.TILE_FAULT, regA]) s)
  split
  · exact out.routerOut hp
  · exact out

theorem exec_tileFail (tile : TileId) (cause : Fin 3) (s : State) :
    exec (.tileFail tile cause) s = .next (Act.run (mains (tileFail tile cause)) s) := rfl

/-- Settles O16 (it holds): a self-test begins by an accepted write of selftest_start, its end sets the state and the check of
the map makes a mapped tile ACTIVE, and a failed tile stays FAILED whatever its router takes with it. -/
theorem tileStates : Obligations.TileStates := by
  unfold Obligations.TileStates
  refine ⟨fun s core tile hi hst ha => ?_, fun s tile pass hs h1 hc => ?_, fun s tile cause hs hst => ?_⟩
  · obtain ⟨t, h, hstate, g, q⟩ := selftestStart_accepted (x := {}) tile.isLt hi hst
      (getFld_putFld_self _ _ _ (by decide) (by decide)) ha
    exact ⟨_, exec_selftestStart core tile s, h.2, (h.fldOf _ _).trans hstate, h.regsBut g, h.sameBut q⟩
  · refine ⟨_, exec_selftestDone tile pass s, ?_⟩
    rw [run_mains _ _ hs.1 hs.2]
    exact ⟨tileState_selftestDone tile.isLt h1 hc, (selftestDone_only _ _).run s⟩
  · refine ⟨_, exec_tileFail tile cause s, ?_⟩
    rw [run_mains _ _ hs.1 hs.2]
    obtain ⟨hstate, hflights, hfault⟩ := tileFailed_tileFail (cause := cause) tile.isLt hst
    refine ⟨hstate, hflights, ?_⟩
    fin_cases cause <;> exact hfault

end Sys2Proof.Machine
end

section
/-! # One clock of fabric time (R53) -/

namespace Sys2Proof.Machine

/-- Each round of a loop that leaves the state as it is leaves it so altogether. -/
theorem Runs.forIn_same {β : Type} {xs : List β} {g : β → Unit → Act (ForInStep Unit)} {s : State}
    (h : ∀ x ∈ xs, Runs (g x ()) s (.yield ()) s) : Runs (forIn xs () g) s () s := by
  induction xs with
  | nil => exact Runs.pure _ _
  | cons x xs ih =>
    rw [List.forIn_cons]
    exact (h x List.mem_cons_self).bind (ih fun y hy => h y (List.mem_cons_of_mem _ hy))

theorem run_modTime (f : TimeX → TimeX) (s : State) : Act.run (modTime f) s = (Upd.time (f s.time)).apply s := rfl

theorem run_clockTick {s : State} {n : Nat} (h : ((s.now * 2 ^ 32 + s.time.frac : Nat) + 2 ^ 32 + s.rateAdj : Int) = n) :
    Act.run clockTick s = (Upd.time { s.time with frac := n % 2 ^ 32 }).apply
      ((Upd.reg R.TIM_NOW (BitVec.ofNat 64 (n / 2 ^ 32))).apply s) := by
  unfold clockTick
  rw [run_get_bind]
  dsimp only
  rw [h]
  rfl

theorem run_mgtDrain {s : State} (h : s.land.txq = []) : Act.run mgtDrain s = s := by
  unfold mgtDrain
  rw [run_get_bind, run_ite, if_neg (by simp [h])]
  rfl

theorem runs_quenchExpire {s : State} {p : Nat} (h : ∀ t, (s.part p).quenchEnd = some t → s.now < t) :
    Runs (quenchExpire p) s () s := by
  refine (Runs.get s).bind ?_
  split
  · next t ht =>
    rw [if_neg (by have := h t ht; omega)]
    exact Runs.pure _ _
  · exact Runs.skip s

theorem elapse_zero : elapse 0 = pure () := rfl

/-- Nothing falls due with this clock: no frame waits at the management port, no microsecond has ended since `before`, no
quench has run out and no tick edge has come (R53, R62, R343). -/
structure QuietClock (before : Nat) (s : State) : Prop where
  txq : s.land.txq = []
  micro : s.now / 1000 = before / 1000
  quench : ∀ p < 32, ∀ t, (s.part p).quenchEnd = some t → s.now < t
  edge : s.run = true → s.now < s.time.nextTime + 100

/-- A clock with which nothing falls due is all an idle step is. -/
theorem run_idleStep {s : State} (h : QuietClock s.now (Act.run clockTick s)) : Act.run idleStep s = Act.run clockTick s := by
  have hedge : ((Act.run clockTick s).run && decide ((Act.run clockTick s).time.nextTime + 100 ≤ (Act.run clockTick s).now)) =
      false := by
    cases hr : (Act.run clockTick s).run with
    | false => rfl
    | true => simpa using h.edge hr
  have hloop : Runs (forIn (List.range 32) () fun p _ => do quenchExpire p; return .yield ()) (Act.run clockTick s) ()
      (Act.run clockTick s) := Runs.forIn_same fun p hp =>
        (runs_quenchExpire (h.quench p (List.mem_range.1 hp))).bind (Runs.pure _ _)
  unfold idleStep
  rw [run_rd_bind, clockTick_only.run_bind, mgtDrain_only.run_bind, run_mgtDrain h.txq, run_rd_bind, h.micro, Nat.sub_self,
    elapse_zero, run_pure_bind, run_bind_of_runs _ hloop, run_get_bind, run_ite, hedge]
  rfl

theorem step_idle {s : State} (h : s.pending = []) : step s = .next (Act.run idleStep s) := by
  unfold step
  rw [h]

/-- Settles O2 (it holds): the clock comes to `n`, and nothing of the step's rest falls due then. -/
theorem idleStepIsOneClock : Obligations.IdleStepIsOneClock := by
  unfold Obligations.IdleStepIsOneClock
  intro s n hp htxq hquench hedge hn hlt hmicro
  have hclock := run_clockTick hn
  have hnow : (Act.run clockTick s).now = n / 2 ^ 32 := by
    rw [hclock, State.now, reg_upd_time, reg_upd_self, BitVec.toNat_ofNat, Nat.mod_eq_of_lt (by omega)]
  have hrun : (Act.run clockTick s).run = s.run := by
    rw [hclock]
    unfold State.run
    rw [fldOf_upd_time, fldOf_upd_ne _ _ _ _ _ (by decide)]
  have hquiet : QuietClock s.now (Act.run clockTick s) := by
    refine ⟨?_, hnow ▸ hmicro, fun p hp t ht => ?_, fun hr => ?_⟩
    · rw [hclock]
      exact htxq
    · rw [hclock, part_upd_time, part_upd_reg] at ht
      exact hnow ▸ hquench p hp t ht
    · rw [hnow, hclock]
      exact hedge (hrun ▸ hr)
  refine ⟨_, step_idle hp, ?_⟩
  rw [run_idleStep hquiet]
  refine ⟨hnow, by rw [hclock]; rfl, ?_, clockTick_only.run s⟩
  rw [hclock]
  exact regsBut_upd_reg _ _ s

end Sys2Proof.Machine
end

section
/-! # A built step starts, a barrier releases (R68 to R70) -/

namespace Sys2Proof.Machine

theorem WritesOnly.forIn_mem {β σ : Type} {P : Nat → Prop} {xs : List β} {y : σ} {g : β → σ → Act (ForInStep σ)}
    (h : ∀ x ∈ xs, ∀ y, WritesOnly P (g x y)) : WritesOnly P (ForIn.forIn xs y g) := by
  induction xs generalizing y with
  | nil => exact .pure
  | cons x xs ih =>
    rw [List.forIn_cons]
    refine .bind (h x List.mem_cons_self y) fun r => ?_
    cases r with
    | done z => exact .pure
    | yield z => exact ih fun x hx => h x (List.mem_cons_of_mem _ hx)

/-! ## What the tiles of a starting step write (R70, R93) -/

/-- The registers of the tiles' pages (R7). -/
def OnTiles (a : Nat) : Prop := pageBase .tile 0 ≤ a ∧ a < pageBase .tile 624

theorem onTiles {q off : Nat} (hq : q < 624) (h : off < 0x1000) : OnTiles (regA .tile q off) := by
  unfold OnTiles regA pageBase
  omega

theorem sampleStreams_onTiles {q : Nat} (hq : q < 624) {again : Bool} : WritesOnly OnTiles (sampleStreams q again) := by
  have hmod {f : TileX → TileX} : WritesOnly OnTiles (modTile q f) := modTile_writes
  have hstream {i : Nat} {f : QStream → QStream} : WritesOnly OnTiles (modStream q i f) := modTile_writes
  refine .bind .get fun s => ?_
  extract_lets rest
  have hrest : ∀ y, WritesOnly OnTiles (rest y) := fun _ =>
    .bind (.forIn fun _ _ => .bind hstream fun _ => .pure) fun _ => .bind hmod fun _ =>
      .bind (.wrR (onTiles hq (by decide))) fun _ => .wrR (onTiles hq (by decide))
  refine .ite (.bind (.forIn_mem fun i hi _ => .bind hstream fun _ => .bind (wrF_writes ?_) fun _ => .pure) fun _ =>
    .bind hmod hrest) (hrest ())
  have := List.mem_range.1 hi
  unfold OnTiles R.TILE_QS_EFFECT regA pageBase
  omega

theorem barrierRelease_writes {P : Nat → Prop} {q : Nat} : WritesOnly P (barrierRelease q) :=
  .of_only (barrierRelease_only q) (by decide)

/-! ## The start (R68, R69) -/

/-- A start later than the step's start tick is counted (R69). -/
def lateStart (s : State) (p : Nat) : Act Unit := do
  if s.fldOf (R.REQ_STEP_ARM p) F.REQ_STEP_ARM.start_tick < s.tick then count (C.REQ_CNT_LATE_START p) 1

/-- The number of a step that is no re-run rises, and its base weights are named (R68, R315). -/
def stepNumbered (s : State) (p : Nat) : Act Unit := do
  wrF (R.TIM_STEP p) F.TIM_STEP.step (s.fldOf (R.TIM_STEP p) F.TIM_STEP.step + 1)
  stW (baseSlotKey p) (s.fldOf R.BIN_BASE_ACTIVE F.BIN_BASE_ACTIVE.slot + 1)
  lateStart s p

/-- The tiles of a starting step sample their streams and take its barrier's release (R70, R93). -/
def tilesStart (s : State) (p : Nat) : Act Unit := do
  stW baseWaitKey (clrBit (s.wordAt baseWaitKey).toNat p)
  for q in s.tilesOf p do
    sampleStreams q (s.part p).rerun
    barrierRelease q

/-- What shows that the step runs, and its tiles' start (R68). -/
def stepShown (s : State) (p : Nat) : Act Unit := do
  wrF (R.TIM_STEP p) F.TIM_STEP.running 1
  wrF (R.REQ_STEP_START p) F.REQ_STEP_START.tick s.tick
  tilesStart s p

theorem stepNumbered_only {s : State} {p : Nat} : Only [.regs, .tab] (stepNumbered s p) :=
  .bind ((wrF_only _ _ _).sub rfl) fun _ => .bind ((stW_only _ _).sub rfl) fun _ =>
    .ite ((count_only _ _).sub rfl) (.pure _ _)

/-- A step that is due takes its phase, then its number unless it runs again, and then it shows. -/
theorem run_stepStart {s : State} {p : Nat} (h : s.stepDue p = true) : Act.run (stepStart p) s = Act.run (stepShown s p)
    (Act.run (if (s.part p).rerun then pure () else stepNumbered s p) (Act.run (setPhase p 3) s)) := by
  have hphase : Only [.regs] (setPhase p 3) := wrF_only _ _ _
  have hbegin : Act.run (stepStart p) s = Act.run (do
      setPhase p 3
      if (s.part p).rerun then stepShown s p else do stepNumbered s p; stepShown s p) s := by
    unfold stepStart stepShown stepNumbered lateStart tilesStart
    rw [run_get_bind]
    simp only [h, Bool.not_true, Bool.false_eq_true, if_false]
    cases (s.part p).rerun with
    | true => simp only [Bool.not_true, Bool.false_eq_true, if_false, if_true]
    | false =>
      by_cases hl : s.fldOf (R.REQ_STEP_ARM p) F.REQ_STEP_ARM.start_tick < s.tick <;>
        simp only [hl, Bool.not_false, Bool.false_eq_true, if_true, if_false, bind_assoc, pure_bind]
  rw [hbegin, hphase.run_bind, run_ite, stepNumbered_only.run_bind]
  split <;> rfl

theorem lt_of_mem_tilesOf {s : State} {p q : Nat} (h : q ∈ s.tilesOf p) : q < 624 := by
  unfold State.tilesOf at h
  exact List.mem_range.1 (List.mem_filter.1 h).1

theorem tilesStart_onTiles {s : State} {p : Nat} : WritesOnly OnTiles (tilesStart s p) := by
  unfold tilesStart
  have htiles : WritesOnly OnTiles (forIn (s.tilesOf p) () fun q _ => do
      sampleStreams q (s.part p).rerun; barrierRelease q; return .yield ()) :=
    .forIn_mem fun q hq _ => .bind (sampleStreams_onTiles (lt_of_mem_tilesOf hq)) fun _ =>
      .bind barrierRelease_writes fun _ => .pure
  exact .bind (.of_only (stW_only _ _) (by decide)) fun _ => .bind htiles fun _ => .pure

theorem not_onTiles_req {q off : Nat} : ¬ OnTiles (regA .req q off) := by
  unfold OnTiles regA pageBase
  simp only [Block.base]
  omega

/-- The counters of every page (R454). -/
def IsCounter (a : Nat) : Prop := 0x800 ≤ a % 0x1000

theorem count_counters {a n : Nat} (h : IsCounter a) : WritesOnly IsCounter (count a n) := count_writes h fun _ h => h

theorem lateStart_counters {s : State} {p : Nat} : WritesOnly IsCounter (lateStart s p) :=
  .ite (count_counters (by simp only [IsCounter, C.REQ_CNT_LATE_START, regA, pageBase, Block.base]; omega)) .pure

/-- The step number that a partition's step start leaves (R68): a re-run keeps it. -/
def State.stepAfter (s : State) (p : Nat) : Nat := if (s.part p).rerun then s.fldOf (R.TIM_STEP p) F.TIM_STEP.step
  else (s.fldOf (R.TIM_STEP p) F.TIM_STEP.step + 1) % 2 ^ (F.TIM_STEP.step.hi + 1 - F.TIM_STEP.step.lo)

/-- TIM_STEP lies apart from the step's registers on the request page, and none of them among the counters. -/
theorem stepRegs_apart {p : Nat} (hp : p < 32) : ¬ IsCounter (R.TIM_STEP p) ∧ ¬ IsCounter (R.REQ_STEP_STATUS p) ∧
    R.TIM_STEP p ≠ R.REQ_STEP_STATUS p ∧ R.TIM_STEP p ≠ R.REQ_STEP_START p ∧ R.REQ_STEP_STATUS p ≠ R.REQ_STEP_START p := by
  simp only [IsCounter, R.REQ_STEP_STATUS, R.TIM_STEP, R.REQ_STEP_START, regA, pageBase, Block.base]
  omega

/-- Numbering a step that is due, if it is no re-run, leaves its phase and the number that it starts with. -/
theorem run_stepNumbered (s u : State) {p : Nat} (hp : p < 32)
    (hu : u.fldOf (R.TIM_STEP p) F.TIM_STEP.step = s.fldOf (R.TIM_STEP p) F.TIM_STEP.step) {t : State}
    (ht : Act.run (if (s.part p).rerun then pure () else stepNumbered s p) u = t) :
    t.phase p = u.phase p ∧ t.fldOf (R.TIM_STEP p) F.TIM_STEP.step = s.stepAfter p := by
  obtain ⟨hct, hcs, hst, -, -⟩ := stepRegs_apart hp
  subst ht
  unfold State.stepAfter State.phase
  split
  · exact ⟨rfl, hu⟩
  · unfold stepNumbered
    rw [run_wrF_bind, run_stW_bind, lateStart_counters.fldOf _ hcs, lateStart_counters.fldOf _ hct, fldOf_upd_word,
      fldOf_upd_word, fldOf_upd_ne _ _ _ _ _ hst.symm]
    exact ⟨rfl, fldOf_put_self _ _ _ _ (by decide)⟩

/-- The step's registers show that it runs and since which tick; its phase and number stay (R68). -/
theorem run_stepShown (s u : State) {p : Nat} (hp : p < 32) {t : State} (ht : Act.run (stepShown s p) u = t) :
    t.phase p = u.phase p ∧ t.fldOf (R.TIM_STEP p) F.TIM_STEP.running = 1 ∧
      t.fldOf (R.TIM_STEP p) F.TIM_STEP.step = u.fldOf (R.TIM_STEP p) F.TIM_STEP.step ∧
      t.fldOf (R.REQ_STEP_START p) F.REQ_STEP_START.tick = s.tick := by
  obtain ⟨-, -, hst, hss, hps⟩ := stepRegs_apart hp
  have hlt : s.tick < 2 ^ (F.REQ_STEP_START.tick.hi + 1 - F.REQ_STEP_START.tick.lo) :=
    getFld_lt (s.reg R.TIM_TICK_NOW) F.TIM_TICK_NOW.tick
  have htim : ¬ OnTiles (R.TIM_STEP p) := by
    simp only [OnTiles, R.TIM_STEP, regA, pageBase, Block.base]
    omega
  subst ht
  unfold stepShown State.phase
  rw [run_wrF_bind, run_wrF_bind, tilesStart_onTiles.fldOf _ htim, tilesStart_onTiles.fldOf _ htim,
    tilesStart_onTiles.fldOf (r := R.REQ_STEP_STATUS p) _ not_onTiles_req,
    tilesStart_onTiles.fldOf (r := R.REQ_STEP_START p) _ not_onTiles_req]
  refine ⟨?_, ?_, ?_, ?_⟩
  · rw [fldOf_upd_ne _ _ _ _ _ hps, fldOf_upd_ne _ _ _ _ _ hst.symm]
  · rw [fldOf_upd_ne _ _ _ _ _ hss]
    exact fldOf_put_self _ _ _ _ (by decide)
  · rw [fldOf_upd_ne _ _ _ _ _ hss]
    exact fldOf_put_ne _ _ _ _ _ (by decide) (by decide)
  · exact (fldOf_put_self _ _ _ _ (by decide)).trans (Nat.mod_eq_of_lt hlt)

/-! ## A barrier's release (R70) -/

theorem run_barrierRelease {s : State} {q m : Nat} (hz : s.opqSize q ≠ 0) {from_ : Nat}
    (hf : from_ = if backwards32 (s.opqIssued q) (s.tile q).released then s.opqIssued q else (s.tile q).released)
    (hb : backwards32 from_ (s.opqTail q) = false)
    (hm : ((List.range (moves32 from_ (s.opqTail q))).map (fun i => (from_ + i) % 2 ^ 32)).find?
      (fun m => dBarrier (s.descAt q m)) = some m) :
    Act.run (barrierRelease q) s = (Upd.tile q { s.tile q with released := (m + 1) % 2 ^ 32 }).apply s := by
  subst hf
  unfold barrierRelease
  rw [run_get_bind]
  dsimp only
  rw [run_ite, if_neg (by simp [hz, hb]), hm]
  rfl

theorem exec_stepStart (p : PartId) (s : State) : exec (.stepStart p) s = .next (Act.run (mains (stepStart p)) s) := rfl

theorem exec_barrierRelease (tile : TileId) (s : State) :
    exec (.barrierRelease tile) s = .next (Act.run (mains (barrierRelease tile)) s) := rfl

/-- Settles O14 (it holds): a due step takes its phase and number and shows its start, which its tiles' sampling leaves, and
a release goes to the first barrier descriptor found. -/
theorem stepStarts : Obligations.StepStarts := by
  unfold Obligations.StepStarts
  refine ⟨fun s p hs hdue => ?_, ?_⟩
  · have hphase : (Act.run (setPhase p 3) s).phase p = 3 := fldOf_put_self _ _ _ _ (by decide)
    have hstep := fldOf_upd_ne s _ (putFld (s.reg (R.REQ_STEP_STATUS p)) F.REQ_STEP_STATUS.phase 3) _ F.TIM_STEP.step
      (stepRegs_apart p.isLt).2.2.1
    refine ⟨_, exec_stepStart p s, ?_⟩
    rw [run_mains _ _ hs.1 hs.2]
    have hsame := (stepStart_only p).run s
    rw [run_stepStart hdue] at hsame ⊢
    obtain ⟨hphase₁, hstep₁⟩ := run_stepNumbered s (Act.run (setPhase p 3) s) p.isLt hstep rfl
    obtain ⟨hphase₂, hrun, hstep₂, htick⟩ := run_stepShown s (Act.run (if (s.part p).rerun then pure () else stepNumbered s p)
      (Act.run (setPhase p 3) s)) p.isLt rfl
    exact ⟨(hphase₂.trans hphase₁).trans hphase, hrun, hstep₂.trans hstep₁, htick, hsame⟩
  · intro s tile m hs hz from_ hb hm
    rw [exec_barrierRelease, run_mains _ _ hs.1 hs.2, run_barrierRelease hz rfl hb hm]

end Sys2Proof.Machine
end

section
/-! # Staged values (R64, R66) -/

namespace Sys2Proof.Machine

/-! ## A staged write -/

/-- A cleared key reads its default, whatever the order of the store's keys. -/
theorem storeGet_storeClear_mem {α : Type} (d : Nat → α) (m : List (Nat × α)) {lo hi k : Nat} (h : lo ≤ k) (g : k < hi) :
    storeGet d (storeClear m lo hi) k = d k := by
  induction m with
  | nil => rfl
  | cons e m ih =>
    unfold storeClear at ih ⊢
    by_cases he : e.1 < lo ∨ hi ≤ e.1
    · rw [List.filter_cons_of_pos (by simpa using he)]
      show (if k < e.1 then d k else if k = e.1 then e.2 else _) = _
      rw [if_neg (show ¬ k = e.1 by omega), ih, ite_self]
    · rw [List.filter_cons_of_neg (by simpa using he), ih]

/-- A write at once of none of a row's fields leaves the word. -/
theorem written_of_no_mask {r : RegRow} (hw : r.mask (fun a => a = .rw || a = .hw || a = .wo || (false && a.isStaged)) = 0)
    (hc : r.mask (fun a => a = .w1c) = 0) (old v : Word) : r.written old v false = old := by
  unfold RegRow.written mergeBits
  simp only [hw, hc, Nat.and_zero, Nat.or_zero, Nat.sub_zero, Nat.and_two_pow_sub_one_eq_mod, Nat.mod_eq_of_lt old.isLt,
    BitVec.ofNat_toNat, BitVec.setWidth_eq]

/-- The state once `v` waits for register `a` of page `pb` (R64). -/
def State.staging (s : State) (a pb : Nat) (v : Word) : State :=
  (Upd.reg (pb + 0x18) (putFld (s.reg (pb + 0x18)) F.PAGE_STATUS.staged_pending 1)).apply ((Upd.stage a (some v)).apply s)

/-- While ticks run, a register all of whose fields are tick-staged stages what is written (R64). -/
theorem runs_plainWrite_staged {a : Nat} {r : RegRow} {s : State} (hrow : rowOf a = some r) (hst : r.staged = true)
    (hall : r.fields.all (fun f => f.acc.isStaged || f.acc = .ro) = true) (hrun : s.run = true) (v : Word) :
    Runs (plainWrite a v) s () (((Upd.reg a (r.written (s.reg a) v false)).apply s).staging a (pbOf a) v) := by
  unfold plainWrite
  simp only [hrow, hst, hall, Bool.true_or, if_true]
  refine (Runs.rd _ s).bind ((Runs.rd _ s).bind ?_)
  simp only [hrun, Bool.and_self, if_true]
  exact (Runs.upd _ _).bind ((Runs.upd _ _).bind ((Runs.rd _ _).bind (Runs.upd _ _)))

theorem runs_storeReg_staged {a : Nat} {r : RegRow} {s : State} (hrow : rowOf a = some r) (hst : r.staged = true)
    (hall : r.fields.all (fun f => f.acc.isStaged || f.acc = .ro) = true) (hrun : s.run = true) (v : Word)
    (ha : a ≠ R.TIM_TICK_CTRL) (hp : pbOf a + 0x18 ≠ R.TIM_TICK_CTRL) :
    Runs (storeReg a v) s () (((Upd.reg a (r.written (s.reg a) v false)).apply s).staging a (pbOf a) v) := by
  have hrun' : (((Upd.reg a (r.written (s.reg a) v false)).apply s).staging a (pbOf a) v).run = true := by
    unfold State.staging State.run at *
    rw [fldOf_upd_ne _ _ _ _ _ hp.symm, fldOf_upd_stage, fldOf_upd_ne _ _ _ _ _ ha.symm, hrun]
  unfold storeReg
  refine (Runs.rd _ s).bind ((runs_plainWrite_staged hrow hst hall hrun v).bind ((Runs.rd _ _).bind ?_))
  rw [hrun']
  exact Runs.pure _ _

/-! ## The counts of the thresholds (R457) -/

theorem thresholdCount_row (i : Fin 16) : ∃ r, rowOf (R.CNT_THR_N i) = some r ∧ r.staged = true ∧
    r.fields.all (fun f => f.acc.isStaged || f.acc = .ro) = true ∧ ∀ old v, r.written old v false = old := by
  have e : R.CNT_THR_N i = regA .cnt 2 (0x108 + 16 * i) := by
    unfold R.CNT_THR_N regA
    omega
  have hslot : ∃ k, slotAt .cnt 2 (0x108 + 16 * i) = .reg (row "CNT_THR_N_i" 0x108 16 64 [fld "n" 15 0 .rwt 0]) k := by
    fin_cases i <;> exact ⟨_, rfl⟩
  obtain ⟨k, hk⟩ := hslot
  exact ⟨_, e ▸ rowOf_regA (by decide) (by omega) hk, rfl, rfl, written_of_no_mask rfl rfl⟩

theorem thresholdCount_page (i : Fin 16) : R.CNT_THR_N i = regA .cnt 2 (0x108 + 16 * i) ∧
    pbOf (R.CNT_THR_N i) = pageBase .cnt 2 ∧ R.CNT_THR_N i ≠ R.TIM_TICK_CTRL ∧ R.CNT_THR_N i ≠ pageBase .cnt 2 + 0x18 := by
  simp only [R.CNT_THR_N, R.TIM_TICK_CTRL, pbOf, regA, pageBase, Block.base]
  omega

theorem exec_stagedWrite (core : CoreId) (addr : BitVec 64) (v : Word) (s : State) :
    exec (.stagedWrite core addr v) s = .next (Act.run (busWriteX {} core addr.toNat 8 v) s) := rfl

theorem regsBut_upd_reg_self (s : State) (a : Nat) : RegsBut [] s ((Upd.reg a (s.reg a)).apply s) := fun b _ => by
  rw [reg_upd_reg]
  split
  · next h => rw [h]
  · rfl

/-- A value waits for its register beside the one in effect: of the registers PAGE_STATUS alone changes (R64). -/
theorem staging_waits (s : State) (a pb : Nat) (v : Word) : storeGet (fun _ => none) (s.staging a pb v).staged a = some v ∧
    (s.staging a pb v).fldOf (pb + 0x18) F.PAGE_STATUS.staged_pending = 1 ∧ RegsBut [pb + 0x18] s (s.staging a pb v) ∧
    SameBut [.regs, .staged] s (s.staging a pb v) :=
  ⟨storeGet_put_same _ _ _, fldOf_put_self ((Upd.stage a (some v)).apply s) _ _ _ (by decide),
    regsBut_upd_reg _ _ ((Upd.stage a (some v)).apply s), (SameBut.upd (.stage _ _) s rfl).trans (SameBut.upd _ _ rfl)⟩

/-- An accepted write of a threshold's count while ticks run comes to its staging. -/
theorem answered_thresholdWrite {x : BusX} {core : Nat} {i : Fin 16} {v : Word} {s : State} (hrun : s.run = true)
    (ha : Admits s core (R.CNT_THR_N i) v) :
    Answered (((Upd.reg (R.CNT_THR_N i) (s.reg (R.CNT_THR_N i))).apply s).staging (R.CNT_THR_N i) (pageBase .cnt 2) v)
      (Act.run (busWriteX x core (R.CNT_THR_N i) 8 v) s) := by
  obtain ⟨r, hrow, hst, hall, hold⟩ := thresholdCount_row i
  obtain ⟨he, hpb, hctrl, -⟩ := thresholdCount_page i
  have hstore := runs_storeReg_staged hrow hst hall hrun v hctrl (by rw [hpb]; decide)
  rw [hold, hpb] at hstore
  have hoff : R.CNT_THR_N i - pageBase .cnt 2 = 0x108 + 16 * i := by rw [he, regA_sub]
  refine busWriteX_done x core _ 8 v .cnt 2 s _ ha.1 (he ▸ pageOf_regA .cnt 2 _ (by decide) (by omega)) (by decide) ha.2
    (by omega) ?_
  rw [hoff]
  refine (Runs.get s).bind (runs_storedUnless_false (by simp) ?_)
  have : R.CNT_THR_N i = pageBase .cnt 2 + (0x108 + 16 * i) := he
  exact this ▸ hstore.bind (Runs.pure _ _)

/-- Settles O9 (it holds): a threshold's count has only a tick-staged field, so that its accepted write stages the value. -/
theorem stagedWriteWaits : Obligations.StagedWriteWaits := by
  unfold Obligations.StagedWriteWaits
  intro s core i v hrun ha
  obtain ⟨he, -, -, hne⟩ := thresholdCount_page i
  have h := answered_thresholdWrite (x := {}) hrun ha
  refine ⟨_, exec_stagedWrite _ _ _ _, ?_⟩
  rw [he, toNat_regA (by decide) (by omega), ← he]
  obtain ⟨hstaged, hpend, hregs, hsame⟩ :=
    staging_waits ((Upd.reg (R.CNT_THR_N i) (s.reg (R.CNT_THR_N i))).apply s) (R.CNT_THR_N i) (pageBase .cnt 2) v
  have hregs' : RegsBut [pageBase .cnt 2 + 0x18] s _ := ((regsBut_upd_reg_self s _).mono (by simp)).trans hregs
  refine ⟨h.2, ?_, (h.fldOf _ _).trans hpend, (h.reg _).trans (hregs' _ (by simpa using hne)), h.regsBut hregs', ?_⟩
  · rw [show _ = _ from h.1.2 .staged (by decide), hstaged]
  · exact (((SameBut.upd _ s rfl).trans hsame).mono (by decide)).trans (h.1.mono (by decide))

/-! ## SCHED_TICK while a value is staged (R66) -/

/-- The page of a SCHED_TICK, by number. -/
theorem winPage_of_schedTick {n : Nat} {b : Block} {p : Nat} (h : pageOf (winPage n + 0x50) = some (b, p)) :
    p < b.pages ∧ winPage n = pageBase b p := by
  obtain ⟨h1, h2, rfl⟩ := pageOf_eq_some h
  unfold winPage pageBase at *
  cases b <;> simp only [Block.base, Block.pages] at * <;> omega

/-- SCHED_TICK is plain. -/
theorem schedTick_row {b : Block} {p : Nat} (hp : p < b.pages) : ∃ r, rowOf (regA b p 0x50) = some r ∧ r.staged = false :=
  ⟨_, rowOf_regA hp (by decide) rfl, rfl⟩

/-- A tick other than 0 is refused with 0x08 while a value is staged (R66). -/
theorem runs_schedTickWrite_refused {pb : Nat} {v : Word} {s : State}
    (hs : s.fldOf (pb + 0x18) F.PAGE_STATUS.staged_pending = 1) (hv : getFld v F.SCHED_TICK.tick ≠ 0) :
    Runs (schedTickWrite pb v) s (some 8) s := by
  refine (Runs.rd _ s).bind ?_
  rw [if_pos hs, if_pos hv]
  exact Runs.pure _ _

/-- The state once a page's staged values are discarded (R66). -/
def State.dropped (s : State) (pb : Nat) : State :=
  (Upd.reg (pb + 0x18) (putFld (s.reg (pb + 0x18)) F.PAGE_STATUS.staged_pending 0)).apply
    ((Upd.clearStaged pb (pb + 0x1000)).apply s)

theorem runs_stagedDrop (pb : Nat) (s : State) : Runs (stagedDrop pb) s () (s.dropped pb) :=
  (Runs.upd _ _).bind ((Runs.rd _ _).bind (Runs.upd _ _))

/-- Tick 0 discards the page's staged values, where no base cut-over is committed (R66, R315). -/
theorem runs_schedTickWrite_zero {pb : Nat} {v : Word} {s t : State}
    (hs : s.fldOf (pb + 0x18) F.PAGE_STATUS.staged_pending = 1) (hv : getFld v F.SCHED_TICK.tick = 0) (hpb : pb ≠ pageBase .bin 2)
    (h : Runs (stored (pb + 0x50) v) (s.dropped pb) none t) : Runs (schedTickWrite pb v) s none t := by
  refine (Runs.rd _ s).bind ?_
  rw [if_pos hs, if_neg (by simp [hv])]
  refine (Runs.get s).bind ?_
  rw [if_neg (by simp [hpb])]
  exact (runs_stagedDrop pb s).bind h

theorem runs_commonWrite_schedTick {i : Issuer} {b : Block} {p pb : Nat} {v : Word} {s t : State} {r : Option Nat}
    (h : Runs (schedTickWrite pb v) s r t) : Runs (commonWrite i b p pb (pb + 0x50 - pb) v) s r t := by
  rw [Nat.add_sub_cancel_left]
  exact (Runs.get s).bind h

/-- A refused access is answered with its reason. -/
theorem resp_refuseAs (i : Issuer) (a access e : Nat) (s : State) :
    (Act.run (refuseAs i a access e) s).resp = { reason := e, data := 0 } := by
  unfold refuseAs
  split
  · obtain ⟨_, _, -, h⟩ := run_bind_of_only s (recordRefusal_only _ a i access e) fun _ => Act.upd (.resp _)
    rw [h]
    rfl
  · obtain ⟨_, _, -, h⟩ := run_bind_of_only s (vlog_only 0 a (errInfo i access e)) fun _ => Act.upd (.resp _)
    rw [h]
    rfl

/-- What a write of a common register leaves that the register refuses: the refusal, its answer, and nothing staged. -/
theorem refused_busWriteX_common {x : BusX} {core a e : Nat} {v : Word} {b : Block} {p : Nat} {s : State}
    (ha : Admits s core a v) (hpg : pageOf a = some (b, p)) (hb : b ≠ .dbl) (ho : a - pageBase b p < 0x100)
    (h : Runs (commonWrite (s.coreIssuer core) b p (pageBase b p) (a - pageBase b p) v) s (some e) s) :
    (Act.run (busWriteX x core a 8 v) s).resp.reason = e ∧
      SameBut [.regs, .mem, .resp, .land, .sent] s (Act.run (busWriteX x core a 8 v) s) := by
  obtain ⟨hs, hr⟩ := ha
  have hrun : Act.run (busWriteX x core a 8 v) s = Act.run milestonesCheck (Act.run (refuseAs (s.coreIssuer core) a 2 e) s) := by
    unfold busWriteX
    rw [run_coreActs _ _ _ hs, run_get_bind, ← (refuseAs_only (s.coreIssuer core) a 2 e).run_bind fun _ => milestonesCheck]
    cases b
    case dbl => exact absurd rfl hb
    all_goals
      simp only [hpg, hr, ho, if_true]
      exact run_bind_of_runs s h _
  rw [hrun]
  refine ⟨?_, (((refuseAs_only _ _ _ _).run s).mono (by decide)).trans ((milestonesCheck_only.run _).mono (by decide))⟩
  rw [(milestonesCheck_only.run _).2 .resp (by decide), resp_refuseAs]

theorem exec_schedTickWrite (core : CoreId) (page : Fin 32896) (v : Word) (s : State) :
    exec (.schedTickWrite core page v) s = .next (Act.run (busWriteX {} core (winPage page + 0x50) 8 v) s) := rfl

/-- A page whose staged values are discarded has none, and SCHED_TICK stored after that brings none back (R66). -/
theorem answered_dropped {s t : State} {pb : Nat} {w : Word} (h : Answered ((Upd.reg (pb + 0x50) w).apply (s.dropped pb)) t) :
    t.fldOf (pb + 0x18) F.PAGE_STATUS.staged_pending = 0 ∧
      ∀ a, pb ≤ a → a < pb + 0x1000 → storeGet (fun _ => none) t.staged a = none := by
  refine ⟨?_, fun a h1 h2 => ?_⟩
  · rw [h.fldOf, fldOf_upd_ne _ _ _ _ _ (by omega)]
    exact fldOf_put_self ((Upd.clearStaged pb (pb + 0x1000)).apply s) _ _ _ (by decide)
  · rw [show _ = _ from h.1.2 .staged (by decide)]
    exact storeGet_storeClear_mem _ _ h1 h2

/-- Settles O10 (it holds): while a value is staged SCHED_TICK refuses any tick but 0, which clears the page's staged values
before it is stored. -/
theorem scheduledTickWrite : Obligations.ScheduledTickWrite := by
  unfold Obligations.ScheduledTickWrite
  intro s core page b p v hpg hb hbin ha hpend
  obtain ⟨hp, hpage⟩ := winPage_of_schedTick hpg
  refine ⟨_, exec_schedTickWrite core page v s, ?_⟩
  rw [hpage] at hpg ha ⊢
  split
  · next hv =>
    obtain ⟨r, hrow, hst⟩ := schedTick_row hp
    have h := answered_busWriteX_common (x := {}) ha hpg hb (by omega) (runs_commonWrite_schedTick
      (runs_schedTickWrite_zero hpend hv hbin (runs_stored hrow hst v _)))
    exact ⟨by rw [h.2], answered_dropped h⟩
  · next hv =>
    obtain ⟨hreason, hsame⟩ := refused_busWriteX_common (x := {}) ha hpg hb (by omega) (runs_commonWrite_schedTick
      (runs_schedTickWrite_refused hpend hv))
    exact ⟨hreason, hsame.2 .staged (by decide)⟩

end Sys2Proof.Machine
end

section
/-! # What an action keeps of the state -/

namespace Sys2Proof.Machine

/-- From every state the action goes on, and what `g` reads is as it was. -/
def Keeps {γ α : Type} (g : State → γ) (a : Act α) : Prop := ∀ s, ∃ x t, Runs a s x t ∧ g t = g s

theorem Runs.state_unique {α : Type} {a : Act α} {s t u : State} {x y : α} (h : Runs a s x t) (k : Runs a s y u) : t = u :=
  (h fun _ => .halt).symm.trans (k fun _ => .halt)

namespace Keeps

variable {γ α β : Type} {g : State → γ} {a b : Act α}

theorem of_only {l : List Field} (h : Only l a) (hg : ∀ s t, SameBut l s t → g t = g s) : Keeps g a := fun s =>
  let ⟨x, t, r, q⟩ := h s
  ⟨x, t, r, hg s t q⟩

/-- An action that leaves the time record leaves what is read of it. -/
theorem time {f : TimeX → γ} {l : List Field} (h : Only l a) (hl : Field.time ∉ l) : Keeps (fun s => f s.time) a :=
  of_only h fun _ _ q => congrArg f (q.2 .time hl)

theorem upd {u : Upd} (h : ∀ s, g (u.apply s) = g s) : Keeps g (Act.upd u) := fun s => ⟨(), _, Runs.upd u s, h s⟩

theorem bind {f : α → Act β} (h : Keeps g a) (k : ∀ x, Keeps g (f x)) : Keeps g (a >>= f) := fun s =>
  let ⟨x, t, r, q⟩ := h s
  let ⟨y, u, r', q'⟩ := k x t
  ⟨y, u, r.bind r', q'.trans q⟩

/-- An action that leaves the time record, and then one that keeps what is read of it. -/
theorem time_bind {f : TimeX → γ} {k : α → Act β} {l : List Field} (h : Only l a) (hl : Field.time ∉ l)
    (hk : ∀ x, Keeps (fun s => f s.time) (k x)) : Keeps (fun s => f s.time) (a >>= k) := (time h hl).bind hk

theorem pure {x : α} : Keeps g (Pure.pure x : Act α) := fun s => ⟨x, s, Runs.pure x s, rfl⟩
theorem get : Keeps g Act.get := fun s => ⟨s, s, Runs.get s, rfl⟩
theorem rd {f : State → α} : Keeps g (rd f) := fun s => ⟨f s, s, Runs.rd f s, rfl⟩

/-- An update that is made of what is read of the state. -/
theorem rd_upd {f : State → α} {u : α → Upd} (h : ∀ s, g ((u (f s)).apply s) = g s) :
    Keeps g (do Act.upd (u (← Machine.rd f))) := fun s => ⟨(), _, (Runs.rd f s).bind (Runs.upd _ s), h s⟩

theorem ite {c : Prop} [Decidable c] (h : Keeps g a) (k : Keeps g b) : Keeps g (if c then a else b) := by
  split <;> assumption

theorem forIn {xs : List β} {y : α} {f : β → α → Act (ForInStep α)} (h : ∀ x y, Keeps g (f x y)) :
    Keeps g (ForIn.forIn xs y f) := by
  induction xs generalizing y with
  | nil => exact pure
  | cons x xs ih =>
    rw [List.forIn_cons]
    refine bind (h x y) fun r => ?_
    cases r with
    | done z => exact pure
    | yield z => exact ih

theorem run {a : Act Unit} (h : Keeps g a) (s : State) : g (Act.run a s) = g s :=
  let ⟨_, _, r, q⟩ := h s
  r.run_eq ▸ q

end Keeps

end Sys2Proof.Machine
end

section
/-! # The tick generator (R60, R63) -/

namespace Sys2Proof.Machine

/-! ## A write of TIM_TICK_CTRL -/

/-- TIM_TICK_CTRL is plain, and a write puts its run bit there. -/
theorem tickCtrl_row : ∃ r, rowOf R.TIM_TICK_CTRL = some r ∧ r.staged = false ∧
    ∀ old v, getFld (r.written old v true) F.TIM_TICK_CTRL.run = getFld v F.TIM_TICK_CTRL.run :=
  ⟨_, rowOf_regA (by decide) (by decide) rfl, rfl, fun old v =>
    getFld_written_bit old v (by decide) (by decide) (by decide) (by decide)⟩

/-- The state that has stored a write of TIM_TICK_CTRL shows the written run bit, and nothing else has changed. -/
theorem runs_storeReg_tickCtrl (v : Word) (s : State) : ∃ u, Runs (storeReg R.TIM_TICK_CTRL v) s () u ∧ SameBut [.regs] s u ∧
    RegsBut [R.TIM_TICK_CTRL] s u ∧ u.run = decide (getFld v F.TIM_TICK_CTRL.run = 1) := by
  obtain ⟨r, hrow, hst, hfld⟩ := tickCtrl_row
  refine ⟨_, runs_storeReg hrow hst v s, SameBut.upd _ _ rfl, regsBut_upd_reg _ _ _, ?_⟩
  unfold State.run
  rw [fldOf_upd_self, hfld]

theorem runs_timWrite_runSet {v : Word} {s u : State} (hv : getFld v F.TIM_TICK_CTRL.run = 1) (hr : s.run = false)
    (hf : s.runRefused = false) (h : Runs (storeReg R.TIM_TICK_CTRL v) s () u) :
    Runs (timWrite 1 0x100 v) s none (Act.run tickStart u) := by
  unfold timWrite
  refine (Runs.get s).bind ?_
  simp only [hv, hr, hf, decide_true, Bool.not_false, Bool.false_eq_true, and_false, and_true, not_true_eq_false,
    if_true, if_false]
  exact h.bind ((tickStart_only.runs u).bind (Runs.pure _ _))

theorem runs_timWrite_runClear {v : Word} {s u : State} (hv : getFld v F.TIM_TICK_CTRL.run ≠ 1) (hr : s.run = true)
    (h : Runs (storeReg R.TIM_TICK_CTRL v) s () u) : Runs (timWrite 1 0x100 v) s none (Act.run runClear u) := by
  unfold timWrite
  refine (Runs.get s).bind ?_
  simp only [hv, hr, decide_false, Bool.not_true, Bool.false_eq_true, false_and, and_false, and_true, not_false_eq_true, if_true,
    if_false]
  exact h.bind ((runClear_only.runs u).bind (Runs.pure _ _))

theorem answered_tickCtrlWrite {core : Nat} {v : Word} {s t : State} (ha : Admits s core R.TIM_TICK_CTRL v)
    (h : Runs (timWrite 1 0x100 v) s none t) : Answered t (Act.run (busWriteX {} core R.TIM_TICK_CTRL 8 v) s) :=
  busWriteX_done _ core _ 8 v .tim 1 s t ha.1 (pageOf_regA .tim 1 0x100 (by decide) (by decide)) (by decide) ha.2 (by decide) h

theorem exec_tickRunSet (core : CoreId) (s : State) :
    exec (.tickRunSet core) s = .next (Act.run (busWriteX {} core R.TIM_TICK_CTRL 8 1) s) := rfl

theorem exec_tickRunClear (core : CoreId) (s : State) :
    exec (.tickRunClear core) s = .next (Act.run (busWriteX {} core R.TIM_TICK_CTRL 8 0) s) := rfl

/-! ## The start (R63) -/

/-- The time record of a generator that starts: the first boundary after now is the next tick (R60, R63). -/
def State.started (s : State) : TimeX := { s.time with
  nextTick := wrapI 48 ((s.fldOf R.TIM_EPOCH_TICK F.TIM_EPOCH_TICK.tick : Int) + s.ticksAhead),
  nextTime := (((s.reg R.TIM_EPOCH_TIME).toNat : Int) + s.ticksAhead * s.periodNs).toNat }

theorem run_tickStart (s : State) : Act.run tickStart s = (Upd.time s.started).apply ((Upd.reg R.TIM_TICK_TIME 0).apply
    ((Upd.reg R.TIM_TICK_NOW (putFld (s.reg R.TIM_TICK_NOW) F.TIM_TICK_NOW.tick 0)).apply s)) := rfl

/-- TIM_TICK_CTRL has no part in where the first tick lies. -/
theorem started_congr {s u : State} (h : RegsBut [R.TIM_TICK_CTRL] s u) (g : u.time = s.time) : u.started = s.started := by
  unfold State.started State.ticksAhead State.periodNs State.now State.fldOf
  rw [h R.TIM_EPOCH_TICK (by decide), h R.TIM_EPOCH_TIME (by decide), h R.TIM_NOW (by decide),
    h R.TIM_TICK_PERIOD (by decide), g]

/-- A generator that starts runs as it was told, with its tick registers at 0 (R63). -/
theorem tickStart_done {s t : State} (ht : Act.run tickStart s = t) : t.run = s.run ∧
    t.fldOf R.TIM_TICK_NOW F.TIM_TICK_NOW.tick = 0 ∧ t.reg R.TIM_TICK_TIME = 0 ∧ t.time = s.started ∧
    RegsBut [R.TIM_TICK_NOW, R.TIM_TICK_TIME] s t ∧ SameBut [.regs, .time] s t := by
  have hsame := tickStart_only.run s
  have hregs : WritesOnly (· ∈ [R.TIM_TICK_NOW, R.TIM_TICK_TIME]) tickStart :=
    .bind .get fun _ => .bind (wrF_writes (by simp)) fun _ => .bind (.wrR (by simp)) fun _ =>
      .of_only (modTime_only _) (by decide)
  have hr := hregs.regsBut s
  rw [ht] at hsame hr
  rw [run_tickStart] at ht
  refine ⟨?_, ?_, ?_, ?_, hr, hsame⟩
  · unfold State.run
    rw [hr.fldOf (by decide)]
  · rw [← ht, fldOf_upd_time, fldOf_upd_ne _ _ _ _ _ (by decide)]
    exact fldOf_put_self _ _ _ _ (by decide)
  · rw [← ht, reg_upd_time, reg_upd_self]
  · rw [← ht, upd_time_time]

/-! ## The stop (R59, R63) -/

theorem time_stepAgain (s : State) : (Act.run stepAgain s).time = { s.time with stepped := false } := by
  unfold stepAgain
  rw [(modTime_only _).run_bind, run_rdF_bind, run_ite]
  have h : Only [.regs] (do wrF R.TIM_SYNC_STATUS F.TIM_SYNC_STATUS.state 1; clearPageFault (pageBase .tim 0)) :=
    .bind (wrF_only _ _ _) fun _ => clearPageFault_only _
  split
  · exact (h.run _).2 .time (by decide)
  · rfl

/-- TIM_SYNC_STATUS and the PAGE_STATUS of every page. -/
def SyncOrStatus (a : Nat) : Prop := a = R.TIM_SYNC_STATUS ∨ a % 0x1000 = 0x18

theorem pbOf_status (a : Nat) : SyncOrStatus (pbOf a + 0x18) := by
  right
  unfold pbOf
  simp only [Block.base]
  omega

/-- No page of a list of addresses shows a staged value any more. -/
def pendingCleared (l : List Nat) : Act Unit := do
  for pb in l do wrF (pb + 0x18) F.PAGE_STATUS.staged_pending 0

theorem pendingCleared_only (l : List Nat) : Only [.regs] (pendingCleared l) :=
  .bind (.forIn _ _ fun _ _ => .bind (wrF_only _ _ _) fun _ => .pure _ _) fun _ => .pure _ _

theorem stepAgain_writes : WritesOnly SyncOrStatus stepAgain :=
  .bind (.of_only (modTime_only _) (by decide)) fun _ => .bind .rdF fun _ =>
    .ite (.bind (wrF_writes (.inl rfl)) fun _ => wrF_writes (.inr (by decide))) .pure

/-- Where no base cut-over is staged, a stop discards what is staged, and that is all (R63). -/
theorem run_runClear {s : State} (h : storeGet (fun _ => none) s.staged R.BIN_BASE_ACTIVE = none) : Act.run runClear s =
    (Upd.clearStaged Block.glb.base (pageBase .dbl 128)).apply
      (Act.run (pendingCleared ((s.staged.map (fun e => pbOf e.1)).eraseDups)) (Act.run stepAgain s)) := by
  unfold runClear
  rw [run_get_bind, stepAgain_only.run_bind]
  have e : Act.run (pendingCleared ((s.staged.map (fun e => pbOf e.1)).eraseDups) >>= fun _ =>
      Act.upd (.clearStaged Block.glb.base (pageBase .dbl 128))) (Act.run stepAgain s) = _ :=
    (pendingCleared_only _).run_bind _ _
  rw [← run_upd, ← e]
  simp only [h, Option.isSome_none, Bool.false_eq_true, false_and, if_false]
  rfl

theorem pendingCleared_writes {α : Type} (l : List (Nat × α)) :
    WritesOnly SyncOrStatus (pendingCleared ((l.map (fun e => pbOf e.1)).eraseDups)) := by
  refine .bind (.forIn_mem fun pb hpb _ => .bind (wrF_writes ?_) fun _ => .pure) fun _ => .pure
  obtain ⟨e, -, rfl⟩ := List.mem_map.1 (List.mem_eraseDups.1 hpb)
  exact pbOf_status e.1

/-- A generator that stops leaves its run bit as told and nothing staged, and fabric time may be stepped again (R59, R63). -/
theorem runClear_done {s t : State} (h : storeGet (fun _ => none) s.staged R.BIN_BASE_ACTIVE = none)
    (ht : Act.run runClear s = t) : t.run = s.run ∧
    (∀ a, Block.glb.base ≤ a → a < pageBase .dbl 128 → storeGet (fun _ => none) t.staged a = none) ∧
    t.time = { s.time with stepped := false } ∧ SameBut [.regs, .staged, .time] s t := by
  rw [run_runClear h] at ht
  have hpend := (pendingCleared_only ((s.staged.map (fun e => pbOf e.1)).eraseDups)).run (Act.run stepAgain s)
  subst ht
  refine ⟨?_, fun a h1 h2 => storeGet_storeClear_mem _ _ h1 h2, ?_, ?_⟩
  · unfold State.run
    rw [fldOf_upd_clearStaged, (pendingCleared_writes _).fldOf _ (by unfold SyncOrStatus; decide),
      stepAgain_writes.fldOf _ (by unfold SyncOrStatus; decide)]
  · rw [upd_clearStaged_time, show _ = _ from hpend.2 .time (by decide), time_stepAgain]
  · exact (((stepAgain_only.run s).mono (by decide)).trans (hpend.mono (by decide))).trans (SameBut.upd _ _ rfl)

theorem tickGeneratorRuns : TickGeneratorRuns := by
  refine ⟨fun s core ha hr hf => ?_, fun s core ha hr _ hbase => ?_⟩
  · obtain ⟨u, hu, qu, gu, hrun⟩ := runs_storeReg_tickCtrl 1 s
    have h := answered_tickCtrlWrite ha (runs_timWrite_runSet (by decide) hr hf hu)
    obtain ⟨hr', hnow, htime, hx, hregs, hsame⟩ := tickStart_done (s := u) rfl
    refine ⟨_, exec_tickRunSet core s, h.2, ?_, (h.fldOf _ _).trans hnow, (h.reg _).trans htime, ?_, h.regsBut ?_, ?_⟩
    · exact (congrArg (decide <| · = 1) (h.fldOf _ _)).trans (hr'.trans hrun)
    · rw [show _ = _ from h.1.2 .time (by decide), hx, started_congr gu (qu.2 .time (by decide))]
      rfl
    · exact (gu.mono (by simp)).trans (hregs.mono (by simp))
    · exact ((qu.mono (by decide)).trans (hsame.mono (by decide))).trans (h.1.mono (by decide))
  · obtain ⟨u, hu, qu, gu, hrun⟩ := runs_storeReg_tickCtrl 0 s
    have h := answered_tickCtrlWrite ha (runs_timWrite_runClear (by decide) hr hu)
    have hstaged : u.staged = s.staged := qu.2 .staged (by decide)
    obtain ⟨hr', hclear, hx, hsame⟩ := runClear_done (s := u) (hstaged ▸ hbase) rfl
    refine ⟨_, exec_tickRunClear core s, h.2, ?_, fun a h1 h2 => ?_, ?_, ?_⟩
    · exact (congrArg (decide <| · = 1) (h.fldOf _ _)).trans (hr'.trans hrun)
    · rw [show _ = _ from h.1.2 .staged (by decide)]
      exact hclear a h1 h2
    · rw [show _ = _ from h.1.2 .time (by decide), hx, show u.time = s.time from qu.2 .time (by decide)]
    · exact ((qu.mono (by decide)).trans (hsame.mono (by decide))).trans (h.1.mono (by decide))

/-! ## The edge (R62) -/

/-- The action leaves the number of the next tick. -/
abbrev KeepsNextTick {α : Type} (a : Act α) : Prop := Keeps (fun s => s.time.nextTick) a

/-- After the action the next tick is `n`. -/
def SetsNextTick {α : Type} (n : Nat) (a : Act α) : Prop := ∀ s, ∃ x t, Runs a s x t ∧ t.time.nextTick = n

namespace SetsNextTick

variable {α β : Type} {n : Nat} {a : Act α} {f : α → Act β}

/-- What is set after an action that goes on. -/
theorem after {l : List Field} (h : Only l a) (g : ∀ x, SetsNextTick n (f x)) : SetsNextTick n (a >>= f) := fun s =>
  let ⟨x, t, r, _⟩ := h s
  let ⟨y, u, r', q⟩ := g x t
  ⟨y, u, r.bind r', q⟩

theorem bind (h : SetsNextTick n a) (g : ∀ x, KeepsNextTick (f x)) : SetsNextTick n (a >>= f) := fun s =>
  let ⟨x, t, r, q⟩ := h s
  let ⟨y, u, r', q'⟩ := g x t
  ⟨y, u, r.bind r', q'.trans q⟩

theorem run {a : Act Unit} (h : SetsNextTick n a) (s : State) : (Act.run a s).time.nextTick = n :=
  let ⟨_, _, r, q⟩ := h s
  r.run_eq ▸ q

end SetsNextTick

theorem tickNext_sets (n boundary : Nat) (newPeriod : Bool) :
    SetsNextTick ((n + 1) % 2 ^ 48) (tickNext n boundary newPeriod) := by
  have hset (p : Nat) : SetsNextTick ((n + 1) % 2 ^ 48)
      (modTime (fun x => { x with nextTick := (n + 1) % 2 ^ 48, nextTime := boundary + p })) := fun s =>
    ⟨(), _, (Runs.rd _ s).bind (Runs.upd _ s), rfl⟩
  have hrest : SetsNextTick ((n + 1) % 2 ^ 48) (do
      let p ← rd State.periodNs
      modTime (fun x => { x with nextTick := (n + 1) % 2 ^ 48, nextTime := boundary + p })) := .after (.rd [] _) hset
  unfold tickNext
  split
  · exact .after (wrF_only _ _ _) fun _ => .after (wrR_only _ _) fun _ => hrest
  · exact hrest

/-- A window that opens leaves the tick generator (R74). -/
theorem gleanOpen_keepsNextTick (n : Nat) (calFailed : List Nat) (skewOk : Bool) :
    KeepsNextTick (gleanOpen n calFailed skewOk) := by
  have hset {st : Nat} : KeepsNextTick (setGlean n st) := .time (setGlean_only _ _) (by decide)
  have hcount {a k : Nat} : KeepsNextTick (count a k) := .time (count_only _ _) (by decide)
  have hspare {k st l : Nat} : KeepsNextTick (setSpare k st l) := .time (setSpare_only _ _ _) (by decide)
  refine .bind .get fun s => .ite .pure (.ite (.bind hset fun _ => hcount) ?_)
  refine .bind hset fun _ => .bind hcount fun _ => .bind (.rd_upd fun _ => rfl) fun _ => ?_
  split
  · exact .time_bind (setSiteState_only _ _) (by decide) fun _ => .time (calibrate_only _ _) (by decide)
  · exact .time (flashOpens_only _) (by decide)
  · exact .pure
  · exact .time_bind (modPort_only _ _) (by decide) fun _ => .ite hspare (.ite (.ite hspare (.bind hset fun _ => hcount)) .pure)

theorem gleansAtEdge_keepsNextTick (calFailed : List Nat) (skewOk : Bool) : KeepsNextTick (gleansAtEdge calFailed skewOk) :=
  .bind (.forIn fun _ _ => .bind .rd fun _ => .ite (.bind (gleanOpen_keepsNextTick _ _ _) fun _ => .pure) .pure) fun _ => .pure

theorem exec_tickEdge (calFailed : List TileId) (skewOk : Bool) (s : State) : exec (.tickEdge calFailed skewOk) s =
    .next (Act.run (mains (tickEdge (calFailed.map (·.val)) skewOk)) s) := rfl

/-- The edge sets the next tick at its second position, and the later positions leave it. -/
theorem nextTick_tickEdge {calFailed : List Nat} {skewOk : Bool} {s : State} (h : s.run = true) :
    (Act.run (tickEdge calFailed skewOk) s).time.nextTick = (s.time.nextTick + 1) % 2 ^ 48 := by
  unfold tickEdge
  rw [run_get_bind]
  simp only [h, Bool.not_true, Bool.false_eq_true, if_false]
  refine SetsNextTick.run ?_ s
  refine .after (clockTo_only _) fun _ => .after msgTaken_only fun _ => .after (wrF_only _ _ _) fun _ =>
    .after (wrR_only _ _) fun _ => .after (count_only _ _) fun _ => ?_
  refine .after (.forIn _ _ fun _ _ => .bind (modSite_only _ _) fun _ => .pure _ _) fun _ => .after flashTick_only fun _ =>
    .after (.forIn _ _ fun _ _ => .bind (modTile_only _ _) fun _ => .pure _ _) fun _ => ?_
  refine .after (snapshots_only _ _) fun _ => .after (stagedApply_only _ _) fun _ => .after (mapsTookEffect_only _) fun _ =>
    .after (.rd [] _) fun _ => .bind (tickNext_sets _ _ _) fun _ => ?_
  refine .time_bind powerEdge_only (by decide) fun _ => .bind (.forIn fun _ _ => .time_bind (biasEdge_only _) (by decide) fun _ =>
    .time_bind (biasUpdate_only _) (by decide) fun _ => .pure) fun _ => ?_
  refine .time_bind (stagedApply_only _ _) (by decide) fun _ => .time_bind (grantsTookEffect_only _) (by decide) fun _ =>
    .time_bind mapsJudge_only (by decide) fun _ => .time_bind migCutover_only (by decide) fun _ =>
    .bind (.forIn fun _ _ => .time_bind (creditGrow_only _) (by decide) fun _ => .pure) fun _ => ?_
  exact .bind (.forIn fun _ _ => .time_bind (stepWaits_only _) (by decide) fun _ =>
      .time_bind (stepStart_only _) (by decide) fun _ =>
    .time_bind (colLaunches_only _ _) (by decide) fun _ => .pure) fun _ =>
    .bind (gleansAtEdge_keepsNextTick _ _) fun _ => .time milestonesCheck_only (by decide)

theorem tickEdgeAdvances : TickEdgeAdvances := by
  intro s calFailed skewOk hs hrun
  refine ⟨_, exec_tickEdge calFailed skewOk s, ?_⟩
  rw [run_mains _ _ hs.1 hs.2, nextTick_tickEdge hrun]

/-- Settles O45 (it holds): an accepted write of TIM_TICK_CTRL starts or stops the generator, and an edge sets the tick after
it. -/
theorem ticksRun : Obligations.TicksRun := ⟨tickGeneratorRuns, tickEdgeAdvances⟩

end Sys2Proof.Machine
end

section
/-! # Beacons, loss of sync and holdover (R56, R57) -/

namespace Sys2Proof.Machine

/-! ## What an estimate leaves -/

/-- The offsets of the beacons in use, and the offset that TIM_OFFSET shows (R56, R78). -/
def State.offsets (s : State) : List (Nat × Int) × Nat := (s.time.beacons, s.fldOf R.TIM_OFFSET F.TIM_OFFSET.offset)

theorem keeps_offsets {α : Type} {l : List Field} {P : Nat → Prop} {a : Act α} (h : Only l a) (hl : Field.time ∉ l)
    (w : WritesOnly P a) (hp : ¬ P R.TIM_OFFSET) : Keeps State.offsets a := fun s => by
  obtain ⟨x, t, r, q⟩ := h s
  obtain ⟨_, u, r', q'⟩ := w s
  obtain rfl := r.state_unique r'
  refine ⟨x, t, r, ?_⟩
  unfold State.offsets State.fldOf
  rw [show t.time = s.time from q.2 .time hl, q' _ hp]

theorem wrF_keepsOffsets {a n : Nat} {f : Fld} (h : a ≠ R.TIM_OFFSET) : Keeps State.offsets (wrF a f n) :=
  keeps_offsets (wrF_only _ _ _) (by decide) (wrF_writes (P := (· = a)) rfl) h.symm

theorem setSource_writes {P : Nat → Prop} (h : P R.TIM_SYNC_STATUS) {ptp : Bool} : WritesOnly P (setSource ptp) :=
  .bind .get fun _ => .bind (wrF_writes h) fun _ => wrF_writes h

theorem setEstError_writes {P : Nat → Prop} (h : P R.TIM_SYNC_STATUS) {e : Nat} : WritesOnly P (setEstError e) :=
  .bind (wrF_writes h) fun _ => .bind .rdF fun _ => wrF_writes h

theorem freshBelow_keepsOffsets (n : Nat) : Keeps State.offsets (freshBelow n) :=
  .of_only (freshBelow_only n) fun _ _ q => by
    unfold State.offsets
    rw [fldOf_congr (q.2 .regs (by decide)), q.2 .time (by decide)]

/-- The rate is the other half of TIM_OFFSET (R58, R78). -/
theorem chooseRate_keepsOffsets : Keeps State.offsets chooseRate :=
  .bind (freshBelow_keepsOffsets _) fun _ => .rd_upd fun s => Prod.ext rfl (fldOf_put_ne s _ _ _ _ (by decide) (by decide))

theorem setSource_keepsOffsets (ptp : Bool) : Keeps State.offsets (setSource ptp) :=
  keeps_offsets (setSource_only _) (by decide) (setSource_writes (P := (· = R.TIM_SYNC_STATUS)) rfl) (by decide)

theorem setEstError_keepsOffsets (e : Nat) : Keeps State.offsets (setEstError e) :=
  keeps_offsets (setEstError_only _) (by decide) (setEstError_writes (P := (· = R.TIM_SYNC_STATUS)) rfl) (by decide)

theorem wrapI_lt (w : Nat) (i : Int) : wrapI w i < 2 ^ w := by
  unfold wrapI
  have : (0 : Int) < (2 ^ w : Nat) := by exact_mod_cast Nat.two_pow_pos w
  have := Int.emod_lt_of_pos i this
  have := Int.emod_nonneg i (b := (2 ^ w : Nat)) (by omega)
  omega

theorem run_modTime_bind (f : TimeX → TimeX) (k : Unit → Act Unit) (s : State) :
    Act.run (modTime f >>= k) s = Act.run (k ()) ((Upd.time (f s.time)).apply s) := rfl

/-- TIM_OFFSET shows the estimate that is taken, and the beacons stay in use (R57, R78). -/
theorem offsets_takeEstimate (off : Int) (ptp : Bool) (s : State) :
    (Act.run (takeEstimate off ptp) s).offsets = (s.time.beacons, wrapI 32 off) := by
  have hstate {n : Nat} : Keeps State.offsets (wrF R.TIM_SYNC_STATUS F.TIM_SYNC_STATUS.state n) := wrF_keepsOffsets (by decide)
  have hshows : (Act.run (wrF R.TIM_OFFSET F.TIM_OFFSET.offset (wrapI 32 off)) s).offsets = (s.time.beacons, wrapI 32 off) :=
    Prod.ext rfl ((fldOf_put_self s _ _ _ (by decide)).trans (Nat.mod_eq_of_lt (wrapI_lt 32 off)))
  unfold takeEstimate
  rw [run_get_bind]
  extract_lets ests
  rw [run_modTime_bind, run_wrF_bind]
  refine (Keeps.run (g := State.offsets) ?_ _).trans hshows
  refine .bind (setSource_keepsOffsets _) fun _ => .bind (freshBelow_keepsOffsets _) fun _ =>
    .bind (setEstError_keepsOffsets _) fun _ => ?_
  split
  · refine .ite (.bind hstate fun _ => .bind (wrF_keepsOffsets (by decide)) fun _ => chooseRate_keepsOffsets)
      (.ite (.bind ?_ fun _ => .rd_upd fun _ => rfl) chooseRate_keepsOffsets)
    exact keeps_offsets (wrR_only _ _) (by decide) (.wrR (P := (· = R.TIM_NOW)) rfl) (by decide)
  · exact chooseRate_keepsOffsets
  · exact .bind hstate fun _ => .bind (wrF_keepsOffsets (by decide)) fun _ => chooseRate_keepsOffsets
  · exact .pure

/-! ## A beacon (R56) -/

/-- A packet of its type that passes the checks is acted on, once it is received. -/
theorem run_onPacket {s : State} {r : RxPacket} {type : Nat} {q : Option Nat} (h : Receives s r type q)
    (k : Option Nat → Act Unit) : Act.run (onPacket r [type] k) s = Act.run (k q) (received s r) := by
  obtain ⟨-, hport, hcheck, htype⟩ := h
  have hp : (s.portState r.port ≠ 2 && s.portState r.port ≠ 3) = false := by
    rcases hport with e | e <;> simp [e]
  unfold onPacket received
  rw [run_get_bind]
  simp only [hp, hcheck, htype, List.contains_cons, beq_self_eq_true, Bool.true_or, Bool.false_eq_true, if_false, if_true]
  exact (takePacket_only r).run_bind _ s

/-- The beacons that stay when port `k`'s is out of use or replaced (R56). -/
def TimeX.beaconsBut (x : TimeX) (k : Nat) : List (Nat × Int) := x.beacons.filter (fun e => e.1 ≠ k)

/-- A beacon counts: it is enabled, and the discipline is LOCKED or in HOLDOVER (R56, R57). -/
def State.takesBeacons (s : State) : Bool := s.fldOf R.TIM_SYNC_CTRL F.TIM_SYNC_CTRL.beacon_enable = 1 &&
  (s.fldOf R.TIM_SYNC_STATUS F.TIM_SYNC_STATUS.state = 2 || s.fldOf R.TIM_SYNC_STATUS F.TIM_SYNC_STATUS.state = 3)

/-- The beacon of a plane that is not locked takes its port out of use (R56). -/
theorem offsets_beacon_unlocked {s u : State} {r : RxPacket} (h : Receives s r 0x10 none) (hu : received s r = u)
    (hb : u.takesBeacons = true) (hl : bit (pkArg1 r.bytes) 16 = false) :
    (Act.run (beacon r) s).offsets.1 = u.time.beaconsBut r.port := by
  unfold State.takesBeacons at hb
  unfold beacon
  rw [run_onPacket h, hu, run_get_bind]
  simp only [hb, hl, Bool.not_false, if_true]
  rw [run_modTime_bind, (setSource_keepsOffsets _).run]
  rfl

/-- A locked plane's beacon near the PTP estimate enters the median, which TIM_OFFSET shows (R56). -/
theorem offsets_beacon_locked {s u : State} {r : RxPacket} {off : Int} {l : List (Nat × Int)} (h : Receives s r 0x10 none)
    (hu : received s r = u) (hb : u.takesBeacons = true) (hbit : bit (pkArg1 r.bytes) 16 = true)
    (hoff : off = u.now16 - ((pkArg0 r.bytes * 16 + pkArg1 r.bytes % 2 ^ 16 / 4096 : Nat) : Int) -
      (u.fldOf (R.LINK_DELAY r.port) F.LINK_DELAY.delay : Int))
    (hnear : -16000 ≤ off - u.time.ptpOff ∧ off - u.time.ptpOff ≤ 16000)
    (hl : l = u.time.beaconsBut r.port ++ [(r.port.val, off)]) :
    (Act.run (beacon r) s).offsets = (l, wrapI 32 (medianLow (l.map (·.2)))) := by
  have ht : (Act.run (count C.TIM_CNT_BEACON_RX 1) u).time = u.time := ((count_only _ _).run u).2 .time (by decide)
  subst hoff hl
  unfold State.takesBeacons at hb
  unfold beacon
  rw [run_onPacket h, hu, run_get_bind]
  simp only [hb, hbit, Bool.not_true, Bool.false_eq_true, if_true, if_false]
  rw [run_ite, if_neg (by omega), (count_only _ _).run_bind, run_modTime_bind, run_rd_bind, offsets_takeEstimate, ht]
  rfl

theorem exec_beacon (r : RxPacket) (s : State) :
    exec (.beacon r) s = .next (Act.run (mains (do beacon r; milestonesCheck)) s) := rfl

/-- What a beacon leaves, with the milestones that follow it. -/
theorem run_beaconCommand {s : State} {r : RxPacket} (hs : s.up) {t : State}
    (ht : Act.run (mains (do beacon r; milestonesCheck)) s = t) : t.offsets = (Act.run (beacon r) s).offsets ∧
      SameBut [.regs, .mem, .time, .ports, .land, .sent, .free] s t := by
  rw [run_mains _ _ hs.1 hs.2, (beacon_only r).run_bind] at ht
  have hm := milestonesCheck_only.run (Act.run (beacon r) s)
  rw [ht] at hm
  refine ⟨?_, (((beacon_only r).run s).mono (by decide)).trans (hm.mono (by decide))⟩
  unfold State.offsets
  rw [fldOf_congr (hm.2 .regs (by decide)), show _ = _ from hm.2 .time (by decide)]

/-! ## Loss of sync and holdover (R57) -/

theorem exec_syncLossTimeout (s : State) : exec .syncLossTimeout s = .next (Act.run (awake syncLoss) s) := rfl

theorem exec_holdoverErrorLimit (e : BitVec 16) (s : State) :
    exec (.holdoverErrorLimit e) s = .next (Act.run (awake (holdoverError e.toNat)) s) := rfl

theorem syncLoss_writes : WritesOnly (· ∈ [R.TIM_SYNC_STATUS]) syncLoss :=
  .bind .rdF fun _ => .ite (.bind (wrF_writes (by simp)) fun _ => .bind (.of_only (modTime_only _) (by decide)) fun _ =>
    setSource_writes (by simp)) .pure

/-- Without a source LOCKED becomes HOLDOVER, and no source is in use (R57). -/
theorem run_syncLoss {s t : State} (h : s.fldOf R.TIM_SYNC_STATUS F.TIM_SYNC_STATUS.state = 2) (ht : Act.run syncLoss s = t) :
    t.fldOf R.TIM_SYNC_STATUS F.TIM_SYNC_STATUS.state = 3 ∧ t.fldOf R.TIM_SYNC_STATUS F.TIM_SYNC_STATUS.source = 0 ∧
      t.time = { s.time with beacons := [], ests := [] } := by
  subst ht
  unfold syncLoss setSource
  rw [run_rdF_bind, h, if_pos rfl, run_wrF_bind, run_modTime_bind, run_get_bind]
  refine ⟨?_, ?_, rfl⟩
  all_goals
    dsimp only [upd_time_time, List.foldl_nil]
    rw [run_wrF_bind, run_wrF]
  · rw [fldOf_put_ne _ _ _ _ _ (by decide) (by decide), fldOf_put_ne _ _ _ _ _ (by decide) (by decide), fldOf_upd_time]
    exact fldOf_put_self _ _ _ _ (by decide)
  · exact fldOf_put_self _ _ _ _ (by decide)

/-- est_error_ns shows an estimate beyond the limit, the discipline is unsynchronised, and its state stays (R57, R78). -/
theorem setEstError_beyond {s t : State} {e : Nat} (he : e < 2 ^ 16)
    (hlim : s.fldOf R.TIM_SYNC_CTRL F.TIM_SYNC_CTRL.error_limit < e) (ht : Act.run (setEstError e) s = t) :
    t.fldOf R.TIM_SYNC_STATUS F.TIM_SYNC_STATUS.est_error_ns = e ∧
      t.fldOf R.TIM_SYNC_STATUS F.TIM_SYNC_STATUS.unsynchronised = 1 ∧
      t.fldOf R.TIM_SYNC_STATUS F.TIM_SYNC_STATUS.state = s.fldOf R.TIM_SYNC_STATUS F.TIM_SYNC_STATUS.state := by
  subst ht
  unfold setEstError
  rw [run_wrF_bind, run_rdF_bind, fldOf_upd_ne _ _ _ _ _ (by decide), run_wrF, decide_eq_true hlim]
  refine ⟨?_, fldOf_put_self _ _ _ _ (by decide), ?_⟩
  · rw [fldOf_put_ne _ _ _ _ _ (by decide) (by decide)]
    exact (fldOf_put_self _ _ _ _ (by decide)).trans (Nat.mod_eq_of_lt he)
  · rw [fldOf_put_ne _ _ _ _ _ (by decide) (by decide), fldOf_put_ne _ _ _ _ _ (by decide) (by decide)]

/-- In HOLDOVER an error beyond the limit is shown, and the page's fault set (R57). -/
theorem run_holdoverError {s : State} {e : Nat} (hst : s.fldOf R.TIM_SYNC_STATUS F.TIM_SYNC_STATUS.state = 3)
    (hlim : s.fldOf R.TIM_SYNC_CTRL F.TIM_SYNC_CTRL.error_limit < e) :
    Act.run (holdoverError e) s = Act.run (setPageFault (pageBase .tim 0)) (Act.run (setEstError e) s) := by
  unfold holdoverError
  rw [run_get_bind, if_pos ⟨hst, hlim⟩]
  exact (setEstError_only e).run_bind _ s

theorem holdoverError_writes {e : Nat} :
    WritesOnly (· ∈ [R.TIM_SYNC_STATUS, pageBase .tim 0 + 0x18, pageBase .tim 0 + 0x40]) (holdoverError e) :=
  .bind .get fun _ => .ite (.bind (setEstError_writes (by simp)) fun _ => setPageFault_writes (by simp) (by simp)) .pure

/-- Settles O13 (it holds): a beacon ends in the estimate or out of the median, and the discipline's losses are the writes of
TIM_SYNC_STATUS and the page's fault. -/
theorem beaconsAndHoldover : Obligations.BeaconsAndHoldover := by
  unfold Obligations.BeaconsAndHoldover
  refine ⟨fun s r off h hen hst hoff hnear => ?_, fun s ha hst => ?_, fun s e ha hst hlim => ?_⟩
  · obtain ⟨hoffsets, hsame⟩ := run_beaconCommand (r := r) h.1 rfl
    have hb : (received s r).takesBeacons = true := by
      unfold State.takesBeacons
      rcases hst with e | e <;> simp [hen, e]
    refine ⟨_, exec_beacon r s, ?_⟩
    cases hl : bit (pkArg1 r.bytes) 16 with
    | false =>
      have hbeacons := (congrArg Prod.fst hoffsets).trans (offsets_beacon_unlocked h rfl hb hl)
      exact ⟨hbeacons.trans (List.append_nil _).symm, by simp, hsame⟩
    | true =>
      obtain ⟨hbeacons, hshown⟩ :=
        Prod.mk.inj (show (_, _) = (_, _) from hoffsets.trans (offsets_beacon_locked h rfl hb hl hoff (hnear hl) rfl))
      refine ⟨hbeacons, fun _ => ?_, hsame⟩
      rw [hshown, hbeacons]
  · refine ⟨_, exec_syncLossTimeout s, ?_⟩
    rw [run_awake _ _ ha]
    obtain ⟨hstate, hsource, htime⟩ := run_syncLoss hst rfl
    exact ⟨hstate, hsource, htime, syncLoss_writes.regsBut s, syncLoss_only.run s⟩
  · refine ⟨_, exec_holdoverErrorLimit e s, ?_⟩
    rw [run_awake _ _ ha]
    obtain ⟨hest, hunsync, hstate⟩ := setEstError_beyond e.isLt hlim rfl
    have hfault : WritesOnly (· ∈ [pageBase .tim 0 + 0x18, pageBase .tim 0 + 0x40]) (setPageFault (pageBase .tim 0)) :=
      setPageFault_writes (by simp) (by simp)
    refine ⟨?_, ?_, ?_, ?_, holdoverError_writes.regsBut s, (holdoverError_only e.toNat).run s⟩
    all_goals rw [run_holdoverError hst hlim]
    · exact (hfault.fldOf _ (by decide) _).trans hest
    · exact (hfault.fldOf _ (by decide) _).trans hunsync
    · exact (hfault.fldOf _ (by decide) _).trans (hstate.trans hst)
    · exact fldOf_setPageFault _ _

end Sys2Proof.Machine
end

section
/-! # Counters that carry into another (R456): two statements that leave the carry out -/

namespace Sys2Proof.Machine

/-- An entry of the chain table that chains word `low` of a page's counters to word `high` (R456). -/
def chainEntry (b : Block) (p low high : Nat) : Word :=
  putFld (putFld (putFld (putFld 0 F.CNT_CHAIN.valid 1) F.CNT_CHAIN.page ((pageBase b p - Block.glb.base) / 0x1000))
    F.CNT_CHAIN.low low) F.CNT_CHAIN.high high

/-- A low half of a chain that carries with the next event. -/
def lowHalfFull : Word := putFld (putFld 0 F.COUNTER.chain_low 1) F.COUNTER.count (2 ^ 48 - 1)

/-- The high half of a chain, with no carry yet. -/
def highHalf : Word := putFld 0 F.COUNTER.chain_high 1

/-! ## A dropped message whose bytes carry into the drop counter -/

/-- The management port is up, and MGT_CNT_RX_DROP is the high half of MGT_CNT_RX_BYTES, which is full. -/
def bytesCarryIntoDrop : State := { regs := [(R.CNT_CHAIN 0, chainEntry .mgt 0 0 4), (R.MGT_PORT_STATUS, 2),
  (C.MGT_CNT_RX_BYTES, lowHalfFull), (C.MGT_CNT_RX_DROP, highHalf)] }

/-- A message of another domain or transport, or with PTP off, counts its bytes and then the drop (R481). -/
theorem run_ptpFrame_dropped {s : State} {domain : BitVec 8} {transport : Fin 3} (h : PtpArrives s domain transport False)
    (n : Nat) (a : Act Unit) : Act.run (ptpFrame domain.toNat transport n a) s =
      Act.run mgtDrop (Act.run (count C.MGT_CNT_RX_BYTES (s.mgtWire transport n)) s) := by
  obtain ⟨-, hup, hserves, hmine⟩ := h
  have hnot : (s.fldOf R.TIM_SYNC_CTRL F.TIM_SYNC_CTRL.ptp_enable = 1 &&
      s.fldOf R.TIM_SYNC_CTRL F.TIM_SYNC_CTRL.ptp_domain = domain.toNat &&
      s.fldOf R.TIM_SYNC_CTRL F.TIM_SYNC_CTRL.transport = transport) = false := by
    simpa [and_assoc] using hmine
  unfold ptpFrame mgtFrame
  rw [run_get_bind, run_rd_bind, hup, hserves]
  simp only [hnot, Bool.and_self, Bool.false_eq_true, if_true, if_false]
  exact (count_only _ _).run_bind _ s

theorem exec_ptpAnnounce (src : Nat) (domain : BitVec 8) (transport : Fin 3) (rank : List Nat) (s : State) :
    exec (.ptpAnnounce src domain transport rank) s =
      .next (Act.run (awake (ptpAnnounce src domain.toNat transport rank)) s) := rfl

theorem ptpArrives_bytesCarryIntoDrop : PtpArrives bytesCarryIntoDrop 1 0 False := by
  unfold PtpArrives
  decide +kernel

/-- The announce's bytes carry into the drop counter, which as a high half does not count the drop itself. -/
theorem dropCounter_carried : (Act.run mgtDrop (Act.run (count C.MGT_CNT_RX_BYTES (bytesCarryIntoDrop.mgtWire 0 64))
    bytesCarryIntoDrop)).reg C.MGT_CNT_RX_DROP ≠ (Act.run mgtDrop bytesCarryIntoDrop).reg C.MGT_CNT_RX_DROP := by
  decide +kernel

/-- Refutes O12: of a dropped message it says that MGT_CNT_RX_DROP is as the drop alone makes it, but its bytes are counted
first, and where MGT_CNT_RX_DROP is the high half of MGT_CNT_RX_BYTES they can carry into it (R456). -/
theorem not_ptpMessages : ¬ Obligations.PtpMessages := by
  unfold Obligations.PtpMessages
  rintro ⟨-, -, -, -, -, hdrop⟩
  have harrives := ptpArrives_bytesCarryIntoDrop
  obtain ⟨t, ht, -, hreg⟩ :=
    hdrop bytesCarryIntoDrop 0 1 0 0 false 0 0 [] (.ptpAnnounce 0 1 0 []) harrives (by simp)
  rw [exec_ptpAnnounce, run_awake _ _ harrives.1, ptpAnnounce, run_ptpFrame_dropped harrives] at ht
  obtain rfl := Host.Outcome.next.inj ht
  exact dropCounter_carried hreg

/-! ## A refused glean whose count carries into the opened ones -/

/-- TIM_CNT_GLEAN_OPENED is the high half of TIM_CNT_GLEAN_REFUSED, which is full. -/
def refusedCarriesIntoOpened : State := { regs := [(C.TIM_CNT_GLEAN_OPENED, highHalf), (C.TIM_CNT_GLEAN_REFUSED, lowHalfFull),
  (R.CNT_CHAIN 0, chainEntry .tim 3 1 0)] }

/-- A window of 1 µs for GDDR7 site 0 at tick 0, which breaks the lead. -/
def earlyGlean : Word := putFld (putFld (putFld 0 F.TIM_GLEAN_DESC.kind 1) F.TIM_GLEAN_DESC.length_us 1) F.TIM_GLEAN_DESC.status 1

theorem admits_earlyGlean : Admits refusedCarriesIntoOpened 0 (R.TIM_GLEAN_DESC 0) earlyGlean := by
  unfold Admits
  decide +kernel

theorem exec_gleanPost (core : CoreId) (entry : Fin 64) (value : Word) (s : State) : exec (.gleanPost core entry value) s =
    .next (Act.run (busWriteX {} core (R.TIM_GLEAN_DESC entry) 8 (putFld value F.TIM_GLEAN_DESC.status 1)) s) := rfl

/-- The refusal of the glean carries into the counter of the opened ones. -/
theorem openedCounter_carried : (Act.run (busWriteX {} 0 (R.TIM_GLEAN_DESC 0) 8 earlyGlean) refusedCarriesIntoOpened).reg
    C.TIM_CNT_GLEAN_OPENED ≠ refusedCarriesIntoOpened.reg C.TIM_CNT_GLEAN_OPENED := by
  decide +kernel

/-- Refutes O46: of a refused post it says that no register changes but the entry and TIM_CNT_GLEAN_REFUSED, but where that
counter is the low half of a chain it can carry into another (R456). -/
theorem not_gleanWindows : ¬ Obligations.GleanWindows := by
  unfold Obligations.GleanWindows GleanPosted
  rintro ⟨⟨hpost, -⟩, -⟩
  obtain ⟨t, ht, -, hregs, -⟩ := hpost refusedCarriesIntoOpened 0 0 earlyGlean earlyGlean (by decide) admits_earlyGlean
    (by decide +kernel) (by decide +kernel) (by decide +kernel)
  rw [if_pos (by decide +kernel)] at hregs
  rw [exec_gleanPost, show putFld earlyGlean F.TIM_GLEAN_DESC.status 1 = earlyGlean by decide] at ht
  obtain rfl := Host.Outcome.next.inj ht
  exact openedCounter_carried (hregs.2 C.TIM_CNT_GLEAN_OPENED (by decide))

end Sys2Proof.Machine
end

section
/-! # The given tensor scale of a quantiser stream (R94) -/

namespace Sys2Proof.Machine

/-- The codes of the positive, finite, normal FP32 numbers (R94). -/
def ScaleNormal (v : Word) : Prop := bit v.toNat 31 = false ∧ 1 ≤ bits v.toNat 30 23 ∧ bits v.toNat 30 23 ≤ 254

/-- A stream's check of its tensor scale compares the code with the least and past the greatest normal number: that is the
sign 0 and an exponent neither 0 nor 255. -/
theorem streamBad_tscale (v : Word) : streamBad 0x08 v = false ↔ ScaleNormal v := by
  show (!decide (0x00800000 ≤ getFld v F.TILE_QS_TSCALE.tscale ∧ getFld v F.TILE_QS_TSCALE.tscale < 0x7F800000)) = false ↔ _
  rw [Bool.not_eq_false', decide_eq_true_iff]
  simp only [ScaleNormal, getFld, F.TILE_QS_TSCALE.tscale, bits, bit, decide_eq_false_iff_not]
  omega

/-! ## The register and its write -/

theorem tscale_eq_regA (p i : Nat) : R.TILE_QS_TSCALE p i = regA .tile p (0x208 + 64 * i) := by
  unfold R.TILE_QS_TSCALE regA
  omega

theorem OffTiles.not_tscale {p : Nat} (hp : p < 624) (i : Fin 16) : ¬ OffTiles (R.TILE_QS_TSCALE p i) := by
  simp only [OffTiles, R.TILE_QS_TSCALE, regA, pageBase, Block.base]
  omega

/-- Storing a value goes on with no refusal, whatever comes of the value. -/
theorem runs_stored_none (a : Nat) (v : Word) (s : State) : ∃ t, Runs (stored a v) s none t :=
  ⟨_, ((storeReg_only a v).runs s).bind (Runs.pure _ _)⟩

/-- Of a tile that is not being zeroed, the write of a tensor scale is a store that the stream's check can refuse. -/
theorem runs_blockWrite_tscale {x : BusX} {p : Nat} {i : Fin 16} {v : Word} {s t : State} {r : Option Nat}
    (hz : (s.tile p).zeroing = false) (h : Runs (storedUnless (streamBad 0x08 v) (R.TILE_QS_TSCALE p i) v) s r t) :
    Runs (blockWrite x .tile p (0x208 + 64 * i) v) s r t := by
  have hrange : decide (0x200 ≤ 0x208 + 64 * i.val ∧ 0x208 + 64 * i.val < 0x600) = true := decide_eq_true (by omega)
  have hstream : (0x208 + 64 * i.val - 0x200) % 64 = 0x08 := by omega
  show Runs (tileBlockWrite p _ v) s r t
  unfold tileBlockWrite
  refine (Runs.get s).bind ?_
  rw [hz, if_neg Bool.false_ne_true]
  split
  case h_9 =>
    rw [hrange, hstream, Bool.true_and]
    rwa [tscale_eq_regA] at h
  all_goals omega

/-! ## A refused write of a block register -/

/-- What a write leaves that its block register refuses, having done nothing: the refusal's record, its answer and no more. -/
theorem refused_busWriteX_block {x : BusX} {core a e : Nat} {v : Word} {b : Block} {p : Nat} {s : State}
    (ha : Admits s core a v) (hpg : pageOf a = some (b, p)) (hb : b ≠ .dbl) (ho : ¬ a - pageBase b p < 0x100)
    (h : Runs (blockWrite { x with part := s.coreAct core } b p (a - pageBase b p) v) s (some e) s) :
    (Act.run (busWriteX x core a 8 v) s).resp.reason = e ∧
      SameBut [.land, .sent] (Act.run (refuseAs (s.coreIssuer core) a 2 e) s) (Act.run (busWriteX x core a 8 v) s) := by
  have hrun : Act.run (busWriteX x core a 8 v) s = Act.run milestonesCheck (Act.run (refuseAs (s.coreIssuer core) a 2 e) s) := by
    rw [run_busWriteX_accepted x core a 8 v b p s ha.1 hpg hb ha.2 ho, run_bind_of_runs s h]
    exact (refuseAs_only _ a 2 e).run_bind _ s
  have hsame := milestonesCheck_only.run (Act.run (refuseAs (s.coreIssuer core) a 2 e) s)
  rw [hrun]
  exact ⟨by rw [hsame.2 .resp (by decide), resp_refuseAs], hsame⟩

theorem pageBase_aligned (b : Block) (p : Nat) : pageBase b p % 0x1000 = 0 := by
  unfold pageBase
  cases b <;> simp only [Block.base] <;> omega

/-- The record of a refused access at a page writes none of a tile's own registers. -/
theorem refuseAs_offTiles {i : Issuer} {a access e : Nat} {b : Block} {p : Nat} (hpg : pageOf a = some (b, p)) (hb : b ≠ .dbl) :
    WritesOnly OffTiles (refuseAs i a access e) := by
  have hpage : errPage a = some (pageBase b p) := by
    unfold errPage
    rw [hpg]
    cases b
    case dbl => exact absurd rfl hb
    all_goals rfl
  unfold refuseAs
  rw [hpage]
  exact .bind (recordAs_offTiles (pageBase_aligned b p)) fun _ => .of_only (Only.upd _ rfl) (l := [.resp]) (by decide)

/-! ## The two outcomes -/

section
variable {x : BusX} {core p : Nat} {i : Fin 16} {v : Word} {s : State}

/-- A tensor scale that is a positive normal number is stored, and the write answered without error. -/
theorem tscaleWrite_normal (hp : p < 624) (ha : Admits s core (R.TILE_QS_TSCALE p i) v) (hz : (s.tile p).zeroing = false)
    (hv : ScaleNormal v) : (Act.run (busWriteX x core (R.TILE_QS_TSCALE p i) 8 v) s).resp.reason = 0 := by
  obtain ⟨t, ht⟩ := runs_stored_none (R.TILE_QS_TSCALE p i) v s
  have hblock := runs_blockWrite_tscale (x := { x with part := s.coreAct core }) hz
    (runs_storedUnless_false ((streamBad_tscale v).2 hv) ht)
  rw [tscale_eq_regA] at ha ⊢
  obtain ⟨-, hresp⟩ := busWriteX_done x core _ 8 v .tile p s t ha.1 (pageOf_regA .tile p _ hp (by omega)) (by decide) ha.2
    (by rw [regA_sub]; omega) (by rwa [regA_sub])
  rw [hresp]

/-- Any other value is refused with 0x04; nothing is staged, and the register keeps its value. -/
theorem tscaleWrite_refused (hp : p < 624) (ha : Admits s core (R.TILE_QS_TSCALE p i) v) (hz : (s.tile p).zeroing = false)
    (hv : ¬ ScaleNormal v) {t : State} (ht : Act.run (busWriteX x core (R.TILE_QS_TSCALE p i) 8 v) s = t) :
    t.resp.reason = 4 ∧ t.staged = s.staged ∧ t.reg (R.TILE_QS_TSCALE p i) = s.reg (R.TILE_QS_TSCALE p i) := by
  subst ht
  have hbad : streamBad 0x08 v = true := Bool.of_not_eq_false (mt (streamBad_tscale v).1 hv)
  have hblock : Runs (blockWrite { x with part := s.coreAct core } .tile p (0x208 + 64 * i) v) s (some 4) s :=
    runs_blockWrite_tscale hz (by rw [hbad]; exact Runs.pure _ _)
  have hreg := OffTiles.not_tscale hp i
  rw [tscale_eq_regA] at ha hreg ⊢
  have hpg := pageOf_regA .tile p (0x208 + 64 * i) hp (by omega)
  obtain ⟨hreason, hsame⟩ := refused_busWriteX_block (x := x) ha hpg (by decide) (by rw [regA_sub]; omega) (by rwa [regA_sub])
  exact ⟨hreason, (hsame.2 .staged (by decide)).trans (((refuseAs_only _ _ _ _).run s).2 .staged (by decide)),
    (reg_congr (hsame.2 .regs (by decide)) _).trans ((refuseAs_offTiles hpg (by decide)).reg s hreg)⟩

end

/-- Settles O41 (it holds): given mode reads the register, whose write the stream's check lets go on for the positive normal
numbers alone. -/
theorem givenTensorScale : Obligations.GivenTensorScale := by
  unfold Obligations.GivenTensorScale
  refine ⟨fun s tile i cfg hmode => by rw [State.tensorScale, if_pos hmode], fun s core tile i v ha hz => ?_⟩
  refine ⟨_, exec_registerWrite _ _ _ _ _, ?_⟩
  rw [tscale_eq_regA, toNat_regA tile.isLt (by omega), ← tscale_eq_regA]
  split
  · next hv => exact tscaleWrite_normal tile.isLt ha hz hv
  · next hv => exact tscaleWrite_refused tile.isLt ha hz hv rfl

end Sys2Proof.Machine
end

section
/-! # The head of a tile's queue issues (R125, R127) -/

namespace Sys2Proof.Machine

/-- The weight buffer that a descriptor names is in use (R44). -/
def State.wbufTaken (s : State) (tile : Nat) (d : List Byte) : State :=
  if dUseWbuf d then Act.run (setWbuf tile (dWbuf d) 3) s else s

/-- The head takes its number and is in flight with the ranges of its plan (R125). -/
def takeFlight (s : State) (tile : Nat) (d : List Byte) (p : Plan) : Act Unit := do
  takeHead tile
  modTile tile (fun x => { x with flights := x.flights ++ [{
    seq := s.opqIssued tile, unit := p.unit, second := p.second, reads := p.reads, writes := p.writes, bytes := d,
    part := s.tilePart tile, table := p.table }] })
  wrF (R.TILE_OP_STATUS tile) F.TILE_OP_STATUS.in_flight ((s.tile tile).flights.length + 1)

/-- The state in which the work of the head of a tile's queue is done. -/
def State.issued (s : State) (tile : Nat) (d : List Byte) (p : Plan) : State :=
  Act.run (takeFlight s tile d p) (s.wbufTaken tile d)

theorem run_issueOp {s : State} {tile opc sub : Nat} {plan : State → Nat → List Byte → Plan} {d : List Byte}
    (h : Issues s tile opc sub plan d) (work : Nat → List Byte → Act Unit) : Act.run (issueOp tile opc sub plan work) s =
      Act.run (do work tile d; queueMoves tile) (s.issued tile d (plan s tile d)) := by
  obtain ⟨-, hon, rfl, hop, hsub, hgo, hok⟩ := h
  unfold issueOp
  rw [run_get_bind]
  simp only [hon, hop, hsub, hgo, hok, Bool.not_true, Bool.false_eq_true, ne_eq, not_true, or_self, if_false]
  unfold State.issued State.wbufTaken
  cases dUseWbuf (s.descAt tile (s.opqIssued tile)) <;> rfl

/-! ## What the issue leaves -/

theorem wbufState_setWbuf (tile w st : Nat) (s : State) : (Act.run (setWbuf tile w st) s).wbufState tile w = st % 4 := by
  unfold setWbuf State.wbufState
  rw [run_wrF]
  split <;> exact fldOf_put_self _ _ _ _ (by decide)

section
variable (s : State) (tile : Nat) (d : List Byte) (p : Plan)

theorem regsBut_wbufTaken : RegsBut [R.TILE_WBUF_STATUS tile] s (s.wbufTaken tile d) := by
  unfold State.wbufTaken
  split
  · exact regsBut_upd_reg _ _ s
  · exact fun _ _ => rfl

theorem sameBut_wbufTaken : SameBut [.regs] s (s.wbufTaken tile d) := by
  unfold State.wbufTaken
  split
  · exact (setWbuf_only _ _ _).run s
  · exact .refl _ s

theorem takeFlight_writes : WritesOnly (· ∈ [R.TILE_OPQ_HEAD tile, R.TILE_OP_STATUS tile]) (takeFlight s tile d p) :=
  .bind (addF_writes (by simp)) fun _ => .bind modTile_writes fun _ => wrF_writes (by simp)

theorem takeFlight_only : Only [.regs, .tiles] (takeFlight s tile d p) :=
  .bind ((takeHead_only _).sub rfl) fun _ => .bind ((modTile_only _ _).sub rfl) fun _ => (wrF_only _ _ _).sub rfl

theorem tile_issued : (s.issued tile d p).tile tile = { s.tile tile with flights := (s.tile tile).flights ++ [{
    seq := s.opqIssued tile, unit := p.unit, second := p.second, reads := p.reads, writes := p.writes, bytes := d,
    part := s.tilePart tile, table := p.table }] } := by
  unfold State.issued takeFlight takeHead
  rw [run_addF_bind, run_modTile_bind, run_wrF, tile_upd_reg, tile_upd_self, tile_upd_reg,
    tile_congr ((sameBut_wbufTaken s tile d).2 .tiles (by decide))]

/-- The number of the head goes on by one, modulo 2^32; what has retired stays. -/
theorem opqHead_issued : (s.issued tile d p).opqIssued tile = (s.opqIssued tile + 1) % 2 ^ 32 ∧
    (s.issued tile d p).opqRetired tile = s.opqRetired tile := by
  have hne : R.TILE_OPQ_HEAD tile ≠ R.TILE_OP_STATUS tile := by simp [R.TILE_OPQ_HEAD, R.TILE_OP_STATUS, regA]
  have htaken : ∀ f, (s.wbufTaken tile d).fldOf (R.TILE_OPQ_HEAD tile) f = s.fldOf (R.TILE_OPQ_HEAD tile) f :=
    (regsBut_wbufTaken s tile d).fldOf (by simp [R.TILE_OPQ_HEAD, R.TILE_WBUF_STATUS, regA])
  unfold State.issued takeFlight takeHead State.opqIssued State.opqRetired
  rw [run_addF_bind, run_modTile_bind, run_wrF, fldOf_upd_ne _ _ _ _ _ hne, fldOf_upd_ne _ _ _ _ _ hne, fldOf_upd_tile,
    fldOf_upd_tile]
  exact ⟨(fldOf_put_self _ _ _ _ (by decide)).trans (by rw [htaken]; rfl),
    (fldOf_put_ne _ _ _ _ _ (by decide) (by decide)).trans (htaken _)⟩

theorem wbufState_issued (h : dUseWbuf d = true) : (s.issued tile d p).wbufState tile (dWbuf d) = 3 := by
  have hreg : (s.issued tile d p).reg (R.TILE_WBUF_STATUS tile) = (s.wbufTaken tile d).reg (R.TILE_WBUF_STATUS tile) :=
    (takeFlight_writes s tile d p).reg _ (by simp [R.TILE_OPQ_HEAD, R.TILE_OP_STATUS, R.TILE_WBUF_STATUS, regA])
  unfold State.wbufState State.fldOf
  rw [hreg, State.wbufTaken, if_pos h]
  exact wbufState_setWbuf tile (dWbuf d) 3 s

theorem sameBut_issued : SameBut [.regs, .tiles] s (s.issued tile d p) :=
  ((sameBut_wbufTaken s tile d).mono (by decide)).trans ((takeFlight_only s tile d p).run _)

theorem hasIssued_issued : HasIssued s (s.issued tile d p) tile d p :=
  ⟨(opqHead_issued s tile d p).1, (opqHead_issued s tile d p).2, tile_issued s tile d p, wbufState_issued s tile d p,
    ((regsBut_wbufTaken s tile d).mono (by simp)).trans (((takeFlight_writes s tile d p).regsBut _).mono (by simp)),
    sameBut_issued s tile d p⟩

end

/-! ## The commands -/

/-- An engine that no window of a site holds up acts (R257). -/
theorem run_served {s : State} (a : Act Unit) (h : s.windowed = []) : Act.run (served a) s = Act.run a s := by
  have hstalls : Runs (stalls a) s false s := by
    refine (Runs.get s).bind ?_
    rw [if_pos h]
    exact Runs.pure _ s
  exact run_bind_of_runs s hstalls _

theorem next_run_mains {s : State} (h : s.up) (a : Act Unit) :
    (Host.Outcome.next (Act.run (mains a) s) : Host.Outcome State Fault Refusal) = .next (Act.run a s) :=
  congrArg _ (run_mains s a h.1 h.2)

/-- Every operation of the list is the issue of its opcode and subop, with its plan and its work. -/
theorem exec_tileOps {s : State} (h : s.up) (tile : TileId) : ∀ e ∈ tileOps tile, (e.2.1 = 32 → s.windowed = []) →
    exec e.1 s = .next (Act.run (issueOp tile e.2.1 e.2.2.1 e.2.2.2.1 e.2.2.2.2) s) := by
  have on (a : Act Unit) := next_run_mains h a
  simp only [tileOps, List.forall_mem_cons]
  exact ⟨fun _ => on _, fun _ => on _, fun _ => on _, fun _ => on _, fun _ => on _, fun _ => on _, fun _ => on _, fun _ => on _,
    fun _ => on _, fun _ => on _, fun _ => on _, fun _ => on _, fun _ => on _,
    fun hw => (on _).trans (congrArg _ (run_served _ (hw trivial))), by simp⟩

/-- Settles O19 (it holds): an operation that nothing holds and no check stops issues, and its work and the queue's move are
done on the state it has issued in. -/
theorem tileOperationIssues : Obligations.TileOperationIssues := by
  unfold Obligations.TileOperationIssues
  intro s tile d e he hi hw
  exact ⟨s.issued tile d (e.2.2.2.1 s tile d), hasIssued_issued _ _ _ _,
    (exec_tileOps hi.1 tile e he hw).trans (congrArg _ (run_issueOp hi e.2.2.2.2))⟩

end Sys2Proof.Machine
end

section
/-! # What the vector unit writes (R134 to R136) -/

namespace Sys2Proof.Machine

/-! ## Actions that only count -/

/-- The action changes nothing but counters. -/
def Counts (a : Act Unit) : Prop := Only [.regs] a ∧ WritesOnly IsCounter a

theorem Counts.pure : Counts (Pure.pure ()) := ⟨Only.pure _ _, .pure⟩

theorem Counts.ite {c : Prop} [Decidable c] {a b : Act Unit} (h : Counts a) (g : Counts b) : Counts (if c then a else b) := by
  split <;> assumption

theorem isCounter_tile {off : Nat} (h : 0x800 ≤ off ∧ off < 0x1000) (p : Nat) : IsCounter (regA .tile p off) := by
  simp only [IsCounter, regA, pageBase, Block.base]
  omega

theorem counts_count {off : Nat} (h : 0x800 ≤ off ∧ off < 0x1000) (p n : Nat) : Counts (count (regA .tile p off) n) :=
  ⟨count_only _ _, count_counters (isCounter_tile h p)⟩

theorem counts_countBad (p f base n : Nat) : Counts (countBad p f base n) := by
  refine ⟨countBad_only p f base n, .bind .get fun s => ?_⟩
  extract_lets blocks overflows last digits next scales
  have hcount {off : Nat} (h : 0x800 ≤ off ∧ off < 0x1000) (n : Nat) := (counts_count h p n).2
  have hlast (y : Unit) : WritesOnly IsCounter (last y) := .ite (.ite (hcount (by decide) _) .pure) .pure
  have hnext (y : Unit) : WritesOnly IsCounter (next y) :=
    .ite (.ite (.bind (hcount (by decide) _) hlast) (hlast ())) (hlast ())
  exact .ite (.ite (.bind (hcount (by decide) _) hnext) (hnext ())) (hnext ())

theorem counts_countNan (p : Nat) (ys : List FV) : Counts (countNan p ys) := .ite (counts_count (by decide) p _) .pure

/-! ## Writes of a tile's SRAM -/

theorem Wrote.congr {s s' t t' : State} {k : Nat} {l : List Byte} (h : Wrote s t k l) (hs : s'.mem = s.mem)
    (ht : t'.mem = t.mem) : Wrote s' t' k l := fun j => by rw [byteAt_congr ht, h j, byteAt_congr hs]

theorem wrote_tileWrite (page off : Nat) (bs : List Byte) (s : State) :
    Wrote s (Act.run (tileWrite page off bs) s) (tileKey page off) bs := by
  obtain ⟨t, hr, -, ht⟩ := runs_stBytes (tileKey page off) bs s
  unfold tileWrite
  rw [run_bind_of_runs s hr]
  exact Wrote.congr ht rfl (((markDirty_only _ _ _).run t).2 .mem (by decide))

/-- From every state the action writes the bytes `l` of it from key `k` up, and beside them changes no more than counters and
the marks of copies. -/
structure WritesBytes (k : Nat) (l : State → List Byte) (a : Act Unit) : Prop where
  only : Only [.regs, .mem, .tab] a
  counters : WritesOnly IsCounter a
  wrote : ∀ s, Wrote s (Act.run a s) k (l s)

namespace WritesBytes

variable {k : Nat} {l : State → List Byte} {bs : List Byte} {a : Act Unit}

/-- The bytes may be computed from the state the action finds. -/
theorem get_bind {f : State → Act Unit} (h : ∀ s, WritesBytes k (fun _ => l s) (f s)) : WritesBytes k l (Act.get >>= f) where
  only := .bind (.get _) fun s => (h s).only
  counters := .bind .get fun s => (h s).counters
  wrote s := (h s).wrote s

theorem after_counts {f : Unit → Act Unit} (ha : Counts a) (h : ∀ y, WritesBytes k (fun _ => bs) (f y)) :
    WritesBytes k (fun _ => bs) (a >>= f) where
  only := .bind (ha.1.sub rfl) fun y => (h y).only
  counters := .bind ha.2 fun y => (h y).counters
  wrote s := by
    rw [ha.1.run_bind]
    exact ((h ()).wrote _).congr ((ha.1.run s).2 .mem (by decide)).symm rfl

theorem ite {c : Prop} [Decidable c] {b : Act Unit} (h : WritesBytes k l a) (g : WritesBytes k l b) :
    WritesBytes k l (if c then a else b) := by
  split <;> assumption

theorem writeVals_counts {page f base : Nat} {xs : List FV} {c : Unit → Act Unit} (h : ∀ y, Counts (c y)) :
    WritesBytes (tileKey page base) (fun _ => xs.flatMap (valBytes f)) (writeVals page f base xs >>= c) where
  only := .bind ((writeVals_only _ _ _ _).sub rfl) fun y => (h y).1.sub rfl
  counters := .bind (.of_only (writeVals_only _ _ _ _) (by decide)) fun y => (h y).2
  wrote s := by
    rw [(writeVals_only _ _ _ _).run_bind]
    exact (wrote_tileWrite _ _ _ s).congr rfl (((h ()).1.run _).2 .mem (by decide))

end WritesBytes

/-- A command whose head issues and whose work writes bytes that it computes from the memories. -/
theorem exec_writesBytes {c : Instr} {s : State} {tile opc sub k : Nat} {plan : State → Nat → List Byte → Plan} {d : List Byte}
    {work : Nat → List Byte → Act Unit} {l : State → List Byte} (hi : Issues s tile opc sub plan d)
    (hc : exec c s = .next (Act.run (issueOp tile opc sub plan work) s)) (hw : WritesBytes k l (work tile d))
    (hl : ∀ u : State, u.mem = s.mem → l u = l s) :
    ∃ t, exec c s = .next (Act.run (queueMoves tile) t) ∧ t.opqIssued tile = (s.opqIssued tile + 1) % 2 ^ 32 ∧
      Wrote s t k (l s) ∧ SameBut [.regs, .mem, .tab, .tiles] s t := by
  have hsame := sameBut_issued s tile d (plan s tile d)
  have hmem := hsame.2 .mem (by decide)
  refine ⟨Act.run (work tile d) (s.issued tile d (plan s tile d)), ?_, ?_, ?_,
    (hsame.mono (by decide)).trans ((hw.only.run _).mono (by decide))⟩
  · rw [hc, run_issueOp hi, hw.only.run_bind]
  · have hhead : ¬ IsCounter (R.TILE_OPQ_HEAD tile) := by
      simp only [IsCounter, R.TILE_OPQ_HEAD, regA, pageBase, Block.base]
      omega
    exact (hw.counters.fldOf _ hhead _).trans (opqHead_issued s tile d _).1
  · rw [← hl _ hmem]
    exact (hw.wrote _).congr hmem.symm rfl

/-! ## Elements -/

theorem elemOf_congr {s t : State} (h : t.mem = s.mem) : t.elemOf = s.elemOf := by
  have hbyte : t.byteAt = s.byteAt := funext (byteAt_congr h)
  unfold State.elemOf State.tw State.tb State.memNum State.memBytes
  rw [hbyte]

/-- The results of an elementwise operation (R134, R135). -/
def State.elementVals (s : State) (tile : Nat) (d : List Byte) (opc : Nat) (f : FV → FV → FV → FV) : List FV :=
  (List.range (vCount d)).map (fun i => f
    (s.elemOf tile (refFmt (vSrc0 d)) (refBase (vSrc0 d)) i)
    (if opc = 8 ∧ vFlag d 0 = true then vParam d else s.elemOf tile (refFmt (vSrc1 d)) (refBase (vSrc1 d)) i)
    (s.elemOf tile (refFmt (vAux d)) (refBase (vAux d)) i))

/-- The results of a reduction (R136). -/
def State.rowVals (s : State) (tile : Nat) (d : List Byte) (f : List FV → FV) : List FV :=
  (List.range (vRows d)).map (fun r => f (s.vRow tile (vSrc0 d) (vN d) r))

theorem elementVals_congr {s t : State} (h : t.mem = s.mem) : t.elementVals = s.elementVals := by
  unfold State.elementVals
  rw [elemOf_congr h]

theorem rowVals_congr {s t : State} (h : t.mem = s.mem) : t.rowVals = s.rowVals := by
  unfold State.rowVals State.vRow
  rw [elemOf_congr h]

theorem vewWork_writes (tile : Nat) (f : FV → FV → FV → FV) (d : List Byte) : WritesBytes (tileKey tile (refBase (vDst d)))
    (fun s => (s.elementVals tile d 8 f).flatMap (valBytes (refFmt (vDst d)))) (vewWork f tile d) := by
  refine .get_bind fun s => ?_
  extract_lets n elem ys write
  have hys : s.elementVals tile d 8 f = ys := by simp [State.elementVals, ys, elem, n]
  rw [hys]
  have hwrite (y : Unit) : WritesBytes (tileKey tile (refBase (vDst d))) (fun _ => ys.flatMap (valBytes (refFmt (vDst d))))
      (write y) := .writeVals_counts fun _ => counts_countNan tile ys
  refine .after_counts (counts_countBad _ _ _ _) fun _ => ?_
  extract_lets aux
  have haux (y : Unit) : WritesBytes (tileKey tile (refBase (vDst d))) (fun _ => ys.flatMap (valBytes (refFmt (vDst d))))
      (aux y) := .ite (.after_counts (counts_countBad _ _ _ _) hwrite) (hwrite ())
  exact .ite (.after_counts (counts_countBad _ _ _ _) haux) (haux ())

theorem actWork_writes (tile : Nat) (g : FV → FV → FV) {f : FV → FV → FV → FV} (hf : ∀ a b x, f a b x = g a b) (d : List Byte) :
    WritesBytes (tileKey tile (refBase (vDst d))) (fun s => (s.elementVals tile d 9 f).flatMap (valBytes (refFmt (vDst d))))
      (actWork g tile d) := by
  refine .get_bind fun s => ?_
  have hvals : s.elementVals tile d 9 f = (List.range (vCount d)).map (fun i =>
      g (s.elemOf tile (refFmt (vSrc0 d)) (refBase (vSrc0 d)) i) (s.elemOf tile (refFmt (vSrc1 d)) (refBase (vSrc1 d)) i)) := by
    simp [State.elementVals, hf]
  rw [hvals]
  exact .writeVals_counts fun _ => counts_countNan tile _

theorem reduceWork_writes (tile : Nat) (f : List FV → FV) (d : List Byte) : WritesBytes (tileKey tile (refBase (vDst d)))
    (fun s => (s.rowVals tile d f).flatMap (valBytes 7)) (reduceWork f tile d) :=
  .get_bind fun _ => .writeVals_counts fun _ => counts_countNan tile _

/-! ## The commands -/

/-- Every elementwise command is the issue of its opcode and subop, with a work that writes its results. -/
theorem exec_elementOps {s : State} (h : s.up) (tile : TileId) : ∀ e ∈ elementOps tile, ∃ work : Nat → List Byte → Act Unit,
    exec e.1 s = .next (Act.run (issueOp tile e.2.1 e.2.2.1 (if e.2.1 = 8 then vewPlan else actPlan) work) s) ∧
      ∀ d, WritesBytes (tileKey tile (refBase (vDst d)))
        (fun u => (u.elementVals tile d e.2.1 e.2.2.2).flatMap (valBytes (refFmt (vDst d)))) (work tile d) := by
  have on (a : Act Unit) := next_run_mains h a
  have act (g : FV → FV → FV) {f : FV → FV → FV → FV} (hf : ∀ a b x, f a b x = g a b) := actWork_writes tile g hf
  simp only [elementOps, List.forall_mem_cons]
  exact ⟨⟨_, on _, vewWork_writes tile _⟩, ⟨_, on _, vewWork_writes tile _⟩, ⟨_, on _, vewWork_writes tile _⟩,
    ⟨_, on _, vewWork_writes tile _⟩, ⟨_, on _, vewWork_writes tile _⟩, ⟨_, on _, vewWork_writes tile _⟩,
    ⟨_, on _, vewWork_writes tile _⟩, ⟨_, on _, act _ fun _ _ _ => rfl⟩, ⟨_, on _, act _ fun _ _ _ => rfl⟩,
    ⟨_, on _, act _ fun _ _ _ => rfl⟩, ⟨_, on _, act _ fun _ _ _ => rfl⟩, ⟨_, on _, act _ fun _ _ _ => rfl⟩,
    ⟨_, on _, act _ fun _ _ _ => rfl⟩, by simp⟩

/-- Every reduction is the issue of REDUCE with its subop, with the work that reduces the rows. -/
theorem exec_rowOps {s : State} (h : s.up) (tile : TileId) : ∀ e ∈ rowOps tile,
    exec e.1 s = .next (Act.run (issueOp tile 12 e.2.1 reducePlan (reduceWork e.2.2)) s) := by
  have on (a : Act Unit) := next_run_mains h a
  simp only [rowOps, List.forall_mem_cons]
  exact ⟨on _, on _, on _, on _, on _, by simp⟩

theorem elementwiseResults : ElementwiseResults := by
  intro s tile d e he hi
  obtain ⟨work, hc, hw⟩ := exec_elementOps hi.1 tile e he
  have results := exec_writesBytes hi hc (hw d) fun u hu => by rw [elementVals_congr hu]
  exact results

theorem reductionResults : ReductionResults := by
  intro s tile d e he hi
  have results := exec_writesBytes hi (exec_rowOps hi.1 tile e he) (reduceWork_writes tile e.2.2 d)
    fun u hu => by rw [rowVals_congr hu]
  exact results

/-- Settles O47 (it holds): the results are computed from the memories, which the issue leaves, and written before the queue
moves on; beside them a vector operation only counts. -/
theorem vectorResults : Obligations.VectorResults := ⟨elementwiseResults, reductionResults⟩

end Sys2Proof.Machine
end

section
/-! # Retirement and signals of a tile (R125, R126) -/

namespace Sys2Proof.Machine

/-! ## What leaves the flights of a tile, its waiting signals and its queue's tail -/

/-- The descriptors in flight on a tile, the signals of the retired ones that wait for their mesh writes, and the tail of
its queue: what a descriptor passed over does not change. -/
def State.unfinished (s : State) (p : Nat) : List Flight × List (Nat × Nat × Nat) × Nat :=
  ((s.tile p).flights, (s.tile p).signals, s.opqTail p)

theorem unfinished_congr {s t : State} {p : Nat} (h : t.tile p = s.tile p) (g : t.opqTail p = s.opqTail p) :
    t.unfinished p = s.unfinished p := by
  rw [State.unfinished, h, g]
  rfl

theorem not_isCounter_tail (p : Nat) : ¬ IsCounter (R.TILE_OPQ_TAIL p) := by
  simp only [IsCounter, R.TILE_OPQ_TAIL, regA, pageBase, Block.base]
  omega

/-- The action leaves them. -/
abbrev KeepsUnfinished {α : Type} (p : Nat) (a : Act α) : Prop := Keeps (fun s => s.unfinished p) a

/-- The weight buffers that a flush leaves in use are VALID again (R44). -/
def freeWbufs (p : Nat) : Act Unit := do
  for w in [0, 1] do
    if (← rd (fun s => s.wbufState p w)) = 3 then setWbuf p w 2

/-- What a retirement does once the descriptor has left the flights. -/
def afterRetired (s : State) (p : Nat) (f : Flight) : Act Unit := do
  wrF (R.TILE_OP_STATUS p) F.TILE_OP_STATUS.in_flight ((s.tile p).flights.length - 1)
  count (C.TILE_CNT_OP_RETIRED p) 1
  noteRetired p f.seq
  settleWbuf p 0
  settleWbuf p 1
  whenIdle p
  queueMoves p

namespace KeepsUnfinished

theorem of_only {α : Type} {p : Nat} {l : List Field} {a : Act α} (h : Only l a) (ht : Field.tiles ∉ l) (hr : Field.regs ∉ l) :
    KeepsUnfinished p a := Keeps.of_only h fun _ _ q =>
  unfinished_congr (tile_congr (q.2 .tiles ht) p) (fldOf_congr (q.2 .regs hr) _ _)

theorem modTile {p : Nat} {f : TileX → TileX} (h : ∀ x, ((f x).flights, (f x).signals) = (x.flights, x.signals)) :
    KeepsUnfinished p (modTile p f) := .rd_upd (u := fun x => .tile p (f x)) fun s => by
  obtain ⟨hf, hs⟩ := Prod.mk.inj (h (s.tile p))
  unfold State.unfinished State.opqTail
  rw [tile_upd_self, hf, hs, fldOf_upd_tile]

theorem wrR {p off : Nat} (h : off ≠ 0x148) {v : Word} : KeepsUnfinished p (wrR (regA .tile p off) v) := .upd fun s =>
  unfinished_congr (tile_upd_reg ..) (fldOf_upd_ne _ _ _ _ _ (by unfold R.TILE_OPQ_TAIL regA; omega))

theorem wrF {p off : Nat} (h : off ≠ 0x148) {f : Fld} {n : Nat} : KeepsUnfinished p (wrF (regA .tile p off) f n) :=
  .bind .rd fun _ => wrR h

theorem count {p off : Nat} (h : 0x800 ≤ off ∧ off < 0x1000) {n : Nat} : KeepsUnfinished p (count (regA .tile p off) n) :=
  fun s => ⟨(), _, (count_only _ _).runs s, unfinished_congr (tile_congr (((count_only _ _).run s).2 .tiles (by decide)) p)
    ((counts_count h p n).2.fldOf s (not_isCounter_tail p) _)⟩

section
variable (p : Nat)

theorem setTileFault (f : Fld) : KeepsUnfinished p (setTileFault p f) :=
  .bind .rd fun _ => .ite (.bind (wrF (by decide)) fun _ => .bind .rd fun _ => wrR (off := 0x40) (by decide)) .pure

theorem sramCorrected (n : Nat) : KeepsUnfinished p (sramCorrected p n) :=
  .bind (count (by decide)) fun _ => .bind .rd fun _ => .bind (modTile fun _ => rfl) fun _ => .ite (setTileFault p _) .pure

theorem advanceRetired (fuel : Nat) : KeepsUnfinished p (advanceRetired p fuel) := by
  induction fuel with
  | zero => exact .pure
  | succ fuel ih =>
    exact .bind .get fun _ => .ite (.bind (wrF (by decide)) fun _ => .bind (modTile fun _ => rfl) fun _ => ih) .pure

theorem noteRetired (n : Nat) : KeepsUnfinished p (noteRetired p n) :=
  .bind (modTile fun _ => rfl) fun _ => .bind .rd fun _ => advanceRetired p _

theorem descError (code : Nat) (d : List Byte) : KeepsUnfinished p (descError p code d) := by
  refine .bind .get fun s => ?_
  extract_lets n ctl halt signal fault
  have hhalt (y : Unit) : KeepsUnfinished p (halt y) := .ite (wrF (by decide)) (noteRetired p n)
  have hsignal (y : Unit) : KeepsUnfinished p (signal y) := by
    refine .ite ?_ (hhalt ())
    split
    · exact .bind .rd fun _ => .bind (of_only (tileWrite_only _ _ _) (by decide) (by decide)) hhalt
    · exact .bind .pure hhalt
  have hfault (y : Unit) : KeepsUnfinished p (fault y) := .ite (.bind (setTileFault p _) hsignal) (hsignal ())
  exact .bind (count (by decide)) fun _ => .bind (.bind .rd fun _ => wrF (by decide)) fun _ =>
    .ite (.bind (wrF (by decide)) fun _ => .bind (wrF (by decide)) fun _ => .bind (wrF (by decide)) hfault) (hfault ())

theorem passBadHeads (fuel : Nat) : KeepsUnfinished p (passBadHeads p fuel) := by
  induction fuel with
  | zero => exact .pure
  | succ fuel ih =>
    refine .bind .get fun s => .ite ?_ .pure
    extract_lets d
    split
    · split
      · exact .bind (descError p _ _) fun _ => ih
      · exact .pure
    · exact .pure

theorem queueMoves : KeepsUnfinished p (queueMoves p) := .bind .get fun _ => passBadHeads p _

theorem settleWbuf (w : Nat) : KeepsUnfinished p (settleWbuf p w) :=
  .bind .rd fun _ => .ite (.bind (modTile fun _ => rfl) fun _ => wrF (by decide)) .pure

theorem freeWbufs : KeepsUnfinished p (freeWbufs p) :=
  .bind (.forIn fun _ _ => .bind .rd fun _ => .ite (.bind (wrF (by decide)) fun _ => .pure) .pure) fun _ => .pure

theorem discardUnissued : KeepsUnfinished p (discardUnissued p) :=
  .bind .get fun _ => .bind (wrF (by decide)) fun _ => .bind (wrR (by decide)) fun _ =>
    .ite (.bind (wrF (by decide)) fun _ => .bind (modTile fun _ => rfl) fun _ => freeWbufs p) (modTile fun _ => rfl)

theorem whenIdle : KeepsUnfinished p (whenIdle p) := by
  refine .bind .get fun s => .ite .pure ?_
  extract_lets leave
  have hleave (y : Unit) : KeepsUnfinished p (leave y) := .ite (.bind (discardUnissued p) fun _ =>
    .bind (modTile fun _ => rfl) fun _ => wrF (off := 0x18) (by decide)) .pure
  exact .ite (.bind (modTile fun _ => rfl) fun _ => .bind (wrF (by decide)) fun _ => .bind (freeWbufs p) hleave) (hleave ())

theorem afterRetired (s : State) (f : Flight) : KeepsUnfinished p (afterRetired s p f) :=
  .bind (wrF (by decide)) fun _ => .bind (count (by decide)) fun _ => .bind (noteRetired p _) fun _ =>
    .bind (settleWbuf p 0) fun _ => .bind (settleWbuf p 1) fun _ => .bind (whenIdle p) fun _ => queueMoves p

end

end KeepsUnfinished

/-! ## OP_RETIRE (R125) -/

/-- The descriptor in place `k` leaves the flights, and its signal waits. -/
theorem unfinished_retireOp {s : State} {p k : Nat} {f : Flight} (h : (s.tile p).flights[k]? = some f) (corrected : Nat) :
    (Act.run (retireOp p k corrected) s).unfinished p = ((s.tile p).flights.eraseIdx k, (s.tile p).signals ++
      (if dSignal f.bytes then [(f.part, dSigTarget f.bytes, dSigValue f.bytes)] else []), s.opqTail p) := by
  have hce := (KeepsUnfinished.sramCorrected p corrected).run s
  simp only [State.unfinished, Prod.mk.injEq] at hce
  obtain ⟨hflights, hsignals, htail⟩ := hce
  unfold retireOp
  rw [run_get_bind]
  simp only [h]
  rw [(sramCorrected_only _ _).run_bind, run_modTile_bind, hflights, hsignals]
  refine ((KeepsUnfinished.afterRetired p s f).run _).trans ?_
  rw [State.unfinished, tile_upd_self, State.opqTail, fldOf_upd_tile, ← State.opqTail, htail]
  cases dSignal f.bytes <;> simp

theorem exec_opRetire (tile : TileId) (k corrected : Nat) (s : State) :
    exec (.opRetire tile k corrected) s = .next (Act.run (mains (retireOp tile k corrected)) s) := rfl

/-! ## OP_SIGNAL (R126) -/

/-- The place `k` of the waiting signals is free. -/
def State.signalTaken (s : State) (p k : Nat) : State :=
  (Upd.tile p { s.tile p with signals := (s.tile p).signals.eraseIdx k }).apply s

theorem run_signalTile {s : State} {src part target value page off : Nat}
    (h : s.tilePlace part (bits target 31 22 * 2 ^ 22 + bits target 18 0 * 8) 8 = .ok (page, off)) :
    Act.run (signalTile src part target value) s = Act.run (tileWrite page off (leBytes 8 value)) s := by
  have hplace : Runs (rd fun s => s.tilePlace part (bits target 31 22 * 2 ^ 22 + bits target 18 0 * 8) 8) s
      (.ok (page, off)) s := by
    rw [← h]
    exact Runs.rd _ s
  exact run_bind_of_runs s hplace _

theorem tilePlace_upd_tile (p : Nat) (x : TileX) (s : State) (part a n : Nat) :
    ((Upd.tile p x).apply s).tilePlace part a n = s.tilePlace part a n := rfl

theorem run_signalOp {s : State} {p k part target value page off : Nat} (h : (s.tile p).signals[k]? = some (part, target, value))
    (hp : s.tilePlace part (bits target 31 22 * 2 ^ 22 + bits target 18 0 * 8) 8 = .ok (page, off)) :
    Act.run (signalOp p k) s = Act.run (tileWrite page off (leBytes 8 value)) (s.signalTaken p k) := by
  unfold signalOp
  rw [run_get_bind]
  simp only [h]
  rw [run_modTile_bind, run_signalTile ((tilePlace_upd_tile _ _ _ _ _ _).trans hp), State.signalTaken]

theorem exec_opSignal (tile : TileId) (k : Nat) (s : State) :
    exec (.opSignal tile k) s = .next (Act.run (mains (signalOp tile k)) s) := rfl

/-! ## WAIT (R126) -/

theorem run_waitOp_unmet {s : State} {p : Nat} {d : List Byte} (hi : Issues s p 0x30 0 waitPlan d) (h : s.waitMet p d = false) :
    Act.run (waitOp p) s = Act.run (count (C.TILE_CNT_OP_WAIT_SIG p) 1) s := by
  obtain ⟨-, hon, rfl, hop, -, hgo, hok⟩ := hi
  unfold waitOp
  rw [run_get_bind]
  simp only [hon, hop, hgo, hok, h, Bool.not_true, Bool.not_false, Bool.false_eq_true, and_self, if_true, if_false]

/-- A WAIT whose word has reached its value issues, and its descriptor, the last in flight, retires. -/
theorem run_waitOp_met {s : State} {p : Nat} {d : List Byte} (hi : Issues s p 0x30 0 waitPlan d) (h : s.waitMet p d = true) :
    Act.run (waitOp p) s = Act.run (do retireOp p (s.tile p).flights.length 0; queueMoves p)
      (s.issued p d (waitPlan s p d)) := by
  have hlast : ((s.issued p d (waitPlan s p d)).tile p).flights.length - 1 = (s.tile p).flights.length := by
    rw [tile_issued]
    simp
  have hissue : Act.run (waitOp p) s =
      Act.run (issueOp p 0x30 0 waitPlan (fun q _ => retireLast (fun pg k => retireOp pg k 0) q)) s := by
    obtain ⟨-, hon, rfl, hop, -, hgo, hok⟩ := hi
    unfold waitOp
    rw [run_get_bind]
    simp only [hon, h, Bool.not_true, Bool.false_eq_true, and_false, if_false]
  rw [hissue, run_issueOp hi, retireLast, run_bind_bind, run_rd_bind, hlast]

theorem exec_wait (tile : TileId) (s : State) : exec (.wait tile) s = .next (Act.run (mains (waitOp tile)) s) := rfl

/-! ## The three commands -/

theorem retireAndSignal : RetireAndSignal := by
  unfold RetireAndSignal
  refine ⟨fun s tile d hi => ⟨fun h => ?_, fun h => ?_⟩, fun s tile k corrected f hs hk => ?_,
    fun s tile k part target value page off hs hk hp => ?_⟩
  · exact ⟨_, hasIssued_issued s tile d _, by rw [exec_wait, next_run_mains hi.1, run_waitOp_met hi h]⟩
  · rw [exec_wait, next_run_mains hi.1, run_waitOp_unmet hi h]
  · obtain ⟨hflights, hrest⟩ := Prod.mk.inj (unfinished_retireOp hk corrected)
    obtain ⟨hsignals, -⟩ := Prod.mk.inj hrest
    exact ⟨_, (exec_opRetire tile k corrected s).trans (next_run_mains hs _), hflights, hsignals, (retireOp_only _ _ _).run s⟩
  · have honly := (tileWrite_only page off (leBytes 8 value)).run (s.signalTaken tile k)
    refine ⟨_, (exec_opSignal tile k s).trans ((next_run_mains hs _).trans (congrArg _ (run_signalOp hk hp))), ?_, ?_, ?_, ?_⟩
    · rw [tile_congr (honly.2 .tiles (by decide))]
      exact tile_upd_self ..
    · exact Wrote.congr (s := s.signalTaken tile k) (wrote_tileWrite page off _ _) rfl rfl
    · exact fun a _ => reg_congr (honly.2 .regs (by decide)) a
    · exact (SameBut.upd _ s rfl).trans (honly.mono (by decide))

end Sys2Proof.Machine
end

section
/-! # The registers of a tile's operation queue (R122, R124, R127, R171) -/

namespace Sys2Proof.Machine

/-! ## Writes of a tile's block registers -/

section
variable {x : BusX} {core p off : Nat} {v : Word} {s t : State}

/-- An accepted write of a tile's block register leaves what the register makes of it, answered without error. -/
theorem answered_busWriteX_tile (hp : p < 624) (ho : 0x100 ≤ off ∧ off < 0x1000) (ha : Admits s core (regA .tile p off) v)
    (h : Runs (tileBlockWrite p off v) s none t) : Answered t (Act.run (busWriteX x core (regA .tile p off) 8 v) s) :=
  busWriteX_done x core _ 8 v .tile p s t ha.1 (pageOf_regA .tile p off hp ho.2) (by decide) ha.2
    (by rw [regA_sub]; omega) (by rw [regA_sub]; exact h)

/-- A tile that is not being zeroed takes the write by its offset. -/
theorem runs_tileBlockWrite {r : Option Nat} (hz : (s.tile p).zeroing = false) (f : State → Act (Option Nat))
    (e : tileBlockWrite p off v = do
      let s ← Act.get
      if (s.tile p).zeroing then return some 4
      f s)
    (h : Runs (f s) s r t) : Runs (tileBlockWrite p off v) s r t := by
  rw [e]
  refine (Runs.get s).bind ?_
  rw [hz, if_neg Bool.false_ne_true]
  exact h

end

/-- An answered write that came to no more than the listed fields. -/
theorem Answered.sameBut_of {l : List Field} {s t u : State} (h : Answered t u) (g : SameBut l s t) :
    SameBut (l ++ [.resp, .land, .sent]) s u :=
  (g.mono fun _ hf => List.mem_append_left _ hf).trans (h.1.mono fun _ hf => List.mem_append_right _ hf)

theorem Answered.tile {t u : State} (h : Answered t u) (p : Nat) : u.tile p = t.tile p :=
  tile_congr (h.1.2 .tiles (by decide)) p

theorem Answered.wordAt {t u : State} (h : Answered t u) (k : Nat) : u.wordAt k = t.wordAt k :=
  wordAt_congr (h.1.2 .tab (by decide)) k

theorem runs_andDone {a : Act Unit} {l : List Field} (h : Only l a) (s : State) :
    Runs (andDone a) s none (Act.run a s) := (h.runs s).bind (Runs.pure _ _)

/-! ## OPQ_TAIL_WRITE (R124) -/

/-- The queue's tail stands at `n`, and the queue has passed over what it must. -/
def State.tailSet (s : State) (p n : Nat) : State := Act.run (queueMoves p)
  ((Upd.reg (R.TILE_OPQ_TAIL p) (putFld (s.reg (R.TILE_OPQ_TAIL p)) F.TILE_OPQ_TAIL.tail n)).apply s)

theorem runs_opqTail {s : State} {p n : Nat} (h : s.tailRefused p n = false) : Runs (opqTail p n) s false (s.tailSet p n) := by
  refine (Runs.rd _ s).bind ?_
  rw [h, if_neg Bool.false_ne_true]
  exact ((Runs.rd _ s).bind (Runs.upd _ s)).bind (((queueMoves_only p).runs _).bind (Runs.pure _ _))

theorem opqTail_tailSet (s : State) (p n : Nat) : (s.tailSet p n).opqTail p = n % 2 ^ 32 := by
  have hkept := congrArg (·.2.2) ((KeepsUnfinished.queueMoves p).run
    ((Upd.reg (R.TILE_OPQ_TAIL p) (putFld (s.reg (R.TILE_OPQ_TAIL p)) F.TILE_OPQ_TAIL.tail n)).apply s))
  exact hkept.trans (fldOf_put_self _ _ _ _ (by decide))

theorem sameBut_tailSet (s : State) (p n : Nat) : SameBut [.regs, .mem, .tab, .tiles] s (s.tailSet p n) :=
  (SameBut.upd _ s rfl).trans ((queueMoves_only p).run _)

theorem getFld_ofNat_tail (tail : BitVec 32) : getFld (BitVec.ofNat 64 tail.toNat) F.TILE_OPQ_TAIL.tail = tail.toNat := by
  have h64 : tail.toNat < 2 ^ 64 := lt_trans tail.isLt (by decide)
  show (BitVec.ofNat 64 tail.toNat).toNat / 2 ^ 0 % 2 ^ 32 = tail.toNat
  rw [BitVec.toNat_ofNat, Nat.mod_eq_of_lt h64, pow_zero, Nat.div_one, Nat.mod_eq_of_lt tail.isLt]

theorem runs_tileBlockWrite_tail {s : State} {p n : Nat} {v : Word} (hz : (s.tile p).zeroing = false)
    (hv : getFld v F.TILE_OPQ_TAIL.tail = n) (h : s.tailRefused p n = false) :
    Runs (tileBlockWrite p 0x148 v) s none (s.tailSet p n) := by
  subst hv
  exact runs_tileBlockWrite hz (fun _ => do
    return if ← opqTail p (getFld v F.TILE_OPQ_TAIL.tail) then some 4 else none) rfl ((runs_opqTail h).bind (Runs.pure _ _))

theorem exec_opqTailWrite_core (core : CoreId) (tile : TileId) (tail : BitVec 32) (s : State) :
    exec (.opqTailWrite (some core) tile tail) s =
      .next (Act.run (busWriteX {} core (R.TILE_OPQ_TAIL tile) 8 (BitVec.ofNat 64 tail.toNat)) s) := rfl

theorem exec_opqTailWrite_hub (tile : TileId) (tail : BitVec 32) (s : State) : exec (.opqTailWrite none tile tail) s =
    .next (Act.run (mains (do let _ ← opqTail tile tail.toNat)) s) := rfl

theorem opqTail_tailSet_word (s : State) (p : Nat) (tail : BitVec 32) : (s.tailSet p tail.toNat).opqTail p = tail.toNat :=
  (opqTail_tailSet s p tail.toNat).trans (Nat.mod_eq_of_lt tail.isLt)

/-- A hub's message advances the tail. -/
theorem opqTailWrite_hub {s : State} {tile : TileId} {tail : BitVec 32} (hs : s.up) (hn : s.tailRefused tile tail.toNat = false) :
    exec (.opqTailWrite none tile tail) s = .next (s.tailSet tile tail.toNat) := by
  rw [exec_opqTailWrite_hub, next_run_mains hs, run_bind_of_runs s (runs_opqTail hn), run_pure]

theorem setWidth_tail (tail : BitVec 32) : tail.setWidth 64 = BitVec.ofNat 64 tail.toNat := BitVec.eq_of_toNat_eq (by simp)

/-- An accepted write of TILE_OPQ_TAIL does so too, and is answered. -/
theorem opqTailWrite_core {s : State} {core : CoreId} {tile : TileId} {tail : BitVec 32}
    (hn : s.tailRefused tile tail.toNat = false) (hz : (s.tile tile).zeroing = false)
    (ha : Admits s core (R.TILE_OPQ_TAIL tile) (tail.setWidth 64)) : ∃ t, exec (.opqTailWrite (some core) tile tail) s = .next t ∧
      Answered (s.tailSet tile tail.toNat) t := by
  rw [setWidth_tail] at ha
  exact ⟨_, exec_opqTailWrite_core core tile tail s,
    answered_busWriteX_tile tile.isLt (by decide) ha (runs_tileBlockWrite_tail hz (getFld_ofNat_tail tail) hn)⟩

/-- A tail that is not refused stands, whether a core or a hub writes it. -/
theorem opqTailWrite_accepted {s : State} {via : Option CoreId} {tile : TileId} {tail : BitVec 32} (hs : s.up)
    (hn : s.tailRefused tile tail.toNat = false) (hvia : ∀ core, via = some core →
      (s.tile tile).zeroing = false ∧ Admits s core (R.TILE_OPQ_TAIL tile) (tail.setWidth 64)) :
    ∃ t, exec (.opqTailWrite via tile tail) s = .next t ∧ t.opqTail tile = tail.toNat ∧
      SameBut [.regs, .mem, .tab, .tiles, .resp, .land, .sent] s t := by
  have hsame := sameBut_tailSet s tile tail.toNat
  cases via with
  | none => exact ⟨_, opqTailWrite_hub hs hn, opqTail_tailSet_word s tile tail, hsame.mono (by decide)⟩
  | some core =>
    obtain ⟨hz, ha⟩ := hvia core rfl
    obtain ⟨t, ht, hdone⟩ := opqTailWrite_core hn hz ha
    exact ⟨t, ht, (hdone.fldOf _ _).trans (opqTail_tailSet_word s tile tail), hdone.sameBut_of hsame⟩

/-! ## OP_FLUSH (R127) -/

/-- The registers of a tile that a flush writes. -/
def flushRegs (tile : Nat) : List Nat := [R.TILE_OPQ_HEAD tile, R.TILE_OP_STATUS tile, R.TILE_WBUF_STATUS tile]

theorem freeWbufs_only_wbuf (p : Nat) : Only [.regs] (freeWbufs p) :=
  .bind (.forIn _ _ fun _ _ => .bind (.rd _ _) fun _ => .ite (.bind (setWbuf_only _ _ _) fun _ => .pure _ _) (.pure _ _))
    fun _ => .pure _ _

theorem freeWbufs_writes_wbuf {P : Nat → Prop} {p : Nat} (h : P (R.TILE_WBUF_STATUS p)) : WritesOnly P (freeWbufs p) :=
  .bind (.forIn fun _ _ => .bind .rd fun _ => .ite (.bind (wrF_writes h) fun _ => .pure) .pure) fun _ => .pure

/-- The unissued descriptors are discarded, the error record and the halt clear. -/
def State.discarded (s : State) (p : Nat) : State :=
  (Upd.reg (R.TILE_OP_STATUS p) (BitVec.ofNat 64 (s.tile p).flights.length)).apply
    ((Upd.reg (R.TILE_OPQ_HEAD p) (putFld (s.reg (R.TILE_OPQ_HEAD p)) F.TILE_OPQ_HEAD.issued (s.opqTail p))).apply s)

/-- What a flush does to the tile's record, and to the weight buffers and the retired number where nothing is in flight. -/
def flushRest (s : State) (p : Nat) : Act Unit :=
  if (s.tile p).flights = [] then do
    wrF (R.TILE_OPQ_HEAD p) F.TILE_OPQ_HEAD.retired (s.opqTail p)
    modTile p (fun x => { x with retired := [], released := s.opqTail p, flushing := false })
    freeWbufs p
  else
    modTile p (fun x => { x with
      flushing := true, released := s.opqTail p
      retired := x.retired ++
        ((List.range (moves32 (s.opqIssued p) (s.opqTail p))).map (fun i => (s.opqIssued p + i) % 2 ^ 32)) })

theorem run_flushOps (s : State) (p : Nat) : Act.run (flushOps p) s = Act.run (flushRest s p) (s.discarded p) := rfl

section
variable (s : State) (p : Nat)

theorem flushRest_only : Only [.regs, .tiles] (flushRest s p) :=
  .ite (.bind ((wrF_only _ _ _).sub rfl) fun _ => .bind ((modTile_only _ _).sub rfl) fun _ => (freeWbufs_only_wbuf p).sub rfl)
    ((modTile_only _ _).sub rfl)

theorem flushRest_writes : WritesOnly (· ∈ [R.TILE_OPQ_HEAD p, R.TILE_WBUF_STATUS p]) (flushRest s p) :=
  .ite (.bind (wrF_writes (by simp)) fun _ => .bind modTile_writes fun _ => freeWbufs_writes_wbuf (by simp)) modTile_writes

theorem opqTail_mod : s.opqTail p % 2 ^ 32 = s.opqTail p := Nat.mod_eq_of_lt (getFld_lt _ F.TILE_OPQ_TAIL.tail)

theorem opqIssued_discarded : (s.discarded p).opqIssued p = s.opqTail p :=
  (fldOf_upd_ne _ _ _ _ _ (by simp [R.TILE_OPQ_HEAD, R.TILE_OP_STATUS, regA])).trans
    ((fldOf_put_self _ _ _ _ (by decide)).trans (opqTail_mod s p))

/-- After a flush the head of the queue is its tail; where nothing is in flight, all before it has retired. -/
theorem opqHead_flushOps : (Act.run (flushOps p) s).opqIssued p = s.opqTail p ∧
    ((s.tile p).flights = [] → (Act.run (flushOps p) s).opqRetired p = s.opqTail p) := by
  have hwbuf (u : State) (f : Fld) : (Act.run (freeWbufs p) u).fldOf (R.TILE_OPQ_HEAD p) f = u.fldOf (R.TILE_OPQ_HEAD p) f :=
    (freeWbufs_writes_wbuf (P := (· = R.TILE_WBUF_STATUS p)) rfl).fldOf u
      (by simp [R.TILE_OPQ_HEAD, R.TILE_WBUF_STATUS, regA]) f
  rw [run_flushOps, flushRest, run_ite]
  split
  · rw [run_wrF_bind, run_modTile_bind, State.opqIssued, State.opqRetired, hwbuf, hwbuf, fldOf_upd_tile, fldOf_upd_tile]
    exact ⟨(fldOf_put_ne _ _ _ _ _ (by decide) (by decide)).trans (opqIssued_discarded s p),
      fun _ => (fldOf_put_self _ _ _ _ (by decide)).trans (opqTail_mod s p)⟩
  · next hbusy =>
    refine ⟨?_, fun h => absurd h hbusy⟩
    exact ((modTile_writes (P := fun _ => False)).fldOf _ id _).trans (opqIssued_discarded s p)

theorem opStatus_flushOps :
    (Act.run (flushOps p) s).reg (R.TILE_OP_STATUS p) = BitVec.ofNat 64 (s.tile p).flights.length :=
  ((flushRest_writes s p).reg _ (by simp [R.TILE_OPQ_HEAD, R.TILE_OP_STATUS, R.TILE_WBUF_STATUS, regA])).trans (reg_upd_self ..)

theorem regsBut_flushOps : RegsBut (flushRegs p) s (Act.run (flushOps p) s) :=
  (((regsBut_upd_reg _ _ s).mono (by simp [flushRegs])).trans ((regsBut_upd_reg _ _ _).mono (by simp [flushRegs]))).trans
    (((flushRest_writes s p).regsBut _).mono (by simp [flushRegs]))

end

theorem exec_opFlush (core : CoreId) (tile : TileId) (v : Word) (s : State) : exec (.opFlush core tile v) s =
    .next (Act.run (busWriteX {} core (R.TILE_OP_FLUSH tile) 8 v) s) := rfl

theorem opFlush_accepted {s : State} {core p : Nat} {v : Word} (hp : p < 624) (hz : (s.tile p).zeroing = false)
    (ha : Admits s core (R.TILE_OP_FLUSH p) v) :
    Answered (Act.run (flushOps p) s) (Act.run (busWriteX {} core (R.TILE_OP_FLUSH p) 8 v) s) :=
  answered_busWriteX_tile hp (by decide) ha
    (runs_tileBlockWrite hz (fun _ => andDone (flushOps p)) rfl (runs_andDone (flushOps_only p) s))

/-! ## WALK_INV (R171) -/

/-- The look-aside buffer is empty. -/
def State.asideEmptied (s : State) (p : Nat) : State :=
  (Upd.reg (R.TILE_WALK_STATUS p) (putFld (s.reg (R.TILE_WALK_STATUS p)) F.TILE_WALK_STATUS.valid_entries 0)).apply
    ((Upd.tile p { s.tile p with aside := [] }).apply s)

theorem run_walkInv (s : State) (p : Nat) : Act.run (walkInv p) s = s.asideEmptied p := rfl

theorem exec_walkInv (core : CoreId) (tile : TileId) (s : State) : exec (.walkInv core tile) s =
    .next (Act.run (busWriteX {} core (R.TILE_WALK_INV tile) 8 1) s) := rfl

theorem walkInv_accepted {s : State} {core p : Nat} (hp : p < 624) (hz : (s.tile p).zeroing = false)
    (hf : s.attnFlying p = false) (ha : Admits s core (R.TILE_WALK_INV p) 1) :
    Answered (s.asideEmptied p) (Act.run (busWriteX {} core (R.TILE_WALK_INV p) 8 1) s) := by
  refine answered_busWriteX_tile hp (by decide) ha (runs_tileBlockWrite hz
    (fun s => if s.attnFlying p then return some 4 else andDone (walkInv p)) rfl ?_)
  rw [hf, if_neg Bool.false_ne_true, ← run_walkInv]
  exact runs_andDone (walkInv_only p) s

/-! ## QHIST_WRITE (R122) -/

/-- The entry of the history that TILE_QHIST_SEL names holds the value's. -/
def State.histPut (s : State) (p : Nat) (v : Word) : State :=
  (Upd.word (histKey p (s.fldOf (R.TILE_QHIST_SEL p) F.TILE_QHIST_SEL.stream) (s.fldOf (R.TILE_QHIST_SEL p) F.TILE_QHIST_SEL.entry))
    (BitVec.ofNat 64 (getFld v F.QHIST.valid * 2 ^ 63 + getFld v F.QHIST.max))).apply s

/-- A stream's hist_count shows how many entries of its history are valid. -/
def State.histCounted (s : State) (p i : Nat) : State :=
  (Upd.reg (R.TILE_QS_EFFECT p i)
    (putFld (s.reg (R.TILE_QS_EFFECT p i)) F.TILE_QS_EFFECT.hist_count (s.history p i).length)).apply s

theorem run_histWrite (s : State) (p : Nat) (v : Word) : Act.run (histWrite p v) s =
    (s.histPut p v).histCounted p (s.fldOf (R.TILE_QHIST_SEL p) F.TILE_QHIST_SEL.stream) := rfl

theorem history_length_le (s : State) (p i : Nat) : (s.history p i).length ≤ 16 := by
  unfold State.history
  exact (List.length_filterMap_le _ _).trans (by simp)

theorem history_congr {s t : State} (h : t.tab = s.tab) (p i : Nat) : t.history p i = s.history p i := by
  unfold State.history
  simp only [wordAt_congr h]

theorem histCount_histCounted (s : State) (p i : Nat) :
    (s.histCounted p i).fldOf (R.TILE_QS_EFFECT p i) F.TILE_QS_EFFECT.hist_count = (s.history p i).length :=
  (fldOf_put_self _ _ _ _ (by decide)).trans
    (Nat.mod_eq_of_lt (lt_of_le_of_lt (history_length_le s p i) (by decide)))

theorem exec_qhistWrite (core : CoreId) (tile : TileId) (v : Word) (s : State) : exec (.qhistWrite core tile v) s =
    .next (Act.run (busWriteX {} core (R.TILE_QHIST_DATA tile) 8 v) s) := rfl

theorem qhistWrite_accepted {s : State} {core p : Nat} {v : Word} (hp : p < 624) (hz : (s.tile p).zeroing = false)
    (hon : s.stepOn p = false) (hv : histRefused v = false) (ha : Admits s core (R.TILE_QHIST_DATA p) v) :
    Answered (Act.run (histWrite p v) s) (Act.run (busWriteX {} core (R.TILE_QHIST_DATA p) 8 v) s) := by
  refine answered_busWriteX_tile hp (by decide) ha (runs_tileBlockWrite hz
    (fun s => if s.stepOn p || histRefused v then return some 4 else andDone (histWrite p v)) rfl ?_)
  rw [hon, hv, Bool.or_false, if_neg Bool.false_ne_true]
  exact runs_andDone (histWrite_only p v) s

/-- The entry read back is the written valid bit and maximum. -/
theorem wordAt_histPut (s : State) (p : Nat) (v : Word) :
    ((s.histPut p v).wordAt (histKey p (s.fldOf (R.TILE_QHIST_SEL p) F.TILE_QHIST_SEL.stream)
      (s.fldOf (R.TILE_QHIST_SEL p) F.TILE_QHIST_SEL.entry))).toNat = getFld v F.QHIST.valid * 2 ^ 63 + getFld v F.QHIST.max := by
  have hvalid : getFld v F.QHIST.valid < 2 := getFld_lt v F.QHIST.valid
  have hmax : getFld v F.QHIST.max < 2 ^ 32 := getFld_lt v F.QHIST.max
  unfold State.histPut
  rw [wordAt_upd_self, BitVec.toNat_ofNat]
  omega

/-! ## The four commands -/

theorem tileQueueRegisters : TileQueueRegisters := by
  unfold TileQueueRegisters
  refine ⟨fun s via tile tail hs hn hvia => opqTailWrite_accepted hs hn hvia, fun s core tile v hz ha => ?_,
    fun s core tile hz hf ha => ?_, ?_⟩
  · have h := opFlush_accepted tile.isLt hz ha
    obtain ⟨hissued, hretired⟩ := opqHead_flushOps s tile
    exact ⟨_, exec_opFlush core tile v s, h.2, (h.fldOf _ _).trans hissued, (h.reg _).trans (opStatus_flushOps s tile),
      fun hidle => (h.fldOf _ _).trans (hretired hidle), h.regsBut (regsBut_flushOps s tile),
      h.sameBut_of ((flushOps_only tile).run s)⟩
  · have h := walkInv_accepted tile.isLt hz hf ha
    refine ⟨_, exec_walkInv core tile s, h.2, ?_, ?_, h.regsBut (regsBut_upd_reg _ _ ((Upd.tile _ _).apply s)),
      h.sameBut_of ((walkInv_only tile).run s)⟩
    · rw [h.tile, State.asideEmptied, tile_upd_reg, tile_upd_self]
    · exact (h.fldOf _ _).trans (fldOf_put_self _ _ _ _ (by decide))
  · rintro s core tile v i e hz hon hv ha rfl rfl
    have h := qhistWrite_accepted tile.isLt hz hon hv ha
    have hsame := (histWrite_only tile v).run s
    rw [run_histWrite] at h hsame
    refine ⟨_, exec_qhistWrite core tile v s, h.2, ?_, fun j hj => ?_, ?_, h.regsBut (regsBut_upd_reg _ _ (s.histPut tile v)),
      h.sameBut_of hsame⟩
    · rw [h.wordAt, State.histCounted, wordAt_upd_reg]
      exact wordAt_histPut s tile v
    · rw [h.wordAt, State.histCounted, wordAt_upd_reg, State.histPut, wordAt_upd_ne _ _ _ _ hj]
    · rw [h.fldOf, histCount_histCounted, history_congr (h.1.2 .tab (by decide)),
        history_congr (s := s.histPut tile v) (t := (s.histPut tile v).histCounted _ _) rfl]

/-- Settles O48 (it holds): a retirement and the queue's moves keep what is in flight, the signals and the tail but for what
their rules say, and an accepted write of a queue register leaves its register's effect and a good answer. -/
theorem tileQueues : Obligations.TileQueues := ⟨retireAndSignal, tileQueueRegisters⟩

end Sys2Proof.Machine
end

section
/-! # What an engine's writes of GDDR7 leave of the register window (R17, R241, R260, R454) -/

namespace Sys2Proof.Machine

/-- A register before the pages of the ling index, or a counter of any page: no key, base or size of a tree's slot (R213). -/
def OffLing (a : Nat) : Prop := a < pageBase .prx 0 ∨ IsCounter a

theorem count_offLing {b : Block} {p off n : Nat} (h : 0x800 ≤ off ∧ off < 0x1000) :
    WritesOnly OffLing (count (regA b p off) n) := by
  have hcounter : IsCounter (regA b p off) := by
    have hpage := pageBase_aligned b p
    unfold IsCounter regA
    omega
  exact count_writes (.inr hcounter) fun _ h => .inr h

theorem vlog_offLing {kind addr info : Nat} : WritesOnly OffLing (vlog kind addr info) :=
  .bind .rdF fun _ => .bind .rdF fun _ => .ite (count_offLing (by decide)) (.bind .rdR fun _ => .bind .rdF fun _ =>
    .bind (.of_only (stBytes_only _ _) (by decide)) fun _ => .bind (wrF_writes (.inl (by decide))) fun _ =>
    count_offLing (by decide))

/-- The pages on which a refused memory access is recorded lie before those of the ling index (R241). -/
theorem sourcePage_lt (src : Nat) : sourcePage src + 0x40 < pageBase .prx 0 := by
  unfold sourcePage pageBase
  split_ifs <;> simp only [Block.base] <;> omega

theorem refuseMem_offLing {src part addr reason : Nat} {write : Bool} :
    WritesOnly OffLing (refuseMem src part addr write reason) := by
  have record {n : Nat} (hn : n ≤ 0x40) : OffLing (sourcePage src + n) :=
    .inl (lt_of_le_of_lt (Nat.add_le_add_left hn _) (sourcePage_lt src))
  have rest (_ : Unit) : WritesOnly OffLing (do setIrq (sourcePage src) 0; vlog 1 addr (errInfo
      { source := src, hay := false, part := some part } (if write then 2 else 1) reason)) :=
    .bind (setIrq_writes (record (by decide))) fun _ => vlog_offLing
  exact .bind .rdF fun _ => .ite
    (.bind (.wrR (record (by decide))) fun _ => .bind .rdF fun _ => .bind (.wrR (record (by decide))) rest)
    (.bind (wrF_writes (record (by decide))) rest)

theorem coverStatus_offLing : OffLing R.GDC_COVER_STATUS := .inl (by decide)

theorem markUnit_offLing {pos unit : Nat} : WritesOnly OffLing (markUnit pos unit) :=
  .bind .rd fun _ => .ite .pure (.bind (.of_only (Only.upd (l := [.sites]) _ rfl) (by decide)) fun _ =>
    addF_writes coverStatus_offLing)

theorem markCover_offLing {pos unit : Nat} : WritesOnly OffLing (markCover pos unit) :=
  .bind .rd fun _ => .ite (.bind (.of_only (Only.upd (l := [.mig]) _ rfl) (by decide)) fun _ =>
    addF_writes coverStatus_offLing) .pure

theorem gWritePiece_offLing {l : GLoc} {bs : List Byte} : WritesOnly OffLing (gWritePiece l bs) :=
  .bind .get fun _ => .ite .pure (.bind (.forIn fun _ _ => .bind (.of_only (siteWrite_only _ _ _) (by decide)) fun _ =>
    .bind (count_offLing (by decide)) fun _ => .pure) fun _ =>
    .ite (.bind markUnit_offLing fun _ => .pure) (.ite (.bind markCover_offLing fun _ => .pure) .pure))

theorem gWriteRuns_offLing {src part : Nat} {runs : List (Nat × Nat)} {bs : List Byte} :
    WritesOnly OffLing (gWriteRuns src part runs bs) := by
  induction runs generalizing bs with
  | nil => exact .pure
  | cons r rs ih =>
    refine .bind .rd fun e => ?_
    cases e with
    | error e => exact .bind refuseMem_offLing fun _ => .pure
    | ok l => exact .bind gWritePiece_offLing fun _ => .ite ih .pure

theorem gWrite_offLing {src part addr : Nat} {bs : List Byte} : WritesOnly OffLing (gWrite src part addr bs) := by
  refine .bind .get fun s => .bind gWriteRuns_offLing fun e => ?_
  cases e with
  | some e => exact .pure
  | none =>
    refine .bind (.forIn fun t _ => ?_) fun _ => .pure
    have rmw : WritesOnly OffLing (if 0 < t.2.2 then do count (C.GDC_CNT_RMW t.1) t.2.2; return ForInStep.yield ()
        else return .yield ()) := .ite (.bind (count_offLing (by decide)) fun _ => .pure) .pure
    exact .ite (.bind (count_offLing (by decide)) fun _ => rmw) rmw

end Sys2Proof.Machine
end

section
/-! # The shared trees of the ling index (R206, R210) -/

namespace Sys2Proof.Machine

/-! ## The check of a tree's nodes -/

/-- A write of GDDR7 by the request engine. -/
theorem engWrite_offLing {p addr : Nat} {bs : List Byte} : WritesOnly OffLing (engWrite p 1 addr bs) :=
  .bind gWrite_offLing fun _ => .pure

theorem nodesSound_offLing {t : Tree} : WritesOnly OffLing (nodesSound t) :=
  .rd_bind fun _ => .bind (.forIn fun _ _ => .rd_bind fun _ => .bind (.forIn fun _ _ =>
    .bind engWrite_offLing fun _ => .pure) fun _ => .bind engWrite_offLing fun _ =>
    .bind (count_offLing (by decide)) fun _ => .pure) fun _ => .pure

/-- Checking a tree moves no shared slot. -/
theorem sharedTree_nodesSound (t : Tree) (s : State) {c : Nat} (hc : c < 8) :
    (Act.run (nodesSound t) s).sharedTree c = s.sharedTree c := by
  have kept {off : Nat} (h : 0x100 ≤ off ∧ off < 0x800) : (Act.run (nodesSound t) s).reg (regA .prx 1 off) =
      s.reg (regA .prx 1 off) := nodesSound_offLing.reg s (by
    simp only [OffLing, IsCounter, regA, pageBase, Block.base]
    omega)
  unfold State.sharedTree State.fldOf
  simp only [R.PRX_SHARE_CFG, R.PRX_SHARE_BASE, R.PRX_SHARE_KEY_LO, R.PRX_SHARE_KEY_HI, regA, Nat.add_assoc] at kept ⊢
  rw [kept (by omega), kept (by omega), kept (by omega), kept (by omega)]

@[simp] theorem treesChecked_nil (s : State) : s.treesChecked [] = s := rfl

@[simp] theorem treesChecked_cons (s : State) (t : Tree) (l : List Tree) :
    s.treesChecked (t :: l) = (Act.run (nodesSound t) s).treesChecked l := by
  unfold State.treesChecked
  rw [List.forIn_cons]
  exact (nodesSound_only t).run_bind _ s

/-! ## A path shared or withdrawn (R210) -/

/-- The engine's reads, the first and then the rest. -/
theorem run_engNotes_cons_bind (p : Nat) (r : Nat × Nat × Nat) (l : List (Nat × Nat × Nat)) (f : Unit → Act Unit)
    (s : State) : Act.run (engNotes p (r :: l) >>= f) s = Act.run (do engNote p r.1 r.2.1 r.2.2; engNotes p l; f ()) s := by
  unfold engNotes
  rw [List.forIn_cons]
  rfl

section
variable {s u : State} {p c node : Nat} {x : Nat × List Byte} {l : List (Nat × List Byte)} {root : List Byte}

theorem run_prxShare (hu : u = s.treesChecked [s.ownTree p]) (h : SharedPath u p c node x l root) :
    Act.run (prxShare p c node) s = Act.run (do
      engNotes p (u.pathPlaces p node l)
      sharePath (u.sharedTree c) (u.ownTree p) (x :: l) root noParent) u := by
  obtain ⟨-, -, hpath, rfl⟩ := h
  rw [treesChecked_cons, treesChecked_nil] at hu
  unfold prxShare
  rw [run_rd_bind, (nodesSound_only _).run_bind, ← hu, run_get_bind]
  simp only [hpath]
  rw [State.pathPlaces, run_engNotes_cons_bind]

theorem run_prxWithdraw (hc : c < 8) (hu : u = s.treesChecked [s.ownTree p, s.sharedTree c])
    (h : SharedPath u p c node x l root) {i : Nat} (hi : u.sharedTwin (u.sharedTree c) (x :: l) root noParent = some i) :
    Act.run (prxWithdraw p c node) s = Act.run (do
      engNotes p (u.pathPlaces p node l)
      dropSubtree (u.sharedTree c) i (2 ^ ((u.sharedTree c).nodeLog + 1))) u := by
  obtain ⟨-, -, hpath, rfl⟩ := h
  rw [treesChecked_cons, treesChecked_cons, treesChecked_nil, ← sharedTree_nodesSound (s.ownTree p) s hc] at hu
  unfold prxWithdraw
  rw [run_rd_bind, (nodesSound_only _).run_bind, run_rd_bind, (nodesSound_only _).run_bind, ← hu, run_get_bind]
  simp only [hpath, hi]
  rw [State.pathPlaces, run_engNotes_cons_bind]

end

/-! ## The commands PRX_SHARE and PRX_WITHDRAW -/

/-- An accepted write of a block register leaves what the register makes of it, answered without error. -/
theorem answered_busWriteX_block {x : BusX} {core off : Nat} {v : Word} {b : Block} {p : Nat} {s t : State}
    (hp : p < b.pages) (hb : b ≠ .dbl) (ho : 0x100 ≤ off ∧ off < 0x1000) (ha : Admits s core (regA b p off) v)
    (h : ∀ y, Runs (blockWrite y b p off v) s none t) : Answered t (Act.run (busWriteX x core (regA b p off) 8 v) s) :=
  busWriteX_done x core _ 8 v b p s t ha.1 (pageOf_regA b p off hp ho.2) hb ha.2 (by rw [regA_sub]; omega)
    (by rw [regA_sub]; exact h _)

/-- The word of REQ_PRX_SHARE that a command writes (R210). -/
def shareWord (withdraw : Bool) (c : Fin 8) (node : BitVec 24) : Word :=
  BitVec.ofNat 64 (b2n withdraw * 2 ^ 63 + c * 2 ^ 56 + node.toNat)

theorem getFld_shareWord (withdraw : Bool) (c : Fin 8) (node : BitVec 24) :
    getFld (shareWord withdraw c node) F.REQ_PRX_SHARE.withdraw = b2n withdraw ∧
      getFld (shareWord withdraw c node) F.REQ_PRX_SHARE.slot = c ∧
      getFld (shareWord withdraw c node) F.REQ_PRX_SHARE.node = node.toNat := by
  have hw : b2n withdraw < 2 := by cases withdraw <;> decide
  have hnode := node.isLt
  simp only [getFld, shareWord, bits, F.REQ_PRX_SHARE.withdraw, F.REQ_PRX_SHARE.slot, F.REQ_PRX_SHARE.node,
    BitVec.toNat_ofNat]
  omega

section
variable {core : CoreId} {p : PartId} {c : Fin 8} {node : BitVec 24} {withdraw : Bool} {s : State}

/-- REQ_PRX_SHARE shares or withdraws where the slot is valid and the writer's own. -/
theorem runs_blockWrite_share {y : BusX} (hvalid : s.fldOf (R.PRX_SHARE_CFG c) F.PRX_SHARE_CFG.valid = 1)
    (howner : s.fldOf (R.PRX_SHARE_CFG c) F.PRX_SHARE_CFG.owner = p) :
    Runs (blockWrite y .req (1 + p) 0x178 (shareWord withdraw c node)) s none
      (Act.run (if withdraw then prxWithdraw p c node.toNat else prxShare p c node.toNat) s) := by
  obtain ⟨hw, hc, hn⟩ := getFld_shareWord withdraw c node
  unfold State.fldOf at hvalid howner
  rw [blockWrite_req]
  refine (Runs.get s).bind ?_
  simp only [hw, hc, hn, hvalid, howner, one_ne_zero, ne_eq, not_true, or_self, if_false]
  cases withdraw with
  | false => exact runs_andDone (prxShare_only _ _ _) s
  | true => exact runs_andDone (prxWithdraw_only _ _ _) s

theorem answered_share (hvalid : s.fldOf (R.PRX_SHARE_CFG c) F.PRX_SHARE_CFG.valid = 1)
    (howner : s.fldOf (R.PRX_SHARE_CFG c) F.PRX_SHARE_CFG.owner = p)
    (ha : Admits s core (R.REQ_PRX_SHARE p) (shareWord withdraw c node)) :
    Answered (Act.run (if withdraw then prxWithdraw p c node.toNat else prxShare p c node.toNat) s)
      (Act.run (busWriteX {} core (R.REQ_PRX_SHARE p) 8 (shareWord withdraw c node)) s) :=
  answered_busWriteX_block (by have := p.isLt; show 1 + p.val < 64; omega) (by decide) (by decide) ha
    fun _ => runs_blockWrite_share hvalid howner

end

theorem exec_prxShare (core : CoreId) (p : PartId) (c : Fin 8) (node : BitVec 24) (s : State) :
    exec (.prxShare core p c node) s =
      .next (Act.run (busWriteX {} core (R.REQ_PRX_SHARE p) 8 (BitVec.ofNat 64 (c * 2 ^ 56 + node.toNat))) s) := rfl

theorem exec_prxWithdraw (core : CoreId) (p : PartId) (c : Fin 8) (node : BitVec 24) (s : State) :
    exec (.prxWithdraw core p c node) s =
      .next (Act.run (busWriteX {} core (R.REQ_PRX_SHARE p) 8 (BitVec.ofNat 64 (2 ^ 63 + c * 2 ^ 56 + node.toNat))) s) := rfl

theorem shareWord_false (c : Fin 8) (node : BitVec 24) :
    shareWord false c node = BitVec.ofNat 64 (c * 2 ^ 56 + node.toNat) := by
  simp [shareWord, b2n]

theorem shareWord_true (c : Fin 8) (node : BitVec 24) :
    shareWord true c node = BitVec.ofNat 64 (2 ^ 63 + c * 2 ^ 56 + node.toNat) := by
  simp [shareWord, b2n]

/-! ## A key written (R210, R213) -/

/-- Every bit of the row takes its value at once. -/
def RegRow.whole (r : RegRow) : Bool := !r.staged && r.writable == 2 ^ 64 - 1 && r.clearing == 0

theorem written_whole {r : RegRow} (h : r.whole = true) (old v : Word) : r.written old v true = v := by
  simp only [RegRow.whole, Bool.and_eq_true, beq_iff_eq] at h
  obtain ⟨⟨-, hw⟩, hc⟩ := h
  have hv : v.toNat < 2 ^ 64 := v.isLt
  rw [written_eq, hw, hc, mergeBits, Nat.and_zero, Nat.sub_zero, Nat.sub_self, Nat.and_zero, Nat.zero_or,
    Nat.and_two_pow_sub_one_eq_mod, Nat.and_two_pow_sub_one_eq_mod, Nat.mod_mod, Nat.mod_eq_of_lt hv, BitVec.ofNat_toNat,
    BitVec.setWidth_eq]

theorem runs_stored_whole {a : Nat} (h : (rowOf a).any RegRow.whole = true) (v : Word) (s : State) :
    Runs (stored a v) s none ((Upd.reg a v).apply s) := by
  obtain ⟨r, hrow, hr⟩ := (Option.any_eq_true _ _).1 h
  have hst : r.staged = false := by
    simp only [RegRow.whole, Bool.and_eq_true, Bool.not_eq_true'] at hr
    obtain ⟨⟨hplain, -⟩, -⟩ := hr
    exact hplain
  simpa only [written_whole hr] using runs_stored hrow hst v s

/-- The words of the keys take any value at once: 64 of the partitions' keys, 16 of the shared slots'. -/
theorem keyRow_whole : ∀ (shared : Bool) (i : Nat), i < 2 * (if shared then 8 else 32) →
    (rowOf (regA .prx (b2n shared) (0x100 + 8 * i))).any RegRow.whole = true := by
  decide +kernel

/-- The tree of a key: a shared slot's, or a partition's own. -/
def State.treeOf (s : State) (shared : Bool) (k : Nat) : Tree := if shared then s.sharedTree k else s.ownTree k

section
variable {core : CoreId} {shared : Bool} {k h : Nat} {v : Word} {s : State}

/-- A key is written once its tree is empty. -/
theorem runs_blockWrite_key {y : BusX} (hk : k < if shared then 8 else 32) (hh : h < 2) :
    Runs (blockWrite y .prx (b2n shared) (0x100 + 8 * (2 * k + h)) v) s none (Act.run (do
      emptyTree (s.treeOf shared k)
      wrR (regA .prx (b2n shared) (0x100 + 8 * (2 * k + h))) v) s) := by
  have hkey : (0x100 + 8 * (2 * k + h) - 0x100) / 16 = k := by omega
  have hrow := keyRow_whole shared (2 * k + h) (by omega)
  have hdone := ((emptyTree_only (s.treeOf shared k)).runs s).bind (f := fun _ => stored _ v) (runs_stored_whole hrow v _)
  rw [(emptyTree_only _).run_bind, run_wrR]
  refine (Runs.get s).bind ?_
  cases shared with
  | false =>
    show Runs (do emptyTree (s.ownTree ((0x100 + 8 * (2 * k + h) - 0x100) / 16)); stored _ v) s none _
    rw [hkey]
    exact hdone
  | true =>
    have hpage : 0x100 + 8 * (2 * k + h) < 0x200 := by rw [if_pos rfl] at hk; omega
    show Runs (if 0x100 + 8 * (2 * k + h) < 0x200 then do
      emptyTree (s.sharedTree ((0x100 + 8 * (2 * k + h) - 0x100) / 16)); stored _ v else _) s none _
    rw [if_pos hpage, hkey]
    exact hdone

theorem answered_key (hk : k < if shared then 8 else 32) (hh : h < 2)
    (ha : Admits s core (regA .prx (b2n shared) (0x100 + 8 * (2 * k + h))) v) : Answered (Act.run (do
      emptyTree (s.treeOf shared k)
      wrR (regA .prx (b2n shared) (0x100 + 8 * (2 * k + h))) v) s)
      (Act.run (busWriteX {} core (regA .prx (b2n shared) (0x100 + 8 * (2 * k + h))) 8 v) s) :=
  answered_busWriteX_block (by cases shared <;> decide) (by decide) (by split at hk <;> omega) ha
    fun _ => runs_blockWrite_key hk hh

end

theorem exec_prxKeyWrite (core : CoreId) (shared : Bool) (n : Fin 32) (high : Bool) (v : Word) (s : State) :
    exec (.prxKeyWrite core shared n high v) s = .next (Act.run (busWriteX {} core
      ((if shared then R.PRX_SHARE_KEY_LO (n % 8) else R.PRX_KEY_LO n) + (if high then 8 else 0)) 8 v) s) := rfl

/-- Where a key's word lies (R213). -/
theorem keyWord_eq_regA (shared : Bool) (n : Nat) (high : Bool) :
    (if shared then R.PRX_SHARE_KEY_LO (n % 8) else R.PRX_KEY_LO n) + (if high then 8 else 0) =
      regA .prx (b2n shared) (0x100 + 8 * (2 * (if shared then n % 8 else n) + b2n high)) := by
  have hhigh : (if high then 8 else 0) = 8 * b2n high := by cases high <;> rfl
  rw [hhigh]
  cases shared with
  | false =>
    show R.PRX_KEY_LO n + 8 * b2n high = regA .prx 0 (0x100 + 8 * (2 * n + b2n high))
    unfold R.PRX_KEY_LO regA
    omega
  | true =>
    show R.PRX_SHARE_KEY_LO (n % 8) + 8 * b2n high = regA .prx 1 (0x100 + 8 * (2 * (n % 8) + b2n high))
    unfold R.PRX_SHARE_KEY_LO regA
    omega

/-- An accepted key stands, its tree emptied. -/
theorem prxKeyWrite_accepted {s : State} {core : CoreId} {shared : Bool} {n : Fin 32} {high : Bool} {v : Word} {a : Nat}
    (e : a = (if shared then R.PRX_SHARE_KEY_LO (n % 8) else R.PRX_KEY_LO n) + (if high then 8 else 0))
    (ha : Admits s core a v) : ∃ t, exec (.prxKeyWrite core shared n high v) s = .next t ∧
      t.resp = { reason := 0, data := 0 } ∧ t.reg a = v ∧ Served (do
        emptyTree (if shared then s.sharedTree (n % 8) else s.ownTree n)
        wrR a v) s t := by
  subst e
  have hk : (if shared then n.val % 8 else n) < if shared then 8 else 32 := by split <;> omega
  have hh : b2n high < 2 := by cases high <;> decide
  refine ⟨_, exec_prxKeyWrite core shared n high v s, ?_⟩
  rw [keyWord_eq_regA] at ha ⊢
  have h := answered_key hk hh ha
  refine ⟨h.2, ?_, ?_⟩
  · rw [h.reg, (emptyTree_only _).run_bind, run_wrR, reg_upd_self]
  · cases shared <;> exact h

/-! ## A copy that ends (R175) -/

theorem run_modPart_bind (p : Nat) (f : PartX → PartX) (g : Unit → Act Unit) (s : State) :
    Act.run (modPart p f >>= g) s = Act.run (g ()) ((Upd.part p (f (s.part p))).apply s) := rfl

/-- One read of the engine. -/
theorem run_engNote_bind (p space addr len : Nat) (f : Unit → Act Unit) (s : State) :
    Act.run (engNote p space addr len >>= f) s = Act.run (f ()) (s.engRead p [(space, addr, len)]) := by
  have h := run_engNotes_cons_bind p (space, addr, len) [] f s
  rw [(engNotes_only _ _).run_bind] at h
  exact h.symm

theorem exec_cowCopyDone {p : PartId} {s : State} (h : s.clear) :
    exec (.cowCopyDone p) s = .next (Act.run (cowDone p) s) := by
  obtain ⟨hup, hw⟩ := h
  exact (next_run_mains hup _).trans (congrArg _ (run_served _ hw))

/-- Settles O24 (it holds): the checks of the trees move no slot, the writes of REQ_PRX_SHARE and of a key are answered with
the work of their rules, and the one copy there is ends in place or in its new frame. -/
theorem lingTreesShared : Obligations.LingTreesShared := by
  unfold Obligations.LingTreesShared
  refine ⟨?_, ?_, fun _ _ _ _ _ _ _ e ha => prxKeyWrite_accepted e ha, ?_⟩
  · intro s u core p c node x l root hvalid howner hu hpath ha
    rw [← shareWord_false] at ha
    have h := answered_share hvalid howner ha
    rw [if_neg Bool.false_ne_true, run_prxShare hu hpath, shareWord_false] at h
    exact ⟨_, exec_prxShare core p c node s, h⟩
  · intro s u core p c node x l root i hvalid howner hu hpath hi ha
    rw [← shareWord_true] at ha
    have h := answered_share hvalid howner ha
    rw [if_pos rfl, run_prxWithdraw c.isLt hu hpath hi, shareWord_true] at h
    exact ⟨_, exec_prxWithdraw core p c node s, h⟩
  · rintro s u p job e rc hclear hjob he rfl hu
    rw [exec_cowCopyDone hclear, cowDone, run_get_bind]
    simp only [hjob, he, List.foldl_nil, run_modPart_bind, run_engNote_bind, List.erase_cons_head]
    rw [← hu]
    refine ⟨fun hothers hsole => ?_, fun hused => ?_⟩
    · exact congrArg (fun a => Host.Outcome.next (Act.run a u)) (if_pos ⟨hothers, hsole⟩)
    · have hnot : ¬ (job.others = true ∧ s.soleHolder p job.slot (pdRc e) = true) := by simpa using hused
      exact congrArg (fun a => Host.Outcome.next (Act.run a u)) (if_neg hnot)

end Sys2Proof.Machine
end

section
/-! # An accepted queue tail stands (R221, R274, R320, R356, R488) -/

namespace Sys2Proof.Machine

/-- A tail write whose check lets it go on sets the tail. -/
theorem runs_tailSet {bad : State → Prop} [DecidablePred bad] {refused : Act (Option Nat)} {a n : Nat} {f : Fld} {s : State}
    (h : ¬ bad s) : Runs (do
      let u ← Act.get
      if bad u then refused
      else
        wrF a f n
        return none) s none ((Upd.reg a (putFld (s.reg a) f n)).apply s) := by
  refine (Runs.get s).bind ?_
  rw [if_neg h]
  exact ((Runs.rd _ s).bind (Runs.upd _ s)).bind (Runs.pure _ _)

section
variable {s : State} {core : Nat} {b : Block} {p off : Nat} {tail : BitVec 32} {t : State}

/-- Where its block register only puts the tail in bits 31:0, an accepted write leaves the tail there and every other register as it was. -/
theorem queueTail_stands (hp : p < b.pages) (hb : b ≠ .dbl) (ho : 0x100 ≤ off ∧ off < 0x1000)
    (ha : Admits s core (regA b p off) (tail.setWidth 64))
    (h : ∀ y, Runs (blockWrite y b p off (BitVec.ofNat 64 tail.toNat)) s none
      ((Upd.reg (regA b p off) (putFld (s.reg (regA b p off)) ⟨31, 0⟩ tail.toNat)).apply s))
    (ht : Act.run (busWrite core (regA b p off) tail.toNat) s = t) :
    t.resp = { reason := 0, data := 0 } ∧ t.fldOf (regA b p off) ⟨31, 0⟩ = tail.toNat ∧ RegsBut [regA b p off] s t ∧
      SameBut [.regs, .resp, .land, .sent] s t := by
  subst ht
  rw [setWidth_tail] at ha
  have hdone := answered_busWriteX_block (x := {}) hp hb ho ha h
  obtain ⟨hresp, -, hregs, hsame⟩ := hdone.put
  exact ⟨hresp, (hdone.fldOf _ _).trans ((fldOf_put_self s _ _ _ (by decide)).trans (Nat.mod_eq_of_lt tail.isLt)), hregs, hsame⟩

/-- The same for the queue of a partition whose register is written by `write` (R274, R320, R356). -/
theorem prtTail_stands {write : Nat → Act (Option Nat)} (hp : p < 32) (ho : 0x100 ≤ off ∧ off < 0x1000)
    (ha : Admits s core (regA .prt p off) (tail.setWidth 64))
    (hw : Runs (write tail.toNat) s none
      ((Upd.reg (regA .prt p off) (putFld (s.reg (regA .prt p off)) ⟨31, 0⟩ tail.toNat)).apply s))
    (e : ∀ v, prtWrite p off v = Act.get >>= fun _ => write (getFld v ⟨31, 0⟩))
    (ht : Act.run (busWrite core (regA .prt p off) tail.toNat) s = t) :
    t.resp = { reason := 0, data := 0 } ∧ t.fldOf (regA .prt p off) ⟨31, 0⟩ = tail.toNat ∧ RegsBut [regA .prt p off] s t ∧
      SameBut [.regs, .resp, .land, .sent] s t := by
  refine queueTail_stands hp (by decide) ho ha (fun y => ?_) ht
  have hfld : getFld (BitVec.ofNat 64 tail.toNat) ⟨31, 0⟩ = tail.toNat := getFld_ofNat_tail tail
  show Runs (prtWrite p off (BitVec.ofNat 64 tail.toNat)) s none _
  rw [e, hfld]
  exact (Runs.get s).bind hw

end

/-- XRT_CTX_PLACE_TAIL takes a tail that does not move backwards nor give more than the queue holds (R221). -/
theorem runs_placeTailWrite {s : State} {c : Nat} {tail : BitVec 32}
    (h : queueTailBad (s.placeSize c) (s.placeDone c) (s.placeTail c) tail.toNat = false) :
    Runs (placeTailWrite c (BitVec.ofNat 64 tail.toNat)) s none
      ((Upd.reg (R.XRT_CTX_PLACE_TAIL c) (putFld (s.reg (R.XRT_CTX_PLACE_TAIL c)) ⟨31, 0⟩ tail.toNat)).apply s) := by
  have htail : bits (BitVec.ofNat 64 tail.toNat).toNat 31 0 = tail.toNat := getFld_ofNat_tail tail
  unfold placeTailWrite
  rw [htail]
  refine runs_tailSet (bad := fun u => backwards32 (u.placeTail c) tail.toNat = true ∨
    u.placeSize c < moves32 (u.placeDone c) tail.toNat) ?_
  simpa [queueTailBad] using h

/-- Settles O25 (it holds): the write of each of the five tails puts it in its register, and no more. -/
theorem queueTailStands : Obligations.QueueTailStands := by
  unfold Obligations.QueueTailStands
  intro s core tail
  refine ⟨fun ctx ha hbad => ⟨_, rfl, queueTail_stands (by have := ctx.isLt; show 4 + ctx.val < 16; omega) (by decide)
    (by decide) ha (fun y => ?_) rfl⟩, fun p => ⟨fun ha hbad => ?_, fun ha hbad => ?_, fun ha hbad => ?_, fun ha hbad => ?_⟩⟩
  · rw [blockWrite_place]
    exact runs_placeTailWrite hbad
  · exact ⟨_, rfl, prtTail_stands (write := flqTailWrite p) p.isLt (by decide) ha
      (runs_tailSet (ne_true_of_eq_false hbad)) (fun _ => rfl) rfl⟩
  · exact ⟨_, rfl, prtTail_stands (write := ldqTailWrite p) p.isLt (by decide) ha
      (runs_tailSet (ne_true_of_eq_false hbad)) (fun _ => rfl) rfl⟩
  · exact ⟨_, rfl, prtTail_stands (write := tdqTailWrite p) p.isLt (by decide) ha
      (runs_tailSet (ne_true_of_eq_false hbad)) (fun _ => rfl) rfl⟩
  · exact ⟨_, rfl, prtTail_stands (write := clqTailWrite p) p.isLt (by decide) ha
      (runs_tailSet (ne_true_of_eq_false hbad)) (fun _ => rfl) rfl⟩

end Sys2Proof.Machine
end

section
/-! # Bytes of hub SRAM and their writers (R17, R238, R374, R386) -/

namespace Sys2Proof.Machine

/-! ## Ranges that a partition holds -/

theorem hubReason_congr {s t : State} (h : t.tab = s.tab) (p a n : Nat) : t.hubReason p a n = s.hubReason p a n := by
  simp only [State.hubReason, wordAt_congr h]

theorem HubHolds.congr {s t : State} {p a n : Nat} (h : HubHolds s p a n) (ht : t.tab = s.tab) : HubHolds t p a n :=
  (hubReason_congr ht p a n).trans h

/-- A partition that holds a range holds every part of it. -/
theorem HubHolds.part {s : State} {p a n b m : Nat} (h : HubHolds s p a n) (hm : 0 < m) (hab : a ≤ b) (hbn : b + m ≤ a + n) :
    HubHolds s p b m := by
  unfold HubHolds State.hubReason at *
  have hfit : ¬ 2 ^ 26 < a + n := fun hc => by rw [if_pos hc] at h; cases h
  rw [if_neg hfit, List.findSome?_eq_none_iff] at h
  rw [if_neg (by omega), List.findSome?_eq_none_iff]
  intro i hi
  rw [List.mem_range] at hi
  have hunit := h (b / 2 ^ 16 + i - a / 2 ^ 16) (List.mem_range.2 (by omega))
  rwa [show a / 2 ^ 16 + (b / 2 ^ 16 + i - a / 2 ^ 16) = b / 2 ^ 16 + i by omega] at hunit

theorem engBytes_hub {s : State} {p a n : Nat} (h : HubHolds s p a n) : s.engBytes p 0 a n = some (s.hubAt a n) :=
  if_pos (by rw [h]; rfl)

/-! ## Runs of bytes written -/

@[simp] theorem length_leBytes (n v : Nat) : (leBytes n v).length = n := by
  induction n generalizing v with
  | zero => rfl
  | succ n ih => exact congrArg (· + 1) (ih _)

theorem Wrote.refl (s : State) (k : Nat) : Wrote s s k [] := fun j => (if_neg (by simp)).symm

theorem Wrote.append {s t u : State} {k : Nat} {l m : List Byte} (h : Wrote s t k l) (g : Wrote t u (k + l.length) m) :
    Wrote s u k (l ++ m) := by
  intro j
  rw [g j, h j, List.length_append]
  by_cases hl : j < k + l.length
  · rw [if_neg (by omega)]
    by_cases hk : k ≤ j
    · rw [if_pos ⟨hk, hl⟩, if_pos (by omega), List.getD_append _ _ _ _ (by omega)]
    · rw [if_neg (by omega), if_neg (by omega)]
  · by_cases hm : j < k + l.length + m.length
    · rw [if_pos (by omega), if_pos (by omega), List.getD_append_right _ _ _ _ (by omega)]
      congr 1
      omega
    · rw [if_neg (by omega), if_neg (by omega), if_neg (by omega)]

/-- Bytes apart from those written stay. -/
theorem Wrote.memBytes_apart {s t : State} {k : Nat} {l : List Byte} (h : Wrote s t k l) {i n : Nat}
    (hd : i + n ≤ k ∨ k + l.length ≤ i) : t.memBytes i n = s.memBytes i n :=
  List.map_congr_left fun j hj => by
    rw [List.mem_range] at hj
    rw [h, if_neg (by omega)]

/-- Some of the bytes written. -/
theorem Wrote.memBytes {s t : State} {k : Nat} {l : List Byte} (h : Wrote s t k l) {i n : Nat} (hn : i + n ≤ l.length) :
    t.memBytes (k + i) n = (l.drop i).take n := by
  refine List.ext_getElem (by simp [State.memBytes]; omega) fun j hj _ => ?_
  simp only [State.memBytes, List.length_map, List.length_range] at hj
  rw [List.getElem_take, List.getElem_drop]
  simp only [State.memBytes, List.getElem_map, List.getElem_range]
  rw [h, if_pos (by omega), show k + i + j - k = i + j by omega]
  exact List.getD_eq_getElem _ _ _

/-- An entry of a table whose entries have one width. -/
theorem take_drop_flatMap {α β : Type} {f : α → List β} {w : Nat} (hf : ∀ x, (f x).length = w) (l : List α) {i : Nat}
    (hi : i < l.length) : ((l.flatMap f).drop (w * i)).take w = f l[i] := by
  induction l generalizing i with
  | nil => cases hi
  | cons x l ih =>
    rw [List.flatMap_cons]
    cases i with
    | zero => simp [← hf x]
    | succ i =>
      rw [Nat.mul_succ, Nat.add_comm, ← List.drop_drop, List.drop_left' (hf x)]
      exact ih (by simpa using hi)

theorem length_flatMap_const {α β : Type} {f : α → List β} {w : Nat} (hf : ∀ x, (f x).length = w) (l : List α) :
    (l.flatMap f).length = w * l.length := by
  simp [List.length_flatMap, hf, Nat.mul_comm]

/-- An entry of a table that was written whole. -/
theorem Wrote.entry {α : Type} {s t : State} {k w : Nat} {f : α → List Byte} {l : List α} (h : Wrote s t k (l.flatMap f))
    (hf : ∀ x, (f x).length = w) {i : Nat} (hi : i < l.length) : t.memBytes (k + w * i) w = f l[i] := by
  rw [h.memBytes, take_drop_flatMap hf l hi]
  rw [length_flatMap_const hf, ← Nat.mul_succ]
  exact Nat.mul_le_mul_left w hi

/-! ## What leaves a byte of the memories -/

/-- From every state the action goes on, and the byte at `k` stays. -/
abbrev KeepsByte {α : Type} (k : Nat) (a : Act α) : Prop := Keeps (fun s => s.byteAt k) a

/-- Where the hub SRAMs go on past the violation log, which lies in the first 32 KiB of hub 0 (R386). -/
def pastLog : Nat := 2 ^ 36 + 2 ^ 15

namespace KeepsByte

variable {α β : Type} {k : Nat}

theorem of_only {l : List Field} {a : Act α} (h : Only l a) (hl : Field.mem ∉ l) : KeepsByte k a :=
  Keeps.of_only h fun _ _ q => byteAt_congr (q.2 .mem hl) k

theorem rd_bind {g : State → α} {f : α → Act β} (h : ∀ s, KeepsByte k (f (g s))) : KeepsByte k (rd g >>= f) := fun s =>
  let ⟨x, t, r, q⟩ := h s s
  ⟨x, t, (Runs.rd g s).bind r, q⟩

theorem stBytes {a : Nat} {bs : List Byte} (h : k < a ∨ a + bs.length ≤ k) : KeepsByte k (stBytes a bs) := fun s => by
  obtain ⟨t, r, -, e⟩ := runs_stBytes a bs s
  exact ⟨(), t, r, (e k).trans (if_neg (by omega))⟩

theorem tileWrite {page off : Nat} {bs : List Byte} (h : tileKey page off + bs.length ≤ k) : KeepsByte k (tileWrite page off bs) :=
  .bind (stBytes (.inr h)) fun _ => of_only (markDirty_only _ _ _) (by decide)

variable (hk : pastLog ≤ k)
include hk

theorem vlog {kind addr info : Nat} : KeepsByte k (vlog kind addr info) := by
  refine .bind .rd fun head => .bind .rd fun _ => .ite (of_only (count_only _ _) (by decide)) (.bind .rd fun _ =>
    .bind .rd fun _ => .bind (stBytes (.inr ?_)) fun _ => .bind (of_only (wrF_only _ _ _) (by decide)) fun _ =>
    of_only (count_only _ _) (by decide))
  simp only [List.length_append, length_leBytes, List.length_singleton, hubKey]
  unfold pastLog at hk
  omega

theorem refuseMem {src part addr reason : Nat} {write : Bool} : KeepsByte k (refuseMem src part addr write reason) := by
  have rest (_ : Unit) : KeepsByte k (do setIrq (sourcePage src) 0; Machine.vlog 1 addr (errInfo
      { source := src, hay := false, part := some part } (if write then 2 else 1) reason)) :=
    .bind (of_only (setIrq_only _ _) (by decide)) fun _ => vlog hk
  have wrR {a : Nat} {v : Word} : KeepsByte k (wrR a v) := of_only (wrR_only _ _) (by decide)
  exact .bind .rd fun _ => .ite (.bind wrR fun _ => .bind .rd fun _ => .bind wrR rest)
    (.bind (of_only (wrF_only _ _ _) (by decide)) rest)

end KeepsByte

/-- A place of a tile lies below the hub SRAMs (R29). -/
theorem tileKey_of_tilePlace {s : State} {p a n page off : Nat} (h : s.tilePlace p a n = .ok (page, off)) :
    tileKey page off + n ≤ 2 ^ 36 := by
  unfold State.tilePlace at h
  split at h
  · cases h
  · next q hq =>
    split at h
    · cases h
    · next hown =>
      split at h
      · cases h
      · next hfit =>
        obtain ⟨rfl, rfl⟩ := Prod.mk.inj (Except.ok.inj h)
        have hpage : q < 624 := by
          unfold State.tileOf at hq
          dsimp only at hq
          split at hq
          · next hmap =>
            obtain ⟨-, -, hlt, -⟩ := hmap
            exact Option.some.inj hq ▸ hlt
          · cases hq
        unfold tileKey
        omega

namespace KeepsByte

variable {k : Nat} (hk : pastLog ≤ k)
include hk

theorem spWrite_tile {src part addr : Nat} {bs : List Byte} : KeepsByte k (spWrite src part 2 addr bs) := by
  refine rd_bind fun s => ?_
  split
  · exact .bind (refuseMem hk) fun _ => .pure
  · next hplace =>
    have hbelow := tileKey_of_tilePlace hplace
    unfold pastLog at hk
    exact .bind (tileWrite (by omega)) fun _ => .pure

theorem routerWrite {h c p off : Nat} {bs : List Byte} : KeepsByte k (routerWrite h c p off bs) :=
  .bind .get fun _ => .bind (.forIn fun _ _ => .bind (spWrite_tile hk) fun _ => .pure) fun _ => .pure

end KeepsByte

end Sys2Proof.Machine
end

section
/-! # Place requests of the routing engine (R222, R223) -/

namespace Sys2Proof.Machine

/-- The engine has started a request: its context counts it, the engine is busy with it, and holds its signal (R222). -/
def startPlace (s : State) (h c : Nat) (q : List Byte) : Act Unit := do
  wrF (R.XRT_CTX_PLACE_HEAD c) F.XRT_CTX_PLACE_HEAD.started (s.placeStarted c + 1)
  wrF (R.XRT_ENG_STATUS h) F.XRT_ENG_STATUS.busy 1
  wrF (R.XRT_ENG_STATUS h) F.XRT_ENG_STATUS.context c
  stW (placeSigKey h 0) (numAt q 24 4)
  stW (placeSigKey h 1) (numAt q 28 4)

theorem run_placeRequest {s : State} {h c p : Nat} {q : List Byte}
    (hbusy : s.fldOf (R.XRT_ENG_STATUS h) F.XRT_ENG_STATUS.busy = 0) (hpage : s.pageServes (pageBase .xrt h) = true)
    (hfirst : (placeHeads s h).find? (fun x => s.placeReady x.2.1 x.2.2) = some (c, p, q)) :
    Act.run (placeRequest h) s = Act.run (placeWork h c p q) (Act.run (startPlace s h c q) s) := by
  unfold placeHeads at hfirst
  unfold placeRequest
  rw [run_get_bind, hbusy, hpage]
  simp only [hfirst]
  rfl

/-- A hub that is not failed lets its engine act (R40). -/
theorem run_hubActs {s : State} {h : Nat} (g : (s.wordAt (hubLostKey h)).toNat = 0) (a : Act Unit) :
    Act.run (hubActs h a) s = Act.run a s := by
  unfold hubActs
  rw [run_ldW_bind, if_pos g]

theorem exec_placeRequest {s : State} {hub : HubId} (h : HubServes s hub) :
    exec (.placeRequest hub) s = .next (Act.run (placeRequest hub) s) := by
  obtain ⟨⟨hup, hw⟩, hhub⟩ := h
  exact (next_run_mains hup _).trans (congrArg _ ((run_served _ hw).trans (run_hubActs hhub _)))

theorem exec_placeSignal {s : State} {hub : HubId} (h : HubServes s hub) :
    exec (.placeSignal hub) s = .next (Act.run (placeSignal hub) s) := by
  obtain ⟨⟨hup, -⟩, hhub⟩ := h
  exact (next_run_mains hup _).trans (congrArg _ (run_hubActs hhub _))

/-- The registers of a request that ends: the engine is free, and its context counts the request done (R222). -/
def placeEnd (h c : Nat) : Act Unit := do
  wrF (R.XRT_ENG_STATUS h) F.XRT_ENG_STATUS.busy 0
  addF (R.XRT_CTX_PLACE_HEAD c) F.XRT_CTX_PLACE_HEAD.done 1
  count (C.XRT_CNT_PLACE_REQ c) 1
  count (C.XRT_ENG_CNT_REQ h) 1

theorem run_placeSignal {s : State} {h c p page off : Nat} (hbusy : s.fldOf (R.XRT_ENG_STATUS h) F.XRT_ENG_STATUS.busy = 1)
    (hc : c = s.fldOf (R.XRT_ENG_STATUS h) F.XRT_ENG_STATUS.context) (hp : s.ctxPart c = some p)
    (hplace : s.tilePlace p (bits (s.wordAt (placeSigKey h 0)).toNat 31 22 * 2 ^ 22 +
      bits (s.wordAt (placeSigKey h 0)).toNat 18 0 * 8) 8 = .ok (page, off)) :
    Act.run (placeSignal h) s = Act.run (placeEnd h c)
      (Act.run (tileWrite page off (leBytes 8 (s.wordAt (placeSigKey h 1)).toNat)) s) := by
  subst hc
  unfold placeSignal
  rw [run_get_bind, hbusy]
  simp only [hp, one_ne_zero, if_false]
  rw [(signalTile_only _ _ _ _).run_bind, run_signalTile hplace]
  rfl

/-- A counter of a page. -/
theorem isCounter_regA {b : Block} {p off : Nat} (h : 0x800 ≤ off ∧ off < 0x1000) : IsCounter (regA b p off) := by
  have hpage := pageBase_aligned b p
  unfold IsCounter regA
  omega

theorem not_isCounter_regA {b : Block} {p off : Nat} (h : off < 0x800) : ¬ IsCounter (regA b p off) := by
  have hpage := pageBase_aligned b p
  unfold IsCounter regA
  omega

theorem engStatus_ne_placeHead (h c : Nat) : R.XRT_ENG_STATUS h ≠ R.XRT_CTX_PLACE_HEAD c := by
  simp only [R.XRT_ENG_STATUS, R.XRT_CTX_PLACE_HEAD, regA, pageBase]
  omega

theorem placeEnd_done {s t : State} {h c : Nat} (ht : Act.run (placeEnd h c) s = t) :
    t.fldOf (R.XRT_ENG_STATUS h) F.XRT_ENG_STATUS.busy = 0 ∧ t.placeDone c = (s.placeDone c + 1) % 2 ^ 32 ∧ SameBut [.regs] s t := by
  have hcounts : WritesOnly IsCounter (do count (C.XRT_CNT_PLACE_REQ c) 1; count (C.XRT_ENG_CNT_REQ h) 1) :=
    .bind (count_counters (isCounter_regA (by decide))) fun _ => count_counters (isCounter_regA (by decide))
  have hstatus : ¬ IsCounter (R.XRT_ENG_STATUS h) := not_isCounter_regA (by decide)
  have hhead : ¬ IsCounter (R.XRT_CTX_PLACE_HEAD c) := not_isCounter_regA (by decide)
  have hsame : Only [.regs] (placeEnd h c) := .bind (wrF_only _ _ _) fun _ => .bind (addF_only _ _ _) fun _ =>
    .bind (count_only _ _) fun _ => count_only _ _
  subst ht
  refine ⟨?_, ?_, hsame.run s⟩
  · unfold placeEnd
    rw [run_wrF_bind, run_addF_bind, hcounts.fldOf _ hstatus,
      fldOf_upd_ne _ _ _ _ _ (engStatus_ne_placeHead h c), fldOf_put_self _ _ _ _ (by decide), Nat.zero_mod]
  · unfold placeEnd State.placeDone
    rw [run_wrF_bind, run_addF_bind, hcounts.fldOf _ hhead, fldOf_put_self _ _ _ _ (by decide),
      fldOf_upd_ne _ _ _ _ _ (engStatus_ne_placeHead h c).symm]
    rfl

end Sys2Proof.Machine
end

section
/-! # The bias loop (R229 to R232) -/

namespace Sys2Proof.Machine

/-! ## What an update writes of the register window -/

/-- An engine's write writes no register but those of its refusal and, in GDDR7, those of that write. -/
theorem spWrite_writes {P : Nat → Prop} {src part space addr : Nat} {bs : List Byte}
    (hr : ∀ e, WritesOnly P (refuseMem src part addr true e)) (hg : WritesOnly P (gWrite src part addr bs)) :
    WritesOnly P (spWrite src part space addr bs) := by
  unfold spWrite
  split
  · refine .bind .rd fun e => ?_
    split
    · exact .bind (hr _) fun _ => .pure
    · exact .bind (.of_only (stBytes_only _ _) (by decide)) fun _ => .pure
  · exact hg
  · refine .bind .rd fun e => ?_
    split
    · exact .bind (hr _) fun _ => .pure
    · exact .bind (.of_only (tileWrite_only _ _ _) (by decide)) fun _ => .pure
  · exact .pure

theorem spWrite_offLing {src part space addr : Nat} {bs : List Byte} : WritesOnly OffLing (spWrite src part space addr bs) :=
  spWrite_writes (fun _ => refuseMem_offLing) gWrite_offLing

theorem putLoad_offLing {c p e load pending : Nat} {L : Layer} : WritesOnly OffLing (putLoad c p L e load pending) :=
  .bind spWrite_offLing fun _ => .pure

theorem routerWrite_offLing {h c p off : Nat} {bs : List Byte} : WritesOnly OffLing (routerWrite h c p off bs) :=
  .bind .get fun _ => .bind (.forIn fun _ _ => .bind spWrite_offLing fun _ => .pure) fun _ => .pure

theorem biasLayer_offLing {c p : Nat} {L : Layer} : WritesOnly OffLing (biasLayer c p L) :=
  .bind .get fun _ => .bind spWrite_offLing fun _ => .bind (.forIn fun _ _ => .bind putLoad_offLing fun _ => .pure) fun _ =>
    .bind (count_offLing (by decide)) fun _ => routerWrite_offLing

theorem not_offLing_biasState (c : Nat) : ¬ OffLing (R.XRT_BIAS_STATE c) := by
  simp only [OffLing, IsCounter, R.XRT_BIAS_STATE, regA, pageBase, Block.base]
  omega

/-! ## BIAS_UPDATE (R231, R232) -/

/-- Every layer of a context that is due is updated. -/
def updateLayers (s : State) (c p : Nat) : Act Unit := do
  stW (biasEdgeKey c) 0
  for x in s.layersOf c p do biasLayer c p x.2

/-- The update is over: the steps count anew, and `seq` waits to go to the ready words. -/
def biasesMoved (c : Nat) : Act Unit := do
  wrF (R.XRT_BIAS_STATE c) F.XRT_BIAS_STATE.steps_since 0
  addF (R.XRT_BIAS_STATE c) F.XRT_BIAS_STATE.seq 1
  stW (biasReadyKey c) 1
  count (C.XRT_CNT_BIAS_UPDATES c) 1
  setIrq (ctxPage c) 33

theorem run_biasUpdate {s : State} {c p : Nat} (hp : s.ctxPart c = some p) (hdue : s.biasDue c = true) :
    Act.run (biasUpdate c) s = Act.run (do updateLayers s c p; biasesMoved c) s := by
  unfold biasUpdate
  rw [run_get_bind]
  simp only [hp, hdue]
  rfl

theorem updateLayers_only (s : State) (c p : Nat) : Only [.regs, .mem, .tab, .sites, .mig] (updateLayers s c p) :=
  .bind ((stW_only _ _).sub rfl) fun _ =>
    .bind (.forIn _ _ fun _ _ => .bind (biasLayer_only _ _ _) fun _ => .pure _ _) fun _ => .pure _ _

theorem updateLayers_offLing {s : State} {c p : Nat} : WritesOnly OffLing (updateLayers s c p) :=
  .bind (.of_only (stW_only _ _) (by decide)) fun _ =>
    .bind (.forIn fun _ _ => .bind biasLayer_offLing fun _ => .pure) fun _ => .pure

theorem biasesMoved_only (c : Nat) : Only [.regs, .tab] (biasesMoved c) :=
  .bind ((wrF_only _ _ _).sub rfl) fun _ => .bind ((addF_only _ _ _).sub rfl) fun _ => .bind ((stW_only _ _).sub rfl) fun _ =>
    .bind ((count_only _ _).sub rfl) fun _ => (setIrq_only _ _).sub rfl

theorem biasesMoved_done {s t : State} {c : Nat} (ht : Act.run (biasesMoved c) s = t) :
    t.fldOf (R.XRT_BIAS_STATE c) F.XRT_BIAS_STATE.steps_since = 0 ∧
      t.fldOf (R.XRT_BIAS_STATE c) F.XRT_BIAS_STATE.seq = (s.fldOf (R.XRT_BIAS_STATE c) F.XRT_BIAS_STATE.seq + 1) %
        2 ^ (F.XRT_BIAS_STATE.seq.hi + 1 - F.XRT_BIAS_STATE.seq.lo) ∧ t.wordAt (biasReadyKey c) = 1 := by
  have hrest : WritesOnly (· ≠ R.XRT_BIAS_STATE c) (do count (C.XRT_CNT_BIAS_UPDATES c) 1; setIrq (ctxPage c) 33) := by
    have hstate : ¬ IsCounter (R.XRT_BIAS_STATE c) := not_isCounter_regA (by decide)
    have hcounter (r : Nat) (h : IsCounter r) : r ≠ R.XRT_BIAS_STATE c := fun e => hstate (e ▸ h)
    refine .bind (count_writes (P := (· ≠ R.XRT_BIAS_STATE c)) (hcounter _ (isCounter_regA (by decide))) hcounter) fun _ =>
      setIrq_writes ?_
    simp only [ctxPage, R.XRT_BIAS_STATE, regA]
    omega
  have htab : Only [.regs] (do count (C.XRT_CNT_BIAS_UPDATES c) 1; setIrq (ctxPage c) 33) :=
    .bind (count_only _ _) fun _ => setIrq_only _ _
  subst ht
  unfold biasesMoved
  rw [run_wrF_bind, run_addF_bind, run_stW_bind, hrest.fldOf _ (by simp), hrest.fldOf _ (by simp),
    wordAt_congr ((htab.run _).2 .tab (by decide)), fldOf_upd_word, fldOf_upd_word]
  refine ⟨?_, ?_, wordAt_upd_self _ _ _⟩
  · rw [fldOf_put_ne _ _ _ _ _ (by decide) (by decide), fldOf_put_self _ _ _ _ (by decide)]
    rfl
  · rw [fldOf_put_self _ _ _ _ (by decide), fldOf_put_ne _ _ _ _ _ (by decide) (by decide)]

theorem exec_biasUpdate {s : State} {ctx : Fin 12} (h : s.up) :
    exec (.biasUpdate ctx) s = .next (Act.run (biasUpdate ctx) s) := next_run_mains h _

/-! ## A layer's biases and loads (R231) -/

/-- The biases that an update gives a layer, each with whether it met the limit. -/
def State.newBiases (s : State) (c p : Nat) (L : Layer) : List (FV × Bool) :=
  (List.range L.experts).map (fun e => newBias (fp32Val (s.fldOf (R.XRT_BIAS_CTRL c) F.XRT_BIAS_CTRL.eta))
    (fp32Val (s.fldOf (R.XRT_BIAS_LIMIT c) F.XRT_BIAS_LIMIT.limit))
    (fp32Val (leNat ((s.engBytes p 0 (L.biases + 4 * e) 4).getD [])))
    (((List.range L.experts).map (fun i => (s.loadWord p L i).1)).getD e 0 * L.experts)
    ((List.range L.experts).map (fun i => (s.loadWord p L i).1)).sum)

/-- A bias as it stands in memory. -/
def biasBytes (b : FV × Bool) : List Byte := leBytes 4 (fp32Code b.1)

theorem length_biasBytes (b : FV × Bool) : (biasBytes b).length = 4 := length_leBytes 4 _

/-- A load table word whose load starts again, with its pending count. -/
def State.loadAnew (s : State) (p : Nat) (L : Layer) (e : Nat) : List Byte := leBytes 4 0 ++ leBytes 4 (s.loadWord p L e).2

theorem length_loadAnew (s : State) (p : Nat) (L : Layer) (e : Nat) : (s.loadAnew p L e).length = 8 := by
  simp [State.loadAnew]

/-- A partition that holds the load table has each of its words written. -/
theorem runs_putLoads {c p : Nat} {L : Layer} {s : State} {n : Nat} :
    ∀ (a : Nat) (t : State), (∀ e, a ≤ e → e < a + n → HubHolds t p (L.loads + 8 * e) 8) →
      ∃ u, Runs (forIn (List.range' a n) PUnit.unit fun e _ => do
          putLoad c p L e 0 (s.loadWord p L e).2
          pure (ForInStep.yield PUnit.unit)) t PUnit.unit u ∧ SameBut [.mem] t u ∧
        Wrote t u (2 ^ 36 + L.loads + 8 * a) ((List.range' a n).flatMap (s.loadAnew p L)) := by
  induction n with
  | zero => exact fun a t _ => ⟨t, Runs.pure _ _, SameBut.refl _ _, Wrote.refl _ _⟩
  | succ n ih =>
    intro a t h
    obtain ⟨u, hrun, hsame, hwrote⟩ := runs_spWrite_hub (hubSrc (c / 3) 2) p (L.loads + 8 * a) (s.loadAnew p L a)
      (h a le_rfl (by omega))
    obtain ⟨v, hruns, hsames, hwrotes⟩ := ih (a + 1) u fun e h1 h2 => (h e (by omega) (by omega)).congr (hsame.2 .tab (by decide))
    have hput : Runs (putLoad c p L a 0 (s.loadWord p L a).2) t () u := hrun.bind (Runs.pure _ _)
    refine ⟨v, ?_, hsame.trans hsames, ?_⟩
    · rw [List.range'_succ, List.forIn_cons]
      exact (hput.bind (Runs.pure _ _)).bind hruns
    · rw [List.range'_succ, List.flatMap_cons]
      refine Wrote.append (t := u) ?_ ?_
      · rw [Nat.add_assoc]
        exact hwrote
      · exact hwrotes

/-- The update of a layer in memory that the partition holds: the biases, then the load table, then nothing more of hub SRAM
beyond the violation log. -/
theorem run_biasLayer {c p : Nat} {L : Layer} {s : State} (hb : HubHolds s p L.biases (4 * L.experts))
    (hl : HubHolds s p L.loads (8 * L.experts)) : ∃ t u,
      Wrote s t (2 ^ 36 + L.biases) ((s.newBiases c p L).flatMap biasBytes) ∧
      Wrote t u (2 ^ 36 + L.loads) ((List.range L.experts).flatMap (s.loadAnew p L)) ∧
      ∀ k, pastLog ≤ k → (Act.run (biasLayer c p L) s).byteAt k = u.byteAt k := by
  have hlen : ((s.newBiases c p L).flatMap biasBytes).length = 4 * L.experts := by
    rw [length_flatMap_const length_biasBytes]
    simp [State.newBiases]
  obtain ⟨t, hrun, hsame, hwrote⟩ := runs_spWrite_hub (hubSrc (c / 3) 2) p L.biases ((s.newBiases c p L).flatMap biasBytes)
    (by rw [hlen]; exact hb)
  obtain ⟨u, hruns, -, hwrotes⟩ := runs_putLoads (c := c) (p := p) (L := L) (s := s) (n := L.experts) 0 t fun e _ he =>
    HubHolds.congr (hl.part (by decide) (Nat.le_add_right _ _) (by omega)) (hsame.2 .tab (by decide))
  rw [← List.range_eq_range'] at hruns hwrotes
  refine ⟨t, u, hwrote, hwrotes, fun k hk => ?_⟩
  have hrest : KeepsByte k (do
      count (C.XRT_CNT_BIAS_CLAMP c) ((s.newBiases c p L).filter (·.2)).length
      routerWrite (c / 3) c p L.biasDst ((s.newBiases c p L).flatMap biasBytes)) :=
    .bind (KeepsByte.of_only (count_only _ _) (by decide)) fun _ => KeepsByte.routerWrite hk
  have hwhole : Act.run (biasLayer c p L) s = Act.run (do
      count (C.XRT_CNT_BIAS_CLAMP c) ((s.newBiases c p L).filter (·.2)).length
      routerWrite (c / 3) c p L.biasDst ((s.newBiases c p L).flatMap biasBytes)) u :=
    (run_bind_of_runs s hrun _).trans (run_bind_of_runs t hruns _)
  rw [hwhole]
  exact hrest.run u

/-- Where the partition holds the layer's biases, the bias that an update gives an expert. -/
theorem newBiases_getElem {c p e : Nat} {L : Layer} {s : State} (hb : HubHolds s p L.biases (4 * L.experts)) (he : e < L.experts)
    (h : e < (s.newBiases c p L).length) : (s.newBiases c p L)[e] =
      newBias (fp32Val (s.fldOf (R.XRT_BIAS_CTRL c) F.XRT_BIAS_CTRL.eta))
        (fp32Val (s.fldOf (R.XRT_BIAS_LIMIT c) F.XRT_BIAS_LIMIT.limit)) (fp32Val (leNat (s.hubAt (L.biases + 4 * e) 4)))
        ((s.loadWord p L e).1 * L.experts) ((List.range L.experts).map (fun i => (s.loadWord p L i).1)).sum := by
  have hread := engBytes_hub (hb.part (b := L.biases + 4 * e) (m := 4) (by decide) (Nat.le_add_right _ _) (by omega))
  simp [State.newBiases, hread, he]

/-- One expert of a layer after the update: its bias moved, its load at 0, its pending count as it was. -/
theorem biasLayer_expert {c p e : Nat} {L : Layer} {s t : State} (hb : HubHolds s p L.biases (4 * L.experts))
    (hl : HubHolds s p L.loads (8 * L.experts)) (hd : overlaps (L.biases, 4 * L.experts) (L.loads, 8 * L.experts) = false)
    (hb15 : 2 ^ 15 ≤ L.biases) (hl15 : 2 ^ 15 ≤ L.loads) (ht : t = Act.run (biasLayer c p L) s) (he : e < L.experts) :
    t.hubAt (L.loads + 8 * e) 8 = s.loadAnew p L e ∧
      ∀ h : e < (s.newBiases c p L).length, t.hubAt (L.biases + 4 * e) 4 = biasBytes (s.newBiases c p L)[e] := by
  obtain ⟨u, v, hbias, hload, hkeep⟩ := run_biasLayer (c := c) hb hl
  have hpast {a n : Nat} (ha : 2 ^ 15 ≤ a) : t.hubAt a n = v.memBytes (2 ^ 36 + a) n := List.map_congr_left fun j _ =>
    ht ▸ hkeep _ (by unfold pastLog; omega)
  refine ⟨?_, fun h => ?_⟩
  · rw [hpast (by omega), ← Nat.add_assoc, hload.entry (length_loadAnew s p L) (by simpa using he), List.getElem_range]
  · have hlen := length_flatMap_const (length_loadAnew s p L) (List.range L.experts)
    rw [List.length_range] at hlen
    rw [overlaps, decide_eq_false_iff_not] at hd
    rw [hpast (by omega), hload.memBytes_apart (by omega), ← Nat.add_assoc, hbias.entry length_biasBytes h]

/-! ## BIAS_READY_WRITE (R232) -/

theorem run_biasReady {s : State} {c p : Nat} (hp : s.ctxPart c = some p) (hr : (s.wordAt (biasReadyKey c)).toNat ≠ 0) :
    Act.run (biasReady c) s = Act.run (routerWrite (c / 3) c p (s.fldOf (R.XRT_BIAS_READY c) F.XRT_BIAS_READY.offset * 8)
      (leBytes 8 (s.fldOf (R.XRT_BIAS_STATE c) F.XRT_BIAS_STATE.seq))) ((Upd.word (biasReadyKey c) 0).apply s) := by
  unfold biasReady
  rw [run_get_bind]
  simp only [hp, hr, if_false]
  rfl

theorem exec_biasReadyWrite {s : State} {ctx : Fin 12} (h : s.clear) :
    exec (.biasReadyWrite ctx) s = .next (Act.run (biasReady ctx) s) :=
  (next_run_mains h.1 _).trans (congrArg _ (run_served _ h.2))

/-- Settles O26 (it holds): an engine starts and ends a request, an update that is due moves every layer of its context, and
`seq` follows the biases. -/
theorem placesAndBiases : Obligations.PlacesAndBiases := by
  unfold Obligations.PlacesAndBiases
  refine ⟨?_, ?_, ?_, ?_, ?_⟩
  · rintro s u hub c p q hserves hbusy hpage hfirst rfl
    rw [exec_placeRequest hserves, run_placeRequest hbusy hpage hfirst]
    rfl
  · intro s hub c p page off hserves hbusy hc _ hp hplace
    have hwrite := (tileWrite_only page off (leBytes 8 (s.wordAt (placeSigKey hub 1)).toNat)).run s
    refine ⟨_, (exec_placeSignal hserves).trans (congrArg _ (run_placeSignal hbusy hc hp hplace)), ?_⟩
    obtain ⟨hfree, hdone, hsame⟩ := placeEnd_done (h := hub) (c := c) (s := Act.run (tileWrite page off _) s) rfl
    refine ⟨hfree, ?_, ?_, (hwrite.mono (by decide)).trans (hsame.mono (by decide))⟩
    · rw [hdone, State.placeDone, fldOf_congr (hwrite.2 .regs (by decide))]
      rfl
    · exact Wrote.congr (wrote_tileWrite page off _ s) rfl (hsame.2 .mem (by decide))
  · intro s ctx p hup hp hdue
    have hlayers := updateLayers_only s ctx p
    refine ⟨_, (exec_biasUpdate hup).trans (congrArg _ (run_biasUpdate hp hdue)), ?_⟩
    refine ⟨rfl, ?_⟩
    rw [hlayers.run_bind]
    obtain ⟨hsteps, hseq, hready⟩ := biasesMoved_done (c := ctx) (s := Act.run (updateLayers s ctx p) s) rfl
    rw [updateLayers_offLing.fldOf s (not_offLing_biasState ctx)] at hseq
    exact ⟨hsteps, hseq, hready, (hlayers.run s).trans (((biasesMoved_only ctx).run _).mono (by decide))⟩
  · rintro s t ctx p e sum L b hb hl hd hb15 hl15 ht he rfl rfl
    obtain ⟨hload, hbias⟩ := biasLayer_expert hb hl hd hb15 hl15 ht he
    have hlen : e < (s.newBiases ctx p L).length := by simpa [State.newBiases] using he
    exact ⟨by rw [hbias hlen, newBiases_getElem hb he]; rfl, hload⟩
  · intro s ctx p hclear hp hr
    rw [exec_biasReadyWrite hclear, run_biasReady hp hr]

end Sys2Proof.Machine
end

section
/-! # The states of the GDDR7 sites (R245, R266) -/

namespace Sys2Proof.Machine

/-! ## Registers apart -/

/-- Registers at different offsets of their pages are different. -/
theorem regA_ne_of_off {b c : Block} {p q m n : Nat} (h : m ≠ n ∧ m < 0x1000 ∧ n < 0x1000) : regA b p m ≠ regA c q n := by
  have hb := pageBase_aligned b p
  have hc := pageBase_aligned c q
  unfold regA
  omega

theorem fldOf_upd_off {b c : Block} {p q m n : Nat} (h : m ≠ n ∧ m < 0x1000 ∧ n < 0x1000) (s : State) (v : Word) (f : Fld) :
    ((Upd.reg (regA c q n) v).apply s).fldOf (regA b p m) f = s.fldOf (regA b p m) f :=
  fldOf_upd_ne _ _ _ _ _ (regA_ne_of_off h)

theorem siteStateReg_inj {m n : Nat} : R.GDC_SITE_STATE m = R.GDC_SITE_STATE n ↔ m = n := by
  simp only [R.GDC_SITE_STATE, regA, pageBase]
  omega

/-! ## A site takes a state -/

/-- The state with a site in a state of R266. -/
def State.withSite (s : State) (k st : Nat) : State :=
  (Upd.reg (R.GDC_SITE_STATE k) (putFld (s.reg (R.GDC_SITE_STATE k)) F.GDC_SITE_STATE.state st)).apply s

theorem run_setSiteState (k st : Nat) (s : State) : Act.run (setSiteState k st) s = s.withSite k st := rfl

theorem run_setSiteState_bind (k st : Nat) (f : Unit → Act Unit) (s : State) :
    Act.run (setSiteState k st >>= f) s = Act.run (f ()) (s.withSite k st) := rfl

theorem run_modMig (f : MigX → MigX) (s : State) : Act.run (modMig f) s = (Upd.mig (f s.mig)).apply s := rfl

theorem run_modMig_bind (f : MigX → MigX) (g : Unit → Act Unit) (s : State) :
    Act.run (modMig f >>= g) s = Act.run (g ()) ((Upd.mig (f s.mig)).apply s) := rfl

theorem siteState_withSite (s : State) (k n : Nat) {st : Nat} (h : st < 16) :
    (s.withSite k st).siteState n = if n = k then st else s.siteState n := by
  unfold State.siteState State.withSite
  split
  · next hn => rw [hn, fldOf_put_self _ _ _ _ (by decide)]; exact Nat.mod_eq_of_lt h
  · next hn => exact fldOf_upd_ne _ _ _ _ _ (siteStateReg_inj.not.2 hn)

/-- Every register but the sites' states stays where a site takes a state. -/
theorem fldOf_withSite {b : Block} {p off : Nat} (h : off ≠ 0x108 ∧ off < 0x1000) (s : State) (k st : Nat) (f : Fld) :
    (s.withSite k st).fldOf (regA b p off) f = s.fldOf (regA b p off) f :=
  fldOf_upd_off ⟨h.1, h.2, by decide⟩ s _ f

/-- The states of the sites stay where another register is written. -/
theorem siteState_upd_off {b : Block} {p off : Nat} (h : off ≠ 0x108 ∧ off < 0x1000) (s : State) (v : Word) (n : Nat) :
    ((Upd.reg (regA b p off) v).apply s).siteState n = s.siteState n :=
  fldOf_upd_off ⟨h.1.symm, by decide, h.2⟩ s v _

theorem siteState_upd_mig (s : State) (m : MigX) (n : Nat) : ((Upd.mig m).apply s).siteState n = s.siteState n := rfl

@[simp] theorem mig_withSite (s : State) (k st : Nat) : (s.withSite k st).mig = s.mig := rfl

end Sys2Proof.Machine
end

section
/-! # Live migration (R261, R263) -/

namespace Sys2Proof.Machine

/-! ## The start, the abort, the last unit -/

/-- A migration that starts: both sites MIGRATING, the copy at unit 0, and no cover (R261). -/
theorem migStart_done {site : Nat} {s t : State} (ht : Act.run (migStart site) s = t) :
    t.mig = { s.mig with src := some site, cutover := false, coverMarks := [], since := s.now } ∧
      t.siteState site = 4 ∧ t.siteState 16 = 4 ∧ t.fldOf (R.GDC_MIG_STATUS site) F.GDC_MIG_STATUS.state = 1 ∧
      t.fldOf (R.GDC_MIG_STATUS site) F.GDC_MIG_STATUS.pointer = 0 ∧
      t.fldOf R.GDC_COVER_STATUS F.GDC_COVER_STATUS.state = 3 := by
  subst ht
  simp only [migStart, run_rd_bind, run_modMig_bind, run_wrF_bind, run_setSiteState_bind, run_setSiteState]
  refine ⟨rfl, ?_, ?_, ?_, ?_, ?_⟩
  · simp [siteState_withSite]
  · simp [siteState_withSite]
  · exact (fldOf_withSite (by decide) ..).trans ((fldOf_withSite (by decide) ..).trans
      ((fldOf_put_ne _ _ _ _ _ (by decide) (by decide)).trans (fldOf_put_self _ _ _ _ (by decide))))
  · exact (fldOf_withSite (by decide) ..).trans ((fldOf_withSite (by decide) ..).trans (fldOf_put_self _ _ _ _ (by decide)))
  · exact (fldOf_withSite (by decide) ..).trans ((fldOf_withSite (by decide) ..).trans
      ((fldOf_upd_off (by decide) ..).trans ((fldOf_upd_off (by decide) ..).trans (fldOf_put_self _ _ _ _ (by decide)))))

/-- The copy of a site has ended, and site 16 is in a state again (R263). -/
def State.migEnded (s : State) (site st16 : Nat) : State :=
  ((Upd.reg (R.GDC_MIG_STATUS site) (putFld (s.reg (R.GDC_MIG_STATUS site)) F.GDC_MIG_STATUS.state 0)).apply
    ((Upd.mig { s.mig with src := none, cutover := false }).apply s)).withSite 16 st16

theorem run_migEnd_bind (site st16 : Nat) (f : Unit → Act Unit) (s : State) :
    Act.run (migEnd site st16 >>= f) s = Act.run (f ()) (s.migEnded site st16) := rfl

theorem run_migEnd (site st16 : Nat) (s : State) : Act.run (migEnd site st16) s = s.migEnded site st16 := rfl

theorem siteState_migEnded (s : State) (site n : Nat) {st16 : Nat} (h : st16 < 16) :
    (s.migEnded site st16).siteState n = if n = 16 then st16 else s.siteState n := by
  unfold State.migEnded R.GDC_MIG_STATUS
  rw [siteState_withSite _ _ _ h, siteState_upd_off (by decide), siteState_upd_mig]

theorem run_migAbort {site : Nat} {s : State} (hsrc : s.mig.src = some site)
    (hcopy : s.fldOf (R.GDC_MIG_STATUS site) F.GDC_MIG_STATUS.state = 1) :
    Act.run (migAbort site) s = (s.migEnded site 5).withSite site 2 := by
  unfold migAbort
  rw [run_get_bind, if_pos ⟨hsrc, hcopy⟩]
  rfl

/-- A copy that is aborted: site 16 FALLOW, its source serving, the copy idle (R263). -/
theorem migAbort_done {site : Nat} {s t : State} (hne : site ≠ 16) (ht : (s.migEnded site 5).withSite site 2 = t) :
    t.mig.src = none ∧ t.siteState 16 = 5 ∧ t.siteState site = 2 ∧
      t.fldOf (R.GDC_MIG_STATUS site) F.GDC_MIG_STATUS.state = 0 := by
  subst ht
  refine ⟨rfl, ?_, ?_, ?_⟩
  · rw [siteState_withSite _ _ _ (by decide), if_neg hne.symm, siteState_migEnded _ _ _ (by decide), if_pos rfl]
  · rw [siteState_withSite _ _ _ (by decide), if_pos rfl]
  · exact (fldOf_withSite (by decide) ..).trans ((fldOf_withSite (by decide) ..).trans (fldOf_put_self _ _ _ _ (by decide)))

theorem run_migCopyDone {site : Nat} {s : State} (hsrc : s.mig.src = some site)
    (hcopy : s.fldOf (R.GDC_MIG_STATUS site) F.GDC_MIG_STATUS.state = 1) : Act.run migCopyDone s = Act.run (do
      copyUnits site (s.migPointer site) (s.siteUnits site)
      wrF (R.GDC_MIG_STATUS site) F.GDC_MIG_STATUS.state 2
      modMig (fun m => { m with cutover := true })) s := by
  unfold migCopyDone
  rw [run_get_bind]
  simp only [hsrc, hcopy, if_true]

/-- The last unit is copied, and the change of position waits for the tick edge (R263). -/
theorem migCopyDone_done {site : Nat} {s t : State} (hsrc : s.mig.src = some site)
    (hcopy : s.fldOf (R.GDC_MIG_STATUS site) F.GDC_MIG_STATUS.state = 1) (ht : Act.run migCopyDone s = t) :
    t.mig = { s.mig with cutover := true } ∧ t.fldOf (R.GDC_MIG_STATUS site) F.GDC_MIG_STATUS.state = 2 := by
  have hunits := copyUnits_only site (s.migPointer site) (s.siteUnits site)
  have hmig := (hunits.run s).2 .mig (by decide)
  rw [run_migCopyDone hsrc hcopy, hunits.run_bind, run_wrF_bind, run_modMig] at ht
  subst ht
  exact ⟨congrArg (fun m : MigX => { m with cutover := true }) hmig, fldOf_put_self _ _ _ _ (by decide)⟩

/-! ## A write of GDC_MIG_CTRL -/

/-- What an accepted write of GDC_MIG_CTRL orders (R261, R263). -/
def migOrder (p : Nat) (v : Word) : Act Unit :=
  if getFld v F.GDC_MIG_CTRL.start = 1 then migStart p
  else if getFld v F.GDC_MIG_CTRL.abort = 1 then migAbort p
  else pure ()

theorem migOrder_only (p : Nat) (v : Word) : Only [.regs, .mig] (migOrder p v) :=
  .ite (migStart_only p) (.ite (migAbort_only p) (.pure _ _))

theorem migCtrl_plain : ∀ p < 17, (rowOf (R.GDC_MIG_CTRL p)).any (fun r => !r.staged) = true := by
  decide +kernel

/-- A field of GDC_MIG_CTRL is put, and no other register changes. -/
theorem runs_wrF_kept {a : Nat} {f : Fld} {n : Nat} {s u : State} (hs : SameBut [.regs] s u) (hr : RegsBut [a] s u) :
    ∃ t, Runs (wrF a f n) u () t ∧ SameBut [.regs] s t ∧ RegsBut [a] s t :=
  ⟨_, (Runs.rd _ u).bind (Runs.upd _ u), hs.trans (SameBut.upd _ _ rfl), hr.trans (regsBut_upd_reg _ _ _)⟩

/-- A write that is not refused stores its value, clears the two orders in it, and carries out the one that it gives. -/
theorem runs_gdcWrite_mig {p : Nat} {v : Word} {s : State} (hp : p < 17)
    (h : getFld v F.GDC_MIG_CTRL.start = 1 → s.migRefused p = false) : ∃ u, SameBut [.regs] s u ∧
      RegsBut [R.GDC_MIG_CTRL p] s u ∧ Runs (gdcWrite p 0x130 v) s none (Act.run (migOrder p v) u) := by
  obtain ⟨r, hrow, hst⟩ := (Option.any_eq_true _ _).1 (migCtrl_plain p hp)
  have hstore := runs_storeReg hrow (by simpa using hst) v s
  obtain ⟨t, hstart, hs, hr⟩ := runs_wrF_kept (f := F.GDC_MIG_CTRL.start) (n := 0) (SameBut.upd _ s rfl)
    (regsBut_upd_reg (R.GDC_MIG_CTRL p) (r.written (s.reg (R.GDC_MIG_CTRL p)) v true) s)
  obtain ⟨u, habort, hs, hr⟩ := runs_wrF_kept (f := F.GDC_MIG_CTRL.abort) (n := 0) hs hr
  have hallowed : ¬ (getFld v F.GDC_MIG_CTRL.start = 1 ∧ s.migRefused p = true) := fun ⟨h1, h2⟩ =>
    Bool.false_ne_true ((h h1).symm.trans h2)
  refine ⟨u, hs, hr, ?_⟩
  unfold gdcWrite migOrder
  refine (Runs.get s).bind ?_
  dsimp only
  rw [if_pos hp, if_neg hallowed]
  refine hstore.bind (hstart.bind (habort.bind ?_))
  by_cases h1 : getFld v F.GDC_MIG_CTRL.start = 1
  · rw [if_pos h1, if_pos h1]
    exact ((migStart_only p).runs u).bind (Runs.pure _ _)
  · rw [if_neg h1, if_neg h1]
    by_cases h2 : getFld v F.GDC_MIG_CTRL.abort = 1
    · rw [if_pos h2, if_pos h2]
      exact ((migAbort_only p).runs u).bind (Runs.pure _ _)
    · rw [if_neg h2, if_neg h2]
      exact Runs.pure _ _

/-- An accepted write of GDC_MIG_CTRL carries out the order that it gives, on the state that has stored it. -/
theorem migCtrlWrite_accepted {core p : Nat} {v : Word} {s : State} (hp : p < 17)
    (h : getFld v F.GDC_MIG_CTRL.start = 1 → s.migRefused p = false) (ha : Admits s core (R.GDC_MIG_CTRL p) v) :
    ∃ u, SameBut [.regs] s u ∧ RegsBut [R.GDC_MIG_CTRL p] s u ∧
      Answered (Act.run (migOrder p v) u) (Act.run (busWriteX {} core (R.GDC_MIG_CTRL p) 8 v) s) := by
  obtain ⟨u, hs, hr, hrun⟩ := runs_gdcWrite_mig hp h
  exact ⟨u, hs, hr, answered_busWriteX_block (by show p < 34; omega) (by decide) (by decide) ha fun _ => hrun⟩

/-- Beside the order's own fields, such a write changes no more than the answer and what a milestone changes. -/
theorem Answered.sameBut_migOrder {p : Nat} {v : Word} {s u t : State} (h : Answered (Act.run (migOrder p v) u) t)
    (hs : SameBut [.regs] s u) : SameBut [.regs, .mig, .resp, .land, .sent] s t :=
  h.sameBut_of ((hs.mono (by decide)).trans ((migOrder_only p v).run u))

/-! ## The commands -/

theorem exec_migStart (core : CoreId) (site : Fin 17) (s : State) : exec (.migStart core site) s =
    .next (Act.run (busWriteX {} core (R.GDC_MIG_CTRL site) 8 (putFld (s.reg (R.GDC_MIG_CTRL site)) F.GDC_MIG_CTRL.start 1)) s) :=
  rfl

theorem exec_migAbort (core : CoreId) (site : Fin 17) (s : State) : exec (.migAbort core site) s =
    .next (Act.run (busWriteX {} core (R.GDC_MIG_CTRL site) 8 (putFld (s.reg (R.GDC_MIG_CTRL site)) F.GDC_MIG_CTRL.abort 1)) s) :=
  rfl

theorem exec_migCopyDone {s : State} (h : s.up) : exec .migCopyDone s = .next (Act.run migCopyDone s) := next_run_mains h _

theorem migOrder_start {p : Nat} {w : Word} : migOrder p (putFld w F.GDC_MIG_CTRL.start 1) = migStart p :=
  if_pos (getFld_putFld_self _ _ _ (by decide) (by decide))

theorem migOrder_abort {p : Nat} {w : Word} (h : getFld w F.GDC_MIG_CTRL.start = 0) :
    migOrder p (putFld w F.GDC_MIG_CTRL.abort 1) = migAbort p := by
  have hstart : getFld (putFld w F.GDC_MIG_CTRL.abort 1) F.GDC_MIG_CTRL.start = 0 :=
    (getFld_putFld_ne _ _ _ _ (by decide) (by decide) (by decide)).trans h
  have habort : getFld (putFld w F.GDC_MIG_CTRL.abort 1) F.GDC_MIG_CTRL.abort = 1 :=
    getFld_putFld_self _ _ _ (by decide) (by decide)
  rw [migOrder, hstart, if_neg (by decide), if_pos habort]

theorem Answered.mig {t u : State} (h : Answered t u) : u.mig = t.mig := h.1.2 .mig (by decide)

theorem Answered.siteState {t u : State} (h : Answered t u) (n : Nat) : u.siteState n = t.siteState n := h.fldOf _ _

/-- Settles O30 (it holds): an accepted start or abort of GDC_MIG_CTRL does its work on the state that has stored the write,
and the last unit's copy leaves the cut-over staged. -/
theorem siteMigrates : Obligations.SiteMigrates := by
  unfold Obligations.SiteMigrates
  refine ⟨fun s core site hallowed ha => ?_, fun s core site hsrc hne hcopy hstart ha => ?_, fun s site hup hsrc _ hcopy => ?_⟩
  · obtain ⟨u, hs, hr, hdone⟩ := migCtrlWrite_accepted site.isLt (fun _ => hallowed) ha
    have hsame := hdone.sameBut_migOrder hs
    rw [migOrder_start] at hdone
    obtain ⟨hmig, hsite, h16, hstate, hpointer, hcover⟩ := migStart_done (site := site.val) (s := u) rfl
    have hnow : u.now = s.now := congrArg BitVec.toNat (hr _ (by simp [R.TIM_NOW, R.GDC_MIG_CTRL, regA_ne_of_off]))
    refine ⟨_, exec_migStart core site s, hdone.2, ?_, (hdone.siteState _).trans hsite, (hdone.siteState _).trans h16,
      (hdone.fldOf _ _).trans hstate, (hdone.fldOf _ _).trans hpointer, (hdone.fldOf _ _).trans hcover, hsame⟩
    rw [hdone.mig, hmig, hnow, hs.2 .mig (by decide)]
  · have hnotStart : getFld (putFld (s.reg (R.GDC_MIG_CTRL site)) F.GDC_MIG_CTRL.abort 1) F.GDC_MIG_CTRL.start ≠ 1 := by
      rw [getFld_putFld_ne _ _ _ _ (by decide) (by decide) (by decide)]
      exact ne_of_eq_of_ne hstart (by decide)
    obtain ⟨u, hs, hr, hdone⟩ := migCtrlWrite_accepted site.isLt (fun h => absurd h hnotStart) ha
    have hsame := hdone.sameBut_migOrder hs
    have hsrc' : u.mig.src = some site.val := (congrArg MigX.src (hs.2 .mig (by decide))).trans hsrc
    have hcopy' : u.fldOf (R.GDC_MIG_STATUS site) F.GDC_MIG_STATUS.state = 1 :=
      (hr.fldOf (by simp [R.GDC_MIG_STATUS, R.GDC_MIG_CTRL, regA_ne_of_off]) _).trans hcopy
    rw [migOrder_abort hstart, run_migAbort hsrc' hcopy'] at hdone
    obtain ⟨hmig, h16, hsite, hidle⟩ := migAbort_done (s := u) (site := site.val) (by omega) rfl
    exact ⟨_, exec_migAbort core site s, hdone.2, (congrArg MigX.src hdone.mig).trans hmig, (hdone.siteState _).trans h16,
      (hdone.siteState _).trans hsite, (hdone.fldOf _ _).trans hidle, hsame⟩
  · obtain ⟨hmig, hstate⟩ := migCopyDone_done hsrc hcopy rfl
    exact ⟨_, exec_migCopyDone hup, hmig, hstate, migCopyDone_only.run s⟩

end Sys2Proof.Machine
end

section
/-! # Sites that are watched (R247, R258, R260, R449) -/

namespace Sys2Proof.Machine

/-! ## A site is lost (R263, R449) -/

/-- The lost site is FAILED and of no position. -/
def State.siteGone (s : State) (site : Nat) : State :=
  (Upd.reg (R.GDC_SITE_CFG site) (putFld ((s.withSite site 7).reg (R.GDC_SITE_CFG site)) F.GDC_SITE_CFG.role 0)).apply
    (s.withSite site 7)

/-- What the loss does to a copy that the site takes part in, before its CUTOVER (R263). -/
def copyLost (s : State) (site : Nat) : Act Unit := match s.mig.src with
  | some m =>
    if s.mig.cutover then pure ()
    else if m = site then migEnd m 5
    else if site = 16 then do
      migEnd m 7
      setSiteState m 2
    else pure ()
  | none => pure ()

/-- What the loss of site 16 does to a cover that it held. -/
def coverLost (s : State) (site : Nat) : Act Unit :=
  if site = 16 ∧ s.fldOf R.GDC_COVER_STATUS F.GDC_COVER_STATUS.state ≠ 0 then wrF R.GDC_COVER_STATUS F.GDC_COVER_STATUS.state 3
  else pure ()

theorem copyLost_only (s : State) (site : Nat) : Only [.regs, .mig] (copyLost s site) := by
  unfold copyLost
  split
  · exact .ite (.pure _ _) (.ite (migEnd_only _ _) (.ite (.bind (migEnd_only _ _) fun _ => (setSiteState_only _ _).sub rfl)
      (.pure _ _)))
  · exact .pure _ _

theorem run_siteFail (site : Nat) (s : State) : Act.run (siteFail site) s =
    Act.run (coverLost s site) (Act.run (copyLost s site) (s.siteGone site)) := by
  rw [← (copyLost_only s site).run_bind (fun _ => coverLost s site)]
  unfold siteFail copyLost
  rw [run_get_bind, run_setSiteState_bind, run_wrF_bind]
  cases s.mig.src with
  | none => rfl
  | some m =>
    cases s.mig.cutover with
    | true => rfl
    | false =>
      simp only [Bool.not_false, if_true, Bool.false_eq_true, if_false]
      split
      · rfl
      · split <;> rfl

theorem siteState_siteGone (s : State) (site : Nat) : (s.siteGone site).siteState site = 7 := by
  unfold State.siteGone R.GDC_SITE_CFG
  rw [siteState_upd_off (by decide), siteState_withSite _ _ _ (by decide), if_pos rfl]

/-- No copy from site 16 runs, so what becomes of a copy leaves the lost site FAILED. -/
theorem siteState_copyLost {s u : State} {site : Nat} (h16 : s.mig.src ≠ some 16) (hu : u.siteState site = 7) :
    (Act.run (copyLost s site) u).siteState site = 7 := by
  unfold copyLost
  split
  · next m hm =>
    have hm16 : m ≠ 16 := fun e => h16 (e ▸ hm)
    simp only [run_ite]
    split
    · exact hu
    · split
      · next hsite => rw [run_migEnd, siteState_migEnded _ _ _ (by decide), if_neg (hsite ▸ hm16), hu]
      · split
        · next hsite =>
          rw [run_migEnd_bind, run_setSiteState, siteState_withSite _ _ _ (by decide), hsite, if_neg hm16.symm,
            siteState_migEnded _ _ _ (by decide), if_pos rfl]
        · exact hu
  · exact hu

theorem copyLost_writes {P : Nat → Prop} (s : State) (site : Nat) (hs : ∀ n, P (R.GDC_SITE_STATE n))
    (hm : ∀ n, P (R.GDC_MIG_STATUS n)) : WritesOnly P (copyLost s site) := by
  have state {n st : Nat} : WritesOnly P (setSiteState n st) := wrF_writes (hs n)
  have ended {n st : Nat} : WritesOnly P (migEnd n st) :=
    .bind (.of_only (modMig_only _) (by decide)) fun _ => .bind (wrF_writes (hm n)) fun _ => state
  unfold copyLost
  split
  · exact .ite .pure (.ite ended (.ite (.bind ended fun _ => state) .pure))
  · exact .pure

theorem coverLost_writes (s : State) (site : Nat) : WritesOnly (· = R.GDC_COVER_STATUS) (coverLost s site) :=
  .ite (wrF_writes (P := (· = R.GDC_COVER_STATUS)) rfl) .pure

theorem coverLost_only (s : State) (site : Nat) : Only [.regs] (coverLost s site) := .ite (wrF_only _ _ _) (.pure _ _)

/-- A copy from the lost site, before its CUTOVER, has ended. -/
theorem mig_copyLost {s u : State} {site : Nat} (hsrc : s.mig.src = some site) (hcut : s.mig.cutover = false) :
    (Act.run (copyLost s site) u).mig.src = none := by
  unfold copyLost
  simp only [hsrc, hcut, Bool.false_eq_true, if_false, if_true]
  rfl

theorem siteFail_done {site : Nat} {s t : State} (h16 : s.mig.src ≠ some 16) (ht : Act.run (siteFail site) s = t) :
    t.siteState site = 7 ∧ t.fldOf (R.GDC_SITE_CFG site) F.GDC_SITE_CFG.role = 0 ∧
      (s.mig.src = some site → s.mig.cutover = false → t.mig.src = none) := by
  have hcover := coverLost_writes s site
  rw [run_siteFail] at ht
  subst ht
  refine ⟨?_, ?_, fun hsrc hcut => ?_⟩
  · exact (hcover.fldOf _ (regA_ne_of_off (by decide)) _).trans (siteState_copyLost h16 (siteState_siteGone s site))
  · have hcopy := copyLost_writes (P := (· ≠ R.GDC_SITE_CFG site)) s site (fun _ => regA_ne_of_off (by decide))
      fun _ => regA_ne_of_off (by decide)
    refine (hcover.fldOf _ (regA_ne_of_off (by decide)) _).trans ((hcopy.fldOf _ (not_not.2 rfl) _).trans ?_)
    exact fldOf_put_self _ _ _ _ (by decide)
  · rw [((coverLost_only s site).run _).2 .mig (by decide)]
    exact mig_copyLost hsrc hcut

/-! ## Scrub (R247) -/

/-- Where the lanes of a stripe do not agree. -/
def State.laneMismatch (s : State) (site stripe : Nat) : Bool := (List.range 64).any (fun i =>
  (List.range 4).foldl (fun b c => b ^^^ s.devByte site c (stripe * 64 + i)) (0 : Byte) ≠ 0)

/-- The record of a stripe whose lanes do not agree; the scrub does not say which lane is at fault. -/
def scrubRecord (site stripe : Nat) : Act Unit := do
  eccLast site 3 (← freshBelow 4) (3 * stripe + (← freshBelow 3))
  setPageFault (pageBase .gdc site)
  count (C.GDC_CNT_SCRUB_MISMATCH site) 1

/-- The scrub reads a stripe of a site that is on, outside its window and without a failed channel. -/
theorem run_scrubStripe {s : State} {site stripe : Nat} {err odd : Bool}
    (hon : s.fldOf (R.GDC_SCRUB_CTRL site) F.GDC_SCRUB_CTRL.period_h ≠ 0) (hstate : s.siteState site ∈ [2, 4, 5, 6])
    (hgood : s.fldOf (R.GDC_SITE_STATE site) F.GDC_SITE_STATE.failed_channels = 0)
    (hodd : odd = s.laneMismatch site stripe) : Act.run (scrubStripe site stripe err) s =
      Act.run (if (odd && !err) = true then scrubRecord site stripe else pure ()) s := by
  have hserves : (!([2, 4, 5, 6] : List Nat).contains (s.siteState site)) = false := by
    rw [List.contains_iff_mem.2 hstate, Bool.not_true]
  subst hodd
  unfold scrubStripe
  rw [run_get_bind, if_neg hon, hserves, if_neg Bool.false_ne_true, if_neg (not_not.2 hgood)]
  rfl

theorem fault_scrubRecord (site stripe : Nat) (s : State) :
    (Act.run (scrubRecord site stripe) s).fldOf (pageBase .gdc site + 0x18) F.PAGE_STATUS.fault = 1 := by
  unfold scrubRecord
  obtain ⟨lane, u, -, e⟩ := run_bind_of_only s (freshBelow_only 4) _
  rw [e]
  obtain ⟨sector, v, -, e⟩ := run_bind_of_only u (freshBelow_only 3) _
  rw [e, (eccLast_only _ _ _ _).run_bind, (setPageFault_only _).run_bind]
  refine ((count_counters (isCounter_regA (by decide))).fldOf _ ?_ _).trans (fldOf_setPageFault _ _)
  exact not_isCounter_regA (off := 0x18) (by decide)

/-! ## Retraining due (R258) -/

theorem bit_eq_testBit (n i : Nat) : bit n i = n.testBit i := by
  rw [Nat.testBit_eq_decide_div_mod_eq]
  rfl

/-- A bit that is set in a word reads 1. -/
theorem bit_orBit {n i : Nat} (hi : i < 64) : bit (BitVec.ofNat 64 (orBit n i)).toNat i = true := by
  rw [BitVec.toNat_ofNat, bit_eq_testBit, Nat.testBit_mod_two_pow, decide_eq_true hi, Bool.true_and, orBit]
  split
  · next h => rwa [bit_eq_testBit] at h
  · next h => rwa [Nat.add_comm, Nat.testBit_two_pow_add_eq, ← bit_eq_testBit, Bool.not_eq_true', ← Bool.not_eq_true]

theorem bit_setIrq (pb : Nat) {i : Nat} (hi : i < 64) (s : State) :
    bit ((Act.run (setIrq pb i) s).reg (pb + 0x40)).toNat i = true := by
  have e : (Act.run (setIrq pb i) s).reg (pb + 0x40) = BitVec.ofNat 64 (orBit (s.reg (pb + 0x40)).toNat i) := reg_upd_self ..
  rw [e]
  exact bit_orBit hi

/-- The site's temperature is taken. -/
def State.tempTaken (s : State) (site temp : Nat) : State :=
  (Upd.reg (R.GDC_PHY_TRAIN_STATUS site)
    (putFld (s.reg (R.GDC_PHY_TRAIN_STATUS site)) F.GDC_PHY_TRAIN_STATUS.temp_now temp)).apply s

/-- A temperature beyond the delta asks for a window. -/
def askRetrain (site : Nat) : Act Unit := do
  setIrq (pageBase .gdc (17 + site)) 32
  count (C.GDC_PHY_CNT_RETRAIN_DUE site) 1

theorem tempNow_tempTaken (s : State) (site : Nat) (temp : BitVec 8) :
    (s.tempTaken site temp.toNat).fldOf (R.GDC_PHY_TRAIN_STATUS site) F.GDC_PHY_TRAIN_STATUS.temp_now = temp.toNat :=
  (fldOf_put_self _ _ _ _ (by decide)).trans (Nat.mod_eq_of_lt temp.isLt)

/-- The temperature is compared with that of the last training, which stands beside it. -/
theorem run_retrainDue {s : State} {site : Nat} {temp : BitVec 8} {was : Nat}
    (hwas : s.fldOf (R.GDC_PHY_TRAIN_STATUS site) F.GDC_PHY_TRAIN_STATUS.temp_at_train = was) :
    Act.run (retrainDue site temp.toNat) s = Act.run
      (if s.fldOf (R.GDC_PHY_RETRAIN site) F.GDC_PHY_RETRAIN.temp_delta < max was temp.toNat - min was temp.toNat then askRetrain site
        else pure ()) (s.tempTaken site temp.toNat) := by
  have hkept : (s.tempTaken site temp.toNat).fldOf (R.GDC_PHY_TRAIN_STATUS site) F.GDC_PHY_TRAIN_STATUS.temp_at_train = was :=
    (fldOf_put_ne _ _ _ _ _ (by decide) (by decide)).trans hwas
  have hdelta : (s.tempTaken site temp.toNat).fldOf (R.GDC_PHY_RETRAIN site) F.GDC_PHY_RETRAIN.temp_delta =
      s.fldOf (R.GDC_PHY_RETRAIN site) F.GDC_PHY_RETRAIN.temp_delta := fldOf_upd_off (by decide) ..
  have hnow := tempNow_tempTaken s site temp
  unfold retrainDue askRetrain
  rw [run_wrF_bind, run_get_bind, ← State.tempTaken]
  simp only [hkept, hdelta, hnow]

theorem askRetrain_done {site : Nat} {s t : State} (ht : Act.run (askRetrain site) s = t) :
    t.fldOf (R.GDC_PHY_TRAIN_STATUS site) F.GDC_PHY_TRAIN_STATUS.temp_now =
        s.fldOf (R.GDC_PHY_TRAIN_STATUS site) F.GDC_PHY_TRAIN_STATUS.temp_now ∧
      bit (t.reg (pageBase .gdc (17 + site) + 0x40)).toNat 32 = true := by
  have hcount : WritesOnly IsCounter (count (C.GDC_PHY_CNT_RETRAIN_DUE site) 1) := count_counters (isCounter_regA (by decide))
  have hirq : ¬ IsCounter (pageBase .gdc (17 + site) + 0x40) := not_isCounter_regA (off := 0x40) (by decide)
  unfold askRetrain at ht
  rw [(setIrq_only _ _).run_bind] at ht
  subst ht
  refine ⟨?_, ?_⟩
  · refine (hcount.fldOf _ (not_isCounter_regA (by decide)) _).trans ?_
    exact (setIrq_writes (P := (· = pageBase .gdc (17 + site) + 0x40)) rfl).fldOf s (regA_ne_of_off (n := 0x40) (by decide)) _
  · rw [hcount.reg _ hirq]
    exact bit_setIrq _ (by decide) s

theorem retrainDue_done {s t : State} {site : Nat} {temp : BitVec 8} {was : Nat}
    (hwas : s.fldOf (R.GDC_PHY_TRAIN_STATUS site) F.GDC_PHY_TRAIN_STATUS.temp_at_train = was)
    (ht : Act.run (retrainDue site temp.toNat) s = t) :
    t.fldOf (R.GDC_PHY_TRAIN_STATUS site) F.GDC_PHY_TRAIN_STATUS.temp_now = temp.toNat ∧
      if s.fldOf (R.GDC_PHY_RETRAIN site) F.GDC_PHY_RETRAIN.temp_delta < max was temp.toNat - min was temp.toNat then
        bit (t.reg (pageBase .gdc (17 + site) + 0x40)).toNat 32 = true
      else RegsBut [R.GDC_PHY_TRAIN_STATUS site] s t := by
  rw [run_retrainDue hwas] at ht
  split
  · next h =>
    rw [if_pos h] at ht
    obtain ⟨htemp, hirq⟩ := askRetrain_done ht
    exact ⟨htemp.trans (tempNow_tempTaken s site temp), hirq⟩
  · next h =>
    rw [if_neg h, run_pure] at ht
    subst ht
    exact ⟨tempNow_tempTaken s site temp, regsBut_upd_reg _ _ s⟩

/-! ## The cover's catch-up (R260) -/

/-- A marked unit of a position is copied back from site 16. -/
def copyBack (s : State) (p u : Nat) (rest : List Nat) : Act Unit := do
  siteWrite (s.siteOfPos p) (u * 2 ^ 16) (s.unitBytes 16 (s.coverOff p (u * 2 ^ 16)))
  modSite p (fun x => { x with marks := rest })
  coverCopied

/-- A marked unit of site 16 is copied to the cover. -/
def copyToCover (s : State) (p : Nat) (e : Nat × Nat) : Act Unit := do
  siteWrite 16 (s.coverOff p (e.2 * 2 ^ 16)) (s.unitBytes (s.siteOfPos p) (e.2 * 2 ^ 16))
  modMig (fun m => { m with coverMarks := m.coverMarks.erase e })
  coverCopied

theorem run_coverCatchup_back {s : State} {p u : Nat} {rest : List Nat} (hmarks : (s.site p).marks = u :: rest)
    (hstate : s.siteState (s.siteOfPos p) = 2 ∨ s.siteState (s.siteOfPos p) = 4) :
    Act.run (coverCatchup p) s = Act.run (copyBack s p u rest) s := by
  unfold coverCatchup
  rw [run_get_bind]
  simp only [hmarks, hstate, if_true]
  rfl

theorem run_coverCatchup_cover {s : State} {p : Nat} {e : Nat × Nat} (hmarks : (s.site p).marks = [])
    (he : s.mig.coverMarks.find? (fun e => e.1 = p) = some e) (h16 : s.siteState 16 = 6)
    (hserves : s.siteServes (s.siteOfPos p) = true) :
    Act.run (coverCatchup p) s = Act.run (copyToCover s p e) s := by
  unfold coverCatchup
  rw [run_get_bind]
  simp only [hmarks, he, h16, hserves, and_self, if_true]
  rfl

/-! ## The commands -/

theorem exec_siteFail {site : Fin 17} {s : State} (h : s.up) :
    exec (.siteFail site) s = .next (Act.run (siteFail site) s) := next_run_mains h _

theorem exec_scrubStripe {site : Fin 17} {stripe : Nat} {err : Bool} {s : State} (h : s.up) :
    exec (.scrubStripe site stripe err) s = .next (Act.run (scrubStripe site stripe err) s) := next_run_mains h _

theorem exec_retrainDue {site : Fin 17} {temp : BitVec 8} {s : State} (h : s.up) :
    exec (.retrainDue site temp) s = .next (Act.run (retrainDue site temp.toNat) s) := next_run_mains h _

theorem exec_coverCatchup {pos : Fin 16} {s : State} (h : s.up) :
    exec (.coverCatchup pos) s = .next (Act.run (coverCatchup pos) s) := next_run_mains h _

/-- Settles O28 (it holds): a loss leaves the site FAILED, the scrub records what does not agree, a temperature beyond the
delta raises its interrupt, and a marked unit is copied. -/
theorem sitesWatched : Obligations.SitesWatched := by
  unfold Obligations.SitesWatched
  refine ⟨fun s site hup h16 => ?_, ?_, fun s site temp hup => ?_, fun s pos u rest hup hmarks hstate => ?_,
    fun s pos e hup hmarks he h16 hserves => ?_⟩
  · obtain ⟨hstate, hrole, hmig⟩ := siteFail_done h16 rfl
    exact ⟨_, exec_siteFail hup, hstate, hrole, hmig, (siteFail_only site).run s⟩
  · intro s site stripe err odd hup hon hstate hgood hodd
    have hrun := run_scrubStripe (err := err) hon hstate hgood hodd
    have hsame := (scrubStripe_only site stripe err).run s
    rw [exec_scrubStripe hup, hrun]
    rw [hrun] at hsame
    refine ⟨fun h => ?_, fun h => ?_⟩
    · rw [h, if_neg Bool.false_ne_true, run_pure]
    · rw [if_pos h] at hsame ⊢
      exact ⟨_, rfl, fault_scrubRecord site stripe s, hsame⟩
  · obtain ⟨htemp, hdue⟩ := retrainDue_done (s := s) (site := site.val) (temp := temp) rfl rfl
    exact ⟨_, exec_retrainDue hup, htemp, hdue, (retrainDue_only site temp.toNat).run s⟩
  · exact (exec_coverCatchup hup).trans (congrArg _ (run_coverCatchup_back hmarks hstate))
  · exact (exec_coverCatchup hup).trans (congrArg _ (run_coverCatchup_cover hmarks he h16 hserves))

end Sys2Proof.Machine
end

section
/-! # Write-back commands of a tile (R252, R253) -/

namespace Sys2Proof.Machine

/-! ## A command joins the queue (R252) -/

/-- The word of TILE_WB_CMD that a command writes (R265). -/
def wbWord (op : Nat) (frame : Fin 64) (sig : BitVec 19) : Word := BitVec.ofNat 64 (op * 2 ^ 62 + frame * 2 ^ 48 + sig.toNat)

theorem getFld_wbWord {op : Nat} (h : op < 4) (frame : Fin 64) (sig : BitVec 19) :
    getFld (wbWord op frame sig) F.TILE_WB_CMD.op = op ∧ getFld (wbWord op frame sig) F.TILE_WB_CMD.frame = frame ∧
      getFld (wbWord op frame sig) F.TILE_WB_CMD.sig_offset = sig.toNat := by
  have hframe := frame.isLt
  have hsig := sig.isLt
  simp only [getFld, wbWord, bits, F.TILE_WB_CMD.op, F.TILE_WB_CMD.frame, F.TILE_WB_CMD.sig_offset, BitVec.toNat_ofNat]
  omega

/-- A command joins the queue, and acts where it is the only one in it. -/
def wbJoin (s : State) (tile op f sig : Nat) : Act Unit := do
  Act.upd (.tile tile { s.tile tile with wbq := (s.tile tile).wbq ++ [(op, f, sig)] })
  wrF (R.TILE_WB_STATUS tile) F.TILE_WB_STATUS.queued ((s.tile tile).wbq.length + 1)
  if (s.tile tile).wbq = [] then wbAct tile op f

theorem runs_wbCommand {s : State} {tile op f sig : Nat} (hroom : (s.tile tile).wbq.length < 8)
    (hfit : s.wbUnfit tile op f = false) : Runs (wbCommand tile op f sig) s none (Act.run (wbJoin s tile op f sig) s) := by
  unfold wbCommand
  refine (Runs.get s).bind ?_
  have hfew : ¬ 8 ≤ (storeGet (fun _ => ({} : TileX)) s.tiles tile).wbq.length := Nat.not_le.2 hroom
  dsimp only
  rw [if_neg hfew, hfit, if_neg Bool.false_ne_true]
  refine (Runs.upd _ s).bind (((Runs.rd _ _).bind (Runs.upd _ _)).bind ?_)
  unfold wbJoin
  rw [run_upd_bind, run_wrF_bind]
  unfold State.tile
  split
  · exact ((wbAct_only tile op f).runs _).bind (Runs.pure _ _)
  · exact Runs.pure _ _

theorem exec_wbCommands {core : CoreId} {tile : TileId} {frame : Fin 64} {sig : BitVec 19} {op : Nat} {c : Instr}
    (h : (op, c) ∈ [(0, Instr.wbLoad core tile frame sig), (1, .wbFlush core tile frame sig), (2, .wbEvict core tile frame sig),
      (3, .wbDiscard core tile frame sig)]) (s : State) :
    op < 4 ∧ exec c s = .next (Act.run (busWriteX {} core (R.TILE_WB_CMD tile) 8 (wbWord op frame sig)) s) := by
  simp only [List.mem_cons, Prod.mk.injEq, List.not_mem_nil, or_false] at h
  obtain ⟨rfl, rfl⟩ | ⟨rfl, rfl⟩ | ⟨rfl, rfl⟩ | ⟨rfl, rfl⟩ := h
  all_goals exact ⟨by decide, rfl⟩

/-- An accepted command that fits its frame is answered, having joined the queue. -/
theorem wbCmdWrite_accepted {s : State} {core op : Nat} {tile : TileId} {frame : Fin 64} {sig : BitVec 19} (hop : op < 4)
    (hz : (s.tile tile).zeroing = false) (hroom : (s.tile tile).wbq.length < 8) (hfit : s.wbUnfit tile op frame = false)
    (ha : Admits s core (R.TILE_WB_CMD tile) (wbWord op frame sig)) :
    Answered (Act.run (wbJoin s tile op frame sig.toNat) s)
      (Act.run (busWriteX {} core (R.TILE_WB_CMD tile) 8 (wbWord op frame sig)) s) := by
  obtain ⟨e1, e2, e3⟩ := getFld_wbWord hop frame sig
  refine answered_busWriteX_tile tile.isLt (by decide) ha (runs_tileBlockWrite hz (fun _ =>
    wbCommand tile (getFld (wbWord op frame sig) F.TILE_WB_CMD.op) (getFld (wbWord op frame sig) F.TILE_WB_CMD.frame)
      (getFld (wbWord op frame sig) F.TILE_WB_CMD.sig_offset)) rfl ?_)
  rw [e1, e2, e3]
  exact runs_wbCommand hroom hfit

/-! ## A command completes (R252) -/

/-- The head of a queue has left it, the completion count and the number queued show it. -/
def State.wbTaken (s : State) (tile : Nat) (rest : List (Nat × Nat × Nat)) : State :=
  let u := (Upd.tile tile { s.tile tile with wbq := rest }).apply s
  let v := (Upd.reg (R.TILE_WB_STATUS tile) (putFld (u.reg (R.TILE_WB_STATUS tile)) F.TILE_WB_STATUS.done
    (u.fldOf (R.TILE_WB_STATUS tile) F.TILE_WB_STATUS.done + 1))).apply u
  (Upd.reg (R.TILE_WB_STATUS tile) (putFld (v.reg (R.TILE_WB_STATUS tile)) F.TILE_WB_STATUS.queued rest.length)).apply v

/-- The completion count. -/
def State.wbCount (s : State) (tile : Nat) : Nat := s.fldOf (R.TILE_WB_STATUS tile) F.TILE_WB_STATUS.done

/-- The completion count goes to the signal word of the command. -/
def wbSignal (tile sig count : Nat) : Act Unit := tileWrite tile (sig * 8 % 2 ^ 22) (leBytes 8 count)

/-- The head of a queue acts. -/
def wbNext (tile : Nat) : List (Nat × Nat × Nat) → Act Unit
  | [] => skip
  | (op, f, _) :: _ => wbAct tile op f

theorem run_wbNext_cons (tile : Nat) (e : Nat × Nat × Nat) (rest : List (Nat × Nat × Nat)) (s : State) :
    Act.run (wbNext tile (e :: rest)) s = Act.run (wbAct tile e.1 e.2.1) s := rfl

theorem run_wbDone {s : State} {tile op f sig : Nat} {rest : List (Nat × Nat × Nat)}
    (h : (s.tile tile).wbq = (op, f, sig) :: rest) : Act.run (wbDone tile) s = Act.run (wbNext tile rest)
      (Act.run (wbSignal tile sig ((s.wbTaken tile rest).wbCount tile)) (s.wbTaken tile rest)) := by
  unfold State.tile at h
  unfold wbDone
  rw [run_rd_bind]
  simp only [h]
  rw [run_upd_bind, run_addF_bind, run_wrF_bind, run_rdF_bind, (tileWrite_only _ _ _).run_bind]
  cases rest <;> rfl

theorem wbCount_wbTaken (s : State) (tile : Nat) (rest : List (Nat × Nat × Nat)) : (s.wbTaken tile rest).wbCount tile =
    (s.wbCount tile + 1) % 2 ^ (F.TILE_WB_STATUS.done.hi + 1 - F.TILE_WB_STATUS.done.lo) :=
  (fldOf_put_ne _ _ _ _ _ (by decide) (by decide)).trans (fldOf_put_self _ _ _ _ (by decide))

theorem sameBut_wbTaken (s : State) (tile : Nat) (rest : List (Nat × Nat × Nat)) :
    SameBut [.regs, .tiles] s (s.wbTaken tile rest) :=
  ((SameBut.upd _ s rfl).trans (SameBut.upd _ _ rfl)).trans (SameBut.upd _ _ rfl)

theorem tile_wbTaken (s : State) (tile : Nat) (rest : List (Nat × Nat × Nat)) :
    (s.wbTaken tile rest).tile tile = { s.tile tile with wbq := rest } := tile_upd_self s _ _

/-- What the completion of a head leaves before the next command acts. -/
theorem wbSignal_done {s u : State} {tile sig : Nat} {rest : List (Nat × Nat × Nat)}
    (hu : Act.run (wbSignal tile sig ((s.wbTaken tile rest).wbCount tile)) (s.wbTaken tile rest) = u) :
    u.tile tile = { s.tile tile with wbq := rest } ∧
      u.wbCount tile = (s.wbCount tile + 1) % 2 ^ (F.TILE_WB_STATUS.done.hi + 1 - F.TILE_WB_STATUS.done.lo) ∧
      Wrote s u (tileKey tile (sig * 8 % 2 ^ 22)) (leBytes 8 (u.wbCount tile)) ∧ SameBut [.regs, .mem, .tab, .tiles] s u := by
  have hsame : SameBut [.mem, .tab] (s.wbTaken tile rest) u := hu ▸ (tileWrite_only _ _ _).run _
  have htaken := sameBut_wbTaken s tile rest
  have hcount : u.wbCount tile = (s.wbTaken tile rest).wbCount tile := fldOf_congr (hsame.2 .regs (by decide)) _ _
  refine ⟨(tile_congr (hsame.2 .tiles (by decide)) tile).trans (tile_wbTaken s tile rest),
    hcount.trans (wbCount_wbTaken s tile rest), ?_, (htaken.mono (by decide)).trans (hsame.mono (by decide))⟩
  have hwrote := wrote_tileWrite tile (sig * 8 % 2 ^ 22) (leBytes 8 ((s.wbTaken tile rest).wbCount tile)) (s.wbTaken tile rest)
  rw [hcount]
  exact hwrote.congr (htaken.2 .mem (by decide)).symm (congrArg State.mem hu.symm)

theorem exec_wbCommandDone {tile : TileId} {s : State} (h : s.clear) :
    exec (.wbCommandDone tile) s = .next (Act.run (wbDone tile) s) :=
  (next_run_mains h.1 _).trans (congrArg _ (run_served _ h.2))

/-! ## Write-through frames (R253) -/

theorem run_writeThrough {s : State} {tile frame : Nat} (hvalid : copyValid (s.copyEntry tile frame) = true)
    (hwt : copyWt (s.copyEntry tile frame) = true) (hdirty : copyDirty (s.copyEntry tile frame) ≠ 0) :
    Act.run (writeThrough tile frame) s = Act.run (wbFlush tile frame) s := by
  unfold writeThrough
  rw [run_rd_bind, hvalid, hwt, if_pos (by simpa using hdirty)]

theorem exec_writeThroughFlush {tile : TileId} {frame : Fin 64} {s : State} (h : s.clear) :
    exec (.writeThroughFlush tile frame) s = .next (Act.run (writeThrough tile frame) s) :=
  (next_run_mains h.1 _).trans (congrArg _ (run_served _ h.2))

/-- Settles O29 (it holds): a command joins its tile's queue, the completion of the head counts, signals and lets the next one
act, and a dirty write-through frame is flushed. -/
theorem writeBackCommands : Obligations.WriteBackCommands := by
  unfold Obligations.WriteBackCommands
  refine ⟨fun s core tile frame sig op c hc ha hz hroom hfit => ?_, fun s tile op f sig rest hclear hhead => ?_,
    fun s tile frame hclear hvalid hwt hdirty => ?_⟩
  · obtain ⟨hop, hexec⟩ := exec_wbCommands hc s
    rw [← wbWord] at ha
    exact ⟨_, hexec, wbCmdWrite_accepted hop hz hroom hfit ha⟩
  · obtain ⟨htile, hcount, hwrote, hsame⟩ := wbSignal_done (s := s) (tile := tile) (sig := sig) (rest := rest) rfl
    refine ⟨_, htile, hcount, hwrote, hsame, ?_⟩
    rw [exec_wbCommandDone hclear, run_wbDone hhead]
    cases rest with
    | nil => exact congrArg _ (run_skip _)
    | cons e rest => exact congrArg _ (run_wbNext_cons tile e rest _)
  · rw [exec_writeThroughFlush hclear, run_writeThrough hvalid hwt hdirty]

end Sys2Proof.Machine
end

section
/-! # Commands of the flash tier (R272 to R279) -/

namespace Sys2Proof.Machine

/-! ## What an engine reads and writes in hub SRAM (R17, R238) -/

theorem runs_spRead_hubAt {s : State} {src p a n : Nat} (h : HubHolds s p a n) :
    Runs (spRead src p 0 a n) s (.ok (s.hubAt a n)) s := runs_spRead_hub src p a n h

theorem runs_spWrite_stBytes {s : State} {src p a : Nat} {bs : List Byte} (h : HubHolds s p a bs.length) :
    Runs (spWrite src p 0 a bs) s none (Act.run (stBytes (2 ^ 36 + a) bs) s) := by
  unfold spWrite
  refine (Runs.rd _ s).bind ?_
  rw [h]
  exact ((stBytes_only _ _).runs s).bind (Runs.pure _ _)

/-- A good descriptor in hub SRAM that the partition holds is read without any change. -/
theorem runs_readPlace_hub {s : State} {src p ref : Nat} (hspace : refSpace ref = 0) (hzero : ref / 2 ^ 50 = 0)
    (hhub : HubHolds s p (refAddr ref) 32) (hgood : s.obGood p (s.hubAt (refAddr ref) 32) = true) :
    Runs (readPlace src p ref) s (some (s.hubAt (refAddr ref) 32)) s := by
  unfold readPlace
  rw [if_neg (by omega), hspace]
  refine (runs_spRead_hubAt hhub).bind ((Runs.rd _ s).bind ?_)
  rw [if_pos hgood]
  exact Runs.pure _ s

theorem PlaceRead.runs {s u : State} {src p ref : Nat} {d : List Byte} (h : PlaceRead s u src p ref d) :
    Runs (readPlace src p ref) s (some d) u := by
  obtain ⟨hspace, hzero, hhub, rfl, hgood, rfl⟩ | h := h
  · exact runs_readPlace_hub hspace hzero hhub hgood
  · exact h

/-! ## The flash commands of a package in service -/

section
variable {s : State} (h : s.clear)
include h

/-- A command that waits for the windows of the sites acts at once where none is open. -/
theorem next_run_mains_served (a : Act Unit) :
    (.next (Act.run (mains (served a)) s) : Host.Outcome State Fault Refusal) = .next (Act.run a s) :=
  (next_run_mains h.1 _).trans (congrArg _ (run_served _ h.2))

theorem exec_flashStarts {p : PartId} {op : Nat} {c : Instr}
    (hc : (op, c) ∈ [(1, Instr.flashRead p), (2, .flashWrite p), (3, .flashTrim p)]) :
    exec c s = .next (Act.run (flStart p op) s) := by
  simp only [List.mem_cons, Prod.mk.injEq, List.not_mem_nil, or_false] at hc
  obtain ⟨rfl, rfl⟩ | ⟨rfl, rfl⟩ | ⟨rfl, rfl⟩ := hc
  · exact next_run_mains_served h (flStart p 1)
  · exact next_run_mains_served h (flStart p 2)
  · exact next_run_mains_served h (flStart p 3)

theorem exec_flashCmdDone (p : PartId) : exec (.flashCmdDone p) s = .next (Act.run (flashCmdDone p) s) :=
  next_run_mains_served h _

theorem exec_hardDecode (dec : Fin 4) (fails : Bool) (corrected : Nat) :
    exec (.hardDecode dec fails corrected) s = .next (Act.run (hardDecode dec fails corrected) s) := next_run_mains_served h _

theorem exec_softDecode (dec : Fin 4) (decodes : Bool) :
    exec (.softDecode dec decodes) s = .next (Act.run (softDecode dec decodes) s) := next_run_mains_served h _

end

/-! ## A command starts (R274, R275) -/

/-- The checks of the start pass one after another: the queue's and the engine's, the entry's, the descriptor's, the units', the
operation's own; then the command runs in the state that the read of the descriptor leaves. -/
theorem flashCommandStarts : FlashCommandStarts := by
  intro s u p op i e d u0 x c hc hclear hi htail hmap hserves hroom hhub he hop hgood hplace hfirst hfree hread hwrite hx
  rw [exec_flashStarts hclear hc]
  have hentry : Runs (spRead flashSrc p 0 (s.flqAddr p i) 64) s (.ok e) s := he ▸ runs_spRead_hubAt hhub
  subst hi hx hop
  refine congrArg _ ?_
  unfold flStart
  rw [run_get_bind, if_neg (by simp [htail, hmap, hserves]), if_neg (Nat.not_le.2 hroom), run_bind_of_runs s hentry]
  dsimp only
  rw [if_neg (by simp), if_neg (by simp [hgood]), run_bind_of_runs s hplace.runs]
  dsimp only
  rw [hfirst]
  dsimp only
  rw [if_neg (by simp [hfree]), if_neg (by simpa using hread), if_neg (by simpa using hwrite)]
  rfl

/-! ## A command ends (R274) -/

/-- The status is stored where the entry stands, and the rest of the completion follows. -/
theorem run_flashCmdDone {s : State} {p : Nat} {c : FlCmd}
    (hc : s.flash.cmds.find? (fun c => c.part = p && c.status.isSome && decide (c.idx < 2 ^ 32)) = some c)
    (hhub : HubHolds s p (s.flqAddr p c.idx + 2) 1) :
    Act.run (flashCmdDone p) s = Act.run (do
      stBytes (s.flqKey p c.idx + 2) (leBytes 1 (c.status.getD 0))
      if bit (s.memNum (s.flqKey p c.idx + 1) 1) 0 then
        signalTile flashSrc p (s.memNum (s.flqKey p c.idx + 32) 4) (s.memNum (s.flqKey p c.idx + 36) 4)
      modFlash (fun x => { x with cmds := x.cmds.erase c, finished := x.finished ++ [(p, c.idx)] })
      flqAdvance p 256
      reclaim
      writePump) s := by
  rw [flashCmdDone, run_get_bind, hc]
  dsimp only
  rw [run_bind_of_runs s (runs_spWrite_stBytes hhub), (stBytes_only _ _).run_bind]
  rfl

/-! ## Decoding (R278, R279) -/

/-- A soft decoder that holds a codeword runs that codeword's next level. -/
theorem run_softDecode_held {s : State} {dec : Nat} {e : Nat × FlCw × Nat} (hserves : s.pageServes (pageBase .flc (16 + dec)) = true)
    (he : s.flash.soft.find? (fun e => e.1 = dec) = some e) (decodes : Bool) :
    Act.run (softDecode dec decodes) s = Act.run (softLevel dec e.2.1 e.2.2 decodes) s := by
  rw [softDecode, run_get_bind, if_neg (by simp [hserves])]
  dsimp only
  rw [he]
  rfl

/-- A decoder that holds none takes the oldest codeword of the soft queue to its first level. -/
theorem run_softDecode_taken {s : State} {dec : Nat} {w : FlCw} (hserves : s.pageServes (pageBase .flc (16 + dec)) = true)
    (hnone : s.flash.soft.find? (fun e => e.1 = dec) = none) (hroom : s.flash.soft.length < 2)
    (hw : s.flash.softq.head? = some w) (decodes : Bool) :
    Act.run (softDecode dec decodes) s = Act.run (do
      modFlash (fun x => { x with softq := x.softq.drop 1 })
      toSoftQueue
      softLevel dec w 0 decodes) s := by
  rw [softDecode, run_get_bind, if_neg (by simp [hserves])]
  dsimp only
  rw [hnone]
  dsimp only
  rw [if_pos hroom, hw]
  rfl

theorem flashCompletesAndDecodes : FlashCompletesAndDecodes := by
  refine ⟨fun s p c hclear hc hhub => ?_, fun s dec fails corrected w hclear hsoft hserves hw => ?_,
    fun s dec decodes e hclear hserves he => ?_, fun s dec decodes w hclear hserves hnone hroom hw => ?_⟩
  · exact (exec_flashCmdDone hclear p).trans (congrArg _ (run_flashCmdDone hc hhub))
  · rw [exec_hardDecode hclear, hardDecode, run_get_bind, if_neg (by simp [hsoft, hserves])]
    dsimp only
    rw [hw]
  · exact (exec_softDecode hclear dec decodes).trans (congrArg _ (run_softDecode_held hserves he decodes))
  · exact (exec_softDecode hclear dec decodes).trans (congrArg _ (run_softDecode_taken hserves hnone hroom hw decodes))

/-- Settles O49 (it holds): the start of a command passes its checks one by one, a completion stores the status and goes on, and
each decoder takes the codeword that its turn names. -/
theorem flashCommands : Obligations.FlashCommands := ⟨flashCommandStarts, flashCompletesAndDecodes⟩

end Sys2Proof.Machine
end

section
/-! # Upkeep of the flash tier (R277, R280 to R284) -/

namespace Sys2Proof.Machine

/-! ## The commands of a package in service -/

theorem exec_programDone {s : State} (h : s.clear) (chan : Fin 16) :
    exec (.programDone chan) s = .next (Act.run (programDone chan) s) := next_run_mains_served h _

section
variable {s : State} (h : s.up)
include h

theorem exec_programFail (chan : Fin 16) (erased : Option Nat) :
    exec (.programFail chan erased) s = .next (Act.run (programFail chan erased) s) := next_run_mains h _

theorem exec_refreshBlock (b : Nat) : exec (.refreshBlock b) s = .next (Act.run (refreshBlock b) s) := next_run_mains h _

theorem exec_wearLevelMove (chan : Fin 16) : exec (.wearLevelMove chan) s = .next (Act.run (wearMove chan) s) :=
  next_run_mains h _

end

/-! ## Programming and refresh (R277, R280 to R282, R284) -/

/-- The first half of O50 holds. -/
theorem flashProgramsAndRefreshes : FlashProgramsAndRefreshes := by
  refine ⟨fun s chan page mine rest hclear hpage hmine hrest => ?_, fun s chan erased b hup hbad hstate => ?_,
    fun s b hup hlisted hon hserves => ?_⟩
  · subst hmine hrest
    rw [exec_programDone hclear, programDone, run_get_bind, hpage]
  · rw [exec_programFail hup, programFail, run_get_bind]
    cases erased with
    | none | some _ =>
      dsimp only at hbad ⊢
      rw [hbad]
      dsimp only
      rw [if_neg hstate]
  · have hgoes : ¬ ((!s.flash.refresh.contains b) = true ∨ (!s.refreshOn) = true ∨ s.flState (blkChan b) ≠ 2) := by
      rw [hlisted, hon, hserves]
      decide
    rw [exec_refreshBlock hup, refreshBlock, run_get_bind, if_neg hgoes]
    refine ⟨fun hleft => ?_, fun hunits hstray hread => ?_⟩
    · split
      · next hunits hstray => exact absurd ⟨hunits, hstray⟩ hleft
      · rfl
    · rw [hunits, hstray]
      dsimp only
      rw [if_pos (by simp [hread])]

/-! ## Wear levelling of a block of the block table (R283) -/

/-- A block taken into use is open, with the erases it had. -/
theorem blk_taken (s : State) (d : Nat) :
    (Act.run (takeBlk d) s).blkState d = 1 ∧ (Act.run (takeBlk d) s).blkErases d = s.blkErases d := by
  have hword : (Act.run (takeBlk d) s).wordAt (flBlkKey d) = BitVec.ofNat 64 (1 * 2 ^ 32 + s.blkErases d) :=
    wordAt_upd_self s _ _
  have hlt : s.blkErases d < 2 ^ 32 := Nat.mod_lt _ (by decide)
  generalize s.blkErases d = n at *
  unfold State.blkState State.blkErases
  rw [hword]
  simp only [bits, BitVec.toNat_ofNat]
  omega

theorem keepsWord_of_only {α : Type} {k : Nat} {l : List Field} {a : Act α} (h : Only l a) (hl : Field.tab ∉ l) :
    Keeps (fun s => s.wordAt k) a := Keeps.of_only h fun _ _ q => wordAt_congr (q.2 .tab hl) _

theorem keepsWord_stW {k j v : Nat} (h : k ≠ j) : Keeps (fun s => s.wordAt k) (stW j v) :=
  .upd fun s => wordAt_upd_ne s _ _ _ h

/-- The credits of the partitions stand past the words of the blocks (R283, R285). -/
theorem chargeMove_keepsWord {k : Nat} (hk : k < flCreditKey 0) (u n : Nat) : Keeps (fun s => s.wordAt k) (chargeMove u n) := by
  have hpast (p : Nat) : k ≠ flCreditKey p ∧ k ≠ flCreditRestKey p := by
    unfold flCreditKey flCreditRestKey tabKey at *
    omega
  have hgrow (p : Nat) : Keeps (fun s => s.wordAt k) (creditGrow p) := .bind .get fun _ => .ite .pure
    (.bind (keepsWord_of_only (wrF_only _ _ _) (by decide)) fun _ => .bind (keepsWord_stW (hpast p).1) fun _ =>
      keepsWord_stW (hpast p).2)
  refine .bind .rd fun c => .bind (keepsWord_of_only (count_only _ _) (by decide)) fun _ => .bind .rd fun p => ?_
  cases p with
  | none => exact .pure
  | some p => exact .bind (hgrow p) fun _ => keepsWord_of_only (creditCharge_only _ _) (by decide)

/-- From `s` to `t` codewords of the units `us` joined the write buffer, bound for places in block `d` or past it, and the block's
word is as it was. -/
def Buffers (us : List Nat) (d : Nat) (s t : State) : Prop :=
  t.wordAt (flBlkKey d) = s.wordAt (flBlkKey d) ∧ ∃ l, t.flash.buf = s.flash.buf ++ l ∧
    ∀ x ∈ l, x.unit ∈ us ∧ x.cmd = none ∧ d * 2 ^ 20 ≤ x.pca

theorem Buffers.trans {us : List Nat} {d : Nat} {s t u : State} (h : Buffers us d s t) (g : Buffers us d t u) :
    Buffers us d s u := by
  obtain ⟨hword, l, hbuf, hl⟩ := h
  obtain ⟨gword, m, gbuf, hm⟩ := g
  refine ⟨gword.trans hword, l ++ m, by rw [gbuf, hbuf, List.append_assoc], fun x hx => ?_⟩
  exact (List.mem_append.1 hx).elim (hl x) (hm x)

theorem Buffers.mono {us vs : List Nat} {d : Nat} {s t : State} (h : Buffers us d s t) (hsub : ∀ u ∈ us, u ∈ vs) :
    Buffers vs d s t :=
  let ⟨hword, l, hbuf, hl⟩ := h
  ⟨hword, l, hbuf, fun x hx => (hl x hx).imp_left (hsub _)⟩

theorem buffers_modFlChan (us : List Nat) (d c : Nat) (f : FlChan → FlChan) (s : State) :
    Buffers us d s (Act.run (modFlChan c f) s) := ⟨rfl, [], (List.append_nil _).symm, by simp⟩

theorem buffers_wearUnit {d : Nat} (hd : flBlkKey d < flCreditKey 0) (u : Nat) (l : List Nat) (n : Nat) (s : State) :
    Buffers [u] d s (Act.run (wearUnit u l d n) s) := by
  unfold wearUnit
  rw [run_get_bind]
  extract_lets pcas
  rw [(modFlash_only _).run_bind]
  set v := Act.run (modFlash _) s
  have hflash : (Act.run (chargeMove u l.length) v).flash = v.flash := ((chargeMove_only u l.length).run v).2 .flash (by decide)
  refine ⟨(chargeMove_keepsWord hd u l.length).run v, _, congrArg FlashX.buf hflash, fun x hx => ?_⟩
  obtain ⟨i, hi, rfl⟩ := List.mem_map.1 hx
  have hplace : pcas.getD i 0 = d * 2 ^ 20 + (n + i) / 4 * 16 + (n + i) % 4 := by
    simp [pcas, List.mem_range.1 hi]
  refine ⟨List.mem_singleton_self u, rfl, ?_⟩
  dsimp only
  omega

theorem buffers_wearUnits {d : Nat} (hd : flBlkKey d < flCreditKey 0) (chan : Nat) (us : List Nat) (n : Nat) (s : State) :
    Buffers us d s (Act.run (wearUnits chan us d n) s) := by
  induction us generalizing n s with
  | nil =>
    rw [wearUnits]
    exact buffers_modFlChan _ _ _ _ s
  | cons u us ih =>
    rw [wearUnits, run_bind_of_runs s (Runs.rd _ s)]
    generalize s.wearTurn chan u d n = turn
    cases turn with
    | pass => exact (ih n s).mono fun v hv => List.mem_cons_of_mem u hv
    | stop left => exact buffers_modFlChan _ _ _ _ s
    | move l next =>
      rw [(wearUnit_only _ _ _ _).run_bind]
      exact ((buffers_wearUnit hd _ _ _ s).mono (by simp)).trans ((ih _ _).mono fun v hv => List.mem_cons_of_mem u hv)

/-- The block in hand is filled on; a free one is first taken into use. -/
theorem runs_wearBlock {s : State} {chan d : Nat} {free : Option Nat}
    (hd : (s.flChan chan).wear.map (·.1) = some d ∨ (s.flChan chan).wear = none ∧ free = some d) :
    ∃ n t, Runs (wearBlock chan free) s (some (d, n)) t ∧ ((s.flChan chan).wear = none → t.blkState d = 1) ∧
      t.blkErases d = s.blkErases d ∧ t.flash = s.flash := by
  unfold wearBlock
  obtain hw | ⟨hnone, rfl⟩ := hd
  · obtain ⟨w, hwear, rfl⟩ := Option.map_eq_some_iff.1 hw
    refine ⟨w.2, s, (Runs.rd _ s).bind ?_, by simp [hwear], rfl, rfl⟩
    rw [hwear]
    exact Runs.pure _ s
  · refine ⟨0, _, (Runs.rd _ s).bind ?_, fun _ => (blk_taken s d).1, (blk_taken s d).2,
      ((takeBlk_only d).run s).2 .flash (by decide)⟩
    rw [hnone]
    exact ((takeBlk_only d).runs s).bind (Runs.pure _ _)

/-- WEAR_LEVEL_MOVE (R283), as O50 says it, for a block whose word stands before the write credits. -/
theorem wearLevelMove_fills {s : State} {chan : Fin 16} {a d : Nat} (hup : s.up) (huneven : s.wearUneven chan = true)
    (hserves : s.flState chan = 2)
    (ha : s.leastWorn ((s.chanBlocks chan).filter (fun b => s.blkState b = 1 && !s.blkOpen b)) = some a)
    (hunits : s.blkUnits a ≠ [])
    (hd : (s.flChan chan).wear.map (·.1) = some d ∨
      (s.flChan chan).wear = none ∧ s.mostWorn ((s.chanBlocks chan).filter (fun b => s.blkState b = 0)) = some d)
    (htable : flBlkKey d < flCreditKey 0) :
    ∃ t l, exec (.wearLevelMove chan) s = .next t ∧ ((s.flChan chan).wear = none → t.blkState d = 1) ∧
      t.blkErases d = s.blkErases d ∧ t.flash.buf = s.flash.buf ++ l ∧
      (∀ x ∈ l, x.unit ∈ s.blkUnits a ∧ x.cmd = none ∧ d * 2 ^ 20 ≤ x.pca) ∧ SameBut [.regs, .tab, .flash] s t := by
  obtain ⟨n, u, hrun, hstate, herases, hflash⟩ := runs_wearBlock hd
  obtain ⟨hword, l, hbuf, hl⟩ := buffers_wearUnits htable chan (s.blkUnits a) n u
  have hmove : Act.run (wearMove chan) s = Act.run (wearUnits chan (s.blkUnits a) d n) u := by
    rw [wearMove, run_get_bind, if_pos ⟨huneven, hserves⟩, ha]
    dsimp only
    rw [if_pos hunits, run_bind_of_runs s hrun]
  refine ⟨_, l, exec_wearLevelMove hup chan, ?_⟩
  have hsame := (wearMove_only chan).run s
  rw [hmove] at hsame ⊢
  unfold State.blkState State.blkErases at *
  rw [hword]
  exact ⟨hstate, herases, hflash ▸ hbuf, hl, hsame⟩

/-! ## Wear levelling that is asked to fill a block past the block table -/

/-- A block number past every block of the table: its word would stand where the credit time of partition 0 does. -/
def foreignBlock : Nat := 4 * 2 ^ 40

theorem flBlkKey_foreignBlock : flBlkKey foreignBlock = flCreditKey 0 := by decide

/-- Unit 0, of partition 0's namespace, is one codeword in block 0, which was erased once; wear levelling of channel 0 has
`foreignBlock` in hand, and fabric time is 1. -/
def wearsForeignBlock : State := {
  regs := [(R.TIM_NOW, 1), (R.GDC_SITE_STATE 0, 2), (R.FLC_CH_CFG 0, 1), (R.FLC_CH_STATE 0, 2), (R.FLC_MAP_CFG, 1),
    (R.FLC_NS 0, 2 ^ 63 + 2 ^ 32)]
  mem := [(gddrKey 0 (sectorPlace 7).1 (sectorPlace 7).2, 0x80)]
  tab := [(flBlkKey 0, 2 ^ 32 + 1), (flCwKey 0 0, 1)]
  record := { flashBlocks := 1, flashPages := 4 }
  flash := { chans := [(0, { wear := some (foreignBlock, 0) })] } }

/-- Charging partition 0 for the move stores the time its credit grew, which reads as an erase of the block. -/
theorem erases_foreignBlock : (Act.run (wearMove 0) wearsForeignBlock).blkErases foreignBlock ≠
    wearsForeignBlock.blkErases foreignBlock := by
  unfold State.blkErases
  rw [flBlkKey_foreignBlock]
  decide +kernel

/-- Refutes O50: of any block in hand it says that a wear move leaves its erase count, but nothing in it keeps the block's number
within the block table. Past the table the block's word can be a partition's credit time, which the charge for the move changes. -/
theorem not_flashUpkeep : ¬ Obligations.FlashUpkeep := by
  unfold Obligations.FlashUpkeep FlashHousekeeping
  rintro ⟨-, -, hwear, -⟩
  have hup : wearsForeignBlock.up := ⟨rfl, by decide⟩
  obtain ⟨t, l, ht, -, herases, -⟩ := hwear wearsForeignBlock 0 0 foreignBlock hup (by decide +kernel) (by decide +kernel)
    (by decide +kernel) (by decide +kernel) (.inl (by decide +kernel))
  rw [exec_wearLevelMove hup] at ht
  obtain rfl := Host.Outcome.next.inj ht
  exact erases_foreignBlock herases

end Sys2Proof.Machine
end

section
/-! # Tedders fill weight buffers (R309, R310) -/

namespace Sys2Proof.Machine

theorem leNat_lt (l : List Byte) : leNat l < 256 ^ l.length := by
  induction l with
  | nil => exact Nat.one_pos
  | cons b bs ih =>
    have hb : b.toNat < 256 := b.isLt
    simp only [leNat, List.length_cons, Nat.pow_succ]
    omega

/-- A number of `n` bytes. -/
theorem numAt_lt (l : List Byte) (o n : Nat) : numAt l o n < 256 ^ n := by
  have h := leNat_lt (bytesAt l o n)
  rwa [bytesAt, List.takeD_length] at h

/-! ## A weight buffer takes a state and a tag (R44) -/

theorem wbufTag_setWbufTag (tile w tag : Nat) (s : State) : (Act.run (setWbufTag tile w tag) s).wbufTag tile w = tag % 2 ^ 16 := by
  unfold setWbufTag State.wbufTag
  rw [run_wrF]
  split <;> exact fldOf_put_self _ _ _ _ (by decide)

theorem wbufState_setWbufTag (tile w tag : Nat) (s : State) :
    (Act.run (setWbufTag tile w tag) s).wbufState tile w = s.wbufState tile w := by
  unfold setWbufTag State.wbufState
  rw [run_wrF]
  split <;> exact fldOf_put_ne _ _ _ _ _ (by decide) (by decide)

/-- The state in which buffer `w` of a tile is FILLING for a tag (R45). -/
def State.filling (s : State) (tile w tag : Nat) : State := Act.run (setWbufTag tile w tag) (Act.run (setWbuf tile w 1) s)

theorem wbuf_filling (s : State) (tile w : Nat) {tag : Nat} (h : tag < 2 ^ 16) :
    (s.filling tile w tag).wbufState tile w = 1 ∧ (s.filling tile w tag).wbufTag tile w = tag :=
  ⟨(wbufState_setWbufTag tile w tag _).trans (wbufState_setWbuf tile w 1 s),
    (wbufTag_setWbufTag tile w tag _).trans (Nat.mod_eq_of_lt h)⟩

theorem sameBut_filling (s : State) (tile w tag : Nat) : SameBut [.regs] s (s.filling tile w tag) :=
  ((setWbuf_only _ _ _).run s).trans ((setWbufTag_only _ _ _).run _)

/-! ## A piece starts (R310, R311) -/

/-- The queue's head counts entry `i` as started, if it does not yet (R320). -/
def entryStarted (s : State) (p i : Nat) : Act Unit :=
  if moves32 (s.tdqDone p) (s.fldOf (R.PRT_TDQ_HEAD p) F.PRT_TDQ_HEAD.started) < moves32 (s.tdqDone p) ((i + 1) % 2 ^ 32) then
    wrF (R.PRT_TDQ_HEAD p) F.PRT_TDQ_HEAD.started (i + 1)
  else pure ()

theorem entryStarted_only (s : State) (p i : Nat) : Only [.regs] (entryStarted s p i) := .ite (wrF_only _ _ _) (.pure _ _)

/-- A piece is counted with its entry, and its tedder is busy with it. -/
def pieceStarts (b : FillPc) : Act Unit := do
  let d ← rd (fun t => t.fillE b.part b.idx)
  putFillE { d with started := d.started ++ [b.j] }
  modTed (fun x => { x with busy := x.busy ++ [b] })
  wrF (R.TED_STATUS b.q) F.TED_STATUS.busy 1
  wrF (R.TED_STATUS b.q) F.TED_STATUS.partition b.part

/-- A piece whose buffer takes it: the buffer goes to FILLING, and the piece starts. -/
theorem run_fillPiece {s : State} {q p i j page w : Nat} {e : List Byte} (hidle : s.ted.busy.any (fun b => b.q = q) = false)
    (hted : s.pageServes (pageBase .ted q) = true) (hprt : s.pageServes (pageBase .prt p) = true)
    (hnext : s.nextPiece p q = some (i, j)) (he : e = s.hubBytes p (s.tdqKey p i) 64) (hgood : fiGood e = true)
    (htile : s.tileOfPart (fiFirst e + j) p = some page) (hw : w = b2n (fiFlag e 0))
    (htakes : s.wbufState page w = 0 ∨ s.wbufState page w = 1 ∧ s.wbufTag page w = fiTag e)
    (hfits : fiDst e + wRegionBytes (fiFormat e) (fiRecords e) ≤ s.wbufSize page w) :
    Act.run (fillPiece q p) s = Act.run (pieceStarts { part := p, idx := i, j := j, q := q, page := page, early := 0 })
      ((Act.run (entryStarted s p i) s).filling page w (fiTag e)) := by
  have hfree : s.wbufState page w ≠ 3 := by omega
  have hsame : ¬ (s.wbufState page w = 2 ∨ s.wbufState page w = 1 ∧ s.wbufTag page w ≠ fiTag e) := by omega
  unfold fillPiece
  rw [run_get_bind, if_neg (by simp [hidle, hted, hprt]), hnext]
  simp only [← he, hgood, htile, ← hw, hfree, hsame, Nat.not_lt.2 hfits, Bool.not_true, Bool.false_eq_true, if_false]
  unfold entryStarted
  split <;> rfl

theorem fillE_putFillE (e : FillE) (s : State) : (Act.run (putFillE e) s).fillE e.part e.idx = e := by
  show ((s.ted.entries.filter _ ++ [e]).find? _).getD _ = e
  rw [List.find?_append, List.find?_filter, List.find?_eq_none.2 (by simp; tauto)]
  simp

theorem fillE_congr {s t : State} (h : t.ted.entries = s.ted.entries) (p i : Nat) : t.fillE p i = s.fillE p i := by
  unfold State.fillE
  rw [h]

theorem part_fillE (s : State) (p i : Nat) : (s.fillE p i).part = p ∧ (s.fillE p i).idx = i := by
  unfold State.fillE
  cases h : s.ted.entries.find? (fun e => e.part = p && e.idx = i) with
  | none => exact ⟨rfl, rfl⟩
  | some d => simpa using List.find?_some h

theorem pieceStarts_only (b : FillPc) : Only [.regs, .ted] (pieceStarts b) :=
  .bind (.rd _ _) fun _ => .bind ((putFillE_only _).sub rfl) fun _ => .bind ((modTed_only _).sub rfl) fun _ =>
    .bind ((wrF_only _ _ _).sub rfl) fun _ => (wrF_only _ _ _).sub rfl

theorem pieceStarts_done {b : FillPc} {s t : State} (hp : b.part < 32) (ht : Act.run (pieceStarts b) s = t) :
    t.ted.busy = s.ted.busy ++ [b] ∧ (t.fillE b.part b.idx).started = (s.fillE b.part b.idx).started ++ [b.j] ∧
      t.fldOf (R.TED_STATUS b.q) F.TED_STATUS.busy = 1 ∧ t.fldOf (R.TED_STATUS b.q) F.TED_STATUS.partition = b.part ∧
      RegsBut [R.TED_STATUS b.q] s t := by
  obtain ⟨hpart, hidx⟩ := part_fillE s b.part b.idx
  have hentry := fillE_putFillE { s.fillE b.part b.idx with started := (s.fillE b.part b.idx).started ++ [b.j] } s
  rw [hpart, hidx] at hentry
  subst ht
  refine ⟨rfl, ?_, ?_, ?_, ?_⟩
  · exact congrArg FillE.started hentry
  · exact (fldOf_put_ne _ _ _ _ _ (by decide) (by decide)).trans (fldOf_put_self _ _ _ _ (by decide))
  · exact (fldOf_put_self _ _ _ _ (by decide)).trans (Nat.mod_eq_of_lt hp)
  · exact (regsBut_upd_reg _ _ _).trans (regsBut_upd_reg _ _ _)

theorem exec_fillPiece {s : State} (h : s.up) (q : Fin 4) (p : PartId) :
    exec (.fillPiece q p) s = .next (Act.run (fillPiece q p) s) := next_run_mains h _

/-! ## A piece ends (R309, R310) -/

theorem exec_fillPieceDone {s : State} (h : s.clear) (q : Fin 4) :
    exec (.fillPieceDone q) s = .next (Act.run (fillPieceDone q) s) := next_run_mains_served h _

theorem Act.ite_bind {α β : Type} {c : Prop} [Decidable c] (a b : Act α) (f : α → Act β) :
    (if c then a else b) >>= f = if c then a >>= f else b >>= f := by
  split <;> rfl

/-- From every state in which `g` reads `x` the two actions leave the same state. -/
def RunsAlike {γ : Type} (g : State → γ) (x : γ) (a b : Act Unit) : Prop := ∀ u, g u = x → Act.run a u = Act.run b u

namespace RunsAlike

variable {γ α : Type} {g : State → γ} {x : γ} {a b : Act Unit}

theorem refl : RunsAlike g x a a := fun _ _ => rfl

/-- The same action first, which leaves what `g` reads. -/
theorem bind {c : Act α} {f k : α → Act Unit} (h : Keeps g c) (hf : ∀ y, RunsAlike g x (f y) (k y)) :
    RunsAlike g x (c >>= f) (c >>= k) := fun u hu => by
  obtain ⟨y, t, r, q⟩ := h u
  rw [run_bind_of_runs u r, run_bind_of_runs u r, hf y t (q.trans hu)]

/-- One action takes what `g` reads from the state, the other has it already. -/
theorem rd_bind {f : γ → Act Unit} (h : RunsAlike g x (f x) b) : RunsAlike g x (rd g >>= f) b := fun u hu => by
  rw [run_rd_bind, hu, h u hu]

theorem ite {c : Prop} [Decidable c] {a' b' : Act Unit} (h : RunsAlike g x a a') (k : RunsAlike g x b b') :
    RunsAlike g x (if c then a else b) (if c then a' else b') := by
  split <;> assumption

end RunsAlike

theorem keeps_fillE {α : Type} {a : Act α} {l : List Field} (h : Only l a) (hl : Field.ted ∉ l) (p i : Nat) :
    Keeps (fun t => t.fillE p i) a :=
  .of_only h fun _ _ q => fillE_congr (congrArg TedX.entries (q.2 .ted hl)) p i

theorem run_fillPieceDone {s u : State} {q part m : Nat} {b : FillPc} {e : List Byte} {x : Expanded}
    (hb : s.ted.busy.find? (fun b => b.q = q) = some b) (hearly : b.early = 0) (he : e = s.hubBytes b.part (s.tdqKey b.part b.idx) 64)
    (hsrc : s.fillSource b.part (fiFlag e 4) = some part)
    (hread : Runs (readPiece q part e (fiSrc e + b.j * fiStride e)) s (.ok (x, m)) u) (hx : x.stopped = false) :
    Act.run (fillPieceDone q) s = Act.run (do
        count (C.TED_CNT_STORED_BYTES q) m
        count (C.TED_CNT_EXPANDED_BYTES q) (wRegionBytes (fiFormat e) x.lines.length)
        if fiFormat e = 2 then count (C.TED_CNT_H3I_BAD q) x.odd
        if fiFormat e = 5 then count (C.TED_CNT_MX_ZERO q) x.odd
        writeRegion b.page (s.wbufBase b.page (b2n (fiFlag e 0)) + fiDst e) (fiFormat e) (fiRecords e) x
        modTed (fun y => { y with busy := y.busy.filter (fun d => d.q ≠ q) })
        wrF (R.TED_STATUS q) F.TED_STATUS.busy 0
        count (C.TED_CNT_PIECES q) 1
        if fiFlag e 1 then setWbuf b.page (b2n (fiFlag e 0)) 2
        putFillE { s.fillE b.part b.idx with ended := (s.fillE b.part b.idx).ended + 1 }
        if (s.fillE b.part b.idx).ended + 1 = fiTiles e then fillEnd b.part b.idx (s.fillE b.part b.idx).status) u := by
  have keep {α : Type} {a : Act α} {l : List Field} (h : Only l a) (hl : Field.ted ∉ l) := keeps_fillE h hl b.part b.idx
  have hcount (c n : Nat) := keep (count_only c n) (by decide)
  have hfill : u.fillE b.part b.idx = s.fillE b.part b.idx := by
    obtain ⟨y, v, hv, h⟩ := keep (readPiece_only q part e (fiSrc e + b.j * fiStride e)) (by decide) s
    exact (congrArg (fun t : State => t.fillE b.part b.idx) (hread.state_unique hv)).trans h
  have hmod : Keeps (fun t => t.fillE b.part b.idx)
      (modTed (fun y => { y with busy := y.busy.filter (fun d => d.q ≠ q) })) := .rd_upd fun _ => rfl
  have hstatus (n : Nat) : (if n = 0 then 0 else n) = n := by split <;> omega
  unfold fillPieceDone
  rw [run_get_bind, hb]
  simp only [← he, hearly, hsrc]
  rw [if_neg (by simp), run_bind_bind, run_bind_of_runs s hread]
  simp only [hx, bind_assoc, pure_bind, Act.ite_bind, Bool.false_eq_true, if_false, ne_eq, not_true, hstatus]
  refine RunsAlike.bind (g := fun t => t.fillE b.part b.idx) (hcount _ _) (fun _ => .bind (hcount _ _) fun _ =>
    .ite (.bind (hcount _ _) fun _ => .ite (.bind (hcount _ _) fun _ => ?_) ?_) (.ite (.bind (hcount _ _) fun _ => ?_) ?_)) u hfill
  all_goals
    exact .bind (keep (writeRegion_only _ _ _ _ _) (by decide)) fun _ => .bind hmod fun _ =>
      .bind (keep (wrF_only _ _ _) (by decide)) fun _ => .bind (hcount _ _) fun _ =>
      .ite (.bind (keep (setWbuf_only _ _ _) (by decide)) fun _ => .rd_bind .refl) (.rd_bind .refl)

/-- Settles O31 (it holds): the piece that the queue names passes its checks one by one and starts, and a piece that is read is
written, leaves its tedder and is counted with its entry. -/
theorem fillPieces : Obligations.FillPieces := by
  unfold Obligations.FillPieces
  refine ⟨fun s q p i j page w e hup hidle hted hprt hnext he hgood htile hw htakes hfits => ?_,
    fun s u q b e part m x hs hb hearly he hsrc hread hx => ?_⟩
  · have htag : fiTag e < 2 ^ 16 := numAt_lt e 0 2
    obtain ⟨hstate, htagged⟩ := wbuf_filling (Act.run (entryStarted s p i) s) page w htag
    have hsame := ((entryStarted_only s p i).run s).trans (sameBut_filling (Act.run (entryStarted s p i) s) page w (fiTag e))
    obtain ⟨hbusy, hcounted, hon, hpart, hregs⟩ := pieceStarts_done (s := (Act.run (entryStarted s p i) s).filling page w (fiTag e))
      (b := { part := p, idx := i, j := j, q := q, page := page, early := 0 }) p.isLt rfl
    have hwbuf := hregs (R.TILE_WBUF_STATUS page) (List.not_mem_cons_of_ne_of_not_mem (regA_ne_of_off (by decide)) List.not_mem_nil)
    have hfill := fillE_congr (congrArg TedX.entries (hsame.2 .ted (by decide))) p i
    refine ⟨_, (exec_fillPiece hup q p).trans (congrArg _
      (run_fillPiece hidle hted hprt hnext he hgood htile hw htakes hfits)), ?_, ?_, hon, hpart, ?_, ?_, ?_⟩
    · unfold State.wbufState State.fldOf at hstate ⊢
      rw [hwbuf, hstate]
    · unfold State.wbufTag State.fldOf at htagged ⊢
      rw [hwbuf, htagged]
    · rw [hbusy, show _ = _ from hsame.2 .ted (by decide)]
    · rw [hcounted, hfill]
    · exact (hsame.mono (by decide)).trans ((pieceStarts_only _).run _)
  · rw [exec_fillPieceDone hs, run_fillPieceDone hb hearly he hsrc hread hx]

end Sys2Proof.Machine
end

section
/-! # Adapters (R312, R313, R321) -/

namespace Sys2Proof.Machine

/-! ## A write of REQ_ADP_CMD -/

/-- What an adapter command does. -/
def adpAct (p op num ver : Nat) : Act Unit :=
  match op with
  | 1 => adpStage p
  | 2 => adpPublish p num ver
  | 3 => adpWithdraw p num ver
  | _ => adpDrop p num ver

theorem adpAct_only (p op num ver : Nat) : Only [.regs, .tab] (adpAct p op num ver) := by
  unfold adpAct
  split
  · exact adpStage_only p
  · exact adpPublish_only p num ver
  · exact adpWithdraw_only p num ver
  · exact adpDrop_only p num ver

/-- The word of REQ_ADP_CMD that a command writes. -/
def adpWord (op num ver : Nat) : Word := BitVec.ofNat 64 (op * 2 ^ 60 + num * 2 ^ 16 + ver)

theorem getFld_adpWord {op num ver : Nat} (hop : op < 16) (hnum : num < 2 ^ 16) (hver : ver < 2 ^ 16) :
    getFld (adpWord op num ver) F.REQ_ADP_CMD.op = op ∧ getFld (adpWord op num ver) F.REQ_ADP_CMD.number = num ∧
      getFld (adpWord op num ver) F.REQ_ADP_CMD.version = ver := by
  simp only [getFld, adpWord, bits, F.REQ_ADP_CMD.op, F.REQ_ADP_CMD.number, F.REQ_ADP_CMD.version, BitVec.toNat_ofNat]
  omega

theorem runs_blockWrite_adp {y : BusX} {p op num ver : Nat} (hop : 1 ≤ op ∧ op ≤ 4) (hnum : num < 2 ^ 16)
    (hver : ver < 2 ^ 16) (s : State) :
    Runs (blockWrite y .req (1 + p) 0x320 (adpWord op num ver)) s none (Act.run (adpAct p op num ver) s) := by
  obtain ⟨ho, hn, hv⟩ := getFld_adpWord (lt_of_le_of_lt hop.2 (by decide)) hnum hver
  rw [blockWrite_req]
  refine (Runs.get s).bind ?_
  simp only [ho, hn, hv]
  obtain rfl | rfl | rfl | rfl : op = 1 ∨ op = 2 ∨ op = 3 ∨ op = 4 := by omega
  · exact runs_andDone (adpStage_only p) s
  · exact runs_andDone (adpPublish_only p num ver) s
  · exact runs_andDone (adpWithdraw_only p num ver) s
  · exact runs_andDone (adpDrop_only p num ver) s

/-- The result of a command stands in REQ_ADP_STATUS, the only register it changed. -/
def AdpDone (p : Nat) (s u : State) : Prop :=
  u.fldOf (R.REQ_ADP_STATUS p) F.REQ_ADP_STATUS.result = 0 ∧ RegsBut [R.REQ_ADP_STATUS p] s u

/-- What an accepted adapter command leaves. -/
theorem adpCommand_done {s : State} {core : Nat} {p : PartId} {op num ver : Nat} (hop : 1 ≤ op ∧ op ≤ 4)
    (hnum : num < 2 ^ 16) (hver : ver < 2 ^ 16) (ha : Admits s core (R.REQ_ADP_CMD p) (adpWord op num ver))
    (hd : AdpDone p s (Act.run (adpAct p op num ver) s)) {t : State}
    (ht : Act.run (busWriteX {} core (R.REQ_ADP_CMD p) 8 (adpWord op num ver)) s = t) :
    t.resp = { reason := 0, data := 0 } ∧ (∀ k, t.wordAt k = (Act.run (adpAct p op num ver) s).wordAt k) ∧
      t.fldOf (R.REQ_ADP_STATUS p) F.REQ_ADP_STATUS.result = 0 ∧ RegsBut [R.REQ_ADP_STATUS p] s t ∧
      SameBut [.regs, .tab, .resp, .land, .sent] s t := by
  have h : Answered (Act.run (adpAct p op num ver) s) t := ht ▸ answered_busWriteX_block
    (by have := p.isLt; show 1 + p.val < 64; omega) (by decide) (by decide) ha fun _ => runs_blockWrite_adp hop hnum hver s
  exact ⟨h.2, h.wordAt, (h.fldOf _ _).trans hd.1, h.regsBut hd.2, h.sameBut_of ((adpAct_only p op num ver).run s)⟩

/-! ## The words of an entry -/

/-- The four words of entry `e` are written. -/
def State.adpPut (s : State) (e : Nat) (v : Nat → Nat) : State := Act.run (do
  stW (adpKey e 0) (v 0)
  stW (adpKey e 1) (v 1)
  stW (adpKey e 2) (v 2)
  stW (adpKey e 3) (v 3)) s

theorem adpKey_inj {e v w : Nat} : adpKey e v = adpKey e w ↔ v = w := by
  unfold adpKey tabKey
  omega

theorem wordAt_adpPut (s : State) (e : Nat) (v : Nat → Nat) {w : Nat} (hw : w < 4) :
    (s.adpPut e v).wordAt (adpKey e w) = BitVec.ofNat 64 (v w) := by
  unfold State.adpPut
  simp only [run_stW_bind, run_stW, wordAt_upd_word, adpKey_inj]
  interval_cases w <;> rfl

theorem wordAt_adpPut_ne (s : State) (e : Nat) (v : Nat → Nat) {k : Nat} (hk : ∀ w, w < 4 → k ≠ adpKey e w) :
    (s.adpPut e v).wordAt k = s.wordAt k := by
  unfold State.adpPut
  simp only [run_stW_bind, run_stW, wordAt_upd_word, hk _ (show 0 < 4 by decide), hk _ (show 1 < 4 by decide),
    hk _ (show 2 < 4 by decide), hk _ (show 3 < 4 by decide), if_false]

/-! ## What REQ_ADP_STATUS shows -/

theorem showAdapters_writes (p : Nat) : WritesOnly (· ∈ [R.REQ_ADP_STATUS p]) (showAdapters p) :=
  .bind .rd fun _ => wrF_writes (by simp)

theorem adpDone_adpResult {p : Nat} {s u : State} (h : RegsBut [R.REQ_ADP_STATUS p] s u) :
    AdpDone p s (Act.run (adpResult p 0) u) :=
  ⟨fldOf_put_self _ _ _ _ (by decide), h.trans (regsBut_upd_reg _ _ u)⟩

theorem AdpDone.showAdapters {p : Nat} {s u : State} (h : AdpDone p s u) : AdpDone p s (Act.run (showAdapters p) u) :=
  ⟨(fldOf_put_ne _ _ _ _ _ (by decide) (by decide)).trans h.1, h.2.trans ((showAdapters_writes p).regsBut u)⟩

theorem wordAt_showAdapters (p k : Nat) (s : State) : (Act.run (showAdapters p) s).wordAt k = s.wordAt k := rfl

theorem wordAt_adpResult (p r k : Nat) (s : State) : (Act.run (adpResult p r) s).wordAt k = s.wordAt k := rfl

/-! ## The commands -/

/-- The words of a staged entry: its number and version, its owner and its state STAGED; no pins; what the arguments give. -/
def stagedWord (s : State) (p w : Nat) : Nat :=
  let a := (s.reg (R.REQ_ADP_ARG p w)).toNat
  match w with
  | 0 => setBits a 47 32 (p + 2 ^ 8)
  | 1 => a % 2 ^ 32
  | _ => a

theorem run_adpStage {s : State} {p e : Nat} (hroom : s.adpEntries.length < 4096)
    (hquota : (s.adpEntries.filter (fun e => s.adpF e 0 F.ADP.owner = p)).length <
      s.fldOf (R.PRT_QUOTA p) F.PRT_QUOTA.adapters)
    (hnew : s.adpFind p ((s.reg (R.REQ_ADP_ARG p 0)).toNat % 2 ^ 16) ((s.reg (R.REQ_ADP_ARG p 0)).toNat / 2 ^ 16 % 2 ^ 16)
      [1, 2, 3, 4] = none)
    (he : (List.range 4096).find? (fun e => s.adpF e 0 F.ADP.state = 0) = some e) :
    Act.run (adpStage p) s = Act.run (showAdapters p) (Act.run (adpResult p 0) (s.adpPut e (stagedWord s p))) := by
  unfold adpStage
  rw [run_get_bind]
  dsimp only
  rw [if_neg (Nat.not_le.2 hroom), if_neg (Nat.not_le.2 hquota), if_neg (by simpa using hnew), he]
  rfl

theorem regsBut_adpPut (s : State) (e : Nat) (v : Nat → Nat) (l : List Nat) : RegsBut l s (s.adpPut e v) := fun _ _ => rfl

/-- The first word of a staged entry says whose it is, that it is STAGED, and which number and version. -/
theorem getFld_stagedWord {a p : Nat} (hp : p < 32) (ha : a < 2 ^ 64) :
    let w := BitVec.ofNat 64 (setBits a 47 32 (p + 2 ^ 8))
    getFld w F.ADP.state = 1 ∧ getFld w F.ADP.owner = p ∧ getFld w F.ADP.number = a % 2 ^ 16 ∧
      getFld w F.ADP.version = a / 2 ^ 16 % 2 ^ 16 := by
  simp only [getFld, setBits, bits, F.ADP.state, F.ADP.owner, F.ADP.number, F.ADP.version, BitVec.toNat_ofNat]
  omega

theorem exec_adpStage (core : CoreId) (p : PartId) (s : State) :
    exec (.adpStage core p) s = .next (Act.run (busWriteX {} core (R.REQ_ADP_CMD p) 8 (adpWord 1 0 0)) s) := rfl

theorem adapterStaged (s : State) (core : CoreId) (p : PartId) (e w0 : Nat) (hroom : s.adpEntries.length < 4096)
    (hw0 : w0 = (s.reg (R.REQ_ADP_ARG p 0)).toNat)
    (hquota : (s.adpEntries.filter (fun e => s.adpF e 0 F.ADP.owner = p.val)).length <
      s.fldOf (R.PRT_QUOTA p) F.PRT_QUOTA.adapters)
    (hnew : s.adpFind p (w0 % 2 ^ 16) (w0 / 2 ^ 16 % 2 ^ 16) [1, 2, 3, 4] = none)
    (he : (List.range 4096).find? (fun e => s.adpF e 0 F.ADP.state = 0) = some e)
    (ha : Admits s core (R.REQ_ADP_CMD p) (BitVec.ofNat 64 (2 ^ 60))) :
    ∃ t, exec (.adpStage core p) s = .next t ∧ t.resp = { reason := 0, data := 0 } ∧ t.adpF e 0 F.ADP.state = 1 ∧
      t.adpF e 0 F.ADP.owner = p ∧ t.adpF e 0 F.ADP.number = w0 % 2 ^ 16 ∧ t.adpF e 0 F.ADP.version = w0 / 2 ^ 16 % 2 ^ 16 ∧
      t.adpF e 1 F.ADP.pins = 0 ∧ t.wordAt (adpKey e 2) = s.reg (R.REQ_ADP_ARG p 2) ∧
      t.wordAt (adpKey e 3) = s.reg (R.REQ_ADP_ARG p 3) ∧ t.fldOf (R.REQ_ADP_STATUS p) F.REQ_ADP_STATUS.result = 0 ∧
      (∀ k, (∀ w, w < 4 → k ≠ adpKey e w) → t.wordAt k = s.wordAt k) ∧ RegsBut [R.REQ_ADP_STATUS p] s t ∧
      SameBut [.regs, .tab, .resp, .land, .sent] s t := by
  subst hw0
  replace ha : Admits s core (R.REQ_ADP_CMD p) (adpWord 1 0 0) := by
    simpa [adpWord] using ha
  have hrun : Act.run (adpAct p 1 0 0) s = _ := run_adpStage hroom hquota hnew he
  have hput : AdpDone p s (Act.run (adpAct p 1 0 0) s) :=
    hrun ▸ (adpDone_adpResult (regsBut_adpPut s e _ _)).showAdapters
  obtain ⟨t, ht⟩ : ∃ t, Act.run (busWriteX {} core (R.REQ_ADP_CMD p) 8 (adpWord 1 0 0)) s = t := ⟨_, rfl⟩
  obtain ⟨hresp, hword, hresult, hregs, hsame⟩ := adpCommand_done (by decide) (by decide) (by decide) ha hput ht
  have hw (k : Nat) : t.wordAt k = (s.adpPut e (stagedWord s p)).wordAt k := by
    rw [hword, hrun, wordAt_showAdapters, wordAt_adpResult]
  obtain ⟨hstate, howner, hnumber, hversion⟩ := getFld_stagedWord p.isLt (s.reg (R.REQ_ADP_ARG p 0)).isLt
  have hfirst := (hw (adpKey e 0)).trans (wordAt_adpPut s e (stagedWord s p) (by decide))
  have hone := (hw (adpKey e 1)).trans (wordAt_adpPut s e (stagedWord s p) (by decide))
  refine ⟨t, ht ▸ exec_adpStage core p s, hresp, (congrArg (getFld · _) hfirst).trans hstate,
    (congrArg (getFld · _) hfirst).trans howner, (congrArg (getFld · _) hfirst).trans hnumber,
    (congrArg (getFld · _) hfirst).trans hversion, (congrArg (getFld · _) hone).trans ?_,
    (hw _).trans ((wordAt_adpPut s e _ (by decide)).trans ?_), (hw _).trans ((wordAt_adpPut s e _ (by decide)).trans ?_), hresult,
    fun k hk => (hw k).trans (wordAt_adpPut_ne s e _ hk), hregs, hsame⟩
  · simp only [stagedWord, getFld, bits, F.ADP.pins, BitVec.toNat_ofNat]
    omega
  · simp [stagedWord]
  · simp [stagedWord]

/-! ## Commands on an entry -/

theorem run_adpPublish {s : State} {p num ver e : Nat} (he : s.adpFind p num ver [1, 2, 3, 4] = some e)
    (hst : s.adpF e 0 F.ADP.state = 1)
    (hcur : ∀ d ∈ s.adpEntries, s.adpF d 0 F.ADP.owner = p → s.adpF d 0 F.ADP.number = num → s.adpF d 0 F.ADP.state ≠ 2) :
    Act.run (adpPublish p num ver) s = Act.run (adpResult p 0) (Act.run (adpSet e 0 F.ADP.state 2) s) := by
  unfold adpPublish
  rw [run_get_bind]
  simp only [he, hst, ne_eq, not_true_eq_false, if_false]
  refine run_bind_of_runs _ (Runs.forIn_same fun d hd => ?_) _
  rw [if_neg fun h => hcur d hd h.1 h.2.1 h.2.2]
  exact Runs.pure _ _

theorem run_adpWithdraw {s : State} {p num ver e : Nat} (he : s.adpFind p num ver [1, 2, 3, 4] = some e)
    (hst : s.adpF e 0 F.ADP.state = 2) (hpins : s.adpF e 1 F.ADP.pins ≠ 0) :
    Act.run (adpWithdraw p num ver) s = Act.run (adpResult p 0) (Act.run (adpSet e 0 F.ADP.state 4) s) := by
  unfold adpWithdraw
  rw [run_get_bind]
  simp only [he, hst, hpins, ne_eq, not_true_eq_false, if_false]
  rfl

theorem adpFind_owner {s : State} {p num ver e : Nat} {l : List Nat} (he : s.adpFind p num ver l = some e) :
    s.adpF e 0 F.ADP.owner = p := by
  have h := List.find?_some he
  simp only [Bool.and_eq_true, decide_eq_true_eq] at h
  exact h.1.1.1

theorem run_adpDrop {s : State} {p num ver e : Nat} (he : s.adpFind p num ver [1, 2, 3, 4] = some e)
    (hst : s.adpF e 0 F.ADP.state = 1) : Act.run (adpDrop p num ver) s =
      Act.run (adpResult p 0) (Act.run (showAdapters p) (s.adpPut e fun _ => 0)) := by
  unfold adpDrop
  rw [run_get_bind]
  simp only [he, hst, ne_eq, not_true_eq_false, if_false]
  rw [← adpFind_owner he]
  rfl

theorem adpF_adpSet_state (s : State) (e v : Nat) : (Act.run (adpSet e 0 F.ADP.state v) s).adpF e 0 F.ADP.state = v % 2 ^ 8 := by
  show getFld ((Upd.word _ _).apply s |>.wordAt _) _ = _
  rw [wordAt_upd_word, if_pos rfl, BitVec.ofNat_toNat, BitVec.setWidth_eq, getFld_putFld_self _ _ _ (by decide) (by decide)]
  rfl

theorem wordAt_adpSet_ne (s : State) {e w k : Nat} (f : Fld) (v : Nat) (hk : k ≠ adpKey e w) :
    (Act.run (adpSet e w f v) s).wordAt k = s.wordAt k := by
  show ((Upd.word _ _).apply s).wordAt _ = _
  rw [wordAt_upd_word, if_neg hk]

/-- What an accepted command that puts a new state in its entry leaves. -/
theorem adapterMoved {s : State} {core : CoreId} {p : PartId} {op e st : Nat} {num ver : BitVec 16} (hop : 1 ≤ op ∧ op ≤ 4)
    (hst : st < 256)
    (hrun : Act.run (adpAct p op num.toNat ver.toNat) s =
      Act.run (adpResult p 0) (Act.run (adpSet e 0 F.ADP.state st) s))
    (ha : Admits s core (R.REQ_ADP_CMD p) (adpWord op num.toNat ver.toNat)) {t : State}
    (ht : Act.run (busWriteX {} core (R.REQ_ADP_CMD p) 8 (adpWord op num.toNat ver.toNat)) s = t) :
    t.adpF e 0 F.ADP.state = st ∧ t.fldOf (R.REQ_ADP_STATUS p) F.REQ_ADP_STATUS.result = 0 ∧
      (∀ k, k ≠ adpKey e 0 → t.wordAt k = s.wordAt k) ∧ RegsBut [R.REQ_ADP_STATUS p] s t ∧
      SameBut [.regs, .tab, .resp, .land, .sent] s t := by
  obtain ⟨-, hword, hresult, hregs, hsame⟩ := adpCommand_done hop num.isLt ver.isLt ha
    (hrun ▸ adpDone_adpResult (fun _ _ => rfl)) ht
  have hw (k : Nat) : t.wordAt k = (Act.run (adpSet e 0 F.ADP.state st) s).wordAt k := by
    rw [hword, hrun, wordAt_adpResult]
  refine ⟨?_, hresult, fun k hk => (hw k).trans (wordAt_adpSet_ne s _ _ hk), hregs, hsame⟩
  exact (congrArg (getFld · _) (hw _)).trans ((adpF_adpSet_state s e st).trans (Nat.mod_eq_of_lt hst))

theorem exec_adpPublish (core : CoreId) (p : PartId) (num ver : BitVec 16) (s : State) : exec (.adpPublish core p num ver) s =
    .next (Act.run (busWriteX {} core (R.REQ_ADP_CMD p) 8 (adpWord 2 num.toNat ver.toNat)) s) := rfl

theorem exec_adpWithdraw (core : CoreId) (p : PartId) (num ver : BitVec 16) (s : State) : exec (.adpWithdraw core p num ver) s =
    .next (Act.run (busWriteX {} core (R.REQ_ADP_CMD p) 8 (adpWord 3 num.toNat ver.toNat)) s) := rfl

theorem exec_adpDrop (core : CoreId) (p : PartId) (num ver : BitVec 16) (s : State) : exec (.adpDrop core p num ver) s =
    .next (Act.run (busWriteX {} core (R.REQ_ADP_CMD p) 8 (adpWord 4 num.toNat ver.toNat)) s) := rfl

theorem adapterCommands : AdapterCommands := by
  refine ⟨adapterStaged, fun s core p num ver e he => ⟨fun hst hcur ha => ?_, fun hst hpins ha => ?_, fun hst ha => ?_⟩⟩
  · exact ⟨_, exec_adpPublish core p num ver s,
      adapterMoved (op := 2) (by decide) (by decide) (run_adpPublish he hst hcur) ha rfl⟩
  · exact ⟨_, exec_adpWithdraw core p num ver s,
      adapterMoved (op := 3) (by decide) (by decide) (run_adpWithdraw he hst hpins) ha rfl⟩
  · have hrun := run_adpDrop he hst
    have hput : RegsBut [R.REQ_ADP_STATUS p] s (Act.run (showAdapters p) (s.adpPut e fun _ => 0)) :=
      (regsBut_adpPut s e _ _).trans ((showAdapters_writes p).regsBut _)
    obtain ⟨-, hword, hresult, hregs, hsame⟩ := adpCommand_done (op := 4) (by decide) num.isLt ver.isLt ha
      (hrun ▸ adpDone_adpResult hput) rfl
    have hw (k : Nat) : _ = (s.adpPut e fun _ => 0).wordAt k := (hword k).trans (congrArg (·.wordAt k) hrun)
    exact ⟨_, exec_adpDrop core p num ver s, fun w hw4 => (hw _).trans (wordAt_adpPut s e _ hw4), hresult,
      fun k hk => (hw k).trans (wordAt_adpPut_ne s e _ hk), hregs, hsame⟩

end Sys2Proof.Machine
end

section
/-! # Base slots (R314, R315) -/

namespace Sys2Proof.Machine

/-! ## BASE_DISCARD -/

theorem binBase_eq (b : Nat) : R.BIN_BASE b = regA .bin 2 (0x208 + 8 * b) := by
  simp only [R.BIN_BASE, regA]
  omega

/-- The row of BIN_BASE_b has neither tick-staged fields nor fields that a 1 clears. -/
theorem binBase_plain : ∀ b < 2, (rowOf (R.BIN_BASE b)).any
    (fun r => !r.staged && decide (r.writable < 2 ^ 64) && r.clearing == 0) = true := by
  decide +kernel

/-- A field that a write leaves as it was stays, where no 1 clears. -/
theorem getFld_written_same {r : RegRow} {old v : Word} {f : Fld} (hf : f.hi < 64) (hw : r.writable < 2 ^ 64)
    (hc : r.clearing = 0) (h : getFld v f = getFld old f) : getFld (r.written old v true) f = getFld old f := by
  rw [written_eq]
  unfold getFld at h ⊢
  apply Nat.eq_of_testBit_eq
  intro i
  have hi := congrArg (·.testBit i) h
  simp only [testBit_bits] at hi ⊢
  by_cases hlt : i < f.hi + 1 - f.lo
  · have h64 : f.lo + i < 64 := by omega
    simp only [hlt, decide_true, Bool.true_and] at hi ⊢
    rw [hc, Nat.and_zero, Nat.sub_zero, BitVec.toNat_ofNat, Nat.testBit_mod_two_pow, Nat.testBit_and,
      testBit_mergeBits _ _ hw h64, Nat.testBit_two_pow_sub_one, hi]
    simp [h64]
  · simp [hlt]

/-- Register `a` has been written with a command, which reads back as 0; `f` keeps its value. -/
theorem fldOf_written_put {s : State} {a : Nat} {r : RegRow} {v : Word} {f g : Fld} (hg : g.hi < 64)
    (hf : f.lo ≤ f.hi ∧ f.hi < 64) (hd : f.hi < g.lo ∨ g.hi < f.lo) (hw : r.writable < 2 ^ 64) (hc : r.clearing = 0)
    (h : getFld v g = s.fldOf a g) :
    (Act.run (wrF a f 0) ((Upd.reg a (r.written (s.reg a) v true)).apply s)).fldOf a g = s.fldOf a g :=
  (fldOf_put_ne _ _ _ _ _ hf hd).trans ((fldOf_upd_self _ _ _ _).trans (getFld_written_same hg hw hc h))

/-- The slot is EMPTY and not resident. -/
def State.baseEmptied (s : State) (b : Nat) : State := Act.run (do
  setBaseState b 0
  wrF (R.BIN_BASE b) F.BIN_BASE.resident 0) s

theorem run_baseDiscard {s : State} {b : Nat} (h : s.baseState b = 2 ∨ s.baseState b = 5) :
    Act.run (baseDiscard b) s = s.baseEmptied b := by
  unfold baseDiscard
  rw [run_get_bind, if_pos h]
  rfl

theorem baseEmptied_reads (s : State) (b : Nat) : (s.baseEmptied b).baseState b = 0 ∧
    (s.baseEmptied b).fldOf (R.BIN_BASE b) F.BIN_BASE.resident = 0 ∧
    (s.baseEmptied b).fldOf (R.BIN_BASE b) F.BIN_BASE.owner = s.fldOf (R.BIN_BASE b) F.BIN_BASE.owner ∧
    RegsBut [R.BIN_BASE b] s (s.baseEmptied b) :=
  ⟨(fldOf_put_ne _ _ _ _ _ (by decide) (by decide)).trans (fldOf_put_self _ _ _ _ (by decide)),
    fldOf_put_self _ _ _ _ (by decide),
    (fldOf_put_ne _ _ _ _ _ (by decide) (by decide)).trans (fldOf_put_ne _ _ _ _ _ (by decide) (by decide)),
    (regsBut_upd_reg _ _ s).trans (regsBut_upd_reg _ _ _)⟩

/-- A write of BIN_BASE_b that gives the discard order and no other owner empties a slot that may be discarded. -/
theorem runs_binWrite_discard {s : State} {b : Nat} (hb : b < 2) (hst : s.baseState b = 2 ∨ s.baseState b = 5) {v : Word}
    (hv : v = putFld (s.reg (R.BIN_BASE b)) F.BIN_BASE.discard 1) : ∃ u : State, SameBut [.regs] s u ∧
      RegsBut [R.BIN_BASE b] s u ∧ u.fldOf (R.BIN_BASE b) F.BIN_BASE.owner = s.fldOf (R.BIN_BASE b) F.BIN_BASE.owner ∧
      Runs (binWrite 2 (0x208 + 8 * b) v) s none (u.baseEmptied b) := by
  subst hv
  obtain ⟨r, hrow, hr⟩ := (Option.any_eq_true _ _).1 (binBase_plain b hb)
  simp only [Bool.and_eq_true, Bool.not_eq_true', decide_eq_true_eq, beq_iff_eq] at hr
  obtain ⟨⟨hstaged, hwr⟩, hclear⟩ := hr
  have hkeep (g : Fld) (hg : g.hi < 64) (hd : F.BIN_BASE.discard.hi < g.lo ∨ g.hi < F.BIN_BASE.discard.lo) :=
    getFld_putFld_ne (s.reg (R.BIN_BASE b)) F.BIN_BASE.discard g 1 (by decide) (by decide) hd
  let v := putFld (s.reg (R.BIN_BASE b)) F.BIN_BASE.discard 1
  obtain ⟨u, hu⟩ : ∃ u, Act.run (wrF (R.BIN_BASE b) F.BIN_BASE.discard 0)
      ((Upd.reg (R.BIN_BASE b) (r.written (s.reg (R.BIN_BASE b)) v true)).apply s) = u := ⟨_, rfl⟩
  have hfld (g : Fld) (hg : g.hi < 64) (hd : F.BIN_BASE.discard.hi < g.lo ∨ g.hi < F.BIN_BASE.discard.lo) :
      u.fldOf (R.BIN_BASE b) g = s.fldOf (R.BIN_BASE b) g :=
    hu ▸ fldOf_written_put hg (by decide) hd hwr hclear (hkeep g hg hd)
  refine ⟨u, ?_, ?_, hfld _ (by decide) (by decide), ?_⟩
  · exact hu ▸ (SameBut.upd _ s rfl).trans (SameBut.upd _ _ rfl)
  · exact hu ▸ (regsBut_upd_reg _ _ s).trans (regsBut_upd_reg _ _ _)
  have hstate : u.baseState b = 2 ∨ u.baseState b = 5 := by
    rwa [show u.baseState b = s.baseState b from hfld _ (by decide) (by decide)]
  have howner : getFld v F.BIN_BASE.owner = s.fldOf (R.BIN_BASE b) F.BIN_BASE.owner := hkeep _ (by decide) (by decide)
  have hdiscard : getFld v F.BIN_BASE.discard = 1 := getFld_putFld_self _ _ _ (by decide) (by decide)
  unfold binWrite
  refine (Runs.get s).bind ?_
  dsimp only
  rw [if_neg (by decide), if_neg (by omega), if_neg (by omega), if_pos (by omega),
    show pageBase .bin 2 + (0x208 + 8 * b) = R.BIN_BASE b from (binBase_eq b).symm, if_neg fun h => h.1 howner,
    if_pos hdiscard]
  refine (runs_storeReg hrow hstaged v s).bind ?_
  refine ((wrF_only _ _ _).runs _).bind ?_
  rw [hu, ← run_baseDiscard hstate]
  have hidx : (0x208 + 8 * b - 0x208) / 8 = b := by omega
  rw [hidx]
  exact ((baseDiscard_only b).runs u).bind (Runs.pure _ _)

theorem answered_binBase {s t : State} {core b : Nat} {v : Word} (hb : b < 2) (ha : Admits s core (R.BIN_BASE b) v)
    (h : Runs (binWrite 2 (0x208 + 8 * b) v) s none t) : Answered t (Act.run (busWriteX {} core (R.BIN_BASE b) 8 v) s) := by
  rw [binBase_eq] at ha ⊢
  exact answered_busWriteX_block (by decide) (by decide) (by omega) ha fun _ => h

theorem exec_baseDiscard (core : CoreId) (b : Fin 2) (s : State) : exec (.baseDiscard core b) s = .next
    (Act.run (busWriteX {} core (R.BIN_BASE b) 8 (putFld (s.reg (R.BIN_BASE b)) F.BIN_BASE.discard 1)) s) := rfl

theorem sameBut_baseEmptied (s : State) (b : Nat) : SameBut [.regs] s (s.baseEmptied b) :=
  (SameBut.upd _ s rfl).trans (SameBut.upd _ _ rfl)

theorem baseDiscards (s : State) (core : CoreId) (b : Fin 2) (hst : s.baseState b = 2 ∨ s.baseState b = 5)
    (ha : Admits s core (R.BIN_BASE b) (putFld (s.reg (R.BIN_BASE b)) F.BIN_BASE.discard 1)) :
    ∃ t, exec (.baseDiscard core b) s = .next t ∧ t.resp = { reason := 0, data := 0 } ∧ t.baseState b = 0 ∧
      t.fldOf (R.BIN_BASE b) F.BIN_BASE.resident = 0 ∧
      t.fldOf (R.BIN_BASE b) F.BIN_BASE.owner = s.fldOf (R.BIN_BASE b) F.BIN_BASE.owner ∧ RegsBut [R.BIN_BASE b] s t ∧
      SameBut [.regs, .resp, .land, .sent] s t := by
  obtain ⟨u, hsame, hregs, howner, hrun⟩ := runs_binWrite_discard b.isLt hst rfl
  have h := answered_binBase b.isLt ha hrun
  obtain ⟨hstate, hresident, howner', hregs'⟩ := baseEmptied_reads u b
  exact ⟨_, exec_baseDiscard core b s, h.2, (h.fldOf _ _).trans hstate, (h.fldOf _ _).trans hresident,
    (h.fldOf _ _).trans (howner'.trans howner), h.regsBut (hregs.trans hregs'),
    h.sameBut (hsame.trans (sameBut_baseEmptied u b))⟩

/-! ## BASE_CUTOVER_STAGE -/

/-- The row of BIN_BASE_ACTIVE has only a tick-staged field. -/
theorem binBaseActive_row : ∃ r, rowOf R.BIN_BASE_ACTIVE = some r ∧ r.staged = true ∧
    r.fields.all (fun f => f.acc.isStaged || f.acc = .ro) = true ∧ ∀ old v, r.written old v false = old := by
  have hslot : slotAt .bin 2 0x200 = .reg (row "BIN_BASE_ACTIVE" 0x200 0 1 [fld "slot" 0 0 .rwt 0]) 0 := rfl
  exact ⟨_, rowOf_regA (by decide) (by decide) hslot, rfl, rfl, written_of_no_mask rfl rfl⟩

theorem swapRecord_reads (s : State) {b tick : Nat} (hb : b < 2) (ht : tick < 2 ^ 48) :
    let u := Act.run (swapRecord 1 b tick) s
    u.fldOf R.BIN_SWAP_STATE F.BIN_SWAP_STATE.phase = 1 ∧ u.fldOf R.BIN_SWAP_STATE F.BIN_SWAP_STATE.slot = b ∧
      u.fldOf R.BIN_SWAP_REC F.BIN_SWAP_REC.tick = tick ∧ RegsBut [R.BIN_SWAP_REC, R.BIN_SWAP_STATE] s u :=
  ⟨fldOf_put_self _ _ _ _ (by decide),
    (fldOf_put_ne _ _ _ _ _ (by decide) (by decide)).trans
      ((fldOf_put_self _ _ _ _ (by decide)).trans (Nat.mod_eq_of_lt hb)),
    (fldOf_upd_ne _ _ _ _ _ (by decide)).trans ((fldOf_upd_ne _ _ _ _ _ (by decide)).trans
      ((fldOf_put_self _ _ _ _ (by decide)).trans (Nat.mod_eq_of_lt ht))),
    ((regsBut_upd_reg _ _ s).mono (by simp)).trans
      (((regsBut_upd_reg _ _ _).trans (regsBut_upd_reg _ _ _)).mono (by simp))⟩

/-- The COMMITTED swap record stands, and the slot waits for its tick. -/
def State.cutoverStaged (s : State) (b : Nat) : State :=
  let u := Act.run (swapRecord 1 b (s.fldOf (pageBase .bin 2 + 0x50) F.SCHED_TICK.tick)) s
  ((Upd.reg R.BIN_BASE_ACTIVE (u.reg R.BIN_BASE_ACTIVE)).apply u).staging R.BIN_BASE_ACTIVE (pageBase .bin 2) (BitVec.ofNat 64 b)

theorem runs_binWrite_active {s : State} {b : Nat} (hb : b < 2) (hrun : s.run = true) (hst : s.baseState b = 2) :
    Runs (binWrite 2 0x200 (BitVec.ofNat 64 b)) s none (s.cutoverStaged b) := by
  obtain ⟨r, hrow, hstaged, hall, hold⟩ := binBaseActive_row
  have hslot : getFld (BitVec.ofNat 64 b) F.BIN_BASE_ACTIVE.slot = b := by
    simp only [getFld, bits, F.BIN_BASE_ACTIVE.slot, BitVec.toNat_ofNat]
    omega
  unfold binWrite
  refine (Runs.get s).bind ?_
  dsimp only
  rw [if_neg (by decide), if_neg (by decide), if_pos rfl, hslot, if_neg (not_not.2 hst), hrun, if_pos rfl]
  refine ((swapRecord_only _ _ _).runs s).bind ?_
  have hkeeps := (swapRecord_reads s (tick := s.fldOf (pageBase .bin 2 + 0x50) F.SCHED_TICK.tick) hb (getFld_lt _ _)).2.2.2
  have hstore := runs_storeReg_staged hrow hstaged hall
    (show (Act.run (swapRecord 1 b (s.fldOf (pageBase .bin 2 + 0x50) F.SCHED_TICK.tick)) s).run = true from by
      unfold State.run at hrun ⊢
      rw [hkeeps.fldOf (by decide), hrun]) (BitVec.ofNat 64 b) (by decide) (by decide)
  rw [hold] at hstore
  exact hstore.bind (Runs.pure _ _)

theorem exec_baseCutoverStage (core : CoreId) (b : Fin 2) (s : State) : exec (.baseCutoverStage core b) s =
    .next (Act.run (busWriteX {} core R.BIN_BASE_ACTIVE 8 (BitVec.ofNat 64 b)) s) := rfl

theorem baseCutoverStages (s : State) (core : CoreId) (b : Fin 2) (hrun : s.run = true) (hst : s.baseState b = 2)
    (ha : Admits s core R.BIN_BASE_ACTIVE (BitVec.ofNat 64 b)) :
    ∃ t, exec (.baseCutoverStage core b) s = .next t ∧ t.resp = { reason := 0, data := 0 } ∧
      t.fldOf R.BIN_SWAP_STATE F.BIN_SWAP_STATE.phase = 1 ∧ t.fldOf R.BIN_SWAP_STATE F.BIN_SWAP_STATE.slot = b ∧
      t.fldOf R.BIN_SWAP_REC F.BIN_SWAP_REC.tick = s.fldOf (pageBase .bin 2 + 0x50) F.SCHED_TICK.tick ∧
      (storeGet (fun _ => none) t.staged R.BIN_BASE_ACTIVE).isSome = true ∧ t.reg R.BIN_BASE_ACTIVE = s.reg R.BIN_BASE_ACTIVE ∧
      SameBut [.regs, .staged, .resp, .land, .sent] s t := by
  have h : Answered (s.cutoverStaged b) (Act.run (busWriteX {} core R.BIN_BASE_ACTIVE 8 (BitVec.ofNat 64 b)) s) :=
    answered_busWriteX_block (show 2 < Block.bin.pages by decide) (by decide) (by decide) ha
      fun _ => runs_binWrite_active b.isLt hrun hst
  obtain ⟨u, hu⟩ : ∃ u, Act.run (swapRecord 1 b (s.fldOf (pageBase .bin 2 + 0x50) F.SCHED_TICK.tick)) s = u := ⟨_, rfl⟩
  obtain ⟨hphase, hslot, htick, hkeeps⟩ := hu ▸ swapRecord_reads s b.isLt
    (getFld_lt (s.reg (pageBase .bin 2 + 0x50)) F.SCHED_TICK.tick)
  have hsame : SameBut [.regs] s u := hu ▸ (swapRecord_only _ _ _).run s
  obtain ⟨hstaged, -, hregs, hsame'⟩ := staging_waits ((Upd.reg R.BIN_BASE_ACTIVE (u.reg R.BIN_BASE_ACTIVE)).apply u)
    R.BIN_BASE_ACTIVE (pageBase .bin 2) (BitVec.ofNat 64 b)
  have hregs' : RegsBut [pageBase .bin 2 + 0x18] u (s.cutoverStaged b) := by
    rw [State.cutoverStaged, hu]
    exact ((regsBut_upd_reg_self u _).mono (by simp)).trans hregs
  have hstay : SameBut [.regs, .staged] s (s.cutoverStaged b) := by
    rw [State.cutoverStaged, hu]
    exact (hsame.mono (by decide)).trans ((SameBut.upd _ u rfl).trans hsame')
  refine ⟨_, exec_baseCutoverStage core b s, h.2, (h.fldOf _ _).trans ((hregs'.fldOf (by decide) _).trans hphase),
    (h.fldOf _ _).trans ((hregs'.fldOf (by decide) _).trans hslot),
    (h.fldOf _ _).trans ((hregs'.fldOf (by decide) _).trans htick), ?_,
    (h.reg _).trans ((hregs' _ (by decide)).trans (hkeeps _ (by decide))), h.sameBut_of hstay⟩
  rw [show State.staged _ = (s.cutoverStaged b).staged from h.1.2 .staged (by decide), State.cutoverStaged, hu, hstaged]
  rfl

/-! ## BASE_RETIRE -/

theorem exec_baseRetire (b : Fin 2) (s : State) : exec (.baseRetire b) s = .next (Act.run (mains (baseRetire b)) s) := rfl

theorem baseRetires (s : State) (b : Fin 2) (hup : s.up) (hst : s.baseState b = 4) (hwait : s.wordAt baseWaitKey = 0) :
    ∃ t, exec (.baseRetire b) s = .next t ∧ t.baseState b = 0 ∧ t.fldOf (R.BIN_BASE b) F.BIN_BASE.resident = 0 ∧
      t.fldOf R.BIN_SWAP_STATE F.BIN_SWAP_STATE.phase = 2 ∧ RegsBut [R.BIN_BASE b, R.BIN_SWAP_STATE] s t ∧
      SameBut [.regs] s t := by
  have hrun : Act.run (baseRetire b) s = Act.run (wrF R.BIN_SWAP_STATE F.BIN_SWAP_STATE.phase 2) (s.baseEmptied b) := by
    unfold baseRetire
    rw [run_get_bind, if_pos ⟨hst, hwait⟩]
    rfl
  have hne : R.BIN_BASE b ≠ R.BIN_SWAP_STATE := by
    simp only [R.BIN_BASE, R.BIN_SWAP_STATE, regA]
    omega
  obtain ⟨hstate, hresident, -, hregs⟩ := baseEmptied_reads s b
  refine ⟨_, (exec_baseRetire b s).trans (next_run_mains hup _), ?_⟩
  rw [hrun]
  exact ⟨(fldOf_upd_ne _ _ _ _ _ hne).trans hstate, (fldOf_upd_ne _ _ _ _ _ hne).trans hresident,
    fldOf_put_self _ _ _ _ (by decide), (hregs.mono (by simp)).trans ((regsBut_upd_reg _ _ _).mono (by simp)),
    (sameBut_baseEmptied s b).trans (SameBut.upd _ _ rfl)⟩

theorem baseSlots : BaseSlots :=
  ⟨baseDiscards, baseCutoverStages, baseRetires⟩

/-- Settles O53 (it holds): an accepted adapter command does its work on the table, and the base slots' commands write the
fields of BIN_BASE and the swap record. -/
theorem adaptersAndBases : Obligations.AdaptersAndBases := ⟨adapterCommands, baseSlots⟩

end Sys2Proof.Machine
end

section
/-! # Queue pairs (R293 to R295, R318) -/

namespace Sys2Proof.Machine

/-! ## What a frame's count leaves -/

/-- A run keeps what its action leaves alone. -/
theorem Only.runs_sameBut {α : Type} {l : List Field} {a : Act α} {s t : State} {x : α} (h : Only l a) (hr : Runs a s x t) :
    SameBut l s t :=
  let ⟨_, _, r, q⟩ := h s
  r.state_unique hr ▸ q

theorem run_modLoad (f : LoadX → LoadX) (s : State) : Act.run (modLoad f) s = (Upd.load (f s.load)).apply s := rfl

theorem run_modLoad_bind (f : LoadX → LoadX) (g : Unit → Act Unit) (s : State) :
    Act.run (modLoad f >>= g) s = Act.run (g ()) ((Upd.load (f s.load)).apply s) := rfl

theorem load_count (a n : Nat) (s : State) : (Act.run (count a n) s).load = s.load :=
  ((count_only a n).run s).2 .load (by decide)

theorem tab_count (a n : Nat) (s : State) : (Act.run (count a n) s).tab = s.tab :=
  ((count_only a n).run s).2 .tab (by decide)

theorem qpNum_congr {s t : State} (h : t.tab = s.tab) (q o n : Nat) : t.qpNum q o n = s.qpNum q o n := by
  simp only [State.qpNum, wordAt_congr h]

theorem qpPort_congr {s t : State} (h : t.tab = s.tab) (q : Nat) : t.qpPort q = s.qpPort q := by
  simp only [State.qpPort, qpNum_congr h]

/-- A QP that is ready takes a frame, whose bytes its port counts. -/
theorem runs_roceTakes {s : State} {q : Nat} (h : s.qpReady q = true) (n : Nat) :
    Runs (roceTakes q n) s true (Act.run (count (C.BIN_CNT_RX_BYTES (s.qpPort q)) (s.roceFrame q + n)) s) := by
  have hvalid : bit (s.qpNum q 0 1) 7 = true := (Bool.and_eq_true _ _ ▸ h : _ ∧ _).1
  unfold roceTakes
  refine (Runs.get s).bind (((count_only _ _).runs s).bind ?_)
  rw [hvalid, h]
  exact Runs.pure _ _

/-! ## Answers -/

theorem run_readResponse {s u : State} {q psn : Nat} {payload : List Byte} {r : RdReq} {o : Option Nat} (h : s.qpReady q = true)
    (hr : s.load.reads.find? (fun r => r.qp = q && decide (r.psn < 2 ^ 24)) = some r) (hpsn : psn = r.next)
    (hlen : payload.length < r.left)
    (hw : Runs (gWrite ingressSrc r.part r.addr payload) (Act.run (count (C.BIN_CNT_RX_BYTES (s.qpPort q))
      (s.roceFrame q + (payload.length + if r.next ≠ r.psn ∧ s.pathMtu (s.qpPort q) < r.left then 0 else 4))) s) o u) :
    Act.run (readResponse q psn payload false) s = (Upd.load { u.load with
      reads := s.load.reads.map (fun d => if d = r then
        { r with
          next := (r.next + 1) % 2 ^ 24
          left := r.left - payload.length
          addr := r.addr + payload.length
          remote := r.remote + payload.length
          tries := 0
          since := s.now } else d) }).apply u := by
  have hload : u.load = s.load := (((gWrite_only _ _ _ _).runs_sameBut hw).2 .load (by decide)).trans (load_count _ _ _)
  have hmid : (if s.midResponse q psn = true then 0 else 4) =
      if r.next ≠ r.psn ∧ s.pathMtu (s.qpPort q) < r.left then 0 else 4 := by
    simp only [State.midResponse, hr, hpsn, true_and, decide_eq_true_eq]
  have htake : payload.take r.left = payload := List.take_of_length_le hlen.le
  have hmore : ¬ r.left - payload.length = 0 := by omega
  unfold readResponse
  rw [run_get_bind, hmid, run_bind_of_runs s (runs_roceTakes h _)]
  simp only [Bool.not_true, Bool.false_eq_true, if_false, hr, hpsn, if_true, htake, hmore]
  rw [run_bind_of_runs _ hw, run_modLoad, hload]

theorem run_roceAck {s : State} {q psn : Nat} (h : s.qpReady q = true) : Act.run (roceAck q psn) s = (Upd.load { s.load with
    reads := s.load.reads.map (fun r =>
      if r.qp = q ∧ r.psn < 2 ^ 24 ∧ (psn + 2 ^ 24 - r.psn) % 2 ^ 24 < 2 ^ 23 then { r with tries := 0, since := s.now }
      else r) }).apply (Act.run (count (C.BIN_CNT_RX_BYTES (s.qpPort q)) (s.roceFrame q + 4)) s) := by
  unfold roceAck
  rw [run_rd_bind, run_bind_of_runs s (runs_roceTakes h 4), if_pos rfl, run_modLoad, load_count]

theorem run_roceNak {s : State} {q psn : Nat} {fatal : Bool} (h : s.qpReady q = true) :
    Act.run (roceNak q psn fatal) s = Act.run (if fatal then qpError q else qpRetry q) ((Upd.load { s.load with
      reads := s.load.reads.map (fun r =>
        if r.qp = q ∧ r.psn < 2 ^ 24 ∧ r.psn ≠ psn ∧ (psn + 2 ^ 24 - r.psn) % 2 ^ 24 < 2 ^ 23 then { r with tries := 0 }
        else r) }).apply (Act.run (do
          count (C.BIN_CNT_RX_BYTES (s.qpPort q)) (s.roceFrame q + 4)
          count (C.BIN_CNT_NAK (s.qpPort q)) 1) s)) := by
  unfold roceNak
  rw [run_bind_of_runs s (runs_roceTakes h 4), if_pos rfl, run_get_bind, (count_only _ _).run_bind, run_modLoad_bind,
    (count_only _ _).run_bind, qpPort_congr (tab_count _ _ _), load_count, load_count]

/-! ## Retries -/

/-- A request of `q` that has gone out. -/
abbrev Outstanding (q : Nat) (d : RdReq) : Prop := d.qp = q ∧ d.psn < 2 ^ 24

/-- The header of a QP's packets comes of its context and its port's registers, none of them a counter. -/
theorem roceHdr_congr {s t : State} (h : t.tab = s.tab) (hr : ∀ a, ¬ IsCounter a → t.reg a = s.reg a) (q : Nat) :
    t.roceHdr q = s.roceHdr q := by
  have hctrl (k : Nat) : t.reg (R.BIN_PORT_CTRL k) = s.reg (R.BIN_PORT_CTRL k) := hr _ (not_isCounter_regA (by decide))
  have hmac (k : Nat) : t.reg (R.BIN_PORT_MAC k) = s.reg (R.BIN_PORT_MAC k) := hr _ (not_isCounter_regA (by decide))
  have hip4 (k : Nat) : t.reg (R.BIN_PORT_IP4 k) = s.reg (R.BIN_PORT_IP4 k) := hr _ (not_isCounter_regA (by decide))
  have hhi (k : Nat) : t.reg (R.BIN_PORT_IP6_HI k) = s.reg (R.BIN_PORT_IP6_HI k) := hr _ (not_isCounter_regA (by decide))
  have hlo (k : Nat) : t.reg (R.BIN_PORT_IP6_LO k) = s.reg (R.BIN_PORT_IP6_LO k) := hr _ (not_isCounter_regA (by decide))
  unfold State.roceHdr State.fldOf
  simp only [qpNum_congr h, qpPort_congr h, hctrl, hmac, hip4, hhi, hlo]

/-- A request is sent, and nothing but counters changes beside. -/
structure SentOnly (s t : State) (l : List Out) : Prop where
  sent : t.sent = s.sent ++ l
  regs : ∀ a, ¬ IsCounter a → t.reg a = s.reg a
  same : SameBut [.regs, .sent] s t

theorem SentOnly.trans {s t u : State} {l m : List Out} (h : SentOnly s t l) (g : SentOnly t u m) : SentOnly s u (l ++ m) :=
  ⟨by rw [g.sent, h.sent, List.append_assoc], fun a ha => (g.regs a ha).trans (h.regs a ha), h.same.trans g.same⟩

theorem sentOnly_count {a : Nat} (h : IsCounter a) (n : Nat) (s : State) : SentOnly s (Act.run (count a n) s) [] :=
  have hs := (count_only a n).run s
  ⟨by rw [List.append_nil, show State.sent _ = _ from hs.2 .sent (by decide)],
    fun b hb => (count_counters h (n := n)).reg s hb, hs.mono (by decide)⟩

theorem sentOnly_sendRead (r : RdReq) (psn : Nat) (s : State) :
    SentOnly s (Act.run (sendRead r psn) s) [.rdmaRead (s.roceHdr r.qp) psn r.remote r.rkey r.left] :=
  SentOnly.trans (t := Act.run (send (.rdmaRead (s.roceHdr r.qp) psn r.remote r.rkey r.left)) s)
    ⟨rfl, fun _ _ => rfl, SameBut.upd _ s rfl⟩ (sentOnly_count (isCounter_regA (by decide)) _ _)

/-- One turn of the loop that sends a QP's requests again. -/
def resendStep (port q : Nat) (r : RdReq) (_ : Unit) : Act (ForInStep Unit) :=
  if Outstanding q r then do
    sendRead r r.next
    count (C.BIN_CNT_RETRANS port) 1
    pure (.yield ())
  else pure (.yield ())

/-- Every outstanding request of a list goes out, in order. -/
theorem runs_resendLoop (port q : Nat) (l : List RdReq) (s : State) : ∃ t, Runs (forIn l () (resendStep port q)) s () t ∧
    SentOnly s t ((l.filter (Outstanding q ·)).map (fun d => .rdmaRead (s.roceHdr q) d.next d.remote d.rkey d.left)) := by
  induction l generalizing s with
  | nil => exact ⟨s, Runs.pure _ s, (List.append_nil _).symm, fun _ _ => rfl, SameBut.refl _ s⟩
  | cons d l ih =>
    rw [List.forIn_cons]
    by_cases hd : Outstanding q d
    · have hone := (sentOnly_sendRead d d.next s).trans
        (sentOnly_count (show IsCounter (C.BIN_CNT_RETRANS port) from isCounter_regA (by decide)) 1 _)
      obtain ⟨t, hrun, ht⟩ := ih (Act.run (count (C.BIN_CNT_RETRANS port) 1) (Act.run (sendRead d d.next) s))
      refine ⟨t, ?_, ?_⟩
      · unfold resendStep
        rw [if_pos hd]
        exact Runs.bind (((sendRead_only d d.next).runs s).bind (((count_only _ _).runs _).bind (Runs.pure _ _))) hrun
      · rw [List.filter_cons_of_pos (by simpa [Outstanding] using hd)]
        have h := hone.trans ht
        rw [roceHdr_congr (hone.same.2 .tab (by decide)) hone.regs, hd.1] at h
        exact h
    · obtain ⟨t, hrun, ht⟩ := ih s
      refine ⟨t, ?_, by rwa [List.filter_cons_of_neg (by simpa [Outstanding] using hd)]⟩
      unfold resendStep
      rw [if_neg hd]
      exact (Runs.pure _ s).bind hrun

/-- Sending a QP's requests again starts their timeouts over. -/
theorem run_qpResend (q : Nat) (s : State) : ∃ t, SentOnly s t ((s.load.reads.filter (Outstanding q ·)).map
      (fun d => .rdmaRead (s.roceHdr q) d.next d.remote d.rkey d.left)) ∧
    Act.run (qpResend q) s = (Upd.load { s.load with
      reads := s.load.reads.map (fun d => if Outstanding q d then { d with since := s.now } else d) }).apply t := by
  obtain ⟨t, hrun, ht⟩ := runs_resendLoop (s.qpPort q) q s.load.reads s
  refine ⟨t, ht, ?_⟩
  unfold qpResend
  rw [run_get_bind]
  refine (run_bind_of_runs s hrun _).trans ?_
  rw [run_modLoad, show t.load = s.load from ht.same.2 .load (by decide)]

/-- The request `r` has used one more of its retries. -/
def retryUsed (r d : RdReq) : RdReq := if d = r then { d with tries := d.tries + 1 } else d

theorem outstanding_retryUsed (q : Nat) (r d : RdReq) : Outstanding q (retryUsed r d) ↔ Outstanding q d := by
  unfold retryUsed
  split <;> exact Iff.rfl

/-- The state once `r` has used a retry; nothing has been sent again yet. -/
def State.retried (s : State) (r : RdReq) : State :=
  (Upd.load { s.load with reads := s.load.reads.map (retryUsed r) }).apply s

/-- A retry is used by the oldest request, and every outstanding request goes out again. -/
theorem run_qpRetry {s : State} {q : Nat} {r : RdReq}
    (hr : s.load.reads.find? (fun r => r.qp = q && decide (r.psn < 2 ^ 24)) = some r) (ht : r.tries < s.qpNum q 31 1) :
    ∃ t, Act.run (qpRetry q) s = t ∧
      t.load = { s.load with
        reads := s.load.reads.map (fun d => if d.qp = q ∧ d.psn < 2 ^ 24 then
          { d with
            tries := if d = r then d.tries + 1 else d.tries
            since := s.now } else d) } ∧
      t.sent = s.sent ++ (s.load.reads.filter (fun d => d.qp = q ∧ d.psn < 2 ^ 24)).map
        (fun d => .rdmaRead (s.roceHdr q) d.next d.remote d.rkey d.left) ∧ SameBut [.regs, .load, .sent] s t := by
  obtain ⟨t, hsent, hrun⟩ := run_qpResend q (s.retried r)
  have hretry : Act.run (qpRetry q) s = Act.run (qpResend q) (s.retried r) := by
    unfold qpRetry
    rw [run_get_bind, hr]
    dsimp only
    rw [if_pos ht, run_modLoad_bind]
    rfl
  refine ⟨_, hretry.trans hrun, ?_, ?_, ?_⟩
  · have hq : Outstanding q r := by simpa [Outstanding] using List.find?_some hr
    show ({ s.load with reads := (s.load.reads.map (retryUsed r)).map _ } : LoadX) = _
    rw [List.map_map]
    refine congrArg (fun l => ({ s.load with reads := l } : LoadX)) (List.map_congr_left fun d _ => ?_)
    by_cases hd : d = r
    · subst hd
      simp only [Function.comp_apply, if_pos hq, retryUsed, if_true]
      rfl
    · simp only [Function.comp_apply, retryUsed, if_neg hd]
      rfl
  · refine hsent.sent.trans (congrArg (s.sent ++ ·) ?_)
    show ((s.load.reads.map (retryUsed r)).filter _).map _ = _
    rw [List.filter_map, List.map_map]
    simp only [Function.comp_def, outstanding_retryUsed]
    refine List.map_congr_left fun d _ => ?_
    unfold retryUsed
    split <;> rfl
  · exact (SameBut.upd _ s rfl).trans ((hsent.same.mono (by decide)).trans (SameBut.upd _ t rfl))

theorem run_qpRetry_spent {s : State} {q : Nat} {r : RdReq}
    (hr : s.load.reads.find? (fun r => r.qp = q && decide (r.psn < 2 ^ 24)) = some r) (ht : s.qpNum q 31 1 ≤ r.tries) :
    Act.run (qpRetry q) s = Act.run (qpError q) s := by
  unfold qpRetry
  rw [run_get_bind, hr]
  exact congrArg (Act.run · s) (if_neg (Nat.not_lt.2 ht))

theorem run_qpError (q : Nat) (s : State) : Act.run (qpError q) s = Act.run (do
    qpSet q 34 1 2
    modLoad (fun x => { x with reads := s.load.reads.filter (fun d => d.qp ≠ q) })
    for f in ((s.load.reads.filter (fun d => d.qp = q)).map (fun d => (d.part, d.idx, d.chunk))).eraseDups do
      count C.BIN_CNT_SOURCE_ERROR 1
      chunkNext f.1 f.2.1 f.2.2) s := by
  have hload : (Act.run (qpSet q 34 1 2) s).load = s.load := ((qpSet_only _ _ _ _).run s).2 .load (by decide)
  unfold qpError
  rw [run_get_bind, (qpSet_only _ _ _ _).run_bind, (qpSet_only _ _ _ _).run_bind]
  dsimp only
  rw [run_modLoad_bind, run_modLoad_bind, hload]

/-! ## The commands of a queue pair -/

theorem exec_rdmaReadResponse (q : Fin 64) (psn : BitVec 24) (payload : List Byte) (ce : Bool) (s : State) :
    exec (.rdmaReadResponse q psn payload ce) s = .next (Act.run (mains (served (readResponse q psn.toNat payload ce))) s) := rfl

theorem exec_roceAck (q : Fin 64) (psn : BitVec 24) (s : State) :
    exec (.roceAck q psn) s = .next (Act.run (mains (roceAck q psn.toNat)) s) := rfl

theorem exec_roceNak (q : Fin 64) (psn : BitVec 24) (fatal : Bool) (s : State) :
    exec (.roceNak ⟨q, psn, fatal⟩) s = .next (Act.run (mains (roceNak q psn.toNat fatal)) s) := rfl

theorem exec_roceTimeout (q : Fin 64) (s : State) : exec (.roceTimeout q) s = .next (Act.run (mains (roceTimeout q)) s) := rfl

theorem exec_bulkFrameDrop (port : Fin 2) (len : Nat) (s : State) : exec (.bulkFrameDrop ⟨port, len⟩) s =
    .next (Act.run (mains (bulkDrop port len)) s) := rfl

theorem run_roceTimeout {s : State} {q : Nat} (h : s.qpReady q = true) (hlate : s.qpLate q = true) :
    Act.run (roceTimeout q) s = Act.run (qpRetry q) s := by
  unfold roceTimeout
  rw [run_get_bind, if_pos (by rw [h, hlate]; rfl)]

theorem queuePairs : QueuePairs := by
  refine ⟨fun s u q psn payload r o hc hq hr hpsn hlen hw => ?_, fun s q psn hup hq => ?_, fun s u q psn fatal hup hq hu => ?_,
    fun s q hup hq hlate => ?_, fun s q r hr => ⟨run_qpRetry hr, run_qpRetry_spent hr⟩, fun s q => run_qpError q s,
    fun s port len hup => (exec_bulkFrameDrop port len s).trans (next_run_mains hup _)⟩
  · rw [exec_rdmaReadResponse, next_run_mains_served hc, run_readResponse hq hr hpsn hlen hw]
  · rw [exec_roceAck, next_run_mains hup, run_roceAck hq]
  · rw [exec_roceNak, next_run_mains hup, run_roceNak hq, hu]
  · rw [exec_roceTimeout, next_run_mains hup, run_roceTimeout hq hlate]

end Sys2Proof.Machine
end

section
/-! # Peers (R303, R306) -/

namespace Sys2Proof.Machine

theorem exec_peerReq (r : RxPacket) (s : State) : exec (.peerReq r) s = .next (Act.run (mains (served (peerReq r))) s) := rfl

theorem exec_peerData (r : RxPacket) (s : State) : exec (.peerData r) s = .next (Act.run (mains (served (peerData r))) s) := rfl

theorem exec_peerNotHeld (r : RxPacket) (s : State) : exec (.peerNotHeld r) s = .next (Act.run (mains (peerNotHeld r)) s) := rfl

theorem run_peerReq_none {s u : State} {r : RxPacket} {p : Nat} (h : Receives s r 0x38 (some p)) (hu : u = received s r)
    (hslot : u.peerSlot (bytesAt (pkBody r.bytes) 0 48) (numAt (pkBody r.bytes) 48 4) = none) :
    Act.run (peerReq r) s = Act.run (replyTo r p 0x3A (pkArg0 r.bytes) 0 []) u := by
  unfold peerReq
  rw [run_onPacket h, ← hu]
  dsimp only
  rw [run_get_bind, hslot]

/-- A chunk that is held and reads is sealed and goes out in packets. -/
theorem run_peerReq_held {s u v : State} {r : RxPacket} {p owner base : Nat} {k : KeySlot} {m : ManSlot} {bs all : List Byte}
    (h : Receives s r 0x38 (some p)) (hu : u = received s r)
    (hslot : u.peerSlot (bytesAt (pkBody r.bytes) 0 48) (numAt (pkBody r.bytes) 48 4) = some k) (hm : u.man k.mslot = some m)
    (hdest : k.dest = some (owner, base)) (hix : pkArg0 r.bytes < shCount (mfShard m.bytes k.shard))
    (hread : Runs (gRead ingressSrc owner (base + pkArg0 r.bytes * chunkBytes)
      (ckStored (mfChunk m.bytes (shFirst (mfShard m.bytes k.shard) + pkArg0 r.bytes)))) u (.ok bs) v)
    (hall : all = peerIv u.ownFabric k.serial (pkArg0 r.bytes) ++
      Config.gcmSeal k.key (peerIv u.ownFabric k.serial (pkArg0 r.bytes)) (m.digest ++ leBytes 8 (pkArg0 r.bytes)) bs) :
    Act.run (peerReq r) s = Act.run (do
      modLoad (fun x => { x with keys := x.keys.map (fun d => if d.slot = k.slot then { d with serial := d.serial + 1 } else d) })
      count C.BIN_CNT_PEER_SERVED 1
      for i in List.range ((all.length + 4095) / 4096) do
        replyTo r p 0x39 (pkArg0 r.bytes) i ((all.drop (4096 * i)).take 4096)) v := by
  subst hall
  unfold peerReq
  rw [run_onPacket h, ← hu]
  dsimp only
  rw [run_get_bind, hslot]
  dsimp only
  rw [hm, hdest]
  dsimp only
  rw [if_neg (Nat.not_le.2 hix), run_bind_of_runs u hread]

/-- A packet of a chunk that waits for this peer lands in its slot. -/
theorem run_peerData {s u v : State} {r : RxPacket} {p : Nat} {t : StreamX} {c : ChunkX} {o : Option Nat}
    (h : Receives s r 0x39 (some p)) (hu : u = received s r)
    (hc : u.peerChunk p (pkSrc r.bytes) (pkArg0 r.bytes) = some (t, c))
    (hwrite : Runs (gWrite ingressSrc p (landAt t c + (4096 * pkArg1 r.bytes - 12))
      (if pkArg1 r.bytes = 0 then (pkBody r.bytes).drop 12 else pkBody r.bytes)) u o v) :
    Act.run (peerData r) s = Act.run (putChunk t { c with
      iv := if pkArg1 r.bytes = 0 then (pkBody r.bytes).take 12 else c.iv
      got := c.got + (pkBody r.bytes).length
      landed := decide (12 + ckStored (u.chunkLine t (pkArg0 r.bytes)) + 16 ≤ c.got + (pkBody r.bytes).length) }) v := by
  unfold peerData
  rw [run_onPacket h, ← hu]
  dsimp only
  rw [run_get_bind, hc]
  dsimp only
  rw [run_bind_of_runs u hwrite]

theorem run_peerNotHeld {s u : State} {r : RxPacket} {p : Nat} {t : StreamX} {c : ChunkX} (h : Receives s r 0x3A (some p))
    (hu : u = received s r) (hc : u.peerChunk p (pkSrc r.bytes) (pkArg0 r.bytes) = some (t, c)) :
    Act.run (peerNotHeld r) s = Act.run (do
      count C.BIN_CNT_PEER_MISS 1
      chunkNext t.part t.idx c.ix) u := by
  unfold peerNotHeld
  rw [run_onPacket h, ← hu]
  dsimp only
  rw [run_rd_bind, hc]

theorem peersServeChunks : PeersServeChunks := by
  refine ⟨fun s u r p hwin h hu => ⟨fun hslot => ?_, fun v k m owner base bs all hslot hm hdest hix hread hall => ?_⟩,
    fun s u v r p t c o hwin h hu hc hwrite => ?_, fun s u r p t c h hu hc => ?_⟩
  · rw [exec_peerReq, next_run_mains_served ⟨h.1, hwin⟩, run_peerReq_none h hu hslot]
  · rw [exec_peerReq, next_run_mains_served ⟨h.1, hwin⟩, run_peerReq_held h hu hslot hm hdest hix hread hall]
  · rw [exec_peerData, next_run_mains_served ⟨h.1, hwin⟩, run_peerData h hu hc hwrite]
  · rw [exec_peerNotHeld, next_run_mains h.1, run_peerNotHeld h hu hc]

/-- Settles O52 (it holds): a frame's commands act on the queue pair it names, resending turns on one loop over the outstanding
requests, and a peer's packets act on the chunk they name. -/
theorem chunksOverTheWire : Obligations.ChunksOverTheWire := ⟨queuePairs, peersServeChunks⟩

end Sys2Proof.Machine
end

section
/-! # Where memory accesses leave notes (R17, R241, R244, R386, R454) -/

namespace Sys2Proof.Machine

theorem WritesOnly.mono {α : Type} {P Q : Nat → Prop} {a : Act α} (h : WritesOnly P a) (hpq : ∀ r, P r → Q r) :
    WritesOnly Q a := fun s =>
  let ⟨x, t, r, q⟩ := h s
  ⟨x, t, r, fun b hb => q b fun hp => hb (hpq b hp)⟩

/-- The registers that a read of memory or a signal can write: records of refusals, the head of the violation log and the last
error of a site, all of them below 0x200 in their pages, and counters. -/
def AccessNote (a : Nat) : Prop := a % 0x1000 < 0x200 ∨ IsCounter a

theorem accessNote_regA {b : Block} {p off : Nat} (h : off < 0x200) : AccessNote (regA b p off) := by
  have hpage := pageBase_aligned b p
  refine .inl ?_
  unfold regA
  omega

theorem not_accessNote_regA {b : Block} {p off : Nat} (h : 0x200 ≤ off ∧ off < 0x800) : ¬ AccessNote (regA b p off) := by
  have hpage := pageBase_aligned b p
  unfold AccessNote IsCounter regA
  omega

theorem count_notes {b : Block} {p off n : Nat} (h : 0x800 ≤ off ∧ off < 0x1000) :
    WritesOnly AccessNote (count (regA b p off) n) :=
  count_writes (.inr (isCounter_regA h)) fun _ hr => .inr hr

theorem vlog_notes {kind addr info : Nat} : WritesOnly AccessNote (vlog kind addr info) :=
  .bind .rdF fun _ => .bind .rdF fun _ => .ite (count_notes (by decide)) (.bind .rdR fun _ => .bind .rdF fun _ =>
    .bind (.of_only (stBytes_only _ _) (by decide)) fun _ => .bind (wrF_writes (accessNote_regA (by decide))) fun _ =>
    count_notes (by decide))

theorem refuseMem_notes {src part addr reason : Nat} {write : Bool} :
    WritesOnly AccessNote (refuseMem src part addr write reason) := by
  have record {n : Nat} (hn : n ≤ 0x40) : AccessNote (sourcePage src + n) := by
    have haligned := sourcePage_aligned src
    exact .inl (by omega)
  have rest (_ : Unit) : WritesOnly AccessNote (do setIrq (sourcePage src) 0; vlog 1 addr (errInfo
      { source := src, hay := false, part := some part } (if write then 2 else 1) reason)) :=
    .bind (setIrq_writes (record (by decide))) fun _ => vlog_notes
  exact .bind .rdF fun _ => .ite
    (.bind (.wrR (record (by decide))) fun _ => .bind .rdF fun _ => .bind (.wrR (record (by decide))) rest)
    (.bind (wrF_writes (record (by decide))) rest)

theorem signalTile_notes {src part target value : Nat} : WritesOnly AccessNote (signalTile src part target value) := by
  refine .bind .rd fun e => ?_
  split
  · exact .of_only (tileWrite_only _ _ _) (by decide)
  · exact refuseMem_notes

theorem eccLast_notes {site kind chan sector : Nat} : WritesOnly AccessNote (eccLast site kind chan sector) :=
  have note : AccessNote (R.GDC_ECC_LAST site) := accessNote_regA (by decide)
  .bind (wrF_writes note) fun _ => .bind (wrF_writes note) fun _ => wrF_writes note

theorem noteSector_notes {l : GLoc} {len : Nat} {rebuilds : Bool} : WritesOnly AccessNote (noteSector l len rebuilds) := by
  have rebuilt {site chan sector : Nat} : WritesOnly AccessNote (do count (C.GDC_CNT_RECON site) 1; eccLast site 1 chan sector) :=
    .bind (count_notes (by decide)) fun _ => eccLast_notes
  have read {c : Prop} [Decidable c] {site chan sector n : Nat} : WritesOnly AccessNote (do
      count (C.GDC_CNT_RD_BYTES site) n
      if c then
        count (C.GDC_CNT_RECON site) 1
        eccLast site 1 chan sector) := .bind (count_notes (by decide)) fun _ => .ite rebuilt .pure
  exact .bind .get fun _ => .ite (.bind (count_notes (by decide)) fun _ => read) read

theorem gRead_notes {src part addr len : Nat} : WritesOnly AccessNote (gRead src part addr len) := by
  refine .bind .get fun s => ?_
  split
  · refine .bind (.forIn fun r _ => ?_) fun _ => .pure
    split
    · exact .bind noteSector_notes fun _ => .pure
    · exact .bind (.of_only (Only.skip []) (by decide)) fun _ => .pure
  · exact .ite (.bind refuseMem_notes fun _ => .pure) .pure

/-- A read leaves every register but those in which accesses leave notes. -/
theorem spRead_notes {src part space addr len : Nat} : WritesOnly AccessNote (spRead src part space addr len) := by
  unfold spRead
  split
  · refine .bind .rd fun e => ?_
    split
    · exact .bind refuseMem_notes fun _ => .pure
    · exact .bind (.of_only (ldBytes_only _ _) (by decide)) fun _ => .pure
  · exact gRead_notes
  · refine .bind .rd fun e => ?_
    split
    · exact .bind refuseMem_notes fun _ => .pure
    · exact .bind (.of_only (ldBytes_only _ _) (by decide)) fun _ => .pure
  · exact .pure

theorem WritesOnly.runs_reg {α : Type} {P : Nat → Prop} {a : Act α} {s t : State} {x : α} (h : WritesOnly P a)
    (hr : Runs a s x t) {r : Nat} (hp : ¬ P r) : t.reg r = s.reg r :=
  let ⟨_, _, e, q⟩ := h s
  e.state_unique hr ▸ q r hp

end Sys2Proof.Machine
end

section
/-! # Manifests and keys (R296 to R300) -/

namespace Sys2Proof.Machine

/-! ## The front of a load queue -/

theorem loadHead_of_front {s : State} {p op i : Nat} {e : List Byte} (h : LoadFront s p op i e) :
    s.loadHead p op = some (i, e) := by
  obtain ⟨-, hturn, hi, hne, he, hop, -⟩ := h
  unfold State.loadHead State.loadFront
  rw [hturn, Bool.not_true, if_neg Bool.false_ne_true, ← hi, if_neg hne, ← he]
  exact if_neg fun h => h.1 hop

theorem run_loadTake {s : State} {p op i : Nat} {e : List Byte} (h : LoadFront s p op i e) (k : Nat → List Byte → Act Unit) :
    Act.run (loadTake p op k) s = Act.run (k i e) (ldqTaken s p) := by
  unfold loadTake
  rw [run_rd_bind, loadHead_of_front h]
  obtain ⟨-, -, rfl, -, -, -, hgood⟩ := h
  dsimp only
  rw [run_wrF_bind, if_pos hgood]
  rfl

theorem load_ldqTaken (s : State) (p : Nat) : (ldqTaken s p).load = s.load := rfl

theorem sameBut_ldqTaken (s : State) (p : Nat) : SameBut [.regs] s (ldqTaken s p) := SameBut.upd _ s rfl

theorem regsBut_ldqTaken (s : State) (p : Nat) : RegsBut [R.PRT_LDQ_HEAD p] s (ldqTaken s p) := regsBut_upd_reg _ _ s

theorem reg_ldqTaken {s : State} {p : Nat} {b : Block} {k off : Nat} (h : off ≠ 0x630 ∧ off < 0x1000) :
    (ldqTaken s p).reg (regA b k off) = s.reg (regA b k off) :=
  regsBut_ldqTaken s p _ (List.not_mem_cons_of_ne_of_not_mem (regA_ne_of_off (by omega)) List.not_mem_nil)

theorem now_ldqTaken (s : State) (p : Nat) : (ldqTaken s p).now = s.now := congrArg BitVec.toNat (reg_ldqTaken (by decide))

theorem fldOf_binBase_ldqTaken (s : State) (p : Nat) {b : Nat} (hb : b < 2) (f : Fld) :
    (ldqTaken s p).fldOf (R.BIN_BASE b) f = s.fldOf (R.BIN_BASE b) f := by
  rw [binBase_eq]
  exact congrArg (getFld · f) (reg_ldqTaken (by omega))

theorem man_ldqTaken (s : State) (p j : Nat) : (ldqTaken s p).man j = s.man j := rfl

/-- What a read of memory leaves of a load queue's configuration. -/
theorem ldqKey_spRead {s t : State} {p i src part space addr len : Nat} {x : Except Nat (List Byte)}
    (h : Runs (spRead src part space addr len) s x t) : t.ldqKey p i = s.ldqKey p i := by
  have hreg : t.reg (R.PRT_LDQ_CFG p) = s.reg (R.PRT_LDQ_CFG p) :=
    spRead_notes.runs_reg h (not_accessNote_regA (by decide))
  simp only [State.ldqKey, State.fldOf, hreg]

theorem load_spRead {s t : State} {src part space addr len : Nat} {x : Except Nat (List Byte)}
    (h : Runs (spRead src part space addr len) s x t) : t.load = s.load :=
  ((spRead_only _ _ _ _ _).runs_sameBut h).2 .load (by decide)

theorem sec_spRead {s t : State} {src part space addr len : Nat} {x : Except Nat (List Byte)}
    (h : Runs (spRead src part space addr len) s x t) : t.sec = s.sec :=
  ((spRead_only _ _ _ _ _).runs_sameBut h).2 .sec (by decide)

/-! ## VERIFY (R297) -/

theorem run_verify {s u v : State} {p : PartId} {i slot : Nat} {e h m : List Byte} (hf : LoadFront s p 1 i e)
    (hh : Runs (spRead ingressSrc p (refSpace (leAddr e)) (refAddr (leAddr e)) 64) (ldqTaken s p) (.ok h) u)
    (hm : Runs (spRead ingressSrc p (refSpace (leAddr e)) (refAddr (leAddr e)) (mfSigned h + 3373)) u (.ok m) v)
    (hslot : lowestFree 16 (s.load.mans.map (·.slot)) = some slot) :
    Act.run (verify p) s = Act.run (
      if mfGood m = true ∧ s.sec.ownerKeys.any (fun k => bit k.1 p &&
          Config.sigOk k.2 (m.take (mfSigned m)) (m.drop (mfSigned m))) = true then do
        modLoad (fun x => { x with mans := x.mans ++ [{ slot := slot, owner := p, bytes := m }] })
        hubStore p (v.ldqKey p i + 4) (leBytes 1 slot)
        loadEnd p i 0 0
      else loadEnd p i 1 2) v := by
  have hload : v.load = s.load := (load_spRead hm).trans ((load_spRead hh).trans (load_ldqTaken s p))
  have hsec : v.sec = s.sec := (sec_spRead hm).trans ((sec_spRead hh).trans ((sameBut_ldqTaken s p).2 .sec (by decide)))
  unfold verify
  rw [run_loadTake hf, run_bind_of_runs _ hh]
  dsimp only
  rw [run_bind_of_runs _ hm]
  dsimp only
  rw [run_get_bind, hsec, hload, hslot]
  generalize s.sec.ownerKeys.any _ = signed
  by_cases hgood : mfGood m = true ∧ signed = true
  · rw [if_neg (by simp [hgood]), if_pos hgood]
  · rw [if_pos (by cases hm : mfGood m <;> simp_all), if_neg hgood]

/-! ## What ends an entry -/

/-- The ingress state but for the entries that have ended. -/
def State.loadKept (s : State) : LoadX := { s.load with finished := [] }

theorem keeps_modLoad_finished {f : LoadX → List (Nat × Nat)} :
    Keeps State.loadKept (modLoad (fun x => { x with finished := f x })) := .rd_upd fun _ => rfl

theorem keeps_of_only {α : Type} {a : Act α} {l : List Field} (h : Only l a) (hl : Field.load ∉ l) : Keeps State.loadKept a :=
  .of_only h fun _ _ q => congrArg (fun x : LoadX => { x with finished := [] }) (q.2 .load hl)

theorem keeps_ldqAdvance (p fuel : Nat) : Keeps State.loadKept (ldqAdvance p fuel) := by
  induction fuel with
  | zero => exact .pure
  | succ fuel ih =>
    exact .bind .get fun _ => .ite (.bind keeps_modLoad_finished fun _ =>
      .bind (keeps_of_only (wrF_only _ _ _) (by decide)) fun _ => ih) .pure

theorem keeps_loadEnd (p i st detail : Nat) : Keeps State.loadKept (loadEnd p i st detail) := by
  have rest (_ : Unit) : Keeps State.loadKept (do
      modLoad (fun x => { x with finished := x.finished ++ [(p, i)] })
      showIngress
      ldqAdvance p 64) :=
    .bind keeps_modLoad_finished fun _ => .bind (keeps_of_only showIngress_only (by decide)) fun _ => keeps_ldqAdvance p 64
  exact .bind .get fun _ => .bind (keeps_of_only (hubStore_only _ _ _) (by decide)) fun _ =>
    .ite (.bind (keeps_of_only (signalTile_only _ _ _ _) (by decide)) rest) (rest ())

/-- Of the ingress state the end of an entry changes only which entries have ended. -/
theorem load_loadEnd (p i st detail : Nat) (s : State) :
    ∃ l, (Act.run (loadEnd p i st detail) s).load = { s.load with finished := l } := by
  obtain ⟨t, ht⟩ : ∃ t, Act.run (loadEnd p i st detail) s = t := ⟨_, rfl⟩
  have hkept : t.loadKept = s.loadKept := ht ▸ (keeps_loadEnd p i st detail).run s
  refine ⟨t.load.finished, ?_⟩
  rw [ht]
  exact congrArg (fun x : LoadX => { x with finished := t.load.finished }) hkept

/-- The end of an entry shows in BIN_ENG_STATUS and in the queue's head, beside the notes of its signal. -/
theorem loadEnd_writes (p i st detail : Nat) :
    WritesOnly (fun a => AccessNote a ∨ a = R.PRT_LDQ_HEAD p) (loadEnd p i st detail) := by
  have advance (fuel : Nat) : WritesOnly (fun a => AccessNote a ∨ a = R.PRT_LDQ_HEAD p) (ldqAdvance p fuel) := by
    induction fuel with
    | zero => exact .pure
    | succ fuel ih =>
      exact .bind .get fun _ => .ite (.bind (.of_only (modLoad_only _) (by decide)) fun _ =>
        .bind (wrF_writes (.inr rfl)) fun _ => ih) .pure
  have shown : AccessNote R.BIN_ENG_STATUS := accessNote_regA (by decide)
  have rest (_ : Unit) : WritesOnly (fun a => AccessNote a ∨ a = R.PRT_LDQ_HEAD p) (do
      modLoad (fun x => { x with finished := x.finished ++ [(p, i)] })
      showIngress
      ldqAdvance p 64) :=
    .bind (.of_only (modLoad_only _) (by decide)) fun _ => .bind (.bind .rd fun _ =>
      .bind (wrF_writes (.inl shown)) fun _ => wrF_writes (.inl shown)) fun _ => advance 64
  exact .bind .get fun _ => .bind (.of_only (hubStore_only _ _ _) (by decide)) fun _ =>
    .ite (.bind (signalTile_notes.mono fun _ h => .inl h) rest) (rest ())

theorem baseState_loadEnd {p i st detail b : Nat} (hb : b < 2) (s : State) :
    (Act.run (loadEnd p i st detail) s).baseState b = s.baseState b := by
  refine (loadEnd_writes p i st detail).fldOf s ?_ _
  rw [binBase_eq]
  rintro (h | h)
  · exact not_accessNote_regA (by omega) h
  · exact regA_ne_of_off (by omega) h

/-! ## DROP (R297) -/

/-- A manifest slot that nothing refers to is freed. -/
theorem run_dropManifest {s : State} {p : PartId} {i : Nat} {e : List Byte} {m : ManSlot} (hf : LoadFront s p 2 i e)
    (hm : s.man (leMslot e) = some m) (howner : m.owner = p) (hkeys : s.load.keys.any (fun k => k.mslot = m.slot) = false)
    (hbases : ∀ b, b < 2 → s.baseState b ≠ 0 → s.fldOf (R.BIN_BASE b) F.BIN_BASE.mslot ≠ m.slot) :
    Act.run (dropManifest p) s = Act.run (loadEnd p i 0 0) ((Upd.load { s.load with
      mans := s.load.mans.filter (fun d => d.slot ≠ m.slot) }).apply (ldqTaken s p)) := by
  have hfree : [0, 1].any (fun b => (ldqTaken s p).baseState b ≠ 0 &&
      (ldqTaken s p).fldOf (R.BIN_BASE b) F.BIN_BASE.mslot = m.slot) = false := by
    rw [List.any_eq_false]
    intro b hb
    have hb2 : b < 2 := by
      simp only [List.mem_cons, List.not_mem_nil, or_false] at hb
      omega
    simpa [State.baseState, fldOf_binBase_ldqTaken s p hb2] using hbases b hb2
  unfold dropManifest
  rw [run_loadTake hf, run_get_bind, man_ldqTaken, hm]
  dsimp only
  rw [load_ldqTaken, hkeys, hfree, if_neg (by simp [howner]), run_modLoad_bind, load_ldqTaken]

/-! ## Key requests (R298) -/

/-- Counting on the fresh numbers makes another state. -/
theorem free_counted_ne (s : State) : s ≠ (Upd.free (s.free + 1)).apply s := fun h =>
  absurd (congrArg State.free h) (Nat.succ_ne_self _).symm

/-- An action goes on with one value. -/
theorem Runs.value_unique {α : Type} {a : Act α} {s t u : State} {x y : α} (h : Runs a s x t) (k : Runs a s y u) : x = y := by
  classical
  by_contra hne
  have hcont := (h fun z => if z = x then .halt else .upd (.free (t.free + 1)) .halt).symm.trans
    (k fun z => if z = x then .halt else .upd (.free (t.free + 1)) .halt)
  rw [if_pos rfl, if_neg (Ne.symm hne), ← h.state_unique k] at hcont
  exact free_counted_ne t hcont

/-- A read followed by a fresh number comes apart. -/
theorem runs_spRead_freshNat {s u : State} {src part space addr len priv : Nat} {x : Except Nat (List Byte)}
    (h : Runs (do
      let n ← spRead src part space addr len
      let k ← freshNat
      pure (n, k)) s (x, priv) u) : ∃ w, Runs (spRead src part space addr len) s x w ∧ Runs freshNat w priv u := by
  obtain ⟨y, w, hread, -⟩ := spRead_only src part space addr len s
  obtain ⟨k, v, hfresh, -⟩ := freshNat_only w
  have hboth := hread.bind (f := fun n => do let k ← freshNat; pure (n, k)) (hfresh.bind (Runs.pure (y, k) v))
  obtain ⟨rfl, rfl⟩ := Prod.mk.inj (hboth.value_unique h)
  exact ⟨w, hread, hboth.state_unique h ▸ hfresh⟩

theorem run_keyRequest {s u v : State} {p : PartId} {i priv : Nat} {e nonce r : List Byte} {m : ManSlot}
    (hf : LoadFront s p 3 i e) (hm : s.man (leMslot e) = some m) (howner : m.owner = p) (hshard : leShard e < mfShards m.bytes)
    (hroom : s.load.reqs.length < 16)
    (hread : Runs (do
      let n ← spRead ingressSrc p (refSpace (leAddr e)) (refAddr (leAddr e)) 32
      let k ← freshNat
      pure (n, k)) (ldqTaken s p) (.ok nonce, priv) u)
    (hr : r = u.report 2 nonce none (m.digest ++ leBytes 4 (leShard e) ++ leBytes 8 (s.load.reqNo + 1) ++
      leBytes 1216 (Config.kemPublic priv)))
    (hwrite : Runs (spWrite ingressSrc p (refSpace (leAux e)) (refAddr (leAux e)) r) u none v) :
    Act.run (keyRequest p) s = Act.run (do
      modLoad (fun x => { x with
        reqNo := s.load.reqNo + 1
        reqs := x.reqs ++ [{ num := s.load.reqNo + 1, part := p, digest := m.digest, shard := leShard e, priv := priv
                             since := s.now }] })
      loadEnd p i 0 0) v := by
  subst hr
  obtain ⟨w, hnonce, hfresh⟩ := runs_spRead_freshNat hread
  unfold keyRequest
  rw [run_loadTake hf, run_get_bind, man_ldqTaken, hm]
  dsimp only
  rw [load_ldqTaken, now_ldqTaken, if_neg (by omega), if_neg (by omega), run_bind_of_runs _ hnonce]
  dsimp only
  rw [run_bind_of_runs _ hfresh, run_rd_bind, run_bind_of_runs _ hwrite]

theorem run_keyTimeout (num : Nat) (s : State) : Act.run (keyTimeout num) s = (Upd.load { s.load with
    reqs := s.load.reqs.filter (fun r =>
      !(r.num = num && decide (r.since + s.fldOf R.BIN_ENG_CFG F.BIN_ENG_CFG.key_timeout_s * 1000000000 ≤ s.now))) }).apply s := by
  unfold keyTimeout
  rw [run_get_bind, run_modLoad]

/-! ## KEY_INSTALL (R299) -/

theorem run_keyInstall {s v : State} {p : PartId} {i slot : Nat} {e b : List Byte} {m : ManSlot} {r : KeyReq}
    (hf : LoadFront s p 4 i e) (hm : s.man (leMslot e) = some m) (howner : m.owner = p)
    (hread : Runs (spRead ingressSrc p (refSpace (leAddr e)) (refAddr (leAddr e)) 1220) (ldqTaken s p) (.ok b) v)
    (hr : s.load.reqs.find? (fun r => r.part = p.val && r.num = numAt b 52 8 && r.digest = bytesAt b 0 48 &&
      r.shard = numAt b 48 4 && r.digest = m.digest && r.shard = leShard e) = some r)
    (hslot : lowestFree 128 (s.load.keys.map (·.slot)) = some slot) :
    Act.run (keyInstall p) s = Act.run (match shardKey r b with
      | none => loadEnd p i 1 3
      | some key => do
        modLoad (fun x => { x with
          reqs := x.reqs.filter (fun d => d.num ≠ r.num)
          keys := x.keys ++ [{ slot := slot, owner := p, mslot := m.slot, shard := r.shard, key := key }] })
        hubStore p (v.ldqKey p i + 5) (leBytes 1 slot)
        loadEnd p i 0 0) v := by
  unfold keyInstall
  rw [run_loadTake hf, run_get_bind, man_ldqTaken, hm]
  dsimp only
  rw [load_ldqTaken, if_neg (not_not.2 howner), run_bind_of_runs _ hread]
  dsimp only
  rw [hr]
  dsimp only
  cases shardKey r b with
  | none => rfl
  | some key =>
    dsimp only
    rw [hslot, ldqKey_spRead hread]

/-! ## The commands -/

theorem exec_verify (p : PartId) (s : State) : exec (.verify p) s = .next (Act.run (mains (served (verify p))) s) := rfl

theorem exec_drop (p : PartId) (s : State) : exec (.drop p) s = .next (Act.run (mains (dropManifest p)) s) := rfl

theorem exec_keyRequest (p : PartId) (s : State) :
    exec (.keyRequest p) s = .next (Act.run (mains (served (keyRequest p))) s) := rfl

theorem exec_keyRequestTimeout (num : Nat) (s : State) :
    exec (.keyRequestTimeout num) s = .next (Act.run (mains (keyTimeout num)) s) := rfl

theorem exec_keyInstall (p : PartId) (s : State) :
    exec (.keyInstall p) s = .next (Act.run (mains (served (keyInstall p))) s) := rfl

theorem manifestsAndKeys : ManifestsAndKeys := by
  refine ⟨fun s u v p i slot e h m hf hh hm hslot => ?_, fun s p i e m hf hm howner hkeys hbases => ?_,
    fun s u v p i e nonce r m priv hf hm howner hshard hroom hread hr hwrite => ?_, fun s num hup => ?_,
    fun s v p i slot e b m r hf hm howner hread hr hslot => ?_⟩
  · rw [exec_verify, next_run_mains_served hf.1, run_verify hf hh hm hslot]
  · obtain ⟨l, hl⟩ := load_loadEnd p i 0 0 ((Upd.load { s.load with
      mans := s.load.mans.filter (fun d => d.slot ≠ m.slot) }).apply (ldqTaken s p))
    refine ⟨_, l, ?_, hl⟩
    rw [exec_drop, next_run_mains hf.1.1, run_dropManifest hf hm howner hkeys hbases]
  · rw [exec_keyRequest, next_run_mains_served hf.1, run_keyRequest hf hm howner hshard hroom hread hr hwrite]
  · rw [exec_keyRequestTimeout, next_run_mains hup, run_keyTimeout]
  · exact (exec_keyInstall p s).trans ((next_run_mains_served hf.1 _).trans
      (congrArg _ (run_keyInstall hf hm howner hread hr hslot)))

end Sys2Proof.Machine
end

section
/-! # Loads and their chunks (R300 to R304, R314) -/

namespace Sys2Proof.Machine

/-! ## LOAD (R301, R302) -/

/-- A LOAD that keeps its rules has taken a stream (R302); a base slot that it fills goes LOADING (R314). -/
def streamTaken (s : State) (p i : Nat) (e d bt : List Byte) (m : ManSlot) : Act Unit := do
  wrF (R.PRT_LDQ_HEAD p) F.PRT_LDQ_HEAD.started (i + 1)
  modLoad (fun x => { x with
    streams := x.streams ++ [{ part := p, idx := i, mslot := m.slot, kslot := leKslot e, shard := leShard e
                               binds := bindings bt (mfSources m.bytes), peers := lePeers e, toFlash := decide (obTier d = 2)
                               dest := obBase d, landing := leLanding e
                               base := if leBase e then some (leBaseSlot e) else none }] })
  if leBase e then
    wrF (R.BIN_BASE (leBaseSlot e)) F.BIN_BASE.mslot m.slot
    if s.baseState (leBaseSlot e) = 0 then setBaseState (leBaseSlot e) 1
  showIngress
  streamFill p i 16

theorem run_loadStart {s u v : State} {p : PartId} {i : Nat} {e d bt : List Byte} {m : ManSlot} {k : KeySlot}
    (hf : LoadFront s p 5 i e) (hfree : s.load.streams.length < 64) (hm : s.man (leMslot e) = some m) (howner : m.owner = p)
    (hshard : leShard e < mfShards m.bytes) (hk : s.keySlot (leKslot e) = some k) (hkowner : k.owner = p)
    (hkman : k.mslot = m.slot) (hkshard : k.shard = leShard e) (hplace : PlaceRead s u ingressSrc p (leAddr e) d)
    (htier : obTier d ≠ 0) (hbase : leBase e = true → s.baseTakes p (leBaseSlot e) = true)
    (hrange : s.loadRangeBad p d (shBytes (mfShard m.bytes (leShard e))) (leLanding e) = false)
    (hread : Runs (spRead ingressSrc p (refSpace (leAux e)) (refAddr (leAux e)) (16 * mfSources m.bytes)) u (.ok bt) v)
    (hdest : s.destTaken p (obTier d = 2) (obBase d) (shBytes (mfShard m.bytes (leShard e))) = false) :
    Act.run (loadStart p) s = Act.run (streamTaken s p i e d bt m) v := by
  have hgood : leGood e = true := hf.2.2.2.2.2.2
  have hslot : ¬ (obTier d = 0 ∨ leBase e = true ∧ (!s.baseTakes p (leBaseSlot e)) = true) := by
    rintro (h | ⟨h, h'⟩)
    · exact htier h
    · rw [hbase h] at h'
      exact Bool.false_ne_true h'
  unfold loadStart
  rw [run_get_bind, loadHead_of_front hf]
  dsimp only
  rw [hgood, Bool.true_and, if_neg (by simpa using hfree), Bool.not_true, if_neg Bool.false_ne_true, hm]
  dsimp only
  rw [if_neg (by omega), hk]
  dsimp only
  rw [if_neg (by simp [hkowner, hkman, hkshard]), run_bind_of_runs _ hplace.runs]
  dsimp only
  rw [if_neg hslot, hrange, if_neg Bool.false_ne_true, run_bind_of_runs _ hread]
  dsimp only
  rw [hdest, if_neg Bool.false_ne_true]
  rfl

/-! ## Chunks (R303, R304) -/

theorem run_chunkLanded {s u : State} {p i ix wire : Nat} {t : StreamX} {c : ChunkX} {ct : List Byte} (ht : s.stream p i = some t)
    (hc : t.chunks.find? (fun c => c.ix = ix && c.landed && !c.flash) = some c)
    (hwire : wire = (if c.attempt < t.binds.length then ckWire (s.chunkLine t ix) else ckStored (s.chunkLine t ix)))
    (hread : Runs (gRead ingressSrc p (landAt t c) (wire + 16)) s (.ok ct) u) :
    Act.run (chunkLanded p i ix) s = Act.run (do
      count C.BIN_CNT_ENGINE_BYTES wire
      match s.chunkOpen t c ct with
      | .error a =>
        count a 1
        chunkNext p i ix
      | .ok bs =>
        count C.BIN_CNT_CHUNKS 1
        if t.binds.length ≤ c.attempt then count C.BIN_CNT_PEER_COPY 1
        if t.toFlash then
          let _ ← gWrite ingressSrc p (landAt t c + 5242880) (bytesAt bs 0 (roundUp bs.length 65536))
          putChunk t { c with flash := true }
          let cmd := chunkWrite s t c bs p i ix
          modFlash (fun x => { x with cmds := x.cmds ++ [cmd] })
          writeUnit cmd
          logPump
        else
          match ← gWrite ingressSrc p (t.dest + ix * chunkBytes) bs with
          | some _ => chunkReturn t c 3 0
          | none => chunkReturn t c 0 0
          streamFill p i 16) u := by
  subst hwire
  unfold chunkLanded
  rw [run_get_bind, ht]
  dsimp only
  rw [hc]
  dsimp only
  rw [run_bind_of_runs _ hread]
  rfl

theorem run_chunkTimeout {s : State} {p i ix : Nat} {t : StreamX} {c : ChunkX} (ht : s.stream p i = some t)
    (hc : t.chunks.find? (fun c => c.ix = ix && !c.landed) = some c)
    (hlate : c.since + s.fldOf R.BIN_ENG_CFG F.BIN_ENG_CFG.chunk_timeout_ms * 1000000 ≤ s.now) :
    Act.run (chunkTimeout p i ix) s = Act.run (do
      count (if c.attempt < t.binds.length then C.BIN_CNT_SOURCE_TIMEOUT else C.BIN_CNT_PEER_MISS) 1
      chunkNext p i ix) s := by
  unfold chunkTimeout
  rw [run_get_bind, ht]
  dsimp only
  rw [hc]
  exact congrArg (Act.run · s) (if_pos hlate)

/-! ## LOAD_DONE (R302, R314) -/

/-- A stream that has begun all its chunks and has none in hand starts nothing. -/
theorem run_flashReturns_idle {s : State} {p i : Nat} {t : StreamX} (ht : s.stream p i = some t) (hnone : t.chunks = [])
    (hnext : t.next = s.streamChunks t) : Runs (flashReturns p i) s () s := by
  have hfill : Runs (streamFill p i 16) s () s := by
    unfold streamFill
    refine (Runs.get s).bind ?_
    rw [ht]
    dsimp only
    rw [if_neg (Nat.lt_irrefl _ <| hnext ▸ ·)]
    exact Runs.pure _ s
  unfold flashReturns
  refine (Runs.get s).bind ?_
  rw [ht]
  dsimp only
  rw [hnone]
  exact hfill

/-- The ingress state once a stream is released: a key whose LOAD ended OK knows where its shard stands (R302). -/
def releasedLoad (x : LoadX) (p i : Nat) (t : StreamX) : LoadX :=
  { x with
    streams := x.streams.filter (fun d => !(d.part = p && d.idx = i))
    keys := x.keys.map (fun k => if k.slot = t.kslot ∧ t.status = 0 then
      { k with
        dest := if t.toFlash then none else some (p, t.dest)
        base := t.base } else k) }

/-- A base slot that was LOADING goes VERIFIED, or FAILED where its LOAD did not end well (R314). -/
def baseLoaded (s : State) (t : StreamX) : Act Unit := match t.base with
  | some b => do
    if s.baseState b = 1 then setBaseState b (if t.status = 0 then 2 else 5)
    if t.status = 0 then wrF (R.BIN_BASE b) F.BIN_BASE.resident 1
  | none => skip

theorem baseLoaded_only (s : State) (t : StreamX) : Only [.regs] (baseLoaded s t) := by
  have resident (b : Nat) : Only [.regs] (if t.status = 0 then wrF (R.BIN_BASE b) F.BIN_BASE.resident 1 else pure ()) :=
    .ite (wrF_only _ _ _) (.pure _ _)
  unfold baseLoaded
  split
  · exact .ite (.bind (setBaseState_only _ _) fun _ => resident _) (resident _)
  · exact .skip _

theorem run_loadDone {s : State} {p i : Nat} {t : StreamX} (ht : s.stream p i = some t) (hnone : t.chunks = [])
    (hret : t.returned = s.streamChunks t) (hnext : t.next = s.streamChunks t) :
    Act.run (loadDone p i) s = Act.run (loadEnd p i t.status t.detail)
      (Act.run (baseLoaded s t) ((Upd.load (releasedLoad s.load p i t)).apply s)) := by
  rw [← (baseLoaded_only s t).run_bind fun _ => loadEnd p i t.status t.detail]
  unfold loadDone
  rw [run_bind_of_runs _ (run_flashReturns_idle ht hnone hnext), run_get_bind, ht]
  dsimp only
  rw [if_neg (hret ▸ Nat.lt_irrefl _), run_modLoad_bind]
  change Act.run _ ((Upd.load (releasedLoad s.load p i t)).apply s) = _
  generalize (Upd.load (releasedLoad s.load p i t)).apply s = u
  unfold baseLoaded
  cases t.base with
  | none => rfl
  | some b => simp only [Act.ite_bind, bind_assoc, pure_bind]

theorem baseState_baseLoaded {s u : State} {t : StreamX} {b : Nat} (hb : t.base = some b) (hs : s.baseState b = 1) :
    (Act.run (baseLoaded s t) u).baseState b = if t.status = 0 then 2 else 5 := by
  unfold baseLoaded
  rw [hb]
  dsimp only
  rw [if_pos hs, (setBaseState_only _ _).run_bind]
  have hloaded : (Act.run (setBaseState b (if t.status = 0 then 2 else 5)) u).baseState b = if t.status = 0 then 2 else 5 :=
    (fldOf_put_self _ _ _ _ (by decide)).trans (by split <;> rfl)
  by_cases h : t.status = 0
  · rw [if_pos h]
    exact (fldOf_put_ne _ _ _ _ _ (by decide) (by decide)).trans hloaded
  · rw [if_neg h]
    exact hloaded

theorem exec_load (p : PartId) (s : State) : exec (.load p) s = .next (Act.run (mains (served (loadStart p))) s) := rfl

theorem exec_chunkLanded (p : PartId) (i ix : Nat) (s : State) :
    exec (.chunkLanded p i ix) s = .next (Act.run (mains (served (chunkLanded p i ix))) s) := rfl

theorem exec_chunkTimeout (p : PartId) (i ix : Nat) (s : State) :
    exec (.chunkTimeout p i ix) s = .next (Act.run (mains (chunkTimeout p i ix)) s) := rfl

theorem exec_loadDone (p : PartId) (i : Nat) (s : State) :
    exec (.loadDone p i) s = .next (Act.run (mains (loadDone p i)) s) := rfl

theorem loadStreams : LoadStreams := by
  refine ⟨fun s u v p i e d bt m k hf hfree hm howner hshard hk hkowner hkman hkshard hplace htier hbase hrange hread hdest => ?_,
    fun s u p i ix wire t c ct hclear ht hc hwire hread => ?_, fun s p i ix t c hup ht hc hlate => ?_,
    fun s p i t hup ht hnone hret hnext => ?_⟩
  · exact (exec_load p s).trans ((next_run_mains_served hf.1 _).trans (congrArg _ (run_loadStart hf hfree hm howner hshard hk
      hkowner hkman hkshard hplace htier hbase hrange hread hdest)))
  · exact (exec_chunkLanded p i ix s).trans ((next_run_mains_served hclear _).trans
      (congrArg _ (run_chunkLanded ht hc hwire hread)))
  · rw [exec_chunkTimeout, next_run_mains hup, run_chunkTimeout ht hc hlate]
  · obtain ⟨w, hw⟩ : ∃ w, Act.run (baseLoaded s t) ((Upd.load (releasedLoad s.load p i t)).apply s) = w := ⟨_, rfl⟩
    have hload : w.load = releasedLoad s.load p i t := hw ▸ ((baseLoaded_only s t).run _).2 .load (by decide)
    obtain ⟨l, hl⟩ := load_loadEnd p i t.status t.detail w
    refine ⟨_, l, (exec_loadDone p i s).trans ((next_run_mains hup _).trans
      (congrArg _ (run_loadDone ht hnone hret hnext))), fun b hb2 hb hs => ?_, ?_⟩
    · exact (baseState_loadEnd hb2 _).trans (baseState_baseLoaded hb hs)
    · rw [hw, hl, hload]
      rfl

/-- Settles O51 (it holds): each command of the load queue acts on the front entry once it is taken, chunks and streams are
looked up as the statement names them, and the end of an entry leaves the rest of the ingress state and the base slots. -/
theorem weightLoads : Obligations.WeightLoads := ⟨manifestsAndKeys, loadStreams⟩

end Sys2Proof.Machine
end

section
/-! # A meaning is one run of an action -/

namespace Sys2Proof.Machine

theorem exec_eq_run (c : Instr) : ∃ a : Act Unit, ∀ s, exec c s = .next (Act.run a s) := by
  cases c <;> exact ⟨_, fun _ => rfl⟩

/-- So is a step: of the front command, or of one clock of fabric time, on the queue's rest. -/
theorem step_eq_run (s : State) : ∃ a : Act Unit, step s = .next (Act.run a { s with pending := s.pending.tail }) := by
  cases h : s.pending with
  | nil =>
    refine ⟨idleStep, ?_⟩
    simp only [step, h]
    rw [List.tail_nil, ← h]
  | cons c rest =>
    obtain ⟨a, ha⟩ := exec_eq_run c
    simp only [step, h]
    exact ⟨a, ha _⟩

/-- What every primitive update keeps of a state, and the queue has no part in, every step keeps. -/
theorem step_keeps (P : State → Prop) (hq : ∀ s q, P s → P { s with pending := q }) (hu : ∀ (u : Upd) (s : State), P s → P (u.apply s))
    {s t : State} (h : step s = .next t) (hs : P s) : P t := by
  obtain ⟨a, ha⟩ := step_eq_run s
  obtain rfl : _ = t := Host.Outcome.next.inj (ha.symm.trans h)
  exact Script.run_keeps P hu _ _ (hq _ _ hs)

/-- Settles O1 (it holds): by the step's definition. -/
theorem stepRunsFront : Obligations.StepRunsFront := by
  intro s c rest h
  simp only [step, h]

/-- Settles O5 (it holds): every store is empty at reset. -/
theorem resetIsCanonical : Obligations.ResetIsCanonical := rfl

/-- Settles O3 (it holds): a step is one run of an action, which touches no queue. -/
theorem everyStepGoesOn : Obligations.EveryStepGoesOn := fun s =>
  let ⟨a, ha⟩ := step_eq_run s
  ⟨_, ha, Act.run_pending a _⟩

/-- Settles O4 (it holds): a step is one run of an action, whose updates only append to what was sent. -/
theorem whatLeftStays : Obligations.WhatLeftStays := fun s t h => by
  obtain ⟨a, ha⟩ := step_eq_run s
  obtain rfl : _ = t := Host.Outcome.next.inj (ha.symm.trans h)
  exact Act.run_sent a _

/-- Settles O6 (it holds): the canonical form does not speak of the queue, and every primitive update keeps it. -/
theorem stepKeepsCanonicalForm : Obligations.StepKeepsCanonicalForm := fun _ _ hs h =>
  step_keeps (fun s => s.canonical = true) (fun _ _ hs => hs) Upd.keeps_canonical h hs

end Sys2Proof.Machine
end


section
/-! # What a command can change -/

namespace Sys2Proof.Machine

/-- Every command goes on, and leaves the queue and every field that is not its own as it was. -/
theorem exec_frame (c : Instr) (s : State) : ∃ t, exec c s = .next t ∧ SameBut (touches c) s t :=
  match c with
  | .registerWrite .. => execRegisterWrite_frame _ _ _ _ s
  | .timNowRead .. => execTimNowRead_frame _ s
  | .pageEnable .. => execPageEnable_frame _ _ _ s
  | .pageQuiesce .. => execPageQuiesce_frame _ _ _ s
  | .quiesceComplete .. => execQuiesceComplete_frame _ s
  | .pageLockWrite .. => execPageLockWrite_frame _ _ _ s
  | .schedTickWrite .. => execSchedTickWrite_frame _ _ _ s
  | .stagedWrite .. => execStagedWrite_frame _ _ _ s
  | .doorbellProducer .. => execDoorbellProducer_frame _ _ _ s
  | .doorbellConsumer .. => execDoorbellConsumer_frame _ _ _ s
  | .tickEdge .. => execTickEdge_frame _ _ s
  | .gmapShadowCopyDone => execGmapShadowCopyDone_frame s
  | .tileZeroDone .. => execTileZeroDone_frame _ s
  | .hubUnitZeroDone .. => execHubUnitZeroDone_frame _ _ s
  | .sliceZeroDone => execSliceZeroDone_frame s
  | .tickRunSet .. => execTickRunSet_frame _ s
  | .tickRunClear .. => execTickRunClear_frame _ s
  | .ptpSync .. => execPtpSync_frame _ _ _ _ _ _ _ s
  | .ptpFollowUp .. => execPtpFollowUp_frame _ _ _ _ _ _ s
  | .ptpAnnounce .. => execPtpAnnounce_frame _ _ _ _ s
  | .ptpDelayReq => execPtpDelayReq_frame s
  | .ptpDelayResp .. => execPtpDelayResp_frame _ _ _ _ _ _ s
  | .beacon .. => execBeacon_frame _ s
  | .syncLossTimeout => execSyncLossTimeout_frame s
  | .holdoverErrorLimit .. => execHoldoverErrorLimit_frame _ s
  | .stepStart .. => execStepStart_frame _ s
  | .barrierRelease .. => execBarrierRelease_frame _ s
  | .gleanPost .. => execGleanPost_frame _ _ _ s
  | .gleanCancel .. => execGleanCancel_frame _ _ s
  | .gleanOpen .. => execGleanOpen_frame _ _ _ s
  | .gleanClose .. => execGleanClose_frame _ _ _ _ _ _ _ s
  | .gleanSwapBack .. => execGleanSwapBack_frame _ _ s
  | .selftestStart .. => execSelftestStart_frame _ _ s
  | .selftestDone .. => execSelftestDone_frame _ _ s
  | .tileFail .. => execTileFail_frame _ _ s
  | .coreFail .. => execCoreFail_frame _ s
  | .meshInject .. => execMeshInject_frame _ _ _ _ _ s
  | .meshHoldRelease .. => execMeshHoldRelease_frame _ s
  | .meshHoldTimeout => execMeshHoldTimeout_frame s
  | .opqTailWrite .. => execOpqTailWrite_frame _ _ _ s
  | .opRetire .. => execOpRetire_frame _ _ _ s
  | .opSignal .. => execOpSignal_frame _ _ s
  | .opFlush .. => execOpFlush_frame _ _ _ s
  | .nop .. => execNop_frame _ s
  | .matmul .. => execMatmul_frame _ s
  | .finish .. => execFinish_frame _ s
  | .combine .. => execCombine_frame _ s
  | .vewAdd .. => execVewAdd_frame _ s
  | .vewSub .. => execVewSub_frame _ s
  | .vewMul .. => execVewMul_frame _ s
  | .vewFma .. => execVewFma_frame _ s
  | .vewMax .. => execVewMax_frame _ s
  | .vewMin .. => execVewMin_frame _ s
  | .vewConvert .. => execVewConvert_frame _ s
  | .actRelu .. => execActRelu_frame _ s
  | .actSigmoid .. => execActSigmoid_frame _ s
  | .actSilu .. => execActSilu_frame _ s
  | .actGeluTanh .. => execActGeluTanh_frame _ s
  | .actExp .. => execActExp_frame _ s
  | .actSwiglu .. => execActSwiglu_frame _ s
  | .normRms .. => execNormRms_frame _ s
  | .normLayer .. => execNormLayer_frame _ s
  | .rope .. => execRope_frame _ s
  | .reduceSum .. => execReduceSum_frame _ s
  | .reduceSumSquares .. => execReduceSumSquares_frame _ s
  | .reduceMax .. => execReduceMax_frame _ s
  | .reduceMin .. => execReduceMin_frame _ s
  | .reduceMaxAbs .. => execReduceMaxAbs_frame _ s
  | .quant .. => execQuant_frame _ s
  | .topk .. => execTopk_frame _ s
  | .select .. => execSelect_frame _ s
  | .gather .. => execGather_frame _ s
  | .scatter .. => execScatter_frame _ s
  | .sample .. => execSample_frame _ s
  | .attn .. => execAttn_frame _ s
  | .wait .. => execWait_frame _ s
  | .walkInv .. => execWalkInv_frame _ _ s
  | .qhistWrite .. => execQhistWrite_frame _ _ _ s
  | .ringContextWrite .. => execRingContextWrite_frame _ _ _ _ s
  | .ringIn .. => execRingIn_frame _ s
  | .admission .. => execAdmission_frame _ s
  | .cancel .. => execCancel_frame _ s
  | .mirrorConf .. => execMirrorConf_frame _ s
  | .mirrorTimeout .. => execMirrorTimeout_frame _ s
  | .stepArm .. => execStepArm_frame _ _ _ _ s
  | .cowCopyDone .. => execCowCopyDone_frame _ s
  | .stepCommit .. => execStepCommit_frame _ _ s
  | .commitResume .. => execCommitResume_frame _ s
  | .stepRollback .. => execStepRollback_frame _ _ s
  | .unpark .. => execUnpark_frame _ _ _ s
  | .listRelease .. => execListRelease_frame _ _ _ s
  | .prxShare .. => execPrxShare_frame _ _ _ _ s
  | .prxWithdraw .. => execPrxWithdraw_frame _ _ _ _ s
  | .prxKeyWrite .. => execPrxKeyWrite_frame _ _ _ _ _ s
  | .dmaEntry .. => execDmaEntry_frame _ s
  | .dmaEntryDone .. => execDmaEntryDone_frame _ s
  | .ringMsg .. => execRingMsg_frame _ s
  | .ringBusy .. => execRingBusy_frame _ s
  | .ringMsgRetry .. => execRingMsgRetry_frame _ s
  | .placeTailWrite .. => execPlaceTailWrite_frame _ _ _ s
  | .placeRequest .. => execPlaceRequest_frame _ s
  | .placeSignal .. => execPlaceSignal_frame _ s
  | .biasUpdate .. => execBiasUpdate_frame _ s
  | .biasReadyWrite .. => execBiasReadyWrite_frame _ s
  | .gddr7Read .. => execGddr7Read_frame _ _ _ _ _ _ _ s
  | .gddr7Write .. => execGddr7Write_frame _ _ _ _ s
  | .siteFail .. => execSiteFail_frame _ s
  | .scrubStripe .. => execScrubStripe_frame _ _ _ s
  | .retrainDue .. => execRetrainDue_frame _ _ s
  | .coverCatchup .. => execCoverCatchup_frame _ s
  | .wbLoad .. => execWbLoad_frame _ _ _ _ s
  | .wbFlush .. => execWbFlush_frame _ _ _ _ s
  | .wbEvict .. => execWbEvict_frame _ _ _ _ s
  | .wbDiscard .. => execWbDiscard_frame _ _ _ _ s
  | .wbCommandDone .. => execWbCommandDone_frame _ s
  | .writeThroughFlush .. => execWriteThroughFlush_frame _ _ s
  | .migStart .. => execMigStart_frame _ _ s
  | .migAbort .. => execMigAbort_frame _ _ s
  | .migCopyDone => execMigCopyDone_frame s
  | .flqTailWrite .. => execFlqTailWrite_frame _ _ _ s
  | .flashRead .. => execFlashRead_frame _ s
  | .flashWrite .. => execFlashWrite_frame _ s
  | .flashTrim .. => execFlashTrim_frame _ s
  | .flashCmdDone .. => execFlashCmdDone_frame _ s
  | .hardDecode .. => execHardDecode_frame _ _ _ s
  | .softDecode .. => execSoftDecode_frame _ _ s
  | .programDone .. => execProgramDone_frame _ s
  | .programFail .. => execProgramFail_frame _ _ s
  | .refreshBlock .. => execRefreshBlock_frame _ s
  | .gcRelocate .. => execGcRelocate_frame _ s
  | .wearLevelMove .. => execWearLevelMove_frame _ s
  | .mapCheckpoint => execMapCheckpoint_frame s
  | .mapRebuildDone => execMapRebuildDone_frame s
  | .ldqTailWrite .. => execLdqTailWrite_frame _ _ _ s
  | .verify .. => execVerify_frame _ s
  | .drop .. => execDrop_frame _ s
  | .keyRequest .. => execKeyRequest_frame _ s
  | .keyRequestTimeout .. => execKeyRequestTimeout_frame _ s
  | .keyInstall .. => execKeyInstall_frame _ s
  | .load .. => execLoad_frame _ s
  | .chunkLanded .. => execChunkLanded_frame _ _ _ s
  | .chunkTimeout .. => execChunkTimeout_frame _ _ _ s
  | .loadDone .. => execLoadDone_frame _ _ s
  | .rdmaReadResponse .. => execRdmaReadResponse_frame _ _ _ _ s
  | .roceAck .. => execRoceAck_frame _ _ s
  | .roceNak .. => execRoceNak_frame _ s
  | .roceTimeout .. => execRoceTimeout_frame _ s
  | .bulkFrameDrop .. => execBulkFrameDrop_frame _ s
  | .peerReq .. => execPeerReq_frame _ s
  | .peerData .. => execPeerData_frame _ s
  | .peerNotHeld .. => execPeerNotHeld_frame _ s
  | .tdqTailWrite .. => execTdqTailWrite_frame _ _ _ s
  | .fillPiece .. => execFillPiece_frame _ _ s
  | .fillPieceDone .. => execFillPieceDone_frame _ s
  | .adpStage .. => execAdpStage_frame _ _ s
  | .adpPublish .. => execAdpPublish_frame _ _ _ _ s
  | .adpWithdraw .. => execAdpWithdraw_frame _ _ _ _ s
  | .adpDrop .. => execAdpDrop_frame _ _ _ _ s
  | .baseDiscard .. => execBaseDiscard_frame _ _ s
  | .baseCutoverStage .. => execBaseCutoverStage_frame _ _ s
  | .baseRetire .. => execBaseRetire_frame _ s
  | .portEnable .. => execPortEnable_frame _ _ _ s
  | .linkTrainPass .. => execLinkTrainPass_frame _ _ s
  | .linkTrainTimeout .. => execLinkTrainTimeout_frame _ s
  | .linkFlitRx .. => execLinkFlitRx_frame _ _ _ s
  | .linkNak .. => execLinkNak_frame _ _ s
  | .linkReplayTimeout .. => execLinkReplayTimeout_frame _ s
  | .laneFail .. => execLaneFail_frame _ _ s
  | .spareSwapDone .. => execSpareSwapDone_frame _ s
  | .linkDelayMeasure .. => execLinkDelayMeasure_frame _ _ _ _ _ s
  | .transitFlit .. => execTransitFlit_frame _ _ _ _ s
  | .quench .. => execQuench_frame _ s
  | .unquench .. => execUnquench_frame _ s
  | .drain .. => execDrain_frame _ s
  | .pstop .. => execPstop_frame _ s
  | .quenchExpire .. => execQuenchExpire_frame _ s
  | .quenchClear .. => execQuenchClear_frame _ _ s
  | .put .. => execPut_frame _ s
  | .putEnd .. => execPutEnd_frame _ s
  | .putDone .. => execPutDone_frame _ s
  | .putTimeout .. => execPutTimeout_frame _ s
  | .boardLoad .. => execBoardLoad_frame _ _ _ _ s
  | .boardStore .. => execBoardStore_frame _ _ _ _ _ s
  | .bld .. => execBld_frame _ s
  | .bst .. => execBst_frame _ s
  | .brsp .. => execBrsp_frame _ s
  | .mirror .. => execMirror_frame _ s
  | .clqTailWrite .. => execClqTailWrite_frame _ _ _ s
  | .allreduce .. => execAllreduce_frame _ s
  | .reduceScatter .. => execReduceScatter_frame _ s
  | .allgather .. => execAllgather_frame _ s
  | .broadcast .. => execBroadcast_frame _ s
  | .colReady .. => execColReady_frame _ _ s
  | .colOut .. => execColOut_frame _ s
  | .colResend .. => execColResend_frame _ s
  | .colDone .. => execColDone_frame _ s
  | .colTimeout .. => execColTimeout_frame _ _ s
  | .colAbort .. => execColAbort_frame _ _ s
  | .hayCallAct .. => execHayCallAct_frame _ s
  | .hayCallExtend .. => execHayCallExtend_frame _ s
  | .hayCallReport .. => execHayCallReport_frame _ s
  | .coreMemoryAccess .. => execCoreMemoryAccess_frame _ _ _ _ _ s
  | .partitionStop .. => execPartitionStop_frame _ _ s
  | .floorCommit .. => execFloorCommit_frame _ _ _ s
  | .ownerKeyInstall .. => execOwnerKeyInstall_frame _ _ _ s
  | .ownerKeyRemove .. => execOwnerKeyRemove_frame _ _ _ s
  | .secReport .. => execSecReport_frame _ _ _ s
  | .provision .. => execProvision_frame _ _ _ s
  | .claim .. => execClaim_frame _ _ _ s
  | .lifecycleRelease .. => execLifecycleRelease_frame _ _ _ s
  | .decommission .. => execDecommission_frame _ _ _ s
  | .debug .. => execDebug_frame _ _ _ s
  | .mgmtCommand .. => execMgmtCommand_frame _ _ s
  | .attestReq .. => execAttestReq_frame _ s
  | .grant .. => execGrant_frame _ s
  | .ownerKey .. => execOwnerKey_frame _ s
  | .powerCap .. => execPowerCap_frame _ s
  | .vfStep => execVfStep_frame s
  | .curbEdge .. => execCurbEdge_frame _ s
  | .dividerRelease => execDividerRelease_frame s
  | .capGuard => execCapGuard_frame s
  | .stageFail .. => execStageFail_frame _ s
  | .vinLow => execVinLow_frame s
  | .vinRecover => execVinRecover_frame s
  | .vinLoss => execVinLoss_frame s
  | .droop .. => execDroop_frame _ _ s
  | .thermalSample .. => execThermalSample_frame _ _ s
  | .thermalTrip => execThermalTrip_frame s
  | .energySample .. => execEnergySample_frame _ _ _ s
  | .stepAbandon .. => execStepAbandon_frame _ _ s
  | .kvRebuild .. => execKvRebuild_frame _ _ _ _ s
  | .recover .. => execRecover_frame _ _ _ _ s
  | .tileReset .. => execTileReset_frame _ _ s
  | .partitionReset .. => execPartitionReset_frame _ _ s
  | .warmReset .. => execWarmReset_frame _ _ s
  | .coldPackageReset .. => execColdPackageReset_frame _ _ s
  | .snapshotCopyDone .. => execSnapshotCopyDone_frame _ s
  | .vinMainValid .. => execVinMainValid_frame _ s
  | .strapSample .. => execStrapSample_frame _ s
  | .vstbyLoss => execVstbyLoss_frame s
  | .refclkLoss .. => execRefclkLoss_frame _ s
  | .i3cWordRead .. => execI3cWordRead_frame _ s
  | .entdaa .. => execEntdaa_frame _ s
  | .setdasa .. => execSetdasa_frame _ _ s
  | .rstdaa => execRstdaa_frame s
  | .getstatus => execGetstatus_frame s
  | .enec => execEnec_frame s
  | .disec => execDisec_frame s
  | .bypass => execBypass_frame s
  | .idcode => execIdcode_frame s
  | .samplePreload .. => execSamplePreload_frame _ _ s
  | .extest .. => execExtest_frame _ _ s
  | .clamp => execClamp_frame s
  | .trst => execTrst_frame s
  | .mgtPortEnable .. => execMgtPortEnable_frame _ _ _ s
  | .arpRequest .. => execArpRequest_frame _ _ s
  | .neighborSolicitation .. => execNeighborSolicitation_frame _ _ s
  | .pauseFrame .. => execPauseFrame_frame _ _ s
  | .mgtFrameDrop .. => execMgtFrameDrop_frame _ s
  | .registerRead .. => execRegisterRead_frame _ _ _ s
  | .undefinedPacketDiscard .. => execUndefinedPacketDiscard_frame _ s
  | .linkManagementRequest .. => execLinkManagementRequest_frame _ _ s

end Sys2Proof.Machine
end

section
/-! # What the resistive store holds of the security core (R392, R396) -/

namespace Sys2Proof.Machine

/-- The rollback floors, the helper data and the operator's key digest. -/
def State.fused (s : State) : List (Nat × Nat) × Bool × Option (BitVec 384) := (s.sec.floors, s.sec.helper, s.sec.operator)

/-- No floor is lower, and helper data that was erased stays so. -/
def FloorsHold (s t : State) : Prop := (∀ k, s.floorOf k ≤ t.floorOf k) ∧ (s.sec.helper = false → t.sec.helper = false)

theorem FloorsHold.of_sec {s t : State} (h : t.sec.floors = s.sec.floors) (g : t.sec.helper = s.sec.helper) : FloorsHold s t :=
  ⟨fun k => by unfold State.floorOf; rw [h], fun e => g.trans e⟩

theorem FloorsHold.of_fused {s t : State} (h : t.fused = s.fused) : FloorsHold s t :=
  .of_sec (congrArg (·.1) h) (congrArg (·.2.1) h)

theorem FloorsHold.trans {s t u : State} (h : FloorsHold s t) (g : FloorsHold t u) : FloorsHold s u :=
  ⟨fun k => (h.1 k).trans (g.1 k), fun e => g.2 (h.2 e)⟩

/-- From every state the action goes on, and the floors hold. -/
def KeepsFloors {α : Type} (a : Act α) : Prop := ∀ s, ∃ x t, Runs a s x t ∧ FloorsHold s t

/-! ## Actions that leave the resistive store -/

theorem keepsFused_of_only {α : Type} {l : List Field} {a : Act α} (h : Only l a) (hl : Field.sec ∉ l) : Keeps State.fused a :=
  .of_only h fun _ _ q => congrArg (fun x : SecX => (x.floors, x.helper, x.operator)) (q.2 .sec hl)

theorem keepsFused_modSec {f : SecX → SecX} (h : ∀ x, ((f x).floors, (f x).helper, (f x).operator) = (x.floors, x.helper, x.operator)) :
    Keeps State.fused (modSec f) := .rd_upd fun s => h s.sec

theorem keepsFused_extendMeas {i : Nat} {d : List Byte} : Keeps State.fused (extendMeas i d) :=
  .bind .rd fun _ => keepsFused_modSec fun _ => rfl

theorem keepsFused_sendRecord {type : Nat} {body : List Byte} : Keeps State.fused (sendRecord type body) :=
  .bind .get fun _ => .bind (keepsFused_modSec fun _ => rfl) fun _ => keepsFused_of_only (mgtSend_only _ _) (by decide)

theorem keepsFused_ownerKeyAdd {keys : List Byte} {mask : Nat} : Keeps State.fused (ownerKeyAdd keys mask) :=
  .bind .get fun _ => .ite .pure (.bind (keepsFused_modSec fun _ => rfl) fun _ => .pure)

theorem keepsFused_hayServe {p code : Nat} : Keeps State.fused (hayServe p code) := by
  refine .bind .get fun s => .ite .pure (.ite .pure (.bind ?_ fun _ =>
    .bind (keepsFused_of_only (stBytes_only _ _) (by decide)) fun _ =>
    .bind (keepsFused_modSec fun _ => rfl) fun _ => keepsFused_of_only (count_only _ _) (by decide)))
  split
  · exact keepsFused_of_only (callAct_only _ _) (by decide)
  · refine .ite .pure (.bind (keepsFused_of_only (spRead_only _ _ _ _ _) (by decide)) fun r => ?_)
    cases r with
    | error e => exact .pure
    | ok d => exact .bind keepsFused_extendMeas fun _ => .pure
  · exact keepsFused_of_only (callReport_only _ _ _) (by decide)
  · exact .pure

theorem keepsFused_mgtFrame {n : Nat} {a : Act Unit} (h : Keeps State.fused a) : Keeps State.fused (mgtFrame n a) :=
  .bind .rd fun _ => .ite (.bind (keepsFused_of_only (count_only _ _) (by decide)) fun _ => h) .pure

/-- A management record keeps the resistive store where the action on its body does. -/
theorem keepsFused_onRecord {type : Nat} {l : List Byte} {k : List Byte → Act (Option Nat)} (h : ∀ b, Keeps State.fused (k b)) :
    Keeps State.fused (onRecord type l k) := by
  refine .bind .get fun s => keepsFused_mgtFrame (.ite .pure (.bind .rd fun _ =>
    .ite (.bind (keepsFused_of_only (wrR_only _ _) (by decide)) fun _ => .bind (h _) fun st => ?_)
      (keepsFused_of_only (vlog_only _ _ _) (by decide))))
  cases st with
  | some st => exact keepsFused_sendRecord
  | none => exact .pure

theorem keepsFused_mgmtCommand {type : Nat} {l : List Byte} : Keeps State.fused (mgmtCommand type l) :=
  keepsFused_onRecord fun _ => .bind (keepsFused_of_only (fabricCommand_only _ _ _) (by decide)) fun _ => .pure

theorem keepsFused_attestReq {l : List Byte} : Keeps State.fused (attestReq l) :=
  keepsFused_onRecord fun _ => .bind .rd fun _ => .bind keepsFused_sendRecord fun _ => .pure

theorem keepsFused_grantRecord {l : List Byte} : Keeps State.fused (grantRecord l) :=
  keepsFused_onRecord fun _ => .bind (keepsFused_of_only (send_only _) (by decide)) fun _ => .pure

theorem keepsFused_ownerKeyRecord {l : List Byte} : Keeps State.fused (ownerKeyRecord l) :=
  keepsFused_onRecord fun _ => .bind keepsFused_ownerKeyAdd fun _ => .ite .pure .pure

theorem keepsFused_powerCap {l : List Byte} : Keeps State.fused (powerCap l) := by
  have wrF {a n : Nat} {f : Fld} : Keeps State.fused (wrF a f n) := keepsFused_of_only (wrF_only _ _ _) (by decide)
  exact keepsFused_onRecord fun _ => .ite .pure (.bind .rd fun _ => .bind .rd fun _ => .ite
    (.bind (.upd fun _ => rfl) fun _ => .bind wrF fun _ => .bind wrF fun _ => .pure)
    (.bind (keepsFused_of_only (wrR_only _ _) (by decide)) fun _ => .pure))

/-! ## Resets and the boot (R434, R437, R439) -/

theorem keepsFused_upd_bind {α : Type} {u : Upd} {f : Unit → Act α} (h : ∀ s, (u.apply s).fused = s.fused)
    (g : Keeps State.fused (f ())) : Keeps State.fused (Act.upd u >>= f) := .bind (.upd h) fun _ => g

theorem keepsFused_recordsReset : Keeps State.fused recordsReset := by
  have each {n : Nat} {u : Nat → Upd} (h : ∀ k s, ((u k).apply s).fused = s.fused) :
      Keeps State.fused (forIn (List.range n) () fun k _ => do Act.upd (u k); return ForInStep.yield ()) :=
    .forIn fun _ _ => keepsFused_upd_bind (h _) .pure
  unfold recordsReset
  refine .bind (each fun _ _ => rfl) fun _ => .bind (each fun _ _ => rfl) fun _ => .bind (each fun _ _ => rfl) fun _ =>
    .bind (each fun _ _ => rfl) fun _ => ?_
  iterate 9 refine keepsFused_upd_bind (fun _ => rfl) ?_
  exact .bind (keepsFused_modSec fun _ => rfl) fun _ => keepsFused_of_only (modLand_only _) (by decide)

theorem keepsFused_bootImages {manifest : List Byte} {ks : List Nat} : Keeps State.fused (bootImages manifest ks) := by
  induction ks generalizing manifest with
  | nil => exact .pure
  | cons k ks ih =>
    refine .bind (keepsFused_of_only (wrF_only _ _ _) (by decide)) fun _ => .bind .rd fun b => ?_
    cases b with
    | none => exact keepsFused_of_only (bootStop_only _) (by decide)
    | some b => exact .bind keepsFused_extendMeas fun _ => .bind (keepsFused_modSec fun _ => rfl) fun _ => ih

theorem keepsFused_secureBoot : Keeps State.fused secureBoot := by
  have wrF {a n : Nat} {f : Fld} : Keeps State.fused (wrF a f n) := keepsFused_of_only (wrF_only _ _ _) (by decide)
  have stop {n : Nat} : Keeps State.fused (bootStop n) := keepsFused_of_only (bootStop_only _) (by decide)
  exact .bind .get fun _ => .bind wrF fun _ => .bind wrF fun _ => .bind wrF fun _ =>
    .bind (keepsFused_of_only (addF_only _ _ _) (by decide)) fun _ => .ite stop (.ite stop
      (.bind (keepsFused_modSec fun _ => rfl) fun _ => .bind (keepsFused_of_only (modLand_only _) (by decide)) fun _ =>
        .bind keepsFused_extendMeas fun _ => .bind keepsFused_bootImages fun _ => .ite .pure (.bind .get fun _ =>
          .ite stop (.bind keepsFused_extendMeas fun _ => .bind (keepsFused_of_only (recordTaken_only _) (by decide)) fun _ =>
            .bind wrF fun _ => .bind wrF fun _ => .pure))))

/-- What goes before the boot at every package reset: registers, records and tables are at reset. -/
theorem keepsFused_reset {α : Type} {warm : Bool} {a : Act α} (h : Keeps State.fused a) : Keeps State.fused (do
    registersReset warm
    recordsReset
    tablesReset warm
    a) :=
  .bind (keepsFused_of_only (registersReset_only _) (by decide)) fun _ => .bind keepsFused_recordsReset fun _ =>
    .bind (keepsFused_of_only (tablesReset_only _) (by decide)) fun _ => h

theorem keepsFused_warmReset : Keeps State.fused warmReset := by
  refine .bind (.forIn fun _ _ => .bind (keepsFused_of_only (baseAfterReset_only _) (by decide)) fun _ => .pure) fun _ =>
    .bind .get fun _ => keepsFused_reset (keepsFused_upd_bind (fun _ => rfl) (keepsFused_upd_bind (fun _ => rfl) ?_))
  have wrF {a n : Nat} {f : Fld} : Keeps State.fused (wrF a f n) := keepsFused_of_only (wrF_only _ _ _) (by decide)
  exact .bind (.forIn fun _ _ => .bind wrF fun _ => .bind wrF fun _ => .pure) fun _ =>
    .bind (.forIn fun _ _ => .bind wrF fun _ => .pure) fun _ => .bind (keepsFused_of_only tiersWarm_only (by decide)) fun _ =>
    .bind (keepsFused_of_only strapsShow_only (by decide)) fun _ => .bind wrF fun _ => .bind keepsFused_secureBoot fun _ =>
    .ite (.bind (keepsFused_of_only mapCheck_only (by decide)) fun _ => keepsFused_of_only bulkUp_only (by decide))
      (keepsFused_of_only bootFailed_only (by decide))

theorem keepsFused_coldReset {cause : Nat} : Keeps State.fused (coldReset cause) := by
  have wrF {a n : Nat} {f : Fld} : Keeps State.fused (wrF a f n) := keepsFused_of_only (wrF_only _ _ _) (by decide)
  have land {f : LandX → LandX} : Keeps State.fused (modLand f) := keepsFused_of_only (modLand_only _) (by decide)
  have done {n : Nat} : Keeps State.fused (milestone n) := keepsFused_of_only (milestone_only _) (by decide)
  refine .bind (keepsFused_of_only basesCold_only (by decide)) fun _ => .bind wrF fun _ => keepsFused_reset
    (.bind .rd fun _ => .bind .rd fun _ => keepsFused_upd_bind (fun _ => rfl) (keepsFused_upd_bind (fun _ => rfl)
      (keepsFused_upd_bind (fun _ => rfl) (.bind (keepsFused_of_only strapsShow_only (by decide)) fun _ => .bind wrF fun _ =>
        .bind .rd fun _ => .bind land fun _ => .ite (.bind land fun _ => keepsFused_of_only lowFault_only (by decide))
          (.bind done fun _ => .bind (.forIn fun _ _ => .bind wrF fun _ => .pure) fun _ => .bind keepsFused_secureBoot fun _ =>
            .ite (.bind .get fun s => .bind land fun _ => .bind done fun _ => ?_)
              (keepsFused_of_only bootFailed_only (by decide)))))))
  have rest : Keeps State.fused (do bulkUp; trainedCheck) :=
    .bind (keepsFused_of_only bulkUp_only (by decide)) fun _ => keepsFused_of_only trainedCheck_only (by decide)
  dsimp only
  split
  · exact .bind (keepsFused_of_only (tiersCold_only _) (by decide)) fun _ => rest
  · exact .bind .pure fun _ => rest

theorem keepsFused_vinMainValid {env : BootEnv} : Keeps State.fused (vinMainValid env) :=
  .bind (keepsFused_of_only (modLand_only _) (by decide)) fun _ => .bind .rd fun _ => keepsFused_coldReset

theorem keepsFused_vstbyLoss : Keeps State.fused vstbyLoss :=
  .bind .rd fun _ => .bind (keepsFused_of_only basesCold_only (by decide)) fun _ => keepsFused_reset (.bind .rd fun _ =>
    keepsFused_upd_bind (fun _ => rfl) (keepsFused_upd_bind (fun _ => rfl) (keepsFused_upd_bind (fun _ => rfl) (.upd fun _ => rfl))))

/-! ## Actions that may raise a floor or erase the helper data -/

theorem KeepsFloors.of_fused {α : Type} {a : Act α} (h : Keeps State.fused a) : KeepsFloors a := fun s =>
  let ⟨x, t, r, e⟩ := h s
  ⟨x, t, r, .of_fused e⟩

theorem KeepsFloors.of_only {α : Type} {l : List Field} {a : Act α} (h : Only l a) (hl : Field.sec ∉ l) : KeepsFloors a :=
  .of_fused (keepsFused_of_only h hl)

theorem KeepsFloors.bind {α β : Type} {a : Act α} {f : α → Act β} (h : KeepsFloors a) (g : ∀ x, KeepsFloors (f x)) :
    KeepsFloors (a >>= f) := fun s =>
  let ⟨x, _, r, q⟩ := h s
  let ⟨y, u, r', q'⟩ := g x _
  ⟨y, u, r.bind r', q.trans q'⟩

theorem KeepsFloors.pure {α : Type} {x : α} : KeepsFloors (Pure.pure x : Act α) := .of_fused .pure

theorem KeepsFloors.get : KeepsFloors Act.get := .of_fused .get

theorem KeepsFloors.rd {α : Type} {f : State → α} : KeepsFloors (Sys2Proof.Machine.rd f) := .of_fused .rd

theorem KeepsFloors.ite {α : Type} {c : Prop} [Decidable c] {a b : Act α} (h : KeepsFloors a) (g : KeepsFloors b) :
    KeepsFloors (if c then a else b) := by
  split
  · exact h
  · exact g

theorem KeepsFloors.run {a : Act Unit} (h : KeepsFloors a) (s : State) : FloorsHold s (Act.run a s) :=
  let ⟨_, _, r, q⟩ := h s
  r.run_eq ▸ q

/-- The floor of a kind once one kind's floor is replaced. -/
theorem floorOf_replaced (l : List (Nat × Nat)) (k v j : Nat) :
    (((l.filter (fun e => e.1 ≠ k) ++ [(k, v)]).find? (fun e => e.1 = j)).map (·.2)).getD 0 =
      if j = k then v else ((l.find? (fun e => e.1 = j)).map (·.2)).getD 0 := by
  rw [List.find?_append, List.find?_filter]
  split
  · next h =>
    subst h
    have none : l.find? (fun a => decide (decide (a.1 ≠ j) = true ∧ decide (a.1 = j) = true)) = none :=
      List.find?_eq_none.2 fun e _ => by simp
    rw [none]
    simp
  · next h =>
    have same : (fun a : Nat × Nat => decide (decide (a.1 ≠ k) = true ∧ decide (a.1 = j) = true)) = fun a => decide (a.1 = j) :=
      funext fun a => by
        simp only [decide_eq_true_eq, ne_eq, decide_eq_decide, and_iff_right_iff_imp]
        rintro rfl
        exact h
    rw [same, List.find?_singleton, if_neg (by simpa using fun e : k = j => h e.symm), Option.or_none]

theorem keepsFloors_secResult {n : Nat} : KeepsFloors (secResult n) := .of_only (secResult_only _) (by decide)

theorem keepsFloors_floorCommit {b : List Byte} : KeepsFloors (floorCommit b) := by
  refine .ite keepsFloors_secResult fun s => ?_
  let x : SecX := { s.sec with floors := s.sec.floors.filter (fun e => e.1 ≠ numAt b 0 1) ++
    [(numAt b 0 1, max (s.floorOf (numAt b 0 1)) (s.runningOf (numAt b 0 1)))] }
  obtain ⟨y, t, r, q⟩ := keepsFloors_secResult (n := 0) { s with sec := x }
  refine ⟨y, t, (Runs.get s).bind (((Runs.rd _ s).bind (Runs.upd (.sec x) s)).bind r), FloorsHold.trans (t := { s with sec := x }) ⟨fun k => ?_, id⟩ q⟩
  change s.floorOf k ≤ ((x.floors.find? (fun e => e.1 = k)).map (·.2)).getD 0
  rw [floorOf_replaced]
  split
  · next h => exact h ▸ le_max_left _ _
  · exact le_rfl

theorem keepsFloors_modSec {f : SecX → SecX} (h : ∀ x, (f x).floors = x.floors ∧ (x.helper = false → (f x).helper = false)) :
    KeepsFloors (modSec f) := fun s =>
  ⟨(), { s with sec := f s.sec }, (Runs.rd _ s).bind (Runs.upd (.sec (f s.sec)) s),
    fun k => by unfold State.floorOf; rw [(h s.sec).1], (h s.sec).2⟩

theorem keepsFloors_lifecycle {b : List Byte} : KeepsFloors (lifecycle b) := by
  have set {n : Nat} : KeepsFloors (do setLifecycle n; secResult 0) :=
    .bind (.of_only (setLifecycle_only _) (by decide)) fun _ => keepsFloors_secResult
  refine .bind .get fun s => .ite keepsFloors_secResult ?_
  split
  · exact .ite set keepsFloors_secResult
  · exact .ite (.bind (keepsFloors_modSec fun _ => ⟨rfl, id⟩) fun _ => set) keepsFloors_secResult
  · exact .ite (.bind (keepsFloors_modSec fun _ => ⟨rfl, id⟩) fun _ => set) keepsFloors_secResult
  · exact .ite (.bind (keepsFloors_modSec fun _ => ⟨rfl, fun _ => rfl⟩) fun _ => set) keepsFloors_secResult
  · exact .bind (.of_only (wrF_only _ _ _) (by decide)) fun _ => keepsFloors_secResult
  all_goals exact keepsFloors_secResult

theorem keepsFloors_ownerKeyInstall {b : List Byte} : KeepsFloors (ownerKeyInstall b) :=
  .bind (.of_fused keepsFused_ownerKeyAdd) fun _ => .ite keepsFloors_secResult keepsFloors_secResult

theorem keepsFloors_ownerKeyRemove {b : List Byte} : KeepsFloors (ownerKeyRemove b) :=
  .bind .get fun _ => .ite (.bind (keepsFloors_modSec fun _ => ⟨rfl, id⟩) fun _ => keepsFloors_secResult) keepsFloors_secResult

theorem keepsFloors_secCommand {part : Option Nat} : KeepsFloors (secCommand part) := by
  refine .bind .get fun s => ?_
  extract_lets arg
  have ha {n : Nat} {k : List Byte → Act Unit} (h : ∀ b, KeepsFloors (k b)) : KeepsFloors (arg n k) :=
    .bind (.of_only (secBytes_only _ _ _ _) (by decide)) fun b => by
      cases b with
      | some b => exact h b
      | none => exact keepsFloors_secResult
  split
  · exact ha fun _ => keepsFloors_floorCommit
  · exact ha fun _ => keepsFloors_ownerKeyInstall
  · exact ha fun _ => keepsFloors_ownerKeyRemove
  · exact ha fun _ => keepsFloors_lifecycle
  · exact ha fun _ => .of_only (secReport_only _ _) (by decide)
  · exact keepsFloors_secResult

/-! ## Register writes -/

theorem keepsFloors_hayWrite {p off : Nat} {v : Word} : KeepsFloors (hayWrite p off v) := by
  refine .bind .get fun s => ?_
  split
  · unfold hayReset
    dsimp only
    split
    · exact .of_only (tileReset_only _) (by decide)
    · exact .of_only (partitionReset_only _) (by decide)
    · exact .bind (.of_fused keepsFused_warmReset) fun _ => .pure
    · exact .bind (.of_fused keepsFused_coldReset) fun _ => .pure
    · exact .pure
  · exact .ite .pure (.of_only (andDone_only (stW_only _ _) rfl) (by decide))
  · exact .of_only (stored_only _ _) (by decide)

theorem keepsFloors_hayCallWrite {p : Nat} : KeepsFloors (hayCallWrite p) :=
  .bind .get fun _ => .ite .pure (.bind (keepsFloors_modSec fun _ => ⟨rfl, id⟩) fun _ =>
    .bind (.of_only (stBytes_only _ _) (by decide)) fun _ => .pure)

theorem keepsFloors_prtWrite {q off : Nat} {v : Word} : KeepsFloors (prtWrite q off v) := by
  have plain {bad : Bool} {a : Nat} {w : Word} : KeepsFloors (storedUnless bad a w) := .of_only (storedUnless_only _ _ _) (by decide)
  have queue {busy : Bool} {base size entry a : Nat} {w : Word} : KeepsFloors (queueCfg busy base size entry a w) :=
    .of_only (queueCfg_only _ _ _ _ _ _) (by decide)
  refine .bind .get fun s => ?_
  dsimp only
  split
  · exact .ite .pure (.bind (.of_only (storeReg_only _ _) (by decide)) fun _ =>
      .ite (.bind (.of_only (partitionStop_only _) (by decide)) fun _ => .pure) .pure)
  · exact plain
  · exact plain
  · exact keepsFloors_hayCallWrite
  · exact queue
  · exact .of_only (flqTailWrite_only _ _) (by decide)
  · exact queue
  · exact .of_only (ldqTailWrite_only _ _) (by decide)
  · exact queue
  · exact .of_only (tdqTailWrite_only _ _) (by decide)
  · exact queue
  · exact .of_only (clqTailWrite_only _ _) (by decide)
  · exact .of_only (andDone_only (colAbort_only _ _) rfl) (by decide)
  · exact .of_only (kvRebuild_only _ _ _) (by decide)
  · exact .of_only (stepAbandon_only _) (by decide)
  · exact .of_only (recover_only _ _ _) (by decide)
  · exact .ite plain (.ite (.bind plain fun _ => .ite (.bind (.of_only (mirrorAnew_only _ _) (by decide)) fun _ => .pure) .pure)
      (.of_only (stored_only _ _) (by decide)))

theorem keepsFloors_blockWrite {x : BusX} {b : Block} {p off : Nat} {v : Word} : KeepsFloors (blockWrite x b p off v) := by
  have store {a : Nat} {w : Word} : KeepsFloors (storeReg a w) := .of_only (storeReg_only _ _) (by decide)
  have plain {a : Nat} {w : Word} : KeepsFloors (stored a w) := .of_only (stored_only _ _) (by decide)
  have guarded {bad : Bool} {a : Nat} {w : Word} : KeepsFloors (storedUnless bad a w) := .of_only (storedUnless_only _ _ _) (by decide)
  have word {k n : Nat} : KeepsFloors (stW k n) := .of_only (stW_only _ _) (by decide)
  unfold blockWrite
  cases b with
  | hay => exact keepsFloors_hayWrite
  | prt => exact keepsFloors_prtWrite
  | sec => exact .bind store fun _ => .bind .rd fun _ => .ite (.bind keepsFloors_secCommand fun _ => .pure) .pure
  | tile => exact .of_only (tileBlockWrite_only _ _ _) (by decide)
  | tim => exact .of_only (timWrite_only _ _ _) (by decide)
  | cnt => exact .of_only (cntWrite_only _ _ _) (by decide)
  | gdc => exact .of_only (gdcWrite_only _ _ _) (by decide)
  | flc => exact .of_only (flcWrite_only _ _ _) (by decide)
  | fab => exact .of_only (portWrite_only _ _ _ _) (by decide)
  | bms => exact .of_only (portWrite_only _ _ _ _) (by decide)
  | bin => exact .of_only (binWrite_only _ _ _) (by decide)
  | req => exact .ite plain (.of_only (reqWrite_only _ _ _ _) (by decide))
  | prx => exact .of_only (prxWrite_only _ _ _) (by decide)
  | xrt =>
    exact .ite plain (.ite (.of_only (placeTailWrite_only _ _) (by decide))
      (.ite (.bind word fun _ => .bind .get fun _ => guarded) (.bind .get fun _ => guarded)))
  | pwr => exact guarded
  | mgt => exact .bind store fun _ => .ite (.bind (.of_only (mgtPortEnabled_only _) (by decide)) fun _ => .pure) .pure
  | mesh =>
    refine .bind store fun _ => ?_
    dsimp only
    split
    · exact .ite (.bind (.of_only (mapsTookEffect_only _) (by decide)) fun _ => .pure) .pure
    · exact .bind .pure fun _ => .pure
  | glb => exact plain
  | ted => exact plain
  | dbl => exact plain

theorem keepsFloors_coreActs {core : Nat} {a : Act Unit} (h : KeepsFloors a) : KeepsFloors (coreActs core a) :=
  .bind .rd fun _ => .ite h .pure

theorem keepsFloors_busWriteX {x : BusX} {core addr width : Nat} {v : Word} : KeepsFloors (busWriteX x core addr width v) := by
  have refuse {i : Issuer} {a : Nat} {k r : Nat} : KeepsFloors (refuseAs i a k r) := .of_only (refuseAs_only _ _ _ _) (by decide)
  have done {r : Option Nat} {i : Issuer} {a : Nat} : KeepsFloors (do
      match r with
      | some e => refuseAs i a 2 e
      | none => answer 0
      milestonesCheck) := by
    have check : KeepsFloors milestonesCheck := .of_only milestonesCheck_only (by decide)
    cases r with
    | some e => exact .bind refuse fun _ => check
    | none => exact .bind (.of_only (answer_only _) (by decide)) fun _ => check
  refine keepsFloors_coreActs (.bind .get fun s => ?_)
  dsimp only
  split
  · exact .of_only (dblWrite_only _ _ _ _) (by decide)
  · split
    · exact refuse
    · exact .ite (.bind (.of_only (commonWrite_only _ _ _ _ _ _) (by decide)) fun _ => done)
        (.bind keepsFloors_blockWrite fun _ => done)
  · exact refuse

theorem keepsFloors_busWrite {core a v : Nat} : KeepsFloors (busWrite core a v) := keepsFloors_busWriteX

theorem keepsFloors_busField {core a n : Nat} {f : Fld} : KeepsFloors (busField core a f n) :=
  .bind .rd fun _ => keepsFloors_busWriteX

theorem keepsFloors_coreAccess {core a size value : Nat} {write : Bool} : KeepsFloors (coreAccess core a size write value) := by
  have fault {i : Issuer} {r : Nat} : KeepsFloors (coreFault core i a write r) := .of_only (coreFault_only _ _ _ _ _) (by decide)
  refine keepsFloors_coreActs (.bind .get fun s => .ite (.ite keepsFloors_busWriteX (.of_only (busRead_only _ _ _) (by decide)))
    (.ite (.of_only (boardAccess_only _ _ _ _ _ _) (by decide)) ?_))
  split
  · exact fault
  · exact .of_only (coreServe_only _ _ _ _ _ _ _ _ _) (by decide)
  · exact .ite (.of_only (haywardServe_only _ _ _ _ _ _ _ _) (by decide)) fault

theorem keepsFloors_secWrite {core op space arg : Nat} : KeepsFloors (secWrite core op space arg) := keepsFloors_busWrite

theorem keepsFloors_lifecycleWrite {core kind space arg : Nat} : KeepsFloors (lifecycleWrite core kind space arg) :=
  .bind .rd fun _ => .ite keepsFloors_busWrite .pure

theorem keepsFloors_packageReset {core op : Nat} {env : BootEnv} : KeepsFloors (packageReset core op env) :=
  .bind .rd fun _ => .ite (.bind (.of_only (modLand_only _) (by decide)) fun _ => keepsFloors_busWrite) keepsFloors_busWrite

theorem keepsFloors_awake {a : Act Unit} (h : KeepsFloors a) : KeepsFloors (awake a) := .bind .rd fun _ => .ite h .pure

theorem keepsFloors_mains {a : Act Unit} (h : KeepsFloors a) : KeepsFloors (mains a) :=
  .bind .rd fun _ => .ite (keepsFloors_awake h) .pure

theorem keepsFloors_served {a : Act Unit} (h : KeepsFloors a) : KeepsFloors (served a) :=
  .bind (.of_only (l := []) (stalls_only _) (by decide)) fun _ => .ite h .pure

/-- A command without the security core among its fields keeps the floors. -/
theorem exec_floors_of_frame {c : Instr} {s : State} (h : (touches c).contains .sec = false) : ∃ t, exec c s = .next t ∧ FloorsHold s t :=
  let ⟨t, e, q⟩ := exec_frame c s
  have same := q.2 .sec fun m => by rw [List.contains_iff_mem.2 m] at h; cases h
  ⟨t, e, .of_sec (congrArg SecX.floors same) (congrArg SecX.helper same)⟩

theorem exec_floors (c : Instr) (s : State) : ∃ t, exec c s = .next t ∧ FloorsHold s t := by
  have woken {a : Act Unit} (h : Keeps State.fused a) : FloorsHold s (Act.run (awake a) s) := (keepsFloors_awake (.of_fused h)).run s
  have call {p n : Nat} : FloorsHold s (Act.run (mains (served (hayServe p n))) s) :=
    (keepsFloors_mains (keepsFloors_served (.of_fused keepsFused_hayServe))).run s
  cases c with
  | stepArm | registerWrite | pageEnable | pageQuiesce | pageLockWrite | schedTickWrite | stagedWrite | gleanPost |
  ringContextWrite | prxKeyWrite | mgtPortEnable | doorbellProducer | doorbellConsumer | tickRunSet | tickRunClear |
  baseCutoverStage | quenchClear | tileReset | partitionReset => exact ⟨_, rfl, keepsFloors_busWriteX.run s⟩
  | gleanCancel | selftestStart | migStart | migAbort | baseDiscard | portEnable | partitionStop =>
    exact ⟨_, rfl, keepsFloors_busField.run s⟩
  | provision | claim | lifecycleRelease | decommission | debug => exact ⟨_, rfl, keepsFloors_lifecycleWrite.run s⟩
  | warmReset | coldPackageReset => exact ⟨_, rfl, keepsFloors_packageReset.run s⟩
  | opqTailWrite via tile tail =>
    cases via with
    | some core => exact ⟨_, rfl, keepsFloors_busWriteX.run s⟩
    | none =>
      exact ⟨_, rfl, (keepsFloors_mains (a := do let _ ← opqTail tile tail.toNat)
        (.bind (.of_only (opqTail_only _ _) (by decide)) fun _ => .pure)).run s⟩
  | floorCommit | ownerKeyInstall | ownerKeyRemove | secReport => exact ⟨_, rfl, keepsFloors_secWrite.run s⟩
  | coreMemoryAccess => exact ⟨_, rfl, (keepsFloors_served keepsFloors_coreAccess).run s⟩
  | hayCallAct | hayCallExtend | hayCallReport => exact ⟨_, rfl, call⟩
  | mgmtCommand => exact ⟨_, rfl, woken keepsFused_mgmtCommand⟩
  | attestReq => exact ⟨_, rfl, woken keepsFused_attestReq⟩
  | grant => exact ⟨_, rfl, woken keepsFused_grantRecord⟩
  | ownerKey => exact ⟨_, rfl, woken keepsFused_ownerKeyRecord⟩
  | powerCap => exact ⟨_, rfl, woken keepsFused_powerCap⟩
  | vinMainValid => exact ⟨_, rfl, (KeepsFloors.of_fused keepsFused_vinMainValid).run s⟩
  | vstbyLoss => exact ⟨_, rfl, (KeepsFloors.of_fused keepsFused_vstbyLoss).run s⟩
  | _ => exact exec_floors_of_frame rfl

/-- Settles O39 (it holds): floors are written only by FLOOR_COMMIT, to the larger of two versions, helper data only by
DECOMMISSION, which erases it. -/
theorem floorsNeverFall : Obligations.FloorsNeverFall := by
  intro s t h
  cases hp : s.pending with
  | nil =>
    obtain rfl : Act.run idleStep s = t := by simpa only [step, hp, Host.Outcome.next.injEq] using h
    exact (KeepsFloors.of_only idleStep_only (by decide)).run s
  | cons c rest =>
    obtain ⟨u, e, q⟩ := exec_floors c { s with pending := rest }
    obtain rfl : u = t := by simpa only [step, hp, e, Host.Outcome.next.injEq] using h
    exact q

end Sys2Proof.Machine
end

section
/-! # The ends of zeroing and copying (R381, R382, R401) -/

namespace Sys2Proof.Machine

theorem showZero_writes : WritesOnly (· ∈ [R.HAY_ZERO_STATUS]) showZero :=
  .bind .rd fun _ => .bind (wrF_writes (List.mem_singleton.2 rfl)) fun _ => wrF_writes (List.mem_singleton.2 rfl)

/-- What a change of the moves in hand, shown in HAY_ZERO_STATUS, leaves. -/
theorem run_modMove_showZero (f : MoveX → MoveX) (s : State) :
    let t := Act.run (do modMove f; showZero) s
    t.move = f s.move ∧ RegsBut [R.HAY_ZERO_STATUS] s t ∧ SameBut [.regs, .move] s t :=
  ⟨rfl, showZero_writes.regsBut ((Upd.move (f s.move)).apply s),
    (Only.bind ((modMove_only _).sub rfl) fun _ => showZero_only.sub rfl).run s⟩

/-- A tile that was QUIESCED becomes ACTIVE, any other keeps its state. -/
theorem run_tileZeroDone (s : State) (p : Nat) (hz : (s.tile p).zeroing = true) :
    Act.run (tileZeroDone p) s =
      let u := (Upd.tile p { s.tile p with zeroing := false }).apply s
      if s.tileState p = 4 then
        (Upd.reg (pageBase .tile p + 0x18) (putFld (s.reg (pageBase .tile p + 0x18)) F.PAGE_STATUS.state 3)).apply u
      else u := by
  change Act.run (if (s.tile p).zeroing = true then _ else _) s = _
  rw [if_pos hz]
  change Act.run (if s.tileState p = 4 then _ else _) _ = _
  split <;> rfl

/-- Settles O15 (it holds): each end is a few field writes, read off the action. -/
theorem zeroingEnds : Obligations.ZeroingEnds := by
  refine ⟨fun s h => next_run_mains h _, fun s tile h hz => ⟨_, next_run_mains h _, ?_⟩,
    fun s hub unit h => ⟨_, next_run_mains h _, run_modMove_showZero _ s⟩, fun s h => ⟨_, next_run_mains h _, run_modMove_showZero _ s⟩⟩
  have only := (tileZeroDone_only tile).run s
  rw [run_tileZeroDone s tile hz] at only ⊢
  dsimp only at only ⊢
  split at only
  · next h4 =>
    rw [if_pos h4, if_pos h4]
    exact ⟨tile_upd_self .., (fldOf_upd_self ..).trans (getFld_putFld_self _ _ _ (by decide) (by decide)), regsBut_upd_reg _ _ _, only⟩
  · next h4 =>
    rw [if_neg h4, if_neg h4]
    exact ⟨tile_upd_self .., rfl, fun _ _ => rfl, only⟩

end Sys2Proof.Machine
end

section
/-! # The sideband, JTAG and the management port's own frames (R479 to R482) -/

namespace Sys2Proof.Machine

theorem sideband : Sideband := by
  refine ⟨fun s off => ?_, fun s => ⟨rfl, fun off h => ?_⟩, fun s addr => ?_, fun s static addr => ?_, fun s => rfl, fun s => ?_,
    fun s => ⟨rfl, rfl⟩⟩
  · show Host.Outcome.next (Act.run (match s.sideWord off.toNat with
      | some v => send (.word v)
      | none => send .nack) s) = _
    cases s.sideWord off.toNat <;> rfl
  · unfold State.sideWord
    split
    case h_9 => rfl
    all_goals omega
  · have small : addr.toNat % 128 = addr.toNat := Nat.mod_eq_of_lt addr.isLt
    show Host.Outcome.next (Act.run (if s.land.dynAddr.isNone = true then
      modLand (fun x => { x with dynAddr := some (addr.toNat % 128) }) else Pure.pure ()) s) = _
    rw [small]
    cases s.land.dynAddr <;> rfl
  · have small : addr.toNat % 128 = addr.toNat := Nat.mod_eq_of_lt addr.isLt
    show Host.Outcome.next (Act.run (if static.toNat = s.staticAddr ∧ s.land.dynAddr.isNone = true then
      modLand (fun x => { x with dynAddr := some (addr.toNat % 128) }) else send .nack) s) = _
    rw [small, run_ite]
    simp only [Option.isNone_iff_eq_none]
    rfl
  · show ∃ t, Host.Outcome.next (Act.run (if s.land.dynAddr.isSome = true then (do send (.status (← freshBelow 65536)))
      else send .nack) s) = _ ∧ _
    cases s.land.dynAddr with
    | none => exact ⟨_, rfl, ⟨rfl, rfl⟩, SameBut.upd (.send .nack) s rfl⟩
    | some _ =>
      exact ⟨_, rfl, ⟨_, Nat.mod_lt _ (by decide), rfl⟩, (SameBut.upd (.free (s.free + 1)) s rfl).trans (SameBut.upd (.send _) _ rfl)⟩

theorem boundaryScan : BoundaryScan := fun s _ _ =>
  have both {x : LandX} {o : Out} : SameBut [.land, .sent] s ((Upd.send o).apply ((Upd.land x).apply s)) :=
    (SameBut.upd (.land x) s rfl).trans (SameBut.upd (.send o) _ rfl)
  ⟨⟨_, rfl, rfl, rfl, both⟩, ⟨_, rfl, rfl, rfl, both⟩, ⟨_, rfl, rfl, rfl, both⟩, ⟨_, rfl, rfl, rfl, both⟩, ⟨_, rfl, rfl, rfl, both⟩, rfl⟩

/-! ## The management port -/

/-- A write of MGT_PORT_CTRL, stored, with the port's link as enable and training leave it. -/
theorem runs_blockWrite_mgtPort {y : BusX} (v : Word) (s : State) : ∃ t, Runs (blockWrite y .mgt 0 0x100 v) s none t ∧
    t.fldOf R.MGT_PORT_STATUS F.MGT_PORT_STATUS.link =
      (if getFld v F.MGT_PORT_CTRL.enable = 0 then 0 else if y.trained then 2 else 1) ∧
    RegsBut [R.MGT_PORT_CTRL, R.MGT_PORT_STATUS] s t ∧ SameBut [.regs] s t := by
  have row : rowOf R.MGT_PORT_CTRL = some _ := rowOf_regA (by decide) (by decide) rfl
  obtain ⟨u, r, e, hr, q⟩ : ∃ u, Runs (storeReg R.MGT_PORT_CTRL v) s () u ∧
      u.fldOf R.MGT_PORT_CTRL F.MGT_PORT_CTRL.enable = getFld v F.MGT_PORT_CTRL.enable ∧
      RegsBut [R.MGT_PORT_CTRL] s u ∧ SameBut [.regs] s u :=
    ⟨_, runs_storeReg row rfl v s, (fldOf_upd_self ..).trans (getFld_written_bit _ v (by decide) (by decide) (by decide) (by decide)),
      regsBut_upd_reg _ _ _, SameBut.upd _ _ rfl⟩
  have writes : WritesOnly (· ∈ [R.MGT_PORT_CTRL, R.MGT_PORT_STATUS]) (mgtPortEnabled y.trained) :=
    .bind .get fun _ => .bind (wrF_writes (by simp)) fun _ => wrF_writes (by simp)
  refine ⟨_, r.bind (((mgtPortEnabled_only _).runs u).bind (Runs.pure _ _)), ?_,
    (hr.mono (by simp)).trans (writes.regsBut u), q.trans ((mgtPortEnabled_only _).run u)⟩
  have bit : getFld v F.MGT_PORT_CTRL.enable < 2 := getFld_lt v F.MGT_PORT_CTRL.enable
  refine (fldOf_put_ne _ _ _ _ _ (by decide) (by decide)).trans ((fldOf_put_self _ _ _ _ (by decide)).trans ?_)
  rw [e]
  obtain h | h : getFld v F.MGT_PORT_CTRL.enable = 0 ∨ getFld v F.MGT_PORT_CTRL.enable = 1 := by omega
  · rw [h]; rfl
  · rw [h]; cases y.trained <;> rfl

/-- A frame at a port that is up and in service is counted, and then acted on. -/
theorem run_mgtFrame {s : State} (hu : s.mgtUp = true) (hp : s.pageServes (pageBase .mgt 0) = true) (len : Nat) (a : Act Unit) :
    Act.run (mgtFrame len a) s = Act.run a (Act.run (count C.MGT_CNT_RX_BYTES len) s) := by
  have on : (s.mgtUp && s.pageServes (pageBase .mgt 0)) = true := by rw [hu, hp]; rfl
  show Act.run (if (s.mgtUp && s.pageServes (pageBase .mgt 0)) = true then _ else _) s = _
  rw [if_pos on]
  exact (count_only _ _).run_bind _ s

theorem run_mgtFrame_off {s : State} (h : s.mgtUp = false ∨ s.pageServes (pageBase .mgt 0) = false) (len : Nat) (a : Act Unit) :
    Act.run (mgtFrame len a) s = s := by
  have off : (s.mgtUp && s.pageServes (pageBase .mgt 0)) = false := by
    rcases h with h | h <;> simp [h]
  show Act.run (if (s.mgtUp && s.pageServes (pageBase .mgt 0)) = true then _ else _) s = _
  rw [if_neg (by rw [off]; decide)]
  rfl

/-- Counting leaves the registers that are no counters. -/
theorem reg_count {a n : Nat} (ha : IsCounter a) (s : State) {b : Block} {p off : Nat} (h : off < 0x800) :
    (Act.run (count a n) s).reg (regA b p off) = s.reg (regA b p off) := (count_counters ha).reg s (not_isCounter_regA h)

theorem run_awake_mgtFrame_off {s : State} (h : s.mgtUp = false ∨ s.pageServes (pageBase .mgt 0) = false) (len : Nat) (a : Act Unit) :
    Act.run (awake (mgtFrame len a)) s = s := by
  cases ha : s.alive with
  | true => rw [run_awake _ _ ha, run_mgtFrame_off h]
  | false => exact run_awake_off _ _ ha

theorem managementFrames : ManagementFrames := by
  refine ⟨fun s core v trained ha => ?_, fun s len ha hu hp u hc => ?_, fun s len a b q c h hc => ?_⟩
  · obtain ⟨t, r, e, hr, q⟩ := runs_blockWrite_mgtPort (y := { trained := trained, part := s.coreAct core }) v s
    have h : Answered t (Act.run (busWriteX { trained := trained } core R.MGT_PORT_CTRL 8 v) s) :=
      busWriteX_done _ _ _ 8 v .mgt 0 s t ha.1 (pageOf_regA .mgt 0 0x100 (by decide) (by decide)) (by decide) ha.2 (by decide) r
    exact ⟨_, rfl, h.2, (h.fldOf _ _).trans e, h.regsBut hr, h.sameBut q⟩
  · have frame (a : Act Unit) : Act.run (awake (mgtFrame len a)) s = Act.run a u := by
      rw [run_awake _ _ ha, run_mgtFrame hu hp, hc]
    have only := (count_only C.MGT_CNT_RX_BYTES len).run s
    rw [← hc] at only
    have reg {b : Block} {off : Nat} (h : off < 0x800) : u.reg (regA b 0 off) = s.reg (regA b 0 off) := by
      rw [hc]
      exact reg_count (isCounter_regA (by decide)) s h
    have same {off : Nat} (h : off < 0x800) (f : Fld) : u.fldOf (regA .mgt 0 off) f = s.fldOf (regA .mgt 0 off) f :=
      congrArg (getFld · f) (reg h)
    refine ⟨fun addr => congrArg _ ((frame _).trans ?_), fun addr => congrArg _ ((frame _).trans ?_), fun quanta => ?_,
      congrArg _ (frame _)⟩
    · show Act.run (if addr.toNat = u.fldOf R.MGT_PORT_IP4 F.MGT_PORT_IP4.addr then _ else _) u = _
      rw [show u.fldOf R.MGT_PORT_IP4 _ = s.fldOf R.MGT_PORT_IP4 _ from same (by decide) _]
    · show Act.run (if addr.toNat = u.fldOf R.MGT_PORT_IP6_HI F.MGT_PORT_IP6_HI.addr * 2 ^ 64 +
        u.fldOf R.MGT_PORT_IP6_LO F.MGT_PORT_IP6_LO.addr then _ else _) u = _
      rw [show u.fldOf R.MGT_PORT_IP6_HI _ = s.fldOf R.MGT_PORT_IP6_HI _ from same (by decide) _,
        show u.fldOf R.MGT_PORT_IP6_LO _ = s.fldOf R.MGT_PORT_IP6_LO _ from same (by decide) _]
    · refine ⟨_, congrArg Host.Outcome.next (frame _), ?_, (only.mono (by decide)).trans (SameBut.upd (.land _) u rfl)⟩
      show { u.land with pauseUntil := u.now + quanta.toNat % 65536 * 512 / 25 } = _
      rw [only.2 .land (by decide), show u.now = s.now from congrArg BitVec.toNat (reg (by decide)), Nat.mod_eq_of_lt quanta.isLt]
  · simp only [List.mem_cons, List.not_mem_nil, or_false] at hc
    rcases hc with rfl | rfl | rfl | rfl
    all_goals exact congrArg _ (run_awake_mgtFrame_off h _ _)

/-- Settles O60 (it holds): each command's meaning is a few updates, read off the action. -/
theorem sidePorts : Obligations.SidePorts := ⟨sideband, boundaryScan, managementFrames⟩

end Sys2Proof.Machine
end

section
/-! # Ports: their registers and their records -/

namespace Sys2Proof.Machine

theorem portCtrl_eq (k : Nat) : R.PORT_CTRL k = portPage k + 0x100 := by unfold R.PORT_CTRL portPage; split <;> rfl
theorem portStatus_eq (k : Nat) : R.PORT_STATUS k = portPage k + 0x108 := by unfold R.PORT_STATUS portPage; split <;> rfl
theorem linkDelay_eq (k : Nat) : R.LINK_DELAY k = portPage k + 0x110 := by unfold R.LINK_DELAY portPage; split <;> rfl
theorem vlCredit_eq (k : Nat) : R.VL_CREDIT k = portPage k + 0x118 := by unfold R.VL_CREDIT portPage; split <;> rfl

theorem portPage_aligned (k : Nat) : portPage k % 0x1000 = 0 := by
  unfold portPage
  split
  · exact pageBase_aligned _ _
  · exact pageBase_aligned _ _

theorem portPage_inj {j k : Nat} (hj : j < 12) (hk : k < 12) (h : portPage j = portPage k) : j = k := by
  simp only [portPage, pageBase, Block.base] at h
  split at h <;> split at h <;> omega

/-- Registers at two offsets of port pages are two registers. -/
theorem portReg_ne {j k m n : Nat} (h : m ≠ n ∧ m < 0x1000 ∧ n < 0x1000) : portPage j + m ≠ portPage k + n := by
  have hj := portPage_aligned j
  have hk := portPage_aligned k
  omega

/-- So are those at one offset, of two ports. -/
theorem portReg_ne_of_port {j k m : Nat} (hj : j < 12) (hk : k < 12) (h : j ≠ k) : portPage j + m ≠ portPage k + m :=
  fun e => h (portPage_inj hj hk (by omega))

/-- The block and page a port's registers lie on. -/
def portBlock (k : Nat) : Block := if k < 8 then .fab else .bms

def portIndex (k : Nat) : Nat := if k < 8 then k else k - 8

theorem portPage_eq (k : Nat) : portPage k = pageBase (portBlock k) (portIndex k) := by
  unfold portPage portBlock portIndex
  split <;> rfl

theorem portIndex_lt {k : Nat} (h : k < 12) : portIndex k < (portBlock k).pages := by
  unfold portBlock portIndex
  split
  · assumption
  · exact Nat.sub_lt_left_of_lt_add (by omega) h

theorem portBlock_ne_dbl (k : Nat) : portBlock k ≠ .dbl := by
  unfold portBlock
  split <;> decide

theorem blockWrite_port (x : BusX) (k off : Nat) (v : Word) :
    blockWrite x (portBlock k) (portIndex k) off v = portWrite k off (portPage k + off) v := by
  rw [portPage_eq]
  unfold portBlock portIndex
  split
  · rfl
  · next h => simp only [blockWrite, Nat.add_sub_cancel' (Nat.le_of_not_lt h)]

/-- A loop over a list runs its body on the first entry, and then on the rest. -/
theorem Runs.forIn_cons {α : Type} {body : α → Unit → Act (ForInStep Unit)} {x : α} {l : List α} {s t u : State}
    (h : Runs (body x ()) s (.yield ()) t) (g : Runs (ForIn.forIn l () body) t () u) : Runs (ForIn.forIn (x :: l) () body) s () u := by
  rw [List.forIn_cons]
  exact h.bind g

theorem port_congr {s t : State} (h : t.ports = s.ports) (k : Nat) : t.port k = s.port k := by rw [State.port, h, State.port]

theorem modPort_runs (k : Nat) (f : PortX → PortX) (s : State) :
    Runs (modPort k f) s () ((Upd.port k (f (s.port k))).apply s) := (Runs.rd _ s).bind (Runs.upd _ s)

/-! ## Emptied ports -/

/-- Some flits are gone from the queues of a port. -/
def Thinned (x y : PortX) : Prop :=
  ∃ (f : TxFlit → Bool) (g : Nat × Option Nat × Nat → Bool), y = { x with txq := x.txq.filter f, mid := x.mid.filter g }

theorem Thinned.refl (x : PortX) : Thinned x x :=
  ⟨fun _ => true, fun _ => true, by rw [List.filter_true, List.filter_true]⟩

theorem Thinned.trans {x y z : PortX} : Thinned x y → Thinned y z → Thinned x z := by
  rintro ⟨f, g, rfl⟩ ⟨f', g', rfl⟩
  exact ⟨fun a => f' a && f a, fun a => g' a && g a, by simp only [List.filter_filter]⟩

theorem Thinned.mem {x y : PortX} (h : Thinned x y) {f : TxFlit} (hf : f ∈ y.txq) : f ∈ x.txq := by
  obtain ⟨_, _, rfl⟩ := h
  exact List.mem_of_mem_filter hf

theorem Thinned.nextPkt {x y : PortX} (h : Thinned x y) : y.nextPkt = x.nextPkt := by
  obtain ⟨_, _, rfl⟩ := h
  rfl

/-- Thinning a port's queues, port by port. -/
theorem run_thin {f : TxFlit → Bool} {g : Nat × Option Nat × Nat → Bool} (l : List Nat) (s : State) :
    ∃ t, Runs (forIn l () fun j _ => do
        modPort j (fun y => { y with txq := y.txq.filter f, mid := y.mid.filter g })
        return ForInStep.yield ()) s () t ∧ SameBut [.ports] s t ∧ (∀ j, Thinned (s.port j) (t.port j)) ∧
      ∀ j ∈ l, ∀ e ∈ (t.port j).txq, f e = true := by
  induction l generalizing s with
  | nil => exact ⟨s, Runs.pure _ _, SameBut.refl _ _, fun j => .refl _, by simp⟩
  | cons i l ih =>
    have first := modPort_runs i (fun y => { y with txq := y.txq.filter f, mid := y.mid.filter g }) s
    obtain ⟨t, r, q, ht, hf⟩ := ih ((Upd.port i { s.port i with txq := (s.port i).txq.filter f, mid := (s.port i).mid.filter g }).apply s)
    refine ⟨t, ?_, (SameBut.upd _ s rfl).trans q, fun j => ?_, fun j hj e he => ?_⟩
    · exact Runs.forIn_cons (first.bind (Runs.pure _ _)) r
    · refine Thinned.trans ?_ (ht j)
      rw [port_upd_port]
      split
      · next h => exact h ▸ ⟨f, g, rfl⟩
      · exact .refl _
    · rcases List.mem_cons.1 hj with rfl | hj
      · have old := (ht j).mem he
        rw [port_upd_self] at old
        exact (List.mem_filter.1 old).2
      · exact hf j hj e he

/-- What portEmpty leaves: the port keeps only flits in transit, and no port a flit that came by it. -/
theorem run_portEmpty (k : Nat) (s : State) :
    let t := Act.run (portEmpty k) s
    (∃ q, t.port k = { txq := q, nextPkt := (s.port k).nextPkt } ∧ ∀ f ∈ q, f.src.isSome = true) ∧
      (∀ j, j ≠ k → Thinned (s.port j) (t.port j)) ∧
      (∀ j, 8 ≤ j → j < 12 → ∀ f ∈ (t.port j).txq, f.src ≠ some k) ∧ SameBut [.ports] s t := by
  have first := modPort_runs k (fun x => { txq := x.txq.filter (fun f => f.src.isSome), nextPkt := x.nextPkt }) s
  obtain ⟨t, r, q, ht, hf⟩ := run_thin (f := fun f => decide (f.src ≠ some k)) (g := fun m => decide (m.2.1 ≠ some k)) [8, 9, 10, 11]
    ((Upd.port k { txq := (s.port k).txq.filter (fun f => f.src.isSome), nextPkt := (s.port k).nextPkt }).apply s)
  have e : Act.run (portEmpty k) s = t := (first.bind (r.bind (Runs.pure _ _))).run_eq
  rw [e]
  refine ⟨?_, fun j hj => ?_, fun j h1 h2 f hf' => ?_, (SameBut.upd _ s rfl).trans q⟩
  · obtain ⟨p, g, e⟩ := ht k
    rw [port_upd_self] at e
    exact ⟨_, e, fun f hf => (List.mem_filter.1 (List.mem_of_mem_filter hf)).2⟩
  · have h := ht j
    rwa [port_upd_ne _ _ _ _ hj] at h
  · simpa using hf j (by simp; omega) f hf'

/-! ## Flits on the link -/

/-- A port that has put a flit on its link, and the flit's bytes. -/
theorem putFlit_runs (k kind seq : Nat) (nak : Bool) (f : TxFlit) (s : State) :
    Runs (putFlit k kind seq nak f) s (flitFrom (s.port k) kind seq nak f) ((Upd.port k (flitGone (s.port k))).apply s) :=
  (Runs.rd _ s).bind ((Runs.upd _ s).bind (Runs.pure _ _))

theorem PortX.slots_eq (x : PortX) (n : Nat) : ∃ a b c, x.slots n = { x with slot := a, ringUsed := b, transitUsed := c, ahead := x.ahead + n } := by
  unfold PortX.slots
  split
  · exact ⟨_, x.ringUsed, x.transitUsed, rfl⟩
  · exact ⟨_, _, _, rfl⟩

theorem flitGone_keeps (x : PortX) : (flitGone x).replay = x.replay ∧ (flitGone x).retries = x.retries ∧
    (flitGone x).rxNext = x.rxNext := by
  obtain ⟨a, b, c, e⟩ := x.slots_eq 1
  unfold flitGone
  rw [e]
  exact ⟨rfl, rfl, rfl⟩

/-- What a flit that is sent again is: its own number, with what the port now tells its peer. -/
def SentAgain (k ack : Nat) (o : Out) (e : SentFlit) : Prop := ∃ i n, o = .flit k (mkFlit 0 e.seq ack false i n e.flit)

/-- A run of flits goes out again. -/
theorem run_sendFlits (k : Nat) (l : List SentFlit) (s : State) :
    ∃ t, Runs (forIn l () fun e _ => do
        send (.flit k (← putFlit k 0 e.seq false e.flit))
        return ForInStep.yield ()) s () t ∧
      (t.port k).replay = (s.port k).replay ∧ (t.port k).retries = (s.port k).retries ∧
      (∃ os, t.sent = s.sent ++ os ∧ List.Forall₂ (SentAgain k (s.port k).rxNext) os l) ∧
      (∀ j, j ≠ k → t.port j = s.port j) ∧ SameBut [.ports, .sent] s t := by
  induction l generalizing s with
  | nil => exact ⟨s, Runs.pure _ _, rfl, rfl, ⟨[], (List.append_nil _).symm, .nil⟩, fun _ _ => rfl, SameBut.refl _ _⟩
  | cons e l ih =>
    let o := Out.flit k (flitFrom (s.port k) 0 e.seq false e.flit)
    obtain ⟨hr, ht, hn⟩ := flitGone_keeps (s.port k)
    obtain ⟨t, r, replay, retries, ⟨os, sent, each⟩, other, q⟩ := ih ((Upd.send o).apply ((Upd.port k (flitGone (s.port k))).apply s))
    have port : ((Upd.send o).apply ((Upd.port k (flitGone (s.port k))).apply s)).port k = flitGone (s.port k) := port_upd_self _ _ _
    rw [port] at replay retries each
    refine ⟨t, ?_, replay.trans hr, retries.trans ht, ⟨o :: os, ?_, .cons ⟨_, _, rfl⟩ (hn ▸ each)⟩,
      fun j hj => (other j hj).trans (port_upd_ne _ _ _ _ hj), ?_⟩
    · exact Runs.forIn_cons ((putFlit_runs k 0 e.seq false e.flit s).bind ((Runs.upd (.send o) _).bind (Runs.pure _ _))) r
    · rw [sent]
      exact List.append_assoc s.sent [o] os
    · exact ((SameBut.upd (.port k _) s rfl).trans (SameBut.upd (.send o) _ rfl)).trans q

/-- The replay buffer goes out again, from the oldest (R324). -/
theorem run_sendReplay (k : Nat) (s : State) :
    let t := Act.run (sendReplay k) s
    (t.port k).replay = (s.port k).replay.map (fun e => { e with sentAt := s.now }) ∧ (t.port k).retries = (s.port k).retries ∧
      (∃ os, t.sent = s.sent ++ os ∧ List.Forall₂ (SentAgain k (s.port k).rxNext) os (s.port k).replay) ∧
      ∀ j, j ≠ k → t.port j = s.port j := by
  let x : PortX := { s.port k with replay := (s.port k).replay.map (fun e => { e with sentAt := s.now }) }
  obtain ⟨t, r, replay, retries, sent, other, -⟩ := run_sendFlits k (s.port k).replay ((Upd.port k x).apply s)
  rw [port_upd_self] at replay retries sent
  have e : Act.run (sendReplay k) s = Act.run (count (C.REPLAY k) (s.port k).replay.length) t :=
    run_bind_of_runs _ r fun _ => count (C.REPLAY k) (s.port k).replay.length
  have same := (count_only (C.REPLAY k) (s.port k).replay.length).run t
  have ports : (Act.run (count (C.REPLAY k) (s.port k).replay.length) t).ports = t.ports := same.2 .ports (by decide)
  have out : (Act.run (count (C.REPLAY k) (s.port k).replay.length) t).sent = t.sent := same.2 .sent (by decide)
  dsimp only
  rw [e, port_congr ports, out]
  exact ⟨replay, retries, sent, fun j hj => (port_congr ports j).trans ((other j hj).trans (port_upd_ne _ _ _ _ hj))⟩

end Sys2Proof.Machine
end

section
/-! # Links come up and go down (R325, R327, R349, R477) -/

namespace Sys2Proof.Machine

/-- The row is not staged, and software sets and clears the field. -/
def RegRow.takes (r : RegRow) (f : Fld) : Bool :=
  !r.staged && decide (r.writable < 2 ^ 64) &&
    (List.range 64).all (fun i => !(f.lo ≤ i && i ≤ f.hi) || (r.writable.testBit i && !r.clearing.testBit i))

/-- A write of a register stores a word that holds the field as written. -/
theorem runs_storeReg_takes {a : Nat} {f : Fld} (hf : f.hi < 64) (h : (rowOf a).any (·.takes f) = true) (v : Word) (s : State) :
    ∃ w, Runs (storeReg a v) s () ((Upd.reg a w).apply s) ∧ getFld w f = getFld v f := by
  obtain ⟨r, hr, ht⟩ := Option.any_eq_true _ _ |>.1 h
  simp only [RegRow.takes, Bool.and_eq_true, Bool.not_eq_true', decide_eq_true_eq, List.all_eq_true, List.mem_range,
    Bool.or_eq_true, Bool.and_eq_false_iff, decide_eq_false_iff_not] at ht
  obtain ⟨⟨hst, hw⟩, hb⟩ := ht
  exact ⟨_, runs_storeReg hr hst v s, getFld_written _ v f hf hw fun i h1 h2 => (hb i (by omega)).resolve_left (by omega)⟩

theorem portCtrl_takes (k : PortId) : (rowOf (R.PORT_CTRL k)).any (·.takes F.PORT_CTRL.enable) = true := by
  revert k
  decide +kernel

/-- A write of PORT_CTRL that the straps do not refuse. -/
theorem runs_blockWrite_portCtrl {y : BusX} {k : PortId} {v w : Word} {s : State} {on : Bool}
    (hv : getFld v F.PORT_CTRL.enable = b2n on) (h : on = true → 8 ≤ k.val → s.strapsBad = false)
    (r : Runs (storeReg (R.PORT_CTRL k) v) s () ((Upd.reg (R.PORT_CTRL k) w).apply s)) :
    Runs (blockWrite y (portBlock k) (portIndex k) 0x100 v) s none
      (Act.run (portEnabled k on) ((Upd.reg (R.PORT_CTRL k) w).apply s)) := by
  have one : decide (getFld v F.PORT_CTRL.enable = 1) = on := by rw [hv]; cases on <;> rfl
  rw [blockWrite_port, ← portCtrl_eq]
  refine (Runs.get s).bind ?_
  show Runs (if decide (getFld v F.PORT_CTRL.enable = 1) = true ∧ 8 ≤ k.val ∧ s.strapsBad = true then _ else do
    storeReg (R.PORT_CTRL k) v
    portEnabled k (decide (getFld v F.PORT_CTRL.enable = 1))
    return none) s _ _
  rw [one, if_neg fun ⟨h1, h2, h3⟩ => by rw [h h1 h2] at h3; cases h3]
  exact r.bind (((portEnabled_only _ _).runs _).bind (Runs.pure _ _))

theorem portEnabled_writes {k : Nat} {en : Bool} : WritesOnly (· ∈ [R.PORT_STATUS k]) (portEnabled k en) := by
  have st {f : Fld} {n : Nat} : WritesOnly (· ∈ [R.PORT_STATUS k]) (wrF (R.PORT_STATUS k) f n) := wrF_writes (List.mem_singleton.2 rfl)
  exact .bind .get fun _ => .ite (.ite (.bind st fun _ => modPort_writes) .pure)
    (.bind st fun _ => .bind st fun _ => .of_only (portEmpty_only _) (by decide))

/-- Enable set: a port that is DOWN enters TRAINING, any other stays as it is. -/
theorem run_portEnabled_on (k : Nat) (s : State) :
    let t := Act.run (portEnabled k true) s
    t.portState k = (if s.portState k = 0 then 1 else s.portState k) ∧
      (s.portState k = 0 → t.port k = { s.port k with since := s.now }) := by
  have e : Act.run (portEnabled k true) s = if s.portState k = 0 then
      Act.run (do setPortState k 1; modPort k (fun x => { x with since := s.now })) s else s :=
    run_ite s (s.portState k = 0) _ (pure ())
  rw [e]
  split
  · exact ⟨fldOf_put_self _ _ _ _ (by decide), fun _ => port_upd_self _ _ _⟩
  · next h => exact ⟨rfl, fun h0 => (h h0).elim⟩

/-- Enable cleared: the port is DOWN, its buffers empty and its queued packets gone. -/
theorem run_portEnabled_off (k : Nat) (s : State) :
    let t := Act.run (portEnabled k false) s
    t.portState k = 0 ∧ (∃ q, t.port k = { txq := q, nextPkt := (s.port k).nextPkt } ∧ ∀ f ∈ q, f.src.isSome = true) ∧
      ∀ j, 8 ≤ j → j < 12 → ∀ f ∈ (t.port j).txq, f.src ≠ some k := by
  let u := Act.run (do setPortState k 0; wrF (R.PORT_STATUS k) F.PORT_STATUS.width 0) s
  have h := run_portEmpty k u
  have down : u.portState k = 0 :=
    (fldOf_put_ne _ _ _ _ _ (by decide) (by decide)).trans (fldOf_put_self _ _ _ _ (by decide))
  exact ⟨(fldOf_congr (h.2.2.2.2 .regs (by decide)) _ _).trans down, h.1, h.2.2.1⟩

theorem exec_portEnable {s : State} {core : CoreId} {k : PortId} {on : Bool} (hs : on = true → 8 ≤ k.val → s.strapsBad = false)
    (ha : Admits s core (R.PORT_CTRL k) (putFld (s.reg (R.PORT_CTRL k)) F.PORT_CTRL.enable (b2n on))) :
    ∃ t w, exec (.portEnable core k on) s = .next t ∧ getFld w F.PORT_CTRL.enable = b2n on ∧
      Answered (Act.run (portEnabled k on) ((Upd.reg (R.PORT_CTRL k) w).apply s)) t := by
  have bit : getFld (putFld (s.reg (R.PORT_CTRL k)) F.PORT_CTRL.enable (b2n on)) F.PORT_CTRL.enable = b2n on := by
    rw [getFld_putFld_self _ _ _ (by decide) (by decide)]
    cases on <;> rfl
  obtain ⟨w, r, e⟩ := runs_storeReg_takes (by decide) (portCtrl_takes k) (putFld (s.reg (R.PORT_CTRL k)) F.PORT_CTRL.enable (b2n on)) s
  have reg : R.PORT_CTRL k = regA (portBlock k) (portIndex k) 0x100 := (portCtrl_eq k).trans (congrArg (· + 0x100) (portPage_eq k))
  refine ⟨_, w, rfl, e.trans bit, ?_⟩
  have done (y : BusX) := runs_blockWrite_portCtrl (y := y) bit hs r
  show Answered _ (Act.run (busWriteX {} core (R.PORT_CTRL k) 8 (putFld (s.reg (R.PORT_CTRL k)) F.PORT_CTRL.enable (b2n on))) s)
  revert ha done
  generalize Act.run (portEnabled k on) _ = t
  rw [reg]
  exact fun ha done => answered_busWriteX_block (portIndex_lt k.isLt) (portBlock_ne_dbl k) (by decide) ha done

theorem portStatus_ne_portCtrl (j k : Nat) : R.PORT_STATUS j ≠ R.PORT_CTRL k := by
  rw [portStatus_eq, portCtrl_eq]
  exact portReg_ne (by decide)

theorem timNow_ne_portCtrl (k : Nat) : R.TIM_NOW ≠ R.PORT_CTRL k := by
  simp only [R.TIM_NOW, R.PORT_CTRL, regA, pageBase, Block.base]
  split <;> omega

/-! ## Training -/

/-- What a training that has passed does last. -/
def trainEnd (k : Nat) : Act Unit := do
  if k < 8 then
    let held := (← rd (fun t => t.port 12)).held
    if !held.isEmpty then
      Act.upd (.port 12 {})
      for h in held do sendPacket h.part k 0 h.bytes
  pump k

theorem run_trainEnd {s v : State} (k : Nat) (h : v.port 12 = s.port 12) :
    Act.run (trainEnd k >>= fun _ => milestonesCheck) v = Act.run (upAgain s k) v := by
  unfold trainEnd upAgain
  rw [← h]
  split
  · show Act.run ((if (!(v.port 12).held.isEmpty) = true then _ else _) >>= _) v = _
    split
    · rfl
    · rfl
  · rfl

/-- The port is UP on the lanes that work. -/
def State.portUp (s : State) (k : Nat) : State :=
  Act.run (do
    wrF (R.PORT_STATUS k) F.PORT_STATUS.width (s.workingWidth k)
    setPortState k 2) s

theorem portUp_portState (s : State) (k : Nat) : (s.portUp k).portState k = 2 := fldOf_put_self _ _ _ _ (by decide)

theorem portUp_width (s : State) (k : Nat) : (s.portUp k).fldOf (R.PORT_STATUS k) F.PORT_STATUS.width = s.workingWidth k := by
  refine (fldOf_put_ne _ _ _ _ _ (by decide) (by decide)).trans ((fldOf_put_self _ _ _ _ (by decide)).trans (Nat.mod_eq_of_lt ?_))
  show s.workingWidth k < 16
  have full : (if k < 8 then 4 else 8) ≤ 8 := by split <;> decide
  have half (c : Prop) [Decidable c] {n : Nat} (h : n ≤ 8) : (if c then n else n / 2) < 16 := by split <;> omega
  exact half _ full

theorem portUp_regsBut (s : State) (k : Nat) : RegsBut [R.PORT_STATUS k] s (s.portUp k) :=
  (regsBut_upd_reg _ _ s).trans (regsBut_upd_reg _ _ _)

theorem portUp_sameBut (s : State) (k : Nat) : SameBut [.regs] s (s.portUp k) :=
  (SameBut.upd (.reg _ _) s rfl).trans (SameBut.upd (.reg _ _) _ rfl)

theorem run_trainPass_training {s : State} {k : Nat} (alloc : Word) (h : s.portState k = 1) (f : Unit → Act Unit) :
    Act.run (trainPass k alloc >>= f) s = Act.run (trainEnd k >>= f) ((Upd.send (.linkAlloc k (s.reg (R.VL_CREDIT k)))).apply
      ((Upd.port k { s.port k with
        credit := creditOf alloc, alloc := creditOf alloc, inUse := [], txSeq := 0, replay := [], rxNext := 0, naked := false
        retries := 0, owed := [], rxq := [], told := 0, drrLane := 1, drrLeft := 0 }).apply (s.portUp k))) := by
  unfold trainPass
  simp only [h, run_get_bind, run_bind_bind, ne_eq, not_true_eq_false, false_and, if_false, run_wrF_bind, reduceIte]
  rfl

theorem run_trainPass_retrain {s : State} {k : Nat} (alloc : Word) (h : s.portState k = 3) (f : Unit → Act Unit) :
    Act.run (trainPass k alloc >>= f) s = Act.run (trainEnd k >>= f)
      (Act.run (sendReplay k) ((Upd.port k { s.port k with retries := 0 }).apply (s.portUp k))) := by
  unfold trainPass
  simp only [h, run_get_bind, run_bind_bind, ne_eq, not_true_eq_false, and_false, if_false, run_wrF_bind,
    show ¬ (3 = 1) by decide]
  exact (sendReplay_only k).run_bind (fun _ => trainEnd k >>= f) _

/-- Settles O32 (it holds), command by command. -/
theorem linksComeUp : Obligations.LinksComeUp := by
  refine ⟨fun s core k on hs ha => ?_, fun s k alloc hup hst => ?_, fun s k alloc hup hst => ?_, fun s k hup h => ?_,
    fun s k t1 t2 t3 t4 hup h => ?_⟩
  · obtain ⟨t, w, e, hw, h⟩ := exec_portEnable hs ha
    have st : ((Upd.reg (R.PORT_CTRL k) w).apply s).portState k = s.portState k := fldOf_upd_ne _ _ _ _ _ (portStatus_ne_portCtrl k k)
    have now : ((Upd.reg (R.PORT_CTRL k) w).apply s).now = s.now := congrArg BitVec.toNat (reg_upd_ne _ _ _ _ (timNow_ne_portCtrl k))
    have ports : t.ports = (Act.run (portEnabled k on) ((Upd.reg (R.PORT_CTRL k) w).apply s)).ports := h.1.2 .ports (by decide)
    have rest := portEnabled_writes.regsBut (l := [R.PORT_STATUS k]) (a := portEnabled k on) ((Upd.reg (R.PORT_CTRL k) w).apply s)
    refine ⟨t, e, h.2, ?_, ?_, ?_, ?_, ?_, h.regsBut (((regsBut_upd_reg _ w s).mono (by simp)).trans (rest.mono (by simp))), ?_⟩
    · refine (h.fldOf _ _).trans ((rest.fldOf ?_ _).trans ((fldOf_upd_self ..).trans hw))
      simpa using (portStatus_ne_portCtrl k k).symm
    · refine (h.fldOf _ _).trans ?_
      cases on with
      | true => exact (run_portEnabled_on k _).1.trans (by rw [st]; rfl)
      | false => exact (run_portEnabled_off k _).1
    · rintro rfl h0
      exact (port_congr ports k).trans (((run_portEnabled_on k _).2 (st.trans h0)).trans (by rw [now]; rfl))
    · rintro rfl
      rw [port_congr ports]
      exact (run_portEnabled_off k _).2.1
    · rintro rfl j h1 h2
      rw [port_congr ports]
      exact (run_portEnabled_off k _).2.2 j h1 h2
    · exact (h.sameBut_of ((SameBut.upd _ s rfl).trans ((portEnabled_only _ _).run _))).mono (by decide)
  · refine ⟨_, (next_run_mains hup _).trans (congrArg _ ((run_trainPass_training alloc hst _).trans (run_trainEnd _ ?_))),
      portUp_portState s k, portUp_width s k, port_upd_self _ _ _, rfl, portUp_regsBut s k, ?_⟩
    · exact port_upd_ne _ _ _ _ (by omega)
    · exact ((portUp_sameBut s k).mono (by decide)).trans ((SameBut.upd (.port k _) _ rfl).trans (SameBut.upd (.send _) _ rfl))
  · refine ⟨(Upd.port k { s.port k with retries := 0 }).apply (s.portUp k), _,
      (next_run_mains hup _).trans (congrArg _ ((run_trainPass_retrain alloc hst _).trans (run_trainEnd _ ?_))),
      portUp_portState s k, portUp_regsBut s k, fun j hj => port_upd_ne (s.portUp k) _ _ _ hj, port_upd_self _ _ _,
      ((portUp_sameBut s k).mono (by decide)).trans (SameBut.upd (.port k _) _ rfl), rfl⟩
    have far : (12 : Nat) ≠ k := by omega
    exact ((run_sendReplay k _).2.2.2 12 far).trans (port_upd_ne (s.portUp k) _ _ _ far)
  · have failed : Act.run (linkEvent k (trainTimeout k)) s = Act.run (portLost k) (Act.run (failPort k) s) := by
      show Act.run ((if (s.portState k = 1 ∧ (s.port k).since + 100000000 ≤ s.now) ∨ s.portState k = 3 then _ else _) >>= _) s = _
      rw [if_pos h]
      rfl
    have apart : R.PORT_STATUS k ≠ portPage k + 0x40 := by
      rw [portStatus_eq]
      exact portReg_ne (by decide)
    refine ⟨Act.run (failPort k) s, ?_, ?_, ?_, (failPort_only k).run s, (next_run_mains hup _).trans (congrArg _ failed)⟩
    · exact (fldOf_upd_ne _ _ _ _ _ apart).trans (fldOf_put_self _ _ _ _ (by decide))
    · exact (reg_upd_self _ _ _).trans
        (congrArg (fun w : Word => BitVec.ofNat 64 (orBit w.toNat 32)) (reg_upd_ne _ _ _ _ apart.symm))
    · exact ((regsBut_upd_reg _ _ s).mono (by simp)).trans ((regsBut_upd_reg _ _ _).mono (by simp))
  · refine ⟨_, next_run_mains hup _, ?_⟩
    have e : Act.run (delayMeasured k t1.toNat t2.toNat t3.toNat t4.toNat) s = Act.run (wrF (R.LINK_DELAY k) F.LINK_DELAY.delay
        (wrapI 32 ((((t4.toNat : Int) - t1.toNat) - ((t3.toNat : Int) - t2.toNat)) / 2))) s := by
      show Act.run (if s.portState k ≠ 2 then _ else _) s = _
      rw [if_neg (not_not.2 h)]
    rw [e]
    refine ⟨(fldOf_put_self _ _ _ _ (by decide)).trans (Nat.mod_eq_of_lt ?_), regsBut_upd_reg _ _ _, SameBut.upd (.reg _ _) s rfl⟩
    exact (Int.toNat_lt (Int.emod_nonneg _ (by decide))).2 (Int.emod_lt_of_pos _ (by decide))

end Sys2Proof.Machine
end

section
/-! # Flits, replay, transit, lanes and the spare (R323, R324, R327, R336, R346 to R348) -/

namespace Sys2Proof.Machine

/-! ## A flit reads as it was built (R323) -/

theorem leNat_leBytes (k n : Nat) : leNat (leBytes k n) = n % 256 ^ k := by
  induction k generalizing n with
  | zero => exact (Nat.mod_one n).symm
  | succ k ih =>
    show (BitVec.ofNat 8 n).toNat + 256 * leNat (leBytes k (n / 256)) = _
    rw [ih, BitVec.toNat_ofNat, show 256 ^ (k + 1) = 256 * 256 ^ k from Nat.pow_succ']
    exact Nat.mod_mul.symm

/-- A run of bytes read where it stands in a longer run. -/
theorem bytesAt_append {a m c : List Byte} {o n : Nat} (ho : a.length = o) (hn : m.length = n) : bytesAt (a ++ (m ++ c)) o n = m := by
  subst ho hn
  unfold bytesAt
  rw [List.drop_left, List.takeD_eq_take _ (by simp), List.take_left]

theorem numAt_append {a c : List Byte} {o n v : Nat} (ho : a.length = o) (hv : v < 256 ^ n) : numAt (a ++ (leBytes n v ++ c)) o n = v := by
  unfold numAt
  rw [bytesAt_append ho (length_leBytes n v), leNat_leBytes, Nat.mod_eq_of_lt hv]

/-- A number read past the front of a run. -/
theorem numAt_skip {a l : List Byte} {k : Nat} (h : a.length = k) (o n : Nat) : numAt (a ++ l) (k + o) n = numAt l o n := by
  subst h
  rw [numAt, bytesAt, List.drop_append, List.drop_eq_nil_of_le (Nat.le_add_right _ _), List.nil_append, Nat.add_sub_cancel_left]
  rfl

theorem numAt_front {c : List Byte} {n v : Nat} (hv : v < 256 ^ n) : numAt (leBytes n v ++ c) 0 n = v := numAt_append (a := []) rfl hv

theorem crc32cBit_lt {c : Nat} (h : c < 2 ^ 32) : crc32cBit c < 2 ^ 32 := by
  unfold crc32cBit
  split
  · exact Nat.xor_lt_two_pow (by omega) (by decide)
  · omega

theorem crc32cByte_lt {c : Nat} (b : Byte) (h : c < 2 ^ 32) : crc32cByte c b < 2 ^ 32 := by
  have fold (l : List Nat) (c : Nat) (h : c < 2 ^ 32) : l.foldl (fun x _ => crc32cBit x) c < 2 ^ 32 := by
    induction l generalizing c with
    | nil => exact h
    | cons _ _ ih => exact ih _ (crc32cBit_lt h)
  exact fold _ _ (Nat.xor_lt_two_pow h (b.isLt.trans (by decide)))

theorem crc32c_lt (l : List Byte) : crc32c l < 2 ^ 32 := by
  have fold (l : List Byte) (c : Nat) (h : c < 2 ^ 32) : l.foldl crc32cByte c < 2 ^ 32 := by
    induction l generalizing c with
    | nil => exact h
    | cons b _ ih => exact ih _ (crc32cByte_lt b h)
  unfold crc32c
  exact Nat.xor_lt_two_pow (fold l _ (by decide)) (by decide)

theorem laneByte_lt {i : Nat} (h : i < 9) : laneByte i < 240 ∧ laneByte i % 16 = 0 := by
  unfold laneByte
  split
  · omega
  · split <;> omega

/-- A lane's place, its number and class as byte 4 or 5 holds them. -/
theorem laneIx_laneByte {i : Nat} (h : i < 9) : laneIx (laneByte i / 32) (laneByte i / 16 % 2 = 0) = i := by
  revert i
  decide

section
variable {kind seq ack i n : Nat} {nak : Bool} {f : TxFlit}

/-- The first 252 bytes of a flit. -/
def flitHead (kind seq ack : Nat) (nak : Bool) (creditLane credits : Nat) (f : TxFlit) : List Byte :=
  leBytes 2 (seq * 16 + kind * 4) ++ (leBytes 2 (ack * 16 + b2n nak * 8 + 4) ++
    (leBytes 1 (laneByte f.lane + b2n f.sop * 8 + b2n f.eop * 4) ++ (leBytes 1 (laneByte creditLane) ++ (leBytes 2 credits ++
      (f.payload.takeD 240 0 ++ leBytes 4 0)))))

theorem mkFlit_eq : mkFlit kind seq ack nak i n f =
    flitHead kind seq ack nak i n f ++ leBytes 4 (crc32c (flitHead kind seq ack nak i n f)) := by
  unfold mkFlit flitHead
  simp only [List.append_assoc]

theorem length_flitHead : (flitHead kind seq ack nak i n f).length = 252 := by
  simp only [flitHead, List.length_append, length_leBytes, List.takeD_length]

theorem flGood_mkFlit : flGood (mkFlit kind seq ack nak i n f) = true := by
  have crc : numAt (mkFlit kind seq ack nak i n f) 252 4 = crc32c (flitHead kind seq ack nak i n f) := by
    rw [mkFlit_eq, ← List.append_nil (leBytes 4 _)]
    exact numAt_append length_flitHead (crc32c_lt _)
  have head : (mkFlit kind seq ack nak i n f).take 252 = flitHead kind seq ack nak i n f := by
    rw [mkFlit_eq, ← length_flitHead, List.take_left]
  have len : (mkFlit kind seq ack nak i n f).length = 256 := by
    rw [mkFlit_eq, List.length_append, length_flitHead, length_leBytes]
  simp only [flGood, crc, head, len, decide_true, Bool.and_self]


/-- The 16-bit and 8-bit words a flit begins with. -/
theorem numAt_mkFlit (hkind : kind < 4) (hseq : seq < 4096) (hack : ack < 4096) (hi : i < 9) (hn : n < 4096) (hlane : f.lane < 9) :
    numAt (mkFlit kind seq ack nak i n f) 0 2 = seq * 16 + kind * 4 ∧
      numAt (mkFlit kind seq ack nak i n f) 2 2 = ack * 16 + b2n nak * 8 + 4 ∧
      numAt (mkFlit kind seq ack nak i n f) 4 1 = laneByte f.lane + b2n f.sop * 8 + b2n f.eop * 4 ∧
      numAt (mkFlit kind seq ack nak i n f) 5 1 = laneByte i ∧ numAt (mkFlit kind seq ack nak i n f) 6 2 = n := by
  have flag (b : Bool) : b2n b ≤ 1 := by cases b <;> decide
  have hs := flag f.sop
  have he := flag f.eop
  have hk := flag nak
  have hf := laneByte_lt hlane
  have hc := laneByte_lt hi
  rw [mkFlit_eq]
  simp only [flitHead, List.append_assoc]
  have w {v : Nat} := length_leBytes 2 v
  have b {v : Nat} := length_leBytes 1 v
  refine ⟨numAt_front (by omega), ?_, ?_, ?_, ?_⟩
  · exact (numAt_skip w 0 2).trans (numAt_front (by omega))
  · exact (numAt_skip w 2 1).trans ((numAt_skip w 0 1).trans (numAt_front (by omega)))
  · exact (numAt_skip w 3 1).trans ((numAt_skip w 1 1).trans ((numAt_skip b 0 1).trans (numAt_front (by omega))))
  · exact (numAt_skip w 4 2).trans ((numAt_skip w 2 2).trans ((numAt_skip b 1 2).trans ((numAt_skip b 0 2).trans
      (numAt_front (by omega)))))

theorem bytesAt_mkFlit (h : f.payload.length = 240) : bytesAt (mkFlit kind seq ack nak i n f) 8 240 = f.payload := by
  rw [mkFlit_eq]
  have split : flitHead kind seq ack nak i n f ++ leBytes 4 (crc32c (flitHead kind seq ack nak i n f)) =
      (leBytes 2 (seq * 16 + kind * 4) ++ leBytes 2 (ack * 16 + b2n nak * 8 + 4) ++
        leBytes 1 (laneByte f.lane + b2n f.sop * 8 + b2n f.eop * 4) ++ leBytes 1 (laneByte i) ++ leBytes 2 n) ++
      (f.payload ++ (leBytes 4 0 ++ leBytes 4 (crc32c (flitHead kind seq ack nak i n f)))) := by
    have all : f.payload.takeD 240 0 = f.payload := by
      rw [List.takeD_eq_take _ (by omega), List.take_of_length_le (by omega)]
    simp only [flitHead, List.append_assoc, all]
  rw [split]
  exact bytesAt_append (by simp only [List.length_append, length_leBytes]) h

end

/-- The byte of a flit that names its lane and its marks (R323). -/
theorem laneMarks (f : TxFlit) (hvl : f.vl < 8) (hcmd : f.cmd = true → f.vl = 0) {m : Nat}
    (h : m = laneByte f.lane + b2n f.sop * 8 + b2n f.eop * 4) :
    m / 32 = f.vl ∧ (decide (m / 32 = 0) && decide (m / 16 % 2 = 0)) = f.cmd ∧ bit m 3 = f.sop ∧ bit m 2 = f.eop := by
  have place : laneByte f.lane = f.vl * 32 + (if f.vl = 0 ∧ f.cmd = false then 16 else 0) := by
    unfold TxFlit.lane laneIx laneByte
    by_cases h0 : f.vl = 0
    · cases f.cmd <;> simp [h0]
    · rw [if_neg h0, if_neg (by omega), if_neg (by omega), if_neg (by simp [h0])]
      omega
  have flag (b : Bool) : b2n b ≤ 1 := by cases b <;> decide
  have one (b : Bool) : decide (b2n b = 1) = b := by cases b <;> rfl
  have hs := flag f.sop
  have he := flag f.eop
  rw [place] at h
  refine ⟨by split at h <;> omega, ?_, ?_, ?_⟩
  · rw [Bool.eq_iff_iff, Bool.and_eq_true, decide_eq_true_eq, decide_eq_true_eq]
    split at h
    · next hc =>
      obtain ⟨h0, hf⟩ := hc
      rw [hf]
      exact ⟨fun hm => by omega, fun e => by cases e⟩
    · next hc =>
      refine ⟨fun hm => Bool.eq_true_of_not_eq_false fun e => hc ⟨by omega, e⟩, fun e => ?_⟩
      have h0 := hcmd e
      omega
  · have third : m / 2 ^ 3 % 2 = b2n f.sop := by split at h <;> omega
    exact (congrArg (fun x => decide (x = 1)) third).trans (one _)
  · have second : m / 2 ^ 2 % 2 = b2n f.eop := by split at h <;> omega
    exact (congrArg (fun x => decide (x = 1)) second).trans (one _)

theorem flit_reads {kind seq ack i n : Nat} {nak : Bool} {f : TxFlit} (hkind : kind < 4) (hseq : seq < 4096) (hack : ack < 4096)
    (hi : i < 9) (hn : n < 4096) (hvl : f.vl < 8) (hp : f.payload.length = 240) (hcmd : f.cmd = true → f.vl = 0) :
    flGood (mkFlit kind seq ack nak i n f) = true ∧ flKind (mkFlit kind seq ack nak i n f) = kind ∧
      flSeq (mkFlit kind seq ack nak i n f) = seq ∧ flAckValid (mkFlit kind seq ack nak i n f) = true ∧
      flAck (mkFlit kind seq ack nak i n f) = ack ∧ flNak (mkFlit kind seq ack nak i n f) = nak ∧
      laneIx (flCreditVl (mkFlit kind seq ack nak i n f)) (flCreditClass (mkFlit kind seq ack nak i n f) = 0) = i ∧
      flCredits (mkFlit kind seq ack nak i n f) = n ∧
      rxFlit (mkFlit kind seq ack nak i n f) = { vl := f.vl, cmd := f.cmd, sop := f.sop, eop := f.eop, payload := f.payload } := by
  have hlane : f.lane < 9 := by
    unfold TxFlit.lane laneIx
    split
    · split <;> omega
    · omega
  obtain ⟨h0, h2, h4, h5, h6⟩ := numAt_mkFlit (nak := nak) hkind hseq hack hi hn hlane
  simp only [flGood_mkFlit, flKind, flSeq, flAckValid, flAck, flNak, flCreditVl, flCreditClass, flCredits, rxFlit, flVl, flClass,
    h0, h2, h4, h5, h6, bytesAt_mkFlit hp, laneIx_laneByte hi, true_and]
  refine ⟨by omega, by omega, ?_, ?_, ?_, by omega, ?_⟩
  · cases nak <;> simp [bit, b2n] <;> omega
  · cases nak <;> simp [b2n] <;> omega
  · cases nak <;> simp [bit, b2n] <;> omega
  · obtain ⟨vl, cmd, sop, eop⟩ := laneMarks f hvl hcmd rfl
    rw [vl, sop, eop] at *
    rw [cmd]

/-! ## Received flits (R324) -/

/-- What an acknowledgement takes from the replay buffer of a port. -/
def PortX.acked (x : PortX) (rest : List SentFlit) : PortX :=
  { x with replay := rest, retries := if rest.length < x.replay.length then 0 else x.retries }

theorem run_takeAck {s : State} {k ack : Nat} {rest : List SentFlit}
    (h : rest = (s.port k).replay.dropWhile (fun e => ackCovers ack e.seq)) :
    Act.run (takeAck k ack) s =
      if rest.length < (s.port k).replay.length then (Upd.port k { s.port k with replay := rest, retries := 0 }).apply s else s := by
  subst h
  exact run_ite s (((s.port k).replay.dropWhile (fun e => ackCovers ack e.seq)).length < (s.port k).replay.length) _ (pure ())

/-- Nothing acknowledged leaves the buffer as it is. -/
theorem dropWhile_eq_self {α : Type} {p : α → Bool} {l : List α} (h : ¬ (l.dropWhile p).length < l.length) : l.dropWhile p = l :=
  (List.dropWhile_suffix p).eq_of_length_le (Nat.le_of_not_lt h)

theorem port_takeAck {s : State} {k ack : Nat} {rest : List SentFlit}
    (h : rest = (s.port k).replay.dropWhile (fun e => ackCovers ack e.seq)) :
    (Act.run (takeAck k ack) s).port k = (s.port k).acked rest ∧ ∀ j, j ≠ k → (Act.run (takeAck k ack) s).port j = s.port j := by
  rw [run_takeAck h]
  unfold PortX.acked
  split
  · exact ⟨port_upd_self _ _ _, fun j hj => port_upd_ne _ _ _ _ hj⟩
  · next hl =>
    rw [show rest = (s.port k).replay from h.trans (dropWhile_eq_self (h ▸ hl))]
    exact ⟨rfl, fun _ _ => rfl⟩

/-- A port that has taken the credits a flit brings. -/
def PortX.credited (x : PortX) (l : List Byte) : PortX :=
  { x with
    credit := laneAdd x.credit (laneIx (flCreditVl l) (flCreditClass l = 0)) (flCredits l)
    inUse := freeUses (laneIx (flCreditVl l) (flCreditClass l = 0)) (flCredits l) x.inUse }

/-- A port that has taken the data of a flit into its receive buffer. -/
def PortX.dataTaken (x : PortX) (l : List Byte) : PortX :=
  { x with
    rxNext := (x.rxNext + 1) % 4096
    naked := false
    rxq := x.rxq ++ [rxFlit l] }

/-- What a port does with a good data flit once its acknowledgement is taken. -/
def takeData (k : Nat) (l : List Byte) (room : Bool) (end_ : Act Bool) : Act Bool := do
  takeCredits k (laneIx (flCreditVl l) (flCreditClass l = 0)) (flCredits l)
  let y ← rd (fun t => t.port k)
  if flSeq l = y.rxNext && room then
    Act.upd (.port k { y with
      rxNext := (y.rxNext + 1) % 4096
      naked := false
      rxq := y.rxq ++ [rxFlit l] })
  else refuseFlit k
  end_

/-- What a received flit makes its port do last. -/
def rxEnd (k : Nat) (l : List Byte) : Act Bool := do
  let failed ← (if flNak l && flAckValid l then replayNow k else pure false)
  pump k
  return failed

theorem run_takeData {v : State} {k : Nat} {l : List Byte} (hn : flSeq l = (v.port k).rxNext) (end_ : Act Bool)
    (f : Bool → Act Unit) :
    ∃ u, Act.run (takeData k l true end_ >>= f) v = Act.run (end_ >>= f) u ∧ u.port k = ((v.port k).credited l).dataTaken l ∧
      (∀ j, j ≠ k → u.port j = v.port j) ∧ SameBut [.ports] v u := by
  let w := (Upd.port k ((v.port k).credited l)).apply v
  have hw : w.port k = (v.port k).credited l := port_upd_self _ _ _
  have next : (flSeq l = (w.port k).rxNext && true) = true := by rw [hw, hn]; simp [PortX.credited]
  have e : Act.run (takeData k l true end_ >>= f) v =
      if (flSeq l = (w.port k).rxNext && true) = true then
        Act.run (end_ >>= f) ((Upd.port k ((w.port k).dataTaken l)).apply w)
      else Act.run (refuseFlit k >>= fun _ => end_ >>= f) w := run_ite_bind w _ _ _ f
  rw [if_pos next, hw] at e
  refine ⟨_, e, port_upd_self _ _ _, fun j hj => ?_, ?_⟩
  · exact (port_upd_ne w _ _ _ hj).trans (port_upd_ne v _ _ _ hj)
  · exact (SameBut.upd (.port k _) v rfl).trans (SameBut.upd (.port k _) w rfl)

theorem run_flitRx_good {s : State} {k : Nat} {l : List Byte} {rest : List SentFlit} (hst : s.portState k = 2 ∨ s.portState k = 3)
    (hg : flGood l = true) (hk : flKind l = 0) (hn : flSeq l = (s.port k).rxNext) (hroom : s.rxRoom k (rxFlit l).lane = true)
    (hr : rest = (if flAckValid l then (s.port k).replay.dropWhile (fun e => ackCovers (flAck l) e.seq) else (s.port k).replay)) :
    ∃ u, Act.run (linkEvent k (flitRx k l false)) s = Act.run (linkEvent k (rxEnd k l)) u ∧ SameBut [.ports] s u ∧
      (∀ j, j ≠ k → u.port j = s.port j) ∧ u.port k = (((s.port k).acked rest).credited l).dataTaken l := by
  have carries : ¬ (s.portState k ≠ 2 ∧ s.portState k ≠ 3) := by omega
  have go {v : State} (e : Act.run (linkEvent k (flitRx k l false)) s = Act.run (linkEvent k (takeData k l true (rxEnd k l))) v)
      (hv : v.port k = (s.port k).acked rest) (hj : ∀ j, j ≠ k → v.port j = s.port j) (q : SameBut [.ports] s v) :
      ∃ u, Act.run (linkEvent k (flitRx k l false)) s = Act.run (linkEvent k (rxEnd k l)) u ∧ SameBut [.ports] s u ∧
        (∀ j, j ≠ k → u.port j = s.port j) ∧ u.port k = (((s.port k).acked rest).credited l).dataTaken l :=
    let ⟨u, r, port, other, q'⟩ := run_takeData (by rw [hv]; exact hn) _ _
    ⟨u, e.trans r, q.trans q', fun j h => (other j h).trans (hj j h), port.trans (by rw [hv])⟩
  cases hav : flAckValid l with
  | true =>
    obtain ⟨port, other⟩ := port_takeAck (s := s) (k := k) (ack := flAck l) (rest := rest) (by rw [hr, hav]; rfl)
    refine go ?_ port other ((takeAck_only _ _).run s)
    unfold linkEvent flitRx rxEnd
    simp only [run_get_bind, run_bind_bind, if_neg carries, hg, hk, hav, hroom, Bool.false_eq_true, if_false, Bool.not_true,
      Bool.or_self, show ¬ (0 = 3) by decide, if_true]
    exact (takeAck_only _ _).run_bind _ s
  | false =>
    refine go (v := s) ?_ ?_ (fun _ _ => rfl) (SameBut.refl _ _)
    · unfold linkEvent flitRx rxEnd
      simp only [run_get_bind, run_bind_bind, if_neg carries, hg, hk, hav, hroom, Bool.false_eq_true, if_false, Bool.not_true,
        Bool.or_self, show ¬ (0 = 3) by decide, if_true]
      rfl
    · rw [hr, hav]
      simp [PortX.acked]

/-- A flit that is refused is answered with a nak, unless one is out (R324). -/
theorem run_refuseFlit (k : Nat) (s : State) :
    let t := Act.run (refuseFlit k) s
    (∀ j, j ≠ k → t.port j = s.port j) ∧
      (if (s.port k).naked then t.port k = s.port k ∧ t.sent = s.sent
        else t.port k = flitGone { s.port k with naked := true } ∧
          t.sent = s.sent ++ [.flit k (flitFrom (s.port k) 1 0 true (bareFlit []))]) := by
  cases h : (s.port k).naked with
  | true =>
    have e : Act.run (refuseFlit k) s = s := by
      show Act.run (if (!(s.port k).naked) = true then _ else _) s = s
      rw [h]
      rfl
    rw [e]
    exact ⟨fun _ _ => rfl, by simp⟩
  | false =>
    let u := (Upd.port k { s.port k with naked := true }).apply s
    have e : Act.run (refuseFlit k) s =
        (Upd.send (.flit k (flitFrom (u.port k) 1 0 true (bareFlit [])))).apply ((Upd.port k (flitGone (u.port k))).apply u) := by
      show Act.run (if (!(s.port k).naked) = true then _ else _) s = _
      rw [h]
      rfl
    have port : u.port k = { s.port k with naked := true } := port_upd_self _ _ _
    rw [e, port]
    refine ⟨fun j hj => ?_, port_upd_self u _ _, rfl⟩
    exact (port_upd_ne u _ _ _ hj).trans (port_upd_ne s _ _ _ hj)

theorem run_flitRx_bad {s : State} {k : Nat} {l : List Byte} {bad : Bool} (hst : s.portState k = 2 ∨ s.portState k = 3)
    (hb : bad = true ∨ flGood l = false) :
    ∃ v, SameBut [.regs] s v ∧ Act.run (linkEvent k (flitRx k l bad)) s = Act.run (refuseFlit k) v := by
  have carries : ¬ (s.portState k ≠ 2 ∧ s.portState k ≠ 3) := by omega
  have hbad : (bad || !flGood l) = true := by rcases hb with h | h <;> simp [h]
  have fec := (count_only (C.FEC_UNCORR k) 1).run s
  unfold linkEvent flitRx
  simp only [run_get_bind, run_bind_bind, if_neg carries, hbad, if_true, run_ite_bind]
  split <;> split
  · refine ⟨_, fec.trans ((count_only (C.CRC_BAD k) 1).run _), ((count_only _ _).run_bind _ s).trans (((count_only _ _).run_bind _ _).trans ?_)⟩
    exact (refuseFlit_only k).run_bind _ _
  · exact ⟨_, fec, ((count_only _ _).run_bind _ s).trans ((refuseFlit_only k).run_bind _ _)⟩
  · exact ⟨_, (count_only (C.CRC_BAD k) 1).run s, ((count_only _ _).run_bind _ s).trans ((refuseFlit_only k).run_bind _ _)⟩
  · exact ⟨s, SameBut.refl _ _, (refuseFlit_only k).run_bind _ _⟩

/-! ## Replay (R324) -/

/-- A replay of what is unacknowledged, at a port that is UP. -/
theorem run_replayNow {s : State} {k : Nat} (hst : s.portState k = 2) (hne : (s.port k).replay ≠ []) :
    Act.run (linkEvent k (replayNow k)) s = Act.run (linkEvent k (
      if s.fldOf (R.PORT_CTRL k) F.PORT_CTRL.retry_limit ≤ (s.port k).retries + 1 then enterRetrain k
      else do
        modPort k (fun y => { y with retries := (s.port k).retries + 1 })
        return false)) (Act.run (sendReplay k) s) := by
  unfold linkEvent replayNow
  simp only [run_get_bind, run_bind_bind, hst, List.isEmpty_iff, hne, ne_eq, not_true_eq_false, or_self, if_false]
  exact (sendReplay_only k).run_bind _ s

theorem run_replayNow_limit {s : State} {k : Nat} (hst : s.portState k = 2) (hne : (s.port k).replay ≠ [])
    (hlim : s.fldOf (R.PORT_CTRL k) F.PORT_CTRL.retry_limit ≤ (s.port k).retries + 1) :
    Act.run (linkEvent k (replayNow k)) s = Act.run (linkEvent k (do sendReplay k; enterRetrain k)) s := by
  rw [run_replayNow hst hne, if_pos hlim]
  exact ((sendReplay_only k).run_bind (fun _ => linkEvent k (enterRetrain k)) s).symm

theorem replayed_below {s : State} {k : Nat} (hst : s.portState k = 2) (hne : (s.port k).replay ≠ [])
    (hlim : (s.port k).retries + 1 < s.fldOf (R.PORT_CTRL k) F.PORT_CTRL.retry_limit) :
    Replayed s (Act.run (linkEvent k (replayNow k)) s) k := by
  obtain ⟨replay, -, ⟨os, sent, each⟩, other⟩ := run_sendReplay k s
  rw [run_replayNow hst hne, if_neg (by omega)]
  show Replayed s ((Upd.port k _).apply (Act.run (sendReplay k) s)) k
  refine ⟨?_, ?_, ⟨os, sent, each⟩, fun j hj => (port_upd_ne _ _ _ _ hj).trans (other j hj),
    ((sendReplay_only k).run s).trans (SameBut.upd (.port k _) _ rfl)⟩
  · rw [port_upd_self]
    exact replay
  · rw [port_upd_self]

/-- An empty replay buffer has nothing to send again. -/
theorem run_replayNow_empty {s : State} {k : Nat} (h : (s.port k).replay = []) : Act.run (linkEvent k (replayNow k)) s = s := by
  show Act.run ((if s.portState k ≠ 2 ∨ (s.port k).replay.isEmpty = true then _ else _) >>= _) s = s
  rw [if_pos (.inr (by rw [h]; rfl))]
  rfl

theorem run_takeNak (k ack : Nat) (s : State) :
    Act.run (linkEvent k (takeNak k ack)) s = Act.run (linkEvent k (replayNow k)) (Act.run (takeAck k ack) s) :=
  (takeAck_only k ack).run_bind (fun _ => linkEvent k (replayNow k)) s

theorem run_replayTimeout {s : State} {k : Nat} {e : SentFlit} (h : (s.port k).replay.head? = some e)
    (hdue : e.sentAt + s.fldOf (R.PORT_CTRL k) F.PORT_CTRL.replay_timeout ≤ s.now) :
    Act.run (linkEvent k (replayTimeout k)) s = Act.run (linkEvent k (replayNow k)) s := by
  obtain ⟨l, hl⟩ : ∃ l, (s.port k).replay = e :: l := by
    cases hx : (s.port k).replay with
    | nil => rw [hx] at h; cases h
    | cons a l => rw [hx] at h; exact ⟨l, by rw [Option.some.inj h]⟩
  show Act.run ((match (s.port k).replay with
    | [] => pure false
    | e :: _ => if e.sentAt + s.fldOf (R.PORT_CTRL k) F.PORT_CTRL.replay_timeout ≤ s.now then replayNow k else pure false) >>= _) s = _
  rw [hl]
  dsimp only
  rw [if_pos hdue]
  rfl

/-! ## Transit (R336) -/

theorem run_transitFlit {s : State} {k : Nat} {sop eop : Bool} {payload : List Byte} {o : Nat × Nat} (hk : 8 ≤ k)
    (hst : s.portState k = 2 ∨ s.portState k = 3) (hown : sop = true → pkDst payload ≠ s.ownFabric)
    (ho : sop = true ∧ (∃ pos, s.posOfFabric (pkDst payload) = some pos ∧
        o = (boardLink s.boardPos pos, (s.port (boardLink s.boardPos pos)).nextPkt)) ∨
      sop = false ∧ (s.port k).transit = some o) :
    Act.run (transitFlit k sop eop payload) s = Act.run (do
        Act.upd (.port k { s.port k with
          transit := if eop then none else some o
          rxq := (s.port k).rxq.eraseP (fun f => f.lane = 6) })
        modPort o.1 (fun y => { y with
          txq := y.txq ++ [{ vl := 5, cmd := false, sop := sop, eop := eop, payload := payload, pkt := o.2, src := some k }]
          nextPkt := if sop then y.nextPkt + 1 else y.nextPkt })
        pump o.1) s := by
  have carries : ¬ (k < 8 ∨ (s.portState k ≠ 2 ∧ s.portState k ≠ 3) ∨ (sop = true ∧ decide (pkDst payload = s.ownFabric) = true)) := by
    rintro (h | h | ⟨h, h'⟩)
    · omega
    · omega
    · exact hown h (of_decide_eq_true h')
  unfold transitFlit
  simp only [run_get_bind, if_neg carries]
  rcases ho with ⟨rfl, pos, hpos, rfl⟩ | ⟨rfl, h⟩
  · simp only [hpos, if_true]
  · simp only [h, Bool.false_eq_true, if_false]

theorem flitsInOrder : FlitsInOrder := by
  refine ⟨fun kind seq ack i n nak f hkind hseq hack hi hn hvl hp hcmd => flit_reads hkind hseq hack hi hn hvl hp hcmd,
    fun s k l rest hup hst hg hk hn hroom hr => ?_, fun s k l bad hup hst hb => ?_, fun s u k ack rest hup hst hr hu => ?_,
    fun s k e hup hst hh hdue => ?_, fun s link sop eop payload k o hup hk hst h => ?_⟩
  · obtain ⟨u, e, q, other, port⟩ := run_flitRx_good hst hg hk hn hroom hr
    exact ⟨u, (next_run_mains hup _).trans (congrArg _ e), q, other, port⟩
  · obtain ⟨v, q, e⟩ := run_flitRx_bad hst hb
    obtain ⟨other, here⟩ := run_refuseFlit k v
    have port (j : Nat) : v.port j = s.port j := port_congr (q.2 .ports (by decide)) j
    refine ⟨_, (next_run_mains hup _).trans (congrArg _ e), fun j hj => (other j hj).trans (port j), ?_,
      (q.mono (by decide)).trans (((refuseFlit_only k).run v).mono (by decide))⟩
    rwa [port, show v.sent = s.sent from q.2 .sent (by decide)] at here
  · have ack' : Act.run (takeAck k ack.toNat) s = u := (run_takeAck hr).trans hu.symm
    have same : u.regs = s.regs := by rw [hu]; split <;> rfl
    have st : u.portState k = 2 := (fldOf_congr same _ _).trans hst
    have port : (u.port k).replay = rest := by rw [← ack', (port_takeAck hr).1]; rfl
    have lim : u.fldOf (R.PORT_CTRL k) F.PORT_CTRL.retry_limit = s.fldOf (R.PORT_CTRL k) F.PORT_CTRL.retry_limit := fldOf_congr same _ _
    have go : exec (.linkNak k ack) s = .next (Act.run (linkEvent k (replayNow k)) u) :=
      (next_run_mains hup _).trans (congrArg _ ((run_takeNak _ _ _).trans (by rw [ack'])))
    refine ⟨fun h => go.trans (congrArg _ (run_replayNow_empty (port.trans h))), fun h hlim => ⟨_, go, ?_⟩, fun h hlim => ?_⟩
    · exact replayed_below st (by rwa [port]) (by rwa [lim])
    · exact go.trans (congrArg _ (run_replayNow_limit st (by rwa [port]) (by rwa [lim])))
  · have ne : (s.port k).replay ≠ [] := fun e => by rw [e] at hh; cases hh
    have go : exec (.linkReplayTimeout k) s = .next (Act.run (linkEvent k (replayNow k)) s) :=
      (next_run_mains hup _).trans (congrArg _ (run_replayTimeout hh hdue))
    exact ⟨fun hlim => ⟨_, go, replayed_below hst ne hlim⟩, fun hlim => go.trans (congrArg _ (run_replayNow_limit hst ne hlim))⟩
  · subst hk
    refine (next_run_mains hup _).trans (congrArg _ (run_transitFlit (by omega) hst (fun hs => ?_)
      (h.imp_left fun ⟨hs, _, pos⟩ => ⟨hs, pos⟩)))
    rcases h with ⟨-, h, -⟩ | ⟨h, -⟩
    · exact h
    · rw [hs] at h; cases h

/-! ## Lanes and the spare (R346 to R348) -/

/-- A link management flit goes out. -/
theorem run_sendLinkMsg (k code lane : Nat) (s : State) :
    Act.run (sendLinkMsg k code lane) s =
      (Upd.send (.linkMsg k code lane (flitFrom (s.port k) 2 0 false (bareFlit (Config.linkPayload code lane))))).apply
        ((Upd.port k (flitGone (s.port k))).apply s) := rfl

/-- The port's record asks for a lane's swap, and the flit that says so goes out. -/
theorem run_askSwap (k code lane : Nat) (s : State) :
    let t := Act.run (do
      Act.upd (.port k { s.port k with swap := some lane })
      sendLinkMsg k code lane) s
    t.port k = flitGone { s.port k with swap := some lane } ∧ (∀ j, j ≠ k → t.port j = s.port j) ∧
      t.sent = s.sent ++ [.linkMsg k code lane (flitFrom (s.port k) 2 0 false (bareFlit (Config.linkPayload code lane)))] ∧
      SameBut [.ports, .sent] s t := by
  let u := (Upd.port k { s.port k with swap := some lane }).apply s
  have port : u.port k = { s.port k with swap := some lane } := port_upd_self _ _ _
  have e := run_sendLinkMsg k code lane u
  rw [port] at e
  dsimp only
  rw [run_upd_bind, e]
  exact ⟨port_upd_self u _ _, fun j hj => (port_upd_ne u _ _ _ hj).trans (port_upd_ne s _ _ _ hj), rfl,
    (SameBut.upd (.port k _) s rfl).trans ((SameBut.upd (.port k _) u rfl).trans (SameBut.upd (.send _) _ rfl))⟩

/-- The state that marks a lane failed. -/
def State.laneMarked (s : State) (k lane : Nat) : State :=
  Act.run (wrF (R.PORT_STATUS k) F.PORT_STATUS.failed_lanes (orBit (s.fldOf (R.PORT_STATUS k) F.PORT_STATUS.failed_lanes) lane)) s

theorem bit_orBit_mod {n i w : Nat} (h : i < w) : bit (orBit n i % 2 ^ w) i = true := by
  have set : (orBit n i).testBit i = true := by
    unfold orBit
    split
    · next h => rwa [bit_eq_testBit] at h
    · next h =>
      rw [bit_eq_testBit, Bool.not_eq_true] at h
      rw [Nat.add_comm, Nat.testBit_two_pow_add_eq, h]
      rfl
  rw [bit_eq_testBit, Nat.testBit_mod_two_pow, set]
  simpa using h

theorem laneMarked_bit (s : State) (k : Nat) {lane : Nat} (h : lane < 9) :
    bit ((s.laneMarked k lane).fldOf (R.PORT_STATUS k) F.PORT_STATUS.failed_lanes) lane = true := by
  rw [State.laneMarked, run_wrF, fldOf_put_self _ _ _ _ (by decide)]
  exact bit_orBit_mod h

theorem laneMarked_portState (s : State) (k j lane : Nat) : (s.laneMarked k lane).portState j = s.portState j := by
  unfold State.portState
  by_cases h : R.PORT_STATUS j = R.PORT_STATUS k
  · rw [h]
    exact fldOf_put_ne _ _ _ _ _ (by decide) (by decide)
  · exact fldOf_upd_ne _ _ _ _ _ h

/-- A lane of a port that is UP fails: it is marked, and then the spare is looked to. -/
theorem run_laneFailed {s : State} {k lane : Nat} (hst : s.portState k = 2) (hlane : k < 8 → lane < 4 ∨ lane = 8) (f : Bool → Act Unit) :
    Act.run (laneFailed k lane >>= f) s = Act.run ((do
      if lane = 8 then
        if s.spareState k = 1 ∨ s.spareState k = 2 then
          let l := s.fldOf (R.PORT_STATUS k) F.PORT_STATUS.spare_for
          setSpare k 3 0
          if s.spareState k = 2 then
            fallBack k
          else
            wrF (R.PORT_STATUS k) F.PORT_STATUS.failed_lanes (orBit (s.fldOf (R.PORT_STATUS k) F.PORT_STATUS.failed_lanes) 8)
            if bit (s.fldOf (R.PORT_STATUS k) F.PORT_STATUS.failed_lanes) l then fallBack k else return false
        else
          setSpare k 3 0
          return false
      else if s.fldOf (R.PORT_CTRL k) F.PORT_CTRL.spare_auto = 1 && s.spareIdle k then
        Act.upd (.port k { s.port k with swap := some lane })
        sendLinkMsg k 0 lane
        return false
      else fallBack k) >>= f) (s.laneMarked k lane) := by
  have used : ¬ (s.portState k ≠ 2 ∨ (k < 8 ∧ 4 ≤ lane ∧ lane ≠ 8)) := by omega
  unfold laneFailed
  simp only [run_get_bind, run_bind_bind, if_neg used]
  rfl

theorem pairPort_ne {k j : Nat} (h : pairPort k = some j) : R.PORT_STATUS k ≠ R.PORT_STATUS j := by
  unfold pairPort at h
  split at h
  · next hk =>
    have hj := Option.some.inj h
    rw [portStatus_eq, portStatus_eq]
    exact portReg_ne_of_port (by omega) (by split at hj <;> omega) (by split at hj <;> omega)
  · cases h

/-- The other port of a pair sees the spare as taken, or as free again. -/
def sparePair (k st : Nat) : Act Unit := do
  match pairPort k with
  | some j =>
    let other ← rd (fun s => s.spareState j)
    if st = 0 ∧ other = 3 then wrF (R.PORT_STATUS j) F.PORT_STATUS.spare_state 0
    if st ≠ 0 ∧ other = 0 then wrF (R.PORT_STATUS j) F.PORT_STATUS.spare_state 3
  | none => skip

theorem fldOf_sparePair (k st : Nat) (s : State) (g : Fld) :
    (Act.run (sparePair k st) s).fldOf (R.PORT_STATUS k) g = s.fldOf (R.PORT_STATUS k) g := by
  unfold sparePair
  cases h : pairPort k with
  | none => rfl
  | some j =>
    have w {n : Nat} : WritesOnly (· ∈ [R.PORT_STATUS j]) (wrF (R.PORT_STATUS j) F.PORT_STATUS.spare_state n) :=
      wrF_writes (List.mem_singleton.2 rfl)
    have pair : WritesOnly (· ∈ [R.PORT_STATUS j]) (do
        let other ← rd (fun s => s.spareState j)
        if st = 0 ∧ other = 3 then wrF (R.PORT_STATUS j) F.PORT_STATUS.spare_state 0
        if st ≠ 0 ∧ other = 0 then wrF (R.PORT_STATUS j) F.PORT_STATUS.spare_state 3) :=
      .bind .rd fun _ => .ite (.bind w fun _ => .ite w .pure) (.ite w .pure)
    exact pair.fldOf s (by simpa using pairPort_ne h) g

/-- What setSpare leaves: the spare's state and lane, and no other field of the port's status. -/
theorem run_setSpare (k st lane : Nat) (s : State) :
    let t := Act.run (setSpare k st lane) s
    t.spareState k = st % 4 ∧ t.fldOf (R.PORT_STATUS k) F.PORT_STATUS.spare_for = lane % 16 ∧
      ∀ g : Fld, (g.hi < 42 ∨ 47 < g.lo) → t.fldOf (R.PORT_STATUS k) g = s.fldOf (R.PORT_STATUS k) g := by
  have e : Act.run (setSpare k st lane) s = Act.run (sparePair k st) (Act.run (do
      wrF (R.PORT_STATUS k) F.PORT_STATUS.spare_state st
      wrF (R.PORT_STATUS k) F.PORT_STATUS.spare_for lane) s) := by
    unfold setSpare sparePair
    cases pairPort k <;> rfl
  dsimp only
  rw [e, run_wrF_bind, run_wrF, State.spareState, fldOf_sparePair, fldOf_sparePair]
  refine ⟨?_, fldOf_put_self _ _ _ _ (by decide), fun g h => ?_⟩
  · rw [fldOf_put_ne _ _ _ _ _ (by decide) (by decide)]
    exact fldOf_put_self _ _ _ _ (by decide)
  · rw [fldOf_sparePair, fldOf_put_ne _ _ _ _ _ (by decide), fldOf_put_ne _ _ _ _ _ (by decide)]
    · simp only [F.PORT_STATUS.spare_state]; omega
    · simp only [F.PORT_STATUS.spare_for]; omega

/-- The counters of a port's page. -/
theorem spareSwap_isCounter (k : Nat) : IsCounter (C.SPARE_SWAP k) := by
  unfold C.SPARE_SWAP
  split
  · exact isCounter_regA (by decide)
  · exact isCounter_regA (by decide)

/-- A swap is done: the spare stands in the lane's place, and the port's record asks for nothing more. -/
theorem run_swapDone {s : State} {k lane : Nat} (h : (s.port k).swap = some lane) :
    let t := Act.run (swapDone k) s
    t.port k = { s.port k with swap := none } ∧ t.spareState k = 2 ∧
      t.fldOf (R.PORT_STATUS k) F.PORT_STATUS.spare_for = lane % 16 ∧ t.portState k = s.portState k := by
  let u := (Upd.port k { s.port k with swap := none }).apply s
  let v := Act.run (setSpare k 2 lane) u
  obtain ⟨state, for_, rest⟩ := run_setSpare k 2 lane u
  have e : Act.run (swapDone k) s = Act.run (do setIrq (portPage k) 33; count (C.SPARE_SWAP k) 1) v := by
    unfold swapDone
    simp only [run_rd_bind, h, run_upd_bind]
    exact (setSpare_only _ _ _).run_bind _ u
  have writes : WritesOnly (fun r => r = portPage k + 0x40 ∨ IsCounter r) (do setIrq (portPage k) 33; count (C.SPARE_SWAP k) 1) :=
    .bind (setIrq_writes (.inl rfl)) fun _ => count_writes (.inr (spareSwap_isCounter k)) fun _ h => .inr h
  have far : ¬ (R.PORT_STATUS k = portPage k + 0x40 ∨ IsCounter (R.PORT_STATUS k)) := by
    have aligned := portPage_aligned k
    rw [portStatus_eq, IsCounter]
    omega
  have ports : (Act.run (do setIrq (portPage k) 33; count (C.SPARE_SWAP k) 1) v).ports = u.ports :=
    ((Only.bind ((setIrq_only _ _).sub rfl) fun _ => (count_only _ _).sub rfl : Only [.regs] _).run v).2 .ports (by decide) |>.trans
      (((setSpare_only _ _ _).run u).2 .ports (by decide))
  dsimp only
  rw [e]
  exact ⟨(port_congr ports k).trans (port_upd_self _ _ _), (writes.fldOf v far _).trans state, (writes.fldOf v far _).trans for_,
    (writes.fldOf v far _).trans (rest _ (by decide))⟩

theorem lanesSwap : LanesSwap := by
  refine ⟨fun s k lane hup hst hlane => ⟨fun h8 hauto hidle => ?_, fun h8 h => ?_, fun h8 h1 h2 => ?_⟩, fun s k lane hup => ?_,
    fun s k lane hup hswap hlane => ?_⟩
  · obtain ⟨port, -, sent, q⟩ := run_askSwap k 0 lane (s.laneMarked k lane)
    have e : exec (.laneFail k lane) s = .next (Act.run (do
        Act.upd (.port k { (s.laneMarked k lane).port k with swap := some lane.val })
        sendLinkMsg k 0 lane) (s.laneMarked k lane)) := by
      refine (next_run_mains hup _).trans (congrArg _ ((run_laneFailed hst hlane _).trans ?_))
      rw [if_neg h8, hauto, hidle, if_pos (by decide)]
      rfl
    have regs := q.2 .regs (by decide)
    refine ⟨_, e, (congrArg (bit · _) (fldOf_congr regs _ _)).trans (laneMarked_bit s k lane.isLt), port, sent,
      (fldOf_congr regs _ _).trans ((laneMarked_portState s k k lane).trans hst), fun a ha => ?_, ?_⟩
    · exact (reg_congr regs a).trans (regsBut_upd_reg _ _ s a ha)
    · exact (SameBut.upd (.reg _ _) s rfl).trans (q.mono (by decide))
  · refine ⟨s.laneMarked k lane, (next_run_mains hup _).trans (congrArg _ ((run_laneFailed hst hlane _).trans ?_)),
      laneMarked_bit s k lane.isLt, regsBut_upd_reg _ _ _, SameBut.upd (.reg _ _) s rfl⟩
    have not : ¬ (s.fldOf (R.PORT_CTRL k) F.PORT_CTRL.spare_auto = 1 && s.spareIdle k) = true := by
      rcases h with h | h <;> simp [h]
    rw [if_neg h8, if_neg not]
    rfl
  · have e : exec (.laneFail k lane) s = .next (Act.run (setSpare k 3 0) (s.laneMarked k lane)) := by
      refine (next_run_mains hup _).trans (congrArg _ ((run_laneFailed hst hlane _).trans ?_))
      rw [if_pos h8, if_neg (by omega)]
      exact (setSpare_only _ _ _).run_bind _ _
    obtain ⟨state, -, rest⟩ := run_setSpare k 3 0 (s.laneMarked k lane)
    refine ⟨_, e, (congrArg (bit · 8) (rest _ (by decide))).trans ?_, state,
      (rest _ (by decide)).trans ((laneMarked_portState s k k lane).trans hst),
      (SameBut.upd (.reg _ _) s rfl).trans ((setSpare_only _ _ _).run _)⟩
    rw [h8]
    exact laneMarked_bit s k (by decide)
  · have e := next_run_mains hup (swapRequest k lane)
    by_cases h : s.portState k = 2 ∧ s.spareIdle k = true ∧ (8 ≤ k.val ∨ lane.val < 4) ∧ lane.val ≠ 8
    · obtain ⟨port, other, sent, q⟩ := run_askSwap k 1 lane s
      have go : Act.run (swapRequest k lane) s = _ := (run_ite s _ _ _).trans (if_pos (by simpa [and_assoc] using h))
      refine ⟨_, e.trans (congrArg _ go), other, ?_, q⟩
      rw [if_pos h]
      exact ⟨port, sent⟩
    · have go : Act.run (swapRequest k lane) s = Act.run (sendLinkMsg k 2 lane) s :=
        (run_ite s _ _ _).trans (if_neg (by simpa [and_assoc] using h))
      refine ⟨_, e.trans (congrArg _ go), fun j hj => port_upd_ne _ _ _ _ hj, ?_, (sendLinkMsg_only _ _ _).run s⟩
      rw [if_neg h]
      exact ⟨port_upd_self _ _ _, rfl⟩
  · obtain ⟨port, state, for_, up⟩ := run_swapDone hswap
    exact ⟨_, next_run_mains hup _, port, state, for_.trans (Nat.mod_eq_of_lt (by omega)), up, (swapDone_only k).run s⟩

/-- Settles O54 (it holds): a flit reads as it was built, and each command's meaning is read off its action. -/
theorem flitsAndLanes : Obligations.FlitsAndLanes := ⟨flitsInOrder, lanesSwap⟩

end Sys2Proof.Machine
end

section
/-! # Straps, standby loss and reference clocks (R476, R477, R486) -/

namespace Sys2Proof.Machine

/-! ## Cleared stores and emptied records -/

/-- Clearing the keys below `hi` leaves the others, whatever the order of the store's keys. -/
theorem storeGet_storeClear_above {α : Type} (d : Nat → α) (m : List (Nat × α)) {lo hi k : Nat} (h : hi ≤ k) :
    storeGet d (storeClear m lo hi) k = storeGet d m k := by
  induction m with
  | nil => rfl
  | cons e m ih =>
    unfold storeClear at ih ⊢
    by_cases he : e.1 < lo ∨ hi ≤ e.1
    · rw [List.filter_cons_of_pos (by simpa using he)]
      show (if k < e.1 then d k else if k = e.1 then e.2 else _) = _
      rw [ih]
      rfl
    · rw [List.filter_cons_of_neg (by simpa using he), ih]
      show _ = if k < e.1 then d k else if k = e.1 then e.2 else storeGet d m k
      rw [if_neg (by omega), if_neg (by omega)]

/-- Updates of one record after another: each of them is as its update leaves it. -/
theorem run_resetEach {β : Type} {u : Nat → Upd} {o : Nat → State → β} {d : β} {f : Field} (hf : ∀ k, (u k).field = f)
    (own : ∀ k s, o k ((u k).apply s) = d) (other : ∀ k j s, j ≠ k → o j ((u k).apply s) = o j s) (l : List Nat) (s : State) :
    ∃ t, Runs (forIn l () fun k _ => do
        Act.upd (u k)
        return ForInStep.yield ()) s () t ∧ (∀ k ∈ l, o k t = d) ∧ (∀ k, o k s = d → o k t = d) ∧ SameBut [f] s t := by
  induction l generalizing s with
  | nil => exact ⟨s, Runs.pure _ _, by simp, fun _ h => h, SameBut.refl _ _⟩
  | cons i l ih =>
    obtain ⟨t, r, each, stays, q⟩ := ih ((u i).apply s)
    have keep (k : Nat) (h : o k s = d) : o k ((u i).apply s) = d := by
      by_cases e : k = i
      · rw [e, own]
      · rw [other _ _ _ e, h]
    refine ⟨t, Runs.forIn_cons ((Runs.upd _ _).bind (Runs.pure _ _)) r, fun k hk => ?_, fun k h => stays k (keep k h),
      (SameBut.upd (u i) s (by rw [hf i]; cases f <;> rfl)).trans q⟩
    rcases List.mem_cons.1 hk with rfl | hk
    · exact stays k (own k s)
    · exact each k hk

/-- The engines' records are empty, and the measurements, the owner keys and the calls gone. -/
def enginesReset : Act Unit := do
  Act.upd (.time {})
  Act.upd (.fab {})
  Act.upd (.mig {})
  Act.upd (.ted {})
  Act.upd (.col {})
  Act.upd (.load {})
  Act.upd (.snap {})
  Act.upd (.mesh {})
  Act.upd (.move {})
  modSec (fun x => { x with meas := [], running := [], ownerKeys := [], calls := [] })
  modLand (fun x => { x with pauseUntil := 0, txq := [] })

theorem run_enginesReset (s : State) :
    let t := Act.run enginesReset s
    (t.time = {} ∧ t.fab = {} ∧ t.mig = {} ∧ t.ted = {} ∧ t.col = {} ∧ t.load = {} ∧ t.snap = {} ∧ t.mesh = {} ∧ t.move = {}) ∧
      t.sec = { s.sec with meas := [], running := [], ownerKeys := [], calls := [] } ∧ t.ports = s.ports ∧ t.parts = s.parts := by
  simp only [enginesReset, run_upd_bind, modSec, modLand, run_bind_bind, run_rd_bind, run_upd]
  simp

/-- What the reset of the records leaves: nothing held, the floors and the operator's key as they were. -/
theorem run_recordsReset (s : State) : Restarted s (Act.run recordsReset s) := by
  obtain ⟨t1, r1, ports, -, q1⟩ := run_resetEach (u := fun k => .port k {}) (o := fun k s => s.port k) (fun _ => rfl)
    (fun _ _ => port_upd_self _ _ _) (fun _ _ _ h => port_upd_ne _ _ _ _ h) (List.range 12) s
  obtain ⟨t2, r2, parts, -, q2⟩ := run_resetEach (u := fun k => .part k {}) (o := fun k s => s.part k) (fun _ => rfl)
    (fun _ _ => part_upd_self _ _ _) (fun _ _ _ h => part_upd_ne _ _ _ _ h) (List.range 32) t1
  obtain ⟨t3, r3, -, -, q3⟩ := run_resetEach (u := fun k => .site k {}) (o := fun _ _ => ()) (fun _ => rfl)
    (fun _ _ => rfl) (fun _ _ _ _ => rfl) (List.range 17) t2
  obtain ⟨t4, r4, -, -, q4⟩ := run_resetEach (u := fun k => .tile k {}) (o := fun _ _ => ()) (fun _ => rfl)
    (fun _ _ => rfl) (fun _ _ _ _ => rfl) (List.range 624) t3
  have hp : t4.ports = t1.ports := (q4.2 .ports (by decide)).trans ((q3.2 .ports (by decide)).trans (q2.2 .ports (by decide)))
  have hq : t4.parts = t2.parts := (q4.2 .parts (by decide)).trans (q3.2 .parts (by decide))
  have hs : t4.sec = s.sec := (q4.2 .sec (by decide)).trans ((q3.2 .sec (by decide)).trans
    ((q2.2 .sec (by decide)).trans (q1.2 .sec (by decide))))
  have e : Act.run recordsReset s = Act.run enginesReset t4 := by
    unfold recordsReset
    rw [run_bind_of_runs _ r1, run_bind_of_runs _ r2, run_bind_of_runs _ r3, run_bind_of_runs _ r4]
    rfl
  obtain ⟨⟨time, fab, mig, ted, col, load, snap, mesh, move⟩, sec, hp', hq'⟩ := run_enginesReset t4
  rw [e]
  refine ⟨time, fab, mig, ted, col, load, snap, mesh, move, fun k hk => ?_, fun p hk => ?_, congrArg (·.ownerKeys) sec,
    congrArg (·.calls) sec, ?_, ?_⟩
  · exact (port_congr (hp'.trans hp) k).trans (ports k (List.mem_range.2 hk))
  · exact (congrArg (storeGet _ · p) (hq'.trans hq)).trans (parts p (List.mem_range.2 hk))
  · exact (congrArg (·.floors) sec).trans (congrArg (·.floors) hs)
  · exact (congrArg (·.operator) sec).trans (congrArg (·.operator) hs)

/-- What `Restarted` speaks of. -/
def restartFields : List Field := [.time, .fab, .mig, .ted, .col, .load, .snap, .mesh, .move, .ports, .parts, .sec]

theorem Restarted.sameBut {s t u : State} {l : List Field} (h : Restarted s t) (q : SameBut l t u) (hl : ∀ f ∈ restartFields, f ∉ l) :
    Restarted s u := by
  obtain ⟨time, fab, mig, ted, col, load, snap, mesh, move, port, part, keys, calls, floors, operator⟩ := h
  have hs : u.sec = t.sec := q.2 .sec (hl _ (by decide))
  have hp : u.ports = t.ports := q.2 .ports (hl _ (by decide))
  have hq : u.parts = t.parts := q.2 .parts (hl _ (by decide))
  have same {f : Field} (hf : f ∈ restartFields) := q.2 f (hl f hf)
  exact ⟨(same (f := .time) (by decide)).trans time, (same (f := .fab) (by decide)).trans fab, (same (f := .mig) (by decide)).trans mig,
    (same (f := .ted) (by decide)).trans ted, (same (f := .col) (by decide)).trans col, (same (f := .load) (by decide)).trans load,
    (same (f := .snap) (by decide)).trans snap, (same (f := .mesh) (by decide)).trans mesh, (same (f := .move) (by decide)).trans move,
    fun k hk => (port_congr hp k).trans (port k hk), fun p hk => (congrArg (storeGet _ · p) hq).trans (part p hk),
    hs ▸ keys, hs ▸ calls, hs ▸ floors, hs ▸ operator⟩

/-- What was kept before the records were reset is still kept. -/
theorem Restarted.of_sec {s s' t : State} (h : Restarted s' t) (hs : s'.sec = s.sec) : Restarted s t := by
  obtain ⟨time, fab, mig, ted, col, load, snap, mesh, move, port, part, keys, calls, floors, operator⟩ := h
  exact ⟨time, fab, mig, ted, col, load, snap, mesh, move, port, part, keys, calls, hs ▸ floors, hs ▸ operator⟩

/-! ## Loss of the standby supply -/

theorem run_vstbyLoss (s : State) : ∃ v, Restarted s v ∧ v.mem = s.mem ∧
    Act.run vstbyLoss s = (Upd.land { env := s.land.env, railsOff := true, vinLost := s.land.vinLost || !s.land.railsOff }).apply
      ((Upd.clearMem 0 (2 ^ 64)).apply ((Upd.pwr {}).apply ((Upd.flash (s.flash.cold false)).apply v))) := by
  let s1 := Act.run basesCold s
  let s2 := Act.run (registersReset false) s1
  let s3 := Act.run recordsReset s2
  have q1 := basesCold_only.run s
  have q2 := (registersReset_only false).run s1
  have q3 := recordsReset_only.run s2
  have q4 := (tablesReset_only false).run s3
  have hs : s2.sec = s.sec := (q2.2 .sec (by decide)).trans (q1.2 .sec (by decide))
  have hm : (Act.run (tablesReset false) s3).mem = s.mem := (q4.2 .mem (by decide)).trans ((q3.2 .mem (by decide)).trans
    ((q2.2 .mem (by decide)).trans (q1.2 .mem (by decide))))
  have hf : (Act.run (tablesReset false) s3).flash = s.flash := (q4.2 .flash (by decide)).trans ((q3.2 .flash (by decide)).trans
    ((q2.2 .flash (by decide)).trans (q1.2 .flash (by decide))))
  refine ⟨Act.run (tablesReset false) s3, ((run_recordsReset s2).of_sec hs).sameBut q4 (by decide), hm, ?_⟩
  unfold vstbyLoss
  rw [run_rd_bind, basesCold_only.run_bind, (registersReset_only _).run_bind, recordsReset_only.run_bind,
    (tablesReset_only _).run_bind, run_rd_bind, hf]
  rfl

/-! ## Ports of a stopped clock domain -/

/-- A port as the loss of its clock leaves it: DOWN or FAILED, its fault set, only flits in transit queued. -/
def PortDown (s t : State) (k : Nat) : Prop :=
  (∃ q, t.port k = { txq := q, nextPkt := (s.port k).nextPkt } ∧ ∀ f ∈ q, f.src.isSome = true) ∧
    t.portState k = (if s.portState k = 4 then 4 else 0) ∧ t.fldOf (portPage k + 0x18) F.PAGE_STATUS.fault = 1

/-- What such a loss leaves of another port. -/
def PortStays (s t : State) (j : Nat) : Prop :=
  Thinned (s.port j) (t.port j) ∧ t.reg (R.PORT_STATUS j) = s.reg (R.PORT_STATUS j) ∧
    t.reg (portPage j + 0x18) = s.reg (portPage j + 0x18)

theorem PortDown.before {s u t : State} {k : Nat} (h : PortDown u t k) (g : PortStays s u k) : PortDown s t k := by
  obtain ⟨thin, status, -⟩ := g
  obtain ⟨port, state, fault⟩ := h
  have e : u.portState k = s.portState k := congrArg (getFld · F.PORT_STATUS.state) status
  exact ⟨thin.nextPkt ▸ port, e ▸ state, fault⟩

theorem PortDown.after {s u t : State} {k : Nat} (h : PortDown s u k) (g : PortStays u t k) : PortDown s t k := by
  obtain ⟨thin, status, page⟩ := g
  obtain ⟨⟨q, port, transit⟩, state, fault⟩ := h
  refine ⟨⟨(t.port k).txq, ?_, fun f hf => ?_⟩, ?_, ?_⟩
  · obtain ⟨f, g, e⟩ := thin
    rw [e, port]
    rfl
  · have := thin.mem hf
    rw [port] at this
    exact transit f this
  · exact (congrArg (getFld · F.PORT_STATUS.state) status).trans state
  · exact (congrArg (getFld · F.PAGE_STATUS.fault) page).trans fault

theorem PortStays.trans {s u t : State} {k : Nat} (h : PortStays s u k) (g : PortStays u t k) : PortStays s t k :=
  ⟨h.1.trans g.1, g.2.1.trans h.2.1, g.2.2.trans h.2.2⟩

theorem run_portStopped {k : Nat} (s : State) (hk : k < 12) :
    let t := Act.run (portStopped k) s
    PortDown s t k ∧ (∀ j, j < 12 → j ≠ k → PortStays s t j) ∧ SameBut [.regs, .ports] s t := by
  let u := Act.run (portEmpty k) s
  let v := if s.portState k ≠ 4 then Act.run (setPortState k 0) u else u
  obtain ⟨empty, thin, -, q⟩ := run_portEmpty k s
  have su : u.portState k = s.portState k := fldOf_congr (q.2 .regs (by decide)) _ _
  have e : Act.run (portStopped k) s = Act.run (setPageFault (portPage k)) v := by
    unfold portStopped
    rw [(portEmpty_only k).run_bind, run_rd_bind]
    show Act.run (if u.portState k ≠ 4 then _ else _) u = _
    rw [su]
    split
    · next h => rw [show v = _ from if_pos h]; rfl
    · next h => rw [show v = _ from if_neg h]
  have vp : v.ports = u.ports := by
    unfold v
    split <;> rfl
  have vr : RegsBut [R.PORT_STATUS k] u v := by
    unfold v
    split
    · exact regsBut_upd_reg _ _ _
    · exact fun _ _ => rfl
  have vs : v.portState k = if s.portState k = 4 then 4 else 0 := by
    unfold v
    split
    · exact fldOf_put_self _ _ _ _ (by decide)
    · next h => rw [su, not_not.1 h, if_pos rfl]
  have q2 : SameBut [.regs, .ports] u v := by
    unfold v
    split
    · exact SameBut.upd _ _ rfl
    · exact SameBut.refl _ _
  have fp : (Act.run (setPageFault (portPage k)) v).ports = v.ports := ((setPageFault_only _).run v).2 .ports (by decide)
  have fr : RegsBut [portPage k + 0x18, portPage k + 0x40] v (Act.run (setPageFault (portPage k)) v) :=
    (setPageFault_writes (P := (· ∈ [portPage k + 0x18, portPage k + 0x40])) (by simp) (by simp)).regsBut v
  dsimp only
  rw [e]
  refine ⟨⟨?_, ?_, fldOf_setPageFault _ _⟩, fun j hj hne => ⟨?_, ?_, ?_⟩, ?_⟩
  · rw [port_congr (fp.trans vp)]
    exact empty
  · refine (congrArg (getFld · F.PORT_STATUS.state) (fr _ ?_)).trans vs
    simp only [List.mem_cons, List.not_mem_nil, or_false, portStatus_eq]
    rintro (h | h) <;> omega
  · rw [port_congr (fp.trans vp)]
    exact thin j hne
  · rw [fr, vr, reg_congr (q.2 .regs (by decide))]
    · rw [List.mem_singleton, portStatus_eq, portStatus_eq]
      exact portReg_ne_of_port hj hk hne
    · simp only [List.mem_cons, List.not_mem_nil, or_false, portStatus_eq]
      rintro (h | h)
      · exact portReg_ne (by decide) h
      · exact portReg_ne (by decide) h
  · rw [fr, vr, reg_congr (q.2 .regs (by decide))]
    · rw [List.mem_singleton, portStatus_eq]
      exact portReg_ne (by decide)
    · simp only [List.mem_cons, List.not_mem_nil, or_false]
      rintro (h | h)
      · exact portReg_ne_of_port hj hk hne h
      · exact portReg_ne (by decide) h
  · exact (q.mono (by decide)).trans (q2.trans (((setPageFault_only _).run v).mono (by decide)))

/-- Three ports of one clock go down together. -/
theorem run_portsStopped {a b c k : Nat} (s : State) (ha : a < 12) (hb : b < 12) (hc : c < 12) (hab : a ≠ b) (hac : a ≠ c) (hbc : b ≠ c)
    (hk : k = a ∨ k = b ∨ k = c) :
    let t := Act.run (do portStopped a; portStopped b; portStopped c) s
    PortDown s t k ∧ SameBut [.regs, .ports] s t := by
  obtain ⟨d1, o1, q1⟩ := run_portStopped s ha
  obtain ⟨d2, o2, q2⟩ := run_portStopped (Act.run (portStopped a) s) hb
  obtain ⟨d3, o3, q3⟩ := run_portStopped (Act.run (portStopped b) (Act.run (portStopped a) s)) hc
  dsimp only
  rw [(portStopped_only a).run_bind, (portStopped_only b).run_bind]
  refine ⟨?_, q1.trans (q2.trans q3)⟩
  rcases hk with rfl | rfl | rfl
  · exact (d1.after (o2 _ ha hab)).after (o3 _ ha hac)
  · exact (d2.before (o1 _ hb hab.symm)).after (o3 _ hb hbc)
  · exact d3.before ((o1 _ hc hac.symm).trans (o2 _ hc hbc.symm))

theorem exec_refclkLoss {s : State} {clk : Fin 8} (h : s.alive = true) :
    exec (.refclkLoss clk) s = .next (Act.run (refclkLoss clk) s) :=
  congrArg Host.Outcome.next (run_awake s _ h)

theorem refclkLoss_ports {s : State} {clk : Fin 8} (h : s.alive = true) {k : Nat} (hc : clk.val < 4)
    (hk : k = 2 * clk.val ∨ k = 2 * clk.val + 1 ∨ k = 8 + [0, 1, 3, 2].getD clk 0) :
    ∃ t, exec (.refclkLoss clk) s = .next t ∧ PortDown s t k ∧ SameBut [.regs, .ports] s t := by
  have hl : [0, 1, 3, 2].getD clk.val 0 < 4 := by
    have : ∀ c : Fin 4, [0, 1, 3, 2].getD c.val 0 < 4 := by decide
    exact this ⟨clk.val, hc⟩
  refine ⟨_, exec_refclkLoss h, ?_⟩
  unfold refclkLoss
  rw [if_pos hc]
  exact run_portsStopped s (by omega) (by omega) (by omega) (by omega) (by omega) (by omega) hk

theorem refclkLoss_bulk {s : State} {clk : Fin 8} (h : s.alive = true) (hc : clk.val = 4 ∨ clk.val = 5) :
    ∃ t, exec (.refclkLoss clk) s = .next t ∧ t.fldOf (R.BIN_PORT_STATUS (clk.val - 4)) F.BIN_PORT_STATUS.link = 0 ∧
      t.fldOf (pageBase .bin (clk.val - 4) + 0x18) F.PAGE_STATUS.fault = 1 ∧ SameBut [.regs] s t := by
  let u := (Upd.reg (R.BIN_PORT_STATUS (clk.val - 4)) 0).apply s
  have e : Act.run (refclkLoss clk) s = Act.run (setPageFault (pageBase .bin (clk.val - 4))) u := by
    unfold refclkLoss
    rw [if_neg (by omega), if_pos (by omega)]
    rfl
  refine ⟨_, exec_refclkLoss h, ?_, ?_, ?_⟩
  · rw [e]
    have fr := (setPageFault_writes (pb := pageBase .bin (clk.val - 4))
      (P := (· ∈ [pageBase .bin (clk.val - 4) + 0x18, pageBase .bin (clk.val - 4) + 0x40])) (by simp) (by simp)).regsBut u
    refine (congrArg (getFld · F.BIN_PORT_STATUS.link) (fr _ ?_)).trans ?_
    · simp only [List.mem_cons, List.not_mem_nil, or_false, R.BIN_PORT_STATUS, regA]
      rintro (h | h) <;> omega
    · rw [reg_upd_self]
      rfl
  · rw [e]
    exact fldOf_setPageFault _ _
  · rw [e]
    exact (SameBut.upd _ _ rfl).trans ((setPageFault_only _).run u)

theorem refclkLoss_mgt {s : State} {clk : Fin 8} (h : s.alive = true) (hc : clk.val = 7) :
    ∃ t, exec (.refclkLoss clk) s = .next t ∧ t.mgtUp = false ∧ t.fldOf (pageBase .mgt 0 + 0x18) F.PAGE_STATUS.fault = 1 ∧
      SameBut [.regs] s t := by
  let u := Act.run (wrF R.MGT_PORT_STATUS F.MGT_PORT_STATUS.link 0) s
  have e : Act.run (refclkLoss clk) s = Act.run (setPageFault (pageBase .mgt 0)) u := by
    unfold refclkLoss
    rw [if_neg (by omega), if_neg (by omega), if_neg (by omega)]
    rfl
  have down : u.fldOf R.MGT_PORT_STATUS F.MGT_PORT_STATUS.link = 0 := fldOf_put_self _ _ _ _ (by decide)
  refine ⟨_, exec_refclkLoss h, ?_, ?_, ?_⟩
  · rw [e]
    have fr := (setPageFault_writes (pb := pageBase .mgt 0) (P := (· ∈ [pageBase .mgt 0 + 0x18, pageBase .mgt 0 + 0x40]))
      (by simp) (by simp)).regsBut u
    have link : (Act.run (setPageFault (pageBase .mgt 0)) u).fldOf R.MGT_PORT_STATUS F.MGT_PORT_STATUS.link = 0 :=
      (congrArg (getFld · F.MGT_PORT_STATUS.link) (fr _ (by decide))).trans down
    unfold State.mgtUp
    rw [link]
    rfl
  · rw [e]
    exact fldOf_setPageFault _ _
  · rw [e]
    exact (SameBut.upd _ _ rfl).trans ((setPageFault_only _).run u)

/-! ## The straps -/

/-- A field of two bits holds two bits of a number. -/
theorem bits_two_mod (n lo : Nat) : bits n (lo + 1) lo % 2 ^ 2 = bits n (lo + 1) lo := by
  unfold bits
  rw [show lo + 1 + 1 - lo = 2 by omega, Nat.mod_mod]

theorem strapSample_shows (s : State) (straps : BitVec 11) (h : s.land.straps = none) :
    let t := Act.run (strapSample straps.toNat) s
    t.land = { s.land with straps := some straps.toNat } ∧
      t.fldOf R.BMS_BOARD F.BMS_BOARD.bx = bits straps.toNat 1 0 ∧ t.fldOf R.BMS_BOARD F.BMS_BOARD.by_ = bits straps.toNat 3 2 ∧
      t.fldOf R.BMS_BOARD F.BMS_BOARD.width_m1 = bits straps.toNat 5 4 ∧
      t.fldOf R.BMS_BOARD F.BMS_BOARD.height_m1 = bits straps.toNat 7 6 := by
  let v := straps.toNat
  let u := (Upd.land { s.land with straps := some v }).apply s
  let b := Act.run (do
    wrF R.BMS_BOARD F.BMS_BOARD.bx (bits v 1 0)
    wrF R.BMS_BOARD F.BMS_BOARD.by_ (bits v 3 2)
    wrF R.BMS_BOARD F.BMS_BOARD.width_m1 (bits v 5 4)
    wrF R.BMS_BOARD F.BMS_BOARD.height_m1 (bits v 7 6)) u
  have e : Act.run (strapSample v) s = if b.strapsBad then Act.run (setPageFault (pageBase .bms 0)) b else b := by
    unfold strapSample
    rw [run_rd_bind, h]
    show Act.run (do
      modLand (fun x => { x with straps := some (v % 2 ^ 11) })
      strapsShow) s = _
    rw [Nat.mod_eq_of_lt straps.isLt]
    exact run_ite b b.strapsBad (setPageFault (pageBase .bms 0)) (pure ())
  have reg : (Act.run (strapSample v) s).reg R.BMS_BOARD = b.reg R.BMS_BOARD := by
    rw [e]
    split
    · exact (setPageFault_writes (pb := pageBase .bms 0) (P := (· ∈ [pageBase .bms 0 + 0x18, pageBase .bms 0 + 0x40]))
        (by simp) (by simp)).regsBut b _ (by decide)
    · rfl
  have land : (Act.run (strapSample v) s).land = b.land := by
    rw [e]
    split
    · exact ((setPageFault_only _).run b).2 .land (by decide)
    · rfl
  have fld (f : Fld) : (Act.run (strapSample v) s).fldOf R.BMS_BOARD f = b.fldOf R.BMS_BOARD f := congrArg (getFld · f) reg
  refine ⟨land, (fld _).trans ?_, (fld _).trans ?_, (fld _).trans ?_, (fld _).trans ?_⟩
  · exact (fldOf_put_ne _ _ _ _ _ (by decide) (by decide)).trans ((fldOf_put_ne _ _ _ _ _ (by decide) (by decide)).trans
      ((fldOf_put_ne _ _ _ _ _ (by decide) (by decide)).trans ((fldOf_put_self _ _ _ _ (by decide)).trans (bits_two_mod _ _))))
  · exact (fldOf_put_ne _ _ _ _ _ (by decide) (by decide)).trans ((fldOf_put_ne _ _ _ _ _ (by decide) (by decide)).trans
      ((fldOf_put_self _ _ _ _ (by decide)).trans (bits_two_mod _ _)))
  · exact (fldOf_put_ne _ _ _ _ _ (by decide) (by decide)).trans ((fldOf_put_self _ _ _ _ (by decide)).trans (bits_two_mod _ _))
  · exact (fldOf_put_self _ _ _ _ (by decide)).trans (bits_two_mod _ _)

/-- Settles O37 (it holds): each supply or clock that goes leaves what its rule says of the records, the ports and the pages. -/
theorem suppliesAndClocks : Obligations.SuppliesAndClocks := by
  refine ⟨fun s straps h => ?_, fun s => ?_, fun s clk h => ⟨fun k hc hk => ?_, fun hc => refclkLoss_bulk h hc, fun hc => ?_,
    fun hc => refclkLoss_mgt h hc⟩⟩
  · obtain ⟨land, x, y, w, z⟩ := strapSample_shows s straps h
    exact ⟨_, rfl, land, x, y, w, z, (strapSample_only _).run s⟩
  · obtain ⟨v, restarted, mem, e⟩ := run_vstbyLoss s
    refine ⟨_, rfl, ?_, fun k hk => ?_, fun k hk => ?_, ?_, ?_⟩
    · rw [e]
      refine restarted.sameBut (l := [.flash, .pwr, .mem, .land]) ?_ (by decide)
      exact (SameBut.upd _ _ rfl).trans ((SameBut.upd _ _ rfl).trans ((SameBut.upd _ _ rfl).trans (SameBut.upd _ _ rfl)))
    · rw [e]
      exact storeGet_storeClear_mem _ _ (Nat.zero_le k) hk
    · rw [e]
      exact (storeGet_storeClear_above _ _ hk).trans (congrArg (storeGet _ · k) mem)
    · rw [e]
      rfl
    · rw [e]
      rfl
  · obtain ⟨t, et, ⟨⟨q, port, transit⟩, state, fault⟩, same⟩ := refclkLoss_ports h hc hk
    exact ⟨t, q, et, port, transit, state, fault, same⟩
  · rw [exec_refclkLoss h]
    unfold refclkLoss
    rw [if_neg (by omega), if_neg (by omega), if_pos hc]

end Sys2Proof.Machine
end

section
/-! # A command on both paths (R345), and the records of the management channel (R397, R398, R412) -/

namespace Sys2Proof.Machine

/-! ## What a port that sends may write

A port counts what it sends on its own page, from offset 0x800 up, and a chained counter carries into another; nothing below
the counters of the first port's page is written. -/

section Sending

variable {P : Nat → Prop} (hc : ∀ r, 0x800 ≤ r % 0x1000 → P r) (hx : ∀ r, Block.fab.base + 0x800 ≤ r → P r)

theorem counter_beyond {b : Block} (h : Block.fab.base ≤ b.base) {p off : Nat} (ho : 0x800 ≤ off) :
    Block.fab.base + 0x800 ≤ regA b p off := Nat.add_le_add (h.trans (Nat.le_add_right _ _)) ho

theorem portCounter_beyond {k x y n : Nat} (hx : 0x800 ≤ x) (hy : 0x800 ≤ y) :
    Block.fab.base + 0x800 ≤ (if k < 8 then regA .fab k x else regA .bms (k - 8) y) + n := by
  split
  · exact (counter_beyond (by decide) hx).trans (Nat.le_add_right _ _)
  · exact (counter_beyond (by decide) hy).trans (Nat.le_add_right _ _)

include hc hx

theorem beyondCount_writes {a n : Nat} (h : Block.fab.base + 0x800 ≤ a) : WritesOnly P (count a n) := count_writes (hx a h) hc

theorem sendFlit_writes {k i : Nat} : WritesOnly P (sendFlit k i) := by
  refine .bind .get fun s => ?_
  dsimp only
  split
  · exact .pure
  · refine .bind updPort_writes fun _ => .bind (.of_only (putFlit_only _ _ _ _ _) (by decide)) fun _ =>
      .bind (.of_only (send_only _) (by decide)) fun _ => ?_
    split
    · exact .bind (beyondCount_writes hc hx (counter_beyond (by decide) (by decide))) fun _ => modPort_writes
    · exact beyondCount_writes hc hx (portCounter_beyond (by decide) (by decide))

theorem slotWaits_writes {k n : Nat} : WritesOnly P (slotWaits k n) := by
  have cnt {c : Prop} [Decidable c] {a m : Nat} (h : Block.fab.base + 0x800 ≤ a) {rest : Act Unit} (hr : WritesOnly P rest) :
      WritesOnly P (if c then do count a m; rest else rest) := .ite (.bind (beyondCount_writes hc hx h) fun _ => hr) hr
  have array {x y n : Nat} (hx : 0x800 ≤ x := by decide) (hy : 0x800 ≤ y := by decide) :
      Block.fab.base + 0x800 ≤ (if k < 8 then regA .fab k x else regA .bms (k - 8) y) + n := portCounter_beyond hx hy
  refine .bind .get fun s => .bind (.forIn fun v _ => ?_) fun _ => .bind (.forIn fun i _ => ?_) fun _ => ?_
  · have stall {c : Prop} [Decidable c] : WritesOnly P (if c then do count (C.STALL_VL k v) n; return ForInStep.yield ()
        else return ForInStep.yield ()) := .ite (.bind (beyondCount_writes hc hx (array)) fun _ => .pure) .pure
    exact .ite (.bind (beyondCount_writes hc hx (array)) fun _ => stall) stall
  · split
    · exact .bind (beyondCount_writes hc hx (counter_beyond (by decide) (by decide))) fun _ => .pure
    · exact .bind .pure fun _ => .pure
  · exact cnt (array (n := 0)) (cnt (array (n := 0)) (cnt (counter_beyond (by decide) (by decide))
      (.ite (beyondCount_writes hc hx (array (n := 0))) .pure)))

theorem pumpPort_writes {k fuel : Nat} : WritesOnly P (pumpPort k fuel) := by
  induction fuel with
  | zero => exact .pure
  | succ fuel ih =>
    have waits {n : Nat} : WritesOnly P (slotWaits k n) := slotWaits_writes hc hx
    have go {i : Nat} : WritesOnly P (do slotWaits k 1; sendFlit k i; pumpPort k fuel) :=
      .bind waits fun _ => .bind (sendFlit_writes hc hx) fun _ => ih
    refine .bind .get fun s => .ite .pure (.ite go (.ite go ?_))
    split
    · exact .bind waits fun _ => .bind modPort_writes fun _ => .bind (sendFlit_writes hc hx) fun _ => ih
    · exact .ite (.bind waits fun _ => .bind modPort_writes fun _ => ih) .pure

theorem pump_writes {k : Nat} : WritesOnly P (pump k) :=
  .bind .get fun _ => .bind (pumpPort_writes hc hx) fun _ =>
    .bind (.forIn fun _ _ => .bind (.of_only (tellPeer_only _ _) (by decide)) fun _ => .pure) fun _ => .pure

theorem sendPacket_writes {p k vl : Nat} {bs : List Byte} : WritesOnly P (sendPacket p k vl bs) :=
  .bind .get fun _ => .ite .pure (.bind updPort_writes fun _ => .bind (.of_only (send_only _) (by decide)) fun _ =>
    pump_writes hc hx)

theorem releaseHeld_writes {p k : Nat} : WritesOnly P (releaseHeld p k) :=
  .bind .rd fun _ => .bind updPort_writes fun _ => .bind (.forIn fun _ _ => .bind (sendPacket_writes hc hx) fun _ => .pure) fun _ =>
    pump_writes hc hx

theorem unquenchPart_writes (h : P R.FAB_QUENCHED) {p : Nat} : WritesOnly P (unquenchPart p) :=
  .bind .get fun _ => .ite .pure (.bind (wrF_writes h) fun _ => .bind (.of_only (wrPart_only _ _) (by decide)) fun _ =>
    .bind (.of_only (Only.upd (l := [.col]) _ rfl) (by decide)) fun _ =>
    .bind (.forIn fun _ _ => .bind (releaseHeld_writes hc hx) fun _ => .pure) fun _ => .pure)

theorem commandOn_writes (h : P R.FAB_QUENCHED) {type d p : Nat} : WritesOnly P (commandOn type d p) := by
  have drain {p : Nat} : WritesOnly P (drainPart p) := by
    have control : P (R.REQ_PART_CTRL p) := hx _ (by unfold R.REQ_PART_CTRL regA pageBase; simp only [Block.base]; omega)
    exact .bind (wrF_writes control) fun _ => wrF_writes control
  have quench {d : Nat} : WritesOnly P (quenchPart p d) := quenchPart_writes h
  have fourth : WritesOnly P (if type = 0x14 then do quenchPart p 0; drainPart p else Pure.pure ()) :=
    .ite (.bind quench fun _ => drain) .pure
  have third : WritesOnly P (do
      if type = 0x13 then drainPart p
      if type = 0x14 then do quenchPart p 0; drainPart p) := .ite (.bind drain fun _ => fourth) fourth
  have second : WritesOnly P (do
      if type = 0x12 then unquenchPart p
      if type = 0x13 then drainPart p
      if type = 0x14 then do quenchPart p 0; drainPart p) := .ite (.bind (unquenchPart_writes hc hx h) fun _ => third) third
  exact .ite (.bind quench fun _ => second) second

end Sending

/-! ## A command's number (R342) -/

/-- A command on partitions leaves the number of the last command as it was. -/
theorem commandOn_keeps_seq {type d p : Nat} : WritesOnly (· ≠ R.FAB_CMD_SEQ) (commandOn type d p) :=
  commandOn_writes (fun r h e => absurd (e ▸ h) (by decide)) (fun r h e => absurd (e ▸ h) (by decide)) (by decide)

theorem cmdSeq_lt (b : List Byte) : cmdSeq b < 2 ^ 64 := numAt_lt b 8 8

/-- A command past the last one, that a partition matched, is the last one now. -/
theorem fabCmdSeq_fabricCommand {s : State} {k type : Nat} {b : List Byte} (hp : s.cmdParts type (cmdTarget b) ≠ [])
    (hs : (s.reg R.FAB_CMD_SEQ).toNat < cmdSeq b) :
    ((Act.run (fabricCommand k type b) s).reg R.FAB_CMD_SEQ).toNat = cmdSeq b := by
  let u := (Upd.reg R.FAB_CMD_SEQ (BitVec.ofNat 64 (cmdSeq b))).apply s
  have rest : WritesOnly (· ≠ R.FAB_CMD_SEQ) (do
      for p in s.cmdParts type (cmdTarget b) do commandOn type (cmdDuration b) p
      count (C.CMD_RX k) 1
      setIrq (pageBase .fab 0) 35) :=
    .bind (.forIn fun _ _ => .bind commandOn_keeps_seq fun _ => .pure) fun _ =>
      .bind (beyondCount_writes (fun r h e => absurd (e ▸ h) (by decide)) (fun r h e => absurd (e ▸ h) (by decide))
        (portCounter_beyond (n := 0) (by decide) (by decide))) fun _ => setIrq_writes (by decide)
  have e : Act.run (fabricCommand k type b) s = Act.run (do
      for p in s.cmdParts type (cmdTarget b) do commandOn type (cmdDuration b) p
      count (C.CMD_RX k) 1
      setIrq (pageBase .fab 0) 35) u := by
    unfold fabricCommand
    rw [run_get_bind, run_ite, if_neg (Nat.not_le.2 hs)]
    generalize s.cmdParts type (cmdTarget b) = ps at hp ⊢
    cases ps with
    | nil => exact absurd rfl hp
    | cons p ps => rfl
  rw [e, rest.reg u (by simp), reg_upd_self, BitVec.toNat_ofNat, Nat.mod_eq_of_lt (cmdSeq_lt b)]

/-- A command that is not past the last one is only counted. -/
theorem run_fabricCommand_old {s : State} {k type : Nat} {b : List Byte} (h : cmdSeq b ≤ (s.reg R.FAB_CMD_SEQ).toNat) :
    Act.run (fabricCommand k type b) s = Act.run (count (C.CMD_DUP k) 1) s := by
  unfold fabricCommand
  rw [run_get_bind, run_ite, if_pos h]

theorem exec_command {s : State} {r : RxPacket} {type : Nat} {c : Instr}
    (hc : (type, c) ∈ [(0x11, Instr.quench r), (0x12, .unquench r), (0x13, .drain r), (0x14, .pstop r)]) (h : Receives s r type none) :
    exec c s = .next (Act.run (fabricCommand r.port type (pkBody r.bytes)) (received s r)) := by
  have e : exec c s = .next (Act.run (mains (commandPacket type r)) s) := by
    simp only [List.mem_cons, Prod.mk.injEq, List.not_mem_nil, or_false] at hc
    obtain ⟨rfl, rfl⟩ | ⟨rfl, rfl⟩ | ⟨rfl, rfl⟩ | ⟨rfl, rfl⟩ := hc <;> rfl
  rw [e, next_run_mains h.1]
  exact congrArg _ (run_onPacket h _)

/-! ## Management records -/

/-- The state once a frame of the management port is counted. -/
def State.mgtCounted (s : State) (n : Nat) : State := Act.run (count C.MGT_CNT_RX_BYTES n) s

theorem reg_mgtCounted {s : State} {n r : Nat} (h : r % 0x1000 < 0x800) : (s.mgtCounted n).reg r = s.reg r :=
  (count_counters (a := C.MGT_CNT_RX_BYTES) (n := n) (by unfold IsCounter; decide)).reg s (Nat.not_le.2 h)

theorem sec_mgtCounted (s : State) (n : Nat) : (s.mgtCounted n).sec = s.sec := ((count_only _ _).run s).2 .sec (by decide)

/-- A frame that has been counted leaves whether its record is accepted. -/
theorem recordOk_mgtCounted (s : State) (n : Nat) (l : List Byte) : (s.mgtCounted n).recordOk l = s.recordOk l := by
  unfold State.recordOk State.fldOf
  rw [sec_mgtCounted, reg_mgtCounted (r := R.SEC_BOOT_STATUS) (by decide), reg_mgtCounted (r := R.SEC_MGMT_SEQ) (by decide)]

/-- A record is acknowledged with the status its action answers, if it answers one. -/
def ackAs (l : List Byte) : Option Nat → Act Unit
  | some st => sendAck (mrSeq l) st
  | none => skip

/-- What a record of its type brings about at a port that is up and in service. -/
theorem run_onRecord {s : State} {l : List Byte} {type : Nat} (ha : s.alive = true) (hu : s.mgtUp = true)
    (hp : s.pageServes (pageBase .mgt 0) = true) (ht : mrType l = type) (k : List Byte → Act (Option Nat)) :
    Act.run (awake (onRecord type l k)) s = if s.recordOk l = true then
        Act.run (recordDone l (k (mrBody l) >>= ackAs l)) (s.mgtCounted (s.mgtWire s.mgtIp l.length))
      else Act.run (vlog 2 (mrType l * 2 ^ 16) (errInfo { source := 0x010C, hay := false, part := none } 2 2))
        (s.mgtCounted (s.mgtWire s.mgtIp l.length)) := by
  rw [run_awake _ _ ha]
  unfold onRecord
  rw [run_get_bind, run_mgtFrame hu hp, run_ite, if_neg (not_not.2 ht), run_rd_bind, run_ite]
  rw [show (Act.run (count C.MGT_CNT_RX_BYTES (s.mgtWire s.mgtIp l.length)) s).recordOk l = s.recordOk l from
    recordOk_mgtCounted _ _ _]
  rfl

/-- The state once a record's number is the last one. -/
def State.recorded (u : State) (l : List Byte) : State := (Upd.reg R.SEC_MGMT_SEQ (BitVec.ofNat 64 (mrSeq l))).apply u

/-- A record whose action answers a status is acknowledged with it. -/
theorem run_recordDone {u v : State} {l : List Byte} {a : Act (Option Nat)} {st : Nat} (h : Runs a (u.recorded l) (some st) v) :
    Act.run (recordDone l (a >>= ackAs l)) u = Act.run (sendAck (mrSeq l) st) v :=
  run_bind_of_runs (u.recorded l) h (ackAs l)

/-- Settles O40 (it holds): the second copy of a command finds its own number the last one. -/
theorem sameCommandBothPaths : Obligations.SameCommandBothPaths := by
  refine ⟨fun s r type c hc h => exec_command hc h, fun s u cmd l ha hu hp ht eu => ⟨_, rfl, fun hok => ?_⟩,
    fun s t j k type b hp hs et => ?_⟩
  · have e := run_onRecord ha hu hp ht fun b => do
      fabricCommand 0 (0x11 + cmd) (bytesAt b 0 32)
      return some 0
    have eu' : u = (s.mgtCounted (s.mgtWire s.mgtIp l.length)).recorded l :=
      eu.trans ((count_only C.MGT_CNT_RX_BYTES _).run_bind (fun _ => wrR R.SEC_MGMT_SEQ (BitVec.ofNat 64 (mrSeq l))) s)
    rw [if_pos hok, run_recordDone (((fabricCommand_only _ _ _).runs _).bind (Runs.pure _ _)), ← eu'] at e
    exact e
  · rw [run_fabricCommand_old]
    rw [et, fabCmdSeq_fabricCommand hp hs]

/-! ## The records one by one -/

/-- A model-owner key pair enters a table with room (R402). -/
theorem runs_ownerKeyAdd {s : State} {keys : List Byte} {mask : Nat} (h : s.sec.ownerKeys.length < 64) :
    Runs (ownerKeyAdd keys mask) s true ((Upd.sec { s.sec with ownerKeys := s.sec.ownerKeys ++ [(mask, keys)] }).apply s) := by
  refine (Runs.get s).bind ?_
  rw [if_neg (Nat.not_le.2 h)]
  exact ((Runs.rd _ s).bind (Runs.upd _ s)).bind (Runs.pure _ _)

theorem runs_ownerKeyAdd_full {s : State} {keys : List Byte} {mask : Nat} (h : 64 ≤ s.sec.ownerKeys.length) :
    Runs (ownerKeyAdd keys mask) s false s := by
  refine (Runs.get s).bind ?_
  rw [if_pos h]
  exact Runs.pure _ _

theorem run_ownerKeyRecorded {s u : State} {l : List Byte} (h : u.sec = s.sec) :
    Act.run (recordDone l ((do
      if ← ownerKeyAdd (bytesAt (mrBody l) 0 1984) (numAt (mrBody l) 1984 4) then return some 0 else return some 3) >>= ackAs l)) u =
    Act.run (recordDone l do
      if s.sec.ownerKeys.length < 64 then
        Act.upd (.sec { s.sec with
          ownerKeys := s.sec.ownerKeys ++ [(numAt (mrBody l) 1984 4, bytesAt (mrBody l) 0 1984)] })
        sendAck (mrSeq l) 0
      else sendAck (mrSeq l) 3) u := by
  have wanted := run_ite (u.recorded l) (s.sec.ownerKeys.length < 64) (do
      Act.upd (.sec { s.sec with
        ownerKeys := s.sec.ownerKeys ++ [(numAt (mrBody l) 1984 4, bytesAt (mrBody l) 0 1984)] })
      sendAck (mrSeq l) 0) (sendAck (mrSeq l) 3)
  refine Eq.trans ?_ wanted.symm
  have sec : (u.recorded l).sec = s.sec := h
  by_cases room : s.sec.ownerKeys.length < 64
  · have added := runs_ownerKeyAdd (keys := bytesAt (mrBody l) 0 1984) (mask := numAt (mrBody l) 1984 4) (sec ▸ room)
    rw [run_recordDone (added.bind (Runs.pure _ _)), if_pos room, sec]
    rfl
  · have full := runs_ownerKeyAdd_full (keys := bytesAt (mrBody l) 0 1984) (mask := numAt (mrBody l) 1984 4)
      (sec ▸ Nat.not_lt.1 room)
    rw [run_recordDone (full.bind (Runs.pure _ _)), if_neg room]

theorem run_powerCapRecorded {s u : State} {l : List Byte} (hr : u.run = s.run) (hc : u.reg R.PWR_CAP = s.reg R.PWR_CAP) :
    Act.run (recordDone l ((do
      let w := numAt (mrBody l) 0 2
      if w < 700 ∨ 2100 < w then return some 2
      let v := putFld (← rdR R.PWR_CAP) F.PWR_CAP.cap_w w
      if ← rd State.run then
        Act.upd (.stage R.PWR_CAP (some v))
        wrF (pageBase .pwr 0 + 0x50) F.SCHED_TICK.tick (max 1 (numAt (mrBody l) 2 6))
        wrF (pageBase .pwr 0 + 0x18) F.PAGE_STATUS.staged_pending 1
      else wrR R.PWR_CAP v
      return some 0) >>= ackAs l)) u =
    Act.run (recordDone l do
      let w := numAt (mrBody l) 0 2
      if w < 700 ∨ 2100 < w then sendAck (mrSeq l) 2
      else
        if s.run then
          Act.upd (.stage R.PWR_CAP (some (putFld (s.reg R.PWR_CAP) F.PWR_CAP.cap_w w)))
          wrF (pageBase .pwr 0 + 0x50) F.SCHED_TICK.tick (max 1 (numAt (mrBody l) 2 6))
          wrF (pageBase .pwr 0 + 0x18) F.PAGE_STATUS.staged_pending 1
        else wrR R.PWR_CAP (putFld (s.reg R.PWR_CAP) F.PWR_CAP.cap_w w)
        sendAck (mrSeq l) 0) u := by
  have run : (u.recorded l).run = s.run := (congrArg (fun w : Word => decide (getFld w F.TIM_TICK_CTRL.run = 1))
    (reg_upd_ne u R.SEC_MGMT_SEQ _ R.TIM_TICK_CTRL (by decide))).trans hr
  have cap : (u.recorded l).reg R.PWR_CAP = s.reg R.PWR_CAP := (reg_upd_ne u R.SEC_MGMT_SEQ _ R.PWR_CAP (by decide)).trans hc
  dsimp only
  by_cases range : numAt (mrBody l) 0 2 < 700 ∨ 2100 < numAt (mrBody l) 0 2
  · rw [if_pos range, if_pos range]
    exact run_recordDone (Runs.pure _ _)
  rw [if_neg range, if_neg range]
  rw [← run, ← cap]
  by_cases ticks : (u.recorded l).run = true
  · rw [if_pos ticks]
    refine run_recordDone ((Runs.rd _ _).bind ((Runs.rd _ _).bind ?_))
    rw [if_pos ticks]
    exact (Runs.upd _ _).bind (((wrF_only _ _ _).runs _).bind (((wrF_only _ _ _).runs _).bind (Runs.pure _ _)))
  · rw [if_neg ticks]
    refine run_recordDone ((Runs.rd _ _).bind ((Runs.rd _ _).bind ?_))
    rw [if_neg ticks]
    exact ((wrR_only _ _).runs _).bind (Runs.pure _ _)

/-- MGMT_COMMAND, ATTEST_REQ, GRANT, OWNER_KEY and POWER_CAP (R397, R398, R412). -/
theorem managementRecords : ManagementRecords := by
  intro s u l ha hu hp eu bad ebad
  have e {type : Nat} (ht : mrType l = type) := run_onRecord ha hu hp ht
  have hu' : s.mgtCounted (s.mgtWire s.mgtIp l.length) = u := eu.symm
  rw [hu', ← ebad] at e
  refine ⟨fun cmd ht => congrArg _ (e ht _), fun ht => congrArg _ (e ht _), fun ht => congrArg _ (e ht _),
    fun ht => congrArg _ ((e ht _).trans (congrArg (if s.recordOk l = true then · else bad) ?_)),
    fun ht => congrArg _ ((e ht _).trans (congrArg (if s.recordOk l = true then · else bad) ?_))⟩
  · exact run_ownerKeyRecorded (hu' ▸ sec_mgtCounted s _)
  · refine run_powerCapRecorded ?_ (hu' ▸ reg_mgtCounted (by decide))
    exact congrArg (fun w : Word => decide (getFld w F.TIM_TICK_CTRL.run = 1)) (hu' ▸ reg_mgtCounted (by decide))

end Sys2Proof.Machine
end

section
/-! # SEC_CMD and its commands (R392, R396, R402) -/

namespace Sys2Proof.Machine

/-! ## The write of SEC_CMD -/

/-- A field that takes what is written has it once the register is stored, and no other register is. -/
theorem fldOf_storeReg {a : Nat} {f : Fld} (hf : f.hi < 64) (h : (rowOf a).any (·.takes f) = true) (v : Word) (s : State) :
    (Act.run (storeReg a v) s).fldOf a f = getFld v f ∧ RegsBut [a] s (Act.run (storeReg a v) s) ∧
      SameBut [.regs] s (Act.run (storeReg a v) s) := by
  obtain ⟨w, r, e⟩ := runs_storeReg_takes hf h v s
  rw [r.run_eq, fldOf_upd_self]
  exact ⟨e, regsBut_upd_reg _ _ _, SameBut.upd _ _ rfl⟩

/-- An accepted write of a block register whose effect takes the core's acting partition. -/
theorem answered_busWriteX_acting {core off : Nat} {v : Word} {b : Block} {p : Nat} {s t : State} (hp : p < b.pages) (hb : b ≠ .dbl)
    (ho : 0x100 ≤ off ∧ off < 0x1000) (ha : Admits s core (regA b p off) v)
    (h : Runs (blockWrite { part := s.coreAct core } b p off v) s none t) :
    Answered t (Act.run (busWriteX {} core (regA b p off) 8 v) s) :=
  busWriteX_done {} core _ 8 v b p s t ha.1 (pageOf_regA b p off hp ho.2) hb ha.2 (by rw [regA_sub]; omega)
    (by rw [regA_sub]; exact h)

/-- The word of SEC_CMD that a command writes. -/
def secWord (op space arg : Nat) : Word := BitVec.ofNat 64 (op * 2 ^ 56 + space * 2 ^ 48 + arg)

theorem getFld_secWord {op space arg : Nat} (ho : op < 256) (hs : space < 4) (ha : arg < 2 ^ 48) :
    getFld (secWord op space arg) F.SEC_CMD.op = op ∧ getFld (secWord op space arg) F.SEC_CMD.space = space ∧
      getFld (secWord op space arg) F.SEC_CMD.arg = arg := by
  simp only [getFld, secWord, bits, F.SEC_CMD.op, F.SEC_CMD.space, F.SEC_CMD.arg, BitVec.toNat_ofNat]
  omega

/-- The state in which a command stands in SEC_CMD. -/
def State.secStored (s : State) (op space arg : Nat) : State := Act.run (storeReg R.SEC_CMD (secWord op space arg)) s

section
variable {s : State} {op space arg : Nat}

theorem secStored_fields (ho : op < 256) (hs : space < 4) (ha : arg < 2 ^ 48) :
    (s.secStored op space arg).fldOf R.SEC_CMD F.SEC_CMD.op = op ∧ (s.secStored op space arg).fldOf R.SEC_CMD F.SEC_CMD.space = space ∧
      (s.secStored op space arg).fldOf R.SEC_CMD F.SEC_CMD.arg = arg := by
  obtain ⟨h1, h2, h3⟩ := getFld_secWord ho hs ha
  have fields {f : Fld} (hf : f.hi < 64) (h : (rowOf R.SEC_CMD).any (·.takes f) = true) :=
    (fldOf_storeReg hf h (secWord op space arg) s).1
  exact ⟨(fields (by decide) (by decide +kernel)).trans h1, (fields (by decide) (by decide +kernel)).trans h2,
    (fields (by decide) (by decide +kernel)).trans h3⟩

theorem secStored_regsBut : RegsBut [R.SEC_CMD] s (s.secStored op space arg) :=
  (fldOf_storeReg (f := F.SEC_CMD.op) (by decide) (by decide +kernel) _ s).2.1

theorem secStored_sameBut : SameBut [.regs] s (s.secStored op space arg) :=
  (fldOf_storeReg (f := F.SEC_CMD.op) (by decide) (by decide +kernel) _ s).2.2

theorem secStored_fldOf {a : Nat} (h : a ≠ R.SEC_CMD) (f : Fld) : (s.secStored op space arg).fldOf a f = s.fldOf a f :=
  congrArg (getFld · f) (secStored_regsBut a (by simpa using h))

/-- SEC_CMD, stored, runs its command where its page serves. -/
theorem runs_blockWrite_secCmd {y : BusX} (hp : s.pageServes (pageBase .sec 1) = true) :
    Runs (blockWrite y .sec 1 0x100 (secWord op space arg)) s none (Act.run (secCommand y.part) (s.secStored op space arg)) := by
  have serves : (s.secStored op space arg).pageServes (pageBase .sec 1) = true := by
    unfold State.pageServes at hp ⊢
    rw [secStored_fldOf (by decide), secStored_fldOf (by decide), secStored_sameBut.2 .record (by decide)]
    exact hp
  refine ((storeReg_only _ _).runs s).bind ((Runs.rd _ _).bind ?_)
  split
  · exact ((secCommand_only _).runs _).bind (Runs.pure _ _)
  · next h => exact (h ⟨rfl, rfl, serves⟩).elim

/-- An accepted SEC_CMD runs its command on the state it stands in (R402). -/
theorem answered_secWrite {core : CoreId} (hp : s.pageServes (pageBase .sec 1) = true) (hs : space < 4) (ha : arg < 2 ^ 48)
    (h : Admits s core R.SEC_CMD (secWord op space arg)) :
    Answered (Act.run (secCommand (s.coreAct core)) (s.secStored op space arg)) (Act.run (secWrite core op space arg) s) := by
  have e : secWrite core op space arg = busWriteX {} core R.SEC_CMD 8 (secWord op space arg) := by
    unfold secWrite busWrite
    rw [Nat.mod_eq_of_lt hs, Nat.mod_eq_of_lt ha]
    rfl
  rw [e]
  exact answered_busWriteX_acting (by decide) (by decide) (by decide) h (runs_blockWrite_secCmd hp)

end

/-! ## The argument block -/

/-- Bytes of memory within a run of them. -/
theorem bytesAt_memBytes (s : State) {k m o n : Nat} (h : o + n ≤ m) : bytesAt (s.memBytes k m) o n = s.memBytes (k + o) n := by
  unfold bytesAt State.memBytes
  rw [← List.map_drop, List.takeD_eq_take _ (by simp; omega), ← List.map_take]
  refine List.ext_getElem (by simp; omega) fun i h1 h2 => ?_
  simp [Nat.add_assoc]

theorem numAt_memBytes (s : State) {k m o n : Nat} (h : o + n ≤ m) : numAt (s.memBytes k m) o n = s.memNum (k + o) n :=
  congrArg leNat (bytesAt_memBytes s h)

/-- The commands, with the length of their blocks. -/
def secOps (part : Option Nat) : List (Nat × Nat × (List Byte → Act Unit)) :=
  [(1, 1, floorCommit), (2, 1988, ownerKeyInstall), (3, 1984, ownerKeyRemove), (4, 3501, lifecycle), (5, 40, secReport part)]

/-- A command whose block lies in hub SRAM is run on the block's bytes. -/
theorem run_secCommand {u : State} {part : Option Nat} {op n arg : Nat} {k : List Byte → Act Unit} (hk : (op, n, k) ∈ secOps part)
    (hop : u.fldOf R.SEC_CMD F.SEC_CMD.op = op) (hs : u.fldOf R.SEC_CMD F.SEC_CMD.space = 0)
    (ha : u.fldOf R.SEC_CMD F.SEC_CMD.arg = arg) (hn : arg + n ≤ 2 ^ 26) :
    Act.run (secCommand part) u = Act.run (k (u.memBytes (2 ^ 36 + arg) n)) u := by
  have block (m : Nat) (hm : arg + m ≤ 2 ^ 26) (c : List Byte → Act Unit) : Act.run (do
      match ← secBytes part (u.fldOf R.SEC_CMD F.SEC_CMD.space) (u.fldOf R.SEC_CMD F.SEC_CMD.arg) m with
      | some b => c b
      | none => secResult 2) u = Act.run (c (u.memBytes (2 ^ 36 + arg) m)) u := by
    have bytes : Runs (secBytes part 0 arg m) u (some (u.memBytes (2 ^ 36 + arg) m)) u := by
      show Runs (if arg + m ≤ 2 ^ 26 then _ else _) u _ u
      rw [if_pos hm]
      exact (Runs.rd _ u).bind (Runs.pure _ _)
    rw [hs, ha]
    exact run_bind_of_runs u bytes _
  unfold secCommand
  rw [run_get_bind, hop]
  simp only [secOps, List.mem_cons, Prod.mk.injEq, List.not_mem_nil, or_false] at hk
  obtain ⟨rfl, rfl, rfl⟩ | ⟨rfl, rfl, rfl⟩ | ⟨rfl, rfl, rfl⟩ | ⟨rfl, rfl, rfl⟩ | ⟨rfl, rfl, rfl⟩ := hk <;> exact block _ hn _

/-- An accepted command with its block in hub SRAM. -/
theorem answered_secCommand {s : State} {core : CoreId} {op n : Nat} {arg : BitVec 48} {k : List Byte → Act Unit}
    (hk : (op, n, k) ∈ secOps (s.coreAct core)) (hp : s.pageServes (pageBase .sec 1) = true) (hn : arg.toNat + n ≤ 2 ^ 26)
    (h : Admits s core R.SEC_CMD (BitVec.ofNat 64 (op * 2 ^ 56 + arg.toNat))) :
    Answered (Act.run (k (s.memBytes (2 ^ 36 + arg.toNat) n)) (s.secStored op 0 arg.toNat))
      (Act.run (secWrite core op 0 arg.toNat) s) := by
  have ho : op < 256 := by
    simp only [secOps, List.mem_cons, Prod.mk.injEq, List.not_mem_nil, or_false] at hk
    omega
  have word : BitVec.ofNat 64 (op * 2 ^ 56 + arg.toNat) = secWord op 0 arg.toNat := by simp [secWord]
  obtain ⟨f1, f2, f3⟩ := secStored_fields (s := s) ho (by decide : 0 < 4) arg.isLt
  have mem : (s.secStored op 0 arg.toNat).memBytes (2 ^ 36 + arg.toNat) n = s.memBytes (2 ^ 36 + arg.toNat) n :=
    List.map_congr_left fun i _ => byteAt_congr (secStored_sameBut.2 .mem (by decide)) _
  have done := answered_secWrite hp (by decide) arg.isLt (word ▸ h)
  rwa [run_secCommand hk f1 f2 f3 hn, mem] at done

/-! ## What each command leaves -/

/-- A command's result shows, and nothing else changes. -/
theorem secResult_fields {n : Nat} (hn : n < 256) (s : State) :
    (Act.run (secResult n) s).fldOf R.SEC_CMD_STATUS F.SEC_CMD_STATUS.result = n ∧
      RegsBut [R.SEC_CMD_STATUS] s (Act.run (secResult n) s) ∧ SameBut [.regs] s (Act.run (secResult n) s) :=
  ⟨(fldOf_put_self _ _ _ _ (by decide)).trans (Nat.mod_eq_of_lt hn), regsBut_upd_reg _ _ _, SameBut.upd _ _ rfl⟩

/-- A command that has set the security record and its result, once answered. -/
theorem answered_secSet {s u t : State} {x : SecX} {n : Nat} (hn : n < 256) (hu : SameBut [.regs] s u)
    (h : Answered (Act.run (secResult n) ((Upd.sec x).apply u)) t) :
    t.fldOf R.SEC_CMD_STATUS F.SEC_CMD_STATUS.result = n ∧ t.sec = x ∧ SameBut [.regs, .sec, .resp, .land, .sent] s t := by
  obtain ⟨result, -, same⟩ := secResult_fields hn ((Upd.sec x).apply u)
  refine ⟨(h.fldOf _ _).trans result, (h.1.2 .sec (by decide)).trans (same.2 .sec (by decide)), ?_⟩
  exact (hu.mono (by decide)).trans ((SameBut.upd (.sec x) u rfl).trans ((same.mono (by decide)).trans (h.1.mono (by decide))))

/-- FLOOR_COMMIT (R392). -/
theorem floorCommit_raises {s u t : State} {b : List Byte} {k : Nat} (hk : numAt b 0 1 = k) (h7 : k ≤ 7) (hu : SameBut [.regs] s u)
    (h : Answered (Act.run (floorCommit b) u) t) :
    t.fldOf R.SEC_CMD_STATUS F.SEC_CMD_STATUS.result = 0 ∧ t.floorOf k = max (s.floorOf k) (s.runningOf k) ∧
      (∀ j, j ≠ k → t.floorOf j = s.floorOf j) ∧ SameBut [.regs, .sec, .resp, .land, .sent] s t := by
  have sec : u.sec = s.sec := hu.2 .sec (by decide)
  have floor (j : Nat) : u.floorOf j = s.floorOf j := by unfold State.floorOf; rw [sec]
  have running : u.runningOf k = s.runningOf k := by unfold State.runningOf; rw [sec]
  have e : Act.run (floorCommit b) u = Act.run (secResult 0) ((Upd.sec { u.sec with
      floors := u.sec.floors.filter (fun e => e.1 ≠ k) ++ [(k, max (u.floorOf k) (u.runningOf k))] }).apply u) := by
    unfold floorCommit
    rw [hk]
    exact (run_ite u (7 < k) _ _).trans (if_neg (Nat.not_lt.2 h7))
  rw [e] at h
  obtain ⟨result, set, same⟩ := answered_secSet (by decide) hu h
  have each (j : Nat) : t.floorOf j = if j = k then max (u.floorOf k) (u.runningOf k) else u.floorOf j := by
    conv_lhs => unfold State.floorOf
    rw [set]
    exact floorOf_replaced _ _ _ _
  refine ⟨result, ?_, fun j hj => ?_, same⟩
  · rw [each, if_pos rfl, floor, running]
  · rw [each, if_neg hj, floor]

/-- OWNER_KEY_INSTALL (R402) with room in the table. -/
theorem ownerKeyInstall_adds {s u t : State} {b keys : List Byte} {mask : Nat} (hb : bytesAt b 0 1984 = keys) (hm : numAt b 1984 4 = mask)
    (hl : s.sec.ownerKeys.length < 64) (hu : SameBut [.regs] s u) (h : Answered (Act.run (ownerKeyInstall b) u) t) :
    t.fldOf R.SEC_CMD_STATUS F.SEC_CMD_STATUS.result = 0 ∧ t.sec = { s.sec with ownerKeys := s.sec.ownerKeys ++ [(mask, keys)] } ∧
      SameBut [.regs, .sec, .resp, .land, .sent] s t := by
  have sec : u.sec = s.sec := hu.2 .sec (by decide)
  unfold ownerKeyInstall at h
  rw [hb, hm, run_bind_of_runs u (runs_ownerKeyAdd (sec ▸ hl)), if_pos rfl, sec] at h
  exact answered_secSet (by decide) hu h

/-- OWNER_KEY_REMOVE (R402) of keys the table holds. -/
theorem ownerKeyRemove_removes {s u t : State} {b keys : List Byte} (hb : bytesAt b 0 1984 = keys)
    (hk : s.sec.ownerKeys.any (fun e => e.2 = keys) = true) (hu : SameBut [.regs] s u)
    (h : Answered (Act.run (ownerKeyRemove b) u) t) :
    t.fldOf R.SEC_CMD_STATUS F.SEC_CMD_STATUS.result = 0 ∧
      t.sec = { s.sec with ownerKeys := s.sec.ownerKeys.filter (fun e => e.2 ≠ keys) } ∧
      SameBut [.regs, .sec, .resp, .land, .sent] s t := by
  have sec : u.sec = s.sec := hu.2 .sec (by decide)
  have e : Act.run (ownerKeyRemove b) u = Act.run (secResult 0) ((Upd.sec { u.sec with
      ownerKeys := u.sec.ownerKeys.filter (fun e => e.2 ≠ keys) }).apply u) := by
    unfold ownerKeyRemove
    rw [hb]
    exact (run_ite u (u.sec.ownerKeys.any (fun e => e.2 = keys) = true) _ _).trans (if_pos (sec ▸ hk))
  rw [e, sec] at h
  exact answered_secSet (by decide) hu h

/-- REPORT (R399, R402) to a place in hub SRAM. -/
theorem secReport_writes {s u t : State} {part : Option Nat} {b : List Byte} (h0 : refSpace (numAt b 32 8) = 0)
    (hr : refAddr (numAt b 32 8) + 7617 ≤ 2 ^ 26) (hu : SameBut [.regs] s u) (h : Answered (Act.run (secReport part b) u) t) :
    t.fldOf R.SEC_CMD_STATUS F.SEC_CMD_STATUS.result = 0 ∧
      Wrote s t (2 ^ 36 + refAddr (numAt b 32 8)) (u.report 1 (bytesAt b 0 32) none []) ∧
      SameBut [.regs, .mem, .resp, .land, .sent] s t := by
  obtain ⟨v, r, same, wrote⟩ := runs_stBytes (2 ^ 36 + refAddr (numAt b 32 8)) (u.report 1 (bytesAt b 0 32) none []) u
  have e : Act.run (secReport part b) u = Act.run (secResult 0) v := by
    unfold secReport
    extract_lets dst
    rw [run_rd_bind, show refSpace dst = 0 from h0]
    show Act.run (if 2 ^ 26 < refAddr (numAt b 32 8) + 7617 then _ else _) u = _
    rw [if_neg (Nat.not_lt.2 hr)]
    exact run_bind_of_runs u r _
  rw [e] at h
  obtain ⟨result, -, rest⟩ := secResult_fields (n := 0) (by decide) v
  refine ⟨(h.fldOf _ _).trans result, ?_, ?_⟩
  · refine Wrote.congr (s := u) wrote (hu.2 .mem (by decide)).symm ?_
    exact (h.1.2 .mem (by decide)).trans (rest.2 .mem (by decide))
  · exact (hu.mono (by decide)).trans ((same.mono (by decide)).trans ((rest.mono (by decide)).trans (h.1.mono (by decide))))

/-! ## Lifecycle records (R396) -/

/-- What an accepted record of a kind asks for: its signer, the state it leads to, and the security record it leaves. -/
def lcAsks (s : State) (b : List Byte) : List (Nat × Bool × Nat × SecX) :=
  [(1, false, 1, s.sec), (2, false, 2, { s.sec with operator := some (lcDigest b) }),
    (3, true, 1, { s.sec with operator := none, ownerKeys := [] }), (4, lcOperator b, 3, { s.sec with helper := false }),
    (5, true, s.lifecycle, s.sec)]

/-- The register a record's own effect is on: DEBUG opens internal debug, the others set the state. -/
def lcEffect (kind st : Nat) : Act Unit :=
  if kind = 5 then wrF R.SEC_BOOT_STATUS F.SEC_BOOT_STATUS.debug_open 1 else setLifecycle st

/-- The state a record of a kind is for (R396). -/
def lcFrom (s : State) (kind : Nat) : Prop :=
  (kind = 1 → s.lifecycle = 0) ∧ (kind = 2 → s.lifecycle = 1) ∧ (kind = 3 → s.lifecycle = 2) ∧
    (kind = 4 → s.lifecycle = 1 ∨ s.lifecycle = 2)

theorem run_lifecycle_unsigned {u : State} {b : List Byte} (h : u.lcSigned b = false) :
    Act.run (lifecycle b) u = Act.run (secResult 1) u := by
  unfold lifecycle
  rw [run_get_bind]
  show Act.run (if (!u.lcSigned b) = true then _ else _) u = _
  rw [h]
  rfl

theorem run_lifecycle_signed {u : State} {b : List Byte} {kind st : Nat} {op : Bool} {x : SecX} (hx : (kind, op, st, x) ∈ lcAsks u b)
    (h : u.lcSigned b = true) (hk : lcKind b = kind) (ho : lcOperator b = op) (hf : lcFrom u kind) :
    Act.run (lifecycle b) u = Act.run (do lcEffect kind st; secResult 0) ((Upd.sec x).apply u) := by
  obtain ⟨f1, f2, f3, f4⟩ := hf
  unfold lifecycle
  rw [run_get_bind]
  show Act.run (if (!u.lcSigned b) = true then _ else _) u = _
  rw [h, hk]
  simp only [lcAsks, List.mem_cons, Prod.mk.injEq, List.not_mem_nil, or_false] at hx
  rw [if_neg (by decide)]
  obtain ⟨rfl, rfl, rfl, rfl⟩ | ⟨rfl, rfl, rfl, rfl⟩ | ⟨rfl, rfl, rfl, rfl⟩ | ⟨rfl, -, rfl, rfl⟩ | ⟨rfl, rfl, rfl, rfl⟩ := hx
  · rw [ho]
    exact (run_ite u (u.lifecycle = 0) _ _).trans (if_pos (f1 rfl))
  · rw [ho]
    exact (run_ite u (u.lifecycle = 1) _ _).trans (if_pos (f2 rfl))
  · rw [ho]
    exact (run_ite u (u.lifecycle = 2) _ _).trans (if_pos (f3 rfl))
  · cases lcOperator b <;> exact (run_ite u (u.lifecycle = 1 ∨ u.lifecycle = 2) _ _).trans (if_pos (f4 rfl))
  · rw [ho]
    rfl

theorem lcEffect_only (kind st : Nat) : Only [.regs] (lcEffect kind st) := .ite (wrF_only _ _ _) (wrF_only _ _ _)

/-- A record's own effect shows in its register. -/
theorem lcEffect_fields (kind st : Nat) (s : State) :
    let t := Act.run (lcEffect kind st) s
    t.lifecycle = (if kind = 5 then s.lifecycle else st % 4) ∧ t.fldOf R.SEC_BOOT_STATUS F.SEC_BOOT_STATUS.debug_open =
      (if kind = 5 then 1 else s.fldOf R.SEC_BOOT_STATUS F.SEC_BOOT_STATUS.debug_open) ∧ SameBut [.regs] s t := by
  unfold lcEffect
  split
  · exact ⟨fldOf_upd_ne _ _ _ _ _ (by decide), fldOf_put_self _ _ _ _ (by decide), SameBut.upd _ _ rfl⟩
  · exact ⟨fldOf_put_self _ _ _ _ (by decide), fldOf_upd_ne _ _ _ _ _ (by decide), SameBut.upd _ _ rfl⟩

/-- What a lifecycle record leaves: nothing but its result where its signatures fail (R396). -/
theorem lifecycle_leaves {s u t : State} {b : List Byte} {kind st : Nat} {op : Bool} {x : SecX} (hx : (kind, op, st, x) ∈ lcAsks s b)
    (hk : lcKind b = kind) (ho : lcOperator b = op) (hf : lcFrom s kind) (hr : RegsBut [R.SEC_CMD] s u) (hu : SameBut [.regs] s u)
    (h : Answered (Act.run (lifecycle b) u) t) :
    t.fldOf R.SEC_CMD_STATUS F.SEC_CMD_STATUS.result = (if s.lcSigned b then 0 else 1) ∧
      t.lifecycle = (if s.lcSigned b then st else s.lifecycle) ∧ t.sec = (if s.lcSigned b then x else s.sec) ∧
      t.fldOf R.SEC_BOOT_STATUS F.SEC_BOOT_STATUS.debug_open =
        (if kind = 5 ∧ s.lcSigned b = true then 1 else s.fldOf R.SEC_BOOT_STATUS F.SEC_BOOT_STATUS.debug_open) ∧
      SameBut [.regs, .sec, .resp, .land, .sent] s t := by
  have sec : u.sec = s.sec := hu.2 .sec (by decide)
  have reg {a : Nat} (ha : a ≠ R.SEC_CMD) (f : Fld) : u.fldOf a f = s.fldOf a f := congrArg (getFld · f) (hr a (by simpa using ha))
  have life : u.lifecycle = s.lifecycle := reg (by decide) _
  have signed : u.lcSigned b = s.lcSigned b := by unfold State.lcSigned; rw [sec]
  cases hs : s.lcSigned b with
  | false =>
    have e := run_lifecycle_unsigned (signed.trans hs)
    rw [show Act.run (secResult 1) u = Act.run (secResult 1) ((Upd.sec u.sec).apply u) from rfl] at e
    have others := (secResult_fields (n := 1) (by decide) u).2.1
    have kept {a : Nat} (h1 : a ≠ R.SEC_CMD_STATUS) (h2 : a ≠ R.SEC_CMD) (f : Fld) : t.fldOf a f = s.fldOf a f := by
      rw [h.fldOf, e]
      exact (congrArg (getFld · f) (others a (by simpa using h1))).trans (reg h2 f)
    have h' := h
    rw [e] at h'
    obtain ⟨result, same, frame⟩ := answered_secSet (by decide) hu h'
    exact ⟨result, kept (by decide) (by decide) _, same.trans sec,
      (kept (by decide) (by decide) _).trans (if_neg fun c => absurd c.2 (by decide)).symm, frame⟩
  | true =>
    let w := Act.run (lcEffect kind st) ((Upd.sec x).apply u)
    obtain ⟨state, debug, own⟩ := lcEffect_fields kind st ((Upd.sec x).apply u)
    obtain ⟨result, others, rest⟩ := secResult_fields (n := 0) (by decide) w
    have asks : lcAsks u b = lcAsks s b := by unfold lcAsks; rw [sec, life]
    have from_ : lcFrom u kind := by unfold lcFrom; rwa [life]
    have e : Act.run (lifecycle b) u = Act.run (secResult 0) w := by
      rw [run_lifecycle_signed (asks ▸ hx) (signed.trans hs) hk ho from_]
      exact (lcEffect_only kind st).run_bind _ _
    rw [e] at h
    have after {a : Nat} (ha : a ≠ R.SEC_CMD_STATUS) (f : Fld) : t.fldOf a f = w.fldOf a f :=
      (h.fldOf a f).trans (congrArg (getFld · f) (others a (by simpa using ha)))
    have leads : (if kind = 5 then s.lifecycle else st % 4) = st := by
      simp only [lcAsks, List.mem_cons, Prod.mk.injEq, List.not_mem_nil, or_false] at hx
      obtain ⟨rfl, -, rfl, -⟩ | ⟨rfl, -, rfl, -⟩ | ⟨rfl, -, rfl, -⟩ | ⟨rfl, -, rfl, -⟩ | ⟨rfl, -, rfl, -⟩ := hx <;> rfl
    refine ⟨(h.fldOf _ _).trans result, ?_, ?_, ?_, ?_⟩
    · refine ((after (by decide) _).trans state).trans ?_
      rw [show ((Upd.sec x).apply u).lifecycle = s.lifecycle from life]
      exact leads
    · exact (h.1.2 .sec (by decide)).trans ((rest.2 .sec (by decide)).trans (own.2 .sec (by decide)))
    · refine ((after (by decide) _).trans debug).trans ?_
      rw [show ((Upd.sec x).apply u).fldOf R.SEC_BOOT_STATUS F.SEC_BOOT_STATUS.debug_open = _ from reg (by decide) _]
      simp
    · exact (hu.mono (by decide)).trans ((SameBut.upd (.sec x) u rfl).trans ((own.mono (by decide)).trans
        ((rest.mono (by decide)).trans (h.1.mono (by decide)))))

/-! ## The commands -/

/-- A command that gives a lifecycle record writes SEC_CMD where the block is of the kind (R396). -/
theorem run_lifecycleWrite {s : State} {core : CoreId} {kind : Nat} {space : Fin 2} {arg : BitVec 48}
    (h : space = 0 ∧ s.memNum (2 ^ 36 + arg.toNat) 1 = kind ∨
      space = 1 ∧ ∃ p b, s.coreAct core = some p ∧ s.gBytes p arg.toNat 1 = .ok b ∧ leNat b = kind) :
    Act.run (lifecycleWrite core kind space arg.toNat) s = Act.run (secWrite core 4 space arg.toNat) s := by
  unfold lifecycleWrite
  rw [run_rd_bind, run_ite]
  obtain ⟨rfl, hk⟩ | ⟨rfl, p, b, hp, hb, hk⟩ := h
  · exact if_pos (congrArg some hk)
  · refine if_pos ?_
    rw [hp]
    show (match s.gBytes p arg.toNat 1 with
      | .ok b => some (leNat b)
      | .error _ => none) = some kind
    rw [hb]
    exact congrArg some hk

/-- Every command of the family writes SEC_CMD with its operation. -/
theorem exec_secOps {s : State} {core : CoreId} {arg : BitVec 48} {op kind : Nat} {space : Fin 2} {c : Instr}
    (hc : (op, kind, c) ∈ [(1, 0, Instr.floorCommit core space arg),
        (2, 0, .ownerKeyInstall core space arg), (3, 0, .ownerKeyRemove core space arg), (4, 1, .provision core space arg),
        (4, 2, .claim core space arg), (4, 3, .lifecycleRelease core space arg), (4, 4, .decommission core space arg),
        (4, 5, .debug core space arg), (5, 0, .secReport core space arg)])
    (h : op = 4 → space = 0 ∧ s.memNum (2 ^ 36 + arg.toNat) 1 = kind ∨
      space = 1 ∧ ∃ p b, s.coreAct core = some p ∧ s.gBytes p arg.toNat 1 = .ok b ∧ leNat b = kind) :
    op ≤ 5 ∧ exec c s = .next (Act.run (secWrite core op space arg.toNat) s) := by
  simp only [List.mem_cons, Prod.mk.injEq, List.not_mem_nil, or_false] at hc
  obtain ⟨rfl, rfl, rfl⟩ | ⟨rfl, rfl, rfl⟩ | ⟨rfl, rfl, rfl⟩ | ⟨rfl, rfl, rfl⟩ | ⟨rfl, rfl, rfl⟩ | ⟨rfl, rfl, rfl⟩ | ⟨rfl, rfl, rfl⟩ |
    ⟨rfl, rfl, rfl⟩ | ⟨rfl, rfl, rfl⟩ := hc
  · exact ⟨by decide, rfl⟩
  · exact ⟨by decide, rfl⟩
  · exact ⟨by decide, rfl⟩
  · exact ⟨by decide, congrArg _ (run_lifecycleWrite (h rfl))⟩
  · exact ⟨by decide, congrArg _ (run_lifecycleWrite (h rfl))⟩
  · exact ⟨by decide, congrArg _ (run_lifecycleWrite (h rfl))⟩
  · exact ⟨by decide, congrArg _ (run_lifecycleWrite (h rfl))⟩
  · exact ⟨by decide, congrArg _ (run_lifecycleWrite (h rfl))⟩
  · exact ⟨by decide, rfl⟩

theorem securityCommands : SecurityCommands := by
  intro s core arg hp
  refine ⟨fun op kind space c hc hl ha => ?_, fun hn ha k hk h7 => ?_, fun hn ha hroom => ?_, fun hn ha keys hkeys hany => ?_,
    fun hn ha b hb h0 hr => ?_, fun hn ha b hb kind st op c x hc hk ho h1 h2 h3 h4 => ?_⟩
  · obtain ⟨hop, e⟩ := exec_secOps hc hl
    have hs : space.val < 4 := lt_trans space.isLt (by decide)
    obtain ⟨f1, f2, f3⟩ := secStored_fields (s := s) (op := op) (by omega) hs arg.isLt
    exact ⟨_, _, e, f1, f2, f3, secStored_regsBut, secStored_sameBut, answered_secWrite hp hs arg.isLt ha⟩
  · have done := answered_secCommand (n := 1) (k := floorCommit) (by simp [secOps]) hp hn ha
    exact ⟨_, rfl, floorCommit_raises ((numAt_memBytes s (by decide)).trans hk.symm) h7 secStored_sameBut done⟩
  · have done := answered_secCommand (n := 1988) (k := ownerKeyInstall) (by simp [secOps]) hp hn ha
    exact ⟨_, rfl, ownerKeyInstall_adds (bytesAt_memBytes s (by decide)) (numAt_memBytes s (by decide)) hroom secStored_sameBut done⟩
  · have done := answered_secCommand (n := 1984) (k := ownerKeyRemove) (by simp [secOps]) hp hn ha
    exact ⟨_, rfl, ownerKeyRemove_removes ((bytesAt_memBytes s (by decide)).trans hkeys.symm) hany secStored_sameBut done⟩
  · have done := answered_secCommand (n := 40) (k := secReport (s.coreAct core)) (by simp [secOps]) hp hn ha
    obtain ⟨result, wrote, same⟩ := secReport_writes (b := b) h0 hr secStored_sameBut (hb ▸ done)
    exact ⟨_, s.secStored 5 0 arg.toNat, rfl, result, secStored_regsBut, secStored_sameBut, wrote, same⟩
  · have done := answered_secCommand (n := 3501) (k := lifecycle) (by simp [secOps]) hp hn ha
    have found : s.memNum (2 ^ 36 + arg.toNat) 1 = kind := by
      rw [← hk, hb, lcKind, numAt_memBytes s (by decide), Nat.add_zero]
    have asks : (kind, op, st, x) ∈ lcAsks s b ∧ exec c s = .next (Act.run (lifecycleWrite core kind (0 : Fin 2) arg.toNat) s) := by
      simp only [List.mem_cons, Prod.mk.injEq, List.not_mem_nil, or_false] at hc
      unfold lcAsks
      obtain ⟨rfl, rfl, rfl, rfl, rfl⟩ | ⟨rfl, rfl, rfl, rfl, rfl⟩ | ⟨rfl, rfl, rfl, rfl, rfl⟩ | ⟨rfl, rfl, rfl, rfl, rfl⟩ |
        ⟨rfl, rfl, rfl, rfl, rfl⟩ := hc <;> exact ⟨by simp, rfl⟩
    obtain ⟨asks, e⟩ := asks
    rw [run_lifecycleWrite (.inl ⟨rfl, found⟩)] at e
    exact ⟨_, e, lifecycle_leaves asks hk ho ⟨h1, h2, h3, h4⟩ secStored_regsBut secStored_sameBut (hb ▸ done)⟩

/-- Settles O57 (it holds): SEC_CMD runs its command on the block it names, and a management record is numbered and acted on. -/
theorem securityActs : Obligations.SecurityActs := ⟨securityCommands, managementRecords⟩

end Sys2Proof.Machine
end

section
/-! # Power: droops, temperatures and energy (R418 to R422) -/

namespace Sys2Proof.Machine

/-- A field of a register is left by a write of another field of it. -/
theorem wrF_keepsFld {a n : Nat} {f g : Fld} (hf : f.lo ≤ f.hi ∧ f.hi < 64) (hd : f.hi < g.lo ∨ g.hi < f.lo) :
    Keeps (fun s => s.fldOf a g) (wrF a f n) := fun s => ⟨(), _, (wrF_only _ _ _).runs s, fldOf_put_ne _ _ _ _ _ hf hd⟩

/-- What an action writes leaves a field of any other register. -/
theorem WritesOnly.keepsFld {P : Nat → Prop} {α : Type} {a : Act α} {r : Nat} {g : Fld} (h : WritesOnly P a) (hr : ¬ P r) :
    Keeps (fun s => s.fldOf r g) a := fun s =>
  let ⟨x, t, e, q⟩ := h s
  ⟨x, t, e, congrArg (getFld · g) (q r hr)⟩

/-- Counting leaves the registers that are no counters. -/
theorem count_fldOf {a n r : Nat} (ha : 0x800 ≤ a % 0x1000) (hr : r % 0x1000 < 0x800) (s : State) (f : Fld) :
    (Act.run (count a n) s).fldOf r f = s.fldOf r f := (count_counters ha).fldOf s (Nat.not_le.2 hr) f

/-! ## The lands once the package fails -/

/-- The VIN_MAIN rails, and whether they were lost. -/
def State.rails (s : State) : Bool × Bool := (s.land.railsOff, s.land.vinLost)

theorem keepsRails_of_only {α : Type} {l : List Field} {a : Act α} (h : Only l a) (hl : Field.land ∉ l) : Keeps State.rails a :=
  .of_only h fun _ _ q => congrArg (fun x : LandX => (x.railsOff, x.vinLost)) (q.2 .land hl)

theorem keepsRails_modLand {f : LandX → LandX} (h : ∀ x, ((f x).railsOff, (f x).vinLost) = (x.railsOff, x.vinLost)) :
    Keeps State.rails (modLand f) := .rd_upd fun s => h s.land

theorem keepsRails_sendIbi {b : Nat} : Keeps State.rails (sendIbi b) := keepsRails_of_only (sendIbi_only _) (by decide)

theorem keepsRails_lowFault : Keeps State.rails lowFault :=
  .bind .rd fun _ => .ite (.bind (keepsRails_modLand fun _ => rfl) fun _ => keepsRails_sendIbi) .pure

theorem keepsRails_lowTrip : Keeps State.rails lowTrip :=
  .bind .rd fun _ => .ite (.bind (keepsRails_modLand fun _ => rfl) fun _ => keepsRails_sendIbi) .pure

theorem keepsRails_mgtSend {n : Nat} {o : Out} : Keeps State.rails (mgtSend n o) :=
  .bind .rd fun _ => .ite (keepsRails_modLand fun _ => rfl)
    (.bind (keepsRails_of_only (count_only _ _) (by decide)) fun _ => keepsRails_of_only (send_only _) (by decide))

theorem keepsRails_pkgFail : Keeps State.rails pkgFail :=
  .bind .rd fun _ => .ite (.bind (keepsRails_of_only (stW_only _ _) (by decide)) fun _ =>
    .bind (.forIn fun _ _ => .bind .rd fun _ => .ite (.bind (keepsRails_of_only (quenchPart_only _ _) (by decide)) fun _ => .pure) .pure)
      fun _ => .bind keepsRails_lowFault fun _ => .bind (keepsRails_of_only (freshBelow_only _) (by decide)) fun _ =>
        keepsRails_mgtSend) .pure

/-! ## Droops -/

theorem run_droop (tile : TileId) (n : Nat) (s : State) : Act.run (droop tile n) s = Act.run (do
    count (C.TILE_CNT_DROOP tile) 1
    count (C.TILE_CNT_STRETCH tile) (max n (s.fldOf R.PWR_DROOP_CFG F.PWR_DROOP_CFG.min_stretch))) s := by
  have counter : 0x800 ≤ C.TILE_CNT_DROOP tile % 0x1000 := by
    simp only [C.TILE_CNT_DROOP, regA, pageBase, Block.base]
    omega
  unfold droop
  rw [(count_only _ _).run_bind, (count_only _ _).run_bind, run_rdF_bind, count_fldOf counter (by decide)]

/-! ## Temperatures -/

theorem sext_toNat (t : BitVec 16) : sext 16 t.toNat = t.toInt := by
  unfold sext
  rw [BitVec.toInt_eq_toNat_cond, Nat.mod_eq_of_lt t.isLt]
  split <;> split <;> omega

/-- A good sensor's reading in range is taken. -/
theorem takeReading_takes {s : State} {page : Nat} {temp : BitVec 16} (hb : s.sensorBad page = false) (h1 : -640 ≤ temp.toInt)
    (h2 : temp.toInt ≤ 2400) :
    let t := Act.run (takeReading page temp) s
    t.sensorTemp page = temp.toInt ∧ (∀ k, k ≠ sensorKey page → t.wordAt k = s.wordAt k) ∧ SameBut [.tab] s t := by
  have good : getFld (s.sensor page) F.PWR_SENSOR.bad = 0 := by
    have small : getFld (s.sensor page) F.PWR_SENSOR.bad < 2 := getFld_lt _ _
    have : getFld (s.sensor page) F.PWR_SENSOR.bad ≠ 1 := by simpa [State.sensorBad] using hb
    omega
  let w := putFld (s.sensor page) F.PWR_SENSOR.temp temp.toNat
  have e : Act.run (takeReading page temp) s = (Upd.word (sensorKey page) w).apply s := by
    unfold takeReading
    rw [run_rd_bind, run_ite, if_pos good, run_ite, if_neg (by rw [sext_toNat]; omega)]
    show (Upd.word (sensorKey page) (BitVec.ofNat 64 w.toNat)).apply s = _
    rw [BitVec.ofNat_toNat, BitVec.setWidth_eq]
  dsimp only
  rw [e]
  refine ⟨?_, fun k hk => wordAt_upd_ne _ _ _ _ hk, SameBut.upd _ _ rfl⟩
  unfold State.sensorTemp State.sensor
  rw [wordAt_upd_self, getFld_putFld_self _ _ _ (by decide) (by decide)]
  show sext 16 (temp.toNat % 2 ^ 16) = _
  rw [Nat.mod_eq_of_lt temp.isLt, sext_toNat]

/-- A reading of one good sensor of a quarter that does not calibrate. -/
theorem run_thermalSample_one {s : State} {q : Fin 4} {i : Fin 156} {temp : BitVec 16} (hc : s.pwr.calUntil = []) :
    Act.run (thermalSample q [(i.val, temp)]) s = Act.run (do
      showThermal q
      thermalActions q) (Act.run (takeReading (q * 156 + i) temp) s) := by
  unfold thermalSample
  rw [run_get_bind, hc]
  exact run_bind_of_runs s (Runs.forIn_cons (((takeReading_only _ _).runs s).bind (Runs.pure (ForInStep.yield ()) _)) (Runs.pure _ _))
    fun _ => do showThermal q; thermalActions q

/-- A trip is latched with its tick, and the rails are off (R421). -/
theorem thermalTrip_latches {s : State} (h : s.fldOf R.PWR_TRIP F.PWR_TRIP.tripped = 0) :
    let t := Act.run thermalTrip s
    t.fldOf R.PWR_TRIP F.PWR_TRIP.tripped = 1 ∧ t.fldOf R.PWR_TRIP F.PWR_TRIP.tick = s.tick ∧ t.land.railsOff = true := by
  let v := Act.run (wrF R.PWR_TRIP F.PWR_TRIP.tick s.tick) (Act.run (wrF R.PWR_TRIP F.PWR_TRIP.tripped 1) s)
  let u := Act.run (modLand (fun x => { x with railsOff := true, stop := 4 })) v
  let rest : Act Unit := do
    setIrq (pageBase .pwr 1) 33
    lowTrip
    pkgFail
  have e : Act.run thermalTrip s = Act.run rest u := by
    unfold thermalTrip
    rw [run_rdF_bind, run_ite, if_pos h, run_rd_bind, (wrF_only _ _ _).run_bind, (wrF_only _ _ _).run_bind, (modLand_only _).run_bind]
  have writes : WritesOnly (· ≠ R.PWR_TRIP) rest := .bind (setIrq_writes (by decide)) fun _ =>
    .bind (.of_only lowTrip_only (by decide)) fun _ => pkgFail_writes (by decide) fun r h e => absurd (e ▸ h) (by decide)
  have rails : Keeps State.rails rest := .bind (keepsRails_of_only (setIrq_only _ _) (by decide)) fun _ =>
    .bind keepsRails_lowTrip fun _ => keepsRails_pkgFail
  have small : s.tick < 2 ^ 48 := getFld_lt _ _
  have latched (f : Fld) : u.fldOf R.PWR_TRIP f = v.fldOf R.PWR_TRIP f := fldOf_congr (((modLand_only _).run v).2 .regs (by decide)) _ f
  have tripped : u.fldOf R.PWR_TRIP F.PWR_TRIP.tripped = 1 := (latched _).trans
    ((fldOf_put_ne _ _ _ _ _ (by decide) (by decide)).trans (fldOf_put_self _ _ _ _ (by decide)))
  have tick : u.fldOf R.PWR_TRIP F.PWR_TRIP.tick = s.tick := by
    rw [latched]
    exact (fldOf_put_self _ R.PWR_TRIP F.PWR_TRIP.tick s.tick (by decide)).trans (Nat.mod_eq_of_lt small)
  dsimp only
  rw [e]
  exact ⟨(writes.fldOf u (by simp) _).trans tripped, (writes.fldOf u (by simp) _).trans tick, congrArg Prod.fst (rails.run u)⟩

/-! ## Energy -/

/-- A microsecond's power enters the energy, whole microjoules and what is left, and the average (R422). -/
theorem energySample_adds {s : State} {mw : Nat} {core : List Nat} {vin : Nat}
    (h : (s.reg R.PWR_ENERGY).toNat + (s.pwr.nj + mw) / 1000 < 2 ^ 64) :
    let t := Act.run (energySample mw core vin) s
    (t.reg R.PWR_ENERGY).toNat * 1000 + t.pwr.nj = (s.reg R.PWR_ENERGY).toNat * 1000 + s.pwr.nj + mw ∧
      t.pwr.samples = ((mw, core) :: s.pwr.samples).take 1000 ∧ RegsBut [R.PWR_ENERGY, R.PWR_INPUT] s t := by
  let samples := ((mw, core) :: s.pwr.samples).take 1000
  let u := (Upd.reg R.PWR_ENERGY (BitVec.ofNat 64 ((s.reg R.PWR_ENERGY).toNat + (s.pwr.nj + mw) / 1000))).apply
    ((Upd.pwr { s.pwr with samples := samples, nj := (s.pwr.nj + mw) % 1000 }).apply s)
  let rest : Act Unit := do
    wrF R.PWR_INPUT F.PWR_INPUT.avg_mw (({ s.pwr with samples := samples } : PwrX).average 1000).1
    wrF R.PWR_INPUT F.PWR_INPUT.vin_10mv vin
  have e : Act.run (energySample mw core vin) s = Act.run rest u := rfl
  have writes : WritesOnly (· ∈ [R.PWR_INPUT]) rest := .bind (wrF_writes (by simp)) fun _ => wrF_writes (by simp)
  have pwr : (Act.run rest u).pwr = u.pwr := rfl
  dsimp only
  rw [e, pwr]
  refine ⟨?_, rfl, fun a ha => (writes.reg u fun h => ha (List.mem_cons_of_mem _ h)).trans ?_⟩
  · rw [writes.reg u (by decide), reg_upd_self, BitVec.toNat_ofNat, Nat.mod_eq_of_lt h]
    show ((s.reg R.PWR_ENERGY).toNat + (s.pwr.nj + mw) / 1000) * 1000 + (s.pwr.nj + mw) % 1000 = _
    omega
  · exact reg_upd_ne _ _ _ _ fun h => ha (h ▸ List.mem_cons_self ..)

/-- Settles O36 (it holds): each event of heat and energy does what its rule says. -/
theorem heatAndEnergy : Obligations.HeatAndEnergy := by
  refine ⟨fun s tile n h => ?_, fun s q i temp h hc hb h1 h2 => ?_, fun s h ht => ?_, fun s mw core vin ha he => ?_⟩
  · exact (next_run_mains h _).trans (congrArg Host.Outcome.next (run_droop tile n s))
  · obtain ⟨reads, words, same⟩ := takeReading_takes hb h1 h2
    exact ⟨_, reads, words, same, (next_run_mains h _).trans (congrArg Host.Outcome.next (run_thermalSample_one hc))⟩
  · exact ⟨_, next_run_mains h _, thermalTrip_latches ht⟩
  · obtain ⟨energy, samples, regs⟩ := energySample_adds (core := core.map (·.toNat)) (vin := vin.toNat) he
    exact ⟨_, congrArg Host.Outcome.next (run_awake s _ ha), energy, samples, regs, (energySample_only _ _ _).run s⟩

end Sys2Proof.Machine
end

section
/-! # Walks, curbs, dividers and the input supply (R406 to R415) -/

namespace Sys2Proof.Machine

/-- A loop over the quarters is its body on each in turn. -/
theorem runs_quarters {body : Nat → Unit → Act (ForInStep Unit)} {f : Nat → State → State}
    (h : ∀ q s, Runs (body q ()) s (.yield ()) (f q s)) (s : State) :
    Runs (forIn (List.range 4) () body) s () (f 3 (f 2 (f 1 (f 0 s)))) :=
  (h 0 s).forIn_cons ((h 1 _).forIn_cons ((h 2 _).forIn_cons ((h 3 _).forIn_cons (Runs.pure _ _))))

/-- A loop of one action over the quarters. -/
theorem runs_eachQuarter {a : Nat → Act Unit} {l : List Field} (h : ∀ q, Only l (a q)) (s : State) :
    Runs (do for q in List.range 4 do a q) s () (Act.run (a 3) (Act.run (a 2) (Act.run (a 1) (Act.run (a 0) s)))) :=
  runs_quarters (f := fun q t => Act.run (a q) t) (fun q t => ((h q).runs t).bind (Runs.pure (ForInStep.yield ()) _)) s

/-- What holds of a quarter once its own turn has come, and is left by the others', holds of every quarter at the end. -/
theorem quarters_all {f : Nat → State → State} {C : Nat → State → Prop} (own : ∀ q s, q < 4 → C q (f q s))
    (other : ∀ q j s, q < 4 → j < 4 → C j s → C j (f q s)) (s : State) {q : Nat} (hq : q < 4) : C q (f 3 (f 2 (f 1 (f 0 s)))) := by
  have then_ {i j : Nat} {t : State} (hi : i < 4) (hj : j < 4) (h : C j t) : C j (f i t) := other i j t hi hj h
  obtain rfl | rfl | rfl | rfl : q = 0 ∨ q = 1 ∨ q = 2 ∨ q = 3 := by omega
  · exact then_ (by decide) hq (then_ (by decide) hq (then_ (by decide) hq (own 0 s hq)))
  · exact then_ (by decide) hq (then_ (by decide) hq (own 1 _ hq))
  · exact then_ (by decide) hq (own 2 _ hq)
  · exact own 3 _ hq

/-- What every quarter's turn keeps is kept. -/
theorem quarters_keep {f : Nat → State → State} {R : State → State → Prop} (trans : ∀ {a b c}, R a b → R b c → R a c)
    (each : ∀ q s, q < 4 → R s (f q s)) (s : State) : R s (f 3 (f 2 (f 1 (f 0 s)))) :=
  trans (each 0 s (by decide)) (trans (each 1 _ (by decide)) (trans (each 2 _ (by decide)) (each 3 _ (by decide))))

/-! ## A step of a walk (R409, R410) -/

theorem stepFld_ok (q : Nat) (h : q < 4) : (stepFld q).lo ≤ (stepFld q).hi ∧ (stepFld q).hi < 64 := by
  simp only [stepFld]
  omega

theorem stepFld_apart {q j : Nat} (h : q ≠ j) : (stepFld q).hi < (stepFld j).lo ∨ (stepFld j).hi < (stepFld q).lo := by
  simp only [stepFld]
  omega

theorem stepFld_walking (q : Nat) : (stepFld q).hi < F.PWR_STATUS.walking.lo ∨ F.PWR_STATUS.walking.hi < (stepFld q).lo :=
  .inr (by simp only [stepFld, F.PWR_STATUS.walking]; omega)

/-- The step in progress of a walk completes in one quarter; `s` is the state the walk's step began in. -/
def walkQuarter (s : State) (q : Nat) (t : State) : State :=
  if s.stepQ q ≠ s.nextStep q then
    Act.run (count C.PWR_CNT_VF_STEPS 1) (Act.run (wrF R.PWR_STATUS (stepFld q) (s.nextStep q)) t)
  else t

/-- Its other fields of PWR_STATUS stay. -/
theorem walkQuarter_keeps (s : State) {q : Nat} (hq : q < 4) (t : State) {g : Fld} (hg : (stepFld q).hi < g.lo ∨ g.hi < (stepFld q).lo) :
    (walkQuarter s q t).fldOf R.PWR_STATUS g = t.fldOf R.PWR_STATUS g := by
  unfold walkQuarter
  split
  · rw [count_fldOf (by decide) (by decide)]
    exact fldOf_put_ne _ _ _ _ _ (stepFld_ok q hq) hg
  · rfl

theorem walkQuarter_stepQ (s : State) {q : Nat} (hq : q < 4) (hn : s.nextStep q ≤ 24) (t : State) (ht : t.stepQ q = s.stepQ q) :
    (walkQuarter s q t).stepQ q = s.nextStep q := by
  unfold walkQuarter
  split
  · refine (count_fldOf (by decide) (by decide) _ _).trans ((fldOf_put_self _ _ _ _ (stepFld_ok q hq)).trans (Nat.mod_eq_of_lt ?_))
    have width : (stepFld q).hi + 1 - (stepFld q).lo = 8 := by simp only [stepFld]; omega
    rw [width]
    omega
  · next h => rw [ht, not_not.1 h]

theorem walkQuarter_sameBut (s : State) (q : Nat) (t : State) : SameBut [.regs] t (walkQuarter s q t) := by
  unfold walkQuarter
  split
  · exact (SameBut.upd _ _ rfl).trans ((count_only _ _).run _)
  · exact SameBut.refl _ _

/-- The step in progress completes in every quarter. -/
def walkAll (s : State) : State := walkQuarter s 3 (walkQuarter s 2 (walkQuarter s 1 (walkQuarter s 0 s)))

theorem walkAll_stepQ {s : State} (h : ∀ q, q < 4 → s.nextStep q ≤ 24) {q : Nat} (hq : q < 4) : (walkAll s).stepQ q = s.nextStep q := by
  have kept {i j : Nat} (hi : i < 4) (t : State) (hij : i ≠ j) : (walkQuarter s i t).stepQ j = t.stepQ j :=
    walkQuarter_keeps s hi t (stepFld_apart hij)
  have own {i : Nat} (hi : i < 4) (t : State) (ht : t.stepQ i = s.stepQ i) := walkQuarter_stepQ s hi (h i hi) t ht
  unfold walkAll
  obtain rfl | rfl | rfl | rfl : q = 0 ∨ q = 1 ∨ q = 2 ∨ q = 3 := by omega
  · rw [kept (by decide) _ (by decide), kept (by decide) _ (by decide), kept (by decide) _ (by decide), own (by decide) s rfl]
  · rw [kept (by decide) _ (by decide), kept (by decide) _ (by decide), own (by decide) _ (kept (by decide) _ (by decide))]
  · rw [kept (by decide) _ (by decide), own (by decide)]
    rw [kept (by decide) _ (by decide), kept (by decide) _ (by decide)]
  · rw [own (by decide)]
    rw [kept (by decide) _ (by decide), kept (by decide) _ (by decide), kept (by decide) _ (by decide)]

/-- The walk goes on toward the targets. -/
def State.walkedOn (s : State) : PwrX :=
  { s.pwr with nexts := (List.range 4).map (fun q => stepToward (s.nextStep q) (s.targetStep q)) }

theorem run_vfStep {s : State} (h : s.fldOf R.PWR_STATUS F.PWR_STATUS.walking = 1) :
    Act.run vfStep s = (let u := (Upd.pwr s.walkedOn).apply (walkAll s)
      if (List.range 4).all (fun q => s.nextStep q = s.targetStep q) then Act.run (wrF R.PWR_STATUS F.PWR_STATUS.walking 0) u else u) := by
  have loop : Runs (do
      for q in List.range 4 do
        if s.stepQ q ≠ s.pwr.nexts.getD q 0 then
          wrF R.PWR_STATUS (stepFld q) (s.pwr.nexts.getD q 0)
          count C.PWR_CNT_VF_STEPS 1) s () (walkAll s) := by
    refine runs_quarters (f := walkQuarter s) (fun q t => ?_) s
    unfold walkQuarter
    show Runs (if s.stepQ q ≠ s.nextStep q then _ else _) t _ (if s.stepQ q ≠ s.nextStep q then _ else t)
    split
    · exact ((wrF_only _ _ _).runs t).bind (((count_only _ _).runs _).bind (Runs.pure _ _))
    · exact Runs.pure _ _
  have pwr : (walkAll s).pwr = s.pwr :=
    (quarters_keep (R := SameBut [.regs]) SameBut.trans (fun q t _ => walkQuarter_sameBut s q t) s).2 .pwr (by decide)
  unfold vfStep
  rw [run_get_bind, run_ite, if_pos h]
  refine (run_bind_of_runs s loop _).trans ?_
  rw [show s.walkedOn = { (walkAll s).pwr with
    nexts := (List.range 4).map (fun q => stepToward (s.nextStep q) (s.targetStep q)) } by rw [pwr]; rfl]
  exact run_ite _ ((List.range 4).all (fun q => s.nextStep q = s.targetStep q) = true) _ _

theorem walkAll_sameBut (s : State) : SameBut [.regs] s (walkAll s) :=
  quarters_keep (R := SameBut [.regs]) (f := walkQuarter s) SameBut.trans (fun q t _ => walkQuarter_sameBut s q t) s

theorem walkAll_walking (s : State) : (walkAll s).fldOf R.PWR_STATUS F.PWR_STATUS.walking = s.fldOf R.PWR_STATUS F.PWR_STATUS.walking :=
  quarters_keep (R := fun a b => b.fldOf R.PWR_STATUS F.PWR_STATUS.walking = a.fldOf R.PWR_STATUS F.PWR_STATUS.walking)
    (fun h g => g.trans h) (fun q t hq => walkQuarter_keeps s hq t (stepFld_walking q)) s

/-- VF_STEP: the steps in progress are done, the next ones begin, and the walk ends where the targets are reached (R410). -/
theorem vfStep_walks {s : State} (h : s.fldOf R.PWR_STATUS F.PWR_STATUS.walking = 1) (hn : ∀ q, q < 4 → s.nextStep q ≤ 24) :
    let t := Act.run vfStep s
    (∀ q, q < 4 → t.stepQ q = s.nextStep q ∧ t.nextStep q = stepToward (s.nextStep q) (s.targetStep q) ∧
      t.targetStep q = s.targetStep q) ∧ t.fldOf R.PWR_STATUS F.PWR_STATUS.walking =
      (if (List.range 4).all (fun q => s.nextStep q = s.targetStep q) then 0 else 1) := by
  let u := (Upd.pwr s.walkedOn).apply (walkAll s)
  have nexts {q : Nat} (hq : q < 4) : u.nextStep q = stepToward (s.nextStep q) (s.targetStep q) := by
    show ((List.range 4).map (fun q => stepToward (s.nextStep q) (s.targetStep q))).getD q 0 = _
    simp [List.getD_eq_getElem?_getD, hq]
  have steps {q : Nat} (hq : q < 4) : u.stepQ q = s.nextStep q := walkAll_stepQ hn hq
  have walking : u.fldOf R.PWR_STATUS F.PWR_STATUS.walking = 1 := (walkAll_walking s).trans h
  dsimp only
  rw [run_vfStep h]
  dsimp only
  split
  · refine ⟨fun q hq => ⟨?_, nexts hq, rfl⟩, fldOf_put_self _ _ _ _ (by decide)⟩
    exact (fldOf_put_ne _ _ _ _ _ (by decide) (stepFld_walking q).symm).trans (steps hq)
  · exact ⟨fun q hq => ⟨steps hq, nexts hq, rfl⟩, walking⟩

/-! ## Dividers (R414, R415) -/

theorem divided_lt (s : State) : s.fldOf R.PWR_STATUS F.PWR_STATUS.divided < 16 := getFld_lt _ _

/-- The four bits of the dividers, one of them set. -/
theorem bit_divided_set : ∀ v < 16, ∀ q < 4, ∀ j < 4, bit (orBit v q % 16) j = (decide (j = q) || bit v j) := by decide

/-- One of them cleared. -/
theorem bit_divided_clr : ∀ v < 16, ∀ q < 4, ∀ j < 4, bit (clrBit v q % 16) j = (!decide (j = q) && bit v j) := by decide

theorem isDivided_divide (s : State) {q j : Nat} (hq : q < 4) (hj : j < 4) :
    (Act.run (divide q) s).isDivided j = (decide (j = q) || s.isDivided j) := by
  have e : (Act.run (divide q) s).fldOf R.PWR_STATUS F.PWR_STATUS.divided = orBit (s.fldOf R.PWR_STATUS F.PWR_STATUS.divided) q % 16 :=
    fldOf_put_self _ _ _ _ (by decide)
  unfold State.isDivided
  rw [e]
  exact bit_divided_set _ (divided_lt s) q hq j hj

theorem isDivided_congr {s t : State} (h : t.fldOf R.PWR_STATUS F.PWR_STATUS.divided = s.fldOf R.PWR_STATUS F.PWR_STATUS.divided) (q : Nat) :
    t.isDivided q = s.isDivided q := by
  unfold State.isDivided
  rw [h]

/-- Every divider engages. -/
theorem run_divideAll (s : State) : ∃ t, Runs (do for q in List.range 4 do divide q) s () t ∧ (∀ q, q < 4 → t.isDivided q = true) ∧
    SameBut [.regs] s t := by
  refine ⟨_, runs_eachQuarter divide_only s,
    fun q hq => quarters_all (f := fun q t => Act.run (divide q) t) (C := fun q t => t.isDivided q = true) (fun q t hq => ?_)
      (fun q j t hq hj h => ?_) s hq,
    quarters_keep (R := SameBut [.regs]) (f := fun q t => Act.run (divide q) t) SameBut.trans (fun q t _ => (divide_only q).run t) s⟩
  · show (Act.run (divide q) t).isDivided q = true
    rw [isDivided_divide t hq hq, decide_eq_true rfl, Bool.true_or]
  · show (Act.run (divide q) t).isDivided j = true
    rw [isDivided_divide t hq hj, h, Bool.or_true]

/-- The choice of steps leaves the dividers and the curb level. -/
theorem vfChoose_keeps {g : Fld} (hg : g = F.PWR_STATUS.divided ∨ g = F.PWR_STATUS.curb_level) :
    Keeps (fun s => s.fldOf R.PWR_STATUS g) vfChoose := by
  have set {f : Fld} {n : Nat} (hf : f.lo ≤ f.hi ∧ f.hi < 64)
      (hd : ∀ g : Fld, g = F.PWR_STATUS.divided ∨ g = F.PWR_STATUS.curb_level → f.hi < g.lo ∨ g.hi < f.lo) :
      Keeps (fun s => s.fldOf R.PWR_STATUS g) (wrF R.PWR_STATUS f n) := wrF_keepsFld hf (hd g hg)
  have pwr {f : PwrX → PwrX} : Keeps (fun s => s.fldOf R.PWR_STATUS g) (modPwr f) := .rd_upd fun _ => rfl
  have apart (f : Fld) (h1 : f.hi < F.PWR_STATUS.divided.lo ∨ F.PWR_STATUS.divided.hi < f.lo)
      (h2 : f.hi < F.PWR_STATUS.curb_level.lo ∨ F.PWR_STATUS.curb_level.hi < f.lo) (g : Fld)
      (hg : g = F.PWR_STATUS.divided ∨ g = F.PWR_STATUS.curb_level) : f.hi < g.lo ∨ g.hi < f.lo := by
    rcases hg with rfl | rfl
    · exact h1
    · exact h2
  exact .bind .get fun s => .bind (set (by decide) (apart _ (by decide) (by decide))) fun _ =>
    .bind (set (by decide) (apart _ (by decide) (by decide))) fun _ => .bind pwr fun _ =>
    .ite (.bind pwr fun _ => .ite (set (by decide) (apart _ (by decide) (by decide))) .pure) .pure

/-- A level called for that has risen: every divider engages, and the level is in force (R414). -/
theorem curbRaised_acts (s : State) :
    let t := Act.run curbRaised s
    (∀ q, q < 4 → t.isDivided q = true) ∧ t.curbLevel = s.pwr.called % 4 := by
  obtain ⟨u, r, divided, same⟩ := run_divideAll s
  let v := Act.run (wrF R.PWR_STATUS F.PWR_STATUS.curb_level s.pwr.called) u
  have e : Act.run curbRaised s = Act.run vfChoose v := by
    unfold curbRaised
    refine (run_bind_of_runs s r _).trans ?_
    rw [run_rd_bind, same.2 .pwr (by decide)]
    exact (wrF_only _ _ _).run_bind _ _
  dsimp only
  rw [e]
  refine ⟨fun q hq => ?_, ((vfChoose_keeps (.inr rfl)).run v).trans (fldOf_put_self _ _ _ _ (by decide))⟩
  exact (isDivided_congr ((vfChoose_keeps (.inl rfl)).run v) q).trans
    ((isDivided_congr (s := u) (t := v) (fldOf_put_ne _ _ _ _ _ (by decide) (by decide)) q).trans (divided q hq))

/-- CURB_EDGE: the pins' level changes, is counted and interrupts, before it acts (R413, R414). -/
theorem run_curbEdge {s : State} {level : Nat} (h : level ≠ s.pwr.pinLevel) (hv : s.pwr.vinLow = false) :
    ∃ u, u.pwr = { s.pwr with pinLevel := level } ∧ SameBut [.regs, .pwr] s u ∧
      Act.run (curbEdge level) s = if s.curbLevel < level then Act.run curbRaised u else u := by
  let v := (Upd.pwr { s.pwr with pinLevel := level }).apply s
  let u := Act.run (setIrq (pageBase .pwr 0) 32) (Act.run (count C.PWR_CNT_CURB_EDGES 1) v)
  have q : SameBut [.regs] v u := ((count_only _ _).run v).trans ((setIrq_only _ _).run _)
  have pwr : u.pwr = v.pwr := q.2 .pwr (by decide)
  have called : u.pwr.called = level := by
    rw [pwr]
    show (if s.pwr.vinLow = true then 3 else level) = level
    rw [hv]
    rfl
  have force : u.curbLevel = s.curbLevel :=
    ((setIrq_writes (P := (· = pageBase .pwr 0 + 0x40)) rfl).fldOf _ (by decide) _).trans (count_fldOf (by decide) (by decide) v _)
  refine ⟨u, pwr, (SameBut.upd _ s rfl).trans (q.mono (by decide)), ?_⟩
  unfold curbEdge
  rw [run_get_bind, run_ite, if_pos h, (modPwr_only _).run_bind, (count_only _ _).run_bind, (setIrq_only _ _).run_bind]
  show Act.run curbMoved u = _
  unfold curbMoved
  rw [run_get_bind, run_ite, called, force]
  rfl

/-- VIN_LOW: the input's level changes, shows, is counted and interrupts, before it acts (R407). -/
theorem run_vinLow {s : State} (h : s.pwr.vinLow = false) (hl : s.curbLevel < 3) :
    ∃ u, u.pwr = { s.pwr with vinLow := true } ∧ u.fldOf R.PWR_STATUS F.PWR_STATUS.vin_low = 1 ∧ SameBut [.regs, .pwr] s u ∧
      Act.run vinLow s = Act.run curbRaised u := by
  let v := (Upd.pwr { s.pwr with vinLow := true }).apply s
  let w := Act.run (wrF R.PWR_STATUS F.PWR_STATUS.vin_low 1) v
  let u := Act.run (count C.PWR_CNT_VIN_LOW 1) (Act.run (setIrq (pageBase .pwr 0) 34) w)
  have q : SameBut [.regs] v u := ((wrF_only _ _ _).run v).trans (((setIrq_only _ _).run w).trans ((count_only _ _).run _))
  have pwr : u.pwr = v.pwr := q.2 .pwr (by decide)
  have status (f : Fld) : u.fldOf R.PWR_STATUS f = w.fldOf R.PWR_STATUS f := (count_fldOf (by decide) (by decide) _ f).trans
    ((setIrq_writes (P := (· = pageBase .pwr 0 + 0x40)) rfl).fldOf w (by decide) f)
  have force : u.curbLevel = s.curbLevel := (status _).trans (fldOf_put_ne _ _ _ _ _ (by decide) (by decide))
  refine ⟨u, pwr, (status _).trans (fldOf_put_self _ _ _ _ (by decide)), (SameBut.upd _ s rfl).trans (q.mono (by decide)), ?_⟩
  unfold vinLow
  rw [run_rd_bind, h, run_ite, if_pos (show (!false) = true from rfl), (modPwr_only _).run_bind, (wrF_only _ _ _).run_bind, (setIrq_only _ _).run_bind,
    (count_only _ _).run_bind]
  show Act.run curbMoved u = _
  unfold curbMoved
  rw [run_get_bind, run_ite, force, pwr, if_pos (show s.curbLevel < v.pwr.called from hl)]

/-- DIVIDER_RELEASE: the first quarter that may be released is (R415). -/
theorem run_dividerRelease {s : State} {q : Nat} (h : (List.range 4).find? (fun q => s.mayRelease q) = some q) :
    let t := Act.run dividerRelease s
    t.isDivided q = false ∧ (∀ j, j < 4 → j ≠ q → t.isDivided j = s.isDivided j) ∧
      t.fldOf (R.PWR_THERM_Q q) F.PWR_THERM_Q.throttled = 0 ∧ RegsBut [R.PWR_STATUS, R.PWR_THERM_Q q] s t := by
  have hq : q < 4 := List.mem_range.1 (List.mem_of_find?_eq_some h)
  let u := Act.run (wrF R.PWR_STATUS F.PWR_STATUS.divided (clrBit (s.fldOf R.PWR_STATUS F.PWR_STATUS.divided) q)) s
  have e : Act.run dividerRelease s = Act.run (wrF (R.PWR_THERM_Q q) F.PWR_THERM_Q.throttled 0) u := by
    unfold dividerRelease
    rw [run_get_bind, h]
    rfl
  have apart : R.PWR_STATUS ≠ R.PWR_THERM_Q q := by
    simp only [R.PWR_STATUS, R.PWR_THERM_Q, regA, pageBase, Block.base]
    omega
  have bits {j : Nat} (hj : j < 4) : (Act.run (wrF (R.PWR_THERM_Q q) F.PWR_THERM_Q.throttled 0) u).isDivided j =
      (!decide (j = q) && s.isDivided j) := by
    refine (isDivided_congr (s := u) (fldOf_upd_ne _ _ _ _ _ apart) j).trans ?_
    unfold State.isDivided
    rw [show u.fldOf R.PWR_STATUS F.PWR_STATUS.divided = clrBit (s.fldOf R.PWR_STATUS F.PWR_STATUS.divided) q % 16 from
      fldOf_put_self _ _ _ _ (by decide)]
    exact bit_divided_clr _ (divided_lt s) q hq j hj
  dsimp only
  rw [e]
  refine ⟨?_, fun j hj hne => ?_, fldOf_put_self _ _ _ _ (by decide), ?_⟩
  · rw [bits hq, decide_eq_true rfl]
    rfl
  · rw [bits hj, decide_eq_false hne]
    rfl
  · exact ((regsBut_upd_reg _ _ s).mono (by simp)).trans ((regsBut_upd_reg _ _ u).mono (by simp))

/-- VF_STEP, CURB_EDGE and DIVIDER_RELEASE (R409, R410, R414, R415). -/
theorem walksAndCurbs : WalksAndCurbs := by
  refine ⟨fun s h hw hn => ?_, fun s level ha hl hv => ?_, fun s q h hf => ?_⟩
  · obtain ⟨steps, walking⟩ := vfStep_walks hw hn
    exact ⟨_, next_run_mains h _, steps, walking, vfStep_only.run s⟩
  · obtain ⟨u, pwr, same, e⟩ := run_curbEdge hl hv
    have e' : exec (.curbEdge level) s = .next (if s.curbLevel < level.val then Act.run curbRaised u else u) :=
      congrArg Host.Outcome.next ((run_awake s (curbEdge level) ha).trans e)
    have called : u.pwr.called = level.val := by
      rw [pwr]
      show (if s.pwr.vinLow = true then 3 else level.val) = level.val
      rw [hv]
      rfl
    obtain ⟨divided, force⟩ := curbRaised_acts u
    refine ⟨u, pwr, same, fun h => ?_, fun h => ?_, divided, ?_⟩
    · exact e'.trans (congrArg _ (if_pos h))
    · exact e'.trans (congrArg _ (if_neg (Nat.not_lt.2 h)))
    · rw [force, called, Nat.mod_eq_of_lt level.isLt]
  · obtain ⟨off, others, throttled, regs⟩ := run_dividerRelease hf
    exact ⟨_, next_run_mains h _, off, others, throttled, regs, dividerRelease_only.run s⟩

/-! ## The cap guard (R412) -/

/-- A quarter's divider is held until a tick edge has chosen again. -/
def State.held (s : State) (q : Nat) : Bool := s.isDivided q && s.pwr.await.contains q

theorem held_divideHeld (s : State) {q j : Nat} (hq : q < 4) (hj : j < 4) (h : j = q ∨ s.held j = true) :
    (Act.run (divideHeld q) s).held j = true := by
  have divided : (Act.run (divideHeld q) s).isDivided j = (decide (j = q) || s.isDivided j) := isDivided_divide s hq hj
  have await : (Act.run (divideHeld q) s).pwr.await = if s.pwr.await.contains q then s.pwr.await else s.pwr.await ++ [q] := rfl
  unfold State.held
  rw [divided, await]
  rcases h with rfl | h
  · split
    · next c => rw [decide_eq_true rfl, c]; rfl
    · simp
  · obtain ⟨h1, h2⟩ := Bool.and_eq_true_iff.1 h
    rw [h1, Bool.or_true, Bool.true_and]
    split
    · exact h2
    · rw [List.contains_eq_mem, decide_eq_true_eq] at h2 ⊢
      exact List.mem_append_left _ h2

/-- Every divider is held. -/
theorem run_holdAll (s : State) : ∃ t, Runs (do for q in List.range 4 do divideHeld q) s () t ∧ (∀ q, q < 4 → t.held q = true) ∧
    SameBut [.regs, .pwr] s t :=
  ⟨_, runs_eachQuarter divideHeld_only s,
    fun _ hq => quarters_all (f := fun q t => Act.run (divideHeld q) t) (C := fun q t => t.held q = true)
      (fun _ t hq => held_divideHeld t hq hq (.inl rfl)) (fun _ _ t hq hj h => held_divideHeld t hq hj (.inr h)) s hq,
    quarters_keep (R := SameBut [.regs, .pwr]) (f := fun q t => Act.run (divideHeld q) t) SameBut.trans
      (fun i t _ => (divideHeld_only i).run t) s⟩

/-- The walk stands at step 0 with every divider engaged. -/
def State.lowest (s : State) : Bool := (List.range 4).all (fun q => s.stepQ q = 0 && s.isDivided q)

theorem lowest_iff (s : State) : s.lowest = true ↔ ∀ q, q < 4 → s.stepQ q = 0 ∧ s.isDivided q = true := by
  simp [State.lowest, List.all_eq_true]

section
variable {s : State} (hc : s.pwr.capAt + 1000000 ≤ s.now)
  (ha : s.fldOf R.PWR_CAP F.PWR_CAP.cap_w * 1020 < s.fldOf R.PWR_INPUT F.PWR_INPUT.avg_mw)
include hc ha

theorem capGuard_holds (h : s.lowest = false) : ∃ t, Act.run capGuard s = t ∧ (∀ q, q < 4 → t.held q = true) ∧
    SameBut [.regs, .pwr] s t := by
  obtain ⟨u, r, held, same⟩ := run_holdAll s
  have e : Act.run capGuard s = Act.run (count C.PWR_CNT_CAP_GUARD 1) u := by
    unfold capGuard
    rw [run_get_bind, run_ite, if_pos hc]
    show Act.run (if (s.lowest && decide (s.fldOf R.PWR_CAP F.PWR_CAP.cap_w * 1000 < s.fldOf R.PWR_INPUT F.PWR_INPUT.avg_mw)) = true
      then _ else if s.fldOf R.PWR_CAP F.PWR_CAP.cap_w * 1020 < s.fldOf R.PWR_INPUT F.PWR_INPUT.avg_mw then _ else _) s = _
    rw [h, if_neg (by simp), if_pos ha]
    exact run_bind_of_runs s r _
  have q := (count_only C.PWR_CNT_CAP_GUARD 1).run u
  refine ⟨_, e, fun j hj => ?_, same.trans (q.mono (by decide))⟩
  unfold State.held
  rw [isDivided_congr (count_fldOf (by decide) (by decide) _ _), q.2 .pwr (by decide)]
  exact held j hj

theorem capGuard_unmet (h : s.lowest = true) (h0 : s.fldOf R.PWR_STATUS F.PWR_STATUS.cap_unmet = 0) :
    let t := Act.run capGuard s
    t.fldOf R.PWR_STATUS F.PWR_STATUS.cap_unmet = 1 ∧ bit (t.reg (pageBase .pwr 0 + 0x40)).toNat 33 = true ∧
      RegsBut [R.PWR_STATUS, pageBase .pwr 0 + 0x40] s t ∧ SameBut [.regs] s t := by
  let u := Act.run (wrF R.PWR_STATUS F.PWR_STATUS.cap_unmet 1) s
  have exceeds : (s.lowest && decide (s.fldOf R.PWR_CAP F.PWR_CAP.cap_w * 1000 < s.fldOf R.PWR_INPUT F.PWR_INPUT.avg_mw)) = true := by
    rw [h, Bool.true_and, decide_eq_true_eq]
    exact lt_of_le_of_lt (Nat.mul_le_mul_left _ (by decide)) ha
  have e : Act.run capGuard s = Act.run (setIrq (pageBase .pwr 0) 33) u := by
    unfold capGuard
    rw [run_get_bind, run_ite, if_pos hc]
    show Act.run (if (s.lowest && decide (s.fldOf R.PWR_CAP F.PWR_CAP.cap_w * 1000 < s.fldOf R.PWR_INPUT F.PWR_INPUT.avg_mw)) = true
      then if s.fldOf R.PWR_STATUS F.PWR_STATUS.cap_unmet = 0 then _ else _ else _) s = _
    rw [exceeds, if_pos rfl, if_pos h0]
    exact (wrF_only _ _ _).run_bind _ s
  have irq : WritesOnly (· = pageBase .pwr 0 + 0x40) (setIrq (pageBase .pwr 0) 33) :=
    setIrq_writes (P := (· = pageBase .pwr 0 + 0x40)) rfl
  dsimp only
  rw [e]
  refine ⟨(irq.fldOf u (by decide) _).trans (fldOf_put_self _ _ _ _ (by decide)), bit_setIrq _ (by decide) _, fun a ha => ?_,
    (SameBut.upd _ _ rfl).trans ((setIrq_only _ _).run u)⟩
  simp only [List.mem_cons, List.not_mem_nil, or_false, not_or] at ha
  exact (irq.reg u ha.2).trans (reg_upd_ne _ _ _ _ ha.1)

end

/-! ## Rails and the input (R406, R407) -/

theorem stagePlace_ok : ∀ rail : Fin 10, ((stagePlace rail).2.lo ≤ (stagePlace rail).2.hi ∧ (stagePlace rail).2.hi < 64) ∧
    (stagePlace rail).2.hi + 1 - (stagePlace rail).2.lo = 4 ∧ (stagePlace rail).1 ≠ pageBase .pwr 0 + 0x40 := by decide

/-- One more stage of a rail has failed: it is counted and interrupts, before it acts (R406). -/
theorem run_stageFail (rail : Fin 10) (s : State) :
    ∃ u, u.fldOf (stagePlace rail).1 (stagePlace rail).2 = min 15 (s.fldOf (stagePlace rail).1 (stagePlace rail).2 + 1) ∧
      bit (u.reg (pageBase .pwr 0 + 0x40)).toNat 35 = true ∧ RegsBut [(stagePlace rail).1, pageBase .pwr 0 + 0x40] s u ∧
      SameBut [.regs] s u ∧ Act.run (stageFail rail) s = Act.run (if 2 ≤ s.fldOf (stagePlace rail).1 (stagePlace rail).2 then
        (if rail.val < 4 then divideHeld rail else pkgFail) else skip) u := by
  obtain ⟨field, width, apart⟩ := stagePlace_ok rail
  have irq : WritesOnly (· = pageBase .pwr 0 + 0x40) (setIrq (pageBase .pwr 0) 35) :=
    setIrq_writes (P := (· = pageBase .pwr 0 + 0x40)) rfl
  have counted (v : State) (hv : v = Act.run (wrF (stagePlace rail).1 (stagePlace rail).2
      (min 15 (s.fldOf (stagePlace rail).1 (stagePlace rail).2 + 1))) s) :
      v.fldOf (stagePlace rail).1 (stagePlace rail).2 = min 15 (s.fldOf (stagePlace rail).1 (stagePlace rail).2 + 1) := by
    rw [hv]
    refine (fldOf_put_self _ _ _ _ field).trans (Nat.mod_eq_of_lt ?_)
    rw [width]
    omega
  let v := Act.run (wrF (stagePlace rail).1 (stagePlace rail).2 (min 15 (s.fldOf (stagePlace rail).1 (stagePlace rail).2 + 1))) s
  refine ⟨Act.run (setIrq (pageBase .pwr 0) 35) v, (irq.fldOf v apart _).trans (counted v rfl), bit_setIrq _ (by decide) _,
    fun a ha => ?_, (SameBut.upd _ _ rfl).trans ((setIrq_only _ _).run v), ?_⟩
  · simp only [List.mem_cons, List.not_mem_nil, or_false, not_or] at ha
    exact (irq.reg v ha.2).trans (reg_upd_ne _ _ _ _ ha.1)
  · unfold stageFail
    show Act.run (do
      let n ← rdF (stagePlace rail).1 (stagePlace rail).2
      wrF (stagePlace rail).1 (stagePlace rail).2 (min 15 (n + 1))
      setIrq (pageBase .pwr 0) 35
      if 2 ≤ n then
        if rail.val < 4 then divideHeld rail else pkgFail) s = _
    rw [run_rdF_bind, (wrF_only _ _ _).run_bind, (setIrq_only _ _).run_bind]
    rfl

/-- VIN_LOSS: the rails are off, and the GDDR7 contents with them (R407). -/
theorem run_vinLoss {s : State} (h : s.land.railsOff = false) :
    let t := Act.run vinLoss s
    t.land.vinLost = true ∧ t.land.railsOff = true ∧ ∀ k, 2 ^ 60 ≤ k → k < 2 ^ 64 → t.byteAt k = 0 := by
  let u := (Upd.clearMem (2 ^ 60) (2 ^ 64)).apply (Act.run (modLand (fun x => { x with vinLost := true })) s)
  let v := Act.run (modLand (fun x => { x with railsOff := true, stop := if x.stop = 2 then 2 else 3 })) u
  have e : Act.run vinLoss s = Act.run (do pkgFail; lowFault) v := by
    unfold vinLoss
    rw [(modLand_only _).run_bind, run_upd_bind, run_rd_bind, run_ite]
    rw [if_pos (show (!u.land.railsOff) = true from by rw [show u.land.railsOff = false from h]; rfl)]
    exact (modLand_only _).run_bind _ u
  have rails : (Act.run (do pkgFail; lowFault) v).rails = (true, true) :=
    (Keeps.bind keepsRails_pkgFail fun _ => keepsRails_lowFault).run v
  have only : Only [.regs, .tab, .parts, .land, .sent, .free] (do pkgFail; lowFault) :=
    .bind (pkgFail_only.sub rfl) fun _ => lowFault_only.sub rfl
  have mem : (Act.run (do pkgFail; lowFault) v).mem = v.mem := (only.run v).2 .mem (by decide)
  dsimp only
  rw [e]
  refine ⟨congrArg Prod.snd rails, congrArg Prod.fst rails, fun k h1 h2 => ?_⟩
  rw [byteAt_congr mem]
  exact storeGet_storeClear_mem _ _ h1 h2

/-- CAP_GUARD, STAGE_FAIL, VIN_LOW, VIN_RECOVER and VIN_LOSS (R406, R407, R412). -/
theorem inputsAndRails : InputsAndRails := by
  refine ⟨fun s h hc ha => ⟨fun ⟨q, hq, hlow⟩ => ?_, fun hlow h0 => ?_⟩, fun s rail h => ?_, fun s h hv hl => ?_, fun s h => ?_,
    fun s h => ⟨_, rfl, run_vinLoss h⟩⟩
  · have high : s.lowest = false := by
      rw [Bool.eq_false_iff, ne_eq, lowest_iff]
      intro all
      obtain ⟨h0, h1⟩ := all q hq
      rcases hlow with c | c
      · exact c h0
      · rw [h1] at c
        cases c
    obtain ⟨t, e, held, same⟩ := capGuard_holds hc ha high
    refine ⟨t, (next_run_mains h _).trans (congrArg _ e), fun j hj => ?_, same⟩
    exact Bool.and_eq_true_iff.1 (held j hj)
  · exact ⟨_, next_run_mains h _, capGuard_unmet hc ha ((lowest_iff s).2 hlow) h0⟩
  · obtain ⟨u, counted, irq, regs, same, e⟩ := run_stageFail rail s
    exact ⟨u, counted, irq, regs, same, (next_run_mains h _).trans (congrArg Host.Outcome.next e)⟩
  · obtain ⟨u, pwr, low, same, e⟩ := run_vinLow hv hl
    exact ⟨u, pwr, low, same, (next_run_mains h _).trans (congrArg Host.Outcome.next e)⟩
  · exact next_run_mains h _

/-- Settles O58 (it holds): each act of the power controller leaves what its rule says of the steps, the dividers and the rails. -/
theorem powerActs : Obligations.PowerActs := ⟨walksAndCurbs, inputsAndRails⟩

end Sys2Proof.Machine
end

section
/-! # Mailbox calls, core accesses and partition stops (R378, R379, R384) -/

namespace Sys2Proof.Machine

/-! ## The mailbox (R379) -/

/-- What an association list answers once one key's entry is replaced. -/
theorem found_replaced {α : Type} (l : List (Nat × α)) (k : Nat) (v d : α) (j : Nat) :
    (((l.filter (fun e => e.1 ≠ k) ++ [(k, v)]).find? (fun e => e.1 = j)).map (·.2)).getD d =
      if j = k then v else ((l.find? (fun e => e.1 = j)).map (·.2)).getD d := by
  rw [List.find?_append, List.find?_filter]
  split
  · next h =>
    subst h
    have none : l.find? (fun a => decide (decide (a.1 ≠ j) = true ∧ decide (a.1 = j) = true)) = none :=
      List.find?_eq_none.2 fun e _ => by simp
    rw [none]
    simp
  · next h =>
    have same : (fun a : Nat × α => decide (decide (a.1 ≠ k) = true ∧ decide (a.1 = j) = true)) = fun a => decide (a.1 = j) := by
      funext a
      simp only [decide_eq_true_eq]
      exact decide_eq_decide.2 ⟨And.right, fun e => ⟨e ▸ h, e⟩⟩
    rw [same]
    simp [Ne.symm h]

/-- A measurement register that is extended, and the others (R393). -/
theorem meas_extendMeas (s : State) (i : Nat) (d : List Byte) (j : Nat) :
    (Act.run (extendMeas i d) s).meas j = if j = i then Config.sha384 (bytes48 (s.meas i) ++ d) else s.meas j :=
  found_replaced _ _ _ _ _

/-- A served call has its status written and its mailbox free. -/
def callDone (mbox p : Nat) (st : Nat) : Act Unit := do
  stBytes (mbox + 1) (leBytes 1 st)
  modSec (fun x => { x with calls := x.calls.filter (fun q => q ≠ p) })
  count C.HAY_CNT_CALLS 1

theorem run_callDone (mbox p st : Nat) (s : State) :
    let t := Act.run (callDone mbox p st) s
    Wrote s t (mbox + 1) (leBytes 1 st) ∧ t.sec = { s.sec with calls := s.sec.calls.filter (fun q => q ≠ p) } ∧
      (∀ a, a % 0x1000 < 0x800 → t.reg a = s.reg a) ∧ SameBut [.regs, .mem, .sec] s t := by
  obtain ⟨u, r, same, wrote⟩ := runs_stBytes (mbox + 1) (leBytes 1 st) s
  let v := (Upd.sec { u.sec with calls := u.sec.calls.filter (fun q => q ≠ p) }).apply u
  have e : Act.run (callDone mbox p st) s = Act.run (count C.HAY_CNT_CALLS 1) v := run_bind_of_runs s r _
  have q := (count_only C.HAY_CNT_CALLS 1).run v
  have sec : u.sec = s.sec := same.2 .sec (by decide)
  dsimp only
  rw [e]
  refine ⟨Wrote.congr wrote rfl (q.2 .mem (by decide)), ?_, fun a ha => ?_, ?_⟩
  · rw [q.2 .sec (by decide)]
    show ({ u.sec with calls := u.sec.calls.filter (fun q => q ≠ p) } : SecX) = _
    rw [sec]
  · refine ((count_counters (a := C.HAY_CNT_CALLS) (by unfold IsCounter; decide)).reg v (Nat.not_le.2 ha)).trans ?_
    exact reg_congr (same.2 .regs (by decide)) a
  · exact (same.mono (by decide)).trans ((SameBut.upd _ u rfl).trans (q.mono (by decide)))

/-- What a call of a code does, with the arguments in the mailbox's bytes. -/
def hayCall (p : Nat) (b : List Byte) : Nat → Act Nat
  | 1 => callAct (numAt b 2 1) (numAt b 8 8)
  | 2 => callExtend p (numAt b 8 8) (numAt b 16 8)
  | 3 => callReport p (numAt b 8 8) (numAt b 16 8)
  | _ => pure 2

section
variable {s : State} {p : Nat} {b : List Byte} (hp : s.sec.calls.contains p = true) (hb : b = s.memBytes (s.mboxKey p) 64)
include hp hb

/-- A pending call of the code that is served. -/
theorem run_hayServe {code st : Nat} {u : State} (hc : numAt b 0 1 = code) (h : Runs (hayCall p b code) s st u) :
    Act.run (hayServe p code) s = Act.run (callDone (s.mboxKey p) p st) u := by
  unfold hayServe
  rw [run_get_bind, run_ite, if_neg (by rw [hp]; decide), ← hb]
  show Act.run (if numAt b 0 1 ≠ code ∧ 1 ≤ numAt b 0 1 ∧ numAt b 0 1 ≤ 3 then _ else _) s = _
  rw [if_neg (fun c => c.1 hc), hc]
  exact run_bind_of_runs s h (callDone (s.mboxKey p) p)

theorem hayCallAct_acts (hc : numAt b 0 1 = 1) (hcore : numAt b 2 1 < 24) (harg : numAt b 8 8 < 32)
    (hbit : bit (s.fldOf (R.HAY_CORE (numAt b 2 1)) F.HAY_CORE.allowed) (numAt b 8 8) = true) :
    let t := Act.run (hayServe p 1) s
    t.fldOf (R.HAY_CORE (numAt b 2 1)) F.HAY_CORE.act = numAt b 8 8 ∧ t.fldOf (R.HAY_CORE (numAt b 2 1)) F.HAY_CORE.act_valid = 1 ∧
      Wrote s t (s.mboxKey p + 1) [0] ∧ t.sec = { s.sec with calls := s.sec.calls.filter (fun q => q ≠ p) } ∧
      SameBut [.regs, .mem, .sec] s t := by
  let u := Act.run (wrF (R.HAY_CORE (numAt b 2 1)) F.HAY_CORE.act (numAt b 8 8)) s
  let v := Act.run (wrF (R.HAY_CORE (numAt b 2 1)) F.HAY_CORE.act_valid 1) u
  have act : Runs (callAct (numAt b 2 1) (numAt b 8 8)) s 0 v := by
    refine (Runs.get s).bind ?_
    rw [if_pos ⟨hcore, harg, hbit⟩]
    exact ((wrF_only _ _ _).runs s).bind (((wrF_only _ _ _).runs u).bind (Runs.pure _ _))
  obtain ⟨wrote, sec, regs, same⟩ := run_callDone (s.mboxKey p) p 0 v
  have low : R.HAY_CORE (numAt b 2 1) % 0x1000 < 0x800 := by
    simp only [R.HAY_CORE, regA, pageBase, Block.base]
    omega
  have fld (f : Fld) : (Act.run (callDone (s.mboxKey p) p 0) v).fldOf (R.HAY_CORE (numAt b 2 1)) f =
      v.fldOf (R.HAY_CORE (numAt b 2 1)) f := congrArg (getFld · f) (regs _ low)
  have q : SameBut [.regs] s v := ((wrF_only _ _ _).run s).trans ((wrF_only _ _ _).run u)
  dsimp only
  rw [run_hayServe hp hb hc act]
  refine ⟨(fld _).trans ((fldOf_put_ne _ _ _ _ _ (by decide) (by decide)).trans ((fldOf_put_self _ _ _ _ (by decide)).trans
    (Nat.mod_eq_of_lt harg))), (fld _).trans (fldOf_put_self _ _ _ _ (by decide)), wrote.congr (q.2 .mem (by decide)).symm rfl, ?_,
    (q.mono (by decide)).trans same⟩
  rw [sec, q.2 .sec (by decide)]

theorem hayCallExtend_extends {u : State} {d : List Byte} (hc : numAt b 0 1 = 2) (h8 : 8 ≤ numAt b 8 8) (h15 : numAt b 8 8 ≤ 15)
    (hr : Runs (spRead 0 p (refSpace (numAt b 16 8)) (refAddr (numAt b 16 8)) 48) s (.ok d) u) :
    let t := Act.run (hayServe p 2) s
    t.meas (numAt b 8 8) = Config.sha384 (bytes48 (s.meas (numAt b 8 8)) ++ d) ∧
      (∀ i, i ≠ numAt b 8 8 → t.meas i = s.meas i) ∧ Wrote u t (s.mboxKey p + 1) [0] ∧
      t.sec.calls = s.sec.calls.filter (fun q => q ≠ p) ∧ SameBut [.regs, .mem, .sec] s t := by
  let v := Act.run (extendMeas (numAt b 8 8) d) u
  have ext : Runs (callExtend p (numAt b 8 8) (numAt b 16 8)) s 0 v := by
    unfold callExtend
    rw [if_neg (by omega)]
    exact hr.bind (((extendMeas_only _ _).runs u).bind (Runs.pure _ _))
  obtain ⟨wrote, sec, -, same⟩ := run_callDone (s.mboxKey p) p 0 v
  have read : SameBut [.regs, .mem] s u := (spRead_only _ _ _ _ _).runs_sameBut hr
  have q : SameBut [.sec] u v := (extendMeas_only _ _).run u
  have us : u.sec = s.sec := read.2 .sec (by decide)
  have um (i : Nat) : u.meas i = s.meas i := by unfold State.meas; rw [us]
  have each (i : Nat) : (Act.run (callDone (s.mboxKey p) p 0) v).meas i =
      if i = numAt b 8 8 then Config.sha384 (bytes48 (s.meas (numAt b 8 8)) ++ d) else s.meas i := by
    rw [← um i, ← um (numAt b 8 8), ← meas_extendMeas]
    conv_lhs => unfold State.meas
    rw [sec]
    rfl
  have calls : v.sec.calls = u.sec.calls := rfl
  dsimp only
  rw [run_hayServe hp hb hc ext]
  refine ⟨(each _).trans (if_pos rfl), fun i hi => (each i).trans (if_neg hi), wrote.congr (q.2 .mem (by decide)).symm rfl, ?_,
    (read.mono (by decide)).trans ((q.mono (by decide)).trans same)⟩
  rw [sec, ← us, ← calls]

theorem hayCallReport_reports {u v : State} {nonce : List Byte} (hc : numAt b 0 1 = 3)
    (hr : Runs (spRead 0 p (refSpace (numAt b 8 8)) (refAddr (numAt b 8 8)) 32) s (.ok nonce) u)
    (hw : Runs (spWrite 0 p (refSpace (numAt b 16 8)) (refAddr (numAt b 16 8)) (u.report 1 nonce (some p) [])) u none v) :
    let t := Act.run (hayServe p 3) s
    Wrote v t (s.mboxKey p + 1) [0] ∧ t.sec = { s.sec with calls := s.sec.calls.filter (fun q => q ≠ p) } ∧
      SameBut [.regs, .mem, .sec] v t := by
  have rep : Runs (callReport p (numAt b 8 8) (numAt b 16 8)) s 0 v :=
    hr.bind ((Runs.rd _ u).bind (hw.bind (Runs.pure _ _)))
  obtain ⟨wrote, sec, -, same⟩ := run_callDone (s.mboxKey p) p 0 v
  have us : v.sec = s.sec := (((spWrite_only _ _ _ _ _).runs_sameBut hw).2 .sec (by decide)).trans
    (((spRead_only _ _ _ _ _).runs_sameBut hr).2 .sec (by decide))
  dsimp only
  rw [run_hayServe hp hb hc rep]
  exact ⟨wrote, us ▸ sec, same⟩

end

/-! ## Core accesses (R378) -/

theorem corePlace_range {a : Nat} {x : Nat × Nat} (h : corePlace a = some x) :
    0x100000000000 ≤ a ∧ a < 0x120090000000 := by
  unfold corePlace at h
  split at h
  · omega
  · split at h
    · omega
    · split at h
      · omega
      · cases h

/-- A run-time core's access to memory is served for its acting partition. -/
theorem run_coreAccess {s : State} {core a size value p sp ad : Nat} {write : Bool} (hu : s.coreUp core = true) (hpg : pageOf a = none)
    (hpl : corePlace a = some (sp, ad)) (hp : (s.coreIssuer core).part = some p) :
    Act.run (coreAccess core a size write value) s = Act.run (coreServe core (s.coreIssuer core) p sp ad a size write value) s := by
  obtain ⟨low, high⟩ := corePlace_range hpl
  unfold coreAccess
  rw [run_coreActs s _ _ hu, run_get_bind, run_ite, if_neg (by rw [hpg]; simp; omega), run_ite, if_neg (by omega), hpl, hp]

section
variable {s : State} {core p sp ad a size value : Nat} {write : Bool} {i : Issuer}

theorem run_coreServe_refused {e : Nat} (h : s.refReason p sp ad size write = some e) :
    Act.run (coreServe core i p sp ad a size write value) s = Act.run (coreFault core i a write e) s := by
  unfold coreServe
  rw [run_get_bind, h]

theorem run_coreServe_read {u : State} {bs : List Byte} (h : s.refReason p sp ad size false = none)
    (ht : s.touchesProtected p sp ad size = false) (hr : Runs (spRead core p sp ad size) s (.ok bs) u) :
    Act.run (coreServe core i p sp ad a size false value) s = (Upd.send (.data core bs)).apply u := by
  unfold coreServe
  rw [run_get_bind, h]
  show Act.run (if (true && s.touchesProtected p sp ad size) = true then _ else _) s = _
  rw [ht]
  exact run_bind_of_runs s hr _

theorem run_coreServe_write {u : State} (h : s.refReason p sp ad size true = none)
    (hr : Runs (spWrite core p sp ad (leBytes size value)) s none u) :
    Act.run (coreServe core i p sp ad a size true value) s = u := by
  unfold coreServe
  rw [run_get_bind, h]
  exact run_bind_of_runs s hr _

end

/-! ## A partition's stop (R384) -/

theorem testBit_eq_getFld (w : Word) (i : Nat) : w.toNat.testBit i = (getFld w ⟨i, i⟩).testBit 0 := by
  unfold getFld
  rw [testBit_bits, decide_eq_true (Nat.sub_pos_of_lt (Nat.lt_succ_self i)), Bool.true_and, Nat.add_zero]

/-- The bits outside a field stay where the field is replaced. -/
theorem testBit_putFld_outside (w : Word) {f : Fld} (n : Nat) (hf : f.lo ≤ f.hi ∧ f.hi < 64) {i : Nat} (h : i < f.lo ∨ f.hi < i) :
    (putFld w f n).toNat.testBit i = w.toNat.testBit i := by
  rw [testBit_eq_getFld, testBit_eq_getFld, getFld_putFld_ne _ _ _ _ hf.1 hf.2 (h.symm.imp id id)]

/-- A write back of a word with one field replaced, whose bits a write replaces even while ticks run, stores just that. -/
theorem written_putFld {r : RegRow} (old : Word) {f : Fld} (n : Nat) (hf : f.lo ≤ f.hi ∧ f.hi < 64)
    (hw : r.mask (fun a => a = .rw || a = .hw || a = .wo || (false && a.isStaged)) < 2 ^ 64)
    (hb : ∀ i, f.lo ≤ i → i ≤ f.hi → (r.mask (fun a => a = .rw || a = .hw || a = .wo || (false && a.isStaged))).testBit i = true)
    (hc : r.mask (fun a => a = .w1c) = 0) : r.written old (putFld old f n) false = putFld old f n := by
  apply BitVec.eq_of_toNat_eq
  apply Nat.eq_of_testBit_eq
  intro i
  by_cases hi : i < 64
  · unfold RegRow.written
    simp only [hc, Nat.and_zero, Nat.sub_zero, Nat.and_two_pow_sub_one_eq_mod, BitVec.toNat_ofNat, Nat.mod_mod,
      Nat.testBit_mod_two_pow, decide_eq_true hi, Bool.true_and, testBit_mergeBits _ _ hw hi]
    split
    · rfl
    · next h =>
      refine (testBit_putFld_outside old n hf ?_).symm
      by_contra c
      exact h (hb i (by omega) (by omega))
  · have big (w : Word) : w.toNat.testBit i = false :=
      Nat.testBit_eq_false_of_lt (lt_of_lt_of_le w.isLt (Nat.pow_le_pow_right (by decide) (Nat.not_lt.1 hi)))
    rw [big, big]

/-- The row of PRT_CTRL: valid is tick-staged, spread and stop are not. -/
def prtCtrlRow : RegRow := row "PRT_CTRL" 0x100 0 1 [fld "valid" 63 63 .hwt 0, fld "spread" 62 62 .hw 0, fld "stop" 61 61 .hw 0,
  fld "state" 2 0 .ro 0]

theorem rowOf_prtCtrl (p : PartId) : rowOf (R.PRT_CTRL p) = some prtCtrlRow := by
  revert p
  decide +kernel

/-- Bit 63, the only tick-staged one, is left by a write back with stop replaced. -/
theorem prtCtrl_staged_same (old : Word) : (putFld old F.PRT_CTRL.stop 1).toNat &&& prtCtrlRow.mask Acc.isStaged =
    old.toNat &&& prtCtrlRow.mask Acc.isStaged := by
  apply Nat.eq_of_testBit_eq
  intro i
  rw [Nat.testBit_and, Nat.testBit_and]
  by_cases hi : i = 61
  · subst hi
    rw [show (prtCtrlRow.mask Acc.isStaged).testBit 61 = false from by decide, Bool.and_false, Bool.and_false]
  · rw [testBit_putFld_outside old 1 (f := F.PRT_CTRL.stop) (by decide) (by simp only [F.PRT_CTRL.stop]; omega)]

/-- PRT_CTRL.stop takes its value at once while ticks run (R375). -/
theorem runs_storeReg_stop {s : State} {p : PartId} (hr : s.run = true) :
    Runs (storeReg (R.PRT_CTRL p) (putFld (s.reg (R.PRT_CTRL p)) F.PRT_CTRL.stop 1)) s ()
      ((Upd.reg (R.PRT_CTRL p) (putFld (s.reg (R.PRT_CTRL p)) F.PRT_CTRL.stop 1)).apply s) := by
  have stored : prtCtrlRow.written (s.reg (R.PRT_CTRL p)) (putFld (s.reg (R.PRT_CTRL p)) F.PRT_CTRL.stop 1) false =
      putFld (s.reg (R.PRT_CTRL p)) F.PRT_CTRL.stop 1 :=
    written_putFld _ 1 (by decide) (by decide) (fun i h1 h2 => by
      obtain rfl : i = 61 := Nat.le_antisymm h2 h1
      decide) (by decide)
  have ne : R.TIM_TICK_CTRL ≠ R.PRT_CTRL p := by
    simp only [R.TIM_TICK_CTRL, R.PRT_CTRL, regA, pageBase, Block.base]
    omega
  have run : ((Upd.reg (R.PRT_CTRL p) (putFld (s.reg (R.PRT_CTRL p)) F.PRT_CTRL.stop 1)).apply s).run = true := by
    unfold State.run at hr ⊢
    rw [fldOf_upd_ne _ _ _ _ _ ne, hr]
  have plain : Runs (plainWrite (R.PRT_CTRL p) (putFld (s.reg (R.PRT_CTRL p)) F.PRT_CTRL.stop 1)) s ()
      ((Upd.reg (R.PRT_CTRL p) (putFld (s.reg (R.PRT_CTRL p)) F.PRT_CTRL.stop 1)).apply s) := by
    unfold plainWrite
    simp only [rowOf_prtCtrl]
    refine (Runs.rd _ s).bind ((Runs.rd _ s).bind ?_)
    rw [hr, if_pos (by decide), stored]
    refine (Runs.upd _ s).bind ?_
    rw [if_neg (by
      rw [prtCtrl_staged_same, decide_eq_false (not_not.2 rfl)]
      decide)]
    exact Runs.pure _ _
  unfold storeReg
  refine (Runs.rd _ s).bind (plain.bind ((Runs.rd _ _).bind ?_))
  rw [run]
  exact Runs.pure _ _

/-- The partition's stop stands, and its state is STOPPING. -/
def State.stopSet (s : State) (p : PartId) : State :=
  Act.run (wrF (R.PRT_CTRL p) F.PRT_CTRL.state 2) ((Upd.reg (R.PRT_CTRL p) (putFld (s.reg (R.PRT_CTRL p)) F.PRT_CTRL.stop 1)).apply s)

/-- The partition as its stop leaves it before the stop commit. -/
def State.stopping (s : State) (p : PartId) : State := Act.run (modPart p (fun x => { x with stopping := true })) (s.stopSet p)

theorem stopping_regs (s : State) (p : PartId) : (s.stopping p).regs = (s.stopSet p).regs := ((modPart_only _ _).run _).2 .regs (by decide)

theorem stopSet_fields (s : State) (p : PartId) :
    (s.stopSet p).fldOf (R.PRT_CTRL p) F.PRT_CTRL.stop = 1 ∧ (s.stopSet p).fldOf (R.PRT_CTRL p) F.PRT_CTRL.state = 2 :=
  ⟨(fldOf_put_ne _ _ _ _ _ (by decide) (by decide)).trans (fldOf_put_self _ _ _ _ (by decide)), fldOf_put_self _ _ _ _ (by decide)⟩

theorem stopSet_sameBut (s : State) (p : PartId) : SameBut [.regs] s (s.stopSet p) := (SameBut.upd _ s rfl).trans ((wrF_only _ _ _).run _)

theorem stopping_fields (s : State) (p : PartId) :
    (s.stopping p).fldOf (R.PRT_CTRL p) F.PRT_CTRL.stop = 1 ∧ (s.stopping p).fldOf (R.PRT_CTRL p) F.PRT_CTRL.state = 2 ∧
      (s.stopping p).part p = { s.part p with stopping := true } ∧ SameBut [.regs, .parts] s (s.stopping p) := by
  obtain ⟨stop, state⟩ := stopSet_fields s p
  have regs := stopping_regs s p
  have part : (s.stopping p).part p = { (s.stopSet p).part p with stopping := true } := part_upd_self _ _ _
  have parts : (s.stopSet p).part p = s.part p := congrArg (storeGet _ · p.val) ((stopSet_sameBut s p).2 .parts (by decide))
  refine ⟨(fldOf_congr regs _ _).trans stop, (fldOf_congr regs _ _).trans state, by rw [part, parts], ?_⟩
  exact ((stopSet_sameBut s p).mono (by decide)).trans (((modPart_only _ _).run _).mono (by decide))

/-- What follows where no commit is in hand. -/
def stopCommit (s : State) (p : PartId) : Act Unit := if s.phase p = 4 then skip else do
  setPhase p 4
  stopGo p

theorem stopCommit_only (s : State) (p : PartId) : Only [.regs, .mem, .tab, .ports, .parts, .sites, .tiles, .mig, .sent] (stopCommit s p) :=
  .ite (.pure _ _) (.bind ((setPhase_only _ _).sub rfl) fun _ => stopGo_only p)

theorem stepStatus_ne_prtCtrl (p : PartId) : R.REQ_STEP_STATUS p ≠ R.PRT_CTRL p := by
  simp only [R.REQ_STEP_STATUS, R.PRT_CTRL, regA, pageBase, Block.base]
  omega

/-- A stop of a RUNNING partition (R384). -/
theorem run_partitionStop_running {p : PartId} {u : State} (hu : u.fldOf (R.PRT_CTRL p) F.PRT_CTRL.state = 1) :
    Act.run (partitionStop p) u = Act.run (stopCommit u p)
      (Act.run (modPart p (fun x => { x with stopping := true })) (Act.run (wrF (R.PRT_CTRL p) F.PRT_CTRL.state 2) u)) := by
  have e : Act.run (partitionStop p) u = Act.run (if u.phase p ≠ 4 then do setPhase p 4; stopGo p else pure ())
      (Act.run (modPart p (fun x => { x with stopping := true })) (Act.run (wrF (R.PRT_CTRL p) F.PRT_CTRL.state 2) u)) := by
    unfold partitionStop
    rw [run_get_bind, run_ite, if_neg (not_not.2 hu), (wrF_only _ _ _).run_bind, (modPart_only _ _).run_bind]
  rw [e, stopCommit]
  by_cases h : u.phase p = 4
  · rw [if_neg (not_not.2 h), if_pos h]
    rfl
  · rw [if_pos h, if_neg h]

theorem run_partitionStop {s : State} {p : PartId} (hs : s.fldOf (R.PRT_CTRL p) F.PRT_CTRL.state = 1) :
    Act.run (partitionStop p) ((Upd.reg (R.PRT_CTRL p) (putFld (s.reg (R.PRT_CTRL p)) F.PRT_CTRL.stop 1)).apply s) =
      Act.run (stopCommit s p) (s.stopping p) := by
  have phase := fldOf_upd_ne s (R.PRT_CTRL p) (putFld (s.reg (R.PRT_CTRL p)) F.PRT_CTRL.stop 1) (R.REQ_STEP_STATUS p)
    F.REQ_STEP_STATUS.phase (stepStatus_ne_prtCtrl p)
  rw [run_partitionStop_running ((fldOf_put_ne _ _ _ _ _ (by decide) (by decide)).trans hs)]
  unfold stopCommit State.phase
  rw [phase]
  rfl

theorem runs_prtWrite_stop {p : Nat} {v : Word} {s t u : State} (h0 : s.fldOf (R.PRT_CTRL p) F.PRT_CTRL.stop = 0)
    (h1 : getFld v F.PRT_CTRL.stop = 1) (hr : Runs (storeReg (R.PRT_CTRL p) v) s () t) (hp : Runs (partitionStop p) t () u) :
    Runs (prtWrite p 0x100 v) s none u := by
  refine (Runs.get s).bind ?_
  dsimp only
  split
  case h_1 =>
    split
    · next c => exact absurd (h0.symm.trans c.1) (by decide)
    · refine hr.bind ?_
      split
      · exact hp.bind (Runs.pure _ _)
      · next c => exact (c ⟨h0, h1⟩).elim
  all_goals contradiction

theorem runs_blockWrite_stop {s : State} {p : PartId} {y : BusX} (h0 : s.fldOf (R.PRT_CTRL p) F.PRT_CTRL.stop = 0)
    (h1 : s.fldOf (R.PRT_CTRL p) F.PRT_CTRL.state = 1) (hr : s.run = true) :
    Runs (blockWrite y .prt p 0x100 (putFld (s.reg (R.PRT_CTRL p)) F.PRT_CTRL.stop 1)) s none (Act.run (stopCommit s p) (s.stopping p)) := by
  rw [← run_partitionStop h1]
  exact runs_prtWrite_stop h0 (getFld_putFld_self _ _ _ (by decide) (by decide)) (runs_storeReg_stop hr) ((partitionStop_only _).runs _)

theorem answered_partitionStop {s : State} {core : CoreId} {p : PartId}
    (ha : Admits s core (R.PRT_CTRL p) (putFld (s.reg (R.PRT_CTRL p)) F.PRT_CTRL.stop 1))
    (h0 : s.fldOf (R.PRT_CTRL p) F.PRT_CTRL.stop = 0) (h1 : s.fldOf (R.PRT_CTRL p) F.PRT_CTRL.state = 1) (hr : s.run = true) :
    ∃ t, exec (.partitionStop core p) s = .next t ∧ Answered (Act.run (stopCommit s p) (s.stopping p)) t :=
  ⟨_, rfl, answered_busWriteX_block (b := .prt) p.isLt (by decide) (by decide) ha fun _ => runs_blockWrite_stop h0 h1 hr⟩

/-- Settles O35 (it holds): a pending call is served, an access goes by the acting partition's checks, a stop begins its commit. -/
theorem callsAndAccesses : Obligations.CallsAndAccesses := by
  refine ⟨fun s p b h hp hb => ⟨fun hc hcore harg hbit => ?_, fun u d hc h8 h15 hr => ?_, fun u v nonce hc hr hw => ?_⟩,
    fun s core addr size write v p sp ad hu hw hpg hpl hp => ⟨fun e he => ?_, fun hn ht => ⟨fun bs u hwr hr => ?_, fun u hwr hr => ?_⟩⟩,
    fun s core p ha h0 h1 hr => ?_⟩
  · exact ⟨_, next_run_mains_served h _, hayCallAct_acts hp hb hc hcore harg hbit⟩
  · exact ⟨_, next_run_mains_served h _, hayCallExtend_extends hp hb hc h8 h15 hr⟩
  · exact ⟨_, next_run_mains_served h _, hayCallReport_reports hp hb hc hr hw⟩
  · have e' := (run_served _ hw).trans (run_coreAccess (size := size) (value := v.toNat) (write := write) hu hpg hpl hp)
    exact congrArg Host.Outcome.next (e'.trans (run_coreServe_refused he))
  · subst hwr
    have e' := (run_served _ hw).trans (run_coreAccess (size := size) (value := v.toNat) (write := false) hu hpg hpl hp)
    exact congrArg Host.Outcome.next (e'.trans (run_coreServe_read hn (ht rfl) hr))
  · subst hwr
    have e' := (run_served _ hw).trans (run_coreAccess (size := size) (value := v.toNat) (write := true) hu hpg hpl hp)
    exact congrArg Host.Outcome.next (e'.trans (run_coreServe_write hn hr))
  · obtain ⟨t, e, done⟩ := answered_partitionStop ha h0 h1 hr
    obtain ⟨stop, state, part, same⟩ := stopping_fields s p
    exact ⟨s.stopping p, t, e, stop, state, part, same, done⟩

end Sys2Proof.Machine
end

section

/-! # Accesses in board address space (O34) -/

namespace Sys2Proof.Machine
open Host

/-! ## A core's access (R339, R340) -/

section
variable {s u : State} {core : CoreId} {a size value : Nat} {write : Bool} {p : Nat} (hp : (s.coreIssuer core).part = some p)
  (hm : s.boardMode p = true) (hw : boardWidthOk a size = true)
include hp hm hw

/-- An access to the core's own window that nothing refuses is made, and a load answered. -/
theorem run_boardAccess_own {bs : List Byte} (hpos : boardWindow a = s.boardPos) (hr : s.boardRefusal (some p) a size write = none)
    (hdo : Runs (boardDo core p a size write (leBytes size value)) s (.ok bs) u) :
    Act.run (boardAccess core a size false write value) s = if write then u else (Upd.send (.data core bs)).apply u := by
  unfold boardAccess
  rw [run_get_bind]
  simp only [hp, hm, hw, hpos, hr, Bool.not_true, Bool.or_false, Bool.false_eq_true, if_false, decide_true, if_true]
  rw [run_bind_of_runs s hdo]
  cases write <;> rfl

/-- An access to another package that has its place waits for its answer and goes out. -/
theorem run_boardAccess_other {pos dst : Nat} (hpos : pos = boardWindow a) (hne : pos ≠ s.boardPos)
    (hv : s.fldOf (R.BMS_POS pos) F.BMS_POS.valid = 1) (hd : dst = s.fldOf (R.BMS_POS pos) F.BMS_POS.fabric)
    (hplace : boardPlace a ≠ none) :
    Act.run (boardAccess core a size false write value) s =
      Act.run (sendBoard p 2 pos dst (if write then 0x29 else 0x28) a size (if write then leBytes size value else []))
        ((Upd.fab { s.fab with
          board := s.fab.board ++ [{ core := core, part := p, dst := dst, page := portPage (boardLink s.boardPos pos)
                                     addr := a, write := write }] }).apply s) := by
  have there : ¬ (getFld (s.reg (R.BMS_POS pos)) F.BMS_POS.valid = 0 ∨ boardPlace a = none) := by
    rintro (e | e)
    · exact absurd (hv.symm.trans e) (by decide)
    · exact hplace e
  subst hpos hd
  unfold boardAccess
  rw [run_get_bind]
  simp only [hp, hm, hw, hne, there, Bool.not_true, Bool.or_false, Bool.false_eq_true, if_false, decide_false]
  rfl

end

/-! ## A received access (R331, R340) -/

/-- A packet for this package is not in transit. -/
theorem checkPacket_own {s : State} {r : RxPacket} (h : pkDst r.bytes = s.ownFabric) : s.checkPacket r ≠ .transit := by
  unfold State.checkPacket
  rw [if_neg fun c => c.2.2.2 h]
  grind

/-- A packet of the type arrives and passes the checks of the link and of the package. -/
structure BoardArrives (s : State) (r : RxPacket) (type : Nat) : Prop where
  link : s.portState r.port = 2 ∨ s.portState r.port = 3
  good : pkGood r.bytes = true
  own : pkDst r.bytes = s.ownFabric
  kind : pkType r.bytes = type
  defined : pkDefined type = true

theorem BoardArrives.up {s : State} {r : RxPacket} {type : Nat} (h : BoardArrives s r type) :
    (s.portState r.port ≠ 2 && s.portState r.port ≠ 3) = false := by
  rcases h.link with e | e <;> simp [e]

section
variable {s : State} {r : RxPacket} {type size : Nat} {write : Bool} {part : Option Nat} (h : BoardArrives s r type)
  (hp : part = s.partOfKey (pkKey r.bytes)) (hs : size = pkArg1 r.bytes % 16)
include h hp hs

/-- A refused access is answered with the reason, and logged if plaintext weights were to blame. -/
theorem run_boardServe_refused {e : Nat} (he : s.boardRefusal part (pkArg0 r.bytes) size write = some e) :
    Act.run (boardServe type write r) s = Act.run (do
      if s.boardShut part (pkArg0 r.bytes) size write then
        vlog 1 (pkArg0 r.bytes) (errInfo { source := portSrc r.port, hay := false, part := part } (if write then 2 else 1) e)
      boardReply r part e []) (received s r) := by
  subst hp hs
  unfold boardServe
  rw [run_get_bind]
  simp only [h.up, checkPacket_own h.own, h.good, h.own, h.kind, h.defined, he, Bool.false_eq_true, if_false, Bool.not_true, ne_eq,
    not_true_eq_false, or_self, if_true]
  exact (takePacket_only r).run_bind _ s

/-- One that nothing refuses is made and answered with its data. -/
theorem run_boardServe_made {u v : State} {bs : List Byte} (hu : u = received s r)
    (he : s.boardRefusal part (pkArg0 r.bytes) size write = none)
    (hdo : Runs (boardDo (portSrc r.port) (part.getD 0) (pkArg0 r.bytes) size write (bytesAt (pkBody r.bytes) 0 size)) u (.ok bs) v) :
    Act.run (boardServe type write r) s = Act.run (boardReply r part 0 bs) v := by
  subst hp hs hu
  unfold boardServe
  rw [run_get_bind]
  simp only [h.up, checkPacket_own h.own, h.good, h.own, h.kind, h.defined, he, Bool.false_eq_true, if_false, Bool.not_true, ne_eq,
    not_true_eq_false, or_self, if_true]
  rw [(takePacket_only r).run_bind]
  exact run_bind_of_runs _ hdo _

end

/-! ## An answer (R340) -/

/-- An answer completes the oldest access to its sender: a load's core gets its data. -/
theorem run_boardAnswer {s u : State} {r : RxPacket} {q : Option Nat} {x : BoardReq} (h : Receives s r 0x2A q) (hu : u = received s r)
    (hx : u.fab.board.find? (fun x => x.dst = pkSrc r.bytes && some x.part = q) = some x) (hok : pkArg1 r.bytes % 256 = 0) :
    Act.run (boardAnswer r) s = Act.run (if !x.write then send (.data x.core (pkBody r.bytes)) else skip)
      ((Upd.fab { u.fab with board := u.fab.board.erase x }).apply u) := by
  unfold boardAnswer
  rw [run_onPacket h, ← hu, run_get_bind, hx]
  simp only [hok, ne_eq, not_true_eq_false, if_false]
  rfl

theorem boardAnswer_completes {s u : State} {r : RxPacket} {q : Option Nat} {x : BoardReq} (h : Receives s r 0x2A q)
    (hu : u = received s r) (hx : u.fab.board.find? (fun x => x.dst = pkSrc r.bytes && some x.part = q) = some x)
    (hok : pkArg1 r.bytes % 256 = 0) :
    ∃ t, exec (.brsp r) s = .next t ∧ t.fab = { u.fab with board := u.fab.board.erase x } ∧
      t.sent = (if x.write then u.sent else u.sent ++ [.data x.core (pkBody r.bytes)]) ∧ SameBut [.fab, .sent] u t := by
  refine ⟨_, (next_run_mains h.1 _).trans (congrArg Host.Outcome.next (run_boardAnswer h hu hx hok)), ?_⟩
  have erased : SameBut [.fab, .sent] u ((Upd.fab { u.fab with board := u.fab.board.erase x }).apply u) := SameBut.upd _ u rfl
  cases x.write
  · exact ⟨rfl, rfl, erased.trans (SameBut.upd _ _ rfl)⟩
  · exact ⟨rfl, rfl, erased⟩

/-- Settles O34 (it holds): an access that nothing refuses is made where its place is, and answered. -/
theorem boardAccesses : Obligations.BoardAccesses := by
  refine ⟨fun s core addr size write v c p hc h hp hm hw => ?_, fun s u r write type size c part hc h hl hg hd ht hu hp hs => ?_,
    fun s u r q x h hu hx hok => boardAnswer_completes h hu hx hok⟩
  · have e : exec c s = .next (Act.run (boardAccess core addr.toNat size false write (if write then v.toNat else 0)) s) := by
      simp only [List.mem_cons, Prod.mk.injEq, List.not_mem_nil, or_false] at hc
      obtain ⟨rfl, rfl⟩ | ⟨rfl, rfl⟩ := hc <;> exact next_run_mains_served h _
    refine ⟨fun u bs hpos hr hdo => e.trans (congrArg Host.Outcome.next (run_boardAccess_own hp hm hw hpos hr ?_)),
      fun pos dst hpos hne hv hd hplace => e.trans (congrArg Host.Outcome.next ?_)⟩
    · cases write <;> exact hdo
    · rw [run_boardAccess_other hp hm hw hpos hne hv hd hplace]
      cases write <;> rfl
  · have e : exec c s = .next (Act.run (boardServe type write r) s) := by
      simp only [List.mem_cons, Prod.mk.injEq, List.not_mem_nil, or_false] at hc
      obtain ⟨rfl, rfl, rfl⟩ | ⟨rfl, rfl, rfl⟩ := hc <;> exact next_run_mains_served h _
    have defined : pkDefined type = true := by
      simp only [List.mem_cons, Prod.mk.injEq, List.not_mem_nil, or_false] at hc
      obtain ⟨-, rfl, -⟩ | ⟨-, rfl, -⟩ := hc <;> decide
    have arrives : BoardArrives s r type := ⟨hl, hg, hd, ht, defined⟩
    subst hu
    exact ⟨fun x hx => e.trans (congrArg Host.Outcome.next (run_boardServe_refused arrives hp hs hx)),
      fun v bs hx hdo => e.trans (congrArg Host.Outcome.next (run_boardServe_made arrives hp hs rfl hx hdo))⟩

end Sys2Proof.Machine
end

section

/-! # Remote copies, mirrored journals, discarded packets (O55) -/

namespace Sys2Proof.Machine
open Host

/-! ## Receiving a copy (R334) -/

theorem fab_placeWrite {port p a : Nat} {bs : List Byte} {u v : State} {refused : Bool}
    (h : Runs (placeWrite port p a bs) u refused v) : v.fab = u.fab :=
  ((placeWrite_only _ _ _ _).runs_sameBut h).2 .fab (by decide)

theorem run_modFab_bind (f : FabX → FabX) (k : Unit → Act Unit) (s : State) :
    Act.run (modFab f >>= k) s = Act.run (k ()) ((Upd.fab (f s.fab)).apply s) := rfl

/-- The packet of a new tag is written and its tag tracked. -/
theorem run_putPacket_new {s u v : State} {r : RxPacket} {p : Nat} {refused : Bool} (h : Receives s r 0x20 (some p))
    (hu : u = received s r)
    (hnew : u.fab.takes.any (fun x => x.src = pkSrc r.bytes && x.part = p && x.tag = pkArg1 r.bytes / 65536) = false)
    (hroom : u.fab.takes.length < 1024) (hw : Runs (placeWrite r.port p (pkArg0 r.bytes) (pkBody r.bytes)) u refused v) :
    Act.run (putPacket r) s = (Upd.fab { u.fab with
      takes := u.fab.takes ++ [{ src := pkSrc r.bytes, part := p, tag := pkArg1 r.bytes / 65536, got := [pkArg1 r.bytes % 65536]
                                 refused := refused }] }).apply v := by
  unfold putPacket
  rw [run_onPacket h, ← hu]
  dsimp only
  rw [run_get_bind]
  simp only [hnew, hroom, decide_true, Bool.or_true, if_true, Bool.false_eq_true, if_false]
  rw [run_bind_of_runs u hw, ← fab_placeWrite hw]
  rfl

/-! ## The end of an entry (R334) -/

section
variable {s u gone : State} {r : RxPacket} {p tag n : Nat} {x : PutIn} (h : Receives s r 0x21 (some p)) (hu : u = received s r)
  (htag : tag = pkArg1 r.bytes / 65536)
  (hn : n = (if pkArg1 r.bytes % 65536 = 0 ∧ x.got ≠ [] then 65536 else pkArg1 r.bytes % 65536))
  (hx : u.fab.takes.find? (fun x => x.src = pkSrc r.bytes && x.part = p && x.tag = tag) = some x)
  (hgone : gone = (Upd.fab { u.fab with
    takes := u.fab.takes.filter (fun y => !(y.src = pkSrc r.bytes && y.part = p && y.tag = tag)) }).apply u)
include h hu htag hx

theorem run_putEnd_refused (hgone : gone = (Upd.fab { u.fab with
      takes := u.fab.takes.filter (fun y => !(y.src = pkSrc r.bytes && y.part = p && y.tag = tag)) }).apply u)
    (hr : x.refused = true) :
    Act.run (putEnd r) s = Act.run (replyTo r p 0x22 0 (tag * 65536 + 2) []) gone := by
  subst htag hgone
  unfold putEnd
  rw [run_onPacket h, ← hu]
  dsimp only
  rw [run_get_bind]
  simp only [hx, hr, if_true]
  rfl

include hn

theorem run_putEnd_missing (hr : x.refused = false) (hm : (x.got.filter (fun i => decide (i < n))).length < n) :
    Act.run (putEnd r) s = Act.run (replyTo r p 0x22 0 (tag * 65536 + 1) []) u := by
  subst htag hn
  unfold putEnd
  rw [run_onPacket h, ← hu]
  dsimp only
  rw [run_get_bind]
  simp only [hx, hr, Bool.false_eq_true, if_false]
  rw [if_neg (Nat.not_le.2 hm)]

include hgone

theorem run_putEnd_whole {bad : Bool} {v : State} (hr : x.refused = false) (hm : n ≤ (x.got.filter (fun i => decide (i < n))).length)
    (hw : Runs (if pkArg0 r.bytes = 0 then pure false else placeWrite r.port p (pkArg0 r.bytes) (bytesAt (pkBody r.bytes) 0 8))
      gone bad v) :
    Act.run (putEnd r) s = Act.run (replyTo r p 0x22 0 (tag * 65536 + (if bad then 2 else 0)) []) v := by
  unfold putEnd
  rw [run_onPacket h, ← hu]
  dsimp only
  rw [run_get_bind]
  simp only [← htag, hx, hr, ← hn, hm, Bool.false_eq_true, if_false, if_true]
  rw [run_modFab_bind]
  exact (congrArg _ hgone.symm).trans (run_bind_of_runs gone hw _)

theorem run_putEnd_unsigned (hr : x.refused = false) (hm : n ≤ (x.got.filter (fun i => decide (i < n))).length)
    (h0 : pkArg0 r.bytes = 0) : Act.run (putEnd r) s = Act.run (replyTo r p 0x22 0 (tag * 65536) []) gone := by
  rw [run_putEnd_whole (bad := false) h hu htag hn hx hgone hr hm (by rw [if_pos h0]; exact Runs.pure _ _), if_neg Bool.false_ne_true,
    Nat.add_zero]

end

/-! ## The answer at the sender (R334) -/

section
variable {s u : State} {r : RxPacket} {p : Nat} {x : PutOut} (h : Receives s r 0x22 (some p)) (hu : u = received s r)
  (hx : u.fab.puts.find? (fun x => x.tag = pkArg1 r.bytes / 65536 && x.part = p && x.dst = pkSrc r.bytes) = some x)
include h hu hx

theorem run_putDone_resend (hr : pkArg1 r.bytes % 4 = 1) : Act.run (putDone r) s = Act.run (putAgain x) u := by
  unfold putDone
  rw [run_onPacket h, ← hu]
  dsimp only
  rw [run_get_bind, hx]
  simp only [hr]

theorem run_putDone_finish (hr : pkArg1 r.bytes % 4 = 0 ∨ pkArg1 r.bytes % 4 = 2) :
    Act.run (putDone r) s = Act.run (putFinish x (pkArg1 r.bytes % 4)) u := by
  unfold putDone
  rw [run_onPacket h, ← hu]
  dsimp only
  rw [run_get_bind, hx]
  rcases hr with e | e <;> simp only [e]

end

theorem run_putFinish_unsigned {u : State} {x : PutOut} {err : Nat} (hs : x.sig = none) :
    Act.run (putFinish x err) u = (Upd.fab { u.fab with puts := u.fab.puts.filter (fun z => z.tag ≠ x.tag) }).apply u := by
  unfold putFinish
  rw [hs]
  rfl

theorem run_putFinish_signed {u : State} {x : PutOut} {a err : Nat} (hs : x.sig = some a) :
    Act.run (putFinish x err) u = Act.run (signalWord x.hub x.part a err x.value)
      ((Upd.fab { u.fab with puts := u.fab.puts.filter (fun z => z.tag ≠ x.tag) }).apply u) := by
  unfold putFinish
  rw [hs]
  rfl

/-- An entry that waited too long is sent again, while it has been sent again fewer than three times. -/
theorem run_putTimeout {s : State} {tag : Nat} {x : PutOut} (hx : s.fab.puts.find? (fun x => x.tag = tag) = some x)
    (hlate : x.sentAt + s.fldOf R.FAB_PUT_CFG F.FAB_PUT_CFG.put_timeout_us * 1000 ≤ s.now) (hn : x.tries < 3) :
    Act.run (putTimeout tag) s = Act.run (do
      Act.upd (.fab { s.fab with
        puts := s.fab.puts.map (fun z => if z.tag = x.tag then { z with tries := z.tries + 1, sentAt := s.now } else z) })
      count (C.PUT_RESEND (s.viaPort x.via)) 1
      for k in x.pkts do putSend x.part x.via x.vl k) s := by
  unfold putTimeout
  rw [run_get_bind, hx]
  dsimp only
  rw [if_pos hlate]
  unfold putAgain
  rw [run_get_bind, if_neg (Nat.not_le.2 hn)]
  rfl

theorem remoteCopies : RemoteCopies := by
  refine ⟨fun s u v r p refused hw h hu hnew hroom hwr => ?_, fun s u r p tag n x hw h hu htag hn hx gone hgone =>
    ⟨fun hr => ?_, fun hr hm => ?_, fun hr hm h0 => ?_, fun hr hm h0 bad v hv => ?_⟩, fun s u r p x hw h hu hx =>
    ⟨fun hr => ?_, fun hr hs => ?_, fun a hr hs => ?_⟩, fun s tag x h hx hlate hn => ?_⟩
  · exact (next_run_mains_served ⟨h.1, hw⟩ _).trans (congrArg Host.Outcome.next (run_putPacket_new h hu hnew hroom hwr))
  · exact (next_run_mains_served ⟨h.1, hw⟩ _).trans (congrArg Host.Outcome.next (run_putEnd_refused h hu htag hx hgone hr))
  · exact (next_run_mains_served ⟨h.1, hw⟩ _).trans (congrArg Host.Outcome.next (run_putEnd_missing h hu htag hn hx hr hm))
  · exact (next_run_mains_served ⟨h.1, hw⟩ _).trans (congrArg Host.Outcome.next
      (run_putEnd_unsigned h hu htag hn hx hgone hr hm h0))
  · refine (next_run_mains_served ⟨h.1, hw⟩ _).trans (congrArg Host.Outcome.next (run_putEnd_whole h hu htag hn hx hgone hr hm ?_))
    rwa [if_neg h0]
  · exact (next_run_mains_served ⟨h.1, hw⟩ _).trans (congrArg Host.Outcome.next (run_putDone_resend h hu hx hr))
  · exact (next_run_mains_served ⟨h.1, hw⟩ _).trans (congrArg Host.Outcome.next
      ((run_putDone_finish h hu hx hr).trans (run_putFinish_unsigned hs)))
  · exact (next_run_mains_served ⟨h.1, hw⟩ _).trans (congrArg Host.Outcome.next
      ((run_putDone_finish h hu hx hr).trans (run_putFinish_signed hs)))
  · exact (next_run_mains h _).trans (congrArg Host.Outcome.next (run_putTimeout hx hlate hn))

/-! ## Mirrored journals (R441) -/

section
variable {s u : State} {r : RxPacket} {p : Nat} (h : Receives s r 0x30 (some p)) (hu : u = received s r)
include h hu

theorem run_mirrorPacket_unnamed (he : u.mirrorEntry p (pkSrc r.bytes) = none) :
    Act.run (mirrorPacket r) s = Act.run (count (C.KEY_DROP r.port) 1) u := by
  unfold mirrorPacket
  rw [run_onPacket h, ← hu]
  dsimp only
  rw [run_get_bind, he]

theorem run_mirrorPacket_outside {w : Word} (he : u.mirrorEntry p (pkSrc r.bytes) = some w)
    (hout : 2 ^ getFld w F.PRT_MIRROR.log_size < pkArg0 r.bytes % 2 ^ 48 + (pkBody r.bytes).length) :
    Act.run (mirrorPacket r) s = Act.run (count (C.KEY_DROP r.port) 1) u := by
  unfold mirrorPacket
  rw [run_onPacket h, ← hu]
  dsimp only
  rw [run_get_bind, he]
  dsimp only
  rw [if_pos hout]

/-- Bytes that fit are written, and then the run of whole entries is looked at. -/
theorem run_mirrorPacket_taken {v : State} {w : Word} {at_ pos base size m seq pos' : Nat}
    (he : u.mirrorEntry p (pkSrc r.bytes) = some w) (hsize : size = 2 ^ getFld w F.PRT_MIRROR.log_size)
    (hbase : base = getFld w F.PRT_MIRROR.base * 65536) (hfit : pkArg0 r.bytes % 2 ^ 48 + (pkBody r.bytes).length ≤ size)
    (hm : m = mirrorKey p (pkSrc r.bytes))
    (hr : Runs (do
      let _ ← gWrite (portSrc r.port) p (base + pkArg0 r.bytes % 2 ^ 48) (pkBody r.bytes)
      count (C.PRT_CNT_MIRROR_BYTES p) (pkBody r.bytes).length
      let a ← ldW m
      let b ← ldW (m + 2 ^ 20)
      engNotes p ((jPieces size 34 b (List.replicate 32 0)).map (fun x => (1, base + x.1, x.2.length)))
      pure (a, b)) u (at_, pos) v)
    (hscan : (seq, pos') = v.mirrorScan p base size 4096 (v.mirrorFrom p base size at_ pos).1 (v.mirrorFrom p base size at_ pos).2) :
    Act.run (mirrorPacket r) s = Act.run (do
      if seq ≠ at_ then
        stW m seq
        stW (m + 2 ^ 20) (pos' % size)
        let _ ← sendAuto p 3 (pkSrc r.bytes) 0x31 seq 0 []) v := by
  subst hsize hbase hm
  unfold mirrorPacket
  rw [run_onPacket h, ← hu]
  dsimp only
  rw [run_get_bind, he]
  dsimp only
  rw [if_neg (Nat.not_lt.2 hfit)]
  refine (run_bind_of_runs u hr (fun x => do
    let (seq, pos') ← rd (fun t => t.mirrorScan p _ _ 4096 (t.mirrorFrom p _ _ x.1 x.2).1 (t.mirrorFrom p _ _ x.1 x.2).2)
    if seq ≠ x.1 then
      stW (mirrorKey p (pkSrc r.bytes)) seq
      stW (mirrorKey p (pkSrc r.bytes) + 2 ^ 20) (pos' % _)
      let _ ← sendAuto p 3 (pkSrc r.bytes) 0x31 seq 0 [])).trans ?_
  rw [run_rd_bind, ← hscan]

end

/-! ## Discarded packets (R331) -/

/-- A packet that is not taken goes on if it is in transit, and is taken from the buffer and dropped if it fails a check. -/
theorem run_discardPacket {s : State} {r : RxPacket} {c : PktCheck} (hl : s.portState r.port = 2 ∨ s.portState r.port = 3)
    (hc : s.checkPacket r = c) (hbad : ∀ q, c ≠ .ok q) : Act.run (discardPacket r) s =
      if c = .transit then Act.run (sendOn r) s else Act.run (dropPacket r c) (received s r) := by
  have up : (s.portState r.port ≠ 2 && s.portState r.port ≠ 3) = false := by
    rcases hl with e | e <;> simp [e]
  unfold discardPacket
  rw [run_get_bind]
  simp only [up, hc, Bool.false_eq_true, if_false]
  cases c with
  | ok q => exact absurd rfl (hbad q)
  | transit => rfl
  | badCrc => exact (takePacket_only r).run_bind _ s
  | drop logged => exact (takePacket_only r).run_bind _ s

theorem mirrorsAndDiscards : MirrorsAndDiscards := by
  refine ⟨fun s u r p hw h hu => ⟨fun he => ?_, fun w he hout => ?_, fun v w at_ pos base size m seq pos' he hs hb hf hm hr hsc => ?_⟩,
    fun s r c h hl hc hbad => ?_⟩
  · exact (next_run_mains_served ⟨h.1, hw⟩ _).trans (congrArg Host.Outcome.next (run_mirrorPacket_unnamed h hu he))
  · exact (next_run_mains_served ⟨h.1, hw⟩ _).trans (congrArg Host.Outcome.next (run_mirrorPacket_outside h hu he hout))
  · exact (next_run_mains_served ⟨h.1, hw⟩ _).trans (congrArg Host.Outcome.next (run_mirrorPacket_taken h hu he hs hb hf hm hr hsc))
  · exact (next_run_mains h _).trans (congrArg Host.Outcome.next (run_discardPacket hl hc hbad))

/-- Settles O55 (it holds): a copy's packets, its end and its answer, a journal's mirror, and a packet that is not taken. -/
theorem copiesAndMirrors : Obligations.CopiesAndMirrors := ⟨remoteCopies, mirrorsAndDiscards⟩

end Sys2Proof.Machine
end

section

/-! # Collectives (O56) -/

namespace Sys2Proof.Machine
open Host

/-! ## Launch (R357, R358) -/

/-- The entry's place in the queue is taken, and it is open. -/
def launchOpens (p : PartId) (i : Nat) (x : ColE) : Act Unit := do
  wrF (R.PRT_CLQ_HEAD p) F.PRT_CLQ_HEAD.started (i + 1)
  modCol (fun y => { y with cols := y.cols ++ [x] })

/-- The open collectives are shown, and the launch counted. -/
def launchTallies (s : State) (p : PartId) (e : List Byte) : Act Unit := do
  wrF (R.PRT_COL_STATUS p) F.PRT_COL_STATUS.open_ ((s.col.cols.filter (fun d => d.part = p.val)).length + 1)
  count (C.COL_CNT_LAUNCHED p) 1
  if ceTick e < s.tick then count (C.COL_CNT_LATE_LAUNCH p) 1

theorem launchOpens_only (p : PartId) (i : Nat) (x : ColE) : Only [.regs, .col] (launchOpens p i x) :=
  .bind ((wrF_only _ _ _).sub rfl) fun _ => (modCol_only _).sub rfl

theorem launchTallies_only (s : State) (p : PartId) (e : List Byte) : Only [.regs] (launchTallies s p e) :=
  .bind (wrF_only _ _ _) fun _ => .bind (count_only _ _) fun _ => .ite (count_only _ _) (.pure _ _)

/-- The tallies leave the head of the queue. -/
theorem launchTallies_writes (s : State) (p : PartId) (e : List Byte) :
    WritesOnly (fun r => IsCounter r ∨ r = R.PRT_COL_STATUS p) (launchTallies s p e) := by
  refine .bind (wrF_writes (Or.inr rfl)) fun _ => .bind (count_writes ?_ fun _ => Or.inl) fun _ =>
    .ite (count_writes ?_ fun _ => Or.inl) .pure
  · left
    simp only [C.COL_CNT_LAUNCHED, regA, pageBase, Block.base]
    omega
  · left
    simp only [C.COL_CNT_LATE_LAUNCH, regA, pageBase, Block.base]
    omega

theorem clqHead_not_tallied (p : PartId) : ¬ (IsCounter (R.PRT_CLQ_HEAD p) ∨ R.PRT_CLQ_HEAD p = R.PRT_COL_STATUS p) := by
  simp only [IsCounter, R.PRT_CLQ_HEAD, R.PRT_COL_STATUS, regA, pageBase, Block.base]
  omega

/-- The planes are told, and the inputs go out unless the entry waits for its ready word. -/
def launchSends (p : PartId) (e : List Byte) (x : ColE) : Act Unit := do
  colToPlanes p e 0x40 (colOpenBody e)
  if !ceWait e then colInputs x

def State.launched (s : State) (p : PartId) (i : Nat) (e : List Byte) (x : ColE) : State :=
  Act.run (launchTallies s p e) (Act.run (launchOpens p i x) s)

theorem launched_fields (s : State) (p : PartId) (i : Nat) (e : List Byte) (x : ColE) :
    (s.launched p i e x).col = { s.col with cols := s.col.cols ++ [x] } ∧ (s.launched p i e x).clqStarted p = (i + 1) % 2 ^ 32 ∧
      SameBut [.regs, .col] s (s.launched p i e x) := by
  have tallies := (launchTallies_only s p e).run (Act.run (launchOpens p i x) s)
  have head := ((launchTallies_writes s p e).keepsFld (g := F.PRT_CLQ_HEAD.started) (clqHead_not_tallied p)).run
    (Act.run (launchOpens p i x) s)
  exact ⟨tallies.2 .col (by decide), head.trans (fldOf_put_self s _ _ _ (by decide)),
    ((launchOpens_only p i x).run s).trans (tallies.mono (by decide))⟩

section
variable {s : State} {p : PartId} {op i : Nat} {e : List Byte} {x : ColE} (hd : s.colDue p = some (i, e)) (hop : ceOp e = op)
  (hq : s.quenched p = false) (hg : ceGood e = true) (hm : s.ceMapped p e = true)
  (hfree : s.col.cols.any (fun d => ceGroup d.entry = ceGroup e && ceSeq d.entry = ceSeq e) = false)
  (hroom : s.col.cols.length < 256) (hplanes : ∀ k ∈ cePlanes e, s.portState k ≠ 4)
  (hx : x = { part := p, idx := i, entry := e, launched := s.now })
include hd hop hq hg hm hfree hroom hplanes hx

/-- The entry at the front of the queue opens, and its COL_OPEN and its inputs go out. -/
theorem run_colOp_launch : Act.run (colOp p op) s = Act.run (launchSends p e x) (s.launched p i e x) := by
  have usable : (cePlanes e).find? (fun k => s.portState k = 4) = none := by
    rw [List.find?_eq_none]
    intro k hk
    simpa using hplanes k hk
  subst hop hx
  unfold colOp colLaunch
  rw [run_bind_bind, run_get_bind]
  simp only [hd, hq, hg, hm, hfree, Nat.not_le.2 hroom, usable, Option.any_some, ne_eq, not_true_eq_false, decide_false,
    Bool.false_and, Bool.false_eq_true, if_false, Bool.not_true, Bool.or_self]
  unfold State.launched
  refine Eq.trans ?_ ((launchOpens_only p i _).run_bind (fun _ => launchTallies s p e >>= fun _ =>
    launchSends p e { part := p, idx := i, entry := e, launched := s.now }) s |>.trans ((launchTallies_only s p e).run_bind _ _))
  unfold launchOpens launchTallies launchSends
  split
  all_goals cases ceWait e <;> rfl

end

/-- An entry whose ready word has its value sends its inputs. -/
theorem run_colReady {s : State} {p : PartId} {i page off : Nat} {c : ColE}
    (hc : s.col.cols.find? (fun c => c.part = p.val && c.idx = i) = some c) (hw : ceWait c.entry = true) (hr : c.ready = none)
    (hq : s.quenched p = false)
    (hpl : s.tilePlace p (bits (ceReadyAt c.entry) 31 22 * 2 ^ 22 + bits (ceReadyAt c.entry) 18 0 * 8) 8 = .ok (page, off))
    (hv : ceReadyVal c.entry ≤ s.memNum (tileKey page off) 8) : Act.run (colReady p i) s = Act.run (colInputs c) s := by
  unfold colReady
  rw [run_get_bind, hc]
  dsimp only
  rw [if_pos ⟨hw, by rw [hr]; rfl, by rw [hq]; rfl⟩, hpl]
  dsimp only
  rw [if_pos hv]

theorem exec_colOps {s : State} (h : s.clear) {p : PartId} {op : Nat} {c : Instr}
    (hc : (op, c) ∈ [(1, Instr.allreduce p), (2, .reduceScatter p), (3, .allgather p), (4, .broadcast p)]) :
    exec c s = .next (Act.run (colOp p op) s) := by
  simp only [List.mem_cons, Prod.mk.injEq, List.not_mem_nil, or_false] at hc
  obtain ⟨rfl, rfl⟩ | ⟨rfl, rfl⟩ | ⟨rfl, rfl⟩ | ⟨rfl, rfl⟩ := hc <;> exact next_run_mains_served h _

theorem collectivesLaunch : CollectivesLaunch := by
  refine ⟨fun s p op i c e x hc h hd hop hq hg hm hfree hroom hplanes hx => ?_, fun s p i page off c h hc hw hr hq hpl hv => ?_⟩
  · obtain ⟨col, started, same⟩ := launched_fields s p i e x
    exact ⟨s.launched p i e x, col, started, same, (exec_colOps h hc).trans
      (congrArg Host.Outcome.next (run_colOp_launch hd hop hq hg hm hfree hroom hplanes hx))⟩
  · exact (next_run_mains_served h _).trans (congrArg Host.Outcome.next (run_colReady hc hw hr hq hpl hv))

/-! ## Results, requests and ends (R362, R367) -/

section
variable {s u : State} {r : RxPacket} {p k : Nat} {c : ColE}

/-- The first packet of a result chunk of several is written and remembered. -/
theorem run_colOut_first {v : State} {i : Nat} {o : Option Nat} (h : Receives s r 0x42 (some p)) (hu : u = received s r)
    (hc : u.colOf p r.bytes = some c) (hk : k = pkArg0 r.bytes % 2 ^ 16) (hi : i = bits (pkArg0 r.bytes) 19 16)
    (he : (ceExpected c.entry).contains k = true) (hok : c.ok.contains k = false) (hlen : 4096 * i < (cePlace c.entry k).2)
    (hparts : c.parts.find? (fun x => x.1 = k) = none) (hmore : 4096 < (cePlace c.entry k).2)
    (hw : Runs (spWrite (u.colSrc p) p (refSpace (ceDst c.entry)) (refAddr (ceDst c.entry) + (cePlace c.entry k).1 + 4096 * i)
      ((pkBody r.bytes).take ((cePlace c.entry k).2 - 4096 * i))) u o v) :
    Act.run (colOut r) s = Act.run (putCol { c with
      parts := c.parts.filter (fun x => x.1 ≠ k) ++ [(k, [i], pkArg1 r.bytes)] }) v := by
  unfold colOut
  rw [run_onPacket h, ← hu]
  dsimp only
  rw [run_get_bind, hc]
  simp only [← hk, ← hi, he, hok, hparts, Nat.not_le.2 hlen, decide_false, Bool.not_true, Bool.or_false, Bool.false_eq_true, if_false, if_true]
  rw [run_bind_of_runs u hw, if_pos (by simp only [List.length_singleton]; omega)]

/-- An input chunk that is asked for is read and sent again. -/
theorem run_colResend (h : Receives s r 0x44 (some p)) (hu : u = received s r) (hc : u.colOf p r.bytes = some c)
    (hk : k = numAt (pkBody r.bytes) 0 4) (hs : ceSends c.entry = true) (hn : k < ceChunks c.entry) (hsent : c.sent.isSome = true) :
    Act.run (colResend r) s = Act.run (do
      count (C.COL_CNT_RESEND p) 1
      colSendChunk p c.entry k) u := by
  subst hk
  unfold colResend
  rw [run_onPacket h, ← hu]
  dsimp only
  rw [run_rd_bind, hc]
  dsimp only
  rw [if_pos ⟨hs, hn, hsent⟩]

/-- A plane's DONE is kept, and the collective settled, where no chunk of the plane is still awaited. -/
theorem run_colDone {b : List Byte} (h : Receives s r 0x45 (some p)) (hu : u = received s r) (hc : u.colOf p r.bytes = some c)
    (hb : b = bytesAt (pkBody r.bytes) 0 32) (hk : k = donePlane b) (hpl : (cePlanes c.entry).contains k = true)
    (hd : c.dones.any (fun d => d.1 = k) = false)
    (hin : doneStatus b ≠ 0 ∨ c.dataBad = true ∨ ∀ x ∈ ceExpected c.entry, cePlane c.entry x = k → c.ok.contains x = true) :
    Act.run (colDone r) s = Act.run (do
      putCol { c with dones := c.dones ++ [(k, b)] }
      colSettle { c with dones := c.dones ++ [(k, b)] }) u := by
  subst hk
  have through : (doneStatus b = 0 ∧ (!c.dataBad) = true) →
      (ceExpected c.entry).filter (fun x => cePlane c.entry x = donePlane b && !c.ok.contains x) = [] := by
    rintro ⟨h0, hbad⟩
    rw [List.filter_eq_nil_iff]
    intro x hx
    obtain e | e | e := hin
    · exact absurd h0 e
    · rw [e] at hbad
      exact absurd hbad (by decide)
    · have := e x hx
      grind
  unfold colDone
  rw [run_onPacket h, ← hu]
  dsimp only
  rw [run_rd_bind, hc]
  simp only [← hb, hpl, hd, Bool.not_true, Bool.or_false, Bool.false_eq_true, if_false]
  by_cases g : doneStatus b = 0 ∧ (!c.dataBad) = true
  · rw [if_pos g, through g]
    rfl
  · rw [if_neg g]
    rfl

end

/-- A collective whose time has passed, the time under quench not counted, ends TIMEOUT. -/
theorem run_colTimeout {s : State} {p : PartId} {i : Nat} {c : ColE}
    (hc : s.col.cols.find? (fun c => c.part = p.val && c.idx = i) = some c) (hq : s.quenched p = false)
    (hlate : c.launched + c.paused + s.fldOf (R.PRT_COL_CTRL p) F.PRT_COL_CTRL.col_timeout_us * 1000 ≤ s.now) :
    Act.run (colTimeout p i) s = Act.run (colEnd c 2 0 true) s := by
  unfold colTimeout
  rw [run_get_bind, hc]
  dsimp only
  rw [if_pos ⟨by rw [hq]; rfl, hlate⟩]

theorem runs_blockWrite_colAbort {s : State} {p : PartId} {y : BusX} :
    Runs (blockWrite y .prt p 0x6a0 1) s none (Act.run (colAbort p true) s) :=
  (Runs.get s).bind (runs_andDone (colAbort_only _ _) s)

theorem answered_colAbort {s : State} {core : CoreId} {p : PartId} (ha : Admits s core (R.PRT_COL_ABORT p) 1) :
    ∃ t, exec (.colAbort core p) s = .next t ∧ Answered (Act.run (colAbort p true) s) t :=
  ⟨_, rfl, answered_busWriteX_block (b := .prt) p.isLt (by decide) (by decide) ha fun _ => runs_blockWrite_colAbort⟩

theorem collectivesEnd : CollectivesEnd := by
  refine ⟨fun s u v r p k i o c hw h hu hc hk hi he hok hlen hparts hmore hwr => ?_, fun s u r p k c hw h hu hc hk hs hn hsent => ?_,
    fun s u r p k c b hw h hu hc hb hk hpl hd hin => ?_, fun s p i c h hc hq hlate => ?_, fun s core p ha => answered_colAbort ha⟩
  · exact (next_run_mains_served ⟨h.1, hw⟩ _).trans (congrArg Host.Outcome.next
      (run_colOut_first h hu hc hk hi he hok hlen hparts hmore hwr))
  · exact (next_run_mains_served ⟨h.1, hw⟩ _).trans (congrArg Host.Outcome.next (run_colResend h hu hc hk hs hn hsent))
  · exact (next_run_mains_served ⟨h.1, hw⟩ _).trans (congrArg Host.Outcome.next (run_colDone h hu hc hb hk hpl hd hin))
  · exact (next_run_mains h _).trans (congrArg Host.Outcome.next (run_colTimeout hc hq hlate))

/-- Settles O56 (it holds): an entry launches, its results, requests and DONEs are taken, and it ends with a record. -/
theorem collectives : Obligations.Collectives := ⟨collectivesLaunch, collectivesEnd⟩

end Sys2Proof.Machine
end

section

/-! # A partition reset that lets stray flits go (O59)

The lane of a waiting flit is not bounded in the model's state. The deficit round robin goes on serving the lane it is at (R328), and
a port counts the bytes it sends at `8 * vl` above its first counter (R353). Past the counters of its page that word is a register of
another block: here REQ_PART_CTRL, which the reset has just cleared. -/

namespace Sys2Proof.Machine
open Host

/-! ## A port with one flit of a lane beyond the nine -/

/-- One byte of no partition, in a packet of one flit. -/
def strayFlit (v : Nat) : TxFlit := { vl := v, cmd := false, sop := true, eop := true, payload := [0] }

section
variable {s : State} {k v : Nat} (hv : 6 ≤ v)

/-- The stray flit is all the port has to send. -/
structure Strays (s : State) (k v : Nat) : Prop where
  serves : s.pageServes (portPage k) = true
  queued : (s.port k).txq = [strayFlit v]
  between : (s.port k).mid = []

/-- It may go: the port is up, its replay buffer is empty, its lane has a credit, and the round robin is at that lane. -/
structure MayStray (s : State) (k v : Nat) : Prop extends Strays s k v where
  up : s.portState k = 2
  replay : (s.port k).replay = []
  at_ : (s.port k).drrLane = v
  left : 0 < (s.port k).drrLeft
  credit : 0 < (s.port k).credit.getD (v + 1) 0

include hv

theorem lane_strayFlit : (strayFlit v).lane = v + 1 := by
  have nonzero : v ≠ 0 := by omega
  exact if_neg nonzero

theorem Strays.flitNext (h : Strays s k v) (i : Nat) : s.flitNext k i = if i = v + 1 then some (strayFlit v) else none := by
  have held : s.flitHeld k (strayFlit v) = false := by
    unfold State.flitHeld
    rw [h.serves]
    rfl
  have share : s.overShare k (strayFlit v) = false := rfl
  unfold State.flitNext
  simp only [h.queued, h.between, List.find?_nil, List.filter_cons, List.filter_nil, lane_strayFlit hv]
  by_cases hi : i = v + 1
  · subst hi
    simp [held, share, show (strayFlit v).src = none from rfl]
  · rw [if_neg hi, if_neg (by simp [Ne.symm hi])]
    rfl

theorem Strays.flitReady_other (h : Strays s k v) {i : Nat} (hi : i ≠ v + 1) : s.flitReady k i = false := by
  unfold State.flitReady State.credited
  rw [h.flitNext hv, if_neg hi]
  rfl

theorem MayStray.drrPick (h : MayStray s k v) : s.drrPick k = some (v, (s.port k).drrLeft) := by
  have ready : s.flitReady k (v + 1) = true := by
    unfold State.flitReady State.credited State.capped
    rw [h.toStrays.flitNext hv, if_pos rfl]
    rw [Option.isSome_some, decide_eq_true h.credit]
    simp [show v ≠ 0 by omega, show v ≠ 5 by omega]
  unfold State.drrPick
  simp only [h.at_, ready, h.left, decide_true, Bool.and_self, if_true]

end

section
variable {s : State} {k v : Nat}

/-- The slot's waits are counted, and the round robin's quantum falls. -/
def State.picked (s : State) (k v : Nat) : State :=
  Act.run (modPort k (fun x => { x with drrLane := v, drrLeft := (s.port k).drrLeft - 1 })) (Act.run (slotWaits k 1) s)

theorem isCounter_portArray {x n : Nat} (h : 0x800 ≤ x ∧ x + n < 0x1000) :
    IsCounter ((if k < 8 then regA .fab k x else regA .bms (k - 8) x) + n) := by
  unfold IsCounter
  split <;> simp only [regA, pageBase, Block.base] <;> omega

/-- What a port counts in a slot it counts on its own page, or for a partition. -/
theorem slotWaits_counters (k n : Nat) : WritesOnly IsCounter (slotWaits k n) := by
  have cnt {c : Prop} [Decidable c] {a m : Nat} (h : IsCounter a) {rest : Act Unit} (hr : WritesOnly IsCounter rest) :
      WritesOnly IsCounter (if c then do count a m; rest else rest) := .ite (.bind (count_counters h) fun _ => hr) hr
  refine .bind .get fun s => .bind (.forIn_mem fun v hv _ => ?_) fun _ => .bind (.forIn fun i _ => ?_) fun _ => ?_
  · have lane : v < 8 := List.mem_range.1 hv
    have stall {c : Prop} [Decidable c] : WritesOnly IsCounter (if c then do count (C.STALL_VL k v) n; return ForInStep.yield ()
        else return ForInStep.yield ()) := .ite (.bind (count_counters (isCounter_portArray (by omega))) fun _ => .pure) .pure
    exact .ite (.bind (count_counters (isCounter_portArray (by omega))) fun _ => stall) stall
  · split
    · next p _ =>
      refine .bind (count_counters ?_) fun _ => .pure
      simp only [IsCounter, C.PRT_CNT_VL_CAP_WAIT, regA, pageBase, Block.base]
      omega
    · exact .bind .pure fun _ => .pure
  · have own {x : Nat} (h : 0x800 ≤ x ∧ x + 0 < 0x1000) : IsCounter (if k < 8 then regA .fab k x else regA .bms (k - 8) x) :=
      isCounter_portArray h
    refine cnt (own (by decide)) (cnt (own (by decide)) (cnt ?_ (.ite (count_counters (own (by decide))) .pure)))
    simp only [IsCounter, C.TRANSIT_CAP, regA, pageBase, Block.base]
    omega

theorem port_slotWaits (k n j : Nat) (s : State) : (Act.run (slotWaits k n) s).port j = s.port j :=
  port_congr (((slotWaits_only k n).run s).2 .ports (by decide)) j

theorem reg_picked {r : Nat} (hr : r % 0x1000 < 0x800) : (s.picked k v).reg r = s.reg r :=
  (slotWaits_counters k 1).reg s (Nat.not_le.2 hr)

theorem port_picked : (s.picked k v).port k = { s.port k with drrLane := v, drrLeft := (s.port k).drrLeft - 1 } := by
  exact (port_upd_self _ _ _).trans (congrArg (fun x => { x with drrLane := v, drrLeft := (s.port k).drrLeft - 1 }) (port_slotWaits k 1 k s))

theorem Strays.picked (h : Strays s k v) : Strays (s.picked k v) k v := by
  have record : (s.picked k v).record = s.record := ((slotWaits_only k 1).run s).2 .record (by decide)
  refine ⟨?_, by rw [port_picked]; exact h.queued, by rw [port_picked]; exact h.between⟩
  have serves := h.serves
  have page : (portPage k + 0x10) % 0x1000 < 0x800 := by
    unfold portPage
    split <;> simp only [pageBase, Block.base] <;> omega
  unfold State.pageServes State.fldOf at serves ⊢
  rw [reg_picked page, record]
  exact serves

/-- Where a stray flit leaves from a state, its bytes are counted at its lane, and the port has nothing more to send. -/
theorem run_sendFlit_stray (hv : 6 ≤ v) (h : Strays s k v) :
    ∃ u, Act.run (sendFlit k (v + 1)) s = Act.run (count (C.TX_BYTES_VL k v) 1) u ∧ u.regs = s.regs ∧ (u.port k).txq = [] := by
  have next : s.flitNext k (v + 1) = some (strayFlit v) := (h.flitNext hv _).trans (if_pos rfl)
  refine ⟨?after, ?run, ?regs, ?txq⟩
  case run =>
    unfold sendFlit
    rw [run_get_bind, next]
    dsimp only
    rw [run_upd_bind, run_bind_of_runs _ (putFlit_runs _ _ _ _ _ _)]
    rfl
  case regs => rfl
  case txq =>
    have gone (x : PortX) : (flitGone x).txq = x.txq := by
      obtain ⟨a, b, c, e⟩ := x.slots_eq 1
      unfold flitGone
      rw [e]
    refine (congrArg PortX.txq (port_upd_self _ _ _)).trans ((gone _).trans ((congrArg PortX.txq (port_upd_self _ _ _)).trans ?_))
    dsimp only
    rw [h.queued, List.erase_cons_head]

/-- A count in a register that reads 0. -/
theorem run_count_zero {s : State} {a : Nat} (h : s.reg a = 0) (n : Nat) :
    Act.run (count a n) s = (Upd.reg a (countWord 0 n)).apply s := by
  unfold count
  rw [run_rdR_bind, h]
  simp only [show ¬ getFld (0 : Word) F.COUNTER.chain_high = 1 by decide, show ¬ getFld (0 : Word) F.COUNTER.chain_low = 1 by decide,
    if_false, false_and]
  rfl

theorem run_pumpPort_empty (h : (s.port k).txq = []) (fuel : Nat) : Act.run (pumpPort k fuel) s = s := by
  cases fuel with
  | zero => rfl
  | succ fuel =>
    unfold pumpPort
    rw [run_get_bind]
    dsimp only
    rw [if_pos (.inr (.inl (by rw [h]; rfl)))]
    rfl

theorem MayStray.run_pumpPort (hv : 6 ≤ v) (h : MayStray s k v) (fuel : Nat) :
    Act.run (pumpPort k (fuel + 1)) s = Act.run (pumpPort k fuel) (Act.run (sendFlit k (v + 1)) (s.picked k v)) := by
  have go : ¬ (s.portState k ≠ 2 ∨ (s.port k).txq.isEmpty = true ∨ 1024 ≤ (s.port k).replay.length) := by
    simp [h.up, h.queued, h.replay]
  rw [pumpPort, run_get_bind]
  dsimp only
  rw [if_neg go, if_neg (by rw [h.flitReady_other hv (by omega)]; decide), if_neg (by rw [h.flitReady_other hv (by omega)]; decide),
    h.drrPick hv]
  dsimp only
  rw [(slotWaits_only _ _).run_bind, (modPort_only _ _).run_bind, (sendFlit_only _ _).run_bind]
  rfl

/-- The port counts the flit's byte at its lane, whatever register is there. -/
theorem MayStray.reg_pump (hv : 6 ≤ v) (h : MayStray s k v) (ha : C.TX_BYTES_VL k v % 0x1000 < 0x800)
    (h0 : s.reg (C.TX_BYTES_VL k v) = 0) : (Act.run (pump k) s).reg (C.TX_BYTES_VL k v) = countWord 0 1 := by
  obtain ⟨u, run, regs, txq⟩ := run_sendFlit_stray hv h.toStrays.picked
  have zero : u.reg (C.TX_BYTES_VL k v) = 0 := by
    rw [State.reg, regs]
    exact (reg_picked ha).trans h0
  have sent : Act.run (pumpPort k (2 * (s.port k).txq.length + 1)) s = (Upd.reg (C.TX_BYTES_VL k v) (countWord 0 1)).apply u := by
    rw [h.run_pumpPort hv, run, run_count_zero zero 1]
    exact run_pumpPort_empty (s := (Upd.reg _ _).apply u) txq _
  have told (t : State) : (Act.run (do for j in k :: [8, 9, 10, 11] do tellPeer j 10) t).regs = t.regs :=
    ((Only.forIn (l := [.ports, .sent]) _ _ fun _ _ => .bind (tellPeer_only _ _) fun _ => .pure _ _).run t).2 .regs (by decide)
  unfold pump
  rw [run_get_bind, (pumpPort_only _ _).run_bind, sent, State.reg, told]
  exact reg_upd_self _ _ _

end

/-! ## Ports that have nothing to send, to hold or to tell -/

def PortX.Told (x : PortX) : Prop := x.told = x.rxNext ∧ x.owed = []

def PortX.Quiet (x : PortX) : Prop := x.txq = [] ∧ x.held = [] ∧ x.Told

theorem runs_tellPeer_told {s : State} {j : Nat} (h : (s.port j).Told) (n : Nat) : Runs (tellPeer j n) s () s := by
  cases n with
  | zero => exact Runs.skip s
  | succ n =>
    have nothing : ¬ (s.portState j = 2 ∧ ((s.port j).told ≠ (s.port j).rxNext ∨ (s.port j).owed.any (fun n => decide (0 < n)) = true)) := by
      rw [h.1, h.2]
      simp
    rw [tellPeer]
    refine (Runs.get s).bind ?_
    dsimp only
    rw [if_neg nothing]
    exact Runs.skip s

theorem runs_pump_quiet {s : State} {k : Nat} (h : (s.port k).txq = []) (ht : ∀ j ∈ k :: [8, 9, 10, 11], (s.port j).Told) :
    Runs (pump k) s () s := by
  have sent : Runs (pumpPort k (2 * (s.port k).txq.length + 1)) s () s := by
    have e := (pumpPort_only k (2 * (s.port k).txq.length + 1)).runs s
    rwa [run_pumpPort_empty h] at e
  exact (Runs.get s).bind (sent.bind ((Runs.forIn_same fun j hj => (runs_tellPeer_told (ht j hj) 10).bind
    (Runs.pure (ForInStep.yield ()) s))))

/-- A port that holds nothing releases nothing. -/
theorem run_releaseHeld_none {s : State} {p k : Nat} (h : (s.port k).held = []) : Act.run (releaseHeld p k) s =
    Act.run (pump k) ((Upd.port k { s.port k with held := [] }).apply s) := by
  unfold releaseHeld
  rw [run_rd_bind, run_upd_bind]
  simp only [h, List.filter_nil]
  rfl

theorem port_upd_unheld {s : State} {k : Nat} (h : (s.port k).held = []) (j : Nat) :
    ((Upd.port k { s.port k with held := [] }).apply s).port j = s.port j := by
  have same : { s.port k with held := [] } = s.port k := by rw [← h]
  rw [same, port_upd_port]
  split
  · next e => rw [e]
  · rfl

theorem runs_releaseHeld_quiet {s : State} {p k : Nat} (h : (s.port k).Quiet) (ht : ∀ j ∈ [8, 9, 10, 11], (s.port j).Told) :
    ∃ t, Runs (releaseHeld p k) s () t ∧ (∀ j, t.port j = s.port j) ∧ SameBut [.ports] s t := by
  obtain ⟨txq, held, told⟩ := h
  have port := port_upd_unheld held
  refine ⟨(Upd.port k { s.port k with held := [] }).apply s, ?_, port, SameBut.upd _ s rfl⟩
  have quiet : Runs (pump k) ((Upd.port k { s.port k with held := [] }).apply s) () _ :=
    runs_pump_quiet (by rw [port, txq]) (fun j hj => by
      rw [port]
      rcases List.mem_cons.1 hj with rfl | hj
      · exact told
      · exact ht j hj)
  have e := (releaseHeld_only p k).runs s
  rwa [run_releaseHeld_none held, quiet.run_eq] at e

theorem runs_releases_quiet {p : Nat} {ks : List Nat} : ∀ {s : State}, (∀ k ∈ ks, (s.port k).Quiet) →
    (∀ j ∈ [8, 9, 10, 11], (s.port j).Told) →
    ∃ t, Runs (do for k in ks do releaseHeld p k) s () t ∧ (∀ j, t.port j = s.port j) ∧ SameBut [.ports] s t := by
  induction ks with
  | nil => exact fun {s} _ _ => ⟨s, Runs.pure _ _, fun _ => rfl, SameBut.refl _ _⟩
  | cons k ks ih =>
    intro s h ht
    obtain ⟨u, run, port, same⟩ := runs_releaseHeld_quiet (p := p) (h k List.mem_cons_self) ht
    obtain ⟨t, runs, ports, sames⟩ := ih (s := u) (fun j hj => by rw [port]; exact h j (List.mem_cons_of_mem _ hj))
      (fun j hj => by rw [port]; exact ht j hj)
    refine ⟨t, ?_, fun j => (ports j).trans (port j), same.trans sames⟩
    exact Runs.forIn_cons (run.bind (Runs.pure _ _)) runs

/-! ## The parts of a partition reset (R436) -/

/-- The queue has no entry left and no collective is open: there is nothing to abort. -/
theorem run_colAbort_idle {s : State} {p : Nat} (hc : s.col.cols = []) (hq : s.clqStarted p = s.clqTail p) (write : Bool) :
    Act.run (colAbort p write) s = s := by
  unfold colAbort
  rw [run_rd_bind, hc]
  show Act.run (colQueuedEnd p write 256) s = s
  rw [colQueuedEnd, run_get_bind]
  dsimp only
  rw [if_neg (not_not.2 hq)]
  rfl

/-- What a reset does to a partition before its collectives end. -/
def resetQuenches (p : Nat) : Act Unit := do
  wrF R.HAY_RESET_STATUS F.HAY_RESET_STATUS.refused 0
  quenchPart p 0

/-- What it does after that, with the tiles and base slots the partition had, until its quench ends. -/
def resetClears (s : State) (p : Nat) : Act Unit := do
  for page in s.tilesOf p do tileFlushReset page
  flashStop p
  loadStop p
  fillStop p
  engineReset p
  for b in [0, 1] do
    if s.fldOf (R.BIN_BASE b) F.BIN_BASE.owner = p then baseAfterReset b
  unitsZero p
  wrF (R.PRT_CTRL p) F.PRT_CTRL.stop 0
  if s.partValid p then wrF (R.PRT_CTRL p) F.PRT_CTRL.state 1
  setPhase p 0
  wrF (R.REQ_PART_CTRL p) F.REQ_PART_CTRL.admit_enable 0

theorem resetClears_only (s : State) (p : Nat) :
    Only [.regs, .staged, .mem, .tab, .parts, .sites, .tiles, .fab, .mig, .flash, .ted, .load] (resetClears s p) := by
  refine .bind (.forIn _ _ fun _ _ => .bind ((tileFlushReset_only _).sub rfl) fun _ => .pure _ _) fun _ =>
    .bind ((flashStop_only _).sub rfl) fun _ => .bind ((loadStop_only _).sub rfl) fun _ => .bind ((fillStop_only _).sub rfl) fun _ =>
    .bind ((engineReset_only _).sub rfl) fun _ => .bind (.forIn _ _ fun _ _ =>
      .ite (.bind ((baseAfterReset_only _).sub rfl) fun _ => .pure _ _) (.pure _ _)) fun _ =>
    .bind ((unitsZero_only _).sub rfl) fun _ => .bind ((wrF_only _ _ _).sub rfl) fun _ => ?_
  have last : Only [.regs, .staged, .mem, .tab, .parts, .sites, .tiles, .fab, .mig, .flash, .ted, .load] (do
      setPhase p 0
      wrF (R.REQ_PART_CTRL p) F.REQ_PART_CTRL.admit_enable 0) :=
    .bind ((setPhase_only _ _).sub rfl) fun _ => (wrF_only _ _ _).sub rfl
  exact .ite (.bind ((wrF_only _ _ _).sub rfl) fun _ => last) last

theorem act_bind_assoc {α β γ : Type} (a : Act α) (f : α → Act β) (g : β → Act γ) : a >>= f >>= g = a >>= fun x => f x >>= g := rfl

theorem act_pure_bind {α β : Type} (x : α) (f : α → Act β) : pure x >>= f = f x := rfl

/-- The end of the quench, and of the reset. -/
def resetEnds (p : Nat) : Act Unit := do
  unquenchPart p
  count C.HAY_CNT_PART_RESETS 1

theorem resetEnds_only (p : Nat) : Only [.regs, .ports, .parts, .col, .sent] (resetEnds p) :=
  .bind (unquenchPart_only _) fun _ => (count_only _ _).sub rfl

/-- A reset of a partition that is not quenched: the quench, the clearing and the end of the quench, in order. -/
theorem runs_partitionReset {s : State} {p : Nat} (hp : ¬ 31 < p) (hq : s.quenched p = false) :
    Runs (partitionReset p) s none
      (Act.run (resetEnds p) (Act.run (resetClears s p) (Act.run (colAbort p false) (Act.run (resetQuenches p) s)))) := by
  have quenches : Only [.regs, .parts] (resetQuenches p) := .bind ((wrF_only _ _ _).sub rfl) fun _ => quenchPart_only _ _
  have parts : Runs (do resetQuenches p; colAbort p false; resetClears s p; resetEnds p; pure none : Act (Option Nat)) s none _ :=
    (quenches.runs s).bind (((colAbort_only p false).runs _).bind (((resetClears_only s p).runs _).bind
      (((resetEnds_only p).runs _).bind (Runs.pure none _))))
  have same (f : Option Nat → Act Unit) : Act.run (partitionReset p >>= f) s =
      Act.run ((do resetQuenches p; colAbort p false; resetClears s p; resetEnds p; pure none : Act (Option Nat)) >>= f) s := by
    unfold partitionReset
    rw [run_bind_bind, run_get_bind, if_neg hp]
    simp only [hq, Bool.not_false, if_true]
    unfold resetQuenches resetClears resetEnds
    split <;> simp only [act_bind_assoc, act_pure_bind]
  exact fun k => (same fun x _ => k x).trans (parts k)

/-- The quench's end, before the packets it held go. -/
def unquenches (s : State) (p : Nat) : Act Unit := do
  wrF R.FAB_QUENCHED F.FAB_QUENCHED.parts (clrBit (s.fldOf R.FAB_QUENCHED F.FAB_QUENCHED.parts) p)
  wrPart p { s.part p with quenchEnd := none }
  Act.upd (.col { s.col with cols := s.col.cols.map (fun c =>
    if c.part = p then { c with paused := c.paused + min (s.now - (s.part p).quenchAt) (s.now - c.launched) } else c) })

theorem unquenches_only (s : State) (p : Nat) : Only [.regs, .parts, .col] (unquenches s p) :=
  .bind ((wrF_only _ _ _).sub rfl) fun _ => .bind ((wrPart_only _ _).sub rfl) fun _ => .upd _ rfl

theorem run_unquenchPart {s : State} {p : Nat} (h : s.fldOf (R.PRT_CTRL p) F.PRT_CTRL.stop ≠ 1) (k : Unit → Act Unit) :
    Act.run (unquenchPart p >>= k) s = Act.run ((do for j in List.range 12 do releaseHeld p j) >>= k) (Act.run (unquenches s p) s) := by
  refine Eq.trans ?_ ((unquenches_only s p).run_bind (fun _ => (do for j in List.range 12 do releaseHeld p j) >>= k) s)
  unfold unquenchPart
  rw [run_bind_bind, run_get_bind, if_neg h]
  rfl

/-! ## The state that refutes the claim -/

/-- The lane at which port 11 counts in REQ_PART_CTRL of partition 0. -/
def strayLane : Nat := 654112

/-- A port whose round robin is at lane `v`, with a credit and a flit for it. -/
def strayPort (v : Nat) : PortX := { txq := [strayFlit v], credit := List.replicate (v + 2) 1, drrLane := v, drrLeft := 1 }

theorem strayPort_credit (v : Nat) : 0 < (strayPort v).credit.getD (v + 1) 0 := by
  have one : (List.replicate (v + 2) 1).getD (v + 1) 0 = 1 := List.getD_replicate (i := v + 1) (n := v + 2) 1 (by omega)
  exact Nat.lt_of_lt_of_eq Nat.one_pos one.symm

/-- Link 11 is up, with the stray flit to send. -/
def strayState : State := { regs := [(R.PORT_STATUS 11, 2)], ports := [(11, strayPort strayLane)] }

theorem strayCounter : C.TX_BYTES_VL 11 strayLane = R.REQ_PART_CTRL 0 := by decide +kernel

/-- The state once the partition is cleared, and once its quench is over too. -/
def strayEmptied : State := Act.run (resetClears strayState 0) (Act.run (resetQuenches 0) strayState)
def strayCleared : State := Act.run (unquenches strayEmptied 0) strayEmptied

/-- One evaluation of the reset so far, for all that is read of it below. -/
theorem strayCleared_reads : (strayCleared.pageServes (portPage 11) = true ∧ strayCleared.portState 11 = 2 ∧
    strayCleared.reg (R.REQ_PART_CTRL 0) = 0) ∧ strayEmptied.fldOf (R.PRT_CTRL 0) F.PRT_CTRL.stop ≠ 1 := by decide +kernel

theorem strayCleared_ports : strayCleared.ports = [(11, strayPort strayLane)] := by
  have quenches : Only [.regs, .parts] (resetQuenches 0) := .bind ((wrF_only _ _ _).sub rfl) fun _ => quenchPart_only _ _
  have e1 := (quenches.run strayState).2 .ports (by decide)
  have e2 := ((resetClears_only strayState 0).run (Act.run (resetQuenches 0) strayState)).2 .ports (by decide)
  have e3 := ((unquenches_only strayEmptied 0).run strayEmptied).2 .ports (by decide)
  exact e3.trans (e2.trans e1)

theorem strayState_aborts : Act.run (colAbort 0 false) (Act.run (resetQuenches 0) strayState) = Act.run (resetQuenches 0) strayState :=
  run_colAbort_idle (by decide +kernel) (by decide +kernel) false

/-- Every port of it but the last is quiet, and the last has told its peer all. -/
theorem strayPorts {s : State} (h : s.ports = [(11, strayPort strayLane)]) :
    s.port 11 = strayPort strayLane ∧ (∀ k ∈ List.range 11, (s.port k).Quiet) ∧ ∀ j ∈ [8, 9, 10, 11], (s.port j).Told := by
  have at11 : s.port 11 = strayPort strayLane := by
    rw [State.port, h]
    rfl
  have other {k : Nat} (hk : k ≠ 11) : s.port k = {} := by
    rw [State.port, h]
    simp [storeGet, hk]
  refine ⟨at11, fun k hk => ?_, fun j hj => ?_⟩
  · rw [other (by have := List.mem_range.1 hk; omega)]
    exact ⟨rfl, rfl, rfl, rfl⟩
  · by_cases e : j = 11
    · rw [e, at11]
      exact ⟨rfl, rfl⟩
    · rw [other e]
      exact ⟨rfl, rfl⟩

/-- Where the first eleven ports release nothing, the loop comes to the last. -/
theorem run_releases_last (p : Nat) (k : Unit → Act Unit) (s : State) :
    Act.run ((do for j in List.range 12 do releaseHeld p j) >>= k) s =
      Act.run ((do for j in List.range 11 do releaseHeld p j) >>= fun _ => releaseHeld p 11 >>= k) s := rfl

theorem strayCleared_mayStray {t : State} (hp : ∀ j, t.port j = strayCleared.port j) (hs : SameBut [.ports] strayCleared t) :
    MayStray t 11 strayLane := by
  obtain ⟨⟨serves, up, -⟩, -⟩ := strayCleared_reads
  obtain ⟨port, -, -⟩ := strayPorts strayCleared_ports
  have regs := hs.2 .regs (by decide)
  have at11 := (hp 11).trans port
  refine ⟨⟨?_, by rw [at11]; rfl, by rw [at11]; rfl⟩, (fldOf_congr regs _ _).trans up, by rw [at11]; rfl, by rw [at11]; rfl, by rw [at11]; decide, ?_⟩
  · rw [← serves]
    unfold State.pageServes
    rw [fldOf_congr regs, fldOf_congr regs, hs.2 .record (by decide)]
  · rw [at11]
    exact strayPort_credit _

/-- As the held packets are released, the register that admits the partition's requests counts the stray byte. -/
theorem reg_strayReleased (k : Unit → Act Unit) (hk : WritesOnly IsCounter (k ())) :
    (Act.run ((do for j in List.range 12 do releaseHeld 0 j) >>= k) strayCleared).reg (R.REQ_PART_CTRL 0) = countWord 0 1 := by
  obtain ⟨port, quiet, told⟩ := strayPorts strayCleared_ports
  obtain ⟨⟨-, -, cleared⟩, -⟩ := strayCleared_reads
  obtain ⟨t, runs, ports, same⟩ := runs_releases_quiet (p := 0) quiet told
  have held : (t.port 11).held = [] := by
    rw [ports, port]
    rfl
  have last : (Act.run (releaseHeld 0 11) t).reg (R.REQ_PART_CTRL 0) = countWord 0 1 := by
    have stray : MayStray ((Upd.port 11 { t.port 11 with held := [] }).apply t) 11 strayLane :=
      strayCleared_mayStray (fun j => (port_upd_unheld held j).trans (ports j)) (same.trans (SameBut.upd _ _ rfl))
    have zero : ((Upd.port 11 { t.port 11 with held := [] }).apply t).reg (R.REQ_PART_CTRL 0) = 0 := by
      refine Eq.trans ?_ cleared
      rw [State.reg, State.reg]
      exact congrArg (storeGet _ · _) (same.2 .regs (by decide))
    rw [run_releaseHeld_none held, ← strayCounter]
    exact stray.reg_pump (by decide) (by decide +kernel) (strayCounter ▸ zero)
  rw [run_releases_last, run_bind_of_runs _ runs, (releaseHeld_only _ _).run_bind]
  exact (hk.reg _ (by unfold IsCounter; decide)).trans last

theorem reg_strayReset : (Act.run (resetEnds 0) strayEmptied).reg (R.REQ_PART_CTRL 0) = countWord 0 1 := by
  unfold resetEnds
  rw [run_unquenchPart strayCleared_reads.2]
  exact reg_strayReleased _ (count_counters (by unfold IsCounter; decide))

theorem hayReset_partition0 : hayReset (BitVec.ofNat 64 (2 * 2 ^ 56 + 0)) = partitionReset 0 := by
  unfold hayReset
  rw [show getFld (BitVec.ofNat 64 (2 * 2 ^ 56 + 0)) F.HAY_RESET.op = 2 by decide,
    show getFld (BitVec.ofNat 64 (2 * 2 ^ 56 + 0)) F.HAY_RESET.target = 0 by decide]
  rfl

theorem strayState_admits : Admits strayState 0 R.HAY_RESET (BitVec.ofNat 64 (2 * 2 ^ 56 + 0)) := by
  unfold Admits
  decide +kernel

/-- A partition reset can end with the partition admitting. -/
theorem strayState_partitionReset : ∃ t, exec (.partitionReset 0 0) strayState = .next t ∧
    t.fldOf (R.REQ_PART_CTRL 0) F.REQ_PART_CTRL.admit_enable = 1 := by
  have runs := runs_partitionReset (s := strayState) (p := 0) (by decide) (by decide +kernel)
  rw [strayState_aborts, ← hayReset_partition0] at runs
  have done := answered_busWriteX_block (x := {}) (b := .hay) (p := 0) (off := 0x120) (by decide) (by decide) (by decide)
    strayState_admits fun _ => (Runs.get strayState).bind runs
  refine ⟨_, rfl, (fldOf_congr (done.1.2 .regs (by decide)) _ _).trans ?_⟩
  refine (congrArg (getFld · F.REQ_PART_CTRL.admit_enable) reg_strayReset).trans ?_
  decide

/-- Refutes O59: a stray flit's byte is counted in REQ_PART_CTRL as the reset of partition 0 ends its quench, and the partition
admits again. -/
theorem not_resets : ¬ Obligations.Resets := by
  rintro ⟨⟨-, reset, -⟩, -⟩
  obtain ⟨t, e, -, -, -, -, admits⟩ := reset strayState 0 0 strayState_admits
  obtain ⟨u, e', one⟩ := strayState_partitionReset
  obtain rfl : t = u := Host.Outcome.next.inj (e.symm.trans e')
  exact absurd (one.symm.trans admits) (by decide)

end Sys2Proof.Machine
end
